-- ==== Sys2Proof/Word.lean ====
section
/-! DEFINITION. Words and bytes, and their plainest arithmetic. -/

namespace Sys2Proof

set_option Elab.async false

/-- A 32-bit register (R461). -/
abbrev Word := BitVec 32
/-- A byte. -/
abbrev Byte := BitVec 8
/-- A string of bytes, lowest address first. -/
abbrev Bytes := List (BitVec 8)

/-- Bits [hi:lo] of a number. -/
def bitsOf (v hi lo : Nat) : Nat := v / 2 ^ lo % 2 ^ (hi + 1 - lo)

end Sys2Proof
end

