-- ==== Sys2Proof/Syntax.lean ====
section
/-! DEFINITION. The commands of the Drindoram stack as a block: one constructor of `Instr` per row of
spec/opcode_table.json. An operand is what the outside brings with the event (a packet, a register value, a
measurement, the bytes of a marker); everything the stack itself knows is in `State`. -/

namespace Sys2Proof

set_option Elab.async false

/-- The register access paths of R462: MREG packets, the I3C sideband, JTAG REGACC. -/
inductive Path | mreg | i3c | jtag
  deriving DecidableEq, Repr

/-- The rails of R27; VFUSE belongs to no power-good. -/
inductive RailId | vaon | vcore | vstore | vdram | vpp | vser | vserh | vfuse
  deriving DecidableEq, Repr

/-- The PLLs of Table 3.1. -/
inductive PllId
  | mgt | fab | chn | fox | sto
  | lpll (j : BitVec 3)
  | layer (l : BitVec 5)
  deriving DecidableEq, Repr

/-- The three gate register sets of Table 3.10. -/
inductive GateSet | run | sleep | deep
  deriving DecidableEq, Repr

/-- The dimensions of the DID in routing order (R155, R161). -/
inductive Dim | pod | ring | pos
  deriving DecidableEq, Repr

/-- Fence causes of Table 11.11. -/
inductive FenceCause | coupling | training | rail | notFound | clock
  deriving DecidableEq, Repr

/-- Trap causes that arise as events (R352, Table 15.10). -/
inductive TrapCause | fetch | pll | blockReset | watchdog
  deriving DecidableEq, Repr

/-- Which correction log: a channel's or the Marl's (R384). -/
inductive LogId
  | chan (c : BitVec 5)
  | marl
  deriving DecidableEq, Repr

/-- A unit the Marl patrol reads (R389): a cache line, by line number, a buffer cell, or an engine's instruction store. -/
inductive PatrolUnit
  | line (n : BitVec 34)
  | cell (slice : BitVec 6) (bank : BitVec 4) (unit : BitVec 12)
  | store (e : BitVec 5)
  deriving DecidableEq, Repr

/-- A hard-failed block or unit to be repaired (R392). -/
inductive RepairUnit
  | block (c : BitVec 5) (block : BitVec 26)
  | unit (slice : BitVec 6) (bank : BitVec 4) (unit : BitVec 12)
  deriving DecidableEq, Repr

/-- Fault causes of Table 18.2 and R445. -/
inductive FltCause
  | frcFail | refLost | slowFail | clockLost | foxPll | lpll | layerSilent
  | width | rail | railVstore
  | coilRepair | narrow | fence
  | dramUe | repair | repairRefused | marlUe | marlImage | sliceRetired | marlShort
  | foxTrap | foxDisabled | fwNone | fwCopy
  | otpLocked
  | lowWarn | lowStop | crit | trip | sensorBroken
  | lockstep | fabState | settErr
  deriving DecidableEq, Repr

/-- Equaliser settings of a lane (R118 step 3): CTLE, VGA, DFE taps 1 to 8 and the three PAM4 slicer thresholds. -/
structure EqSet where
  ctle : BitVec 4 := 0
  vga : BitVec 5 := 0
  dfe : List (BitVec 8) := [0, 0, 0, 0, 0, 0, 0, 0]
  slicer : List (BitVec 8) := [0, 0, 0]
  deriving DecidableEq, Repr

/-- A training marker as it arrives (R117): its 32 bytes, and the equaliser settings that adaptation on the stream has reached by then. -/
structure TmIn where
  raw : List (BitVec 8)
  eq : EqSet := {}
  deriving DecidableEq, Repr

/-- A failure of a lane (R125): it lost signal detect, or only clock recovery. -/
structure LaneLoss where
  lane : BitVec 8
  signal : Bool
  deriving DecidableEq, Repr

/-- What a test of a coil finds (R449): its direction (upward?), hop and coil, and its residual in units of 0.5 %. -/
structure CoilMeas where
  up : Bool
  dir : Bool
  hop : BitVec 5
  pos : BitVec 9
  resid : BitVec 8
  deriving DecidableEq, Repr

/-- A residual that a receiver of a column has measured (R263): direction (upward?), hop, coil, and units of 0.5 %. -/
structure CoilRes where
  dir : Bool
  hop : BitVec 5
  pos : BitVec 9
  resid : BitVec 8
  deriving DecidableEq, Repr

/-- What a coupling boundary finds (R262, R263, R244): which way the setting under calibration moves, whether the command offset moves
and which way, and the residuals measured since the last boundary. -/
structure Tap where
  up : Bool
  cmd : Option Bool := none
  resids : List CoilRes := []
  deriving DecidableEq, Repr

/-- Where steps 5 and 6 of Table 12.2 end for one receiver: how far gain, threshold and sampling delay lie from the codes the search
began at, and its residual. A receiver that is not named ends where it began, with residual 0. -/
structure CoilCal where
  col : BitVec 5
  dir : Bool
  hop : BitVec 5
  pos : BitVec 9
  gain : BitVec 8
  thresh : BitVec 8
  delay : BitVec 8
  resid : BitVec 8
  deriving DecidableEq, Repr

/-- What the receiving die finds of a command word (R269): the CA coil whose error the word code corrected, and the copy of a clock,
status slot or strobe (0 is position 280) that disagreed with its twin and lost the arbitration. -/
structure WordRes where
  ca : Option (BitVec 5) := none
  copy : Option (BitVec 3) := none
  deriving DecidableEq, Repr

/-- What the issue of a command word brings: the random number of R247, and what the receiving die finds. -/
structure IssueRes where
  draw : BitVec 14
  word : WordRes := {}
  deriving DecidableEq, Repr

/-- What a start-up phase finds in the hardware it brings up (Table 4.1): units that did not finish or failed. Fields
that do not concern the phase that ends are ignored. -/
structure PhaseRes where
  /-- P3: Marl buffer units, and P6 cache and den units, that fail their test: slice × 65536 + bank × 4096 + unit -/
  badUnits : List (BitVec 22) := []
  /-- P3: pads that fail at TEST_MARGIN: slice × 512 + direction × 256 + pad; and worst margins by slice, in ps -/
  badPads : List (BitVec 15) := []
  padMargin : List (BitVec 8) := []
  /-- P4: layers that answered discovery and locked (bit L − 2), their die IDs, coils that cannot be calibrated
  (column, position 0–287 or 288 + j for SPj), and where the searches end -/
  found : BitVec 16 := 0
  dieIds : List (BitVec 16) := []
  badCoils : List (BitVec 5 × BitVec 9) := []
  cal : List CoilCal := []
  /-- P5: channels trained, and CHAN_TRAIN values -/
  trained : BitVec 32 := 0
  trainVals : List (BitVec 32) := []
  /-- P6: the Marl passed its self-test -/
  marlOk : Bool := true
  /-- P7: the load of an image that verified succeeded (R69): of slot A or the sideband, and of slot B -/
  loadOk : Bool := true
  loadOkB : Bool := true
  deriving DecidableEq, Repr

/-- The packet header of Table 9.1, field by field; `rsv` holds the header's "—" bits, in byte order (bytes 6–7 [15:13],
8–10 [23:18], 11–13 [23:18], then bytes 18–23). -/
structure Hdr where
  opc : BitVec 8
  subop : BitVec 8
  status : BitVec 8
  label : BitVec 8
  tag : BitVec 16
  len : BitVec 13
  dst : BitVec 18
  src : BitVec 18
  hops : BitVec 8
  age : BitVec 8
  flags : BitVec 16
  addr : BitVec 64
  rsv : BitVec 63
  deriving DecidableEq, Repr

/-- A packet: header and payload bytes (R180). -/
structure Packet where
  hdr : Hdr
  payload : List (BitVec 8)
  deriving DecidableEq, Repr

/-- The commands the block takes, one constructor per row of spec/opcode_table.json. -/
inductive Instr
  /-- `VAON_GOOD` (R27): VAON becomes good: power-on reset, the sideband answers and the stack waits in P0. Operands:
  the strap and test-mode pin levels. -/
  | vaonGood (straps : BitVec 12) (boot : BitVec 2) (tmode : Bool)
  /-- `RAIL_GOOD` (R27): A rail has stayed above 93 % of nominal for 100 us and becomes good. -/
  | railGood (r : RailId)
  /-- `RAIL_LOST` (R32): A good rail stays below 88 % for 2 us and the stack acts as Table 2.7 states. -/
  | railLost (r : RailId)
  /-- `VFUSE_LOST` (R102): VFUSE is lost; the programming window closes and a running command ends ABORTED. -/
  | vfuseLost
  /-- `PERST_N_LOW` (R72): PERST_N is low for more than 100 ns; warm reset with freeze and bypass closing (Table 4.7). -/
  | perstNLow
  /-- `PERST_N_HIGH` (R62): PERST_N rises; start-up runs from P1 once power-good holds. -/
  | perstNHigh
  /-- `BYP_FORCE_N_LOW` (R172): BYP_FORCE_N is driven low and every bypass pair closes within 1 us. -/
  | bypForceNLow
  /-- `START_PHASE_END` (R62): A start-up phase P1 to P7 finishes its work and the next phase, or READY, begins.
  Operands: what the phase found. -/
  | startPhaseEnd (r : PhaseRes)
  /-- `PHASE_TIMER_EXPIRY` (R64): The slow-RC timer of a phase P3 to P7 expires; unfinished units are treated as
  failed. Operands: what the phase had found by then. -/
  | phaseTimerExpiry (r : PhaseRes)
  /-- `COLD_HOLD_EXIT` (R68): Every sensor has read at or above LOW_STOP + 3 C for 1 s and start-up continues. -/
  | coldHoldExit
  /-- `START_GO` (R67): Writing GLB_START_CTL.GO in SETUP_HOLD continues start-up with P4. -/
  | startGo (via : Path)
  /-- `FRC_ATTEMPT_END` (R43): A fast RC qualification attempt ends by count or by its 2 ms limit; pass, or trim and
  retry. Operands: fast RC cycles counted over 32 slow periods, if a count came. -/
  | frcAttemptEnd (count : Option Nat)
  /-- `REF_WINDOW_END` (R40): A 100 us reference counting window ends and each candidate is judged against its window.
  Operands: edges of REFA driven, REFA crystal, REFB driven, REFB crystal in the window. -/
  | refWindowEnd (ad ax bd bx : Nat)
  /-- `PLL_LOCKED` (R42): A PLL reaches lock; MGT switches to PLL_MGT when that PLL locks. -/
  | pllLocked (p : PllId)
  /-- `SLOW_RC_CHECK` (R44): The slow RC is counted against PLL_MGT at P2 step 7 or every 1 s in service. Operands:
  PLL_MGT cycles in four slow periods. -/
  | slowRcCheck (count : Nat)
  /-- `FRC_SERVICE_CHECK` (R46): The fast RC is checked against PLL_MGT every 1 s in service. -/
  | frcServiceCheck (ok : Bool)
  /-- `REF_MISSING_EDGES` (R45): A qualified reference shows no edge within its limit and the monitor declares a
  failure. -/
  | refMissingEdges (refB : Bool)
  /-- `PLL_LOCK_LOST` (R45): A PLL stays out of lock for more than 20 us and the monitor reacts per Table 3.4. -/
  | pllLockLost (p : PllId)
  /-- `HOLDOVER_EXPIRY` (R47): Holdover ends with no standby reference qualified; forcing and grave safe state follow. -/
  | holdoverExpiry
  /-- `FOX_PLL_RELOCK_TRY` (R46): A relock of PLL_FOX is tried every 1 ms after its loss. -/
  | foxPllRelockTry (ok : Bool)
  /-- `CLK_SWITCH_RELEASE` (R51): The old clock's release handshake arrives and the glitch-free switch passes the new
  clock. -/
  | clkSwitchRelease
  /-- `CLK_SWITCH_TIMEOUT` (R51): No release within 32 new-clock cycles; the old clock is disconnected asynchronously. -/
  | clkSwitchTimeout
  /-- `WAKE_REF_TIMEOUT` (R50): No reference qualifies within 20 ms of a wake from S3; class G fault. -/
  | wakeRefTimeout
  /-- `CLK_REF_CFG_WRITE` (R61): A write of CLK_REF_CFG is checked and may move the PLLs to another reference. -/
  | clkRefCfgWrite (via : Path) (v : BitVec 32)
  /-- `CLK_GATE_WRITE` (R55): A write of a clock gate register is refused if it stops a domain in use. -/
  | clkGateWrite (via : Path) (set : GateSet) (g : BitVec 2) (v : BitVec 32)
  /-- `MARL_HB_LOSS` (R73): Layer 1 misses the pad heartbeat for 32 STO cycles, freezes and sets FROZEN. -/
  | marlHbLoss
  /-- `LAYER_HB_LOSS` (R258): A DRAM layer misses its channel's heartbeat for 64 LYR cycles, enters self-refresh and
  sets RETAINED. -/
  | layerHbLoss (c : BitVec 5)
  /-- `EXIT_SR` (R259): A layer receives EXIT_SR after 64 good words and leaves self-refresh. -/
  | exitSr (c : BitVec 5)
  /-- `PORT_BLOCK_RESET` (R78): RST_UNIT_CMD KIND 1 starts a block reset of a port. -/
  | portBlockReset (via : Path) (ix : BitVec 5)
  /-- `CHAN_BLOCK_RESET` (R78): RST_UNIT_CMD KIND 2 starts a block reset of a channel. -/
  | chanBlockReset (via : Path) (ix : BitVec 5)
  /-- `FOX_BLOCK_RESET` (R78): RST_UNIT_CMD KIND 3 starts a block reset of a Fox engine. -/
  | foxBlockReset (via : Path) (ix : BitVec 5)
  /-- `UNIT_RESET` (R78): Ring-0 operation 0x45 starts a block reset of the unit in its payload. -/
  | unitReset
  /-- `BLOCK_RESET_DONE` (R78): A block reset finishes and RESULT is reported. -/
  | blockResetDone
  /-- `S1_IDLE_EXPIRY` (R80): IDLE_US passes with no activity and the stack enters S1. -/
  | s1IdleExpiry
  /-- `SET_PSTATE` (R81): Ring-0 operation 0x44 asks for S1, S2 or S3. -/
  | setPstate
  /-- `REQ_STATE_S1` (R83): A write of REQ_STATE = 1 asks for S1 without the idle wait. -/
  | reqStateS1 (via : Path)
  /-- `REQ_STATE_SLEEP` (R82): A write of REQ_STATE = 2 or 3 starts entry to S2 or S3. Operands: deep: S3, else S2. -/
  | reqStateSleep (via : Path) (deep : Bool)
  /-- `SLEEP_ENTRY_DONE` (R82): Entry to S2 or S3 completes at step 7 and STATE shows the new state. -/
  | sleepEntryDone
  /-- `PWR_WAKE` (R80): A write of GLB_PWR_CTL.WAKE wakes the stack or abandons a sleep entry. -/
  | pwrWake (via : Path)
  /-- `WAKE_TIMER_EXPIRY` (R81): The sleep wake timer expires and the stack wakes. -/
  | wakeTimerExpiry
  /-- `WAKE_SIGNAL` (R80): A packet, link exit or lane-0 signal on an open pair wakes the stack from S2 or S3. -/
  | wakeSignal (port : BitVec 5)
  /-- `S3_WAKE` (R85): The stack leaves S3: clocks requalify, ports start, coupling recalibrates, Marl empty, Fox
  reload. -/
  | s3Wake
  /-- `OPEN_WINDOW` (R100): OTP command that opens the fuse programming window. -/
  | openWindow (via : Path)
  /-- `CLOSE_WINDOW` (R100): OTP command that closes the programming window. -/
  | closeWindow (via : Path)
  /-- `SENSE_ROW` (R108): OTP command that reads a resolved row into OTP_DATA at a chosen margin. -/
  | senseRow (via : Path) (row : BitVec 9) (margin : BitVec 2)
  /-- `PROGRAM_ROW` (R103): OTP command that blows the 1 bits of OTP_DATA into a row and verifies it. -/
  | programRow (via : Path) (row : BitVec 9)
  /-- `TOPUP_BIT` (R104): OTP command that gives one further pulse to a weak bit. -/
  | topupBit (via : Path) (row : BitVec 9) (bit : BitVec 7)
  /-- `REDIRECT_ROW` (R104): OTP command that writes a row's data to the lowest free spare and redirects it. -/
  | redirectRow (via : Path) (row : BitVec 9)
  /-- `LOCK_REGION` (R105): OTP command that writes a region's lock pattern. -/
  | lockRegion (via : Path) (region : BitVec 4)
  /-- `VERIFY_REGION` (R108): OTP command that checks a region at strict margins without locking. -/
  | verifyRegion (via : Path) (region : BitVec 4)
  /-- `OTP_CMD_DONE` (R102): A running OTP command ends, writes RESULT and LAST_OP and clears BUSY. Operands: cells
  whose pulses conduct above each reference of Table 5.2. -/
  | otpCmdDone (sl lo no hi sh : BitVec 128)
  /-- `WINDOW_TIMEOUT` (R100): The programming window closes 600 s after opening. -/
  | windowTimeout
  /-- `LINK_TRAIN_START` (R118): A link's conditions hold and it starts Table 6.5 step 1 sending TS_LOCK. -/
  | linkTrainStart (port : BitVec 5) (link : BitVec 3)
  /-- `TM_RECEIVED` (R117): A training marker is received and judged on a lane. Operand: tm: the marker
  as it arrives. -/
  | tmReceived (lane : BitVec 8) (tm : TmIn)
  /-- `TRAIN_TIMEOUT` (R121): A side not in L0 within 100 us restarts its receivers from step 2. -/
  | trainTimeout (port : BitVec 5) (link : BitVec 3)
  /-- `AM_SEND` (R122): Every 4,096 flit slots each active lane sends an alignment marker. -/
  | amSend (port : BitVec 5) (link : BitVec 3)
  /-- `AM_RECEIVED` (R122): An alignment marker arrives and is checked; the scrambler reseeds. Operands: the 9 bytes
  of the marker, the sign of the adaptation step, and height and width of each eye measured: one, or three at PAM4. -/
  | amReceived (lane : BitVec 8) (raw : List (BitVec 8)) (up : Bool) (eyeH : List (BitVec 8)) (eyeW : List (BitVec 6))
  /-- `LANE_FAILURE` (R125): An active lane fails and the link retrains from step 4. Operand: loss: the lane and
  what it lost. -/
  | laneFailure (loss : LaneLoss)
  /-- `RETRAIN_DONE` (R125): A retrain ends with a width under R120; narrowing raises a class D fault. -/
  | retrainDone (port : BitVec 5) (link : BitVec 3)
  /-- `RETRAIN_TIMEOUT` (R127): A retrain not finished within 40 us takes the link down. -/
  | retrainTimeout (port : BitVec 5) (link : BitVec 3)
  /-- `SIGNAL_LOSS_TIMEOUT` (R127): Every active lane lacks signal detect for 1 us and the link goes down. -/
  | signalLossTimeout (port : BitVec 5) (link : BitVec 3)
  /-- `L1_ENTRY` (R128): A transmitter idle for L1_IDLE sends TS_IDLE and squelches. -/
  | l1Entry (port : BitVec 5) (link : BitVec 3)
  /-- `L1_EXIT` (R128): A transmitter in L1 with a flit to send sends TS_GO, an AM and flits. -/
  | l1Exit (port : BitVec 5) (link : BitVec 3)
  /-- `L2_EXIT` (R129): A link leaves L2 and runs Table 6.5 from step 1 with saved values. -/
  | l2Exit (port : BitVec 5) (link : BitVec 3)
  /-- `PRBS_INJECT` (R131): Writing INJECT inverts one bit of the next generated PRBS word. -/
  | prbsInject (via : Path) (lane : BitVec 8)
  /-- `LANE_PRBS_CTL_WRITE` (R131): A write enabling the PRBS generator or checker, allowed only with the port idle. -/
  | lanePrbsCtlWrite (via : Path) (lane : BitVec 8) (v : BitVec 32)
  /-- `PORT_LINK_CFG_WRITE` (R132): A write of PORT_LINK_CFG, refused while links train or run. -/
  | portLinkCfgWrite (via : Path) (port : BitVec 5) (v : BitVec 32)
  /-- `FLIT_RECEIVED` (R143): A flit arrives and is judged as in-sequence packet flit, LCF or bad flit. Operands: the
  72 bytes of the slot in flit order, still scrambled. -/
  | flitReceived (port : BitVec 5) (link : BitVec 3) (wire : List (BitVec 8))
  /-- `NAK_TIMER_EXPIRY` (R143): The NAK timer expires in RETRY_WAIT and a new NAK is raised. -/
  | nakTimerExpiry (port : BitVec 5) (link : BitVec 3)
  /-- `REPLAY_TIMEOUT` (R143): No acknowledgement progress for RETRY_TO and the sender replays from the oldest unacked
  flit. -/
  | replayTimeout (port : BitVec 5) (link : BitVec 3)
  /-- `LCF_DUE` (R139): Something has gone unreported for LCF_WAIT and an LCF is sent. -/
  | lcfDue (port : BitVec 5) (link : BitVec 3)
  /-- `NO_VALID_FLIT_TIMEOUT` (R145): No valid flit for 4 us in L0 requests a retrain. -/
  | noValidFlitTimeout (port : BitVec 5) (link : BitVec 3)
  /-- `PACKET_SEND` (R170): At a flit slot an output link chooses and starts a packet by VC, class and age. -/
  | packetSend (port : BitVec 5) (link : BitVec 3)
  /-- `PORT_CRED_INIT_WRITE` (R150): A write of PORT_CRED_INIT, refused unless every link is DOWN. -/
  | portCredInitWrite (via : Path) (port : BitVec 5) (vc : BitVec 3) (v : BitVec 32)
  /-- `LINK_WAIT_EXPIRY` (R166): A packet waits LINK_WAIT with no usable port and fails UNREACH. Operands: the waiting
  packet, by its place in the egress queue. -/
  | linkWaitExpiry (ix : Nat)
  /-- `EGRESS_MOVE` (R216): A whole packet moves from its ingress account to an egress account once room exists. -/
  | egressMove (port : BitVec 5) (vc : BitVec 3)
  /-- `GLB_DID_WRITE` (R154): A write of GLB_DID changes routing and re-evaluates admission. -/
  | glbDidWrite (via : Path) (v : BitVec 32)
  /-- `PORT_ROLE_WRITE` (R160): A write of PORT_ROLE, refused while links are up or routes name the pair. -/
  | portRoleWrite (via : Path) (port : BitVec 5) (v : BitVec 32)
  /-- `PORT_CFG_WRITE` (R160): A write of PORT_CFG direction and dateline mode, under the same checks. -/
  | portCfgWrite (via : Path) (port : BitVec 5) (v : BitVec 32)
  /-- `ROUTE_ENTRY_WRITE` (R168): A write of an RT_POD, RT_RING or RT_POS entry, checked against pairs and links. -/
  | routeEntryWrite (via : Path) (dim : Dim) (n : BitVec 4) (v : BitVec 32)
  /-- `RT_MEMBERS_WRITE` (R168): A write of RT_MEMBERS, refused while a port of that dimension has a link up. -/
  | rtMembersWrite (via : Path) (dim : Dim) (v : BitVec 32)
  /-- `BYPASS_CLOSE` (R172): A closing condition arises and the pair closes. -/
  | bypassClose (pair : BitVec 4)
  /-- `BYPASS_OPEN` (R173): A pair with no closing condition becomes listen-ready, opens and its ports start training.
  Operands: forceN: the level of BYP_FORCE_N then. -/
  | bypassOpen (pair : BitVec 4) (forceN : Bool)
  /-- `RT_BYP_OPEN_WRITE` (R173): Writing RT_BYP_OPEN releases held pairs. -/
  | rtBypOpenWrite (via : Path) (v : BitVec 32)
  /-- `GLB_LOCK_SET` (R464): Writing LOCK = 1 in READY ends set-up, closes the fuse window and starts the snapshot. -/
  | glbLockSet (via : Path)
  /-- `SNAPSHOT_COMPLETE` (R176): The fabric snapshot write to the Sett completes and replaces the old one. -/
  | snapshotComplete
  /-- `RD` (R185): A RD request is accepted, checked and performed at the target. -/
  | rd (p : Packet)
  /-- `WR` (R185): A WR request is accepted, checked and performed into the cache portion. -/
  | wr (p : Packet)
  /-- `WRP` (R188): A masked partial write is accepted and merged block by block. -/
  | wrp (p : Packet)
  /-- `ATOM` (R191): An atomic request is performed once, indivisibly, in the Marl line. -/
  | atom (p : Packet)
  /-- `SVC` (R336): An SVC request from another stack is checked at acceptance and queued for a reserved engine. -/
  | svc (p : Packet)
  /-- `DBELL` (R302): A doorbell packet gives a new producer index for a ring. -/
  | dbell (p : Packet)
  /-- `MREG_RD` (R204): A register read packet returns up to 16 registers in MREG_RSP. -/
  | mregRd (p : Packet)
  /-- `MREG_WR` (R205): A register write packet is performed or refused before MREG_RSP. -/
  | mregWr (p : Packet)
  /-- `RD_RSP` (R207): A read response to the stack is matched by TAG and delivers its data to the requester unit. -/
  | rdRsp (p : Packet)
  /-- `WR_ACK` (R207): A write acknowledgement to the stack is matched and completes its request. -/
  | wrAck (p : Packet)
  /-- `ATOM_RSP` (R207): An atomic response to the stack is matched and delivers the old value. -/
  | atomRsp (p : Packet)
  /-- `SVC_RSP` (R337): A service response is matched and its status, RESULT and DETAIL reach the stage. -/
  | svcRsp (p : Packet)
  /-- `MREG_RSP` (R207): A register response to the stack is matched and checked. -/
  | mregRsp (p : Packet)
  /-- `REQUEST_TIMEOUT` (R334): A request of the stack gets no answer within 10 ms and fails with TIMEOUT. -/
  | requestTimeout (tag : BitVec 16)
  /-- `MISS_FILL_DONE` (R222): A DRAM block arrives for a miss and fills the line and the response cell. -/
  | missFillDone (c : BitVec 5)
  /-- `WRITEBACK_CONFIRMED` (R224): A layer reports a block written and the line becomes clean if its generation bit
  is clear. -/
  | writebackConfirmed (c : BitVec 5)
  /-- `MARL_FLUSH_GO` (R226): A write of MARL_FLUSH.GO starts a flush before GLB_LOCK. -/
  | marlFlushGo (via : Path) (inv : Bool)
  /-- `MARL_WB` (R226): Ring-0 operation 0x48 starts a Marl flush. -/
  | marlWb
  /-- `FLUSH_DONE` (R226): Every line dirty at the flush start is confirmed written back. -/
  | flushDone
  /-- `QUIESCE_SET` (R231): Setting MARL_CTL.QUIESCE stops new local requests. -/
  | quiesceSet (via : Path)
  /-- `QUIESCED_REACHED` (R231): Every accepted local request is complete and QUIESCED becomes 1. -/
  | quiescedReached
  /-- `MARL_PART_WRITE` (R231): An accepted MARL_PART write starts repartitioning. -/
  | marlPartWrite (via : Path) (v : BitVec 32)
  /-- `REPARTITION_DONE` (R231): Banks are reassigned, drained and the slice map rebuilt; PART_BUSY clears. -/
  | repartitionDone
  /-- `QUIESCE_CLEAR` (R231): Clearing QUIESCE resumes local requests. -/
  | quiesceClear (via : Path)
  /-- `MARL_QUIET_WINDOW_FORCED` (R211): No quiet window in 1 ms; the slice holds its transfers 16 STO cycles. -/
  | marlQuietWindowForced (slice : BitVec 6)
  /-- `GLB_MEM_CFG_WRITE` (R237): An accepted write of GLB_MEM_CFG flushes the cache, applies the new map and writes
  the record. -/
  | glbMemCfgWrite (via : Path) (v : BitVec 32)
  /-- `DRAM_COMMAND_ISSUE` (R243): In a CHN cycle the controller issues at most one command per pseudo-channel by
  priority. Operand: res: what the word's issue brings. -/
  | dramCommandIssue (c : BitVec 5) (pc : BitVec 1) (res : IssueRes)
  /-- `REFRESH_DUE` (R246): tREFI expires for a pseudo-channel and an all-bank refresh is issued. Operands: taps:
  which timing offsets move up (R244). -/
  | refreshDue (c : BitVec 5) (pc : BitVec 1) (taps : List Bool)
  /-- `REF_RATE_LOWER` (R246): All layer sensors are 2 C below the threshold for 1 s and the refresh rate falls. -/
  | refRateLower (layer : BitVec 5)
  /-- `POWER_DOWN_ENTRY` (R248): A channel idle for PD_IDLE enters active power-down. -/
  | powerDownEntry (c : BitVec 5)
  /-- `DRAM_READ_DATA` (R377): A block arrives from the column and is decoded with its fold. Operands: the bytes that
  arrive differ from the stored ones by err. -/
  | dramReadData (c : BitVec 5) (err : List (BitVec 8))
  /-- `CHAN_PASR_WRITE` (R249): A write of CHAN_PASR starts a PASR change before GLB_LOCK. -/
  | chanPasrWrite (via : Path) (c : BitVec 5) (v : BitVec 32)
  /-- `SET_PASR` (R249): Ring-0 operation 0x49 starts a PASR change of a channel. -/
  | setPasr
  /-- `PASR_CHANGE_DONE` (R249): The channel leaves self-refresh with its new fraction and the write or completion is
  answered. -/
  | pasrChangeDone (c : BitVec 5)
  /-- `CHANNEL_FENCE` (R252): A channel is fenced: heartbeat stops, requests answer FENCED, lines handled. -/
  | channelFence (c : BitVec 5) (cause : FenceCause)
  /-- `REBUILD_START` (R241): Within 1 ms of a fence in a protected group the MGC starts a rebuild. -/
  | rebuildStart (c : BitVec 5)
  /-- `REBUILD_STRIPE` (R241): The rebuild moves one stripe's block of the fenced channel to its parity holder. -/
  | rebuildStripe (c : BitVec 5)
  /-- `CHAN_REBUILD` (R242): Ring-0 operation 0x4A waits for a rebuild to pass a target. -/
  | chanRebuild
  /-- `LAYER_SILENT` (R260): A layer reports no lock or no status for 64 cycles and recovery begins. -/
  | layerSilent (layer : BitVec 5) (pll : Bool)
  /-- `LAYER_RELOCK_ATTEMPT` (R260): A relock attempt of a silent layer ends; recalibrate and resume, retry, or fence.
  Operand: found: where the recalibration of a layer that locks again ends; none where the attempt fails. -/
  | layerRelockAttempt (layer : BitVec 5) (found : Option (List CoilCal))
  /-- `LAYER_DISCOVERY_TIMEOUT` (R261): A layer has not answered by 2 ms of P4 and its channels are fenced. -/
  | layerDiscoveryTimeout (layer : BitVec 5)
  /-- `COUPLING_BOUNDARY` (R262): A column finds a boundary and applies a spare switch, a recalibration step or a
  rotation step. Operands: what the receiver under rotation measures. -/
  | couplingBoundary (c : BitVec 5) (m : Tap)
  /-- `COUPLING_BOUNDARY_FORCED` (R262): No boundary in 10 us; the column is held 4 CHN cycles to make one. -/
  | couplingBoundaryForced (c : BitVec 5)
  /-- `FORCED_RECAL` (R264): A temperature event or S3 wake starts a forced recalibration of columns. -/
  | forcedRecal (c : BitVec 5)
  /-- `FORCED_RECAL_DONE` (R264): A forced recalibration of a column ends and its requests resume. -/
  | forcedRecalDone (c : BitVec 5) (found : List CoilCal)
  /-- `VCP_MECH_WRITE` (R266): A write of VCP_MECH.PROFILE, accepted only in PHASE 0x3 or 0xA. -/
  | vcpMechWrite (via : Path) (v : BitVec 32)
  /-- `QOS_COMMIT_GO` (R288): Writing QOS_COMMIT.GO evaluates and activates the staged table. -/
  | qosCommitGo (via : Path)
  /-- `QOS_SET` (R290): Ring-0 operation 0x4B writes QOS staging registers and commits. -/
  | qosSet
  /-- `D_EVALUATION` (R291): A change of channel weight or throttle leads, at most once per 1 ms, to a new D and
  reservations. -/
  | dEvaluation
  /-- `MISS_ENTRY_FREED` (R284): A miss entry frees and goes to a waiting request of its group or of the highest
  class. -/
  | missEntryFreed (c : BitVec 5)
  /-- `RING_POLL` (R302): Every POLL_US a watched ring's RCB is read for P. -/
  | ringPoll (n : BitVec 6)
  /-- `RCB_H_REREAD` (R304): With no free completion space the RCB is re-read for H once per POLL_US. -/
  | rcbHReread (n : BitVec 6)
  /-- `DESC_FETCH` (R304): The stack issues RDs to fetch descriptors up to K when space allows. -/
  | descFetch (n : BitVec 6)
  /-- `DESC_START` (R305): A fetched descriptor starts once its ring's ordering conditions allow. -/
  | descStart (n : BitVec 6)
  /-- `COMPLETION_WRITE` (R307): All requests of a descriptor are answered and its completion is written with an
  ordered WRP. -/
  | completionWrite (n : BitVec 6)
  /-- `RING0_FETCH_RETRY` (R310): A failed ring-0 fetch or RCB read is retried every 1 ms. -/
  | ring0FetchRetry
  /-- `RING0_COMPLETION_RETRY` (R311): A kept ring-0 completion is written again every 1 ms. -/
  | ring0CompletionRetry
  /-- `RING_ENABLE` (R297): RING_CTL.ENABLE makes an OFF ring ACTIVE with indices at 0. -/
  | ringEnable (via : Path) (n : BitVec 6)
  /-- `RING_RESET_CMD` (R299): RING_CTL.RESET aborts the ring's descriptors and takes it OFF. -/
  | ringResetCmd (via : Path) (n : BitVec 6)
  /-- `RING_RESUME_CMD` (R312): RING_CTL.RESUME makes a halted ring ACTIVE and re-reads its RCB. -/
  | ringResumeCmd (via : Path) (n : BitVec 6)
  /-- `NOP` (R313): Ring-0 operation 0x40 completes OK echoing payload bytes 0-7. -/
  | nop
  /-- `RING_SETUP` (R314): Ring-0 operation 0x41 sets up and enables a ring 1-63. -/
  | ringSetup
  /-- `RING_RESET` (R314): Ring-0 operation 0x42 resets a ring 1-63. -/
  | ringReset
  /-- `RING_RESUME` (R314): Ring-0 operation 0x43 resumes a halted ring 1-63. -/
  | ringResume
  /-- `ENGINE_DISPATCH` (R325): An idle engine takes a ready descriptor and checks all its stage operands. -/
  | engineDispatch (e : BitVec 5)
  /-- `STAGE_ADVANCE` (R327): Every request and helper of a stage is done and the next stage starts or the descriptor
  ends. -/
  | stageAdvance (e : BitVec 5)
  /-- `HELPER_CHUNK` (R331): An idle engine takes the next 1 MiB chunk or subrange of a spread stage. -/
  | helperChunk (e : BitVec 5)
  /-- `FILL` (R338): Stage 0x01 writes a 64-byte pattern over a range. -/
  | fill (e : BitVec 5)
  /-- `COPY` (R340): Stage 0x02 copies a range, optionally feeding a check-value unit. -/
  | copy (e : BitVec 5)
  /-- `GATHER` (R341): Stage 0x03 collects indexed elements into a contiguous destination. -/
  | gather (e : BitVec 5)
  /-- `SCATTER` (R341): Stage 0x04 writes contiguous elements to indexed places. -/
  | scatter (e : BitVec 5)
  /-- `REDUCE` (R342): Stage 0x05 combines elements of its parts in a fixed order. -/
  | reduce (e : BitVec 5)
  /-- `CHECK` (R343): Stage 0x06 computes a check value over a range. -/
  | check (e : BitVec 5)
  /-- `COMPARE` (R344): Stage 0x07 compares two ranges byte by byte. -/
  | compare (e : BitVec 5)
  /-- `TRANSPOSE` (R345): Stage 0x09 transposes a matrix of elements. -/
  | transpose (e : BitVec 5)
  /-- `ATOMB` (R346): Stage 0x0A performs a list of atomic operations. -/
  | atomb (e : BitVec 5)
  /-- `FENCE` (R347): Stage 0x0C waits for earlier descriptors of the masked rings to complete. -/
  | fence (e : BitVec 5)
  /-- `NOTIFY_WRITE` (R348): Stage 0x0D mode 0 writes VALUE to a location with an ordered WRP. -/
  | notifyWrite (e : BitVec 5)
  /-- `NOTIFY_DBELL` (R348): Stage 0x0D mode 1 sends a DBELL to a stack. -/
  | notifyDbell (e : BitVec 5)
  /-- `MIRROR_SEND` (R368): MIRROR mode 0 sends frozen granules to the partner slots and commits them. -/
  | mirrorSend (e : BitVec 5)
  /-- `MIRROR_COMMIT` (R369): MIRROR mode 1 at the partner checks a slot and copies it home. -/
  | mirrorCommit (e : BitVec 5)
  /-- `MIRROR_VERIFY` (R371): MIRROR mode 2 checks the partner's table entries and may finish copies. -/
  | mirrorVerify (e : BitVec 5)
  /-- `DIRTYSCAN_FREEZE` (R363): DIRTYSCAN mode 0 ORs the active map into the frozen map and empties it. -/
  | dirtyscanFreeze (e : BitVec 5)
  /-- `DIRTYSCAN_PEEK` (R365): DIRTYSCAN mode 1 writes the frozen map without freezing. -/
  | dirtyscanPeek (e : BitVec 5)
  /-- `SVC_START` (R326): An accepted SVC starts on an idle reserved or free engine as a one-stage job. -/
  | svcStart (e : BitVec 5)
  /-- `ENGINE_TRAP` (R352): An engine traps, ends its work TRAPPED and reloads. -/
  | engineTrap (e : BitVec 5) (cause : TrapCause)
  /-- `WATCHDOG_EXPIRY` (R352): No request or stage retires in 1 s with work present and the engine traps. -/
  | watchdogExpiry (e : BitVec 5)
  /-- `FW_SLOT_WRITE` (R322): Ring-0 operation 0x54 writes data into a firmware slot. -/
  | fwSlotWrite
  /-- `FW_ACTIVATE` (R323): Ring-0 operation 0x55 verifies a slot and marks it active. -/
  | fwActivate
  /-- `FOX_SB_DATA_WRITE` (R321): A write of FOX_SB_DATA stores 4 image bytes and advances the address. -/
  | foxSbDataWrite (via : Path) (v : BitVec 32)
  /-- `FOX_SB_GO` (R321): FOX_SB_CTL.GO starts verification of the sideband image. -/
  | foxSbGo (via : Path)
  /-- `FOX_CTL_WRITE` (R354): A write of FOX_CTL.ENABLE enables or retires an engine. -/
  | foxCtlWrite (via : Path) (e : BitVec 5) (v : BitVec 32)
  /-- `CVU_TEST_START` (R361): CVU_TEST_CTL.START loads the test context into CVU15. -/
  | cvuTestStart (via : Path)
  /-- `CVU_TEST_RELEASE` (R361): CVU_TEST_CTL.RELEASE frees CVU15. -/
  | cvuTestRelease (via : Path)
  /-- `CVU_TEST_DATA_WRITE` (R361): A write of CVU_TEST_DATA feeds 4 bytes to CVU15. -/
  | cvuTestDataWrite (via : Path) (v : BitVec 32)
  /-- `CVU_TEST_DATA1_WRITE` (R361): A write of CVU_TEST_DATA1 feeds one byte to CVU15. -/
  | cvuTestData1Write (via : Path) (v : BitVec 32)
  /-- `CKP_TRACK_WRITE` (R362): Setting CKP_CTL.TRACK sets the whole active map and starts marking. -/
  | ckpTrackWrite (via : Path) (v : BitVec 32)
  /-- `CORRECTIVE_WRITE` (R383): A queued Sand-class write of a corrected block probes the line and writes or drops. -/
  | correctiveWrite (c : BitVec 5)
  /-- `CE_LOG_FREE` (R384): Writing 1 to a correction log VALID bit frees the entry. -/
  | ceLogFree (via : Path) (log : LogId) (n : BitVec 4)
  /-- `BADGER_PATROL_READ` (R387): The patrol reads the next block of an enabled channel at its even pace. -/
  | badgerPatrolRead (c : BitVec 5) (err : List (BitVec 8))
  /-- `MARL_PATROL` (R389): The Marl patrol reads units and idle instruction stores each MARL_PASS_S. Operands: the
  unit read and the bits found upset. -/
  | marlPatrol (u : PatrolUnit) (err : BitVec 560)
  /-- `BADGER_SET` (R391): Ring-0 operation 0x4D sets the patrol configuration and channels. -/
  | badgerSet
  /-- `BADGER_REG_WRITE` (R391): A direct write of BADGER_CFG or BADGER_CHAN_EN before GLB_LOCK, checked as
  BADGER_SET. -/
  | badgerRegWrite (via : Path) (chanEn : Bool) (v : BitVec 32)
  /-- `REPAIR` (R393): A hard-failed block or unit is copied to a spare or remap target, logged and switched. -/
  | repair (u : RepairUnit)
  /-- `FAULT_RAISE` (R403): A fault opens or merges into its domain's record and may start a timer. -/
  | faultRaise (cause : FltCause) (unit : BitVec 8) (detail : BitVec 32)
  /-- `C_TIMER_EXPIRY` (R404): A C timer expires; containment is applied and the record becomes class D. -/
  | cTimerExpiry (d : BitVec 8)
  /-- `D_TIMER_EXPIRY` (R404): A D timer expires; the degrade action or class G follows. -/
  | dTimerExpiry (d : BitVec 8)
  /-- `GRAVE_FLUSH_DONE` (R410): The MGC has flushed the recorder and written the G record; PHASE reads 0xC. -/
  | graveFlushDone
  /-- `FLT_ACK_HOLD` (R407): Acknowledgement mode 0 stops a waiting record's timer. -/
  | fltAckHold (via : Path) (d seq : BitVec 8)
  /-- `FLT_ACK_CLOSE` (R407): Acknowledgement mode 1 closes a record. -/
  | fltAckClose (via : Path) (d seq : BitVec 8)
  /-- `LOCKSTEP_MISMATCH` (R401): The MGC cores disagree, halt and reload. -/
  | lockstepMismatch (pc : BitVec 32)
  /-- `MGC_RELOAD_DONE` (R401): The MGC reload finishes its check and restarts, or the record becomes G. -/
  | mgcReloadDone (ok : Bool)
  /-- `FAB_STATE_ERROR` (R402): A parity error in switch state raises FAB_STATE and resets the port. -/
  | fabStateError (port : BitVec 5) (structure_ : BitVec 8)
  /-- `ALARM_WINDOW_END` (R412): A domain's 1 ms alarm window ends and a pending ALARM is sent. -/
  | alarmWindowEnd (d : BitVec 8)
  /-- `FLT_INJ_WRITE` (R417): A write of FLT_INJ arms, re-arms or disarms a checker before GLB_LOCK. -/
  | fltInjWrite (via : Path) (v : BitVec 32)
  /-- `FLT_INJECT` (R417): Ring-0 operation 0x47 arms a checker for injection. -/
  | fltInject
  /-- `LOG_WRITE` (R426): Hardware writes the next staged record into a log page. Operands: fails: read-backs that
  failed, 0 to 2 (R420). -/
  | logWrite (fails : BitVec 2)
  /-- `REC_FREEZE_ON` (R427): A freeze request drains the staging queue and freezes the log. Operands: none: the
  ring-0 operation. -/
  | recFreezeOn (via : Option Path)
  /-- `REC_THAW` (R427): A thaw request moves the holding queue to staging and writes a RECORDER record. Operands:
  none: the ring-0 operation. -/
  | recThaw (via : Option Path)
  /-- `FREEZE_AUTO_THAW` (R427): A freeze ends automatically 2 s after it took effect. -/
  | freezeAutoThaw
  /-- `REC_READ` (R429): Ring-0 operation 0x50 copies a Sett area to memory. -/
  | recRead
  /-- `REC_SETT_ADDR_WRITE` (R430): A write of REC_SETT_ADDR moves the Sett read window. -/
  | recSettAddrWrite (via : Path) (v : BitVec 32)
  /-- `TELEMETRY_SAMPLE` (R431): Every INTERVAL_MS a sample is taken and a TELEM built per destination. -/
  | telemetrySample
  /-- `TEL_SET` (R433): Ring-0 operation 0x52 writes TEL_CFG and TEL_DST. -/
  | telSet
  /-- `SETT_FLUSH` (R423): Every 16 s and at S3 entry the staging queue and counters are written to the Sett. -/
  | settFlush (fails : BitVec 2)
  /-- `OP_SECONDS_TICK` (R423): One second with VAON good adds one to OP_SECONDS. -/
  | opSecondsTick
  /-- `SENSOR_SAMPLE` (R438): Every sensor is sampled and readings, thresholds, refresh rate and throttle targets are
  judged. Operands: converter results by sensor in 0.25 degC, none where no result came. -/
  | sensorSample (t : List (Option Int))
  /-- `THROTTLE_RAMP` (R442): Each ms a throttle fraction below its target rises by one point. -/
  | throttleRamp
  /-- `THERMAL_TRIP` (R444): A trip comparator fires; THERMTRIP_N falls and the grave safe state follows. -/
  | thermalTrip (sensor : BitVec 7)
  /-- `THM_SET` (R445): Ring-0 operation 0x4C writes the thermal limits. -/
  | thmSet
  /-- `THM_REG_WRITE` (R445): A direct write of a THM limit register before GLB_LOCK, range-checked and recorded.
  Operands: which: 0 THM_LIMITS, 1 THM_LOW, 2 THM_THROTTLE_CFG. -/
  | thmRegWrite (via : Path) (which : BitVec 2) (v : BitVec 32)
  /-- `TEST_SLICE_START` (R447): Every PERIOD_MS a test slice starts its coil, pad and lane parts. -/
  | testSliceStart
  /-- `COIL_TEST_END` (R449): A coil's 50 us pattern test ends; the shadow returns and a failure is repaired. -/
  | coilTestEnd (c : BitVec 5) (m : CoilMeas) (bitErr : Bool)
  /-- `PAD_TEST_END` (R450): A pad test ends; a failed pad keeps its shadow as a repair. -/
  | padTestEnd (slice : BitVec 6) (up failed : Bool)
  /-- `LANE_MARGIN_CHECK` (R451): A lane's eye is measured against its limits and WEAK is judged. -/
  | laneMarginCheck (lane : BitVec 8) (eyeH : BitVec 8) (eyeW : BitVec 6)
  /-- `BST_RUN` (R452): Ring-0 operation 0x4E runs one full test rotation on a scope. -/
  | bstRun
  /-- `BST_RUN_STEP` (R452): Every 100 us a running BST_RUN tests its next unit, completing after the last. -/
  | bstRunStep (m : CoilMeas) (bad : Bool) (eyeH : BitVec 8) (eyeW : BitVec 6)
  /-- `EXTEST` (R456): JTAG boundary-scan EXTEST instruction, protected. -/
  | extest
  /-- `SAMPLE_PRELOAD` (R454): JTAG SAMPLE/PRELOAD instruction. -/
  | samplePreload
  /-- `IDCODE` (R454): JTAG IDCODE instruction returns 0x0409_65AB. -/
  | idcode
  /-- `CLAMP` (R456): JTAG CLAMP instruction, protected. -/
  | clamp
  /-- `HIGHZ` (R456): JTAG HIGHZ instruction, protected. -/
  | highz
  /-- `EXTEST_PULSE` (R456): JTAG AC boundary-scan pulse instruction, protected. -/
  | extestPulse
  /-- `EXTEST_TRAIN` (R456): JTAG AC boundary-scan train instruction, protected. -/
  | extestTrain
  /-- `REGACC` (R455): JTAG Update-DR of REGACC starts one register access with sideband rights. -/
  | regacc (dr : BitVec 57)
  /-- `AUTH_CHAL` (R457): Capture-DR of AUTH_CHAL draws a fresh nonce. -/
  | authChal
  /-- `AUTH_RESP` (R457): A signed AUTH_RESP is checked and grants a debug scope or counts a failure. Operands: the
  196 bytes shifted in. -/
  | authResp (b : List (BitVec 8))
  /-- `DBG_STATUS` (R454): JTAG instruction reading BST_DBG_STATUS. -/
  | dbgStatus
  /-- `IJTAG` (R456): JTAG access to the instrument network, protected. -/
  | ijtag
  /-- `SCAN` (R456): JTAG scan instruction, protected and needing TMODE high. -/
  | scan
  /-- `BYPASS` (R454): JTAG BYPASS instruction, also taken by unknown codes. -/
  | bypass (code : BitVec 8)
  /-- `CLEARING_DONE` (R458): Clearing reaches step 6; CLEARED is set and the grant takes effect. -/
  | clearingDone
  /-- `COUNTER_LO_READ` (R466): A read of a 64-bit pair's low half snapshots the high half for its path. -/
  | counterLoRead (via : Path) (off : BitVec 24)
  /-- `REGISTER_WRITE` (R487): A write to a register with no row of its own is checked in order and applied or
  refused. -/
  | registerWrite (via : Path) (off : BitVec 24) (v : BitVec 32)
  /-- `I3C_SET_OFFSET` (R479): A 3-byte private write sets the sideband register offset. -/
  | i3cSetOffset (off : BitVec 24)
  /-- `I3C_REG_WRITE` (R479): A 7-byte private write sets the offset and writes the register. -/
  | i3cRegWrite (off : BitVec 24) (v : BitVec 32)
  /-- `I3C_REG_READ` (R479): A 5-byte private read returns the register and the latest write status. -/
  | i3cRegRead
  /-- `I3C_BAD_LENGTH` (R479): A private write of any other length is discarded and counted. -/
  | i3cBadLength (b : List (BitVec 8))
  /-- `ENTDAA` (R479): I3C dynamic address assignment using the unique ID as provisional ID. -/
  | entdaa (addr : BitVec 7)
  /-- `MARL_QUIET_WINDOW` (R211): A slice sees 16 consecutive STO cycles with no transfer, which is a quiet window: a
  pad delay code may move one tap, a corrected unit is rewritten and a test shadow is borrowed. -/
  | marlQuietWindow (slice : BitVec 6) (up : Bool)
  /-- `MARKER_LOCK_LOSS` (R117): A receive lane in training loses marker lock after two consecutive training markers
  are missing at their expected block intervals. -/
  | markerLockLoss (lane : BitVec 8)
  /-- `PRBS_CHECKER_LOCK` (R130): A lane's PRBS checker gains lock after 64 consecutive correct bits, or loses it, and
  from then on counts wrong bits in LANE_PRBS_ERR. Operands: the bits that arrived since the last report, bit 0 of each byte
  first, and whether the lock is lost after them. -/
  | prbsCheckerLock (lane : BitVec 8) (bits : List (BitVec 8)) (lost : Bool)
  deriving DecidableEq, Repr

end Sys2Proof
end

