-- ==== Sys2Proof/Decode.lean ====
section
/-! DEFINITION. The words of the table. Every row of spec/opcode_table.json gives no bits: a command is an event with its
operands, and no word spells one. -/

namespace Sys2Proof

set_option Elab.async false

/-- The command that a word spells by the table's bits: no row of the table gives any. -/
def decodeTableWord (_nbits _w : Nat) : Option Instr := none

end Sys2Proof
end

