-- ==== Sys2Proof/Machine/State.lean ====
section
/-! DEFINITION. The state of the stack as plain data, the state right after power-on reset, and the reasons a step can
stop. Registers are held by offset in `State.regs` (their reset values are in Machine/RegMap.lean); every other piece of
state the rules name has a field of its own. -/

namespace Sys2Proof.Machine

set_option Elab.async false

/-- Faults of a step. No command of this block ends in one: hardware faults are records of the collector (R399), and
refused requests are answered. Nobody raises a value of this type, which is safe. -/
inductive Fault
  deriving DecidableEq, Repr

/-- Refusals of a step. -/
inductive Refusal
  /-- Raised by an arm of `exec` whose command has no meaning yet; safe. -/
  | notModelled (mnemonic : String)
  deriving DecidableEq, Repr

/-! ## Faults (18_faults.md) -/

/-- Fault class of Table 18.2, in rising order A < C < D < G (R404, Table 18.7 codes 0 to 3). -/
inductive FltClass | a | c | d | g
  deriving DecidableEq, Repr

/-- STATE of a fault record (Table 18.11, word 0 [27:25], codes 0 to 5). -/
inductive RecSt | closed | advisory | wait | held | degraded | grave
  deriving DecidableEq, Repr

/-- The record of one fault domain (R403, Table 18.11), held field by field; `FLT_REC[d]` is its view. -/
structure FltRec where
  isOpen : Bool := false
  inj : Bool := false
  cls : FltClass := .a
  st : RecSt := .closed
  auto : Bool := false
  /-- the containment of Table 18.1 has been applied (R404 step 2) -/
  contained : Bool := false
  merges : Nat := 0
  seq : BitVec 8 := 0
  firstCause : BitVec 8 := 0
  lastCause : BitVec 8 := 0
  /-- a timer of the record's class is due (R404); it runs once `timerEnd` is set -/
  timerOn : Bool := false
  /-- the microsecond at which the running timer ends; `none` until READY and S0 (R404) -/
  timerEnd : Option Nat := none
  detail : BitVec 32 := 0
  tOpen : BitVec 32 := 0
  deriving DecidableEq, Repr

/-- The 1 ms alarm window of one domain (R412). -/
structure AlarmWin where
  pending : Bool := false
  folded : Nat := 0
  deriving DecidableEq, Repr

/-- The armed checker of R415. -/
structure Inject where
  checker : Nat
  ue : Bool
  unit : Nat
  remaining : Nat
  deriving DecidableEq, Repr

/-- The fault collector (18_faults.md). -/
structure FltSt where
  /-- records by domain ID, rising; an absent domain is the reset record -/
  recs : List (Nat × FltRec) := []
  /-- domains inside an alarm window -/
  wins : List (Nat × AlarmWin) := []
  /-- ALARM_SEQ of the latest ALARM packet since power-on (Table 18.3) -/
  alarmSeq : BitVec 32 := 0
  /-- lifetime part of FLT_ALARMS_FOLDED (Table 19.10 bytes 64 to 67) -/
  foldedLife : BitVec 32 := 0
  inject : Option Inject := none
  /-- when the latest LOCKSTEP (R401) and FAB_STATE (R402) were raised -/
  lockstepAt : Option Nat := none
  fabStateAt : Option Nat := none
  /-- the MGC cores are halted and reload (R401) -/
  mgcDown : Bool := false
  deriving DecidableEq, Repr

/-! ## Recorder, Sett and telemetry (19_recorder_telemetry.md) -/

/-- One recorder record, field by field (Table 19.2); `tail` holds its bytes from byte 24 on. -/
structure EvRec where
  typ : BitVec 8
  sev : Nat
  rept : Nat := 0
  opSec : Nat
  pwr : Nat
  rseq : BitVec 32
  code : BitVec 32
  unit : BitVec 32
  tail : List (BitVec 8)
  /-- microsecond at which it was queued or written: the 1 s fold window of R424 -/
  at_ : Nat
  /-- a header update for this logged record is queued (R424: at most one) -/
  updDue : Bool := false
  deriving DecidableEq, Repr

/-- An item of the staging or the holding queue: a new record, or the 16-byte header update of a logged one, as the record will
stand once it is written. -/
inductive StageItem
  | new (r : EvRec)
  | upd (r : EvRec)
  deriving DecidableEq, Repr

/-- State byte of a log page (R426). -/
inductive PageSt | free | opened | full | retired
  deriving DecidableEq, Repr

/-- One 4 KiB page of the event log (R426), its records oldest first. -/
structure LogPage where
  seq : BitVec 32 := 0
  sev : Nat := 0
  st : PageSt := .free
  recs : List EvRec := []
  deriving DecidableEq, Repr

/-- Freeze of the log (R427): none; asked for and draining; frozen since a microsecond. -/
inductive Freeze | off | draining | frozen (since : Nat)
  deriving DecidableEq, Repr

/-- Mark of a firmware slot (R69, R323). -/
inductive SlotSt | empty | written | verified | failed
  deriving DecidableEq, Repr

/-- The fabric snapshot of R176: the registers it holds with their values, and the strap and variant it was taken under. -/
structure Snapshot where
  regs : List (Nat × BitVec 32)
  did : BitVec 12
  strap : BitVec 12
  variantCode : BitVec 8
  crcOk : Bool := true
  deriving DecidableEq, Repr

/-- The memory map record of R237. -/
structure MapRec where
  memCfg : BitVec 32
  groupState : BitVec 8
  variantCode : BitVec 8
  crcOk : Bool := true
  deriving DecidableEq, Repr

/-- One entry of the soft-repair log (Table 17.6), its bytes as stored. -/
structure SoftRec where
  bytes : List (BitVec 8)
  deriving DecidableEq, Repr

/-- The Sett (R419). -/
structure SettSt where
  /-- bytes of firmware slots A and B that differ from 0, by Sett address, rising -/
  fw : List (Nat × BitVec 8) := []
  slotA : SlotSt := .empty
  slotB : SlotSt := .empty
  /-- the slot marked active: 0 none, 1 A, 2 B -/
  active : Nat := 0
  pages : List (Nat × LogPage) := []
  pageSeq : BitVec 32 := 0
  softLog : List (Nat × SoftRec) := []
  /-- counter slots of R436 by index, 256 bytes each -/
  slots : List (Nat × List (BitVec 8)) := []
  flushSeq : BitVec 32 := 0
  snapshot : Option Snapshot := none
  mapRec : Option MapRec := none
  /-- rebuild pointers recorded at each sixteenth, by channel (R241) -/
  rebuild : List (Nat × Nat) := []
  /-- bits that have had their one top-up: row × 128 + bit (R104) -/
  topUps : List Nat := []
  /-- retired 64-byte units, by Sett address / 64 (R420) -/
  retired : List Nat := []
  deriving DecidableEq, Repr

/-- Recorder state outside the Sett. -/
structure RecorderSt where
  staging : List StageItem := []
  holding : List StageItem := []
  rseq : BitVec 32 := 0
  freeze : Freeze := .off
  /-- a REC_FREEZE descriptor waits for its request to take effect -/
  waiter : Bool := false
  /-- the snapshot being written since GLB_LOCK (R176) -/
  snapBusy : Option Snapshot := none
  /-- OP_SECONDS (36 bits) and PWR_CYCLES (24 bits) -/
  opSec : Nat := 0
  pwr : Nat := 0
  deriving DecidableEq, Repr

/-! ## Rails, pins, start-up, power and clocks (02 to 04) -/

/-- The eight rails of Table 2.6: `true` while good (R27). -/
structure Rails where
  vaon : Bool := false
  vcore : Bool := false
  vstore : Bool := false
  vdram : Bool := false
  vpp : Bool := false
  vser : Bool := false
  vserh : Bool := false
  vfuse : Bool := false
  deriving DecidableEq, Repr

/-- Pins that the stack reads or drives (02, 04, 20, 21). -/
structure Pins where
  perstN : Bool := false
  bypForceN : Bool := true
  idStrap : BitVec 12 := 0
  bootMode : BitVec 2 := 0
  tmode : Bool := false
  /-- THERMTRIP_N driven low, held until VAON falls (R444) -/
  thermtripLow : Bool := false
  deriving DecidableEq, Repr

/-- Start-up and reset state beyond GLB_START_STATUS and RST_CAUSE (04). -/
structure StartSt where
  /-- the grave safe state is in force, latched by VAON logic (R410, R411) -/
  grave : Bool := false
  /-- the G record is written and PHASE reads 0xC (R410 step 4) -/
  graveDone : Bool := false
  /-- the hold of R44 -/
  slowHold : Bool := false
  /-- DIAG_HALT (R67), latched until VAON falls (R72) -/
  diagHold : Bool := false
  /-- forcing under R48 is in effect -/
  forcing : Bool := false
  /-- BOOT_MODE as sampled at the latest P1 -/
  boot : BitVec 2 := 0
  /-- phase at whose end cold hold began: 3 or 4 (R68); 0 outside cold hold -/
  coldNext : Nat := 0
  /-- when P1 started (START_MS) -/
  p1At : Nat := 0
  /-- when power-good was last reached (T_OPEN) -/
  pgAt : Nat := 0
  /-- FROZEN mark of layer 1 and RETAINED marks of layers 2 to 17 (R73) -/
  frozen : Bool := false
  retained : BitVec 16 := 0
  /-- VDRAM or VPP was lost: every channel stays fenced until the next power-on reset (Table 2.7) -/
  dramLost : Bool := false
  /-- a fast RC attempt of this start failed (R43) -/
  frcFailSeen : Bool := false
  /-- the monitor causes found at power-on, for EVENT 0x02 (R49) -/
  monHeld : BitVec 32 := 0
  /-- VAON or VCORE was lost past P0: the next P3 records it (Table 2.7, EVENT 0x06) -/
  railLost : Bool := false
  /-- power-good has been reached since VAON became good: ALERT_N and THERMTRIP_N are driven from then on (R29) -/
  pgSeen : Bool := false
  /-- moment of the VCORE loss that took the stack out of service: a rail lost at the same moment is lost together with it (R32) -/
  lostAt : Option Nat := none
  /-- the furthest of the phases P3 to READY reached since the latest reset: which blocks are writable (R66) -/
  prog : Nat := 0
  deriving DecidableEq, Repr

/-- Clock start and monitoring beyond the CLK registers (03). -/
structure ClkSt where
  /-- applied trims (R37, R42) -/
  slowTrim : BitVec 7 := 0x40
  frcTrim : BitVec 7 := 0x40
  /-- fast RC attempts made in the running qualification, 0 when none runs -/
  frcTries : Nat := 0
  frcRunning : Bool := false
  /-- consecutive good windows of REFA driven, REFA crystal, REFB driven, REFB crystal (R40, R42 step 4) -/
  wins : List Nat := [0, 0, 0, 0]
  /-- crystal oscillators switched off for good because the driven form qualified (R40) -/
  xtalOffA : Bool := false
  xtalOffB : Bool := false
  /-- holdover runs since the active reference failed; the input that failed (R47) -/
  holdover : Option Nat := none
  /-- MGT switch under way: its target, 1 fast RC or 2 PLL_MGT (R51) -/
  switchTo : Option Nat := none
  /-- the steps of Table 3.3 reached -/
  p2Step : Nat := 0
  /-- PLL_FOX is lost and being relocked every 1 ms (R46) -/
  foxRelock : Bool := false
  /-- wake from S3 waits for its clocks (R50) -/
  wakeWait : Bool := false
  deriving DecidableEq, Repr

/-- What asked for a sleep entry: a ring-0 descriptor or a register write on a path. -/
inductive Asker | ring0 | reg (via : Path)
  deriving DecidableEq, Repr

/-- A sleep entry under way (R82). -/
structure SleepEntry where
  target : Nat
  asker : Asker
  /-- step 2 has been reached: the asker is answered -/
  answered : Bool := false
  /-- a wake that came after step 2 is held -/
  wakeHeld : Option Nat := none
  deriving DecidableEq, Repr

structure PwrSt where
  entry : Option SleepEntry := none
  /-- S1 asked for under R83 -/
  s1Req : Bool := false
  /-- wake timer in seconds, 0 none (R81) -/
  wakeTimer : Nat := 0
  /-- a wake from S3 is running its steps (R85) -/
  waking : Bool := false
  /-- a fault of class C or D came while asleep or entering sleep: a wake is due (R80, R404) -/
  wakeDue : Bool := false
  deriving DecidableEq, Repr

/-! ## Fuse store (05_fuse_store.md) -/

/-- One physical row of 128 cells: which of them read 1 against the strict-low, low, normal, high and strict-high
references (Table 5.2). A cell's current is one number, so each mask holds the next. -/
structure FuseRow where
  sl : BitVec 128 := 0
  lo : BitVec 128 := 0
  no : BitVec 128 := 0
  hi : BitVec 128 := 0
  sh : BitVec 128 := 0
  deriving DecidableEq, Repr

/-- A running OTP command (R102). -/
structure OtpRun where
  op : Nat
  row : Nat
  bit : Nat
  region : Nat
  margin : Nat
  data : BitVec 128
  /-- the result already decided (refusals), if any -/
  early : Option Nat := none
  deriving DecidableEq, Repr

structure FuseSt where
  /-- physical rows 0 to 511 logical, 512 to 527 spares, 528 to 533 the redirection table; an absent row is unblown -/
  rows : List (Nat × FuseRow) := []
  /-- redirection entries as voted at the last sense: `some row` valid -/
  redir : List (Nat × Nat) := []
  /-- voted critical wires of Table 5.3 -/
  variantCode : BitVec 8 := 0x48
  debugLock : Bool := true
  slowTrim : BitVec 7 := 0x40
  frcTrim : BitVec 7 := 0x40
  /-- logical rows as applied at the last sense (CHECKED rows of segmented regions, rows of good regions) -/
  applied : List (Nat × BitVec 128) := []
  /-- rows as sensed solidly at the last start (R106) -/
  sensed : List (Nat × BitVec 128) := []
  /-- rows of the segments that were FAILED at the last sense (R92), and the regions it found locked (R93) -/
  failedRows : List Nat := []
  locked : BitVec 8 := 0
  run : Option OtpRun := none
  deriving DecidableEq, Repr
/-! ## Lanes and links (06, 07) -/

/-- A lane's state beyond its registers (06_serial_lanes.md). -/
structure Lane where
  /-- consecutive valid training markers, up to 4 (R117) -/
  goodRun : Nat := 0
  /-- consecutive invalid or missing markers, up to 2 (R117) -/
  missRun : Nat := 0
  /-- consecutive TS_SEEN or TS_GO markers with both masks unchanged, up to 8 (Table 6.5 step 6) -/
  stable : Nat := 0
  /-- consecutive TS_LOCK markers, up to 4 (R121, R127) -/
  lockRun : Nat := 0
  /-- consecutive bad or missing alignment markers (R125) -/
  amMiss : Nat := 0
  /-- bytes corrected on this lane since the latest AM (R125) -/
  fecRun : Nat := 0
  amSeqTx : BitVec 8 := 0
  /-- AM_SEQ of the latest AM received, once one was -/
  amSeqRx : Option (BitVec 8) := none
  /-- scrambler registers of R112 -/
  scrTx : BitVec 23 := 0
  scrRx : BitVec 23 := 0
  /-- which of the 13 settings moves next (R123) -/
  adaptPos : Nat := 0
  /-- the three PAM4 slicer thresholds (R118 step 3, R123) -/
  slicer : List (BitVec 8) := [0, 0, 0]
  /-- the lane's transmitter is squelched -/
  squelch : Bool := true
  /-- LANE_TX_EQ in force since the latest step 1 of Table 6.5 -/
  txEq : BitVec 32 := 0x804
  /-- the unit the lane sent last, in the order its bytes left: a training block, markers without filler, alignment markers, its
  share of a flit, a test pattern word (R110, R115, R122, R130) -/
  sent : List (BitVec 8) := []
  /-- PRBS31 register of the training filler (R115), and the registers of the pattern generator and checker (R130) -/
  filler : BitVec 31 := 0x7FFFFFFF
  gen : BitVec 31 := 0x7FFFFFFF
  chk : BitVec 31 := 0
  /-- consecutive correct bits the checker has found, up to 64 (R130) -/
  chkRun : Nat := 0
  deriving DecidableEq, Repr

/-- A packet flit kept for replay (R141): its sequence number and 64 content bytes. -/
structure KeptFlit where
  seq : BitVec 12
  content : List (BitVec 8)
  deriving DecidableEq, Repr

/-- One link's training and link-layer state (06, 07); PORT_LINK_STATUS and PORT_NEIGH_ID hold the rest. -/
structure Link where
  /-- own RXMASK and the partner's latest, by logical lane -/
  rxMask : BitVec 8 := 0
  peerMask : BitVec 8 := 0
  /-- a TS_GO was received since step 4 (Table 6.5 step 7) -/
  goSeen : Bool := false
  /-- consecutive valid markers of another identity (R174) -/
  otherRun : Nat := 0
  /-- the partner's latest marker gives another SPLIT, LINK or RATE (R119) -/
  cfgBad : Bool := false
  /-- the partner's transmitter is in L1 (R128) -/
  rxIdle : Bool := false
  /-- the retrain, if one runs, keeps its width to compare (R126) -/
  oldWidth : Nat := 0
  /-- CRC prefix identity sent at the latest training (R136) -/
  txDid : BitVec 12 := 0
  /-- next new transmit sequence number, expected sequence number E (R140) -/
  txNext : BitVec 12 := 0
  rxExp : BitVec 12 := 0
  retryWait : Bool := false
  nakId : BitVec 4 := 0
  lastNak : BitVec 4 := 0
  /-- PORT_LL_CFG as taken at the latest L0 entry from training (R150) -/
  llCfg : BitVec 32 := 0x08142002
  nakRun : Nat := 0
  partnerLcf : Bool := false
  acceptedAny : Bool := false
  /-- unacknowledged flits, oldest first (R141) -/
  kept : List KeptFlit := []
  /-- kept flits still to be resent by a replay under way -/
  replay : List KeptFlit := []
  /-- only LCFs go out until one valid LCF comes (R144) -/
  resume : Bool := false
  /-- credits: granted by the partner, its CRED_RET at the first LCF and latest, flits spent, by VC (R147) -/
  peerInit : List Nat := [0, 0, 0, 0, 0]
  peerRet : List Nat := [0, 0, 0, 0, 0]
  spent : List Nat := [0, 0, 0, 0, 0]
  /-- granted by this side, flits freed since L0 entry, flits held in the receive buffer, by VC -/
  ownInit : List Nat := [0, 0, 0, 0, 0]
  ownRet : List Nat := [0, 0, 0, 0, 0]
  rxHeld : List Nat := [0, 0, 0, 0, 0]
  /-- what the latest LCF reported: freed flits by VC, and flits accepted since ACK_SEQ was sent (R139) -/
  toldRet : List Nat := [0, 0, 0, 0, 0]
  ackOwed : Nat := 0
  nakOwed : Bool := false
  /-- content of the partly received packet's flits, oldest first (R148) -/
  partial_ : List (BitVec 8) := []
  /-- content of the flits of the packet being sent that have not gone out yet (R142) -/
  sending : List (List (BitVec 8)) := []
  /-- packet starts since the latest VC4 start, responses in a row, and the round-robin input (R170) -/
  sinceVc4 : Nat := 4
  respRun : Nat := 0
  rrIn : Nat := 0
  /-- the latest flit slot sent on the wire, 72 bytes in flit order after scrambling -/
  lastWire : List (BitVec 8) := []
  deriving DecidableEq, Repr

/-! ## Switch (08, 10) -/

/-- A packet whole in an ingress account (R148, R216); `port` is its arrival port. -/
structure InPkt where
  port : Nat
  link : Nat
  vc : Nat
  pkt : Packet
  /-- cells it holds: one per flit (R215) -/
  cells : Nat
  /-- where those cells lie: slice × 65536 + buffer bank × 4096 + unit (R215, R231) -/
  held : List Nat := []
  /-- microsecond of arrival, for AGE (R169) -/
  at_ : Nat
  /-- an SVC that waits has been counted in FOX_SVC_WAIT (R336) -/
  waits : Bool := false
  /-- one of its cells has been found uncorrectable (Table 17.2) -/
  bad : Bool := false
  deriving DecidableEq, Repr

/-- A packet in an egress account, or waiting for a usable port (R166). -/
structure OutPkt where
  /-- arrival port; `none` for the stack's own packets (R161) -/
  inPort : Option Nat
  port : Nat
  vc : Nat
  pkt : Packet
  cells : Nat
  held : List Nat := []
  /-- as in `InPkt` -/
  bad : Bool := false
  at_ : Nat
  /-- waiting under R166 since this microsecond -/
  waiting : Option Nat := none
  /-- it enters a dimension on this port (R171) -/
  enters : Bool := false
  deriving DecidableEq, Repr

structure SwitchSt where
  ingress : List InPkt := []
  egress : List OutPkt := []
  /-- (port, VC) accounts in back-pressure (R217) -/
  backpress : List (Nat × Nat) := []
  /-- cells placed so far, for the round-robin over the slices (R215) -/
  placed : Nat := 0
  deriving DecidableEq, Repr

/-! ## Packets being served (09) and the stack's own requests (09, 14, 15) -/

/-- A local request accepted and not yet complete (R197, R201). -/
structure Txn where
  id : Nat
  pkt : Packet
  /-- blocks not yet performed -/
  todo : List Nat
  /-- data collected for a RD or ATOM, by block, and the poison mask -/
  got : List (Nat × List (BitVec 8)) := []
  poison : BitVec 64 := 0
  /-- blocks for which a miss has been raised -/
  missed : List Nat := []
  /-- response cells reserved (R217), and where they lie -/
  cells : Nat := 0
  held : List Nat := []
  /-- an access of a Fox engine: its engine and its number there, instead of a packet's response -/
  unit : Option (Nat × Nat) := none
  /-- class and group fixed at acceptance (R280) -/
  cls : Nat := 2
  grp : Nat := 0
  /-- its response waits only for ordering; FENCED after acceptance (R201) -/
  fenced : Bool := false
  deriving DecidableEq, Repr

/-! ## The Marl store (10) -/

inductive LineSt | clean | dirty
  deriving DecidableEq, Repr

/-- A valid cache line (R221). -/
structure Line where
  st : LineSt
  data : List (BitVec 8)
  poison : Bool := false
  /-- write generation bit (R224) -/
  gen : Bool := false
  /-- a write-back is in flight -/
  wbBusy : Bool := false
  evictFirst : Bool := false
  /-- marked by the flush under way (R226) -/
  flushMark : Bool := false
  way : Nat
  /-- upset bits of the stored unit: 512 data and 48 check bits (R379) -/
  err : BitVec 560 := 0
  deriving DecidableEq, Repr

/-- The frozen image of R74: what was in force at the freeze. -/
structure FrozenImg where
  memCfg : BitVec 32
  part : BitVec 32
  groupState : BitVec 8
  deriving DecidableEq, Repr

/-- One stored copy of the frozen image with its CRC-32C (R229). -/
structure ImgCopy where
  img : FrozenImg
  crc : BitVec 32
  deriving DecidableEq, Repr

/-- Pad field of a slice (R211, R450). Pads are 0 to 255 and spares 256 and 257 of each direction; direction 1 is up (Marl to
base), 0 down. -/
structure Pads where
  /-- delay codes by direction × 512 + pad -/
  delay : List (Nat × BitVec 8) := []
  /-- next of the 516 pads whose code moves in a quiet window -/
  turn : Nat := 0
  /-- the pad that a spare in use carries, by direction × 2 + spare -/
  holder : List (Nat × Nat) := []
  /-- spares that failed: direction × 2 + spare -/
  badSpares : List Nat := []
  /-- pad under test by direction -/
  test : List (Nat × Nat) := []
  deriving DecidableEq, Repr

structure MarlSt where
  /-- valid lines by line number, rising -/
  lines : List (Nat × Line) := []
  /-- pseudo-LRU bits by set (slice × 4096 + set), rising; an absent set is all 0 -/
  plru : List (Nat × BitVec 15) := []
  /-- the three copies of the frozen image, none while layer 1 is not frozen (R229) -/
  image : List ImgCopy := []
  /-- lines whose fill is under way, with the way it holds (R221) -/
  fills : List (Nat × Nat) := []
  /-- lines that wait for the eviction of another: wanted line, line being evicted (R221) -/
  evicting : List (Nat × Nat) := []
  /-- flush under way: `some inv` with its mode, and its asker -/
  flush : Option Bool := none
  flushRing0 : Bool := false
  /-- the division being put in force (R231) -/
  newPart : Option (BitVec 32) := none
  /-- slices retired under R232; units retired under R218 and R392, slice × 65536 + bank × 4096 + unit -/
  retiredSlices : BitVec 64 := 0
  badUnits : List Nat := []
  /-- pad field of each slice -/
  pads : List (Nat × Pads) := []
  /-- corrected units waiting for a quiet window to be rewritten (R211, R383): line numbers -/
  rewrite : List Nat := []
  deriving DecidableEq, Repr
/-! ## Channels and DRAM (11, 17) -/

/-- What one DRAM read of a channel is for. -/
inductive RdUse
  /-- fill of a miss for line `n` (R222) -/
  | miss (line : Nat)
  /-- RD with NOALLOC: to transaction `t`'s response cell only -/
  | noalloc (txn : Nat) (line : Nat)
  /-- Badger patrol (R387) -/
  | patrol
  /-- rebuild of the stripe (R241) -/
  | rebuild
  deriving DecidableEq, Repr

/-- A queued DRAM read (R243): its physical channel offset in blocks, and its class and group (R280, R284). -/
structure RdReq where
  block : Nat
  use : RdUse
  cls : Nat
  grp : Nat
  /-- the entry is a reserved one (R284) -/
  reserved : Bool := false
  /-- an ATOM asked for it: its bytes are the operand's, counted when the ATOM is performed (R287, R292) -/
  forAtom : Bool := false
  at_ : Nat
  issued : Bool := false
  deriving DecidableEq, Repr

/-- A request waiting in a channel's admission queue (R284 step 3). -/
structure WaitReq where
  block : Nat
  use : RdUse
  cls : Nat
  grp : Nat
  forAtom : Bool := false
  at_ : Nat
  deriving DecidableEq, Repr

/-- A queued write of a coded block (R243, R285). -/
structure WrReq where
  block : Nat
  data : List (BitVec 8)
  poison : Bool
  /-- the line it writes back, if any -/
  line : Option Nat
  cls : Nat
  /-- share group of the request that caused it, 64 for background (R280, R285) -/
  grp : Nat := 64
  at_ : Nat
  /-- a corrective write of R383 -/
  corrective : Bool := false
  /-- the channel whose rebuild writes this block (R241, R285) -/
  rebuilds : Option Nat := none
  issued : Bool := false
  /-- the bytes that the block and its parity block held before the write was issued; `none` is an undefined byte (R258) -/
  old : List (Option (BitVec 8)) := []
  oldPar : List (Option (BitVec 8)) := []
  /-- an earlier burst of this write was cut off: the parity is formed anew (R240) -/
  cut : Bool := false
  deriving DecidableEq, Repr

/-- A channel controller's state beyond its registers. -/
structure Chan where
  reads : List RdReq := []
  waits : List WaitReq := []
  writes : List WrReq := []
  /-- open row by bank: pseudo-channel × 16 + group × 4 + bank -/
  openRows : List (Nat × Nat) := []
  /-- CHN cycles that an open row has been without a queued hit, by bank (R243, ROW_IDLE) -/
  rowIdle : List (Nat × Nat) := []
  /-- pseudo-channels that their all-bank refresh blocks, with the microsecond it began (R244) -/
  refBusy : List (Nat × Nat) := []
  /-- banks owed a neighbour refresh, with the row activated (R247) -/
  nrefDue : List (Nat × Nat) := []
  /-- of each pseudo-channel: CHN cycles and commands issued in the running window of 100 (R443) -/
  window : List (Nat × Nat × Nat) := []
  draining : Bool := false
  /-- timing offsets: read and write of each pseudo-channel, and command (R244) -/
  offsets : List Int := [0, 0, 0, 0, 0]
  /-- fraction asked for by a PASR change, and its asker (R249) -/
  pasrNew : Option Nat := none
  pasrAsker : Option Asker := none
  /-- command sequence field (R257) and whether the heartbeat runs -/
  seq : BitVec 2 := 0
  heartbeat : Bool := false
  /-- the layer holds the channel in self-refresh after heartbeat loss until EXIT_SR (R258, R259) -/
  srHeld : Bool := false
  /-- decoded reads that arrived and have not yet filled: their poison flag and data -/
  arrived : List (RdReq × Bool × List (BitVec 8)) := []
  /-- data of the latest write-back of each pseudo-channel (R339) -/
  lastWb : List (Nat × List (BitVec 8)) := []
  deriving DecidableEq, Repr

structure ChanSt where
  chans : List (Nat × Chan) := []
  /-- DRAM as stored: bytes of coded 72-byte blocks, by (channel × 3 × 2^24 + block) × 72 + byte -/
  dram : List (Nat × BitVec 8) := []
  /-- channels that the clearing before test access has written with zeros and valid check bits (R458), each with the block its
  zeros end at: a block below it that is not listed in `dram` still holds them -/
  zeroed : List (Nat × Nat) := []
  deriving DecidableEq, Repr

/-! ## Vertical coupling (12) -/

/-- Codes of one coil receiver (R256). -/
structure CoilCode where
  gain : BitVec 8 := 0
  thresh : BitVec 8 := 0
  delay : BitVec 8 := 0
  resid : BitVec 8 := 0
  deriving DecidableEq, Repr

/-- What the codes of a die's receivers in a column started from at P4 (R261, R265): MECH_PROFILE, and the rows of TRIM where the
region was CHECKED. -/
structure CalBase where
  profile : Nat := 0
  trim : List Nat := []
  deriving DecidableEq, Repr

/-- A column's state beyond VCP_COL_STATUS, VCP_COL_RESID and VCP_SPARE. -/
structure Column where
  /-- failed positions waiting for a boundary, in position order (R270, R271) -/
  failed : List Nat := []
  /-- positions in the dropped half recorded as failed (Table 12.4) -/
  dropped : List Nat := []
  /-- corrected errors of coils: position and microsecond, the last 1 ms of them (R269) -/
  errs : List (Nat × Nat) := []
  /-- a forced recalibration runs; one is due (R264) -/
  recal : Bool := false
  recalDue : Bool := false
  /-- rotation steps made; setting that the rotation comes to next, and rotations completed (R262) -/
  rotPos : Nat := 0
  rotAt : Nat := 0
  laps : Nat := 0
  /-- setting that a forced recalibration comes to next (R264) -/
  recAt : Nat := 0
  /-- codes of the receivers that have left their start code, as the retention latches hold them; and what the start codes of each
  die's receivers came from (R256) -/
  codes : List (Nat × CoilCode) := []
  cal : List (Nat × CalBase) := []
  /-- readings of its layer's four sensors at the column's last full calibration (R264) -/
  calTemp : List Int := []
  /-- receivers whose residual stays above RESID_FAIL, each with the rotations completed and the setting come to when it rose (R263) -/
  residSeen : List (Nat × Nat × Nat) := []
  /-- residual has exceeded RESID_WARN already (R263) -/
  warned : Bool := false
  /-- coil under test and its shadow: the spare's number, or 16 more than a coil of the dropped half (21, R272) -/
  test : Option (Nat × Option Nat) := none
  /-- the test is abandoned: its shadow is released at the next boundary (R447) -/
  testDrop : Bool := false
  deriving DecidableEq, Repr

structure VcpSt where
  cols : List (Nat × Column) := []
  /-- relock attempts made for a silent layer (R260) -/
  silent : List (Nat × Nat) := []
  deriving DecidableEq, Repr

/-! ## Regulation (13) -/

structure QosSt where
  /-- active RATE_WIN and SAND_MAX (R288) -/
  rateWin : Nat := 10
  sandMax : Nat := 32
  /-- Bedrock buckets by group, in bytes (R287) -/
  bucket : List (Nat × Nat) := []
  bucketAt : Nat := 0
  /-- the D in force, in thousandths of 0.1 GB/s × 100 (weights are halves, fractions percents) -/
  d : Nat := 0
  /-- D has been evaluated since READY (R291) -/
  live : Bool := false
  deriving DecidableEq, Repr

/-! ## Rings (14) -/

/-- State of a fetched descriptor. -/
inductive DescSt | ready | running | done
  deriving DecidableEq, Repr

/-- A fetched descriptor (R300, R304). -/
structure Desc where
  /-- job number: unique -/
  job : Nat
  hdr : List (BitVec 8)
  payload : List (BitVec 8)
  /-- F after it was fetched (SQ_HEAD) -/
  sqHead : BitVec 32
  malformed : Bool := false
  st : DescSt := .ready
  deriving DecidableEq, Repr

/-- A completion entry waiting to be written (R306 to R311): DESC_ID, STATUS, STAGE, SQ_HEAD, DETAIL, RESULT. -/
structure CplEntry where
  /-- the descriptor's job number -/
  job : Nat := 0
  descId : BitVec 16
  status : BitVec 8
  stage : Nat
  sqHead : BitVec 32
  detail : BitVec 32 := 0
  result : List (BitVec 8) := []
  deriving DecidableEq, Repr

structure Ring where
  /-- H, the stack's copy of the owner's head (R304) -/
  h : BitVec 32 := 0
  /-- fetched or running descriptors, in ring order -/
  descs : List Desc := []
  /-- slots read and not yet assembled into descriptors, from slot F on -/
  slots : List (BitVec 8) := []
  /-- a fetch is outstanding: slots asked for -/
  fetching : Nat := 0
  fetched : List (Nat × List (BitVec 8)) := []
  /-- completions kept or waiting, oldest first (R309, R311) -/
  cpls : List CplEntry := []
  /-- the completion write in flight covers this many entries -/
  cplBusy : Nat := 0
  /-- a completion write failed: the entries wait for a resume or, on ring 0, a retry (R309, R311) -/
  cplHeld : Bool := false
  /-- ring 0 keeps its entries: a write failed and none has succeeded since (R311) -/
  cplKept : Bool := false
  /-- causes 2, 3 and 4 that ring 0 retries, in the order they arose, each with the status received (R310, R311) -/
  failing : List (Nat × BitVec 8) := []
  /-- an RCB read is outstanding: for P (poll or resume), for H -/
  rcbRead : Option Nat := none
  deriving DecidableEq, Repr
/-! ## Fox engines, services and check-value units (15, 16) -/

/-- One memory access of a stage: what it does, where (KIND, EID, address) and its data. -/
inductive AccOp | rd | wr | atom (sub : BitVec 8) | svc (sub : BitVec 8)
  deriving DecidableEq, Repr

structure Acc where
  op : AccOp
  kind : Nat
  eid : BitVec 18
  addr : Nat
  len : Nat
  data : List (BitVec 8) := []
  ordered : Bool := false
  deriving DecidableEq, Repr

/-- The answer to an access: its packet status (or 0x0E for none) and its bytes. -/
structure AccAns where
  status : BitVec 8
  data : List (BitVec 8) := []
  detail : BitVec 32 := 0
  remote : Bool := false
  deriving DecidableEq, Repr

/-- What an engine is doing in a stage: its part of the range, its round, the accesses outstanding and what it has
gathered (R327 to R348). -/
structure Run where
  job : Nat
  /-- the units of the stage this engine serves -/
  lo : Nat
  hi : Nat
  /-- units of its part confirmed so far, and the round of the unit in hand -/
  pos : Nat
  round : Nat := 0
  opened : List (Nat × Acc) := []
  /-- accesses that wait for response space (R334), the number of the round's first access, and the next number -/
  queue : List (Nat × Acc) := []
  base : Nat := 0
  nextAcc : Nat := 0
  answers : List (Nat × AccAns) := []
  /-- running words of the stage (REDUCE lanes, COMPARE and ATOMB counts, mirror state) -/
  words : List (Option (BitVec 64)) := []
  bytes : List (BitVec 8) := []
  finished : Bool := false
  /-- the access at the head of the queue has been counted in FOX_RESP_WAIT -/
  waits : Bool := false
  deriving DecidableEq, Repr

/-- STATE of an engine (Table 15.10, codes 0 to 7). -/
inductive EngSt | off | loading | idle | run | help | svc | reload | disabled
  deriving DecidableEq, Repr

structure Engine where
  st : EngSt := .off
  run : Option Run := none
  /-- den bytes written since the store was last loaded, by offset, rising -/
  den : List (Nat × BitVec 8) := []
  /-- the latest fetch or watchdog trap (R353) -/
  trapAt : Option Nat := none
  /-- a trap waits for its outstanding requests (R352), and whether an injection caused it (R416) -/
  trapping : Option Nat := none
  trapInj : Bool := false
  /-- DISABLED by the containment of FOXSYS until PLL_FOX relocks (Table 18.1) -/
  heldPll : Bool := false
  /-- to be DISABLED when its present work ends (Table 18.1, degrade) -/
  disableDue : Bool := false
  deriving DecidableEq, Repr

/-- A descriptor or an SVC being run by an engine. -/
structure Job where
  id : Nat
  /-- ring of the descriptor; `none` for an SVC -/
  ring : Option Nat
  svc : Option Packet := none
  /-- an SVC's place in the order of arrival of local requests (R194) -/
  num : Nat := 0
  label : BitVec 8
  /-- opcode and payload offset of each stage -/
  ops : List (BitVec 8 × Nat)
  payload : List (BitVec 8)
  stage : Nat := 0
  /-- next unit of a spread stage not handed out (R331) -/
  nextChunk : Nat := 0
  /-- units confirmed by finished parts: (low, high) -/
  confirmed : List (Nat × Nat) := []
  engines : List Nat := []
  /-- progress and value of the stage that last ended (R327) -/
  prog : Nat := 0
  value : BitVec 64 := 0
  stopDiff : Bool := false
  part : Nat := 0
  /-- first failure: status code of Table 14.5, status received, from another stack -/
  fail : Option (BitVec 8 × BitVec 8 × Bool) := none
  /-- check-value unit held (R332) -/
  cvu : Option Nat := none
  /-- values of finished REDUCE subranges, by (part, subrange) -/
  parts : List (Nat × BitVec 64) := []
  /-- progress when the trap came that failed the stage (R352) -/
  trapProg : Option Nat := none
  deriving DecidableEq, Repr

/-- Who sent a request of the stack's own (R207). -/
inductive Owner
  | fetch (ring slot : Nat)
  | rcb (ring : Nat)
  | cpl (ring : Nat)
  | stage (engine acc : Nat)
  | recRead (job : Nat)
  /-- a request whose ring no longer waits for it -/
  | gone
  deriving DecidableEq, Repr

/-- An outstanding request of the stack (R207). -/
structure OutReq where
  tag : BitVec 16
  pkt : Packet
  owner : Owner
  /-- response space reserved in the response pool, in bytes (R334) -/
  space : Nat := 0
  deriving DecidableEq, Repr

/-- A ring-0 operation under way (R305: at most 4). -/
structure Mgmt where
  job : Nat
  op : BitVec 8
  payload : List (BitVec 8)
  /-- REC_READ: bytes still to send, bytes written and the next FROM -/
  data : List (BitVec 8) := []
  written : Nat := 0
  next : BitVec 64 := 0
  deriving DecidableEq, Repr

/-- A check-value unit (R356 to R361); `reg` is its register in the bit order of the finished value. -/
structure Cvu where
  held : Bool := false
  test : Bool := false
  engine : Nat := 0
  poly : Nat := 0
  reg : BitVec 64 := 0
  deriving DecidableEq, Repr

/-- A granule map (R362): every granule reads `base` but those listed, rising. -/
structure GranMap where
  base : Bool := false
  flip : List Nat := []
  deriving DecidableEq, Repr

structure FoxSt where
  engines : List (Nat × Engine) := []
  jobs : List Job := []
  /-- accepted SVC requests waiting for an engine, oldest first (R336) -/
  svcQueue : List Packet := []
  /-- their places in the order of arrival of local requests (R194) -/
  svcNums : List Nat := []
  nextJob : Nat := 0
  mgmt : List Mgmt := []
  outs : List OutReq := []
  /-- requests that wait for a free TAG, oldest first (R207); their `tag` means nothing yet -/
  unsent : List OutReq := []
  /-- timed-out and freed TAGs are not kept; next TAG to try -/
  nextTag : BitVec 16 := 0
  /-- ring served last, for the round-robin of R325 -/
  lastRing : Nat := 0
  /-- retained copy of the Fox part, its digest, the running image's SVN (R320); `[]` when cleared or none -/
  retained : List (BitVec 8) := []
  /-- R324 has disabled every engine -/
  allDisabled : Bool := false
  /-- image bytes written over the sideband (R321), by offset, rising -/
  sbImage : List (Nat × BitVec 8) := []
  cvus : List (Nat × Cvu) := []
  ckpActive : GranMap := { base := true }
  ckpFrozen : GranMap := {}
  deriving DecidableEq, Repr

/-! ## Protection and repair (17) -/

/-- A row or block redirection in force: where from, and the spare row or remap entry it goes to (R392 to R396). -/
structure Redirect where
  /-- DRAM rows: channel × 2^32 + bank × 2^17 + row; DRAM blocks: channel × 2^26 + block -/
  target : Nat
  spare : Nat
  deriving DecidableEq, Repr

structure ProtSt where
  rowFix : List Redirect := []
  blkFix : List Redirect := []
  marlRowFix : List Redirect := []
  marlBlkFix : List Redirect := []
  /-- fused byte columns (Table 17.5, KIND 1): the entry with VALID and SPARE apart, and the spare byte column -/
  colFix : List Redirect := []
  /-- blocks owed a corrective write: channel, block, data, degrees corrected (R383) -/
  corrective : List (Nat × Nat × List (BitVec 8) × List Nat) := []
  /-- blocks whose corrective write was done, with the degrees corrected before (R392) -/
  watched : List (Nat × Nat × List Nat) := []
  /-- blocks that decoded UE once in this patrol pass -/
  ueOnce : List (Nat × Nat) := []
  /-- Marl units and bits corrected in this Marl pass -/
  marlOnce : List (Nat × Nat) := []
  /-- hard-failed blocks (channel, block) and Marl units waiting for repair -/
  hard : List (Nat × Nat) := []
  marlHard : List Nat := []
  /-- patrol offset in blocks of each channel, and whether it was stopped (Table 17.3) -/
  patrol : List (Nat × Nat) := []
  stopped : BitVec 32 := 0
  /-- when each channel's pass began, and the channels that have completed one since DRAM_PASSES last rose -/
  passAt : List (Nat × Nat) := []
  passDone : BitVec 32 := 0
  deriving DecidableEq, Repr

/-! ## Thermal (20) -/

structure Sensor where
  /-- reading in use, in 0.25 degC -/
  reading : Int := 0
  has : Bool := false
  broken : Bool := false
  /-- samples in a row without a result, and in disagreement (R439) -/
  noRes : Nat := 0
  disagree : Nat := 0
  maxC : Option Int := none
  deriving DecidableEq, Repr

structure Die where
  fraction : Nat := 100
  critHold : Bool := false
  throttled : Bool := false
  deriving DecidableEq, Repr

structure ThmSt where
  sensors : List (Nat × Sensor) := []
  dies : List (Nat × Die) := []
  /-- LOW_WARN, LOW_STOP and CRIT may raise their faults again (R441) -/
  warnArmed : Bool := true
  stopArmed : Bool := true
  critArmed : Bool := true
  tripped : Bool := false
  sampling : Bool := false
  deriving DecidableEq, Repr

/-! ## Test access and register paths (21, 22, 23) -/

/-- A running BST_RUN (R452). -/
structure BstRun where
  job : Nat
  scope : Nat
  index : Nat
  pos : Nat := 0
  tested : Nat := 0
  fails : Nat := 0
  skips : Nat := 0
  deriving DecidableEq, Repr

structure TapSt where
  ir : BitVec 8 := 0x02
  /-- result of the latest REGACC access: DONE, STATUS, DATA (R455) -/
  accDone : Bool := false
  accStatus : BitVec 8 := 0
  accData : BitVec 32 := 0
  nonce : Option (List (BitVec 8)) := none
  /-- the next nonce is given only from this microsecond on (R457) -/
  nonceFrom : Nat := 0
  /-- scope granted by AUTH_RESP -/
  grant : BitVec 3 := 0
  /-- the protected instruction in effect, 0xFF for none -/
  effect : BitVec 8 := 0xFF
  /-- the latched key hashes are cleared (Table 21.5 step 3) -/
  keysCleared : Bool := false
  /-- the data captured by the latest instruction: IDCODE, BYPASS, DBG_STATUS, SAMPLE, the nonce of AUTH_CHAL -/
  dr : List (BitVec 8) := []
  deriving DecidableEq, Repr

structure I3cSt where
  offset : BitVec 24 := 0
  status : BitVec 8 := 0
  /-- the five bytes of the latest read -/
  last : List (BitVec 8) := []
  dynAddr : Option (BitVec 7) := none
  deriving DecidableEq, Repr

/-- A register write whose answer waits: its register, the path, and the MREG_WR header where it came in a packet. -/
structure OwedAns where
  off : Nat
  via : Path
  hdr : Option Hdr := none
  deriving DecidableEq, Repr

structure AccSt where
  /-- status with which the latest register write on the MREG path was answered -/
  mregStatus : BitVec 8 := 0
  /-- answers owed: register writes answered later (R82, R231, R237, R249) -/
  owed : List OwedAns := []
  i3c : I3cSt := {}
  tap : TapSt := {}
  bstRun : Option BstRun := none
  /-- high-half snapshots by path × 2^24 + NAME_LO offset (R466) -/
  snaps : List (Nat × BitVec 32) := []
  /-- next lane of each link for the margin check (R447) -/
  laneNext : List (Nat × Nat) := []
  /-- lanes whose margin check is under way (R451) -/
  laneDue : List Nat := []
  deriving DecidableEq, Repr

/-! ## The whole machine -/

/-- A block reset under way (R78). -/
structure UnitReset where
  kind : Nat
  index : Nat
  asker : Asker
  deriving DecidableEq, Repr

/-- The state of the stack. Registers hold what their field maps give; the rest is what the rules give the machine
beyond registers. Plain data throughout. -/
structure State where
  /-- commands waiting, first in, first out -/
  pending : List Instr := []
  /-- the model's own clock, in microseconds: an idle step adds one (log entry 1) -/
  now : Nat := 0
  /-- draws taken from `Config.free…`, the model's own field (log entry 2) -/
  free : Nat := 0
  /-- registers that differ from their reset value, by offset, rising -/
  regs : List (Nat × BitVec 32) := []
  acc : AccSt := {}
  rails : Rails := {}
  pins : Pins := {}
  start : StartSt := {}
  clk : ClkSt := {}
  pwr : PwrSt := {}
  unitResets : List UnitReset := []
  fuse : FuseSt := {}
  flt : FltSt := {}
  recd : RecorderSt := {}
  sett : SettSt := {}
  /-- links by port × 8 + link, lanes by number; an absent one is as reset -/
  links : List (Nat × Link) := []
  lanes : List (Nat × Lane) := []
  sw : SwitchSt := {}
  /-- accepted local requests, oldest first, and the next identifier -/
  txns : List Txn := []
  nextTxn : Nat := 0
  marl : MarlSt := {}
  chan : ChanSt := {}
  vcp : VcpSt := {}
  qos : QosSt := {}
  rings : List (Nat × Ring) := []
  fox : FoxSt := {}
  prot : ProtSt := {}
  thm : ThmSt := {}
  deriving DecidableEq, Repr


/-! ## Reset -/

/-- A row whose cells all read solidly. -/
def solidRow (v : BitVec 128) : FuseRow := { sl := v, lo := v, no := v, hi := v, sh := v }

/-- The fuse store as shipped (Table 5.1): IDENT, VARIANT, TRIM and KEYS checked and locked, the rest blank. The variant is a K96,
DEBUG_LOCK and BYP_DEFAULT are 1 and the oscillator trims 0x40; every other content bit is 0 (log entry 4). -/
def shippedFuses : List (Nat × FuseRow) := [
  (3, solidRow 0x58538000000000000000000000000000),
  (4, solidRow 0x396),
  (5, solidRow 0x396),
  (6, solidRow 0x43db8000000000000000000000000396),
  (7, solidRow 0x4040),
  (8, solidRow 0x4040),
  (9, solidRow 0x4040),
  (38, solidRow 0xb2048000000000000000000000000000),
  (478, solidRow 0xc8a58000000000000000000000000000),
  (511, solidRow 0x356800000000000075ec458f55ae)]

/-- A stack as shipped, without power. -/
def State.unpowered : State := { fuse := { rows := shippedFuses } }

/-- Right after the power-on reset (R27, R71): VAON has become good with every strap low, the other rails are not good yet and
PERST_N is low, so the stack waits in P0. PWR_CYCLES is 1 and OP_SECONDS starts 16 s above its saved value (R423). -/
def State.reset : State :=
  { rails := { vaon := true }, fuse := { rows := shippedFuses }, recd := { opSec := 16, pwr := 1 } }

end Sys2Proof.Machine
end

