-- ==== Sys2Proof/Machine/RegMap.lean ====
section
/-! DEFINITION. The register map of 22_register_index.md: every register's offset, fields, access types, reset value and
how long it is kept, block by block (Tables 22.5 to 22.11 and the field maps of the owning chapters), and the name of
every register and field. -/

namespace Sys2Proof.Machine

set_option Elab.async false

/-- The register blocks of Table 22.1. -/
inductive Blk
  | glb | clk | rst | otp | thm | flt | recorder | qos | ring | rt | port | lane | chan | marl | fox | vcp | bst | cvu | tel
  deriving DecidableEq, Repr

/-- Access types of Table 0.4 (R6). -/
inductive AccT | rw | ro | wo | w1c | w1s | rwl | ros
  deriving DecidableEq, Repr

/-- How a register meets a reset (R71, R467): a setting or status returns to its reset value at every reset, a counter is
kept across PERST_N, a held one across every warm reset, a lifetime one is reloaded from the Sett, a view is computed. -/
inductive RegCls | setting | status | counter | held | life | view
  deriving DecidableEq, Repr

/-- One register (or array of them): offset in its block, (count, stride) of each index, fields (high bit, low bit,
access), reset value, class, and whether it is half of a 64-bit counter pair (R466). -/
structure RegDesc where
  off : Nat
  dims : List (Nat × Nat)
  flds : List (Nat × Nat × AccT)
  reset : Nat
  cls : RegCls
  pair : Bool
  deriving DecidableEq, Repr

/-- A field of a register: its offset and bit range. -/
structure Fld where
  off : Nat
  hi : Nat
  lo : Nat
  deriving DecidableEq, Repr

/-- Registers of block GLB. -/
def regsGLB : List RegDesc := [
  ⟨0x0, [], [(31, 0, .ro)], 0x0, .view, false⟩,
  ⟨0x4, [], [(31, 0, .ro)], 0xA0, .view, false⟩,
  ⟨0x8, [], [(31, 0, .ro)], 0x0, .status, false⟩,
  ⟨0xC, [], [(31, 0, .ro)], 0x0, .status, false⟩,
  ⟨0x10, [], [(27, 16, .ro), (11, 0, .rwl)], 0x0, .setting, false⟩,
  ⟨0x14, [], [(0, 0, .w1s)], 0x0, .setting, false⟩,
  ⟨0x20, [], [(31, 16, .ro), (12, 12, .ro), (11, 10, .ro), (9, 9, .ro), (8, 8, .ro), (3, 0, .ro)], 0x0, .status, false⟩,
  ⟨0x24, [], [(0, 0, .w1s)], 0x0, .setting, false⟩,
  ⟨0x30, [], [(31, 16, .rwl), (15, 0, .rwl)], 0xFFFFFFFF, .setting, false⟩,
  ⟨0x34, [], [(31, 16, .rwl), (8, 8, .w1s), (1, 0, .wo)], 0x640000, .setting, false⟩,
  ⟨0x38, [], [(31, 16, .ro), (11, 8, .ro), (3, 2, .ro), (1, 0, .ro)], 0x0, .status, false⟩,
  ⟨0x40, [], [(8, 8, .rwl), (4, 4, .rwl), (2, 0, .rwl)], 0x1, .setting, false⟩,
  ⟨0x44, [], [(31, 24, .ro), (13, 8, .ro), (7, 0, .ro)], 0x0, .status, false⟩,
  ⟨0xE0, [], [(31, 0, .ro)], 0x0, .counter, false⟩,
  ⟨0xE4, [], [(31, 0, .ro)], 0x0, .counter, false⟩,
  ⟨0xE8, [], [(31, 0, .ro)], 0x0, .counter, false⟩,
  ⟨0xF0, [], [(31, 0, .ro)], 0x0, .counter, false⟩,
  ⟨0xF4, [], [(31, 0, .ro)], 0x0, .counter, false⟩,
  ⟨0xF8, [], [(31, 0, .ro)], 0x0, .counter, false⟩]

/-- Registers of block CLK. -/
def regsCLK : List RegDesc := [
  ⟨0x0, [], [(19, 16, .ro), (12, 12, .ro), (11, 11, .ro), (10, 10, .ro), (9, 8, .ro), (7, 6, .ro), (5, 4, .ro), (3, 2, .ro), (1, 1, .ro), (0, 0, .ro)], 0x0, .status, false⟩,
  ⟨0x4, [], [(28, 28, .ro), (27, 12, .ro), (11, 4, .ro), (3, 3, .ro), (2, 2, .ro), (1, 1, .ro), (0, 0, .ro)], 0x0, .status, false⟩,
  ⟨0x8, [], [(5, 4, .rwl), (3, 3, .rwl), (2, 2, .rwl), (1, 0, .rwl)], 0x2C, .setting, false⟩,
  ⟨0xC, [], [(11, 11, .ros), (10, 10, .ros), (9, 9, .ros), (8, 8, .ros), (7, 7, .ros), (6, 6, .ros), (5, 5, .ros), (4, 4, .ros), (1, 1, .ros), (0, 0, .ros)], 0x0, .held, false⟩,
  ⟨0x10, [], [(31, 0, .ro)], 0x0, .counter, false⟩,
  ⟨0x14, [], [(31, 0, .ro)], 0x0, .counter, false⟩,
  ⟨0x40, [], [(31, 0, .rwl)], 0xFFFFFFFF, .setting, false⟩,
  ⟨0x44, [], [(31, 0, .rwl)], 0xFFFFFFFF, .setting, false⟩,
  ⟨0x48, [], [(15, 0, .rwl)], 0xFFFF, .setting, false⟩,
  ⟨0x4C, [], [(6, 3, .rwl), (2, 2, .rwl), (1, 1, .rwl), (0, 0, .rwl)], 0x7F, .setting, false⟩,
  ⟨0x50, [], [(31, 0, .rwl)], 0x0, .setting, false⟩,
  ⟨0x54, [], [(31, 0, .rwl)], 0x0, .setting, false⟩,
  ⟨0x58, [], [(15, 0, .rwl)], 0x0, .setting, false⟩,
  ⟨0x5C, [], [(6, 3, .rwl), (2, 2, .rwl), (1, 1, .rwl), (0, 0, .rwl)], 0x1, .setting, false⟩,
  ⟨0x60, [], [(31, 0, .rwl)], 0x0, .setting, false⟩,
  ⟨0x64, [], [(31, 0, .rwl)], 0x0, .setting, false⟩,
  ⟨0x68, [], [(15, 0, .rwl)], 0x0, .setting, false⟩,
  ⟨0x6C, [], [(6, 3, .rwl), (2, 2, .rwl), (1, 1, .rwl), (0, 0, .rwl)], 0x0, .setting, false⟩,
  ⟨0xF0, [], [(31, 0, .ro)], 0x0, .counter, false⟩,
  ⟨0xF4, [], [(31, 0, .ro)], 0x0, .counter, false⟩,
  ⟨0xF8, [], [(31, 0, .ro)], 0x0, .counter, false⟩]

/-- Registers of block RST. -/
def regsRST : List RegDesc := [
  ⟨0x0, [], [(31, 16, .ros), (11, 8, .ros), (2, 2, .ros), (1, 1, .ros), (0, 0, .ros)], 0x1, .held, false⟩,
  ⟨0x10, [], [(31, 28, .wo), (4, 0, .wo)], 0x0, .setting, false⟩,
  ⟨0x14, [], [(31, 31, .ro), (23, 20, .ro), (12, 8, .ro), (7, 0, .ro)], 0x0, .status, false⟩,
  ⟨0xF0, [], [(31, 0, .ro)], 0x0, .counter, false⟩,
  ⟨0xF4, [], [(31, 0, .ro)], 0x0, .counter, false⟩,
  ⟨0xF8, [], [(31, 0, .ro)], 0x0, .counter, false⟩]

/-- Registers of block OTP. -/
def regsOTP : List RegDesc := [
  ⟨0x0, [], [(31, 28, .wo), (27, 24, .wo), (23, 22, .wo), (21, 15, .wo), (8, 0, .wo)], 0x0, .setting, false⟩,
  ⟨0x4, [], [(31, 31, .ro), (30, 30, .ro), (23, 20, .ro), (12, 8, .ro), (7, 0, .ro)], 0x0, .status, false⟩,
  ⟨0x10, [(4, 0x4)], [(31, 0, .rw)], 0x0, .setting, false⟩,
  ⟨0x20, [], [(26, 0, .ro)], 0x0, .status, false⟩,
  ⟨0x30, [], [(31, 0, .ro)], 0x0, .status, false⟩,
  ⟨0x34, [], [(31, 0, .ro)], 0x0, .status, false⟩,
  ⟨0x100, [(128, 0x4)], [(31, 0, .ro)], 0x0, .view, false⟩,
  ⟨0xF0, [], [(31, 0, .ro)], 0x0, .counter, false⟩,
  ⟨0xF4, [], [(31, 0, .ro)], 0x0, .counter, false⟩,
  ⟨0xF8, [], [(31, 0, .ro)], 0x0, .counter, false⟩]

/-- Registers of block THM. -/
def regsTHM : List RegDesc := [
  ⟨0x0, [], [(31, 24, .rwl), (23, 16, .rwl), (15, 8, .rwl), (7, 0, .rwl)], 0x736E645F, .setting, false⟩,
  ⟨0x4, [], [(15, 8, .rwl), (7, 0, .rwl)], 0x5FB, .setting, false⟩,
  ⟨0x8, [], [(23, 16, .rwl), (15, 8, .rwl), (7, 0, .rwl)], 0x51408, .setting, false⟩,
  ⟨0x10, [], [(31, 31, .ros), (30, 30, .ro), (29, 29, .ro), (28, 28, .ro), (23, 16, .ro), (15, 8, .ro), (7, 0, .ro)], 0x0, .view, false⟩,
  ⟨0x20, [], [(31, 0, .ro)], 0x0, .counter, true⟩,
  ⟨0x24, [], [(31, 0, .ro)], 0x0, .counter, true⟩,
  ⟨0x28, [], [(31, 0, .ro)], 0x0, .counter, false⟩,
  ⟨0x2C, [], [(31, 0, .ro)], 0x0, .counter, false⟩,
  ⟨0x100, [(84, 0x4)], [(31, 30, .ro), (23, 16, .ro), (11, 0, .ro)], 0xC0800000, .view, false⟩,
  ⟨0x300, [(18, 0x4)], [(31, 24, .ro), (23, 16, .ro), (15, 8, .ro), (1, 1, .ro), (0, 0, .ro)], 0x640000, .view, false⟩,
  ⟨0xF0, [], [(31, 0, .ro)], 0x0, .counter, false⟩,
  ⟨0xF4, [], [(31, 0, .ro)], 0x0, .counter, false⟩,
  ⟨0xF8, [], [(31, 0, .ro)], 0x0, .counter, false⟩]

/-- Registers of block FLT. -/
def regsFLT : List RegDesc := [
  ⟨0x0, [], [(23, 16, .rwl), (15, 8, .rwl), (0, 0, .rwl)], 0x141400, .setting, false⟩,
  ⟨0x4, [], [(31, 31, .ro), (30, 30, .ro), (23, 16, .ro), (15, 8, .ro), (1, 0, .ro)], 0x0, .view, false⟩,
  ⟨0x8, [], [(17, 16, .wo), (15, 8, .wo), (7, 0, .wo)], 0x0, .setting, false⟩,
  ⟨0xC, [], [(31, 31, .ro), (23, 16, .ro), (7, 0, .ro)], 0x0, .status, false⟩,
  ⟨0x10, [(5, 0x4)], [(31, 0, .ro)], 0x0, .view, false⟩,
  ⟨0x34, [(2, 0x4)], [(31, 31, .rwl), (17, 0, .rwl)], 0x0, .setting, false⟩,
  ⟨0x40, [], [(31, 28, .wo), (27, 27, .wo), (23, 16, .wo), (5, 0, .wo)], 0x0, .setting, false⟩,
  ⟨0x44, [], [(31, 31, .ro), (23, 16, .ro), (7, 0, .ro)], 0x0, .status, false⟩,
  ⟨0x50, [], [(31, 0, .ro)], 0x0, .counter, true⟩,
  ⟨0x54, [], [(31, 0, .ro)], 0x0, .counter, true⟩,
  ⟨0x58, [], [(31, 0, .ro)], 0x0, .counter, false⟩,
  ⟨0x5C, [], [(31, 0, .ro)], 0x0, .counter, false⟩,
  ⟨0x60, [], [(31, 0, .ro)], 0x0, .counter, false⟩,
  ⟨0x64, [], [(31, 0, .ro)], 0x0, .counter, false⟩,
  ⟨0x68, [], [(31, 0, .ro)], 0x0, .counter, false⟩,
  ⟨0x400, [(144, 0x10), (4, 0x4)], [(31, 0, .ro)], 0x0, .view, false⟩,
  ⟨0xF0, [], [(31, 0, .ro)], 0x0, .counter, false⟩,
  ⟨0xF4, [], [(31, 0, .ro)], 0x0, .counter, false⟩,
  ⟨0xF8, [], [(31, 0, .ro)], 0x0, .counter, false⟩]

/-- Registers of block REC. -/
def regsREC : List RegDesc := [
  ⟨0x0, [], [(1, 1, .wo), (0, 0, .wo)], 0x0, .setting, false⟩,
  ⟨0x4, [], [(31, 31, .ro), (28, 16, .ro), (14, 0, .ro)], 0x0, .view, false⟩,
  ⟨0x8, [], [(31, 0, .ro)], 0x0, .view, false⟩,
  ⟨0xC, [], [(31, 0, .ro)], 0x0, .view, false⟩,
  ⟨0x10, [], [(31, 0, .ro)], 0x0, .life, true⟩,
  ⟨0x14, [], [(31, 0, .ro)], 0x0, .life, true⟩,
  ⟨0x18, [], [(23, 0, .ro)], 0x0, .life, false⟩,
  ⟨0x20, [(4, 0x4)], [(31, 0, .ro)], 0x0, .life, false⟩,
  ⟨0x30, [(4, 0x4)], [(31, 0, .ro)], 0x0, .life, false⟩,
  ⟨0x40, [], [(31, 0, .ro)], 0x0, .counter, false⟩,
  ⟨0x80, [], [(21, 6, .rw)], 0x0, .setting, false⟩,
  ⟨0x100, [(16, 0x4)], [(31, 0, .ro)], 0x0, .view, false⟩,
  ⟨0xF0, [], [(31, 0, .ro)], 0x0, .counter, false⟩,
  ⟨0xF4, [], [(31, 0, .ro)], 0x0, .counter, false⟩,
  ⟨0xF8, [], [(31, 0, .ro)], 0x0, .counter, false⟩]

/-- Registers of block QOS. -/
def regsQOS : List RegDesc := [
  ⟨0x0, [], [(0, 0, .wo)], 0x0, .setting, false⟩,
  ⟨0x4, [], [(31, 31, .ro), (23, 16, .ro), (7, 0, .ro)], 0x0, .status, false⟩,
  ⟨0x8, [], [(31, 31, .ro), (15, 0, .ro)], 0x8000, .status, false⟩,
  ⟨0xC, [], [(31, 0, .ro)], 0x0, .status, false⟩,
  ⟨0x10, [], [(23, 16, .rwl), (7, 0, .rwl)], 0xA0020, .setting, false⟩,
  ⟨0x14, [], [(31, 0, .ro)], 0x0, .status, false⟩,
  ⟨0x18, [], [(31, 0, .ro)], 0x0, .counter, false⟩,
  ⟨0xEC, [], [(31, 0, .ro)], 0x0, .counter, false⟩,
  ⟨0x100, [(64, 0x4)], [(31, 0, .rwl)], 0x80808080, .setting, false⟩,
  ⟨0x200, [(64, 0x4)], [(31, 0, .ro)], 0x80808080, .status, false⟩,
  ⟨0x400, [(64, 0x4)], [(15, 0, .rwl)], 0x0, .setting, false⟩,
  ⟨0x500, [(64, 0x4)], [(15, 0, .ro)], 0x0, .status, false⟩,
  ⟨0x600, [(64, 0x4)], [(31, 0, .ro)], 0x0, .status, false⟩,
  ⟨0x800, [(8, 0x8)], [(31, 0, .ro)], 0x0, .counter, true⟩,
  ⟨0x804, [(8, 0x8)], [(31, 0, .ro)], 0x0, .counter, true⟩,
  ⟨0x840, [], [(31, 0, .ro)], 0x0, .counter, true⟩,
  ⟨0x844, [], [(31, 0, .ro)], 0x0, .counter, true⟩,
  ⟨0xA00, [(64, 0x8)], [(31, 0, .ro)], 0x0, .counter, true⟩,
  ⟨0xA04, [(64, 0x8)], [(31, 0, .ro)], 0x0, .counter, true⟩,
  ⟨0xF0, [], [(31, 0, .ro)], 0x0, .counter, false⟩,
  ⟨0xF4, [], [(31, 0, .ro)], 0x0, .counter, false⟩,
  ⟨0xF8, [], [(31, 0, .ro)], 0x0, .counter, false⟩]

/-- Registers of block RING. -/
def regsRING : List RegDesc := [
  ⟨0x0, [(2, 0x4)], [(31, 0, .ro)], 0x0, .view, false⟩,
  ⟨0x8, [(2, 0x4)], [(31, 0, .ro)], 0x0, .view, false⟩,
  ⟨0xF0, [], [(31, 0, .ro)], 0x0, .counter, false⟩,
  ⟨0xF4, [], [(31, 0, .ro)], 0x0, .counter, false⟩,
  ⟨0xF8, [], [(31, 0, .ro)], 0x0, .counter, false⟩,
  ⟨0x1000, [(64, 0x40)], [(31, 12, .rwl)], 0x0, .setting, false⟩,
  ⟨0x1004, [(64, 0x40)], [(31, 0, .rwl)], 0x0, .setting, false⟩,
  ⟨0x1008, [(64, 0x40)], [(31, 12, .rwl)], 0x0, .setting, false⟩,
  ⟨0x100C, [(64, 0x40)], [(31, 0, .rwl)], 0x0, .setting, false⟩,
  ⟨0x1010, [(64, 0x40)], [(31, 6, .rwl)], 0x0, .setting, false⟩,
  ⟨0x1014, [(64, 0x40)], [(31, 0, .rwl)], 0x0, .setting, false⟩,
  ⟨0x1018, [(64, 0x40)], [(17, 0, .rwl)], 0x0, .setting, false⟩,
  ⟨0x101C, [(64, 0x40)], [(17, 0, .rwl)], 0x0, .setting, false⟩,
  ⟨0x1020, [(64, 0x40)], [(31, 24, .rwl), (23, 17, .rwl), (16, 16, .rwl), (12, 8, .rwl), (4, 0, .rwl)], 0x140C0C, .setting, false⟩,
  ⟨0x1024, [(64, 0x40)], [(2, 2, .wo), (1, 1, .wo), (0, 0, .wo)], 0x0, .setting, false⟩,
  ⟨0x1028, [(64, 0x40)], [(31, 30, .ro), (29, 27, .ro), (21, 16, .ro), (7, 0, .ro)], 0x0, .status, false⟩,
  ⟨0x102C, [(64, 0x40)], [(31, 0, .ro)], 0x0, .status, false⟩,
  ⟨0x1030, [(64, 0x40)], [(31, 0, .ro)], 0x0, .status, false⟩,
  ⟨0x1034, [(64, 0x40)], [(31, 0, .ro)], 0x0, .status, false⟩,
  ⟨0x1038, [(64, 0x40)], [(31, 0, .ro)], 0x0, .counter, false⟩,
  ⟨0x103C, [(64, 0x40)], [(31, 0, .ro)], 0x0, .counter, false⟩]

/-- Registers of block RT. -/
def regsRT : List RegDesc := [
  ⟨0x0, [], [(31, 31, .ro), (23, 16, .rwl), (9, 8, .rwl), (5, 0, .rwl)], 0x320230, .setting, false⟩,
  ⟨0x10, [(3, 0x4)], [(15, 0, .rwl)], 0xFFFF, .setting, false⟩,
  ⟨0x40, [], [(15, 0, .rwl)], 0x0, .setting, false⟩,
  ⟨0x44, [], [(15, 0, .w1s)], 0x0, .setting, false⟩,
  ⟨0x48, [], [(31, 16, .ro), (15, 0, .ro)], 0xFFFF, .status, false⟩,
  ⟨0x80, [], [(31, 0, .ro)], 0x0, .view, false⟩,
  ⟨0x100, [(16, 0x4)], [(31, 31, .rwl), (16, 16, .rwl), (15, 0, .rwl)], 0x0, .setting, false⟩,
  ⟨0x140, [(16, 0x4)], [(31, 31, .rwl), (16, 16, .rwl), (15, 0, .rwl)], 0x0, .setting, false⟩,
  ⟨0x180, [(16, 0x4)], [(31, 31, .rwl), (16, 16, .rwl), (15, 0, .rwl)], 0x0, .setting, false⟩,
  ⟨0xF0, [], [(31, 0, .ro)], 0x0, .counter, false⟩,
  ⟨0xF4, [], [(31, 0, .ro)], 0x0, .counter, false⟩,
  ⟨0xF8, [], [(31, 0, .ro)], 0x0, .counter, false⟩,
  ⟨0xFC, [], [(31, 0, .ro)], 0x0, .counter, false⟩,
  ⟨0xEC, [], [(31, 0, .ro)], 0x0, .counter, false⟩,
  ⟨0x200, [(16, 0x4)], [(31, 16, .ro), (15, 0, .ro)], 0x0, .view, false⟩,
  ⟨0x240, [(16, 0x4)], [(2, 2, .ro), (1, 1, .ro), (0, 0, .ro)], 0x0, .view, false⟩,
  ⟨0x300, [], [(31, 0, .ro)], 0x0, .counter, false⟩,
  ⟨0x304, [], [(31, 0, .ro)], 0x0, .counter, false⟩,
  ⟨0x308, [], [(31, 0, .ro)], 0x0, .counter, false⟩,
  ⟨0x30C, [], [(31, 0, .ro)], 0x0, .counter, false⟩,
  ⟨0x310, [], [(31, 0, .ro)], 0x0, .counter, false⟩,
  ⟨0x314, [], [(31, 0, .ro)], 0x0, .counter, false⟩,
  ⟨0x318, [], [(31, 0, .ro)], 0x0, .counter, false⟩,
  ⟨0x320, [], [(31, 0, .ro)], 0x0, .counter, true⟩,
  ⟨0x324, [], [(31, 0, .ro)], 0x0, .counter, true⟩,
  ⟨0x400, [(16, 0x10)], [(31, 31, .rwl), (23, 0, .rwl)], 0x0, .setting, false⟩,
  ⟨0x404, [(16, 0x10)], [(23, 0, .rwl)], 0x0, .setting, false⟩,
  ⟨0x408, [(16, 0x10)], [(17, 0, .rwl)], 0x0, .setting, false⟩,
  ⟨0x40C, [(16, 0x10)], [(27, 27, .rwl), (26, 26, .rwl), (25, 25, .rwl), (24, 24, .rwl), (17, 0, .rwl)], 0x0, .setting, false⟩,
  ⟨0x500, [], [(0, 0, .rwl)], 0x0, .setting, false⟩]

/-- Registers of block PORT. -/
def regsPORT : List RegDesc := [
  ⟨0x0, [(32, 0x800)], [(2, 0, .rwl)], 0x0, .setting, false⟩,
  ⟨0x4, [(32, 0x800)], [(3, 2, .rwl), (0, 0, .rwl)], 0x0, .setting, false⟩,
  ⟨0xF0, [(32, 0x800)], [(31, 0, .ro)], 0x0, .counter, false⟩,
  ⟨0xF4, [(32, 0x800)], [(31, 0, .ro)], 0x0, .counter, false⟩,
  ⟨0xF8, [(32, 0x800)], [(31, 0, .ro)], 0x0, .counter, false⟩,
  ⟨0xFC, [(32, 0x800)], [(31, 0, .ro)], 0x0, .counter, false⟩,
  ⟨0x100, [(32, 0x800)], [(16, 16, .rwl), (15, 8, .rwl), (5, 4, .rwl), (3, 2, .rwl), (1, 0, .rwl)], 0x10502, .setting, false⟩,
  ⟨0x108, [(32, 0x800)], [(31, 0, .ro)], 0x0, .counter, false⟩,
  ⟨0x10C, [(32, 0x800)], [(31, 0, .ro)], 0x0, .counter, false⟩,
  ⟨0x110, [(32, 0x800)], [(31, 0, .ro)], 0x0, .counter, false⟩,
  ⟨0x120, [(32, 0x800), (8, 0x4)], [(23, 16, .ro), (15, 12, .ro), (11, 11, .ro), (10, 8, .ro), (3, 0, .ro)], 0x0, .status, false⟩,
  ⟨0x140, [(32, 0x800), (8, 0x4)], [(31, 31, .ro), (30, 30, .ro), (29, 27, .ro), (26, 24, .ro), (23, 23, .ro), (20, 16, .ro), (11, 0, .ro)], 0x0, .status, false⟩,
  ⟨0x200, [(32, 0x800)], [(27, 24, .rwl), (23, 16, .rwl), (15, 8, .rwl), (7, 0, .rwl)], 0x8142002, .setting, false⟩,
  ⟨0x210, [(32, 0x800), (5, 0x4)], [(15, 0, .rwl)], 0x800, .setting, false⟩,
  ⟨0x240, [(32, 0x800)], [(31, 0, .ro)], 0x0, .counter, true⟩,
  ⟨0x244, [(32, 0x800)], [(31, 0, .ro)], 0x0, .counter, true⟩,
  ⟨0x248, [(32, 0x800)], [(31, 0, .ro)], 0x0, .counter, true⟩,
  ⟨0x24C, [(32, 0x800)], [(31, 0, .ro)], 0x0, .counter, true⟩,
  ⟨0x250, [(32, 0x800)], [(31, 0, .ro)], 0x0, .counter, false⟩,
  ⟨0x254, [(32, 0x800)], [(31, 0, .ro)], 0x0, .counter, false⟩,
  ⟨0x258, [(32, 0x800)], [(31, 0, .ro)], 0x0, .counter, false⟩,
  ⟨0x25C, [(32, 0x800)], [(31, 0, .ro)], 0x0, .counter, false⟩,
  ⟨0x260, [(32, 0x800)], [(31, 0, .ro)], 0x0, .counter, false⟩,
  ⟨0x264, [(32, 0x800)], [(31, 0, .ro)], 0x0, .counter, false⟩,
  ⟨0x268, [(32, 0x800)], [(31, 0, .ro)], 0x0, .counter, false⟩,
  ⟨0x26C, [(32, 0x800)], [(31, 0, .ro)], 0x0, .counter, false⟩,
  ⟨0x270, [(32, 0x800)], [(31, 0, .ro)], 0x0, .counter, false⟩,
  ⟨0x280, [(32, 0x800), (5, 0x4)], [(31, 0, .ro)], 0x0, .view, false⟩,
  ⟨0x2A0, [(32, 0x800), (8, 0x4)], [(31, 31, .ro), (30, 30, .ro), (27, 16, .ro), (11, 0, .ro)], 0x0, .view, false⟩]

/-- Registers of block LANE. -/
def regsLANE : List RegDesc := [
  ⟨0x0, [(256, 0x400)], [(12, 8, .rwl), (3, 0, .rwl)], 0x804, .setting, false⟩,
  ⟨0x4, [(256, 0x400)], [(27, 24, .ro), (20, 16, .ro)], 0x0, .status, false⟩,
  ⟨0x8, [(256, 0x400), (2, 0x4)], [(31, 0, .ro)], 0x0, .status, false⟩,
  ⟨0x10, [(256, 0x400)], [(0, 0, .rwl)], 0x0, .setting, false⟩,
  ⟨0x14, [(256, 0x400)], [(7, 7, .ro), (6, 6, .ro), (5, 5, .ro), (4, 4, .ro), (3, 3, .ro), (2, 0, .ro)], 0x0, .status, false⟩,
  ⟨0x18, [(256, 0x400)], [(31, 31, .ro), (23, 16, .ro), (5, 0, .ro)], 0x80000000, .status, false⟩,
  ⟨0x20, [(256, 0x400)], [(9, 9, .w1s), (8, 8, .ro), (5, 4, .rwl), (1, 1, .rwl), (0, 0, .rwl)], 0x30, .setting, false⟩,
  ⟨0x24, [(256, 0x400)], [(31, 0, .ro)], 0x0, .counter, true⟩,
  ⟨0x28, [(256, 0x400)], [(31, 0, .ro)], 0x0, .counter, true⟩,
  ⟨0x2C, [(256, 0x400)], [(31, 0, .ro)], 0x0, .counter, false⟩,
  ⟨0x30, [(256, 0x400)], [(31, 0, .ro)], 0x0, .counter, false⟩,
  ⟨0xF0, [(256, 0x400)], [(31, 0, .ro)], 0x0, .counter, false⟩,
  ⟨0xF4, [(256, 0x400)], [(31, 0, .ro)], 0x0, .counter, false⟩,
  ⟨0xF8, [(256, 0x400)], [(31, 0, .ro)], 0x0, .counter, false⟩]

/-- Registers of block CHAN, part 1. -/
def regsCHAN0 : List RegDesc := [
  ⟨0x0, [(32, 0x1000)], [(31, 31, .ro), (9, 8, .ro), (5, 5, .ro), (4, 0, .ro)], 0x0, .view, false⟩,
  ⟨0x4, [(32, 0x1000)], [(31, 28, .ro), (23, 22, .ro), (19, 19, .ro), (18, 18, .ro), (17, 17, .ro), (16, 16, .ro), (3, 0, .ro)], 0x1, .status, false⟩,
  ⟨0x10, [(32, 0x1000)], [(2, 0, .rwl)], 0x0, .setting, false⟩,
  ⟨0x20, [(32, 0x1000)], [(31, 24, .rwl), (23, 16, .rwl), (13, 8, .rwl), (5, 0, .rwl)], 0x281E3010, .setting, false⟩,
  ⟨0x24, [(32, 0x1000)], [(15, 8, .rwl), (3, 0, .rwl)], 0x140A, .setting, false⟩,
  ⟨0x30, [(32, 0x1000)], [(31, 24, .ro), (23, 16, .ro), (15, 8, .ro)], 0x0, .status, false⟩,
  ⟨0x40, [(32, 0x1000)], [(31, 30, .ro), (20, 16, .ro), (15, 0, .ro)], 0x0, .status, false⟩,
  ⟨0x44, [(32, 0x1000)], [(25, 0, .ro)], 0x0, .status, false⟩,
  ⟨0xF0, [(32, 0x1000)], [(31, 0, .ro)], 0x0, .counter, false⟩,
  ⟨0xF4, [(32, 0x1000)], [(31, 0, .ro)], 0x0, .counter, false⟩,
  ⟨0xF8, [(32, 0x1000)], [(31, 0, .ro)], 0x0, .counter, false⟩,
  ⟨0x100, [(32, 0x1000)], [(31, 0, .ro)], 0x0, .counter, true⟩,
  ⟨0x104, [(32, 0x1000)], [(31, 0, .ro)], 0x0, .counter, true⟩,
  ⟨0x108, [(32, 0x1000)], [(31, 0, .ro)], 0x0, .counter, true⟩,
  ⟨0x10C, [(32, 0x1000)], [(31, 0, .ro)], 0x0, .counter, true⟩,
  ⟨0x110, [(32, 0x1000)], [(31, 0, .ro)], 0x0, .counter, true⟩,
  ⟨0x114, [(32, 0x1000)], [(31, 0, .ro)], 0x0, .counter, true⟩,
  ⟨0x118, [(32, 0x1000)], [(31, 0, .ro)], 0x0, .counter, false⟩,
  ⟨0x11C, [(32, 0x1000)], [(31, 0, .ro)], 0x0, .counter, false⟩,
  ⟨0x120, [(32, 0x1000)], [(31, 0, .ro)], 0x0, .counter, false⟩,
  ⟨0x124, [(32, 0x1000)], [(31, 0, .ro)], 0x0, .counter, false⟩,
  ⟨0x140, [(32, 0x1000)], [(31, 0, .ro)], 0x0, .counter, false⟩,
  ⟨0x144, [(32, 0x1000)], [(31, 0, .ro)], 0x0, .counter, false⟩,
  ⟨0x148, [(32, 0x1000)], [(31, 0, .ro)], 0x0, .counter, false⟩,
  ⟨0x14C, [(32, 0x1000)], [(31, 0, .ro)], 0x0, .counter, false⟩,
  ⟨0x150, [(32, 0x1000)], [(31, 0, .ro)], 0x0, .counter, false⟩,
  ⟨0x154, [(32, 0x1000)], [(31, 0, .ro)], 0x0, .counter, false⟩,
  ⟨0x158, [(32, 0x1000)], [(31, 0, .ro)], 0x0, .counter, false⟩,
  ⟨0x15C, [(32, 0x1000)], [(31, 0, .ro)], 0x0, .counter, false⟩,
  ⟨0x160, [(32, 0x1000)], [(31, 0, .ro)], 0x0, .counter, false⟩]

/-- Registers of block CHAN, part 2. -/
def regsCHAN1 : List RegDesc := [
  ⟨0x180, [(32, 0x1000)], [(31, 31, .ro), (30, 30, .ro), (29, 24, .ro), (23, 16, .ro), (11, 0, .ro)], 0x0, .status, false⟩,
  ⟨0x200, [(32, 0x1000), (16, 0x4)], [(31, 31, .w1c), (30, 26, .ro), (25, 0, .ro)], 0x0, .status, false⟩,
  ⟨0x300, [(32, 0x1000), (64, 0x4)], [(31, 31, .ro), (25, 0, .ro)], 0x0, .status, false⟩]

/-- Registers of block CHAN. -/
def regsCHAN : List RegDesc := regsCHAN0 ++ regsCHAN1

/-- Registers of block MARL, part 1. -/
def regsMARL0 : List RegDesc := [
  ⟨0x0, [], [(10, 8, .rwl), (3, 0, .rwl)], 0x104, .setting, false⟩,
  ⟨0x4, [], [(0, 0, .rwl)], 0x0, .setting, false⟩,
  ⟨0x8, [], [(22, 16, .ro), (3, 3, .ro), (2, 2, .ro), (1, 1, .ro), (0, 0, .ro)], 0x0, .status, false⟩,
  ⟨0x10, [], [(27, 16, .rwl), (15, 12, .rwl), (7, 0, .rwl)], 0x1002020, .setting, false⟩,
  ⟨0x14, [], [(15, 8, .rwl), (7, 0, .rwl)], 0x3219, .setting, false⟩,
  ⟨0x18, [], [(1, 1, .wo), (0, 0, .wo)], 0x0, .setting, false⟩,
  ⟨0x20, [(2, 0x4)], [(31, 0, .ro)], 0x0, .status, false⟩,
  ⟨0x30, [], [(31, 0, .ro)], 0x0, .view, false⟩,
  ⟨0x34, [], [(31, 0, .ro)], 0x0, .status, false⟩,
  ⟨0x38, [], [(31, 0, .ro)], 0x0, .view, false⟩,
  ⟨0x3C, [], [(31, 0, .ro)], 0x0, .counter, false⟩,
  ⟨0x40, [], [(31, 0, .ro)], 0x0, .counter, true⟩,
  ⟨0x44, [], [(31, 0, .ro)], 0x0, .counter, true⟩,
  ⟨0x48, [], [(31, 0, .ro)], 0x0, .counter, true⟩,
  ⟨0x4C, [], [(31, 0, .ro)], 0x0, .counter, true⟩,
  ⟨0x50, [], [(31, 0, .ro)], 0x0, .counter, true⟩,
  ⟨0x54, [], [(31, 0, .ro)], 0x0, .counter, true⟩,
  ⟨0x58, [], [(31, 0, .ro)], 0x0, .counter, true⟩,
  ⟨0x5C, [], [(31, 0, .ro)], 0x0, .counter, true⟩,
  ⟨0x60, [], [(31, 31, .ro), (30, 30, .ro), (29, 24, .ro), (23, 16, .ro), (11, 0, .ro)], 0x0, .status, false⟩,
  ⟨0x68, [], [(31, 0, .ro)], 0x0, .counter, false⟩,
  ⟨0x6C, [], [(31, 0, .ro)], 0x0, .counter, false⟩,
  ⟨0x70, [], [(31, 0, .ro)], 0x0, .counter, false⟩,
  ⟨0x74, [], [(31, 0, .ro)], 0x0, .counter, false⟩,
  ⟨0x78, [], [(31, 0, .ro)], 0x0, .counter, false⟩,
  ⟨0x7C, [], [(31, 0, .ro)], 0x0, .counter, false⟩,
  ⟨0x100, [(16, 0x4)], [(31, 0, .ro)], 0x0, .status, false⟩,
  ⟨0x200, [(8, 0x4)], [(31, 31, .w1c), (30, 26, .ro), (25, 0, .ro)], 0x0, .status, false⟩,
  ⟨0x280, [(32, 0x4)], [(31, 31, .ro), (25, 0, .ro)], 0x0, .status, false⟩,
  ⟨0x400, [(64, 0x4)], [(31, 31, .ro), (23, 16, .ro), (3, 2, .ro), (1, 0, .ro)], 0x0, .status, false⟩]

/-- Registers of block MARL, part 2. -/
def regsMARL1 : List RegDesc := [
  ⟨0xF0, [], [(31, 0, .ro)], 0x0, .counter, false⟩,
  ⟨0xF4, [], [(31, 0, .ro)], 0x0, .counter, false⟩,
  ⟨0xF8, [], [(31, 0, .ro)], 0x0, .counter, false⟩]

/-- Registers of block MARL. -/
def regsMARL : List RegDesc := regsMARL0 ++ regsMARL1

/-- Registers of block FOX. -/
def regsFOX : List RegDesc := [
  ⟨0x0, [(32, 0x400)], [(0, 0, .rwl)], 0x1, .setting, false⟩,
  ⟨0x4, [(32, 0x400)], [(31, 29, .ro), (23, 20, .ro), (13, 8, .ro), (0, 0, .ro)], 0x0, .status, false⟩,
  ⟨0x10, [(32, 0x400)], [(31, 0, .ro)], 0x0, .counter, false⟩,
  ⟨0x14, [(32, 0x400)], [(31, 0, .ro)], 0x0, .counter, false⟩,
  ⟨0x18, [(32, 0x400)], [(31, 0, .ro)], 0x0, .counter, false⟩,
  ⟨0x20, [(32, 0x400)], [(31, 0, .ro)], 0x0, .counter, true⟩,
  ⟨0x24, [(32, 0x400)], [(31, 0, .ro)], 0x0, .counter, true⟩,
  ⟨0x28, [(32, 0x400)], [(31, 0, .ro)], 0x0, .counter, false⟩,
  ⟨0x8000, [], [(2, 0, .rwl)], 0x1, .setting, false⟩,
  ⟨0x8004, [], [(31, 16, .ro), (11, 10, .ro), (9, 8, .ro), (1, 0, .ro)], 0x0, .view, false⟩,
  ⟨0x8008, [], [(15, 0, .ro)], 0x0, .life, false⟩,
  ⟨0x8010, [], [(19, 2, .rw)], 0x0, .setting, false⟩,
  ⟨0x8014, [], [(31, 0, .wo)], 0x0, .setting, false⟩,
  ⟨0x8018, [], [(0, 0, .w1s)], 0x0, .setting, false⟩,
  ⟨0x8020, [], [(31, 0, .ro)], 0x0, .counter, true⟩,
  ⟨0x8024, [], [(31, 0, .ro)], 0x0, .counter, true⟩,
  ⟨0x8028, [], [(31, 0, .ro)], 0x0, .counter, false⟩,
  ⟨0x802C, [], [(31, 0, .ro)], 0x0, .counter, false⟩,
  ⟨0x8040, [(12, 0x4)], [(31, 0, .ro)], 0x0, .status, false⟩,
  ⟨0x8070, [(12, 0x4)], [(31, 0, .ro)], 0x0, .status, false⟩,
  ⟨0x8100, [(64, 0x4)], [(13, 8, .rwl), (3, 0, .rwl)], 0x200F, .setting, false⟩,
  ⟨0x80F0, [], [(31, 0, .ro)], 0x0, .counter, false⟩,
  ⟨0x80F4, [], [(31, 0, .ro)], 0x0, .counter, false⟩,
  ⟨0x80F8, [], [(31, 0, .ro)], 0x0, .counter, false⟩]

/-- Registers of block VCP. -/
def regsVCP : List RegDesc := [
  ⟨0x0, [], [(9, 8, .ro), (1, 0, .rwl)], 0x303, .setting, false⟩,
  ⟨0x4, [], [(31, 31, .rwl), (23, 16, .rwl), (15, 8, .rwl), (7, 0, .rwl)], 0x3C1810, .setting, false⟩,
  ⟨0x8, [], [(28, 24, .rw), (20, 16, .rw), (15, 15, .rw), (8, 0, .rw)], 0x0, .setting, false⟩,
  ⟨0xC, [], [(31, 24, .ro), (23, 16, .ro), (15, 8, .ro), (7, 0, .ro)], 0x0, .view, false⟩,
  ⟨0x10, [], [(31, 0, .ro)], 0x0, .counter, false⟩,
  ⟨0x14, [], [(31, 0, .ro)], 0x0, .counter, false⟩,
  ⟨0x18, [], [(31, 0, .ro)], 0x0, .counter, false⟩,
  ⟨0x1C, [], [(31, 0, .ro)], 0x0, .counter, false⟩,
  ⟨0x40, [(16, 0x4)], [(31, 31, .ro), (30, 30, .ro), (29, 29, .ro), (28, 28, .ro), (23, 16, .ro), (15, 0, .ro)], 0x0, .status, false⟩,
  ⟨0xF0, [], [(31, 0, .ro)], 0x0, .counter, false⟩,
  ⟨0xF4, [], [(31, 0, .ro)], 0x0, .counter, false⟩,
  ⟨0xF8, [], [(31, 0, .ro)], 0x0, .counter, false⟩,
  ⟨0x100, [(32, 0x4)], [(31, 30, .ro), (29, 29, .ro), (28, 28, .ro), (27, 27, .ro), (23, 20, .ro), (19, 15, .ro), (14, 10, .ro), (9, 9, .ro), (8, 0, .ro)], 0x0, .status, false⟩,
  ⟨0x180, [(32, 0x4)], [(31, 24, .ro), (20, 16, .ro), (8, 0, .ro)], 0x0, .status, false⟩,
  ⟨0x1000, [(32, 0x40), (16, 0x4)], [(31, 30, .ro), (29, 29, .ro), (8, 0, .ro)], 0x0, .status, false⟩]

/-- Registers of block BST. -/
def regsBST : List RegDesc := [
  ⟨0x0, [], [(23, 16, .rwl), (11, 8, .rwl), (2, 2, .rwl), (1, 1, .rwl), (0, 0, .rwl)], 0xA0307, .setting, false⟩,
  ⟨0x4, [], [(31, 31, .ro), (24, 16, .ro), (8, 0, .ro)], 0x0, .status, false⟩,
  ⟨0x8, [], [(23, 16, .rwl), (5, 0, .rwl)], 0xF000C, .setting, false⟩,
  ⟨0x10, [], [(31, 31, .ro), (30, 28, .ro), (27, 27, .ro), (26, 26, .ro), (25, 25, .ro), (7, 0, .ro)], 0x0, .held, false⟩,
  ⟨0x20, [], [(31, 0, .ro)], 0x0, .counter, true⟩,
  ⟨0x24, [], [(31, 0, .ro)], 0x0, .counter, true⟩,
  ⟨0x28, [], [(31, 0, .ro)], 0x0, .counter, false⟩,
  ⟨0x2C, [], [(31, 0, .ro)], 0x0, .counter, false⟩,
  ⟨0x30, [], [(31, 0, .ro)], 0x0, .counter, false⟩,
  ⟨0x34, [], [(31, 0, .ro)], 0x0, .counter, false⟩,
  ⟨0x38, [], [(31, 0, .ro)], 0x0, .counter, false⟩,
  ⟨0x3C, [], [(31, 0, .ro)], 0x0, .counter, false⟩,
  ⟨0x40, [], [(31, 0, .ro)], 0x0, .counter, false⟩,
  ⟨0x44, [], [(31, 0, .ro)], 0x0, .life, false⟩,
  ⟨0x400, [], [(20, 16, .rwl), (13, 8, .rwl), (0, 0, .rwl)], 0x180101, .setting, false⟩,
  ⟨0x404, [], [(31, 0, .rwl)], 0x0, .setting, false⟩,
  ⟨0x408, [], [(31, 16, .ro), (15, 0, .ro)], 0x0, .counter, false⟩,
  ⟨0x410, [], [(31, 0, .ro)], 0x0, .counter, false⟩,
  ⟨0x414, [], [(31, 0, .ro)], 0x0, .counter, false⟩,
  ⟨0x800, [(256, 0x4)], [(31, 31, .ro), (30, 30, .ro), (29, 28, .ro), (23, 16, .ro), (5, 0, .ro)], 0x0, .status, false⟩,
  ⟨0xF0, [], [(31, 0, .ro)], 0x0, .counter, false⟩,
  ⟨0xF4, [], [(31, 0, .ro)], 0x0, .counter, false⟩,
  ⟨0xF8, [], [(31, 0, .ro)], 0x0, .counter, false⟩]

/-- Registers of block CVU. -/
def regsCVU : List RegDesc := [
  ⟨0x0, [(16, 0x4)], [(31, 31, .ro), (30, 30, .ro), (12, 8, .ro), (1, 0, .ro)], 0x0, .view, false⟩,
  ⟨0xF0, [], [(31, 0, .ro)], 0x0, .counter, false⟩,
  ⟨0xF4, [], [(31, 0, .ro)], 0x0, .counter, false⟩,
  ⟨0xF8, [], [(31, 0, .ro)], 0x0, .counter, false⟩,
  ⟨0x100, [(16, 0x8)], [(31, 0, .ro)], 0x0, .view, true⟩,
  ⟨0x104, [(16, 0x8)], [(31, 0, .ro)], 0x0, .view, true⟩,
  ⟨0x200, [(4, 0x4)], [(31, 0, .rwl)], 0x0, .setting, false⟩,
  ⟨0x210, [], [(1, 1, .wo), (0, 0, .wo)], 0x0, .setting, false⟩,
  ⟨0x214, [], [(31, 0, .wo)], 0x0, .setting, false⟩,
  ⟨0x218, [], [(7, 0, .wo)], 0x0, .setting, false⟩,
  ⟨0x800, [], [(0, 0, .rwl)], 0x0, .setting, false⟩,
  ⟨0x804, [], [(31, 31, .ro), (30, 30, .ro), (29, 29, .ro)], 0x20000000, .status, false⟩,
  ⟨0x808, [], [(31, 0, .ro)], 0x0, .life, false⟩,
  ⟨0x80C, [], [(31, 0, .ro)], 0x0, .status, false⟩,
  ⟨0x810, [], [(31, 0, .ro)], 0x0, .view, false⟩,
  ⟨0x814, [], [(31, 0, .ro)], 0x0, .view, false⟩,
  ⟨0x818, [], [(31, 0, .ro)], 0x0, .counter, true⟩,
  ⟨0x81C, [], [(31, 0, .ro)], 0x0, .counter, true⟩,
  ⟨0x820, [], [(31, 0, .ro)], 0x0, .counter, false⟩,
  ⟨0x824, [], [(31, 0, .ro)], 0x0, .counter, false⟩]

/-- Registers of block TEL. -/
def regsTEL : List RegDesc := [
  ⟨0x0, [], [(15, 0, .rwl)], 0xA, .setting, false⟩,
  ⟨0x10, [(2, 0x4)], [(31, 31, .rwl), (17, 0, .rwl)], 0x0, .setting, false⟩,
  ⟨0x20, [], [(31, 0, .ro)], 0x0, .counter, false⟩,
  ⟨0x28, [], [(31, 0, .ro)], 0x0, .counter, true⟩,
  ⟨0x2C, [], [(31, 0, .ro)], 0x0, .counter, true⟩,
  ⟨0x30, [], [(31, 0, .ro)], 0x0, .counter, false⟩,
  ⟨0x38, [], [(31, 0, .ro)], 0x0, .life, true⟩,
  ⟨0x3C, [], [(31, 0, .ro)], 0x0, .life, true⟩,
  ⟨0xF0, [], [(31, 0, .ro)], 0x0, .counter, false⟩,
  ⟨0xF4, [], [(31, 0, .ro)], 0x0, .counter, false⟩,
  ⟨0xF8, [], [(31, 0, .ro)], 0x0, .counter, false⟩]

/-- The registers of a block. -/
def blkRegs : Blk → List RegDesc
  | .glb => regsGLB
  | .clk => regsCLK
  | .rst => regsRST
  | .otp => regsOTP
  | .thm => regsTHM
  | .flt => regsFLT
  | .recorder => regsREC
  | .qos => regsQOS
  | .ring => regsRING
  | .rt => regsRT
  | .port => regsPORT
  | .lane => regsLANE
  | .chan => regsCHAN
  | .marl => regsMARL
  | .fox => regsFOX
  | .vcp => regsVCP
  | .bst => regsBST
  | .cvu => regsCVU
  | .tel => regsTEL

/-! ### Names of block GLB -/

def GLB_VARIANT : Fld := ⟨0x000000, 31, 0⟩
def GLB_STEPPING : Fld := ⟨0x000004, 31, 0⟩
def GLB_UID_LO : Fld := ⟨0x000008, 31, 0⟩
def GLB_UID_HI : Fld := ⟨0x00000C, 31, 0⟩
def GLB_DID : Fld := ⟨0x000010, 31, 0⟩
def GLB_DID_STRAP_DID : Fld := ⟨0x000010, 27, 16⟩
def GLB_DID_DID : Fld := ⟨0x000010, 11, 0⟩
def GLB_LOCK : Fld := ⟨0x000014, 31, 0⟩
def GLB_LOCK_LOCK : Fld := ⟨0x000014, 0, 0⟩
def GLB_START_STATUS : Fld := ⟨0x000020, 31, 0⟩
def GLB_START_STATUS_START_MS : Fld := ⟨0x000020, 31, 16⟩
def GLB_START_STATUS_FW_DEGRADED : Fld := ⟨0x000020, 12, 12⟩
def GLB_START_STATUS_FW_SLOT : Fld := ⟨0x000020, 11, 10⟩
def GLB_START_STATUS_MARL_RETAINED : Fld := ⟨0x000020, 9, 9⟩
def GLB_START_STATUS_COLD_HELD : Fld := ⟨0x000020, 8, 8⟩
def GLB_START_STATUS_PHASE : Fld := ⟨0x000020, 3, 0⟩
def GLB_START_CTL : Fld := ⟨0x000024, 31, 0⟩
def GLB_START_CTL_GO : Fld := ⟨0x000024, 0, 0⟩
def GLB_PWR_CFG : Fld := ⟨0x000030, 31, 0⟩
def GLB_PWR_CFG_BYP_S3 : Fld := ⟨0x000030, 31, 16⟩
def GLB_PWR_CFG_BYP_S2 : Fld := ⟨0x000030, 15, 0⟩
def GLB_PWR_CTL : Fld := ⟨0x000034, 31, 0⟩
def GLB_PWR_CTL_IDLE_US : Fld := ⟨0x000034, 31, 16⟩
def GLB_PWR_CTL_WAKE : Fld := ⟨0x000034, 8, 8⟩
def GLB_PWR_CTL_REQ_STATE : Fld := ⟨0x000034, 1, 0⟩
def GLB_PWR_STATUS : Fld := ⟨0x000038, 31, 0⟩
def GLB_PWR_STATUS_WAKE_COUNT : Fld := ⟨0x000038, 31, 16⟩
def GLB_PWR_STATUS_WAKE_CAUSE : Fld := ⟨0x000038, 11, 8⟩
def GLB_PWR_STATUS_TARGET : Fld := ⟨0x000038, 3, 2⟩
def GLB_PWR_STATUS_STATE : Fld := ⟨0x000038, 1, 0⟩
def GLB_MEM_CFG : Fld := ⟨0x000040, 31, 0⟩
def GLB_MEM_CFG_PARITY : Fld := ⟨0x000040, 8, 8⟩
def GLB_MEM_CFG_HASH : Fld := ⟨0x000040, 4, 4⟩
def GLB_MEM_CFG_GRAIN : Fld := ⟨0x000040, 2, 0⟩
def GLB_MEM_STATUS : Fld := ⟨0x000044, 31, 0⟩
def GLB_MEM_STATUS_USABLE_GIB : Fld := ⟨0x000044, 31, 24⟩
def GLB_MEM_STATUS_DATA_CHANNELS : Fld := ⟨0x000044, 13, 8⟩
def GLB_MEM_STATUS_GROUP_STATE : Fld := ⟨0x000044, 7, 0⟩
def GLB_CNT_VIOL_MALFORMED : Fld := ⟨0x0000E0, 31, 0⟩
def GLB_CNT_VIOL_RANGE : Fld := ⟨0x0000E4, 31, 0⟩
def GLB_RSP_UNEXPECTED : Fld := ⟨0x0000E8, 31, 0⟩
def GLB_CNT_VIOL_STATE : Fld := ⟨0x0000F0, 31, 0⟩
def GLB_CNT_VIOL_ACCESS : Fld := ⟨0x0000F4, 31, 0⟩
def GLB_CNT_VIOL_RSVD : Fld := ⟨0x0000F8, 31, 0⟩
/-! ### Names of block CLK -/

def CLK_SRC_STATUS : Fld := ⟨0x001000, 31, 0⟩
def CLK_SRC_STATUS_FRC_TRIM_STEPS : Fld := ⟨0x001000, 19, 16⟩
def CLK_SRC_STATUS_SLOW_OK : Fld := ⟨0x001000, 12, 12⟩
def CLK_SRC_STATUS_FRC_FAILED : Fld := ⟨0x001000, 11, 11⟩
def CLK_SRC_STATUS_FRC_OK : Fld := ⟨0x001000, 10, 10⟩
def CLK_SRC_STATUS_MGT_SRC : Fld := ⟨0x001000, 9, 8⟩
def CLK_SRC_STATUS_ACTIVE_REF : Fld := ⟨0x001000, 7, 6⟩
def CLK_SRC_STATUS_REFB_MODE : Fld := ⟨0x001000, 5, 4⟩
def CLK_SRC_STATUS_REFA_MODE : Fld := ⟨0x001000, 3, 2⟩
def CLK_SRC_STATUS_REFB_OK : Fld := ⟨0x001000, 1, 1⟩
def CLK_SRC_STATUS_REFA_OK : Fld := ⟨0x001000, 0, 0⟩
def CLK_PLL_STATUS : Fld := ⟨0x001004, 31, 0⟩
def CLK_PLL_STATUS_STO_LOCK : Fld := ⟨0x001004, 28, 28⟩
def CLK_PLL_STATUS_LYR_LOCK : Fld := ⟨0x001004, 27, 12⟩
def CLK_PLL_STATUS_LPLL_LOCK : Fld := ⟨0x001004, 11, 4⟩
def CLK_PLL_STATUS_FOX_LOCK : Fld := ⟨0x001004, 3, 3⟩
def CLK_PLL_STATUS_CHN_LOCK : Fld := ⟨0x001004, 2, 2⟩
def CLK_PLL_STATUS_FAB_LOCK : Fld := ⟨0x001004, 1, 1⟩
def CLK_PLL_STATUS_MGT_LOCK : Fld := ⟨0x001004, 0, 0⟩
def CLK_REF_CFG : Fld := ⟨0x001008, 31, 0⟩
def CLK_REF_CFG_HOLDOVER : Fld := ⟨0x001008, 5, 4⟩
def CLK_REF_CFG_REFB_EN : Fld := ⟨0x001008, 3, 3⟩
def CLK_REF_CFG_REFA_EN : Fld := ⟨0x001008, 2, 2⟩
def CLK_REF_CFG_REF_PREF : Fld := ⟨0x001008, 1, 0⟩
def CLK_MON_STATUS : Fld := ⟨0x00100C, 31, 0⟩
def CLK_MON_STATUS_FORCED_SAFE : Fld := ⟨0x00100C, 11, 11⟩
def CLK_MON_STATUS_LYR_UNLOCK : Fld := ⟨0x00100C, 10, 10⟩
def CLK_MON_STATUS_LPLL_UNLOCK : Fld := ⟨0x00100C, 9, 9⟩
def CLK_MON_STATUS_FOX_UNLOCK : Fld := ⟨0x00100C, 8, 8⟩
def CLK_MON_STATUS_CORE_UNLOCK : Fld := ⟨0x00100C, 7, 7⟩
def CLK_MON_STATUS_ALL_REF_LOST : Fld := ⟨0x00100C, 6, 6⟩
def CLK_MON_STATUS_REFB_LOST : Fld := ⟨0x00100C, 5, 5⟩
def CLK_MON_STATUS_REFA_LOST : Fld := ⟨0x00100C, 4, 4⟩
def CLK_MON_STATUS_FRC_FAIL : Fld := ⟨0x00100C, 1, 1⟩
def CLK_MON_STATUS_SLOW_FAIL : Fld := ⟨0x00100C, 0, 0⟩
def CLK_SWITCH_FORCED : Fld := ⟨0x001010, 31, 0⟩
def CLK_REF_SWITCHES : Fld := ⟨0x001014, 31, 0⟩
def CLK_GATE_RUN_CHN : Fld := ⟨0x001040, 31, 0⟩
def CLK_GATE_RUN_CHN_CHN : Fld := ⟨0x001040, 31, 0⟩
def CLK_GATE_RUN_PORT : Fld := ⟨0x001044, 31, 0⟩
def CLK_GATE_RUN_PORT_PORT : Fld := ⟨0x001044, 31, 0⟩
def CLK_GATE_RUN_LYR : Fld := ⟨0x001048, 31, 0⟩
def CLK_GATE_RUN_LYR_LYR : Fld := ⟨0x001048, 15, 0⟩
def CLK_GATE_RUN_MISC : Fld := ⟨0x00104C, 31, 0⟩
def CLK_GATE_RUN_MISC_FOX : Fld := ⟨0x00104C, 6, 3⟩
def CLK_GATE_RUN_MISC_STO : Fld := ⟨0x00104C, 2, 2⟩
def CLK_GATE_RUN_MISC_FAB : Fld := ⟨0x00104C, 1, 1⟩
def CLK_GATE_RUN_MISC_MGT : Fld := ⟨0x00104C, 0, 0⟩
def CLK_GATE_SLEEP_CHN : Fld := ⟨0x001050, 31, 0⟩
def CLK_GATE_SLEEP_CHN_CHN : Fld := ⟨0x001050, 31, 0⟩
def CLK_GATE_SLEEP_PORT : Fld := ⟨0x001054, 31, 0⟩
def CLK_GATE_SLEEP_PORT_PORT : Fld := ⟨0x001054, 31, 0⟩
def CLK_GATE_SLEEP_LYR : Fld := ⟨0x001058, 31, 0⟩
def CLK_GATE_SLEEP_LYR_LYR : Fld := ⟨0x001058, 15, 0⟩
def CLK_GATE_SLEEP_MISC : Fld := ⟨0x00105C, 31, 0⟩
def CLK_GATE_SLEEP_MISC_FOX : Fld := ⟨0x00105C, 6, 3⟩
def CLK_GATE_SLEEP_MISC_STO : Fld := ⟨0x00105C, 2, 2⟩
def CLK_GATE_SLEEP_MISC_FAB : Fld := ⟨0x00105C, 1, 1⟩
def CLK_GATE_SLEEP_MISC_MGT : Fld := ⟨0x00105C, 0, 0⟩
def CLK_GATE_DEEP_CHN : Fld := ⟨0x001060, 31, 0⟩
def CLK_GATE_DEEP_CHN_CHN : Fld := ⟨0x001060, 31, 0⟩
def CLK_GATE_DEEP_PORT : Fld := ⟨0x001064, 31, 0⟩
def CLK_GATE_DEEP_PORT_PORT : Fld := ⟨0x001064, 31, 0⟩
def CLK_GATE_DEEP_LYR : Fld := ⟨0x001068, 31, 0⟩
def CLK_GATE_DEEP_LYR_LYR : Fld := ⟨0x001068, 15, 0⟩
def CLK_GATE_DEEP_MISC : Fld := ⟨0x00106C, 31, 0⟩
def CLK_GATE_DEEP_MISC_FOX : Fld := ⟨0x00106C, 6, 3⟩
def CLK_GATE_DEEP_MISC_STO : Fld := ⟨0x00106C, 2, 2⟩
def CLK_GATE_DEEP_MISC_FAB : Fld := ⟨0x00106C, 1, 1⟩
def CLK_GATE_DEEP_MISC_MGT : Fld := ⟨0x00106C, 0, 0⟩
def CLK_CNT_VIOL_STATE : Fld := ⟨0x0010F0, 31, 0⟩
def CLK_CNT_VIOL_ACCESS : Fld := ⟨0x0010F4, 31, 0⟩
def CLK_CNT_VIOL_RSVD : Fld := ⟨0x0010F8, 31, 0⟩
/-! ### Names of block RST -/

def RST_CAUSE : Fld := ⟨0x002000, 31, 0⟩
def RST_CAUSE_WARM_COUNT : Fld := ⟨0x002000, 31, 16⟩
def RST_CAUSE_LAST_PHASE : Fld := ⟨0x002000, 11, 8⟩
def RST_CAUSE_VCORE_LOST : Fld := ⟨0x002000, 2, 2⟩
def RST_CAUSE_PERST : Fld := ⟨0x002000, 1, 1⟩
def RST_CAUSE_POR : Fld := ⟨0x002000, 0, 0⟩
def RST_UNIT_CMD : Fld := ⟨0x002010, 31, 0⟩
def RST_UNIT_CMD_KIND : Fld := ⟨0x002010, 31, 28⟩
def RST_UNIT_CMD_INDEX : Fld := ⟨0x002010, 4, 0⟩
def RST_UNIT_STATUS : Fld := ⟨0x002014, 31, 0⟩
def RST_UNIT_STATUS_BUSY : Fld := ⟨0x002014, 31, 31⟩
def RST_UNIT_STATUS_KIND : Fld := ⟨0x002014, 23, 20⟩
def RST_UNIT_STATUS_INDEX : Fld := ⟨0x002014, 12, 8⟩
def RST_UNIT_STATUS_RESULT : Fld := ⟨0x002014, 7, 0⟩
def RST_CNT_VIOL_STATE : Fld := ⟨0x0020F0, 31, 0⟩
def RST_CNT_VIOL_ACCESS : Fld := ⟨0x0020F4, 31, 0⟩
def RST_CNT_VIOL_RSVD : Fld := ⟨0x0020F8, 31, 0⟩
/-! ### Names of block OTP -/

def OTP_CMD : Fld := ⟨0x003000, 31, 0⟩
def OTP_CMD_OP : Fld := ⟨0x003000, 31, 28⟩
def OTP_CMD_REGION : Fld := ⟨0x003000, 27, 24⟩
def OTP_CMD_MARGIN : Fld := ⟨0x003000, 23, 22⟩
def OTP_CMD_BIT : Fld := ⟨0x003000, 21, 15⟩
def OTP_CMD_ROW : Fld := ⟨0x003000, 8, 0⟩
def OTP_STATUS : Fld := ⟨0x003004, 31, 0⟩
def OTP_STATUS_BUSY : Fld := ⟨0x003004, 31, 31⟩
def OTP_STATUS_WINDOW : Fld := ⟨0x003004, 30, 30⟩
def OTP_STATUS_LAST_OP : Fld := ⟨0x003004, 23, 20⟩
def OTP_STATUS_SPARES_USED : Fld := ⟨0x003004, 12, 8⟩
def OTP_STATUS_RESULT : Fld := ⟨0x003004, 7, 0⟩
def OTP_DATA (i : Nat) : Fld := ⟨0x003010 + 0x4 * i, 31, 0⟩
def OTP_REGION_STATUS : Fld := ⟨0x003020, 31, 0⟩
def OTP_MARGINAL_WORDS : Fld := ⟨0x003030, 31, 0⟩
def OTP_CRIT_DISAGREE : Fld := ⟨0x003034, 31, 0⟩
def OTP_CUST (i : Nat) : Fld := ⟨0x003100 + 0x4 * i, 31, 0⟩
def OTP_CNT_VIOL_STATE : Fld := ⟨0x0030F0, 31, 0⟩
def OTP_CNT_VIOL_ACCESS : Fld := ⟨0x0030F4, 31, 0⟩
def OTP_CNT_VIOL_RSVD : Fld := ⟨0x0030F8, 31, 0⟩
/-! ### Names of block THM -/

def THM_LIMITS : Fld := ⟨0x004000, 31, 0⟩
def THM_LIMITS_TRIP : Fld := ⟨0x004000, 31, 24⟩
def THM_LIMITS_CRIT : Fld := ⟨0x004000, 23, 16⟩
def THM_LIMITS_START_BASE : Fld := ⟨0x004000, 15, 8⟩
def THM_LIMITS_START_DRAM : Fld := ⟨0x004000, 7, 0⟩
def THM_LOW : Fld := ⟨0x004004, 31, 0⟩
def THM_LOW_LOW_WARN : Fld := ⟨0x004004, 15, 8⟩
def THM_LOW_LOW_STOP : Fld := ⟨0x004004, 7, 0⟩
def THM_THROTTLE_CFG : Fld := ⟨0x004008, 31, 0⟩
def THM_THROTTLE_CFG_NEIGH_MARGIN : Fld := ⟨0x004008, 23, 16⟩
def THM_THROTTLE_CFG_FLOOR : Fld := ⟨0x004008, 15, 8⟩
def THM_THROTTLE_CFG_GAIN : Fld := ⟨0x004008, 7, 0⟩
def THM_STATUS : Fld := ⟨0x004010, 31, 0⟩
def THM_STATUS_TRIPPED : Fld := ⟨0x004010, 31, 31⟩
def THM_STATUS_CRIT_ANY : Fld := ⟨0x004010, 30, 30⟩
def THM_STATUS_THROTTLING_ANY : Fld := ⟨0x004010, 29, 29⟩
def THM_STATUS_LOW_WARN_ANY : Fld := ⟨0x004010, 28, 28⟩
def THM_STATUS_BROKEN_COUNT : Fld := ⟨0x004010, 23, 16⟩
def THM_STATUS_HOTTEST : Fld := ⟨0x004010, 15, 8⟩
def THM_STATUS_HOTTEST_C : Fld := ⟨0x004010, 7, 0⟩
def THM_THROTTLE_MS_LO : Fld := ⟨0x004020, 31, 0⟩
def THM_THROTTLE_MS_HI : Fld := ⟨0x004024, 31, 0⟩
def THM_CRIT_EVENTS : Fld := ⟨0x004028, 31, 0⟩
def THM_BROKEN : Fld := ⟨0x00402C, 31, 0⟩
def THM_SENSOR (i : Nat) : Fld := ⟨0x004100 + 0x4 * i, 31, 0⟩
def THM_SENSOR_STATE (i : Nat) : Fld := ⟨0x004100 + 0x4 * i, 31, 30⟩
def THM_SENSOR_MAX_C (i : Nat) : Fld := ⟨0x004100 + 0x4 * i, 23, 16⟩
def THM_SENSOR_READING (i : Nat) : Fld := ⟨0x004100 + 0x4 * i, 11, 0⟩
def THM_LAYER (i : Nat) : Fld := ⟨0x004300 + 0x4 * i, 31, 0⟩
def THM_LAYER_HOT_C (i : Nat) : Fld := ⟨0x004300 + 0x4 * i, 31, 24⟩
def THM_LAYER_FRACTION (i : Nat) : Fld := ⟨0x004300 + 0x4 * i, 23, 16⟩
def THM_LAYER_HOT_SENSOR (i : Nat) : Fld := ⟨0x004300 + 0x4 * i, 15, 8⟩
def THM_LAYER_CRIT (i : Nat) : Fld := ⟨0x004300 + 0x4 * i, 1, 1⟩
def THM_LAYER_THROTTLING (i : Nat) : Fld := ⟨0x004300 + 0x4 * i, 0, 0⟩
def THM_CNT_VIOL_STATE : Fld := ⟨0x0040F0, 31, 0⟩
def THM_CNT_VIOL_ACCESS : Fld := ⟨0x0040F4, 31, 0⟩
def THM_CNT_VIOL_RSVD : Fld := ⟨0x0040F8, 31, 0⟩
/-! ### Names of block FLT -/

def FLT_CFG : Fld := ⟨0x005000, 31, 0⟩
def FLT_CFG_D_TIME : Fld := ⟨0x005000, 23, 16⟩
def FLT_CFG_C_TIME : Fld := ⟨0x005000, 15, 8⟩
def FLT_CFG_INJ_EN : Fld := ⟨0x005000, 0, 0⟩
def FLT_SUMMARY : Fld := ⟨0x005004, 31, 0⟩
def FLT_SUMMARY_GRAVE : Fld := ⟨0x005004, 31, 31⟩
def FLT_SUMMARY_ALERT : Fld := ⟨0x005004, 30, 30⟩
def FLT_SUMMARY_OPEN_COUNT : Fld := ⟨0x005004, 23, 16⟩
def FLT_SUMMARY_WORST_DOMAIN : Fld := ⟨0x005004, 15, 8⟩
def FLT_SUMMARY_WORST_CLASS : Fld := ⟨0x005004, 1, 0⟩
def FLT_ACK : Fld := ⟨0x005008, 31, 0⟩
def FLT_ACK_MODE : Fld := ⟨0x005008, 17, 16⟩
def FLT_ACK_SEQ : Fld := ⟨0x005008, 15, 8⟩
def FLT_ACK_DOMAIN : Fld := ⟨0x005008, 7, 0⟩
def FLT_ACK_STATUS : Fld := ⟨0x00500C, 31, 0⟩
def FLT_ACK_STATUS_VALID : Fld := ⟨0x00500C, 31, 31⟩
def FLT_ACK_STATUS_RESULT_SEQ : Fld := ⟨0x00500C, 23, 16⟩
def FLT_ACK_STATUS_RESULT : Fld := ⟨0x00500C, 7, 0⟩
def FLT_OPEN (i : Nat) : Fld := ⟨0x005010 + 0x4 * i, 31, 0⟩
def FLT_ALARM_DST (i : Nat) : Fld := ⟨0x005034 + 0x4 * i, 31, 0⟩
def FLT_ALARM_DST_EN (i : Nat) : Fld := ⟨0x005034 + 0x4 * i, 31, 31⟩
def FLT_ALARM_DST_EID (i : Nat) : Fld := ⟨0x005034 + 0x4 * i, 17, 0⟩
def FLT_INJ : Fld := ⟨0x005040, 31, 0⟩
def FLT_INJ_CHECKER : Fld := ⟨0x005040, 31, 28⟩
def FLT_INJ_UE : Fld := ⟨0x005040, 27, 27⟩
def FLT_INJ_COUNT : Fld := ⟨0x005040, 23, 16⟩
def FLT_INJ_UNIT : Fld := ⟨0x005040, 5, 0⟩
def FLT_INJ_STATUS : Fld := ⟨0x005044, 31, 0⟩
def FLT_INJ_STATUS_ARMED : Fld := ⟨0x005044, 31, 31⟩
def FLT_INJ_STATUS_REMAINING : Fld := ⟨0x005044, 23, 16⟩
def FLT_INJ_STATUS_RESULT : Fld := ⟨0x005044, 7, 0⟩
def FLT_RAISED_LO : Fld := ⟨0x005050, 31, 0⟩
def FLT_RAISED_HI : Fld := ⟨0x005054, 31, 0⟩
def FLT_MERGED : Fld := ⟨0x005058, 31, 0⟩
def FLT_ESCALATED : Fld := ⟨0x00505C, 31, 0⟩
def FLT_ALARMS_SENT : Fld := ⟨0x005060, 31, 0⟩
def FLT_ALARMS_FOLDED : Fld := ⟨0x005064, 31, 0⟩
def FLT_INJECTED : Fld := ⟨0x005068, 31, 0⟩
def FLT_REC (i j : Nat) : Fld := ⟨0x005400 + 0x10 * i + 0x4 * j, 31, 0⟩
def FLT_CNT_VIOL_STATE : Fld := ⟨0x0050F0, 31, 0⟩
def FLT_CNT_VIOL_ACCESS : Fld := ⟨0x0050F4, 31, 0⟩
def FLT_CNT_VIOL_RSVD : Fld := ⟨0x0050F8, 31, 0⟩
/-! ### Names of block REC -/

def REC_CTL : Fld := ⟨0x006000, 31, 0⟩
def REC_CTL_THAW : Fld := ⟨0x006000, 1, 1⟩
def REC_CTL_FREEZE : Fld := ⟨0x006000, 0, 0⟩
def REC_STATUS : Fld := ⟨0x006004, 31, 0⟩
def REC_STATUS_FROZEN : Fld := ⟨0x006004, 31, 31⟩
def REC_STATUS_HOLD_BYTES : Fld := ⟨0x006004, 28, 16⟩
def REC_STATUS_STAGE_BYTES : Fld := ⟨0x006004, 14, 0⟩
def REC_NEWEST : Fld := ⟨0x006008, 31, 0⟩
def REC_OLDEST : Fld := ⟨0x00600C, 31, 0⟩
def REC_OP_SECONDS_LO : Fld := ⟨0x006010, 31, 0⟩
def REC_OP_SECONDS_HI : Fld := ⟨0x006014, 31, 0⟩
def REC_PWR_CYCLES : Fld := ⟨0x006018, 31, 0⟩
def REC_LOST (i : Nat) : Fld := ⟨0x006020 + 0x4 * i, 31, 0⟩
def REC_OVERWRITTEN (i : Nat) : Fld := ⟨0x006030 + 0x4 * i, 31, 0⟩
def REC_FOLDS : Fld := ⟨0x006040, 31, 0⟩
def REC_SETT_ADDR : Fld := ⟨0x006080, 31, 0⟩
def REC_SETT_ADDR_WINDOW : Fld := ⟨0x006080, 21, 6⟩
def REC_SETT_DATA (i : Nat) : Fld := ⟨0x006100 + 0x4 * i, 31, 0⟩
def REC_CNT_VIOL_STATE : Fld := ⟨0x0060F0, 31, 0⟩
def REC_CNT_VIOL_ACCESS : Fld := ⟨0x0060F4, 31, 0⟩
def REC_CNT_VIOL_RSVD : Fld := ⟨0x0060F8, 31, 0⟩
/-! ### Names of block QOS -/

def QOS_COMMIT : Fld := ⟨0x007000, 31, 0⟩
def QOS_COMMIT_GO : Fld := ⟨0x007000, 0, 0⟩
def QOS_COMMIT_STATUS : Fld := ⟨0x007004, 31, 0⟩
def QOS_COMMIT_STATUS_VALID : Fld := ⟨0x007004, 31, 31⟩
def QOS_COMMIT_STATUS_RESULT_SEQ : Fld := ⟨0x007004, 23, 16⟩
def QOS_COMMIT_STATUS_RESULT : Fld := ⟨0x007004, 7, 0⟩
def QOS_STATUS : Fld := ⟨0x007008, 31, 0⟩
def QOS_STATUS_SCALED : Fld := ⟨0x007008, 31, 31⟩
def QOS_STATUS_FACTOR : Fld := ⟨0x007008, 15, 0⟩
def QOS_DELIV : Fld := ⟨0x00700C, 31, 0⟩
def QOS_CFG : Fld := ⟨0x007010, 31, 0⟩
def QOS_CFG_RATE_WIN : Fld := ⟨0x007010, 23, 16⟩
def QOS_CFG_SAND_MAX : Fld := ⟨0x007010, 7, 0⟩
def QOS_COMMITTED : Fld := ⟨0x007014, 31, 0⟩
def QOS_SCALE_EVENTS : Fld := ⟨0x007018, 31, 0⟩
def QOS_CNT_VIOL_RATE : Fld := ⟨0x0070EC, 31, 0⟩
def QOS_LABEL_MAP (i : Nat) : Fld := ⟨0x007100 + 0x4 * i, 31, 0⟩
def QOS_LABEL_ACT (i : Nat) : Fld := ⟨0x007200 + 0x4 * i, 31, 0⟩
def QOS_GROUP (i : Nat) : Fld := ⟨0x007400 + 0x4 * i, 31, 0⟩
def QOS_GROUP_RATE (i : Nat) : Fld := ⟨0x007400 + 0x4 * i, 15, 0⟩
def QOS_GROUP_ACT (i : Nat) : Fld := ⟨0x007500 + 0x4 * i, 31, 0⟩
def QOS_RES (i : Nat) : Fld := ⟨0x007600 + 0x4 * i, 31, 0⟩
def QOS_BYTES_LO (i : Nat) : Fld := ⟨0x007800 + 0x8 * i, 31, 0⟩
def QOS_BYTES_HI (i : Nat) : Fld := ⟨0x007804 + 0x8 * i, 31, 0⟩
def QOS_BG_BYTES_LO : Fld := ⟨0x007840, 31, 0⟩
def QOS_BG_BYTES_HI : Fld := ⟨0x007844, 31, 0⟩
def QOS_GRP_BYTES_LO (i : Nat) : Fld := ⟨0x007A00 + 0x8 * i, 31, 0⟩
def QOS_GRP_BYTES_HI (i : Nat) : Fld := ⟨0x007A04 + 0x8 * i, 31, 0⟩
def QOS_CNT_VIOL_STATE : Fld := ⟨0x0070F0, 31, 0⟩
def QOS_CNT_VIOL_ACCESS : Fld := ⟨0x0070F4, 31, 0⟩
def QOS_CNT_VIOL_RSVD : Fld := ⟨0x0070F8, 31, 0⟩
/-! ### Names of block RING -/

def RING_ACTIVE (i : Nat) : Fld := ⟨0x008000 + 0x4 * i, 31, 0⟩
def RING_HALTED (i : Nat) : Fld := ⟨0x008008 + 0x4 * i, 31, 0⟩
def RING_CNT_VIOL_STATE : Fld := ⟨0x0080F0, 31, 0⟩
def RING_CNT_VIOL_ACCESS : Fld := ⟨0x0080F4, 31, 0⟩
def RING_CNT_VIOL_RSVD : Fld := ⟨0x0080F8, 31, 0⟩
def RING_SQ_LO (i : Nat) : Fld := ⟨0x009000 + 0x40 * i, 31, 0⟩
def RING_SQ_HI (i : Nat) : Fld := ⟨0x009004 + 0x40 * i, 31, 0⟩
def RING_CQ_LO (i : Nat) : Fld := ⟨0x009008 + 0x40 * i, 31, 0⟩
def RING_CQ_HI (i : Nat) : Fld := ⟨0x00900C + 0x40 * i, 31, 0⟩
def RING_RCB_LO (i : Nat) : Fld := ⟨0x009010 + 0x40 * i, 31, 0⟩
def RING_RCB_HI (i : Nat) : Fld := ⟨0x009014 + 0x40 * i, 31, 0⟩
def RING_EID (i : Nat) : Fld := ⟨0x009018 + 0x40 * i, 31, 0⟩
def RING_CQ_EID (i : Nat) : Fld := ⟨0x00901C + 0x40 * i, 31, 0⟩
def RING_CFG (i : Nat) : Fld := ⟨0x009020 + 0x40 * i, 31, 0⟩
def RING_CFG_LABEL (i : Nat) : Fld := ⟨0x009020 + 0x40 * i, 31, 24⟩
def RING_CFG_POLL_US (i : Nat) : Fld := ⟨0x009020 + 0x40 * i, 23, 17⟩
def RING_CFG_DB_MODE (i : Nat) : Fld := ⟨0x009020 + 0x40 * i, 16, 16⟩
def RING_CFG_CQ_SIZE (i : Nat) : Fld := ⟨0x009020 + 0x40 * i, 12, 8⟩
def RING_CFG_SQ_SIZE (i : Nat) : Fld := ⟨0x009020 + 0x40 * i, 4, 0⟩
def RING_CTL (i : Nat) : Fld := ⟨0x009024 + 0x40 * i, 31, 0⟩
def RING_CTL_RESUME (i : Nat) : Fld := ⟨0x009024 + 0x40 * i, 2, 2⟩
def RING_CTL_RESET (i : Nat) : Fld := ⟨0x009024 + 0x40 * i, 1, 1⟩
def RING_CTL_ENABLE (i : Nat) : Fld := ⟨0x009024 + 0x40 * i, 0, 0⟩
def RING_STATUS (i : Nat) : Fld := ⟨0x009028 + 0x40 * i, 31, 0⟩
def RING_STATUS_STATE (i : Nat) : Fld := ⟨0x009028 + 0x40 * i, 31, 30⟩
def RING_STATUS_HALT_CAUSE (i : Nat) : Fld := ⟨0x009028 + 0x40 * i, 29, 27⟩
def RING_STATUS_INFLIGHT (i : Nat) : Fld := ⟨0x009028 + 0x40 * i, 21, 16⟩
def RING_STATUS_HALT_STATUS (i : Nat) : Fld := ⟨0x009028 + 0x40 * i, 7, 0⟩
def RING_SQ_IDX (i : Nat) : Fld := ⟨0x00902C + 0x40 * i, 31, 0⟩
def RING_SQ_PROD (i : Nat) : Fld := ⟨0x009030 + 0x40 * i, 31, 0⟩
def RING_CQ_TAIL (i : Nat) : Fld := ⟨0x009034 + 0x40 * i, 31, 0⟩
def RING_CNT_VIOL_INDEX (i : Nat) : Fld := ⟨0x009038 + 0x40 * i, 31, 0⟩
def RING_CNT_VIOL_DESC (i : Nat) : Fld := ⟨0x00903C + 0x40 * i, 31, 0⟩
/-! ### Names of block RT -/

def RT_CFG : Fld := ⟨0x00C000, 31, 0⟩
def RT_CFG_SNAP_LOADED : Fld := ⟨0x00C000, 31, 31⟩
def RT_CFG_LINK_WAIT : Fld := ⟨0x00C000, 23, 16⟩
def RT_CFG_AGE_UNIT : Fld := ⟨0x00C000, 9, 8⟩
def RT_CFG_HOP_LIMIT : Fld := ⟨0x00C000, 5, 0⟩
def RT_MEMBERS (i : Nat) : Fld := ⟨0x00C010 + 0x4 * i, 31, 0⟩
def RT_MEMBERS_MASK (i : Nat) : Fld := ⟨0x00C010 + 0x4 * i, 15, 0⟩
def RT_BYP_CFG : Fld := ⟨0x00C040, 31, 0⟩
def RT_BYP_CFG_HOLD : Fld := ⟨0x00C040, 15, 0⟩
def RT_BYP_OPEN : Fld := ⟨0x00C044, 31, 0⟩
def RT_BYP_OPEN_OPEN : Fld := ⟨0x00C044, 15, 0⟩
def RT_BYP_STATUS : Fld := ⟨0x00C048, 31, 0⟩
def RT_BYP_STATUS_LISTEN_READY : Fld := ⟨0x00C048, 31, 16⟩
def RT_BYP_STATUS_CLOSED : Fld := ⟨0x00C048, 15, 0⟩
def RT_ADMIT : Fld := ⟨0x00C080, 31, 0⟩
def RT_POD (i : Nat) : Fld := ⟨0x00C100 + 0x4 * i, 31, 0⟩
def RT_POD_VALID (i : Nat) : Fld := ⟨0x00C100 + 0x4 * i, 31, 31⟩
def RT_POD_DIR (i : Nat) : Fld := ⟨0x00C100 + 0x4 * i, 16, 16⟩
def RT_POD_PAIRS (i : Nat) : Fld := ⟨0x00C100 + 0x4 * i, 15, 0⟩
def RT_RING (i : Nat) : Fld := ⟨0x00C140 + 0x4 * i, 31, 0⟩
def RT_RING_VALID (i : Nat) : Fld := ⟨0x00C140 + 0x4 * i, 31, 31⟩
def RT_RING_DIR (i : Nat) : Fld := ⟨0x00C140 + 0x4 * i, 16, 16⟩
def RT_RING_PAIRS (i : Nat) : Fld := ⟨0x00C140 + 0x4 * i, 15, 0⟩
def RT_POS (i : Nat) : Fld := ⟨0x00C180 + 0x4 * i, 31, 0⟩
def RT_POS_VALID (i : Nat) : Fld := ⟨0x00C180 + 0x4 * i, 31, 31⟩
def RT_POS_DIR (i : Nat) : Fld := ⟨0x00C180 + 0x4 * i, 16, 16⟩
def RT_POS_PAIRS (i : Nat) : Fld := ⟨0x00C180 + 0x4 * i, 15, 0⟩
def RT_CNT_VIOL_STATE : Fld := ⟨0x00C0F0, 31, 0⟩
def RT_CNT_VIOL_ACCESS : Fld := ⟨0x00C0F4, 31, 0⟩
def RT_CNT_VIOL_RSVD : Fld := ⟨0x00C0F8, 31, 0⟩
def RT_CNT_VIOL_ROUTE : Fld := ⟨0x00C0FC, 31, 0⟩
def RT_CNT_VIOL_WINDOW : Fld := ⟨0x00C0EC, 31, 0⟩
def RT_SKIP (i : Nat) : Fld := ⟨0x00C200 + 0x4 * i, 31, 0⟩
def RT_SKIP_DOWN_SKIP (i : Nat) : Fld := ⟨0x00C200 + 0x4 * i, 31, 16⟩
def RT_SKIP_UP_SKIP (i : Nat) : Fld := ⟨0x00C200 + 0x4 * i, 15, 0⟩
def RT_PAIR_STATUS (i : Nat) : Fld := ⟨0x00C240 + 0x4 * i, 31, 0⟩
def RT_PAIR_STATUS_DL_UP (i : Nat) : Fld := ⟨0x00C240 + 0x4 * i, 2, 2⟩
def RT_PAIR_STATUS_DL_DOWN (i : Nat) : Fld := ⟨0x00C240 + 0x4 * i, 1, 1⟩
def RT_PAIR_STATUS_CONSISTENT (i : Nat) : Fld := ⟨0x00C240 + 0x4 * i, 0, 0⟩
def RT_UNREACH : Fld := ⟨0x00C300, 31, 0⟩
def RT_DROP : Fld := ⟨0x00C304, 31, 0⟩
def RT_HOPS_EXCEEDED : Fld := ⟨0x00C308, 31, 0⟩
def RT_NOT_ADMITTED : Fld := ⟨0x00C30C, 31, 0⟩
def RT_WAIT_EXPIRED : Fld := ⟨0x00C310, 31, 0⟩
def RT_MREG_DROP : Fld := ⟨0x00C314, 31, 0⟩
def RT_BYP_CLOSES : Fld := ⟨0x00C318, 31, 0⟩
def RT_TRANSIT_LO : Fld := ⟨0x00C320, 31, 0⟩
def RT_TRANSIT_HI : Fld := ⟨0x00C324, 31, 0⟩
def RT_ACW_BASE (i : Nat) : Fld := ⟨0x00C400 + 0x10 * i, 31, 0⟩
def RT_ACW_BASE_VALID (i : Nat) : Fld := ⟨0x00C400 + 0x10 * i, 31, 31⟩
def RT_ACW_BASE_BASE (i : Nat) : Fld := ⟨0x00C400 + 0x10 * i, 23, 0⟩
def RT_ACW_LIMIT (i : Nat) : Fld := ⟨0x00C404 + 0x10 * i, 31, 0⟩
def RT_ACW_LIMIT_LIMIT (i : Nat) : Fld := ⟨0x00C404 + 0x10 * i, 23, 0⟩
def RT_ACW_SRC (i : Nat) : Fld := ⟨0x00C408 + 0x10 * i, 31, 0⟩
def RT_ACW_SRC_EID (i : Nat) : Fld := ⟨0x00C408 + 0x10 * i, 17, 0⟩
def RT_ACW_PERM (i : Nat) : Fld := ⟨0x00C40C + 0x10 * i, 31, 0⟩
def RT_ACW_PERM_REG (i : Nat) : Fld := ⟨0x00C40C + 0x10 * i, 27, 27⟩
def RT_ACW_PERM_A (i : Nat) : Fld := ⟨0x00C40C + 0x10 * i, 26, 26⟩
def RT_ACW_PERM_W (i : Nat) : Fld := ⟨0x00C40C + 0x10 * i, 25, 25⟩
def RT_ACW_PERM_R (i : Nat) : Fld := ⟨0x00C40C + 0x10 * i, 24, 24⟩
def RT_ACW_PERM_MASK (i : Nat) : Fld := ⟨0x00C40C + 0x10 * i, 17, 0⟩
def RT_ACW_CTL : Fld := ⟨0x00C500, 31, 0⟩
def RT_ACW_CTL_ENFORCE : Fld := ⟨0x00C500, 0, 0⟩
/-! ### Names of block PORT -/

def PORT_ROLE (i : Nat) : Fld := ⟨0x010000 + 0x800 * i, 31, 0⟩
def PORT_ROLE_ROLE (i : Nat) : Fld := ⟨0x010000 + 0x800 * i, 2, 0⟩
def PORT_CFG (i : Nat) : Fld := ⟨0x010004 + 0x800 * i, 31, 0⟩
def PORT_CFG_DL_MODE (i : Nat) : Fld := ⟨0x010004 + 0x800 * i, 3, 2⟩
def PORT_CFG_DIR (i : Nat) : Fld := ⟨0x010004 + 0x800 * i, 0, 0⟩
def PORT_CNT_VIOL_STATE (i : Nat) : Fld := ⟨0x0100F0 + 0x800 * i, 31, 0⟩
def PORT_CNT_VIOL_ACCESS (i : Nat) : Fld := ⟨0x0100F4 + 0x800 * i, 31, 0⟩
def PORT_CNT_VIOL_RSVD (i : Nat) : Fld := ⟨0x0100F8 + 0x800 * i, 31, 0⟩
def PORT_CNT_VIOL_CREDIT (i : Nat) : Fld := ⟨0x0100FC + 0x800 * i, 31, 0⟩
def PORT_LINK_CFG (i : Nat) : Fld := ⟨0x010100 + 0x800 * i, 31, 0⟩
def PORT_LINK_CFG_LINK_EN (i : Nat) : Fld := ⟨0x010100 + 0x800 * i, 16, 16⟩
def PORT_LINK_CFG_L1_IDLE (i : Nat) : Fld := ⟨0x010100 + 0x800 * i, 15, 8⟩
def PORT_LINK_CFG_MIN_WIDTH (i : Nat) : Fld := ⟨0x010100 + 0x800 * i, 5, 4⟩
def PORT_LINK_CFG_SPLIT (i : Nat) : Fld := ⟨0x010100 + 0x800 * i, 3, 2⟩
def PORT_LINK_CFG_RATE (i : Nat) : Fld := ⟨0x010100 + 0x800 * i, 1, 0⟩
def PORT_RETRAINS (i : Nat) : Fld := ⟨0x010108 + 0x800 * i, 31, 0⟩
def PORT_LINK_DOWNS (i : Nat) : Fld := ⟨0x01010C + 0x800 * i, 31, 0⟩
def PORT_TRAIN_ATTEMPTS (i : Nat) : Fld := ⟨0x010110 + 0x800 * i, 31, 0⟩
def PORT_LINK_STATUS (i j : Nat) : Fld := ⟨0x010120 + 0x800 * i + 0x4 * j, 31, 0⟩
def PORT_LINK_STATUS_ACTIVE_MASK (i j : Nat) : Fld := ⟨0x010120 + 0x800 * i + 0x4 * j, 23, 16⟩
def PORT_LINK_STATUS_REASON (i j : Nat) : Fld := ⟨0x010120 + 0x800 * i + 0x4 * j, 15, 12⟩
def PORT_LINK_STATUS_REVERSED (i j : Nat) : Fld := ⟨0x010120 + 0x800 * i + 0x4 * j, 11, 11⟩
def PORT_LINK_STATUS_WIDTH (i j : Nat) : Fld := ⟨0x010120 + 0x800 * i + 0x4 * j, 10, 8⟩
def PORT_LINK_STATUS_STATE (i j : Nat) : Fld := ⟨0x010120 + 0x800 * i + 0x4 * j, 3, 0⟩
def PORT_NEIGH_ID (i j : Nat) : Fld := ⟨0x010140 + 0x800 * i + 0x4 * j, 31, 0⟩
def PORT_NEIGH_ID_VALID (i j : Nat) : Fld := ⟨0x010140 + 0x800 * i + 0x4 * j, 31, 31⟩
def PORT_NEIGH_ID_KIND (i j : Nat) : Fld := ⟨0x010140 + 0x800 * i + 0x4 * j, 30, 30⟩
def PORT_NEIGH_ID_ROLE (i j : Nat) : Fld := ⟨0x010140 + 0x800 * i + 0x4 * j, 29, 27⟩
def PORT_NEIGH_ID_LINK (i j : Nat) : Fld := ⟨0x010140 + 0x800 * i + 0x4 * j, 26, 24⟩
def PORT_NEIGH_ID_ECHO_OK (i j : Nat) : Fld := ⟨0x010140 + 0x800 * i + 0x4 * j, 23, 23⟩
def PORT_NEIGH_ID_PORT (i j : Nat) : Fld := ⟨0x010140 + 0x800 * i + 0x4 * j, 20, 16⟩
def PORT_NEIGH_ID_DID (i j : Nat) : Fld := ⟨0x010140 + 0x800 * i + 0x4 * j, 11, 0⟩
def PORT_LL_CFG (i : Nat) : Fld := ⟨0x010200 + 0x800 * i, 31, 0⟩
def PORT_LL_CFG_NAK_LIMIT (i : Nat) : Fld := ⟨0x010200 + 0x800 * i, 27, 24⟩
def PORT_LL_CFG_RETRY_TO (i : Nat) : Fld := ⟨0x010200 + 0x800 * i, 23, 16⟩
def PORT_LL_CFG_ACK_EVERY (i : Nat) : Fld := ⟨0x010200 + 0x800 * i, 15, 8⟩
def PORT_LL_CFG_LCF_WAIT (i : Nat) : Fld := ⟨0x010200 + 0x800 * i, 7, 0⟩
def PORT_CRED_INIT (i j : Nat) : Fld := ⟨0x010210 + 0x800 * i + 0x4 * j, 31, 0⟩
def PORT_CRED_INIT_FLITS (i j : Nat) : Fld := ⟨0x010210 + 0x800 * i + 0x4 * j, 15, 0⟩
def PORT_FLITS_TX_LO (i : Nat) : Fld := ⟨0x010240 + 0x800 * i, 31, 0⟩
def PORT_FLITS_TX_HI (i : Nat) : Fld := ⟨0x010244 + 0x800 * i, 31, 0⟩
def PORT_FLITS_RX_LO (i : Nat) : Fld := ⟨0x010248 + 0x800 * i, 31, 0⟩
def PORT_FLITS_RX_HI (i : Nat) : Fld := ⟨0x01024C + 0x800 * i, 31, 0⟩
def PORT_CRC_BAD (i : Nat) : Fld := ⟨0x010250 + 0x800 * i, 31, 0⟩
def PORT_NAK_TX (i : Nat) : Fld := ⟨0x010254 + 0x800 * i, 31, 0⟩
def PORT_NAK_RX (i : Nat) : Fld := ⟨0x010258 + 0x800 * i, 31, 0⟩
def PORT_REPLAY_TO (i : Nat) : Fld := ⟨0x01025C + 0x800 * i, 31, 0⟩
def PORT_REPLAYED_FLITS (i : Nat) : Fld := ⟨0x010260 + 0x800 * i, 31, 0⟩
def PORT_LCF_BAD (i : Nat) : Fld := ⟨0x010264 + 0x800 * i, 31, 0⟩
def PORT_LL_RETRAIN_REQ (i : Nat) : Fld := ⟨0x010268 + 0x800 * i, 31, 0⟩
def PORT_LL_DROPPED (i : Nat) : Fld := ⟨0x01026C + 0x800 * i, 31, 0⟩
def PORT_RETRY_DISCARD (i : Nat) : Fld := ⟨0x010270 + 0x800 * i, 31, 0⟩
def PORT_CRED_AVAIL (i j : Nat) : Fld := ⟨0x010280 + 0x800 * i + 0x4 * j, 31, 0⟩
def PORT_LL_STATUS (i j : Nat) : Fld := ⟨0x0102A0 + 0x800 * i + 0x4 * j, 31, 0⟩
def PORT_LL_STATUS_RETRY_WAIT (i j : Nat) : Fld := ⟨0x0102A0 + 0x800 * i + 0x4 * j, 31, 31⟩
def PORT_LL_STATUS_PARTNER_LCF (i j : Nat) : Fld := ⟨0x0102A0 + 0x800 * i + 0x4 * j, 30, 30⟩
def PORT_LL_STATUS_RX_EXPECT (i j : Nat) : Fld := ⟨0x0102A0 + 0x800 * i + 0x4 * j, 27, 16⟩
def PORT_LL_STATUS_TX_NEXT (i j : Nat) : Fld := ⟨0x0102A0 + 0x800 * i + 0x4 * j, 11, 0⟩
/-! ### Names of block LANE -/

def LANE_TX_EQ (i : Nat) : Fld := ⟨0x020000 + 0x400 * i, 31, 0⟩
def LANE_TX_EQ_POST (i : Nat) : Fld := ⟨0x020000 + 0x400 * i, 12, 8⟩
def LANE_TX_EQ_PRE (i : Nat) : Fld := ⟨0x020000 + 0x400 * i, 3, 0⟩
def LANE_RX_EQ (i : Nat) : Fld := ⟨0x020004 + 0x400 * i, 31, 0⟩
def LANE_RX_EQ_CTLE (i : Nat) : Fld := ⟨0x020004 + 0x400 * i, 27, 24⟩
def LANE_RX_EQ_VGA (i : Nat) : Fld := ⟨0x020004 + 0x400 * i, 20, 16⟩
def LANE_DFE (i j : Nat) : Fld := ⟨0x020008 + 0x400 * i + 0x4 * j, 31, 0⟩
def LANE_ADAPT_CTL (i : Nat) : Fld := ⟨0x020010 + 0x400 * i, 31, 0⟩
def LANE_ADAPT_CTL_FREEZE (i : Nat) : Fld := ⟨0x020010 + 0x400 * i, 0, 0⟩
def LANE_STATUS (i : Nat) : Fld := ⟨0x020014 + 0x400 * i, 31, 0⟩
def LANE_STATUS_SIG_DET (i : Nat) : Fld := ⟨0x020014 + 0x400 * i, 7, 7⟩
def LANE_STATUS_CDR_LOCK (i : Nat) : Fld := ⟨0x020014 + 0x400 * i, 6, 6⟩
def LANE_STATUS_MARKER_LOCK (i : Nat) : Fld := ⟨0x020014 + 0x400 * i, 5, 5⟩
def LANE_STATUS_INVERTED (i : Nat) : Fld := ⟨0x020014 + 0x400 * i, 4, 4⟩
def LANE_STATUS_IN_USE (i : Nat) : Fld := ⟨0x020014 + 0x400 * i, 3, 3⟩
def LANE_STATUS_LOGICAL (i : Nat) : Fld := ⟨0x020014 + 0x400 * i, 2, 0⟩
def LANE_EYE (i : Nat) : Fld := ⟨0x020018 + 0x400 * i, 31, 0⟩
def LANE_EYE_STALE (i : Nat) : Fld := ⟨0x020018 + 0x400 * i, 31, 31⟩
def LANE_EYE_EYE_H (i : Nat) : Fld := ⟨0x020018 + 0x400 * i, 23, 16⟩
def LANE_EYE_EYE_W (i : Nat) : Fld := ⟨0x020018 + 0x400 * i, 5, 0⟩
def LANE_PRBS_CTL (i : Nat) : Fld := ⟨0x020020 + 0x400 * i, 31, 0⟩
def LANE_PRBS_CTL_INJECT (i : Nat) : Fld := ⟨0x020020 + 0x400 * i, 9, 9⟩
def LANE_PRBS_CTL_CHK_LOCK (i : Nat) : Fld := ⟨0x020020 + 0x400 * i, 8, 8⟩
def LANE_PRBS_CTL_PATTERN (i : Nat) : Fld := ⟨0x020020 + 0x400 * i, 5, 4⟩
def LANE_PRBS_CTL_CHK_EN (i : Nat) : Fld := ⟨0x020020 + 0x400 * i, 1, 1⟩
def LANE_PRBS_CTL_GEN_EN (i : Nat) : Fld := ⟨0x020020 + 0x400 * i, 0, 0⟩
def LANE_PRBS_ERR_LO (i : Nat) : Fld := ⟨0x020024 + 0x400 * i, 31, 0⟩
def LANE_PRBS_ERR_HI (i : Nat) : Fld := ⟨0x020028 + 0x400 * i, 31, 0⟩
def LANE_FEC_CORR (i : Nat) : Fld := ⟨0x02002C + 0x400 * i, 31, 0⟩
def LANE_AM_ERR (i : Nat) : Fld := ⟨0x020030 + 0x400 * i, 31, 0⟩
def LANE_CNT_VIOL_STATE (i : Nat) : Fld := ⟨0x0200F0 + 0x400 * i, 31, 0⟩
def LANE_CNT_VIOL_ACCESS (i : Nat) : Fld := ⟨0x0200F4 + 0x400 * i, 31, 0⟩
def LANE_CNT_VIOL_RSVD (i : Nat) : Fld := ⟨0x0200F8 + 0x400 * i, 31, 0⟩
/-! ### Names of block CHAN -/

def CHAN_MAP (i : Nat) : Fld := ⟨0x060000 + 0x1000 * i, 31, 0⟩
def CHAN_MAP_PRESENT (i : Nat) : Fld := ⟨0x060000 + 0x1000 * i, 31, 31⟩
def CHAN_MAP_GROUP (i : Nat) : Fld := ⟨0x060000 + 0x1000 * i, 9, 8⟩
def CHAN_MAP_HALF (i : Nat) : Fld := ⟨0x060000 + 0x1000 * i, 5, 5⟩
def CHAN_MAP_LAYER (i : Nat) : Fld := ⟨0x060000 + 0x1000 * i, 4, 0⟩
def CHAN_STATUS (i : Nat) : Fld := ⟨0x060004 + 0x1000 * i, 31, 0⟩
def CHAN_STATUS_FENCE_CAUSE (i : Nat) : Fld := ⟨0x060004 + 0x1000 * i, 31, 28⟩
def CHAN_STATUS_REF_RATE (i : Nat) : Fld := ⟨0x060004 + 0x1000 * i, 23, 22⟩
def CHAN_STATUS_RETIRED (i : Nat) : Fld := ⟨0x060004 + 0x1000 * i, 19, 19⟩
def CHAN_STATUS_LOST (i : Nat) : Fld := ⟨0x060004 + 0x1000 * i, 18, 18⟩
def CHAN_STATUS_NARROW (i : Nat) : Fld := ⟨0x060004 + 0x1000 * i, 17, 17⟩
def CHAN_STATUS_FENCED (i : Nat) : Fld := ⟨0x060004 + 0x1000 * i, 16, 16⟩
def CHAN_STATUS_STATE (i : Nat) : Fld := ⟨0x060004 + 0x1000 * i, 3, 0⟩
def CHAN_PASR (i : Nat) : Fld := ⟨0x060010 + 0x1000 * i, 31, 0⟩
def CHAN_PASR_FRACTION (i : Nat) : Fld := ⟨0x060010 + 0x1000 * i, 2, 0⟩
def CHAN_SCHED (i : Nat) : Fld := ⟨0x060020 + 0x1000 * i, 31, 0⟩
def CHAN_SCHED_AGE_CAP (i : Nat) : Fld := ⟨0x060020 + 0x1000 * i, 31, 24⟩
def CHAN_SCHED_ROW_IDLE (i : Nat) : Fld := ⟨0x060020 + 0x1000 * i, 23, 16⟩
def CHAN_SCHED_WR_HI (i : Nat) : Fld := ⟨0x060020 + 0x1000 * i, 13, 8⟩
def CHAN_SCHED_WR_LO (i : Nat) : Fld := ⟨0x060020 + 0x1000 * i, 5, 0⟩
def CHAN_REF_CFG (i : Nat) : Fld := ⟨0x060024 + 0x1000 * i, 31, 0⟩
def CHAN_REF_CFG_PD_IDLE (i : Nat) : Fld := ⟨0x060024 + 0x1000 * i, 15, 8⟩
def CHAN_REF_CFG_NR_K (i : Nat) : Fld := ⟨0x060024 + 0x1000 * i, 3, 0⟩
def CHAN_TRAIN (i : Nat) : Fld := ⟨0x060030 + 0x1000 * i, 31, 0⟩
def CHAN_TRAIN_RD_MARGIN (i : Nat) : Fld := ⟨0x060030 + 0x1000 * i, 31, 24⟩
def CHAN_TRAIN_WR_MARGIN (i : Nat) : Fld := ⟨0x060030 + 0x1000 * i, 23, 16⟩
def CHAN_TRAIN_CA_MARGIN (i : Nat) : Fld := ⟨0x060030 + 0x1000 * i, 15, 8⟩
def CHAN_REBUILD (i : Nat) : Fld := ⟨0x060040 + 0x1000 * i, 31, 0⟩
def CHAN_REBUILD_STATE (i : Nat) : Fld := ⟨0x060040 + 0x1000 * i, 31, 30⟩
def CHAN_REBUILD_SIXTEENTHS (i : Nat) : Fld := ⟨0x060040 + 0x1000 * i, 20, 16⟩
def CHAN_REBUILD_LOST_BLOCKS (i : Nat) : Fld := ⟨0x060040 + 0x1000 * i, 15, 0⟩
def CHAN_REBUILD_PTR (i : Nat) : Fld := ⟨0x060044 + 0x1000 * i, 31, 0⟩
def CHAN_REBUILD_PTR_PTR (i : Nat) : Fld := ⟨0x060044 + 0x1000 * i, 25, 0⟩
def CHAN_CNT_VIOL_STATE (i : Nat) : Fld := ⟨0x0600F0 + 0x1000 * i, 31, 0⟩
def CHAN_CNT_VIOL_ACCESS (i : Nat) : Fld := ⟨0x0600F4 + 0x1000 * i, 31, 0⟩
def CHAN_CNT_VIOL_RSVD (i : Nat) : Fld := ⟨0x0600F8 + 0x1000 * i, 31, 0⟩
def CHAN_ACT_LO (i : Nat) : Fld := ⟨0x060100 + 0x1000 * i, 31, 0⟩
def CHAN_ACT_HI (i : Nat) : Fld := ⟨0x060104 + 0x1000 * i, 31, 0⟩
def CHAN_RD_LO (i : Nat) : Fld := ⟨0x060108 + 0x1000 * i, 31, 0⟩
def CHAN_RD_HI (i : Nat) : Fld := ⟨0x06010C + 0x1000 * i, 31, 0⟩
def CHAN_WR_LO (i : Nat) : Fld := ⟨0x060110 + 0x1000 * i, 31, 0⟩
def CHAN_WR_HI (i : Nat) : Fld := ⟨0x060114 + 0x1000 * i, 31, 0⟩
def CHAN_REF (i : Nat) : Fld := ⟨0x060118 + 0x1000 * i, 31, 0⟩
def CHAN_NREF (i : Nat) : Fld := ⟨0x06011C + 0x1000 * i, 31, 0⟩
def CHAN_FENCED_REQ (i : Nat) : Fld := ⟨0x060120 + 0x1000 * i, 31, 0⟩
def CHAN_RECONSTRUCT (i : Nat) : Fld := ⟨0x060124 + 0x1000 * i, 31, 0⟩
def CHAN_CE (i : Nat) : Fld := ⟨0x060140 + 0x1000 * i, 31, 0⟩
def CHAN_CE_SYMS (i : Nat) : Fld := ⟨0x060144 + 0x1000 * i, 31, 0⟩
def CHAN_UE (i : Nat) : Fld := ⟨0x060148 + 0x1000 * i, 31, 0⟩
def CHAN_UE_ADDR (i : Nat) : Fld := ⟨0x06014C + 0x1000 * i, 31, 0⟩
def CHAN_POISON_RD (i : Nat) : Fld := ⟨0x060150 + 0x1000 * i, 31, 0⟩
def CHAN_POISON_WR (i : Nat) : Fld := ⟨0x060154 + 0x1000 * i, 31, 0⟩
def CHAN_REPAIRS (i : Nat) : Fld := ⟨0x060158 + 0x1000 * i, 31, 0⟩
def CHAN_REPAIRS_REFUSED (i : Nat) : Fld := ⟨0x06015C + 0x1000 * i, 31, 0⟩
def CHAN_CE_LOG_LOST (i : Nat) : Fld := ⟨0x060160 + 0x1000 * i, 31, 0⟩
def CHAN_REPAIR_STATUS (i : Nat) : Fld := ⟨0x060180 + 0x1000 * i, 31, 0⟩
def CHAN_REPAIR_STATUS_REMAP_FULL (i : Nat) : Fld := ⟨0x060180 + 0x1000 * i, 31, 31⟩
def CHAN_REPAIR_STATUS_LOG_FULL (i : Nat) : Fld := ⟨0x060180 + 0x1000 * i, 30, 30⟩
def CHAN_REPAIR_STATUS_VOID_ENTRIES (i : Nat) : Fld := ⟨0x060180 + 0x1000 * i, 29, 24⟩
def CHAN_REPAIR_STATUS_REMAP_USED (i : Nat) : Fld := ⟨0x060180 + 0x1000 * i, 23, 16⟩
def CHAN_REPAIR_STATUS_SPARE_ROWS_USED (i : Nat) : Fld := ⟨0x060180 + 0x1000 * i, 11, 0⟩
def CHAN_CE_LOG (i j : Nat) : Fld := ⟨0x060200 + 0x1000 * i + 0x4 * j, 31, 0⟩
def CHAN_CE_LOG_VALID (i j : Nat) : Fld := ⟨0x060200 + 0x1000 * i + 0x4 * j, 31, 31⟩
def CHAN_CE_LOG_COUNT (i j : Nat) : Fld := ⟨0x060200 + 0x1000 * i + 0x4 * j, 30, 26⟩
def CHAN_CE_LOG_LOCATION (i j : Nat) : Fld := ⟨0x060200 + 0x1000 * i + 0x4 * j, 25, 0⟩
def CHAN_REMAP (i j : Nat) : Fld := ⟨0x060300 + 0x1000 * i + 0x4 * j, 31, 0⟩
def CHAN_REMAP_VALID (i j : Nat) : Fld := ⟨0x060300 + 0x1000 * i + 0x4 * j, 31, 31⟩
def CHAN_REMAP_LOCATION (i j : Nat) : Fld := ⟨0x060300 + 0x1000 * i + 0x4 * j, 25, 0⟩
/-! ### Names of block MARL -/

def MARL_PART : Fld := ⟨0x080000, 31, 0⟩
def MARL_PART_DEN_BANKS : Fld := ⟨0x080000, 10, 8⟩
def MARL_PART_BUF_BANKS : Fld := ⟨0x080000, 3, 0⟩
def MARL_CTL : Fld := ⟨0x080004, 31, 0⟩
def MARL_CTL_QUIESCE : Fld := ⟨0x080004, 0, 0⟩
def MARL_STATUS : Fld := ⟨0x080008, 31, 0⟩
def MARL_STATUS_SLICES_CACHE : Fld := ⟨0x080008, 22, 16⟩
def MARL_STATUS_CLEANING : Fld := ⟨0x080008, 3, 3⟩
def MARL_STATUS_FLUSH_BUSY : Fld := ⟨0x080008, 2, 2⟩
def MARL_STATUS_PART_BUSY : Fld := ⟨0x080008, 1, 1⟩
def MARL_STATUS_QUIESCED : Fld := ⟨0x080008, 0, 0⟩
def MARL_BUF_CFG : Fld := ⟨0x080010, 31, 0⟩
def MARL_BUF_CFG_RSP_RES : Fld := ⟨0x080010, 27, 16⟩
def MARL_BUF_CFG_SHARE_MAX : Fld := ⟨0x080010, 15, 12⟩
def MARL_BUF_CFG_EGR_CELLS : Fld := ⟨0x080010, 7, 0⟩
def MARL_WB_CFG : Fld := ⟨0x080014, 31, 0⟩
def MARL_WB_CFG_DIRTY_HI : Fld := ⟨0x080014, 15, 8⟩
def MARL_WB_CFG_DIRTY_LO : Fld := ⟨0x080014, 7, 0⟩
def MARL_FLUSH : Fld := ⟨0x080018, 31, 0⟩
def MARL_FLUSH_INVALIDATE : Fld := ⟨0x080018, 1, 1⟩
def MARL_FLUSH_GO : Fld := ⟨0x080018, 0, 0⟩
def MARL_SLICE_OUT (i : Nat) : Fld := ⟨0x080020 + 0x4 * i, 31, 0⟩
def MARL_CELLS_SHARED_FREE : Fld := ⟨0x080030, 31, 0⟩
def MARL_CELLS_RETIRED : Fld := ⟨0x080034, 31, 0⟩
def MARL_DIRTY_LINES : Fld := ⟨0x080038, 31, 0⟩
def MARL_BP_EVENTS : Fld := ⟨0x08003C, 31, 0⟩
def MARL_HITS_LO : Fld := ⟨0x080040, 31, 0⟩
def MARL_HITS_HI : Fld := ⟨0x080044, 31, 0⟩
def MARL_MISSES_LO : Fld := ⟨0x080048, 31, 0⟩
def MARL_MISSES_HI : Fld := ⟨0x08004C, 31, 0⟩
def MARL_WRITEBACKS_LO : Fld := ⟨0x080050, 31, 0⟩
def MARL_WRITEBACKS_HI : Fld := ⟨0x080054, 31, 0⟩
def MARL_NOALLOC_LO : Fld := ⟨0x080058, 31, 0⟩
def MARL_NOALLOC_HI : Fld := ⟨0x08005C, 31, 0⟩
def MARL_REPAIR_STATUS : Fld := ⟨0x080060, 31, 0⟩
def MARL_REPAIR_STATUS_REMAP_FULL : Fld := ⟨0x080060, 31, 31⟩
def MARL_REPAIR_STATUS_LOG_FULL : Fld := ⟨0x080060, 30, 30⟩
def MARL_REPAIR_STATUS_VOID_ENTRIES : Fld := ⟨0x080060, 29, 24⟩
def MARL_REPAIR_STATUS_REMAP_USED : Fld := ⟨0x080060, 23, 16⟩
def MARL_REPAIR_STATUS_SPARE_ROWS_USED : Fld := ⟨0x080060, 11, 0⟩
def MARL_CE : Fld := ⟨0x080068, 31, 0⟩
def MARL_UE : Fld := ⟨0x08006C, 31, 0⟩
def MARL_UE_DROP : Fld := ⟨0x080070, 31, 0⟩
def MARL_REPAIRS : Fld := ⟨0x080074, 31, 0⟩
def MARL_REPAIRS_REFUSED : Fld := ⟨0x080078, 31, 0⟩
def MARL_CE_LOG_LOST : Fld := ⟨0x08007C, 31, 0⟩
def MARL_SLICE_MAP (i : Nat) : Fld := ⟨0x080100 + 0x4 * i, 31, 0⟩
def MARL_CE_LOG (i : Nat) : Fld := ⟨0x080200 + 0x4 * i, 31, 0⟩
def MARL_CE_LOG_VALID (i : Nat) : Fld := ⟨0x080200 + 0x4 * i, 31, 31⟩
def MARL_CE_LOG_COUNT (i : Nat) : Fld := ⟨0x080200 + 0x4 * i, 30, 26⟩
def MARL_CE_LOG_LOCATION (i : Nat) : Fld := ⟨0x080200 + 0x4 * i, 25, 0⟩
def MARL_REMAP (i : Nat) : Fld := ⟨0x080280 + 0x4 * i, 31, 0⟩
def MARL_REMAP_VALID (i : Nat) : Fld := ⟨0x080280 + 0x4 * i, 31, 31⟩
def MARL_REMAP_LOCATION (i : Nat) : Fld := ⟨0x080280 + 0x4 * i, 25, 0⟩
def MARL_PAD_STATUS (i : Nat) : Fld := ⟨0x080400 + 0x4 * i, 31, 0⟩
def MARL_PAD_STATUS_RETIRED (i : Nat) : Fld := ⟨0x080400 + 0x4 * i, 31, 31⟩
def MARL_PAD_STATUS_MARGIN (i : Nat) : Fld := ⟨0x080400 + 0x4 * i, 23, 16⟩
def MARL_PAD_STATUS_SPARES_DN (i : Nat) : Fld := ⟨0x080400 + 0x4 * i, 3, 2⟩
def MARL_PAD_STATUS_SPARES_UP (i : Nat) : Fld := ⟨0x080400 + 0x4 * i, 1, 0⟩
def MARL_CNT_VIOL_STATE : Fld := ⟨0x0800F0, 31, 0⟩
def MARL_CNT_VIOL_ACCESS : Fld := ⟨0x0800F4, 31, 0⟩
def MARL_CNT_VIOL_RSVD : Fld := ⟨0x0800F8, 31, 0⟩
/-! ### Names of block FOX -/

def FOX_CTL (i : Nat) : Fld := ⟨0x090000 + 0x400 * i, 31, 0⟩
def FOX_CTL_ENABLE (i : Nat) : Fld := ⟨0x090000 + 0x400 * i, 0, 0⟩
def FOX_STATUS (i : Nat) : Fld := ⟨0x090004 + 0x400 * i, 31, 0⟩
def FOX_STATUS_STATE (i : Nat) : Fld := ⟨0x090004 + 0x400 * i, 31, 29⟩
def FOX_STATUS_TRAP_CAUSE (i : Nat) : Fld := ⟨0x090004 + 0x400 * i, 23, 20⟩
def FOX_STATUS_RING (i : Nat) : Fld := ⟨0x090004 + 0x400 * i, 13, 8⟩
def FOX_STATUS_SVC_RES (i : Nat) : Fld := ⟨0x090004 + 0x400 * i, 0, 0⟩
def FOX_TRAPS (i : Nat) : Fld := ⟨0x090010 + 0x400 * i, 31, 0⟩
def FOX_FETCH_CORR (i : Nat) : Fld := ⟨0x090014 + 0x400 * i, 31, 0⟩
def FOX_DEN_CORR (i : Nat) : Fld := ⟨0x090018 + 0x400 * i, 31, 0⟩
def FOX_DESC_LO (i : Nat) : Fld := ⟨0x090020 + 0x400 * i, 31, 0⟩
def FOX_DESC_HI (i : Nat) : Fld := ⟨0x090024 + 0x400 * i, 31, 0⟩
def FOX_SVC_DONE (i : Nat) : Fld := ⟨0x090028 + 0x400 * i, 31, 0⟩
def FOX_CFG : Fld := ⟨0x098000, 31, 0⟩
def FOX_CFG_SVC_RES : Fld := ⟨0x098000, 2, 0⟩
def FOX_FW_STATUS : Fld := ⟨0x098004, 31, 0⟩
def FOX_FW_STATUS_SVN : Fld := ⟨0x098004, 31, 16⟩
def FOX_FW_STATUS_SLOT_B : Fld := ⟨0x098004, 11, 10⟩
def FOX_FW_STATUS_SLOT_A : Fld := ⟨0x098004, 9, 8⟩
def FOX_FW_STATUS_ACTIVE : Fld := ⟨0x098004, 1, 0⟩
def FOX_FW_FLOOR : Fld := ⟨0x098008, 31, 0⟩
def FOX_SB_ADDR : Fld := ⟨0x098010, 31, 0⟩
def FOX_SB_DATA : Fld := ⟨0x098014, 31, 0⟩
def FOX_SB_CTL : Fld := ⟨0x098018, 31, 0⟩
def FOX_SB_CTL_GO : Fld := ⟨0x098018, 0, 0⟩
def FOX_SVC_RX_LO : Fld := ⟨0x098020, 31, 0⟩
def FOX_SVC_RX_HI : Fld := ⟨0x098024, 31, 0⟩
def FOX_SVC_WAIT : Fld := ⟨0x098028, 31, 0⟩
def FOX_RESP_WAIT : Fld := ⟨0x09802C, 31, 0⟩
def FOX_FW_DIGEST (i : Nat) : Fld := ⟨0x098040 + 0x4 * i, 31, 0⟩
def FOX_PART_DIGEST (i : Nat) : Fld := ⟨0x098070 + 0x4 * i, 31, 0⟩
def FOX_RING_MAP (i : Nat) : Fld := ⟨0x098100 + 0x4 * i, 31, 0⟩
def FOX_RING_MAP_MAX_RUN (i : Nat) : Fld := ⟨0x098100 + 0x4 * i, 13, 8⟩
def FOX_RING_MAP_EARTHS (i : Nat) : Fld := ⟨0x098100 + 0x4 * i, 3, 0⟩
def FOX_CNT_VIOL_STATE : Fld := ⟨0x0980F0, 31, 0⟩
def FOX_CNT_VIOL_ACCESS : Fld := ⟨0x0980F4, 31, 0⟩
def FOX_CNT_VIOL_RSVD : Fld := ⟨0x0980F8, 31, 0⟩
/-! ### Names of block VCP -/

def VCP_MECH : Fld := ⟨0x0A0000, 31, 0⟩
def VCP_MECH_FUSED : Fld := ⟨0x0A0000, 9, 8⟩
def VCP_MECH_PROFILE : Fld := ⟨0x0A0000, 1, 0⟩
def VCP_CAL_CFG : Fld := ⟨0x0A0004, 31, 0⟩
def VCP_CAL_CFG_FREEZE : Fld := ⟨0x0A0004, 31, 31⟩
def VCP_CAL_CFG_RESID_FAIL : Fld := ⟨0x0A0004, 23, 16⟩
def VCP_CAL_CFG_RESID_WARN : Fld := ⟨0x0A0004, 15, 8⟩
def VCP_CAL_CFG_COIL_ERR_LIMIT : Fld := ⟨0x0A0004, 7, 0⟩
def VCP_COIL_SEL : Fld := ⟨0x0A0008, 31, 0⟩
def VCP_COIL_SEL_COLUMN : Fld := ⟨0x0A0008, 28, 24⟩
def VCP_COIL_SEL_HOP : Fld := ⟨0x0A0008, 20, 16⟩
def VCP_COIL_SEL_DIR : Fld := ⟨0x0A0008, 15, 15⟩
def VCP_COIL_SEL_COIL : Fld := ⟨0x0A0008, 8, 0⟩
def VCP_COIL_DATA : Fld := ⟨0x0A000C, 31, 0⟩
def VCP_COIL_DATA_RESID : Fld := ⟨0x0A000C, 31, 24⟩
def VCP_COIL_DATA_DELAY : Fld := ⟨0x0A000C, 23, 16⟩
def VCP_COIL_DATA_THRESH : Fld := ⟨0x0A000C, 15, 8⟩
def VCP_COIL_DATA_GAIN : Fld := ⟨0x0A000C, 7, 0⟩
def VCP_COIL_FAILS : Fld := ⟨0x0A0010, 31, 0⟩
def VCP_SOFT_REPAIRS : Fld := ⟨0x0A0014, 31, 0⟩
def VCP_LYR_RELOCKS : Fld := ⟨0x0A0018, 31, 0⟩
def VCP_RECAL_FORCED : Fld := ⟨0x0A001C, 31, 0⟩
def VCP_LAYER_STATUS (i : Nat) : Fld := ⟨0x0A0040 + 0x4 * i, 31, 0⟩
def VCP_LAYER_STATUS_DISCOVERED (i : Nat) : Fld := ⟨0x0A0040 + 0x4 * i, 31, 31⟩
def VCP_LAYER_STATUS_PLL_LOCK (i : Nat) : Fld := ⟨0x0A0040 + 0x4 * i, 30, 30⟩
def VCP_LAYER_STATUS_HB_LOST (i : Nat) : Fld := ⟨0x0A0040 + 0x4 * i, 29, 29⟩
def VCP_LAYER_STATUS_RETAINED (i : Nat) : Fld := ⟨0x0A0040 + 0x4 * i, 28, 28⟩
def VCP_LAYER_STATUS_HB_LOSS_COUNT (i : Nat) : Fld := ⟨0x0A0040 + 0x4 * i, 23, 16⟩
def VCP_LAYER_STATUS_DIE_ID (i : Nat) : Fld := ⟨0x0A0040 + 0x4 * i, 15, 0⟩
def VCP_CNT_VIOL_STATE : Fld := ⟨0x0A00F0, 31, 0⟩
def VCP_CNT_VIOL_ACCESS : Fld := ⟨0x0A00F4, 31, 0⟩
def VCP_CNT_VIOL_RSVD : Fld := ⟨0x0A00F8, 31, 0⟩
def VCP_COL_STATUS (i : Nat) : Fld := ⟨0x0A0100 + 0x4 * i, 31, 0⟩
def VCP_COL_STATUS_MODE (i : Nat) : Fld := ⟨0x0A0100 + 0x4 * i, 31, 30⟩
def VCP_COL_STATUS_HALF (i : Nat) : Fld := ⟨0x0A0100 + 0x4 * i, 29, 29⟩
def VCP_COL_STATUS_WR_HOLD (i : Nat) : Fld := ⟨0x0A0100 + 0x4 * i, 28, 28⟩
def VCP_COL_STATUS_TEST_NOSHADOW (i : Nat) : Fld := ⟨0x0A0100 + 0x4 * i, 27, 27⟩
def VCP_COL_STATUS_FUSED (i : Nat) : Fld := ⟨0x0A0100 + 0x4 * i, 23, 20⟩
def VCP_COL_STATUS_SOFT (i : Nat) : Fld := ⟨0x0A0100 + 0x4 * i, 19, 15⟩
def VCP_COL_STATUS_FREE (i : Nat) : Fld := ⟨0x0A0100 + 0x4 * i, 14, 10⟩
def VCP_COL_STATUS_SHADOW (i : Nat) : Fld := ⟨0x0A0100 + 0x4 * i, 9, 9⟩
def VCP_COL_STATUS_LAST_FAIL (i : Nat) : Fld := ⟨0x0A0100 + 0x4 * i, 8, 0⟩
def VCP_COL_RESID (i : Nat) : Fld := ⟨0x0A0180 + 0x4 * i, 31, 0⟩
def VCP_COL_RESID_RESID_WORST (i : Nat) : Fld := ⟨0x0A0180 + 0x4 * i, 31, 24⟩
def VCP_COL_RESID_WORST_HOP (i : Nat) : Fld := ⟨0x0A0180 + 0x4 * i, 20, 16⟩
def VCP_COL_RESID_WORST_POS (i : Nat) : Fld := ⟨0x0A0180 + 0x4 * i, 8, 0⟩
def VCP_SPARE (i j : Nat) : Fld := ⟨0x0A1000 + 0x40 * i + 0x4 * j, 31, 0⟩
def VCP_SPARE_USE (i j : Nat) : Fld := ⟨0x0A1000 + 0x40 * i + 0x4 * j, 31, 30⟩
def VCP_SPARE_FAILED (i j : Nat) : Fld := ⟨0x0A1000 + 0x40 * i + 0x4 * j, 29, 29⟩
def VCP_SPARE_POSITION (i j : Nat) : Fld := ⟨0x0A1000 + 0x40 * i + 0x4 * j, 8, 0⟩
/-! ### Names of block BST -/

def BST_CFG : Fld := ⟨0x0B0000, 31, 0⟩
def BST_CFG_PERIOD_MS : Fld := ⟨0x0B0000, 23, 16⟩
def BST_CFG_TEST_MARGIN : Fld := ⟨0x0B0000, 11, 8⟩
def BST_CFG_LANE_EN : Fld := ⟨0x0B0000, 2, 2⟩
def BST_CFG_PAD_EN : Fld := ⟨0x0B0000, 1, 1⟩
def BST_CFG_COIL_EN : Fld := ⟨0x0B0000, 0, 0⟩
def BST_STATUS : Fld := ⟨0x0B0004, 31, 0⟩
def BST_STATUS_RUN_BUSY : Fld := ⟨0x0B0004, 31, 31⟩
def BST_STATUS_PAD_NEXT : Fld := ⟨0x0B0004, 24, 16⟩
def BST_STATUS_COIL_NEXT : Fld := ⟨0x0B0004, 8, 0⟩
def BST_LANE_LIMITS : Fld := ⟨0x0B0008, 31, 0⟩
def BST_LANE_LIMITS_EYE_H_MIN : Fld := ⟨0x0B0008, 23, 16⟩
def BST_LANE_LIMITS_EYE_W_MIN : Fld := ⟨0x0B0008, 5, 0⟩
def BST_DBG_STATUS : Fld := ⟨0x0B0010, 31, 0⟩
def BST_DBG_STATUS_DEBUG : Fld := ⟨0x0B0010, 31, 31⟩
def BST_DBG_STATUS_SCOPE : Fld := ⟨0x0B0010, 30, 28⟩
def BST_DBG_STATUS_CLEARING : Fld := ⟨0x0B0010, 27, 27⟩
def BST_DBG_STATUS_CLEARED : Fld := ⟨0x0B0010, 26, 26⟩
def BST_DBG_STATUS_LOCKED : Fld := ⟨0x0B0010, 25, 25⟩
def BST_DBG_STATUS_AUTH_FAILS : Fld := ⟨0x0B0010, 7, 0⟩
def BST_SLICES_LO : Fld := ⟨0x0B0020, 31, 0⟩
def BST_SLICES_HI : Fld := ⟨0x0B0024, 31, 0⟩
def BST_COIL_TESTS : Fld := ⟨0x0B0028, 31, 0⟩
def BST_COIL_FAILS : Fld := ⟨0x0B002C, 31, 0⟩
def BST_PAD_TESTS : Fld := ⟨0x0B0030, 31, 0⟩
def BST_PAD_FAILS : Fld := ⟨0x0B0034, 31, 0⟩
def BST_PAD_REPAIRS : Fld := ⟨0x0B0038, 31, 0⟩
def BST_LANE_WEAK : Fld := ⟨0x0B003C, 31, 0⟩
def BST_SLICE_SKIPS : Fld := ⟨0x0B0040, 31, 0⟩
def BST_DEBUG_ENTRIES : Fld := ⟨0x0B0044, 31, 0⟩
def BST_BADGER_CFG : Fld := ⟨0x0B0400, 31, 0⟩
def BST_BADGER_CFG_PASS_H : Fld := ⟨0x0B0400, 20, 16⟩
def BST_BADGER_CFG_MARL_PASS_S : Fld := ⟨0x0B0400, 13, 8⟩
def BST_BADGER_CFG_MARL_EN : Fld := ⟨0x0B0400, 0, 0⟩
def BST_BADGER_CHAN_EN : Fld := ⟨0x0B0404, 31, 0⟩
def BST_BADGER_CHAN_EN_EN : Fld := ⟨0x0B0404, 31, 0⟩
def BST_BADGER_STATUS : Fld := ⟨0x0B0408, 31, 0⟩
def BST_BADGER_STATUS_LAG_S : Fld := ⟨0x0B0408, 31, 16⟩
def BST_BADGER_STATUS_DRAM_PASSES : Fld := ⟨0x0B0408, 15, 0⟩
def BST_BADGER_POISONED : Fld := ⟨0x0B0410, 31, 0⟩
def BST_BADGER_MARL_PASSES : Fld := ⟨0x0B0414, 31, 0⟩
def BST_LANE_RESULT (i : Nat) : Fld := ⟨0x0B0800 + 0x4 * i, 31, 0⟩
def BST_LANE_RESULT_VALID (i : Nat) : Fld := ⟨0x0B0800 + 0x4 * i, 31, 31⟩
def BST_LANE_RESULT_WEAK (i : Nat) : Fld := ⟨0x0B0800 + 0x4 * i, 30, 30⟩
def BST_LANE_RESULT_FAILS (i : Nat) : Fld := ⟨0x0B0800 + 0x4 * i, 29, 28⟩
def BST_LANE_RESULT_EYE_H (i : Nat) : Fld := ⟨0x0B0800 + 0x4 * i, 23, 16⟩
def BST_LANE_RESULT_EYE_W (i : Nat) : Fld := ⟨0x0B0800 + 0x4 * i, 5, 0⟩
def BST_CNT_VIOL_STATE : Fld := ⟨0x0B00F0, 31, 0⟩
def BST_CNT_VIOL_ACCESS : Fld := ⟨0x0B00F4, 31, 0⟩
def BST_CNT_VIOL_RSVD : Fld := ⟨0x0B00F8, 31, 0⟩
/-! ### Names of block CVU -/

def CVU_UNIT_STATUS (i : Nat) : Fld := ⟨0x0C0000 + 0x4 * i, 31, 0⟩
def CVU_UNIT_STATUS_HELD (i : Nat) : Fld := ⟨0x0C0000 + 0x4 * i, 31, 31⟩
def CVU_UNIT_STATUS_TEST (i : Nat) : Fld := ⟨0x0C0000 + 0x4 * i, 30, 30⟩
def CVU_UNIT_STATUS_ENGINE (i : Nat) : Fld := ⟨0x0C0000 + 0x4 * i, 12, 8⟩
def CVU_UNIT_STATUS_POLY (i : Nat) : Fld := ⟨0x0C0000 + 0x4 * i, 1, 0⟩
def CVU_CNT_VIOL_STATE : Fld := ⟨0x0C00F0, 31, 0⟩
def CVU_CNT_VIOL_ACCESS : Fld := ⟨0x0C00F4, 31, 0⟩
def CVU_CNT_VIOL_RSVD : Fld := ⟨0x0C00F8, 31, 0⟩
def CVU_VAL_LO (i : Nat) : Fld := ⟨0x0C0100 + 0x8 * i, 31, 0⟩
def CVU_VAL_HI (i : Nat) : Fld := ⟨0x0C0104 + 0x8 * i, 31, 0⟩
def CVU_TEST_CTX (i : Nat) : Fld := ⟨0x0C0200 + 0x4 * i, 31, 0⟩
def CVU_TEST_CTL : Fld := ⟨0x0C0210, 31, 0⟩
def CVU_TEST_CTL_RELEASE : Fld := ⟨0x0C0210, 1, 1⟩
def CVU_TEST_CTL_START : Fld := ⟨0x0C0210, 0, 0⟩
def CVU_TEST_DATA : Fld := ⟨0x0C0214, 31, 0⟩
def CVU_TEST_DATA1 : Fld := ⟨0x0C0218, 31, 0⟩
def CVU_CKP_CTL : Fld := ⟨0x0C0800, 31, 0⟩
def CVU_CKP_CTL_TRACK : Fld := ⟨0x0C0800, 0, 0⟩
def CVU_CKP_STATUS : Fld := ⟨0x0C0804, 31, 0⟩
def CVU_CKP_STATUS_SCANNING : Fld := ⟨0x0C0804, 31, 31⟩
def CVU_CKP_STATUS_SENDING : Fld := ⟨0x0C0804, 30, 30⟩
def CVU_CKP_STATUS_ALL_DIRTY : Fld := ⟨0x0C0804, 29, 29⟩
def CVU_CKP_EPOCH : Fld := ⟨0x0C0808, 31, 0⟩
def CVU_CKP_GRANULES : Fld := ⟨0x0C080C, 31, 0⟩
def CVU_CKP_ACTIVE_COUNT : Fld := ⟨0x0C0810, 31, 0⟩
def CVU_CKP_FROZEN_COUNT : Fld := ⟨0x0C0814, 31, 0⟩
def CVU_CKP_COMMITTED_LO : Fld := ⟨0x0C0818, 31, 0⟩
def CVU_CKP_COMMITTED_HI : Fld := ⟨0x0C081C, 31, 0⟩
def CVU_CKP_MISMATCH : Fld := ⟨0x0C0820, 31, 0⟩
def CVU_CKP_RESENT : Fld := ⟨0x0C0824, 31, 0⟩
/-! ### Names of block TEL -/

def TEL_CFG : Fld := ⟨0x0D0000, 31, 0⟩
def TEL_CFG_INTERVAL_MS : Fld := ⟨0x0D0000, 15, 0⟩
def TEL_DST (i : Nat) : Fld := ⟨0x0D0010 + 0x4 * i, 31, 0⟩
def TEL_DST_EN (i : Nat) : Fld := ⟨0x0D0010 + 0x4 * i, 31, 31⟩
def TEL_DST_EID (i : Nat) : Fld := ⟨0x0D0010 + 0x4 * i, 17, 0⟩
def TEL_SEQ : Fld := ⟨0x0D0020, 31, 0⟩
def TEL_SENT_LO : Fld := ⟨0x0D0028, 31, 0⟩
def TEL_SENT_HI : Fld := ⟨0x0D002C, 31, 0⟩
def TEL_DROPPED : Fld := ⟨0x0D0030, 31, 0⟩
def TEL_DROPPED_LIFE_LO : Fld := ⟨0x0D0038, 31, 0⟩
def TEL_DROPPED_LIFE_HI : Fld := ⟨0x0D003C, 31, 0⟩
def TEL_CNT_VIOL_STATE : Fld := ⟨0x0D00F0, 31, 0⟩
def TEL_CNT_VIOL_ACCESS : Fld := ⟨0x0D00F4, 31, 0⟩
def TEL_CNT_VIOL_RSVD : Fld := ⟨0x0D00F8, 31, 0⟩

end Sys2Proof.Machine
end

