-- ==== Sys2Proof/Machine/Ops.lean ====
section
/-! DEFINITION. The named operations that every family uses: maps kept as rising lists, bit fields of numbers, bytes,
registers and their fields, violation counters, the variant, and the phase and lock tests. -/

namespace Sys2Proof.Machine

set_option Elab.async false

/-! ## Maps: lists of (key, value) with rising keys -/

/-- The value listed under `k`. -/
def mget {α : Type} : List (Nat × α) → Nat → Option α
  | [], _ => none
  | (a, v) :: t, k => if a = k then some v else mget t k

/-- List `v` under `k`, keeping the keys rising. -/
def mput {α : Type} (k : Nat) (v : α) : List (Nat × α) → List (Nat × α)
  | [] => [(k, v)]
  | (a, w) :: t => if k < a then (k, v) :: (a, w) :: t else if k = a then (k, v) :: t else (a, w) :: mput k v t

/-- Take `k` off the list. -/
def merase {α : Type} (k : Nat) (l : List (Nat × α)) : List (Nat × α) := l.filter fun e => e.1 != k

/-- The value under `k`, `d` where none is listed. -/
def mgetD {α : Type} (l : List (Nat × α)) (k : Nat) (d : α) : α := (mget l k).getD d

/-- Change the value under `k`, starting from `d` where none is listed. -/
def mmod {α : Type} (k : Nat) (d : α) (f : α → α) (l : List (Nat × α)) : List (Nat × α) := mput k (f (mgetD l k d)) l

/-- Keys strictly rising. -/
def rising {α : Type} : List (Nat × α) → Bool
  | [] => true
  | [_] => true
  | (a, _) :: (b, w) :: t => decide (a < b) && rising ((b, w) :: t)

/-- Replace element `i` of a list. -/
def lset {α : Type} (l : List α) (i : Nat) (v : α) : List α := l.set i v

/-- Remove one element by its place. -/
def ldrop {α : Type} (l : List α) (i : Nat) : List α := l.take i ++ l.drop (i + 1)

/-- Cut a list into pieces of `n` (fuel: its length). -/
def chunksAux {α : Type} (n : Nat) : Nat → List α → List (List α)
  | 0, _ => []
  | _ + 1, [] => []
  | f + 1, l => l.take n :: chunksAux n f (l.drop n)

def chunksOf {α : Type} (n : Nat) (l : List α) : List (List α) := chunksAux n l.length l

/-- Apply `f` for i = 0 … n − 1 in order. -/
def iter {α : Type} (n : Nat) (f : Nat → α → α) (a : α) : α := (List.range n).foldl (fun x i => f i x) a

/-! ## Numbers, bits, bytes -/

/-- Replace bits [hi:lo] of `w` by the low bits of `v`. -/
def putBits (w hi lo v : Nat) : Nat := w - bitsOf w hi lo * 2 ^ lo + v % 2 ^ (hi + 1 - lo) * 2 ^ lo

/-- Bit `i` of a number. -/
def bitAt (v i : Nat) : Bool := v.testBit i

/-- Set or clear bit `i`. -/
def putBit (v i : Nat) (b : Bool) : Nat := putBits v i i (if b then 1 else 0)

def b2n (b : Bool) : Nat := if b then 1 else 0

/-- The number of 1 bits among the low `n`. -/
def popN (n v : Nat) : Nat := ((List.range n).filter fun i => v.testBit i).length

/-- The places of the 1 bits among the low `n`, rising. -/
def bitList (n v : Nat) : List Nat := (List.range n).filter fun i => v.testBit i

/-- The number whose 1 bits are these places. -/
def maskOf (l : List Nat) : Nat := l.foldl (fun a i => putBit a i true) 0

/-- Lowest 1 bit among the low `n`. -/
def lowest (n v : Nat) : Option Nat := (bitList n v).head?

/-- `n` bytes of a number, least significant first (R180). -/
def leBytes : Nat → Nat → List (BitVec 8)
  | 0, _ => []
  | n + 1, v => BitVec.ofNat 8 v :: leBytes n (v / 256)

/-- The number that bytes spell, least significant first. -/
def leNum : List (BitVec 8) → Nat
  | [] => 0
  | b :: t => b.toNat + 256 * leNum t

/-- `n` bytes of `l` from `i`, absent bytes 0. -/
def slice (l : List (BitVec 8)) (i n : Nat) : List (BitVec 8) := (l.drop i).take n ++ List.replicate (n - ((l.drop i).take n).length) 0

/-- A field of bytes read as a number, least significant first. -/
def leAt (l : List (BitVec 8)) (i n : Nat) : Nat := leNum (slice l i n)

def byteAt (l : List (BitVec 8)) (i : Nat) : Nat := (l.getD i 0).toNat

/-- Put bytes into `l` from place `i`. -/
def splice (l : List (BitVec 8)) (i : Nat) (b : List (BitVec 8)) : List (BitVec 8) := l.take i ++ b ++ l.drop (i + b.length)

def zeros (n : Nat) : List (BitVec 8) := List.replicate n 0

/-- Bytewise exclusive or. -/
def xorBytes (a b : List (BitVec 8)) : List (BitVec 8) := List.zipWith (· ^^^ ·) a b

def wrap32 (v : Nat) : Nat := v % 2 ^ 32

/-- Add with a ceiling. -/
def satAdd (cap a b : Nat) : Nat := min cap (a + b)

/-! ## Registers -/

/-- The block that holds an offset (Table 22.1), and the offset within it. -/
def blkOf (off : Nat) : Option (Blk × Nat) :=
  if off < 0x1000 then some (.glb, off)
  else if off < 0x2000 then some (.clk, off - 0x1000)
  else if off < 0x3000 then some (.rst, off - 0x2000)
  else if off < 0x4000 then some (.otp, off - 0x3000)
  else if off < 0x5000 then some (.thm, off - 0x4000)
  else if off < 0x6000 then some (.flt, off - 0x5000)
  else if off < 0x7000 then some (.recorder, off - 0x6000)
  else if off < 0x8000 then some (.qos, off - 0x7000)
  else if off < 0xC000 then some (.ring, off - 0x8000)
  else if off < 0x10000 then some (.rt, off - 0xC000)
  else if off < 0x20000 then some (.port, off - 0x10000)
  else if off < 0x60000 then some (.lane, off - 0x20000)
  else if off < 0x80000 then some (.chan, off - 0x60000)
  else if off < 0x90000 then some (.marl, off - 0x80000)
  else if off < 0xA0000 then some (.fox, off - 0x90000)
  else if off < 0xB0000 then some (.vcp, off - 0xA0000)
  else if off < 0xC0000 then some (.bst, off - 0xB0000)
  else if off < 0xD0000 then some (.cvu, off - 0xC0000)
  else if off < 0xE0000 then some (.tel, off - 0xD0000)
  else none

/-- Does an array of registers (base, (count, stride) of each index) hold the offset? -/
def inArray (base : Nat) : List (Nat × Nat) → Nat → Bool
  | [], o => o == base
  | [(n, st)], o => decide (base ≤ o) && (o - base) % st == 0 && decide ((o - base) / st < n)
  | (n, st) :: (m, t) :: _, o =>
    decide (base ≤ o) && decide ((o - base) / st < n) && ((o - base) % st) % t == 0 && decide ((o - base) % st / t < m)

/-- The register at an offset. -/
def descOf (off : Nat) : Option RegDesc :=
  match blkOf off with
  | none => none
  | some (b, o) => (blkRegs b).find? fun r => inArray r.off r.dims o

/-- Reset value of a register (Tables 22.5 to 22.11); values that P1 sets by variant are written then. -/
def resetValue (off : Nat) : BitVec 32 :=
  match blkOf off with
  | none => 0
  | some (.port, o) =>
    if o % 0x800 = 0x004 then BitVec.ofNat 32 (o / 0x800 % 2)
    else if o % 0x800 = 0x220 then 0x100
    else match descOf off with
      | none => 0
      | some r => BitVec.ofNat 32 r.reset
  | some (.fox, 0x8100) => 0
  | some (b, o) =>
    match (blkRegs b).find? fun r => inArray r.off r.dims o with
    | none => 0
    | some r => BitVec.ofNat 32 r.reset

/-- The stored value of a register. -/
def State.reg (s : State) (off : Nat) : Nat := ((mget s.regs off).getD (resetValue off)).toNat

/-- Store a register; a value equal to the reset value is not listed. -/
def State.setReg (s : State) (off v : Nat) : State :=
  let w := BitVec.ofNat 32 v
  { s with regs := if w = resetValue off then merase off s.regs else mput off w s.regs }

/-- A field of a register. -/
def State.fld (s : State) (f : Fld) : Nat := bitsOf (s.reg f.off) f.hi f.lo

/-- Is the field not 0? -/
def State.on (s : State) (f : Fld) : Bool := s.fld f != 0

/-- Write a field, leaving the register's other bits. -/
def State.set (s : State) (f : Fld) (v : Nat) : State := s.setReg f.off (putBits (s.reg f.off) f.hi f.lo v)

/-- Write several fields. -/
def State.sets (s : State) (l : List (Fld × Nat)) : State := l.foldl (fun t p => t.set p.1 p.2) s

/-- Add to a counter, modulo the width of its field (R467). -/
def State.incBy (s : State) (f : Fld) (n : Nat) : State := s.set f (s.fld f + n)

def State.inc (s : State) (f : Fld) : State := s.incBy f 1

/-- Add to a counter that saturates at the top of its field. -/
def State.incSat (s : State) (f : Fld) : State := s.set f (satAdd (2 ^ (f.hi + 1 - f.lo) - 1) (s.fld f) 1)

/-- A 64-bit counter held as a pair, by the name of its low half (R466). -/
def State.pair (s : State) (lo : Fld) : Nat := s.reg lo.off + 2 ^ 32 * s.reg (lo.off + 4)

def State.setPair (s : State) (lo : Fld) (v : Nat) : State :=
  (s.setReg lo.off (v % 2 ^ 32)).setReg (lo.off + 4) (v / 2 ^ 32 % 2 ^ 32)

def State.incPair (s : State) (lo : Fld) (n : Nat) : State := s.setPair lo (s.pair lo + n)

/-- The three violation counters every block has (Table 22.4). -/
inductive Viol | state | access | rsvd
  deriving DecidableEq, Repr

def violOff : Viol → Nat
  | .state => 0x0F0
  | .access => 0x0F4
  | .rsvd => 0x0F8

/-- Offset of a violation counter of the block (or of the PORT, LANE or CHAN instance) that holds `off` (R461, R468). -/
def violReg (off : Nat) (v : Viol) : Nat :=
  match blkOf off with
  | none => violOff v
  | some (.port, o) => 0x10000 + o / 0x800 * 0x800 + violOff v
  | some (.lane, o) => 0x20000 + o / 0x400 * 0x400 + violOff v
  | some (.chan, o) => 0x60000 + o / 0x1000 * 0x1000 + violOff v
  | some (.fox, _) => 0x98000 + violOff v
  | some (_, o) => off - o + violOff v

/-- Count a violation in the block that holds `off`. -/
def State.viol (s : State) (off : Nat) (v : Viol) : State :=
  let r := violReg off v
  s.setReg r (wrap32 (s.reg r + 1))

/-! ## Status codes of packets (Table 9.5) -/

def stOK : BitVec 8 := 0x00
def stPOISON : BitVec 8 := 0x01
def stACCESS : BitVec 8 := 0x02
def stSTATE : BitVec 8 := 0x03
def stUNREACH : BitVec 8 := 0x04
def stMALFORMED : BitVec 8 := 0x06
def stFENCED : BitVec 8 := 0x08
def stRANGE : BitVec 8 := 0x09
def stOVERCOMMIT : BitVec 8 := 0x0A

/-! ## The variant and its parts (Table 0.1) -/

/-- Variant code 0x96, 0x72 or 0x48 as voted (R97). -/
def State.variant (s : State) : Nat := s.fuse.variantCode.toNat

def State.k48 (s : State) : Bool := s.variant == 0x48

/-- Ports 0 to n − 1 are present. -/
def State.nPorts (s : State) : Nat := if s.variant = 0x48 then 16 else 32
def State.nChans (s : State) : Nat := if s.variant = 0x96 then 32 else if s.variant = 0x72 then 24 else 16
def State.nSlices (s : State) : Nat := if s.variant = 0x48 then 32 else 64
def State.nEngines (s : State) : Nat := if s.variant = 0x48 then 16 else 32
def State.nEarths (s : State) : Nat := if s.variant = 0x48 then 2 else 4
/-- Active DRAM layers are 2 to this one. -/
def State.topLayer (s : State) : Nat := 1 + s.nChans / 2

/-! ## Phase, lock, free draws -/

/-- PHASE of Table 4.4. -/
def State.phase (s : State) : Nat := s.fld GLB_START_STATUS_PHASE
/-- READY is PHASE 8 (Table 4.4). -/
def State.ready (s : State) : Bool := s.phase == 8
/-- GLB_LOCK. -/
def State.locked (s : State) : Bool := s.fld GLB_LOCK_LOCK == 1
/-- STATE of GLB_PWR_STATUS: 0 to 3 for S0 to S3. -/
def State.sleep (s : State) : Nat := s.fld GLB_PWR_STATUS_STATE

/-- Does the clock of a domain run (R54)? `g` is the index of its gate register and `i` its bit there. -/
def State.domainOn (s : State) (g i : Nat) : Bool :=
  let gate := fun (f : Fld) => bitAt (s.reg (f.off + 4 * g)) i
  if s.sleep = 3 then g == 3 && i == 0 && gate CLK_GATE_DEEP_CHN
  else if s.sleep = 2 then gate CLK_GATE_SLEEP_CHN
  else gate CLK_GATE_RUN_CHN && !(s.sleep == 1 && g == 3 && decide (3 ≤ i))
/-- The clocks of MGT, FAB, an engine and a channel with its layer run (Table 3.2). -/
def State.mgtOn (s : State) : Bool := s.domainOn 3 0
def State.fabOn (s : State) : Bool := s.domainOn 3 1
def State.foxOn (s : State) (e : Nat) : Bool := s.domainOn 3 (3 + e / 8)
def State.chnOn (s : State) (c : Nat) : Bool := s.domainOn 0 c && s.domainOn 2 (c / 2)

/-- The entries of a list with their places. -/
def enum {α : Type} (l : List α) : List (Nat × α) := (List.range l.length).zip l

/-- Change one link, channel, ring, lane, engine or column. -/
def State.link (s : State) (p m : Nat) : Link := mgetD s.links (p * 8 + m) {}
def State.setLink (s : State) (p m : Nat) (l : Link) : State := { s with links := mput (p * 8 + m) l s.links }
def State.lane (s : State) (l : Nat) : Lane := mgetD s.lanes l {}
def State.setLane (s : State) (l : Nat) (x : Lane) : State := { s with lanes := mput l x s.lanes }
def State.chn (s : State) (c : Nat) : Chan := mgetD s.chan.chans c {}
def State.setChn (s : State) (c : Nat) (x : Chan) : State := { s with chan := { s.chan with chans := mput c x s.chan.chans } }
def State.ring (s : State) (n : Nat) : Ring := mgetD s.rings n {}
def State.setRing (s : State) (n : Nat) (x : Ring) : State := { s with rings := mput n x s.rings }
def State.eng (s : State) (e : Nat) : Engine := mgetD s.fox.engines e {}
def State.setEng (s : State) (e : Nat) (x : Engine) : State := { s with fox := { s.fox with engines := mput e x s.fox.engines } }
def State.col (s : State) (c : Nat) : Column := mgetD s.vcp.cols c {}
def State.setCol (s : State) (c : Nat) (x : Column) : State := { s with vcp := { s.vcp with cols := mput c x s.vcp.cols } }

/-- Apply `f` to the state for every element of a list, in order. -/
def State.each {α : Type} (s : State) (l : List α) (f : State → α → State) : State := l.foldl f s

/-- `f` where the condition holds. -/
def State.when (s : State) (b : Bool) (f : State → State) : State := if b then f s else s

/-- The outcome of every meaning of this block: a next state. -/
abbrev Out := Host.Outcome State Fault Refusal

end Sys2Proof.Machine
end

