-- ==== Sys2Proof/Machine/Codes.lean ====
section
/-! DEFINITION. The codes of the stack: cyclic redundancy checks (R136), Reed–Solomon over GF(2^8) (R113, R375), the
lane scrambler (R112). -/

namespace Sys2Proof.Machine

set_option Elab.async false

/-! ## Cyclic redundancy checks, reflected -/

/-- One bit of a reflected CRC with reversed polynomial `poly`. -/
def crcBit (poly r : Nat) : Nat := if r % 2 = 1 then (r / 2) ^^^ poly else r / 2

/-- One byte of a reflected CRC. -/
def crcByte (poly r : Nat) (b : BitVec 8) : Nat :=
  let x := r ^^^ b.toNat
  crcBit poly (crcBit poly (crcBit poly (crcBit poly (crcBit poly (crcBit poly (crcBit poly (crcBit poly x)))))))

/-- CRC-32C with the parameters of R136: polynomial 0x1EDC6F41 reflected, initial value and final XOR all ones. -/
def crc32c (l : List (BitVec 8)) : Nat := l.foldl (crcByte 0x82F63B78) 0xFFFFFFFF ^^^ 0xFFFFFFFF

/-! ## GF(2^8) with x^8 + x^4 + x^3 + x^2 + 1 (R113) -/

/-- Multiply by α = 0x02. -/
def gfDouble (a : Nat) : Nat := if a < 128 then 2 * a else (2 * a) ^^^ 0x11D

def gfMulAux : Nat → Nat → Nat → Nat
  | 0, _, _ => 0
  | n + 1, a, b => (if b % 2 = 1 then a else 0) ^^^ gfMulAux n (gfDouble a) (b / 2)

def gfMul (a b : Nat) : Nat := gfMulAux 8 a b

/-- α^n. -/
def gfExp : Nat → Nat
  | 0 => 1
  | n + 1 => gfDouble (gfExp n)

/-- a^254, the inverse. -/
def gfInv (a : Nat) : Nat :=
  let a2 := gfMul a a
  let a4 := gfMul a2 a2
  let a8 := gfMul a4 a4
  let a16 := gfMul a8 a8
  let a32 := gfMul a16 a16
  let a64 := gfMul a32 a32
  let a128 := gfMul a64 a64
  gfMul a2 (gfMul a4 (gfMul a8 (gfMul a16 (gfMul a32 (gfMul a64 a128)))))

/-- Value of a polynomial, highest coefficient first. -/
def gfEvalHi (p : List Nat) (x : Nat) : Nat := p.foldl (fun a c => gfMul a x ^^^ c) 0

/-- Value of a polynomial, lowest coefficient first. -/
def gfEvalLo (p : List Nat) (x : Nat) : Nat := gfEvalHi p.reverse x

/-- Product with (x − r), coefficients lowest first. -/
def gfMulRoot (r : Nat) (p : List Nat) : List Nat :=
  List.zipWith (· ^^^ ·) (0 :: p) ((p.map (gfMul r)) ++ [0])

/-- Generator with roots α^0 … α^(k−1), lowest first. -/
def rsGen : Nat → List Nat
  | 0 => [1]
  | k + 1 => gfMulRoot (gfExp k) (rsGen k)

/-- Systematic parity of `msg` (byte 0 the highest degree): `k` bytes, highest degree first. -/
def rsParity (k : Nat) (msg : List (BitVec 8)) : List (BitVec 8) :=
  let g := (rsGen k).reverse.tail
  let r := msg.foldl (fun reg b =>
    let f := reg.headD 0 ^^^ b.toNat
    List.zipWith (fun x c => x ^^^ gfMul f c) (reg.tail ++ [0]) g) (List.replicate k 0)
  r.map (BitVec.ofNat 8)

/-- Syndromes at α^0 … α^(k−1). -/
def rsSyndromes (k : Nat) (w : List (BitVec 8)) : List Nat :=
  (List.range k).map fun i => gfEvalHi (w.map (·.toNat)) (gfExp i)

/-- State of the Berlekamp–Massey iteration: C, B, L, m, b. -/
structure BmSt where
  c : List Nat
  b : List Nat
  l : Nat
  m : Nat
  bd : Nat
  deriving DecidableEq, Repr

def polyAdd : List Nat → List Nat → List Nat
  | [], q => q
  | p, [] => p
  | a :: p, b :: q => (a ^^^ b) :: polyAdd p q

/-- One step of Berlekamp–Massey at syndrome `n`. -/
def bmStep (syn : List Nat) (s : BmSt) (n : Nat) : BmSt :=
  let d := (List.range (s.l + 1)).foldl (fun a i => a ^^^ gfMul (s.c.getD i 0) (if i ≤ n then syn.getD (n - i) 0 else 0)) 0
  if d = 0 then { s with m := s.m + 1 }
  else
    let corr := List.replicate s.m 0 ++ s.b.map (gfMul (gfMul d (gfInv s.bd)))
    let c' := polyAdd s.c corr
    if 2 * s.l ≤ n then { c := c', b := s.c, l := n + 1 - s.l, m := 1, bd := d }
    else { s with c := c', m := s.m + 1 }

/-- Error locator and its length. -/
def bmRun (k : Nat) (syn : List Nat) : BmSt :=
  (List.range k).foldl (bmStep syn) { c := [1], b := [1], l := 0, m := 1, bd := 1 }

/-- Formal derivative in characteristic 2, lowest first. -/
def polyDeriv (p : List Nat) : List Nat := (List.range (p.length - 1)).map fun i => if i % 2 = 0 then p.getD (i + 1) 0 else 0

/-- Product of two polynomials modulo x^k, lowest first. -/
def polyMulMod (k : Nat) (p q : List Nat) : List Nat :=
  (List.range k).map fun n => (List.range (n + 1)).foldl (fun a i => a ^^^ gfMul (p.getD i 0) (q.getD (n - i) 0)) 0

/-- Errors of a received word as (place, value), byte 0 the highest degree; `none` when more than k / 2 symbols are
wrong as far as the code can tell (R113, R377). -/
def rsErrors (k : Nat) (w : List (BitVec 8)) : Option (List (Nat × Nat)) :=
  let syn := rsSyndromes k w
  if syn.all (· == 0) then some []
  else
    let s := bmRun k syn
    let n := w.length
    let xs := (List.range n).filter fun j => gfEvalLo s.c (gfInv (gfExp (n - 1 - j))) == 0
    if s.l * 2 ≤ k ∧ xs.length = s.l then
      let om := polyMulMod k syn s.c
      let dv := polyDeriv s.c
      some (xs.map fun j =>
        let x := gfExp (n - 1 - j)
        let xi := gfInv x
        (j, gfMul x (gfMul (gfEvalLo om xi) (gfInv (gfEvalLo dv xi)))))
    else none

/-- Apply errors to a word. -/
def rsApply (w : List (BitVec 8)) (es : List (Nat × Nat)) : List (BitVec 8) :=
  es.foldl (fun a e => a.set e.1 ((a.getD e.1 0) ^^^ BitVec.ofNat 8 e.2)) w

/-! ## Symbols of a lane (R110) -/

/-- The bits of a unit in the order they leave the lane: bit 0 of byte 0 first. -/
def laneBits (l : List (BitVec 8)) : List Bool := l.flatMap fun b => (List.range 8).map fun i => b.getLsbD i

/-- Table 6.2: the level of a pair, its first bit the more significant. -/
def pam4Level (first second : Bool) : Nat := if first then (if second then 2 else 3) else (if second then 1 else 0)

/-- Levels of pairs of bits. -/
def pam4Levels : List Bool → List Nat
  | a :: b :: t => pam4Level a b :: pam4Levels t
  | _ => []

/-- The levels of a unit: 0 and 1 in NRZ, 1 the positive one; 0 to 3 at PAM4. -/
def laneLevels (pam4 : Bool) (l : List (BitVec 8)) : List Nat := if pam4 then pam4Levels (laneBits l) else (laneBits l).map b2n

/-! ## Pseudo-random patterns (R115, R130) -/

/-- The two taps of a pattern by its PATTERN code: x^n + x^k + 1. -/
def prbsTaps (pat : Nat) : Nat × Nat := if pat = 0 then (7, 6) else if pat = 1 then (15, 14) else if pat = 2 then (23, 18) else (31, 28)

/-- The bit that a register gives next, before inversion. -/
def prbsNext (pat r : Nat) : Nat := (r / 2 ^ ((prbsTaps pat).1 - 1) % 2) ^^^ (r / 2 ^ ((prbsTaps pat).2 - 1) % 2)

/-- Shift a bit into a register. -/
def prbsShift (pat r bit : Nat) : Nat := (2 * r + bit) % 2 ^ (prbsTaps pat).1

/-- ITU-T O.150 inverts the output of all but PRBS7. -/
def prbsInv (pat : Nat) : Nat := b2n (pat != 0)

/-- One byte of a pattern, bit 0 first, and the register after it. -/
def prbsByte (pat r : Nat) : Nat × BitVec 8 :=
  let a := (List.range 8).foldl (fun (a : Nat × Nat) i =>
    (prbsShift pat a.1 (prbsNext pat a.1), a.2 + (prbsNext pat a.1 ^^^ prbsInv pat) * 2 ^ i)) (r, 0)
  (a.1, BitVec.ofNat 8 a.2)

/-- `n` bytes of a pattern, and the register after them. -/
def prbsBytes (pat n r : Nat) : Nat × List (BitVec 8) :=
  (List.range n).foldl (fun (a : Nat × List (BitVec 8)) _ =>
    let b := prbsByte pat a.1
    (b.1, a.2 ++ [b.2])) (r, [])

/-- A pattern checker: its register, correct bits in a row, lock, and wrong bits found while in lock. -/
structure PrbsChk where
  reg : Nat
  run : Nat
  lock : Bool
  wrong : Nat
  deriving DecidableEq, Repr

/-- One bit at a checker (R130): out of lock the register takes the bits that arrive, and 64 of them in a row that follow from
the ones before give lock; in lock it runs on by itself. -/
def PrbsChk.bit (pat : Nat) (c : PrbsChk) (arrived : Bool) : PrbsChk :=
  let b := b2n arrived ^^^ prbsInv pat
  let p := prbsNext pat c.reg
  if c.lock then { c with reg := prbsShift pat c.reg p, wrong := c.wrong + b2n (b != p) }
  else
    let run := if b == p && c.reg != 0 then c.run + 1 else 0
    { c with reg := prbsShift pat c.reg b, run := min 64 run, lock := decide (64 ≤ run) }

/-! ## The lane scrambler (R112) -/

/-- One bit of the generator: its output and next register. -/
def scrBit (s : Nat) : Nat × Nat :=
  let o := (s / 2 ^ 22 % 2) ^^^ (s / 2 ^ 17 % 2)
  (o, 2 * s % 2 ^ 23 + o)

/-- One byte XORed with eight generator bits, bit 0 first (R110). -/
def scrByte (s : Nat) (b : BitVec 8) : Nat × BitVec 8 :=
  let r := (List.range 8).foldl (fun (a : Nat × Nat) i => ((scrBit a.1).2, a.2 + (scrBit a.1).1 * 2 ^ i)) (s, 0)
  (r.1, b ^^^ BitVec.ofNat 8 r.2)

/-- The scrambled bytes of one lane, and the register after them. -/
def scrBytes (s : Nat) : List (BitVec 8) → Nat × List (BitVec 8)
  | [] => (s, [])
  | b :: t => ((scrBytes (scrByte s b).1 t).1, (scrByte s b).2 :: (scrBytes (scrByte s b).1 t).2)

/-- The register loaded after an alignment marker. -/
def scrSeed (lane amSeq : Nat) : Nat := 0x7A0000 ||| (lane * 0x100) ||| amSeq

end Sys2Proof.Machine
end

