-- ==== Sys2Proof/Config.lean ====
section
/-! DEFINITION. The values the spec leaves open: opaque constants without a body, applied to a draw number (the field
`free` of State, log entry 2). Nothing in Lean can prove a value of one. -/

namespace Sys2Proof

set_option Elab.async false

/-- Byte `i` of the `n`-th string of undefined bytes: contents of memory that nothing has written (R381), payload of a
poisoned block (R186), padding the spec leaves open. -/
opaque Config.freeByte (n i : Nat) : BitVec 8

/-- The `n`-th undefined number: a value the spec names and does not give. -/
opaque Config.freeNat (n : Nat) : Nat

/-- Unit, among those of the buffer banks of a slice, that takes the `n`-th cell placed: R215 gives a cell its slice, no rule its unit. -/
opaque Config.cellUnit (n : Nat) : Nat

/-- Which cells an interrupted pulse has reached (R102): the `n`-th undefined mask. -/
opaque Config.freeMask (n : Nat) : BitVec 128

/-- Byte `i` of the configuration area of the Sett that holds these contents: Table 19.1 gives the area, no rule its
layout. -/
opaque Config.cfgAreaByte (contents : List Nat) (i : Nat) : BitVec 8

/-- Low 16 bits of the die ID of a layer as rows 0 to 3 of IDENT hold it: R90 gives the region's contents, no rule where in
it a word lies. -/
opaque Config.identDie (rows : List Nat) (layer : Nat) : BitVec 16

/-- SHA-384 hash of the firmware public key, or of the debug authorisation key, as the rows of KEYS hold it: R90 gives the
region's contents, no rule where in it a hash lies. -/
opaque Config.keyHash (rows : List Nat) (debug : Bool) : List (BitVec 8)

/-- The `n`-th content captured from a test chain: the boundary register, the IJTAG network or the scan chains, whose length
and order no rule gives (R454). -/
opaque Config.chain (n : Nat) : List (BitVec 8)

/-- Gain and threshold (low byte) and sampling delay (high byte) of the TRIM flat code of a receiver of a column, keyed as `coilKey`
does: R90 gives the region's contents, no rule where in it a code lies. With no rows, the ROM nominal code (Table 5.4). -/
opaque Config.coilFlat (trim : List Nat) (c key : Nat) : BitVec 24

/-- Bow of a die in 0.1 µm, from the rows of TRIM (Table 12.3), or the ROM nominal one. -/
opaque Config.dieBow (trim : List Nat) (die : Nat) : Nat

/-- Distance of a coil of a column from the die centre, in 10 µm (Table 12.3). -/
opaque Config.coilRadius (c coil : Nat) : Nat

/-- Stress class of a coil of a column (Table 12.3): its distance from the power-via clusters decides, which no rule gives. -/
opaque Config.stressClass (c coil : Nat) : Fin 3

end Sys2Proof
end

