-- ==== Sys2Proof/Machine/Packet.lean ====
section
/-! DEFINITION. Packets: the header to the bit (Table 9.1), flit contents (R135), opcodes, virtual channels (R146) and
responses (R184). -/

namespace Sys2Proof.Machine

set_option Elab.async false

/-- The 256 header bits of Table 9.1, bit 0 of byte 0 first. -/
def hdrBits (h : Hdr) : BitVec 256 :=
  h.addr ++ (h.rsv.extractLsb' 15 48 ++ (h.flags ++ (h.age ++ (h.hops ++ (h.rsv.extractLsb' 9 6 ++ (h.src ++
    (h.rsv.extractLsb' 3 6 ++ (h.dst ++ (h.rsv.extractLsb' 0 3 ++ (h.len ++ (h.tag ++ (h.label ++ (h.status ++
      (h.subop ++ h.opc))))))))))))))

/-- The header that 256 bits spell. -/
def hdrOfBits (b : BitVec 256) : Hdr where
  opc := b.extractLsb' 0 8
  subop := b.extractLsb' 8 8
  status := b.extractLsb' 16 8
  label := b.extractLsb' 24 8
  tag := b.extractLsb' 32 16
  len := b.extractLsb' 48 13
  dst := b.extractLsb' 64 18
  src := b.extractLsb' 88 18
  hops := b.extractLsb' 112 8
  age := b.extractLsb' 120 8
  flags := b.extractLsb' 128 16
  addr := b.extractLsb' 192 64
  rsv := b.extractLsb' 144 48 ++ (b.extractLsb' 106 6 ++ (b.extractLsb' 82 6 ++ b.extractLsb' 61 3))

/-- The 32 header bytes (R180). -/
def hdrBytes (h : Hdr) : List (BitVec 8) := (List.range 32).map fun i => (hdrBits h).extractLsb' (8 * i) 8

/-- The header in 32 bytes. -/
def hdrOfBytes (l : List (BitVec 8)) : Hdr := hdrOfBits (BitVec.ofNat 256 (leNum (l.take 32)))

/-- Flits a packet of `n` payload bytes takes (R135); LEN above 4,096 is framed as 65 (R182). -/
def flitsOfLen (n : Nat) : Nat := if n > 4096 then 65 else 1 + (n - 32 + 63) / 64

end Sys2Proof.Machine

namespace Sys2Proof
open Sys2Proof.Machine

def Packet.flits (p : Packet) : Nat := flitsOfLen p.hdr.len.toNat

/-- The 64-byte contents of a packet's flits, in order (R135). -/
def Packet.contents (p : Packet) : List (List (BitVec 8)) :=
  (List.range p.flits).map fun k => slice (hdrBytes p.hdr ++ p.payload) (64 * k) 64

end Sys2Proof

namespace Sys2Proof.Machine

/-- The packet in the contents of its flits. -/
def packetOf (l : List (BitVec 8)) : Packet :=
  let h := hdrOfBytes l
  { hdr := h, payload := (l.drop 32).take h.len.toNat }

/-! ## Opcodes (Table 9.3) -/

def opRD : BitVec 8 := 0x01
def opWR : BitVec 8 := 0x02
def opWRP : BitVec 8 := 0x03
def opATOM : BitVec 8 := 0x04
def opSVC : BitVec 8 := 0x10
def opDBELL : BitVec 8 := 0x20
def opMREGRD : BitVec 8 := 0x30
def opMREGWR : BitVec 8 := 0x31
def opALARM : BitVec 8 := 0x40
def opTELEM : BitVec 8 := 0x41
def opRDRSP : BitVec 8 := 0x81
def opWRACK : BitVec 8 := 0x82
def opATOMRSP : BitVec 8 := 0x84
def opSVCRSP : BitVec 8 := 0x90
def opMREGRSP : BitVec 8 := 0xB0

end Sys2Proof.Machine

namespace Sys2Proof
open Sys2Proof.Machine

/-- FLAGS bits (Table 9.2). -/
def Hdr.dlx (h : Hdr) : Bool := h.flags.getLsbD 0
def Hdr.posted (h : Hdr) : Bool := h.flags.getLsbD 1
def Hdr.ordered (h : Hdr) : Bool := h.flags.getLsbD 2
def Hdr.noalloc (h : Hdr) : Bool := h.flags.getLsbD 3

def Hdr.setDlx (h : Hdr) (b : Bool) : Hdr := { h with flags := BitVec.ofNat 16 (putBit h.flags.toNat 0 b) }

end Sys2Proof

namespace Sys2Proof.Machine

end Sys2Proof.Machine

namespace Sys2Proof
open Sys2Proof.Machine

/-- A request, or anything else with an opcode below 0x80. -/
def Hdr.isReq (h : Hdr) : Bool := h.opc.toNat < 0x80

end Sys2Proof

namespace Sys2Proof.Machine

/-- The response opcode of a request (Table 9.3, R184): WRP is answered by WR_ACK, MREG requests by MREG_RSP (log 10). -/
def rspOpc (o : BitVec 8) : Option (BitVec 8) :=
  if o = opRD then some opRDRSP
  else if o = opWR then some opWRACK
  else if o = opWRP then some opWRACK
  else if o = opATOM then some opATOMRSP
  else if o = opSVC then some opSVCRSP
  else if o = opMREGRD then some opMREGRSP
  else if o = opMREGWR then some opMREGRSP
  else none

end Sys2Proof.Machine

namespace Sys2Proof
open Sys2Proof.Machine

/-- Does the request expect a response (R165, R192)? POSTED is a flag of WR, WRP and ATOM only (R183). -/
def Hdr.expects (h : Hdr) : Bool :=
  (rspOpc h.opc).isSome && !(h.posted && (h.opc == opWR || h.opc == opWRP || h.opc == opATOM))

end Sys2Proof

namespace Sys2Proof.Machine

/-- The opcodes that DLX moves to VC1 or VC3 (Table 7.5). -/
def dlxOpcs : List (BitVec 8) := [opRD, opWR, opWRP, opATOM, opSVC, opDBELL, opRDRSP, opWRACK, opATOMRSP, opSVCRSP]

/-- The opcodes of VC4 (Table 7.5). -/
def isVc4 (o : BitVec 8) : Bool :=
  o == opMREGRD || o == opMREGWR || o == opMREGRSP || o == opALARM || o == opTELEM

end Sys2Proof.Machine

namespace Sys2Proof
open Sys2Proof.Machine

/-- RD, WR, WRP or ATOM. -/
def Hdr.isMem (h : Hdr) : Bool := h.opc == opRD || h.opc == opWR || h.opc == opWRP || h.opc == opATOM

/-- Blocks of a memory request. -/
def Packet.blocks (p : Packet) : Nat := if p.hdr.opc = opWR then p.hdr.len.toNat / 64 else if p.hdr.opc = opATOM then 1 else p.hdr.subop.toNat + 1

/-- The virtual channel of a packet: Table 7.5, and by the opcode alone for a header that the table does not list (R146). -/
def Hdr.vc (h : Hdr) : Nat :=
  if isVc4 h.opc then 4 else (if h.opc.toNat < 0x80 then 0 else 2) + b2n (h.dlx && dlxOpcs.contains h.opc)

end Sys2Proof

namespace Sys2Proof.Machine

/-- An endpoint ID (R153). -/
def eidOf (did sub : Nat) : BitVec 18 := BitVec.ofNat 18 (did * 64 + sub)

/-- DID in use (R152). -/
def State.did (s : State) : Nat := s.fld GLB_DID_DID

/-- The stack's own EID, SUB 0x3F. -/
def State.eid (s : State) : BitVec 18 := eidOf s.did 0x3F

/-- A header of the stack's own, every field not given 0. -/
def mkHdr (opc subop status label : BitVec 8) (tag : BitVec 16) (len : Nat) (dst src : BitVec 18) (flags : BitVec 16)
    (addr : BitVec 64) : Hdr :=
  { opc, subop, status, label, tag, len := BitVec.ofNat 13 len, dst, src, hops := 0, age := 0, flags, addr, rsv := 0 }

/-- The response to a request (R184). -/
def mkRsp (from_ : BitVec 18) (q : Hdr) (status : BitVec 8) (addr : BitVec 64) (payload : List (BitVec 8)) : Packet :=
  { hdr := mkHdr ((rspOpc q.opc).getD 0x80) q.subop status q.label q.tag payload.length q.src from_ 0 addr, payload }

end Sys2Proof.Machine
end

