-- ==== Sys2Proof/Machine/Fabric.lean ====
section
/-! DEFINITION. The switch: admission of links (R157), skip sets and datelines (R162, R163), the routing decision (R161),
buffer accounts (R213 to R217), and putting packets into the switch. -/

namespace Sys2Proof.Machine

set_option Elab.async false

/-! ## Ports and links -/

/-- Links of a port: 2^SPLIT (Table 6.3). -/
def State.nLinks (s : State) (p : Nat) : Nat := 2 ^ s.fld (PORT_LINK_CFG_SPLIT p)
/-- Link width that SPLIT gives. -/
def State.linkW (s : State) (p : Nat) : Nat := 8 / s.nLinks p
def State.lst (s : State) (p m : Nat) : Nat := s.fld (PORT_LINK_STATUS_STATE p m)
def State.role (s : State) (p : Nat) : Nat := if p < s.nPorts then s.fld (PORT_ROLE_ROLE p) else 0
def State.linkEn (s : State) (p : Nat) : Bool := decide (p < s.nPorts) && s.on (PORT_LINK_CFG_LINK_EN p)

/-- STATE codes of Table 6.7: L0, L1 or a retrain. -/
def inService (st : Nat) : Bool := st == 4 || st == 5 || st == 7

/-- Roles RING, XRING and XPOD (R155). -/
def isFabric (r : Nat) : Bool := r == 2 || r == 3 || r == 4

/-- Dimension of a fabric role: 0 pod, 1 ring, 2 position. -/
def dimOfRole (r : Nat) : Nat := 4 - r
def roleOfDim (d : Nat) : Nat := 4 - d

/-- A field of a DID (R152). -/
def didField (did d : Nat) : Nat := did / 16 ^ (2 - d) % 16

/-- RT_MEMBERS[d], the stack's own field reading 1 (Table 8.12). -/
def State.members (s : State) (d : Nat) : Nat := putBit (s.fld (RT_MEMBERS_MASK d)) (didField s.did d) true

/-- R156. -/
def State.consistent (s : State) (p : Nat) : Bool :=
  isFabric (s.role p) && s.role (p ^^^ 1) == s.role p && s.fld (PORT_CFG_DIR p) != s.fld (PORT_CFG_DIR (p ^^^ 1))

/-- Does the partner on link m satisfy Table 8.2? -/
def State.partnerFits (s : State) (p m : Nat) : Bool :=
  let r := s.role p
  let kind := s.fld (PORT_NEIGH_ID_KIND p m)
  if r = 1 then kind == 1
  else if isFabric r then
    let d := dimOfRole r
    let v := s.fld (PORT_NEIGH_ID_DID p m)
    kind == 0 && s.fld (PORT_NEIGH_ID_ROLE p m) == r
      && (List.range 3).all (fun e => if e = d then didField v e != didField s.did e else didField v e == didField s.did e)
      && bitAt (s.members d) (didField v d)
  else false

/-- Admission, the split rule aside (R157). -/
def State.admits0 (s : State) (p m : Nat) : Bool :=
  decide (m < s.nLinks p) && s.on (PORT_NEIGH_ID_VALID p m) && s.on (PORT_NEIGH_ID_ECHO_OK p m) && s.partnerFits p m
    && (!isFabric (s.role p) || s.consistent p)

/-- The lowest-numbered admitted link of a port. -/
def State.firstAdmitted (s : State) (p : Nat) : Option Nat := (List.range (s.nLinks p)).find? fun m => s.admits0 p m

/-- LINK_ADMISSION (R157): the link is admitted. -/
def State.admitted (s : State) (p m : Nat) : Bool :=
  s.admits0 p m && match s.firstAdmitted p with
    | none => false
    | some k => s.fld (PORT_NEIGH_ID_DID p m) == s.fld (PORT_NEIGH_ID_DID p k)
        && s.fld (PORT_NEIGH_ID_KIND p m) == s.fld (PORT_NEIGH_ID_KIND p k)

/-- Admitted links of a port in L0, L1 or a retrain, ascending. -/
def State.goodLinks (s : State) (p : Nat) : List Nat :=
  (List.range (s.nLinks p)).filter fun m => s.admitted p m && inService (s.lst p m)

/-- A port is usable (R157). -/
def State.usable (s : State) (p : Nat) : Bool := !(s.goodLinks p).isEmpty

/-- RT_ADMIT. -/
def State.admitMask (s : State) : Nat := maskOf ((List.range s.nPorts).filter s.usable)

/-- Field of the admitted partner in the port's dimension. -/
def State.partnerField (s : State) (p : Nat) : Option Nat :=
  (s.firstAdmitted p).map fun m => didField (s.fld (PORT_NEIGH_ID_DID p m)) (dimOfRole (s.role p))

/-- Values strictly between f and v, counting upward modulo 16. -/
def between (f v : Nat) : List Nat :=
  (List.range 15).filterMap fun i =>
    let k := i + 1
    if k < (v + 16 - f) % 16 then some ((f + k) % 16) else none

/-- Skip set of a fabric port (R162). -/
def State.skipMask (s : State) (p : Nat) : Nat :=
  if isFabric (s.role p) then
    match s.partnerField p with
    | none => 0
    | some v =>
      let f := didField s.did (dimOfRole (s.role p))
      maskOf (if s.fld (PORT_CFG_DIR p) = 0 then between f v else between v f)
  else 0

/-- The link of the port, which is in a ring, is the dateline of its ring in its direction (R163). -/
def State.dateline (s : State) (p : Nat) : Bool :=
  if !isFabric (s.role p) then false
  else match s.fld (PORT_CFG_DL_MODE p) with
  | 1 => true
  | 2 => false
  | _ => match s.partnerField p with
    | none => false
    | some v =>
      let f := didField s.did (dimOfRole (s.role p))
      if s.fld (PORT_CFG_DIR p) = 0 then decide (v < f) else decide (v > f)

/-- The hash of R158. -/
def routeHash (dst src : BitVec 18) : Nat :=
  let x := dst.toNat ^^^ src.toNat
  (bitsOf x 17 12) ^^^ (bitsOf x 11 6) ^^^ (bitsOf x 5 0)

/-- The link a packet leaves a split port on (R158). -/
def State.linkFor (s : State) (p : Nat) (h : Hdr) : Option Nat :=
  let l := s.goodLinks p
  if l.isEmpty then none else l[routeHash h.dst h.src % l.length]?

/-! ## The routing decision (R161) -/

inductive Route
  /-- to an output port; `enters`: it enters a dimension there -/
  | send (port : Nat) (pkt : Packet) (enters : Bool)
  /-- the chosen port is not usable (R166) -/
  | wait (port : Nat)
  /-- addressed to this stack -/
  | here
  /-- fails, with the status and the counter named -/
  | fail (status : BitVec 8) (ctr : Fld)
  deriving DecidableEq, Repr

/-- Route entry registers of a dimension. -/
def rtValid (d n : Nat) : Fld := if d = 0 then RT_POD_VALID n else if d = 1 then RT_RING_VALID n else RT_POS_VALID n
def rtDir (d n : Nat) : Fld := if d = 0 then RT_POD_DIR n else if d = 1 then RT_RING_DIR n else RT_POS_DIR n
def rtPairs (d n : Nat) : Fld := if d = 0 then RT_POD_PAIRS n else if d = 1 then RT_RING_PAIRS n else RT_POS_PAIRS n

/-- Ports of the named pairs in a direction, pairs ascending. -/
def State.dirPorts (s : State) (pairs dir : Nat) : List Nat :=
  (bitList 16 pairs).flatMap fun k => [2 * k, 2 * k + 1].filter fun p => s.fld (PORT_CFG_DIR p) == dir

/-- `forward` of R161, DLX by R164. -/
def State.routeForward (s : State) (p : Packet) (x t : Nat) (reset : Bool) : Route :=
  if !s.usable x then .wait x
  else if bitAt (s.skipMask x) t then .fail stUNREACH RT_UNREACH
  else
    let dlx := (if reset then false else p.hdr.dlx) || s.dateline x
    .send x { p with hdr := p.hdr.setDlx dlx } reset

/-- `enter` of R161. -/
def State.routeEnter (s : State) (p : Packet) (d t : Nat) : Route :=
  if !s.on (rtValid d t) || !bitAt (s.members d) t then .fail stUNREACH RT_UNREACH
  else
    let dir := s.fld (rtDir d t)
    let pref := s.dirPorts (s.fld (rtPairs d t)) dir
    let other := s.dirPorts (s.fld (rtPairs d t)) (1 - dir)
    let ok := fun x => s.usable x && !bitAt (s.skipMask x) t
    let cand := if (pref.filter ok).isEmpty then other.filter ok else pref.filter ok
    let h := routeHash p.hdr.dst p.hdr.src
    match cand[h % cand.length]? with
    | some x => s.routeForward p x t true
    | none => .wait ((pref[h % pref.length]?).getD 0)

/-- The dimensions in the order pod, ring, position. -/
def State.routeDims (s : State) (p : Packet) (inp : Option Nat) : List Nat → Option Route
  | [] => none
  | d :: ds =>
    let t := didField (p.hdr.dst.toNat / 64) d
    if t = didField s.did d then s.routeDims p inp ds
    else match inp with
      | some x =>
        if s.role x = roleOfDim d then some (s.routeForward p (x ^^^ 1) t false)
        else if isFabric (s.role x) && decide (d < dimOfRole (s.role x)) then some (.fail stUNREACH RT_CNT_VIOL_ROUTE)
        else some (s.routeEnter p d t)
      | none => some (s.routeEnter p d t)

/-- ROUTE_PACKET (R161). -/
def State.route (s : State) (p : Packet) (inp : Option Nat) : Route :=
  if p.hdr.hops.toNat > s.fld RT_CFG_HOP_LIMIT then .fail stUNREACH RT_HOPS_EXCEEDED
  else match s.routeDims p inp [0, 1, 2] with
    | some r => r
    | none =>
      let sub := p.hdr.dst.toNat % 64
      if sub = 0x3F then .here
      else if sub ≥ 32 then .fail stMALFORMED GLB_CNT_VIOL_MALFORMED
      else if s.role sub ≠ 1 then .fail stUNREACH RT_UNREACH
      else if s.usable sub then .send sub p false
      else .wait sub

/-! ## Slices and cells (R215, R219) -/

/-- h of R219. -/
def State.lineHash (s : State) (l : Nat) : Nat :=
  let h := bitsOf l 5 0 ^^^ bitsOf l 11 6 ^^^ bitsOf l 17 12 ^^^ bitsOf l 23 18 ^^^ bitsOf l 29 24 ^^^ bitsOf l 33 30
  if s.k48 then h % 32 else h

/-- MARL_SLICE_MAP entry h. -/
def State.sliceEntry (s : State) (h : Nat) : Nat := s.fld (MARL_SLICE_MAP (h / 4)) / 256 ^ (h % 4) % 256

def State.sliceOf (s : State) (l : Nat) : Nat := s.sliceEntry (s.lineHash l)

/-- Buffer banks of a slice in which a new cell may lie: none that is being given up (R231 step 4). -/
def State.bufBanks (s : State) : Nat := match s.marl.newPart with
  | some v => min (s.fld MARL_PART_BUF_BANKS) (bitsOf v.toNat 3 0)
  | none => s.fld MARL_PART_BUF_BANKS

/-- Slices whose buffer units are in service (R232). -/
def State.bufSlices (s : State) : List Nat := (List.range s.nSlices).filter fun i => !s.marl.retiredSlices.getLsbD i

/-- Slice × 65536 + bank × 4096 + unit of one cell (R215): the slice of the line where a line is concerned, else the next one in
turn; the unit within the slice is open. -/
def State.placeCell (s : State) (line : Option Nat) : Nat :=
  let l := s.bufSlices
  let turn := (l[s.sw.placed % l.length]?).getD 0
  let slice := match line with
    | some n => if l.contains (s.sliceOf n) then s.sliceOf n else turn
    | none => turn
  slice * 65536 + Config.cellUnit s.sw.placed % (s.bufBanks * 4096)

/-- Place cells, one for each entry. -/
def State.placeCells (s : State) (lines : List (Option Nat)) : List Nat × State :=
  lines.foldl (fun a l => (a.1 ++ [a.2.placeCell l], { a.2 with sw := { a.2.sw with placed := a.2.sw.placed + 1 } })) ([], s)

/-- The lines whose slices take the cells of a packet's flits (R215): the line images of RD_RSP, WR and WRP data addressed to this
stack, the header flit and every other packet in turn. -/
def State.cellLines (s : State) (p : Packet) : List (Option Nat) :=
  let h := p.hdr
  let base := if h.opc = opRDRSP then (s.fox.outs.find? fun o => o.tag == h.tag).map fun o => o.pkt.hdr.addr.toNat / 64
    else if h.opc = opWR ∨ h.opc = opWRP then some (h.addr.toNat / 64) else none
  (List.range p.flits).map fun k => if h.dst = s.eid ∧ k ≠ 0 then base.map (· + (k - 1)) else none

/-- Does a cell lie in a slice that is retired, or in a bank being given up? -/
def State.givenUp (s : State) (cell : Nat) : Bool := decide (s.bufBanks ≤ cell / 4096 % 16) || s.marl.retiredSlices.getLsbD (cell / 65536)

/-- Every cell that a packet or a reserved response holds. -/
def State.heldCells (s : State) : List Nat := s.sw.ingress.flatMap (·.held) ++ (s.sw.egress.flatMap (·.held) ++ s.txns.flatMap (·.held))

/-! ## Buffer accounts (R213 to R217) -/

/-- Cells of the buffer portion in service. -/
def State.bufCells (s : State) : Nat :=
  s.bufSlices.length * s.bufBanks * 4096
    - (s.marl.badUnits.filter fun u => decide (u / 4096 % 16 < s.bufBanks) && !s.marl.retiredSlices.getLsbD (u / 65536)).length

/-- Reservation of an egress account. -/
def State.egrRes (s : State) (vc : Nat) : Nat := if vc = 4 then 64 else s.fld MARL_BUF_CFG_EGR_CELLS * 16

/-- All reservations of R213. -/
def State.reservedCells (s : State) : Nat :=
  ((List.range s.nPorts).map fun p =>
    if s.role p = 0 then 0
    else ((List.range 5).map fun v => s.fld (PORT_CRED_INIT_FLITS p v) + s.egrRes v).sum).sum
  + s.fld MARL_BUF_CFG_RSP_RES * 256

/-- Shared cells in service; those in a slice or bank being given up leave the pool as they drain (R231, R232). -/
def State.sharedCells (s : State) : Nat := s.bufCells + (s.heldCells.filter s.givenUp).length - s.reservedCells

/-- Cells an egress account holds. -/
def State.egrUsed (s : State) (port vc : Nat) : Nat :=
  ((s.sw.egress.filter fun o => o.port == port && o.vc == vc && (o.inPort.isSome || vc == 4)).map (·.cells)).sum

/-- Cells of the local response account: responses reserved, and the stack's own packets not yet sent. -/
def State.rspUsed (s : State) : Nat :=
  (s.txns.map (·.cells)).sum + s.fox.svcQueue.length + (s.fox.jobs.filter fun j => j.svc.isSome).length + ((s.sw.egress.filter fun o => o.inPort.isNone && o.vc != 4).map (·.cells)).sum

/-- Cells of the shared pool in use. -/
def State.sharedUsed (s : State) : Nat :=
  ((List.range s.nPorts).flatMap fun p => (List.range 5).map fun v => s.egrUsed p v - s.egrRes v).sum
  + (s.rspUsed - s.fld MARL_BUF_CFG_RSP_RES * 256)

/-- MARL_CELLS_SHARED_FREE. -/
def State.sharedFree (s : State) : Nat := s.sharedCells - s.sharedUsed

/-- Is there room for `n` more cells in an account that uses `used` of `res` (R216)? -/
def State.roomFor (s : State) (used res n : Nat) : Bool :=
  let extra := used + n - max used res
  extra == 0 || (decide (extra ≤ s.sharedFree) && decide ((used + n - res) * 16 ≤ s.fld MARL_BUF_CFG_SHARE_MAX * s.sharedCells))

def State.egrRoom (s : State) (port vc n : Nat) : Bool := s.roomFor (s.egrUsed port vc) (s.egrRes vc) n

/-- Response space for a local request (R217). -/
def State.rspRoom (s : State) (n : Nat) : Bool := s.roomFor s.rspUsed (s.fld MARL_BUF_CFG_RSP_RES * 256) n

/-! ## Putting packets into the switch -/

/-- Port number that stands for the stack's own units in an ingress account. -/
def ownPort : Nat := 32

/-- Something of Table 4.12 begins: the stack leaves S1, and a request for S1 not yet taken is cancelled. -/
def State.activity (s : State) : State :=
  let t := if s.sleep = 1 then s.set GLB_PWR_STATUS_STATE 0 else s
  if t.pwr.s1Req then ({ t with pwr := { t.pwr with s1Req := false } }).set GLB_PWR_STATUS_TARGET 0 else t

/-- A packet joins an egress account; its cells are placed now if they do not lie anywhere yet. -/
def State.addOut (s : State) (o : OutPkt) : State :=
  let (h, t) := if o.held.isEmpty then s.placeCells (s.cellLines o.pkt) else (o.held, s)
  { t with sw := { t.sw with egress := t.sw.egress ++ [{ o with held := h }] } }
/-- A packet joins an ingress account, likewise. -/
def State.addIn (s : State) (i : InPkt) : State :=
  let (h, t) := if i.held.isEmpty then s.placeCells (s.cellLines i.pkt) else (i.held, s)
  { t with sw := { t.sw with ingress := t.sw.ingress ++ [{ i with held := h }] } }

/-- Place a packet of the stack's own by its route; `none` with the failure where it has none. `held` are the cells that hold it
already. -/
def State.place (s : State) (p : Packet) (held : List Nat := []) : State × Option (BitVec 8 × Fld) :=
  let out := fun port (q : Packet) w en =>
    ({ inPort := none, port := port, vc := q.hdr.vc, pkt := q, cells := q.flits, held := held, at_ := s.now, waiting := w, enters := en } : OutPkt)
  match s.route p none with
  | .send port q en => (s.addOut (out port q none en), none)
  | .wait port =>
    if s.fld RT_CFG_LINK_WAIT = 0 then (s, some (stUNREACH, RT_WAIT_EXPIRED))
    else (s.addOut (out port p (some s.now) false), none)
  | .here => (s.addIn { port := ownPort, link := 8, vc := p.hdr.vc, pkt := p, cells := p.flits, held := held, at_ := s.now }, none)
  | .fail st c => (s, some (st, c))

/-- A response of the stack's own: one that fails is discarded and counted in RT_DROP (R165). -/
def State.emitRsp (s : State) (p : Packet) (held : List Nat := []) : State :=
  match s.place p held with
  | (t, none) => t
  | (t, some _) => t.inc RT_DROP

/-- A failed packet (R165). A request that is not answered counts in RT_DROP, as R165 states, and in the counter that its status
names, as R192 and R199 state (log entry 79). -/
def State.failPacket (s : State) (p : Packet) (st : BitVec 8) (c : Fld) : State :=
  if p.hdr.expects then (s.inc c).emitRsp (mkRsp s.eid p.hdr st 0 [])
  else (s.inc RT_DROP).when p.hdr.isReq fun t => t.inc c

/-- Send a packet of the stack's own (R161, R165). -/
def State.emit (s : State) (p : Packet) : State :=
  match s.place p with
  | (t, none) => t
  | (t, some (st, c)) => t.failPacket p st c

/-- Cells and credits that a packet frees as it leaves its ingress account (R147, R216). -/
def State.freeIn (s : State) (i : InPkt) : State :=
  if i.port < 32 && i.link < 8 then
    let l := s.link i.port i.link
    s.setLink i.port i.link
      { l with
        ownRet := l.ownRet.set i.vc ((l.ownRet.getD i.vc 0 + i.cells) % 65536)
        rxHeld := l.rxHeld.set i.vc (l.rxHeld.getD i.vc 0 - i.cells) }
  else s

/-- Is the packet at place `k` the head of its ingress account? -/
def State.isHead (s : State) (k : Nat) (i : InPkt) : Bool :=
  !((s.sw.ingress.take k).any fun j => j.port == i.port && j.vc == i.vc)

/-- Take the ingress packet at place `k` out of the switch. The back-pressure of its account ends when its head moves. -/
def State.takeIn (s : State) (k : Nat) : State :=
  match s.sw.ingress[k]? with
  | none => s
  | some i =>
    let s1 := { s with sw := { s.sw with ingress := ldrop s.sw.ingress k } }
    (s1.freeIn i).when (s.isHead k i) fun t => { t with sw := { t.sw with backpress := t.sw.backpress.filter fun b => b != (i.port, i.vc) } }

/-- Arrival port for routing. -/
def InPkt.arrival (i : InPkt) : Option Nat := if i.port = ownPort then none else some i.port

/-- Output port a routed packet is bound for. -/
def Route.port? : Route → Option Nat
  | .send p _ _ => some p
  | .wait p => some p
  | _ => none

/-- Does a packet ahead of place `k` in the same ingress account go to the same output (R216)? -/
def State.blockedAhead (s : State) (k port : Nat) (i : InPkt) : Bool :=
  (s.sw.ingress.take k).any fun j =>
    j.port == i.port && j.vc == i.vc && (s.route j.pkt j.arrival).port? == some port

/-- Note the start of back-pressure on an account of a link (R217). -/
def State.backPressure (s : State) (port vc : Nat) : State :=
  if ownPort ≤ port || s.sw.backpress.contains (port, vc) then s
  else { (s.inc MARL_BP_EVENTS) with sw := { s.sw with backpress := s.sw.backpress ++ [(port, vc)] } }

/-- The SVC at place `k` of the switch waits: counted once (R336). -/
def State.svcWait (s : State) (k : Nat) : State :=
  match s.sw.ingress[k]? with
  | none => s
  | some i => if i.waits then s else { (s.inc FOX_SVC_WAIT) with sw := { s.sw with ingress := s.sw.ingress.set k { i with waits := true } } }

/-- The packet at place `k` of the switch is discarded as it is moved: a cell of it is uncorrectable (Table 17.2). -/
def State.dropBad (s : State) (k : Nat) : State := (s.takeIn k).inc MARL_UE_DROP

/-- Opcodes that a stack serves or matches: any other packet addressed to it is discarded and counted (R198, R199). -/
def servedOpc (o : BitVec 8) : Bool := [opRD, opWR, opWRP, opATOM, opSVC, opDBELL, opMREGRD, opMREGWR, opRDRSP, opWRACK, opATOMRSP, opSVCRSP, opMREGRSP].contains o

/-- Route the packet at place `k` and move it if it can go (R216); a packet for this stack stays for the unit that
serves it. -/
def State.tryMove (s : State) (k : Nat) : State :=
  match s.sw.ingress[k]? with
  | none => s
  | some i =>
    let stay := if s.isHead k i then s.backPressure i.port i.vc else s
    let go := fun port (q : Packet) w en =>
      if s.blockedAhead k port i || !s.egrRoom port q.hdr.vc i.cells then stay
      else
        let t := (s.takeIn k).addOut { inPort := i.arrival, port := port, vc := q.hdr.vc, pkt := q, cells := i.cells, held := i.held, bad := i.bad, at_ := i.at_, waiting := w, enters := en }
        if i.port = ownPort then t else t.incPair RT_TRANSIT_LO 1
    if i.bad then s.dropBad k
    else match s.route i.pkt i.arrival with
    | .here => if servedOpc i.pkt.hdr.opc then s else (s.takeIn k).inc GLB_CNT_VIOL_MALFORMED
    | .fail st c => (s.takeIn k).failPacket i.pkt st c
    | .send port q en => go port q none en
    | .wait port =>
      if s.fld RT_CFG_LINK_WAIT = 0 then (s.takeIn k).failPacket i.pkt stUNREACH RT_WAIT_EXPIRED
      else go port i.pkt (some s.now) false

/-- A wait ends (R166): the packet is routed once more and fails if it still has no usable port. -/
def State.waitEnds (s : State) (o : OutPkt) : State :=
  match s.route o.pkt o.inPort with
  | .send port q en => s.addOut { o with port := port, vc := q.hdr.vc, pkt := q, waiting := none, enters := en }
  | .wait _ => s.failPacket o.pkt stUNREACH RT_WAIT_EXPIRED
  | .here => s.addIn { port := ownPort, link := 8, vc := o.vc, pkt := o.pkt, cells := o.cells, held := o.held, bad := o.bad, at_ := o.at_ }
  | .fail st c => s.failPacket o.pkt st c

/-- REROUTE_WAITING (R166): every waiting packet is routed again when a port becomes usable. -/
def State.reroute (s : State) : State :=
  let waiting := s.sw.egress.filter fun o => o.waiting.isSome
  let s0 := { s with sw := { s.sw with egress := s.sw.egress.filter fun o => o.waiting.isNone } }
  s0.each waiting fun t o =>
    match t.route o.pkt o.inPort with
    | .send port q en => t.addOut { o with port := port, vc := q.hdr.vc, pkt := q, waiting := none, enters := en }
    | .wait _ => t.addOut o
    | .here => t.addIn { port := ownPort, link := 8, vc := o.vc, pkt := o.pkt, cells := o.cells, held := o.held, bad := o.bad, at_ := o.at_ }
    | .fail st c => t.failPacket o.pkt st c

/-- Packets at a port that is not usable wait under R166 from now on (R149, R166); with LINK_WAIT 0 their wait is over at once. -/
def State.strand (s : State) (p : Nat) : State :=
  let mine := fun (o : OutPkt) => o.port == p && o.waiting.isNone
  if s.usable p then s
  else if s.fld RT_CFG_LINK_WAIT = 0 then
    ({ s with sw := { s.sw with egress := s.sw.egress.filter fun o => !mine o } }).each (s.sw.egress.filter mine) State.waitEnds
  else { s with sw := { s.sw with egress := s.sw.egress.map fun o =>
    if o.port = p ∧ o.waiting = none then { o with waiting := some s.now } else o } }

end Sys2Proof.Machine
end

