-- ==== Sys2Proof/Machine/Recorder.lean ====
section
/-! DEFINITION. The event recorder's operations: making, folding and queueing records (R421 to R425), log pages (R426),
counter slots (R436), and the bytes of the Sett (R419). -/

namespace Sys2Proof.Machine

set_option Elab.async false

/-- Two's complement of an integer in 32 bits. -/
def i32 (x : Int) : Nat := (BitVec.ofInt 32 x).toNat

/-! ## Records -/

/-- Bytes of a record: 24 and its tail (R421). -/
def recLen (r : EvRec) : Nat := 24 + r.tail.length

/-- The record as bytes (Table 19.2). -/
def recBytes (r : EvRec) : List (BitVec 8) :=
  [r.typ, BitVec.ofNat 8 (r.sev + 16 * (recLen r / 16 - 1))] ++ leBytes 2 r.rept ++ leBytes 5 r.opSec ++ leBytes 3 r.pwr
    ++ leBytes 4 r.rseq.toNat ++ leBytes 4 r.code.toNat ++ leBytes 4 r.unit.toNat ++ r.tail

def itemLen : StageItem → Nat
  | .new r => recLen r
  | .upd _ => 16

def itemSev : StageItem → Nat
  | .new r => r.sev
  | .upd r => r.sev

/-- REC_STATUS.STAGE_BYTES and HOLD_BYTES. -/
def queueBytes (q : List StageItem) : Nat := (q.map itemLen).sum

/-- EVENT codes whose fold key includes word 0 (Table 19.4). -/
def keyWord0 (typ : BitVec 8) (code : BitVec 32) : Bool := typ == 3 && (code == 0x05 || code == 0x08 || code == 0x0E)

/-- Is `a` a fold partner of the new record `r` (R424)? -/
def foldsInto (now : Nat) (a r : EvRec) : Bool :=
  decide (now ≤ a.at_ + 1000000) && a.typ == r.typ && a.sev == r.sev && a.code == r.code && a.unit == r.unit
    && (!keyWord0 r.typ r.code || a.tail.take 4 == r.tail.take 4)

/-- The partner after the fold. -/
def foldRec (a r : EvRec) : EvRec := { a with rept := satAdd 0xFFFF a.rept 1, tail := r.tail }

/-- The pending header update of a logged record takes one more fold. -/
def foldUpd (old r : EvRec) : StageItem → StageItem
  | .new a => .new a
  | .upd a => if a.rseq = old.rseq then .upd (foldRec a r) else .upd a

/-- Place of the newest queued partner. -/
def findFold (now : Nat) (r : EvRec) (q : List StageItem) : Option Nat :=
  ((List.range q.length).filter fun i => match q[i]? with
    | some (StageItem.new a) => foldsInto now a r
    | _ => false).getLast?

/-- Count a lost record of a severity (R425). -/
def State.lost (s : State) (sev : Nat) : State := s.inc (REC_LOST sev)

/-- Place of the newest queued record of lower severity. -/
def displaceAt (sev : Nat) (q : List StageItem) : Option Nat :=
  ((List.range q.length).filter fun i => match q[i]? with
    | some (StageItem.new a) => decide (a.sev < sev)
    | _ => false).getLast?

/-- The next RSEQ once a record has been queued, or dropped (R422). -/
def rseqAfter (r : EvRec) (q : List StageItem) : BitVec 32 := if q.getLast? = some (.new r) then r.rseq + 1 else r.rseq

/-- Put a record into a queue of `cap` bytes under R425 (`fuel` displacements at most). -/
def State.enqueue (s : State) (cap : Nat) : Nat → List StageItem → EvRec → State × List StageItem
  | 0, q, r => (s.lost r.sev, q)
  | f + 1, q, r =>
    if queueBytes q + recLen r ≤ cap then (s, q ++ [.new r])
    else match displaceAt r.sev q with
      | none => (s.lost r.sev, q)
      | some i =>
        let gone := match q[i]? with
          | some it => itemSev it
          | none => 0
        State.enqueue (s.lost gone) cap f (ldrop q i) r

/-- The newest record in the log that is a fold partner: page and place. -/
def State.logFold (s : State) (r : EvRec) : Option (Nat × Nat) :=
  let all := s.sett.pages.flatMap fun (p, pg) => (List.range pg.recs.length).filterMap fun i =>
    match pg.recs[i]? with
    | some a => if foldsInto s.now a r then some (a.rseq.toNat, p, i) else none
    | none => none
  (all.foldl (fun (b : Option (Nat × Nat × Nat)) x => match b with
    | none => some x
    | some y => if y.1 ≤ x.1 then some x else some y) none).map fun x => x.2

/-- Change one record of a log page. -/
def State.modLog (s : State) (p i : Nat) (f : EvRec → EvRec) : State :=
  { s with sett := { s.sett with pages := mmod p {} (fun pg => { pg with recs := pg.recs.modify i f }) s.sett.pages } }

/-- A record comes into being (R421, R422, R424, R425, R427). A header update for which the staging queue has no room is not written
(DESIGN CHOICE, log entry 82). -/
def State.record (s : State) (typ : BitVec 8) (sev code unit : Nat) (tail : List (BitVec 8)) : State :=
  let r : EvRec := { typ := typ, sev := sev, opSec := s.recd.opSec, pwr := s.recd.pwr, rseq := s.recd.rseq, code := BitVec.ofNat 32 code, unit := BitVec.ofNat 32 unit, tail := tail, at_ := s.now }
  match s.recd.freeze with
  | .frozen _ =>
    match findFold s.now r s.recd.holding with
    | some i =>
      let q := s.recd.holding.modify i fun it => match it with
        | .new a => .new (foldRec a r)
        | x => x
      { (s.inc REC_FOLDS) with recd := { s.recd with holding := q } }
    | none =>
      let (t, q) := s.enqueue 4096 64 s.recd.holding r
      { t with recd := { t.recd with holding := q, rseq := rseqAfter r q } }
  | _ =>
    match findFold s.now r s.recd.staging with
    | some i =>
      let q := s.recd.staging.modify i fun it => match it with
        | .new a => .new (foldRec a r)
        | x => x
      { (s.inc REC_FOLDS) with recd := { s.recd with staging := q } }
    | none =>
      match s.logFold r with
      | some (p, i) =>
        let old := ((mgetD s.sett.pages p {}).recs[i]?).getD r
        let t := s.inc REC_FOLDS
        if old.updDue then { t with recd := { t.recd with staging := t.recd.staging.map (foldUpd old r) } }
        else if queueBytes s.recd.staging + 16 > 16384 then t
        else
          let u := t.modLog p i fun a => { a with updDue := true }
          { u with recd := { u.recd with staging := u.recd.staging ++ [.upd (foldRec old r)] } }
      | none =>
        let (t, q) := s.enqueue 16384 512 s.recd.staging r
        { t with recd := { t.recd with staging := q, rseq := rseqAfter r q } }

/-- An EVENT record of Table 19.4 with its two words. -/
def State.event (s : State) (code sev unit w0 w1 : Nat) : State := s.record 0x03 sev code unit (leBytes 4 w0 ++ leBytes 4 w1)

/-- A RECORDER record (Table 19.3): REC_LOST sum, TEL_DROPPED. -/
def State.recorderRec (s : State) (code : Nat) : State :=
  let sum := ((List.range 4).map fun i => s.fld (REC_LOST i)).sum
  s.record 0x04 1 code 0 (leBytes 4 sum ++ leBytes 4 (s.fld TEL_DROPPED))

/-! ## The log (R426) -/

def pageUsed (p : LogPage) : Nat := 16 + (p.recs.map recLen).sum

/-- Pages by number with their contents, all 256. -/
def State.page (s : State) (i : Nat) : LogPage := mgetD s.sett.pages i {}

def State.setPage (s : State) (i : Nat) (p : LogPage) : State := { s with sett := { s.sett with pages := mput i p s.sett.pages } }

/-- The page to reclaim: full, lowest SEV not above the record's, oldest among those. -/
def State.reclaim (s : State) (sev : Nat) : Option Nat :=
  let c := (List.range 256).filter fun i => (s.page i).st == .full && decide ((s.page i).sev ≤ sev)
  c.foldl (fun b i => match b with
    | none => some i
    | some j => if (s.page i).sev < (s.page j).sev ∨ ((s.page i).sev = (s.page j).sev ∧ (s.page i).seq.toNat < (s.page j).seq.toNat) then some i else some j) none

/-- Open a page for a severity, or `none`. -/
def State.openPage (s : State) (sev : Nat) : Option (State × Nat) :=
  let make := fun (t : State) i => (({ t with sett := { t.sett with pageSeq := t.sett.pageSeq + 1 } }).setPage i { seq := t.sett.pageSeq, sev := sev, st := .opened, recs := [] }, i)
  match (List.range 256).find? fun i => (s.page i).st == .free with
  | some i => some (make s i)
  | none => match s.reclaim sev with
    | some i => some (make ((s.page i).recs.foldl (fun t r => t.inc (REC_OVERWRITTEN r.sev)) s) i)
    | none => none

/-- Write one record into the log. -/
def State.logAppend (s : State) (r : EvRec) : State :=
  let r := { r with at_ := s.now, updDue := false }
  let put := fun (t : State) i => t.setPage i { t.page i with recs := (t.page i).recs ++ [r] }
  match (List.range 256).find? fun i => (s.page i).st == .opened && (s.page i).sev == r.sev with
  | some i =>
    if pageUsed (s.page i) + recLen r ≤ 4096 then put s i
    else
      let t := s.setPage i { s.page i with st := .full }
      match t.openPage r.sev with
      | some (u, j) => put u j
      | none => t.lost r.sev
  | none => match s.openPage r.sev with
    | some (u, j) => put u j
    | none => s.lost r.sev

/-- A header update is written to the record in the log. -/
def State.logUpdate (s : State) (u : EvRec) : State :=
  { s with sett := { s.sett with pages := s.sett.pages.map fun (i, p) => (i, { p with recs := p.recs.map fun r =>
    if r.rseq = u.rseq then { u with at_ := r.at_, updDue := false } else r }) } }

/-- Write one queued item. -/
def State.logItem (s : State) : StageItem → State
  | .new r => s.logAppend r
  | .upd r => s.logUpdate r

/-- Write the whole staging queue. -/
def State.drainStaging (s : State) : State :=
  ({ s with recd := { s.recd with staging := [] } } : State).each s.recd.staging State.logItem

/-- All records of the log, by RSEQ as they lie. -/
def State.logRecs (s : State) : List EvRec := s.sett.pages.flatMap fun (_, p) => p.recs

/-- Order of two RSEQ, modulo 2^32, from the newest given. -/
def rseqAge (newest : BitVec 32) (r : EvRec) : Nat := (newest - r.rseq).toNat

/-- Highest RSEQ given so far. -/
def State.rseqTop (s : State) : BitVec 32 := s.recd.rseq - 1

/-- REC_NEWEST, REC_OLDEST: 0 while the log is empty. -/
def State.recNewest (s : State) : Nat :=
  match s.logRecs.foldl (fun (b : Option EvRec) r => match b with
    | none => some r
    | some x => if rseqAge s.rseqTop r < rseqAge s.rseqTop x then some r else some x) none with
  | some r => r.rseq.toNat
  | none => 0
def State.recOldest (s : State) : Nat :=
  match s.logRecs.foldl (fun (b : Option EvRec) r => match b with
    | none => some r
    | some x => if rseqAge s.rseqTop r > rseqAge s.rseqTop x then some r else some x) none with
  | some r => r.rseq.toNat
  | none => 0

/-! ## Counter slots (R436, Table 19.10) -/

def State.slotBytes (s : State) (seq : Nat) : List (BitVec 8) :=
  let body : List (BitVec 8) := [0x47, 0x43, 0x4E, 0x54] ++ leBytes 4 seq ++ leBytes 8 s.recd.opSec ++ leBytes 3 s.recd.pwr ++ zeros 5
    ++ (List.range 4).flatMap (fun i => leBytes 4 (s.fld (REC_LOST i)))
    ++ (List.range 4).flatMap (fun i => leBytes 4 (s.fld (REC_OVERWRITTEN i)))
    ++ leBytes 8 (s.pair TEL_DROPPED_LIFE_LO) ++ leBytes 4 s.flt.foldedLife.toNat ++ leBytes 4 (s.fld BST_DEBUG_ENTRIES)
    ++ leBytes 4 (s.fld CVU_CKP_EPOCH) ++ leBytes 2 (s.fld FOX_FW_FLOOR) ++ zeros 174
  body ++ leBytes 4 (crc32c body)

/-- Sett addresses of the areas (Table 19.1). -/
def settLog : Nat := 0x200000
def settSoft : Nat := 0x300000
def settCnt : Nat := 0x340000
def settCfg : Nat := 0x350000

/-- Is a unit of counter slot `i` retired? -/
def State.slotRetired (s : State) (i : Nat) : Bool :=
  (List.range 4).any fun k => s.sett.retired.contains (settCnt / 64 + 4 * i + k)

/-- Next FLUSH_SEQ whose slot is in use, from `n` on. -/
def State.nextFlush (s : State) : Nat → Nat → Nat
  | 0, n => n
  | f + 1, n => if s.slotRetired (n % 256) then s.nextFlush f (n + 1) else n

/-- Write the present values into the next counter slot. -/
def State.saveCounters (s : State) : State :=
  let q := s.nextFlush 256 ((s.sett.flushSeq + 1).toNat)
  { s with sett := { s.sett with flushSeq := BitVec.ofNat 32 q, slots := mput (q % 256) (s.slotBytes q) s.sett.slots } }

/-- MAGIC and CRC of a slot are correct. -/
def slotOk (b : List (BitVec 8)) : Bool :=
  b.length == 256 && b.take 4 == ([0x47, 0x43, 0x4E, 0x54] : List (BitVec 8)) && leAt b 252 4 == crc32c (b.take 252)

/-- The current slot: highest FLUSH_SEQ among the correct ones. -/
def State.bestSlot (s : State) : Option (List (BitVec 8)) :=
  (s.sett.slots.filter fun e => slotOk e.2).foldl (fun b e => match b with
    | none => some e.2
    | some x => if leAt x 4 4 ≤ leAt e.2 4 4 then some e.2 else some x) none

/-- Reload every register whose reset is Sett, OP_SECONDS and PWR_CYCLES aside (R436; log 3). -/
def State.loadCounters (s : State) : State :=
  let b := s.bestSlot.getD (zeros 256)
  let s1 := s.each (List.range 4) fun t i => (t.set (REC_LOST i) (leAt b (24 + 4 * i) 4)).set (REC_OVERWRITTEN i) (leAt b (40 + 4 * i) 4)
  let s2 := s1.setPair TEL_DROPPED_LIFE_LO (leAt b 56 8)
  let s3 := { s2 with flt := { s2.flt with foldedLife := BitVec.ofNat 32 (leAt b 64 4) } }
  s3.sets [(BST_DEBUG_ENTRIES, leAt b 68 4), (CVU_CKP_EPOCH, leAt b 72 4), (FOX_FW_FLOOR, leAt b 76 2)]

/-- A flush (R423): the staging queue and the counters go to the Sett. -/
def State.flushSett (s : State) : State :=
  match s.recd.freeze with
  | .frozen _ => s.saveCounters
  | _ => s.drainStaging.saveCounters

end Sys2Proof.Machine
end

