-- ==== Sys2Proof/Machine/Faults.lean ====
section
/-! DEFINITION. The fault collector: causes and domains (Tables 18.1 and 18.2), records (R403, R404), alarms (R412, R413),
the views FLT_REC, FLT_SUMMARY and FLT_OPEN. Containment and the grave safe state are in Machine/Reaction.lean. -/

namespace Sys2Proof.Machine

set_option Elab.async false

def clsCode : FltClass → Nat
  | .a => 0
  | .c => 1
  | .d => 2
  | .g => 3

def recStCode : RecSt → Nat
  | .closed => 0
  | .advisory => 1
  | .wait => 2
  | .held => 3
  | .degraded => 4
  | .grave => 5

/-- Does Table 18.1 list the domain ID? -/
def domListed (d : Nat) : Bool :=
  decide (d ≤ 8) || (decide (0x20 ≤ d) && decide (d < 0x90))

/-- Domain of a fused-off unit (R399). -/
def State.domOff (s : State) (d : Nat) : Bool :=
  (decide (0x20 ≤ d) && decide (d < 0x40) && decide (s.nPorts ≤ d - 0x20))
  || (decide (0x40 ≤ d) && decide (d < 0x60) && decide (s.nChans ≤ d - 0x40))
  || (decide (0x60 ≤ d) && decide (d < 0x80) && decide (s.nEngines ≤ d - 0x60))
  || (decide (0x80 ≤ d) && decide (d < 0x90) && decide (s.topLayer < d - 0x80 + 2))

/-- Essential domains (Table 18.1): CLK, MARL, FAB, MGC. -/
def essential (d : Nat) : Bool := d ≤ 3

/-- Code, class and domain of a cause (Table 18.2); the unit selects port, channel, engine or layer. -/
def causeOf (thmClass : FltClass) (c : FltCause) (unit : Nat) : Nat × FltClass × Nat :=
  match c with
  | .frcFail => (0x01, .a, 0)
  | .refLost => (0x02, .a, 0)
  | .slowFail => (0x03, .g, 0)
  | .clockLost => (0x04, .g, 0)
  | .foxPll => (0x05, .c, 7)
  | .lpll => (0x06, .d, 0x20 + unit)
  | .layerSilent => (0x07, .d, 0x80 + unit - 2)
  | .width => (0x10, .d, 0x20 + unit)
  | .rail => (0x11, .d, 6)
  | .railVstore => (0x12, .g, 1)
  | .coilRepair => (0x18, .a, 0x80 + unit - 2)
  | .narrow => (0x19, .d, 0x80 + unit - 2)
  | .fence => (0x1A, .d, 0x40 + unit)
  | .dramUe => (0x20, .a, 0x40 + unit)
  | .repair => (0x21, .a, unit)
  | .repairRefused => (0x22, .a, unit)
  | .marlUe => (0x23, .a, 1)
  | .marlImage => (0x24, .d, 1)
  | .sliceRetired => (0x25, .d, 1)
  | .marlShort => (0x26, .g, 1)
  | .foxTrap => (0x28, .c, 0x60 + unit)
  | .foxDisabled => (0x29, .d, 0x60 + unit)
  | .fwNone => (0x2A, .d, 7)
  | .fwCopy => (0x2B, .d, 7)
  | .otpLocked => (0x30, .d, 4)
  | .lowWarn => (0x38, .a, 5)
  | .lowStop => (0x39, .d, 5)
  | .crit => (0x3A, .d, 5)
  | .trip => (0x3B, .g, 5)
  | .sensorBroken => (0x3C, thmClass, 5)
  | .lockstep => (0x40, .c, 3)
  | .fabState => (0x41, .c, 2)
  | .settErr => (0x42, .a, 8)

def State.fltRec (s : State) (d : Nat) : FltRec := mgetD s.flt.recs d {}
def State.setRec (s : State) (d : Nat) (r : FltRec) : State := { s with flt := { s.flt with recs := mput d r s.flt.recs } }

/-- Timer of a class, in µs (Table 18.6): C_TIME in ms, D_TIME in units of 10 ms. -/
def State.timerUs (s : State) (c : FltClass) : Nat :=
  match c with
  | .c => s.fld FLT_CFG_C_TIME * 1000
  | .d => s.fld FLT_CFG_D_TIME * 10000
  | _ => 0

/-- Timers run while PHASE is READY and the stack is in S0 or S1 (R404). -/
def State.timersRun (s : State) : Bool := s.ready && decide (s.sleep ≤ 1)

/-- Milliseconds since power-good was reached (Table 18.11, T_OPEN). -/
def State.msUp (s : State) : Nat := (s.now - s.start.pgAt) / 1000

/-- TIMER_MS of a record. -/
def State.timerMs (s : State) (r : FltRec) : Nat :=
  if r.timerOn then
    match r.timerEnd with
    | some e => (e - s.now) / 1000
    | none => 0
  else 0

/-- Words 0 to 3 of FLT_REC[d] (Table 18.11). -/
def State.fltWord (s : State) (d w : Nat) : Nat :=
  let r := s.fltRec d
  match w with
  | 0 => d + r.seq.toNat * 2 ^ 8 + (if r.isOpen then (r.merges * 2 ^ 16 + b2n r.auto * 2 ^ 24 + recStCode r.st * 2 ^ 25 + clsCode r.cls * 2 ^ 28 + b2n r.inj * 2 ^ 30 + 2 ^ 31) else 0)
  | 1 => r.firstCause.toNat * 2 ^ 24 + r.lastCause.toNat * 2 ^ 16 + s.timerMs r
  | 2 => r.detail.toNat
  | _ => r.tOpen.toNat

def State.fltBytes (s : State) (d : Nat) : List (BitVec 8) := (List.range 4).flatMap fun w => leBytes 4 (s.fltWord d w)

/-- Domains with an open record, ascending. -/
def State.openDoms (s : State) : List Nat := (s.flt.recs.filter fun e => e.2.isOpen).map (·.1)

/-- ALERT_N is driven low (R409); until power-good it is high-impedance (R29). -/
def State.alert (s : State) : Bool :=
  s.start.pgSeen && ((s.flt.recs.any fun e => e.2.isOpen && e.2.cls != .a) || s.start.forcing || s.start.grave)

/-- THERMTRIP_N is driven low (R444); until power-good it is high-impedance (R29). -/
def State.thermtrip (s : State) : Bool := s.start.pgSeen && s.pins.thermtripLow

/-- FLT_SUMMARY (Table 18.7). -/
def State.fltSummary (s : State) : Nat :=
  let op := s.flt.recs.filter fun e => e.2.isOpen
  let worst := op.foldl (fun m e => max m (clsCode e.2.cls)) 0
  let dom := ((op.filter fun e => clsCode e.2.cls == worst).map (·.1)).headD 0
  b2n s.start.grave * 2 ^ 31 + b2n s.alert * 2 ^ 30 + op.length * 2 ^ 16 + dom * 2 ^ 8 + worst

/-! ## Alarms -/

/-- An ALARM packet of a domain to a destination (R413, Table 18.3). -/
def State.alarmPacket (s : State) (d folded seq : Nat) (dst : BitVec 18) : Packet :=
  { hdr := mkHdr opALARM 0x01 0 0 (BitVec.ofNat 16 seq) 32 dst s.eid 0 (BitVec.ofNat 64 (d + clsCode (s.fltRec d).cls * 2 ^ 8)),
    payload := s.fltBytes d ++ leBytes 4 folded ++ leBytes 4 seq ++ leBytes 8 s.recd.opSec }

/-- Destinations enabled in FLT_ALARM_DST. -/
def State.alarmDsts (s : State) : List (BitVec 18) :=
  ((List.range 2).filter fun n => s.on (FLT_ALARM_DST_EN n)).map fun n => BitVec.ofNat 18 (s.fld (FLT_ALARM_DST_EID n))

/-- Send a domain's ALARM to each destination and start its window. -/
def State.sendAlarms (s : State) (d folded : Nat) : State :=
  let dsts := s.alarmDsts
  let t := s.each dsts fun t e =>
    let q := (t.flt.alarmSeq + 1)
    (({ t with flt := { t.flt with alarmSeq := q } }).inc FLT_ALARMS_SENT).emit (t.alarmPacket d folded q.toNat e)
  if dsts.isEmpty then t else { t with flt := { t.flt with wins := mput d {} t.flt.wins } }

/-- A record change made by hardware asks for an ALARM (R412). -/
def State.alarm (s : State) (d : Nat) : State :=
  match mget s.flt.wins d with
  | none => s.sendAlarms d 1
  | some w =>
    let t := s.inc FLT_ALARMS_FOLDED
    { t with flt := { t.flt with wins := mput d { pending := true, folded := w.folded + 1 } t.flt.wins, foldedLife := t.flt.foldedLife + 1 } }

/-! ## Records -/

/-- Severity of a FAULT record by class (Table 19.3). -/
def fltSev : FltClass → Nat
  | .a => 1
  | .c => 2
  | _ => 3

/-- FAULT record in the recorder (Table 19.3). -/
def State.faultRec (s : State) (d : Nat) : State :=
  let r := s.fltRec d
  s.record 0x02 (fltSev r.cls) r.lastCause.toNat d (s.fltBytes d ++ zeros 8)

/-- What follows every record change that the hardware makes: a FAULT record and an ALARM. -/
def State.recChanged (s : State) (d : Nat) : State := (s.faultRec d).alarm d

/-- The state a record takes at a class (R404). -/
def recStOf : FltClass → RecSt
  | .a => .advisory
  | .g => .grave
  | _ => .wait

/-- Start the timer of a class. -/
def State.startTimer (s : State) (r : FltRec) : FltRec :=
  match r.cls with
  | .a => { r with timerOn := false, timerEnd := none }
  | .g => { r with timerOn := false, timerEnd := none }
  | c => { r with timerOn := true, timerEnd := if s.timersRun then some (s.now + s.timerUs c) else none }

/-- A fault reaches its domain's record (R403): opening, or merging. -/
def State.fltMerge (s : State) (d code : Nat) (cls : FltClass) (detail : Nat) (inj : Bool) : State :=
  let r := s.fltRec d
  if r.isOpen then
    let up := decide (clsCode r.cls < clsCode cls)
    let r1 : FltRec := { r with merges := satAdd 255 r.merges 1, seq := r.seq + 1, lastCause := BitVec.ofNat 8 code, detail := BitVec.ofNat 32 detail, inj := r.inj || inj }
    let r2 := if up then s.startTimer { r1 with cls := cls, st := recStOf cls } else r1
    ((s.setRec d r2).incPair FLT_RAISED_LO 1).inc FLT_MERGED
  else
    let r1 : FltRec := { isOpen := true, inj := inj, cls := cls, st := recStOf cls, seq := r.seq + 1, firstCause := BitVec.ofNat 8 code, lastCause := BitVec.ofNat 8 code, detail := BitVec.ofNat 32 detail, tOpen := BitVec.ofNat 32 s.msUp }
    (s.setRec d (s.startTimer r1)).incPair FLT_RAISED_LO 1

/-- The collector runs from the start of P3 (PHASE 3 and above); DIAG_HALT and grave included (18_faults.md). -/
def State.collects (s : State) : Bool := decide (s.phase ≥ 3) && s.phase != 0xB

/-- A fault below class G, or a G fault's record alone: record, FAULT entry, ALARM. -/
def State.raiseRec (s : State) (c : FltCause) (unit detail : Nat) (inj : Bool := false) : State :=
  let (code, cls, d) := causeOf (if s.variant = 0x96 then .d else .a) c unit
  if s.domOff d || !s.collects then s
  else
    let t := (s.fltMerge d code cls detail inj).recChanged d
    let asleep := decide (2 ≤ s.sleep) || s.pwr.entry.isSome
    if asleep && (cls == .c || cls == .d) then { t with pwr := { t.pwr with wakeDue := true } } else t

end Sys2Proof.Machine
end

