-- ==== Sys2Proof/Machine/Links.lean ====
section
/-! DEFINITION. What links and bypass pairs do (06, 07, 08): training steps, width (R120), L0 entry (R140), link down
(R127, R149), retrains, the link layer's receiver and sender (R143), flit transmission, and closing and opening of bypass
pairs (R172, R173). -/

namespace Sys2Proof.Machine

set_option Elab.async false

/-! ## Lanes of a link -/

/-- Physical lane number (LANE index) of lane `i` of link `m` (R111). -/
def State.laneIx (s : State) (p m i : Nat) : Nat := 8 * p + m * s.linkW p + i

/-- LANE indexes of a link. -/
def State.linkLanes (s : State) (p m : Nat) : List Nat := (List.range (s.linkW p)).map (s.laneIx p m)

/-- Active logical lanes of a link, ascending. -/
def State.activeLogical (s : State) (p m : Nat) : List Nat := bitList 8 (s.fld (PORT_LINK_STATUS_ACTIVE_MASK p m))

/-- The physical lane that carries a logical lane. -/
def State.laneOf (s : State) (p m lg : Nat) : Nat :=
  ((s.linkLanes p m).find? fun l => s.on (LANE_STATUS_IN_USE l) && s.fld (LANE_STATUS_LOGICAL l) == lg).getD
    (if s.on (PORT_LINK_STATUS_REVERSED p m) then s.laneIx p m (s.linkW p - 1 - lg) else s.laneIx p m lg)

/-- Physical lanes that send the active logical lanes, ascending (R111). -/
def State.txLanes (s : State) (p m : Nat) : List Nat := (s.activeLogical p m).map (s.laneIx p m)

/-- Physical lanes that receive the active logical lanes, ascending. -/
def State.activeLanes (s : State) (p m : Nat) : List Nat := (s.activeLogical p m).map (s.laneOf p m)

/-! ## Bypass pairs (R172) -/

def State.pairClosed (s : State) (k : Nat) : Bool := bitAt (s.fld RT_BYP_STATUS_CLOSED) k

/-- LPLL of a pair's ports is locked: LPLLj serves ports 4j to 4j + 3 (R109). -/
def State.lpllOk (s : State) (k : Nat) : Bool := bitAt (s.fld CLK_PLL_STATUS_LPLL_LOCK) (k / 2)

/-- Does the port want to train: role other than OFF and LINK_EN? -/
def State.portWants (s : State) (p : Nat) : Bool := s.role p != 0 && s.linkEn p

/-- A closing condition of Table 8.6 holds for pair `k`. -/
def State.mustClose (s : State) (k : Nat) : Bool :=
  !s.rails.vaon || !s.rails.vcore || !s.rails.vser || !s.rails.vserh || !s.pins.perstN
  || decide (s.phase ≤ 2) || s.phase == 0xB || s.phase == 0xC || s.start.slowHold || s.start.diagHold
  || s.start.forcing || s.start.grave || !s.pins.bypForceN
  || (s.sleep == 2 && bitAt (s.fld GLB_PWR_CFG_BYP_S2) k) || (s.sleep == 3 && bitAt (s.fld GLB_PWR_CFG_BYP_S3) k)
  || !s.lpllOk k || !(s.portWants (2 * k) || s.portWants (2 * k + 1))
  || (s.k48 && decide (k ≥ 8))
  || (bitAt (s.fld RT_BYP_CFG_HOLD) k && !bitAt (s.fld RT_BYP_OPEN_OPEN) k)

/-! ## Training markers sent (R115) -/

/-- A training marker (Table 6.4): TYPE, LANE, SPLIT, LINK, RATE, ROLE, PORT, DID, RXMASK, and the partner's DID, PORT and LINK
once there is one to echo. A stack sends KIND 0. -/
def tmBytes (typ lane split link rate role port did rxMask : Nat) (echo : Option (Nat × Nat × Nat)) : List (BitVec 8) :=
  let e := echo.getD (0, 0, 0)
  let b : List (BitVec 8) := [0x4B, 0x1D, 0xB4, 0xE2] ++ leBytes 1 typ ++ leBytes 1 (lane + 8 * split + 32 * link) ++ leBytes 1 (rate + 8 * role)
    ++ leBytes 1 port ++ leBytes 2 did ++ leBytes 1 (if typ = 1 then 0 else rxMask) ++ zeros 1
    ++ leBytes 2 (e.1 + 32768 * b2n echo.isSome) ++ leBytes 1 (e.2.1 + 32 * e.2.2) ++ zeros 13
  b ++ leBytes 4 (crc32c b)

/-- The marker of a TYPE that logical lane `lg` of a link sends now. -/
def State.tmOf (s : State) (p m lg typ : Nat) : List (BitVec 8) :=
  tmBytes typ lg (s.fld (PORT_LINK_CFG_SPLIT p)) m (s.fld (PORT_LINK_CFG_RATE p)) (s.role p) p s.did (s.link p m).rxMask.toNat
    (if s.on (PORT_NEIGH_ID_VALID p m) then some (s.fld (PORT_NEIGH_ID_DID p m), s.fld (PORT_NEIGH_ID_PORT p m), s.fld (PORT_NEIGH_ID_LINK p m)) else none)

/-- Lanes of a link that have marker lock. -/
def State.lockedLanes (s : State) (p m : Nat) : List Nat := (s.linkLanes p m).filter fun l => s.on (LANE_STATUS_MARKER_LOCK l)

/-- Table 6.5 step 6: every locked lane has received 8 stable markers. -/
def State.stable (s : State) (p m : Nat) : Bool := (s.lockedLanes p m).all fun n => decide (8 ≤ (s.lane n).stable)

/-- TYPE of the markers a link in training or a retrain sends: TS_LOCK, TS_SEEN, and TS_GO from step 6 on. -/
def State.markerType (s : State) (p m : Nat) : Nat :=
  if s.lst p m = 3 then 3
  else if s.lst p m = 7 then (if s.stable p m && !(s.lockedLanes p m).isEmpty && !(s.link p m).cfgBad then 3 else 2)
  else if s.lst p m = 2 then 2
  else 1

/-- A lane sends a training block: its marker, then 1,792 bits of the filler, which runs on (R115). -/
def State.sendBlock (s : State) (p m l : Nat) : State :=
  let x := s.lane l
  let f := prbsBytes 3 224 x.filler.toNat
  s.setLane l { x with sent := s.tmOf p m (l % 8 % s.linkW p) (s.markerType p m) ++ f.2, filler := BitVec.ofNat 31 f.1 }

/-- Every lane of a training link sends a block. -/
def State.sendBlocks (s : State) (p m : Nat) : State := s.each (s.linkLanes p m) fun t l => t.sendBlock p m l

/-- `n` markers without filler on each active lane (R128, R129). -/
def State.sendMarkers (s : State) (p m typ n : Nat) : State :=
  s.each (s.activeLogical p m) fun t lg =>
    let l := t.laneIx p m lg
    t.setLane l { t.lane l with sent := (List.replicate n (t.tmOf p m lg typ)).flatten }

/-! ## Training and link down -/

/-- The conditions of R118 under which a link trains. -/
def State.trainOk (s : State) (p : Nat) : Bool :=
  s.portWants p && decide (s.sleep ≤ 1) && decide (s.phase ≥ 3) && s.phase != 0xB && s.phase != 0xC && !s.pairClosed (p / 2)
    && !(s.unitResets.any fun u => u.kind == 1 && u.index == p)

/-- Receiver state of a lane that starts to look for markers anew (Table 6.5 step 2). -/
def State.laneRestart (s : State) (l : Nat) : State :=
  let x := s.lane l
  (s.setLane l { x with goodRun := 0, missRun := 0, stable := 0, lockRun := 0, amMiss := 0, fecRun := 0, amSeqRx := none }).sets
    [(LANE_STATUS_CDR_LOCK l, 0), (LANE_STATUS_MARKER_LOCK l, 0), (LANE_STATUS_INVERTED l, 0), (LANE_STATUS_IN_USE l, 0), (LANE_STATUS_LOGICAL l, 0), (LANE_EYE_STALE l, 1)]

/-- A lane goes off for L2 or deeper (R129): squelched, no clock recovery and no marker lock; only lane 0 of its link still detects a
signal. -/
def State.laneOff (s : State) (l : Nat) : State :=
  let x := s.lane l
  (s.setLane l { x with squelch := true, goodRun := 0, missRun := 0, stable := 0, lockRun := 0, amMiss := 0, fecRun := 0, amSeqRx := none }).sets
    [(LANE_STATUS_SIG_DET l, if l % 8 % s.linkW (l / 8) = 0 then s.fld (LANE_STATUS_SIG_DET l) else 0), (LANE_STATUS_CDR_LOCK l, 0),
      (LANE_STATUS_MARKER_LOCK l, 0), (LANE_EYE_STALE l, 1)]

/-- Forget what the link's training has gathered. -/
def Link.fresh (l : Link) : Link := { l with rxMask := 0, peerMask := 0, goSeen := false, otherRun := 0, rxIdle := false, cfgBad := false }

/-- Reset sequence numbers, retry buffer and credits (R140). -/
def Link.resetLL (l : Link) : Link :=
  { l with txNext := 0, rxExp := 0, retryWait := false, nakId := 0, lastNak := 0, nakRun := 0, partnerLcf := false, acceptedAny := false, kept := [], replay := [], resume := false, peerInit := [0, 0, 0, 0, 0], peerRet := [0, 0, 0, 0, 0], spent := [0, 0, 0, 0, 0], ownInit := [0, 0, 0, 0, 0], ownRet := [0, 0, 0, 0, 0], rxHeld := [0, 0, 0, 0, 0], toldRet := [0, 0, 0, 0, 0], ackOwed := 0, nakOwed := false, partial_ := [], sending := [] }

/-- Table 6.5 step 1 on one link: the transmitters of its lanes unsquelch with LANE_TX_EQ in force and send TS_LOCK. -/
def State.startLink (s : State) (p m : Nat) : State :=
  let t := s.each (s.linkLanes p m) fun t l =>
    (t.laneRestart l).setLane l { (t.laneRestart l).lane l with squelch := false, txEq := BitVec.ofNat 32 (t.reg (LANE_TX_EQ l).off) }
  let t := (t.setLink p m (t.link p m).fresh).sets [(PORT_LINK_STATUS_STATE p m, 1), (PORT_LINK_STATUS_WIDTH p m, 0), (PORT_LINK_STATUS_ACTIVE_MASK p m, 0), (PORT_LINK_STATUS_REVERSED p m, 0)]
  t.sendBlocks p m

/-- LINK_LAYER_DOWN (R149): unacknowledged flits counted, partial packets dropped, credits reset; packets received whole
stay with the switch but earn the link no credit any more. -/
def State.linkLayerDown (s : State) (p m : Nat) : State :=
  let l := s.link p m
  let t := (s.incBy (PORT_LL_DROPPED p) l.kept.length).setLink p m l.resetLL
  { t with sw := { t.sw with ingress := t.sw.ingress.map fun i => if i.port = p ∧ i.link = m then { i with link := 8 } else i } }

/-- REASON of a link that stays DOWN (R118): DISABLED where the role, LINK_EN or a closed pair holds it, else why it went down. -/
def State.downReason (s : State) (p reason : Nat) : Nat :=
  if !s.portWants p || s.pairClosed (p / 2) then 7 else if reason = 7 then 0 else reason

/-- LINK_DOWN (R127): the link goes down for a reason and, while its conditions hold, starts again at step 1. -/
def State.linkDown (s : State) (p m reason : Nat) : State :=
  let was := s.lst p m
  let t := s.when (inService was || was == 6 || (s.link p m).resume) fun s => s.linkLayerDown p m
  let t := t.when (inService was && (reason != 7 || !s.linkEn p)) fun t => t.inc (PORT_LINK_DOWNS p)
  let t := t.set (PORT_NEIGH_ID_VALID p m) 0
  let t := if t.trainOk p then (t.startLink p m).set (PORT_LINK_STATUS_REASON p m) reason
    else
      let u := t.each (t.linkLanes p m) fun u l => (u.laneRestart l).setLane l { (u.laneRestart l).lane l with squelch := true }
      (u.setLink p m (u.link p m).fresh).sets [(PORT_LINK_STATUS_STATE p m, 0), (PORT_LINK_STATUS_REASON p m, u.downReason p reason), (PORT_LINK_STATUS_WIDTH p m, 0), (PORT_LINK_STATUS_ACTIVE_MASK p m, 0), (PORT_LINK_STATUS_REVERSED p m, 0)]
  t.strand p

/-- Bring every link of a port to what R118 asks: start those that are DOWN while the conditions hold, take down the rest
while they fail; role, LINK_EN and a closed pair show as DISABLED. -/
def State.checkPort (s : State) (p : Nat) : State :=
  s.each (List.range (s.nLinks p)) fun t m =>
    if t.trainOk p then (if t.lst p m = 0 then (t.startLink p m).set (PORT_LINK_STATUS_REASON p m) 0 else t)
    else if t.lst p m = 0 then t.set (PORT_LINK_STATUS_REASON p m) (t.downReason p (t.fld (PORT_LINK_STATUS_REASON p m)))
    else t.linkDown p m 7

/-- Close a pair (R172). -/
def State.closePair (s : State) (k : Nat) : State :=
  if s.pairClosed k then s
  else
    let t := s.sets [(RT_BYP_STATUS_CLOSED, putBit (s.fld RT_BYP_STATUS_CLOSED) k true), (RT_BYP_OPEN_OPEN, putBit (s.fld RT_BYP_OPEN_OPEN) k false),
      (RT_BYP_STATUS_LISTEN_READY, putBit (s.fld RT_BYP_STATUS_LISTEN_READY) k false)]
    ((t.inc RT_BYP_CLOSES).checkPort (2 * k)).checkPort (2 * k + 1)

/-- Close every pair for which a closing condition holds. -/
def State.closePairs (s : State) : State := s.each (List.range 16) fun t k => if t.mustClose k then t.closePair k else t

/-- Open a pair that has become listen-ready (R173): its ports start training. -/
def State.openPair (s : State) (k : Nat) : State :=
  let t := s.sets [(RT_BYP_STATUS_CLOSED, putBit (s.fld RT_BYP_STATUS_CLOSED) k false), (RT_BYP_STATUS_LISTEN_READY, putBit (s.fld RT_BYP_STATUS_LISTEN_READY) k true)]
  (t.checkPort (2 * k)).checkPort (2 * k + 1)

/-- Start a retrain of a link in L0 or L1 from step 4 of Table 6.5 (R125). -/
def State.retrain (s : State) (p m : Nat) : State :=
  if s.lst p m = 4 ∨ s.lst p m = 5 then
    let t := s.each (s.linkLanes p m) fun t l => ((t.set (LANE_EYE_STALE l) 1).setLane l { t.lane l with stable := 0, lockRun := 0, squelch := false })
    let l := t.link p m
    let t := ((t.setLink p m { l with oldWidth := t.fld (PORT_LINK_STATUS_WIDTH p m), goSeen := false, otherRun := 0, rxIdle := false, resume := true }).inc (PORT_RETRAINS p)).set (PORT_LINK_STATUS_STATE p m) 7
    t.sendBlocks p m
  else s

/-- A lane drops out of RXMASK: its marker lock is lost (R125). -/
def State.dropLane (s : State) (p m l : Nat) : State :=
  let k := s.link p m
  let lg := s.fld (LANE_STATUS_LOGICAL l)
  let t := s.setLink p m { k with rxMask := BitVec.ofNat 8 (putBit k.rxMask.toNat lg false) }
  (t.set (LANE_STATUS_MARKER_LOCK l) 0).setLane l { t.lane l with goodRun := 0, missRun := 0, amMiss := 0, fecRun := 0, amSeqRx := none }

/-- A lane failure (R125). -/
def State.laneFail (s : State) (l : Nat) : State :=
  let p := l / 8
  let m := l % 8 / s.linkW p
  if s.lst p m = 4 && s.on (LANE_STATUS_IN_USE l) then (s.dropLane p m l).retrain p m else s

/-- The own transmitter goes into L1 (R128): two TS_IDLE, then squelch; LANE_EYE goes stale (R124). -/
def State.linkIdle (s : State) (p m : Nat) : State :=
  let t := s.sendMarkers p m 5 2
  (t.each (t.linkLanes p m) fun t l => (t.setLane l { t.lane l with squelch := true }).set (LANE_EYE_STALE l) 1).set (PORT_LINK_STATUS_STATE p m) 5

/-! ## Width (R120) -/

/-- Lowest aligned group of width 2^k whose bits are all in the mask. -/
def groupAt (w mask w' : Nat) : Option Nat :=
  (List.range (w / w')).find? fun g => (List.range w').all fun i => bitAt mask (g * w' + i)

/-- Width and ACTIVE_MASK by R120: tries W, W/2 … 1, no wider than `cap`. -/
def widthOf (w cap mask : Nat) : Option (Nat × Nat) :=
  ([8, 4, 2, 1].filter fun x => decide (x ≤ cap)).findSome? fun w' => (groupAt w mask w').map fun g => (w', (2 ^ w' - 1) * 2 ^ (g * w'))

/-- WIDTH code of a width: 1 ×1 to 4 ×8. -/
def widthCode (w : Nat) : Nat := if w = 8 then 4 else if w = 4 then 3 else if w = 2 then 2 else 1

/-- The widest width a link may take: in a retrain its width before it, which a link once narrowed keeps (R126). -/
def State.widthCap (s : State) (p m : Nat) : Nat :=
  if s.lst p m = 7 then min (s.linkW p) (2 ^ ((s.link p m).oldWidth - 1)) else s.linkW p

/-- Width the link would take now, if not below MIN_WIDTH. -/
def State.newWidth (s : State) (p m : Nat) : Option (Nat × Nat) :=
  let l := s.link p m
  match widthOf (s.linkW p) (s.widthCap p m) (l.rxMask &&& l.peerMask).toNat with
  | some (w, k) => if 2 ^ s.fld (PORT_LINK_CFG_MIN_WIDTH p) ≤ w then some (w, k) else none
  | none => none

/-! ## Alignment markers and flits on the wire -/

/-- The nine bytes of an AM (R122). -/
def amBytes (lg seq : Nat) : List (BitVec 8) :=
  let b : List (BitVec 8) := [0xA5, 0x3C, 0x0F, 0x96, BitVec.ofNat 8 lg, BitVec.ofNat 8 seq, 0, 0]
  b ++ [b.foldl (· ^^^ ·) 0]

/-- Send an AM on each active lane: the unit 8/W times fills the slot, AM_SEQ rises and the scrambler is loaded (R112, R122). -/
def State.sendAm (s : State) (p m : Nat) : State :=
  let w := (s.activeLogical p m).length
  s.each (s.activeLogical p m) fun t lg =>
    let l := t.laneIx p m lg
    let x := t.lane l
    t.setLane l { x with amSeqTx := x.amSeqTx + 1, scrTx := BitVec.ofNat 23 (scrSeed lg x.amSeqTx.toNat), sent := (List.replicate (8 / w) (amBytes lg x.amSeqTx.toNat)).flatten }

/-- CRC prefix of Table 7.2. -/
def crcPrefix (seq kind did link port : Nat) : List (BitVec 8) :=
  [BitVec.ofNat 8 seq, BitVec.ofNat 8 (seq / 256 + 16 * kind), BitVec.ofNat 8 did, BitVec.ofNat 8 (did / 256 + 16 * link), BitVec.ofNat 8 port, 0]

/-- The 72 bytes of a flit (Table 7.1). -/
def flitBytes (pre content : List (BitVec 8)) (pam4 : Bool) : List (BitVec 8) :=
  let b := slice content 0 64
  let c := b ++ leBytes 4 (crc32c (pre ++ b))
  c ++ (if pam4 then rsParity 4 c else zeros 4)

/-- Scramble a flit lane by lane onto the active lanes (R111, R112). -/
def State.putFlit (s : State) (p m : Nat) (f : List (BitVec 8)) : State :=
  let ls := s.txLanes p m
  let w := ls.length
  let step := fun (a : State × List (BitVec 8)) (k : Nat) =>
    match ls[k % w]? with
    | none => (a.1, a.2 ++ [f.getD k 0])
    | some l =>
      let x := a.1.lane l
      let r := scrByte x.scrTx.toNat (f.getD k 0)
      (a.1.setLane l { x with scrTx := BitVec.ofNat 23 r.1 }, a.2 ++ [r.2])
  let r := (List.range 72).foldl step (s, [])
  let t := r.1.each (List.range w) fun t i =>
    let l := ls.getD i 0
    t.setLane l { t.lane l with sent := ((List.range (72 / w)).map fun j => r.2.getD (w * j + i) 0) }
  t.setLink p m { t.link p m with lastWire := r.2 }

/-- Links share the port's receive credits: PORT_CRED_INIT / L (R147). -/
def State.grants (s : State) (p : Nat) : List Nat := (List.range 5).map fun v => s.fld (PORT_CRED_INIT_FLITS p v) / s.nLinks p

/-- LCF content (Table 7.3). -/
def lcfContent (l : Link) : List (BitVec 8) :=
  [0x01, BitVec.ofNat 8 (l.nakId.toNat + 16 * b2n l.retryWait)]
  ++ leBytes 2 ((l.rxExp - 1).toNat + 32768 * b2n l.acceptedAny)
  ++ leBytes 2 (l.rxExp.toNat * b2n l.retryWait) ++ zeros 2
  ++ l.ownRet.flatMap (leBytes 2) ++ l.ownInit.flatMap (leBytes 2) ++ zeros 36

/-- Send an LCF: nothing is left unreported (R139). -/
def State.sendLcf (s : State) (p m : Nat) : State :=
  let l := s.link p m
  let t := s.setLink p m { l with toldRet := l.ownRet, ackOwed := 0, nakOwed := false }
  t.putFlit p m (flitBytes (crcPrefix 0 0xC l.txDid.toNat m p) (lcfContent l) (s.fld (PORT_LINK_CFG_RATE p) == 2))

/-- Put a packet flit with a sequence number on the wire. -/
def State.sendPacketFlit (s : State) (p m : Nat) (seq : BitVec 12) (content : List (BitVec 8)) : State :=
  let l := s.link p m
  (s.incPair (PORT_FLITS_TX_LO p) 1).putFlit p m (flitBytes (crcPrefix seq.toNat 0x0 l.txDid.toNat m p) content (s.fld (PORT_LINK_CFG_RATE p) == 2))

/-- L0 entry from training (Table 6.5 step 7, R140): AMs go out, credits are granted, waiting packets are routed again
(R166). `keep`: after L2 the link layer keeps its state (R129). -/
def State.enterL0 (s : State) (p m : Nat) : State :=
  let t := s.set (PORT_LINK_STATUS_STATE p m) 4
  let t := t.set (PORT_LINK_STATUS_REASON p m) 0
  let l := t.link p m
  let t := t.setLink p m (if l.resume then { l with otherRun := 0, txDid := BitVec.ofNat 12 s.did }
    else { l.resetLL with ownInit := t.grants p, llCfg := BitVec.ofNat 32 (t.reg (PORT_LL_CFG p).off), otherRun := 0, txDid := BitVec.ofNat 12 s.did })
  let act := t.activeLogical p m
  let t := t.each (t.linkLanes p m) fun t x => t.set (LANE_STATUS_IN_USE x) (b2n (act.contains (t.fld (LANE_STATUS_LOGICAL x)) && t.on (LANE_STATUS_MARKER_LOCK x)))
  -- the transmitter of a lane not in use is squelched (Table 2.8)
  let t := t.each (t.linkLanes p m) fun t x => t.setLane x { t.lane x with squelch := !(t.txLanes p m).contains x }
  -- a margin result counts only since the link last entered L0 (Table 21.10)
  let t := t.each (t.linkLanes p m) fun t x => t.set (BST_LANE_RESULT_VALID x) 0
  (t.sendAm p m).reroute

/-! ## The link layer's receiver -/

/-- Raise a NAK; beyond NAK_LIMIT in a row it asks for a retrain (R143, R145). -/
def State.raiseNak (s : State) (p m : Nat) : State :=
  let l := s.link p m
  let t := (s.inc (PORT_NAK_TX p)).setLink p m { l with retryWait := true, nakId := l.nakId + 1, nakRun := l.nakRun + 1, nakOwed := true }
  if l.nakRun + 1 > bitsOf l.llCfg.toNat 27 24 then (t.inc (PORT_LL_RETRAIN_REQ p)).retrain p m else t

/-- Place of a sequence number in the window of kept flits: how many kept flits lie before it. -/
def Link.before (l : Link) (q : BitVec 12) : Nat :=
  match l.kept with
  | [] => (q - l.txNext).toNat
  | k :: _ => (q - k.seq).toNat

/-- Release kept flits up to and including `a` (R143). -/
def Link.release (l : Link) (a : BitVec 12) : Link :=
  let n := l.before (a + 1)
  { l with kept := l.kept.drop n, replay := l.replay.filter fun k => (l.kept.drop n).any fun j => j.seq == k.seq }

/-- LCF_RECEIVED (R143, R144, R147). -/
def State.onLcf (s : State) (p m : Nat) (c : List (BitVec 8)) : State :=
  if byteAt c 0 ≠ 1 then s.inc (PORT_LCF_BAD p)
  else
    let l0 := s.link p m
    let ackValid := bitAt (leAt c 2 2) 15
    let ack := BitVec.ofNat 12 (leAt c 2 2)
    let nakValid := bitAt (byteAt c 1) 4
    let nakId := BitVec.ofNat 4 (byteAt c 1)
    let nakSeq := BitVec.ofNat 12 (leAt c 4 2)
    let ackOk := decide (l0.before (ack + 1) ≤ l0.kept.length)
    let s1 := s.when (ackValid && !ackOk) fun s => s.inc (PORT_LCF_BAD p)
    let l1 := if ackValid && ackOk then l0.release ack else l0
    let isNak := nakValid && nakId != l1.lastNak
    let nakOk := decide (l1.before nakSeq ≤ l1.kept.length)
    let l2 := if isNak then { l1 with lastNak := nakId } else l1
    let s2 := s1.when isNak fun s => if nakOk then s.inc (PORT_NAK_RX p) else s.inc (PORT_LCF_BAD p)
    let l3 := if isNak && nakOk then
        let r := { l2 with kept := l2.kept.drop (l2.before nakSeq) }
        { r with replay := r.kept }
      else l2
    -- resumption after a retrain or an L2 exit (R144)
    let l4 := if l0.resume then { l3 with resume := false, replay := l3.kept } else l3
    let s3 := s2.when (l0.resume && !l4.kept.isEmpty) fun s => s.inc (PORT_REPLAY_TO p)
    let rets := (List.range 5).map fun v => leAt c (8 + 2 * v) 2
    let inits := (List.range 5).map fun v => leAt c (18 + 2 * v) 2
    s3.setLink p m { l4 with peerRet := rets, peerInit := if l0.partnerLcf then l4.peerInit else inits, partnerLcf := true }

/-- PACKET_ASSEMBLED (R148), admission (R157), the checks at arrival (R159, R164, R169, R182), and the routing decision. -/
def State.arrive (s : State) (p m : Nat) (pk : Packet) : State :=
  let vc := pk.hdr.vc
  let n := pk.flits
  let l := s.link p m
  if l.rxHeld.getD vc 0 + n > l.ownInit.getD vc 0 then s.inc (PORT_CNT_VIOL_CREDIT p)
  else
    let ret := fun (t : State) =>
      let l := t.link p m
      t.setLink p m { l with ownRet := l.ownRet.set vc ((l.ownRet.getD vc 0 + n) % 65536) }
    if !s.admitted p m then ret (s.inc RT_NOT_ADMITTED)
    else if pk.hdr.len.toNat > 4096 then ret (s.inc GLB_CNT_VIOL_MALFORMED)
    else
      let host := s.role p == 1
      let h := if host then { pk.hdr.setDlx false with hops := 0, age := 0 } else pk.hdr
      let q : Packet := { pk with hdr := h }
      if host && h.isReq && h.src != eidOf s.did p then
        let t := ret (s.inc RT_CNT_VIOL_ACCESS)
        if h.expects then t.addOut { inPort := none, port := p, vc := if isVc4 h.opc then 4 else 2, pkt := { mkRsp s.eid h stACCESS 0 [] with hdr := { (mkRsp s.eid h stACCESS 0 []).hdr with dst := eidOf s.did p } }, cells := 1, at_ := s.now, waiting := none, enters := false }
        else t
      else
        let t := s.setLink p m { l with rxHeld := l.rxHeld.set vc (l.rxHeld.getD vc 0 + n) }
        let t := t.addIn { port := p, link := m, vc := vc, pkt := q, cells := n, at_ := s.now }
        -- a transit packet is activity (R80)
        let t := if t.route q (some p) == .here then t else t.activity
        t.tryMove (t.sw.ingress.length - 1)

/-- A packet flit is accepted in sequence (R143): its content joins the packet being received. -/
def State.acceptFlit (s : State) (p m : Nat) (content : List (BitVec 8)) : State :=
  let l := s.link p m
  let buf := l.partial_ ++ content
  let whole := decide (buf.length ≥ 64 * (packetOf buf).flits)
  let t := (s.incPair (PORT_FLITS_RX_LO p) 1).setLink p m
    { l with rxExp := l.rxExp + 1, retryWait := false, nakRun := 0, acceptedAny := true, ackOwed := l.ackOwed + 1, partial_ := if whole then [] else buf }
  if whole then t.arrive p m (packetOf buf) else t

/-! ## The link layer's sender -/

/-- Credits available on a VC (R147). -/
def Link.avail (l : Link) (v : Nat) : Nat :=
  if l.partnerLcf then (l.peerInit.getD v 0 + l.peerRet.getD v 0 + 65536 - l.spent.getD v 0 % 65536) % 65536 else 0

/-- Is an LCF due ahead of packet flits (R139), the time limit aside? -/
def Link.lcfAhead (l : Link) : Bool :=
  decide (bitsOf l.llCfg.toNat 15 8 ≤ l.ackOwed) || l.nakOwed
  || (List.range 5).any fun v => decide (64 ≤ (l.ownRet.getD v 0 + 65536 - l.toldRet.getD v 0) % 65536)

/-- Does anything stand unreported (R139)? -/
def Link.unreported (l : Link) : Bool := decide (0 < l.ackOwed) || l.nakOwed || l.ownRet != l.toldRet

/-- Residence of a packet in units of AGE_UNIT (R169). -/
def State.residence (s : State) (at_ : Nat) : Nat := (s.now - at_) * 1000 / (32 * 2 ^ s.fld RT_CFG_AGE_UNIT)

/-- AGE a packet would leave with. -/
def State.ageOf (s : State) (o : OutPkt) : Nat := satAdd 255 o.pkt.hdr.age.toNat (1 + s.residence o.at_)

/-- Order of the stack's own VC4 packets (R414): ALARM by class then domain, MREG_RSP, TELEM. -/
def ownRank (o : OutPkt) : Nat :=
  if o.pkt.hdr.opc = opALARM then (3 - bitsOf o.pkt.hdr.addr.toNat 9 8) * 256 + bitsOf o.pkt.hdr.addr.toNat 7 0
  else if o.pkt.hdr.opc = opMREGRSP then 1024
  else if o.pkt.hdr.opc = opTELEM then 1025
  else 1023

/-- Of the stack's own VC4 packets only the first in the order of R414 stands as its units' candidate. -/
def ownFirst (l : List (Nat × OutPkt)) : List (Nat × OutPkt) :=
  l.filter fun x => x.2.inPort.isSome
    || !(l.any fun y => y.2.inPort.isNone && (decide (ownRank y.2 < ownRank x.2) || (ownRank y.2 == ownRank x.2 && decide (y.1 < x.1))))

/-- Better of two candidates (R170): highest AGE, then round-robin over the inputs, then the older one. -/
def State.better (s : State) (rr : Nat) (a b : Nat × OutPkt) : Bool :=
  let ia := ((a.2.inPort.getD ownPort) + 33 - rr) % 33
  let ib := ((b.2.inPort.getD ownPort) + 33 - rr) % 33
  if s.ageOf a.2 ≠ s.ageOf b.2 then decide (s.ageOf a.2 > s.ageOf b.2)
  else decide (ia < ib)

def State.best (s : State) (rr : Nat) (l : List (Nat × OutPkt)) : Option (Nat × OutPkt) :=
  l.foldl (fun b x => match b with
    | none => some x
    | some y => if s.better rr x y then some x else some y) none

/-- Must `b` stay behind `a`, which came first: one SRC, one DST, one VC (R195); R414 orders the stack's own VC4 packets of different
kinds? -/
def sameFlow (a b : OutPkt) : Bool :=
  a.vc == b.vc && a.port == b.port && a.pkt.hdr.src == b.pkt.hdr.src && a.pkt.hdr.dst == b.pkt.hdr.dst && a.waiting.isNone
    && !(a.vc == 4 && a.inPort.isNone && b.inPort.isNone && ownRank a != ownRank b)

/-- Egress packets ready to start on a link, with their places (R142, R158, R170, R171, R195). -/
def State.readyOut (s : State) (p m : Nat) : List (Nat × OutPkt) :=
  let l := s.link p m
  (List.range s.sw.egress.length).filterMap fun k => match s.sw.egress[k]? with
    | some o =>
      if o.port == p && o.waiting.isNone && s.linkFor p o.pkt.hdr == some m && !((s.sw.egress.take k).any fun a => sameFlow a o)
        && decide (o.pkt.flits + (if o.vc = 4 && o.enters then 8 else 0) ≤ l.avail o.vc) then some (k, o) else none
    | none => none

/-- The packet to start (R170). -/
def State.chooseOut (s : State) (p m : Nat) : Option (Nat × OutPkt) :=
  let l := s.link p m
  let all := s.readyOut p m
  let v4 := ownFirst (all.filter fun x => x.2.vc == 4)
  let rsp := all.filter fun x => x.2.vc == 2 || x.2.vc == 3
  let req := all.filter fun x => x.2.vc == 0 || x.2.vc == 1
  if !v4.isEmpty && (decide (l.sinceVc4 ≥ 3) || (rsp.isEmpty && req.isEmpty)) then s.best l.rrIn v4
  else if !rsp.isEmpty && !(decide (l.respRun ≥ 7) && !req.isEmpty) then s.best l.rrIn rsp
  else if !req.isEmpty then s.best l.rrIn req
  else none

/-- Retry-buffer entries of a link (R141). -/
def State.retryCap (s : State) (p : Nat) : Nat := 512 / s.nLinks p

/-- Send the next flit of the packet in hand as a new packet flit (R141). -/
def State.sendNext (s : State) (p m : Nat) : State :=
  let l := s.link p m
  match l.sending with
  | [] => s
  | c :: rest =>
    let t := s.setLink p m { l with sending := rest, txNext := l.txNext + 1, kept := l.kept ++ [{ seq := l.txNext, content := c }] }
    t.sendPacketFlit p m l.txNext c

/-- Start a packet: it leaves its egress account, its credits are spent, HOPS and AGE are set (R147, R169). -/
def State.startPacket (s : State) (p m k : Nat) (o : OutPkt) : State :=
  let h := if isFabric (s.role p) then { o.pkt.hdr with hops := o.pkt.hdr.hops + 1, age := BitVec.ofNat 8 (s.ageOf o) } else o.pkt.hdr
  let pk : Packet := { o.pkt with hdr := h }
  let l := s.link p m
  let s1 := { s with sw := { s.sw with egress := ldrop s.sw.egress k } }
  let l1 := { l with sending := pk.contents, spent := l.spent.set o.vc ((l.spent.getD o.vc 0 + pk.flits) % 65536), sinceVc4 := if o.vc = 4 then 0 else l.sinceVc4 + 1, respRun := if o.vc = 2 ∨ o.vc = 3 then l.respRun + 1 else if o.vc = 4 then l.respRun else 0, rrIn := ((o.inPort.getD ownPort) + 1) % 33 }
  (s1.setLink p m l1).sendNext p m

end Sys2Proof.Machine
end

