-- ==== Sys2Proof/Machine/Operands.lean ====
section
/-! DEFINITION. Operand arithmetic of ATOM, ATOMB and REDUCE (Table 9.4, R189, R190): integers of a width, and IEEE 754
addition in binary32 and binary64. -/

namespace Sys2Proof.Machine

set_option Elab.async false

/-- A number of `w` bits as a signed integer. -/
def toSigned (w v : Nat) : Int := if v < 2 ^ (w - 1) then (v : Int) else (v : Int) - 2 ^ w

/-- Fraction bits and exponent bits of a format. -/
def fpFrac (w : Nat) : Nat := if w = 64 then 52 else 23
def fpExp (w : Nat) : Nat := if w = 64 then 11 else 8

/-- The canonical quiet NaN (R190). -/
def fpNaN (w : Nat) : Nat := if w = 64 then 0x7FF8000000000000 else 0x7FC00000

def fpInf (w : Nat) : Nat := (2 ^ fpExp w - 1) * 2 ^ fpFrac w
def fpSign (w v : Nat) : Bool := bitAt v (w - 1)
def fpMag (w v : Nat) : Nat := v % 2 ^ (w - 1)
def fpIsNaN (w v : Nat) : Bool := decide (fpMag w v > fpInf w)
def fpIsInf (w v : Nat) : Bool := fpMag w v == fpInf w

/-- Magnitude of a finite number in units of its least subnormal. -/
def fpUnits (w v : Nat) : Nat :=
  let e := fpMag w v / 2 ^ fpFrac w
  let f := fpMag w v % 2 ^ fpFrac w
  if e = 0 then f else (2 ^ fpFrac w + f) * 2 ^ (e - 1)

def fpInt (w v : Nat) : Int := if fpSign w v then -(fpUnits w v : Int) else (fpUnits w v : Int)

/-- Magnitude rounded to nearest, ties to even, from units of the least subnormal. -/
def fpRound (w n : Nat) : Nat :=
  let m := fpFrac w
  if n < 2 ^ m then n
  else
    let sh := Nat.log2 n - m
    let q := n / 2 ^ sh
    let r := n % 2 ^ sh
    let up := decide (2 * r > 2 ^ sh) || (decide (2 * r = 2 ^ sh) && q % 2 == 1)
    let q' := if sh > 0 && up then q + 1 else q
    -- `q'` has m + 1 bits, or is 2^(m+1) after a carry; the exponent field follows by addition
    let v := sh * 2 ^ m + q'
    if v ≥ fpInf w then fpInf w else v

/-- FADD (R190). -/
def fpAdd (w a b : Nat) : Nat :=
  if fpIsNaN w a || fpIsNaN w b then fpNaN w
  else if fpIsInf w a then (if fpIsInf w b && fpSign w a != fpSign w b then fpNaN w else a)
  else if fpIsInf w b then b
  else
    let s := fpInt w a + fpInt w b
    if s = 0 then (if fpSign w a && fpSign w b then 2 ^ (w - 1) else 0)
    else if s < 0 then 2 ^ (w - 1) + fpRound w s.natAbs
    else fpRound w s.natAbs

/-- New value of an atomic operation on `w` bits (Table 9.4); `none` for a reserved OP. -/
def atomNew (op w old a b : Nat) : Option Nat :=
  let m := 2 ^ w
  match op with
  | 0x0 => some ((old + a) % m)
  | 0x1 => some (old &&& a)
  | 0x2 => some (old ||| a)
  | 0x3 => some (old ^^^ a)
  | 0x4 => some (if toSigned w old ≤ toSigned w a then old else a)
  | 0x5 => some (if toSigned w old ≥ toSigned w a then old else a)
  | 0x6 => some (min old a)
  | 0x7 => some (max old a)
  | 0x8 => some a
  | 0x9 => some (if old = b then a else old)
  | 0xA => some (fpAdd w old a)
  | _ => none

/-- Does the operation write (CAS that does not match writes nothing)? -/
def atomWrites (op old b : Nat) : Bool := op != 0x9 || old == b

/-- Operand width of an ATOM's SUBOP (R189). -/
def atomWidth (subop : Nat) : Nat := if bitAt subop 4 then 64 else 32

end Sys2Proof.Machine
end

