-- ==== Sys2Proof/Machine/Memory.lean ====
section
/-! DEFINITION. Memory: the interleave map and its inverse (R236, R239), folds (R376), the DRAM as stored and its code
(R375 to R378), the SRAM code (R379, R380), correction logs (R384), and cache lines (R219 to R221). -/

namespace Sys2Proof.Machine

set_option Elab.async false

/-! ## Undefined values -/

/-- Take the next draw of undefined bytes. -/
def State.draw (s : State) (n : Nat) : List (BitVec 8) × State :=
  ((List.range n).map fun i => Config.freeByte s.free i, { s with free := s.free + 1 })

/-! ## The interleave map (R236) -/

/-- log2 of the grain. -/
def grainLog (cfg : Nat) : Nat := 8 + 2 * bitsOf cfg 2 0
def cfgHash (cfg : Nat) : Bool := bitAt cfg 4
def cfgParity (cfg : Nat) : Bool := bitAt cfg 8

/-- N: data channels. -/
def dataChans (nch cfg : Nat) : Nat := if cfgParity cfg then nch * 7 / 8 else nch

def foldR (r : Nat) : Nat :=
  bitsOf r 4 0 ^^^ bitsOf r 9 5 ^^^ bitsOf r 14 10 ^^^ bitsOf r 19 15 ^^^ bitsOf r 24 20

/-- Logical channel and channel offset of a local address. -/
def mapAddr (nch cfg a : Nat) : Nat × Nat :=
  let n := dataChans nch cfg
  let g := a / 2 ^ grainLog cfg
  let w := a % 2 ^ grainLog cfg
  let r := g / n
  ((g % n + if cfgHash cfg then foldR r else 0) % n, r * 2 ^ grainLog cfg + w)

/-- Local address of a logical channel and offset: the inverse of R236. -/
def unmapAddr (nch cfg k o : Nat) : Nat :=
  let n := dataChans nch cfg
  let r := o / 2 ^ grainLog cfg
  let w := o % 2 ^ grainLog cfg
  let x := if cfgHash cfg then foldR r % n else 0
  (r * n + (k + n - x) % n) * 2 ^ grainLog cfg + w

/-- Row of a block (Table 11.2): O[31:15], the block being O[31:6]. -/
def rowOf (block : Nat) : Nat := block / 512

/-- Pseudo-channel, bank group and bank of a block (Table 11.2). -/
def pcOf (block : Nat) : Nat := block / 16 % 2
def bgOf (block : Nat) : Nat := (block / 32 % 4) ^^^ (rowOf block % 4)
def bankOf (block : Nat) : Nat := (block / 128 % 4) ^^^ (rowOf block / 4 % 4)
/-- Bank index in the channel: pseudo-channel × 16 + group × 4 + bank. -/
def bankIx (block : Nat) : Nat := pcOf block * 16 + bgOf block * 4 + bankOf block

/-- Parity holder of a stripe: row mod 8 (R239). -/
def holderOf (group block : Nat) : Nat := 8 * group + rowOf block % 8

/-- phys() of a PROTECTED group (R239). -/
def physOf (k block : Nat) : Nat :=
  let j := k / 7
  let p := k % 7
  8 * j + (if p < rowOf block % 8 then p else p + 1)

/-- GROUP_STATE of a group: 0 OFF, 1 PROTECTED, 2 REBUILDING, 3 UNPROTECTED. -/
def State.groupSt (s : State) (j : Nat) : Nat := s.fld GLB_MEM_STATUS_GROUP_STATE / 4 ^ j % 4
def State.setGroupSt (s : State) (j v : Nat) : State :=
  let g := s.fld GLB_MEM_STATUS_GROUP_STATE
  s.set GLB_MEM_STATUS_GROUP_STATE (putBits g (2 * j + 1) (2 * j) v)

def State.memCfg (s : State) : Nat := s.reg GLB_MEM_CFG.off
def State.parity (s : State) : Bool := cfgParity s.memCfg

/-- First local address that does not exist: N × 3 GiB (R4, R236). -/
def State.memTop (s : State) : Nat := dataChans s.nChans s.memCfg * 3 * 2 ^ 30

/-- Has a rebuilt channel's block moved to its parity holder (R241)? -/
def State.movedBlock (s : State) (c block : Nat) : Bool :=
  s.on (CHAN_STATUS_RETIRED c)
  || (s.on (CHAN_STATUS_FENCED c) && (mget s.sett.rebuild c).isSome && decide (block < s.fld (CHAN_REBUILD_PTR_PTR c)))

/-- Home channel of a line before any rebuild, and its block. -/
def State.homeOf (s : State) (line : Nat) : Nat × Nat :=
  let (k, o) := mapAddr s.nChans s.memCfg (line * 64)
  (if s.parity then physOf k (o / 64) else k, o / 64)

/-- Channel and block that hold a line now (R239, R241). -/
def State.placeOf (s : State) (line : Nat) : Nat × Nat :=
  let (c, b) := s.homeOf line
  if s.parity && s.movedBlock c b then (holderOf (c / 8) b, b) else (c, b)

/-- A channel that serves no block. -/
def State.chanOut (s : State) (c : Nat) : Bool := s.on (CHAN_STATUS_FENCED c) || s.on (CHAN_STATUS_LOST c)

/-- Is the line's block in a fenced channel (R252)? -/
def State.lineFenced (s : State) (line : Nat) : Bool := s.chanOut (s.placeOf line).1

/-- The line whose home is a channel and block; `none` for a parity block. -/
def State.lineAt (s : State) (c block : Nat) : Option Nat :=
  if s.parity then
    let h := rowOf block % 8
    let p := c % 8
    if p = h then none
    else some (unmapAddr s.nChans s.memCfg (7 * (c / 8) + if p > h then p - 1 else p) (block * 64) / 64)
  else some (unmapAddr s.nChans s.memCfg c (block * 64) / 64)

/-- The line stored at a channel and block now, a rebuilt one included. -/
def State.lineHere (s : State) (c block : Nat) : Option Nat :=
  match s.lineAt c block with
  | some l => some l
  | none =>
    ((List.range 8).map fun i => 8 * (c / 8) + i).findSome? fun f =>
      if f != c && s.movedBlock f block then s.lineAt f block else none

/-! ## The DRAM code -/

/-- Fold of a block (R376): the line number, or the parity form. -/
def foldOf (line : Option Nat) (c block : Nat) : Nat :=
  match line with
  | some l => l
  | none => 2 ^ 39 + c * 2 ^ 26 + block

/-- Fold bytes 4 to 0. -/
def foldBytes (f : Nat) : List (BitVec 8) := (leBytes 5 f).reverse

/-- The 72 stored bytes of 64 data bytes (R375), poisoned or not (R378). -/
def dramEncode (f : Nat) (data : List (BitVec 8)) (poison : Bool) : List (BitVec 8) :=
  let d := slice data 0 64
  let k := rsParity 8 (foldBytes f ++ d)
  d ++ (if poison then k.map (· ^^^ 0x96) else k)

inductive DecRes
  | clean
  | poisoned
  /-- places in the codeword (0 is degree 76) that were corrected -/
  | corrected (at_ : List Nat)
  | ue
  | ueAddr
  deriving DecidableEq, Repr

/-- The decoder of R377: result and data. -/
def dramDecode (f : Nat) (blk : List (BitVec 8)) : DecRes × List (BitVec 8) :=
  let w := foldBytes f ++ slice blk 0 72
  let d := slice blk 0 64
  if (rsSyndromes 8 w).all (· == 0) then (.clean, d)
  else if (rsSyndromes 8 (xorBytes w (zeros 69 ++ List.replicate 8 0x96))).all (· == 0) then (.poisoned, d)
  else match rsErrors 8 w with
    | none => (.ue, d)
    | some es =>
      if es.any fun e => decide (e.1 < 5) then (.ueAddr, d)
      else (.corrected (es.map (·.1)), slice ((rsApply w es).drop 5) 0 64)

/-! ## DRAM as stored -/

/-- The memory keeps its one form: addresses strictly rising. A byte that is not listed reads as an undefined value, so that no
listed byte equals what an unlisted one reads as. -/
def Memory.wf (m : List (Nat × BitVec 8)) : Bool := rising m

def dramKey (c block i : Nat) : Nat := (c * (3 * 2 ^ 24) + block) * 72 + i

/-- The stored bytes of a block; undefined ones where nothing has written it (R381). -/
def State.dramRead (s : State) (c block : Nat) : List (BitVec 8) × State :=
  let l := (List.range 72).map fun i => mget s.chan.dram (dramKey c block i)
  if l.all (·.isSome) then (l.map (·.getD 0), s)
  else if block < mgetD s.chan.zeroed c 0 then (dramEncode (foldOf (s.lineHere c block) c block) (zeros 64) false, s)
  else s.draw 72

def State.dramWrite (s : State) (c block : Nat) (bytes : List (BitVec 8)) : State :=
  { s with chan := { s.chan with dram := (List.range 72).foldl (fun m i => mput (dramKey c block i) (bytes.getD i 0) m) s.chan.dram } }

/-- The contents of a whole channel, or of its blocks from `lo` on, become undefined (R88, R237). -/
def State.dramForget (s : State) (c lo : Nat) : State :=
  let z := min (mgetD s.chan.zeroed c 0) lo
  let dram := s.chan.dram.filter fun e => e.1 / 72 / (3 * 2 ^ 24) != c || decide (e.1 / 72 % (3 * 2 ^ 24) < lo)
  { s with chan := { s.chan with dram := dram, zeroed := if z = 0 then merase c s.chan.zeroed else mput c z s.chan.zeroed } }

/-- An activate: a neighbour refresh owed to the bank goes first, and one falls due where the low NR_K bits of the draw are 0 (R247);
CHAN_ACT counts it (R253). -/
def State.activateRow (s : State) (c block draw : Nat) : State :=
  let b := bankIx block
  let k := s.chn c
  let rest := k.nrefDue.filter fun e => e.1 != b
  let due := draw % 2 ^ s.fld (CHAN_REF_CFG_NR_K c) == 0
  ((s.setChn c { k with openRows := mput b (rowOf block) k.openRows, rowIdle := mput b 0 k.rowIdle, nrefDue := if due then rest ++ [(b, rowOf block)] else rest }).incBy
    (CHAN_NREF c) (k.nrefDue.length - rest.length)).incPair (CHAN_ACT_LO c) 1

/-- The row of a block is opened for an access that no queue holds; the draw of R247 comes from on-die noise and is open. -/
def State.useRow (s : State) (c block : Nat) : State :=
  if mget (s.chn c).openRows (bankIx block) = some (rowOf block) then s
  else ({ s with free := s.free + 1 } : State).activateRow c block (Config.freeNat s.free)

/-- Write a block with its code, counted (R253, R398). -/
def State.blockWrite (s : State) (c block : Nat) (data : List (BitVec 8)) (poison : Bool) : State :=
  let t := ((s.useRow c block).dramWrite c block (dramEncode (foldOf (s.lineHere c block) c block) data poison)).incPair (CHAN_WR_LO c) 1
  if poison then t.inc (CHAN_POISON_WR c) else t

/-- Read a block and decode it, counted (R253). -/
def State.blockFetch (s : State) (c block : Nat) : (DecRes × List (BitVec 8)) × State :=
  let (b, t) := (s.useRow c block).dramRead c block
  (dramDecode (foldOf (s.lineHere c block) c block) b, t.incPair (CHAN_RD_LO c) 1)

/-- Did a decode give data? -/
def DecRes.good : DecRes → Bool
  | .clean => true
  | .corrected _ => true
  | _ => false

/-- XOR of the other seven blocks of a stripe, read from DRAM (R240, R241); `none` when one of them is uncorrectable or poisoned, or
lies in a channel that is out. -/
def State.stripeXor (s : State) (c block : Nat) : Option (List (BitVec 8)) × State :=
  let others := ((List.range 8).map fun i => 8 * (c / 8) + i).filter (· != c)
  others.foldl (fun a x =>
    if a.2.chanOut x then (none, a.2)
    else
      let ((r, d), t) := a.2.blockFetch x block
      (match a.1 with
        | some acc => if r.good then some (xorBytes acc d) else none
        | none => none, t)) (some (zeros 64), s)

/-! ## Correction logs (R384) -/

/-- A log: registers VALID, COUNT, LOCATION of its entries. -/
structure LogRegs where
  n : Nat
  valid : Nat → Fld
  count : Nat → Fld
  loc : Nat → Fld
  lost : Fld

def chanLog (c : Nat) : LogRegs :=
  { n := 16, valid := CHAN_CE_LOG_VALID c, count := CHAN_CE_LOG_COUNT c, loc := CHAN_CE_LOG_LOCATION c, lost := CHAN_CE_LOG_LOST c }
def marlLog : LogRegs :=
  { n := 8, valid := MARL_CE_LOG_VALID, count := MARL_CE_LOG_COUNT, loc := MARL_CE_LOG_LOCATION, lost := MARL_CE_LOG_LOST }

/-- Log a correction (`ue` false) or an uncorrectable result. -/
def State.logError (s : State) (g : LogRegs) (loc : Nat) (ue : Bool) : State :=
  let put := fun i cnt => s.sets [(g.valid i, 1), (g.count i, cnt), (g.loc i, loc)]
  match (List.range g.n).find? fun i => s.on (g.valid i) && s.fld (g.loc i) == loc with
  | some i => s.set (g.count i) (if ue then 31 else satAdd 31 (s.fld (g.count i)) 1)
  | none =>
    match (List.range g.n).find? fun i => !s.on (g.valid i) with
    | some i => put i (if ue then 31 else 1)
    | none =>
      match (List.range g.n).find? fun i => if ue then decide (s.fld (g.count i) < 31) else s.fld (g.count i) == 1 with
      | some i => put i (if ue then 31 else 1)
      | none => s.inc g.lost

/-! ## The SRAM code (R379, R380) -/

inductive SramRes
  | clean
  /-- corrected; the bit of the unit (data 0–511, check 512–559) -/
  | corrected (bit : Nat)
  | ue
  deriving DecidableEq, Repr

/-- Decode the upset bits of a unit: 512 data bits, 16 row checks, 32 column checks. -/
def sramDecode (err : Nat) : SramRes :=
  let rows := (List.range 16).filter fun r => popN 32 (err / 2 ^ (32 * r)) % 2 != b2n (bitAt err (512 + r))
  let cols := (List.range 32).filter fun k =>
    ((List.range 16).filter fun r => bitAt err (32 * r + k)).length % 2 != b2n (bitAt err (528 + k))
  match rows, cols with
  | [], [] => .clean
  | [r], [k] => .corrected (32 * r + k)
  | [r], [] => .corrected (512 + r)
  | [], [k] => .corrected (528 + k)
  | _, _ => .ue

/-- Flip the data bits of a unit that are upset in `err`. -/
def flipBits (data : List (BitVec 8)) (err : Nat) : List (BitVec 8) :=
  (List.range data.length).map fun i => data.getD i 0 ^^^ BitVec.ofNat 8 (err / 2 ^ (8 * i))

/-! ## Cache lines (R219 to R221) -/

/-- Cache banks of a slice. -/
def State.cacheBanks (s : State) : Nat := 16 - s.fld MARL_PART_BUF_BANKS - s.fld MARL_PART_DEN_BANKS
/-- S: sets per slice. -/
def State.setsPer (s : State) : Nat := 256 * s.cacheBanks

def State.setOf (s : State) (l : Nat) : Nat := bitsOf l 33 6 % s.setsPer
/-- Set number over all slices: slice × 4096 + set. -/
def State.setIx (s : State) (l : Nat) : Nat := s.sliceOf l * 4096 + s.setOf l

def State.line (s : State) (l : Nat) : Option Line := mget s.marl.lines l
def State.setLine (s : State) (l : Nat) (x : Line) : State := { s with marl := { s.marl with lines := mput l x s.marl.lines } }
def State.dropLine (s : State) (l : Nat) : State := { s with marl := { s.marl with lines := merase l s.marl.lines } }
/-- The whole cache portion is invalid. -/
def State.emptyCache (s : State) : State := { s with marl := { s.marl with lines := [], plru := [], rewrite := [], fills := [], evicting := [] } }

/-- Lines of a set with their numbers. -/
def State.setLines (s : State) (ix : Nat) : List (Nat × Line) := s.marl.lines.filter fun e => s.setIx e.1 == ix

/-- LOCATION of a line's unit (Table 17.10): slice, bank, unit; units of a slice's cache banks in set and way order (log 20). -/
def State.lineLoc (s : State) (l : Nat) (way : Nat) : Nat :=
  let u := s.setOf l * 16 + way
  s.sliceOf l * 2 ^ 16 + (s.fld MARL_PART_BUF_BANKS + s.fld MARL_PART_DEN_BANKS + u / 4096) * 2 ^ 12 + u % 4096

/-- Way that a 15-bit tree pseudo-LRU chooses: node i's children are 2i + 1 and 2i + 2; a 0 bit points left. -/
def plruVictim (bits : Nat) : Nat :=
  let n0 := b2n (bitAt bits 0)
  let n1 := b2n (bitAt bits (1 + n0))
  let n2 := b2n (bitAt bits (3 + 2 * n0 + n1))
  let n3 := b2n (bitAt bits (7 + 4 * n0 + 2 * n1 + n2))
  8 * n0 + 4 * n1 + 2 * n2 + n3

/-- Tree after a way was used: every node on its path points away. -/
def plruTouch (bits way : Nat) : Nat :=
  let b3 := way / 8 % 2
  let b2 := way / 4 % 2
  let b1 := way / 2 % 2
  let b0 := way % 2
  putBit (putBit (putBit (putBit bits 0 (b3 == 0)) (1 + b3) (b2 == 0)) (3 + 2 * b3 + b2) (b1 == 0)) (7 + 4 * b3 + 2 * b2 + b1) (b0 == 0)

def State.touch (s : State) (l way : Nat) : State :=
  let ix := s.setIx l
  { s with marl := { s.marl with plru := mput ix (BitVec.ofNat 15 (plruTouch (mgetD s.marl.plru ix 0).toNat way)) s.marl.plru } }

/-- Way most recently used of a set cannot be read off a tree exactly: the leaf no node points to (R225, log 21). -/
def plruMru (bits : Nat) : Nat :=
  let n0 := 1 - b2n (bitAt bits 0)
  let n1 := 1 - b2n (bitAt bits (1 + n0))
  let n2 := 1 - b2n (bitAt bits (3 + 2 * n0 + n1))
  let n3 := 1 - b2n (bitAt bits (7 + 4 * n0 + 2 * n1 + n2))
  8 * n0 + 4 * n1 + 2 * n2 + n3

/-- MARL_DIRTY_LINES. -/
def State.dirtyLines (s : State) : Nat := (s.marl.lines.filter fun e => e.2.st == .dirty).length

/-- Lines of the cache portion. -/
def State.cacheLines (s : State) : Nat := s.fld MARL_STATUS_SLICES_CACHE * s.setsPer * 16

end Sys2Proof.Machine
end

