-- ==== Sys2Proof/Machine/Serve.lean ====
section
/-! DEFINITION. Serving local requests: classes and entries (R280 to R287), the queues of the channel controllers (R243),
cache actions (Table 10.3), ordering (R194, R223), and answers (R184, R186, R188). -/

namespace Sys2Proof.Machine

set_option Elab.async false

/-! ## Classes, byte counters, Bedrock buckets -/

/-- Class and group of a label in the active map (R280, R281). -/
def State.classify (s : State) (label : Nat) : Nat × Nat :=
  let b := s.fld (QOS_LABEL_ACT (label / 4)) / 256 ^ (label % 4) % 256
  (b / 64, b % 64)

/-- Group number that stands for background work. -/
def bgGrp : Nat := 64

/-- Bytes a Bedrock bucket holds at most: RATE × RATE_WIN, RATE in 100 bytes per µs (R287). -/
def State.bucketCap (s : State) (g : Nat) : Nat := bitsOf (s.fld (QOS_GROUP_ACT g)) 15 0 * s.qos.rateWin * 100

/-- Fill the buckets up to now. -/
def State.fillBuckets (s : State) : State :=
  let dt := s.now - s.qos.bucketAt
  { s with qos := { s.qos with bucketAt := s.now, bucket := s.qos.bucket.map fun e => (e.1, max e.2 (min (s.bucketCap e.1) (e.2 + bitsOf (s.fld (QOS_GROUP_ACT e.1)) 15 0 * 100 * dt))) } }

/-- Charge a Bedrock block to its group's bucket (R287). -/
def State.chargeBedrock (s : State) (g : Nat) : State :=
  let t := s.fillBuckets
  let have_ := mgetD t.qos.bucket g 0
  let u := { t with qos := { t.qos with bucket := mput g (have_ - 64) t.qos.bucket } }
  if have_ = 0 then u.inc QOS_CNT_VIOL_RATE else u

/-- Count bytes performed at the channels under a class and group (R280, R292); d = 0 read, 1 written. -/
def State.countBytes (s : State) (cls grp d n : Nat) : State :=
  if grp = bgGrp then s.incPair QOS_BG_BYTES_LO n
  else (s.incPair (QOS_BYTES_LO (2 * cls + d)) n).incPair (QOS_GRP_BYTES_LO grp) n

/-- A block performed at a channel: bytes counted, a Bedrock block charged. -/
def State.blockPerformed (s : State) (cls grp d : Nat) : State :=
  (s.countBytes cls grp d 64).when (cls == 0 && grp != bgGrp) fun t => t.chargeBedrock grp

/-! ## Fault injection (R415) -/

/-- A check by a checker of a unit: `some ue` while its injection is armed (R415), counted. -/
def State.injCheck (s : State) (checker unit : Nat) : Option Bool × State :=
  match s.flt.inject with
  | some i =>
    if i.checker = checker ∧ i.unit = unit ∧ i.remaining > 0 then
      let left := i.remaining - 1
      let t := { s with flt := { s.flt with inject := if left = 0 then none else some { i with remaining := left } } }
      (some i.ue, ((t.inc FLT_INJECTED).set FLT_INJ_STATUS_REMAINING left).set FLT_INJ_STATUS_ARMED (b2n (left != 0)))
    else (none, s)
  | none => (none, s)

/-! ## Queues of a channel (R243, R284, R285) -/

/-- res[g] in force. -/
def State.resOf (s : State) (g : Nat) : Nat := if g < 64 then s.fld (QOS_RES g) % 256 else 0

/-- Pool entries of a channel (R283). -/
def State.poolSize (s : State) : Nat := 256 - ((List.range 64).map s.resOf).sum

/-- The kind of entry a request of a class and group may take for a block now: `some reserved` (R284). A pseudo-channel has 128
entries (R243); a group that holds more than its reservation takes none meanwhile (R286). -/
def State.entryFor (s : State) (k : Chan) (block cls grp : Nat) : Option Bool :=
  let heldRes := (k.reads.filter fun r => r.grp == grp && r.reserved).length
  let pool := (k.reads.filter fun r => !r.reserved).length
  let sand := (k.reads.filter fun r => r.cls == 3).length
  if 128 ≤ (k.reads.filter fun r => pcOf r.block == pcOf block).length ∨ s.resOf grp < heldRes then none
  else if heldRes < s.resOf grp then some true
  else if pool < s.poolSize ∧ (cls ≠ 3 ∨ sand < s.qos.sandMax) then some false
  else none

/-- Does a waiter stand before a newcomer for the entry it would take (R284)? -/
def State.waiterFirst (s : State) (k : Chan) (reserved : Bool) (cls grp : Nat) : Bool :=
  k.waits.any fun w => s.entryFor k w.block w.cls w.grp == some reserved && (if reserved then w.grp == grp else decide (w.cls ≤ cls))

/-- Ask a channel for a read (R284): a miss entry, or a place in the admission queue. -/
def State.askRead (s : State) (c block : Nat) (use : RdUse) (cls grp : Nat) (forAtom : Bool := false) : State :=
  let k := s.chn c
  match (s.entryFor k block cls grp).filter fun r => !s.waiterFirst k r cls grp with
  | some r => s.setChn c { k with reads := k.reads ++ [{ block := block, use := use, cls := cls, grp := grp, reserved := r, forAtom := forAtom, at_ := s.now }] }
  | none => s.setChn c { k with waits := k.waits ++ [{ block := block, use := use, cls := cls, grp := grp, forAtom := forAtom, at_ := s.now }] }

/-- Is a fill of the line already asked for? -/
def State.fillAsked (s : State) (c line : Nat) : Bool :=
  let k := s.chn c
  (k.reads.any fun r => r.use == .miss line) || (k.waits.any fun w => w.use == .miss line)
  || (k.arrived.any fun a => a.1.use == .miss line)

/-- MARL_UE of a line's unit (Table 17.2, R386): fault, log, counter. -/
def State.marlUe (s : State) (loc : Nat) (inj : Bool) : State :=
  ((s.inc MARL_UE).logError marlLog loc true).raiseRec .marlUe 0 loc inj

/-- A Marl unit that corrects the same bit twice within one Marl pass is hard-failed (R392). -/
def State.noteMarlFix (s : State) (loc b : Nat) : State :=
  let p := s.prot
  if p.marlOnce.contains (loc, b) then
    { s with prot := { p with marlOnce := p.marlOnce.filter (· != (loc, b)), marlHard := if p.marlHard.contains loc then p.marlHard else p.marlHard ++ [loc] } }
  else { s with prot := { p with marlOnce := p.marlOnce ++ [(loc, b)] } }

/-- What reading a line's unit gives. -/
structure LineRead where
  data : List (BitVec 8)
  poison : Bool
  deriving DecidableEq, Repr

/-- What a line's unit decodes to (R380): data and poison mark, or none where it is uncorrectable. -/
def lineNow (x : Line) : Option LineRead :=
  match sramDecode x.err.toNat with
  | .clean => some { data := flipBits x.data x.err.toNat, poison := x.poison }
  | .corrected b => some { data := flipBits x.data (x.err.toNat ^^^ (if b < 512 then 2 ^ b else 0)), poison := x.poison }
  | .ue => none

/-- Decode a valid line's unit (R380, Table 17.2); `none` when a clean line had to be invalidated. -/
def State.decodeLine (s : State) (l : Nat) (x : Line) : Option LineRead × State :=
  let loc := s.lineLoc l x.way
  if x.err = 0 then (some { data := x.data, poison := x.poison }, s)
  else match sramDecode x.err.toNat, lineNow x with
    | .corrected b, some r =>
      let u := (s.inc MARL_CE).logError marlLog loc false
      let u := if u.marl.rewrite.contains l then u else u.noteMarlFix loc b
      (some r, { u with marl := { u.marl with rewrite := if u.marl.rewrite.contains l then u.marl.rewrite else u.marl.rewrite ++ [l] } })
    | _, some r => (some r, s)
    | _, none =>
      let u := s.marlUe loc false
      if x.st == .clean then (none, u.dropLine l)
      else (some { data := x.data, poison := true }, u.setLine l { x with poison := true, err := 0 })

/-- Read a valid line for an access; an armed injection decides first (R416). -/
def State.readLine (s : State) (l : Nat) : Option LineRead × State :=
  match s.line l with
  | none => (none, s)
  | some x =>
    let loc := s.lineLoc l x.way
    match s.injCheck 1 (s.sliceOf l) with
    | (some true, t) => (some { data := x.data, poison := true }, t.marlUe loc true)
    | (some false, t) => (some { data := x.data, poison := x.poison }, (t.inc MARL_CE).logError marlLog loc false)
    | (none, t) => t.decodeLine l x

/-- Queue the write-back of a dirty line (R224): its data are copied, its generation bit cleared. -/
def State.queueWb (s : State) (l cls grp : Nat) : State :=
  match s.line l with
  | none => s
  | some x =>
    let (c, b) := s.placeOf l
    let k := s.chn c
    if x.st != .dirty || x.wbBusy || s.lineFenced l || decide (64 ≤ k.writes.length) then s
    else
      match s.decodeLine l x with
      | (none, t) => t
      | (some r, t) =>
        let u := t.setLine l { (t.line l).getD x with wbBusy := true, gen := false }
        u.setChn c { u.chn c with writes := (u.chn c).writes ++ [{ block := b, data := r.data, poison := r.poison, line := some l, cls := cls, grp := grp, at_ := s.now }] }

/-! ## Cache lines -/

/-- A dirty line that may not be a victim: its channel is fenced in a REBUILDING group (R221). -/
def State.heldLine (s : State) (l : Nat) (x : Line) : Bool := x.st == .dirty && s.lineFenced l

/-- Ways of a set that a fill under way holds (R221). -/
def State.fillWays (s : State) (ix : Nat) : List Nat := (s.marl.fills.filter fun e => s.setIx e.1 == ix).map (·.2)

def State.holdWay (s : State) (l w : Nat) : State := { s with marl := { s.marl with fills := mput l w s.marl.fills } }
def State.freeWay (s : State) (l : Nat) : State := { s with marl := { s.marl with fills := merase l s.marl.fills } }

/-- The victim of a set for the line `l` (R221): the line whose eviction `l` has waited for, else one marked evict-first, else the
pseudo-LRU's. Ways with a fill or a write-back in progress are none. -/
def State.victim (s : State) (l : Nat) : Option (Nat × Line) :=
  let busy := s.fillWays (s.setIx l)
  let free := (s.setLines (s.setIx l)).filter fun e => !e.2.wbBusy && !busy.contains e.2.way && !s.heldLine e.1 e.2
  let lru := plruVictim (mgetD s.marl.plru (s.setIx l) 0).toNat
  let mine := (mget s.marl.evicting l).bind fun v => free.find? fun e => e.1 == v && e.2.st == .clean
  mine.or ((free.find? fun e => e.2.evictFirst).or ((free.find? fun e => e.2.way == lru).or free.head?))

/-- A way for a new line in the set of `l` (R221): the one its own fill holds, a free one, or that of a victim, whose eviction may
have to end first. -/
def State.takeWay (s : State) (l cls grp : Nat) : Option Nat × State :=
  let set := s.setLines (s.setIx l)
  let busy := s.fillWays (s.setIx l)
  let ok := fun w => !s.marl.badUnits.contains (s.lineLoc l w)
  match ((mget s.marl.fills l).filter ok).or ((List.range 16).find? fun w => !busy.contains w && !(set.any fun e => e.2.way == w) && ok w) with
  | some w => (some w, s)
  | none =>
    if ((mget s.marl.evicting l).bind s.line).any (·.wbBusy) then (none, s)
    else match s.victim l with
      | none => (none, s)
      | some (v, x) =>
        if x.st == .clean then
          let t := s.dropLine v
          (some x.way, { t with marl := { t.marl with evicting := merase l t.marl.evicting } })
        else
          let t := s.queueWb v cls grp
          (none, { t with marl := { t.marl with evicting := mput l v t.marl.evicting } })

/-- GRANULE_MARK (R362): a performed write marks its 64 KiB granule while tracking is on. -/
def State.markGranule (s : State) (l : Nat) : State :=
  if s.on CVU_CKP_CTL_TRACK then
    let g := l / 1024
    let m := s.fox.ckpActive
    let dirty := if m.flip.contains g then !m.base else m.base
    if dirty then s
    else
      let f := if m.base then m.flip.filter (· != g) else (m.flip ++ [g]).mergeSort
      { s with fox := { s.fox with ckpActive := { m with flip := f } } }
  else s

/-- Write a line that is valid, or newly placed in a way (Table 10.3): dirty, poison cleared or kept, generation bit set. -/
def State.writeLine (s : State) (l way : Nat) (old : Option Line) (data : List (BitVec 8)) (noalloc : Bool) : State :=
  let x : Line := match old with
    | some x => { x with st := .dirty, data := data, poison := false, gen := true, err := 0, evictFirst := noalloc }
    | none => { st := .dirty, data := data, poison := false, gen := true, way := way, evictFirst := noalloc }
  let t := ((s.setLine l x).touch l x.way).markGranule l
  if noalloc then t.queueWb l 3 bgGrp else t

/-! ## Transactions -/

def State.modTxn (s : State) (id : Nat) (f : Txn → Txn) : State := { s with txns := s.txns.map fun t => if t.id = id then f t else t }
def State.txn (s : State) (id : Nat) : Option Txn := s.txns.find? fun t => t.id == id

/-- Line of block `i` of a request. -/
def Txn.lineOf (t : Txn) (i : Nat) : Nat := t.pkt.hdr.addr.toNat / 64 + i

/-- Do two requests come from one source (R194)? -/
def Txn.sameSrc (a b : Txn) : Bool :=
  match a.unit, b.unit with
  | some x, some y => x.1 == y.1
  | none, none => a.pkt.hdr.src == b.pkt.hdr.src
  | _, _ => false

/-- Transactions accepted before one. -/
def State.before (s : State) (id : Nat) : List Txn := s.txns.takeWhile fun t => t.id != id

/-- SVCs of other stacks not yet complete, with their places in the order of arrival. -/
def State.openSvcs (s : State) : List (Nat × Packet) :=
  s.fox.svcNums.zip s.fox.svcQueue ++ s.fox.jobs.filterMap fun j => j.svc.map fun p => (j.num, p)

/-- Does an unfinished SVC of the same source that arrived before place `num` stand before a request (R183, R194)? -/
def State.svcBefore (s : State) (num : Nat) (h : Hdr) : Bool :=
  s.openSvcs.any fun e => decide (e.1 < num) && e.2.hdr.src == h.src && (h.ordered || e.2.hdr.ordered)

/-- May block `i` of a request be performed now: no older request stands before it (R194, R223)? -/
def State.mayPerform (s : State) (t : Txn) (i : Nat) : Bool :=
  ((s.before t.id).all fun u =>
    !(t.sameSrc u && (t.pkt.hdr.ordered || u.pkt.hdr.ordered))
    && !(u.todo.any fun j => u.lineOf j == t.lineOf i))
  && !(t.unit.isNone && s.svcBefore t.id t.pkt.hdr)

/-- May an SVC in place `num` of the order of arrival be performed now (R183, R194)? -/
def State.svcMay (s : State) (num : Nat) (p : Packet) : Bool :=
  !s.svcBefore num p.hdr
    && s.txns.all fun u => !(u.unit.isNone && decide (u.id < num) && u.pkt.hdr.src == p.hdr.src && (p.hdr.ordered || u.pkt.hdr.ordered))

/-- Block `i` of a transaction is done. -/
def State.blockDone (s : State) (id i : Nat) (data : Option (List (BitVec 8))) (poison : Bool) : State :=
  s.modTxn id fun t =>
    { t with todo := t.todo.filter (· != i), got := match data with
        | some d => mput i d t.got
        | none => t.got, poison := if poison then t.poison ||| BitVec.ofNat 64 (2 ^ i) else t.poison }

/-- A request that needs data from a channel fenced after acceptance is answered FENCED whole (R201). -/
def State.txnFenced (s : State) (id c : Nat) : State := (s.modTxn id fun t => { t with todo := [], fenced := true }).inc (CHAN_FENCED_REQ c)

/-- A lookup of block `i` missed, counted once. -/
def State.noteMiss (s : State) (t : Txn) (i : Nat) : State :=
  if t.missed.contains i then s else (s.incPair MARL_MISSES_LO 1).modTxn t.id fun u => { u with missed := u.missed ++ [i] }

/-- Raise a miss for block `i` (R222): one fill per line, and it holds a way from now on (R221); without a way the request waits in
the set's queue. -/
def State.raiseMiss (s : State) (t : Txn) (i : Nat) : State :=
  let l := t.lineOf i
  let (c, b) := s.placeOf l
  if s.chanOut c then s.txnFenced t.id c
  else
    let s1 := s.noteMiss t i
    if s1.fillAsked c l then s1
    else match s1.takeWay l t.cls t.grp with
      | (some w, s2) => (s2.holdWay l w).askRead c b (.miss l) t.cls t.grp (t.pkt.hdr.opc == opATOM)
      | (none, s2) => s2

/-- Count a lookup that hit, unless the block's miss has been counted. -/
def State.countHit (s : State) (t : Txn) (i : Nat) : State := if t.missed.contains i then s else s.incPair MARL_HITS_LO 1

/-- Mask of block `i` of a WRP (R188). -/
def wrpMask (p : Packet) (i : Nat) : Nat := leAt p.payload (8 * i) 8

/-- Bytes merged under a mask. -/
def mergeBytes (old new : List (BitVec 8)) (mask : Nat) : List (BitVec 8) :=
  (List.range 64).map fun j => if bitAt mask j then new.getD j 0 else old.getD j 0

/-- RD of one block. -/
def State.serveRd (s : State) (t : Txn) (i : Nat) : State :=
  let l := t.lineOf i
  let na := t.pkt.hdr.noalloc
  match s.readLine l with
  | (some r, s1) =>
    let x := (s1.line l).map (·.way)
    let s2 := s1.countHit t i
    let s3 := if na then s2 else s2.touch l (x.getD 0)
    let s4 := if na && !t.missed.contains i then
        (let (c, b) := s3.placeOf l
         (s3.incPair MARL_NOALLOC_LO 1).when (!s3.chanOut c) fun u => u.askRead c b (.noalloc t.id l) t.cls t.grp)
      else s3
    if r.poison then
      let (d, s5) := s4.draw 64
      s5.blockDone t.id i (some d) true
    else s4.blockDone t.id i (some r.data) false
  | (none, s1) =>
    if na then
      if t.missed.contains i then s1
      else
        let (c, b) := s1.placeOf l
        if s1.chanOut c then s1.txnFenced t.id c
        else ((s1.incPair MARL_NOALLOC_LO 1).noteMiss t i).askRead c b (.noalloc t.id l) t.cls t.grp
    else s1.raiseMiss t i

/-- Write one whole block (WR, or a WRP block whose mask is all ones). -/
def State.serveWr (s : State) (t : Txn) (i : Nat) (data : List (BitVec 8)) : State :=
  let l := t.lineOf i
  let na := t.pkt.hdr.noalloc
  let s0 := if na then s.incPair MARL_NOALLOC_LO 1 else s
  match s.line l with
  | some x => ((s0.countHit t i).writeLine l x.way (some x) data na).blockDone t.id i none false
  | none =>
    match s.takeWay l t.cls t.grp with
    | (some w, s1) =>
      let s2 := (s1.incPair MARL_MISSES_LO 1).when na fun u => u.incPair MARL_NOALLOC_LO 1
      (s2.writeLine l w none data na).blockDone t.id i none false
    | (none, s1) => s1

/-- WRP of one block (R188). -/
def State.serveWrp (s : State) (t : Txn) (i : Nat) : State :=
  let mask := wrpMask t.pkt i
  let data := slice t.pkt.payload (32 + 64 * i) 64
  if mask = 2 ^ 64 - 1 then s.serveWr t i data
  else if mask = 0 then (s.markGranule (t.lineOf i)).blockDone t.id i none false
  else
    let l := t.lineOf i
    let na := t.pkt.hdr.noalloc
    match s.readLine l with
    | (some r, s1) =>
      let s2 := (s1.countHit t i).when na fun u => u.incPair MARL_NOALLOC_LO 1
      if r.poison then s2.blockDone t.id i none true
      else match s2.line l with
        | some x => (s2.writeLine l x.way (some x) (mergeBytes r.data data mask) na).blockDone t.id i none false
        | none => s2
    | (none, s1) => s1.raiseMiss t i

/-- ATOM (R191): once, in the line. -/
def State.serveAtom (s : State) (t : Txn) : State :=
  let l := t.lineOf 0
  match s.readLine l with
  | (some r, s1) =>
    let s2 := s1.countHit t 0
    if r.poison then s2.blockDone t.id 0 none true
    else
      let sub := t.pkt.hdr.subop.toNat
      let w := atomWidth sub
      let o := t.pkt.hdr.addr.toNat % 64
      let old := leAt r.data o (w / 8)
      let a := leAt t.pkt.payload 0 (w / 8)
      let b := leAt t.pkt.payload 8 (w / 8)
      let s3 := match s2.line l, atomNew (sub % 16) w old a b with
        | some x, some v => if atomWrites (sub % 16) old b then s2.writeLine l x.way (some x) (splice r.data o (leBytes (w / 8) v)) false else s2.touch l x.way
        | _, _ => s2
      let s4 := ((s3.countBytes t.cls t.grp 0 (w / 8)).countBytes t.cls t.grp 1 (w / 8)).when (t.cls == 0) fun u => u.chargeBedrock t.grp
      s4.blockDone t.id 0 (some (leBytes 8 old)) false
  | (none, s1) => s1.raiseMiss t 0

/-- Perform block `i` of a transaction if it can be. -/
def State.serveBlock (s : State) (id i : Nat) : State :=
  match s.txn id with
  | none => s
  | some t =>
    if !t.todo.contains i || !s.mayPerform t i then s
    else if t.pkt.hdr.opc = opRD then s.serveRd t i
    else if t.pkt.hdr.opc = opWR then s.serveWr t i (slice t.pkt.payload (64 * i) 64)
    else if t.pkt.hdr.opc = opWRP then s.serveWrp t i
    else s.serveAtom t

/-- Answer of a finished transaction: status, ADDR, payload (Table 9.3). -/
def State.txnAnswer (t : Txn) : BitVec 8 × BitVec 64 × List (BitVec 8) :=
  let st := if t.fenced then stFENCED else if t.poison = 0 then stOK else stPOISON
  if t.fenced then (st, 0, [])
  else if t.pkt.hdr.opc = opRD then (st, t.poison, t.got.flatMap (·.2))
  else if t.pkt.hdr.opc = opATOM then (st, 0, if t.poison = 0 then t.got.flatMap (·.2) else [])
  else if t.pkt.hdr.opc = opWRP then (st, t.poison, [])
  else (st, 0, [])

/-- Hand an answer to the engine that made the access. -/
def State.engAnswer (s : State) (e acc : Nat) (a : AccAns) : State :=
  let g := s.eng e
  match g.run with
  | none => s
  | some r =>
    match r.opened.find? fun o => o.1 == acc with
    | none => s
    | some o =>
      let cut := match o.2.op with
        | .rd => (a.data.drop (o.2.addr % 64)).take o.2.len
        | _ => a.data
      s.setEng e { g with run := some { r with answers := r.answers ++ [(acc, { a with data := cut })], opened := r.opened.filter fun o => o.1 != acc } }

/-- A transaction with no block left is answered and removed (R184, R192). -/
def State.finishTxn (s : State) (id : Nat) : State :=
  match s.txn id with
  | none => s
  | some t =>
    if t.todo.isEmpty then
      let s1 := { s with txns := s.txns.filter fun u => u.id != id }
      let (st, ad, pl) := State.txnAnswer t
      match t.unit with
      | some (e, a) => s1.engAnswer e a { status := st, data := pl }
      | none =>
        let r := mkRsp s.eid t.pkt.hdr st ad pl
        if t.pkt.hdr.expects then s1.emitRsp r (t.held.take r.flits) else s1
    else s

/-- Blocks of a WRP that are merged under their mask, which needs their old data (R188). -/
def Txn.merges (t : Txn) : List Nat :=
  if t.pkt.hdr.opc = opWRP then t.todo.filter fun i => wrpMask t.pkt i != 0 && wrpMask t.pkt i != 2 ^ 64 - 1 else []

/-- Is the old data of block `i` at hand in the cache? -/
def State.mergeReady (s : State) (t : Txn) (i : Nat) : Bool :=
  s.mayPerform t i && (s.line (t.lineOf i)).any fun x => x.st == .dirty || (lineNow x).isSome

/-- A request goes as far as it can. Nothing of a WRP is performed before the old data of every block it merges are at hand, since a
fence may still end it (R201). -/
def State.serveTxn (s : State) (id : Nat) : State :=
  match s.txn id with
  | none => s
  | some t =>
    let s1 := s.each (t.merges.filter fun i => !s.mergeReady t i) fun u i => u.serveBlock id i
    match s1.txn id with
    | none => s1
    | some u => if u.merges.all (s1.mergeReady u) then (s1.each u.todo fun v i => v.serveBlock id i).finishTxn id else s1.finishTxn id

/-- Cleaning (R225): it starts above DIRTY_HI percent and stops at DIRTY_LO; while it runs, a dirty line that is not its
set's most recently used is written back at Sand class. -/
def State.cleanStep (s : State) : State :=
  let n := s.dirtyLines * 100
  let t := if s.on MARL_STATUS_CLEANING then (if n ≤ s.fld MARL_WB_CFG_DIRTY_LO * s.cacheLines then s.set MARL_STATUS_CLEANING 0 else s)
    else if n > s.fld MARL_WB_CFG_DIRTY_HI * s.cacheLines then s.set MARL_STATUS_CLEANING 1 else s
  if t.on MARL_STATUS_CLEANING then
    match t.marl.lines.find? fun e => e.2.st == .dirty && !e.2.wbBusy && !t.lineFenced e.1 && plruMru (mgetD t.marl.plru (t.setIx e.1) 0).toNat != e.2.way with
    | some e => t.queueWb e.1 3 bgGrp
    | none => t
  else t

/-- Dirty lines marked evict-first are queued for their early write-back (R222). -/
def State.earlyWb (s : State) : State :=
  s.each ((s.marl.lines.filter fun e => e.2.evictFirst && e.2.st == .dirty && !e.2.wbBusy).map (·.1)) fun t l => t.queueWb l 3 bgGrp

/-- Every accepted request goes as far as it can, oldest first. -/
def State.serve (s : State) : State := (s.each (s.txns.map (·.id)) State.serveTxn).earlyWb.cleanStep

/-- Accept a request of `n` blocks for service (R197, R280); `held` are its response cells. -/
def State.accept (s : State) (p : Packet) (n cells : Nat) (unit : Option (Nat × Nat)) (bg : Bool := false) (held : List Nat := []) : State :=
  let (cls, grp) := if bg then (3, bgGrp) else s.classify p.hdr.label.toNat
  { s with nextTxn := s.nextTxn + 1, txns := s.txns ++ [{ id := s.nextTxn, pkt := p, todo := List.range n, cells := cells, held := held, unit := unit, cls := cls, grp := grp }] }

/-- The requests in progress that wait for data of a channel now fenced are answered FENCED (R201, R252). -/
def State.fenceTxns (s : State) (c : Nat) : State :=
  let hit := fun (t : Txn) => t.todo.any fun i => t.missed.contains i && (s.line (t.lineOf i)).isNone && (s.placeOf (t.lineOf i)).1 == c
  s.each ((s.txns.filter hit).map (·.id)) fun u id => (u.txnFenced id c).finishTxn id

end Sys2Proof.Machine
end

