-- ==== Sys2Proof/Machine/Rings.lean ====
section
/-! DEFINITION. Submission rings (14_rings_doorbells.md): the stack's own requests (R207, R334), descriptors (R300, R301),
indices (R303), fetching (R304), completions (R306 to R311), halts, resumes and resets (R299, R310, R312), and the
management operations of ring 0 (R305, R313, R488). -/

namespace Sys2Proof.Machine

set_option Elab.async false

/-! ## Activity (R80, R83) -/

/-- Is an outstanding request the read of a watched-doorbell poll? -/
def State.pollOut (s : State) (o : OutReq) : Bool := match o.owner with
  | .rcb n => (s.ring n).rcbRead == some 0
  | _ => false

/-- An access of a watched-doorbell poll of the stack's own (R302): its request, or the answer to it. -/
def State.isPoll (s : State) (p : Packet) : Bool :=
  s.fox.outs.any fun o => s.pollOut o && o.tag == p.hdr.tag && (p.hdr.src == s.eid && p.hdr.opc == o.pkt.hdr.opc || p.hdr.dst == s.eid && p.hdr.src == o.pkt.hdr.dst)

/-- An access that does not count as activity: a poll's (R80), and the write of ring 0's completion while S1 is asked for (R83). -/
def State.idleAccess (s : State) (p : Packet) : Bool :=
  s.isPoll p || (s.pwr.s1Req && s.fox.outs.any fun o => o.owner == .cpl 0 && o.tag == p.hdr.tag && p.hdr.src == s.eid && p.hdr.opc == opWRP)

/-- May ring and engine work start: READY, awake, not entering sleep, not in the grave safe state? -/
def State.working (s : State) : Bool :=
  s.ready && decide (s.sleep ≤ 1) && s.pwr.entry.isNone && !s.start.grave && !s.start.forcing

/-! ## The stack's own requests (R207, R334) -/

/-- A TAG that no outstanding request has. -/
def State.freeTag (s : State) : BitVec 16 :=
  (((List.range (s.fox.outs.length + 1)).map fun i => s.fox.nextTag + BitVec.ofNat 16 i).find? fun t =>
    !(s.fox.outs.any fun o => o.tag == t)).getD s.fox.nextTag

/-- Bytes of the den/staging portion in service (R218, R227, R232, R318). -/
def State.denBytes (s : State) : Nat :=
  let lo := s.fld MARL_PART_BUF_BANKS
  let n := s.fld MARL_PART_DEN_BANKS
  let bad := (s.marl.badUnits.filter fun u => decide (lo ≤ u / 4096 % 16) && decide (u / 4096 % 16 < lo + n) && !s.marl.retiredSlices.getLsbD (u / 65536)).length
  (s.bufSlices.length * n * 4096 - bad) * 64

/-- Response pool: half of it; what the outstanding requests have reserved. -/
def State.respUsed (s : State) : Nat := (s.fox.outs.map (·.space)).sum + (s.fox.unsent.map (·.space)).sum
def State.respFree (s : State) : Nat := s.denBytes / 2 - s.respUsed

/-- Can the response space of one more request be reserved (R334)? -/
def State.canSend (s : State) (space : Nat) : Bool := decide (space ≤ s.respFree)

/-- Send a request of the stack's own under a TAG of its own; with 65,536 outstanding it waits for a free one (R207). -/
def State.sendOwn (s : State) (p : Packet) (o : Owner) (space : Nat) : State :=
  let t := s.freeTag
  let q : Packet := { p with hdr := { p.hdr with tag := t } }
  let r : OutReq := { tag := t, pkt := q, owner := o, space := space }
  if 65536 ≤ s.fox.outs.length then { s with fox := { s.fox with unsent := s.fox.unsent ++ [r] } }
  else ({ s with fox := { s.fox with outs := s.fox.outs ++ [r], nextTag := t + 1 } }).emit q

/-- The oldest request that waits for a TAG goes out. -/
def State.sendUnsent (s : State) : State :=
  match s.fox.unsent with
  | [] => s
  | r :: rest => ({ s with fox := { s.fox with unsent := rest } } : State).sendOwn r.pkt r.owner r.space

/-- A RD of `n` blocks. -/
def State.rdPkt (s : State) (dst : BitVec 18) (addr n : Nat) (label : BitVec 8) (noalloc : Bool) : Packet :=
  { hdr := mkHdr opRD (BitVec.ofNat 8 (n - 1)) 0 label 0 0 dst s.eid (if noalloc then 8 else 0) (BitVec.ofNat 64 addr), payload := [] }

/-- A WRP of one block (R188): 32 mask bytes and the block. -/
def State.wrpPkt (s : State) (dst : BitVec 18) (addr mask : Nat) (block : List (BitVec 8)) (label : BitVec 8) (flags : BitVec 16) : Packet :=
  { hdr := mkHdr opWRP 0 0 label 0 96 dst s.eid flags (BitVec.ofNat 64 addr), payload := leBytes 8 mask ++ zeros 24 ++ block }

/-! ## A ring's registers -/

/-- STATE: 0 OFF, 1 ACTIVE, 2 HALTED, 3 RESETTING (Table 14.9). -/
def State.ringSt (s : State) (n : Nat) : Nat := s.fld (RING_STATUS_STATE n)
def State.ringF (s : State) (n : Nat) : Nat := s.fld (RING_SQ_IDX n)
def State.ringK (s : State) (n : Nat) : Nat := s.fld (RING_SQ_PROD n)
def State.ringT (s : State) (n : Nat) : Nat := s.fld (RING_CQ_TAIL n)
def State.sqLen (s : State) (n : Nat) : Nat := 2 ^ s.fld (RING_CFG_SQ_SIZE n) / 64
def State.cqLen (s : State) (n : Nat) : Nat := 2 ^ s.fld (RING_CFG_CQ_SIZE n) / 32
def State.sqBase (s : State) (n : Nat) : Nat := s.fld (RING_SQ_LO n) + 2 ^ 32 * s.fld (RING_SQ_HI n)
def State.cqBase (s : State) (n : Nat) : Nat := s.fld (RING_CQ_LO n) + 2 ^ 32 * s.fld (RING_CQ_HI n)
def State.rcbAddr (s : State) (n : Nat) : Nat := s.fld (RING_RCB_LO n) + 2 ^ 32 * s.fld (RING_RCB_HI n)
def State.ringEid (s : State) (n : Nat) : BitVec 18 := BitVec.ofNat 18 (s.fld (RING_EID n))
def State.cqEid (s : State) (n : Nat) : BitVec 18 := BitVec.ofNat 18 (s.fld (RING_CQ_EID n))
def State.ringLabel (s : State) (n : Nat) : BitVec 8 := BitVec.ofNat 8 (s.fld (RING_CFG_LABEL n))

/-- Difference of two 32-bit indices. -/
def idxSub (a b : Nat) : Nat := (a + 2 ^ 32 - b % 2 ^ 32) % 2 ^ 32

/-- Descriptors fetched or running. -/
def Ring.live (r : Ring) : Nat := (r.descs.filter fun d => d.st != .done).length

/-- Put a ring back, INFLIGHT with it. -/
def State.putRing (s : State) (n : Nat) (r : Ring) : State := (s.setRing n r).set (RING_STATUS_INFLIGHT n) r.live

/-- RING_ACTIVE[k], RING_HALTED[k] (R315). -/
def State.ringMask (s : State) (k st : Nat) : Nat := maskOf ((List.range 32).filter fun j => s.ringSt (32 * k + j) == st)

/-- The ring holds an unfinished descriptor (R81). -/
def State.unfinished (s : State) (n : Nat) : Bool :=
  s.ringSt n != 0 && (s.ringK n != s.ringF n || !(s.ring n).descs.isEmpty || !(s.ring n).cpls.isEmpty)

/-! ## Descriptors (R300, R301) -/

def descLen (h : List (BitVec 8)) : Nat := leAt h 6 2 % 2 ^ 13
def descSlots (h : List (BitVec 8)) : Nat := 1 + (descLen h + 63) / 64
def descStages (h : List (BitVec 8)) : Nat := byteAt h 4
def descOp (h : List (BitVec 8)) (i : Nat) : Nat := byteAt h (8 + i)
def descOff (h : List (BitVec 8)) (i : Nat) : Nat := leAt h (16 + 2 * i) 2
def descLabel (h : List (BitVec 8)) : BitVec 8 := h.getD 3 0
def descAfter (h : List (BitVec 8)) : Bool := bitAt (byteAt h 2) 0
def descId (h : List (BitVec 8)) : BitVec 16 := BitVec.ofNat 16 (leAt h 0 2)

/-- PAYLOAD_LEN is legal. -/
def descLenOk (h : List (BitVec 8)) : Bool := decide (descLen h ≤ 4096) && descLen h % 8 == 0

/-- The operations of Table 14.6. -/
def mgmtOps : List Nat :=
  [0x40, 0x41, 0x42, 0x43, 0x44, 0x45, 0x46, 0x47, 0x48, 0x49, 0x4A, 0x4B, 0x4C, 0x4D, 0x4E, 0x50, 0x51, 0x52, 0x54, 0x55]

/-- The header is well formed, PAYLOAD_LEN and the slots at hand aside (R301). -/
def descOk (n : Nat) (h : List (BitVec 8)) : Bool :=
  let k := descStages h
  byteAt h 2 < 2 && byteAt h 5 == 0 && leAt h 6 2 < 2 ^ 13 && (List.range 32).all (fun i => byteAt h (32 + i) == 0)
  && decide (1 ≤ k) && decide (k ≤ 8)
  && (List.range 8).all (fun i => decide (i < k) || (descOp h i == 0 && descOff h i == 0))
  && descOff h 0 == 0
  && (List.range k).all (fun i => descOff h i % 8 == 0 && decide (descOff h i ≤ descLen h) && (i == 0 || decide (descOff h (i - 1) ≤ descOff h i)))
  && (if n = 0 then k == 1 && mgmtOps.contains (descOp h 0)
      else (List.range k).all fun i => decide (1 ≤ descOp h i) && decide (descOp h i ≤ 0x0D))

/-- Operand of stage `i` (R300). -/
def descOperand (h payload : List (BitVec 8)) (i : Nat) : List (BitVec 8) :=
  let e := if i + 1 < descStages h then descOff h (i + 1) else descLen h
  (payload.take e).drop (descOff h i)

/-! ## Halts -/

/-- Requests of the stack that the test picks are no longer waited for; those not yet sent are dropped. -/
def State.forsake (s : State) (mine : Owner → Bool) : State :=
  { s with fox := { s.fox with
    outs := s.fox.outs.map fun o => if mine o.owner then { o with owner := .gone } else o
    unsent := s.fox.unsent.filter fun o => !mine o.owner } }

/-- An RCB read of the ring, and a read of either kind. -/
def Owner.rcbOf (n : Nat) (o : Owner) : Bool := match o with
  | .rcb r => r == n
  | _ => false
def Owner.readOf (n : Nat) (o : Owner) : Bool := match o with
  | .fetch r _ => r == n
  | o => o.rcbOf n

/-- Reads of the ring still outstanding are no longer waited for. -/
def State.orphan (s : State) (n : Nat) : State := s.forsake (Owner.readOf n)

/-- RING_STATUS of ring 0 shows the first of the causes it still retries (R310, R311). -/
def State.showRing0 (s : State) (l : List (Nat × BitVec 8)) : State :=
  let c := l.headD (0, 0)
  (s.setRing 0 { s.ring 0 with failing := l }).sets [(RING_STATUS_HALT_CAUSE 0, c.1), (RING_STATUS_HALT_STATUS 0, c.2.toNat)]

/-- Is a cause among those that ring 0 retries? -/
def State.retries0 (s : State) (cause : Nat) : Bool := (s.ring 0).failing.any fun e => e.1 == cause

/-- A halt cause arises (R310); on ring 0 it is shown while the access is retried (R310, R311). In a reset it is ignored (R299). -/
def State.haltRing (s : State) (n cause : Nat) (status : BitVec 8) : State :=
  if s.ringSt n ≠ 1 then s
  else if n = 0 then
    if cause = 1 then s
    else
      let l := (s.ring 0).failing
      s.showRing0 (if s.retries0 cause then l.map fun e => if e.1 = cause then (cause, status) else e else l ++ [(cause, status)])
  else s.sets [(RING_STATUS_STATE n, 2), (RING_STATUS_HALT_CAUSE n, cause), (RING_STATUS_HALT_STATUS n, status.toNat)]

/-- An access of ring 0 succeeded: its cause clears (R310, R311). -/
def State.clearRing0 (s : State) (cause : Nat) : State :=
  if s.retries0 cause then s.showRing0 ((s.ring 0).failing.filter fun e => e.1 != cause) else s

/-! ## Completions -/

/-- A descriptor ends: its completion joins the ring's queue (R306). -/
def State.finishDesc (s : State) (n job : Nat) (status : BitVec 8) (stage : Nat) (detail : Nat) (result : List (BitVec 8)) : State :=
  let r := s.ring n
  match r.descs.find? fun d => d.job == job && d.st != .done with
  | none => s
  | some d =>
    let e : CplEntry := { job := job, descId := descId d.hdr, status := status, stage := stage, sqHead := d.sqHead, detail := BitVec.ofNat 32 detail, result := slice result 0 16 }
    s.putRing n { r with descs := r.descs.map (fun x => if x.job = job then { x with st := .done } else x), cpls := r.cpls ++ [e] }

/-- The 32 bytes of an entry for completion index `i` (Table 14.4). -/
def cplBytes (n i e : Nat) (c : CplEntry) : List (BitVec 8) :=
  leBytes 2 c.descId.toNat ++ [c.status, BitVec.ofNat 8 ((1 - i / e % 2) + 2 * c.stage), BitVec.ofNat 8 n, 0, 0, 0]
    ++ leBytes 4 c.sqHead.toNat ++ leBytes 4 c.detail.toNat ++ slice c.result 0 16

/-- Send the WRP of the first waiting entry, with a second one of the same block that is ready (R307). -/
def State.sendCpl (s : State) (n : Nat) : State :=
  let r := s.ring n
  match r.cpls with
  | [] => s
  | c :: rest =>
    if r.cplBusy ≠ 0 || !s.canSend 64 then s
    else
      let e := s.cqLen n
      let t := s.ringT n
      let pos := t % e
      let addr := s.cqBase n + 32 * pos
      let label := ((r.descs.find? fun d => d.job == c.job).map fun d => descLabel d.hdr).getD (s.ringLabel n)
      let first := cplBytes n t e c
      let (k, mask, block) := if pos % 2 = 1 then (1, (2 ^ 32 - 1) * 2 ^ 32, zeros 32 ++ first)
        else match rest with
          | d :: _ => (2, 2 ^ 64 - 1, first ++ cplBytes n (t + 1) e d)
          | [] => (1, 2 ^ 32 - 1, first ++ zeros 32)
      (s.setRing n { r with cplBusy := k }).sendOwn (s.wrpPkt (s.cqEid n) (addr / 64 * 64) mask block label 4) (.cpl n) 64

/-- The reset of a ring ends once nothing is left (R299 step 4); a RING_RESET that asked for it completes. -/
def State.endReset (s : State) (n : Nat) : State :=
  let r := s.ring n
  if s.ringSt n = 3 && r.descs.isEmpty && r.cpls.isEmpty then s.set (RING_STATUS_STATE n) 0 else s

/-- `k` entries leave the queue, written or dropped. -/
def State.dropCpls (s : State) (n k : Nat) : State :=
  let r := s.ring n
  let jobs := (r.cpls.take k).map (·.job)
  (s.putRing n { r with cpls := r.cpls.drop k, cplBusy := 0, descs := r.descs.filter fun d => !(jobs.contains d.job) }).endReset n

/-- The answer to a completion write (R307, R309, R311). -/
def State.cplAnswered (s : State) (n : Nat) (status : BitVec 8) : State :=
  let r := s.ring n
  let k := r.cplBusy
  if k = 0 then s
  else if status = stOK then
    let t := (s.set (RING_CQ_TAIL n) (s.ringT n + k)).setRing n { r with cplHeld := false, cplKept := false }
    (t.dropCpls n k).when (n == 0) fun u => u.clearRing0 3
  else if s.ringSt n = 3 then s.dropCpls n k
  else (s.setRing n { r with cplBusy := 0, cplHeld := true, cplKept := n == 0 }).haltRing n 3 status

/-! ## Indices (R303) -/

/-- A new value of P. -/
def State.newP (s : State) (n v : Nat) : State :=
  let sq := s.sqLen n
  let k := s.ringK n
  if idxSub v k ≤ sq ∧ idxSub v (s.ringF n) ≤ sq then
    if v % 2 ^ 32 = k then s else (s.set (RING_SQ_PROD n) v).activity
  else if idxSub k v ≤ sq then s
  else s.inc (RING_CNT_VIOL_INDEX n)

/-- A value of H read from the RCB. -/
def State.newH (s : State) (n v : Nat) : State :=
  if idxSub (s.ringT n) v ≤ s.cqLen n then s.setRing n { s.ring n with h := BitVec.ofNat 32 v }
  else s.inc (RING_CNT_VIOL_INDEX n)

/-! ## Fetching (R304) -/

/-- Free completion entries of a ring: E − (T − H) − descriptors whose completion is not yet written. -/
def State.cplSpace (s : State) (n : Nat) : Nat := s.cqLen n - (idxSub (s.ringT n) (s.ring n).h.toNat + (s.ring n).descs.length)

/-- Cells of the descriptor pool, a quarter of the den/staging portion, and those in use (R318). -/
def State.descPool (s : State) : Nat := s.denBytes / 4 / 64
def State.descCells (s : State) : Nat :=
  (s.rings.map fun e => e.2.slots.length / 64 + e.2.fetching + ((e.2.descs.filter fun d => d.st != .done).map fun d => 1 + (d.payload.length + 63) / 64).sum).sum

/-- Take whole descriptors out of the slots at hand (`fuel` at most). -/
def State.assemble (s : State) (n : Nat) : Nat → State
  | 0 => s
  | f + 1 =>
    let r := s.ring n
    if s.ringSt n ≠ 1 || r.slots.length < 64 || decide (32 ≤ r.live) || s.cplSpace n == 0 then s
    else
      let h := r.slots.take 64
      let have_ := idxSub (s.ringK n) (s.ringF n)
      let job := s.fox.nextJob
      let add := fun (t : State) (newF : Nat) (slots : List (BitVec 8)) (bad : Bool) (pay : List (BitVec 8)) =>
        let d : Desc := { job := job, hdr := h, payload := pay, sqHead := BitVec.ofNat 32 newF, malformed := bad }
        (({ t with fox := { t.fox with nextJob := job + 1 } }).set (RING_SQ_IDX n) newF).putRing n { r with descs := r.descs ++ [d], slots := slots }
      if !descLenOk h || decide (have_ < descSlots h) then
        (((add s (s.ringK n) [] true []).finishDesc n job stMALFORMED 0 0 []).inc (RING_CNT_VIOL_DESC n)).assemble n f
      else if !descOk n h then
        (((add s ((s.ringF n + descSlots h) % 2 ^ 32) (r.slots.drop (64 * descSlots h)) true []).finishDesc n job stMALFORMED 0 0 []).inc (RING_CNT_VIOL_DESC n)).assemble n f
      else if r.slots.length < 64 * descSlots h then s
      else (add s ((s.ringF n + descSlots h) % 2 ^ 32) (r.slots.drop (64 * descSlots h)) false ((r.slots.drop 64).take (descLen h))).assemble n f

/-- The pieces of a read of `cnt` slots from index `i`: cut at 4 KiB boundaries and at the end of the SQ (R304). -/
def State.slotPieces (s : State) (n : Nat) : Nat → Nat → Nat → List (Nat × Nat × Nat)
  | 0, _, _ => []
  | f + 1, i, cnt =>
    if cnt = 0 then []
    else
      let pos := i % s.sqLen n
      let addr := s.sqBase n + 64 * pos
      let k := min cnt (min (s.sqLen n - pos) ((4096 - addr % 4096) / 64))
      (i, addr, k) :: s.slotPieces n f (i + k) (cnt - k)

/-- Issue the RDs of a fetch. -/
def State.issueFetch (s : State) (n i cnt : Nat) (label : BitVec 8) : State :=
  let r := s.ring n
  (s.setRing n { r with fetching := cnt, fetched := [] }).each (s.slotPieces n cnt i cnt) fun t p =>
    t.sendOwn (t.rdPkt (t.ringEid n) p.2.1 p.2.2 label false) (.fetch n (p.1 - i)) 0

/-- Fetch what the ring may fetch now. -/
def State.fetchRing (s : State) (n : Nat) : State :=
  let t := s.assemble n 64
  let r := t.ring n
  if t.ringSt n ≠ 1 || r.fetching ≠ 0 || decide (32 ≤ r.live) || t.cplSpace n == 0 then t
  else
    let at_ := t.ringF n + r.slots.length / 64
    let left := idxSub (t.ringK n) (t.ringF n) - r.slots.length / 64
    let (cnt, label) := if r.slots.length < 64 then (min 64 left, t.ringLabel n)
      else (min left (descSlots (r.slots.take 64) - r.slots.length / 64), descLabel (r.slots.take 64))
    if cnt = 0 || decide (t.descPool < t.descCells + cnt) then t
    else (t.issueFetch n at_ cnt label).activity

/-- The answer to a fetch RD. -/
def State.fetchAnswered (s : State) (n slot : Nat) (status : BitVec 8) (data : List (BitVec 8)) : State :=
  let r := s.ring n
  if r.fetching = 0 then s
  else if status = stOK then
    let got := mput slot data r.fetched
    let t := s.when (n == 0) fun u => u.clearRing0 2
    let q := t.ring n
    if (got.map fun e => e.2.length).sum < 64 * r.fetching then t.setRing n { q with fetched := got }
    else (t.setRing n { q with fetched := [], fetching := 0, slots := r.slots ++ got.flatMap (·.2) }).assemble n 64
  else
    let t := (s.setRing n { r with fetched := [], fetching := 0, slots := [] }).orphan n
    let u := if (t.ring n).rcbRead.isSome then t.setRing n { t.ring n with rcbRead := none } else t
    u.haltRing n 2 status

/-- Read the RCB: 0 for P, 1 for H, 2 for both. -/
def State.readRcb (s : State) (n use : Nat) : State :=
  let r := s.ring n
  if r.rcbRead.isSome then s
  else (s.setRing n { r with rcbRead := some use }).sendOwn (s.rdPkt (s.ringEid n) (s.rcbAddr n) 1 (s.ringLabel n) false) (.rcb n) 0

/-- The answer to an RCB read. -/
def State.rcbAnswered (s : State) (n : Nat) (status : BitVec 8) (data : List (BitVec 8)) : State :=
  let r := s.ring n
  match r.rcbRead with
  | none => s
  | some use =>
    let t := s.setRing n { r with rcbRead := none }
    if status ≠ stOK then t.haltRing n 4 status
    else
      let t := t.when (n == 0) fun u => u.clearRing0 4
      let t := if use = 1 then t else t.newP n (leAt data 0 4)
      if use = 0 then t else t.newH n (leAt data 8 4)

/-! ## Enable, reset, resume -/

/-- The set-up of a ring meets R293 and R9. -/
def setupOk (sqLo cqLo rcbLo eid cqEid cfg : Nat) : Bool :=
  sqLo % 4096 == 0 && cqLo % 4096 == 0 && rcbLo % 64 == 0 && decide (eid < 2 ^ 18) && decide (cqEid < 2 ^ 18)
  && bitsOf cfg 15 13 == 0 && bitsOf cfg 7 5 == 0
  && decide (12 ≤ bitsOf cfg 12 8) && decide (bitsOf cfg 12 8 ≤ 24) && decide (12 ≤ bitsOf cfg 4 0) && decide (bitsOf cfg 4 0 ≤ 24)
  && decide (1 ≤ bitsOf cfg 23 17) && decide (bitsOf cfg 23 17 ≤ 100)

/-- R297: indices 0, ACTIVE. -/
def State.enableRing (s : State) (n : Nat) : State :=
  (s.sets [(RING_STATUS_STATE n, 1), (RING_SQ_IDX n, 0), (RING_SQ_PROD n, 0), (RING_CQ_TAIL n, 0)]).putRing n {}

/-- R299, steps 1 and 2. -/
def State.resetRing (s : State) (n : Nat) : State :=
  let r := s.ring n
  let t := ((s.set (RING_STATUS_STATE n) 3).putRing n { r with fetching := 0, fetched := [], slots := [], rcbRead := none, cplHeld := false, cplKept := false }).orphan n
  -- ring 0 drops the entries it keeps, one on its way among them (R311)
  let t := if n = 0 then (t.when r.cplKept fun u => (u.forsake (· == .cpl 0)).dropCpls 0 r.cpls.length).showRing0 [] else t
  let ready := ((t.ring n).descs.filter fun d => d.st == .ready).map (·.job)
  (t.each ready fun u j => u.finishDesc n j 0x0C 0 0 []).endReset n

/-- R312. The RCB is read anew for P and H, whatever older read of it is outstanding. -/
def State.resumeRing (s : State) (n : Nat) : State :=
  let t := (s.sets [(RING_STATUS_STATE n, 1), (RING_STATUS_HALT_CAUSE n, 0), (RING_STATUS_HALT_STATUS n, 0)]).forsake (Owner.rcbOf n)
  ((t.setRing n { t.ring n with cplHeld := false, rcbRead := none }).readRcb n 2).activity

/-! ## Management operations (R305, R313, R488) -/

/-- The ring-0 descriptor that may start next: operations start in order, at most 4 at once, AFTER_PREV with nothing
before it. -/
def State.nextMgmt (s : State) : Option Desc :=
  let r := s.ring 0
  match r.descs.find? fun d => d.st == .ready with
  | none => none
  | some d =>
    if s.ringSt 0 = 1 ∧ s.working ∧ !s.flt.mgcDown ∧ s.fox.mgmt.length < 4 ∧ (!descAfter d.hdr || (r.descs.head?.map (·.job)) == some d.job) then some d else none

/-- An operation ends with a status and RESULT: its completion joins the queue. -/
def State.mgmtDone (s : State) (job : Nat) (status : BitVec 8) (result : List (BitVec 8)) (detail : Nat := 0) : State :=
  ({ s with fox := { s.fox with mgmt := s.fox.mgmt.filter fun m => m.job != job } }).finishDesc 0 job status 0 detail result

/-- A refusal of an operation, counted as R488 states; `blk` is an offset in the owning block. -/
def State.mgmtRefuse (s : State) (job : Nat) (status : BitVec 8) (blk : Nat) : State :=
  let t := if status = stMALFORMED then s.inc (RING_CNT_VIOL_DESC 0) else s.viol blk .state
  t.mgmtDone job status []

/-- Offset in the block that owns an operation (Table 14.10); CHAN operations name their own. -/
def mgmtBlock (op : Nat) (payload : List (BitVec 8)) : Nat :=
  if op ≤ 0x43 then 0x8000
  else if op = 0x44 then 0x0000
  else if op = 0x45 then 0x2000
  else if op ≤ 0x47 then 0x5000
  else if op = 0x48 then 0x80000
  else if op ≤ 0x4A then 0x60000 + 0x1000 * (byteAt payload 0 % 32)
  else if op = 0x4B then 0x7000
  else if op = 0x4C then 0x4000
  else if op ≤ 0x4E then 0xB0000
  else if op ≤ 0x51 then 0x6000
  else if op = 0x52 then 0xD0000
  else 0x90000

/-- Start the next ring-0 operation if its opcode is `op`: it is running, and `f` gives its effect. Under FW_DEGRADED only
the recorder reads and the slot write are executed (R70, R313). -/
def State.startMgmt (s : State) (op : Nat) (f : State → Mgmt → State) : State :=
  match s.nextMgmt with
  | none => s
  | some d =>
    if descOp d.hdr 0 ≠ op then s
    else
      let m : Mgmt := { job := d.job, op := BitVec.ofNat 8 op, payload := d.payload }
      let r := s.ring 0
      let t := (({ s with fox := { s.fox with mgmt := s.fox.mgmt ++ [m] } } : State).putRing 0 { r with descs := r.descs.map fun (x : Desc) => if x.job = d.job then { x with st := .running } else x })
      let t := if op = 0x44 then t else t.activity
      if s.on GLB_START_STATUS_FW_DEGRADED && !([0x50, 0x54].contains op) then t.mgmtRefuse d.job stSTATE (mgmtBlock op d.payload)
      else f t m

/-- Operations under way with an opcode. -/
def State.mgmtOf (s : State) (op : Nat) : List Mgmt := s.fox.mgmt.filter fun m => m.op.toNat == op

/-- The RING_RESETs whose ring has become OFF complete (R314). -/
def State.finishRingResets (s : State) : State :=
  s.each (s.mgmtOf 0x42) fun t m => if t.ringSt (byteAt m.payload 0) = 0 then t.mgmtDone m.job stOK [] else t

/-! ## Block resets (R78) -/

/-- Is a unit in a block reset? -/
def State.inReset (s : State) (kind ix : Nat) : Bool := s.unitResets.any fun u => u.kind == kind && u.index == ix

/-- A block reset ends: RST_UNIT_STATUS shows RESULT, and the UNIT_RESET that asked for it completes. -/
def State.unitResetEnd (s : State) (kind ix : Nat) (result : BitVec 8) : State :=
  let l := s.unitResets.filter fun u => !(u.kind == kind && u.index == ix)
  let t := ({ s with unitResets := l }).sets [(RST_UNIT_STATUS_BUSY, b2n (!l.isEmpty)), (RST_UNIT_STATUS_RESULT, result.toNat)]
  t.each (t.mgmtOf 0x45) fun t m => if leAt m.payload 0 4 = kind * 2 ^ 28 + ix then t.mgmtDone m.job result [] else t

end Sys2Proof.Machine
end

