-- ==== Sys2Proof/Machine/Channels.lean ====
section
/-! DEFINITION. Channel controllers: answers owed to register writes, the temperature of a layer, layer-parity writes (R240),
the memory map record (R238), command choice (R243, R247), fencing (R242, R252), rebuilds (R241), write-backs (R224), reads
(R377, R383 to R386), PASR changes (R249), and the coil columns (R262 to R276). -/

namespace Sys2Proof.Machine

set_option Elab.async false

/-! ## Answers owed -/

/-- Status shown on the path a register write came by (R455, R479). -/
def State.pathStatus (s : State) (via : Path) (st : BitVec 8) : State :=
  match via with
  | .mreg => { s with acc := { s.acc with mregStatus := st } }
  | .i3c => { s with acc := { s.acc with i3c := { s.acc.i3c with status := st } } }
  | .jtag => { s with acc := { s.acc with tap := { s.acc.tap with accStatus := st, accDone := true } } }

/-- Answer every write of a register that waits for its answer. -/
def State.payOwed (s : State) (off : Nat) (st : BitVec 8) : State :=
  let mine := s.acc.owed.filter fun o => o.off == off
  ({ s with acc := { s.acc with owed := s.acc.owed.filter fun o => o.off != off } }).each mine fun t o =>
    match o.hdr with
    | some h => (t.pathStatus o.via st).emitRsp (mkRsp s.eid h st 0 [])
    | none => t.pathStatus o.via st

/-! ## Temperatures -/

/-- A sensor's reading in use, in 0.25 °C, if it has one. -/
def State.temp (s : State) (n : Nat) : Option Int :=
  let x := mgetD s.thm.sensors n {}
  if x.has || x.broken || (s.thm.sampling && decide (n < 20 + 2 * s.nChans)) then some x.reading else none

/-- Readings in use of a layer's four sensors (Table 20.1). -/
def State.layerTemps (s : State) (l : Nat) : List Int := (List.range 4).filterMap fun q => s.temp (20 + 4 * (l - 2) + q)

/-- Layer of a channel (R234). -/
def layerOf (c : Nat) : Nat := 2 + c / 2

/-- Throttle fraction of a channel, in percent (R443). -/
def State.throttle (s : State) (c : Nat) : Nat :=
  let f := fun d => (mgetD s.thm.dies d {}).fraction
  min (f (layerOf c)) (min (f 0) (f 1))

/-! ## The memory map record (R237, R238) -/

def State.saveMap (s : State) : State :=
  { s with sett := { s.sett with mapRec := some { memCfg := BitVec.ofNat 32 s.memCfg, groupState := BitVec.ofNat 8 (s.fld GLB_MEM_STATUS_GROUP_STATE), variantCode := s.fuse.variantCode } } }

/-- A group changes state; the record is rewritten before the change takes effect. -/
def State.changeGroup (s : State) (j v : Nat) : State := (s.setGroupSt j v).saveMap

/-! ## Writing blocks (R240, R378, R382) -/

/-- A corrective write waiting for a block is dropped: the block has been written since (R383). -/
def State.dropCorrective (s : State) (c block : Nat) : State :=
  { s with prot := { s.prot with corrective := s.prot.corrective.filter fun e => !(e.1 == c && e.2.1 == block) } }

/-- Has the rebuild of another channel of the group put its block of this stripe in the parity holder's place (R241)? -/
def State.stripeMoved (s : State) (c block : Nat) : Bool :=
  (List.range 8).any fun i => 8 * (c / 8) + i != c && 8 * (c / 8) + i != holderOf (c / 8) block && s.movedBlock (8 * (c / 8) + i) block

/-- Does a write of a block keep a parity block current (R240, R241)? -/
def State.keepsParity (s : State) (c block : Nat) : Bool :=
  let h := holderOf (c / 8) block
  s.parity && (s.groupSt (c / 8) == 1 || s.groupSt (c / 8) == 2) && c != h && !s.chanOut h && !s.stripeMoved c block

/-- Is a write of another block of the stripe issued and not yet reported (R240)? -/
def State.stripeBusy (s : State) (c block : Nat) : Bool :=
  (List.range 8).any fun i => 8 * (c / 8) + i != c && (s.chn (8 * (c / 8) + i)).writes.any fun w => w.issued && w.block == block && !w.oldPar.isEmpty

/-- May no write of a block be issued now: its column, or that of the parity block it changes, holds its writes (R270), or a write of the
same stripe is under way (R240)? -/
def State.writeHeld (s : State) (c block : Nat) : Bool :=
  s.on (VCP_COL_STATUS_WR_HOLD c) || (s.keepsParity c block && (s.on (VCP_COL_STATUS_WR_HOLD (holderOf (c / 8) block)) || s.stripeBusy c block))

/-- Write a coded block, and the parity block of its stripe where the group is PROTECTED or still rebuilding (R240). `fresh`
asks for the reconstruct-write path. -/
def State.storeBlock (s : State) (c block : Nat) (data : List (BitVec 8)) (poison fresh : Bool) : State :=
  let h := holderOf (c / 8) block
  let s := s.dropCorrective c block
  if s.keepsParity c block then
    let ((ro, old), s1) := s.blockFetch c block
    let ((rp, par), s2) := s1.blockFetch h block
    let s4 := s2.blockWrite c block data poison
    if !fresh && ro.good && rp.good && !poison then s4.blockWrite h block (xorBytes par (xorBytes old data)) false
    else match s4.stripeXor h block with
      | (some d, s5) => s5.blockWrite h block d false
      | (none, s5) =>
        let (d, s6) := s5.draw 64
        s6.blockWrite h block d true
  else s.blockWrite c block data poison

/-- The bytes of a block as the array holds them; `none` is a byte that reads undefined. -/
def State.rawBlock (s : State) (c block : Nat) : List (Option (BitVec 8)) := (List.range 72).map fun i => mget s.chan.dram (dramKey c block i)

/-- The array holds these bytes again: the burst that was to replace them is discarded (R258). -/
def State.putRaw (s : State) (c block : Nat) (raw : List (Option (BitVec 8))) : State :=
  { s with chan := { s.chan with dram := (enum raw).foldl (fun m e => match e.2 with
    | some v => mput (dramKey c block e.1) v m
    | none => merase (dramKey c block e.1) m) s.chan.dram } }

/-- Issued writes of a channel that the layer has not reported yet are to be issued again, those of `hit` alone. -/
def Chan.reissue (k : Chan) (hit : WrReq → Bool) : Chan :=
  { k with writes := k.writes.map fun w => if w.issued && hit w then { w with issued := false, cut := true } else w }

/-- A layer loses the heartbeat of a channel (R258): a write burst not wholly received is discarded, in the block or in the parity block
that the channel holds; which ones those are among the bursts not yet reported is open. The requests are made again. -/
def State.cutBursts (s : State) (c : Nat) : State :=
  let cut := fun (t : State) (at_ : Nat) (w : WrReq) (raw : List (Option (BitVec 8))) =>
    let u : State := { t with free := t.free + 1 }
    if Config.freeNat t.free % 2 = 0 then u.putRaw at_ w.block raw else u
  let open_ := fun (k : Chan) => (k.writes.filter (·.issued)).reverse
  let s1 := s.each (open_ (s.chn c)) fun t w => cut t c w w.old
  let s2 := s1.setChn c { (s1.chn c).reissue fun _ => true with reads := (s1.chn c).reads.map fun r => { r with issued := false }, openRows := [], rowIdle := [] }
  let hit := fun (w : WrReq) => !w.oldPar.isEmpty && holderOf (c / 8) w.block == c
  s2.each (((List.range 8).map fun i => 8 * (c / 8) + i).filter (· != c)) fun t x =>
    let u := t.each ((open_ (t.chn x)).filter hit) fun u w => cut u c w w.oldPar
    u.setChn x ((u.chn x).reissue hit)

/-! ## Write-backs (R224, R226, R75) -/

/-- A line's block has been written: the line becomes clean if its generation bit is clear, an evict-first line invalid. -/
def State.lineWritten (s : State) (l : Nat) : State :=
  match s.line l with
  | none => s
  | some x =>
    let t := s.incPair MARL_WRITEBACKS_LO 1
    if x.gen then t.setLine l { x with wbBusy := false }
    else if x.evictFirst || (x.flushMark && t.marl.flush == some true) then t.dropLine l
    else t.setLine l { x with st := .clean, wbBusy := false, flushMark := false }

/-- Write a dirty line back now, to the end (flushes, PASR changes, block resets, sleep and re-attach). -/
def State.writeBackNow (s : State) (l : Nat) (fresh : Bool) : State :=
  match s.line l with
  | none => s
  | some x =>
    if x.st != .dirty || s.lineFenced l || s.writeHeld (s.placeOf l).1 (s.placeOf l).2 then s
    else
      let (c, b) := s.placeOf l
      let k := s.chn c
      let t := s.setChn c { k with writes := k.writes.filter fun w => w.line != some l }
      match t.decodeLine l x with
      | (none, u) => u
      | (some r, u) => (((u.storeBlock c b r.data r.poison fresh).blockPerformed 3 bgGrp 1).setLine l { (u.line l).getD x with gen := false }).lineWritten l

/-- Lines whose block now lies in a channel. -/
def State.linesOf (s : State) (c : Nat) : List (Nat × Line) := s.marl.lines.filter fun e => (s.placeOf e.1).1 == c

/-! ## Commands of a controller (R243, R246 to R248) -/

/-- An entry that asks for a column command: its block, whether it writes, class, age. -/
structure ColReq where
  ix : Nat
  write : Bool
  block : Nat
  cls : Nat
  at_ : Nat
  deriving DecidableEq, Repr

def readReqs (k : Chan) (pc : Nat) : List ColReq :=
  (enum k.reads).filterMap fun e => if !e.2.issued && pcOf e.2.block == pc then some { ix := e.1, write := false, block := e.2.block, cls := e.2.cls, at_ := e.2.at_ } else none

def writeReqs (k : Chan) (pc : Nat) : List ColReq :=
  (enum k.writes).filterMap fun e => if !e.2.issued && pcOf e.2.block == pc then some { ix := e.1, write := true, block := e.2.block, cls := e.2.cls, at_ := e.2.at_ } else none

/-- Is the row of the request open? -/
def rowHit (k : Chan) (q : ColReq) : Bool := mget k.openRows (bankIx q.block) == some (rowOf q.block)

/-- The oldest of a list (the lists are in order of arrival). -/
def oldest (l : List ColReq) : Option ColReq :=
  l.foldl (fun b q => match b with
    | none => some q
    | some x => if q.at_ < x.at_ then some q else some x) none

/-- The best class first, then the oldest (R285). -/
def bestClass (l : List ColReq) : Option ColReq :=
  l.foldl (fun b q => match b with
    | none => some q
    | some x => if q.cls < x.cls ∨ (q.cls = x.cls ∧ q.at_ < x.at_) then some q else some x) none

/-- The choice of R243, steps 2 to 5. -/
def State.chooseReq (s : State) (c : Nat) (k : Chan) (pc : Nat) : Option ColReq :=
  if k.draining then bestClass ((writeReqs k pc).filter fun q => !s.writeHeld c q.block)
  else
    let l := readReqs k pc
    let bed := oldest (l.filter fun q => q.cls == 0)
    let aged := (oldest l).filter fun q => decide ((s.now - q.at_) * 1000 > s.fld (CHAN_SCHED_AGE_CAP c) * 10)
    let hit := oldest (l.filter (rowHit k))
    bed.or (aged.or (hit.or (oldest l)))

/-- A write drain starts and ends (R243); no write is issued under a hold (R270). -/
def State.drainState (s : State) (c : Nat) (k : Chan) : Bool :=
  let w := (k.writes.filter fun x => !x.issued).length
  let r := (k.reads.filter fun x => !x.issued).length
  if s.on (VCP_COL_STATUS_WR_HOLD c) || w == 0 then false
  else if k.draining then decide (w > s.fld (CHAN_SCHED_WR_LO c)) || (r == 0)
  else decide (w ≥ s.fld (CHAN_SCHED_WR_HI c)) || (r == 0)

/-- Open rows that are closed now (R243): a row without a queued hit for ROW_IDLE cycles of 1 ns, and the row of the bank in which the
oldest entry needs another. -/
def State.closeRows (s : State) (c : Nat) (k : Chan) (pc : Nat) : Chan :=
  let l := if k.draining then writeReqs k pc else readReqs k pc
  let hit := fun (e : Nat × Nat) => (readReqs k pc ++ writeReqs k pc).any fun q => bankIx q.block == e.1 && rowOf q.block == e.2
  let idle := fun (e : Nat × Nat) => if e.1 / 16 != pc then mgetD k.rowIdle e.1 0 else if hit e then 0 else mgetD k.rowIdle e.1 0 + 1
  let gone := fun (e : Nat × Nat) => e.1 / 16 == pc
    && (decide (s.fld (CHAN_SCHED_ROW_IDLE c) ≤ idle e) && !hit e || (oldest l).any fun q => bankIx q.block == e.1 && rowOf q.block != e.2)
  let rows := k.openRows.filter fun e => !gone e
  { k with openRows := rows, rowIdle := rows.map fun e => (e.1, idle e) }

/-- Blocks of a channel. -/
def chanBlocks : Nat := 3 * 2 ^ 24

/-- CHAN_REBUILD operations whose target has been passed, or whose rebuild has ended, complete. -/
def State.finishRebuildWaits (s : State) (c : Nat) : State :=
  s.each (s.mgmtOf 0x4A) fun t m =>
    if byteAt m.payload 0 ≠ c then t
    else
      let st := t.fld (CHAN_REBUILD_STATE c)
      let six := t.fld (CHAN_REBUILD_SIXTEENTHS c)
      if st ≠ 1 ∨ byteAt m.payload 1 ≤ six then
        t.mgmtDone m.job stOK ([BitVec.ofNat 8 six, BitVec.ofNat 8 st, 0, 0] ++ leBytes 4 (t.fld (CHAN_REBUILD_LOST_BLOCKS c)))
      else t

/-- Dirty lines of a channel are lost: EVENT 0x08 and invalid (R252, R76). -/
def State.loseDirty (s : State) (c : Nat) : State :=
  let d := (s.linesOf c).filter fun e => e.2.st == .dirty
  match d with
  | [] => s
  | e :: _ =>
    let first := d.foldl (fun m x => min m (s.placeOf x.1).2) (s.placeOf e.1).2
    (s.each d fun t x => t.dropLine x.1).event 0x08 3 c first d.length

/-- A channel's contents are lost (R242). -/
def State.loseChannel (s : State) (c : Nat) : State := (s.set (CHAN_STATUS_LOST c) 1).loseDirty c

/-- A rebuild stops (R242). -/
def State.stopRebuild (s : State) (f : Nat) : State :=
  let t := s.set (CHAN_REBUILD_STATE f) 3
  ((t.event 0x0A 3 f (t.reg (CHAN_REBUILD f).off) (t.reg (CHAN_REBUILD_PTR f).off)).loseChannel f).finishRebuildWaits f

/-- The patrol of channels stops until their bits are written again (Table 17.3). -/
def State.stopPatrol (s : State) (l : List Nat) : State :=
  { s with prot := { s.prot with stopped := BitVec.ofNat 32 (l.foldl (fun m c => if bitAt (s.reg BST_BADGER_CHAN_EN.off) c then putBit m c true else m) s.prot.stopped.toNat) } }

/-- Rebuild of a fenced channel begins, at the last sixteenth recorded (R241). -/
def State.startRebuild (s : State) (c : Nat) : State :=
  if s.on (CHAN_STATUS_FENCED c) && s.groupSt (c / 8) == 2 && s.fld (CHAN_REBUILD_STATE c) != 1 && !s.on (CHAN_STATUS_LOST c) then
    let six := mgetD s.sett.rebuild c 0
    { s with sett := { s.sett with rebuild := mput c six s.sett.rebuild } }.sets [(CHAN_REBUILD_STATE c, 1), (CHAN_REBUILD_PTR_PTR c, six * (chanBlocks / 16)), (CHAN_REBUILD_SIXTEENTHS c, six), (CHAN_REBUILD_LOST_BLOCKS c, 0)]
  else s

/-- The rebuild of a channel ends (R241). -/
def State.endRebuild (s : State) (c : Nat) : State :=
  let t := (s.sets [(CHAN_REBUILD_STATE c, 2), (CHAN_STATUS_RETIRED c, 1)]).changeGroup (c / 8) 3
  let u := { t with sett := { t.sett with rebuild := mput c 16 t.sett.rebuild } }
  (u.event 0x0A 1 c (u.reg (CHAN_REBUILD c).off) (u.reg (CHAN_REBUILD_PTR c).off)).finishRebuildWaits c

/-- The rebuild of a channel has passed a block (R241): pointer, sixteenths, the Sett, and the end. -/
def State.rebuildPassed (s : State) (c : Nat) : State :=
  let b := s.fld (CHAN_REBUILD_PTR_PTR c)
  let six := (b + 1) / (chanBlocks / 16)
  let s1 := s.set (CHAN_REBUILD_PTR_PTR c) (b + 1)
  let s2 := if six = s1.fld (CHAN_REBUILD_SIXTEENTHS c) then s1
    else ({ s1 with sett := { s1.sett with rebuild := mput c six s1.sett.rebuild } }).set (CHAN_REBUILD_SIXTEENTHS c) six
  if b + 1 = chanBlocks then s2.endRebuild c else s2.finishRebuildWaits c

/-- Issue a column command. A rebuild's write moves its pointer on. -/
def State.issueColumn (s : State) (c : Nat) (q : ColReq) : State :=
  -- ROW_IDLE 0 closes the row after every access
  let shut := fun (k : Chan) => if s.fld (CHAN_SCHED_ROW_IDLE c) = 0 then { k with openRows := merase (bankIx q.block) k.openRows } else k
  if q.write then
    match (s.chn c).writes[q.ix]? with
    | none => s
    | some w =>
      let w := { w with old := s.rawBlock c w.block, oldPar := if s.keepsParity c w.block then s.rawBlock (holderOf (c / 8) w.block) w.block else [] }
      let t := (s.storeBlock c w.block w.data w.poison w.cut).blockPerformed w.cls w.grp 1
      let k := t.chn c
      let u := t.setChn c (shut { k with writes := k.writes.set q.ix { w with issued := true }, lastWb := if w.line.isSome then mput (pcOf w.block) w.data k.lastWb else k.lastWb })
      match w.rebuilds with
      | some f => u.rebuildPassed f
      | none => u
  else
    match (s.chn c).reads[q.ix]? with
    | none => s
    | some r => s.setChn c (shut { s.chn c with reads := (s.chn c).reads.set q.ix { r with issued := true } })

/-- Does the controller run: its channel in service, its heartbeat and clock running (R54, R252)? -/
def State.chanUp (s : State) (c : Nat) : Bool :=
  let st := s.fld (CHAN_STATUS_STATE c)
  !s.chanOut c && (s.chn c).heartbeat && !(s.chn c).srHeld && s.chnOn c && (st == 2 || st == 3 || st == 5 || st == 6)

/-- May the controller issue commands for requests? A forced recalibration holds them (R264). -/
def State.chanRuns (s : State) (c : Nat) : Bool := s.chanUp c && !(s.col c).recal && !(s.col c).recalDue

/-- Is the channel's capacity left over by Bedrock, Clay and Silt requests, and an entry free for a background access (R14, R284)? -/
def State.leftOver (s : State) (c block : Nat) : Bool :=
  let k := s.chn c
  (k.reads.all fun r => r.issued || r.cls == 3) && (k.waits.all fun w => w.cls == 3) && (k.writes.all fun w => w.issued || w.cls == 3)
    && (s.entryFor k block 3 bgGrp).isSome

/-- One CHN cycle of a pseudo-channel: at most one command (R243). `draw` is the random number of R247: a neighbour
refresh falls due when its low NR_K bits are 0. -/
def State.issueCommand (s : State) (c pc draw : Nat) : State :=
  if !s.chanRuns c then s
  else
    let k0 := { s.chn c with refBusy := (s.chn c).refBusy.filter fun e => e.1 != pc }
    let (cyc, used) := mgetD k0.window pc (0, 0)
    let (cyc, used) := if cyc ≥ 100 then (0, 0) else (cyc, used)
    let k := s.closeRows c { k0 with draining := s.drainState c k0, window := mput pc (cyc + 1, used) k0.window } pc
    match k.nrefDue.find? fun e => e.1 / 16 == pc with
    | some e => (s.setChn c { k with nrefDue := k.nrefDue.filter (· != e) }).inc (CHAN_NREF c)
    | none =>
      if used ≥ s.throttle c then s.setChn c k
      else match s.chooseReq c k pc with
        | none => s.setChn c k
        | some q =>
          let k1 := { k with window := mput pc (cyc + 1, used + 1) k.window }
          let s1 := if s.fld (CHAN_STATUS_STATE c) = 3 then s.set (CHAN_STATUS_STATE c) 2 else s
          if rowHit k1 q then (s1.setChn c k1).issueColumn c q
          else match mget k1.openRows (bankIx q.block) with
            | some _ => s1.setChn c { k1 with window := k.window, openRows := merase (bankIx q.block) k1.openRows }
            | none => (s1.setChn c k1).activateRow c q.block draw

/-- REF_RATE that the layer's readings ask for (R246). -/
def State.refTarget (s : State) (c : Nat) : Nat :=
  let l := s.layerTemps (layerOf c)
  let broken := s.variant == 0x96 && (List.range 4).any fun q => (mgetD s.thm.sensors (20 + 4 * (layerOf c - 2) + q) {}).broken
  if broken || l.any fun t => decide (t > 380) then 2 else if l.any fun t => decide (t > 340) then 1 else 0

/-- An all-bank refresh of a pseudo-channel (R246), with one tap of each timing offset that may move (R244). -/
def State.refresh (s : State) (c pc : Nat) (taps : List Bool) : State :=
  if !s.chanUp c then s
  else
    let k := s.chn c
    let tap := fun (i : Nat) (v : Int) =>
      if i / 2 = pc ∧ i < 4 then (match taps[i % 2]? with
        | some up => if up then v + 1 else v - 1
        | none => v) else v
    let others := fun (e : Nat × Nat) => e.1 / 16 != pc
    let k0 := { k with openRows := k.openRows.filter others, rowIdle := k.rowIdle.filter others, refBusy := mput pc s.now k.refBusy }
    let k1 := { k0 with offsets := (enum k.offsets).map fun e => tap e.1 e.2 }
    let s0 := (s.setChn c k1).inc (CHAN_REF c)
    -- what margins remain after a move is open
    let f := fun i => Config.freeNat (s0.free + i)
    let s1 := if taps.isEmpty then s0 else ({ s0 with free := s0.free + 2 } : State).sets [(CHAN_TRAIN_RD_MARGIN c, f 0), (CHAN_TRAIN_WR_MARGIN c, f 1)]
    s1.set (CHAN_STATUS_REF_RATE c) (max (s1.fld (CHAN_STATUS_REF_RATE c)) (s1.refTarget c))

/-! ## Rebuilds (R241, R242) -/

/-- One stripe of a rebuild: the block's contents are formed, and their write joins the parity holder's write queue at Sand class (R241,
R279, R285); the pointer moves on when it is issued, or at once where the channel held the parity. -/
def State.rebuildStep (s : State) (c : Nat) : State :=
  let b := s.fld (CHAN_REBUILD_PTR_PTR c)
  let h := holderOf (c / 8) b
  if s.fld (CHAN_REBUILD_STATE c) ≠ 1 ∨ b ≥ chanBlocks then s
  else if c = h then s.rebuildPassed c
  else if decide (64 ≤ (s.chn h).writes.length) || (s.chn h).writes.any (·.rebuilds.isSome) then s
  else
    let queue := fun (t : State) (d : List (BitVec 8)) (p : Bool) =>
      t.setChn h { t.chn h with writes := (t.chn h).writes ++ [{ block := b, data := d, poison := p, line := none, cls := 3, rebuilds := some c, at_ := t.now }] }
    match (s.lineAt c b).bind s.line with
    | some x => match lineNow x with
      | some r => queue s r.data r.poison
      | none => let (d, t) := s.draw 64; (queue t d true).incSat (CHAN_REBUILD_LOST_BLOCKS c)
    | none =>
      let (got, t0) := s.stripeXor c b
      let t := iter 7 (fun _ u => u.blockPerformed 3 bgGrp 0) t0
      match got with
      | some d => queue t d false
      | none => let (d, u) := t.draw 64; (queue u d true).incSat (CHAN_REBUILD_LOST_BLOCKS c)

/-- Is any rebuild running? -/
def State.rebuilding (s : State) : Bool := (List.range 32).any fun c => s.fld (CHAN_REBUILD_STATE c) == 1

/-! ## PASR (R249, R250) -/

/-- Blocks a channel keeps under a fraction code (R86). -/
def pasrKeep (f : Nat) : Nat := if f ≥ 4 then 0 else chanBlocks / 2 ^ f

/-- Channels that change together: the whole group in layer-parity mode. -/
def State.pasrSet (s : State) (c : Nat) : List Nat :=
  if s.parity then (List.range 8).map fun i => 8 * (c / 8) + i else [c]

/-- The refusals of R249. -/
def State.pasrRefused (s : State) (c : Nat) : Bool :=
  (s.pasrSet c).any (fun x => s.chanOut x || s.fld (CHAN_STATUS_STATE x) == 5 || s.fld (CHAN_STATUS_STATE x) == 6 || (s.chn x).pasrNew.isSome)
  || s.rebuilding || s.pwr.entry.isSome || decide (2 ≤ s.sleep)

/-- The change begins: requests are refused, accepted ones complete. -/
def State.startPasr (s : State) (c f : Nat) (asker : Asker) : State :=
  s.each (s.pasrSet c) fun t x =>
    (t.setChn x { t.chn x with pasrNew := some f, pasrAsker := if x = c then some asker else none }).set (CHAN_STATUS_STATE x) 5

/-- One channel takes its new fraction: dropped lines are invalid, other dirty lines written back, the dropped part is
undefined (R88). -/
def State.applyPasr (s : State) (c : Nat) (back : Bool) : State :=
  let k := s.chn c
  match k.pasrNew with
  | none => s
  | some f =>
    let keep := pasrKeep f
    let lower := decide (keep < pasrKeep (s.fld (CHAN_PASR_FRACTION c)))
    let ls := s.linesOf c
    let gone := ls.filter fun e => lower && decide (keep ≤ (s.placeOf e.1).2)
    let s1 := s.each gone fun t e => t.dropLine e.1
    let s2 := if back then s1.each (s1.linesOf c) fun t e => t.writeBackNow e.1 false else s1
    let s3 := if lower then s2.dramForget c keep else s2
    (s3.setChn c { s3.chn c with pasrNew := none, pasrAsker := none, openRows := [] }).set (CHAN_PASR_FRACTION c) f

/-- The asker of a PASR change is answered. -/
def State.pasrAnswer (s : State) (c : Nat) (asker : Option Asker) (st : BitVec 8) : State :=
  match asker with
  | some .ring0 => s.each (s.mgmtOf 0x49) fun t m => if byteAt m.payload 0 = c then t.mgmtDone m.job st [] else t
  | some (.reg _) => s.payOwed (CHAN_PASR c).off st
  | none => s

/-! ## Fencing (R252) -/

/-- The line that a read fills. -/
def RdUse.fillOf (u : RdUse) : Option Nat := match u with
  | .miss l => some l
  | _ => none

/-- The requests of a channel's queues are over. -/
def State.clearQueues (s : State) (c : Nat) : State :=
  let k := s.chn c
  let lines := k.writes.filterMap (·.line)
  let t := s.each lines fun t l => match t.line l with
    | some x => t.setLine l { x with wbBusy := false }
    | none => t
  let uses := k.reads.map (·.use) ++ k.waits.map (·.use) ++ k.arrived.map fun a => a.1.use
  let t := t.each (uses.filterMap RdUse.fillOf) State.freeWay
  t.setChn c { k with reads := [], waits := [], writes := [], openRows := [], rowIdle := [], nrefDue := [], draining := false, arrived := [] }

/-- The controller stops a channel's heartbeat (R257): its layer misses it, cuts off what has not wholly arrived, enters self-refresh and sets
RETAINED (R73, R258). -/
def State.channelSr (s : State) (c : Nat) : State :=
  if (s.chn c).heartbeat then
    let s := s.cutBursts c
    let t := (s.setChn c { s.chn c with heartbeat := false, srHeld := true }).set (VCP_LAYER_STATUS_HB_LOST (c / 2)) 1
    { t with start := { t.start with retained := BitVec.ofNat 16 (putBit t.start.retained.toNat (c / 2) true) } }
  else s

/-- A channel becomes fenced for a cause (Table 11.11). Before P5 no map is loaded, and the start judges the contents then. -/
def State.fenceChannel (s : State) (c cause : Nat) : State :=
  if s.on (CHAN_STATUS_FENCED c) || decide (s.nChans ≤ c) then s
  else if s.phase < 5 || 8 < s.phase then
    ((s.sets [(CHAN_STATUS_FENCED c, 1), (CHAN_STATUS_FENCE_CAUSE c, cause), (CHAN_STATUS_STATE c, 4), (VCP_COL_STATUS_MODE c, 3)]).setChn c { s.chn c with heartbeat := false }).raiseRec .fence c cause
  else
    let k := s.chn c
    let wasReset := s.fld (CHAN_STATUS_STATE c) == 6
    let s1 := (s.sets [(CHAN_STATUS_FENCED c, 1), (CHAN_STATUS_FENCE_CAUSE c, cause), (CHAN_STATUS_STATE c, 4), (VCP_COL_STATUS_MODE c, 3)]).channelSr c |>.stopPatrol [c]
    let s2 := (s1.clearQueues c).fenceTxns c
    -- a PASR change under way ends, its dropped part dropped (R250)
    let s3 := if k.pasrNew.isSome then
        let set := s2.pasrSet c
        let who := set.findSome? fun x => (s2.chn x).pasrAsker.map fun a => (x, a)
        let t := s2.each set fun t x => let t1 := t.applyPasr x false; if x = c then t1 else t1.set (CHAN_STATUS_STATE x) 2
        match who with
        | some (x, a) => t.pasrAnswer x (some a) stSTATE
        | none => t
      else s2
    -- a block reset under way ends with the channel fenced (R250)
    let s4 := if wasReset then s3.unitResetEnd 2 c stSTATE else s3
    let s5 := s4.each ((s4.linesOf c).filter fun e => e.2.st == .clean) fun t e => t.dropLine e.1
    let j := c / 8
    let s6 := if !s5.parity then s5.loseChannel c
      else match s5.groupSt j with
        | 1 =>
          let t := (s5.changeGroup j 2).stopPatrol ((List.range 8).map (8 * j + ·))
          { t with sett := { t.sett with rebuild := mput c 0 t.sett.rebuild } }
        | 2 =>
          let fs := ((List.range 8).map fun i => 8 * j + i).filter fun f => f != c && s5.on (CHAN_STATUS_FENCED f) && !s5.on (CHAN_STATUS_RETIRED f) && !s5.on (CHAN_STATUS_LOST f)
          ((s5.changeGroup j 3).each fs State.stopRebuild).loseChannel c
        | _ => if s5.on (CHAN_STATUS_RETIRED c) then s5 else s5.loseChannel c
    s6.raiseRec .fence c cause

/-! ## Reads (R377, R383, R385) -/

/-- Coils that carried the wrong bits of a block (R255): position by bit, in full and in narrow mode. -/
def State.coilOfBit (s : State) (c b : Nat) : Nat :=
  if s.fld (VCP_COL_STATUS_MODE c) = 2 then 128 * s.fld (VCP_COL_STATUS_HALF c) + b % 128 else b % 256

/-- Number of spares of a column that are FREE. -/
def State.freeSpares (s : State) (c : Nat) : List Nat := (List.range 16).filter fun j => s.fld (VCP_SPARE_USE c j) == 0 && !s.on (VCP_SPARE_FAILED c j)

/-- The SHADOW spare of a column. -/
def State.shadowSpare (s : State) (c : Nat) : Option Nat := (List.range 16).find? fun j => s.fld (VCP_SPARE_USE c j) == 3

/-- VCP_COL_STATUS follows the spares (Table 12.10, R272). -/
def State.syncCol (s : State) (c : Nat) : State :=
  let n := fun u => ((List.range 16).filter fun j => s.fld (VCP_SPARE_USE c j) == u).length
  let fr := (s.freeSpares c).length
  s.sets [(VCP_COL_STATUS_FUSED c, n 1), (VCP_COL_STATUS_SOFT c, n 2), (VCP_COL_STATUS_FREE c, fr), (VCP_COL_STATUS_SHADOW c, b2n (n 3 != 0)),
    (VCP_COL_STATUS_TEST_NOSHADOW c, b2n (s.fld (VCP_COL_STATUS_MODE c) == 1 && decide (fr < 2)))]

/-! ## The soft-repair log (R397, Table 17.6) -/

/-- A free entry: absent, TYPE 0, or marked FUSED (R396). -/
def State.softFree (s : State) : Option Nat :=
  (List.range 16384).find? fun i => match mget s.sett.softLog i with
    | none => true
    | some e => byteAt e.bytes 0 == 0 || bitAt (byteAt e.bytes 1) 0

/-- Append an entry; `none` when the log is full. -/
def State.addSoft (s : State) (typ target : Nat) : Option State :=
  s.softFree.map fun i =>
    { s with sett := { s.sett with softLog := mput i { bytes := [BitVec.ofNat 8 typ, 0] ++ leBytes 6 target ++ leBytes 5 s.recd.opSec ++ zeros 3 } s.sett.softLog } }

/-! ## Coil failures (R269 to R275) -/

/-- Does a position lie in the half that narrow mode has dropped? -/
def State.inDropped (s : State) (c pos : Nat) : Bool := decide (pos < 256) && pos / 128 != s.fld (VCP_COL_STATUS_HALF c)

/-- Spares of a column that carry a position for good. -/
def State.heldPositions (s : State) (c : Nat) : List Nat :=
  ((List.range 16).filter fun j => s.fld (VCP_SPARE_USE c j) == 1 || s.fld (VCP_SPARE_USE c j) == 2).map fun j => s.fld (VCP_SPARE_POSITION c j)

/-- Does a position carry no data, as it lies in the half that narrow mode dropped? -/
def State.posDropped (s : State) (c pos : Nat) : Bool := s.fld (VCP_COL_STATUS_MODE c) == 2 && s.inDropped c pos

/-- Is a coil of a column in use: a functional position without a spare, or a spare that holds one? -/
def State.coilInUse (s : State) (c coil : Nat) : Bool :=
  if coil < 288 then !(s.heldPositions c).contains coil && !s.posDropped c coil
  else (s.fld (VCP_SPARE_USE c (coil - 288)) == 1 || s.fld (VCP_SPARE_USE c (coil - 288)) == 2) && !s.posDropped c (s.fld (VCP_SPARE_POSITION c (coil - 288)))

/-- VCP_COL_RESID from the residuals measured. -/
def State.syncResid (s : State) (c : Nat) : State :=
  let w := (s.col c).codes.foldl (fun (b : Nat × Nat) e => if s.coilInUse c (e.1 % 512) && decide (b.1 < e.2.resid.toNat) then (e.2.resid.toNat, e.1) else b) (0, 0)
  s.sets [(VCP_COL_RESID_RESID_WORST c, w.1), (VCP_COL_RESID_WORST_HOP c, w.2 / 1024), (VCP_COL_RESID_WORST_POS c, w.2 % 512)]

/-- A position of a column has failed (R269, Table 12.4). -/
def State.coilFail (s : State) (c pos : Nat) : State :=
  let s1 := (s.inc VCP_COIL_FAILS).set (VCP_COL_STATUS_LAST_FAIL c) (pos + 1)
  let k := s1.col c
  match s1.fld (VCP_COL_STATUS_MODE c) with
  | 1 =>
    if (s1.freeSpares c).isEmpty && (s1.shadowSpare c).isNone && decide (256 ≤ pos) then s1.fenceChannel c 1
    else
      let s2 := s1.setCol c { k with failed := if k.failed.contains pos then k.failed else (k.failed ++ [pos]).mergeSort }
      if pos < 256 then s2.set (VCP_COL_STATUS_WR_HOLD c) 1 else s2
  | 2 => if s1.inDropped c pos then s1.setCol c { k with dropped := k.dropped ++ [pos] } else s1.fenceChannel c 1
  | _ => s1

/-- WR_HOLD clears once no data position waits (R270). -/
def State.clearHold (s : State) (c : Nat) : State :=
  if (s.col c).failed.any fun p => decide (p < 256) then s else s.set (VCP_COL_STATUS_WR_HOLD c) 0

/-- A pending failure meets its boundary (R271, R273, R274): the spare crossbar is switched. -/
def State.switchPosition (s : State) (c pos : Nat) : State :=
  let s0 := s.setCol c { s.col c with failed := (s.col c).failed.filter (· != pos) }
  let lay := layerOf c
  let det := c + 32 * pos
  -- a spare that held the position has failed with it (R267)
  let s0 := s0.each ((List.range 16).filter fun j => (s0.fld (VCP_SPARE_USE c j) == 1 || s0.fld (VCP_SPARE_USE c j) == 2) && s0.fld (VCP_SPARE_POSITION c j) == pos) fun t j => t.sets [(VCP_SPARE_USE c j, 0), (VCP_SPARE_FAILED c j, 1), (VCP_SPARE_POSITION c j, 0)]
  let take := fun (t : State) (j : Nat) =>
    match t.addSoft 5 (c + 32 * pos + 2 ^ 14 * j) with
    | none => t.raiseRec .repairRefused (0x80 + lay - 2) det
    | some u =>
      ((((u.sets [(VCP_SPARE_USE c j, 2), (VCP_SPARE_POSITION c j, pos)]).inc VCP_SOFT_REPAIRS).syncCol c).clearHold c).raiseRec .coilRepair lay det
  match (s0.freeSpares c).head?, s0.shadowSpare c with
  | some j, _ => take s0 j
  | none, some j => take ((s0.set (VCP_SPARE_USE c j) 0).setCol c { s0.col c with test := none, testDrop := false }) j
  | none, none =>
    if pos < 256 then
      let half := 1 - pos / 128
      match s0.addSoft 6 (c + 32 * half) with
      | none => s0.raiseRec .repairRefused (0x80 + lay - 2) det
      | some u =>
        let t := ((u.sets [(VCP_COL_STATUS_MODE c, 2), (VCP_COL_STATUS_HALF c, half), (VCP_COL_STATUS_WR_HOLD c, 0), (CHAN_STATUS_NARROW c, 1)]).syncCol c).raiseRec .narrow lay (c + 32 * half)
        -- failures still waiting are judged again in narrow mode
        let rest := (t.col c).failed
        (t.setCol c { t.col c with failed := [] }).each rest fun w p =>
          if w.inDropped c p then w.setCol c { w.col c with dropped := (w.col c).dropped ++ [p] } else w.fenceChannel c 1
    else s0.fenceChannel c 1

/-- A pending failure meets its boundary; the column's residual is that of the coils now in use (R263). -/
def State.settleFailure (s : State) (c pos : Nat) : State := (s.switchPosition c pos).syncResid c

/-- Corrected errors of coils (R269): over COIL_ERR_LIMIT within 1 ms a coil has failed. -/
def State.coilErrors (s : State) (c : Nat) (ps : List Nat) : State :=
  let k := s.col c
  let errs := (k.errs.filter fun e => decide (s.now < e.2 + 1000)) ++ ps.map fun p => (p, s.now)
  let bad := ps.eraseDups.filter fun p => decide ((errs.filter fun e => e.1 == p).length > s.fld VCP_CAL_CFG_COIL_ERR_LIMIT)
  let s1 := s.setCol c { k with errs := errs.filter fun e => !bad.contains e.1 }
  s1.each (bad.filter fun p => !(k.failed.contains p)) fun t p => t.coilFail c p

/-- Wrong bits that a correction found: the coils that carried them. -/
def State.coilsOf (s : State) (c : Nat) (got want : List (BitVec 8)) : List Nat :=
  (List.range 576).filterMap fun b =>
    if bitAt ((got.getD (b / 8) 0).toNat ^^^ (want.getD (b / 8) 0).toNat) (b % 8) then some (s.coilOfBit c b) else none

/-- The read that follows a corrective write has found nothing to correct. -/
def State.unwatch (s : State) (c block : Nat) : State :=
  if s.prot.watched.any (fun w => w.1 == c && w.2.1 == block) then
    { s with prot := { s.prot with watched := s.prot.watched.filter fun x => !(x.1 == c && x.2.1 == block) } } else s

/-- What a read of a block gave: data and poison flag, or `again` where it is to be read again after a spare switch. -/
inductive ReadRes
  | data (d : List (BitVec 8)) (poison : Bool)
  | again
  deriving DecidableEq, Repr

/-- Note an uncorrectable result: log with COUNT 31 and the fault of R386. -/
def State.dramUe (s : State) (c block : Nat) (inj : Bool) : State := (s.logError (chanLog c) block true).raiseRec .dramUe c block inj

/-- A corrected block is queued for its corrective write (R383), once. -/
def State.queueCorrective (s : State) (c block : Nat) (data : List (BitVec 8)) (degs : List Nat) : State :=
  { s.dropCorrective c block with prot := { (s.dropCorrective c block).prot with corrective := (s.dropCorrective c block).prot.corrective ++ [(c, block, data, degs)] } }

/-- A correction at degrees corrected before the block's corrective write makes it hard-failed (R392). -/
def State.judgeHard (s : State) (c block : Nat) (degs : List Nat) : State :=
  match s.prot.watched.find? fun w => w.1 == c && w.2.1 == block with
  | none => s
  | some w =>
    let p := { s.prot with watched := s.prot.watched.filter fun x => !(x.1 == c && x.2.1 == block) }
    if w.2.2.any degs.contains then
      { s with prot := { p with hard := if p.hard.contains (c, block) then p.hard else p.hard ++ [(c, block)] } }
    else { s with prot := p }

/-- A block that decodes UE twice in one patrol pass of its channel is hard-failed (R392). -/
def State.noteUe (s : State) (c block : Nat) : State :=
  let p := s.prot
  if !bitAt (s.reg BST_BADGER_CHAN_EN.off) c then s
  else if p.ueOnce.contains (c, block) then
    { s with prot := { p with ueOnce := p.ueOnce.filter (· != (c, block)), hard := if p.hard.contains (c, block) then p.hard else p.hard ++ [(c, block)] } }
  else { s with prot := { p with ueOnce := p.ueOnce ++ [(c, block)] } }

/-- Read a block through the decoder: counters, logs, corrective write, reconstruction, faults (R377, R383 to R386, R240).
`err` is what the arriving bytes differ by. -/
def State.readBlock (s : State) (c block : Nat) (err : List (BitVec 8)) : ReadRes × State :=
  let (stored, s0) := s.dramRead c block
  let s1 := s0.incPair (CHAN_RD_LO c) 1
  let got := xorBytes stored (slice err 0 72)
  let poisoned := fun (t : State) => let (d, u) := t.draw 64; (ReadRes.data d true, u)
  let (inj, s2) := s1.injCheck 0 c
  match inj with
  | some true => poisoned ((s2.inc (CHAN_UE c)).dramUe c block true)
  | some false =>
    let t := ((s2.inc (CHAN_CE c)).inc (CHAN_CE_SYMS c)).logError (chanLog c) block false
    (.data (stored.take 64) false, t)
  | none =>
    let f := foldOf (s2.lineHere c block) c block
    let (r, d) := dramDecode f got
    match r with
    | .clean => (.data d false, s2.unwatch c block)
    | .poisoned => poisoned ((s2.unwatch c block).inc (CHAN_POISON_RD c))
    | .corrected es =>
      let degs := es.map fun e => 76 - e
      let fixed := dramEncode f d false
      let t := ((((s2.inc (CHAN_CE c)).incBy (CHAN_CE_SYMS c) es.length).logError (chanLog c) block false).judgeHard c block degs).queueCorrective c block d degs
      (.data d false, t.coilErrors c (s2.coilsOf c got fixed))
    | _ =>
      if s2.on (VCP_COL_STATUS_WR_HOLD c) then (.again, s1)
      else
        let t := (if r == .ueAddr then s2.inc (CHAN_UE_ADDR c) else s2.inc (CHAN_UE c)).noteUe c block
        if t.parity && t.groupSt (c / 8) == 1 then
          match t.stripeXor c block with
          | (some x, u) => (.data x false, (u.blockWrite c block x false).inc (CHAN_RECONSTRUCT c))
          | (none, u) => poisoned (u.dramUe c block false)
        else poisoned (t.dramUe c block false)

/-- A read of a channel's queue arrives. -/
def State.readArrives (s : State) (c : Nat) (err : List (BitVec 8)) : State :=
  let k := s.chn c
  match (enum k.reads).find? fun e => e.2.issued with
  | none => s
  | some (i, r) =>
    match s.readBlock c r.block err with
    | (.again, t) => t.setChn c { t.chn c with reads := (t.chn c).reads.set i { r with issued := false } }
    | (.data d p, t) =>
      let k1 := t.chn c
      (t.setChn c { k1 with reads := ldrop k1.reads i, arrived := k1.arrived ++ [(r, p, d)] }).when (!r.forAtom) fun u => u.blockPerformed r.cls r.grp 0

/-- A block that has arrived fills its line, or a response cell alone (R222). -/
def State.fillDone (s : State) (c : Nat) : State :=
  let k := s.chn c
  match k.arrived with
  | [] => s
  | (r, p, d) :: rest =>
    let done := fun (t : State) => t.setChn c { t.chn c with arrived := (t.chn c).arrived.drop 1 }
    match r.use with
    | .miss l =>
      match s.line l with
      | some _ => done (s.freeWay l)
      | none =>
        match s.takeWay l r.cls r.grp with
        | (none, t) => t
        | (some w, t) => done (((t.freeWay l).setLine l { st := .clean, data := d, poison := p, way := w }).touch l w)
    | .noalloc id l =>
      let t := s.setChn c { k with arrived := rest }
      match t.txn id with
      | none => t
      | some x =>
        let i := l - x.lineOf 0
        if !x.todo.contains i then t
        else match t.line l with
          | some y => t.blockDone id i (some y.data) y.poison
          | none => t.blockDone id i (some d) p
    | _ => s.setChn c { k with arrived := rest }

/-- A freed entry goes to a waiter (R284): of its group for a reserved entry, else the oldest of the highest class. -/
def State.grantEntry (s : State) (c : Nat) : State :=
  let k := s.chn c
  let ws := (enum k.waits).filterMap fun e => (s.entryFor k e.2.block e.2.cls e.2.grp).map fun r => (e.1, e.2, r)
  let own := ws.find? fun e => e.2.2
  let best := ws.foldl (fun (b : Option (Nat × WaitReq × Bool)) e => match b with
    | none => some e
    | some x => if e.2.1.cls < x.2.1.cls then some e else some x) none
  match own.or best with
  | none => s
  | some (i, w, r) => s.setChn c { k with waits := ldrop k.waits i, reads := k.reads ++ [{ block := w.block, use := w.use, cls := w.cls, grp := w.grp, reserved := r, forAtom := w.forAtom, at_ := w.at_ }] }

/-! ## Receivers of a column (R256, R261 to R265) -/

def coilKey (dir : Bool) (hop pos : Nat) : Nat := (hop * 2 + b2n dir) * 512 + pos

/-- Does a coil carry data in a direction (Table 12.1)? -/
def coilCarries (up : Bool) (coil : Nat) : Bool :=
  if coil < 256 ∨ 288 ≤ coil then true else (coil == 282 || coil == 283 || coil == 286 || coil == 287) == up

/-- Is the receiver of this key the one that finally receives, on layer L or on the base die? It alone has a sampling delay. -/
def finalHop (layers key : Nat) : Bool := if key / 512 % 2 = 1 then key / 1024 == 1 else key / 1024 == layers

/-- Die on which the receiver of a key stands: hop h runs from die h − 1 to die h. -/
def dieOfKey (key : Nat) : Nat := if key / 512 % 2 = 1 then key / 1024 - 1 else key / 1024

/-- Does a key name a receiver of a column of a layer? -/
def keyOk (layers key : Nat) : Bool :=
  decide (1 ≤ key / 1024) && decide (key / 1024 ≤ layers) && decide (key % 512 < 304) && coilCarries (key / 512 % 2 == 1) (key % 512)

/-- The code that the calibration of a receiver starts from (Table 12.3): the TRIM flat code, its gain raised by one step for each 0.2 µm
of gap where the profile takes the warp, and its sampling point moved by 6 ps (three taps) per stress class where it takes the stress
(log entry 80). -/
def startCode (b : CalBase) (c key : Nat) : CoilCode :=
  let flat := Config.coilFlat b.trim c key
  let r := Config.coilRadius c (key % 512)
  let warp := if bitAt b.profile 1 then Config.dieBow b.trim (key / 1024) * r * r / (778 * 778 * 2) else 0
  let late := if bitAt b.profile 0 then 3 * (Config.stressClass c (key % 512)).val else 0
  { gain := flat.extractLsb' 0 8 + BitVec.ofNat 8 warp, thresh := flat.extractLsb' 8 8, delay := if finalHop (layerOf c) key then flat.extractLsb' 16 8 + BitVec.ofNat 8 late else 0 }

/-- The codes that the latches of a receiver hold (R256). -/
def Column.code (k : Column) (c key : Nat) : CoilCode :=
  match mget k.codes key with
  | some x => x
  | none => match mget k.cal (dieOfKey key) with
    | some b => startCode b c key
    | none => {}

/-- One tap of a code; from the end of its range the value is open. -/
def tapBy (v : BitVec 8) (up : Bool) (last : BitVec 8) (edge : BitVec 8) : BitVec 8 := if v == last then edge else if up then v + 1 else v - 1

/-- One tap of one setting of a receiver: gain, threshold (signed) or delay. -/
def tapCode (k : CoilCode) (which : Nat) (up : Bool) (edge : BitVec 8) : CoilCode :=
  let top : BitVec 8 := if up then 0xFF else 0
  match which with
  | 0 => { k with gain := tapBy k.gain up top edge }
  | 1 => { k with thresh := tapBy k.thresh up (if up then 0x7F else 0x80) edge }
  | _ => { k with delay := tapBy k.delay up top edge }

/-- Receivers at each die and hop: both directions of the data coils and spares, one of the others (Table 12.1). -/
def recvAt (j : Nat) : Bool × Nat :=
  if j < 512 then (j % 2 == 1, j / 2)
  else if j < 538 then (false, 256 + (j - 512))
  else if j < 540 then (false, 284 + (j - 538))
  else if j < 542 then (true, 282 + (j - 540))
  else if j < 544 then (true, 286 + (j - 542))
  else ((j - 544) % 2 == 1, 288 + (j - 544) / 2)

/-- Settings of a column of a layer: three to a receiver, the delay of the final hop alone being visited. -/
def settings (layers : Nat) : Nat := layers * 1728

/-- Key and setting of an index. -/
def settingAt (n : Nat) : Nat × Nat :=
  let r := recvAt (n / 3 % 576)
  (coilKey r.1 (n / 1728 + 1) r.2, n % 3)

/-- Does the rotation visit a setting: its coil is in use or a spare (R262)? -/
def State.visits (s : State) (c n : Nat) : Bool :=
  let (key, which) := settingAt n
  (decide (288 ≤ key % 512) || s.coilInUse c (key % 512)) && (decide (which < 2) || finalHop (layerOf c) key)

/-- The next setting visited, from an index on: the index, and whether the end of the column was passed on the way. -/
def State.nextSetting (s : State) (c : Nat) : Nat → Nat → Bool → Nat × Bool
  | 0, n, wrap => (n, wrap)
  | fuel + 1, n, wrap =>
    if settings (layerOf c) ≤ n then s.nextSetting c fuel 0 true
    else if s.visits c n then (n, wrap)
    else s.nextSetting c fuel (n + 1) wrap

/-- Search from a setting over the whole column. -/
def State.settingFrom (s : State) (c n : Nat) : Nat × Bool := s.nextSetting c (2 * settings 17 + 2) n false

/-- The column's residual follows what was measured; its first passing of RESID_WARN is recorded (R263). -/
def State.judgeResid (s : State) (c : Nat) : State :=
  let t := s.syncResid c
  if !(t.col c).warned && decide (t.fld VCP_CAL_CFG_RESID_WARN < t.fld (VCP_COL_RESID_RESID_WORST c)) then
    (t.setCol c { t.col c with warned := true }).event 0x0C 1 c (t.reg (VCP_COL_RESID c).off) 0
  else t

/-- A receiver's residual is measured (R263): how long it has stayed above RESID_FAIL is noted. -/
def State.measure (s : State) (c : Nat) (m : CoilRes) : State :=
  let key := coilKey m.dir m.hop.toNat m.pos.toNat
  let k := s.col c
  if !keyOk (layerOf c) key then s
  else
    let seen := if m.resid.toNat ≤ s.fld VCP_CAL_CFG_RESID_FAIL then merase key k.residSeen
      else if (mget k.residSeen key).isSome then k.residSeen else mput key (k.laps, k.rotAt) k.residSeen
    s.setCol c { k with codes := mput key { k.code c key with resid := m.resid } k.codes, residSeen := seen }

/-- The position that a coil serves fails, or an idle spare does (R267, R269). -/
def State.failCoil (s : State) (c coil : Nat) : State :=
  if coil < 288 then (if s.coilInUse c coil && !(s.col c).failed.contains coil then s.coilFail c coil else s)
  else if s.coilInUse c coil then
    (if (s.col c).failed.contains (s.fld (VCP_SPARE_POSITION c (coil - 288))) then s else s.coilFail c (s.fld (VCP_SPARE_POSITION c (coil - 288))))
  else if s.fld (VCP_SPARE_USE c (coil - 288)) = 0 then (s.set (VCP_SPARE_FAILED c (coil - 288)) 1).syncCol c
  else s

/-- Receivers whose residual has stayed above RESID_FAIL for a full rotation: their coils have failed (R263). -/
def State.judgeRotation (s : State) (c : Nat) : State :=
  let k := s.col c
  let bad := k.residSeen.filter fun e => decide (e.2.1 + 1 < k.laps) || (decide (e.2.1 < k.laps) && decide (e.2.2 ≤ k.rotAt))
  (s.setCol c { k with residSeen := k.residSeen.filter fun e => !bad.contains e }).each (bad.map fun e => e.1 % 512).eraseDups fun t p => t.failCoil c p

/-- One receiver of a column as steps 5 and 6 of Table 12.2 leave it. -/
def State.takeCal (s : State) (c : Nat) (m : CoilCal) : State :=
  let key := coilKey m.dir m.hop.toNat m.pos.toNat
  if m.col.toNat != c || !keyOk (layerOf c) key then s
  else
    let k := s.col c
    let x := k.code c key
    s.setCol c { k with codes := mput key { gain := x.gain + m.gain, thresh := x.thresh + m.thresh, delay := if finalHop (layerOf c) key then x.delay + m.delay else 0, resid := m.resid } k.codes }

/-- Coils that a calibration could not bring within RESID_FAIL (R261). -/
def State.calFails (s : State) (c : Nat) (found : List CoilCal) : List Nat :=
  ((found.filter fun m => m.col.toNat == c && keyOk (layerOf c) (coilKey m.dir m.hop.toNat m.pos.toNat) && decide (s.fld VCP_CAL_CFG_RESID_FAIL < m.resid.toNat)).map fun m => m.pos.toNat).eraseDups

/-- Steps 5 and 6 of Table 12.2 again, from the codes that the latches hold (R260, R264): every residual is measured, and a coil not
brought within RESID_FAIL has failed. -/
def State.recalibrate (s : State) (c : Nat) (found : List CoilCal) : State :=
  let k := s.col c
  let t := s.setCol c { k with calTemp := s.layerTemps (layerOf c), residSeen := [], codes := k.codes.map fun (e : Nat × CoilCode) => (e.1, ({ e.2 with resid := 0 } : CoilCode)) }
  let u := (t.each found fun t m => t.takeCal c m).judgeResid c
  u.each (u.calFails c found) fun v p => v.failCoil c p

/-- The coil test of a column ends: its shadow returns to FREE (R449 step 3). -/
def State.releaseShadow (s : State) (c : Nat) : State :=
  let t := match (s.col c).test with
    | some (_, some j) => if j < 16 then s.sets [(VCP_SPARE_USE c j, 0), (VCP_SPARE_POSITION c j, 0)] else s
    | _ => s
  (t.setCol c { s.col c with test := none, testDrop := false }).syncCol c

/-- The command offset moves one tap at a boundary within the refresh of either pseudo-channel (R244); what margin remains is open. -/
def State.cmdOffset (s : State) (c : Nat) (cmd : Option Bool) : State :=
  let k := s.chn c
  match cmd with
  | none => s
  | some up =>
    if k.refBusy.isEmpty then s
    else
      let v := k.offsets.getD 4 0
      (({ s with free := s.free + 1 } : State).setChn c { k with offsets := k.offsets.set 4 (if up then v + 1 else v - 1) }).set (CHAN_TRAIN_CA_MARGIN c) (Config.freeNat s.free)

/-- One step of a forced recalibration (R264), or of the rotation: the setting that is next moves by one tap. -/
def State.stepSetting (s : State) (c : Nat) (up : Bool) : State :=
  let k := s.col c
  let (n, wrap) := s.settingFrom c (if k.recal then k.recAt else k.rotAt)
  let (key, which) := settingAt n
  let codes := mput key (tapCode (k.code c key) which up (Config.freeByte s.free 0)) k.codes
  let t : State := { s with free := s.free + 1 }
  t.setCol c (if k.recal then { k with codes := codes, recAt := n + 1 }
    else { k with codes := codes, rotAt := n + 1, rotPos := k.rotPos + 1, laps := k.laps + b2n wrap })

/-- One coupling boundary of a column (R262): a pending spare switch, else a step of a forced recalibration, else one of the rotation,
which FREEZE stops. What the receivers measured since the last boundary is judged all the same (R263, log entry 80). -/
def State.boundary (s : State) (c : Nat) (m : Tap) : State :=
  let s := if (s.col c).testDrop then s.releaseShadow c else s
  let mode := s.fld (VCP_COL_STATUS_MODE c)
  if mode = 0 ∨ mode = 3 then s
  else
    let t := (m.resids.foldl (fun t x => t.measure c x) s).cmdOffset c m.cmd
    let u := match (t.col c).failed with
      | p :: _ => t.settleFailure c p
      | [] => if (t.col c).recal || !t.on VCP_CAL_CFG_FREEZE then t.stepSetting c m.up else t
    (u.judgeResid c).judgeRotation c

end Sys2Proof.Machine
end

