-- ==== Sys2Proof/Machine/Crypto.lean ====
section
/-! DEFINITION. SHA-384 (FIPS 180-4) and ECDSA P-384 verification (FIPS 186-5), by which firmware images (R319) and debug
responses (R457) are checked. -/

namespace Sys2Proof.Machine

set_option Elab.async false

/-! ## SHA-384 -/

def shaMod (v : Nat) : Nat := v % 2 ^ 64

/-- Rotate a 64-bit word right. -/
def rotr (n v : Nat) : Nat := v / 2 ^ n + v % 2 ^ n * 2 ^ (64 - n)

/-- The 80 round constants. -/
def shaK : List Nat :=
  [0x428A2F98D728AE22, 0x7137449123EF65CD, 0xB5C0FBCFEC4D3B2F, 0xE9B5DBA58189DBBC, 0x3956C25BF348B538, 0x59F111F1B605D019, 0x923F82A4AF194F9B, 0xAB1C5ED5DA6D8118]
  ++ [0xD807AA98A3030242, 0x12835B0145706FBE, 0x243185BE4EE4B28C, 0x550C7DC3D5FFB4E2, 0x72BE5D74F27B896F, 0x80DEB1FE3B1696B1, 0x9BDC06A725C71235, 0xC19BF174CF692694]
  ++ [0xE49B69C19EF14AD2, 0xEFBE4786384F25E3, 0x0FC19DC68B8CD5B5, 0x240CA1CC77AC9C65, 0x2DE92C6F592B0275, 0x4A7484AA6EA6E483, 0x5CB0A9DCBD41FBD4, 0x76F988DA831153B5]
  ++ [0x983E5152EE66DFAB, 0xA831C66D2DB43210, 0xB00327C898FB213F, 0xBF597FC7BEEF0EE4, 0xC6E00BF33DA88FC2, 0xD5A79147930AA725, 0x06CA6351E003826F, 0x142929670A0E6E70]
  ++ [0x27B70A8546D22FFC, 0x2E1B21385C26C926, 0x4D2C6DFC5AC42AED, 0x53380D139D95B3DF, 0x650A73548BAF63DE, 0x766A0ABB3C77B2A8, 0x81C2C92E47EDAEE6, 0x92722C851482353B]
  ++ [0xA2BFE8A14CF10364, 0xA81A664BBC423001, 0xC24B8B70D0F89791, 0xC76C51A30654BE30, 0xD192E819D6EF5218, 0xD69906245565A910, 0xF40E35855771202A, 0x106AA07032BBD1B8]
  ++ [0x19A4C116B8D2D0C8, 0x1E376C085141AB53, 0x2748774CDF8EEB99, 0x34B0BCB5E19B48A8, 0x391C0CB3C5C95A63, 0x4ED8AA4AE3418ACB, 0x5B9CCA4F7763E373, 0x682E6FF3D6B2B8A3]
  ++ [0x748F82EE5DEFB2FC, 0x78A5636F43172F60, 0x84C87814A1F0AB72, 0x8CC702081A6439EC, 0x90BEFFFA23631E28, 0xA4506CEBDE82BDE9, 0xBEF9A3F7B2C67915, 0xC67178F2E372532B]
  ++ [0xCA273ECEEA26619C, 0xD186B8C721C0C207, 0xEADA7DD6CDE0EB1E, 0xF57D4F7FEE6ED178, 0x06F067AA72176FBA, 0x0A637DC5A2C898A6, 0x113F9804BEF90DAE, 0x1B710B35131C471B]
  ++ [0x28DB77F523047D84, 0x32CAAB7B40C72493, 0x3C9EBE0A15C9BEBC, 0x431D67C49C100D4C, 0x4CC5D4BECB3E42B6, 0x597F299CFC657E2A, 0x5FCB6FAB3AD6FAEC, 0x6C44198C4A475817]

/-- The initial hash value of SHA-384. -/
def shaInit : List Nat :=
  [0xCBBB9D5DC1059ED8, 0x629A292A367CD507, 0x9159015A3070DD17, 0x152FECD8F70E5939, 0x67332667FFC00B31, 0x8EB44A8768581511, 0xDB0C2E0D64F98FA7, 0x47B5481DBEFA4FA4]

/-- The padded message, in bytes. -/
def shaPad (m : List (BitVec 8)) : List (BitVec 8) :=
  let z := (239 - m.length % 128) % 128
  m ++ [0x80] ++ zeros z ++ (leBytes 16 (8 * m.length)).reverse

/-- A big-endian number. -/
def beNum (l : List (BitVec 8)) : Nat := l.foldl (fun a b => a * 256 + b.toNat) 0

/-- The message schedule, newest word first: from 16 words to 80. -/
def shaExtend : Nat → List Nat → List Nat
  | 0, w => w
  | n + 1, w =>
    let a := w.getD 1 0
    let b := w.getD 14 0
    let s1 := (rotr 19 a) ^^^ (rotr 61 a) ^^^ (a / 2 ^ 6)
    let s0 := (rotr 1 b) ^^^ (rotr 8 b) ^^^ (b / 2 ^ 7)
    shaExtend n (shaMod (s1 + w.getD 6 0 + s0 + w.getD 15 0) :: w)

/-- One round on the eight working words. -/
def shaRound (v : List Nat) (kw : Nat × Nat) : List Nat :=
  match v with
  | [a, b, c, d, e, f, g, h] =>
    let t1 := h + ((rotr 14 e) ^^^ (rotr 18 e) ^^^ (rotr 41 e)) + ((e &&& f) ^^^ ((2 ^ 64 - 1 - e) &&& g)) + kw.1 + kw.2
    let t2 := ((rotr 28 a) ^^^ (rotr 34 a) ^^^ (rotr 39 a)) + ((a &&& b) ^^^ (a &&& c) ^^^ (b &&& c))
    [shaMod (t1 + t2), a, b, c, shaMod (d + t1), e, f, g]
  | _ => v

/-- One 128-byte block. -/
def shaBlock (h : List Nat) (b : List (BitVec 8)) : List Nat :=
  let w := shaExtend 64 ((chunksOf 8 b).map beNum).reverse
  List.zipWith (fun x y => shaMod (x + y)) h ((shaK.zip w.reverse).foldl shaRound h)

/-- SHA-384: 48 bytes. -/
def sha384 (m : List (BitVec 8)) : List (BitVec 8) :=
  (((chunksOf 128 (shaPad m)).foldl shaBlock shaInit).take 6).flatMap fun x => (leBytes 8 x).reverse

/-! ## P-384 -/

def ecP : Nat := 0xFFFFFFFFFFFFFFFFFFFFFFFFFFFFFFFFFFFFFFFFFFFFFFFFFFFFFFFFFFFFFFFEFFFFFFFF0000000000000000FFFFFFFF
def ecN : Nat := 0xFFFFFFFFFFFFFFFFFFFFFFFFFFFFFFFFFFFFFFFFFFFFFFFFC7634D81F4372DDF581A0DB248B0A77AECEC196ACCC52973
def ecB : Nat := 0xB3312FA7E23EE7E4988E056BE3F82D19181D9C6EFE8141120314088F5013875AC656398D8A2ED19D2A85C8EDD3EC2AEF
def ecGx : Nat := 0xAA87CA22BE8B05378EB1C71EF320AD746E1D3B628BA79B9859F741E082542A385502F25DBF55296C3A545E3872760AB7
def ecGy : Nat := 0x3617DE4A96262C6F5D9E98BF9292DC29F8F41DBD289A147CE9DA3113B5F0B8C00A60B1CE1D7E819D7A431D7C90EA0E5F

/-- a^e mod m, by squaring (`fuel` bits). -/
def powMod (m : Nat) : Nat → Nat → Nat → Nat
  | 0, _, _ => 1
  | f + 1, a, e => if e = 0 then 1 else
    let r := powMod m f (a * a % m) (e / 2)
    if e % 2 = 1 then a * r % m else r

/-- Inverse modulo a prime. -/
def invMod (m a : Nat) : Nat := powMod m 400 (a % m) (m - 2)

def subMod (m a b : Nat) : Nat := (a % m + m - b % m) % m

/-- Addition of points; `none` is the point at infinity. -/
def ecAdd (a b : Option (Nat × Nat)) : Option (Nat × Nat) :=
  match a, b with
  | none, q => q
  | q, none => q
  | some (x1, y1), some (x2, y2) =>
    if x1 = x2 ∧ (y1 + y2) % ecP = 0 then none
    else
      let l := if x1 = x2 then (subMod ecP (3 * x1 * x1) 3) * invMod ecP (2 * y1) % ecP
        else (subMod ecP y2 y1) * invMod ecP (subMod ecP x2 x1) % ecP
      let x := subMod ecP (l * l) (x1 + x2)
      some (x, subMod ecP (l * subMod ecP x1 x) y1)

/-- Multiplication of a point by a number (`fuel` bits). -/
def ecMul : Nat → Nat → Option (Nat × Nat) → Option (Nat × Nat)
  | 0, _, _ => none
  | f + 1, k, q => if k = 0 then none else
    let r := ecMul f (k / 2) (ecAdd q q)
    if k % 2 = 1 then ecAdd q r else r

/-- Is a point on the curve y² = x³ − 3x + b? -/
def ecOn (x y : Nat) : Bool := decide (x < ecP) && decide (y < ecP) && y * y % ecP == subMod ecP (x * x * x + ecB) (3 * x)

/-- ECDSA verification of a 48-byte digest under a 97-byte key and signature (r, s), 48 bytes each. -/
def ecdsaOk (key r s digest : List (BitVec 8)) : Bool :=
  let x := beNum ((key.drop 1).take 48)
  let y := beNum ((key.drop 49).take 48)
  let rn := beNum r
  let sn := beNum s
  if byteAt key 0 == 4 && ecOn x y && decide (0 < rn) && decide (rn < ecN) && decide (0 < sn) && decide (sn < ecN) then
    let w := invMod ecN sn
    match ecAdd (ecMul 400 (beNum digest * w % ecN) (some (ecGx, ecGy))) (ecMul 400 (rn * w % ecN) (some (x, y))) with
    | none => false
    | some (v, _) => v % ecN == rn
  else false

end Sys2Proof.Machine
end

