-- ==== Sys2Proof/Machine/Fox.lean ====
section
/-! DEFINITION. Fox engines (15_fox_services.md) and check-value units (16_checks_checkpoint.md): images (R319), reloads
and traps (R324, R352, R353), check values (R356 to R359), granule maps (R362 to R364), locations and operands (R328 to
R332, R336), accesses (R333, R334), stages' shared course (R327, R331, R349) and their ends (R337). -/

namespace Sys2Proof.Machine

set_option Elab.async false

/-! ## Check-value units -/

/-- Width, polynomial (reversed for a reflected one), reflected, final XOR (Table 16.1). -/
def cvuWidth (p : Nat) : Nat := if p = 0 then 16 else if p = 3 then 64 else 32
def cvuPoly (p : Nat) : Nat := if p = 0 then 0x1021 else if p = 1 then 0xEDB88320 else if p = 2 then 0x82F63B78 else 0x42F0E1EBA9EA3693
def cvuRefl (p : Nat) : Bool := p == 1 || p == 2
def cvuXor (p : Nat) : Nat := if cvuRefl p then 0xFFFFFFFF else 0
def cvuStd (p : Nat) : Nat := if p = 0 then 0xFFFF else if p = 3 then 0 else 0xFFFFFFFF

/-- One bit into a register that shifts toward its top. -/
def cvuTopBit (w poly r : Nat) (b : Bool) : Nat :=
  let r2 := 2 * r % 2 ^ w
  if bitAt r (w - 1) != b then r2 ^^^ poly else r2

/-- Feed a byte (R358 step 2). -/
def cvuFeed (p r : Nat) (b : BitVec 8) : Nat :=
  if cvuRefl p then crcByte (cvuPoly p) r b
  else [7, 6, 5, 4, 3, 2, 1, 0].foldl (fun x i => cvuTopBit (cvuWidth p) (cvuPoly p) x (b.getLsbD i)) r

def cvuFeedAll (p r : Nat) (l : List (BitVec 8)) : Nat := l.foldl (cvuFeed p) r

/-- Finished value (R358 step 3). -/
def cvuFinish (p r : Nat) : Nat := r ^^^ cvuXor p

/-- Register loaded from a context (R332, R358), with the fold seeds fed (R359). -/
def cvuLoad (ctx : List (BitVec 8)) (addr : Nat) : Nat :=
  let p := byteAt ctx 8
  let f := byteAt ctx 9
  let r := if bitAt f 0 then leAt ctx 0 8 ^^^ cvuXor p else leAt ctx 0 8
  if bitAt f 1 then cvuFeedAll p r (leBytes 8 addr) else r

/-- A context is well formed; `fold` tells whether FOLD may be used. -/
def ctxOk (ctx : List (BitVec 8)) (fold : Bool) : Bool :=
  let p := byteAt ctx 8
  let f := byteAt ctx 9
  decide (p ≤ 3) && decide (leAt ctx 0 8 < 2 ^ cvuWidth p) && f / 4 == 0 && !(bitAt f 0 && bitAt f 1) && (fold || f / 2 == 0)
  && (List.range 6).all fun i => byteAt ctx (10 + i) == 0

def State.cvu (s : State) (u : Nat) : Cvu := mgetD s.fox.cvus u {}
def State.setCvu (s : State) (u : Nat) (x : Cvu) : State := { s with fox := { s.fox with cvus := mput u x s.fox.cvus } }

/-- A free unit. -/
def State.freeCvu (s : State) : Option Nat := (List.range 16).find? fun u => !(s.cvu u).held

/-- A unit absorbs bytes. -/
def State.feedCvu (s : State) (u : Nat) (l : List (BitVec 8)) : State :=
  let x := s.cvu u
  s.setCvu u { x with reg := BitVec.ofNat 64 (cvuFeedAll x.poly x.reg.toNat l) }

def State.releaseCvu (s : State) (u : Nat) : State := s.setCvu u { s.cvu u with held := false, test := false }

/-- CVU_VAL (R360). -/
def State.cvuVal (s : State) (u : Nat) : Nat := cvuFinish (s.cvu u).poly (s.cvu u).reg.toNat

/-- CVU_UNIT_STATUS (Table 16.7). -/
def State.cvuStatus (s : State) (u : Nat) : Nat :=
  let x := s.cvu u
  b2n x.held * 2 ^ 31 + b2n (x.held && x.test) * 2 ^ 30 + (if x.held && !x.test then x.engine % 32 * 2 ^ 8 else 0) + x.poly % 4

/-! ## Granule maps (R362 to R364) -/

def GranMapDirty (m : GranMap) (g : Nat) : Bool := if m.flip.contains g then !m.base else m.base

/-- OR of two maps. -/
def granOr (a b : GranMap) : GranMap :=
  let base := a.base || b.base
  let c := (a.flip ++ b.flip.filter fun g => !a.flip.contains g).mergeSort
  { base := base, flip := c.filter fun g => (GranMapDirty a g || GranMapDirty b g) != base }

def granClear (m : GranMap) (g : Nat) : GranMap :=
  if !GranMapDirty m g then m
  else if m.base then { m with flip := (m.flip ++ [g]).mergeSort } else { m with flip := m.flip.filter (· != g) }

/-- Bits set among the granules covered. -/
def State.granCount (s : State) (m : GranMap) : Nat :=
  let n := s.fld CVU_CKP_GRANULES
  let f := (m.flip.filter fun g => decide (g < n)).length
  if m.base then n - f else f

/-- The map's bytes from `i` on, `n` of them (R365). -/
def granBytes (m : GranMap) (i n : Nat) : List (BitVec 8) :=
  (List.range n).map fun k => BitVec.ofNat 8 (maskOf ((List.range 8).filter fun b => GranMapDirty m (8 * (i + k) + b)))

/-- The maps are lost (R364). -/
def State.loseMaps (s : State) : State :=
  ({ s with fox := { s.fox with ckpActive := { base := true }, ckpFrozen := {} } }).set CVU_CKP_STATUS_ALL_DIRTY 1

/-! ## Images (R319) -/

inductive ImgRes
  | ok (svn : Nat) (digest fox : List (BitVec 8))
  | malformed
  | access
  deriving DecidableEq, Repr

/-- Verify an image of at most 1 MiB in bytes that starts with its header. -/
def verifyImage (img : List (BitVec 8)) (variant : Nat) (keyHash : List (BitVec 8)) (floor : Nat) : ImgRes :=
  let total := leAt img 4 4
  let mo := leAt img 16 4
  let ml := leAt img 20 4
  let fo := leAt img 24 4
  let fl := leAt img 28 4
  let zero := fun a n => (List.range n).all fun i => byteAt img (a + i) == 0
  let vbit := if variant = 0x96 then 0 else if variant = 0x72 then 1 else 2
  let shape := img.take 4 == ([0x47, 0x46, 0x57, 0x31] : List (BitVec 8)) && decide (1024 ≤ total) && decide (total ≤ 1048576) && total % 64 == 0
    && zero 10 2 && leAt img 12 4 < 8 && zero 32 96 && zero 225 31 && zero 352 672
    && decide (1 ≤ ml) && decide (ml ≤ 327680) && decide (1 ≤ fl) && decide (fl ≤ 65536)
    && decide (1024 ≤ mo) && decide (1024 ≤ fo) && mo % 64 == 0 && fo % 64 == 0 && decide (mo + ml ≤ total) && decide (fo + fl ≤ total)
    && (decide (mo + ml ≤ fo) || decide (fo + fl ≤ mo))
  if !shape then .malformed
  else
    let body := slice img 0 total
    let digest := sha384 (body.take 256 ++ zeros 96 ++ body.drop 352)
    let key := (img.drop 128).take 97
    let svn := leAt img 8 2
    if bitAt (leAt img 12 4) vbit && sha384 key == keyHash && ecdsaOk key ((img.drop 256).take 48) ((img.drop 304).take 48) digest && decide (floor ≤ svn) then
      .ok svn digest (slice img fo fl)
    else .access

/-- Bytes of a firmware slot (0 A, 1 B). -/
def State.slotImage (s : State) (slot : Nat) : List (BitVec 8) :=
  let m := s.sett.fw.filter fun e => e.1 / 1048576 == slot
  let go := m.foldl (fun (a : Nat × List (BitVec 8)) e => (e.1 % 1048576 + 1, a.2 ++ zeros (e.1 % 1048576 - a.1) ++ [e.2])) (0, [])
  go.2

/-- A row of the fuse array as applied at the last sense (R95). -/
def State.fuseRow (s : State) (r : Nat) : BitVec 128 := mgetD s.fuse.applied r 0

/-! ## Engines -/

def engStCode : EngSt → Nat
  | .off => 0
  | .loading => 1
  | .idle => 2
  | .run => 3
  | .help => 4
  | .svc => 5
  | .reload => 6
  | .disabled => 7

/-- Put an engine back, its STATE with it. -/
def State.putEng (s : State) (e : Nat) (g : Engine) : State := (s.setEng e g).set (FOX_STATUS_STATE e) (engStCode g.st)

def State.engEnabled (s : State) (e : Nat) : Bool := decide (e < s.nEngines) && s.on (FOX_CTL_ENABLE e) && (s.eng e).st != .disabled

/-- Reserved for SVC: among the SVC_RES highest-numbered enabled engines of its earth (R326). -/
def State.svcReserved (s : State) (e : Nat) : Bool :=
  let above := (List.range 8).filter fun k => decide (e % 8 < k) && s.engEnabled (e / 8 * 8 + k)
  s.engEnabled e && decide (above.length < s.fld FOX_CFG_SVC_RES)

/-- Idle, enabled, and PLL_FOX locked. -/
def State.engIdle (s : State) (e : Nat) : Bool := s.engEnabled e && (s.eng e).st == .idle && !s.clk.foxRelock

/-- The state an engine without work takes: IDLE once enabled and loaded. -/
def State.restEng (s : State) (e : Nat) : State :=
  let g := s.eng e
  s.putEng e { g with run := none, disableDue := false, st := if g.st == .disabled || g.disableDue then .disabled else .idle }

/-- An engine becomes DISABLED: at once, or when the work it has ends. -/
def State.offEng (s : State) (e : Nat) : State :=
  let g := s.eng e
  if g.run.isNone then s.putEng e { g with st := .disabled } else s.setEng e { g with disableDue := true }

/-- SHA-384 digests held in registers. -/
def State.partDigest (s : State) : List (BitVec 8) := (List.range 12).flatMap fun k => leBytes 4 (s.fld (FOX_PART_DIGEST k))

/-- Every engine is disabled (R324): fault of class D in the Fox domain. -/
def State.disableAll (s : State) : State :=
  let t := s.each (List.range s.nEngines) State.offEng
  (({ t with fox := { t.fox with allDisabled := true } }).raiseRec .fwCopy 0 0)

/-- The retained copy passes its check, or is taken again from the slot of FW_SLOT (R324). -/
def State.checkRetained (s : State) : Bool × State :=
  if sha384 s.fox.retained == s.partDigest then (true, s)
  else
    let slot := s.fld GLB_START_STATUS_FW_SLOT
    if slot = 1 ∨ slot = 2 then
      let img := s.slotImage (slot - 1)
      let part := slice img (leAt img 24 4) (min (leAt img 28 4) 65536)
      if sha384 part == s.partDigest then (true, { s with fox := { s.fox with retained := part } }) else (false, s)
    else (false, s)

/-- Reload an engine's instruction store (R324); `equal` tells whether the store compares equal to the copy (R353). -/
def State.reloadEng (s : State) (e : Nat) (equal : Bool) : State :=
  match s.checkRetained with
  | (false, t) => t.disableAll
  | (true, t) =>
    let g := t.eng e
    if equal then t.putEng e { g with st := if s.clk.foxRelock || t.inReset 3 e then .reload else .idle, run := none, den := [], trapping := none }
    else ((t.putEng e { g with st := .disabled, run := none, trapping := none }).set (FOX_STATUS_TRAP_CAUSE e) 5).raiseRec .foxDisabled e 5

/-! ## Locations (R330) -/

structure Loc where
  addr : Nat
  eid : Nat
  kind : Nat
  deriving DecidableEq, Repr

def locAt (o : List (BitVec 8)) (i : Nat) : Loc := { addr := leAt o i 8, eid := leAt o (i + 8) 3, kind := byteAt o (i + 11) }

/-- A location of `n` bytes is well formed: its KIND allowed, its EID of the kind, its range inside its area; `plen` is the
payload's length, `svc` allows KIND 0, 4 and 7 alone (R336). -/
def locOk (o : List (BitVec 8)) (i n plen : Nat) (kinds : List Nat) (svc : Bool) : Bool :=
  let l := locAt o i
  kinds.contains l.kind && (!svc || l.kind == 0 || l.kind == 4 || l.kind == 7) && leAt o (i + 12) 4 == 0
  && match l.kind with
    | 0 => l.eid == 0 && decide (l.addr + n ≤ 2 ^ 40)
    | 1 => decide (l.eid < 2 ^ 18) && l.eid % 64 == 63 && decide (l.addr + n ≤ 2 ^ 40)
    | 2 => decide (l.eid < 2 ^ 18) && decide (l.eid % 64 < 32) && decide (l.addr + n ≤ 2 ^ 40)
    | 3 => l.eid == 0 && decide (l.addr + n ≤ 0x18000)
    | 4 => l.eid == 0 && decide (l.addr + n ≤ plen)
    | _ => true

/-! ## Operand checks (R328, R336 to R348, R365, R366) -/

def headSpread (o : List (BitVec 8)) : Nat := byteAt o 0
def headNoalloc (o : List (BitVec 8)) : Bool := bitAt (byteAt o 1) 0
def headCvu (o : List (BitVec 8)) : Bool := bitAt (byteAt o 1) 1
def headStop (o : List (BitVec 8)) : Bool := bitAt (byteAt o 1) 2
def headDtype (o : List (BitVec 8)) : Nat := byteAt o 2

/-- The stage head (R329): SPREAD only where allowed, CVU_ON in COPY, STOP in COMPARE and CHECK, DTYPE in REDUCE. -/
def headOk (op : Nat) (o : List (BitVec 8)) : Bool :=
  let spreadOk := if op = 1 ∨ op = 2 ∨ op = 5 then decide (headSpread o ≤ 5) else headSpread o == 0
  spreadOk && byteAt o 1 / 8 == 0 && (List.range 5).all (fun i => byteAt o (3 + i) == 0)
  && (!headCvu o || (op == 2 && headSpread o == 0)) && (!headStop o || op == 6 || op == 7)
  && (if op = 5 then decide (1 ≤ headDtype o) && decide (headDtype o ≤ 6) else headDtype o == 0)

/-- Bytes of a REDUCE element. -/
def dtSize (d : Nat) : Nat := if d = 1 ∨ d = 2 ∨ d = 5 then 4 else 8

def zeroAt (o : List (BitVec 8)) (i n : Nat) : Bool := (List.range n).all fun k => byteAt o (i + k) == 0

def noDen (o : List (BitVec 8)) (l : List Nat) : Bool := headSpread o == 0 || l.all fun i => (locAt o i).kind != 3

/-- Granules of the stack, for FIRST + COUNT (R366). -/
def operandOk (svc : Bool) (op ix grans : Nat) (o : List (BitVec 8)) (plen : Nat) : Bool :=
  let lim := fun v m => !svc || decide (v ≤ m)
  match op with
  | 0x01 =>
    decide (96 ≤ o.length) && headOk 1 o && locOk o 8 (leAt o 24 8) plen [0, 1, 2, 3] svc && leAt o 8 8 % 8 == 0 && leAt o 24 8 % 8 == 0
    && decide (8 ≤ leAt o 24 8) && lim (leAt o 24 8) (2 ^ 28) && noDen o [8]
  | 0x02 =>
    decide (64 ≤ o.length) && headOk 2 o && locOk o 8 (leAt o 40 8) plen [0, 1, 2, 3, 4] svc && locOk o 24 (leAt o 40 8) plen [0, 1, 2, 3] svc
    && leAt o 8 8 % 8 == 0 && leAt o 24 8 % 8 == 0 && leAt o 40 8 % 8 == 0 && lim (leAt o 40 8) (2 ^ 28) && noDen o [8, 24]
    && (!headCvu o || ctxOk (slice o 48 16) true)
  | 0x03 => gatherOk o svc 3
  | 0x04 => gatherOk o svc 4
  | 0x05 =>
    let np := byteAt o 9
    let sz := dtSize (headDtype o)
    decide (16 ≤ o.length) && headOk 5 o && decide (byteAt o 8 ≤ 5) && (decide (headDtype o ≤ 4) || decide (byteAt o 8 ≤ 2)) && decide (1 ≤ np) && decide (np ≤ 8)
    && zeroAt o 10 6 && decide (16 + 24 * np ≤ o.length)
    && (List.range np).all fun p =>
      let n := leAt o (16 + 24 * p + 16) 8
      decide (n ≤ 2 ^ 37 / sz) && locOk o (16 + 24 * p) (n * sz) plen [0, 1, 2, 3, 4] svc && leAt o (16 + 24 * p) 8 % sz == 0 && lim (n * sz) (2 ^ 28)
        && noDen o [16 + 24 * p]
  | 0x06 =>
    decide (48 ≤ o.length) && headOk 6 o && locOk o 8 (leAt o 24 8) plen [0, 1, 2, 3, 4] svc && decide (1 ≤ leAt o 24 8) && decide (leAt o 24 8 ≤ 2 ^ 40)
    && lim (leAt o 24 8) (2 ^ 28) && ctxOk (slice o 32 16) true && !(headStop o && ix == 0)
  | 0x07 =>
    decide (48 ≤ o.length) && headOk 7 o && locOk o 8 (leAt o 40 8) plen [0, 1, 2, 3, 4] svc && locOk o 24 (leAt o 40 8) plen [0, 1, 2, 3, 4] svc && lim (leAt o 40 8) (2 ^ 28)
  | 0x08 =>
    let mode := byteAt o 8
    let first := leAt o 16 8
    let count := leAt o 24 8
    let np := leAt o 32 3
    decide (64 ≤ o.length) && headOk 8 o && decide (mode ≤ 2) && (mode == 1) == svc && decide (1 ≤ byteAt o 9) && decide (byteAt o 9 ≤ 64) && decide (byteAt o 10 ≤ 3)
    && (byteAt o 11 == 0 || (mode == 2 && byteAt o 11 == 1)) && decide (1 ≤ count) && zeroAt o 35 5
    && (if mode = 0 then decide (np < 2 ^ 18) && np % 64 == 63 && decide (first + count ≤ grans) else np == 0)
    && leAt o 40 8 % 65536 == 0 && leAt o 48 8 % 65536 == 0 && leAt o 56 8 % 16 == 0
    && decide (leAt o 40 8 + count * 65536 ≤ 2 ^ 40) && decide (leAt o 48 8 + byteAt o 9 * 65536 ≤ 2 ^ 40) && decide (leAt o 56 8 + count * 16 ≤ 2 ^ 40)
    && (mode != 1 || (decide (88 ≤ o.length) && decide (byteAt o 72 < byteAt o 9) && zeroAt o 73 7 && decide (first ≤ leAt o 64 8) && decide (leAt o 64 8 < first + count)))
  | 0x09 =>
    let rows := leAt o 40 4
    let cols := leAt o 44 4
    let sp := leAt o 48 8
    let dp := leAt o 56 8
    let es := 2 ^ byteAt o 64
    decide (72 ≤ o.length) && headOk 9 o && decide (1 ≤ rows) && decide (rows ≤ 65536) && decide (1 ≤ cols) && decide (cols ≤ 65536) && decide (byteAt o 64 ≤ 3) && zeroAt o 65 7
    && sp % es == 0 && dp % es == 0 && decide (cols * es ≤ sp) && decide (rows * es ≤ dp) && leAt o 8 8 % es == 0 && leAt o 24 8 % es == 0
    && locOk o 8 ((rows - 1) * sp + cols * es) plen [0, 1, 2, 3] svc && locOk o 24 ((cols - 1) * dp + rows * es) plen [0, 1, 2, 3] svc && lim (rows * cols * es) (2 ^ 24)
  | 0x0A =>
    let n := leAt o 12 4
    let sub := byteAt o 8
    decide (64 ≤ o.length) && headOk 10 o && decide (sub < 32) && (atomNew (sub % 16) (atomWidth sub) 0 0 0).isSome && decide (byteAt o 9 ≤ 1) && zeroAt o 10 2
    && locOk o 16 0 plen [0, 1] svc && locOk o 32 (24 * n) plen [0, 1, 3, 4] svc && locOk o 48 (8 * n) plen [0, 1, 3, 7] svc && lim n 168
  | 0x0B =>
    let need := if (locAt o 16).kind = 7 then 0 else grans / 8
    decide (32 ≤ o.length) && !svc && headOk 11 o && decide (byteAt o 8 ≤ 1) && zeroAt o 9 3 && locOk o 16 need plen [0, 1, 2, 3, 7] false
    && ((locAt o 16).kind == 7 || leAt o 16 8 % 8 == 0)
  | 0x0C => decide (16 ≤ o.length) && !svc && headOk 12 o
  | 0x0D =>
    let l := locAt o 16
    decide (40 ≤ o.length) && !svc && headOk 13 o && decide (byteAt o 8 ≤ 1) && zeroAt o 9 7
    && (if byteAt o 8 = 0 then locOk o 16 8 plen [0, 1, 2] false && l.addr % 8 == 0 else locOk o 16 0 plen [1] false)
  | _ => false
where
  /-- GATHER and SCATTER (R341). -/
  gatherOk (o : List (BitVec 8)) (svc : Bool) (op : Nat) : Bool :=
    let n := leAt o 56 4
    let es := 2 ^ byteAt o 60
    let iw := if byteAt o 61 = 0 then 4 else 8
    decide (72 ≤ o.length) && headOk op o && decide (1 ≤ n) && decide (n ≤ 2 ^ 24) && (!svc || decide (n ≤ 2 ^ 20)) && decide (2 ≤ byteAt o 60) && decide (byteAt o 60 ≤ 6)
    && decide (byteAt o 61 ≤ 1) && zeroAt o 62 2 && leAt o 64 8 % es == 0 && leAt o (if op = 3 then 8 else 24) 8 % es == 0
    && locOk o 8 (if op = 3 then 0 else n * es) plen [0, 1, 2, 3] svc && locOk o 24 (if op = 3 then n * es else 0) plen [0, 1, 2, 3] svc
    && locOk o 40 (n * iw) plen [0, 1, 2, 3, 4] svc

/-! ## Accesses (R333, R334) -/

/-- Blocks that an access touches. -/
def accBlocks (a : Acc) : Nat := (a.addr % 64 + a.len + 63) / 64

/-- Response space of an access (R334). -/
def accSpace (a : Acc) : Nat :=
  if a.kind ≥ 3 then 0 else match a.op with
    | .rd => 64 * accBlocks a + 32
    | _ => 64

/-- The packet of an access. -/
def State.accPacket (s : State) (a : Acc) (label : BitVec 8) (noalloc : Bool) : Packet :=
  let fl := BitVec.ofNat 16 (b2n noalloc * 8 + b2n a.ordered * 4)
  let fl0 := BitVec.ofNat 16 (b2n a.ordered * 4)
  let blk := a.addr / 64 * 64
  match a.op with
  | .rd => { hdr := mkHdr opRD (BitVec.ofNat 8 (accBlocks a - 1)) 0 label 0 0 a.eid s.eid fl (BitVec.ofNat 64 blk), payload := [] }
  | .wr =>
    if a.addr % 64 = 0 ∧ a.len % 64 = 0 then { hdr := mkHdr opWR 0 0 label 0 a.len a.eid s.eid fl (BitVec.ofNat 64 blk), payload := a.data }
    else s.wrpPkt a.eid blk ((2 ^ a.len - 1) * 2 ^ (a.addr % 64)) (splice (zeros 64) (a.addr % 64) a.data) label fl
  | .atom sub => { hdr := mkHdr opATOM sub 0 label 0 16 a.eid s.eid fl0 (BitVec.ofNat 64 a.addr), payload := slice a.data 0 16 }
  | .svc sub => { hdr := mkHdr opSVC sub 0 label 0 a.data.length a.eid s.eid 0 0, payload := a.data }

/-- A channel refuses requests for the moment: PASR change or block reset (R88, R78). -/
def State.chanBusy (s : State) (c : Nat) : Bool := s.fld (CHAN_STATUS_STATE c) == 5 || s.fld (CHAN_STATUS_STATE c) == 6

/-- The checks of R197 from RANGE on, for `n` blocks at an address: the status and the state with its counter. -/
def State.localCheck (s : State) (addr n : Nat) : Option (BitVec 8 × State) :=
  if s.memTop < addr / 64 * 64 + 64 * n then some (stRANGE, s.inc GLB_CNT_VIOL_RANGE)
  else
    let ls := (List.range n).map fun i => addr / 64 + i
    match ls.find? fun l => s.chanBusy (s.placeOf l).1 with
    | some l => some (stSTATE, s.viol (CHAN_STATUS (s.placeOf l).1).off .state)
    | none => match ls.find? s.lineFenced with
      | some l => some (stFENCED, s.inc (CHAN_FENCED_REQ (s.placeOf l).1))
      | none => none

/-- An answer that needs no request. -/
def State.answerNow (s : State) (e id : Nat) (a : AccAns) : State :=
  let g := s.eng e
  match g.run with
  | none => s
  | some r => s.setEng e { g with run := some { r with answers := r.answers ++ [(id, a)] } }

/-- Write bytes into an engine's den. -/
def denWrite (den : List (Nat × BitVec 8)) (i : Nat) : List (BitVec 8) → List (Nat × BitVec 8)
  | [] => den
  | b :: t => denWrite (mput i b den) (i + 1) t

/-- Read a den: bytes never written are undefined (R317). -/
def State.denRead (s : State) (e i n : Nat) : List (BitVec 8) × State :=
  let den := (s.eng e).den
  if (List.range n).all fun k => (mget den (i + k)).isSome then ((List.range n).map fun k => mgetD den (i + k) 0, s)
  else
    let (f, t) := s.draw n
    ((List.range n).map fun k => mgetD den (i + k) (f.getD k 0), t)

/-- Is the access one to this stack's memory? -/
def State.accLocal (s : State) (a : Acc) : Bool := a.kind == 0 || (a.kind == 1 && a.eid == s.eid)

/-- Issue one access of an engine. -/
def State.issueAcc (s : State) (e id : Nat) (a : Acc) (j : Job) (noalloc : Bool) : State :=
  if a.kind = 3 then
    match a.op with
    | .rd =>
      match s.injCheck 2 e with
      | (some true, t) => t.answerNow e id { status := stPOISON }
      | (inj, t) =>
        let (d, u) := t.denRead e a.addr a.len
        (u.answerNow e id { status := stOK, data := d }).when (inj == some false) fun v => v.inc (FOX_DEN_CORR e)
    | _ => (s.setEng e { s.eng e with den := denWrite (s.eng e).den a.addr a.data }).answerNow e id { status := stOK }
  else if a.kind = 4 then s.answerNow e id { status := stOK, data := slice j.payload a.addr a.len }
  else
    let g := s.eng e
    let open_ := fun (t : State) => match g.run with
      | some r => t.setEng e { g with run := some { r with opened := r.opened ++ [(id, a)] } }
      | none => t
    let isSvc := match a.op with
      | .svc _ => true
      | _ => false
    if s.accLocal a && !isSvc then
      let n := match a.op with
        | .atom _ => 1
        | _ => accBlocks a
      match s.localCheck a.addr n with
      | some (st, t) => t.answerNow e id { status := st }
      | none => ((open_ s).accept (s.accPacket { a with eid := s.eid } j.label noalloc) n 0 (some (e, id))).serve
    else (open_ s).sendOwn (s.accPacket a j.label noalloc) (.stage e id) 0

/-- Response space that an engine, and all engines, hold. -/
def Run.held (r : Run) : Nat := (r.opened.map fun o => accSpace o.2).sum
def State.engHeld (s : State) : Nat := (s.fox.engines.map fun e => match e.2.run with
  | some r => r.held
  | none => 0).sum

/-- May the access's response space be reserved now (R334)? -/
def State.spaceFor (s : State) (e : Nat) (a : Acc) : Bool :=
  let pool := s.denBytes / 2
  let own := match (s.eng e).run with
    | some r => r.held
    | none => 0
  a.kind ≥ 3 || (decide (s.engHeld + s.respUsed + accSpace a ≤ pool) && (decide (own + accSpace a ≤ pool / 16) || own == 0))

/-- Issue the waiting accesses of an engine while space allows; the first that must wait is counted once. -/
def State.pump (s : State) (e : Nat) (j : Job) (noalloc : Bool) : Nat → State
  | 0 => s
  | f + 1 =>
    let g := s.eng e
    match g.run with
    | none => s
    | some r => match r.queue with
      | [] => s
      | (id, a) :: rest =>
        if s.spaceFor e a then
          ((s.setEng e { g with run := some { r with queue := rest, waits := false } }).issueAcc e id a j noalloc).pump e j noalloc f
        else if r.waits then s
        else (s.setEng e { g with run := some { r with waits := true } }).inc FOX_RESP_WAIT

/-! ## Planning accesses -/

def Loc.at_ (l : Loc) (off : Nat) : Loc := { l with addr := l.addr + off }

/-- Reads of `n` bytes at a location, cut at 4 KiB boundaries (fuel: pieces). -/
def readPieces (l : Loc) : Nat → Nat → List Acc
  | 0, _ => []
  | f + 1, n =>
    if n = 0 then []
    else
      let k := if l.kind ≥ 3 then n else min n (4096 - l.addr % 4096)
      { op := .rd, kind := l.kind, eid := BitVec.ofNat 18 l.eid, addr := l.addr, len := k } :: readPieces (l.at_ k) f (n - k)

def readAccs (l : Loc) (n : Nat) : List Acc := readPieces l (n / 4096 + 2) n

/-- Writes of bytes at a location: whole blocks as WR within 4 KiB, partial blocks as WRP (R333). -/
def writePieces (l : Loc) (ordered : Bool) : Nat → List (BitVec 8) → List Acc
  | 0, _ => []
  | f + 1, d =>
    if d.isEmpty then []
    else
      let n := d.length
      let k := if l.kind ≥ 3 then n
        else if l.addr % 64 ≠ 0 then min n (64 - l.addr % 64)
        else if n < 64 then n
        else min (n / 64 * 64) (4096 - l.addr % 4096)
      { op := .wr, kind := l.kind, eid := BitVec.ofNat 18 l.eid, addr := l.addr, len := k, data := d.take k, ordered := ordered }
        :: writePieces (l.at_ k) ordered f (d.drop k)

def writeAccs (l : Loc) (d : List (BitVec 8)) : List Acc := writePieces l false (d.length / 4096 + 4) d

/-! ## Jobs and rounds -/

def State.job (s : State) (id : Nat) : Option Job := s.fox.jobs.find? fun j => j.id == id
def State.setJob (s : State) (j : Job) : State := { s with fox := { s.fox with jobs := s.fox.jobs.map fun x => if x.id = j.id then j else x } }

/-- Opcode and operand of the stage a job is in. -/
def Job.op (j : Job) : Nat := ((j.ops.getD j.stage (0, 0)).1).toNat
def Job.operand (j : Job) : List (BitVec 8) :=
  let o := (j.ops.getD j.stage (0, 0)).2
  let e := match j.ops[j.stage + 1]? with
    | some x => x.2
    | none => j.payload.length
  (j.payload.take e).drop o

/-- All data a round's reads brought, in their order. -/
def Run.ans (r : Run) (i : Nat) : Option AccAns := mget (r.answers.mergeSort fun a b => decide (a.1 ≤ b.1)) (r.base + i)
def Run.data (r : Run) (i : Nat) : List (BitVec 8) := ((r.ans i).map (·.data)).getD []
def Run.allData (r : Run) (lo n : Nat) : List (BitVec 8) := (List.range n).flatMap fun k => r.data (lo + k)

/-- Put an engine's run back with accesses to issue. -/
def State.goOn (s : State) (e : Nat) (j : Job) (r : Run) (accs : List Acc) : State :=
  let q := (enum accs).map fun x => (r.nextAcc + x.1, x.2)
  let r1 := { r with answers := [], opened := [], queue := q, waits := false, base := r.nextAcc, nextAcc := r.nextAcc + accs.length }
  (s.setEng e { s.eng e with run := some r1 }).pump e j (headNoalloc j.operand) accs.length

/-- The stage failed: the first failure is kept. -/
def Job.failWith (j : Job) (code status : BitVec 8) (remote : Bool) : Job :=
  match j.fail with
  | some _ => j
  | none => { j with fail := some (code, status, remote) }

/-- The status a stage takes from an answer that is not OK (R349, R337). -/
def failOf (a : AccAns) : BitVec 8 × BitVec 8 :=
  if a.status = 0x0E then (0x0E, 0x0E)
  else if a.status = stSTATE ∧ a.detail.toNat % 256 = 0x0D then (0x0D, 0x0D)
  else (a.status, a.status)

/-- An engine's part of a stage ends: its confirmed units join the job's; a helper returns. -/
def State.endPart (s : State) (e : Nat) (j : Job) (r : Run) : State :=
  let j1 := { j with confirmed := j.confirmed ++ [(r.lo, r.pos)] }
  if j.engines.head? = some e then (s.setJob j1).setEng e { s.eng e with run := some { r with finished := true, answers := [], queue := [] } }
  else (s.setJob j1).restEng e

/-- The first answer of a round that is not OK. -/
def Run.bad (r : Run) : Option AccAns := (r.answers.find? fun a => a.2.status != stOK).map (·.2)

/-- Bytes of the leading accesses of a plan that were answered OK. -/
def Run.okBytes (r : Run) : Nat → List Acc → Nat
  | _, [] => 0
  | i, a :: t => if (r.ans i).map (·.status) = some stOK then a.len + r.okBytes (i + 1) t else 0

/-- One round of engine `e`'s stage: nothing while accesses are outstanding; once one has failed no more are issued (R349);
when every one is answered `k` goes on. -/
def State.stageRound (s : State) (e op : Nat) (k : Job → Run → State) : State :=
  let g := s.eng e
  match g.run with
  | none => s
  | some r => match s.job r.job with
    | none => s
    | some j =>
      let failing := r.bad.isSome || j.fail.isSome
      if j.op ≠ op || r.finished || g.trapping.isSome || s.clk.foxRelock then s
      else if !r.queue.isEmpty && !failing then s.pump e j (headNoalloc j.operand) r.queue.length
      else if !r.opened.isEmpty then s
      else k j { r with queue := [] }

/-- A round in which nothing may fail half way: a failed answer, or a stage that another engine has failed, ends the part
with `conf` more units confirmed; else `k`. -/
def State.round (s : State) (e op : Nat) (conf : Job → Run → Nat) (k : Job → Run → State) : State :=
  s.stageRound e op fun j r => match r.bad with
    | some a => let (c, st) := failOf a; s.endPart e (j.failWith c st a.remote) { r with pos := r.pos + conf j r }
    | none => if j.fail.isSome then s.endPart e j { r with pos := r.pos + conf j r } else k j r

/-- Progress from the parts confirmed: the lowest unit not confirmed (fuel: parts). -/
def progressOf (parts : List (Nat × Nat)) : Nat → Nat → Nat
  | 0, p => p
  | f + 1, p => match parts.find? fun x => decide (x.1 ≤ p) && decide (p < x.2) with
    | some x => progressOf parts f x.2
    | none => p

/-! ## Spread stages (R331) -/

/-- Byte ranges of FILL and COPY: 1 MiB chunks aligned to the destination. -/
def chunkEnd (dst len off spread : Nat) : Nat := if spread = 0 then len else min len (((dst + off) / 2 ^ 20 + 1) * 2 ^ 20 - dst)

/-- Units of a spread stage to hand out: bytes of FILL and COPY, pieces of REDUCE. -/
def spreadTotal (op : Nat) (o : List (BitVec 8)) : Nat :=
  if op = 1 then leAt o 24 8 else if op = 2 then leAt o 40 8 else if op = 5 then byteAt o 9 * 2 ^ headSpread o else 0

/-- The next part of a spread stage: its bounds. -/
def nextPart (op : Nat) (o : List (BitVec 8)) (at_ : Nat) : Nat × Nat :=
  if op = 1 then (at_, chunkEnd (leAt o 8 8) (leAt o 24 8) at_ (headSpread o))
  else if op = 2 then (at_, chunkEnd (leAt o 24 8) (leAt o 40 8) at_ (headSpread o))
  else (at_, at_ + 1)

/-- Engine `e` takes the next part of a job's stage, if one is left. -/
def State.takePart (s : State) (e : Nat) (j : Job) (r : Run) : State :=
  let o := j.operand
  if spreadTotal j.op o ≤ j.nextChunk then s.endPart e j { r with lo := r.pos }
  else
    let (lo, hi) := nextPart j.op o j.nextChunk
    (s.setJob { j with nextChunk := hi }).setEng e { s.eng e with run := some { r with lo := lo, hi := hi, pos := lo, round := 0, answers := [], words := [], bytes := [] } }

/-- A part is done: confirmed, and the next one taken by the descriptor's own engine. -/
def State.partDone (s : State) (e : Nat) (j : Job) (r : Run) : State :=
  let j1 := { j with confirmed := j.confirmed ++ [(r.lo, r.hi)] }
  if j.engines.head? = some e then s.takePart e j1 r else (s.setJob j1).restEng e

/-! ## Starting and ending stages -/

/-- Does the stage need a check-value unit (R332)? -/
def needsCvu (op : Nat) (o : List (BitVec 8)) : Bool := op == 6 || (op == 2 && headCvu o)

/-- Units of a stage that is not spread: what `pos` counts. -/
def stageUnits (op : Nat) (o : List (BitVec 8)) : Nat :=
  match op with
  | 2 => leAt o 40 8
  | 3 => leAt o 56 4
  | 4 => leAt o 56 4
  | 6 => leAt o 24 8
  | 7 => leAt o 40 8
  | 8 => leAt o 24 8
  | 9 => leAt o 40 4 * ((leAt o 44 4 + 63) / 64)
  | 10 => leAt o 12 4
  | _ => 0

/-- Begin the stage a job is in on engine `e`. -/
def State.beginStage (s : State) (e : Nat) (j : Job) : State :=
  let o := j.operand
  let whole := j.op == 2 && headCvu o
  let j1 : Job := { j with nextChunk := if whole then leAt o 40 8 else 0, confirmed := [], engines := [e], parts := [], part := 0, stopDiff := false, fail := none, cvu := none, trapProg := none }
  let r : Run := { job := j.id, lo := 0, hi := stageUnits j.op o, pos := 0 }
  let s1 := (s.setJob j1).setEng e { s.eng e with run := some r }
  if (j.op == 1 || j.op == 2 || j.op == 5) && !whole then s1.takePart e j1 r else s1

/-- The completion DETAIL of a job (R349). -/
def Job.detail (j : Job) : Nat :=
  (match j.fail with
    | some (_, st, remote) => st.toNat + b2n remote * 256
    | none => 0) + j.engines.length % 64 * 2 ^ 16 + b2n j.stopDiff * 2 ^ 31

/-- A job ends: its ring's completion (R306, R350) or the SVC_RSP (R337); its engine is free. -/
def State.endJob (s : State) (e : Nat) (j : Job) (status : BitVec 8) (stage detail : Nat) (result : List (BitVec 8)) : State :=
  let s1 := { s with fox := { s.fox with jobs := s.fox.jobs.filter fun x => x.id != j.id } }
  let s2 := match j.cvu with
    | some u => s1.releaseCvu u
    | none => s1
  let s3 := match j.ring with
    | some n =>
      let t := (s2.finishDesc n j.id status stage detail result).incPair (FOX_DESC_LO e) 1
      let t := if status = stMALFORMED ∧ (j.fail.map fun (f : BitVec 8 × BitVec 8 × Bool) => f.2.2) ≠ some true then t.inc (RING_CNT_VIOL_DESC n) else t
      if status = stPOISON then t.haltRing n 1 stPOISON else t
    | none => match j.svc with
      | some p =>
        let trapped := status == 0x0D
        let st := if trapped then stSTATE else status
        let det := if trapped then detail / 256 * 256 + 0x0D else detail
        let t := (s2.inc (FOX_SVC_DONE e)).when (status == stMALFORMED) fun t => t.inc GLB_CNT_VIOL_MALFORMED
        t.emitRsp (mkRsp s.eid p.hdr st 0 (slice result 0 16 ++ leBytes 4 det ++ zeros 12))
      | none => s2
  (s3.restEng e).activity

/-- The RESULT of the stage that ends. -/
def Job.result (j : Job) : List (BitVec 8) := leBytes 8 j.prog ++ leBytes 8 j.value.toNat

/-- End of a stage whose parts are all done: failure, STOP, the last stage, a ring in reset, or the next stage (R327, R299). -/
def State.advance (s : State) (e : Nat) (j : Job) : State :=
  let s0 := match j.cvu with
    | some u => s.releaseCvu u
    | none => s
  let j0 := { j with cvu := none }
  match j.fail with
  | some (c, _, _) => s0.endJob e j0 c j.stage j.detail j.result
  | none =>
    if (j.stopDiff && j.op != 8) || decide (j.ops.length ≤ j.stage + 1) then s0.endJob e j0 stOK j.stage j.detail j.result
    else match j.ring with
      | some n =>
        if s.ringSt n = 3 then s0.endJob e j0 0x0C (j.stage + 1) 0 j.result
        else s0.beginStage e { j0 with stage := j.stage + 1 }
      | none => s0.beginStage e { j0 with stage := j.stage + 1 }

/-- Engines that serve a job. -/
def State.enginesOf (s : State) (id : Nat) : List Nat := (s.fox.engines.filter fun g => (g.2.run.map (·.job)) == some id).map (·.1)

/-! ## Progress (Table 15.5) -/

/-- Column groups of a row of TRANSPOSE: 64 columns each. -/
def trGroups (o : List (BitVec 8)) : Nat := (leAt o 44 4 + 63) / 64

/-- First element and elements of subrange `s` of part `p` (R331, R342). -/
def redSub (o : List (BitVec 8)) (p s : Nat) : Nat × Nat :=
  let n := leAt o (32 + 24 * p) 8
  let z := (n + 2 ^ headSpread o - 1) / 2 ^ headSpread o
  (min n (s * z), min n ((s + 1) * z) - min n (s * z))

/-- Elements in the parts before part `p`. -/
def redBefore (o : List (BitVec 8)) (p : Nat) : Nat := ((List.range p).map fun q => leAt o (32 + 24 * q) 8).sum

/-- Element numbers, over all parts, that a piece covers; a delegated part is one piece. -/
def redSpan (o : List (BitVec 8)) (deleg : Bool) (piece : Nat) : Nat × Nat :=
  let p := piece / 2 ^ headSpread o
  let s := piece % 2 ^ headSpread o
  let b := redBefore o p
  if deleg then (if s = 0 then (b, b + leAt o (32 + 24 * p) 8) else (b, b))
  else let (f, n) := redSub o p s; (b + f, b + f + n)

/-- Is a location another stack's, so that REDUCE and CHECK delegate (R330, R335)? -/
def State.delegated (s : State) (l : Loc) : Bool := l.kind == 1 && BitVec.ofNat 18 l.eid != s.eid

/-- Units confirmed of the part an engine has in hand. -/
def State.partSpan (s : State) (j : Job) (r : Run) : Nat × Nat :=
  if j.op = 5 then
    let o := j.operand
    let deleg := s.delegated (locAt o (16 + 24 * (r.lo / 2 ^ headSpread o)))
    let a := (redSpan o deleg r.lo).1
    (a, if deleg then a else a + (r.round - 1))
  else (r.lo, r.pos)

/-- Progress of the stage a job is in, one part in hand counted in. -/
def State.progressWith (_s : State) (j : Job) (r : Run) (part : Nat × Nat) : Nat :=
  let parts := j.confirmed ++ [part]
  match j.op with
  | 1 => progressOf parts (parts.length + 1) 0
  | 2 => progressOf parts (parts.length + 1) 0
  | 5 => progressOf parts (parts.length + 1) 0
  | 9 => r.pos / trGroups j.operand
  | 12 => 0
  | 13 => 0
  | _ => r.pos

def State.stageProgress (s : State) (j : Job) (r : Run) : Nat := s.progressWith j r (s.partSpan j r)

/-! ## Traps (R352, R353) -/

def trapCode : TrapCause → Nat
  | .fetch => 1
  | .pll => 2
  | .blockReset => 3
  | .watchdog => 4

/-- Progress of a job's stage as it stands, every part in hand counted in. -/
def State.progressNow (s : State) (j : Job) (r : Run) : Nat :=
  let parts := s.fox.engines.filterMap fun g => match g.2.run with
    | some x => if x.job = j.id then some (s.partSpan j x) else none
    | none => none
  s.progressWith { j with confirmed := j.confirmed ++ parts } r (s.partSpan j r)

/-- Are requests of an engine outstanding, or, on a descriptor's own engine, those of its helpers (R306, R352)? -/
def State.trapWaits (s : State) (e : Nat) : Bool :=
  match (s.eng e).run with
  | none => false
  | some r =>
    let own := ((s.job r.job).bind fun j => j.engines.head?) == some e
    s.fox.engines.any fun g => (g.1 == e || own) && match g.2.run with
      | some x => x.job == r.job && !x.opened.isEmpty
      | none => false

/-- A helper comes back from a stage that has ended. -/
def State.freeHelper (s : State) (e : Nat) : State :=
  let g := s.eng e
  if g.trapping.isSome then s.setEng e { g with run := none } else s.restEng e

/-- A trap whose outstanding requests are over ends: the work ends TRAPPED and the engine reloads. -/
def State.endTrap (s : State) (e cause : Nat) (equal : Bool) : State :=
  let g := s.eng e
  let s1 := match g.run with
    | none => s
    | some r => match s.job r.job with
      | none => s
      | some j =>
        if j.engines.head? = some e then
          -- helpers of the job return with nothing more to do
          let t := s.each ((s.enginesOf j.id).filter (· != e)) State.freeHelper
          t.endJob e j 0x0D j.stage j.detail (leBytes 8 (j.trapProg.getD 0) ++ zeros 8)
        else s.setJob { j with confirmed := j.confirmed ++ [s.partSpan j r] }
  -- R353: a second fetch or watchdog trap within 1 s disables the engine
  let again := (cause == 1 || cause == 4) && (match g.trapAt with
    | some t => decide (s.now < t + 1000000)
    | none => false)
  let mark := fun (t : State) => if cause = 1 ∨ cause = 4 then t.setEng e { t.eng e with trapAt := some s.now } else t
  if again then (mark (s1.putEng e { s1.eng e with st := .disabled, run := none, trapping := none, den := [] })).raiseRec .foxDisabled e cause g.trapInj
  else
    let s2 := if cause = 1 ∨ cause = 4 then s1.raiseRec .foxTrap e cause g.trapInj else s1
    mark (s2.reloadEng e equal)

/-- An engine traps: it issues nothing more, its stage fails with the progress it then has, and its work ends once nothing is
outstanding. -/
def State.trapEng (s : State) (e cause : Nat) (inj : Bool := false) : State :=
  let g := s.eng e
  if decide (s.nEngines ≤ e) || g.st == .off || g.st == .disabled || g.trapping.isSome then s
  else
    let g := { g with trapInj := inj }
    let s1 := ((s.setEng e g).inc (FOX_TRAPS e)).set (FOX_STATUS_TRAP_CAUSE e) cause
    match g.run with
    | none => s1.endTrap e cause true
    | some r =>
      let s2 := s1.putEng e { g with st := .reload, trapping := some cause, run := some { r with queue := [] } }
      let s3 := match s.job r.job with
        | some j => if j.engines.head? = some e || j.fail.isNone then
            s2.setJob { j with fail := some (0x0D, 0x0D, false), trapProg := some (j.trapProg.getD (s.progressNow j r)) } else s2
        | none => s2
      if s3.trapWaits e then s3 else s3.endTrap e cause true

/-- An instruction fetch of an engine that works: an armed injection corrects it, or traps the engine (R351, R352, R415). -/
def State.fetchInstr (s : State) (e : Nat) (f : State → State) : State :=
  let g := s.eng e
  if g.run.isNone || g.trapping.isSome || s.clk.foxRelock then f s
  else match s.injCheck 3 e with
    | (some true, t) => t.trapEng e 1 true
    | (some false, t) => f (t.inc (FOX_FETCH_CORR e))
    | (none, t) => f t

/-! ## Dispatch (R325, R326, R331) -/

/-- Running descriptors of a ring. -/
def State.ringRuns (s : State) (n : Nat) : Nat := ((s.ring n).descs.filter fun d => d.st == .running).length

/-- Class of a descriptor's LABEL in the active map. -/
def State.descClass (s : State) (d : Desc) : Nat := (s.classify (descLabel d.hdr).toNat).1

/-- May a descriptor of a ring start, by the order its ring asks for (R305)? -/
def Ring.mayStart (r : Ring) (d : Desc) : Bool := d.st == .ready && (!descAfter d.hdr || (r.descs.head?.map (·.job)) == some d.job)

/-- The descriptor of a ring that may start first (R305, R310): of the highest class among those that may, the earliest fetched. -/
def State.readyDesc (s : State) (n : Nat) : Option Desc :=
  let r := s.ring n
  if s.ringSt n ≠ 1 || !s.working || s.fld (FOX_RING_MAP_MAX_RUN n) ≤ s.ringRuns n then none
  else (r.descs.filter r.mayStart).foldl (fun b d => match b with
    | none => some d
    | some x => if s.descClass d < s.descClass x then some d else some x) none

/-- Is engine `e` eligible for ring `n`? -/
def State.eligible (s : State) (e n : Nat) : Bool := s.engIdle e && !s.svcReserved e && bitAt (s.fld (FOX_RING_MAP_EARTHS n)) (e / 8)

/-- The ring whose descriptor engine `e` takes: highest class, then round-robin from the ring served last. -/
def State.pickRing (s : State) (e : Nat) : Option (Nat × Desc) :=
  let order := (List.range 63).map fun i => (s.fox.lastRing + i) % 63 + 1
  let c := order.filterMap fun n => if s.eligible e n then (s.readyDesc n).map fun d => (n, d) else none
  c.foldl (fun (b : Option (Nat × Desc)) x => match b with
    | none => some x
    | some y => if s.descClass x.2 < s.descClass y.2 then some x else some y) none

/-- Start a descriptor of a ring on an engine: every stage operand is checked first (R328). -/
def State.startDesc (s : State) (e n : Nat) (d : Desc) : State :=
  let r := s.ring n
  let s1 := (s.putRing n { r with descs := r.descs.map fun (x : Desc) => if x.job = d.job then { x with st := .running } else x }).activity
  let s2 := { s1 with fox := { s1.fox with lastRing := n } }
  let k := descStages d.hdr
  let ops := (List.range k).map fun i => (BitVec.ofNat 8 (descOp d.hdr i), descOff d.hdr i)
  match (List.range k).find? fun i => !operandOk false (descOp d.hdr i) i (s.fld CVU_CKP_GRANULES) (descOperand d.hdr d.payload i) d.payload.length with
  | some i => ((s2.finishDesc n d.job stMALFORMED i 0 []).inc (RING_CNT_VIOL_DESC n)).incPair (FOX_DESC_LO e) 1
  | none =>
    let j : Job := { id := d.job, ring := some n, label := descLabel d.hdr, ops := ops, payload := d.payload }
    let s3 := { s2 with fox := { s2.fox with jobs := s2.fox.jobs ++ [j] } }
    ((s3.putEng e { s3.eng e with st := .run, den := [] }).set (FOX_STATUS_RING e) n).beginStage e j

/-- Engine `e` takes a descriptor, unless a lower-numbered idle engine would. -/
def State.dispatch (s : State) (e : Nat) : State :=
  match s.pickRing e with
  | none => s
  | some (n, d) =>
    if (List.range e).any fun f => s.eligible f n then s else s.startDesc e n d

/-- Engine `e` starts the oldest accepted SVC if it may (R326). -/
def State.startSvc (s : State) (e : Nat) : State :=
  match s.fox.svcQueue with
  | [] => s
  | p :: rest =>
    let resIdle := (List.range s.nEngines).any fun f => s.engIdle f && s.svcReserved f
    let may := s.engIdle e && !s.start.grave && !s.start.forcing && (s.svcReserved e || (!resIdle && (s.pickRing e).isNone))
    let num := s.fox.svcNums.headD 0
    if !may || !s.svcMay num p then s
    else
      let j : Job := { id := s.fox.nextJob, ring := none, svc := some p, num := num, label := p.hdr.label, ops := [(p.hdr.subop, 0)], payload := p.payload }
      let s1 := ({ s with fox := { s.fox with svcQueue := rest, svcNums := s.fox.svcNums.drop 1, nextJob := s.fox.nextJob + 1, jobs := s.fox.jobs ++ [j] } }).activity
      (s1.putEng e { s1.eng e with st := .svc, den := [] }).beginStage e j

/-- An idle engine helps the oldest running spread stage (R325, R331). -/
def State.help (s : State) (e : Nat) : State :=
  if !s.engIdle e || s.svcReserved e || (s.pickRing e).isSome || !s.working then s
  else
    let open_ := s.fox.jobs.find? fun j =>
      (j.op == 1 || j.op == 2 || j.op == 5) && decide (0 < headSpread j.operand) && j.fail.isNone
      && decide (j.nextChunk < spreadTotal j.op j.operand) && decide ((s.enginesOf j.id).length < 2 ^ headSpread j.operand)
      && (match j.ring with
        | some n => bitAt (s.fld (FOX_RING_MAP_EARTHS n)) (e / 8)
        | none => true)
    match open_ with
    | none => s
    | some j =>
      let j1 := { j with engines := if j.engines.contains e then j.engines else j.engines ++ [e] }
      let r : Run := { job := j.id, lo := 0, hi := 0, pos := 0 }
      let t := (s.putEng e { s.eng e with st := .help, den := [] }).set (FOX_STATUS_RING e) (j.ring.getD 0)
      t.takePart e j1 r

end Sys2Proof.Machine
end

