-- ==== Sys2Proof/Machine/Stages.lean ====
section
/-! DEFINITION. The stages of a descriptor (R338 to R348, R363 to R372), one round function each: what an engine does when
every access of its last round is answered. -/

namespace Sys2Proof.Machine

set_option Elab.async false

/-! ## Access windows (R202) -/

/-- PERM bits of a window as asked for: 1 R, 2 W, 4 A, 8 REG. -/
def permR : Nat := 1
def permW : Nat := 2
def permA : Nat := 4
def permREG : Nat := 8

/-- Window `w` is in force for a source and grants all of `need`. -/
def State.windowFor (s : State) (w : Nat) (src : BitVec 18) (need : Nat) : Bool :=
  let m := s.fld (RT_ACW_PERM_MASK w)
  s.on (RT_ACW_BASE_VALID w) && (src.toNat &&& m) == (s.fld (RT_ACW_SRC_EID w) &&& m) && (bitsOf (s.reg (RT_ACW_PERM w).off) 27 24 &&& need) == need

/-- Does one window grant `need` over `n` bytes from `lo`? -/
def State.windowOk (s : State) (src : BitVec 18) (need lo n : Nat) : Bool :=
  !s.on RT_ACW_CTL_ENFORCE || (List.range 16).any fun w => s.windowFor w src need && decide (s.fld (RT_ACW_BASE_BASE w) * 65536 ≤ lo)
    && decide (lo + n ≤ (s.fld (RT_ACW_LIMIT_LIMIT w) + 1) * 65536)

/-- An element or entry of an SVC is tested as it is accessed. -/
def State.svcWindow (s : State) (j : Job) (need lo n : Nat) : Bool :=
  match j.svc with
  | some p => s.windowOk p.hdr.src need lo n
  | none => true

/-- A stage ends for a reason of its own: no answer failed. -/
def State.stageFails (s : State) (e : Nat) (j : Job) (r : Run) (st : BitVec 8) : State := s.endPart e (j.failWith st st false) r

/-- The stage's work is done. -/
def State.stageDone (s : State) (e : Nat) (j : Job) (r : Run) : State := s.endPart e j { r with pos := r.hi }

/-- Bytes until the next 4 KiB boundary of an address, at most what is left. -/
def pieceLen (addr left : Nat) : Nat := min left (4096 - addr % 4096)

/-- One access of a location. -/
def rdAcc (l : Loc) (n : Nat) : Acc := { op := .rd, kind := l.kind, eid := BitVec.ofNat 18 l.eid, addr := l.addr, len := n }

/-! ## FILL (R338) -/

def fillBytes (o : List (BitVec 8)) (a n : Nat) : List (BitVec 8) := (List.range n).map fun i => o.getD (32 + (a + i) % 64) 0

def fillPlan (o : List (BitVec 8)) (r : Run) : List Acc :=
  let l := (locAt o 8).at_ r.pos
  writeAccs l (fillBytes o l.addr (pieceLen l.addr (r.hi - r.pos)))

def State.fillRound (s : State) (e : Nat) : State :=
  s.round e 1 (fun j r => if r.round = 0 then 0 else r.okBytes 0 (fillPlan j.operand r)) fun j r =>
    let r1 := if r.round = 0 then r else { r with pos := r.pos + pieceLen ((locAt j.operand 8).addr + r.pos) (r.hi - r.pos), round := 0 }
    if r1.hi ≤ r1.pos then s.partDone e j r1 else s.goOn e j { r1 with round := 1 } (fillPlan j.operand r1)

/-! ## A stage's check-value unit (R332) -/

/-- Take a unit for a job and load it; `none` while every unit is held. -/
def State.takeCvu (s : State) (e : Nat) (j : Job) (poly reg : Nat) : Option (Job × State) :=
  match s.freeCvu with
  | none => none
  | some u =>
    let j1 := { j with cvu := some u }
    some (j1, (s.setCvu u { held := true, engine := e, poly := poly, reg := BitVec.ofNat 64 reg }).setJob j1)

def State.feedJob (s : State) (j : Job) (l : List (BitVec 8)) : State :=
  match j.cvu with
  | some u => s.feedCvu u l
  | none => s

/-- Value of a job's unit, 0 where it holds none. -/
def State.jobCvu (s : State) (j : Job) : Nat :=
  match j.cvu with
  | some u => s.cvuVal u
  | none => 0

/-! ## COPY (R340) -/

def copyLen (o : List (BitVec 8)) (r : Run) : Nat := pieceLen ((locAt o 24).addr + r.pos) (r.hi - r.pos)

/-- Do the source and the destination of a COPY overlap? KIND 1 may name this stack. -/
def State.copyOverlap (s : State) (o : List (BitVec 8)) : Bool :=
  let a := locAt o 8
  let b := locAt o 24
  let n := leAt o 40 8
  let home := fun (l : Loc) => if l.kind = 1 ∧ BitVec.ofNat 18 l.eid = s.eid then (0, 0) else (l.kind, l.eid)
  home a == home b && decide (a.addr < b.addr + n) && decide (b.addr < a.addr + n)

def copyReads (o : List (BitVec 8)) (r : Run) : List Acc := readAccs ((locAt o 8).at_ r.pos) (copyLen o r)
def copyWrites (o : List (BitVec 8)) (r : Run) : List Acc := writeAccs ((locAt o 24).at_ r.pos) r.bytes

def State.copyRound (s : State) (e : Nat) : State :=
  s.round e 2 (fun j r => if r.round = 2 then r.okBytes 0 (copyWrites j.operand r) else 0) fun j r =>
    let o := j.operand
    if headCvu o && j.cvu.isNone && r.round = 0 then
      match s.takeCvu e j (byteAt o 56) (cvuLoad (slice o 48 16) (locAt o 8).addr) with
      | none => s
      | some (j1, t) => if r.hi ≤ r.pos then t.partDone e j1 r else t.goOn e j1 { r with round := 1 } (copyReads o r)
    else if r.round = 1 then
      -- the result of a copy onto itself is undefined: free bytes
      let (d, t) := if s.copyOverlap o then s.draw (copyLen o r) else ((r.allData 0 (copyReads o r).length).take (copyLen o r), s)
      let r1 := { r with bytes := d, round := 2 }
      (t.feedJob j d).goOn e j r1 (copyWrites o r1)
    else
      let r1 := if r.round = 2 then { r with pos := r.pos + copyLen o r, round := 0, bytes := [] } else r
      if r1.hi ≤ r1.pos then s.partDone e j r1 else s.goOn e j { r1 with round := 1 } (copyReads o r1)

/-! ## GATHER and SCATTER (R341) -/

/-- Elements in the group in hand: at most 64. -/
def groupLen (r : Run) : Nat := min 64 (r.hi - r.pos)
def idxWidth (o : List (BitVec 8)) : Nat := if byteAt o 61 = 0 then 4 else 8
def elemSize (o : List (BitVec 8)) : Nat := 2 ^ byteAt o 60
def idxReads (o : List (BitVec 8)) (r : Run) : List Acc := readAccs ((locAt o 40).at_ (r.pos * idxWidth o)) (groupLen r * idxWidth o)

/-- The indexed location of element `i` of the group, its indices in `r.bytes`; addresses wrap at 2^64. -/
def indexed (o : List (BitVec 8)) (at_ : Nat) (r : Run) (i : Nat) : Loc :=
  let l := locAt o at_
  { l with addr := (l.addr + leAt r.bytes (i * idxWidth o) (idxWidth o) * leAt o 64 8) % 2 ^ 64 }

/-- Blocks of the group's elements, each once, in list order. -/
def groupBlocks (o : List (BitVec 8)) (r : Run) (n : Nat) : List Nat :=
  (List.range n).foldl (fun l i => let b := (indexed o 8 r i).addr / 64; if l.contains b then l else l ++ [b]) []

/-- Reads of the group's elements: one of each block, or of each element in the den. -/
def gatherReads (o : List (BitVec 8)) (r : Run) (n : Nat) : List Acc :=
  let l := locAt o 8
  if l.kind = 3 then (List.range n).map fun i => rdAcc (indexed o 8 r i) (elemSize o)
  else (groupBlocks o r n).map fun b => rdAcc { l with addr := b * 64 } 64

/-- Is the address range of an element one the location's kind has? -/
def elemInside (l : Loc) (n : Nat) : Bool := if l.kind = 3 then decide (l.addr + n ≤ 0x18000) else decide (l.addr + n ≤ 2 ^ 40)

/-- Elements of the group before the first that lies outside, or that no window covers, and the status it ends with. -/
def State.groupGood (s : State) (j : Job) (at_ need : Nat) (r : Run) : Nat × Option (BitVec 8) :=
  let o := j.operand
  (List.range (groupLen r)).foldl (fun (a : Nat × Option (BitVec 8)) i =>
    match a.2 with
    | some _ => a
    | none =>
      let l := indexed o at_ r i
      if !s.svcWindow j need l.addr (elemSize o) then (a.1, some stACCESS)
      else if !elemInside l (elemSize o) then (a.1, some stRANGE)
      else (a.1 + 1, none)) (0, none)

/-- Count what ended a group early: a window denial or an address outside. -/
def State.countEarly (s : State) (st : BitVec 8) : State := if st = stACCESS then s.inc RT_CNT_VIOL_WINDOW else s.inc GLB_CNT_VIOL_RANGE

/-- Element `i` of a group from the reads of its blocks. -/
def gatherElem (o : List (BitVec 8)) (r : Run) (n i : Nat) : List (BitVec 8) :=
  if (locAt o 8).kind = 3 then r.data i
  else
    let a := (indexed o 8 r i).addr
    match (groupBlocks o r n).findIdx? (· == a / 64) with
    | some k => slice (r.data k) (a % 64) (elemSize o)
    | none => []

/-- Leading elements of the group whose reads were answered OK. -/
def gatherOkCount (o : List (BitVec 8)) (r : Run) (n : Nat) : Nat :=
  ((List.range n).takeWhile fun i =>
    let k := if (locAt o 8).kind = 3 then some i else (groupBlocks o r n).findIdx? (· == (indexed o 8 r i).addr / 64)
    match k with
    | some k => (r.ans k).map (·.status) == some stOK
    | none => false).length

def gatherWrites (o : List (BitVec 8)) (r : Run) : List Acc := writeAccs ((locAt o 24).at_ (r.pos * elemSize o)) r.bytes

/-- GATHER: indices; elements; the elements that came are written, then the stage goes on or ends. -/
def State.gatherRound (s : State) (e : Nat) : State :=
  s.stageRound e 3 fun j r =>
    let o := j.operand
    match r.round with
    | 0 => if j.fail.isSome || decide (r.hi ≤ r.pos) then s.endPart e j r else s.goOn e j { r with round := 1, words := [] } (idxReads o r)
    | 1 => match r.bad with
      | some a => let (c, st) := failOf a; s.endPart e (j.failWith c st a.remote) r
      | none =>
        let r1 := { r with bytes := r.allData 0 (idxReads o r).length }
        let (n, st) := s.groupGood j 8 permR r1
        let (j1, t) := match st with
          | some c => let j1 := j.failWith c c false; (j1, (s.countEarly c).setJob j1)
          | none => (j, s)
        t.goOn e j1 { r1 with round := 2, words := [some (BitVec.ofNat 64 n)] } (gatherReads o r1 n)
    | 2 =>
      let n := (((r.words.headD none).getD 0)).toNat
      let k := gatherOkCount o r n
      let j1 := match r.bad with
        | some a => let (c, st) := failOf a; { j with fail := some (c, st, a.remote) }
        | none => j
      let r1 := { r with round := 3, bytes := (List.range k).flatMap (gatherElem o r n) }
      (s.setJob j1).goOn e j1 r1 (gatherWrites o r1)
    | _ =>
      let m := r.okBytes 0 (gatherWrites o r) / elemSize o
      let r1 := { r with pos := r.pos + m, round := 0 }
      match r.bad with
      | some a => let (c, st) := failOf a; s.endPart e (j.failWith c st a.remote) r1
      | none => if j.fail.isSome then s.endPart e j r1 else s.setEng e { s.eng e with run := some { r1 with answers := [] } }

def scatterReads (o : List (BitVec 8)) (r : Run) : List Acc := readAccs ((locAt o 8).at_ (r.pos * elemSize o)) (groupLen r * elemSize o)
def scatterWrites (o : List (BitVec 8)) (r : Run) (n : Nat) : List Acc :=
  let es := elemSize o
  let d := r.bytes.drop (groupLen r * idxWidth o)
  (List.range n).map fun i =>
    let l := indexed o 24 r i
    { op := .wr, kind := l.kind, eid := BitVec.ofNat 18 l.eid, addr := l.addr, len := es, data := slice d (i * es) es }

/-- SCATTER: indices; elements; one write each, in list order. -/
def State.scatterRound (s : State) (e : Nat) : State :=
  s.stageRound e 4 fun j r =>
    let o := j.operand
    match r.round with
    | 0 => if j.fail.isSome || decide (r.hi ≤ r.pos) then s.endPart e j r else s.goOn e j { r with round := 1, bytes := [], words := [] } (idxReads o r)
    | 1 => match r.bad with
      | some a => let (c, st) := failOf a; s.endPart e (j.failWith c st a.remote) r
      | none =>
        let r1 := { r with bytes := (r.allData 0 (idxReads o r).length).take (groupLen r * idxWidth o), round := 2 }
        s.goOn e j r1 (scatterReads o r1)
    | 2 => match r.bad with
      | some a => let (c, st) := failOf a; s.endPart e (j.failWith c st a.remote) r
      | none =>
        let r1 := { r with bytes := r.bytes ++ r.allData 0 (scatterReads o r).length }
        let (n, st) := s.groupGood j 24 permW r1
        let (j1, t) := match st with
          | some c => let j1 := j.failWith c c false; (j1, (s.countEarly c).setJob j1)
          | none => (j, s)
        t.goOn e j1 { r1 with round := 3, words := [some (BitVec.ofNat 64 n)] } (scatterWrites o r1 n)
    | _ =>
      let n := (((r.words.headD none).getD 0)).toNat
      let r1 := { r with pos := r.pos + r.okBytes 0 (scatterWrites o r n) / elemSize o, round := 0 }
      match r.bad with
      | some a => let (c, st) := failOf a; s.endPart e { j with fail := some (c, st, a.remote) } r1
      | none => if j.fail.isSome then s.endPart e j r1 else s.setEng e { s.eng e with run := some { r1 with answers := [] } }

/-! ## REDUCE (R342) -/

/-- MIN or MAX of floating point (R330): any NaN gives the canonical one, and −0.0 is less than +0.0. -/
def fpMinMax (w : Nat) (mx : Bool) (a b : Nat) : Nat :=
  if fpIsNaN w a || fpIsNaN w b then fpNaN w
  else
    let key := fun v => if fpSign w v then -(fpMag w v : Int) - 1 else (fpMag w v : Int)
    if decide (key a ≤ key b) != mx then a else b

/-- The combining operation of OP and DTYPE. -/
def redOp (op dt a b : Nat) : Nat :=
  let w := 8 * dtSize dt
  if dt ≥ 5 then
    match op with
    | 0 => fpAdd w a b
    | 1 => fpMinMax w false a b
    | _ => fpMinMax w true a b
  else
    match op with
    | 0 => (a + b) % 2 ^ w
    | 1 => if dt % 2 = 1 then (if toSigned w a ≤ toSigned w b then a else b) else min a b
    | 2 => if dt % 2 = 1 then (if toSigned w a ≥ toSigned w b then a else b) else max a b
    | 3 => a &&& b
    | 4 => a ||| b
    | _ => a ^^^ b

/-- Combine elements into the lanes: element `j` of its subrange goes to lane j mod L. -/
def redLanes (op dt : Nat) (lanes : List (Option (BitVec 64))) (j : Nat) (d : List (BitVec 8)) : List (Option (BitVec 64)) :=
  let es := dtSize dt
  let l := 64 / es
  (List.range (d.length / es)).foldl (fun w i =>
    let k := (j + i) % l
    let x := leAt d (i * es) es
    w.set k (match w.getD k none with
      | none => some (BitVec.ofNat 64 x)
      | some v => some (BitVec.ofNat 64 (redOp op dt v.toNat x)))) lanes

/-- One level of the pairwise tree. -/
def redPairs (op dt : Nat) : List Nat → List Nat
  | a :: b :: t => redOp op dt a b :: redPairs op dt t
  | l => l

/-- The tree over the non-empty lanes: at most 16. -/
def redTree (op dt : Nat) (l : List Nat) : Option Nat :=
  (redPairs op dt (redPairs op dt (redPairs op dt (redPairs op dt l)))).head?

/-- Head of a delegated operand: STOP cleared (R335). -/
def delegHead (o : List (BitVec 8)) : List (BitVec 8) := (slice o 0 8).set 1 (BitVec.ofNat 8 (byteAt o 1 &&& 0xFB))

/-- A location of KIND 0. -/
def localLoc (a : Nat) : List (BitVec 8) := leBytes 8 a ++ zeros 8

/-- Bytes that one delegated SVC covers at most. -/
def delegMax : Nat := 2 ^ 28

/-- An SVC to the stack that a location names. -/
def svcAcc (l : Loc) (sub : BitVec 8) (payload : List (BitVec 8)) : Acc :=
  { op := .svc sub, kind := 1, eid := BitVec.ofNat 18 l.eid, addr := 0, len := 0, data := payload }

/-- SVCs of a delegated part, in chunk order. -/
def redSvcs (o : List (BitVec 8)) (p : Nat) : List Acc :=
  let l := locAt o (16 + 24 * p)
  let n := leAt o (32 + 24 * p) 8
  let es := dtSize (headDtype o)
  let per := delegMax / es
  (List.range ((n + per - 1) / per)).map fun c =>
    svcAcc l 5 (delegHead o ++ [o.getD 8 0, 1] ++ zeros 6 ++ localLoc (l.addr + c * delegMax) ++ leBytes 8 (min per (n - c * per)))

/-- A piece's reads: 4 KiB of its elements, `r.pos` being the elements done. -/
def redReads (o : List (BitVec 8)) (piece done : Nat) : List Acc :=
  let p := piece / 2 ^ headSpread o
  let (f, n) := redSub o p (piece % 2 ^ headSpread o)
  let es := dtSize (headDtype o)
  let l := (locAt o (16 + 24 * p)).at_ ((f + done) * es)
  readAccs l (pieceLen l.addr ((n - done) * es))

/-- REDUCE: a piece after the other; `r.lo` is the piece, `r.words` its lanes, `r.round` − 1 its elements done. -/
def State.reduceRound (s : State) (e : Nat) : State :=
  s.stageRound e 5 fun j r =>
    let o := j.operand
    let piece := r.lo
    let p := piece / 2 ^ headSpread o
    let dt := headDtype o
    let es := dtSize dt
    let op := byteAt o 8
    let deleg := s.delegated (locAt o (16 + 24 * p))
    let (a, b) := redSpan o deleg piece
    let put := fun (j : Job) (k v : Nat) => { j with parts := j.parts ++ [(piece * 1024 + k, BitVec.ofNat 64 v)] }
    let stop := fun (j : Job) (done : Nat) => s.endPart e j { r with lo := a, pos := a + done }
    if r.round = 0 then
      if j.fail.isSome then stop j 0
      else if a = b then s.partDone e j { r with lo := a, hi := b }
      else if deleg then s.goOn e j { r with round := 1 } (redSvcs o p)
      else s.goOn e j { r with round := 1, words := List.replicate (64 / es) none } (redReads o piece 0)
    else if deleg then
      let per := delegMax / es
      let n := b - a
      let k := (List.range ((n + per - 1) / per)).takeWhile fun i => (r.ans i).map (·.status) == some stOK
      match r.bad with
      | some x => let (c, st) := failOf x; stop (j.failWith c st true) (min n (k.length * per))
      | none =>
        let j1 := k.foldl (fun j i => put j i (leAt (r.data i) 8 8)) j
        s.partDone e j1 { r with lo := a, hi := b }
    else
      let done := r.round - 1
      let plan := redReads o piece done
      let ok := r.okBytes 0 plan
      match r.bad with
      | some x => let (c, st) := failOf x; stop (j.failWith c st x.remote) (done + ok / es)
      | none =>
        let words := redLanes op dt r.words done (r.allData 0 plan.length)
        let done1 := done + ok / es
        if j.fail.isSome then stop j done1
        else if b - a ≤ done1 then
          let v := (redTree op dt (words.filterMap fun w => w.map (·.toNat))).getD 0
          s.partDone e (put j 0 v) { r with lo := a, hi := b }
        else s.goOn e j { r with round := done1 + 1, words := words } (redReads o piece done1)

/-- The value of a REDUCE: the left fold over its pieces in order (R342). -/
def redValue (o : List (BitVec 8)) (j : Job) : Nat :=
  let l := j.parts.mergeSort fun a b => decide (a.1 ≤ b.1)
  match l with
  | [] => 0
  | x :: t => t.foldl (fun v y => redOp (byteAt o 8) (headDtype o) v y.2.toNat) x.2.toNat

/-! ## CHECK and COMPARE (R343, R344) -/

def checkReads (o : List (BitVec 8)) (r : Run) : List Acc :=
  let l := (locAt o 8).at_ r.pos
  readAccs l (pieceLen l.addr (r.hi - r.pos))

/-- The SVC of a delegated CHECK that goes on from `r.pos` (R335, R359). -/
def checkSvc (o : List (BitVec 8)) (r : Run) : Acc :=
  let l := locAt o 8
  let ctx := if r.pos = 0 then slice o 32 16 else leBytes 8 ((r.words.headD none).getD 0).toNat ++ [o.getD 40 0, 1] ++ zeros 6
  svcAcc l 6 (delegHead o ++ localLoc (l.addr + r.pos) ++ leBytes 8 (min delegMax (r.hi - r.pos)) ++ ctx)

def State.checkRound (s : State) (e : Nat) : State :=
  s.stageRound e 6 fun j r =>
    let o := j.operand
    let deleg := s.delegated (locAt o 8)
    let go := fun (t : State) (j : Job) (r : Run) =>
      if r.hi ≤ r.pos then t.endPart e j r
      else t.goOn e j { r with round := 1 } (if deleg then [checkSvc o r] else checkReads o r)
    if r.round = 0 then
      match s.takeCvu e j (byteAt o 40) (cvuLoad (slice o 32 16) (locAt o 8).addr) with
      | none => s
      | some (j1, t) => go t j1 r
    else if deleg then
      match r.bad with
      | some a => let (c, st) := failOf a; s.endPart e (j.failWith c st a.remote) r
      | none => go s j { r with pos := r.pos + min delegMax (r.hi - r.pos), words := [some (BitVec.ofNat 64 (leAt (r.data 0) 8 8))] }
    else
      let plan := checkReads o r
      let n := r.okBytes 0 plan
      let t := s.feedJob j ((r.allData 0 plan.length).take n)
      let r1 := { r with pos := r.pos + n }
      match r.bad with
      | some a => let (c, st) := failOf a; t.endPart e (j.failWith c st a.remote) r1
      | none => go t j r1

def cmpLen (o : List (BitVec 8)) (r : Run) : Nat := pieceLen ((locAt o 8).addr + r.pos) (r.hi - r.pos)

/-- COMPARE: `r.words` holds the first difference found and their number. -/
def State.compareRound (s : State) (e : Nat) : State :=
  s.stageRound e 7 fun j r =>
    let o := j.operand
    let pa := readAccs ((locAt o 8).at_ r.pos) (cmpLen o r)
    let pb := readAccs ((locAt o 24).at_ r.pos) (cmpLen o r)
    let go := fun (r : Run) =>
      if r.hi ≤ r.pos then s.endPart e j r
      else s.goOn e j { r with round := 1 } (readAccs ((locAt o 8).at_ r.pos) (cmpLen o r) ++ readAccs ((locAt o 24).at_ r.pos) (cmpLen o r))
    if r.round = 0 then go { r with words := [none, some 0] }
    else
      let n := min (r.okBytes 0 pa) (r.okBytes pa.length pb)
      let a := r.allData 0 pa.length
      let b := r.allData pa.length pb.length
      let df := (List.range n).filter fun i => a.getD i 0 != b.getD i 0
      let cnt := ((r.words.getD 1 none).getD 0).toNat + df.length
      let first := match r.words.headD none, df with
        | some f, _ => some f
        | none, i :: _ => some (BitVec.ofNat 64 (r.pos + i))
        | none, [] => none
      let r1 := { r with pos := r.pos + n, words := [first, some (BitVec.ofNat 64 cnt)] }
      match r.bad with
      | some x => let (c, st) := failOf x; s.endPart e (j.failWith c st x.remote) r1
      | none => go r1

/-! ## TRANSPOSE (R345) -/

/-- Row, first column and columns of a unit. -/
def trUnit (o : List (BitVec 8)) (pos : Nat) : Nat × Nat × Nat :=
  let c := pos % trGroups o * 64
  (pos / trGroups o, c, min 64 (leAt o 44 4 - c))

def trReads (o : List (BitVec 8)) (r : Run) : List Acc :=
  let (row, c, n) := trUnit o r.pos
  let es := 2 ^ byteAt o 64
  readAccs ((locAt o 8).at_ (row * leAt o 48 8 + c * es)) (n * es)

def trWrites (o : List (BitVec 8)) (r : Run) : List Acc :=
  let (row, c, n) := trUnit o r.pos
  let es := 2 ^ byteAt o 64
  (List.range n).flatMap fun i => writeAccs ((locAt o 24).at_ ((c + i) * leAt o 56 8 + row * es)) (slice r.bytes (i * es) es)

def State.transposeRound (s : State) (e : Nat) : State :=
  s.round e 9 (fun _ _ => 0) fun j r =>
    let o := j.operand
    match r.round with
    | 1 =>
      let r1 := { r with bytes := r.allData 0 (trReads o r).length, round := 2 }
      s.goOn e j r1 (trWrites o r1)
    | k =>
      let r1 := if k = 0 then r else { r with pos := r.pos + 1 }
      if r1.hi ≤ r1.pos then s.endPart e j r1 else s.goOn e j { r1 with round := 1 } (trReads o r1)

/-! ## ATOMB (R346) -/

/-- ATOMB: one entry after the other, so that list order holds in both modes; `r.words` counts CAS entries that did not write. -/
def State.atombRound (s : State) (e : Nat) : State :=
  s.round e 10 (fun _ _ => 0) fun j r =>
    let o := j.operand
    let sub := byteAt o 8
    let w := atomWidth sub
    let miss := ((r.words.headD none).getD 0).toNat
    let next := fun (r : Run) =>
      if r.hi ≤ r.pos then s.endPart e j r
      else s.goOn e j { r with round := 1 } (readAccs ((locAt o 32).at_ (24 * r.pos)) 24)
    match r.round with
    | 0 => next r
    | 1 =>
      let d := r.allData 0 (readAccs ((locAt o 32).at_ (24 * r.pos)) 24).length
      let l := locAt o 16
      let a := l.addr + leAt d 0 8
      if a % (w / 8) ≠ 0 || decide (2 ^ 40 < a + w / 8) then s.stageFails e j r stMALFORMED
      else if !s.svcWindow j permA a (w / 8) then (s.inc RT_CNT_VIOL_WINDOW).stageFails e j r stACCESS
      else s.goOn e j { r with round := 2, bytes := d }
        [{ op := .atom (BitVec.ofNat 8 sub), kind := l.kind, eid := BitVec.ofNat 18 l.eid, addr := a, len := w / 8, data := slice d 8 16, ordered := byteAt o 9 == 1 }]
    | 2 =>
      let old := leAt (r.data 0) 0 8
      let m := if sub % 16 = 9 ∧ old ≠ leAt r.bytes 16 (w / 8) then miss + 1 else miss
      let r1 := { r with words := [some (BitVec.ofNat 64 m)] }
      let l := locAt o 48
      if l.kind = 7 then next { r1 with pos := r.pos + 1 } else s.goOn e j { r1 with round := 3 } (writeAccs (l.at_ (8 * r.pos)) (leBytes 8 old))
    | _ => next { r with pos := r.pos + 1 }

/-! ## FENCE and NOTIFY (R347, R348) -/

/-- A descriptor fetched before job `id` on ring `n` has not written its completion. -/
def State.earlierOpen (s : State) (n id : Nat) : Bool :=
  ((s.ring n).descs.any fun d => decide (d.job < id)) || ((s.ring n).cpls.any fun c => decide (c.job < id))

def State.fenceRound (s : State) (e : Nat) : State :=
  s.stageRound e 12 fun j r =>
    if (bitList 64 (leAt j.operand 8 8)).any fun n => s.earlierOpen n j.id then s else s.stageDone e j r

def State.notifyRound (s : State) (e mode : Nat) : State :=
  s.round e 13 (fun _ _ => 0) fun j r =>
    let o := j.operand
    let l := locAt o 16
    if byteAt o 8 ≠ mode then s
    else if mode = 1 then
      (s.emit { hdr := mkHdr opDBELL (BitVec.ofNat 8 (l.addr % 64)) 0 j.label 0 0 (BitVec.ofNat 18 l.eid) s.eid 0 (BitVec.ofNat 64 (leAt o 32 4)), payload := [] }).stageDone e j r
    else if r.round = 0 then s.goOn e j { r with round := 1 } (writePieces l true 2 (slice o 32 8))
    else s.stageDone e j r

/-! ## DIRTYSCAN (R363 to R365) -/

/-- A DIRTYSCAN, or a MIRROR SEND, of this stack has begun and has not ended (Table 16.10). -/
def Job.scanning (j : Job) : Bool := j.op == 11 && j.part == 1
def Job.sending (j : Job) : Bool := j.op == 8 && byteAt j.operand 8 == 0 && j.part == 1
def State.ckpBusy (s : State) (id : Nat) : Bool := s.fox.jobs.any fun j => j.id != id && (j.scanning || j.sending)

/-- The map's pieces of 4 KiB. -/
def scanWrites (s : State) (o : List (BitVec 8)) (r : Run) : List Acc :=
  let l := (locAt o 16).at_ r.pos
  writeAccs l (granBytes s.fox.ckpFrozen r.pos (pieceLen l.addr (s.fld CVU_CKP_GRANULES / 8 - r.pos)))

def State.dirtyscanRound (s : State) (e mode : Nat) : State :=
  s.round e 11 (fun j r => if r.round = 0 then 0 else r.okBytes 0 (scanWrites s j.operand r)) fun j r =>
    let o := j.operand
    let epoch := leAt o 12 4
    let n := s.fld CVU_CKP_GRANULES / 8
    let go := fun (t : State) (j : Job) (r : Run) =>
      if (locAt o 16).kind = 7 || decide (n ≤ r.pos) then t.endPart e j r else t.goOn e j { r with round := 1 } (scanWrites t o r)
    if byteAt o 8 ≠ mode then s
    else if r.round = 0 then
      let s := (s.injCheck 8 0).2
      let now := s.fld CVU_CKP_EPOCH
      if !s.on CVU_CKP_CTL_TRACK || s.ckpBusy j.id || epoch ≠ (if mode = 0 then wrap32 (now + 1) else now) then
        (s.inc CVU_CNT_VIOL_STATE).stageFails e j r stSTATE
      else
        let t := if mode = 0 then
            (({ s with fox := { s.fox with ckpFrozen := granOr s.fox.ckpFrozen s.fox.ckpActive, ckpActive := {} } }).sets
              [(CVU_CKP_STATUS_ALL_DIRTY, 0), (CVU_CKP_EPOCH, epoch)]).saveCounters
          else s
        let j1 := { j with part := 1 }
        go (t.setJob j1) j1 r
    else go s j { r with pos := r.pos + pieceLen ((locAt o 16).addr + r.pos) (n - r.pos) }

/-! ## MIRROR (R366 to R371) -/

/-- Register of a unit loaded for a granule: standard INIT, folded home address and epoch (R367). -/
def granReg (poly home epoch : Nat) : Nat := cvuFeedAll poly (cvuFeedAll poly (cvuStd poly) (leBytes 8 home)) (leBytes 8 epoch)

/-- A granule of this stack's memory. -/
def granReads (a : Nat) : List Acc := readAccs { addr := a, eid := 0, kind := 0 } 65536
def granWrites (kind : Nat) (eid : Nat) (a : Nat) (d : List (BitVec 8)) : List Acc := writeAccs { addr := a, eid := eid, kind := kind } d

/-- A check-table entry (Table 16.4). -/
def tableEntry (value epoch st slot : Nat) : List (BitVec 8) := leBytes 8 value ++ leBytes 4 epoch ++ [BitVec.ofNat 8 st, BitVec.ofNat 8 slot, 0, 0]

/-- The bytes of a granule pass a unit; the value it then holds. -/
def State.granFeed (s : State) (j : Job) (d : List (BitVec 8)) : State × Nat :=
  let t := s.feedJob j d
  (t, t.jobCvu j)

/-- A granule read is over: its unit is released. -/
def State.dropCvu (s : State) (j : Job) : State × Job :=
  let j1 := { j with cvu := none }
  (match j.cvu with
    | some u => (s.releaseCvu u).setJob j1
    | none => s.setJob j1, j1)

/-- The COMMIT that a SEND sends (R368 step 3). -/
def commitPayload (o : List (BitVec 8)) (g value : Nat) : List (BitVec 8) :=
  slice o 0 8 ++ [1] ++ slice o 9 23 ++ zeros 8 ++ slice o 40 24 ++ leBytes 8 g ++ zeros 8 ++ leBytes 8 value

/-- The next frozen granule of the range, `pos` granules on. -/
def State.nextFrozen (s : State) (first count pos : Nat) : Option Nat :=
  let m := s.fox.ckpFrozen
  if m.base then ((List.range count).drop pos).find? fun i => GranMapDirty m (first + i)
  else ((m.flip.filter fun g => decide (first + pos ≤ g) && decide (g < first + count)).head?).map (· - first)

/-- SEND: rounds 0 begin, 1 next granule, 2 granule read, 3 slot written, 4 COMMIT answered, 5 and 6 the same a second
time; `r.words` holds the granules committed and the value. -/
def State.sendRound (s : State) (e : Nat) : State :=
  s.round e 8 (fun _ _ => 0) fun j r =>
    let o := j.operand
    if byteAt o 8 ≠ 0 then s
    else
      let poly := byteAt o 10
      let epoch := leAt o 12 4
      let first := leAt o 16 8
      let count := leAt o 24 8
      let np := leAt o 32 3
      let g := first + r.pos
      let done := ((r.words.headD none).getD 0).toNat
      let value := ((r.words.getD 1 none).getD 0).toNat
      let words := fun d v => [some (BitVec.ofNat 64 d), some (BitVec.ofNat 64 v)]
      let commit := svcAcc { addr := 0, eid := np, kind := 1 } 8 (commitPayload o g value)
      let again := fun (t : State) (j : Job) (r : Run) => t.setEng e { t.eng e with run := some { r with round := 1, answers := [] } } |>.setJob j
      match r.round with
      | 0 =>
        if !s.on CVU_CKP_CTL_TRACK || s.ckpBusy j.id || epoch ≠ s.fld CVU_CKP_EPOCH then (s.inc CVU_CNT_VIOL_STATE).stageFails e j r stSTATE
        else again s { j with part := 1 } { r with words := words 0 0 }
      | 1 =>
        let s := (s.injCheck 8 0).2
        match s.nextFrozen first count r.pos with
        | none => s.stageDone e j r
        | some i =>
          let r1 := { r with pos := i }
          match s.takeCvu e j poly (granReg poly (leAt o 40 8 + i * 65536) epoch) with
          | none => s
          | some (j1, t) => t.goOn e j1 { r1 with round := 2 } (granReads ((first + i) * 65536))
      | 2 =>
        let d := r.allData 0 (granReads (g * 65536)).length
        let (t, v) := s.granFeed j d
        let (t1, j1) := t.dropCvu j
        t1.goOn e j1 { r with round := 3, bytes := d, words := words done v } (granWrites 1 np (leAt o 48 8) d)
      | 3 => s.goOn e j { r with round := 4 } [commit]
      | 5 => s.goOn e j { r with round := 6 } [commit]
      | k =>
        let miss := match r.ans 0 with
          | some a => a.detail.getLsbD 31
          | none => false
        if !miss then
          let t := ({ s with fox := { s.fox with ckpFrozen := granClear s.fox.ckpFrozen g } }).incPair CVU_CKP_COMMITTED_LO 1
          again t j { r with pos := r.pos + 1, words := words (done + 1) 0, bytes := [] }
        else if k = 4 then (s.inc CVU_CKP_RESENT).goOn e j { r with round := 5 } (granWrites 1 np (leAt o 48 8) r.bytes)
        else (s.inc CVU_CKP_MISMATCH).endPart e { j with stopDiff := true } r

/-- COMMIT (R369): rounds 0 slot read, 1 judged, 2 entry COPYING written, 3 home written, 4 entry VALID written. -/
def State.commitRound (s : State) (e : Nat) : State :=
  s.round e 8 (fun _ _ => 0) fun j r =>
    let o := j.operand
    if byteAt o 8 ≠ 1 then s
    else
      let poly := byteAt o 10
      let epoch := leAt o 12 4
      let i := leAt o 64 8 - leAt o 16 8
      let home := leAt o 40 8 + i * 65536
      let slot := leAt o 48 8 + byteAt o 72 * 65536
      let entry := leAt o 56 8 + i * 16
      let value := leAt o 80 8
      match r.round with
      | 0 => match s.takeCvu e j poly (granReg poly home epoch) with
        | none => s
        | some (j1, t) => t.goOn e j1 { r with round := 1 } (granReads slot)
      | 1 =>
        let d := r.allData 0 (granReads slot).length
        let (t, v) := s.granFeed j d
        let (t1, j1) := t.dropCvu j
        let r1 := { r with words := [some (BitVec.ofNat 64 v)] }
        if v ≠ value then t1.endPart e { j1 with stopDiff := true } r1
        else t1.goOn e j1 { r1 with round := 2, bytes := d } (granWrites 0 0 entry (tableEntry value epoch 2 (byteAt o 72)))
      | 2 => s.goOn e j { r with round := 3 } (granWrites 0 0 home r.bytes)
      | 3 => s.goOn e j { r with round := 4 } (granWrites 0 0 entry (tableEntry value epoch 1 0))
      | _ => s.stageDone e j r

/-- VERIFY (R371): rounds 0 next entry, 1 entry read, 2 granule read, 3 home written, 4 entry VALID written; `r.words`
holds the count of RESULT and the entry's words. -/
def State.verifyRound (s : State) (e : Nat) : State :=
  s.round e 8 (fun _ _ => 0) fun j r =>
    let o := j.operand
    if byteAt o 8 ≠ 2 then s
    else
      let poly := byteAt o 10
      let finish := bitAt (byteAt o 11) 0
      let home := leAt o 40 8 + r.pos * 65536
      let entry := leAt o 56 8 + r.pos * 16
      let bad := ((r.words.headD none).getD 0).toNat
      let value := ((r.words.getD 1 none).getD 0).toNat
      let meta_ := ((r.words.getD 2 none).getD 0).toNat
      let st := meta_ / 2 ^ 32 % 256
      let slot := leAt o 48 8 + meta_ / 2 ^ 40 % 256 * 65536
      let src := if st = 1 then home else slot
      let next := fun (t : State) (j : Job) (n : Nat) =>
        let r1 := { r with pos := r.pos + 1, round := 0, words := [some (BitVec.ofNat 64 n)], bytes := [], answers := [] }
        (t.setEng e { t.eng e with run := some r1 }).setJob j
      match r.round with
      | 0 =>
        if r.hi ≤ r.pos then s.endPart e { j with stopDiff := bad != 0 } r
        else s.goOn e j { r with round := 1, words := [some (BitVec.ofNat 64 bad)] } (readAccs { addr := entry, eid := 0, kind := 0 } 16)
      | 1 =>
        let d := r.data 0
        let m := leAt d 8 8
        let st := m / 2 ^ 32 % 256
        if st = 1 || (st == 2 && finish) then
          match s.takeCvu e j poly (granReg poly home (m % 2 ^ 32)) with
          | none => s
          | some (j1, t) => t.goOn e j1 { r with round := 2, words := [some (BitVec.ofNat 64 bad), some (BitVec.ofNat 64 (leAt d 0 8)), some (BitVec.ofNat 64 m)] }
              (granReads (if st = 1 then home else leAt o 48 8 + m / 2 ^ 40 % 256 * 65536))
        else next s j (if st = 2 then bad + 1 else bad)
      | 2 =>
        let d := r.allData 0 (granReads src).length
        let (t, v) := s.granFeed j d
        let (t1, j1) := t.dropCvu j
        if v ≠ value then next t1 j1 (bad + 1)
        else if st = 1 then next t1 j1 bad
        else t1.goOn e j1 { r with round := 3, bytes := d } (granWrites 0 0 home d)
      | 3 => s.goOn e j { r with round := 4 } (granWrites 0 0 entry (tableEntry value (meta_ % 2 ^ 32) 1 0))
      | _ => next s j bad

/-! ## RESULT of a stage (Table 15.5) and the end of a round of stages -/

/-- Every part is done: RESULT is settled (R327, R349). -/
def State.stageResult (s : State) (j : Job) (r : Run) : State × Job :=
  let o := j.operand
  let prog := s.progressWith j r (if j.op = 5 then (0, 0) else (r.lo, r.pos))
  let w := fun i => ((r.words.getD i none).getD 0)
  let fin := fun (p : Nat) (v : BitVec 64) => (s, ({ j with prog := p, value := v } : Job))
  let open_ := fun (p : Option Nat) (v : Option (BitVec 64)) =>
    let (d, t) := s.draw 16
    (t, ({ j with prog := p.getD (leAt d 0 8), value := v.getD (BitVec.ofNat 64 (leAt d 8 8)) } : Job))
  match j.op with
  | 2 => fin prog (BitVec.ofNat 64 (s.jobCvu j))
  | 5 => if j.fail.isSome then open_ (some prog) none else fin prog (BitVec.ofNat 64 (redValue o j))
  | 6 =>
    let v := if s.delegated (locAt o 8) then w 0 else BitVec.ofNat 64 (s.jobCvu j)
    (s, { j with prog := prog, value := v, stopDiff := j.fail.isNone && headStop o && v != j.value })
  | 7 =>
    let p := if j.fail.isSome then prog else match r.words.headD none with
      | some f => f.toNat
      | none => leAt o 40 8
    (s, { j with prog := p, value := w 1, stopDiff := j.fail.isNone && headStop o && w 1 != 0 })
  | 8 => match byteAt o 8 with
    | 0 => fin prog (w 0)
    | 1 => if j.fail.isSome then open_ none none else if j.stopDiff then open_ none (some (w 0)) else open_ none none
    | _ => fin prog (w 0)
  | 10 => fin prog (w 0)
  | 11 => if j.fail.isSome then fin prog 0 else fin (s.granCount s.fox.ckpFrozen) (BitVec.ofNat 64 (leAt o 12 4))
  | _ => fin prog 0

/-- RESULT of a stage that ends; one that a trap failed holds the progress it had then, and 0 (R352). -/
def State.settleStage (s : State) (j : Job) (r : Run) : State × Job :=
  if (j.fail.map (·.1)) == some 0x0D then
    (s, { j with prog := j.trapProg.getD (s.progressWith j r (if j.op = 5 then (0, 0) else (r.lo, r.pos))), value := 0 })
  else s.stageResult j r

/-- STAGE_ADVANCE (R327, R352): a trap whose requests are over ends; a stage whose parts are all done ends. -/
def State.stageAdvance (s : State) (e : Nat) : State :=
  let g := s.eng e
  match g.trapping with
  | some c => if s.trapWaits e then s else s.endTrap e c true
  | none => match g.run with
    | none => s
    | some r => match s.job r.job with
      | none => s
      | some j =>
        if r.finished && j.engines.head? == some e && (s.enginesOf j.id).length ≤ 1 then
          let (t, j1) := s.settleStage j r
          (t.setJob j1).advance e j1
        else s

end Sys2Proof.Machine
end

