-- ==== Sys2Proof/Machine/Reaction.lean ====
section
/-! DEFINITION. What the stack does to itself when hardware goes wrong: forcing (R48), the grave safe state (R410, R411),
freezing of layer 1 and self-refresh of the DRAM layers (R73, R258), wakes (R80 to R85), containment and degrade of
Table 18.1, and `settle`, which every meaning that may raise a fault ends with. -/

namespace Sys2Proof.Machine

set_option Elab.async false

/-- The base die is held: unpowered, in reset, forced, or in the grave safe state. -/
def State.dead (s : State) : Bool :=
  !s.rails.vaon || !s.rails.vcore || (!s.pins.perstN && !s.start.diagHold) || s.start.grave || s.start.forcing || s.start.slowHold

/-- The base die runs from P3 on, holds included, DIAG_HALT aside. -/
def State.live (s : State) : Bool := !s.dead && decide (3 ≤ s.phase) && decide (s.phase ≤ 0xA)

/-- Live and out of S2 and S3. -/
def State.awake (s : State) : Bool := s.live && decide (s.sleep ≤ 1)

/-! ## Freezing and self-refresh -/

/-- CRC-32C of a frozen image: of its three words, least significant byte first. R229 gives the CRC, no rule the layout (log entry 67). -/
def FrozenImg.crc (i : FrozenImg) : BitVec 32 := BitVec.ofNat 32 (crc32c (leBytes 4 i.memCfg.toNat ++ leBytes 4 i.part.toNat ++ leBytes 1 i.groupState.toNat))

/-- Layer 1 freezes and sets FROZEN (R73, R74): contents, tags, dirty bits and the frozen image stay; a write-back cut off
leaves its line dirty (R75). A Marl already frozen keeps its image; in S3 it is powered off (R82). -/
def State.freezeMarl (s : State) : State :=
  if !s.marl.image.isEmpty || !s.rails.vstore || s.sleep == 3 || decide (s.phase < 3) || s.phase == 0xB then s
  else
    let img : FrozenImg := { memCfg := BitVec.ofNat 32 s.memCfg, part := BitVec.ofNat 32 (s.reg MARL_PART.off), groupState := BitVec.ofNat 8 (s.fld GLB_MEM_STATUS_GROUP_STATE) }
    { s with start := { s.start with frozen := true }, marl := { s.marl with image := List.replicate 3 { img := img, crc := img.crc }, fills := [], evicting := [], lines := s.marl.lines.map (fun (e : Nat × Line) => (e.1, ({ e.2 with wbBusy := false, flushMark := false } : Line))), flush := none, flushRing0 := false, newPart := none } }

/-- Every command heartbeat stops. -/
def State.stopHeartbeats (s : State) : State := s.each (List.range 32) State.channelSr

/-- Every bypass pair is closed by logic that asks no clock; each that was open is counted (R172). -/
def State.closeAll (s : State) : State :=
  let n := ((List.range 16).filter fun k => !s.pairClosed k).length
  (s.sets [(RT_BYP_STATUS_CLOSED, 0xFFFF), (RT_BYP_STATUS_LISTEN_READY, 0), (RT_BYP_OPEN_OPEN, 0)]).incBy RT_BYP_CLOSES n

/-- Every transmitter is squelched and every bypass pair closed, by logic that asks no clock. -/
def State.squelchAll (s : State) : State :=
  ({ s with lanes := s.lanes.map fun (e : Nat × Lane) => (e.1, ({ e.2 with squelch := true } : Lane)) }).closeAll

/-- Packets in ports, Marl buffers and retry buffers, and requests in progress, are lost (R77, R410 step 2). -/
def State.dropTraffic (s : State) : State :=
  { s with sw := {}, txns := [], links := s.links.map fun (e : Nat × Link) => (e.1, e.2.resetLL) }

/-- Forcing (R48). -/
def State.force (s : State) (cause : Option Fld) : State :=
  let t := s.stopHeartbeats.freezeMarl.squelchAll.dropTraffic
  let u := { t with start := { t.start with forcing := true } }
  u.sets ((CLK_MON_STATUS_FORCED_SAFE, 1) :: (match cause with
    | some f => [(f, 1)]
    | none => []))

/-- Entry to the grave safe state (R410 steps 1 and 2): no new request is accepted, and only VAON logic, the MGC and the
sideband go on. -/
def State.enterGrave (s : State) : State :=
  if s.start.grave then s
  else
    let t := s.force none
    { t with start := { t.start with grave := true }, pwr := { t.pwr with entry := none, wakeDue := false, waking := false } }

/-! ## Timers -/

/-- Timers that wait for READY and S0 start (R404). -/
def State.startTimers (s : State) : State :=
  if s.timersRun then
    { s with flt := { s.flt with recs := s.flt.recs.map fun (e : Nat × FltRec) =>
      if e.2.isOpen && e.2.timerOn && e.2.timerEnd.isNone then (e.1, ({ e.2 with timerEnd := some (s.now + s.timerUs e.2.cls) } : FltRec)) else e } }
  else s

/-! ## Wakes (R80 to R85) -/

/-- Who asked for a sleep entry is answered. -/
def State.sleepAnswer (s : State) (a : Asker) (st : BitVec 8) : State :=
  match a with
  | .ring0 => s.each (s.mgmtOf 0x44) fun t m => if st = stSTATE then t.mgmtRefuse m.job st 0 else t.mgmtDone m.job st []
  | .reg _ => if st = stSTATE then (s.viol 0 .state).payOwed GLB_PWR_CTL.off st else s.payOwed GLB_PWR_CTL.off st

/-- The entry is abandoned (R82). -/
def State.abandonEntry (s : State) (e : SleepEntry) : State :=
  (({ s with pwr := { s.pwr with entry := none } }).sets [(GLB_PWR_STATUS_TARGET, 0), (GLB_PWR_CTL_WAKE, 0)]).sleepAnswer e.asker stSTATE

/-- The stack is back in S0 from S2 or S3. -/
def State.awoken (s : State) : State :=
  let t := ({ s with pwr := { s.pwr with waking := false, wakeTimer := 0 } }).sets [(GLB_PWR_STATUS_STATE, 0), (GLB_PWR_CTL_WAKE, 0)]
  ((t.incSat GLB_PWR_STATUS_WAKE_COUNT).startTimers)

/-- A channel in the self-refresh that S2 or S3 commanded leaves it. -/
def State.channelUp (s : State) (c : Nat) : State :=
  if s.on (CHAN_STATUS_FENCED c) || s.fld (CHAN_STATUS_STATE c) != 4 then s else s.set (CHAN_STATUS_STATE c) 2

/-- Channels leave the self-refresh of S2. -/
def State.channelsUp (s : State) : State := s.each (List.range s.nChans) State.channelUp

/-- A wake from S2 completes (R80): channels leave self-refresh; links in L2 and closed pairs follow with their own events. -/
def State.wakeS2 (s : State) : State := s.channelsUp.awoken

/-- Step 1 of Table 3.3: no source is qualified, no PLL is locked, and the fast RC starts at its trim. -/
def State.clockStart (s : State) : State :=
  let t := { s with clk := { s.clk with frcTrim := s.fuse.frcTrim, slowTrim := s.fuse.slowTrim, frcTries := 0, frcRunning := true, wins := [0, 0, 0, 0], xtalOffA := false, xtalOffB := false, holdover := none, switchTo := none, p2Step := 1, foxRelock := false } }
  t.sets [(CLK_SRC_STATUS, 0), (CLK_PLL_STATUS, 0)]

/-- A wake source acts: causes 1 open pair, 2 WAKE, 3 timer, 4 fault (Table 4.15). During an entry only WAKE and a fault do;
before step 2 they abandon it, after it the wake is held. From S3 the stack goes on with S3_WAKE. -/
def State.wake (s : State) (cause : Nat) : State :=
  match s.pwr.entry with
  | some e =>
    if cause ≠ 2 ∧ cause ≠ 4 then s
    else if e.answered then (if e.wakeHeld.isSome then s else { s with pwr := { s.pwr with entry := some { e with wakeHeld := some cause } } })
    else s.abandonEntry e
  | none =>
    if s.sleep = 0 then s.set GLB_PWR_CTL_WAKE 0
    else if s.sleep = 1 then (s.set GLB_PWR_STATUS_STATE 0).set GLB_PWR_CTL_WAKE 0
    else if s.pwr.waking then s
    else
      let t := s.set GLB_PWR_STATUS_WAKE_CAUSE cause
      if s.sleep = 2 then t.wakeS2
      else { t.clockStart with pwr := { t.pwr with waking := true }, clk := { t.clockStart.clk with wakeWait := true } }

/-! ## Faults -/

/-- A record of class G is open. -/
def State.graveRec (s : State) : Bool := s.flt.recs.any fun e => e.2.isOpen && e.2.cls == .g

/-- Requests of the stack that are outstanding for R82: all but the writes of completions that ring 0 keeps (R311). -/
def State.outsLeft (s : State) : Bool := (s.fox.outs ++ s.fox.unsent).any fun o => !(o.owner == .cpl 0 && (s.ring 0).cplKept)

/-- Step 2 of R82: once the outstanding requests are complete, the asker of a sleep entry is answered. -/
def State.sleepStep2 (s : State) : State :=
  match s.pwr.entry with
  | none => s
  | some e =>
    if e.answered || !s.txns.isEmpty || s.outsLeft || !s.fox.jobs.isEmpty || !s.fox.svcQueue.isEmpty then s
    else ({ s with pwr := { s.pwr with entry := some { e with answered := true } } }).sleepAnswer e.asker stOK

/-- What follows at once: a due wake (R80), step 2 of a sleep entry (R82), the grave safe state (R405). -/
def State.settle (s : State) : State :=
  let t := if s.pwr.wakeDue then ({ s with pwr := { s.pwr with wakeDue := false } }).wake 4 else s
  let t := t.sleepStep2
  if t.graveRec && !t.start.grave then t.enterGrave else t

/-- Raise a fault and take what follows. -/
def State.raise (s : State) (c : FltCause) (unit detail : Nat) (inj : Bool := false) : State := (s.raiseRec c unit detail inj).settle

/-! ## Containment and degrade (Table 18.1) -/

/-- The clear of a port block reset (Table 4.8): link layer, retry buffer, credits, Marl buffers, lane adaptation. -/
def State.portClear (s : State) (p : Nat) : State :=
  let t := s.each (List.range (s.nLinks p)) fun t m => if t.lst p m = 0 then t else t.linkDown p m 7
  let t := { t with sw := { t.sw with ingress := t.sw.ingress.filter (fun i => i.port != p), egress := t.sw.egress.filter (fun o => o.port != p), backpress := t.sw.backpress.filter fun b => b.1 != p } }
  t.each (List.range 8) fun t i =>
    let l := 8 * p + i
    (((t.setLane l { t.lane l with adaptPos := 0, slicer := [0, 0, 0] }).setReg (LANE_RX_EQ l).off 0).setReg (LANE_DFE l 0).off 0).setReg (LANE_DFE l 1).off 0

/-- A block reset that the stack itself gives a port: the port goes down and restarts blind. -/
def State.portReset (s : State) (p : Nat) : State := if s.nPorts ≤ p then s else (s.portClear p).checkPort p

/-- Containment of a domain when its C timer expires. -/
def State.contain (s : State) (d detail : Nat) : State :=
  if d = 2 then s.portReset (detail % 32)
  else if d = 7 then
    (if s.clk.foxRelock then s.each (List.range s.nEngines) fun t e => if (t.eng e).st == .disabled then t else t.putEng e { t.eng e with st := .disabled, heldPll := true }
    else s)
  else s

/-- Degrade of a domain when its D timer expires: an engine becomes DISABLED; elsewhere nothing further. -/
def State.degrade (s : State) (d : Nat) : State := if 0x60 ≤ d ∧ d < 0x80 then s.offEng (d - 0x60) else s

end Sys2Proof.Machine
end

