-- ==== Sys2Proof/Machine/FaultCmds.lean ====
section
/-! DEFINITION. The fault commands (18_faults.md): FAULT_RAISE, the timers, the grave flush, acknowledgement, lockstep,
switch-state errors, alarm windows and injection. -/

namespace Sys2Proof.Machine

set_option Elab.async false

/-- FAULT_RAISE (R400, R403): the fault reaches its domain's record, and class G enters the grave safe state (R405). -/
def execFaultRaise (cause : FltCause) (unit : BitVec 8) (detail : BitVec 32) (s : State) : Out :=
  if domListed (causeOf .a cause unit.toNat).2.2 && !s.start.grave then .next (s.raise cause unit.toNat detail.toNat) else .next s

/-! ## Timers (R404) -/

/-- The record's timer of a class is running. -/
def State.timerDue (s : State) (d : Nat) (c : FltClass) : Bool :=
  let r := s.fltRec d
  r.isOpen && r.cls == c && r.timerOn && r.timerEnd.isSome && s.timersRun && !s.start.grave

/-- C_TIMER_EXPIRY (R404 step 2). -/
def execCTimerExpiry (d : BitVec 8) (s : State) : Out :=
  let n := d.toNat
  if s.timerDue n .c then
    let r := s.fltRec n
    let s1 := if r.contained then s else s.contain n r.detail.toNat
    let r1 := s1.startTimer { r with auto := true, contained := true, cls := .d, seq := r.seq + 1 }
    .next ((((s1.setRec n r1).inc FLT_ESCALATED).recChanged n).settle)
  else .next s

/-- D_TIMER_EXPIRY (R404 step 3): the degrade action; in an essential domain class G. -/
def execDTimerExpiry (d : BitVec 8) (s : State) : Out :=
  let n := d.toNat
  if s.timerDue n .d then
    let r := s.fltRec n
    let r1 : FltRec := { r with auto := true, seq := r.seq + 1, timerOn := false, timerEnd := none }
    let s1 := if essential n then s.setRec n { r1 with cls := .g, st := .grave } else (s.degrade n).setRec n { r1 with st := .degraded }
    .next (((s1.inc FLT_ESCALATED).recChanged n).settle)
  else .next s

/-- GRAVE_FLUSH_DONE (R410 steps 3 and 4, R428): holding queue, staging queue and counters go to the Sett, and PHASE
reads 0xC. While the MGC cannot run (R401), the queued records are lost and counted, and nothing is saved (log entry 92). -/
def execGraveFlushDone (s : State) : Out :=
  if s.start.grave && !s.start.graveDone && s.fld CLK_SRC_STATUS_MGT_SRC != 0 then
    let q := s.recd.holding ++ s.recd.staging
    let s0 : State := { s with recd := { s.recd with holding := [], staging := [], freeze := .off, waiter := false } }
    let s1 := if s.flt.mgcDown then s0.each q fun t it => t.lost (itemSev it) else (s0.each q State.logItem).saveCounters
    .next ({ s1 with start := { s1.start with graveDone := true } }.set GLB_START_STATUS_PHASE 0xC)
  else .next s

/-! ## Acknowledgement (R407, R408) -/

/-- MODE and DOMAIN are not reserved. -/
def ackOk (d mode : Nat) : Bool := domListed d && decide (mode ≤ 1)

/-- FLT_ACK on a record: OK or STATE, and the state. -/
def State.fltAck (s : State) (d : Nat) (seq : BitVec 8) (mode : Nat) : BitVec 8 × State :=
  let r := s.fltRec d
  if !r.isOpen || r.seq != seq then (stSTATE, s)
  else if mode = 0 then
    (if r.st == .wait then (stOK, s.setRec d { r with st := .held, timerOn := false, timerEnd := none }) else (stSTATE, s))
  else if r.cls == .g then (stSTATE, s)
  else
    let t := s.setRec d { r with isOpen := false, st := .closed, timerOn := false, timerEnd := none }
    (stOK, t.faultRec d)

/-- A write of FLT_ACK (R408): after GLB_LOCK only the sideband and JTAG may. -/
def State.fltAckWrite (s : State) (via : Path) (v : Nat) : BitVec 8 × State :=
  if s.locked && via == .mreg then (stSTATE, s.viol FLT_ACK.off .state)
  else
    let (st, t) := s.fltAck (bitsOf v 7 0) (BitVec.ofNat 8 (bitsOf v 15 8)) (bitsOf v 17 16)
    (st, if st = stOK then t else t.viol FLT_ACK.off .state)

/-- FLT_ACK_STATUS after a write has been handled. -/
def State.noteAck (s : State) (st : BitVec 8) : State :=
  s.sets [(FLT_ACK_STATUS_VALID, 1), (FLT_ACK_STATUS_RESULT_SEQ, s.fld FLT_ACK_STATUS_RESULT_SEQ + 1), (FLT_ACK_STATUS_RESULT, st.toNat)]

/-- Ring-0 operation FLT_ACK (0x46). -/
def State.fltAckOp (s : State) (m : Mgmt) : State :=
  let p := m.payload
  let d := byteAt p 0
  if decide (p.length < 8) || !ackOk d (byteAt p 2) || !zeroAt p 3 5 then s.mgmtRefuse m.job stMALFORMED 0
  else
    let (st, t) := s.fltAck d (p.getD 1 0) (byteAt p 2)
    let res : List (BitVec 8) := [BitVec.ofNat 8 (recStCode (t.fltRec d).st)]
    if st = stOK then t.mgmtDone m.job stOK res else (t.viol (mgmtBlock 0x46 p) .state).mgmtDone m.job st res

/-! ## Lockstep and switch state (R401, R402) -/

/-- A moment less than 1 s ago. -/
def State.within1s (s : State) (t : Option Nat) : Bool :=
  match t with
  | some a => decide (s.now < a + 1000000)
  | none => false

/-- Raise a record's class to the one given by one more merge. -/
def State.escalate (s : State) (c : FltCause) (cls : FltClass) (detail : Nat) (inj : Bool) : State :=
  let (code, _, d) := causeOf .a c 0
  if s.collects then (((s.fltMerge d code cls detail inj).recChanged d).settle) else s

/-- LOCKSTEP_MISMATCH (R401): both cores halt; a second mismatch within 1 s is of class G. -/
def execLockstepMismatch (pc : BitVec 32) (s : State) : Out :=
  if s.dead || s.flt.mgcDown then .next s
  else
    let (inj, s1) := s.injCheck 6 0
    let again := s1.within1s s1.flt.lockstepAt
    let s2 := { s1 with flt := { s1.flt with lockstepAt := some s1.now, mgcDown := true } }
    .next (if again then s2.escalate .lockstep .g pc.toNat inj.isSome else s2.raise .lockstep 0 pc.toNat inj.isSome)

/-- MGC_RELOAD_DONE (R401): the pair restarts and ring-0 operations in progress complete TRAPPED, or the record becomes G. -/
def execMgcReloadDone (ok : Bool) (s : State) : Out :=
  if !s.flt.mgcDown then .next s
  else if ok && s.fld GLB_START_STATUS_FW_SLOT != 3 then
    let s1 := { s with flt := { s.flt with mgcDown := false } }
    .next (s1.each s1.fox.mgmt fun t m => t.mgmtDone m.job 0x0D [])
  else .next (s.escalate .lockstep .g (s.fltRec 3).detail.toNat false)

/-- FAB_STATE_ERROR (R402): a block reset of the port at once; a second error within 1 s is of class D. -/
def execFabStateError (port : BitVec 5) (structure_ : BitVec 8) (s : State) : Out :=
  let p := port.toNat
  if !s.awake || decide (s.nPorts ≤ p) then .next s
  else
    let (inj, s1) := s.injCheck 7 p
    let again := s1.within1s s1.flt.fabStateAt
    let s2 := ({ s1 with flt := { s1.flt with fabStateAt := some s1.now } }).portReset p
    let det := p + 256 * structure_.toNat
    let t := if again then s2.escalate .fabState .d det inj.isSome else s2.raise .fabState 0 det inj.isSome
    -- the port has had the containment of Table 18.1
    .next (if (t.fltRec 2).isOpen then t.setRec 2 { t.fltRec 2 with contained := true } else t)

/-! ## Alarm windows (R412) -/

/-- ALARM_WINDOW_END (R412): a pending domain sends one ALARM built from the record as it stands. -/
def execAlarmWindowEnd (d : BitVec 8) (s : State) : Out :=
  match mget s.flt.wins d.toNat with
  | none => .next s
  | some w =>
    let t := { s with flt := { s.flt with wins := merase d.toNat s.flt.wins } }
    .next (if w.pending && !s.start.grave then t.sendAlarms d.toNat w.folded else t)

/-! ## Injection (R415 to R417) -/

/-- Units of a checker (Table 18.4): the number range, and those present. -/
def injRange (ch : Nat) : Nat := if ch = 1 then 64 else if ch = 6 ∨ ch = 8 then 1 else 32
def State.injUnits (s : State) (ch : Nat) : Nat :=
  if ch = 0 then s.nChans else if ch = 1 then s.nSlices else if ch = 2 ∨ ch = 3 then s.nEngines
  else if ch = 6 ∨ ch = 8 then 1 else s.nPorts

/-- A request is well formed. -/
def injOk (ch unit : Nat) (ue : Bool) : Bool := decide (ch ≤ 8) && decide (unit < injRange ch) && (ue || !(decide (5 ≤ ch) && decide (ch ≤ 7)))

/-- A well-formed injection request: OK, RANGE or STATE, and the state. -/
def State.inject (s : State) (ch unit count : Nat) (ue : Bool) : BitVec 8 × State :=
  if s.injUnits ch ≤ unit then (stRANGE, s)
  else
    let other := match s.flt.inject with
      | some i => i.checker != ch && decide (0 < count)
      | none => false
    if !s.on FLT_CFG_INJ_EN || other then (stSTATE, s)
    else
      let i : Option Inject := if count = 0 then none else some { checker := ch, ue := ue, unit := unit, remaining := count }
      (stOK, ({ s with flt := { s.flt with inject := i } }).sets [(FLT_INJ_STATUS_ARMED, b2n (count != 0)), (FLT_INJ_STATUS_REMAINING, count)])

/-- A write of FLT_INJ: refused after GLB_LOCK. -/
def State.fltInjDo (s : State) (v : Nat) : BitVec 8 × State :=
  let (st, t) := if s.injUnits (bitsOf v 31 28) ≤ bitsOf v 5 0 then (stRANGE, s) else if s.locked then (stSTATE, s)
    else s.inject (bitsOf v 31 28) (bitsOf v 5 0) (bitsOf v 23 16) (bitAt v 27)
  (st, if st = stOK then t else t.viol FLT_INJ.off .state)

/-- FLT_INJ_STATUS.RESULT after a write. -/
def State.noteInj (s : State) (st : BitVec 8) : State := s.set FLT_INJ_STATUS_RESULT st.toNat

/-- FLT_INJECT (0x47, R415, R417). -/
def execFltInject (s : State) : Out :=
  .next (s.startMgmt 0x47 fun t m =>
    let p := m.payload
    let ch := byteAt p 0
    let unit := byteAt p 1
    if decide (p.length < 8) || decide (1 < byteAt p 2) || !zeroAt p 4 4 || !injOk ch unit (byteAt p 2 == 1) then t.mgmtRefuse m.job stMALFORMED 0
    else
      let (st, u) := t.inject ch unit (byteAt p 3) (byteAt p 2 == 1)
      if st = stOK then u.mgmtDone m.job stOK [] else u.mgmtRefuse m.job st (mgmtBlock 0x47 p))

end Sys2Proof.Machine
end

