-- ==== Sys2Proof/Machine/Thermal.lean ====
section
/-! DEFINITION. Temperatures (20_thermal.md): dies and their sensors, stand-in readings (R440), throttle targets (R442), and
the views THM_STATUS, THM_SENSOR and THM_LAYER. -/

namespace Sys2Proof.Machine

set_option Elab.async false

/-- Sensors sampled by the variant (Table 20.2). -/
def State.nSensors (s : State) : Nat := 20 + 2 * s.nChans

/-- Dies of the variant: layers 0, 1 and the DRAM layers. -/
def State.nDies (s : State) : Nat := 2 + s.nChans / 2

/-- Die of a sensor (Table 20.1). -/
def dieOf (n : Nat) : Nat := if n < 16 then 0 else if n < 20 then 1 else 2 + (n - 20) / 4

/-- Sensors of a die. -/
def dieSensors (d : Nat) : List Nat :=
  if d = 0 then List.range 16 else if d = 1 then (List.range 4).map (· + 16) else (List.range 4).map (· + (20 + 4 * (d - 2)))

/-- Neighbours of a sensor (R439). -/
def State.neighbours (s : State) (n : Nat) : List Nat :=
  let own := (dieSensors (dieOf n)).filter (· != n)
  if n < 20 then own
  else own ++ ((if 24 ≤ n then [n - 4] else []) ++ [n + 4]).filter fun m => decide (m < s.nSensors)

def State.sensor (s : State) (n : Nat) : Sensor := mgetD s.thm.sensors n {}
def State.setSensor (s : State) (n : Nat) (x : Sensor) : State := { s with thm := { s.thm with sensors := mput n x s.thm.sensors } }
def State.die (s : State) (d : Nat) : Die := mgetD s.thm.dies d {}
def State.setDie (s : State) (d : Nat) (x : Die) : State := { s with thm := { s.thm with dies := mput d x s.thm.dies } }

/-- A working sensor that has a reading of its own. -/
def State.works (s : State) (n : Nat) : Bool := decide (n < s.nSensors) && (s.sensor n).has && !(s.sensor n).broken

/-- Readings of the working ones among some sensors. -/
def State.workingOf (s : State) (l : List Nat) : List Int := (l.filter s.works).map fun n => (s.sensor n).reading

/-- Stand-in reading of a sensor (R440). -/
def State.standIn (s : State) (n : Nat) : Int :=
  let crit : Int := 4 * s.fld THM_LIMITS_CRIT
  if s.variant = 0x96 then crit
  else match s.workingOf (s.neighbours n) with
    | [] => crit
    | a :: t => t.foldl max a + 4 * s.fld THM_THROTTLE_CFG_NEIGH_MARGIN

/-- The hottest of some sensors by the readings in use: sensor and reading. -/
def State.hottest (s : State) (l : List Nat) : Option (Nat × Int) :=
  l.foldl (fun (b : Option (Nat × Int)) n => match s.temp n, b with
    | none, _ => b
    | some t, none => some (n, t)
    | some t, some x => if x.2 < t then some (n, t) else b) none

/-- Die temperature and its sensor. -/
def State.dieHot (s : State) (d : Nat) : Option (Nat × Int) := s.hottest (dieSensors d)

/-- Whole degrees of a reading, rounded down (DEDUCED, log entry 30). -/
def degC (t : Int) : Int := t / 4

def byteOfInt (x : Int) : Nat := (BitVec.ofInt 8 x).toNat

/-- A field that holds a signed byte. -/
def signedByte (v : Nat) : Int := toSigned 8 (v % 256)

/-- THROTTLE_START of a die, °C. -/
def State.startOf (s : State) (d : Nat) : Nat := if d < 2 then s.fld THM_LIMITS_START_BASE else s.fld THM_LIMITS_START_DRAM

/-- Throttle target of a die (R442). -/
def State.throttleTarget (s : State) (d : Nat) : Nat :=
  if (s.die d).critHold then s.fld THM_THROTTLE_CFG_FLOOR
  else match s.dieHot d with
    | none => 100
    | some (_, t) =>
      let excess := (t - 4 * (s.startOf d : Int)).toNat
      if excess = 0 then 100 else max (s.fld THM_THROTTLE_CFG_FLOOR) (100 - (s.fld THM_THROTTLE_CFG_GAIN * excess + 3) / 4)

/-- A die takes a new fraction; events 0x20 and 0x21 mark the ends of throttling (R443). -/
def State.setFraction (s : State) (d f : Nat) : State :=
  let x := s.die d
  let t := s.setDie d { x with fraction := f, throttled := decide (f < 100) }
  let (n, c) := (s.dieHot d).getD (0, 0)
  if !x.throttled && decide (f < 100) then t.event 0x20 1 n (i32 (degC c)) f
  else if x.throttled && decide (100 ≤ f) then t.event 0x21 0 n (i32 (degC c)) 100
  else t

/-! ## Views -/

/-- Some reading of the die is at or above CRIT. -/
def State.dieCrit (s : State) (d : Nat) : Bool := (dieSensors d).any fun n => match s.temp n with
  | some t => decide (4 * (s.fld THM_LIMITS_CRIT : Int) ≤ t)
  | none => false

/-- THM_LAYER[L] (Table 20.11). -/
def State.thmLayer (s : State) (d : Nat) : Nat :=
  if s.nDies ≤ d then 0
  else
    let (n, c) := (s.dieHot d).getD (0, 0)
    byteOfInt (degC c) * 2 ^ 24 + (s.die d).fraction * 2 ^ 16 + n * 2 ^ 8 + b2n (s.dieCrit d) * 2 + b2n (decide ((s.die d).fraction < 100))

/-- THM_SENSOR[n] (Table 20.10). -/
def State.thmSensor (s : State) (n : Nat) : Nat :=
  let x := s.sensor n
  let mx := (match x.maxC with
    | some m => byteOfInt m
    | none => 0x80) * 2 ^ 16
  if s.nSensors ≤ n || !s.thm.sampling then 3 * 2 ^ 30 + mx
  else (if x.broken then (if s.variant = 0x96 ∨ (s.workingOf (s.neighbours n)).isEmpty then 1 else 2) else 0) * 2 ^ 30 + mx + (BitVec.ofInt 12 x.reading).toNat

/-- THM_STATUS (Table 20.9). -/
def State.thmStatus (s : State) : Nat :=
  let all := List.range s.nSensors
  let (n, c) := (s.hottest all).getD (0, 0)
  b2n s.thm.tripped * 2 ^ 31 + b2n ((List.range s.nDies).any s.dieCrit) * 2 ^ 30
    + b2n ((List.range s.nDies).any fun d => decide ((s.die d).fraction < 100)) * 2 ^ 29
    + b2n (all.any fun i => s.works i && decide ((s.sensor i).reading < 4 * signedByte (s.fld THM_LOW_LOW_WARN))) * 2 ^ 28
    + (all.filter fun i => (s.sensor i).broken).length * 2 ^ 16 + n * 2 ^ 8 + byteOfInt (degC c)

/-! ## Limits (R445) -/

/-- The three values lie in the ranges of R445. -/
def limitsOk (lim low thr : Nat) : Bool :=
  let trip := bitsOf lim 31 24
  let crit := bitsOf lim 23 16
  let start := fun v => decide (50 ≤ v) && decide (v + 5 ≤ crit)
  let warn := signedByte (bitsOf low 15 8)
  let stop := signedByte (bitsOf low 7 0)
  decide (80 ≤ trip) && decide (trip ≤ 115) && decide (70 ≤ crit) && decide (crit + 3 ≤ trip)
    && start (bitsOf lim 15 8) && start (bitsOf lim 7 0)
    && decide (-20 ≤ warn) && decide (warn ≤ 30) && decide (-40 ≤ stop) && decide (stop ≤ warn - 2) && bitsOf low 31 16 == 0
    && bitsOf thr 31 24 == 0 && decide (bitsOf thr 23 16 ≤ 20) && decide (10 ≤ bitsOf thr 15 8) && decide (bitsOf thr 15 8 ≤ 50)
    && decide (2 ≤ bitsOf thr 7 0) && decide (bitsOf thr 7 0 ≤ 25)

/-- The three values take effect; event 0x25 marks a change. -/
def State.setLimits (s : State) (lim low thr : Nat) : State :=
  let same := s.fld THM_LIMITS == lim && s.fld THM_LOW == low && s.fld THM_THROTTLE_CFG == thr
  let t := s.sets [(THM_LIMITS, lim), (THM_LOW, low), (THM_THROTTLE_CFG, thr)]
  if same then t else t.event 0x25 1 0 lim thr

end Sys2Proof.Machine
end

