-- ==== Sys2Proof/Machine/FuseStore.lean ====
section
/-! DEFINITION. The fuse store (05_fuse_store.md): the array and its regions (R89 to R93), sensing in P1 (R94 to R99), the
programming window (R100) and the OTP commands (R101 to R108). -/

namespace Sys2Proof.Machine

set_option Elab.async false

/-! ## Regions (Table 5.1) -/

/-- First row, number of rows, and whether each row is a segment. -/
def regionRows (i : Nat) : Nat × Nat × Bool :=
  match i with
  | 0 => (0, 4, false)
  | 1 => (4, 3, false)
  | 2 => (7, 32, false)
  | 3 => (39, 360, true)
  | 4 => (399, 32, true)
  | 5 => (431, 32, true)
  | 6 => (463, 16, false)
  | 7 => (479, 32, true)
  | _ => (511, 1, true)

def rowsOf (i : Nat) : List Nat := (List.range (regionRows i).2.1).map (· + (regionRows i).1)

/-- Region of a logical row. -/
def regionOf (row : Nat) : Nat := ((List.range 8).find? fun i => decide (row < (regionRows i).1 + (regionRows i).2.1)).getD 8

/-- One byte of the CRC-16 of R91, most significant bit first. -/
def crc16Byte (r : Nat) (b : Nat) : Nat :=
  [7, 6, 5, 4, 3, 2, 1, 0].foldl (fun x i => if bitAt x 15 != bitAt b i then ((2 * x) % 65536) ^^^ 0x1021 else (2 * x) % 65536) r

def crc16 (l : List Nat) : Nat := l.foldl crc16Byte 0xFFFF

/-- Check word of a segment's rows. -/
def checkWord (rows : List Nat) : Nat :=
  let bytes := rows.flatMap fun v => (List.range 16).map fun b => v / 256 ^ b % 256
  crc16 (bytes.take (bytes.length - 2))

/-- Lock pattern of a region (R93). -/
def lockPattern (i : Nat) : Nat := crc16 [0x4C, i]

/-! ## Reading rows -/

def State.cell (s : State) (phys : Nat) : FuseRow := mgetD s.fuse.rows phys {}

/-- Physical row of a logical row through a redirection table (R95): the highest entry wins. -/
def physRow (redir : List (Nat × Nat)) (row : Nat) : Nat :=
  match (redir.filter fun e => e.2 == row).getLast? with
  | some e => 512 + e.1
  | none => row

/-- Some bit of the row is not solid (R94). -/
def FuseRow.marginal (r : FuseRow) : Bool := r.lo != r.no || r.no != r.hi

/-- Bits that read 1 solidly, and 0 solidly. -/
def FuseRow.one (r : FuseRow) : BitVec 128 := r.lo &&& r.no &&& r.hi
def FuseRow.zero (r : FuseRow) : BitVec 128 := ~~~(r.lo ||| r.no ||| r.hi)

/-- Bit-by-bit vote of three copies read solidly: the value, and the bits that have none. -/
def vote3 (a b c : FuseRow) : BitVec 128 × BitVec 128 :=
  let one := (a.one &&& b.one) ||| (a.one &&& c.one) ||| (b.one &&& c.one)
  let zero := (a.zero &&& b.zero) ||| (a.zero &&& c.zero) ||| (b.zero &&& c.zero)
  (one, ~~~(one ||| zero))

/-- Bits of three copies that are not all solid and equal. -/
def disagree3 (a b c : FuseRow) : BitVec 128 := ~~~((a.one &&& b.one &&& c.one) ||| (a.zero &&& b.zero &&& c.zero))

/-- The redirection table as voted (R95); two rows hold a copy, eight entries a row (log entry 31). -/
def State.voteRedir (s : State) : List (Nat × Nat) :=
  (List.range 16).filterMap fun n =>
    let (v, bad) := vote3 (s.cell (528 + n / 8)) (s.cell (530 + n / 8)) (s.cell (532 + n / 8))
    let e := v.toNat / 2 ^ (16 * (n % 8)) % 65536
    let b := bad.toNat / 2 ^ (16 * (n % 8)) % 65536
    if b = 0 ∧ bitAt e 15 then some (n, e % 512) else none

/-! ## Segments and regions -/

inductive SegSt | empty | opened | checked | marginal | badCheck
  deriving DecidableEq, Repr

/-- State of a segment of rows (R92). -/
def State.segState (s : State) (redir : List (Nat × Nat)) (rows : List Nat) : SegSt :=
  let cells := rows.map fun r => s.cell (physRow redir r)
  let vals := cells.map fun c => c.no.toNat
  let last := vals.getLast?.getD 0
  if cells.any FuseRow.marginal then .marginal
  else if vals.all (· == 0) then .empty
  else if !bitAt last 111 then .opened
  else if bitsOf last 127 112 = checkWord vals then .checked
  else .badCheck

/-- Segments of a region. -/
def segments (i : Nat) : List (List Nat) := if (regionRows i).2.2 then (rowsOf i).map fun r => [r] else [rowsOf i]

/-- Lock word of a region: 0 unlocked, 1 locked, 2 failed (R93). -/
def State.lockOf (s : State) (redir : List (Nat × Nat)) (i : Nat) : Nat :=
  let c := s.cell (physRow redir 511)
  if i ≥ 8 then 0
  else if c.marginal then 1
  else
    let w := c.no.toNat / 2 ^ (16 * i) % 65536
    if w = 0 then 0 else if w = lockPattern i then 1 else 2

/-- Status code of a region (Table 5.9, R107). A marginal segment shows FAILED_MARGINAL in a locked region too (R96). LOCKS, which
holds no check word and is never locked, reads EMPTY, FAILED_MARGINAL or else OPEN (DESIGN CHOICE, log entry 78). -/
def State.regionCode (s : State) (redir : List (Nat × Nat)) (i : Nat) : Nat :=
  let segs := (segments i).map (s.segState redir)
  let lock := s.lockOf redir i
  if i = 8 then (if segs.contains .marginal then 4 else if segs.contains .empty then 0 else 1)
  else if lock = 2 || (lock == 1 && segs.any fun x => x != .empty && x != .checked && x != .marginal) then 6
  else if segs.contains .badCheck then 5
  else if segs.contains .marginal then 4
  else if lock = 1 then 3
  else if segs.contains .opened then 1
  else if segs.contains .checked then 2
  else 0

/-- Rows of a region that are applied (R92, Table 5.4). -/
def State.appliedRows (s : State) (redir : List (Nat × Nat)) (i : Nat) : List Nat :=
  let good := (segments i).filter fun g => s.segState redir g == .checked
  if i = 7 && decide (4 ≤ s.regionCode redir 7) then []
  else if !(regionRows i).2.2 && s.regionCode redir i == 6 then []
  else good.flatten

/-- The region passed integrity at the last sense (R92): a region of one segment only if that segment was CHECKED, and so applied. -/
def State.regionOk (s : State) (i : Nat) : Bool :=
  if (regionRows i).2.2 then decide (s.fld OTP_REGION_STATUS / 2 ^ (3 * i) % 8 < 4) else (mget s.fuse.applied (regionRows i).1).isSome

/-! ## The sense of P1 (R95 to R99) -/

/-- A critical wire of Table 5.3: width bits from `lo` of rows r, r + 1, r + 2, or its restrictive value. -/
def State.wire (s : State) (redir : List (Nat × Nat)) (r lo n dflt : Nat) : Nat :=
  let c := fun k => s.cell (physRow redir (r + k))
  let (v, bad) := vote3 (c 0) (c 1) (c 2)
  if bad.toNat / 2 ^ lo % 2 ^ n = 0 then v.toNat / 2 ^ lo % 2 ^ n else dflt

/-- Bits of the critical wires (Table 5.3) whose copies disagree. -/
def State.critDisagree (s : State) (redir : List (Nat × Nat)) : Nat :=
  let d := fun r lo n => popN n ((disagree3 (s.cell (physRow redir r)) (s.cell (physRow redir (r + 1))) (s.cell (physRow redir (r + 2)))).toNat / 2 ^ lo)
  d 4 0 10 + d 7 0 7 + d 7 8 7

/-- A row as one start senses it (R94, R96). A cell whose current lies between the strict references reads by the temperature of that
start, which is open; any other cell reads the same at every start. -/
def FuseRow.drift (r : FuseRow) (f : Nat → BitVec 128) : FuseRow :=
  let w := r.sl &&& ~~~r.sh
  let hi := r.sh ||| (w &&& f 0)
  let no := hi ||| (w &&& f 1)
  { r with hi := hi, no := no, lo := no ||| (w &&& f 2) }

/-- Every row with such a cell is sensed afresh. -/
def State.driftRows (s : State) : State :=
  s.each (s.fuse.rows.filter fun e => e.2.sl != e.2.sh) fun t e =>
    { t with free := t.free + 3, fuse := { t.fuse with rows := mput e.1 (e.2.drift fun i => Config.freeMask (t.free + i)) t.fuse.rows } }

/-- Variant of a code (R98). -/
def variantOf (v : Nat) : Nat := if v = 0x96 ∨ v = 0x72 then v else 0x48

/-- MECH_PROFILE default (R265). -/
def State.mechDefault (s : State) : Nat := if s.regionOk 2 && s.k48 then 1 else 3

/-- The store is sensed: wires, rows, statuses and the registers that show them. -/
def State.senseFuses (s0 : State) : State :=
  let s := s0.driftRows
  let redir := s.voteRedir
  let code := (List.range 9).foldl (fun a i => a + s.regionCode redir i * 2 ^ (3 * i)) 0
  let app := ((List.range 8).flatMap (s.appliedRows redir)).map fun r => (r, (s.cell (physRow redir r)).no)
  let solid := (List.range 512).filterMap fun r =>
    let c := s.cell (physRow redir r)
    if c.one = 0 then none else some (r, c.one)
  let marg := (s.fuse.rows.filter fun e => decide (e.1 < 528) && e.2.marginal).length
  let failed := ((List.range 8).flatMap segments).filter fun g => s.segState redir g == .marginal || s.segState redir g == .badCheck
  let locks := maskOf ((List.range 8).filter fun i => s.lockOf redir i != 0)
  let f := { s.fuse with redir := redir, applied := app, sensed := solid, failedRows := failed.flatten, locked := BitVec.ofNat 8 locks, variantCode := BitVec.ofNat 8 (variantOf (s.wire redir 4 0 8 0x48)), debugLock := s.wire redir 4 8 1 1 == 1, slowTrim := BitVec.ofNat 7 (s.wire redir 7 0 7 0x40), frcTrim := BitVec.ofNat 7 (s.wire redir 7 8 7 0x40) }
  let t := ({ s with fuse := f }).sets [(OTP_REGION_STATUS, code), (OTP_MARGINAL_WORDS, marg), (OTP_CRIT_DISAGREE, s.critDisagree redir), (OTP_STATUS_SPARES_USED, redir.length)]
  t.sets ((List.range 128).map fun n => (OTP_CUST n, ((mgetD app (479 + n / 4) 0).toNat / 2 ^ (32 * (n % 4))) % 2 ^ 32))

/-- Regions with a segment that is marginal, and regions FAILED_LOCKED (EVENT 0x03 and 0x04). -/
def State.fuseEvents (s : State) : State :=
  let marg := (List.range 9).filter fun i => (segments i).any fun g => s.segState s.fuse.redir g == .marginal
  let bad := (List.range 8).filter fun i => s.fld OTP_REGION_STATUS / 2 ^ (3 * i) % 8 == 6
  let t := s.each marg fun t i => t.event 0x03 2 i (t.fld OTP_MARGINAL_WORDS) 0
  t.each bad fun t i => t.event 0x04 3 i (t.fld OTP_REGION_STATUS) 0

/-- FAILED_LOCKED regions raise OTP_LOCKED (R107) once the collector runs. -/
def State.fuseFaults (s : State) : State :=
  let bad := (List.range 8).filter fun i => s.fld OTP_REGION_STATUS / 2 ^ (3 * i) % 8 == 6
  s.each bad fun t i => t.raiseRec .otpLocked 0 i

/-- Unique ID (IDENT) and crystal frequency (Table 5.5). -/
def State.uid (s : State) : Nat := if s.regionOk 0 then (s.fuseRow 0).toNat % 2 ^ 64 else 2 ^ 64 - 1
def State.xtalKhz (s : State) : Nat :=
  let v := (s.fuseRow 479).toNat % 65536
  if 25000 ≤ v ∧ v ≤ 50000 then v else 25000

/-! ## The window (R100) -/

/-- Every working sensor reads from 0 °C to 85 °C. -/
def State.tempsInWindow (s : State) : Bool := (s.workingOf (List.range s.nSensors)).all fun t => decide (0 ≤ t) && decide (t ≤ 340)

def State.progWindowOk (s : State) : Bool :=
  s.rails.vfuse && !s.locked && ((decide (3 ≤ s.phase) && decide (s.phase ≤ 8)) || s.phase == 0xA) && s.tempsInWindow

/-- A command ends with a result. -/
def State.otpEnd (s : State) (op result : Nat) : State :=
  ({ s with fuse := { s.fuse with run := none } }).sets [(OTP_STATUS_BUSY, 0), (OTP_STATUS_LAST_OP, op), (OTP_STATUS_RESULT, result)]

/-- Blow cells of a physical row: `m` are the cells pulsed, the masks tell which of them then conduct above each reference. -/
def State.blow (s : State) (phys : Nat) (m sl lo no hi sh : BitVec 128) : State :=
  let r := s.cell phys
  { s with fuse := { s.fuse with rows := mput phys { sl := r.sl ||| (m &&& sl), lo := r.lo ||| (m &&& lo), no := r.no ||| (m &&& no), hi := r.hi ||| (m &&& hi), sh := r.sh ||| (m &&& sh) } s.fuse.rows } }

/-- A pulse train cut off: which cells it has reached is open (R102). -/
def State.blowPart (s : State) (phys : Nat) (m : BitVec 128) : State :=
  let f := fun i => Config.freeMask (s.free + i)
  let sh := f 0
  let hi := sh ||| f 1
  let no := hi ||| f 2
  let lo := no ||| f 3
  ({ s with free := s.free + 5 }).blow phys m (lo ||| f 4) lo no hi sh

/-- Lowest spare that is not in use: no copy of its entry and no cell of its row reads 1; a spare with a blown cell and no entry is
passed over (DESIGN CHOICE, log entry 78). -/
def State.freeSpareRow (s : State) : Option Nat :=
  (List.range 16).find? fun n =>
    (s.cell (512 + n)).no == 0 && [0, 2, 4].all fun k => ((s.cell (528 + k + n / 8)).no.toNat / 2 ^ (16 * (n % 8)) % 65536) == 0

/-- Cells that the running command pulses: its physical row and mask. -/
def State.otpPulses (s : State) (r : OtpRun) : Option (Nat × BitVec 128) :=
  let phys := physRow s.fuse.redir r.row
  match r.op with
  | 4 => some (phys, r.data)
  | 5 => some (phys, BitVec.ofNat 128 (2 ^ r.bit))
  | 6 => s.freeSpareRow.map fun n => (512 + n, r.data ||| (s.cell phys).one)
  | 7 => some (physRow s.fuse.redir 511, BitVec.ofNat 128 (lockPattern r.region * 2 ^ (16 * r.region)))
  | _ => none

/-- The Sett records a top-up of a bit (R104, EVENT 0x05). -/
def State.toppedUp (s : State) (row bit result : Nat) : State :=
  ({ s with sett := { s.sett with topUps := (row * 128 + bit) :: s.sett.topUps } }).event 0x05 1 row bit result

/-- A running command is cut off by a reset or an abort: a top-up under way counts as the bit's one (R104). -/
def State.otpCut (s : State) : State :=
  match s.fuse.run with
  | none => s
  | some r =>
    let t := { s with fuse := { s.fuse with run := none } }
    let t := if r.op = 5 ∧ r.early = none then t.toppedUp r.row r.bit 6 else t
    match r.early, s.otpPulses r with
    | none, some (p, m) => t.blowPart p m
    | _, _ => t

/-- The window closes; `abort` where the cause ends a running command with ABORTED. -/
def State.closeWindow (s : State) (abort : Bool) : State :=
  if !s.on OTP_STATUS_WINDOW then s
  else
    let t := s.set OTP_STATUS_WINDOW 0
    match t.fuse.run with
    | some r => if abort then t.otpCut.otpEnd r.op 6 else t
    | none => t

/-- VFUSE_LOST (R102). -/
def execVfuseLost (s : State) : Out := .next (({ s with rails := { s.rails with vfuse := false } }).closeWindow true)

/-- WINDOW_TIMEOUT (R100): 600 s after opening; a running command completes. -/
def execWindowTimeout (s : State) : Out := .next (s.closeWindow false)

/-! ## OTP commands -/

/-- Did the last sense find the region locked (R93, R103)? -/
def State.regionLocked (s : State) (i : Nat) : Bool := decide (i < 8) && s.fuse.locked.getLsbD i

/-- FAILED_LOCKED regions, by their lock words' bits in LOCKS: no command alters them (R107). -/
def State.deadLocks (s : State) : BitVec 128 :=
  BitVec.ofNat 128 (((List.range 8).filter fun i => s.fld OTP_REGION_STATUS / 2 ^ (3 * i) % 8 == 6).foldl (fun a i => a + 0xFFFF * 2 ^ (16 * i)) 0)

/-- Every bit of the rows reads its value at the strict references. -/
def State.strictOk (s : State) (rows : List Nat) : Bool :=
  rows.all fun r => let c := s.cell (physRow s.fuse.redir r); c.sl == c.no && c.sh == c.no

/-- The row reads a target at the strict references. -/
def FuseRow.verifies (r : FuseRow) (target : BitVec 128) : Bool := r.sh == target && r.sl == target

/-- Refusals that an accepted command ends with, decided at acceptance (R104 to R107): RESULT code. VERIFY_REGION of region 8 checks
LOCKS, and of a higher number ends RANGE as LOCK_REGION does (DESIGN CHOICE, log entry 78). -/
def State.otpEarly (s : State) (r : OtpRun) : Option Nat :=
  let reg := regionOf r.row
  let c := s.cell (physRow s.fuse.redir r.row)
  let failed := s.fld OTP_REGION_STATUS / 2 ^ (3 * reg) % 8 == 6
  match r.op with
  | 4 => if s.regionLocked reg || (r.row == 511 && (r.data &&& ~~~c.no &&& s.deadLocks) != 0) then some 5 else none
  | 5 =>
    if s.regionLocked reg || (r.row == 511 && s.deadLocks.getLsbD r.bit) then some 5
    else if !c.lo.getLsbD r.bit || (c.sl.getLsbD r.bit && c.sh.getLsbD r.bit) || s.sett.topUps.contains (r.row * 128 + r.bit) then some 4 else none
  | 6 =>
    if failed || (r.row == 511 && ((r.data ||| c.one) &&& s.deadLocks) != (mgetD s.fuse.sensed r.row 0 &&& s.deadLocks)) then some 5
    else if s.freeSpareRow.isNone then some 3
    else if s.regionLocked reg && (r.data ||| c.one) != mgetD s.fuse.sensed r.row 0 then some 5 else none
  | 7 =>
    if 8 ≤ r.region then some 7
    else if s.fld OTP_REGION_STATUS / 2 ^ (3 * r.region) % 8 = 6 then some 2
    else
      let segs := (segments r.region).map (s.segState s.fuse.redir)
      let must := r.region == 0 || r.region == 1 || r.region == 2 || r.region == 6
      if segs.all (fun x => x == .checked || (!must && x == .empty)) && s.strictOk (rowsOf r.region) then none else some 2
  | 8 => if 9 ≤ r.region then some 7 else none
  | _ => none

/-- A write of OTP_CMD (R100, R101): refused with STATE, or accepted. CLOSE_WINDOW is taken while a command runs, which it ends with
ABORTED (R102; log entry 78). A REDIRECT_ROW that ends with ROW_LOCKED is counted as PROGRAM_ROW and TOPUP_BIT are (DESIGN CHOICE, log
entry 78). -/
def State.otpWrite (s : State) (v : Nat) : BitVec 8 × State :=
  let op := bitsOf v 31 28
  let no := (stSTATE, s.viol OTP_CMD.off .state)
  if s.on OTP_STATUS_BUSY then (if op = 2 ∧ s.on OTP_STATUS_WINDOW then (stOK, s.closeWindow true) else no)
  else if op = 1 then
    (if s.fld (OTP_DATA 0) == 0x5E7A1F05 && s.progWindowOk then (stOK, (s.set OTP_STATUS_WINDOW 1).otpEnd 1 0) else no)
  else if op ≠ 3 && !s.on OTP_STATUS_WINDOW then no
  else if op = 2 then (stOK, (s.closeWindow false).otpEnd 2 0)
  else
    let d := (List.range 4).foldl (fun a k => a + s.fld (OTP_DATA k) * 2 ^ (32 * k)) 0
    let r : OtpRun := { op := op, row := bitsOf v 8 0, bit := bitsOf v 21 15, region := bitsOf v 27 24, margin := bitsOf v 23 22, data := BitVec.ofNat 128 d }
    let r1 := { r with early := s.otpEarly r }
    let t := if r1.early = some 2 ∨ r1.early = some 5 then s.viol OTP_CMD.off .state else s
    (stOK, ({ t with fuse := { t.fuse with run := some r1 } }).set OTP_STATUS_BUSY 1)

/-- OTP_CMD_DONE (R102 to R108): the running command ends. SPARES_USED, at P1 the number of valid entries, rises with every
REDIRECT_ROW, whether or not its spare verifies (DESIGN CHOICE, log entry 78). -/
def execOtpCmdDone (sl lo no hi sh : BitVec 128) (s : State) : Out :=
  match s.fuse.run with
  | none => .next s
  | some r =>
    match r.early with
    | some e => .next (s.otpEnd r.op e)
    | none =>
      let phys := physRow s.fuse.redir r.row
      let c := s.cell phys
      let res := fun (ok : Bool) => if ok then 0 else 1
      match r.op with
      | 3 =>
        let open_ := Config.freeMask s.free
        let v := if r.margin = 0 then c.lo else if r.margin = 1 then c.no else if r.margin = 2 then c.hi else c.sh ||| (c.sl &&& ~~~c.sh &&& open_)
        let t := if r.margin = 3 then { s with free := s.free + 1 } else s
        .next ((t.sets ((List.range 4).map fun k => (OTP_DATA k, v.toNat / 2 ^ (32 * k) % 2 ^ 32))).otpEnd 3 0)
      | 4 =>
        let t := s.blow phys r.data sl lo no hi sh
        .next (t.otpEnd 4 (res ((t.cell phys).verifies (c.no ||| r.data))))
      | 5 =>
        let t := s.blow phys (BitVec.ofNat 128 (2 ^ r.bit)) sl lo no hi sh
        let q := res ((t.cell phys).verifies (c.no ||| BitVec.ofNat 128 (2 ^ r.bit)))
        .next ((t.toppedUp r.row r.bit q).otpEnd 5 q)
      | 6 =>
        match s.freeSpareRow with
        | none => .next (s.otpEnd 6 3)
        | some n =>
          let target := r.data ||| c.one
          let t := s.blow (512 + n) target sl lo no hi sh
          let q := res ((t.cell (512 + n)).verifies target)
          let e := BitVec.ofNat 128 ((0x8000 + r.row) * 2 ^ (16 * (n % 8)))
          let u := t.each [528, 530, 532] fun x b => x.blow (b + n / 8) e sl lo no hi sh
          .next ((u.set OTP_STATUS_SPARES_USED (s.fld OTP_STATUS_SPARES_USED + 1)).otpEnd 6 q)
      | 7 => .next ((s.blow (physRow s.fuse.redir 511) (BitVec.ofNat 128 (lockPattern r.region * 2 ^ (16 * r.region))) sl lo no hi sh).otpEnd 7 0)
      | 8 => .next (s.otpEnd 8 (res (s.strictOk (rowsOf r.region))))
      | op => .next (s.otpEnd op 0)

end Sys2Proof.Machine
end

