-- ==== Sys2Proof/Machine/Vertical.lean ====
section
/-! DEFINITION. The commands of the vertical coupling (12_vertical_coupling.md): boundaries, forced recalibration, heartbeat
loss, and the recovery of a silent layer. -/

namespace Sys2Proof.Machine

set_option Elab.async false

/-- A column that is present and in service. -/
def State.colOn (s : State) (c : Nat) : Bool :=
  decide (c < s.nChans) && (s.fld (VCP_COL_STATUS_MODE c) == 1 || s.fld (VCP_COL_STATUS_MODE c) == 2)

/-- COUPLING_BOUNDARY (R262). -/
def execCouplingBoundary (c : BitVec 5) (m : Tap) (s : State) : Out :=
  if s.live && s.colOn c.toNat then .next (s.boundary c.toNat m).settle else .next s

/-- COUPLING_BOUNDARY_FORCED (R262): the column is held for 4 CHN cycles, which is a boundary. The command brings no
finding, so which way a setting or the command offset moves is open. -/
def execCouplingBoundaryForced (c : BitVec 5) (s : State) : Out :=
  if s.live && s.colOn c.toNat then
    let f := fun i => Config.freeNat (s.free + i)
    let cmd := if f 1 % 3 = 0 then none else some (f 1 % 3 == 1)
    .next ((({ s with free := s.free + 2 } : State).boundary c.toNat { up := f 0 % 2 == 1, cmd := cmd }).settle)
  else .next s

/-! ## Forced recalibration (R264) -/

/-- A forced recalibration of a column falls due. -/
def State.recalDue (s : State) (c : Nat) : State := if s.colOn c then s.setCol c { s.col c with recalDue := true } else s

def State.recalsRunning (s : State) : Nat := ((List.range 32).filter fun c => (s.col c).recal).length

/-- FORCED_RECAL (R264): a due recalibration starts, on at most 4 columns at once. -/
def execForcedRecal (c : BitVec 5) (s : State) : Out :=
  let k := s.col c.toNat
  if s.awake && s.colOn c.toNat && k.recalDue && !k.recal && decide (s.recalsRunning < 4) then
    .next ((s.setCol c.toNat { k with recal := true, recalDue := false, recAt := 0 }).inc VCP_RECAL_FORCED)
  else .next s

/-- FORCED_RECAL_DONE (R264): steps 5 and 6 of Table 12.2 have run again from the present codes, and requests resume; after S3 the channel
leaves self-refresh now (R85). -/
def execForcedRecalDone (c : BitVec 5) (found : List CoilCal) (s : State) : Out :=
  let n := c.toNat
  if (s.col n).recal then
    .next ((((s.setCol n { s.col n with recal := false }).recalibrate n found).when (decide (s.sleep < 2)) (State.channelUp · n)).settle)
  else .next s

/-! ## Heartbeats (R258, R259) -/

/-- LAYER_HB_LOSS (R258): the layer precharges, enters self-refresh and sets RETAINED. -/
def execLayerHbLoss (c : BitVec 5) (s : State) : Out :=
  let n := c.toNat
  let k := s.chn n
  let l := layerOf n
  if decide (n < s.nChans) && s.rails.vdram && s.rails.vpp && !k.srHeld then
    let t := s.cutBursts n
    let t := t.setChn n { t.chn n with srHeld := true }
    let u := { t with start := { t.start with retained := BitVec.ofNat 16 (putBit t.start.retained.toNat (l - 2) true) } }
    .next ((u.set (VCP_LAYER_STATUS_HB_LOST (l - 2)) 1).incSat (VCP_LAYER_STATUS_HB_LOSS_COUNT (l - 2)))
  else .next s

/-- Both channels of a layer have their heartbeat and have left self-refresh: HB_LOST reads 0. -/
def State.clearHbLost (s : State) (l : Nat) : State :=
  if [2 * (l - 2), 2 * (l - 2) + 1].all (fun c => (s.chn c).heartbeat && !(s.chn c).srHeld) then s.set (VCP_LAYER_STATUS_HB_LOST (l - 2)) 0 else s

/-- EXIT_SR (R259): after 64 good words the layer leaves the self-refresh that heartbeat loss began. -/
def execExitSr (c : BitVec 5) (s : State) : Out :=
  let n := c.toNat
  let k := s.chn n
  if decide (n < s.nChans) && k.srHeld && k.heartbeat && s.live then .next ((s.setChn n { k with srHeld := false }).clearHbLost (layerOf n)) else .next s

/-! ## Silent layers (R260, R261) -/

/-- An active DRAM layer. -/
def State.layerOn (s : State) (l : Nat) : Bool := decide (2 ≤ l) && decide (l ≤ s.topLayer)

/-- The two channels of a layer. -/
def layerChans (l : Nat) : List Nat := [2 * (l - 2), 2 * (l - 2) + 1]

/-- The lock bit of a layer's PLL. -/
def State.setLyrLock (s : State) (l : Nat) (b : Bool) : State :=
  s.sets [(CLK_PLL_STATUS_LYR_LOCK, putBit (s.fld CLK_PLL_STATUS_LYR_LOCK) (l - 2) b), (VCP_LAYER_STATUS_PLL_LOCK (l - 2), b2n b)]

/-- Step 1 of R260: heartbeats stop, the queues are held, and a fault of class D is raised. HB_LOST shows it. -/
def State.silence (s : State) (l : Nat) (pll : Bool) : State :=
  let s := if pll && s.layerOn l then s.setLyrLock l false else s
  if !s.layerOn l || (mget s.vcp.silent l).isSome || (layerChans l).all s.chanOut then s
  else
    let t := (s.each (layerChans l) fun t c => t.setChn c { t.chn c with heartbeat := false }).set (VCP_LAYER_STATUS_HB_LOST (l - 2)) 1
    let u := { t with vcp := { t.vcp with silent := mput l 0 t.vcp.silent } }
    u.raise .layerSilent l 0

/-- LAYER_SILENT (R260). -/
def execLayerSilent (layer : BitVec 5) (pll : Bool) (s : State) : Out :=
  if s.live && decide (5 ≤ s.phase) then .next (s.silence layer.toNat pll) else .next s

/-- LAYER_RELOCK_ATTEMPT (R260 steps 2 and 3): lock ends the recovery with both columns recalibrated, a third failure fences both
channels. -/
def execLayerRelockAttempt (layer : BitVec 5) (found : Option (List CoilCal)) (s : State) : Out :=
  let l := layer.toNat
  match mget s.vcp.silent l with
  | none => .next s
  | some n =>
    let gone := fun (t : State) => { t with vcp := { t.vcp with silent := merase l t.vcp.silent } }
    match found with
    | some cal =>
      let t := (gone s).each (layerChans l) fun t c =>
        if t.on (CHAN_STATUS_FENCED c) then t else (t.setChn c { t.chn c with heartbeat := true }).recalibrate c cal
      .next (((t.setLyrLock l true).inc VCP_LYR_RELOCKS).clearHbLost l).settle
    | none =>
      if n + 1 < 3 then .next { s with vcp := { s.vcp with silent := mput l (n + 1) s.vcp.silent } }
      else .next ((((gone s).each (layerChans l) fun t c => t.fenceChannel c 5)).settle)

/-- LAYER_DISCOVERY_TIMEOUT (R261, Table 12.2 step 3). -/
def execLayerDiscoveryTimeout (layer : BitVec 5) (s : State) : Out :=
  let l := layer.toNat
  if s.phase = 4 ∧ s.layerOn l ∧ !s.on (VCP_LAYER_STATUS_DISCOVERED (l - 2)) then
    .next ((s.each (layerChans l) fun t c => t.fenceChannel c 4).settle)
  else .next s

end Sys2Proof.Machine
end

