-- ==== Sys2Proof/Machine/ThermalCmds.lean ====
section
/-! DEFINITION. The thermal commands (20_thermal.md): samples and their judgement (R438 to R442), the throttle ramp, THERMAL_TRIP
and THM_SET. -/

namespace Sys2Proof.Machine

set_option Elab.async false

/-- A converter result that counts as one (R439). -/
def resultOk (t : Option Int) : Option Int := t.filter fun x => decide (-160 ≤ x) && decide (x ≤ 600)

/-- A sensor takes its sample (R439): a missing result leaves the reading in use. -/
def takeSample (x : Sensor) (t : Option Int) : Sensor :=
  if x.broken then x
  else match resultOk t with
    | some v => { x with reading := v, has := true, noRes := 0 }
    | none => { x with noRes := x.noRes + 1 }

/-- Does the reading of a sensor differ from every working neighbour's by more than 20 °C? -/
def State.disagrees (s : State) (n : Nat) : Bool :=
  let ns := s.workingOf (s.neighbours n)
  s.works n && !ns.isEmpty && ns.all fun v => decide (80 < ((s.sensor n).reading - v).natAbs)

/-- Judge a sensor after a sample, `apart` from its working neighbours or not: is it broken now? -/
def State.judgeSensor (s : State) (n : Nat) (apart : Bool) : State :=
  let x := s.sensor n
  if x.broken then s
  else
    let dis := if apart then x.disagree + 1 else 0
    let bad := decide (4 ≤ x.noRes) || decide (10 ≤ dis)
    s.setSensor n { x with disagree := dis, broken := bad }

/-- Stand-in readings and maxima of a sensor. -/
def State.settleSensor (s : State) (n : Nat) : State :=
  let x := s.sensor n
  if x.broken || !x.has then s.setSensor n { x with reading := s.standIn n }
  else
    let c := degC x.reading
    s.setSensor n { x with maxC := some (match x.maxC with
      | some m => max m c
      | none => c) }

/-- A sensor has just broken: counter, event 0x23 and fault (R439, Table 20.3). -/
def State.sensorBroke (s : State) (n : Nat) (last : Int) : State :=
  ((s.inc THM_BROKEN).event 0x23 2 n (i32 last) (i32 (degC (s.sensor n).reading))).raiseRec .sensorBroken 0 n

/-- TRIP (R444). -/
def State.trip (s : State) (n : Nat) : State :=
  let t := { s with pins := { s.pins with thermtripLow := true }, thm := { s.thm with tripped := true } }
  ((t.raiseRec .trip 0 n).enterGrave)

/-- CRIT on one die: the hold at FLOOR and its end (Table 20.3). -/
def State.critDie (s : State) (d : Nat) : State :=
  let x := s.die d
  let crit : Int := 4 * s.fld THM_LIMITS_CRIT
  let ts := (dieSensors d).filterMap s.temp
  if ts.any fun t => decide (crit ≤ t) then
    (if x.critHold then s else (s.setDie d { x with critHold := true }).inc THM_CRIT_EVENTS)
  else if x.critHold && ts.all fun t => decide (t < crit - 8) then s.setDie d { x with critHold := false }
  else s

/-- One of the rearming thresholds over the working sensors: raise its fault when crossed and armed, arm it again when all
are past the margin. -/
def State.rearm (s : State) (armed : Bool) (crossed clear : Int → Bool) (fire : State → Nat → State) : Bool × State :=
  let ws := (List.range s.nSensors).filter s.works
  match ws.find? fun n => crossed (s.sensor n).reading with
  | some n => if armed then (false, fire s n) else (false, s)
  | none => (armed || ws.all fun n => clear (s.sensor n).reading, s)

/-- Thresholds of Table 20.3. -/
def State.thresholds (s : State) : State :=
  let crit : Int := 4 * s.fld THM_LIMITS_CRIT
  let warn := 4 * signedByte (s.fld THM_LOW_LOW_WARN)
  let stop := 4 * signedByte (s.fld THM_LOW_LOW_STOP)
  let s1 := s.each (List.range s.nDies) State.critDie
  -- CRIT arms again only after every reading, stand-in readings included, has fallen
  let allLow := (List.range s1.nSensors).all fun n => match s1.temp n with
    | some t => decide (t ≤ crit - 8)
    | none => true
  let (ca, s2) := s1.rearm s1.thm.critArmed (fun t => decide (crit ≤ t)) (fun _ => allLow) fun t n => t.raiseRec .crit 0 n
  let (wa, s3) := s2.rearm s2.thm.warnArmed (fun t => decide (t < warn)) (fun t => decide (warn + 8 ≤ t)) fun t n => t.raiseRec .lowWarn 0 n
  let serv := decide (5 ≤ s3.phase) && decide (s3.phase ≤ 8)
  let (sa, s4) := if serv then
      s3.rearm s3.thm.stopArmed (fun t => decide (t < stop)) (fun t => decide (stop + 12 ≤ t)) fun t n =>
        (t.raiseRec .lowStop 0 n).each (List.range t.nChans) State.recalDue
    else (s3.thm.stopArmed, s3)
  { s4 with thm := { s4.thm with critArmed := ca, warnArmed := wa, stopArmed := sa } }

/-- Fractions below their present value take effect at once (R442). -/
def State.throttleDown (s : State) : State :=
  s.each (List.range s.nDies) fun t d => if t.throttleTarget d < (t.die d).fraction then t.setFraction d (t.throttleTarget d) else t

/-- A column whose layer has moved by more than 20 °C since its full calibration is due for another (R264). -/
def State.recalMoved (s : State) (c : Nat) : State :=
  let moved := (List.zip (s.layerTemps (layerOf c)) (s.col c).calTemp).any fun p => decide (80 < (p.1 - p.2).natAbs)
  if moved && decide (5 ≤ s.phase) then s.recalDue c else s

/-- The working reading that has reached TRIP. -/
def State.tripped (s : State) : Option Nat :=
  (List.range s.nSensors).find? fun n => s.works n && decide (4 * (s.fld THM_LIMITS_TRIP : Int) ≤ (s.sensor n).reading)

/-- SENSOR_SAMPLE (R438): every sensor is sampled, in S2 and S3 those of the base and the Marl (R84); then thresholds and throttle
targets are judged. -/
def execSensorSample (t : List (Option Int)) (s : State) : Out :=
  if !s.live || s.phase == 0xB then .next s
  else
    let all := List.range (if 2 ≤ s.sleep then 20 else s.nSensors)
    let s0 := { s with thm := { s.thm with sampling := true } }
    -- every sensor reads 4 °C higher while TRIM has failed (Table 5.4)
    let add : Int := if s.regionOk 2 then 0 else 16
    let s1 := s0.each all fun u n => u.setSensor n (takeSample (u.sensor n) ((t.getD n none).map (· + add)))
    let s2 := s1.each all fun u n => u.judgeSensor n (s1.disagrees n)
    let broke := all.filter fun n => (s2.sensor n).broken && !(s1.sensor n).broken
    let s3 := s2.each all State.settleSensor
    let s4 := s3.each broke fun u n => u.sensorBroke n (s2.sensor n).reading
    let s5 := (s4.thresholds.throttleDown).each (List.range s4.nChans) State.recalMoved
    let s6 := if s5.tempsInWindow then s5 else s5.closeWindow true
    .next (match s6.tripped with
      | some n => (s6.trip n).settle
      | none => s6.settle)

/-- THROTTLE_RAMP (R442): each ms a fraction below its target rises by one point; the ms is counted (R446). -/
def execThrottleRamp (s : State) : Out :=
  let any := (List.range s.nDies).any fun d => decide ((s.die d).fraction < 100)
  let t := if any then s.incPair THM_THROTTLE_MS_LO 1 else s
  .next (if s.live then t.each (List.range t.nDies) fun u d =>
    if (u.die d).fraction < u.throttleTarget d then u.setFraction d ((u.die d).fraction + 1) else u else s)

/-- THERMAL_TRIP (R444): in every phase and power state. -/
def execThermalTrip (sensor : BitVec 7) (s : State) : Out :=
  if s.rails.vaon && decide (sensor.toNat < s.nSensors) then .next (s.trip sensor.toNat).settle else .next s

/-- THM_SET (0x4C, R445). -/
def execThmSet (s : State) : Out :=
  .next (s.startMgmt 0x4C fun t m =>
    let p := m.payload
    if decide (p.length < 16) || !zeroAt p 12 4 || !limitsOk (leAt p 0 4) (leAt p 4 4) (leAt p 8 4) then t.mgmtRefuse m.job stMALFORMED 0
    else (t.setLimits (leAt p 0 4) (leAt p 4 4) (leAt p 8 4)).mgmtDone m.job stOK [])

end Sys2Proof.Machine
end

