-- ==== Sys2Proof/Machine/RecorderCmds.lean ====
section
/-! DEFINITION. The commands of the recorder and of telemetry (19_recorder_telemetry.md): the bytes of the Sett (R419), log
writes and flushes, freeze and thaw (R427), REC_READ (R429), TELEM (R431 to R433). -/

namespace Sys2Proof.Machine

set_option Elab.async false

/-! ## The Sett as bytes (R419, R426, R397, R436) -/

def pageStCode : PageSt → Nat
  | .free => 0
  | .opened => 1
  | .full => 2
  | .retired => 3

/-- The 4 KiB of a log page (R426). -/
def pageBytes (p : LogPage) : List (BitVec 8) :=
  if p.st == .free then zeros 4096
  else slice (leBytes 4 p.seq.toNat ++ [BitVec.ofNat 8 p.sev, BitVec.ofNat 8 (pageStCode p.st)] ++ leBytes 2 (pageUsed p)
    ++ leBytes 4 ((p.recs.map fun (r : EvRec) => r.rseq.toNat).headD 0) ++ zeros 4 ++ p.recs.flatMap recBytes) 0 4096

/-- What the configuration area holds, as numbers. -/
def State.cfgContents (s : State) : List Nat :=
  let slot : SlotSt → Nat := fun
    | .empty => 0
    | .written => 1
    | .verified => 2
    | .failed => 3
  (match s.sett.snapshot with
    | none => []
    | some x => x.regs.flatMap (fun e => [e.1, e.2.toNat]) ++ [x.did.toNat, x.strap.toNat, x.variantCode.toNat, b2n x.crcOk])
  ++ (match s.sett.mapRec with
    | none => []
    | some x => [x.memCfg.toNat, x.groupState.toNat, x.variantCode.toNat, b2n x.crcOk])
  ++ [slot s.sett.slotA, slot s.sett.slotB, s.sett.active] ++ s.sett.rebuild.flatMap fun e => [e.1, e.2]

/-- One byte of the Sett. -/
def State.settByte (s : State) (a : Nat) : BitVec 8 :=
  if a < settLog then mgetD s.sett.fw a 0
  else if a < settSoft then (pageBytes (s.page ((a - settLog) / 4096))).getD (a % 4096) 0
  else if a < settCnt then
    match mget s.sett.softLog ((a - settSoft) / 16) with
    | some e => e.bytes.getD (a % 16) 0
    | none => 0
  else if a < settCfg then (mgetD s.sett.slots ((a - settCnt) / 256) []).getD (a % 256) 0
  else Config.cfgAreaByte s.cfgContents (a - settCfg)

/-- REC_SETT_DATA[k] (R430). -/
def State.settWord (s : State) (k : Nat) : Nat :=
  leNum ((List.range 4).map fun i => s.settByte (s.fld REC_SETT_ADDR_WINDOW * 64 + 4 * k + i))

/-! ## Freeze and thaw (R427) -/

/-- The log freezes: a REC_FREEZE that waited completes. -/
def State.freezeNow (s : State) : State :=
  let t := { s with recd := { s.recd with freeze := .frozen s.now, waiter := false } }
  if s.recd.waiter then t.each (t.mgmtOf 0x51) fun t m => if byteAt m.payload 0 = 1 then t.mgmtDone m.job stOK (leBytes 4 t.recNewest) else t
  else t

/-- A draining freeze takes effect once the staging queue is empty. -/
def State.checkFreeze (s : State) : State := if s.recd.freeze == .draining && s.recd.staging.isEmpty then s.freezeNow else s

/-- A freeze request: `none` when one is under way or in effect. -/
def State.startFreeze (s : State) (waiter : Bool) : Option State :=
  if s.recd.freeze == .off then some ({ s with recd := { s.recd with freeze := .draining, waiter := waiter } }.checkFreeze) else none

/-- The freeze ends: the holding queue moves to the staging queue and a RECORDER record with CODE 1 is written. -/
def State.thawNow (s : State) : State :=
  let q := s.recd.holding
  let t : State := { s with recd := { s.recd with freeze := .off, holding := [] } }
  let u := t.each q fun t it => match it with
    | .new r =>
      let (x, l) := t.enqueue 16384 512 t.recd.staging r
      { x with recd := { x.recd with staging := l } }
    | .upd _ => t
  u.recorderRec 1

/-- Is the log frozen? -/
def State.isFrozen (s : State) : Bool := match s.recd.freeze with
  | .frozen _ => true
  | _ => false

/-- FREEZE_AUTO_THAW (R427): 2 s after the freeze took effect. -/
def execFreezeAutoThaw (s : State) : Out := .next (if s.isFrozen then s.thawNow else s)

/-- Ring-0 operation REC_FREEZE (0x51). -/
def State.recFreezeOp (s : State) (m : Mgmt) : State :=
  let p := m.payload
  if decide (p.length < 8) || decide (1 < byteAt p 0) || !zeroAt p 1 7 then s.mgmtRefuse m.job stMALFORMED 0
  else if byteAt p 0 = 1 then
    match s.startFreeze true with
    | some t => t
    | none => s.mgmtRefuse m.job stSTATE (mgmtBlock 0x51 p)
  else if s.isFrozen then (let t := s.thawNow; t.mgmtDone m.job stOK (leBytes 4 t.recNewest))
  else s.mgmtRefuse m.job stSTATE (mgmtBlock 0x51 p)

/-- A write of REC_CTL: 1 freezes, 2 thaws, 0 changes nothing; after GLB_LOCK only the sideband and JTAG may (R427). -/
def State.recCtlWrite (s : State) (via : Path) (v : Nat) : BitVec 8 × State :=
  if s.locked && via == .mreg then (stSTATE, s.viol REC_CTL.off .state)
  else if v = 1 then
    match s.startFreeze false with
    | some t => (stOK, t)
    | none => (stSTATE, s.viol REC_CTL.off .state)
  else if v = 2 then (if s.isFrozen then (stOK, s.thawNow) else (stSTATE, s.viol REC_CTL.off .state))
  else (stOK, s)

/-! ## Writing the log and flushing (R420, R423, R424, R426) -/

/-- A Sett unit fails its read-back: SETT_ERR, and after a second failure the unit is retired. -/
def State.settFail (s : State) (unit fails : Nat) : State :=
  let t := s.each (List.range fails) fun t _ => t.raiseRec .settErr 0 unit
  if fails = 2 then { t with sett := { t.sett with retired := unit :: t.sett.retired } } else t

/-- Page that a record of a severity would go to, if one is open. -/
def State.openFor (s : State) (sev : Nat) : Option Nat :=
  (List.range 256).find? fun i => (s.page i).st == .opened && (s.page i).sev == sev

/-- LOG_WRITE (R426): hardware writes the next staged item; a unit that fails twice is retired with its page, and the record
goes to another page. -/
def execLogWrite (fails : BitVec 2) (s : State) : Out :=
  if s.dead || s.isFrozen || !s.mgtOn then .next s
  else match s.recd.staging with
    | [] => .next s.checkFreeze
    | it :: rest =>
      let s1 : State := { s with recd := { s.recd with staging := rest } }
      let n := min fails.toNat 2
      let sev := itemSev it
      let s2 := if n = 0 then s1
        else
          let p := (s1.openFor sev).getD 0
          let t := s1.settFail ((settLog + 4096 * p + pageUsed (s1.page p)) / 64) n
          if n = 2 && (s1.openFor sev).isSome then t.setPage p { t.page p with st := .retired } else t
      .next ((s2.logItem it).checkFreeze.settle)

/-- SETT_FLUSH (R423): the staging queue and the counters go to the Sett. -/
def execSettFlush (fails : BitVec 2) (s : State) : Out :=
  if s.dead || !s.mgtOn then .next s
  else
    let n := min fails.toNat 2
    let t := s.flushSett
    let unit := settCnt / 64 + 4 * (t.sett.flushSeq.toNat % 256)
    let u := if n = 0 then t else t.settFail unit n
    .next ((if n = 2 then u.saveCounters else u).checkFreeze.settle)

/-- OP_SECONDS_TICK (R423): 36 bits. -/
def execOpSecondsTick (s : State) : Out :=
  .next (if s.rails.vaon then { s with recd := { s.recd with opSec := (s.recd.opSec + 1) % 2 ^ 36 } } else s)

/-! ## REC_READ (R429) -/

/-- Records from FROM on, whole, within `cap` bytes: their bytes and the next FROM. -/
def takeRecs (cap : Nat) : List EvRec → Nat → List (BitVec 8) × Nat
  | [], nx => ([], nx)
  | r :: t, nx =>
    if recLen r ≤ cap then
      let (b, n) := takeRecs (cap - recLen r) t ((r.rseq.toNat + 1) % 2 ^ 32)
      (recBytes r ++ b, n)
    else ([], nx)

/-- Records present at or above FROM, ascending, modulo 2^32. -/
def State.recsFrom (s : State) (from_ : Nat) : List EvRec :=
  ((s.logRecs.filter fun r => decide (idxSub r.rseq.toNat from_ < 2 ^ 31))).mergeSort fun a b => decide (idxSub a.rseq.toNat from_ ≤ idxSub b.rseq.toNat from_)

/-- Bytes of an area from FROM on, and the next FROM. -/
def State.areaData (s : State) (area from_ cap : Nat) : List (BitVec 8) × Nat :=
  if area = 0 then
    let l := s.recsFrom (from_ % 2 ^ 32)
    let (b, n) := takeRecs cap l (from_ % 2 ^ 32)
    -- the next FROM is the first record not copied
    (b, match l.find? fun r => decide (idxSub n (from_ % 2 ^ 32) ≤ idxSub r.rseq.toNat (from_ % 2 ^ 32)) with
      | some r => r.rseq.toNat
      | none => n)
  else
    let unit := if area = 1 then 16 else 1
    let size := if area = 1 then 16384 else 65536
    let base := if area = 1 then settSoft else settCnt
    let n := min (cap / unit) (size - from_)
    ((List.range (n * unit)).map fun i => s.settByte (base + from_ * unit + i), from_ + n)

/-- RESULT of a REC_READ. -/
def State.recReadResult (s : State) (m : Mgmt) : List (BitVec 8) :=
  leBytes 4 m.written ++ leBytes 4 m.next.toNat ++ leBytes 4 s.recOldest ++ leBytes 4 s.recNewest

def State.putMgmt (s : State) (m : Mgmt) : State := { s with fox := { s.fox with mgmt := s.fox.mgmt.map fun x => if x.job = m.job then m else x } }

/-- Bytes of the next WR: up to the next 4 KiB boundary of the destination. -/
def recChunk (m : Mgmt) : Nat :=
  let a := leAt m.payload 0 8 + m.written
  min (4096 - a % 4096) ((m.data.length + 63) / 64 * 64)

/-- Send the next WR of a REC_READ, or complete it. -/
def State.recReadSend (s : State) (m : Mgmt) : State :=
  if m.data.isEmpty then s.mgmtDone m.job stOK (s.recReadResult m)
  else
    let n := recChunk m
    let a := leAt m.payload 0 8 + m.written
    let p : Packet := { hdr := mkHdr opWR 0 0 0 0 n (BitVec.ofNat 18 (leAt m.payload 8 3)) s.eid 0 (BitVec.ofNat 64 a), payload := slice m.data 0 n }
    s.sendOwn p (.recRead m.job) 0

/-- The answer to a WR of a REC_READ. -/
def State.recReadAnswered (s : State) (job : Nat) (status : BitVec 8) : State :=
  match (s.mgmtOf 0x50).find? fun m => m.job == job with
  | none => s
  | some m =>
    if status = stOK then
      let n := recChunk m
      let m1 := { m with written := m.written + min n m.data.length, data := m.data.drop n }
      (s.putMgmt m1).recReadSend m1
    else
      -- the status a remote WR was answered with stands in DETAIL too (Table 14.4)
      let remote := BitVec.ofNat 18 (leAt m.payload 8 3) != s.eid && status != 0x0E
      s.mgmtDone m.job status (s.recReadResult m) (if remote then status.toNat else 0)

/-- REC_READ (0x50, R429): one WR at a time. -/
def execRecRead (s : State) : Out :=
  .next (s.startMgmt 0x50 fun t m =>
    let p := m.payload
    let eid := leAt p 8 3
    let cap := leAt p 24 4
    let sub := eid % 64
    if decide (p.length < 32) || leAt p 0 8 % 64 != 0 || decide (2 ^ 18 ≤ eid) || (sub != 0x3F && decide (32 ≤ sub)) || decide (2 < byteAt p 11)
        || !zeroAt p 12 4 || !zeroAt p 28 4 || cap % 64 != 0 || cap == 0 || decide (1048576 < cap) then t.mgmtRefuse m.job stMALFORMED 0
    else
      let (d, n) := t.areaData (byteAt p 11) (leAt p 16 8) cap
      let m1 := { m with data := d, next := BitVec.ofNat 64 n }
      (t.putMgmt m1).recReadSend m1)

/-! ## Telemetry (R431 to R433) -/

/-- The 192 bytes of a TELEM (Table 19.5). -/
def State.telemBytes (s : State) : List (BitVec 8) :=
  let sumOf := fun (f : Nat → Fld) => ((List.range 32).map fun c => s.fld (f c)).sum % 2 ^ 32
  let hot := fun d => match s.dieHot d with
    | some (n, t) => if (s.sensor n).broken then (match (s.workingOf (dieSensors d)) with
        | [] => 0x80
        | a :: l => byteOfInt (degC (l.foldl max a))) else byteOfInt (degC t)
    | none => 0x80
  leBytes 4 (s.fld TEL_SEQ) ++ leBytes 4 (s.fld TEL_DROPPED) ++ leBytes 8 s.recd.opSec
    ++ leBytes 4 s.fltSummary ++ leBytes 4 (s.reg QOS_STATUS.off) ++ leBytes 4 (s.reg QOS_DELIV.off) ++ leBytes 4 (s.reg GLB_PWR_STATUS.off)
    ++ (List.range 8).flatMap (fun i => leBytes 8 (s.pair (QOS_BYTES_LO i)))
    ++ leBytes 8 (s.pair QOS_BG_BYTES_LO) ++ leBytes 8 (s.pair MARL_HITS_LO) ++ leBytes 8 (s.pair MARL_MISSES_LO) ++ leBytes 8 (s.pair RT_TRANSIT_LO)
    ++ ((List.range 18).map fun d => BitVec.ofNat 8 (if d < s.nDies then hot d else 0x80)) ++ zeros 2
    ++ ((List.range 16).map fun d => BitVec.ofNat 8 (if d + 2 < s.nDies then (s.die (d + 2)).fraction else 0)) ++ zeros 4
    ++ leBytes 4 s.admitMask ++ leBytes 4 (s.reg RT_BYP_STATUS.off)
    ++ leBytes 4 (maskOf ((List.range 32).filter fun c => s.on (CHAN_STATUS_FENCED c))) ++ leBytes 4 (maskOf ((List.range 32).filter fun c => s.on (CHAN_STATUS_NARROW c)))
    ++ leBytes 4 (sumOf CHAN_CE) ++ leBytes 4 (sumOf CHAN_UE)

/-- Destinations enabled in TEL_DST. -/
def State.telDsts (s : State) : List (BitVec 18) :=
  ((List.range 2).filter fun n => s.on (TEL_DST_EN n)).map fun n => BitVec.ofNat 18 (s.fld (TEL_DST_EID n))

/-- An unsent TELEM of the stack's own to a destination. -/
def isTelemTo (d : BitVec 18) (o : OutPkt) : Bool := o.inPort.isNone && o.pkt.hdr.opc == opTELEM && o.pkt.hdr.dst == d

/-- A TELEM is replaced or not sent (R432). -/
def State.telemDrop (s : State) : State := (s.inc TEL_DROPPED).incPair TEL_DROPPED_LIFE_LO 1

/-- TELEMETRY_SAMPLE (R431, R432). -/
def execTelemetrySample (s : State) : Out :=
  if !s.awake || s.phase != 8 || s.fld TEL_CFG_INTERVAL_MS == 0 then .next s
  else
    let s1 := s.inc TEL_SEQ
    let held := decide (8192 < queueBytes s.recd.staging)
    let s2 := s1.each s.telDsts fun t d => if held || t.sw.egress.any (isTelemTo d) then t.telemDrop else t
    if held then .next s2
    else
      let pay := s2.telemBytes
      .next (s2.each s.telDsts fun t d =>
        let u := { t with sw := { t.sw with egress := t.sw.egress.filter fun o => !(isTelemTo d o) } }
        u.emit { hdr := mkHdr opTELEM 0x01 0 0 (BitVec.ofNat 16 (s2.fld TEL_SEQ)) 192 d s.eid 0 0, payload := pay })

/-- An EID register value: other bits 0, SUB at most 31 where the endpoint is enabled by bit 31. -/
def dstOk (v : Nat) : Bool := bitsOf v 30 18 == 0 && decide (v % 64 < 32)

/-- TEL_SET (0x52, R433). -/
def execTelSet (s : State) : Out :=
  .next (s.startMgmt 0x52 fun t m =>
    let p := m.payload
    let c := leAt p 0 4
    if decide (p.length < 16) || !zeroAt p 12 4 || decide (1000 < c) || !dstOk (leAt p 4 4) || !dstOk (leAt p 8 4) then t.mgmtRefuse m.job stMALFORMED 0
    else (t.sets [(TEL_CFG, c), (TEL_DST 0, leAt p 4 4), (TEL_DST 1, leAt p 8 4)]).mgmtDone m.job stOK [])

end Sys2Proof.Machine
end

