-- ==== Sys2Proof/Machine/Clocks.lean ====
section
/-! DEFINITION. Clocks (03_clocks_crossings.md): the fast RC (R43), reference windows (R40, R41), PLLs, the glitch-free switch of
MGT (R51), the monitor (R44 to R50), and the writes of CLK_REF_CFG (R61) and of the gate registers (R55). -/

namespace Sys2Proof.Machine

set_option Elab.async false

/-- Clock start runs: in P2, or at a wake from S3 (R50). -/
def State.clockStarting (s : State) : Bool := s.phase == 2 || s.clk.wakeWait

def State.setStep (s : State) (n : Nat) : State := { s with clk := { s.clk with p2Step := max s.clk.p2Step n } }

/-- MGT runs from a source. On PLL_MGT, step 5 of Table 3.3 is reached: the other PLLs start to lock and the slow RC check starts. -/
def State.mgtFrom (s : State) (src : Nat) : State :=
  let t := ({ s with clk := { s.clk with switchTo := none } }).set CLK_SRC_STATUS_MGT_SRC src
  if src = 2 then t.setStep 5 else t

/-- A glitch-free switch of MGT to a qualified source begins (R51); from no clock at all the source is taken at once. -/
def State.switchMgt (s : State) (src : Nat) : State :=
  if s.fld CLK_SRC_STATUS_MGT_SRC = src ∨ s.fld CLK_SRC_STATUS_MGT_SRC = 0 then s.mgtFrom src
  else { s with clk := { s.clk with switchTo := some src } }

/-- MGT falls back to a source that is qualified: the fast RC, else PLL_MGT, else none (R46, R50). -/
def State.fallBack (s : State) : State :=
  if s.on CLK_SRC_STATUS_FRC_OK then s.switchMgt 1
  else if s.on CLK_PLL_STATUS_MGT_LOCK then s.switchMgt 2
  else ({ s with clk := { s.clk with switchTo := none } }).set CLK_SRC_STATUS_MGT_SRC 0

/-- A failure cancels a switch under way; the output stays low until a qualified source has been picked (R50). -/
def State.cancelSwitch (s : State) : State := if s.clk.switchTo.isSome then (s.set CLK_SRC_STATUS_MGT_SRC 0).fallBack else s

/-- The sequence of R43 runs where forcing finds the fast RC neither qualified nor starting (R49). -/
def State.retryFrc (s : State) : State :=
  if s.on CLK_SRC_STATUS_FRC_OK || s.clk.frcRunning then s else { s with clk := { s.clk with frcTries := 0, frcRunning := true } }

/-- A clock failure that forces (R46, R48): in P2 forcing waits for step 4 of Table 3.3, later it ends in the grave safe
state with CLOCK_LOST. -/
def State.clockLost (s : State) (cause : Fld) : State :=
  let t := (s.force (some cause)).fallBack.retryFrc
  if s.phase ≤ 2 then { t with clk := { t.clk with p2Step := min t.clk.p2Step 3 } }
  else ((t.raiseRec .clockLost 0 (t.reg CLK_MON_STATUS.off)).enterGrave).settle

/-! ## The fast RC (R43) -/

/-- The trim after a failed attempt. -/
def moveTrim (trim : BitVec 7) (count : Option Nat) : BitVec 7 :=
  match count with
  | some c => if 414063 < c then (if trim = 0 then 0 else trim - 1) else (if trim = 0x7F then 0x7F else trim + 1)
  | none => if trim = 0x7F then 0x7F else trim + 1

/-- FRC_ATTEMPT_END (R43). -/
def execFrcAttemptEnd (count : Option Nat) (s : State) : Out :=
  if !s.clk.frcRunning || !s.rails.vaon then .next s
  else
    let pass := match count with
      | some c => decide (367188 ≤ c) && decide (c ≤ 414063)
      | none => false
    if pass then
      let t := { s with clk := { s.clk with frcRunning := false } }
      let u := t.sets [(CLK_SRC_STATUS_FRC_OK, 1), (CLK_SRC_STATUS_FRC_FAILED, 0), (CLK_SRC_STATUS_FRC_TRIM_STEPS, s.clk.frcTries)]
      .next ((if u.fld CLK_SRC_STATUS_MGT_SRC = 0 then u.switchMgt 1 else u).setStep 3)
    else
      let n := s.clk.frcTries + 1
      let t := ({ s with start := { s.start with frcFailSeen := true } }).set CLK_MON_STATUS_FRC_FAIL 1
      if n < 9 then .next { t with clk := { t.clk with frcTries := n, frcTrim := moveTrim s.clk.frcTrim count } }
      else
        -- the ninth failure: references are qualified against the slow RC
        let u := ({ t with clk := { t.clk with frcRunning := false } }).sets [(CLK_SRC_STATUS_FRC_FAILED, 1), (CLK_SRC_STATUS_FRC_TRIM_STEPS, 8)]
        .next ((if s.phase = 2 then u.force none else u).setStep 3)

/-- FRC_SERVICE_CHECK (R46): a failure starts the retry sequence in the background. -/
def execFrcServiceCheck (ok : Bool) (s : State) : Out :=
  if ok || !s.on CLK_PLL_STATUS_MGT_LOCK || !s.on CLK_SRC_STATUS_FRC_OK || decide (s.phase < 3) then .next s
  else
    let t := { s with clk := { s.clk with frcTries := 0, frcRunning := true } }
    .next (((t.sets [(CLK_SRC_STATUS_FRC_OK, 0), (CLK_MON_STATUS_FRC_FAIL, 1)]).cancelSwitch).raise .frcFail 0 (s.fld CLK_SRC_STATUS_FRC_TRIM_STEPS))

/-! ## References (R40, R41, R47) -/

def refOk (b : Bool) : Fld := if b then CLK_SRC_STATUS_REFB_OK else CLK_SRC_STATUS_REFA_OK
def refMode (b : Bool) : Fld := if b then CLK_SRC_STATUS_REFB_MODE else CLK_SRC_STATUS_REFA_MODE
def refCode (b : Bool) : Nat := if b then 2 else 1
def refEn (b : Bool) : Fld := if b then CLK_REF_CFG_REFB_EN else CLK_REF_CFG_REFA_EN

/-- Does a count of edges match a frequency in kHz: ±3 % over 100 µs against the fast RC, ±5 % over 8 slow periods where it
has failed (R43)? -/
def State.edgesMatch (s : State) (khz e : Nat) : Bool :=
  let (num, den, tol) := if s.on CLK_SRC_STATUS_FRC_FAILED then (32768, 8000, 5) else (10, 1, 3)
  let diff := Int.natAbs ((e * num : Int) - (khz * den : Int))
  decide (diff * 100 ≤ tol * (khz * den))

/-- Mode that a driven count matches: 2 for 100 MHz, 3 for 156.25 MHz, 0 for neither. -/
def State.drivenMode (s : State) (e : Nat) : Nat := if s.edgesMatch 100000 e then 2 else if s.edgesMatch 156250 e then 3 else 0

/-- The active reference becomes `b` (R47). -/
def State.setActive (s : State) (b : Bool) : State := ({ s with clk := { s.clk with holdover := none } }).set CLK_SRC_STATUS_ACTIVE_REF (refCode b)

/-- A qualified reference fails (R46, R47): the standby takes over, or holdover runs. -/
def State.refFail (s : State) (b : Bool) : State :=
  let act := s.fld CLK_SRC_STATUS_ACTIVE_REF == refCode b
  let i := if b then 2 else 0
  let t := { s with clk := { s.clk with wins := (s.clk.wins.set i 0).set (i + 1) 0 } }
  let t := (t.sets [(refOk b, 0), (refMode b, 0), (if b then CLK_MON_STATUS_REFB_LOST else CLK_MON_STATUS_REFA_LOST, 1)]).cancelSwitch
  if !act then t.raise .refLost 0 (refCode b)
  else if t.on (refOk !b) then ((t.setActive !b).inc CLK_REF_SWITCHES).raise .refLost 0 (refCode b)
  else { t with clk := { t.clk with holdover := some (refCode b) } }

/-- A reference is qualified in a form: mode 1 crystal, 2 or 3 driven. -/
def State.qualify (s : State) (b : Bool) (mode : Nat) : State := s.sets [(refOk b, 1), (refMode b, mode)]

/-- Both forms of an input have qualified: its crystal oscillator is switched off (R40). -/
def State.xtalDone (s : State) (b : Bool) : State :=
  let i := if b then 2 else 0
  if 4 ≤ s.clk.wins.getD i 0 ∧ 4 ≤ s.clk.wins.getD (i + 1) 0 then
    let k := { s.clk with wins := s.clk.wins.set (i + 1) 0 }
    { s with clk := if b then { k with xtalOffB := true } else { k with xtalOffA := true } }
  else s

/-- One input's window: the counts of good windows in a row go on, a form qualifies at four, the driven form is used where both
qualify (R40), and a qualified form out of its window fails. Against the slow RC too a form needs four windows in a row (DESIGN
CHOICE, log entry 77). -/
def State.refWindow (s : State) (b : Bool) (driven xtal : Nat) : State :=
  if !s.on (refEn b) then s
  else
    let i := if b then 2 else 0
    let off := if b then s.clk.xtalOffB else s.clk.xtalOffA
    let dm := s.drivenMode driven
    let xm := !off && s.edgesMatch s.xtalKhz xtal
    let dn := if dm = 0 then 0 else s.clk.wins.getD i 0 + 1
    let xn := if xm then s.clk.wins.getD (i + 1) 0 + 1 else 0
    let t := { s with clk := { s.clk with wins := (s.clk.wins.set i dn).set (i + 1) xn } }
    let mode := s.fld (refMode b)
    if s.on (refOk b) && (if mode = 1 then !xm && decide (dn < 4) else dm != mode) then t.refFail b
    else
      (if decide (4 ≤ dn) && decide (mode < 2) then t.qualify b dm
       else if decide (4 ≤ xn) && !s.on (refOk b) then t.qualify b 1
       else t).xtalDone b

/-- Holdover ends with reference `b`: the PLLs move to it, the switch is counted and the failure of the reference that was active is
reported (R47, Table 3.4). The same input, once it has passed four windows again, is taken and counted in the same way (DESIGN
CHOICE, log entry 77). -/
def State.endHoldover (s : State) (failed : Nat) (b : Bool) : State := ((s.setActive b).inc CLK_REF_SWITCHES).raise .refLost 0 failed

/-- The reference in use after a window: the first to qualify, REFA before REFB (R41); in holdover the one that has
qualified (R47); after P2 the one REF_PREF names. -/
def State.pickRef (s : State) : State :=
  let a := s.on CLK_SRC_STATUS_REFA_OK
  let b := s.on CLK_SRC_STATUS_REFB_OK
  let act := s.fld CLK_SRC_STATUS_ACTIVE_REF
  let pref := s.fld CLK_REF_CFG_REF_PREF
  if act = 0 then (if a then s.setActive false else if b then s.setActive true else s)
  else match s.clk.holdover with
  | some failed => if a then s.endHoldover failed false else if b then s.endHoldover failed true else s
  | none => if s.phase ≥ 3 ∧ pref ≠ 0 ∧ pref ≠ act ∧ a ∧ b then (s.setActive (pref == 2)).inc CLK_REF_SWITCHES else s

/-- REF_WINDOW_END (R40): every candidate is judged; step 4 of Table 3.3 ends forcing in P2 (R49). In S3 no window runs (R50). -/
def execRefWindowEnd (ad ax bd bx : Nat) (s : State) : Out :=
  if !s.rails.vaon || decide (s.clk.p2Step < 3) || s.start.slowHold || (s.sleep == 3 && !s.clk.wakeWait) then .next s
  else
    let t := ((s.refWindow false ad ax).refWindow true bd bx).pickRef
    if t.fld CLK_SRC_STATUS_ACTIVE_REF = 0 || t.clk.holdover.isSome then .next t
    else
      let u := t.setStep 4
      .next (if u.phase = 2 ∧ u.start.forcing then { u with start := { u.start with forcing := false } } else u)

/-- REF_MISSING_EDGES (R45). -/
def execRefMissingEdges (refB : Bool) (s : State) : Out :=
  if s.on (refOk refB) && s.rails.vaon then .next (s.refFail refB) else .next s

/-- HOLDOVER_EXPIRY (R47): no reference is qualified. -/
def execHoldoverExpiry (s : State) : Out :=
  match s.clk.holdover with
  | none => .next s
  | some _ =>
    .next ((({ s with clk := { s.clk with holdover := none } }).set CLK_SRC_STATUS_ACTIVE_REF 0).clockLost CLK_MON_STATUS_ALL_REF_LOST)

/-- WAKE_REF_TIMEOUT (R50). -/
def execWakeRefTimeout (s : State) : Out :=
  if s.clk.wakeWait && s.fld CLK_SRC_STATUS_ACTIVE_REF == 0 then
    .next (((s.set CLK_MON_STATUS_ALL_REF_LOST 1).raiseRec .clockLost 0 ((s.set CLK_MON_STATUS_ALL_REF_LOST 1).reg CLK_MON_STATUS.off)).settle)
  else .next s

/-! ## PLLs (R42, R45, R46) -/

/-- Lock bits of the LPLLs that the variant uses. -/
def State.lpllMask (s : State) : Nat := 2 ^ (s.nPorts / 4) - 1

/-- Every PLL of step 5 is locked. -/
def State.pllsLocked (s : State) : Bool :=
  s.on CLK_PLL_STATUS_MGT_LOCK && s.on CLK_PLL_STATUS_FAB_LOCK && s.on CLK_PLL_STATUS_CHN_LOCK && s.on CLK_PLL_STATUS_FOX_LOCK
    && s.on CLK_PLL_STATUS_STO_LOCK && (s.fld CLK_PLL_STATUS_LPLL_LOCK).land s.lpllMask == s.lpllMask

/-- PLL_FOX is locked again: engines that waited for it, or were disabled until it, run (R46, Table 18.1). -/
def State.foxRelocked (s : State) : State :=
  let t := ({ s with clk := { s.clk with foxRelock := false } }).set CLK_PLL_STATUS_FOX_LOCK 1
  t.each (List.range t.nEngines) fun u e =>
    let g := u.eng e
    if !u.inReset 3 e && (g.heldPll || (g.st == .reload && g.trapping.isNone)) then u.putEng e { g with heldPll := false, st := .idle } else u

/-- A PLL of step 5 locks once that step is reached (Table 3.3). -/
def State.lockPll (s : State) (f : Fld) : State := if s.clk.p2Step < 5 then s else s.set f 1

/-- PLL_LOCKED (R42): PLL_MGT takes MGT over by a glitch-free switch; the ports of an LPLL restart blind. -/
def execPllLocked (p : PllId) (s : State) : Out :=
  if !s.rails.vaon || s.start.slowHold || s.fld CLK_SRC_STATUS_ACTIVE_REF == 0 then .next s
  else match p with
    | .mgt => .next ((s.set CLK_PLL_STATUS_MGT_LOCK 1).switchMgt 2)
    | .fab => .next (s.lockPll CLK_PLL_STATUS_FAB_LOCK)
    | .chn => .next (s.lockPll CLK_PLL_STATUS_CHN_LOCK)
    | .fox => .next (if s.clk.foxRelock then s.foxRelocked else s.lockPll CLK_PLL_STATUS_FOX_LOCK)
    | .sto => .next (s.lockPll CLK_PLL_STATUS_STO_LOCK)
    | .lpll j =>
      if s.nPorts / 4 ≤ j.toNat || decide (s.clk.p2Step < 5) then .next s
      else
        let t := s.set CLK_PLL_STATUS_LPLL_LOCK (putBit (s.fld CLK_PLL_STATUS_LPLL_LOCK) j.toNat true)
        .next (t.each (List.range 4) fun u i => u.checkPort (4 * j.toNat + i))
    | .layer l => if s.layerOn l.toNat && decide (4 ≤ s.phase) then .next (s.setLyrLock l.toNat true) else .next s

/-- PLL_LOCK_LOST (R45, R46, Table 3.4). Each failure cancels a switch of MGT under way (R50). -/
def execPllLockLost (p : PllId) (s : State) : Out :=
  let core := fun (f : Fld) => if s.on f then (s.set f 0).cancelSwitch.clockLost CLK_MON_STATUS_CORE_UNLOCK else s
  match p with
  | .mgt => .next (core CLK_PLL_STATUS_MGT_LOCK)
  | .fab => .next (core CLK_PLL_STATUS_FAB_LOCK)
  | .chn => .next (core CLK_PLL_STATUS_CHN_LOCK)
  | .sto => .next (core CLK_PLL_STATUS_STO_LOCK)
  | .fox =>
    if !s.on CLK_PLL_STATUS_FOX_LOCK then .next s
    else
      let t := ({ s with clk := { s.clk with foxRelock := true } }).sets [(CLK_PLL_STATUS_FOX_LOCK, 0), (CLK_MON_STATUS_FOX_UNLOCK, 1)] |>.cancelSwitch
      .next ((t.each (List.range t.nEngines) fun u e => u.trapEng e 2).raise .foxPll 0 0)
  | .lpll j =>
    let n := j.toNat
    if !bitAt (s.fld CLK_PLL_STATUS_LPLL_LOCK) n then .next s
    else
      let t := s.sets [(CLK_PLL_STATUS_LPLL_LOCK, putBit (s.fld CLK_PLL_STATUS_LPLL_LOCK) n false), (CLK_MON_STATUS_LPLL_UNLOCK, 1)] |>.cancelSwitch
      .next (((t.closePairs).each (List.range 4) fun u i => u.raiseRec .lpll (4 * n + i) n).settle)
  | .layer l =>
    if bitAt (s.fld CLK_PLL_STATUS_LYR_LOCK) (l.toNat - 2) && s.layerOn l.toNat then .next ((s.set CLK_MON_STATUS_LYR_UNLOCK 1).cancelSwitch.silence l.toNat true) else .next s

/-- FOX_PLL_RELOCK_TRY (R46). -/
def execFoxPllRelockTry (ok : Bool) (s : State) : Out := if ok && s.clk.foxRelock && !s.dead then .next s.foxRelocked else .next s

/-! ## The slow RC (R44) -/

/-- SLOW_RC_CHECK: step 7 of Table 3.3, and every 1 s in service. -/
def execSlowRcCheck (count : Nat) (s : State) : Out :=
  let ok := decide (46875 ≤ count) && decide (count ≤ 50781)
  if !s.on CLK_PLL_STATUS_MGT_LOCK || decide (s.clk.p2Step < 5) || s.start.grave || s.start.slowHold then .next s
  else if ok then .next (if s.pllsLocked then (s.set CLK_SRC_STATUS_SLOW_OK 1).setStep 7 else s.set CLK_SRC_STATUS_SLOW_OK 1)
  else
    let t := (s.set CLK_SRC_STATUS_SLOW_OK 0).cancelSwitch.force (some CLK_MON_STATUS_SLOW_FAIL)
    if s.phase ≤ 2 then .next { t with start := { t.start with slowHold := true } }
    else .next (((t.raiseRec .slowFail 0 0).enterGrave).settle)

/-! ## Glitch-free switches (R51, R52) -/

/-- CLK_SWITCH_RELEASE: the old clock has released; the new one passes. -/
def execClkSwitchRelease (s : State) : Out :=
  match s.clk.switchTo with
  | none => .next s
  | some t => .next (s.mgtFrom t)

/-- CLK_SWITCH_TIMEOUT: the old clock is disconnected asynchronously, counted and recorded. -/
def execClkSwitchTimeout (s : State) : Out :=
  match s.clk.switchTo with
  | none => .next s
  | some t =>
    let u := (s.mgtFrom t).inc CLK_SWITCH_FORCED
    .next (u.event 0x01 1 0 (u.fld CLK_SWITCH_FORCED) 0)

/-! ## Register writes (R55, R61) -/

/-- A write of CLK_REF_CFG with legal values (R61). -/
def State.refCfgWrite (s : State) (v : Nat) : BitVec 8 × State :=
  let pref := bitsOf v 1 0
  let en := fun (b : Bool) => bitAt v (if b then 3 else 2)
  let act := s.fld CLK_SRC_STATUS_ACTIVE_REF
  let badPref := (pref == 1 && !s.on CLK_SRC_STATUS_REFA_OK) || (pref == 2 && !s.on CLK_SRC_STATUS_REFB_OK)
  let badEn := (act == 1 && !en false && !s.on CLK_SRC_STATUS_REFB_OK) || (act == 2 && !en true && !s.on CLK_SRC_STATUS_REFA_OK)
  if badPref || badEn || (!en false && !en true) then (stSTATE, s.viol CLK_REF_CFG.off .state)
  else
    let t := s.setReg CLK_REF_CFG.off v
    let drop := fun (u : State) (b : Bool) => if en b then u
      else
        let w := u.sets [(refOk b, 0), (refMode b, 0)]
        let i := if b then 2 else 0
        let w := { w with clk := { w.clk with wins := (w.clk.wins.set i 0).set (i + 1) 0 } }
        if act = refCode b then (w.setActive !b).inc CLK_REF_SWITCHES else w
    (stOK, ((drop (drop t false) true).pickRef))

/-- Domains present in gate register `g` (Table 3.10). -/
def State.gateDomains (s : State) (g : Nat) : Nat :=
  if g = 0 then 2 ^ s.nChans - 1 else if g = 1 then 2 ^ s.nPorts - 1 else if g = 2 then 2 ^ (s.nChans / 2) - 1 else 7 + (2 ^ s.nEarths - 1) * 8

/-- Is the domain of bit `i` of gate register `g` in use (R55)? -/
def State.domainUsed (s : State) (g i : Nat) : Bool :=
  if g = 0 then !s.on (CHAN_STATUS_FENCED i)
  else if g = 1 then s.role i != 0
  else if g = 2 then !s.on (CHAN_STATUS_FENCED (2 * i)) || !s.on (CHAN_STATUS_FENCED (2 * i + 1))
  else if i ≤ 2 then true
  else (List.range 8).any fun k => s.engEnabled (8 * (i - 3) + k)

/-- Offset of a gate register. -/
def gateOff (set g : Nat) : Nat := CLK_GATE_RUN_CHN.off + 0x10 * set + 4 * g

/-- A write of a gate register (R55). -/
def State.gateWrite (s : State) (set g v : Nat) : BitVec 8 × State :=
  let off := gateOff set g
  let old := s.reg off
  let dom := s.gateDomains g
  let bad := (List.range 32).any fun i =>
    (bitAt v i && !bitAt dom i) || (set == 0 && bitAt old i && !bitAt v i && s.domainUsed g i)
  if bad then (stSTATE, s.viol off .state) else (stOK, s.setReg off v)

/-- The gate bit of a unit in CLK_GATE_RUN is set: it may be put into use (R55). -/
def State.portClocked (s : State) (p : Nat) : Bool := bitAt (s.fld CLK_GATE_RUN_PORT) p
def State.engClocked (s : State) (e : Nat) : Bool := bitAt (s.fld CLK_GATE_RUN_MISC_FOX) (e / 8)

end Sys2Proof.Machine
end

