-- ==== Sys2Proof/Machine/LinkCmds.lean ====
section
/-! DEFINITION. Links (06_serial_lanes.md, 07_link_layer.md): blind bring-up (Table 6.5), alignment markers and adaptation, lane
failure and width, L1 and L2, test patterns, flits, retry and the flit slot (R143, R170). -/

namespace Sys2Proof.Machine

set_option Elab.async false

/-! ## Training markers (R115 to R121) -/

/-- A lane's polarity inversion on bytes: every bit in NRZ, the first bit of each pair at PAM4 (R117, Table 6.2). -/
def flipBytes (pam4 : Bool) (l : List (BitVec 8)) : List (BitVec 8) := l.map (· ^^^ (if pam4 then 0x55 else 0xFF))

/-- SYNC, no reserved TYPE, and a matching CRC (R116). -/
def tmOk (b : List (BitVec 8)) : Bool :=
  b.length == 32 && b.take 4 == ([0x4B, 0x1D, 0xB4, 0xE2] : List (BitVec 8))
    && (byteAt b 4 == 1 || byteAt b 4 == 2 || byteAt b 4 == 3 || byteAt b 4 == 5 || byteAt b 4 == 6)
    && leAt b 28 4 == crc32c (b.take 28)

/-- The marker as the lane reads it, and whether in inverted form: a lane in lock keeps its polarity. -/
def State.readTm (s : State) (l : Nat) (raw : List (BitVec 8)) : Option (List (BitVec 8) × Bool) :=
  let pam4 := s.fld (PORT_LINK_CFG_RATE (l / 8)) == 2
  let inv := s.on (LANE_STATUS_INVERTED l)
  let seeking := (s.lane l).goodRun == 0
  if (!inv || seeking) && tmOk raw then some (raw, false)
  else if (inv || seeking) && tmOk (flipBytes pam4 raw) then some (flipBytes pam4 raw, true)
  else none

/-- Does the marker come from another partner than the one recorded (R174)? -/
def State.otherPartner (s : State) (p m : Nat) (b : List (BitVec 8)) : Bool :=
  leAt b 8 2 % 4096 != s.fld (PORT_NEIGH_ID_DID p m) || byteAt b 7 % 32 != s.fld (PORT_NEIGH_ID_PORT p m)
    || bitsOf (byteAt b 5) 7 5 != s.fld (PORT_NEIGH_ID_LINK p m)

/-- Does a marker give another SPLIT, LINK or RATE than the link's own (R119)? -/
def State.cfgDiffers (s : State) (p m : Nat) (b : List (BitVec 8)) : Bool :=
  bitsOf (byteAt b 5) 4 3 != s.fld (PORT_LINK_CFG_SPLIT p) || bitsOf (byteAt b 5) 7 5 != m || byteAt b 6 % 4 != s.fld (PORT_LINK_CFG_RATE p)

/-- PORT_NEIGH_ID from a marker (Table 6.8). -/
def State.recordPartner (s : State) (p m : Nat) (b : List (BitVec 8)) : State :=
  let s := s.setLink p m { s.link p m with cfgBad := s.cfgDiffers p m b }
  let echo := bitAt (leAt b 12 2) 15 && leAt b 12 2 % 4096 == s.did && byteAt b 14 % 32 == p && bitsOf (byteAt b 14) 7 5 == m
  s.sets [(PORT_NEIGH_ID_VALID p m, 1), (PORT_NEIGH_ID_KIND p m, bitsOf (byteAt b 6) 2 2), (PORT_NEIGH_ID_ROLE p m, bitsOf (byteAt b 6) 5 3),
    (PORT_NEIGH_ID_LINK p m, bitsOf (byteAt b 5) 7 5), (PORT_NEIGH_ID_ECHO_OK p m, b2n echo), (PORT_NEIGH_ID_PORT p m, byteAt b 7 % 32), (PORT_NEIGH_ID_DID p m, leAt b 8 2 % 4096)]

/-- Set a lane's counter of stable markers on the whole link. -/
def State.unstable (s : State) (p m : Nat) : State := s.each (s.linkLanes p m) fun t l => t.setLane l { t.lane l with stable := 0 }

/-- Set a bit of the own RXMASK; a change begins the count of stable markers anew. -/
def State.maskBit (s : State) (p m lg : Nat) (v : Bool) : State :=
  let k := s.link p m
  let r := BitVec.ofNat 8 (putBit k.rxMask.toNat lg v)
  if r = k.rxMask then s else (s.setLink p m { k with rxMask := r }).unstable p m

/-- Order of the logical lanes as they arrive: some false in order, some true fully reversed (R119). -/
def State.laneOrder (s : State) (p m : Nat) : Option Bool :=
  let w := s.linkW p
  let at_ := fun l => s.fld (LANE_STATUS_LOGICAL l)
  let i := fun l => l % 8 % w
  if (s.lockedLanes p m).all fun l => at_ l == i l then some false
  else if (s.lockedLanes p m).all fun l => at_ l + i l + 1 == w then some true
  else none

/-- Why a link holds at step 6 (R119, R120): REASON, or the width and mask it takes. -/
def State.stepSix (s : State) (p m : Nat) : Nat ⊕ (Nat × Nat × Bool) :=
  if (s.link p m).cfgBad then .inl 3
  else match s.laneOrder p m with
    | none => .inl 4
    | some rev => match s.newWidth p m with
      | none => .inl 5
      | some (w, k) => .inr (w, k, rev)

/-- Put the width of R120 into PORT_LINK_STATUS. -/
def State.takeWidth (s : State) (p m w mask : Nat) : State :=
  s.sets [(PORT_LINK_STATUS_WIDTH p m, widthCode w), (PORT_LINK_STATUS_ACTIVE_MASK p m, mask)]

/-- Steps 4 to 7 of Table 6.5 on a valid marker of a locked lane. -/
def State.trainMarker (s : State) (p m l : Nat) (b : List (BitVec 8)) : State :=
  let typ := byteAt b 4
  let s1 := if s.lst p m = 1 then s.sets [(PORT_LINK_STATUS_STATE p m, 2), (PORT_LINK_STATUS_REASON p m, 0)] else s
  let peer := BitVec.ofNat 8 (byteAt b 10)
  let k := s1.link p m
  let s2 := if peer = k.peerMask then s1 else (s1.setLink p m { k with peerMask := peer }).unstable p m
  let x := s2.lane l
  let run := if typ = 1 then min 4 (x.lockRun + 1) else 0
  let s3 := s2.setLane l { x with lockRun := run, stable := if typ = 2 ∨ typ = 3 then min 8 (x.stable + 1) else 0 }
  if 4 ≤ run then
    -- the partner is back at step 1: this side returns to step 4
    ((s3.setLink p m { s3.link p m with goSeen := false }).unstable p m).set (PORT_LINK_STATUS_STATE p m) 2
  else
    let s4 := if typ = 3 then s3.setLink p m { s3.link p m with goSeen := true } else s3
    let s5 :=
      if s4.lst p m = 2 && s4.stable p m then
        match s4.stepSix p m with
        | .inl reason => s4.set (PORT_LINK_STATUS_REASON p m) reason
        | .inr (w, k, rev) => (s4.takeWidth p m w k).sets [(PORT_LINK_STATUS_REVERSED p m, b2n rev), (PORT_LINK_STATUS_REASON p m, 0), (PORT_LINK_STATUS_STATE p m, 3)]
      else s4
    if s5.lst p m = 3 && (s5.link p m).goSeen then s5.enterL0 p m else s5

/-- Table 6.5 from step 1 with saved values, the link layer kept (R129). -/
def State.leaveL2 (s : State) (p m : Nat) : State :=
  (s.setLink p m { s.link p m with resume := true }).startLink p m

/-- A valid marker on a link in service is judged first: two in a row of another partner, or two TS_LOCK on an active lane, take the
link down, with or without marker lock (R127, R174). -/
def State.judgeMarker (s : State) (p m l : Nat) (b : List (BitVec 8)) : State :=
  let x := s.lane l
  let other := if s.otherPartner p m b then (s.link p m).otherRun + 1 else 0
  let run := if byteAt b 4 = 1 then min 4 (x.lockRun + 1) else 0
  let t := (s.setLink p m { s.link p m with otherRun := other }).setLane l { x with lockRun := run }
  if 2 ≤ other || (decide (2 ≤ run) && s.on (LANE_STATUS_IN_USE l)) then t.linkDown p m 6 else t

/-- A change of ECHO_OK may admit a link or end its admission: packets are routed again, or wait (R157, R166). -/
def State.echoChanged (s : State) (p : Nat) (was : Bool) : State :=
  if s.usable p = was then s else if was then s.strand p else s.reroute

/-- Markers of the partner on a link in service: those of a retrain count toward its steps 4 to 7; TS_IDLE, TS_GO and TS_SLEEP move
the partner's direction through L1 and L2 (R128, R129). -/
def State.serviceMarker (s : State) (p m l : Nat) (b : List (BitVec 8)) : State :=
  let typ := byteAt b 4
  let t := (s.recordPartner p m b).echoChanged p (s.usable p)
  let k := t.link p m
  if s.lst p m = 7 then
    let peer := BitVec.ofNat 8 (byteAt b 10)
    let u := if peer = k.peerMask then t else (t.setLink p m { k with peerMask := peer }).unstable p m
    let u := u.setLane l { u.lane l with stable := if typ = 2 ∨ typ = 3 then min 8 ((u.lane l).stable + 1) else 0 }
    if typ = 3 then u.setLink p m { u.link p m with goSeen := true } else u
  else if typ = 5 then
    (t.setLink p m { k with rxIdle := true }).each (t.linkLanes p m) fun u n => u.set (LANE_EYE_STALE n) 1
  else if typ = 3 && k.rxIdle then
    let u := t.setLink p m { k with rxIdle := false }
    if (u.activeLanes p m).all fun n => u.on (LANE_STATUS_MARKER_LOCK n) then u else u.retrain p m
  else if typ = 6 then
    ((t.each (t.linkLanes p m) fun u n => u.laneOff n).set (PORT_LINK_STATUS_STATE p m) 6).strand p
  else t

/-- Adaptation in training (Table 6.5 steps 3 and 5): CTLE, VGA, DFE and, at PAM4, the slicer thresholds stand where the filler has
brought them. -/
def State.trainEq (s : State) (l : Nat) (e : EqSet) : State :=
  let x := s.lane l
  let t := s.setLane l { x with slicer := if s.fld (PORT_LINK_CFG_RATE (l / 8)) = 2 then slice e.slicer 0 3 else x.slicer }
  ((t.sets [(LANE_RX_EQ_CTLE l, e.ctle.toNat), (LANE_RX_EQ_VGA l, e.vga.toNat)]).setReg (LANE_DFE l 0).off (leAt e.dfe 0 4)).setReg (LANE_DFE l 1).off (leAt e.dfe 4 4)

/-- A marker as lane `l` of link `m` takes it (R117): in lock it moves the link's training or is judged in service. -/
def State.takeMarker (s : State) (p m l : Nat) (raw : List (BitVec 8)) : State :=
  let x := s.lane l
  match s.readTm l raw with
  | none =>
    let miss := min 2 (x.missRun + 1)
    let t := s.setLane l { x with missRun := miss, goodRun := if s.on (LANE_STATUS_MARKER_LOCK l) && decide (miss < 2) then x.goodRun else 0, stable := 0, lockRun := 0 }
    if s.on (LANE_STATUS_MARKER_LOCK l) && decide (2 ≤ miss) then
      (if s.lst p m = 4 then t.laneFail l else (t.dropLane p m l).unstable p m)
    else t
  | some (b, inv) =>
    let run := min 4 (x.goodRun + 1)
    let t := (s.setLane l { x with goodRun := run, missRun := 0 }).set (LANE_STATUS_INVERTED l) (b2n inv)
    let u := if inService (s.lst p m) && (s.on (LANE_STATUS_MARKER_LOCK l) || run == 4 || s.on (LANE_STATUS_IN_USE l)) then t.judgeMarker p m l b else t
    if (run < 4 && !s.on (LANE_STATUS_MARKER_LOCK l)) || (inService (s.lst p m) && !inService (u.lst p m)) then u
    else
      let lg := byteAt b 5 % 8
      let v := u.sets [(LANE_STATUS_MARKER_LOCK l, 1), (LANE_STATUS_LOGICAL l, lg)]
      let v := v.maskBit p m lg true
      if !inService (v.lst p m) then (v.recordPartner p m b).trainMarker p m l b
      else if s.otherPartner p m b then v
      else v.serviceMarker p m l b

/-- TM_RECEIVED (R117): the marker is judged. While the link trains or retrains the lane sends a block of its own meanwhile (R115);
in training its equaliser adapts on the stream. -/
def execTmReceived (lane : BitVec 8) (tm : TmIn) (s : State) : Out :=
  let l := lane.toNat
  let p := l / 8
  let m := l % 8 / s.linkW p
  if !s.live || decide (2 ≤ s.sleep) || decide (s.nPorts ≤ p) || s.lst p m = 0 then .next s
  else
    let t := if s.lst p m = 6 && s.trainOk p && (s.readTm l tm.raw).isSome then s.leaveL2 p m else s
    let t := t.sets [(LANE_STATUS_SIG_DET l, 1), (LANE_STATUS_CDR_LOCK l, 1)]
    let t := if t.lst p m ≤ 2 then t.trainEq l tm.eq else t
    let u := t.takeMarker p m l tm.raw
    .next (if (1 ≤ u.lst p m && decide (u.lst p m ≤ 3)) || u.lst p m == 7 then u.sendBlock p m l else u)

/-- MARKER_LOCK_LOSS (R117): two markers in a row are missing. -/
def execMarkerLockLoss (lane : BitVec 8) (s : State) : Out :=
  let l := lane.toNat
  let p := l / 8
  let m := l % 8 / s.linkW p
  if !s.live || !s.on (LANE_STATUS_MARKER_LOCK l) || decide (s.nPorts ≤ p) then .next s
  else if s.lst p m = 4 then .next (s.laneFail l)
  else .next ((s.dropLane p m l).unstable p m)

/-- LINK_TRAIN_START (R118): step 1 of Table 6.5. -/
def execLinkTrainStart (port : BitVec 5) (link : BitVec 3) (s : State) : Out :=
  let p := port.toNat
  let m := link.toNat
  if s.live && decide (m < s.nLinks p) && s.trainOk p && s.lst p m == 0 then .next ((s.startLink p m).set (PORT_LINK_STATUS_REASON p m) 0)
  else .next s

/-- TRAIN_TIMEOUT (R121): receivers return to step 2 and markers to TS_LOCK. -/
def execTrainTimeout (port : BitVec 5) (link : BitVec 3) (s : State) : Out :=
  let p := port.toNat
  let m := link.toNat
  if 1 ≤ s.lst p m && decide (s.lst p m ≤ 3) then
    let r := s.fld (PORT_LINK_STATUS_REASON p m)
    let reason := if 3 ≤ r ∧ r ≤ 5 then r
      else if (s.linkLanes p m).all fun l => !s.on (LANE_STATUS_SIG_DET l) then 1
      else if (s.lockedLanes p m).isEmpty then 2 else 0
    let t := s.each (s.linkLanes p m) State.laneRestart
    .next ((((t.setLink p m (t.link p m).fresh).sets [(PORT_LINK_STATUS_STATE p m, 1), (PORT_LINK_STATUS_REASON p m, reason), (PORT_LINK_STATUS_WIDTH p m, 0), (PORT_LINK_STATUS_ACTIVE_MASK p m, 0), (PORT_LINK_STATUS_REVERSED p m, 0)]).inc (PORT_TRAIN_ATTEMPTS p)).sendBlocks p m)
  else .next s

/-! ## Alignment markers, adaptation and eyes (R122 to R124) -/

/-- AM_SEND (R122). -/
def execAmSend (port : BitVec 5) (link : BitVec 3) (s : State) : Out :=
  if s.lst port.toNat link.toNat = 4 then .next (s.sendAm port.toNat link.toNat) else .next s

/-- One step of a code within its range. -/
def stepCode (top v : Nat) (up : Bool) : Nat := if up then min top (v + 1) else v - 1

/-- One step of a signed byte. -/
def stepTap (v : Nat) (up : Bool) : Nat :=
  if up then (if v = 0x7F then v else (v + 1) % 256) else (if v = 0x80 then v else (v + 255) % 256)

/-- One adaptation step: CTLE, VGA, DFE taps 1 to 8, at PAM4 the three thresholds (R123). -/
def State.adapt (s : State) (l : Nat) (up : Bool) : State :=
  let x := s.lane l
  let n := if s.fld (PORT_LINK_CFG_RATE (l / 8)) = 2 then 13 else 10
  let q := x.adaptPos % n
  let t := s.setLane l { x with adaptPos := (q + 1) % n, slicer := if 10 ≤ q then x.slicer.set (q - 10) (BitVec.ofNat 8 (stepTap (x.slicer.getD (q - 10) 0).toNat up)) else x.slicer }
  if q = 0 then t.set (LANE_RX_EQ_CTLE l) (stepCode 15 (t.fld (LANE_RX_EQ_CTLE l)) up)
  else if q = 1 then t.set (LANE_RX_EQ_VGA l) (stepCode 31 (t.fld (LANE_RX_EQ_VGA l)) up)
  else if q < 10 then
    let off := (LANE_DFE l ((q - 2) / 4)).off
    let lo := 8 * ((q - 2) % 4)
    t.setReg off (putBits (t.reg off) (lo + 7) lo (stepTap (bitsOf (t.reg off) (lo + 7) lo) up))
  else t

/-- XOR byte, pattern and logical lane of an AM. -/
def amOk (raw : List (BitVec 8)) (lg : Nat) : Bool :=
  raw.length == 9 && raw.take 4 == ([0xA5, 0x3C, 0x0F, 0x96] : List (BitVec 8)) && byteAt raw 4 == lg
    && raw.getD 8 0 == (raw.take 8).foldl (· ^^^ ·) 0

/-- Bytes as a lane takes them from its balls: a lane found inverted turns every bit back (R117). -/
def State.laneIn (s : State) (l : Nat) (b : List (BitVec 8)) : List (BitVec 8) :=
  if s.on (LANE_STATUS_INVERTED l) then flipBytes (s.fld (PORT_LINK_CFG_RATE (l / 8)) == 2) b else b

/-- Smallest of the measures of a lane's eyes (R124). -/
def worstEye (l : List Nat) : Nat := l.foldl min (l.headD 0)

/-- AM_RECEIVED (R122 to R124): the marker is checked, the scrambler loaded, one setting moves and the eye is measured: at PAM4 the
worst of the three. The partner's direction is in L0 whether or not the own transmitter is in L1 (R128). -/
def execAmReceived (lane : BitVec 8) (raw : List (BitVec 8)) (up : Bool) (eyeH : List (BitVec 8)) (eyeW : List (BitVec 6)) (s : State) : Out :=
  let l := lane.toNat
  let p := l / 8
  let m := l % 8 / s.linkW p
  if !(s.lst p m = 4 ∨ s.lst p m = 5) ∨ !s.on (LANE_STATUS_IN_USE l) ∨ (s.link p m).rxIdle then .next s
  else
    let x := s.lane l
    let raw := s.laneIn l raw
    let lg := s.fld (LANE_STATUS_LOGICAL l)
    let seq := raw.getD 5 0
    let form := amOk raw lg
    let good := form && (match x.amSeqRx with
      | none => true
      | some q => q + 1 == seq)
    let next := if form then some seq else x.amSeqRx.map (· + 1)
    let t := s.setLane l { x with amMiss := if good then 0 else x.amMiss + 1, amSeqRx := next, fecRun := 0, scrRx := BitVec.ofNat 23 (scrSeed lg seq.toNat) }
    let t := if good then t else t.inc (LANE_AM_ERR l)
    let t := if t.on (LANE_ADAPT_CTL_FREEZE l) then t else t.adapt l up
    let t := t.sets [(LANE_EYE_STALE l, 0), (LANE_EYE_EYE_H l, worstEye (eyeH.map (·.toNat))), (LANE_EYE_EYE_W l, worstEye (eyeW.map (·.toNat)))]
    .next (if 2 ≤ (t.lane l).amMiss then t.laneFail l else t)

/-! ## Lane failure, width and link down (R125 to R127) -/

/-- LANE_FAILURE (R125): the lane has lost signal detect, and with it clock recovery, or clock recovery alone. -/
def execLaneFailure (loss : LaneLoss) (s : State) : Out :=
  let l := loss.lane.toNat
  if l / 8 < s.nPorts && s.live then
    .next (((s.set (LANE_STATUS_CDR_LOCK l) 0).when loss.signal fun t => t.set (LANE_STATUS_SIG_DET l) 0).laneFail l)
  else .next s

/-- RETRAIN_DONE (R125, R126): steps 6 and 7 of Table 6.5 are reached, with 8 stable markers on the locked lanes and a TS_GO; the link
takes the width of R120, holds while R119 says so, or goes down. -/
def execRetrainDone (port : BitVec 5) (link : BitVec 3) (s : State) : Out :=
  let p := port.toNat
  let m := link.toNat
  if s.lst p m ≠ 7 ∨ !s.stable p m ∨ !((s.link p m).goSeen || (s.lockedLanes p m).isEmpty) then .next s
  else match s.stepSix p m with
    | .inl 5 => .next (s.linkDown p m 5)
    | .inl reason => .next (s.set (PORT_LINK_STATUS_REASON p m) reason)
    | .inr (w, k, rev) =>
      let old := (s.link p m).oldWidth
      let t := ((s.takeWidth p m w k).set (PORT_LINK_STATUS_REVERSED p m) (b2n rev)).enterL0 p m
      .next (if widthCode w < old then t.raise .width p (k * 2 ^ 16 + m) else t)

/-- RETRAIN_TIMEOUT (R127). -/
def execRetrainTimeout (port : BitVec 5) (link : BitVec 3) (s : State) : Out :=
  let p := port.toNat
  let m := link.toNat
  if s.lst p m = 7 then .next (s.linkDown p m (if (s.lockedLanes p m).isEmpty then 2 else 0)) else .next s

/-- SIGNAL_LOSS_TIMEOUT (R127): every active lane has lacked signal for 1 µs. -/
def execSignalLossTimeout (port : BitVec 5) (link : BitVec 3) (s : State) : Out :=
  let p := port.toNat
  let m := link.toNat
  if inService (s.lst p m) then .next ((s.each (s.activeLanes p m) fun t l => t.set (LANE_STATUS_SIG_DET l) 0).linkDown p m 1)
  else .next s

/-! ## L1 and L2 (R128, R129) -/

/-- Does the transmitter have a flit to send: an idle-slot LCF is none (R139)? -/
def State.hasFlit (s : State) (p m : Nat) : Bool :=
  let l := s.link p m
  !l.sending.isEmpty || !l.replay.isEmpty || l.unreported || !(s.readyOut p m).isEmpty || l.resume

/-- L1_ENTRY (R128): the transmitter sends two TS_IDLE and squelches; LANE_EYE goes stale. -/
def execL1Entry (port : BitVec 5) (link : BitVec 3) (s : State) : Out :=
  let p := port.toNat
  let m := link.toNat
  if s.lst p m = 4 && (decide (0 < s.fld (PORT_LINK_CFG_L1_IDLE p)) || s.sleep == 1) && !s.hasFlit p m && (s.link p m).kept.isEmpty then
    .next (s.linkIdle p m)
  else .next s

/-- L1_EXIT (R128): four TS_GO, an AM, then flits. -/
def execL1Exit (port : BitVec 5) (link : BitVec 3) (s : State) : Out :=
  let p := port.toNat
  let m := link.toNat
  if s.lst p m = 5 && s.hasFlit p m then
    let t := s.each (s.activeLogical p m) fun t lg => t.setLane (t.laneIx p m lg) { t.lane (t.laneIx p m lg) with squelch := false }
    let t := ((t.sendMarkers p m 3 4).set (PORT_LINK_STATUS_STATE p m) 4)
    let u := t.sendAm p m
    .next (u.each (u.txLanes p m) fun v l => v.setLane l { v.lane l with sent := (t.lane l).sent ++ (v.lane l).sent })
  else .next s

/-- L2_EXIT (R129). -/
def execL2Exit (port : BitVec 5) (link : BitVec 3) (s : State) : Out :=
  let p := port.toNat
  let m := link.toNat
  if s.lst p m = 6 && decide (s.sleep < 2) && s.trainOk p then .next (s.leaveL2 p m) else .next s

/-! ## Test patterns (R130, R131) -/

/-- PRBS_CHECKER_LOCK (R130): the checker takes the bits that arrived; wrong bits count while it is in lock, and the count stays over a
loss of lock. -/
def execPrbsCheckerLock (lane : BitVec 8) (bits : List (BitVec 8)) (lost : Bool) (s : State) : Out :=
  let l := lane.toNat
  if s.nPorts ≤ l / 8 ∨ !s.live ∨ !s.on (LANE_PRBS_CTL_CHK_EN l) then .next s
  else
    let x := s.lane l
    let c := (laneBits bits).foldl (PrbsChk.bit (s.fld (LANE_PRBS_CTL_PATTERN l)))
      { reg := x.chk.toNat, run := x.chkRun, lock := s.on (LANE_PRBS_CTL_CHK_LOCK l), wrong := 0 }
    let t := (s.setLane l { x with chk := BitVec.ofNat 31 c.reg, chkRun := if lost then 0 else c.run }).incPair (LANE_PRBS_ERR_LO l) c.wrong
    .next (t.set (LANE_PRBS_CTL_CHK_LOCK l) (b2n (c.lock && !lost)))

/-- A generator sends its next 64-bit word, after a write of INJECT with one bit of it inverted (R130, R131): which one is free. -/
def State.genWord (s : State) (l : Nat) : State :=
  let x := s.lane l
  let w := prbsBytes (s.fld (LANE_PRBS_CTL_PATTERN l)) 8 x.gen.toNat
  let t := s.setLane l { x with gen := BitVec.ofNat 31 w.1, sent := w.2 }
  if s.on (LANE_PRBS_CTL_INJECT l) then
    let i := Config.freeNat s.free % 64
    let v := { t with free := t.free + 1 }
    (v.setLane l { v.lane l with sent := w.2.set (i / 8) (w.2.getD (i / 8) 0 ^^^ BitVec.ofNat 8 (2 ^ (i % 8))) }).set (LANE_PRBS_CTL_INJECT l) 0
  else t

/-- Every generator that is on sends a word. -/
def State.genWords (s : State) : State :=
  s.each ((s.lanes.map (·.1)).filter fun l => s.on (LANE_PRBS_CTL_GEN_EN l)) State.genWord

/-- A write of LANE_PRBS_CTL (R131): a generator starts its pattern, and INJECT reads 1 until its word is sent. -/
def State.prbsWrite (s : State) (l v : Nat) : BitVec 8 × State :=
  let p := l / 8
  let free := s.role p == 0 || !s.on (PORT_LINK_CFG_LINK_EN p)
  if ((bitAt v 0 || bitAt v 1) && !free) || (bitAt v 9 && !s.on (LANE_PRBS_CTL_GEN_EN l)) then (stSTATE, s.viol (LANE_PRBS_CTL l).off .state)
  else
    let t := s.sets [(LANE_PRBS_CTL_PATTERN l, bitsOf v 5 4), (LANE_PRBS_CTL_CHK_EN l, bitsOf v 1 1), (LANE_PRBS_CTL_GEN_EN l, bitsOf v 0 0),
      (LANE_PRBS_CTL_INJECT l, b2n (bitAt v 0 && (bitAt v 9 || s.on (LANE_PRBS_CTL_INJECT l))))]
    let t := if bitAt v 1 then t else t.set (LANE_PRBS_CTL_CHK_LOCK l) 0
    let restart := !s.on (LANE_PRBS_CTL_GEN_EN l) || s.fld (LANE_PRBS_CTL_PATTERN l) != bitsOf v 5 4
    let x := t.lane l
    let x := if bitAt v 1 && s.on (LANE_PRBS_CTL_CHK_EN l) then x else { x with chk := 0, chkRun := 0 }
    let x := if restart then { x with gen := BitVec.allOnes 31 } else x
    (stOK, t.setLane l (if free then { x with squelch := !bitAt v 0 } else x))

/-- A write of PORT_LINK_CFG with legal values (R132, R118). -/
def State.linkCfgWrite (s : State) (p v : Nat) : BitVec 8 × State :=
  let old := s.reg (PORT_LINK_CFG p).off
  let busy := (List.range (s.nLinks p)).any fun m => s.lst p m != 0
  if busy && bitsOf old 5 0 != bitsOf v 5 0 then (stSTATE, s.viol (PORT_LINK_CFG p).off .state)
  else
    let t := (s.setReg (PORT_LINK_CFG p).off v).checkPort p
    (stOK, t.closePairs)

/-! ## The link layer's receiver (R137, R143, R145) -/

/-- The flit's bytes after descrambling and, at 64 Gb/s, correction, with the lanes that had corrected bytes (R112, R113). -/
def State.readFlit (s : State) (p m : Nat) (wire : List (BitVec 8)) : State × List (BitVec 8) :=
  let ls := s.activeLanes p m
  let w := ls.length
  let step := fun (a : State × List (BitVec 8)) (k : Nat) =>
    match ls[k % w]? with
    | none => (a.1, a.2 ++ [wire.getD k 0])
    | some l =>
      let x := a.1.lane l
      let r := scrByte x.scrRx.toNat ((s.laneIn l [wire.getD k 0]).headD 0)
      (a.1.setLane l { x with scrRx := BitVec.ofNat 23 r.1 }, a.2 ++ [r.2])
  let r := (List.range 72).foldl step (s, [])
  if s.fld (PORT_LINK_CFG_RATE p) ≠ 2 then r
  else match rsErrors 4 r.2 with
    | none => r
    | some es =>
      (r.1.each es fun t e => match ls[e.1 % w]? with
        | none => t
        | some l => (t.inc (LANE_FEC_CORR l)).setLane l { t.lane l with fecRun := (t.lane l).fecRun + 1 }, rsApply r.2 es)

/-- Does the CRC match a prefix of the partner's? -/
def State.crcMatch (s : State) (p m kind seq : Nat) (f : List (BitVec 8)) : Bool :=
  leAt f 64 4 == crc32c (crcPrefix seq kind (s.fld (PORT_NEIGH_ID_DID p m)) (s.fld (PORT_NEIGH_ID_LINK p m)) (s.fld (PORT_NEIGH_ID_PORT p m)) ++ f.take 64)

/-- FLIT_RECEIVED (R137, R143). -/
def execFlitReceived (port : BitVec 5) (link : BitVec 3) (wire : List (BitVec 8)) (s : State) : Out :=
  let p := port.toNat
  let m := link.toNat
  if !(s.lst p m = 4 ∨ s.lst p m = 5) ∨ (s.link p m).rxIdle then .next s
  else
    let (t0, f0) := s.readFlit p m wire
    -- an injected error inverts the CRC (Table 18.4, checker 5)
    let (inj, t) := t0.injCheck 5 p
    let f := if inj.isSome then xorBytes f0 (zeros 64 ++ List.replicate 4 0xFF ++ zeros 4) else f0
    let l := t.link p m
    let u := if t.crcMatch p m 0x0 l.rxExp.toNat f then t.acceptFlit p m (f.take 64)
      else if t.crcMatch p m 0xC 0 f then t.onLcf p m (f.take 64)
      else if l.retryWait then t.inc (PORT_RETRY_DISCARD p)
      else (t.inc (PORT_CRC_BAD p)).raiseNak p m
    .next (u.each (u.activeLanes p m) fun v x => if 64 < (v.lane x).fecRun then v.laneFail x else v)

/-- NAK_TIMER_EXPIRY (R143). -/
def execNakTimerExpiry (port : BitVec 5) (link : BitVec 3) (s : State) : Out :=
  let p := port.toNat
  let m := link.toNat
  if (s.lst p m = 4 ∨ s.lst p m = 5) && (s.link p m).retryWait then .next (s.raiseNak p m) else .next s

/-- REPLAY_TIMEOUT (R143). -/
def execReplayTimeout (port : BitVec 5) (link : BitVec 3) (s : State) : Out :=
  let p := port.toNat
  let m := link.toNat
  let l := s.link p m
  if s.lst p m = 4 && !l.kept.isEmpty && !l.resume then .next ((s.setLink p m { l with replay := l.kept }).inc (PORT_REPLAY_TO p)) else .next s

/-- LCF_DUE (R139). -/
def execLcfDue (port : BitVec 5) (link : BitVec 3) (s : State) : Out :=
  let p := port.toNat
  let m := link.toNat
  if s.lst p m = 4 && (s.link p m).unreported then .next (s.sendLcf p m) else .next s

/-- NO_VALID_FLIT_TIMEOUT (R145). -/
def execNoValidFlitTimeout (port : BitVec 5) (link : BitVec 3) (s : State) : Out :=
  let p := port.toNat
  let m := link.toNat
  if (s.lst p m = 4 ∨ s.lst p m = 5) && !(s.link p m).rxIdle then .next ((s.inc (PORT_LL_RETRAIN_REQ p)).retrain p m) else .next s

/-! ## The flit slot (R139, R142, R170) -/

/-- A packet starts; a TELEM of the stack's own is sent now (R431). -/
def State.launch (s : State) (p m k : Nat) (o : OutPkt) : State :=
  let t := s.startPacket p m k o
  if o.inPort.isNone && o.pkt.hdr.opc == opTELEM then t.incPair TEL_SENT_LO 1 else t

/-- A flit of the retry buffer is sent again (R143); one that is uncorrectable takes the link down (Table 17.2, R149). -/
def State.replayFlit (s : State) (p m : Nat) (k : KeptFlit) (rest : List KeptFlit) : State :=
  match s.injCheck 4 p with
  | (some true, t) => t.linkDown p m 0
  | (_, t) => ((t.setLink p m { t.link p m with replay := rest }).inc (PORT_REPLAYED_FLITS p)).sendPacketFlit p m k.seq k.content

/-- A packet of which a cell is uncorrectable is discarded as it would be sent (Table 17.2). -/
def State.dropOut (s : State) (k : Nat) : State :=
  ({ s with sw := { s.sw with egress := ldrop s.sw.egress k } } : State).inc MARL_UE_DROP

/-- PACKET_SEND (R170): one flit slot of a link: an LCF that goes first, a replayed flit, the packet in hand, a new packet, or
an idle LCF. -/
def execPacketSend (port : BitVec 5) (link : BitVec 3) (s : State) : Out :=
  let p := port.toNat
  let m := link.toNat
  let l := s.link p m
  if s.lst p m ≠ 4 ∨ s.dead ∨ !s.fabOn then .next s
  else if l.resume || l.lcfAhead then .next (s.sendLcf p m)
  else match l.replay with
    | k :: rest => .next (s.replayFlit p m k rest)
    | [] =>
      if s.retryCap p ≤ l.kept.length then .next (s.sendLcf p m)
      else if !l.sending.isEmpty then .next (s.sendNext p m)
      else match s.chooseOut p m with
        | some (k, o) => .next (if o.bad then (s.dropOut k).sendLcf p m else s.launch p m k o)
        | none => .next (s.sendLcf p m)

end Sys2Proof.Machine
end

