-- ==== Sys2Proof/Machine/SwitchCmds.lean ====
section
/-! DEFINITION. The switch and the bypass pairs (08_fabric_routing.md): waits (R166), moves (R216), closing and opening of
pairs (R172, R173), the fabric snapshot (R176, R177), and the register writes of roles, routes and credits. -/

namespace Sys2Proof.Machine

set_option Elab.async false

/-- Every link's admission is judged anew: waiting packets are routed again, stranded ones wait (R154, R166). -/
def State.readmit (s : State) : State := (s.each (List.range s.nPorts) State.strand).reroute

/-- LINK_WAIT_EXPIRY (R166): the packet is routed once more and fails if it still has no usable port. -/
def execLinkWaitExpiry (ix : Nat) (s : State) : Out :=
  match s.sw.egress[ix]? with
  | none => .next s
  | some o =>
    if o.waiting.isNone then .next s
    else
      .next (({ s with sw := { s.sw with egress := ldrop s.sw.egress ix } }).waitEnds o)

/-- EGRESS_MOVE (R216): the first packet of an ingress account that can move does; a head that cannot begins back-pressure. -/
def execEgressMove (port : BitVec 5) (vc : BitVec 3) (s : State) : Out :=
  if !s.live || !s.fabOn then .next s
  else
    let mine := (List.range s.sw.ingress.length).filter fun k => match s.sw.ingress[k]? with
      | some i => i.port == port.toNat && i.vc == vc.toNat && s.route i.pkt i.arrival != .here
      | none => false
    let moves := fun k => decide ((s.tryMove k).sw.ingress.length < s.sw.ingress.length)
    let t := match mine.head? with
      | some k => if moves k then s else s.tryMove k
      | none => s
    .next (match mine.find? moves with
      | some k => t.tryMove k
      | none => t)

/-! ## Bypass pairs -/

/-- BYPASS_CLOSE (R172). -/
def execBypassClose (pair : BitVec 4) (s : State) : Out := if s.mustClose pair.toNat then .next (s.closePair pair.toNat) else .next s

/-- BYPASS_OPEN (R173): the pair is listen-ready; it opens unless a closing condition holds. -/
def execBypassOpen (pair : BitVec 4) (forceN : Bool) (s : State) : Out :=
  let t := ({ s with pins := { s.pins with bypForceN := forceN } }).closePairs
  let k := pair.toNat
  if !(t.live && t.rails.vser && t.rails.vserh && t.pairClosed k && (t.portWants (2 * k) || t.portWants (2 * k + 1))) then .next t
  else if t.mustClose k then .next (t.set RT_BYP_STATUS_LISTEN_READY (putBit (t.fld RT_BYP_STATUS_LISTEN_READY) k true))
  else .next (t.openPair k)

/-- BYP_FORCE_N_LOW (R172). -/
def execBypForceNLow (s : State) : Out := .next ({ s with pins := { s.pins with bypForceN := false } }).closePairs

/-! ## The fabric snapshot (R176, R177) -/

/-- Registers of the snapshot: every lane's taps, port registers, RT registers and routes. -/
def snapOffs : List Nat :=
  ((List.range 32).flatMap fun p => [(PORT_ROLE p).off, (PORT_CFG p).off, (PORT_LINK_CFG p).off, (PORT_LL_CFG p).off] ++ (List.range 5).map fun v => (PORT_CRED_INIT p v).off)
  ++ ((List.range 256).map fun l => (LANE_TX_EQ l).off)
  ++ [RT_CFG.off] ++ (List.range 3).map (fun d => (RT_MEMBERS d).off) ++ [RT_BYP_CFG.off]
  ++ (List.range 16).map (fun n => (RT_POD n).off) ++ (List.range 16).map (fun n => (RT_RING n).off) ++ (List.range 16).map fun n => (RT_POS n).off

/-- The snapshot of the present set-up. -/
def State.takeSnapshot (s : State) : Snapshot :=
  { regs := snapOffs.map fun o => (o, BitVec.ofNat 32 (s.reg o)), did := BitVec.ofNat 12 s.did, strap := BitVec.ofNat 12 (s.fld GLB_DID_STRAP_DID), variantCode := s.fuse.variantCode }

/-- SNAPSHOT_COMPLETE (R176). -/
def execSnapshotComplete (s : State) : Out :=
  match s.recd.snapBusy with
  | none => .next s
  | some n => .next { s with recd := { s.recd with snapBusy := none }, sett := { s.sett with snapshot := some n } }

/-- The load at the start of P3 (R177). -/
def State.loadSnapshot (s : State) : State :=
  match s.sett.snapshot with
  | none => s
  | some n =>
    if n.crcOk && n.strap.toNat == s.fld GLB_DID_STRAP_DID && n.variantCode == s.fuse.variantCode then
      ((s.each n.regs fun t e => t.setReg e.1 e.2.toNat).set GLB_DID_DID n.did.toNat).set RT_CFG_SNAP_LOADED 1
    else s.event 0x09 1 0 0 0

/-! ## Register writes -/

/-- Is some link of the port not DOWN? -/
def State.portBusy (s : State) (p : Nat) : Bool := (List.range 8).any fun m => s.lst p m != 0

/-- The shared pool keeps its minimum (R214). -/
def State.poolOk (s : State) : Bool := decide (s.reservedCells + (if s.k48 then 8192 else 16384) ≤ s.bufCells)

/-- A write of GLB_DID (R154). -/
def State.didWrite (s : State) (v : Nat) : BitVec 8 × State := (stOK, (s.set GLB_DID_DID v).readmit)

/-- A pair that a valid route entry names. -/
def State.pairRouted (s : State) (k : Nat) : Bool :=
  (List.range 3).any fun d => (List.range 16).any fun n => s.on (rtValid d n) && bitAt (s.fld (rtPairs d n)) k

/-- A write of PORT_ROLE (R160, R214, R55). -/
def State.roleWrite (s : State) (p v : Nat) : BitVec 8 × State :=
  let off := (PORT_ROLE p).off
  let no := (stSTATE, s.viol off .state)
  let t := s.setReg off v
  if !t.poolOk then no
  else if v = s.role p then (stOK, s)
  else if s.portBusy p || s.pairRouted (p / 2) || !s.portClocked p then no
  else (stOK, (t.closePairs.checkPort p).readmit)

/-- A write of PORT_CFG (R160). -/
def State.portCfgWrite (s : State) (p v : Nat) : BitVec 8 × State :=
  let off := (PORT_CFG p).off
  if v = s.reg off then (stOK, s)
  else if s.portBusy p then (stSTATE, s.viol off .state)
  else (stOK, (s.setReg off v).readmit)

/-- A write of PORT_CRED_INIT (R150, R214). -/
def State.credWrite (s : State) (p v val : Nat) : BitVec 8 × State :=
  let off := (PORT_CRED_INIT p v).off
  let t := s.setReg off val
  if s.portBusy p || !t.poolOk then (stSTATE, s.viol off .state) else (stOK, t)

/-- Pair `k` is consistent and holds a dimension's role (Table 8.5). -/
def State.pairFits (s : State) (d k : Nat) : Bool := s.role (2 * k) == roleOfDim d && s.consistent (2 * k)

/-- A write of a route entry (R168). -/
def State.routeWrite (s : State) (d n v : Nat) : BitVec 8 × State :=
  let off := (rtValid d n).off
  let bad := bitAt v 31 && (bitList 16 v).any fun k => !s.pairFits d k
  let live := s.on (rtValid d n) && v != s.reg off && (bitList 16 (s.fld (rtPairs d n))).any fun k => s.portBusy (2 * k) || s.portBusy (2 * k + 1)
  if bad || live then (stSTATE, s.viol off .state) else (stOK, s.setReg off v)

/-- A write of RT_MEMBERS (R168). -/
def State.membersWrite (s : State) (d v : Nat) : BitVec 8 × State :=
  let off := (RT_MEMBERS_MASK d).off
  if (List.range s.nPorts).any fun p => s.role p == roleOfDim d && s.portBusy p then (stSTATE, s.viol off .state)
  else (stOK, (s.setReg off v).readmit)

/-- A write of RT_BYP_CFG: a hold closes its pair (Table 8.6). -/
def State.bypCfgWrite (s : State) (v : Nat) : BitVec 8 × State := (stOK, (s.setReg RT_BYP_CFG.off v).closePairs)

/-- A write of RT_BYP_OPEN (Table 8.13). -/
def State.bypOpenWrite (s : State) (v : Nat) : BitVec 8 × State := (stOK, s.set RT_BYP_OPEN_OPEN (s.fld RT_BYP_OPEN_OPEN ||| bitsOf v 15 0))

end Sys2Proof.Machine
end

