-- ==== Sys2Proof/Machine/PacketCmds.lean ====
section
/-! DEFINITION. Packets addressed to the stack (09_packets.md): the checks of R197 in their order, acceptance (R217), the SVC of
other stacks (R336), doorbells (R302), and the answers to the stack's own requests (R199, R207, R334). -/

namespace Sys2Proof.Machine

set_option Elab.async false

/-! ## A packet at this stack -/

/-- Place of a packet in the switch that is addressed to the stack itself. -/
def State.localAt (s : State) (p : Packet) : Option Nat :=
  (List.range s.sw.ingress.length).find? fun k => match s.sw.ingress[k]? with
    | some i => i.pkt == p && p.hdr.dst == s.eid
    | none => false

/-- The packet in the switch; a packet that no port has brought joins the account of the stack's own units. -/
def State.withLocal (s : State) (p : Packet) : State × Nat :=
  match s.localAt p with
  | some k => (s, k)
  | none => (s.addIn { port := ownPort, link := 8, vc := p.hdr.vc, pkt := p, cells := p.flits, at_ := s.now }, s.sw.ingress.length)

/-- A packet of the stack's own units, which no window tests (R202). -/
def State.ownPkt (s : State) (i : InPkt) : Bool := i.port == ownPort && i.pkt.hdr.src == s.eid

/-- Does the stack serve packets addressed to it now? -/
def State.serves (s : State) (p : Packet) : Bool := s.awake && p.hdr.dst == s.eid

/-! ## Checks (R197, R198) -/

end Sys2Proof.Machine

namespace Sys2Proof
open Sys2Proof.Machine

/-- Header fields that no request may use; `fl` are the FLAGS bits it may (R180, R183). -/
def Hdr.plain (h : Hdr) (fl : Nat) : Bool := h.status == 0 && h.rsv == 0 && h.flags.toNat ||| fl == fl

/-- The request's row of Table 9.3, R186, R188 and R189. -/
def Packet.okForm (p : Packet) : Bool :=
  let h := p.hdr
  let sub := h.subop.toNat
  let a := h.addr.toNat
  let n := h.len.toNat
  if h.opc = opRD then h.plain 0xD && decide (sub ≤ 63) && a % 64 == 0 && n == 0 && decide (a % 4096 + 64 * (sub + 1) ≤ 4096)
  else if h.opc = opWR then h.plain 0xF && sub == 0 && a % 64 == 0 && decide (64 ≤ n) && n % 64 == 0 && decide (a % 4096 + n ≤ 4096)
  else if h.opc = opWRP then
    h.plain 0xF && decide (sub ≤ 3) && a % 64 == 0 && n == 32 + 64 * (sub + 1) && decide (a % 4096 + 64 * (sub + 1) ≤ 4096)
      && (slice p.payload (8 * (sub + 1)) (32 - 8 * (sub + 1))).all (· == 0)
  else if h.opc = opATOM then
    h.plain 0x7 && decide (sub < 32) && (atomNew (sub % 16) (atomWidth sub) 0 0 0).isSome && n == 16 && a % (atomWidth sub / 8) == 0
  else if h.opc = opSVC then h.plain 0x5 && decide (1 ≤ sub) && decide (sub ≤ 0x3F) && decide (n ≤ 4096)
  else if h.opc = opDBELL then h.plain 0x1 && decide (sub < 64) && decide (a < 2 ^ 32) && n == 0
  else if h.opc = opMREGRD then h.plain 0x1 && decide (sub < 16) && a % 4 == 0 && decide (a < 2 ^ 24) && decide (a + 4 * sub ≤ 0xFFFFFF) && n == 0
  else if h.opc = opMREGWR then h.plain 0x1 && sub == 0 && a % 4 == 0 && decide (a < 2 ^ 24) && n == 4
  else false

/-- Bytes of a memory request, and the window permission it needs. -/
def Packet.bytes (p : Packet) : Nat := if p.hdr.opc = opATOM then atomWidth p.hdr.subop.toNat / 8 else 64 * p.blocks
def Packet.need (p : Packet) : Nat := if p.hdr.opc = opRD then permR else if p.hdr.opc = opATOM then permA else permW

/-- Cells of the response to a memory request: none where it is posted (R217). -/
def Packet.rspCells (p : Packet) : Nat :=
  if !p.hdr.expects then 0 else if p.hdr.opc = opRD then flitsOfLen (64 * p.blocks) else 1

/-- Must a request of the same source that arrived later wait for this one (R194): either is ORDERED, or they share a block? -/
def Packet.orders (p q : Packet) : Bool :=
  let ops := fun (h : Hdr) => h.isMem || h.opc == opSVC
  let a := p.hdr.addr.toNat / 64
  let b := q.hdr.addr.toNat / 64
  p.hdr.src == q.hdr.src && ops p.hdr && ops q.hdr
    && (p.hdr.ordered || q.hdr.ordered || (p.hdr.isMem && q.hdr.isMem && decide (a < b + q.blocks) && decide (b < a + p.blocks)))

end Sys2Proof

namespace Sys2Proof.Machine

/-- Is the request an MREG_RD or MREG_WR? -/
def isMregReq (o : BitVec 8) : Bool := o == opMREGRD || o == opMREGWR

/-- Must the packet at place `k`, which is for this stack, wait for an earlier one: of its own ingress account (R216), of its source
as R194 orders them, or for the register target (R206)? -/
def State.overtakes (s : State) (k : Nat) (i : InPkt) : Bool :=
  (s.sw.ingress.take k).any fun j =>
    j.pkt.hdr.dst == s.eid
      && ((j.port == i.port && j.vc == i.vc) || j.pkt.orders i.pkt || (isMregReq j.pkt.hdr.opc && isMregReq i.pkt.hdr.opc))

/-- The packet at place `k` of the switch. -/
def State.inAt (s : State) (k : Nat) (p : Packet) : InPkt := (s.sw.ingress[k]?).getD { port := ownPort, link := 8, vc := 0, pkt := p, cells := 0, at_ := 0 }

/-- STATE of a local request in the stack's present state: start-up and sleep entry count in GLB, QUIESCE in MARL (Table 9.7,
R231). -/
def State.stateCheck (s : State) : Option State :=
  if !s.ready || s.pwr.entry.isSome then some (s.viol 0 .state)
  else if s.on MARL_CTL_QUIESCE then some (s.viol MARL_CTL.off .state)
  else none

/-- The checks of R197 for RD, WR, WRP and ATOM: the status that the first failing one gives, and its counter. `own`: a request of
the stack's own units. -/
def State.memCheck (s : State) (p : Packet) (own : Bool) : Option (BitVec 8 × State) :=
  let a := p.hdr.addr.toNat
  if !p.okForm then some (stMALFORMED, s.inc GLB_CNT_VIOL_MALFORMED)
  else if !own && !s.windowOk p.hdr.src p.need a p.bytes then some (stACCESS, s.inc RT_CNT_VIOL_WINDOW)
  else if s.memTop < a / 64 * 64 + 64 * p.blocks then some (stRANGE, s.inc GLB_CNT_VIOL_RANGE)
  else match s.stateCheck with
    | some t => some (stSTATE, t)
    | none => s.localCheck a p.blocks

/-! ## Acceptance of memory requests -/

/-- The answer to a refused request, where it expects one (R192, R199). -/
def State.refuse (s : State) (p : Packet) (st : BitVec 8) : State := if p.hdr.expects then s.emitRsp (mkRsp s.eid p.hdr st 0 []) else s

/-- A request of the recorder in this stack's own memory: background work (R279, R429). -/
def State.bgAccess (s : State) (i : InPkt) : Bool :=
  i.port == ownPort && s.fox.outs.any fun o => o.tag == i.pkt.hdr.tag && match o.owner with
    | .recRead _ => true
    | _ => false

/-- The lines whose slices take the cells of the response to a memory request (R215). -/
def rspLines (p : Packet) : List (Option Nat) := (List.range p.rspCells).map fun k => some (p.hdr.addr.toNat / 64 + (k - 1))

/-- RD, WR, WRP or ATOM at acceptance: it waits its turn or for response space, is refused, or is served (R197, R217). -/
def State.takeRequest (s : State) (p : Packet) : State :=
  if !s.serves p then s
  else
    let (t, k) := s.withLocal p
    let i := t.inAt k p
    if t.overtakes k i then t
    else if i.bad then t.dropBad k
    else if !t.rspRoom p.rspCells then (if t.isHead k i then t.backPressure i.port i.vc else t)
    else
      let u := (t.takeIn k).when (!t.idleAccess p) State.activity
      match u.memCheck p (t.ownPkt i) with
      | some (st, v) => v.refuse p st
      | none =>
        let (h, v) := u.placeCells (rspLines p)
        (v.accept p p.blocks p.rspCells none (bg := t.bgAccess i) (held := h)).serve

/-- RD (R185 to R187, Table 10.3). -/
def execRd (p : Packet) (s : State) : Out := .next (s.takeRequest p)
/-- WR (R185, R187). -/
def execWr (p : Packet) (s : State) : Out := .next (s.takeRequest p)
/-- WRP (R188). -/
def execWrp (p : Packet) (s : State) : Out := .next (s.takeRequest p)
/-- ATOM (R189 to R191). -/
def execAtom (p : Packet) (s : State) : Out := .next (s.takeRequest p)

/-! ## SVC (R336) -/

/-- Stages marked SVC in Table 15.5. -/
def svcOps : List Nat := [0x01, 0x02, 0x03, 0x04, 0x05, 0x06, 0x07, 0x08, 0x09, 0x0A]

/-- LOCAL locations of a stage operand that are tested at acceptance: permission, address, bytes (R202). -/
def svcRanges (op : Nat) (o : List (BitVec 8)) : List (Nat × Nat × Nat) :=
  let l := fun (need i n : Nat) => if byteAt o (i + 11) = 0 then [(need, leAt o i 8, n)] else []
  let es := 2 ^ byteAt o 60
  let iw := if byteAt o 61 = 0 then 4 else 8
  match op with
  | 0x01 => l permW 8 (leAt o 24 8)
  | 0x02 => l permR 8 (leAt o 40 8) ++ l permW 24 (leAt o 40 8)
  | 0x03 => l permW 24 (leAt o 56 4 * es) ++ l permR 40 (leAt o 56 4 * iw)
  | 0x04 => l permR 8 (leAt o 56 4 * es) ++ l permR 40 (leAt o 56 4 * iw)
  | 0x05 => (List.range (byteAt o 9)).flatMap fun p => l permR (16 + 24 * p) (leAt o (32 + 24 * p) 8 * dtSize (headDtype o))
  | 0x06 => l permR 8 (leAt o 24 8)
  | 0x07 => l permR 8 (leAt o 40 8) ++ l permR 24 (leAt o 40 8)
  | 0x08 =>
    let i := leAt o 64 8 - leAt o 16 8
    [(permR, leAt o 48 8 + byteAt o 72 * 65536, 65536), (permW, leAt o 40 8 + i * 65536, 65536), (permR ||| permW, leAt o 56 8 + i * 16, 16)]
  | 0x09 =>
    let ez := 2 ^ byteAt o 64
    l permR 8 ((leAt o 40 4 - 1) * leAt o 48 8 + leAt o 44 4 * ez) ++ l permW 24 ((leAt o 44 4 - 1) * leAt o 56 8 + leAt o 40 4 * ez)
  | 0x0A => l permR 32 (24 * leAt o 12 4) ++ l permW 48 (8 * leAt o 12 4)
  | _ => []

/-- The SVC's form: its stage, its operand, ADDR 0 (R336). -/
def State.svcForm (s : State) (p : Packet) : Bool :=
  p.okForm && p.hdr.addr == 0 && svcOps.contains p.hdr.subop.toNat
    && operandOk true p.hdr.subop.toNat 0 (s.fld CVU_CKP_GRANULES) p.payload p.payload.length

/-- The checks of R197 for an SVC. -/
def State.svcCheck (s : State) (p : Packet) : Option (BitVec 8 × State) :=
  if !s.svcForm p then some (stMALFORMED, s.inc GLB_CNT_VIOL_MALFORMED)
  else if p.hdr.src.toNat % 64 ≠ 63 then some (stACCESS, s.inc RT_CNT_VIOL_ACCESS)
  else if (svcRanges p.hdr.subop.toNat p.payload).any fun r => decide (0 < r.2.2) && !s.windowOk p.hdr.src r.1 r.2.1 r.2.2 then some (stACCESS, s.inc RT_CNT_VIOL_WINDOW)
  else match s.stateCheck with
    | some t => some (stSTATE, t)
    | none =>
      if s.on GLB_START_STATUS_FW_DEGRADED || s.fox.allDisabled || !((List.range s.nEngines).any s.engEnabled) then some (stSTATE, s.viol 0 .state)
      else none

/-- Bytes of the SVC pool in use, a quarter of the den/staging portion (R318). -/
def State.svcUsed (s : State) : Nat :=
  (s.fox.svcQueue.map fun p => p.payload.length).sum + (s.fox.jobs.map fun j => match j.svc with
    | some p => p.payload.length
    | none => 0).sum

/-- SVC (R336): refused, kept waiting for space, or queued for an engine. -/
def execSvc (p : Packet) (s : State) : Out :=
  if !s.serves p then .next s
  else
    let (t, k) := s.withLocal p
    let i := t.inAt k p
    if t.overtakes k i then .next t
    else if i.bad then .next (t.dropBad k)
    else if !t.rspRoom 1 || decide (t.denBytes / 4 < t.svcUsed + p.payload.length) then
      .next ((if t.isHead k i then t.backPressure i.port i.vc else t).svcWait k)
    else
      let u := (t.takeIn k).activity
      match u.svcCheck p with
      | some (st, v) => .next (v.refuse p st)
      | none => .next ({ u.incPair FOX_SVC_RX_LO 1 with fox := { u.fox with svcQueue := u.fox.svcQueue ++ [p], svcNums := u.fox.svcNums ++ [u.nextTxn] }, nextTxn := u.nextTxn + 1 })

/-! ## DBELL (R302, R303) -/

/-- What a well-formed doorbell does. -/
def State.doorbell (s : State) (p : Packet) : State :=
  let n := p.hdr.subop.toNat % 64
  if p.hdr.src != s.ringEid n then s.viol 0x8000 .access
  else if s.stateCheck.isSome || s.ringSt n ≠ 1 then s.viol 0x8000 .state
  else s.newP n p.hdr.addr.toNat

/-- DBELL: never answered. -/
def execDbell (p : Packet) (s : State) : Out :=
  if !s.serves p then .next s
  else
    let (t, k) := s.withLocal p
    let u := (t.takeIn k).activity
    .next (if t.overtakes k (t.inAt k p) then t
      else if (t.inAt k p).bad then t.dropBad k
      else if p.okForm then u.doorbell p else u.inc GLB_CNT_VIOL_MALFORMED)

/-! ## Answers to the stack's own requests (R199, R207) -/

/-- Does a response answer an outstanding request? -/
def OutReq.matches (o : OutReq) (h : Hdr) : Bool :=
  o.tag == h.tag && (h.src == o.pkt.hdr.dst || (h.src.toNat % 64 == 63 && (h.status == stUNREACH || h.status == stMALFORMED)))

/-- Statuses of Table 9.5 that a packet may carry. -/
def packetStatuses : List (BitVec 8) := [stOK, stPOISON, stACCESS, stSTATE, stUNREACH, stMALFORMED, stFENCED, stRANGE]

/-- Is LEN what Table 9.3 gives for the request and the status (R199 step 2)? -/
def rspLenOk (q : Hdr) (st : BitVec 8) (n : Nat) : Bool :=
  if q.opc = opRD then n == (if st = stOK ∨ st = stPOISON then 64 * (q.subop.toNat + 1) else 0)
  else if q.opc = opATOM then n == (if st = stOK then 8 else 0)
  else if q.opc = opSVC then n == 32 || (st != stOK && n == 0)
  else n == 0

/-- An outstanding request ends: what waited for it gets the answer. -/
def State.ownAnswered (s : State) (o : OutReq) (status : BitVec 8) (data : List (BitVec 8)) (remote : Bool) : State :=
  let t := ({ s with fox := { s.fox with outs := s.fox.outs.filter fun x => x.tag != o.tag } } : State).sendUnsent
  match o.owner with
  | .fetch n slot => t.fetchAnswered n slot status data
  | .rcb n => t.rcbAnswered n status data
  | .cpl n => (t.cplAnswered n status).finishRingResets
  | .stage e acc =>
    let det := if o.pkt.hdr.opc = opSVC then BitVec.ofNat 32 (leAt data 16 4) else 0
    t.engAnswer e acc { status := status, data := data, detail := det, remote := remote }
  | .recRead job => t.recReadAnswered job status
  | .gone => t

/-- A response addressed to the stack: matched, judged, delivered. -/
def State.takeResponse (s : State) (p : Packet) : State :=
  if !(s.live && p.hdr.dst == s.eid) then s
  else
    let (t, k) := s.withLocal p
    let u := t.takeIn k
    if t.overtakes k (t.inAt k p) then t
    else if (t.inAt k p).bad then t.dropBad k
    else match u.fox.outs.find? fun o => o.matches p.hdr with
    | none => u.inc GLB_RSP_UNEXPECTED
    | some o =>
      let q := o.pkt.hdr
      if rspOpc q.opc == some p.hdr.opc && packetStatuses.contains p.hdr.status && rspLenOk q p.hdr.status p.hdr.len.toNat then
        u.ownAnswered o p.hdr.status p.payload (p.hdr.src != u.eid)
      else (u.inc GLB_CNT_VIOL_MALFORMED).ownAnswered o stMALFORMED [] (p.hdr.src != u.eid)

/-- RD_RSP (R207). -/
def execRdRsp (p : Packet) (s : State) : Out := .next (s.takeResponse p)
/-- WR_ACK (R207). -/
def execWrAck (p : Packet) (s : State) : Out := .next (s.takeResponse p)
/-- ATOM_RSP (R207). -/
def execAtomRsp (p : Packet) (s : State) : Out := .next (s.takeResponse p)
/-- SVC_RSP (R207, R337). -/
def execSvcRsp (p : Packet) (s : State) : Out := .next (s.takeResponse p)
/-- MREG_RSP (R199, R207): the stack sends no MREG request, so this answers none. -/
def execMregRsp (p : Packet) (s : State) : Out := .next (s.takeResponse p)

/-- REQUEST_TIMEOUT (R334, R310): no answer in 10 ms. -/
def execRequestTimeout (tag : BitVec 16) (s : State) : Out :=
  match s.fox.outs.find? fun o => o.tag == tag with
  | none => .next s
  | some o => if s.live then .next (s.ownAnswered o 0x0E [] false) else .next s

end Sys2Proof.Machine
end

