-- ==== Sys2Proof/Machine/Marl.lean ====
section
/-! DEFINITION. The Marl store's commands (10_marl_store.md): fills and write-backs ending (R222, R224), flushes (R226),
quiesce and repartitioning (R231), the slice map (R220) and slice failure (R232). -/

namespace Sys2Proof.Machine

set_option Elab.async false

/-! ## Fills and write-backs -/

/-- MISS_FILL_DONE (R222, R223): the block fills its line or its response cell, and what waited for it is served. -/
def execMissFillDone (c : BitVec 5) (s : State) : Out := .next (if s.live then (s.fillDone c.toNat).serve else s)

/-- The layer reports the oldest issued write of a channel done (R224). -/
def State.confirmWrite (s : State) (c : Nat) : State :=
  let k := s.chn c
  match (enum k.writes).find? fun e => e.2.issued with
  | none => s
  | some (i, w) =>
    let t := s.setChn c { k with writes := ldrop k.writes i }
    match w.line with
    | some l => t.lineWritten l
    | none => t

/-- WRITEBACK_CONFIRMED (R224). -/
def execWritebackConfirmed (c : BitVec 5) (s : State) : Out := .next (if s.live then (s.confirmWrite c.toNat).serve else s)

/-! ## Flushes (R226) -/

/-- A flush begins: dirty lines are marked; in mode 1 the clean ones are invalid at once. Lines of fenced channels stay as
they are (R76). -/
def State.startFlush (s : State) (inv ring0 : Bool) : State :=
  let keep := s.marl.lines.filter fun e => !(inv && e.2.st == .clean)
  let mark := keep.map fun (e : Nat × Line) => (e.1, if e.2.st == .dirty && !s.lineFenced e.1 then ({ e.2 with flushMark := true } : Line) else e.2)
  ({ s with marl := { s.marl with lines := mark, flush := some inv, flushRing0 := ring0 } }).set MARL_STATUS_FLUSH_BUSY 1

/-- The write of MARL_FLUSH with GO = 1: whether it is taken (Table 10.10; GLB_LOCK is judged before). -/
def State.flushWrite (s : State) (v : Nat) : BitVec 8 × State :=
  if !bitAt v 0 then (stOK, s)
  else if s.locked || s.on MARL_STATUS_FLUSH_BUSY || s.on MARL_CTL_QUIESCE then (stSTATE, s.viol MARL_FLUSH.off .state)
  else (stOK, s.startFlush (bitAt v 1) false)

/-- MARL_WB (R226, 0x48). -/
def execMarlWb (s : State) : Out :=
  .next (s.startMgmt 0x48 fun t m =>
    if m.payload.length < 8 ∨ 1 < byteAt m.payload 0 ∨ leAt m.payload 1 7 ≠ 0 then t.mgmtRefuse m.job stMALFORMED 0x80000
    else if t.on MARL_STATUS_FLUSH_BUSY || t.pwr.entry.isSome || t.on MARL_CTL_QUIESCE then t.mgmtRefuse m.job stSTATE 0x80000
    else t.startFlush (byteAt m.payload 0 == 1) true)

/-- Does a column hold its writes, or a channel its requests, for a line? -/
def State.lineStuck (s : State) (l : Nat) : Bool :=
  let c := (s.placeOf l).1
  s.writeHeld c (s.placeOf l).2 || (s.col c).recal

/-- The flush has written back every line it marked (R226): the marks go, and a MARL_WB completes. -/
def State.endFlush (s : State) : State :=
  let marked := (s.marl.lines.filter fun e => e.2.flushMark).map (·.1)
  let t := s.each marked fun u l => u.writeBackNow l false
  let ring0 := t.marl.flushRing0
  let u := ({ t with marl := { t.marl with flush := none, flushRing0 := false, lines := t.marl.lines.map fun (e : Nat × Line) => (e.1, ({ e.2 with flushMark := false } : Line)) } }).set MARL_STATUS_FLUSH_BUSY 0
  if ring0 then u.each (u.mgmtOf 0x48) fun w m => w.mgmtDone m.job stOK [] else u

/-- FLUSH_DONE (R226). -/
def execFlushDone (s : State) : Out :=
  if s.marl.flush.isNone || !s.live || s.marl.lines.any fun e => e.2.flushMark && s.lineStuck e.1 then .next s
  else .next s.endFlush.serve

/-! ## The slice map (R220) -/

/-- Slices that serve the cache. -/
def State.servingSlices (s : State) : List Nat := (List.range s.nSlices).filter fun i => !bitAt (s.fld (MARL_SLICE_OUT (i / 32))) (i % 32)

/-- Fill MARL_SLICE_MAP: excluded entries go to the serving slices in turn. -/
def State.fillSliceMap (s : State) : State :=
  let serve := s.servingSlices
  let out := (List.range s.nSlices).filter fun i => !serve.contains i
  let entry := fun (h : Nat) => if s.nSlices ≤ h then 0 else if serve.contains h then h else serve.getD (out.idxOf h % serve.length) 0
  let t := s.each (List.range 16) fun u n => u.setReg (MARL_SLICE_MAP n).off (entry (4 * n) + 2 ^ 8 * entry (4 * n + 1) + 2 ^ 16 * entry (4 * n + 2) + 2 ^ 24 * entry (4 * n + 3))
  t.set MARL_STATUS_SLICES_CACHE serve.length

/-! ## Quiesce and repartitioning (R231) -/

/-- The write of MARL_CTL. -/
def State.quiesceWrite (s : State) (v : Nat) : BitVec 8 × State :=
  let no := (stSTATE, s.viol MARL_CTL.off .state)
  if bitAt v 0 then
    if s.on MARL_CTL_QUIESCE then (stOK, s)
    else if s.on MARL_STATUS_FLUSH_BUSY || (List.range 63).any fun i => s.unfinished (i + 1) then no
    else (stOK, s.set MARL_CTL_QUIESCE 1)
  else if s.on MARL_STATUS_PART_BUSY then no
  else (stOK, s.sets [(MARL_CTL_QUIESCE, 0), (MARL_STATUS_QUIESCED, 0)])

/-- Every accepted local request is complete. -/
def State.localIdle (s : State) : Bool := s.txns.isEmpty && s.fox.svcQueue.isEmpty && !(s.fox.jobs.any fun j => j.svc.isSome)

/-- QUIESCED_REACHED (R231 step 3). -/
def execQuiescedReached (s : State) : Out := if s.on MARL_CTL_QUIESCE && s.localIdle then .next (s.set MARL_STATUS_QUIESCED 1) else .next s

/-- The write of MARL_PART (R231 step 4, R214). -/
def State.partWrite (s : State) (v : Nat) : BitVec 8 × State :=
  let no := (stSTATE, s.viol MARL_PART.off .state)
  if !s.on MARL_STATUS_QUIESCED || s.on MARL_STATUS_PART_BUSY then no
  else if !(s.setReg MARL_PART.off v).poolOk then no
  else (stOK, ({ s with marl := { s.marl with newPart := some (BitVec.ofNat 32 v) } }).set MARL_STATUS_PART_BUSY 1)

/-- The write of MARL_BUF_CFG (R214). -/
def State.bufCfgWrite (s : State) (v : Nat) : BitVec 8 × State :=
  let t := s.setReg MARL_BUF_CFG.off v
  if t.poolOk then (stOK, t) else (stSTATE, s.viol MARL_BUF_CFG.off .state)

/-- The division changes hands: the cache is written back and invalid, the banks are reassigned, the map rebuilt. -/
def State.repartition (s : State) (v : Nat) : State :=
  let t := s.each (s.marl.lines.map (·.1)) fun u l => u.writeBackNow l false
  let u := { t.emptyCache with marl := { t.emptyCache.marl with newPart := none } }
  ((u.setReg MARL_PART.off v).set MARL_STATUS_PART_BUSY 0).fillSliceMap

/-- REPARTITION_DONE (R231 step 4): it comes once no line waits for a rebuild or a spare switch and the buffers given up
have drained. -/
def execRepartitionDone (s : State) : Out :=
  match s.marl.newPart with
  | none => .next s
  | some v =>
    if !s.live || (s.marl.lines.any fun e => s.heldLine e.1 e.2 || (e.2.st == .dirty && s.lineStuck e.1)) || decide (s.sharedCells < s.sharedUsed)
        || s.heldCells.any fun x => decide (s.bufBanks ≤ x / 4096 % 16) then .next s
    else .next (s.repartition v.toNat).reroute

/-! ## Slice failure (R232) -/

/-- A slice is retired: its dirty lines are written back, its sets leave the map, its units their pools. -/
def State.retireSlice (s : State) (i : Nat) : State :=
  if s.marl.retiredSlices.getLsbD i then s
  else
    let mine := (s.marl.lines.filter fun e => s.sliceOf e.1 == i).map (·.1)
    let t := s.each mine fun u l => u.writeBackNow l false
    let gone := fun (e : Nat × Line) => mine.contains e.1 && e.2.st == .clean
    let already := (t.marl.badUnits.filter fun u => u / 65536 == i).length
    let t := { t with marl := { t.marl with lines := t.marl.lines.filter (fun e => !gone e), fills := t.marl.fills.filter (fun e => s.sliceOf e.1 != i), evicting := [], retiredSlices := BitVec.ofNat 64 (putBit t.marl.retiredSlices.toNat i true) } }
    let t := (t.sets [(MARL_PAD_STATUS_RETIRED i, 1), (MARL_SLICE_OUT (i / 32), putBit (t.fld (MARL_SLICE_OUT (i / 32))) (i % 32) true)]).incBy MARL_CELLS_RETIRED (65536 - already)
    let t := t.fillSliceMap.raiseRec .sliceRetired 0 i
    (if t.poolOk then t else t.raiseRec .marlShort 0 0).settle

/-! ## Frozen re-attach (R229) -/

/-- P6 with a frozen Marl: the dirty lines go back under the first copy of the image whose CRC matches, or are lost where none does.
The FROZEN mark stays (R73). -/
def State.reattach (s : State) : State :=
  let clear := fun (t : State) => { t.emptyCache with marl := { t.emptyCache.marl with image := [] } }
  match s.marl.image.find? fun c => c.crc == c.img.crc with
  | some c =>
    -- every dirty line goes back under the image, whatever the registers hold (R74), its parity formed afresh (R240); those of fenced
    -- channels are lost (R76)
    let t := (s.setReg GLB_MEM_CFG.off c.img.memCfg.toNat).sets [(MARL_PART, c.img.part.toNat), (GLB_MEM_STATUS_GROUP_STATE, c.img.groupState.toNat)]
    let u := (t.each (t.marl.lines.map (·.1)) fun u l => u.writeBackNow l true).each (List.range s.nChans) State.loseDirty
    clear (u.sets [(GLB_MEM_CFG, s.memCfg), (MARL_PART, s.reg MARL_PART.off), (GLB_MEM_STATUS_GROUP_STATE, s.fld GLB_MEM_STATUS_GROUP_STATE)])
  | none =>
    if s.marl.image.isEmpty then s
    else
      let dirty := (s.marl.lines.filter fun e => e.2.st == .dirty).length
      -- the lines cannot be placed: the first one's block is open
      let t := if dirty = 0 then s else ({ s with free := s.free + 1 } : State).event 0x08 3 0x40 (Config.freeNat s.free % 2 ^ 26) dirty
      (clear t).raise .marlImage 0 0

end Sys2Proof.Machine
end

