-- ==== Sys2Proof/Machine/ChannelCmds.lean ====
section
/-! DEFINITION. The commands of the memory channels (11_memory_channels.md): the memory map (R237), one controller cycle (R243,
R247), refresh (R246), power-down (R248), PASR (R249), fences (R252), rebuilds (R241, R242), and entries that free (R284). -/

namespace Sys2Proof.Machine

set_option Elab.async false

/-! ## The memory map (R237) -/

/-- USABLE_GIB and DATA_CHANNELS follow the map (Table 11.9), and so do the granules covered (R362). -/
def State.showMap (s : State) : State :=
  let n := dataChans s.nChans s.memCfg
  s.sets [(GLB_MEM_STATUS_USABLE_GIB, n * 3), (GLB_MEM_STATUS_DATA_CHANNELS, n), (CVU_CKP_GRANULES, n * 3 * 16384)]

/-- GROUP_STATE with every parity group of the variant in one state. -/
def State.allGroups (s : State) (v : Nat) : State := s.each (List.range (s.nChans / 8)) fun t j => t.setGroupSt j v

/-- The write of GLB_MEM_CFG: the cache goes back under the old map and is invalid, the new map is in force, every block is
undefined, and the record is written before the answer. A RETIRED channel is retired no longer (R252). -/
def State.memCfgWrite (s : State) (v : Nat) : BitVec 8 × State :=
  if s.locked || !s.on MARL_STATUS_QUIESCED || s.on MARL_STATUS_PART_BUSY || s.rebuilding then (stSTATE, s.viol GLB_MEM_CFG.off .state)
  else
    let t := s.each (s.marl.lines.map (·.1)) fun u l => u.writeBackNow l false
    let t := { t.emptyCache with chan := { t.chan with dram := [], zeroed := [] }, sett := { t.sett with rebuild := [] }, prot := { t.prot with corrective := [], watched := [], ueOnce := [] } }
    let t := t.each (List.range 32) fun u c => u.set (CHAN_STATUS_RETIRED c) 0
    let t := t.setReg GLB_MEM_CFG.off v
    (stOK, ((t.allGroups (if t.parity then 1 else 0)).showMap.loseMaps).saveMap)

/-! ## Controller cycles -/

/-- The word of a CHN cycle, a command or a NOP, raises the sequence field (R257); what the receiving die finds of it is judged (R269). -/
def State.sendWord (s : State) (c : Nat) (w : WordRes) : State :=
  let k := s.chn c
  if !k.heartbeat || !s.chnOn c then s
  else
    let t := s.setChn c { k with seq := k.seq + 1 }
    let t := match w.ca with
      | some i => if i.toNat < 24 then t.coilErrors c [256 + i.toNat] else t
      | none => t
    match w.copy with
    | some i => if (t.col c).failed.contains (280 + i.toNat) then t else t.coilFail c (280 + i.toNat)
    | none => t

/-- DRAM_COMMAND_ISSUE (R243, R247, R257). -/
def execDramCommandIssue (c : BitVec 5) (pc : BitVec 1) (res : IssueRes) (s : State) : Out :=
  if s.awake && decide (c.toNat < s.nChans) then .next ((s.sendWord c.toNat res.word).issueCommand c.toNat pc.toNat res.draw.toNat).settle else .next s

/-- DRAM_READ_DATA (R377, R383 to R386). -/
def execDramReadData (c : BitVec 5) (err : List (BitVec 8)) (s : State) : Out :=
  if s.awake && s.chanRuns c.toNat then .next (s.readArrives c.toNat err).settle else .next s

/-- MISS_ENTRY_FREED (R284). -/
def execMissEntryFreed (c : BitVec 5) (s : State) : Out := .next (s.grantEntry c.toNat)

/-- Event 0x22 of a layer (R246, Table 20.10). -/
def State.rateEvent (s : State) (l rate : Nat) : State :=
  match s.dieHot l with
  | some (n, t) => s.event 0x22 0 n rate (i32 (degC t))
  | none => s.event 0x22 0 (20 + 4 * (l - 2)) rate 0

/-- REFRESH_DUE (R246, R244): power-down ends for it (R248); the rate of the layer may rise. -/
def execRefreshDue (c : BitVec 5) (pc : BitVec 1) (taps : List Bool) (s : State) : Out :=
  let n := c.toNat
  if !s.awake || decide (s.nChans ≤ n) || !s.chanUp n then .next s
  else
    let s0 := if s.fld (CHAN_STATUS_STATE n) = 3 then s.set (CHAN_STATUS_STATE n) 2 else s
    let t := s0.refresh n pc.toNat taps
    let new := t.fld (CHAN_STATUS_REF_RATE n)
    let other := t.fld (CHAN_STATUS_REF_RATE (if n % 2 = 0 then n + 1 else n - 1))
    .next (if s.fld (CHAN_STATUS_REF_RATE n) < new && other < new then t.rateEvent (layerOf n) new else t)

/-- REF_RATE_LOWER (R246): every reading of the layer has stayed 2 °C below the threshold for 1 s. -/
def execRefRateLower (layer : BitVec 5) (s : State) : Out :=
  let l := layer.toNat
  if !s.live || !s.layerOn l then .next s
  else
    let ts := s.layerTemps l
    let allow := if ts.all fun t => decide (t ≤ 332) then 0 else if ts.all fun t => decide (t ≤ 372) then 1 else 2
    let old := ((layerChans l).map fun c => s.fld (CHAN_STATUS_REF_RATE c)).foldl max 0
    let t := s.each (layerChans l) fun u c => u.set (CHAN_STATUS_REF_RATE c) (min (u.fld (CHAN_STATUS_REF_RATE c)) allow)
    .next (if allow < old then t.rateEvent l allow else t)

/-- POWER_DOWN_ENTRY (R248): a channel with empty queues, after PD_IDLE in S0 or at once in S1. -/
def execPowerDownEntry (c : BitVec 5) (s : State) : Out :=
  let n := c.toNat
  let k := s.chn n
  if s.awake && decide (n < s.nChans) && s.fld (CHAN_STATUS_STATE n) == 2 && k.reads.isEmpty && k.writes.isEmpty && k.waits.isEmpty
      && (s.sleep == 1 || s.fld (CHAN_REF_CFG_PD_IDLE n) != 0) then .next (s.set (CHAN_STATUS_STATE n) 3)
  else .next s

/-! ## PASR (R249, R250) -/

/-- The write of CHAN_PASR: refused, or under way (`none`: its answer is owed). That of a fused-off channel is answered RANGE (R249), and
counted as Table 9.5 states. -/
def State.pasrWrite (s : State) (via : Path) (c v : Nat) : Option (BitVec 8) × State :=
  if s.nChans ≤ c then (some stRANGE, s.inc GLB_CNT_VIOL_RANGE)
  else if s.pasrRefused c then (some stSTATE, s.viol (CHAN_PASR c).off .state) else (none, s.startPasr c (v % 8) (.reg via))

/-- SET_PASR (0x49). -/
def execSetPasr (s : State) : Out :=
  .next (s.startMgmt 0x49 fun t m =>
    let c := byteAt m.payload 0
    let blk := 0x60000 + 0x1000 * c
    if m.payload.length < 8 ∨ 31 < c ∨ 4 < byteAt m.payload 1 ∨ leAt m.payload 2 6 ≠ 0 then t.mgmtRefuse m.job stMALFORMED 0
    else if t.nChans ≤ c then t.mgmtRefuse m.job stRANGE blk
    else if t.pasrRefused c then t.mgmtRefuse m.job stSTATE blk
    else t.startPasr c (byteAt m.payload 1) .ring0)

/-- The accepted requests of a channel are complete. -/
def State.chanIdle (s : State) (c : Nat) : Bool :=
  let k := s.chn c
  k.reads.isEmpty && k.waits.isEmpty && k.arrived.isEmpty && k.writes.isEmpty
  && !(s.txns.any fun t => t.todo.any fun i => (s.placeOf (t.lineOf i)).1 == c)

/-- PASR_CHANGE_DONE (R249 steps 2 to 4): accepted requests have completed; the fraction is in force and the asker answered. -/
def execPasrChangeDone (c : BitVec 5) (s : State) : Out :=
  let n := c.toNat
  if !s.live || (s.chn n).pasrNew.isNone then .next s
  else
    let set := s.pasrSet n
    if set.any fun x => !s.chanIdle x || (s.linesOf x).any fun e => e.2.st == .dirty && s.lineStuck e.1 then .next s
    else
      let who := set.findSome? fun x => (s.chn x).pasrAsker.map fun a => (x, a)
      let t := s.each set fun u x => (u.applyPasr x true).set (CHAN_STATUS_STATE x) 2
      .next (match who with
        | some (x, a) => t.pasrAnswer x (some a) stOK
        | none => t)

/-! ## Fences and rebuilds -/

def fenceCode : FenceCause → Nat
  | .coupling => 1
  | .training => 2
  | .rail => 3
  | .notFound => 4
  | .clock => 5

/-- CHANNEL_FENCE (R252). -/
def execChannelFence (c : BitVec 5) (cause : FenceCause) (s : State) : Out :=
  if s.live then .next (s.fenceChannel c.toNat (fenceCode cause)).settle else .next s

/-- REBUILD_START (R241). -/
def execRebuildStart (c : BitVec 5) (s : State) : Out := if s.live then .next (s.startRebuild c.toNat) else .next s

/-- REBUILD_STRIPE (R241), in capacity that the group's channels have left over (R14). -/
def execRebuildStripe (c : BitVec 5) (s : State) : Out :=
  let n := c.toNat
  let b := s.fld (CHAN_REBUILD_PTR_PTR n)
  let others := ((List.range 8).map fun i => 8 * (n / 8) + i).filter (· != n)
  if s.awake && others.all (fun x => s.chanRuns x && s.leftOver x b) then .next (s.rebuildStep n).serve.settle else .next s

/-- CHAN_REBUILD (0x4A, R242). -/
def execChanRebuild (s : State) : Out :=
  .next (s.startMgmt 0x4A fun t m =>
    let c := byteAt m.payload 0
    let n := byteAt m.payload 1
    if m.payload.length < 8 ∨ 31 < c ∨ n < 1 ∨ 16 < n ∨ leAt m.payload 2 6 ≠ 0 then t.mgmtRefuse m.job stMALFORMED 0
    else if t.fld (CHAN_REBUILD_STATE c) = 0 then t.mgmtRefuse m.job stSTATE (0x60000 + 0x1000 * c)
    else t.finishRebuildWaits c)

end Sys2Proof.Machine
end

