-- ==== Sys2Proof/Machine/Qos.lean ====
section
/-! DEFINITION. Regulation (13_regulation.md): D and S (R282), the division of miss entries (R283), commits (R288, R290) and
evaluations of D (R291). D is held as 1088 × Σ (2 wc × tc in percent), which is 200 times D in units of 0.1 GB/s. -/

namespace Sys2Proof.Machine

set_option Elab.async false

/-- Twice the weight of a channel (R245). -/
def State.weight2 (s : State) (c : Nat) : Nat :=
  if s.on (CHAN_STATUS_FENCED c) || s.on (CHAN_STATUS_RETIRED c) then 0 else if s.on (CHAN_STATUS_NARROW c) then 1 else 2

/-- The deliverable figure as it is now (R282). -/
def State.deliverNow (s : State) : Nat := 1088 * ((List.range s.nChans).map fun c => s.weight2 c * s.throttle c).sum

/-- Class of a label in a map of 64 registers read by `f`, and its group. -/
def mapByte (f : Nat → Nat) (label : Nat) : Nat := f (label / 4) / 256 ^ (label % 4) % 256

/-- Classes of the labels that a group holds in a map. -/
def groupClasses (f : Nat → Nat) (g : Nat) : List Nat := (((List.range 256).map (mapByte f)).filter fun b => b % 64 == g).map (· / 64)

/-- Class of a group in a map, if it holds a label. -/
def groupClass (f : Nat → Nat) (g : Nat) : Option Nat := (groupClasses f g).head?

def State.stagedMap (s : State) (n : Nat) : Nat := s.fld (QOS_LABEL_MAP n)
def State.activeMap (s : State) (n : Nat) : Nat := s.fld (QOS_LABEL_ACT n)
def State.stagedRate (s : State) (g : Nat) : Nat := bitsOf (s.fld (QOS_GROUP g)) 15 0
def State.activeRate (s : State) (g : Nat) : Nat := bitsOf (s.fld (QOS_GROUP_ACT g)) 15 0

/-- S of a map and its rates (R282): groups with Bedrock or Clay labels. -/
def committedSum (f rate : Nat → Nat) : Nat :=
  ((List.range 64).map fun g => match groupClass f g with
    | some c => if c ≤ 1 then rate g else 0
    | none => 0).sum

/-- Lower the largest entry by one; among equals the lowest group (R283). -/
def lowerLargest (l : List Nat) : List Nat :=
  let m := l.foldl max 0
  l.set (l.idxOf m) (m - 1)

/-- The sum comes down to 240. -/
def capSum : Nat → List Nat → List Nat
  | 0, l => l
  | n + 1, l => if l.sum > 240 then capSum n (lowerLargest l) else l

/-- R283 for a value of D (200 times 0.1 GB/s), S in 0.1 GB/s, and the active table. -/
def divideEntries (d sum : Nat) (f rate : Nat → Nat) : List Nat :=
  let res := (List.range 64).map fun g =>
    let r := rate g
    if d = 0 ∨ r = 0 then 0
    else
      let x := match groupClass f g with
        | some 0 => (96000 * r + d) / (2 * d)
        | some 1 => if 200 * sum > d then (480 * r + sum) / (2 * sum) else (96000 * r + d) / (2 * d)
        | _ => 0
      match groupClass f g with
      | some c => if c ≤ 1 then max 1 x else 0
      | none => 0
  capSum res.sum res

/-- The division is in force, with FACTOR and the scaled state (R283, R291). -/
def State.divide (s : State) : State :=
  let d := s.qos.d
  let sum := s.fld QOS_COMMITTED
  let t := s.each (enum (divideEntries d sum s.activeMap s.activeRate)) fun u e => u.setReg (QOS_RES e.1).off e.2
  let low := decide (200 * sum > d)
  let t := t.set QOS_STATUS_FACTOR (if low then d * 32768 / (200 * sum) else 32768)
  if low && !s.on QOS_STATUS_SCALED then
    ((t.set QOS_STATUS_SCALED 1).inc QOS_SCALE_EVENTS).event 0x0B 1 1 (t.fld QOS_DELIV) sum
  else if !low && s.on QOS_STATUS_SCALED then (t.set QOS_STATUS_SCALED 0).event 0x0B 1 0 (t.fld QOS_DELIV) sum
  else t

/-- D is evaluated (R291). -/
def State.evalD (s : State) : State :=
  let d := s.deliverNow
  (({ s with qos := { s.qos with d := d, live := true } }).set QOS_DELIV (d / 200)).divide

/-- D_EVALUATION (R291): from READY on. -/
def execDEvaluation (s : State) : Out := if s.ready && !s.dead then .next s.evalD else .next s

/-- The buckets after a commit (R287): full where the group becomes Bedrock or its RATE or RATE_WIN changes, else as they were; a group that
stops being Bedrock keeps its bucket, as requests accepted before are still charged to it. -/
def State.newBuckets (s : State) (old : State) : List (Nat × Nat) :=
  (List.range 64).filterMap fun g =>
    if groupClass s.activeMap g != some 0 then (mget old.qos.bucket g).map fun v => (g, v)
    else if groupClass old.activeMap g == some 0 && s.activeRate g == old.activeRate g && s.qos.rateWin == old.qos.rateWin then some (g, mgetD old.qos.bucket g 0)
    else some (g, s.bucketCap g)

/-- The staged table becomes active (R288). -/
def State.activate (s : State) : State :=
  let old := s.fillBuckets
  let t := old.each (List.range 64) fun u n => (u.setReg (QOS_LABEL_ACT n).off (old.stagedMap n)).setReg (QOS_GROUP_ACT n).off (old.stagedRate n)
  let t := { t with qos := { t.qos with rateWin := old.fld QOS_CFG_RATE_WIN, sandMax := old.fld QOS_CFG_SAND_MAX } }
  let t := { t with qos := { t.qos with bucket := t.newBuckets old } }
  (t.set QOS_COMMITTED (committedSum t.activeMap t.activeRate)).divide

/-- A commit (R288): its RESULT and what it changes. -/
def State.commit (s : State) : BitVec 8 × State :=
  let (r, t) : BitVec 8 × State :=
    if !s.ready then (stSTATE, s.viol QOS_COMMIT.off .state)
    else if (List.range 64).any fun g => (groupClasses s.stagedMap g).eraseDups.length > 1 then (stMALFORMED, s.viol QOS_COMMIT.off .rsvd)
    else if 200 * committedSum s.stagedMap s.stagedRate > s.qos.d then (stOVERCOMMIT, s.viol QOS_COMMIT.off .state)
    else (stOK, s.activate)
  (r, t.sets [(QOS_COMMIT_STATUS_VALID, 1), (QOS_COMMIT_STATUS_RESULT_SEQ, t.fld QOS_COMMIT_STATUS_RESULT_SEQ + 1), (QOS_COMMIT_STATUS_RESULT, r.toNat)])

/-- The write of QOS_COMMIT before GLB_LOCK: MREG_RSP carries STATE only for a commit refused with STATE (R288). -/
def State.commitWrite (s : State) (v : Nat) : BitVec 8 × State :=
  if !bitAt v 0 then (stOK, s)
  else
    let r := s.commit
    (if r.1 = stSTATE then stSTATE else stOK, r.2)

/-- Reserved bits and values of QOS_CFG (Table 13.7). -/
def qosCfgOk (v : Nat) : Bool :=
  bitsOf v 31 24 == 0 && bitsOf v 15 8 == 0 && bitsOf v 23 16 != 0 && decide (1 ≤ bitsOf v 7 0) && decide (bitsOf v 7 0 ≤ 240)

/-- An entry of QOS_SET (R290): a staging register, reserved bits 0. -/
def qosEntryOk (off v : Nat) : Bool :=
  if off = 0x10 then qosCfgOk v
  else if 0x100 ≤ off ∧ off < 0x200 then off % 4 == 0
  else decide (0x400 ≤ off) && decide (off < 0x500) && off % 4 == 0 && decide (v < 65536)

/-- The entries of a QOS_SET: offset and value. -/
def qosEntries (p : List (BitVec 8)) : List (Nat × Nat) := (List.range (leAt p 0 2)).map fun k => (leAt p (8 + 8 * k) 4, leAt p (12 + 8 * k) 4)

/-- Is the payload of a QOS_SET in form (R290)? -/
def qosSetOk (p : List (BitVec 8)) : Bool :=
  decide (1 ≤ leAt p 0 2) && decide (leAt p 0 2 ≤ 511) && decide (8 + 8 * leAt p 0 2 ≤ p.length) && leAt p 2 6 == 0 && (qosEntries p).all fun e => qosEntryOk e.1 e.2

/-- The staging registers take the entries, and the table is committed. -/
def State.qosSetOp (s : State) (m : Mgmt) : State :=
  if !qosSetOk m.payload then s.mgmtRefuse m.job stMALFORMED 0
  else
    let r := (s.each (qosEntries m.payload) fun w e => w.setReg (QOS_COMMIT.off + e.1) e.2).commit
    r.2.mgmtDone m.job r.1 [r.1, BitVec.ofNat 8 (r.2.fld QOS_COMMIT_STATUS_RESULT_SEQ)]

/-- QOS_SET (0x4B, R290). -/
def execQosSet (s : State) : Out := .next (s.startMgmt 0x4B State.qosSetOp)

end Sys2Proof.Machine
end

