-- ==== Sys2Proof/Machine/Badger.lean ====
section
/-! DEFINITION. The Badger and repair (17_data_protection.md): corrective writes (R383), the patrols (R387 to R391) and repairs
(R392 to R397). -/

namespace Sys2Proof.Machine

set_option Elab.async false

/-! ## Corrective writes (R383) -/

/-- The oldest corrective write of a channel is done or dropped. -/
def State.correct (s : State) (c : Nat) : State :=
  match s.prot.corrective.find? fun e => e.1 == c with
  | none => s
  | some (_, b, data, degs) =>
    let t := s.dropCorrective c b
    let write := fun (u : State) (d : List (BitVec 8)) (p : Bool) =>
      let v := (u.storeBlock c b d p false).blockPerformed 3 bgGrp 1
      { v with prot := { v.prot with watched := v.prot.watched ++ [(c, b, degs)] } }
    match (s.lineHere c b).bind s.line with
    | some x => if x.st == .dirty || x.wbBusy then t else match lineNow x with
      | some r => write t r.data r.poison
      | none => write t data false
    | none => write t data false

/-- CORRECTIVE_WRITE (R383), in capacity left over (R14). -/
def execCorrectiveWrite (c : BitVec 5) (s : State) : Out :=
  let n := c.toNat
  let free := match s.prot.corrective.find? fun e => e.1 == n with
    | some e => s.leftOver n e.2.1 && !s.writeHeld n e.2.1
    | none => false
  if s.awake && s.chanRuns n && free then .next (s.correct n) else .next s

/-- The write of a correction log entry: VALID is W1C (R384). That COUNT and LOCATION of the entry freed read 0 is the model's choice
(DESIGN CHOICE, log entry 76). -/
def State.ceLogWrite (s : State) (off v : Nat) : BitVec 8 × State := (stOK, if bitAt v 31 then s.setReg off 0 else s)

/-! ## The DRAM patrol (R387 to R390) -/

/-- Does the patrol serve a channel now (R390)? It pauses in a block reset and a PASR change, and stops for good at a fence,
a retirement or a rebuild. -/
def State.patrolStops (s : State) (c : Nat) : Bool :=
  s.on (CHAN_STATUS_FENCED c) || s.on (CHAN_STATUS_RETIRED c) || (s.parity && s.groupSt (c / 8) == 2)

/-- A channel's pass begins. -/
def State.passStart (s : State) (c : Nat) : State :=
  { s with prot := { s.prot with patrol := mput c 0 s.prot.patrol, passAt := mput c s.now s.prot.passAt, ueOnce := s.prot.ueOnce.filter fun e => e.1 != c } }

/-- A patrolled block that decodes UE (R388), under the line lock. -/
def State.patrolUe (s : State) (c b : Nat) : State :=
  let s0 := s.dramUe c b false
  let done := fun (t : State) => t.blockPerformed 3 bgGrp 1
  let poison := fun (t : State) => let (d, u) := t.draw 64; done ((u.blockWrite c b d true).inc BST_BADGER_POISONED)
  let rebuild := fun (t : State) =>
    if t.parity && t.groupSt (c / 8) == 1 then
      match t.stripeXor c b with
      | (some d, u) => done ((u.blockWrite c b d false).inc (CHAN_RECONSTRUCT c))
      | (none, u) => poison u
    else poison t
  match s0.lineHere c b with
  | none => rebuild s0
  | some l => match s0.line l with
    | none => rebuild s0
    | some x => if x.st == .dirty then s0 else match s0.decodeLine l x with
      | (some r, t) => done (t.storeBlock c b r.data r.poison false)
      | (none, t) => rebuild t

/-- The patrol reads one block; `none` where the block is read again after a spare switch (R270). -/
def State.patrolBlock (s : State) (c b : Nat) (err : List (BitVec 8)) : Option State :=
  let (stored, s0) := (s.useRow c b).dramRead c b
  let s1 := (s0.incPair (CHAN_RD_LO c) 1).blockPerformed 3 bgGrp 0
  let got := xorBytes stored (slice err 0 72)
  match s1.injCheck 0 c with
  | (some true, t) => some ((t.inc (CHAN_UE c)).dramUe c b true)
  | (some false, t) => some (((t.inc (CHAN_CE c)).inc (CHAN_CE_SYMS c)).logError (chanLog c) b false)
  | (none, t) =>
    let f := foldOf (t.lineHere c b) c b
    let (r, d) := dramDecode f got
    match r with
    | .clean => some (t.unwatch c b)
    | .poisoned => some ((t.unwatch c b).inc (CHAN_POISON_RD c))
    | .corrected es =>
      let degs := es.map fun e => 76 - e
      let u := ((((t.inc (CHAN_CE c)).incBy (CHAN_CE_SYMS c) es.length).logError (chanLog c) b false).judgeHard c b degs).queueCorrective c b d degs
      some (u.coilErrors c (t.coilsOf c got (dramEncode f d false)))
    | _ =>
      if t.writeHeld c b then none
      else some (((if r == .ueAddr then t.inc (CHAN_UE_ADDR c) else t.inc (CHAN_UE c)).noteUe c b).patrolUe c b)

/-- A channel completes a pass: DRAM_PASSES rises once every enabled channel has. -/
def State.passEnds (s : State) (c : Nat) : State :=
  let done := putBit s.prot.passDone.toNat c true
  let need := (List.range s.nChans).filter fun x => bitAt (s.fld BST_BADGER_CHAN_EN) x && !s.prot.stopped.getLsbD x
  let t := s.passStart c
  if need.all fun x => bitAt done x then
    ({ t with prot := { t.prot with passDone := 0 } }).incSat BST_BADGER_STATUS_DRAM_PASSES
  else { t with prot := { t.prot with passDone := BitVec.ofNat 32 done } }

/-- BADGER_PATROL_READ (R387, R388, R390), in capacity left over (R14). -/
def execBadgerPatrolRead (c : BitVec 5) (err : List (BitVec 8)) (s : State) : Out :=
  let n := c.toNat
  if !s.awake || !bitAt (s.fld BST_BADGER_CHAN_EN) n || s.prot.stopped.getLsbD n || decide (s.nChans ≤ n) then .next s
  else if s.patrolStops n then .next { s with prot := { s.prot with stopped := BitVec.ofNat 32 (putBit s.prot.stopped.toNat n true) } }
  else if !s.chanRuns n || s.fld (CHAN_STATUS_STATE n) == 5 || !s.leftOver n (mgetD s.prot.patrol n 0) then .next s
  else
    let b := mgetD s.prot.patrol n 0
    match s.patrolBlock n b err with
    | none => .next s
    | some t =>
      let u := if b + 1 = chanBlocks then t.passEnds n else { t with prot := { t.prot with patrol := mput n (b + 1) t.prot.patrol } }
      .next u.settle

/-- LAG_S (Table 17.9): the largest lag of a patrolled channel behind its even pace, in whole seconds. -/
def State.patrolLag (s : State) : Nat :=
  let pass := s.fld BST_BADGER_CFG_PASS_H * 3600 * 1000000
  let one := fun (c : Nat) => (s.now - mgetD s.prot.passAt c s.now) - mgetD s.prot.patrol c 0 * pass / chanBlocks
  min 0xFFFF ((((List.range s.nChans).filter fun c => bitAt (s.fld BST_BADGER_CHAN_EN) c && !s.prot.stopped.getLsbD c).map one).foldl max 0 / 1000000)

/-! ## The Marl patrol (R389) -/

/-- A Marl pass ends with the last engine's store; each bit counts afresh in the next (R392). -/
def State.marlPassEnds (s : State) : State := ({ s with prot := { s.prot with marlOnce := [] } }).inc BST_BADGER_MARL_PASSES

/-- A packet of this stack's own RD_RSP whose cell `i` is uncorrectable: that block is sent as poisoned (R186, Table 17.2). -/
def poisonBlock (p : Packet) (i : Nat) : Packet := { p with hdr := { p.hdr with status := stPOISON, addr := p.hdr.addr ||| BitVec.ofNat 64 (2 ^ (i - 1)) } }

/-- A packet to be sent that holds an uncorrectable cell. -/
def State.spoilOut (s : State) (o : OutPkt) (loc : Nat) : OutPkt :=
  let i := o.held.idxOf loc
  if !o.held.contains loc then o
  else if o.inPort.isNone && o.pkt.hdr.opc == opRDRSP && o.pkt.hdr.src == s.eid && decide (1 ≤ i) then { o with pkt := poisonBlock o.pkt i }
  else { o with bad := true }

/-- A buffer cell is uncorrectable: what it holds is discarded as it is moved or sent, or goes out with its block poisoned. -/
def State.spoilCell (s : State) (loc : Nat) : State :=
  { s with sw := { s.sw with
      ingress := s.sw.ingress.map (fun (i : InPkt) => if i.held.contains loc then { i with bad := true } else i)
      egress := s.sw.egress.map fun o => s.spoilOut o loc } }

/-- Does a packet lie in a buffer cell? -/
def State.cellFull (s : State) (loc : Nat) : Bool := (s.sw.ingress.any fun i => i.held.contains loc) || s.sw.egress.any fun o => o.held.contains loc

/-- The patrol reads a buffer unit in service: one that holds no packet is initialised again, not reported (R389). -/
def State.patrolCell (s : State) (loc : Nat) (err : BitVec 560) : State :=
  if s.givenUp loc || s.marl.badUnits.contains loc || !s.cellFull loc then s
  else match sramDecode err.toNat with
    | .clean => s
    | .corrected b => ((s.inc MARL_CE).logError marlLog loc false).noteMarlFix loc b
    | .ue => (s.marlUe loc false).spoilCell loc

/-- A unit that the patrol reads with some bits upset. -/
def State.patrolUnit (s : State) (u : PatrolUnit) (err : BitVec 560) : State :=
  match u with
  | .line n =>
    match s.line n.toNat with
    | none => s
    | some x => ((s.setLine n.toNat { x with err := x.err ^^^ err }).readLine n.toNat).2
  | .cell sl bk un => s.patrolCell (sl.toNat * 65536 + bk.toNat * 4096 + un.toNat) err
  | .store e =>
    let n := e.toNat
    let g := s.eng n
    let (inj, s1) := if g.st == .idle then s.injCheck 3 n else (none, s)
    let ue := match inj, sramDecode err.toNat with
      | some u, _ => u
      | none, .ue => true
      | none, _ => false
    let t := if g.st == .idle && ue then s1.reloadEng n true else s1
    if n + 1 = s.nEngines then t.marlPassEnds else t

/-- MARL_PATROL (R389). -/
def execMarlPatrol (u : PatrolUnit) (err : BitVec 560) (s : State) : Out :=
  if s.awake && s.ready && s.on BST_BADGER_CFG_MARL_EN then .next (s.patrolUnit u err).settle else .next s

/-! ## Patrol settings (R391) -/

/-- Reserved bits and ranges of BADGER_CFG (Table 17.7). -/
def badgerCfgOk (v : Nat) : Bool :=
  bitsOf v 31 21 == 0 && bitsOf v 15 14 == 0 && bitsOf v 7 1 == 0
  && decide (1 ≤ bitsOf v 20 16) && decide (bitsOf v 20 16 ≤ 24) && decide (1 ≤ bitsOf v 13 8) && decide (bitsOf v 13 8 ≤ 60)

/-- May the channels of a mask be patrolled? -/
def State.patrolOk (s : State) (mask : Nat) : Bool := (bitList 32 mask).all fun c => decide (c < s.nChans) && !s.patrolStops c

/-- BADGER_CHAN_EN takes a value: channels newly set, or stopped and written again, start at offset 0. -/
def State.setPatrol (s : State) (mask : Nat) : State :=
  let old := s.fld BST_BADGER_CHAN_EN
  let fresh := (bitList 32 mask).filter fun c => !bitAt old c || s.prot.stopped.getLsbD c
  let t := (s.set BST_BADGER_CHAN_EN mask).each fresh State.passStart
  { t with prot := { t.prot with stopped := BitVec.ofNat 32 (maskOf ((bitList 32 t.prot.stopped.toNat).filter fun c => !bitAt mask c)) } }

/-- BADGER_SET (0x4D). -/
def execBadgerSet (s : State) : Out :=
  .next (s.startMgmt 0x4D fun t m =>
    let p := m.payload
    if p.length < 8 ∨ !badgerCfgOk (leAt p 0 4) then t.mgmtRefuse m.job stMALFORMED 0
    else if !t.patrolOk (leAt p 4 4) then t.mgmtRefuse m.job stSTATE 0xB0000
    else ((t.setReg BST_BADGER_CFG.off (leAt p 0 4)).setPatrol (leAt p 4 4)).mgmtDone m.job stOK [])

/-- The write of BADGER_CHAN_EN. -/
def State.patrolWrite (s : State) (v : Nat) : BitVec 8 × State :=
  if s.patrolOk v then (stOK, s.setPatrol v) else (stSTATE, s.viol BST_BADGER_CHAN_EN.off .state)

/-! ## Repair (R392 to R397) -/

/-- Key of a row: channel, bank, row. -/
def rowKey (c block : Nat) : Nat := c * 2 ^ 32 + bankIx block * 2 ^ 17 + rowOf block

/-- REPAIR_DRAM entry of a row with a spare (Table 17.5, KIND 0). -/
def rowEntry (c block spare : Nat) : Nat :=
  2 ^ 36 + c * 2 ^ 30 + pcOf block * 2 ^ 29 + bgOf block * 2 ^ 27 + bankOf block * 2 ^ 25 + rowOf block * 2 ^ 8 + spare * 2 ^ 3

/-- Log target of a remapped block (Table 17.6, type 2): [9:8] hold O[7:6] and [7:3] the entry; what those places cannot hold
(entry bit 5, O[9:8], row bits [1:0]) stands in bits [41:37], which the table leaves free. DESIGN CHOICE, log entry 35. -/
def remapEntry (c block entry : Nat) : Nat :=
  putBits (putBits (rowEntry c block 0) 7 3 entry) 9 8 (block % 4) + bitsOf entry 5 5 * 2 ^ 37 + bitsOf block 3 2 * 2 ^ 38 + bitsOf (rowOf block) 1 0 * 2 ^ 40

/-- Blocks of a block's row. -/
def rowBlocks (block : Nat) : List Nat := (List.range 16).map fun i => block / 16 * 16 + i

/-- A block is read, corrected or reconstructed, and written in its new place; poisoned where neither is possible (R393). -/
def State.moveBlock (s : State) (c b : Nat) : State :=
  let ((r, d), t0) := s.blockFetch c b
  let t := (t0.blockPerformed 3 bgGrp 0).blockPerformed 3 bgGrp 1
  match r with
  | .clean => t.blockWrite c b d false
  | .poisoned => t.blockWrite c b d true
  | .corrected _ => t.blockWrite c b d false
  | _ =>
    if t.parity && t.groupSt (c / 8) == 1 then
      match t.stripeXor c b with
      | (some x, u) => (u.blockWrite c b x false).inc (CHAN_RECONSTRUCT c)
      | (none, u) => let (z, v) := u.draw 64; v.blockWrite c b z true
    else let (z, v) := t.draw 64; v.blockWrite c b z true

/-- CHAN_REPAIR_STATUS follows the redirections in force. -/
def State.syncRepair (s : State) (c : Nat) : State :=
  let rows := (s.prot.rowFix.filter fun r => r.target / 2 ^ 32 == c).length
  let rem := (s.prot.blkFix.filter fun r => r.target / 2 ^ 26 == c).length
  s.sets [(CHAN_REPAIR_STATUS_SPARE_ROWS_USED c, rows), (CHAN_REPAIR_STATUS_REMAP_USED c, rem), (CHAN_REPAIR_STATUS_REMAP_FULL c, b2n (decide (64 ≤ rem)))]

/-- A free spare row of a block's bank. -/
def State.freeRowOf (s : State) (c block : Nat) : Option Nat :=
  (List.range 32).find? fun j => !(s.prot.rowFix.any fun r => r.target / 2 ^ 17 == rowKey c block / 2 ^ 17 && r.spare == j)

def State.freeRemap (s : State) (c : Nat) : Option Nat :=
  (List.range 64).find? fun j => !(s.prot.blkFix.any fun r => r.target / 2 ^ 26 == c && r.spare == j)

/-- A repair of a channel is refused: the log is full (R397). -/
def State.refuseRepair (s : State) (c block : Nat) : State :=
  ((s.set (CHAN_REPAIR_STATUS_LOG_FULL c) 1).inc (CHAN_REPAIRS_REFUSED c)).raiseRec .repairRefused (0x40 + c) block

/-- A repair of a channel is done: counter, record and fault (R392). -/
def State.repaired (s : State) (c block step : Nat) : State :=
  (((s.syncRepair c).inc (CHAN_REPAIRS c)).event 0x0E 1 c block step).raiseRec .repair (0x40 + c) block

/-- A row's redirection is switched. -/
def State.putRowFix (s : State) (c block j : Nat) : State :=
  let r : Redirect := { target := rowKey c block, spare := j }
  { s with prot := { s.prot with rowFix := s.prot.rowFix.filter (fun x => x.target != r.target) ++ [r] } }

/-- A block's redirection is switched. -/
def State.putBlkFix (s : State) (c block j : Nat) : State :=
  let r : Redirect := { target := c * 2 ^ 26 + block, spare := j }
  let t : State := { s with prot := { s.prot with blkFix := s.prot.blkFix.filter (fun x => x.target != r.target) ++ [r] } }
  t.sets [(CHAN_REMAP_VALID c j, 1), (CHAN_REMAP_LOCATION c j, block)]

/-- Repair of a hard-failed DRAM block in the order of Table 17.4. -/
def State.repairBlock (s : State) (c block : Nat) : State :=
  let s0 := { s with prot := { s.prot with hard := s.prot.hard.filter (· != (c, block)) } }
  match s0.freeRowOf c block with
  | some j =>
    let t := s0.each (rowBlocks block) fun u b => u.moveBlock c b
    match t.addSoft 1 (rowEntry c block j) with
    | none => s0.refuseRepair c block
    | some u => (u.putRowFix c block j).repaired c block 1
  | none =>
    match s0.freeRemap c with
    | some j =>
      match (s0.moveBlock c block).addSoft 2 (remapEntry c block j) with
      | none => s0.refuseRepair c block
      | some u => (u.putBlkFix c block j).repaired c block 2
    | none => s0.set (CHAN_REPAIR_STATUS_REMAP_FULL c) 1

/-! ### Marl units: slice × 65536 + bank × 4096 + unit -/

def State.syncMarlRepair (s : State) : State :=
  s.sets [(MARL_REPAIR_STATUS_SPARE_ROWS_USED, s.prot.marlRowFix.length), (MARL_REPAIR_STATUS_REMAP_USED, s.prot.marlBlkFix.length),
    (MARL_REPAIR_STATUS_REMAP_FULL, b2n (decide (32 ≤ s.prot.marlBlkFix.length)))]

def State.freeMarlRow (s : State) (u : Nat) : Option Nat :=
  (List.range 8).find? fun j => !(s.prot.marlRowFix.any fun r => r.target / 256 == u / 4096 && r.spare == j)

def State.freeMarlRemap (s : State) : Option Nat := (List.range 32).find? fun j => !(s.prot.marlBlkFix.any fun r => r.spare == j)

def State.refuseMarlRepair (s : State) (u : Nat) : State :=
  ((s.set MARL_REPAIR_STATUS_LOG_FULL 1).inc MARL_REPAIRS_REFUSED).raiseRec .repairRefused 1 u

def State.marlRepaired (s : State) (u step : Nat) : State :=
  (s.syncMarlRepair.event 0x0E 1 0x40 u step).raiseRec .repair 1 u

/-- The line that a unit holds, if it is valid. -/
def State.unitLine (s : State) (u : Nat) : Option (Nat × Line) := s.marl.lines.find? fun e => s.lineLoc e.1 e.2.way == u

/-- The line of a unit moves with its data corrected, or poisoned where they cannot be. -/
def State.moveUnit (s : State) (u : Nat) : State :=
  match s.unitLine u with
  | none => s
  | some (l, x) =>
    match lineNow x with
    | none => s.setLine l { x with poison := true, err := 0 }
    | some r => s.setLine l { x with data := r.data, err := 0 }

/-- A unit is retired from its pool (R218, Table 17.4 step 3): a dirty line it holds goes back first. -/
def State.retireUnit (s : State) (u : Nat) : State :=
  let t := match s.unitLine u with
    | some (l, _) => let w := s.writeBackNow l false; if (w.line l).any (fun x => x.st == .clean) then w.dropLine l else w
    | none => s
  if t.marl.badUnits.contains u then t
  else ({ t with marl := { t.marl with badUnits := t.marl.badUnits ++ [u] } }).inc MARL_CELLS_RETIRED

def State.putMarlRow (s : State) (u j : Nat) : State :=
  let r : Redirect := { target := u / 16, spare := j }
  { s with prot := { s.prot with marlRowFix := s.prot.marlRowFix.filter (fun x => x.target != r.target) ++ [r] } }

def State.putMarlBlk (s : State) (u j : Nat) : State :=
  let r : Redirect := { target := u, spare := j }
  let t : State := { s with prot := { s.prot with marlBlkFix := s.prot.marlBlkFix.filter (fun x => x.target != r.target) ++ [r] } }
  t.sets [(MARL_REMAP_VALID j, 1), (MARL_REMAP_LOCATION j, u)]

/-- Repair of a hard-failed Marl unit in the order of Table 17.4. -/
def State.repairUnit (s : State) (u : Nat) : State :=
  let s0 := { s with prot := { s.prot with marlHard := s.prot.marlHard.filter (· != u) } }
  match s0.freeMarlRow u with
  | some j =>
    match (s0.each (List.range 16) fun t i => t.moveUnit (u / 16 * 16 + i)).addSoft 3 (u + j * 2 ^ 22) with
    | none => s0.refuseMarlRepair u
    | some t => ((t.putMarlRow u j).inc MARL_REPAIRS).marlRepaired u 1
  | none =>
    match s0.freeMarlRemap with
    | some j =>
      match (s0.moveUnit u).addSoft 4 (u + j * 2 ^ 22) with
      | none => s0.refuseMarlRepair u
      | some t => ((t.putMarlBlk u j).inc MARL_REPAIRS).marlRepaired u 2
    | none => ((s0.set MARL_REPAIR_STATUS_REMAP_FULL 1).retireUnit u).marlRepaired u 3

/-- REPAIR (R392, R393): of a block or unit that has been found hard-failed. -/
def execRepair (u : RepairUnit) (s : State) : Out :=
  if !s.awake then .next s
  else match u with
    | .block c b =>
      if s.prot.hard.contains (c.toNat, b.toNat) && s.chanRuns c.toNat && !s.writeHeld c.toNat b.toNat then .next (s.repairBlock c.toNat b.toNat).settle else .next s
    | .unit sl bk un =>
      let n := sl.toNat * 65536 + bk.toNat * 4096 + un.toNat
      if s.prot.marlHard.contains n then .next (s.repairUnit n).settle else .next s

end Sys2Proof.Machine
end

