-- ==== Sys2Proof/Machine/RingCmds.lean ====
section
/-! DEFINITION. The commands of the rings (14_rings_doorbells.md): polls (R302), re-reads of H and fetches (R304), completion
writes (R307), the retries of ring 0 (R310, R311), RING_CTL (R297 to R299, R312), and ring-0 operations 0x40 to 0x43. -/

namespace Sys2Proof.Machine

set_option Elab.async false

/-- RING_POLL (R302): a watched ring that is ACTIVE. -/
def execRingPoll (n : BitVec 6) (s : State) : Out :=
  let r := n.toNat
  if s.working && s.ringSt r == 1 && s.on (RING_CFG_DB_MODE r) then .next (s.readRcb r 0) else .next s

/-- RCB_H_REREAD (R304): no completion entry is free and slots wait to be fetched. -/
def execRcbHReread (n : BitVec 6) (s : State) : Out :=
  let r := n.toNat
  if s.working && s.ringSt r == 1 && s.cplSpace r == 0 && s.ringF r != s.ringK r then .next (s.readRcb r 1) else .next s

/-- DESC_FETCH (R304). A fetch of ring 0 that has failed waits for its retry (R310). -/
def execDescFetch (n : BitVec 6) (s : State) : Out :=
  let r := n.toNat
  if s.working && !(r == 0 && s.retries0 2) then .next (s.fetchRing r) else .next s

/-- COMPLETION_WRITE (R307): the first waiting entry goes out, unless it is kept for a resume or a retry (R309, R311). -/
def execCompletionWrite (n : BitVec 6) (s : State) : Out :=
  let r := n.toNat
  if s.awake && s.ringSt r != 0 && !(s.ring r).cplHeld then .next (s.sendCpl r) else .next s

/-- RING0_FETCH_RETRY (R310): a failed fetch or RCB read of ring 0 is tried again. -/
def execRing0FetchRetry (s : State) : Out :=
  if !s.working || s.ringSt 0 != 1 then .next s
  else .next ((s.when (s.retries0 4) fun t => t.readRcb 0 2).when (s.retries0 2) fun t => t.fetchRing 0)

/-- RING0_COMPLETION_RETRY (R311): the first kept entry is written again. -/
def execRing0CompletionRetry (s : State) : Out :=
  if s.awake && (s.ring 0).cplHeld then .next ((s.setRing 0 { s.ring 0 with cplHeld := false }).sendCpl 0) else .next s

/-! ## RING_CTL -/

/-- The write of RING_CTL (R297 to R299, R312); more than one bit is a reserved combination judged before. -/
def State.ringCtlWrite (s : State) (via : Path) (n v : Nat) : BitVec 8 × State :=
  let no := (stSTATE, s.viol (RING_CTL n).off .state)
  let st := s.ringSt n
  if s.locked && !(n == 0 && via != .mreg) then no
  else if bitAt v 0 then (if st = 0 then (stOK, s.enableRing n) else no)
  else if bitAt v 1 then (if st = 0 ∨ st = 3 then no else (stOK, s.resetRing n))
  else if bitAt v 2 then (if st = 2 then (stOK, s.resumeRing n) else no)
  else (stOK, s)

/-! ## Ring-0 operations -/

/-- NOP (0x40, Table 14.6). -/
def execNop (s : State) : Out := .next (s.startMgmt 0x40 fun t m => t.mgmtDone m.job stOK (slice m.payload 0 8))

/-- A payload that names a ring from 1 to 63 in byte 0, bytes 1 to 7 being 0. -/
def namesRing (p : List (BitVec 8)) : Bool :=
  decide (8 ≤ p.length) && decide (1 ≤ byteAt p 0) && decide (byteAt p 0 ≤ 63) && leAt p 1 7 == 0

/-- RING_SETUP (0x41, R314). -/
def execRingSetup (s : State) : Out :=
  .next (s.startMgmt 0x41 fun t m =>
    let p := m.payload
    let n := byteAt p 0
    let v := fun i => leAt p (8 + 4 * i) 4
    if !namesRing p || decide (p.length < 48) || leAt p 44 4 != 0 || !setupOk (v 0) (v 2) (v 4) (v 6) (v 7) (v 8) then t.mgmtRefuse m.job stMALFORMED 0x8000
    else if t.ringSt n ≠ 0 then t.mgmtRefuse m.job stSTATE 0x8000
    else ((t.each (List.range 9) fun u i => u.setReg ((RING_SQ_LO n).off + 4 * i) (v i)).enableRing n).mgmtDone m.job stOK [])

/-- RING_RESET (0x42): it completes once the ring is OFF (R314). -/
def execRingReset (s : State) : Out :=
  .next (s.startMgmt 0x42 fun t m =>
    let n := byteAt m.payload 0
    if !namesRing m.payload then t.mgmtRefuse m.job stMALFORMED 0x8000
    else if t.ringSt n = 0 ∨ t.ringSt n = 3 then t.mgmtRefuse m.job stSTATE 0x8000
    else (t.resetRing n).finishRingResets)

/-- RING_RESUME (0x43). -/
def execRingResume (s : State) : Out :=
  .next (s.startMgmt 0x43 fun t m =>
    let n := byteAt m.payload 0
    if !namesRing m.payload then t.mgmtRefuse m.job stMALFORMED 0x8000
    else if t.ringSt n ≠ 2 then t.mgmtRefuse m.job stSTATE 0x8000
    else (t.resumeRing n).mgmtDone m.job stOK [])

end Sys2Proof.Machine
end

