-- ==== Sys2Proof/Machine/FoxCmds.lean ====
section
/-! DEFINITION. The commands of the Fox engines (15_fox_services.md) and of the check-value units and checkpoint maps
(16_checks_checkpoint.md): dispatch, one round of a stage, stage ends, traps, firmware, FOX and CVU registers. -/

namespace Sys2Proof.Machine

set_option Elab.async false

/-! ## Dispatch and stages -/

/-- Work of an engine goes on while its clock runs (R54), and what it raises follows. -/
def State.engWork (s : State) (e : BitVec 5) (f : State → State) : Out := if s.awake && s.foxOn e.toNat then .next (f s).settle else .next s

/-- A round of an engine's stage, which fetches instructions. -/
def State.stageWork (s : State) (e : BitVec 5) (f : State → State) : Out := s.engWork e fun t => t.fetchInstr e.toNat f

/-- ENGINE_DISPATCH (R325, R328). -/
def execEngineDispatch (e : BitVec 5) (s : State) : Out := s.engWork e fun t => t.dispatch e.toNat
/-- STAGE_ADVANCE (R327, R352). -/
def execStageAdvance (e : BitVec 5) (s : State) : Out := s.engWork e fun t => t.stageAdvance e.toNat
/-- HELPER_CHUNK (R331). -/
def execHelperChunk (e : BitVec 5) (s : State) : Out := s.engWork e fun t => t.help e.toNat
/-- FILL (R338). -/
def execFill (e : BitVec 5) (s : State) : Out := s.stageWork e fun t => t.fillRound e.toNat
/-- COPY (R340). -/
def execCopy (e : BitVec 5) (s : State) : Out := s.stageWork e fun t => t.copyRound e.toNat
/-- GATHER (R341). -/
def execGather (e : BitVec 5) (s : State) : Out := s.stageWork e fun t => t.gatherRound e.toNat
/-- SCATTER (R341). -/
def execScatter (e : BitVec 5) (s : State) : Out := s.stageWork e fun t => t.scatterRound e.toNat
/-- REDUCE (R342, R335). -/
def execReduce (e : BitVec 5) (s : State) : Out := s.stageWork e fun t => t.reduceRound e.toNat
/-- CHECK (R343, R335). -/
def execCheck (e : BitVec 5) (s : State) : Out := s.stageWork e fun t => t.checkRound e.toNat
/-- COMPARE (R344). -/
def execCompare (e : BitVec 5) (s : State) : Out := s.stageWork e fun t => t.compareRound e.toNat
/-- TRANSPOSE (R345). -/
def execTranspose (e : BitVec 5) (s : State) : Out := s.stageWork e fun t => t.transposeRound e.toNat
/-- ATOMB (R346). -/
def execAtomb (e : BitVec 5) (s : State) : Out := s.stageWork e fun t => t.atombRound e.toNat
/-- FENCE (R347). -/
def execFence (e : BitVec 5) (s : State) : Out := s.stageWork e fun t => t.fenceRound e.toNat
/-- NOTIFY mode 0 (R348). -/
def execNotifyWrite (e : BitVec 5) (s : State) : Out := s.stageWork e fun t => t.notifyRound e.toNat 0
/-- NOTIFY mode 1 (R348). -/
def execNotifyDbell (e : BitVec 5) (s : State) : Out := s.stageWork e fun t => t.notifyRound e.toNat 1
/-- MIRROR SEND (R368). -/
def execMirrorSend (e : BitVec 5) (s : State) : Out := s.stageWork e fun t => t.sendRound e.toNat
/-- MIRROR COMMIT (R369). -/
def execMirrorCommit (e : BitVec 5) (s : State) : Out := s.stageWork e fun t => t.commitRound e.toNat
/-- MIRROR VERIFY (R371). -/
def execMirrorVerify (e : BitVec 5) (s : State) : Out := s.stageWork e fun t => t.verifyRound e.toNat
/-- DIRTYSCAN FREEZE (R363). -/
def execDirtyscanFreeze (e : BitVec 5) (s : State) : Out := s.stageWork e fun t => t.dirtyscanRound e.toNat 0
/-- DIRTYSCAN PEEK (R365). -/
def execDirtyscanPeek (e : BitVec 5) (s : State) : Out := s.stageWork e fun t => t.dirtyscanRound e.toNat 1
/-- SVC_START (R326). -/
def execSvcStart (e : BitVec 5) (s : State) : Out := s.engWork e fun t => t.startSvc e.toNat

/-- A descriptor of rings 1 to 63 starts (R305): it completes with STATE under R70 and R324, and otherwise the lowest-numbered
eligible engine takes it, unless it would choose another ring's (R325). -/
def State.startNext (s : State) (n : Nat) : State :=
  match s.readyDesc n with
  | none => s
  | some d =>
    if s.on GLB_START_STATUS_FW_DEGRADED || s.fox.allDisabled then s.finishDesc n d.job stSTATE 0 0 []
    else match (List.range s.nEngines).find? fun e => s.eligible e n with
      | some e => if (s.pickRing e).map (·.1) = some n then s.startDesc e n d else s
      | none => s

/-! ## Traps (R352, R353) -/

/-- ENGINE_TRAP. -/
def execEngineTrap (e : BitVec 5) (cause : TrapCause) (s : State) : Out := s.engWork e fun t => t.trapEng e.toNat (trapCode cause)

/-- WATCHDOG_EXPIRY: the engine has work. -/
def execWatchdogExpiry (e : BitVec 5) (s : State) : Out :=
  if (s.eng e.toNat).run.isSome then s.engWork e fun t => t.trapEng e.toNat 4 else .next s

/-! ## Firmware (R319 to R323) -/

/-- Verify an image under R319; with KEYS failed none verifies (Table 5.4). -/
def State.checkImage (s : State) (img : List (BitVec 8)) : ImgRes :=
  let h := if s.regionOk 6 then Config.keyHash ((List.range 16).map fun i => (s.fuseRow (463 + i)).toNat) false else []
  verifyImage img s.variant h (s.fld FOX_FW_FLOOR)

def slotCode : SlotSt → Nat
  | .empty => 0
  | .written => 1
  | .verified => 2
  | .failed => 3

/-- Mark a slot (0 A, 1 B). -/
def State.markSlot (s : State) (slot : Nat) (m : SlotSt) : State :=
  { s with sett := if slot = 0 then { s.sett with slotA := m } else { s.sett with slotB := m } }

/-- FOX_FW_STATUS (Table 15.12): SVN as held, the marks from the Sett. -/
def State.fwStatus (s : State) : Nat :=
  s.fld FOX_FW_STATUS_SVN * 2 ^ 16 + slotCode s.sett.slotB * 2 ^ 10 + slotCode s.sett.slotA * 2 ^ 8 + s.sett.active

/-- Write bytes into a firmware slot of the Sett. -/
def State.slotWrite (s : State) (addr : Nat) (b : List (BitVec 8)) : State :=
  let put := fun (m : List (Nat × BitVec 8)) (e : Nat × BitVec 8) => if e.2 = 0 then merase (addr + e.1) m else mput (addr + e.1) e.2 m
  { s with sett := { s.sett with fw := (enum b).foldl put s.sett.fw } }

/-- FW_SLOT_WRITE (0x54, R322). -/
def execFwSlotWrite (s : State) : Out :=
  .next (s.startMgmt 0x54 fun t m =>
    let p := m.payload
    let slot := byteAt p 0
    let off := leAt p 4 4
    let d := p.drop 8
    if p.length < 16 ∨ 1 < slot ∨ leAt p 1 3 ≠ 0 ∨ off % 8 ≠ 0 ∨ 1048576 < off + d.length then t.mgmtRefuse m.job stMALFORMED 0x90000
    else if t.fld GLB_START_STATUS_FW_SLOT = slot + 1 then t.mgmtRefuse m.job stSTATE 0x90000
    else ((t.slotWrite (slot * 1048576 + off) d).markSlot slot .written).mgmtDone m.job stOK [])

/-- FW_ACTIVATE (0x55, R323). -/
def execFwActivate (s : State) : Out :=
  .next (s.startMgmt 0x55 fun t m =>
    let p := m.payload
    let slot := byteAt p 0
    if p.length < 8 ∨ 1 < slot ∨ leAt p 1 7 ≠ 0 then t.mgmtRefuse m.job stMALFORMED 0x90000
    else
      let img := t.slotImage slot
      let svn := leAt img 8 2
      match t.checkImage img with
      | .ok v digest _ =>
        let u := t.markSlot slot .verified
        let u := ({ u with sett := { u.sett with active := slot + 1 } }).event 0x0F 1 slot 0 svn
        u.mgmtDone m.job stOK (leBytes 8 v ++ digest.take 8)
      | .malformed => ((t.markSlot slot .failed).event 0x0F 1 slot 6 svn).mgmtDone m.job stMALFORMED []
      | .access => ((t.markSlot slot .failed).event 0x0F 1 slot 2 svn).mgmtDone m.job stACCESS [])

/-! ### The sideband load (R321) -/

/-- Do the three FOX_SB registers accept a write? -/
def State.sbOpen (s : State) : Bool := s.phase == 7 && s.start.boot == 2 && !s.on FOX_SB_CTL_GO

def State.sbAddrWrite (s : State) (v : Nat) : BitVec 8 × State :=
  if s.sbOpen then (stOK, s.setReg FOX_SB_ADDR.off v) else (stSTATE, s.viol FOX_SB_ADDR.off .state)

/-- FOX_SB_DATA: 4 image bytes at the address, which then moves on by 4. -/
def State.sbDataWrite (s : State) (v : Nat) : BitVec 8 × State :=
  if s.sbOpen then
    let a := s.fld FOX_SB_ADDR % 2 ^ 20
    let put := fun (l : List (Nat × BitVec 8)) (e : Nat × BitVec 8) => mput (a + e.1) e.2 l
    (stOK, ({ s with fox := { s.fox with sbImage := (enum (leBytes 4 v)).foldl put s.fox.sbImage } }).setReg FOX_SB_ADDR.off ((a + 4) % 2 ^ 20))
  else (stSTATE, s.viol FOX_SB_DATA.off .state)

/-- FOX_SB_CTL.GO starts the verification of P7. -/
def State.sbGoWrite (s : State) (v : Nat) : BitVec 8 × State :=
  if !s.sbOpen then (stSTATE, s.viol FOX_SB_CTL.off .state) else (stOK, if bitAt v 0 then s.set FOX_SB_CTL_GO 1 else s)

/-! ## FOX_CTL (R354, R55) -/

/-- The write of FOX_CTL: a fused-off engine, or one whose clock is gated, cannot be enabled. -/
def State.foxCtlWrite (s : State) (e v : Nat) : BitVec 8 × State :=
  if bitAt v 0 && (decide (s.nEngines ≤ e) || (!s.on (FOX_CTL_ENABLE e) && !s.engClocked e)) then (stSTATE, s.viol (FOX_CTL e).off .state)
  else (stOK, s.set (FOX_CTL_ENABLE e) (v % 2))

/-! ## CVU registers (R361, R362) -/

/-- Bytes of CVU_TEST_CTX. -/
def State.testCtx (s : State) : List (BitVec 8) := (List.range 4).flatMap fun k => leBytes 4 (s.fld (CVU_TEST_CTX k))

/-- The test port holds CVU15. -/
def State.testHeld (s : State) : Bool := (s.cvu 15).held && (s.cvu 15).test

/-- The write of CVU_TEST_CTL; both bits, and a context that START may not load, are reserved and judged before. -/
def State.cvuCtlWrite (s : State) (v : Nat) : BitVec 8 × State :=
  let no := (stSTATE, s.viol CVU_TEST_CTL.off .state)
  if s.locked then no
  else if bitAt v 0 then
    (if (s.cvu 15).held then no else (stOK, s.setCvu 15 { held := true, test := true, poly := byteAt s.testCtx 8, reg := BitVec.ofNat 64 (cvuLoad s.testCtx 0) }))
  else if bitAt v 1 then (if s.testHeld then (stOK, s.releaseCvu 15) else no)
  else (stOK, s)

/-- A write of CVU_TEST_DATA or CVU_TEST_DATA1: `n` bytes are fed. -/
def State.cvuDataWrite (s : State) (off n v : Nat) : BitVec 8 × State :=
  if s.locked || !s.testHeld then (stSTATE, s.viol off .state) else (stOK, s.feedCvu 15 (leBytes n v))

/-- The write of CKP_CTL: TRACK = 1 sets the whole active map. -/
def State.trackWrite (s : State) (v : Nat) : BitVec 8 × State :=
  let t := s.set CVU_CKP_CTL_TRACK (v % 2)
  (stOK, if bitAt v 0 then { t with fox := { t.fox with ckpActive := { base := true } } } else t)

end Sys2Proof.Machine
end

