-- ==== Sys2Proof/Machine/SelfTest.lean ====
section
/-! DEFINITION. In-service self-test (21_self_test.md): test slices with their coil, pad and lane parts, BST_RUN, and the
quiet windows of the Marl slices (R211). -/

namespace Sys2Proof.Machine

set_option Elab.async false

/-! ## Coils (R448, R449) -/

/-- Does a spare carry this position for good? -/
def State.replaced (s : State) (c pos : Nat) : Bool :=
  (List.range 16).any fun j => (s.fld (VCP_SPARE_USE c j) == 1 || s.fld (VCP_SPARE_USE c j) == 2) && s.fld (VCP_SPARE_POSITION c j) == pos

/-- A column whose coils cannot be tested now (R448). -/
def State.colHeld (s : State) (c : Nat) : Bool :=
  !s.colOn c || s.on (VCP_COL_STATUS_WR_HOLD c) || (s.col c).recal

/-- Is a BST_RUN at work on this scope and index? -/
def State.runOn (s : State) (scope ix : Nat) : Bool :=
  match s.acc.bstRun with
  | some r => r.scope == scope && r.index == ix
  | none => false

/-- A coil that is not tested: its position has failed or a spare carries it, or the spare is FAILED (R448). -/
def State.coilGone (s : State) (c coil : Nat) : Bool :=
  if coil < 288 then (s.col c).failed.contains coil || (s.col c).dropped.contains coil || s.replaced c coil
  else s.on (VCP_SPARE_FAILED c (coil - 288))

/-- Position that a coil serves: its own, or the one its spare holds. -/
def State.coilPos (s : State) (c coil : Nat) : Nat := if coil < 288 then coil else s.fld (VCP_SPARE_POSITION c (coil - 288))

/-- A coil fails its test. One that serves a position is repaired at this boundary; an idle spare becomes FAILED. -/
def State.coilTestFail (s : State) (c coil : Nat) : State :=
  let t := s.inc BST_COIL_FAILS
  if 288 ≤ coil ∧ !s.coilInUse c coil then
    ((t.inc VCP_COIL_FAILS).set (VCP_SPARE_FAILED c (coil - 288)) 1).syncCol c
  else
    let pos := s.coilPos c coil
    let u := t.coilFail c pos
    if (u.col c).failed.contains pos then u.settleFailure c pos else u

/-- The verdict on a tested coil: it passes with no bit error and a residual within RESID_FAIL. -/
def State.coilVerdict (s : State) (c coil resid : Nat) (bitErr : Bool) : State :=
  let t := s.inc BST_COIL_TESTS
  if bitErr || decide (s.fld VCP_CAL_CFG_RESID_FAIL < resid) then t.coilTestFail c coil else t

/-- The shadow pool of a narrow column: the healthy coils of the half that is dropped (R272). -/
def State.dropPool (s : State) (c : Nat) : List Nat := (List.range 256).filter fun p => s.inDropped c p && !s.coilGone c p

/-- Start the test of a coil in one column, or skip it: a coil in use has a shadow, from the spares of a full column while two are FREE,
from the dropped half of a narrow one (R272, R449). -/
def State.coilStart (s : State) (coil c : Nat) : State :=
  let k := s.col c
  if s.colHeld c || s.runOn 0 c || s.coilGone c coil || k.test.isSome then s.inc BST_SLICE_SKIPS
  else
    let free := s.freeSpares c
    if s.fld (VCP_COL_STATUS_MODE c) == 2 && s.coilInUse c coil then s.setCol c { k with test := some (coil, (s.dropPool c).head?.map (· + 16)) }
    else if s.fld (VCP_COL_STATUS_MODE c) == 1 && s.coilInUse c coil && decide (2 ≤ free.length) then
      let j := free.headD 0
      ((s.setCol c { k with test := some (coil, some j) }).sets [(VCP_SPARE_USE c j, 3), (VCP_SPARE_POSITION c j, s.coilPos c coil)]).syncCol c
    else s.setCol c { k with test := some (coil, none) }

/-- COIL_TEST_END (R449 step 3). -/
def execCoilTestEnd (c : BitVec 5) (m : CoilMeas) (bitErr : Bool) (s : State) : Out :=
  let n := c.toNat
  match (s.col n).test with
  | none => .next s
  | some (coil, _) =>
    if !s.live || (s.col n).testDrop || !s.colOn n then .next s
    else .next ((s.releaseShadow n).coilVerdict n coil m.resid.toNat bitErr).settle

/-! ## Marl pads (R211, R450) -/

def State.slicePads (s : State) (i : Nat) : Pads := mgetD s.marl.pads i {}
def State.setPads (s : State) (i : Nat) (p : Pads) : State := { s with marl := { s.marl with pads := mput i p s.marl.pads } }

/-- MARL_PAD_STATUS follows the spares in use. -/
def State.syncPads (s : State) (i : Nat) : State :=
  let n := fun d => ((s.slicePads i).holder.filter fun e => e.1 / 2 == d).length
  s.sets [(MARL_PAD_STATUS_SPARES_DN i, n 0), (MARL_PAD_STATUS_SPARES_UP i, n 1)]

/-- Does a spare carry this pad? -/
def padHeld (p : Pads) (dir pad : Nat) : Bool := p.holder.any fun e => e.1 / 2 == dir && e.2 == pad

/-- A pad takes the lowest good spare of its direction; `none` when no spare is left. -/
def State.padRepair (s : State) (i dir pad : Nat) : Option State :=
  let p := s.slicePads i
  match [2 * dir, 2 * dir + 1].find? fun k => (mget p.holder k).isNone && !p.badSpares.contains k with
  | some k => some ((s.setPads i { p with holder := mput k pad p.holder }).syncPads i)
  | none => none

/-- A pad has failed: a repair, or the end of its slice (R232). -/
def State.padFail (s : State) (i dir pad : Nat) : State :=
  match s.padRepair i dir pad with
  | some t => t.inc BST_PAD_REPAIRS
  | none => s.retireSlice i

/-- A spare pad has failed: it is never used, and a pad that it carried has failed with it. -/
def State.sparePadFail (s : State) (i dir j : Nat) : State :=
  let p := s.slicePads i
  let k := 2 * dir + j
  let t := (s.setPads i { p with holder := merase k p.holder, badSpares := p.badSpares ++ [k] }).syncPads i
  match mget p.holder k with
  | some pad => t.padFail i dir pad
  | none => t

/-- A slice whose pads are not tested: retired or fused off (R448). -/
def State.sliceGone (s : State) (i : Nat) : Bool := decide (s.nSlices ≤ i) || s.marl.retiredSlices.getLsbD i

/-- A pad that is not tested: a spare carries it, or it is a failed spare. -/
def State.padGone (s : State) (i dir g : Nat) : Bool :=
  let p := s.slicePads i
  s.sliceGone i || (if g < 256 then padHeld p dir g else p.badSpares.contains (2 * dir + (g - 256)))

/-- The verdict on a tested pad. -/
def State.padVerdict (s : State) (i dir g : Nat) (failed : Bool) : State :=
  let t := s.inc BST_PAD_TESTS
  if failed then
    let u := t.inc BST_PAD_FAILS
    if g < 256 then u.padFail i dir g else u.sparePadFail i dir (g - 256)
  else t

/-- Start the test of pad position `g` in one direction of one slice, or skip it. -/
def State.padStart (s : State) (g i dir : Nat) : State :=
  if s.padGone i dir g || (mget (s.slicePads i).test dir).isSome then s.inc BST_SLICE_SKIPS
  else s.setPads i { s.slicePads i with test := mput dir g (s.slicePads i).test }

/-- PAD_TEST_END (R450). -/
def execPadTestEnd (slice : BitVec 6) (up failed : Bool) (s : State) : Out :=
  let i := slice.toNat
  let p := s.slicePads i
  match mget p.test (b2n up) with
  | none => .next s
  | some g =>
    if !s.live || s.sliceGone i then .next s
    else .next ((s.setPads i { p with test := merase (b2n up) p.test }).padVerdict i (b2n up) g failed).settle

/-- A quiet window of a slice (R211, R383): one delay code moves one tap, and one corrected unit is rewritten in place. -/
def State.quietWindow (s : State) (i : Nat) (up : Bool) : State :=
  let p := s.slicePads i
  let key := p.turn / 258 * 512 + p.turn % 258
  let old := mgetD p.delay key 0
  let t := s.setPads i { p with delay := mput key (if up then old + 1 else old - 1) p.delay, turn := (p.turn + 1) % 516 }
  match t.marl.rewrite.find? fun l => t.sliceOf l == i with
  | none => t
  | some l =>
    let u := { t with marl := { t.marl with rewrite := t.marl.rewrite.filter (· != l) } }
    match u.line l with
    | some x => match lineNow x with
      | some r => u.setLine l { x with data := r.data, err := 0 }
      | none => u
    | none => u

/-- Does the pad field of a slice run? -/
def State.padsRun (s : State) (i : Nat) : Bool := s.live && !s.sliceGone i && decide (s.sleep ≤ 1)

/-- MARL_QUIET_WINDOW (R211). -/
def execMarlQuietWindow (slice : BitVec 6) (up : Bool) (s : State) : Out :=
  if s.padsRun slice.toNat then .next (s.quietWindow slice.toNat up) else .next s

/-- MARL_QUIET_WINDOW_FORCED (R211): the slice makes its quiet window by holding transfers; which way the delay code
moves is open. -/
def execMarlQuietWindowForced (slice : BitVec 6) (s : State) : Out :=
  if s.padsRun slice.toNat then
    .next (({ s with free := s.free + 1 } : State).quietWindow slice.toNat (Config.freeNat s.free % 2 == 1))
  else .next s

/-! ## Lanes (R451) -/

/-- The verdict on a lane's eye. -/
def State.laneVerdict (s : State) (l eyeH eyeW : Nat) : State :=
  let n := s.fld (BST_LANE_RESULT_FAILS l)
  let t := s.sets [(BST_LANE_RESULT_VALID l, 1), (BST_LANE_RESULT_EYE_H l, eyeH), (BST_LANE_RESULT_EYE_W l, eyeW)]
  if eyeW < s.fld BST_LANE_LIMITS_EYE_W_MIN ∨ eyeH < s.fld BST_LANE_LIMITS_EYE_H_MIN then
    let u := t.set (BST_LANE_RESULT_FAILS l) (min 3 (n + 1))
    if n = 2 then (u.set (BST_LANE_RESULT_WEAK l) 1).inc BST_LANE_WEAK else u
  else t.sets [(BST_LANE_RESULT_FAILS l, 0), (BST_LANE_RESULT_WEAK l, 0)]

/-- Link of a lane, and whether it is in L0. -/
def State.laneInL0 (s : State) (l : Nat) : Bool :=
  decide (l / 8 < s.nPorts) && s.lst (l / 8) (l % 8 / s.linkW (l / 8)) == 4

/-- Start the margin check of one lane of a link, or skip it. -/
def State.laneStart (s : State) (p m : Nat) : State :=
  let n := mgetD s.acc.laneNext (p * 8 + m) 0 % s.linkW p
  let t := { s with acc := { s.acc with laneNext := mput (p * 8 + m) ((n + 1) % s.linkW p) s.acc.laneNext } }
  let l := s.laneIx p m n
  if s.lst p m ≠ 4 then t.inc BST_SLICE_SKIPS
  else { t with acc := { t.acc with laneDue := if t.acc.laneDue.contains l then t.acc.laneDue else t.acc.laneDue ++ [l] } }

/-- LANE_MARGIN_CHECK (R451). -/
def execLaneMarginCheck (lane eyeH : BitVec 8) (eyeW : BitVec 6) (s : State) : Out :=
  let l := lane.toNat
  if s.acc.laneDue.contains l then
    let t := { s with acc := { s.acc with laneDue := s.acc.laneDue.filter (· != l) } }
    .next (if s.live && s.laneInL0 l then t.laneVerdict l eyeH.toNat eyeW.toNat else t)
  else .next s

/-! ## Slices (R447) -/

/-- A part in progress at S1 entry is abandoned; a coil's shadow goes at the next boundary. -/
def State.abandonTests (s : State) : State :=
  let t := s.each ((List.range 32).filter fun c => (s.col c).test.isSome) fun t c => t.setCol c { t.col c with testDrop := true }
  { t with acc := { t.acc with laneDue := [] }, marl := { t.marl with pads := t.marl.pads.map fun (e : Nat × Pads) => (e.1, ({ e.2 with test := [] } : Pads)) } }

/-- Slices run in READY and S0, outside the grave safe state and without a debug grant. -/
def State.slicesRun (s : State) : Bool := s.ready && !s.dead && s.sleep == 0 && s.acc.tap.grant == 0

/-- TEST_SLICE_START (R447): the enabled parts start. -/
def execTestSliceStart (s : State) : Out :=
  if !s.slicesRun then .next s
  else
    let s1 := s.incPair BST_SLICES_LO 1
    let coil := s.fld BST_STATUS_COIL_NEXT
    let s2 := if s.on BST_CFG_COIL_EN then (s1.each (List.range 32) (State.coilStart · coil)).set BST_STATUS_COIL_NEXT ((coil + 1) % 304) else s1
    let g := s.fld BST_STATUS_PAD_NEXT
    let s3 := if s.on BST_CFG_PAD_EN then (s2.each (List.range 64) fun t i => (t.padStart g i 0).padStart g i 1).set BST_STATUS_PAD_NEXT ((g + 1) % 258) else s2
    let s4 := if s.on BST_CFG_LANE_EN then s3.each (List.range s.nPorts) fun t p => t.each (List.range (t.nLinks p)) (State.laneStart · p) else s3
    .next s4

/-! ## Tests on demand (R452) -/

/-- BST_RUN (0x4E). -/
def execBstRun (s : State) : Out :=
  .next (s.startMgmt 0x4E fun t m =>
    let p := m.payload
    let scope := byteAt p 0
    let ix := byteAt p 1
    let count := if scope = 0 then t.nChans else t.nPorts
    let held := if scope = 0 then !t.on BST_CFG_COIL_EN || t.colHeld ix
      else if scope = 1 then !t.on BST_CFG_PAD_EN
      else !t.on BST_CFG_LANE_EN || !((List.range (t.nLinks ix)).any fun k => t.lst ix k == 4)
    if p.length < 8 ∨ 2 < scope ∨ 31 < ix ∨ (scope = 1 ∧ ix ≠ 0) ∨ leAt p 2 6 ≠ 0 then t.mgmtRefuse m.job stMALFORMED 0xB0000
    else if scope ≠ 1 ∧ count ≤ ix then t.mgmtRefuse m.job stRANGE 0xB0000
    else if t.acc.bstRun.isSome || held then t.mgmtRefuse m.job stSTATE 0xB0000
    else ({ t with acc := { t.acc with bstRun := some { job := m.job, scope := scope, index := ix } } } : State).set BST_STATUS_RUN_BUSY 1)

/-- The units of a run. -/
def runUnits (scope : Nat) : Nat := if scope = 0 then 304 else if scope = 1 then 258 else 8

/-- The state after the next unit of a run, and whether it was tested and failed. -/
def State.runUnit (s : State) (r : BstRun) (m : CoilMeas) (bad : Bool) (eyeH eyeW : Nat) : State × Bool × Bool :=
  if r.scope = 0 then
    if s.colHeld r.index || s.coilGone r.index r.pos || (s.col r.index).test.isSome then (s.inc BST_SLICE_SKIPS, false, false)
    else
      let fails := bad || decide (s.fld VCP_CAL_CFG_RESID_FAIL < m.resid.toNat)
      (s.coilVerdict r.index r.pos m.resid.toNat bad, true, fails)
  else if r.scope = 1 then
    let units := (List.range s.nSlices).flatMap fun i => [(i, 0), (i, 1)]
    let ok := units.filter fun u => !s.padGone u.1 u.2 r.pos
    let hit := (m.pos.toNat % 64, b2n m.dir)
    let t := s.incBy BST_SLICE_SKIPS (units.length - ok.length)
    (t.each ok (fun t u => t.padVerdict u.1 u.2 r.pos (bad && u == hit)), !ok.isEmpty, bad && ok.contains hit)
  else
    let l := 8 * r.index + r.pos
    if s.laneInL0 l then
      (s.laneVerdict l eyeH eyeW, true, decide (eyeW < s.fld BST_LANE_LIMITS_EYE_W_MIN) || decide (eyeH < s.fld BST_LANE_LIMITS_EYE_H_MIN))
    else (s.inc BST_SLICE_SKIPS, false, false)

/-- BST_RUN_STEP (R452): one unit; after the last the operation completes. -/
def execBstRunStep (m : CoilMeas) (bad : Bool) (eyeH : BitVec 8) (eyeW : BitVec 6) (s : State) : Out :=
  match s.acc.bstRun with
  | none => .next s
  | some r =>
    if !s.ready || s.dead || s.sleep != 0 then .next s
    else
      let (t, tested, failed) := s.runUnit r m bad eyeH.toNat eyeW.toNat
      let q : BstRun := { r with pos := r.pos + 1, tested := r.tested + b2n tested, fails := r.fails + b2n failed, skips := r.skips + b2n (!tested) }
      if q.pos < runUnits q.scope then .next ({ t with acc := { t.acc with bstRun := some q } } : State).settle
      else
        let u := ({ t with acc := { t.acc with bstRun := none } } : State).set BST_STATUS_RUN_BUSY 0
        .next (u.mgmtDone q.job stOK (leBytes 2 q.tested ++ leBytes 2 q.fails ++ leBytes 2 q.skips)).settle

end Sys2Proof.Machine
end

