-- ==== Sys2Proof/Machine/Startup.lean ====
section
/-! DEFINITION. Rails, resets and the start-up phases (02_package_supplies.md, 04_startup_reset_power.md): what each reset keeps
(R71 to R73), the phases P1 to P7 (R62 to R70), cold hold (R68), rail loss (R32). -/

namespace Sys2Proof.Machine

set_option Elab.async false

/-! ## Resets (R71, R72) -/

inductive ResetKind | por | perst | vcore
  deriving DecidableEq, Repr

/-- Does a register keep its value through a reset (Table 4.6, R467)? -/
def keepReg (k : ResetKind) (off : Nat) : Bool :=
  match k, descOf off with
  | .por, _ => false
  | _, none => false
  | .perst, some d => d.cls == .counter || d.cls == .held || d.cls == .life
  | .vcore, some d => d.cls == .held

/-- The holds that only VAON ends: grave, the hold of R44, DIAG_HALT (R72). -/
def State.vaonHold (s : State) : Bool := s.start.grave || s.start.slowHold || s.start.diagHold

/-- Power-good but for VAON (R27). -/
def State.railsGood (s : State) : Bool :=
  s.rails.vcore && s.rails.vstore && s.rails.vdram && s.rails.vpp && s.rails.vser && s.rails.vserh

def State.powerGood (s : State) : Bool := s.rails.vaon && s.railsGood

/-- Registers after a reset. A field that counts since power-on is kept across PERST_N although its register is not. -/
def State.resetRegs (s : State) (k : ResetKind) : State :=
  let t := { s with regs := s.regs.filter fun e => keepReg k e.1 }
  if k = .perst then
    (List.range 16).foldl (fun u l => u.set (VCP_LAYER_STATUS_HB_LOSS_COUNT l) (s.fld (VCP_LAYER_STATUS_HB_LOSS_COUNT l)))
      (t.set GLB_PWR_STATUS_WAKE_COUNT (s.fld GLB_PWR_STATUS_WAKE_COUNT))
  else t

/-- The Marl after a reset: a frozen one keeps its lines and image (R73, R229). -/
def State.resetMarl (s : State) : MarlSt :=
  if !s.marl.image.isEmpty then { lines := s.marl.lines, image := s.marl.image } else {}

/-- The channels after a reset: the layers keep their self-refresh and their contents. -/
def State.resetChans (s : State) : ChanSt :=
  { chans := s.chan.chans.map fun (e : Nat × Chan) => (e.1, ({ srHeld := e.2.srHeld } : Chan)), dram := s.chan.dram, zeroed := s.chan.zeroed }

/-- The recorder after a reset: what had not reached the Sett is lost; OP_SECONDS and PWR_CYCLES go on (R423). -/
def State.resetRec (s : State) (k : ResetKind) : RecorderSt :=
  if k = .por then
    let b := s.bestSlot.getD (zeros 256)
    { opSec := (leAt b 8 8 + 16) % 2 ^ 36, pwr := satAdd (2 ^ 24 - 1) (leAt b 16 3) 1 }
  else { rseq := s.recd.rseq, opSec := s.recd.opSec, pwr := s.recd.pwr }

/-- Start-up state after a reset. -/
def State.resetStart (s : State) (k : ResetKind) : StartSt :=
  let mon := BitVec.ofNat 32 (s.reg CLK_MON_STATUS.off) ||| s.start.monHeld
  let keep : StartSt := { frozen := s.start.frozen, retained := s.start.retained, monHeld := mon, railLost := s.start.railLost, p1At := s.start.p1At, pgAt := s.start.pgAt }
  match k with
  | .por => { keep with boot := s.start.boot }
  | _ => { keep with pgSeen := s.start.pgSeen, lostAt := s.start.lostAt, grave := s.start.grave, graveDone := s.start.graveDone, slowHold := s.start.slowHold, diagHold := s.start.diagHold, forcing := s.vaonHold && s.start.forcing, boot := s.start.boot, dramLost := s.start.dramLost, prog := if s.vaonHold then s.start.prog else 0 }

/-- The fuse array stays; what the last sense gave stays until the next one, except after VAON loss. -/
def State.resetFuse (s : State) (k : ResetKind) : FuseSt :=
  if k = .por then { rows := s.fuse.rows } else { s.fuse with run := none }

/-- The codes in the latches of the dies that keep their supply (R256): of the base die on VAON, of the Marl on VSTORE, of the layers on
VDRAM and VPP. -/
def State.keepCodes (s : State) (die : Nat → Bool) : State :=
  { s with vcp := { s.vcp with cols := s.vcp.cols.map fun (e : Nat × Column) =>
    (e.1, ({ e.2 with codes := e.2.codes.filter (fun x => die (dieOfKey x.1)), cal := e.2.cal.filter (fun x => die x.1) } : Column)) } }

/-- Of the columns' state, only what the latches hold outlives a base reset (R256). -/
def State.latched (s : State) : VcpSt :=
  { cols := s.vcp.cols.map fun (e : Nat × Column) => (e.1, ({ codes := e.2.codes.map fun (x : Nat × CoilCode) => (x.1, ({ x.2 with resid := 0 } : CoilCode)), cal := e.2.cal } : Column)) }

/-- Every part of the state that a base reset leaves behind (Table 4.6). -/
def State.afterReset (s : State) (k : ResetKind) : State :=
  let r := s.resetRegs k
  let acc : AccSt := if k = .por then {} else { i3c := s.acc.i3c, tap := s.acc.tap }
  let flt : FltSt := if k = .perst then { alarmSeq := s.flt.alarmSeq, foldedLife := s.flt.foldedLife } else {}
  let thm : ThmSt := if k = .perst then { sensors := s.thm.sensors.map (fun (e : Nat × Sensor) => (e.1, ({ maxC := e.2.maxC } : Sensor))), tripped := s.thm.tripped } else { tripped := k = .vcore && s.thm.tripped }
  let clk : ClkSt := if k = .por then {} else { slowTrim := s.clk.slowTrim }
  { pending := s.pending, now := s.now, free := s.free, regs := r.regs, acc := acc, rails := s.rails, pins := s.pins, start := s.resetStart k, clk := clk, fuse := s.resetFuse k, flt := flt, recd := s.resetRec k, sett := s.sett, marl := s.resetMarl, chan := s.resetChans, thm := thm,
    vcp := (if k = .por then s.keepCodes (0 < ·) else s).latched }

/-- Registers whose reset value the variant or a strap gives (R1, R3, R154, R265, R354, Table 3.10). -/
def State.variantRegs (s : State) : State :=
  let t := s.each (List.range 4) fun u g => u.setReg (gateOff 0 g) (u.reg (gateOff 0 g) &&& u.gateDomains g)
  let t := if t.k48 then
      let u := t.each ((List.range 16).map (· + 16)) fun u p => u.set (PORT_LINK_CFG_LINK_EN p) 0
      u.each ((List.range 63).map (· + 1)) fun u n => u.set (FOX_RING_MAP_EARTHS n) 3
    else t
  let t := t.each ((List.range 32).filter fun e => decide (t.nEngines ≤ e)) fun u e => u.set (FOX_CTL_ENABLE e) 0
  -- fused-off layers hold self-refresh at PASR fraction 0 (R2)
  let t := t.each ((List.range 32).filter fun c => decide (t.nChans ≤ c)) fun u c =>
    (u.setChn c { u.chn c with srHeld := true, heartbeat := false }).sets [(CHAN_STATUS_STATE c, 4), (CHAN_PASR_FRACTION c, 4)]
  let did := t.pins.idStrap.toNat
  t.sets [(VCP_MECH_FUSED, t.mechDefault), (VCP_MECH_PROFILE, t.mechDefault), (GLB_DID_STRAP_DID, did), (GLB_DID_DID, did), (GLB_UID_LO, t.uid % 2 ^ 32), (GLB_UID_HI, t.uid / 2 ^ 32),
    (BST_DBG_STATUS_LOCKED, b2n t.fuse.debugLock)]

/-- A base reset: heartbeats stop, layers enter self-refresh, the Marl freezes and open pairs close first (Table 4.7). At a power-on
reset GLB_DID holds the straps. In the holds of R72 the PHASE stays, and every register has the reset value that the straps, the
fuses sensed and the variant give it. -/
def State.baseReset (s : State) (k : ResetKind) : State :=
  let a := (s.stopHeartbeats.freezeMarl.otpCut).closeAll
  let t := a.afterReset k
  if k = .por then t
  else if s.vaonHold then t.variantRegs.set GLB_START_STATUS_PHASE s.phase
  else
    let warm := satAdd 0xFFFF (s.fld RST_CAUSE_WARM_COUNT) 1
    let u := t.setReg RST_CAUSE.off (warm * 2 ^ 16 + s.phase * 2 ^ 8 + (if k = .perst then 2 else 4))
    u.sets [(GLB_DID_STRAP_DID, u.pins.idStrap.toNat), (GLB_DID_DID, u.pins.idStrap.toNat)]

/-! ## Phases -/

/-- PHASE takes a value, with START_MS (Table 4.4). -/
def State.setPhase (s : State) (p : Nat) : State :=
  let t := if 3 ≤ p ∧ p ≤ 8 then { s with start := { s.start with prog := max s.start.prog p } } else s
  t.sets [(GLB_START_STATUS_PHASE, p), (GLB_START_STATUS_START_MS, min 0xFFFF ((s.now - s.start.p1At) / 1000))]

/-- One above the highest RSEQ in the log (R422). -/
def State.startRseq (s : State) : State :=
  { s with recd := { s.recd with rseq := if s.logRecs.isEmpty then 0 else BitVec.ofNat 32 (s.recNewest + 1) } }

/-- P1 begins (R62): the counters are loaded, the fuses sensed, BOOT_MODE sampled. -/
def State.enterP1 (s : State) : State :=
  let t := { s with start := { s.start with p1At := s.now, boot := s.pins.bootMode } }
  let u := t.loadCounters.startRseq.senseFuses.variantRegs
  u.sets [(GLB_START_STATUS_PHASE, 1), (GLB_START_STATUS_START_MS, 0)]

/-- P1 starts at the later of power-good and PERST_N high (R62). -/
def State.tryStart (s : State) : State :=
  if s.phase == 0 && s.powerGood && s.pins.perstN && !s.vaonHold then s.enterP1 else s

/-- The START record (Table 19.3). -/
def State.startRec (s : State) : State := s.record 0x01 0 s.phase 0 (leBytes 4 (s.reg GLB_START_STATUS.off) ++ leBytes 4 (s.reg RST_CAUSE.off))

/-! ### P3 -/

/-- The slices that a fused row of REPAIR_MARL names hold a spare pad already. -/
def State.fusedPad (s : State) (r : Nat) (e : Nat) : State :=
  let i := 2 * r + bitsOf e 16 16
  let up := 1 - bitsOf e 14 14
  let k := 2 * up + bitsOf e 13 13
  let pad := bitsOf e 12 5
  let p := s.slicePads i
  let t := if (mget p.holder k).any (· != pad) then s.incSat MARL_REPAIR_STATUS_VOID_ENTRIES else s
  (t.setPads i { p with holder := mput k pad p.holder }).syncPads i

/-- Entries of a REPAIR_MARL row that is CHECKED (R395). -/
def State.marlEntries (s : State) (r : Nat) : List Nat :=
  match mget s.fuse.applied (431 + r) with
  | none => []
  | some v => ((List.range 6).map fun j => bitsOf v.toNat (18 * j + 17) (18 * j)).filter fun e => bitAt e 17

def State.fusedPads (s : State) : State :=
  s.each (List.range 32) fun t r => t.each ((t.marlEntries r).filter fun e => !bitAt e 15 && decide (2 * r + bitsOf e 16 16 < t.nSlices)) fun t e => t.fusedPad r e

/-- P3 begins: the collector and the recorder run, the snapshot is loaded, ports start as their pairs allow. -/
def State.enterP3 (s : State) : State :=
  let t := (s.setPhase 3).recorderRec 2
  let t := if t.start.monHeld = 0 then t else t.event 0x02 3 0 t.start.monHeld.toNat 0
  let t := if t.start.railLost then t.event 0x06 1 0 (t.reg RST_CAUSE.off) 0 else t
  let t := { t with start := { t.start with monHeld := 0, railLost := false } }
  let t := (t.fuseEvents.fuseFaults).fusedPads
  let t := t.loadSnapshot
  (t.each (List.range t.nPorts) State.checkPort).settle

/-- Units that fail their test leave their pools (R218). -/
def State.badMarlUnits (s : State) (l : List (BitVec 22)) : State :=
  let new := ((l.map (·.toNat)).filter fun u => decide (u / 65536 < s.nSlices) && !s.marl.badUnits.contains u).eraseDups
  ({ s with marl := { s.marl with badUnits := s.marl.badUnits ++ new } }).incBy MARL_CELLS_RETIRED new.length

/-- The Marl has not passed where the pool cannot hold its minimum (R218, R64). -/
def State.poolCheck (s : State) : State := if s.poolOk then s else s.raiseRec .marlShort 0 0

/-- A working sensor of a range that reads below LOW_STOP (R68). -/
def State.coldSensor (s : State) (l : List Nat) : Option Nat :=
  l.find? fun n => s.works n && decide ((s.sensor n).reading < 4 * signedByte (s.fld THM_LOW_LOW_STOP))

/-- Cold hold begins at the end of a phase. -/
def State.coldHold (s : State) (from_ n : Nat) : State :=
  let t := ({ s with start := { s.start with coldNext := from_ } }).setPhase 9
  (t.set GLB_START_STATUS_COLD_HELD 1).event 0x07 1 n (i32 (degC (t.sensor n).reading)) 0

/-! ### P4 -/

/-- P4 begins. Channels without DRAM contents since a rail loss stay fenced (Table 2.7). -/
def State.enterP4 (s : State) : State :=
  let t := (s.setPhase 4)
  let t := { t with start := { t.start with coldNext := 0 } }
  if t.start.dramLost then t.each (List.range t.nChans) fun u c => u.fenceChannel c 3 else t

/-- Setup after P3 and its cold check, or at once P4 (R67). -/
def State.afterP3 (s : State) : State := if s.start.boot = 1 then s.setPhase 0xA else s.enterP4

/-- The end of P3. -/
def State.endP3 (s : State) (r : PhaseRes) : State :=
  let t := (s.badMarlUnits r.badUnits)
  let t := t.each ((r.badPads.map (·.toNat)).filter fun x => decide (x / 512 < t.nSlices)) fun u x =>
    let i := x / 512
    if padHeld (u.slicePads i) (x / 256 % 2) (x % 256) then u
    else match u.padRepair i (x / 256 % 2) (x % 256) with
      | some v => v
      | none => u.retireSlice i
  let t := t.each (enum (r.padMargin.take t.nSlices)) fun u e => u.set (MARL_PAD_STATUS_MARGIN e.1) e.2.toNat
  let t := t.poolCheck.settle
  if t.start.grave then t
  else match t.coldSensor (List.range 20) with
    | some n => t.coldHold 3 n
    | none => t.afterP3

/-- A spare takes a position of its column. -/
def State.spareTakes (s : State) (c j use pos : Nat) : State := s.sets [(VCP_SPARE_USE c j, use), (VCP_SPARE_POSITION c j, pos)]

/-- Spares of a column that hold a position. -/
def State.sparesAt (s : State) (c pos : Nat) : List Nat :=
  (List.range 16).filter fun j => s.fld (VCP_SPARE_USE c j) != 0 && s.fld (VCP_SPARE_POSITION c j) == pos

/-- Let go of every spare that holds a position. -/
def State.freeAt (s : State) (c pos : Nat) : State := s.each (s.sparesAt c pos) fun t j => t.spareTakes c j 0 0

/-- Fused spare assignments of a column (R268). -/
def State.fusedSpares (s : State) (c : Nat) : State :=
  match mget s.fuse.applied (399 + c) with
  | none => s
  | some row => s.each (List.range 12) fun t j =>
    let v := bitsOf row.toNat (9 * j + 8) (9 * j)
    if v = 0 then t else if 288 < v then t.set (VCP_SPARE_FAILED c j) 1
    else if t.on (VCP_SPARE_FAILED c j) then t else (t.freeAt c (v - 1)).spareTakes c j 1 (v - 1)

/-- Target of a soft-repair entry. -/
def softTarget (e : SoftRec) : Nat := leAt e.bytes 2 6
def softLive (typ : Nat) (e : SoftRec) : Bool := byteAt e.bytes 0 == typ && !bitAt (byteAt e.bytes 1) 0

/-- An entry is marked FUSED in the log (R396). -/
def State.markFused (s : State) (i : Nat) (e : SoftRec) : State := { s with sett := { s.sett with softLog := mput i { bytes := e.bytes.set 1 1 } s.sett.softLog } }

/-- Live entries of a type that name a column, oldest first: the time of the repair decides, and the place in the log among entries of
one second (log entry 80). -/
def State.softOf (s : State) (typ c : Nat) : List (Nat × SoftRec) :=
  let t := fun (e : Nat × SoftRec) => leAt e.2.bytes 8 5
  (s.sett.softLog.filter fun e => softLive typ e.2 && softTarget e.2 % 32 == c).mergeSort fun a b => decide (t a < t b) || (t a == t b && decide (a.1 ≤ b.1))

/-- Soft coil repairs of a column, oldest first (R271, R276, R396): the later entry for a position holds it. A spare that holds another
target, or is FAILED, takes none. -/
def State.softSpares (s : State) (c : Nat) : State :=
  s.each (s.softOf 5 c) fun t e =>
    let pos := bitsOf (softTarget e.2) 13 5
    let j := bitsOf (softTarget e.2) 17 14
    let use := t.fld (VCP_SPARE_USE c j)
    if use = 1 ∧ t.fld (VCP_SPARE_POSITION c j) = pos then t.markFused e.1 e.2
    else if use ≠ 0 ∨ t.on (VCP_SPARE_FAILED c j) then t.incSat (CHAN_REPAIR_STATUS_VOID_ENTRIES c)
    else (t.freeAt c pos).spareTakes c j 2 pos

/-- Positions logged as failed, by fuse or in the log, that no spare has taken: their own coils never return to use (R276). -/
def State.logFailed (s : State) (c : Nat) : List Nat :=
  (((s.softOf 5 c).map fun e => bitsOf (softTarget e.2) 13 5).eraseDups).filter fun p => decide (p < 288) && !(s.heldPositions c).contains p

/-- Half that the log's narrowing of a column keeps active, if it has one. -/
def State.softHalf (s : State) (c : Nat) : Option Nat :=
  ((s.softOf 6 c).getLast?).map fun e => bitsOf (softTarget e.2) 5 5

/-- The row of a column in REPAIR_COUPLE was FAILED at the last sense (Table 5.4). -/
def State.coupleRowFailed (s : State) (c : Nat) : Bool := s.fuse.failedRows.contains (399 + c)

/-- Mode of a column at P4 (R276, Table 5.4). Which half a FAILED row leaves active is open. -/
def State.startMode (s : State) (c : Nat) : State :=
  let narrow := fun (t : State) h => t.sets [(VCP_COL_STATUS_MODE c, 2), (VCP_COL_STATUS_HALF c, h), (CHAN_STATUS_NARROW c, 1)]
  match s.softHalf c with
  | some h => narrow s h
  | none => if s.coupleRowFailed c then narrow ({ s with free := s.free + 1 }) (Config.freeNat s.free % 2) else s.set (VCP_COL_STATUS_MODE c) 1

/-- A coil that cannot be calibrated (R261, R267, Table 12.4). -/
def State.badCoil (s : State) (c coil : Nat) : State :=
  if s.on (CHAN_STATUS_FENCED c) then s
  else if 288 ≤ coil ∧ !s.coilInUse c coil then (s.set (VCP_SPARE_FAILED c (coil - 288)) 1).syncCol c
  else if coil < 288 ∧ s.replaced c coil then s
  else
    let pos := s.coilPos c coil
    let t := s.coilFail c pos
    if (t.col c).failed.contains pos then t.settleFailure c pos else t

/-- Rows of TRIM as the last sense gave them; none where the region failed (Table 5.4). -/
def State.trimRows (s : State) : List Nat := if s.regionOk 2 then (List.range 32).map fun i => (s.fuseRow (7 + i)).toNat else []

/-- Steps 4 to 6 of Table 12.2 on one column: spares, codes searched from the TRIM start code under the profile in force, residuals. A
coil not brought within RESID_FAIL has failed, as has one that the log names and no spare carries. -/
def State.calibrate (s : State) (c : Nat) (r : PhaseRes) : State :=
  let t := s.each (List.range 16) fun u j => u.spareTakes c j 0 0
  let base : CalBase := { profile := s.fld VCP_MECH_PROFILE, trim := s.trimRows }
  let t := (((t.setCol c { cal := (List.range (layerOf c + 1)).map fun d => (d, base) }).fusedSpares c).softSpares c).startMode c
  let t := (t.syncCol c).each r.cal fun u m => u.takeCal c m
  let bad := (t.logFailed c ++ (r.badCoils.filter fun e => e.1.toNat == c).map (fun e => e.2.toNat) ++ t.calFails c r.cal).eraseDups.filter fun p => decide (p < 304)
  let idle := bad.filter fun p => decide (288 ≤ p) && !t.coilInUse c p
  let t := (t.each idle fun u p => u.badCoil c p).each (bad.filter fun p => !idle.contains p) fun u p => u.badCoil c p
  let t := t.setCol c { t.col c with calTemp := t.layerTemps (layerOf c) }
  if t.on (CHAN_STATUS_FENCED c) then t else t.judgeResid c

/-- A layer at P4 (R261): discovered and its columns calibrated, or fenced with FENCE_CAUSE 4. VCP_LAYER_STATUS of a fused-off layer, for
which its field map gives no value, stays 0 (DESIGN CHOICE, log entry 76). -/
def State.startLayer (s : State) (r : PhaseRes) (l : Nat) : State :=
  if !bitAt r.found.toNat (l - 2) then s.each (layerChans l) fun t c => t.fenceChannel c 4
  else
    let die := (r.dieIds[l - 2]?).getD 0
    let t := (s.sets [(VCP_LAYER_STATUS_DISCOVERED (l - 2), 1), (VCP_LAYER_STATUS_DIE_ID (l - 2), die.toNat)]).setLyrLock l true
    let want := Config.identDie ((List.range 4).map fun i => (t.fuseRow i).toNat) l
    let t := if t.regionOk 0 && die != want then t.event 0x0D 2 l die.toNat 0 else t
    t.each ((layerChans l).filter fun c => !t.on (CHAN_STATUS_FENCED c)) fun u c => u.calibrate c r

/-- The end of P4. -/
def State.endP4 (s : State) (r : PhaseRes) : State × Bool :=
  let layers := (List.range 16).map (· + 2) |>.filter s.layerOn
  let t := (s.each layers fun u l => u.startLayer r l).settle
  match t.coldSensor ((List.range (t.nSensors - 20)).map (· + 20)) with
  | some n => (t.coldHold 4 n, false)
  | none => (t, true)

/-! ### P5 -/

/-- The memory map record is loaded or refused (R238). -/
def State.loadMap (s : State) : State :=
  let t := match s.sett.mapRec with
    | none => s
    | some m =>
      if m.crcOk && m.variantCode == s.fuse.variantCode then (s.setReg GLB_MEM_CFG.off m.memCfg.toNat).set GLB_MEM_STATUS_GROUP_STATE m.groupState.toNat
      else s.event 0x09 1 1 0 0
  t.showMap

/-- Rebuilds that earlier starts began: a finished one leaves its channel RETIRED, an unfinished one its channel fenced until
it resumes (R241). -/
def State.loadRebuild (s : State) (c : Nat) : State :=
  if !s.parity then s
  else match mget s.sett.rebuild c with
    | none => s
    | some six =>
      if 16 ≤ six then s.sets [(CHAN_STATUS_RETIRED c, 1), (CHAN_REBUILD_STATE c, 2), (CHAN_REBUILD_SIXTEENTHS c, 16), (CHAN_REBUILD_PTR_PTR c, chanBlocks)]
      else if s.groupSt (c / 8) = 2 then
        (s.sets [(CHAN_STATUS_FENCED c, 1), (CHAN_STATUS_STATE c, 4), (VCP_COL_STATUS_MODE c, 3), (CHAN_REBUILD_SIXTEENTHS c, six), (CHAN_REBUILD_PTR_PTR c, six * (chanBlocks / 16))]).setChn c { s.chn c with heartbeat := false }
      else s

/-- A channel found fenced at this start takes its group with it (R241, R242); its dirty lines are judged at P6 (R76). -/
def State.fencedAtStart (s : State) (c : Nat) : State :=
  if !s.on (CHAN_STATUS_FENCED c) || s.on (CHAN_STATUS_RETIRED c) then s
  else if !s.parity then s.set (CHAN_STATUS_LOST c) 1
  else match s.groupSt (c / 8) with
    | 1 =>
      let t := s.changeGroup (c / 8) 2
      { t with sett := { t.sett with rebuild := mput c 0 t.sett.rebuild } }
    | 2 =>
      if (mget s.sett.rebuild c).isSome then s
      else
        let fs := ((List.range 8).map fun i => 8 * (c / 8) + i).filter fun f => f != c && s.on (CHAN_STATUS_FENCED f) && !s.on (CHAN_STATUS_RETIRED f) && !s.on (CHAN_STATUS_LOST f)
        let t := (s.changeGroup (c / 8) 3).set (CHAN_STATUS_LOST c) 1
        t.each fs fun u f => (u.sets [(CHAN_REBUILD_STATE f, 3), (CHAN_STATUS_LOST f, 1)]).event 0x0A 3 f ((u.set (CHAN_REBUILD_STATE f) 3).reg (CHAN_REBUILD f).off) (u.reg (CHAN_REBUILD_PTR f).off)
    | _ => s.set (CHAN_STATUS_LOST c) 1

/-- Key of the spare that an entry of REPAIR_DRAM names: bank, or bank and subarray, with KIND. -/
def dramSpareKey (e : Nat) : Nat := if bitAt e 35 then 2 ^ 40 + bitsOf e 34 18 * 32 + bitsOf e 7 3 else bitsOf e 34 25 * 32 + bitsOf e 7 3

/-- Bank index, as in the row keys, of an entry. -/
def entryRowKey (e : Nat) : Nat := bitsOf e 34 30 * 2 ^ 32 + (bitsOf e 29 29 * 16 + bitsOf e 28 25) * 2 ^ 17 + bitsOf e 24 8

/-- A redirection held in a list: any of this spare for another target gives way. -/
def putRedirect (l : List Redirect) (r : Redirect) (sameSpare : Redirect → Bool) : List Redirect := (l.filter fun x => x.target != r.target && !sameSpare x) ++ [r]

/-- Does a row redirection use the spare row of an entry? -/
def rowSpareOf (e : Nat) (x : Redirect) : Bool := x.target / 2 ^ 17 == entryRowKey e / 2 ^ 17 && x.spare == bitsOf e 7 3

/-- Does a byte-column redirection use the spare column of an entry (bank, subarray, spare)? -/
def colSpareOf (e : Nat) (x : Redirect) : Bool := x.target / 2 ^ 10 == bitsOf e 34 18 && x.spare == bitsOf e 7 3

/-- Apply one fused entry of REPAIR_DRAM (R394, R396): the later one holds the spare. -/
def State.fusedDram (s : State) (e : Nat) : State :=
  let c := bitsOf e 34 30
  let p := s.prot
  if bitAt e 35 then
    let r : Redirect := { target := bitsOf e 34 8, spare := bitsOf e 7 3 }
    let void := p.colFix.any fun x => colSpareOf e x && x.target != r.target
    let t := if void then s.incSat (CHAN_REPAIR_STATUS_VOID_ENTRIES c) else s
    { t with prot := { p with colFix := putRedirect p.colFix r (colSpareOf e) } }
  else
    let r : Redirect := { target := entryRowKey e, spare := bitsOf e 7 3 }
    let void := p.rowFix.any fun x => rowSpareOf e x && x.target != r.target
    let t := if void then s.incSat (CHAN_REPAIR_STATUS_VOID_ENTRIES c) else s
    { t with prot := { p with rowFix := putRedirect p.rowFix r (rowSpareOf e) } }

/-- Fused entries of the CHECKED rows of REPAIR_DRAM, in row and entry order. -/
def State.dramEntries (s : State) : List Nat :=
  (List.range 360).flatMap fun i => match mget s.fuse.applied (39 + i) with
    | none => []
    | some v => ((List.range 3).map fun j => bitsOf v.toNat (37 * j + 36) (37 * j)).filter fun e => bitAt e 36

/-- Block and remap entry of a log target of type 2. -/
def remapBlock (v : Nat) : Nat :=
  let row := bitsOf v 24 10 * 4 + bitsOf v 41 40
  row * 512 + ((bitsOf v 26 25) ^^^ (row / 4 % 4)) * 128 + ((bitsOf v 28 27) ^^^ (row % 4)) * 32 + bitsOf v 29 29 * 16 + bitsOf v 39 38 * 4 + bitsOf v 9 8
def remapSlot (v : Nat) : Nat := bitsOf v 7 3 + 32 * bitsOf v 37 37

/-- Apply one soft entry of a DRAM row or remap (R396). -/
def State.softDram (s : State) (i : Nat) (e : SoftRec) : State :=
  let v := softTarget e
  let c := bitsOf v 34 30
  if softLive 1 e then
    let r : Redirect := { target := entryRowKey v, spare := bitsOf v 7 3 }
    if s.prot.rowFix.contains r then s.markFused i e
    else if s.prot.rowFix.any (rowSpareOf v) then s.incSat (CHAN_REPAIR_STATUS_VOID_ENTRIES c)
    else { s with prot := { s.prot with rowFix := putRedirect s.prot.rowFix r fun _ => false } }
  else if softLive 2 e then
    if s.prot.blkFix.any fun x => x.target / 2 ^ 26 == c && x.spare == remapSlot v then s.incSat (CHAN_REPAIR_STATUS_VOID_ENTRIES c)
    else s.putBlkFix c (remapBlock v) (remapSlot v)
  else s

/-- The DRAM redirections of a start (R396). -/
def State.applyDramRepairs (s : State) : State :=
  let t := s.each (s.dramEntries.filter fun e => decide (bitsOf e 34 30 < s.nChans)) State.fusedDram
  let u := t.each (t.sett.softLog.filter fun e => decide (bitsOf (softTarget e.2) 34 30 < t.nChans)) fun u e => u.softDram e.1 e.2
  u.each (List.range u.nChans) State.syncRepair

/-- P5 begins. -/
def State.enterP5 (s : State) : State :=
  let t := (s.setPhase 5).loadMap
  let t := (t.each (List.range t.nChans) State.loadRebuild).each (List.range t.nChans) State.fencedAtStart
  t.applyDramRepairs

/-- A channel at P5: taken out of self-refresh where its layer is marked, else initialised; an untrained one is fenced. -/
def State.startChan (s : State) (r : PhaseRes) (c : Nat) : State :=
  if s.on (CHAN_STATUS_FENCED c) then s
  else
    let t := if s.start.retained.getLsbD (layerOf c - 2) then s else s.dramForget c 0
    if bitAt r.trained.toNat c then
      ((t.setChn c { t.chn c with srHeld := false, heartbeat := true }).set (CHAN_STATUS_STATE c) 2).setReg (CHAN_TRAIN c).off ((r.trainVals[c]?).getD 0).toNat
    else t.fenceChannel c 2

def State.endP5 (s : State) (r : PhaseRes) : State := (s.each (List.range s.nChans) fun t c => t.startChan r c).settle

/-! ### P6 -/

/-- Fused entries of one kind-1 row of REPAIR_MARL (R395): the row's key is slice, bank and row. -/
def State.fusedMarlRow (s : State) (r e : Nat) : State :=
  let target := ((2 * r + bitsOf e 16 16) * 65536 + bitsOf e 14 11 * 4096) / 16 + bitsOf e 7 0
  let x : Redirect := { target := target, spare := bitsOf e 10 8 }
  let same := fun (y : Redirect) => y.target / 256 == target / 256 && y.spare == x.spare
  let void := s.prot.marlRowFix.any fun y => same y && y.target != target
  let t := if void then s.incSat MARL_REPAIR_STATUS_VOID_ENTRIES else s
  { t with prot := { t.prot with marlRowFix := putRedirect t.prot.marlRowFix x same } }

/-- A soft entry of a Marl row or remap. -/
def State.softMarl (s : State) (i : Nat) (e : SoftRec) : State :=
  let v := softTarget e
  let u := bitsOf v 21 0
  let j := bitsOf v 26 22
  if softLive 3 e then
    if s.prot.marlRowFix.contains { target := u / 16, spare := j } then s.markFused i e
    else if s.prot.marlRowFix.any fun y => y.target / 256 == u / 4096 && y.spare == j then s.incSat MARL_REPAIR_STATUS_VOID_ENTRIES
    else s.putMarlRow u j
  else if softLive 4 e then
    if s.prot.marlBlkFix.any fun y => y.spare == j then s.incSat MARL_REPAIR_STATUS_VOID_ENTRIES else s.putMarlBlk u j
  else s

def State.applyMarlRepairs (s : State) : State :=
  let t := s.each (List.range 32) fun t r => t.each ((t.marlEntries r).filter fun e => bitAt e 15 && decide (2 * r + bitsOf e 16 16 < t.nSlices)) fun t e => t.fusedMarlRow r e
  (t.each t.sett.softLog fun u e => u.softMarl e.1 e.2).syncMarlRepair

/-- A FAILED row of REPAIR_MARL takes its two slices out of the cache (Table 5.4). -/
def State.failedSlices (s : State) : State :=
  s.each ((List.range 32).filter fun r => s.fuse.failedRows.contains (431 + r) && decide (2 * r < s.nSlices)) fun t r =>
    t.each [2 * r, 2 * r + 1] fun u i => u.set (MARL_SLICE_OUT (i / 32)) (putBit (u.fld (MARL_SLICE_OUT (i / 32))) (i % 32) true)

/-- The end of P6: repairs, the units' tests, re-attach of a marked Marl, the slice map (R220, R229, R396). -/
def State.endP6 (s : State) (r : PhaseRes) : State :=
  let t := (s.failedSlices.applyMarlRepairs).badMarlUnits r.badUnits
  let t := t.poolCheck
  let t := if t.start.frozen && !t.marl.image.isEmpty then (t.fillSliceMap.reattach).set GLB_START_STATUS_MARL_RETAINED 1 else { t with marl := { t.marl with lines := [], image := [] } }
  let t := t.fillSliceMap
  (if r.marlOk then t else t.raiseRec .marlShort 0 0).settle

/-! ### P7 -/

/-- P7 begins; a failed attempt of the fast RC is reported now (R43). -/
def State.enterP7 (s : State) : State :=
  let t := s.setPhase 7
  if t.start.frcFailSeen then t.raise .frcFail 0 (t.fld CLK_SRC_STATUS_FRC_TRIM_STEPS + 2 ^ 8 * t.fld CLK_SRC_STATUS_FRC_FAILED) else t

/-- An image that verified and loaded is taken (R320). -/
def State.takeImage (s : State) (from_ svn : Nat) (digest part : List (BitVec 8)) (active : Bool) : State :=
  let pd := sha384 part
  let t := ({ s with fox := { s.fox with retained := part, allDisabled := false } }).sets [(GLB_START_STATUS_FW_SLOT, from_), (FOX_FW_STATUS_SVN, svn)]
  let t := t.sets ((List.range 12).flatMap fun k => [(FOX_FW_DIGEST k, leAt digest (4 * k) 4), (FOX_PART_DIGEST k, leAt pd (4 * k) 4)])
  let t := t.each ((List.range t.nEngines).filter t.engEnabled) fun u e => u.putEng e { u.eng e with st := if u.clk.foxRelock then .reload else .idle, den := [] }
  if active && decide (t.fld FOX_FW_FLOOR < svn) then (t.set FOX_FW_FLOOR svn).saveCounters else t

/-- No image: the stack is degraded (R70). -/
def State.noImage (s : State) : State := (s.set GLB_START_STATUS_FW_DEGRADED 1).raiseRec .fwNone 0 0

/-- One slot is tried and marked; whether its image was taken. -/
def State.trySlot (s : State) (loads : Bool × Bool) (k : Nat) : State × Bool :=
  let m := if k = 0 then s.sett.slotA else s.sett.slotB
  if m = .empty then (s, false)
  else match s.checkImage (s.slotImage k) with
    | .ok svn digest part =>
      let t := s.markSlot k .verified
      if (if k = 0 then loads.1 else loads.2) then (t.takeImage (k + 1) svn digest part (s.sett.active == k + 1), true) else (t, false)
    | _ => (s.markSlot k .failed, false)

/-- The slots in the order of R69, until one's image is taken. -/
def State.trySlots (s : State) (loads : Bool × Bool) : List Nat → State
  | [] => s.noImage
  | k :: rest => if (s.trySlot loads k).2 then (s.trySlot loads k).1 else (s.trySlot loads k).1.trySlots loads rest

/-- The image that came over the sideband (R321). -/
def State.sidebandImage (s : State) : List (BitVec 8) :=
  (s.fox.sbImage.foldl (fun (a : Nat × List (BitVec 8)) e => (e.1 + 1, a.2 ++ zeros (e.1 - a.1) ++ [e.2])) (0, [])).2

/-- Firmware at the end of P7 (R69), with whether the load of slot A or the sideband image, and of slot B, succeeds. Where the Sett
marks no slot active, slot A is tried first (DESIGN CHOICE, log entry 76). -/
def State.loadFirmware (s : State) (loads : Bool × Bool) : State :=
  if s.start.boot = 2 then
    match s.checkImage s.sidebandImage with
    | .ok svn digest part => if loads.1 then s.takeImage 3 svn digest part false else s.noImage
    | _ => s.noImage
  else s.trySlots loads (if s.sett.active = 2 then [1, 0] else [0, 1])

/-- READY. -/
def State.enterReady (s : State) : State :=
  let t := (s.setPhase 8).evalD.startTimers
  let t := t.each (bitList 32 (t.fld BST_BADGER_CHAN_EN)) State.passStart
  t.startRec.settle

/-! ## Phase ends -/

/-- A phase has finished what it can; its result says which units have not (R62, R64). -/
def State.phaseEnd (s : State) (r : PhaseRes) : State :=
  match s.phase with
  | 3 => s.endP3 r
  | 4 =>
    let (t, on) := s.endP4 r
    if on && !t.start.grave then t.enterP5 else t
  | 5 => let t := s.endP5 r; if t.start.grave then t else t.setPhase 6
  | 6 => let t := s.endP6 r; if t.start.grave then t else t.enterP7
  | 7 =>
    if s.start.boot = 2 ∧ !s.on FOX_SB_CTL_GO then s
    else let t := (s.loadFirmware (r.loadOk, r.loadOkB)).settle; if t.start.grave then t else t.enterReady
  | _ => s

/-- P2 ends once its steps are done (Table 3.3), in P3 or in DIAG_HALT (R67). -/
def State.endP2 (s : State) : State :=
  if s.clk.p2Step < 7 then s
  else if s.start.boot = 3 then ((({ s with start := { s.start with diagHold := true } }).setPhase 0xB).startRec).fuseEvents
  else s.enterP3

/-- START_PHASE_END (R62). -/
def execStartPhaseEnd (r : PhaseRes) (s : State) : Out :=
  if s.dead then .next s
  else if s.phase = 1 then .next (s.clockStart.setPhase 2)
  else if s.phase = 2 then .next s.endP2
  else .next (s.phaseEnd r)

/-- PHASE_TIMER_EXPIRY (R64): a phase P3 to P7 ends with what it has. -/
def execPhaseTimerExpiry (r : PhaseRes) (s : State) : Out := if s.dead then .next s else .next (s.phaseEnd r)

/-- COLD_HOLD_EXIT (R68). -/
def execColdHoldExit (s : State) : Out :=
  let low := 4 * signedByte (s.fld THM_LOW_LOW_STOP) + 12
  if s.dead || s.phase != 9 || (List.range s.nSensors).any fun n => s.works n && decide ((s.sensor n).reading < low) then .next s
  else if s.start.coldNext = 3 then .next ({ s with start := { s.start with coldNext := 0 } } : State).afterP3
  else .next s.enterP4

/-- A write of GLB_START_CTL (Table 4.5). -/
def State.goWrite (s : State) (v : Nat) : BitVec 8 × State :=
  if !bitAt v 0 then (stOK, s)
  else if s.phase = 0xA ∧ !s.dead then (stOK, (s.set GLB_START_CTL_GO 1).enterP4)
  else (stSTATE, s.viol GLB_START_CTL.off .state)

/-! ## Rails and PERST_N -/

/-- VAON is lost (Table 2.7): everything but the fuses, the Sett and what the layers' own rails keep is gone. A loss past P0 is
recorded at the next start. -/
def State.vaonLost (s : State) : State :=
  let t := s.baseReset .por
  { t with rails := { t.rails with vaon := false }, pins := { t.pins with thermtripLow := false },
           start := { t.start with railLost := s.start.railLost || s.phase != 0 } }

/-- VAON becomes good (R27, R71): the power-on reset; the straps are sampled, and every hold of R72 is over. -/
def State.powerOn (s : State) (straps : BitVec 12) (boot : BitVec 2) (tmode : Bool) : State :=
  let t := (if s.rails.vaon then s.vaonLost else s).baseReset .por
  let pins : Pins := { t.pins with idStrap := straps, bootMode := boot, tmode := tmode, thermtripLow := false }
  let u := ({ t with rails := { t.rails with vaon := true }, pins := pins }).sets [(GLB_DID_STRAP_DID, straps.toNat), (GLB_DID_DID, straps.toNat)]
  ({ u with start := { u.start with pgAt := u.now, pgSeen := u.powerGood } } : State).tryStart

/-- VAON_GOOD (R27, R71). -/
def execVaonGood (straps : BitVec 12) (boot : BitVec 2) (tmode : Bool) (s : State) : Out := .next (s.powerOn straps boot tmode)

/-- RAIL_GOOD (R27). VAON becomes good with the pins as they are. -/
def execRailGood (r : RailId) (s : State) : Out :=
  let was := s.powerGood
  let up := fun (x : Rails) => match r with
    | .vaon => x
    | .vcore => { x with vcore := true }
    | .vstore => { x with vstore := true }
    | .vdram => { x with vdram := true }
    | .vpp => { x with vpp := true }
    | .vser => { x with vser := true }
    | .vserh => { x with vserh := true }
    | .vfuse => { x with vfuse := true }
  let t := { s with rails := up s.rails }
  -- a layer whose rail powers up has lost its mark and contents (R73)
  let t := match r with
    | .vstore => if s.rails.vstore then t else { t with start := { t.start with frozen := false }, marl := { t.marl with lines := [], image := [] } }
    | .vdram => if s.rails.vdram then t else { t with start := { t.start with retained := 0 }, chan := { t.chan with dram := [], zeroed := [] } }
    | .vpp => if s.rails.vpp then t else { t with start := { t.start with retained := 0 }, chan := { t.chan with dram := [], zeroed := [] } }
    | .vser => if t.live then t.each (List.range t.nPorts) State.checkPort else t
    | .vserh => if t.live then t.each (List.range t.nPorts) State.checkPort else t
    | _ => t
  let t := if t.powerGood && !was then { t with start := { t.start with pgAt := t.now, pgSeen := true } } else t
  .next (if r = .vaon then (if s.rails.vaon then s else s.powerOn s.pins.idStrap s.pins.bootMode s.pins.tmode) else t.tryStart)

/-- Every port goes down and its buffered packets are lost (Table 2.7, VSER or VSERH). -/
def State.portsLost (s : State) : State := ((s.each (List.range s.nPorts) State.portClear).closePairs)

/-- Is the loss of a rail judged as one past P0 (R32)? So is one that comes at the same moment as the VCORE loss. -/
def State.railCounts (s : State) : Bool := s.rails.vaon && (s.phase != 0 || s.start.lostAt == some s.now)

/-- RAIL_LOST (R32, Table 2.7). In P0 the rail is only marked. -/
def execRailLost (r : RailId) (s : State) : Out :=
  let run := s.railCounts
  let raise := fun (t : State) (n : Nat) => if t.live then t.raise .rail 0 n else t
  let noDram := fun (t : State) (n : Nat) =>
    let t := t.keepCodes (· < 2)
    let u := { t with chan := { t.chan with dram := [], zeroed := [] } }
    if run then
      let v := { u with start := { u.start with dramLost := true } }
      raise (if v.live then v.each (List.range v.nChans) fun w c => w.fenceChannel c 3 else v) n
    else u
  match r with
  | .vaon => .next (if s.rails.vaon then s.vaonLost else s)
  | .vcore =>
    let t := { s with rails := { s.rails with vcore := false } }
    if s.rails.vcore && run then .next (({ t with start := { t.start with railLost := !s.vaonHold || t.start.railLost, lostAt := some s.now } } : State).baseReset .vcore) else .next t
  | .vstore =>
    let s := s.keepCodes (· != 1)
    let t := { s with rails := { s.rails with vstore := false }, marl := { s.marl with lines := [], image := [] }, start := { s.start with frozen := false } }
    if s.rails.vstore && run then .next ((t.raiseRec .railVstore 0 0).enterGrave).settle else .next t
  | .vdram => .next (if s.rails.vdram then noDram { s with rails := { s.rails with vdram := false } } 2 else s)
  | .vpp => .next (if s.rails.vpp then noDram { s with rails := { s.rails with vpp := false } } 3 else s)
  | .vser =>
    let t := { s with rails := { s.rails with vser := false } }
    .next (if run && s.rails.vser then raise t.portsLost 0 else t)
  | .vserh =>
    let t := { s with rails := { s.rails with vserh := false } }
    .next (if run && s.rails.vserh then raise t.portsLost 1 else t)
  | .vfuse => .next (({ s with rails := { s.rails with vfuse := false } } : State).closeWindow true)

/-- PERST_N_LOW (R72): a warm reset, but for the states that only VAON ends. -/
def execPerstNLow (s : State) : Out :=
  let t := { s with pins := { s.pins with perstN := false } }
  if !s.rails.vaon || !s.pins.perstN || s.vaonHold then .next t else .next (t.baseReset .perst)

/-- PERST_N_HIGH (R62): the stack waits in P0 for power-good, then runs from P1. -/
def execPerstNHigh (s : State) : Out := .next ({ s with pins := { s.pins with perstN := true } } : State).tryStart

end Sys2Proof.Machine
end

