-- ==== Sys2Proof/Machine/Power.lean ====
section
/-! DEFINITION. Power states (R80 to R85), block resets (R78, R79) and the loss of the Marl's heartbeat (R73). -/

namespace Sys2Proof.Machine

set_option Elab.async false

/-! ## S1 (R80, R83) -/

/-- Does R87 hold: one fraction in each parity group? -/
def State.pasrEven (s : State) : Bool :=
  !s.parity || (List.range s.nChans).all fun c => s.fld (CHAN_PASR_FRACTION c) == s.fld (CHAN_PASR_FRACTION (c / 8 * 8))

/-- The refusals of R81. -/
def State.sleepRefused (s : State) : Bool :=
  ((List.range 63).any fun i => s.unfinished (i + 1)) || !s.unitResets.isEmpty || ((List.range s.nChans).any fun c => (s.chn c).pasrNew.isSome) || !s.pasrEven

/-- S1 is asked for (R83). -/
def State.askS1 (s : State) : State := ({ s with pwr := { s.pwr with s1Req := true } }).set GLB_PWR_STATUS_TARGET 1

/-- An entry to S2 or S3 begins (R82 step 1). -/
def State.startSleep (s : State) (target : Nat) (asker : Asker) (timer : Nat) : State :=
  let e : SleepEntry := { target := target, asker := asker, answered := false, wakeHeld := none }
  ({ s with pwr := { s.pwr with entry := some e, wakeTimer := timer, s1Req := false } }).sets [(GLB_PWR_STATUS_TARGET, target), (GLB_PWR_STATUS_STATE, 0)]

/-- SET_PSTATE (0x44, R81, R313). -/
def execSetPstate (s : State) : Out :=
  .next (s.startMgmt 0x44 fun t m =>
    let p := m.payload
    let target := byteAt p 0
    if p.length < 8 ∨ target < 1 ∨ 3 < target ∨ leAt p 1 3 ≠ 0 then t.mgmtRefuse m.job stMALFORMED 0
    else if t.fox.mgmt.any (fun x => x.job != m.job) || t.sleepRefused || t.pwr.entry.isSome then t.mgmtRefuse m.job stSTATE 0
    else if target = 1 then (t.mgmtDone m.job stOK []).askS1
    else t.startSleep target .ring0 (leAt p 4 4)).settle

/-- No local request, transit packet, ring work or engine run is under way; polls do not count (R80). -/
def State.quiet (s : State) : Bool :=
  (s.txns.all fun t => s.isPoll t.pkt) && (s.sw.ingress.all fun i => s.isPoll i.pkt) && (s.sw.egress.all fun o => s.isPoll o.pkt)
  && s.fox.jobs.isEmpty && s.fox.svcQueue.isEmpty && ((s.fox.outs ++ s.fox.unsent).all s.pollOut) && s.fox.mgmt.isEmpty
  && !((List.range 64).any fun n => s.ringSt n != 2 && s.unfinished n)

/-- A link goes to L1 with the stack (R128). -/
def State.toL1 (s : State) (p m : Nat) : State :=
  if s.lst p m = 4 ∧ (s.link p m).kept.isEmpty then
    s.linkIdle p m
  else s

/-- S1_IDLE_EXPIRY (R80, R83). -/
def execS1IdleExpiry (s : State) : Out :=
  if s.ready && !s.dead && s.sleep == 0 && s.pwr.entry.isNone && (s.pwr.s1Req || s.fld GLB_PWR_CTL_IDLE_US != 0) && s.quiet then
    let t := ({ s with pwr := { s.pwr with s1Req := false } }).abandonTests
    let u := t.each (List.range t.nPorts) fun t p => t.each (List.range (t.nLinks p)) (State.toL1 · p)
    .next (u.sets [(GLB_PWR_STATUS_STATE, 1), (GLB_PWR_STATUS_TARGET, 0)])
  else .next s

/-! ## S2 and S3 (R82) -/

/-- Step 4 for S3: dirty lines in the part a channel keeps go back, the rest is invalid; the Marl is powered off, and the
dropped parts of the channels are undefined (R88). -/
def State.emptyMarl (s : State) : State :=
  let kept := fun (l : Nat) => let (c, b) := s.placeOf l; decide (b < pasrKeep (s.fld (CHAN_PASR_FRACTION c)))
  let t := { s with marl := { s.marl with lines := s.marl.lines.filter fun e => kept e.1 } }
  let t := t.each (t.marl.lines.map (·.1)) fun u l => u.writeBackNow l false
  let t := t.each (List.range t.nChans) State.loseDirty
  let t := t.each (List.range t.nChans) fun u c => (u.clearQueues c).dramForget c (pasrKeep (u.fld (CHAN_PASR_FRACTION c)))
  t.emptyCache

/-- Step 5: every channel enters self-refresh by command; its layer sets no mark, as it has lost no heartbeat (R73). -/
def State.channelsDown (s : State) : State :=
  s.each (List.range s.nChans) fun t c => if t.on (CHAN_STATUS_FENCED c) then t else (t.setChn c { t.chn c with openRows := [] }).set (CHAN_STATUS_STATE c) 4

/-- Step 6: a link goes to L2 for S2, or down. -/
def State.linkSleep (s : State) (target p m : Nat) : State :=
  if target = 2 ∧ inService (s.lst p m) ∧ !s.pairClosed (p / 2) then
    let t := s.sendMarkers p m 6 2
    ((t.each (t.linkLanes p m) fun t l => t.laneOff l).set (PORT_LINK_STATUS_STATE p m) 6).strand p
  else if s.lst p m = 0 ∨ (target = 2 ∧ s.lst p m = 6) then s
  else s.linkDown p m 7

/-- Steps 3 to 7 of R82. -/
def State.fallAsleep (s : State) (e : SleepEntry) : State :=
  let t := s.abandonTests
  let t := if e.target = 3 then t.emptyMarl.flushSett else t
  let t := ({ t.channelsDown with pwr := { t.pwr with entry := none } }).set GLB_PWR_STATUS_STATE e.target
  let t := t.each ((List.range 16).filter t.mustClose) State.closePair
  let t := t.each (List.range t.nPorts) fun u p => u.each (List.range (u.nLinks p)) (State.linkSleep · e.target p)
  -- in S3 the fast RC is off (R50)
  let t := if e.target = 3 then ({ t with clk := { t.clk with frcRunning := false } }).set CLK_SRC_STATUS_FRC_OK 0 else t
  t.set GLB_PWR_STATUS_TARGET 0

/-- SLEEP_ENTRY_DONE (R82): the requests are complete, the asker has its answer, and the fabric has drained. -/
def execSleepEntryDone (s : State) : Out :=
  let s := s.settle
  match s.pwr.entry with
  | none => .next s
  | some e =>
    let stuck := e.target == 3 && s.marl.lines.any fun x => x.2.st == .dirty && s.lineStuck x.1
    if !e.answered || s.outsLeft || !((s.ring 0).cpls.isEmpty || (s.ring 0).cplKept) || !s.sw.ingress.isEmpty || !s.sw.egress.isEmpty || stuck || s.dead then .next s
    else
      let t := s.fallAsleep e
      .next (match e.wakeHeld with
        | some c => t.wake c
        | none => t)

/-- WAKE_TIMER_EXPIRY (R81). -/
def execWakeTimerExpiry (s : State) : Out := if 2 ≤ s.sleep ∧ s.pwr.wakeTimer ≠ 0 ∧ !s.dead then .next (s.wake 3) else .next s

/-- WAKE_SIGNAL (R80): only an open pair wakes the stack. -/
def execWakeSignal (port : BitVec 5) (s : State) : Out :=
  if 2 ≤ s.sleep ∧ port.toNat < s.nPorts ∧ !s.pairClosed (port.toNat / 2) ∧ !s.dead then .next (s.wake 1) else .next s

/-- S3_WAKE (R85): the clocks have requalified, the ports start blind, and every column is due its recalibration; a channel leaves
self-refresh when its column's is done. -/
def execS3Wake (s : State) : Out :=
  if !s.pwr.waking || decide (s.clk.p2Step < 7) || s.dead then .next s
  else
    let t := ({ s with clk := { s.clk with wakeWait := false } }).awoken
    let t := t.each (List.range t.nPorts) State.checkPort
    let t := t.each (List.range t.nChans) State.recalDue
    let t := t.emptyCache
    let t := t.each (List.range t.nEngines) fun u e => if (u.eng e).st == .off || (u.eng e).st == .disabled then u else u.reloadEng e true
    .next t.loseMaps.settle

/-- A write of GLB_PWR_CTL (Table 4.14): WAKE, IDLE_US, and a request for a state; `none`: the answer is owed (R82). IDLE_US is stored
also where the same write's REQ_STATE is refused (DESIGN CHOICE, log entry 51). -/
def State.pwrCtlWrite (s : State) (via : Path) (v : Nat) : Option (BitVec 8) × State :=
  let s1 := if bitAt v 8 && !s.dead then (s.set GLB_PWR_CTL_WAKE 1).wake 2 else s
  let s2 := if s1.locked then s1 else s1.set GLB_PWR_CTL_IDLE_US (bitsOf v 31 16)
  let q := bitsOf v 1 0
  let no := (some stSTATE, s2.viol GLB_PWR_CTL.off .state)
  if q = 0 then (some stOK, s2)
  else if s2.locked || !s2.ready || s2.dead || s2.pwr.entry.isSome || decide (2 ≤ s2.sleep) || s2.sleepRefused then no
  else if q = 1 then (some stOK, s2.askS1)
  else (none, s2.startSleep q (.reg via) 0)

/-- MARL_HB_LOSS (R73): layer 1 freezes and sets FROZEN. -/
def execMarlHbLoss (s : State) : Out := .next s.freezeMarl

/-! ## Block resets (R78, R79) -/

/-- Is an index beyond the variant? -/
def State.unitOff (s : State) (kind ix : Nat) : Bool :=
  if kind = 1 then decide (s.nPorts ≤ ix) else if kind = 2 then decide (s.nChans ≤ ix) else decide (s.nEngines ≤ ix)

/-- The clear of a Fox engine: work ends as a trap, and the engine waits for its reload. -/
def State.clearEngine (s : State) (e : Nat) : State :=
  let g := s.eng e
  if g.run.isSome then s.trapEng e 3 else if g.st == .off then s else s.putEng e { g with st := .reload, den := [] }

/-- A block reset starts. -/
def State.startReset (s : State) (kind ix : Nat) (asker : Asker) : State :=
  let u : UnitReset := { kind := kind, index := ix, asker := asker }
  let t := ({ s with unitResets := s.unitResets ++ [u] }).setReg RST_UNIT_STATUS.off (2 ^ 31 + kind * 2 ^ 20 + ix * 2 ^ 8)
  if kind = 1 then t.portClear ix else if kind = 2 then t.set (CHAN_STATUS_STATE ix) 6 else t.clearEngine ix

/-- A command for a block reset: its RESULT, and the state in which it runs or is refused. -/
def State.resetCmd (s : State) (kind ix : Nat) (asker : Asker) (locked : Bool) : BitVec 8 × State :=
  let note := fun (t : State) (r : BitVec 8) => t.sets [(RST_UNIT_STATUS_KIND, kind), (RST_UNIT_STATUS_INDEX, ix), (RST_UNIT_STATUS_RESULT, r.toNat)]
  if locked then (stSTATE, note (s.viol RST_UNIT_CMD.off .state) stSTATE)
  else if s.unitOff kind ix then (stRANGE, note s stRANGE)
  else if s.inReset kind ix || (kind == 2 && s.on (CHAN_STATUS_FENCED ix)) then (stSTATE, note (s.viol RST_UNIT_CMD.off .state) stSTATE)
  else (stOK, s.startReset kind ix asker)

/-- A write of RST_UNIT_CMD: the outcome shows in RST_UNIT_STATUS; after GLB_LOCK the write itself is answered STATE. -/
def State.rstWrite (s : State) (via : Path) (v : Nat) : BitVec 8 × State :=
  let (_, t) := s.resetCmd (bitsOf v 31 28) (bitsOf v 4 0) (.reg via) s.locked
  (if s.locked then stSTATE else stOK, t)

/-- UNIT_RESET (0x45). -/
def execUnitReset (s : State) : Out :=
  .next (s.startMgmt 0x45 fun t m =>
    let w := leAt m.payload 0 4
    let kind := bitsOf w 31 28
    if m.payload.length < 8 ∨ kind < 1 ∨ 3 < kind ∨ bitsOf w 27 5 ≠ 0 ∨ leAt m.payload 4 4 ≠ 0 then t.mgmtRefuse m.job stMALFORMED 0
    else match t.resetCmd kind (bitsOf w 4 0) .ring0 false with
      | (r, u) => if r = stOK then u else u.mgmtDone m.job r []).settle

/-- Has a block reset done its work: queued requests of a channel complete, an engine without outstanding requests? -/
def State.resetReady (s : State) (u : UnitReset) : Bool :=
  if u.kind = 2 then s.chanIdle u.index && !((s.linesOf u.index).any fun e => e.2.st == .dirty && s.lineStuck e.1)
  else if u.kind = 3 then (s.eng u.index).trapping.isNone
  else true

/-- The end of a block reset (Table 4.8). -/
def State.endUnitReset (s : State) (u : UnitReset) : State :=
  let i := u.index
  if u.kind = 1 then (s.unitResetEnd 1 i stOK).checkPort i
  else if u.kind = 2 then
    let t := s.each ((s.linesOf i).map (·.1)) fun t l => t.writeBackNow l false
    -- the heartbeat stops and starts again, and EXIT_SR ends the self-refresh that its layer went into (R257 to R259, log entry 81)
    let t := ((t.channelSr i).clearQueues i).incSat (VCP_LAYER_STATUS_HB_LOSS_COUNT (i / 2))
    let k := t.chn i
    let t := ((t.setChn i { k with offsets := [0, 0, 0, 0, 0], window := [], heartbeat := true, srHeld := false, seq := 0 }).clearHbLost (layerOf i)).sets [(CHAN_TRAIN_RD_MARGIN i, Config.freeNat t.free), (CHAN_TRAIN_WR_MARGIN i, Config.freeNat (t.free + 1)), (CHAN_TRAIN_CA_MARGIN i, Config.freeNat (t.free + 2)), (CHAN_STATUS_STATE i, 2)]
    ({ t with free := t.free + 3 }).unitResetEnd 2 i stOK
  else
    let t := s.unitResetEnd 3 i stOK
    if (t.eng i).st == .off then t else t.reloadEng i true

/-- BLOCK_RESET_DONE (R78): the first block reset that has done its work. -/
def execBlockResetDone (s : State) : Out :=
  if s.dead then .next s
  else match s.unitResets.find? s.resetReady with
    | none => .next s
    | some u => .next (s.endUnitReset u).serve.settle

end Sys2Proof.Machine
end

