-- ==== Sys2Proof/Machine/RegWrite.lean ====
section
/-! DEFINITION. Register writes (22_register_index.md): the order of checks of R487 (reserved bits and values, access, state),
which blocks are writable when (R66), what GLB_LOCK leaves (R8, R465, Table 22.3), fused-off units (R463), and the function
each register's chapter gives a write. -/

namespace Sys2Proof.Machine

set_option Elab.async false

/-! ## The shape of a register -/

/-- Bits of a register that belong to a field; the others are reserved (R9). -/
def fieldMask (d : RegDesc) : Nat := d.flds.foldl (fun a f => putBits a f.1 f.2.1 (2 ^ (f.1 + 1 - f.2.1) - 1)) 0

def roField (f : Nat × Nat × AccT) : Bool := f.2.2 == .ro || f.2.2 == .ros

/-- Every non-reserved field is RO or ROS (R8). -/
def allRo (d : RegDesc) : Bool := d.flds.all roField

/-- Every writable field is RWL (R8). -/
def allRwl (d : RegDesc) : Bool := !allRo d && d.flds.all fun f => roField f || f.2.2 == .rwl

/-- What a plain register holds after a write (R6): RW and RWL fields take the value, W1S sets, W1C clears; after GLB_LOCK the
RWL fields stay (R8). -/
def mergeWrite (d : RegDesc) (locked : Bool) (old v : Nat) : Nat :=
  d.flds.foldl (fun a f =>
    let x := bitsOf v f.1 f.2.1
    let y := bitsOf old f.1 f.2.1
    match f.2.2 with
    | .rw => putBits a f.1 f.2.1 x
    | .rwl => if locked then a else putBits a f.1 f.2.1 x
    | .w1s => putBits a f.1 f.2.1 (y ||| x)
    | .w1c => putBits a f.1 f.2.1 (y &&& (2 ^ 32 - 1 - x))
    | _ => a) old

/-- FOX_RING_MAP[0] is read-only (Table 15.14). -/
def writesNothing (off : Nat) (d : RegDesc) : Bool := allRo d || off == (FOX_RING_MAP_EARTHS 0).off

/-! ## Reserved values (R9) -/

def within (lo hi v : Nat) : Bool := decide (lo ≤ v) && decide (v ≤ hi)

/-- Does a write hold a value or a combination that its field map reserves? `o` is the offset in the block, or in the
instance. -/
def State.rsvdValue (s : State) (b : Blk) (off o v : Nat) : Bool :=
  match b with
  | .glb => o == 0x040 && decide (5 ≤ bitsOf v 2 0)
  | .clk => o == 0x008 && bitsOf v 1 0 == 3
  | .rst => o == 0x010 && !within 1 3 (bitsOf v 31 28)
  | .otp => o == 0x000 && !within 1 8 (bitsOf v 31 28)
  | .thm =>
    let lim := if o = 0x000 then v else s.reg THM_LIMITS.off
    let low := if o = 0x004 then v else s.reg THM_LOW.off
    let thr := if o = 0x008 then v else s.reg THM_THROTTLE_CFG.off
    decide (o ≤ 0x008) && !limitsOk lim low thr
  | .flt =>
    if o = 0x000 then bitsOf v 23 16 == 0 || bitsOf v 15 8 == 0
    else if o = 0x008 then !ackOk (bitsOf v 7 0) (bitsOf v 17 16)
    else o == 0x040 && !injOk (bitsOf v 31 28) (bitsOf v 5 0) (bitAt v 27)
  | .recorder => o == 0x000 && v % 4 == 3
  | .qos => o == 0x010 && !qosCfgOk v
  | .ring =>
    if o < 0x1000 then false
    else if o % 0x40 = 0x20 then !setupOk 0 0 0 0 0 v
    else o % 0x40 == 0x24 && decide (1 < popN 3 v)
  | .rt =>
    if o = 0x000 then bitsOf v 5 0 == 0
    else if 0x100 ≤ o ∧ o < 0x1C0 then bitAt v 31 && bitsOf v 15 0 == 0
    else if 0x400 ≤ o ∧ o < 0x500 then
      let n := (o - 0x400) / 0x10
      (o % 0x10 == 0 && bitAt v 31 && decide (s.fld (RT_ACW_LIMIT_LIMIT n) < bitsOf v 23 0))
        || (o % 0x10 == 4 && s.on (RT_ACW_BASE_VALID n) && decide (bitsOf v 23 0 < s.fld (RT_ACW_BASE_BASE n)))
    else false
  | .port =>
    match o % 0x800 with
    | 0x000 => decide (5 ≤ bitsOf v 2 0)
    | 0x004 => bitsOf v 3 2 == 3
    | 0x100 => bitsOf v 1 0 == 3 || decide (3 < bitsOf v 5 4 + bitsOf v 3 2)
    | 0x200 => bitsOf v 27 24 == 0 || bitsOf v 23 16 == 0 || bitsOf v 15 8 == 0 || bitsOf v 7 0 == 0
    | x => decide (0x210 ≤ x) && decide (x ≤ 0x220) && !within 128 8192 (bitsOf v 15 0)
  | .lane => o % 0x400 == 0 && decide (32 < bitsOf v 12 8 + bitsOf v 3 0)
  | .chan =>
    match o % 0x1000 with
    | 0x010 => decide (4 < bitsOf v 2 0)
    | 0x020 => bitsOf v 31 24 == 0 || bitsOf v 13 8 == 0 || decide (bitsOf v 13 8 ≤ bitsOf v 5 0)
    | 0x024 => !within 6 14 (bitsOf v 3 0)
    | _ => false
  | .marl =>
    match o with
    | 0x000 => !within 2 8 (bitsOf v 3 0) || !within 1 4 (bitsOf v 10 8) || decide (12 < bitsOf v 3 0 + bitsOf v 10 8)
    | 0x010 => bitsOf v 27 16 == 0 || bitsOf v 15 12 == 0 || bitsOf v 7 0 == 0
    | 0x014 => !within 1 100 (bitsOf v 15 8) || decide (bitsOf v 15 8 ≤ bitsOf v 7 0)
    | _ => false
  | .fox =>
    if o = 0x8000 then !within 1 4 (bitsOf v 2 0)
    else decide (0x8100 ≤ o) && decide (off ≠ (FOX_RING_MAP_EARTHS 0).off) && !within 1 32 (bitsOf v 13 8)
  | .vcp =>
    if o = 0x004 then decide (bitsOf v 23 16 ≤ bitsOf v 15 8) || bitsOf v 7 0 == 0
    else o == 0x008 && (!within 1 (layerOf (bitsOf v 28 24)) (bitsOf v 20 16) || decide (303 < bitsOf v 8 0))
  | .bst =>
    if o = 0x000 then !within 1 100 (bitsOf v 23 16) || !within 1 8 (bitsOf v 11 8)
    else o == 0x400 && !badgerCfgOk v
  | .cvu => o == 0x210 && (v % 4 == 3 || (bitAt v 0 && !ctxOk s.testCtx false))
  | .tel => if o = 0x000 then decide (1000 < bitsOf v 15 0) else decide (31 < bitsOf v 5 0)

/-! ## State conditions -/

/-- Has a block become writable (R66, R67)? -/
def State.blockOpen (s : State) (b : Blk) : Bool :=
  if s.phase = 0xB then b == .glb || b == .clk || b == .otp || b == .thm
  else match b with
    | .vcp => decide (3 ≤ s.start.prog) && s.phase != 4
    | .chan => decide (7 ≤ s.start.prog)
    | .marl => decide (7 ≤ s.start.prog)
    | .fox => decide (8 ≤ s.start.prog)
    | .ring => decide (8 ≤ s.start.prog)
    | .cvu => decide (8 ≤ s.start.prog)
    | .bst => decide (8 ≤ s.start.prog)
    | .rst => decide (8 ≤ s.start.prog)
    | _ => decide (3 ≤ s.start.prog)

/-- Registers whose writes have a rule of their own for when they are taken: the window of the Sett (R430), REC_CTL over the
sideband and JTAG (R427), and the image load (R321). -/
def ownTime (off : Nat) (via : Path) : Bool :=
  off == REC_SETT_ADDR.off || (off == REC_CTL.off && via != .mreg) || off == FOX_SB_ADDR.off || off == FOX_SB_DATA.off || off == FOX_SB_CTL.off

/-- Commands that GLB_LOCK ends whatever value is written (Table 22.3). -/
def lockedOut (off : Nat) : Bool :=
  [GLB_START_CTL.off, FOX_SB_ADDR.off, FOX_SB_DATA.off, FOX_SB_CTL.off, QOS_COMMIT.off, MARL_FLUSH.off, CVU_TEST_CTL.off, CVU_TEST_DATA.off, CVU_TEST_DATA1.off].contains off

/-- A register of a unit that the variant lacks, which no functional chapter governs (R463). -/
def State.unitGone (s : State) (b : Blk) (o : Nat) : Bool :=
  match b with
  | .port => decide (s.nPorts ≤ o / 0x800)
  | .lane => decide (s.nPorts ≤ o / 0x2000)
  | .chan => decide (s.nChans ≤ o / 0x1000) && o % 0x1000 != 0x010
  | _ => false

/-! ## Writes with rules of their own -/

/-- GLB_LOCK (R464). -/
def State.lockWrite (s : State) (v : Nat) : BitVec 8 × State :=
  if !bitAt v 0 || s.locked then (stOK, s)
  else if !s.ready then (stSTATE, s.viol GLB_LOCK.off .state)
  else
    let t := (s.closeWindow false).set GLB_LOCK_LOCK 1
    (stOK, { t with recd := { t.recd with snapBusy := some t.takeSnapshot } })

/-- LANE_PRBS_CTL after GLB_LOCK: only INJECT acts (Table 22.3, R131). -/
def State.injectWrite (s : State) (l v : Nat) : BitVec 8 × State :=
  if bitAt v 9 && !s.on (LANE_PRBS_CTL_GEN_EN l) then (stSTATE, s.viol (LANE_PRBS_CTL l).off .state)
  else (stOK, s.when (bitAt v 9) fun t => t.set (LANE_PRBS_CTL_INJECT l) 1)

/-- VCP_MECH.PROFILE (R266). -/
def State.mechWrite (s : State) (v : Nat) : BitVec 8 × State :=
  if s.phase = 3 ∨ s.phase = 0xA then (stOK, s.set VCP_MECH_PROFILE (bitsOf v 1 0)) else (stSTATE, s.viol VCP_MECH.off .state)

/-- GLB_PWR_CFG (Table 4.13): on a K48 the bits of BP8 to BP15 read 1. -/
def State.pwrCfgWrite (s : State) (v : Nat) : BitVec 8 × State := (stOK, s.setReg GLB_PWR_CFG.off (if s.k48 then v ||| 0xFF00FF00 else v))

/-- A THM limit register (R445). -/
def State.thmWrite (s : State) (o v : Nat) : BitVec 8 × State :=
  (stOK, s.setLimits (if o = 0x000 then v else s.fld THM_LIMITS) (if o = 0x004 then v else s.fld THM_LOW) (if o = 0x008 then v else s.fld THM_THROTTLE_CFG))

/-- BADGER_CFG or BADGER_CHAN_EN (R391). -/
def State.badgerWrite (s : State) (o v : Nat) : BitVec 8 × State :=
  if o = 0x400 then (if s.patrolOk (s.fld BST_BADGER_CHAN_EN) then (stOK, s.setReg BST_BADGER_CFG.off v) else (stSTATE, s.viol BST_BADGER_CFG.off .state))
  else s.patrolWrite v

/-- A set-up register of a ring (Table 14.7): the ring must be OFF. -/
def State.ringSetWrite (s : State) (off v : Nat) : BitVec 8 × State :=
  if s.ringSt ((off - 0x9000) / 0x40) ≠ 0 then (stSTATE, s.viol off .state) else (stOK, s.setReg off v)

/-- Plain registers: the write is merged by access type (R6). -/
def State.plainWrite (s : State) (off v : Nat) (d : RegDesc) : BitVec 8 × State :=
  (stOK, s.setReg off (mergeWrite d s.locked (s.reg off) v))

/-- An answer at once. -/
def atOnce (r : BitVec 8 × State) : Option (BitVec 8) × State := (some r.1, r.2)

/-- What a write that R487 lets through does, by block; `none`: its answer is owed. -/
def State.applyWrite (s : State) (via : Path) (b : Blk) (off o v : Nat) (d : RegDesc) : Option (BitVec 8) × State :=
  match b with
  | .glb =>
    if o = 0x010 then atOnce (s.didWrite (bitsOf v 11 0))
    else if o = 0x014 then atOnce (s.lockWrite v)
    else if o = 0x024 then atOnce (s.goWrite v)
    else if o = 0x030 then atOnce (s.pwrCfgWrite v)
    else if o = 0x034 then s.pwrCtlWrite via v
    else if o = 0x040 then atOnce (s.memCfgWrite v)
    else atOnce (s.plainWrite off v d)
  | .clk => if o = 0x008 then atOnce (s.refCfgWrite v) else atOnce (s.gateWrite ((o - 0x40) / 0x10) (o % 0x10 / 4) v)
  | .rst => atOnce (s.rstWrite via v)
  | .otp => if o = 0x000 then atOnce (s.otpWrite v) else atOnce (s.plainWrite off v d)
  | .thm => atOnce (s.thmWrite o v)
  | .flt =>
    if o = 0x008 then atOnce (s.fltAckWrite via v)
    else if o = 0x040 then atOnce (s.fltInjDo v)
    else atOnce (s.plainWrite off v d)
  | .recorder => if o = 0x000 then atOnce (s.recCtlWrite via v) else atOnce (s.plainWrite off v d)
  | .qos => if o = 0x000 then atOnce (s.commitWrite v) else atOnce (s.plainWrite off v d)
  | .ring => if o % 0x40 = 0x24 then atOnce (s.ringCtlWrite via ((o - 0x1000) / 0x40) v) else atOnce (s.ringSetWrite off v)
  | .rt =>
    if o = 0x040 then atOnce (s.bypCfgWrite v)
    else if o = 0x044 then atOnce (s.bypOpenWrite v)
    else if 0x010 ≤ o ∧ o < 0x020 then atOnce (s.membersWrite ((o - 0x010) / 4) v)
    else if 0x100 ≤ o ∧ o < 0x1C0 then atOnce (s.routeWrite ((o - 0x100) / 0x40) (o % 0x40 / 4) v)
    else atOnce (s.plainWrite off v d)
  | .port =>
    match o % 0x800 with
    | 0x000 => atOnce (s.roleWrite (o / 0x800) v)
    | 0x004 => atOnce (s.portCfgWrite (o / 0x800) v)
    | 0x100 => atOnce (s.linkCfgWrite (o / 0x800) v)
    | 0x200 => atOnce (s.plainWrite off v d)
    | x => atOnce (s.credWrite (o / 0x800) ((x - 0x210) / 4) v)
  | .lane =>
    if o % 0x400 = 0x020 then atOnce (if s.locked then s.injectWrite (o / 0x400) v else s.prbsWrite (o / 0x400) v)
    else atOnce (s.plainWrite off v d)
  | .chan =>
    match o % 0x1000 with
    | 0x010 => s.pasrWrite via (o / 0x1000) v
    | x => if 0x200 ≤ x then atOnce (s.ceLogWrite off v) else atOnce (s.plainWrite off v d)
  | .marl =>
    match o with
    | 0x000 => atOnce (s.partWrite v)
    | 0x004 => atOnce (s.quiesceWrite v)
    | 0x010 => atOnce (s.bufCfgWrite v)
    | 0x018 => atOnce (s.flushWrite v)
    | x => if 0x200 ≤ x then atOnce (s.ceLogWrite off v) else atOnce (s.plainWrite off v d)
  | .fox =>
    if o < 0x8000 then atOnce (s.foxCtlWrite (o / 0x400) v)
    else if o = 0x8010 then atOnce (s.sbAddrWrite v)
    else if o = 0x8014 then atOnce (s.sbDataWrite v)
    else if o = 0x8018 then atOnce (s.sbGoWrite v)
    else atOnce (s.plainWrite off v d)
  | .vcp => if o = 0x000 then atOnce (s.mechWrite v) else atOnce (s.plainWrite off v d)
  | .bst => if o = 0x400 ∨ o = 0x404 then atOnce (s.badgerWrite o v) else atOnce (s.plainWrite off v d)
  | .cvu =>
    match o with
    | 0x210 => atOnce (s.cvuCtlWrite v)
    | 0x214 => atOnce (s.cvuDataWrite off 4 v)
    | 0x218 => atOnce (s.cvuDataWrite off 1 v)
    | 0x800 => atOnce (s.trackWrite v)
    | _ => atOnce (s.plainWrite off v d)
  | .tel => atOnce (s.plainWrite off v d)

/-! ## The order of R487 -/

/-- FLT_ACK_STATUS and FLT_INJ_STATUS show the result that a write of their command got (R408, R417). -/
def State.noteResult (s : State) (off : Nat) (st : BitVec 8) : State :=
  if off = FLT_ACK.off then s.noteAck st else if off = FLT_INJ.off then s.noteInj st else s

/-- May an MREG_WR with this header write registers (R202)? -/
def State.regWindow (s : State) (hdr : Option Hdr) : Bool :=
  match hdr with
  | none => true
  | some h => !s.on RT_ACW_CTL_ENFORCE || (List.range 16).any fun w => s.windowFor w h.src permREG

/-- A register write on a path, judged once (R487): its status, or `none` where the answer is owed. -/
def State.regWrite (s : State) (via : Path) (hdr : Option Hdr) (off v : Nat) : Option (BitVec 8) × State :=
  match blkOf off, descOf off with
  | some (b, o), some d =>
    if v &&& fieldMask d != v || s.rsvdValue b off o v then (some stMALFORMED, (s.viol off .rsvd).noteResult off stMALFORMED)
    else if !s.regWindow hdr then (some stACCESS, s.inc RT_CNT_VIOL_WINDOW)
    else if writesNothing off d then (some stACCESS, s.viol off .access)
    else if (!ownTime off via && !s.blockOpen b) || (s.locked && (allRwl d || lockedOut off)) || s.unitGone b o then (some stSTATE, s.viol off .state)
    else match s.applyWrite via b off o v d with
      | (some st, t) => (some st, t.noteResult off st)
      | (none, t) => (none, t)
  | _, _ => if !s.regWindow hdr then (some stACCESS, s.inc RT_CNT_VIOL_WINDOW) else (some stACCESS, s.viol off .access)

/-! ## Paths -/

/-- The sideband and JTAG while PERST_N is low or PHASE is P0, or while the base die has no power (R479, R455). -/
def State.pathLimited (s : State) : Bool := !s.pins.perstN || s.phase == 0 || !s.rails.vcore

/-- Can an access be performed on a path? The sideband and JTAG run on VAON; a packet needs the base die in service. The target
performs one access at a time: while the answer of one is owed, the next waits (R206, log entry 64). -/
def State.pathUp (s : State) (via : Path) : Bool := s.acc.owed.isEmpty && (if via = .mreg then s.awake else s.rails.vaon)

/-- Does a write of GLB_MEM_CFG wait, as a column holds the writes that must go back under the old map (R237, R270; log entry 64)? -/
def State.mapHeld (s : State) (off : Nat) : Bool :=
  off == GLB_MEM_CFG.off && !s.locked && s.on MARL_STATUS_QUIESCED && s.marl.lines.any fun e => e.2.st == .dirty && s.lineStuck e.1

/-- A write by a path that carries no packet: its status is kept for the path, or owed. -/
def State.pathWrite (s : State) (via : Path) (off v : Nat) : State :=
  if !s.pathUp via || s.mapHeld off then s
  else if via != .mreg && s.pathLimited && off != REC_SETT_ADDR.off then s.pathStatus via stSTATE
  else match s.regWrite via none off v with
    | (some st, t) => (t.pathStatus via st).settle
    | (none, t) => ({ t with acc := { t.acc with owed := t.acc.owed ++ [({ off := off, via := via, hdr := none } : OwedAns)] } } : State).settle

end Sys2Proof.Machine
end

