-- ==== Sys2Proof/Machine/RegRead.lean ====
section
/-! DEFINITION. Register reads: the registers that show a computed view, the high-half snapshots of 64-bit pairs (R466), the MREG
target (R167, R204 to R206), the I3C sideband (R479), and the plain register write row (R487). -/

namespace Sys2Proof.Machine

set_option Elab.async false

/-! ## Views -/

/-- Views of the FLT block (R403, R409, R418). -/
def State.fltView (s : State) (o : Nat) : Option Nat :=
  if o = 0x004 then some s.fltSummary
  else if 0x010 ≤ o ∧ o < 0x024 then some (maskOf ((s.openDoms.filter fun d => d / 32 == (o - 0x010) / 4).map (· % 32)))
  else if 0x400 ≤ o ∧ o < 0xD00 then some (s.fltWord ((o - 0x400) / 0x10) (o % 0x10 / 4))
  else none

/-- Views of the REC block (R423, R427, R430, R435). -/
def State.recView (s : State) (o : Nat) : Option Nat :=
  match o with
  | 0x004 => some (b2n s.isFrozen * 2 ^ 31 + queueBytes s.recd.holding * 2 ^ 16 + queueBytes s.recd.staging)
  | 0x008 => some s.recNewest
  | 0x00C => some s.recOldest
  | 0x010 => some (s.recd.opSec % 2 ^ 32)
  | 0x014 => some (s.recd.opSec / 2 ^ 32)
  | 0x018 => some s.recd.pwr
  | _ => if 0x100 ≤ o ∧ o < 0x140 then some (s.settWord ((o - 0x100) / 4)) else none

/-- Views of the RT block (R157, R162, R163, Table 8.12): pair k is ports 2k and 2k + 1. -/
def State.rtView (s : State) (o : Nat) : Option Nat :=
  let k := o % 0x40 / 4
  let up := if s.fld (PORT_CFG_DIR (2 * k)) = 0 then 2 * k else 2 * k + 1
  let dn := if s.fld (PORT_CFG_DIR (2 * k)) = 0 then 2 * k + 1 else 2 * k
  if o = 0x080 then some s.admitMask
  else if 0x010 ≤ o ∧ o < 0x01C then some (s.members ((o - 0x010) / 4))
  else if 0x200 ≤ o ∧ o < 0x240 then some (if k < s.nPorts / 2 then s.skipMask dn * 2 ^ 16 + s.skipMask up else 0)
  else if 0x240 ≤ o ∧ o < 0x280 then
    some (if k < s.nPorts / 2 then b2n (s.dateline up) * 4 + b2n (s.dateline dn) * 2 + b2n (s.consistent up) else 0)
  else none

/-- Views of a PORT instance (R151, Table 7.8), and entries of PORT_LINK_STATUS beyond the link count (Table 6.7). -/
def State.portView (s : State) (p o : Nat) : Option Nat :=
  if 0x120 ≤ o ∧ o < 0x140 then (if (o - 0x120) / 4 < s.nLinks p then none else some 0)
  else if 0x280 ≤ o ∧ o < 0x294 then some (((List.range (s.nLinks p)).map fun m => (s.link p m).avail ((o - 0x280) / 4)).sum)
  else if 0x2A0 ≤ o ∧ o < 0x2C0 then
    let m := (o - 0x2A0) / 4
    let l := s.link p m
    some (if m < s.nLinks p then b2n l.retryWait * 2 ^ 31 + b2n l.partnerLcf * 2 ^ 30 + l.rxExp.toNat * 2 ^ 16 + l.txNext.toNat else 0)
  else none

/-- VCP_COIL_DATA: the receiver that VCP_COIL_SEL names (Table 12.8). -/
def State.coilData (s : State) : Nat :=
  let c := s.fld VCP_COIL_SEL_COLUMN
  let hop := s.fld VCP_COIL_SEL_HOP
  let up := s.on VCP_COIL_SEL_DIR
  let key := coilKey up hop (s.fld VCP_COIL_SEL_COIL)
  let k := (s.col c).code c key
  if !coilCarries up (s.fld VCP_COIL_SEL_COIL) then 0
  else k.resid.toNat * 2 ^ 24 + (if finalHop (layerOf c) key then k.delay.toNat * 2 ^ 16 else 0) + k.thresh.toNat * 2 ^ 8 + k.gain.toNat

/-- Views of the VCP block (R73, R256). -/
def State.vcpView (s : State) (off o : Nat) : Option Nat :=
  if o = 0x00C then some s.coilData
  else if 0x040 ≤ o ∧ o < 0x080 then
    let l := (o - 0x040) / 4 + 2
    some (if l ≤ s.topLayer then putBits (s.reg off) 28 28 (b2n (s.start.retained.getLsbD (l - 2))) else 0)
  else none

/-- Views of the FOX block (R323, R326). -/
def State.foxView (s : State) (off o : Nat) : Option Nat :=
  if o = 0x8004 then some s.fwStatus
  else if o < 0x8000 ∧ o % 0x400 = 0x004 then some (putBits (s.reg off) 0 0 (b2n (decide (o / 0x400 < s.nEngines) && s.svcReserved (o / 0x400))))
  else none

/-- Views of the CVU block (R356, R360, R362 to R364). -/
def State.cvuView (s : State) (off o : Nat) : Option Nat :=
  if o < 0x040 then some (s.cvuStatus (o / 4))
  else if 0x100 ≤ o ∧ o < 0x180 then
    let v := s.cvuVal ((o - 0x100) / 8)
    some (if o % 8 = 0 then v % 2 ^ 32 else v / 2 ^ 32)
  else if o = 0x804 then
    some (b2n (s.fox.jobs.any Job.scanning) * 2 ^ 31 + b2n (s.fox.jobs.any Job.sending) * 2 ^ 30 + bitsOf (s.reg off) 29 0)
  else if o = 0x810 then some (s.granCount s.fox.ckpActive)
  else if o = 0x814 then some (s.granCount s.fox.ckpFrozen)
  else none

/-- CHAN_MAP (Table 11.10). -/
def State.chanMapWord (s : State) (c : Nat) : Nat := b2n (decide (c < s.nChans)) * 2 ^ 31 + c / 8 * 2 ^ 8 + c % 2 * 2 ^ 5 + layerOf c

/-- What a register that is computed, not stored, shows. -/
def State.view (s : State) (b : Blk) (off o : Nat) : Option Nat :=
  match b with
  | .glb => if o = 0 then some s.variant else none
  | .thm =>
    if o = 0x010 then some s.thmStatus
    else if 0x100 ≤ o ∧ o < 0x250 then some (s.thmSensor ((o - 0x100) / 4))
    else if 0x300 ≤ o ∧ o < 0x348 then some (s.thmLayer ((o - 0x300) / 4))
    else none
  | .flt => s.fltView o
  | .recorder => s.recView o
  | .ring => if o < 0x010 then some (s.ringMask (o % 8 / 4) (if o < 8 then 1 else 2)) else none
  | .rt => s.rtView o
  | .port => s.portView (o / 0x800) (o % 0x800)
  | .chan => if o % 0x1000 = 0 then some (s.chanMapWord (o / 0x1000)) else none
  | .marl => if o = 0x030 then some s.sharedFree else if o = 0x038 then some s.dirtyLines else none
  | .fox => s.foxView off o
  | .vcp => s.vcpView off o
  | .bst => if o = 0x408 then some (putBits (s.reg off) 31 16 s.patrolLag) else none
  | .cvu => s.cvuView off o
  | _ => none

/-! ## Reading (R6, R204, R461, R466) -/

/-- Bits of a register that a read shows: its fields, the write-only ones aside. -/
def readMask (d : RegDesc) : Nat := d.flds.foldl (fun a f => if f.2.2 == .wo then a else putBits a f.1 f.2.1 (2 ^ (f.1 + 1 - f.2.1) - 1)) 0

/-- The value a register shows now; an offset that holds no register reads 0. -/
def State.readNow (s : State) (off : Nat) : Nat :=
  match blkOf off, descOf off with
  | some (b, o), some d => ((s.view b off o).getD (s.reg off)) &&& readMask d
  | _, _ => 0

/-- Is this half of a 64-bit pair its high half? The LANE pair starts at an odd word. -/
def pairHigh (b : Blk) (off : Nat) : Bool := (b == .lane) != (off % 8 == 4)

def pathNum : Path → Nat
  | .mreg => 0
  | .i3c => 1
  | .jtag => 2

/-- A read on a path: the value, and the state with the pair's snapshot taken (R466). -/
def State.readReg (s : State) (via : Path) (off : Nat) : Nat × State :=
  match blkOf off, descOf off with
  | some (b, _), some d =>
    if d.pair then
      let key := pathNum via * 2 ^ 24
      if pairHigh b off then (((mget s.acc.snaps (key + off - 4)).getD 0).toNat, s)
      else (s.readNow off, { s with acc := { s.acc with snaps := mput (key + off) (BitVec.ofNat 32 (s.readNow (off + 4))) s.acc.snaps } })
    else (s.readNow off, s)
  | _, _ => (0, s)

/-- Registers at consecutive offsets, in address order. -/
def State.readRegs (s : State) (via : Path) (off n : Nat) : List (BitVec 8) × State :=
  (List.range n).foldl (fun (a : List (BitVec 8) × State) i => ((a.1 ++ leBytes 4 (a.2.readReg via (off + 4 * i)).1), (a.2.readReg via (off + 4 * i)).2)) ([], s)

/-! ## The register target of the fabric -/

/-- MREG_RSPs waiting in the target's 16-entry queue (R167). -/
def State.mregRsps (s : State) : Nat := (s.sw.egress.filter fun o => o.inPort.isNone && o.pkt.hdr.opc == opMREGRSP).length

/-- An MREG request at the target: discarded with the queue full (R167), else performed (R204 to R206). -/
def State.mregTake (s : State) (p : Packet) (f : State → State) : State :=
  if !s.serves p then s
  else
    let (t, k) := s.withLocal p
    let u := (t.takeIn k).activity
    if t.overtakes k (t.inAt k p) || !t.acc.owed.isEmpty || (p.hdr.opc == opMREGWR && t.mapHeld (p.hdr.addr.toNat % 2 ^ 24)) then t
    else if (t.inAt k p).bad then t.dropBad k
    else if 16 ≤ u.mregRsps then u.inc RT_MREG_DROP
    else if !p.okForm then (u.inc GLB_CNT_VIOL_MALFORMED).emitRsp (mkRsp s.eid p.hdr stMALFORMED 0 [])
    else f u

/-- MREG_RD (R204). -/
def execMregRd (p : Packet) (s : State) : Out :=
  .next (s.mregTake p fun t =>
    let (b, u) := t.readRegs .mreg (p.hdr.addr.toNat % 2 ^ 24) (p.hdr.subop.toNat + 1)
    u.emitRsp (mkRsp s.eid p.hdr stOK 0 b))

/-- MREG_WR (R205). -/
def execMregWr (p : Packet) (s : State) : Out :=
  .next (s.mregTake p fun t =>
    let off := p.hdr.addr.toNat % 2 ^ 24
    match t.regWrite .mreg (some p.hdr) off (leAt p.payload 0 4) with
    | (some st, u) => ((u.pathStatus .mreg st).emitRsp (mkRsp s.eid p.hdr st 0 [])).settle
    | (none, u) => ({ u with acc := { u.acc with owed := u.acc.owed ++ [({ off := off, via := .mreg, hdr := some p.hdr } : OwedAns)] } } : State).settle)

/-! ## The sideband (R479) -/

/-- Registers that the sideband and JTAG read while the base die is in reset (R479). -/
def earlyRead (off : Nat) : Bool :=
  [0x000020, 0x002000, 0x00100C, 0x0B0010, 0x006080].contains off || (decide (0x006100 ≤ off) && decide (off < 0x006140))

/-- A read on the sideband or over JTAG: value, status, state. -/
def State.sideRead (s : State) (via : Path) (off : Nat) : Nat × BitVec 8 × State :=
  if s.pathLimited && !earlyRead off then (0, stSTATE, s)
  else
    let st := if via = .i3c then s.acc.i3c.status else stOK
    ((s.readReg via off).1, st, (s.readReg via off).2)

/-- Set the sideband's offset. -/
def State.setI3cOffset (s : State) (off : BitVec 24) : State := { s with acc := { s.acc with i3c := { s.acc.i3c with offset := off } } }

/-- The address the target answers to: the one assigned, or 0x60 + ID_STRAP[3:0], from the balls until P1 has sampled them (R479). -/
def State.i3cAddr (s : State) : BitVec 7 :=
  s.acc.i3c.dynAddr.getD (BitVec.ofNat 7 (0x60 + (if s.phase ≤ 1 then s.pins.idStrap.toNat else s.fld GLB_DID_STRAP_DID) % 16))

/-- The provisional ID that ENTDAA sends: GLB_UID[47:0] (R479). -/
def State.i3cPid (s : State) : BitVec 48 := BitVec.ofNat 48 (s.reg GLB_UID_LO.off + s.reg GLB_UID_HI.off * 2 ^ 32)

/-- COUNTER_LO_READ (R466): a read of a pair's low half takes the path's snapshot. -/
def execCounterLoRead (via : Path) (off : BitVec 24) (s : State) : Out :=
  .next (if !s.pathUp via || (via != .mreg && s.pathLimited) then s else (s.readReg via off.toNat).2)

/-- REGISTER_WRITE (R487). -/
def execRegisterWrite (via : Path) (off : BitVec 24) (v : BitVec 32) (s : State) : Out := .next (s.pathWrite via off.toNat v.toNat)

/-- I3C_SET_OFFSET (R479). -/
def execI3cSetOffset (off : BitVec 24) (s : State) : Out := .next (if s.rails.vaon then s.setI3cOffset off else s)

/-- I3C_REG_WRITE (R479). -/
def execI3cRegWrite (off : BitVec 24) (v : BitVec 32) (s : State) : Out :=
  .next (if s.pathUp .i3c then (s.setI3cOffset off).pathWrite .i3c off.toNat v.toNat else s)

/-- I3C_REG_READ (R479): four bytes of the register at the offset, then the status byte. -/
def execI3cRegRead (s : State) : Out :=
  .next (if s.pathUp .i3c then
    let (v, st, t) := s.sideRead .i3c s.acc.i3c.offset.toNat
    { t with acc := { t.acc with i3c := { t.acc.i3c with last := leBytes 4 v ++ [st] } } }
  else s)

/-- I3C_BAD_LENGTH (R479): discarded and counted. -/
def execI3cBadLength (b : List (BitVec 8)) (s : State) : Out :=
  .next (if !s.rails.vaon || b.length == 3 || b.length == 7 then s else (s.when s.rails.vcore fun t => t.inc GLB_CNT_VIOL_MALFORMED).pathStatus .i3c stMALFORMED)

/-- ENTDAA (R479): the controller assigns the dynamic address; the provisional ID is GLB_UID[47:0]. -/
def execEntdaa (addr : BitVec 7) (s : State) : Out :=
  .next (if s.rails.vaon then { s with acc := { s.acc with i3c := { s.acc.i3c with dynAddr := some addr } } } else s)

end Sys2Proof.Machine
end

