-- ==== Sys2Proof/Machine/RegCmds.lean ====
section
/-! DEFINITION. The rows that are writes of one register on a path (R462): each gives the register's offset and the word written,
and the write takes the one way of R487. -/

namespace Sys2Proof.Machine

set_option Elab.async false

/-- Index of a gate register set (Table 3.10). -/
def gateSetIx : GateSet → Nat
  | .run => 0
  | .sleep => 1
  | .deep => 2

/-- Index of a dimension in RT_MEMBERS (Table 8.12). -/
def dimIx : Dim → Nat
  | .pod => 0
  | .ring => 1
  | .pos => 2

/-- The word of an OTP_CMD (Table 5.6). -/
def otpWord (op region margin bit row : Nat) : Nat := op * 2 ^ 28 + region * 2 ^ 24 + margin * 2 ^ 22 + bit * 2 ^ 15 + row

/-- The correction log entry of a unit. -/
def ceLogReg (log : LogId) (n : Nat) : Fld :=
  match log with
  | .chan c => CHAN_CE_LOG c.toNat n
  | .marl => MARL_CE_LOG n

/-- START_GO (R67). -/
def execStartGo (via : Path) (s : State) : Out := .next (s.pathWrite via GLB_START_CTL.off 1)
/-- CLK_REF_CFG_WRITE (R61). -/
def execClkRefCfgWrite (via : Path) (v : BitVec 32) (s : State) : Out := .next (s.pathWrite via CLK_REF_CFG.off v.toNat)
/-- CLK_GATE_WRITE (R55). -/
def execClkGateWrite (via : Path) (set : GateSet) (g : BitVec 2) (v : BitVec 32) (s : State) : Out := .next (s.pathWrite via (gateOff (gateSetIx set) g.toNat) v.toNat)
/-- PORT_BLOCK_RESET (R78): KIND 1. -/
def execPortBlockReset (via : Path) (ix : BitVec 5) (s : State) : Out := .next (s.pathWrite via RST_UNIT_CMD.off (2 ^ 28 + ix.toNat))
/-- CHAN_BLOCK_RESET (R78): KIND 2. -/
def execChanBlockReset (via : Path) (ix : BitVec 5) (s : State) : Out := .next (s.pathWrite via RST_UNIT_CMD.off (2 * 2 ^ 28 + ix.toNat))
/-- FOX_BLOCK_RESET (R78): KIND 3. -/
def execFoxBlockReset (via : Path) (ix : BitVec 5) (s : State) : Out := .next (s.pathWrite via RST_UNIT_CMD.off (3 * 2 ^ 28 + ix.toNat))
/-- REQ_STATE_S1 (R83): IDLE_US as it stands. -/
def execReqStateS1 (via : Path) (s : State) : Out := .next (s.pathWrite via GLB_PWR_CTL.off (s.fld GLB_PWR_CTL_IDLE_US * 2 ^ 16 + 1))
/-- REQ_STATE_SLEEP (R82): IDLE_US as it stands. -/
def execReqStateSleep (via : Path) (deep : Bool) (s : State) : Out := .next (s.pathWrite via GLB_PWR_CTL.off (s.fld GLB_PWR_CTL_IDLE_US * 2 ^ 16 + 2 + b2n deep))
/-- PWR_WAKE (R80): IDLE_US as it stands. -/
def execPwrWake (via : Path) (s : State) : Out := .next (s.pathWrite via GLB_PWR_CTL.off (s.fld GLB_PWR_CTL_IDLE_US * 2 ^ 16 + 2 ^ 8))
/-- OPEN_WINDOW (R100): OP 1. -/
def execOpenWindow (via : Path) (s : State) : Out := .next (s.pathWrite via OTP_CMD.off (otpWord 1 0 0 0 0))
/-- CLOSE_WINDOW (R100): OP 2. -/
def execCloseWindow (via : Path) (s : State) : Out := .next (s.pathWrite via OTP_CMD.off (otpWord 2 0 0 0 0))
/-- SENSE_ROW (R108): OP 3. -/
def execSenseRow (via : Path) (row : BitVec 9) (margin : BitVec 2) (s : State) : Out := .next (s.pathWrite via OTP_CMD.off (otpWord 3 0 margin.toNat 0 row.toNat))
/-- PROGRAM_ROW (R103): OP 4. -/
def execProgramRow (via : Path) (row : BitVec 9) (s : State) : Out := .next (s.pathWrite via OTP_CMD.off (otpWord 4 0 0 0 row.toNat))
/-- TOPUP_BIT (R104): OP 5. -/
def execTopupBit (via : Path) (row : BitVec 9) (bit : BitVec 7) (s : State) : Out := .next (s.pathWrite via OTP_CMD.off (otpWord 5 0 0 bit.toNat row.toNat))
/-- REDIRECT_ROW (R104): OP 6. -/
def execRedirectRow (via : Path) (row : BitVec 9) (s : State) : Out := .next (s.pathWrite via OTP_CMD.off (otpWord 6 0 0 0 row.toNat))
/-- LOCK_REGION (R105): OP 7. -/
def execLockRegion (via : Path) (region : BitVec 4) (s : State) : Out := .next (s.pathWrite via OTP_CMD.off (otpWord 7 region.toNat 0 0 0))
/-- VERIFY_REGION (R108): OP 8. -/
def execVerifyRegion (via : Path) (region : BitVec 4) (s : State) : Out := .next (s.pathWrite via OTP_CMD.off (otpWord 8 region.toNat 0 0 0))
/-- PRBS_INJECT (R131): the lane's settings as they stand, INJECT 1. -/
def execPrbsInject (via : Path) (lane : BitVec 8) (s : State) : Out := .next (s.pathWrite via (LANE_PRBS_CTL lane.toNat).off (putBits (s.reg (LANE_PRBS_CTL lane.toNat).off) 9 8 2))
/-- LANE_PRBS_CTL_WRITE (R129). -/
def execLanePrbsCtlWrite (via : Path) (lane : BitVec 8) (v : BitVec 32) (s : State) : Out := .next (s.pathWrite via (LANE_PRBS_CTL lane.toNat).off v.toNat)
/-- PORT_LINK_CFG_WRITE (R132). -/
def execPortLinkCfgWrite (via : Path) (port : BitVec 5) (v : BitVec 32) (s : State) : Out := .next (s.pathWrite via (PORT_LINK_CFG port.toNat).off v.toNat)
/-- PORT_CRED_INIT_WRITE (R150). -/
def execPortCredInitWrite (via : Path) (port : BitVec 5) (vc : BitVec 3) (v : BitVec 32) (s : State) : Out := .next (s.pathWrite via (PORT_CRED_INIT port.toNat vc.toNat).off v.toNat)
/-- GLB_DID_WRITE (R152). -/
def execGlbDidWrite (via : Path) (v : BitVec 32) (s : State) : Out := .next (s.pathWrite via GLB_DID.off v.toNat)
/-- PORT_ROLE_WRITE (R160). -/
def execPortRoleWrite (via : Path) (port : BitVec 5) (v : BitVec 32) (s : State) : Out := .next (s.pathWrite via (PORT_ROLE port.toNat).off v.toNat)
/-- PORT_CFG_WRITE (R160). -/
def execPortCfgWrite (via : Path) (port : BitVec 5) (v : BitVec 32) (s : State) : Out := .next (s.pathWrite via (PORT_CFG port.toNat).off v.toNat)
/-- ROUTE_ENTRY_WRITE (R168). -/
def execRouteEntryWrite (via : Path) (dim : Dim) (n : BitVec 4) (v : BitVec 32) (s : State) : Out := .next (s.pathWrite via (RT_POD (16 * dimIx dim + n.toNat)).off v.toNat)
/-- RT_MEMBERS_WRITE (R168). -/
def execRtMembersWrite (via : Path) (dim : Dim) (v : BitVec 32) (s : State) : Out := .next (s.pathWrite via (RT_MEMBERS (dimIx dim)).off v.toNat)
/-- RT_BYP_OPEN_WRITE (R173). -/
def execRtBypOpenWrite (via : Path) (v : BitVec 32) (s : State) : Out := .next (s.pathWrite via RT_BYP_OPEN.off v.toNat)
/-- GLB_LOCK_SET (R464). -/
def execGlbLockSet (via : Path) (s : State) : Out := .next (s.pathWrite via GLB_LOCK.off 1)
/-- MARL_FLUSH_GO (R226). -/
def execMarlFlushGo (via : Path) (inv : Bool) (s : State) : Out := .next (s.pathWrite via MARL_FLUSH.off (b2n inv * 2 + 1))
/-- QUIESCE_SET (R231). -/
def execQuiesceSet (via : Path) (s : State) : Out := .next (s.pathWrite via MARL_CTL.off 1)
/-- MARL_PART_WRITE (R231). -/
def execMarlPartWrite (via : Path) (v : BitVec 32) (s : State) : Out := .next (s.pathWrite via MARL_PART.off v.toNat)
/-- QUIESCE_CLEAR (R231). -/
def execQuiesceClear (via : Path) (s : State) : Out := .next (s.pathWrite via MARL_CTL.off 0)
/-- GLB_MEM_CFG_WRITE (R237). -/
def execGlbMemCfgWrite (via : Path) (v : BitVec 32) (s : State) : Out := .next (s.pathWrite via GLB_MEM_CFG.off v.toNat)
/-- CHAN_PASR_WRITE (R249). -/
def execChanPasrWrite (via : Path) (c : BitVec 5) (v : BitVec 32) (s : State) : Out := .next (s.pathWrite via (CHAN_PASR c.toNat).off v.toNat)
/-- VCP_MECH_WRITE (R266). -/
def execVcpMechWrite (via : Path) (v : BitVec 32) (s : State) : Out := .next (s.pathWrite via VCP_MECH.off v.toNat)
/-- QOS_COMMIT_GO (R288). -/
def execQosCommitGo (via : Path) (s : State) : Out := .next (s.pathWrite via QOS_COMMIT.off 1)
/-- RING_ENABLE (R297). -/
def execRingEnable (via : Path) (n : BitVec 6) (s : State) : Out := .next (s.pathWrite via (RING_CTL n.toNat).off 1)
/-- RING_RESET_CMD (R299). -/
def execRingResetCmd (via : Path) (n : BitVec 6) (s : State) : Out := .next (s.pathWrite via (RING_CTL n.toNat).off 2)
/-- RING_RESUME_CMD (R312). -/
def execRingResumeCmd (via : Path) (n : BitVec 6) (s : State) : Out := .next (s.pathWrite via (RING_CTL n.toNat).off 4)
/-- FOX_SB_DATA_WRITE (R321). -/
def execFoxSbDataWrite (via : Path) (v : BitVec 32) (s : State) : Out := .next (s.pathWrite via FOX_SB_DATA.off v.toNat)
/-- FOX_SB_GO (R321). -/
def execFoxSbGo (via : Path) (s : State) : Out := .next (s.pathWrite via FOX_SB_CTL.off 1)
/-- FOX_CTL_WRITE (R354). -/
def execFoxCtlWrite (via : Path) (e : BitVec 5) (v : BitVec 32) (s : State) : Out := .next (s.pathWrite via (FOX_CTL e.toNat).off v.toNat)
/-- CVU_TEST_START (R361). -/
def execCvuTestStart (via : Path) (s : State) : Out := .next (s.pathWrite via CVU_TEST_CTL.off 1)
/-- CVU_TEST_RELEASE (R361). -/
def execCvuTestRelease (via : Path) (s : State) : Out := .next (s.pathWrite via CVU_TEST_CTL.off 2)
/-- CVU_TEST_DATA_WRITE (R361). -/
def execCvuTestDataWrite (via : Path) (v : BitVec 32) (s : State) : Out := .next (s.pathWrite via CVU_TEST_DATA.off v.toNat)
/-- CVU_TEST_DATA1_WRITE (R361). -/
def execCvuTestData1Write (via : Path) (v : BitVec 32) (s : State) : Out := .next (s.pathWrite via CVU_TEST_DATA1.off v.toNat)
/-- CKP_TRACK_WRITE (R362). -/
def execCkpTrackWrite (via : Path) (v : BitVec 32) (s : State) : Out := .next (s.pathWrite via CVU_CKP_CTL.off v.toNat)
/-- CE_LOG_FREE (R384). -/
def execCeLogFree (via : Path) (log : LogId) (n : BitVec 4) (s : State) : Out := .next (s.pathWrite via (ceLogReg log n.toNat).off (2 ^ 31))
/-- BADGER_REG_WRITE (R391). -/
def execBadgerRegWrite (via : Path) (chanEn : Bool) (v : BitVec 32) (s : State) : Out := .next (s.pathWrite via (if chanEn then BST_BADGER_CHAN_EN.off else BST_BADGER_CFG.off) v.toNat)
/-- FLT_ACK_HOLD (R407): MODE 0. -/
def execFltAckHold (via : Path) (d seq : BitVec 8) (s : State) : Out := .next (s.pathWrite via FLT_ACK.off (seq.toNat * 2 ^ 8 + d.toNat))
/-- FLT_ACK_CLOSE (R407): MODE 1. -/
def execFltAckClose (via : Path) (d seq : BitVec 8) (s : State) : Out := .next (s.pathWrite via FLT_ACK.off (2 ^ 16 + seq.toNat * 2 ^ 8 + d.toNat))
/-- FLT_INJ_WRITE (R417). -/
def execFltInjWrite (via : Path) (v : BitVec 32) (s : State) : Out := .next (s.pathWrite via FLT_INJ.off v.toNat)
/-- REC_SETT_ADDR_WRITE (R430). -/
def execRecSettAddrWrite (via : Path) (v : BitVec 32) (s : State) : Out := .next (s.pathWrite via REC_SETT_ADDR.off v.toNat)
/-- THM_REG_WRITE (R445). -/
def execThmRegWrite (via : Path) (which : BitVec 2) (v : BitVec 32) (s : State) : Out := .next (s.pathWrite via (THM_LIMITS.off + 4 * which.toNat) v.toNat)

/-! ## Freeze and thaw (R427) -/

/-- The ring-0 REC_FREEZE that starts next, if its payload asks for a freeze (`true`) or a thaw. -/
def State.freezeRow (s : State) (on : Bool) : State :=
  match s.nextMgmt with
  | some d => if (byteAt d.payload 0 != 0) == on then s.startMgmt 0x51 fun t m => t.recFreezeOp m else s
  | none => s

/-- REC_FREEZE_ON. -/
def execRecFreezeOn (via : Option Path) (s : State) : Out :=
  match via with
  | some p => .next (s.pathWrite p REC_CTL.off 1)
  | none => .next (s.freezeRow true)

/-- REC_THAW. -/
def execRecThaw (via : Option Path) (s : State) : Out :=
  match via with
  | some p => .next (s.pathWrite p REC_CTL.off 2)
  | none => .next (s.freezeRow false)

end Sys2Proof.Machine
end

