-- ==== Sys2Proof/Machine/DescStart.lean ====
section
/-! DEFINITION. DESC_START (R305, R313): the next descriptor of a ring starts. On ring 0 it is a management operation, on rings 1
to 63 an engine takes it. -/

namespace Sys2Proof.Machine

set_option Elab.async false

/-- FLT_ACK (0x46) on ring 0 (R407). -/
def State.startFltAck (s : State) : State := s.startMgmt 0x46 fun t m => t.fltAckOp m

/-- REC_FREEZE (0x51) on ring 0 (R427). -/
def State.startRecFreeze (s : State) : State := s.startMgmt 0x51 fun t m => t.recFreezeOp m

/-- The ring-0 operation of an opcode (Table 14.10). -/
def State.startOp (s : State) (op : Nat) : Out :=
  match op with
  | 0x40 => execNop s
  | 0x41 => execRingSetup s
  | 0x42 => execRingReset s
  | 0x43 => execRingResume s
  | 0x44 => execSetPstate s
  | 0x45 => execUnitReset s
  | 0x46 => .next s.startFltAck
  | 0x47 => execFltInject s
  | 0x48 => execMarlWb s
  | 0x49 => execSetPasr s
  | 0x4A => execChanRebuild s
  | 0x4B => execQosSet s
  | 0x4C => execThmSet s
  | 0x4D => execBadgerSet s
  | 0x4E => execBstRun s
  | 0x50 => execRecRead s
  | 0x51 => .next s.startRecFreeze
  | 0x52 => execTelSet s
  | 0x54 => execFwSlotWrite s
  | 0x55 => execFwActivate s
  | _ => .next s

/-- DESC_START. -/
def execDescStart (n : BitVec 6) (s : State) : Out :=
  if n = 0 then
    match s.nextMgmt with
    | some d => s.startOp (descOp d.hdr 0)
    | none => .next s
  else .next (s.startNext n.toNat).settle

end Sys2Proof.Machine
end

