-- ==== Sys2Proof/Machine/Jtag.lean ====
section
/-! DEFINITION. The test access port (21_self_test.md): instructions and their protection (R454, R456), REGACC (R455), the debug
authorisation (R457), and the clearing before test access (R458, R459). -/

namespace Sys2Proof.Machine

set_option Elab.async false

/-! ## Instructions -/

/-- Codes of Table 21.4. -/
def irExtest : BitVec 8 := 0x00
def irSample : BitVec 8 := 0x01
def irIdcode : BitVec 8 := 0x02
def irClamp : BitVec 8 := 0x03
def irHighz : BitVec 8 := 0x04
def irPulse : BitVec 8 := 0x08
def irTrain : BitVec 8 := 0x09
def irRegacc : BitVec 8 := 0x10
def irAuthChal : BitVec 8 := 0x11
def irAuthResp : BitVec 8 := 0x12
def irDbgStatus : BitVec 8 := 0x13
def irIjtag : BitVec 8 := 0x20
def irScan : BitVec 8 := 0x30

/-- Bit of SCOPE that covers a protected instruction (R456). -/
def scopeBit (code : BitVec 8) : Option Nat :=
  if code = irExtest ∨ code = irClamp ∨ code = irHighz ∨ code = irPulse ∨ code = irTrain then some 0
  else if code = irIjtag then some 1
  else if code = irScan then some 2
  else none

/-- SCOPE in force: 7 without the debug lock (R456). -/
def State.tapScope (s : State) : BitVec 3 := if s.fuse.debugLock then s.acc.tap.grant else 7

/-- Does a grant cover the instruction? -/
def State.covered (s : State) (code : BitVec 8) : Bool := match scopeBit code with
  | some b => s.tapScope.getLsbD b
  | none => true

/-- Load the instruction register; a protected instruction stops acting. -/
def State.loadIr (s : State) (code : BitVec 8) : State := { s with acc := { s.acc with tap := { s.acc.tap with ir := code, effect := 0xFF } } }

/-- Data captured. -/
def State.capture (s : State) (b : List (BitVec 8)) : State := { s with acc := { s.acc with tap := { s.acc.tap with dr := b } } }

/-- The instruction acts as BYPASS: its one bit captures 0. -/
def State.asBypass (s : State) : State := s.capture [0]

/-- What a test chain captures. -/
def State.chainCapture (s : State) : State := ({ s with free := s.free + 1 } : State).capture (Config.chain s.free)

/-- Is the clearing under way? Then only IDCODE, BYPASS and DBG_STATUS act (R458). -/
def State.clearing (s : State) : Bool := s.on BST_DBG_STATUS_CLEARING

/-- Step 1 of Table 21.5: forcing (R48: the Marl freezes) with the heartbeats running on, no request accepted, the grave safe state with no record of
class G (R459). -/
def State.startClearing (s : State) : State :=
  let t := s.freezeMarl.squelchAll.dropTraffic
  let u := { t with start := { t.start with forcing := true, grave := true, graveDone := true }, pwr := { t.pwr with entry := none, wakeDue := false, waking := false } }
  u.sets [(CLK_MON_STATUS_FORCED_SAFE, 1), (GLB_START_STATUS_PHASE, 0xC), (BST_DBG_STATUS_DEBUG, 1), (BST_DBG_STATUS_CLEARING, 1),
    (BST_DBG_STATUS_SCOPE, s.tapScope.toNat)]

/-- A protected instruction takes effect: CLAMP and HIGHZ select the bypass bit, the others a test chain. -/
def State.takeEffect (s : State) (code : BitVec 8) : State :=
  let t := { s with acc := { s.acc with tap := { s.acc.tap with effect := code } } }
  if code = irClamp ∨ code = irHighz then t.asBypass else t.chainCapture

/-- A protected instruction (R456, R458). -/
def State.protectedIr (s : State) (code : BitVec 8) : State :=
  if !s.rails.vaon then s
  else
    let t := s.loadIr code
    if t.clearing then t.asBypass
    else if !t.covered code then (t.viol BST_CFG.off .access).asBypass
    else if code = irScan ∧ !t.pins.tmode then t.asBypass
    else if t.on BST_DBG_STATUS_CLEARED then t.takeEffect code
    else t.startClearing.asBypass

/-- An instruction that no protection holds back, but that the clearing does. -/
def State.openIr (s : State) (code : BitVec 8) (f : State → State) : State :=
  if !s.rails.vaon then s else if (s.loadIr code).clearing then (s.loadIr code).asBypass else f (s.loadIr code)

/-- EXTEST. -/
def execExtest (s : State) : Out := .next (s.protectedIr irExtest)
/-- CLAMP. -/
def execClamp (s : State) : Out := .next (s.protectedIr irClamp)
/-- HIGHZ. -/
def execHighz (s : State) : Out := .next (s.protectedIr irHighz)
/-- EXTEST_PULSE. -/
def execExtestPulse (s : State) : Out := .next (s.protectedIr irPulse)
/-- EXTEST_TRAIN. -/
def execExtestTrain (s : State) : Out := .next (s.protectedIr irTrain)
/-- IJTAG. -/
def execIjtag (s : State) : Out := .next (s.protectedIr irIjtag)
/-- SCAN: also needs TMODE high. -/
def execScan (s : State) : Out := .next (s.protectedIr irScan)

/-- SAMPLE/PRELOAD. -/
def execSamplePreload (s : State) : Out := .next (s.openIr irSample State.chainCapture)
/-- IDCODE (R454). -/
def execIdcode (s : State) : Out := .next (if s.rails.vaon then (s.loadIr irIdcode).capture (leBytes 4 0x040965AB) else s)
/-- BYPASS, and every code outside Table 21.4 (R454). -/
def execBypass (code : BitVec 8) (s : State) : Out := .next (if s.rails.vaon then (s.loadIr code).asBypass else s)
/-- DBG_STATUS: BST_DBG_STATUS. -/
def execDbgStatus (s : State) : Out := .next (if s.rails.vaon then (s.loadIr irDbgStatus).capture (leBytes 4 (s.readNow BST_DBG_STATUS.off)) else s)

/-! ## REGACC (R455) -/

/-- The 57 bits that a capture shows. -/
def TapSt.result (t : TapSt) : Nat := if t.accDone then 1 + t.accStatus.toNat * 2 + t.accData.toNat * 2 ^ 25 else 0

/-- The previous access still runs, or the register target is busy with another (R206). -/
def State.accBusy (s : State) : Bool := !s.acc.owed.isEmpty

/-- REGACC: the latest result is captured, and Update-DR starts one access. -/
def execRegacc (dr : BitVec 57) (s : State) : Out :=
  .next (s.openIr irRegacc fun t =>
    let u := t.capture (leBytes 8 t.acc.tap.result)
    let off := bitsOf dr.toNat 24 1
    if off % 4 ≠ 0 ∨ u.accBusy then u
    else
      let v := { u with acc := { u.acc with tap := { u.acc.tap with accDone := false, accStatus := 0, accData := 0 } } }
      if bitAt dr.toNat 0 then v.pathWrite .jtag off (bitsOf dr.toNat 56 25)
      else
        let (d, st, w) := v.sideRead .jtag off
        { w with acc := { w.acc with tap := { w.acc.tap with accDone := true, accStatus := st, accData := BitVec.ofNat 32 d } } })

/-! ## Authorisation (R457) -/

/-- AUTH_CHAL: a fresh nonce; within 1 s of a failed response the bytes captured are no nonce. -/
def execAuthChal (s : State) : Out :=
  .next (s.openIr irAuthChal fun t =>
    let (b, u) := t.draw 48
    ({ u with acc := { u.acc with tap := { u.acc.tap with nonce := if t.now < t.acc.tap.nonceFrom then none else some b } } } : State).capture b)

/-- The debug key hash in KEYS (R457); with KEYS failed none, and step 3 of Table 21.5 clears it. -/
def State.debugHash (s : State) : Option (List (BitVec 8)) :=
  if s.regionOk 6 && !s.acc.tap.keysCleared then some (Config.keyHash ((List.range 16).map fun i => (s.fuseRow (463 + i)).toNat) true) else none

/-- Is a response right? -/
def State.authOk (s : State) (b : List (BitVec 8)) : Bool :=
  match s.acc.tap.nonce, s.debugHash with
  | some nonce, some h =>
    let key := b.take 97
    sha384 key == h && byteAt b 98 == 0 && byteAt b 99 == 0
      && ecdsaOk key (slice b 100 48) (slice b 148 48) (sha384 (nonce ++ leBytes 4 (s.reg GLB_UID_LO.off) ++ leBytes 4 (s.reg GLB_UID_HI.off) ++ slice b 97 1))
  | _, _ => false

/-- AUTH_RESP: the grant, or a failure counted. -/
def execAuthResp (b : List (BitVec 8)) (s : State) : Out :=
  .next (s.openIr irAuthResp fun t =>
    let u := t.capture []
    if t.authOk b then
      ({ u with acc := { u.acc with tap := { u.acc.tap with grant := BitVec.ofNat 3 (byteAt b 97) } } } : State).set BST_DBG_STATUS_SCOPE (byteAt b 97)
    else ({ u with acc := { u.acc with tap := { u.acc.tap with nonce := none, nonceFrom := t.now + 1000000 } } } : State).incSat BST_DBG_STATUS_AUTH_FAILS)

/-! ## Clearing (R458, Table 21.5) -/

/-- Step 2: the recorder is flushed and the entry counted. -/
def State.clearFlush (s : State) : State :=
  let q := s.recd.holding ++ s.recd.staging
  let t := ({ s with recd := { s.recd with holding := [], staging := [], freeze := .off, waiter := false } } : State).each q State.logItem
  (t.inc BST_DEBUG_ENTRIES).saveCounters

/-- Step 3: windows, latched keys and the retained firmware. -/
def State.clearAccess (s : State) : State :=
  let t := (s.sets ((List.range 16).map fun n => (RT_ACW_BASE_VALID n, 0))).set RT_ACW_CTL_ENFORCE 1
  { t with acc := { t.acc with tap := { t.acc.tap with keysCleared := true } }, fox := { t.fox with retained := [] } }

/-- Step 4: the Marl, the dens, the instruction stores, the pools and the checkpoint maps hold zeros; FROZEN is cleared. -/
def State.clearMarl (s : State) : State :=
  let fox : FoxSt := { s.fox with engines := s.fox.engines.map fun (e : Nat × Engine) => (e.1, ({ e.2 with den := [], run := none } : Engine)), jobs := [], svcQueue := [], svcNums := [], unsent := [], mgmt := [], outs := [], sbImage := [], ckpActive := { base := false }, ckpFrozen := { base := false } }
  { s with marl := { s.marl with lines := [], plru := [], image := [], fills := [], evicting := [], flush := none, rewrite := [] }, fox := fox, start := { s.start with frozen := false } }

/-- Step 5: a channel holds zeros with valid check bits. -/
def State.clearChannel (s : State) (c : Nat) : State :=
  if s.on (CHAN_STATUS_FENCED c) then s
  else { s with chan := { s.chan with dram := s.chan.dram.filter (fun e => e.1 / 72 / chanBlocks != c), zeroed := mput c chanBlocks s.chan.zeroed } }

/-- CLEARING_DONE: steps 2 to 6; CLEARED is set and the grant takes effect. -/
def execClearingDone (s : State) : Out :=
  if s.clearing && s.rails.vaon && s.rails.vcore then
    let t := ((s.clearFlush.clearAccess.clearMarl).each (List.range s.nChans) State.clearChannel).stopHeartbeats
    let u := t.sets [(BST_DBG_STATUS_CLEARING, 0), (BST_DBG_STATUS_CLEARED, 1)]
    let code := u.acc.tap.ir
    .next (if (scopeBit code).isSome && u.covered code && (code != irScan || u.pins.tmode) then u.takeEffect code else u)
  else .next s

end Sys2Proof.Machine
end

