-- ==== Sys2Proof/Machine/Dispatch.lean ====
section
/-! DEFINITION. The one dispatch: every command to its meaning. -/

namespace Sys2Proof.Machine

/-- The effect of a command on everything but the queue. -/
def exec (i : Instr) (s : State) : Host.Outcome State Fault Refusal :=
  match i with
  | .vaonGood straps boot tmode => Sys2Proof.Machine.execVaonGood straps boot tmode s
  | .railGood r => Sys2Proof.Machine.execRailGood r s
  | .railLost r => Sys2Proof.Machine.execRailLost r s
  | .vfuseLost => Sys2Proof.Machine.execVfuseLost s
  | .perstNLow => Sys2Proof.Machine.execPerstNLow s
  | .perstNHigh => Sys2Proof.Machine.execPerstNHigh s
  | .bypForceNLow => Sys2Proof.Machine.execBypForceNLow s
  | .startPhaseEnd r => Sys2Proof.Machine.execStartPhaseEnd r s
  | .phaseTimerExpiry r => Sys2Proof.Machine.execPhaseTimerExpiry r s
  | .coldHoldExit => Sys2Proof.Machine.execColdHoldExit s
  | .startGo via => Sys2Proof.Machine.execStartGo via s
  | .frcAttemptEnd count => Sys2Proof.Machine.execFrcAttemptEnd count s
  | .refWindowEnd ad ax bd bx => Sys2Proof.Machine.execRefWindowEnd ad ax bd bx s
  | .pllLocked p => Sys2Proof.Machine.execPllLocked p s
  | .slowRcCheck count => Sys2Proof.Machine.execSlowRcCheck count s
  | .frcServiceCheck ok => Sys2Proof.Machine.execFrcServiceCheck ok s
  | .refMissingEdges refB => Sys2Proof.Machine.execRefMissingEdges refB s
  | .pllLockLost p => Sys2Proof.Machine.execPllLockLost p s
  | .holdoverExpiry => Sys2Proof.Machine.execHoldoverExpiry s
  | .foxPllRelockTry ok => Sys2Proof.Machine.execFoxPllRelockTry ok s
  | .clkSwitchRelease => Sys2Proof.Machine.execClkSwitchRelease s
  | .clkSwitchTimeout => Sys2Proof.Machine.execClkSwitchTimeout s
  | .wakeRefTimeout => Sys2Proof.Machine.execWakeRefTimeout s
  | .clkRefCfgWrite via v => Sys2Proof.Machine.execClkRefCfgWrite via v s
  | .clkGateWrite via set g v => Sys2Proof.Machine.execClkGateWrite via set g v s
  | .marlHbLoss => Sys2Proof.Machine.execMarlHbLoss s
  | .layerHbLoss c => Sys2Proof.Machine.execLayerHbLoss c s
  | .exitSr c => Sys2Proof.Machine.execExitSr c s
  | .portBlockReset via ix => Sys2Proof.Machine.execPortBlockReset via ix s
  | .chanBlockReset via ix => Sys2Proof.Machine.execChanBlockReset via ix s
  | .foxBlockReset via ix => Sys2Proof.Machine.execFoxBlockReset via ix s
  | .unitReset => Sys2Proof.Machine.execUnitReset s
  | .blockResetDone => Sys2Proof.Machine.execBlockResetDone s
  | .s1IdleExpiry => Sys2Proof.Machine.execS1IdleExpiry s
  | .setPstate => Sys2Proof.Machine.execSetPstate s
  | .reqStateS1 via => Sys2Proof.Machine.execReqStateS1 via s
  | .reqStateSleep via deep => Sys2Proof.Machine.execReqStateSleep via deep s
  | .sleepEntryDone => Sys2Proof.Machine.execSleepEntryDone s
  | .pwrWake via => Sys2Proof.Machine.execPwrWake via s
  | .wakeTimerExpiry => Sys2Proof.Machine.execWakeTimerExpiry s
  | .wakeSignal port => Sys2Proof.Machine.execWakeSignal port s
  | .s3Wake => Sys2Proof.Machine.execS3Wake s
  | .openWindow via => Sys2Proof.Machine.execOpenWindow via s
  | .closeWindow via => Sys2Proof.Machine.execCloseWindow via s
  | .senseRow via row margin => Sys2Proof.Machine.execSenseRow via row margin s
  | .programRow via row => Sys2Proof.Machine.execProgramRow via row s
  | .topupBit via row bit => Sys2Proof.Machine.execTopupBit via row bit s
  | .redirectRow via row => Sys2Proof.Machine.execRedirectRow via row s
  | .lockRegion via region => Sys2Proof.Machine.execLockRegion via region s
  | .verifyRegion via region => Sys2Proof.Machine.execVerifyRegion via region s
  | .otpCmdDone sl lo no hi sh => Sys2Proof.Machine.execOtpCmdDone sl lo no hi sh s
  | .windowTimeout => Sys2Proof.Machine.execWindowTimeout s
  | .linkTrainStart port link => Sys2Proof.Machine.execLinkTrainStart port link s
  | .tmReceived lane tm => Sys2Proof.Machine.execTmReceived lane tm s
  | .trainTimeout port link => Sys2Proof.Machine.execTrainTimeout port link s
  | .amSend port link => Sys2Proof.Machine.execAmSend port link s
  | .amReceived lane raw up eyeH eyeW => Sys2Proof.Machine.execAmReceived lane raw up eyeH eyeW s
  | .laneFailure loss => Sys2Proof.Machine.execLaneFailure loss s
  | .retrainDone port link => Sys2Proof.Machine.execRetrainDone port link s
  | .retrainTimeout port link => Sys2Proof.Machine.execRetrainTimeout port link s
  | .signalLossTimeout port link => Sys2Proof.Machine.execSignalLossTimeout port link s
  | .l1Entry port link => Sys2Proof.Machine.execL1Entry port link s
  | .l1Exit port link => Sys2Proof.Machine.execL1Exit port link s
  | .l2Exit port link => Sys2Proof.Machine.execL2Exit port link s
  | .prbsInject via lane => Sys2Proof.Machine.execPrbsInject via lane s
  | .lanePrbsCtlWrite via lane v => Sys2Proof.Machine.execLanePrbsCtlWrite via lane v s
  | .portLinkCfgWrite via port v => Sys2Proof.Machine.execPortLinkCfgWrite via port v s
  | .flitReceived port link wire => Sys2Proof.Machine.execFlitReceived port link wire s
  | .nakTimerExpiry port link => Sys2Proof.Machine.execNakTimerExpiry port link s
  | .replayTimeout port link => Sys2Proof.Machine.execReplayTimeout port link s
  | .lcfDue port link => Sys2Proof.Machine.execLcfDue port link s
  | .noValidFlitTimeout port link => Sys2Proof.Machine.execNoValidFlitTimeout port link s
  | .packetSend port link => Sys2Proof.Machine.execPacketSend port link s
  | .portCredInitWrite via port vc v => Sys2Proof.Machine.execPortCredInitWrite via port vc v s
  | .linkWaitExpiry ix => Sys2Proof.Machine.execLinkWaitExpiry ix s
  | .egressMove port vc => Sys2Proof.Machine.execEgressMove port vc s
  | .glbDidWrite via v => Sys2Proof.Machine.execGlbDidWrite via v s
  | .portRoleWrite via port v => Sys2Proof.Machine.execPortRoleWrite via port v s
  | .portCfgWrite via port v => Sys2Proof.Machine.execPortCfgWrite via port v s
  | .routeEntryWrite via dim n v => Sys2Proof.Machine.execRouteEntryWrite via dim n v s
  | .rtMembersWrite via dim v => Sys2Proof.Machine.execRtMembersWrite via dim v s
  | .bypassClose pair => Sys2Proof.Machine.execBypassClose pair s
  | .bypassOpen pair forceN => Sys2Proof.Machine.execBypassOpen pair forceN s
  | .rtBypOpenWrite via v => Sys2Proof.Machine.execRtBypOpenWrite via v s
  | .glbLockSet via => Sys2Proof.Machine.execGlbLockSet via s
  | .snapshotComplete => Sys2Proof.Machine.execSnapshotComplete s
  | .rd p => Sys2Proof.Machine.execRd p s
  | .wr p => Sys2Proof.Machine.execWr p s
  | .wrp p => Sys2Proof.Machine.execWrp p s
  | .atom p => Sys2Proof.Machine.execAtom p s
  | .svc p => Sys2Proof.Machine.execSvc p s
  | .dbell p => Sys2Proof.Machine.execDbell p s
  | .mregRd p => Sys2Proof.Machine.execMregRd p s
  | .mregWr p => Sys2Proof.Machine.execMregWr p s
  | .rdRsp p => Sys2Proof.Machine.execRdRsp p s
  | .wrAck p => Sys2Proof.Machine.execWrAck p s
  | .atomRsp p => Sys2Proof.Machine.execAtomRsp p s
  | .svcRsp p => Sys2Proof.Machine.execSvcRsp p s
  | .mregRsp p => Sys2Proof.Machine.execMregRsp p s
  | .requestTimeout tag => Sys2Proof.Machine.execRequestTimeout tag s
  | .missFillDone c => Sys2Proof.Machine.execMissFillDone c s
  | .writebackConfirmed c => Sys2Proof.Machine.execWritebackConfirmed c s
  | .marlFlushGo via inv => Sys2Proof.Machine.execMarlFlushGo via inv s
  | .marlWb => Sys2Proof.Machine.execMarlWb s
  | .flushDone => Sys2Proof.Machine.execFlushDone s
  | .quiesceSet via => Sys2Proof.Machine.execQuiesceSet via s
  | .quiescedReached => Sys2Proof.Machine.execQuiescedReached s
  | .marlPartWrite via v => Sys2Proof.Machine.execMarlPartWrite via v s
  | .repartitionDone => Sys2Proof.Machine.execRepartitionDone s
  | .quiesceClear via => Sys2Proof.Machine.execQuiesceClear via s
  | .marlQuietWindowForced slice => Sys2Proof.Machine.execMarlQuietWindowForced slice s
  | .glbMemCfgWrite via v => Sys2Proof.Machine.execGlbMemCfgWrite via v s
  | .dramCommandIssue c pc res => Sys2Proof.Machine.execDramCommandIssue c pc res s
  | .refreshDue c pc taps => Sys2Proof.Machine.execRefreshDue c pc taps s
  | .refRateLower layer => Sys2Proof.Machine.execRefRateLower layer s
  | .powerDownEntry c => Sys2Proof.Machine.execPowerDownEntry c s
  | .dramReadData c err => Sys2Proof.Machine.execDramReadData c err s
  | .chanPasrWrite via c v => Sys2Proof.Machine.execChanPasrWrite via c v s
  | .setPasr => Sys2Proof.Machine.execSetPasr s
  | .pasrChangeDone c => Sys2Proof.Machine.execPasrChangeDone c s
  | .channelFence c cause => Sys2Proof.Machine.execChannelFence c cause s
  | .rebuildStart c => Sys2Proof.Machine.execRebuildStart c s
  | .rebuildStripe c => Sys2Proof.Machine.execRebuildStripe c s
  | .chanRebuild => Sys2Proof.Machine.execChanRebuild s
  | .layerSilent layer pll => Sys2Proof.Machine.execLayerSilent layer pll s
  | .layerRelockAttempt layer found => Sys2Proof.Machine.execLayerRelockAttempt layer found s
  | .layerDiscoveryTimeout layer => Sys2Proof.Machine.execLayerDiscoveryTimeout layer s
  | .couplingBoundary c m => Sys2Proof.Machine.execCouplingBoundary c m s
  | .couplingBoundaryForced c => Sys2Proof.Machine.execCouplingBoundaryForced c s
  | .forcedRecal c => Sys2Proof.Machine.execForcedRecal c s
  | .forcedRecalDone c found => Sys2Proof.Machine.execForcedRecalDone c found s
  | .vcpMechWrite via v => Sys2Proof.Machine.execVcpMechWrite via v s
  | .qosCommitGo via => Sys2Proof.Machine.execQosCommitGo via s
  | .qosSet => Sys2Proof.Machine.execQosSet s
  | .dEvaluation => Sys2Proof.Machine.execDEvaluation s
  | .missEntryFreed c => Sys2Proof.Machine.execMissEntryFreed c s
  | .ringPoll n => Sys2Proof.Machine.execRingPoll n s
  | .rcbHReread n => Sys2Proof.Machine.execRcbHReread n s
  | .descFetch n => Sys2Proof.Machine.execDescFetch n s
  | .descStart n => Sys2Proof.Machine.execDescStart n s
  | .completionWrite n => Sys2Proof.Machine.execCompletionWrite n s
  | .ring0FetchRetry => Sys2Proof.Machine.execRing0FetchRetry s
  | .ring0CompletionRetry => Sys2Proof.Machine.execRing0CompletionRetry s
  | .ringEnable via n => Sys2Proof.Machine.execRingEnable via n s
  | .ringResetCmd via n => Sys2Proof.Machine.execRingResetCmd via n s
  | .ringResumeCmd via n => Sys2Proof.Machine.execRingResumeCmd via n s
  | .nop => Sys2Proof.Machine.execNop s
  | .ringSetup => Sys2Proof.Machine.execRingSetup s
  | .ringReset => Sys2Proof.Machine.execRingReset s
  | .ringResume => Sys2Proof.Machine.execRingResume s
  | .engineDispatch e => Sys2Proof.Machine.execEngineDispatch e s
  | .stageAdvance e => Sys2Proof.Machine.execStageAdvance e s
  | .helperChunk e => Sys2Proof.Machine.execHelperChunk e s
  | .fill e => Sys2Proof.Machine.execFill e s
  | .copy e => Sys2Proof.Machine.execCopy e s
  | .gather e => Sys2Proof.Machine.execGather e s
  | .scatter e => Sys2Proof.Machine.execScatter e s
  | .reduce e => Sys2Proof.Machine.execReduce e s
  | .check e => Sys2Proof.Machine.execCheck e s
  | .compare e => Sys2Proof.Machine.execCompare e s
  | .transpose e => Sys2Proof.Machine.execTranspose e s
  | .atomb e => Sys2Proof.Machine.execAtomb e s
  | .fence e => Sys2Proof.Machine.execFence e s
  | .notifyWrite e => Sys2Proof.Machine.execNotifyWrite e s
  | .notifyDbell e => Sys2Proof.Machine.execNotifyDbell e s
  | .mirrorSend e => Sys2Proof.Machine.execMirrorSend e s
  | .mirrorCommit e => Sys2Proof.Machine.execMirrorCommit e s
  | .mirrorVerify e => Sys2Proof.Machine.execMirrorVerify e s
  | .dirtyscanFreeze e => Sys2Proof.Machine.execDirtyscanFreeze e s
  | .dirtyscanPeek e => Sys2Proof.Machine.execDirtyscanPeek e s
  | .svcStart e => Sys2Proof.Machine.execSvcStart e s
  | .engineTrap e cause => Sys2Proof.Machine.execEngineTrap e cause s
  | .watchdogExpiry e => Sys2Proof.Machine.execWatchdogExpiry e s
  | .fwSlotWrite => Sys2Proof.Machine.execFwSlotWrite s
  | .fwActivate => Sys2Proof.Machine.execFwActivate s
  | .foxSbDataWrite via v => Sys2Proof.Machine.execFoxSbDataWrite via v s
  | .foxSbGo via => Sys2Proof.Machine.execFoxSbGo via s
  | .foxCtlWrite via e v => Sys2Proof.Machine.execFoxCtlWrite via e v s
  | .cvuTestStart via => Sys2Proof.Machine.execCvuTestStart via s
  | .cvuTestRelease via => Sys2Proof.Machine.execCvuTestRelease via s
  | .cvuTestDataWrite via v => Sys2Proof.Machine.execCvuTestDataWrite via v s
  | .cvuTestData1Write via v => Sys2Proof.Machine.execCvuTestData1Write via v s
  | .ckpTrackWrite via v => Sys2Proof.Machine.execCkpTrackWrite via v s
  | .correctiveWrite c => Sys2Proof.Machine.execCorrectiveWrite c s
  | .ceLogFree via log n => Sys2Proof.Machine.execCeLogFree via log n s
  | .badgerPatrolRead c err => Sys2Proof.Machine.execBadgerPatrolRead c err s
  | .marlPatrol u err => Sys2Proof.Machine.execMarlPatrol u err s
  | .badgerSet => Sys2Proof.Machine.execBadgerSet s
  | .badgerRegWrite via chanEn v => Sys2Proof.Machine.execBadgerRegWrite via chanEn v s
  | .repair u => Sys2Proof.Machine.execRepair u s
  | .faultRaise cause unit detail => Sys2Proof.Machine.execFaultRaise cause unit detail s
  | .cTimerExpiry d => Sys2Proof.Machine.execCTimerExpiry d s
  | .dTimerExpiry d => Sys2Proof.Machine.execDTimerExpiry d s
  | .graveFlushDone => Sys2Proof.Machine.execGraveFlushDone s
  | .fltAckHold via d seq => Sys2Proof.Machine.execFltAckHold via d seq s
  | .fltAckClose via d seq => Sys2Proof.Machine.execFltAckClose via d seq s
  | .lockstepMismatch pc => Sys2Proof.Machine.execLockstepMismatch pc s
  | .mgcReloadDone ok => Sys2Proof.Machine.execMgcReloadDone ok s
  | .fabStateError port structure_ => Sys2Proof.Machine.execFabStateError port structure_ s
  | .alarmWindowEnd d => Sys2Proof.Machine.execAlarmWindowEnd d s
  | .fltInjWrite via v => Sys2Proof.Machine.execFltInjWrite via v s
  | .fltInject => Sys2Proof.Machine.execFltInject s
  | .logWrite fails => Sys2Proof.Machine.execLogWrite fails s
  | .recFreezeOn via => Sys2Proof.Machine.execRecFreezeOn via s
  | .recThaw via => Sys2Proof.Machine.execRecThaw via s
  | .freezeAutoThaw => Sys2Proof.Machine.execFreezeAutoThaw s
  | .recRead => Sys2Proof.Machine.execRecRead s
  | .recSettAddrWrite via v => Sys2Proof.Machine.execRecSettAddrWrite via v s
  | .telemetrySample => Sys2Proof.Machine.execTelemetrySample s
  | .telSet => Sys2Proof.Machine.execTelSet s
  | .settFlush fails => Sys2Proof.Machine.execSettFlush fails s
  | .opSecondsTick => Sys2Proof.Machine.execOpSecondsTick s
  | .sensorSample t => Sys2Proof.Machine.execSensorSample t s
  | .throttleRamp => Sys2Proof.Machine.execThrottleRamp s
  | .thermalTrip sensor => Sys2Proof.Machine.execThermalTrip sensor s
  | .thmSet => Sys2Proof.Machine.execThmSet s
  | .thmRegWrite via which v => Sys2Proof.Machine.execThmRegWrite via which v s
  | .testSliceStart => Sys2Proof.Machine.execTestSliceStart s
  | .coilTestEnd c m bitErr => Sys2Proof.Machine.execCoilTestEnd c m bitErr s
  | .padTestEnd slice up failed => Sys2Proof.Machine.execPadTestEnd slice up failed s
  | .laneMarginCheck lane eyeH eyeW => Sys2Proof.Machine.execLaneMarginCheck lane eyeH eyeW s
  | .bstRun => Sys2Proof.Machine.execBstRun s
  | .bstRunStep m bad eyeH eyeW => Sys2Proof.Machine.execBstRunStep m bad eyeH eyeW s
  | .extest => Sys2Proof.Machine.execExtest s
  | .samplePreload => Sys2Proof.Machine.execSamplePreload s
  | .idcode => Sys2Proof.Machine.execIdcode s
  | .clamp => Sys2Proof.Machine.execClamp s
  | .highz => Sys2Proof.Machine.execHighz s
  | .extestPulse => Sys2Proof.Machine.execExtestPulse s
  | .extestTrain => Sys2Proof.Machine.execExtestTrain s
  | .regacc dr => Sys2Proof.Machine.execRegacc dr s
  | .authChal => Sys2Proof.Machine.execAuthChal s
  | .authResp b => Sys2Proof.Machine.execAuthResp b s
  | .dbgStatus => Sys2Proof.Machine.execDbgStatus s
  | .ijtag => Sys2Proof.Machine.execIjtag s
  | .scan => Sys2Proof.Machine.execScan s
  | .bypass code => Sys2Proof.Machine.execBypass code s
  | .clearingDone => Sys2Proof.Machine.execClearingDone s
  | .counterLoRead via off => Sys2Proof.Machine.execCounterLoRead via off s
  | .registerWrite via off v => Sys2Proof.Machine.execRegisterWrite via off v s
  | .i3cSetOffset off => Sys2Proof.Machine.execI3cSetOffset off s
  | .i3cRegWrite off v => Sys2Proof.Machine.execI3cRegWrite off v s
  | .i3cRegRead => Sys2Proof.Machine.execI3cRegRead s
  | .i3cBadLength b => Sys2Proof.Machine.execI3cBadLength b s
  | .entdaa addr => Sys2Proof.Machine.execEntdaa addr s
  | .marlQuietWindow slice up => Sys2Proof.Machine.execMarlQuietWindow slice up s
  | .markerLockLoss lane => Sys2Proof.Machine.execMarkerLockLoss lane s
  | .prbsCheckerLock lane bits lost => Sys2Proof.Machine.execPrbsCheckerLock lane bits lost s

end Sys2Proof.Machine
end

