-- ==== Sys2Proof/Machine/Step.lean ====
section
/-! DEFINITION. One step of the block: the command at the front of the queue, or, on an empty queue, one microsecond
(log entry 1). -/

namespace Sys2Proof.Machine

set_option Elab.async false

/-- The clock of an idle block: nothing waits, one microsecond passes, and pattern generators that are on send a word (log entry 1). -/
def State.idle (s : State) : State := ({ s with now := s.now + 1 }).genWords

/-- Take the command at the front of the queue and run it with the queue's rest; idle on an empty queue. -/
def step (s : State) : Host.Outcome State Fault Refusal :=
  match s.pending with
  | [] => .next s.idle
  | c :: rest => exec c { s with pending := rest }

/-- The state with the command a word spells put at the front of its queue; no word of this table spells one. -/
def State.withFetchWord (s : State) (nbits w : Nat) : State :=
  match Sys2Proof.decodeTableWord nbits w with
  | none => s
  | some c => { s with pending := c :: s.pending }

end Sys2Proof.Machine
end

