-- ==== Sys2Proof/Safety.lean ====
section
/-! DEFINITION. What a safe run is: every step answers a next state. The block has no stop of its own: a hardware fault is
a record of the collector (R399) and a refused request is answered. -/

namespace Sys2Proof

set_option Elab.async false

open Sys2Proof.Machine

/-! ## Words that the statements use -/

/-- The level of a rail (R27). -/
def railOf (r : RailId) (x : Rails) : Bool :=
  match r with
  | .vcore => x.vcore
  | .vstore => x.vstore
  | .vdram => x.vdram
  | .vpp => x.vpp
  | .vser => x.vser
  | .vserh => x.vserh
  | .vfuse => x.vfuse
  | .vaon => x.vaon

/-- Nothing is due that follows a command at once: no wake (R80), no sleep entry under way (R82), no record of class G (R405). -/
def Machine.State.calm (s : State) : Bool := !s.pwr.wakeDue && s.pwr.entry.isNone && !s.graveRec

/-- A write of a register of block `b` on a path reaches the register's own rules: the path is up and not limited (R455, R479), the
block is writable (R66), and nothing else is due. -/
def Machine.State.takes (s : State) (via : Path) (b : Blk) : Bool := s.pathUp via && (via == .mreg || !s.pathLimited) && s.blockOpen b && s.calm

/-- Every register outside the list reads the same. -/
def regsBut (offs : List Nat) (s t : State) : Prop := ∀ o, o ∉ offs → t.reg o = s.reg o

/-- The parts of a state. -/
inductive Part
  | pending | now | free | regs | acc | rails | pins | start | clk | pwr | unitResets | fuse | flt | recd
  | sett | links | lanes | sw | txns | nextTxn | marl | chan | vcp | qos | rings | fox | prot | thm
  deriving DecidableEq, Repr

/-- Two states agree in a part. -/
def agree (p : Part) (s t : State) : Prop :=
  match p with
  | .pending => t.pending = s.pending
  | .now => t.now = s.now
  | .free => t.free = s.free
  | .regs => t.regs = s.regs
  | .acc => t.acc = s.acc
  | .rails => t.rails = s.rails
  | .pins => t.pins = s.pins
  | .start => t.start = s.start
  | .clk => t.clk = s.clk
  | .pwr => t.pwr = s.pwr
  | .unitResets => t.unitResets = s.unitResets
  | .fuse => t.fuse = s.fuse
  | .flt => t.flt = s.flt
  | .recd => t.recd = s.recd
  | .sett => t.sett = s.sett
  | .links => t.links = s.links
  | .lanes => t.lanes = s.lanes
  | .sw => t.sw = s.sw
  | .txns => t.txns = s.txns
  | .nextTxn => t.nextTxn = s.nextTxn
  | .marl => t.marl = s.marl
  | .chan => t.chan = s.chan
  | .vcp => t.vcp = s.vcp
  | .qos => t.qos = s.qos
  | .rings => t.rings = s.rings
  | .fox => t.fox = s.fox
  | .prot => t.prot = s.prot
  | .thm => t.thm = s.thm

/-- Nothing but the listed parts differs. -/
def only (l : List Part) (s t : State) : Prop := ∀ p, p ∉ l → agree p s t

/-- The write of a register was taken: its path shows OK, and beside the path's status nothing but the listed parts has changed. -/
def taken (via : Path) (l : List Part) (s t : State) : Prop := t.acc = (s.pathStatus via stOK).acc ∧ only (.acc :: .regs :: l) s t

/-- May a word be written to a register here: no reserved bit or value (R9), a writable register (R8), not locked (R465), of a unit that
is present (R463)? -/
def Machine.State.legal (s : State) (off : Nat) (v : Nat) : Bool :=
  match blkOf off, descOf off with
  | some (b, o), some d => v &&& fieldMask d == v && !s.rsvdValue b off o v && !writesNothing off d && !(s.locked && (allRwl d || lockedOut off)) && !s.unitGone b o
  | _, _ => false

/-- The state in which the stack judges a packet addressed to it: the packet has left the switch (R197). -/
def Machine.State.brought (s : State) (p : Packet) : State := ((s.withLocal p).1.takeIn (s.withLocal p).2).activity

/-- Where the packet lies as the stack judges it. -/
def Machine.State.held (s : State) (p : Packet) : InPkt := (s.withLocal p).1.inAt (s.withLocal p).2 p

/-- No packet stands before this one that it must stay behind, and its cells are good (R195, R216, Table 17.2). -/
def Machine.State.isNext (s : State) (p : Packet) : Bool := !(s.withLocal p).1.overtakes (s.withLocal p).2 (s.held p) && !(s.held p).bad

/-- The packet is addressed to this stack, which is awake, and is its next. -/
def Machine.State.mayEnter (s : State) (p : Packet) : Bool := s.serves p && s.isNext p

/-- Nothing but a request at hand moves the Marl: no older request, no armed checker, no early write-back, no cleaning that is under way or
would begin. -/
def Machine.State.storeCalm (s : State) : Prop :=
  s.txns = [] ∧ s.flt.inject = none ∧ (∀ e ∈ s.marl.lines, e.2.evictFirst = false) ∧ s.fld MARL_STATUS_CLEANING = 0 ∧ (s.dirtyLines + 1) * 100 ≤ s.fld MARL_WB_CFG_DIRTY_HI * s.cacheLines

/-- The stack sends a packet of its own, which joins the egress account its route gives (R161). -/
def sends (s t : State) (r : Packet) : Prop :=
  ∀ port q en, s.route r none = .send port q en →
    ∃ held, t.sw = { s.sw with
      egress := s.sw.egress ++ [{ inPort := none, port := port, vc := q.hdr.vc, pkt := q, cells := q.flits, at_ := s.now, waiting := none, enters := en, held := held }], placed := t.sw.placed }

/-- The next ring-0 descriptor is an operation with this opcode, and the firmware is in service (R305, R313). -/
def Machine.State.starts0 (s : State) (op : Nat) (d : Desc) : Prop :=
  s.nextMgmt = some d ∧ descOp d.hdr 0 = op ∧ s.fld GLB_START_STATUS_FW_DEGRADED = 0

/-- A ring-0 operation has ended: its completion joins the queue of the ring (R306). -/
def ended0 (s t : State) (job : Nat) (status : BitVec 8) (result : List (BitVec 8)) : Prop :=
  ∃ e, (t.ring 0).cpls = (s.ring 0).cpls ++ [e] ∧ e.job = job ∧ e.status = status ∧ e.result = slice result 0 16

/-- A ring-0 operation has begun and is under way. -/
def runs0 (s t : State) (op : Nat) (d : Desc) : Prop :=
  t.fox.mgmt = s.fox.mgmt ++ [{ job := d.job, op := BitVec.ofNat 8 op, payload := d.payload }] ∧ (t.ring 0).cpls = (s.ring 0).cpls

/-- The two states agree in every listed part. -/
def keeps (l : List Part) (s t : State) : Prop := ∀ p ∈ l, agree p s t

/-- An engine's stage with opcode `op` can go on: the machine is awake and nothing else is due, every access of its last round was answered OK, neither
a failure nor a trap stands against it, its clock runs and no checker is armed (R327, R349, R352, R54, R410). -/
def Machine.State.stageReady (s : State) (e op : Nat) (j : Job) (r : Run) : Prop :=
  s.awake = true ∧ s.calm = true ∧ (s.eng e).run = some r ∧ s.job r.job = some j ∧ j.op = op ∧ j.fail = none ∧ r.finished = false ∧ r.queue = [] ∧ r.opened = [] ∧ r.bad = none
    ∧ (s.eng e).trapping = none ∧ s.clk.foxRelock = false ∧ s.foxOn e = true ∧ s.flt.inject = none

/-- The engine has begun a round with these accesses: each waits for response space, is outstanding, or has its answer (R333, R334). -/
def issues (t : State) (e : Nat) (r : Run) (round pos : Nat) (accs : List Acc) : Prop :=
  ∃ q, (t.eng e).run = some q ∧ q.job = r.job ∧ q.round = round ∧ q.lo = r.lo ∧ q.hi = r.hi ∧ q.pos = pos ∧ q.base = r.nextAcc ∧ q.nextAcc = r.nextAcc + accs.length ∧ q.finished = false
    ∧ ∀ i a, accs[i]? = some a → (r.nextAcc + i, a) ∈ q.queue ++ q.opened ∨ ∃ x, (r.nextAcc + i, x) ∈ q.answers

/-- The engine's part of its stage has ended. -/
def partEnded (t : State) (e : Nat) (pos : Nat) : Prop := ∃ q, (t.eng e).run = some q ∧ q.finished = true ∧ q.pos = pos

/-- The maps of the state are in their one form: registers by rising offset, each differing from its reset value; the DRAM by rising address; the
lines of the Marl by rising line number. -/
def Machine.State.wf (s : State) : Bool :=
  rising s.regs && s.regs.all (fun e => e.2 != resetValue e.1) && Memory.wf s.chan.dram && rising s.marl.lines

/-! ## Runs -/

/-- The step answers a next state. -/
def goesOn (o : Host.Outcome State Fault Refusal) : Bool :=
  match o with
  | .next _ => true
  | .fault _ => false
  | .refused _ => false

/-- `n` steps from `s` all answer a next state. -/
def safeFor : Nat → State → Bool
  | 0, _ => true
  | n + 1, s =>
    match step s with
    | .next t => safeFor n t
    | .fault _ => false
    | .refused _ => false

end Sys2Proof
end

