-- ==== Sys2Proof/Certificates/Slice0/Obligations.lean ====
section
/-! DEFINITION. The statements for the provers, family by family of the command table. A clause about a command says, for every state and
operands that meet its hypotheses, that `exec` answers a next state, what that state holds, and what it leaves as it was. -/

open Sys2Proof Sys2Proof.Machine

/-- The OTP commands (R100 to R108) as accepted writes of OTP_CMD: opening needs the code word and the conditions of R100 and ends at
once, as closing does; the others start a command that runs (BUSY) with the operands of the write and the data in OTP_DATA. -/
def Obligations.OtpCommands : Prop :=
  ∀ (via : Path) (s : State), s.takes via .otp = true → s.fld OTP_STATUS_BUSY = 0 →
    (s.fld (OTP_DATA 0) = 0x5E7A1F05 → s.progWindowOk = true →
      ∃ t, exec (.openWindow via) s = .next t ∧ t.fld OTP_STATUS_WINDOW = 1 ∧ t.fld OTP_STATUS_BUSY = 0 ∧ t.fld OTP_STATUS_LAST_OP = 1 ∧ t.fld OTP_STATUS_RESULT = 0
        ∧ t.fuse = { s.fuse with run := none } ∧ regsBut [OTP_STATUS.off] s t ∧ taken via [.fuse] s t)
    ∧ (s.fld OTP_STATUS_WINDOW = 1 →
      ∃ t, exec (.closeWindow via) s = .next t ∧ t.fld OTP_STATUS_WINDOW = 0 ∧ t.fld OTP_STATUS_BUSY = 0 ∧ t.fld OTP_STATUS_LAST_OP = 2 ∧ t.fld OTP_STATUS_RESULT = 0
        ∧ t.fuse = { s.fuse with run := none } ∧ regsBut [OTP_STATUS.off] s t ∧ taken via [.fuse] s t)
    ∧ ∀ (c : Instr) (op row bit region margin : Nat),
      ((∃ (r : BitVec 9) (m : BitVec 2), c = .senseRow via r m ∧ op = 3 ∧ row = r.toNat ∧ bit = 0 ∧ region = 0 ∧ margin = m.toNat)
        ∨ (s.fld OTP_STATUS_WINDOW = 1 ∧
          ((∃ r : BitVec 9, c = .programRow via r ∧ op = 4 ∧ row = r.toNat ∧ bit = 0 ∧ region = 0 ∧ margin = 0)
          ∨ (∃ (r : BitVec 9) (b : BitVec 7), c = .topupBit via r b ∧ op = 5 ∧ row = r.toNat ∧ bit = b.toNat ∧ region = 0 ∧ margin = 0)
          ∨ (∃ r : BitVec 9, c = .redirectRow via r ∧ op = 6 ∧ row = r.toNat ∧ bit = 0 ∧ region = 0 ∧ margin = 0)
          ∨ (∃ g : BitVec 4, c = .lockRegion via g ∧ op = 7 ∧ row = 0 ∧ bit = 0 ∧ region = g.toNat ∧ margin = 0)
          ∨ (∃ g : BitVec 4, c = .verifyRegion via g ∧ op = 8 ∧ row = 0 ∧ bit = 0 ∧ region = g.toNat ∧ margin = 0)))) →
      ∃ t r, exec c s = .next t ∧ t.fld OTP_STATUS_BUSY = 1 ∧ t.fuse.run = some r ∧ r.op = op ∧ r.row = row ∧ r.bit = bit ∧ r.region = region ∧ r.margin = margin
        ∧ r.data.toNat = s.fld (OTP_DATA 0) + 2 ^ 32 * s.fld (OTP_DATA 1) + 2 ^ 64 * s.fld (OTP_DATA 2) + 2 ^ 96 * s.fld (OTP_DATA 3)
        ∧ t.fld OTP_STATUS_WINDOW = s.fld OTP_STATUS_WINDOW ∧ t.fld OTP_STATUS_LAST_OP = s.fld OTP_STATUS_LAST_OP ∧ t.fld OTP_STATUS_RESULT = s.fld OTP_STATUS_RESULT
        ∧ { t.fuse with run := s.fuse.run } = s.fuse ∧ regsBut [OTP_STATUS.off, OTP_CNT_VIOL_STATE.off] s t ∧ taken via [.fuse] s t

/-- The clock writes: a gate register takes a word that names only present domains and, in the run set, stops no domain in use
(R55); CLK_REF_CFG takes a word whose preferred input is qualified and that leaves an input on; an input switched off is no longer
qualified, and the preferred one of two qualified inputs becomes the active reference (R61). -/
def Obligations.ClockWrites : Prop :=
  ∀ (via : Path) (v : BitVec 32) (s : State), s.takes via .clk = true →
    (∀ (set : GateSet) (g : BitVec 2), s.legal (0x1040 + 0x10 * gateSetIx set + 4 * g.toNat) v.toNat = true →
      (∀ i, bitAt v.toNat i = true → bitAt (s.gateDomains g.toNat) i = true) →
      (set = .run → ∀ i < 32, bitAt (s.reg (0x1040 + 4 * g.toNat)) i = true → s.domainUsed g.toNat i = true → bitAt v.toNat i = true) →
      ∃ t, exec (.clkGateWrite via set g v) s = .next t ∧ t.reg (0x1040 + 0x10 * gateSetIx set + 4 * g.toNat) = v.toNat
        ∧ regsBut [0x1040 + 0x10 * gateSetIx set + 4 * g.toNat] s t ∧ taken via [] s t)
    ∧ (s.legal CLK_REF_CFG.off v.toNat = true →
      (bitsOf v.toNat 1 0 = 1 → s.on CLK_SRC_STATUS_REFA_OK = true) → (bitsOf v.toNat 1 0 = 2 → s.on CLK_SRC_STATUS_REFB_OK = true) →
      (bitAt v.toNat 2 = true ∨ bitAt v.toNat 3 = true) →
      (s.fld CLK_SRC_STATUS_ACTIVE_REF = 1 → bitAt v.toNat 2 = false → s.on CLK_SRC_STATUS_REFB_OK = true) →
      (s.fld CLK_SRC_STATUS_ACTIVE_REF = 2 → bitAt v.toNat 3 = false → s.on CLK_SRC_STATUS_REFA_OK = true) →
      ∃ t, exec (.clkRefCfgWrite via v) s = .next t ∧ t.reg CLK_REF_CFG.off = v.toNat
        ∧ (bitAt v.toNat 2 = false → t.fld CLK_SRC_STATUS_REFA_OK = 0 ∧ t.fld CLK_SRC_STATUS_REFA_MODE = 0)
        ∧ (bitAt v.toNat 3 = false → t.fld CLK_SRC_STATUS_REFB_OK = 0 ∧ t.fld CLK_SRC_STATUS_REFB_MODE = 0)
        ∧ (bitAt v.toNat 2 = true → bitAt v.toNat 3 = true → bitsOf v.toNat 1 0 ≠ 0 → s.on CLK_SRC_STATUS_REFA_OK = true → s.on CLK_SRC_STATUS_REFB_OK = true →
          3 ≤ s.phase → s.clk.holdover = none → s.fld CLK_SRC_STATUS_ACTIVE_REF ≠ 0 → t.fld CLK_SRC_STATUS_ACTIVE_REF = bitsOf v.toNat 1 0)
        ∧ regsBut [CLK_REF_CFG.off, CLK_SRC_STATUS.off, CLK_REF_SWITCHES.off] s t ∧ taken via [.clk] s t)

/-- Writes of a lane's PRBS control and of a port's link settings, role, direction and credits (R131, R132, R150, R160): taken while the
port is free, the register then reads the word; the generator starts anew when it is turned on or its pattern changes, the checker when it
is turned on; INJECT is taken with the generator on, also after GLB_LOCK, and reads 1 until the word it marks is sent. -/
def Obligations.PortWrites : Prop :=
  ∀ (via : Path) (v : BitVec 32) (s : State),
    (∀ lane : BitVec 8, s.takes via .lane = true → s.legal (LANE_PRBS_CTL lane.toNat).off v.toNat = true → s.locked = false →
      (s.role (lane.toNat / 8) = 0 ∨ s.fld (PORT_LINK_CFG_LINK_EN (lane.toNat / 8)) = 0) → (bitAt v.toNat 9 = true → s.on (LANE_PRBS_CTL_GEN_EN lane.toNat) = true) →
      ∃ t, exec (.lanePrbsCtlWrite via lane v) s = .next t ∧ t.fld (LANE_PRBS_CTL_PATTERN lane.toNat) = bitsOf v.toNat 5 4
        ∧ t.fld (LANE_PRBS_CTL_CHK_EN lane.toNat) = bitsOf v.toNat 1 1 ∧ t.fld (LANE_PRBS_CTL_GEN_EN lane.toNat) = bitsOf v.toNat 0 0
        ∧ (bitAt v.toNat 1 = false → t.fld (LANE_PRBS_CTL_CHK_LOCK lane.toNat) = 0)
        ∧ (t.fld (LANE_PRBS_CTL_INJECT lane.toNat) = 1 ↔ bitAt v.toNat 0 = true ∧ (bitAt v.toNat 9 = true ∨ s.on (LANE_PRBS_CTL_INJECT lane.toNat) = true))
        ∧ (t.lane lane.toNat).squelch = !bitAt v.toNat 0
        ∧ (t.lane lane.toNat).gen = (if s.on (LANE_PRBS_CTL_GEN_EN lane.toNat) = true ∧ s.fld (LANE_PRBS_CTL_PATTERN lane.toNat) = bitsOf v.toNat 5 4 then (s.lane lane.toNat).gen else BitVec.allOnes 31)
        ∧ (t.lane lane.toNat).chkRun = (if bitAt v.toNat 1 = true ∧ s.on (LANE_PRBS_CTL_CHK_EN lane.toNat) = true then (s.lane lane.toNat).chkRun else 0)
        ∧ { t.lane lane.toNat with squelch := (s.lane lane.toNat).squelch, gen := (s.lane lane.toNat).gen, chk := (s.lane lane.toNat).chk, chkRun := (s.lane lane.toNat).chkRun } = s.lane lane.toNat
        ∧ (∀ l, l ≠ lane.toNat → t.lane l = s.lane l)
        ∧ regsBut [(LANE_PRBS_CTL lane.toNat).off] s t ∧ taken via [.lanes] s t)
    ∧ (∀ lane : BitVec 8, s.takes via .lane = true → lane.toNat < 8 * s.nPorts → s.reg (LANE_PRBS_CTL lane.toNat).off &&& 0x333 = s.reg (LANE_PRBS_CTL lane.toNat).off →
      s.on (LANE_PRBS_CTL_GEN_EN lane.toNat) = true → (s.locked = true ∨ s.role (lane.toNat / 8) = 0 ∨ s.fld (PORT_LINK_CFG_LINK_EN (lane.toNat / 8)) = 0) →
      ∃ t, exec (.prbsInject via lane) s = .next t ∧ t.fld (LANE_PRBS_CTL_PATTERN lane.toNat) = s.fld (LANE_PRBS_CTL_PATTERN lane.toNat)
        ∧ t.fld (LANE_PRBS_CTL_CHK_EN lane.toNat) = s.fld (LANE_PRBS_CTL_CHK_EN lane.toNat) ∧ t.fld (LANE_PRBS_CTL_GEN_EN lane.toNat) = 1
        ∧ t.fld (LANE_PRBS_CTL_INJECT lane.toNat) = 1 ∧ regsBut [(LANE_PRBS_CTL lane.toNat).off] s t ∧ taken via [.lanes] s t)
    ∧ (∀ port : BitVec 5, s.takes via .port = true → s.legal (PORT_LINK_CFG port.toNat).off v.toNat = true →
      ((∀ m < 8, s.lst port.toNat m = 0) ∨ bitsOf (s.reg (PORT_LINK_CFG port.toNat).off) 5 0 = bitsOf v.toNat 5 0) →
      ∃ t, exec (.portLinkCfgWrite via port v) s = .next t ∧ t.reg (PORT_LINK_CFG port.toNat).off = v.toNat ∧ taken via [.links, .lanes, .sw] s t)
    ∧ (∀ (port : BitVec 5) (vc : BitVec 3), vc.toNat < 5 → s.takes via .port = true → s.legal (PORT_CRED_INIT port.toNat vc.toNat).off v.toNat = true → s.portBusy port.toNat = false →
      (s.setReg (PORT_CRED_INIT port.toNat vc.toNat).off v.toNat).poolOk = true →
      ∃ t, exec (.portCredInitWrite via port vc v) s = .next t ∧ t.reg (PORT_CRED_INIT port.toNat vc.toNat).off = v.toNat
        ∧ regsBut [(PORT_CRED_INIT port.toNat vc.toNat).off] s t ∧ taken via [] s t)
    ∧ (∀ port : BitVec 5, s.takes via .port = true → s.legal (PORT_ROLE port.toNat).off v.toNat = true → s.portBusy port.toNat = false → s.pairRouted (port.toNat / 2) = false →
      s.portClocked port.toNat = true → (s.setReg (PORT_ROLE port.toNat).off v.toNat).poolOk = true →
      ∃ t, exec (.portRoleWrite via port v) s = .next t ∧ t.role port.toNat = v.toNat ∧ taken via [.links, .lanes, .sw] s t)
    ∧ (∀ port : BitVec 5, s.takes via .port = true → s.legal (PORT_CFG port.toNat).off v.toNat = true → s.portBusy port.toNat = false →
      ∃ t, exec (.portCfgWrite via port v) s = .next t ∧ t.reg (PORT_CFG port.toNat).off = v.toNat ∧ taken via [.links, .sw] s t)

/-- Writes of the identity and the routes (R152, R168, R173): the register then reads the word; an opening request is added to those that
stand. -/
def Obligations.RouteWrites : Prop :=
  ∀ (via : Path) (v : BitVec 32) (s : State),
    (s.takes via .glb = true → s.legal GLB_DID.off v.toNat = true →
      ∃ t, exec (.glbDidWrite via v) s = .next t ∧ t.fld GLB_DID_DID = bitsOf v.toNat 11 0 ∧ t.fld GLB_DID_STRAP_DID = s.fld GLB_DID_STRAP_DID ∧ taken via [.links, .sw] s t)
    ∧ (∀ (d : Dim) (n : BitVec 4), s.takes via .rt = true → s.legal (0xC100 + 0x40 * dimIx d + 4 * n.toNat) v.toNat = true →
      (∀ k < 16, bitAt v.toNat 31 = true → bitAt v.toNat k = true → s.pairFits (dimIx d) k = true ∧ s.portBusy (2 * k) = false ∧ s.portBusy (2 * k + 1) = false) →
      s.on (rtValid (dimIx d) n.toNat) = false →
      ∃ t, exec (.routeEntryWrite via d n v) s = .next t ∧ t.reg (0xC100 + 0x40 * dimIx d + 4 * n.toNat) = v.toNat
        ∧ regsBut [0xC100 + 0x40 * dimIx d + 4 * n.toNat] s t ∧ taken via [] s t)
    ∧ (∀ d : Dim, s.takes via .rt = true → s.legal (RT_MEMBERS (dimIx d)).off v.toNat = true → (∀ p < 32, s.role p = 4 - dimIx d → s.portBusy p = false) →
      ∃ t, exec (.rtMembersWrite via d v) s = .next t ∧ t.reg (RT_MEMBERS (dimIx d)).off = v.toNat ∧ taken via [.links, .sw] s t)
    ∧ (s.takes via .rt = true → s.legal RT_BYP_OPEN.off v.toNat = true →
      ∃ t, exec (.rtBypOpenWrite via v) s = .next t ∧ t.fld RT_BYP_OPEN_OPEN = s.fld RT_BYP_OPEN_OPEN ||| bitsOf v.toNat 15 0 ∧ regsBut [RT_BYP_OPEN.off] s t ∧ taken via [] s t)
    ∧ (s.takes via .glb = true → s.locked = false → s.ready = true →
      ∃ t, exec (.glbLockSet via) s = .next t ∧ t.locked = true ∧ t.fld OTP_STATUS_WINDOW = 0 ∧ (t.recd.snapBusy).isSome = true
        ∧ { t.recd with snapBusy := s.recd.snapBusy } = s.recd ∧ regsBut [GLB_LOCK.off, OTP_STATUS.off] s t ∧ taken via [.recd] s t)

/-- Writes of the Marl and of the memory map and channels (R226, R231, R237, R249, R266, R288): flush, quiesce, a new division, a new
map, a new PASR fraction (answered later), the mechanical profile, and the commit of staged rates. -/
def Obligations.MemoryWrites : Prop :=
  ∀ (via : Path) (v : BitVec 32) (s : State),
    (∀ inv : Bool, s.takes via .marl = true → s.locked = false → s.on MARL_STATUS_FLUSH_BUSY = false → s.on MARL_CTL_QUIESCE = false →
      ∃ t, exec (.marlFlushGo via inv) s = .next t ∧ t.fld MARL_STATUS_FLUSH_BUSY = 1 ∧ t.marl.flush = some inv ∧ t.marl.flushRing0 = false
        ∧ (∀ e ∈ s.marl.lines, e.2.st = .dirty → s.lineFenced e.1 = false → (e.1, { e.2 with flushMark := true }) ∈ t.marl.lines)
        ∧ (inv = true → ∀ e ∈ t.marl.lines, e.2.st ≠ .clean) ∧ regsBut [MARL_STATUS.off] s t ∧ taken via [.marl] s t)
    ∧ (s.takes via .marl = true → s.locked = false → s.on MARL_CTL_QUIESCE = false → s.on MARL_STATUS_FLUSH_BUSY = false → (∀ n, 1 ≤ n → n < 64 → s.unfinished n = false) →
      ∃ t, exec (.quiesceSet via) s = .next t ∧ t.fld MARL_CTL_QUIESCE = 1 ∧ regsBut [MARL_CTL.off] s t ∧ taken via [] s t)
    ∧ (s.takes via .marl = true → s.locked = false → s.on MARL_STATUS_PART_BUSY = false →
      ∃ t, exec (.quiesceClear via) s = .next t ∧ t.fld MARL_CTL_QUIESCE = 0 ∧ t.fld MARL_STATUS_QUIESCED = 0 ∧ regsBut [MARL_CTL.off, MARL_STATUS.off] s t ∧ taken via [] s t)
    ∧ (s.takes via .marl = true → s.legal MARL_PART.off v.toNat = true → s.on MARL_STATUS_QUIESCED = true → s.on MARL_STATUS_PART_BUSY = false →
      (s.setReg MARL_PART.off v.toNat).poolOk = true →
      ∃ t, exec (.marlPartWrite via v) s = .next t ∧ t.fld MARL_STATUS_PART_BUSY = 1 ∧ t.marl = { s.marl with newPart := some v } ∧ regsBut [MARL_STATUS.off] s t ∧ taken via [.marl] s t)
    ∧ (s.takes via .glb = true → s.legal GLB_MEM_CFG.off v.toNat = true → s.locked = false → s.on MARL_STATUS_QUIESCED = true → s.on MARL_STATUS_PART_BUSY = false → s.rebuilding = false →
      (∀ e ∈ s.marl.lines, e.2.st ≠ .dirty) →
      ∃ t, exec (.glbMemCfgWrite via v) s = .next t ∧ t.reg GLB_MEM_CFG.off = v.toNat ∧ t.marl.lines = [] ∧ t.chan.dram = [] ∧ t.sett.rebuild = []
        ∧ t.sett.mapRec.isSome = true ∧ (∀ c < 32, t.fld (CHAN_STATUS_RETIRED c) = 0 ∧ t.reg (CHAN_REBUILD c).off = s.reg (CHAN_REBUILD c).off ∧ t.reg (CHAN_REBUILD_PTR c).off = s.reg (CHAN_REBUILD_PTR c).off)
        ∧ t.fox = { s.fox with ckpActive := { base := true }, ckpFrozen := {} } ∧ t.fld CVU_CKP_STATUS_ALL_DIRTY = 1 ∧ taken via [.marl, .chan, .sett, .prot, .fox] s t)
    ∧ (∀ c : BitVec 5, s.takes via .chan = true → s.legal (CHAN_PASR c.toNat).off v.toNat = true → s.nChans ≤ c.toNat →
      ∃ t, exec (.chanPasrWrite via c v) s = .next t ∧ t = (s.inc GLB_CNT_VIOL_RANGE).pathStatus via stRANGE)
    ∧ (∀ c : BitVec 5, s.takes via .chan = true → s.legal (CHAN_PASR c.toNat).off v.toNat = true → c.toNat < s.nChans → s.pasrRefused c.toNat = false →
      ∃ t, exec (.chanPasrWrite via c v) s = .next t ∧ t.fld (CHAN_STATUS_STATE c.toNat) = 5 ∧ (t.chn c.toNat).pasrNew = some (v.toNat % 8) ∧ (t.chn c.toNat).pasrAsker = some (.reg via)
        ∧ t.acc = { s.acc with owed := s.acc.owed ++ [{ off := (CHAN_PASR c.toNat).off, via := via, hdr := none }] } ∧ only [.regs, .chan, .acc] s t)
    ∧ (s.takes via .vcp = true → s.legal VCP_MECH.off v.toNat = true → (s.phase = 3 ∨ s.phase = 0xA) →
      ∃ t, exec (.vcpMechWrite via v) s = .next t ∧ t.fld VCP_MECH_PROFILE = bitsOf v.toNat 1 0 ∧ t.fld VCP_MECH_FUSED = s.fld VCP_MECH_FUSED ∧ regsBut [VCP_MECH.off] s t ∧ taken via [] s t)
    ∧ (s.takes via .qos = true → s.locked = false → s.ready = true →
      (∀ g < 64, (groupClasses s.stagedMap g).eraseDups.length ≤ 1) →
      ∃ t, exec (.qosCommitGo via) s = .next t ∧ t.fld QOS_COMMIT_STATUS_VALID = 1 ∧ t.fld QOS_COMMIT_STATUS_RESULT_SEQ = (s.fld QOS_COMMIT_STATUS_RESULT_SEQ + 1) % 256
        ∧ t.fld QOS_COMMIT_STATUS_RESULT = (if s.qos.d < 200 * committedSum s.stagedMap s.stagedRate then 0x0A else 0))

/-- Writes of RING_CTL (R297, R299, R312): ENABLE takes an OFF ring to ACTIVE with indices 0, RESUME a halted one with its halt cause
cleared; RESET ends an ACTIVE ring without work at once. After GLB_LOCK only ring 0 over the sideband or JTAG may. -/
def Obligations.RingWrites : Prop :=
  ∀ (via : Path) (n : BitVec 6) (s : State), s.takes via .ring = true → (s.locked = true → n = 0 ∧ via ≠ .mreg) →
    (s.ringSt n.toNat = 0 →
      ∃ t, exec (.ringEnable via n) s = .next t ∧ t.ringSt n.toNat = 1 ∧ t.fld (RING_SQ_IDX n.toNat) = 0 ∧ t.fld (RING_SQ_PROD n.toNat) = 0 ∧ t.fld (RING_CQ_TAIL n.toNat) = 0
        ∧ t.ring n.toNat = {} ∧ (∀ m, m ≠ n.toNat → t.ring m = s.ring m) ∧ taken via [.rings] s t)
    ∧ (s.ringSt n.toNat = 2 →
      ∃ t, exec (.ringResumeCmd via n) s = .next t ∧ t.ringSt n.toNat = 1 ∧ t.fld (RING_STATUS_HALT_CAUSE n.toNat) = 0 ∧ t.fld (RING_STATUS_HALT_STATUS n.toNat) = 0
        ∧ (t.ring n.toNat).cplHeld = false ∧ (t.ring n.toNat).descs = (s.ring n.toNat).descs ∧ (t.ring n.toNat).cpls = (s.ring n.toNat).cpls)
    ∧ (s.ringSt n.toNat = 1 → (s.ring n.toNat).descs = [] → (s.ring n.toNat).cpls = [] → (s.ring n.toNat).cplBusy = 0 →
      ∃ t, exec (.ringResetCmd via n) s = .next t ∧ t.ringSt n.toNat = 0 ∧ (t.ring n.toNat).slots = [] ∧ (t.ring n.toNat).fetching = 0)

/-- Writes of the Fox and check-value blocks (R321, R354, R361, R362): four image bytes go to the load address, which moves on; GO;
ENABLE; the test unit takes its context, is fed and released; TRACK sets the whole active map. -/
def Obligations.FoxWrites : Prop :=
  ∀ (via : Path) (v : BitVec 32) (s : State),
    (s.pathUp via = true → (via = .mreg ∨ s.pathLimited = false) → s.calm = true → s.sbOpen = true → s.locked = false →
      (∃ t, exec (.foxSbDataWrite via v) s = .next t ∧ t.reg FOX_SB_ADDR.off = (s.fld FOX_SB_ADDR % 2 ^ 20 + 4) % 2 ^ 20
        ∧ (∀ i < 4, mget t.fox.sbImage (s.fld FOX_SB_ADDR % 2 ^ 20 + i) = some (BitVec.ofNat 8 (v.toNat / 256 ^ i)))
        ∧ (∀ a, a < s.fld FOX_SB_ADDR % 2 ^ 20 ∨ s.fld FOX_SB_ADDR % 2 ^ 20 + 4 ≤ a → mget t.fox.sbImage a = mget s.fox.sbImage a)
        ∧ { t.fox with sbImage := s.fox.sbImage } = s.fox ∧ regsBut [FOX_SB_ADDR.off] s t ∧ taken via [.fox] s t)
      ∧ ∃ t, exec (.foxSbGo via) s = .next t ∧ t.fld FOX_SB_CTL_GO = 1 ∧ regsBut [FOX_SB_CTL.off] s t ∧ taken via [] s t)
    ∧ (∀ e : BitVec 5, s.takes via .fox = true → s.legal (FOX_CTL e.toNat).off v.toNat = true →
      (v.toNat = 1 → e.toNat < s.nEngines ∧ (s.fld (FOX_CTL_ENABLE e.toNat) = 1 ∨ s.engClocked e.toNat = true)) →
      ∃ t, exec (.foxCtlWrite via e v) s = .next t ∧ t.fld (FOX_CTL_ENABLE e.toNat) = v.toNat ∧ regsBut [(FOX_CTL e.toNat).off] s t ∧ taken via [] s t)
    ∧ (s.takes via .cvu = true → s.locked = false →
      ((s.cvu 15).held = false → ctxOk s.testCtx false = true →
        ∃ t, exec (.cvuTestStart via) s = .next t ∧ (t.cvu 15).held = true ∧ (t.cvu 15).test = true ∧ (t.cvu 15).poly = byteAt s.testCtx 8
          ∧ (t.cvu 15).reg = BitVec.ofNat 64 (cvuLoad s.testCtx 0) ∧ (∀ u, u ≠ 15 → t.cvu u = s.cvu u) ∧ regsBut [] s t ∧ taken via [.fox] s t)
      ∧ (s.testHeld = true →
        (∃ t, exec (.cvuTestRelease via) s = .next t ∧ (t.cvu 15) = { s.cvu 15 with held := false, test := false } ∧ (∀ u, u ≠ 15 → t.cvu u = s.cvu u) ∧ regsBut [] s t ∧ taken via [.fox] s t)
        ∧ (∃ t, exec (.cvuTestDataWrite via v) s = .next t ∧ (t.cvu 15) = { s.cvu 15 with reg := BitVec.ofNat 64 (cvuFeedAll (s.cvu 15).poly (s.cvu 15).reg.toNat (leBytes 4 v.toNat)) }
          ∧ (∀ u, u ≠ 15 → t.cvu u = s.cvu u) ∧ regsBut [] s t ∧ taken via [.fox] s t)
        ∧ (v.toNat < 256 → ∃ t, exec (.cvuTestData1Write via v) s = .next t
          ∧ (t.cvu 15) = { s.cvu 15 with reg := BitVec.ofNat 64 (cvuFeedAll (s.cvu 15).poly (s.cvu 15).reg.toNat [BitVec.ofNat 8 v.toNat]) }
          ∧ (∀ u, u ≠ 15 → t.cvu u = s.cvu u) ∧ regsBut [] s t ∧ taken via [.fox] s t)))
    ∧ (s.takes via .cvu = true → s.legal CVU_CKP_CTL.off v.toNat = true →
      ∃ t, exec (.ckpTrackWrite via v) s = .next t ∧ t.fld CVU_CKP_CTL_TRACK = v.toNat
        ∧ (v.toNat = 1 → t.fox.ckpActive = { base := true, flip := [] }) ∧ (v.toNat = 0 → t.fox = s.fox) ∧ t.fox.ckpFrozen = s.fox.ckpFrozen
        ∧ regsBut [CVU_CKP_CTL.off] s t ∧ taken via [.fox] s t)

/-- Writes of protection, fault, recorder and thermal registers (R384, R391, R407, R408, R417, R430, R445): a log entry is freed; the
patrol set and its settings; an open record in WAIT is held, or a record is closed; a checker is armed; the Sett window moves; limits
change. That a freed log entry reads 0 in all its fields is the model's choice (log entry 76). -/
def Obligations.ServiceWrites : Prop :=
  ∀ (via : Path) (v : BitVec 32) (s : State),
    (∀ (c : BitVec 5) (n : BitVec 4), s.takes via .chan = true → c.toNat < s.nChans →
      ∃ t, exec (.ceLogFree via (.chan c) n) s = .next t ∧ t.reg (CHAN_CE_LOG c.toNat n.toNat).off = 0 ∧ regsBut [(CHAN_CE_LOG c.toNat n.toNat).off] s t ∧ taken via [] s t)
    ∧ (∀ n : BitVec 4, n.toNat < 8 → s.takes via .marl = true →
      ∃ t, exec (.ceLogFree via .marl n) s = .next t ∧ t.reg (MARL_CE_LOG n.toNat).off = 0 ∧ regsBut [(MARL_CE_LOG n.toNat).off] s t ∧ taken via [] s t)
    ∧ (s.takes via .bst = true → s.legal BST_BADGER_CHAN_EN.off v.toNat = true → s.patrolOk v.toNat = true →
      ∃ t, exec (.badgerRegWrite via true v) s = .next t ∧ t.reg BST_BADGER_CHAN_EN.off = v.toNat ∧ regsBut [BST_BADGER_CHAN_EN.off] s t ∧ taken via [.prot] s t)
    ∧ (s.takes via .bst = true → s.legal BST_BADGER_CFG.off v.toNat = true → s.patrolOk (s.reg BST_BADGER_CHAN_EN.off) = true →
      ∃ t, exec (.badgerRegWrite via false v) s = .next t ∧ t.reg BST_BADGER_CFG.off = v.toNat ∧ regsBut [BST_BADGER_CFG.off] s t ∧ taken via [] s t)
    ∧ (∀ d seq : BitVec 8, s.takes via .flt = true → (s.locked = true → via ≠ .mreg) → domListed d.toNat = true → (s.fltRec d.toNat).isOpen = true → (s.fltRec d.toNat).seq = seq →
      ((s.fltRec d.toNat).st = .wait →
        ∃ t, exec (.fltAckHold via d seq) s = .next t ∧ t.fltRec d.toNat = { s.fltRec d.toNat with st := .held, timerOn := false, timerEnd := none }
          ∧ (∀ e, e ≠ d.toNat → t.fltRec e = s.fltRec e) ∧ t.fld FLT_ACK_STATUS_VALID = 1 ∧ t.fld FLT_ACK_STATUS_RESULT = 0
          ∧ t.fld FLT_ACK_STATUS_RESULT_SEQ = (s.fld FLT_ACK_STATUS_RESULT_SEQ + 1) % 256 ∧ regsBut [FLT_ACK_STATUS.off] s t ∧ taken via [.flt] s t)
      ∧ ∃ t, exec (.fltAckClose via d seq) s = .next t ∧ (t.fltRec d.toNat).isOpen = false ∧ (t.fltRec d.toNat).st = .closed
          ∧ (∀ e, e ≠ d.toNat → t.fltRec e = s.fltRec e) ∧ t.fld FLT_ACK_STATUS_VALID = 1 ∧ t.fld FLT_ACK_STATUS_RESULT = 0
          ∧ t.fld FLT_ACK_STATUS_RESULT_SEQ = (s.fld FLT_ACK_STATUS_RESULT_SEQ + 1) % 256 ∧ taken via [.flt, .recd, .sett] s t)
    ∧ (s.takes via .flt = true → s.legal FLT_INJ.off v.toNat = true → s.locked = false → bitsOf v.toNat 5 0 < s.injUnits (bitsOf v.toNat 31 28) → s.on FLT_CFG_INJ_EN = true →
      s.flt.inject = none →
      ∃ t, exec (.fltInjWrite via v) s = .next t
        ∧ t.flt.inject = (if bitsOf v.toNat 23 16 = 0 then none else some { checker := bitsOf v.toNat 31 28, ue := bitAt v.toNat 27, unit := bitsOf v.toNat 5 0, remaining := bitsOf v.toNat 23 16 })
        ∧ t.fld FLT_INJ_STATUS_REMAINING = bitsOf v.toNat 23 16 ∧ t.fld FLT_INJ_STATUS_ARMED = (if bitsOf v.toNat 23 16 = 0 then 0 else 1) ∧ t.fld FLT_INJ_STATUS_RESULT = 0
        ∧ t.flt.recs = s.flt.recs ∧ regsBut [FLT_INJ_STATUS.off] s t ∧ taken via [.flt] s t)
    ∧ (s.pathUp via = true → s.calm = true → s.legal REC_SETT_ADDR.off v.toNat = true →
      ∃ t, exec (.recSettAddrWrite via v) s = .next t ∧ t.fld REC_SETT_ADDR_WINDOW = bitsOf v.toNat REC_SETT_ADDR_WINDOW.hi REC_SETT_ADDR_WINDOW.lo
        ∧ regsBut [REC_SETT_ADDR.off] s t ∧ taken via [] s t)
    ∧ (∀ w : BitVec 2, w.toNat < 3 → s.takes via .thm = true → s.legal (THM_LIMITS.off + 4 * w.toNat) v.toNat = true →
      ∃ t, exec (.thmRegWrite via w v) s = .next t ∧ t.reg (THM_LIMITS.off + 4 * w.toNat) = v.toNat
        ∧ (∀ k < 3, k ≠ w.toNat → t.reg (THM_LIMITS.off + 4 * k) = s.reg (THM_LIMITS.off + 4 * k)) ∧ taken via [.recd, .sett] s t)

/-- The rails (R27, R32, R71, R102): VAON_GOOD is a power-on reset that leaves every register at its reset value and keeps the fuse array and
the Sett; a rail that becomes good or is lost is marked, the last one starts P1, the loss of VCORE past P0 is a warm reset, of VSTORE the
grave safe state without the Marl's contents; the loss of VFUSE closes the window. -/
def Obligations.RailCommands : Prop :=
  (∀ (straps : BitVec 12) (boot : BitVec 2) (tmode : Bool) (s : State), s.pins.perstN = false → s.fuse.run = none →
    ∃ t, exec (.vaonGood straps boot tmode) s = .next t ∧ t.rails = { s.rails with vaon := true }
      ∧ t.pins = { perstN := false, bypForceN := s.pins.bypForceN, idStrap := straps, bootMode := boot, tmode := tmode, thermtripLow := false }
      ∧ (∀ o, o ≠ GLB_DID.off → t.reg o = (resetValue o).toNat) ∧ t.fld GLB_DID_DID = straps.toNat ∧ t.fld GLB_DID_STRAP_DID = straps.toNat ∧ t.fuse.rows = s.fuse.rows ∧ t.sett = s.sett ∧ t.start.grave = false ∧ t.start.slowHold = false ∧ t.start.diagHold = false
      ∧ t.flt = {} ∧ t.sw = {} ∧ t.txns = [] ∧ t.rings = [] ∧ t.fox = {} ∧ t.links = [] ∧ t.lanes = [] ∧ t.pending = s.pending)
  ∧ (∀ s : State, (s.rails.vaon = true → exec (.railGood .vaon) s = .next s)
      ∧ (s.rails.vaon = false → exec (.railGood .vaon) s = exec (.vaonGood s.pins.idStrap s.pins.bootMode s.pins.tmode) s))
  ∧ (∀ (r : RailId) (s : State), s.pins.perstN = false → s.start.diagHold = false → r ≠ .vaon →
    ∃ t, exec (.railGood r) s = .next t ∧ railOf r t.rails = true ∧ (∀ q, q ≠ r → railOf q t.rails = railOf q s.rails) ∧ t.rails.vaon = s.rails.vaon
      ∧ only [.rails, .start, .marl, .chan] s t)
  ∧ (∀ (r : RailId) (s : State), s.phase = 0 → s.pins.perstN = true → s.rails.vaon = true → s.vaonHold = false → r ≠ .vaon → r ≠ .vfuse →
    (∀ q, q ≠ r → q ≠ .vfuse → railOf q s.rails = true) →
    ∃ t, exec (.railGood r) s = .next t ∧ railOf r t.rails = true ∧ t.phase = 1 ∧ t.start.p1At = s.now ∧ t.start.boot = s.pins.bootMode ∧ t.pins = s.pins
      ∧ ((∀ e ∈ s.fuse.rows, e.2.sl = e.2.sh) → t.fuse.rows = s.fuse.rows))
  ∧ (∀ (r : RailId) (s : State), s.phase = 0 → r ≠ .vaon → s.start.lostAt ≠ some s.now →
    ∃ t, exec (.railLost r) s = .next t ∧ railOf r t.rails = false ∧ (∀ q, q ≠ r → railOf q t.rails = railOf q s.rails) ∧ t.rails.vaon = s.rails.vaon ∧ t.phase = 0
      ∧ only [.rails, .start, .marl, .chan, .vcp, .fuse, .regs, .free, .sett, .recd] s t)
  ∧ (∀ s : State, s.rails.vaon = true → s.fuse.run = none →
    ∃ t, exec (.railLost .vaon) s = .next t ∧ t.rails = { s.rails with vaon := false } ∧ (∀ o, t.reg o = (resetValue o).toNat) ∧ t.start.railLost = (s.start.railLost || s.phase != 0)
      ∧ t.start.grave = false ∧ t.fuse.rows = s.fuse.rows ∧ t.sett = s.sett ∧ t.sw = {} ∧ t.txns = [] ∧ t.pending = s.pending)
  ∧ (∀ s : State, s.rails.vaon = true → s.rails.vcore = true → s.phase ≠ 0 → s.vaonHold = false → s.fuse.run = none →
    ∃ t, exec (.railLost .vcore) s = .next t ∧ t.rails = { s.rails with vcore := false } ∧ t.phase = 0 ∧ t.fld RST_CAUSE_VCORE_LOST = 1 ∧ t.fld RST_CAUSE_POR = 0
      ∧ t.fld RST_CAUSE_WARM_COUNT = min 0xFFFF (s.fld RST_CAUSE_WARM_COUNT + 1) ∧ t.fld RST_CAUSE_LAST_PHASE = s.phase ∧ t.start.railLost = true
      ∧ t.fuse = s.fuse ∧ t.sett = s.sett ∧ t.pins = s.pins ∧ t.sw = {} ∧ t.txns = [] ∧ t.pending = s.pending)
  ∧ (∀ s : State, s.rails.vaon = true → s.rails.vstore = true → s.phase ≠ 0 →
    ∃ t, exec (.railLost .vstore) s = .next t ∧ t.rails = { s.rails with vstore := false } ∧ t.start.grave = true ∧ t.start.frozen = false ∧ t.marl.lines = [] ∧ t.marl.image = [])
  ∧ (∀ s : State, ∃ t, exec .vfuseLost s = .next t ∧ t.rails = { s.rails with vfuse := false } ∧ t.fld OTP_STATUS_WINDOW = 0
      ∧ (s.fld OTP_STATUS_WINDOW = 1 → ∀ r, s.fuse.run = some r → t.fuse.run = none ∧ t.fld OTP_STATUS_RESULT = 6 ∧ t.fld OTP_STATUS_LAST_OP = r.op % 16 ∧ t.fld OTP_STATUS_BUSY = 0)
      ∧ ((∀ r, s.fuse.run = some r → r.op ≠ 5) → regsBut [OTP_STATUS.off] s t) ∧ only [.rails, .regs, .fuse, .free, .sett, .recd] s t)

/-- PERST_N and BYP_FORCE_N (R62, R72, R172): the fall of PERST_N is a warm reset that keeps the counters, or only marks the pin where a hold
is in force that only VAON ends; its rise in P0 with power-good starts P1; BYP_FORCE_N low closes every pair. -/
def Obligations.PinCommands : Prop :=
  (∀ s : State, s.rails.vaon = false ∨ s.pins.perstN = false ∨ s.vaonHold = true →
    exec .perstNLow s = .next { s with pins := { s.pins with perstN := false } })
  ∧ (∀ s : State, s.rails.vaon = true → s.pins.perstN = true → s.vaonHold = false → s.fuse.run = none →
    ∃ t, exec .perstNLow s = .next t ∧ t.pins = { s.pins with perstN := false } ∧ t.phase = 0 ∧ t.fld RST_CAUSE_PERST = 1 ∧ t.fld RST_CAUSE_POR = 0
      ∧ t.fld RST_CAUSE_WARM_COUNT = min 0xFFFF (s.fld RST_CAUSE_WARM_COUNT + 1) ∧ t.fld RST_CAUSE_LAST_PHASE = s.phase
      ∧ t.fld GLB_DID_DID = s.pins.idStrap.toNat ∧ t.fld GLB_DID_STRAP_DID = s.pins.idStrap.toNat
      ∧ (∀ o d, descOf o = some d → d.cls = .counter → o ≠ RT_BYP_CLOSES.off → t.reg o = s.reg o)
      ∧ t.fld RT_BYP_CLOSES = (s.fld RT_BYP_CLOSES + ((List.range 16).filter fun k => !s.pairClosed k).length) % 2 ^ 32
      ∧ t.rails = s.rails ∧ t.fuse = s.fuse ∧ t.sett = s.sett ∧ t.recd.opSec = s.recd.opSec ∧ t.recd.pwr = s.recd.pwr ∧ t.recd.rseq = s.recd.rseq
      ∧ t.sw = {} ∧ t.txns = [] ∧ t.rings = [] ∧ t.fox = {} ∧ t.links = [] ∧ t.pending = s.pending)
  ∧ (∀ s : State, s.phase ≠ 0 ∨ s.powerGood = false ∨ s.vaonHold = true →
    exec .perstNHigh s = .next { s with pins := { s.pins with perstN := true } })
  ∧ (∀ s : State, s.phase = 0 → s.powerGood = true → s.vaonHold = false →
    ∃ t, exec .perstNHigh s = .next t ∧ t.pins = { s.pins with perstN := true } ∧ t.phase = 1 ∧ t.fld GLB_START_STATUS_START_MS = 0 ∧ t.start.p1At = s.now
      ∧ t.start.boot = s.pins.bootMode ∧ ((∀ e ∈ s.fuse.rows, e.2.sl = e.2.sh) → t.fuse.rows = s.fuse.rows) ∧ t.rails = s.rails)
  ∧ (∀ s : State, ∃ t, exec .bypForceNLow s = .next t ∧ t.pins = { s.pins with bypForceN := false } ∧ (∀ k < 16, t.pairClosed k = true)
      ∧ only [.pins, .regs, .links, .lanes, .sw] s t)

/-- The start-up phases (R62, R64, R67, R68): P1 gives way to P2, which starts the fast RC with no source qualified; P2 goes on waiting until its
steps are done, and ends in DIAG_HALT where BOOT_MODE asks for it; P5 gives way to P6; P7 waits for the sideband image; cold hold ends in
SETUP_HOLD or P4; GO ends SETUP_HOLD. -/
def Obligations.StartupCommands : Prop :=
  (∀ (r : PhaseRes) (s : State), s.dead = false → s.phase = 1 →
    ∃ t, exec (.startPhaseEnd r) s = .next t ∧ t.phase = 2 ∧ t.clk.frcRunning = true ∧ t.clk.p2Step = 1 ∧ t.clk.frcTrim = s.fuse.frcTrim ∧ t.clk.slowTrim = s.fuse.slowTrim
      ∧ t.reg CLK_SRC_STATUS.off = 0 ∧ t.reg CLK_PLL_STATUS.off = 0 ∧ regsBut [GLB_START_STATUS.off, CLK_SRC_STATUS.off, CLK_PLL_STATUS.off] s t ∧ only [.clk, .regs] s t)
  ∧ (∀ (r : PhaseRes) (s : State), s.dead = false → s.phase = 2 →
    (s.clk.p2Step < 7 → exec (.startPhaseEnd r) s = .next s)
    ∧ (7 ≤ s.clk.p2Step → s.start.boot = 3 → ∃ t, exec (.startPhaseEnd r) s = .next t ∧ t.phase = 0xB ∧ t.start = { s.start with diagHold := true } ∧ only [.start, .regs, .recd, .sett] s t))
  ∧ (∀ (r : PhaseRes) (s : State), s.dead = false → s.phase = 5 →
    (∃ t, exec (.startPhaseEnd r) s = .next t ∧ (t.phase = 6 ∨ t.start.grave = true)) ∧ ∃ t, exec (.phaseTimerExpiry r) s = .next t ∧ (t.phase = 6 ∨ t.start.grave = true))
  ∧ (∀ (r : PhaseRes) (s : State), s.dead = false → s.phase = 7 → s.start.boot = 2 → s.fld FOX_SB_CTL_GO = 0 →
    exec (.startPhaseEnd r) s = .next s ∧ exec (.phaseTimerExpiry r) s = .next s)
  ∧ (∀ s : State, s.dead = false → s.phase = 9 → s.start.dramLost = false → (∀ n < s.nSensors, s.works n = true → 4 * signedByte (s.fld THM_LOW_LOW_STOP) + 12 ≤ (s.sensor n).reading) →
    ∃ t, exec .coldHoldExit s = .next t ∧ t.phase = (if s.start.coldNext = 3 ∧ s.start.boot = 1 then 0xA else 4) ∧ t.start.coldNext = 0
      ∧ regsBut [GLB_START_STATUS.off] s t ∧ only [.start, .regs] s t)
  ∧ (∀ (via : Path) (s : State), s.takes via .glb = true → s.dead = false → s.locked = false → s.phase = 0xA → s.start.dramLost = false →
    ∃ t, exec (.startGo via) s = .next t ∧ t.phase = 4 ∧ t.fld GLB_START_CTL_GO = 1 ∧ regsBut [GLB_START_CTL.off, GLB_START_STATUS.off] s t ∧ taken via [.start] s t)

/-- The fast RC and the references (R40, R41, R43, R45 to R47, R50): a count inside the window passes, a failed attempt moves the trim by one step,
the ninth failure ends the qualification; the fourth good window of a driven input qualifies it and makes it the active reference where none
was; a failed reference gives way to the standby or to holdover; the end of holdover forces; a wake without a reference is of class G. -/
def Obligations.ReferenceCommands : Prop :=
  (∀ (n : Nat) (s : State), s.clk.frcRunning = true → s.rails.vaon = true → 367188 ≤ n → n ≤ 414063 →
    ∃ t, exec (.frcAttemptEnd (some n)) s = .next t ∧ t.fld CLK_SRC_STATUS_FRC_OK = 1 ∧ t.fld CLK_SRC_STATUS_FRC_FAILED = 0 ∧ t.fld CLK_SRC_STATUS_FRC_TRIM_STEPS = s.clk.frcTries % 16
      ∧ t.fld CLK_SRC_STATUS_MGT_SRC = (if s.fld CLK_SRC_STATUS_MGT_SRC = 0 then 1 else s.fld CLK_SRC_STATUS_MGT_SRC) ∧ t.clk.frcRunning = false ∧ t.clk.p2Step = max s.clk.p2Step 3
      ∧ t.clk.frcTrim = s.clk.frcTrim ∧ regsBut [CLK_SRC_STATUS.off] s t ∧ only [.clk, .regs] s t)
  ∧ (∀ (count : Option Nat) (s : State), s.clk.frcRunning = true → s.rails.vaon = true → (∀ n, count = some n → n < 367188 ∨ 414063 < n) →
    (s.clk.frcTries < 8 →
      ∃ t, exec (.frcAttemptEnd count) s = .next t ∧ t.clk.frcTries = s.clk.frcTries + 1 ∧ t.clk.frcRunning = true ∧ t.fld CLK_MON_STATUS_FRC_FAIL = 1 ∧ t.start = { s.start with frcFailSeen := true }
        ∧ t.clk.frcTrim.toNat = (if ∃ n, count = some n ∧ 414063 < n then s.clk.frcTrim.toNat - 1 else min 0x7F (s.clk.frcTrim.toNat + 1))
        ∧ regsBut [CLK_MON_STATUS.off] s t ∧ only [.clk, .start, .regs] s t)
    ∧ (8 ≤ s.clk.frcTries → s.phase ≠ 2 →
      ∃ t, exec (.frcAttemptEnd count) s = .next t ∧ t.clk.frcRunning = false ∧ t.fld CLK_SRC_STATUS_FRC_FAILED = 1 ∧ t.fld CLK_SRC_STATUS_FRC_TRIM_STEPS = 8 ∧ t.fld CLK_MON_STATUS_FRC_FAIL = 1
        ∧ t.clk.p2Step = max s.clk.p2Step 3 ∧ regsBut [CLK_MON_STATUS.off, CLK_SRC_STATUS.off] s t ∧ only [.clk, .start, .regs] s t)
    ∧ (8 ≤ s.clk.frcTries → s.phase = 2 → ∃ t, exec (.frcAttemptEnd count) s = .next t ∧ t.start.forcing = true ∧ t.fld CLK_SRC_STATUS_FRC_FAILED = 1 ∧ t.fld CLK_MON_STATUS_FORCED_SAFE = 1))
  ∧ (∀ s : State, s.fld CLK_PLL_STATUS_MGT_LOCK = 1 → s.fld CLK_SRC_STATUS_FRC_OK = 1 → 3 ≤ s.phase → s.calm = true →
    exec (.frcServiceCheck true) s = .next s
    ∧ ∃ t, exec (.frcServiceCheck false) s = .next t ∧ t.fld CLK_SRC_STATUS_FRC_OK = 0 ∧ t.fld CLK_MON_STATUS_FRC_FAIL = 1 ∧ t.clk.frcRunning = true ∧ t.clk.frcTries = 0)
  ∧ (∀ (b : Bool) (ad ax bd bx m : Nat) (s : State), s.rails.vaon = true → 3 ≤ s.clk.p2Step → s.start.slowHold = false → s.on (refEn b) = true → s.on (refEn !b) = false →
    s.fld (refOk b) = 0 → s.fld (refOk !b) = 0 → s.fld (refMode b) = 0 → s.clk.wins.length = 4 → s.clk.wins.getD (if b then 2 else 0) 0 = 3 →
    s.drivenMode (if b then bd else ad) = m → m ≠ 0 → s.fld CLK_SRC_STATUS_ACTIVE_REF = 0 → s.sleep ≠ 3 ∨ s.clk.wakeWait = true →
    ∃ t, exec (.refWindowEnd ad ax bd bx) s = .next t ∧ t.fld (refOk b) = 1 ∧ t.fld (refMode b) = m ∧ t.fld CLK_SRC_STATUS_ACTIVE_REF = (if b then 2 else 1)
      ∧ t.clk.p2Step = max s.clk.p2Step 4 ∧ t.clk.holdover = none ∧ (s.phase = 2 → t.start.forcing = false)
      ∧ regsBut [CLK_SRC_STATUS.off] s t ∧ only [.clk, .start, .regs] s t)
  ∧ (∀ (b : Bool) (s : State), s.rails.vaon = true → s.fld (refOk b) = 1 → s.calm = true →
    ∃ t, exec (.refMissingEdges b) s = .next t ∧ t.fld (refOk b) = 0 ∧ t.fld (refMode b) = 0 ∧ t.fld (if b then CLK_MON_STATUS_REFB_LOST else CLK_MON_STATUS_REFA_LOST) = 1
      ∧ (s.fld CLK_SRC_STATUS_ACTIVE_REF = refCode b → s.fld (refOk !b) = 1 → t.fld CLK_SRC_STATUS_ACTIVE_REF = refCode !b ∧ t.fld CLK_REF_SWITCHES = (s.fld CLK_REF_SWITCHES + 1) % 2 ^ 32)
      ∧ (s.fld CLK_SRC_STATUS_ACTIVE_REF = refCode b → s.fld (refOk !b) = 0 → t.clk.holdover = some (refCode b) ∧ t.fld CLK_SRC_STATUS_ACTIVE_REF = refCode b)
      ∧ (s.fld CLK_SRC_STATUS_ACTIVE_REF ≠ refCode b → t.fld CLK_SRC_STATUS_ACTIVE_REF = s.fld CLK_SRC_STATUS_ACTIVE_REF ∧ t.clk.holdover = s.clk.holdover))
  ∧ (∀ s : State, s.clk.holdover.isSome = true →
    ∃ t, exec .holdoverExpiry s = .next t ∧ t.fld CLK_SRC_STATUS_ACTIVE_REF = 0 ∧ t.fld CLK_MON_STATUS_ALL_REF_LOST = 1 ∧ t.start.forcing = true ∧ (3 ≤ s.phase → t.start.grave = true))
  ∧ (∀ s : State, s.clk.wakeWait = true → s.fld CLK_SRC_STATUS_ACTIVE_REF = 0 → s.phase = 8 → s.calm = true →
    ∃ t, exec .wakeRefTimeout s = .next t ∧ t.fld CLK_MON_STATUS_ALL_REF_LOST = 1 ∧ t.start.grave = true)

/-- The PLLs, the slow RC and the switch of MGT (R42, R44 to R46, R48, R51): a lock shows in its bit and PLL_MGT takes MGT over; the loss of a core
PLL forces, that of PLL_FOX or an LPLL is marked; PLL_FOX relocks; the slow RC passes or forces; a switch ends with the new source. -/
def Obligations.PllCommands : Prop :=
  (∀ s : State, s.rails.vaon = true → s.start.slowHold = false → s.fld CLK_SRC_STATUS_ACTIVE_REF ≠ 0 →
    (∃ t, exec (.pllLocked .mgt) s = .next t ∧ t.fld CLK_PLL_STATUS_MGT_LOCK = 1
      ∧ (s.fld CLK_SRC_STATUS_MGT_SRC = 0 ∨ s.fld CLK_SRC_STATUS_MGT_SRC = 2 →
        t.fld CLK_SRC_STATUS_MGT_SRC = 2 ∧ t.clk = { s.clk with switchTo := none, p2Step := max s.clk.p2Step 5 })
      ∧ (s.fld CLK_SRC_STATUS_MGT_SRC = 1 → t.fld CLK_SRC_STATUS_MGT_SRC = 1 ∧ t.clk = { s.clk with switchTo := some 2 })
      ∧ regsBut [CLK_PLL_STATUS.off, CLK_SRC_STATUS.off] s t ∧ only [.clk, .regs] s t)
    ∧ (∀ q : PllId × Fld, q ∈ [(.fab, CLK_PLL_STATUS_FAB_LOCK), (.chn, CLK_PLL_STATUS_CHN_LOCK), (.sto, CLK_PLL_STATUS_STO_LOCK)] →
      (s.clk.p2Step < 5 → exec (.pllLocked q.1) s = .next s)
      ∧ (5 ≤ s.clk.p2Step → ∃ t, exec (.pllLocked q.1) s = .next t ∧ t.fld q.2 = 1 ∧ regsBut [CLK_PLL_STATUS.off] s t ∧ only [.regs] s t))
    ∧ (s.clk.foxRelock = false → 5 ≤ s.clk.p2Step → ∃ t, exec (.pllLocked .fox) s = .next t ∧ t.fld CLK_PLL_STATUS_FOX_LOCK = 1 ∧ regsBut [CLK_PLL_STATUS.off] s t ∧ only [.regs] s t)
    ∧ (∀ j : BitVec 3, j.toNat < s.nPorts / 4 → 5 ≤ s.clk.p2Step → ∃ t, exec (.pllLocked (.lpll j)) s = .next t ∧ bitAt (t.fld CLK_PLL_STATUS_LPLL_LOCK) j.toNat = true ∧ only [.regs, .links, .lanes, .sw] s t)
    ∧ (∀ l : BitVec 5, 2 ≤ l.toNat → l.toNat ≤ s.topLayer → 4 ≤ s.phase →
      ∃ t, exec (.pllLocked (.layer l)) s = .next t ∧ bitAt (t.fld CLK_PLL_STATUS_LYR_LOCK) (l.toNat - 2) = true ∧ t.fld (VCP_LAYER_STATUS_PLL_LOCK (l.toNat - 2)) = 1
        ∧ regsBut [CLK_PLL_STATUS.off, (VCP_LAYER_STATUS (l.toNat - 2)).off] s t ∧ only [.regs] s t))
  ∧ (∀ (q : PllId × Fld) (s : State), q ∈ [(.mgt, CLK_PLL_STATUS_MGT_LOCK), (.fab, CLK_PLL_STATUS_FAB_LOCK), (.chn, CLK_PLL_STATUS_CHN_LOCK), (.sto, CLK_PLL_STATUS_STO_LOCK)] → s.fld q.2 = 1 →
    ∃ t, exec (.pllLockLost q.1) s = .next t ∧ t.fld q.2 = 0 ∧ t.fld CLK_MON_STATUS_CORE_UNLOCK = 1 ∧ t.fld CLK_MON_STATUS_FORCED_SAFE = 1 ∧ t.start.forcing = true ∧ (3 ≤ s.phase → t.start.grave = true))
  ∧ (∀ s : State, s.fld CLK_PLL_STATUS_FOX_LOCK = 1 → s.calm = true → s.sleep ≤ 1 →
    ∃ t, exec (.pllLockLost .fox) s = .next t ∧ t.fld CLK_PLL_STATUS_FOX_LOCK = 0 ∧ t.fld CLK_MON_STATUS_FOX_UNLOCK = 1 ∧ t.clk.foxRelock = true)
  ∧ (∀ (j : BitVec 3) (s : State), bitAt (s.fld CLK_PLL_STATUS_LPLL_LOCK) j.toNat = true → s.calm = true → s.sleep ≤ 1 →
    ∃ t, exec (.pllLockLost (.lpll j)) s = .next t ∧ bitAt (t.fld CLK_PLL_STATUS_LPLL_LOCK) j.toNat = false ∧ t.fld CLK_MON_STATUS_LPLL_UNLOCK = 1)
  ∧ (∀ s : State, s.clk.foxRelock = true → s.dead = false →
    exec (.foxPllRelockTry false) s = .next s ∧ ∃ t, exec (.foxPllRelockTry true) s = .next t ∧ t.fld CLK_PLL_STATUS_FOX_LOCK = 1 ∧ t.clk = { s.clk with foxRelock := false } ∧ only [.clk, .regs, .fox] s t)
  ∧ (∀ (n : Nat) (s : State), s.fld CLK_PLL_STATUS_MGT_LOCK = 1 → 5 ≤ s.clk.p2Step → s.start.grave = false → s.start.slowHold = false →
    (46875 ≤ n → n ≤ 50781 → ∃ t, exec (.slowRcCheck n) s = .next t ∧ t.fld CLK_SRC_STATUS_SLOW_OK = 1 ∧ (s.pllsLocked = true → t.clk.p2Step = max s.clk.p2Step 7)
      ∧ regsBut [CLK_SRC_STATUS.off] s t ∧ only [.clk, .regs] s t)
    ∧ (n < 46875 ∨ 50781 < n → ∃ t, exec (.slowRcCheck n) s = .next t ∧ t.fld CLK_SRC_STATUS_SLOW_OK = 0 ∧ t.fld CLK_MON_STATUS_SLOW_FAIL = 1 ∧ t.start.forcing = true
      ∧ (s.phase ≤ 2 → t.start.slowHold = true) ∧ (3 ≤ s.phase → t.start.grave = true)))
  ∧ (∀ (n : Nat) (s : State), s.clk.switchTo = some n → n < 4 →
    (∃ t, exec .clkSwitchRelease s = .next t ∧ t.fld CLK_SRC_STATUS_MGT_SRC = n ∧ t.clk = { s.clk with switchTo := none, p2Step := if n = 2 then max s.clk.p2Step 5 else s.clk.p2Step } ∧ regsBut [CLK_SRC_STATUS.off] s t ∧ only [.clk, .regs] s t)
    ∧ ∃ t, exec .clkSwitchTimeout s = .next t ∧ t.fld CLK_SRC_STATUS_MGT_SRC = n ∧ t.clk = { s.clk with switchTo := none, p2Step := if n = 2 then max s.clk.p2Step 5 else s.clk.p2Step } ∧ t.reg CLK_SWITCH_FORCED.off = (s.reg CLK_SWITCH_FORCED.off + 1) % 2 ^ 32
      ∧ only [.clk, .regs, .recd, .sett] s t)

/-- Boundaries and forced recalibration of a column (R262 to R264): with no spare switch waiting, a boundary moves the setting that the
rotation comes to by one tap, or with a forced recalibration the one that it comes to, which FREEZE does not stop; with FREEZE the rotation
stands still, and the residuals that were measured are kept all the same; a boundary that is forced draws its findings from free values
(log entry 80); a due recalibration starts on at most four columns and ends with the layer's temperatures noted. -/
def Obligations.CouplingCommands : Prop :=
  ∀ (c : BitVec 5) (m : Tap) (s : State),
    (s.live = true → s.calm = true → s.colOn c.toNat = true → (s.col c.toNat).testDrop = false → (s.col c.toNat).failed = [] → (s.col c.toNat).residSeen = [] →
      (m.resids = [] → m.cmd = none →
        ((s.col c.toNat).recal = false → s.fld VCP_CAL_CFG_FREEZE = 0 →
          ∃ t n w, exec (.couplingBoundary c m) s = .next t ∧ s.settingFrom c.toNat (s.col c.toNat).rotAt = (n, w)
            ∧ t.col c.toNat = { s.col c.toNat with
                codes := mput (settingAt n).1 (tapCode ((s.col c.toNat).code c.toNat (settingAt n).1) (settingAt n).2 m.up (Config.freeByte s.free 0)) (s.col c.toNat).codes,
                rotAt := n + 1, rotPos := (s.col c.toNat).rotPos + 1, laps := (s.col c.toNat).laps + b2n w, warned := (t.col c.toNat).warned }
            ∧ (∀ d, d ≠ c.toNat → t.col d = s.col d) ∧ only [.vcp, .regs, .free, .recd, .sett] s t)
        ∧ ((s.col c.toNat).recal = true →
          ∃ t, exec (.couplingBoundary c m) s = .next t ∧ (t.col c.toNat).recAt = (s.settingFrom c.toNat (s.col c.toNat).recAt).1 + 1 ∧ (t.col c.toNat).recal = true
            ∧ (t.col c.toNat).rotAt = (s.col c.toNat).rotAt ∧ (t.col c.toNat).rotPos = (s.col c.toNat).rotPos
            ∧ (∀ d, d ≠ c.toNat → t.col d = s.col d) ∧ only [.vcp, .regs, .free, .recd, .sett] s t))
      ∧ ((s.col c.toNat).recal = false → s.fld VCP_CAL_CFG_FREEZE = 1 → m.cmd = none → ∀ x : CoilRes, m.resids = [x] →
        ∃ t, exec (.couplingBoundary c m) s = .next t ∧ (t.col c.toNat).rotAt = (s.col c.toNat).rotAt ∧ (t.col c.toNat).rotPos = (s.col c.toNat).rotPos
          ∧ (∀ key, { (t.col c.toNat).code c.toNat key with resid := 0 } = { (s.col c.toNat).code c.toNat key with resid := 0 })
          ∧ (keyOk (layerOf c.toNat) (coilKey x.dir x.hop.toNat x.pos.toNat) = true →
            ((t.col c.toNat).code c.toNat (coilKey x.dir x.hop.toNat x.pos.toNat)).resid = x.resid
            ∧ (x.resid.toNat ≤ s.fld VCP_CAL_CFG_RESID_FAIL → (t.col c.toNat).residSeen = [])
            ∧ (s.fld VCP_CAL_CFG_RESID_FAIL < x.resid.toNat →
              (t.col c.toNat).residSeen = [(coilKey x.dir x.hop.toNat x.pos.toNat, (s.col c.toNat).laps, (s.col c.toNat).rotAt)]))
          ∧ (∀ d, d ≠ c.toNat → t.col d = s.col d) ∧ only [.vcp, .regs, .recd, .sett] s t)
      ∧ ((s.col c.toNat).recal = false → s.fld VCP_CAL_CFG_FREEZE = 0 →
        ∃ t, exec (.couplingBoundaryForced c) s = .next t ∧ (t.col c.toNat).rotPos = (s.col c.toNat).rotPos + 1 ∧ s.free + 3 ≤ t.free
          ∧ (∀ d, d ≠ c.toNat → t.col d = s.col d) ∧ only [.vcp, .chan, .regs, .free, .recd, .sett] s t))
    ∧ (s.awake = true → s.colOn c.toNat = true → (s.col c.toNat).recalDue = true → (s.col c.toNat).recal = false → s.recalsRunning < 4 →
      ∃ t, exec (.forcedRecal c) s = .next t ∧ t.col c.toNat = { s.col c.toNat with recal := true, recalDue := false, recAt := 0 } ∧ (∀ d, d ≠ c.toNat → t.col d = s.col d)
        ∧ t.reg VCP_RECAL_FORCED.off = (s.reg VCP_RECAL_FORCED.off + 1) % 2 ^ 32 ∧ regsBut [VCP_RECAL_FORCED.off] s t ∧ only [.vcp, .regs] s t)
    ∧ ((s.col c.toNat).recal = true → ∀ found : List CoilCal,
      ∃ t, exec (.forcedRecalDone c found) s = .next t ∧ (t.col c.toNat).recal = false ∧ (t.col c.toNat).calTemp = s.layerTemps (layerOf c.toNat))

/-- Heartbeats and silent layers (R73, R258 to R261): layer 1 freezes with its lines and the map in force; a layer that misses its heartbeat
enters self-refresh and is marked; it leaves it at EXIT_SR; a silent layer's heartbeats stop, a relock gives them back, a failed attempt is
counted; a layer not discovered in P4 is fenced. -/
def Obligations.HeartbeatCommands : Prop :=
  (∀ s : State, s.marl.image = [] → s.rails.vstore = true → s.sleep ≠ 3 → 3 ≤ s.phase → s.phase ≠ 0xB →
    ∃ t, exec .marlHbLoss s = .next t ∧ t.start = { s.start with frozen := true }
      ∧ (∃ g : FrozenImg, g = { memCfg := BitVec.ofNat 32 s.memCfg, part := BitVec.ofNat 32 (s.reg MARL_PART.off), groupState := BitVec.ofNat 8 (s.fld GLB_MEM_STATUS_GROUP_STATE) }
        ∧ t.marl.image = List.replicate 3 { img := g, crc := g.crc })
      ∧ t.marl.fills = [] ∧ t.marl.evicting = []
      ∧ (∀ l, t.line l = (s.line l).map fun x => { x with wbBusy := false, flushMark := false }) ∧ t.marl.flush = none ∧ t.marl.newPart = none ∧ only [.start, .marl] s t)
  ∧ (∀ (c : BitVec 5) (s : State), c.toNat < s.nChans → s.rails.vdram = true → s.rails.vpp = true → (s.chn c.toNat).srHeld = false →
    ∃ t, exec (.layerHbLoss c) s = .next t ∧ (t.chn c.toNat).srHeld = true ∧ (t.chn c.toNat).openRows = [] ∧ (t.chn c.toNat).heartbeat = (s.chn c.toNat).heartbeat
      ∧ (∀ r ∈ (t.chn c.toNat).reads, r.issued = false) ∧ (t.chn c.toNat).reads.length = (s.chn c.toNat).reads.length
      ∧ (t.chn c.toNat).writes.length = (s.chn c.toNat).writes.length ∧ (∀ d, d / 8 ≠ c.toNat / 8 → t.chn d = s.chn d)
      ∧ ((∀ d, d / 8 = c.toNat / 8 → ∀ w ∈ (s.chn d).writes, w.issued = false) → t.chan.dram = s.chan.dram)
      ∧ t.start.retained.getLsbD (layerOf c.toNat - 2) = true ∧ t.fld (VCP_LAYER_STATUS_HB_LOST (layerOf c.toNat - 2)) = 1
      ∧ t.fld (VCP_LAYER_STATUS_HB_LOSS_COUNT (layerOf c.toNat - 2)) = min 255 (s.fld (VCP_LAYER_STATUS_HB_LOSS_COUNT (layerOf c.toNat - 2)) + 1)
      ∧ regsBut [(VCP_LAYER_STATUS (layerOf c.toNat - 2)).off] s t ∧ only [.chan, .start, .regs, .free] s t)
  ∧ (∀ (c : BitVec 5) (s : State), c.toNat < s.nChans → s.live = true → (s.chn c.toNat).srHeld = true → (s.chn c.toNat).heartbeat = true →
    ∃ t, exec (.exitSr c) s = .next t ∧ t.chn c.toNat = { s.chn c.toNat with srHeld := false } ∧ (∀ d, d ≠ c.toNat → t.chn d = s.chn d)
      ∧ regsBut [(VCP_LAYER_STATUS (layerOf c.toNat - 2)).off] s t ∧ only [.chan, .regs] s t)
  ∧ (∀ (l : BitVec 5) (pll : Bool) (s : State), s.live = true → 5 ≤ s.phase → s.sleep ≤ 1 → s.calm = true → 2 ≤ l.toNat → l.toNat ≤ s.topLayer → mget s.vcp.silent l.toNat = none →
    (∃ c, c ∈ layerChans l.toNat ∧ s.chanOut c = false) →
    ∃ t, exec (.layerSilent l pll) s = .next t ∧ mget t.vcp.silent l.toNat = some 0 ∧ (∀ c ∈ layerChans l.toNat, t.chn c = { s.chn c with heartbeat := false })
      ∧ t.fld (VCP_LAYER_STATUS_HB_LOST (l.toNat - 2)) = 1
      ∧ (pll = true → bitAt (t.fld CLK_PLL_STATUS_LYR_LOCK) (l.toNat - 2) = false) ∧ t.fuse = s.fuse ∧ t.fox = s.fox ∧ t.rings = s.rings ∧ t.marl = s.marl)
  ∧ (∀ (l : BitVec 5) (n : Nat) (s : State), mget s.vcp.silent l.toNat = some n →
    (n + 1 < 3 → exec (.layerRelockAttempt l none) s = .next { s with vcp := { s.vcp with silent := mput l.toNat (n + 1) s.vcp.silent } })
    ∧ (2 ≤ l.toNat → l.toNat ≤ 17 → s.calm = true → ∃ t, exec (.layerRelockAttempt l (some [])) s = .next t ∧ mget t.vcp.silent l.toNat = none
      ∧ (∀ c ∈ layerChans l.toNat, s.on (CHAN_STATUS_FENCED c) = false → (t.chn c).heartbeat = true ∧ (t.col c).calTemp = s.layerTemps l.toNat)
      ∧ bitAt (t.fld CLK_PLL_STATUS_LYR_LOCK) (l.toNat - 2) = true ∧ t.reg VCP_LYR_RELOCKS.off = (s.reg VCP_LYR_RELOCKS.off + 1) % 2 ^ 32 ∧ only [.vcp, .chan, .regs] s t))
  ∧ (∀ (l : BitVec 5) (s : State), s.phase = 4 → s.sleep ≤ 1 → s.calm = true → 2 ≤ l.toNat → l.toNat ≤ s.topLayer → s.fld (VCP_LAYER_STATUS_DISCOVERED (l.toNat - 2)) = 0 →
    ∃ t, exec (.layerDiscoveryTimeout l) s = .next t ∧ ∀ c ∈ layerChans l.toNat, t.fld (CHAN_STATUS_FENCED c) = 1
      ∧ (s.fld (CHAN_STATUS_FENCED c) = 0 → t.fld (CHAN_STATUS_FENCE_CAUSE c) = 4 ∧ t.fld (CHAN_STATUS_STATE c) = 4 ∧ t.fld (VCP_COL_STATUS_MODE c) = 3 ∧ (t.chn c).heartbeat = false))

/-- The channel controller (R243, R246 to R248, R257, R284, R377): a controller cycle raises the sequence of command words, and issues a neighbour
refresh that is due, or activates the row that the chosen request waits for; a read that decodes joins the arrived ones; an entry that frees goes to the one request that waits; a refresh
closes its rows and may raise the rate; the rate falls to what the layer's temperatures allow; an idle channel powers down. -/
def Obligations.ControllerCommands : Prop :=
  ∀ (c : BitVec 5) (s : State), c.toNat < s.nChans → s.calm = true →
    (∀ (pc : BitVec 1) (draw : BitVec 14), s.awake = true → s.chanRuns c.toNat = true →
      (∀ e, (s.chn c.toNat).nrefDue.find? (fun e => e.1 / 16 == pc.toNat) = some e →
        ∃ t, exec (.dramCommandIssue c pc { draw := draw }) s = .next t ∧ (t.chn c.toNat).nrefDue = (s.chn c.toNat).nrefDue.filter (· != e)
          ∧ (t.chn c.toNat).seq = (s.chn c.toNat).seq + 1 ∧ (∀ e ∈ (t.chn c.toNat).openRows, e ∈ (s.chn c.toNat).openRows) ∧ (t.chn c.toNat).reads = (s.chn c.toNat).reads ∧ (t.chn c.toNat).writes = (s.chn c.toNat).writes
          ∧ t.reg (CHAN_NREF c.toNat).off = (s.reg (CHAN_NREF c.toNat).off + 1) % 2 ^ 32 ∧ (∀ d, d ≠ c.toNat → t.chn d = s.chn d) ∧ regsBut [(CHAN_NREF c.toNat).off] s t ∧ only [.chan, .regs] s t)
      ∧ (∀ k q, (s.chn c.toNat).nrefDue.find? (fun e => e.1 / 16 == pc.toNat) = none → mget (s.chn c.toNat).window pc.toNat = none → 0 < s.throttle c.toNat →
        s.fld (CHAN_STATUS_STATE c.toNat) = 2 →
        s.closeRows c.toNat { s.chn c.toNat with
          seq := (s.chn c.toNat).seq + 1, refBusy := (s.chn c.toNat).refBusy.filter (fun e => e.1 != pc.toNat),
          draining := s.drainState c.toNat (s.chn c.toNat), window := mput pc.toNat (1, 0) (s.chn c.toNat).window } pc.toNat = k →
        s.chooseReq c.toNat k pc.toNat = some q → mget k.openRows (bankIx q.block) = none →
        ∃ t, exec (.dramCommandIssue c pc { draw := draw }) s = .next t ∧ (t.chn c.toNat).seq = (s.chn c.toNat).seq + 1 ∧ mget (t.chn c.toNat).openRows (bankIx q.block) = some (rowOf q.block)
          ∧ mget (t.chn c.toNat).window pc.toNat = some (1, 1) ∧ t.pair (CHAN_ACT_LO c.toNat) = (s.pair (CHAN_ACT_LO c.toNat) + 1) % 2 ^ 64
          ∧ (t.chn c.toNat).nrefDue = (s.chn c.toNat).nrefDue.filter (fun e => e.1 != bankIx q.block) ++ (if draw.toNat % 2 ^ s.fld (CHAN_REF_CFG_NR_K c.toNat) = 0 then [(bankIx q.block, rowOf q.block)] else [])
          ∧ (∀ d, d ≠ c.toNat → t.chn d = s.chn d) ∧ only [.chan, .regs] s t))
    ∧ (∀ (err : List (BitVec 8)) (i : Nat) (r : RdReq) (d : List (BitVec 8)) (p : Bool) (u : State), s.awake = true → s.chanRuns c.toNat = true →
      (enum (s.chn c.toNat).reads).find? (fun e => e.2.issued) = some (i, r) → s.readBlock c.toNat r.block err = (.data d p, u) → u.calm = true →
      ∃ t, exec (.dramReadData c err) s = .next t ∧ (t.chn c.toNat).arrived = (u.chn c.toNat).arrived ++ [(r, p, d)] ∧ (t.chn c.toNat).reads = ldrop (u.chn c.toNat).reads i
        ∧ only [.chan, .regs, .qos] u t)
    ∧ (∀ (w : WaitReq) (own : Bool), (s.chn c.toNat).waits = [w] → s.entryFor (s.chn c.toNat) w.block w.cls w.grp = some own →
      ∃ t, exec (.missEntryFreed c) s = .next t ∧ (t.chn c.toNat).waits = []
        ∧ (t.chn c.toNat).reads = (s.chn c.toNat).reads ++ [{ block := w.block, use := w.use, cls := w.cls, grp := w.grp, reserved := own, forAtom := w.forAtom, at_ := w.at_ }]
        ∧ (∀ d, d ≠ c.toNat → t.chn d = s.chn d) ∧ only [.chan] s t)
    ∧ (∀ (pc : BitVec 1) (taps : List Bool), s.awake = true → s.chanUp c.toNat = true →
      ∃ t, exec (.refreshDue c pc taps) s = .next t ∧ (t.chn c.toNat).openRows = (s.chn c.toNat).openRows.filter (fun e => e.1 / 16 != pc.toNat)
        ∧ t.reg (CHAN_REF c.toNat).off = (s.reg (CHAN_REF c.toNat).off + 1) % 2 ^ 32 ∧ s.fld (CHAN_STATUS_REF_RATE c.toNat) ≤ t.fld (CHAN_STATUS_REF_RATE c.toNat)
        ∧ t.fld (CHAN_STATUS_STATE c.toNat) = (if s.fld (CHAN_STATUS_STATE c.toNat) = 3 then 2 else s.fld (CHAN_STATUS_STATE c.toNat))
        ∧ (t.chn c.toNat).reads = (s.chn c.toNat).reads ∧ (t.chn c.toNat).writes = (s.chn c.toNat).writes ∧ only [.chan, .regs, .free, .recd, .sett] s t)
    ∧ (s.awake = true → s.fld (CHAN_STATUS_STATE c.toNat) = 2 → (s.chn c.toNat).reads = [] → (s.chn c.toNat).writes = [] → (s.chn c.toNat).waits = [] →
      (s.sleep = 1 ∨ s.fld (CHAN_REF_CFG_PD_IDLE c.toNat) ≠ 0) →
      ∃ t, exec (.powerDownEntry c) s = .next t ∧ t.fld (CHAN_STATUS_STATE c.toNat) = 3 ∧ t.fld (CHAN_STATUS_FENCED c.toNat) = s.fld (CHAN_STATUS_FENCED c.toNat)
        ∧ regsBut [(CHAN_STATUS c.toNat).off] s t ∧ only [.regs] s t)
    ∧ (∀ l : BitVec 5, 2 ≤ l.toNat → l.toNat ≤ s.topLayer → s.live = true →
      ∃ t, exec (.refRateLower l) s = .next t ∧ ∀ d ∈ layerChans l.toNat, t.fld (CHAN_STATUS_REF_RATE d)
        = min (s.fld (CHAN_STATUS_REF_RATE d)) (if ∀ x ∈ s.layerTemps l.toNat, x ≤ 332 then 0 else if ∀ x ∈ s.layerTemps l.toNat, x ≤ 372 then 1 else 2))

/-- PASR, fences and rebuilds (R241, R249, R252): a finished change puts its fraction in force; a fence shows in the channel's status with its
cause and stops its heartbeat; a rebuild starts at the sixteenth noted and, in left-over capacity, forms one block a stripe: it queues the write
of a block that is at hand in the cache at Sand class to the holder of the stripe's parity, and passes a stripe whose parity it held itself. -/
def Obligations.ChannelCommands : Prop :=
  ∀ (c : BitVec 5) (s : State), c.toNat < s.nChans →
    (∀ f, s.live = true → s.parity = false → (s.chn c.toNat).pasrNew = some f → f < 8 → s.chanIdle c.toNat = true → s.linesOf c.toNat = [] →
      ∃ t, exec (.pasrChangeDone c) s = .next t ∧ t.fld (CHAN_PASR_FRACTION c.toNat) = f ∧ t.fld (CHAN_STATUS_STATE c.toNat) = 2 ∧ (t.chn c.toNat).pasrNew = none
        ∧ (t.chn c.toNat).pasrAsker = none ∧ (∀ d, d ≠ c.toNat → t.chn d = s.chn d) ∧ t.marl = s.marl)
    ∧ (∀ cause : FenceCause, s.live = true → s.fld (CHAN_STATUS_FENCED c.toNat) = 0 →
      ∃ t, exec (.channelFence c cause) s = .next t ∧ t.fld (CHAN_STATUS_FENCED c.toNat) = 1 ∧ t.fld (CHAN_STATUS_FENCE_CAUSE c.toNat) = fenceCode cause
        ∧ (s.phase < 5 ∨ 8 < s.phase → s.calm = true → s.sleep ≤ 1 → t.fld (CHAN_STATUS_STATE c.toNat) = 4 ∧ t.fld (VCP_COL_STATUS_MODE c.toNat) = 3
          ∧ t.chn c.toNat = { s.chn c.toNat with heartbeat := false } ∧ (∀ d, d ≠ c.toNat → t.chn d = s.chn d) ∧ only [.regs, .chan, .flt, .recd, .sett, .sw] s t))
    ∧ (∀ n : Nat, s.live = true → s.fld (CHAN_STATUS_FENCED c.toNat) = 1 → s.groupSt (c.toNat / 8) = 2 → s.fld (CHAN_REBUILD_STATE c.toNat) = 0 → s.fld (CHAN_STATUS_LOST c.toNat) = 0 →
      mgetD s.sett.rebuild c.toNat 0 = n → n < 16 →
      ∃ t, exec (.rebuildStart c) s = .next t ∧ t.fld (CHAN_REBUILD_STATE c.toNat) = 1 ∧ t.fld (CHAN_REBUILD_PTR_PTR c.toNat) = n * 0x300000 ∧ t.fld (CHAN_REBUILD_SIXTEENTHS c.toNat) = n
        ∧ t.fld (CHAN_REBUILD_LOST_BLOCKS c.toNat) = 0 ∧ mget t.sett.rebuild c.toNat = some n
        ∧ regsBut [(CHAN_REBUILD c.toNat).off, (CHAN_REBUILD_PTR c.toNat).off] s t ∧ only [.sett, .regs] s t)
    ∧ (∀ b : Nat, s.awake = true → s.fld (CHAN_REBUILD_STATE c.toNat) = 1 → s.fld (CHAN_REBUILD_PTR_PTR c.toNat) = b → b + 1 < 0x3000000 →
      (∀ x < 32, x / 8 = c.toNat / 8 → x ≠ c.toNat → s.chanRuns x = true ∧ s.leftOver x b = true) →
      (c.toNat = holderOf (c.toNat / 8) b → ∃ t, exec (.rebuildStripe c) s = .next t ∧ t.fld (CHAN_REBUILD_PTR_PTR c.toNat) = b + 1)
      ∧ (∀ l x r, c.toNat ≠ holderOf (c.toNat / 8) b → s.calm = true → s.storeCalm → s.lineAt c.toNat b = some l → s.line l = some x → lineNow x = some r →
        (s.chn (holderOf (c.toNat / 8) b)).writes.length < 64 → (∀ w ∈ (s.chn (holderOf (c.toNat / 8) b)).writes, w.rebuilds = none) →
        ∃ t, exec (.rebuildStripe c) s = .next t ∧ (t.chn (holderOf (c.toNat / 8) b)).writes = (s.chn (holderOf (c.toNat / 8) b)).writes
            ++ [{ block := b, data := r.data, poison := r.poison, line := none, cls := 3, rebuilds := some c.toNat, at_ := s.now }]
          ∧ (∀ d, d ≠ holderOf (c.toNat / 8) b → t.chn d = s.chn d) ∧ only [.chan] s t))

/-- Block resets (R78, R79): a command for a unit that is present, not in reset and not fenced starts one, which shows as BUSY with its kind
and index, a channel as STATE 6; a reset that has done its work ends with RESULT OK. -/
def Obligations.UnitResets : Prop :=
  (∀ (via : Path) (ix : BitVec 5) (s : State) (c : Instr) (k : Nat),
    (c = .portBlockReset via ix ∧ k = 1) ∨ (c = .chanBlockReset via ix ∧ k = 2 ∧ s.fld (CHAN_STATUS_FENCED ix.toNat) = 0) ∨ (c = .foxBlockReset via ix ∧ k = 3) →
    s.takes via .rst = true → s.locked = false → s.unitOff k ix.toNat = false → s.inReset k ix.toNat = false →
    ∃ t, exec c s = .next t ∧ t.unitResets = s.unitResets ++ [{ kind := k, index := ix.toNat, asker := .reg via }] ∧ t.fld RST_UNIT_STATUS_BUSY = 1
      ∧ t.fld RST_UNIT_STATUS_KIND = k ∧ t.fld RST_UNIT_STATUS_INDEX = ix.toNat
      ∧ (k = 2 → t.fld (CHAN_STATUS_STATE ix.toNat) = 6 ∧ regsBut [RST_UNIT_STATUS.off, (CHAN_STATUS ix.toNat).off] s t ∧ taken via [.unitResets] s t))
  ∧ (∀ (u : UnitReset) (s : State), s.dead = false → s.unitResets.find? s.resetReady = some u → 1 ≤ u.kind → u.kind ≤ 3 →
    ∃ t, exec .blockResetDone s = .next t ∧ t.unitResets = s.unitResets.filter (fun v => !(v.kind == u.kind && v.index == u.index))
      ∧ (t.fld RST_UNIT_STATUS_BUSY = 0 ↔ t.unitResets = []) ∧ t.fld RST_UNIT_STATUS_RESULT = 0)

/-- S1 (R80, R83) and the wakes (R80, R81, R85): S1 is asked for by a write and entered when the stack is quiet; WAKE, the wake timer and an open
pair end a sleep with their cause; from S3 the stack goes on once its clocks have requalified, with nothing in its Marl and its maps lost. -/
def Obligations.SleepAndWake : Prop :=
  (∀ (via : Path) (s : State), s.takes via .glb = true → s.locked = false → s.ready = true → s.dead = false → s.sleep < 2 → s.sleepRefused = false →
    ∃ t, exec (.reqStateS1 via) s = .next t ∧ t.pwr = { s.pwr with s1Req := true } ∧ t.fld GLB_PWR_STATUS_TARGET = 1 ∧ t.sleep = s.sleep
      ∧ regsBut [GLB_PWR_STATUS.off] s t ∧ taken via [.pwr] s t)
  ∧ (∀ s : State, s.ready = true → s.dead = false → s.sleep = 0 → s.pwr.entry = none → (s.pwr.s1Req = true ∨ s.fld GLB_PWR_CTL_IDLE_US ≠ 0) → s.quiet = true →
    ∃ t, exec .s1IdleExpiry s = .next t ∧ t.sleep = 1 ∧ t.fld GLB_PWR_STATUS_TARGET = 0 ∧ t.pwr = { s.pwr with s1Req := false }
      ∧ only [.pwr, .vcp, .acc, .marl, .lanes, .regs] s t)
  ∧ (∀ (via : Path) (s : State), s.takes via .glb = true → s.dead = false →
    (s.sleep ≤ 1 → ∃ t, exec (.pwrWake via) s = .next t ∧ t.sleep = 0 ∧ t.fld GLB_PWR_CTL_WAKE = 0 ∧ t.fld GLB_PWR_CTL_IDLE_US = s.fld GLB_PWR_CTL_IDLE_US
        ∧ t.fld GLB_PWR_STATUS_WAKE_COUNT = s.fld GLB_PWR_STATUS_WAKE_COUNT ∧ regsBut [GLB_PWR_CTL.off, GLB_PWR_STATUS.off] s t ∧ taken via [] s t)
    ∧ (s.sleep = 2 → s.pwr.waking = false → ∃ t, exec (.pwrWake via) s = .next t ∧ t.sleep = 0 ∧ t.fld GLB_PWR_CTL_WAKE = 0 ∧ t.fld GLB_PWR_STATUS_WAKE_CAUSE = 2
        ∧ t.fld GLB_PWR_STATUS_WAKE_COUNT = min 0xFFFF (s.fld GLB_PWR_STATUS_WAKE_COUNT + 1) ∧ t.pwr.wakeTimer = 0))
  ∧ (∀ (c : Instr) (cause : Nat) (s : State), s.dead = false → s.pwr.entry = none → s.pwr.waking = false →
    (c = .wakeTimerExpiry ∧ cause = 3 ∧ s.pwr.wakeTimer ≠ 0)
      ∨ (∃ p : BitVec 5, c = .wakeSignal p ∧ cause = 1 ∧ p.toNat < s.nPorts ∧ s.pairClosed (p.toNat / 2) = false) →
    (s.sleep = 2 → ∃ t, exec c s = .next t ∧ t.sleep = 0 ∧ t.fld GLB_PWR_STATUS_WAKE_CAUSE = cause
        ∧ t.fld GLB_PWR_STATUS_WAKE_COUNT = min 0xFFFF (s.fld GLB_PWR_STATUS_WAKE_COUNT + 1) ∧ t.pwr.wakeTimer = 0 ∧ only [.chan, .flt, .pwr, .regs] s t)
    ∧ (s.sleep = 3 → ∃ t, exec c s = .next t ∧ t.sleep = 3 ∧ t.fld GLB_PWR_STATUS_WAKE_CAUSE = cause ∧ t.pwr = { s.pwr with waking := true } ∧ t.clk.wakeWait = true
        ∧ t.clk.frcRunning = true ∧ t.clk.p2Step = 1 ∧ t.reg CLK_SRC_STATUS.off = 0 ∧ t.reg CLK_PLL_STATUS.off = 0
        ∧ regsBut [GLB_PWR_STATUS.off, CLK_SRC_STATUS.off, CLK_PLL_STATUS.off] s t ∧ only [.clk, .pwr, .regs] s t))
  ∧ (∀ s : State, s.pwr.waking = true → s.pwr.entry = none → 7 ≤ s.clk.p2Step → s.dead = false →
    ∃ t, exec .s3Wake s = .next t ∧ t.sleep = 0 ∧ t.pwr.waking = false ∧ t.marl.lines = [] ∧ t.fld CVU_CKP_STATUS_ALL_DIRTY = 1)

/-- Entry to S2 and S3 (R82): an accepted request begins the entry, whose asker is answered once nothing is outstanding; when all has drained the
state is taken, in S3 with nothing left in the Marl. -/
def Obligations.EntryToSleep : Prop :=
  (∀ (via : Path) (deep : Bool) (s : State), s.takes via .glb = true → s.locked = false → s.ready = true → s.dead = false → s.sleep < 2 → s.sleepRefused = false →
    ∃ t, exec (.reqStateSleep via deep) s = .next t ∧ t.sleep = 0 ∧ t.fld GLB_PWR_STATUS_TARGET = (if deep then 3 else 2)
      ∧ t.pwr = { s.pwr with wakeTimer := 0, s1Req := false, entry := some { target := if deep then 3 else 2, asker := .reg via, wakeHeld := none, answered := s.txns.isEmpty && !s.outsLeft && s.fox.jobs.isEmpty && s.fox.svcQueue.isEmpty } })
  ∧ (∀ (e : SleepEntry) (s : State), s.pwr.entry = some e → e.answered = true → e.wakeHeld = none → (e.target = 2 ∨ e.target = 3) → s.pwr.wakeDue = false → s.graveRec = false →
    s.dead = false → s.outsLeft = false → ((s.ring 0).cpls = [] ∨ (s.ring 0).cplKept = true) → s.sw.ingress = [] → s.sw.egress = [] →
    (e.target = 3 → ∀ x ∈ s.marl.lines, x.2.st = .dirty → s.lineStuck x.1 = false) →
    ∃ t, exec .sleepEntryDone s = .next t ∧ t.pwr.entry = none ∧ t.sleep = e.target ∧ t.fld GLB_PWR_STATUS_TARGET = 0
      ∧ t.marl.lines = (if e.target = 3 then [] else s.marl.lines))

/-- The end of an OTP command and of the window (R100, R102 to R104): a command refused at acceptance ends with the result fixed there; SENSE_ROW
puts the row into OTP_DATA; PROGRAM_ROW and TOPUP_BIT blow cells of one row, never clear one, and verify it strictly; the time-out closes the
window and lets a running command go on. -/
def Obligations.OtpEndings : Prop :=
  (∀ (sl lo no hi sh : BitVec 128) (r : OtpRun) (s : State), s.fuse.run = some r →
    (∀ e, r.early = some e → r.op < 16 → e < 256 →
      ∃ t, exec (.otpCmdDone sl lo no hi sh) s = .next t ∧ t.fld OTP_STATUS_BUSY = 0 ∧ t.fld OTP_STATUS_LAST_OP = r.op ∧ t.fld OTP_STATUS_RESULT = e
        ∧ t.fuse = { s.fuse with run := none } ∧ regsBut [OTP_STATUS.off] s t ∧ only [.fuse, .regs] s t)
    ∧ (r.early = none → r.op = 3 → r.margin < 3 →
      ∃ t, exec (.otpCmdDone sl lo no hi sh) s = .next t ∧ t.fld OTP_STATUS_BUSY = 0 ∧ t.fld OTP_STATUS_LAST_OP = 3 ∧ t.fld OTP_STATUS_RESULT = 0
        ∧ (let c := s.cell (physRow s.fuse.redir r.row)
          let v := (if r.margin = 0 then c.lo else if r.margin = 1 then c.no else c.hi).toNat
          t.fld (OTP_DATA 0) + 2 ^ 32 * t.fld (OTP_DATA 1) + 2 ^ 64 * t.fld (OTP_DATA 2) + 2 ^ 96 * t.fld (OTP_DATA 3) = v)
        ∧ t.fuse = { s.fuse with run := none } ∧ regsBut [OTP_STATUS.off, (OTP_DATA 0).off, (OTP_DATA 1).off, (OTP_DATA 2).off, (OTP_DATA 3).off] s t ∧ only [.fuse, .regs] s t)
    ∧ (r.early = none → (r.op = 4 ∨ r.op = 5) →
      let phys := physRow s.fuse.redir r.row
      let m := if r.op = 4 then r.data else BitVec.ofNat 128 (2 ^ r.bit)
      let c := s.cell phys
      let d : FuseRow := { sl := c.sl ||| (m &&& sl), lo := c.lo ||| (m &&& lo), no := c.no ||| (m &&& no), hi := c.hi ||| (m &&& hi), sh := c.sh ||| (m &&& sh) }
      ∃ t, exec (.otpCmdDone sl lo no hi sh) s = .next t ∧ t.fld OTP_STATUS_BUSY = 0 ∧ t.fld OTP_STATUS_LAST_OP = r.op
        ∧ t.fld OTP_STATUS_RESULT = (if d.sh = c.no ||| m ∧ d.sl = c.no ||| m then 0 else 1) ∧ t.cell phys = d ∧ (∀ q, q ≠ phys → t.cell q = s.cell q) ∧ t.fuse.run = none))
  ∧ (∀ s : State, ∃ t, exec .windowTimeout s = .next t ∧ t.fld OTP_STATUS_WINDOW = 0 ∧ t.fuse = s.fuse ∧ t.fld OTP_STATUS_BUSY = s.fld OTP_STATUS_BUSY
      ∧ regsBut [OTP_STATUS.off] s t ∧ only [.regs] s t)

/-- Link training (R117, R118, R121, R129, Table 6.5): a link that is DOWN starts at step 1 with its transmitters on; a marker counts towards lock and,
in lock, records the partner; a time-out begins step 1 anew; a lane that misses its markers loses lock; L2 is left through step 1 with the link
layer kept. -/
def Obligations.LinkTraining : Prop :=
  ∀ (port : BitVec 5) (link : BitVec 3) (s : State),
    (s.live = true → link.toNat < s.nLinks port.toNat → s.trainOk port.toNat = true → s.lst port.toNat link.toNat = 0 →
      ∃ t, exec (.linkTrainStart port link) s = .next t ∧ t.lst port.toNat link.toNat = 1 ∧ t.fld (PORT_LINK_STATUS_REASON port.toNat link.toNat) = 0 ∧ t.fld (PORT_LINK_STATUS_WIDTH port.toNat link.toNat) = 0
        ∧ t.fld (PORT_LINK_STATUS_ACTIVE_MASK port.toNat link.toNat) = 0 ∧ t.fld (PORT_LINK_STATUS_REVERSED port.toNat link.toNat) = 0
        ∧ t.link port.toNat link.toNat = (s.link port.toNat link.toNat).fresh ∧ (∀ l ∈ s.linkLanes port.toNat link.toNat, (t.lane l).squelch = false ∧ (t.lane l).txEq = BitVec.ofNat 32 (s.reg (LANE_TX_EQ l).off))
        ∧ (∀ l, l ∉ s.linkLanes port.toNat link.toNat → t.lane l = s.lane l) ∧ only [.links, .lanes, .regs] s t)
    ∧ (1 ≤ s.lst port.toNat link.toNat → s.lst port.toNat link.toNat ≤ 3 →
      ∃ t, exec (.trainTimeout port link) s = .next t ∧ t.lst port.toNat link.toNat = 1 ∧ t.fld (PORT_LINK_STATUS_WIDTH port.toNat link.toNat) = 0
        ∧ t.fld (PORT_LINK_STATUS_ACTIVE_MASK port.toNat link.toNat) = 0 ∧ t.fld (PORT_TRAIN_ATTEMPTS port.toNat) = (s.fld (PORT_TRAIN_ATTEMPTS port.toNat) + 1) % 2 ^ 32
        ∧ t.link port.toNat link.toNat = (s.link port.toNat link.toNat).fresh ∧ only [.links, .lanes, .regs] s t)
    ∧ (s.lst port.toNat link.toNat = 6 → s.sleep < 2 → s.trainOk port.toNat = true →
      ∃ t, exec (.l2Exit port link) s = .next t ∧ t.lst port.toNat link.toNat = 1 ∧ t.link port.toNat link.toNat = { (s.link port.toNat link.toNat).fresh with resume := true }
        ∧ only [.links, .lanes, .regs] s t)
    ∧ ∀ (lane : BitVec 8) (raw b : List (BitVec 8)) (eq : EqSet) (inv : Bool), s.live = true → s.sleep < 2 → lane.toNat / 8 < s.nPorts → port.toNat = lane.toNat / 8 →
      link.toNat = lane.toNat % 8 / s.linkW port.toNat →
      (1 ≤ s.lst port.toNat link.toNat → s.lst port.toNat link.toNat ≤ 3 → s.readTm lane.toNat raw = none → s.fld (LANE_STATUS_MARKER_LOCK lane.toNat) = 0 →
        ∃ t, exec (.tmReceived lane { raw := raw, eq := eq }) s = .next t ∧ (t.lane lane.toNat).goodRun = 0 ∧ t.fld (LANE_STATUS_MARKER_LOCK lane.toNat) = 0 ∧ t.fld (LANE_STATUS_SIG_DET lane.toNat) = 1
          ∧ regsBut [(LANE_STATUS lane.toNat).off, (LANE_RX_EQ lane.toNat).off, (LANE_DFE lane.toNat 0).off, (LANE_DFE lane.toNat 1).off] s t ∧ only [.lanes, .regs] s t)
      ∧ (1 ≤ s.lst port.toNat link.toNat → s.lst port.toNat link.toNat ≤ 3 → s.readTm lane.toNat raw = some (b, inv) → s.fld (LANE_STATUS_MARKER_LOCK lane.toNat) = 0 → (s.lane lane.toNat).goodRun < 3 →
        ∃ t, exec (.tmReceived lane { raw := raw, eq := eq }) s = .next t ∧ (t.lane lane.toNat).goodRun = (s.lane lane.toNat).goodRun + 1 ∧ t.fld (LANE_STATUS_MARKER_LOCK lane.toNat) = 0
          ∧ t.fld (LANE_STATUS_INVERTED lane.toNat) = b2n inv
          ∧ regsBut [(LANE_STATUS lane.toNat).off, (LANE_RX_EQ lane.toNat).off, (LANE_DFE lane.toNat 0).off, (LANE_DFE lane.toNat 1).off] s t ∧ only [.lanes, .regs] s t)
      ∧ (1 ≤ s.lst port.toNat link.toNat → s.lst port.toNat link.toNat ≤ 3 → s.readTm lane.toNat raw = some (b, inv) → 3 ≤ (s.lane lane.toNat).goodRun →
        ∃ t, exec (.tmReceived lane { raw := raw, eq := eq }) s = .next t ∧ t.fld (LANE_STATUS_MARKER_LOCK lane.toNat) = 1 ∧ t.fld (LANE_STATUS_LOGICAL lane.toNat) = byteAt b 5 % 8
          ∧ t.fld (PORT_NEIGH_ID_VALID port.toNat link.toNat) = 1 ∧ t.fld (PORT_NEIGH_ID_DID port.toNat link.toNat) = leAt b 8 2 % 4096
          ∧ t.fld (PORT_NEIGH_ID_PORT port.toNat link.toNat) = byteAt b 7 % 32)
      ∧ (s.fld (LANE_STATUS_MARKER_LOCK lane.toNat) = 1 → (s.lst port.toNat link.toNat = 4 → s.fld (LANE_STATUS_IN_USE lane.toNat) = 1) →
        ∃ t, exec (.markerLockLoss lane) s = .next t ∧ t.fld (LANE_STATUS_MARKER_LOCK lane.toNat) = 0
          ∧ t.lst port.toNat link.toNat = (if s.lst port.toNat link.toNat = 4 then 7 else s.lst port.toNat link.toNat)
          ∧ (t.link port.toNat link.toNat).rxMask = BitVec.ofNat 8 (putBit (s.link port.toNat link.toNat).rxMask.toNat (s.fld (LANE_STATUS_LOGICAL lane.toNat)) false)
          ∧ only [.links, .lanes, .regs] s t)

/-- Links in service (R120, R122 to R130): alignment markers go out on every active lane and are judged, the worst eye is measured with each; a lane
failure begins a retrain, which ends after stable markers and TS_GO at the width of R120, holds while the settings or the lane order differ, or takes
the link down; the loss of all signal takes it down; L1 is entered with nothing to send and left for a flit; a checker counts wrong bits while in
lock. -/
def Obligations.LinkService : Prop :=
  ∀ (port : BitVec 5) (link : BitVec 3) (s : State),
    (s.lst port.toNat link.toNat = 4 →
      ∃ t, exec (.amSend port link) s = .next t ∧ only [.lanes] s t ∧ ∀ lg ∈ s.activeLogical port.toNat link.toNat,
        t.lane (s.laneIx port.toNat link.toNat lg) = { s.lane (s.laneIx port.toNat link.toNat lg) with
          amSeqTx := (s.lane (s.laneIx port.toNat link.toNat lg)).amSeqTx + 1, scrTx := BitVec.ofNat 23 (scrSeed lg (s.lane (s.laneIx port.toNat link.toNat lg)).amSeqTx.toNat),
          sent := (List.replicate (8 / (s.activeLogical port.toNat link.toNat).length) (amBytes lg (s.lane (s.laneIx port.toNat link.toNat lg)).amSeqTx.toNat)).flatten })
    ∧ (s.lst port.toNat link.toNat = 7 →
      (s.stable port.toNat link.toNat = true → (s.link port.toNat link.toNat).goSeen = true ∨ s.lockedLanes port.toNat link.toNat = [] →
        (s.stepSix port.toNat link.toNat = .inl 5 → ∃ t, exec (.retrainDone port link) s = .next t ∧ t.lst port.toNat link.toNat = (if s.trainOk port.toNat then 1 else 0)
          ∧ t.fld (PORT_NEIGH_ID_VALID port.toNat link.toNat) = 0 ∧ only [.links, .lanes, .regs, .sw] s t)
        ∧ (∀ r, r ≠ 5 → s.stepSix port.toNat link.toNat = .inl r → ∃ t, exec (.retrainDone port link) s = .next t ∧ t.lst port.toNat link.toNat = 7
          ∧ t.fld (PORT_LINK_STATUS_REASON port.toNat link.toNat) = r ∧ regsBut [(PORT_LINK_STATUS port.toNat link.toNat).off] s t ∧ only [.regs] s t)
        ∧ (∀ w k rev, s.stepSix port.toNat link.toNat = .inr (w, k, rev) → s.calm = true → ∃ t, exec (.retrainDone port link) s = .next t ∧ t.lst port.toNat link.toNat = 4
          ∧ t.fld (PORT_LINK_STATUS_WIDTH port.toNat link.toNat) = widthCode w ∧ t.fld (PORT_LINK_STATUS_ACTIVE_MASK port.toNat link.toNat) = k
          ∧ t.fld (PORT_LINK_STATUS_REVERSED port.toNat link.toNat) = b2n rev))
      ∧ ∃ t, exec (.retrainTimeout port link) s = .next t ∧ t.lst port.toNat link.toNat = (if s.trainOk port.toNat then 1 else 0)
        ∧ t.fld (PORT_NEIGH_ID_VALID port.toNat link.toNat) = 0 ∧ t.fld (PORT_LINK_DOWNS port.toNat) = (s.fld (PORT_LINK_DOWNS port.toNat) + 1) % 2 ^ 32 ∧ only [.links, .lanes, .regs, .sw] s t)
    ∧ (inService (s.lst port.toNat link.toNat) = true →
      ∃ t, exec (.signalLossTimeout port link) s = .next t ∧ t.lst port.toNat link.toNat = (if s.trainOk port.toNat then 1 else 0)
        ∧ t.fld (PORT_LINK_STATUS_REASON port.toNat link.toNat) = (if s.portWants port.toNat && !s.pairClosed (port.toNat / 2) then 1 else 7)
        ∧ t.fld (PORT_LINK_DOWNS port.toNat) = (s.fld (PORT_LINK_DOWNS port.toNat) + 1) % 2 ^ 32 ∧ only [.links, .lanes, .regs, .sw] s t)
    ∧ (s.lst port.toNat link.toNat = 4 → (0 < s.fld (PORT_LINK_CFG_L1_IDLE port.toNat) ∨ s.sleep = 1) → s.hasFlit port.toNat link.toNat = false → (s.link port.toNat link.toNat).kept = [] →
      ∃ t, exec (.l1Entry port link) s = .next t ∧ t.lst port.toNat link.toNat = 5 ∧ (∀ l ∈ s.linkLanes port.toNat link.toNat, t.lane l = { s.lane l with squelch := true, sent := (t.lane l).sent })
        ∧ (∀ l, l ∉ s.linkLanes port.toNat link.toNat → t.lane l = s.lane l) ∧ only [.lanes, .regs] s t)
    ∧ (s.lst port.toNat link.toNat = 5 → s.hasFlit port.toNat link.toNat = true →
      ∃ t, exec (.l1Exit port link) s = .next t ∧ t.lst port.toNat link.toNat = 4 ∧ (∀ lg ∈ s.activeLogical port.toNat link.toNat, (t.lane (s.laneIx port.toNat link.toNat lg)).squelch = false)
        ∧ regsBut [(PORT_LINK_STATUS port.toNat link.toNat).off] s t ∧ only [.lanes, .regs] s t)
    ∧ ∀ lane : BitVec 8, port.toNat = lane.toNat / 8 → link.toNat = lane.toNat % 8 / s.linkW port.toNat →
      (∀ (raw : List (BitVec 8)) (up : Bool) (eyeH : List (BitVec 8)) (eyeW : List (BitVec 6)), s.lst port.toNat link.toNat = 4 ∨ s.lst port.toNat link.toNat = 5 →
        (s.link port.toNat link.toNat).rxIdle = false → s.fld (LANE_STATUS_IN_USE lane.toNat) = 1 →
        (∀ b, s.laneIn lane.toNat raw = b → amOk b (s.fld (LANE_STATUS_LOGICAL lane.toNat)) = true → (∀ q, (s.lane lane.toNat).amSeqRx = some q → b.getD 5 0 = q + 1) →
          ∃ t, exec (.amReceived lane raw up eyeH eyeW) s = .next t ∧ (t.lane lane.toNat).amMiss = 0 ∧ (t.lane lane.toNat).amSeqRx = some (b.getD 5 0)
            ∧ t.fld (LANE_EYE_STALE lane.toNat) = 0
            ∧ (∀ e ∈ eyeH, t.fld (LANE_EYE_EYE_H lane.toNat) ≤ e.toNat) ∧ (∀ e ∈ eyeW, t.fld (LANE_EYE_EYE_W lane.toNat) ≤ e.toNat)
            ∧ (eyeH ≠ [] → ∃ e ∈ eyeH, t.fld (LANE_EYE_EYE_H lane.toNat) = e.toNat) ∧ (eyeW ≠ [] → ∃ e ∈ eyeW, t.fld (LANE_EYE_EYE_W lane.toNat) = e.toNat)
            ∧ (∀ l, l ≠ lane.toNat → t.lane l = s.lane l)
            ∧ regsBut [(LANE_EYE lane.toNat).off, (LANE_RX_EQ lane.toNat).off, (LANE_DFE lane.toNat 0).off, (LANE_DFE lane.toNat 1).off] s t ∧ only [.lanes, .regs] s t)
        ∧ (amOk (s.laneIn lane.toNat raw) (s.fld (LANE_STATUS_LOGICAL lane.toNat)) = false → 1 ≤ (s.lane lane.toNat).amMiss → s.lst port.toNat link.toNat = 4 →
          ∃ t, exec (.amReceived lane raw up eyeH eyeW) s = .next t ∧ t.lst port.toNat link.toNat = 7 ∧ t.fld (LANE_STATUS_MARKER_LOCK lane.toNat) = 0
            ∧ t.fld (LANE_AM_ERR lane.toNat) = (s.fld (LANE_AM_ERR lane.toNat) + 1) % 2 ^ 32))
      ∧ (∀ signal : Bool, s.live = true → lane.toNat / 8 < s.nPorts → s.lst port.toNat link.toNat = 4 → s.fld (LANE_STATUS_IN_USE lane.toNat) = 1 →
        ∃ t, exec (.laneFailure { lane := lane, signal := signal }) s = .next t ∧ t.fld (LANE_STATUS_CDR_LOCK lane.toNat) = 0 ∧ (signal = true → t.fld (LANE_STATUS_SIG_DET lane.toNat) = 0) ∧ t.lst port.toNat link.toNat = 7 ∧ t.fld (LANE_STATUS_MARKER_LOCK lane.toNat) = 0
          ∧ (t.link port.toNat link.toNat).resume = true ∧ t.fld (PORT_RETRAINS port.toNat) = (s.fld (PORT_RETRAINS port.toNat) + 1) % 2 ^ 32 ∧ only [.links, .lanes, .regs] s t)
      ∧ ∀ (bits : List (BitVec 8)) (lost : Bool) (k : PrbsChk), lane.toNat / 8 < s.nPorts → s.live = true → s.fld (LANE_PRBS_CTL_CHK_EN lane.toNat) = 1 →
        (laneBits bits).foldl (PrbsChk.bit (s.fld (LANE_PRBS_CTL_PATTERN lane.toNat)))
          { reg := (s.lane lane.toNat).chk.toNat, run := (s.lane lane.toNat).chkRun, lock := s.on (LANE_PRBS_CTL_CHK_LOCK lane.toNat), wrong := 0 } = k →
        ∃ t, exec (.prbsCheckerLock lane bits lost) s = .next t ∧ t.fld (LANE_PRBS_CTL_CHK_LOCK lane.toNat) = b2n (k.lock && !lost)
          ∧ t.pair (LANE_PRBS_ERR_LO lane.toNat) = (s.pair (LANE_PRBS_ERR_LO lane.toNat) + k.wrong) % 2 ^ 64
          ∧ t.lane lane.toNat = { s.lane lane.toNat with chk := BitVec.ofNat 31 k.reg, chkRun := if lost then 0 else k.run }
          ∧ regsBut [(LANE_PRBS_CTL lane.toNat).off, (LANE_PRBS_ERR_LO lane.toNat).off, (LANE_PRBS_ERR_HI lane.toNat).off] s t ∧ only [.lanes, .regs] s t

/-- Reception on a link (R137, R139, R141, R142, R145), with no error to inject: a flit whose CRC matches in sequence is accepted, a bad one raises a NAK or is
discarded while a retry is awaited; the NAK timer raises the NAK again, and the watch for valid flits asks for a retrain. -/
def Obligations.LinkReception : Prop :=
  ∀ (port : BitVec 5) (link : BitVec 3) (s : State),
    (∀ (wire f : List (BitVec 8)) (u : State), s.flt.inject = none → (s.lst port.toNat link.toNat = 4 ∨ s.lst port.toNat link.toNat = 5) → (s.link port.toNat link.toNat).rxIdle = false →
      s.readFlit port.toNat link.toNat wire = (u, f) →
      (u.crcMatch port.toNat link.toNat 0x0 (s.link port.toNat link.toNat).rxExp.toNat f = true →
        ∃ t, exec (.flitReceived port link wire) s = .next t ∧ (t.link port.toNat link.toNat).rxExp = (s.link port.toNat link.toNat).rxExp + 1
          ∧ (t.link port.toNat link.toNat).retryWait = false ∧ (t.link port.toNat link.toNat).acceptedAny = true
          ∧ t.pair (PORT_FLITS_RX_LO port.toNat) = (s.pair (PORT_FLITS_RX_LO port.toNat) + 1) % 2 ^ 64)
      ∧ (u.crcMatch port.toNat link.toNat 0x0 (s.link port.toNat link.toNat).rxExp.toNat f = false → u.crcMatch port.toNat link.toNat 0xC 0 f = false →
        ∃ t, exec (.flitReceived port link wire) s = .next t ∧ (t.link port.toNat link.toNat).rxExp = (s.link port.toNat link.toNat).rxExp ∧ (t.link port.toNat link.toNat).retryWait = true
          ∧ (t.link port.toNat link.toNat).nakId = (if (s.link port.toNat link.toNat).retryWait then (s.link port.toNat link.toNat).nakId else (s.link port.toNat link.toNat).nakId + 1)
          ∧ t.fld (PORT_RETRY_DISCARD port.toNat) = (s.fld (PORT_RETRY_DISCARD port.toNat) + b2n (s.link port.toNat link.toNat).retryWait) % 2 ^ 32
          ∧ t.fld (PORT_CRC_BAD port.toNat) = (s.fld (PORT_CRC_BAD port.toNat) + b2n (!(s.link port.toNat link.toNat).retryWait)) % 2 ^ 32 ∧ only [.links, .lanes, .regs] s t))
    ∧ ((s.lst port.toNat link.toNat = 4 ∨ s.lst port.toNat link.toNat = 5) → (s.link port.toNat link.toNat).retryWait = true →
      ∃ t, exec (.nakTimerExpiry port link) s = .next t ∧ (t.link port.toNat link.toNat).nakId = (s.link port.toNat link.toNat).nakId + 1 ∧ (t.link port.toNat link.toNat).nakOwed = true
        ∧ t.fld (PORT_NAK_TX port.toNat) = (s.fld (PORT_NAK_TX port.toNat) + 1) % 2 ^ 32 ∧ only [.links, .lanes, .regs] s t)
    ∧ ((s.lst port.toNat link.toNat = 4 ∨ s.lst port.toNat link.toNat = 5) → (s.link port.toNat link.toNat).rxIdle = false →
      ∃ t, exec (.noValidFlitTimeout port link) s = .next t ∧ t.lst port.toNat link.toNat = 7 ∧ t.fld (PORT_LL_RETRAIN_REQ port.toNat) = (s.fld (PORT_LL_RETRAIN_REQ port.toNat) + 1) % 2 ^ 32
        ∧ t.fld (PORT_RETRAINS port.toNat) = (s.fld (PORT_RETRAINS port.toNat) + 1) % 2 ^ 32 ∧ only [.links, .lanes, .regs] s t)

/-- Transmission on a link (R137, R139, R143, R144, R147), with no error to inject: a flit slot carries, in this order, an LCF, a replayed flit, the packet in hand, a new
packet, or an idle LCF; a packet with an uncorrectable cell is dropped in its place; the replay timer begins a replay, and an LCF that is due is sent. -/
def Obligations.LinkTransmission : Prop :=
  ∀ (port : BitVec 5) (link : BitVec 3) (s : State),
    (s.lst port.toNat link.toNat = 4 → (s.link port.toNat link.toNat).kept ≠ [] → (s.link port.toNat link.toNat).resume = false →
      ∃ t, exec (.replayTimeout port link) s = .next t ∧ t.link port.toNat link.toNat = { s.link port.toNat link.toNat with replay := (s.link port.toNat link.toNat).kept }
        ∧ t.fld (PORT_REPLAY_TO port.toNat) = (s.fld (PORT_REPLAY_TO port.toNat) + 1) % 2 ^ 32 ∧ regsBut [(PORT_REPLAY_TO port.toNat).off] s t ∧ only [.links, .regs] s t)
    ∧ (s.lst port.toNat link.toNat = 4 → (s.link port.toNat link.toNat).unreported = true →
      ∃ t, exec (.lcfDue port link) s = .next t ∧ (t.link port.toNat link.toNat).unreported = false ∧ (t.link port.toNat link.toNat).toldRet = (s.link port.toNat link.toNat).ownRet
        ∧ only [.links, .lanes] s t)
    ∧ (s.lst port.toNat link.toNat = 4 → s.dead = false → s.fabOn = true → s.flt.inject = none →
      ((s.link port.toNat link.toNat).resume = true ∨ (s.link port.toNat link.toNat).lcfAhead = true →
        ∃ t, exec (.packetSend port link) s = .next t ∧ (t.link port.toNat link.toNat).ackOwed = 0 ∧ (t.link port.toNat link.toNat).nakOwed = false
          ∧ (t.link port.toNat link.toNat).toldRet = (s.link port.toNat link.toNat).ownRet ∧ (t.link port.toNat link.toNat).kept = (s.link port.toNat link.toNat).kept ∧ only [.links, .lanes] s t)
      ∧ ((s.link port.toNat link.toNat).resume = false → (s.link port.toNat link.toNat).lcfAhead = false →
        (∀ k rest, (s.link port.toNat link.toNat).replay = k :: rest →
          ∃ t, exec (.packetSend port link) s = .next t ∧ (t.link port.toNat link.toNat).replay = rest ∧ (t.link port.toNat link.toNat).kept = (s.link port.toNat link.toNat).kept
            ∧ t.pair (PORT_FLITS_TX_LO port.toNat) = (s.pair (PORT_FLITS_TX_LO port.toNat) + 1) % 2 ^ 64 ∧ only [.links, .lanes, .regs] s t)
        ∧ (∀ c rest, (s.link port.toNat link.toNat).replay = [] → (s.link port.toNat link.toNat).kept.length < s.retryCap port.toNat → (s.link port.toNat link.toNat).sending = c :: rest →
          ∃ t, exec (.packetSend port link) s = .next t ∧ (t.link port.toNat link.toNat).sending = rest ∧ (t.link port.toNat link.toNat).txNext = (s.link port.toNat link.toNat).txNext + 1
            ∧ (t.link port.toNat link.toNat).kept = (s.link port.toNat link.toNat).kept ++ [{ seq := (s.link port.toNat link.toNat).txNext, content := c }]
            ∧ t.pair (PORT_FLITS_TX_LO port.toNat) = (s.pair (PORT_FLITS_TX_LO port.toNat) + 1) % 2 ^ 64 ∧ only [.links, .lanes, .regs] s t)
        ∧ (∀ k o, (s.link port.toNat link.toNat).replay = [] → (s.link port.toNat link.toNat).kept.length < s.retryCap port.toNat → (s.link port.toNat link.toNat).sending = [] →
          s.chooseOut port.toNat link.toNat = some (k, o) →
          (o.bad = false → ∃ t, exec (.packetSend port link) s = .next t ∧ t.sw = { s.sw with egress := ldrop s.sw.egress k }
            ∧ (t.link port.toNat link.toNat).txNext = (s.link port.toNat link.toNat).txNext + 1 ∧ only [.links, .lanes, .regs, .sw] s t)
          ∧ (o.bad = true → ∃ t, exec (.packetSend port link) s = .next t ∧ t.sw = { s.sw with egress := ldrop s.sw.egress k }
            ∧ (t.link port.toNat link.toNat).txNext = (s.link port.toNat link.toNat).txNext ∧ t.fld MARL_UE_DROP = (s.fld MARL_UE_DROP + 1) % 2 ^ 32 ∧ only [.links, .lanes, .regs, .sw] s t))
        ∧ ((s.link port.toNat link.toNat).replay = [] →
          (s.retryCap port.toNat ≤ (s.link port.toNat link.toNat).kept.length ∨ ((s.link port.toNat link.toNat).sending = [] ∧ s.chooseOut port.toNat link.toNat = none)) →
          ∃ t, exec (.packetSend port link) s = .next t ∧ (t.link port.toNat link.toNat).toldRet = (s.link port.toNat link.toNat).ownRet
            ∧ (t.link port.toNat link.toNat).txNext = (s.link port.toNat link.toNat).txNext ∧ (t.link port.toNat link.toNat).kept = (s.link port.toNat link.toNat).kept ∧ only [.links, .lanes] s t)))

/-- Packets in the switch (R165, R166, R173, R216): one that has waited its time is routed once more and fails, one at the head of its account moves to its output
when there is room; the snapshot reaches the Sett. -/
def Obligations.SwitchCommands : Prop :=
  (∀ (ix : Nat) (o : OutPkt) (s : State), s.sw.egress[ix]? = some o → o.waiting ≠ none →
    let u := { s with sw := { s.sw with egress := ldrop s.sw.egress ix } }
    (∀ port q en, u.route o.pkt o.inPort = .send port q en →
      ∃ t held, exec (.linkWaitExpiry ix) s = .next t ∧ (o.held ≠ [] → held = o.held)
        ∧ t.sw = { s.sw with egress := ldrop s.sw.egress ix ++ [{ o with port := port, vc := q.hdr.vc, pkt := q, waiting := none, enters := en, held := held }], placed := t.sw.placed }
        ∧ only [.sw] s t)
    ∧ (∀ port, u.route o.pkt o.inPort = .wait port → o.pkt.hdr.expects = false →
      ∃ t, exec (.linkWaitExpiry ix) s = .next t ∧ t.sw = u.sw ∧ t.fld RT_DROP = (s.fld RT_DROP + 1) % 2 ^ 32
        ∧ t.fld RT_WAIT_EXPIRED = (s.fld RT_WAIT_EXPIRED + b2n o.pkt.hdr.isReq) % 2 ^ 32 ∧ regsBut [RT_DROP.off, RT_WAIT_EXPIRED.off] s t ∧ only [.sw, .regs] s t)
    ∧ (∀ port, u.route o.pkt o.inPort = .wait port → o.pkt.hdr.expects = true →
      ∃ t, exec (.linkWaitExpiry ix) s = .next t ∧ t.fld RT_WAIT_EXPIRED = (s.fld RT_WAIT_EXPIRED + 1) % 2 ^ 32 ∧ only [.sw, .regs] s t))
  ∧ (∀ (port : BitVec 5) (vc : BitVec 3) (i : InPkt) (rest : List InPkt) (out : Nat) (q : Packet) (en : Bool) (s : State), s.live = true → s.fabOn = true → i.bad = false → s.sw.ingress = i :: rest →
    i.port = port.toNat → i.vc = vc.toNat → s.route i.pkt i.arrival = .send out q en → s.egrRoom out q.hdr.vc i.cells = true →
    ∃ t held, exec (.egressMove port vc) s = .next t ∧ t.sw.ingress = rest ∧ (i.held ≠ [] → held = i.held)
      ∧ t.sw.egress = s.sw.egress ++ [{ inPort := some port.toNat, port := out, vc := q.hdr.vc, pkt := q, cells := i.cells, at_ := i.at_, waiting := none, enters := en, held := held }]
      ∧ t.pair RT_TRANSIT_LO = (s.pair RT_TRANSIT_LO + 1) % 2 ^ 64 ∧ regsBut [RT_TRANSIT_LO.off, RT_TRANSIT_HI.off] s t ∧ only [.sw, .links, .regs] s t)
  ∧ (∀ (n : Snapshot) (s : State), s.recd.snapBusy = some n →
    exec .snapshotComplete s = .next { s with recd := { s.recd with snapBusy := none }, sett := { s.sett with snapshot := some n } })

/-- Bypass pairs (R172, R176): a pair closes for a closing condition, with its open and listen-ready bits cleared, and opens once it is listen-ready. -/
def Obligations.PairCommands : Prop :=
  (∀ (pair : BitVec 4) (s : State), s.mustClose pair.toNat = true →
    ∃ t, exec (.bypassClose pair) s = .next t ∧ t.pairClosed pair.toNat = true ∧ (∀ k, k ≠ pair.toNat → t.pairClosed k = s.pairClosed k)
      ∧ (s.pairClosed pair.toNat = false → bitAt (t.fld RT_BYP_OPEN_OPEN) pair.toNat = false ∧ t.fld RT_BYP_CLOSES = (s.fld RT_BYP_CLOSES + 1) % 2 ^ 32)
      ∧ only [.links, .lanes, .sw, .regs] s t)
  ∧ (∀ (pair : BitVec 4) (s : State), let u := { s with pins := { s.pins with bypForceN := true } }
    (∀ k < 16, u.mustClose k = true → s.pairClosed k = true) → s.live = true → s.rails.vser = true → s.rails.vserh = true → s.pairClosed pair.toNat = true →
    (s.portWants (2 * pair.toNat) = true ∨ s.portWants (2 * pair.toNat + 1) = true) → u.mustClose pair.toNat = false →
    ∃ t, exec (.bypassOpen pair true) s = .next t ∧ t.pins = u.pins ∧ t.pairClosed pair.toNat = false ∧ bitAt (t.fld RT_BYP_STATUS_LISTEN_READY) pair.toNat = true
      ∧ (∀ k, k ≠ pair.toNat → t.pairClosed k = s.pairClosed k) ∧ only [.pins, .links, .lanes, .sw, .regs] s t)

/-- Local requests to memory (R186 to R190, R197): a request that passes the checks of R197 and hits a good line is performed and answered: RD with the line's bytes,
WR and WRP by a dirty line that holds the written bytes, ATOM by the operation's new value with the old one in the answer. -/
def Obligations.LocalRequests : Prop :=
  ∀ (p : Packet) (s u : State), s.mayEnter p → s.brought p = u →
    ((s.localAt p = none → u.sw.ingress = s.sw.ingress) ∧ ∀ k, s.localAt p = some k → u.sw.ingress = ldrop s.sw.ingress k)
    ∧ (∀ x : Line, (s.withLocal p).1.rspRoom p.rspCells = true → (s.withLocal p).1.idleAccess p = false → u.memCheck p ((s.withLocal p).1.ownPkt (s.held p)) = none →
      u.storeCalm → u.svcBefore u.nextTxn p.hdr = false → u.line (p.hdr.addr.toNat / 64) = some x → x.err = 0 → x.poison = false →
      p.hdr.noalloc = false → p.blocks = 1 →
      (p.hdr.opc = opRD →
        ∃ t, exec (.rd p) s = .next t ∧ t.nextTxn = u.nextTxn + 1 ∧ t.marl.lines = u.marl.lines ∧ t.pair MARL_HITS_LO = (u.pair MARL_HITS_LO + 1) % 2 ^ 64
          ∧ sends u t (mkRsp u.eid p.hdr stOK 0 x.data) ∧ regsBut [MARL_HITS_LO.off, MARL_HITS_HI.off, RT_DROP.off] u t ∧ only [.marl, .regs, .sw, .nextTxn] u t)
      ∧ (p.hdr.opc = opWR →
        ∃ t, exec (.wr p) s = .next t ∧ t.nextTxn = u.nextTxn + 1
          ∧ t.marl.lines = mput (p.hdr.addr.toNat / 64) { x with st := .dirty, data := slice p.payload 0 64, poison := false, gen := true, err := 0, evictFirst := false } u.marl.lines
          ∧ t.pair MARL_HITS_LO = (u.pair MARL_HITS_LO + 1) % 2 ^ 64 ∧ (if p.hdr.posted then { t.sw with placed := u.sw.placed } = u.sw else sends u t (mkRsp u.eid p.hdr stOK 0 []))
          ∧ regsBut [MARL_HITS_LO.off, MARL_HITS_HI.off, RT_DROP.off] u t ∧ only [.marl, .regs, .sw, .nextTxn, .fox] u t)
      ∧ (p.hdr.opc = opWRP → wrpMask p 0 ≠ 0 → wrpMask p 0 ≠ 2 ^ 64 - 1 →
        ∃ t, exec (.wrp p) s = .next t ∧ t.nextTxn = u.nextTxn + 1
          ∧ t.marl.lines = mput (p.hdr.addr.toNat / 64)
              { x with st := .dirty, data := mergeBytes x.data (slice p.payload 32 64) (wrpMask p 0), poison := false, gen := true, err := 0, evictFirst := false } u.marl.lines
          ∧ t.pair MARL_HITS_LO = (u.pair MARL_HITS_LO + 1) % 2 ^ 64 ∧ (if p.hdr.posted then { t.sw with placed := u.sw.placed } = u.sw else sends u t (mkRsp u.eid p.hdr stOK 0 []))
          ∧ regsBut [MARL_HITS_LO.off, MARL_HITS_HI.off, RT_DROP.off] u t ∧ only [.marl, .regs, .sw, .nextTxn, .fox] u t)
      ∧ (p.hdr.opc = opATOM →
        let w := atomWidth p.hdr.subop.toNat
        let o := p.hdr.addr.toNat % 64
        let old := leAt x.data o (w / 8)
        ∀ v, atomNew (p.hdr.subop.toNat % 16) w old (leAt p.payload 0 (w / 8)) (leAt p.payload 8 (w / 8)) = some v →
        ∃ t, exec (.atom p) s = .next t ∧ t.nextTxn = u.nextTxn + 1
          ∧ t.marl.lines = (if atomWrites (p.hdr.subop.toNat % 16) old (leAt p.payload 8 (w / 8)) then
              mput (p.hdr.addr.toNat / 64) { x with st := .dirty, data := splice x.data o (leBytes (w / 8) v), poison := false, gen := true, err := 0, evictFirst := false } u.marl.lines
            else u.marl.lines)
          ∧ (if p.hdr.posted then { t.sw with placed := u.sw.placed } = u.sw else sends u t (mkRsp u.eid p.hdr stOK 0 (leBytes 8 old))) ∧ only [.marl, .regs, .sw, .nextTxn, .fox, .qos] u t))

/-- Services and doorbells (R191, R302, R336): an SVC that passes its checks joins the queue of the engines; a doorbell of a ring's owner moves P. -/
def Obligations.ServiceRequests : Prop :=
  ∀ (p : Packet) (s u : State), s.mayEnter p → s.brought p = u →
    ((s.withLocal p).1.rspRoom 1 = true → (s.withLocal p).1.svcUsed + p.payload.length ≤ (s.withLocal p).1.denBytes / 4 → u.svcCheck p = none →
      ∃ t, exec (.svc p) s = .next t ∧ t.fox = { u.fox with svcQueue := u.fox.svcQueue ++ [p], svcNums := u.fox.svcNums ++ [u.nextTxn] }
        ∧ t.nextTxn = u.nextTxn + 1 ∧ t.pair FOX_SVC_RX_LO = (u.pair FOX_SVC_RX_LO + 1) % 2 ^ 64
        ∧ regsBut [FOX_SVC_RX_LO.off, FOX_SVC_RX_HI.off] u t ∧ only [.fox, .regs, .nextTxn] u t)
    ∧ (p.okForm = true → u.stateCheck = none → p.hdr.src = u.ringEid (p.hdr.subop.toNat % 64) → u.ringSt (p.hdr.subop.toNat % 64) = 1 → p.hdr.addr.toNat < 2 ^ 32 →
      idxSub p.hdr.addr.toNat (u.ringK (p.hdr.subop.toNat % 64)) ≤ u.sqLen (p.hdr.subop.toNat % 64) →
      idxSub p.hdr.addr.toNat (u.ringF (p.hdr.subop.toNat % 64)) ≤ u.sqLen (p.hdr.subop.toNat % 64) →
      ∃ t, exec (.dbell p) s = .next t ∧ t.ringK (p.hdr.subop.toNat % 64) = p.hdr.addr.toNat ∧ regsBut [(RING_SQ_PROD (p.hdr.subop.toNat % 64)).off] u t ∧ only [.regs] u t)

/-- Register accesses (R167, R204, R205, R466, R479, R487): MREG_RD is answered with the registers at its address, MREG_WR with the status of the
write; a read of a pair's low half takes the path's snapshot; a write of a register without rules of its own merges the word by access type; the
sideband keeps an offset and a status, answers a read with both, and counts a bad length. -/
def Obligations.RegisterAccesses : Prop :=
  (∀ (p : Packet) (s u : State), s.mayEnter p → s.brought p = u → s.acc.owed = [] → u.mregRsps < 16 → p.okForm = true →
    (∃ t, exec (.mregRd p) s = .next t ∧ sends u t (mkRsp u.eid p.hdr stOK 0 (u.readRegs .mreg (p.hdr.addr.toNat % 2 ^ 24) (p.hdr.subop.toNat + 1)).1)
      ∧ (p.hdr.subop = 0 → (u.readRegs .mreg (p.hdr.addr.toNat % 2 ^ 24) (p.hdr.subop.toNat + 1)).1 = leBytes 4 (u.readReg .mreg (p.hdr.addr.toNat % 2 ^ 24)).1)
      ∧ regsBut [RT_DROP.off] u t ∧ only [.acc, .sw, .regs] u t)
    ∧ (∀ w : State, u.regWrite .mreg (some p.hdr) (p.hdr.addr.toNat % 2 ^ 24) (leAt p.payload 0 4) = (some stOK, w) → w.calm = true → (p.hdr.opc = opMREGWR → (s.withLocal p).1.mapHeld (p.hdr.addr.toNat % 2 ^ 24) = false) →
      ∃ t, exec (.mregWr p) s = .next t ∧ t.acc.mregStatus = stOK ∧ sends w t (mkRsp u.eid p.hdr stOK 0 []) ∧ regsBut [RT_DROP.off] w t ∧ only [.acc, .sw, .regs] w t))
  ∧ (∀ (via : Path) (off : BitVec 24) (b : Blk) (o : Nat) (d : RegDesc) (s : State), s.pathUp via = true → (via = .mreg ∨ s.pathLimited = false) →
    blkOf off.toNat = some (b, o) → descOf off.toNat = some d → d.pair = true → pairHigh b off.toNat = false →
    ∃ t, exec (.counterLoRead via off) s = .next t ∧ mget t.acc.snaps (pathNum via * 2 ^ 24 + off.toNat) = some (BitVec.ofNat 32 (s.readNow (off.toNat + 4))) ∧ only [.acc] s t)
  ∧ (∀ (via : Path) (off : BitVec 24) (v : BitVec 32) (b : Blk) (o : Nat) (d : RegDesc) (s : State), blkOf off.toNat = some (b, o) → descOf off.toNat = some d →
    s.takes via b = true → s.legal off.toNat v.toNat = true → off.toNat ≠ FLT_ACK.off → off.toNat ≠ FLT_INJ.off →
    (∀ x : State, x.applyWrite via b off.toNat o v.toNat d = atOnce (x.plainWrite off.toNat v.toNat d)) →
    (∃ t, exec (.registerWrite via off v) s = .next t ∧ t.reg off.toNat = mergeWrite d s.locked (s.reg off.toNat) v.toNat % 2 ^ 32 ∧ regsBut [off.toNat] s t ∧ taken via [] s t)
    ∧ (via = .i3c → ∃ t, exec (.i3cRegWrite off v) s = .next t ∧ t.reg off.toNat = mergeWrite d s.locked (s.reg off.toNat) v.toNat % 2 ^ 32
        ∧ t.acc.i3c = { s.acc.i3c with offset := off, status := stOK } ∧ regsBut [off.toNat] s t ∧ only [.acc, .regs] s t))
  ∧ (∀ s : State, s.rails.vaon = true →
    (∀ off, exec (.i3cSetOffset off) s = .next { s with acc := { s.acc with i3c := { s.acc.i3c with offset := off } } })
    ∧ (∃ t, exec .i3cRegRead s = .next t ∧ only [.acc] s t
        ∧ (s.pathLimited = false → t.acc.i3c.last = leBytes 4 (s.readReg .i3c s.acc.i3c.offset.toNat).1 ++ [s.acc.i3c.status])
        ∧ (s.pathLimited = true → earlyRead s.acc.i3c.offset.toNat = false → t.acc.i3c.last = [0, 0, 0, 0, stSTATE]))
    ∧ (∀ b : List (BitVec 8), b.length ≠ 3 → b.length ≠ 7 → ∃ t, exec (.i3cBadLength b) s = .next t ∧ t.acc.i3c.status = stMALFORMED
        ∧ t.fld GLB_CNT_VIOL_MALFORMED = (s.fld GLB_CNT_VIOL_MALFORMED + b2n s.rails.vcore) % 2 ^ 32 ∧ regsBut [GLB_CNT_VIOL_MALFORMED.off] s t ∧ only [.acc, .regs] s t)
    ∧ (∀ a, ∃ t, exec (.entdaa a) s = .next t ∧ t.acc.i3c.dynAddr = some a ∧ only [.acc] s t))

/-- The order of checks of a register write (R487, R9, R8, R465): reserved bits and values come first (MALFORMED), then a register that may not be
written (ACCESS), then the state (STATE); a write that fails one counts that violation in its block and changes no register beside. -/
def Obligations.WriteOrder : Prop :=
  ∀ (via : Path) (off : BitVec 24) (v : BitVec 32) (b : Blk) (o : Nat) (d : RegDesc) (s : State), blkOf off.toNat = some (b, o) → descOf off.toNat = some d →
    s.pathUp via = true → (via = .mreg ∨ s.pathLimited = false) → s.calm = true → s.mapHeld off.toNat = false → off.toNat ≠ FLT_ACK.off → off.toNat ≠ FLT_INJ.off →
    (v.toNat &&& fieldMask d ≠ v.toNat ∨ s.rsvdValue b off.toNat o v.toNat = true →
      ∃ t, exec (.registerWrite via off v) s = .next t ∧ t.acc = (s.pathStatus via stMALFORMED).acc ∧ t.reg (violReg off.toNat .rsvd) = (s.reg (violReg off.toNat .rsvd) + 1) % 2 ^ 32
        ∧ regsBut [violReg off.toNat .rsvd] s t ∧ only [.acc, .regs] s t)
    ∧ (v.toNat &&& fieldMask d = v.toNat → s.rsvdValue b off.toNat o v.toNat = false →
      (writesNothing off.toNat d = true →
        ∃ t, exec (.registerWrite via off v) s = .next t ∧ t.acc = (s.pathStatus via stACCESS).acc ∧ t.reg (violReg off.toNat .access) = (s.reg (violReg off.toNat .access) + 1) % 2 ^ 32
          ∧ regsBut [violReg off.toNat .access] s t ∧ only [.acc, .regs] s t)
      ∧ (writesNothing off.toNat d = false → ((ownTime off.toNat via = false ∧ s.blockOpen b = false) ∨ (s.locked = true ∧ (allRwl d = true ∨ lockedOut off.toNat = true)) ∨ s.unitGone b o = true) →
        ∃ t, exec (.registerWrite via off v) s = .next t ∧ t.acc = (s.pathStatus via stSTATE).acc ∧ t.reg (violReg off.toNat .state) = (s.reg (violReg off.toNat .state) + 1) % 2 ^ 32
          ∧ regsBut [violReg off.toNat .state] s t ∧ only [.acc, .regs] s t))

/-- Answers to the stack's own requests (R199, R207, R334): a response that matches an outstanding request ends it, and an engine that waits for it
gets its data; no answer in time is an answer TIMEOUT; one that matches a request but is not its answer ends it as
MALFORMED; a response that matches none is counted. -/
def Obligations.OwnAnswers : Prop :=
  (∀ (c : Instr) (p : Packet) (q : OutReq) (e acc : Nat) (g : Run) (a : Nat × Acc) (s u : State),
    ((c = .rdRsp p ∧ q.pkt.hdr.opc = opRD) ∨ (c = .wrAck p ∧ (q.pkt.hdr.opc = opWR ∨ q.pkt.hdr.opc = opWRP)) ∨ (c = .atomRsp p ∧ q.pkt.hdr.opc = opATOM) ∨ (c = .svcRsp p ∧ q.pkt.hdr.opc = opSVC)) →
    s.live = true → p.hdr.dst = s.eid → s.isNext p → (s.withLocal p).1.takeIn (s.withLocal p).2 = u → u.fox.unsent = [] → u.fox.outs.find? (fun o => o.matches p.hdr) = some q → rspOpc q.pkt.hdr.opc = some p.hdr.opc →
    packetStatuses.contains p.hdr.status = true → rspLenOk q.pkt.hdr p.hdr.status p.hdr.len.toNat = true → q.owner = .stage e acc →
    (u.eng e).run = some g → g.opened.find? (fun o => o.1 == acc) = some a →
    ∃ t r x, exec c s = .next t ∧ t.fox.outs = u.fox.outs.filter (fun o => o.tag != q.tag) ∧ (t.eng e).run = some r ∧ r.answers = g.answers ++ [(acc, x)] ∧ x.status = p.hdr.status
      ∧ r.opened = g.opened.filter (fun o => o.1 != acc) ∧ (∀ n, n ≠ e → t.eng n = u.eng n) ∧ only [.fox] u t)
  ∧ (∀ (tag : BitVec 16) (q : OutReq) (e acc : Nat) (g : Run) (a : Nat × Acc) (s : State), s.live = true → s.fox.unsent = [] → s.fox.outs.find? (fun o => o.tag == tag) = some q → q.owner = .stage e acc →
    (s.eng e).run = some g → g.opened.find? (fun o => o.1 == acc) = some a →
    ∃ t r x, exec (.requestTimeout tag) s = .next t ∧ t.fox.outs = s.fox.outs.filter (fun o => o.tag != q.tag) ∧ (t.eng e).run = some r ∧ r.answers = g.answers ++ [(acc, x)] ∧ x.status = 0x0E
      ∧ only [.fox] s t)
  ∧ (∀ (c : Instr) (p : Packet) (q : OutReq) (e acc : Nat) (g : Run) (a : Nat × Acc) (s u : State), (c = .rdRsp p ∨ c = .wrAck p ∨ c = .atomRsp p ∨ c = .svcRsp p ∨ c = .mregRsp p) →
    s.live = true → p.hdr.dst = s.eid → s.isNext p → (s.withLocal p).1.takeIn (s.withLocal p).2 = u → u.fox.unsent = [] → u.fox.outs.find? (fun o => o.matches p.hdr) = some q →
    (rspOpc q.pkt.hdr.opc ≠ some p.hdr.opc ∨ packetStatuses.contains p.hdr.status = false ∨ rspLenOk q.pkt.hdr p.hdr.status p.hdr.len.toNat = false) → q.owner = .stage e acc →
    (u.eng e).run = some g → g.opened.find? (fun o => o.1 == acc) = some a →
    ∃ t r x, exec c s = .next t ∧ t.fld GLB_CNT_VIOL_MALFORMED = (u.fld GLB_CNT_VIOL_MALFORMED + 1) % 2 ^ 32 ∧ t.fox.outs = u.fox.outs.filter (fun o => o.tag != q.tag)
      ∧ (t.eng e).run = some r ∧ r.answers = g.answers ++ [(acc, x)] ∧ x.status = stMALFORMED ∧ regsBut [GLB_CNT_VIOL_MALFORMED.off] u t ∧ only [.fox, .regs] u t)
  ∧ (∀ (c : Instr) (p : Packet) (s u : State), (c = .rdRsp p ∨ c = .wrAck p ∨ c = .atomRsp p ∨ c = .svcRsp p ∨ c = .mregRsp p) → s.live = true → p.hdr.dst = s.eid → s.isNext p →
    (s.withLocal p).1.takeIn (s.withLocal p).2 = u → u.fox.outs.find? (fun o => o.matches p.hdr) = none →
    ∃ t, exec c s = .next t ∧ t.fld GLB_RSP_UNEXPECTED = (u.fld GLB_RSP_UNEXPECTED + 1) % 2 ^ 32 ∧ regsBut [GLB_RSP_UNEXPECTED.off] u t ∧ only [.regs] u t)

/-- The Marl store and its pads (R211, R222, R224, R226, R231, R291, R379, R383, R389): a fill brings a clean line, a confirmed write-back cleans one, a
flush ends with no mark, quiesce is reached once nothing local is open, a division changes hands with an empty cache; a quiet window moves one delay
code; the patrol corrects a unit and counts its passes; D follows the channels. -/
def Obligations.MarlCommands : Prop :=
  (∀ (c : BitVec 5) (s : State), s.live = true → s.storeCalm →
    (∀ (r : RdReq) (p : Bool) (d : List (BitVec 8)) (rest : List (RdReq × Bool × List (BitVec 8))) (l w : Nat), (s.chn c.toNat).arrived = (r, p, d) :: rest → r.use = .miss l → s.line l = none →
      s.takeWay l r.cls r.grp = (some w, s) →
      ∃ t, exec (.missFillDone c) s = .next t ∧ t.marl.lines = mput l { st := .clean, data := d, poison := p, way := w } s.marl.lines ∧ (t.chn c.toNat).arrived = rest
        ∧ (∀ k, k ≠ c.toNat → t.chn k = s.chn k) ∧ only [.chan, .marl] s t)
    ∧ (∀ (i l : Nat) (w : WrReq) (x : Line), (enum (s.chn c.toNat).writes).find? (fun e => e.2.issued) = some (i, w) → w.line = some l → s.line l = some x →
      ∃ t, exec (.writebackConfirmed c) s = .next t ∧ (t.chn c.toNat).writes = ldrop (s.chn c.toNat).writes i ∧ t.pair MARL_WRITEBACKS_LO = (s.pair MARL_WRITEBACKS_LO + 1) % 2 ^ 64
        ∧ t.line l = (if x.gen then some { x with wbBusy := false } else if x.evictFirst || (x.flushMark && s.marl.flush == some true) then none
            else some { x with st := .clean, wbBusy := false, flushMark := false })
        ∧ (∀ m, m ≠ l → t.line m = s.line m) ∧ only [.chan, .marl, .regs] s t))
  ∧ (∀ s : State, s.marl.flush ≠ none → s.live = true → (∀ e ∈ s.marl.lines, e.2.flushMark = true → s.lineStuck e.1 = false) →
    ∃ t, exec .flushDone s = .next t ∧ t.marl.flush = none ∧ t.marl.flushRing0 = false ∧ t.fld MARL_STATUS_FLUSH_BUSY = 0)
  ∧ (∀ s : State, s.fld MARL_CTL_QUIESCE = 1 → s.localIdle = true →
    ∃ t, exec .quiescedReached s = .next t ∧ t.fld MARL_STATUS_QUIESCED = 1 ∧ regsBut [MARL_STATUS.off] s t ∧ only [.regs] s t)
  ∧ (∀ (v : BitVec 32) (s : State), s.marl.newPart = some v → s.live = true → (∀ e ∈ s.marl.lines, s.heldLine e.1 e.2 = false ∧ (e.2.st = .dirty → s.lineStuck e.1 = false)) →
    s.sharedUsed ≤ s.sharedCells → (∀ x ∈ s.heldCells, x / 4096 % 16 < s.bufBanks) →
    ∃ t, exec .repartitionDone s = .next t ∧ t.reg MARL_PART.off = v.toNat ∧ t.fld MARL_STATUS_PART_BUSY = 0 ∧ t.marl.lines = [] ∧ t.marl.newPart = none)
  ∧ (∀ (i : BitVec 6) (up : Bool) (s : State), s.padsRun i.toNat = true → (∀ l ∈ s.marl.rewrite, s.sliceOf l ≠ i.toNat) →
    (∃ t, exec (.marlQuietWindow i up) s = .next t ∧ (t.slicePads i.toNat).turn = ((s.slicePads i.toNat).turn + 1) % 516
      ∧ mgetD (t.slicePads i.toNat).delay ((s.slicePads i.toNat).turn / 258 * 512 + (s.slicePads i.toNat).turn % 258) 0
        = (let o := mgetD (s.slicePads i.toNat).delay ((s.slicePads i.toNat).turn / 258 * 512 + (s.slicePads i.toNat).turn % 258) 0; if up then o + 1 else o - 1)
      ∧ (∀ k, k ≠ i.toNat → t.slicePads k = s.slicePads k) ∧ t.marl.lines = s.marl.lines ∧ only [.marl] s t)
    ∧ ∃ t, exec (.marlQuietWindowForced i) s = .next t ∧ (t.slicePads i.toNat).turn = ((s.slicePads i.toNat).turn + 1) % 516 ∧ t.marl.lines = s.marl.lines ∧ only [.marl, .free] s t)
  ∧ (∀ s : State, s.awake = true → s.ready = true → s.fld BST_BADGER_CFG_MARL_EN = 1 → s.calm = true →
    (∀ (n : BitVec 34) (err : BitVec 560) (x : Line) (b : Nat), s.line n.toNat = some x → s.flt.inject = none → sramDecode (x.err ^^^ err).toNat = .corrected b →
      ∃ t, exec (.marlPatrol (.line n) err) s = .next t ∧ t.fld MARL_CE = (s.fld MARL_CE + 1) % 2 ^ 32 ∧ n.toNat ∈ t.marl.rewrite ∧ t.line n.toNat = some { x with err := x.err ^^^ err }
        ∧ (∀ m, m ≠ n.toNat → t.line m = s.line m) ∧ only [.marl, .regs, .prot] s t)
    ∧ (∀ e : BitVec 5, e.toNat + 1 = s.nEngines → s.flt.inject = none → ∃ t, exec (.marlPatrol (.store e) 0) s = .next t ∧ t.fld BST_BADGER_MARL_PASSES = (s.fld BST_BADGER_MARL_PASSES + 1) % 2 ^ 32
        ∧ t.prot = { s.prot with marlOnce := [] } ∧ regsBut [BST_BADGER_MARL_PASSES.off] s t ∧ only [.prot, .regs] s t))
  ∧ (∀ s : State, s.ready = true → s.dead = false →
    ∃ t, exec .dEvaluation s = .next t ∧ t.qos = { s.qos with d := s.deliverNow, live := true } ∧ t.fld QOS_DELIV = s.deliverNow / 200 % 2 ^ 32 ∧ only [.qos, .regs, .recd, .sett] s t)

/-- Ring events (R302, R304, R305, R307, R310, R311): polls, re-reads and retries read the ring's control block, a fetch reads waiting slots, a completion
write sends the first entry, or two of one block; a descriptor that starts becomes a job on the lowest-numbered eligible engine, or completes with STATE
under a firmware that is degraded. -/
def Obligations.RingEvents : Prop :=
  (∀ (n : BitVec 6) (s : State) (c : Instr) (use : Nat), s.working = true → s.ringSt n.toNat = 1 →
    (c = .ringPoll n ∧ use = 0 ∧ s.fld (RING_CFG_DB_MODE n.toNat) = 1) ∨ (c = .rcbHReread n ∧ use = 1 ∧ s.cplSpace n.toNat = 0 ∧ s.ringF n.toNat ≠ s.ringK n.toNat)
      ∨ (c = .ring0FetchRetry ∧ use = 2 ∧ n = 0 ∧ s.retries0 4 = true ∧ s.retries0 2 = false) →
    (s.ring n.toNat).rcbRead = none → s.fox.outs.length < 65536 →
    ∃ t q, exec c s = .next t ∧ t.ring n.toNat = { s.ring n.toNat with rcbRead := some use } ∧ t.fox.outs = s.fox.outs ++ [q] ∧ q.owner = .rcb n.toNat ∧ q.pkt.hdr.opc = opRD
      ∧ q.pkt.hdr.dst = s.ringEid n.toNat ∧ q.pkt.hdr.src = s.eid ∧ q.pkt.hdr.addr = BitVec.ofNat 64 (s.rcbAddr n.toNat) ∧ q.pkt.hdr.tag = q.tag ∧ (∀ k, k ≠ n.toNat → t.ring k = s.ring k)
      ∧ only [.rings, .fox, .sw, .regs] s t)
  ∧ (∀ (n : BitVec 6) (s : State) (c : Instr), s.working = true →
    (c = .descFetch n ∧ ¬(n = 0 ∧ s.retries0 2 = true)) ∨ (c = .ring0FetchRetry ∧ n = 0 ∧ s.retries0 2 = true ∧ s.retries0 4 = false) →
    s.ringSt n.toNat = 1 → (s.ring n.toNat).slots = [] → (s.ring n.toNat).fetching = 0 → (s.ring n.toNat).live < 32 → s.cplSpace n.toNat ≠ 0 →
    s.fox.outs.length + (s.slotPieces n.toNat (min 64 (idxSub (s.ringK n.toNat) (s.ringF n.toNat))) (s.ringF n.toNat) (min 64 (idxSub (s.ringK n.toNat) (s.ringF n.toNat)))).length ≤ 65536 →
    s.ringF n.toNat ≠ s.ringK n.toNat → s.descCells + min 64 (idxSub (s.ringK n.toNat) (s.ringF n.toNat)) ≤ s.descPool →
    ∃ t, exec c s = .next t ∧ (t.ring n.toNat).fetching = min 64 (idxSub (s.ringK n.toNat) (s.ringF n.toNat)) ∧ (t.ring n.toNat).fetched = []
      ∧ t.fox.outs.length = s.fox.outs.length + (s.slotPieces n.toNat (t.ring n.toNat).fetching (s.ringF n.toNat) (t.ring n.toNat).fetching).length
      ∧ (∀ k, k ≠ n.toNat → t.ring k = s.ring k) ∧ only [.rings, .fox, .sw, .pwr, .regs] s t)
  ∧ (∀ (n : BitVec 6) (s : State) (c : Instr) (e : CplEntry) (rest : List CplEntry), s.awake = true →
    (c = .completionWrite n ∧ s.ringSt n.toNat ≠ 0 ∧ (s.ring n.toNat).cplHeld = false) ∨ (c = .ring0CompletionRetry ∧ n = 0 ∧ (s.ring 0).cplHeld = true) →
    (s.ring n.toNat).cpls = e :: rest → (s.ring n.toNat).cplBusy = 0 → s.canSend 64 = true → s.fox.outs.length < 65536 →
    ∃ t q, exec c s = .next t ∧ t.fox.outs = s.fox.outs ++ [q] ∧ q.owner = .cpl n.toNat ∧ q.pkt.hdr.opc = opWRP ∧ q.pkt.hdr.dst = s.cqEid n.toNat
      ∧ t.ring n.toNat = { s.ring n.toNat with cplHeld := false, cplBusy := if s.ringT n.toNat % s.cqLen n.toNat % 2 = 1 ∨ rest = [] then 1 else 2 }
      ∧ (∀ k, k ≠ n.toNat → t.ring k = s.ring k) ∧ only [.rings, .fox, .sw, .regs] s t)
  ∧ (∀ (n : BitVec 6) (d : Desc) (s : State), n ≠ 0 → s.calm = true → s.readyDesc n.toNat = some d →
    (s.fld GLB_START_STATUS_FW_DEGRADED = 1 →
      ∃ t x, exec (.descStart n) s = .next t ∧ (t.ring n.toNat).cpls = (s.ring n.toNat).cpls ++ [x] ∧ x.job = d.job ∧ x.status = stSTATE ∧ only [.rings, .regs] s t)
    ∧ ∀ e : Nat, s.fld GLB_START_STATUS_FW_DEGRADED = 0 → s.fox.allDisabled = false → (List.range s.nEngines).find? (fun e => s.eligible e n.toNat) = some e → (s.pickRing e).map (·.1) = some n.toNat →
      (∀ i < descStages d.hdr, operandOk false (descOp d.hdr i) i (s.fld CVU_CKP_GRANULES) (descOperand d.hdr d.payload i) d.payload.length = true) →
      ∃ t r, exec (.descStart n) s = .next t ∧ (t.eng e).run = some r ∧ r.job = d.job ∧ (t.eng e).st = .run ∧ t.fld (FOX_STATUS_RING e) = n.toNat ∧ t.fox.lastRing = n.toNat
        ∧ (∃ j ∈ t.fox.jobs, j.id = d.job ∧ j.payload = d.payload ∧ j.stage = 0) ∧ t.chan.dram = s.chan.dram)
  ∧ (∀ (d : Desc) (s : State) (c : Instr), s.nextMgmt = some d →
    (c = .nop ∧ descOp d.hdr 0 = 0x40) ∨ (c = .ringSetup ∧ descOp d.hdr 0 = 0x41) ∨ (c = .setPstate ∧ descOp d.hdr 0 = 0x44) ∨ (c = .marlWb ∧ descOp d.hdr 0 = 0x48) ∨ (c = .fwActivate ∧ descOp d.hdr 0 = 0x55) →
    exec (.descStart 0) s = exec c s)


/-- Ring-0 operations that end at once (R290, R298, R312, R313, R322, R323, R391, R417, R427, R433, R445): NOP returns its data, a ring is set up or
resumed, a power state asked for, an injection armed, staged QoS values committed, settings written, the log frozen or thawed, a firmware slot written
or its image verified and chosen; each completes with its status and RESULT. -/
def Obligations.RingZeroAtOnce : Prop :=
  (∀ (s : State) (d : Desc), s.starts0 0x40 d →
    ∃ t, exec .nop s = .next t ∧ ended0 s t d.job stOK (slice d.payload 0 8) ∧ only [.fox, .rings, .pwr, .regs] s t)
  ∧ (∀ (s : State) (d : Desc) (n : Nat), s.starts0 0x41 d → namesRing d.payload = true → 48 ≤ d.payload.length → leAt d.payload 44 4 = 0 → n = byteAt d.payload 0 →
    setupOk (leAt d.payload 8 4) (leAt d.payload 16 4) (leAt d.payload 24 4) (leAt d.payload 32 4) (leAt d.payload 36 4) (leAt d.payload 40 4) = true → s.ringSt n = 0 →
    ∃ t, exec .ringSetup s = .next t ∧ ended0 s t d.job stOK [] ∧ (∀ i, i < 9 → t.reg ((RING_SQ_LO n).off + 4 * i) = leAt d.payload (8 + 4 * i) 4)
      ∧ t.ringSt n = 1 ∧ t.ringF n = 0 ∧ t.ringK n = 0 ∧ t.ringT n = 0 ∧ t.ring n = {} ∧ (∀ k, k ≠ 0 → k ≠ n → t.ring k = s.ring k) ∧ only [.fox, .rings, .pwr, .regs] s t)
  ∧ (∀ (s : State) (d : Desc) (n : Nat), s.starts0 0x43 d → namesRing d.payload = true → n = byteAt d.payload 0 → s.ringSt n = 2 → s.fox.outs.length < 65536 →
    ∃ t, exec .ringResume s = .next t ∧ ended0 s t d.job stOK [] ∧ t.ringSt n = 1 ∧ t.fld (RING_STATUS_HALT_CAUSE n) = 0 ∧ t.fld (RING_STATUS_HALT_STATUS n) = 0
      ∧ t.ring n = { s.ring n with cplHeld := false, rcbRead := some 2 } ∧ (∀ k, k ≠ 0 → k ≠ n → t.ring k = s.ring k) ∧ only [.fox, .rings, .pwr, .sw, .regs] s t)
  ∧ (∀ (s : State) (d : Desc) (target : Nat), s.starts0 0x44 d → 8 ≤ d.payload.length → leAt d.payload 1 3 = 0 → byteAt d.payload 0 = target → s.fox.mgmt = [] → s.sleepRefused = false → s.calm = true →
    (target = 1 → ∃ t, exec .setPstate s = .next t ∧ ended0 s t d.job stOK [] ∧ t.pwr = { s.pwr with s1Req := true } ∧ t.fld GLB_PWR_STATUS_TARGET = 1 ∧ t.sleep = s.sleep ∧ only [.fox, .rings, .pwr, .regs] s t)
    ∧ (target = 2 ∨ target = 3 → ∃ t e, exec .setPstate s = .next t ∧ t.pwr = { s.pwr with entry := some e, wakeTimer := leAt d.payload 4 4, s1Req := false } ∧ e.target = target ∧ e.asker = .ring0
        ∧ (e.answered = true ↔ s.txns = [] ∧ s.outsLeft = false ∧ s.fox.jobs = [] ∧ s.fox.svcQueue = []) ∧ (if e.answered then ended0 s t d.job stOK [] else runs0 s t 0x44 d)
        ∧ t.fld GLB_PWR_STATUS_TARGET = target ∧ t.sleep = 0 ∧ only [.fox, .rings, .pwr, .regs] s t))
  ∧ (∀ (s : State) (d : Desc) (ch unit n : Nat) (ue : Bool), s.starts0 0x47 d → 8 ≤ d.payload.length → zeroAt d.payload 4 4 = true → byteAt d.payload 0 = ch → byteAt d.payload 1 = unit →
    byteAt d.payload 2 = b2n ue → byteAt d.payload 3 = n → injOk ch unit ue = true → unit < s.injUnits ch → s.on FLT_CFG_INJ_EN = true → (∀ i, s.flt.inject = some i → i.checker = ch ∨ n = 0) →
    ∃ t, exec .fltInject s = .next t ∧ ended0 s t d.job stOK [] ∧ t.flt = { s.flt with inject := if n = 0 then none else some { checker := ch, ue := ue, unit := unit, remaining := n } }
      ∧ t.fld FLT_INJ_STATUS_ARMED = (if n = 0 then 0 else 1) ∧ t.fld FLT_INJ_STATUS_REMAINING = n ∧ only [.fox, .rings, .pwr, .flt, .regs] s t)
  ∧ (∀ (s : State) (d : Desc) (n : Nat), s.starts0 0x4B d → n = leAt d.payload 0 2 → 1 ≤ n → n ≤ 511 → 8 + 8 * n ≤ d.payload.length → leAt d.payload 2 6 = 0 →
    (∀ k < n, qosEntryOk (leAt d.payload (8 + 8 * k) 4) (leAt d.payload (12 + 8 * k) 4) = true) →
    ∃ t r, exec .qosSet s = .next t ∧ (r = stOK ∨ r = stMALFORMED ∨ r = stOVERCOMMIT)
      ∧ ended0 s t d.job r [r, BitVec.ofNat 8 (s.fld QOS_COMMIT_STATUS_RESULT_SEQ + 1)] ∧ t.fld QOS_COMMIT_STATUS_VALID = 1 ∧ t.fld QOS_COMMIT_STATUS_RESULT = r.toNat
      ∧ t.fld QOS_COMMIT_STATUS_RESULT_SEQ = (s.fld QOS_COMMIT_STATUS_RESULT_SEQ + 1) % 256
      ∧ (∀ k < n, (∀ j < n, k < j → leAt d.payload (8 + 8 * j) 4 ≠ leAt d.payload (8 + 8 * k) 4) → t.reg (QOS_COMMIT.off + leAt d.payload (8 + 8 * k) 4) = leAt d.payload (12 + 8 * k) 4)
      ∧ (r = stOK → ∀ l < 64, t.reg (QOS_LABEL_ACT l).off = t.reg (QOS_LABEL_MAP l).off) ∧ (r ≠ stOK → t.qos = s.qos) ∧ only [.fox, .rings, .pwr, .qos, .recd, .sett, .regs] s t)
  ∧ (∀ (s : State) (d : Desc), s.starts0 0x4C d → 16 ≤ d.payload.length → zeroAt d.payload 12 4 = true → limitsOk (leAt d.payload 0 4) (leAt d.payload 4 4) (leAt d.payload 8 4) = true →
    ∃ t, exec .thmSet s = .next t ∧ ended0 s t d.job stOK [] ∧ t.fld THM_LIMITS = leAt d.payload 0 4 ∧ t.fld THM_LOW = leAt d.payload 4 4 ∧ t.fld THM_THROTTLE_CFG = leAt d.payload 8 4
      ∧ only [.fox, .rings, .pwr, .recd, .sett, .regs] s t)
  ∧ (∀ (s : State) (d : Desc), s.starts0 0x4D d → 8 ≤ d.payload.length → badgerCfgOk (leAt d.payload 0 4) = true → s.patrolOk (leAt d.payload 4 4) = true →
    ∃ t, exec .badgerSet s = .next t ∧ ended0 s t d.job stOK [] ∧ t.reg BST_BADGER_CFG.off = leAt d.payload 0 4 ∧ t.fld BST_BADGER_CHAN_EN = leAt d.payload 4 4 ∧ only [.fox, .rings, .pwr, .prot, .regs] s t)
  ∧ (∀ (s : State) (d : Desc), s.starts0 0x52 d → 16 ≤ d.payload.length → zeroAt d.payload 12 4 = true → leAt d.payload 0 4 ≤ 1000 → dstOk (leAt d.payload 4 4) = true → dstOk (leAt d.payload 8 4) = true →
    ∃ t, exec .telSet s = .next t ∧ ended0 s t d.job stOK [] ∧ t.fld TEL_CFG = leAt d.payload 0 4 ∧ t.fld (TEL_DST 0) = leAt d.payload 4 4 ∧ t.fld (TEL_DST 1) = leAt d.payload 8 4
      ∧ only [.fox, .rings, .pwr, .regs] s t)

/-- The freeze of the log, and firmware slots (R322, R323, R427): a freeze drains the staging queue before it takes effect and a thaw ends it, through
a register or ring 0; a slot other than the running one takes bytes and is marked written; activation verifies the image, and chooses the slot
only where it holds. -/
def Obligations.LogAndFirmware : Prop :=
  (∀ (p : Path) (s : State), s.takes p .recorder = true → s.locked = false →
    (s.recd.freeze = .off → ∃ t, exec (.recFreezeOn (some p)) s = .next t ∧ t.recd.staging = s.recd.staging ∧ (s.recd.staging ≠ [] → t.recd = { s.recd with freeze := .draining, waiter := false })
        ∧ (s.recd.staging = [] → t.recd = { s.recd with freeze := .frozen s.now, waiter := false }) ∧ taken p [.recd] s t)
    ∧ (s.isFrozen = true → ∃ t, exec (.recThaw (some p)) s = .next t ∧ t.recd.freeze = .off ∧ t.recd.holding = [] ∧ taken p [.recd, .sett] s t))
  ∧ (∀ (s : State) (d : Desc), s.starts0 0x51 d → 8 ≤ d.payload.length → zeroAt d.payload 1 7 = true →
    (byteAt d.payload 0 = 1 → s.recd.freeze = .off → s.recd.staging ≠ [] →
      ∃ t, exec (.recFreezeOn none) s = .next t ∧ runs0 s t 0x51 d ∧ t.recd = { s.recd with freeze := .draining, waiter := true } ∧ only [.fox, .rings, .pwr, .recd, .regs] s t)
    ∧ (byteAt d.payload 0 = 1 → s.recd.freeze = .off → s.recd.staging = [] → s.mgmtOf 0x51 = [] →
      ∃ t, exec (.recFreezeOn none) s = .next t ∧ ended0 s t d.job stOK (leBytes 4 s.recNewest) ∧ t.recd = { s.recd with freeze := .frozen s.now, waiter := false } ∧ only [.fox, .rings, .pwr, .recd, .regs] s t)
    ∧ (byteAt d.payload 0 = 0 → s.isFrozen = true →
      ∃ t, exec (.recThaw none) s = .next t ∧ ended0 s t d.job stOK (leBytes 4 t.recNewest) ∧ t.recd.freeze = .off ∧ t.recd.holding = [] ∧ only [.fox, .rings, .pwr, .recd, .sett, .regs] s t))
  ∧ (∀ (s : State) (d : Desc) (slot at_ : Nat), s.nextMgmt = some d → descOp d.hdr 0 = 0x54 → 16 ≤ d.payload.length → byteAt d.payload 0 = slot → slot ≤ 1 → leAt d.payload 1 3 = 0 →
    leAt d.payload 4 4 = at_ → at_ % 8 = 0 → at_ + (d.payload.length - 8) ≤ 1048576 →
    (s.fld GLB_START_STATUS_FW_SLOT ≠ slot + 1 →
      ∃ t, exec .fwSlotWrite s = .next t ∧ ended0 s t d.job stOK [] ∧ (∀ i, i < d.payload.length - 8 → mgetD t.sett.fw (slot * 1048576 + at_ + i) 0 = d.payload.getD (8 + i) 0)
        ∧ (∀ a, (a < slot * 1048576 + at_ ∨ slot * 1048576 + at_ + (d.payload.length - 8) ≤ a) → mgetD t.sett.fw a 0 = mgetD s.sett.fw a 0)
        ∧ t.sett = { s.sett with fw := t.sett.fw, slotA := if slot = 0 then .written else s.sett.slotA, slotB := if slot = 1 then .written else s.sett.slotB }
        ∧ only [.fox, .rings, .pwr, .sett, .regs] s t)
    ∧ (s.fld GLB_START_STATUS_FW_SLOT = slot + 1 → ∃ t, exec .fwSlotWrite s = .next t ∧ ended0 s t d.job stSTATE [] ∧ only [.fox, .rings, .pwr, .regs] s t))
  ∧ (∀ (s : State) (d : Desc) (slot : Nat), s.starts0 0x55 d → 8 ≤ d.payload.length → byteAt d.payload 0 = slot → slot ≤ 1 → leAt d.payload 1 7 = 0 →
    ∃ t, exec .fwActivate s = .next t ∧ only [.fox, .rings, .pwr, .recd, .sett, .regs] s t
      ∧ match s.checkImage (s.slotImage slot) with
        | .ok v digest _ => ended0 s t d.job stOK (leBytes 8 v ++ digest.take 8) ∧ t.sett.active = slot + 1 ∧ (if slot = 0 then t.sett.slotA else t.sett.slotB) = .verified
        | .malformed => ended0 s t d.job stMALFORMED [] ∧ t.sett.active = s.sett.active ∧ (if slot = 0 then t.sett.slotA else t.sett.slotB) = .failed
        | .access => ended0 s t d.job stACCESS [] ∧ t.sett.active = s.sett.active ∧ (if slot = 0 then t.sett.slotA else t.sett.slotB) = .failed)

/-- Ring-0 operations that run on (R78, R226, R242, R249, R299, R314, R429, R452): a ring's reset drops what it holds and ends once the ring is OFF, a block reset
starts, a flush marks the dirty lines, a PASR change holds its channels, a wait for a rebuild ends at its sixteenth, a test run begins, and a read of the
recorder sends its first WR. -/
def Obligations.RingZeroRunsOn : Prop :=
  (∀ (s : State) (d : Desc) (n : Nat), s.starts0 0x42 d → namesRing d.payload = true → n = byteAt d.payload 0 → s.ringSt n = 1 ∨ s.ringSt n = 2 → s.mgmtOf 0x42 = [] →
    ∃ t, exec .ringReset s = .next t
      ∧ (if (s.ring n).descs = [] ∧ (s.ring n).cpls = [] then t.ringSt n = 0 ∧ ended0 s t d.job stOK [] else t.ringSt n = 3 ∧ runs0 s t 0x42 d)
      ∧ (t.ring n).slots = [] ∧ (t.ring n).fetching = 0 ∧ (t.ring n).rcbRead = none ∧ (t.ring n).cplHeld = false ∧ (∀ x ∈ (t.ring n).descs, x.st ≠ .ready)
      ∧ (∀ o ∈ t.fox.outs, o.owner ≠ .rcb n ∧ ∀ i, o.owner ≠ .fetch n i) ∧ (∀ k, k ≠ 0 → k ≠ n → t.ring k = s.ring k) ∧ only [.fox, .rings, .pwr, .regs] s t)
  ∧ (∀ (s : State) (d : Desc) (k ix : Nat), s.starts0 0x45 d → 8 ≤ d.payload.length → leAt d.payload 0 4 = k * 2 ^ 28 + ix → leAt d.payload 4 4 = 0 → 1 ≤ k → k ≤ 3 → ix < 32 →
    s.unitOff k ix = false → s.inReset k ix = false → (k = 2 → s.fld (CHAN_STATUS_FENCED ix) = 0) → s.calm = true →
    ∃ t, exec .unitReset s = .next t ∧ t.unitResets = s.unitResets ++ [{ kind := k, index := ix, asker := .ring0 }] ∧ t.fld RST_UNIT_STATUS_BUSY = 1
      ∧ t.fld RST_UNIT_STATUS_KIND = k ∧ t.fld RST_UNIT_STATUS_INDEX = ix ∧ t.fox.mgmt = s.fox.mgmt ++ [{ job := d.job, op := 0x45, payload := d.payload }]
      ∧ (k = 2 → runs0 s t 0x45 d ∧ t.fld (CHAN_STATUS_STATE ix) = 6 ∧ only [.fox, .rings, .pwr, .unitResets, .regs] s t))
  ∧ (∀ (s : State) (d : Desc) (inv : Bool), s.starts0 0x48 d → 8 ≤ d.payload.length → byteAt d.payload 0 = b2n inv → leAt d.payload 1 7 = 0 → s.fld MARL_STATUS_FLUSH_BUSY = 0 → s.fld MARL_CTL_QUIESCE = 0 →
    ∃ t, exec .marlWb s = .next t ∧ runs0 s t 0x48 d ∧ t.marl.flush = some inv ∧ t.marl.flushRing0 = true ∧ t.fld MARL_STATUS_FLUSH_BUSY = 1
      ∧ t.marl.lines.map (fun e => (e.1, e.2.data)) = (s.marl.lines.filter fun e => !(inv && e.2.st == .clean)).map (fun e => (e.1, e.2.data))
      ∧ (∀ e ∈ t.marl.lines, e.2.st = .dirty → s.lineFenced e.1 = false → e.2.flushMark = true) ∧ only [.fox, .rings, .pwr, .marl, .regs] s t)
  ∧ (∀ (s : State) (d : Desc) (c f : Nat), s.starts0 0x49 d → 8 ≤ d.payload.length → byteAt d.payload 0 = c → byteAt d.payload 1 = f → f ≤ 4 → leAt d.payload 2 6 = 0 → c < s.nChans → s.pasrRefused c = false →
    ∃ t, exec .setPasr s = .next t ∧ runs0 s t 0x49 d ∧ (∀ x ∈ s.pasrSet c, (t.chn x).pasrNew = some f ∧ t.fld (CHAN_STATUS_STATE x) = 5) ∧ (t.chn c).pasrAsker = some .ring0
      ∧ (∀ x, x ∉ s.pasrSet c → t.chn x = s.chn x) ∧ t.chan.dram = s.chan.dram ∧ only [.fox, .rings, .pwr, .chan, .regs] s t)
  ∧ (∀ (s : State) (d : Desc) (c n : Nat), s.starts0 0x4A d → 8 ≤ d.payload.length → byteAt d.payload 0 = c → c < 32 → byteAt d.payload 1 = n → 1 ≤ n → n ≤ 16 → leAt d.payload 2 6 = 0 →
    s.fld (CHAN_REBUILD_STATE c) ≠ 0 → s.mgmtOf 0x4A = [] →
    ∃ t, exec .chanRebuild s = .next t ∧ only [.fox, .rings, .pwr, .regs] s t
      ∧ (if s.fld (CHAN_REBUILD_STATE c) = 1 ∧ s.fld (CHAN_REBUILD_SIXTEENTHS c) < n then runs0 s t 0x4A d
        else ended0 s t d.job stOK ([BitVec.ofNat 8 (s.fld (CHAN_REBUILD_SIXTEENTHS c)), BitVec.ofNat 8 (s.fld (CHAN_REBUILD_STATE c)), 0, 0] ++ leBytes 4 (s.fld (CHAN_REBUILD_LOST_BLOCKS c)))))
  ∧ (∀ (s : State) (d : Desc) (scope ix : Nat), s.starts0 0x4E d → 8 ≤ d.payload.length → byteAt d.payload 0 = scope → byteAt d.payload 1 = ix → leAt d.payload 2 6 = 0 → s.acc.bstRun = none →
    (scope = 0 ∧ ix < s.nChans ∧ s.on BST_CFG_COIL_EN = true ∧ s.colHeld ix = false) ∨ (scope = 1 ∧ ix = 0 ∧ s.on BST_CFG_PAD_EN = true)
      ∨ (scope = 2 ∧ ix < s.nPorts ∧ s.on BST_CFG_LANE_EN = true ∧ ∃ k < s.nLinks ix, s.lst ix k = 4) →
    ∃ t, exec .bstRun s = .next t ∧ runs0 s t 0x4E d ∧ t.acc = { s.acc with bstRun := some { job := d.job, scope := scope, index := ix } } ∧ t.fld BST_STATUS_RUN_BUSY = 1
      ∧ only [.fox, .rings, .pwr, .acc, .regs] s t)
  ∧ (∀ (s : State) (d : Desc) (eid cap : Nat) (data : List (BitVec 8)) (nx : Nat), s.nextMgmt = some d → descOp d.hdr 0 = 0x50 → 32 ≤ d.payload.length → leAt d.payload 0 8 % 64 = 0 →
    leAt d.payload 8 3 = eid → eid < 2 ^ 18 → eid % 64 < 32 ∨ eid % 64 = 63 → byteAt d.payload 11 ≤ 2 → zeroAt d.payload 12 4 = true → zeroAt d.payload 28 4 = true →
    leAt d.payload 24 4 = cap → cap % 64 = 0 → 0 < cap → cap ≤ 1048576 → s.areaData (byteAt d.payload 11) (leAt d.payload 16 8) cap = (data, nx) → (∀ m ∈ s.fox.mgmt, m.job ≠ d.job) → s.fox.outs.length < 65536 →
    ∃ t, exec .recRead s = .next t ∧ only [.fox, .rings, .pwr, .sw, .regs] s t
      ∧ (data = [] → ended0 s t d.job stOK (leBytes 4 0 ++ leBytes 4 (nx % 2 ^ 64) ++ leBytes 4 s.recOldest ++ leBytes 4 s.recNewest))
      ∧ (data ≠ [] → (t.ring 0).cpls = (s.ring 0).cpls ∧ t.fox.mgmt = s.fox.mgmt ++ [{ job := d.job, op := 0x50, payload := d.payload, data := data, next := BitVec.ofNat 64 nx }]
          ∧ ∃ q n, t.fox.outs = s.fox.outs ++ [q] ∧ q.owner = .recRead d.job ∧ q.pkt.hdr.opc = opWR ∧ q.pkt.hdr.dst.toNat = eid ∧ q.pkt.hdr.addr = BitVec.ofNat 64 (leAt d.payload 0 8)
            ∧ n = min (4096 - leAt d.payload 0 8 % 4096) ((data.length + 63) / 64 * 64) ∧ q.pkt.hdr.len.toNat = n ∧ q.pkt.payload = slice data 0 n))

/-- Engines (R299, R306, R325 to R327, R331, R350, R352, R353): an idle engine takes the descriptor of the ring it picks, the oldest accepted SVC, or a chunk of a
spread stage; a stage that has ended completes its descriptor or gives way to the next one; a trap is counted with its cause and stops what the engine
would issue. -/
def Obligations.EngineWork : Prop :=
  (∀ (e : BitVec 5) (n : Nat) (d : Desc) (s : State), s.awake = true → s.calm = true → s.foxOn e.toNat = true → s.pickRing e.toNat = some (n, d) → (∀ f < e.toNat, s.eligible f n = false) →
    (∀ i < descStages d.hdr, operandOk false (descOp d.hdr i) i (s.fld CVU_CKP_GRANULES) (descOperand d.hdr d.payload i) d.payload.length = true) →
    ∃ t r, exec (.engineDispatch e) s = .next t ∧ (t.eng e.toNat).run = some r ∧ r.job = d.job ∧ (t.eng e.toNat).st = .run ∧ (t.eng e.toNat).den = [] ∧ t.fld (FOX_STATUS_RING e.toNat) = n
      ∧ t.fox.lastRing = n ∧ (∃ j ∈ t.fox.jobs, j.id = d.job ∧ j.ring = some n ∧ j.payload = d.payload ∧ j.stage = 0) ∧ (t.ring n).cpls = (s.ring n).cpls
      ∧ (∀ k, k ≠ n → t.ring k = s.ring k) ∧ (∀ f, f ≠ e.toNat → t.eng f = s.eng f) ∧ only [.fox, .rings, .pwr, .regs] s t)
  ∧ (∀ (e : BitVec 5) (p : Packet) (rest : List Packet) (s : State), s.awake = true → s.calm = true → s.foxOn e.toNat = true → s.start.grave = false → s.start.forcing = false → s.fox.svcQueue = p :: rest →
    s.svcMay (s.fox.svcNums.headD 0) p = true → s.engIdle e.toNat = true →
    s.svcReserved e.toNat = true ∨ ((∀ f < s.nEngines, s.engIdle f = true → s.svcReserved f = false) ∧ s.pickRing e.toNat = none) →
    ∃ t r, exec (.svcStart e) s = .next t ∧ t.fox.svcQueue = rest ∧ t.fox.svcNums = s.fox.svcNums.drop 1 ∧ (t.eng e.toNat).st = .svc ∧ (t.eng e.toNat).run = some r ∧ r.job = s.fox.nextJob ∧ (t.eng e.toNat).den = []
      ∧ t.fox.nextJob = s.fox.nextJob + 1 ∧ (∃ j ∈ t.fox.jobs, j.id = s.fox.nextJob ∧ j.svc = some p ∧ j.ring = none ∧ j.payload = p.payload) ∧ (∀ f, f ≠ e.toNat → t.eng f = s.eng f)
      ∧ only [.fox, .pwr, .regs] s t)
  ∧ (∀ (e : BitVec 5) (n : Nat) (j : Job) (s : State), s.awake = true → s.calm = true → s.foxOn e.toNat = true → s.working = true → s.engIdle e.toNat = true → s.svcReserved e.toNat = false → s.pickRing e.toNat = none →
    s.fox.jobs = [j] → j.ring = some n → (j.op = 1 ∨ j.op = 2 ∨ j.op = 5) → 0 < headSpread j.operand → j.fail = none → j.nextChunk < spreadTotal j.op j.operand →
    (s.enginesOf j.id).length < 2 ^ headSpread j.operand → bitAt (s.fld (FOX_RING_MAP_EARTHS n)) (e.toNat / 8) = true →
    ∃ t r j1, exec (.helperChunk e) s = .next t ∧ (t.eng e.toNat).st = .help ∧ (t.eng e.toNat).run = some r ∧ r.job = j.id ∧ r.lo = j.nextChunk ∧ r.hi = (nextPart j.op j.operand j.nextChunk).2
      ∧ r.pos = r.lo ∧ r.round = 0 ∧ t.fox.jobs = [j1] ∧ j1.id = j.id ∧ j1.nextChunk = r.hi ∧ e.toNat ∈ j1.engines ∧ j1.confirmed = j.confirmed ∧ (∀ f, f ≠ e.toNat → t.eng f = s.eng f)
      ∧ only [.fox, .regs] s t)
  ∧ (∀ (e : BitVec 5) (n : Nat) (r : Run) (j : Job) (s : State), s.awake = true → s.calm = true → s.foxOn e.toNat = true → (s.eng e.toNat).run = some r → (s.eng e.toNat).trapping = none → r.finished = true →
    s.job r.job = some j → j.engines.head? = some e.toNat → (s.enginesOf j.id).length ≤ 1 → j.ring = some n → n < 64 →
    (∀ status, (j.fail = none ∧ status = stOK ∧ j.ops.length ≤ j.stage + 1) ∨ (∃ st remote, j.fail = some (status, st, remote)) → (∃ d ∈ (s.ring n).descs, d.job = j.id ∧ d.st ≠ .done) →
      ∃ t x, exec (.stageAdvance e) s = .next t ∧ (t.ring n).cpls = (s.ring n).cpls ++ [x] ∧ x.job = j.id ∧ x.status = status ∧ x.stage = j.stage ∧ x.result = (s.settleStage j r).2.result
        ∧ t.pair (FOX_DESC_LO e.toNat) = (s.pair (FOX_DESC_LO e.toNat) + 1) % 2 ^ 64 ∧ (t.eng e.toNat).run = none ∧ (∀ k ∈ t.fox.jobs, k.id ≠ j.id) ∧ only [.fox, .rings, .pwr, .free, .regs] s t)
    ∧ (j.fail = none → (s.settleStage j r).2.stopDiff = false → j.stage + 1 < j.ops.length → s.ringSt n ≠ 3 →
      ∃ t r1 j1, exec (.stageAdvance e) s = .next t ∧ (t.eng e.toNat).run = some r1 ∧ r1.job = j.id ∧ r1.round = 0 ∧ t.job j.id = some j1 ∧ j1.stage = j.stage + 1 ∧ j1.fail = none
        ∧ t.rings = s.rings ∧ only [.fox, .free, .regs] s t))

/-- Traps of an engine (R352, R353): a trap and a watchdog expiry are counted with their cause; an engine at rest reloads at once, one with requests outstanding waits
for them and issues nothing more. -/
def Obligations.EngineTraps : Prop :=
  (∀ (e : BitVec 5) (cause : TrapCause) (c : Instr) (code : Nat) (s : State), s.awake = true → s.calm = true → s.foxOn e.toNat = true → e.toNat < s.nEngines → (s.eng e.toNat).st ≠ .off → (s.eng e.toNat).st ≠ .disabled →
    (s.eng e.toNat).trapping = none → (c = .engineTrap e cause ∧ code = trapCode cause) ∨ (c = .watchdogExpiry e ∧ code = 4 ∧ (s.eng e.toNat).run ≠ none) →
    ((s.eng e.toNat).run = none → ∃ t, exec c s = .next t ∧ t.fld (FOX_TRAPS e.toNat) = (s.fld (FOX_TRAPS e.toNat) + 1) % 2 ^ 32 ∧ t.fld (FOX_STATUS_TRAP_CAUSE e.toNat) = code ∧ t.chan.dram = s.chan.dram)
    ∧ (∀ r, (s.eng e.toNat).run = some r → r.opened ≠ [] →
      ∃ t, exec c s = .next t ∧ t.eng e.toNat = { s.eng e.toNat with st := .reload, trapping := some code, trapInj := false, run := some { r with queue := [] } } ∧ (∀ f, f ≠ e.toNat → t.eng f = s.eng f)
        ∧ t.fld (FOX_TRAPS e.toNat) = (s.fld (FOX_TRAPS e.toNat) + 1) % 2 ^ 32 ∧ t.fld (FOX_STATUS_TRAP_CAUSE e.toNat) = code ∧ t.fld (FOX_STATUS_STATE e.toNat) = 6
        ∧ regsBut [(FOX_TRAPS e.toNat).off, (FOX_STATUS e.toNat).off] s t ∧ only [.fox, .regs] s t))

/-- Rounds of the stages (R338, R340 to R346): each round issues the accesses its rule plans for the units in hand: FILL writes its pattern, COPY reads a
piece and writes what the reads brought, GATHER and SCATTER read indices, REDUCE and CHECK read a piece or delegate it, COMPARE reads both sides, TRANSPOSE
reads a row group and writes it as columns, ATOMB reads an entry. A stage with nothing left ends. -/
def Obligations.StageRounds : Prop :=
  ∀ (e : BitVec 5) (s : State) (j : Job) (r : Run),
  (s.stageReady e.toNat 1 j r → r.round = 0 → r.pos < r.hi →
    ∃ t, exec (.fill e) s = .next t ∧ issues t e.toNat r 1 r.pos (fillPlan j.operand r) ∧ keeps [.rings, .fuse, .clk, .rails, .pins, .thm] s t)
  ∧ (s.stageReady e.toNat 2 j r → r.round = 0 → r.pos < r.hi → headCvu j.operand = false ∨ j.cvu ≠ none ∨ s.freeCvu ≠ none →
    ∃ t, exec (.copy e) s = .next t ∧ issues t e.toNat r 1 r.pos (copyReads j.operand r) ∧ keeps [.rings, .fuse, .clk, .rails, .pins, .thm] s t)
  ∧ (s.stageReady e.toNat 2 j r → r.round = 1 →
    ∃ t, exec (.copy e) s = .next t ∧ issues t e.toNat r 2 r.pos (copyWrites j.operand { r with bytes := (r.allData 0 (copyReads j.operand r).length).take (copyLen j.operand r) })
      ∧ keeps [.rings, .fuse, .clk, .rails, .pins, .thm] s t)
  ∧ (s.stageReady e.toNat 3 j r → r.round = 0 → r.pos < r.hi →
    ∃ t, exec (.gather e) s = .next t ∧ issues t e.toNat r 1 r.pos (idxReads j.operand r) ∧ keeps [.rings, .fuse, .clk, .rails, .pins, .thm] s t)
  ∧ (s.stageReady e.toNat 4 j r → r.round = 0 → r.pos < r.hi →
    ∃ t, exec (.scatter e) s = .next t ∧ issues t e.toNat r 1 r.pos (idxReads j.operand r) ∧ keeps [.rings, .fuse, .clk, .rails, .pins, .thm] s t)
  ∧ (s.stageReady e.toNat 4 j r → r.round = 1 →
    ∃ t, exec (.scatter e) s = .next t ∧ issues t e.toNat r 2 r.pos (scatterReads j.operand r) ∧ keeps [.rings, .fuse, .clk, .rails, .pins, .thm] s t)
  ∧ (∀ (deleg : Bool), s.stageReady e.toNat 5 j r → r.round = 0 → deleg = s.delegated (locAt j.operand (16 + 24 * (r.lo / 2 ^ headSpread j.operand))) →
    (redSpan j.operand deleg r.lo).1 ≠ (redSpan j.operand deleg r.lo).2 →
    ∃ t, exec (.reduce e) s = .next t ∧ issues t e.toNat r 1 r.pos (if deleg then redSvcs j.operand (r.lo / 2 ^ headSpread j.operand) else redReads j.operand r.lo 0)
      ∧ keeps [.rings, .fuse, .clk, .rails, .pins, .thm] s t)
  ∧ (s.stageReady e.toNat 6 j r → r.round = 0 → r.pos < r.hi → s.freeCvu ≠ none →
    ∃ t, exec (.check e) s = .next t ∧ issues t e.toNat r 1 r.pos (if s.delegated (locAt j.operand 8) then [checkSvc j.operand r] else checkReads j.operand r)
      ∧ keeps [.rings, .fuse, .clk, .rails, .pins, .thm] s t)
  ∧ (s.stageReady e.toNat 7 j r → r.round = 0 → r.pos < r.hi →
    ∃ t, exec (.compare e) s = .next t
      ∧ issues t e.toNat r 1 r.pos (readAccs ((locAt j.operand 8).at_ r.pos) (cmpLen j.operand r) ++ readAccs ((locAt j.operand 24).at_ r.pos) (cmpLen j.operand r))
      ∧ keeps [.rings, .fuse, .clk, .rails, .pins, .thm] s t)
  ∧ (s.stageReady e.toNat 9 j r → r.round = 0 → r.pos < r.hi →
    ∃ t, exec (.transpose e) s = .next t ∧ issues t e.toNat r 1 r.pos (trReads j.operand r) ∧ keeps [.rings, .fuse, .clk, .rails, .pins, .thm] s t)
  ∧ (s.stageReady e.toNat 9 j r → r.round = 1 →
    ∃ t, exec (.transpose e) s = .next t ∧ issues t e.toNat r 2 r.pos (trWrites j.operand { r with bytes := r.allData 0 (trReads j.operand r).length })
      ∧ keeps [.rings, .fuse, .clk, .rails, .pins, .thm] s t)
  ∧ (s.stageReady e.toNat 10 j r → r.round = 0 → r.pos < r.hi →
    ∃ t, exec (.atomb e) s = .next t ∧ issues t e.toNat r 1 r.pos (readAccs ((locAt j.operand 32).at_ (24 * r.pos)) 24) ∧ keeps [.rings, .fuse, .clk, .rails, .pins, .thm] s t)
  ∧ (∀ (c : Instr) (op : Nat), (c = .compare e ∧ op = 7) ∨ (c = .transpose e ∧ op = 9) ∨ (c = .atomb e ∧ op = 10) ∨ (c = .gather e ∧ op = 3) ∨ (c = .scatter e ∧ op = 4) →
    s.stageReady e.toNat op j r → r.round = 0 → r.hi ≤ r.pos → j.engines.head? = some e.toNat →
    ∃ t, exec c s = .next t ∧ partEnded t e.toNat r.pos ∧ (∀ f, f ≠ e.toNat → t.eng f = s.eng f) ∧ only [.fox] s t)

/-- FENCE, NOTIFY, MIRROR and DIRTYSCAN (R347, R348, R363, R365, R368, R369, R371): FENCE ends once no earlier descriptor of its rings is open, NOTIFY
writes its value or sends a doorbell, SEND begins on the frozen map, COMMIT reads its slot with a loaded check-value unit, VERIFY reads the next table
entry; FREEZE moves the active map to the frozen one and writes the epoch, PEEK leaves both. -/
def Obligations.CheckpointStages : Prop :=
  ∀ (e : BitVec 5) (s : State) (j : Job) (r : Run),
  (s.stageReady e.toNat 12 j r → j.engines.head? = some e.toNat → (∀ n ∈ bitList 64 (leAt j.operand 8 8), s.earlierOpen n j.id = false) →
    ∃ t, exec (.fence e) s = .next t ∧ partEnded t e.toNat r.hi ∧ (∀ f, f ≠ e.toNat → t.eng f = s.eng f) ∧ only [.fox] s t)
  ∧ (s.stageReady e.toNat 12 j r → (∃ n ∈ bitList 64 (leAt j.operand 8 8), s.earlierOpen n j.id = true) → exec (.fence e) s = .next s)
  ∧ (s.stageReady e.toNat 13 j r → byteAt j.operand 8 = 0 → r.round = 0 →
    ∃ t, exec (.notifyWrite e) s = .next t ∧ issues t e.toNat r 1 r.pos (writePieces (locAt j.operand 16) true 2 (slice j.operand 32 8)) ∧ keeps [.rings, .fuse, .clk, .rails, .pins, .thm] s t)
  ∧ (s.stageReady e.toNat 13 j r → byteAt j.operand 8 = 1 → j.engines.head? = some e.toNat →
    ∃ t, exec (.notifyDbell e) s = .next t ∧ partEnded t e.toNat r.hi ∧ only [.fox, .sw, .regs] s t
      ∧ sends s t { hdr := mkHdr opDBELL (BitVec.ofNat 8 ((locAt j.operand 16).addr % 64)) 0 j.label 0 0 (BitVec.ofNat 18 (locAt j.operand 16).eid) s.eid 0 (BitVec.ofNat 64 (leAt j.operand 32 4)), payload := [] })
  ∧ (s.stageReady e.toNat 8 j r → byteAt j.operand 8 = 0 → r.round = 0 → s.fld CVU_CKP_CTL_TRACK = 1 → s.ckpBusy j.id = false → leAt j.operand 12 4 = s.fld CVU_CKP_EPOCH →
    ∃ t q j1, exec (.mirrorSend e) s = .next t ∧ (t.eng e.toNat).run = some q ∧ q.round = 1 ∧ q.pos = r.pos ∧ q.words = [some 0, some 0] ∧ q.finished = false ∧ t.job j.id = some j1 ∧ j1.sending = true
      ∧ (∀ f, f ≠ e.toNat → t.eng f = s.eng f) ∧ t.fox.ckpFrozen = s.fox.ckpFrozen ∧ only [.fox] s t)
  ∧ (s.stageReady e.toNat 8 j r → byteAt j.operand 8 = 0 → r.round = 0 → j.engines.head? = some e.toNat →
    s.fld CVU_CKP_CTL_TRACK = 0 ∨ s.ckpBusy j.id = true ∨ leAt j.operand 12 4 ≠ s.fld CVU_CKP_EPOCH →
    ∃ t j1, exec (.mirrorSend e) s = .next t ∧ partEnded t e.toNat r.pos ∧ t.job j.id = some j1 ∧ j1.fail = some (stSTATE, stSTATE, false)
      ∧ t.fld CVU_CNT_VIOL_STATE = (s.fld CVU_CNT_VIOL_STATE + 1) % 2 ^ 32 ∧ regsBut [CVU_CNT_VIOL_STATE.off] s t ∧ only [.fox, .regs] s t)
  ∧ (∀ u, s.stageReady e.toNat 8 j r → byteAt j.operand 8 = 1 → r.round = 0 → s.freeCvu = some u →
    ∃ t, exec (.mirrorCommit e) s = .next t ∧ issues t e.toNat r 1 r.pos (granReads (leAt j.operand 48 8 + byteAt j.operand 72 * 65536)) ∧ keeps [.rings, .fuse, .clk, .rails, .pins, .thm] s t
      ∧ t.cvu u = { held := true, engine := e.toNat, poly := byteAt j.operand 10, reg := BitVec.ofNat 64 (granReg (byteAt j.operand 10) (leAt j.operand 40 8 + (leAt j.operand 64 8 - leAt j.operand 16 8) * 65536) (leAt j.operand 12 4)) })
  ∧ (s.stageReady e.toNat 8 j r → byteAt j.operand 8 = 2 → r.round = 0 → r.pos < r.hi →
    ∃ t, exec (.mirrorVerify e) s = .next t ∧ issues t e.toNat r 1 r.pos (readAccs { addr := leAt j.operand 56 8 + r.pos * 16, eid := 0, kind := 0 } 16) ∧ keeps [.rings, .fuse, .clk, .rails, .pins, .thm] s t)
  ∧ (s.stageReady e.toNat 11 j r → byteAt j.operand 8 = 0 → r.round = 0 → s.fld CVU_CKP_CTL_TRACK = 1 → s.ckpBusy j.id = false → leAt j.operand 12 4 = (s.fld CVU_CKP_EPOCH + 1) % 2 ^ 32 →
    ∃ t j1, exec (.dirtyscanFreeze e) s = .next t ∧ t.fox.ckpFrozen = granOr s.fox.ckpFrozen s.fox.ckpActive ∧ t.fld CVU_CKP_EPOCH = leAt j.operand 12 4 ∧ t.fld CVU_CKP_STATUS_ALL_DIRTY = 0
      ∧ t.job j.id = some j1 ∧ j1.part = 1 ∧ t.rings = s.rings ∧ ((locAt j.operand 16).kind = 7 → t.fox.ckpActive = {} ∧ only [.fox, .sett, .regs] s t))
  ∧ (s.stageReady e.toNat 11 j r → byteAt j.operand 8 = 1 → r.round = 0 → (locAt j.operand 16).kind = 7 → s.fld CVU_CKP_CTL_TRACK = 1 → s.ckpBusy j.id = false → leAt j.operand 12 4 = s.fld CVU_CKP_EPOCH →
    j.engines.head? = some e.toNat →
    ∃ t, exec (.dirtyscanPeek e) s = .next t ∧ partEnded t e.toNat r.pos ∧ t.fox.ckpFrozen = s.fox.ckpFrozen ∧ t.fox.ckpActive = s.fox.ckpActive ∧ only [.fox] s t)

/-- Protection of data (R383, R387, R388, R390, R392, R393): a corrective write stores the corrected block under its check bytes, unless the Marl holds the line
dirty; the patrol reads the next block and stops for good at a fence; a hard-failed block takes a free spare row of its bank, a Marl unit a spare row
of its slice bank, each with an entry in the soft log. -/
def Obligations.DataProtection : Prop :=
  (∀ (c : BitVec 5) (b : Nat) (data : List (BitVec 8)) (degs : List Nat) (s : State), s.awake = true → s.chanRuns c.toNat = true → s.leftOver c.toNat b = true → s.writeHeld c.toNat b = false →
    s.prot.corrective.find? (fun e => e.1 == c.toNat) = some (c.toNat, b, data, degs) →
    ((s.lineHere c.toNat b).bind s.line = none →
      ∃ t, exec (.correctiveWrite c) s = .next t ∧ (∀ e ∈ t.prot.corrective, ¬(e.1 = c.toNat ∧ e.2.1 = b)) ∧ t.prot.watched = s.prot.watched ++ [(c.toNat, b, degs)]
        ∧ (t.dramRead c.toNat b).1 = dramEncode (foldOf (s.lineHere c.toNat b) c.toNat b) data false ∧ only [.chan, .free, .prot, .qos, .regs] s t)
    ∧ (∀ x, (s.lineHere c.toNat b).bind s.line = some x → x.st = .dirty →
      exec (.correctiveWrite c) s = .next { s with prot := { s.prot with corrective := s.prot.corrective.filter fun e => !(e.1 == c.toNat && e.2.1 == b) } }))
  ∧ (∀ (c : BitVec 5) (err stored d : List (BitVec 8)) (b : Nat) (s : State), s.awake = true → s.calm = true → bitAt (s.fld BST_BADGER_CHAN_EN) c.toNat = true → s.prot.stopped.getLsbD c.toNat = false → c.toNat < s.nChans →
    (s.patrolStops c.toNat = false → s.chanRuns c.toNat = true → s.fld (CHAN_STATUS_STATE c.toNat) ≠ 5 → s.flt.inject = none → b = mgetD s.prot.patrol c.toNat 0 → b + 1 < chanBlocks →
      s.leftOver c.toNat b = true →
      s.dramRead c.toNat b = (stored, s) → dramDecode (foldOf (s.lineHere c.toNat b) c.toNat b) (xorBytes stored (slice err 0 72)) = (.clean, d) →
      ∃ t, exec (.badgerPatrolRead c err) s = .next t ∧ mget t.prot.patrol c.toNat = some (b + 1) ∧ t.pair (CHAN_RD_LO c.toNat) = (s.pair (CHAN_RD_LO c.toNat) + 1) % 2 ^ 64
        ∧ t.prot = { s.prot with patrol := t.prot.patrol, watched := s.prot.watched.filter fun x => !(x.1 == c.toNat && x.2.1 == b) } ∧ t.chan.dram = s.chan.dram
        ∧ only [.prot, .chan, .free, .qos, .regs] s t)
    ∧ (s.patrolStops c.toNat = true → ∃ t, exec (.badgerPatrolRead c err) s = .next t ∧ t.prot = { s.prot with stopped := t.prot.stopped } ∧ t.prot.stopped.getLsbD c.toNat = true ∧ only [.prot] s t))
  ∧ (∀ (c : BitVec 5) (b : BitVec 26) (j : Nat) (s : State), s.awake = true → s.calm = true → (c.toNat, b.toNat) ∈ s.prot.hard → s.chanRuns c.toNat = true → s.writeHeld c.toNat b.toNat = false → s.freeRowOf c.toNat b.toNat = some j → s.softFree ≠ none →
    ∃ t, exec (.repair (.block c b)) s = .next t ∧ (c.toNat, b.toNat) ∉ t.prot.hard
      ∧ t.prot.rowFix = s.prot.rowFix.filter (fun x => x.target != rowKey c.toNat b.toNat) ++ [{ target := rowKey c.toNat b.toNat, spare := j }]
      ∧ t.fld (CHAN_REPAIRS c.toNat) = (s.fld (CHAN_REPAIRS c.toNat) + 1) % 2 ^ 32 ∧ t.sett.softLog ≠ s.sett.softLog)
  ∧ (∀ (sl : BitVec 6) (bk : BitVec 4) (un : BitVec 12) (n j : Nat) (s : State), s.awake = true → s.calm = true → n = sl.toNat * 65536 + bk.toNat * 4096 + un.toNat → n ∈ s.prot.marlHard → s.freeMarlRow n = some j →
    s.softFree ≠ none →
    ∃ t, exec (.repair (.unit sl bk un)) s = .next t ∧ n ∉ t.prot.marlHard ∧ t.prot.marlRowFix = s.prot.marlRowFix.filter (fun x => x.target != n / 16) ++ [{ target := n / 16, spare := j }]
      ∧ t.fld MARL_REPAIRS = (s.fld MARL_REPAIRS + 1) % 2 ^ 32)

/-- The fault collector (R400 to R405, R410, R412): a fault opens its domain's record or merges into it with the higher class, a C timer makes it class D, a
D timer degrades the domain or, in an essential one, enters the grave safe state, which ends with the recorder flushed and PHASE 0xC; a lockstep mismatch halts
the MGC until its reload; an alarm window that has seen a change sends again. -/
def Obligations.FaultCollector : Prop :=
  (∀ (f : FltCause) (unit : BitVec 8) (detail : BitVec 32) (code d : Nat) (cls : FltClass) (s : State), s.start.grave = false → s.calm = true →
    causeOf (if s.variant = 0x96 then .d else .a) f unit.toNat = (code, cls, d) → domListed d = true → s.domOff d = false → s.collects = true →
    ∃ t, exec (.faultRaise f unit detail) s = .next t ∧ (t.fltRec d).isOpen = true ∧ (t.fltRec d).lastCause = BitVec.ofNat 8 code ∧ (t.fltRec d).detail = detail ∧ (t.fltRec d).seq = (s.fltRec d).seq + 1
      ∧ t.pair FLT_RAISED_LO = (s.pair FLT_RAISED_LO + 1) % 2 ^ 64 ∧ (cls = .g → t.start.grave = true)
      ∧ ((s.fltRec d).isOpen = false → (t.fltRec d).cls = cls ∧ (t.fltRec d).firstCause = BitVec.ofNat 8 code ∧ (t.fltRec d).merges = 0 ∧ (t.fltRec d).st = recStOf cls)
      ∧ ((s.fltRec d).isOpen = true → (t.fltRec d).cls = (if clsCode (s.fltRec d).cls < clsCode cls then cls else (s.fltRec d).cls) ∧ (t.fltRec d).firstCause = (s.fltRec d).firstCause
          ∧ (t.fltRec d).merges = min 255 ((s.fltRec d).merges + 1))
      ∧ (s.sleep ≤ 1 → ∀ k, k ≠ d → t.fltRec k = s.fltRec k))
  ∧ (∀ (d : BitVec 8) (s : State), s.calm = true →
    (s.timerDue d.toNat .c = true → ∃ t, exec (.cTimerExpiry d) s = .next t ∧ (t.fltRec d.toNat).auto = true ∧ (t.fltRec d.toNat).contained = true ∧ (t.fltRec d.toNat).cls = .d
        ∧ (t.fltRec d.toNat).seq = (s.fltRec d.toNat).seq + 1 ∧ (t.fltRec d.toNat).st = (s.fltRec d.toNat).st ∧ t.fld FLT_ESCALATED = (s.fld FLT_ESCALATED + 1) % 2 ^ 32)
    ∧ (s.timerDue d.toNat .d = true → ∃ t, exec (.dTimerExpiry d) s = .next t ∧ (t.fltRec d.toNat).auto = true ∧ (t.fltRec d.toNat).timerOn = false ∧ (t.fltRec d.toNat).seq = (s.fltRec d.toNat).seq + 1
        ∧ (if essential d.toNat then (t.fltRec d.toNat).cls = .g ∧ (t.fltRec d.toNat).st = .grave ∧ t.start.grave = true else (t.fltRec d.toNat).cls = .d ∧ (t.fltRec d.toNat).st = .degraded)
        ∧ t.fld FLT_ESCALATED = (s.fld FLT_ESCALATED + 1) % 2 ^ 32))
  ∧ (∀ s : State, s.fld CLK_SRC_STATUS_MGT_SRC = 0 → exec .graveFlushDone s = .next s)
  ∧ (∀ s : State, s.start.grave = true → s.start.graveDone = false → s.fld CLK_SRC_STATUS_MGT_SRC ≠ 0 →
    ∃ t, exec .graveFlushDone s = .next t ∧ t.phase = 0xC ∧ t.start = { s.start with graveDone := true } ∧ t.recd = { s.recd with holding := [], staging := [], freeze := .off, waiter := false }
      ∧ (s.flt.mgcDown = false → mget t.sett.slots (t.sett.flushSeq.toNat % 256) ≠ none) ∧ (s.flt.mgcDown = true → t.sett = s.sett) ∧ only [.start, .recd, .sett, .regs] s t)
  ∧ (∀ (pc : BitVec 32) (s : State), s.dead = false → s.calm = true → s.flt.mgcDown = false → s.flt.inject = none → s.collects = true →
    ∃ t, exec (.lockstepMismatch pc) s = .next t ∧ t.flt.mgcDown = true ∧ t.flt.lockstepAt = some s.now ∧ (t.fltRec 3).isOpen = true ∧ (t.fltRec 3).lastCause = 0x40 ∧ (t.fltRec 3).detail = pc
      ∧ (s.within1s s.flt.lockstepAt = true → (t.fltRec 3).cls = .g ∧ t.start.grave = true))
  ∧ (∀ s : State, s.flt.mgcDown = true →
    (s.fld GLB_START_STATUS_FW_SLOT ≠ 3 → ∃ t, exec (.mgcReloadDone true) s = .next t ∧ t.flt = { s.flt with mgcDown := false } ∧ t.fox = { s.fox with mgmt := [] } ∧ only [.flt, .fox, .rings, .regs] s t
        ∧ ∀ m, s.fox.mgmt = [m] → (∃ d ∈ (s.ring 0).descs, d.job = m.job ∧ d.st ≠ .done) → ended0 s t m.job 0x0D [])
    ∧ (s.collects = true → ∃ t, exec (.mgcReloadDone false) s = .next t ∧ t.flt.mgcDown = true ∧ (t.fltRec 3).cls = .g ∧ t.start.grave = true))
  ∧ (∀ (p : BitVec 5) (x : BitVec 8) (s : State), s.awake = true → s.calm = true → p.toNat < s.nPorts → s.flt.inject = none → s.collects = true →
    ∃ t, exec (.fabStateError p x) s = .next t ∧ t.flt.fabStateAt = some s.now ∧ (t.fltRec 2).isOpen = true ∧ (t.fltRec 2).lastCause = 0x41 ∧ (t.fltRec 2).detail = BitVec.ofNat 32 (p.toNat + 256 * x.toNat)
      ∧ (∀ i ∈ t.sw.ingress, i.port ≠ p.toNat) ∧ (s.within1s s.flt.fabStateAt = true → (t.fltRec 2).cls ≠ .a ∧ (t.fltRec 2).cls ≠ .c))
  ∧ (∀ (d : BitVec 8) (w : AlarmWin) (s : State), mget s.flt.wins d.toNat = some w →
    (w.pending = false → exec (.alarmWindowEnd d) s = .next { s with flt := { s.flt with wins := merase d.toNat s.flt.wins } })
    ∧ (w.pending = true → s.start.grave = false → s.alarmDsts ≠ [] →
      ∃ t, exec (.alarmWindowEnd d) s = .next t ∧ mget t.flt.wins d.toNat = some {} ∧ t.flt.alarmSeq = s.flt.alarmSeq + BitVec.ofNat 32 s.alarmDsts.length
        ∧ t.fld FLT_ALARMS_SENT = (s.fld FLT_ALARMS_SENT + s.alarmDsts.length) % 2 ^ 32 ∧ only [.flt, .sw, .regs] s t))

/-- The recorder and telemetry (R419, R423, R426, R427, R431, R432): the next staged record goes to the open page of its severity that has room; a draining freeze takes
effect once nothing is staged, and ends by itself; a flush leaves nothing staged and writes the counters into the next slot; a sample sends one TELEM with the next
sequence number. -/
def Obligations.RecorderAndTelemetry : Prop :=
  (∀ (r : EvRec) (rest : List StageItem) (i : Nat) (s : State), s.dead = false → s.mgtOn = true → s.calm = true → s.recd.freeze = .off → s.recd.staging = .new r :: rest → s.openFor r.sev = some i →
    pageUsed (s.page i) + recLen r ≤ 4096 →
    ∃ t, exec (.logWrite 0) s = .next t ∧ t.recd = { s.recd with staging := rest } ∧ (t.page i).recs = (s.page i).recs ++ [{ r with at_ := s.now, updDue := false }]
      ∧ (∀ k, k ≠ i → t.page k = s.page k) ∧ only [.recd, .sett] s t)
  ∧ (∀ s : State, s.dead = false → s.mgtOn = true → s.recd.freeze = .draining → s.recd.staging = [] → s.recd.waiter = false →
    exec (.logWrite 0) s = .next { s with recd := { s.recd with freeze := .frozen s.now, waiter := false } })
  ∧ (∀ s : State, s.isFrozen = true → ∃ t, exec .freezeAutoThaw s = .next t ∧ t.recd.freeze = .off ∧ t.recd.holding = [] ∧ only [.recd, .sett, .regs] s t)
  ∧ (∀ s : State, s.dead = false → s.mgtOn = true → s.calm = true → s.recd.freeze = .off →
    ∃ t, exec (.settFlush 0) s = .next t ∧ t.recd = { s.recd with staging := [] } ∧ mget t.sett.slots (t.sett.flushSeq.toNat % 256) = some (t.slotBytes t.sett.flushSeq.toNat)
      ∧ t.sett.retired = s.sett.retired ∧ only [.recd, .sett, .regs] s t)
  ∧ (∀ s : State, s.rails.vaon = true → exec .opSecondsTick s = .next { s with recd := { s.recd with opSec := (s.recd.opSec + 1) % 2 ^ 36 } })
  ∧ (∀ (d : BitVec 18) (s : State), s.awake = true → s.phase = 8 → s.fld TEL_CFG_INTERVAL_MS ≠ 0 → queueBytes s.recd.staging ≤ 8192 → s.telDsts = [d] → (∀ o ∈ s.sw.egress, isTelemTo d o = false) →
    ∃ t, exec .telemetrySample s = .next t ∧ t.fld TEL_SEQ = (s.fld TEL_SEQ + 1) % 2 ^ 32 ∧ t.fld TEL_DROPPED = s.fld TEL_DROPPED ∧ only [.sw, .regs] s t
      ∧ sends s t { hdr := mkHdr opTELEM 0x01 0 0 (BitVec.ofNat 16 (s.fld TEL_SEQ + 1)) 192 d s.eid 0 0, payload := (s.inc TEL_SEQ).telemBytes })

/-- Temperatures (R438, R439, R442, R444, R446): a sample brings each sensor's result, or leaves its reading in use; a fraction below its target rises by one point a
millisecond while throttled time is counted; the trip drives THERMTRIP_N low and enters the grave safe state. -/
def Obligations.ThermalCommands : Prop :=
  (∀ (x : List (Option Int)) (n : Nat) (s : State), s.live = true → s.calm = true → s.phase ≠ 0xB → s.sleep ≤ 1 → s.regionOk 2 = true → n < s.nSensors → (s.sensor n).broken = false → (s.sensor n).disagree < 9 →
    (∀ v : Int, x.getD n none = some v → -160 ≤ v → v ≤ 600 →
      ∃ t, exec (.sensorSample x) s = .next t ∧ (t.sensor n).reading = v ∧ (t.sensor n).has = true ∧ (t.sensor n).noRes = 0 ∧ (t.sensor n).broken = false ∧ t.thm.sampling = true ∧ keeps [.rings, .fox, .rails] s t)
    ∧ (x.getD n none = none → (s.sensor n).has = true → (s.sensor n).noRes < 3 →
      ∃ t, exec (.sensorSample x) s = .next t ∧ (t.sensor n).reading = (s.sensor n).reading ∧ (t.sensor n).noRes = (s.sensor n).noRes + 1 ∧ (t.sensor n).broken = false ∧ keeps [.rings, .fox, .rails] s t))
  ∧ (∀ (x : List (Option Int)) (n : Nat) (s : State), s.live = true → 2 ≤ s.sleep → 20 ≤ n → ∃ t, exec (.sensorSample x) s = .next t ∧ t.sensor n = s.sensor n)
  ∧ (∀ s : State, s.live = true →
    ∃ t, exec .throttleRamp s = .next t ∧ (∀ d, d < s.nDies → (t.die d).fraction = (if (s.die d).fraction < s.throttleTarget d then (s.die d).fraction + 1 else (s.die d).fraction))
      ∧ t.pair THM_THROTTLE_MS_LO = (if (∃ d < s.nDies, (s.die d).fraction < 100) then (s.pair THM_THROTTLE_MS_LO + 1) % 2 ^ 64 else s.pair THM_THROTTLE_MS_LO)
      ∧ t.thm.sensors = s.thm.sensors ∧ only [.thm, .recd, .sett, .regs] s t)
  ∧ (∀ (n : BitVec 7) (s : State), s.rails.vaon = true → n.toNat < s.nSensors →
    ∃ t, exec (.thermalTrip n) s = .next t ∧ t.pins.thermtripLow = true ∧ t.thm.tripped = true ∧ t.start.grave = true)

/-- In-service self-test (R447 to R452): a slice is counted and moves each enabled rotation on; a coil, pad or lane that passes its test is counted alone, one that fails
is counted and shown; a run on demand goes unit by unit and completes with its numbers. Which coil is the shadow of a test is the model's reading (log entry 48). -/
def Obligations.SelfTest : Prop :=
  (∀ s : State, s.slicesRun = true →
    ∃ t, exec .testSliceStart s = .next t ∧ t.pair BST_SLICES_LO = (s.pair BST_SLICES_LO + 1) % 2 ^ 64
      ∧ t.fld BST_STATUS_COIL_NEXT = (if s.on BST_CFG_COIL_EN then (s.fld BST_STATUS_COIL_NEXT + 1) % 304 else s.fld BST_STATUS_COIL_NEXT)
      ∧ t.fld BST_STATUS_PAD_NEXT = (if s.on BST_CFG_PAD_EN then (s.fld BST_STATUS_PAD_NEXT + 1) % 258 else s.fld BST_STATUS_PAD_NEXT)
      ∧ (∀ c, c < s.nChans → s.on BST_CFG_COIL_EN = true → s.colHeld c = false → s.runOn 0 c = false → s.coilGone c (s.fld BST_STATUS_COIL_NEXT) = false → (s.col c).test = none →
          (s.fld (VCP_COL_STATUS_MODE c) = 0 ∨ 3 ≤ s.fld (VCP_COL_STATUS_MODE c) → (t.col c).test = some (s.fld BST_STATUS_COIL_NEXT, none))
          ∧ (s.fld (VCP_COL_STATUS_MODE c) = 2 → s.coilInUse c (s.fld BST_STATUS_COIL_NEXT) = true →
              (t.col c).test = some (s.fld BST_STATUS_COIL_NEXT, (s.dropPool c).head?.map (· + 16))))
      ∧ only [.vcp, .marl, .acc, .regs] s t)
  ∧ (∀ (c : BitVec 5) (m : CoilMeas) (coil : Nat) (shadow : Option Nat) (s : State), (s.col c.toNat).test = some (coil, shadow) → s.live = true → s.calm = true → (s.col c.toNat).testDrop = false →
    s.colOn c.toNat = true → m.resid.toNat ≤ s.fld VCP_CAL_CFG_RESID_FAIL →
    ∃ t, exec (.coilTestEnd c m false) s = .next t ∧ (t.col c.toNat).test = none ∧ t.fld BST_COIL_TESTS = (s.fld BST_COIL_TESTS + 1) % 2 ^ 32 ∧ t.fld BST_COIL_FAILS = s.fld BST_COIL_FAILS
      ∧ (∀ j, shadow = some j → j < 16 → t.fld (VCP_SPARE_USE c.toNat j) = 0) ∧ only [.vcp, .regs] s t)
  ∧ (∀ (i : BitVec 6) (up : Bool) (g : Nat) (s : State), mget (s.slicePads i.toNat).test (b2n up) = some g → s.live = true → s.calm = true → s.sliceGone i.toNat = false →
    (∃ t, exec (.padTestEnd i up false) s = .next t ∧ t.slicePads i.toNat = { s.slicePads i.toNat with test := merase (b2n up) (s.slicePads i.toNat).test }
        ∧ (∀ k, k ≠ i.toNat → t.slicePads k = s.slicePads k) ∧ t.fld BST_PAD_TESTS = (s.fld BST_PAD_TESTS + 1) % 2 ^ 32 ∧ regsBut [BST_PAD_TESTS.off] s t ∧ only [.marl, .regs] s t)
    ∧ ∃ t, exec (.padTestEnd i up true) s = .next t ∧ t.fld BST_PAD_TESTS = (s.fld BST_PAD_TESTS + 1) % 2 ^ 32 ∧ t.fld BST_PAD_FAILS = (s.fld BST_PAD_FAILS + 1) % 2 ^ 32)
  ∧ (∀ (l eyeH : BitVec 8) (eyeW : BitVec 6) (s : State), l.toNat ∈ s.acc.laneDue → s.live = true → s.laneInL0 l.toNat = true →
    ∃ t, exec (.laneMarginCheck l eyeH eyeW) s = .next t ∧ t.acc = { s.acc with laneDue := s.acc.laneDue.filter (· != l.toNat) } ∧ t.fld (BST_LANE_RESULT_VALID l.toNat) = 1
      ∧ t.fld (BST_LANE_RESULT_EYE_H l.toNat) = eyeH.toNat ∧ t.fld (BST_LANE_RESULT_EYE_W l.toNat) = eyeW.toNat
      ∧ (if eyeW.toNat < s.fld BST_LANE_LIMITS_EYE_W_MIN ∨ eyeH.toNat < s.fld BST_LANE_LIMITS_EYE_H_MIN then
          t.fld (BST_LANE_RESULT_FAILS l.toNat) = min 3 (s.fld (BST_LANE_RESULT_FAILS l.toNat) + 1)
            ∧ (s.fld (BST_LANE_RESULT_FAILS l.toNat) = 2 → t.fld (BST_LANE_RESULT_WEAK l.toNat) = 1 ∧ t.fld BST_LANE_WEAK = (s.fld BST_LANE_WEAK + 1) % 2 ^ 32)
        else t.fld (BST_LANE_RESULT_FAILS l.toNat) = 0 ∧ t.fld (BST_LANE_RESULT_WEAK l.toNat) = 0)
      ∧ regsBut [(BST_LANE_RESULT l.toNat).off, BST_LANE_WEAK.off] s t ∧ only [.acc, .regs] s t)
  ∧ (∀ (m : CoilMeas) (bad : Bool) (eyeH : BitVec 8) (eyeW : BitVec 6) (r : BstRun) (s : State), s.acc.bstRun = some r → s.ready = true → s.dead = false → s.sleep = 0 → s.calm = true → s.mgmtOf 0x4A = [] →
    (r.pos + 1 < runUnits r.scope → ∃ t q, exec (.bstRunStep m bad eyeH eyeW) s = .next t ∧ t.acc.bstRun = some q ∧ q.job = r.job ∧ q.scope = r.scope ∧ q.index = r.index ∧ q.pos = r.pos + 1
        ∧ q.tested + q.skips = r.tested + r.skips + 1)
    ∧ (runUnits r.scope ≤ r.pos + 1 → (∃ d ∈ (s.ring 0).descs, d.job = r.job ∧ d.st ≠ .done) →
      ∃ t e, exec (.bstRunStep m bad eyeH eyeW) s = .next t ∧ t.acc.bstRun = none ∧ t.fld BST_STATUS_RUN_BUSY = 0 ∧ e ∈ (t.ring 0).cpls ∧ e.job = r.job ∧ e.status = stOK))

/-- The test access port (R454 to R459): a protected instruction that no grant covers acts as BYPASS and is counted; covered, it takes effect after the clearing, which it
begins otherwise; IDCODE, DBG_STATUS and REGACC capture what their rules say; a debug response is judged once; the clearing leaves zeros and CLEARED. -/
def Obligations.TestAccess : Prop :=
  (∀ (c : Instr) (code : BitVec 8) (s : State), s.rails.vaon = true →
    (c = .extest ∧ code = irExtest) ∨ (c = .clamp ∧ code = irClamp) ∨ (c = .highz ∧ code = irHighz) ∨ (c = .extestPulse ∧ code = irPulse) ∨ (c = .extestTrain ∧ code = irTrain)
      ∨ (c = .ijtag ∧ code = irIjtag) ∨ (c = .scan ∧ code = irScan) →
    (s.clearing = true → ∃ t, exec c s = .next t ∧ t.acc.tap = { s.acc.tap with ir := code, effect := 0xFF, dr := [0] } ∧ only [.acc] s t)
    ∧ (s.clearing = false → s.covered code = false →
      ∃ t, exec c s = .next t ∧ t.acc.tap = { s.acc.tap with ir := code, effect := 0xFF, dr := [0] } ∧ t.reg (violReg BST_CFG.off .access) = (s.reg (violReg BST_CFG.off .access) + 1) % 2 ^ 32
        ∧ regsBut [violReg BST_CFG.off .access] s t ∧ only [.acc, .regs] s t)
    ∧ (s.clearing = false → s.covered code = true → (code = irScan → s.pins.tmode = true) →
      (s.on BST_DBG_STATUS_CLEARED = true → ∃ t, exec c s = .next t ∧ t.acc.tap.ir = code ∧ t.acc.tap.effect = code
          ∧ (if code = irClamp ∨ code = irHighz then t.acc.tap.dr = [0] ∧ t.free = s.free else t.acc.tap.dr = Config.chain s.free ∧ t.free = s.free + 1) ∧ only [.acc, .free] s t)
      ∧ (s.on BST_DBG_STATUS_CLEARED = false → ∃ t, exec c s = .next t ∧ t.clearing = true ∧ t.phase = 0xC ∧ t.fld BST_DBG_STATUS_DEBUG = 1 ∧ t.fld BST_DBG_STATUS_SCOPE = s.tapScope.toNat
          ∧ { t.start with frozen := s.start.frozen } = { s.start with forcing := true, grave := true, graveDone := true }
          ∧ (s.marl.image = [] → s.rails.vstore = true → s.sleep ≠ 3 → 3 ≤ s.phase → s.phase ≠ 0xB → t.start.frozen = true ∧ t.marl.image ≠ [])
          ∧ t.acc.tap.dr = [0] ∧ t.txns = [] ∧ only [.acc, .start, .pwr, .lanes, .links, .sw, .txns, .marl, .regs] s t))
    ∧ (s.clearing = false → code = irScan → s.pins.tmode = false → s.covered code = true →
      ∃ t, exec c s = .next t ∧ t.acc.tap = { s.acc.tap with ir := code, effect := 0xFF, dr := [0] } ∧ only [.acc] s t))
  ∧ (∀ s : State, s.rails.vaon = true →
    (∃ t, exec .idcode s = .next t ∧ t.acc.tap = { s.acc.tap with ir := irIdcode, effect := 0xFF, dr := leBytes 4 0x040965AB } ∧ only [.acc] s t)
    ∧ (∃ t, exec .dbgStatus s = .next t ∧ t.acc.tap = { s.acc.tap with ir := irDbgStatus, effect := 0xFF, dr := leBytes 4 ((s.loadIr irDbgStatus).readNow BST_DBG_STATUS.off) } ∧ only [.acc] s t)
    ∧ (∀ code, ∃ t, exec (.bypass code) s = .next t ∧ t.acc.tap = { s.acc.tap with ir := code, effect := 0xFF, dr := [0] } ∧ only [.acc] s t))
  ∧ (∀ s : State, s.rails.vaon = true → s.clearing = false →
    (∃ t, exec .samplePreload s = .next t ∧ t.acc.tap = { s.acc.tap with ir := irSample, effect := 0xFF, dr := Config.chain s.free } ∧ t.free = s.free + 1 ∧ only [.acc, .free] s t)
    ∧ (∀ dr : BitVec 57, bitsOf dr.toNat 24 1 % 4 = 0 → s.accBusy = false → (bitAt dr.toNat 0 = false →
        ∃ t, exec (.regacc dr) s = .next t ∧ t.acc.tap.dr = leBytes 8 s.acc.tap.result ∧ t.acc.tap.ir = irRegacc ∧ t.acc.tap.accDone = true)
      ∧ (bitAt dr.toNat 0 = true → exec (.regacc dr) s = .next (({ s with acc := { s.acc with tap := { s.acc.tap with ir := irRegacc, effect := 0xFF, dr := leBytes 8 s.acc.tap.result, accDone := false, accStatus := 0, accData := 0 } } } : State).pathWrite .jtag (bitsOf dr.toNat 24 1) (bitsOf dr.toNat 56 25))))
    ∧ (∃ t, exec .authChal s = .next t ∧ t.acc.tap.dr = (List.range 48).map (Config.freeByte s.free) ∧ t.acc.tap.nonce = (if s.now < s.acc.tap.nonceFrom then none else some t.acc.tap.dr) ∧ t.free = s.free + 1 ∧ only [.acc, .free] s t)
    ∧ (∀ b : List (BitVec 8), ∃ t, exec (.authResp b) s = .next t ∧ t.acc.tap.dr = [] ∧ only [.acc, .regs] s t ∧ regsBut [BST_DBG_STATUS.off] s t
        ∧ (if s.authOk b then t.acc.tap.grant = BitVec.ofNat 3 (byteAt b 97) ∧ t.fld BST_DBG_STATUS_SCOPE = byteAt b 97 % 8 ∧ t.acc.tap.nonce = s.acc.tap.nonce
          else t.acc.tap.grant = s.acc.tap.grant ∧ t.acc.tap.nonce = none ∧ t.acc.tap.nonceFrom = s.now + 1000000 ∧ t.fld BST_DBG_STATUS_AUTH_FAILS = min 255 (s.fld BST_DBG_STATUS_AUTH_FAILS + 1))))
  ∧ (∀ s : State, s.clearing = true → s.rails.vaon = true → s.rails.vcore = true →
    ∃ t, exec .clearingDone s = .next t ∧ t.fld BST_DBG_STATUS_CLEARING = 0 ∧ t.fld BST_DBG_STATUS_CLEARED = 1 ∧ t.marl.lines = [] ∧ t.marl.image = [] ∧ t.start.frozen = false
      ∧ t.fox.jobs = [] ∧ t.fox.outs = [] ∧ t.fox.retained = [] ∧ t.fox.ckpActive = {} ∧ t.fox.ckpFrozen = {} ∧ (∀ n, n < 16 → t.fld (RT_ACW_BASE_VALID n) = 0) ∧ t.fld RT_ACW_CTL_ENFORCE = 1
      ∧ t.acc.tap.keysCleared = true ∧ t.recd.staging = [] ∧ (∀ c, c < s.nChans → s.on (CHAN_STATUS_FENCED c) = false → mget t.chan.zeroed c = some chanBlocks) ∧ t.rings = s.rings)

/-- A step runs the command at the front of the queue: `step` is `exec` of that command on the state with the queue's rest. On an empty queue one
microsecond passes, and nothing else changes but where a pattern generator of a lane is on, which sends its next word (the model's choice, log entry 1). -/
def Obligations.StepRunsFront : Prop :=
  (∀ (c : Instr) (rest : List Instr) (s : State), step { s with pending := c :: rest } = exec c { s with pending := rest })
  ∧ (∀ s : State, s.pending = [] → ∃ t, step s = .next t ∧ t.now = s.now + 1 ∧ only [.now, .lanes, .regs, .free] s t
      ∧ ((∀ e ∈ s.lanes, s.on (LANE_PRBS_CTL_GEN_EN e.1) = false) → only [.now] s t))

/-- Right after the power-on reset (R27, R71, R423): every register holds the reset value of its field map, no command waits, only VAON is good, PERST_N is
low and the stack waits in P0; the maps are in their one form. The memory is empty, PWR_CYCLES is 1 and the fuse array as shipped are the model's
choices (log entries 4 and 32). -/
def Obligations.ResetState : Prop :=
  State.reset.wf = true ∧ State.reset.pending = [] ∧ (∀ o, State.reset.reg o = (resetValue o).toNat) ∧ State.reset.phase = 0 ∧ State.reset.chan.dram = []
  ∧ State.reset.rails = { vaon := true, vcore := false, vstore := false, vdram := false, vpp := false, vser := false, vserh := false, vfuse := false }
  ∧ State.reset.pins.perstN = false ∧ State.reset.ready = false ∧ State.reset.locked = false ∧ State.reset.recd.opSec = 16 ∧ State.reset.recd.pwr = 1
  ∧ State.reset.fld MARL_PART_BUF_BANKS = 4 ∧ State.reset.fld MARL_PART_DEN_BANKS = 1 ∧ State.reset.fld THM_LIMITS_TRIP = 115 ∧ State.reset.fld THM_LIMITS_CRIT = 110 ∧ State.reset.fld RT_CFG_HOP_LIMIT = 48
  ∧ State.reset.fld (CHAN_SCHED_AGE_CAP 5) = 40 ∧ State.reset.fld (CHAN_SCHED_WR_HI 31) = 48 ∧ State.reset.fld (PORT_CRED_INIT_FLITS 31 3) = 2048
  ∧ State.reset.fld (PORT_CRED_INIT_FLITS 0 4) = 256 ∧ State.reset.fld GLB_MEM_CFG_GRAIN = 1

/-- No command stops the block: whatever the state, `exec` of every command answers a next state. A refused request is answered, a hardware fault is a
record of the collector (R399). -/
def Obligations.EveryCommandCompletes : Prop := ∀ (c : Instr) (s : State), ∃ t, exec c s = .next t

/-- No command touches the queue of waiting commands or the model's clock, and the count of free values drawn never falls (the model's own fields,
log entries 1 and 2). -/
def Obligations.QueueAndClockKept : Prop :=
  ∀ (c : Instr) (s t : State), exec c s = .next t → t.pending = s.pending ∧ t.now = s.now ∧ s.free ≤ t.free

/-- Every step keeps the maps in their one form: the registers listed by rising offset, none of them at its reset value, the bytes of the DRAM by rising
address, the lines of the Marl by rising line number. Equal registers, memories and caches are then equal data. -/
def Obligations.MapsStayCanonical : Prop := ∀ s t : State, s.wf = true → step s = .next t → t.wf = true

/-- A packet read back from the contents of its flits is the packet (Table 9.1, R135, R180): every header field, the reserved bits too, and every payload
byte come back, and a packet of up to 4,096 payload bytes takes 1 to 65 flits. -/
def Obligations.PacketRoundTrip : Prop :=
  (∀ h : Hdr, (hdrBytes h).length = 32 ∧ hdrOfBytes (hdrBytes h) = h)
  ∧ (∀ p : Packet, p.hdr.len.toNat ≤ 4096 → p.payload.length = p.hdr.len.toNat →
    packetOf p.contents.flatten = p ∧ (∀ f ∈ p.contents, f.length = 64) ∧ p.contents.length = p.flits ∧ 1 ≤ p.flits ∧ p.flits ≤ 65)

/-- The interleave map is one to one, with or without the hash (R236): a local address below N × 3 GiB has a logical channel below N and an offset below
3 GiB, the inverse map gives the address back, and every such channel and offset comes from an address; a line's home, which in layer-parity mode is never
the parity holder of its stripe (R239), gives the line back. -/
def Obligations.InterleaveOneToOne : Prop :=
  (∀ nch cfg a : Nat, nch = 16 ∨ nch = 24 ∨ nch = 32 → a < dataChans nch cfg * 3 * 2 ^ 30 →
    (mapAddr nch cfg a).1 < dataChans nch cfg ∧ (mapAddr nch cfg a).2 < 3 * 2 ^ 30 ∧ unmapAddr nch cfg (mapAddr nch cfg a).1 (mapAddr nch cfg a).2 = a)
  ∧ (∀ nch cfg k o : Nat, nch = 16 ∨ nch = 24 ∨ nch = 32 → k < dataChans nch cfg → o < 3 * 2 ^ 30 →
    unmapAddr nch cfg k o < dataChans nch cfg * 3 * 2 ^ 30 ∧ mapAddr nch cfg (unmapAddr nch cfg k o) = (k, o))
  ∧ (∀ (s : State) (l : Nat), l * 64 < s.memTop →
    (s.homeOf l).1 < s.nChans ∧ (s.homeOf l).2 < 3 * 2 ^ 24 ∧ s.lineAt (s.homeOf l).1 (s.homeOf l).2 = some l
    ∧ (s.parity = true → (s.homeOf l).1 ≠ holderOf ((s.homeOf l).1 / 8) (s.homeOf l).2))

/-- The DRAM code (R375, R376, R378): a block written under a line number below 2^40 decodes clean to its data, a block written poisoned decodes poisoned. -/
def Obligations.DramCodeRoundTrip : Prop :=
  ∀ (f : Nat) (data : List (BitVec 8)), f < 2 ^ 40 → data.length = 64 →
    (dramEncode f data false).length = 72 ∧ dramDecode f (dramEncode f data false) = (.clean, data) ∧ dramDecode f (dramEncode f data true) = (.poisoned, data)

/-- The TAG of a new request is unique among the outstanding ones, whatever their DST (R207): while fewer than 65,536 requests are outstanding a free TAG
exists and is the one taken; at 65,536 the request waits, unsent. -/
def Obligations.TagIsFresh : Prop :=
  (∀ s : State, s.fox.outs.length < 65536 → ∀ o ∈ s.fox.outs, o.tag ≠ s.freeTag)
  ∧ (∀ (s : State) (p : Packet) (o : Owner) (space : Nat),
    (s.fox.outs.length < 65536 → ∃ r, (s.sendOwn p o space).fox.outs = s.fox.outs ++ [r] ∧ r.owner = o ∧ r.tag = s.freeTag ∧ r.pkt = { p with hdr := { p.hdr with tag := s.freeTag } })
    ∧ (65536 ≤ s.fox.outs.length → ∃ r, s.sendOwn p o space = { s with fox := { s.fox with unsent := s.fox.unsent ++ [r] } } ∧ r.owner = o ∧ r.pkt.payload = p.payload))

/-- A write that would leave too few shared cells is discarded as a whole (R214): 16,384 on a K96 or K72, 8,192 on a K48. The shared cells are those of the
buffer portion that no reservation of R213 holds. -/
def Obligations.SharedCellsKept : Prop :=
  ∀ (via : Path) (off : BitVec 24) (v : BitVec 32) (b : Blk) (o : Nat) (d : RegDesc) (s : State),
    (off.toNat = MARL_PART.off ∨ off.toNat = MARL_BUF_CFG.off ∨ (∃ p < 32, off.toNat = (PORT_ROLE p).off) ∨ (∃ p < 32, ∃ vc < 5, off.toNat = (PORT_CRED_INIT p vc).off)) →
    blkOf off.toNat = some (b, o) → descOf off.toNat = some d → v.toNat &&& fieldMask d = v.toNat → s.rsvdValue b off.toNat o v.toNat = false →
    s.pathUp via = true → (via = .mreg ∨ s.pathLimited = false) → s.calm = true →
    (s.setReg off.toNat v.toNat).bufCells < (s.setReg off.toNat v.toNat).reservedCells + (if s.k48 then 8192 else 16384) →
    ∃ t, exec (.registerWrite via off v) s = .next t ∧ t.acc = (s.pathStatus via stSTATE).acc
      ∧ t.reg (violReg off.toNat .state) = (s.reg (violReg off.toNat .state) + 1) % 2 ^ 32 ∧ regsBut [violReg off.toNat .state] s t ∧ only [.acc, .regs] s t

/-- RING_CTL after GLB_LOCK (R298): a write is answered STATE and counted in the ring block's CNT_VIOL_STATE, whichever ring and path, and the answer of an
MREG_WR says so; only ring 0 over the sideband or JTAG is served as before GLB_LOCK. -/
def Obligations.RingControlLocked : Prop :=
  (∀ (via : Path) (n : BitVec 6) (off : BitVec 24) (v : BitVec 32) (s : State), off.toNat = (RING_CTL n.toNat).off → (v = 0 ∨ v = 1 ∨ v = 2 ∨ v = 4) → s.locked = true →
    s.pathUp via = true → (via = .mreg ∨ s.pathLimited = false) → s.calm = true → (via = .mreg ∨ n ≠ 0) →
    ∃ t, exec (.registerWrite via off v) s = .next t ∧ t.acc = (s.pathStatus via stSTATE).acc ∧ t.fld RING_CNT_VIOL_STATE = (s.fld RING_CNT_VIOL_STATE + 1) % 2 ^ 32
      ∧ regsBut [RING_CNT_VIOL_STATE.off] s t ∧ only [.acc, .regs] s t)
  ∧ (∀ (p : Packet) (n : BitVec 6) (s u : State), s.mayEnter p → s.brought p = u → s.acc.owed = [] → u.mregRsps < 16 → p.okForm = true → u.calm = true → u.regWindow (some p.hdr) = true → u.locked = true →
    p.hdr.addr.toNat % 2 ^ 24 = (RING_CTL n.toNat).off → (leAt p.payload 0 4 = 0 ∨ leAt p.payload 0 4 = 1 ∨ leAt p.payload 0 4 = 2 ∨ leAt p.payload 0 4 = 4) →
    ∃ t, exec (.mregWr p) s = .next t ∧ sends u t (mkRsp u.eid p.hdr stSTATE 0 []) ∧ t.fld RING_CNT_VIOL_STATE = (u.fld RING_CNT_VIOL_STATE + 1) % 2 ^ 32
      ∧ regsBut [RING_CNT_VIOL_STATE.off, RT_DROP.off] u t ∧ only [.acc, .sw, .regs] u t)
  ∧ (∀ (via : Path) (off : BitVec 24) (s : State), off.toNat = (RING_CTL 0).off → via ≠ .mreg → s.takes via .ring = true →
    (s.ringSt 0 = 0 → ∃ t, exec (.registerWrite via off 1) s = .next t ∧ t.ringSt 0 = 1 ∧ t.fld (RING_SQ_IDX 0) = 0 ∧ t.ring 0 = {} ∧ taken via [.rings] s t)
    ∧ (s.ringSt 0 = 1 → (s.ring 0).descs = [] → (s.ring 0).cpls = [] → (s.ring 0).cplBusy = 0 →
      ∃ t, exec (.registerWrite via off 2) s = .next t ∧ t.ringSt 0 = 0 ∧ t.acc = (s.pathStatus via stOK).acc)
    ∧ (s.ringSt 0 = 2 → ∃ t, exec (.registerWrite via off 4) s = .next t ∧ t.ringSt 0 = 1 ∧ t.fld (RING_STATUS_HALT_CAUSE 0) = 0 ∧ t.acc = (s.pathStatus via stOK).acc))

/-- A fault of class G enters the grave safe state at once, whatever the state of any record (R405): also while the stack sleeps, enters a sleep or forces the safe
state, and also where the fault merges into a record of a lower class, which rises to G. -/
def Obligations.GraveAtOnce : Prop :=
  ∀ (f : FltCause) (unit : BitVec 8) (detail : BitVec 32) (code d : Nat) (s : State),
    causeOf (if s.variant = 0x96 then .d else .a) f unit.toNat = (code, .g, d) → domListed d = true → s.domOff d = false → s.collects = true →
    ∃ t, exec (.faultRaise f unit detail) s = .next t ∧ t.start.grave = true
      ∧ (s.start.grave = false → (t.fltRec d).isOpen = true ∧ (t.fltRec d).cls = .g ∧ t.pwr.entry = none
        ∧ ((s.fltRec d).isOpen = true → (s.fltRec d).cls ≠ .g → (t.fltRec d).st = .grave ∧ (t.fltRec d).merges = min 255 ((s.fltRec d).merges + 1)))

/-- Displacement in the staging queue (R425): a new record that does not fit takes the room of the newest queued record of a lower severity, which is counted in
REC_LOST of its own severity; where no queued record is of a lower severity the new one is dropped and counted. -/
def Obligations.StagingDisplaces : Prop :=
  ∀ (typ : BitVec 8) (sev code unit : Nat) (tail : List (BitVec 8)) (r : EvRec) (s : State), s.recd.freeze = .off → sev < 4 →
    r = { typ := typ, sev := sev, opSec := s.recd.opSec, pwr := s.recd.pwr, rseq := s.recd.rseq, code := BitVec.ofNat 32 code, unit := BitVec.ofNat 32 unit, tail := tail, at_ := s.now } →
    findFold s.now r s.recd.staging = none → s.logFold r = none → 16384 < queueBytes s.recd.staging + recLen r →
    (∀ (i : Nat) (a : EvRec), s.recd.staging[i]? = some (.new a) → a.sev < sev → (∀ (j : Nat) (b : EvRec), i < j → s.recd.staging[j]? = some (.new b) → sev ≤ b.sev) →
      queueBytes s.recd.staging + recLen r ≤ 16384 + recLen a →
      (s.record typ sev code unit tail).recd.staging = s.recd.staging.eraseIdx i ++ [.new r] ∧ (s.record typ sev code unit tail).fld (REC_LOST a.sev) = (s.fld (REC_LOST a.sev) + 1) % 2 ^ 32
      ∧ regsBut [(REC_LOST a.sev).off] s (s.record typ sev code unit tail) ∧ only [.recd, .regs] s (s.record typ sev code unit tail))
    ∧ ((∀ (i : Nat) (a : EvRec), s.recd.staging[i]? = some (.new a) → sev ≤ a.sev) →
      (s.record typ sev code unit tail).recd.staging = s.recd.staging ∧ (s.record typ sev code unit tail).fld (REC_LOST sev) = (s.fld (REC_LOST sev) + 1) % 2 ^ 32
      ∧ regsBut [(REC_LOST sev).off] s (s.record typ sev code unit tail) ∧ only [.recd, .regs] s (s.record typ sev code unit tail))
end

