-- ==== Sys2Proof/Laws/Maps.lean ====
section
/-! SUPPORT. Laws of the maps kept as rising lists: read after write, other keys, and the canonical form. -/

namespace Sys2Proof.Laws

set_option Elab.async false

open Sys2Proof.Machine

variable {α : Type}

@[simp] theorem mget_nil (k : Nat) : mget ([] : List (Nat × α)) k = none := rfl

/-- Reading the key just written gives the value written. -/
@[simp] theorem mget_mput_same (k : Nat) (v : α) (l : List (Nat × α)) : mget (mput k v l) k = some v := by
  induction l with
  | nil => simp [mput, mget]
  | cons e t ih =>
    obtain ⟨a, w⟩ := e
    unfold mput
    split
    · simp [mget]
    · split
      · simp [mget]
      · simp only [mget]
        rw [if_neg (by omega), ih]

/-- Writing one key leaves every other key alone. -/
theorem mget_mput_ne {j k : Nat} (h : j ≠ k) (v : α) (l : List (Nat × α)) : mget (mput k v l) j = mget l j := by
  induction l with
  | nil => simp [mput, mget, h.symm]
  | cons e t ih =>
    obtain ⟨a, w⟩ := e
    unfold mput
    split
    · simp [mget, h.symm]
    · split
      · subst_vars; simp [mget, h.symm]
      · simp only [mget, ih]

@[simp] theorem mget_merase_same (k : Nat) (l : List (Nat × α)) : mget (merase k l) k = none := by
  induction l with
  | nil => rfl
  | cons e t ih =>
    obtain ⟨a, w⟩ := e
    unfold merase at *
    by_cases hk : a = k
    · simp [hk, ih]
    · simp [hk, mget, ih]

theorem mget_merase_ne {j k : Nat} (h : j ≠ k) (l : List (Nat × α)) : mget (merase k l) j = mget l j := by
  induction l with
  | nil => rfl
  | cons e t ih =>
    obtain ⟨a, w⟩ := e
    unfold merase at *
    by_cases hk : a = k
    · subst hk; simp [mget, h.symm, ih]
    · simp [hk, mget, ih]

@[simp] theorem mgetD_mput_same (k : Nat) (v d : α) (l : List (Nat × α)) : mgetD (mput k v l) k d = v := by simp [mgetD]

theorem mgetD_mput_ne {j k : Nat} (h : j ≠ k) (v d : α) (l : List (Nat × α)) : mgetD (mput k v l) j d = mgetD l j d := by
  simp [mgetD, mget_mput_ne h]

/-- A first key that lies below the first key of a rising list keeps it rising. -/
theorem rising_cons {a : Nat} {v : α} {l : List (Nat × α)} (hl : rising l = true) (h : ∀ e ∈ l.head?, a < e.1) :
    rising ((a, v) :: l) = true := by
  cases l with
  | nil => rfl
  | cons e t => simp_all [rising]

theorem rising_tail {e : Nat × α} {l : List (Nat × α)} (h : rising (e :: l) = true) : rising l = true := by
  cases l with
  | nil => rfl
  | cons e' t => simp_all [rising]

/-- Keys of a rising list lie above its first key. -/
theorem rising_lt {e : Nat × α} {l : List (Nat × α)} (h : rising (e :: l) = true) : ∀ x ∈ l, e.1 < x.1 := by
  induction l generalizing e with
  | nil => simp
  | cons y t ih =>
    intro x hx
    have h1 : e.1 < y.1 := by simp_all [rising]
    rcases List.mem_cons.mp hx with rfl | hx
    · exact h1
    · exact Nat.lt_trans h1 (ih (rising_tail h) x hx)

theorem mput_head (k : Nat) (v : α) (l : List (Nat × α)) (a : Nat) (ha : a < k) (h : ∀ e ∈ l.head?, a < e.1) :
    ∀ e ∈ (mput k v l).head?, a < e.1 := by
  cases l with
  | nil => simpa [mput] using ha
  | cons e t =>
    obtain ⟨b, w⟩ := e
    unfold mput
    split
    · simpa using ha
    · split
      · simpa using ha
      · simpa using h

/-- Writing keeps the keys rising. -/
theorem rising_mput {l : List (Nat × α)} (h : rising l = true) (k : Nat) (v : α) : rising (mput k v l) = true := by
  induction l with
  | nil => rfl
  | cons e t ih =>
    obtain ⟨a, w⟩ := e
    unfold mput
    split
    · exact rising_cons h (by simpa)
    · split
      · subst_vars
        exact rising_cons (rising_tail h) fun x hx => rising_lt h x (List.mem_of_mem_head? hx)
      · exact rising_cons (ih (rising_tail h))
          (mput_head k v t a (by omega) fun x hx => rising_lt h x (List.mem_of_mem_head? hx))

/-- What a written map lists: the pair written, or what it listed before. -/
theorem mem_mput {k : Nat} {v : α} {l : List (Nat × α)} {x : Nat × α} (h : x ∈ mput k v l) : x = (k, v) ∨ x ∈ l := by
  induction l with
  | nil => simpa [mput] using h
  | cons e t ih =>
    obtain ⟨a, w⟩ := e
    unfold mput at h
    split at h
    · simpa using h
    · split at h
      · rcases List.mem_cons.mp h with h | h
        · exact .inl h
        · exact .inr (List.mem_cons_of_mem _ h)
      · rcases List.mem_cons.mp h with h | h
        · exact .inr (h ▸ List.mem_cons_self)
        · exact (ih h).imp id (List.mem_cons_of_mem _)

/-- Filtering keeps the keys rising. -/
theorem rising_filter {l : List (Nat × α)} (h : rising l = true) (p : Nat × α → Bool) : rising (l.filter p) = true := by
  induction l with
  | nil => rfl
  | cons e t ih =>
    simp only [List.filter_cons]
    split
    · exact rising_cons (ih (rising_tail h)) fun x hx =>
        rising_lt h x (List.mem_filter.mp (List.mem_of_mem_head? hx)).1
    · exact ih (rising_tail h)

/-- Changing values keeps the keys rising. -/
theorem rising_map {β : Type} {l : List (Nat × α)} (h : rising l = true) (f : Nat × α → Nat × β) (hf : ∀ e, (f e).1 = e.1) :
    rising (l.map f) = true := by
  induction l with
  | nil => rfl
  | cons e t ih =>
    rw [List.map_cons, show f e = ((f e).1, (f e).2) from rfl]
    refine rising_cons (ih (rising_tail h)) fun x hx => ?_
    cases t with
    | nil => simp at hx
    | cons y t =>
      obtain rfl : f y = x := by simpa using hx
      rw [hf, hf]
      exact rising_lt h y List.mem_cons_self

theorem rising_merase {l : List (Nat × α)} (h : rising l = true) (k : Nat) : rising (merase k l) = true := rising_filter h _

end Sys2Proof.Laws
end

