-- ==== Sys2Proof/Laws/Kept.lean ====
section
/-! SUPPORT. What every operation keeps: the queue of waiting commands and the clock stay, the count of draws never falls, and the
maps stay in their one form. `Kept s t` says it of two states; here are its laws and the primitive operations. -/

namespace Sys2Proof.Laws

set_option Elab.async false

open Sys2Proof.Machine

/-- The queue and the clock are the same, no draw is taken back, and maps in their one form stay so. -/
structure Kept (s t : State) : Prop where
  pending : t.pending = s.pending
  now : t.now = s.now
  free : s.free ≤ t.free
  wf : s.wf = true → t.wf = true

namespace Kept

variable {s t u : State} {α β γ : Type}

theorem refl (s : State) : Kept s s := ⟨rfl, rfl, Nat.le_refl _, id⟩

theorem trans (h : Kept s t) (h' : Kept t u) : Kept s u :=
  ⟨h'.pending.trans h.pending, h'.now.trans h.now, h.free.trans h'.free, h'.wf ∘ h.wf⟩

/-- A change of other parts. -/
theorem of_eq (h : Kept s t) (h1 : u.pending = t.pending) (h2 : u.now = t.now) (h3 : u.free = t.free) (h4 : u.regs = t.regs)
    (h5 : u.chan.dram = t.chan.dram) (h6 : u.marl.lines = t.marl.lines) : Kept s u :=
  h.trans ⟨h1, h2, h3.ge, fun hw => by simpa [State.wf, h4, h5, h6] using hw⟩

section
variable {acc : AccSt} {rails : Rails} {pins : Pins} {start : StartSt} {clk : ClkSt} {pwr : PwrSt} {unitResets : List UnitReset} {fuse : FuseSt} {flt : FltSt} {recd : RecorderSt} {sett : SettSt} {links : List (Nat × Link)} {lanes : List (Nat × Lane)} {sw : SwitchSt} {txns : List Txn} {nextTxn : Nat} {marl : MarlSt} {chan : ChanSt} {vcp : VcpSt} {qos : QosSt} {rings : List (Nat × Ring)} {fox : FoxSt} {prot : ProtSt} {thm : ThmSt}

/-- A record of a state with other parts changed, the memory and the lines apart. -/
theorem lit (h5 : chan.dram = t.chan.dram) (h6 : marl.lines = t.marl.lines) :
    Kept s (State.mk t.pending t.now t.free t.regs acc rails pins start clk pwr unitResets fuse flt recd sett links lanes sw txns nextTxn marl chan vcp qos rings fox prot thm) ↔ Kept s t :=
  ⟨fun h => h.of_eq rfl rfl rfl rfl h5.symm h6.symm, fun h => h.of_eq rfl rfl rfl rfl h5 h6⟩

/-- A record of a state with other parts changed, the memory or the lines among them. -/
theorem lit_maps (h : Kept s t) (hm : Memory.wf t.chan.dram = true → Memory.wf chan.dram = true) (hl : rising t.marl.lines = true → rising marl.lines = true) :
    Kept s (State.mk t.pending t.now t.free t.regs acc rails pins start clk pwr unitResets fuse flt recd sett links lanes sw txns nextTxn marl chan vcp qos rings fox prot thm) :=
  h.trans ⟨rfl, rfl, Nat.le_refl _, fun hw => by
    simp only [State.wf, Bool.and_eq_true] at hw ⊢
    exact ⟨⟨hw.1.1, hm hw.1.2⟩, hl hw.2⟩⟩

end

/-- Draws are counted. -/
theorem drawn {n : Nat} (h : Kept s t) : Kept s { t with free := t.free + n } :=
  h.trans ⟨rfl, rfl, Nat.le_add_right _ _, fun hw => by simpa [State.wf] using hw⟩

/-- A change of the memory to one in its form. -/
theorem dram (h : Kept s t) (h1 : u.pending = t.pending) (h2 : u.now = t.now) (h3 : u.free = t.free) (h4 : u.regs = t.regs)
    (h5 : Memory.wf t.chan.dram = true → Memory.wf u.chan.dram = true) (h6 : u.marl.lines = t.marl.lines) : Kept s u :=
  h.trans ⟨h1, h2, h3.ge, fun hw => by
    simp only [State.wf, Bool.and_eq_true, h4, h6] at hw ⊢
    exact ⟨⟨hw.1.1, h5 hw.1.2⟩, hw.2⟩⟩

/-- A change of the lines of the Marl to a rising list. -/
theorem lines (h : Kept s t) (h1 : u.pending = t.pending) (h2 : u.now = t.now) (h3 : u.free = t.free) (h4 : u.regs = t.regs)
    (h5 : u.chan.dram = t.chan.dram) (h6 : rising t.marl.lines = true → rising u.marl.lines = true) : Kept s u :=
  h.trans ⟨h1, h2, h3.ge, fun hw => by
    simp only [State.wf, Bool.and_eq_true, h4, h5] at hw ⊢
    exact ⟨hw.1, h6 hw.2⟩⟩

theorem snd_of_eq {p : β × State} {b : β} (h : p = (b, t)) (hp : Kept s p.2) : Kept s t := by subst h; exact hp
theorem fst_of_eq {p : State × β} {b : β} (h : p = (t, b)) (hp : Kept s p.1) : Kept s t := by subst h; exact hp
theorem fst_of_eq3 {p : State × β × γ} {b : β} {c : γ} (h : p = (t, b, c)) (hp : Kept s p.1) : Kept s t := by subst h; exact hp
theorem snd_of_eq3 {p : β × γ × State} {b : β} {c : γ} (h : p = (b, c, t)) (hp : Kept s p.2.2) : Kept s t := by subst h; exact hp

theorem foldl {l : List α} {f : State → α → State} (h : Kept s t) (hf : ∀ a u x, Kept a u → Kept a (f u x)) : Kept s (l.foldl f t) := by
  induction l generalizing t with
  | nil => exact h
  | cons x l ih => exact ih (hf _ _ _ h)

/-- A fold that carries the state in the second place. -/
theorem foldl_snd {l : List α} {f : β × State → α → β × State} {p : β × State} (h : Kept s p.2) (hf : ∀ a u x, Kept a u.2 → Kept a (f u x).2) :
    Kept s (l.foldl f p).2 := by
  induction l generalizing p with
  | nil => exact h
  | cons x l ih => exact ih (hf _ _ _ h)

theorem foldl_fst {l : List α} {f : State × β → α → State × β} {p : State × β} (h : Kept s p.1) (hf : ∀ a u x, Kept a u.1 → Kept a (f u x).1) :
    Kept s (l.foldl f p).1 := by
  induction l generalizing p with
  | nil => exact h
  | cons x l ih => exact ih (hf _ _ _ h)

theorem each {l : List α} {f : State → α → State} (h : Kept s t) (hf : ∀ a u x, Kept a u → Kept a (f u x)) : Kept s (t.each l f) := h.foldl hf

theorem when {b : Bool} {f : State → State} (h : Kept s t) (hf : ∀ a u, Kept a u → Kept a (f u)) : Kept s (t.when b f) := by
  unfold State.when; split
  · exact hf _ _ h
  · exact h

theorem iter {n : Nat} {f : Nat → State → State} (h : Kept s t) (hf : ∀ a i u, Kept a u → Kept a (f i u)) : Kept s (Machine.iter n f t) :=
  h.foldl fun a u i => hf a i u

end Kept

variable {a s : State}

/-- A register stored keeps the registers in their form. -/
theorem kept_setReg {off v : Nat} (h : Kept a s) : Kept a (s.setReg off v) := by
  refine h.trans ⟨rfl, rfl, Nat.le_refl _, fun hw => ?_⟩
  simp only [State.wf, State.setReg, Bool.and_eq_true, List.all_eq_true, bne_iff_ne] at hw ⊢
  obtain ⟨⟨⟨h1, h2⟩, h3⟩, h4⟩ := hw
  refine ⟨⟨⟨?_, ?_⟩, h3⟩, h4⟩
  · split
    · exact rising_merase h1 _
    · exact rising_mput h1 _ _
  · intro e he
    split at he
    · exact h2 e (List.mem_filter.mp he).1
    · rename_i hv
      rcases mem_mput he with h | h
      · subst h; exact hv
      · exact h2 e h

theorem kept_set {f : Fld} {v : Nat} (h : Kept a s) : Kept a (s.set f v) := kept_setReg h

theorem kept_sets {l : List (Fld × Nat)} (h : Kept a s) : Kept a (s.sets l) := h.foldl fun _ _ _ => kept_set

end Sys2Proof.Laws
end

