-- ==== Sys2Proof/Laws/KeptCore.lean ====
section
/-! SUPPORT. What the operations of the registers, the fabric, the recorder, the fault records and the memory keep (`Kept`): one lemma for each. -/

namespace Sys2Proof.Laws

set_option Elab.async false

set_option linter.all false

open Sys2Proof Sys2Proof.Machine

variable {a s : State}

/-! ## Ops -/

theorem kept_incBy {x0 : Fld} {x1 : Nat} (h : Kept a s) : Kept a (State.incBy s x0 x1) := by
  unfold State.incBy
  repeat' first
    | with_reducible (exact Kept.refl _) | with_reducible (assumption) | simp only [Kept.lit] | with_reducible (apply kept_set)

theorem kept_inc {x0 : Fld} (h : Kept a s) : Kept a (State.inc s x0) := by
  unfold State.inc
  repeat' first
    | with_reducible (exact Kept.refl _) | with_reducible (assumption) | simp only [Kept.lit] | with_reducible (apply kept_incBy)

theorem kept_incSat {x0 : Fld} (h : Kept a s) : Kept a (State.incSat s x0) := by
  unfold State.incSat
  repeat' first
    | with_reducible (exact Kept.refl _) | with_reducible (assumption) | simp only [Kept.lit] | with_reducible (apply kept_set)

theorem kept_setPair {x0 : Fld} {x1 : Nat} (h : Kept a s) : Kept a (State.setPair s x0 x1) := by
  unfold State.setPair
  repeat' first
    | with_reducible (exact Kept.refl _) | with_reducible (assumption) | simp only [Kept.lit] | with_reducible (apply kept_setReg)

theorem kept_incPair {x0 : Fld} {x1 : Nat} (h : Kept a s) : Kept a (State.incPair s x0 x1) := by
  unfold State.incPair
  repeat' first
    | with_reducible (exact Kept.refl _) | with_reducible (assumption) | simp only [Kept.lit] | with_reducible (apply kept_setPair)

theorem kept_viol {x0 : Nat} {x1 : Viol} (h : Kept a s) : Kept a (State.viol s x0 x1) := by
  unfold State.viol
  repeat' first
    | with_reducible (exact Kept.refl _) | with_reducible (assumption) | simp only [Kept.lit] | with_reducible (apply kept_setReg) | (intro) | (split)

theorem kept_setLink {x0 : Nat} {x1 : Nat} {x2 : Link} (h : Kept a s) : Kept a (State.setLink s x0 x1 x2) := by
  unfold State.setLink
  repeat' first
    | with_reducible (exact Kept.refl _) | with_reducible (assumption) | simp only [Kept.lit]

theorem kept_setLane {x0 : Nat} {x1 : Lane} (h : Kept a s) : Kept a (State.setLane s x0 x1) := by
  unfold State.setLane
  repeat' first
    | with_reducible (exact Kept.refl _) | with_reducible (assumption) | simp only [Kept.lit]

theorem kept_setChn {x0 : Nat} {x1 : Chan} (h : Kept a s) : Kept a (State.setChn s x0 x1) := by
  unfold State.setChn
  repeat' first
    | with_reducible (exact Kept.refl _) | with_reducible (assumption) | simp only [Kept.lit]

theorem kept_setRing {x0 : Nat} {x1 : Ring} (h : Kept a s) : Kept a (State.setRing s x0 x1) := by
  unfold State.setRing
  repeat' first
    | with_reducible (exact Kept.refl _) | with_reducible (assumption) | simp only [Kept.lit]

theorem kept_setEng {x0 : Nat} {x1 : Engine} (h : Kept a s) : Kept a (State.setEng s x0 x1) := by
  unfold State.setEng
  repeat' first
    | with_reducible (exact Kept.refl _) | with_reducible (assumption) | simp only [Kept.lit]

theorem kept_setCol {x0 : Nat} {x1 : Column} (h : Kept a s) : Kept a (State.setCol s x0 x1) := by
  unfold State.setCol
  repeat' first
    | with_reducible (exact Kept.refl _) | with_reducible (assumption) | simp only [Kept.lit]

/-! ## Fabric -/

theorem kept_placeCells {x0 : List (Option Nat)} (h : Kept a s) : Kept a (State.placeCells s x0).2 := by
  unfold State.placeCells
  repeat' first
    | with_reducible (exact Kept.refl _) | with_reducible (assumption) | simp only [Kept.lit] | (intro) | (split) | with_reducible (apply Kept.foldl)
    | with_reducible (apply Kept.foldl_snd) | with_reducible (apply Kept.foldl_fst)

theorem kept_activity (h : Kept a s) : Kept a (State.activity s) := by
  unfold State.activity
  repeat' first
    | with_reducible (exact Kept.refl _) | with_reducible (assumption) | simp only [Kept.lit] | with_reducible (apply kept_set) | (intro) | (split)

theorem kept_addOut {x0 : OutPkt} (h : Kept a s) : Kept a (State.addOut s x0) := by
  unfold State.addOut
  repeat' first
    | with_reducible (exact Kept.refl _) | with_reducible (assumption) | simp only [Kept.lit] | with_reducible (apply kept_placeCells)
    | with_reducible (refine Kept.snd_of_eq (by assumption) ?_) | with_reducible (refine Kept.fst_of_eq (by assumption) ?_)
    | with_reducible (refine Kept.fst_of_eq3 (by assumption) ?_) | with_reducible (refine Kept.snd_of_eq3 (by assumption) ?_) | (intro) | (split)

theorem kept_addIn {x0 : InPkt} (h : Kept a s) : Kept a (State.addIn s x0) := by
  unfold State.addIn
  repeat' first
    | with_reducible (exact Kept.refl _) | with_reducible (assumption) | simp only [Kept.lit] | with_reducible (apply kept_placeCells)
    | with_reducible (refine Kept.snd_of_eq (by assumption) ?_) | with_reducible (refine Kept.fst_of_eq (by assumption) ?_)
    | with_reducible (refine Kept.fst_of_eq3 (by assumption) ?_) | with_reducible (refine Kept.snd_of_eq3 (by assumption) ?_) | (intro) | (split)

theorem kept_place {x0 : Packet} {x1 : List Nat} (h : Kept a s) : Kept a (State.place s x0 x1).1 := by
  unfold State.place
  repeat' first
    | with_reducible (exact Kept.refl _) | with_reducible (assumption) | simp only [Kept.lit] | with_reducible (apply kept_addOut) | with_reducible (apply kept_addIn)
    | (intro) | (split)

theorem kept_emitRsp {x0 : Packet} {x1 : List Nat} (h : Kept a s) : Kept a (State.emitRsp s x0 x1) := by
  unfold State.emitRsp
  repeat' first
    | with_reducible (exact Kept.refl _) | with_reducible (assumption) | simp only [Kept.lit] | with_reducible (apply kept_place) | with_reducible (apply kept_inc)
    | with_reducible (refine Kept.snd_of_eq (by assumption) ?_) | with_reducible (refine Kept.fst_of_eq (by assumption) ?_)
    | with_reducible (refine Kept.fst_of_eq3 (by assumption) ?_) | with_reducible (refine Kept.snd_of_eq3 (by assumption) ?_) | (intro) | (split)

theorem kept_failPacket {x0 : Packet} {x1 : BitVec 8} {x2 : Fld} (h : Kept a s) : Kept a (State.failPacket s x0 x1 x2) := by
  unfold State.failPacket
  repeat' first
    | with_reducible (exact Kept.refl _) | with_reducible (assumption) | simp only [Kept.lit] | with_reducible (apply kept_inc) | with_reducible (apply kept_emitRsp)
    | with_reducible (apply Kept.when) | (intro) | (split)

theorem kept_emit {x0 : Packet} (h : Kept a s) : Kept a (State.emit s x0) := by
  unfold State.emit
  repeat' first
    | with_reducible (exact Kept.refl _) | with_reducible (assumption) | simp only [Kept.lit] | with_reducible (apply kept_place)
    | with_reducible (apply kept_failPacket) | with_reducible (refine Kept.snd_of_eq (by assumption) ?_) | with_reducible (refine Kept.fst_of_eq (by assumption) ?_)
    | with_reducible (refine Kept.fst_of_eq3 (by assumption) ?_) | with_reducible (refine Kept.snd_of_eq3 (by assumption) ?_) | (intro) | (split)

theorem kept_freeIn {x0 : InPkt} (h : Kept a s) : Kept a (State.freeIn s x0) := by
  unfold State.freeIn
  repeat' first
    | with_reducible (exact Kept.refl _) | with_reducible (assumption) | simp only [Kept.lit] | with_reducible (apply kept_setLink) | with_reducible (apply kept_set)
    | (intro) | (split)

theorem kept_takeIn {x0 : Nat} (h : Kept a s) : Kept a (State.takeIn s x0) := by
  unfold State.takeIn
  repeat' first
    | with_reducible (exact Kept.refl _) | with_reducible (assumption) | simp only [Kept.lit] | with_reducible (apply kept_freeIn) | with_reducible (apply Kept.when)
    | (intro) | (split)

theorem kept_backPressure {x0 : Nat} {x1 : Nat} (h : Kept a s) : Kept a (State.backPressure s x0 x1) := by
  unfold State.backPressure
  repeat' first
    | with_reducible (exact Kept.refl _) | with_reducible (assumption) | simp only [Kept.lit] | with_reducible (apply kept_inc) | (intro) | (split)

theorem kept_svcWait {x0 : Nat} (h : Kept a s) : Kept a (State.svcWait s x0) := by
  unfold State.svcWait
  repeat' first
    | with_reducible (exact Kept.refl _) | with_reducible (assumption) | simp only [Kept.lit] | with_reducible (apply kept_inc) | with_reducible (apply kept_set)
    | (intro) | (split)

theorem kept_dropBad {x0 : Nat} (h : Kept a s) : Kept a (State.dropBad s x0) := by
  unfold State.dropBad
  repeat' first
    | with_reducible (exact Kept.refl _) | with_reducible (assumption) | simp only [Kept.lit] | with_reducible (apply kept_takeIn) | with_reducible (apply kept_inc)

theorem kept_tryMove {x0 : Nat} (h : Kept a s) : Kept a (State.tryMove s x0) := by
  unfold State.tryMove
  repeat' first
    | with_reducible (exact Kept.refl _) | with_reducible (assumption) | simp only [Kept.lit] | with_reducible (apply kept_backPressure)
    | with_reducible (apply kept_takeIn) | with_reducible (apply kept_addOut) | with_reducible (apply kept_incPair) | with_reducible (apply kept_dropBad)
    | with_reducible (apply kept_inc) | with_reducible (apply kept_failPacket) | (intro) | (split)

theorem kept_waitEnds {x0 : OutPkt} (h : Kept a s) : Kept a (State.waitEnds s x0) := by
  unfold State.waitEnds
  repeat' first
    | with_reducible (exact Kept.refl _) | with_reducible (assumption) | simp only [Kept.lit] | with_reducible (apply kept_addOut)
    | with_reducible (apply kept_failPacket) | with_reducible (apply kept_addIn) | (intro) | (split)

theorem kept_reroute (h : Kept a s) : Kept a (State.reroute s) := by
  unfold State.reroute
  repeat' first
    | with_reducible (exact Kept.refl _) | with_reducible (assumption) | simp only [Kept.lit] | with_reducible (apply kept_addOut) | with_reducible (apply kept_addIn)
    | with_reducible (apply kept_failPacket) | with_reducible (apply Kept.each) | (intro) | (split)

theorem kept_strand {x0 : Nat} (h : Kept a s) : Kept a (State.strand s x0) := by
  unfold State.strand
  repeat' first
    | with_reducible (exact Kept.refl _) | with_reducible (assumption) | simp only [Kept.lit] | with_reducible (apply kept_waitEnds) | with_reducible (apply Kept.each)
    | (intro) | (split)

/-! ## Recorder -/

theorem kept_lost {x0 : Nat} (h : Kept a s) : Kept a (State.lost s x0) := kept_inc h

theorem kept_enqueue {x0 n : Nat} {x2 : List StageItem} {x3 : EvRec} (h : Kept a s) : Kept a (State.enqueue s x0 n x2 x3).1 := by
  induction n generalizing s x2 with
  | zero => exact kept_lost h
  | succ n ih =>
    unfold State.enqueue
    split
    · exact h
    · split
      · exact kept_lost h
      · exact ih (kept_lost h)

theorem kept_modLog {x0 : Nat} {x1 : Nat} {x2 : EvRec → EvRec} (h : Kept a s) : Kept a (State.modLog s x0 x1 x2) := by
  unfold State.modLog
  repeat' first
    | with_reducible (exact Kept.refl _) | with_reducible (assumption) | simp only [Kept.lit] | (intro) | (split)

theorem kept_record {x0 : BitVec 8} {x1 : Nat} {x2 : Nat} {x3 : Nat} {x4 : List (BitVec 8)} (h : Kept a s) : Kept a (State.record s x0 x1 x2 x3 x4) := by
  unfold State.record
  repeat' first
    | with_reducible (exact Kept.refl _) | with_reducible (assumption) | simp only [Kept.lit] | with_reducible (apply kept_inc) | with_reducible (apply kept_enqueue)
    | with_reducible (apply kept_modLog) | with_reducible (refine Kept.snd_of_eq (by assumption) ?_) | with_reducible (refine Kept.fst_of_eq (by assumption) ?_)
    | with_reducible (refine Kept.fst_of_eq3 (by assumption) ?_) | with_reducible (refine Kept.snd_of_eq3 (by assumption) ?_) | (intro) | (split)

theorem kept_event {x0 : Nat} {x1 : Nat} {x2 : Nat} {x3 : Nat} {x4 : Nat} (h : Kept a s) : Kept a (State.event s x0 x1 x2 x3 x4) := by
  unfold State.event
  repeat' first
    | with_reducible (exact Kept.refl _) | with_reducible (assumption) | simp only [Kept.lit] | with_reducible (apply kept_record)

theorem kept_recorderRec {x0 : Nat} (h : Kept a s) : Kept a (State.recorderRec s x0) := by
  unfold State.recorderRec
  repeat' first
    | with_reducible (exact Kept.refl _) | with_reducible (assumption) | simp only [Kept.lit] | with_reducible (apply kept_record) | (intro) | (split)

theorem kept_setPage {x0 : Nat} {x1 : LogPage} (h : Kept a s) : Kept a (State.setPage s x0 x1) := by
  unfold State.setPage; simp only [Kept.lit]; exact h

theorem kept_openPage {sev : Nat} {t : State} {i : Nat} (e : State.openPage s sev = some (t, i)) (h : Kept a s) : Kept a t := by
  have hm : ∀ (u : State) (q : SettSt), Kept a u → Kept a { u with sett := q } := fun u q h => h.of_eq rfl rfl rfl rfl rfl rfl
  unfold State.openPage at e
  dsimp only at e
  split at e
  · cases e; exact kept_setPage (hm _ _ h)
  · split at e
    · cases e; exact kept_setPage (hm _ _ (Kept.each h fun _ _ _ => kept_inc))
    · cases e

theorem kept_logAppend {x0 : EvRec} (h : Kept a s) : Kept a (State.logAppend s x0) := by
  unfold State.logAppend
  repeat' first
    | with_reducible (exact Kept.refl _) | with_reducible (assumption) | simp only [Kept.lit] | with_reducible (apply kept_setPage)
    | with_reducible (refine kept_openPage (by assumption) ?_) | with_reducible (apply kept_lost) | with_reducible (refine Kept.snd_of_eq (by assumption) ?_)
    | with_reducible (refine Kept.fst_of_eq (by assumption) ?_) | with_reducible (refine Kept.fst_of_eq3 (by assumption) ?_)
    | with_reducible (refine Kept.snd_of_eq3 (by assumption) ?_) | (intro) | (split)

theorem kept_logUpdate {x0 : EvRec} (h : Kept a s) : Kept a (State.logUpdate s x0) := by
  unfold State.logUpdate
  repeat' first
    | with_reducible (exact Kept.refl _) | with_reducible (assumption) | simp only [Kept.lit] | (intro) | (split)

theorem kept_logItem {x0 : StageItem} (h : Kept a s) : Kept a (State.logItem s x0) := by
  unfold State.logItem
  repeat' first
    | with_reducible (exact Kept.refl _) | with_reducible (assumption) | simp only [Kept.lit] | with_reducible (apply kept_logAppend)
    | with_reducible (apply kept_logUpdate) | (intro) | (split)

theorem kept_drainStaging (h : Kept a s) : Kept a (State.drainStaging s) := by
  unfold State.drainStaging
  repeat' first
    | with_reducible (exact Kept.refl _) | with_reducible (assumption) | simp only [Kept.lit] | with_reducible (apply kept_logItem) | with_reducible (apply Kept.each)
    | (intro) | (split)

theorem kept_saveCounters (h : Kept a s) : Kept a (State.saveCounters s) := by
  unfold State.saveCounters
  repeat' first
    | with_reducible (exact Kept.refl _) | with_reducible (assumption) | simp only [Kept.lit] | (intro) | (split)

theorem kept_loadCounters (h : Kept a s) : Kept a (State.loadCounters s) := by
  unfold State.loadCounters
  repeat' first
    | with_reducible (exact Kept.refl _) | with_reducible (assumption) | simp only [Kept.lit] | with_reducible (apply kept_set) | with_reducible (apply kept_setPair)
    | with_reducible (apply kept_sets) | with_reducible (apply Kept.each) | (intro) | (split)

theorem kept_flushSett (h : Kept a s) : Kept a (State.flushSett s) := by
  unfold State.flushSett
  repeat' first
    | with_reducible (exact Kept.refl _) | with_reducible (assumption) | simp only [Kept.lit] | with_reducible (apply kept_saveCounters)
    | with_reducible (apply kept_drainStaging) | (intro) | (split)

/-! ## Faults -/

theorem kept_setRec {x0 : Nat} {x1 : FltRec} (h : Kept a s) : Kept a (State.setRec s x0 x1) := by
  unfold State.setRec
  repeat' first
    | with_reducible (exact Kept.refl _) | with_reducible (assumption) | simp only [Kept.lit]

theorem kept_sendAlarms {x0 : Nat} {x1 : Nat} (h : Kept a s) : Kept a (State.sendAlarms s x0 x1) := by
  unfold State.sendAlarms
  repeat' first
    | with_reducible (exact Kept.refl _) | with_reducible (assumption) | simp only [Kept.lit] | with_reducible (apply kept_inc) | with_reducible (apply kept_emit)
    | with_reducible (apply Kept.each) | (intro) | (split)

theorem kept_alarm {x0 : Nat} (h : Kept a s) : Kept a (State.alarm s x0) := by
  unfold State.alarm
  repeat' first
    | with_reducible (exact Kept.refl _) | with_reducible (assumption) | simp only [Kept.lit] | with_reducible (apply kept_sendAlarms) | with_reducible (apply kept_inc)
    | (intro) | (split)

theorem kept_faultRec {x0 : Nat} (h : Kept a s) : Kept a (State.faultRec s x0) := by
  unfold State.faultRec
  repeat' first
    | with_reducible (exact Kept.refl _) | with_reducible (assumption) | simp only [Kept.lit] | with_reducible (apply kept_record) | (intro) | (split)

theorem kept_recChanged {x0 : Nat} (h : Kept a s) : Kept a (State.recChanged s x0) := by
  unfold State.recChanged
  repeat' first
    | with_reducible (exact Kept.refl _) | with_reducible (assumption) | simp only [Kept.lit] | with_reducible (apply kept_faultRec) | with_reducible (apply kept_alarm)

theorem kept_fltMerge {x0 : Nat} {x1 : Nat} {x2 : FltClass} {x3 : Nat} {x4 : Bool} (h : Kept a s) : Kept a (State.fltMerge s x0 x1 x2 x3 x4) := by
  unfold State.fltMerge
  repeat' first
    | with_reducible (exact Kept.refl _) | with_reducible (assumption) | simp only [Kept.lit] | with_reducible (apply kept_setRec) | with_reducible (apply kept_incPair)
    | with_reducible (apply kept_inc) | (intro) | (split)

theorem kept_raiseRec {x0 : FltCause} {x1 : Nat} {x2 : Nat} {x3 : Bool} (h : Kept a s) : Kept a (State.raiseRec s x0 x1 x2 x3) := by
  unfold State.raiseRec
  repeat' first
    | with_reducible (exact Kept.refl _) | with_reducible (assumption) | simp only [Kept.lit] | with_reducible (apply kept_fltMerge)
    | with_reducible (apply kept_recChanged) | (intro) | (split)

/-! ## Memory -/

theorem kept_draw {n : Nat} (h : Kept a s) : Kept a (s.draw n).2 :=
  h.trans ⟨rfl, rfl, Nat.le_succ _, fun hw => by simpa [State.wf, State.draw] using hw⟩

theorem kept_setGroupSt {x0 : Nat} {x1 : Nat} (h : Kept a s) : Kept a (State.setGroupSt s x0 x1) := by
  unfold State.setGroupSt
  repeat' first
    | with_reducible (exact Kept.refl _) | with_reducible (assumption) | simp only [Kept.lit] | with_reducible (apply kept_set) | (intro) | (split)

theorem kept_dramRead {x0 : Nat} {x1 : Nat} (h : Kept a s) : Kept a (State.dramRead s x0 x1).2 := by
  unfold State.dramRead
  repeat' first
    | with_reducible (exact Kept.refl _) | with_reducible (assumption) | simp only [Kept.lit] | with_reducible (apply kept_draw)
    | with_reducible (refine Kept.snd_of_eq (by assumption) ?_) | with_reducible (refine Kept.fst_of_eq (by assumption) ?_)
    | with_reducible (refine Kept.fst_of_eq3 (by assumption) ?_) | with_reducible (refine Kept.snd_of_eq3 (by assumption) ?_) | (intro) | (split)

theorem foldl_mput_wf {α : Type} {k : α → Nat} {v : α → BitVec 8} (l : List α) {m : List (Nat × BitVec 8)} (hm : Memory.wf m = true) :
    Memory.wf (l.foldl (fun m i => mput (k i) (v i) m) m) = true := by
  induction l generalizing m with
  | nil => exact hm
  | cons i l ih => exact ih (rising_mput hm _ _)

theorem kept_withDram {m : List (Nat × BitVec 8)} (hm : Memory.wf s.chan.dram = true → Memory.wf m = true) (h : Kept a s) :
    Kept a { s with chan := { s.chan with dram := m } } := h.dram rfl rfl rfl rfl hm rfl

theorem kept_dramWrite {c b : Nat} {x : List (BitVec 8)} (h : Kept a s) : Kept a (s.dramWrite c b x) := by
  unfold State.dramWrite
  generalize hl : List.range 72 = l
  clear hl
  with_reducible apply kept_withDram _ h
  intro hm
  with_reducible apply foldl_mput_wf l hm

theorem kept_dramForget {c lo : Nat} (h : Kept a s) : Kept a (s.dramForget c lo) :=
  h.dram rfl rfl rfl rfl (fun hm => rising_filter hm _) rfl

theorem kept_activateRow {x0 : Nat} {x1 : Nat} {x2 : Nat} (h : Kept a s) : Kept a (State.activateRow s x0 x1 x2) := by
  unfold State.activateRow
  repeat' first
    | with_reducible (exact Kept.refl _) | with_reducible (assumption) | simp only [Kept.lit] | with_reducible (apply kept_draw) | with_reducible (apply kept_setChn)
    | with_reducible (apply kept_incBy) | with_reducible (apply kept_incPair) | with_reducible (refine Kept.snd_of_eq (by assumption) ?_)
    | with_reducible (refine Kept.fst_of_eq (by assumption) ?_) | with_reducible (refine Kept.fst_of_eq3 (by assumption) ?_)
    | with_reducible (refine Kept.snd_of_eq3 (by assumption) ?_) | (intro) | (split)

theorem kept_useRow {x0 : Nat} {x1 : Nat} (h : Kept a s) : Kept a (State.useRow s x0 x1) := by
  unfold State.useRow
  repeat' first
    | with_reducible (exact Kept.refl _) | with_reducible (assumption) | simp only [Kept.lit] | with_reducible (apply kept_activateRow) | (intro) | (split)
    | with_reducible (apply Kept.drawn)

theorem kept_blockWrite {x0 : Nat} {x1 : Nat} {x2 : List (BitVec 8)} {x3 : Bool} (h : Kept a s) : Kept a (State.blockWrite s x0 x1 x2 x3) := by
  unfold State.blockWrite
  repeat' first
    | with_reducible (exact Kept.refl _) | with_reducible (assumption) | simp only [Kept.lit] | with_reducible (apply kept_useRow)
    | with_reducible (apply kept_dramWrite) | with_reducible (apply kept_incPair) | with_reducible (apply kept_inc) | (intro) | (split)

theorem kept_blockFetch {x0 : Nat} {x1 : Nat} (h : Kept a s) : Kept a (State.blockFetch s x0 x1).2 := by
  unfold State.blockFetch
  repeat' first
    | with_reducible (exact Kept.refl _) | with_reducible (assumption) | simp only [Kept.lit] | with_reducible (apply kept_useRow) | with_reducible (apply kept_dramRead)
    | with_reducible (apply kept_incPair) | with_reducible (refine Kept.snd_of_eq (by assumption) ?_) | with_reducible (refine Kept.fst_of_eq (by assumption) ?_)
    | with_reducible (refine Kept.fst_of_eq3 (by assumption) ?_) | with_reducible (refine Kept.snd_of_eq3 (by assumption) ?_) | (intro) | (split)

theorem kept_stripeXor {x0 : Nat} {x1 : Nat} (h : Kept a s) : Kept a (State.stripeXor s x0 x1).2 := by
  unfold State.stripeXor
  repeat' first
    | with_reducible (exact Kept.refl _) | with_reducible (assumption) | simp only [Kept.lit] | with_reducible (apply kept_blockFetch)
    | with_reducible (refine Kept.snd_of_eq (by assumption) ?_) | with_reducible (refine Kept.fst_of_eq (by assumption) ?_)
    | with_reducible (refine Kept.fst_of_eq3 (by assumption) ?_) | with_reducible (refine Kept.snd_of_eq3 (by assumption) ?_) | (intro) | (split)
    | with_reducible (apply Kept.foldl) | with_reducible (apply Kept.foldl_snd) | with_reducible (apply Kept.foldl_fst)

theorem kept_logError {x0 : LogRegs} {x1 : Nat} {x2 : Bool} (h : Kept a s) : Kept a (State.logError s x0 x1 x2) := by
  unfold State.logError
  repeat' first
    | with_reducible (exact Kept.refl _) | with_reducible (assumption) | simp only [Kept.lit] | with_reducible (apply kept_sets) | with_reducible (apply kept_set)
    | with_reducible (apply kept_inc) | with_reducible (apply kept_lost) | (intro) | (split)

theorem kept_setLine {l : Nat} {x : Line} (h : Kept a s) : Kept a (s.setLine l x) :=
  h.lines rfl rfl rfl rfl rfl fun hm => rising_mput hm _ _

theorem kept_dropLine {l : Nat} (h : Kept a s) : Kept a (s.dropLine l) :=
  h.lines rfl rfl rfl rfl rfl fun hm => rising_merase hm _

theorem kept_emptyCache (h : Kept a s) : Kept a (State.emptyCache s) := by
  unfold State.emptyCache
  repeat' first
    | with_reducible (exact Kept.refl _) | with_reducible (assumption) | simp only [Kept.lit] | with_reducible (exact id) | (exact fun _ => rfl)
    | (exact fun hm => rising_filter hm _) | (exact fun hm => rising_map hm _ fun _ => rfl) | (exact fun hm => rising_map (rising_filter hm _) _ fun _ => rfl)
    | with_reducible (refine Kept.lit_maps ?_ ?_ ?_)

theorem kept_touch {x0 : Nat} {x1 : Nat} (h : Kept a s) : Kept a (State.touch s x0 x1) := by
  unfold State.touch
  repeat' first
    | with_reducible (exact Kept.refl _) | with_reducible (assumption) | simp only [Kept.lit] | (intro) | (split)

end Sys2Proof.Laws
end

