-- ==== Sys2Proof/Laws/KeptLinks.lean ====
section
/-! SUPPORT. What the operations of the links, the Marl and the rings keep (`Kept`): one lemma for each. -/

namespace Sys2Proof.Laws

set_option Elab.async false

set_option linter.all false

open Sys2Proof Sys2Proof.Machine

variable {a s : State}

/-! ## Links -/

theorem kept_sendBlock {x0 : Nat} {x1 : Nat} {x2 : Nat} (h : Kept a s) : Kept a (State.sendBlock s x0 x1 x2) := by
  unfold State.sendBlock
  repeat' first
    | with_reducible (exact Kept.refl _) | with_reducible (assumption) | simp only [Kept.lit] | with_reducible (apply kept_setLane) | (intro) | (split)

theorem kept_sendBlocks {x0 : Nat} {x1 : Nat} (h : Kept a s) : Kept a (State.sendBlocks s x0 x1) := by
  unfold State.sendBlocks
  repeat' first
    | with_reducible (exact Kept.refl _) | with_reducible (assumption) | simp only [Kept.lit] | with_reducible (apply kept_sendBlock) | with_reducible (apply Kept.each)
    | (intro) | (split)

theorem kept_sendMarkers {x0 : Nat} {x1 : Nat} {x2 : Nat} {x3 : Nat} (h : Kept a s) : Kept a (State.sendMarkers s x0 x1 x2 x3) := by
  unfold State.sendMarkers
  repeat' first
    | with_reducible (exact Kept.refl _) | with_reducible (assumption) | simp only [Kept.lit] | with_reducible (apply kept_setLane) | with_reducible (apply Kept.each)
    | (intro) | (split)

theorem kept_laneRestart {x0 : Nat} (h : Kept a s) : Kept a (State.laneRestart s x0) := by
  unfold State.laneRestart
  repeat' first
    | with_reducible (exact Kept.refl _) | with_reducible (assumption) | simp only [Kept.lit] | with_reducible (apply kept_setLane) | with_reducible (apply kept_sets)
    | (intro) | (split)

theorem kept_laneOff {x0 : Nat} (h : Kept a s) : Kept a (State.laneOff s x0) := by
  unfold State.laneOff
  repeat' first
    | with_reducible (exact Kept.refl _) | with_reducible (assumption) | simp only [Kept.lit] | with_reducible (apply kept_setLane) | with_reducible (apply kept_sets)
    | (intro) | (split)

theorem kept_startLink {x0 : Nat} {x1 : Nat} (h : Kept a s) : Kept a (State.startLink s x0 x1) := by
  unfold State.startLink
  repeat' first
    | with_reducible (exact Kept.refl _) | with_reducible (assumption) | simp only [Kept.lit] | with_reducible (apply kept_laneRestart)
    | with_reducible (apply kept_setLane) | with_reducible (apply kept_setLink) | with_reducible (apply kept_sets) | with_reducible (apply kept_sendBlocks)
    | with_reducible (apply Kept.each) | (intro) | (split)

theorem kept_linkLayerDown {x0 : Nat} {x1 : Nat} (h : Kept a s) : Kept a (State.linkLayerDown s x0 x1) := by
  unfold State.linkLayerDown
  repeat' first
    | with_reducible (exact Kept.refl _) | with_reducible (assumption) | simp only [Kept.lit] | with_reducible (apply kept_incBy) | with_reducible (apply kept_setLink)
    | (intro) | (split)

theorem kept_linkDown {x0 : Nat} {x1 : Nat} {x2 : Nat} (h : Kept a s) : Kept a (State.linkDown s x0 x1 x2) := by
  unfold State.linkDown
  repeat' first
    | with_reducible (exact Kept.refl _) | with_reducible (assumption) | simp only [Kept.lit] | with_reducible (apply kept_linkLayerDown)
    | with_reducible (apply kept_inc) | with_reducible (apply kept_set) | with_reducible (apply kept_startLink) | with_reducible (apply kept_laneRestart)
    | with_reducible (apply kept_setLane) | with_reducible (apply kept_setLink) | with_reducible (apply kept_sets) | with_reducible (apply kept_strand)
    | with_reducible (apply Kept.each) | with_reducible (apply Kept.when) | (intro) | (split)

theorem kept_checkPort {x0 : Nat} (h : Kept a s) : Kept a (State.checkPort s x0) := by
  unfold State.checkPort
  repeat' first
    | with_reducible (exact Kept.refl _) | with_reducible (assumption) | simp only [Kept.lit] | with_reducible (apply kept_startLink) | with_reducible (apply kept_set)
    | with_reducible (apply kept_linkDown) | with_reducible (apply Kept.each) | (intro) | (split)

theorem kept_closePair {x0 : Nat} (h : Kept a s) : Kept a (State.closePair s x0) := by
  unfold State.closePair
  repeat' first
    | with_reducible (exact Kept.refl _) | with_reducible (assumption) | simp only [Kept.lit] | with_reducible (apply kept_sets) | with_reducible (apply kept_inc)
    | with_reducible (apply kept_checkPort) | (intro) | (split)

theorem kept_closePairs (h : Kept a s) : Kept a (State.closePairs s) := by
  unfold State.closePairs
  repeat' first
    | with_reducible (exact Kept.refl _) | with_reducible (assumption) | simp only [Kept.lit] | with_reducible (apply kept_closePair) | with_reducible (apply Kept.each)
    | (intro) | (split)

theorem kept_openPair {x0 : Nat} (h : Kept a s) : Kept a (State.openPair s x0) := by
  unfold State.openPair
  repeat' first
    | with_reducible (exact Kept.refl _) | with_reducible (assumption) | simp only [Kept.lit] | with_reducible (apply kept_sets) | with_reducible (apply kept_checkPort)
    | (intro) | (split)

theorem kept_retrain {x0 : Nat} {x1 : Nat} (h : Kept a s) : Kept a (State.retrain s x0 x1) := by
  unfold State.retrain
  repeat' first
    | with_reducible (exact Kept.refl _) | with_reducible (assumption) | simp only [Kept.lit] | with_reducible (apply kept_set) | with_reducible (apply kept_setLane)
    | with_reducible (apply kept_setLink) | with_reducible (apply kept_inc) | with_reducible (apply kept_sendBlocks) | with_reducible (apply Kept.each) | (intro)
    | (split)

theorem kept_dropLane {x0 : Nat} {x1 : Nat} {x2 : Nat} (h : Kept a s) : Kept a (State.dropLane s x0 x1 x2) := by
  unfold State.dropLane
  repeat' first
    | with_reducible (exact Kept.refl _) | with_reducible (assumption) | simp only [Kept.lit] | with_reducible (apply kept_setLink) | with_reducible (apply kept_set)
    | with_reducible (apply kept_setLane) | (intro) | (split)

theorem kept_laneFail {x0 : Nat} (h : Kept a s) : Kept a (State.laneFail s x0) := by
  unfold State.laneFail
  repeat' first
    | with_reducible (exact Kept.refl _) | with_reducible (assumption) | simp only [Kept.lit] | with_reducible (apply kept_dropLane)
    | with_reducible (apply kept_retrain) | (intro) | (split)

theorem kept_linkIdle {x0 : Nat} {x1 : Nat} (h : Kept a s) : Kept a (State.linkIdle s x0 x1) := by
  unfold State.linkIdle
  repeat' first
    | with_reducible (exact Kept.refl _) | with_reducible (assumption) | simp only [Kept.lit] | with_reducible (apply kept_sendMarkers)
    | with_reducible (apply kept_setLane) | with_reducible (apply kept_set) | with_reducible (apply Kept.each) | (intro) | (split)

theorem kept_sendAm {x0 : Nat} {x1 : Nat} (h : Kept a s) : Kept a (State.sendAm s x0 x1) := by
  unfold State.sendAm
  repeat' first
    | with_reducible (exact Kept.refl _) | with_reducible (assumption) | simp only [Kept.lit] | with_reducible (apply kept_setLane) | with_reducible (apply Kept.each)
    | (intro) | (split)

theorem kept_putFlit {x0 : Nat} {x1 : Nat} {x2 : List (BitVec 8)} (h : Kept a s) : Kept a (State.putFlit s x0 x1 x2) := by
  unfold State.putFlit
  repeat' first
    | with_reducible (exact Kept.refl _) | with_reducible (assumption) | simp only [Kept.lit] | with_reducible (apply kept_setLane) | with_reducible (apply kept_setLink)
    | with_reducible (apply Kept.each) | (intro) | (split) | with_reducible (apply Kept.foldl) | with_reducible (apply Kept.foldl_snd)
    | with_reducible (apply Kept.foldl_fst)

theorem kept_sendLcf {x0 : Nat} {x1 : Nat} (h : Kept a s) : Kept a (State.sendLcf s x0 x1) := by
  unfold State.sendLcf
  repeat' first
    | with_reducible (exact Kept.refl _) | with_reducible (assumption) | simp only [Kept.lit] | with_reducible (apply kept_setLink) | with_reducible (apply kept_putFlit)
    | (intro) | (split)

theorem kept_sendPacketFlit {x0 : Nat} {x1 : Nat} {x2 : BitVec 12} {x3 : List (BitVec 8)} (h : Kept a s) : Kept a (State.sendPacketFlit s x0 x1 x2 x3) := by
  unfold State.sendPacketFlit
  repeat' first
    | with_reducible (exact Kept.refl _) | with_reducible (assumption) | simp only [Kept.lit] | with_reducible (apply kept_incPair) | with_reducible (apply kept_putFlit)
    | (intro) | (split)

theorem kept_enterL0 {x0 : Nat} {x1 : Nat} (h : Kept a s) : Kept a (State.enterL0 s x0 x1) := by
  unfold State.enterL0
  repeat' first
    | with_reducible (exact Kept.refl _) | with_reducible (assumption) | simp only [Kept.lit] | with_reducible (apply kept_set) | with_reducible (apply kept_setLink)
    | with_reducible (apply kept_setLane) | with_reducible (apply kept_sendAm) | with_reducible (apply kept_reroute) | with_reducible (apply Kept.each) | (intro)
    | (split)

theorem kept_raiseNak {x0 : Nat} {x1 : Nat} (h : Kept a s) : Kept a (State.raiseNak s x0 x1) := by
  unfold State.raiseNak
  repeat' first
    | with_reducible (exact Kept.refl _) | with_reducible (assumption) | simp only [Kept.lit] | with_reducible (apply kept_inc) | with_reducible (apply kept_setLink)
    | with_reducible (apply kept_retrain) | (intro) | (split)

theorem kept_onLcf {x0 : Nat} {x1 : Nat} {x2 : List (BitVec 8)} (h : Kept a s) : Kept a (State.onLcf s x0 x1 x2) := by
  unfold State.onLcf
  repeat' first
    | with_reducible (exact Kept.refl _) | with_reducible (assumption) | simp only [Kept.lit] | with_reducible (apply kept_inc) | with_reducible (apply kept_setLink)
    | with_reducible (apply Kept.when) | (intro) | (split)

theorem kept_arrive {x0 : Nat} {x1 : Nat} {x2 : Packet} (h : Kept a s) : Kept a (State.arrive s x0 x1 x2) := by
  unfold State.arrive
  repeat' first
    | with_reducible (exact Kept.refl _) | with_reducible (assumption) | simp only [Kept.lit] | with_reducible (apply kept_inc) | with_reducible (apply kept_setLink)
    | with_reducible (apply kept_set) | with_reducible (apply kept_addOut) | with_reducible (apply kept_addIn) | with_reducible (apply kept_activity)
    | with_reducible (apply kept_tryMove) | (intro) | (split)

theorem kept_acceptFlit {x0 : Nat} {x1 : Nat} {x2 : List (BitVec 8)} (h : Kept a s) : Kept a (State.acceptFlit s x0 x1 x2) := by
  unfold State.acceptFlit
  repeat' first
    | with_reducible (exact Kept.refl _) | with_reducible (assumption) | simp only [Kept.lit] | with_reducible (apply kept_incPair) | with_reducible (apply kept_setLink)
    | with_reducible (apply kept_arrive) | (intro) | (split)

theorem kept_sendNext {x0 : Nat} {x1 : Nat} (h : Kept a s) : Kept a (State.sendNext s x0 x1) := by
  unfold State.sendNext
  repeat' first
    | with_reducible (exact Kept.refl _) | with_reducible (assumption) | simp only [Kept.lit] | with_reducible (apply kept_setLink)
    | with_reducible (apply kept_sendPacketFlit) | (intro) | (split)

theorem kept_startPacket {x0 : Nat} {x1 : Nat} {x2 : Nat} {x3 : OutPkt} (h : Kept a s) : Kept a (State.startPacket s x0 x1 x2 x3) := by
  unfold State.startPacket
  repeat' first
    | with_reducible (exact Kept.refl _) | with_reducible (assumption) | simp only [Kept.lit] | with_reducible (apply kept_set) | with_reducible (apply kept_setLink)
    | with_reducible (apply kept_sendNext) | (intro) | (split)

/-! ## Serve -/

theorem kept_fillBuckets (h : Kept a s) : Kept a (State.fillBuckets s) := by
  unfold State.fillBuckets
  repeat' first
    | with_reducible (exact Kept.refl _) | with_reducible (assumption) | simp only [Kept.lit] | (intro) | (split)

theorem kept_chargeBedrock {x0 : Nat} (h : Kept a s) : Kept a (State.chargeBedrock s x0) := by
  unfold State.chargeBedrock
  repeat' first
    | with_reducible (exact Kept.refl _) | with_reducible (assumption) | simp only [Kept.lit] | with_reducible (apply kept_fillBuckets) | with_reducible (apply kept_inc)
    | (intro) | (split)

theorem kept_countBytes {x0 : Nat} {x1 : Nat} {x2 : Nat} {x3 : Nat} (h : Kept a s) : Kept a (State.countBytes s x0 x1 x2 x3) := by
  unfold State.countBytes
  repeat' first
    | with_reducible (exact Kept.refl _) | with_reducible (assumption) | simp only [Kept.lit] | with_reducible (apply kept_incPair) | (intro) | (split)

theorem kept_blockPerformed {x0 : Nat} {x1 : Nat} {x2 : Nat} (h : Kept a s) : Kept a (State.blockPerformed s x0 x1 x2) := by
  unfold State.blockPerformed
  repeat' first
    | with_reducible (exact Kept.refl _) | with_reducible (assumption) | simp only [Kept.lit] | with_reducible (apply kept_countBytes)
    | with_reducible (apply kept_chargeBedrock) | with_reducible (apply Kept.when) | (intro) | (split)

theorem kept_injCheck {x0 : Nat} {x1 : Nat} (h : Kept a s) : Kept a (State.injCheck s x0 x1).2 := by
  unfold State.injCheck
  repeat' first
    | with_reducible (exact Kept.refl _) | with_reducible (assumption) | simp only [Kept.lit] | with_reducible (apply kept_inc) | with_reducible (apply kept_set)
    | (intro) | (split)

theorem kept_askRead {x0 : Nat} {x1 : Nat} {x2 : RdUse} {x3 : Nat} {x4 : Nat} {x5 : Bool} (h : Kept a s) : Kept a (State.askRead s x0 x1 x2 x3 x4 x5) := by
  unfold State.askRead
  repeat' first
    | with_reducible (exact Kept.refl _) | with_reducible (assumption) | simp only [Kept.lit] | with_reducible (apply kept_setChn) | (intro) | (split)

theorem kept_marlUe {x0 : Nat} {x1 : Bool} (h : Kept a s) : Kept a (State.marlUe s x0 x1) := by
  unfold State.marlUe
  repeat' first
    | with_reducible (exact Kept.refl _) | with_reducible (assumption) | simp only [Kept.lit] | with_reducible (apply kept_inc) | with_reducible (apply kept_logError)
    | with_reducible (apply kept_raiseRec)

theorem kept_noteMarlFix {x0 : Nat} {x1 : Nat} (h : Kept a s) : Kept a (State.noteMarlFix s x0 x1) := by
  unfold State.noteMarlFix
  repeat' first
    | with_reducible (exact Kept.refl _) | with_reducible (assumption) | simp only [Kept.lit] | (intro) | (split)

theorem kept_decodeLine {x0 : Nat} {x1 : Line} (h : Kept a s) : Kept a (State.decodeLine s x0 x1).2 := by
  unfold State.decodeLine
  repeat' first
    | with_reducible (exact Kept.refl _) | with_reducible (assumption) | simp only [Kept.lit] | with_reducible (apply kept_inc) | with_reducible (apply kept_logError)
    | with_reducible (apply kept_noteMarlFix) | with_reducible (apply kept_marlUe) | with_reducible (apply kept_dropLine) | with_reducible (apply kept_setLine) | (intro)
    | (split)

theorem kept_readLine {x0 : Nat} (h : Kept a s) : Kept a (State.readLine s x0).2 := by
  unfold State.readLine
  repeat' first
    | with_reducible (exact Kept.refl _) | with_reducible (assumption) | simp only [Kept.lit] | with_reducible (apply kept_injCheck) | with_reducible (apply kept_marlUe)
    | with_reducible (apply kept_inc) | with_reducible (apply kept_logError) | with_reducible (apply kept_decodeLine)
    | with_reducible (refine Kept.snd_of_eq (by assumption) ?_) | with_reducible (refine Kept.fst_of_eq (by assumption) ?_)
    | with_reducible (refine Kept.fst_of_eq3 (by assumption) ?_) | with_reducible (refine Kept.snd_of_eq3 (by assumption) ?_) | (intro) | (split)

theorem kept_queueWb {x0 : Nat} {x1 : Nat} {x2 : Nat} (h : Kept a s) : Kept a (State.queueWb s x0 x1 x2) := by
  unfold State.queueWb
  repeat' first
    | with_reducible (exact Kept.refl _) | with_reducible (assumption) | simp only [Kept.lit] | with_reducible (apply kept_decodeLine)
    | with_reducible (apply kept_setLine) | with_reducible (apply kept_setChn) | with_reducible (refine Kept.snd_of_eq (by assumption) ?_)
    | with_reducible (refine Kept.fst_of_eq (by assumption) ?_) | with_reducible (refine Kept.fst_of_eq3 (by assumption) ?_)
    | with_reducible (refine Kept.snd_of_eq3 (by assumption) ?_) | (intro) | (split)

theorem kept_holdWay {x0 : Nat} {x1 : Nat} (h : Kept a s) : Kept a (State.holdWay s x0 x1) := by
  unfold State.holdWay
  repeat' first
    | with_reducible (exact Kept.refl _) | with_reducible (assumption) | simp only [Kept.lit]

theorem kept_freeWay {x0 : Nat} (h : Kept a s) : Kept a (State.freeWay s x0) := by
  unfold State.freeWay
  repeat' first
    | with_reducible (exact Kept.refl _) | with_reducible (assumption) | simp only [Kept.lit]

theorem kept_takeWay {x0 : Nat} {x1 : Nat} {x2 : Nat} (h : Kept a s) : Kept a (State.takeWay s x0 x1 x2).2 := by
  unfold State.takeWay
  repeat' first
    | with_reducible (exact Kept.refl _) | with_reducible (assumption) | simp only [Kept.lit] | with_reducible (apply kept_set) | with_reducible (apply kept_dropLine)
    | with_reducible (apply kept_queueWb) | (intro) | (split)

theorem kept_markGranule {x0 : Nat} (h : Kept a s) : Kept a (State.markGranule s x0) := by
  unfold State.markGranule
  repeat' first
    | with_reducible (exact Kept.refl _) | with_reducible (assumption) | simp only [Kept.lit] | (intro) | (split)

theorem kept_writeLine {x0 : Nat} {x1 : Nat} {x2 : Option Line} {x3 : List (BitVec 8)} {x4 : Bool} (h : Kept a s) : Kept a (State.writeLine s x0 x1 x2 x3 x4) := by
  unfold State.writeLine
  repeat' first
    | with_reducible (exact Kept.refl _) | with_reducible (assumption) | simp only [Kept.lit] | with_reducible (apply kept_setLine) | with_reducible (apply kept_touch)
    | with_reducible (apply kept_markGranule) | with_reducible (apply kept_queueWb) | (intro) | (split)

theorem kept_modTxn {x0 : Nat} {x1 : Txn → Txn} (h : Kept a s) : Kept a (State.modTxn s x0 x1) := by
  unfold State.modTxn
  repeat' first
    | with_reducible (exact Kept.refl _) | with_reducible (assumption) | simp only [Kept.lit] | (intro) | (split)

theorem kept_blockDone {x0 : Nat} {x1 : Nat} {x2 : Option (List (BitVec 8))} {x3 : Bool} (h : Kept a s) : Kept a (State.blockDone s x0 x1 x2 x3) := by
  unfold State.blockDone
  repeat' first
    | with_reducible (exact Kept.refl _) | with_reducible (assumption) | simp only [Kept.lit] | with_reducible (apply kept_modTxn) | (intro) | (split)

theorem kept_txnFenced {x0 : Nat} {x1 : Nat} (h : Kept a s) : Kept a (State.txnFenced s x0 x1) := by
  unfold State.txnFenced
  repeat' first
    | with_reducible (exact Kept.refl _) | with_reducible (assumption) | simp only [Kept.lit] | with_reducible (apply kept_modTxn) | with_reducible (apply kept_inc)
    | (intro) | (split)

theorem kept_noteMiss {x0 : Txn} {x1 : Nat} (h : Kept a s) : Kept a (State.noteMiss s x0 x1) := by
  unfold State.noteMiss
  repeat' first
    | with_reducible (exact Kept.refl _) | with_reducible (assumption) | simp only [Kept.lit] | with_reducible (apply kept_incPair) | with_reducible (apply kept_modTxn)
    | (intro) | (split)

theorem kept_raiseMiss {x0 : Txn} {x1 : Nat} (h : Kept a s) : Kept a (State.raiseMiss s x0 x1) := by
  unfold State.raiseMiss
  repeat' first
    | with_reducible (exact Kept.refl _) | with_reducible (assumption) | simp only [Kept.lit] | with_reducible (apply kept_txnFenced)
    | with_reducible (apply kept_noteMiss) | with_reducible (apply kept_takeWay) | with_reducible (apply kept_holdWay) | with_reducible (apply kept_askRead)
    | with_reducible (refine Kept.snd_of_eq (by assumption) ?_) | with_reducible (refine Kept.fst_of_eq (by assumption) ?_)
    | with_reducible (refine Kept.fst_of_eq3 (by assumption) ?_) | with_reducible (refine Kept.snd_of_eq3 (by assumption) ?_) | (intro) | (split)

theorem kept_countHit {x0 : Txn} {x1 : Nat} (h : Kept a s) : Kept a (State.countHit s x0 x1) := by
  unfold State.countHit
  repeat' first
    | with_reducible (exact Kept.refl _) | with_reducible (assumption) | simp only [Kept.lit] | with_reducible (apply kept_incPair) | (intro) | (split)

theorem kept_serveRd {x0 : Txn} {x1 : Nat} (h : Kept a s) : Kept a (State.serveRd s x0 x1) := by
  unfold State.serveRd
  repeat' first
    | with_reducible (exact Kept.refl _) | with_reducible (assumption) | simp only [Kept.lit] | with_reducible (apply kept_readLine)
    | with_reducible (apply kept_countHit) | with_reducible (apply kept_touch) | with_reducible (apply kept_incPair) | with_reducible (apply kept_askRead)
    | with_reducible (apply kept_draw) | with_reducible (apply kept_blockDone) | with_reducible (apply kept_txnFenced) | with_reducible (apply kept_noteMiss)
    | with_reducible (apply kept_raiseMiss) | with_reducible (apply Kept.when) | with_reducible (refine Kept.snd_of_eq (by assumption) ?_)
    | with_reducible (refine Kept.fst_of_eq (by assumption) ?_) | with_reducible (refine Kept.fst_of_eq3 (by assumption) ?_)
    | with_reducible (refine Kept.snd_of_eq3 (by assumption) ?_) | (intro) | (split)

theorem kept_serveWr {x0 : Txn} {x1 : Nat} {x2 : List (BitVec 8)} (h : Kept a s) : Kept a (State.serveWr s x0 x1 x2) := by
  unfold State.serveWr
  repeat' first
    | with_reducible (exact Kept.refl _) | with_reducible (assumption) | simp only [Kept.lit] | with_reducible (apply kept_incPair)
    | with_reducible (apply kept_countHit) | with_reducible (apply kept_writeLine) | with_reducible (apply kept_blockDone) | with_reducible (apply kept_takeWay)
    | with_reducible (apply Kept.when) | with_reducible (refine Kept.snd_of_eq (by assumption) ?_) | with_reducible (refine Kept.fst_of_eq (by assumption) ?_)
    | with_reducible (refine Kept.fst_of_eq3 (by assumption) ?_) | with_reducible (refine Kept.snd_of_eq3 (by assumption) ?_) | (intro) | (split)

theorem kept_serveWrp {x0 : Txn} {x1 : Nat} (h : Kept a s) : Kept a (State.serveWrp s x0 x1) := by
  unfold State.serveWrp
  repeat' first
    | with_reducible (exact Kept.refl _) | with_reducible (assumption) | simp only [Kept.lit] | with_reducible (apply kept_serveWr)
    | with_reducible (apply kept_markGranule) | with_reducible (apply kept_blockDone) | with_reducible (apply kept_readLine) | with_reducible (apply kept_countHit)
    | with_reducible (apply kept_incPair) | with_reducible (apply kept_writeLine) | with_reducible (apply kept_raiseMiss) | with_reducible (apply Kept.when)
    | with_reducible (refine Kept.snd_of_eq (by assumption) ?_) | with_reducible (refine Kept.fst_of_eq (by assumption) ?_)
    | with_reducible (refine Kept.fst_of_eq3 (by assumption) ?_) | with_reducible (refine Kept.snd_of_eq3 (by assumption) ?_) | (intro) | (split)

theorem kept_serveAtom {x0 : Txn} (h : Kept a s) : Kept a (State.serveAtom s x0) := by
  unfold State.serveAtom
  repeat' first
    | with_reducible (exact Kept.refl _) | with_reducible (assumption) | simp only [Kept.lit] | with_reducible (apply kept_readLine)
    | with_reducible (apply kept_countHit) | with_reducible (apply kept_blockDone) | with_reducible (apply kept_writeLine) | with_reducible (apply kept_touch)
    | with_reducible (apply kept_countBytes) | with_reducible (apply kept_chargeBedrock) | with_reducible (apply kept_raiseMiss) | with_reducible (apply Kept.when)
    | with_reducible (refine Kept.snd_of_eq (by assumption) ?_) | with_reducible (refine Kept.fst_of_eq (by assumption) ?_)
    | with_reducible (refine Kept.fst_of_eq3 (by assumption) ?_) | with_reducible (refine Kept.snd_of_eq3 (by assumption) ?_) | (intro) | (split)

theorem kept_serveBlock {x0 : Nat} {x1 : Nat} (h : Kept a s) : Kept a (State.serveBlock s x0 x1) := by
  unfold State.serveBlock
  repeat' first
    | with_reducible (exact Kept.refl _) | with_reducible (assumption) | simp only [Kept.lit] | with_reducible (apply kept_serveRd) | with_reducible (apply kept_serveWr)
    | with_reducible (apply kept_serveWrp) | with_reducible (apply kept_serveAtom) | (intro) | (split)

theorem kept_engAnswer {x0 : Nat} {x1 : Nat} {x2 : AccAns} (h : Kept a s) : Kept a (State.engAnswer s x0 x1 x2) := by
  unfold State.engAnswer
  repeat' first
    | with_reducible (exact Kept.refl _) | with_reducible (assumption) | simp only [Kept.lit] | with_reducible (apply kept_setEng) | (intro) | (split)

theorem kept_finishTxn {x0 : Nat} (h : Kept a s) : Kept a (State.finishTxn s x0) := by
  unfold State.finishTxn
  repeat' first
    | with_reducible (exact Kept.refl _) | with_reducible (assumption) | simp only [Kept.lit] | with_reducible (apply kept_engAnswer)
    | with_reducible (apply kept_emitRsp) | (intro) | (split)

theorem kept_serveTxn {x0 : Nat} (h : Kept a s) : Kept a (State.serveTxn s x0) := by
  unfold State.serveTxn
  repeat' first
    | with_reducible (exact Kept.refl _) | with_reducible (assumption) | simp only [Kept.lit] | with_reducible (apply kept_serveBlock)
    | with_reducible (apply kept_finishTxn) | with_reducible (apply Kept.each) | (intro) | (split)

theorem kept_cleanStep (h : Kept a s) : Kept a (State.cleanStep s) := by
  unfold State.cleanStep
  repeat' first
    | with_reducible (exact Kept.refl _) | with_reducible (assumption) | simp only [Kept.lit] | with_reducible (apply kept_set) | with_reducible (apply kept_queueWb)
    | (intro) | (split)

theorem kept_earlyWb (h : Kept a s) : Kept a (State.earlyWb s) := by
  unfold State.earlyWb
  repeat' first
    | with_reducible (exact Kept.refl _) | with_reducible (assumption) | simp only [Kept.lit] | with_reducible (apply kept_queueWb) | with_reducible (apply Kept.each)
    | (intro) | (split)

theorem kept_serve (h : Kept a s) : Kept a (State.serve s) := by
  unfold State.serve
  repeat' first
    | with_reducible (exact Kept.refl _) | with_reducible (assumption) | simp only [Kept.lit] | with_reducible (apply kept_serveTxn)
    | with_reducible (apply kept_earlyWb) | with_reducible (apply kept_cleanStep) | with_reducible (apply Kept.each) | (intro) | (split)

theorem kept_accept {x0 : Packet} {x1 : Nat} {x2 : Nat} {x3 : Option (Nat × Nat)} {x4 : Bool} {x5 : List Nat} (h : Kept a s) : Kept a (State.accept s x0 x1 x2 x3 x4 x5) := by
  unfold State.accept
  repeat' first
    | with_reducible (exact Kept.refl _) | with_reducible (assumption) | simp only [Kept.lit] | (intro) | (split)

theorem kept_fenceTxns {x0 : Nat} (h : Kept a s) : Kept a (State.fenceTxns s x0) := by
  unfold State.fenceTxns
  repeat' first
    | with_reducible (exact Kept.refl _) | with_reducible (assumption) | simp only [Kept.lit] | with_reducible (apply kept_txnFenced)
    | with_reducible (apply kept_finishTxn) | with_reducible (apply Kept.each) | (intro) | (split)

/-! ## Rings -/

theorem kept_sendOwn {x0 : Packet} {x1 : Owner} {x2 : Nat} (h : Kept a s) : Kept a (State.sendOwn s x0 x1 x2) := by
  unfold State.sendOwn
  repeat' first
    | with_reducible (exact Kept.refl _) | with_reducible (assumption) | simp only [Kept.lit] | with_reducible (apply kept_emit) | (intro) | (split)

theorem kept_sendUnsent (h : Kept a s) : Kept a (State.sendUnsent s) := by
  unfold State.sendUnsent
  repeat' first
    | with_reducible (exact Kept.refl _) | with_reducible (assumption) | simp only [Kept.lit] | with_reducible (apply kept_sendOwn) | (intro) | (split)

theorem kept_putRing {x0 : Nat} {x1 : Ring} (h : Kept a s) : Kept a (State.putRing s x0 x1) := by
  unfold State.putRing
  repeat' first
    | with_reducible (exact Kept.refl _) | with_reducible (assumption) | simp only [Kept.lit] | with_reducible (apply kept_setRing) | with_reducible (apply kept_set)

theorem kept_forsake {x0 : Owner → Bool} (h : Kept a s) : Kept a (State.forsake s x0) := by
  unfold State.forsake
  repeat' first
    | with_reducible (exact Kept.refl _) | with_reducible (assumption) | simp only [Kept.lit] | (intro) | (split)

theorem kept_orphan {x0 : Nat} (h : Kept a s) : Kept a (State.orphan s x0) := by
  unfold State.orphan
  repeat' first
    | with_reducible (exact Kept.refl _) | with_reducible (assumption) | simp only [Kept.lit] | with_reducible (apply kept_forsake)

theorem kept_showRing0 {x0 : List (Nat × BitVec 8)} (h : Kept a s) : Kept a (State.showRing0 s x0) := by
  unfold State.showRing0
  repeat' first
    | with_reducible (exact Kept.refl _) | with_reducible (assumption) | simp only [Kept.lit] | with_reducible (apply kept_setRing) | with_reducible (apply kept_sets)
    | (intro) | (split)

theorem kept_haltRing {x0 : Nat} {x1 : Nat} {x2 : BitVec 8} (h : Kept a s) : Kept a (State.haltRing s x0 x1 x2) := by
  unfold State.haltRing
  repeat' first
    | with_reducible (exact Kept.refl _) | with_reducible (assumption) | simp only [Kept.lit] | with_reducible (apply kept_showRing0) | with_reducible (apply kept_sets)
    | (intro) | (split)

theorem kept_clearRing0 {x0 : Nat} (h : Kept a s) : Kept a (State.clearRing0 s x0) := by
  unfold State.clearRing0
  repeat' first
    | with_reducible (exact Kept.refl _) | with_reducible (assumption) | simp only [Kept.lit] | with_reducible (apply kept_showRing0) | (intro) | (split)

theorem kept_finishDesc {x0 : Nat} {x1 : Nat} {x2 : BitVec 8} {x3 : Nat} {x4 : Nat} {x5 : List (BitVec 8)} (h : Kept a s) : Kept a (State.finishDesc s x0 x1 x2 x3 x4 x5) := by
  unfold State.finishDesc
  repeat' first
    | with_reducible (exact Kept.refl _) | with_reducible (assumption) | simp only [Kept.lit] | with_reducible (apply kept_putRing) | (intro) | (split)

theorem kept_sendCpl {x0 : Nat} (h : Kept a s) : Kept a (State.sendCpl s x0) := by
  unfold State.sendCpl
  repeat' first
    | with_reducible (exact Kept.refl _) | with_reducible (assumption) | simp only [Kept.lit] | with_reducible (apply kept_setRing) | with_reducible (apply kept_sendOwn)
    | (intro) | (split)

theorem kept_endReset {x0 : Nat} (h : Kept a s) : Kept a (State.endReset s x0) := by
  unfold State.endReset
  repeat' first
    | with_reducible (exact Kept.refl _) | with_reducible (assumption) | simp only [Kept.lit] | with_reducible (apply kept_set) | (intro) | (split)

theorem kept_dropCpls {x0 : Nat} {x1 : Nat} (h : Kept a s) : Kept a (State.dropCpls s x0 x1) := by
  unfold State.dropCpls
  repeat' first
    | with_reducible (exact Kept.refl _) | with_reducible (assumption) | simp only [Kept.lit] | with_reducible (apply kept_putRing)
    | with_reducible (apply kept_endReset) | (intro) | (split)

theorem kept_cplAnswered {x0 : Nat} {x1 : BitVec 8} (h : Kept a s) : Kept a (State.cplAnswered s x0 x1) := by
  unfold State.cplAnswered
  repeat' first
    | with_reducible (exact Kept.refl _) | with_reducible (assumption) | simp only [Kept.lit] | with_reducible (apply kept_set) | with_reducible (apply kept_setRing)
    | with_reducible (apply kept_dropCpls) | with_reducible (apply kept_clearRing0) | with_reducible (apply kept_haltRing) | with_reducible (apply Kept.when) | (intro)
    | (split)

theorem kept_newP {x0 : Nat} {x1 : Nat} (h : Kept a s) : Kept a (State.newP s x0 x1) := by
  unfold State.newP
  repeat' first
    | with_reducible (exact Kept.refl _) | with_reducible (assumption) | simp only [Kept.lit] | with_reducible (apply kept_set) | with_reducible (apply kept_activity)
    | with_reducible (apply kept_inc) | (intro) | (split)

theorem kept_newH {x0 : Nat} {x1 : Nat} (h : Kept a s) : Kept a (State.newH s x0 x1) := by
  unfold State.newH
  repeat' first
    | with_reducible (exact Kept.refl _) | with_reducible (assumption) | simp only [Kept.lit] | with_reducible (apply kept_setRing) | with_reducible (apply kept_inc)
    | (intro) | (split)

theorem kept_assemble {x0 : Nat} {x1 : Nat} (h : Kept a s) : Kept a (State.assemble s x0 x1) := by
  induction x1 generalizing s with
  | zero => unfold State.assemble; with_reducible first | exact h | exact kept_noImage h
  | succ n ih =>
    unfold State.assemble
    repeat' first
      | with_reducible (exact Kept.refl _) | with_reducible (assumption) | simp only [Kept.lit] | with_reducible (apply ih) | with_reducible (apply kept_putRing)
      | with_reducible (apply kept_set) | with_reducible (apply kept_finishDesc) | with_reducible (apply kept_inc) | (intro) | (split)

theorem kept_issueFetch {x0 : Nat} {x1 : Nat} {x2 : Nat} {x3 : BitVec 8} (h : Kept a s) : Kept a (State.issueFetch s x0 x1 x2 x3) := by
  unfold State.issueFetch
  repeat' first
    | with_reducible (exact Kept.refl _) | with_reducible (assumption) | simp only [Kept.lit] | with_reducible (apply kept_setRing) | with_reducible (apply kept_sendOwn)
    | with_reducible (apply Kept.each) | (intro) | (split)

theorem kept_fetchRing {x0 : Nat} (h : Kept a s) : Kept a (State.fetchRing s x0) := by
  unfold State.fetchRing
  repeat' first
    | with_reducible (exact Kept.refl _) | with_reducible (assumption) | simp only [Kept.lit] | with_reducible (apply kept_assemble)
    | with_reducible (apply kept_issueFetch) | with_reducible (apply kept_activity) | (intro) | (split)

theorem kept_fetchAnswered {x0 : Nat} {x1 : Nat} {x2 : BitVec 8} {x3 : List (BitVec 8)} (h : Kept a s) : Kept a (State.fetchAnswered s x0 x1 x2 x3) := by
  unfold State.fetchAnswered
  repeat' first
    | with_reducible (exact Kept.refl _) | with_reducible (assumption) | simp only [Kept.lit] | with_reducible (apply kept_clearRing0)
    | with_reducible (apply kept_setRing) | with_reducible (apply kept_assemble) | with_reducible (apply kept_orphan) | with_reducible (apply kept_haltRing)
    | with_reducible (apply Kept.when) | (intro) | (split)

theorem kept_readRcb {x0 : Nat} {x1 : Nat} (h : Kept a s) : Kept a (State.readRcb s x0 x1) := by
  unfold State.readRcb
  repeat' first
    | with_reducible (exact Kept.refl _) | with_reducible (assumption) | simp only [Kept.lit] | with_reducible (apply kept_setRing) | with_reducible (apply kept_sendOwn)
    | (intro) | (split)

theorem kept_rcbAnswered {x0 : Nat} {x1 : BitVec 8} {x2 : List (BitVec 8)} (h : Kept a s) : Kept a (State.rcbAnswered s x0 x1 x2) := by
  unfold State.rcbAnswered
  repeat' first
    | with_reducible (exact Kept.refl _) | with_reducible (assumption) | simp only [Kept.lit] | with_reducible (apply kept_setRing)
    | with_reducible (apply kept_haltRing) | with_reducible (apply kept_clearRing0) | with_reducible (apply kept_newP) | with_reducible (apply kept_newH)
    | with_reducible (apply Kept.when) | (intro) | (split)

theorem kept_enableRing {x0 : Nat} (h : Kept a s) : Kept a (State.enableRing s x0) := by
  unfold State.enableRing
  repeat' first
    | with_reducible (exact Kept.refl _) | with_reducible (assumption) | simp only [Kept.lit] | with_reducible (apply kept_sets) | with_reducible (apply kept_putRing)

theorem kept_resetRing {x0 : Nat} (h : Kept a s) : Kept a (State.resetRing s x0) := by
  unfold State.resetRing
  repeat' first
    | with_reducible (exact Kept.refl _) | with_reducible (assumption) | simp only [Kept.lit] | with_reducible (apply kept_set) | with_reducible (apply kept_putRing)
    | with_reducible (apply kept_orphan) | with_reducible (apply kept_forsake) | with_reducible (apply kept_dropCpls) | with_reducible (apply kept_showRing0)
    | with_reducible (apply kept_finishDesc) | with_reducible (apply kept_endReset) | with_reducible (apply Kept.each) | with_reducible (apply Kept.when) | (intro)
    | (split)

theorem kept_resumeRing {x0 : Nat} (h : Kept a s) : Kept a (State.resumeRing s x0) := by
  unfold State.resumeRing
  repeat' first
    | with_reducible (exact Kept.refl _) | with_reducible (assumption) | simp only [Kept.lit] | with_reducible (apply kept_sets) | with_reducible (apply kept_forsake)
    | with_reducible (apply kept_setRing) | with_reducible (apply kept_readRcb) | with_reducible (apply kept_activity) | (intro) | (split)

theorem kept_mgmtDone {x0 : Nat} {x1 : BitVec 8} {x2 : List (BitVec 8)} {x3 : Nat} (h : Kept a s) : Kept a (State.mgmtDone s x0 x1 x2 x3) := by
  unfold State.mgmtDone
  repeat' first
    | with_reducible (exact Kept.refl _) | with_reducible (assumption) | simp only [Kept.lit] | with_reducible (apply kept_finishDesc) | (intro) | (split)

theorem kept_mgmtRefuse {x0 : Nat} {x1 : BitVec 8} {x2 : Nat} (h : Kept a s) : Kept a (State.mgmtRefuse s x0 x1 x2) := by
  unfold State.mgmtRefuse
  repeat' first
    | with_reducible (exact Kept.refl _) | with_reducible (assumption) | simp only [Kept.lit] | with_reducible (apply kept_inc) | with_reducible (apply kept_viol)
    | with_reducible (apply kept_mgmtDone) | (intro) | (split)

theorem kept_startMgmt {x0 : Nat} {x1 : State → Mgmt → State} (hx1 : ∀ a u0 u1, Kept a u0 → Kept a (x1 u0 u1)) (h : Kept a s) : Kept a (State.startMgmt s x0 x1) := by
  unfold State.startMgmt
  repeat' first
    | with_reducible (exact Kept.refl _) | with_reducible (assumption) | simp only [Kept.lit] | with_reducible (apply kept_putRing)
    | with_reducible (apply kept_activity) | with_reducible (apply kept_mgmtRefuse) | with_reducible (apply hx1) | (intro) | (split)

theorem kept_finishRingResets (h : Kept a s) : Kept a (State.finishRingResets s) := by
  unfold State.finishRingResets
  repeat' first
    | with_reducible (exact Kept.refl _) | with_reducible (assumption) | simp only [Kept.lit] | with_reducible (apply kept_mgmtDone) | with_reducible (apply Kept.each)
    | (intro) | (split)

theorem kept_unitResetEnd {x0 : Nat} {x1 : Nat} {x2 : BitVec 8} (h : Kept a s) : Kept a (State.unitResetEnd s x0 x1 x2) := by
  unfold State.unitResetEnd
  repeat' first
    | with_reducible (exact Kept.refl _) | with_reducible (assumption) | simp only [Kept.lit] | with_reducible (apply kept_sets) | with_reducible (apply kept_mgmtDone)
    | with_reducible (apply Kept.each) | (intro) | (split)

end Sys2Proof.Laws
end

