-- ==== Sys2Proof/Laws/KeptChannels.lean ====
section
/-! SUPPORT. What the operations of the channels and their columns keep (`Kept`): one lemma for each. -/

namespace Sys2Proof.Laws

set_option Elab.async false

set_option linter.all false

open Sys2Proof Sys2Proof.Machine

variable {a s : State}

/-! ## Channels -/

theorem kept_pathStatus {x0 : Path} {x1 : BitVec 8} (h : Kept a s) : Kept a (State.pathStatus s x0 x1) := by
  unfold State.pathStatus
  repeat' first
    | with_reducible (exact Kept.refl _) | with_reducible (assumption) | simp only [Kept.lit] | (intro) | (split)

theorem kept_payOwed {x0 : Nat} {x1 : BitVec 8} (h : Kept a s) : Kept a (State.payOwed s x0 x1) := by
  unfold State.payOwed
  repeat' first
    | with_reducible (exact Kept.refl _) | with_reducible (assumption) | simp only [Kept.lit] | with_reducible (apply kept_pathStatus)
    | with_reducible (apply kept_emitRsp) | with_reducible (apply Kept.each) | (intro) | (split)

theorem kept_saveMap (h : Kept a s) : Kept a (State.saveMap s) := by
  unfold State.saveMap
  repeat' first
    | with_reducible (exact Kept.refl _) | with_reducible (assumption) | simp only [Kept.lit]

theorem kept_changeGroup {x0 : Nat} {x1 : Nat} (h : Kept a s) : Kept a (State.changeGroup s x0 x1) := by
  unfold State.changeGroup
  repeat' first
    | with_reducible (exact Kept.refl _) | with_reducible (assumption) | simp only [Kept.lit] | with_reducible (apply kept_setGroupSt)
    | with_reducible (apply kept_saveMap)

theorem kept_dropCorrective {x0 : Nat} {x1 : Nat} (h : Kept a s) : Kept a (State.dropCorrective s x0 x1) := by
  unfold State.dropCorrective
  repeat' first
    | with_reducible (exact Kept.refl _) | with_reducible (assumption) | simp only [Kept.lit] | (intro) | (split)

theorem kept_storeBlock {x0 : Nat} {x1 : Nat} {x2 : List (BitVec 8)} {x3 : Bool} {x4 : Bool} (h : Kept a s) : Kept a (State.storeBlock s x0 x1 x2 x3 x4) := by
  unfold State.storeBlock
  repeat' first
    | with_reducible (exact Kept.refl _) | with_reducible (assumption) | simp only [Kept.lit] | with_reducible (apply kept_dropCorrective)
    | with_reducible (apply kept_blockFetch) | with_reducible (apply kept_blockWrite) | with_reducible (apply kept_stripeXor) | with_reducible (apply kept_draw)
    | with_reducible (refine Kept.snd_of_eq (by assumption) ?_) | with_reducible (refine Kept.fst_of_eq (by assumption) ?_)
    | with_reducible (refine Kept.fst_of_eq3 (by assumption) ?_) | with_reducible (refine Kept.snd_of_eq3 (by assumption) ?_) | (intro) | (split)

/-- Bytes put back or forgotten keep the memory in its form. -/
theorem putRaw_wf {α : Type} {k : α → Nat} {v : α → Option (BitVec 8)} (l : List α) {m : List (Nat × BitVec 8)} (hm : Memory.wf m = true) :
    Memory.wf (l.foldl (fun m e => match v e with
      | some x => mput (k e) x m
      | none => merase (k e) m) m) = true := by
  induction l generalizing m with
  | nil => exact hm
  | cons e l ih =>
    refine ih ?_
    dsimp only
    split
    · exact rising_mput hm _ _
    · exact rising_merase hm _

theorem kept_putRaw {c b : Nat} {raw : List (Option (BitVec 8))} (h : Kept a s) : Kept a (State.putRaw s c b raw) := by
  unfold State.putRaw
  exact kept_withDram (fun hm => putRaw_wf _ hm) h

theorem kept_cutBursts {x0 : Nat} (h : Kept a s) : Kept a (State.cutBursts s x0) := by
  unfold State.cutBursts
  repeat' first
    | with_reducible (exact Kept.refl _) | with_reducible (assumption) | simp only [Kept.lit] | with_reducible (apply kept_putRaw) | with_reducible (apply kept_setChn)
    | with_reducible (apply Kept.each) | (intro) | (split) | with_reducible (apply Kept.drawn)

theorem kept_lineWritten {x0 : Nat} (h : Kept a s) : Kept a (State.lineWritten s x0) := by
  unfold State.lineWritten
  repeat' first
    | with_reducible (exact Kept.refl _) | with_reducible (assumption) | simp only [Kept.lit] | with_reducible (apply kept_incPair) | with_reducible (apply kept_setLine)
    | with_reducible (apply kept_dropLine) | (intro) | (split)

theorem kept_writeBackNow {x0 : Nat} {x1 : Bool} (h : Kept a s) : Kept a (State.writeBackNow s x0 x1) := by
  unfold State.writeBackNow
  repeat' first
    | with_reducible (exact Kept.refl _) | with_reducible (assumption) | simp only [Kept.lit] | with_reducible (apply kept_setChn)
    | with_reducible (apply kept_decodeLine) | with_reducible (apply kept_storeBlock) | with_reducible (apply kept_blockPerformed) | with_reducible (apply kept_setLine)
    | with_reducible (apply kept_lineWritten) | with_reducible (refine Kept.snd_of_eq (by assumption) ?_) | with_reducible (refine Kept.fst_of_eq (by assumption) ?_)
    | with_reducible (refine Kept.fst_of_eq3 (by assumption) ?_) | with_reducible (refine Kept.snd_of_eq3 (by assumption) ?_) | (intro) | (split)

theorem kept_finishRebuildWaits {x0 : Nat} (h : Kept a s) : Kept a (State.finishRebuildWaits s x0) := by
  unfold State.finishRebuildWaits
  repeat' first
    | with_reducible (exact Kept.refl _) | with_reducible (assumption) | simp only [Kept.lit] | with_reducible (apply kept_mgmtDone) | with_reducible (apply Kept.each)
    | (intro) | (split)

theorem kept_loseDirty {x0 : Nat} (h : Kept a s) : Kept a (State.loseDirty s x0) := by
  unfold State.loseDirty
  repeat' first
    | with_reducible (exact Kept.refl _) | with_reducible (assumption) | simp only [Kept.lit] | with_reducible (apply kept_dropLine) | with_reducible (apply kept_event)
    | with_reducible (apply Kept.each) | (intro) | (split) | with_reducible (apply Kept.foldl) | with_reducible (apply Kept.foldl_snd)
    | with_reducible (apply Kept.foldl_fst)

theorem kept_loseChannel {x0 : Nat} (h : Kept a s) : Kept a (State.loseChannel s x0) := by
  unfold State.loseChannel
  repeat' first
    | with_reducible (exact Kept.refl _) | with_reducible (assumption) | simp only [Kept.lit] | with_reducible (apply kept_set) | with_reducible (apply kept_loseDirty)

theorem kept_stopRebuild {x0 : Nat} (h : Kept a s) : Kept a (State.stopRebuild s x0) := by
  unfold State.stopRebuild
  repeat' first
    | with_reducible (exact Kept.refl _) | with_reducible (assumption) | simp only [Kept.lit] | with_reducible (apply kept_set) | with_reducible (apply kept_event)
    | with_reducible (apply kept_loseChannel) | with_reducible (apply kept_finishRebuildWaits) | (intro) | (split)

theorem kept_stopPatrol {x0 : List Nat} (h : Kept a s) : Kept a (State.stopPatrol s x0) := by
  unfold State.stopPatrol
  repeat' first
    | with_reducible (exact Kept.refl _) | with_reducible (assumption) | simp only [Kept.lit] | (intro) | (split) | with_reducible (apply Kept.foldl)
    | with_reducible (apply Kept.foldl_snd) | with_reducible (apply Kept.foldl_fst)

theorem kept_startRebuild {x0 : Nat} (h : Kept a s) : Kept a (State.startRebuild s x0) := by
  unfold State.startRebuild
  repeat' first
    | with_reducible (exact Kept.refl _) | with_reducible (assumption) | simp only [Kept.lit] | with_reducible (apply kept_sets) | (intro) | (split)

theorem kept_endRebuild {x0 : Nat} (h : Kept a s) : Kept a (State.endRebuild s x0) := by
  unfold State.endRebuild
  repeat' first
    | with_reducible (exact Kept.refl _) | with_reducible (assumption) | simp only [Kept.lit] | with_reducible (apply kept_sets)
    | with_reducible (apply kept_changeGroup) | with_reducible (apply kept_event) | with_reducible (apply kept_finishRebuildWaits) | (intro) | (split)

theorem kept_rebuildPassed {x0 : Nat} (h : Kept a s) : Kept a (State.rebuildPassed s x0) := by
  unfold State.rebuildPassed
  repeat' first
    | with_reducible (exact Kept.refl _) | with_reducible (assumption) | simp only [Kept.lit] | with_reducible (apply kept_set) | with_reducible (apply kept_endRebuild)
    | with_reducible (apply kept_finishRebuildWaits) | (intro) | (split)

theorem kept_issueColumn {x0 : Nat} {x1 : ColReq} (h : Kept a s) : Kept a (State.issueColumn s x0 x1) := by
  unfold State.issueColumn
  repeat' first
    | with_reducible (exact Kept.refl _) | with_reducible (assumption) | simp only [Kept.lit] | with_reducible (apply kept_storeBlock)
    | with_reducible (apply kept_blockPerformed) | with_reducible (apply kept_setChn) | with_reducible (apply kept_set) | with_reducible (apply kept_rebuildPassed)
    | (intro) | (split)

theorem kept_issueCommand {x0 : Nat} {x1 : Nat} {x2 : Nat} (h : Kept a s) : Kept a (State.issueCommand s x0 x1 x2) := by
  unfold State.issueCommand
  repeat' first
    | with_reducible (exact Kept.refl _) | with_reducible (assumption) | simp only [Kept.lit] | with_reducible (apply kept_setChn) | with_reducible (apply kept_inc)
    | with_reducible (apply kept_set) | with_reducible (apply kept_issueColumn) | with_reducible (apply kept_activateRow) | with_reducible (apply kept_draw)
    | with_reducible (refine Kept.snd_of_eq (by assumption) ?_) | with_reducible (refine Kept.fst_of_eq (by assumption) ?_)
    | with_reducible (refine Kept.fst_of_eq3 (by assumption) ?_) | with_reducible (refine Kept.snd_of_eq3 (by assumption) ?_) | (intro) | (split)

theorem kept_refresh {x0 : Nat} {x1 : Nat} {x2 : List Bool} (h : Kept a s) : Kept a (State.refresh s x0 x1 x2) := by
  unfold State.refresh
  repeat' first
    | with_reducible (exact Kept.refl _) | with_reducible (assumption) | simp only [Kept.lit] | with_reducible (apply kept_setChn) | with_reducible (apply kept_inc)
    | with_reducible (apply kept_sets) | with_reducible (apply kept_set) | (intro) | (split) | with_reducible (apply Kept.drawn)

theorem kept_rebuildStep {x0 : Nat} (h : Kept a s) : Kept a (State.rebuildStep s x0) := by
  unfold State.rebuildStep
  repeat' first
    | with_reducible (exact Kept.refl _) | with_reducible (assumption) | simp only [Kept.lit] | with_reducible (apply kept_rebuildPassed)
    | with_reducible (apply kept_setChn) | with_reducible (apply kept_draw) | with_reducible (apply kept_incSat) | with_reducible (apply kept_stripeXor)
    | with_reducible (apply kept_blockPerformed) | with_reducible (apply Kept.iter) | with_reducible (refine Kept.snd_of_eq (by assumption) ?_)
    | with_reducible (refine Kept.fst_of_eq (by assumption) ?_) | with_reducible (refine Kept.fst_of_eq3 (by assumption) ?_)
    | with_reducible (refine Kept.snd_of_eq3 (by assumption) ?_) | (intro) | (split)

theorem kept_startPasr {x0 : Nat} {x1 : Nat} {x2 : Asker} (h : Kept a s) : Kept a (State.startPasr s x0 x1 x2) := by
  unfold State.startPasr
  repeat' first
    | with_reducible (exact Kept.refl _) | with_reducible (assumption) | simp only [Kept.lit] | with_reducible (apply kept_setChn) | with_reducible (apply kept_set)
    | with_reducible (apply Kept.each) | (intro) | (split)

theorem kept_applyPasr {x0 : Nat} {x1 : Bool} (h : Kept a s) : Kept a (State.applyPasr s x0 x1) := by
  unfold State.applyPasr
  repeat' first
    | with_reducible (exact Kept.refl _) | with_reducible (assumption) | simp only [Kept.lit] | with_reducible (apply kept_dropLine)
    | with_reducible (apply kept_writeBackNow) | with_reducible (apply kept_dramForget) | with_reducible (apply kept_setChn) | with_reducible (apply kept_set)
    | with_reducible (apply Kept.each) | (intro) | (split)

theorem kept_pasrAnswer {x0 : Nat} {x1 : Option Asker} {x2 : BitVec 8} (h : Kept a s) : Kept a (State.pasrAnswer s x0 x1 x2) := by
  unfold State.pasrAnswer
  repeat' first
    | with_reducible (exact Kept.refl _) | with_reducible (assumption) | simp only [Kept.lit] | with_reducible (apply kept_mgmtDone)
    | with_reducible (apply kept_payOwed) | with_reducible (apply Kept.each) | (intro) | (split)

theorem kept_clearQueues {x0 : Nat} (h : Kept a s) : Kept a (State.clearQueues s x0) := by
  unfold State.clearQueues
  repeat' first
    | with_reducible (exact Kept.refl _) | with_reducible (assumption) | simp only [Kept.lit] | with_reducible (apply kept_setLine) | with_reducible (apply kept_freeWay)
    | with_reducible (apply kept_setChn) | with_reducible (apply Kept.each) | (intro) | (split)

theorem kept_channelSr {c : Nat} (h : Kept a s) : Kept a (State.channelSr s c) := by
  unfold State.channelSr
  split
  · have hc := kept_cutBursts (x0 := c) h
    generalize s.cutBursts c = u at hc ⊢
    dsimp only
    simp only [Kept.lit]
    exact kept_set (kept_setChn hc)
  · exact h

theorem kept_fenceChannel {x0 : Nat} {x1 : Nat} (h : Kept a s) : Kept a (State.fenceChannel s x0 x1) := by
  unfold State.fenceChannel
  split
  · repeat' first
      | with_reducible (exact Kept.refl _) | with_reducible (assumption) | simp only [Kept.lit] | with_reducible (apply kept_sets) | with_reducible (apply kept_setChn)
      | with_reducible (apply kept_raiseRec) | with_reducible (apply kept_channelSr) | with_reducible (apply kept_stopPatrol) | with_reducible (apply kept_clearQueues)
      | with_reducible (apply kept_fenceTxns) | with_reducible (apply kept_set) | with_reducible (apply kept_applyPasr) | with_reducible (apply kept_pasrAnswer)
      | with_reducible (apply kept_unitResetEnd) | with_reducible (apply kept_dropLine) | with_reducible (apply kept_loseChannel)
      | with_reducible (apply kept_changeGroup) | with_reducible (apply kept_stopRebuild) | with_reducible (apply Kept.each) | (intro) | (split)
  split
  · repeat' first
      | with_reducible (exact Kept.refl _) | with_reducible (assumption) | simp only [Kept.lit] | with_reducible (apply kept_sets) | with_reducible (apply kept_setChn)
      | with_reducible (apply kept_raiseRec) | with_reducible (apply kept_channelSr) | with_reducible (apply kept_stopPatrol) | with_reducible (apply kept_clearQueues)
      | with_reducible (apply kept_fenceTxns) | with_reducible (apply kept_set) | with_reducible (apply kept_applyPasr) | with_reducible (apply kept_pasrAnswer)
      | with_reducible (apply kept_unitResetEnd) | with_reducible (apply kept_dropLine) | with_reducible (apply kept_loseChannel)
      | with_reducible (apply kept_changeGroup) | with_reducible (apply kept_stopRebuild) | with_reducible (apply Kept.each) | (intro) | (split)
  extract_lets l0 l1 l2 l3 l4 l5 l6 l7 l8 l9 l10 l11 l12 l13 l14
  try
    have hl0 : Kept a l0 := by
      subst l0
      repeat' first
        | with_reducible (exact Kept.refl _) | with_reducible (assumption) | simp only [Kept.lit] | with_reducible (apply kept_sets) | with_reducible (apply kept_setChn)
        | with_reducible (apply kept_raiseRec) | with_reducible (apply kept_channelSr) | with_reducible (apply kept_stopPatrol) | with_reducible (apply kept_clearQueues)
        | with_reducible (apply kept_fenceTxns) | with_reducible (apply kept_set) | with_reducible (apply kept_applyPasr) | with_reducible (apply kept_pasrAnswer)
        | with_reducible (apply kept_unitResetEnd) | with_reducible (apply kept_dropLine) | with_reducible (apply kept_loseChannel)
        | with_reducible (apply kept_changeGroup) | with_reducible (apply kept_stopRebuild) | with_reducible (apply Kept.each) | (intro) | (split)
  clear_value l0
  try
    have hl1 : Kept a l1 := by
      subst l1
      repeat' first
        | with_reducible (exact Kept.refl _) | with_reducible (assumption) | simp only [Kept.lit] | with_reducible (apply kept_sets) | with_reducible (apply kept_setChn)
        | with_reducible (apply kept_raiseRec) | with_reducible (apply kept_channelSr) | with_reducible (apply kept_stopPatrol) | with_reducible (apply kept_clearQueues)
        | with_reducible (apply kept_fenceTxns) | with_reducible (apply kept_set) | with_reducible (apply kept_applyPasr) | with_reducible (apply kept_pasrAnswer)
        | with_reducible (apply kept_unitResetEnd) | with_reducible (apply kept_dropLine) | with_reducible (apply kept_loseChannel)
        | with_reducible (apply kept_changeGroup) | with_reducible (apply kept_stopRebuild) | with_reducible (apply Kept.each) | (intro) | (split)
  clear_value l1
  try
    have hl2 : Kept a l2 := by
      subst l2
      repeat' first
        | with_reducible (exact Kept.refl _) | with_reducible (assumption) | simp only [Kept.lit] | with_reducible (apply kept_sets) | with_reducible (apply kept_setChn)
        | with_reducible (apply kept_raiseRec) | with_reducible (apply kept_channelSr) | with_reducible (apply kept_stopPatrol) | with_reducible (apply kept_clearQueues)
        | with_reducible (apply kept_fenceTxns) | with_reducible (apply kept_set) | with_reducible (apply kept_applyPasr) | with_reducible (apply kept_pasrAnswer)
        | with_reducible (apply kept_unitResetEnd) | with_reducible (apply kept_dropLine) | with_reducible (apply kept_loseChannel)
        | with_reducible (apply kept_changeGroup) | with_reducible (apply kept_stopRebuild) | with_reducible (apply Kept.each) | (intro) | (split)
  clear_value l2
  try
    have hl3 : Kept a l3 := by
      subst l3
      repeat' first
        | with_reducible (exact Kept.refl _) | with_reducible (assumption) | simp only [Kept.lit] | with_reducible (apply kept_sets) | with_reducible (apply kept_setChn)
        | with_reducible (apply kept_raiseRec) | with_reducible (apply kept_channelSr) | with_reducible (apply kept_stopPatrol) | with_reducible (apply kept_clearQueues)
        | with_reducible (apply kept_fenceTxns) | with_reducible (apply kept_set) | with_reducible (apply kept_applyPasr) | with_reducible (apply kept_pasrAnswer)
        | with_reducible (apply kept_unitResetEnd) | with_reducible (apply kept_dropLine) | with_reducible (apply kept_loseChannel)
        | with_reducible (apply kept_changeGroup) | with_reducible (apply kept_stopRebuild) | with_reducible (apply Kept.each) | (intro) | (split)
  clear_value l3
  try
    have hl4 : Kept a l4 := by
      subst l4
      repeat' first
        | with_reducible (exact Kept.refl _) | with_reducible (assumption) | simp only [Kept.lit] | with_reducible (apply kept_sets) | with_reducible (apply kept_setChn)
        | with_reducible (apply kept_raiseRec) | with_reducible (apply kept_channelSr) | with_reducible (apply kept_stopPatrol) | with_reducible (apply kept_clearQueues)
        | with_reducible (apply kept_fenceTxns) | with_reducible (apply kept_set) | with_reducible (apply kept_applyPasr) | with_reducible (apply kept_pasrAnswer)
        | with_reducible (apply kept_unitResetEnd) | with_reducible (apply kept_dropLine) | with_reducible (apply kept_loseChannel)
        | with_reducible (apply kept_changeGroup) | with_reducible (apply kept_stopRebuild) | with_reducible (apply Kept.each) | (intro) | (split)
  clear_value l4
  try
    have hl5 : Kept a l5 := by
      subst l5
      repeat' first
        | with_reducible (exact Kept.refl _) | with_reducible (assumption) | simp only [Kept.lit] | with_reducible (apply kept_sets) | with_reducible (apply kept_setChn)
        | with_reducible (apply kept_raiseRec) | with_reducible (apply kept_channelSr) | with_reducible (apply kept_stopPatrol) | with_reducible (apply kept_clearQueues)
        | with_reducible (apply kept_fenceTxns) | with_reducible (apply kept_set) | with_reducible (apply kept_applyPasr) | with_reducible (apply kept_pasrAnswer)
        | with_reducible (apply kept_unitResetEnd) | with_reducible (apply kept_dropLine) | with_reducible (apply kept_loseChannel)
        | with_reducible (apply kept_changeGroup) | with_reducible (apply kept_stopRebuild) | with_reducible (apply Kept.each) | (intro) | (split)
  clear_value l5
  try
    have hl6 : Kept a l6 := by
      subst l6
      repeat' first
        | with_reducible (exact Kept.refl _) | with_reducible (assumption) | simp only [Kept.lit] | with_reducible (apply kept_sets) | with_reducible (apply kept_setChn)
        | with_reducible (apply kept_raiseRec) | with_reducible (apply kept_channelSr) | with_reducible (apply kept_stopPatrol) | with_reducible (apply kept_clearQueues)
        | with_reducible (apply kept_fenceTxns) | with_reducible (apply kept_set) | with_reducible (apply kept_applyPasr) | with_reducible (apply kept_pasrAnswer)
        | with_reducible (apply kept_unitResetEnd) | with_reducible (apply kept_dropLine) | with_reducible (apply kept_loseChannel)
        | with_reducible (apply kept_changeGroup) | with_reducible (apply kept_stopRebuild) | with_reducible (apply Kept.each) | (intro) | (split)
  clear_value l6
  try
    have hl7 : Kept a l7 := by
      subst l7
      repeat' first
        | with_reducible (exact Kept.refl _) | with_reducible (assumption) | simp only [Kept.lit] | with_reducible (apply kept_sets) | with_reducible (apply kept_setChn)
        | with_reducible (apply kept_raiseRec) | with_reducible (apply kept_channelSr) | with_reducible (apply kept_stopPatrol) | with_reducible (apply kept_clearQueues)
        | with_reducible (apply kept_fenceTxns) | with_reducible (apply kept_set) | with_reducible (apply kept_applyPasr) | with_reducible (apply kept_pasrAnswer)
        | with_reducible (apply kept_unitResetEnd) | with_reducible (apply kept_dropLine) | with_reducible (apply kept_loseChannel)
        | with_reducible (apply kept_changeGroup) | with_reducible (apply kept_stopRebuild) | with_reducible (apply Kept.each) | (intro) | (split)
  clear_value l7
  try
    have hl8 : Kept a l8 := by
      subst l8
      repeat' first
        | with_reducible (exact Kept.refl _) | with_reducible (assumption) | simp only [Kept.lit] | with_reducible (apply kept_sets) | with_reducible (apply kept_setChn)
        | with_reducible (apply kept_raiseRec) | with_reducible (apply kept_channelSr) | with_reducible (apply kept_stopPatrol) | with_reducible (apply kept_clearQueues)
        | with_reducible (apply kept_fenceTxns) | with_reducible (apply kept_set) | with_reducible (apply kept_applyPasr) | with_reducible (apply kept_pasrAnswer)
        | with_reducible (apply kept_unitResetEnd) | with_reducible (apply kept_dropLine) | with_reducible (apply kept_loseChannel)
        | with_reducible (apply kept_changeGroup) | with_reducible (apply kept_stopRebuild) | with_reducible (apply Kept.each) | (intro) | (split)
  clear_value l8
  try
    have hl9 : Kept a l9 := by
      subst l9
      repeat' first
        | with_reducible (exact Kept.refl _) | with_reducible (assumption) | simp only [Kept.lit] | with_reducible (apply kept_sets) | with_reducible (apply kept_setChn)
        | with_reducible (apply kept_raiseRec) | with_reducible (apply kept_channelSr) | with_reducible (apply kept_stopPatrol) | with_reducible (apply kept_clearQueues)
        | with_reducible (apply kept_fenceTxns) | with_reducible (apply kept_set) | with_reducible (apply kept_applyPasr) | with_reducible (apply kept_pasrAnswer)
        | with_reducible (apply kept_unitResetEnd) | with_reducible (apply kept_dropLine) | with_reducible (apply kept_loseChannel)
        | with_reducible (apply kept_changeGroup) | with_reducible (apply kept_stopRebuild) | with_reducible (apply Kept.each) | (intro) | (split)
  clear_value l9
  try
    have hl10 : Kept a l10 := by
      subst l10
      repeat' first
        | with_reducible (exact Kept.refl _) | with_reducible (assumption) | simp only [Kept.lit] | with_reducible (apply kept_sets) | with_reducible (apply kept_setChn)
        | with_reducible (apply kept_raiseRec) | with_reducible (apply kept_channelSr) | with_reducible (apply kept_stopPatrol) | with_reducible (apply kept_clearQueues)
        | with_reducible (apply kept_fenceTxns) | with_reducible (apply kept_set) | with_reducible (apply kept_applyPasr) | with_reducible (apply kept_pasrAnswer)
        | with_reducible (apply kept_unitResetEnd) | with_reducible (apply kept_dropLine) | with_reducible (apply kept_loseChannel)
        | with_reducible (apply kept_changeGroup) | with_reducible (apply kept_stopRebuild) | with_reducible (apply Kept.each) | (intro) | (split)
  clear_value l10
  try
    have hl11 : Kept a l11 := by
      subst l11
      repeat' first
        | with_reducible (exact Kept.refl _) | with_reducible (assumption) | simp only [Kept.lit] | with_reducible (apply kept_sets) | with_reducible (apply kept_setChn)
        | with_reducible (apply kept_raiseRec) | with_reducible (apply kept_channelSr) | with_reducible (apply kept_stopPatrol) | with_reducible (apply kept_clearQueues)
        | with_reducible (apply kept_fenceTxns) | with_reducible (apply kept_set) | with_reducible (apply kept_applyPasr) | with_reducible (apply kept_pasrAnswer)
        | with_reducible (apply kept_unitResetEnd) | with_reducible (apply kept_dropLine) | with_reducible (apply kept_loseChannel)
        | with_reducible (apply kept_changeGroup) | with_reducible (apply kept_stopRebuild) | with_reducible (apply Kept.each) | (intro) | (split)
  clear_value l11
  try
    have hl12 : Kept a l12 := by
      subst l12
      repeat' first
        | with_reducible (exact Kept.refl _) | with_reducible (assumption) | simp only [Kept.lit] | with_reducible (apply kept_sets) | with_reducible (apply kept_setChn)
        | with_reducible (apply kept_raiseRec) | with_reducible (apply kept_channelSr) | with_reducible (apply kept_stopPatrol) | with_reducible (apply kept_clearQueues)
        | with_reducible (apply kept_fenceTxns) | with_reducible (apply kept_set) | with_reducible (apply kept_applyPasr) | with_reducible (apply kept_pasrAnswer)
        | with_reducible (apply kept_unitResetEnd) | with_reducible (apply kept_dropLine) | with_reducible (apply kept_loseChannel)
        | with_reducible (apply kept_changeGroup) | with_reducible (apply kept_stopRebuild) | with_reducible (apply Kept.each) | (intro) | (split)
  clear_value l12
  try
    have hl13 : Kept a l13 := by
      subst l13
      repeat' first
        | with_reducible (exact Kept.refl _) | with_reducible (assumption) | simp only [Kept.lit] | with_reducible (apply kept_sets) | with_reducible (apply kept_setChn)
        | with_reducible (apply kept_raiseRec) | with_reducible (apply kept_channelSr) | with_reducible (apply kept_stopPatrol) | with_reducible (apply kept_clearQueues)
        | with_reducible (apply kept_fenceTxns) | with_reducible (apply kept_set) | with_reducible (apply kept_applyPasr) | with_reducible (apply kept_pasrAnswer)
        | with_reducible (apply kept_unitResetEnd) | with_reducible (apply kept_dropLine) | with_reducible (apply kept_loseChannel)
        | with_reducible (apply kept_changeGroup) | with_reducible (apply kept_stopRebuild) | with_reducible (apply Kept.each) | (intro) | (split)
  clear_value l13
  try
    have hl14 : Kept a l14 := by
      subst l14
      repeat' first
        | with_reducible (exact Kept.refl _) | with_reducible (assumption) | simp only [Kept.lit] | with_reducible (apply kept_sets) | with_reducible (apply kept_setChn)
        | with_reducible (apply kept_raiseRec) | with_reducible (apply kept_channelSr) | with_reducible (apply kept_stopPatrol) | with_reducible (apply kept_clearQueues)
        | with_reducible (apply kept_fenceTxns) | with_reducible (apply kept_set) | with_reducible (apply kept_applyPasr) | with_reducible (apply kept_pasrAnswer)
        | with_reducible (apply kept_unitResetEnd) | with_reducible (apply kept_dropLine) | with_reducible (apply kept_loseChannel)
        | with_reducible (apply kept_changeGroup) | with_reducible (apply kept_stopRebuild) | with_reducible (apply Kept.each) | (intro) | (split)
  clear_value l14
  repeat' first
    | with_reducible (exact Kept.refl _) | with_reducible (assumption) | simp only [Kept.lit] | with_reducible (apply kept_sets) | with_reducible (apply kept_setChn)
    | with_reducible (apply kept_raiseRec) | with_reducible (apply kept_channelSr) | with_reducible (apply kept_stopPatrol) | with_reducible (apply kept_clearQueues)
    | with_reducible (apply kept_fenceTxns) | with_reducible (apply kept_set) | with_reducible (apply kept_applyPasr) | with_reducible (apply kept_pasrAnswer)
    | with_reducible (apply kept_unitResetEnd) | with_reducible (apply kept_dropLine) | with_reducible (apply kept_loseChannel) | with_reducible (apply kept_changeGroup)
    | with_reducible (apply kept_stopRebuild) | with_reducible (apply Kept.each) | (intro) | (split)

theorem kept_syncCol {x0 : Nat} (h : Kept a s) : Kept a (State.syncCol s x0) := by
  unfold State.syncCol
  repeat' first
    | with_reducible (exact Kept.refl _) | with_reducible (assumption) | simp only [Kept.lit] | with_reducible (apply kept_sets) | (intro) | (split)

theorem kept_addSoft {x0 x1 : Nat} {t : State} (e : State.addSoft s x0 x1 = some t) (h : Kept a s) : Kept a t := by
  unfold State.addSoft at e
  cases hf : s.softFree with
  | none => rw [hf] at e; cases e
  | some i => rw [hf] at e; cases e; exact h.of_eq rfl rfl rfl rfl rfl rfl

theorem kept_syncResid {x0 : Nat} (h : Kept a s) : Kept a (State.syncResid s x0) := by
  unfold State.syncResid
  repeat' first
    | with_reducible (exact Kept.refl _) | with_reducible (assumption) | simp only [Kept.lit] | with_reducible (apply kept_sets) | (intro) | (split)
    | with_reducible (apply Kept.foldl) | with_reducible (apply Kept.foldl_snd) | with_reducible (apply Kept.foldl_fst)

theorem kept_coilFail {x0 : Nat} {x1 : Nat} (h : Kept a s) : Kept a (State.coilFail s x0 x1) := by
  unfold State.coilFail
  repeat' first
    | with_reducible (exact Kept.refl _) | with_reducible (assumption) | simp only [Kept.lit] | with_reducible (apply kept_inc) | with_reducible (apply kept_set)
    | with_reducible (apply kept_fenceChannel) | with_reducible (apply kept_setCol) | (intro) | (split)

theorem kept_clearHold {x0 : Nat} (h : Kept a s) : Kept a (State.clearHold s x0) := by
  unfold State.clearHold
  repeat' first
    | with_reducible (exact Kept.refl _) | with_reducible (assumption) | simp only [Kept.lit] | with_reducible (apply kept_set) | (intro) | (split)

theorem kept_switchPosition {x0 : Nat} {x1 : Nat} (h : Kept a s) : Kept a (State.switchPosition s x0 x1) := by
  unfold State.switchPosition
  repeat' first
    | with_reducible (exact Kept.refl _) | with_reducible (assumption) | simp only [Kept.lit] | with_reducible (apply kept_setCol) | with_reducible (apply kept_sets)
    | with_reducible (refine kept_addSoft (by assumption) ?_) | with_reducible (apply kept_raiseRec) | with_reducible (apply kept_inc)
    | with_reducible (apply kept_syncCol) | with_reducible (apply kept_clearHold) | with_reducible (apply kept_set) | with_reducible (apply kept_fenceChannel)
    | with_reducible (apply Kept.each) | with_reducible (refine Kept.snd_of_eq (by assumption) ?_) | with_reducible (refine Kept.fst_of_eq (by assumption) ?_)
    | with_reducible (refine Kept.fst_of_eq3 (by assumption) ?_) | with_reducible (refine Kept.snd_of_eq3 (by assumption) ?_) | (intro) | (split)

theorem kept_settleFailure {x0 : Nat} {x1 : Nat} (h : Kept a s) : Kept a (State.settleFailure s x0 x1) := by
  unfold State.settleFailure
  repeat' first
    | with_reducible (exact Kept.refl _) | with_reducible (assumption) | simp only [Kept.lit] | with_reducible (apply kept_switchPosition)
    | with_reducible (apply kept_syncResid)

theorem kept_coilErrors {x0 : Nat} {x1 : List Nat} (h : Kept a s) : Kept a (State.coilErrors s x0 x1) := by
  unfold State.coilErrors
  repeat' first
    | with_reducible (exact Kept.refl _) | with_reducible (assumption) | simp only [Kept.lit] | with_reducible (apply kept_setCol) | with_reducible (apply kept_coilFail)
    | with_reducible (apply Kept.each) | (intro) | (split)

theorem kept_unwatch {x0 : Nat} {x1 : Nat} (h : Kept a s) : Kept a (State.unwatch s x0 x1) := by
  unfold State.unwatch
  repeat' first
    | with_reducible (exact Kept.refl _) | with_reducible (assumption) | simp only [Kept.lit] | (intro) | (split)

theorem kept_dramUe {x0 : Nat} {x1 : Nat} {x2 : Bool} (h : Kept a s) : Kept a (State.dramUe s x0 x1 x2) := by
  unfold State.dramUe
  repeat' first
    | with_reducible (exact Kept.refl _) | with_reducible (assumption) | simp only [Kept.lit] | with_reducible (apply kept_logError)
    | with_reducible (apply kept_raiseRec)

theorem kept_queueCorrective {x0 : Nat} {x1 : Nat} {x2 : List (BitVec 8)} {x3 : List Nat} (h : Kept a s) : Kept a (State.queueCorrective s x0 x1 x2 x3) := by
  unfold State.queueCorrective
  repeat' first
    | with_reducible (exact Kept.refl _) | with_reducible (assumption) | simp only [Kept.lit] | with_reducible (apply kept_dropCorrective)

theorem kept_judgeHard {x0 : Nat} {x1 : Nat} {x2 : List Nat} (h : Kept a s) : Kept a (State.judgeHard s x0 x1 x2) := by
  unfold State.judgeHard
  repeat' first
    | with_reducible (exact Kept.refl _) | with_reducible (assumption) | simp only [Kept.lit] | (intro) | (split)

theorem kept_noteUe {x0 : Nat} {x1 : Nat} (h : Kept a s) : Kept a (State.noteUe s x0 x1) := by
  unfold State.noteUe
  repeat' first
    | with_reducible (exact Kept.refl _) | with_reducible (assumption) | simp only [Kept.lit] | (intro) | (split)

theorem kept_readBlock {x0 : Nat} {x1 : Nat} {x2 : List (BitVec 8)} (h : Kept a s) : Kept a (State.readBlock s x0 x1 x2).2 := by
  unfold State.readBlock
  repeat' first
    | with_reducible (exact Kept.refl _) | with_reducible (assumption) | simp only [Kept.lit] | with_reducible (apply kept_dramRead)
    | with_reducible (apply kept_incPair) | with_reducible (apply kept_draw) | with_reducible (apply kept_injCheck) | with_reducible (apply kept_inc)
    | with_reducible (apply kept_dramUe) | with_reducible (apply kept_logError) | with_reducible (apply kept_unwatch) | with_reducible (apply kept_incBy)
    | with_reducible (apply kept_judgeHard) | with_reducible (apply kept_queueCorrective) | with_reducible (apply kept_coilErrors) | with_reducible (apply kept_noteUe)
    | with_reducible (apply kept_stripeXor) | with_reducible (apply kept_blockWrite) | with_reducible (refine Kept.snd_of_eq (by assumption) ?_)
    | with_reducible (refine Kept.fst_of_eq (by assumption) ?_) | with_reducible (refine Kept.fst_of_eq3 (by assumption) ?_)
    | with_reducible (refine Kept.snd_of_eq3 (by assumption) ?_) | (intro) | (split)

theorem kept_readArrives {x0 : Nat} {x1 : List (BitVec 8)} (h : Kept a s) : Kept a (State.readArrives s x0 x1) := by
  unfold State.readArrives
  repeat' first
    | with_reducible (exact Kept.refl _) | with_reducible (assumption) | simp only [Kept.lit] | with_reducible (apply kept_readBlock)
    | with_reducible (apply kept_setChn) | with_reducible (apply kept_set) | with_reducible (apply kept_blockPerformed) | with_reducible (apply Kept.when)
    | with_reducible (refine Kept.snd_of_eq (by assumption) ?_) | with_reducible (refine Kept.fst_of_eq (by assumption) ?_)
    | with_reducible (refine Kept.fst_of_eq3 (by assumption) ?_) | with_reducible (refine Kept.snd_of_eq3 (by assumption) ?_) | (intro) | (split)

theorem kept_fillDone {x0 : Nat} (h : Kept a s) : Kept a (State.fillDone s x0) := by
  unfold State.fillDone
  repeat' first
    | with_reducible (exact Kept.refl _) | with_reducible (assumption) | simp only [Kept.lit] | with_reducible (apply kept_setChn) | with_reducible (apply kept_freeWay)
    | with_reducible (apply kept_takeWay) | with_reducible (apply kept_setLine) | with_reducible (apply kept_touch) | with_reducible (apply kept_blockDone)
    | with_reducible (refine Kept.snd_of_eq (by assumption) ?_) | with_reducible (refine Kept.fst_of_eq (by assumption) ?_)
    | with_reducible (refine Kept.fst_of_eq3 (by assumption) ?_) | with_reducible (refine Kept.snd_of_eq3 (by assumption) ?_) | (intro) | (split)

theorem kept_grantEntry {x0 : Nat} (h : Kept a s) : Kept a (State.grantEntry s x0) := by
  unfold State.grantEntry
  repeat' first
    | with_reducible (exact Kept.refl _) | with_reducible (assumption) | simp only [Kept.lit] | with_reducible (apply kept_setChn) | (intro) | (split)
    | with_reducible (apply Kept.foldl) | with_reducible (apply Kept.foldl_snd) | with_reducible (apply Kept.foldl_fst)

theorem kept_judgeResid {x0 : Nat} (h : Kept a s) : Kept a (State.judgeResid s x0) := by
  unfold State.judgeResid
  repeat' first
    | with_reducible (exact Kept.refl _) | with_reducible (assumption) | simp only [Kept.lit] | with_reducible (apply kept_syncResid)
    | with_reducible (apply kept_setCol) | with_reducible (apply kept_event) | (intro) | (split)

theorem kept_measure {x0 : Nat} {x1 : CoilRes} (h : Kept a s) : Kept a (State.measure s x0 x1) := by
  unfold State.measure
  repeat' first
    | with_reducible (exact Kept.refl _) | with_reducible (assumption) | simp only [Kept.lit] | with_reducible (apply kept_setCol) | (intro) | (split)

theorem kept_failCoil {x0 : Nat} {x1 : Nat} (h : Kept a s) : Kept a (State.failCoil s x0 x1) := by
  unfold State.failCoil
  repeat' first
    | with_reducible (exact Kept.refl _) | with_reducible (assumption) | simp only [Kept.lit] | with_reducible (apply kept_coilFail) | with_reducible (apply kept_set)
    | with_reducible (apply kept_syncCol) | (intro) | (split)

theorem kept_judgeRotation {x0 : Nat} (h : Kept a s) : Kept a (State.judgeRotation s x0) := by
  unfold State.judgeRotation
  repeat' first
    | with_reducible (exact Kept.refl _) | with_reducible (assumption) | simp only [Kept.lit] | with_reducible (apply kept_setCol) | with_reducible (apply kept_failCoil)
    | with_reducible (apply Kept.each) | (intro) | (split)

theorem kept_takeCal {x0 : Nat} {x1 : CoilCal} (h : Kept a s) : Kept a (State.takeCal s x0 x1) := by
  unfold State.takeCal
  repeat' first
    | with_reducible (exact Kept.refl _) | with_reducible (assumption) | simp only [Kept.lit] | with_reducible (apply kept_setCol) | (intro) | (split)

theorem kept_recalibrate {x0 : Nat} {x1 : List CoilCal} (h : Kept a s) : Kept a (State.recalibrate s x0 x1) := by
  unfold State.recalibrate
  repeat' first
    | with_reducible (exact Kept.refl _) | with_reducible (assumption) | simp only [Kept.lit] | with_reducible (apply kept_setCol) | with_reducible (apply kept_takeCal)
    | with_reducible (apply kept_judgeResid) | with_reducible (apply kept_failCoil) | with_reducible (apply Kept.each) | (intro) | (split)

theorem kept_releaseShadow {x0 : Nat} (h : Kept a s) : Kept a (State.releaseShadow s x0) := by
  unfold State.releaseShadow
  repeat' first
    | with_reducible (exact Kept.refl _) | with_reducible (assumption) | simp only [Kept.lit] | with_reducible (apply kept_sets) | with_reducible (apply kept_setCol)
    | with_reducible (apply kept_syncCol) | (intro) | (split)

theorem kept_cmdOffset {x0 : Nat} {x1 : Option Bool} (h : Kept a s) : Kept a (State.cmdOffset s x0 x1) := by
  unfold State.cmdOffset
  repeat' first
    | with_reducible (exact Kept.refl _) | with_reducible (assumption) | simp only [Kept.lit] | with_reducible (apply kept_setChn) | with_reducible (apply kept_set)
    | (intro) | (split) | with_reducible (apply Kept.drawn)

theorem kept_stepSetting {x0 : Nat} {x1 : Bool} (h : Kept a s) : Kept a (State.stepSetting s x0 x1) := by
  unfold State.stepSetting
  repeat' first
    | with_reducible (exact Kept.refl _) | with_reducible (assumption) | simp only [Kept.lit] | with_reducible (apply kept_setCol) | (intro) | (split)
    | with_reducible (apply Kept.drawn)

theorem kept_boundary {x0 : Nat} {x1 : Tap} (h : Kept a s) : Kept a (State.boundary s x0 x1) := by
  unfold State.boundary
  repeat' first
    | with_reducible (exact Kept.refl _) | with_reducible (assumption) | simp only [Kept.lit] | with_reducible (apply kept_releaseShadow)
    | with_reducible (apply kept_measure) | with_reducible (apply kept_cmdOffset) | with_reducible (apply kept_settleFailure) | with_reducible (apply kept_stepSetting)
    | with_reducible (apply kept_judgeResid) | with_reducible (apply kept_judgeRotation) | (intro) | (split) | with_reducible (apply Kept.foldl)
    | with_reducible (apply Kept.foldl_snd) | with_reducible (apply Kept.foldl_fst)

end Sys2Proof.Laws
end

