-- ==== Sys2Proof/Laws/KeptFox.lean ====
section
/-! SUPPORT. What the operations of the engines, their stages and what faults set off keep (`Kept`): one lemma for each. -/

namespace Sys2Proof.Laws

set_option Elab.async false

set_option linter.all false

open Sys2Proof Sys2Proof.Machine

variable {a s : State}

/-! ## Fox -/

theorem kept_setCvu {x0 : Nat} {x1 : Cvu} (h : Kept a s) : Kept a (State.setCvu s x0 x1) := by
  unfold State.setCvu
  repeat' first
    | with_reducible (exact Kept.refl _) | with_reducible (assumption) | simp only [Kept.lit]

theorem kept_feedCvu {x0 : Nat} {x1 : List (BitVec 8)} (h : Kept a s) : Kept a (State.feedCvu s x0 x1) := by
  unfold State.feedCvu
  repeat' first
    | with_reducible (exact Kept.refl _) | with_reducible (assumption) | simp only [Kept.lit] | with_reducible (apply kept_setCvu) | (intro) | (split)

theorem kept_releaseCvu {x0 : Nat} (h : Kept a s) : Kept a (State.releaseCvu s x0) := by
  unfold State.releaseCvu
  repeat' first
    | with_reducible (exact Kept.refl _) | with_reducible (assumption) | simp only [Kept.lit] | with_reducible (apply kept_setCvu)

theorem kept_loseMaps (h : Kept a s) : Kept a (State.loseMaps s) := by
  unfold State.loseMaps
  repeat' first
    | with_reducible (exact Kept.refl _) | with_reducible (assumption) | simp only [Kept.lit] | with_reducible (apply kept_set)

theorem kept_putEng {x0 : Nat} {x1 : Engine} (h : Kept a s) : Kept a (State.putEng s x0 x1) := by
  unfold State.putEng
  repeat' first
    | with_reducible (exact Kept.refl _) | with_reducible (assumption) | simp only [Kept.lit] | with_reducible (apply kept_setEng) | with_reducible (apply kept_set)

theorem kept_restEng {x0 : Nat} (h : Kept a s) : Kept a (State.restEng s x0) := by
  unfold State.restEng
  repeat' first
    | with_reducible (exact Kept.refl _) | with_reducible (assumption) | simp only [Kept.lit] | with_reducible (apply kept_putEng) | (intro) | (split)

theorem kept_offEng {x0 : Nat} (h : Kept a s) : Kept a (State.offEng s x0) := by
  unfold State.offEng
  repeat' first
    | with_reducible (exact Kept.refl _) | with_reducible (assumption) | simp only [Kept.lit] | with_reducible (apply kept_putEng) | with_reducible (apply kept_setEng)
    | (intro) | (split)

theorem kept_disableAll (h : Kept a s) : Kept a (State.disableAll s) := by
  unfold State.disableAll
  repeat' first
    | with_reducible (exact Kept.refl _) | with_reducible (assumption) | simp only [Kept.lit] | with_reducible (apply kept_offEng) | with_reducible (apply kept_raiseRec)
    | with_reducible (apply Kept.each) | (intro) | (split)

theorem kept_checkRetained (h : Kept a s) : Kept a (State.checkRetained s).2 := by
  unfold State.checkRetained
  repeat' first
    | with_reducible (exact Kept.refl _) | with_reducible (assumption) | simp only [Kept.lit] | (intro) | (split)

theorem kept_reloadEng {x0 : Nat} {x1 : Bool} (h : Kept a s) : Kept a (State.reloadEng s x0 x1) := by
  unfold State.reloadEng
  repeat' first
    | with_reducible (exact Kept.refl _) | with_reducible (assumption) | simp only [Kept.lit] | with_reducible (apply kept_checkRetained)
    | with_reducible (apply kept_disableAll) | with_reducible (apply kept_putEng) | with_reducible (apply kept_set) | with_reducible (apply kept_raiseRec)
    | with_reducible (refine Kept.snd_of_eq (by assumption) ?_) | with_reducible (refine Kept.fst_of_eq (by assumption) ?_)
    | with_reducible (refine Kept.fst_of_eq3 (by assumption) ?_) | with_reducible (refine Kept.snd_of_eq3 (by assumption) ?_) | (intro) | (split)

theorem kept_localCheck {x0 : Nat} {x1 : Nat} {t : State} {y} (e : State.localCheck s x0 x1 = some (y, t)) (h : Kept a s) : Kept a t := by
  unfold State.localCheck at e
  try dsimp only at e
  repeat' split at e
  all_goals first | (obtain rfl := Option.some.inj e) | cases e | skip
  repeat' first
    | with_reducible (exact Kept.refl _) | with_reducible (assumption) | simp only [Kept.lit] | with_reducible (apply kept_inc) | with_reducible (apply kept_viol)
    | (intro) | (split)

theorem kept_answerNow {x0 : Nat} {x1 : Nat} {x2 : AccAns} (h : Kept a s) : Kept a (State.answerNow s x0 x1 x2) := by
  unfold State.answerNow
  repeat' first
    | with_reducible (exact Kept.refl _) | with_reducible (assumption) | simp only [Kept.lit] | with_reducible (apply kept_setEng) | (intro) | (split)

theorem kept_denRead {x0 : Nat} {x1 : Nat} {x2 : Nat} (h : Kept a s) : Kept a (State.denRead s x0 x1 x2).2 := by
  unfold State.denRead
  repeat' first
    | with_reducible (exact Kept.refl _) | with_reducible (assumption) | simp only [Kept.lit] | with_reducible (apply kept_draw)
    | with_reducible (refine Kept.snd_of_eq (by assumption) ?_) | with_reducible (refine Kept.fst_of_eq (by assumption) ?_)
    | with_reducible (refine Kept.fst_of_eq3 (by assumption) ?_) | with_reducible (refine Kept.snd_of_eq3 (by assumption) ?_) | (intro) | (split)

theorem kept_issueAcc {e id : Nat} {x : Acc} {j : Job} {na : Bool} (h : Kept a s) : Kept a (State.issueAcc s e id x j na) := by
  unfold State.issueAcc
  split
  · split
    · split
      · exact kept_answerNow (Kept.snd_of_eq (by assumption) (kept_injCheck h))
      · have hj := kept_injCheck h (x0 := 2) (x1 := e)
        rename_i t heq
        rw [heq] at hj
        exact Kept.when (kept_answerNow (kept_denRead hj)) fun _ _ => kept_inc
    · exact kept_answerNow (kept_setEng h)
  · split
    · exact kept_answerNow h
    · extract_lets g open_ isSvc n
      have ho : Kept a (open_ s) := by
        simp only [open_]
        split
        · exact kept_setEng h
        · exact h
      clear_value open_ isSvc n
      split
      · split
        · exact kept_answerNow (kept_localCheck (by assumption) h)
        · exact kept_serve (kept_accept ho)
      · exact kept_sendOwn ho

theorem kept_pump {x0 : Nat} {x1 : Job} {x2 : Bool} {x3 : Nat} (h : Kept a s) : Kept a (State.pump s x0 x1 x2 x3) := by
  induction x3 generalizing s with
  | zero => unfold State.pump; with_reducible first | exact h | exact kept_noImage h
  | succ n ih =>
    unfold State.pump
    repeat' first
      | with_reducible (exact Kept.refl _) | with_reducible (assumption) | simp only [Kept.lit] | with_reducible (apply ih) | with_reducible (apply kept_setEng)
      | with_reducible (apply kept_issueAcc) | with_reducible (apply kept_inc) | (intro) | (split)

theorem kept_setJob {x0 : Job} (h : Kept a s) : Kept a (State.setJob s x0) := by
  unfold State.setJob
  repeat' first
    | with_reducible (exact Kept.refl _) | with_reducible (assumption) | simp only [Kept.lit] | (intro) | (split)

theorem kept_goOn {x0 : Nat} {x1 : Job} {x2 : Run} {x3 : List Acc} (h : Kept a s) : Kept a (State.goOn s x0 x1 x2 x3) := by
  unfold State.goOn
  repeat' first
    | with_reducible (exact Kept.refl _) | with_reducible (assumption) | simp only [Kept.lit] | with_reducible (apply kept_setEng) | with_reducible (apply kept_pump)
    | (intro) | (split)

theorem kept_endPart {x0 : Nat} {x1 : Job} {x2 : Run} (h : Kept a s) : Kept a (State.endPart s x0 x1 x2) := by
  unfold State.endPart
  repeat' first
    | with_reducible (exact Kept.refl _) | with_reducible (assumption) | simp only [Kept.lit] | with_reducible (apply kept_setJob) | with_reducible (apply kept_setEng)
    | with_reducible (apply kept_restEng) | (intro) | (split)

theorem kept_stageRound {x0 : Nat} {x1 : Nat} {x2 : Job → Run → State} (hx2 : ∀ u0 u1, Kept a (x2 u0 u1)) (h : Kept a s) : Kept a (State.stageRound s x0 x1 x2) := by
  unfold State.stageRound
  repeat' first
    | with_reducible (exact Kept.refl _) | with_reducible (assumption) | simp only [Kept.lit] | with_reducible (apply kept_pump) | with_reducible (apply hx2) | (intro)
    | (split)

theorem kept_round {x0 : Nat} {x1 : Nat} {x2 : Job → Run → Nat} {x3 : Job → Run → State} (hx3 : ∀ u0 u1, Kept a (x3 u0 u1)) (h : Kept a s) : Kept a (State.round s x0 x1 x2 x3) := by
  unfold State.round
  repeat' first
    | with_reducible (exact Kept.refl _) | with_reducible (assumption) | simp only [Kept.lit] | with_reducible (apply kept_stageRound)
    | with_reducible (apply kept_endPart) | with_reducible (apply hx3) | (intro) | (split)

theorem kept_takePart {x0 : Nat} {x1 : Job} {x2 : Run} (h : Kept a s) : Kept a (State.takePart s x0 x1 x2) := by
  unfold State.takePart
  repeat' first
    | with_reducible (exact Kept.refl _) | with_reducible (assumption) | simp only [Kept.lit] | with_reducible (apply kept_endPart) | with_reducible (apply kept_setJob)
    | with_reducible (apply kept_setEng) | with_reducible (apply kept_round) | (intro) | (split)

theorem kept_partDone {x0 : Nat} {x1 : Job} {x2 : Run} (h : Kept a s) : Kept a (State.partDone s x0 x1 x2) := by
  unfold State.partDone
  repeat' first
    | with_reducible (exact Kept.refl _) | with_reducible (assumption) | simp only [Kept.lit] | with_reducible (apply kept_takePart) | with_reducible (apply kept_setJob)
    | with_reducible (apply kept_restEng) | (intro) | (split)

theorem kept_beginStage {x0 : Nat} {x1 : Job} (h : Kept a s) : Kept a (State.beginStage s x0 x1) := by
  unfold State.beginStage
  repeat' first
    | with_reducible (exact Kept.refl _) | with_reducible (assumption) | simp only [Kept.lit] | with_reducible (apply kept_setJob) | with_reducible (apply kept_setEng)
    | with_reducible (apply kept_takePart) | (intro) | (split)

theorem kept_endJob {x0 : Nat} {x1 : Job} {x2 : BitVec 8} {x3 : Nat} {x4 : Nat} {x5 : List (BitVec 8)} (h : Kept a s) : Kept a (State.endJob s x0 x1 x2 x3 x4 x5) := by
  unfold State.endJob
  repeat' first
    | with_reducible (exact Kept.refl _) | with_reducible (assumption) | simp only [Kept.lit] | with_reducible (apply kept_releaseCvu)
    | with_reducible (apply kept_finishDesc) | with_reducible (apply kept_incPair) | with_reducible (apply kept_inc) | with_reducible (apply kept_haltRing)
    | with_reducible (apply kept_emitRsp) | with_reducible (apply kept_restEng) | with_reducible (apply kept_activity) | with_reducible (apply Kept.when) | (intro)
    | (split)

theorem kept_advance {x0 : Nat} {x1 : Job} (h : Kept a s) : Kept a (State.advance s x0 x1) := by
  unfold State.advance
  repeat' first
    | with_reducible (exact Kept.refl _) | with_reducible (assumption) | simp only [Kept.lit] | with_reducible (apply kept_releaseCvu)
    | with_reducible (apply kept_endJob) | with_reducible (apply kept_beginStage) | (intro) | (split)

theorem kept_freeHelper {x0 : Nat} (h : Kept a s) : Kept a (State.freeHelper s x0) := by
  unfold State.freeHelper
  repeat' first
    | with_reducible (exact Kept.refl _) | with_reducible (assumption) | simp only [Kept.lit] | with_reducible (apply kept_setEng) | with_reducible (apply kept_restEng)
    | (intro) | (split)

theorem kept_endTrap {x0 : Nat} {x1 : Nat} {x2 : Bool} (h : Kept a s) : Kept a (State.endTrap s x0 x1 x2) := by
  unfold State.endTrap
  repeat' first
    | with_reducible (exact Kept.refl _) | with_reducible (assumption) | simp only [Kept.lit] | with_reducible (apply kept_freeHelper)
    | with_reducible (apply kept_endJob) | with_reducible (apply kept_setJob) | with_reducible (apply kept_setEng) | with_reducible (apply kept_putEng)
    | with_reducible (apply kept_raiseRec) | with_reducible (apply kept_reloadEng) | with_reducible (apply Kept.each) | (intro) | (split)

theorem kept_trapEng {x0 : Nat} {x1 : Nat} {x2 : Bool} (h : Kept a s) : Kept a (State.trapEng s x0 x1 x2) := by
  unfold State.trapEng
  repeat' first
    | with_reducible (exact Kept.refl _) | with_reducible (assumption) | simp only [Kept.lit] | with_reducible (apply kept_setEng) | with_reducible (apply kept_inc)
    | with_reducible (apply kept_set) | with_reducible (apply kept_endTrap) | with_reducible (apply kept_putEng) | with_reducible (apply kept_setJob) | (intro) | (split)

theorem kept_fetchInstr {x0 : Nat} {x1 : State → State} (hx1 : ∀ a u0, Kept a u0 → Kept a (x1 u0)) (h : Kept a s) : Kept a (State.fetchInstr s x0 x1) := by
  unfold State.fetchInstr
  repeat' first
    | with_reducible (exact Kept.refl _) | with_reducible (assumption) | simp only [Kept.lit] | with_reducible (apply kept_injCheck)
    | with_reducible (apply kept_trapEng) | with_reducible (apply kept_inc) | with_reducible (refine Kept.snd_of_eq (by assumption) ?_)
    | with_reducible (refine Kept.fst_of_eq (by assumption) ?_) | with_reducible (refine Kept.fst_of_eq3 (by assumption) ?_)
    | with_reducible (refine Kept.snd_of_eq3 (by assumption) ?_) | with_reducible (apply hx1) | (intro) | (split)

theorem kept_startDesc {x0 : Nat} {x1 : Nat} {x2 : Desc} (h : Kept a s) : Kept a (State.startDesc s x0 x1 x2) := by
  unfold State.startDesc
  repeat' first
    | with_reducible (exact Kept.refl _) | with_reducible (assumption) | simp only [Kept.lit] | with_reducible (apply kept_putRing)
    | with_reducible (apply kept_activity) | with_reducible (apply kept_finishDesc) | with_reducible (apply kept_inc) | with_reducible (apply kept_incPair)
    | with_reducible (apply kept_putEng) | with_reducible (apply kept_set) | with_reducible (apply kept_beginStage) | (intro) | (split)

theorem kept_dispatch {x0 : Nat} (h : Kept a s) : Kept a (State.dispatch s x0) := by
  unfold State.dispatch
  repeat' first
    | with_reducible (exact Kept.refl _) | with_reducible (assumption) | simp only [Kept.lit] | with_reducible (apply kept_startDesc) | (intro) | (split)

theorem kept_startSvc {x0 : Nat} (h : Kept a s) : Kept a (State.startSvc s x0) := by
  unfold State.startSvc
  repeat' first
    | with_reducible (exact Kept.refl _) | with_reducible (assumption) | simp only [Kept.lit] | with_reducible (apply kept_activity) | with_reducible (apply kept_putEng)
    | with_reducible (apply kept_beginStage) | (intro) | (split)

theorem kept_help {x0 : Nat} (h : Kept a s) : Kept a (State.help s x0) := by
  unfold State.help
  repeat' first
    | with_reducible (exact Kept.refl _) | with_reducible (assumption) | simp only [Kept.lit] | with_reducible (apply kept_putEng) | with_reducible (apply kept_set)
    | with_reducible (apply kept_takePart) | (intro) | (split)

/-! ## Stages -/

theorem kept_stageFails {x0 : Nat} {x1 : Job} {x2 : Run} {x3 : BitVec 8} (h : Kept a s) : Kept a (State.stageFails s x0 x1 x2 x3) := by
  unfold State.stageFails
  repeat' first
    | with_reducible (exact Kept.refl _) | with_reducible (assumption) | simp only [Kept.lit] | with_reducible (apply kept_endPart)

theorem kept_stageDone {x0 : Nat} {x1 : Job} {x2 : Run} (h : Kept a s) : Kept a (State.stageDone s x0 x1 x2) := by
  unfold State.stageDone
  repeat' first
    | with_reducible (exact Kept.refl _) | with_reducible (assumption) | simp only [Kept.lit] | with_reducible (apply kept_endPart)

theorem kept_fillRound {x0 : Nat} (h : Kept a s) : Kept a (State.fillRound s x0) := by
  unfold State.fillRound
  repeat' first
    | with_reducible (exact Kept.refl _) | with_reducible (assumption) | simp only [Kept.lit] | with_reducible (apply kept_round) | with_reducible (apply kept_partDone)
    | with_reducible (apply kept_goOn) | (intro) | (split)

theorem kept_takeCvu {x0 : Nat} {x1 : Job} {x2 : Nat} {x3 : Nat} {t : State} {y} (e : State.takeCvu s x0 x1 x2 x3 = some (y, t)) (h : Kept a s) : Kept a t := by
  unfold State.takeCvu at e
  try dsimp only at e
  repeat' split at e
  all_goals first | (obtain rfl := Option.some.inj e) | cases e | skip
  repeat' first
    | with_reducible (exact Kept.refl _) | with_reducible (assumption) | simp only [Kept.lit] | with_reducible (apply kept_setCvu) | with_reducible (apply kept_setJob)
    | (intro) | (split)

theorem kept_feedJob {x0 : Job} {x1 : List (BitVec 8)} (h : Kept a s) : Kept a (State.feedJob s x0 x1) := by
  unfold State.feedJob
  repeat' first
    | with_reducible (exact Kept.refl _) | with_reducible (assumption) | simp only [Kept.lit] | with_reducible (apply kept_feedCvu) | (intro) | (split)

theorem kept_copyRound {x0 : Nat} (h : Kept a s) : Kept a (State.copyRound s x0) := by
  unfold State.copyRound
  repeat' first
    | with_reducible (exact Kept.refl _) | with_reducible (assumption) | simp only [Kept.lit] | with_reducible (apply kept_round)
    | with_reducible (refine kept_takeCvu (by assumption) ?_) | with_reducible (apply kept_partDone) | with_reducible (apply kept_goOn)
    | with_reducible (apply kept_draw) | with_reducible (apply kept_feedJob) | with_reducible (refine Kept.snd_of_eq (by assumption) ?_)
    | with_reducible (refine Kept.fst_of_eq (by assumption) ?_) | with_reducible (refine Kept.fst_of_eq3 (by assumption) ?_)
    | with_reducible (refine Kept.snd_of_eq3 (by assumption) ?_) | (intro) | (split)

theorem kept_countEarly {x0 : BitVec 8} (h : Kept a s) : Kept a (State.countEarly s x0) := by
  unfold State.countEarly
  repeat' first
    | with_reducible (exact Kept.refl _) | with_reducible (assumption) | simp only [Kept.lit] | with_reducible (apply kept_inc) | (intro) | (split)

theorem kept_gatherRound {x0 : Nat} (h : Kept a s) : Kept a (State.gatherRound s x0) := by
  unfold State.gatherRound
  repeat' first
    | with_reducible (exact Kept.refl _) | with_reducible (assumption) | simp only [Kept.lit] | with_reducible (apply kept_stageRound)
    | with_reducible (apply kept_round) | with_reducible (apply kept_endPart) | with_reducible (apply kept_goOn) | with_reducible (apply kept_countEarly)
    | with_reducible (apply kept_setJob) | with_reducible (apply kept_setEng) | (intro) | (split)

theorem kept_scatterRound {x0 : Nat} (h : Kept a s) : Kept a (State.scatterRound s x0) := by
  unfold State.scatterRound
  repeat' first
    | with_reducible (exact Kept.refl _) | with_reducible (assumption) | simp only [Kept.lit] | with_reducible (apply kept_stageRound)
    | with_reducible (apply kept_round) | with_reducible (apply kept_endPart) | with_reducible (apply kept_goOn) | with_reducible (apply kept_countEarly)
    | with_reducible (apply kept_setJob) | with_reducible (apply kept_setEng) | (intro) | (split)

theorem kept_reduceRound {x0 : Nat} (h : Kept a s) : Kept a (State.reduceRound s x0) := by
  unfold State.reduceRound
  repeat' first
    | with_reducible (exact Kept.refl _) | with_reducible (assumption) | simp only [Kept.lit] | with_reducible (apply kept_stageRound)
    | with_reducible (apply kept_endPart) | with_reducible (apply kept_round) | with_reducible (apply kept_partDone) | with_reducible (apply kept_goOn) | (intro)
    | (split) | with_reducible (apply Kept.foldl) | with_reducible (apply Kept.foldl_snd) | with_reducible (apply Kept.foldl_fst)

theorem kept_checkRound {x0 : Nat} (h : Kept a s) : Kept a (State.checkRound s x0) := by
  unfold State.checkRound
  repeat' first
    | with_reducible (exact Kept.refl _) | with_reducible (assumption) | simp only [Kept.lit] | with_reducible (apply kept_stageRound)
    | with_reducible (apply kept_endPart) | with_reducible (apply kept_goOn) | with_reducible (apply kept_round)
    | with_reducible (refine kept_takeCvu (by assumption) ?_) | with_reducible (apply kept_feedJob) | with_reducible (refine Kept.snd_of_eq (by assumption) ?_)
    | with_reducible (refine Kept.fst_of_eq (by assumption) ?_) | with_reducible (refine Kept.fst_of_eq3 (by assumption) ?_)
    | with_reducible (refine Kept.snd_of_eq3 (by assumption) ?_) | (intro) | (split)

theorem kept_compareRound {x0 : Nat} (h : Kept a s) : Kept a (State.compareRound s x0) := by
  unfold State.compareRound
  repeat' first
    | with_reducible (exact Kept.refl _) | with_reducible (assumption) | simp only [Kept.lit] | with_reducible (apply kept_stageRound)
    | with_reducible (apply kept_endPart) | with_reducible (apply kept_goOn) | with_reducible (apply kept_round) | (intro) | (split)

theorem kept_transposeRound {x0 : Nat} (h : Kept a s) : Kept a (State.transposeRound s x0) := by
  unfold State.transposeRound
  repeat' first
    | with_reducible (exact Kept.refl _) | with_reducible (assumption) | simp only [Kept.lit] | with_reducible (apply kept_round) | with_reducible (apply kept_goOn)
    | with_reducible (apply kept_endPart) | (intro) | (split)

theorem kept_atombRound {x0 : Nat} (h : Kept a s) : Kept a (State.atombRound s x0) := by
  unfold State.atombRound
  repeat' first
    | with_reducible (exact Kept.refl _) | with_reducible (assumption) | simp only [Kept.lit] | with_reducible (apply kept_round) | with_reducible (apply kept_endPart)
    | with_reducible (apply kept_goOn) | with_reducible (apply kept_stageFails) | with_reducible (apply kept_inc) | (intro) | (split)

theorem kept_fenceRound {x0 : Nat} (h : Kept a s) : Kept a (State.fenceRound s x0) := by
  unfold State.fenceRound
  repeat' first
    | with_reducible (exact Kept.refl _) | with_reducible (assumption) | simp only [Kept.lit] | with_reducible (apply kept_stageRound)
    | with_reducible (apply kept_stageDone) | (intro) | (split)

theorem kept_notifyRound {x0 : Nat} {x1 : Nat} (h : Kept a s) : Kept a (State.notifyRound s x0 x1) := by
  unfold State.notifyRound
  repeat' first
    | with_reducible (exact Kept.refl _) | with_reducible (assumption) | simp only [Kept.lit] | with_reducible (apply kept_round) | with_reducible (apply kept_emit)
    | with_reducible (apply kept_stageDone) | with_reducible (apply kept_goOn) | (intro) | (split)

theorem kept_dirtyscanRound {x0 : Nat} {x1 : Nat} (h : Kept a s) : Kept a (State.dirtyscanRound s x0 x1) := by
  unfold State.dirtyscanRound
  repeat' first
    | with_reducible (exact Kept.refl _) | with_reducible (assumption) | simp only [Kept.lit] | with_reducible (apply kept_round) | with_reducible (apply kept_endPart)
    | with_reducible (apply kept_goOn) | with_reducible (apply kept_injCheck) | with_reducible (apply kept_inc) | with_reducible (apply kept_stageFails)
    | with_reducible (apply kept_sets) | with_reducible (apply kept_saveCounters) | with_reducible (apply kept_setJob)
    | with_reducible (refine Kept.snd_of_eq (by assumption) ?_) | with_reducible (refine Kept.fst_of_eq (by assumption) ?_)
    | with_reducible (refine Kept.fst_of_eq3 (by assumption) ?_) | with_reducible (refine Kept.snd_of_eq3 (by assumption) ?_) | (intro) | (split)

theorem kept_granFeed {x0 : Job} {x1 : List (BitVec 8)} (h : Kept a s) : Kept a (State.granFeed s x0 x1).1 := by
  unfold State.granFeed
  repeat' first
    | with_reducible (exact Kept.refl _) | with_reducible (assumption) | simp only [Kept.lit] | with_reducible (apply kept_feedJob) | (intro) | (split)

theorem kept_dropCvu {x0 : Job} (h : Kept a s) : Kept a (State.dropCvu s x0).1 := by
  unfold State.dropCvu
  repeat' first
    | with_reducible (exact Kept.refl _) | with_reducible (assumption) | simp only [Kept.lit] | with_reducible (apply kept_releaseCvu)
    | with_reducible (apply kept_setJob) | (intro) | (split)

theorem kept_sendRound {x0 : Nat} (h : Kept a s) : Kept a (State.sendRound s x0) := by
  unfold State.sendRound
  repeat' first
    | with_reducible (exact Kept.refl _) | with_reducible (assumption) | simp only [Kept.lit] | with_reducible (apply kept_round) | with_reducible (apply kept_setEng)
    | with_reducible (apply kept_setJob) | with_reducible (apply kept_inc) | with_reducible (apply kept_stageFails) | with_reducible (apply kept_injCheck)
    | with_reducible (apply kept_stageDone) | with_reducible (refine kept_takeCvu (by assumption) ?_) | with_reducible (apply kept_goOn)
    | with_reducible (apply kept_granFeed) | with_reducible (apply kept_dropCvu) | with_reducible (apply kept_incPair) | with_reducible (apply kept_endPart)
    | with_reducible (refine Kept.snd_of_eq (by assumption) ?_) | with_reducible (refine Kept.fst_of_eq (by assumption) ?_)
    | with_reducible (refine Kept.fst_of_eq3 (by assumption) ?_) | with_reducible (refine Kept.snd_of_eq3 (by assumption) ?_) | (intro) | (split)

theorem kept_commitRound {x0 : Nat} (h : Kept a s) : Kept a (State.commitRound s x0) := by
  unfold State.commitRound
  repeat' first
    | with_reducible (exact Kept.refl _) | with_reducible (assumption) | simp only [Kept.lit] | with_reducible (apply kept_round)
    | with_reducible (refine kept_takeCvu (by assumption) ?_) | with_reducible (apply kept_goOn) | with_reducible (apply kept_granFeed)
    | with_reducible (apply kept_dropCvu) | with_reducible (apply kept_endPart) | with_reducible (apply kept_stageDone)
    | with_reducible (refine Kept.snd_of_eq (by assumption) ?_) | with_reducible (refine Kept.fst_of_eq (by assumption) ?_)
    | with_reducible (refine Kept.fst_of_eq3 (by assumption) ?_) | with_reducible (refine Kept.snd_of_eq3 (by assumption) ?_) | (intro) | (split)

theorem kept_verifyRound {x0 : Nat} (h : Kept a s) : Kept a (State.verifyRound s x0) := by
  unfold State.verifyRound
  repeat' first
    | with_reducible (exact Kept.refl _) | with_reducible (assumption) | simp only [Kept.lit] | with_reducible (apply kept_round) | with_reducible (apply kept_setEng)
    | with_reducible (apply kept_setJob) | with_reducible (apply kept_endPart) | with_reducible (apply kept_goOn)
    | with_reducible (refine kept_takeCvu (by assumption) ?_) | with_reducible (apply kept_granFeed) | with_reducible (apply kept_dropCvu)
    | with_reducible (refine Kept.snd_of_eq (by assumption) ?_) | with_reducible (refine Kept.fst_of_eq (by assumption) ?_)
    | with_reducible (refine Kept.fst_of_eq3 (by assumption) ?_) | with_reducible (refine Kept.snd_of_eq3 (by assumption) ?_) | (intro) | (split)

theorem kept_stageResult {x0 : Job} {x1 : Run} (h : Kept a s) : Kept a (State.stageResult s x0 x1).1 := by
  unfold State.stageResult
  repeat' first
    | with_reducible (exact Kept.refl _) | with_reducible (assumption) | simp only [Kept.lit] | with_reducible (apply kept_draw)
    | with_reducible (refine Kept.snd_of_eq (by assumption) ?_) | with_reducible (refine Kept.fst_of_eq (by assumption) ?_)
    | with_reducible (refine Kept.fst_of_eq3 (by assumption) ?_) | with_reducible (refine Kept.snd_of_eq3 (by assumption) ?_) | (intro) | (split)

theorem kept_settleStage {x0 : Job} {x1 : Run} (h : Kept a s) : Kept a (State.settleStage s x0 x1).1 := by
  unfold State.settleStage
  repeat' first
    | with_reducible (exact Kept.refl _) | with_reducible (assumption) | simp only [Kept.lit] | with_reducible (apply kept_stageResult)
    | with_reducible (refine Kept.snd_of_eq (by assumption) ?_) | with_reducible (refine Kept.fst_of_eq (by assumption) ?_)
    | with_reducible (refine Kept.fst_of_eq3 (by assumption) ?_) | with_reducible (refine Kept.snd_of_eq3 (by assumption) ?_) | (intro) | (split)

theorem kept_stageAdvance {x0 : Nat} (h : Kept a s) : Kept a (State.stageAdvance s x0) := by
  unfold State.stageAdvance
  repeat' first
    | with_reducible (exact Kept.refl _) | with_reducible (assumption) | simp only [Kept.lit] | with_reducible (apply kept_endTrap)
    | with_reducible (apply kept_settleStage) | with_reducible (apply kept_setJob) | with_reducible (apply kept_advance)
    | with_reducible (refine Kept.snd_of_eq (by assumption) ?_) | with_reducible (refine Kept.fst_of_eq (by assumption) ?_)
    | with_reducible (refine Kept.fst_of_eq3 (by assumption) ?_) | with_reducible (refine Kept.snd_of_eq3 (by assumption) ?_) | (intro) | (split)

/-! ## Reaction -/

theorem kept_freezeMarl (h : Kept a s) : Kept a s.freezeMarl := by
  unfold State.freezeMarl
  split
  · exact h
  · exact h.lines rfl rfl rfl rfl rfl fun hm => rising_map hm _ fun _ => rfl

theorem kept_stopHeartbeats (h : Kept a s) : Kept a (State.stopHeartbeats s) := by
  unfold State.stopHeartbeats
  repeat' first
    | with_reducible (exact Kept.refl _) | with_reducible (assumption) | simp only [Kept.lit] | with_reducible (apply kept_channelSr) | with_reducible (apply Kept.each)
    | (intro) | (split)

theorem kept_closeAll (h : Kept a s) : Kept a (State.closeAll s) := by
  unfold State.closeAll
  repeat' first
    | with_reducible (exact Kept.refl _) | with_reducible (assumption) | simp only [Kept.lit] | with_reducible (apply kept_sets) | with_reducible (apply kept_incBy)
    | (intro) | (split)

theorem kept_squelchAll (h : Kept a s) : Kept a (State.squelchAll s) := by
  unfold State.squelchAll
  repeat' first
    | with_reducible (exact Kept.refl _) | with_reducible (assumption) | simp only [Kept.lit] | with_reducible (apply kept_closeAll) | (intro) | (split)

theorem kept_dropTraffic (h : Kept a s) : Kept a (State.dropTraffic s) := by
  unfold State.dropTraffic
  repeat' first
    | with_reducible (exact Kept.refl _) | with_reducible (assumption) | simp only [Kept.lit] | (intro) | (split)

theorem kept_force {x0 : Option Fld} (h : Kept a s) : Kept a (State.force s x0) := by
  unfold State.force
  repeat' first
    | with_reducible (exact Kept.refl _) | with_reducible (assumption) | simp only [Kept.lit] | with_reducible (apply kept_stopHeartbeats)
    | with_reducible (apply kept_freezeMarl) | with_reducible (apply kept_squelchAll) | with_reducible (apply kept_dropTraffic) | with_reducible (apply kept_sets)
    | (intro) | (split)

theorem kept_enterGrave (h : Kept a s) : Kept a (State.enterGrave s) := by
  unfold State.enterGrave
  repeat' first
    | with_reducible (exact Kept.refl _) | with_reducible (assumption) | simp only [Kept.lit] | with_reducible (apply kept_force) | (intro) | (split)

theorem kept_startTimers (h : Kept a s) : Kept a (State.startTimers s) := by
  unfold State.startTimers
  repeat' first
    | with_reducible (exact Kept.refl _) | with_reducible (assumption) | simp only [Kept.lit] | (intro) | (split)

theorem kept_sleepAnswer {x0 : Asker} {x1 : BitVec 8} (h : Kept a s) : Kept a (State.sleepAnswer s x0 x1) := by
  unfold State.sleepAnswer
  repeat' first
    | with_reducible (exact Kept.refl _) | with_reducible (assumption) | simp only [Kept.lit] | with_reducible (apply kept_mgmtRefuse)
    | with_reducible (apply kept_mgmtDone) | with_reducible (apply kept_viol) | with_reducible (apply kept_payOwed) | with_reducible (apply Kept.each) | (intro)
    | (split)

theorem kept_abandonEntry {x0 : SleepEntry} (h : Kept a s) : Kept a (State.abandonEntry s x0) := by
  unfold State.abandonEntry
  repeat' first
    | with_reducible (exact Kept.refl _) | with_reducible (assumption) | simp only [Kept.lit] | with_reducible (apply kept_sets)
    | with_reducible (apply kept_sleepAnswer)

theorem kept_awoken (h : Kept a s) : Kept a (State.awoken s) := by
  unfold State.awoken
  repeat' first
    | with_reducible (exact Kept.refl _) | with_reducible (assumption) | simp only [Kept.lit] | with_reducible (apply kept_sets) | with_reducible (apply kept_incSat)
    | with_reducible (apply kept_startTimers) | (intro) | (split)

theorem kept_channelUp {x0 : Nat} (h : Kept a s) : Kept a (State.channelUp s x0) := by
  unfold State.channelUp
  repeat' first
    | with_reducible (exact Kept.refl _) | with_reducible (assumption) | simp only [Kept.lit] | with_reducible (apply kept_set) | (intro) | (split)

theorem kept_channelsUp (h : Kept a s) : Kept a (State.channelsUp s) := by
  unfold State.channelsUp
  repeat' first
    | with_reducible (exact Kept.refl _) | with_reducible (assumption) | simp only [Kept.lit] | with_reducible (apply kept_channelUp) | with_reducible (apply Kept.each)
    | (intro) | (split)

theorem kept_wakeS2 (h : Kept a s) : Kept a (State.wakeS2 s) := by
  unfold State.wakeS2
  repeat' first
    | with_reducible (exact Kept.refl _) | with_reducible (assumption) | simp only [Kept.lit] | with_reducible (apply kept_channelsUp)
    | with_reducible (apply kept_awoken)

theorem kept_clockStart (h : Kept a s) : Kept a (State.clockStart s) := by
  unfold State.clockStart
  repeat' first
    | with_reducible (exact Kept.refl _) | with_reducible (assumption) | simp only [Kept.lit] | with_reducible (apply kept_sets) | (intro) | (split)

theorem kept_wake {x0 : Nat} (h : Kept a s) : Kept a (State.wake s x0) := by
  unfold State.wake
  repeat' first
    | with_reducible (exact Kept.refl _) | with_reducible (assumption) | simp only [Kept.lit] | with_reducible (apply kept_abandonEntry)
    | with_reducible (apply kept_set) | with_reducible (apply kept_wakeS2) | with_reducible (apply kept_clockStart) | (intro) | (split)

theorem kept_sleepStep2 (h : Kept a s) : Kept a (State.sleepStep2 s) := by
  unfold State.sleepStep2
  repeat' first
    | with_reducible (exact Kept.refl _) | with_reducible (assumption) | simp only [Kept.lit] | with_reducible (apply kept_sleepAnswer) | (intro) | (split)

theorem kept_settle (h : Kept a s) : Kept a (State.settle s) := by
  unfold State.settle
  repeat' first
    | with_reducible (exact Kept.refl _) | with_reducible (assumption) | simp only [Kept.lit] | with_reducible (apply kept_wake) | with_reducible (apply kept_sleepStep2)
    | with_reducible (apply kept_enterGrave) | (intro) | (split)

theorem kept_raise {x0 : FltCause} {x1 : Nat} {x2 : Nat} {x3 : Bool} (h : Kept a s) : Kept a (State.raise s x0 x1 x2 x3) := by
  unfold State.raise
  repeat' first
    | with_reducible (exact Kept.refl _) | with_reducible (assumption) | simp only [Kept.lit] | with_reducible (apply kept_raiseRec) | with_reducible (apply kept_settle)

theorem kept_portClear {x0 : Nat} (h : Kept a s) : Kept a (State.portClear s x0) := by
  unfold State.portClear
  repeat' first
    | with_reducible (exact Kept.refl _) | with_reducible (assumption) | simp only [Kept.lit] | with_reducible (apply kept_linkDown)
    | with_reducible (apply kept_setLane) | with_reducible (apply kept_setReg) | with_reducible (apply Kept.each) | (intro) | (split)

theorem kept_portReset {x0 : Nat} (h : Kept a s) : Kept a (State.portReset s x0) := by
  unfold State.portReset
  repeat' first
    | with_reducible (exact Kept.refl _) | with_reducible (assumption) | simp only [Kept.lit] | with_reducible (apply kept_portClear)
    | with_reducible (apply kept_checkPort) | (intro) | (split)

theorem kept_contain {x0 : Nat} {x1 : Nat} (h : Kept a s) : Kept a (State.contain s x0 x1) := by
  unfold State.contain
  repeat' first
    | with_reducible (exact Kept.refl _) | with_reducible (assumption) | simp only [Kept.lit] | with_reducible (apply kept_portReset)
    | with_reducible (apply kept_putEng) | with_reducible (apply Kept.each) | (intro) | (split)

theorem kept_degrade {x0 : Nat} (h : Kept a s) : Kept a (State.degrade s x0) := by
  unfold State.degrade
  repeat' first
    | with_reducible (exact Kept.refl _) | with_reducible (assumption) | simp only [Kept.lit] | with_reducible (apply kept_offEng) | (intro) | (split)

/-! ## FaultCmds -/

theorem kept_fltAck {x0 : Nat} {x1 : BitVec 8} {x2 : Nat} (h : Kept a s) : Kept a (State.fltAck s x0 x1 x2).2 := by
  unfold State.fltAck
  repeat' first
    | with_reducible (exact Kept.refl _) | with_reducible (assumption) | simp only [Kept.lit] | with_reducible (apply kept_setRec) | with_reducible (apply kept_faultRec)
    | (intro) | (split)

theorem kept_fltAckWrite {x0 : Path} {x1 : Nat} (h : Kept a s) : Kept a (State.fltAckWrite s x0 x1).2 := by
  unfold State.fltAckWrite
  repeat' first
    | with_reducible (exact Kept.refl _) | with_reducible (assumption) | simp only [Kept.lit] | with_reducible (apply kept_viol) | with_reducible (apply kept_fltAck)
    | with_reducible (refine Kept.snd_of_eq (by assumption) ?_) | with_reducible (refine Kept.fst_of_eq (by assumption) ?_)
    | with_reducible (refine Kept.fst_of_eq3 (by assumption) ?_) | with_reducible (refine Kept.snd_of_eq3 (by assumption) ?_) | (intro) | (split)

theorem kept_noteAck {x0 : BitVec 8} (h : Kept a s) : Kept a (State.noteAck s x0) := by
  unfold State.noteAck
  repeat' first
    | with_reducible (exact Kept.refl _) | with_reducible (assumption) | simp only [Kept.lit] | with_reducible (apply kept_sets)

theorem kept_fltAckOp {x0 : Mgmt} (h : Kept a s) : Kept a (State.fltAckOp s x0) := by
  unfold State.fltAckOp
  repeat' first
    | with_reducible (exact Kept.refl _) | with_reducible (assumption) | simp only [Kept.lit] | with_reducible (apply kept_mgmtRefuse)
    | with_reducible (apply kept_fltAck) | with_reducible (apply kept_mgmtDone) | with_reducible (apply kept_viol)
    | with_reducible (refine Kept.snd_of_eq (by assumption) ?_) | with_reducible (refine Kept.fst_of_eq (by assumption) ?_)
    | with_reducible (refine Kept.fst_of_eq3 (by assumption) ?_) | with_reducible (refine Kept.snd_of_eq3 (by assumption) ?_) | (intro) | (split)

theorem kept_escalate {x0 : FltCause} {x1 : FltClass} {x2 : Nat} {x3 : Bool} (h : Kept a s) : Kept a (State.escalate s x0 x1 x2 x3) := by
  unfold State.escalate
  repeat' first
    | with_reducible (exact Kept.refl _) | with_reducible (assumption) | simp only [Kept.lit] | with_reducible (apply kept_fltMerge)
    | with_reducible (apply kept_recChanged) | with_reducible (apply kept_settle) | (intro) | (split)

theorem kept_inject {x0 : Nat} {x1 : Nat} {x2 : Nat} {x3 : Bool} (h : Kept a s) : Kept a (State.inject s x0 x1 x2 x3).2 := by
  unfold State.inject
  repeat' first
    | with_reducible (exact Kept.refl _) | with_reducible (assumption) | simp only [Kept.lit] | with_reducible (apply kept_sets) | (intro) | (split)

theorem kept_fltInjDo {x0 : Nat} (h : Kept a s) : Kept a (State.fltInjDo s x0).2 := by
  unfold State.fltInjDo
  repeat' first
    | with_reducible (exact Kept.refl _) | with_reducible (assumption) | simp only [Kept.lit] | with_reducible (apply kept_inject) | with_reducible (apply kept_viol)
    | with_reducible (refine Kept.snd_of_eq (by assumption) ?_) | with_reducible (refine Kept.fst_of_eq (by assumption) ?_)
    | with_reducible (refine Kept.fst_of_eq3 (by assumption) ?_) | with_reducible (refine Kept.snd_of_eq3 (by assumption) ?_) | (intro) | (split)

theorem kept_noteInj {x0 : BitVec 8} (h : Kept a s) : Kept a (State.noteInj s x0) := by
  unfold State.noteInj
  repeat' first
    | with_reducible (exact Kept.refl _) | with_reducible (assumption) | simp only [Kept.lit] | with_reducible (apply kept_set)

/-! ## Thermal -/

theorem kept_setSensor {x0 : Nat} {x1 : Sensor} (h : Kept a s) : Kept a (State.setSensor s x0 x1) := by
  unfold State.setSensor
  repeat' first
    | with_reducible (exact Kept.refl _) | with_reducible (assumption) | simp only [Kept.lit]

theorem kept_setDie {x0 : Nat} {x1 : Die} (h : Kept a s) : Kept a (State.setDie s x0 x1) := by
  unfold State.setDie
  repeat' first
    | with_reducible (exact Kept.refl _) | with_reducible (assumption) | simp only [Kept.lit]

theorem kept_setFraction {x0 : Nat} {x1 : Nat} (h : Kept a s) : Kept a (State.setFraction s x0 x1) := by
  unfold State.setFraction
  repeat' first
    | with_reducible (exact Kept.refl _) | with_reducible (assumption) | simp only [Kept.lit] | with_reducible (apply kept_setDie) | with_reducible (apply kept_event)
    | (intro) | (split)

theorem kept_setLimits {x0 : Nat} {x1 : Nat} {x2 : Nat} (h : Kept a s) : Kept a (State.setLimits s x0 x1 x2) := by
  unfold State.setLimits
  repeat' first
    | with_reducible (exact Kept.refl _) | with_reducible (assumption) | simp only [Kept.lit] | with_reducible (apply kept_sets) | with_reducible (apply kept_event)
    | (intro) | (split)

end Sys2Proof.Laws
end

