-- ==== Sys2Proof/Laws/KeptUnits.lean ====
section
/-! SUPPORT. What the operations of fuses, clocks, markers, packets, the Marl, regulation, patrols, firmware and self-test keep (`Kept`): one lemma for each. -/

namespace Sys2Proof.Laws

set_option Elab.async false

set_option linter.all false

open Sys2Proof Sys2Proof.Machine

variable {a s : State}

/-! ## FuseStore -/

theorem kept_driftRows (h : Kept a s) : Kept a (State.driftRows s) :=
  Kept.each h fun _ _ _ hu => (Kept.drawn (n := 3) hu).of_eq rfl rfl rfl rfl rfl rfl

theorem kept_senseFuses (h : Kept a s) : Kept a (State.senseFuses s) := by
  unfold State.senseFuses
  repeat' first
    | with_reducible (exact Kept.refl _) | with_reducible (assumption) | simp only [Kept.lit] | with_reducible (apply kept_driftRows) | with_reducible (apply kept_sets)
    | (intro) | (split) | with_reducible (apply Kept.foldl) | with_reducible (apply Kept.foldl_snd) | with_reducible (apply Kept.foldl_fst)

theorem kept_fuseEvents (h : Kept a s) : Kept a (State.fuseEvents s) := by
  unfold State.fuseEvents
  repeat' first
    | with_reducible (exact Kept.refl _) | with_reducible (assumption) | simp only [Kept.lit] | with_reducible (apply kept_event) | with_reducible (apply Kept.each)
    | (intro) | (split)

theorem kept_fuseFaults (h : Kept a s) : Kept a (State.fuseFaults s) := by
  unfold State.fuseFaults
  repeat' first
    | with_reducible (exact Kept.refl _) | with_reducible (assumption) | simp only [Kept.lit] | with_reducible (apply kept_raiseRec) | with_reducible (apply Kept.each)
    | (intro) | (split)

theorem kept_otpEnd {x0 : Nat} {x1 : Nat} (h : Kept a s) : Kept a (State.otpEnd s x0 x1) := by
  unfold State.otpEnd
  repeat' first
    | with_reducible (exact Kept.refl _) | with_reducible (assumption) | simp only [Kept.lit] | with_reducible (apply kept_sets)

theorem kept_blow {x0 : Nat} {x1 : BitVec 128} {x2 : BitVec 128} {x3 : BitVec 128} {x4 : BitVec 128} {x5 : BitVec 128} {x6 : BitVec 128} (h : Kept a s) : Kept a (State.blow s x0 x1 x2 x3 x4 x5 x6) := by
  unfold State.blow
  repeat' first
    | with_reducible (exact Kept.refl _) | with_reducible (assumption) | simp only [Kept.lit] | (intro) | (split)

theorem kept_blowPart {x0 : Nat} {x1 : BitVec 128} (h : Kept a s) : Kept a (State.blowPart s x0 x1) := by
  unfold State.blowPart
  repeat' first
    | with_reducible (exact Kept.refl _) | with_reducible (assumption) | simp only [Kept.lit] | with_reducible (apply kept_blow) | (intro) | (split)
    | with_reducible (apply Kept.drawn)

theorem kept_toppedUp {x0 : Nat} {x1 : Nat} {x2 : Nat} (h : Kept a s) : Kept a (State.toppedUp s x0 x1 x2) := by
  unfold State.toppedUp
  repeat' first
    | with_reducible (exact Kept.refl _) | with_reducible (assumption) | simp only [Kept.lit] | with_reducible (apply kept_event)

theorem kept_otpCut (h : Kept a s) : Kept a (State.otpCut s) := by
  unfold State.otpCut
  repeat' first
    | with_reducible (exact Kept.refl _) | with_reducible (assumption) | simp only [Kept.lit] | with_reducible (apply kept_toppedUp)
    | with_reducible (apply kept_blowPart) | (intro) | (split)

theorem kept_closeWindow {x0 : Bool} (h : Kept a s) : Kept a (State.closeWindow s x0) := by
  unfold State.closeWindow
  repeat' first
    | with_reducible (exact Kept.refl _) | with_reducible (assumption) | simp only [Kept.lit] | with_reducible (apply kept_set) | with_reducible (apply kept_otpCut)
    | with_reducible (apply kept_otpEnd) | (intro) | (split)

theorem kept_otpWrite {x0 : Nat} (h : Kept a s) : Kept a (State.otpWrite s x0).2 := by
  unfold State.otpWrite
  repeat' first
    | with_reducible (exact Kept.refl _) | with_reducible (assumption) | simp only [Kept.lit] | with_reducible (apply kept_viol)
    | with_reducible (apply kept_closeWindow) | with_reducible (apply kept_set) | with_reducible (apply kept_otpEnd) | (intro) | (split)
    | with_reducible (apply Kept.foldl) | with_reducible (apply Kept.foldl_snd) | with_reducible (apply Kept.foldl_fst)

/-! ## Vertical -/

theorem kept_recalDue {x0 : Nat} (h : Kept a s) : Kept a (State.recalDue s x0) := by
  unfold State.recalDue
  repeat' first
    | with_reducible (exact Kept.refl _) | with_reducible (assumption) | simp only [Kept.lit] | with_reducible (apply kept_setCol) | (intro) | (split)

theorem kept_clearHbLost {x0 : Nat} (h : Kept a s) : Kept a (State.clearHbLost s x0) := by
  unfold State.clearHbLost
  repeat' first
    | with_reducible (exact Kept.refl _) | with_reducible (assumption) | simp only [Kept.lit] | with_reducible (apply kept_set) | (intro) | (split)

theorem kept_setLyrLock {x0 : Nat} {x1 : Bool} (h : Kept a s) : Kept a (State.setLyrLock s x0 x1) := by
  unfold State.setLyrLock
  repeat' first
    | with_reducible (exact Kept.refl _) | with_reducible (assumption) | simp only [Kept.lit] | with_reducible (apply kept_sets)

theorem kept_silence {x0 : Nat} {x1 : Bool} (h : Kept a s) : Kept a (State.silence s x0 x1) := by
  unfold State.silence
  repeat' first
    | with_reducible (exact Kept.refl _) | with_reducible (assumption) | simp only [Kept.lit] | with_reducible (apply kept_setLyrLock)
    | with_reducible (apply kept_setChn) | with_reducible (apply kept_set) | with_reducible (apply kept_raise) | with_reducible (apply Kept.each) | (intro) | (split)

/-! ## ThermalCmds -/

theorem kept_judgeSensor {x0 : Nat} {x1 : Bool} (h : Kept a s) : Kept a (State.judgeSensor s x0 x1) := by
  unfold State.judgeSensor
  repeat' first
    | with_reducible (exact Kept.refl _) | with_reducible (assumption) | simp only [Kept.lit] | with_reducible (apply kept_setSensor) | (intro) | (split)

theorem kept_settleSensor {x0 : Nat} (h : Kept a s) : Kept a (State.settleSensor s x0) := by
  unfold State.settleSensor
  repeat' first
    | with_reducible (exact Kept.refl _) | with_reducible (assumption) | simp only [Kept.lit] | with_reducible (apply kept_setSensor) | (intro) | (split)

theorem kept_sensorBroke {x0 : Nat} {x1 : Int} (h : Kept a s) : Kept a (State.sensorBroke s x0 x1) := by
  unfold State.sensorBroke
  repeat' first
    | with_reducible (exact Kept.refl _) | with_reducible (assumption) | simp only [Kept.lit] | with_reducible (apply kept_inc) | with_reducible (apply kept_event)
    | with_reducible (apply kept_raiseRec)

theorem kept_trip {x0 : Nat} (h : Kept a s) : Kept a (State.trip s x0) := by
  unfold State.trip
  repeat' first
    | with_reducible (exact Kept.refl _) | with_reducible (assumption) | simp only [Kept.lit] | with_reducible (apply kept_raiseRec)
    | with_reducible (apply kept_enterGrave) | (intro) | (split)

theorem kept_critDie {x0 : Nat} (h : Kept a s) : Kept a (State.critDie s x0) := by
  unfold State.critDie
  repeat' first
    | with_reducible (exact Kept.refl _) | with_reducible (assumption) | simp only [Kept.lit] | with_reducible (apply kept_setDie) | with_reducible (apply kept_inc)
    | (intro) | (split)

theorem kept_rearm {x0 : Bool} {x1 : Int → Bool} {x2 : Int → Bool} {x3 : State → Nat → State} (hx3 : ∀ a u0 u1, Kept a u0 → Kept a (x3 u0 u1)) (h : Kept a s) : Kept a (State.rearm s x0 x1 x2 x3).2 := by
  unfold State.rearm
  repeat' first
    | with_reducible (exact Kept.refl _) | with_reducible (assumption) | simp only [Kept.lit] | with_reducible (apply hx3) | (intro) | (split)

theorem kept_thresholds (h : Kept a s) : Kept a (State.thresholds s) := by
  unfold State.thresholds
  repeat' first
    | with_reducible (exact Kept.refl _) | with_reducible (assumption) | simp only [Kept.lit] | with_reducible (apply kept_critDie) | with_reducible (apply kept_rearm)
    | with_reducible (apply kept_raiseRec) | with_reducible (apply kept_recalDue) | with_reducible (apply Kept.each)
    | with_reducible (refine Kept.snd_of_eq (by assumption) ?_) | with_reducible (refine Kept.fst_of_eq (by assumption) ?_)
    | with_reducible (refine Kept.fst_of_eq3 (by assumption) ?_) | with_reducible (refine Kept.snd_of_eq3 (by assumption) ?_) | (intro) | (split)

theorem kept_throttleDown (h : Kept a s) : Kept a (State.throttleDown s) := by
  unfold State.throttleDown
  repeat' first
    | with_reducible (exact Kept.refl _) | with_reducible (assumption) | simp only [Kept.lit] | with_reducible (apply kept_setFraction)
    | with_reducible (apply Kept.each) | (intro) | (split)

theorem kept_recalMoved {x0 : Nat} (h : Kept a s) : Kept a (State.recalMoved s x0) := by
  unfold State.recalMoved
  repeat' first
    | with_reducible (exact Kept.refl _) | with_reducible (assumption) | simp only [Kept.lit] | with_reducible (apply kept_recalDue) | (intro) | (split)

/-! ## RecorderCmds -/

theorem kept_freezeNow (h : Kept a s) : Kept a (State.freezeNow s) := by
  unfold State.freezeNow
  repeat' first
    | with_reducible (exact Kept.refl _) | with_reducible (assumption) | simp only [Kept.lit] | with_reducible (apply kept_mgmtDone) | with_reducible (apply Kept.each)
    | (intro) | (split)

theorem kept_checkFreeze (h : Kept a s) : Kept a (State.checkFreeze s) := by
  unfold State.checkFreeze
  repeat' first
    | with_reducible (exact Kept.refl _) | with_reducible (assumption) | simp only [Kept.lit] | with_reducible (apply kept_freezeNow) | (intro) | (split)

theorem kept_startFreeze {x0 : Bool} {t : State} (e : State.startFreeze s x0 = some t) (h : Kept a s) : Kept a t := by
  unfold State.startFreeze at e
  try dsimp only at e
  repeat' split at e
  all_goals first | (obtain rfl := Option.some.inj e) | cases e | skip
  repeat' first
    | with_reducible (exact Kept.refl _) | with_reducible (assumption) | simp only [Kept.lit] | with_reducible (apply kept_checkFreeze) | (intro) | (split)

theorem kept_thawNow (h : Kept a s) : Kept a (State.thawNow s) := by
  unfold State.thawNow
  repeat' first
    | with_reducible (exact Kept.refl _) | with_reducible (assumption) | simp only [Kept.lit] | with_reducible (apply kept_enqueue)
    | with_reducible (apply kept_recorderRec) | with_reducible (apply Kept.each) | with_reducible (refine Kept.snd_of_eq (by assumption) ?_)
    | with_reducible (refine Kept.fst_of_eq (by assumption) ?_) | with_reducible (refine Kept.fst_of_eq3 (by assumption) ?_)
    | with_reducible (refine Kept.snd_of_eq3 (by assumption) ?_) | (intro) | (split)

theorem kept_recFreezeOp {x0 : Mgmt} (h : Kept a s) : Kept a (State.recFreezeOp s x0) := by
  unfold State.recFreezeOp
  repeat' first
    | with_reducible (exact Kept.refl _) | with_reducible (assumption) | simp only [Kept.lit] | with_reducible (apply kept_mgmtRefuse)
    | with_reducible (refine kept_startFreeze (by assumption) ?_) | with_reducible (apply kept_thawNow) | with_reducible (apply kept_mgmtDone)
    | with_reducible (refine Kept.snd_of_eq (by assumption) ?_) | with_reducible (refine Kept.fst_of_eq (by assumption) ?_)
    | with_reducible (refine Kept.fst_of_eq3 (by assumption) ?_) | with_reducible (refine Kept.snd_of_eq3 (by assumption) ?_) | (intro) | (split)

theorem kept_recCtlWrite {x0 : Path} {x1 : Nat} (h : Kept a s) : Kept a (State.recCtlWrite s x0 x1).2 := by
  unfold State.recCtlWrite
  repeat' first
    | with_reducible (exact Kept.refl _) | with_reducible (assumption) | simp only [Kept.lit] | with_reducible (apply kept_viol)
    | with_reducible (refine kept_startFreeze (by assumption) ?_) | with_reducible (apply kept_thawNow) | with_reducible (refine Kept.snd_of_eq (by assumption) ?_)
    | with_reducible (refine Kept.fst_of_eq (by assumption) ?_) | with_reducible (refine Kept.fst_of_eq3 (by assumption) ?_)
    | with_reducible (refine Kept.snd_of_eq3 (by assumption) ?_) | (intro) | (split)

theorem kept_settFail {x0 : Nat} {x1 : Nat} (h : Kept a s) : Kept a (State.settFail s x0 x1) := by
  unfold State.settFail
  repeat' first
    | with_reducible (exact Kept.refl _) | with_reducible (assumption) | simp only [Kept.lit] | with_reducible (apply kept_raiseRec) | with_reducible (apply Kept.each)
    | (intro) | (split)

theorem kept_putMgmt {x0 : Mgmt} (h : Kept a s) : Kept a (State.putMgmt s x0) := by
  unfold State.putMgmt
  repeat' first
    | with_reducible (exact Kept.refl _) | with_reducible (assumption) | simp only [Kept.lit] | (intro) | (split)

theorem kept_recReadSend {x0 : Mgmt} (h : Kept a s) : Kept a (State.recReadSend s x0) := by
  unfold State.recReadSend
  repeat' first
    | with_reducible (exact Kept.refl _) | with_reducible (assumption) | simp only [Kept.lit] | with_reducible (apply kept_mgmtDone)
    | with_reducible (apply kept_sendOwn) | (intro) | (split)

theorem kept_recReadAnswered {x0 : Nat} {x1 : BitVec 8} (h : Kept a s) : Kept a (State.recReadAnswered s x0 x1) := by
  unfold State.recReadAnswered
  repeat' first
    | with_reducible (exact Kept.refl _) | with_reducible (assumption) | simp only [Kept.lit] | with_reducible (apply kept_putMgmt)
    | with_reducible (apply kept_recReadSend) | with_reducible (apply kept_mgmtDone) | (intro) | (split)

theorem kept_telemDrop (h : Kept a s) : Kept a (State.telemDrop s) := by
  unfold State.telemDrop
  repeat' first
    | with_reducible (exact Kept.refl _) | with_reducible (assumption) | simp only [Kept.lit] | with_reducible (apply kept_inc) | with_reducible (apply kept_incPair)

/-! ## Clocks -/

theorem kept_setStep {x0 : Nat} (h : Kept a s) : Kept a (State.setStep s x0) := by
  unfold State.setStep
  repeat' first
    | with_reducible (exact Kept.refl _) | with_reducible (assumption) | simp only [Kept.lit]

theorem kept_mgtFrom {x0 : Nat} (h : Kept a s) : Kept a (State.mgtFrom s x0) := by
  unfold State.mgtFrom
  repeat' first
    | with_reducible (exact Kept.refl _) | with_reducible (assumption) | simp only [Kept.lit] | with_reducible (apply kept_set) | with_reducible (apply kept_setStep)
    | (intro) | (split)

theorem kept_switchMgt {x0 : Nat} (h : Kept a s) : Kept a (State.switchMgt s x0) := by
  unfold State.switchMgt
  repeat' first
    | with_reducible (exact Kept.refl _) | with_reducible (assumption) | simp only [Kept.lit] | with_reducible (apply kept_mgtFrom) | (intro) | (split)

theorem kept_fallBack (h : Kept a s) : Kept a (State.fallBack s) := by
  unfold State.fallBack
  repeat' first
    | with_reducible (exact Kept.refl _) | with_reducible (assumption) | simp only [Kept.lit] | with_reducible (apply kept_switchMgt) | with_reducible (apply kept_set)
    | (intro) | (split)

theorem kept_cancelSwitch (h : Kept a s) : Kept a (State.cancelSwitch s) := by
  unfold State.cancelSwitch
  repeat' first
    | with_reducible (exact Kept.refl _) | with_reducible (assumption) | simp only [Kept.lit] | with_reducible (apply kept_set) | with_reducible (apply kept_fallBack)
    | (intro) | (split)

theorem kept_retryFrc (h : Kept a s) : Kept a (State.retryFrc s) := by
  unfold State.retryFrc
  repeat' first
    | with_reducible (exact Kept.refl _) | with_reducible (assumption) | simp only [Kept.lit] | (intro) | (split)

theorem kept_clockLost {x0 : Fld} (h : Kept a s) : Kept a (State.clockLost s x0) := by
  unfold State.clockLost
  repeat' first
    | with_reducible (exact Kept.refl _) | with_reducible (assumption) | simp only [Kept.lit] | with_reducible (apply kept_force) | with_reducible (apply kept_fallBack)
    | with_reducible (apply kept_retryFrc) | with_reducible (apply kept_raiseRec) | with_reducible (apply kept_enterGrave) | with_reducible (apply kept_settle) | (intro)
    | (split)

theorem kept_setActive {x0 : Bool} (h : Kept a s) : Kept a (State.setActive s x0) := by
  unfold State.setActive
  repeat' first
    | with_reducible (exact Kept.refl _) | with_reducible (assumption) | simp only [Kept.lit] | with_reducible (apply kept_set)

theorem kept_refFail {x0 : Bool} (h : Kept a s) : Kept a (State.refFail s x0) := by
  unfold State.refFail
  repeat' first
    | with_reducible (exact Kept.refl _) | with_reducible (assumption) | simp only [Kept.lit] | with_reducible (apply kept_set) | with_reducible (apply kept_sets)
    | with_reducible (apply kept_cancelSwitch) | with_reducible (apply kept_raise) | with_reducible (apply kept_setActive) | with_reducible (apply kept_inc) | (intro)
    | (split)

theorem kept_qualify {x0 : Bool} {x1 : Nat} (h : Kept a s) : Kept a (State.qualify s x0 x1) := by
  unfold State.qualify
  repeat' first
    | with_reducible (exact Kept.refl _) | with_reducible (assumption) | simp only [Kept.lit] | with_reducible (apply kept_sets)

theorem kept_xtalDone {x0 : Bool} (h : Kept a s) : Kept a (State.xtalDone s x0) := by
  unfold State.xtalDone
  repeat' first
    | with_reducible (exact Kept.refl _) | with_reducible (assumption) | simp only [Kept.lit] | with_reducible (apply kept_set) | (intro) | (split)

theorem kept_refWindow {x0 : Bool} {x1 : Nat} {x2 : Nat} (h : Kept a s) : Kept a (State.refWindow s x0 x1 x2) := by
  unfold State.refWindow
  repeat' first
    | with_reducible (exact Kept.refl _) | with_reducible (assumption) | simp only [Kept.lit] | with_reducible (apply kept_set) | with_reducible (apply kept_refFail)
    | with_reducible (apply kept_qualify) | with_reducible (apply kept_xtalDone) | (intro) | (split)

theorem kept_endHoldover {x0 : Nat} {x1 : Bool} (h : Kept a s) : Kept a (State.endHoldover s x0 x1) := by
  unfold State.endHoldover
  repeat' first
    | with_reducible (exact Kept.refl _) | with_reducible (assumption) | simp only [Kept.lit] | with_reducible (apply kept_setActive) | with_reducible (apply kept_inc)
    | with_reducible (apply kept_raise)

theorem kept_pickRef (h : Kept a s) : Kept a (State.pickRef s) := by
  unfold State.pickRef
  repeat' first
    | with_reducible (exact Kept.refl _) | with_reducible (assumption) | simp only [Kept.lit] | with_reducible (apply kept_setActive)
    | with_reducible (apply kept_endHoldover) | with_reducible (apply kept_inc) | (intro) | (split)

theorem kept_foxRelocked (h : Kept a s) : Kept a (State.foxRelocked s) := by
  unfold State.foxRelocked
  repeat' first
    | with_reducible (exact Kept.refl _) | with_reducible (assumption) | simp only [Kept.lit] | with_reducible (apply kept_set) | with_reducible (apply kept_putEng)
    | with_reducible (apply Kept.each) | (intro) | (split)

theorem kept_lockPll {x0 : Fld} (h : Kept a s) : Kept a (State.lockPll s x0) := by
  unfold State.lockPll
  repeat' first
    | with_reducible (exact Kept.refl _) | with_reducible (assumption) | simp only [Kept.lit] | with_reducible (apply kept_set) | (intro) | (split)

theorem kept_refCfgWrite {x0 : Nat} (h : Kept a s) : Kept a (State.refCfgWrite s x0).2 := by
  unfold State.refCfgWrite
  repeat' first
    | with_reducible (exact Kept.refl _) | with_reducible (assumption) | simp only [Kept.lit] | with_reducible (apply kept_viol) | with_reducible (apply kept_setReg)
    | with_reducible (apply kept_sets) | with_reducible (apply kept_set) | with_reducible (apply kept_setActive) | with_reducible (apply kept_inc)
    | with_reducible (apply kept_pickRef) | (intro) | (split)

theorem kept_gateWrite {x0 : Nat} {x1 : Nat} {x2 : Nat} (h : Kept a s) : Kept a (State.gateWrite s x0 x1 x2).2 := by
  unfold State.gateWrite
  repeat' first
    | with_reducible (exact Kept.refl _) | with_reducible (assumption) | simp only [Kept.lit] | with_reducible (apply kept_set) | with_reducible (apply kept_viol)
    | with_reducible (apply kept_setReg) | (intro) | (split)

/-! ## LinkCmds -/

theorem kept_recordPartner {x0 : Nat} {x1 : Nat} {x2 : List (BitVec 8)} (h : Kept a s) : Kept a (State.recordPartner s x0 x1 x2) := by
  unfold State.recordPartner
  repeat' first
    | with_reducible (exact Kept.refl _) | with_reducible (assumption) | simp only [Kept.lit] | with_reducible (apply kept_setLink) | with_reducible (apply kept_sets)
    | (intro) | (split)

theorem kept_unstable {x0 : Nat} {x1 : Nat} (h : Kept a s) : Kept a (State.unstable s x0 x1) := by
  unfold State.unstable
  repeat' first
    | with_reducible (exact Kept.refl _) | with_reducible (assumption) | simp only [Kept.lit] | with_reducible (apply kept_setLane) | with_reducible (apply Kept.each)
    | (intro) | (split)

theorem kept_maskBit {x0 : Nat} {x1 : Nat} {x2 : Nat} {x3 : Bool} (h : Kept a s) : Kept a (State.maskBit s x0 x1 x2 x3) := by
  unfold State.maskBit
  repeat' first
    | with_reducible (exact Kept.refl _) | with_reducible (assumption) | simp only [Kept.lit] | with_reducible (apply kept_setLink)
    | with_reducible (apply kept_unstable) | (intro) | (split)

theorem kept_takeWidth {x0 : Nat} {x1 : Nat} {x2 : Nat} {x3 : Nat} (h : Kept a s) : Kept a (State.takeWidth s x0 x1 x2 x3) := by
  unfold State.takeWidth
  repeat' first
    | with_reducible (exact Kept.refl _) | with_reducible (assumption) | simp only [Kept.lit] | with_reducible (apply kept_sets)

theorem kept_trainMarker {x0 : Nat} {x1 : Nat} {x2 : Nat} {x3 : List (BitVec 8)} (h : Kept a s) : Kept a (State.trainMarker s x0 x1 x2 x3) := by
  unfold State.trainMarker
  extract_lets l0 l1 l2 l3 l4 l5 l6 l7 l8 l9 l10
  try
    have hl0 : Kept a l0 := by
      subst l0
      repeat' first
        | with_reducible (exact Kept.refl _) | with_reducible (assumption) | simp only [Kept.lit] | with_reducible (apply kept_sets)
        | with_reducible (apply kept_setLink) | with_reducible (apply kept_unstable) | with_reducible (apply kept_setLane) | with_reducible (apply kept_set)
        | with_reducible (apply kept_takeWidth) | with_reducible (apply kept_enterL0) | (intro) | (split)
  clear_value l0
  try
    have hl1 : Kept a l1 := by
      subst l1
      repeat' first
        | with_reducible (exact Kept.refl _) | with_reducible (assumption) | simp only [Kept.lit] | with_reducible (apply kept_sets)
        | with_reducible (apply kept_setLink) | with_reducible (apply kept_unstable) | with_reducible (apply kept_setLane) | with_reducible (apply kept_set)
        | with_reducible (apply kept_takeWidth) | with_reducible (apply kept_enterL0) | (intro) | (split)
  clear_value l1
  try
    have hl2 : Kept a l2 := by
      subst l2
      repeat' first
        | with_reducible (exact Kept.refl _) | with_reducible (assumption) | simp only [Kept.lit] | with_reducible (apply kept_sets)
        | with_reducible (apply kept_setLink) | with_reducible (apply kept_unstable) | with_reducible (apply kept_setLane) | with_reducible (apply kept_set)
        | with_reducible (apply kept_takeWidth) | with_reducible (apply kept_enterL0) | (intro) | (split)
  clear_value l2
  try
    have hl3 : Kept a l3 := by
      subst l3
      repeat' first
        | with_reducible (exact Kept.refl _) | with_reducible (assumption) | simp only [Kept.lit] | with_reducible (apply kept_sets)
        | with_reducible (apply kept_setLink) | with_reducible (apply kept_unstable) | with_reducible (apply kept_setLane) | with_reducible (apply kept_set)
        | with_reducible (apply kept_takeWidth) | with_reducible (apply kept_enterL0) | (intro) | (split)
  clear_value l3
  try
    have hl4 : Kept a l4 := by
      subst l4
      repeat' first
        | with_reducible (exact Kept.refl _) | with_reducible (assumption) | simp only [Kept.lit] | with_reducible (apply kept_sets)
        | with_reducible (apply kept_setLink) | with_reducible (apply kept_unstable) | with_reducible (apply kept_setLane) | with_reducible (apply kept_set)
        | with_reducible (apply kept_takeWidth) | with_reducible (apply kept_enterL0) | (intro) | (split)
  clear_value l4
  try
    have hl5 : Kept a l5 := by
      subst l5
      repeat' first
        | with_reducible (exact Kept.refl _) | with_reducible (assumption) | simp only [Kept.lit] | with_reducible (apply kept_sets)
        | with_reducible (apply kept_setLink) | with_reducible (apply kept_unstable) | with_reducible (apply kept_setLane) | with_reducible (apply kept_set)
        | with_reducible (apply kept_takeWidth) | with_reducible (apply kept_enterL0) | (intro) | (split)
  clear_value l5
  try
    have hl6 : Kept a l6 := by
      subst l6
      repeat' first
        | with_reducible (exact Kept.refl _) | with_reducible (assumption) | simp only [Kept.lit] | with_reducible (apply kept_sets)
        | with_reducible (apply kept_setLink) | with_reducible (apply kept_unstable) | with_reducible (apply kept_setLane) | with_reducible (apply kept_set)
        | with_reducible (apply kept_takeWidth) | with_reducible (apply kept_enterL0) | (intro) | (split)
  clear_value l6
  try
    have hl7 : Kept a l7 := by
      subst l7
      repeat' first
        | with_reducible (exact Kept.refl _) | with_reducible (assumption) | simp only [Kept.lit] | with_reducible (apply kept_sets)
        | with_reducible (apply kept_setLink) | with_reducible (apply kept_unstable) | with_reducible (apply kept_setLane) | with_reducible (apply kept_set)
        | with_reducible (apply kept_takeWidth) | with_reducible (apply kept_enterL0) | (intro) | (split)
  clear_value l7
  try
    have hl8 : Kept a l8 := by
      subst l8
      repeat' first
        | with_reducible (exact Kept.refl _) | with_reducible (assumption) | simp only [Kept.lit] | with_reducible (apply kept_sets)
        | with_reducible (apply kept_setLink) | with_reducible (apply kept_unstable) | with_reducible (apply kept_setLane) | with_reducible (apply kept_set)
        | with_reducible (apply kept_takeWidth) | with_reducible (apply kept_enterL0) | (intro) | (split)
  clear_value l8
  try
    have hl9 : Kept a l9 := by
      subst l9
      repeat' first
        | with_reducible (exact Kept.refl _) | with_reducible (assumption) | simp only [Kept.lit] | with_reducible (apply kept_sets)
        | with_reducible (apply kept_setLink) | with_reducible (apply kept_unstable) | with_reducible (apply kept_setLane) | with_reducible (apply kept_set)
        | with_reducible (apply kept_takeWidth) | with_reducible (apply kept_enterL0) | (intro) | (split)
  clear_value l9
  try
    have hl10 : Kept a l10 := by
      subst l10
      repeat' first
        | with_reducible (exact Kept.refl _) | with_reducible (assumption) | simp only [Kept.lit] | with_reducible (apply kept_sets)
        | with_reducible (apply kept_setLink) | with_reducible (apply kept_unstable) | with_reducible (apply kept_setLane) | with_reducible (apply kept_set)
        | with_reducible (apply kept_takeWidth) | with_reducible (apply kept_enterL0) | (intro) | (split)
  clear_value l10
  repeat' first
    | with_reducible (exact Kept.refl _) | with_reducible (assumption) | simp only [Kept.lit] | with_reducible (apply kept_sets) | with_reducible (apply kept_setLink)
    | with_reducible (apply kept_unstable) | with_reducible (apply kept_setLane) | with_reducible (apply kept_set) | with_reducible (apply kept_takeWidth)
    | with_reducible (apply kept_enterL0) | (intro) | (split)

theorem kept_leaveL2 {x0 : Nat} {x1 : Nat} (h : Kept a s) : Kept a (State.leaveL2 s x0 x1) := by
  unfold State.leaveL2
  repeat' first
    | with_reducible (exact Kept.refl _) | with_reducible (assumption) | simp only [Kept.lit] | with_reducible (apply kept_setLink)
    | with_reducible (apply kept_startLink)

theorem kept_judgeMarker {x0 : Nat} {x1 : Nat} {x2 : Nat} {x3 : List (BitVec 8)} (h : Kept a s) : Kept a (State.judgeMarker s x0 x1 x2 x3) := by
  unfold State.judgeMarker
  repeat' first
    | with_reducible (exact Kept.refl _) | with_reducible (assumption) | simp only [Kept.lit] | with_reducible (apply kept_setLink) | with_reducible (apply kept_setLane)
    | with_reducible (apply kept_linkDown) | (intro) | (split)

theorem kept_echoChanged {x0 : Nat} {x1 : Bool} (h : Kept a s) : Kept a (State.echoChanged s x0 x1) := by
  unfold State.echoChanged
  repeat' first
    | with_reducible (exact Kept.refl _) | with_reducible (assumption) | simp only [Kept.lit] | with_reducible (apply kept_strand) | with_reducible (apply kept_reroute)
    | (intro) | (split)

theorem kept_serviceMarker {x0 : Nat} {x1 : Nat} {x2 : Nat} {x3 : List (BitVec 8)} (h : Kept a s) : Kept a (State.serviceMarker s x0 x1 x2 x3) := by
  unfold State.serviceMarker
  repeat' first
    | with_reducible (exact Kept.refl _) | with_reducible (assumption) | simp only [Kept.lit] | with_reducible (apply kept_recordPartner)
    | with_reducible (apply kept_echoChanged) | with_reducible (apply kept_setLink) | with_reducible (apply kept_unstable) | with_reducible (apply kept_setLane)
    | with_reducible (apply kept_set) | with_reducible (apply kept_retrain) | with_reducible (apply kept_laneOff) | with_reducible (apply kept_strand)
    | with_reducible (apply Kept.each) | (intro) | (split)

theorem kept_trainEq {x0 : Nat} {x1 : EqSet} (h : Kept a s) : Kept a (State.trainEq s x0 x1) := by
  unfold State.trainEq
  repeat' first
    | with_reducible (exact Kept.refl _) | with_reducible (assumption) | simp only [Kept.lit] | with_reducible (apply kept_setLane) | with_reducible (apply kept_sets)
    | with_reducible (apply kept_setReg) | (intro) | (split)

theorem kept_takeMarker {x0 : Nat} {x1 : Nat} {x2 : Nat} {x3 : List (BitVec 8)} (h : Kept a s) : Kept a (State.takeMarker s x0 x1 x2 x3) := by
  unfold State.takeMarker
  repeat' first
    | with_reducible (exact Kept.refl _) | with_reducible (assumption) | simp only [Kept.lit] | with_reducible (apply kept_setLane)
    | with_reducible (apply kept_laneFail) | with_reducible (apply kept_dropLane) | with_reducible (apply kept_unstable) | with_reducible (apply kept_set)
    | with_reducible (apply kept_judgeMarker) | with_reducible (apply kept_sets) | with_reducible (apply kept_maskBit) | with_reducible (apply kept_recordPartner)
    | with_reducible (apply kept_trainMarker) | with_reducible (apply kept_serviceMarker) | (intro) | (split)

theorem kept_adapt {x0 : Nat} {x1 : Bool} (h : Kept a s) : Kept a (State.adapt s x0 x1) := by
  unfold State.adapt
  repeat' first
    | with_reducible (exact Kept.refl _) | with_reducible (assumption) | simp only [Kept.lit] | with_reducible (apply kept_setLane) | with_reducible (apply kept_set)
    | with_reducible (apply kept_setReg) | (intro) | (split)

theorem kept_genWord {x0 : Nat} (h : Kept a s) : Kept a (State.genWord s x0) := by
  unfold State.genWord
  repeat' first
    | with_reducible (exact Kept.refl _) | with_reducible (assumption) | simp only [Kept.lit] | with_reducible (apply kept_setLane) | with_reducible (apply kept_set)
    | (intro) | (split) | with_reducible (apply Kept.drawn)

theorem kept_genWords (h : Kept a s) : Kept a (State.genWords s) := by
  unfold State.genWords
  repeat' first
    | with_reducible (exact Kept.refl _) | with_reducible (assumption) | simp only [Kept.lit] | with_reducible (apply kept_genWord) | with_reducible (apply Kept.each)
    | (intro) | (split)

theorem kept_prbsWrite {x0 : Nat} {x1 : Nat} (h : Kept a s) : Kept a (State.prbsWrite s x0 x1).2 := by
  unfold State.prbsWrite
  repeat' first
    | with_reducible (exact Kept.refl _) | with_reducible (assumption) | simp only [Kept.lit] | with_reducible (apply kept_viol) | with_reducible (apply kept_sets)
    | with_reducible (apply kept_set) | with_reducible (apply kept_setLane) | (intro) | (split) | with_reducible (apply Kept.drawn)

theorem kept_linkCfgWrite {x0 : Nat} {x1 : Nat} (h : Kept a s) : Kept a (State.linkCfgWrite s x0 x1).2 := by
  unfold State.linkCfgWrite
  repeat' first
    | with_reducible (exact Kept.refl _) | with_reducible (assumption) | simp only [Kept.lit] | with_reducible (apply kept_viol) | with_reducible (apply kept_setReg)
    | with_reducible (apply kept_checkPort) | with_reducible (apply kept_closePairs) | (intro) | (split)

theorem kept_readFlit {x0 : Nat} {x1 : Nat} {x2 : List (BitVec 8)} (h : Kept a s) : Kept a (State.readFlit s x0 x1 x2).1 := by
  unfold State.readFlit
  repeat' first
    | with_reducible (exact Kept.refl _) | with_reducible (assumption) | simp only [Kept.lit] | with_reducible (apply kept_setLane) | with_reducible (apply kept_inc)
    | with_reducible (apply Kept.each) | (intro) | (split) | with_reducible (apply Kept.foldl) | with_reducible (apply Kept.foldl_snd)
    | with_reducible (apply Kept.foldl_fst)

theorem kept_launch {x0 : Nat} {x1 : Nat} {x2 : Nat} {x3 : OutPkt} (h : Kept a s) : Kept a (State.launch s x0 x1 x2 x3) := by
  unfold State.launch
  repeat' first
    | with_reducible (exact Kept.refl _) | with_reducible (assumption) | simp only [Kept.lit] | with_reducible (apply kept_startPacket)
    | with_reducible (apply kept_incPair) | (intro) | (split)

theorem kept_replayFlit {x0 : Nat} {x1 : Nat} {x2 : KeptFlit} {x3 : List KeptFlit} (h : Kept a s) : Kept a (State.replayFlit s x0 x1 x2 x3) := by
  unfold State.replayFlit
  repeat' first
    | with_reducible (exact Kept.refl _) | with_reducible (assumption) | simp only [Kept.lit] | with_reducible (apply kept_injCheck)
    | with_reducible (apply kept_linkDown) | with_reducible (apply kept_setLink) | with_reducible (apply kept_inc) | with_reducible (apply kept_sendPacketFlit)
    | with_reducible (refine Kept.snd_of_eq (by assumption) ?_) | with_reducible (refine Kept.fst_of_eq (by assumption) ?_)
    | with_reducible (refine Kept.fst_of_eq3 (by assumption) ?_) | with_reducible (refine Kept.snd_of_eq3 (by assumption) ?_) | (intro) | (split)

theorem kept_dropOut {x0 : Nat} (h : Kept a s) : Kept a (State.dropOut s x0) := by
  unfold State.dropOut
  repeat' first
    | with_reducible (exact Kept.refl _) | with_reducible (assumption) | simp only [Kept.lit] | with_reducible (apply kept_inc)

/-! ## SwitchCmds -/

theorem kept_readmit (h : Kept a s) : Kept a (State.readmit s) := by
  unfold State.readmit
  repeat' first
    | with_reducible (exact Kept.refl _) | with_reducible (assumption) | simp only [Kept.lit] | with_reducible (apply kept_strand) | with_reducible (apply kept_reroute)
    | with_reducible (apply Kept.each) | (intro) | (split)

theorem kept_loadSnapshot (h : Kept a s) : Kept a (State.loadSnapshot s) := by
  unfold State.loadSnapshot
  repeat' first
    | with_reducible (exact Kept.refl _) | with_reducible (assumption) | simp only [Kept.lit] | with_reducible (apply kept_setReg) | with_reducible (apply kept_set)
    | with_reducible (apply kept_event) | with_reducible (apply Kept.each) | (intro) | (split)

theorem kept_didWrite {x0 : Nat} (h : Kept a s) : Kept a (State.didWrite s x0).2 := by
  unfold State.didWrite
  repeat' first
    | with_reducible (exact Kept.refl _) | with_reducible (assumption) | simp only [Kept.lit] | with_reducible (apply kept_set) | with_reducible (apply kept_readmit)

theorem kept_roleWrite {x0 : Nat} {x1 : Nat} (h : Kept a s) : Kept a (State.roleWrite s x0 x1).2 := by
  unfold State.roleWrite
  repeat' first
    | with_reducible (exact Kept.refl _) | with_reducible (assumption) | simp only [Kept.lit] | with_reducible (apply kept_viol) | with_reducible (apply kept_setReg)
    | with_reducible (apply kept_closePairs) | with_reducible (apply kept_checkPort) | with_reducible (apply kept_readmit) | (intro) | (split)

theorem kept_portCfgWrite {x0 : Nat} {x1 : Nat} (h : Kept a s) : Kept a (State.portCfgWrite s x0 x1).2 := by
  unfold State.portCfgWrite
  repeat' first
    | with_reducible (exact Kept.refl _) | with_reducible (assumption) | simp only [Kept.lit] | with_reducible (apply kept_viol) | with_reducible (apply kept_setReg)
    | with_reducible (apply kept_readmit) | (intro) | (split)

theorem kept_credWrite {x0 : Nat} {x1 : Nat} {x2 : Nat} (h : Kept a s) : Kept a (State.credWrite s x0 x1 x2).2 := by
  unfold State.credWrite
  repeat' first
    | with_reducible (exact Kept.refl _) | with_reducible (assumption) | simp only [Kept.lit] | with_reducible (apply kept_setReg) | with_reducible (apply kept_viol)
    | (intro) | (split)

theorem kept_routeWrite {x0 : Nat} {x1 : Nat} {x2 : Nat} (h : Kept a s) : Kept a (State.routeWrite s x0 x1 x2).2 := by
  unfold State.routeWrite
  repeat' first
    | with_reducible (exact Kept.refl _) | with_reducible (assumption) | simp only [Kept.lit] | with_reducible (apply kept_viol) | with_reducible (apply kept_setReg)
    | (intro) | (split)

theorem kept_membersWrite {x0 : Nat} {x1 : Nat} (h : Kept a s) : Kept a (State.membersWrite s x0 x1).2 := by
  unfold State.membersWrite
  repeat' first
    | with_reducible (exact Kept.refl _) | with_reducible (assumption) | simp only [Kept.lit] | with_reducible (apply kept_viol) | with_reducible (apply kept_setReg)
    | with_reducible (apply kept_readmit) | (intro) | (split)

theorem kept_bypCfgWrite {x0 : Nat} (h : Kept a s) : Kept a (State.bypCfgWrite s x0).2 := by
  unfold State.bypCfgWrite
  repeat' first
    | with_reducible (exact Kept.refl _) | with_reducible (assumption) | simp only [Kept.lit] | with_reducible (apply kept_setReg)
    | with_reducible (apply kept_closePairs)

theorem kept_bypOpenWrite {x0 : Nat} (h : Kept a s) : Kept a (State.bypOpenWrite s x0).2 := by
  unfold State.bypOpenWrite
  repeat' first
    | with_reducible (exact Kept.refl _) | with_reducible (assumption) | simp only [Kept.lit] | with_reducible (apply kept_set)

/-! ## PacketCmds -/

theorem kept_withLocal {x0 : Packet} (h : Kept a s) : Kept a (State.withLocal s x0).1 := by
  unfold State.withLocal
  repeat' first
    | with_reducible (exact Kept.refl _) | with_reducible (assumption) | simp only [Kept.lit] | with_reducible (apply kept_addIn) | (intro) | (split)

theorem kept_stateCheck {t : State} (e : State.stateCheck s = some t) (h : Kept a s) : Kept a t := by
  unfold State.stateCheck at e
  try dsimp only at e
  repeat' split at e
  all_goals first | (obtain rfl := Option.some.inj e) | cases e | skip
  repeat' first
    | with_reducible (exact Kept.refl _) | with_reducible (assumption) | simp only [Kept.lit] | with_reducible (apply kept_viol) | (intro) | (split)

theorem kept_memCheck {x0 : Packet} {x1 : Bool} {t : State} {y} (e : State.memCheck s x0 x1 = some (y, t)) (h : Kept a s) : Kept a t := by
  unfold State.memCheck at e
  try dsimp only at e
  repeat' split at e
  all_goals first | (obtain rfl := Option.some.inj e) | cases e | skip
  repeat' first
    | with_reducible (exact Kept.refl _) | with_reducible (assumption) | simp only [Kept.lit] | with_reducible (apply kept_inc)
    | with_reducible (refine kept_stateCheck (by assumption) ?_) | with_reducible (refine kept_localCheck (by assumption) ?_)
    | with_reducible (refine Kept.snd_of_eq (by assumption) ?_) | with_reducible (refine Kept.fst_of_eq (by assumption) ?_)
    | with_reducible (refine Kept.fst_of_eq3 (by assumption) ?_) | with_reducible (refine Kept.snd_of_eq3 (by assumption) ?_) | (intro) | (split)

theorem kept_refuse {x0 : Packet} {x1 : BitVec 8} (h : Kept a s) : Kept a (State.refuse s x0 x1) := by
  unfold State.refuse
  repeat' first
    | with_reducible (exact Kept.refl _) | with_reducible (assumption) | simp only [Kept.lit] | with_reducible (apply kept_emitRsp) | (intro) | (split)

theorem kept_takeRequest {x0 : Packet} (h : Kept a s) : Kept a (State.takeRequest s x0) := by
  unfold State.takeRequest
  repeat' first
    | with_reducible (exact Kept.refl _) | with_reducible (assumption) | simp only [Kept.lit] | with_reducible (apply kept_withLocal)
    | with_reducible (apply kept_dropBad) | with_reducible (apply kept_backPressure) | with_reducible (apply kept_takeIn) | with_reducible (apply kept_activity)
    | with_reducible (refine kept_memCheck (by assumption) ?_) | with_reducible (apply kept_refuse) | with_reducible (apply kept_placeCells)
    | with_reducible (apply kept_accept) | with_reducible (apply kept_serve) | with_reducible (apply Kept.when)
    | with_reducible (refine Kept.snd_of_eq (by assumption) ?_) | with_reducible (refine Kept.fst_of_eq (by assumption) ?_)
    | with_reducible (refine Kept.fst_of_eq3 (by assumption) ?_) | with_reducible (refine Kept.snd_of_eq3 (by assumption) ?_) | (intro) | (split)

theorem kept_svcCheck {x0 : Packet} {t : State} {y} (e : State.svcCheck s x0 = some (y, t)) (h : Kept a s) : Kept a t := by
  unfold State.svcCheck at e
  try dsimp only at e
  repeat' split at e
  all_goals first | (obtain rfl := Option.some.inj e) | cases e | skip
  repeat' first
    | with_reducible (exact Kept.refl _) | with_reducible (assumption) | simp only [Kept.lit] | with_reducible (apply kept_inc)
    | with_reducible (refine kept_stateCheck (by assumption) ?_) | with_reducible (apply kept_viol) | with_reducible (refine Kept.snd_of_eq (by assumption) ?_)
    | with_reducible (refine Kept.fst_of_eq (by assumption) ?_) | with_reducible (refine Kept.fst_of_eq3 (by assumption) ?_)
    | with_reducible (refine Kept.snd_of_eq3 (by assumption) ?_) | (intro) | (split)

theorem kept_doorbell {x0 : Packet} (h : Kept a s) : Kept a (State.doorbell s x0) := by
  unfold State.doorbell
  repeat' first
    | with_reducible (exact Kept.refl _) | with_reducible (assumption) | simp only [Kept.lit] | with_reducible (apply kept_viol)
    | with_reducible (refine kept_stateCheck (by assumption) ?_) | with_reducible (apply kept_newP) | with_reducible (refine Kept.snd_of_eq (by assumption) ?_)
    | with_reducible (refine Kept.fst_of_eq (by assumption) ?_) | with_reducible (refine Kept.fst_of_eq3 (by assumption) ?_)
    | with_reducible (refine Kept.snd_of_eq3 (by assumption) ?_) | (intro) | (split)

theorem kept_ownAnswered {x0 : OutReq} {x1 : BitVec 8} {x2 : List (BitVec 8)} {x3 : Bool} (h : Kept a s) : Kept a (State.ownAnswered s x0 x1 x2 x3) := by
  unfold State.ownAnswered
  repeat' first
    | with_reducible (exact Kept.refl _) | with_reducible (assumption) | simp only [Kept.lit] | with_reducible (apply kept_sendUnsent)
    | with_reducible (apply kept_fetchAnswered) | with_reducible (apply kept_rcbAnswered) | with_reducible (apply kept_cplAnswered)
    | with_reducible (apply kept_finishRingResets) | with_reducible (apply kept_engAnswer) | with_reducible (apply kept_recReadAnswered) | (intro) | (split)

theorem kept_takeResponse {x0 : Packet} (h : Kept a s) : Kept a (State.takeResponse s x0) := by
  unfold State.takeResponse
  repeat' first
    | with_reducible (exact Kept.refl _) | with_reducible (assumption) | simp only [Kept.lit] | with_reducible (apply kept_withLocal)
    | with_reducible (apply kept_takeIn) | with_reducible (apply kept_dropBad) | with_reducible (apply kept_inc) | with_reducible (apply kept_ownAnswered)
    | with_reducible (refine Kept.snd_of_eq (by assumption) ?_) | with_reducible (refine Kept.fst_of_eq (by assumption) ?_)
    | with_reducible (refine Kept.fst_of_eq3 (by assumption) ?_) | with_reducible (refine Kept.snd_of_eq3 (by assumption) ?_) | (intro) | (split)

/-! ## Marl -/

theorem kept_confirmWrite {x0 : Nat} (h : Kept a s) : Kept a (State.confirmWrite s x0) := by
  unfold State.confirmWrite
  repeat' first
    | with_reducible (exact Kept.refl _) | with_reducible (assumption) | simp only [Kept.lit] | with_reducible (apply kept_setChn)
    | with_reducible (apply kept_lineWritten) | (intro) | (split)

theorem kept_startFlush {x0 : Bool} {x1 : Bool} (h : Kept a s) : Kept a (State.startFlush s x0 x1) := by
  unfold State.startFlush
  repeat' first
    | with_reducible (exact Kept.refl _) | with_reducible (assumption) | simp only [Kept.lit] | with_reducible (apply kept_set) | with_reducible (exact id)
    | (exact fun _ => rfl) | (exact fun hm => rising_filter hm _) | (exact fun hm => rising_map hm _ fun _ => rfl)
    | (exact fun hm => rising_map (rising_filter hm _) _ fun _ => rfl) | (intro) | (split) | with_reducible (refine Kept.lit_maps ?_ ?_ ?_)

theorem kept_flushWrite {x0 : Nat} (h : Kept a s) : Kept a (State.flushWrite s x0).2 := by
  unfold State.flushWrite
  repeat' first
    | with_reducible (exact Kept.refl _) | with_reducible (assumption) | simp only [Kept.lit] | with_reducible (apply kept_viol) | with_reducible (apply kept_startFlush)
    | (intro) | (split)

theorem kept_endFlush (h : Kept a s) : Kept a (State.endFlush s) := by
  unfold State.endFlush
  repeat' first
    | with_reducible (exact Kept.refl _) | with_reducible (assumption) | simp only [Kept.lit] | with_reducible (apply kept_writeBackNow)
    | with_reducible (apply kept_set) | with_reducible (apply kept_mgmtDone) | with_reducible (apply Kept.each) | with_reducible (exact id) | (exact fun _ => rfl)
    | (exact fun hm => rising_filter hm _) | (exact fun hm => rising_map hm _ fun _ => rfl) | (exact fun hm => rising_map (rising_filter hm _) _ fun _ => rfl) | (intro)
    | (split) | with_reducible (refine Kept.lit_maps ?_ ?_ ?_)

theorem kept_fillSliceMap (h : Kept a s) : Kept a (State.fillSliceMap s) := by
  unfold State.fillSliceMap
  repeat' first
    | with_reducible (exact Kept.refl _) | with_reducible (assumption) | simp only [Kept.lit] | with_reducible (apply kept_serve) | with_reducible (apply kept_setReg)
    | with_reducible (apply kept_set) | with_reducible (apply Kept.each) | (intro) | (split)

theorem kept_quiesceWrite {x0 : Nat} (h : Kept a s) : Kept a (State.quiesceWrite s x0).2 := by
  unfold State.quiesceWrite
  repeat' first
    | with_reducible (exact Kept.refl _) | with_reducible (assumption) | simp only [Kept.lit] | with_reducible (apply kept_viol) | with_reducible (apply kept_set)
    | with_reducible (apply kept_sets) | (intro) | (split)

theorem kept_partWrite {x0 : Nat} (h : Kept a s) : Kept a (State.partWrite s x0).2 := by
  unfold State.partWrite
  repeat' first
    | with_reducible (exact Kept.refl _) | with_reducible (assumption) | simp only [Kept.lit] | with_reducible (apply kept_viol) | with_reducible (apply kept_setReg)
    | with_reducible (apply kept_set) | (intro) | (split)

theorem kept_bufCfgWrite {x0 : Nat} (h : Kept a s) : Kept a (State.bufCfgWrite s x0).2 := by
  unfold State.bufCfgWrite
  repeat' first
    | with_reducible (exact Kept.refl _) | with_reducible (assumption) | simp only [Kept.lit] | with_reducible (apply kept_setReg) | with_reducible (apply kept_viol)
    | (intro) | (split)

theorem kept_repartition {x0 : Nat} (h : Kept a s) : Kept a (State.repartition s x0) := by
  unfold State.repartition
  repeat' first
    | with_reducible (exact Kept.refl _) | with_reducible (assumption) | simp only [Kept.lit] | with_reducible (apply kept_writeBackNow)
    | with_reducible (apply kept_emptyCache) | with_reducible (apply kept_setReg) | with_reducible (apply kept_set) | with_reducible (apply kept_fillSliceMap)
    | with_reducible (apply Kept.each) | (intro) | (split)

theorem kept_retireSlice {x0 : Nat} (h : Kept a s) : Kept a (State.retireSlice s x0) := by
  unfold State.retireSlice
  repeat' first
    | with_reducible (exact Kept.refl _) | with_reducible (assumption) | simp only [Kept.lit] | with_reducible (apply kept_writeBackNow)
    | with_reducible (apply kept_sets) | with_reducible (apply kept_incBy) | with_reducible (apply kept_fillSliceMap) | with_reducible (apply kept_raiseRec)
    | with_reducible (apply kept_settle) | with_reducible (apply Kept.each) | with_reducible (exact id) | (exact fun _ => rfl) | (exact fun hm => rising_filter hm _)
    | (exact fun hm => rising_map hm _ fun _ => rfl) | (exact fun hm => rising_map (rising_filter hm _) _ fun _ => rfl) | (intro) | (split)
    | with_reducible (refine Kept.lit_maps ?_ ?_ ?_)

theorem kept_reattach (h : Kept a s) : Kept a (State.reattach s) := by
  unfold State.reattach
  repeat' first
    | with_reducible (exact Kept.refl _) | with_reducible (assumption) | simp only [Kept.lit] | with_reducible (apply kept_emptyCache)
    | with_reducible (apply kept_setReg) | with_reducible (apply kept_sets) | with_reducible (apply kept_writeBackNow) | with_reducible (apply kept_loseDirty)
    | with_reducible (apply kept_event) | with_reducible (apply kept_raise) | with_reducible (apply Kept.each) | (intro) | (split) | with_reducible (apply Kept.drawn)

/-! ## ChannelCmds -/

theorem kept_showMap (h : Kept a s) : Kept a (State.showMap s) := by
  unfold State.showMap
  repeat' first
    | with_reducible (exact Kept.refl _) | with_reducible (assumption) | simp only [Kept.lit] | with_reducible (apply kept_sets) | (intro) | (split)

theorem kept_allGroups {x0 : Nat} (h : Kept a s) : Kept a (State.allGroups s x0) := by
  unfold State.allGroups
  repeat' first
    | with_reducible (exact Kept.refl _) | with_reducible (assumption) | simp only [Kept.lit] | with_reducible (apply kept_setGroupSt) | with_reducible (apply Kept.each)
    | (intro) | (split)

theorem kept_memCfgWrite {x0 : Nat} (h : Kept a s) : Kept a (State.memCfgWrite s x0).2 := by
  unfold State.memCfgWrite
  repeat' first
    | with_reducible (exact Kept.refl _) | with_reducible (assumption) | simp only [Kept.lit] | with_reducible (apply kept_viol)
    | with_reducible (apply kept_writeBackNow) | with_reducible (apply kept_emptyCache) | with_reducible (apply kept_set) | with_reducible (apply kept_setReg)
    | with_reducible (apply kept_allGroups) | with_reducible (apply kept_showMap) | with_reducible (apply kept_loseMaps) | with_reducible (apply kept_saveMap)
    | with_reducible (apply Kept.each) | with_reducible (exact id) | (exact fun _ => rfl) | (exact fun hm => rising_filter hm _)
    | (exact fun hm => rising_map hm _ fun _ => rfl) | (exact fun hm => rising_map (rising_filter hm _) _ fun _ => rfl) | (intro) | (split)
    | with_reducible (refine Kept.lit_maps ?_ ?_ ?_)

theorem kept_sendWord {x0 : Nat} {x1 : WordRes} (h : Kept a s) : Kept a (State.sendWord s x0 x1) := by
  unfold State.sendWord
  repeat' first
    | with_reducible (exact Kept.refl _) | with_reducible (assumption) | simp only [Kept.lit] | with_reducible (apply kept_setChn)
    | with_reducible (apply kept_coilErrors) | with_reducible (apply kept_coilFail) | (intro) | (split)

theorem kept_rateEvent {x0 : Nat} {x1 : Nat} (h : Kept a s) : Kept a (State.rateEvent s x0 x1) := by
  unfold State.rateEvent
  repeat' first
    | with_reducible (exact Kept.refl _) | with_reducible (assumption) | simp only [Kept.lit] | with_reducible (apply kept_event) | (intro) | (split)

theorem kept_pasrWrite {x0 : Path} {x1 : Nat} {x2 : Nat} (h : Kept a s) : Kept a (State.pasrWrite s x0 x1 x2).2 := by
  unfold State.pasrWrite
  repeat' first
    | with_reducible (exact Kept.refl _) | with_reducible (assumption) | simp only [Kept.lit] | with_reducible (apply kept_inc) | with_reducible (apply kept_viol)
    | with_reducible (apply kept_startPasr) | (intro) | (split)

/-! ## Qos -/

theorem kept_divide (h : Kept a s) : Kept a (State.divide s) := by
  unfold State.divide
  repeat' first
    | with_reducible (exact Kept.refl _) | with_reducible (assumption) | simp only [Kept.lit] | with_reducible (apply kept_setReg) | with_reducible (apply kept_set)
    | with_reducible (apply kept_inc) | with_reducible (apply kept_event) | with_reducible (apply Kept.each) | (intro) | (split)

theorem kept_evalD (h : Kept a s) : Kept a (State.evalD s) := by
  unfold State.evalD
  repeat' first
    | with_reducible (exact Kept.refl _) | with_reducible (assumption) | simp only [Kept.lit] | with_reducible (apply kept_set) | with_reducible (apply kept_divide)
    | (intro) | (split)

theorem kept_activate (h : Kept a s) : Kept a (State.activate s) := by
  unfold State.activate
  repeat' first
    | with_reducible (exact Kept.refl _) | with_reducible (assumption) | simp only [Kept.lit] | with_reducible (apply kept_fillBuckets)
    | with_reducible (apply kept_setReg) | with_reducible (apply kept_set) | with_reducible (apply kept_divide) | with_reducible (apply Kept.each) | (intro) | (split)

theorem kept_commit (h : Kept a s) : Kept a (State.commit s).2 := by
  unfold State.commit
  repeat' first
    | with_reducible (exact Kept.refl _) | with_reducible (assumption) | simp only [Kept.lit] | with_reducible (apply kept_viol) | with_reducible (apply kept_activate)
    | with_reducible (apply kept_sets) | (intro) | (split)

theorem kept_commitWrite {x0 : Nat} (h : Kept a s) : Kept a (State.commitWrite s x0).2 := by
  unfold State.commitWrite
  repeat' first
    | with_reducible (exact Kept.refl _) | with_reducible (assumption) | simp only [Kept.lit] | with_reducible (apply kept_commit)
    | with_reducible (refine Kept.snd_of_eq (by assumption) ?_) | with_reducible (refine Kept.fst_of_eq (by assumption) ?_)
    | with_reducible (refine Kept.fst_of_eq3 (by assumption) ?_) | with_reducible (refine Kept.snd_of_eq3 (by assumption) ?_) | (intro) | (split)

theorem kept_qosSetOp {x0 : Mgmt} (h : Kept a s) : Kept a (State.qosSetOp s x0) := by
  unfold State.qosSetOp
  repeat' first
    | with_reducible (exact Kept.refl _) | with_reducible (assumption) | simp only [Kept.lit] | with_reducible (apply kept_mgmtRefuse)
    | with_reducible (apply kept_setReg) | with_reducible (apply kept_commit) | with_reducible (apply kept_mgmtDone) | with_reducible (apply Kept.each)
    | with_reducible (refine Kept.snd_of_eq (by assumption) ?_) | with_reducible (refine Kept.fst_of_eq (by assumption) ?_)
    | with_reducible (refine Kept.fst_of_eq3 (by assumption) ?_) | with_reducible (refine Kept.snd_of_eq3 (by assumption) ?_) | (intro) | (split)

/-! ## Badger -/

theorem kept_correct {x0 : Nat} (h : Kept a s) : Kept a (State.correct s x0) := by
  unfold State.correct
  repeat' first
    | with_reducible (exact Kept.refl _) | with_reducible (assumption) | simp only [Kept.lit] | with_reducible (apply kept_dropCorrective)
    | with_reducible (apply kept_storeBlock) | with_reducible (apply kept_blockPerformed) | (intro) | (split)

theorem kept_ceLogWrite {x0 : Nat} {x1 : Nat} (h : Kept a s) : Kept a (State.ceLogWrite s x0 x1).2 := by
  unfold State.ceLogWrite
  repeat' first
    | with_reducible (exact Kept.refl _) | with_reducible (assumption) | simp only [Kept.lit] | with_reducible (apply kept_setReg) | (intro) | (split)

theorem kept_passStart {x0 : Nat} (h : Kept a s) : Kept a (State.passStart s x0) := by
  unfold State.passStart
  repeat' first
    | with_reducible (exact Kept.refl _) | with_reducible (assumption) | simp only [Kept.lit] | (intro) | (split)

theorem kept_patrolUe {x0 : Nat} {x1 : Nat} (h : Kept a s) : Kept a (State.patrolUe s x0 x1) := by
  unfold State.patrolUe
  repeat' first
    | with_reducible (exact Kept.refl _) | with_reducible (assumption) | simp only [Kept.lit] | with_reducible (apply kept_dramUe)
    | with_reducible (apply kept_blockPerformed) | with_reducible (apply kept_draw) | with_reducible (apply kept_blockWrite) | with_reducible (apply kept_inc)
    | with_reducible (apply kept_stripeXor) | with_reducible (apply kept_decodeLine) | with_reducible (apply kept_storeBlock)
    | with_reducible (refine Kept.snd_of_eq (by assumption) ?_) | with_reducible (refine Kept.fst_of_eq (by assumption) ?_)
    | with_reducible (refine Kept.fst_of_eq3 (by assumption) ?_) | with_reducible (refine Kept.snd_of_eq3 (by assumption) ?_) | (intro) | (split)

theorem kept_patrolBlock {x0 : Nat} {x1 : Nat} {x2 : List (BitVec 8)} {t : State} (e : State.patrolBlock s x0 x1 x2 = some t) (h : Kept a s) : Kept a t := by
  unfold State.patrolBlock at e
  try dsimp only at e
  repeat' split at e
  all_goals first | (obtain rfl := Option.some.inj e) | cases e | skip
  repeat' first
    | with_reducible (exact Kept.refl _) | with_reducible (assumption) | simp only [Kept.lit] | with_reducible (apply kept_useRow) | with_reducible (apply kept_dramRead)
    | with_reducible (apply kept_incPair) | with_reducible (apply kept_blockPerformed) | with_reducible (apply kept_injCheck) | with_reducible (apply kept_inc)
    | with_reducible (apply kept_dramUe) | with_reducible (apply kept_logError) | with_reducible (apply kept_unwatch) | with_reducible (apply kept_incBy)
    | with_reducible (apply kept_judgeHard) | with_reducible (apply kept_queueCorrective) | with_reducible (apply kept_coilErrors) | with_reducible (apply kept_noteUe)
    | with_reducible (apply kept_patrolUe) | with_reducible (refine Kept.snd_of_eq (by assumption) ?_) | with_reducible (refine Kept.fst_of_eq (by assumption) ?_)
    | with_reducible (refine Kept.fst_of_eq3 (by assumption) ?_) | with_reducible (refine Kept.snd_of_eq3 (by assumption) ?_) | (intro) | (split)

theorem kept_passEnds {x0 : Nat} (h : Kept a s) : Kept a (State.passEnds s x0) := by
  unfold State.passEnds
  repeat' first
    | with_reducible (exact Kept.refl _) | with_reducible (assumption) | simp only [Kept.lit] | with_reducible (apply kept_passStart)
    | with_reducible (apply kept_incSat) | (intro) | (split)

theorem kept_marlPassEnds (h : Kept a s) : Kept a (State.marlPassEnds s) := by
  unfold State.marlPassEnds
  repeat' first
    | with_reducible (exact Kept.refl _) | with_reducible (assumption) | simp only [Kept.lit] | with_reducible (apply kept_inc)

theorem kept_spoilCell {x0 : Nat} (h : Kept a s) : Kept a (State.spoilCell s x0) := by
  unfold State.spoilCell
  repeat' first
    | with_reducible (exact Kept.refl _) | with_reducible (assumption) | simp only [Kept.lit] | (intro) | (split)

theorem kept_patrolCell {x0 : Nat} {x1 : BitVec 560} (h : Kept a s) : Kept a (State.patrolCell s x0 x1) := by
  unfold State.patrolCell
  repeat' first
    | with_reducible (exact Kept.refl _) | with_reducible (assumption) | simp only [Kept.lit] | with_reducible (apply kept_inc) | with_reducible (apply kept_logError)
    | with_reducible (apply kept_noteMarlFix) | with_reducible (apply kept_marlUe) | with_reducible (apply kept_spoilCell) | (intro) | (split)

theorem kept_patrolUnit {x0 : PatrolUnit} {x1 : BitVec 560} (h : Kept a s) : Kept a (State.patrolUnit s x0 x1) := by
  unfold State.patrolUnit
  repeat' first
    | with_reducible (exact Kept.refl _) | with_reducible (assumption) | simp only [Kept.lit] | with_reducible (apply kept_setLine)
    | with_reducible (apply kept_readLine) | with_reducible (apply kept_patrolCell) | with_reducible (apply kept_injCheck) | with_reducible (apply kept_reloadEng)
    | with_reducible (apply kept_marlPassEnds) | with_reducible (refine Kept.snd_of_eq (by assumption) ?_) | with_reducible (refine Kept.fst_of_eq (by assumption) ?_)
    | with_reducible (refine Kept.fst_of_eq3 (by assumption) ?_) | with_reducible (refine Kept.snd_of_eq3 (by assumption) ?_) | (intro) | (split)

theorem kept_setPatrol {x0 : Nat} (h : Kept a s) : Kept a (State.setPatrol s x0) := by
  unfold State.setPatrol
  repeat' first
    | with_reducible (exact Kept.refl _) | with_reducible (assumption) | simp only [Kept.lit] | with_reducible (apply kept_set) | with_reducible (apply kept_passStart)
    | with_reducible (apply Kept.each) | (intro) | (split)

theorem kept_patrolWrite {x0 : Nat} (h : Kept a s) : Kept a (State.patrolWrite s x0).2 := by
  unfold State.patrolWrite
  repeat' first
    | with_reducible (exact Kept.refl _) | with_reducible (assumption) | simp only [Kept.lit] | with_reducible (apply kept_setPatrol) | with_reducible (apply kept_viol)
    | (intro) | (split)

theorem kept_moveBlock {x0 : Nat} {x1 : Nat} (h : Kept a s) : Kept a (State.moveBlock s x0 x1) := by
  unfold State.moveBlock
  repeat' first
    | with_reducible (exact Kept.refl _) | with_reducible (assumption) | simp only [Kept.lit] | with_reducible (apply kept_blockFetch)
    | with_reducible (apply kept_blockPerformed) | with_reducible (apply kept_blockWrite) | with_reducible (apply kept_stripeXor) | with_reducible (apply kept_inc)
    | with_reducible (apply kept_draw) | with_reducible (refine Kept.snd_of_eq (by assumption) ?_) | with_reducible (refine Kept.fst_of_eq (by assumption) ?_)
    | with_reducible (refine Kept.fst_of_eq3 (by assumption) ?_) | with_reducible (refine Kept.snd_of_eq3 (by assumption) ?_) | (intro) | (split)

theorem kept_syncRepair {x0 : Nat} (h : Kept a s) : Kept a (State.syncRepair s x0) := by
  unfold State.syncRepair
  repeat' first
    | with_reducible (exact Kept.refl _) | with_reducible (assumption) | simp only [Kept.lit] | with_reducible (apply kept_sets) | (intro) | (split)

theorem kept_refuseRepair {x0 : Nat} {x1 : Nat} (h : Kept a s) : Kept a (State.refuseRepair s x0 x1) := by
  unfold State.refuseRepair
  repeat' first
    | with_reducible (exact Kept.refl _) | with_reducible (assumption) | simp only [Kept.lit] | with_reducible (apply kept_set) | with_reducible (apply kept_inc)
    | with_reducible (apply kept_raiseRec)

theorem kept_repaired {x0 : Nat} {x1 : Nat} {x2 : Nat} (h : Kept a s) : Kept a (State.repaired s x0 x1 x2) := by
  unfold State.repaired
  repeat' first
    | with_reducible (exact Kept.refl _) | with_reducible (assumption) | simp only [Kept.lit] | with_reducible (apply kept_syncRepair) | with_reducible (apply kept_inc)
    | with_reducible (apply kept_event) | with_reducible (apply kept_raiseRec)

theorem kept_putRowFix {x0 : Nat} {x1 : Nat} {x2 : Nat} (h : Kept a s) : Kept a (State.putRowFix s x0 x1 x2) := by
  unfold State.putRowFix
  repeat' first
    | with_reducible (exact Kept.refl _) | with_reducible (assumption) | simp only [Kept.lit] | (intro) | (split)

theorem kept_putBlkFix {x0 : Nat} {x1 : Nat} {x2 : Nat} (h : Kept a s) : Kept a (State.putBlkFix s x0 x1 x2) := by
  unfold State.putBlkFix
  repeat' first
    | with_reducible (exact Kept.refl _) | with_reducible (assumption) | simp only [Kept.lit] | with_reducible (apply kept_sets) | (intro) | (split)

theorem kept_repairBlock {x0 : Nat} {x1 : Nat} (h : Kept a s) : Kept a (State.repairBlock s x0 x1) := by
  unfold State.repairBlock
  repeat' first
    | with_reducible (exact Kept.refl _) | with_reducible (assumption) | simp only [Kept.lit] | with_reducible (apply kept_moveBlock)
    | with_reducible (refine kept_addSoft (by assumption) ?_) | with_reducible (apply kept_refuseRepair) | with_reducible (apply kept_putRowFix)
    | with_reducible (apply kept_repaired) | with_reducible (apply kept_putBlkFix) | with_reducible (apply kept_set) | with_reducible (apply Kept.each)
    | with_reducible (refine Kept.snd_of_eq (by assumption) ?_) | with_reducible (refine Kept.fst_of_eq (by assumption) ?_)
    | with_reducible (refine Kept.fst_of_eq3 (by assumption) ?_) | with_reducible (refine Kept.snd_of_eq3 (by assumption) ?_) | (intro) | (split)

theorem kept_syncMarlRepair (h : Kept a s) : Kept a (State.syncMarlRepair s) := by
  unfold State.syncMarlRepair
  repeat' first
    | with_reducible (exact Kept.refl _) | with_reducible (assumption) | simp only [Kept.lit] | with_reducible (apply kept_sets)

theorem kept_refuseMarlRepair {x0 : Nat} (h : Kept a s) : Kept a (State.refuseMarlRepair s x0) := by
  unfold State.refuseMarlRepair
  repeat' first
    | with_reducible (exact Kept.refl _) | with_reducible (assumption) | simp only [Kept.lit] | with_reducible (apply kept_set) | with_reducible (apply kept_inc)
    | with_reducible (apply kept_raiseRec)

theorem kept_marlRepaired {x0 : Nat} {x1 : Nat} (h : Kept a s) : Kept a (State.marlRepaired s x0 x1) := by
  unfold State.marlRepaired
  repeat' first
    | with_reducible (exact Kept.refl _) | with_reducible (assumption) | simp only [Kept.lit] | with_reducible (apply kept_syncMarlRepair)
    | with_reducible (apply kept_event) | with_reducible (apply kept_raiseRec)

theorem kept_moveUnit {x0 : Nat} (h : Kept a s) : Kept a (State.moveUnit s x0) := by
  unfold State.moveUnit
  repeat' first
    | with_reducible (exact Kept.refl _) | with_reducible (assumption) | simp only [Kept.lit] | with_reducible (apply kept_setLine) | (intro) | (split)

theorem kept_retireUnit {x0 : Nat} (h : Kept a s) : Kept a (State.retireUnit s x0) := by
  unfold State.retireUnit
  repeat' first
    | with_reducible (exact Kept.refl _) | with_reducible (assumption) | simp only [Kept.lit] | with_reducible (apply kept_writeBackNow)
    | with_reducible (apply kept_dropLine) | with_reducible (apply kept_inc) | (intro) | (split)

theorem kept_putMarlRow {x0 : Nat} {x1 : Nat} (h : Kept a s) : Kept a (State.putMarlRow s x0 x1) := by
  unfold State.putMarlRow
  repeat' first
    | with_reducible (exact Kept.refl _) | with_reducible (assumption) | simp only [Kept.lit] | (intro) | (split)

theorem kept_putMarlBlk {x0 : Nat} {x1 : Nat} (h : Kept a s) : Kept a (State.putMarlBlk s x0 x1) := by
  unfold State.putMarlBlk
  repeat' first
    | with_reducible (exact Kept.refl _) | with_reducible (assumption) | simp only [Kept.lit] | with_reducible (apply kept_sets) | (intro) | (split)

theorem kept_repairUnit {x0 : Nat} (h : Kept a s) : Kept a (State.repairUnit s x0) := by
  unfold State.repairUnit
  repeat' first
    | with_reducible (exact Kept.refl _) | with_reducible (assumption) | simp only [Kept.lit] | with_reducible (apply kept_moveUnit)
    | with_reducible (refine kept_addSoft (by assumption) ?_) | with_reducible (apply kept_refuseMarlRepair) | with_reducible (apply kept_putMarlRow)
    | with_reducible (apply kept_inc) | with_reducible (apply kept_marlRepaired) | with_reducible (apply kept_putMarlBlk) | with_reducible (apply kept_set)
    | with_reducible (apply kept_retireUnit) | with_reducible (apply Kept.each) | with_reducible (refine Kept.snd_of_eq (by assumption) ?_)
    | with_reducible (refine Kept.fst_of_eq (by assumption) ?_) | with_reducible (refine Kept.fst_of_eq3 (by assumption) ?_)
    | with_reducible (refine Kept.snd_of_eq3 (by assumption) ?_) | (intro) | (split)

/-! ## RingCmds -/

theorem kept_ringCtlWrite {x0 : Path} {x1 : Nat} {x2 : Nat} (h : Kept a s) : Kept a (State.ringCtlWrite s x0 x1 x2).2 := by
  unfold State.ringCtlWrite
  repeat' first
    | with_reducible (exact Kept.refl _) | with_reducible (assumption) | simp only [Kept.lit] | with_reducible (apply kept_viol) | with_reducible (apply kept_enableRing)
    | with_reducible (apply kept_resetRing) | with_reducible (apply kept_resumeRing) | (intro) | (split)

/-! ## FoxCmds -/

theorem kept_startNext {x0 : Nat} (h : Kept a s) : Kept a (State.startNext s x0) := by
  unfold State.startNext
  repeat' first
    | with_reducible (exact Kept.refl _) | with_reducible (assumption) | simp only [Kept.lit] | with_reducible (apply kept_finishDesc)
    | with_reducible (apply kept_startDesc) | (intro) | (split)

theorem kept_markSlot {x0 : Nat} {x1 : SlotSt} (h : Kept a s) : Kept a (State.markSlot s x0 x1) := by
  unfold State.markSlot
  repeat' first
    | with_reducible (exact Kept.refl _) | with_reducible (assumption) | simp only [Kept.lit] | (intro) | (split)

theorem kept_slotWrite {x0 : Nat} {x1 : List (BitVec 8)} (h : Kept a s) : Kept a (State.slotWrite s x0 x1) := by
  unfold State.slotWrite
  repeat' first
    | with_reducible (exact Kept.refl _) | with_reducible (assumption) | simp only [Kept.lit] | (intro) | (split) | with_reducible (apply Kept.foldl)
    | with_reducible (apply Kept.foldl_snd) | with_reducible (apply Kept.foldl_fst)

theorem kept_sbAddrWrite {x0 : Nat} (h : Kept a s) : Kept a (State.sbAddrWrite s x0).2 := by
  unfold State.sbAddrWrite
  repeat' first
    | with_reducible (exact Kept.refl _) | with_reducible (assumption) | simp only [Kept.lit] | with_reducible (apply kept_setReg) | with_reducible (apply kept_viol)
    | (intro) | (split)

theorem kept_sbDataWrite {x0 : Nat} (h : Kept a s) : Kept a (State.sbDataWrite s x0).2 := by
  unfold State.sbDataWrite
  repeat' first
    | with_reducible (exact Kept.refl _) | with_reducible (assumption) | simp only [Kept.lit] | with_reducible (apply kept_setReg) | with_reducible (apply kept_viol)
    | (intro) | (split) | with_reducible (apply Kept.foldl) | with_reducible (apply Kept.foldl_snd) | with_reducible (apply Kept.foldl_fst)

theorem kept_sbGoWrite {x0 : Nat} (h : Kept a s) : Kept a (State.sbGoWrite s x0).2 := by
  unfold State.sbGoWrite
  repeat' first
    | with_reducible (exact Kept.refl _) | with_reducible (assumption) | simp only [Kept.lit] | with_reducible (apply kept_viol) | with_reducible (apply kept_set)
    | (intro) | (split)

theorem kept_foxCtlWrite {x0 : Nat} {x1 : Nat} (h : Kept a s) : Kept a (State.foxCtlWrite s x0 x1).2 := by
  unfold State.foxCtlWrite
  repeat' first
    | with_reducible (exact Kept.refl _) | with_reducible (assumption) | simp only [Kept.lit] | with_reducible (apply kept_viol) | with_reducible (apply kept_set)
    | (intro) | (split)

theorem kept_cvuCtlWrite {x0 : Nat} (h : Kept a s) : Kept a (State.cvuCtlWrite s x0).2 := by
  unfold State.cvuCtlWrite
  repeat' first
    | with_reducible (exact Kept.refl _) | with_reducible (assumption) | simp only [Kept.lit] | with_reducible (apply kept_viol) | with_reducible (apply kept_setCvu)
    | with_reducible (apply kept_releaseCvu) | (intro) | (split)

theorem kept_cvuDataWrite {x0 : Nat} {x1 : Nat} {x2 : Nat} (h : Kept a s) : Kept a (State.cvuDataWrite s x0 x1 x2).2 := by
  unfold State.cvuDataWrite
  repeat' first
    | with_reducible (exact Kept.refl _) | with_reducible (assumption) | simp only [Kept.lit] | with_reducible (apply kept_viol) | with_reducible (apply kept_feedCvu)
    | (intro) | (split)

theorem kept_trackWrite {x0 : Nat} (h : Kept a s) : Kept a (State.trackWrite s x0).2 := by
  unfold State.trackWrite
  repeat' first
    | with_reducible (exact Kept.refl _) | with_reducible (assumption) | simp only [Kept.lit] | with_reducible (apply kept_set) | (intro) | (split)

/-! ## SelfTest -/

theorem kept_coilTestFail {x0 : Nat} {x1 : Nat} (h : Kept a s) : Kept a (State.coilTestFail s x0 x1) := by
  unfold State.coilTestFail
  repeat' first
    | with_reducible (exact Kept.refl _) | with_reducible (assumption) | simp only [Kept.lit] | with_reducible (apply kept_inc) | with_reducible (apply kept_set)
    | with_reducible (apply kept_syncCol) | with_reducible (apply kept_coilFail) | with_reducible (apply kept_settleFailure) | (intro) | (split)

theorem kept_coilVerdict {x0 : Nat} {x1 : Nat} {x2 : Nat} {x3 : Bool} (h : Kept a s) : Kept a (State.coilVerdict s x0 x1 x2 x3) := by
  unfold State.coilVerdict
  repeat' first
    | with_reducible (exact Kept.refl _) | with_reducible (assumption) | simp only [Kept.lit] | with_reducible (apply kept_inc)
    | with_reducible (apply kept_coilTestFail) | (intro) | (split)

theorem kept_coilStart {x0 : Nat} {x1 : Nat} (h : Kept a s) : Kept a (State.coilStart s x0 x1) := by
  unfold State.coilStart
  repeat' first
    | with_reducible (exact Kept.refl _) | with_reducible (assumption) | simp only [Kept.lit] | with_reducible (apply kept_inc) | with_reducible (apply kept_setCol)
    | with_reducible (apply kept_sets) | with_reducible (apply kept_syncCol) | (intro) | (split) | with_reducible (apply Kept.drawn)

theorem kept_setPads {x0 : Nat} {x1 : Pads} (h : Kept a s) : Kept a (State.setPads s x0 x1) := by
  unfold State.setPads
  repeat' first
    | with_reducible (exact Kept.refl _) | with_reducible (assumption) | simp only [Kept.lit]

theorem kept_syncPads {x0 : Nat} (h : Kept a s) : Kept a (State.syncPads s x0) := by
  unfold State.syncPads
  repeat' first
    | with_reducible (exact Kept.refl _) | with_reducible (assumption) | simp only [Kept.lit] | with_reducible (apply kept_sets) | (intro) | (split)

theorem kept_padRepair {x0 : Nat} {x1 : Nat} {x2 : Nat} {t : State} (e : State.padRepair s x0 x1 x2 = some t) (h : Kept a s) : Kept a t := by
  unfold State.padRepair at e
  try dsimp only at e
  repeat' split at e
  all_goals first | (obtain rfl := Option.some.inj e) | cases e | skip
  repeat' first
    | with_reducible (exact Kept.refl _) | with_reducible (assumption) | simp only [Kept.lit] | with_reducible (apply kept_setPads)
    | with_reducible (apply kept_syncPads) | (intro) | (split)

theorem kept_padFail {x0 : Nat} {x1 : Nat} {x2 : Nat} (h : Kept a s) : Kept a (State.padFail s x0 x1 x2) := by
  unfold State.padFail
  repeat' first
    | with_reducible (exact Kept.refl _) | with_reducible (assumption) | simp only [Kept.lit] | with_reducible (refine kept_padRepair (by assumption) ?_)
    | with_reducible (apply kept_inc) | with_reducible (apply kept_retireSlice) | with_reducible (refine Kept.snd_of_eq (by assumption) ?_)
    | with_reducible (refine Kept.fst_of_eq (by assumption) ?_) | with_reducible (refine Kept.fst_of_eq3 (by assumption) ?_)
    | with_reducible (refine Kept.snd_of_eq3 (by assumption) ?_) | (intro) | (split)

theorem kept_sparePadFail {x0 : Nat} {x1 : Nat} {x2 : Nat} (h : Kept a s) : Kept a (State.sparePadFail s x0 x1 x2) := by
  unfold State.sparePadFail
  repeat' first
    | with_reducible (exact Kept.refl _) | with_reducible (assumption) | simp only [Kept.lit] | with_reducible (apply kept_setPads)
    | with_reducible (apply kept_syncPads) | with_reducible (apply kept_padFail) | (intro) | (split)

theorem kept_padVerdict {x0 : Nat} {x1 : Nat} {x2 : Nat} {x3 : Bool} (h : Kept a s) : Kept a (State.padVerdict s x0 x1 x2 x3) := by
  unfold State.padVerdict
  repeat' first
    | with_reducible (exact Kept.refl _) | with_reducible (assumption) | simp only [Kept.lit] | with_reducible (apply kept_inc) | with_reducible (apply kept_padFail)
    | with_reducible (apply kept_sparePadFail) | (intro) | (split)

theorem kept_padStart {x0 : Nat} {x1 : Nat} {x2 : Nat} (h : Kept a s) : Kept a (State.padStart s x0 x1 x2) := by
  unfold State.padStart
  repeat' first
    | with_reducible (exact Kept.refl _) | with_reducible (assumption) | simp only [Kept.lit] | with_reducible (apply kept_inc) | with_reducible (apply kept_setPads)
    | (intro) | (split)

theorem kept_quietWindow {x0 : Nat} {x1 : Bool} (h : Kept a s) : Kept a (State.quietWindow s x0 x1) := by
  unfold State.quietWindow
  repeat' first
    | with_reducible (exact Kept.refl _) | with_reducible (assumption) | simp only [Kept.lit] | with_reducible (apply kept_setPads) | with_reducible (apply kept_setLine)
    | (intro) | (split)

theorem kept_laneVerdict {x0 : Nat} {x1 : Nat} {x2 : Nat} (h : Kept a s) : Kept a (State.laneVerdict s x0 x1 x2) := by
  unfold State.laneVerdict
  repeat' first
    | with_reducible (exact Kept.refl _) | with_reducible (assumption) | simp only [Kept.lit] | with_reducible (apply kept_sets) | with_reducible (apply kept_set)
    | with_reducible (apply kept_inc) | (intro) | (split)

theorem kept_laneStart {x0 : Nat} {x1 : Nat} (h : Kept a s) : Kept a (State.laneStart s x0 x1) := by
  unfold State.laneStart
  repeat' first
    | with_reducible (exact Kept.refl _) | with_reducible (assumption) | simp only [Kept.lit] | with_reducible (apply kept_inc) | (intro) | (split)

theorem kept_abandonTests (h : Kept a s) : Kept a (State.abandonTests s) := by
  unfold State.abandonTests
  repeat' first
    | with_reducible (exact Kept.refl _) | with_reducible (assumption) | simp only [Kept.lit] | with_reducible (apply kept_setCol) | with_reducible (apply Kept.each)
    | (intro) | (split)

theorem kept_runUnit {x0 : BstRun} {x1 : CoilMeas} {x2 : Bool} {x3 : Nat} {x4 : Nat} (h : Kept a s) : Kept a (State.runUnit s x0 x1 x2 x3 x4).1 := by
  unfold State.runUnit
  repeat' first
    | with_reducible (exact Kept.refl _) | with_reducible (assumption) | simp only [Kept.lit] | with_reducible (apply kept_inc) | with_reducible (apply kept_coilVerdict)
    | with_reducible (apply kept_incBy) | with_reducible (apply kept_padVerdict) | with_reducible (apply kept_laneVerdict) | with_reducible (apply Kept.each) | (intro)
    | (split)

end Sys2Proof.Laws
end

