-- ==== Sys2Proof/Laws/KeptStart.lean ====
section
/-! SUPPORT. What the operations of resets, start-up, power, register accesses, JTAG keep (`Kept`): one lemma for each. -/

namespace Sys2Proof.Laws

set_option Elab.async false

set_option linter.all false

open Sys2Proof Sys2Proof.Machine

variable {a s : State}

/-! ## Startup -/

theorem kept_regsFilter {p : Nat × BitVec 32 → Bool} (h : Kept a s) : Kept a { s with regs := s.regs.filter p } :=
  h.trans ⟨rfl, rfl, Nat.le_refl _, fun hw => by
    simp only [State.wf, Bool.and_eq_true, List.all_eq_true] at hw ⊢
    exact ⟨⟨⟨rising_filter hw.1.1.1 _, fun e he => hw.1.1.2 e (List.mem_filter.mp he).1⟩, hw.1.2⟩, hw.2⟩⟩

theorem kept_resetRegs {k : ResetKind} (h : Kept a s) : Kept a (State.resetRegs s k) := by
  unfold State.resetRegs
  split
  · exact Kept.foldl (kept_set (kept_regsFilter h)) fun _ _ _ => kept_set
  · exact kept_regsFilter h

theorem kept_keepCodes {x0 : Nat → Bool} (h : Kept a s) : Kept a (State.keepCodes s x0) := by
  unfold State.keepCodes
  repeat' first
    | with_reducible (exact Kept.refl _) | with_reducible (assumption) | simp only [Kept.lit] | (intro) | (split)

theorem kept_afterReset {k : ResetKind} (h : Kept a s) : Kept a (State.afterReset s k) := by
  refine h.trans ⟨rfl, rfl, Nat.le_refl _, fun hw => ?_⟩
  have hr := (kept_resetRegs (k := k) (Kept.refl s)).wf hw
  simp only [State.wf, Bool.and_eq_true] at hw hr ⊢
  refine ⟨⟨hr.1.1, hw.1.2⟩, ?_⟩
  show rising (State.resetMarl s).lines = true
  unfold State.resetMarl
  split
  · exact hw.2
  · rfl

theorem kept_variantRegs (h : Kept a s) : Kept a (State.variantRegs s) := by
  unfold State.variantRegs
  repeat' first
    | with_reducible (exact Kept.refl _) | with_reducible (assumption) | simp only [Kept.lit] | with_reducible (apply kept_setReg) | with_reducible (apply kept_set)
    | with_reducible (apply kept_setChn) | with_reducible (apply kept_sets) | with_reducible (apply Kept.each) | (intro) | (split)

theorem kept_baseReset {x0 : ResetKind} (h : Kept a s) : Kept a (State.baseReset s x0) := by
  unfold State.baseReset
  repeat' first
    | with_reducible (exact Kept.refl _) | with_reducible (assumption) | simp only [Kept.lit] | with_reducible (apply kept_stopHeartbeats)
    | with_reducible (apply kept_freezeMarl) | with_reducible (apply kept_otpCut) | with_reducible (apply kept_closeAll) | with_reducible (apply kept_afterReset)
    | with_reducible (apply kept_variantRegs) | with_reducible (apply kept_set) | with_reducible (apply kept_setReg) | with_reducible (apply kept_sets) | (intro)
    | (split)

theorem kept_setPhase {x0 : Nat} (h : Kept a s) : Kept a (State.setPhase s x0) := by
  unfold State.setPhase
  repeat' first
    | with_reducible (exact Kept.refl _) | with_reducible (assumption) | simp only [Kept.lit] | with_reducible (apply kept_sets) | (intro) | (split)

theorem kept_startRseq (h : Kept a s) : Kept a (State.startRseq s) := by
  unfold State.startRseq
  repeat' first
    | with_reducible (exact Kept.refl _) | with_reducible (assumption) | simp only [Kept.lit] | (intro) | (split)

theorem kept_enterP1 (h : Kept a s) : Kept a (State.enterP1 s) := by
  unfold State.enterP1
  repeat' first
    | with_reducible (exact Kept.refl _) | with_reducible (assumption) | simp only [Kept.lit] | with_reducible (apply kept_loadCounters)
    | with_reducible (apply kept_startRseq) | with_reducible (apply kept_senseFuses) | with_reducible (apply kept_variantRegs) | with_reducible (apply kept_sets)
    | (intro) | (split)

theorem kept_tryStart (h : Kept a s) : Kept a (State.tryStart s) := by
  unfold State.tryStart
  repeat' first
    | with_reducible (exact Kept.refl _) | with_reducible (assumption) | simp only [Kept.lit] | with_reducible (apply kept_enterP1) | (intro) | (split)

theorem kept_startRec (h : Kept a s) : Kept a (State.startRec s) := by
  unfold State.startRec
  repeat' first
    | with_reducible (exact Kept.refl _) | with_reducible (assumption) | simp only [Kept.lit] | with_reducible (apply kept_record)

theorem kept_fusedPad {x0 : Nat} {x1 : Nat} (h : Kept a s) : Kept a (State.fusedPad s x0 x1) := by
  unfold State.fusedPad
  repeat' first
    | with_reducible (exact Kept.refl _) | with_reducible (assumption) | simp only [Kept.lit] | with_reducible (apply kept_incSat) | with_reducible (apply kept_setPads)
    | with_reducible (apply kept_syncPads) | (intro) | (split)

theorem kept_fusedPads (h : Kept a s) : Kept a (State.fusedPads s) := by
  unfold State.fusedPads
  repeat' first
    | with_reducible (exact Kept.refl _) | with_reducible (assumption) | simp only [Kept.lit] | with_reducible (apply kept_fusedPad) | with_reducible (apply Kept.each)
    | (intro) | (split)

theorem kept_enterP3 (h : Kept a s) : Kept a (State.enterP3 s) := by
  unfold State.enterP3
  repeat' first
    | with_reducible (exact Kept.refl _) | with_reducible (assumption) | simp only [Kept.lit] | with_reducible (apply kept_setPhase)
    | with_reducible (apply kept_recorderRec) | with_reducible (apply kept_event) | with_reducible (apply kept_fuseEvents) | with_reducible (apply kept_fuseFaults)
    | with_reducible (apply kept_fusedPads) | with_reducible (apply kept_loadSnapshot) | with_reducible (apply kept_checkPort) | with_reducible (apply kept_settle)
    | with_reducible (apply Kept.each) | (intro) | (split)

theorem kept_badMarlUnits {x0 : List (BitVec 22)} (h : Kept a s) : Kept a (State.badMarlUnits s x0) := by
  unfold State.badMarlUnits
  repeat' first
    | with_reducible (exact Kept.refl _) | with_reducible (assumption) | simp only [Kept.lit] | with_reducible (apply kept_incBy) | (intro) | (split)

theorem kept_poolCheck (h : Kept a s) : Kept a (State.poolCheck s) := by
  unfold State.poolCheck
  repeat' first
    | with_reducible (exact Kept.refl _) | with_reducible (assumption) | simp only [Kept.lit] | with_reducible (apply kept_raiseRec) | (intro) | (split)

theorem kept_coldHold {x0 : Nat} {x1 : Nat} (h : Kept a s) : Kept a (State.coldHold s x0 x1) := by
  unfold State.coldHold
  repeat' first
    | with_reducible (exact Kept.refl _) | with_reducible (assumption) | simp only [Kept.lit] | with_reducible (apply kept_setPhase) | with_reducible (apply kept_set)
    | with_reducible (apply kept_event) | (intro) | (split)

theorem kept_enterP4 (h : Kept a s) : Kept a (State.enterP4 s) := by
  unfold State.enterP4
  repeat' first
    | with_reducible (exact Kept.refl _) | with_reducible (assumption) | simp only [Kept.lit] | with_reducible (apply kept_setPhase)
    | with_reducible (apply kept_fenceChannel) | with_reducible (apply Kept.each) | (intro) | (split)

theorem kept_afterP3 (h : Kept a s) : Kept a (State.afterP3 s) := by
  unfold State.afterP3
  repeat' first
    | with_reducible (exact Kept.refl _) | with_reducible (assumption) | simp only [Kept.lit] | with_reducible (apply kept_setPhase)
    | with_reducible (apply kept_enterP4) | (intro) | (split)

theorem kept_endP3 {x0 : PhaseRes} (h : Kept a s) : Kept a (State.endP3 s x0) := by
  unfold State.endP3
  repeat' first
    | with_reducible (exact Kept.refl _) | with_reducible (assumption) | simp only [Kept.lit] | with_reducible (apply kept_badMarlUnits)
    | with_reducible (refine kept_padRepair (by assumption) ?_) | with_reducible (apply kept_retireSlice) | with_reducible (apply kept_set)
    | with_reducible (apply kept_poolCheck) | with_reducible (apply kept_settle) | with_reducible (apply kept_coldHold) | with_reducible (apply kept_afterP3)
    | with_reducible (apply Kept.each) | with_reducible (refine Kept.snd_of_eq (by assumption) ?_) | with_reducible (refine Kept.fst_of_eq (by assumption) ?_)
    | with_reducible (refine Kept.fst_of_eq3 (by assumption) ?_) | with_reducible (refine Kept.snd_of_eq3 (by assumption) ?_) | (intro) | (split)

theorem kept_spareTakes {x0 : Nat} {x1 : Nat} {x2 : Nat} {x3 : Nat} (h : Kept a s) : Kept a (State.spareTakes s x0 x1 x2 x3) := by
  unfold State.spareTakes
  repeat' first
    | with_reducible (exact Kept.refl _) | with_reducible (assumption) | simp only [Kept.lit] | with_reducible (apply kept_sets)

theorem kept_freeAt {x0 : Nat} {x1 : Nat} (h : Kept a s) : Kept a (State.freeAt s x0 x1) := by
  unfold State.freeAt
  repeat' first
    | with_reducible (exact Kept.refl _) | with_reducible (assumption) | simp only [Kept.lit] | with_reducible (apply kept_spareTakes) | with_reducible (apply Kept.each)
    | (intro) | (split)

theorem kept_fusedSpares {x0 : Nat} (h : Kept a s) : Kept a (State.fusedSpares s x0) := by
  unfold State.fusedSpares
  repeat' first
    | with_reducible (exact Kept.refl _) | with_reducible (assumption) | simp only [Kept.lit] | with_reducible (apply kept_set) | with_reducible (apply kept_freeAt)
    | with_reducible (apply kept_spareTakes) | with_reducible (apply Kept.each) | (intro) | (split)

theorem kept_markFused {x0 : Nat} {x1 : SoftRec} (h : Kept a s) : Kept a (State.markFused s x0 x1) := by
  unfold State.markFused
  repeat' first
    | with_reducible (exact Kept.refl _) | with_reducible (assumption) | simp only [Kept.lit] | with_reducible (apply kept_set)

theorem kept_softSpares {x0 : Nat} (h : Kept a s) : Kept a (State.softSpares s x0) := by
  unfold State.softSpares
  repeat' first
    | with_reducible (exact Kept.refl _) | with_reducible (assumption) | simp only [Kept.lit] | with_reducible (apply kept_markFused)
    | with_reducible (apply kept_incSat) | with_reducible (apply kept_freeAt) | with_reducible (apply kept_spareTakes) | with_reducible (apply Kept.each) | (intro)
    | (split)

theorem kept_startMode {x0 : Nat} (h : Kept a s) : Kept a (State.startMode s x0) := by
  unfold State.startMode
  repeat' first
    | with_reducible (exact Kept.refl _) | with_reducible (assumption) | simp only [Kept.lit] | with_reducible (apply kept_sets) | with_reducible (apply kept_set)
    | (intro) | (split) | with_reducible (apply Kept.drawn)

theorem kept_badCoil {x0 : Nat} {x1 : Nat} (h : Kept a s) : Kept a (State.badCoil s x0 x1) := by
  unfold State.badCoil
  repeat' first
    | with_reducible (exact Kept.refl _) | with_reducible (assumption) | simp only [Kept.lit] | with_reducible (apply kept_set) | with_reducible (apply kept_syncCol)
    | with_reducible (apply kept_coilFail) | with_reducible (apply kept_settleFailure) | (intro) | (split)

theorem kept_calibrate {x0 : Nat} {x1 : PhaseRes} (h : Kept a s) : Kept a (State.calibrate s x0 x1) := by
  unfold State.calibrate
  repeat' first
    | with_reducible (exact Kept.refl _) | with_reducible (assumption) | simp only [Kept.lit] | with_reducible (apply kept_spareTakes)
    | with_reducible (apply kept_setCol) | with_reducible (apply kept_fusedSpares) | with_reducible (apply kept_softSpares) | with_reducible (apply kept_startMode)
    | with_reducible (apply kept_syncCol) | with_reducible (apply kept_takeCal) | with_reducible (apply kept_badCoil) | with_reducible (apply kept_judgeResid)
    | with_reducible (apply Kept.each) | (intro) | (split)

theorem kept_startLayer {x0 : PhaseRes} {x1 : Nat} (h : Kept a s) : Kept a (State.startLayer s x0 x1) := by
  unfold State.startLayer
  repeat' first
    | with_reducible (exact Kept.refl _) | with_reducible (assumption) | simp only [Kept.lit] | with_reducible (apply kept_fenceChannel)
    | with_reducible (apply kept_sets) | with_reducible (apply kept_setLyrLock) | with_reducible (apply kept_event) | with_reducible (apply kept_calibrate)
    | with_reducible (apply Kept.each) | (intro) | (split)

theorem kept_endP4 {x0 : PhaseRes} (h : Kept a s) : Kept a (State.endP4 s x0).1 := by
  unfold State.endP4
  repeat' first
    | with_reducible (exact Kept.refl _) | with_reducible (assumption) | simp only [Kept.lit] | with_reducible (apply kept_startLayer)
    | with_reducible (apply kept_settle) | with_reducible (apply kept_coldHold) | with_reducible (apply Kept.each) | (intro) | (split)

theorem kept_loadMap (h : Kept a s) : Kept a (State.loadMap s) := by
  unfold State.loadMap
  repeat' first
    | with_reducible (exact Kept.refl _) | with_reducible (assumption) | simp only [Kept.lit] | with_reducible (apply kept_setReg) | with_reducible (apply kept_set)
    | with_reducible (apply kept_event) | with_reducible (apply kept_showMap) | (intro) | (split)

theorem kept_loadRebuild {x0 : Nat} (h : Kept a s) : Kept a (State.loadRebuild s x0) := by
  unfold State.loadRebuild
  repeat' first
    | with_reducible (exact Kept.refl _) | with_reducible (assumption) | simp only [Kept.lit] | with_reducible (apply kept_sets) | with_reducible (apply kept_setChn)
    | (intro) | (split)

theorem kept_fencedAtStart {x0 : Nat} (h : Kept a s) : Kept a (State.fencedAtStart s x0) := by
  unfold State.fencedAtStart
  repeat' first
    | with_reducible (exact Kept.refl _) | with_reducible (assumption) | simp only [Kept.lit] | with_reducible (apply kept_set) | with_reducible (apply kept_changeGroup)
    | with_reducible (apply kept_sets) | with_reducible (apply kept_event) | with_reducible (apply Kept.each) | (intro) | (split)

theorem kept_fusedDram {x0 : Nat} (h : Kept a s) : Kept a (State.fusedDram s x0) := by
  unfold State.fusedDram
  repeat' first
    | with_reducible (exact Kept.refl _) | with_reducible (assumption) | simp only [Kept.lit] | with_reducible (apply kept_incSat) | (intro) | (split)

theorem kept_softDram {x0 : Nat} {x1 : SoftRec} (h : Kept a s) : Kept a (State.softDram s x0 x1) := by
  unfold State.softDram
  repeat' first
    | with_reducible (exact Kept.refl _) | with_reducible (assumption) | simp only [Kept.lit] | with_reducible (apply kept_markFused)
    | with_reducible (apply kept_incSat) | with_reducible (apply kept_putBlkFix) | (intro) | (split)

theorem kept_applyDramRepairs (h : Kept a s) : Kept a (State.applyDramRepairs s) := by
  unfold State.applyDramRepairs
  repeat' first
    | with_reducible (exact Kept.refl _) | with_reducible (assumption) | simp only [Kept.lit] | with_reducible (apply kept_fusedDram)
    | with_reducible (apply kept_softDram) | with_reducible (apply kept_syncRepair) | with_reducible (apply Kept.each) | (intro) | (split)

theorem kept_enterP5 (h : Kept a s) : Kept a (State.enterP5 s) := by
  unfold State.enterP5
  repeat' first
    | with_reducible (exact Kept.refl _) | with_reducible (assumption) | simp only [Kept.lit] | with_reducible (apply kept_setPhase)
    | with_reducible (apply kept_loadMap) | with_reducible (apply kept_loadRebuild) | with_reducible (apply kept_fencedAtStart)
    | with_reducible (apply kept_applyDramRepairs) | with_reducible (apply Kept.each) | (intro) | (split)

theorem kept_startChan {x0 : PhaseRes} {x1 : Nat} (h : Kept a s) : Kept a (State.startChan s x0 x1) := by
  unfold State.startChan
  repeat' first
    | with_reducible (exact Kept.refl _) | with_reducible (assumption) | simp only [Kept.lit] | with_reducible (apply kept_dramForget)
    | with_reducible (apply kept_setChn) | with_reducible (apply kept_set) | with_reducible (apply kept_setReg) | with_reducible (apply kept_fenceChannel) | (intro)
    | (split)

theorem kept_endP5 {x0 : PhaseRes} (h : Kept a s) : Kept a (State.endP5 s x0) := by
  unfold State.endP5
  repeat' first
    | with_reducible (exact Kept.refl _) | with_reducible (assumption) | simp only [Kept.lit] | with_reducible (apply kept_startChan)
    | with_reducible (apply kept_settle) | with_reducible (apply Kept.each) | (intro) | (split)

theorem kept_fusedMarlRow {x0 : Nat} {x1 : Nat} (h : Kept a s) : Kept a (State.fusedMarlRow s x0 x1) := by
  unfold State.fusedMarlRow
  repeat' first
    | with_reducible (exact Kept.refl _) | with_reducible (assumption) | simp only [Kept.lit] | with_reducible (apply kept_incSat) | (intro) | (split)

theorem kept_softMarl {x0 : Nat} {x1 : SoftRec} (h : Kept a s) : Kept a (State.softMarl s x0 x1) := by
  unfold State.softMarl
  repeat' first
    | with_reducible (exact Kept.refl _) | with_reducible (assumption) | simp only [Kept.lit] | with_reducible (apply kept_markFused)
    | with_reducible (apply kept_incSat) | with_reducible (apply kept_putMarlRow) | with_reducible (apply kept_putMarlBlk) | (intro) | (split)

theorem kept_applyMarlRepairs (h : Kept a s) : Kept a (State.applyMarlRepairs s) := by
  unfold State.applyMarlRepairs
  repeat' first
    | with_reducible (exact Kept.refl _) | with_reducible (assumption) | simp only [Kept.lit] | with_reducible (apply kept_fusedMarlRow)
    | with_reducible (apply kept_softMarl) | with_reducible (apply kept_syncMarlRepair) | with_reducible (apply Kept.each) | (intro) | (split)

theorem kept_failedSlices (h : Kept a s) : Kept a (State.failedSlices s) :=
  Kept.each h fun _ _ _ hu => Kept.each hu fun _ _ _ => kept_set

theorem kept_endP6 {x0 : PhaseRes} (h : Kept a s) : Kept a (State.endP6 s x0) := by
  unfold State.endP6
  repeat' first
    | with_reducible (exact Kept.refl _) | with_reducible (assumption) | simp only [Kept.lit] | with_reducible (apply kept_failedSlices)
    | with_reducible (apply kept_applyMarlRepairs) | with_reducible (apply kept_badMarlUnits) | with_reducible (apply kept_poolCheck)
    | with_reducible (apply kept_fillSliceMap) | with_reducible (apply kept_reattach) | with_reducible (apply kept_set) | with_reducible (apply kept_raiseRec)
    | with_reducible (apply kept_settle) | with_reducible (exact id) | (exact fun _ => rfl) | (exact fun hm => rising_filter hm _)
    | (exact fun hm => rising_map hm _ fun _ => rfl) | (exact fun hm => rising_map (rising_filter hm _) _ fun _ => rfl) | (intro) | (split)
    | with_reducible (refine Kept.lit_maps ?_ ?_ ?_)

theorem kept_enterP7 (h : Kept a s) : Kept a (State.enterP7 s) := by
  unfold State.enterP7
  repeat' first
    | with_reducible (exact Kept.refl _) | with_reducible (assumption) | simp only [Kept.lit] | with_reducible (apply kept_setPhase) | with_reducible (apply kept_raise)
    | (intro) | (split)

theorem kept_takeImage {x0 : Nat} {x1 : Nat} {x2 : List (BitVec 8)} {x3 : List (BitVec 8)} {x4 : Bool} (h : Kept a s) : Kept a (State.takeImage s x0 x1 x2 x3 x4) := by
  unfold State.takeImage
  repeat' first
    | with_reducible (exact Kept.refl _) | with_reducible (assumption) | simp only [Kept.lit] | with_reducible (apply kept_sets) | with_reducible (apply kept_putEng)
    | with_reducible (apply kept_set) | with_reducible (apply kept_saveCounters) | with_reducible (apply Kept.each) | (intro) | (split)

theorem kept_noImage (h : Kept a s) : Kept a (State.noImage s) := by
  unfold State.noImage
  repeat' first
    | with_reducible (exact Kept.refl _) | with_reducible (assumption) | simp only [Kept.lit] | with_reducible (apply kept_set) | with_reducible (apply kept_raiseRec)

theorem kept_trySlot {x0 : Bool × Bool} {x1 : Nat} (h : Kept a s) : Kept a (State.trySlot s x0 x1).1 := by
  unfold State.trySlot
  repeat' first
    | with_reducible (exact Kept.refl _) | with_reducible (assumption) | simp only [Kept.lit] | with_reducible (apply kept_markSlot)
    | with_reducible (apply kept_takeImage) | (intro) | (split)

theorem kept_trySlots {x0 : Bool × Bool} {x1 : List Nat} (h : Kept a s) : Kept a (State.trySlots s x0 x1) := by
  induction x1 generalizing s with
  | nil => unfold State.trySlots; exact kept_noImage h
  | cons x l ih =>
    unfold State.trySlots
    split
    · exact kept_trySlot h
    · exact ih (kept_trySlot h)

theorem kept_loadFirmware {x0 : Bool × Bool} (h : Kept a s) : Kept a (State.loadFirmware s x0) := by
  unfold State.loadFirmware
  repeat' first
    | with_reducible (exact Kept.refl _) | with_reducible (assumption) | simp only [Kept.lit] | with_reducible (apply kept_takeImage)
    | with_reducible (apply kept_noImage) | with_reducible (apply kept_trySlots) | (intro) | (split)

theorem kept_enterReady (h : Kept a s) : Kept a (State.enterReady s) := by
  unfold State.enterReady
  repeat' first
    | with_reducible (exact Kept.refl _) | with_reducible (assumption) | simp only [Kept.lit] | with_reducible (apply kept_setPhase) | with_reducible (apply kept_evalD)
    | with_reducible (apply kept_startTimers) | with_reducible (apply kept_passStart) | with_reducible (apply kept_startRec) | with_reducible (apply kept_settle)
    | with_reducible (apply Kept.each) | (intro) | (split)

theorem kept_phaseEnd {x0 : PhaseRes} (h : Kept a s) : Kept a (State.phaseEnd s x0) := by
  unfold State.phaseEnd
  repeat' first
    | with_reducible (exact Kept.refl _) | with_reducible (assumption) | simp only [Kept.lit] | with_reducible (apply kept_endP3) | with_reducible (apply kept_endP4)
    | with_reducible (apply kept_enterP5) | with_reducible (apply kept_endP5) | with_reducible (apply kept_setPhase) | with_reducible (apply kept_endP6)
    | with_reducible (apply kept_enterP7) | with_reducible (apply kept_loadFirmware) | with_reducible (apply kept_settle) | with_reducible (apply kept_enterReady)
    | with_reducible (refine Kept.snd_of_eq (by assumption) ?_) | with_reducible (refine Kept.fst_of_eq (by assumption) ?_)
    | with_reducible (refine Kept.fst_of_eq3 (by assumption) ?_) | with_reducible (refine Kept.snd_of_eq3 (by assumption) ?_) | (intro) | (split)

theorem kept_endP2 (h : Kept a s) : Kept a (State.endP2 s) := by
  unfold State.endP2
  repeat' first
    | with_reducible (exact Kept.refl _) | with_reducible (assumption) | simp only [Kept.lit] | with_reducible (apply kept_setPhase)
    | with_reducible (apply kept_startRec) | with_reducible (apply kept_fuseEvents) | with_reducible (apply kept_enterP3) | (intro) | (split)

theorem kept_goWrite {x0 : Nat} (h : Kept a s) : Kept a (State.goWrite s x0).2 := by
  unfold State.goWrite
  repeat' first
    | with_reducible (exact Kept.refl _) | with_reducible (assumption) | simp only [Kept.lit] | with_reducible (apply kept_set) | with_reducible (apply kept_enterP4)
    | with_reducible (apply kept_viol) | (intro) | (split)

theorem kept_vaonLost (h : Kept a s) : Kept a (State.vaonLost s) := by
  unfold State.vaonLost
  repeat' first
    | with_reducible (exact Kept.refl _) | with_reducible (assumption) | simp only [Kept.lit] | with_reducible (apply kept_baseReset) | (intro) | (split)

theorem kept_powerOn {x0 : BitVec 12} {x1 : BitVec 2} {x2 : Bool} (h : Kept a s) : Kept a (State.powerOn s x0 x1 x2) := by
  unfold State.powerOn
  repeat' first
    | with_reducible (exact Kept.refl _) | with_reducible (assumption) | simp only [Kept.lit] | with_reducible (apply kept_vaonLost)
    | with_reducible (apply kept_baseReset) | with_reducible (apply kept_sets) | with_reducible (apply kept_tryStart) | (intro) | (split)

theorem kept_portsLost (h : Kept a s) : Kept a (State.portsLost s) := by
  unfold State.portsLost
  repeat' first
    | with_reducible (exact Kept.refl _) | with_reducible (assumption) | simp only [Kept.lit] | with_reducible (apply kept_portClear)
    | with_reducible (apply kept_closePairs) | with_reducible (apply Kept.each) | (intro) | (split)

/-! ## Power -/

theorem kept_askS1 (h : Kept a s) : Kept a (State.askS1 s) := by
  unfold State.askS1
  repeat' first
    | with_reducible (exact Kept.refl _) | with_reducible (assumption) | simp only [Kept.lit] | with_reducible (apply kept_set)

theorem kept_startSleep {x0 : Nat} {x1 : Asker} {x2 : Nat} (h : Kept a s) : Kept a (State.startSleep s x0 x1 x2) := by
  unfold State.startSleep
  repeat' first
    | with_reducible (exact Kept.refl _) | with_reducible (assumption) | simp only [Kept.lit] | with_reducible (apply kept_sets) | (intro) | (split)

theorem kept_toL1 {x0 : Nat} {x1 : Nat} (h : Kept a s) : Kept a (State.toL1 s x0 x1) := by
  unfold State.toL1
  repeat' first
    | with_reducible (exact Kept.refl _) | with_reducible (assumption) | simp only [Kept.lit] | with_reducible (apply kept_linkIdle) | (intro) | (split)

theorem kept_emptyMarl (h : Kept a s) : Kept a (State.emptyMarl s) := by
  unfold State.emptyMarl
  repeat' first
    | with_reducible (exact Kept.refl _) | with_reducible (assumption) | simp only [Kept.lit] | with_reducible (apply kept_writeBackNow)
    | with_reducible (apply kept_loseDirty) | with_reducible (apply kept_clearQueues) | with_reducible (apply kept_dramForget) | with_reducible (apply kept_emptyCache)
    | with_reducible (apply Kept.each) | with_reducible (exact id) | (exact fun _ => rfl) | (exact fun hm => rising_filter hm _)
    | (exact fun hm => rising_map hm _ fun _ => rfl) | (exact fun hm => rising_map (rising_filter hm _) _ fun _ => rfl) | (intro) | (split)
    | with_reducible (refine Kept.lit_maps ?_ ?_ ?_)

theorem kept_channelsDown (h : Kept a s) : Kept a (State.channelsDown s) := by
  unfold State.channelsDown
  repeat' first
    | with_reducible (exact Kept.refl _) | with_reducible (assumption) | simp only [Kept.lit] | with_reducible (apply kept_setChn) | with_reducible (apply kept_set)
    | with_reducible (apply Kept.each) | (intro) | (split)

theorem kept_linkSleep {x0 : Nat} {x1 : Nat} {x2 : Nat} (h : Kept a s) : Kept a (State.linkSleep s x0 x1 x2) := by
  unfold State.linkSleep
  repeat' first
    | with_reducible (exact Kept.refl _) | with_reducible (assumption) | simp only [Kept.lit] | with_reducible (apply kept_sendMarkers)
    | with_reducible (apply kept_laneOff) | with_reducible (apply kept_set) | with_reducible (apply kept_strand) | with_reducible (apply kept_linkDown)
    | with_reducible (apply Kept.each) | (intro) | (split)

theorem kept_fallAsleep {x0 : SleepEntry} (h : Kept a s) : Kept a (State.fallAsleep s x0) := by
  unfold State.fallAsleep
  repeat' first
    | with_reducible (exact Kept.refl _) | with_reducible (assumption) | simp only [Kept.lit] | with_reducible (apply kept_abandonTests)
    | with_reducible (apply kept_emptyMarl) | with_reducible (apply kept_flushSett) | with_reducible (apply kept_channelsDown) | with_reducible (apply kept_set)
    | with_reducible (apply kept_closePair) | with_reducible (apply kept_linkSleep) | with_reducible (apply Kept.each) | (intro) | (split)

theorem kept_pwrCtlWrite {x0 : Path} {x1 : Nat} (h : Kept a s) : Kept a (State.pwrCtlWrite s x0 x1).2 := by
  unfold State.pwrCtlWrite
  repeat' first
    | with_reducible (exact Kept.refl _) | with_reducible (assumption) | simp only [Kept.lit] | with_reducible (apply kept_set) | with_reducible (apply kept_wake)
    | with_reducible (apply kept_viol) | with_reducible (apply kept_askS1) | with_reducible (apply kept_startSleep) | (intro) | (split)

theorem kept_clearEngine {x0 : Nat} (h : Kept a s) : Kept a (State.clearEngine s x0) := by
  unfold State.clearEngine
  repeat' first
    | with_reducible (exact Kept.refl _) | with_reducible (assumption) | simp only [Kept.lit] | with_reducible (apply kept_trapEng) | with_reducible (apply kept_putEng)
    | (intro) | (split)

theorem kept_startReset {x0 : Nat} {x1 : Nat} {x2 : Asker} (h : Kept a s) : Kept a (State.startReset s x0 x1 x2) := by
  unfold State.startReset
  repeat' first
    | with_reducible (exact Kept.refl _) | with_reducible (assumption) | simp only [Kept.lit] | with_reducible (apply kept_setReg)
    | with_reducible (apply kept_portClear) | with_reducible (apply kept_set) | with_reducible (apply kept_clearEngine) | (intro) | (split)

theorem kept_resetCmd {x0 : Nat} {x1 : Nat} {x2 : Asker} {x3 : Bool} (h : Kept a s) : Kept a (State.resetCmd s x0 x1 x2 x3).2 := by
  unfold State.resetCmd
  repeat' first
    | with_reducible (exact Kept.refl _) | with_reducible (assumption) | simp only [Kept.lit] | with_reducible (apply kept_sets) | with_reducible (apply kept_viol)
    | with_reducible (apply kept_startReset) | (intro) | (split)

theorem kept_rstWrite {x0 : Path} {x1 : Nat} (h : Kept a s) : Kept a (State.rstWrite s x0 x1).2 := by
  unfold State.rstWrite
  repeat' first
    | with_reducible (exact Kept.refl _) | with_reducible (assumption) | simp only [Kept.lit] | with_reducible (apply kept_resetCmd)
    | with_reducible (refine Kept.snd_of_eq (by assumption) ?_) | with_reducible (refine Kept.fst_of_eq (by assumption) ?_)
    | with_reducible (refine Kept.fst_of_eq3 (by assumption) ?_) | with_reducible (refine Kept.snd_of_eq3 (by assumption) ?_) | (intro) | (split)

theorem kept_endUnitReset {x0 : UnitReset} (h : Kept a s) : Kept a (State.endUnitReset s x0) := by
  unfold State.endUnitReset
  repeat' first
    | with_reducible (exact Kept.refl _) | with_reducible (assumption) | simp only [Kept.lit] | with_reducible (apply kept_unitResetEnd)
    | with_reducible (apply kept_checkPort) | with_reducible (apply kept_writeBackNow) | with_reducible (apply kept_channelSr) | with_reducible (apply kept_clearQueues)
    | with_reducible (apply kept_incSat) | with_reducible (apply kept_setChn) | with_reducible (apply kept_clearHbLost) | with_reducible (apply kept_sets)
    | with_reducible (apply kept_reloadEng) | with_reducible (apply Kept.each) | (intro) | (split) | with_reducible (apply Kept.drawn)

/-! ## RegWrite -/

theorem kept_lockWrite {x0 : Nat} (h : Kept a s) : Kept a (State.lockWrite s x0).2 := by
  unfold State.lockWrite
  repeat' first
    | with_reducible (exact Kept.refl _) | with_reducible (assumption) | simp only [Kept.lit] | with_reducible (apply kept_viol)
    | with_reducible (apply kept_closeWindow) | with_reducible (apply kept_set) | (intro) | (split)

theorem kept_injectWrite {x0 : Nat} {x1 : Nat} (h : Kept a s) : Kept a (State.injectWrite s x0 x1).2 := by
  unfold State.injectWrite
  repeat' first
    | with_reducible (exact Kept.refl _) | with_reducible (assumption) | simp only [Kept.lit] | with_reducible (apply kept_viol) | with_reducible (apply kept_set)
    | with_reducible (apply Kept.when) | (intro) | (split)

theorem kept_mechWrite {x0 : Nat} (h : Kept a s) : Kept a (State.mechWrite s x0).2 := by
  unfold State.mechWrite
  repeat' first
    | with_reducible (exact Kept.refl _) | with_reducible (assumption) | simp only [Kept.lit] | with_reducible (apply kept_set) | with_reducible (apply kept_viol)
    | (intro) | (split)

theorem kept_pwrCfgWrite {x0 : Nat} (h : Kept a s) : Kept a (State.pwrCfgWrite s x0).2 := by
  unfold State.pwrCfgWrite
  repeat' first
    | with_reducible (exact Kept.refl _) | with_reducible (assumption) | simp only [Kept.lit] | with_reducible (apply kept_setReg) | (intro) | (split)

theorem kept_thmWrite {x0 : Nat} {x1 : Nat} (h : Kept a s) : Kept a (State.thmWrite s x0 x1).2 := by
  unfold State.thmWrite
  repeat' first
    | with_reducible (exact Kept.refl _) | with_reducible (assumption) | simp only [Kept.lit] | with_reducible (apply kept_setLimits) | (intro) | (split)

theorem kept_badgerWrite {x0 : Nat} {x1 : Nat} (h : Kept a s) : Kept a (State.badgerWrite s x0 x1).2 := by
  unfold State.badgerWrite
  repeat' first
    | with_reducible (exact Kept.refl _) | with_reducible (assumption) | simp only [Kept.lit] | with_reducible (apply kept_setReg) | with_reducible (apply kept_viol)
    | with_reducible (apply kept_patrolWrite) | with_reducible (refine Kept.snd_of_eq (by assumption) ?_) | with_reducible (refine Kept.fst_of_eq (by assumption) ?_)
    | with_reducible (refine Kept.fst_of_eq3 (by assumption) ?_) | with_reducible (refine Kept.snd_of_eq3 (by assumption) ?_) | (intro) | (split)

theorem kept_ringSetWrite {x0 : Nat} {x1 : Nat} (h : Kept a s) : Kept a (State.ringSetWrite s x0 x1).2 := by
  unfold State.ringSetWrite
  repeat' first
    | with_reducible (exact Kept.refl _) | with_reducible (assumption) | simp only [Kept.lit] | with_reducible (apply kept_viol) | with_reducible (apply kept_setReg)
    | (intro) | (split)

theorem kept_plainWrite {x0 : Nat} {x1 : Nat} {x2 : RegDesc} (h : Kept a s) : Kept a (State.plainWrite s x0 x1 x2).2 := by
  unfold State.plainWrite
  repeat' first
    | with_reducible (exact Kept.refl _) | with_reducible (assumption) | simp only [Kept.lit] | with_reducible (apply kept_setReg)

theorem kept_atOnce {r : BitVec 8 × State} (h : Kept a r.2) : Kept a (atOnce r).2 := h

theorem kept_applyWrite {x0 : Path} {x1 : Blk} {x2 : Nat} {x3 : Nat} {x4 : Nat} {x5 : RegDesc} (h : Kept a s) : Kept a (State.applyWrite s x0 x1 x2 x3 x4 x5).2 := by
  unfold State.applyWrite
  repeat' first
    | with_reducible (exact Kept.refl _) | with_reducible (assumption) | simp only [Kept.lit] | with_reducible (apply kept_atOnce) | with_reducible (apply kept_didWrite)
    | with_reducible (apply kept_lockWrite) | with_reducible (apply kept_goWrite) | with_reducible (apply kept_pwrCfgWrite) | with_reducible (apply kept_pwrCtlWrite)
    | with_reducible (apply kept_memCfgWrite) | with_reducible (apply kept_plainWrite) | with_reducible (apply kept_refCfgWrite) | with_reducible (apply kept_gateWrite)
    | with_reducible (apply kept_rstWrite) | with_reducible (apply kept_otpWrite) | with_reducible (apply kept_thmWrite) | with_reducible (apply kept_fltAckWrite)
    | with_reducible (apply kept_fltInjDo) | with_reducible (apply kept_recCtlWrite) | with_reducible (apply kept_commitWrite) | with_reducible (apply kept_ringCtlWrite)
    | with_reducible (apply kept_ringSetWrite) | with_reducible (apply kept_bypCfgWrite) | with_reducible (apply kept_bypOpenWrite)
    | with_reducible (apply kept_membersWrite) | with_reducible (apply kept_routeWrite) | with_reducible (apply kept_roleWrite)
    | with_reducible (apply kept_portCfgWrite) | with_reducible (apply kept_linkCfgWrite) | with_reducible (apply kept_credWrite)
    | with_reducible (apply kept_injectWrite) | with_reducible (apply kept_prbsWrite) | with_reducible (apply kept_pasrWrite) | with_reducible (apply kept_ceLogWrite)
    | with_reducible (apply kept_partWrite) | with_reducible (apply kept_quiesceWrite) | with_reducible (apply kept_bufCfgWrite) | with_reducible (apply kept_flushWrite)
    | with_reducible (apply kept_foxCtlWrite) | with_reducible (apply kept_sbAddrWrite) | with_reducible (apply kept_sbDataWrite) | with_reducible (apply kept_sbGoWrite)
    | with_reducible (apply kept_mechWrite) | with_reducible (apply kept_badgerWrite) | with_reducible (apply kept_cvuCtlWrite)
    | with_reducible (apply kept_cvuDataWrite) | with_reducible (apply kept_trackWrite) | with_reducible (refine Kept.snd_of_eq (by assumption) ?_)
    | with_reducible (refine Kept.fst_of_eq (by assumption) ?_) | with_reducible (refine Kept.fst_of_eq3 (by assumption) ?_)
    | with_reducible (refine Kept.snd_of_eq3 (by assumption) ?_) | (intro) | (split)

theorem kept_noteResult {x0 : Nat} {x1 : BitVec 8} (h : Kept a s) : Kept a (State.noteResult s x0 x1) := by
  unfold State.noteResult
  repeat' first
    | with_reducible (exact Kept.refl _) | with_reducible (assumption) | simp only [Kept.lit] | with_reducible (apply kept_noteAck) | with_reducible (apply kept_noteInj)
    | (intro) | (split)

theorem kept_regWrite {x0 : Path} {x1 : Option Hdr} {x2 : Nat} {x3 : Nat} (h : Kept a s) : Kept a (State.regWrite s x0 x1 x2 x3).2 := by
  unfold State.regWrite
  repeat' first
    | with_reducible (exact Kept.refl _) | with_reducible (assumption) | simp only [Kept.lit] | with_reducible (apply kept_viol) | with_reducible (apply kept_noteResult)
    | with_reducible (apply kept_inc) | with_reducible (apply kept_applyWrite) | with_reducible (refine Kept.snd_of_eq (by assumption) ?_)
    | with_reducible (refine Kept.fst_of_eq (by assumption) ?_) | with_reducible (refine Kept.fst_of_eq3 (by assumption) ?_)
    | with_reducible (refine Kept.snd_of_eq3 (by assumption) ?_) | (intro) | (split)

theorem kept_pathWrite {x0 : Path} {x1 : Nat} {x2 : Nat} (h : Kept a s) : Kept a (State.pathWrite s x0 x1 x2) := by
  unfold State.pathWrite
  repeat' first
    | with_reducible (exact Kept.refl _) | with_reducible (assumption) | simp only [Kept.lit] | with_reducible (apply kept_pathStatus)
    | with_reducible (apply kept_regWrite) | with_reducible (apply kept_settle) | with_reducible (refine Kept.snd_of_eq (by assumption) ?_)
    | with_reducible (refine Kept.fst_of_eq (by assumption) ?_) | with_reducible (refine Kept.fst_of_eq3 (by assumption) ?_)
    | with_reducible (refine Kept.snd_of_eq3 (by assumption) ?_) | (intro) | (split)

/-! ## RegRead -/

theorem kept_readReg {x0 : Path} {x1 : Nat} (h : Kept a s) : Kept a (State.readReg s x0 x1).2 := by
  unfold State.readReg
  repeat' first
    | with_reducible (exact Kept.refl _) | with_reducible (assumption) | simp only [Kept.lit] | (intro) | (split)

theorem kept_readRegs {x0 : Path} {x1 : Nat} {x2 : Nat} (h : Kept a s) : Kept a (State.readRegs s x0 x1 x2).2 := by
  unfold State.readRegs
  repeat' first
    | with_reducible (exact Kept.refl _) | with_reducible (assumption) | simp only [Kept.lit] | with_reducible (apply kept_readReg)
    | with_reducible (refine Kept.snd_of_eq (by assumption) ?_) | with_reducible (refine Kept.fst_of_eq (by assumption) ?_)
    | with_reducible (refine Kept.fst_of_eq3 (by assumption) ?_) | with_reducible (refine Kept.snd_of_eq3 (by assumption) ?_) | (intro) | (split)
    | with_reducible (apply Kept.foldl) | with_reducible (apply Kept.foldl_snd) | with_reducible (apply Kept.foldl_fst)

theorem kept_mregTake {x0 : Packet} {x1 : State → State} (hx1 : ∀ a u0, Kept a u0 → Kept a (x1 u0)) (h : Kept a s) : Kept a (State.mregTake s x0 x1) := by
  unfold State.mregTake
  repeat' first
    | with_reducible (exact Kept.refl _) | with_reducible (assumption) | simp only [Kept.lit] | with_reducible (apply kept_withLocal)
    | with_reducible (apply kept_takeIn) | with_reducible (apply kept_activity) | with_reducible (apply kept_dropBad) | with_reducible (apply kept_inc)
    | with_reducible (apply kept_emitRsp) | with_reducible (refine Kept.snd_of_eq (by assumption) ?_) | with_reducible (refine Kept.fst_of_eq (by assumption) ?_)
    | with_reducible (refine Kept.fst_of_eq3 (by assumption) ?_) | with_reducible (refine Kept.snd_of_eq3 (by assumption) ?_) | with_reducible (apply hx1) | (intro)
    | (split)

theorem kept_sideRead {x0 : Path} {x1 : Nat} (h : Kept a s) : Kept a (State.sideRead s x0 x1).2.2 := by
  unfold State.sideRead
  repeat' first
    | with_reducible (exact Kept.refl _) | with_reducible (assumption) | simp only [Kept.lit] | with_reducible (apply kept_readReg)
    | with_reducible (refine Kept.snd_of_eq (by assumption) ?_) | with_reducible (refine Kept.fst_of_eq (by assumption) ?_)
    | with_reducible (refine Kept.fst_of_eq3 (by assumption) ?_) | with_reducible (refine Kept.snd_of_eq3 (by assumption) ?_) | (intro) | (split)

theorem kept_setI3cOffset {x0 : BitVec 24} (h : Kept a s) : Kept a (State.setI3cOffset s x0) := by
  unfold State.setI3cOffset
  repeat' first
    | with_reducible (exact Kept.refl _) | with_reducible (assumption) | simp only [Kept.lit]

/-! ## RegCmds -/

theorem kept_freezeRow {x0 : Bool} (h : Kept a s) : Kept a (State.freezeRow s x0) := by
  unfold State.freezeRow
  repeat' first
    | with_reducible (exact Kept.refl _) | with_reducible (assumption) | simp only [Kept.lit] | with_reducible (apply kept_startMgmt)
    | with_reducible (apply kept_recFreezeOp) | (intro) | (split)

/-! ## DescStart -/

theorem kept_startFltAck (h : Kept a s) : Kept a (State.startFltAck s) := by
  unfold State.startFltAck
  repeat' first
    | with_reducible (exact Kept.refl _) | with_reducible (assumption) | simp only [Kept.lit] | with_reducible (apply kept_startMgmt)
    | with_reducible (apply kept_fltAckOp) | (intro) | (split)

theorem kept_startRecFreeze (h : Kept a s) : Kept a (State.startRecFreeze s) := by
  unfold State.startRecFreeze
  repeat' first
    | with_reducible (exact Kept.refl _) | with_reducible (assumption) | simp only [Kept.lit] | with_reducible (apply kept_startMgmt)
    | with_reducible (apply kept_recFreezeOp) | (intro) | (split)

/-! ## Jtag -/

theorem kept_loadIr {x0 : BitVec 8} (h : Kept a s) : Kept a (State.loadIr s x0) := by
  unfold State.loadIr
  repeat' first
    | with_reducible (exact Kept.refl _) | with_reducible (assumption) | simp only [Kept.lit]

theorem kept_capture {x0 : List (BitVec 8)} (h : Kept a s) : Kept a (State.capture s x0) := by
  unfold State.capture
  repeat' first
    | with_reducible (exact Kept.refl _) | with_reducible (assumption) | simp only [Kept.lit]

theorem kept_asBypass (h : Kept a s) : Kept a (State.asBypass s) := by
  unfold State.asBypass
  repeat' first
    | with_reducible (exact Kept.refl _) | with_reducible (assumption) | simp only [Kept.lit] | with_reducible (apply kept_capture)

theorem kept_chainCapture (h : Kept a s) : Kept a (State.chainCapture s) := by
  unfold State.chainCapture
  repeat' first
    | with_reducible (exact Kept.refl _) | with_reducible (assumption) | simp only [Kept.lit] | with_reducible (apply kept_capture) | with_reducible (apply Kept.drawn)

theorem kept_startClearing (h : Kept a s) : Kept a (State.startClearing s) := by
  unfold State.startClearing
  repeat' first
    | with_reducible (exact Kept.refl _) | with_reducible (assumption) | simp only [Kept.lit] | with_reducible (apply kept_freezeMarl)
    | with_reducible (apply kept_squelchAll) | with_reducible (apply kept_dropTraffic) | with_reducible (apply kept_sets) | (intro) | (split)

theorem kept_takeEffect {x0 : BitVec 8} (h : Kept a s) : Kept a (State.takeEffect s x0) := by
  unfold State.takeEffect
  repeat' first
    | with_reducible (exact Kept.refl _) | with_reducible (assumption) | simp only [Kept.lit] | with_reducible (apply kept_asBypass)
    | with_reducible (apply kept_chainCapture) | (intro) | (split)

theorem kept_protectedIr {x0 : BitVec 8} (h : Kept a s) : Kept a (State.protectedIr s x0) := by
  unfold State.protectedIr
  repeat' first
    | with_reducible (exact Kept.refl _) | with_reducible (assumption) | simp only [Kept.lit] | with_reducible (apply kept_loadIr) | with_reducible (apply kept_asBypass)
    | with_reducible (apply kept_viol) | with_reducible (apply kept_takeEffect) | with_reducible (apply kept_startClearing) | (intro) | (split)

theorem kept_openIr {x0 : BitVec 8} {x1 : State → State} (hx1 : ∀ a u0, Kept a u0 → Kept a (x1 u0)) (h : Kept a s) : Kept a (State.openIr s x0 x1) := by
  unfold State.openIr
  repeat' first
    | with_reducible (exact Kept.refl _) | with_reducible (assumption) | simp only [Kept.lit] | with_reducible (apply kept_loadIr) | with_reducible (apply kept_asBypass)
    | with_reducible (apply hx1) | (intro) | (split)

theorem kept_clearFlush (h : Kept a s) : Kept a (State.clearFlush s) := by
  unfold State.clearFlush
  repeat' first
    | with_reducible (exact Kept.refl _) | with_reducible (assumption) | simp only [Kept.lit] | with_reducible (apply kept_logItem) | with_reducible (apply kept_inc)
    | with_reducible (apply kept_saveCounters) | with_reducible (apply Kept.each) | (intro) | (split)

theorem kept_clearAccess (h : Kept a s) : Kept a (State.clearAccess s) := by
  unfold State.clearAccess
  repeat' first
    | with_reducible (exact Kept.refl _) | with_reducible (assumption) | simp only [Kept.lit] | with_reducible (apply kept_sets) | with_reducible (apply kept_set)
    | (intro) | (split)

theorem kept_clearMarl (h : Kept a s) : Kept a (State.clearMarl s) := by
  unfold State.clearMarl
  repeat' first
    | with_reducible (exact Kept.refl _) | with_reducible (assumption) | simp only [Kept.lit] | with_reducible (exact id) | (exact fun _ => rfl)
    | (exact fun hm => rising_filter hm _) | (exact fun hm => rising_map hm _ fun _ => rfl) | (exact fun hm => rising_map (rising_filter hm _) _ fun _ => rfl) | (intro)
    | (split) | with_reducible (refine Kept.lit_maps ?_ ?_ ?_)

theorem kept_clearChannel {x0 : Nat} (h : Kept a s) : Kept a (State.clearChannel s x0) := by
  unfold State.clearChannel
  repeat' first
    | with_reducible (exact Kept.refl _) | with_reducible (assumption) | simp only [Kept.lit] | with_reducible (exact id) | (exact fun _ => rfl)
    | (exact fun hm => rising_filter hm _) | (exact fun hm => rising_map hm _ fun _ => rfl) | (exact fun hm => rising_map (rising_filter hm _) _ fun _ => rfl) | (intro)
    | (split) | with_reducible (refine Kept.lit_maps ?_ ?_ ?_)

end Sys2Proof.Laws
end

