-- ==== Sys2Proof/WellFormed.lean ====
section
/-! DEFINITION. Well-formed commands: the shape the spec gives what an event brings (lengths of markers, flits, blocks and
payloads, an opcode that belongs to its row, numbers that exist). -/

namespace Sys2Proof

set_option Elab.async false

/-- A packet as it can arrive: its payload is as long as LEN says, up to the 65 flits of a packet (R135, R182). -/
def Packet.framed (p : Packet) : Bool := p.payload.length == min p.hdr.len.toNat 4128

/-- A framed packet of one opcode. -/
def Packet.isOp (p : Packet) (o : BitVec 8) : Bool := p.framed && p.hdr.opc == o

/-- Blocks of a channel: 3 × 2^24 (Table 11.2). -/
def RepairUnit.ok : RepairUnit → Bool
  | .block _ b => decide (b.toNat < 3 * 2 ^ 24)
  | .unit _ _ _ => true

/-- The well-formed commands. -/
def Instr.wf : Instr → Bool
  | .tmReceived _ tm => tm.raw.length == 32 && tm.eq.dfe.length == 8 && tm.eq.slicer.length == 3
  | .amReceived _ raw _ eyeH eyeW => raw.length == 9 && (eyeH.length == 1 || eyeH.length == 3) && eyeW.length == eyeH.length
  | .flitReceived _ _ wire => wire.length == 72
  | .portCredInitWrite _ _ vc _ => decide (vc.toNat < 5)
  | .rd p => p.isOp 0x01
  | .wr p => p.isOp 0x02
  | .wrp p => p.isOp 0x03
  | .atom p => p.isOp 0x04
  | .svc p => p.isOp 0x10
  | .dbell p => p.isOp 0x20
  | .mregRd p => p.isOp 0x30
  | .mregWr p => p.isOp 0x31
  | .rdRsp p => p.isOp 0x81
  | .wrAck p => p.isOp 0x82
  | .atomRsp p => p.isOp 0x84
  | .svcRsp p => p.isOp 0x90
  | .mregRsp p => p.isOp 0xB0
  | .dramReadData _ err => decide (err.length ≤ 72)
  | .badgerPatrolRead _ err => decide (err.length ≤ 72)
  | .sensorSample t => decide (t.length ≤ 84)
  | .thermalTrip n => decide (n.toNat < 84)
  | .thmRegWrite _ w _ => decide (w.toNat < 3)
  | .logWrite f => decide (f.toNat ≤ 2)
  | .settFlush f => decide (f.toNat ≤ 2)
  | .authResp b => b.length == 196
  | .repair u => u.ok
  | .bypass c => !([0x00, 0x01, 0x02, 0x03, 0x04, 0x08, 0x09, 0x10, 0x11, 0x12, 0x13, 0x20, 0x30].contains c)
  | .i3cBadLength b => !(b.length == 3 || b.length == 7)
  | _ => true

end Sys2Proof
end

