-- ==== Sys2Proof/Laws/PerInstr.lean ====
section
/-! SUPPORT. Statements about the commands as syntax, one lemma per constructor. -/

namespace Sys2Proof.Laws

set_option Elab.async false

/-- The packet that a command brings, with the opcode of its row. -/
def packetOf : Instr → Option (Packet × BitVec 8)
  | .rd p => some (p, 0x01)
  | .wr p => some (p, 0x02)
  | .wrp p => some (p, 0x03)
  | .atom p => some (p, 0x04)
  | .svc p => some (p, 0x10)
  | .dbell p => some (p, 0x20)
  | .mregRd p => some (p, 0x30)
  | .mregWr p => some (p, 0x31)
  | .rdRsp p => some (p, 0x81)
  | .wrAck p => some (p, 0x82)
  | .atomRsp p => some (p, 0x84)
  | .svcRsp p => some (p, 0x90)
  | .mregRsp p => some (p, 0xB0)
  | _ => none

/-- A well-formed command that brings a packet brings one of its own opcode, with as many payload bytes as LEN says, up to 65 flits (R135, R182, R184). -/
def PacketFramed.Statement (i : Instr) : Prop :=
  i.wf = true → ∀ p o, packetOf i = some (p, o) → p.hdr.opc = o ∧ p.payload.length = min p.hdr.len.toNat 4128

theorem isOp_framed {p : Packet} {o : BitVec 8} (h : p.isOp o = true) : p.hdr.opc = o ∧ p.payload.length = min p.hdr.len.toNat 4128 := by
  simp only [Packet.isOp, Packet.framed, Bool.and_eq_true, beq_iff_eq] at h
  exact ⟨h.2, h.1⟩

theorem framed_of_none {i : Instr} (h : packetOf i = none) : PacketFramed.Statement i := fun _ _ _ hp => by simp [h] at hp

theorem framed_of_some {i : Instr} {p : Packet} {o : BitVec 8} (h : packetOf i = some (p, o)) (hw : i.wf = p.isOp o) : PacketFramed.Statement i := by
  intro hi q x hq
  rw [h] at hq
  cases hq
  exact isOp_framed (hw ▸ hi)

theorem PacketFramed.vaonGood : ∀ x0 x1 x2, PacketFramed.Statement (.vaonGood x0 x1 x2) := fun _ _ _ => framed_of_none rfl
theorem PacketFramed.railGood : ∀ x0, PacketFramed.Statement (.railGood x0) := fun _ => framed_of_none rfl
theorem PacketFramed.railLost : ∀ x0, PacketFramed.Statement (.railLost x0) := fun _ => framed_of_none rfl
theorem PacketFramed.vfuseLost : PacketFramed.Statement (.vfuseLost) := framed_of_none rfl
theorem PacketFramed.perstNLow : PacketFramed.Statement (.perstNLow) := framed_of_none rfl
theorem PacketFramed.perstNHigh : PacketFramed.Statement (.perstNHigh) := framed_of_none rfl
theorem PacketFramed.bypForceNLow : PacketFramed.Statement (.bypForceNLow) := framed_of_none rfl
theorem PacketFramed.startPhaseEnd : ∀ x0, PacketFramed.Statement (.startPhaseEnd x0) := fun _ => framed_of_none rfl
theorem PacketFramed.phaseTimerExpiry : ∀ x0, PacketFramed.Statement (.phaseTimerExpiry x0) := fun _ => framed_of_none rfl
theorem PacketFramed.coldHoldExit : PacketFramed.Statement (.coldHoldExit) := framed_of_none rfl
theorem PacketFramed.startGo : ∀ x0, PacketFramed.Statement (.startGo x0) := fun _ => framed_of_none rfl
theorem PacketFramed.frcAttemptEnd : ∀ x0, PacketFramed.Statement (.frcAttemptEnd x0) := fun _ => framed_of_none rfl
theorem PacketFramed.refWindowEnd : ∀ x0 x1 x2 x3, PacketFramed.Statement (.refWindowEnd x0 x1 x2 x3) := fun _ _ _ _ => framed_of_none rfl
theorem PacketFramed.pllLocked : ∀ x0, PacketFramed.Statement (.pllLocked x0) := fun _ => framed_of_none rfl
theorem PacketFramed.slowRcCheck : ∀ x0, PacketFramed.Statement (.slowRcCheck x0) := fun _ => framed_of_none rfl
theorem PacketFramed.frcServiceCheck : ∀ x0, PacketFramed.Statement (.frcServiceCheck x0) := fun _ => framed_of_none rfl
theorem PacketFramed.refMissingEdges : ∀ x0, PacketFramed.Statement (.refMissingEdges x0) := fun _ => framed_of_none rfl
theorem PacketFramed.pllLockLost : ∀ x0, PacketFramed.Statement (.pllLockLost x0) := fun _ => framed_of_none rfl
theorem PacketFramed.holdoverExpiry : PacketFramed.Statement (.holdoverExpiry) := framed_of_none rfl
theorem PacketFramed.foxPllRelockTry : ∀ x0, PacketFramed.Statement (.foxPllRelockTry x0) := fun _ => framed_of_none rfl
theorem PacketFramed.clkSwitchRelease : PacketFramed.Statement (.clkSwitchRelease) := framed_of_none rfl
theorem PacketFramed.clkSwitchTimeout : PacketFramed.Statement (.clkSwitchTimeout) := framed_of_none rfl
theorem PacketFramed.wakeRefTimeout : PacketFramed.Statement (.wakeRefTimeout) := framed_of_none rfl
theorem PacketFramed.clkRefCfgWrite : ∀ x0 x1, PacketFramed.Statement (.clkRefCfgWrite x0 x1) := fun _ _ => framed_of_none rfl
theorem PacketFramed.clkGateWrite : ∀ x0 x1 x2 x3, PacketFramed.Statement (.clkGateWrite x0 x1 x2 x3) := fun _ _ _ _ => framed_of_none rfl
theorem PacketFramed.marlHbLoss : PacketFramed.Statement (.marlHbLoss) := framed_of_none rfl
theorem PacketFramed.layerHbLoss : ∀ x0, PacketFramed.Statement (.layerHbLoss x0) := fun _ => framed_of_none rfl
theorem PacketFramed.exitSr : ∀ x0, PacketFramed.Statement (.exitSr x0) := fun _ => framed_of_none rfl
theorem PacketFramed.portBlockReset : ∀ x0 x1, PacketFramed.Statement (.portBlockReset x0 x1) := fun _ _ => framed_of_none rfl
theorem PacketFramed.chanBlockReset : ∀ x0 x1, PacketFramed.Statement (.chanBlockReset x0 x1) := fun _ _ => framed_of_none rfl
theorem PacketFramed.foxBlockReset : ∀ x0 x1, PacketFramed.Statement (.foxBlockReset x0 x1) := fun _ _ => framed_of_none rfl
theorem PacketFramed.unitReset : PacketFramed.Statement (.unitReset) := framed_of_none rfl
theorem PacketFramed.blockResetDone : PacketFramed.Statement (.blockResetDone) := framed_of_none rfl
theorem PacketFramed.s1IdleExpiry : PacketFramed.Statement (.s1IdleExpiry) := framed_of_none rfl
theorem PacketFramed.setPstate : PacketFramed.Statement (.setPstate) := framed_of_none rfl
theorem PacketFramed.reqStateS1 : ∀ x0, PacketFramed.Statement (.reqStateS1 x0) := fun _ => framed_of_none rfl
theorem PacketFramed.reqStateSleep : ∀ x0 x1, PacketFramed.Statement (.reqStateSleep x0 x1) := fun _ _ => framed_of_none rfl
theorem PacketFramed.sleepEntryDone : PacketFramed.Statement (.sleepEntryDone) := framed_of_none rfl
theorem PacketFramed.pwrWake : ∀ x0, PacketFramed.Statement (.pwrWake x0) := fun _ => framed_of_none rfl
theorem PacketFramed.wakeTimerExpiry : PacketFramed.Statement (.wakeTimerExpiry) := framed_of_none rfl
theorem PacketFramed.wakeSignal : ∀ x0, PacketFramed.Statement (.wakeSignal x0) := fun _ => framed_of_none rfl
theorem PacketFramed.s3Wake : PacketFramed.Statement (.s3Wake) := framed_of_none rfl
theorem PacketFramed.openWindow : ∀ x0, PacketFramed.Statement (.openWindow x0) := fun _ => framed_of_none rfl
theorem PacketFramed.closeWindow : ∀ x0, PacketFramed.Statement (.closeWindow x0) := fun _ => framed_of_none rfl
theorem PacketFramed.senseRow : ∀ x0 x1 x2, PacketFramed.Statement (.senseRow x0 x1 x2) := fun _ _ _ => framed_of_none rfl
theorem PacketFramed.programRow : ∀ x0 x1, PacketFramed.Statement (.programRow x0 x1) := fun _ _ => framed_of_none rfl
theorem PacketFramed.topupBit : ∀ x0 x1 x2, PacketFramed.Statement (.topupBit x0 x1 x2) := fun _ _ _ => framed_of_none rfl
theorem PacketFramed.redirectRow : ∀ x0 x1, PacketFramed.Statement (.redirectRow x0 x1) := fun _ _ => framed_of_none rfl
theorem PacketFramed.lockRegion : ∀ x0 x1, PacketFramed.Statement (.lockRegion x0 x1) := fun _ _ => framed_of_none rfl
theorem PacketFramed.verifyRegion : ∀ x0 x1, PacketFramed.Statement (.verifyRegion x0 x1) := fun _ _ => framed_of_none rfl
theorem PacketFramed.otpCmdDone : ∀ x0 x1 x2 x3 x4, PacketFramed.Statement (.otpCmdDone x0 x1 x2 x3 x4) := fun _ _ _ _ _ => framed_of_none rfl
theorem PacketFramed.windowTimeout : PacketFramed.Statement (.windowTimeout) := framed_of_none rfl
theorem PacketFramed.linkTrainStart : ∀ x0 x1, PacketFramed.Statement (.linkTrainStart x0 x1) := fun _ _ => framed_of_none rfl
theorem PacketFramed.tmReceived : ∀ x0 x1, PacketFramed.Statement (.tmReceived x0 x1) := fun _ _ => framed_of_none rfl
theorem PacketFramed.trainTimeout : ∀ x0 x1, PacketFramed.Statement (.trainTimeout x0 x1) := fun _ _ => framed_of_none rfl
theorem PacketFramed.amSend : ∀ x0 x1, PacketFramed.Statement (.amSend x0 x1) := fun _ _ => framed_of_none rfl
theorem PacketFramed.amReceived : ∀ x0 x1 x2 x3 x4, PacketFramed.Statement (.amReceived x0 x1 x2 x3 x4) := fun _ _ _ _ _ => framed_of_none rfl
theorem PacketFramed.laneFailure : ∀ x0, PacketFramed.Statement (.laneFailure x0) := fun _ => framed_of_none rfl
theorem PacketFramed.retrainDone : ∀ x0 x1, PacketFramed.Statement (.retrainDone x0 x1) := fun _ _ => framed_of_none rfl
theorem PacketFramed.retrainTimeout : ∀ x0 x1, PacketFramed.Statement (.retrainTimeout x0 x1) := fun _ _ => framed_of_none rfl
theorem PacketFramed.signalLossTimeout : ∀ x0 x1, PacketFramed.Statement (.signalLossTimeout x0 x1) := fun _ _ => framed_of_none rfl
theorem PacketFramed.l1Entry : ∀ x0 x1, PacketFramed.Statement (.l1Entry x0 x1) := fun _ _ => framed_of_none rfl
theorem PacketFramed.l1Exit : ∀ x0 x1, PacketFramed.Statement (.l1Exit x0 x1) := fun _ _ => framed_of_none rfl
theorem PacketFramed.l2Exit : ∀ x0 x1, PacketFramed.Statement (.l2Exit x0 x1) := fun _ _ => framed_of_none rfl
theorem PacketFramed.prbsInject : ∀ x0 x1, PacketFramed.Statement (.prbsInject x0 x1) := fun _ _ => framed_of_none rfl
theorem PacketFramed.lanePrbsCtlWrite : ∀ x0 x1 x2, PacketFramed.Statement (.lanePrbsCtlWrite x0 x1 x2) := fun _ _ _ => framed_of_none rfl
theorem PacketFramed.portLinkCfgWrite : ∀ x0 x1 x2, PacketFramed.Statement (.portLinkCfgWrite x0 x1 x2) := fun _ _ _ => framed_of_none rfl
theorem PacketFramed.flitReceived : ∀ x0 x1 x2, PacketFramed.Statement (.flitReceived x0 x1 x2) := fun _ _ _ => framed_of_none rfl
theorem PacketFramed.nakTimerExpiry : ∀ x0 x1, PacketFramed.Statement (.nakTimerExpiry x0 x1) := fun _ _ => framed_of_none rfl
theorem PacketFramed.replayTimeout : ∀ x0 x1, PacketFramed.Statement (.replayTimeout x0 x1) := fun _ _ => framed_of_none rfl
theorem PacketFramed.lcfDue : ∀ x0 x1, PacketFramed.Statement (.lcfDue x0 x1) := fun _ _ => framed_of_none rfl
theorem PacketFramed.noValidFlitTimeout : ∀ x0 x1, PacketFramed.Statement (.noValidFlitTimeout x0 x1) := fun _ _ => framed_of_none rfl
theorem PacketFramed.packetSend : ∀ x0 x1, PacketFramed.Statement (.packetSend x0 x1) := fun _ _ => framed_of_none rfl
theorem PacketFramed.portCredInitWrite : ∀ x0 x1 x2 x3, PacketFramed.Statement (.portCredInitWrite x0 x1 x2 x3) := fun _ _ _ _ => framed_of_none rfl
theorem PacketFramed.linkWaitExpiry : ∀ x0, PacketFramed.Statement (.linkWaitExpiry x0) := fun _ => framed_of_none rfl
theorem PacketFramed.egressMove : ∀ x0 x1, PacketFramed.Statement (.egressMove x0 x1) := fun _ _ => framed_of_none rfl
theorem PacketFramed.glbDidWrite : ∀ x0 x1, PacketFramed.Statement (.glbDidWrite x0 x1) := fun _ _ => framed_of_none rfl
theorem PacketFramed.portRoleWrite : ∀ x0 x1 x2, PacketFramed.Statement (.portRoleWrite x0 x1 x2) := fun _ _ _ => framed_of_none rfl
theorem PacketFramed.portCfgWrite : ∀ x0 x1 x2, PacketFramed.Statement (.portCfgWrite x0 x1 x2) := fun _ _ _ => framed_of_none rfl
theorem PacketFramed.routeEntryWrite : ∀ x0 x1 x2 x3, PacketFramed.Statement (.routeEntryWrite x0 x1 x2 x3) := fun _ _ _ _ => framed_of_none rfl
theorem PacketFramed.rtMembersWrite : ∀ x0 x1 x2, PacketFramed.Statement (.rtMembersWrite x0 x1 x2) := fun _ _ _ => framed_of_none rfl
theorem PacketFramed.bypassClose : ∀ x0, PacketFramed.Statement (.bypassClose x0) := fun _ => framed_of_none rfl
theorem PacketFramed.bypassOpen : ∀ x0 x1, PacketFramed.Statement (.bypassOpen x0 x1) := fun _ _ => framed_of_none rfl
theorem PacketFramed.rtBypOpenWrite : ∀ x0 x1, PacketFramed.Statement (.rtBypOpenWrite x0 x1) := fun _ _ => framed_of_none rfl
theorem PacketFramed.glbLockSet : ∀ x0, PacketFramed.Statement (.glbLockSet x0) := fun _ => framed_of_none rfl
theorem PacketFramed.snapshotComplete : PacketFramed.Statement (.snapshotComplete) := framed_of_none rfl
theorem PacketFramed.rd (p : Packet) : PacketFramed.Statement (.rd p) := framed_of_some rfl rfl
theorem PacketFramed.wr (p : Packet) : PacketFramed.Statement (.wr p) := framed_of_some rfl rfl
theorem PacketFramed.wrp (p : Packet) : PacketFramed.Statement (.wrp p) := framed_of_some rfl rfl
theorem PacketFramed.atom (p : Packet) : PacketFramed.Statement (.atom p) := framed_of_some rfl rfl
theorem PacketFramed.svc (p : Packet) : PacketFramed.Statement (.svc p) := framed_of_some rfl rfl
theorem PacketFramed.dbell (p : Packet) : PacketFramed.Statement (.dbell p) := framed_of_some rfl rfl
theorem PacketFramed.mregRd (p : Packet) : PacketFramed.Statement (.mregRd p) := framed_of_some rfl rfl
theorem PacketFramed.mregWr (p : Packet) : PacketFramed.Statement (.mregWr p) := framed_of_some rfl rfl
theorem PacketFramed.rdRsp (p : Packet) : PacketFramed.Statement (.rdRsp p) := framed_of_some rfl rfl
theorem PacketFramed.wrAck (p : Packet) : PacketFramed.Statement (.wrAck p) := framed_of_some rfl rfl
theorem PacketFramed.atomRsp (p : Packet) : PacketFramed.Statement (.atomRsp p) := framed_of_some rfl rfl
theorem PacketFramed.svcRsp (p : Packet) : PacketFramed.Statement (.svcRsp p) := framed_of_some rfl rfl
theorem PacketFramed.mregRsp (p : Packet) : PacketFramed.Statement (.mregRsp p) := framed_of_some rfl rfl
theorem PacketFramed.requestTimeout : ∀ x0, PacketFramed.Statement (.requestTimeout x0) := fun _ => framed_of_none rfl
theorem PacketFramed.missFillDone : ∀ x0, PacketFramed.Statement (.missFillDone x0) := fun _ => framed_of_none rfl
theorem PacketFramed.writebackConfirmed : ∀ x0, PacketFramed.Statement (.writebackConfirmed x0) := fun _ => framed_of_none rfl
theorem PacketFramed.marlFlushGo : ∀ x0 x1, PacketFramed.Statement (.marlFlushGo x0 x1) := fun _ _ => framed_of_none rfl
theorem PacketFramed.marlWb : PacketFramed.Statement (.marlWb) := framed_of_none rfl
theorem PacketFramed.flushDone : PacketFramed.Statement (.flushDone) := framed_of_none rfl
theorem PacketFramed.quiesceSet : ∀ x0, PacketFramed.Statement (.quiesceSet x0) := fun _ => framed_of_none rfl
theorem PacketFramed.quiescedReached : PacketFramed.Statement (.quiescedReached) := framed_of_none rfl
theorem PacketFramed.marlPartWrite : ∀ x0 x1, PacketFramed.Statement (.marlPartWrite x0 x1) := fun _ _ => framed_of_none rfl
theorem PacketFramed.repartitionDone : PacketFramed.Statement (.repartitionDone) := framed_of_none rfl
theorem PacketFramed.quiesceClear : ∀ x0, PacketFramed.Statement (.quiesceClear x0) := fun _ => framed_of_none rfl
theorem PacketFramed.marlQuietWindowForced : ∀ x0, PacketFramed.Statement (.marlQuietWindowForced x0) := fun _ => framed_of_none rfl
theorem PacketFramed.glbMemCfgWrite : ∀ x0 x1, PacketFramed.Statement (.glbMemCfgWrite x0 x1) := fun _ _ => framed_of_none rfl
theorem PacketFramed.dramCommandIssue : ∀ x0 x1 x2, PacketFramed.Statement (.dramCommandIssue x0 x1 x2) := fun _ _ _ => framed_of_none rfl
theorem PacketFramed.refreshDue : ∀ x0 x1 x2, PacketFramed.Statement (.refreshDue x0 x1 x2) := fun _ _ _ => framed_of_none rfl
theorem PacketFramed.refRateLower : ∀ x0, PacketFramed.Statement (.refRateLower x0) := fun _ => framed_of_none rfl
theorem PacketFramed.powerDownEntry : ∀ x0, PacketFramed.Statement (.powerDownEntry x0) := fun _ => framed_of_none rfl
theorem PacketFramed.dramReadData : ∀ x0 x1, PacketFramed.Statement (.dramReadData x0 x1) := fun _ _ => framed_of_none rfl
theorem PacketFramed.chanPasrWrite : ∀ x0 x1 x2, PacketFramed.Statement (.chanPasrWrite x0 x1 x2) := fun _ _ _ => framed_of_none rfl
theorem PacketFramed.setPasr : PacketFramed.Statement (.setPasr) := framed_of_none rfl
theorem PacketFramed.pasrChangeDone : ∀ x0, PacketFramed.Statement (.pasrChangeDone x0) := fun _ => framed_of_none rfl
theorem PacketFramed.channelFence : ∀ x0 x1, PacketFramed.Statement (.channelFence x0 x1) := fun _ _ => framed_of_none rfl
theorem PacketFramed.rebuildStart : ∀ x0, PacketFramed.Statement (.rebuildStart x0) := fun _ => framed_of_none rfl
theorem PacketFramed.rebuildStripe : ∀ x0, PacketFramed.Statement (.rebuildStripe x0) := fun _ => framed_of_none rfl
theorem PacketFramed.chanRebuild : PacketFramed.Statement (.chanRebuild) := framed_of_none rfl
theorem PacketFramed.layerSilent : ∀ x0 x1, PacketFramed.Statement (.layerSilent x0 x1) := fun _ _ => framed_of_none rfl
theorem PacketFramed.layerRelockAttempt : ∀ x0 x1, PacketFramed.Statement (.layerRelockAttempt x0 x1) := fun _ _ => framed_of_none rfl
theorem PacketFramed.layerDiscoveryTimeout : ∀ x0, PacketFramed.Statement (.layerDiscoveryTimeout x0) := fun _ => framed_of_none rfl
theorem PacketFramed.couplingBoundary : ∀ x0 x1, PacketFramed.Statement (.couplingBoundary x0 x1) := fun _ _ => framed_of_none rfl
theorem PacketFramed.couplingBoundaryForced : ∀ x0, PacketFramed.Statement (.couplingBoundaryForced x0) := fun _ => framed_of_none rfl
theorem PacketFramed.forcedRecal : ∀ x0, PacketFramed.Statement (.forcedRecal x0) := fun _ => framed_of_none rfl
theorem PacketFramed.forcedRecalDone : ∀ x0 x1, PacketFramed.Statement (.forcedRecalDone x0 x1) := fun _ _ => framed_of_none rfl
theorem PacketFramed.vcpMechWrite : ∀ x0 x1, PacketFramed.Statement (.vcpMechWrite x0 x1) := fun _ _ => framed_of_none rfl
theorem PacketFramed.qosCommitGo : ∀ x0, PacketFramed.Statement (.qosCommitGo x0) := fun _ => framed_of_none rfl
theorem PacketFramed.qosSet : PacketFramed.Statement (.qosSet) := framed_of_none rfl
theorem PacketFramed.dEvaluation : PacketFramed.Statement (.dEvaluation) := framed_of_none rfl
theorem PacketFramed.missEntryFreed : ∀ x0, PacketFramed.Statement (.missEntryFreed x0) := fun _ => framed_of_none rfl
theorem PacketFramed.ringPoll : ∀ x0, PacketFramed.Statement (.ringPoll x0) := fun _ => framed_of_none rfl
theorem PacketFramed.rcbHReread : ∀ x0, PacketFramed.Statement (.rcbHReread x0) := fun _ => framed_of_none rfl
theorem PacketFramed.descFetch : ∀ x0, PacketFramed.Statement (.descFetch x0) := fun _ => framed_of_none rfl
theorem PacketFramed.descStart : ∀ x0, PacketFramed.Statement (.descStart x0) := fun _ => framed_of_none rfl
theorem PacketFramed.completionWrite : ∀ x0, PacketFramed.Statement (.completionWrite x0) := fun _ => framed_of_none rfl
theorem PacketFramed.ring0FetchRetry : PacketFramed.Statement (.ring0FetchRetry) := framed_of_none rfl
theorem PacketFramed.ring0CompletionRetry : PacketFramed.Statement (.ring0CompletionRetry) := framed_of_none rfl
theorem PacketFramed.ringEnable : ∀ x0 x1, PacketFramed.Statement (.ringEnable x0 x1) := fun _ _ => framed_of_none rfl
theorem PacketFramed.ringResetCmd : ∀ x0 x1, PacketFramed.Statement (.ringResetCmd x0 x1) := fun _ _ => framed_of_none rfl
theorem PacketFramed.ringResumeCmd : ∀ x0 x1, PacketFramed.Statement (.ringResumeCmd x0 x1) := fun _ _ => framed_of_none rfl
theorem PacketFramed.nop : PacketFramed.Statement (.nop) := framed_of_none rfl
theorem PacketFramed.ringSetup : PacketFramed.Statement (.ringSetup) := framed_of_none rfl
theorem PacketFramed.ringReset : PacketFramed.Statement (.ringReset) := framed_of_none rfl
theorem PacketFramed.ringResume : PacketFramed.Statement (.ringResume) := framed_of_none rfl
theorem PacketFramed.engineDispatch : ∀ x0, PacketFramed.Statement (.engineDispatch x0) := fun _ => framed_of_none rfl
theorem PacketFramed.stageAdvance : ∀ x0, PacketFramed.Statement (.stageAdvance x0) := fun _ => framed_of_none rfl
theorem PacketFramed.helperChunk : ∀ x0, PacketFramed.Statement (.helperChunk x0) := fun _ => framed_of_none rfl
theorem PacketFramed.fill : ∀ x0, PacketFramed.Statement (.fill x0) := fun _ => framed_of_none rfl
theorem PacketFramed.copy : ∀ x0, PacketFramed.Statement (.copy x0) := fun _ => framed_of_none rfl
theorem PacketFramed.gather : ∀ x0, PacketFramed.Statement (.gather x0) := fun _ => framed_of_none rfl
theorem PacketFramed.scatter : ∀ x0, PacketFramed.Statement (.scatter x0) := fun _ => framed_of_none rfl
theorem PacketFramed.reduce : ∀ x0, PacketFramed.Statement (.reduce x0) := fun _ => framed_of_none rfl
theorem PacketFramed.check : ∀ x0, PacketFramed.Statement (.check x0) := fun _ => framed_of_none rfl
theorem PacketFramed.compare : ∀ x0, PacketFramed.Statement (.compare x0) := fun _ => framed_of_none rfl
theorem PacketFramed.transpose : ∀ x0, PacketFramed.Statement (.transpose x0) := fun _ => framed_of_none rfl
theorem PacketFramed.atomb : ∀ x0, PacketFramed.Statement (.atomb x0) := fun _ => framed_of_none rfl
theorem PacketFramed.fence : ∀ x0, PacketFramed.Statement (.fence x0) := fun _ => framed_of_none rfl
theorem PacketFramed.notifyWrite : ∀ x0, PacketFramed.Statement (.notifyWrite x0) := fun _ => framed_of_none rfl
theorem PacketFramed.notifyDbell : ∀ x0, PacketFramed.Statement (.notifyDbell x0) := fun _ => framed_of_none rfl
theorem PacketFramed.mirrorSend : ∀ x0, PacketFramed.Statement (.mirrorSend x0) := fun _ => framed_of_none rfl
theorem PacketFramed.mirrorCommit : ∀ x0, PacketFramed.Statement (.mirrorCommit x0) := fun _ => framed_of_none rfl
theorem PacketFramed.mirrorVerify : ∀ x0, PacketFramed.Statement (.mirrorVerify x0) := fun _ => framed_of_none rfl
theorem PacketFramed.dirtyscanFreeze : ∀ x0, PacketFramed.Statement (.dirtyscanFreeze x0) := fun _ => framed_of_none rfl
theorem PacketFramed.dirtyscanPeek : ∀ x0, PacketFramed.Statement (.dirtyscanPeek x0) := fun _ => framed_of_none rfl
theorem PacketFramed.svcStart : ∀ x0, PacketFramed.Statement (.svcStart x0) := fun _ => framed_of_none rfl
theorem PacketFramed.engineTrap : ∀ x0 x1, PacketFramed.Statement (.engineTrap x0 x1) := fun _ _ => framed_of_none rfl
theorem PacketFramed.watchdogExpiry : ∀ x0, PacketFramed.Statement (.watchdogExpiry x0) := fun _ => framed_of_none rfl
theorem PacketFramed.fwSlotWrite : PacketFramed.Statement (.fwSlotWrite) := framed_of_none rfl
theorem PacketFramed.fwActivate : PacketFramed.Statement (.fwActivate) := framed_of_none rfl
theorem PacketFramed.foxSbDataWrite : ∀ x0 x1, PacketFramed.Statement (.foxSbDataWrite x0 x1) := fun _ _ => framed_of_none rfl
theorem PacketFramed.foxSbGo : ∀ x0, PacketFramed.Statement (.foxSbGo x0) := fun _ => framed_of_none rfl
theorem PacketFramed.foxCtlWrite : ∀ x0 x1 x2, PacketFramed.Statement (.foxCtlWrite x0 x1 x2) := fun _ _ _ => framed_of_none rfl
theorem PacketFramed.cvuTestStart : ∀ x0, PacketFramed.Statement (.cvuTestStart x0) := fun _ => framed_of_none rfl
theorem PacketFramed.cvuTestRelease : ∀ x0, PacketFramed.Statement (.cvuTestRelease x0) := fun _ => framed_of_none rfl
theorem PacketFramed.cvuTestDataWrite : ∀ x0 x1, PacketFramed.Statement (.cvuTestDataWrite x0 x1) := fun _ _ => framed_of_none rfl
theorem PacketFramed.cvuTestData1Write : ∀ x0 x1, PacketFramed.Statement (.cvuTestData1Write x0 x1) := fun _ _ => framed_of_none rfl
theorem PacketFramed.ckpTrackWrite : ∀ x0 x1, PacketFramed.Statement (.ckpTrackWrite x0 x1) := fun _ _ => framed_of_none rfl
theorem PacketFramed.correctiveWrite : ∀ x0, PacketFramed.Statement (.correctiveWrite x0) := fun _ => framed_of_none rfl
theorem PacketFramed.ceLogFree : ∀ x0 x1 x2, PacketFramed.Statement (.ceLogFree x0 x1 x2) := fun _ _ _ => framed_of_none rfl
theorem PacketFramed.badgerPatrolRead : ∀ x0 x1, PacketFramed.Statement (.badgerPatrolRead x0 x1) := fun _ _ => framed_of_none rfl
theorem PacketFramed.marlPatrol : ∀ x0 x1, PacketFramed.Statement (.marlPatrol x0 x1) := fun _ _ => framed_of_none rfl
theorem PacketFramed.badgerSet : PacketFramed.Statement (.badgerSet) := framed_of_none rfl
theorem PacketFramed.badgerRegWrite : ∀ x0 x1 x2, PacketFramed.Statement (.badgerRegWrite x0 x1 x2) := fun _ _ _ => framed_of_none rfl
theorem PacketFramed.repair : ∀ x0, PacketFramed.Statement (.repair x0) := fun _ => framed_of_none rfl
theorem PacketFramed.faultRaise : ∀ x0 x1 x2, PacketFramed.Statement (.faultRaise x0 x1 x2) := fun _ _ _ => framed_of_none rfl
theorem PacketFramed.cTimerExpiry : ∀ x0, PacketFramed.Statement (.cTimerExpiry x0) := fun _ => framed_of_none rfl
theorem PacketFramed.dTimerExpiry : ∀ x0, PacketFramed.Statement (.dTimerExpiry x0) := fun _ => framed_of_none rfl
theorem PacketFramed.graveFlushDone : PacketFramed.Statement (.graveFlushDone) := framed_of_none rfl
theorem PacketFramed.fltAckHold : ∀ x0 x1 x2, PacketFramed.Statement (.fltAckHold x0 x1 x2) := fun _ _ _ => framed_of_none rfl
theorem PacketFramed.fltAckClose : ∀ x0 x1 x2, PacketFramed.Statement (.fltAckClose x0 x1 x2) := fun _ _ _ => framed_of_none rfl
theorem PacketFramed.lockstepMismatch : ∀ x0, PacketFramed.Statement (.lockstepMismatch x0) := fun _ => framed_of_none rfl
theorem PacketFramed.mgcReloadDone : ∀ x0, PacketFramed.Statement (.mgcReloadDone x0) := fun _ => framed_of_none rfl
theorem PacketFramed.fabStateError : ∀ x0 x1, PacketFramed.Statement (.fabStateError x0 x1) := fun _ _ => framed_of_none rfl
theorem PacketFramed.alarmWindowEnd : ∀ x0, PacketFramed.Statement (.alarmWindowEnd x0) := fun _ => framed_of_none rfl
theorem PacketFramed.fltInjWrite : ∀ x0 x1, PacketFramed.Statement (.fltInjWrite x0 x1) := fun _ _ => framed_of_none rfl
theorem PacketFramed.fltInject : PacketFramed.Statement (.fltInject) := framed_of_none rfl
theorem PacketFramed.logWrite : ∀ x0, PacketFramed.Statement (.logWrite x0) := fun _ => framed_of_none rfl
theorem PacketFramed.recFreezeOn : ∀ x0, PacketFramed.Statement (.recFreezeOn x0) := fun _ => framed_of_none rfl
theorem PacketFramed.recThaw : ∀ x0, PacketFramed.Statement (.recThaw x0) := fun _ => framed_of_none rfl
theorem PacketFramed.freezeAutoThaw : PacketFramed.Statement (.freezeAutoThaw) := framed_of_none rfl
theorem PacketFramed.recRead : PacketFramed.Statement (.recRead) := framed_of_none rfl
theorem PacketFramed.recSettAddrWrite : ∀ x0 x1, PacketFramed.Statement (.recSettAddrWrite x0 x1) := fun _ _ => framed_of_none rfl
theorem PacketFramed.telemetrySample : PacketFramed.Statement (.telemetrySample) := framed_of_none rfl
theorem PacketFramed.telSet : PacketFramed.Statement (.telSet) := framed_of_none rfl
theorem PacketFramed.settFlush : ∀ x0, PacketFramed.Statement (.settFlush x0) := fun _ => framed_of_none rfl
theorem PacketFramed.opSecondsTick : PacketFramed.Statement (.opSecondsTick) := framed_of_none rfl
theorem PacketFramed.sensorSample : ∀ x0, PacketFramed.Statement (.sensorSample x0) := fun _ => framed_of_none rfl
theorem PacketFramed.throttleRamp : PacketFramed.Statement (.throttleRamp) := framed_of_none rfl
theorem PacketFramed.thermalTrip : ∀ x0, PacketFramed.Statement (.thermalTrip x0) := fun _ => framed_of_none rfl
theorem PacketFramed.thmSet : PacketFramed.Statement (.thmSet) := framed_of_none rfl
theorem PacketFramed.thmRegWrite : ∀ x0 x1 x2, PacketFramed.Statement (.thmRegWrite x0 x1 x2) := fun _ _ _ => framed_of_none rfl
theorem PacketFramed.testSliceStart : PacketFramed.Statement (.testSliceStart) := framed_of_none rfl
theorem PacketFramed.coilTestEnd : ∀ x0 x1 x2, PacketFramed.Statement (.coilTestEnd x0 x1 x2) := fun _ _ _ => framed_of_none rfl
theorem PacketFramed.padTestEnd : ∀ x0 x1 x2, PacketFramed.Statement (.padTestEnd x0 x1 x2) := fun _ _ _ => framed_of_none rfl
theorem PacketFramed.laneMarginCheck : ∀ x0 x1 x2, PacketFramed.Statement (.laneMarginCheck x0 x1 x2) := fun _ _ _ => framed_of_none rfl
theorem PacketFramed.bstRun : PacketFramed.Statement (.bstRun) := framed_of_none rfl
theorem PacketFramed.bstRunStep : ∀ x0 x1 x2 x3, PacketFramed.Statement (.bstRunStep x0 x1 x2 x3) := fun _ _ _ _ => framed_of_none rfl
theorem PacketFramed.extest : PacketFramed.Statement (.extest) := framed_of_none rfl
theorem PacketFramed.samplePreload : PacketFramed.Statement (.samplePreload) := framed_of_none rfl
theorem PacketFramed.idcode : PacketFramed.Statement (.idcode) := framed_of_none rfl
theorem PacketFramed.clamp : PacketFramed.Statement (.clamp) := framed_of_none rfl
theorem PacketFramed.highz : PacketFramed.Statement (.highz) := framed_of_none rfl
theorem PacketFramed.extestPulse : PacketFramed.Statement (.extestPulse) := framed_of_none rfl
theorem PacketFramed.extestTrain : PacketFramed.Statement (.extestTrain) := framed_of_none rfl
theorem PacketFramed.regacc : ∀ x0, PacketFramed.Statement (.regacc x0) := fun _ => framed_of_none rfl
theorem PacketFramed.authChal : PacketFramed.Statement (.authChal) := framed_of_none rfl
theorem PacketFramed.authResp : ∀ x0, PacketFramed.Statement (.authResp x0) := fun _ => framed_of_none rfl
theorem PacketFramed.dbgStatus : PacketFramed.Statement (.dbgStatus) := framed_of_none rfl
theorem PacketFramed.ijtag : PacketFramed.Statement (.ijtag) := framed_of_none rfl
theorem PacketFramed.scan : PacketFramed.Statement (.scan) := framed_of_none rfl
theorem PacketFramed.bypass : ∀ x0, PacketFramed.Statement (.bypass x0) := fun _ => framed_of_none rfl
theorem PacketFramed.clearingDone : PacketFramed.Statement (.clearingDone) := framed_of_none rfl
theorem PacketFramed.counterLoRead : ∀ x0 x1, PacketFramed.Statement (.counterLoRead x0 x1) := fun _ _ => framed_of_none rfl
theorem PacketFramed.registerWrite : ∀ x0 x1 x2, PacketFramed.Statement (.registerWrite x0 x1 x2) := fun _ _ _ => framed_of_none rfl
theorem PacketFramed.i3cSetOffset : ∀ x0, PacketFramed.Statement (.i3cSetOffset x0) := fun _ => framed_of_none rfl
theorem PacketFramed.i3cRegWrite : ∀ x0 x1, PacketFramed.Statement (.i3cRegWrite x0 x1) := fun _ _ => framed_of_none rfl
theorem PacketFramed.i3cRegRead : PacketFramed.Statement (.i3cRegRead) := framed_of_none rfl
theorem PacketFramed.i3cBadLength : ∀ x0, PacketFramed.Statement (.i3cBadLength x0) := fun _ => framed_of_none rfl
theorem PacketFramed.entdaa : ∀ x0, PacketFramed.Statement (.entdaa x0) := fun _ => framed_of_none rfl
theorem PacketFramed.marlQuietWindow : ∀ x0 x1, PacketFramed.Statement (.marlQuietWindow x0 x1) := fun _ _ => framed_of_none rfl
theorem PacketFramed.markerLockLoss : ∀ x0, PacketFramed.Statement (.markerLockLoss x0) := fun _ => framed_of_none rfl
theorem PacketFramed.prbsCheckerLock : ∀ x0 x1 x2, PacketFramed.Statement (.prbsCheckerLock x0 x1 x2) := fun _ _ _ => framed_of_none rfl

end Sys2Proof.Laws
end

