-- ==== Sys2Proof/Laws/Regs.lean ====
section
/-! SUPPORT. Laws of bit fields and of registers: what a write of a register or a field shows when it is read, and what it leaves
alone. -/

namespace Sys2Proof.Laws

set_option Elab.async false

open Sys2Proof.Machine

/-! ## Bit fields -/

/-- A number cut at a bit range: below it, in it, above it. -/
theorem cut (w lo n : Nat) : w = w % 2 ^ lo + 2 ^ lo * (w / 2 ^ lo % 2 ^ n + 2 ^ n * (w / 2 ^ lo / 2 ^ n)) := by
  rw [Nat.mod_add_div (w / 2 ^ lo) (2 ^ n), Nat.mod_add_div w (2 ^ lo)]

/-- A bit range replaced, cut in three. -/
theorem putBits_cut (w hi lo v : Nat) : putBits w hi lo v =
    w % 2 ^ lo + 2 ^ lo * (v % 2 ^ (hi + 1 - lo) + 2 ^ (hi + 1 - lo) * (w / 2 ^ lo / 2 ^ (hi + 1 - lo))) := by
  have h := cut w lo (hi + 1 - lo)
  unfold putBits bitsOf
  generalize w / 2 ^ lo % 2 ^ (hi + 1 - lo) = b at h ⊢
  generalize w / 2 ^ lo / 2 ^ (hi + 1 - lo) = c at h ⊢
  generalize w % 2 ^ lo = a at h ⊢
  generalize v % 2 ^ (hi + 1 - lo) = x
  generalize 2 ^ (hi + 1 - lo) = q at h ⊢
  generalize 2 ^ lo = p at h ⊢
  have : b * p ≤ w := by rw [h, Nat.mul_add]; nlinarith [Nat.zero_le (p * (q * c)), Nat.zero_le a]
  zify [this]
  rw [h]; push_cast; ring

/-- The bits of a number in which a range is replaced. -/
theorem testBit_putBits {hi lo : Nat} (h : lo ≤ hi) (w v i : Nat) :
    (putBits w hi lo v).testBit i = if lo ≤ i ∧ i ≤ hi then v.testBit (i - lo) else w.testBit i := by
  have e : putBits w hi lo v = 2 ^ lo * (2 ^ (hi + 1 - lo) * (w / 2 ^ lo / 2 ^ (hi + 1 - lo)) + v % 2 ^ (hi + 1 - lo)) + w % 2 ^ lo := by
    rw [putBits_cut]; ring
  rw [e, Nat.testBit_two_pow_mul_add _ (Nat.mod_lt _ (Nat.two_pow_pos lo)),
    Nat.testBit_two_pow_mul_add _ (Nat.mod_lt _ (Nat.two_pow_pos _))]
  by_cases h1 : i < lo
  · have : ¬ (lo ≤ i ∧ i ≤ hi) := by omega
    simp [h1, this, Nat.testBit_mod_two_pow]
  · by_cases h2 : i ≤ hi
    · have h3 : i - lo < hi + 1 - lo := by omega
      have h4 : lo ≤ i ∧ i ≤ hi := by omega
      simp [h1, h3, h4, Nat.testBit_mod_two_pow]
    · have h3 : ¬ i - lo < hi + 1 - lo := by omega
      have h4 : ¬ (lo ≤ i ∧ i ≤ hi) := by omega
      have h5 : i - lo - (hi + 1 - lo) + (hi + 1 - lo) + lo = i := by omega
      simp [h1, h3, h4, Nat.testBit_div_two_pow, h5]

/-- The bits of a range. -/
theorem testBit_bitsOf (w hi lo i : Nat) : (bitsOf w hi lo).testBit i = (decide (i < hi + 1 - lo) && w.testBit (lo + i)) := by
  unfold bitsOf
  rw [Nat.testBit_mod_two_pow, Nat.testBit_div_two_pow, Nat.add_comm i lo]

/-- The range just written reads as the value, cut to its width. -/
theorem bitsOf_putBits_same {hi lo : Nat} (h : lo ≤ hi) (w v : Nat) : bitsOf (putBits w hi lo v) hi lo = v % 2 ^ (hi + 1 - lo) := by
  apply Nat.eq_of_testBit_eq; intro i
  rw [testBit_bitsOf, testBit_putBits h, Nat.testBit_mod_two_pow]
  by_cases hi' : i < hi + 1 - lo
  · have : lo ≤ lo + i ∧ lo + i ≤ hi := by omega
    simp [hi', this]
  · simp [hi']

/-- A range that shares no bit with the one written is left alone. -/
theorem bitsOf_putBits_ne {hi lo hi' lo' : Nat} (h : lo ≤ hi) (hd : hi < lo' ∨ hi' < lo) (w v : Nat) :
    bitsOf (putBits w hi lo v) hi' lo' = bitsOf w hi' lo' := by
  apply Nat.eq_of_testBit_eq; intro i
  rw [testBit_bitsOf, testBit_bitsOf, testBit_putBits h]
  by_cases hi1 : i < hi' + 1 - lo'
  · have : ¬ (lo ≤ lo' + i ∧ lo' + i ≤ hi) := by omega
    simp [this]
  · simp [hi1]

/-- A word stays a word when a range inside it is replaced. -/
theorem putBits_lt {hi lo w : Nat} (h : lo ≤ hi) (h1 : hi < 32) (hw : w < 2 ^ 32) (v : Nat) : putBits w hi lo v < 2 ^ 32 := by
  apply Nat.lt_pow_two_of_testBit
  intro i hi'
  rw [testBit_putBits h]
  have : ¬ (lo ≤ i ∧ i ≤ hi) := by omega
  rw [if_neg this]
  exact Nat.testBit_eq_false_of_lt (lt_of_lt_of_le hw (Nat.pow_le_pow_right (by decide) hi'))

/-- The whole word, as the range [31:0]. -/
theorem bitsOf_word {w : Nat} (h : w < 2 ^ 32) : bitsOf w 31 0 = w := by simpa [bitsOf] using h

/-- Bit `i` set or cleared. -/
theorem testBit_putBit (w i j : Nat) (b : Bool) : (putBit w i b).testBit j = if j = i then b else w.testBit j := by
  unfold putBit
  rw [testBit_putBits (Nat.le_refl i)]
  by_cases h : j = i
  · subst h; cases b <;> simp
  · have : ¬ (i ≤ j ∧ j ≤ i) := by omega
    simp [this, h]

/-! ## Registers -/

variable (s : State)

theorem reg_lt (off : Nat) : s.reg off < 2 ^ 32 := by unfold State.reg; exact BitVec.isLt _

/-- A register just stored reads as the value, cut to 32 bits. -/
@[simp] theorem reg_setReg_same (off v : Nat) : (s.setReg off v).reg off = v % 2 ^ 32 := by
  unfold State.setReg State.reg
  by_cases h : BitVec.ofNat 32 v = resetValue off
  · simp [h]; rw [← h, BitVec.toNat_ofNat]
  · simp [h]

/-- The other registers keep their values. -/
theorem reg_setReg_ne {off o : Nat} (h : o ≠ off) (v : Nat) : (s.setReg off v).reg o = s.reg o := by
  unfold State.setReg State.reg
  by_cases hv : BitVec.ofNat 32 v = resetValue off
  · simp [hv, mget_merase_ne h]
  · simp [hv, mget_mput_ne h]

/-- A field just written reads as the value, cut to its width. -/
theorem fld_set_same {f : Fld} (h : f.lo ≤ f.hi) (h1 : f.hi < 32) (v : Nat) : (s.set f v).fld f = v % 2 ^ (f.hi + 1 - f.lo) := by
  unfold State.set State.fld
  rw [reg_setReg_same, Nat.mod_eq_of_lt (putBits_lt h h1 (reg_lt s _) v), bitsOf_putBits_same h]

/-- A field of another register keeps its value. -/
theorem fld_set_ne {f g : Fld} (h : g.off ≠ f.off) (v : Nat) : (s.set f v).fld g = s.fld g := by
  unfold State.set State.fld
  rw [reg_setReg_ne s h]

/-- Another field of the same register keeps its value. -/
theorem fld_set_disjoint {f g : Fld} (h : f.lo ≤ f.hi) (h1 : f.hi < 32) (hd : f.hi < g.lo ∨ g.hi < f.lo) (v : Nat) :
    (s.set f v).fld g = s.fld g := by
  unfold State.set State.fld
  by_cases ho : g.off = f.off
  · rw [ho, reg_setReg_same, Nat.mod_eq_of_lt (putBits_lt h h1 (reg_lt s _) v), bitsOf_putBits_ne h hd]
  · rw [reg_setReg_ne s ho]

/-- A field written leaves the other registers. -/
theorem reg_set_ne {f : Fld} {o : Nat} (h : o ≠ f.off) (v : Nat) : (s.set f v).reg o = s.reg o := reg_setReg_ne s h _

theorem fld_setReg_ne {g : Fld} {off : Nat} (h : g.off ≠ off) (v : Nat) : (s.setReg off v).fld g = s.fld g := by
  unfold State.fld; rw [reg_setReg_ne s h]

theorem fld_setReg_same {g : Fld} {off : Nat} (h : g.off = off) (v : Nat) : (s.setReg off v).fld g = bitsOf (v % 2 ^ 32) g.hi g.lo := by
  unfold State.fld; rw [h, reg_setReg_same]

end Sys2Proof.Laws
end

