-- ==== Sys2Proof/Laws/State.lean ====
section
/-! SUPPORT. What each named update of the state leaves alone: one lemma per field and update, true by definition, so that no later
proof unfolds a record update. -/

namespace Sys2Proof.Laws

set_option Elab.async false

open Sys2Proof.Machine

variable (s : State)
@[simp] theorem setReg_pending (o v : Nat) : (s.setReg o v).pending = s.pending := rfl
@[simp] theorem setReg_now (o v : Nat) : (s.setReg o v).now = s.now := rfl
@[simp] theorem setReg_free (o v : Nat) : (s.setReg o v).free = s.free := rfl
@[simp] theorem setReg_acc (o v : Nat) : (s.setReg o v).acc = s.acc := rfl
@[simp] theorem setReg_rails (o v : Nat) : (s.setReg o v).rails = s.rails := rfl
@[simp] theorem setReg_pins (o v : Nat) : (s.setReg o v).pins = s.pins := rfl
@[simp] theorem setReg_start (o v : Nat) : (s.setReg o v).start = s.start := rfl
@[simp] theorem setReg_clk (o v : Nat) : (s.setReg o v).clk = s.clk := rfl
@[simp] theorem setReg_pwr (o v : Nat) : (s.setReg o v).pwr = s.pwr := rfl
@[simp] theorem setReg_unitResets (o v : Nat) : (s.setReg o v).unitResets = s.unitResets := rfl
@[simp] theorem setReg_fuse (o v : Nat) : (s.setReg o v).fuse = s.fuse := rfl
@[simp] theorem setReg_flt (o v : Nat) : (s.setReg o v).flt = s.flt := rfl
@[simp] theorem setReg_recd (o v : Nat) : (s.setReg o v).recd = s.recd := rfl
@[simp] theorem setReg_sett (o v : Nat) : (s.setReg o v).sett = s.sett := rfl
@[simp] theorem setReg_links (o v : Nat) : (s.setReg o v).links = s.links := rfl
@[simp] theorem setReg_lanes (o v : Nat) : (s.setReg o v).lanes = s.lanes := rfl
@[simp] theorem setReg_sw (o v : Nat) : (s.setReg o v).sw = s.sw := rfl
@[simp] theorem setReg_txns (o v : Nat) : (s.setReg o v).txns = s.txns := rfl
@[simp] theorem setReg_nextTxn (o v : Nat) : (s.setReg o v).nextTxn = s.nextTxn := rfl
@[simp] theorem setReg_marl (o v : Nat) : (s.setReg o v).marl = s.marl := rfl
@[simp] theorem setReg_chan (o v : Nat) : (s.setReg o v).chan = s.chan := rfl
@[simp] theorem setReg_vcp (o v : Nat) : (s.setReg o v).vcp = s.vcp := rfl
@[simp] theorem setReg_qos (o v : Nat) : (s.setReg o v).qos = s.qos := rfl
@[simp] theorem setReg_rings (o v : Nat) : (s.setReg o v).rings = s.rings := rfl
@[simp] theorem setReg_fox (o v : Nat) : (s.setReg o v).fox = s.fox := rfl
@[simp] theorem setReg_prot (o v : Nat) : (s.setReg o v).prot = s.prot := rfl
@[simp] theorem setReg_thm (o v : Nat) : (s.setReg o v).thm = s.thm := rfl

@[simp] theorem set_pending (f : Fld) (v : Nat) : (s.set f v).pending = s.pending := rfl
@[simp] theorem set_now (f : Fld) (v : Nat) : (s.set f v).now = s.now := rfl
@[simp] theorem set_free (f : Fld) (v : Nat) : (s.set f v).free = s.free := rfl
@[simp] theorem set_acc (f : Fld) (v : Nat) : (s.set f v).acc = s.acc := rfl
@[simp] theorem set_rails (f : Fld) (v : Nat) : (s.set f v).rails = s.rails := rfl
@[simp] theorem set_pins (f : Fld) (v : Nat) : (s.set f v).pins = s.pins := rfl
@[simp] theorem set_start (f : Fld) (v : Nat) : (s.set f v).start = s.start := rfl
@[simp] theorem set_clk (f : Fld) (v : Nat) : (s.set f v).clk = s.clk := rfl
@[simp] theorem set_pwr (f : Fld) (v : Nat) : (s.set f v).pwr = s.pwr := rfl
@[simp] theorem set_unitResets (f : Fld) (v : Nat) : (s.set f v).unitResets = s.unitResets := rfl
@[simp] theorem set_fuse (f : Fld) (v : Nat) : (s.set f v).fuse = s.fuse := rfl
@[simp] theorem set_flt (f : Fld) (v : Nat) : (s.set f v).flt = s.flt := rfl
@[simp] theorem set_recd (f : Fld) (v : Nat) : (s.set f v).recd = s.recd := rfl
@[simp] theorem set_sett (f : Fld) (v : Nat) : (s.set f v).sett = s.sett := rfl
@[simp] theorem set_links (f : Fld) (v : Nat) : (s.set f v).links = s.links := rfl
@[simp] theorem set_lanes (f : Fld) (v : Nat) : (s.set f v).lanes = s.lanes := rfl
@[simp] theorem set_sw (f : Fld) (v : Nat) : (s.set f v).sw = s.sw := rfl
@[simp] theorem set_txns (f : Fld) (v : Nat) : (s.set f v).txns = s.txns := rfl
@[simp] theorem set_nextTxn (f : Fld) (v : Nat) : (s.set f v).nextTxn = s.nextTxn := rfl
@[simp] theorem set_marl (f : Fld) (v : Nat) : (s.set f v).marl = s.marl := rfl
@[simp] theorem set_chan (f : Fld) (v : Nat) : (s.set f v).chan = s.chan := rfl
@[simp] theorem set_vcp (f : Fld) (v : Nat) : (s.set f v).vcp = s.vcp := rfl
@[simp] theorem set_qos (f : Fld) (v : Nat) : (s.set f v).qos = s.qos := rfl
@[simp] theorem set_rings (f : Fld) (v : Nat) : (s.set f v).rings = s.rings := rfl
@[simp] theorem set_fox (f : Fld) (v : Nat) : (s.set f v).fox = s.fox := rfl
@[simp] theorem set_prot (f : Fld) (v : Nat) : (s.set f v).prot = s.prot := rfl
@[simp] theorem set_thm (f : Fld) (v : Nat) : (s.set f v).thm = s.thm := rfl

@[simp] theorem incBy_pending (f : Fld) (n : Nat) : (s.incBy f n).pending = s.pending := rfl
@[simp] theorem incBy_now (f : Fld) (n : Nat) : (s.incBy f n).now = s.now := rfl
@[simp] theorem incBy_free (f : Fld) (n : Nat) : (s.incBy f n).free = s.free := rfl
@[simp] theorem incBy_acc (f : Fld) (n : Nat) : (s.incBy f n).acc = s.acc := rfl
@[simp] theorem incBy_rails (f : Fld) (n : Nat) : (s.incBy f n).rails = s.rails := rfl
@[simp] theorem incBy_pins (f : Fld) (n : Nat) : (s.incBy f n).pins = s.pins := rfl
@[simp] theorem incBy_start (f : Fld) (n : Nat) : (s.incBy f n).start = s.start := rfl
@[simp] theorem incBy_clk (f : Fld) (n : Nat) : (s.incBy f n).clk = s.clk := rfl
@[simp] theorem incBy_pwr (f : Fld) (n : Nat) : (s.incBy f n).pwr = s.pwr := rfl
@[simp] theorem incBy_unitResets (f : Fld) (n : Nat) : (s.incBy f n).unitResets = s.unitResets := rfl
@[simp] theorem incBy_fuse (f : Fld) (n : Nat) : (s.incBy f n).fuse = s.fuse := rfl
@[simp] theorem incBy_flt (f : Fld) (n : Nat) : (s.incBy f n).flt = s.flt := rfl
@[simp] theorem incBy_recd (f : Fld) (n : Nat) : (s.incBy f n).recd = s.recd := rfl
@[simp] theorem incBy_sett (f : Fld) (n : Nat) : (s.incBy f n).sett = s.sett := rfl
@[simp] theorem incBy_links (f : Fld) (n : Nat) : (s.incBy f n).links = s.links := rfl
@[simp] theorem incBy_lanes (f : Fld) (n : Nat) : (s.incBy f n).lanes = s.lanes := rfl
@[simp] theorem incBy_sw (f : Fld) (n : Nat) : (s.incBy f n).sw = s.sw := rfl
@[simp] theorem incBy_txns (f : Fld) (n : Nat) : (s.incBy f n).txns = s.txns := rfl
@[simp] theorem incBy_nextTxn (f : Fld) (n : Nat) : (s.incBy f n).nextTxn = s.nextTxn := rfl
@[simp] theorem incBy_marl (f : Fld) (n : Nat) : (s.incBy f n).marl = s.marl := rfl
@[simp] theorem incBy_chan (f : Fld) (n : Nat) : (s.incBy f n).chan = s.chan := rfl
@[simp] theorem incBy_vcp (f : Fld) (n : Nat) : (s.incBy f n).vcp = s.vcp := rfl
@[simp] theorem incBy_qos (f : Fld) (n : Nat) : (s.incBy f n).qos = s.qos := rfl
@[simp] theorem incBy_rings (f : Fld) (n : Nat) : (s.incBy f n).rings = s.rings := rfl
@[simp] theorem incBy_fox (f : Fld) (n : Nat) : (s.incBy f n).fox = s.fox := rfl
@[simp] theorem incBy_prot (f : Fld) (n : Nat) : (s.incBy f n).prot = s.prot := rfl
@[simp] theorem incBy_thm (f : Fld) (n : Nat) : (s.incBy f n).thm = s.thm := rfl

@[simp] theorem inc_pending (f : Fld) : (s.inc f).pending = s.pending := rfl
@[simp] theorem inc_now (f : Fld) : (s.inc f).now = s.now := rfl
@[simp] theorem inc_free (f : Fld) : (s.inc f).free = s.free := rfl
@[simp] theorem inc_acc (f : Fld) : (s.inc f).acc = s.acc := rfl
@[simp] theorem inc_rails (f : Fld) : (s.inc f).rails = s.rails := rfl
@[simp] theorem inc_pins (f : Fld) : (s.inc f).pins = s.pins := rfl
@[simp] theorem inc_start (f : Fld) : (s.inc f).start = s.start := rfl
@[simp] theorem inc_clk (f : Fld) : (s.inc f).clk = s.clk := rfl
@[simp] theorem inc_pwr (f : Fld) : (s.inc f).pwr = s.pwr := rfl
@[simp] theorem inc_unitResets (f : Fld) : (s.inc f).unitResets = s.unitResets := rfl
@[simp] theorem inc_fuse (f : Fld) : (s.inc f).fuse = s.fuse := rfl
@[simp] theorem inc_flt (f : Fld) : (s.inc f).flt = s.flt := rfl
@[simp] theorem inc_recd (f : Fld) : (s.inc f).recd = s.recd := rfl
@[simp] theorem inc_sett (f : Fld) : (s.inc f).sett = s.sett := rfl
@[simp] theorem inc_links (f : Fld) : (s.inc f).links = s.links := rfl
@[simp] theorem inc_lanes (f : Fld) : (s.inc f).lanes = s.lanes := rfl
@[simp] theorem inc_sw (f : Fld) : (s.inc f).sw = s.sw := rfl
@[simp] theorem inc_txns (f : Fld) : (s.inc f).txns = s.txns := rfl
@[simp] theorem inc_nextTxn (f : Fld) : (s.inc f).nextTxn = s.nextTxn := rfl
@[simp] theorem inc_marl (f : Fld) : (s.inc f).marl = s.marl := rfl
@[simp] theorem inc_chan (f : Fld) : (s.inc f).chan = s.chan := rfl
@[simp] theorem inc_vcp (f : Fld) : (s.inc f).vcp = s.vcp := rfl
@[simp] theorem inc_qos (f : Fld) : (s.inc f).qos = s.qos := rfl
@[simp] theorem inc_rings (f : Fld) : (s.inc f).rings = s.rings := rfl
@[simp] theorem inc_fox (f : Fld) : (s.inc f).fox = s.fox := rfl
@[simp] theorem inc_prot (f : Fld) : (s.inc f).prot = s.prot := rfl
@[simp] theorem inc_thm (f : Fld) : (s.inc f).thm = s.thm := rfl

@[simp] theorem incSat_pending (f : Fld) : (s.incSat f).pending = s.pending := rfl
@[simp] theorem incSat_now (f : Fld) : (s.incSat f).now = s.now := rfl
@[simp] theorem incSat_free (f : Fld) : (s.incSat f).free = s.free := rfl
@[simp] theorem incSat_acc (f : Fld) : (s.incSat f).acc = s.acc := rfl
@[simp] theorem incSat_rails (f : Fld) : (s.incSat f).rails = s.rails := rfl
@[simp] theorem incSat_pins (f : Fld) : (s.incSat f).pins = s.pins := rfl
@[simp] theorem incSat_start (f : Fld) : (s.incSat f).start = s.start := rfl
@[simp] theorem incSat_clk (f : Fld) : (s.incSat f).clk = s.clk := rfl
@[simp] theorem incSat_pwr (f : Fld) : (s.incSat f).pwr = s.pwr := rfl
@[simp] theorem incSat_unitResets (f : Fld) : (s.incSat f).unitResets = s.unitResets := rfl
@[simp] theorem incSat_fuse (f : Fld) : (s.incSat f).fuse = s.fuse := rfl
@[simp] theorem incSat_flt (f : Fld) : (s.incSat f).flt = s.flt := rfl
@[simp] theorem incSat_recd (f : Fld) : (s.incSat f).recd = s.recd := rfl
@[simp] theorem incSat_sett (f : Fld) : (s.incSat f).sett = s.sett := rfl
@[simp] theorem incSat_links (f : Fld) : (s.incSat f).links = s.links := rfl
@[simp] theorem incSat_lanes (f : Fld) : (s.incSat f).lanes = s.lanes := rfl
@[simp] theorem incSat_sw (f : Fld) : (s.incSat f).sw = s.sw := rfl
@[simp] theorem incSat_txns (f : Fld) : (s.incSat f).txns = s.txns := rfl
@[simp] theorem incSat_nextTxn (f : Fld) : (s.incSat f).nextTxn = s.nextTxn := rfl
@[simp] theorem incSat_marl (f : Fld) : (s.incSat f).marl = s.marl := rfl
@[simp] theorem incSat_chan (f : Fld) : (s.incSat f).chan = s.chan := rfl
@[simp] theorem incSat_vcp (f : Fld) : (s.incSat f).vcp = s.vcp := rfl
@[simp] theorem incSat_qos (f : Fld) : (s.incSat f).qos = s.qos := rfl
@[simp] theorem incSat_rings (f : Fld) : (s.incSat f).rings = s.rings := rfl
@[simp] theorem incSat_fox (f : Fld) : (s.incSat f).fox = s.fox := rfl
@[simp] theorem incSat_prot (f : Fld) : (s.incSat f).prot = s.prot := rfl
@[simp] theorem incSat_thm (f : Fld) : (s.incSat f).thm = s.thm := rfl

@[simp] theorem viol_pending (o : Nat) (v : Viol) : (s.viol o v).pending = s.pending := rfl
@[simp] theorem viol_now (o : Nat) (v : Viol) : (s.viol o v).now = s.now := rfl
@[simp] theorem viol_free (o : Nat) (v : Viol) : (s.viol o v).free = s.free := rfl
@[simp] theorem viol_acc (o : Nat) (v : Viol) : (s.viol o v).acc = s.acc := rfl
@[simp] theorem viol_rails (o : Nat) (v : Viol) : (s.viol o v).rails = s.rails := rfl
@[simp] theorem viol_pins (o : Nat) (v : Viol) : (s.viol o v).pins = s.pins := rfl
@[simp] theorem viol_start (o : Nat) (v : Viol) : (s.viol o v).start = s.start := rfl
@[simp] theorem viol_clk (o : Nat) (v : Viol) : (s.viol o v).clk = s.clk := rfl
@[simp] theorem viol_pwr (o : Nat) (v : Viol) : (s.viol o v).pwr = s.pwr := rfl
@[simp] theorem viol_unitResets (o : Nat) (v : Viol) : (s.viol o v).unitResets = s.unitResets := rfl
@[simp] theorem viol_fuse (o : Nat) (v : Viol) : (s.viol o v).fuse = s.fuse := rfl
@[simp] theorem viol_flt (o : Nat) (v : Viol) : (s.viol o v).flt = s.flt := rfl
@[simp] theorem viol_recd (o : Nat) (v : Viol) : (s.viol o v).recd = s.recd := rfl
@[simp] theorem viol_sett (o : Nat) (v : Viol) : (s.viol o v).sett = s.sett := rfl
@[simp] theorem viol_links (o : Nat) (v : Viol) : (s.viol o v).links = s.links := rfl
@[simp] theorem viol_lanes (o : Nat) (v : Viol) : (s.viol o v).lanes = s.lanes := rfl
@[simp] theorem viol_sw (o : Nat) (v : Viol) : (s.viol o v).sw = s.sw := rfl
@[simp] theorem viol_txns (o : Nat) (v : Viol) : (s.viol o v).txns = s.txns := rfl
@[simp] theorem viol_nextTxn (o : Nat) (v : Viol) : (s.viol o v).nextTxn = s.nextTxn := rfl
@[simp] theorem viol_marl (o : Nat) (v : Viol) : (s.viol o v).marl = s.marl := rfl
@[simp] theorem viol_chan (o : Nat) (v : Viol) : (s.viol o v).chan = s.chan := rfl
@[simp] theorem viol_vcp (o : Nat) (v : Viol) : (s.viol o v).vcp = s.vcp := rfl
@[simp] theorem viol_qos (o : Nat) (v : Viol) : (s.viol o v).qos = s.qos := rfl
@[simp] theorem viol_rings (o : Nat) (v : Viol) : (s.viol o v).rings = s.rings := rfl
@[simp] theorem viol_fox (o : Nat) (v : Viol) : (s.viol o v).fox = s.fox := rfl
@[simp] theorem viol_prot (o : Nat) (v : Viol) : (s.viol o v).prot = s.prot := rfl
@[simp] theorem viol_thm (o : Nat) (v : Viol) : (s.viol o v).thm = s.thm := rfl

@[simp] theorem setPair_pending (f : Fld) (n : Nat) : (s.setPair f n).pending = s.pending := rfl
@[simp] theorem setPair_now (f : Fld) (n : Nat) : (s.setPair f n).now = s.now := rfl
@[simp] theorem setPair_free (f : Fld) (n : Nat) : (s.setPair f n).free = s.free := rfl
@[simp] theorem setPair_acc (f : Fld) (n : Nat) : (s.setPair f n).acc = s.acc := rfl
@[simp] theorem setPair_rails (f : Fld) (n : Nat) : (s.setPair f n).rails = s.rails := rfl
@[simp] theorem setPair_pins (f : Fld) (n : Nat) : (s.setPair f n).pins = s.pins := rfl
@[simp] theorem setPair_start (f : Fld) (n : Nat) : (s.setPair f n).start = s.start := rfl
@[simp] theorem setPair_clk (f : Fld) (n : Nat) : (s.setPair f n).clk = s.clk := rfl
@[simp] theorem setPair_pwr (f : Fld) (n : Nat) : (s.setPair f n).pwr = s.pwr := rfl
@[simp] theorem setPair_unitResets (f : Fld) (n : Nat) : (s.setPair f n).unitResets = s.unitResets := rfl
@[simp] theorem setPair_fuse (f : Fld) (n : Nat) : (s.setPair f n).fuse = s.fuse := rfl
@[simp] theorem setPair_flt (f : Fld) (n : Nat) : (s.setPair f n).flt = s.flt := rfl
@[simp] theorem setPair_recd (f : Fld) (n : Nat) : (s.setPair f n).recd = s.recd := rfl
@[simp] theorem setPair_sett (f : Fld) (n : Nat) : (s.setPair f n).sett = s.sett := rfl
@[simp] theorem setPair_links (f : Fld) (n : Nat) : (s.setPair f n).links = s.links := rfl
@[simp] theorem setPair_lanes (f : Fld) (n : Nat) : (s.setPair f n).lanes = s.lanes := rfl
@[simp] theorem setPair_sw (f : Fld) (n : Nat) : (s.setPair f n).sw = s.sw := rfl
@[simp] theorem setPair_txns (f : Fld) (n : Nat) : (s.setPair f n).txns = s.txns := rfl
@[simp] theorem setPair_nextTxn (f : Fld) (n : Nat) : (s.setPair f n).nextTxn = s.nextTxn := rfl
@[simp] theorem setPair_marl (f : Fld) (n : Nat) : (s.setPair f n).marl = s.marl := rfl
@[simp] theorem setPair_chan (f : Fld) (n : Nat) : (s.setPair f n).chan = s.chan := rfl
@[simp] theorem setPair_vcp (f : Fld) (n : Nat) : (s.setPair f n).vcp = s.vcp := rfl
@[simp] theorem setPair_qos (f : Fld) (n : Nat) : (s.setPair f n).qos = s.qos := rfl
@[simp] theorem setPair_rings (f : Fld) (n : Nat) : (s.setPair f n).rings = s.rings := rfl
@[simp] theorem setPair_fox (f : Fld) (n : Nat) : (s.setPair f n).fox = s.fox := rfl
@[simp] theorem setPair_prot (f : Fld) (n : Nat) : (s.setPair f n).prot = s.prot := rfl
@[simp] theorem setPair_thm (f : Fld) (n : Nat) : (s.setPair f n).thm = s.thm := rfl

@[simp] theorem incPair_pending (f : Fld) (n : Nat) : (s.incPair f n).pending = s.pending := rfl
@[simp] theorem incPair_now (f : Fld) (n : Nat) : (s.incPair f n).now = s.now := rfl
@[simp] theorem incPair_free (f : Fld) (n : Nat) : (s.incPair f n).free = s.free := rfl
@[simp] theorem incPair_acc (f : Fld) (n : Nat) : (s.incPair f n).acc = s.acc := rfl
@[simp] theorem incPair_rails (f : Fld) (n : Nat) : (s.incPair f n).rails = s.rails := rfl
@[simp] theorem incPair_pins (f : Fld) (n : Nat) : (s.incPair f n).pins = s.pins := rfl
@[simp] theorem incPair_start (f : Fld) (n : Nat) : (s.incPair f n).start = s.start := rfl
@[simp] theorem incPair_clk (f : Fld) (n : Nat) : (s.incPair f n).clk = s.clk := rfl
@[simp] theorem incPair_pwr (f : Fld) (n : Nat) : (s.incPair f n).pwr = s.pwr := rfl
@[simp] theorem incPair_unitResets (f : Fld) (n : Nat) : (s.incPair f n).unitResets = s.unitResets := rfl
@[simp] theorem incPair_fuse (f : Fld) (n : Nat) : (s.incPair f n).fuse = s.fuse := rfl
@[simp] theorem incPair_flt (f : Fld) (n : Nat) : (s.incPair f n).flt = s.flt := rfl
@[simp] theorem incPair_recd (f : Fld) (n : Nat) : (s.incPair f n).recd = s.recd := rfl
@[simp] theorem incPair_sett (f : Fld) (n : Nat) : (s.incPair f n).sett = s.sett := rfl
@[simp] theorem incPair_links (f : Fld) (n : Nat) : (s.incPair f n).links = s.links := rfl
@[simp] theorem incPair_lanes (f : Fld) (n : Nat) : (s.incPair f n).lanes = s.lanes := rfl
@[simp] theorem incPair_sw (f : Fld) (n : Nat) : (s.incPair f n).sw = s.sw := rfl
@[simp] theorem incPair_txns (f : Fld) (n : Nat) : (s.incPair f n).txns = s.txns := rfl
@[simp] theorem incPair_nextTxn (f : Fld) (n : Nat) : (s.incPair f n).nextTxn = s.nextTxn := rfl
@[simp] theorem incPair_marl (f : Fld) (n : Nat) : (s.incPair f n).marl = s.marl := rfl
@[simp] theorem incPair_chan (f : Fld) (n : Nat) : (s.incPair f n).chan = s.chan := rfl
@[simp] theorem incPair_vcp (f : Fld) (n : Nat) : (s.incPair f n).vcp = s.vcp := rfl
@[simp] theorem incPair_qos (f : Fld) (n : Nat) : (s.incPair f n).qos = s.qos := rfl
@[simp] theorem incPair_rings (f : Fld) (n : Nat) : (s.incPair f n).rings = s.rings := rfl
@[simp] theorem incPair_fox (f : Fld) (n : Nat) : (s.incPair f n).fox = s.fox := rfl
@[simp] theorem incPair_prot (f : Fld) (n : Nat) : (s.incPair f n).prot = s.prot := rfl
@[simp] theorem incPair_thm (f : Fld) (n : Nat) : (s.incPair f n).thm = s.thm := rfl

@[simp] theorem setLink_pending (p m : Nat) (l : Link) : (s.setLink p m l).pending = s.pending := rfl
@[simp] theorem setLink_now (p m : Nat) (l : Link) : (s.setLink p m l).now = s.now := rfl
@[simp] theorem setLink_free (p m : Nat) (l : Link) : (s.setLink p m l).free = s.free := rfl
@[simp] theorem setLink_regs (p m : Nat) (l : Link) : (s.setLink p m l).regs = s.regs := rfl
@[simp] theorem setLink_acc (p m : Nat) (l : Link) : (s.setLink p m l).acc = s.acc := rfl
@[simp] theorem setLink_rails (p m : Nat) (l : Link) : (s.setLink p m l).rails = s.rails := rfl
@[simp] theorem setLink_pins (p m : Nat) (l : Link) : (s.setLink p m l).pins = s.pins := rfl
@[simp] theorem setLink_start (p m : Nat) (l : Link) : (s.setLink p m l).start = s.start := rfl
@[simp] theorem setLink_clk (p m : Nat) (l : Link) : (s.setLink p m l).clk = s.clk := rfl
@[simp] theorem setLink_pwr (p m : Nat) (l : Link) : (s.setLink p m l).pwr = s.pwr := rfl
@[simp] theorem setLink_unitResets (p m : Nat) (l : Link) : (s.setLink p m l).unitResets = s.unitResets := rfl
@[simp] theorem setLink_fuse (p m : Nat) (l : Link) : (s.setLink p m l).fuse = s.fuse := rfl
@[simp] theorem setLink_flt (p m : Nat) (l : Link) : (s.setLink p m l).flt = s.flt := rfl
@[simp] theorem setLink_recd (p m : Nat) (l : Link) : (s.setLink p m l).recd = s.recd := rfl
@[simp] theorem setLink_sett (p m : Nat) (l : Link) : (s.setLink p m l).sett = s.sett := rfl
@[simp] theorem setLink_lanes (p m : Nat) (l : Link) : (s.setLink p m l).lanes = s.lanes := rfl
@[simp] theorem setLink_sw (p m : Nat) (l : Link) : (s.setLink p m l).sw = s.sw := rfl
@[simp] theorem setLink_txns (p m : Nat) (l : Link) : (s.setLink p m l).txns = s.txns := rfl
@[simp] theorem setLink_nextTxn (p m : Nat) (l : Link) : (s.setLink p m l).nextTxn = s.nextTxn := rfl
@[simp] theorem setLink_marl (p m : Nat) (l : Link) : (s.setLink p m l).marl = s.marl := rfl
@[simp] theorem setLink_chan (p m : Nat) (l : Link) : (s.setLink p m l).chan = s.chan := rfl
@[simp] theorem setLink_vcp (p m : Nat) (l : Link) : (s.setLink p m l).vcp = s.vcp := rfl
@[simp] theorem setLink_qos (p m : Nat) (l : Link) : (s.setLink p m l).qos = s.qos := rfl
@[simp] theorem setLink_rings (p m : Nat) (l : Link) : (s.setLink p m l).rings = s.rings := rfl
@[simp] theorem setLink_fox (p m : Nat) (l : Link) : (s.setLink p m l).fox = s.fox := rfl
@[simp] theorem setLink_prot (p m : Nat) (l : Link) : (s.setLink p m l).prot = s.prot := rfl
@[simp] theorem setLink_thm (p m : Nat) (l : Link) : (s.setLink p m l).thm = s.thm := rfl

@[simp] theorem setLane_pending (l : Nat) (x : Lane) : (s.setLane l x).pending = s.pending := rfl
@[simp] theorem setLane_now (l : Nat) (x : Lane) : (s.setLane l x).now = s.now := rfl
@[simp] theorem setLane_free (l : Nat) (x : Lane) : (s.setLane l x).free = s.free := rfl
@[simp] theorem setLane_regs (l : Nat) (x : Lane) : (s.setLane l x).regs = s.regs := rfl
@[simp] theorem setLane_acc (l : Nat) (x : Lane) : (s.setLane l x).acc = s.acc := rfl
@[simp] theorem setLane_rails (l : Nat) (x : Lane) : (s.setLane l x).rails = s.rails := rfl
@[simp] theorem setLane_pins (l : Nat) (x : Lane) : (s.setLane l x).pins = s.pins := rfl
@[simp] theorem setLane_start (l : Nat) (x : Lane) : (s.setLane l x).start = s.start := rfl
@[simp] theorem setLane_clk (l : Nat) (x : Lane) : (s.setLane l x).clk = s.clk := rfl
@[simp] theorem setLane_pwr (l : Nat) (x : Lane) : (s.setLane l x).pwr = s.pwr := rfl
@[simp] theorem setLane_unitResets (l : Nat) (x : Lane) : (s.setLane l x).unitResets = s.unitResets := rfl
@[simp] theorem setLane_fuse (l : Nat) (x : Lane) : (s.setLane l x).fuse = s.fuse := rfl
@[simp] theorem setLane_flt (l : Nat) (x : Lane) : (s.setLane l x).flt = s.flt := rfl
@[simp] theorem setLane_recd (l : Nat) (x : Lane) : (s.setLane l x).recd = s.recd := rfl
@[simp] theorem setLane_sett (l : Nat) (x : Lane) : (s.setLane l x).sett = s.sett := rfl
@[simp] theorem setLane_links (l : Nat) (x : Lane) : (s.setLane l x).links = s.links := rfl
@[simp] theorem setLane_sw (l : Nat) (x : Lane) : (s.setLane l x).sw = s.sw := rfl
@[simp] theorem setLane_txns (l : Nat) (x : Lane) : (s.setLane l x).txns = s.txns := rfl
@[simp] theorem setLane_nextTxn (l : Nat) (x : Lane) : (s.setLane l x).nextTxn = s.nextTxn := rfl
@[simp] theorem setLane_marl (l : Nat) (x : Lane) : (s.setLane l x).marl = s.marl := rfl
@[simp] theorem setLane_chan (l : Nat) (x : Lane) : (s.setLane l x).chan = s.chan := rfl
@[simp] theorem setLane_vcp (l : Nat) (x : Lane) : (s.setLane l x).vcp = s.vcp := rfl
@[simp] theorem setLane_qos (l : Nat) (x : Lane) : (s.setLane l x).qos = s.qos := rfl
@[simp] theorem setLane_rings (l : Nat) (x : Lane) : (s.setLane l x).rings = s.rings := rfl
@[simp] theorem setLane_fox (l : Nat) (x : Lane) : (s.setLane l x).fox = s.fox := rfl
@[simp] theorem setLane_prot (l : Nat) (x : Lane) : (s.setLane l x).prot = s.prot := rfl
@[simp] theorem setLane_thm (l : Nat) (x : Lane) : (s.setLane l x).thm = s.thm := rfl

@[simp] theorem setChn_pending (c : Nat) (x : Chan) : (s.setChn c x).pending = s.pending := rfl
@[simp] theorem setChn_now (c : Nat) (x : Chan) : (s.setChn c x).now = s.now := rfl
@[simp] theorem setChn_free (c : Nat) (x : Chan) : (s.setChn c x).free = s.free := rfl
@[simp] theorem setChn_regs (c : Nat) (x : Chan) : (s.setChn c x).regs = s.regs := rfl
@[simp] theorem setChn_acc (c : Nat) (x : Chan) : (s.setChn c x).acc = s.acc := rfl
@[simp] theorem setChn_rails (c : Nat) (x : Chan) : (s.setChn c x).rails = s.rails := rfl
@[simp] theorem setChn_pins (c : Nat) (x : Chan) : (s.setChn c x).pins = s.pins := rfl
@[simp] theorem setChn_start (c : Nat) (x : Chan) : (s.setChn c x).start = s.start := rfl
@[simp] theorem setChn_clk (c : Nat) (x : Chan) : (s.setChn c x).clk = s.clk := rfl
@[simp] theorem setChn_pwr (c : Nat) (x : Chan) : (s.setChn c x).pwr = s.pwr := rfl
@[simp] theorem setChn_unitResets (c : Nat) (x : Chan) : (s.setChn c x).unitResets = s.unitResets := rfl
@[simp] theorem setChn_fuse (c : Nat) (x : Chan) : (s.setChn c x).fuse = s.fuse := rfl
@[simp] theorem setChn_flt (c : Nat) (x : Chan) : (s.setChn c x).flt = s.flt := rfl
@[simp] theorem setChn_recd (c : Nat) (x : Chan) : (s.setChn c x).recd = s.recd := rfl
@[simp] theorem setChn_sett (c : Nat) (x : Chan) : (s.setChn c x).sett = s.sett := rfl
@[simp] theorem setChn_links (c : Nat) (x : Chan) : (s.setChn c x).links = s.links := rfl
@[simp] theorem setChn_lanes (c : Nat) (x : Chan) : (s.setChn c x).lanes = s.lanes := rfl
@[simp] theorem setChn_sw (c : Nat) (x : Chan) : (s.setChn c x).sw = s.sw := rfl
@[simp] theorem setChn_txns (c : Nat) (x : Chan) : (s.setChn c x).txns = s.txns := rfl
@[simp] theorem setChn_nextTxn (c : Nat) (x : Chan) : (s.setChn c x).nextTxn = s.nextTxn := rfl
@[simp] theorem setChn_marl (c : Nat) (x : Chan) : (s.setChn c x).marl = s.marl := rfl
@[simp] theorem setChn_vcp (c : Nat) (x : Chan) : (s.setChn c x).vcp = s.vcp := rfl
@[simp] theorem setChn_qos (c : Nat) (x : Chan) : (s.setChn c x).qos = s.qos := rfl
@[simp] theorem setChn_rings (c : Nat) (x : Chan) : (s.setChn c x).rings = s.rings := rfl
@[simp] theorem setChn_fox (c : Nat) (x : Chan) : (s.setChn c x).fox = s.fox := rfl
@[simp] theorem setChn_prot (c : Nat) (x : Chan) : (s.setChn c x).prot = s.prot := rfl
@[simp] theorem setChn_thm (c : Nat) (x : Chan) : (s.setChn c x).thm = s.thm := rfl

@[simp] theorem setRing_pending (n : Nat) (x : Ring) : (s.setRing n x).pending = s.pending := rfl
@[simp] theorem setRing_now (n : Nat) (x : Ring) : (s.setRing n x).now = s.now := rfl
@[simp] theorem setRing_free (n : Nat) (x : Ring) : (s.setRing n x).free = s.free := rfl
@[simp] theorem setRing_regs (n : Nat) (x : Ring) : (s.setRing n x).regs = s.regs := rfl
@[simp] theorem setRing_acc (n : Nat) (x : Ring) : (s.setRing n x).acc = s.acc := rfl
@[simp] theorem setRing_rails (n : Nat) (x : Ring) : (s.setRing n x).rails = s.rails := rfl
@[simp] theorem setRing_pins (n : Nat) (x : Ring) : (s.setRing n x).pins = s.pins := rfl
@[simp] theorem setRing_start (n : Nat) (x : Ring) : (s.setRing n x).start = s.start := rfl
@[simp] theorem setRing_clk (n : Nat) (x : Ring) : (s.setRing n x).clk = s.clk := rfl
@[simp] theorem setRing_pwr (n : Nat) (x : Ring) : (s.setRing n x).pwr = s.pwr := rfl
@[simp] theorem setRing_unitResets (n : Nat) (x : Ring) : (s.setRing n x).unitResets = s.unitResets := rfl
@[simp] theorem setRing_fuse (n : Nat) (x : Ring) : (s.setRing n x).fuse = s.fuse := rfl
@[simp] theorem setRing_flt (n : Nat) (x : Ring) : (s.setRing n x).flt = s.flt := rfl
@[simp] theorem setRing_recd (n : Nat) (x : Ring) : (s.setRing n x).recd = s.recd := rfl
@[simp] theorem setRing_sett (n : Nat) (x : Ring) : (s.setRing n x).sett = s.sett := rfl
@[simp] theorem setRing_links (n : Nat) (x : Ring) : (s.setRing n x).links = s.links := rfl
@[simp] theorem setRing_lanes (n : Nat) (x : Ring) : (s.setRing n x).lanes = s.lanes := rfl
@[simp] theorem setRing_sw (n : Nat) (x : Ring) : (s.setRing n x).sw = s.sw := rfl
@[simp] theorem setRing_txns (n : Nat) (x : Ring) : (s.setRing n x).txns = s.txns := rfl
@[simp] theorem setRing_nextTxn (n : Nat) (x : Ring) : (s.setRing n x).nextTxn = s.nextTxn := rfl
@[simp] theorem setRing_marl (n : Nat) (x : Ring) : (s.setRing n x).marl = s.marl := rfl
@[simp] theorem setRing_chan (n : Nat) (x : Ring) : (s.setRing n x).chan = s.chan := rfl
@[simp] theorem setRing_vcp (n : Nat) (x : Ring) : (s.setRing n x).vcp = s.vcp := rfl
@[simp] theorem setRing_qos (n : Nat) (x : Ring) : (s.setRing n x).qos = s.qos := rfl
@[simp] theorem setRing_fox (n : Nat) (x : Ring) : (s.setRing n x).fox = s.fox := rfl
@[simp] theorem setRing_prot (n : Nat) (x : Ring) : (s.setRing n x).prot = s.prot := rfl
@[simp] theorem setRing_thm (n : Nat) (x : Ring) : (s.setRing n x).thm = s.thm := rfl

@[simp] theorem setEng_pending (e : Nat) (x : Engine) : (s.setEng e x).pending = s.pending := rfl
@[simp] theorem setEng_now (e : Nat) (x : Engine) : (s.setEng e x).now = s.now := rfl
@[simp] theorem setEng_free (e : Nat) (x : Engine) : (s.setEng e x).free = s.free := rfl
@[simp] theorem setEng_regs (e : Nat) (x : Engine) : (s.setEng e x).regs = s.regs := rfl
@[simp] theorem setEng_acc (e : Nat) (x : Engine) : (s.setEng e x).acc = s.acc := rfl
@[simp] theorem setEng_rails (e : Nat) (x : Engine) : (s.setEng e x).rails = s.rails := rfl
@[simp] theorem setEng_pins (e : Nat) (x : Engine) : (s.setEng e x).pins = s.pins := rfl
@[simp] theorem setEng_start (e : Nat) (x : Engine) : (s.setEng e x).start = s.start := rfl
@[simp] theorem setEng_clk (e : Nat) (x : Engine) : (s.setEng e x).clk = s.clk := rfl
@[simp] theorem setEng_pwr (e : Nat) (x : Engine) : (s.setEng e x).pwr = s.pwr := rfl
@[simp] theorem setEng_unitResets (e : Nat) (x : Engine) : (s.setEng e x).unitResets = s.unitResets := rfl
@[simp] theorem setEng_fuse (e : Nat) (x : Engine) : (s.setEng e x).fuse = s.fuse := rfl
@[simp] theorem setEng_flt (e : Nat) (x : Engine) : (s.setEng e x).flt = s.flt := rfl
@[simp] theorem setEng_recd (e : Nat) (x : Engine) : (s.setEng e x).recd = s.recd := rfl
@[simp] theorem setEng_sett (e : Nat) (x : Engine) : (s.setEng e x).sett = s.sett := rfl
@[simp] theorem setEng_links (e : Nat) (x : Engine) : (s.setEng e x).links = s.links := rfl
@[simp] theorem setEng_lanes (e : Nat) (x : Engine) : (s.setEng e x).lanes = s.lanes := rfl
@[simp] theorem setEng_sw (e : Nat) (x : Engine) : (s.setEng e x).sw = s.sw := rfl
@[simp] theorem setEng_txns (e : Nat) (x : Engine) : (s.setEng e x).txns = s.txns := rfl
@[simp] theorem setEng_nextTxn (e : Nat) (x : Engine) : (s.setEng e x).nextTxn = s.nextTxn := rfl
@[simp] theorem setEng_marl (e : Nat) (x : Engine) : (s.setEng e x).marl = s.marl := rfl
@[simp] theorem setEng_chan (e : Nat) (x : Engine) : (s.setEng e x).chan = s.chan := rfl
@[simp] theorem setEng_vcp (e : Nat) (x : Engine) : (s.setEng e x).vcp = s.vcp := rfl
@[simp] theorem setEng_qos (e : Nat) (x : Engine) : (s.setEng e x).qos = s.qos := rfl
@[simp] theorem setEng_rings (e : Nat) (x : Engine) : (s.setEng e x).rings = s.rings := rfl
@[simp] theorem setEng_prot (e : Nat) (x : Engine) : (s.setEng e x).prot = s.prot := rfl
@[simp] theorem setEng_thm (e : Nat) (x : Engine) : (s.setEng e x).thm = s.thm := rfl

@[simp] theorem setCol_pending (c : Nat) (x : Column) : (s.setCol c x).pending = s.pending := rfl
@[simp] theorem setCol_now (c : Nat) (x : Column) : (s.setCol c x).now = s.now := rfl
@[simp] theorem setCol_free (c : Nat) (x : Column) : (s.setCol c x).free = s.free := rfl
@[simp] theorem setCol_regs (c : Nat) (x : Column) : (s.setCol c x).regs = s.regs := rfl
@[simp] theorem setCol_acc (c : Nat) (x : Column) : (s.setCol c x).acc = s.acc := rfl
@[simp] theorem setCol_rails (c : Nat) (x : Column) : (s.setCol c x).rails = s.rails := rfl
@[simp] theorem setCol_pins (c : Nat) (x : Column) : (s.setCol c x).pins = s.pins := rfl
@[simp] theorem setCol_start (c : Nat) (x : Column) : (s.setCol c x).start = s.start := rfl
@[simp] theorem setCol_clk (c : Nat) (x : Column) : (s.setCol c x).clk = s.clk := rfl
@[simp] theorem setCol_pwr (c : Nat) (x : Column) : (s.setCol c x).pwr = s.pwr := rfl
@[simp] theorem setCol_unitResets (c : Nat) (x : Column) : (s.setCol c x).unitResets = s.unitResets := rfl
@[simp] theorem setCol_fuse (c : Nat) (x : Column) : (s.setCol c x).fuse = s.fuse := rfl
@[simp] theorem setCol_flt (c : Nat) (x : Column) : (s.setCol c x).flt = s.flt := rfl
@[simp] theorem setCol_recd (c : Nat) (x : Column) : (s.setCol c x).recd = s.recd := rfl
@[simp] theorem setCol_sett (c : Nat) (x : Column) : (s.setCol c x).sett = s.sett := rfl
@[simp] theorem setCol_links (c : Nat) (x : Column) : (s.setCol c x).links = s.links := rfl
@[simp] theorem setCol_lanes (c : Nat) (x : Column) : (s.setCol c x).lanes = s.lanes := rfl
@[simp] theorem setCol_sw (c : Nat) (x : Column) : (s.setCol c x).sw = s.sw := rfl
@[simp] theorem setCol_txns (c : Nat) (x : Column) : (s.setCol c x).txns = s.txns := rfl
@[simp] theorem setCol_nextTxn (c : Nat) (x : Column) : (s.setCol c x).nextTxn = s.nextTxn := rfl
@[simp] theorem setCol_marl (c : Nat) (x : Column) : (s.setCol c x).marl = s.marl := rfl
@[simp] theorem setCol_chan (c : Nat) (x : Column) : (s.setCol c x).chan = s.chan := rfl
@[simp] theorem setCol_qos (c : Nat) (x : Column) : (s.setCol c x).qos = s.qos := rfl
@[simp] theorem setCol_rings (c : Nat) (x : Column) : (s.setCol c x).rings = s.rings := rfl
@[simp] theorem setCol_fox (c : Nat) (x : Column) : (s.setCol c x).fox = s.fox := rfl
@[simp] theorem setCol_prot (c : Nat) (x : Column) : (s.setCol c x).prot = s.prot := rfl
@[simp] theorem setCol_thm (c : Nat) (x : Column) : (s.setCol c x).thm = s.thm := rfl

/-- A list of field writes changes registers alone. -/
theorem sets_eq (l : List (Fld × Nat)) : s.sets l = { s with regs := (s.sets l).regs } := by
  unfold State.sets
  induction l generalizing s with
  | nil => rfl
  | cons p l ih => simp only [List.foldl]; rw [ih (s.set p.1 p.2)]; rfl

@[simp] theorem sets_nil : s.sets [] = s := rfl
@[simp] theorem sets_cons (p : Fld × Nat) (l : List (Fld × Nat)) : s.sets (p :: l) = (s.set p.1 p.2).sets l := rfl

@[simp] theorem sets_pending (l : List (Fld × Nat)) : (s.sets l).pending = s.pending := by rw [sets_eq]
@[simp] theorem sets_now (l : List (Fld × Nat)) : (s.sets l).now = s.now := by rw [sets_eq]
@[simp] theorem sets_free (l : List (Fld × Nat)) : (s.sets l).free = s.free := by rw [sets_eq]
@[simp] theorem sets_acc (l : List (Fld × Nat)) : (s.sets l).acc = s.acc := by rw [sets_eq]
@[simp] theorem sets_rails (l : List (Fld × Nat)) : (s.sets l).rails = s.rails := by rw [sets_eq]
@[simp] theorem sets_pins (l : List (Fld × Nat)) : (s.sets l).pins = s.pins := by rw [sets_eq]
@[simp] theorem sets_start (l : List (Fld × Nat)) : (s.sets l).start = s.start := by rw [sets_eq]
@[simp] theorem sets_clk (l : List (Fld × Nat)) : (s.sets l).clk = s.clk := by rw [sets_eq]
@[simp] theorem sets_pwr (l : List (Fld × Nat)) : (s.sets l).pwr = s.pwr := by rw [sets_eq]
@[simp] theorem sets_unitResets (l : List (Fld × Nat)) : (s.sets l).unitResets = s.unitResets := by rw [sets_eq]
@[simp] theorem sets_fuse (l : List (Fld × Nat)) : (s.sets l).fuse = s.fuse := by rw [sets_eq]
@[simp] theorem sets_flt (l : List (Fld × Nat)) : (s.sets l).flt = s.flt := by rw [sets_eq]
@[simp] theorem sets_recd (l : List (Fld × Nat)) : (s.sets l).recd = s.recd := by rw [sets_eq]
@[simp] theorem sets_sett (l : List (Fld × Nat)) : (s.sets l).sett = s.sett := by rw [sets_eq]
@[simp] theorem sets_links (l : List (Fld × Nat)) : (s.sets l).links = s.links := by rw [sets_eq]
@[simp] theorem sets_lanes (l : List (Fld × Nat)) : (s.sets l).lanes = s.lanes := by rw [sets_eq]
@[simp] theorem sets_sw (l : List (Fld × Nat)) : (s.sets l).sw = s.sw := by rw [sets_eq]
@[simp] theorem sets_txns (l : List (Fld × Nat)) : (s.sets l).txns = s.txns := by rw [sets_eq]
@[simp] theorem sets_nextTxn (l : List (Fld × Nat)) : (s.sets l).nextTxn = s.nextTxn := by rw [sets_eq]
@[simp] theorem sets_marl (l : List (Fld × Nat)) : (s.sets l).marl = s.marl := by rw [sets_eq]
@[simp] theorem sets_chan (l : List (Fld × Nat)) : (s.sets l).chan = s.chan := by rw [sets_eq]
@[simp] theorem sets_vcp (l : List (Fld × Nat)) : (s.sets l).vcp = s.vcp := by rw [sets_eq]
@[simp] theorem sets_qos (l : List (Fld × Nat)) : (s.sets l).qos = s.qos := by rw [sets_eq]
@[simp] theorem sets_rings (l : List (Fld × Nat)) : (s.sets l).rings = s.rings := by rw [sets_eq]
@[simp] theorem sets_fox (l : List (Fld × Nat)) : (s.sets l).fox = s.fox := by rw [sets_eq]
@[simp] theorem sets_prot (l : List (Fld × Nat)) : (s.sets l).prot = s.prot := by rw [sets_eq]
@[simp] theorem sets_thm (l : List (Fld × Nat)) : (s.sets l).thm = s.thm := by rw [sets_eq]

@[simp] theorem setReg_link_of (p m : Nat) (o v : Nat) : (s.setReg o v).link p m = s.link p m := rfl
@[simp] theorem setReg_lane_of (l : Nat) (o v : Nat) : (s.setReg o v).lane l = s.lane l := rfl
@[simp] theorem setReg_chn_of (c : Nat) (o v : Nat) : (s.setReg o v).chn c = s.chn c := rfl
@[simp] theorem setReg_ring_of (n : Nat) (o v : Nat) : (s.setReg o v).ring n = s.ring n := rfl
@[simp] theorem setReg_eng_of (e : Nat) (o v : Nat) : (s.setReg o v).eng e = s.eng e := rfl
@[simp] theorem setReg_col_of (c : Nat) (o v : Nat) : (s.setReg o v).col c = s.col c := rfl
@[simp] theorem set_link_of (p m : Nat) (f : Fld) (v : Nat) : (s.set f v).link p m = s.link p m := rfl
@[simp] theorem set_lane_of (l : Nat) (f : Fld) (v : Nat) : (s.set f v).lane l = s.lane l := rfl
@[simp] theorem set_chn_of (c : Nat) (f : Fld) (v : Nat) : (s.set f v).chn c = s.chn c := rfl
@[simp] theorem set_ring_of (n : Nat) (f : Fld) (v : Nat) : (s.set f v).ring n = s.ring n := rfl
@[simp] theorem set_eng_of (e : Nat) (f : Fld) (v : Nat) : (s.set f v).eng e = s.eng e := rfl
@[simp] theorem set_col_of (c : Nat) (f : Fld) (v : Nat) : (s.set f v).col c = s.col c := rfl

/-! ## Units of the per-unit maps -/

end Sys2Proof.Laws
end

