-- ==== Sys2Proof/Laws/Writes.lean ====
section
/-! SUPPORT. Laws of what follows a command (`settle`) and of a register write on a path (R487): when nothing else is due, a write
that the checks let through gives the state that the register's rule gives, with the path's status at OK. -/

namespace Sys2Proof.Laws

set_option Elab.async false

open Sys2Proof.Machine

variable {s t : State}

/-- On a calm state nothing follows. -/
theorem settle_calm (h : s.calm = true) : s.settle = s := by
  simp only [State.calm, Bool.and_eq_true, Bool.not_eq_true', Option.isNone_iff_eq_none] at h
  obtain ⟨⟨h1, h2⟩, h3⟩ := h
  simp [State.settle, State.sleepStep2, h1, h2, h3]

/-- Calm rests on the power state and the fault records alone. -/
theorem calm_of (h1 : t.pwr = s.pwr) (h2 : t.flt = s.flt) : t.calm = s.calm := by
  simp [State.calm, State.graveRec, h1, h2]

@[simp] theorem pathStatus_pwr (via : Path) (st : BitVec 8) : (s.pathStatus via st).pwr = s.pwr := by cases via <;> rfl
@[simp] theorem pathStatus_flt (via : Path) (st : BitVec 8) : (s.pathStatus via st).flt = s.flt := by cases via <;> rfl
@[simp] theorem pathStatus_regs (via : Path) (st : BitVec 8) : (s.pathStatus via st).regs = s.regs := by cases via <;> rfl
@[simp] theorem pathStatus_reg (via : Path) (st : BitVec 8) (o : Nat) : (s.pathStatus via st).reg o = s.reg o := by cases via <;> rfl
@[simp] theorem pathStatus_fld (via : Path) (st : BitVec 8) (f : Fld) : (s.pathStatus via st).fld f = s.fld f := by cases via <;> rfl
@[simp] theorem pathStatus_calm (via : Path) (st : BitVec 8) : (s.pathStatus via st).calm = s.calm := calm_of (by simp) (by simp)

/-- The path's status is the only change. -/
theorem pathStatus_eq (via : Path) (st : BitVec 8) : s.pathStatus via st = { s with acc := (s.pathStatus via st).acc } := by cases via <;> rfl

/-- The status of a path depends on the paths alone. -/
theorem pathStatus_acc (via : Path) (st : BitVec 8) (h : t.acc = s.acc) : (t.pathStatus via st).acc = (s.pathStatus via st).acc := by
  cases via <;> simp [State.pathStatus, h]

/-- A write that R487 lets through. -/
theorem pathWrite_taken {via : Path} {off v o : Nat} {b : Blk} {d : RegDesc} (hb : blkOf off = some (b, o)) (hd : descOf off = some d)
    (hv : v &&& fieldMask d = v) (hr : s.rsvdValue b off o v = false) (hw : writesNothing off d = false)
    (hl : (s.locked && (allRwl d || lockedOut off)) = false) (hu : s.unitGone b o = false) (hn : off ≠ FLT_ACK.off) (hn' : off ≠ FLT_INJ.off)
    (ht : s.takes via b = true) (ha : s.applyWrite via b off o v d = (some stOK, t)) (hc : t.calm = true) (hm : s.mapHeld off = false) :
    s.pathWrite via off v = t.pathStatus via stOK := by
  simp only [State.takes, Bool.and_eq_true] at ht
  obtain ⟨⟨⟨h1, h2⟩, h3⟩, h4⟩ := ht
  have hreg : s.regWrite via none off v = (some stOK, t) := by
    unfold State.regWrite
    rw [hb, hd]
    simp [hv, hr, hw, hl, hu, h3, ha, State.regWindow, State.noteResult, hn, hn']
  unfold State.pathWrite
  have h2' : (via != Path.mreg && s.pathLimited) = false := by
    cases via <;> simp_all
  simp [h1, hm, h2', hreg, settle_calm, hc]

end Sys2Proof.Laws
end

