-- ==== Sys2Proof/Tests/Slice0.lean ====
section
/-! SUPPORT. Tests of the model's own: the checks of `Instr.wf`, worked examples of the spec, and for every statement with hypotheses a theorem
`witness` (in the namespace of the statement's name) whose states and operands meet them, clause by clause. -/

open Sys2Proof Sys2Proof.Machine

namespace Sys2Proof.Tests

set_option maxRecDepth 100000
set_option Elab.async false

/-! ## States and packets to test with -/

/-- A stack in service: rails up, released, READY, its shipped fuses sensed, every other register at reset. -/
def up : State :=
  ({ State.reset with rails := { vaon := true, vcore := true, vstore := true, vdram := true, vpp := true, vser := true, vserh := true }, pins := { perstN := true },
                      start := { prog := 8 }, fuse := { State.reset.fuse with variantCode := 0x96 } } : State).sets [(GLB_START_STATUS_PHASE, 8)]
def powered (ph prog : Nat) (rgs : List (Nat × BitVec 32)) (s : State) : State :=
  { s with rails := { vaon := true, vcore := true, vstore := true, vdram := true, vpp := true, vser := true, vserh := true }, pins := { perstN := true },
           start := { prog := prog, pgSeen := true }, fuse := { s.fuse with variantCode := 0x96, applied := [(0, 0), (4, 0), (7, 0), (463, 0)] }, regs := (0x20, BitVec.ofNat 32 ph) :: rgs }
/-- OP_SECONDS and PWR_CYCLES as after a power-on. -/
def lit (s : State) : State := { s with recd := { opSec := 16, pwr := 1 } }
/-- The link status registers of dormant ports. -/
def portRegs : List (Nat × BitVec 32) := (List.range 16).flatMap fun p => [(0x10120 + 0x1000 * p, 0x7000), (0x10920 + 0x1000 * p, 0x7000)]
/-- Clock registers of a locked stack. -/
def clkRegs (src pll : BitVec 32) : List (Nat × BitVec 32) := [(0x1000, src), (0x1004, pll), (0x100C, 2), (0x3020, 0x10C00DB)]
/-- Column registers of a calibrated stack. -/
def colRegs : List (Nat × BitVec 32) := ((List.range 16).map fun g => (0xA0040 + 4 * g, 0xC0000000)) ++ (List.range 32).map fun g => (0xA0100 + 4 * g, 0x40004000)
/-- The clocks have locked. -/
def locked (s : State) : State := { s with clk := { p2Step := 7, frcTrim := 0x42, frcTries := 2, wins := [4, 0, 0, 0] } }
/-- Every sensor reads 30 °C. -/
def warm (s : State) : State := { s with thm := { s.thm with sensors := (List.range 84).map fun i => (i, { reading := 120, has := true, maxC := some 30 }), sampling := true } }
/-- Every column is calibrated at 30 °C. -/
def columns (s : State) : State := { s with vcp := { cols := (List.range 32).map fun g => (g, { calTemp := [120, 120, 120, 120] }) } }
/-- P2 has begun. -/
def p2 : State := lit { powered 2 0 [(0x3020, 0x10C00DB), (0xB0010, 0x2000000)] State.reset with clk := { p2Step := 1, frcRunning := true } }
/-- P3 has begun. -/
def p3 : State := lit (locked (powered 3 3 (clkRegs 136777 268439551 ++ portRegs ++ [(0xB0010, 0x2000000)]) State.reset))
/-- P4 has begun. -/
def p4 : State := warm { p3 with start := { prog := 4 }, regs := (0x20, 4) :: p3.regs.drop 1 }
/-- P5 has begun. -/
def p5 : State := columns (warm (lit (locked (powered 5 5 ((0x44, 0x60002000) :: clkRegs 136777 0x1FFFFFFF ++ portRegs ++ colRegs ++ [(0xB0010, 0x2000000), (0xC080C, 0x180000)]) State.reset))))
/-- A stack in service as a start leaves it. -/
def rdy : State :=
  let t := columns (warm (lit (locked (powered 8 8 ([(0x44, 0x60002000)] ++ clkRegs 136777 0x1FFFFFFF ++ [(0x5050, 2), (0x700C, 34816)] ++ portRegs ++ ((List.range 32).map fun c => (0x60004 + 0x1000 * c, 2))
    ++ [(0x80008, 0x400000)] ++ ((List.range 16).map fun k => (0x80100 + 4 * k, BitVec.ofNat 32 (50462976 + 0x4040404 * k))) ++ colRegs ++ [(0xB0010, 0x2000000), (0xC080C, 0x180000)]) State.reset))))
  { t with chan := { t.chan with chans := (List.range 32).map fun c => (c, { heartbeat := true }) }, qos := { d := 6963200, live := true } }
/-- GLB_LOCK set. -/
def lk (s : State) := s.sets [(GLB_LOCK_LOCK, 1)]
/-- The Marl holds these lines. -/
def ln (l : List (Nat × Line)) (s : State) : State := { s with marl := { s.marl with lines := l } }
/-- A dirty line. -/
def dirtyL (n : Nat) : Nat × Line := (n, { st := .dirty, data := List.replicate 64 7, way := 0 })
/-- A clean line. -/
def cleanL (n : Nat) : Nat × Line := (n, { st := .clean, data := List.replicate 64 8, way := 1 })
/-- One ring in a state. -/
def rg (st : Nat) (r : Ring) (n : Nat) (s : State) : State := ({ s with rings := [(n, r)] } : State).sets [(RING_STATUS_STATE n, st)]
/-- An open record of class D in domain 1. -/
def fr (s : State) : State := { s with flt := { s.flt with recs := [(1, { isOpen := true, seq := 9, st := .wait, cls := .d, timerOn := true, timerEnd := some 50 })] } }
/-- A channel’s controller holds this. -/
def ch (n : Nat) (c : Chan) (s : State) : State := { s with chan := { s.chan with chans := mput n c s.chan.chans } }
/-- Every pair open, two ports with roles. -/
def opn (s : State) : State := s.sets [(PORT_ROLE_ROLE 0,4),(PORT_ROLE_ROLE 31,4),(RT_BYP_STATUS_CLOSED, 0)]
/-- Link 0 of a port is in service. -/
def linkUp (p : Nat) (s : State) : State :=
  let t := (opn s).sets [(PORT_LINK_STATUS_STATE p 0, 4),(PORT_LINK_STATUS_WIDTH p 0, 4),(PORT_LINK_STATUS_ACTIVE_MASK p 0,0xFF),(PORT_NEIGH_ID_VALID p 0,1),(PORT_NEIGH_ID_DID p 0, 0x123), (PORT_NEIGH_ID_PORT p 0, 7)]
  t.setLink p 0 { t.link p 0 with rxMask := 0xFF, peerMask := 0xFF, peerInit := [100,100,100,100,100], ownInit := [100,100,100,100,100], sinceVc4 := 4}
/-- The same with its eight lanes locked. -/
def inL0 (p : Nat) (s : State) : State :=
  (List.range 8).foldl (fun t i => (t.sets [(LANE_STATUS_MARKER_LOCK (8*p+i),1),(LANE_STATUS_IN_USE (8*p+i),1),(LANE_STATUS_LOGICAL (8*p+i),i)]).setLane (8*p+i) { t.lane (8*p+i) with squelch := false }) (linkUp p s)
/-- The bytes of a training marker. -/
def tm (typ lg : Nat) (did port : Nat) : List (BitVec 8) :=
  let b : List (BitVec 8) := [0x4B, 0x1D, 0xB4, 0xE2, BitVec.ofNat 8 typ, BitVec.ofNat 8 lg, 0x24, BitVec.ofNat 8 port, BitVec.ofNat 8 did, BitVec.ofNat 8 (did/256)] ++ List.replicate 18 0
  b ++ leBytes 4 (crc32c b)
/-- A packet. -/
def pk (o : BitVec 8) (len : Nat) (dst src : BitVec 18) (addr : Nat) (payload : List (BitVec 8)) (sub : BitVec 8 := 0) : Packet :=
  { hdr := { opc := o, subop := sub, status := 0, label := 1, tag := 7, len := BitVec.ofNat 13 len, dst := dst, src := src, hops := 0, age := 0, flags := 0, addr := BitVec.ofNat 64 addr, rsv := 0}, payload := payload }
def wireOf (s : State) (p seq kind : Nat) (content : List (BitVec 8)) : List (BitVec 8) :=
  let pre := crcPrefix seq kind (s.fld (PORT_NEIGH_ID_DID p 0)) (s.fld (PORT_NEIGH_ID_LINK p 0)) (s.fld (PORT_NEIGH_ID_PORT p 0))
  let t := (List.range 8).foldl (fun t i => t.setLane (8*p+i) { t.lane (8*p+i) with scrTx := (s.lane (8*p+i)).scrRx }) s
  ((t.putFlit p 0 (flitBytes pre content true)).link p 0).lastWire
/-- Port 31 is a host port in service and no access window is enforced. -/
def host (s : State) : State :=
  let t := (linkUp 31 s).sets [(PORT_ROLE_ROLE 31, 1),(PORT_NEIGH_ID_KIND 31 0, 1),(PORT_NEIGH_ID_ECHO_OK 31 0, 1),(RT_ACW_CTL_ENFORCE,0)]
  t.setLink 31 0 { t.link 31 0 with partnerLcf := true }
/-- A clean line with data. -/
def X : Line := {st := .clean, data := leBytes 64 0x1122334455667788, way := 2}
/-- A stack that serves local requests and holds line 64. -/
def lc : State := ln [(64, X)] (host rdy)
/-- Engine 0 is on. -/
def fo (s : State) : State := s.sets [(FOX_CTL_ENABLE 0, 1)]
/-- A ring in a state with its sizes and endpoints. -/
def rgs (n st : Nat) (r : Ring) (s : State) : State := (rg st r n s).sets [(RING_CFG_SQ_SIZE n, 16), (RING_CFG_CQ_SIZE n, 12), (RING_EID n, 31), (RING_CQ_EID n, 31)]
/-- An MREG_WR of one register. -/
def mw (a v : Nat) := pk 0x31 4 0x3F 31 a (leBytes 4 v)
/-- An access of a stage. -/
def acc : Acc := { op := .rd, kind := 0, eid := 31, addr := 0x2000, len := 64 }
/-- An outstanding request. -/
def q (o : BitVec 8) (t : BitVec 16) (own : Owner) : OutReq := { tag := t, pkt := { pk o 0 31 0x3F 0x2000 [] with hdr := {(pk o 0 31 0x3F 0x2000 []).hdr with tag := t}}, owner := own }
/-- A run with one access outstanding. -/
def g0 : Run := { job := 5, lo := 0, hi := 1, pos := 0, opened := [(7, acc)], nextAcc := 8 }
/-- Engine 3 runs a stage, with these requests outstanding. -/
def eg (qs : List OutReq) (s : State) : State := { s with fox := { s.fox with outs := qs, engines := [(3, { st := .run, run := some g0 })], jobs := [{ id := 5, ring := some 1, label := 0, ops := [(1, 0)], payload := [] }] } }
/-- A response. -/
def rs (o : BitVec 8) (t : BitVec 16) (st : BitVec 8) (pl : List (BitVec 8)) : Packet := { hdr := { (pk o pl.length 0x3F 31 0 pl).hdr with tag := t, status := st }, payload := pl }
/-- The header of a descriptor. -/
def hd (ops : List (Nat × Nat)) (n : Nat) : List (BitVec 8) :=
  leBytes 2 77 ++ [0, 1, BitVec.ofNat 8 ops.length, 0] ++ leBytes 2 n ++ ((ops.map fun o => BitVec.ofNat 8 o.1) ++ List.replicate (8 - ops.length) 0) ++ ((ops.flatMap fun o => leBytes 2 o.2) ++ List.replicate (16 - 2 * ops.length) 0) ++ List.replicate 32 0
/-- A descriptor. -/
def dsc (job : Nat) (ops : List (Nat × Nat)) (pl : List (BitVec 8)) : Desc := { job := job, hdr := hd ops pl.length, payload := pl, sqHead := 3 }
/-- Ring 0 holds one operation that can start. -/
def r0 (op : Nat) (pl : List (BitVec 8)) (s : State) : State := rgs 0 1 { descs := [dsc 9 [(op, 0)] pl] } s
/-- That operation’s descriptor. -/
def d0 (op : Nat) (pl : List (BitVec 8)) : Desc := dsc 9 [(op, 0)] pl
/-- A location operand. -/
def loc (addr kind eid : Nat) : List (BitVec 8) := leBytes 8 addr ++ leBytes 3 eid ++ [BitVec.ofNat 8 kind] ++ List.replicate 4 0
/-- The head of a stage operand. -/
def head (spread flags dt : Nat) : List (BitVec 8) := [BitVec.ofNat 8 spread, BitVec.ofNat 8 flags, BitVec.ofNat 8 dt, 0, 0, 0, 0, 0]
/-- Zero bytes. -/
def z (n : Nat) : List (BitVec 8) := List.replicate n 0
/-- A job with one stage. -/
def jb (op : Nat) (o : List (BitVec 8)) : Job := { id := 5, ring := some 1, label := 1, ops := [(BitVec.ofNat 8 op, 0)], payload := o, engines := [3] }
/-- The run of a part. -/
def rn (hi pos round : Nat) : Run := { job := 5, lo := 0, hi := hi, pos := pos, round := round }
/-- Engine 3 runs a part of a job of ring 1. -/
def eng (j : Job) (r : Run) (s : State) : State :=
  let t := (rgs 1 1 { descs := [{ job := 5, hdr := hd [(j.op, 0)] j.payload.length, payload := j.payload, sqHead := 1, st := .running }] } s)
  { t with fox := { t.fox with engines := [(3, { st := .run, run := some r })], jobs := [j] } }.sets [(FOX_CTL_ENABLE 3, 1)]

/-! ## Well-formedness: an ill-formed term for each check -/

/-- A packet whose payload does not have the length of LEN. -/
def unframed : Packet := { pk 0x01 64 0x3F 31 0 [] with payload := [1] }

theorem test_wf_refuses_lengths :
    Instr.wf (.tmReceived 0 { raw := z 31 }) = false ∧ Instr.wf (.tmReceived 0 { raw := z 32, eq := { dfe := [] } }) = false ∧ Instr.wf (.amReceived 0 (z 8) true [0] [0]) = false
    ∧ Instr.wf (.amReceived 0 (z 9) true [] []) = false ∧ Instr.wf (.flitReceived 0 0 (z 71)) = false
    ∧ Instr.wf (.dramReadData 0 (z 73)) = false ∧ Instr.wf (.badgerPatrolRead 0 (z 73)) = false ∧ Instr.wf (.authResp (z 195)) = false
    ∧ Instr.wf (.sensorSample (List.replicate 85 none)) = false ∧ Instr.wf (.i3cBadLength (z 3)) = false ∧ Instr.wf (.i3cBadLength (z 7)) = false := by decide

theorem test_wf_refuses_numbers :
    Instr.wf (.portCredInitWrite .mreg 0 5 0) = false ∧ Instr.wf (.thermalTrip 84) = false ∧ Instr.wf (.thmRegWrite .mreg 3 0) = false ∧ Instr.wf (.logWrite 3) = false
    ∧ Instr.wf (.settFlush 3) = false ∧ Instr.wf (.repair (.block 0 0x3000000)) = false ∧ Instr.wf (.bypass 0x20) = false := by decide

theorem test_wf_refuses_opcodes :
    Instr.wf (.rd (pk 0x02 0 0x3F 31 0 [])) = false ∧ Instr.wf (.wr (pk 0x01 0 0x3F 31 0 [])) = false ∧ Instr.wf (.wrp (pk 0x02 0 0x3F 31 0 [])) = false
    ∧ Instr.wf (.atom (pk 0x03 0 0x3F 31 0 [])) = false ∧ Instr.wf (.svc (pk 0x20 0 0x3F 31 0 [])) = false ∧ Instr.wf (.dbell (pk 0x10 0 0x3F 31 0 [])) = false
    ∧ Instr.wf (.mregRd (pk 0x31 0 0x3F 31 0 [])) = false ∧ Instr.wf (.mregWr (pk 0x30 0 0x3F 31 0 [])) = false ∧ Instr.wf (.rdRsp (pk 0x82 0 0x3F 31 0 [])) = false
    ∧ Instr.wf (.wrAck (pk 0x81 0 0x3F 31 0 [])) = false ∧ Instr.wf (.atomRsp (pk 0x81 0 0x3F 31 0 [])) = false ∧ Instr.wf (.svcRsp (pk 0x81 0 0x3F 31 0 [])) = false
    ∧ Instr.wf (.mregRsp (pk 0x81 0 0x3F 31 0 [])) = false ∧ Instr.wf (.rd unframed) = false := by decide

theorem test_wf_takes : Instr.wf (.rd (pk 0x01 0 0x3F 31 0 [])) = true ∧ Instr.wf (.flitReceived 0 0 (z 72)) = true ∧ Instr.wf (.bypass 0x21) = true := by decide

/-- No word spells a command, so the queue stays as it is. -/
theorem test_no_word : decodeTableWord 32 0x12345678 = none ∧ (State.reset.withFetchWord 32 0x12345678).pending = [] := ⟨rfl, rfl⟩

/-! ## Worked examples of the spec -/

/-- Table 11.3: the four worked decodes. -/
theorem test_interleave : mapAddr 32 1 0x123456780 = (25, 0x91A2B80) ∧ mapAddr 32 0x11 0x123456780 = (4, 0x91A2B80) ∧ mapAddr 24 1 0x123456780 = (1, 0xC22E780)
    ∧ mapAddr 32 0x101 0x123456780 = (5, 0xA670F80) := by decide +kernel

/-- The first case of Table 11.3: pseudo-channel 0, bank group 1, bank 0, row 4,660. -/
theorem test_bank : pcOf (0x91A2B80 / 64) = 0 ∧ bgOf (0x91A2B80 / 64) = 1 ∧ bankOf (0x91A2B80 / 64) = 0 ∧ rowOf (0x91A2B80 / 64) = 4660 := by decide +kernel

/-- The example after R221: slice 8, set 2,305. -/
theorem test_slice : rdy.sliceOf 0x9000040 = 8 ∧ rdy.setOf 0x9000040 = 2305 := by decide +kernel

/-- The check value of R136's code over the digits 1 to 9 (file 16). -/
theorem test_crc32c : crc32c [0x31, 0x32, 0x33, 0x34, 0x35, 0x36, 0x37, 0x38, 0x39] = 0xE3069283 := by decide +kernel

/-- The examples of R152: the host on port 5 of stack 0x259, and stack 0xE03 itself. -/
theorem test_eid : eidOf 0x259 5 = 0x9645 ∧ eidOf 0xE03 0x3F = 0x380FF := by decide

/-- The compare-and-swap example of file 9, twice: the word becomes 9, then stays. -/
theorem test_cas : atomNew 9 32 7 9 7 = some 9 ∧ atomWrites 9 7 7 = true ∧ atomWrites 9 9 7 = false := by decide

/-- The example of file 17: address 0x2_4000_1000 lies on channel 4, row 0x2400, and its fold begins the information part. -/
theorem test_fold : mapAddr 32 1 0x240001000 = (4, 0x12000000) ∧ rowOf (0x12000000 / 64) = 0x2400 ∧ foldBytes (0x240001000 / 64) = [0x00, 0x09, 0x00, 0x00, 0x40] := by decide +kernel

/-- The example of file 22: port 5's PORT_FLITS_TX_LO lies at 0x01_2A40. -/
theorem test_offset : (PORT_FLITS_TX_LO 5).off = 0x12A40 := by decide

/-- The access window of file 9: 32 GiB for every endpoint of stack 0x259, nothing above. -/
theorem test_window :
    let s := up.sets [(RT_ACW_CTL_ENFORCE, 1), (RT_ACW_BASE_BASE 0, 0), (RT_ACW_LIMIT_LIMIT 0, 0x7FFFF), (RT_ACW_SRC_EID 0, 0x9640), (RT_ACW_PERM_MASK 0, 0x3FFC0), (RT_ACW_BASE_VALID 0, 1)]
    let s := s.setReg (RT_ACW_PERM 0).off (s.reg (RT_ACW_PERM 0).off + 0x7000000)
    s.windowOk 0x9645 2 0x7FFFFFFC0 64 = true ∧ s.windowOk 0x9645 2 0x800000000 64 = false ∧ s.windowOk 0x9685 2 0 64 = false := by decide +kernel

/-- A power-on reset waits in P0 with the idle queue; a step lets one microsecond pass. -/
theorem test_reset_step : step State.reset = .next { State.reset with now := 1 } := by rfl

/-- `StepRunsFront`: an empty queue. -/
theorem witness_StepRunsFront : State.reset.pending = [] := rfl

/-- `MapsStayCanonical`: a state in its one form whose step answers a next state. -/
theorem witness_MapsStayCanonical : rdy.wf = true ∧ ∃ t, step { rdy with pending := [.railGood .vfuse] } = .next t := ⟨by decide +kernel, _, rfl⟩

/-- `QueueAndClockKept`: a command and its next state. -/
theorem witness_QueueAndClockKept : ∃ t, exec (.railGood .vcore) State.reset = .next t ∧ t.rails.vcore = true := ⟨_, rfl, by decide +kernel⟩

/-- `PacketRoundTrip`: packets of the least and the greatest length. -/
theorem witness_PacketRoundTrip : ((pk 0x02 4096 0x3F 31 0 []).hdr.len.toNat ≤ 4096 ∧ (z 4096).length = (pk 0x02 4096 0x3F 31 0 []).hdr.len.toNat)
    ∧ ((pk 0x01 0 0x3F 31 0 []).hdr.len.toNat ≤ 4096 ∧ (pk 0x01 0 0x3F 31 0 []).payload.length = (pk 0x01 0 0x3F 31 0 []).hdr.len.toNat) := by decide +kernel

/-- `InterleaveOneToOne`: the last address of a K48 with parity and of a K96, the last channel and offset, and the last line of a stack in service. -/
theorem witness_InterleaveOneToOne : (14 * 3 * 2 ^ 30 - 1 < dataChans 16 0x111 * 3 * 2 ^ 30) ∧ (32 * 3 * 2 ^ 30 - 1 < dataChans 32 0 * 3 * 2 ^ 30)
    ∧ (23 < dataChans 24 0x10 ∧ 3 * 2 ^ 30 - 1 < 3 * 2 ^ 30) ∧ ((up.memTop / 64 - 1) * 64 < up.memTop)
    ∧ (((up.sets [(GLB_MEM_CFG_PARITY, 1)]).memTop / 64 - 1) * 64 < (up.sets [(GLB_MEM_CFG_PARITY, 1)]).memTop ∧ (up.sets [(GLB_MEM_CFG_PARITY, 1)]).parity = true) := by decide +kernel

/-- `DramCodeRoundTrip`: the last line number and a full block. -/
theorem witness_DramCodeRoundTrip : 2 ^ 40 - 1 < 2 ^ 40 ∧ (z 64).length = 64 := by decide


/-! ## Witnesses -/

/-- A test of every queued record, element by element. -/
theorem queued_all {l : List StageItem} {P : Nat → EvRec → Bool}
    (h : (l.zipIdx.all fun e => match e.1 with | .new b => P e.2 b | .upd _ => true) = true) (j : Nat) (b : EvRec) (hb : l[j]? = some (.new b)) : P j b = true := by
  have hm : (StageItem.new b, j) ∈ l.zipIdx := by
    rw [List.mem_zipIdx_iff_getElem?]; exact hb
  exact List.all_eq_true.mp h _ hm

namespace OtpCommands
def s1 : State := { rdy with rails := { rdy.rails with vfuse := true } }.sets [(OTP_DATA 0, 0x5E7A1F05)]
def s2 : State := up.sets [(OTP_STATUS_WINDOW,1), (OTP_DATA 0, 0xFFFFFFFF), (OTP_DATA 3, 0xFFFFFFFF)]
/-- States and operands that meet the hypotheses of `OtpCommands`, clause by clause. -/
theorem witness :
    ((s1.takes Path.mreg Blk.otp = true) ∧ (s1.fld OTP_STATUS_BUSY = 0) ∧ (s1.fld (OTP_DATA 0) = 1585061637) ∧ (s1.progWindowOk = true))
    ∧ ((s2.takes Path.jtag Blk.otp = true) ∧ (s2.fld OTP_STATUS_BUSY = 0) ∧ (s2.fld OTP_STATUS_WINDOW = 1))
    ∧ ((s2.takes Path.i3c Blk.otp = true) ∧ (s2.fld OTP_STATUS_BUSY = 0) ∧ ((∃ r m, Instr.programRow Path.i3c 511 = Instr.senseRow Path.i3c r m ∧ 4 = 3 ∧ 511 = r.toNat ∧ 0 = 0 ∧ 0 = 0 ∧ 0 = m.toNat) ∨ s2.fld OTP_STATUS_WINDOW = 1 ∧ ((∃ r, Instr.programRow Path.i3c 511 = Instr.programRow Path.i3c r ∧ 4 = 4 ∧ 511 = r.toNat ∧ 0 = 0 ∧ 0 = 0 ∧ 0 = 0) ∨ (∃ r b, Instr.programRow Path.i3c 511 = Instr.topupBit Path.i3c r b ∧ 4 = 5 ∧ 511 = r.toNat ∧ 0 = b.toNat ∧ 0 = 0 ∧ 0 = 0) ∨ (∃ r, Instr.programRow Path.i3c 511 = Instr.redirectRow Path.i3c r ∧ 4 = 6 ∧ 511 = r.toNat ∧ 0 = 0 ∧ 0 = 0 ∧ 0 = 0) ∨ (∃ g, Instr.programRow Path.i3c 511 = Instr.lockRegion Path.i3c g ∧ 4 = 7 ∧ 511 = 0 ∧ 0 = 0 ∧ 0 = g.toNat ∧ 0 = 0) ∨ ∃ g, Instr.programRow Path.i3c 511 = Instr.verifyRegion Path.i3c g ∧ 4 = 8 ∧ 511 = 0 ∧ 0 = 0 ∧ 0 = g.toNat ∧ 0 = 0))) :=
  by and_intros <;> decide +kernel
end OtpCommands

namespace ClockWrites
def r2 := rdy.sets [(CLK_SRC_STATUS_REFB_OK,1),(CLK_SRC_STATUS_REFB_MODE,2)]
/-- States and operands that meet the hypotheses of `ClockWrites`, clause by clause. -/
theorem witness :
    (((rdy.takes Path.i3c Blk.clk = true) ∧ (rdy.legal (4160 + 16 * gateSetIx GateSet.deep + 4 * 3) 0 = true)) ∧ ((∀ (i : Nat), bitAt 0 i = true → bitAt (rdy.gateDomains 3) i = true)) ∧ ((GateSet.deep = GateSet.run → ∀ (i : Nat), i < 32 → bitAt (rdy.reg (4160 + 4 * 3)) i = true → rdy.domainUsed 3 i = true → bitAt 0 i = true)))
    ∧ ((r2.takes Path.i3c Blk.clk = true) ∧ (r2.legal CLK_REF_CFG.off 13 = true) ∧ (bitsOf 13 1 0 = 1 → r2.on CLK_SRC_STATUS_REFA_OK = true) ∧ (bitsOf 13 1 0 = 2 → r2.on CLK_SRC_STATUS_REFB_OK = true) ∧ (bitAt 13 2 = true ∨ bitAt 13 3 = true) ∧ (r2.fld CLK_SRC_STATUS_ACTIVE_REF = 1 → bitAt 13 2 = false → r2.on CLK_SRC_STATUS_REFB_OK = true) ∧ (r2.fld CLK_SRC_STATUS_ACTIVE_REF = 2 → bitAt 13 3 = false → r2.on CLK_SRC_STATUS_REFA_OK = true)) :=
  ⟨⟨by decide +kernel, fun i h => absurd h (by simp [bitAt]), by decide +kernel⟩,
   by decide +kernel⟩
end ClockWrites

namespace PortWrites
def w_s1 : State := lk (rdy.sets [(LANE_PRBS_CTL_GEN_EN 255, 1)])
/-- States and operands that meet the hypotheses of `PortWrites`, clause by clause. -/
theorem witness :
    ((rdy.takes Path.mreg Blk.lane = true) ∧ (rdy.legal (LANE_PRBS_CTL 255).off 51 = true) ∧ (rdy.locked = false) ∧ (rdy.role (255 / 8) = 0 ∨ rdy.fld (PORT_LINK_CFG_LINK_EN (255 / 8)) = 0) ∧ (bitAt 51 9 = true → rdy.on (LANE_PRBS_CTL_GEN_EN 255) = true))
    ∧ ((w_s1.takes Path.mreg Blk.lane = true) ∧ (255 < 8 * w_s1.nPorts) ∧ (w_s1.reg (LANE_PRBS_CTL 255).off &&& 819 = w_s1.reg (LANE_PRBS_CTL 255).off) ∧ (w_s1.on (LANE_PRBS_CTL_GEN_EN 255) = true) ∧ (w_s1.locked = true ∨ w_s1.role (255 / 8) = 0 ∨ w_s1.fld (PORT_LINK_CFG_LINK_EN (255 / 8)) = 0))
    ∧ ((rdy.takes Path.mreg Blk.port = true) ∧ (rdy.legal (PORT_LINK_CFG 31).off 66818 = true) ∧ ((∀ (m : Nat), m < 8 → rdy.lst 31 m = 0) ∨ bitsOf (rdy.reg (PORT_LINK_CFG 31).off) 5 0 = bitsOf 66818 5 0))
    ∧ ((4 < 5) ∧ (rdy.takes Path.mreg Blk.port = true) ∧ (rdy.legal (PORT_CRED_INIT 31 4).off 256 = true) ∧ (rdy.portBusy 31 = false) ∧ ((rdy.setReg (PORT_CRED_INIT 31 4).off 256).poolOk = true))
    ∧ ((rdy.takes Path.mreg Blk.port = true) ∧ (rdy.legal (PORT_ROLE 31).off 4 = true) ∧ (rdy.portBusy 31 = false) ∧ (rdy.pairRouted (31 / 2) = false) ∧ (rdy.portClocked 31 = true) ∧ ((rdy.setReg (PORT_ROLE 31).off 4).poolOk = true))
    ∧ ((rdy.takes Path.mreg Blk.port = true) ∧ (rdy.legal (PORT_CFG 31).off 0 = true) ∧ (rdy.portBusy 31 = false)) :=
  by and_intros <;> decide +kernel
end PortWrites

namespace RouteWrites
def w_s1 : State := (rdy.sets [(PORT_ROLE_ROLE 0,2),(PORT_ROLE_ROLE 1,2)])
/-- States and operands that meet the hypotheses of `RouteWrites`, clause by clause. -/
theorem witness :
    ((rdy.takes Path.mreg Blk.glb = true) ∧ (rdy.legal GLB_DID.off 4095 = true))
    ∧ ((w_s1.takes Path.mreg Blk.rt = true) ∧ (w_s1.legal (49408 + 64 * dimIx Dim.pos + 4 * 15) 2147483649 = true) ∧ (∀ (k : Nat), k < 16 → bitAt 2147483649 31 = true → bitAt 2147483649 k = true → w_s1.pairFits (dimIx Dim.pos) k = true ∧ w_s1.portBusy (2 * k) = false ∧ w_s1.portBusy (2 * k + 1) = false) ∧ (w_s1.on (rtValid (dimIx Dim.pos) 15) = false))
    ∧ ((rdy.takes Path.mreg Blk.rt = true) ∧ (rdy.legal (RT_MEMBERS (dimIx Dim.pod)).off 32767 = true) ∧ (∀ (p : Nat), p < 32 → rdy.role p = 4 - dimIx Dim.pod → rdy.portBusy p = false))
    ∧ ((rdy.takes Path.mreg Blk.rt = true) ∧ (rdy.legal RT_BYP_OPEN.off 32769 = true))
    ∧ ((rdy.takes Path.i3c Blk.glb = true) ∧ (rdy.locked = false) ∧ (rdy.ready = true)) :=
  by and_intros <;> decide +kernel
end RouteWrites

namespace MemoryWrites
def dl : State := ln [dirtyL 5, cleanL 9] rdy
def q : State := rdy.sets [(MARL_CTL_QUIESCE,1),(MARL_STATUS_QUIESCED,1)]
def w_s1 : State := dl.sets [(MARL_CTL_QUIESCE,1)]
def w_s2 : State := { rdy with fuse := { rdy.fuse with variantCode := 0x48 } }
/-- States and operands that meet the hypotheses of `MemoryWrites`, clause by clause. -/
theorem witness :
    ((dl.takes Path.mreg Blk.marl = true) ∧ (dl.locked = false) ∧ (dl.on MARL_STATUS_FLUSH_BUSY = false) ∧ (dl.on MARL_CTL_QUIESCE = false))
    ∧ (((dl.takes Path.mreg Blk.marl = true) ∧ (dl.locked = false) ∧ (dl.on MARL_CTL_QUIESCE = false) ∧ (dl.on MARL_STATUS_FLUSH_BUSY = false)) ∧ ((∀ (n : Nat), 1 ≤ n → n < 64 → dl.unfinished n = false)))
    ∧ ((w_s1.takes Path.mreg Blk.marl = true) ∧ (w_s1.locked = false) ∧ (w_s1.on MARL_STATUS_PART_BUSY = false))
    ∧ ((q.takes Path.mreg Blk.marl = true) ∧ (q.legal MARL_PART.off 516 = true) ∧ (q.on MARL_STATUS_QUIESCED = true) ∧ (q.on MARL_STATUS_PART_BUSY = false) ∧ ((q.setReg MARL_PART.off 516).poolOk = true))
    ∧ (((ln [cleanL 9] q).takes Path.mreg Blk.glb = true) ∧ ((ln [cleanL 9] q).legal GLB_MEM_CFG.off 17 = true) ∧ ((ln [cleanL 9] q).locked = false) ∧ ((ln [cleanL 9] q).on MARL_STATUS_QUIESCED = true) ∧ ((ln [cleanL 9] q).on MARL_STATUS_PART_BUSY = false) ∧ ((ln [cleanL 9] q).rebuilding = false) ∧ (∀ (e : Nat × Line), e ∈ (ln [cleanL 9] q).marl.lines → e.snd.st ≠ LineSt.dirty))
    ∧ ((w_s2.takes Path.mreg Blk.chan = true) ∧ (w_s2.legal (CHAN_PASR 31).off 4 = true) ∧ (w_s2.nChans ≤ 31))
    ∧ ((rdy.takes Path.mreg Blk.chan = true) ∧ (rdy.legal (CHAN_PASR 31).off 4 = true) ∧ (31 < rdy.nChans) ∧ (rdy.pasrRefused 31 = false))
    ∧ ((p3.takes Path.jtag Blk.vcp = true) ∧ (p3.legal VCP_MECH.off 3 = true) ∧ (p3.phase = 3 ∨ p3.phase = 10))
    ∧ ((rdy.takes Path.mreg Blk.qos = true) ∧ (rdy.locked = false) ∧ (rdy.ready = true) ∧ (∀ (g : Nat), g < 64 → (groupClasses rdy.stagedMap g).eraseDups.length ≤ 1)) :=
  ⟨by decide +kernel,
   ⟨by decide +kernel, fun n _ h => (by decide +kernel : ∀ n < 64, dl.unfinished n = false) n h⟩,
   by decide +kernel,
   by decide +kernel,
   by decide +kernel,
   by decide +kernel,
   by decide +kernel,
   by decide +kernel⟩
end MemoryWrites

namespace RingWrites
def w_s1 : State := rg 2 {cplHeld := true} 0 rdy
def w_s2 : State := rg 1 {} 0 rdy
/-- States and operands that meet the hypotheses of `RingWrites`, clause by clause. -/
theorem witness :
    (((lk rdy).takes Path.i3c Blk.ring = true) ∧ ((lk rdy).locked = true → 0 = 0 ∧ Path.i3c ≠ Path.mreg) ∧ ((lk rdy).ringSt 0 = 0))
    ∧ ((w_s1.takes Path.mreg Blk.ring = true) ∧ (w_s1.locked = true → 0 = 0 ∧ Path.mreg ≠ Path.mreg) ∧ (w_s1.ringSt 0 = 2))
    ∧ ((w_s2.takes Path.mreg Blk.ring = true) ∧ (w_s2.locked = true → 0 = 0 ∧ Path.mreg ≠ Path.mreg) ∧ (w_s2.ringSt 0 = 1) ∧ ((w_s2.ring 0).descs = []) ∧ ((w_s2.ring 0).cpls = []) ∧ ((w_s2.ring 0).cplBusy = 0)) :=
  by and_intros <;> decide +kernel
end RingWrites

namespace FoxWrites
def p7 : State := {up with start := {up.start with boot := 2} }.sets [(GLB_START_STATUS_PHASE,7), (FOX_SB_ADDR, 0xFFFFC)]
def th : State := { rdy with fox := { rdy.fox with cvus := [(15, { held := true, test := true, poly := 1, reg := 7 })] } }
/-- States and operands that meet the hypotheses of `FoxWrites`, clause by clause. -/
theorem witness :
    ((p7.pathUp Path.i3c = true) ∧ (Path.i3c = Path.mreg ∨ p7.pathLimited = false) ∧ (p7.calm = true) ∧ (p7.sbOpen = true) ∧ (p7.locked = false))
    ∧ ((p7.pathUp Path.i3c = true) ∧ (Path.i3c = Path.mreg ∨ p7.pathLimited = false) ∧ (p7.calm = true) ∧ (p7.sbOpen = true) ∧ (p7.locked = false))
    ∧ ((rdy.takes Path.i3c Blk.fox = true) ∧ (rdy.legal (FOX_CTL 0).off 1 = true) ∧ (1 = 1 → 0 < rdy.nEngines ∧ (rdy.fld (FOX_CTL_ENABLE 0) = 1 ∨ rdy.engClocked 0 = true)))
    ∧ ((rdy.takes Path.i3c Blk.cvu = true) ∧ (rdy.locked = false) ∧ ((rdy.cvu 15).held = false) ∧ (ctxOk rdy.testCtx false = true))
    ∧ ((th.takes Path.i3c Blk.cvu = true) ∧ (th.locked = false) ∧ (th.testHeld = true))
    ∧ ((th.takes Path.i3c Blk.cvu = true) ∧ (th.locked = false) ∧ (th.testHeld = true))
    ∧ ((th.takes Path.i3c Blk.cvu = true) ∧ (th.locked = false) ∧ (th.testHeld = true) ∧ (255 < 256))
    ∧ ((rdy.takes Path.i3c Blk.cvu = true) ∧ (rdy.legal CVU_CKP_CTL.off 1 = true)) :=
  by and_intros <;> decide +kernel
end FoxWrites

namespace ServiceWrites
def w_s1 : State := rdy.sets [(FLT_CFG_INJ_EN,1)]
/-- States and operands that meet the hypotheses of `ServiceWrites`, clause by clause. -/
theorem witness :
    ((rdy.takes Path.mreg Blk.chan = true) ∧ (31 < rdy.nChans))
    ∧ ((7 < 8) ∧ (rdy.takes Path.mreg Blk.marl = true))
    ∧ ((rdy.takes Path.mreg Blk.bst = true) ∧ (rdy.legal BST_BADGER_CHAN_EN.off 0 = true) ∧ (rdy.patrolOk 0 = true))
    ∧ ((rdy.takes Path.mreg Blk.bst = true) ∧ (rdy.legal BST_BADGER_CFG.off 1573121 = true) ∧ (rdy.patrolOk (rdy.reg BST_BADGER_CHAN_EN.off) = true))
    ∧ (((fr rdy).takes Path.mreg Blk.flt = true) ∧ ((fr rdy).locked = true → Path.mreg ≠ Path.mreg) ∧ (domListed 1 = true) ∧ (((fr rdy).fltRec 1).isOpen = true) ∧ (((fr rdy).fltRec 1).seq = 9) ∧ (((fr rdy).fltRec 1).st = RecSt.wait))
    ∧ (((fr rdy).takes Path.i3c Blk.flt = true) ∧ ((fr rdy).locked = true → Path.i3c ≠ Path.mreg) ∧ (domListed 1 = true) ∧ (((fr rdy).fltRec 1).isOpen = true) ∧ (((fr rdy).fltRec 1).seq = 9))
    ∧ ((w_s1.takes Path.i3c Blk.flt = true) ∧ (w_s1.legal FLT_INJ.off 822018049 = true) ∧ (w_s1.locked = false) ∧ (bitsOf 822018049 5 0 < w_s1.injUnits (bitsOf 822018049 31 28)) ∧ (w_s1.on FLT_CFG_INJ_EN = true) ∧ (w_s1.flt.inject = none))
    ∧ ((rdy.pathUp Path.jtag = true) ∧ (rdy.calm = true) ∧ (rdy.legal REC_SETT_ADDR.off 0 = true))
    ∧ ((1 < 3) ∧ (rdy.takes Path.mreg Blk.thm = true) ∧ (rdy.legal (THM_LIMITS.off + 4 * 1) 1531 = true)) :=
  by and_intros <;> decide +kernel
end ServiceWrites

namespace RailCommands
def r0 : State := { State.reset with pins := {perstN := true, bootMode := 2}, rails := { vaon := true, vcore := true, vstore := false, vdram := true, vpp := true, vser := true, vserh := true } }
def w_s1 : State := {rdy with pins := {rdy.pins with perstN := false}}
def w_s2 : State := { State.reset with rails := { State.reset.rails with vaon := false } }
def w_s3 : State := { rdy.sets [(OTP_STATUS_WINDOW,1),(OTP_STATUS_BUSY,1)] with fuse := { rdy.fuse with run := some { op := 4, row := 300, bit := 0, region := 0, margin := 0, data := 1 } } }
/-- States and operands that meet the hypotheses of `RailCommands`, clause by clause. -/
theorem witness :
    ((w_s1.pins.perstN = false) ∧ (w_s1.fuse.run = none))
    ∧ ((rdy.rails.vaon = true))
    ∧ ((w_s2.rails.vaon = false))
    ∧ ((w_s1.pins.perstN = false) ∧ (w_s1.start.diagHold = false) ∧ (RailId.vdram ≠ RailId.vaon))
    ∧ (((r0.phase = 0) ∧ (r0.pins.perstN = true) ∧ (r0.rails.vaon = true) ∧ (r0.vaonHold = false) ∧ (RailId.vstore ≠ RailId.vaon) ∧ (RailId.vstore ≠ RailId.vfuse)) ∧ ((∀ (q : RailId), q ≠ RailId.vstore → q ≠ RailId.vfuse → railOf q r0.rails = true)))
    ∧ ((r0.phase = 0) ∧ (RailId.vcore ≠ RailId.vaon) ∧ (r0.start.lostAt ≠ some r0.now))
    ∧ ((up.rails.vaon = true) ∧ (up.fuse.run = none))
    ∧ ((p2.rails.vaon = true) ∧ (p2.rails.vcore = true) ∧ (p2.phase ≠ 0) ∧ (p2.vaonHold = false) ∧ (p2.fuse.run = none))
    ∧ ((rdy.rails.vaon = true) ∧ (rdy.rails.vstore = true) ∧ (rdy.phase ≠ 0)) :=
  ⟨by decide +kernel,
   by decide +kernel,
   by decide +kernel,
   by decide +kernel,
   ⟨by decide +kernel, fun q => by cases q <;> decide +kernel⟩,
   by decide +kernel,
   by decide +kernel,
   by decide +kernel,
   by decide +kernel⟩
end RailCommands

namespace PinCommands
def w_s1 : State := { rdy with rails := {rdy.rails with vaon := false} }
def w_s2 : State := { State.reset with pins := {bootMode := 3}, rails := { vaon := true, vcore := true, vstore := true, vdram := true, vpp := true, vser := true, vserh := true } }
/-- States and operands that meet the hypotheses of `PinCommands`, clause by clause. -/
theorem witness :
    ((w_s1.rails.vaon = false ∨ w_s1.pins.perstN = false ∨ w_s1.vaonHold = true))
    ∧ ((p5.rails.vaon = true) ∧ (p5.pins.perstN = true) ∧ (p5.vaonHold = false) ∧ (p5.fuse.run = none))
    ∧ ((rdy.phase ≠ 0 ∨ rdy.powerGood = false ∨ rdy.vaonHold = true))
    ∧ ((w_s2.phase = 0) ∧ (w_s2.powerGood = true) ∧ (w_s2.vaonHold = false)) :=
  by and_intros <;> decide +kernel
end PinCommands

namespace StartupCommands
def p7 : State := {up with start := {up.start with boot := 2} }.sets [(GLB_START_STATUS_PHASE,7), (FOX_SB_ADDR, 0xFFFFC)]
def w_a1 : PhaseRes := {}
def w_s1 : State := p2.sets [(GLB_START_STATUS_PHASE,1)]
def w_s2 : State := {p2 with clk := {p2.clk with p2Step := 7}, start := {p2.start with boot := 3} }
def w_s3 : State := {rdy.sets [(GLB_START_STATUS_PHASE,9)] with start := {rdy.start with coldNext := 3}}
def w_s4 : State := rdy.sets [(GLB_START_STATUS_PHASE,0xA)]
/-- States and operands that meet the hypotheses of `StartupCommands`, clause by clause. -/
theorem witness :
    ((w_s1.dead = false) ∧ (w_s1.phase = 1))
    ∧ ((p2.dead = false) ∧ (p2.phase = 2) ∧ (p2.clk.p2Step < 7))
    ∧ ((w_s2.dead = false) ∧ (w_s2.phase = 2) ∧ (7 ≤ w_s2.clk.p2Step) ∧ (w_s2.start.boot = 3))
    ∧ ((p5.dead = false) ∧ (p5.phase = 5))
    ∧ ((p7.dead = false) ∧ (p7.phase = 7) ∧ (p7.start.boot = 2) ∧ (p7.fld FOX_SB_CTL_GO = 0))
    ∧ ((w_s3.dead = false) ∧ (w_s3.phase = 9) ∧ (w_s3.start.dramLost = false) ∧ (∀ (n : Nat), n < w_s3.nSensors → w_s3.works n = true → 4 * signedByte (w_s3.fld THM_LOW_LOW_STOP) + 12 ≤ (w_s3.sensor n).reading))
    ∧ ((w_s4.takes Path.mreg Blk.glb = true) ∧ (w_s4.dead = false) ∧ (w_s4.locked = false) ∧ (w_s4.phase = 10) ∧ (w_s4.start.dramLost = false)) :=
  by and_intros <;> decide +kernel
end StartupCommands

namespace ReferenceCommands
def w3b : State := { p2 with clk := { p2.clk with p2Step := 3, frcRunning := false, wins := [0, 0, 3, 0] } }.sets [(CLK_REF_CFG_REFA_EN, 0), (CLK_REF_CFG_REFB_EN, 1)]
def w_s1 : State := {rdy with clk := {rdy.clk with frcRunning := true, frcTries := 12, frcTrim := 0}}
def w_s2 : State := {p2 with clk := {p2.clk with frcRunning := true, frcTries := 8, frcTrim := 0}}
def w_s3 : State := { rdy with clk := {rdy.clk with holdover := some 1}}
def w_s4 : State := { rdy.sets [(CLK_SRC_STATUS_ACTIVE_REF,0)] with clk := {rdy.clk with wakeWait := true}}
/-- States and operands that meet the hypotheses of `ReferenceCommands`, clause by clause. -/
theorem witness :
    ((p2.clk.frcRunning = true) ∧ (p2.rails.vaon = true) ∧ (367188 ≤ 367188) ∧ (367188 ≤ 414063))
    ∧ ((p2.clk.frcRunning = true) ∧ (p2.rails.vaon = true) ∧ (∀ (n : Nat), none = some n → n < 367188 ∨ 414063 < n) ∧ (p2.clk.frcTries < 8))
    ∧ ((w_s1.clk.frcRunning = true) ∧ (w_s1.rails.vaon = true) ∧ (∀ (n : Nat), none = some n → n < 367188 ∨ 414063 < n) ∧ (8 ≤ w_s1.clk.frcTries) ∧ (w_s1.phase ≠ 2))
    ∧ ((w_s2.clk.frcRunning = true) ∧ (w_s2.rails.vaon = true) ∧ (∀ (n : Nat), some 9999999 = some n → n < 367188 ∨ 414063 < n) ∧ (8 ≤ w_s2.clk.frcTries) ∧ (w_s2.phase = 2))
    ∧ ((p3.fld CLK_PLL_STATUS_MGT_LOCK = 1) ∧ (p3.fld CLK_SRC_STATUS_FRC_OK = 1) ∧ (3 ≤ p3.phase) ∧ (p3.calm = true))
    ∧ ((w3b.rails.vaon = true) ∧ (3 ≤ w3b.clk.p2Step) ∧ (w3b.start.slowHold = false) ∧ (w3b.on (refEn true) = true) ∧ (w3b.on (refEn !true) = false) ∧ (w3b.fld (refOk true) = 0) ∧ (w3b.fld (refOk !true) = 0) ∧ (w3b.fld (refMode true) = 0) ∧ (w3b.clk.wins.length = 4) ∧ (w3b.clk.wins.getD (if true = true then 2 else 0) 0 = 3) ∧ (w3b.drivenMode (if true = true then 10000 else 0) = 2) ∧ (2 ≠ 0) ∧ (w3b.fld CLK_SRC_STATUS_ACTIVE_REF = 0) ∧ (w3b.sleep ≠ 3 ∨ w3b.clk.wakeWait = true))
    ∧ ((rdy.rails.vaon = true) ∧ (rdy.fld (refOk false) = 1) ∧ (rdy.calm = true))
    ∧ ((w_s3.clk.holdover.isSome = true))
    ∧ ((w_s4.clk.wakeWait = true) ∧ (w_s4.fld CLK_SRC_STATUS_ACTIVE_REF = 0) ∧ (w_s4.phase = 8) ∧ (w_s4.calm = true)) :=
  by and_intros <;> decide +kernel
end ReferenceCommands

namespace PllCommands
def w4 : State := { p3 with clk := { p3.clk with p2Step := 3 } }
def w5 : State := { p3 with clk := { p3.clk with p2Step := 5 } }
def w_a1 : PllId × Fld := (.sto, CLK_PLL_STATUS_STO_LOCK)
def w_a2 : PllId × Fld := (.fab, CLK_PLL_STATUS_FAB_LOCK)
def w_a3 : PllId × Fld := (.chn, CLK_PLL_STATUS_CHN_LOCK)
def w_s1 : State := {rdy with clk := {rdy.clk with foxRelock := true}}
def w_s2 : State := {rdy with clk := {rdy.clk with switchTo := some 2}}
/-- States and operands that meet the hypotheses of `PllCommands`, clause by clause. -/
theorem witness :
    ((w4.rails.vaon = true) ∧ (w4.start.slowHold = false) ∧ (w4.fld CLK_SRC_STATUS_ACTIVE_REF ≠ 0))
    ∧ ((w4.rails.vaon = true) ∧ (w4.start.slowHold = false) ∧ (w4.fld CLK_SRC_STATUS_ACTIVE_REF ≠ 0) ∧ (w_a1 ∈ [(PllId.fab, CLK_PLL_STATUS_FAB_LOCK), (PllId.chn, CLK_PLL_STATUS_CHN_LOCK), (PllId.sto, CLK_PLL_STATUS_STO_LOCK)]) ∧ (w4.clk.p2Step < 5))
    ∧ ((w5.rails.vaon = true) ∧ (w5.start.slowHold = false) ∧ (w5.fld CLK_SRC_STATUS_ACTIVE_REF ≠ 0) ∧ (w_a2 ∈ [(PllId.fab, CLK_PLL_STATUS_FAB_LOCK), (PllId.chn, CLK_PLL_STATUS_CHN_LOCK), (PllId.sto, CLK_PLL_STATUS_STO_LOCK)]) ∧ (5 ≤ w5.clk.p2Step))
    ∧ ((w5.rails.vaon = true) ∧ (w5.start.slowHold = false) ∧ (w5.fld CLK_SRC_STATUS_ACTIVE_REF ≠ 0) ∧ (w5.clk.foxRelock = false) ∧ (5 ≤ w5.clk.p2Step))
    ∧ ((w5.rails.vaon = true) ∧ (w5.start.slowHold = false) ∧ (w5.fld CLK_SRC_STATUS_ACTIVE_REF ≠ 0) ∧ (7 < w5.nPorts / 4) ∧ (5 ≤ w5.clk.p2Step))
    ∧ ((p4.rails.vaon = true) ∧ (p4.start.slowHold = false) ∧ (p4.fld CLK_SRC_STATUS_ACTIVE_REF ≠ 0) ∧ (2 ≤ 2) ∧ (2 ≤ p4.topLayer) ∧ (4 ≤ p4.phase))
    ∧ ((w_a3 ∈ [(PllId.mgt, CLK_PLL_STATUS_MGT_LOCK), (PllId.fab, CLK_PLL_STATUS_FAB_LOCK), (PllId.chn, CLK_PLL_STATUS_CHN_LOCK), (PllId.sto, CLK_PLL_STATUS_STO_LOCK)]) ∧ (p3.fld w_a3.snd = 1))
    ∧ ((p3.fld CLK_PLL_STATUS_FOX_LOCK = 1) ∧ (p3.calm = true) ∧ (p3.sleep ≤ 1))
    ∧ ((bitAt (rdy.fld CLK_PLL_STATUS_LPLL_LOCK) 0 = true) ∧ (rdy.calm = true) ∧ (rdy.sleep ≤ 1))
    ∧ ((w_s1.clk.foxRelock = true) ∧ (w_s1.dead = false))
    ∧ ((p3.fld CLK_PLL_STATUS_MGT_LOCK = 1) ∧ (5 ≤ p3.clk.p2Step) ∧ (p3.start.grave = false) ∧ (p3.start.slowHold = false) ∧ (46875 ≤ 50781) ∧ (50781 ≤ 50781))
    ∧ ((p3.fld CLK_PLL_STATUS_MGT_LOCK = 1) ∧ (5 ≤ p3.clk.p2Step) ∧ (p3.start.grave = false) ∧ (p3.start.slowHold = false) ∧ (50782 < 46875 ∨ 50781 < 50782))
    ∧ ((w_s2.clk.switchTo = some 2) ∧ (2 < 4)) :=
  by and_intros <;> decide +kernel
end PllCommands

namespace CouplingCommands
def rc (s : State) (k : Column) : State := { s with vcp := { s.vcp with cols := [(5, k)] } }
def cr (r : BitVec 8) : CoilRes := { dir := true, hop := 3, pos := 100, resid := r }
def w_a1 : Tap := { up := true }
def w_a2 : Tap := { up := false }
def w_s1 : State := rc rdy { recal := true }
def w_a3 : Tap := { up := true, resids := [cr 255] }
def w_s2 : State := rdy.sets [(VCP_CAL_CFG_FREEZE,1)]
def w_s3 : State := rc rdy { recalDue := true }
/-- States and operands that meet the hypotheses of `CouplingCommands`, clause by clause. -/
theorem witness :
    ((rdy.live = true) ∧ (rdy.calm = true) ∧ (rdy.colOn 5 = true) ∧ ((rdy.col 5).testDrop = false) ∧ ((rdy.col 5).failed = []) ∧ ((rdy.col 5).residSeen = []) ∧ (w_a1.resids = []) ∧ (w_a1.cmd = none) ∧ ((rdy.col 5).recal = false) ∧ (rdy.fld VCP_CAL_CFG_FREEZE = 0))
    ∧ ((w_s1.live = true) ∧ (w_s1.calm = true) ∧ (w_s1.colOn 5 = true) ∧ ((w_s1.col 5).testDrop = false) ∧ ((w_s1.col 5).failed = []) ∧ ((w_s1.col 5).residSeen = []) ∧ (w_a2.resids = []) ∧ (w_a2.cmd = none) ∧ ((w_s1.col 5).recal = true))
    ∧ ((w_s2.live = true) ∧ (w_s2.calm = true) ∧ (w_s2.colOn 31 = true) ∧ ((w_s2.col 31).testDrop = false) ∧ ((w_s2.col 31).failed = []) ∧ ((w_s2.col 31).residSeen = []) ∧ ((w_s2.col 31).recal = false) ∧ (w_s2.fld VCP_CAL_CFG_FREEZE = 1) ∧ (w_a3.cmd = none) ∧ (w_a3.resids = [cr 255]))
    ∧ ((rdy.live = true) ∧ (rdy.calm = true) ∧ (rdy.colOn 5 = true) ∧ ((rdy.col 5).testDrop = false) ∧ ((rdy.col 5).failed = []) ∧ ((rdy.col 5).residSeen = []) ∧ ((rdy.col 5).recal = false) ∧ (rdy.fld VCP_CAL_CFG_FREEZE = 0))
    ∧ ((w_s3.awake = true) ∧ (w_s3.colOn 5 = true) ∧ ((w_s3.col 5).recalDue = true) ∧ ((w_s3.col 5).recal = false) ∧ (w_s3.recalsRunning < 4))
    ∧ (((w_s1.col 5).recal = true)) :=
  by and_intros <;> decide +kernel
end CouplingCommands

namespace HeartbeatCommands
def w_s1 : State := ch 0 { rdy.chn 0 with srHeld := true } rdy
def w_s2 : State := { rdy with vcp := { rdy.vcp with silent := [(2, 0)] } }
/-- States and operands that meet the hypotheses of `HeartbeatCommands`, clause by clause. -/
theorem witness :
    ((p3.marl.image = []) ∧ (p3.rails.vstore = true) ∧ (p3.sleep ≠ 3) ∧ (3 ≤ p3.phase) ∧ (p3.phase ≠ 11))
    ∧ ((0 < p3.nChans) ∧ (p3.rails.vdram = true) ∧ (p3.rails.vpp = true) ∧ ((p3.chn 0).srHeld = false))
    ∧ ((0 < w_s1.nChans) ∧ (w_s1.live = true) ∧ ((w_s1.chn 0).srHeld = true) ∧ ((w_s1.chn 0).heartbeat = true))
    ∧ ((p5.live = true) ∧ (5 ≤ p5.phase) ∧ (p5.sleep ≤ 1) ∧ (p5.calm = true) ∧ (2 ≤ 2) ∧ (2 ≤ p5.topLayer) ∧ (mget p5.vcp.silent 2 = none) ∧ (∃ c, c ∈ layerChans 2 ∧ p5.chanOut c = false))
    ∧ ((mget w_s2.vcp.silent 2 = some 0) ∧ (0 + 1 < 3))
    ∧ ((mget w_s2.vcp.silent 2 = some 0) ∧ (2 ≤ 2) ∧ (2 ≤ 17) ∧ (w_s2.calm = true))
    ∧ ((p4.phase = 4) ∧ (p4.sleep ≤ 1) ∧ (p4.calm = true) ∧ (2 ≤ 17) ∧ (17 ≤ p4.topLayer) ∧ (p4.fld (VCP_LAYER_STATUS_DISCOVERED (17 - 2)) = 0)) :=
  by and_intros <;> decide +kernel
end HeartbeatCommands

namespace ControllerCommands
def c0 := rdy.chn 31
def rq (b : Nat) : RdReq := { block := b, use := .miss 5, cls := 2, grp := 0, at_ := 0 }
def cq : State := ch 31 { c0 with reads := [rq 0x12345] } rdy
def ck (s : State) (c pc : Nat) : Chan := s.closeRows c { s.chn c with seq := (s.chn c).seq + 1, refBusy := (s.chn c).refBusy.filter (fun e => e.1 != pc), draining := s.drainState c (s.chn c), window := mput pc (1, 0) (s.chn c).window } pc
def chosen (s : State) (c pc : Nat) : ColReq := (s.chooseReq c (ck s c pc) pc).getD ⟨0, false, 0, 0, 0⟩
def ci : State := let s := ch 31 { c0 with reads := [{rq 0x12345 with issued := true}] } rdy; { s with chan := { s.chan with zeroed := [(31, 0x3000000)] } }
def ru : (List (BitVec 8) × Bool) × State := match ci.readBlock 31 0x12345 [] with | (.data d p, u) => ((d, p),u) | _ => (([], false),ci)
def w_s1 : State := (ch 0 {c0 with nrefDue := [(3,7),(17,8),(18,9)], openRows := [(3,9)], reads := [rq 5]} rdy)
def w_a1 : RdReq := {rq 0x12345 with issued := true}
def w_s2 : State := (ch 31 { c0 with waits := [{ block := 5, use := .miss 5, cls := 2, grp := 0, at_ := 0}] } rdy)
def w_a2 : WaitReq := { block := 5, use := .miss 5, cls := 2, grp := 0, at_ := 0}
def w_s3 : State := rdy.sets [(CHAN_STATUS_STATE 0, 3)]
def w_s4 : State := rdy.sets [(CHAN_REF_CFG_PD_IDLE 0, 5)]
def w_s5 : State := (rdy.sets [(CHAN_STATUS_REF_RATE 0, 2), (CHAN_STATUS_REF_RATE 1, 2), (CHAN_STATUS_REF_RATE 2, 2)])
/-- States and operands that meet the hypotheses of `ControllerCommands`, clause by clause. -/
theorem witness :
    ((0 < w_s1.nChans) ∧ (w_s1.calm = true) ∧ (w_s1.awake = true) ∧ (w_s1.chanRuns 0 = true) ∧ (List.find? (fun e => e.fst / 16 == 0) (w_s1.chn 0).nrefDue = some (3, 7)))
    ∧ ((31 < cq.nChans) ∧ (cq.calm = true) ∧ (cq.awake = true) ∧ (cq.chanRuns 31 = true) ∧ (List.find? (fun e => e.fst / 16 == 0) (cq.chn 31).nrefDue = none) ∧ (mget (cq.chn 31).window 0 = none) ∧ (0 < cq.throttle 31) ∧ (cq.fld (CHAN_STATUS_STATE 31) = 2) ∧ (cq.closeRows 31 ({ cq.chn 31 with refBusy := List.filter (fun e => e.fst != 0) (cq.chn 31).refBusy, window := mput 0 (1, 0) (cq.chn 31).window, draining := cq.drainState 31 (cq.chn 31), seq := (cq.chn 31).seq + 1 }) 0 = ck cq 31 0) ∧ (cq.chooseReq 31 (ck cq 31 0) 0 = some (chosen cq 31 0)) ∧ (mget (ck cq 31 0).openRows (bankIx (chosen cq 31 0).block) = none))
    ∧ ((31 < ci.nChans) ∧ (ci.calm = true) ∧ (ci.awake = true) ∧ (ci.chanRuns 31 = true) ∧ (List.find? (fun e => e.snd.issued) (enum (ci.chn 31).reads) = some (0, w_a1)) ∧ (ci.readBlock 31 w_a1.block [] = (ReadRes.data ru.fst.fst ru.fst.snd, ru.snd)) ∧ (ru.snd.calm = true))
    ∧ ((31 < w_s2.nChans) ∧ (w_s2.calm = true) ∧ ((w_s2.chn 31).waits = [w_a2]) ∧ (w_s2.entryFor (w_s2.chn 31) w_a2.block w_a2.cls w_a2.grp = some false))
    ∧ ((0 < w_s3.nChans) ∧ (w_s3.calm = true) ∧ (w_s3.awake = true) ∧ (w_s3.chanUp 0 = true))
    ∧ ((0 < w_s4.nChans) ∧ (w_s4.calm = true) ∧ (w_s4.awake = true) ∧ (w_s4.fld (CHAN_STATUS_STATE 0) = 2) ∧ ((w_s4.chn 0).reads = []) ∧ ((w_s4.chn 0).writes = []) ∧ ((w_s4.chn 0).waits = []) ∧ (w_s4.sleep = 1 ∨ w_s4.fld (CHAN_REF_CFG_PD_IDLE 0) ≠ 0))
    ∧ ((0 < w_s5.nChans) ∧ (w_s5.calm = true) ∧ (2 ≤ 2) ∧ (2 ≤ w_s5.topLayer) ∧ (w_s5.live = true)) :=
  by and_intros <;> decide +kernel
end ControllerCommands

namespace ChannelCommands
def c0 := rdy.chn 31
def par : State := rdy.sets [(GLB_MEM_CFG_PARITY,1),(GLB_MEM_STATUS_GROUP_STATE,0x55)]
def rb : State := par.sets [(CHAN_STATUS_FENCED 5, 1), (CHAN_STATUS_STATE 5, 4), (GLB_MEM_STATUS_GROUP_STATE, 0x56)]
def rbs (b : Nat) : State := rb.sets [(CHAN_REBUILD_STATE 5, 1), (CHAN_REBUILD_PTR_PTR 5, b)]
def w_s1 : State := ch 31 {c0 with pasrNew := some 4} (rdy.sets [(CHAN_STATUS_STATE 31,5)])
def w_s2 : State := ln [(((rbs 0x2FFFFFE).lineAt 5 0x2FFFFFE).getD 0, X)] (rbs 0x2FFFFFE)
def w_n1 : Nat := ((rbs 0x2FFFFFE).lineAt 5 0x2FFFFFE).getD 0
def w_a1 : LineRead := ((lineNow X).getD ⟨[], false⟩)
/-- States and operands that meet the hypotheses of `ChannelCommands`, clause by clause. -/
theorem witness :
    ((31 < w_s1.nChans) ∧ (w_s1.live = true) ∧ (w_s1.parity = false) ∧ ((w_s1.chn 31).pasrNew = some 4) ∧ (4 < 8) ∧ (w_s1.chanIdle 31 = true) ∧ (w_s1.linesOf 31 = []))
    ∧ ((0 < p4.nChans) ∧ (p4.live = true) ∧ (p4.fld (CHAN_STATUS_FENCED 0) = 0))
    ∧ ((5 < rb.nChans) ∧ (rb.live = true) ∧ (rb.fld (CHAN_STATUS_FENCED 5) = 1) ∧ (rb.groupSt (5 / 8) = 2) ∧ (rb.fld (CHAN_REBUILD_STATE 5) = 0) ∧ (rb.fld (CHAN_STATUS_LOST 5) = 0) ∧ (mgetD rb.sett.rebuild 5 0 = 0) ∧ (0 < 16))
    ∧ ((5 < (rbs 50330622).nChans) ∧ ((rbs 50330622).awake = true) ∧ ((rbs 50330622).fld (CHAN_REBUILD_STATE 5) = 1) ∧ ((rbs 50330622).fld (CHAN_REBUILD_PTR_PTR 5) = 50330622) ∧ (50330622 + 1 < 50331648) ∧ (∀ (x : Nat), x < 32 → x / 8 = 5 / 8 → x ≠ 5 → (rbs 50330622).chanRuns x = true ∧ (rbs 50330622).leftOver x 50330622 = true) ∧ (5 = holderOf (5 / 8) 50330622))
    ∧ (((5 < w_s2.nChans) ∧ (w_s2.awake = true) ∧ (w_s2.fld (CHAN_REBUILD_STATE 5) = 1) ∧ (w_s2.fld (CHAN_REBUILD_PTR_PTR 5) = 50331646) ∧ (50331646 + 1 < 50331648) ∧ (∀ (x : Nat), x < 32 → x / 8 = 5 / 8 → x ≠ 5 → w_s2.chanRuns x = true ∧ w_s2.leftOver x 50331646 = true) ∧ (5 ≠ holderOf (5 / 8) 50331646) ∧ (w_s2.calm = true)) ∧ ((w_s2.storeCalm)) ∧ ((w_s2.lineAt 5 50331646 = some w_n1) ∧ (w_s2.line w_n1 = some X) ∧ (lineNow X = some w_a1) ∧ ((w_s2.chn (holderOf (5 / 8) 50331646)).writes.length < 64) ∧ (∀ (w : WrReq), w ∈ (w_s2.chn (holderOf (5 / 8) 50331646)).writes → w.rebuilds = none))) :=
  ⟨by decide +kernel,
   by decide +kernel,
   by decide +kernel,
   by decide +kernel,
   ⟨by decide +kernel, by unfold State.storeCalm; decide +kernel, by decide +kernel⟩⟩
end ChannelCommands

namespace UnitResets
def u (k i : Nat) : UnitReset := { kind := k, index := i, asker := .reg .i3c }
def w_s1 : State := { rdy with unitResets := [u 2 0] }
/-- States and operands that meet the hypotheses of `UnitResets`, clause by clause. -/
theorem witness :
    ((Instr.foxBlockReset Path.i3c 0 = Instr.portBlockReset Path.i3c 0 ∧ 3 = 1 ∨ Instr.foxBlockReset Path.i3c 0 = Instr.chanBlockReset Path.i3c 0 ∧ 3 = 2 ∧ rdy.fld (CHAN_STATUS_FENCED 0) = 0 ∨ Instr.foxBlockReset Path.i3c 0 = Instr.foxBlockReset Path.i3c 0 ∧ 3 = 3) ∧ (rdy.takes Path.i3c Blk.rst = true) ∧ (rdy.locked = false) ∧ (rdy.unitOff 3 0 = false) ∧ (rdy.inReset 3 0 = false))
    ∧ ((w_s1.dead = false) ∧ (List.find? w_s1.resetReady w_s1.unitResets = some (u 2 0)) ∧ (1 ≤ (u 2 0).kind) ∧ ((u 2 0).kind ≤ 3)) :=
  by and_intros <;> decide +kernel
end UnitResets

namespace SleepAndWake
def z2 : State := rdy.sets [(GLB_PWR_STATUS_STATE, 2), (RT_BYP_STATUS_CLOSED, 0)]
def z3 : State := rdy.sets [(GLB_PWR_STATUS_STATE, 3), (RT_BYP_STATUS_CLOSED, 0)]
def z3w : State := { z3 with pwr := { z3.pwr with waking := true } }
def w_s1 : State := rdy.sets [(GLB_PWR_CTL_IDLE_US,1)]
def w_s2 : State := {z3w with clk := {z3w.clk with p2Step := 7}}
/-- States and operands that meet the hypotheses of `SleepAndWake`, clause by clause. -/
theorem witness :
    ((rdy.takes Path.mreg Blk.glb = true) ∧ (rdy.locked = false) ∧ (rdy.ready = true) ∧ (rdy.dead = false) ∧ (rdy.sleep < 2) ∧ (rdy.sleepRefused = false))
    ∧ ((w_s1.ready = true) ∧ (w_s1.dead = false) ∧ (w_s1.sleep = 0) ∧ (w_s1.pwr.entry = none) ∧ (w_s1.pwr.s1Req = true ∨ w_s1.fld GLB_PWR_CTL_IDLE_US ≠ 0) ∧ (w_s1.quiet = true))
    ∧ ((rdy.takes Path.mreg Blk.glb = true) ∧ (rdy.dead = false) ∧ (rdy.sleep ≤ 1))
    ∧ ((z2.takes Path.i3c Blk.glb = true) ∧ (z2.dead = false) ∧ (z2.sleep = 2) ∧ (z2.pwr.waking = false))
    ∧ ((z2.dead = false) ∧ (z2.pwr.entry = none) ∧ (z2.pwr.waking = false) ∧ (Instr.wakeSignal 31 = Instr.wakeTimerExpiry ∧ 1 = 3 ∧ z2.pwr.wakeTimer ≠ 0 ∨ ∃ p, Instr.wakeSignal 31 = Instr.wakeSignal p ∧ 1 = 1 ∧ p.toNat < z2.nPorts ∧ z2.pairClosed (p.toNat / 2) = false) ∧ (z2.sleep = 2))
    ∧ ((z3.dead = false) ∧ (z3.pwr.entry = none) ∧ (z3.pwr.waking = false) ∧ (Instr.wakeSignal 0 = Instr.wakeTimerExpiry ∧ 1 = 3 ∧ z3.pwr.wakeTimer ≠ 0 ∨ ∃ p, Instr.wakeSignal 0 = Instr.wakeSignal p ∧ 1 = 1 ∧ p.toNat < z3.nPorts ∧ z3.pairClosed (p.toNat / 2) = false) ∧ (z3.sleep = 3))
    ∧ ((w_s2.pwr.waking = true) ∧ (w_s2.pwr.entry = none) ∧ (7 ≤ w_s2.clk.p2Step) ∧ (w_s2.dead = false)) :=
  by and_intros <;> decide +kernel
end SleepAndWake

namespace EntryToSleep
def w_a1 : SleepEntry := {target := 2, asker := .reg .i3c, answered := true}
def w_s1 : State := { rdy with pwr := { rdy.pwr with entry := some {target := 2, asker := .reg .i3c, answered := true} } }
/-- States and operands that meet the hypotheses of `EntryToSleep`, clause by clause. -/
theorem witness :
    ((rdy.takes Path.i3c Blk.glb = true) ∧ (rdy.locked = false) ∧ (rdy.ready = true) ∧ (rdy.dead = false) ∧ (rdy.sleep < 2) ∧ (rdy.sleepRefused = false))
    ∧ ((w_s1.pwr.entry = some w_a1) ∧ (w_a1.answered = true) ∧ (w_a1.wakeHeld = none) ∧ (w_a1.target = 2 ∨ w_a1.target = 3) ∧ (w_s1.pwr.wakeDue = false) ∧ (w_s1.graveRec = false) ∧ (w_s1.dead = false) ∧ (w_s1.outsLeft = false) ∧ ((w_s1.ring 0).cpls = [] ∨ (w_s1.ring 0).cplKept = true) ∧ (w_s1.sw.ingress = []) ∧ (w_s1.sw.egress = []) ∧ (w_a1.target = 3 → ∀ (x : Nat × Line), x ∈ w_s1.marl.lines → x.snd.st = LineSt.dirty → w_s1.lineStuck x.fst = false)) :=
  by and_intros <;> decide +kernel
end EntryToSleep

namespace OtpEndings
def F : BitVec 128 := BitVec.allOnes 128
def orr : OtpRun := { op := 5, row := 511, bit := 127, region := 0, margin := 0, data := 0xF0F}
def ot (r : OtpRun) : State := { rdy.sets [(OTP_STATUS_WINDOW,1),(OTP_STATUS_BUSY,1)] with fuse := { rdy.fuse with run := some r } }
def w_a1 : OtpRun := {orr with early := some 3}
def w_s1 : State := ot {orr with early := some 3}
def w_a2 : OtpRun := {orr with op := 3, margin := 2}
def w_s2 : State := (ot {orr with op := 3, margin := 2})
/-- States and operands that meet the hypotheses of `OtpEndings`, clause by clause. -/
theorem witness :
    ((w_s1.fuse.run = some w_a1) ∧ (w_a1.early = some 3) ∧ (w_a1.op < 16) ∧ (3 < 256))
    ∧ ((w_s2.fuse.run = some w_a2) ∧ (w_a2.early = none) ∧ (w_a2.op = 3) ∧ (w_a2.margin < 3))
    ∧ (((ot orr).fuse.run = some orr) ∧ (orr.early = none) ∧ (orr.op = 4 ∨ orr.op = 5)) :=
  by and_intros <;> decide +kernel
end OtpEndings

namespace LinkTraining
def lt (p l st : Nat) (s : State) : State := (opn s).sets [(PORT_LINK_STATUS_STATE p l, st), (PORT_LINK_CFG_LINK_EN p,1)]
def tmBad : List (BitVec 8) := List.replicate 32 0
def l3 (s : State) (l : Nat) := s.setLane l { s.lane l with goodRun := 3 }
def w_a1 : EqSet := {}
def w_a2 : List (BitVec 8) := flipBytes true (tm 1 5 0x123 9)
def w_s1 : State := (inL0 31 rdy).sets [(PORT_LINK_STATUS_STATE 31 0, 3)]
/-- States and operands that meet the hypotheses of `LinkTraining`, clause by clause. -/
theorem witness :
    (((lt 31 0 0 rdy).live = true) ∧ (0 < (lt 31 0 0 rdy).nLinks 31) ∧ ((lt 31 0 0 rdy).trainOk 31 = true) ∧ ((lt 31 0 0 rdy).lst 31 0 = 0))
    ∧ ((1 ≤ (lt 31 0 3 rdy).lst 31 0) ∧ ((lt 31 0 3 rdy).lst 31 0 ≤ 3))
    ∧ (((lt 31 0 6 rdy).lst 31 0 = 6) ∧ ((lt 31 0 6 rdy).sleep < 2) ∧ ((lt 31 0 6 rdy).trainOk 31 = true))
    ∧ (((lt 31 0 2 rdy).live = true) ∧ ((lt 31 0 2 rdy).sleep < 2) ∧ (248 / 8 < (lt 31 0 2 rdy).nPorts) ∧ (31 = 248 / 8) ∧ (0 = 248 % 8 / (lt 31 0 2 rdy).linkW 31) ∧ (1 ≤ (lt 31 0 2 rdy).lst 31 0) ∧ ((lt 31 0 2 rdy).lst 31 0 ≤ 3) ∧ ((lt 31 0 2 rdy).readTm 248 tmBad = none) ∧ ((lt 31 0 2 rdy).fld (LANE_STATUS_MARKER_LOCK 248) = 0))
    ∧ (((lt 31 0 1 rdy).live = true) ∧ ((lt 31 0 1 rdy).sleep < 2) ∧ (248 / 8 < (lt 31 0 1 rdy).nPorts) ∧ (31 = 248 / 8) ∧ (0 = 248 % 8 / (lt 31 0 1 rdy).linkW 31) ∧ (1 ≤ (lt 31 0 1 rdy).lst 31 0) ∧ ((lt 31 0 1 rdy).lst 31 0 ≤ 3) ∧ ((lt 31 0 1 rdy).readTm 248 w_a2 = some (tm 1 5 291 9, true)) ∧ ((lt 31 0 1 rdy).fld (LANE_STATUS_MARKER_LOCK 248) = 0) ∧ (((lt 31 0 1 rdy).lane 248).goodRun < 3))
    ∧ (((l3 (lt 31 0 1 rdy) 248).live = true) ∧ ((l3 (lt 31 0 1 rdy) 248).sleep < 2) ∧ (248 / 8 < (l3 (lt 31 0 1 rdy) 248).nPorts) ∧ (31 = 248 / 8) ∧ (0 = 248 % 8 / (l3 (lt 31 0 1 rdy) 248).linkW 31) ∧ (1 ≤ (l3 (lt 31 0 1 rdy) 248).lst 31 0) ∧ ((l3 (lt 31 0 1 rdy) 248).lst 31 0 ≤ 3) ∧ ((l3 (lt 31 0 1 rdy) 248).readTm 248 (tm 1 5 291 9) = some (tm 1 5 291 9, false)) ∧ (3 ≤ ((l3 (lt 31 0 1 rdy) 248).lane 248).goodRun))
    ∧ ((w_s1.live = true) ∧ (w_s1.sleep < 2) ∧ (250 / 8 < w_s1.nPorts) ∧ (31 = 250 / 8) ∧ (0 = 250 % 8 / w_s1.linkW 31) ∧ (w_s1.fld (LANE_STATUS_MARKER_LOCK 250) = 1) ∧ (w_s1.lst 31 0 = 4 → w_s1.fld (LANE_STATUS_IN_USE 250) = 1)) :=
  by and_intros <;> decide +kernel
end LinkTraining

namespace LinkService
def re : State := (linkUp 31 rdy).sets [(PORT_LINK_STATUS_STATE 31 0, 7)]
def o1 : OutPkt := { inPort := none, port := 31, vc := 0, pkt := pk 1 64 31 0x3F 0x1000 [], cells := 1, at_ := 0 }
def ls : State := {host rdy with sw := { egress := [o1]}}
def lane1 (s : State) : State := (s.sets [(LANE_STATUS_MARKER_LOCK 250,1),(LANE_STATUS_IN_USE 250,1),(LANE_STATUS_LOGICAL 250,2)]).setLane 250 { s.lane 250 with squelch := false }
def am (s : State) := s.setLane 250 { s.lane 250 with amMiss := 1 }
def rg7 (s : State) : State := s.setLink 31 0 { s.link 31 0 with goSeen := true }
def rl7 : State := (List.range 8).foldl (fun t i => t.setLane (248 + i) { t.lane (248 + i) with stable := 8 }) (rg7 ((inL0 31 rdy).sets [(PORT_LINK_STATUS_STATE 31 0, 7)]))
def six : Nat × Nat × Bool := match rl7.stepSix 31 0 with | .inr x => x | _ => (0, 0, false)
def pb : PrbsChk := { reg := 0, run := 0, lock := false, wrong := 0 }
def w_s1 : State := re.setLink 31 0 {re.link 31 0 with rxMask := 0}
def w_s2 : State := re.setLink 31 0 {re.link 31 0 with cfgBad := true}
def w_s3 : State := (linkUp 31 rdy).sets [(PORT_LINK_CFG_L1_IDLE 31,1)]
def w_s4 : State := ls.sets [(PORT_LINK_STATUS_STATE 31 0,5)]
def w_s5 : State := (linkUp 31 rdy).sets [(LANE_PRBS_CTL_CHK_EN 250, 1)]
def w_a1 : PrbsChk := (laneBits [0x55, 1]).foldl (PrbsChk.bit (rdy.fld (LANE_PRBS_CTL_PATTERN 250))) pb
/-- States and operands that meet the hypotheses of `LinkService`, clause by clause. -/
theorem witness :
    (((linkUp 31 rdy).lst 31 0 = 4))
    ∧ ((w_s1.lst 31 0 = 7) ∧ (w_s1.stable 31 0 = true) ∧ ((w_s1.link 31 0).goSeen = true ∨ w_s1.lockedLanes 31 0 = []) ∧ (w_s1.stepSix 31 0 = Sum.inl 5))
    ∧ ((w_s2.lst 31 0 = 7) ∧ (w_s2.stable 31 0 = true) ∧ ((w_s2.link 31 0).goSeen = true ∨ w_s2.lockedLanes 31 0 = []) ∧ (3 ≠ 5) ∧ (w_s2.stepSix 31 0 = Sum.inl 3))
    ∧ ((rl7.lst 31 0 = 7) ∧ (rl7.stable 31 0 = true) ∧ ((rl7.link 31 0).goSeen = true ∨ rl7.lockedLanes 31 0 = []) ∧ (rl7.stepSix 31 0 = Sum.inr (six.fst, six.snd.fst, six.snd.snd)) ∧ (rl7.calm = true))
    ∧ ((re.lst 31 0 = 7))
    ∧ ((inService (re.lst 31 0) = true))
    ∧ ((w_s3.lst 31 0 = 4) ∧ (0 < w_s3.fld (PORT_LINK_CFG_L1_IDLE 31) ∨ w_s3.sleep = 1) ∧ (w_s3.hasFlit 31 0 = false) ∧ ((w_s3.link 31 0).kept = []))
    ∧ ((w_s4.lst 31 0 = 5) ∧ (w_s4.hasFlit 31 0 = true))
    ∧ ((31 = 250 / 8) ∧ (0 = 250 % 8 / (lane1 (linkUp 31 rdy)).linkW 31) ∧ ((lane1 (linkUp 31 rdy)).lst 31 0 = 4 ∨ (lane1 (linkUp 31 rdy)).lst 31 0 = 5) ∧ (((lane1 (linkUp 31 rdy)).link 31 0).rxIdle = false) ∧ ((lane1 (linkUp 31 rdy)).fld (LANE_STATUS_IN_USE 250) = 1) ∧ ((lane1 (linkUp 31 rdy)).laneIn 250 (amBytes 2 9) = amBytes 2 9) ∧ (amOk (amBytes 2 9) ((lane1 (linkUp 31 rdy)).fld (LANE_STATUS_LOGICAL 250)) = true) ∧ (∀ (q : BitVec 8), ((lane1 (linkUp 31 rdy)).lane 250).amSeqRx = some q → (amBytes 2 9).getD 5 0 = q + 1))
    ∧ ((31 = 250 / 8) ∧ (0 = 250 % 8 / (am (lane1 (linkUp 31 rdy))).linkW 31) ∧ ((am (lane1 (linkUp 31 rdy))).lst 31 0 = 4 ∨ (am (lane1 (linkUp 31 rdy))).lst 31 0 = 5) ∧ (((am (lane1 (linkUp 31 rdy))).link 31 0).rxIdle = false) ∧ ((am (lane1 (linkUp 31 rdy))).fld (LANE_STATUS_IN_USE 250) = 1) ∧ (amOk ((am (lane1 (linkUp 31 rdy))).laneIn 250 (amBytes 3 9)) ((am (lane1 (linkUp 31 rdy))).fld (LANE_STATUS_LOGICAL 250)) = false) ∧ (1 ≤ ((am (lane1 (linkUp 31 rdy))).lane 250).amMiss) ∧ ((am (lane1 (linkUp 31 rdy))).lst 31 0 = 4))
    ∧ ((31 = 250 / 8) ∧ (0 = 250 % 8 / (lane1 (linkUp 31 rdy)).linkW 31) ∧ ((lane1 (linkUp 31 rdy)).live = true) ∧ (250 / 8 < (lane1 (linkUp 31 rdy)).nPorts) ∧ ((lane1 (linkUp 31 rdy)).lst 31 0 = 4) ∧ ((lane1 (linkUp 31 rdy)).fld (LANE_STATUS_IN_USE 250) = 1))
    ∧ ((31 = 250 / 8) ∧ (0 = 250 % 8 / w_s5.linkW 31) ∧ (250 / 8 < w_s5.nPorts) ∧ (w_s5.live = true) ∧ (w_s5.fld (LANE_PRBS_CTL_CHK_EN 250) = 1) ∧ (List.foldl (PrbsChk.bit (w_s5.fld (LANE_PRBS_CTL_PATTERN 250))) { reg := (w_s5.lane 250).chk.toNat, run := (w_s5.lane 250).chkRun, lock := w_s5.on (LANE_PRBS_CTL_CHK_LOCK 250), wrong := 0 } (laneBits [85, 1]) = w_a1)) :=
  by and_intros <;> decide +kernel
end LinkService

namespace LinkReception
def ll := inL0 31 rdy
def lu := linkUp 31 rdy
def w1 := wireOf ll 31 0 0 ((pk 1 64 0x0048F 0xBF 0x1000 []).contents.getD 0 [])
def w2 := wireOf ll 31 1 0 ((pk 1 64 0x0048F 0xBF 0x1000 []).contents.getD 0 [])
def ll2 := lu.setLink 31 0 { lu.link 31 0 with retryWait := true }
def w_a1 : List (BitVec 8) := (ll.readFlit 31 0 w1).2
def w_s1 : State := (ll.readFlit 31 0 w1).1
def w_a2 : List (BitVec 8) := (ll.readFlit 31 0 w2).2
def w_s2 : State := (ll.readFlit 31 0 w2).1
/-- States and operands that meet the hypotheses of `LinkReception`, clause by clause. -/
theorem witness :
    ((ll.flt.inject = none) ∧ (ll.lst 31 0 = 4 ∨ ll.lst 31 0 = 5) ∧ ((ll.link 31 0).rxIdle = false) ∧ (ll.readFlit 31 0 w1 = (w_s1, w_a1)) ∧ (w_s1.crcMatch 31 0 0 (ll.link 31 0).rxExp.toNat w_a1 = true))
    ∧ ((ll.flt.inject = none) ∧ (ll.lst 31 0 = 4 ∨ ll.lst 31 0 = 5) ∧ ((ll.link 31 0).rxIdle = false) ∧ (ll.readFlit 31 0 w2 = (w_s2, w_a2)) ∧ (w_s2.crcMatch 31 0 0 (ll.link 31 0).rxExp.toNat w_a2 = false) ∧ (w_s2.crcMatch 31 0 12 0 w_a2 = false))
    ∧ ((ll2.lst 31 0 = 4 ∨ ll2.lst 31 0 = 5) ∧ ((ll2.link 31 0).retryWait = true))
    ∧ ((lu.lst 31 0 = 4 ∨ lu.lst 31 0 = 5) ∧ ((lu.link 31 0).rxIdle = false)) :=
  by and_intros <;> decide +kernel
end LinkReception

namespace LinkTransmission
def lu := linkUp 31 rdy
def kf : KeptFlit := { seq := 5, content := List.replicate 64 3 }
def lk1 := lu.setLink 31 0 { lu.link 31 0 with kept := [kf], replay := [kf] }
def o1 : OutPkt := { inPort := none, port := 31, vc := 0, pkt := pk 1 64 31 0x3F 0x1000 [], cells := 1, at_ := 0 }
def ls : State := {host rdy with sw := { egress := [o1]}}
def w_s1 : State := lu.setLink 31 0 { lu.link 31 0 with ackOwed := 1 }
def w_s2 : State := lu.setLink 31 0 { lu.link 31 0 with resume := true }
def w_s3 : State := lu.setLink 31 0 { lu.link 31 0 with sending := [List.replicate 64 3] }
def w_s4 : State := {ls with sw := { egress := [{o1 with bad := true}]}}
def w_a1 : OutPkt := {o1 with bad := true}
/-- States and operands that meet the hypotheses of `LinkTransmission`, clause by clause. -/
theorem witness :
    ((lk1.lst 31 0 = 4) ∧ ((lk1.link 31 0).kept ≠ []) ∧ ((lk1.link 31 0).resume = false))
    ∧ ((w_s1.lst 31 0 = 4) ∧ ((w_s1.link 31 0).unreported = true))
    ∧ ((w_s2.lst 31 0 = 4) ∧ (w_s2.dead = false) ∧ (w_s2.fabOn = true) ∧ (w_s2.flt.inject = none) ∧ ((w_s2.link 31 0).resume = true ∨ (w_s2.link 31 0).lcfAhead = true))
    ∧ ((lk1.lst 31 0 = 4) ∧ (lk1.dead = false) ∧ (lk1.fabOn = true) ∧ (lk1.flt.inject = none) ∧ ((lk1.link 31 0).resume = false) ∧ ((lk1.link 31 0).lcfAhead = false) ∧ ((lk1.link 31 0).replay = [kf]))
    ∧ ((w_s3.lst 31 0 = 4) ∧ (w_s3.dead = false) ∧ (w_s3.fabOn = true) ∧ (w_s3.flt.inject = none) ∧ ((w_s3.link 31 0).resume = false) ∧ ((w_s3.link 31 0).lcfAhead = false) ∧ ((w_s3.link 31 0).replay = []) ∧ ((w_s3.link 31 0).kept.length < w_s3.retryCap 31) ∧ ((w_s3.link 31 0).sending = [List.replicate 64 3]))
    ∧ ((ls.lst 31 0 = 4) ∧ (ls.dead = false) ∧ (ls.fabOn = true) ∧ (ls.flt.inject = none) ∧ ((ls.link 31 0).resume = false) ∧ ((ls.link 31 0).lcfAhead = false) ∧ ((ls.link 31 0).replay = []) ∧ ((ls.link 31 0).kept.length < ls.retryCap 31) ∧ ((ls.link 31 0).sending = []) ∧ (ls.chooseOut 31 0 = some (0, o1)) ∧ (o1.bad = false))
    ∧ ((w_s4.lst 31 0 = 4) ∧ (w_s4.dead = false) ∧ (w_s4.fabOn = true) ∧ (w_s4.flt.inject = none) ∧ ((w_s4.link 31 0).resume = false) ∧ ((w_s4.link 31 0).lcfAhead = false) ∧ ((w_s4.link 31 0).replay = []) ∧ ((w_s4.link 31 0).kept.length < w_s4.retryCap 31) ∧ ((w_s4.link 31 0).sending = []) ∧ (w_s4.chooseOut 31 0 = some (0, w_a1)) ∧ (w_a1.bad = true))
    ∧ ((lu.lst 31 0 = 4) ∧ (lu.dead = false) ∧ (lu.fabOn = true) ∧ (lu.flt.inject = none) ∧ ((lu.link 31 0).resume = false) ∧ ((lu.link 31 0).lcfAhead = false) ∧ ((lu.link 31 0).replay = []) ∧ (lu.retryCap 31 ≤ (lu.link 31 0).kept.length ∨ (lu.link 31 0).sending = [] ∧ lu.chooseOut 31 0 = none)) :=
  by and_intros <;> decide +kernel
end LinkTransmission

namespace SwitchCommands
def o1 : OutPkt := { inPort := none, port := 31, vc := 0, pkt := pk 1 64 31 0x3F 0x1000 [], cells := 1, at_ := 0 }
def o2 : OutPkt := { o1 with waiting := some 0, inPort := some 5 }
def ls : State := {host rdy with sw := { egress := [o1]}}
def ps (o : OutPkt) : OutPkt := { o with pkt := { o.pkt with hdr := { o.pkt.hdr with opc := 2, flags := 2 } } }
def dn : State := rdy.sets [(PORT_ROLE_ROLE 31, 1)]
def ip : InPkt := { port := 5, link := 0, vc := 0, pkt := o1.pkt, cells := 1, at_ := 3 }
def sn : Snapshot := { regs := [], did := 0, strap := 0, variantCode := 0x96}
def w_s1 : State := {ls with sw := { egress := [o2, o1]}}
def w_s2 : State := {dn with sw := { egress := [ps o2, o1]}}
def w_s3 : State := {dn with sw := { egress := [o2]}}
def w_s4 : State := {ls with sw := { egress := [o1], ingress := [ip]}}
def w_s5 : State := { rdy with recd := { rdy.recd with snapBusy := some sn}}
/-- States and operands that meet the hypotheses of `SwitchCommands`, clause by clause. -/
theorem witness :
    ((w_s1.sw.egress[0]? = some o2) ∧ (o2.waiting ≠ none) ∧ (({ w_s1 with sw := { w_s1.sw with egress := ldrop w_s1.sw.egress 0 } } : State).route o2.pkt o2.inPort = Route.send 31 o1.pkt false))
    ∧ ((w_s2.sw.egress[0]? = some (ps o2)) ∧ ((ps o2).waiting ≠ none) ∧ (({ w_s2 with sw := { w_s2.sw with egress := ldrop w_s2.sw.egress 0 } } : State).route (ps o2).pkt (ps o2).inPort = Route.wait 31) ∧ ((ps o2).pkt.hdr.expects = false))
    ∧ ((w_s3.sw.egress[0]? = some o2) ∧ (o2.waiting ≠ none) ∧ (({ w_s3 with sw := { w_s3.sw with egress := ldrop w_s3.sw.egress 0 } } : State).route o2.pkt o2.inPort = Route.wait 31) ∧ (o2.pkt.hdr.expects = true))
    ∧ ((w_s4.live = true) ∧ (w_s4.fabOn = true) ∧ (ip.bad = false) ∧ (w_s4.sw.ingress = [ip]) ∧ (ip.port = 5) ∧ (ip.vc = 0) ∧ (w_s4.route ip.pkt ip.arrival = Route.send 31 o1.pkt false) ∧ (w_s4.egrRoom 31 o1.pkt.hdr.vc ip.cells = true))
    ∧ ((w_s5.recd.snapBusy = some sn)) :=
  by and_intros <;> decide +kernel
end SwitchCommands

namespace PairCommands
def ho (s : State) : State := s.sets [(PORT_ROLE_ROLE 31, 1)]
/-- States and operands that meet the hypotheses of `PairCommands`, clause by clause. -/
theorem witness :
    ((rdy.mustClose 0 = true))
    ∧ ((∀ (k : Nat), k < 16 → ({ (ho rdy) with pins := { (ho rdy).pins with  } } : State).mustClose k = true → (ho rdy).pairClosed k = true) ∧ ((ho rdy).live = true) ∧ ((ho rdy).rails.vser = true) ∧ ((ho rdy).rails.vserh = true) ∧ ((ho rdy).pairClosed 15 = true) ∧ ((ho rdy).portWants (2 * 15) = true ∨ (ho rdy).portWants (2 * 15 + 1) = true) ∧ (({ (ho rdy) with pins := { (ho rdy).pins with  } } : State).mustClose 15 = false)) :=
  by and_intros <;> decide +kernel
end PairCommands

namespace LocalRequests
def rd1 := pk 1 0 0x3F 31 0x1000 []
def wr1 := pk 2 64 0x3F 31 0x1000 (List.replicate 64 9)
def wp1 := pk 3 96 0x3F 31 0x1000 (leBytes 32 0xF0F0 ++ List.replicate 64 9)
def at2 := pk 4 16 0x3F 31 0x1008 (leBytes 8 5 ++ leBytes 8 0x1122334455667788) 0x19
def db1 := pk 0x20 0 0x3F 0x1F 7 [] 63
def inPkt (p : Packet) : InPkt := { port := 31, link := 0, vc := 0, pkt := p, cells := 1, at_ := 0 }
def inq : State := { lc with sw := { lc.sw with ingress := [{ inPkt db1 with port := 5 }, inPkt rd1] } }
/-- States and operands that meet the hypotheses of `LocalRequests`, clause by clause. -/
theorem witness :
    ((lc.mayEnter rd1 = true) ∧ (lc.brought rd1 = lc.brought rd1) ∧ (lc.localAt rd1 = none))
    ∧ ((inq.mayEnter rd1 = true) ∧ (inq.brought rd1 = inq.brought rd1) ∧ (inq.localAt rd1 = some 1))
    ∧ (((lc.mayEnter rd1 = true) ∧ (lc.brought rd1 = lc.brought rd1) ∧ ((lc.withLocal rd1).fst.rspRoom rd1.rspCells = true) ∧ ((lc.withLocal rd1).fst.idleAccess rd1 = false) ∧ ((lc.brought rd1).memCheck rd1 ((lc.withLocal rd1).fst.ownPkt (lc.held rd1)) = none)) ∧ (((lc.brought rd1).storeCalm)) ∧ (((lc.brought rd1).svcBefore (lc.brought rd1).nextTxn rd1.hdr = false) ∧ ((lc.brought rd1).line (rd1.hdr.addr.toNat / 64) = some X) ∧ (X.err = 0) ∧ (X.poison = false) ∧ (rd1.hdr.noalloc = false) ∧ (rd1.blocks = 1) ∧ (rd1.hdr.opc = opRD)))
    ∧ (((lc.mayEnter wr1 = true) ∧ (lc.brought wr1 = lc.brought wr1) ∧ ((lc.withLocal wr1).fst.rspRoom wr1.rspCells = true) ∧ ((lc.withLocal wr1).fst.idleAccess wr1 = false) ∧ ((lc.brought wr1).memCheck wr1 ((lc.withLocal wr1).fst.ownPkt (lc.held wr1)) = none)) ∧ (((lc.brought wr1).storeCalm)) ∧ (((lc.brought wr1).svcBefore (lc.brought wr1).nextTxn wr1.hdr = false) ∧ ((lc.brought wr1).line (wr1.hdr.addr.toNat / 64) = some X) ∧ (X.err = 0) ∧ (X.poison = false) ∧ (wr1.hdr.noalloc = false) ∧ (wr1.blocks = 1) ∧ (wr1.hdr.opc = opWR)))
    ∧ (((lc.mayEnter wp1 = true) ∧ (lc.brought wp1 = lc.brought wp1) ∧ ((lc.withLocal wp1).fst.rspRoom wp1.rspCells = true) ∧ ((lc.withLocal wp1).fst.idleAccess wp1 = false) ∧ ((lc.brought wp1).memCheck wp1 ((lc.withLocal wp1).fst.ownPkt (lc.held wp1)) = none)) ∧ (((lc.brought wp1).storeCalm)) ∧ (((lc.brought wp1).svcBefore (lc.brought wp1).nextTxn wp1.hdr = false) ∧ ((lc.brought wp1).line (wp1.hdr.addr.toNat / 64) = some X) ∧ (X.err = 0) ∧ (X.poison = false) ∧ (wp1.hdr.noalloc = false) ∧ (wp1.blocks = 1) ∧ (wp1.hdr.opc = opWRP) ∧ (wrpMask wp1 0 ≠ 0) ∧ (wrpMask wp1 0 ≠ 2 ^ 64 - 1)))
    ∧ (((lc.mayEnter at2 = true) ∧ (lc.brought at2 = lc.brought at2) ∧ ((lc.withLocal at2).fst.rspRoom at2.rspCells = true) ∧ ((lc.withLocal at2).fst.idleAccess at2 = false) ∧ ((lc.brought at2).memCheck at2 ((lc.withLocal at2).fst.ownPkt (lc.held at2)) = none)) ∧ (((lc.brought at2).storeCalm)) ∧ (((lc.brought at2).svcBefore (lc.brought at2).nextTxn at2.hdr = false) ∧ ((lc.brought at2).line (at2.hdr.addr.toNat / 64) = some X) ∧ (X.err = 0) ∧ (X.poison = false) ∧ (at2.hdr.noalloc = false) ∧ (at2.blocks = 1) ∧ (at2.hdr.opc = opATOM) ∧ (atomNew (at2.hdr.subop.toNat % 16) (atomWidth at2.hdr.subop.toNat) (leAt X.data (at2.hdr.addr.toNat % 64) (atomWidth at2.hdr.subop.toNat / 8)) (leAt at2.payload 0 (atomWidth at2.hdr.subop.toNat / 8)) (leAt at2.payload 8 (atomWidth at2.hdr.subop.toNat / 8)) = some 0))) :=
  ⟨by decide +kernel,
   by decide +kernel,
   ⟨by decide +kernel, by unfold State.storeCalm; decide +kernel, by decide +kernel⟩,
   ⟨by decide +kernel, by unfold State.storeCalm; decide +kernel, by decide +kernel⟩,
   ⟨by decide +kernel, by unfold State.storeCalm; decide +kernel, by decide +kernel⟩,
   ⟨by decide +kernel, by unfold State.storeCalm; decide +kernel, by decide +kernel⟩⟩
end LocalRequests

namespace ServiceRequests
def db1 := pk 0x20 0 0x3F 0x1F 7 [] 63
def svO : List (BitVec 8) := head 0 0 0 ++ loc 0x4000 0 0 ++ leBytes 8 128 ++ z 64
def sv1 := pk 0x10 96 0x3F 0x7F 0 svO 1
def sf : State := fo lc
def rl : State := (rg 1 {} 63 lc).sets [(RING_CFG_SQ_SIZE 63, 16), (RING_CFG_CQ_SIZE 63, 12), (RING_EID 63, 31), (RING_CQ_EID 63, 31)]
/-- States and operands that meet the hypotheses of `ServiceRequests`, clause by clause. -/
theorem witness :
    ((sf.mayEnter sv1 = true) ∧ (sf.brought sv1 = sf.brought sv1) ∧ ((sf.withLocal sv1).fst.rspRoom 1 = true) ∧ ((sf.withLocal sv1).fst.svcUsed + sv1.payload.length ≤ (sf.withLocal sv1).fst.denBytes / 4) ∧ ((sf.brought sv1).svcCheck sv1 = none))
    ∧ ((rl.mayEnter db1 = true) ∧ (rl.brought db1 = rl.brought db1) ∧ (db1.okForm = true) ∧ ((rl.brought db1).stateCheck = none) ∧ (db1.hdr.src = (rl.brought db1).ringEid (db1.hdr.subop.toNat % 64)) ∧ ((rl.brought db1).ringSt (db1.hdr.subop.toNat % 64) = 1) ∧ (db1.hdr.addr.toNat < 2 ^ 32) ∧ (idxSub db1.hdr.addr.toNat ((rl.brought db1).ringK (db1.hdr.subop.toNat % 64)) ≤ (rl.brought db1).sqLen (db1.hdr.subop.toNat % 64)) ∧ (idxSub db1.hdr.addr.toNat ((rl.brought db1).ringF (db1.hdr.subop.toNat % 64)) ≤ (rl.brought db1).sqLen (db1.hdr.subop.toNat % 64))) :=
  by and_intros <;> decide +kernel
end ServiceRequests

namespace RegisterAccesses
def mr (a n : Nat) := pk 0x30 0 0x3F 31 a [] (BitVec.ofNat 8 n)
def blo (o : Nat) : Blk × Nat := (blkOf o).getD (.glb, 0)
def de (o : Nat) : RegDesc := match descOf o with | some d => d | none => { off := 0, dims := [], flds := [], reset := 0, cls := .counter, pair := false}
def w_s1 : State := lc.brought (mw MARL_WB_CFG.off 0x5A55)
def w_s2 : State := ((lc.brought (mw MARL_WB_CFG.off 0x5A55)).regWrite .mreg (some (mw MARL_WB_CFG.off 0x5A55).hdr) MARL_WB_CFG.off 0x5A55).2
def w_a1 : BitVec 24 := BitVec.ofNat 24 (PORT_FLITS_TX_LO 31).off
def w_a2 : Blk := (blo (PORT_FLITS_TX_LO 31).off).1
def w_n1 : Nat := (blo (PORT_FLITS_TX_LO 31).off).2
def w_a3 : RegDesc := de (PORT_FLITS_TX_LO 31).off
def w_a4 : BitVec 24 := BitVec.ofNat 24 (OTP_DATA 3).off
def w_a5 : Blk := (blo (OTP_DATA 3).off).1
def w_n2 : Nat := (blo (OTP_DATA 3).off).2
/-- States and operands that meet the hypotheses of `RegisterAccesses`, clause by clause. -/
theorem witness :
    ((lc.mayEnter (mr 0 15) = true) ∧ (lc.brought (mr 0 15) = lc.brought (mr 0 15)) ∧ (lc.acc.owed = []) ∧ ((lc.brought (mr 0 15)).mregRsps < 16) ∧ ((mr 0 15).okForm = true))
    ∧ ((lc.mayEnter (mw MARL_WB_CFG.off 23125) = true) ∧ (lc.brought (mw MARL_WB_CFG.off 23125) = w_s1) ∧ (lc.acc.owed = []) ∧ (w_s1.mregRsps < 16) ∧ ((mw MARL_WB_CFG.off 23125).okForm = true) ∧ (w_s1.regWrite Path.mreg (some (mw MARL_WB_CFG.off 23125).hdr) ((mw MARL_WB_CFG.off 23125).hdr.addr.toNat % 2 ^ 24) (leAt (mw MARL_WB_CFG.off 23125).payload 0 4) = (some stOK, w_s2)) ∧ (w_s2.calm = true) ∧ ((mw MARL_WB_CFG.off 23125).hdr.opc = opMREGWR → (lc.withLocal (mw MARL_WB_CFG.off 23125)).fst.mapHeld ((mw MARL_WB_CFG.off 23125).hdr.addr.toNat % 2 ^ 24) = false))
    ∧ ((rdy.pathUp Path.i3c = true) ∧ (Path.i3c = Path.mreg ∨ rdy.pathLimited = false) ∧ (blkOf w_a1.toNat = some (w_a2, w_n1)) ∧ (descOf w_a1.toNat = some w_a3) ∧ (w_a3.pair = true) ∧ (pairHigh w_a2 w_a1.toNat = false))
    ∧ (((blkOf w_a4.toNat = some (w_a5, w_n2)) ∧ (descOf w_a4.toNat = some (de (OTP_DATA 3).off)) ∧ (rdy.takes Path.i3c w_a5 = true) ∧ (rdy.legal w_a4.toNat 20480 = true) ∧ (w_a4.toNat ≠ FLT_ACK.off) ∧ (w_a4.toNat ≠ FLT_INJ.off)) ∧ ((∀ (x : State), x.applyWrite Path.i3c w_a5 w_a4.toNat w_n2 20480 (de (OTP_DATA 3).off) = atOnce (x.plainWrite w_a4.toNat 20480 (de (OTP_DATA 3).off)))))
    ∧ (((blkOf w_a4.toNat = some (w_a5, w_n2)) ∧ (descOf w_a4.toNat = some (de (OTP_DATA 3).off)) ∧ (rdy.takes Path.i3c w_a5 = true) ∧ (rdy.legal w_a4.toNat 20480 = true) ∧ (w_a4.toNat ≠ FLT_ACK.off) ∧ (w_a4.toNat ≠ FLT_INJ.off)) ∧ ((∀ (x : State), x.applyWrite Path.i3c w_a5 w_a4.toNat w_n2 20480 (de (OTP_DATA 3).off) = atOnce (x.plainWrite w_a4.toNat 20480 (de (OTP_DATA 3).off)))) ∧ ((Path.i3c = Path.i3c)))
    ∧ ((rdy.rails.vaon = true))
    ∧ ((rdy.rails.vaon = true))
    ∧ ((State.reset.rails.vaon = true) ∧ ([1, 2].length ≠ 3) ∧ ([1, 2].length ≠ 7))
    ∧ ((rdy.rails.vaon = true)) :=
  ⟨by decide +kernel,
   by decide +kernel,
   by decide +kernel,
   ⟨by decide +kernel, fun _ => rfl⟩,
   ⟨by decide +kernel, fun _ => rfl, by decide +kernel⟩,
   by decide +kernel,
   by decide +kernel,
   by decide +kernel,
   by decide +kernel⟩
end RegisterAccesses

namespace WriteOrder
def blo (o : Nat) : Blk × Nat := (blkOf o).getD (.glb, 0)
def de (o : Nat) : RegDesc := match descOf o with | some d => d | none => { off := 0, dims := [], flds := [], reset := 0, cls := .counter, pair := false }
def w_a1 : BitVec 24 := BitVec.ofNat 24 (PORT_ROLE 31).off
def w_a2 : Blk := (blo (PORT_ROLE 31).off).1
def w_n1 : Nat := (blo (PORT_ROLE 31).off).2
def w_a3 : BitVec 24 := BitVec.ofNat 24 MARL_HITS_LO.off
def w_a4 : Blk := (blo MARL_HITS_LO.off).1
def w_n2 : Nat := (blo MARL_HITS_LO.off).2
def w_a5 : BitVec 24 := BitVec.ofNat 24 (VCP_MECH).off
def w_a6 : Blk := (blo (VCP_MECH).off).1
def w_n3 : Nat := (blo (VCP_MECH).off).2
/-- States and operands that meet the hypotheses of `WriteOrder`, clause by clause. -/
theorem witness :
    ((blkOf w_a1.toNat = some (w_a2, w_n1)) ∧ (descOf w_a1.toNat = some (de (PORT_ROLE 31).off)) ∧ (p3.pathUp Path.jtag = true) ∧ (Path.jtag = Path.mreg ∨ p3.pathLimited = false) ∧ (p3.calm = true) ∧ (p3.mapHeld w_a1.toNat = false) ∧ (w_a1.toNat ≠ FLT_ACK.off) ∧ (w_a1.toNat ≠ FLT_INJ.off) ∧ (7 &&& fieldMask (de (PORT_ROLE 31).off) ≠ 7 ∨ p3.rsvdValue w_a2 w_a1.toNat w_n1 7 = true))
    ∧ ((blkOf w_a3.toNat = some (w_a4, w_n2)) ∧ (descOf w_a3.toNat = some (de MARL_HITS_LO.off)) ∧ (rdy.pathUp Path.i3c = true) ∧ (Path.i3c = Path.mreg ∨ rdy.pathLimited = false) ∧ (rdy.calm = true) ∧ (rdy.mapHeld w_a3.toNat = false) ∧ (w_a3.toNat ≠ FLT_ACK.off) ∧ (w_a3.toNat ≠ FLT_INJ.off) ∧ (4294967295 &&& fieldMask (de MARL_HITS_LO.off) = 4294967295) ∧ (rdy.rsvdValue w_a4 w_a3.toNat w_n2 4294967295 = false) ∧ (writesNothing w_a3.toNat (de MARL_HITS_LO.off) = true))
    ∧ ((blkOf w_a5.toNat = some (w_a6, w_n3)) ∧ (descOf w_a5.toNat = some (de VCP_MECH.off)) ∧ ((lk rdy).pathUp Path.jtag = true) ∧ (Path.jtag = Path.mreg ∨ (lk rdy).pathLimited = false) ∧ ((lk rdy).calm = true) ∧ ((lk rdy).mapHeld w_a5.toNat = false) ∧ (w_a5.toNat ≠ FLT_ACK.off) ∧ (w_a5.toNat ≠ FLT_INJ.off) ∧ (1 &&& fieldMask (de VCP_MECH.off) = 1) ∧ ((lk rdy).rsvdValue w_a6 w_a5.toNat w_n3 1 = false) ∧ (writesNothing w_a5.toNat (de VCP_MECH.off) = false) ∧ (ownTime w_a5.toNat Path.jtag = false ∧ (lk rdy).blockOpen w_a6 = false ∨ (lk rdy).locked = true ∧ (allRwl (de VCP_MECH.off) = true ∨ lockedOut w_a5.toNat = true) ∨ (lk rdy).unitGone w_a6 w_n3 = true)) :=
  by and_intros <;> decide +kernel
end WriteOrder

namespace OwnAnswers
def e1 := eg [q 1 9 (.stage 3 7)] rdy
def e4 := eg [q 0x10 9 (.stage 3 7), q 4 10 .gone] rdy
def ub (s : State) (p : Packet) : State := (s.withLocal p).1.takeIn (s.withLocal p).2
def an := rs 0x81 9 0 (List.replicate 64 1)
def an7 := rs 0x81 9 0x77 (List.replicate 64 1)
def am := rs 0xB0 3 0x0 (List.replicate 32 2)
/-- States and operands that meet the hypotheses of `OwnAnswers`, clause by clause. -/
theorem witness :
    ((Instr.rdRsp an = Instr.rdRsp an ∧ (q 1 9 (Owner.stage 3 7)).pkt.hdr.opc = opRD ∨ Instr.rdRsp an = Instr.wrAck an ∧ ((q 1 9 (Owner.stage 3 7)).pkt.hdr.opc = opWR ∨ (q 1 9 (Owner.stage 3 7)).pkt.hdr.opc = opWRP) ∨ Instr.rdRsp an = Instr.atomRsp an ∧ (q 1 9 (Owner.stage 3 7)).pkt.hdr.opc = opATOM ∨ Instr.rdRsp an = Instr.svcRsp an ∧ (q 1 9 (Owner.stage 3 7)).pkt.hdr.opc = opSVC) ∧ (e1.live = true) ∧ (an.hdr.dst = e1.eid) ∧ (e1.isNext an = true) ∧ ((e1.withLocal an).fst.takeIn (e1.withLocal an).snd = ub e1 an) ∧ ((ub e1 an).fox.unsent = []) ∧ (List.find? (fun o => o.matches an.hdr) (ub e1 an).fox.outs = some (q 1 9 (Owner.stage 3 7))) ∧ (rspOpc (q 1 9 (Owner.stage 3 7)).pkt.hdr.opc = some an.hdr.opc) ∧ (packetStatuses.contains an.hdr.status = true) ∧ (rspLenOk (q 1 9 (Owner.stage 3 7)).pkt.hdr an.hdr.status an.hdr.len.toNat = true) ∧ ((q 1 9 (Owner.stage 3 7)).owner = Owner.stage 3 7) ∧ (((ub e1 an).eng 3).run = some g0) ∧ (List.find? (fun o => o.fst == 7) g0.opened = some (7, acc)))
    ∧ ((e4.live = true) ∧ (e4.fox.unsent = []) ∧ (List.find? (fun o => o.tag == 9) e4.fox.outs = some (q 16 9 (Owner.stage 3 7))) ∧ ((q 16 9 (Owner.stage 3 7)).owner = Owner.stage 3 7) ∧ ((e4.eng 3).run = some g0) ∧ (List.find? (fun o => o.fst == 7) g0.opened = some (7, acc)))
    ∧ ((Instr.rdRsp an7 = Instr.rdRsp an7 ∨ Instr.rdRsp an7 = Instr.wrAck an7 ∨ Instr.rdRsp an7 = Instr.atomRsp an7 ∨ Instr.rdRsp an7 = Instr.svcRsp an7 ∨ Instr.rdRsp an7 = Instr.mregRsp an7) ∧ (e1.live = true) ∧ (an7.hdr.dst = e1.eid) ∧ (e1.isNext an7 = true) ∧ ((e1.withLocal an7).fst.takeIn (e1.withLocal an7).snd = ub e1 an7) ∧ ((ub e1 an7).fox.unsent = []) ∧ (List.find? (fun o => o.matches an7.hdr) (ub e1 an7).fox.outs = some (q 1 9 (Owner.stage 3 7))) ∧ (rspOpc (q 1 9 (Owner.stage 3 7)).pkt.hdr.opc ≠ some an7.hdr.opc ∨ packetStatuses.contains an7.hdr.status = false ∨ rspLenOk (q 1 9 (Owner.stage 3 7)).pkt.hdr an7.hdr.status an7.hdr.len.toNat = false) ∧ ((q 1 9 (Owner.stage 3 7)).owner = Owner.stage 3 7) ∧ (((ub e1 an7).eng 3).run = some g0) ∧ (List.find? (fun o => o.fst == 7) g0.opened = some (7, acc)))
    ∧ ((Instr.mregRsp am = Instr.rdRsp am ∨ Instr.mregRsp am = Instr.wrAck am ∨ Instr.mregRsp am = Instr.atomRsp am ∨ Instr.mregRsp am = Instr.svcRsp am ∨ Instr.mregRsp am = Instr.mregRsp am) ∧ (e4.live = true) ∧ (am.hdr.dst = e4.eid) ∧ (e4.isNext am = true) ∧ ((e4.withLocal am).fst.takeIn (e4.withLocal am).snd = ub e4 am) ∧ (List.find? (fun o => o.matches am.hdr) (ub e4 am).fox.outs = none)) :=
  by and_intros <;> decide +kernel
end OwnAnswers

namespace MarlCommands
def c0 := rdy.chn 31
def r1 : RdReq := { block := 5, use := .miss 77, cls := 2, grp := 64, at_ := 0, issued := true }
def ma : State := ch 31 { c0 with arrived := [(r1, false, List.replicate 64 5)] } (ln [(64, X)] rdy)
def wq : WrReq := { block := 5, data := List.replicate 64 7, poison := false, line := some 5, cls := 2, at_ := 0, issued := true }
def mf : State := let s := (ln [(5, { (dirtyL 5).2 with flushMark := true, wbBusy := true })] rdy).sets [(MARL_STATUS_FLUSH_BUSY, 1)]; { s with marl := { s.marl with flush := some true } }
def q1 : State := let s := rdy.sets [(MARL_CTL_QUIESCE, 1), (MARL_STATUS_QUIESCED, 1), (MARL_STATUS_PART_BUSY, 1)]; { s with marl := { s.marl with newPart := some 0x0204 } }
def bg : State := (ln [dirtyL 5, cleanL 64] rdy).sets [(BST_BADGER_CFG_MARL_EN,1)]
def w_s1 : State := ch 31 {c0 with writes := [wq]} mf
def w_x1 : Line := ((ch 31 {c0 with writes := [wq]} mf).line 5).getD (dirtyL 5).2
def w_s2 : State := rdy.sets [(MARL_CTL_QUIESCE, 1)]
def w_x2 : Line := (dirtyL 5).2
/-- States and operands that meet the hypotheses of `MarlCommands`, clause by clause. -/
theorem witness :
    (((ma.live = true)) ∧ ((ma.storeCalm)) ∧ (((ma.chn 31).arrived = [(r1, false, List.replicate 64 5)]) ∧ (r1.use = RdUse.miss 77) ∧ (ma.line 77 = none) ∧ (ma.takeWay 77 r1.cls r1.grp = (some 0, ma))))
    ∧ (((w_s1.live = true)) ∧ ((w_s1.storeCalm)) ∧ ((List.find? (fun e => e.snd.issued) (enum (w_s1.chn 31).writes) = some (0, wq)) ∧ (wq.line = some 5) ∧ (w_s1.line 5 = some w_x1)))
    ∧ ((mf.marl.flush ≠ none) ∧ (mf.live = true) ∧ (∀ (e : Nat × Line), e ∈ mf.marl.lines → e.snd.flushMark = true → mf.lineStuck e.fst = false))
    ∧ ((w_s2.fld MARL_CTL_QUIESCE = 1) ∧ (w_s2.localIdle = true))
    ∧ ((q1.marl.newPart = some 516) ∧ (q1.live = true) ∧ (∀ (e : Nat × Line), e ∈ q1.marl.lines → q1.heldLine e.fst e.snd = false ∧ (e.snd.st = LineSt.dirty → q1.lineStuck e.fst = false)) ∧ (q1.sharedUsed ≤ q1.sharedCells) ∧ (∀ (x : Nat), x ∈ q1.heldCells → x / 4096 % 16 < q1.bufBanks))
    ∧ ((rdy.padsRun 0 = true) ∧ (∀ (l : Nat), l ∈ rdy.marl.rewrite → rdy.sliceOf l ≠ 0))
    ∧ ((rdy.padsRun 0 = true) ∧ (∀ (l : Nat), l ∈ rdy.marl.rewrite → rdy.sliceOf l ≠ 0))
    ∧ ((bg.awake = true) ∧ (bg.ready = true) ∧ (bg.fld BST_BADGER_CFG_MARL_EN = 1) ∧ (bg.calm = true) ∧ (bg.line 5 = some w_x2) ∧ (bg.flt.inject = none) ∧ (sramDecode (w_x2.err ^^^ 1).toNat = SramRes.corrected 0))
    ∧ ((bg.awake = true) ∧ (bg.ready = true) ∧ (bg.fld BST_BADGER_CFG_MARL_EN = 1) ∧ (bg.calm = true) ∧ (31 + 1 = bg.nEngines) ∧ (bg.flt.inject = none))
    ∧ ((rdy.ready = true) ∧ (rdy.dead = false)) :=
  ⟨⟨by decide +kernel, by unfold State.storeCalm; decide +kernel, by decide +kernel⟩,
   ⟨by decide +kernel, by unfold State.storeCalm; decide +kernel, by decide +kernel⟩,
   by decide +kernel,
   by decide +kernel,
   by decide +kernel,
   by decide +kernel,
   by decide +kernel,
   by decide +kernel⟩
end MarlCommands

namespace RingEvents
def rw (n : Nat) (r : Ring) := rgs n 1 r (host rdy)
def ce : CplEntry := { descId := 7, status := 0, stage := 0, sqHead := 3 }
def fillO : List (BitVec 8) := head 0 0 0 ++ loc 0x4000 0 0 ++ leBytes 8 128 ++ z 64
def rdd := dsc 5 [(1, 0)] fillO
def re (s : State) : State := rgs 63 1 {descs := [rdd]} (s.sets [(FOX_CTL_ENABLE 0, 1), (FOX_CTL_ENABLE 1, 1)])
def idle (l : List Nat) (s : State) : State := { s with fox := { s.fox with engines := l.map fun e => (e, { st := .idle }) } }
def w_s1 : State := (rw 0 {}).sets [(RING_CFG_DB_MODE 0, 1)]
def w_s2 : State := (rw 0 { failing := [(2, 0)] }).sets [(RING_SQ_PROD 0, 2)]
def w_s3 : State := rw 63 {cpls := [ce]}
def w_s4 : State := (re rdy).sets [(GLB_START_STATUS_FW_DEGRADED, 1)]
/-- States and operands that meet the hypotheses of `RingEvents`, clause by clause. -/
theorem witness :
    ((w_s1.working = true) ∧ (w_s1.ringSt 0 = 1) ∧ (Instr.ringPoll 0 = Instr.ringPoll 0 ∧ 0 = 0 ∧ w_s1.fld (RING_CFG_DB_MODE 0) = 1 ∨ Instr.ringPoll 0 = Instr.rcbHReread 0 ∧ 0 = 1 ∧ w_s1.cplSpace 0 = 0 ∧ w_s1.ringF 0 ≠ w_s1.ringK 0 ∨ Instr.ringPoll 0 = Instr.ring0FetchRetry ∧ 0 = 2 ∧ 0 = 0 ∧ w_s1.retries0 4 = true ∧ w_s1.retries0 2 = false) ∧ ((w_s1.ring 0).rcbRead = none) ∧ (w_s1.fox.outs.length < 65536))
    ∧ ((w_s2.working = true) ∧ (Instr.ring0FetchRetry = Instr.descFetch 0 ∧ ¬(0 = 0 ∧ w_s2.retries0 2 = true) ∨ Instr.ring0FetchRetry = Instr.ring0FetchRetry ∧ 0 = 0 ∧ w_s2.retries0 2 = true ∧ w_s2.retries0 4 = false) ∧ (w_s2.ringSt 0 = 1) ∧ ((w_s2.ring 0).slots = []) ∧ ((w_s2.ring 0).fetching = 0) ∧ ((w_s2.ring 0).live < 32) ∧ (w_s2.cplSpace 0 ≠ 0) ∧ (w_s2.fox.outs.length + (w_s2.slotPieces 0 (min 64 (idxSub (w_s2.ringK 0) (w_s2.ringF 0))) (w_s2.ringF 0) (min 64 (idxSub (w_s2.ringK 0) (w_s2.ringF 0)))).length ≤ 65536) ∧ (w_s2.ringF 0 ≠ w_s2.ringK 0) ∧ (w_s2.descCells + min 64 (idxSub (w_s2.ringK 0) (w_s2.ringF 0)) ≤ w_s2.descPool))
    ∧ ((w_s3.awake = true) ∧ (Instr.completionWrite 63 = Instr.completionWrite 63 ∧ w_s3.ringSt 63 ≠ 0 ∧ (w_s3.ring 63).cplHeld = false ∨ Instr.completionWrite 63 = Instr.ring0CompletionRetry ∧ 63 = 0 ∧ (w_s3.ring 0).cplHeld = true) ∧ ((w_s3.ring 63).cpls = [ce]) ∧ ((w_s3.ring 63).cplBusy = 0) ∧ (w_s3.canSend 64 = true) ∧ (w_s3.fox.outs.length < 65536))
    ∧ ((63 ≠ 0) ∧ (w_s4.calm = true) ∧ (w_s4.readyDesc 63 = some rdd) ∧ (w_s4.fld GLB_START_STATUS_FW_DEGRADED = 1))
    ∧ ((63 ≠ 0) ∧ ((idle [0, 1] (re rdy)).calm = true) ∧ ((idle [0, 1] (re rdy)).readyDesc 63 = some rdd) ∧ ((idle [0, 1] (re rdy)).fld GLB_START_STATUS_FW_DEGRADED = 0) ∧ ((idle [0, 1] (re rdy)).fox.allDisabled = false) ∧ (List.find? (fun e => (idle [0, 1] (re rdy)).eligible e 63) (List.range (idle [0, 1] (re rdy)).nEngines) = some 0) ∧ (Option.map (fun x => x.fst) ((idle [0, 1] (re rdy)).pickRing 0) = some 63) ∧ (∀ (i : Nat), i < descStages rdd.hdr → operandOk false (descOp rdd.hdr i) i ((idle [0, 1] (re rdy)).fld CVU_CKP_GRANULES) (descOperand rdd.hdr rdd.payload i) rdd.payload.length = true))
    ∧ (((r0 64 (z 8) rdy).nextMgmt = some (d0 64 (z 8))) ∧ (Instr.nop = Instr.nop ∧ descOp (d0 64 (z 8)).hdr 0 = 64 ∨ Instr.nop = Instr.ringSetup ∧ descOp (d0 64 (z 8)).hdr 0 = 65 ∨ Instr.nop = Instr.setPstate ∧ descOp (d0 64 (z 8)).hdr 0 = 68 ∨ Instr.nop = Instr.marlWb ∧ descOp (d0 64 (z 8)).hdr 0 = 72 ∨ Instr.nop = Instr.fwActivate ∧ descOp (d0 64 (z 8)).hdr 0 = 85)) :=
  by and_intros <;> decide +kernel
end RingEvents

namespace RingZeroAtOnce
def su : List (BitVec 8) := [63,0,0,0,0,0,0,0] ++ leBytes 8 0x10000 ++ leBytes 8 0x20000 ++ leBytes 8 0x30000 ++ leBytes 4 31 ++ leBytes 4 31 ++ leBytes 4 0x00020C0C ++ z 4
def rn0 (op n st : Nat) (r : Ring) (pl : List (BitVec 8)) : State := { r0 op pl rdy with rings := mput n r (r0 op pl rdy).rings }.sets [(RING_STATUS_STATE n, st), (RING_CFG_SQ_SIZE n, 16), (RING_CFG_CQ_SIZE n, 12), (RING_EID n, 31), (RING_CQ_EID n, 31)]
def p63 : List (BitVec 8) := [63] ++ z 7
def ps (k : BitVec 8) (w : Nat) : List (BitVec 8) := [k,0,0,0] ++ leBytes 4 w
def ij : List (BitVec 8) := [3, 5, 1, 255, 0,0,0,0]
def qe (o v : Nat) : List (BitVec 8) := leBytes 4 o ++ leBytes 4 v
def qs : List (BitVec 8) := leBytes 2 2 ++ z 6 ++ qe ((QOS_LABEL_MAP 63).off - QOS_COMMIT.off) 0x00C10281 ++ qe ((QOS_LABEL_MAP 0).off - QOS_COMMIT.off) 0
def thmS : List (BitVec 8) := leBytes 4 1936614495 ++ leBytes 4 1531 ++ leBytes 4 332808 ++ z 4
def bdS : List (BitVec 8) := leBytes 4 1573121 ++ leBytes 4 0xFFFFFFFF
def teS : List (BitVec 8) := leBytes 4 1000 ++ leBytes 4 0x8000001F ++ leBytes 4 0 ++ z 4
def w_s1 : State := rn0 0x43 63 2 {cplHeld := true} p63
def w_s2 : State := {(r0 0x44 (ps 3 9) rdy) with fox := { (r0 0x44 (ps 3 9) rdy).fox with outs := [q 1 5 .gone] }}
def w_s3 : State := (r0 0x47 ij rdy).sets [(FLT_CFG_INJ_EN,1)]
/-- States and operands that meet the hypotheses of `RingZeroAtOnce`, clause by clause. -/
theorem witness :
    (((r0 64 (leBytes 8 77) rdy).starts0 64 (d0 64 (leBytes 8 77))))
    ∧ ((((r0 65 su rdy).starts0 65 (d0 65 su))) ∧ ((namesRing (d0 65 su).payload = true) ∧ (48 ≤ (d0 65 su).payload.length) ∧ (leAt (d0 65 su).payload 44 4 = 0) ∧ (63 = byteAt (d0 65 su).payload 0) ∧ (setupOk (leAt (d0 65 su).payload 8 4) (leAt (d0 65 su).payload 16 4) (leAt (d0 65 su).payload 24 4) (leAt (d0 65 su).payload 32 4) (leAt (d0 65 su).payload 36 4) (leAt (d0 65 su).payload 40 4) = true) ∧ ((r0 65 su rdy).ringSt 63 = 0)))
    ∧ (((w_s1.starts0 67 (d0 67 p63))) ∧ ((namesRing (d0 67 p63).payload = true) ∧ (63 = byteAt (d0 67 p63).payload 0) ∧ (w_s1.ringSt 63 = 2) ∧ (w_s1.fox.outs.length < 65536)))
    ∧ ((((r0 68 (ps 1 0) rdy).starts0 68 (d0 68 (ps 1 0)))) ∧ ((8 ≤ (d0 68 (ps 1 0)).payload.length) ∧ (leAt (d0 68 (ps 1 0)).payload 1 3 = 0) ∧ (byteAt (d0 68 (ps 1 0)).payload 0 = 1) ∧ ((r0 68 (ps 1 0) rdy).fox.mgmt = []) ∧ ((r0 68 (ps 1 0) rdy).sleepRefused = false) ∧ ((r0 68 (ps 1 0) rdy).calm = true) ∧ (1 = 1)))
    ∧ (((w_s2.starts0 68 (d0 68 (ps 3 9)))) ∧ ((8 ≤ (d0 68 (ps 3 9)).payload.length) ∧ (leAt (d0 68 (ps 3 9)).payload 1 3 = 0) ∧ (byteAt (d0 68 (ps 3 9)).payload 0 = 3) ∧ (w_s2.fox.mgmt = []) ∧ (w_s2.sleepRefused = false) ∧ (w_s2.calm = true) ∧ (3 = 2 ∨ 3 = 3)))
    ∧ (((w_s3.starts0 71 (d0 71 ij))) ∧ ((8 ≤ (d0 71 ij).payload.length) ∧ (zeroAt (d0 71 ij).payload 4 4 = true) ∧ (byteAt (d0 71 ij).payload 0 = 3) ∧ (byteAt (d0 71 ij).payload 1 = 5) ∧ (byteAt (d0 71 ij).payload 2 = b2n true) ∧ (byteAt (d0 71 ij).payload 3 = 255) ∧ (injOk 3 5 true = true) ∧ (5 < w_s3.injUnits 3) ∧ (w_s3.on FLT_CFG_INJ_EN = true) ∧ (∀ (i : Inject), w_s3.flt.inject = some i → i.checker = 3 ∨ 255 = 0)))
    ∧ ((((r0 75 qs rdy).starts0 75 (d0 75 qs))) ∧ ((2 = leAt (d0 75 qs).payload 0 2) ∧ (1 ≤ 2) ∧ (2 ≤ 511) ∧ (8 + 8 * 2 ≤ (d0 75 qs).payload.length) ∧ (leAt (d0 75 qs).payload 2 6 = 0) ∧ (∀ (k : Nat), k < 2 → qosEntryOk (leAt (d0 75 qs).payload (8 + 8 * k) 4) (leAt (d0 75 qs).payload (12 + 8 * k) 4) = true)))
    ∧ ((((r0 76 thmS rdy).starts0 76 (d0 76 thmS))) ∧ ((16 ≤ (d0 76 thmS).payload.length) ∧ (zeroAt (d0 76 thmS).payload 12 4 = true) ∧ (limitsOk (leAt (d0 76 thmS).payload 0 4) (leAt (d0 76 thmS).payload 4 4) (leAt (d0 76 thmS).payload 8 4) = true)))
    ∧ ((((r0 77 bdS rdy).starts0 77 (d0 77 bdS))) ∧ ((8 ≤ (d0 77 bdS).payload.length) ∧ (badgerCfgOk (leAt (d0 77 bdS).payload 0 4) = true) ∧ ((r0 77 bdS rdy).patrolOk (leAt (d0 77 bdS).payload 4 4) = true)))
    ∧ ((((r0 82 teS rdy).starts0 82 (d0 82 teS))) ∧ ((16 ≤ (d0 82 teS).payload.length) ∧ (zeroAt (d0 82 teS).payload 12 4 = true) ∧ (leAt (d0 82 teS).payload 0 4 ≤ 1000) ∧ (dstOk (leAt (d0 82 teS).payload 4 4) = true) ∧ (dstOk (leAt (d0 82 teS).payload 8 4) = true))) :=
  ⟨by unfold State.starts0; decide +kernel,
   ⟨by unfold State.starts0; decide +kernel, by decide +kernel⟩,
   ⟨by unfold State.starts0; decide +kernel, by decide +kernel⟩,
   ⟨by unfold State.starts0; decide +kernel, by decide +kernel⟩,
   ⟨by unfold State.starts0; decide +kernel, by decide +kernel⟩,
   ⟨by unfold State.starts0; decide +kernel, by decide +kernel⟩,
   ⟨by unfold State.starts0; decide +kernel, by decide +kernel⟩,
   ⟨by unfold State.starts0; decide +kernel, by decide +kernel⟩,
   ⟨by unfold State.starts0; decide +kernel, by decide +kernel⟩,
   ⟨by unfold State.starts0; decide +kernel, by decide +kernel⟩⟩
end RingZeroAtOnce

namespace LogAndFirmware
def rc (l : List StageItem) (f : Freeze) (s : State) : State := { s with recd := { s.recd with staging := l, freeze := f } }
def evr : EvRec := { typ := 3, sev := 1, opSec := 5, pwr := 1, rseq := 7, code := 0, unit := 0, tail := [], at_ := 0 }
def fz (k : BitVec 8) : List (BitVec 8) := [k] ++ z 7
def fw (slot : BitVec 8) (at_ : Nat) : List (BitVec 8) := [slot,0,0,0] ++ leBytes 4 at_ ++ List.replicate 16 5
def w_s1 : State := (rc [] (.frozen 0) {rdy with recd := {rdy.recd with holding := [.new evr, .upd { evr with rseq := 3 }]}})
def w_s2 : State := rc [.new evr] .off (r0 0x51 (fz 1) rdy)
def w_s3 : State := rc [] .off (r0 0x51 (fz 1) rdy)
def w_s4 : State := rc [] (.frozen 0) (r0 0x51 (fz 0) {rdy with recd := {rdy.recd with holding := [.new evr, .upd { evr with rseq := 3 }]}})
def w_s5 : State := (r0 0x54 (fw 0 0) rdy).sets [(GLB_START_STATUS_FW_SLOT,1)]
/-- States and operands that meet the hypotheses of `LogAndFirmware`, clause by clause. -/
theorem witness :
    (((rc [] Freeze.off rdy).takes Path.i3c Blk.recorder = true) ∧ ((rc [] Freeze.off rdy).locked = false) ∧ ((rc [] Freeze.off rdy).recd.freeze = Freeze.off))
    ∧ ((w_s1.takes Path.mreg Blk.recorder = true) ∧ (w_s1.locked = false) ∧ (w_s1.isFrozen = true))
    ∧ (((w_s2.starts0 81 (d0 81 (fz 1)))) ∧ ((8 ≤ (d0 81 (fz 1)).payload.length) ∧ (zeroAt (d0 81 (fz 1)).payload 1 7 = true) ∧ (byteAt (d0 81 (fz 1)).payload 0 = 1) ∧ (w_s2.recd.freeze = Freeze.off) ∧ (w_s2.recd.staging ≠ [])))
    ∧ (((w_s3.starts0 81 (d0 81 (fz 1)))) ∧ ((8 ≤ (d0 81 (fz 1)).payload.length) ∧ (zeroAt (d0 81 (fz 1)).payload 1 7 = true) ∧ (byteAt (d0 81 (fz 1)).payload 0 = 1) ∧ (w_s3.recd.freeze = Freeze.off) ∧ (w_s3.recd.staging = []) ∧ (w_s3.mgmtOf 81 = [])))
    ∧ (((w_s4.starts0 81 (d0 81 (fz 0)))) ∧ ((8 ≤ (d0 81 (fz 0)).payload.length) ∧ (zeroAt (d0 81 (fz 0)).payload 1 7 = true) ∧ (byteAt (d0 81 (fz 0)).payload 0 = 0) ∧ (w_s4.isFrozen = true)))
    ∧ (((r0 84 (fw 0 0) rdy).nextMgmt = some (d0 84 (fw 0 0))) ∧ (descOp (d0 84 (fw 0 0)).hdr 0 = 84) ∧ (16 ≤ (d0 84 (fw 0 0)).payload.length) ∧ (byteAt (d0 84 (fw 0 0)).payload 0 = 0) ∧ (0 ≤ 1) ∧ (leAt (d0 84 (fw 0 0)).payload 1 3 = 0) ∧ (leAt (d0 84 (fw 0 0)).payload 4 4 = 0) ∧ (0 % 8 = 0) ∧ (0 + ((d0 84 (fw 0 0)).payload.length - 8) ≤ 1048576) ∧ ((r0 84 (fw 0 0) rdy).fld GLB_START_STATUS_FW_SLOT ≠ 0 + 1))
    ∧ ((w_s5.nextMgmt = some (d0 84 (fw 0 0))) ∧ (descOp (d0 84 (fw 0 0)).hdr 0 = 84) ∧ (16 ≤ (d0 84 (fw 0 0)).payload.length) ∧ (byteAt (d0 84 (fw 0 0)).payload 0 = 0) ∧ (0 ≤ 1) ∧ (leAt (d0 84 (fw 0 0)).payload 1 3 = 0) ∧ (leAt (d0 84 (fw 0 0)).payload 4 4 = 0) ∧ (0 % 8 = 0) ∧ (0 + ((d0 84 (fw 0 0)).payload.length - 8) ≤ 1048576) ∧ (w_s5.fld GLB_START_STATUS_FW_SLOT = 0 + 1))
    ∧ ((((r0 85 (fz 1) rdy).starts0 85 (d0 85 (fz 1)))) ∧ ((8 ≤ (d0 85 (fz 1)).payload.length) ∧ (byteAt (d0 85 (fz 1)).payload 0 = 1) ∧ (1 ≤ 1) ∧ (leAt (d0 85 (fz 1)).payload 1 7 = 0))) :=
  ⟨by decide +kernel,
   by decide +kernel,
   ⟨by unfold State.starts0; decide +kernel, by decide +kernel⟩,
   ⟨by unfold State.starts0; decide +kernel, by decide +kernel⟩,
   ⟨by unfold State.starts0; decide +kernel, by decide +kernel⟩,
   by decide +kernel,
   by decide +kernel,
   ⟨by unfold State.starts0; decide +kernel, by decide +kernel⟩⟩
end LogAndFirmware

namespace RingZeroRunsOn
def rn0 (op n st : Nat) (r : Ring) (pl : List (BitVec 8)) : State := { r0 op pl rdy with rings := mput n r (r0 op pl rdy).rings }.sets [(RING_STATUS_STATE n, st), (RING_CFG_SQ_SIZE n, 16), (RING_CFG_CQ_SIZE n, 12), (RING_EID n, 31), (RING_CQ_EID n, 31)]
def p63 : List (BitVec 8) := [63] ++ z 7
def ur (v : Nat) : List (BitVec 8) := leBytes 4 v ++ z 4
def fz (k : BitVec 8) : List (BitVec 8) := [k] ++ z 7
def pas (c f : BitVec 8) : List (BitVec 8) := [c, f] ++ z 6
def par : State := rdy.sets [(GLB_MEM_CFG_PARITY,1),(GLB_MEM_STATUS_GROUP_STATE,0x55)]
def rb : State := par.sets [(CHAN_STATUS_FENCED 5, 1), (GLB_MEM_STATUS_GROUP_STATE, 0x56), (CHAN_REBUILD_STATE 5, 1)]
def rrs (l : List (BitVec 8)) := r0 0x50 l (host rdy)
def rr (dst eid area from_ cap : Nat) : List (BitVec 8) := leBytes 8 dst ++ leBytes 3 eid ++ [BitVec.ofNat 8 area] ++ z 4 ++ leBytes 8 from_ ++ leBytes 4 cap ++ z 4
def ad (l : List (BitVec 8)) := (rrs l).areaData (byteAt l 11) (leAt l 16 8) (leAt l 24 4)
def w_s1 : State := rn0 0x42 63 1 {} p63
def w_s2 : State := r0 0x45 (ur 0x10000000) rdy
def w_s3 : State := r0 0x48 (fz 1) (ln [dirtyL 5, cleanL 64] rdy)
def w_s4 : State := r0 0x49 (pas 0 0) (rdy.sets [(GLB_MEM_CFG_PARITY,1),(GLB_MEM_STATUS_GROUP_STATE,0x55)])
def w_s5 : State := r0 0x4A (pas 5 1) (rb.sets [(CHAN_REBUILD_SIXTEENTHS 5, 2)])
def w_s6 : State := r0 0x4E (pas 1 0) (rdy.sets [(BST_CFG_PAD_EN,1)])
def w_a1 : Desc := d0 0x50 (rr 0x1FC0 31 0 0 64)
def w_a2 : List (BitVec 8) := (ad (rr 0x1FC0 31 0 0 64)).1
def w_n1 : Nat := (ad (rr 0x1FC0 31 0 0 64)).2
/-- States and operands that meet the hypotheses of `RingZeroRunsOn`, clause by clause. -/
theorem witness :
    (((w_s1.starts0 66 (d0 66 p63))) ∧ ((namesRing (d0 66 p63).payload = true) ∧ (63 = byteAt (d0 66 p63).payload 0) ∧ (w_s1.ringSt 63 = 1 ∨ w_s1.ringSt 63 = 2) ∧ (w_s1.mgmtOf 66 = [])))
    ∧ (((w_s2.starts0 69 (d0 69 (ur 268435456)))) ∧ ((8 ≤ (d0 69 (ur 268435456)).payload.length) ∧ (leAt (d0 69 (ur 268435456)).payload 0 4 = 1 * 2 ^ 28 + 0) ∧ (leAt (d0 69 (ur 268435456)).payload 4 4 = 0) ∧ (1 ≤ 1) ∧ (1 ≤ 3) ∧ (0 < 32) ∧ (w_s2.unitOff 1 0 = false) ∧ (w_s2.inReset 1 0 = false) ∧ (1 = 2 → w_s2.fld (CHAN_STATUS_FENCED 0) = 0) ∧ (w_s2.calm = true)))
    ∧ (((w_s3.starts0 72 (d0 72 (fz 1)))) ∧ ((8 ≤ (d0 72 (fz 1)).payload.length) ∧ (byteAt (d0 72 (fz 1)).payload 0 = b2n true) ∧ (leAt (d0 72 (fz 1)).payload 1 7 = 0) ∧ (w_s3.fld MARL_STATUS_FLUSH_BUSY = 0) ∧ (w_s3.fld MARL_CTL_QUIESCE = 0)))
    ∧ (((w_s4.starts0 73 (d0 73 (pas 0 0)))) ∧ ((8 ≤ (d0 73 (pas 0 0)).payload.length) ∧ (byteAt (d0 73 (pas 0 0)).payload 0 = 0) ∧ (byteAt (d0 73 (pas 0 0)).payload 1 = 0) ∧ (0 ≤ 4) ∧ (leAt (d0 73 (pas 0 0)).payload 2 6 = 0) ∧ (0 < w_s4.nChans) ∧ (w_s4.pasrRefused 0 = false)))
    ∧ (((w_s5.starts0 74 (d0 74 (pas 5 1)))) ∧ ((8 ≤ (d0 74 (pas 5 1)).payload.length) ∧ (byteAt (d0 74 (pas 5 1)).payload 0 = 5) ∧ (5 < 32) ∧ (byteAt (d0 74 (pas 5 1)).payload 1 = 1) ∧ (1 ≤ 1) ∧ (1 ≤ 16) ∧ (leAt (d0 74 (pas 5 1)).payload 2 6 = 0) ∧ (w_s5.fld (CHAN_REBUILD_STATE 5) ≠ 0) ∧ (w_s5.mgmtOf 74 = [])))
    ∧ (((w_s6.starts0 78 (d0 78 (pas 1 0)))) ∧ ((8 ≤ (d0 78 (pas 1 0)).payload.length) ∧ (byteAt (d0 78 (pas 1 0)).payload 0 = 1) ∧ (byteAt (d0 78 (pas 1 0)).payload 1 = 0) ∧ (leAt (d0 78 (pas 1 0)).payload 2 6 = 0) ∧ (w_s6.acc.bstRun = none) ∧ (1 = 0 ∧ 0 < w_s6.nChans ∧ w_s6.on BST_CFG_COIL_EN = true ∧ w_s6.colHeld 0 = false ∨ 1 = 1 ∧ 0 = 0 ∧ w_s6.on BST_CFG_PAD_EN = true ∨ 1 = 2 ∧ 0 < w_s6.nPorts ∧ w_s6.on BST_CFG_LANE_EN = true ∧ ∃ k, k < w_s6.nLinks 0 ∧ w_s6.lst 0 k = 4)))
    ∧ (((rrs (rr 8128 31 0 0 64)).nextMgmt = some w_a1) ∧ (descOp w_a1.hdr 0 = 80) ∧ (32 ≤ w_a1.payload.length) ∧ (leAt w_a1.payload 0 8 % 64 = 0) ∧ (leAt w_a1.payload 8 3 = 31) ∧ (31 < 2 ^ 18) ∧ (31 % 64 < 32 ∨ 31 % 64 = 63) ∧ (byteAt w_a1.payload 11 ≤ 2) ∧ (zeroAt w_a1.payload 12 4 = true) ∧ (zeroAt w_a1.payload 28 4 = true) ∧ (leAt w_a1.payload 24 4 = 64) ∧ (64 % 64 = 0) ∧ (0 < 64) ∧ (64 ≤ 1048576) ∧ ((rrs (rr 8128 31 0 0 64)).areaData (byteAt w_a1.payload 11) (leAt w_a1.payload 16 8) 64 = (w_a2, w_n1)) ∧ (∀ (m : Mgmt), m ∈ (rrs (rr 8128 31 0 0 64)).fox.mgmt → m.job ≠ w_a1.job) ∧ ((rrs (rr 8128 31 0 0 64)).fox.outs.length < 65536)) :=
  ⟨⟨by unfold State.starts0; decide +kernel, by decide +kernel⟩,
   ⟨by unfold State.starts0; decide +kernel, by decide +kernel⟩,
   ⟨by unfold State.starts0; decide +kernel, by decide +kernel⟩,
   ⟨by unfold State.starts0; decide +kernel, by decide +kernel⟩,
   ⟨by unfold State.starts0; decide +kernel, by decide +kernel⟩,
   ⟨by unfold State.starts0; decide +kernel, by decide +kernel⟩,
   by decide +kernel⟩
end RingZeroRunsOn

namespace EngineWork
def fillO : List (BitVec 8) := head 0 0 0 ++ loc 0x4000 0 0 ++ leBytes 8 128 ++ z 64
def rdd := dsc 5 [(1, 0)] fillO
def idle (l : List Nat) (s : State) : State := { s with fox := { s.fox with engines := l.map fun e => (e, { st := .idle }) } }
def re (s : State) : State := rgs 63 1 {descs := [rdd]} (s.sets [(FOX_CTL_ENABLE 30, 1), (FOX_CTL_ENABLE 31, 1)])
def sv1 := pk 0x10 48 0x3F 0x7F 0 (z 48) 2
def sq (s : State) : State := { s with fox := { s.fox with svcQueue := [sv1, sv1], svcNums := [0, 1] } }
def spO : List (BitVec 8) := head 5 0 0 ++ loc 0x0 0 0 ++ leBytes 8 0x2000000 ++ z 64
def hj : Job := { jb 1 spO with engines := [3], nextChunk := 8 }
def hs (j : Job) (e : Nat) : State := let t := eng j (rn 8 0 0) rdy; { t.sets [(FOX_CTL_ENABLE e, 1), (FOX_CTL_ENABLE 31,1)] with fox := { t.fox with engines := [(3, { st := .run, run := some (rn 8 0 0) }), (e, { st := .idle })] } }
def fj := jb 1 fillO
def ff := { fj with fail := some (0x08, 0x08, true) }
def fin (j : Job) (r : Run) : State := eng j { r with finished := true } rdy
def two := { fj with ops := [(1, 0), (12, 96)], payload := fillO ++ head 0 0 0 ++ leBytes 8 1 }
def w_s1 : State := sq (idle [31] (rdy.sets [(FOX_CTL_ENABLE 31, 1), (FOX_CFG_SVC_RES, 1)]))
def w_r1 : Run := {rn 2 1 1 with finished := true}
def w_r2 : Run := {rn 2 2 0 with finished := true}
/-- States and operands that meet the hypotheses of `EngineWork`, clause by clause. -/
theorem witness :
    (((idle [30] (re rdy)).awake = true) ∧ ((idle [30] (re rdy)).calm = true) ∧ ((idle [30] (re rdy)).foxOn 30 = true) ∧ ((idle [30] (re rdy)).pickRing 30 = some (63, rdd)) ∧ (∀ (f : Nat), f < 30 → (idle [30] (re rdy)).eligible f 63 = false) ∧ (∀ (i : Nat), i < descStages rdd.hdr → operandOk false (descOp rdd.hdr i) i ((idle [30] (re rdy)).fld CVU_CKP_GRANULES) (descOperand rdd.hdr rdd.payload i) rdd.payload.length = true))
    ∧ ((w_s1.awake = true) ∧ (w_s1.calm = true) ∧ (w_s1.foxOn 31 = true) ∧ (w_s1.start.grave = false) ∧ (w_s1.start.forcing = false) ∧ (w_s1.fox.svcQueue = [sv1, sv1]) ∧ (w_s1.svcMay (w_s1.fox.svcNums.headD 0) sv1 = true) ∧ (w_s1.engIdle 31 = true) ∧ (w_s1.svcReserved 31 = true ∨ (∀ (f : Nat), f < w_s1.nEngines → w_s1.engIdle f = true → w_s1.svcReserved f = false) ∧ w_s1.pickRing 31 = none))
    ∧ (((hs hj 30).awake = true) ∧ ((hs hj 30).calm = true) ∧ ((hs hj 30).foxOn 30 = true) ∧ ((hs hj 30).working = true) ∧ ((hs hj 30).engIdle 30 = true) ∧ ((hs hj 30).svcReserved 30 = false) ∧ ((hs hj 30).pickRing 30 = none) ∧ ((hs hj 30).fox.jobs = [hj]) ∧ (hj.ring = some 1) ∧ (hj.op = 1 ∨ hj.op = 2 ∨ hj.op = 5) ∧ (0 < headSpread hj.operand) ∧ (hj.fail = none) ∧ (hj.nextChunk < spreadTotal hj.op hj.operand) ∧ (((hs hj 30).enginesOf hj.id).length < 2 ^ headSpread hj.operand) ∧ (bitAt ((hs hj 30).fld (FOX_RING_MAP_EARTHS 1)) (30 / 8) = true))
    ∧ (((fin ff (rn 2 1 1)).awake = true) ∧ ((fin ff (rn 2 1 1)).calm = true) ∧ ((fin ff (rn 2 1 1)).foxOn 3 = true) ∧ (((fin ff (rn 2 1 1)).eng 3).run = some w_r1) ∧ (((fin ff (rn 2 1 1)).eng 3).trapping = none) ∧ (w_r1.finished = true) ∧ ((fin ff (rn 2 1 1)).job w_r1.job = some ff) ∧ (ff.engines.head? = some 3) ∧ (((fin ff (rn 2 1 1)).enginesOf ff.id).length ≤ 1) ∧ (ff.ring = some 1) ∧ (1 < 64) ∧ (ff.fail = none ∧ 8 = stOK ∧ ff.ops.length ≤ ff.stage + 1 ∨ ∃ st remote, ff.fail = some (8, st, remote)) ∧ (∃ d, d ∈ ((fin ff (rn 2 1 1)).ring 1).descs ∧ d.job = ff.id ∧ d.st ≠ DescSt.done))
    ∧ (((fin two (rn 2 2 0)).awake = true) ∧ ((fin two (rn 2 2 0)).calm = true) ∧ ((fin two (rn 2 2 0)).foxOn 3 = true) ∧ (((fin two (rn 2 2 0)).eng 3).run = some w_r2) ∧ (((fin two (rn 2 2 0)).eng 3).trapping = none) ∧ (w_r2.finished = true) ∧ ((fin two (rn 2 2 0)).job w_r2.job = some two) ∧ (two.engines.head? = some 3) ∧ (((fin two (rn 2 2 0)).enginesOf two.id).length ≤ 1) ∧ (two.ring = some 1) ∧ (1 < 64) ∧ (two.fail = none) ∧ (((fin two (rn 2 2 0)).settleStage two w_r2).snd.stopDiff = false) ∧ (two.stage + 1 < two.ops.length) ∧ ((fin two (rn 2 2 0)).ringSt 1 ≠ 3)) :=
  by and_intros <;> decide +kernel
end EngineWork

namespace EngineTraps
def idle (l : List Nat) (s : State) : State := { s with fox := { s.fox with engines := l.map fun e => (e, { st := .idle }) } }
def w_s1 : State := idle [31] (rdy.sets [(FOX_CTL_ENABLE 31, 1)])
def w_s2 : State := eg [q 1 9 (.stage 3 7)] rdy
/-- States and operands that meet the hypotheses of `EngineTraps`, clause by clause. -/
theorem witness :
    ((w_s1.awake = true) ∧ (w_s1.calm = true) ∧ (w_s1.foxOn 31 = true) ∧ (31 < w_s1.nEngines) ∧ ((w_s1.eng 31).st ≠ EngSt.off) ∧ ((w_s1.eng 31).st ≠ EngSt.disabled) ∧ ((w_s1.eng 31).trapping = none) ∧ (Instr.engineTrap 31 TrapCause.pll = Instr.engineTrap 31 TrapCause.pll ∧ trapCode TrapCause.pll = trapCode TrapCause.pll ∨ Instr.engineTrap 31 TrapCause.pll = Instr.watchdogExpiry 31 ∧ trapCode TrapCause.pll = 4 ∧ (w_s1.eng 31).run ≠ none) ∧ ((w_s1.eng 31).run = none))
    ∧ ((w_s2.awake = true) ∧ (w_s2.calm = true) ∧ (w_s2.foxOn 3 = true) ∧ (3 < w_s2.nEngines) ∧ ((w_s2.eng 3).st ≠ EngSt.off) ∧ ((w_s2.eng 3).st ≠ EngSt.disabled) ∧ ((w_s2.eng 3).trapping = none) ∧ (Instr.watchdogExpiry 3 = Instr.engineTrap 3 TrapCause.pll ∧ 4 = trapCode TrapCause.pll ∨ Instr.watchdogExpiry 3 = Instr.watchdogExpiry 3 ∧ 4 = 4 ∧ (w_s2.eng 3).run ≠ none) ∧ ((w_s2.eng 3).run = some g0) ∧ (g0.opened ≠ [])) :=
  by and_intros <;> decide +kernel
end EngineTraps

namespace StageRounds
def fillO : List (BitVec 8) := head 0 0 0 ++ loc 0x4000 0 0 ++ leBytes 8 128 ++ z 64
def fj := jb 1 fillO
def h (o : List (BitVec 8)) (op hi pos round : Nat) := (eng (jb op o) (rn hi pos round) (host rdy), jb op o, rn hi pos round)
def cpO : List (BitVec 8) := head 0 2 0 ++ loc 0x4008 0 0 ++ loc 0x9008 2 31 ++ leBytes 8 160 ++ (z 8 ++ [1] ++ z 7)
def cp0 : List (BitVec 8) := head 0 0 0 ++ loc 0x4008 0 0 ++ loc 0x9008 2 31 ++ leBytes 8 160 ++ z 16
def ansd (n len : Nat) : List (Nat × AccAns) := (List.range n).map fun i => (i, { status := 0, data := List.replicate len 9 })
def cr1 : Run := { rn 160 0 1 with answers := ansd 3 64, nextAcc := 3, base := 0 }
def gaO : List (BitVec 8) := head 0 0 0 ++ loc 0x4000 0 0 ++ loc 0x9000 0 0 ++ loc 0xA000 0 0 ++ leBytes 4 9 ++ [3, 0, 0, 0] ++ leBytes 8 64
def sr1 : Run := { rn 9 0 1 with answers := ansd 1 36, nextAcc := 1, base := 0 }
def reD : List (BitVec 8) := head 0 0 1 ++ [0, 2, 0,0,0,0,0,0] ++ (loc 0x4000 1 0x7F ++ leBytes 8 100) ++ (loc 0x6000 0 0 ++ leBytes 8 100)
def ckO : List (BitVec 8) := head 0 0 0 ++ loc 0x4000 0 0 ++ leBytes 8 100 ++ (z 8 ++ [1] ++ z 7)
def cmO : List (BitVec 8) := head 0 0 0 ++ loc 0x4000 0 0 ++ loc 0x5001 0 0 ++ leBytes 8 100
def trO : List (BitVec 8) := head 0 0 0 ++ loc 0x4000 0 0 ++ loc 0x6000 0 0 ++ leBytes 4 10 ++ leBytes 4 20 ++ leBytes 8 160 ++ leBytes 8 80 ++ [3] ++ z 7
def tr1 : Run := { rn 10 0 1 with answers := ansd (trReads trO (rn 10 0 1)).length 64, nextAcc := (trReads trO (rn 10 0 1)).length, base := 0 }
def abO : List (BitVec 8) := head 0 0 0 ++ [0,0,0,0] ++ leBytes 4 5 ++ loc 0 0 0 ++ loc 0x8000 0 0 ++ loc 0x9000 0 0
def w_s1 : State := (h cpO 2 160 0 0).1
def w_j1 : Job := (h cpO 2 160 0 0).2.1
def w_r1 : Run := (h cpO 2 160 0 0).2.2
def w_s2 : State := eng (jb 2 cp0) cr1 (host rdy)
def w_s3 : State := (h gaO 3 9 0 0).1
def w_j2 : Job := (h gaO 3 9 0 0).2.1
def w_r2 : Run := (h gaO 3 9 0 0).2.2
def w_s4 : State := (h gaO 4 9 0 0).1
def w_j3 : Job := (h gaO 4 9 0 0).2.1
def w_r3 : Run := (h gaO 4 9 0 0).2.2
def w_s5 : State := (h reD 5 1 0 0).1
def w_j4 : Job := (h reD 5 1 0 0).2.1
def w_r4 : Run := (h reD 5 1 0 0).2.2
def w_s6 : State := (h ckO 6 100 0 0).1
def w_j5 : Job := (h ckO 6 100 0 0).2.1
def w_r5 : Run := (h ckO 6 100 0 0).2.2
def w_s7 : State := (h cmO 7 100 0 0).1
def w_j6 : Job := (h cmO 7 100 0 0).2.1
def w_r6 : Run := (h cmO 7 100 0 0).2.2
def w_s8 : State := (h trO 9 10 0 0).1
def w_j7 : Job := (h trO 9 10 0 0).2.1
def w_r7 : Run := (h trO 9 10 0 0).2.2
def w_s9 : State := eng (jb 9 trO) tr1 (host rdy)
def w_s10 : State := (h abO 10 5 0 0).1
def w_j8 : Job := (h abO 10 5 0 0).2.1
def w_r8 : Run := (h abO 10 5 0 0).2.2
def w_s11 : State := (h gaO 3 9 9 0).1
def w_j9 : Job := (h gaO 3 9 9 0).2.1
def w_r9 : Run := (h gaO 3 9 9 0).2.2
/-- States and operands that meet the hypotheses of `StageRounds`, clause by clause. -/
theorem witness :
    ((((eng fj (rn 128 0 0) rdy).stageReady 3 1 fj (rn 128 0 0))) ∧ (((rn 128 0 0).round = 0) ∧ ((rn 128 0 0).pos < (rn 128 0 0).hi)))
    ∧ (((w_s1.stageReady 3 2 w_j1 w_r1)) ∧ ((w_r1.round = 0) ∧ (w_r1.pos < w_r1.hi) ∧ (headCvu w_j1.operand = false ∨ w_j1.cvu ≠ none ∨ w_s1.freeCvu ≠ none)))
    ∧ (((w_s2.stageReady 3 2 (jb 2 cp0) cr1)) ∧ ((cr1.round = 1)))
    ∧ (((w_s3.stageReady 3 3 w_j2 w_r2)) ∧ ((w_r2.round = 0) ∧ (w_r2.pos < w_r2.hi)))
    ∧ (((w_s4.stageReady 3 4 w_j3 w_r3)) ∧ ((w_r3.round = 0) ∧ (w_r3.pos < w_r3.hi)))
    ∧ ((((eng (jb 4 gaO) sr1 rdy).stageReady 3 4 (jb 4 gaO) sr1)) ∧ ((sr1.round = 1)))
    ∧ (((w_s5.stageReady 3 5 w_j4 w_r4)) ∧ ((w_r4.round = 0) ∧ (true = w_s5.delegated (locAt w_j4.operand (16 + 24 * (w_r4.lo / 2 ^ headSpread w_j4.operand)))) ∧ ((redSpan w_j4.operand true w_r4.lo).fst ≠ (redSpan w_j4.operand true w_r4.lo).snd)))
    ∧ (((w_s6.stageReady 3 6 w_j5 w_r5)) ∧ ((w_r5.round = 0) ∧ (w_r5.pos < w_r5.hi) ∧ (w_s6.freeCvu ≠ none)))
    ∧ (((w_s7.stageReady 3 7 w_j6 w_r6)) ∧ ((w_r6.round = 0) ∧ (w_r6.pos < w_r6.hi)))
    ∧ (((w_s8.stageReady 3 9 w_j7 w_r7)) ∧ ((w_r7.round = 0) ∧ (w_r7.pos < w_r7.hi)))
    ∧ (((w_s9.stageReady 3 9 (jb 9 trO) tr1)) ∧ ((tr1.round = 1)))
    ∧ (((w_s10.stageReady 3 10 w_j8 w_r8)) ∧ ((w_r8.round = 0) ∧ (w_r8.pos < w_r8.hi)))
    ∧ (((Instr.gather 3 = Instr.compare 3 ∧ 3 = 7 ∨ Instr.gather 3 = Instr.transpose 3 ∧ 3 = 9 ∨ Instr.gather 3 = Instr.atomb 3 ∧ 3 = 10 ∨ Instr.gather 3 = Instr.gather 3 ∧ 3 = 3 ∨ Instr.gather 3 = Instr.scatter 3 ∧ 3 = 4)) ∧ ((w_s11.stageReady 3 3 w_j9 w_r9)) ∧ ((w_r9.round = 0) ∧ (w_r9.hi ≤ w_r9.pos) ∧ (w_j9.engines.head? = some 3))) :=
  ⟨⟨by unfold State.stageReady; decide +kernel, by decide +kernel⟩,
   ⟨by unfold State.stageReady; decide +kernel, by decide +kernel⟩,
   ⟨by unfold State.stageReady; decide +kernel, by decide +kernel⟩,
   ⟨by unfold State.stageReady; decide +kernel, by decide +kernel⟩,
   ⟨by unfold State.stageReady; decide +kernel, by decide +kernel⟩,
   ⟨by unfold State.stageReady; decide +kernel, by decide +kernel⟩,
   ⟨by unfold State.stageReady; decide +kernel, by decide +kernel⟩,
   ⟨by unfold State.stageReady; decide +kernel, by decide +kernel⟩,
   ⟨by unfold State.stageReady; decide +kernel, by decide +kernel⟩,
   ⟨by unfold State.stageReady; decide +kernel, by decide +kernel⟩,
   ⟨by unfold State.stageReady; decide +kernel, by decide +kernel⟩,
   ⟨by unfold State.stageReady; decide +kernel, by decide +kernel⟩,
   ⟨by decide +kernel, by unfold State.stageReady; decide +kernel, by decide +kernel⟩⟩
end StageRounds

namespace CheckpointStages
def h (o : List (BitVec 8)) (op hi pos round : Nat) := (eng (jb op o) (rn hi pos round) (host rdy), jb op o, rn hi pos round)
def feO : List (BitVec 8) := head 0 0 0 ++ leBytes 8 3
def fe2 : State := let s := (h feO 12 1 0 0).1; { s with rings := mput 1 { s.ring 1 with descs := [dsc 2 [(1,0)] []] ++ (s.ring 1).descs } s.rings }
def noO (m : BitVec 8) (kind eid : Nat) : List (BitVec 8) := head 0 0 0 ++ [m] ++ z 7 ++ loc 0x4000 kind eid ++ leBytes 8 0x1122334455667788
def tk (x : State × Job × Run) := (x.1.sets [(CVU_CKP_CTL_TRACK, 1), (CVU_CKP_EPOCH, 6)], x.2)
def miO (mode : BitVec 8) (ep : Nat) : List (BitVec 8) := head 0 0 0 ++ [mode, 2, 1, 0] ++ leBytes 4 ep ++ leBytes 8 0 ++ leBytes 8 4 ++ leBytes 3 (if mode = 0 then 0x7F else 0) ++ z 5 ++ leBytes 8 0x100000 ++ leBytes 8 0x200000 ++ leBytes 8 0x300000 ++ leBytes 8 2 ++ [1] ++ z 7 ++ z 8
def dsO (mode : BitVec 8) (ep kind : Nat) : List (BitVec 8) := head 0 0 0 ++ [mode, 0, 0, 0] ++ leBytes 4 ep ++ loc 0x4000 kind 0
def w_s1 : State := (h feO 12 1 0 0).1
def w_j1 : Job := (h feO 12 1 0 0).2.1
def w_r1 : Run := (h feO 12 1 0 0).2.2
def w_s2 : State := (h (noO 0 2 31) 13 1 0 0).1
def w_j2 : Job := (h (noO 0 2 31) 13 1 0 0).2.1
def w_r2 : Run := (h (noO 0 2 31) 13 1 0 0).2.2
def w_s3 : State := (h (noO 1 1 31) 13 1 0 0).1
def w_j3 : Job := (h (noO 1 1 31) 13 1 0 0).2.1
def w_r3 : Run := (h (noO 1 1 31) 13 1 0 0).2.2
def w_s4 : State := (tk (h (miO 0 6) 8 4 0 0)).1
def w_j4 : Job := (h (miO 0 6) 8 4 0 0).2.1
def w_r4 : Run := (h (miO 0 6) 8 4 0 0).2.2
def w_s5 : State := ((h (miO 0 7) 8 4 0 0)).1
def w_j5 : Job := (h (miO 0 7) 8 4 0 0).2.1
def w_r5 : Run := (h (miO 0 7) 8 4 0 0).2.2
def w_s6 : State := (tk (h (miO 1 6) 8 4 0 0)).1
def w_j6 : Job := (h (miO 1 6) 8 4 0 0).2.1
def w_r6 : Run := (h (miO 1 6) 8 4 0 0).2.2
def w_s7 : State := (tk (h (miO 2 6) 8 4 0 0)).1
def w_j7 : Job := (h (miO 2 6) 8 4 0 0).2.1
def w_r7 : Run := (h (miO 2 6) 8 4 0 0).2.2
def w_s8 : State := (tk (h (dsO 0 7 7) 11 1 0 0)).1
def w_j8 : Job := (h (dsO 0 7 7) 11 1 0 0).2.1
def w_r8 : Run := (h (dsO 0 7 7) 11 1 0 0).2.2
def w_s9 : State := (tk (h (dsO 1 6 7) 11 1 0 0)).1
def w_j9 : Job := (h (dsO 1 6 7) 11 1 0 0).2.1
def w_r9 : Run := (h (dsO 1 6 7) 11 1 0 0).2.2
/-- States and operands that meet the hypotheses of `CheckpointStages`, clause by clause. -/
theorem witness :
    (((w_s1.stageReady 3 12 w_j1 w_r1)) ∧ ((w_j1.engines.head? = some 3) ∧ (∀ (n : Nat), n ∈ bitList 64 (leAt w_j1.operand 8 8) → w_s1.earlierOpen n w_j1.id = false)))
    ∧ (((fe2.stageReady 3 12 w_j1 w_r1)) ∧ ((∃ n, n ∈ bitList 64 (leAt w_j1.operand 8 8) ∧ fe2.earlierOpen n w_j1.id = true)))
    ∧ (((w_s2.stageReady 3 13 w_j2 w_r2)) ∧ ((byteAt w_j2.operand 8 = 0) ∧ (w_r2.round = 0)))
    ∧ (((w_s3.stageReady 3 13 w_j3 w_r3)) ∧ ((byteAt w_j3.operand 8 = 1) ∧ (w_j3.engines.head? = some 3)))
    ∧ (((w_s4.stageReady 3 8 w_j4 w_r4)) ∧ ((byteAt w_j4.operand 8 = 0) ∧ (w_r4.round = 0) ∧ (w_s4.fld CVU_CKP_CTL_TRACK = 1) ∧ (w_s4.ckpBusy w_j4.id = false) ∧ (leAt w_j4.operand 12 4 = w_s4.fld CVU_CKP_EPOCH)))
    ∧ (((w_s5.stageReady 3 8 w_j5 w_r5)) ∧ ((byteAt w_j5.operand 8 = 0) ∧ (w_r5.round = 0) ∧ (w_j5.engines.head? = some 3) ∧ (w_s5.fld CVU_CKP_CTL_TRACK = 0 ∨ w_s5.ckpBusy w_j5.id = true ∨ leAt w_j5.operand 12 4 ≠ w_s5.fld CVU_CKP_EPOCH)))
    ∧ (((w_s6.stageReady 3 8 w_j6 w_r6)) ∧ ((byteAt w_j6.operand 8 = 1) ∧ (w_r6.round = 0) ∧ (w_s6.freeCvu = some 0)))
    ∧ (((w_s7.stageReady 3 8 w_j7 w_r7)) ∧ ((byteAt w_j7.operand 8 = 2) ∧ (w_r7.round = 0) ∧ (w_r7.pos < w_r7.hi)))
    ∧ (((w_s8.stageReady 3 11 w_j8 w_r8)) ∧ ((byteAt w_j8.operand 8 = 0) ∧ (w_r8.round = 0) ∧ (w_s8.fld CVU_CKP_CTL_TRACK = 1) ∧ (w_s8.ckpBusy w_j8.id = false) ∧ (leAt w_j8.operand 12 4 = (w_s8.fld CVU_CKP_EPOCH + 1) % 2 ^ 32)))
    ∧ (((w_s9.stageReady 3 11 w_j9 w_r9)) ∧ ((byteAt w_j9.operand 8 = 1) ∧ (w_r9.round = 0) ∧ ((locAt w_j9.operand 16).kind = 7) ∧ (w_s9.fld CVU_CKP_CTL_TRACK = 1) ∧ (w_s9.ckpBusy w_j9.id = false) ∧ (leAt w_j9.operand 12 4 = w_s9.fld CVU_CKP_EPOCH) ∧ (w_j9.engines.head? = some 3))) :=
  ⟨⟨by unfold State.stageReady; decide +kernel, by decide +kernel⟩,
   ⟨by unfold State.stageReady; decide +kernel, by decide +kernel⟩,
   ⟨by unfold State.stageReady; decide +kernel, by decide +kernel⟩,
   ⟨by unfold State.stageReady; decide +kernel, by decide +kernel⟩,
   ⟨by unfold State.stageReady; decide +kernel, by decide +kernel⟩,
   ⟨by unfold State.stageReady; decide +kernel, by decide +kernel⟩,
   ⟨by unfold State.stageReady; decide +kernel, by decide +kernel⟩,
   ⟨by unfold State.stageReady; decide +kernel, by decide +kernel⟩,
   ⟨by unfold State.stageReady; decide +kernel, by decide +kernel⟩,
   ⟨by unfold State.stageReady; decide +kernel, by decide +kernel⟩⟩
end CheckpointStages

namespace DataProtection
def cw : State := { rdy with prot := { rdy.prot with corrective := [(31, 5, List.replicate 64 3, [7])] } }
def F (c b : Nat) (s : State) := foldOf (s.lineHere c b) c b
def wr (c b : Nat) (s : State) : State := { s with chan := { s.chan with dram := (dramEncode (F c b s) (List.replicate 64 7) false).zipIdx.foldl (fun m e => mput ((c * chanBlocks + b) * 72 + e.2) e.1 m) s.chan.dram } }
def bp : State := wr 31 0 (rdy.sets [(BST_BADGER_CHAN_EN, 0xFFFFFFFF)])
def hf : State := { rdy with prot := { rdy.prot with hard := [(31, 0x2FFFFFF), (0,0)], marlHard := [63*65536+15*4096+4095, 0] } }
def w_s1 : State := ln [((cw.lineHere 31 5).getD 0, (dirtyL 5).2)] cw
def w_a1 : List (BitVec 8) := dramEncode (F 31 0 bp) (List.replicate 64 7) false
def w_s2 : State := (rdy.sets [(BST_BADGER_CHAN_EN, 0xFFFFFFFF), (CHAN_STATUS_FENCED 5, 1)])
/-- States and operands that meet the hypotheses of `DataProtection`, clause by clause. -/
theorem witness :
    ((cw.awake = true) ∧ (cw.chanRuns 31 = true) ∧ (cw.leftOver 31 5 = true) ∧ (cw.writeHeld 31 5 = false) ∧ (List.find? (fun e => e.fst == 31) cw.prot.corrective = some (31, 5, List.replicate 64 3, [7])) ∧ ((cw.lineHere 31 5).bind cw.line = none))
    ∧ ((w_s1.awake = true) ∧ (w_s1.chanRuns 31 = true) ∧ (w_s1.leftOver 31 5 = true) ∧ (w_s1.writeHeld 31 5 = false) ∧ (List.find? (fun e => e.fst == 31) w_s1.prot.corrective = some (31, 5, List.replicate 64 3, [7])))
    ∧ ((bp.awake = true) ∧ (bp.calm = true) ∧ (bitAt (bp.fld BST_BADGER_CHAN_EN) 31 = true) ∧ (bp.prot.stopped.getLsbD 31 = false) ∧ (31 < bp.nChans) ∧ (bp.patrolStops 31 = false) ∧ (bp.chanRuns 31 = true) ∧ (bp.fld (CHAN_STATUS_STATE 31) ≠ 5) ∧ (bp.flt.inject = none) ∧ (0 = mgetD bp.prot.patrol 31 0) ∧ (0 + 1 < chanBlocks) ∧ (bp.leftOver 31 0 = true) ∧ (bp.dramRead 31 0 = (w_a1, bp)) ∧ (dramDecode (foldOf (bp.lineHere 31 0) 31 0) (xorBytes w_a1 (slice [] 0 72)) = (DecRes.clean, List.replicate 64 7)))
    ∧ ((w_s2.awake = true) ∧ (w_s2.calm = true) ∧ (bitAt (w_s2.fld BST_BADGER_CHAN_EN) 5 = true) ∧ (w_s2.prot.stopped.getLsbD 5 = false) ∧ (5 < w_s2.nChans) ∧ (w_s2.patrolStops 5 = true))
    ∧ ((hf.awake = true) ∧ (hf.calm = true) ∧ ((0, 0) ∈ hf.prot.hard) ∧ (hf.chanRuns 0 = true) ∧ (hf.writeHeld 0 0 = false) ∧ (hf.freeRowOf 0 0 = some 0) ∧ (hf.softFree ≠ none))
    ∧ ((hf.awake = true) ∧ (hf.calm = true) ∧ (0 = 0 * 65536 + 0 * 4096 + 0) ∧ (0 ∈ hf.prot.marlHard) ∧ (hf.freeMarlRow 0 = some 0) ∧ (hf.softFree ≠ none)) :=
  by and_intros <;> decide +kernel
end DataProtection

namespace FaultCollector
def rcd (d : Nat) (c : FltClass) (st : RecSt) : FltRec := { isOpen := true, seq := 255, st := st, cls := c, timerOn := true, timerEnd := some 0 }
def fs (d : Nat) (c : FltClass) (st : RecSt) (s : State) : State := { s with flt := { s.flt with recs := [(d, rcd d c st)] } }
def gv : State := { rdy with start := { rdy.start with grave := true } }
def md : State := { rdy with flt := { rdy.flt with mgcDown := true } }
def mdm : State := let s := r0 0x40 [] md; { s with fox := { s.fox with mgmt := [{ job := 9, op := 0x40, payload := [] }] } }
def aw : State := { (host rdy).sets [(FLT_ALARM_DST 0, 0x8000001F)] with flt := { rdy.flt with wins := [(2, {pending := true, folded := 3})], recs := [(2, rcd 2 .c .wait)] } }
def w_s1 : State := gv.sets [(CLK_SRC_STATUS_MGT_SRC, 0)]
def w_s2 : State := { gv with flt := { gv.flt with mgcDown := true } }
def w_a1 : AlarmWin := {}
def w_s3 : State := { rdy with flt := { rdy.flt with wins := [(2, {})] } }
def w_a2 : AlarmWin := {pending := true, folded := 3}
/-- States and operands that meet the hypotheses of `FaultCollector`, clause by clause. -/
theorem witness :
    ((rdy.start.grave = false) ∧ (rdy.calm = true) ∧ (causeOf (if rdy.variant = 150 then FltClass.d else FltClass.a) FltCause.trip 0 = (59, FltClass.g, 5)) ∧ (domListed 5 = true) ∧ (rdy.domOff 5 = false) ∧ (rdy.collects = true))
    ∧ (((fs 2 FltClass.c RecSt.wait rdy).calm = true) ∧ ((fs 2 FltClass.c RecSt.wait rdy).timerDue 2 FltClass.c = true))
    ∧ (((fs 2 FltClass.d RecSt.wait rdy).calm = true) ∧ ((fs 2 FltClass.d RecSt.wait rdy).timerDue 2 FltClass.d = true))
    ∧ ((w_s1.fld CLK_SRC_STATUS_MGT_SRC = 0))
    ∧ ((gv.start.grave = true) ∧ (gv.start.graveDone = false) ∧ (gv.fld CLK_SRC_STATUS_MGT_SRC ≠ 0))
    ∧ ((w_s2.start.grave = true) ∧ (w_s2.start.graveDone = false) ∧ (w_s2.fld CLK_SRC_STATUS_MGT_SRC ≠ 0))
    ∧ ((p3.dead = false) ∧ (p3.calm = true) ∧ (p3.flt.mgcDown = false) ∧ (p3.flt.inject = none) ∧ (p3.collects = true))
    ∧ ((md.flt.mgcDown = true) ∧ (md.fld GLB_START_STATUS_FW_SLOT ≠ 3))
    ∧ ((mdm.flt.mgcDown = true) ∧ (mdm.collects = true))
    ∧ ((rdy.awake = true) ∧ (rdy.calm = true) ∧ (31 < rdy.nPorts) ∧ (rdy.flt.inject = none) ∧ (rdy.collects = true))
    ∧ ((mget w_s3.flt.wins 2 = some w_a1) ∧ (w_a1.pending = false))
    ∧ ((mget aw.flt.wins 2 = some w_a2) ∧ (w_a2.pending = true) ∧ (aw.start.grave = false) ∧ (aw.alarmDsts ≠ [])) :=
  by and_intros <;> decide +kernel
end FaultCollector

namespace RecorderAndTelemetry
def evr : EvRec := { typ := 3, sev := 1, opSec := 5, pwr := 1, rseq := 7, code := 0, unit := 0, tail := [], at_ := 0 }
def st1 : State := { rdy with recd := { rdy.recd with staging := [.new evr] }, sett := { rdy.sett with pages := [(6, { seq := 1, sev := 1, st := .opened, recs := [evr] })] } }
def te : State := (host rdy).sets [(TEL_CFG_INTERVAL_MS, 1000), (TEL_DST 0, 0x8000001F)]
def w_s1 : State := { rdy with recd := { rdy.recd with freeze := .draining, staging := [] } }
def w_s2 : State := { rdy with recd := { rdy.recd with freeze := .frozen 0, holding := [.new evr] } }
def w_s3 : State := { rdy with recd := { rdy.recd with opSec := 2^36-1 } }
/-- States and operands that meet the hypotheses of `RecorderAndTelemetry`, clause by clause. -/
theorem witness :
    ((st1.dead = false) ∧ (st1.mgtOn = true) ∧ (st1.calm = true) ∧ (st1.recd.freeze = Freeze.off) ∧ (st1.recd.staging = [StageItem.new evr]) ∧ (st1.openFor evr.sev = some 6) ∧ (pageUsed (st1.page 6) + recLen evr ≤ 4096))
    ∧ ((w_s1.dead = false) ∧ (w_s1.mgtOn = true) ∧ (w_s1.recd.freeze = Freeze.draining) ∧ (w_s1.recd.staging = []) ∧ (w_s1.recd.waiter = false))
    ∧ ((w_s2.isFrozen = true))
    ∧ ((rdy.dead = false) ∧ (rdy.mgtOn = true) ∧ (rdy.calm = true) ∧ (rdy.recd.freeze = Freeze.off))
    ∧ ((w_s3.rails.vaon = true))
    ∧ ((te.awake = true) ∧ (te.phase = 8) ∧ (te.fld TEL_CFG_INTERVAL_MS ≠ 0) ∧ (queueBytes te.recd.staging ≤ 8192) ∧ (te.telDsts = [31]) ∧ (∀ (o : OutPkt), o ∈ te.sw.egress → isTelemTo 31 o = false)) :=
  by and_intros <;> decide +kernel
end RecorderAndTelemetry

namespace ThermalCommands
def tp (n : Nat) (v : Option Int) : List (Option Int) := (List.replicate 84 (some 120)).set n v
def w_s1 : State := rdy.sets [(GLB_PWR_STATUS_STATE, 3)]
/-- States and operands that meet the hypotheses of `ThermalCommands`, clause by clause. -/
theorem witness :
    ((rdy.live = true) ∧ (rdy.calm = true) ∧ (rdy.phase ≠ 11) ∧ (rdy.sleep ≤ 1) ∧ (rdy.regionOk 2 = true) ∧ (0 < rdy.nSensors) ∧ ((rdy.sensor 0).broken = false) ∧ ((rdy.sensor 0).disagree < 9) ∧ ((tp 0 (some 460)).getD 0 none = some 460) ∧ (-160 ≤ 460) ∧ (460 ≤ 600))
    ∧ ((rdy.live = true) ∧ (rdy.calm = true) ∧ (rdy.phase ≠ 11) ∧ (rdy.sleep ≤ 1) ∧ (rdy.regionOk 2 = true) ∧ (0 < rdy.nSensors) ∧ ((rdy.sensor 0).broken = false) ∧ ((rdy.sensor 0).disagree < 9) ∧ ((tp 0 none).getD 0 none = none) ∧ ((rdy.sensor 0).has = true) ∧ ((rdy.sensor 0).noRes < 3))
    ∧ ((w_s1.live = true) ∧ (2 ≤ w_s1.sleep) ∧ (20 ≤ 20))
    ∧ ((p4.live = true))
    ∧ ((p2.rails.vaon = true) ∧ (0 < p2.nSensors)) :=
  by and_intros <;> decide +kernel
end ThermalCommands

namespace SelfTest
def sl : State := rdy.sets [(BST_CFG_COIL_EN,1),(BST_CFG_PAD_EN,1),(BST_CFG_LANE_EN,1)]
def ms (d : Bool) (r : BitVec 8): CoilMeas := { dir := d, hop := 3, pos := 100, up := true, resid := r }
def pt (i : Nat) (u : Bool) : State := { sl with marl := { sl.marl with pads := [(i, { test := [(b2n u, 257)] })] } }
def lm : State := let t := inL0 31 sl; { t with acc := { t.acc with laneDue := [248, 250] } }
def br (sc ix pos : Nat) : BstRun := { job := 9, scope := sc, index := ix, pos := pos }
def bs (sc ix pos : Nat) : State := let t := r0 0x4E (z 8) (inL0 31 sl); { t.sets [(BST_STATUS_RUN_BUSY, 1)] with acc := { t.acc with bstRun := some (br sc ix pos) } }
def w_s1 : State := { sl with vcp := { sl.vcp with cols := [(31, { test := some (303, none) })] } }
def w_s2 : State := { sl with marl := { sl.marl with pads := [(0, { test := [(1, 5)] })] } }
/-- States and operands that meet the hypotheses of `SelfTest`, clause by clause. -/
theorem witness :
    ((sl.slicesRun = true))
    ∧ (((w_s1.col 31).test = some (303, none)) ∧ (w_s1.live = true) ∧ (w_s1.calm = true) ∧ ((w_s1.col 31).testDrop = false) ∧ (w_s1.colOn 31 = true) ∧ ((ms true 4).resid.toNat ≤ w_s1.fld VCP_CAL_CFG_RESID_FAIL))
    ∧ ((mget ((pt 63 true).slicePads 63).test (b2n true) = some 257) ∧ ((pt 63 true).live = true) ∧ ((pt 63 true).calm = true) ∧ ((pt 63 true).sliceGone 63 = false))
    ∧ ((mget (w_s2.slicePads 0).test (b2n true) = some 5) ∧ (w_s2.live = true) ∧ (w_s2.calm = true) ∧ (w_s2.sliceGone 0 = false))
    ∧ ((250 ∈ lm.acc.laneDue) ∧ (lm.live = true) ∧ (lm.laneInL0 250 = true))
    ∧ (((bs 1 0 5).acc.bstRun = some (br 1 0 5)) ∧ ((bs 1 0 5).ready = true) ∧ ((bs 1 0 5).dead = false) ∧ ((bs 1 0 5).sleep = 0) ∧ ((bs 1 0 5).calm = true) ∧ ((bs 1 0 5).mgmtOf 74 = []) ∧ ((br 1 0 5).pos + 1 < runUnits (br 1 0 5).scope))
    ∧ (((bs 0 31 303).acc.bstRun = some (br 0 31 303)) ∧ ((bs 0 31 303).ready = true) ∧ ((bs 0 31 303).dead = false) ∧ ((bs 0 31 303).sleep = 0) ∧ ((bs 0 31 303).calm = true) ∧ ((bs 0 31 303).mgmtOf 74 = []) ∧ (runUnits (br 0 31 303).scope ≤ (br 0 31 303).pos + 1) ∧ (∃ d, d ∈ ((bs 0 31 303).ring 0).descs ∧ d.job = (br 0 31 303).job ∧ d.st ≠ DescSt.done)) :=
  by and_intros <;> decide +kernel
end SelfTest

namespace TestAccess
def dlk : State := { rdy with fuse := { rdy.fuse with debugLock := false } }
def cld (s : State) : State := s.sets [(BST_DBG_STATUS_CLEARED, 1)]
def extest (s : State) : State := s.sets [(BST_DBG_STATUS_CLEARING, 1)]
def cl1 : State := extest { (host dlk) with marl := { rdy.marl with lines := [dirtyL 5] } }
def w_s1 : State := { (cld dlk) with pins := { dlk.pins with tmode := true } }
def w_a1 : BitVec 57 := BitVec.ofNat 57 (2*MARL_WB_CFG.off+1 + 12825 * 2^25)
/-- States and operands that meet the hypotheses of `TestAccess`, clause by clause. -/
theorem witness :
    (((extest dlk).rails.vaon = true) ∧ (Instr.scan = Instr.extest ∧ irScan = irExtest ∨ Instr.scan = Instr.clamp ∧ irScan = irClamp ∨ Instr.scan = Instr.highz ∧ irScan = irHighz ∨ Instr.scan = Instr.extestPulse ∧ irScan = irPulse ∨ Instr.scan = Instr.extestTrain ∧ irScan = irTrain ∨ Instr.scan = Instr.ijtag ∧ irScan = irIjtag ∨ Instr.scan = Instr.scan ∧ irScan = irScan) ∧ ((extest dlk).clearing = true))
    ∧ ((rdy.rails.vaon = true) ∧ (Instr.scan = Instr.extest ∧ irScan = irExtest ∨ Instr.scan = Instr.clamp ∧ irScan = irClamp ∨ Instr.scan = Instr.highz ∧ irScan = irHighz ∨ Instr.scan = Instr.extestPulse ∧ irScan = irPulse ∨ Instr.scan = Instr.extestTrain ∧ irScan = irTrain ∨ Instr.scan = Instr.ijtag ∧ irScan = irIjtag ∨ Instr.scan = Instr.scan ∧ irScan = irScan) ∧ (rdy.clearing = false) ∧ (rdy.covered irScan = false))
    ∧ ((w_s1.rails.vaon = true) ∧ (Instr.scan = Instr.extest ∧ irScan = irExtest ∨ Instr.scan = Instr.clamp ∧ irScan = irClamp ∨ Instr.scan = Instr.highz ∧ irScan = irHighz ∨ Instr.scan = Instr.extestPulse ∧ irScan = irPulse ∨ Instr.scan = Instr.extestTrain ∧ irScan = irTrain ∨ Instr.scan = Instr.ijtag ∧ irScan = irIjtag ∨ Instr.scan = Instr.scan ∧ irScan = irScan) ∧ (w_s1.clearing = false) ∧ (w_s1.covered irScan = true) ∧ (irScan = irScan → w_s1.pins.tmode = true) ∧ (w_s1.on BST_DBG_STATUS_CLEARED = true))
    ∧ ((dlk.rails.vaon = true) ∧ (Instr.highz = Instr.extest ∧ irHighz = irExtest ∨ Instr.highz = Instr.clamp ∧ irHighz = irClamp ∨ Instr.highz = Instr.highz ∧ irHighz = irHighz ∨ Instr.highz = Instr.extestPulse ∧ irHighz = irPulse ∨ Instr.highz = Instr.extestTrain ∧ irHighz = irTrain ∨ Instr.highz = Instr.ijtag ∧ irHighz = irIjtag ∨ Instr.highz = Instr.scan ∧ irHighz = irScan) ∧ (dlk.clearing = false) ∧ (dlk.covered irHighz = true) ∧ (irHighz = irScan → dlk.pins.tmode = true) ∧ (dlk.on BST_DBG_STATUS_CLEARED = false))
    ∧ ((dlk.rails.vaon = true) ∧ (Instr.scan = Instr.extest ∧ irScan = irExtest ∨ Instr.scan = Instr.clamp ∧ irScan = irClamp ∨ Instr.scan = Instr.highz ∧ irScan = irHighz ∨ Instr.scan = Instr.extestPulse ∧ irScan = irPulse ∨ Instr.scan = Instr.extestTrain ∧ irScan = irTrain ∨ Instr.scan = Instr.ijtag ∧ irScan = irIjtag ∨ Instr.scan = Instr.scan ∧ irScan = irScan) ∧ (dlk.clearing = false) ∧ (irScan = irScan) ∧ (dlk.pins.tmode = false) ∧ (dlk.covered irScan = true))
    ∧ ((rdy.rails.vaon = true))
    ∧ ((rdy.rails.vaon = true))
    ∧ ((rdy.rails.vaon = true))
    ∧ ((rdy.rails.vaon = true) ∧ (rdy.clearing = false))
    ∧ ((rdy.rails.vaon = true) ∧ (rdy.clearing = false) ∧ (bitsOf 0 24 1 % 4 = 0) ∧ (rdy.accBusy = false) ∧ (bitAt 0 0 = false))
    ∧ ((rdy.rails.vaon = true) ∧ (rdy.clearing = false) ∧ (bitsOf w_a1.toNat 24 1 % 4 = 0) ∧ (rdy.accBusy = false) ∧ (bitAt w_a1.toNat 0 = true))
    ∧ ((rdy.rails.vaon = true) ∧ (rdy.clearing = false))
    ∧ ((rdy.rails.vaon = true) ∧ (rdy.clearing = false))
    ∧ ((cl1.clearing = true) ∧ (cl1.rails.vaon = true) ∧ (cl1.rails.vcore = true)) :=
  by and_intros <;> decide +kernel
end TestAccess

namespace TagIsFresh
def full : State := { rdy with fox := { rdy.fox with outs := List.replicate 65536 (q 1 1 .gone) } }
def w_s1 : State := (eg [q 1 0 .gone, q 1 1 .gone, q 1 2 .gone, q 1 0xFFFF .gone] rdy)
/-- States and operands that meet the hypotheses of `TagIsFresh`, clause by clause. -/
theorem witness :
    ((w_s1.fox.outs.length < 65536))
    ∧ ((rdy.fox.outs.length < 65536))
    ∧ ((65536 ≤ full.fox.outs.length)) :=
  by and_intros <;> decide +kernel
end TagIsFresh

namespace SharedCellsKept
def blo (o : Nat) : Blk × Nat := (blkOf o).getD (.glb, 0)
def de (o : Nat) : RegDesc := match descOf o with | some d => d | none => { off := 0, dims := [], flds := [], reset := 0, cls := .counter, pair := false }
def many : State := (rdy.sets ((List.range 32).map fun k => (PORT_ROLE_ROLE k, 4))).sets [(MARL_PART_BUF_BANKS, 2)]
def m2 : State := (many.setReg MARL_BUF_CFG.off 0x01002053)
def w_a1 : BitVec 24 := BitVec.ofNat 24 (PORT_CRED_INIT 31 3).off
def w_a2 : Blk := (blo (PORT_CRED_INIT 31 3).off).1
def w_n1 : Nat := (blo (PORT_CRED_INIT 31 3).off).2
def w_a3 : RegDesc := de (PORT_CRED_INIT 31 3).off
/-- States and operands that meet the hypotheses of `SharedCellsKept`, clause by clause. -/
theorem witness :
    ((w_a1.toNat = MARL_PART.off ∨ w_a1.toNat = MARL_BUF_CFG.off ∨ (∃ p, p < 32 ∧ w_a1.toNat = (PORT_ROLE p).off) ∨ ∃ p, p < 32 ∧ ∃ vc, vc < 5 ∧ w_a1.toNat = (PORT_CRED_INIT p vc).off) ∧ (blkOf w_a1.toNat = some (w_a2, w_n1)) ∧ (descOf w_a1.toNat = some w_a3) ∧ (3840 &&& fieldMask w_a3 = 3840) ∧ (m2.rsvdValue w_a2 w_a1.toNat w_n1 3840 = false) ∧ (m2.pathUp Path.mreg = true) ∧ (Path.mreg = Path.mreg ∨ m2.pathLimited = false) ∧ (m2.calm = true) ∧ ((m2.setReg w_a1.toNat 3840).bufCells < (m2.setReg w_a1.toNat 3840).reservedCells + if m2.k48 = true then 8192 else 16384)) :=
  by decide +kernel
end SharedCellsKept

namespace RingControlLocked
def w_a1 : BitVec 24 := BitVec.ofNat 24 (RING_CTL 63).off
def w_s1 : State := (lk (host rdy)).brought (mw (RING_CTL 63).off 2)
def w_a2 : BitVec 24 := BitVec.ofNat 24 (RING_CTL 0).off
def w_s2 : State := lk (rgs 0 1 {} rdy)
def w_s3 : State := lk (rgs 0 2 {cplHeld := true} rdy)
/-- States and operands that meet the hypotheses of `RingControlLocked`, clause by clause. -/
theorem witness :
    ((w_a1.toNat = (RING_CTL 63).off) ∧ (4 = 0 ∨ 4 = 1 ∨ 4 = 2 ∨ 4 = 4) ∧ ((lk rdy).locked = true) ∧ ((lk rdy).pathUp Path.i3c = true) ∧ (Path.i3c = Path.mreg ∨ (lk rdy).pathLimited = false) ∧ ((lk rdy).calm = true) ∧ (Path.i3c = Path.mreg ∨ 63 ≠ 0))
    ∧ (((lk (host rdy)).mayEnter (mw (RING_CTL 63).off 2) = true) ∧ ((lk (host rdy)).brought (mw (RING_CTL 63).off 2) = w_s1) ∧ ((lk (host rdy)).acc.owed = []) ∧ (w_s1.mregRsps < 16) ∧ ((mw (RING_CTL 63).off 2).okForm = true) ∧ (w_s1.calm = true) ∧ (w_s1.regWindow (some (mw (RING_CTL 63).off 2).hdr) = true) ∧ (w_s1.locked = true) ∧ ((mw (RING_CTL 63).off 2).hdr.addr.toNat % 2 ^ 24 = (RING_CTL 63).off) ∧ (leAt (mw (RING_CTL 63).off 2).payload 0 4 = 0 ∨ leAt (mw (RING_CTL 63).off 2).payload 0 4 = 1 ∨ leAt (mw (RING_CTL 63).off 2).payload 0 4 = 2 ∨ leAt (mw (RING_CTL 63).off 2).payload 0 4 = 4))
    ∧ ((w_a2.toNat = (RING_CTL 0).off) ∧ (Path.i3c ≠ Path.mreg) ∧ ((lk rdy).takes Path.i3c Blk.ring = true) ∧ ((lk rdy).ringSt 0 = 0))
    ∧ ((w_a2.toNat = (RING_CTL 0).off) ∧ (Path.i3c ≠ Path.mreg) ∧ (w_s2.takes Path.i3c Blk.ring = true) ∧ (w_s2.ringSt 0 = 1) ∧ ((w_s2.ring 0).descs = []) ∧ ((w_s2.ring 0).cpls = []) ∧ ((w_s2.ring 0).cplBusy = 0))
    ∧ ((w_a2.toNat = (RING_CTL 0).off) ∧ (Path.jtag ≠ Path.mreg) ∧ (w_s3.takes Path.jtag Blk.ring = true) ∧ (w_s3.ringSt 0 = 2)) :=
  by and_intros <;> decide +kernel
end RingControlLocked

namespace GraveAtOnce
/-- States and operands that meet the hypotheses of `GraveAtOnce`, clause by clause. -/
theorem witness :
    ((causeOf (if rdy.variant = 150 then FltClass.d else FltClass.a) FltCause.trip 0 = (59, FltClass.g, 5)) ∧ (domListed 5 = true) ∧ (rdy.domOff 5 = false) ∧ (rdy.collects = true)) :=
  by decide +kernel
end GraveAtOnce

namespace StagingDisplaces
def evr (sev k : Nat) : EvRec := { typ := 3, sev := sev, opSec := 16, pwr := 1, rseq := 7, code := BitVec.ofNat 32 (k + 100), unit := 0, tail := List.replicate 1000 0, at_ := 0 }
def fq (a b : Nat) : State := { rdy with recd := { rdy.recd with staging := (List.range 16).map (fun k => .new (evr (if k % 2 = 0 then a else b) k)), rseq := 55 } }
def nr (sev : Nat) : EvRec := { typ := 0x44, sev := sev, opSec := 16, pwr := 1, rseq := 55, code := 3, unit := 4, tail := [], at_ := 0 }
/-- States and operands that meet the hypotheses of `StagingDisplaces`, clause by clause. -/
theorem witness :
    ((((fq 1 3).recd.freeze = Freeze.off) ∧ (2 < 4) ∧ (nr 2 = { typ := 68, sev := 2, opSec := (fq 1 3).recd.opSec, pwr := (fq 1 3).recd.pwr, rseq := (fq 1 3).recd.rseq, code := 3#32, unit := 4#32, tail := [], at_ := (fq 1 3).now }) ∧ (findFold (fq 1 3).now (nr 2) (fq 1 3).recd.staging = none) ∧ ((fq 1 3).logFold (nr 2) = none) ∧ (16384 < queueBytes (fq 1 3).recd.staging + recLen (nr 2)) ∧ ((fq 1 3).recd.staging[14]? = some (StageItem.new (evr 1 14))) ∧ ((evr 1 14).sev < 2)) ∧ ((∀ (j : Nat) (b : EvRec), 14 < j → (fq 1 3).recd.staging[j]? = some (StageItem.new b) → 2 ≤ b.sev)) ∧ ((queueBytes (fq 1 3).recd.staging + recLen (nr 2) ≤ 16384 + recLen (evr 1 14))))
    ∧ ((((fq 1 1).recd.freeze = Freeze.off) ∧ (0 < 4) ∧ (nr 0 = { typ := 68, sev := 0, opSec := (fq 1 1).recd.opSec, pwr := (fq 1 1).recd.pwr, rseq := (fq 1 1).recd.rseq, code := 3#32, unit := 4#32, tail := [], at_ := (fq 1 1).now }) ∧ (findFold (fq 1 1).now (nr 0) (fq 1 1).recd.staging = none) ∧ ((fq 1 1).logFold (nr 0) = none) ∧ (16384 < queueBytes (fq 1 1).recd.staging + recLen (nr 0))) ∧ ((∀ (i : Nat) (a : EvRec), (fq 1 1).recd.staging[i]? = some (StageItem.new a) → 0 ≤ a.sev))) :=
  ⟨⟨by decide +kernel, fun j b hj hb => of_decide_eq_true (queued_all (P := fun j b => decide (14 < j → 2 ≤ b.sev)) (by decide +kernel) j b hb) hj, by decide +kernel⟩,
   ⟨by decide +kernel, fun j b hb => of_decide_eq_true (queued_all (P := fun _ b => decide (0 ≤ b.sev)) (by decide +kernel) j b hb)⟩⟩
end StagingDisplaces

end Sys2Proof.Tests
end

section
/-! SUPPORT. The minimum of the shared pool (R214): each register that R214 names refuses a write that would leave too few shared
cells, and a write refused with STATE (R487) changes the path's status and one violation counter alone. -/

namespace Sys2Proof.Proofs

open Sys2Proof.Machine Sys2Proof.Laws

variable {s t : State} {via : Path} {b : Blk} {d : RegDesc} {off o v p vc : Nat}

/-! ## The violation counters -/

/-- A counted violation adds 1 to its counter, modulo 2^32 (R467). -/
@[simp] theorem reg_viol_same (k : Viol) : (s.viol off k).reg (violReg off k) = (s.reg (violReg off k) + 1) % 2 ^ 32 := by
  simp [State.viol, wrap32]

theorem reg_viol_ne {k : Viol} (h : o ≠ violReg off k) : (s.viol off k).reg o = s.reg o := reg_setReg_ne s h _

@[simp] theorem viol_calm (k : Viol) : (s.viol off k).calm = s.calm := calm_of rfl rfl

/-! ## A write refused with STATE (R487) -/

/-- On a calm state a write of a path that is neither held nor limited shows the status that the register target gives it. -/
theorem pathWrite_answered {st : BitVec 8} (hu : s.pathUp via = true) (hl : via = .mreg ∨ s.pathLimited = false) (hm : s.mapHeld off = false)
    (hr : s.regWrite via none off v = (some st, t)) (hc : t.calm = true) : s.pathWrite via off v = t.pathStatus via st := by
  have hlim : (via != .mreg && s.pathLimited) = false := by
    rcases hl with rfl | h
    · rfl
    · simp [h]
  simp [State.pathWrite, hu, hm, hlim, hr, settle_calm, hc]

/-- A legal word that the register's own rule refuses with STATE is so refused by the register target: the checks that come before
the rule (R66, R463, R465) give the same answer. -/
theorem regWrite_state (hb : blkOf off = some (b, o)) (hd : descOf off = some d) (hv : v &&& fieldMask d = v) (hr : s.rsvdValue b off o v = false)
    (hw : writesNothing off d = false) (hn : off ≠ FLT_ACK.off) (hn' : off ≠ FLT_INJ.off)
    (ha : s.applyWrite via b off o v d = (some stSTATE, s.viol off .state)) :
    s.regWrite via none off v = (some stSTATE, s.viol off .state) := by
  simp only [State.regWrite, hb, hd]
  by_cases hg : ((!ownTime off via && !s.blockOpen b) || (s.locked && (allRwl d || lockedOut off)) || s.unitGone b o) = true
  · simp [hv, hr, hw, hg, State.regWindow]
  · simp [hv, hr, hw, hg, State.regWindow, ha, State.noteResult, hn, hn']

/-- What a write refused with STATE leaves: the path's status, one count, and nothing else. -/
theorem refusedState_frame (via : Path) (off : Nat) (s : State) :
    ((s.viol off .state).pathStatus via stSTATE).acc = (s.pathStatus via stSTATE).acc
    ∧ ((s.viol off .state).pathStatus via stSTATE).reg (violReg off .state) = (s.reg (violReg off .state) + 1) % 2 ^ 32
    ∧ regsBut [violReg off .state] s ((s.viol off .state).pathStatus via stSTATE)
    ∧ only [.acc, .regs] s ((s.viol off .state).pathStatus via stSTATE) := by
  refine ⟨pathStatus_acc via _ rfl, by simp, fun o ho => ?_, fun q hq => ?_⟩
  · rw [pathStatus_reg, reg_viol_ne (by simpa using ho)]
  · rw [pathStatus_eq]
    cases q
    case acc | regs => simp at hq
    all_goals rfl

/-! ## The registers of R214 -/

/-- The registers whose writes R214 judges: MARL_PART, MARL_BUF_CFG, PORT_ROLE and PORT_CRED_INIT. -/
def poolReg (off : Nat) : Prop :=
  off = MARL_PART.off ∨ off = MARL_BUF_CFG.off ∨ (∃ p < 32, off = (PORT_ROLE p).off) ∨ (∃ p < 32, ∃ vc < 5, off = (PORT_CRED_INIT p vc).off)

theorem blkOf_PORT_ROLE (hp : p < 32) : blkOf (PORT_ROLE p).off = some (.port, 0x800 * p) := by
  simp only [blkOf, PORT_ROLE]
  grind

theorem blkOf_PORT_CRED_INIT (hp : p < 32) (hvc : vc < 5) : blkOf (PORT_CRED_INIT p vc).off = some (.port, 0x800 * p + 0x210 + 4 * vc) := by
  simp only [blkOf, PORT_CRED_INIT]
  grind

/-- They lie in the blocks PORT and MARL, so neither in GLB nor in FLT. -/
theorem poolReg_range (h : poolReg off) : 0x10000 ≤ off := by
  obtain rfl | rfl | ⟨p, hp, rfl⟩ | ⟨p, hp, vc, hvc, rfl⟩ := h
  · decide
  · decide
  · simp only [PORT_ROLE]; omega
  · simp only [PORT_CRED_INIT]; omega

/-- The registers of R214 have fields that a write changes. -/
theorem poolReg_desc (h : poolReg off) : (descOf off).all (fun d => !writesNothing off d) = true := by
  obtain rfl | rfl | ⟨p, hp, rfl⟩ | ⟨p, hp, vc, hvc, rfl⟩ := h
  · decide +kernel
  · decide +kernel
  · revert p; decide +kernel
  · revert p vc; decide +kernel

theorem poolReg_writable (h : poolReg off) (hd : descOf off = some d) : writesNothing off d = false := by
  simpa [hd] using poolReg_desc h

/-! ## What the rules of these registers do -/

theorem partWrite_poolShort (h : (s.setReg MARL_PART.off v).poolOk = false) : s.partWrite v = (stSTATE, s.viol MARL_PART.off .state) := by
  simp [State.partWrite, h]

theorem bufCfgWrite_poolShort (h : (s.setReg MARL_BUF_CFG.off v).poolOk = false) : s.bufCfgWrite v = (stSTATE, s.viol MARL_BUF_CFG.off .state) := by
  simp [State.bufCfgWrite, h]

theorem roleWrite_poolShort (h : (s.setReg (PORT_ROLE p).off v).poolOk = false) : s.roleWrite p v = (stSTATE, s.viol (PORT_ROLE p).off .state) := by
  simp [State.roleWrite, h]

theorem credWrite_poolShort (h : (s.setReg (PORT_CRED_INIT p vc).off v).poolOk = false) :
    s.credWrite p vc v = (stSTATE, s.viol (PORT_CRED_INIT p vc).off .state) := by
  simp [State.credWrite, h]

theorem applyWrite_PORT_ROLE (off p : Nat) : s.applyWrite via .port off (0x800 * p) v d = atOnce (s.roleWrite p v) := by
  have hm : 0x800 * p % 0x800 = 0 := by omega
  have hq : 0x800 * p / 0x800 = p := by omega
  simp [State.applyWrite, hm, hq]

theorem applyWrite_PORT_CRED_INIT (off p : Nat) (hvc : vc < 5) :
    s.applyWrite via .port off (0x800 * p + 0x210 + 4 * vc) v d = atOnce (s.credWrite p vc v) := by
  have hm : (0x800 * p + 0x210 + 4 * vc) % 0x800 = 0x210 + 4 * vc := by omega
  have hq : (0x800 * p + 0x210 + 4 * vc) / 0x800 = p := by omega
  have hi : (0x210 + 4 * vc - 0x210) / 4 = vc := by omega
  simp only [State.applyWrite, hm, hq]
  split
  case h_5 => rw [hi]
  all_goals omega

/-- The rule of each of these registers discards a write that would leave too few shared cells (R214). -/
theorem applyWrite_poolShort (h : poolReg off) (hb : blkOf off = some (b, o)) (hp : (s.setReg off v).poolOk = false) :
    s.applyWrite via b off o v d = (some stSTATE, s.viol off .state) := by
  obtain rfl | rfl | ⟨p, hp32, rfl⟩ | ⟨p, hp32, vc, hvc, rfl⟩ := h
  · obtain ⟨rfl, rfl⟩ : Blk.marl = b ∧ 0 = o := by simpa [blkOf, MARL_PART] using hb
    simp [State.applyWrite, partWrite_poolShort hp, atOnce]
  · obtain ⟨rfl, rfl⟩ : Blk.marl = b ∧ 0x10 = o := by simpa [blkOf, MARL_BUF_CFG] using hb
    simp [State.applyWrite, bufCfgWrite_poolShort hp, atOnce]
  · obtain ⟨rfl, rfl⟩ : Blk.port = b ∧ 0x800 * p = o := by simpa [blkOf_PORT_ROLE hp32] using hb
    rw [applyWrite_PORT_ROLE, roleWrite_poolShort hp, atOnce]
  · obtain ⟨rfl, rfl⟩ : Blk.port = b ∧ 0x800 * p + 0x210 + 4 * vc = o := by simpa [blkOf_PORT_CRED_INIT hp32 hvc] using hb
    rw [applyWrite_PORT_CRED_INIT _ _ hvc, credWrite_poolShort hp, atOnce]

/-- A legal write of one of these registers that would leave too few shared cells is answered STATE and counted, and the register
keeps its value (R214). -/
theorem pathWrite_poolShort (h : poolReg off) (hb : blkOf off = some (b, o)) (hd : descOf off = some d) (hv : v &&& fieldMask d = v)
    (hr : s.rsvdValue b off o v = false) (hu : s.pathUp via = true) (hl : via = .mreg ∨ s.pathLimited = false) (hc : s.calm = true)
    (hp : (s.setReg off v).poolOk = false) : s.pathWrite via off v = (s.viol off .state).pathStatus via stSTATE := by
  have hge := poolReg_range h
  have hne : ∀ x, x < 0x10000 → off ≠ x := by omega
  have hm : s.mapHeld off = false := by simp [State.mapHeld, hne GLB_MEM_CFG.off (by decide)]
  have hreg : s.regWrite via none off v = (some stSTATE, s.viol off .state) :=
    regWrite_state hb hd hv hr (poolReg_writable h hd) (hne _ (by decide)) (hne _ (by decide)) (applyWrite_poolShort h hb hp)
  exact pathWrite_answered hu hl hm hreg (by rwa [viol_calm])

/-- Settles O57: R214 is judged by the rule of each of the four registers, and every check that comes before the rule gives the same
answer; the frame is that of any write refused with STATE. -/
theorem sharedCellsKept : Obligations.SharedCellsKept := by
  intro via off v b o d s h hb hd hv hr hu hl hc hlt
  have hp : (s.setReg off.toNat v.toNat).poolOk = false := by
    rw [State.poolOk, decide_eq_false_iff_not, Nat.not_le]
    exact hlt
  exact ⟨_, congrArg Host.Outcome.next (pathWrite_poolShort h hb hd hv hr hu hl hc hp), refusedState_frame via off.toNat s⟩

end Sys2Proof.Proofs
end

section
/-! SUPPORT. RING_CTL after GLB_LOCK (R298): the rule of the register refuses it, over a path and in an MREG_WR, but for ring 0 over the
sideband and JTAG, where ENABLE, RESET and RESUME act (R297, R299, R312). The layers: which parts of the state an operation changes, that no
routing decision rests on the registers of block RING, what sending a packet changes, and the operations of a ring. -/

namespace Sys2Proof.Proofs

open Sys2Proof.Machine Sys2Proof.Laws

variable {s t u : State} {via : Path} {l : List Part} {d : RegDesc} {off o n v : Nat}

/-! ## The parts that an operation changes -/

theorem agree_refl (q : Part) (s : State) : agree q s s := by cases q <;> rfl

theorem agree_trans {q : Part} (h : agree q s t) (h' : agree q t u) : agree q s u := by
  cases q <;> exact Eq.trans h' h

theorem only_refl (l : List Part) (s : State) : only l s s := fun q _ => agree_refl q s

theorem only_trans (h : only l s t) (h' : only l t u) : only l s u := fun q hq => agree_trans (h q hq) (h' q hq)

theorem only_mono {k : List Part} (hk : k ⊆ l) (h : only k s t) : only l s t := fun q hq => h q fun hm => hq (hk hm)

theorem only_regs (r : List (Nat × BitVec 32)) : only [.regs] s { s with regs := r } := fun q hq => by
  cases q
  case regs => simp at hq
  all_goals rfl

theorem only_rings (r : List (Nat × Ring)) : only [.rings] s { s with rings := r } := fun q hq => by
  cases q
  case rings => simp at hq
  all_goals rfl

theorem only_fox (x : FoxSt) : only [.fox] s { s with fox := x } := fun q hq => by
  cases q
  case fox => simp at hq
  all_goals rfl

theorem only_sw (x : SwitchSt) : only [.sw] s { s with sw := x } := fun q hq => by
  cases q
  case sw => simp at hq
  all_goals rfl

theorem only_acc (x : AccSt) : only [.acc] s { s with acc := x } := fun q hq => by
  cases q
  case acc => simp at hq
  all_goals rfl

theorem only_set (f : Fld) (v : Nat) : only [.regs] s (s.set f v) := only_regs _

theorem only_sets (fs : List (Fld × Nat)) : only [.regs] s (s.sets fs) := by rw [sets_eq]; exact only_regs _

theorem only_when {b : Bool} {f : State → State} (h : ∀ x, only l x (f x)) : only l s (s.when b f) := by
  cases b
  · exact only_refl l s
  · exact h s

/-- What every step of a run over a list keeps, the run keeps. -/
theorem each_keeps {α : Type} {P : State → Prop} {xs : List α} {f : State → α → State} (h : P s) (hf : ∀ x a, P x → P (f x a)) : P (s.each xs f) := by
  induction xs generalizing s with
  | nil => exact h
  | cons a xs ih => exact ih (hf s a h)

theorem only_each {α : Type} {xs : List α} {f : State → α → State} (h : ∀ x a, only l x (f x a)) : only l s (s.each xs f) :=
  each_keeps (only_refl l s) fun x a hx => only_trans hx (h x a)

/-! ## Routing reads no register of block RING -/

/-- The two states have the same variant, and the same registers outside block RING. -/
structure AlikeButRing (s t : State) : Prop where
  fuse : t.fuse = s.fuse
  reg : ∀ o, o < 0x8000 ∨ 0xC000 ≤ o → t.reg o = s.reg o

namespace AlikeButRing

variable (h : AlikeButRing s t) (p m : Nat)

include h

theorem nPorts : t.nPorts = s.nPorts := by rw [State.nPorts, State.nPorts, State.variant, State.variant, h.fuse]

theorem did : t.did = s.did := by simp (disch := omega) only [State.did, State.fld, GLB_DID_DID, h.reg]

theorem eid : t.eid = s.eid := by simp only [State.eid, h.did]

theorem nLinks : t.nLinks p = s.nLinks p := by simp (disch := omega) only [State.nLinks, State.fld, PORT_LINK_CFG_SPLIT, h.reg]

theorem lst : t.lst p m = s.lst p m := by simp (disch := omega) only [State.lst, State.fld, PORT_LINK_STATUS_STATE, h.reg]

theorem role : t.role p = s.role p := by simp (disch := omega) only [State.role, h.nPorts, State.fld, PORT_ROLE_ROLE, h.reg]

theorem dir : t.fld (PORT_CFG_DIR p) = s.fld (PORT_CFG_DIR p) := by simp (disch := omega) only [State.fld, PORT_CFG_DIR, h.reg]

theorem members : t.members p = s.members p := by
  simp (disch := omega) only [State.members, h.did, State.fld, RT_MEMBERS_MASK, h.reg]

theorem partnerFits : t.partnerFits p m = s.partnerFits p m := by
  simp (disch := omega) only [State.partnerFits, h.role, h.did, h.members, State.fld, PORT_NEIGH_ID_KIND, PORT_NEIGH_ID_DID, PORT_NEIGH_ID_ROLE, h.reg]

theorem consistent : t.consistent p = s.consistent p := by simp only [State.consistent, h.role, h.dir]

theorem admits0 : t.admits0 p m = s.admits0 p m := by
  simp (disch := omega) only [State.admits0, h.consistent, h.nLinks, h.partnerFits, h.role, State.on, State.fld, PORT_NEIGH_ID_VALID,
    PORT_NEIGH_ID_ECHO_OK, h.reg]

theorem firstAdmitted : t.firstAdmitted p = s.firstAdmitted p := by simp only [State.firstAdmitted, h.nLinks, h.admits0]

theorem admitted : t.admitted p m = s.admitted p m := by
  simp (disch := omega) only [State.admitted, h.admits0, h.firstAdmitted, State.fld, PORT_NEIGH_ID_DID, PORT_NEIGH_ID_KIND, h.reg]

theorem usable : t.usable p = s.usable p := by simp only [State.usable, State.goodLinks, h.nLinks, h.admitted, h.lst]

theorem partnerField : t.partnerField p = s.partnerField p := by
  simp (disch := omega) only [State.partnerField, h.firstAdmitted, h.role, State.fld, PORT_NEIGH_ID_DID, h.reg]

theorem skipMask : t.skipMask p = s.skipMask p := by simp only [State.skipMask, h.role, h.partnerField, h.did, h.dir]

theorem dateline : t.dateline p = s.dateline p := by
  have hdl : t.fld (PORT_CFG_DL_MODE p) = s.fld (PORT_CFG_DL_MODE p) := by simp (disch := omega) only [State.fld, PORT_CFG_DL_MODE, h.reg]
  simp only [State.dateline, h.role, h.partnerField, h.did, h.dir, hdl]

theorem routeForward (q : Packet) (x k : Nat) (reset : Bool) : t.routeForward q x k reset = s.routeForward q x k reset := by
  simp only [State.routeForward, h.usable, h.skipMask, h.dateline]

/-- The fields of an entry of a routing table (R160) lie in block RT. -/
theorem routeEntry (dim k : Nat) :
    t.on (rtValid dim k) = s.on (rtValid dim k) ∧ t.fld (rtDir dim k) = s.fld (rtDir dim k) ∧ t.fld (rtPairs dim k) = s.fld (rtPairs dim k) := by
  unfold rtValid rtDir rtPairs
  split
  · simp (disch := omega) only [State.on, State.fld, RT_POD_VALID, RT_POD_DIR, RT_POD_PAIRS, h.reg, and_self]
  · split
    · simp (disch := omega) only [State.on, State.fld, RT_RING_VALID, RT_RING_DIR, RT_RING_PAIRS, h.reg, and_self]
    · simp (disch := omega) only [State.on, State.fld, RT_POS_VALID, RT_POS_DIR, RT_POS_PAIRS, h.reg, and_self]

theorem routeEnter (q : Packet) (dim k : Nat) : t.routeEnter q dim k = s.routeEnter q dim k := by
  obtain ⟨hv, hd, hp⟩ := h.routeEntry dim k
  simp only [State.routeEnter, State.dirPorts, hv, hd, hp, h.members, h.dir, h.usable, h.skipMask, h.routeForward] <;> rfl

theorem routeDims (q : Packet) (inp : Option Nat) (ds : List Nat) : t.routeDims q inp ds = s.routeDims q inp ds := by
  induction ds with
  | nil => rfl
  | cons dim ds ih => simp only [State.routeDims, h.did, h.role, h.routeForward, h.routeEnter, ih]

/-- The routing decision (R161) is the same in both states. -/
theorem route (q : Packet) (inp : Option Nat) : t.route q inp = s.route q inp := by
  simp (disch := omega) only [State.route, h.routeDims, h.role, h.usable, State.fld, RT_CFG_HOP_LIMIT, h.reg] <;> rfl

end AlikeButRing

/-- A counted violation of block RING and a path's status leave what routing rests on. -/
theorem AlikeButRing.viol_pathStatus (k : Viol) (hr : 0x8000 ≤ violReg off k ∧ violReg off k < 0xC000) (via : Path) (st : BitVec 8) :
    AlikeButRing s ((s.viol off k).pathStatus via st) :=
  ⟨by cases via <;> rfl, fun o ho => by rw [pathStatus_reg, reg_viol_ne (by omega)]⟩

/-! ## Sending a packet -/

/-- Placing cells counts them in the switch and changes nothing else. -/
theorem placeCells_only (s : State) (cs : List (Option Nat)) :
    ∃ k, (s.placeCells cs).2 = { s with sw := { s.sw with placed := k } } := by
  induction cs using List.reverseRecOn with
  | nil => exact ⟨s.sw.placed, rfl⟩
  | append_singleton cs c ih =>
    obtain ⟨k, hk⟩ := ih
    exact ⟨k + 1, by simp only [State.placeCells, List.foldl_append, List.foldl] at hk ⊢; rw [hk]⟩

/-- A packet that joins an egress account stands last there, with the cells that hold it. -/
theorem addOut_eq (s : State) (x : OutPkt) :
    ∃ held k, s.addOut x = { s with sw := { s.sw with egress := s.sw.egress ++ [{ x with held := held }], placed := k } } := by
  unfold State.addOut
  cases x.held.isEmpty with
  | false => exact ⟨x.held, s.sw.placed, rfl⟩
  | true =>
    obtain ⟨k, hk⟩ := placeCells_only s (s.cellLines x.pkt)
    exact ⟨(s.placeCells (s.cellLines x.pkt)).1, k, by simp [hk]⟩

theorem addIn_only (s : State) (x : InPkt) : ∃ w, s.addIn x = { s with sw := w } := by
  unfold State.addIn
  cases x.held.isEmpty with
  | false => exact ⟨_, rfl⟩
  | true =>
    obtain ⟨k, hk⟩ := placeCells_only s (s.cellLines x.pkt)
    exact ⟨{ s.sw with placed := k, ingress := s.sw.ingress ++ [{ x with held := (s.placeCells (s.cellLines x.pkt)).1 }] }, by simp [hk]⟩

/-- Placing a packet of the stack's own changes the switch alone. -/
theorem place_only (s : State) (q : Packet) (held : List Nat) : ∃ w, (s.place q held).1 = { s with sw := w } := by
  have hout : ∀ x, ∃ w, s.addOut x = { s with sw := w } := fun x =>
    let ⟨_, _, h⟩ := addOut_eq s x
    ⟨_, h⟩
  unfold State.place
  split
  case h_1 => exact hout _
  case h_2 =>
    split
    · exact ⟨s.sw, rfl⟩
    · exact hout _
  case h_3 => exact addIn_only s _
  case h_4 => exact ⟨s.sw, rfl⟩

/-- A response of the stack's own changes the switch, and RT_DROP where it is discarded (R165). -/
theorem emitRsp_frame (s : State) (q : Packet) : only [.sw, .regs] s (s.emitRsp q) ∧ regsBut [RT_DROP.off] s (s.emitRsp q) := by
  obtain ⟨w, hw⟩ := place_only s q []
  unfold State.emitRsp
  split
  next x heq =>
    obtain rfl : { s with sw := w } = x := by rw [← hw, heq]
    exact ⟨only_mono (by simp) (only_sw w), fun o _ => rfl⟩
  next x e heq =>
    obtain rfl : { s with sw := w } = x := by rw [← hw, heq]
    exact ⟨only_trans (only_mono (by simp) (only_sw w)) (only_mono (by simp) (only_set RT_DROP _)),
      fun o ho => reg_set_ne _ (by simpa using ho) _⟩

/-- A response that its route sends joins the egress account of that route (R161). -/
theorem emitRsp_sends (s : State) (q : Packet) : sends s (s.emitRsp q) q := by
  intro port r en hr
  obtain ⟨held, k, h⟩ := addOut_eq s { inPort := none, port := port, vc := r.hdr.vc, pkt := r, cells := r.flits, held := [], at_ := s.now, waiting := none, enters := en }
  refine ⟨held, ?_⟩
  simp [State.emitRsp, State.place, hr, h]

/-- Sending from a state that routes alike and has the same switch and clock. -/
theorem sends_of_alike {q : Packet} (h : AlikeButRing s t) (hsw : t.sw = s.sw) (hnow : t.now = s.now) (hs : sends t u q) : sends s u q := by
  intro port r en hr
  rw [← hsw, ← hnow]
  exact hs port r en (by rw [h.route, hr])

/-! ## The register RING_CTL (Table 14.8) -/

/-- The row of RING_CTL in the register map. -/
def ringCtlDesc : RegDesc := ⟨0x1024, [(64, 0x40)], [(2, 2, .wo), (1, 1, .wo), (0, 0, .wo)], 0, .setting, false⟩

/-- The words that R9 lets be written to RING_CTL: no command, or one of ENABLE, RESET and RESUME. -/
def ringCtlWord (v : Nat) : Prop := v = 0 ∨ v = 1 ∨ v = 2 ∨ v = 4

theorem descOf_RING_CTL (hn : n < 64) : descOf (RING_CTL n).off = some ringCtlDesc := by
  revert n; decide +kernel

theorem blkOf_RING_CTL (hn : n < 64) : blkOf (RING_CTL n).off = some (.ring, 0x1024 + 0x40 * n) := by
  simp only [blkOf, RING_CTL]
  grind

theorem violReg_RING_CTL (hn : n < 64) : violReg (RING_CTL n).off .state = RING_CNT_VIOL_STATE.off := by
  simp only [violReg, blkOf_RING_CTL hn]
  simp only [RING_CTL, RING_CNT_VIOL_STATE, violOff]
  omega

theorem RING_CTL_range (hn : n < 64) : 0x8000 ≤ (RING_CTL n).off ∧ (RING_CTL n).off < 0xC000 := by
  simp only [RING_CTL]; omega

theorem RING_CTL_writable (hn : n < 64) : writesNothing (RING_CTL n).off ringCtlDesc = false := by
  have : (RING_CTL n).off ≠ (FOX_RING_MAP_EARTHS 0).off := by simp only [RING_CTL, FOX_RING_MAP_EARTHS]; omega
  simp [writesNothing, this, show allRo ringCtlDesc = false by decide]

/-- GLB_LOCK does not take RING_CTL away as a whole (Table 22.3). -/
theorem RING_CTL_notLockedOut (hn : n < 64) : lockedOut (RING_CTL n).off = false := by
  revert n; decide +kernel

theorem ringCtlWord_mask (hv : ringCtlWord v) : v &&& fieldMask ringCtlDesc = v := by
  obtain rfl | rfl | rfl | rfl := hv <;> decide

theorem ringCtlWord_legal (hv : ringCtlWord v) : s.rsvdValue .ring off (0x1024 + 0x40 * n) v = false := by
  have h0 : ¬ 0x1024 + 0x40 * n < 0x1000 := by omega
  have h1 : ¬ (0x1024 + 0x40 * n) % 0x40 = 0x20 := by omega
  have h2 : popN 3 v ≤ 1 := by obtain rfl | rfl | rfl | rfl := hv <;> decide
  simp only [State.rsvdValue, if_neg h0, if_neg h1, decide_eq_false (Nat.not_lt.mpr h2), Bool.and_false]

theorem applyWrite_RING_CTL : s.applyWrite via .ring off (0x1024 + 0x40 * n) v d = atOnce (s.ringCtlWrite via n v) := by
  have hm : (0x1024 + 0x40 * n) % 0x40 = 0x24 := by omega
  have hi : (0x1024 + 0x40 * n - 0x1000) / 0x40 = n := by omega
  simp only [State.applyWrite, if_pos hm, hi]

theorem mapHeld_of_ne (h : off ≠ GLB_MEM_CFG.off) : s.mapHeld off = false := by simp [State.mapHeld, h]

/-! ## RING_CTL after GLB_LOCK: refused (R298) -/

theorem ringCtlWrite_locked (hl : s.locked = true) (hp : via = .mreg ∨ n ≠ 0) :
    s.ringCtlWrite via n v = (stSTATE, s.viol (RING_CTL n).off .state) := by
  have hno : (n == 0 && via != .mreg) = false := by
    rcases hp with rfl | h
    · simp
    · simp [h]
  simp [State.ringCtlWrite, hl, hno]

/-- A request that passes the register window is judged like a write that carries no packet. -/
theorem regWrite_of_window {hdr : Option Hdr} (h : s.regWindow hdr = true) : s.regWrite via hdr off v = s.regWrite via none off v := by
  have h' : s.regWindow none = true := rfl
  simp only [State.regWrite, h, h']

theorem regWrite_RING_CTL_locked (hn : n < 64) (hv : ringCtlWord v) (hl : s.locked = true) (hp : via = .mreg ∨ n ≠ 0) :
    s.regWrite via none (RING_CTL n).off v = (some stSTATE, s.viol (RING_CTL n).off .state) := by
  have hr := RING_CTL_range hn
  have hne : ∀ x, x < 0x8000 → (RING_CTL n).off ≠ x := by omega
  have ha : s.applyWrite via .ring (RING_CTL n).off (0x1024 + 0x40 * n) v ringCtlDesc = (some stSTATE, s.viol (RING_CTL n).off .state) := by
    rw [applyWrite_RING_CTL, ringCtlWrite_locked hl hp, atOnce]
  exact regWrite_state (blkOf_RING_CTL hn) (descOf_RING_CTL hn) (ringCtlWord_mask hv) (ringCtlWord_legal hv) (RING_CTL_writable hn) (hne _ (by decide)) (hne _ (by decide)) ha

/-- A violation counted for RING_CTL adds 1 to the counter of the block. -/
theorem fld_viol_RING_CTL (hn : n < 64) :
    (s.viol (RING_CTL n).off .state).fld RING_CNT_VIOL_STATE = (s.fld RING_CNT_VIOL_STATE + 1) % 2 ^ 32 := by
  have hword : ∀ x : State, x.fld RING_CNT_VIOL_STATE = x.reg RING_CNT_VIOL_STATE.off := fun x => bitsOf_word (reg_lt x _)
  have h := reg_viol_same (s := s) (off := (RING_CTL n).off) .state
  rw [violReg_RING_CTL hn] at h
  rw [hword, hword, h]

/-! ## An MREG_WR that the stack takes (R205, R206) -/

theorem reg_activity (h : o ≠ GLB_PWR_STATUS_STATE.off) : s.activity.reg o = s.reg o := by
  have ht : o ≠ GLB_PWR_STATUS_TARGET.off := h
  have hpwr : ∀ (x : State) (w : PwrSt), ({ x with pwr := w } : State).reg o = x.reg o := fun _ _ => rfl
  unfold State.activity
  dsimp only
  split <;> split
  · rw [reg_set_ne _ ht, hpwr, reg_set_ne _ h]
  · rw [reg_set_ne _ h]
  · rw [reg_set_ne _ ht, hpwr]
  · rfl

@[simp] theorem takeIn_reg (k : Nat) : (s.takeIn k).reg o = s.reg o := by
  unfold State.takeIn State.when State.freeIn
  split
  · rfl
  · split <;> split <;> rfl

theorem withLocal_only (s : State) (p : Packet) : ∃ w, (s.withLocal p).1 = { s with sw := w } := by
  unfold State.withLocal
  split
  · exact ⟨s.sw, rfl⟩
  · exact addIn_only s { port := ownPort, link := 8, vc := p.hdr.vc, pkt := p, cells := p.flits, at_ := s.now }

/-- Taking a packet out of the switch leaves the stack's EID. -/
theorem brought_eid (s : State) (p : Packet) : (s.brought p).eid = s.eid := by
  obtain ⟨w, hw⟩ := withLocal_only s p
  have h : (s.brought p).reg GLB_DID_DID.off = s.reg GLB_DID_DID.off := by
    rw [State.brought, reg_activity (by decide), takeIn_reg, hw]
    rfl
  simp only [State.eid, State.did, State.fld, h]

/-- The register target takes the packet that is its next, of good form, with room in its queue and no answer owed, unless a column
holds writes that a new memory map must wait for. -/
theorem mregTake_of_mayEnter {p : Packet} (f : State → State) (hin : s.mayEnter p = true) (howed : s.acc.owed = [])
    (hmap : p.hdr.addr.toNat % 2 ^ 24 ≠ GLB_MEM_CFG.off) (hroom : (s.brought p).mregRsps < 16) (hform : p.okForm = true) :
    s.mregTake p f = f (s.brought p) := by
  simp only [State.mayEnter, State.isNext, State.held, Bool.and_eq_true, Bool.not_eq_true'] at hin
  obtain ⟨hserves, hover, hgood⟩ := hin
  have howed' : (s.withLocal p).1.acc.owed = [] := by
    obtain ⟨w, hw⟩ := withLocal_only s p
    rw [hw]; exact howed
  have hroom' : ¬ 16 ≤ (s.brought p).mregRsps := by omega
  rw [State.brought] at hroom' ⊢
  simp [-Nat.reducePow, State.mregTake, hserves, hover, hgood, howed', mapHeld_of_ne hmap, hroom', hform]

theorem pathStatus_ring (via : Path) (st : BitVec 8) (m : Nat) : (s.pathStatus via st).ring m = s.ring m := by cases via <;> rfl

/-! ## RING_CTL in service: ENABLE, RESET and RESUME -/

@[simp] theorem setRing_fld (m : Nat) (r : Ring) (f : Fld) : (s.setRing m r).fld f = s.fld f := rfl
@[simp] theorem setRing_ring_same (m : Nat) (r : Ring) : (s.setRing m r).ring m = r := by simp [State.setRing, State.ring]

/-- The state of a ring just set (Table 14.9). -/
@[simp] theorem ringSt_set_same : (s.set (RING_STATUS_STATE n) v).ringSt n = v % 4 :=
  fld_set_same s (by decide : 30 ≤ 31) (by decide : 31 < 32) v

/-- A write of another register leaves the state of a ring. -/
theorem ringSt_set_ne {f : Fld} (h : f.off ≠ (RING_STATUS n).off) : (s.set f v).ringSt n = s.ringSt n :=
  fld_set_ne (g := RING_STATUS_STATE n) s h.symm v

@[simp] theorem ringSt_set_inflight (m : Nat) : (s.set (RING_STATUS_INFLIGHT m) v).ringSt n = s.ringSt n :=
  fld_set_disjoint s (by decide : 16 ≤ 21) (by decide : 21 < 32) (.inl (by decide : 21 < 30)) v
@[simp] theorem ringSt_set_haltCause (m : Nat) : (s.set (RING_STATUS_HALT_CAUSE m) v).ringSt n = s.ringSt n :=
  fld_set_disjoint s (by decide : 27 ≤ 29) (by decide : 29 < 32) (.inl (by decide : 29 < 30)) v
@[simp] theorem ringSt_set_haltStatus (m : Nat) : (s.set (RING_STATUS_HALT_STATUS m) v).ringSt n = s.ringSt n :=
  fld_set_disjoint s (by decide : 0 ≤ 7) (by decide : 7 < 32) (.inl (by decide : 7 < 30)) v
@[simp] theorem setRing_ringSt (m : Nat) (r : Ring) : (s.setRing m r).ringSt n = s.ringSt n := rfl
@[simp] theorem putRing_ringSt (m : Nat) (r : Ring) : (s.putRing m r).ringSt n = s.ringSt n := by simp [State.putRing]
@[simp] theorem putRing_ring_same (m : Nat) (r : Ring) : (s.putRing m r).ring m = r := by
  rw [State.putRing, set_ring_of, setRing_ring_same]

theorem only_setRing (m : Nat) (r : Ring) : only [.rings] s (s.setRing m r) := only_rings _

theorem only_putRing (m : Nat) (r : Ring) : only [.regs, .rings] s (s.putRing m r) :=
  only_trans (only_mono (by simp) (only_setRing m r)) (only_mono (by simp) (only_set _ _))

/-! ### ENABLE (R297) -/

theorem enableRing_only : only [.regs, .rings] s (s.enableRing n) :=
  only_trans (only_mono (by simp) (only_sets _)) (only_putRing _ _)

theorem enableRing_ring : (s.enableRing n).ring n = {} := by simp [State.enableRing]

theorem enableRing_ringSt : (s.enableRing n).ringSt n = 1 := by
  have hf : (RING_SQ_IDX n).off ≠ (RING_STATUS n).off := by simp only [RING_SQ_IDX, RING_STATUS]; omega
  have hk : (RING_SQ_PROD n).off ≠ (RING_STATUS n).off := by simp only [RING_SQ_PROD, RING_STATUS]; omega
  have ht : (RING_CQ_TAIL n).off ≠ (RING_STATUS n).off := by simp only [RING_CQ_TAIL, RING_STATUS]; omega
  simp [State.enableRing, ringSt_set_ne, hf, hk, ht]

theorem enableRing_fetchIndex : (s.enableRing n).fld (RING_SQ_IDX n) = 0 := by
  have hk : (RING_SQ_IDX n).off ≠ (RING_SQ_PROD n).off := by simp only [RING_SQ_IDX, RING_SQ_PROD]; omega
  have ht : (RING_SQ_IDX n).off ≠ (RING_CQ_TAIL n).off := by simp only [RING_SQ_IDX, RING_CQ_TAIL]; omega
  have hi : (RING_SQ_IDX n).off ≠ (RING_STATUS_INFLIGHT n).off := by simp only [RING_SQ_IDX, RING_STATUS_INFLIGHT]; omega
  rw [State.enableRing, State.putRing, fld_set_ne _ hi, setRing_fld, sets_cons, sets_cons, sets_cons, sets_cons, sets_nil, fld_set_ne _ ht,
    fld_set_ne _ hk, fld_set_same _ (by decide : 0 ≤ 31) (by decide : 31 < 32), Nat.zero_mod]

/-! ### RESET (R299) -/

/-- What the operations of a ring that send nothing may change. -/
def ringParts : List Part := [.regs, .rings, .fox]

theorem forsake_only (mine : Owner → Bool) : only ringParts s (s.forsake mine) := only_mono (by simp [ringParts]) (only_fox _)

theorem endReset_only : only ringParts s (s.endReset n) := by
  simp only [State.endReset]
  split
  · exact only_mono (by simp [ringParts]) (only_set _ _)
  · exact only_refl _ _

theorem putRing_ringParts (m : Nat) (r : Ring) : only ringParts s (s.putRing m r) := only_mono (by simp [ringParts]) (only_putRing m r)

theorem dropCpls_only (k : Nat) : only ringParts s (s.dropCpls n k) := only_trans (putRing_ringParts _ _) endReset_only

theorem showRing0_only (fs : List (Nat × BitVec 8)) : only ringParts s (s.showRing0 fs) :=
  only_trans (only_mono (by simp [ringParts]) (only_setRing _ _)) (only_mono (by simp [ringParts]) (only_sets _))

theorem finishDesc_only (job : Nat) (st : BitVec 8) (stage detail : Nat) (res : List (BitVec 8)) :
    only ringParts s (s.finishDesc n job st stage detail res) := by
  simp only [State.finishDesc]
  split
  · exact only_refl _ _
  · exact putRing_ringParts _ _

/-- The first step of a reset: the ring is RESETTING and its fetches are forgotten. -/
def resetBegun (s : State) (n : Nat) : State :=
  ((s.set (RING_STATUS_STATE n) 3).putRing n { s.ring n with fetching := 0, fetched := [], slots := [], rcbRead := none, cplHeld := false, cplKept := false }).orphan n

/-- Ring 0 drops the completion entries it keeps (R311). -/
def keptDropped (n : Nat) (r : Ring) (s : State) : State :=
  if n = 0 then (s.when r.cplKept fun x => (x.forsake (· == .cpl 0)).dropCpls 0 r.cpls.length).showRing0 [] else s

/-- The jobs of a ring that have not begun. -/
def readyJobs (s : State) (n : Nat) : List Nat := ((s.ring n).descs.filter fun d => d.st == .ready).map (·.job)

theorem resetRing_eq (s : State) (n : Nat) : s.resetRing n =
    ((keptDropped n (s.ring n) (resetBegun s n)).each (readyJobs (keptDropped n (s.ring n) (resetBegun s n)) n) fun x j => x.finishDesc n j 0x0C 0 0 []).endReset n :=
  rfl

theorem resetBegun_only : only ringParts s (resetBegun s n) :=
  only_trans (only_mono (by simp [ringParts]) (only_set _ _)) (only_trans (putRing_ringParts n _) (forsake_only _))

theorem keptDropped_only (r : Ring) : only ringParts s (keptDropped n r s) := by
  unfold keptDropped
  split
  · exact only_trans (only_when fun x => only_trans (forsake_only _) (dropCpls_only _)) (showRing0_only _)
  · exact only_refl _ _

theorem resetRing_only : only ringParts s (s.resetRing n) := by
  rw [resetRing_eq]
  exact only_trans (only_trans (only_trans resetBegun_only (keptDropped_only _)) (only_each fun x j => finishDesc_only j _ _ _ _)) endReset_only

@[simp] theorem forsake_ringSt (mine : Owner → Bool) : (s.forsake mine).ringSt n = s.ringSt n := rfl
@[simp] theorem forsake_ring (mine : Owner → Bool) (m : Nat) : (s.forsake mine).ring m = s.ring m := rfl
@[simp] theorem showRing0_ringSt (fs : List (Nat × BitVec 8)) : (s.showRing0 fs).ringSt n = s.ringSt n := by simp [State.showRing0]
theorem showRing0_ring (fs : List (Nat × BitVec 8)) : (s.showRing0 fs).ring 0 = { s.ring 0 with failing := fs } := by
  rw [State.ring, State.showRing0, sets_rings]
  exact mgetD_mput_same _ _ _ _

/-- A ring that is OFF, or in a reset with nothing left of it. -/
def Emptied (n : Nat) (s : State) : Prop := s.ringSt n = 0 ∨ s.ringSt n = 3 ∧ (s.ring n).descs = [] ∧ (s.ring n).cpls = []

/-- The reset of a ring of which nothing is left ends: the ring is OFF (R299 step 4). -/
theorem Emptied.endReset (h : Emptied n s) : (s.endReset n).ringSt n = 0 := by
  obtain h | ⟨h, hd, hc⟩ := h
  · simp [State.endReset, h]
  · simp [State.endReset, h, hd, hc]

theorem Emptied.finishDesc (h : Emptied n s) (job : Nat) (st : BitVec 8) (stage detail : Nat) (res : List (BitVec 8)) :
    Emptied n (s.finishDesc n job st stage detail res) := by
  obtain h | ⟨h, hd, hc⟩ := h
  · left
    simp only [State.finishDesc]
    split
    · exact h
    · rw [putRing_ringSt, h]
  · right
    simp [State.finishDesc, h, hd, hc]

theorem Emptied.dropCpls (h : Emptied n s) (k : Nat) : Emptied n (s.dropCpls n k) := by
  refine .inl (Emptied.endReset ?_)
  obtain h | ⟨h, hd, hc⟩ := h
  · exact .inl (by rw [putRing_ringSt, h])
  · exact .inr (by simp [h, hd, hc])

theorem Emptied.forsake (h : Emptied n s) (mine : Owner → Bool) : Emptied n (s.forsake mine) := h

theorem Emptied.showRing0 (h : Emptied 0 s) (fs : List (Nat × BitVec 8)) : Emptied 0 (s.showRing0 fs) := by
  unfold Emptied
  rwa [showRing0_ringSt, showRing0_ring]

theorem Emptied.keptDropped (h : Emptied n s) (r : Ring) : Emptied n (keptDropped n r s) := by
  unfold Proofs.keptDropped
  split
  next h0 =>
    subst h0
    refine Emptied.showRing0 ?_ _
    unfold State.when
    split
    · exact (h.forsake _).dropCpls _
    · exact h
  next => exact h

theorem resetBegun_emptied (hd : (s.ring n).descs = []) (hc : (s.ring n).cpls = []) : Emptied n (resetBegun s n) := by
  have hst : (resetBegun s n).ringSt n = 3 := by rw [resetBegun, State.orphan, forsake_ringSt, putRing_ringSt, ringSt_set_same]
  refine .inr ⟨hst, ?_⟩
  rw [resetBegun, State.orphan, forsake_ring, putRing_ring_same]
  exact ⟨hd, hc⟩

/-- A reset of a ring that holds no descriptor and no completion entry takes it OFF at once. -/
theorem resetRing_ringSt (hd : (s.ring n).descs = []) (hc : (s.ring n).cpls = []) : (s.resetRing n).ringSt n = 0 := by
  rw [resetRing_eq]
  exact (each_keeps ((resetBegun_emptied hd hc).keptDropped _) fun x j hx => hx.finishDesc j _ _ _ _).endReset

/-! ### RESUME (R312) -/

/-- A routing decision that fails does so in a counter outside block RING. -/
def FailsOutsideRing : Route → Prop
  | .fail _ c => c.off < 0x8000 ∨ 0xC000 ≤ c.off
  | _ => True

theorem routeForward_fails (q : Packet) (x k : Nat) (reset : Bool) : FailsOutsideRing (s.routeForward q x k reset) := by
  unfold State.routeForward
  split
  · trivial
  · split
    · exact .inr (by decide)
    · trivial

theorem routeEnter_fails (q : Packet) (dim k : Nat) : FailsOutsideRing (s.routeEnter q dim k) := by
  unfold State.routeEnter
  dsimp only
  split
  · exact .inr (by decide)
  · split
    · exact routeForward_fails _ _ _ _
    · trivial

theorem routeDims_fails {q : Packet} {inp : Option Nat} {ds : List Nat} {r : Route} (h : s.routeDims q inp ds = some r) : FailsOutsideRing r := by
  induction ds with
  | nil => simp [State.routeDims] at h
  | cons dim ds ih =>
    simp only [State.routeDims] at h
    split at h
    · exact ih h
    · split at h
      · split at h
        · cases h; exact routeForward_fails _ _ _ _
        · split at h
          · cases h; exact .inr (by decide)
          · cases h; exact routeEnter_fails _ _ _
      · cases h; exact routeEnter_fails _ _ _

theorem route_fails (q : Packet) (inp : Option Nat) : FailsOutsideRing (s.route q inp) := by
  unfold State.route
  split
  · exact .inr (by decide)
  · split
    next r hr => exact routeDims_fails hr
    next =>
      dsimp only
      split
      · trivial
      · split
        · exact .inl (by decide)
        · split
          · exact .inr (by decide)
          · split <;> trivial

/-- A packet of the stack's own that has no route fails in a counter outside block RING. -/
theorem place_fails {q : Packet} {held : List Nat} {st : BitVec 8} {c : Fld} (h : (s.place q held).2 = some (st, c)) : c.off < 0x8000 ∨ 0xC000 ≤ c.off := by
  have hr := route_fails (s := s) q none
  unfold State.place at h
  split at h
  next => simp at h
  next =>
    split at h
    · obtain ⟨-, rfl⟩ : stUNREACH = st ∧ RT_WAIT_EXPIRED = c := by simpa using h
      exact .inr (by decide)
    · simp at h
  next => simp at h
  next st' c' heq =>
    obtain ⟨-, rfl⟩ : st' = st ∧ c' = c := by simpa using h
    rwa [heq] at hr

/-- The two states differ in the parts listed alone, and in no register of block RING. -/
def Outside (l : List Part) (s t : State) : Prop := only l s t ∧ ∀ o, 0x8000 ≤ o → o < 0xC000 → t.reg o = s.reg o

theorem Outside.refl (l : List Part) (s : State) : Outside l s s := ⟨only_refl l s, fun _ _ _ => rfl⟩

theorem Outside.trans (h : Outside l s t) (h' : Outside l t u) : Outside l s u :=
  ⟨only_trans h.1 h'.1, fun o h1 h2 => (h'.2 o h1 h2).trans (h.2 o h1 h2)⟩

theorem Outside.mono {k : List Part} (hk : k ⊆ l) (h : Outside k s t) : Outside l s t := ⟨only_mono hk h.1, h.2⟩

theorem outside_inc {c : Fld} (hc : c.off < 0x8000 ∨ 0xC000 ≤ c.off) : Outside [.sw, .regs] s (s.inc c) :=
  ⟨only_mono (by simp) (only_set c _), fun o h1 h2 => reg_set_ne s (by omega) _⟩

theorem outside_emitRsp (q : Packet) : Outside [.sw, .regs] s (s.emitRsp q) := by
  obtain ⟨honly, hreg⟩ := emitRsp_frame s q
  have hdrop : 0xC000 ≤ RT_DROP.off := by decide
  exact ⟨honly, fun o h1 h2 => hreg o (by simp only [List.mem_singleton]; omega)⟩

theorem outside_failPacket (q : Packet) (st : BitVec 8) {c : Fld} (hc : c.off < 0x8000 ∨ 0xC000 ≤ c.off) : Outside [.sw, .regs] s (s.failPacket q st c) := by
  have hdrop : RT_DROP.off < 0x8000 ∨ 0xC000 ≤ RT_DROP.off := by decide
  unfold State.failPacket State.when
  split
  · exact (outside_inc hc).trans (outside_emitRsp _)
  · split
    · exact (outside_inc hdrop).trans (outside_inc hc)
    · exact outside_inc hdrop

theorem outside_emit (q : Packet) : Outside [.sw, .regs] s (s.emit q) := by
  obtain ⟨w, hw⟩ := place_only s q []
  have hplace : Outside [.sw, .regs] s (s.place q []).1 := by
    rw [hw]; exact ⟨only_mono (by simp) (only_sw w), fun _ _ _ => rfl⟩
  unfold State.emit
  split
  next x heq => simpa only [heq] using hplace
  next x st c heq =>
    rw [heq] at hplace
    exact hplace.trans (outside_failPacket q st (place_fails (congrArg Prod.snd heq)))

theorem outside_fox (x : FoxSt) : Outside [.sw, .regs, .fox] s { s with fox := x } := ⟨only_mono (by simp) (only_fox x), fun _ _ _ => rfl⟩

theorem outside_sendOwn (q : Packet) (own : Owner) (space : Nat) : Outside [.sw, .regs, .fox] s (s.sendOwn q own space) := by
  simp only [State.sendOwn]
  split
  · exact outside_fox _
  · exact (outside_fox _).trans ((outside_emit _).mono (by simp))

theorem outside_setRing (r : Ring) : Outside [.sw, .regs, .fox, .rings] s (s.setRing n r) := ⟨only_mono (by simp) (only_setRing n r), fun _ _ _ => rfl⟩

theorem outside_readRcb (use : Nat) : Outside [.sw, .regs, .fox, .rings] s (s.readRcb n use) := by
  simp only [State.readRcb]
  split
  · exact .refl _ _
  · exact (outside_setRing _).trans ((outside_sendOwn _ _ _).mono (by simp))

@[simp] theorem activity_acc : s.activity.acc = s.acc := by
  unfold State.activity
  dsimp only
  split <;> split <;> rfl

/-- The start of an activity ends S1 and makes nothing due. -/
@[simp] theorem activity_calm : s.activity.calm = s.calm := by
  have hset : ∀ (x : State) (f : Fld) (v : Nat), (x.set f v).calm = x.calm := fun _ _ _ => calm_of rfl rfl
  have hreq : ∀ x : State, ({ x with pwr := { x.pwr with s1Req := false } } : State).calm = x.calm := fun _ => rfl
  unfold State.activity
  dsimp only
  split <;> split <;> simp only [hset, hreq]

/-- The registers that a resume writes. -/
def resumeFields (n : Nat) : List (Fld × Nat) := [(RING_STATUS_STATE n, 1), (RING_STATUS_HALT_CAUSE n, 0), (RING_STATUS_HALT_STATUS n, 0)]

/-- A resume up to the read of the RCB, which it sends. -/
def resumeRead (s : State) (n : Nat) : State :=
  let t := (s.sets (resumeFields n)).forsake (Owner.rcbOf n)
  (t.setRing n { t.ring n with cplHeld := false, rcbRead := none }).readRcb n 2

theorem resumeRing_eq (s : State) (n : Nat) : s.resumeRing n = (resumeRead s n).activity := rfl

/-- After its field writes a resume changes no register of block RING. -/
theorem resumeRead_outside : Outside [.sw, .regs, .fox, .rings] (s.sets (resumeFields n)) (resumeRead s n) := by
  have hforsake : ∀ x : State, Outside [.sw, .regs, .fox, .rings] x (x.forsake (Owner.rcbOf n)) := fun x => (outside_fox _).mono (by simp)
  exact (hforsake _).trans ((outside_setRing _).trans (outside_readRcb 2))

theorem resumeRead_only : only [.sw, .regs, .fox, .rings] s (resumeRead s n) :=
  only_trans (only_mono (by simp) (only_sets _)) resumeRead_outside.1

theorem resumeRing_acc : (s.resumeRing n).acc = s.acc := by
  rw [resumeRing_eq, activity_acc]
  exact resumeRead_only .acc (by decide)

theorem resumeRing_calm : (s.resumeRing n).calm = s.calm := by
  rw [resumeRing_eq, activity_calm]
  exact calm_of (resumeRead_only .pwr (by decide)) (resumeRead_only .flt (by decide))

/-- A field of RING_STATUS holds what the field writes of the resume leave there. -/
theorem resumeRing_status (hn : n < 64) {f : Fld} (hf : f.off = (RING_STATUS n).off) : (s.resumeRing n).fld f = (s.sets (resumeFields n)).fld f := by
  have hlo : 0x8000 ≤ (RING_STATUS n).off ∧ (RING_STATUS n).off < 0xC000 := by simp only [RING_STATUS]; omega
  have hne : (RING_STATUS n).off ≠ GLB_PWR_STATUS_STATE.off := by
    have : GLB_PWR_STATUS_STATE.off < 0x8000 := by decide
    omega
  rw [State.fld, State.fld, hf, resumeRing_eq, reg_activity hne, resumeRead_outside.2 _ hlo.1 hlo.2]

theorem resumeRing_ringSt (hn : n < 64) : (s.resumeRing n).ringSt n = 1 := by
  rw [State.ringSt, resumeRing_status hn (f := RING_STATUS_STATE n) rfl, resumeFields, sets_cons, sets_cons, sets_cons, sets_nil]
  exact (ringSt_set_haltStatus n).trans ((ringSt_set_haltCause n).trans ringSt_set_same)

theorem resumeRing_haltCause (hn : n < 64) : (s.resumeRing n).fld (RING_STATUS_HALT_CAUSE n) = 0 := by
  rw [resumeRing_status hn (f := RING_STATUS_HALT_CAUSE n) rfl, resumeFields, sets_cons, sets_cons, sets_cons, sets_nil,
    fld_set_disjoint _ (by decide : 0 ≤ 7) (by decide : 7 < 32) (.inl (by decide : 7 < 27)), fld_set_same _ (by decide : 27 ≤ 29) (by decide : 29 < 32),
    Nat.zero_mod]

/-! ### The write of RING_CTL of ring 0 over the sideband and JTAG -/

/-- GLB_LOCK does not stop the commands of ring 0 over the sideband and JTAG (R298). -/
theorem ringCtlWrite_ring0 (hvia : via ≠ .mreg) :
    (s.ringSt 0 = 0 → s.ringCtlWrite via 0 1 = (stOK, s.enableRing 0))
    ∧ (s.ringSt 0 = 1 → s.ringCtlWrite via 0 2 = (stOK, s.resetRing 0))
    ∧ (s.ringSt 0 = 2 → s.ringCtlWrite via 0 4 = (stOK, s.resumeRing 0)) := by
  have h1 : bitAt 1 0 = true := by decide
  have h2 : bitAt 2 0 = false ∧ bitAt 2 1 = true := by decide
  have h4 : bitAt 4 0 = false ∧ bitAt 4 1 = false ∧ bitAt 4 2 = true := by decide
  refine ⟨fun h => ?_, fun h => ?_, fun h => ?_⟩
  · simp [State.ringCtlWrite, hvia, h1, h]
  · simp [State.ringCtlWrite, hvia, h2, h]
  · simp [State.ringCtlWrite, hvia, h4, h]

/-- What the rule of RING_CTL answers OK to is done, and the path shows OK. -/
theorem pathWrite_RING_CTL_taken (hn : n < 64) (hv : ringCtlWord v) (ht : s.takes via .ring = true) (ha : s.ringCtlWrite via n v = (stOK, t))
    (hc : t.calm = true) : s.pathWrite via (RING_CTL n).off v = t.pathStatus via stOK := by
  have hr := RING_CTL_range hn
  have hne : ∀ x, x < 0x8000 → (RING_CTL n).off ≠ x := by omega
  have hopen : (s.locked && (allRwl ringCtlDesc || lockedOut (RING_CTL n).off)) = false := by
    rw [RING_CTL_notLockedOut hn, show allRwl ringCtlDesc = false by decide]
    simp
  refine pathWrite_taken (blkOf_RING_CTL hn) (descOf_RING_CTL hn) (ringCtlWord_mask hv) (ringCtlWord_legal hv) (RING_CTL_writable hn) hopen rfl
    (hne _ (by decide)) (hne _ (by decide)) ht ?_ hc (mapHeld_of_ne (hne _ (by decide)))
  rw [applyWrite_RING_CTL, ha, atOnce]

/-! ## The statement -/

/-- R298 for a write on a path. -/
theorem registerWrite_RING_CTL_locked {off : BitVec 24} {v : BitVec 32} (hn : n < 64) (hoff : off.toNat = (RING_CTL n).off) (hv : ringCtlWord v.toNat)
    (hl : s.locked = true) (hu : s.pathUp via = true) (hlim : via = .mreg ∨ s.pathLimited = false) (hc : s.calm = true) (hp : via = .mreg ∨ n ≠ 0) :
    ∃ t, exec (.registerWrite via off v) s = .next t ∧ t.acc = (s.pathStatus via stSTATE).acc
      ∧ t.fld RING_CNT_VIOL_STATE = (s.fld RING_CNT_VIOL_STATE + 1) % 2 ^ 32 ∧ regsBut [RING_CNT_VIOL_STATE.off] s t ∧ only [.acc, .regs] s t := by
  have hne : (RING_CTL n).off ≠ GLB_MEM_CFG.off := by
    have := RING_CTL_range hn
    have : GLB_MEM_CFG.off < 0x8000 := by decide
    omega
  have hw : s.pathWrite via off.toNat v.toNat = (s.viol (RING_CTL n).off .state).pathStatus via stSTATE := by
    rw [hoff]
    exact pathWrite_answered hu hlim (mapHeld_of_ne hne) (regWrite_RING_CTL_locked hn hv hl hp) (by rwa [viol_calm])
  obtain ⟨hacc, -, hregs, honly⟩ := refusedState_frame via (RING_CTL n).off s
  rw [violReg_RING_CTL hn] at hregs
  exact ⟨_, congrArg Host.Outcome.next hw, hacc, (pathStatus_fld via _ _).trans (fld_viol_RING_CTL hn), hregs, honly⟩

/-- R298 for an MREG_WR: the answer says STATE. -/
theorem mregWr_RING_CTL_locked {p : Packet} (hn : n < 64) (hin : s.mayEnter p = true) (hu : s.brought p = u) (howed : s.acc.owed = [])
    (hroom : u.mregRsps < 16) (hform : p.okForm = true) (hc : u.calm = true) (hwin : u.regWindow (some p.hdr) = true) (hl : u.locked = true)
    (hoff : p.hdr.addr.toNat % 2 ^ 24 = (RING_CTL n).off) (hv : ringCtlWord (leAt p.payload 0 4)) :
    ∃ t, exec (.mregWr p) s = .next t ∧ sends u t (mkRsp u.eid p.hdr stSTATE 0 [])
      ∧ t.fld RING_CNT_VIOL_STATE = (u.fld RING_CNT_VIOL_STATE + 1) % 2 ^ 32
      ∧ regsBut [RING_CNT_VIOL_STATE.off, RT_DROP.off] u t ∧ only [.acc, .sw, .regs] u t := by
  subst hu
  have hr := RING_CTL_range hn
  have hmap : p.hdr.addr.toNat % 2 ^ 24 ≠ GLB_MEM_CFG.off := by
    have : GLB_MEM_CFG.off < 0x8000 := by decide
    omega
  obtain ⟨w, hw⟩ : ∃ w, w = ((s.brought p).viol (RING_CTL n).off .state).pathStatus .mreg stSTATE := ⟨_, rfl⟩
  obtain ⟨q, hq⟩ : ∃ q, q = mkRsp (s.brought p).eid p.hdr stSTATE 0 [] := ⟨_, rfl⟩
  obtain ⟨-, -, hregs, honly⟩ := refusedState_frame .mreg (RING_CTL n).off (s.brought p)
  rw [← hw, violReg_RING_CTL hn] at hregs
  rw [← hw] at honly
  obtain ⟨hsent, hdrop⟩ := emitRsp_frame w q
  have hcalm : (w.emitRsp q).calm = true := by
    rw [calm_of (hsent .pwr (by decide)) (hsent .flt (by decide)), hw, pathStatus_calm, viol_calm, hc]
  have hexec : exec (.mregWr p) s = .next (w.emitRsp q) := by
    refine congrArg Host.Outcome.next ?_
    rw [mregTake_of_mayEnter _ hin howed hmap hroom hform]
    simp only [hoff, regWrite_of_window hwin, regWrite_RING_CTL_locked hn hv hl (.inl rfl)]
    rw [← hw, ← brought_eid s p, ← hq, settle_calm hcalm]
  have halike : AlikeButRing (s.brought p) w := by
    rw [hw]
    exact .viol_pathStatus .state (by rw [violReg_RING_CTL hn]; decide) _ _
  have hcount : w.fld RING_CNT_VIOL_STATE = ((s.brought p).fld RING_CNT_VIOL_STATE + 1) % 2 ^ 32 := by
    rw [hw, pathStatus_fld, fld_viol_RING_CTL hn]
  refine ⟨_, hexec, ?_, ?_, fun o ho => ?_, ?_⟩
  · rw [← hq]
    exact sends_of_alike halike (honly .sw (by decide)) (honly .now (by decide)) (emitRsp_sends w q)
  · rw [State.fld, hdrop _ (by decide)]
    exact hcount
  · simp only [List.mem_cons, not_or] at ho
    exact (hdrop o (by simp [ho])).trans (hregs o (by simp [ho]))
  · exact only_trans (only_mono (by simp) honly) (only_mono (by simp) hsent)

/-- Ring 0 over the sideband and JTAG is served whatever GLB_LOCK is. -/
theorem registerWrite_RING_CTL_ring0 {off : BitVec 24} (hoff : off.toNat = (RING_CTL 0).off) (hvia : via ≠ .mreg) (ht : s.takes via .ring = true) :
    (s.ringSt 0 = 0 → ∃ t, exec (.registerWrite via off 1) s = .next t ∧ t.ringSt 0 = 1 ∧ t.fld (RING_SQ_IDX 0) = 0 ∧ t.ring 0 = {} ∧ taken via [.rings] s t)
    ∧ (s.ringSt 0 = 1 → (s.ring 0).descs = [] → (s.ring 0).cpls = [] →
      ∃ t, exec (.registerWrite via off 2) s = .next t ∧ t.ringSt 0 = 0 ∧ t.acc = (s.pathStatus via stOK).acc)
    ∧ (s.ringSt 0 = 2 → ∃ t, exec (.registerWrite via off 4) s = .next t ∧ t.ringSt 0 = 1 ∧ t.fld (RING_STATUS_HALT_CAUSE 0) = 0 ∧ t.acc = (s.pathStatus via stOK).acc) := by
  have hcalm : s.calm = true := by
    simp only [State.takes, Bool.and_eq_true] at ht
    exact ht.2
  have hexec : ∀ (w : BitVec 32) (x : State), ringCtlWord w.toNat → s.ringCtlWrite via 0 w.toNat = (stOK, x) → x.calm = true →
      exec (.registerWrite via off w) s = .next (x.pathStatus via stOK) := fun w x hw hx hc =>
    congrArg Host.Outcome.next (by rw [hoff]; exact pathWrite_RING_CTL_taken (by decide) hw ht hx hc)
  obtain ⟨henable, hreset, hresume⟩ := ringCtlWrite_ring0 (s := s) hvia
  refine ⟨fun h => ?_, fun h hd hc => ?_, fun h => ?_⟩
  · have honly := enableRing_only (s := s) (n := 0)
    refine ⟨_, hexec 1 _ (.inr (.inl rfl)) (henable h) ((calm_of (honly .pwr (by decide)) (honly .flt (by decide))).trans hcalm),
      (pathStatus_fld via _ _).trans enableRing_ringSt, (pathStatus_fld via _ _).trans enableRing_fetchIndex,
      (pathStatus_ring via _ _).trans enableRing_ring, ?_⟩
    refine ⟨pathStatus_acc via _ (honly .acc (by decide)), ?_⟩
    rw [pathStatus_eq]
    exact only_trans (only_mono (by simp) honly) (only_mono (by simp) (only_acc _))
  · have honly := resetRing_only (s := s) (n := 0)
    exact ⟨_, hexec 2 _ (.inr (.inr (.inl rfl))) (hreset h) ((calm_of (honly .pwr (by decide)) (honly .flt (by decide))).trans hcalm),
      (pathStatus_fld via _ _).trans (resetRing_ringSt hd hc), pathStatus_acc via _ (honly .acc (by decide))⟩
  · exact ⟨_, hexec 4 _ (.inr (.inr (.inr rfl))) (hresume h) (resumeRing_calm.trans hcalm),
      (pathStatus_fld via _ _).trans (resumeRing_ringSt (by decide)), (pathStatus_fld via _ _).trans (resumeRing_haltCause (by decide)),
      pathStatus_acc via _ resumeRing_acc⟩

/-- Settles O58: the rule of RING_CTL refuses the write after GLB_LOCK, and every check that comes before the rule gives the same answer;
over the sideband and JTAG the rule of ring 0 does not look at the lock. -/
theorem ringControlLocked : Obligations.RingControlLocked := by
  refine ⟨fun via n off v s hoff hv hl hu hlim hc hp => ?_, fun p n s u hin hu howed hroom hform hc hwin hl hoff hv => ?_, fun via off s hoff hvia ht => ?_⟩
  · have hword : ringCtlWord v.toNat := by
      obtain rfl | rfl | rfl | rfl := hv
      exacts [.inl rfl, .inr (.inl rfl), .inr (.inr (.inl rfl)), .inr (.inr (.inr rfl))]
    exact registerWrite_RING_CTL_locked n.isLt hoff hword hl hu hlim hc (hp.imp_right fun h h0 => h (BitVec.eq_of_toNat_eq h0))
  · exact mregWr_RING_CTL_locked n.isLt hin hu howed hroom hform hc hwin hl hoff hv
  · obtain ⟨henable, hreset, hresume⟩ := registerWrite_RING_CTL_ring0 hoff hvia ht
    exact ⟨henable, fun h hd hc _ => hreset h hd hc, hresume⟩

end Sys2Proof.Proofs
end

section
/-! SUPPORT. The grave safe state (R405): a record of class G that has just been raised stands, whatever else the stack does in the same
step (a record, alarms, a wake, the answer to who asked for a sleep entry), and the step ends by entering the grave safe state, which
leaves the fault records alone. -/

namespace Sys2Proof.Proofs

open Sys2Proof.Machine Sys2Proof.Laws

variable {s t u : State} {d code detail : Nat} {inj : Bool}

/-! ## What does not touch the fault records -/

/-- The fault records stand, but for the moments at which their timers end (R404), and the grave safe state is no more and no less in
force. -/
structure FaultsKept (s t : State) : Prop where
  recs : ∀ d, ∃ e, t.fltRec d = { s.fltRec d with timerEnd := e }
  grave : t.start.grave = s.start.grave

namespace FaultsKept

theorem of_eq (hrecs : t.flt.recs = s.flt.recs) (hgrave : t.start.grave = s.start.grave) : FaultsKept s t :=
  ⟨fun d => ⟨(s.fltRec d).timerEnd, by rw [State.fltRec, hrecs, State.fltRec]⟩, hgrave⟩

theorem refl (s : State) : FaultsKept s s := of_eq rfl rfl

theorem trans (h : FaultsKept s t) (h' : FaultsKept t u) : FaultsKept s u := by
  refine ⟨fun d => ?_, h'.grave.trans h.grave⟩
  obtain ⟨e, he⟩ := h.recs d
  obtain ⟨e', he'⟩ := h'.recs d
  exact ⟨e', by rw [he', he]⟩

/-- `trans`, the last operation first. -/
theorem after (h' : FaultsKept t u) (h : FaultsKept s t) : FaultsKept s u := h.trans h'

/-- An operation that changes neither the fault collector nor the start-up state. -/
theorem of_only {l : List Part} (h : only l s t) (hflt : Part.flt ∉ l) (hstart : Part.start ∉ l) : FaultsKept s t :=
  of_eq (congrArg FltSt.recs (h .flt hflt)) (congrArg StartSt.grave (h .start hstart))

theorem each {α : Type} {xs : List α} {f : State → α → State} (hf : ∀ x a, FaultsKept x (f x a)) : FaultsKept s (s.each xs f) :=
  each_keeps (refl s) fun x a h => h.trans (hf x a)

/-- A record that is open at class G is still so. -/
theorem graveOpen (h : FaultsKept s t) (ho : (s.fltRec d).isOpen = true) (hc : (s.fltRec d).cls = .g) :
    (t.fltRec d).isOpen = true ∧ (t.fltRec d).cls = .g := by
  obtain ⟨e, he⟩ := h.recs d
  rw [he]
  exact ⟨ho, hc⟩

end FaultsKept

theorem faultsKept_set (f : Fld) (v : Nat) : FaultsKept s (s.set f v) := .of_only (only_set f v) (by decide) (by decide)

theorem faultsKept_sets (fs : List (Fld × Nat)) : FaultsKept s (s.sets fs) := .of_only (only_sets fs) (by decide) (by decide)

theorem faultsKept_emit (p : Packet) : FaultsKept s (s.emit p) := .of_only (outside_emit p).1 (by decide) (by decide)

/-! ## A record change is reported: the recorder and the alarms -/

theorem enqueue_only (cap n : Nat) (q : List StageItem) (r : EvRec) : only [.regs] s (s.enqueue cap n q r).1 := by
  induction n generalizing s q with
  | zero => exact only_set _ _
  | succ n ih =>
    unfold State.enqueue
    split
    · exact only_refl _ _
    · split
      · exact only_set _ _
      · exact only_trans (only_set _ _) (ih _)

theorem faultsKept_enqueue (cap n : Nat) (q : List StageItem) (r : EvRec) : FaultsKept s (s.enqueue cap n q r).1 :=
  .of_only (enqueue_only cap n q r) (by decide) (by decide)

theorem faultsKept_record (typ : BitVec 8) (sev code unit : Nat) (tail : List (BitVec 8)) : FaultsKept s (s.record typ sev code unit tail) := by
  simp only [State.record]
  split
  · split
    · exact .of_eq rfl rfl
    · exact FaultsKept.trans (faultsKept_enqueue _ _ _ _) (.of_eq rfl rfl)
  · split
    · exact .of_eq rfl rfl
    · split
      · split
        · exact .of_eq rfl rfl
        · split
          · exact .of_eq rfl rfl
          · exact .of_eq rfl rfl
      · exact FaultsKept.trans (faultsKept_enqueue _ _ _ _) (.of_eq rfl rfl)

theorem faultsKept_sendAlarms (d folded : Nat) : FaultsKept s (s.sendAlarms d folded) := by
  have hsent : FaultsKept s (s.each s.alarmDsts fun t e =>
      (({ t with flt := { t.flt with alarmSeq := t.flt.alarmSeq + 1 } }).inc FLT_ALARMS_SENT).emit (t.alarmPacket d folded (t.flt.alarmSeq + 1).toNat e)) :=
    .each fun x e => (faultsKept_emit _).after (.of_eq rfl rfl)
  simp only [State.sendAlarms]
  split
  · exact hsent
  · exact hsent.trans (.of_eq rfl rfl)

theorem faultsKept_alarm (d : Nat) : FaultsKept s (s.alarm d) := by
  unfold State.alarm
  split
  · exact faultsKept_sendAlarms _ _
  · exact .of_eq rfl rfl

theorem faultsKept_recChanged (d : Nat) : FaultsKept s (s.recChanged d) := (faultsKept_record _ _ _ _ _).trans (faultsKept_alarm d)

/-! ## Wakes and sleep entries (R80, R82) -/

theorem faultsKept_mgmtDone (job : Nat) (st : BitVec 8) (res : List (BitVec 8)) : FaultsKept s (s.mgmtDone job st res) :=
  FaultsKept.after (.of_only (finishDesc_only _ _ _ _ _) (by decide) (by decide)) (.of_eq rfl rfl)

theorem faultsKept_mgmtRefuse (job : Nat) (st : BitVec 8) (blk : Nat) : FaultsKept s (s.mgmtRefuse job st blk) := by
  refine (faultsKept_mgmtDone _ _ _).after ?_
  split <;> exact .of_eq rfl rfl

theorem faultsKept_pathStatus (via : Path) (st : BitVec 8) : FaultsKept s (s.pathStatus via st) := by
  rw [pathStatus_eq]
  exact .of_eq rfl rfl

theorem faultsKept_payOwed (off : Nat) (st : BitVec 8) : FaultsKept s (s.payOwed off st) := by
  refine FaultsKept.after (.each fun x o => ?_) (.of_eq rfl rfl)
  split
  · exact (faultsKept_pathStatus _ _).trans (.of_only (emitRsp_frame _ _).1 (by decide) (by decide))
  · exact faultsKept_pathStatus _ _

theorem faultsKept_sleepAnswer (a : Asker) (st : BitVec 8) : FaultsKept s (s.sleepAnswer a st) := by
  cases a with
  | ring0 =>
    refine .each fun x m => ?_
    split
    · exact faultsKept_mgmtRefuse _ _ _
    · exact faultsKept_mgmtDone _ _ _
  | reg _ =>
    simp only [State.sleepAnswer]
    split
    · exact (faultsKept_payOwed _ _).after (.of_eq rfl rfl)
    · exact faultsKept_payOwed _ _

theorem faultsKept_abandonEntry (e : SleepEntry) : FaultsKept s (s.abandonEntry e) :=
  (faultsKept_sleepAnswer _ _).after ((faultsKept_sets _).after (.of_eq rfl rfl))

theorem faultsKept_sleepStep2 : FaultsKept s s.sleepStep2 := by
  unfold State.sleepStep2
  split
  · exact .refl s
  · split
    · exact .refl s
    · exact (faultsKept_sleepAnswer _ _).after (.of_eq rfl rfl)

/-- Reading a map whose values alone were changed. -/
theorem mget_map_values {α β : Type} (f : α → β) (l : List (Nat × α)) (k : Nat) : mget (l.map fun e => (e.1, f e.2)) k = (mget l k).map f := by
  induction l with
  | nil => rfl
  | cons e l ih =>
    simp only [List.map_cons, mget, ih]
    split <;> rfl

/-- A record as the start of the timers (R404) leaves it. -/
def timerStarted (s : State) (r : FltRec) : FltRec :=
  if r.isOpen && r.timerOn && r.timerEnd.isNone then { r with timerEnd := some (s.now + s.timerUs r.cls) } else r

theorem timerStarted_eq (s : State) (r : FltRec) : ∃ e, timerStarted s r = { r with timerEnd := e } := by
  unfold timerStarted
  split
  · exact ⟨_, rfl⟩
  · exact ⟨r.timerEnd, rfl⟩

theorem startTimers_fltRec (h : s.timersRun = true) (d : Nat) : s.startTimers.fltRec d = timerStarted s (s.fltRec d) := by
  have hrecs : s.startTimers.flt.recs = s.flt.recs.map fun e => (e.1, timerStarted s e.2) := by
    simp only [State.startTimers, h, if_true]
    refine List.map_congr_left fun e _ => ?_
    unfold timerStarted
    split <;> rfl
  rw [State.fltRec, hrecs, mgetD, mget_map_values, State.fltRec, mgetD]
  cases mget s.flt.recs d <;> rfl

theorem faultsKept_startTimers : FaultsKept s s.startTimers := by
  by_cases h : s.timersRun = true
  · refine ⟨fun d => ?_, by simp [State.startTimers, h]⟩
    rw [startTimers_fltRec h]
    exact timerStarted_eq s _
  · simpa [State.startTimers, h] using FaultsKept.refl s

theorem faultsKept_awoken : FaultsKept s s.awoken :=
  faultsKept_startTimers.after ((faultsKept_set _ _).after ((faultsKept_sets _).after (.of_eq rfl rfl)))

theorem faultsKept_wakeS2 : FaultsKept s s.wakeS2 := by
  have hchannels : FaultsKept s s.channelsUp := .each fun x c => by
    unfold State.channelUp
    split
    · exact .refl x
    · exact faultsKept_set _ _
  exact faultsKept_awoken.after hchannels

theorem faultsKept_clockStart : FaultsKept s s.clockStart := (faultsKept_sets _).after (.of_eq rfl rfl)

theorem faultsKept_wake (cause : Nat) : FaultsKept s (s.wake cause) := by
  unfold State.wake
  split
  case h_1 e _ =>
    split
    · exact .refl s
    · split
      · split
        · exact .refl s
        · exact .of_eq rfl rfl
      · exact faultsKept_abandonEntry e
  case h_2 =>
    split
    · exact faultsKept_set _ _
    · split
      · exact (faultsKept_set _ _).trans (faultsKept_set _ _)
      · split
        · exact .refl s
        · split
          · exact (faultsKept_set _ _).trans faultsKept_wakeS2
          · have hclock : FaultsKept s (s.set GLB_PWR_STATUS_WAKE_CAUSE cause).clockStart := faultsKept_clockStart.after (faultsKept_set _ _)
            exact hclock.trans (.of_eq rfl rfl)

/-! ## Entering the grave safe state (R410) -/

theorem cutBursts_flt (c : Nat) : (s.cutBursts c).flt = s.flt := by
  unfold State.cutBursts
  extract_lets cut issued s1 s2 hit
  have hcut : ∀ (x : State) (k : Nat) (w : WrReq) (raw : List (Option (BitVec 8))), (cut x k w raw).flt = x.flt := fun x k w raw => by
    simp only [cut]
    split <;> rfl
  have hs1 : s1.flt = s.flt := each_keeps (P := fun x => x.flt = s.flt) rfl fun x w h => (hcut x c w w.old).trans h
  refine each_keeps (P := fun x => x.flt = s.flt) hs1 fun x k h => ?_
  exact each_keeps (P := fun y => y.flt = s.flt) h fun y w h' => (hcut y c w w.oldPar).trans h'

theorem channelSr_flt (c : Nat) : (s.channelSr c).flt = s.flt := by
  simp only [State.channelSr]
  split
  · simp only [set_flt, State.setChn, cutBursts_flt]
  · rfl

theorem stopHeartbeats_flt : s.stopHeartbeats.flt = s.flt :=
  each_keeps (P := fun x => x.flt = s.flt) rfl fun _ c h => (channelSr_flt c).trans h

theorem freezeMarl_flt : s.freezeMarl.flt = s.flt := by
  unfold State.freezeMarl
  split <;> rfl

theorem squelchAll_flt : s.squelchAll.flt = s.flt := by
  simp [State.squelchAll, State.closeAll]

theorem force_flt (cause : Option Fld) : (s.force cause).flt = s.flt := by
  simp [State.force, State.dropTraffic, squelchAll_flt, freezeMarl_flt, stopHeartbeats_flt]

theorem enterGrave_fltRec (d : Nat) : s.enterGrave.fltRec d = s.fltRec d := by
  simp only [State.fltRec, State.enterGrave]
  split
  · rfl
  · simp only [force_flt]

theorem enterGrave_grave : s.enterGrave.start.grave = true := by
  unfold State.enterGrave
  split
  · assumption
  · rfl

/-- Entering it abandons a sleep entry. -/
theorem enterGrave_entry (h : s.start.grave = false) : s.enterGrave.pwr.entry = none := by simp [State.enterGrave, h]

/-! ## A record of class G leads there -/

theorem mem_of_mget {α : Type} {l : List (Nat × α)} {k : Nat} {v : α} (h : mget l k = some v) : (k, v) ∈ l := by
  induction l with
  | nil => simp at h
  | cons e l ih =>
    simp only [mget] at h
    split at h
    case isTrue hk =>
      obtain rfl : e = (k, v) := Prod.ext hk (Option.some.inj h)
      exact List.mem_cons_self
    case isFalse => exact List.mem_cons_of_mem _ (ih h)

theorem graveRec_of_open (ho : (s.fltRec d).isOpen = true) (hc : (s.fltRec d).cls = .g) : s.graveRec = true := by
  cases hr : mget s.flt.recs d with
  | none => simp [State.fltRec, mgetD, hr] at ho
  | some r =>
    obtain rfl : s.fltRec d = r := by simp [State.fltRec, mgetD, hr]
    exact List.any_eq_true.mpr ⟨_, mem_of_mget hr, by simp [ho, hc]⟩

/-- What follows a command with a record open at class G: whatever is due comes first, then the grave safe state. -/
theorem settle_enterGrave (hg : s.start.grave = false) (ho : (s.fltRec d).isOpen = true) (hc : (s.fltRec d).cls = .g) :
    ∃ u, FaultsKept s u ∧ s.settle = u.enterGrave := by
  have hwake : FaultsKept s (if s.pwr.wakeDue then ({ s with pwr := { s.pwr with wakeDue := false } }).wake 4 else s) := by
    split
    · exact (faultsKept_wake 4).after (.of_eq rfl rfl)
    · exact .refl s
  have hdue := hwake.trans faultsKept_sleepStep2
  obtain ⟨ho', hc'⟩ := hdue.graveOpen ho hc
  refine ⟨_, hdue, ?_⟩
  rw [State.settle, if_pos]
  rw [graveRec_of_open ho' hc', hdue.grave, hg]
  rfl

/-! ## The fault reaches its record (R403) -/

@[simp] theorem fltRec_setRec_same (r : FltRec) : (s.setRec d r).fltRec d = r := mgetD_mput_same d r {} s.flt.recs

@[simp] theorem fltRec_inc (f : Fld) : (s.inc f).fltRec d = s.fltRec d := rfl

@[simp] theorem fltRec_incPair (f : Fld) (n : Nat) : (s.incPair f n).fltRec d = s.fltRec d := rfl

/-- No class stands above G. -/
theorem clsCode_top {cls : FltClass} (h : clsCode .g ≤ clsCode cls) : cls = .g := by
  cases cls
  case g => rfl
  all_goals exact absurd h (by decide)

/-- A record that a G fault opens or merges into is open at class G. -/
theorem fltMerge_grave : ((s.fltMerge d code .g detail inj).fltRec d).isOpen = true ∧ ((s.fltMerge d code .g detail inj).fltRec d).cls = .g := by
  simp only [State.fltMerge]
  split
  case isTrue ho =>
    simp only [fltRec_inc, fltRec_incPair, fltRec_setRec_same]
    split
    case isTrue => exact ⟨ho, rfl⟩
    case isFalse hup => exact ⟨ho, clsCode_top (by simpa using hup)⟩
  case isFalse =>
    simp only [fltRec_incPair, fltRec_setRec_same]
    exact ⟨rfl, rfl⟩

/-- A G fault that merges into a record of a lower class raises it: class G, state GRAVE, one merge more. -/
theorem fltMerge_rises (ho : (s.fltRec d).isOpen = true) (hc : (s.fltRec d).cls ≠ .g) :
    ((s.fltMerge d code .g detail inj).fltRec d).st = .grave
    ∧ ((s.fltMerge d code .g detail inj).fltRec d).merges = min 255 ((s.fltRec d).merges + 1) := by
  have hup : clsCode (s.fltRec d).cls < clsCode .g := Nat.lt_of_not_le fun h => hc (clsCode_top h)
  simp only [State.fltMerge, ho, if_true, hup, decide_true, fltRec_inc, fltRec_incPair, fltRec_setRec_same]
  exact ⟨rfl, rfl⟩

theorem fltMerge_start (cls : FltClass) : (s.fltMerge d code cls detail inj).start = s.start := by
  simp only [State.fltMerge]
  split <;> rfl

/-- The class of a sensor's fault is the variant's; no domain is. -/
theorem causeOf_domain (x y : FltClass) (f : FltCause) (unit : Nat) : (causeOf x f unit).2.2 = (causeOf y f unit).2.2 := by cases f <;> rfl

/-- A fault of class G asks for no wake: the record changes, and that is reported. -/
theorem raiseRec_grave {f : FltCause} {unit : Nat} (hf : causeOf (if s.variant = 0x96 then .d else .a) f unit = (code, .g, d))
    (hoff : s.domOff d = false) (hcol : s.collects = true) : s.raiseRec f unit detail inj = (s.fltMerge d code .g detail inj).recChanged d := by
  simp [State.raiseRec, hf, hoff, hcol]

theorem raise_grave {f : FltCause} {unit : Nat} (hf : causeOf (if s.variant = 0x96 then .d else .a) f unit = (code, .g, d))
    (hoff : s.domOff d = false) (hcol : s.collects = true) (hg : s.start.grave = false) :
    ∃ u, FaultsKept (s.fltMerge d code .g detail inj) u ∧ s.raise f unit detail inj = u.enterGrave := by
  obtain ⟨hopen, hcls⟩ := fltMerge_grave (s := s) (d := d) (code := code) (detail := detail) (inj := inj)
  have hrep : FaultsKept (s.fltMerge d code .g detail inj) ((s.fltMerge d code .g detail inj).recChanged d) := faultsKept_recChanged d
  obtain ⟨hopen', hcls'⟩ := hrep.graveOpen hopen hcls
  obtain ⟨u, hu, hsettle⟩ := settle_enterGrave (by rw [hrep.grave, fltMerge_start, hg]) hopen' hcls'
  exact ⟨u, hrep.trans hu, by rw [State.raise, raiseRec_grave hf hoff hcol, hsettle]⟩

/-- Settles O59: the fault's record is open at class G once the fault has reached it, nothing that follows in the step takes that away,
and the step ends by entering the grave safe state; where that is in force already, the command changes nothing. -/
theorem graveAtOnce : Obligations.GraveAtOnce := by
  intro f unit detail code d s hf hdom hoff hcol
  have hlisted : domListed (causeOf .a f unit.toNat).2.2 = true := by
    rw [causeOf_domain .a, hf]
    exact hdom
  by_cases hg : s.start.grave = true
  · exact ⟨s, by simp [exec, execFaultRaise, hg], hg, fun h => by simp [hg] at h⟩
  have hg : s.start.grave = false := by simpa using hg
  obtain ⟨u, hu, hraise⟩ := raise_grave (detail := detail.toNat) (inj := false) hf hoff hcol hg
  obtain ⟨hopen, hcls⟩ := hu.graveOpen fltMerge_grave.1 fltMerge_grave.2
  obtain ⟨e, hrec⟩ := hu.recs d
  refine ⟨u.enterGrave, ?_, enterGrave_grave, fun _ => ?_⟩
  · simp [exec, execFaultRaise, hlisted, hg, hraise]
  · rw [enterGrave_fltRec]
    refine ⟨hopen, hcls, enterGrave_entry ?_, fun ho hc => ?_⟩
    · rw [hu.grave, fltMerge_start, hg]
    · rw [hrec]
      exact fltMerge_rises ho hc

/-! ## A witness of the merge: a trip merges into a record of class D, while the stack enters S2 -/

/-- Ready, entering S2 at the wish of ring 0, with the thermal record (Table 18.1) open at class D. -/
def thermalRecordOpen : State :=
  { State.reset.set GLB_START_STATUS_PHASE 8 with
    flt := { recs := [(5, { isOpen := true, cls := .d, st := .wait, timerOn := true })] },
    pwr := { entry := some { target := 2, asker := .ring0 } } }

theorem trip_raises_thermalRecord : ∃ t, exec (.faultRaise .trip 0 0) thermalRecordOpen = .next t
    ∧ t.start.grave = true ∧ (t.fltRec 5).cls = .g ∧ (t.fltRec 5).st = .grave ∧ (t.fltRec 5).merges = 1 ∧ t.pwr.entry = none := by
  obtain ⟨t, hexec, hgrave, hrest⟩ := graveAtOnce .trip 0 0 0x3B 5 thermalRecordOpen (by decide +kernel) (by decide +kernel)
    (by decide +kernel) (by decide +kernel)
  obtain ⟨-, hcls, hentry, hmerge⟩ := hrest rfl
  obtain ⟨hst, hmerges⟩ := hmerge rfl (by decide)
  exact ⟨t, hexec, hgrave, hcls, hst, hmerges, hentry⟩

end Sys2Proof.Proofs
end

section
/-! SUPPORT. Every command completes, and keeps what each operation keeps (`Kept`): the queue of waiting commands, the clock, the count of
draws and the one form of the maps. One lemma for each command that is more than one operation, then the dispatch table. -/

namespace Sys2Proof.Proofs

set_option Elab.async false
open Sys2Proof Sys2Proof.Machine Sys2Proof.Laws
variable {s t u : State}

/-- The outcome is a next state that keeps what `Kept` says of every operation. -/
def Completes (s : State) (o : Out) : Prop := ∃ t, o = .next t ∧ Kept s t

/-- A choice between two states keeps what both keep. -/
theorem kept_ite {c : Prop} [Decidable c] (ht : Kept s t) (hu : Kept s u) : Kept s (if c then t else u) := by
  split
  · exact ht
  · exact hu

/-- A change of parts that hold no map, no draw and no queue. -/
theorem kept_parts (h : Kept s t) (h1 : u.pending = t.pending := by rfl) (h2 : u.now = t.now := by rfl) (h3 : u.free = t.free := by rfl)
    (h4 : u.regs = t.regs := by rfl) (h5 : u.chan.dram = t.chan.dram := by rfl) (h6 : u.marl.lines = t.marl.lines := by rfl) : Kept s u :=
  h.of_eq h1 h2 h3 h4 h5 h6

namespace Completes

theorem next (h : Kept s t) : Completes s (.next t) := ⟨t, rfl, h⟩

theorem either {c : Prop} [Decidable c] {o o' : Out} (h : Completes s o) (h' : Completes s o') : Completes s (if c then o else o') := by
  split
  · exact h
  · exact h'

theorem whenever {c : Prop} [Decidable c] (h : Kept s t) : Completes s (if c then .next t else .next s) := either (next h) (next (.refl s))

theorem engWork {e : BitVec 5} {f : State → State} (hf : ∀ a u, Kept a u → Kept a (f u)) : Completes s (s.engWork e f) :=
  whenever (kept_settle (hf _ _ (.refl s)))

theorem stageWork {e : BitVec 5} {f : State → State} (hf : ∀ a u, Kept a u → Kept a (f u)) : Completes s (s.stageWork e f) :=
  engWork fun _ _ h => kept_fetchInstr hf h

end Completes

/-- A change that may empty the memory or the lines. -/
theorem kept_maps (h : Kept s t) (h5 : Memory.wf t.chan.dram = true → Memory.wf u.chan.dram = true) (h6 : rising t.marl.lines = true → rising u.marl.lines = true)
    (h1 : u.pending = t.pending := by rfl) (h2 : u.now = t.now := by rfl) (h3 : u.free = t.free := by rfl) (h4 : u.regs = t.regs := by rfl) : Kept s u :=
  h.trans ⟨h1, h2, h3.ge, fun hw => by
    simp only [State.wf, Bool.and_eq_true, h4] at hw ⊢
    exact ⟨⟨hw.1.1, h5 hw.1.2⟩, h6 hw.2⟩⟩

/-! ## The rails and the clearing: commands that empty maps -/

theorem completes_railGood {r : RailId} : Completes s (execRailGood r s) := by
  refine .next (kept_ite (kept_ite (.refl s) (kept_powerOn (.refl s))) (kept_tryStart (kept_ite (kept_parts ?up) ?up)))
  split
  case h_1 => exact kept_ite (kept_parts (.refl s)) (kept_maps (.refl s) id fun _ => rfl)
  case h_2 | h_3 => exact kept_ite (kept_parts (.refl s)) (kept_maps (.refl s) (fun _ => rfl) id)
  case h_4 | h_5 => exact kept_ite (Kept.each (kept_parts (.refl s)) fun _ _ _ h => kept_checkPort h) (kept_parts (.refl s))
  case h_6 => exact kept_parts (.refl s)

theorem completes_railLost {r : RailId} : Completes s (execRailLost r s) := by
  have hraise : ∀ {u : State} (n : Nat), Kept s u → Kept s (if u.live then u.raise .rail 0 n else u) := fun n h => kept_ite (kept_raise h) h
  have hnoDram : ∀ {u v : State} (run : Bool) (n : Nat), Kept s u → v = { u with chan := { u.chan with dram := [], zeroed := [] } } →
      Kept s (if run then
        (fun t => if t.live then t.raise .rail 0 n else t)
          ((fun v => if v.live then v.each (List.range v.nChans) fun w c => w.fenceChannel c 3 else v) { v with start := { v.start with dramLost := true } })
        else v) := fun {u v} run n h hv => by
    have hempty : Kept s v := hv ▸ kept_maps h (fun _ => rfl) id
    exact kept_ite (hraise _ (kept_ite (Kept.each (kept_parts hempty) fun _ _ _ h => kept_fenceChannel h) (kept_parts hempty))) hempty
  cases r
  case vaon => exact .next (kept_ite (kept_vaonLost (.refl s)) (.refl s))
  case vcore => exact .either (.next (kept_baseReset (kept_parts (.refl s)))) (.next (kept_parts (.refl s)))
  case vstore =>
    refine .either (.next (kept_settle (kept_enterGrave (kept_raiseRec ?lost)))) (.next ?lost)
    exact kept_maps (t := s.keepCodes (· != 1)) (kept_keepCodes (.refl s)) id fun _ => rfl
  case vdram | vpp => exact .next (kept_ite (hnoDram _ _ (kept_keepCodes (kept_parts (.refl s))) rfl) (.refl s))
  case vser | vserh => exact .next (kept_ite (hraise _ (kept_portsLost (kept_parts (.refl s)))) (kept_parts (.refl s)))
  case vfuse => exact .next (kept_closeWindow (kept_parts (.refl s)))

theorem completes_clearingDone : Completes s (execClearingDone s) := by
  have hclear : Kept s (((s.clearFlush.clearAccess.clearMarl).each (List.range s.nChans) State.clearChannel).stopHeartbeats.sets
      [(BST_DBG_STATUS_CLEARING, 0), (BST_DBG_STATUS_CLEARED, 1)]) :=
    kept_sets (kept_stopHeartbeats ((kept_clearMarl (kept_clearAccess (kept_clearFlush (.refl s)))).each fun _ _ _ h => kept_clearChannel h))
  exact .either (.next (kept_ite (kept_takeEffect hclear) hclear)) (.next (.refl s))

/-! ## The other commands, one by one -/

theorem completes_perstNLow : Completes s (execPerstNLow s) := by
  unfold execPerstNLow
  repeat' first
    | with_reducible (exact Kept.refl _) | with_reducible (assumption) | with_reducible (apply Completes.next) | simp only [Kept.lit]
    | with_reducible (apply kept_baseReset) | (intro) | (split)

theorem completes_frcAttemptEnd {count : Option Nat} : Completes s (execFrcAttemptEnd count s) := by
  unfold execFrcAttemptEnd
  repeat' first
    | with_reducible (exact Kept.refl _) | with_reducible (assumption) | with_reducible (apply Completes.next) | simp only [Kept.lit]
    | with_reducible (apply kept_sets) | with_reducible (apply kept_switchMgt) | with_reducible (apply kept_setStep) | with_reducible (apply kept_set)
    | with_reducible (apply kept_force) | (intro) | (split)

theorem completes_refWindowEnd {ad ax bd bx : Nat} : Completes s (execRefWindowEnd ad ax bd bx s) := by
  unfold execRefWindowEnd
  repeat' first
    | with_reducible (exact Kept.refl _) | with_reducible (assumption) | with_reducible (apply Completes.next) | simp only [Kept.lit]
    | with_reducible (apply kept_refWindow) | with_reducible (apply kept_pickRef) | with_reducible (apply kept_setStep) | (intro) | (split)

theorem completes_pllLocked {p : PllId} : Completes s (execPllLocked p s) := by
  unfold execPllLocked
  repeat' first
    | with_reducible (exact Kept.refl _) | with_reducible (assumption) | with_reducible (apply Completes.next) | dsimp only
    | with_reducible (apply kept_set) | with_reducible (apply kept_switchMgt) | with_reducible (apply kept_lockPll) | with_reducible (apply kept_foxRelocked)
    | with_reducible (apply kept_checkPort) | with_reducible (apply kept_setLyrLock) | with_reducible (apply Kept.each) | (intro) | (split)

theorem completes_slowRcCheck {count : Nat} : Completes s (execSlowRcCheck count s) := by
  unfold execSlowRcCheck
  repeat' first
    | with_reducible (exact Kept.refl _) | with_reducible (assumption) | with_reducible (apply Completes.next) | simp only [Kept.lit]
    | with_reducible (apply kept_set) | with_reducible (apply kept_setStep) | with_reducible (apply kept_cancelSwitch) | with_reducible (apply kept_force)
    | with_reducible (apply kept_raiseRec) | with_reducible (apply kept_enterGrave) | with_reducible (apply kept_settle) | (intro) | (split)

theorem completes_frcServiceCheck {ok : Bool} : Completes s (execFrcServiceCheck ok s) := by
  unfold execFrcServiceCheck
  repeat' first
    | with_reducible (exact Kept.refl _) | with_reducible (assumption) | with_reducible (apply Completes.next) | simp only [Kept.lit]
    | with_reducible (apply kept_sets) | with_reducible (apply kept_cancelSwitch) | with_reducible (apply kept_raise) | (intro) | (split)

theorem completes_pllLockLost {p : PllId} : Completes s (execPllLockLost p s) := by
  unfold execPllLockLost
  repeat' first
    | with_reducible (exact Kept.refl _) | with_reducible (assumption) | with_reducible (apply Completes.next) | simp only [Kept.lit]
    | with_reducible (apply kept_set) | with_reducible (apply kept_cancelSwitch) | with_reducible (apply kept_clockLost) | with_reducible (apply kept_sets)
    | with_reducible (apply kept_trapEng) | with_reducible (apply kept_raise) | with_reducible (apply kept_closePairs) | with_reducible (apply kept_raiseRec)
    | with_reducible (apply kept_settle) | with_reducible (apply kept_silence) | with_reducible (apply Kept.each) | (intro) | (split)

theorem completes_holdoverExpiry : Completes s (execHoldoverExpiry s) := by
  unfold execHoldoverExpiry
  repeat' first
    | with_reducible (exact Kept.refl _) | with_reducible (assumption) | with_reducible (apply Completes.next) | simp only [Kept.lit]
    | with_reducible (apply kept_set) | with_reducible (apply kept_clockLost) | (intro) | (split)

theorem completes_clkSwitchRelease : Completes s (execClkSwitchRelease s) := by
  unfold execClkSwitchRelease
  repeat' first
    | with_reducible (exact Kept.refl _) | with_reducible (assumption) | with_reducible (apply Completes.next) | simp only [Kept.lit]
    | with_reducible (apply kept_mgtFrom) | (intro) | (split)

theorem completes_clkSwitchTimeout : Completes s (execClkSwitchTimeout s) := by
  unfold execClkSwitchTimeout
  repeat' first
    | with_reducible (exact Kept.refl _) | with_reducible (assumption) | with_reducible (apply Completes.next) | dsimp only
    | with_reducible (apply kept_mgtFrom) | with_reducible (apply kept_inc) | with_reducible (apply kept_event) | (intro) | (split)

theorem completes_layerHbLoss {c : BitVec 5} : Completes s (execLayerHbLoss c s) := by
  unfold execLayerHbLoss
  repeat' first
    | with_reducible (exact Kept.refl _) | with_reducible (assumption) | with_reducible (apply Completes.next) | simp only [Kept.lit]
    | with_reducible (apply kept_cutBursts) | with_reducible (apply kept_setChn) | with_reducible (apply kept_set) | with_reducible (apply kept_incSat)
    | (intro) | (split)

theorem completes_unitReset : Completes s (execUnitReset s) := by
  unfold execUnitReset
  repeat' first
    | with_reducible (exact Kept.refl _) | with_reducible (assumption) | with_reducible (apply Completes.next) | dsimp only
    | with_reducible (apply kept_startMgmt) | with_reducible (apply kept_mgmtRefuse) | with_reducible (apply kept_resetCmd)
    | with_reducible (apply kept_mgmtDone) | with_reducible (apply kept_settle) | with_reducible (refine Kept.snd_of_eq (by assumption) ?_)
    | with_reducible (refine Kept.fst_of_eq (by assumption) ?_) | with_reducible (refine Kept.snd_of_eq3 (by assumption) ?_)
    | with_reducible (refine Kept.fst_of_eq3 (by assumption) ?_) | (intro) | (split)

theorem completes_blockResetDone : Completes s (execBlockResetDone s) := by
  unfold execBlockResetDone
  repeat' first
    | with_reducible (exact Kept.refl _) | with_reducible (assumption) | with_reducible (apply Completes.next) | simp only [Kept.lit]
    | with_reducible (apply kept_endUnitReset) | with_reducible (apply kept_serve) | with_reducible (apply kept_settle) | (intro) | (split)

theorem completes_s1IdleExpiry : Completes s (execS1IdleExpiry s) := by
  unfold execS1IdleExpiry
  repeat' first
    | with_reducible (exact Kept.refl _) | with_reducible (assumption) | with_reducible (apply Completes.next) | simp only [Kept.lit]
    | with_reducible (apply kept_abandonTests) | with_reducible (apply kept_toL1) | with_reducible (apply kept_sets) | with_reducible (apply Kept.each)
    | (intro) | (split)

theorem completes_setPstate : Completes s (execSetPstate s) := by
  unfold execSetPstate
  repeat' first
    | with_reducible (exact Kept.refl _) | with_reducible (assumption) | with_reducible (apply Completes.next) | dsimp only
    | with_reducible (apply kept_startMgmt) | with_reducible (apply kept_mgmtRefuse) | with_reducible (apply kept_mgmtDone) | with_reducible (apply kept_askS1)
    | with_reducible (apply kept_startSleep) | with_reducible (apply kept_settle) | (intro) | (split)

theorem completes_sleepEntryDone : Completes s (execSleepEntryDone s) := by
  unfold execSleepEntryDone
  repeat' first
    | with_reducible (exact Kept.refl _) | with_reducible (assumption) | with_reducible (apply Completes.next) | dsimp only
    | with_reducible (apply kept_settle) | with_reducible (apply kept_fallAsleep) | with_reducible (apply kept_wake) | (intro) | (split)

theorem completes_s3Wake : Completes s (execS3Wake s) := by
  unfold execS3Wake
  repeat' first
    | with_reducible (exact Kept.refl _) | with_reducible (assumption) | with_reducible (apply Completes.next) | simp only [Kept.lit]
    | with_reducible (apply kept_awoken) | with_reducible (apply kept_checkPort) | with_reducible (apply kept_recalDue) | with_reducible (apply kept_emptyCache)
    | with_reducible (apply kept_reloadEng) | with_reducible (apply kept_loseMaps) | with_reducible (apply kept_settle) | with_reducible (apply Kept.each)
    | (intro) | (split)

theorem completes_otpCmdDone {sl lo no hi sh : BitVec 128} : Completes s (execOtpCmdDone sl lo no hi sh s) := by
  unfold execOtpCmdDone
  repeat' first
    | with_reducible (exact Kept.refl _) | with_reducible (assumption) | with_reducible (apply Completes.next) | dsimp only
    | with_reducible (apply kept_otpEnd) | with_reducible (apply kept_sets) | with_reducible (apply kept_blow) | with_reducible (apply kept_toppedUp)
    | with_reducible (apply kept_set) | with_reducible (apply Kept.each) | with_reducible (apply Kept.drawn) | (intro) | (split)

theorem completes_tmReceived {lane : BitVec 8} {tm : TmIn} : Completes s (execTmReceived lane tm s) := by
  unfold execTmReceived
  repeat' first
    | with_reducible (exact Kept.refl _) | with_reducible (assumption) | with_reducible (apply Completes.next) | dsimp only
    | with_reducible (apply kept_leaveL2) | with_reducible (apply kept_sets) | with_reducible (apply kept_trainEq) | with_reducible (apply kept_takeMarker)
    | with_reducible (apply kept_sendBlock) | (intro) | (split)

theorem completes_trainTimeout {port : BitVec 5} {link : BitVec 3} : Completes s (execTrainTimeout port link s) := by
  unfold execTrainTimeout
  repeat' first
    | with_reducible (exact Kept.refl _) | with_reducible (assumption) | with_reducible (apply Completes.next) | dsimp only
    | with_reducible (apply kept_laneRestart) | with_reducible (apply kept_setLink) | with_reducible (apply kept_sets) | with_reducible (apply kept_inc)
    | with_reducible (apply kept_sendBlocks) | with_reducible (apply Kept.each) | (intro) | (split)

theorem completes_amReceived {lane : BitVec 8} {raw : List (BitVec 8)} {up : Bool} {eyeH : List (BitVec 8)} {eyeW : List (BitVec 6)} : Completes s (execAmReceived lane raw up eyeH eyeW s) := by
  unfold execAmReceived
  repeat' first
    | with_reducible (exact Kept.refl _) | with_reducible (assumption) | with_reducible (apply Completes.next) | dsimp only
    | with_reducible (apply kept_setLane) | with_reducible (apply kept_inc) | with_reducible (apply kept_adapt) | with_reducible (apply kept_sets)
    | with_reducible (apply kept_laneFail) | (intro) | (split)

theorem completes_retrainDone {port : BitVec 5} {link : BitVec 3} : Completes s (execRetrainDone port link s) := by
  unfold execRetrainDone
  repeat' first
    | with_reducible (exact Kept.refl _) | with_reducible (assumption) | with_reducible (apply Completes.next) | dsimp only
    | with_reducible (apply kept_linkDown) | with_reducible (apply kept_set) | with_reducible (apply kept_takeWidth) | with_reducible (apply kept_enterL0)
    | with_reducible (apply kept_raise) | (intro) | (split)

theorem completes_l1Exit {port : BitVec 5} {link : BitVec 3} : Completes s (execL1Exit port link s) := by
  unfold execL1Exit
  repeat' first
    | with_reducible (exact Kept.refl _) | with_reducible (assumption) | with_reducible (apply Completes.next) | dsimp only
    | with_reducible (apply kept_setLane) | with_reducible (apply kept_sendMarkers) | with_reducible (apply kept_set) | with_reducible (apply kept_sendAm)
    | with_reducible (apply Kept.each) | (intro) | (split)

theorem completes_flitReceived {port : BitVec 5} {link : BitVec 3} {wire : List (BitVec 8)} : Completes s (execFlitReceived port link wire s) := by
  unfold execFlitReceived
  repeat' first
    | with_reducible (exact Kept.refl _) | with_reducible (assumption) | with_reducible (apply Completes.next) | dsimp only
    | with_reducible (apply kept_readFlit) | with_reducible (apply kept_injCheck) | with_reducible (apply kept_acceptFlit) | with_reducible (apply kept_onLcf)
    | with_reducible (apply kept_inc) | with_reducible (apply kept_raiseNak) | with_reducible (apply kept_laneFail) | with_reducible (apply Kept.each)
    | with_reducible (refine Kept.snd_of_eq (by assumption) ?_) | with_reducible (refine Kept.fst_of_eq (by assumption) ?_)
    | with_reducible (refine Kept.snd_of_eq3 (by assumption) ?_) | with_reducible (refine Kept.fst_of_eq3 (by assumption) ?_) | (intro) | (split)

theorem completes_packetSend {port : BitVec 5} {link : BitVec 3} : Completes s (execPacketSend port link s) := by
  unfold execPacketSend
  repeat' first
    | with_reducible (exact Kept.refl _) | with_reducible (assumption) | with_reducible (apply Completes.next) | dsimp only
    | with_reducible (apply kept_sendLcf) | with_reducible (apply kept_replayFlit) | with_reducible (apply kept_sendNext) | with_reducible (apply kept_dropOut)
    | with_reducible (apply kept_launch) | (intro) | (split)

theorem completes_linkWaitExpiry {ix : Nat} : Completes s (execLinkWaitExpiry ix s) := by
  unfold execLinkWaitExpiry
  repeat' first
    | with_reducible (exact Kept.refl _) | with_reducible (assumption) | with_reducible (apply Completes.next) | simp only [Kept.lit]
    | with_reducible (apply kept_waitEnds) | (intro) | (split)

theorem completes_egressMove {port : BitVec 5} {vc : BitVec 3} : Completes s (execEgressMove port vc s) := by
  unfold execEgressMove
  repeat' first
    | with_reducible (exact Kept.refl _) | with_reducible (assumption) | with_reducible (apply Completes.next) | dsimp only
    | with_reducible (apply kept_tryMove) | (intro) | (split)

theorem completes_bypassOpen {pair : BitVec 4} {forceN : Bool} : Completes s (execBypassOpen pair forceN s) := by
  unfold execBypassOpen
  repeat' first
    | with_reducible (exact Kept.refl _) | with_reducible (assumption) | with_reducible (apply Completes.next) | simp only [Kept.lit]
    | with_reducible (apply kept_closePairs) | with_reducible (apply kept_set) | with_reducible (apply kept_openPair) | (intro) | (split)

theorem completes_snapshotComplete : Completes s (execSnapshotComplete s) := by
  unfold execSnapshotComplete
  repeat' first
    | with_reducible (exact Kept.refl _) | with_reducible (assumption) | with_reducible (apply Completes.next) | simp only [Kept.lit] | (intro) | (split)

theorem completes_svc {p : Packet} : Completes s (execSvc p s) := by
  unfold execSvc
  repeat' first
    | with_reducible (exact Kept.refl _) | with_reducible (assumption) | with_reducible (apply Completes.next) | simp only [Kept.lit]
    | with_reducible (apply kept_dropBad) | with_reducible (apply kept_backPressure) | with_reducible (apply kept_svcWait) | with_reducible (apply kept_takeIn)
    | with_reducible (apply kept_activity) | with_reducible (apply kept_refuse) | with_reducible (apply kept_incPair)
    | with_reducible (refine kept_svcCheck (by assumption) ?_) | with_reducible (apply kept_withLocal)
    | with_reducible (refine Kept.snd_of_eq (by assumption) ?_) | with_reducible (refine Kept.fst_of_eq (by assumption) ?_)
    | with_reducible (refine Kept.snd_of_eq3 (by assumption) ?_) | with_reducible (refine Kept.fst_of_eq3 (by assumption) ?_) | (intro) | (split)

theorem completes_dbell {p : Packet} : Completes s (execDbell p s) := by
  unfold execDbell
  repeat' first
    | with_reducible (exact Kept.refl _) | with_reducible (assumption) | with_reducible (apply Completes.next) | dsimp only
    | with_reducible (apply kept_takeIn) | with_reducible (apply kept_activity) | with_reducible (apply kept_dropBad) | with_reducible (apply kept_doorbell)
    | with_reducible (apply kept_inc) | with_reducible (apply kept_withLocal) | with_reducible (refine Kept.snd_of_eq (by assumption) ?_)
    | with_reducible (refine Kept.fst_of_eq (by assumption) ?_) | with_reducible (refine Kept.snd_of_eq3 (by assumption) ?_)
    | with_reducible (refine Kept.fst_of_eq3 (by assumption) ?_) | (intro) | (split)

theorem completes_mregRd {p : Packet} : Completes s (execMregRd p s) := by
  unfold execMregRd
  repeat' first
    | with_reducible (exact Kept.refl _) | with_reducible (assumption) | with_reducible (apply Completes.next) | dsimp only
    | with_reducible (apply kept_mregTake) | with_reducible (apply kept_readRegs) | with_reducible (apply kept_emitRsp)
    | with_reducible (refine Kept.snd_of_eq (by assumption) ?_) | with_reducible (refine Kept.fst_of_eq (by assumption) ?_)
    | with_reducible (refine Kept.snd_of_eq3 (by assumption) ?_) | with_reducible (refine Kept.fst_of_eq3 (by assumption) ?_) | (intro)

theorem completes_mregWr {p : Packet} : Completes s (execMregWr p s) := by
  unfold execMregWr
  repeat' first
    | with_reducible (exact Kept.refl _) | with_reducible (assumption) | with_reducible (apply Completes.next) | simp only [Kept.lit]
    | with_reducible (apply kept_mregTake) | with_reducible (apply kept_regWrite) | with_reducible (apply kept_pathStatus) | with_reducible (apply kept_emitRsp)
    | with_reducible (apply kept_settle) | with_reducible (refine Kept.snd_of_eq (by assumption) ?_) | with_reducible (refine Kept.fst_of_eq (by assumption) ?_)
    | with_reducible (refine Kept.snd_of_eq3 (by assumption) ?_) | with_reducible (refine Kept.fst_of_eq3 (by assumption) ?_) | (intro) | (split)

theorem completes_requestTimeout {tag : BitVec 16} : Completes s (execRequestTimeout tag s) := by
  unfold execRequestTimeout
  repeat' first
    | with_reducible (exact Kept.refl _) | with_reducible (assumption) | with_reducible (apply Completes.next) | simp only [Kept.lit]
    | with_reducible (apply kept_ownAnswered) | (intro) | (split)

theorem completes_marlWb : Completes s (execMarlWb s) :=
  .next (kept_startMgmt (fun _ _ _ h => kept_ite (kept_mgmtRefuse h) (kept_ite (kept_mgmtRefuse h) (kept_startFlush h))) (.refl s))

theorem completes_repartitionDone : Completes s (execRepartitionDone s) := by
  unfold execRepartitionDone
  repeat' first
    | with_reducible (exact Kept.refl _) | with_reducible (assumption) | with_reducible (apply Completes.next) | simp only [Kept.lit]
    | with_reducible (apply kept_repartition) | with_reducible (apply kept_reroute) | (intro) | (split)

theorem completes_refreshDue {c : BitVec 5} {pc : BitVec 1} {taps : List Bool} : Completes s (execRefreshDue c pc taps s) := by
  unfold execRefreshDue
  repeat' first
    | with_reducible (exact Kept.refl _) | with_reducible (assumption) | with_reducible (apply Completes.next) | dsimp only
    | with_reducible (apply kept_set) | with_reducible (apply kept_refresh) | with_reducible (apply kept_rateEvent) | (intro) | (split)

theorem completes_refRateLower {layer : BitVec 5} : Completes s (execRefRateLower layer s) := by
  unfold execRefRateLower
  repeat' first
    | with_reducible (exact Kept.refl _) | with_reducible (assumption) | with_reducible (apply Completes.next) | dsimp only
    | with_reducible (apply kept_set) | with_reducible (apply kept_rateEvent) | with_reducible (apply Kept.each) | (intro) | (split)

theorem completes_setPasr : Completes s (execSetPasr s) := by
  unfold execSetPasr
  repeat' first
    | with_reducible (exact Kept.refl _) | with_reducible (assumption) | with_reducible (apply Completes.next) | dsimp only
    | with_reducible (apply kept_startMgmt) | with_reducible (apply kept_mgmtRefuse) | with_reducible (apply kept_startPasr) | (intro) | (split)

theorem completes_pasrChangeDone {c : BitVec 5} : Completes s (execPasrChangeDone c s) := by
  unfold execPasrChangeDone
  repeat' first
    | with_reducible (exact Kept.refl _) | with_reducible (assumption) | with_reducible (apply Completes.next) | dsimp only
    | with_reducible (apply kept_applyPasr) | with_reducible (apply kept_set) | with_reducible (apply kept_pasrAnswer) | with_reducible (apply Kept.each)
    | (intro) | (split)

theorem completes_chanRebuild : Completes s (execChanRebuild s) :=
  .next (kept_startMgmt (fun _ _ _ h => kept_ite (kept_mgmtRefuse h) (kept_ite (kept_mgmtRefuse h) (kept_finishRebuildWaits h))) (.refl s))

theorem completes_layerRelockAttempt {layer : BitVec 5} {found : Option (List CoilCal)} : Completes s (execLayerRelockAttempt layer found s) := by
  unfold execLayerRelockAttempt
  repeat' first
    | with_reducible (exact Kept.refl _) | with_reducible (assumption) | with_reducible (apply Completes.next) | simp only [Kept.lit]
    | with_reducible (apply kept_setChn) | with_reducible (apply kept_recalibrate) | with_reducible (apply kept_setLyrLock) | with_reducible (apply kept_inc)
    | with_reducible (apply kept_clearHbLost) | with_reducible (apply kept_settle) | with_reducible (apply kept_fenceChannel) | with_reducible (apply Kept.each)
    | (intro) | (split)

theorem completes_couplingBoundaryForced {c : BitVec 5} : Completes s (execCouplingBoundaryForced c s) := by
  unfold execCouplingBoundaryForced
  repeat' first
    | with_reducible (exact Kept.refl _) | with_reducible (assumption) | with_reducible (apply Completes.next) | dsimp only
    | with_reducible (apply kept_boundary) | with_reducible (apply kept_settle) | with_reducible (apply Kept.drawn) | (intro) | (split)

theorem completes_qosSet : Completes s (execQosSet s) :=
  .next (kept_startMgmt (fun _ _ _ h => kept_qosSetOp h) (.refl s))

theorem completes_nop : Completes s (execNop s) :=
  .next (kept_startMgmt (fun _ _ _ h => kept_mgmtDone h) (.refl s))

theorem completes_ringSetup : Completes s (execRingSetup s) :=
  .next (kept_startMgmt (fun _ _ _ h => kept_ite (kept_mgmtRefuse h) (kept_ite (kept_mgmtRefuse h) (kept_mgmtDone (kept_enableRing (Kept.each h (fun _ _ _ h => kept_setReg h)))))) (.refl s))

theorem completes_ringReset : Completes s (execRingReset s) :=
  .next (kept_startMgmt (fun _ _ _ h => kept_ite (kept_mgmtRefuse h) (kept_ite (kept_mgmtRefuse h) (kept_finishRingResets (kept_resetRing h)))) (.refl s))

theorem completes_ringResume : Completes s (execRingResume s) :=
  .next (kept_startMgmt (fun _ _ _ h => kept_ite (kept_mgmtRefuse h) (kept_ite (kept_mgmtRefuse h) (kept_mgmtDone (kept_resumeRing h)))) (.refl s))

theorem completes_fwSlotWrite : Completes s (execFwSlotWrite s) := by
  unfold execFwSlotWrite
  repeat' first
    | with_reducible (exact Kept.refl _) | with_reducible (assumption) | with_reducible (apply Completes.next) | dsimp only
    | with_reducible (apply kept_startMgmt) | with_reducible (apply kept_mgmtRefuse) | with_reducible (apply kept_slotWrite)
    | with_reducible (apply kept_markSlot) | with_reducible (apply kept_mgmtDone) | (intro) | (split)

theorem completes_fwActivate : Completes s (execFwActivate s) := by
  unfold execFwActivate
  repeat' first
    | with_reducible (exact Kept.refl _) | with_reducible (assumption) | with_reducible (apply Completes.next) | simp only [Kept.lit]
    | with_reducible (apply kept_startMgmt) | with_reducible (apply kept_mgmtRefuse) | with_reducible (apply kept_markSlot) | with_reducible (apply kept_event)
    | with_reducible (apply kept_mgmtDone) | (intro) | (split)

theorem completes_correctiveWrite {c : BitVec 5} : Completes s (execCorrectiveWrite c s) := by
  unfold execCorrectiveWrite
  repeat' first
    | with_reducible (exact Kept.refl _) | with_reducible (assumption) | with_reducible (apply Completes.next) | dsimp only
    | with_reducible (apply kept_correct) | (intro) | (split)

theorem completes_badgerPatrolRead {c : BitVec 5} {err : List (BitVec 8)} : Completes s (execBadgerPatrolRead c err s) := by
  unfold execBadgerPatrolRead
  repeat' first
    | with_reducible (exact Kept.refl _) | with_reducible (assumption) | with_reducible (apply Completes.next) | simp only [Kept.lit]
    | with_reducible (apply kept_passEnds) | with_reducible (apply kept_settle) | with_reducible (refine kept_patrolBlock (by assumption) ?_) | (intro)
    | (split)

theorem completes_badgerSet : Completes s (execBadgerSet s) :=
  .next (kept_startMgmt (fun _ _ _ h => kept_ite (kept_mgmtRefuse h) (kept_ite (kept_mgmtRefuse h) (kept_mgmtDone (kept_setPatrol (kept_setReg h))))) (.refl s))

theorem completes_repair {u : RepairUnit} : Completes s (execRepair u s) := by
  unfold execRepair
  repeat' first
    | with_reducible (exact Kept.refl _) | with_reducible (assumption) | with_reducible (apply Completes.next) | dsimp only
    | with_reducible (apply kept_repairBlock) | with_reducible (apply kept_settle) | with_reducible (apply kept_repairUnit) | (intro) | (split)

theorem completes_cTimerExpiry {d : BitVec 8} : Completes s (execCTimerExpiry d s) := by
  unfold execCTimerExpiry
  repeat' first
    | with_reducible (exact Kept.refl _) | with_reducible (assumption) | with_reducible (apply Completes.next) | dsimp only
    | with_reducible (apply kept_contain) | with_reducible (apply kept_setRec) | with_reducible (apply kept_inc) | with_reducible (apply kept_recChanged)
    | with_reducible (apply kept_settle) | (intro) | (split)

theorem completes_dTimerExpiry {d : BitVec 8} : Completes s (execDTimerExpiry d s) := by
  unfold execDTimerExpiry
  repeat' first
    | with_reducible (exact Kept.refl _) | with_reducible (assumption) | with_reducible (apply Completes.next) | dsimp only
    | with_reducible (apply kept_setRec) | with_reducible (apply kept_degrade) | with_reducible (apply kept_inc) | with_reducible (apply kept_recChanged)
    | with_reducible (apply kept_settle) | (intro) | (split)

theorem completes_graveFlushDone : Completes s (execGraveFlushDone s) := by
  unfold execGraveFlushDone
  repeat' first
    | with_reducible (exact Kept.refl _) | with_reducible (assumption) | with_reducible (apply Completes.next) | simp only [Kept.lit]
    | with_reducible (apply kept_lost) | with_reducible (apply kept_logItem) | with_reducible (apply kept_saveCounters) | with_reducible (apply kept_set)
    | with_reducible (apply Kept.each) | (intro) | (split)

theorem completes_lockstepMismatch {pc : BitVec 32} : Completes s (execLockstepMismatch pc s) := by
  unfold execLockstepMismatch
  repeat' first
    | with_reducible (exact Kept.refl _) | with_reducible (assumption) | with_reducible (apply Completes.next) | simp only [Kept.lit]
    | with_reducible (apply kept_injCheck) | with_reducible (apply kept_escalate) | with_reducible (apply kept_raise)
    | with_reducible (refine Kept.snd_of_eq (by assumption) ?_) | with_reducible (refine Kept.fst_of_eq (by assumption) ?_)
    | with_reducible (refine Kept.snd_of_eq3 (by assumption) ?_) | with_reducible (refine Kept.fst_of_eq3 (by assumption) ?_) | (intro) | (split)

theorem completes_mgcReloadDone {ok : Bool} : Completes s (execMgcReloadDone ok s) := by
  unfold execMgcReloadDone
  repeat' first
    | with_reducible (exact Kept.refl _) | with_reducible (assumption) | with_reducible (apply Completes.next) | simp only [Kept.lit]
    | with_reducible (apply kept_mgmtDone) | with_reducible (apply kept_escalate) | with_reducible (apply Kept.each) | (intro) | (split)

theorem completes_fabStateError {port : BitVec 5} {structure_ : BitVec 8} : Completes s (execFabStateError port structure_ s) := by
  unfold execFabStateError
  repeat' first
    | with_reducible (exact Kept.refl _) | with_reducible (assumption) | with_reducible (apply Completes.next) | simp only [Kept.lit]
    | with_reducible (apply kept_injCheck) | with_reducible (apply kept_portReset) | with_reducible (apply kept_escalate) | with_reducible (apply kept_raise)
    | with_reducible (apply kept_setRec) | with_reducible (refine Kept.snd_of_eq (by assumption) ?_) | with_reducible (refine Kept.fst_of_eq (by assumption) ?_)
    | with_reducible (refine Kept.snd_of_eq3 (by assumption) ?_) | with_reducible (refine Kept.fst_of_eq3 (by assumption) ?_) | (intro) | (split)

theorem completes_alarmWindowEnd {d : BitVec 8} : Completes s (execAlarmWindowEnd d s) := by
  unfold execAlarmWindowEnd
  repeat' first
    | with_reducible (exact Kept.refl _) | with_reducible (assumption) | with_reducible (apply Completes.next) | simp only [Kept.lit]
    | with_reducible (apply kept_sendAlarms) | (intro) | (split)

theorem completes_fltInject : Completes s (execFltInject s) := by
  unfold execFltInject
  repeat' first
    | with_reducible (exact Kept.refl _) | with_reducible (assumption) | with_reducible (apply Completes.next) | dsimp only
    | with_reducible (apply kept_startMgmt) | with_reducible (apply kept_mgmtRefuse) | with_reducible (apply kept_inject) | with_reducible (apply kept_mgmtDone)
    | with_reducible (refine Kept.snd_of_eq (by assumption) ?_) | with_reducible (refine Kept.fst_of_eq (by assumption) ?_)
    | with_reducible (refine Kept.snd_of_eq3 (by assumption) ?_) | with_reducible (refine Kept.fst_of_eq3 (by assumption) ?_) | (intro) | (split)

theorem completes_logWrite {fails : BitVec 2} : Completes s (execLogWrite fails s) := by
  unfold execLogWrite
  repeat' first
    | with_reducible (exact Kept.refl _) | with_reducible (assumption) | with_reducible (apply Completes.next) | simp only [Kept.lit]
    | with_reducible (apply kept_checkFreeze) | with_reducible (apply kept_settFail) | with_reducible (apply kept_setPage) | with_reducible (apply kept_logItem)
    | with_reducible (apply kept_settle) | (intro) | (split)

theorem completes_recFreezeOn {via : Option Path} : Completes s (execRecFreezeOn via s) := by
  unfold execRecFreezeOn
  repeat' first
    | with_reducible (exact Kept.refl _) | with_reducible (assumption) | with_reducible (apply Completes.next) | simp only [Kept.lit]
    | with_reducible (apply kept_pathWrite) | with_reducible (apply kept_freezeRow) | (intro) | (split)

theorem completes_recThaw {via : Option Path} : Completes s (execRecThaw via s) := by
  unfold execRecThaw
  repeat' first
    | with_reducible (exact Kept.refl _) | with_reducible (assumption) | with_reducible (apply Completes.next) | simp only [Kept.lit]
    | with_reducible (apply kept_pathWrite) | with_reducible (apply kept_freezeRow) | (intro) | (split)

theorem completes_recRead : Completes s (execRecRead s) := by
  unfold execRecRead
  repeat' first
    | with_reducible (exact Kept.refl _) | with_reducible (assumption) | with_reducible (apply Completes.next) | dsimp only
    | with_reducible (apply kept_startMgmt) | with_reducible (apply kept_mgmtRefuse) | with_reducible (apply kept_putMgmt)
    | with_reducible (apply kept_recReadSend) | with_reducible (refine Kept.snd_of_eq (by assumption) ?_)
    | with_reducible (refine Kept.fst_of_eq (by assumption) ?_) | with_reducible (refine Kept.snd_of_eq3 (by assumption) ?_)
    | with_reducible (refine Kept.fst_of_eq3 (by assumption) ?_) | (intro) | (split)

theorem completes_telemetrySample : Completes s (execTelemetrySample s) := by
  unfold execTelemetrySample
  repeat' first
    | with_reducible (exact Kept.refl _) | with_reducible (assumption) | with_reducible (apply Completes.next) | simp only [Kept.lit]
    | with_reducible (apply kept_inc) | with_reducible (apply kept_telemDrop) | with_reducible (apply kept_emit) | with_reducible (apply Kept.each) | (intro)
    | (split)

theorem completes_telSet : Completes s (execTelSet s) :=
  .next (kept_startMgmt (fun _ _ _ h => kept_ite (kept_mgmtRefuse h) (kept_mgmtDone (kept_sets h))) (.refl s))

theorem completes_settFlush {fails : BitVec 2} : Completes s (execSettFlush fails s) := by
  unfold execSettFlush
  repeat' first
    | with_reducible (exact Kept.refl _) | with_reducible (assumption) | with_reducible (apply Completes.next) | dsimp only
    | with_reducible (apply kept_flushSett) | with_reducible (apply kept_settFail) | with_reducible (apply kept_saveCounters)
    | with_reducible (apply kept_checkFreeze) | with_reducible (apply kept_settle) | (intro) | (split)

theorem completes_sensorSample {t : List (Option Int)} : Completes s (execSensorSample t s) := by
  unfold execSensorSample
  repeat' first
    | with_reducible (exact Kept.refl _) | with_reducible (assumption) | with_reducible (apply Completes.next) | simp only [Kept.lit]
    | with_reducible (apply kept_setSensor) | with_reducible (apply kept_judgeSensor) | with_reducible (apply kept_settleSensor)
    | with_reducible (apply kept_sensorBroke) | with_reducible (apply kept_thresholds) | with_reducible (apply kept_throttleDown)
    | with_reducible (apply kept_recalMoved) | with_reducible (apply kept_closeWindow) | with_reducible (apply kept_trip) | with_reducible (apply kept_settle)
    | with_reducible (apply Kept.each) | (intro) | (split)

theorem completes_throttleRamp : Completes s (execThrottleRamp s) := by
  unfold execThrottleRamp
  repeat' first
    | with_reducible (exact Kept.refl _) | with_reducible (assumption) | with_reducible (apply Completes.next) | simp only [Kept.lit]
    | with_reducible (apply kept_incPair) | with_reducible (apply kept_setFraction) | with_reducible (apply Kept.each) | (intro) | (split)

theorem completes_thmSet : Completes s (execThmSet s) :=
  .next (kept_startMgmt (fun _ _ _ h => kept_ite (kept_mgmtRefuse h) (kept_mgmtDone (kept_setLimits h))) (.refl s))

theorem completes_testSliceStart : Completes s (execTestSliceStart s) := by
  unfold execTestSliceStart
  repeat' first
    | with_reducible (exact Kept.refl _) | with_reducible (assumption) | with_reducible (apply Completes.next) | dsimp only
    | with_reducible (apply kept_incPair) | with_reducible (apply kept_coilStart) | with_reducible (apply kept_set) | with_reducible (apply kept_padStart)
    | with_reducible (apply kept_laneStart) | with_reducible (apply Kept.each) | (intro) | (split)

theorem completes_coilTestEnd {c : BitVec 5} {m : CoilMeas} {bitErr : Bool} : Completes s (execCoilTestEnd c m bitErr s) := by
  unfold execCoilTestEnd
  repeat' first
    | with_reducible (exact Kept.refl _) | with_reducible (assumption) | with_reducible (apply Completes.next) | dsimp only
    | with_reducible (apply kept_releaseShadow) | with_reducible (apply kept_coilVerdict) | with_reducible (apply kept_settle) | (intro) | (split)

theorem completes_padTestEnd {slice : BitVec 6} {up failed : Bool} : Completes s (execPadTestEnd slice up failed s) := by
  unfold execPadTestEnd
  repeat' first
    | with_reducible (exact Kept.refl _) | with_reducible (assumption) | with_reducible (apply Completes.next) | dsimp only
    | with_reducible (apply kept_setPads) | with_reducible (apply kept_padVerdict) | with_reducible (apply kept_settle) | (intro) | (split)

theorem completes_laneMarginCheck {lane eyeH : BitVec 8} {eyeW : BitVec 6} : Completes s (execLaneMarginCheck lane eyeH eyeW s) := by
  unfold execLaneMarginCheck
  repeat' first
    | with_reducible (exact Kept.refl _) | with_reducible (assumption) | with_reducible (apply Completes.next) | simp only [Kept.lit]
    | with_reducible (apply kept_laneVerdict) | (intro) | (split)

theorem completes_bstRun : Completes s (execBstRun s) := by
  unfold execBstRun
  repeat' first
    | with_reducible (exact Kept.refl _) | with_reducible (assumption) | with_reducible (apply Completes.next) | simp only [Kept.lit]
    | with_reducible (apply kept_startMgmt) | with_reducible (apply kept_mgmtRefuse) | with_reducible (apply kept_set) | (intro) | (split)

theorem completes_bstRunStep {m : CoilMeas} {bad : Bool} {eyeH : BitVec 8} {eyeW : BitVec 6} : Completes s (execBstRunStep m bad eyeH eyeW s) := by
  unfold execBstRunStep
  repeat' first
    | with_reducible (exact Kept.refl _) | with_reducible (assumption) | with_reducible (apply Completes.next) | simp only [Kept.lit]
    | with_reducible (apply kept_runUnit) | with_reducible (apply kept_settle) | with_reducible (apply kept_set) | with_reducible (apply kept_mgmtDone)
    | with_reducible (refine Kept.snd_of_eq (by assumption) ?_) | with_reducible (refine Kept.fst_of_eq (by assumption) ?_)
    | with_reducible (refine Kept.snd_of_eq3 (by assumption) ?_) | with_reducible (refine Kept.fst_of_eq3 (by assumption) ?_) | (intro) | (split)

theorem completes_regacc {dr : BitVec 57} : Completes s (execRegacc dr s) := by
  unfold execRegacc
  repeat' first
    | with_reducible (exact Kept.refl _) | with_reducible (assumption) | with_reducible (apply Completes.next) | simp only [Kept.lit]
    | with_reducible (apply kept_openIr) | with_reducible (apply kept_capture) | with_reducible (apply kept_pathWrite) | with_reducible (apply kept_sideRead)
    | with_reducible (refine Kept.snd_of_eq (by assumption) ?_) | with_reducible (refine Kept.fst_of_eq (by assumption) ?_)
    | with_reducible (refine Kept.snd_of_eq3 (by assumption) ?_) | with_reducible (refine Kept.fst_of_eq3 (by assumption) ?_) | (intro) | (split)

theorem completes_authChal : Completes s (execAuthChal s) := by
  unfold execAuthChal
  repeat' first
    | with_reducible (exact Kept.refl _) | with_reducible (assumption) | with_reducible (apply Completes.next) | simp only [Kept.lit]
    | with_reducible (apply kept_openIr) | with_reducible (apply kept_draw) | with_reducible (apply kept_capture)
    | with_reducible (refine Kept.snd_of_eq (by assumption) ?_) | with_reducible (refine Kept.fst_of_eq (by assumption) ?_)
    | with_reducible (refine Kept.snd_of_eq3 (by assumption) ?_) | with_reducible (refine Kept.fst_of_eq3 (by assumption) ?_) | (intro)

theorem completes_authResp {b : List (BitVec 8)} : Completes s (execAuthResp b s) := by
  unfold execAuthResp
  repeat' first
    | with_reducible (exact Kept.refl _) | with_reducible (assumption) | with_reducible (apply Completes.next) | simp only [Kept.lit]
    | with_reducible (apply kept_openIr) | with_reducible (apply kept_capture) | with_reducible (apply kept_set) | with_reducible (apply kept_incSat) | (intro)
    | (split)

theorem completes_i3cRegRead : Completes s (execI3cRegRead s) := by
  unfold execI3cRegRead
  repeat' first
    | with_reducible (exact Kept.refl _) | with_reducible (assumption) | with_reducible (apply Completes.next) | simp only [Kept.lit]
    | with_reducible (apply kept_sideRead) | with_reducible (refine Kept.snd_of_eq (by assumption) ?_)
    | with_reducible (refine Kept.fst_of_eq (by assumption) ?_) | with_reducible (refine Kept.snd_of_eq3 (by assumption) ?_)
    | with_reducible (refine Kept.fst_of_eq3 (by assumption) ?_) | (intro) | (split)

theorem completes_prbsCheckerLock {lane : BitVec 8} {bits : List (BitVec 8)} {lost : Bool} : Completes s (execPrbsCheckerLock lane bits lost s) := by
  unfold execPrbsCheckerLock
  repeat' first
    | with_reducible (exact Kept.refl _) | with_reducible (assumption) | with_reducible (apply Completes.next) | dsimp only
    | with_reducible (apply kept_setLane) | with_reducible (apply kept_incPair) | with_reducible (apply kept_set) | (intro) | (split)

/-- Whichever operation a ring-0 descriptor names (Table 14.10), it completes. -/
theorem completes_startOp (op : Nat) : Completes s (s.startOp op) := by
  unfold State.startOp
  split
  · exact completes_nop
  · exact completes_ringSetup
  · exact completes_ringReset
  · exact completes_ringResume
  · exact completes_setPstate
  · exact completes_unitReset
  · exact .next (kept_startFltAck (.refl s))
  · exact completes_fltInject
  · exact completes_marlWb
  · exact completes_setPasr
  · exact completes_chanRebuild
  · exact completes_qosSet
  · exact completes_thmSet
  · exact completes_badgerSet
  · exact completes_bstRun
  · exact completes_recRead
  · exact .next (kept_startRecFreeze (.refl s))
  · exact completes_telSet
  · exact completes_fwSlotWrite
  · exact completes_fwActivate
  · exact .next (.refl s)

theorem completes_descStart {n : BitVec 6} : Completes s (execDescStart n s) := by
  unfold execDescStart
  split
  · split
    · exact completes_startOp _
    · exact .next (.refl s)
  · exact .next (kept_settle (kept_startNext (.refl s)))

/-- Whatever the command and the state, `exec` answers a next state, and that state keeps the queue, the clock, the count of draws and
the form of the maps: the dispatch table once more, each row by what its operations keep. -/
theorem exec_completes (i : Instr) : Completes s (exec i s) := by
  cases i with simp only [exec]
  | vaonGood => exact .next (kept_powerOn (.refl s))
  | railGood => exact completes_railGood
  | railLost => exact completes_railLost
  | vfuseLost => exact .next (kept_closeWindow (kept_parts (.refl s)))
  | perstNLow => exact completes_perstNLow
  | perstNHigh => exact .next (kept_tryStart (kept_parts (.refl s)))
  | bypForceNLow => exact .next (kept_closePairs (kept_parts (.refl s)))
  | startPhaseEnd => exact .either (.next (.refl s)) (.either (.next (kept_setPhase (kept_clockStart (.refl s)))) (.either (.next (kept_endP2 (.refl s))) (.next (kept_phaseEnd (.refl s)))))
  | phaseTimerExpiry => exact .either (.next (.refl s)) (.next (kept_phaseEnd (.refl s)))
  | coldHoldExit => exact .either (.next (.refl s)) (.either (.next (kept_afterP3 (kept_parts (.refl s)))) (.next (kept_enterP4 (.refl s))))
  | startGo => exact .next (kept_pathWrite (.refl s))
  | frcAttemptEnd => exact completes_frcAttemptEnd
  | refWindowEnd => exact completes_refWindowEnd
  | pllLocked => exact completes_pllLocked
  | slowRcCheck => exact completes_slowRcCheck
  | frcServiceCheck => exact completes_frcServiceCheck
  | refMissingEdges => exact .whenever (kept_refFail (.refl s))
  | pllLockLost => exact completes_pllLockLost
  | holdoverExpiry => exact completes_holdoverExpiry
  | foxPllRelockTry => exact .whenever (kept_foxRelocked (.refl s))
  | clkSwitchRelease => exact completes_clkSwitchRelease
  | clkSwitchTimeout => exact completes_clkSwitchTimeout
  | wakeRefTimeout => exact .whenever (kept_settle (kept_raiseRec (kept_set (.refl s))))
  | clkRefCfgWrite => exact .next (kept_pathWrite (.refl s))
  | clkGateWrite => exact .next (kept_pathWrite (.refl s))
  | marlHbLoss => exact .next (kept_freezeMarl (.refl s))
  | layerHbLoss => exact completes_layerHbLoss
  | exitSr => exact .whenever (kept_clearHbLost (kept_setChn (.refl s)))
  | portBlockReset => exact .next (kept_pathWrite (.refl s))
  | chanBlockReset => exact .next (kept_pathWrite (.refl s))
  | foxBlockReset => exact .next (kept_pathWrite (.refl s))
  | unitReset => exact completes_unitReset
  | blockResetDone => exact completes_blockResetDone
  | s1IdleExpiry => exact completes_s1IdleExpiry
  | setPstate => exact completes_setPstate
  | reqStateS1 => exact .next (kept_pathWrite (.refl s))
  | reqStateSleep => exact .next (kept_pathWrite (.refl s))
  | sleepEntryDone => exact completes_sleepEntryDone
  | pwrWake => exact .next (kept_pathWrite (.refl s))
  | wakeTimerExpiry => exact .whenever (kept_wake (.refl s))
  | wakeSignal => exact .whenever (kept_wake (.refl s))
  | s3Wake => exact completes_s3Wake
  | openWindow => exact .next (kept_pathWrite (.refl s))
  | closeWindow => exact .next (kept_pathWrite (.refl s))
  | senseRow => exact .next (kept_pathWrite (.refl s))
  | programRow => exact .next (kept_pathWrite (.refl s))
  | topupBit => exact .next (kept_pathWrite (.refl s))
  | redirectRow => exact .next (kept_pathWrite (.refl s))
  | lockRegion => exact .next (kept_pathWrite (.refl s))
  | verifyRegion => exact .next (kept_pathWrite (.refl s))
  | otpCmdDone => exact completes_otpCmdDone
  | windowTimeout => exact .next (kept_closeWindow (.refl s))
  | linkTrainStart => exact .whenever (kept_set (kept_startLink (.refl s)))
  | tmReceived => exact completes_tmReceived
  | trainTimeout => exact completes_trainTimeout
  | amSend => exact .whenever (kept_sendAm (.refl s))
  | amReceived => exact completes_amReceived
  | laneFailure => exact .whenever (kept_laneFail (Kept.when (kept_set (.refl s)) (fun _ _ h => kept_set h)))
  | retrainDone => exact completes_retrainDone
  | retrainTimeout => exact .whenever (kept_linkDown (.refl s))
  | signalLossTimeout => exact .whenever (kept_linkDown (Kept.each (.refl s) (fun _ _ _ h => kept_set h)))
  | l1Entry => exact .whenever (kept_linkIdle (.refl s))
  | l1Exit => exact completes_l1Exit
  | l2Exit => exact .whenever (kept_leaveL2 (.refl s))
  | prbsInject => exact .next (kept_pathWrite (.refl s))
  | lanePrbsCtlWrite => exact .next (kept_pathWrite (.refl s))
  | portLinkCfgWrite => exact .next (kept_pathWrite (.refl s))
  | flitReceived => exact completes_flitReceived
  | nakTimerExpiry => exact .whenever (kept_raiseNak (.refl s))
  | replayTimeout => exact .whenever (kept_inc (kept_setLink (.refl s)))
  | lcfDue => exact .whenever (kept_sendLcf (.refl s))
  | noValidFlitTimeout => exact .whenever (kept_retrain (kept_inc (.refl s)))
  | packetSend => exact completes_packetSend
  | portCredInitWrite => exact .next (kept_pathWrite (.refl s))
  | linkWaitExpiry => exact completes_linkWaitExpiry
  | egressMove => exact completes_egressMove
  | glbDidWrite => exact .next (kept_pathWrite (.refl s))
  | portRoleWrite => exact .next (kept_pathWrite (.refl s))
  | portCfgWrite => exact .next (kept_pathWrite (.refl s))
  | routeEntryWrite => exact .next (kept_pathWrite (.refl s))
  | rtMembersWrite => exact .next (kept_pathWrite (.refl s))
  | bypassClose => exact .whenever (kept_closePair (.refl s))
  | bypassOpen => exact completes_bypassOpen
  | rtBypOpenWrite => exact .next (kept_pathWrite (.refl s))
  | glbLockSet => exact .next (kept_pathWrite (.refl s))
  | snapshotComplete => exact completes_snapshotComplete
  | rd => exact .next (kept_takeRequest (.refl s))
  | wr => exact .next (kept_takeRequest (.refl s))
  | wrp => exact .next (kept_takeRequest (.refl s))
  | atom => exact .next (kept_takeRequest (.refl s))
  | svc => exact completes_svc
  | dbell => exact completes_dbell
  | mregRd => exact completes_mregRd
  | mregWr => exact completes_mregWr
  | rdRsp => exact .next (kept_takeResponse (.refl s))
  | wrAck => exact .next (kept_takeResponse (.refl s))
  | atomRsp => exact .next (kept_takeResponse (.refl s))
  | svcRsp => exact .next (kept_takeResponse (.refl s))
  | mregRsp => exact .next (kept_takeResponse (.refl s))
  | requestTimeout => exact completes_requestTimeout
  | missFillDone => exact .next (kept_ite (kept_serve (kept_fillDone (.refl s))) (.refl s))
  | writebackConfirmed => exact .next (kept_ite (kept_serve (kept_confirmWrite (.refl s))) (.refl s))
  | marlFlushGo => exact .next (kept_pathWrite (.refl s))
  | marlWb => exact completes_marlWb
  | flushDone => exact .either (.next (.refl s)) (.next (kept_serve (kept_endFlush (.refl s))))
  | quiesceSet => exact .next (kept_pathWrite (.refl s))
  | quiescedReached => exact .whenever (kept_set (.refl s))
  | marlPartWrite => exact .next (kept_pathWrite (.refl s))
  | repartitionDone => exact completes_repartitionDone
  | quiesceClear => exact .next (kept_pathWrite (.refl s))
  | marlQuietWindowForced => exact .whenever (kept_quietWindow (.drawn (.refl s)))
  | glbMemCfgWrite => exact .next (kept_pathWrite (.refl s))
  | dramCommandIssue => exact .whenever (kept_settle (kept_issueCommand (kept_sendWord (.refl s))))
  | refreshDue => exact completes_refreshDue
  | refRateLower => exact completes_refRateLower
  | powerDownEntry => exact .whenever (kept_set (.refl s))
  | dramReadData => exact .whenever (kept_settle (kept_readArrives (.refl s)))
  | chanPasrWrite => exact .next (kept_pathWrite (.refl s))
  | setPasr => exact completes_setPasr
  | pasrChangeDone => exact completes_pasrChangeDone
  | channelFence => exact .whenever (kept_settle (kept_fenceChannel (.refl s)))
  | rebuildStart => exact .whenever (kept_startRebuild (.refl s))
  | rebuildStripe => exact .whenever (kept_settle (kept_serve (kept_rebuildStep (.refl s))))
  | chanRebuild => exact completes_chanRebuild
  | layerSilent => exact .whenever (kept_silence (.refl s))
  | layerRelockAttempt => exact completes_layerRelockAttempt
  | layerDiscoveryTimeout => exact .whenever (kept_settle (Kept.each (.refl s) (fun _ _ _ h => kept_fenceChannel h)))
  | couplingBoundary => exact .whenever (kept_settle (kept_boundary (.refl s)))
  | couplingBoundaryForced => exact completes_couplingBoundaryForced
  | forcedRecal => exact .whenever (kept_inc (kept_setCol (.refl s)))
  | forcedRecalDone => exact .whenever (kept_settle (Kept.when (kept_recalibrate (kept_setCol (.refl s))) (fun _ _ => kept_channelUp)))
  | vcpMechWrite => exact .next (kept_pathWrite (.refl s))
  | qosCommitGo => exact .next (kept_pathWrite (.refl s))
  | qosSet => exact completes_qosSet
  | dEvaluation => exact .whenever (kept_evalD (.refl s))
  | missEntryFreed => exact .next (kept_grantEntry (.refl s))
  | ringPoll => exact .whenever (kept_readRcb (.refl s))
  | rcbHReread => exact .whenever (kept_readRcb (.refl s))
  | descFetch => exact .whenever (kept_fetchRing (.refl s))
  | descStart => exact completes_descStart
  | completionWrite => exact .whenever (kept_sendCpl (.refl s))
  | ring0FetchRetry => exact .either (.next (.refl s)) (.next (Kept.when (Kept.when (.refl s) (fun _ _ h => kept_readRcb h)) (fun _ _ h => kept_fetchRing h)))
  | ring0CompletionRetry => exact .whenever (kept_sendCpl (kept_setRing (.refl s)))
  | ringEnable => exact .next (kept_pathWrite (.refl s))
  | ringResetCmd => exact .next (kept_pathWrite (.refl s))
  | ringResumeCmd => exact .next (kept_pathWrite (.refl s))
  | nop => exact completes_nop
  | ringSetup => exact completes_ringSetup
  | ringReset => exact completes_ringReset
  | ringResume => exact completes_ringResume
  | engineDispatch => exact .engWork fun _ _ h => kept_dispatch h
  | stageAdvance => exact .engWork fun _ _ h => kept_stageAdvance h
  | helperChunk => exact .engWork fun _ _ h => kept_help h
  | fill => exact .stageWork fun _ _ h => kept_fillRound h
  | copy => exact .stageWork fun _ _ h => kept_copyRound h
  | gather => exact .stageWork fun _ _ h => kept_gatherRound h
  | scatter => exact .stageWork fun _ _ h => kept_scatterRound h
  | reduce => exact .stageWork fun _ _ h => kept_reduceRound h
  | check => exact .stageWork fun _ _ h => kept_checkRound h
  | compare => exact .stageWork fun _ _ h => kept_compareRound h
  | transpose => exact .stageWork fun _ _ h => kept_transposeRound h
  | atomb => exact .stageWork fun _ _ h => kept_atombRound h
  | fence => exact .stageWork fun _ _ h => kept_fenceRound h
  | notifyWrite => exact .stageWork fun _ _ h => kept_notifyRound h
  | notifyDbell => exact .stageWork fun _ _ h => kept_notifyRound h
  | mirrorSend => exact .stageWork fun _ _ h => kept_sendRound h
  | mirrorCommit => exact .stageWork fun _ _ h => kept_commitRound h
  | mirrorVerify => exact .stageWork fun _ _ h => kept_verifyRound h
  | dirtyscanFreeze => exact .stageWork fun _ _ h => kept_dirtyscanRound h
  | dirtyscanPeek => exact .stageWork fun _ _ h => kept_dirtyscanRound h
  | svcStart => exact .engWork fun _ _ h => kept_startSvc h
  | engineTrap => exact .engWork fun _ _ h => kept_trapEng h
  | watchdogExpiry => exact .either (.engWork fun _ _ h => kept_trapEng h) (.next (.refl s))
  | fwSlotWrite => exact completes_fwSlotWrite
  | fwActivate => exact completes_fwActivate
  | foxSbDataWrite => exact .next (kept_pathWrite (.refl s))
  | foxSbGo => exact .next (kept_pathWrite (.refl s))
  | foxCtlWrite => exact .next (kept_pathWrite (.refl s))
  | cvuTestStart => exact .next (kept_pathWrite (.refl s))
  | cvuTestRelease => exact .next (kept_pathWrite (.refl s))
  | cvuTestDataWrite => exact .next (kept_pathWrite (.refl s))
  | cvuTestData1Write => exact .next (kept_pathWrite (.refl s))
  | ckpTrackWrite => exact .next (kept_pathWrite (.refl s))
  | correctiveWrite => exact completes_correctiveWrite
  | ceLogFree => exact .next (kept_pathWrite (.refl s))
  | badgerPatrolRead => exact completes_badgerPatrolRead
  | marlPatrol => exact .whenever (kept_settle (kept_patrolUnit (.refl s)))
  | badgerSet => exact completes_badgerSet
  | badgerRegWrite => exact .next (kept_pathWrite (.refl s))
  | repair => exact completes_repair
  | faultRaise => exact .whenever (kept_raise (.refl s))
  | cTimerExpiry => exact completes_cTimerExpiry
  | dTimerExpiry => exact completes_dTimerExpiry
  | graveFlushDone => exact completes_graveFlushDone
  | fltAckHold => exact .next (kept_pathWrite (.refl s))
  | fltAckClose => exact .next (kept_pathWrite (.refl s))
  | lockstepMismatch => exact completes_lockstepMismatch
  | mgcReloadDone => exact completes_mgcReloadDone
  | fabStateError => exact completes_fabStateError
  | alarmWindowEnd => exact completes_alarmWindowEnd
  | fltInjWrite => exact .next (kept_pathWrite (.refl s))
  | fltInject => exact completes_fltInject
  | logWrite => exact completes_logWrite
  | recFreezeOn => exact completes_recFreezeOn
  | recThaw => exact completes_recThaw
  | freezeAutoThaw => exact .next (kept_ite (kept_thawNow (.refl s)) (.refl s))
  | recRead => exact completes_recRead
  | recSettAddrWrite => exact .next (kept_pathWrite (.refl s))
  | telemetrySample => exact completes_telemetrySample
  | telSet => exact completes_telSet
  | settFlush => exact completes_settFlush
  | opSecondsTick => exact .next (kept_ite (kept_parts (.refl s)) (.refl s))
  | sensorSample => exact completes_sensorSample
  | throttleRamp => exact completes_throttleRamp
  | thermalTrip => exact .whenever (kept_settle (kept_trip (.refl s)))
  | thmSet => exact completes_thmSet
  | thmRegWrite => exact .next (kept_pathWrite (.refl s))
  | testSliceStart => exact completes_testSliceStart
  | coilTestEnd => exact completes_coilTestEnd
  | padTestEnd => exact completes_padTestEnd
  | laneMarginCheck => exact completes_laneMarginCheck
  | bstRun => exact completes_bstRun
  | bstRunStep => exact completes_bstRunStep
  | extest => exact .next (kept_protectedIr (.refl s))
  | samplePreload => exact .next (kept_openIr (fun _ _ h => kept_chainCapture h) (.refl s))
  | idcode => exact .next (kept_ite (kept_capture (kept_loadIr (.refl s))) (.refl s))
  | clamp => exact .next (kept_protectedIr (.refl s))
  | highz => exact .next (kept_protectedIr (.refl s))
  | extestPulse => exact .next (kept_protectedIr (.refl s))
  | extestTrain => exact .next (kept_protectedIr (.refl s))
  | regacc => exact completes_regacc
  | authChal => exact completes_authChal
  | authResp => exact completes_authResp
  | dbgStatus => exact .next (kept_ite (kept_capture (kept_loadIr (.refl s))) (.refl s))
  | ijtag => exact .next (kept_protectedIr (.refl s))
  | scan => exact .next (kept_protectedIr (.refl s))
  | bypass => exact .next (kept_ite (kept_asBypass (kept_loadIr (.refl s))) (.refl s))
  | clearingDone => exact completes_clearingDone
  | counterLoRead => exact .next (kept_ite (.refl s) (kept_readReg (.refl s)))
  | registerWrite => exact .next (kept_pathWrite (.refl s))
  | i3cSetOffset => exact .next (kept_ite (kept_setI3cOffset (.refl s)) (.refl s))
  | i3cRegWrite => exact .next (kept_ite (kept_pathWrite (kept_setI3cOffset (.refl s))) (.refl s))
  | i3cRegRead => exact completes_i3cRegRead
  | i3cBadLength => exact .next (kept_ite (.refl s) (kept_pathStatus (Kept.when (.refl s) (fun _ _ h => kept_inc h))))
  | entdaa => exact .next (kept_ite (kept_parts (.refl s)) (.refl s))
  | marlQuietWindow => exact .whenever (kept_quietWindow (.refl s))
  | markerLockLoss => exact .either (.next (.refl s)) (.either (.next (kept_laneFail (.refl s))) (.next (kept_unstable (kept_dropLane (.refl s)))))
  | prbsCheckerLock => exact completes_prbsCheckerLock

/-! ## The statements -/

/-- Settles O50: whatever the command, `exec` answers a next state. -/
theorem everyCommandCompletes : Obligations.EveryCommandCompletes := fun c s => by
  obtain ⟨t, ht, -⟩ := exec_completes (s := s) c
  exact ⟨t, ht⟩

/-- The state that a command answers keeps what every operation keeps. -/
theorem exec_kept {c : Instr} (h : exec c s = .next t) : Kept s t := by
  obtain ⟨u, hu, hkept⟩ := exec_completes (s := s) c
  rw [h] at hu
  cases hu
  exact hkept

/-- Settles O51: the queue, the clock and the count of draws are three parts of what every command keeps. -/
theorem queueAndClockKept : Obligations.QueueAndClockKept := fun _ _ _ h => by
  obtain ⟨hpending, hnow, hfree, -⟩ := exec_kept h
  exact ⟨hpending, hnow, hfree⟩

/-- Neither the queue nor the clock is a map. -/
theorem wf_withQueue (s : State) (q : List Instr) (n : Nat) : ({ s with pending := q, now := n } : State).wf = s.wf := rfl

/-- Settles O52: the command at the front keeps the form of the maps, and so does an idle step, in which generators draw words. -/
theorem mapsStayCanonical : Obligations.MapsStayCanonical := fun s t hw h => by
  unfold step at h
  split at h
  case h_1 =>
    cases h
    exact (kept_genWords (.refl _)).wf ((wf_withQueue s s.pending (s.now + 1)).trans hw)
  case h_2 c rest _ => exact (exec_kept h).wf ((wf_withQueue s rest s.now).trans hw)

end Sys2Proof.Proofs
end

section
/-! SUPPORT. Frames: which parts of the state and which registers an operation leaves alone, as rules that later proofs put together
(one for each part of the state, one for each way to write a register), and three statements that need little more: the
step, the state after reset, and the order of checks of a register write. -/

namespace Sys2Proof.Proofs

set_option Elab.async false

open Sys2Proof.Machine Sys2Proof.Laws

variable {s t u : State} {l k : List Nat} {via : Path} {off v : Nat}

/-! ## Registers that an operation leaves alone -/

theorem regsBut_refl (l : List Nat) (s : State) : regsBut l s s := fun _ _ => rfl

theorem regsBut_trans (h : regsBut l s t) (h' : regsBut l t u) : regsBut l s u := fun o ho => (h' o ho).trans (h o ho)

theorem regsBut_mono (hk : k ⊆ l) (h : regsBut k s t) : regsBut l s t := fun o ho => h o fun hm => ho (hk hm)

/-- Where the registers are the same data, every register reads the same. -/
theorem reg_congr (h : t.regs = s.regs) (o : Nat) : t.reg o = s.reg o := by rw [State.reg, State.reg, h]

theorem fld_congr (h : t.regs = s.regs) (f : Fld) : t.fld f = s.fld f := by rw [State.fld, State.fld, reg_congr h]

theorem regsBut_of_regs (h : t.regs = s.regs) : regsBut l s t := fun o _ => reg_congr h o

/-- A register outside the list reads the same through any of its fields. -/
theorem regsBut.fld (h : regsBut l s t) {f : Fld} (hf : f.off ∉ l) : t.fld f = s.fld f := by rw [State.fld, State.fld, h _ hf]

theorem regsBut_setReg (h : off ∈ l) : regsBut l s (s.setReg off v) := fun o ho => reg_setReg_ne s (fun (e : o = off) => ho (e ▸ h)) v

theorem regsBut_set {f : Fld} (h : f.off ∈ l) : regsBut l s (s.set f v) := regsBut_setReg h

theorem regsBut_incBy {f : Fld} {n : Nat} (h : f.off ∈ l) : regsBut l s (s.incBy f n) := regsBut_set h

theorem regsBut_inc {f : Fld} (h : f.off ∈ l) : regsBut l s (s.inc f) := regsBut_set h

theorem regsBut_incSat {f : Fld} (h : f.off ∈ l) : regsBut l s (s.incSat f) := regsBut_set h

theorem regsBut_sets {fs : List (Fld × Nat)} (h : ∀ p ∈ fs, p.1.off ∈ l) : regsBut l s (s.sets fs) := by
  induction fs generalizing s with
  | nil => exact regsBut_refl l s
  | cons p fs ih => exact regsBut_trans (regsBut_set (h p List.mem_cons_self)) (ih fun q hq => h q (List.mem_cons_of_mem _ hq))

theorem regsBut_setPair {f : Fld} {n : Nat} (h : f.off ∈ l) (h' : f.off + 4 ∈ l) : regsBut l s (s.setPair f n) :=
  regsBut_trans (regsBut_setReg h) (regsBut_setReg h')

theorem regsBut_incPair {f : Fld} {n : Nat} (h : f.off ∈ l) (h' : f.off + 4 ∈ l) : regsBut l s (s.incPair f n) := regsBut_setPair h h'

theorem regsBut_viol {kind : Viol} (h : violReg off kind ∈ l) : regsBut l s (s.viol off kind) := regsBut_setReg h

theorem regsBut_pathStatus (via : Path) (st : BitVec 8) : regsBut l s (s.pathStatus via st) := regsBut_of_regs (by simp)

theorem regsBut_each {α : Type} {xs : List α} {f : State → α → State} (h : ∀ x, ∀ a ∈ xs, regsBut l x (f x a)) : regsBut l s (s.each xs f) := by
  induction xs generalizing s with
  | nil => exact regsBut_refl l s
  | cons a xs ih => exact regsBut_trans (h s a List.mem_cons_self) (ih fun x b hb => h x b (List.mem_cons_of_mem _ hb))

theorem regsBut_when {b : Bool} {f : State → State} (h : ∀ x, regsBut l x (f x)) : regsBut l s (s.when b f) := by
  cases b
  · exact regsBut_refl l s
  · exact h s

theorem regsBut_ite {c : Prop} [Decidable c] (ht : regsBut l s t) (hu : regsBut l s u) : regsBut l s (if c then t else u) := by
  split
  · exact ht
  · exact hu

/-! ## A field written reads as the value -/

/-- Of a value that fits, the field just written shows it all. -/
theorem fld_set_fits {f : Fld} (hf : f.lo ≤ f.hi) (hf' : f.hi < 32) (hv : v < 2 ^ (f.hi + 1 - f.lo)) : (s.set f v).fld f = v := by
  rw [fld_set_same s hf hf', Nat.mod_eq_of_lt hv]

/-- A counter counts modulo its width. -/
theorem fld_inc_same {f : Fld} (hf : f.lo ≤ f.hi) (hf' : f.hi < 32) : (s.inc f).fld f = (s.fld f + 1) % 2 ^ (f.hi + 1 - f.lo) := fld_set_same s hf hf' _

theorem fld_inc_ne {f g : Fld} (h : g.off ≠ f.off) : (s.inc f).fld g = s.fld g := fld_set_ne s h _

theorem reg_inc_ne {f : Fld} {o : Nat} (h : o ≠ f.off) : (s.inc f).reg o = s.reg o := reg_set_ne s h _

/-- A field never exceeds its width. -/
theorem fld_lt (s : State) (f : Fld) : s.fld f < 2 ^ (f.hi + 1 - f.lo) := Nat.mod_lt _ (Nat.two_pow_pos _)

/-! ## Parts that a change of one part leaves alone -/

theorem only_free (x : Nat) : only [.free] s { s with free := x } := fun q hq => by
  cases q
  case free => simp at hq
  all_goals rfl

theorem only_now (x : Nat) : only [.now] s { s with now := x } := fun q hq => by
  cases q
  case now => simp at hq
  all_goals rfl

theorem only_rails (x : Rails) : only [.rails] s { s with rails := x } := fun q hq => by
  cases q
  case rails => simp at hq
  all_goals rfl

theorem only_pins (x : Pins) : only [.pins] s { s with pins := x } := fun q hq => by
  cases q
  case pins => simp at hq
  all_goals rfl

theorem only_start (x : StartSt) : only [.start] s { s with start := x } := fun q hq => by
  cases q
  case start => simp at hq
  all_goals rfl

theorem only_clk (x : ClkSt) : only [.clk] s { s with clk := x } := fun q hq => by
  cases q
  case clk => simp at hq
  all_goals rfl

theorem only_pwr (x : PwrSt) : only [.pwr] s { s with pwr := x } := fun q hq => by
  cases q
  case pwr => simp at hq
  all_goals rfl

theorem only_unitResets (x : List UnitReset) : only [.unitResets] s { s with unitResets := x } := fun q hq => by
  cases q
  case unitResets => simp at hq
  all_goals rfl

theorem only_fuse (x : FuseSt) : only [.fuse] s { s with fuse := x } := fun q hq => by
  cases q
  case fuse => simp at hq
  all_goals rfl

theorem only_flt (x : FltSt) : only [.flt] s { s with flt := x } := fun q hq => by
  cases q
  case flt => simp at hq
  all_goals rfl

theorem only_recd (x : RecorderSt) : only [.recd] s { s with recd := x } := fun q hq => by
  cases q
  case recd => simp at hq
  all_goals rfl

theorem only_sett (x : SettSt) : only [.sett] s { s with sett := x } := fun q hq => by
  cases q
  case sett => simp at hq
  all_goals rfl

theorem only_links (x : List (Nat × Link)) : only [.links] s { s with links := x } := fun q hq => by
  cases q
  case links => simp at hq
  all_goals rfl

theorem only_lanes (x : List (Nat × Lane)) : only [.lanes] s { s with lanes := x } := fun q hq => by
  cases q
  case lanes => simp at hq
  all_goals rfl

theorem only_txns (x : List Txn) : only [.txns] s { s with txns := x } := fun q hq => by
  cases q
  case txns => simp at hq
  all_goals rfl

theorem only_nextTxn (x : Nat) : only [.nextTxn] s { s with nextTxn := x } := fun q hq => by
  cases q
  case nextTxn => simp at hq
  all_goals rfl

theorem only_marl (x : MarlSt) : only [.marl] s { s with marl := x } := fun q hq => by
  cases q
  case marl => simp at hq
  all_goals rfl

theorem only_chan (x : ChanSt) : only [.chan] s { s with chan := x } := fun q hq => by
  cases q
  case chan => simp at hq
  all_goals rfl

theorem only_vcp (x : VcpSt) : only [.vcp] s { s with vcp := x } := fun q hq => by
  cases q
  case vcp => simp at hq
  all_goals rfl

theorem only_qos (x : QosSt) : only [.qos] s { s with qos := x } := fun q hq => by
  cases q
  case qos => simp at hq
  all_goals rfl

theorem only_prot (x : ProtSt) : only [.prot] s { s with prot := x } := fun q hq => by
  cases q
  case prot => simp at hq
  all_goals rfl

theorem only_thm (x : ThmSt) : only [.thm] s { s with thm := x } := fun q hq => by
  cases q
  case thm => simp at hq
  all_goals rfl

variable {ps qs : List Part}

/-- A change that follows others, of parts among those listed. -/
theorem only_then (hk : qs ⊆ ps) (h' : only qs t u) (h : only ps s t) : only ps s u := only_trans h (only_mono hk h')

theorem only_setReg : only [.regs] s (s.setReg off v) := only_regs _

theorem only_viol {kind : Viol} : only [.regs] s (s.viol off kind) := only_regs _

theorem only_setPair {f : Fld} {n : Nat} : only [.regs] s (s.setPair f n) := only_trans only_setReg only_setReg

theorem only_incPair {f : Fld} {n : Nat} : only [.regs] s (s.incPair f n) := only_setPair

theorem only_inc {f : Fld} : only [.regs] s (s.inc f) := only_set _ _

theorem only_setLane (n : Nat) (x : Lane) : only [.lanes] s (s.setLane n x) := only_lanes _

theorem only_setLink (p m : Nat) (x : Link) : only [.links] s (s.setLink p m x) := only_links _

theorem only_setChn (c : Nat) (x : Chan) : only [.chan] s (s.setChn c x) := only_chan _

theorem only_setEng (e : Nat) (x : Engine) : only [.fox] s (s.setEng e x) := only_fox _

theorem only_setCol (c : Nat) (x : Column) : only [.vcp] s (s.setCol c x) := only_vcp _

theorem only_pathStatus (via : Path) (st : BitVec 8) : only [.acc] s (s.pathStatus via st) := by
  rw [pathStatus_eq]
  exact only_acc _

theorem only_ite {c : Prop} [Decidable c] (ht : only ps s t) (hu : only ps s u) : only ps s (if c then t else u) := by
  split
  · exact ht
  · exact hu

/-! ## A step (O48) -/

theorem genWord_only (n : Nat) : only [.lanes, .regs, .free] s (s.genWord n) := by
  have hlane : ∀ x, only [.lanes, .regs, .free] s (s.setLane n x) := fun x => only_mono (by simp) (only_setLane n x)
  unfold State.genWord
  extract_lets x w
  split
  · refine only_then (qs := [.regs]) (by simp) (only_set _ _) (only_then (qs := [.lanes]) (by simp) (only_setLane _ _) ?_)
    exact only_then (qs := [.free]) (by simp) (only_free _) (hlane _)
  · exact hlane _

theorem genWords_only : only [.lanes, .regs, .free] s s.genWords := only_each fun _ n => genWord_only n

/-- Where no generator is on, no word is sent. -/
theorem genWords_off (h : ∀ e ∈ s.lanes, s.on (LANE_PRBS_CTL_GEN_EN e.1) = false) : s.genWords = s := by
  have hnone : ((s.lanes.map (·.1)).filter fun n => s.on (LANE_PRBS_CTL_GEN_EN n)) = [] := by
    rw [List.filter_eq_nil_iff]
    intro n hn
    obtain ⟨e, he, rfl⟩ := List.mem_map.mp hn
    simp [h e he]
  rw [State.genWords, hnone]
  rfl

/-- Settles O48: `step` runs the front of the queue by definition; an idle step moves the clock and lets the generators send. -/
theorem stepRunsFront : Obligations.StepRunsFront := by
  refine ⟨fun c rest s => rfl, fun s hp => ⟨s.idle, by rw [step, hp], ?_, ?_, fun hoff => ?_⟩⟩
  · exact genWords_only (s := { s with now := s.now + 1 }) .now (by simp)
  · exact only_then (qs := [.lanes, .regs, .free]) (by simp) genWords_only (only_mono (by simp) (only_now (s.now + 1)))
  · rw [State.idle, genWords_off (s := { s with now := s.now + 1 }) hoff]
    exact only_now _

/-! ## The state after the power-on reset (O49) -/

/-- Settles O49: no register is listed, so each reads its reset value, and those of the fields named are in the register map. -/
theorem resetState : Obligations.ResetState := by
  refine ⟨rfl, rfl, fun _ => rfl, ?_⟩
  and_intros
  all_goals decide +kernel

/-! ## The order of checks of a register write (O31) -/

theorem noteResult_of_ne {st : BitVec 8} (h : off ≠ FLT_ACK.off) (h' : off ≠ FLT_INJ.off) : s.noteResult off st = s := by
  simp [State.noteResult, h, h']

/-- What a write that one violation count answers leaves: the path's status, one count, and nothing else. -/
theorem refused_frame (kind : Viol) (st : BitVec 8) (via : Path) (off : Nat) (s : State) :
    ((s.viol off kind).pathStatus via st).acc = (s.pathStatus via st).acc
    ∧ ((s.viol off kind).pathStatus via st).reg (violReg off kind) = (s.reg (violReg off kind) + 1) % 2 ^ 32
    ∧ regsBut [violReg off kind] s ((s.viol off kind).pathStatus via st)
    ∧ only [.acc, .regs] s ((s.viol off kind).pathStatus via st) := by
  refine ⟨pathStatus_acc via _ rfl, by simp, ?_, ?_⟩
  · exact regsBut_trans (regsBut_viol (by simp)) (regsBut_pathStatus _ _)
  · exact only_then (qs := [.acc]) (by simp) (only_pathStatus _ _) (only_mono (by simp) only_viol)

/-- A write over a path that the register target refuses with one violation count. -/
theorem registerWrite_refused {kind : Viol} {st : BitVec 8} {off : BitVec 24} {w : BitVec 32} (hu : s.pathUp via = true)
    (hl : via = .mreg ∨ s.pathLimited = false) (hm : s.mapHeld off.toNat = false) (hc : s.calm = true)
    (hr : s.regWrite via none off.toNat w.toNat = (some st, s.viol off.toNat kind)) :
    ∃ t, exec (.registerWrite via off w) s = .next t ∧ t.acc = (s.pathStatus via st).acc
      ∧ t.reg (violReg off.toNat kind) = (s.reg (violReg off.toNat kind) + 1) % 2 ^ 32 ∧ regsBut [violReg off.toNat kind] s t ∧ only [.acc, .regs] s t :=
  ⟨_, congrArg Host.Outcome.next (pathWrite_answered hu hl hm hr (by rwa [viol_calm])), refused_frame kind st via off.toNat s⟩

/-- Settles O31: the checks of `regWrite` stand in the order of R487, and each that fails answers with its one count. -/
theorem writeOrder : Obligations.WriteOrder := by
  intro via off w b o d s hb hd hu hl hc hm hack hinj
  refine ⟨fun hbad => ?_, fun hv hr => ⟨fun hw => ?_, fun hw hgone => ?_⟩⟩
  · refine registerWrite_refused (kind := .rsvd) hu hl hm hc ?_
    have hmal : (w.toNat &&& fieldMask d != w.toNat || s.rsvdValue b off.toNat o w.toNat) = true := by simpa using hbad
    simp [State.regWrite, hb, hd, hmal, noteResult_of_ne hack hinj]
  · refine registerWrite_refused (kind := .access) hu hl hm hc ?_
    simp [State.regWrite, hb, hd, hv, hr, hw, State.regWindow]
  · refine registerWrite_refused (kind := .state) hu hl hm hc ?_
    have hclosed : ((!ownTime off.toNat via && !s.blockOpen b) || (s.locked && (allRwl d || lockedOut off.toNat)) || s.unitGone b o) = true := by
      simpa [or_assoc] using hgone
    simp [State.regWrite, hb, hd, hv, hr, hw, State.regWindow, hclosed]

end Sys2Proof.Proofs
end

section
/-! SUPPORT. The TAG of a new request (R207), and displacement in the staging queue of the recorder (R425). -/

namespace Sys2Proof.Proofs

set_option Elab.async false

open Sys2Proof.Machine Sys2Proof.Laws

variable {s : State}

/-! ## A TAG that no outstanding request has (O56) -/

/-- The TAGs that are tried, from the next one on. -/
def tagsTried (s : State) : List (BitVec 16) := (List.range (s.fox.outs.length + 1)).map fun i => s.fox.nextTag + BitVec.ofNat 16 i

theorem freeTag_eq (s : State) : s.freeTag = ((tagsTried s).find? fun x => !(s.fox.outs.any fun o => o.tag == x)).getD s.fox.nextTag := rfl

/-- Fewer than 65,537 successive TAGs are distinct. -/
theorem tagsTried_nodup (h : s.fox.outs.length < 65536) : (tagsTried s).Nodup := by
  refine List.Nodup.map_on (fun i hi j hj e => ?_) List.nodup_range
  rw [List.mem_range] at hi hj
  have hij : BitVec.ofNat 16 i = BitVec.ofNat 16 j := by simpa using e
  have hmod : i % 65536 = j % 65536 := by simpa using congrArg BitVec.toNat hij
  omega

/-- More TAGs are tried than are taken, so one of them is free. -/
theorem exists_untaken (h : s.fox.outs.length < 65536) : ∃ x ∈ tagsTried s, ∀ o ∈ s.fox.outs, o.tag ≠ x := by
  by_contra hall
  push Not at hall
  have hsub : tagsTried s ⊆ s.fox.outs.map (·.tag) := fun x hx => by
    obtain ⟨o, ho, he⟩ := hall x hx
    exact List.mem_map.mpr ⟨o, ho, he⟩
  have hlen := (List.Nodup.subperm (tagsTried_nodup h) hsub).length_le
  simp [tagsTried] at hlen

/-- The TAG taken is one that no outstanding request has. -/
theorem freeTag_untaken (h : s.fox.outs.length < 65536) : ∀ o ∈ s.fox.outs, o.tag ≠ s.freeTag := by
  obtain ⟨x, hx, hfree⟩ := exists_untaken h
  intro o ho
  rw [freeTag_eq]
  cases hfind : (tagsTried s).find? fun x => !(s.fox.outs.any fun o => o.tag == x) with
  | none =>
    have := List.find?_eq_none.mp hfind x hx
    simp only [Bool.not_eq_true, Bool.not_eq_false', List.any_eq_true, beq_iff_eq] at this
    obtain ⟨o', ho', he⟩ := this
    exact absurd he (hfree o' ho')
  | some y =>
    have := List.find?_some hfind
    simp only [Bool.not_eq_true', List.any_eq_false, beq_iff_eq] at this
    exact this o ho

theorem emit_fox (q : Packet) : (s.emit q).fox = s.fox := (outside_emit q).1 .fox (by simp)

/-- Settles O56: the TAG taken is free while one is, by counting; the request then stands last among the outstanding ones. -/
theorem tagIsFresh : Obligations.TagIsFresh := by
  refine ⟨fun s h => freeTag_untaken h, fun s p o space => ⟨fun h => ?_, fun h => ?_⟩⟩
  · refine ⟨{ tag := s.freeTag, pkt := { p with hdr := { p.hdr with tag := s.freeTag } }, owner := o, space := space }, ?_, rfl, rfl, rfl⟩
    simp [State.sendOwn, Nat.not_le.mpr h, emit_fox]
  · exact ⟨{ tag := s.freeTag, pkt := { p with hdr := { p.hdr with tag := s.freeTag } }, owner := o, space := space },
      by simp [State.sendOwn, h], rfl, rfl⟩

/-! ## Displacement (O60) -/

variable {r a : EvRec} {q : List StageItem} {i cap n : Nat}

theorem ldrop_eq_eraseIdx {α : Type} (l : List α) (i : Nat) : ldrop l i = l.eraseIdx i := (List.eraseIdx_eq_take_drop_succ l i).symm

/-- The last index below `n` with a property, by its description. -/
theorem getLast?_filter_range {p : Nat → Bool} (hi : i < n) (hp : p i = true) (hlast : ∀ j, i < j → j < n → p j = false) :
    ((List.range n).filter p).getLast? = some i := by
  induction n with
  | zero => simp at hi
  | succ n ih =>
    rw [List.range_succ, List.filter_append]
    rcases Nat.lt_succ_iff_lt_or_eq.mp hi with hlt | rfl
    · simpa [hlast n hlt (Nat.lt_succ_self n)] using ih hlt fun j hij hj => hlast j hij (Nat.lt_succ_of_lt hj)
    · simp [hp]

/-- The newest queued record of a lower severity is the one displaced. -/
theorem displaceAt_eq {sev : Nat} (hi : q[i]? = some (.new a)) (hlow : a.sev < sev)
    (hlast : ∀ (j : Nat) (b : EvRec), i < j → q[j]? = some (.new b) → sev ≤ b.sev) : displaceAt sev q = some i := by
  obtain ⟨hlt, -⟩ := List.getElem?_eq_some_iff.mp hi
  refine getLast?_filter_range hlt (by simp [hi, hlow]) fun j hij _ => ?_
  split
  case h_1 b hb => simpa using hlast j b hij hb
  case h_2 => rfl

/-- Where none is, none is displaced. -/
theorem displaceAt_none {sev : Nat} (h : ∀ (i : Nat) (a : EvRec), q[i]? = some (.new a) → sev ≤ a.sev) : displaceAt sev q = none := by
  rw [displaceAt, List.getLast?_eq_none_iff, List.filter_eq_nil_iff]
  intro i _
  split
  case h_1 a ha => simpa using h i a ha
  case h_2 => simp

theorem queueBytes_eraseIdx (h : q[i]? = some (.new a)) : queueBytes (q.eraseIdx i) + recLen a = queueBytes q := by
  induction q generalizing i with
  | nil => simp at h
  | cons x q ih =>
    cases i with
    | zero =>
      obtain rfl : x = .new a := by simpa using h
      simp [queueBytes, itemLen]
      omega
    | succ i =>
      have := ih (i := i) (by simpa using h)
      simp only [queueBytes, List.eraseIdx_cons_succ, List.map_cons, List.sum_cons] at this ⊢
      omega

/-- A record that fits once the one displaced has gone takes its room, and the one displaced is counted. -/
theorem enqueue_displaces (hover : cap < queueBytes q + recLen r) (hi : q[i]? = some (.new a)) (hlow : a.sev < r.sev)
    (hlast : ∀ (j : Nat) (b : EvRec), i < j → q[j]? = some (.new b) → r.sev ≤ b.sev) (hfits : queueBytes q + recLen r ≤ cap + recLen a) :
    s.enqueue cap (n + 2) q r = (s.lost a.sev, q.eraseIdx i ++ [.new r]) := by
  have hbytes := queueBytes_eraseIdx hi
  have hroom : queueBytes (q.eraseIdx i) + recLen r ≤ cap := by omega
  simp [State.enqueue, Nat.not_le.mpr hover, displaceAt_eq hi hlow hlast, hi, itemSev, ldrop_eq_eraseIdx, hroom]

/-- A record that may displace none is dropped and counted. -/
theorem enqueue_drops (hover : cap < queueBytes q + recLen r) (h : ∀ (i : Nat) (a : EvRec), q[i]? = some (.new a) → r.sev ≤ a.sev) :
    s.enqueue cap (n + 1) q r = (s.lost r.sev, q) := by
  simp [State.enqueue, Nat.not_le.mpr hover, displaceAt_none h]

/-- What a lost record changes beside the recorder: its count. -/
theorem lost_frame (sev : Nat) (x : RecorderSt) :
    ({ s.lost sev with recd := x } : State).fld (REC_LOST sev) = (s.fld (REC_LOST sev) + 1) % 2 ^ 32
    ∧ regsBut [(REC_LOST sev).off] s { s.lost sev with recd := x } ∧ only [.recd, .regs] s { s.lost sev with recd := x } := by
  refine ⟨fld_inc_same (f := REC_LOST sev) (by simp [REC_LOST]) (by simp [REC_LOST]), ?_, ?_⟩
  · exact regsBut_trans (regsBut_inc (by simp)) (regsBut_of_regs rfl)
  · exact only_then (qs := [.recd]) (by simp) (only_recd _) (only_mono (by simp) only_inc)

/-- A record with no partner to fold into joins the staging queue under R425. -/
theorem record_enqueued {typ : BitVec 8} {sev code unit : Nat} {tail : List (BitVec 8)} (hoff : s.recd.freeze = .off)
    (hr : r = { typ := typ, sev := sev, opSec := s.recd.opSec, pwr := s.recd.pwr, rseq := s.recd.rseq, code := BitVec.ofNat 32 code, unit := BitVec.ofNat 32 unit, tail := tail, at_ := s.now })
    (hq : findFold s.now r s.recd.staging = none) (hlog : s.logFold r = none) :
    s.record typ sev code unit tail =
      { (s.enqueue 16384 512 s.recd.staging r).1 with
        recd := { (s.enqueue 16384 512 s.recd.staging r).1.recd with
          staging := (s.enqueue 16384 512 s.recd.staging r).2, rseq := rseqAfter r (s.enqueue 16384 512 s.recd.staging r).2 } } := by
  subst hr
  simp [State.record, hoff, hq, hlog]

/-- Settles O60: the record meets the queue with no partner to fold into, and R425 displaces one record, or drops the new one. -/
theorem stagingDisplaces : Obligations.StagingDisplaces := by
  intro typ sev code unit tail r s hoff _ hr hq hlog hover
  obtain rfl : sev = r.sev := by rw [hr]
  rw [record_enqueued hoff hr hq hlog]
  refine ⟨fun i a hi hlow hlast hfits => ?_, fun h => ?_⟩
  · rw [enqueue_displaces hover hi hlow hlast hfits]
    exact ⟨rfl, lost_frame _ _⟩
  · rw [enqueue_drops hover h]
    exact ⟨rfl, lost_frame _ _⟩

end Sys2Proof.Proofs
end

section
/-! SUPPORT. Packets as bytes (Table 9.1, R135, R180): the header's bits hold its fields side by side, its 32 bytes hold the bits, and the
flits hold the bytes of header and payload in pieces of 64. -/

namespace Sys2Proof.Proofs

set_option Elab.async false

open Sys2Proof.Machine Sys2Proof.Laws

/-! ## The header and its bits -/

/-- Bit `i` of the header, field by field from the top (Table 9.1). -/
theorem getLsbD_hdrBits (h : Hdr) (i : Nat) : (hdrBits h).getLsbD i =
    if i < 192 then if i < 144 then if i < 128 then if i < 120 then if i < 112 then if i < 106 then if i < 88 then if i < 82 then if i < 64 then
      if i < 61 then if i < 48 then if i < 32 then if i < 24 then if i < 16 then if i < 8 then h.opc.getLsbD i else h.subop.getLsbD (i - 8)
      else h.status.getLsbD (i - 16) else h.label.getLsbD (i - 24) else h.tag.getLsbD (i - 32) else h.len.getLsbD (i - 48)
      else (h.rsv.extractLsb' 0 3).getLsbD (i - 61) else h.dst.getLsbD (i - 64) else (h.rsv.extractLsb' 3 6).getLsbD (i - 82)
      else h.src.getLsbD (i - 88) else (h.rsv.extractLsb' 9 6).getLsbD (i - 106) else h.hops.getLsbD (i - 112) else h.age.getLsbD (i - 120)
      else h.flags.getLsbD (i - 128) else (h.rsv.extractLsb' 15 48).getLsbD (i - 144) else h.addr.getLsbD (i - 192) := by
  unfold hdrBits
  repeat refine BitVec.getLsbD_append.trans (ite_congr rfl (fun _ => ?_) fun _ => rfl)
  rfl

/-- Four bit strings side by side, with the widths of the reserved bits. -/
theorem getLsbD_rsvParts (a : BitVec 48) (b c : BitVec 6) (d : BitVec 3) (i : Nat) : (a ++ (b ++ (c ++ d))).getLsbD i =
    if i < 15 then if i < 9 then if i < 3 then d.getLsbD i else c.getLsbD (i - 3) else b.getLsbD (i - 9) else a.getLsbD (i - 15) := by
  repeat refine BitVec.getLsbD_append.trans (ite_congr rfl (fun _ => ?_) fun _ => rfl)
  rfl

/-- The fields of the header lie side by side, so each is read back. -/
theorem hdrOfBits_hdrBits (h : Hdr) : hdrOfBits (hdrBits h) = h := by
  have hfield : ∀ {w : Nat} (x : BitVec w) (lo : Nat), (∀ i < w, (hdrBits h).getLsbD (lo + i) = x.getLsbD i) → (hdrBits h).extractLsb' lo w = x :=
    fun x lo hx => BitVec.eq_of_getLsbD_eq fun i hi => by simpa [BitVec.getLsbD_extractLsb', hi] using hx i hi
  cases h
  simp only [hdrOfBits, Hdr.mk.injEq]
  refine ⟨hfield _ 0 ?_, hfield _ 8 ?_, hfield _ 16 ?_, hfield _ 24 ?_, hfield _ 32 ?_, hfield _ 48 ?_, hfield _ 64 ?_, hfield _ 88 ?_, hfield _ 112 ?_,
    hfield _ 120 ?_, hfield _ 128 ?_, hfield _ 192 ?_, ?rsv⟩
  case rsv =>
    refine BitVec.eq_of_getLsbD_eq fun i hi => ?_
    rw [getLsbD_rsvParts]
    simp only [BitVec.getLsbD_extractLsb', getLsbD_hdrBits]
    grind
  all_goals
    intro i hi
    rw [getLsbD_hdrBits]
    grind

/-! ## Numbers as bytes -/

@[simp] theorem hdrBytes_length (h : Hdr) : (hdrBytes h).length = 32 := by simp [hdrBytes]

/-- The low bytes of a number spell it, up to their count. -/
theorem leNum_map_bytes (n x : Nat) : leNum ((List.range n).map fun i => BitVec.ofNat 8 (x / 256 ^ i)) = x % 256 ^ n := by
  induction n generalizing x with
  | zero => simp [leNum, Nat.mod_one]
  | succ n ih =>
    have htail : (fun i => BitVec.ofNat 8 (x / 256 ^ (i + 1))) = fun i => BitVec.ofNat 8 (x / 256 / 256 ^ i) :=
      funext fun i => by rw [pow_succ', Nat.div_div_eq_div_mul]
    rw [List.range_succ_eq_map, List.map_cons, List.map_map, Function.comp_def, leNum]
    simp only [Nat.succ_eq_add_one, htail, ih, pow_zero, Nat.div_one, BitVec.toNat_ofNat]
    exact (pow_succ' 256 n ▸ Nat.mod_mul (a := 256)).symm

/-- The header is what its 32 bytes spell (R180). -/
theorem hdrOfBytes_hdrBytes (h : Hdr) : hdrOfBytes (hdrBytes h) = h := by
  have hbyte : hdrBytes h = (List.range 32).map fun i => BitVec.ofNat 8 ((hdrBits h).toNat / 256 ^ i) :=
    List.map_congr_left fun i _ => BitVec.eq_of_toNat_eq (by simp [Nat.shiftRight_eq_div_pow, pow_mul])
  have hnum : leNum (hdrBytes h) = (hdrBits h).toNat := by
    rw [hbyte, leNum_map_bytes, Nat.mod_eq_of_lt (show (hdrBits h).toNat < 256 ^ 32 from (hdrBits h).isLt)]
  rw [hdrOfBytes, List.take_of_length_le (by simp), hnum, BitVec.ofNat_toNat, BitVec.setWidth_eq, hdrOfBits_hdrBits]

/-! ## Slices and flits -/

@[simp] theorem slice_length (l : List (BitVec 8)) (i n : Nat) : (slice l i n).length = n := by
  simp [slice]

theorem slice_of_le {l : List (BitVec 8)} {n : Nat} (h : n ≤ l.length) : slice l 0 n = l.take n := by simp [slice, h]

theorem slice_of_ge {l : List (BitVec 8)} {n : Nat} (h : l.length ≤ n) : slice l 0 n = l ++ List.replicate (n - l.length) 0 := by
  simp [slice, List.take_of_length_le h]

/-- A piece of a longer slice starts where the one before ends. -/
theorem slice_add (l : List (BitVec 8)) (m n : Nat) : slice l 0 (m + n) = slice l 0 m ++ slice (l.drop m) 0 n := by
  rcases Nat.le_total m l.length with h | h
  · rw [slice_of_le h]
    simp only [slice, List.drop_zero, List.take_add, List.append_assoc, List.length_append, List.length_take, List.length_drop]
    congr 2
    congr 1
    omega
  · rw [slice_of_ge h, slice_of_ge (by omega), List.drop_of_length_le h, slice_of_ge (by simp), List.nil_append, List.append_assoc,
      List.replicate_append_replicate]
    congr 2
    simp
    omega

/-- Slices of one length side by side are one slice. -/
theorem flatten_slices (l : List (BitVec 8)) (w n : Nat) : ((List.range n).map fun k => slice l (w * k) w).flatten = slice l 0 (n * w) := by
  induction n generalizing l with
  | zero => simp [slice]
  | succ n ih =>
    have htail : (fun k => slice l (w * (k + 1)) w) = fun k => slice (l.drop w) (w * k) w :=
      funext fun k => by simp [slice, List.drop_drop, Nat.mul_succ, Nat.add_comm]
    rw [List.range_succ_eq_map, List.map_cons, List.map_map, Function.comp_def, List.flatten_cons]
    simp only [Nat.succ_eq_add_one, htail, ih, Nat.mul_zero]
    rw [Nat.succ_mul, Nat.add_comm, slice_add]

/-- The flits of a packet have room for its header and payload (R135). -/
theorem flits_hold {n : Nat} (h : n ≤ 4096) : 32 + n ≤ flitsOfLen n * 64 ∧ 1 ≤ flitsOfLen n ∧ flitsOfLen n ≤ 65 := by
  rw [flitsOfLen, if_neg (by omega)]
  omega

/-- A packet whose payload is as long as LEN says is read back from its flits. -/
theorem packetOf_contents {p : Packet} (hlen : p.hdr.len.toNat ≤ 4096) (hpay : p.payload.length = p.hdr.len.toNat) :
    Machine.packetOf p.contents.flatten = p := by
  have hroom : (hdrBytes p.hdr ++ p.payload).length ≤ p.flits * 64 := by
    simpa [hpay, Packet.flits] using (flits_hold hlen).1
  have hbytes : p.contents.flatten = hdrBytes p.hdr ++ (p.payload ++ List.replicate (p.flits * 64 - (hdrBytes p.hdr ++ p.payload).length) 0) := by
    rw [Packet.contents, flatten_slices, slice_of_ge hroom, List.append_assoc]
  have hhdr : hdrOfBytes p.contents.flatten = p.hdr := by
    have htake : p.contents.flatten.take 32 = (hdrBytes p.hdr).take 32 := by
      rw [hbytes, List.take_left' (hdrBytes_length p.hdr), List.take_of_length_le (by simp)]
    rw [hdrOfBytes, htake, ← hdrOfBytes, hdrOfBytes_hdrBytes]
  rw [Machine.packetOf, hhdr, hbytes, List.drop_left' (hdrBytes_length p.hdr), List.take_left' hpay]

/-- Settles O53: the header by its bits and bytes, the packet by its flits, whose count is that of R135. -/
theorem packetRoundTrip : Obligations.PacketRoundTrip := by
  refine ⟨fun h => ⟨hdrBytes_length h, hdrOfBytes_hdrBytes h⟩, fun p hlen hpay => ⟨packetOf_contents hlen hpay, ?_, ?_, (flits_hold hlen).2⟩⟩
  · intro f hf
    obtain ⟨k, -, rfl⟩ := List.mem_map.mp hf
    exact slice_length _ _ _
  · simp [Packet.contents]

end Sys2Proof.Proofs
end

section
/-! SUPPORT. The interleave map (R236, R239): a turn of the channel number by the folded row is undone by the turn back, so grains and
channel offsets correspond one to one; a group of seven data channels spreads over eight without its parity holder. -/

namespace Sys2Proof.Proofs

set_option Elab.async false

open Sys2Proof.Machine Sys2Proof.Laws

variable {nch cfg k o a : Nat}

/-! ## Turning a channel number and back -/

theorem turn_back {n i : Nat} (f : Nat) (hi : i < n) : ((i + f) % n + n - f % n) % n = i := by
  have hf : f % n < n := Nat.mod_lt _ (by omega)
  rw [Nat.add_mod, Nat.mod_eq_of_lt hi]
  generalize f % n = x at hf
  rcases Nat.lt_or_ge (i + x) n with h | h
  · rw [Nat.mod_eq_of_lt h, show i + x + n - x = i + n by omega, Nat.add_mod_right, Nat.mod_eq_of_lt hi]
  · rw [Nat.mod_eq_sub_mod h, Nat.mod_eq_of_lt (show i + x - n < n by omega), show i + x - n + n - x = i by omega, Nat.mod_eq_of_lt hi]

theorem turn_forth {n i : Nat} (f : Nat) (hi : i < n) : ((i + n - f % n) % n + f) % n = i := by
  have hf : f % n < n := Nat.mod_lt _ (by omega)
  rw [Nat.add_mod, Nat.mod_mod]
  generalize f % n = x at hf
  rcases Nat.lt_or_ge i x with h | h
  · rw [Nat.mod_eq_of_lt (show i + n - x < n by omega), show i + n - x + x = i + n by omega, Nat.add_mod_right, Nat.mod_eq_of_lt hi]
  · rw [show i + n - x = i - x + n by omega, Nat.add_mod_right, Nat.mod_eq_of_lt (show i - x < n by omega), Nat.sub_add_cancel h, Nat.mod_eq_of_lt hi]

/-! ## The map and its inverse (R236) -/

/-- By how much the channel number of row `r` turns. -/
def turnOf (cfg r : Nat) : Nat := if cfgHash cfg then foldR r else 0

theorem mapAddr_eq : mapAddr nch cfg a =
    ((a / 2 ^ grainLog cfg % dataChans nch cfg + turnOf cfg (a / 2 ^ grainLog cfg / dataChans nch cfg)) % dataChans nch cfg,
      a / 2 ^ grainLog cfg / dataChans nch cfg * 2 ^ grainLog cfg + a % 2 ^ grainLog cfg) := rfl

theorem unmapAddr_eq : unmapAddr nch cfg k o =
    (o / 2 ^ grainLog cfg * dataChans nch cfg
      + (k + dataChans nch cfg - turnOf cfg (o / 2 ^ grainLog cfg) % dataChans nch cfg) % dataChans nch cfg) * 2 ^ grainLog cfg + o % 2 ^ grainLog cfg := by
  unfold unmapAddr turnOf
  split <;> simp

theorem dataChans_pos (h : nch = 16 ∨ nch = 24 ∨ nch = 32) : 0 < dataChans nch cfg := by
  unfold dataChans
  split <;> omega

/-- The offsets of a channel are whole grains: 3 GiB is a multiple of every grain. -/
theorem grain_dvd (cfg : Nat) : ∃ q, 3 * 2 ^ 30 = 2 ^ grainLog cfg * q := by
  refine ⟨3 * 2 ^ (30 - grainLog cfg), ?_⟩
  have hle : grainLog cfg ≤ 30 := by
    have : bitsOf cfg 2 0 < 8 := Nat.mod_lt _ (by decide)
    unfold grainLog
    omega
  rw [Nat.mul_left_comm, ← pow_add, Nat.add_sub_cancel' hle]

/-- A grain and a place in it, put together and taken apart. -/
theorem grain_split {g w p : Nat} (hw : w < p) : (g * p + w) / p = g ∧ (g * p + w) % p = w := by
  have hp : 0 < p := by omega
  rw [Nat.mul_comm, Nat.mul_add_div hp, Nat.mul_add_mod, Nat.div_eq_of_lt hw, Nat.mod_eq_of_lt hw]
  exact ⟨rfl, rfl⟩

theorem unmapAddr_mapAddr (h : nch = 16 ∨ nch = 24 ∨ nch = 32) : unmapAddr nch cfg (mapAddr nch cfg a).1 (mapAddr nch cfg a).2 = a := by
  have hn := dataChans_pos (cfg := cfg) h
  obtain ⟨hr, hw⟩ := grain_split (g := a / 2 ^ grainLog cfg / dataChans nch cfg) (Nat.mod_lt a (Nat.two_pow_pos (grainLog cfg)))
  rw [unmapAddr_eq, mapAddr_eq]
  simp only [hr, hw]
  rw [turn_back _ (Nat.mod_lt _ hn), Nat.div_add_mod', Nat.div_add_mod']

theorem mapAddr_unmapAddr (h : nch = 16 ∨ nch = 24 ∨ nch = 32) (hk : k < dataChans nch cfg) : mapAddr nch cfg (unmapAddr nch cfg k o) = (k, o) := by
  have hn := dataChans_pos (cfg := cfg) h
  obtain ⟨hg, hw⟩ := grain_split (Nat.mod_lt o (Nat.two_pow_pos (grainLog cfg)))
    (g := o / 2 ^ grainLog cfg * dataChans nch cfg + (k + dataChans nch cfg - turnOf cfg (o / 2 ^ grainLog cfg) % dataChans nch cfg) % dataChans nch cfg)
  obtain ⟨hr, hi⟩ := grain_split (g := o / 2 ^ grainLog cfg)
    (Nat.mod_lt (k + dataChans nch cfg - turnOf cfg (o / 2 ^ grainLog cfg) % dataChans nch cfg) hn)
  rw [mapAddr_eq, unmapAddr_eq]
  simp only [hg, hw, hr, hi]
  rw [turn_forth _ hk, Nat.div_add_mod']

/-- Below N × 3 GiB an address has one of the N channels and an offset below 3 GiB. -/
theorem mapAddr_lt (h : nch = 16 ∨ nch = 24 ∨ nch = 32) (ha : a < dataChans nch cfg * 3 * 2 ^ 30) :
    (mapAddr nch cfg a).1 < dataChans nch cfg ∧ (mapAddr nch cfg a).2 < 3 * 2 ^ 30 := by
  have hn := dataChans_pos (cfg := cfg) h
  refine ⟨Nat.mod_lt _ hn, ?_⟩
  obtain ⟨q, hq⟩ := grain_dvd cfg
  have hp := Nat.two_pow_pos (grainLog cfg)
  have hrow : a / 2 ^ grainLog cfg / dataChans nch cfg < q := by
    rw [Nat.div_div_eq_div_mul, Nat.div_lt_iff_lt_mul (Nat.mul_pos hp hn)]
    calc a < dataChans nch cfg * (3 * 2 ^ 30) := by rwa [← Nat.mul_assoc]
      _ = q * (2 ^ grainLog cfg * dataChans nch cfg) := by rw [hq]; ring
  rw [mapAddr_eq, hq]
  calc _ < a / 2 ^ grainLog cfg / dataChans nch cfg * 2 ^ grainLog cfg + 2 ^ grainLog cfg := by simp [Nat.mod_lt a hp]
    _ = 2 ^ grainLog cfg * (a / 2 ^ grainLog cfg / dataChans nch cfg + 1) := by ring
    _ ≤ 2 ^ grainLog cfg * q := Nat.mul_le_mul_left _ hrow

theorem unmapAddr_lt (h : nch = 16 ∨ nch = 24 ∨ nch = 32) (ho : o < 3 * 2 ^ 30) : unmapAddr nch cfg k o < dataChans nch cfg * 3 * 2 ^ 30 := by
  have hn := dataChans_pos (cfg := cfg) h
  obtain ⟨q, hq⟩ := grain_dvd cfg
  have hp := Nat.two_pow_pos (grainLog cfg)
  have hrow : o / 2 ^ grainLog cfg < q := by
    rw [Nat.div_lt_iff_lt_mul hp, Nat.mul_comm, ← hq]
    exact ho
  have hchan := Nat.mod_lt (k + dataChans nch cfg - turnOf cfg (o / 2 ^ grainLog cfg) % dataChans nch cfg) hn
  have hw := Nat.mod_lt o hp
  rw [unmapAddr_eq, Nat.mul_assoc, hq]
  generalize 2 ^ grainLog cfg = p at *
  generalize dataChans nch cfg = n at *
  generalize (k + n - turnOf cfg (o / p) % n) % n = i at *
  generalize o / p = r at *
  calc (r * n + i) * p + o % p < (r * n + i) * p + p := by omega
    _ = (r * n + i + 1) * p := by ring
    _ ≤ (q * n) * p := Nat.mul_le_mul_right _ (by nlinarith)
    _ = n * (p * q) := by ring

/-! ## The home of a line (R239) -/

variable {s : State} {l : Nat}

theorem nChans_cases (s : State) : s.nChans = 16 ∨ s.nChans = 24 ∨ s.nChans = 32 := by
  unfold State.nChans
  split
  · exact .inr (.inr rfl)
  · split
    · exact .inr (.inl rfl)
    · exact .inl rfl

/-- A data channel of a group stands beside its parity holder, and is told again from its place. -/
theorem physOf_spec (k b : Nat) (hk : k < nch * 7 / 8) :
    physOf k b < nch ∧ physOf k b ≠ holderOf (physOf k b / 8) b ∧ physOf k b % 8 ≠ rowOf b % 8
    ∧ 7 * (physOf k b / 8) + (if physOf k b % 8 > rowOf b % 8 then physOf k b % 8 - 1 else physOf k b % 8) = k := by
  have hh : rowOf b % 8 < 8 := Nat.mod_lt _ (by decide)
  unfold holderOf physOf
  generalize rowOf b % 8 = r at hh
  dsimp only
  grind

/-- An address of a line stays a line's in its channel. -/
theorem mapAddr_line (nch cfg l : Nat) : (mapAddr nch cfg (l * 64)).2 / 64 * 64 = (mapAddr nch cfg (l * 64)).2 := by
  have hdvd : 64 ∣ 2 ^ grainLog cfg := ⟨2 ^ (grainLog cfg - 6), by
    rw [show (64 : Nat) = 2 ^ 6 from rfl, ← pow_add, Nat.add_sub_cancel' (show 6 ≤ grainLog cfg by unfold grainLog; omega)]⟩
  refine Nat.div_mul_cancel ?_
  rw [mapAddr_eq]
  exact Nat.dvd_add (Dvd.dvd.mul_left hdvd _) ((Nat.dvd_mod_iff hdvd).mpr (Nat.dvd_mul_left 64 l))

/-- A line below the top has a home, whose block gives the line back. -/
theorem homeOf_spec (hl : l * 64 < s.memTop) :
    (s.homeOf l).1 < s.nChans ∧ (s.homeOf l).2 < 3 * 2 ^ 24 ∧ s.lineAt (s.homeOf l).1 (s.homeOf l).2 = some l
    ∧ (s.parity = true → (s.homeOf l).1 ≠ holderOf ((s.homeOf l).1 / 8) (s.homeOf l).2) := by
  have hn := nChans_cases s
  obtain ⟨hk, ho⟩ := mapAddr_lt hn hl
  have hback : unmapAddr s.nChans s.memCfg (mapAddr s.nChans s.memCfg (l * 64)).1 (mapAddr s.nChans s.memCfg (l * 64)).2 = l * 64 := unmapAddr_mapAddr hn
  have hline := mapAddr_line s.nChans s.memCfg l
  unfold State.homeOf State.lineAt
  generalize mapAddr s.nChans s.memCfg (l * 64) = m at *
  obtain ⟨k, o⟩ := m
  dsimp only at *
  have hblock : o / 64 < 3 * 2 ^ 24 := by omega
  by_cases hp : s.parity = true
  · have hk' : k < s.nChans * 7 / 8 := by rwa [dataChans, if_pos (show cfgParity s.memCfg = true from hp)] at hk
    obtain ⟨hlt, hne, hne', hidx⟩ := physOf_spec k (o / 64) hk'
    simp only [hp, if_true, hne', if_false, hidx, hline, hback]
    exact ⟨hlt, hblock, by simp, fun _ => hne⟩
  · have hk' : k < s.nChans := by rwa [dataChans, if_neg (show ¬ cfgParity s.memCfg = true from hp)] at hk
    simp only [hp, Bool.false_eq_true, if_false, hline, hback]
    exact ⟨hk', hblock, by simp, False.elim⟩

/-- Settles O54: the turn of the channel number is undone by the inverse, and a line's home by the place beside the parity holder. -/
theorem interleaveOneToOne : Obligations.InterleaveOneToOne := by
  refine ⟨fun nch cfg a hn ha => ?_, fun nch cfg k o hn hk ho => ⟨unmapAddr_lt hn ho, mapAddr_unmapAddr hn hk⟩, fun s l hl => homeOf_spec hl⟩
  obtain ⟨hchan, hoff⟩ := mapAddr_lt hn ha
  exact ⟨hchan, hoff, unmapAddr_mapAddr hn⟩

end Sys2Proof.Proofs
end

section
/-! SUPPORT. The DRAM code (R113, R375): multiplying by a byte is linear and associative, so the parity register holds the value of the
message moved up by eight places at every root, and the codeword's syndromes are 0. -/

namespace Sys2Proof.Proofs

set_option Elab.async false

open Sys2Proof.Machine Sys2Proof.Laws

/-! ## The field -/

theorem gfDouble_eq {a : Nat} (h : a < 256) : gfDouble a = (2 * a) ^^^ (if a.testBit 7 then 0x11D else 0) := by
  have : a.testBit 7 = decide (128 ≤ a) := by
    rw [Nat.testBit_eq_decide_div_mod_eq]
    grind
  unfold gfDouble
  rw [this]
  split
  · simp [show ¬ 128 ≤ a by omega]
  · simp [show 128 ≤ a by omega]

theorem gfDouble_lt {a : Nat} (h : a < 256) : gfDouble a < 256 := by
  have : ∀ a < 256, gfDouble a < 256 := by decide +kernel
  exact this a h

theorem gfDouble_xor {a b : Nat} (ha : a < 256) (hb : b < 256) : gfDouble (a ^^^ b) = gfDouble a ^^^ gfDouble b := by
  have h2 : 2 * (a ^^^ b) = 2 * a ^^^ 2 * b := by
    simpa [Nat.shiftLeft_eq, Nat.mul_comm] using Nat.shiftLeft_xor_distrib (a := a) (b := b) (i := 1)
  rw [gfDouble_eq ha, gfDouble_eq hb, gfDouble_eq (Nat.xor_lt_two_pow (n := 8) ha hb), h2, Nat.testBit_xor]
  cases a.testBit 7 <;> cases b.testBit 7 <;> simp [Nat.xor_assoc, Nat.xor_comm, Nat.xor_left_comm]

theorem gfMulAux_lt {n a : Nat} (b : Nat) (ha : a < 256) : gfMulAux n a b < 256 := by
  induction n generalizing a b with
  | zero => exact Nat.succ_pos 255
  | succ n ih =>
    rw [gfMulAux]
    refine Nat.xor_lt_two_pow (n := 8) ?_ (ih _ (gfDouble_lt ha))
    split <;> omega

theorem gfMulAux_zero (n b : Nat) : gfMulAux n 0 b = 0 := by
  induction n generalizing b with
  | zero => rfl
  | succ n ih => simp [gfMulAux, show gfDouble 0 = 0 from rfl, ih]

theorem gfMulAux_xor {n a a' : Nat} (b : Nat) (ha : a < 256) (ha' : a' < 256) : gfMulAux n (a ^^^ a') b = gfMulAux n a b ^^^ gfMulAux n a' b := by
  induction n generalizing a a' b with
  | zero => exact (Nat.xor_self 0).symm
  | succ n ih =>
    simp only [gfMulAux, gfDouble_xor ha ha', ih _ (gfDouble_lt ha) (gfDouble_lt ha')]
    split <;> simp [Nat.xor_assoc, Nat.xor_left_comm]

theorem gfMulAux_double {n a : Nat} (b : Nat) (ha : a < 256) : gfMulAux n (gfDouble a) b = gfDouble (gfMulAux n a b) := by
  induction n generalizing a b with
  | zero => rfl
  | succ n ih =>
    rw [gfMulAux, gfMulAux, ih _ (gfDouble_lt ha), gfDouble_xor (by split <;> omega) (gfMulAux_lt _ (gfDouble_lt ha))]
    split <;> rfl

theorem gfMulAux_comm {n m a : Nat} (b c : Nat) (ha : a < 256) : gfMulAux m (gfMulAux n a b) c = gfMulAux n (gfMulAux m a c) b := by
  induction n generalizing a b with
  | zero => exact gfMulAux_zero m c
  | succ n ih =>
    rw [gfMulAux, gfMulAux, gfMulAux_xor c (by split <;> omega) (gfMulAux_lt _ (gfDouble_lt ha)), ih _ (gfDouble_lt ha), gfMulAux_double c ha]
    split
    · rfl
    · rw [gfMulAux_zero]

theorem gfMul_lt {a : Nat} (b : Nat) (ha : a < 256) : gfMul a b < 256 := gfMulAux_lt b ha

theorem gfMul_xor {a a' : Nat} (b : Nat) (ha : a < 256) (ha' : a' < 256) : gfMul (a ^^^ a') b = gfMul a b ^^^ gfMul a' b := gfMulAux_xor b ha ha'

theorem gfMul_zero_left (b : Nat) : gfMul 0 b = 0 := gfMulAux_zero 8 b

theorem gfMul_right_comm {a : Nat} (b c : Nat) (ha : a < 256) : gfMul (gfMul a b) c = gfMul (gfMul a c) b := gfMulAux_comm b c ha

theorem gfMul_one_left {a : Nat} (ha : a < 256) : gfMul 1 a = a := by
  have : ∀ a < 256, gfMul 1 a = a := by decide +kernel
  exact this a ha

theorem gfMul_comm {a b : Nat} (ha : a < 256) (hb : b < 256) : gfMul a b = gfMul b a := by
  have := gfMul_right_comm a b (show 1 < 256 by decide)
  rwa [gfMul_one_left ha, gfMul_one_left hb] at this

theorem gfMul_assoc {a b c : Nat} (ha : a < 256) (hb : b < 256) : gfMul (gfMul a b) c = gfMul a (gfMul b c) := by
  rw [gfMul_comm ha hb, gfMul_right_comm _ _ hb, gfMul_comm (gfMul_lt _ hb) ha]

/-! ## Values of a polynomial -/

theorem gfEvalHi_append_one (p : List Nat) (c x : Nat) : gfEvalHi (p ++ [c]) x = gfMul (gfEvalHi p x) x ^^^ c := by simp [gfEvalHi]

/-- Every coefficient is a byte. -/
def bytesOnly (p : List Nat) : Prop := ∀ c ∈ p, c < 256

theorem gfEvalHi_lt {p : List Nat} (x : Nat) (h : bytesOnly p) : gfEvalHi p x < 256 := by
  induction p using List.reverseRecOn with
  | nil => exact Nat.succ_pos 255
  | append_singleton p c ih =>
    rw [gfEvalHi_append_one]
    exact Nat.xor_lt_two_pow (n := 8) (gfMul_lt _ (ih fun d hd => h d (by simp [hd]))) (h c (by simp))

theorem gfEvalHi_xor {p q : List Nat} (x : Nat) (hlen : p.length = q.length) (hp : bytesOnly p) (hq : bytesOnly q) :
    gfEvalHi (List.zipWith (· ^^^ ·) p q) x = gfEvalHi p x ^^^ gfEvalHi q x := by
  induction p using List.reverseRecOn generalizing q with
  | nil => simp [List.length_eq_zero_iff.mp hlen.symm, gfEvalHi]
  | append_singleton p c ih =>
    obtain ⟨q, d, rfl⟩ : ∃ q' d, q = q' ++ [d] := ⟨q.dropLast, q.getLast (by rintro rfl; simp at hlen), (List.dropLast_append_getLast _).symm⟩
    have hlen' : p.length = q.length := by simpa using hlen
    have hp' : bytesOnly p := fun a ha => hp a (by simp [ha])
    have hq' : bytesOnly q := fun a ha => hq a (by simp [ha])
    rw [List.zipWith_append hlen']
    simp only [List.zipWith_cons_cons, List.zipWith_nil_right, gfEvalHi_append_one]
    rw [ih hlen' hp' hq', gfMul_xor x (gfEvalHi_lt x hp') (gfEvalHi_lt x hq')]
    simp [Nat.xor_assoc, Nat.xor_left_comm]

theorem gfEvalHi_map_gfMul {f : Nat} {p : List Nat} (x : Nat) (hf : f < 256) (hp : bytesOnly p) : gfEvalHi (p.map (gfMul f)) x = gfMul f (gfEvalHi p x) := by
  induction p using List.reverseRecOn with
  | nil => simp [gfEvalHi, gfMul_comm hf, gfMul_zero_left]
  | append_singleton p c ih =>
    have hp' : bytesOnly p := fun a ha => hp a (by simp [ha])
    have hc : c < 256 := hp c (by simp)
    have hv := gfEvalHi_lt x hp'
    rw [List.map_append, List.map_singleton, gfEvalHi_append_one, gfEvalHi_append_one, ih hp', gfMul_assoc hf hv,
      gfMul_comm hf (Nat.xor_lt_two_pow (n := 8) (gfMul_lt x hv) hc), gfMul_xor f (gfMul_lt x hv) hc, gfMul_comm (gfMul_lt x hv) hf, gfMul_comm hc hf]

/-- `p` followed by the coefficients of `r`: the value of `p` moves up by as many places. -/
theorem gfEvalHi_append {p r : List Nat} (x : Nat) (hp : bytesOnly p) (hr : bytesOnly r) :
    gfEvalHi (p ++ r) x = (gfMul · x)^[r.length] (gfEvalHi p x) ^^^ gfEvalHi r x := by
  induction r using List.reverseRecOn with
  | nil => simp [gfEvalHi]
  | append_singleton r c ih =>
    have hr' : bytesOnly r := fun a ha => hr a (by simp [ha])
    have hm : ∀ n, (gfMul · x)^[n] (gfEvalHi p x) < 256 := fun n => by
      induction n with
      | zero => exact gfEvalHi_lt x hp
      | succ n ihn =>
        rw [Function.iterate_succ_apply']
        exact gfMul_lt x ihn
    rw [← List.append_assoc, gfEvalHi_append_one, gfEvalHi_append_one, ih hr', gfMul_xor x (hm _) (gfEvalHi_lt x hr'), List.length_append,
      List.length_singleton, Function.iterate_succ_apply', Nat.xor_assoc]

/-! ## The parity register (R113) -/

/-- The generator below its leading term, highest degree first. -/
def lowGen : List Nat := (rsGen 8).reverse.tail

/-- One byte into the register of the code with eight parity bytes. -/
def parityStep (reg : List Nat) (b : BitVec 8) : List Nat :=
  List.zipWith (fun x c => x ^^^ gfMul (reg.headD 0 ^^^ b.toNat) c) (reg.tail ++ [0]) lowGen

def parityReg (msg : List (BitVec 8)) : List Nat := msg.foldl parityStep (List.replicate 8 0)

theorem rsParity_eq (msg : List (BitVec 8)) : rsParity 8 msg = (parityReg msg).map (BitVec.ofNat 8) := rfl

/-- The lower part of the generator, a polynomial of bytes; at a root it has the value of the leading term. -/
theorem generator_spec : lowGen.length = 8 ∧ (∀ c ∈ lowGen, c < 256)
    ∧ ∀ i < 8, gfExp i < 256 ∧ gfEvalHi lowGen (gfExp i) = (gfMul · (gfExp i))^[8] 1 := by decide +kernel

variable {reg : List Nat} {i : Nat}

theorem bytesOnly_toNat (w : List (BitVec 8)) : bytesOnly (w.map (·.toNat)) := fun c hc => by
  obtain ⟨b, _, rfl⟩ := List.mem_map.mp hc
  exact b.isLt

theorem iterate_gfMul {a x : Nat} (n : Nat) (ha : a < 256) : (gfMul · x)^[n] a < 256 ∧ (gfMul · x)^[n] a = gfMul a ((gfMul · x)^[n] 1) := by
  have hone : ∀ n, (gfMul · x)^[n] 1 < 256 := fun n => by
    induction n with
    | zero => exact Nat.one_lt_succ_succ 254
    | succ n ih => rw [Function.iterate_succ_apply']; exact gfMul_lt x ih
  induction n with
  | zero => exact ⟨ha, by simp [gfMul_comm ha (show 1 < 256 by decide), gfMul_one_left ha]⟩
  | succ n ih =>
    rw [Function.iterate_succ_apply', Function.iterate_succ_apply']
    exact ⟨gfMul_lt x ih.1, by rw [ih.2, gfMul_assoc ha (hone n)]⟩

theorem xor_regroup (a b c : Nat) : (c ^^^ 0) ^^^ (a ^^^ b) = (a ^^^ c) ^^^ b := by
  rw [Nat.xor_zero, ← Nat.xor_assoc, Nat.xor_comm c a]

theorem parityStep_spec (b : BitVec 8) (hlen : reg.length = 8) (hreg : bytesOnly reg) :
    (parityStep reg b).length = 8 ∧ bytesOnly (parityStep reg b)
    ∧ ∀ i < 8, gfEvalHi (parityStep reg b) (gfExp i) = gfMul (gfEvalHi reg (gfExp i)) (gfExp i) ^^^ (gfMul · (gfExp i))^[8] b.toNat := by
  obtain ⟨hgl, hgb, hgr⟩ := generator_spec
  obtain ⟨a, reg, rfl⟩ : ∃ a l, reg = a :: l := List.exists_cons_of_length_eq_add_one hlen
  have ha : a < 256 := hreg a (by simp)
  have hf : a ^^^ b.toNat < 256 := Nat.xor_lt_two_pow (n := 8) ha b.isLt
  have htail : bytesOnly (reg ++ [0]) := fun c hc => by
    rcases List.mem_append.mp hc with h | h
    · exact hreg c (by simp [h])
    · simp at h; omega
  have htl : (reg ++ [0]).length = 8 := by simpa using hlen
  have hstep : parityStep (a :: reg) b = List.zipWith (· ^^^ ·) (reg ++ [0]) (lowGen.map (gfMul (a ^^^ b.toNat))) := by
    simp [parityStep, List.zipWith_map_right]
  have hmap : bytesOnly (lowGen.map (gfMul (a ^^^ b.toNat))) := fun c hc => by
    obtain ⟨d, _, rfl⟩ := List.mem_map.mp hc
    exact gfMul_lt d hf
  refine ⟨by simp [hstep, hgl, htl], ?_, fun i hi => ?_⟩
  · rw [hstep]
    intro c hc
    obtain ⟨j, hj, rfl⟩ := List.getElem_of_mem hc
    rw [List.getElem_zipWith]
    exact Nat.xor_lt_two_pow (n := 8) (htail _ (List.getElem_mem _)) (hmap _ (List.getElem_mem _))
  · obtain ⟨hx, hroot⟩ := hgr i hi
    have hregl : reg.length = 7 := by simpa using hlen
    have htop : gfEvalHi (a :: reg) (gfExp i) = (gfMul · (gfExp i))^[7] a ^^^ gfEvalHi reg (gfExp i) := by
      have h := gfEvalHi_append (p := [a]) (r := reg) (gfExp i) (fun c hc => by simp at hc; omega) (fun c hc => hreg c (by simp [hc]))
      simpa [hregl, gfEvalHi, gfMul_zero_left] using h
    have hlow := gfEvalHi_lt (p := reg) (gfExp i) fun c hc => hreg c (by simp [hc])
    rw [hstep, gfEvalHi_xor _ (by simp [hgl, htl]) htail hmap, gfEvalHi_map_gfMul _ hf hgb, hroot, ← (iterate_gfMul 8 hf).2, gfEvalHi_append_one, htop,
      gfMul_xor _ (iterate_gfMul 7 ha).1 hlow, ← Function.iterate_succ_apply' (gfMul · (gfExp i)), (iterate_gfMul 8 hf).2, gfMul_xor _ ha b.isLt,
      ← (iterate_gfMul 8 ha).2, ← (iterate_gfMul 8 b.isLt).2]
    exact xor_regroup _ _ _

/-- The register holds, at each root, the value of the message moved up by eight places. -/
theorem parityReg_spec (msg : List (BitVec 8)) : (parityReg msg).length = 8 ∧ bytesOnly (parityReg msg)
    ∧ ∀ i < 8, gfEvalHi (parityReg msg) (gfExp i) = (gfMul · (gfExp i))^[8] (gfEvalHi (msg.map (·.toNat)) (gfExp i)) := by
  induction msg using List.reverseRecOn with
  | nil => exact ⟨rfl, (by decide : ∀ c ∈ parityReg [], c < 256), by decide +kernel⟩
  | append_singleton msg b ih =>
    obtain ⟨hlen, hb, hv⟩ := ih
    obtain ⟨hlen', hb', hv'⟩ := parityStep_spec b hlen hb
    have hreg : parityReg (msg ++ [b]) = parityStep (parityReg msg) b := by simp [parityReg]
    refine hreg ▸ ⟨hlen', hb', fun i hi => ?_⟩
    have hm := gfEvalHi_lt (gfExp i) (bytesOnly_toNat msg)
    have hm' := gfMul_lt (gfExp i) hm
    rw [hv' i hi, hv i hi, List.map_append, List.map_singleton, gfEvalHi_append_one, (iterate_gfMul 8 (Nat.xor_lt_two_pow (n := 8) hm' b.isLt)).2,
      gfMul_xor _ hm' b.isLt, ← (iterate_gfMul 8 hm').2, ← (iterate_gfMul 8 b.isLt).2, ← Function.iterate_succ_apply' (gfMul · (gfExp i)),
      Function.iterate_succ_apply]

theorem rsParity_toNat (msg : List (BitVec 8)) : (rsParity 8 msg).map (·.toNat) = parityReg msg := by
  rw [rsParity_eq, List.map_map]
  refine (List.map_congr_left fun c hc => ?_).trans (List.map_id _)
  simp [Nat.mod_eq_of_lt ((parityReg_spec msg).2.1 c hc)]

theorem rsParity_length (msg : List (BitVec 8)) : (rsParity 8 msg).length = 8 := by rw [rsParity_eq, List.length_map, (parityReg_spec msg).1]

/-- A codeword has the value 0 at every root. -/
theorem codeword_root (msg : List (BitVec 8)) (hi : i < 8) : gfEvalHi ((msg ++ rsParity 8 msg).map (·.toNat)) (gfExp i) = 0 := by
  obtain ⟨hlen, hb, hv⟩ := parityReg_spec msg
  rw [List.map_append, rsParity_toNat, gfEvalHi_append _ (bytesOnly_toNat msg) hb, hlen, hv i hi, Nat.xor_self]

theorem rsSyndromes_codeword (msg : List (BitVec 8)) : (rsSyndromes 8 (msg ++ rsParity 8 msg)).all (· == 0) = true := by
  simp only [rsSyndromes, List.all_map, List.all_eq_true, List.mem_range]
  exact fun i hi => by simpa using codeword_root msg hi

/-! ## The block's code (R375, R378) -/

/-- The mark of a poisoned codeword: its parity bytes XOR 0x96. -/
def poisonMark : List (BitVec 8) := zeros 69 ++ List.replicate 8 0x96

theorem poisonMark_eq : poisonMark = zeros 69 ++ List.replicate 8 0x96 := rfl

theorem xorBytes_self_cancel {a b : List (BitVec 8)} (h : a.length = b.length) : xorBytes (xorBytes a b) b = a := by
  refine List.ext_getElem (by simp [xorBytes, h]) fun n h1 h2 => ?_
  simp [xorBytes]

theorem poisoned_eq {m k : List (BitVec 8)} (hm : m.length = 69) (hk : k.length = 8) : m ++ k.map (· ^^^ 0x96) = xorBytes (m ++ k) poisonMark := by
  rw [xorBytes, poisonMark, zeros, List.zipWith_append (by rw [hm, List.length_replicate])]
  refine congrArg₂ _ (List.ext_getElem (by rw [List.length_zipWith, List.length_replicate, hm, Nat.min_self]) fun n h1 h2 => ?_)
    (List.ext_getElem (by rw [List.length_zipWith, List.length_replicate, List.length_map, hk, Nat.min_self]) fun n h1 h2 => ?_)
  · rw [List.getElem_zipWith, List.getElem_replicate]
    exact BitVec.xor_zero.symm
  · rw [List.getElem_zipWith, List.getElem_replicate, List.getElem_map]

/-- The second root sees the mark. -/
theorem rsSyndromes_poisoned {msg : List (BitVec 8)} (h : msg.length = 69) : (rsSyndromes 8 (xorBytes (msg ++ rsParity 8 msg) poisonMark)).all (· == 0) = false := by
  have hlen : (msg ++ rsParity 8 msg).length = poisonMark.length := by simp [h, rsParity_length, poisonMark, zeros]
  have hx : (xorBytes (msg ++ rsParity 8 msg) poisonMark).map (·.toNat)
      = List.zipWith (· ^^^ ·) ((msg ++ rsParity 8 msg).map (·.toNat)) (poisonMark.map (·.toNat)) := by
    rw [xorBytes, List.map_zipWith, List.zipWith_map]
    simp
  have hmark : gfEvalHi (poisonMark.map (·.toNat)) (gfExp 1) ≠ 0 := by decide +kernel
  refine List.all_eq_false.mpr ⟨gfEvalHi (poisonMark.map (·.toNat)) (gfExp 1), List.mem_map.mpr ⟨1, by simp, ?_⟩, by simpa using hmark⟩
  rw [hx, gfEvalHi_xor _ (by simpa using hlen) (bytesOnly_toNat _) (bytesOnly_toNat _), codeword_root msg (by decide), Nat.zero_xor]

/-- Settles O55: the codeword has no syndrome, the poisoned one has one that its mark takes away. -/
theorem dramCodeRoundTrip : Obligations.DramCodeRoundTrip := by
  intro f data _ hlen
  have hslice : slice data 0 64 = data := by simp [slice_of_le, hlen]
  have hcode : ∀ p, dramEncode f data p = data ++ (if p then (rsParity 8 (foldBytes f ++ data)).map (· ^^^ 0x96) else rsParity 8 (foldBytes f ++ data)) :=
    fun p => by rw [dramEncode, hslice]
  have hk := rsParity_length (foldBytes f ++ data)
  have hmsg : (foldBytes f ++ data).length = 69 := by simp [foldBytes, leBytes, hlen]
  have h72 : ∀ p, (dramEncode f data p).length = 72 := fun p => by cases p <;> simp [hcode, hlen, hk]
  have hdata : ∀ p, slice (dramEncode f data p) 0 64 = data := fun p => by rw [slice_of_le (by simp [h72]), hcode, List.take_left' hlen]
  have hword : ∀ p, slice (dramEncode f data p) 0 72 = dramEncode f data p := fun p => by simp [slice_of_le, h72]
  have hclean : foldBytes f ++ dramEncode f data false = foldBytes f ++ data ++ rsParity 8 (foldBytes f ++ data) := by simp [hcode]
  have hpois : foldBytes f ++ dramEncode f data true = xorBytes (foldBytes f ++ data ++ rsParity 8 (foldBytes f ++ data)) poisonMark := by
    rw [← poisoned_eq hmsg hk]
    simp [hcode]
  have hback := xorBytes_self_cancel (a := foldBytes f ++ data ++ rsParity 8 (foldBytes f ++ data)) (b := poisonMark) (by rw [List.length_append, hmsg, hk]; rfl)
  refine ⟨h72 false, ?_, ?_⟩
  · simp only [dramDecode, hword, hdata, hclean, rsSyndromes_codeword, if_true]
  · simp only [dramDecode, hword, hdata, hpois, rsSyndromes_poisoned hmsg, ← poisonMark_eq, hback, rsSyndromes_codeword, if_true, Bool.false_eq_true, if_false]

end Sys2Proof.Proofs
end

section
/-! SUPPORT. Writes of RING_CTL (R297, R299, R312): the rule of the register takes the command of a ring in the state it is for, and what each
command leaves of the ring. -/

namespace Sys2Proof.Proofs

set_option Elab.async false

open Sys2Proof.Machine Sys2Proof.Laws

variable {s t : State} {n : Nat} {via : Path}

/-! ## The rule of RING_CTL -/

/-- After GLB_LOCK only ring 0 over the sideband and JTAG is served (R298). -/
theorem ringCtlWrite_served (hl : s.locked = true → n = 0 ∧ via ≠ .mreg) :
    (s.ringSt n = 0 → s.ringCtlWrite via n 1 = (stOK, s.enableRing n))
    ∧ (s.ringSt n = 1 → s.ringCtlWrite via n 2 = (stOK, s.resetRing n))
    ∧ (s.ringSt n = 2 → s.ringCtlWrite via n 4 = (stOK, s.resumeRing n)) := by
  have hopen : (s.locked && !(n == 0 && via != .mreg)) = false := by
    cases hlk : s.locked with
    | false => rfl
    | true =>
      obtain ⟨h0, hv⟩ := hl hlk
      simp [h0, hv]
  have h1 : bitAt 1 0 = true := by decide
  have h2 : bitAt 2 0 = false ∧ bitAt 2 1 = true := by decide
  have h4 : bitAt 4 0 = false ∧ bitAt 4 1 = false ∧ bitAt 4 2 = true := by decide
  refine ⟨fun h => ?_, fun h => ?_, fun h => ?_⟩
  · simp only [State.ringCtlWrite, hopen, h1, h, Bool.false_eq_true, if_false, if_true]
  · simp only [State.ringCtlWrite, hopen, h2, h, Bool.false_eq_true, if_false, if_true, or_self, OfNat.one_ne_ofNat, one_ne_zero]
  · simp only [State.ringCtlWrite, hopen, h4, h, Bool.false_eq_true, if_false, if_true]

/-! ## ENABLE (R297) -/

theorem setRing_ring_ne {m k : Nat} (h : k ≠ m) (r : Ring) : (s.setRing m r).ring k = s.ring k := mgetD_mput_ne h _ _ _

theorem putRing_ring_ne {m k : Nat} (h : k ≠ m) (r : Ring) : (s.putRing m r).ring k = s.ring k := by
  rw [State.putRing, set_ring_of, setRing_ring_ne h]

theorem sets_ring (fs : List (Fld × Nat)) (m : Nat) : (s.sets fs).ring m = s.ring m := by rw [State.ring, sets_rings, ← State.ring]

theorem enableRing_ring_ne {m : Nat} (h : m ≠ n) : (s.enableRing n).ring m = s.ring m := by rw [State.enableRing, putRing_ring_ne h, sets_ring]

/-- The producer index and the tail of the completion queue read 0, as the fetch index does. -/
theorem enableRing_indices : (s.enableRing n).fld (RING_SQ_PROD n) = 0 ∧ (s.enableRing n).fld (RING_CQ_TAIL n) = 0 := by
  have hpt : (RING_SQ_PROD n).off ≠ (RING_CQ_TAIL n).off := by simp only [RING_SQ_PROD, RING_CQ_TAIL]; omega
  have hpi : (RING_SQ_PROD n).off ≠ (RING_STATUS_INFLIGHT n).off := by simp only [RING_SQ_PROD, RING_STATUS_INFLIGHT]; omega
  have hti : (RING_CQ_TAIL n).off ≠ (RING_STATUS_INFLIGHT n).off := by simp only [RING_CQ_TAIL, RING_STATUS_INFLIGHT]; omega
  constructor
  · rw [State.enableRing, State.putRing, fld_set_ne _ hpi, setRing_fld, sets_cons, sets_cons, sets_cons, sets_cons, sets_nil, fld_set_ne _ hpt,
      fld_set_fits (by decide : 0 ≤ 31) (by decide : 31 < 32) (Nat.two_pow_pos _)]
  · rw [State.enableRing, State.putRing, fld_set_ne _ hti, setRing_fld, sets_cons, sets_cons, sets_cons, sets_cons, sets_nil,
      fld_set_fits (by decide : 0 ≤ 31) (by decide : 31 < 32) (Nat.two_pow_pos _)]

/-! ## RESUME (R312) -/

theorem resumeRing_haltStatus (hn : n < 64) : (s.resumeRing n).fld (RING_STATUS_HALT_STATUS n) = 0 := by
  rw [resumeRing_status hn (f := RING_STATUS_HALT_STATUS n) rfl, resumeFields, sets_cons, sets_cons, sets_cons, sets_nil]
  exact fld_set_fits (by decide : 0 ≤ 7) (by decide : 7 < 32) (Nat.two_pow_pos _)

theorem activity_ring (m : Nat) : s.activity.ring m = s.ring m := by
  have h : s.activity.rings = s.rings := by
    unfold State.activity
    dsimp only
    split <;> split <;> simp
  rw [State.ring, State.ring, h]

theorem sendOwn_ring (p : Packet) (o : Owner) (space m : Nat) : (s.sendOwn p o space).ring m = s.ring m := by
  rw [State.ring, (outside_sendOwn p o space).1 .rings (by decide), ← State.ring]

theorem readRcb_ring {use : Nat} (h : (s.ring n).rcbRead = none) : (s.readRcb n use).ring n = { s.ring n with rcbRead := some use } := by
  rw [State.readRcb, h, if_neg (by simp), sendOwn_ring, setRing_ring_same]

/-- The resumed ring keeps its descriptors and entries, and holds none back; its control block is read. -/
theorem resumeRing_ring : (s.resumeRing n).ring n = { s.ring n with cplHeld := false, rcbRead := some 2 } := by
  have hring : ((s.sets (resumeFields n)).forsake (Owner.rcbOf n)).ring n = s.ring n := by rw [forsake_ring, sets_ring]
  rw [resumeRing_eq, activity_ring, resumeRead, readRcb_ring (by rw [setRing_ring_same]), setRing_ring_same, hring]

/-! ## RESET (R299) -/

/-- Nothing of the ring's queue is fetched or being fetched. -/
def Unfetched (n : Nat) (s : State) : Prop := (s.ring n).slots = [] ∧ (s.ring n).fetching = 0

theorem Unfetched.endReset (h : Unfetched n s) (m : Nat) : Unfetched n (s.endReset m) := by
  unfold State.endReset
  dsimp only
  split
  · rwa [Unfetched, set_ring_of]
  · exact h

/-- A change of a ring that keeps what it has fetched. -/
theorem Unfetched.putRing (h : Unfetched n s) {m : Nat} {r : Ring} (hs : r.slots = (s.ring m).slots) (hf : r.fetching = (s.ring m).fetching) :
    Unfetched n (s.putRing m r) := by
  by_cases hm : n = m
  · subst hm
    simpa only [Unfetched, putRing_ring_same, hs, hf] using h
  · simpa only [Unfetched, putRing_ring_ne hm] using h

theorem Unfetched.dropCpls (h : Unfetched n s) (m k : Nat) : Unfetched n (s.dropCpls m k) := by
  refine Unfetched.endReset (h.putRing ?_ ?_) m
  · rfl
  · rfl

theorem Unfetched.finishDesc (h : Unfetched n s) (m job : Nat) (st : BitVec 8) (stage detail : Nat) (res : List (BitVec 8)) :
    Unfetched n (s.finishDesc m job st stage detail res) := by
  unfold State.finishDesc
  dsimp only
  split
  · exact h
  · exact h.putRing rfl rfl

theorem Unfetched.keptDropped (h : Unfetched n s) (r : Ring) : Unfetched n (keptDropped n r s) := by
  unfold Proofs.keptDropped
  split
  next h0 =>
    subst h0
    have hwhen : Unfetched 0 (s.when r.cplKept fun x => (x.forsake (· == .cpl 0)).dropCpls 0 r.cpls.length) := by
      unfold State.when
      split
      · exact Unfetched.dropCpls (by rwa [Unfetched, forsake_ring]) _ _
      · exact h
    unfold Unfetched
    rwa [showRing0_ring]
  next => exact h

theorem resetRing_unfetched : Unfetched n (s.resetRing n) := by
  rw [resetRing_eq]
  have hbegun : Unfetched n (resetBegun s n) := by
    unfold Unfetched
    rw [resetBegun, State.orphan, forsake_ring, putRing_ring_same]
    exact ⟨rfl, rfl⟩
  exact (each_keeps (hbegun.keptDropped _) fun x j hx => hx.finishDesc n j _ _ _ _).endReset n

/-! ## The statement -/

theorem takes_calm {b : Blk} (ht : s.takes via b = true) : s.calm = true := by
  simp only [State.takes, Bool.and_eq_true] at ht
  exact ht.2

/-- The frame of a write that was taken, from what the register's own rule may change. -/
theorem taken_of_only {l : List Part} (h : only (.regs :: l) s t) (hacc : Part.acc ∉ l) : taken via l s (t.pathStatus via stOK) := by
  refine ⟨pathStatus_acc via _ (h .acc (by simp [hacc])), ?_⟩
  exact only_trans (only_mono (by simp) h) (only_mono (by simp) (only_pathStatus via stOK))

/-- Settles O6: the rule of RING_CTL serves each command in the state it is for, and the three operations leave the ring as stated. -/
theorem ringWrites : Obligations.RingWrites := by
  intro via n s ht hl
  have hl' : s.locked = true → n.toNat = 0 ∧ via ≠ .mreg := fun h => ⟨congrArg BitVec.toNat (hl h).1, (hl h).2⟩
  obtain ⟨henable, hreset, hresume⟩ := ringCtlWrite_served hl'
  refine ⟨fun h => ?_, fun h => ?_, fun h hd hc _ => ?_⟩
  · have honly := enableRing_only (s := s) (n := n.toNat)
    obtain ⟨hprod, htail⟩ := enableRing_indices (s := s) (n := n.toNat)
    refine ⟨_, congrArg Host.Outcome.next (pathWrite_RING_CTL_taken n.isLt (.inr (.inl rfl)) ht (henable h) ?_), (pathStatus_fld via _ _).trans enableRing_ringSt,
      (pathStatus_fld via _ _).trans enableRing_fetchIndex, (pathStatus_fld via _ _).trans hprod, (pathStatus_fld via _ _).trans htail,
      (pathStatus_ring via _ _).trans enableRing_ring, fun m hm => (pathStatus_ring via _ _).trans (enableRing_ring_ne hm), taken_of_only honly (by decide)⟩
    exact (calm_of (honly .pwr (by decide)) (honly .flt (by decide))).trans (takes_calm ht)
  · have hring : ((s.resumeRing n.toNat).pathStatus via stOK).ring n.toNat = _ := (pathStatus_ring via _ _).trans resumeRing_ring
    exact ⟨_, congrArg Host.Outcome.next (pathWrite_RING_CTL_taken n.isLt (.inr (.inr (.inr rfl))) ht (hresume h) (resumeRing_calm.trans (takes_calm ht))),
      (pathStatus_fld via _ _).trans (resumeRing_ringSt n.isLt), (pathStatus_fld via _ _).trans (resumeRing_haltCause n.isLt),
      (pathStatus_fld via _ _).trans (resumeRing_haltStatus n.isLt), by rw [hring], by rw [hring], by rw [hring]⟩
  · have honly := resetRing_only (s := s) (n := n.toNat)
    obtain ⟨hslots, hfetching⟩ := resetRing_unfetched (s := s) (n := n.toNat)
    refine ⟨_, congrArg Host.Outcome.next (pathWrite_RING_CTL_taken n.isLt (.inr (.inr (.inl rfl))) ht (hreset h) ?_),
      (pathStatus_fld via _ _).trans (resetRing_ringSt hd hc), by rw [pathStatus_ring, hslots], by rw [pathStatus_ring, hfetching]⟩
    exact (calm_of (honly .pwr (by decide)) (honly .flt (by decide))).trans (takes_calm ht)

end Sys2Proof.Proofs
end

section
/-! SUPPORT. Frames of the fabric: sending packets, routing waiting ones anew, and taking links, ports and bypass pairs up or down change the links,
the lanes, the switch, and registers of a known kind: the counters of packets, the status of pairs, ports and lanes. -/

namespace Sys2Proof.Proofs

set_option Elab.async false

open Sys2Proof.Machine Sys2Proof.Laws

variable {s t u : State} {l k : List Part} {r q : Nat → Prop}

/-! ## Frames with a set of registers -/

/-- The two states differ in the listed parts alone, and in no register outside the set. -/
structure Frame (l : List Part) (r : Nat → Prop) (s t : State) : Prop where
  parts : only l s t
  reg : ∀ o, ¬ r o → t.reg o = s.reg o

theorem Frame.refl (l : List Part) (r : Nat → Prop) (s : State) : Frame l r s s := ⟨only_refl l s, fun _ _ => rfl⟩

theorem Frame.trans (h : Frame l r s t) (h' : Frame l r t u) : Frame l r s u :=
  ⟨only_trans h.parts h'.parts, fun o ho => (h'.reg o ho).trans (h.reg o ho)⟩

theorem Frame.mono (hk : k ⊆ l) (hr : ∀ o, q o → r o) (h : Frame k q s t) : Frame l r s t :=
  ⟨only_mono hk h.parts, fun o ho => h.reg o fun hq => ho (hr o hq)⟩

theorem Frame.after (h' : Frame l r t u) (h : Frame l r s t) : Frame l r s u := h.trans h'

/-- A change of parts other than the registers. -/
theorem Frame.of_only (h : only k s t) (hk : k ⊆ l) (hr : Part.regs ∉ k) : Frame l r s t :=
  ⟨only_mono hk h, fun o _ => reg_congr (h .regs hr) o⟩

theorem Frame.setReg {off v : Nat} (hl : Part.regs ∈ l) (hr : r off) : Frame l r s (s.setReg off v) :=
  ⟨only_mono (by simpa using hl) only_setReg, fun o ho => reg_setReg_ne s (fun (e : o = off) => ho (e.symm ▸ hr)) v⟩

theorem Frame.set {f : Fld} {v : Nat} (hl : Part.regs ∈ l) (hr : r f.off) : Frame l r s (s.set f v) := Frame.setReg hl hr

theorem Frame.inc {f : Fld} (hl : Part.regs ∈ l) (hr : r f.off) : Frame l r s (s.inc f) := Frame.set hl hr

theorem Frame.sets {fs : List (Fld × Nat)} (hl : Part.regs ∈ l) (hr : ∀ p ∈ fs, r p.1.off) : Frame l r s (s.sets fs) := by
  induction fs generalizing s with
  | nil => exact .refl l r s
  | cons p fs ih => exact (Frame.set hl (hr p List.mem_cons_self)).trans (ih fun q hq => hr q (List.mem_cons_of_mem _ hq))

theorem Frame.each {α : Type} {xs : List α} {f : State → α → State} (h : ∀ x, ∀ a ∈ xs, Frame l r x (f x a)) : Frame l r s (s.each xs f) := by
  induction xs generalizing s with
  | nil => exact .refl l r s
  | cons a xs ih => exact (h s a List.mem_cons_self).trans (ih fun x b hb => h x b (List.mem_cons_of_mem _ hb))

theorem Frame.when {b : Bool} {f : State → State} (h : Frame l r s (f s)) : Frame l r s (s.when b f) := by
  cases b
  · exact .refl l r s
  · exact h

theorem Frame.ite {c : Prop} [Decidable c] (ht : Frame l r s t) (hu : Frame l r s u) : Frame l r s (if c then t else u) := by
  split
  · exact ht
  · exact hu

theorem Frame.agree {p : Part} (h : Frame l r s t) (hp : p ∉ l) : Sys2Proof.agree p s t := h.parts p hp

theorem Frame.fld {f : Fld} (h : Frame l r s t) (hf : ¬ r f.off) : t.fld f = s.fld f := by rw [State.fld, State.fld, h.reg _ hf]

theorem Frame.regsBut {offs : List Nat} (h : Frame l r s t) (hr : ∀ o, r o → o ∈ offs) : Sys2Proof.regsBut offs s t :=
  fun o ho => h.reg o fun hq => ho (hr o hq)

theorem Frame.calm (h : Frame l r s t) (hp : Part.pwr ∉ l) (hf : Part.flt ∉ l) : t.calm = s.calm := calm_of (h.parts .pwr hp) (h.parts .flt hf)

/-! ## Sending packets (R161, R165) -/

/-- The counters of packets that have no route or are dropped. -/
def packetReg (o : Nat) : Prop :=
  o = RT_UNREACH.off ∨ o = RT_CNT_VIOL_ROUTE.off ∨ o = RT_HOPS_EXCEEDED.off ∨ o = GLB_CNT_VIOL_MALFORMED.off ∨ o = RT_WAIT_EXPIRED.off ∨ o = RT_DROP.off

/-- What sending a packet may change. -/
abbrev Sends (s t : State) : Prop := Frame [.sw, .regs] packetReg s t

/-- A routing decision that fails names one of these counters. -/
def FailsCounted : Route → Prop
  | .fail _ c => packetReg c.off
  | _ => True

theorem routeForward_counted (p : Packet) (x n : Nat) (reset : Bool) : FailsCounted (s.routeForward p x n reset) := by
  unfold State.routeForward
  split
  · trivial
  · split
    · exact .inl rfl
    · trivial

theorem routeEnter_counted (p : Packet) (d n : Nat) : FailsCounted (s.routeEnter p d n) := by
  unfold State.routeEnter
  dsimp only
  split
  · exact .inl rfl
  · split
    · exact routeForward_counted _ _ _ _
    · trivial

theorem routeDims_counted {p : Packet} {inp : Option Nat} {ds : List Nat} {x : Route} (h : s.routeDims p inp ds = some x) : FailsCounted x := by
  induction ds with
  | nil => simp [State.routeDims] at h
  | cons d ds ih =>
    simp only [State.routeDims] at h
    split at h
    · exact ih h
    · split at h
      · split at h
        · cases h; exact routeForward_counted _ _ _ _
        · split at h
          · cases h; exact .inr (.inl rfl)
          · cases h; exact routeEnter_counted _ _ _
      · cases h; exact routeEnter_counted _ _ _

theorem route_counted (p : Packet) (inp : Option Nat) : FailsCounted (s.route p inp) := by
  unfold State.route
  split
  · exact .inr (.inr (.inl rfl))
  · split
    next x hx => exact routeDims_counted hx
    next =>
      dsimp only
      split
      · trivial
      · split
        · exact .inr (.inr (.inr (.inl rfl)))
        · split
          · exact .inl rfl
          · split <;> trivial

theorem sends_sw (x : SwitchSt) : Sends s { s with sw := x } := .of_only (only_sw x) (by simp) (by simp)

theorem sends_addOut (x : OutPkt) : Sends s (s.addOut x) := by
  obtain ⟨held, n, h⟩ := addOut_eq s x
  rw [h]
  exact sends_sw _

theorem sends_addIn (x : InPkt) : Sends s (s.addIn x) := by
  obtain ⟨w, h⟩ := addIn_only s x
  rw [h]
  exact sends_sw _

theorem sends_inc {c : Fld} (hc : packetReg c.off) : Sends s (s.inc c) := .inc (by simp) hc

theorem packetReg_drop : packetReg RT_DROP.off := .inr (.inr (.inr (.inr (.inr rfl))))
theorem packetReg_waitExpired : packetReg RT_WAIT_EXPIRED.off := .inr (.inr (.inr (.inr (.inl rfl))))

/-- Placing a packet changes the switch; where it fails, it names a counter of packets. -/
theorem place_sends (p : Packet) (held : List Nat) : Sends s (s.place p held).1 ∧ ∀ e, (s.place p held).2 = some e → packetReg e.2.off := by
  have hr := route_counted (s := s) p none
  unfold State.place
  split
  case h_1 => exact ⟨sends_addOut _, by simp⟩
  case h_2 =>
    split
    · exact ⟨.refl _ _ _, fun e he => by cases he; exact packetReg_waitExpired⟩
    · exact ⟨sends_addOut _, by simp⟩
  case h_3 => exact ⟨sends_addIn _, by simp⟩
  case h_4 st c h => exact ⟨.refl _ _ _, fun e he => by cases he; rw [h] at hr; exact hr⟩

theorem sends_emitRsp (p : Packet) (held : List Nat) : Sends s (s.emitRsp p held) := by
  have h := (place_sends (s := s) p held).1
  unfold State.emitRsp
  split
  next x heq => rw [heq] at h; exact h
  next x e heq => rw [heq] at h; exact h.trans (sends_inc packetReg_drop)

theorem sends_failPacket (p : Packet) (st : BitVec 8) {c : Fld} (hc : packetReg c.off) : Sends s (s.failPacket p st c) := by
  unfold State.failPacket
  split
  · exact (sends_inc hc).trans (sends_emitRsp _ _)
  · exact (sends_inc packetReg_drop).trans (.when (sends_inc hc))

theorem sends_emit (p : Packet) : Sends s (s.emit p) := by
  have h := place_sends (s := s) p []
  unfold State.emit
  split
  next x heq => rw [heq] at h; exact h.1
  next x st c heq =>
    rw [heq] at h
    exact h.1.trans (sends_failPacket p st (h.2 _ rfl))

/-- The end of a wait (R166): the packet is placed by its new route, or fails. -/
theorem sends_waitEnds (o : OutPkt) : Sends s (s.waitEnds o) := by
  have hr := route_counted (s := s) o.pkt o.inPort
  unfold State.waitEnds
  split
  case h_1 => exact sends_addOut _
  case h_2 => exact sends_failPacket _ _ packetReg_waitExpired
  case h_3 => exact sends_addIn _
  case h_4 st c h => rw [h] at hr; exact sends_failPacket _ _ hr

theorem sends_reroute : Sends s s.reroute := by
  unfold State.reroute
  refine (sends_sw _).trans (.each fun x o _ => ?_)
  have hr := route_counted (s := x) o.pkt o.inPort
  split
  case h_1 => exact sends_addOut _
  case h_2 => exact sends_addOut _
  case h_3 => exact sends_addIn _
  case h_4 st c h => rw [h] at hr; exact sends_failPacket _ _ hr

theorem sends_strand (p : Nat) : Sends s (s.strand p) := by
  unfold State.strand
  dsimp only
  split
  · exact .refl _ _ _
  · split
    · exact (sends_sw _).trans (.each fun x o _ => sends_waitEnds o)
    · exact sends_sw _

theorem sends_readmit : Sends s s.readmit := (Frame.each fun _ p _ => sends_strand p).trans sends_reroute

/-! ## Links, ports and pairs -/

/-- The registers that links going up or down write: the counters of packets, the status and counters of a port, and the lanes from 0x20000 on. -/
def linkReg (o : Nat) : Prop :=
  packetReg o ∨ (0x10000 ≤ o ∧ (0x108 ≤ o % 0x800 ∧ o % 0x800 < 0x200 ∨ 0x240 ≤ o % 0x800)) ∨ 0x20000 ≤ o

/-- What taking links up or down may change. -/
abbrev Links (s t : State) : Prop := Frame [.links, .lanes, .sw, .regs] linkReg s t

theorem Links.of_sends (h : Sends s t) : Links s t := h.mono (by simp) fun _ => .inl

theorem linkReg_port {o : Nat} (h : 0x10000 ≤ o) (h' : 0x108 ≤ o % 0x800 ∧ o % 0x800 < 0x200 ∨ 0x240 ≤ o % 0x800) : linkReg o :=
  .inr (.inl ⟨h, h'⟩)

theorem linkReg_lane {o : Nat} (h : 0x20000 ≤ o) : linkReg o := .inr (.inr h)

theorem links_set {f : Fld} {v : Nat} (h : linkReg f.off) : Links s (s.set f v) := .set (by simp) h

theorem links_setLane (n : Nat) (x : Lane) : Links s (s.setLane n x) := .of_only (only_setLane n x) (by simp) (by simp)

theorem links_setLink (p m : Nat) (x : Link) : Links s (s.setLink p m x) := .of_only (only_setLink p m x) (by simp) (by simp)

theorem links_sendBlocks (p m : Nat) : Links s (s.sendBlocks p m) := .each fun _ _ _ => links_setLane _ _

theorem links_laneSets {n : Nat} {fs : List (Fld × Nat)} (h : ∀ p ∈ fs, p.1.off = 0x20014 + 0x400 * n ∨ p.1.off = 0x20018 + 0x400 * n) : Links s (s.sets fs) :=
  .sets (by simp) fun p hp => linkReg_lane (by have := h p hp; omega)

theorem links_laneRestart (n : Nat) : Links s (s.laneRestart n) :=
  (links_setLane _ _).trans (links_laneSets (n := n) (by simp [LANE_STATUS_CDR_LOCK, LANE_STATUS_MARKER_LOCK, LANE_STATUS_INVERTED, LANE_STATUS_IN_USE,
    LANE_STATUS_LOGICAL, LANE_EYE_STALE]))

theorem linkReg_linkStatus {p m : Nat} (hm : m < 8) : linkReg (0x10120 + 0x800 * p + 4 * m) := linkReg_port (by omega) (by omega)

/-- The fields of PORT_LINK_STATUS. -/
theorem links_linkSets {p m : Nat} {fs : List (Fld × Nat)} (hm : m < 8) (h : ∀ f ∈ fs, f.1.off = 0x10120 + 0x800 * p + 4 * m) : Links s (s.sets fs) :=
  .sets (by simp) fun f hf => by rw [h f hf]; exact linkReg_linkStatus hm

theorem links_startLink {p m : Nat} (hm : m < 8) : Links s (s.startLink p m) := by
  unfold State.startLink
  refine Frame.trans ?_ (links_sendBlocks p m)
  refine Frame.trans ?_ (links_linkSets (p := p) hm (by simp [PORT_LINK_STATUS_STATE, PORT_LINK_STATUS_WIDTH, PORT_LINK_STATUS_ACTIVE_MASK, PORT_LINK_STATUS_REVERSED]))
  refine Frame.trans ?_ (links_setLink _ _ _)
  exact .each fun x n _ => (links_laneRestart n).trans (links_setLane _ _)

theorem links_linkLayerDown (p m : Nat) : Links s (s.linkLayerDown p m) := by
  unfold State.linkLayerDown
  have hd : linkReg (PORT_LL_DROPPED p).off := by simp only [PORT_LL_DROPPED]; exact linkReg_port (by omega) (by omega)
  exact Frame.trans ((links_set hd).trans (links_setLink _ _ _)) (.of_only (only_sw _) (by simp) (by simp))

/-- A link that goes down: its link layer is down, the loss is counted, and the neighbour is no longer known. -/
def linkLeft (s : State) (p m reason : Nat) : State :=
  ((s.when (inService (s.lst p m) || s.lst p m == 6 || (s.link p m).resume) fun x => x.linkLayerDown p m).when
    (inService (s.lst p m) && (reason != 7 || !s.linkEn p)) fun x => x.inc (PORT_LINK_DOWNS p)).set (PORT_NEIGH_ID_VALID p m) 0

/-- A link with its lanes at rest. -/
def lanesStopped (s : State) (p m : Nat) : State :=
  s.each (s.linkLanes p m) fun u n => (u.laneRestart n).setLane n { (u.laneRestart n).lane n with squelch := true }

/-- A link that has gone down begins step 1 while R118 lets it, and else stays DOWN. -/
def linkAnew (s : State) (p m reason : Nat) : State :=
  if s.trainOk p then (s.startLink p m).set (PORT_LINK_STATUS_REASON p m) reason
  else ((lanesStopped s p m).setLink p m ((lanesStopped s p m).link p m).fresh).sets [(PORT_LINK_STATUS_STATE p m, 0), (PORT_LINK_STATUS_REASON p m, (lanesStopped s p m).downReason p reason), (PORT_LINK_STATUS_WIDTH p m, 0),
    (PORT_LINK_STATUS_ACTIVE_MASK p m, 0), (PORT_LINK_STATUS_REVERSED p m, 0)]

theorem linkDown_eq (s : State) (p m reason : Nat) : s.linkDown p m reason = (linkAnew (linkLeft s p m reason) p m reason).strand p := rfl

theorem links_linkLeft (p m reason : Nat) (hm : m < 8) : Links s (linkLeft s p m reason) := by
  have hdowns : linkReg (PORT_LINK_DOWNS p).off := by simp only [PORT_LINK_DOWNS]; exact linkReg_port (by omega) (by omega)
  have hid : linkReg (PORT_NEIGH_ID_VALID p m).off := by simp only [PORT_NEIGH_ID_VALID]; exact linkReg_port (by omega) (by omega)
  refine Frame.trans ?_ (links_set hid)
  exact Frame.trans (.when (links_linkLayerDown p m)) (.when (links_set hdowns))

theorem links_lanesStopped (p m : Nat) : Links s (lanesStopped s p m) :=
  .each fun _ n _ => (links_laneRestart n).trans (links_setLane _ _)

theorem links_linkAnew {p m : Nat} (hm : m < 8) (reason : Nat) : Links s (linkAnew s p m reason) := by
  refine .ite ((links_startLink hm).trans (links_set (linkReg_linkStatus hm))) (((links_lanesStopped p m).trans (links_setLink _ _ _)).trans (links_linkSets (p := p) hm ?_))
  simp [PORT_LINK_STATUS_STATE, PORT_LINK_STATUS_REASON, PORT_LINK_STATUS_WIDTH, PORT_LINK_STATUS_ACTIVE_MASK, PORT_LINK_STATUS_REVERSED]

theorem links_linkDown {p m : Nat} (hm : m < 8) (reason : Nat) : Links s (s.linkDown p m reason) := by
  rw [linkDown_eq]
  exact ((links_linkLeft p m reason hm).trans (links_linkAnew hm reason)).trans (Links.of_sends (sends_strand p))

/-- A port has at most eight links. -/
theorem nLinks_le (s : State) (p : Nat) : s.nLinks p ≤ 8 :=
  Nat.pow_le_pow_right (n := 2) (j := 3) (by decide) (Nat.le_of_lt_succ (fld_lt s (PORT_LINK_CFG_SPLIT p)))

theorem links_checkPort (p : Nat) : Links s (s.checkPort p) := by
  unfold State.checkPort
  refine .each fun x m hm => ?_
  have hm8 : m < 8 := Nat.lt_of_lt_of_le (List.mem_range.mp hm) (nLinks_le s p)
  refine .ite (.ite ?_ (.refl _ _ _)) (.ite ?_ (links_linkDown hm8 7))
  · exact (links_startLink hm8).trans (links_set (linkReg_linkStatus hm8))
  · exact links_set (linkReg_linkStatus hm8)

/-- With links come the bypass pairs: what the closing and opening of pairs may write. -/
def fabricReg (o : Nat) : Prop :=
  packetReg o ∨ o = RT_BYP_STATUS.off ∨ o = RT_BYP_OPEN.off ∨ o = RT_BYP_CLOSES.off
    ∨ (0x10000 ≤ o ∧ (0x108 ≤ o % 0x800 ∧ o % 0x800 < 0x200 ∨ 0x240 ≤ o % 0x800)) ∨ 0x20000 ≤ o

/-- What closing and opening pairs may change. -/
abbrev Fabric (s t : State) : Prop := Frame [.links, .lanes, .sw, .regs] fabricReg s t

theorem fabricReg_of_linkReg {o : Nat} (h : linkReg o) : fabricReg o := h.elim .inl fun h => .inr (.inr (.inr (.inr h)))

theorem Fabric.of_links (h : Links s t) : Fabric s t := h.mono (by simp) fun _ => fabricReg_of_linkReg

theorem Fabric.of_sends (h : Sends s t) : Fabric s t := .of_links (.of_sends h)

theorem fabric_set {f : Fld} {v : Nat} (h : fabricReg f.off) : Fabric s (s.set f v) := .set (by simp) h

theorem fabric_checkPort (p : Nat) : Fabric s (s.checkPort p) := .of_links (links_checkPort p)

theorem fabric_closePair (n : Nat) : Fabric s (s.closePair n) := by
  unfold State.closePair
  refine .ite (.refl _ _ _) (Frame.trans (Frame.trans ?_ (fabric_checkPort _)) (fabric_checkPort _))
  refine Frame.trans (.sets (by simp) ?_) (fabric_set (.inr (.inr (.inr (.inl rfl)))))
  simp [fabricReg, RT_BYP_STATUS_CLOSED, RT_BYP_OPEN_OPEN, RT_BYP_STATUS_LISTEN_READY, RT_BYP_STATUS, RT_BYP_OPEN]

theorem fabric_closePairs : Fabric s s.closePairs := .each fun _ _ _ => .ite (fabric_closePair _) (.refl _ _ _)

theorem fabric_openPair (n : Nat) : Fabric s (s.openPair n) := by
  unfold State.openPair
  refine Frame.trans (Frame.trans (.sets (by simp) ?_) (fabric_checkPort _)) (fabric_checkPort _)
  simp [fabricReg, RT_BYP_STATUS_CLOSED, RT_BYP_STATUS_LISTEN_READY, RT_BYP_STATUS]

end Sys2Proof.Proofs
end

section
/-! SUPPORT. Register writes that are let through (R487): the block's own rule for the register decides, and the path shows OK. Writes of the
identity, the routes and GLB_LOCK (R152, R168, R173, R464). -/

namespace Sys2Proof.Proofs

set_option Elab.async false

open Sys2Proof.Machine Sys2Proof.Laws

variable {s t : State} {via : Path} {off o v : Nat} {b : Blk}

/-! ## A legal word reaches the register's rule -/

theorem legal_desc (h : s.legal off v = true) (hb : blkOf off = some (b, o)) :
    ∃ d, descOf off = some d ∧ v &&& fieldMask d = v ∧ s.rsvdValue b off o v = false ∧ writesNothing off d = false
      ∧ (s.locked && (allRwl d || lockedOut off)) = false ∧ s.unitGone b o = false := by
  unfold State.legal at h
  split at h
  next b' o' d hb' hd =>
    obtain ⟨rfl, rfl⟩ : b' = b ∧ o' = o := by simpa [hb] using hb'.symm
    simp only [Bool.and_eq_true, beq_iff_eq, Bool.not_eq_true'] at h
    obtain ⟨⟨⟨⟨hm, hr⟩, hw⟩, hl⟩, hu⟩ := h
    exact ⟨d, hd, hm, hr, hw, hl, hu⟩
  next => simp at h

/-- A legal write that the register's rule answers OK to. -/
theorem pathWrite_legal (hb : blkOf off = some (b, o)) (hlegal : s.legal off v = true) (ht : s.takes via b = true)
    (hn : off ≠ FLT_ACK.off ∧ off ≠ FLT_INJ.off ∧ off ≠ GLB_MEM_CFG.off)
    (ha : ∀ d, descOf off = some d → s.applyWrite via b off o v d = (some stOK, t)) (hc : t.calm = s.calm) :
    s.pathWrite via off v = t.pathStatus via stOK := by
  obtain ⟨d, hd, hm, hr, hw, hl, hu⟩ := legal_desc hlegal hb
  exact pathWrite_taken hb hd hm hr hw hl hu hn.1 hn.2.1 ht (ha d hd) (hc.trans (takes_calm ht)) (mapHeld_of_ne hn.2.2)

/-- A word with no reserved bit, for a register that can be written. -/
def openWord (off v : Nat) : Bool := (descOf off).any fun d => v &&& fieldMask d == v && !writesNothing off d

theorem legal_of_openWord (hb : blkOf off = some (b, o)) (h : openWord off v = true) (hr : s.rsvdValue b off o v = false) (hu : s.unitGone b o = false)
    (hl : s.locked = false) : s.legal off v = true := by
  unfold State.legal
  obtain ⟨d, hd⟩ : ∃ d, descOf off = some d := by
    cases hd : descOf off with
    | none => simp [openWord, hd] at h
    | some d => exact ⟨d, rfl⟩
  simp only [openWord, hd, Option.any_some, Bool.and_eq_true, beq_iff_eq, Bool.not_eq_true'] at h
  simp [hb, hd, h, hr, hu, hl]

/-- What a taken write leaves of a register, and of its frame, is what the register's rule leaves. -/
theorem pathStatus_frame {offs : List Nat} {l : List Part} (hregs : regsBut offs s t) (honly : only (.regs :: l) s t) (hacc : Part.acc ∉ l) :
    regsBut offs s (t.pathStatus via stOK) ∧ taken via l s (t.pathStatus via stOK) :=
  ⟨regsBut_trans hregs (regsBut_pathStatus via stOK), taken_of_only honly hacc⟩

theorem on_iff (f : Fld) : s.on f = true ↔ s.fld f ≠ 0 := by simp [State.on]

theorem reg_setReg_fits (h : v < 2 ^ 32) : (s.setReg off v).reg off = v := by rw [reg_setReg_same, Nat.mod_eq_of_lt h]

theorem mem_bitList {w m i : Nat} : i ∈ bitList w m ↔ i < w ∧ bitAt m i = true := by simp [bitList, bitAt]

/-! ## Identity and members -/

theorem packetReg_high {o : Nat} (h : packetReg o) : 0xC000 ≤ o ∨ o = GLB_CNT_VIOL_MALFORMED.off := by
  obtain rfl | rfl | rfl | rfl | rfl | rfl := h
  exacts [.inl (by decide), .inl (by decide), .inl (by decide), .inr rfl, .inl (by decide), .inl (by decide)]

theorem glbDid_taken {v : BitVec 32} (ht : s.takes via .glb = true) (hl : s.legal GLB_DID.off v.toNat = true) :
    ∃ t, exec (.glbDidWrite via v) s = .next t ∧ t.fld GLB_DID_DID = bitsOf v.toNat 11 0 ∧ t.fld GLB_DID_STRAP_DID = s.fld GLB_DID_STRAP_DID ∧ taken via [.links, .sw] s t := by
  have hsent := sends_readmit (s := s.set GLB_DID_DID (bitsOf v.toNat 11 0))
  have honly : only [.regs, .links, .sw] s (s.set GLB_DID_DID (bitsOf v.toNat 11 0)).readmit :=
    only_trans (only_mono (by simp) (only_set _ _)) (only_mono (by simp) hsent.parts)
  have hfld : ∀ f : Fld, f.off = GLB_DID.off → ((s.set GLB_DID_DID (bitsOf v.toNat 11 0)).readmit.pathStatus via stOK).fld f = (s.set GLB_DID_DID (bitsOf v.toNat 11 0)).fld f :=
    fun f hf => (pathStatus_fld via _ _).trans (hsent.fld (by rw [hf]; unfold packetReg; decide))
  refine ⟨_, congrArg Host.Outcome.next (pathWrite_legal (t := (s.set GLB_DID_DID (bitsOf v.toNat 11 0)).readmit) rfl hl ht (by decide) (fun d _ => rfl)
    (calm_of (honly .pwr (by decide)) (honly .flt (by decide)))), ?_, ?_,
    taken_of_only honly (by decide)⟩
  · rw [hfld GLB_DID_DID rfl]
    exact fld_set_fits (by decide) (by decide) (Nat.mod_lt _ (by decide))
  · rw [hfld GLB_DID_STRAP_DID rfl]
    exact fld_set_disjoint s (by decide) (by decide) (.inl (by decide)) _

theorem rtMembers_taken {d : Dim} {v : BitVec 32} (ht : s.takes via .rt = true) (hl : s.legal (RT_MEMBERS (dimIx d)).off v.toNat = true)
    (hfree : ∀ p < 32, s.role p = 4 - dimIx d → s.portBusy p = false) :
    ∃ t, exec (.rtMembersWrite via d v) s = .next t ∧ t.reg (RT_MEMBERS (dimIx d)).off = v.toNat ∧ taken via [.links, .sw] s t := by
  have hbusy : ((List.range s.nPorts).any fun p => s.role p == roleOfDim (dimIx d) && s.portBusy p) = false := by
    refine List.any_eq_false.mpr fun p hp => ?_
    have hp32 : p < 32 := Nat.lt_of_lt_of_le (List.mem_range.mp hp) (by unfold State.nPorts; split <;> omega)
    by_cases hr : s.role p = 4 - dimIx d
    · simp [hfree p hp32 hr]
    · simp [roleOfDim, hr]
  have hrule : s.membersWrite (dimIx d) v.toNat = (stOK, (s.setReg (RT_MEMBERS (dimIx d)).off v.toNat).readmit) := by
    simp only [State.membersWrite, hbusy, Bool.false_eq_true, if_false]
    rfl
  have hsent := sends_readmit (s := s.setReg (RT_MEMBERS (dimIx d)).off v.toNat)
  have honly : only [.regs, .links, .sw] s (s.setReg (RT_MEMBERS (dimIx d)).off v.toNat).readmit :=
    only_trans (only_mono (by simp) only_setReg) (only_mono (by simp) hsent.parts)
  refine ⟨_, congrArg Host.Outcome.next (pathWrite_legal (b := .rt) (o := 0x10 + 4 * dimIx d) (by cases d <;> rfl) hl ht (by cases d <;> decide) (fun r _ => ?_)
    (calm_of (honly .pwr (by decide)) (honly .flt (by decide)))), ?_, taken_of_only honly (by decide)⟩
  · rw [show s.applyWrite via .rt (RT_MEMBERS (dimIx d)).off (0x10 + 4 * dimIx d) v.toNat r = atOnce (s.membersWrite (dimIx d) v.toNat) by cases d <;> rfl, hrule]
    rfl
  · rw [pathStatus_reg, hsent.reg _ (by cases d <;> unfold packetReg <;> decide)]
    exact reg_setReg_fits v.isLt

/-! ## Routes -/

theorem route_off (d : Dim) (n : BitVec 4) : (RT_POD (16 * dimIx d + n.toNat)).off = 0xC100 + 0x40 * dimIx d + 4 * n.toNat := by
  simp only [RT_POD]
  omega

theorem rtValid_off (d : Dim) (n : BitVec 4) : (rtValid (dimIx d) n.toNat).off = 0xC100 + 0x40 * dimIx d + 4 * n.toNat := by
  cases d <;> simp [rtValid, dimIx, RT_POD_VALID, RT_RING_VALID, RT_POS_VALID]

theorem routeEntry_taken {d : Dim} {n : BitVec 4} {v : BitVec 32} (ht : s.takes via .rt = true) (hl : s.legal (0xC100 + 0x40 * dimIx d + 4 * n.toNat) v.toNat = true)
    (hfit : ∀ k < 16, bitAt v.toNat 31 = true → bitAt v.toNat k = true → s.pairFits (dimIx d) k = true ∧ s.portBusy (2 * k) = false ∧ s.portBusy (2 * k + 1) = false)
    (hnew : s.on (rtValid (dimIx d) n.toNat) = false) :
    ∃ t, exec (.routeEntryWrite via d n v) s = .next t ∧ t.reg (0xC100 + 0x40 * dimIx d + 4 * n.toNat) = v.toNat
      ∧ regsBut [0xC100 + 0x40 * dimIx d + 4 * n.toNat] s t ∧ taken via [] s t := by
  have hd : dimIx d < 3 := by cases d <;> decide
  have hn := n.isLt
  have hgood : (bitAt v.toNat 31 && (bitList 16 v.toNat).any fun k => !s.pairFits (dimIx d) k) = false := by
    cases hv : bitAt v.toNat 31 with
    | false => rfl
    | true =>
      refine List.any_eq_false.mpr fun k hk => ?_
      obtain ⟨hk16, hbit⟩ := mem_bitList.mp hk
      simp [(hfit k hk16 hv hbit).1]
  have hrule : s.routeWrite (dimIx d) n.toNat v.toNat = (stOK, s.setReg (0xC100 + 0x40 * dimIx d + 4 * n.toNat) v.toNat) := by
    simp only [State.routeWrite, hgood, hnew, Bool.false_and, Bool.or_self, Bool.false_eq_true, if_false, rtValid_off]
  obtain ⟨hregs, htaken⟩ := pathStatus_frame (via := via) (l := []) (offs := [0xC100 + 0x40 * dimIx d + 4 * n.toNat])
    (regsBut_setReg (s := s) (off := 0xC100 + 0x40 * dimIx d + 4 * n.toNat) (v := v.toNat) (List.mem_singleton_self _))
    only_setReg (by simp)
  have hwrite := pathWrite_legal (t := s.setReg (0xC100 + 0x40 * dimIx d + 4 * n.toNat) v.toNat) (b := .rt) (off := 0xC100 + 0x40 * dimIx d + 4 * n.toNat) (o := 0x100 + 0x40 * dimIx d + 4 * n.toNat)
    (by simp only [blkOf]; grind) hl ht
    (by simp only [FLT_ACK, FLT_INJ, GLB_MEM_CFG]; omega) (fun r _ => ?_) (calm_of rfl rfl)
  · exact ⟨_, congrArg Host.Outcome.next ((congrArg (s.pathWrite via · v.toNat) (route_off d n)).trans hwrite),
      (pathStatus_reg via _ _).trans (reg_setReg_fits v.isLt), hregs, htaken⟩
  · have hq : (0x100 + 0x40 * dimIx d + 4 * n.toNat - 0x100) / 0x40 = dimIx d := by omega
    have hi : (0x100 + 0x40 * dimIx d + 4 * n.toNat) % 0x40 / 4 = n.toNat := by omega
    have h1 : ¬ 0x100 + 0x40 * dimIx d + 4 * n.toNat = 0x040 := by omega
    have h2 : ¬ 0x100 + 0x40 * dimIx d + 4 * n.toNat = 0x044 := by omega
    have h3 : ¬ (0x010 ≤ 0x100 + 0x40 * dimIx d + 4 * n.toNat ∧ 0x100 + 0x40 * dimIx d + 4 * n.toNat < 0x020) := by omega
    have h4 : 0x100 ≤ 0x100 + 0x40 * dimIx d + 4 * n.toNat ∧ 0x100 + 0x40 * dimIx d + 4 * n.toNat < 0x1C0 := by omega
    simp only [State.applyWrite, if_neg h1, if_neg h2, if_neg h3, if_pos h4, hq, hi, hrule, atOnce]

theorem bypOpen_taken {v : BitVec 32} (ht : s.takes via .rt = true) (hl : s.legal RT_BYP_OPEN.off v.toNat = true) :
    ∃ t, exec (.rtBypOpenWrite via v) s = .next t ∧ t.fld RT_BYP_OPEN_OPEN = s.fld RT_BYP_OPEN_OPEN ||| bitsOf v.toNat 15 0 ∧ regsBut [RT_BYP_OPEN.off] s t ∧ taken via [] s t := by
  obtain ⟨w, hw⟩ : ∃ w, s.fld RT_BYP_OPEN_OPEN ||| bitsOf v.toNat 15 0 = w := ⟨_, rfl⟩
  have hrule : ∀ d, s.applyWrite via .rt RT_BYP_OPEN.off 0x44 v.toNat d = (some stOK, s.set RT_BYP_OPEN_OPEN w) := fun d => by subst hw; rfl
  obtain ⟨hregs, htaken⟩ := pathStatus_frame (via := via) (l := []) (regsBut_set (s := s) (f := RT_BYP_OPEN_OPEN) (v := w) (l := [RT_BYP_OPEN.off]) (by decide)) (only_set _ _) (by simp)
  refine ⟨_, congrArg Host.Outcome.next (pathWrite_legal rfl hl ht (by decide) (fun d _ => hrule d) (calm_of rfl rfl)), ?_, hregs, htaken⟩
  rw [pathStatus_fld, hw]
  exact fld_set_fits (by decide) (by decide) (hw ▸ Nat.or_lt_two_pow (fld_lt s _) (Nat.mod_lt _ (by decide)))

/-! ## GLB_LOCK -/

/-- Closing the window without a cut leaves a running command alone. -/
theorem closeWindow_keepsRun (s : State) : s.closeWindow false = if s.on OTP_STATUS_WINDOW then s.set OTP_STATUS_WINDOW 0 else s := by
  unfold State.closeWindow
  cases s.on OTP_STATUS_WINDOW with
  | false => rfl
  | true =>
    rw [Bool.not_true, if_neg Bool.false_ne_true, if_pos rfl]
    dsimp only
    split <;> rfl

theorem closeWindow_frame (s : State) : only [.regs] s (s.closeWindow false) ∧ regsBut [OTP_STATUS.off] s (s.closeWindow false) ∧ (s.closeWindow false).fld OTP_STATUS_WINDOW = 0 := by
  rw [closeWindow_keepsRun]
  split
  next => exact ⟨only_set _ _, regsBut_set (by decide), fld_set_fits (by decide) (by decide) (by decide)⟩
  next h => exact ⟨only_refl _ _, regsBut_refl _ _, by simpa [State.on] using h⟩

theorem glbLock_taken (ht : s.takes via .glb = true) (hl : s.locked = false) (hready : s.ready = true) :
    ∃ t, exec (.glbLockSet via) s = .next t ∧ t.locked = true ∧ t.fld OTP_STATUS_WINDOW = 0 ∧ (t.recd.snapBusy).isSome = true
      ∧ { t.recd with snapBusy := s.recd.snapBusy } = s.recd ∧ regsBut [GLB_LOCK.off, OTP_STATUS.off] s t ∧ taken via [.recd] s t := by
  obtain ⟨hc, hcregs, hcwin⟩ := closeWindow_frame s
  generalize hcw : s.closeWindow false = c at hc hcregs hcwin
  obtain ⟨t, htd⟩ : ∃ t : State, t = { c.set GLB_LOCK_LOCK 1 with recd := { c.recd with snapBusy := some (c.set GLB_LOCK_LOCK 1).takeSnapshot } } := ⟨_, rfl⟩
  have hrule : s.lockWrite 1 = (stOK, t) := by
    rw [htd, ← hcw]
    unfold State.lockWrite
    rw [hl, hready]
    rfl
  have hregs : t.regs = (c.set GLB_LOCK_LOCK 1).regs := by rw [htd]
  have hrecd : c.recd = s.recd := hc .recd (by decide)
  have honly : only [.regs, .recd] s t := by
    rw [htd]
    exact only_trans (only_mono (by simp) hc) (only_trans (only_mono (by simp) (only_set GLB_LOCK_LOCK 1)) (only_mono (by simp) (only_recd _)))
  have hbut : regsBut [GLB_LOCK.off, OTP_STATUS.off] s t :=
    regsBut_trans (regsBut_mono (by simp) hcregs) (regsBut_trans (regsBut_set (s := c) (f := GLB_LOCK_LOCK) (v := 1) (by decide)) (regsBut_of_regs hregs))
  obtain ⟨hregs', htaken⟩ := pathStatus_frame (via := via) hbut honly (by decide)
  refine ⟨_, congrArg Host.Outcome.next (pathWrite_legal (t := t) rfl (legal_of_openWord rfl (by decide +kernel) rfl rfl hl) ht (by decide) (fun d _ => ?_)
    (calm_of (honly .pwr (by decide)) (honly .flt (by decide)))), ?_, ?_, ?_, ?_, hregs', htaken⟩
  · exact congrArg atOnce hrule
  · rw [State.locked, pathStatus_fld, fld_congr hregs, fld_set_fits (by decide) (by decide) (by decide)]
    rfl
  · rw [pathStatus_fld, fld_congr hregs, fld_set_ne _ (by decide), hcwin]
  · rw [pathStatus_eq, htd]
    rfl
  · rw [pathStatus_eq, htd]
    simp [hrecd]

/-- Settles O4: each rule takes the word, and what it does beside is a matter of the links and the switch. -/
theorem routeWrites : Obligations.RouteWrites :=
  fun _ _ _ => ⟨glbDid_taken, fun _ _ => routeEntry_taken, fun _ => rtMembers_taken, bypOpen_taken, glbLock_taken⟩

end Sys2Proof.Proofs
end

section
/-! SUPPORT. Writes of clock references (R61): a word that gives a reference back to a stack in holdover ends the holdover, and the fault collector
hears of it (R47, R400). -/

namespace Sys2Proof.Proofs

set_option Elab.async false

open Sys2Proof.Machine Sys2Proof.Laws

/-- A stack in service that has lost input A and runs in holdover, with input B qualified. -/
def inHoldover : State :=
  { State.reset with
    rails := { vaon := true, vcore := true, vstore := true, vdram := true, vpp := true, vser := true, vserh := true }
    pins := { perstN := true }
    start := { prog := 8 }
    clk := { State.reset.clk with holdover := some 1 }
    regs := (State.reset.sets [(GLB_START_STATUS_PHASE, 8), (CLK_SRC_STATUS_ACTIVE_REF, 1), (CLK_SRC_STATUS_REFB_OK, 1)]).regs }

theorem inHoldover_takes : inHoldover.takes .i3c .clk = true := by decide +kernel

/-- Both inputs on, neither preferred: a legal word. -/
theorem inHoldover_legal : inHoldover.legal CLK_REF_CFG.off (0xC : BitVec 32).toNat = true := by decide +kernel

theorem inHoldover_raised : inHoldover.reg FLT_RAISED_LO.off = 0 := by decide +kernel

/-- The write ends the holdover, which raises a fault of class C. -/
theorem refCfgWrite_inHoldover_raised : (inHoldover.pathWrite .i3c CLK_REF_CFG.off (0xC : BitVec 32).toNat).reg FLT_RAISED_LO.off = 1 := by decide +kernel

/-- Refutes O2: in holdover, an accepted write of CLK_REF_CFG with the other input qualified ends the holdover, and the fault collector takes a
fault, so FLT_RAISED_LO, which the clause says is left alone, rises. -/
theorem not_clockWrites : ¬ Obligations.ClockWrites := by
  unfold Obligations.ClockWrites
  intro h
  obtain ⟨t, ht, -, -, -, -, hregs, -⟩ := (h .i3c 0xC inHoldover inHoldover_takes).2 inHoldover_legal (by decide) (by decide) (by decide) (by decide +kernel)
    (by decide +kernel)
  obtain rfl : inHoldover.pathWrite .i3c CLK_REF_CFG.off (0xC : BitVec 32).toNat = t := Host.Outcome.next.inj ht
  have hsame := hregs FLT_RAISED_LO.off (by decide)
  rw [refCfgWrite_inHoldover_raised, inHoldover_raised] at hsame
  exact absurd hsame (by decide)

end Sys2Proof.Proofs
end

section
/-! SUPPORT. The switch (R165, R166, R173, R216): counters held as a pair, packets taken out of an ingress account, and the moves to an egress account. -/

namespace Sys2Proof.Proofs

set_option Elab.async false

open Sys2Proof.Machine Sys2Proof.Laws

variable {s t : State} {f : Fld} {off v n : Nat}

/-! ## Counters held as a pair (R466) -/

theorem reg_setReg_lt (h : v < 2 ^ 32) : (s.setReg off v).reg off = v := by
  rw [reg_setReg_same, Nat.mod_eq_of_lt h]

theorem pair_setPair_same : (s.setPair f v).pair f = v % 2 ^ 64 := by
  unfold State.pair State.setPair
  rw [reg_setReg_ne _ (by omega), reg_setReg_lt (Nat.mod_lt _ (by decide)), reg_setReg_lt (Nat.mod_lt _ (by decide))]
  omega

/-- A pair counts modulo 2^64. -/
theorem pair_incPair_same : (s.incPair f n).pair f = (s.pair f + n) % 2 ^ 64 := pair_setPair_same

theorem pair_congr (h : t.regs = s.regs) (f : Fld) : t.pair f = s.pair f := by
  rw [State.pair, State.pair, reg_congr h, reg_congr h]

theorem regsBut.pair {l : List Nat} (h : regsBut l s t) (hf : f.off ∉ l) (hf' : f.off + 4 ∉ l) : t.pair f = s.pair f := by
  rw [State.pair, State.pair, h _ hf, h _ hf']

/-- A pair counter of another place stays. -/
theorem reg_incPair_ne {o : Nat} (h : o ≠ f.off) (h' : o ≠ f.off + 4) : (s.incPair f n).reg o = s.reg o := by
  rw [State.incPair, State.setPair, reg_setReg_ne _ h', reg_setReg_ne _ h]

theorem fld_incPair_ne {g : Fld} (h : g.off ≠ f.off) (h' : g.off ≠ f.off + 4) : (s.incPair f n).fld g = s.fld g := by
  rw [State.fld, State.fld, reg_incPair_ne h h']

/-! ## Packets that join an egress account or leave an ingress account -/

/-- A packet that joins an egress account stands last there; cells that hold it already go on holding it. -/
theorem addOut_holds (s : State) (x : OutPkt) :
    ∃ held k, (x.held ≠ [] → held = x.held) ∧ s.addOut x = { s with sw := { s.sw with egress := s.sw.egress ++ [{ x with held := held }], placed := k } } := by
  cases hx : x.held with
  | nil =>
    obtain ⟨held, k, h⟩ := addOut_eq s x
    exact ⟨held, k, by simp, h⟩
  | cons a as =>
    refine ⟨x.held, s.sw.placed, by simp [hx], ?_⟩
    unfold State.addOut
    simp [hx]

theorem freeIn_only (i : InPkt) : ∃ x, s.freeIn i = { s with links := x } := by
  unfold State.freeIn
  split
  · exact ⟨_, rfl⟩
  · exact ⟨s.links, rfl⟩

/-- Taking a packet out of the switch leaves the other packets of the accounts where they are. -/
theorem takeIn_eq {k : Nat} (hk : k < s.sw.ingress.length) :
    ∃ x b, s.takeIn k = { s with links := x, sw := { s.sw with ingress := ldrop s.sw.ingress k, backpress := b } } := by
  obtain ⟨i, hi⟩ : ∃ i, s.sw.ingress[k]? = some i := ⟨_, List.getElem?_eq_getElem hk⟩
  obtain ⟨x, hx⟩ := freeIn_only (s := { s with sw := { s.sw with ingress := ldrop s.sw.ingress k } }) i
  simp only [State.takeIn, hi, hx, State.when]
  split
  · exact ⟨x, _, rfl⟩
  · exact ⟨x, s.sw.backpress, rfl⟩

/-! ## Waits and moves -/

theorem execLinkWaitExpiry_waiting {ix : Nat} {o : OutPkt} (ho : s.sw.egress[ix]? = some o) (hw : o.waiting ≠ none) :
    execLinkWaitExpiry ix s = .next (({ s with sw := { s.sw with egress := ldrop s.sw.egress ix } } : State).waitEnds o) := by
  have hw : o.waiting.isNone = false := Option.isNone_eq_false_iff.2 (Option.isSome_iff_ne_none.2 hw)
  simp [execLinkWaitExpiry, ho, hw]

theorem waitEnds_send {o : OutPkt} {port : Nat} {q : Packet} {en : Bool} (hr : s.route o.pkt o.inPort = .send port q en) :
    s.waitEnds o = s.addOut { o with port := port, vc := q.hdr.vc, pkt := q, waiting := none, enters := en } := by
  simp [State.waitEnds, hr]

theorem waitEnds_wait {o : OutPkt} {port : Nat} (hr : s.route o.pkt o.inPort = .wait port) :
    s.waitEnds o = s.failPacket o.pkt stUNREACH RT_WAIT_EXPIRED := by
  simp [State.waitEnds, hr]

/-- A failed request that nobody awaits is counted twice, a failed response once (R165, R192, R199). -/
theorem failPacket_unexpected {p : Packet} {st : BitVec 8} {c : Fld} (h : p.hdr.expects = false) :
    s.failPacket p st c = (s.inc RT_DROP).when p.hdr.isReq fun x => x.inc c := by
  simp [State.failPacket, h]

theorem failPacket_expected {p : Packet} {st : BitVec 8} {c : Fld} (h : p.hdr.expects = true) :
    s.failPacket p st c = (s.inc c).emitRsp (mkRsp s.eid p.hdr st 0 []) := by
  simp [State.failPacket, h]

theorem drop_waitExpired : RT_DROP.off ≠ RT_WAIT_EXPIRED.off := by decide

/-- Of a packet that waited, moved by a new route, the rest stands as it was. -/
theorem waitEnds_sent {o : OutPkt} {port : Nat} {q : Packet} {en : Bool} (hr : s.route o.pkt o.inPort = .send port q en) :
    ∃ held, (o.held ≠ [] → held = o.held)
      ∧ (s.waitEnds o).sw = { s.sw with egress := s.sw.egress ++ [{ o with port := port, vc := q.hdr.vc, pkt := q, waiting := none, enters := en, held := held }], placed := (s.waitEnds o).sw.placed }
      ∧ only [.sw] s (s.waitEnds o) := by
  rw [waitEnds_send hr]
  obtain ⟨held, k, hheld, h⟩ := addOut_holds s { o with port := port, vc := q.hdr.vc, pkt := q, waiting := none, enters := en }
  rw [h]
  exact ⟨held, hheld, rfl, only_sw _⟩

theorem failPacket_unexpected_counts {p : Packet} {st : BitVec 8} (h : p.hdr.expects = false) :
    (s.failPacket p st RT_WAIT_EXPIRED).sw = s.sw ∧ (s.failPacket p st RT_WAIT_EXPIRED).fld RT_DROP = (s.fld RT_DROP + 1) % 2 ^ 32
      ∧ (s.failPacket p st RT_WAIT_EXPIRED).fld RT_WAIT_EXPIRED = (s.fld RT_WAIT_EXPIRED + b2n p.hdr.isReq) % 2 ^ 32
      ∧ regsBut [RT_DROP.off, RT_WAIT_EXPIRED.off] s (s.failPacket p st RT_WAIT_EXPIRED) ∧ only [.sw, .regs] s (s.failPacket p st RT_WAIT_EXPIRED) := by
  rw [failPacket_unexpected h]
  cases p.hdr.isReq with
  | false =>
    refine ⟨rfl, fld_inc_same (by decide) (by decide), ?_, regsBut_inc (by simp), only_mono (by simp) only_inc⟩
    show (s.inc RT_DROP).fld RT_WAIT_EXPIRED = (s.fld RT_WAIT_EXPIRED + 0) % 2 ^ 32
    rw [fld_inc_ne drop_waitExpired.symm, Nat.add_zero]
    exact (Nat.mod_eq_of_lt (fld_lt s RT_WAIT_EXPIRED)).symm
  | true =>
    refine ⟨rfl, ?_, ?_, regsBut_trans (regsBut_inc (by simp)) (regsBut_inc (by simp)), only_mono (by simp) (only_trans only_inc only_inc)⟩
    · exact (fld_inc_ne drop_waitExpired).trans (fld_inc_same (by decide) (by decide))
    · exact (fld_inc_same (by decide) (by decide)).trans (by rw [fld_inc_ne drop_waitExpired.symm]; rfl)

theorem failPacket_expected_counts {p : Packet} {st : BitVec 8} (h : p.hdr.expects = true) :
    (s.failPacket p st RT_WAIT_EXPIRED).fld RT_WAIT_EXPIRED = (s.fld RT_WAIT_EXPIRED + 1) % 2 ^ 32 ∧ only [.sw, .regs] s (s.failPacket p st RT_WAIT_EXPIRED) := by
  rw [failPacket_expected h]
  obtain ⟨honly, hregs⟩ := emitRsp_frame (s.inc RT_WAIT_EXPIRED) (mkRsp s.eid p.hdr st 0 [])
  exact ⟨(regsBut.fld hregs (by simpa using drop_waitExpired.symm)).trans (fld_inc_same (by decide) (by decide)), only_trans (only_mono (by simp) only_inc) honly⟩

section Move

variable {i : InPkt} {rest : List InPkt} {port : BitVec 5} {vc : BitVec 3} {out : Nat} {q : Packet} {en : Bool}
variable (hin : s.sw.ingress = i :: rest) (hbad : i.bad = false) (hport : i.port = port.toNat) (hroute : s.route i.pkt i.arrival = .send out q en)
  (hroom : s.egrRoom out q.hdr.vc i.cells = true)

include hin hbad hport hroute hroom

/-- The first packet of the switch goes to its output where there is room (R216). -/
theorem tryMove_head : ∃ held k x b, (i.held ≠ [] → held = i.held)
    ∧ s.tryMove 0 = ({ s with links := x, sw := { s.sw with ingress := rest, backpress := b, placed := k, egress := s.sw.egress
        ++ [{ inPort := some port.toNat, port := out, vc := q.hdr.vc, pkt := q, cells := i.cells, at_ := i.at_, waiting := none, enters := en, held := held }] } } : State).incPair RT_TRANSIT_LO 1 := by
  have hlt : port.toNat ≠ ownPort := by have := port.isLt; unfold ownPort; omega
  have harr : i.arrival = some port.toNat := by rw [InPkt.arrival, hport, if_neg hlt]
  rw [harr] at hroute
  obtain ⟨x, b, htake⟩ := takeIn_eq (s := s) (k := 0) (by simp [hin])
  obtain ⟨held, k, hheld, hadd⟩ := addOut_holds (s.takeIn 0)
    { inPort := some port.toNat, port := out, vc := q.hdr.vc, pkt := q, cells := i.cells, held := i.held, at_ := i.at_, waiting := none, enters := en }
  refine ⟨held, k, x, b, hheld, ?_⟩
  have hahead : s.blockedAhead 0 out i = false := by simp [State.blockedAhead]
  have hrest : ldrop s.sw.ingress 0 = rest := by simp [hin, ldrop]
  simp only [State.tryMove, hin, List.getElem?_cons_zero, hbad, harr, hroute, hahead, hroom, hadd, hport, hlt, if_false, Bool.false_eq_true, Bool.not_true, Bool.or_self]
  rw [htake, hrest]

theorem execEgressMove_head (hlive : s.live = true) (hfab : s.fabOn = true) (hvc : i.vc = vc.toNat) : execEgressMove port vc s = .next (s.tryMove 0) := by
  obtain ⟨held, k, x, b, -, hmove⟩ := tryMove_head hin hbad hport hroute hroom
  have hmoves : decide ((s.tryMove 0).sw.ingress.length < s.sw.ingress.length) = true := by rw [hmove, hin]; simp
  have hne : (Route.send out q en != .here) = true := by simp
  unfold execEgressMove
  simp only [hlive, hfab, Bool.not_true, Bool.or_self, Bool.false_eq_true, if_false]
  rw [hin, List.length_cons, List.range_succ_eq_map, List.filter_cons_of_pos (by simp [hport, hvc, hroute])]
  simp only [List.head?_cons]
  rw [← List.length_cons (a := i), ← hin]
  simp only [hmoves, if_true, List.find?_cons]

end Move

/-- Settles O26, by the four rules of a packet that is routed anew, fails or moves. -/
theorem switchCommands : Obligations.SwitchCommands := by
  unfold Obligations.SwitchCommands
  refine ⟨fun ix o s ho hw => ⟨?_, ?_, ?_⟩, fun port vc i rest out q en s hlive hfab hbad hin hport hvc hroute hroom => ?_, fun n s hn => ?_⟩
  · intro port q en hr
    obtain ⟨held, hheld, hsw, honly⟩ := waitEnds_sent hr
    exact ⟨_, held, execLinkWaitExpiry_waiting ho hw, hheld, hsw, only_trans (only_sw _) honly⟩
  · intro port hr hexp
    obtain ⟨hsw, hdrop, hexpired, hregs, honly⟩ := failPacket_unexpected_counts (s := { s with sw := { s.sw with egress := ldrop s.sw.egress ix } }) (st := stUNREACH) hexp
    rw [← waitEnds_wait hr] at hsw hdrop hexpired hregs honly
    exact ⟨_, execLinkWaitExpiry_waiting ho hw, hsw, hdrop, hexpired, hregs, only_trans (only_mono (by simp) (only_sw _)) honly⟩
  · intro port hr hexp
    obtain ⟨hexpired, honly⟩ := failPacket_expected_counts (s := { s with sw := { s.sw with egress := ldrop s.sw.egress ix } }) (st := stUNREACH) hexp
    rw [← waitEnds_wait hr] at hexpired honly
    exact ⟨_, execLinkWaitExpiry_waiting ho hw, hexpired, only_trans (only_mono (by simp) (only_sw _)) honly⟩
  · obtain ⟨held, k, x, b, hheld, hmove⟩ := tryMove_head hin hbad hport hroute hroom
    refine ⟨s.tryMove 0, held, execEgressMove_head hin hbad hport hroute hroom hlive hfab hvc, ?_⟩
    rw [hmove]
    exact ⟨rfl, hheld, rfl, pair_incPair_same, regsBut_incPair (by simp) (by decide),
      only_trans (only_trans (only_mono (by simp) (only_links x)) (only_mono (by simp) (only_sw _))) (only_mono (by simp) only_incPair)⟩
  · show execSnapshotComplete s = _
    simp [execSnapshotComplete, hn]

end Sys2Proof.Proofs
end

section
/-! SUPPORT. What making a record leaves alone (R421 to R425), the OTP commands as accepted writes of OTP_CMD, and their ends (R100 to R108). -/

namespace Sys2Proof.Proofs

set_option Elab.async false

open Sys2Proof.Machine Sys2Proof.Laws

variable {s t : State} {via : Path} {r : OtpRun}

/-! ## A record comes into being -/

/-- The registers that a new record can move: the folds, and the records lost. -/
def recReg (o : Nat) : Prop := o = REC_FOLDS.off ∨ 0x6020 ≤ o ∧ o < 0x6030

theorem recReg_lost {sev : Nat} (h : sev < 4) : recReg (REC_LOST sev).off := .inr (by simp only [REC_LOST]; omega)

/-- The record displaced is of a lower severity. -/
theorem displaceAt_lower {sev i : Nat} {q : List StageItem} (h : displaceAt sev q = some i) : ∃ a, q[i]? = some (.new a) ∧ a.sev < sev := by
  have hmem := List.mem_of_getLast? h
  rw [List.mem_filter] at hmem
  obtain ⟨-, hp⟩ := hmem
  split at hp
  case h_1 a ha => exact ⟨a, ha, by simpa using hp⟩
  case h_2 => simp at hp

theorem enqueue_frame {x : EvRec} (hx : x.sev < 4) (cap n : Nat) (q : List StageItem) : Frame [.regs, .recd, .sett] recReg s (s.enqueue cap n q x).1 := by
  induction n generalizing s q with
  | zero => exact .inc (by simp) (recReg_lost hx)
  | succ n ih =>
    unfold State.enqueue
    split
    · exact .refl _ _ _
    · split
      next => exact .inc (by simp) (recReg_lost hx)
      next i hi =>
        obtain ⟨a, ha, hlow⟩ := displaceAt_lower hi
        simp only [ha]
        exact (Frame.inc (by simp) (recReg_lost (Nat.lt_trans hlow hx))).trans (ih _)

theorem recd_frame {q : Nat → Prop} (x : RecorderSt) : Frame [.regs, .recd, .sett] q s { s with recd := x } := .of_only (only_recd x) (by simp) (by simp)

theorem sett_frame {q : Nat → Prop} (x : SettSt) : Frame [.regs, .recd, .sett] q s { s with sett := x } := .of_only (only_sett x) (by simp) (by simp)

/-- A record of a severity that exists moves the recorder, the Sett's pages, and its counters. -/
theorem record_frame (typ : BitVec 8) {sev : Nat} (hsev : sev < 4) (code unit : Nat) (tail : List (BitVec 8)) :
    Frame [.regs, .recd, .sett] recReg s (s.record typ sev code unit tail) := by
  have hfold : Frame [.regs, .recd, .sett] recReg s (s.inc REC_FOLDS) := .inc (by simp) (.inl rfl)
  simp only [State.record]
  split
  · split
    · exact hfold.trans (recd_frame _)
    · exact Frame.trans (enqueue_frame hsev _ _ _) (recd_frame _)
  · split
    · exact hfold.trans (recd_frame _)
    · split
      · split
        · exact hfold.trans (recd_frame _)
        · split
          · exact hfold
          · exact (hfold.trans (sett_frame _)).trans (recd_frame _)
      · exact Frame.trans (enqueue_frame hsev _ _ _) (recd_frame _)

theorem event_frame (code : Nat) {sev : Nat} (hsev : sev < 4) (unit w0 w1 : Nat) : Frame [.regs, .recd, .sett] recReg s (s.event code sev unit w0 w1) :=
  record_frame _ hsev _ _ _

/-! ## The word of an OTP command -/

/-- Numbers in two pieces are met piece by piece. -/
theorem mul_add_and {i a b c d : Nat} (hb : b < 2 ^ i) (hd : d < 2 ^ i) : (2 ^ i * a + b) &&& (2 ^ i * c + d) = 2 ^ i * (a &&& c) + (b &&& d) := by
  refine Nat.eq_of_testBit_eq fun j => ?_
  rw [Nat.testBit_and, Nat.testBit_two_pow_mul_add _ hb, Nat.testBit_two_pow_mul_add _ hd, Nat.testBit_two_pow_mul_add _ (Nat.and_lt_two_pow b hd)]
  split <;> simp [Nat.testBit_and]

theorem otpWord_fits {op region margin bit row : Nat} (ho : op < 16) (hr : region < 16) (hm : margin < 4) (hb : bit < 128) (hw : row < 512) :
    otpWord op region margin bit row &&& 0xFFFF81FF = otpWord op region margin bit row := by
  have hsplit : otpWord op region margin bit row = 2 ^ 15 * (op * 2 ^ 13 + region * 2 ^ 9 + margin * 2 ^ 7 + bit) + row := by unfold otpWord; omega
  rw [hsplit, show 0xFFFF81FF = 2 ^ 15 * (2 ^ 17 - 1) + (2 ^ 9 - 1) by decide, mul_add_and (by omega) (by decide), Nat.and_two_pow_sub_one_of_lt_two_pow (by omega),
    Nat.and_two_pow_sub_one_of_lt_two_pow (by omega)]

theorem otpWord_fields {op region margin bit row : Nat} (ho : op < 16) (hr : region < 16) (hm : margin < 4) (hb : bit < 128) (hw : row < 512) :
    bitsOf (otpWord op region margin bit row) 31 28 = op ∧ bitsOf (otpWord op region margin bit row) 27 24 = region ∧ bitsOf (otpWord op region margin bit row) 23 22 = margin
      ∧ bitsOf (otpWord op region margin bit row) 21 15 = bit ∧ bitsOf (otpWord op region margin bit row) 8 0 = row := by
  unfold bitsOf otpWord
  refine ⟨?_, ?_, ?_, ?_, ?_⟩ <;> omega

/-- The row of OTP_CMD in the register map: every field but the reserved bits 14 to 9, and none that GLB_LOCK ends. -/
theorem descOf_OTP_CMD : ∃ d, descOf OTP_CMD.off = some d ∧ fieldMask d = 0xFFFF81FF ∧ writesNothing OTP_CMD.off d = false ∧ allRwl d = false := by
  have h : (descOf OTP_CMD.off).any (fun d => fieldMask d == 0xFFFF81FF && !writesNothing OTP_CMD.off d && !allRwl d) = true := by decide +kernel
  obtain ⟨d, hd, hp⟩ := (Option.any_eq_true _ _).1 h
  simp only [Bool.and_eq_true, beq_iff_eq, Bool.not_eq_true'] at hp
  exact ⟨d, hd, hp.1.1, hp.1.2, hp.2⟩

theorem legal_otpWord {op region margin bit row : Nat} (ho : op < 16) (ho' : 1 ≤ op ∧ op ≤ 8) (hr : region < 16) (hm : margin < 4) (hb : bit < 128) (hw : row < 512) :
    s.legal OTP_CMD.off (otpWord op region margin bit row) = true := by
  obtain ⟨d, hd, hmask, hwrites, hrwl⟩ := descOf_OTP_CMD
  have hblk : blkOf OTP_CMD.off = some (.otp, 0) := rfl
  have hlocked : lockedOut OTP_CMD.off = false := by decide
  have hop : s.rsvdValue .otp OTP_CMD.off 0 (otpWord op region margin bit row) = false := by
    simp [State.rsvdValue, (otpWord_fields ho hr hm hb hw).1, within, ho'.1, ho'.2]
  simp [State.legal, hblk, hd, hmask, otpWord_fits ho hr hm hb hw, hwrites, hrwl, hlocked, hop, State.unitGone]

/-- A write of OTP_CMD that is accepted. -/
theorem otpCmd_taken {op region margin bit row : Nat} (ho : op < 16) (ho' : 1 ≤ op ∧ op ≤ 8) (hr : region < 16) (hm : margin < 4) (hb : bit < 128) (hw : row < 512)
    (ht : s.takes via .otp = true) (hrule : s.otpWrite (otpWord op region margin bit row) = (stOK, t)) (honly : only [.regs, .fuse] s t) :
    s.pathWrite via OTP_CMD.off (otpWord op region margin bit row) = t.pathStatus via stOK :=
  pathWrite_legal (b := .otp) (o := 0) rfl (legal_otpWord ho ho' hr hm hb hw) ht (by decide) (fun d _ => by
    show atOnce (s.otpWrite (otpWord op region margin bit row)) = _
    rw [hrule]
    rfl) (calm_of (honly .pwr (by decide)) (honly .flt (by decide)))

/-! ## The end of a command -/

/-- An OTP command ends: it runs no more, and OTP_STATUS tells its result. -/
theorem otpEnd_shows {op result : Nat} (ho : op < 16) (hr : result < 256) :
    (s.otpEnd op result).fld OTP_STATUS_BUSY = 0 ∧ (s.otpEnd op result).fld OTP_STATUS_LAST_OP = op ∧ (s.otpEnd op result).fld OTP_STATUS_RESULT = result := by
  simp only [State.otpEnd, sets_cons, sets_nil]
  refine ⟨?_, ?_, fld_set_fits (by decide) (by decide) hr⟩
  · rw [fld_set_disjoint _ (by decide) (by decide) (.inl (by decide)), fld_set_disjoint _ (by decide) (by decide) (.inl (by decide))]
    exact fld_set_fits (by decide) (by decide) (by decide)
  · rw [fld_set_disjoint _ (by decide) (by decide) (.inl (by decide))]
    exact fld_set_fits (by decide) (by decide) ho

theorem otpEnd_window (s : State) (op result : Nat) : (s.otpEnd op result).fld OTP_STATUS_WINDOW = s.fld OTP_STATUS_WINDOW := by
  simp only [State.otpEnd, sets_cons, sets_nil]
  rw [fld_set_disjoint _ (by decide) (by decide) (.inl (by decide)), fld_set_disjoint _ (by decide) (by decide) (.inl (by decide)),
    fld_set_disjoint _ (by decide) (by decide) (.inr (by decide))]
  rfl

@[simp] theorem otpEnd_fuse (s : State) (op result : Nat) : (s.otpEnd op result).fuse = { s.fuse with run := none } := by simp [State.otpEnd]

theorem otpEnd_frame (s : State) (op result : Nat) : regsBut [OTP_STATUS.off] s (s.otpEnd op result) ∧ only [.fuse, .regs] s (s.otpEnd op result) :=
  ⟨regsBut_trans (t := { s with fuse := { s.fuse with run := none } }) (regsBut_of_regs rfl) (regsBut_sets (by simp; decide)),
    only_trans (only_mono (by simp) (only_fuse _)) (only_mono (by simp) (only_sets _))⟩

/-! ## The window opens and closes -/

theorem otpWrite_open (hbusy : s.fld OTP_STATUS_BUSY = 0) (hword : s.fld (OTP_DATA 0) = 0x5E7A1F05) (hok : s.progWindowOk = true) :
    s.otpWrite (otpWord 1 0 0 0 0) = (stOK, (s.set OTP_STATUS_WINDOW 1).otpEnd 1 0) := by
  have hop : bitsOf (otpWord 1 0 0 0 0) 31 28 = 1 := by decide
  simp [State.otpWrite, State.on, hop, hbusy, hword, hok]

theorem otpWrite_close (hbusy : s.fld OTP_STATUS_BUSY = 0) (hwin : s.fld OTP_STATUS_WINDOW = 1) :
    s.otpWrite (otpWord 2 0 0 0 0) = (stOK, (s.closeWindow false).otpEnd 2 0) := by
  have hop : bitsOf (otpWord 2 0 0 0 0) 31 28 = 2 := by decide
  simp [State.otpWrite, State.on, hop, hbusy, hwin]

/-- Opening or closing ends at once. -/
theorem otpEnd_taken {op : Nat} (ho : op < 16) (ho' : 1 ≤ op ∧ op ≤ 8) (ht : s.takes via .otp = true) (hrule : s.otpWrite (otpWord op 0 0 0 0) = (stOK, t.otpEnd op 0))
    (honly : only [.regs] s t) (hregs : regsBut [OTP_STATUS.off] s t) :
    ∃ u, s.pathWrite via OTP_CMD.off (otpWord op 0 0 0 0) = u ∧ u.fld OTP_STATUS_WINDOW = t.fld OTP_STATUS_WINDOW ∧ u.fld OTP_STATUS_BUSY = 0 ∧ u.fld OTP_STATUS_LAST_OP = op
      ∧ u.fld OTP_STATUS_RESULT = 0 ∧ u.fuse = { s.fuse with run := none } ∧ regsBut [OTP_STATUS.off] s u ∧ taken via [.fuse] s u := by
  obtain ⟨hregs', honly'⟩ := otpEnd_frame t op 0
  obtain ⟨hbusy, hlast, hres⟩ := otpEnd_shows (s := t) (result := 0) ho (by decide)
  have hall : only [.regs, .fuse] s (t.otpEnd op 0) := only_trans (only_mono (by simp) honly) (only_mono (by simp) honly')
  obtain ⟨hr, htaken⟩ := pathStatus_frame (via := via) (regsBut_trans hregs hregs') hall (by decide)
  refine ⟨_, otpCmd_taken ho ho' (by decide) (by decide) (by decide) (by decide) ht hrule hall, ?_, ?_, ?_, ?_, ?_, hr, htaken⟩
  · rw [pathStatus_fld, otpEnd_window]
  · rw [pathStatus_fld, hbusy]
  · rw [pathStatus_fld, hlast]
  · rw [pathStatus_fld, hres]
  · rw [pathStatus_eq]
    show (t.otpEnd op 0).fuse = _
    rw [otpEnd_fuse, show t.fuse = s.fuse from honly .fuse (by decide)]

/-! ## The other commands start -/

/-- The 128 bits that OTP_DATA holds. -/
def otpData (s : State) : Nat := s.fld (OTP_DATA 0) + 2 ^ 32 * s.fld (OTP_DATA 1) + 2 ^ 64 * s.fld (OTP_DATA 2) + 2 ^ 96 * s.fld (OTP_DATA 3)

theorem otpData_lt (s : State) : otpData s < 2 ^ 128 := by
  have hword : ∀ k, s.fld (OTP_DATA k) < 2 ^ 32 := fun k => fld_lt s _
  have h0 := hword 0
  have h1 := hword 1
  have h2 := hword 2
  have h3 := hword 3
  unfold otpData
  omega

theorem otpData_foldl (s : State) : (List.range 4).foldl (fun a k => a + s.fld (OTP_DATA k) * 2 ^ (32 * k)) 0 = otpData s := by
  rw [show List.range 4 = [0, 1, 2, 3] from rfl, List.foldl_cons, List.foldl_cons, List.foldl_cons, List.foldl_cons, List.foldl_nil, otpData]
  ring

/-- The run that a command starts. -/
def otpStarted (s : State) (op region margin bit row : Nat) : OtpRun :=
  { op := op, row := row, bit := bit, region := region, margin := margin, data := BitVec.ofNat 128 (otpData s) }

/-- A command is refused as it is accepted where the fuses are locked, which is counted. -/
def otpCounted (s : State) (early : Option Nat) : State := if early = some 2 ∨ early = some 5 then s.viol OTP_CMD.off .state else s

theorem otpWrite_starts {op region margin bit row : Nat} (ho : op < 16) (ho' : 3 ≤ op) (hr : region < 16) (hm : margin < 4) (hb : bit < 128) (hw : row < 512)
    (hbusy : s.fld OTP_STATUS_BUSY = 0) (hwin : op = 3 ∨ s.fld OTP_STATUS_WINDOW = 1) (hrun : r = { otpStarted s op region margin bit row with early := s.otpEarly (otpStarted s op region margin bit row) }) :
    s.otpWrite (otpWord op region margin bit row) = (stOK, ({ otpCounted s r.early with fuse := { (otpCounted s r.early).fuse with run := some r } } : State).set OTP_STATUS_BUSY 1) := by
  obtain ⟨h1, h2, h3, h4, h5⟩ := otpWord_fields ho hr hm hb hw
  have hopen : (op ≠ 3 && !s.on OTP_STATUS_WINDOW) = false := by
    rcases hwin with rfl | h
    · rfl
    · simp [State.on, h]
  subst hrun
  unfold State.otpWrite
  rw [if_neg (by simp [State.on, hbusy]), if_neg (by omega), if_neg (by rw [h1, hopen]; simp), if_neg (by omega)]
  rw [h1, h2, h3, h4, h5, otpData_foldl]
  rfl

theorem otpCounted_frame (s : State) (early : Option Nat) : only [.regs] s (otpCounted s early) ∧ regsBut [OTP_CNT_VIOL_STATE.off] s (otpCounted s early) := by
  unfold otpCounted
  split
  · exact ⟨only_viol, regsBut_viol (by decide)⟩
  · exact ⟨only_refl _ _, regsBut_refl _ _⟩

theorem otpStart_taken {op region margin bit row : Nat} (ho : op < 16) (ho' : 3 ≤ op ∧ op ≤ 8) (hr : region < 16) (hm : margin < 4) (hb : bit < 128) (hw : row < 512)
    (ht : s.takes via .otp = true) (hbusy : s.fld OTP_STATUS_BUSY = 0) (hwin : op = 3 ∨ s.fld OTP_STATUS_WINDOW = 1) :
    ∃ t r, Host.Outcome.next (s.pathWrite via OTP_CMD.off (otpWord op region margin bit row)) = (.next t : Out) ∧ t.fld OTP_STATUS_BUSY = 1 ∧ t.fuse.run = some r ∧ r.op = op ∧ r.row = row ∧ r.bit = bit
      ∧ r.region = region ∧ r.margin = margin ∧ r.data.toNat = otpData s
      ∧ t.fld OTP_STATUS_WINDOW = s.fld OTP_STATUS_WINDOW ∧ t.fld OTP_STATUS_LAST_OP = s.fld OTP_STATUS_LAST_OP ∧ t.fld OTP_STATUS_RESULT = s.fld OTP_STATUS_RESULT
      ∧ { t.fuse with run := s.fuse.run } = s.fuse ∧ regsBut [OTP_STATUS.off, OTP_CNT_VIOL_STATE.off] s t ∧ taken via [.fuse] s t := by
  obtain ⟨r, hrun⟩ : ∃ r, r = { otpStarted s op region margin bit row with early := s.otpEarly (otpStarted s op region margin bit row) } := ⟨_, rfl⟩
  obtain ⟨hconly, hcregs⟩ := otpCounted_frame s r.early
  have honly : only [.regs, .fuse] s (({ otpCounted s r.early with fuse := { (otpCounted s r.early).fuse with run := some r } } : State).set OTP_STATUS_BUSY 1) :=
    only_trans (only_mono (by simp) hconly) (only_trans (only_mono (by simp) (only_fuse _)) (only_mono (by simp) (only_set _ _)))
  have hregs : regsBut [OTP_STATUS.off, OTP_CNT_VIOL_STATE.off] s (({ otpCounted s r.early with fuse := { (otpCounted s r.early).fuse with run := some r } } : State).set OTP_STATUS_BUSY 1) :=
    regsBut_trans (regsBut_mono (by simp) hcregs) (regsBut_trans (t := { otpCounted s r.early with fuse := { (otpCounted s r.early).fuse with run := some r } }) (regsBut_of_regs rfl) (regsBut_set (by decide)))
  have hkept : ∀ f : Fld, f.off = OTP_STATUS.off → (OTP_STATUS_BUSY.hi < f.lo ∨ f.hi < OTP_STATUS_BUSY.lo) →
      ((({ otpCounted s r.early with fuse := { (otpCounted s r.early).fuse with run := some r } } : State).set OTP_STATUS_BUSY 1).pathStatus via stOK).fld f = s.fld f := fun f hf hd => by
    rw [pathStatus_fld, fld_set_disjoint _ (by decide) (by decide) hd]
    exact regsBut.fld hcregs (by rw [hf]; decide)
  obtain ⟨hpregs, htaken⟩ := pathStatus_frame (via := via) hregs honly (by decide)
  refine ⟨_, r, congrArg Host.Outcome.next (otpCmd_taken ho ⟨by omega, ho'.2⟩ hr hm hb hw ht (otpWrite_starts ho ho'.1 hr hm hb hw hbusy hwin hrun) honly),
    ?_, ?_, by rw [hrun]; rfl, by rw [hrun]; rfl, by rw [hrun]; rfl, by rw [hrun]; rfl, by rw [hrun]; rfl, ?_, hkept OTP_STATUS_WINDOW rfl (.inr (by decide)), hkept OTP_STATUS_LAST_OP rfl (.inr (by decide)),
    hkept OTP_STATUS_RESULT rfl (.inr (by decide)), ?_, hpregs, htaken⟩
  · rw [pathStatus_fld]
    exact fld_set_fits (by decide) (by decide) (by decide)
  · rw [pathStatus_eq]
    rfl
  · rw [hrun]
    exact Nat.mod_eq_of_lt (otpData_lt s)
  · rw [pathStatus_eq]
    show ({ (otpCounted s r.early).fuse with run := s.fuse.run } : FuseSt) = s.fuse
    rw [hconly .fuse (by decide)]

/-- Settles O1: opening and closing end at once, every other command of the list starts with its operands. -/
theorem otpCommands : Obligations.OtpCommands := by
  intro via s ht hbusy
  refine ⟨fun hword hok => ?_, fun hwin => ?_, fun c op row bit region margin hc => ?_⟩
  · obtain ⟨u, hu, hwin, hrest⟩ := otpEnd_taken (t := s.set OTP_STATUS_WINDOW 1) (by decide) (by decide) ht (otpWrite_open hbusy hword hok) (only_set _ _) (regsBut_set (by decide))
    exact ⟨u, congrArg Host.Outcome.next hu, hwin.trans (fld_set_fits (by decide) (by decide) (by decide)), hrest⟩
  · obtain ⟨honly, hregs, hclosed⟩ := closeWindow_frame s
    obtain ⟨u, hu, hw, hrest⟩ := otpEnd_taken (t := s.closeWindow false) (by decide) (by decide) ht (otpWrite_close hbusy hwin) honly hregs
    exact ⟨u, congrArg Host.Outcome.next hu, hw.trans hclosed, hrest⟩
  · rcases hc with ⟨r, m, rfl, rfl, rfl, rfl, rfl, rfl⟩ | ⟨hwin, ⟨r, rfl, rfl, rfl, rfl, rfl, rfl⟩ | ⟨r, b, rfl, rfl, rfl, rfl, rfl, rfl⟩ | ⟨r, rfl, rfl, rfl, rfl, rfl, rfl⟩
      | ⟨g, rfl, rfl, rfl, rfl, rfl, rfl⟩ | ⟨g, rfl, rfl, rfl, rfl, rfl, rfl⟩⟩
    · exact otpStart_taken (by decide) (by decide) (by decide) m.isLt (by decide) r.isLt ht hbusy (.inl rfl)
    · exact otpStart_taken (by decide) (by decide) (by decide) (by decide) (by decide) r.isLt ht hbusy (.inr hwin)
    · exact otpStart_taken (by decide) (by decide) (by decide) (by decide) b.isLt r.isLt ht hbusy (.inr hwin)
    · exact otpStart_taken (by decide) (by decide) (by decide) (by decide) (by decide) r.isLt ht hbusy (.inr hwin)
    · exact otpStart_taken (by decide) (by decide) g.isLt (by decide) (by decide) (by decide) ht hbusy (.inr hwin)
    · exact otpStart_taken (by decide) (by decide) g.isLt (by decide) (by decide) (by decide) ht hbusy (.inr hwin)

/-! ## The ends of commands -/

theorem cell_blow_same (phys : Nat) (m sl lo no hi sh : BitVec 128) :
    (s.blow phys m sl lo no hi sh).cell phys = { sl := (s.cell phys).sl ||| (m &&& sl), lo := (s.cell phys).lo ||| (m &&& lo), no := (s.cell phys).no ||| (m &&& no), hi := (s.cell phys).hi ||| (m &&& hi), sh := (s.cell phys).sh ||| (m &&& sh) } := by
  rw [State.cell, State.blow]
  exact mgetD_mput_same _ _ _ _

theorem cell_blow_ne {phys q : Nat} (h : q ≠ phys) (m sl lo no hi sh : BitVec 128) : (s.blow phys m sl lo no hi sh).cell q = s.cell q := by
  rw [State.cell, State.blow]
  exact mgetD_mput_ne h _ _ _

/-- The row that SENSE_ROW reads goes to OTP_DATA, word by word. -/
theorem otpData_sets {v : Nat} (hv : v < 2 ^ 128) : otpData (s.sets ((List.range 4).map fun k => (OTP_DATA k, v / 2 ^ (32 * k) % 2 ^ 32))) = v := by
  have hr : (List.range 4).map (fun k => (OTP_DATA k, v / 2 ^ (32 * k) % 2 ^ 32))
      = [(OTP_DATA 0, v / 2 ^ 0 % 2 ^ 32), (OTP_DATA 1, v / 2 ^ 32 % 2 ^ 32), (OTP_DATA 2, v / 2 ^ 64 % 2 ^ 32), (OTP_DATA 3, v / 2 ^ 96 % 2 ^ 32)] := rfl
  rw [hr]
  unfold otpData
  simp (disch := decide) only [sets_cons, sets_nil, fld_set_ne, fld_set_same]
  simp only [OTP_DATA]
  omega

theorem otpData_congr (h : ∀ k < 4, t.reg (OTP_DATA k).off = s.reg (OTP_DATA k).off) : otpData t = otpData s := by
  have hk : ∀ k < 4, t.fld (OTP_DATA k) = s.fld (OTP_DATA k) := fun k hk => by rw [State.fld, State.fld, h k hk]
  unfold otpData
  rw [hk 0 (by decide), hk 1 (by decide), hk 2 (by decide), hk 3 (by decide)]

theorem toppedUp_fuse (s : State) (row bit result : Nat) : (s.toppedUp row bit result).fuse = s.fuse :=
  (event_frame (s := { s with sett := { s.sett with topUps := (row * 128 + bit) :: s.sett.topUps } }) 0x05 (sev := 1) (by decide) row bit result).parts .fuse (by decide)

theorem otpCmdDone_refused {sl lo no hi sh : BitVec 128} {e : Nat} (hrun : s.fuse.run = some r) (hearly : r.early = some e) :
    execOtpCmdDone sl lo no hi sh s = .next (s.otpEnd r.op e) := by
  simp [execOtpCmdDone, hrun, hearly]

theorem otpCmdDone_sense {sl lo no hi sh : BitVec 128} {v : BitVec 128} (hrun : s.fuse.run = some r) (hearly : r.early = none) (hop : r.op = 3) (hm : r.margin < 3)
    (hv : (if r.margin = 0 then (s.cell (physRow s.fuse.redir r.row)).lo else if r.margin = 1 then (s.cell (physRow s.fuse.redir r.row)).no else (s.cell (physRow s.fuse.redir r.row)).hi) = v) :
    execOtpCmdDone sl lo no hi sh s = .next ((s.sets ((List.range 4).map fun k => (OTP_DATA k, v.toNat / 2 ^ (32 * k) % 2 ^ 32))).otpEnd 3 0) := by
  have hm3 : ¬ r.margin = 3 := by omega
  have hval : (if r.margin = 0 then (s.cell (physRow s.fuse.redir r.row)).lo else if r.margin = 1 then (s.cell (physRow s.fuse.redir r.row)).no else if r.margin = 2 then (s.cell (physRow s.fuse.redir r.row)).hi
      else (s.cell (physRow s.fuse.redir r.row)).sh ||| ((s.cell (physRow s.fuse.redir r.row)).sl &&& ~~~(s.cell (physRow s.fuse.redir r.row)).sh &&& Config.freeMask s.free)) = v := by
    rw [← hv]
    split_ifs <;> first | rfl | omega
  simp only [execOtpCmdDone, hrun, hearly, hop, if_neg hm3, hval]

/-- The cells that PROGRAM_ROW or TOPUP_BIT pulses. -/
def otpMask (r : OtpRun) : BitVec 128 := if r.op = 4 then r.data else BitVec.ofNat 128 (2 ^ r.bit)

/-- PROGRAM_ROW and TOPUP_BIT end with the row blown and verified strictly; a top-up is noted in the Sett. -/
theorem otpCmdDone_blows {sl lo no hi sh : BitVec 128} {phys : Nat} (hrun : s.fuse.run = some r) (hearly : r.early = none) (hop : r.op = 4 ∨ r.op = 5) (hphys : phys = physRow s.fuse.redir r.row) :
    ∃ t : State, t.fuse = (s.blow phys (otpMask r) sl lo no hi sh).fuse
      ∧ execOtpCmdDone sl lo no hi sh s = .next (t.otpEnd r.op (if (((s.blow phys (otpMask r) sl lo no hi sh).cell phys).verifies ((s.cell phys).no ||| otpMask r)) then 0 else 1)) := by
  subst hphys
  rcases hop with h4 | h5
  · refine ⟨s.blow (physRow s.fuse.redir r.row) (otpMask r) sl lo no hi sh, rfl, ?_⟩
    simp only [execOtpCmdDone, hrun, hearly, h4, otpMask, if_true]
  · have hne : ¬ r.op = 4 := by omega
    simp only [execOtpCmdDone, hrun, hearly, h5, otpMask, if_neg (by decide : ¬ (5 : Nat) = 4)]
    exact ⟨_, toppedUp_fuse _ _ _ _, rfl⟩

theorem verifies_iff (c : FuseRow) (m : BitVec 128) : c.verifies m = true ↔ c.sh = m ∧ c.sl = m := by simp [FuseRow.verifies]

/-- Settles O21, each end by its own rule. -/
theorem otpEndings : Obligations.OtpEndings := by
  refine ⟨fun sl lo no hi sh r s hrun => ⟨fun e hearly hop he => ?_, fun hearly hop hm => ?_, fun hearly hop => ?_⟩, fun s => ?_⟩
  · obtain ⟨hbusy, hlast, hres⟩ := otpEnd_shows (s := s) hop he
    obtain ⟨hregs, honly⟩ := otpEnd_frame s r.op e
    exact ⟨_, otpCmdDone_refused hrun hearly, hbusy, hlast, hres, otpEnd_fuse s _ _, hregs, honly⟩
  · obtain ⟨v, hv⟩ : ∃ v, (if r.margin = 0 then (s.cell (physRow s.fuse.redir r.row)).lo else if r.margin = 1 then (s.cell (physRow s.fuse.redir r.row)).no else (s.cell (physRow s.fuse.redir r.row)).hi) = v := ⟨_, rfl⟩
    obtain ⟨x, hx⟩ : ∃ x, s.sets ((List.range 4).map fun k => (OTP_DATA k, v.toNat / 2 ^ (32 * k) % 2 ^ 32)) = x := ⟨_, rfl⟩
    have hxregs : regsBut [OTP_STATUS.off, (OTP_DATA 0).off, (OTP_DATA 1).off, (OTP_DATA 2).off, (OTP_DATA 3).off] s x := by
      rw [← hx]
      exact regsBut_sets (by simp only [List.range, List.range.loop, List.map_cons, List.map_nil, List.forall_mem_cons]; decide)
    have hxonly : only [.regs] s x := hx ▸ only_sets _
    obtain ⟨hbusy, hlast, hres⟩ := otpEnd_shows (s := x) (op := 3) (result := 0) (by decide) (by decide)
    obtain ⟨hregs, honly⟩ := otpEnd_frame x 3 0
    refine ⟨x.otpEnd 3 0, hx ▸ otpCmdDone_sense hrun hearly hop hm hv, hbusy, hlast, hres, ?_, ?_, regsBut_trans hxregs (regsBut_mono (by simp) hregs), only_trans (only_mono (by simp) hxonly) honly⟩
    · show otpData (x.otpEnd 3 0) = _
      rw [hv, otpData_congr (fun k hk => hregs _ (by simp only [OTP_DATA, OTP_STATUS, List.mem_singleton]; omega)), ← hx, otpData_sets v.isLt]
    · rw [otpEnd_fuse, show x.fuse = s.fuse from hxonly .fuse (by decide)]
  · obtain ⟨t, htf, hend⟩ := otpCmdDone_blows (sl := sl) (lo := lo) (no := no) (hi := hi) (sh := sh) hrun hearly hop rfl
    have hop16 : r.op < 16 := by omega
    have hcell : ∀ q, (t.otpEnd r.op (if (((s.blow (physRow s.fuse.redir r.row) (otpMask r) sl lo no hi sh).cell (physRow s.fuse.redir r.row)).verifies ((s.cell (physRow s.fuse.redir r.row)).no ||| otpMask r)) then 0 else 1)).cell q
        = (s.blow (physRow s.fuse.redir r.row) (otpMask r) sl lo no hi sh).cell q := fun q => by
      rw [State.cell, State.cell, otpEnd_fuse, htf]
      rfl
    obtain ⟨hbusy, hlast, hres⟩ := otpEnd_shows (s := t) (result := if (((s.blow (physRow s.fuse.redir r.row) (otpMask r) sl lo no hi sh).cell (physRow s.fuse.redir r.row)).verifies ((s.cell (physRow s.fuse.redir r.row)).no ||| otpMask r)) then 0 else 1) hop16 (by split <;> decide)
    refine ⟨_, hend, hbusy, hlast, ?_, (hcell _).trans (cell_blow_same _ _ _ _ _ _ _), fun q hq => (hcell q).trans (cell_blow_ne hq _ _ _ _ _ _), by rw [otpEnd_fuse]⟩
    rw [hres, cell_blow_same]
    simp only [verifies_iff]
    rfl
  · obtain ⟨honly, hregs, hclosed⟩ := closeWindow_frame s
    refine ⟨s.closeWindow false, rfl, hclosed, honly .fuse (by decide), ?_, hregs, honly⟩
    rw [closeWindow_keepsRun]
    split
    · exact fld_set_disjoint _ (by decide) (by decide) (.inl (by decide)) _
    · rfl

end Sys2Proof.Proofs
end

section
/-! SUPPORT. Register writes with a rule of their own for when they are taken (R321, R430), and the writes of the Fox and check-value blocks
(R321, R354, R361, R362). -/

namespace Sys2Proof.Proofs

set_option Elab.async false

open Sys2Proof.Machine Sys2Proof.Laws

variable {s t : State} {via : Path} {off o v u : Nat} {b : Blk}

/-! ## Legal words on an open path -/

/-- A write that the register's rule answers OK to; the block is open, or the register has a time of its own. -/
theorem pathWrite_legal_answered (hb : blkOf off = some (b, o)) (hlegal : s.legal off v = true) (hup : s.pathUp via = true)
    (hlim : via = .mreg ∨ s.pathLimited = false ∨ off = REC_SETT_ADDR.off) (hopen : ownTime off via = true ∨ s.blockOpen b = true) (hheld : s.mapHeld off = false)
    (ha : ∀ d, descOf off = some d → s.applyWrite via b off o v d = (some stOK, t)) (hc : (t.noteResult off stOK).calm = true) :
    s.pathWrite via off v = (t.noteResult off stOK).pathStatus via stOK := by
  obtain ⟨d, hd, hm, hr, hw, hl, hu⟩ := legal_desc hlegal hb
  have htime : (!ownTime off via && !s.blockOpen b) = false := by rcases hopen with h | h <;> simp [h]
  have hreg : s.regWrite via none off v = (some stOK, t.noteResult off stOK) := by
    unfold State.regWrite
    rw [hb, hd]
    simp [hm, hr, hw, hl, hu, htime, ha d hd, State.regWindow]
  have hpath : (via != Path.mreg && s.pathLimited && off != REC_SETT_ADDR.off) = false := by rcases hlim with h | h | h <;> simp [h]
  unfold State.pathWrite
  simp [hup, hheld, hpath, hreg, settle_calm, hc]

/-- A rule that answers at once, with OK. -/
theorem atOnce_ok {x : Option (BitVec 8) × State} {r : BitVec 8 × State} (hx : x = atOnce r) (hr : r = (stOK, t)) : x = (some stOK, t) := by
  rw [hx, hr]
  rfl

theorem takes_parts (ht : s.takes via b = true) :
    s.pathUp via = true ∧ (via = .mreg ∨ s.pathLimited = false) ∧ s.blockOpen b = true ∧ s.calm = true := by
  simp only [State.takes, Bool.and_eq_true, Bool.or_eq_true, beq_iff_eq, Bool.not_eq_true'] at ht
  exact ⟨ht.1.1.1, ht.1.1.2, ht.1.2, ht.2⟩

/-- The mask of a legal word's register. -/
theorem legal_mask (h : s.legal off v = true) {m : Nat} (hm : (descOf off).map fieldMask = some m) : v &&& m = v := by
  unfold State.legal at h
  split at h
  next b' o' d hb' hd =>
    simp only [Bool.and_eq_true, beq_iff_eq] at h
    rw [hd] at hm
    obtain rfl : fieldMask d = m := by simpa using hm
    exact h.1.1.1.1
  next => simp at h

theorem le_one_of_mask (h : v &&& 1 = v) : v ≤ 1 := h ▸ Nat.and_le_right

/-- What a write that was taken changes, said at the register's rule. -/
theorem pathWrite_rule {l : List Part} {offs : List Nat} (hb : blkOf off = some (b, o)) (hlegal : s.legal off v = true) (hup : s.pathUp via = true)
    (hlim : via = .mreg ∨ s.pathLimited = false) (hopen : ownTime off via = true ∨ s.blockOpen b = true) (hcalm : s.calm = true)
    (hn : off ≠ FLT_ACK.off ∧ off ≠ FLT_INJ.off ∧ off ≠ GLB_MEM_CFG.off) (ha : ∀ d, s.applyWrite via b off o v d = (some stOK, t))
    (honly : only (.regs :: l) s t) (hregs : regsBut offs s t) (hl : .acc ∉ l ∧ .pwr ∉ l ∧ .flt ∉ l) :
    s.pathWrite via off v = t.pathStatus via stOK ∧ regsBut offs s (t.pathStatus via stOK) ∧ taken via l s (t.pathStatus via stOK) := by
  obtain ⟨hacc, hpwr, hflt⟩ := hl
  have hnote : t.noteResult off stOK = t := by simp [State.noteResult, hn]
  have hc : t.calm = true := (calm_of (honly .pwr (by simp [hpwr])) (honly .flt (by simp [hflt]))).trans hcalm
  refine ⟨?_, pathStatus_frame hregs honly hacc⟩
  rw [pathWrite_legal_answered hb hlegal hup (hlim.elim .inl fun h => .inr (.inl h)) hopen (mapHeld_of_ne hn.2.2) (fun d _ => ha d) (by rw [hnote, hc]), hnote]

/-- `pathWrite_rule` for a block that takes writes. -/
theorem takes_rule {l : List Part} {offs : List Nat} (hb : blkOf off = some (b, o)) (hlegal : s.legal off v = true) (ht : s.takes via b = true)
    (hn : off ≠ FLT_ACK.off ∧ off ≠ FLT_INJ.off ∧ off ≠ GLB_MEM_CFG.off) (ha : ∀ d, s.applyWrite via b off o v d = (some stOK, t))
    (honly : only (.regs :: l) s t) (hregs : regsBut offs s t) (hl : .acc ∉ l ∧ .pwr ∉ l ∧ .flt ∉ l) :
    s.pathWrite via off v = t.pathStatus via stOK ∧ regsBut offs s (t.pathStatus via stOK) ∧ taken via l s (t.pathStatus via stOK) := by
  obtain ⟨hup, hlim, hopen, hcalm⟩ := takes_parts ht
  exact pathWrite_rule hb hlegal hup hlim (.inr hopen) hcalm hn ha honly hregs hl

/-! ## The image load of the Fox (R321) -/

theorem mget_foldl_mput (a : Nat) (bs : List (Nat × BitVec 8)) (l : List (Nat × BitVec 8)) (k : Nat) (h : ∀ e ∈ bs, k ≠ a + e.1) :
    mget (bs.foldl (fun m e => mput (a + e.1) e.2 m) l) k = mget l k := by
  induction bs generalizing l with
  | nil => rfl
  | cons e bs ih =>
    rw [List.foldl_cons, ih _ fun x hx => h x (List.mem_cons_of_mem _ hx)]
    exact mget_mput_ne (h e List.mem_cons_self) _ _

theorem leBytes_four (v : Nat) :
    enum (leBytes 4 v) = [(0, BitVec.ofNat 8 v), (1, BitVec.ofNat 8 (v / 256)), (2, BitVec.ofNat 8 (v / 256 / 256)), (3, BitVec.ofNat 8 (v / 256 / 256 / 256))] := rfl

/-- The four bytes of the word lie at the load address, and nothing else of the image moves. -/
theorem sbImage_loaded (a v : Nat) (l : List (Nat × BitVec 8)) :
    (∀ i < 4, mget ((enum (leBytes 4 v)).foldl (fun m e => mput (a + e.1) e.2 m) l) (a + i) = some (BitVec.ofNat 8 (v / 256 ^ i)))
      ∧ ∀ k, k < a ∨ a + 4 ≤ k → mget ((enum (leBytes 4 v)).foldl (fun m e => mput (a + e.1) e.2 m) l) k = mget l k := by
  rw [leBytes_four]
  refine ⟨fun i hi => ?_, fun k hk => mget_foldl_mput a _ l k (by simp; omega)⟩
  have hlast : ∀ (x y : BitVec 8) (j : Nat) (m : List (Nat × BitVec 8)), j ≠ i → mget (mput (a + i) x m) (a + i) = some x ∧ mget (mput (a + j) y m) (a + i) = mget m (a + i) :=
    fun x y j m hj => ⟨mget_mput_same _ _ _, mget_mput_ne (by omega) _ _⟩
  simp only [List.foldl_cons, List.foldl_nil]
  obtain rfl | rfl | rfl | rfl : i = 0 ∨ i = 1 ∨ i = 2 ∨ i = 3 := by omega
  · rw [mget_mput_ne (by omega), mget_mput_ne (by omega), mget_mput_ne (by omega), mget_mput_same]
    simp
  · rw [mget_mput_ne (by omega), mget_mput_ne (by omega), mget_mput_same]
    simp
  · rw [mget_mput_ne (by omega), mget_mput_same]
    simp [Nat.div_div_eq_div_mul]
  · rw [mget_mput_same]
    simp [Nat.div_div_eq_div_mul]

theorem fox_frame (x : FoxSt) (l : List Nat) : only [.regs, .fox] s { s with fox := x } ∧ regsBut l s { s with fox := x } :=
  ⟨only_mono (by simp) (only_fox x), regsBut_of_regs rfl⟩

theorem sbData_taken {w : BitVec 32} (hup : s.pathUp via = true) (hlim : via = .mreg ∨ s.pathLimited = false) (hcalm : s.calm = true) (hopen : s.sbOpen = true) (hl : s.locked = false) :
    ∃ t, exec (.foxSbDataWrite via w) s = .next t ∧ t.reg FOX_SB_ADDR.off = (s.fld FOX_SB_ADDR % 2 ^ 20 + 4) % 2 ^ 20
      ∧ (∀ i < 4, mget t.fox.sbImage (s.fld FOX_SB_ADDR % 2 ^ 20 + i) = some (BitVec.ofNat 8 (w.toNat / 256 ^ i)))
      ∧ (∀ a, a < s.fld FOX_SB_ADDR % 2 ^ 20 ∨ s.fld FOX_SB_ADDR % 2 ^ 20 + 4 ≤ a → mget t.fox.sbImage a = mget s.fox.sbImage a)
      ∧ { t.fox with sbImage := s.fox.sbImage } = s.fox ∧ regsBut [FOX_SB_ADDR.off] s t ∧ taken via [.fox] s t := by
  have hmask : (descOf FOX_SB_DATA.off).any (fun d => fieldMask d == 2 ^ 32 - 1 && !writesNothing FOX_SB_DATA.off d) = true := by decide +kernel
  have hword : openWord FOX_SB_DATA.off w.toNat = true := by
    obtain ⟨d, hd, hp⟩ := (Option.any_eq_true _ _).1 hmask
    simp only [Bool.and_eq_true, beq_iff_eq, Bool.not_eq_true'] at hp
    simp [openWord, hd, hp.1, hp.2, Nat.and_two_pow_sub_one_of_lt_two_pow w.isLt]
  have hlegal : s.legal FOX_SB_DATA.off w.toNat = true := legal_of_openWord (b := .fox) (o := 0x8014) rfl hword rfl rfl hl
  obtain ⟨a, ha⟩ : ∃ a, s.fld FOX_SB_ADDR % 2 ^ 20 = a := ⟨_, rfl⟩
  obtain ⟨x, hx⟩ : ∃ x, (enum (leBytes 4 w.toNat)).foldl (fun m e => mput (a + e.1) e.2 m) s.fox.sbImage = x := ⟨_, rfl⟩
  have hrule : s.sbDataWrite w.toNat = (stOK, ({ s with fox := { s.fox with sbImage := x } } : State).setReg FOX_SB_ADDR.off ((a + 4) % 2 ^ 20)) := by
    unfold State.sbDataWrite
    rw [if_pos hopen, ha, ← hx]
  obtain ⟨himg, hrest⟩ := sbImage_loaded a w.toNat s.fox.sbImage
  rw [hx] at himg hrest
  obtain ⟨hw, hregs, htaken⟩ := pathWrite_rule (via := via) (l := [.fox]) (offs := [FOX_SB_ADDR.off])
    (t := ({ s with fox := { s.fox with sbImage := x } } : State).setReg FOX_SB_ADDR.off ((a + 4) % 2 ^ 20)) (b := .fox) (o := 0x8014) rfl hlegal hup hlim (.inl rfl) hcalm (by decide)
    (fun d => atOnce_ok rfl hrule) (only_trans (fox_frame _ []).1 (only_mono (by simp) only_setReg)) (regsBut_trans (fox_frame _ _).2 (regsBut_setReg (by simp))) (by decide)
  rw [ha]
  refine ⟨_, congrArg Host.Outcome.next hw, ?_, ?_, ?_, ?_, hregs, htaken⟩
  · rw [pathStatus_reg, reg_setReg_lt (by omega)]
  · rw [pathStatus_eq]
    exact himg
  · rw [pathStatus_eq]
    exact hrest
  · rw [pathStatus_eq]
    rfl

theorem sbGo_taken (hup : s.pathUp via = true) (hlim : via = .mreg ∨ s.pathLimited = false) (hcalm : s.calm = true) (hopen : s.sbOpen = true) (hl : s.locked = false) :
    ∃ t, exec (.foxSbGo via) s = .next t ∧ t.fld FOX_SB_CTL_GO = 1 ∧ regsBut [FOX_SB_CTL.off] s t ∧ taken via [] s t := by
  have hlegal : s.legal FOX_SB_CTL.off 1 = true := legal_of_openWord (b := .fox) (o := 0x8018) rfl (by decide +kernel) rfl rfl hl
  have hrule : s.sbGoWrite 1 = (stOK, s.set FOX_SB_CTL_GO 1) := by
    unfold State.sbGoWrite
    rw [hopen]
    rfl
  obtain ⟨hw, hregs, htaken⟩ := pathWrite_rule (via := via) (l := []) (offs := [FOX_SB_CTL.off]) (t := s.set FOX_SB_CTL_GO 1) (b := .fox) (o := 0x8018) rfl hlegal hup hlim (.inl rfl) hcalm (by decide)
    (fun d => atOnce_ok rfl hrule) (only_set _ _) (regsBut_set (by decide)) (by decide)
  refine ⟨_, congrArg Host.Outcome.next hw, ?_, hregs, htaken⟩
  rw [pathStatus_fld]
  exact fld_set_fits (by decide) (by decide) (by decide)

/-! ## ENABLE of an engine (R354) -/

theorem foxCtl_mask (e : BitVec 5) : (descOf (FOX_CTL e.toNat).off).map fieldMask = some 1 := by
  have hall : ∀ e : Fin 32, (descOf (FOX_CTL e.val).off).map fieldMask = some 1 := by decide +kernel
  exact hall ⟨e.toNat, e.isLt⟩

theorem foxCtl_taken {e : BitVec 5} {w : BitVec 32} (ht : s.takes via .fox = true) (hlegal : s.legal (FOX_CTL e.toNat).off w.toNat = true)
    (hon : w.toNat = 1 → e.toNat < s.nEngines ∧ (s.fld (FOX_CTL_ENABLE e.toNat) = 1 ∨ s.engClocked e.toNat = true)) :
    ∃ t, exec (.foxCtlWrite via e w) s = .next t ∧ t.fld (FOX_CTL_ENABLE e.toNat) = w.toNat ∧ regsBut [(FOX_CTL e.toNat).off] s t ∧ taken via [] s t := by
  have hle := le_one_of_mask (legal_mask hlegal (foxCtl_mask e))
  have he := e.isLt
  have hrule : s.foxCtlWrite e.toNat w.toNat = (stOK, s.set (FOX_CTL_ENABLE e.toNat) (w.toNat % 2)) := by
    unfold State.foxCtlWrite
    refine if_neg ?_
    obtain h0 | h1 : w.toNat = 0 ∨ w.toNat = 1 := by omega
    · simp [h0, bitAt]
    · obtain ⟨hlt, hor⟩ := hon h1
      rcases hor with h | h <;> simp [State.on, h, Nat.not_le.mpr hlt]
  have hoff : (FOX_CTL_ENABLE e.toNat).off = (FOX_CTL e.toNat).off := rfl
  have hq : (0x400 * e.toNat) / 0x400 = e.toNat := by omega
  have hblk : blkOf (FOX_CTL e.toNat).off = some (.fox, 0x400 * e.toNat) := by
    simp only [FOX_CTL, blkOf]
    grind
  obtain ⟨hw, hregs, htaken⟩ := takes_rule (via := via) (l := []) (offs := [(FOX_CTL e.toNat).off]) (t := s.set (FOX_CTL_ENABLE e.toNat) (w.toNat % 2)) hblk hlegal ht
    (by simp only [FOX_CTL, FLT_ACK, FLT_INJ, GLB_MEM_CFG]; omega)
    (fun d => by
      have hlow : 0x400 * e.toNat < 0x8000 := by omega
      simp only [State.applyWrite, if_pos hlow, hq, hrule, atOnce])
    (only_set _ _) (regsBut_set (by simp [hoff])) (by decide)
  refine ⟨_, congrArg Host.Outcome.next hw, ?_, hregs, htaken⟩
  rw [pathStatus_fld, Nat.mod_eq_of_lt (by omega)]
  exact fld_set_fits (f := FOX_CTL_ENABLE e.toNat) (by simp [FOX_CTL_ENABLE]) (by simp [FOX_CTL_ENABLE]) (by simp [FOX_CTL_ENABLE]; omega)

/-! ## The test unit of the check-value block (R361) -/

theorem cvu_setCvu_same (u : Nat) (x : Cvu) : (s.setCvu u x).cvu u = x := mgetD_mput_same _ _ _ _

theorem cvu_setCvu_ne {k : Nat} (h : k ≠ u) (x : Cvu) : (s.setCvu u x).cvu k = s.cvu k := mgetD_mput_ne h _ _ _

@[simp] theorem pathStatus_fox (st : BitVec 8) : (s.pathStatus via st).fox = s.fox := by cases via <;> rfl

theorem cvu_pathStatus (st : BitVec 8) (k : Nat) : (s.pathStatus via st).cvu k = s.cvu k := by
  rw [pathStatus_eq]
  rfl

/-- A rule that gives the test unit a new state, and nothing else. -/
theorem testUnit_taken {x : Cvu} (hb : blkOf off = some (.cvu, o)) (hlegal : s.legal off v = true) (ht : s.takes via .cvu = true)
    (hn : off ≠ FLT_ACK.off ∧ off ≠ FLT_INJ.off ∧ off ≠ GLB_MEM_CFG.off) (ha : ∀ d, s.applyWrite via .cvu off o v d = (some stOK, s.setCvu 15 x)) :
    ∃ t, s.pathWrite via off v = t ∧ t.cvu 15 = x ∧ (∀ k, k ≠ 15 → t.cvu k = s.cvu k) ∧ regsBut [] s t ∧ taken via [.fox] s t := by
  obtain ⟨hw, hregs, htaken⟩ := takes_rule (via := via) (l := [.fox]) (offs := []) (t := s.setCvu 15 x) hb hlegal ht hn ha (fox_frame _ []).1 (fox_frame _ []).2 (by decide)
  exact ⟨_, hw, by rw [cvu_pathStatus, cvu_setCvu_same], fun k hk => by rw [cvu_pathStatus, cvu_setCvu_ne hk], hregs, htaken⟩

section Rules

variable {d : RegDesc}

theorem applyWrite_testCtl : s.applyWrite via .cvu CVU_TEST_CTL.off 0x210 v d = atOnce (s.cvuCtlWrite v) := rfl
theorem applyWrite_testData : s.applyWrite via .cvu CVU_TEST_DATA.off 0x214 v d = atOnce (s.cvuDataWrite CVU_TEST_DATA.off 4 v) := rfl
theorem applyWrite_testData1 : s.applyWrite via .cvu CVU_TEST_DATA1.off 0x218 v d = atOnce (s.cvuDataWrite CVU_TEST_DATA1.off 1 v) := rfl
theorem applyWrite_track : s.applyWrite via .cvu CVU_CKP_CTL.off 0x800 v d = atOnce (s.trackWrite v) := rfl

end Rules

theorem testStart_rule (hl : s.locked = false) (hfree : (s.cvu 15).held = false) :
    s.cvuCtlWrite 1 = (stOK, s.setCvu 15 { held := true, test := true, poly := byteAt s.testCtx 8, reg := BitVec.ofNat 64 (cvuLoad s.testCtx 0) }) := by
  have hb : bitAt 1 0 = true := by decide
  simp [State.cvuCtlWrite, hl, hfree, hb]

theorem testRelease_rule (hl : s.locked = false) (hheld : s.testHeld = true) :
    s.cvuCtlWrite 2 = (stOK, s.setCvu 15 { s.cvu 15 with held := false, test := false }) := by
  have h0 : bitAt 2 0 = false := by decide
  have h1 : bitAt 2 1 = true := by decide
  simp [State.cvuCtlWrite, hl, hheld, h0, h1, State.releaseCvu]

theorem testData_rule (hl : s.locked = false) (hheld : s.testHeld = true) (off n v : Nat) :
    s.cvuDataWrite off n v = (stOK, s.setCvu 15 { s.cvu 15 with reg := BitVec.ofNat 64 (cvuFeedAll (s.cvu 15).poly (s.cvu 15).reg.toNat (leBytes n v)) }) := by
  simp [State.cvuDataWrite, hl, hheld, State.feedCvu]

/-- Every word up to a mask of low bits is open. -/
theorem openWord_low {n : Nat} (h : (descOf off).any (fun d => fieldMask d == 2 ^ n - 1 && !writesNothing off d) = true) (hv : v < 2 ^ n) : openWord off v = true := by
  obtain ⟨d, hd, hp⟩ := (Option.any_eq_true _ _).1 h
  simp only [Bool.and_eq_true, beq_iff_eq, Bool.not_eq_true'] at hp
  simp [openWord, hd, hp.1, hp.2, Nat.and_two_pow_sub_one_of_lt_two_pow hv]

theorem cvuTest_taken {w : BitVec 32} (ht : s.takes via .cvu = true) (hl : s.locked = false) :
    ((s.cvu 15).held = false → ctxOk s.testCtx false = true →
        ∃ t, exec (.cvuTestStart via) s = .next t ∧ (t.cvu 15).held = true ∧ (t.cvu 15).test = true ∧ (t.cvu 15).poly = byteAt s.testCtx 8
          ∧ (t.cvu 15).reg = BitVec.ofNat 64 (cvuLoad s.testCtx 0) ∧ (∀ u, u ≠ 15 → t.cvu u = s.cvu u) ∧ regsBut [] s t ∧ taken via [.fox] s t)
      ∧ (s.testHeld = true →
        (∃ t, exec (.cvuTestRelease via) s = .next t ∧ (t.cvu 15) = { s.cvu 15 with held := false, test := false } ∧ (∀ u, u ≠ 15 → t.cvu u = s.cvu u) ∧ regsBut [] s t ∧ taken via [.fox] s t)
        ∧ (∃ t, exec (.cvuTestDataWrite via w) s = .next t ∧ (t.cvu 15) = { s.cvu 15 with reg := BitVec.ofNat 64 (cvuFeedAll (s.cvu 15).poly (s.cvu 15).reg.toNat (leBytes 4 w.toNat)) }
          ∧ (∀ u, u ≠ 15 → t.cvu u = s.cvu u) ∧ regsBut [] s t ∧ taken via [.fox] s t)
        ∧ (w.toNat < 256 → ∃ t, exec (.cvuTestData1Write via w) s = .next t
          ∧ (t.cvu 15) = { s.cvu 15 with reg := BitVec.ofNat 64 (cvuFeedAll (s.cvu 15).poly (s.cvu 15).reg.toNat [BitVec.ofNat 8 w.toNat]) }
          ∧ (∀ u, u ≠ 15 → t.cvu u = s.cvu u) ∧ regsBut [] s t ∧ taken via [.fox] s t)) := by
  refine ⟨fun hfree hctx => ?_, fun hheld => ⟨?_, ?_, fun hw8 => ?_⟩⟩
  · have hrsvd : s.rsvdValue .cvu CVU_TEST_CTL.off 0x210 1 = false := by
      show (0x210 == 0x210 && ((1 : Nat) % 4 == 3 || (bitAt 1 0 && !ctxOk s.testCtx false))) = false
      rw [hctx]
      rfl
    obtain ⟨t, hw, h15, hrest⟩ := testUnit_taken (off := CVU_TEST_CTL.off) (o := 0x210) (v := 1) rfl (legal_of_openWord rfl (by decide +kernel) hrsvd rfl hl) ht (by decide)
      (fun d => atOnce_ok applyWrite_testCtl (testStart_rule hl hfree))
    exact ⟨t, congrArg Host.Outcome.next hw, by rw [h15], by rw [h15], by rw [h15], by rw [h15], hrest⟩
  · obtain ⟨t, hw, h15, hrest⟩ := testUnit_taken (off := CVU_TEST_CTL.off) (o := 0x210) (v := 2) rfl (legal_of_openWord rfl (by decide +kernel) (by simp [State.rsvdValue, bitAt]) rfl hl) ht (by decide)
      (fun d => atOnce_ok applyWrite_testCtl (testRelease_rule hl hheld))
    exact ⟨t, congrArg Host.Outcome.next hw, h15, hrest⟩
  · obtain ⟨t, hw, h15, hrest⟩ := testUnit_taken (off := CVU_TEST_DATA.off) (o := 0x214) (v := w.toNat) rfl
      (legal_of_openWord rfl (openWord_low (n := 32) (by decide +kernel) w.isLt) (by simp [State.rsvdValue, CVU_TEST_DATA]) rfl hl) ht (by decide) (fun d => atOnce_ok applyWrite_testData (testData_rule hl hheld CVU_TEST_DATA.off 4 w.toNat))
    exact ⟨t, congrArg Host.Outcome.next hw, h15, hrest⟩
  · obtain ⟨t, hw, h15, hrest⟩ := testUnit_taken (off := CVU_TEST_DATA1.off) (o := 0x218) (v := w.toNat) rfl
      (legal_of_openWord rfl (openWord_low (n := 8) (by decide +kernel) hw8) (by simp [State.rsvdValue, CVU_TEST_DATA1]) rfl hl) ht (by decide) (fun d => atOnce_ok applyWrite_testData1 (testData_rule hl hheld CVU_TEST_DATA1.off 1 w.toNat))
    exact ⟨t, congrArg Host.Outcome.next hw, h15, hrest⟩

/-! ## TRACK (R362) -/

theorem trackWrite_off (s : State) : s.trackWrite 0 = (stOK, s.set CVU_CKP_CTL_TRACK 0) := rfl

theorem trackWrite_on (s : State) : s.trackWrite 1 = (stOK, { s.set CVU_CKP_CTL_TRACK 1 with fox := { s.fox with ckpActive := { base := true } } }) := rfl

theorem ckpTrack_taken {w : BitVec 32} (ht : s.takes via .cvu = true) (hlegal : s.legal CVU_CKP_CTL.off w.toNat = true) :
    ∃ t, exec (.ckpTrackWrite via w) s = .next t ∧ t.fld CVU_CKP_CTL_TRACK = w.toNat
      ∧ (w.toNat = 1 → t.fox.ckpActive = { base := true, flip := [] }) ∧ (w.toNat = 0 → t.fox = s.fox) ∧ t.fox.ckpFrozen = s.fox.ckpFrozen
      ∧ regsBut [CVU_CKP_CTL.off] s t ∧ taken via [.fox] s t := by
  have hle := le_one_of_mask (legal_mask hlegal (m := 1) (by decide +kernel))
  obtain h0 | h1 : w.toNat = 0 ∨ w.toNat = 1 := by omega
  · obtain ⟨hw, hregs, htaken⟩ := takes_rule (via := via) (l := [.fox]) (offs := [CVU_CKP_CTL.off]) (t := s.set CVU_CKP_CTL_TRACK 0) (b := .cvu) (o := 0x800) rfl hlegal ht (by decide)
      (fun d => atOnce_ok (applyWrite_track.trans (by rw [h0])) (trackWrite_off s)) (only_mono (by simp) (only_set _ _)) (regsBut_set (by decide)) (by decide)
    refine ⟨_, congrArg Host.Outcome.next hw, ?_, by omega, fun _ => ?_, ?_, hregs, htaken⟩
    · rw [pathStatus_fld, h0]
      exact fld_set_fits (by decide) (by decide) (by decide)
    · rw [pathStatus_fox]
      rfl
    · rw [pathStatus_fox]
      rfl
  · obtain ⟨u, hu⟩ : ∃ u : State, u = { s.set CVU_CKP_CTL_TRACK 1 with fox := { s.fox with ckpActive := { base := true } } } := ⟨_, rfl⟩
    have hfox : u.fox = { s.fox with ckpActive := { base := true } } := by rw [hu]
    have huregs : u.regs = (s.set CVU_CKP_CTL_TRACK 1).regs := by rw [hu]
    have huonly : only [.regs, .fox] s u := by
      rw [hu]
      exact only_trans (only_mono (by simp) (only_set _ _)) (fox_frame _ []).1
    obtain ⟨hw, hregs, htaken⟩ := takes_rule (via := via) (l := [.fox]) (offs := [CVU_CKP_CTL.off]) (t := u) (b := .cvu) (o := 0x800) rfl hlegal ht (by decide)
      (fun d => atOnce_ok (applyWrite_track.trans (by rw [h1])) (hu ▸ trackWrite_on s)) huonly (regsBut_trans (regsBut_set (by decide)) (regsBut_of_regs huregs)) (by decide)
    refine ⟨_, congrArg Host.Outcome.next hw, ?_, fun _ => ?_, by omega, ?_, hregs, htaken⟩
    · rw [pathStatus_fld, fld_congr huregs, h1]
      exact fld_set_fits (by decide) (by decide) (by decide)
    · rw [pathStatus_fox, hfox]
    · rw [pathStatus_fox, hfox]

/-- Settles O7, register by register. -/
theorem foxWrites : Obligations.FoxWrites :=
  fun _ _ _ => ⟨fun hup hlim hcalm hopen hl => ⟨sbData_taken hup hlim hcalm hopen hl, sbGo_taken hup hlim hcalm hopen hl⟩, fun _ => foxCtl_taken, cvuTest_taken, ckpTrack_taken⟩

end Sys2Proof.Proofs
end

section
/-! SUPPORT. Writes of protection, fault, recorder and thermal registers (R384, R391, R407, R408, R417, R430, R445). -/

namespace Sys2Proof.Proofs

set_option Elab.async false

open Sys2Proof.Machine Sys2Proof.Laws

variable {s t : State} {via : Path} {off o v : Nat} {b : Blk}

/-! ## Registers that are one word -/

/-- A field that is the whole register. -/
theorem fld_word {f : Fld} (hf : f.hi = 31) (hf' : f.lo = 0) : s.fld f = s.reg f.off := by
  rw [State.fld, hf, hf']
  exact bitsOf_word (reg_lt s _)

theorem reg_set_word {f : Fld} (hf : f.hi = 31) (hf' : f.lo = 0) (hv : v < 2 ^ 32) : (s.set f v).reg f.off = v := by
  rw [← fld_word hf hf']
  exact fld_set_fits (by omega) (by omega) (by rw [hf, hf']; exact hv)

/-- A word with no reserved bit, for a register that GLB_LOCK leaves alone. -/
theorem legal_unlockable (hb : blkOf off = some (b, o)) (hword : openWord off v = true) (hr : s.rsvdValue b off o v = false) (hu : s.unitGone b o = false)
    (hrwl : (descOf off).any allRwl = false) (hout : lockedOut off = false) : s.legal off v = true := by
  obtain ⟨d, hd, hp⟩ := (Option.any_eq_true _ _).1 hword
  simp only [Bool.and_eq_true, beq_iff_eq, Bool.not_eq_true'] at hp
  simp only [hd, Option.any_some] at hrwl
  simp [State.legal, hb, hd, hp.1, hp.2, hr, hu, hrwl, hout]

/-! ## Correction logs (R384) -/

theorem ceLogFree_taken (hb : blkOf off = some (b, o)) (hword : openWord off (2 ^ 31) = true) (hr : s.rsvdValue b off o (2 ^ 31) = false) (hu : s.unitGone b o = false)
    (hrwl : (descOf off).any allRwl = false) (hout : lockedOut off = false) (ht : s.takes via b = true) (hn : off ≠ FLT_ACK.off ∧ off ≠ FLT_INJ.off ∧ off ≠ GLB_MEM_CFG.off)
    (ha : ∀ d, s.applyWrite via b off o (2 ^ 31) d = atOnce (s.ceLogWrite off (2 ^ 31))) :
    s.pathWrite via off (2 ^ 31) = (s.setReg off 0).pathStatus via stOK ∧ ((s.setReg off 0).pathStatus via stOK).reg off = 0
      ∧ regsBut [off] s ((s.setReg off 0).pathStatus via stOK) ∧ taken via [] s ((s.setReg off 0).pathStatus via stOK) := by
  have hlegal : s.legal off (2 ^ 31) = true := legal_unlockable hb hword hr hu hrwl hout
  have hrule : s.ceLogWrite off (2 ^ 31) = (stOK, s.setReg off 0) := by
    have h31 : bitAt (2 ^ 31) 31 = true := by decide
    rw [State.ceLogWrite, if_pos h31]
  obtain ⟨hw, hregs, htaken⟩ := takes_rule (via := via) (l := []) (offs := [off]) (t := s.setReg off 0) hb hlegal ht hn (fun d => atOnce_ok (ha d) hrule) only_setReg
    (regsBut_setReg (by simp)) (by decide)
  exact ⟨hw, by rw [pathStatus_reg, reg_setReg_lt (by decide)], hregs, htaken⟩

theorem ceLog_chan (c : BitVec 5) (n : BitVec 4) :
    openWord (CHAN_CE_LOG c.toNat n.toNat).off (2 ^ 31) = true ∧ (descOf (CHAN_CE_LOG c.toNat n.toNat).off).any allRwl = false := by
  have hall : ∀ c : Fin 32, ∀ n : Fin 16, openWord (CHAN_CE_LOG c.val n.val).off (2 ^ 31) = true ∧ (descOf (CHAN_CE_LOG c.val n.val).off).any allRwl = false := by decide +kernel
  exact hall ⟨c.toNat, c.isLt⟩ ⟨n.toNat, n.isLt⟩

theorem ceLog_marl {n : Nat} (hn : n < 8) : openWord (MARL_CE_LOG n).off (2 ^ 31) = true ∧ (descOf (MARL_CE_LOG n).off).any allRwl = false := by
  have hall : ∀ n : Fin 8, openWord (MARL_CE_LOG n.val).off (2 ^ 31) = true ∧ (descOf (MARL_CE_LOG n.val).off).any allRwl = false := by decide +kernel
  exact hall ⟨n, hn⟩

theorem ceLogFree_chan {c : BitVec 5} {n : BitVec 4} (ht : s.takes via .chan = true) (hc : c.toNat < s.nChans) :
    ∃ t, exec (.ceLogFree via (.chan c) n) s = .next t ∧ t.reg (CHAN_CE_LOG c.toNat n.toNat).off = 0 ∧ regsBut [(CHAN_CE_LOG c.toNat n.toNat).off] s t ∧ taken via [] s t := by
  have hc32 := c.isLt
  have hn16 := n.isLt
  obtain ⟨hword, hrwl⟩ := ceLog_chan c n
  have hmod : (0x1000 * c.toNat + 0x200 + 4 * n.toNat) % 0x1000 = 0x200 + 4 * n.toNat := by omega
  have hdiv : (0x1000 * c.toNat + 0x200 + 4 * n.toNat) / 0x1000 = c.toNat := by omega
  obtain ⟨hw, h⟩ := ceLogFree_taken (s := s) (via := via) (off := (CHAN_CE_LOG c.toNat n.toNat).off) (o := 0x1000 * c.toNat + 0x200 + 4 * n.toNat) (b := .chan)
    (by simp only [CHAN_CE_LOG, blkOf]; grind) hword
    (by simp only [State.rsvdValue, hmod]; split <;> first | rfl | omega)
    (by simp [State.unitGone, hdiv, hc]) hrwl (by simp [lockedOut, CHAN_CE_LOG, GLB_START_CTL, FOX_SB_ADDR, FOX_SB_DATA, FOX_SB_CTL, QOS_COMMIT, MARL_FLUSH, CVU_TEST_CTL, CVU_TEST_DATA, CVU_TEST_DATA1]; omega) ht
    (by simp only [CHAN_CE_LOG, FLT_ACK, FLT_INJ, GLB_MEM_CFG]; omega)
    (fun d => by
      simp only [State.applyWrite, hmod]
      split
      case h_1 h => omega
      case h_2 => rw [if_pos (by omega)])
  exact ⟨_, congrArg Host.Outcome.next hw, h⟩

theorem ceLogFree_marl {n : BitVec 4} (hn : n.toNat < 8) (ht : s.takes via .marl = true) :
    ∃ t, exec (.ceLogFree via .marl n) s = .next t ∧ t.reg (MARL_CE_LOG n.toNat).off = 0 ∧ regsBut [(MARL_CE_LOG n.toNat).off] s t ∧ taken via [] s t := by
  obtain ⟨hword, hrwl⟩ := ceLog_marl hn
  obtain ⟨hw, h⟩ := ceLogFree_taken (s := s) (via := via) (off := (MARL_CE_LOG n.toNat).off) (o := 0x200 + 4 * n.toNat) (b := .marl)
    (by simp only [MARL_CE_LOG, blkOf]; grind) hword
    (by simp only [State.rsvdValue]; split <;> first | rfl | omega)
    rfl hrwl (by simp [lockedOut, MARL_CE_LOG, GLB_START_CTL, FOX_SB_ADDR, FOX_SB_DATA, FOX_SB_CTL, QOS_COMMIT, MARL_FLUSH, CVU_TEST_CTL, CVU_TEST_DATA, CVU_TEST_DATA1]; omega) ht
    (by simp only [MARL_CE_LOG, FLT_ACK, FLT_INJ, GLB_MEM_CFG]; omega)
    (fun d => by
      simp only [State.applyWrite]
      split
      case h_5 => rw [if_pos (by omega)]
      all_goals omega)
  exact ⟨_, congrArg Host.Outcome.next hw, h⟩

/-! ## The patrol (R391) -/

theorem passStarts_only (cs : List Nat) : only [.prot] s (s.each cs State.passStart) := only_each fun _ _ => only_prot _

theorem setPatrol_frame (mask : Nat) : only [.regs, .prot] s (s.setPatrol mask) ∧ regsBut [BST_BADGER_CHAN_EN.off] s (s.setPatrol mask)
    ∧ (mask < 2 ^ 32 → (s.setPatrol mask).reg BST_BADGER_CHAN_EN.off = mask) := by
  have heach := passStarts_only (s := s.set BST_BADGER_CHAN_EN mask) ((bitList 32 mask).filter fun c => !bitAt (s.fld BST_BADGER_CHAN_EN) c || s.prot.stopped.getLsbD c)
  have hregs : (s.setPatrol mask).regs = (s.set BST_BADGER_CHAN_EN mask).regs := heach .regs (by decide)
  refine ⟨only_trans (only_mono (by simp) (only_set BST_BADGER_CHAN_EN mask)) (only_trans (only_mono (by simp) heach) (only_mono (by simp) (only_prot _))),
    regsBut_trans (regsBut_set (by decide)) (regsBut_of_regs hregs), fun h => ?_⟩
  rw [reg_congr hregs]
  exact reg_set_word rfl rfl h

theorem badgerChanEn_taken {w : BitVec 32} (ht : s.takes via .bst = true) (hlegal : s.legal BST_BADGER_CHAN_EN.off w.toNat = true) (hok : s.patrolOk w.toNat = true) :
    ∃ t, exec (.badgerRegWrite via true w) s = .next t ∧ t.reg BST_BADGER_CHAN_EN.off = w.toNat ∧ regsBut [BST_BADGER_CHAN_EN.off] s t ∧ taken via [.prot] s t := by
  obtain ⟨honly, hbut, hreg⟩ := setPatrol_frame (s := s) w.toNat
  have hrule : s.badgerWrite 0x404 w.toNat = (stOK, s.setPatrol w.toNat) := by simp [State.badgerWrite, State.patrolWrite, hok]
  obtain ⟨hw, hregs, htaken⟩ := takes_rule (via := via) (l := [.prot]) (t := s.setPatrol w.toNat) (b := .bst) (o := 0x404) rfl hlegal ht (by decide) (fun d => atOnce_ok rfl hrule) honly hbut (by decide)
  exact ⟨_, congrArg Host.Outcome.next hw, by rw [pathStatus_reg, hreg w.isLt], hregs, htaken⟩

theorem badgerCfg_taken {w : BitVec 32} (ht : s.takes via .bst = true) (hlegal : s.legal BST_BADGER_CFG.off w.toNat = true) (hok : s.patrolOk (s.reg BST_BADGER_CHAN_EN.off) = true) :
    ∃ t, exec (.badgerRegWrite via false w) s = .next t ∧ t.reg BST_BADGER_CFG.off = w.toNat ∧ regsBut [BST_BADGER_CFG.off] s t ∧ taken via [] s t := by
  have hrule : s.badgerWrite 0x400 w.toNat = (stOK, s.setReg BST_BADGER_CFG.off w.toNat) := by
    rw [State.badgerWrite, if_pos rfl, fld_word rfl rfl, if_pos hok]
  obtain ⟨hw, hregs, htaken⟩ := takes_rule (via := via) (l := []) (offs := [BST_BADGER_CFG.off]) (t := s.setReg BST_BADGER_CFG.off w.toNat) (b := .bst) (o := 0x400) rfl hlegal ht (by decide)
    (fun d => atOnce_ok rfl hrule) only_setReg (regsBut_setReg (by simp)) (by decide)
  exact ⟨_, congrArg Host.Outcome.next hw, by rw [pathStatus_reg, reg_setReg_lt w.isLt], hregs, htaken⟩

/-! ## Acknowledging a fault (R407, R408) -/

theorem mem_mput {α : Type} {k : Nat} {x : α} {l : List (Nat × α)} {e : Nat × α} (h : e ∈ mput k x l) : e = (k, x) ∨ e ∈ l := by
  induction l with
  | nil => exact .inl (by simpa [mput] using h)
  | cons y l ih =>
    obtain ⟨a, z⟩ := y
    simp only [mput] at h
    split at h
    · simpa using h
    · split at h
      · rcases List.mem_cons.mp h with h | h
        · exact .inl h
        · exact .inr (List.mem_cons_of_mem _ h)
      · rcases List.mem_cons.mp h with h | h
        · exact .inr (h ▸ List.mem_cons_self)
        · exact (ih h).imp id (List.mem_cons_of_mem _)

theorem fltRec_setRec_ne {d e : Nat} (h : e ≠ d) (r : FltRec) : (s.setRec d r).fltRec e = s.fltRec e := mgetD_mput_ne h _ _ _

/-- A record that is not open at class G leaves a calm stack calm. -/
theorem calm_setRec {d : Nat} {r : FltRec} (hcalm : s.calm = true) (hr : (r.isOpen && r.cls == .g) = false) : (s.setRec d r).calm = true := by
  have hgrave : s.graveRec = false := by simp_all [State.calm]
  have hnew : (s.setRec d r).graveRec = false := by
    rw [State.graveRec, List.any_eq_false] at hgrave ⊢
    intro e he
    rcases mem_mput he with rfl | he
    · simpa using hr
    · exact hgrave e he
  have hpwr : (s.setRec d r).pwr = s.pwr := rfl
  simp only [State.calm, hnew, hpwr]
  simp_all [State.calm]

/-- On a calm stack no open record is of class G. -/
theorem cls_of_calm {d : Nat} (hcalm : s.calm = true) (ho : (s.fltRec d).isOpen = true) : (s.fltRec d).cls ≠ .g := fun hc => by
  have := graveRec_of_open ho hc
  simp_all [State.calm]

theorem ackWord_fields {d q mode : Nat} (hd : d < 256) (hq : q < 256) (hm : mode < 2) :
    bitsOf (mode * 2 ^ 16 + q * 2 ^ 8 + d) 7 0 = d ∧ bitsOf (mode * 2 ^ 16 + q * 2 ^ 8 + d) 15 8 = q ∧ bitsOf (mode * 2 ^ 16 + q * 2 ^ 8 + d) 17 16 = mode := by
  unfold bitsOf
  omega

/-- The word of an acknowledgement is legal for a domain that exists. -/
theorem legal_ack {d q mode : Nat} (hd : domListed d = true) (hd' : d < 256) (hq : q < 256) (hm : mode < 2) : s.legal FLT_ACK.off (mode * 2 ^ 16 + q * 2 ^ 8 + d) = true := by
  have hword : openWord FLT_ACK.off (mode * 2 ^ 16 + q * 2 ^ 8 + d) = true := openWord_low (n := 18) (by decide +kernel) (by omega)
  obtain ⟨hlow, -, hhigh⟩ := ackWord_fields hd' hq hm
  refine legal_unlockable (b := .flt) (o := 8) rfl hword ?_ rfl (by decide +kernel) (by decide)
  generalize mode * 2 ^ 16 + q * 2 ^ 8 + d = w at hlow hhigh
  simp [State.rsvdValue, hlow, hhigh, ackOk, hd, Nat.le_of_lt_succ hm]

theorem noteAck_shows (t : State) :
    (t.noteAck stOK).fld FLT_ACK_STATUS_VALID = 1 ∧ (t.noteAck stOK).fld FLT_ACK_STATUS_RESULT = 0 ∧ (t.noteAck stOK).fld FLT_ACK_STATUS_RESULT_SEQ = (t.fld FLT_ACK_STATUS_RESULT_SEQ + 1) % 256 := by
  simp only [State.noteAck, sets_cons, sets_nil]
  refine ⟨?_, fld_set_fits (by decide) (by decide) (by decide), ?_⟩
  · rw [fld_set_disjoint _ (by decide) (by decide) (.inl (by decide)), fld_set_disjoint _ (by decide) (by decide) (.inl (by decide))]
    exact fld_set_fits (by decide) (by decide) (by decide)
  · rw [fld_set_disjoint _ (by decide) (by decide) (.inl (by decide))]
    exact fld_set_same _ (by decide) (by decide) _

theorem noteAck_frame (t : State) : only [.regs] t (t.noteAck stOK) ∧ regsBut [FLT_ACK_STATUS.off] t (t.noteAck stOK) :=
  ⟨only_sets _, regsBut_sets (by simp; decide)⟩

/-- An acknowledgement that the collector answers OK to. -/
theorem ack_taken {d q mode : Nat} {l : List Part} (hd : domListed d = true) (hd' : d < 256) (hq : q < 256) (hm : mode < 2) (ht : s.takes via .flt = true) (hvia : s.locked = true → via ≠ .mreg)
    (hack : s.fltAck d (BitVec.ofNat 8 q) mode = (stOK, t)) (hcalm : t.calm = true) (honly : only (.regs :: l) s t) (hacc : .acc ∉ l)
    (hseq : t.fld FLT_ACK_STATUS_RESULT_SEQ = s.fld FLT_ACK_STATUS_RESULT_SEQ) :
    ∃ u, s.pathWrite via FLT_ACK.off (mode * 2 ^ 16 + q * 2 ^ 8 + d) = u ∧ u.flt = t.flt ∧ u.fld FLT_ACK_STATUS_VALID = 1 ∧ u.fld FLT_ACK_STATUS_RESULT = 0
      ∧ u.fld FLT_ACK_STATUS_RESULT_SEQ = (s.fld FLT_ACK_STATUS_RESULT_SEQ + 1) % 256 ∧ regsBut [FLT_ACK_STATUS.off] t u ∧ taken via l s u := by
  obtain ⟨hup, hlim, hopen, -⟩ := takes_parts ht
  obtain ⟨hvalid, hres, hrseq⟩ := noteAck_shows t
  obtain ⟨hnonly, hnregs⟩ := noteAck_frame t
  obtain ⟨hlow, hmid, hhigh⟩ := ackWord_fields hd' hq hm
  have hrefuse : (s.locked && via == .mreg) = false := by
    cases hl : s.locked with
    | false => rfl
    | true => simpa using hvia hl
  have hrule : s.fltAckWrite via (mode * 2 ^ 16 + q * 2 ^ 8 + d) = (stOK, t) := by
    simp only [State.fltAckWrite, hrefuse, hlow, hmid, hhigh, hack, Bool.false_eq_true, if_false, if_true]
  have hnote : t.noteResult FLT_ACK.off stOK = t.noteAck stOK := rfl
  have hw := pathWrite_legal_answered (via := via) (b := .flt) (o := 8) (t := t) rfl (legal_ack hd hd' hq hm) hup (hlim.elim .inl fun h => .inr (.inl h)) (.inr hopen) (mapHeld_of_ne (by decide))
    (fun x _ => atOnce_ok rfl hrule) (by rw [hnote, calm_of (hnonly .pwr (by decide)) (hnonly .flt (by decide)), hcalm])
  rw [hnote] at hw
  refine ⟨_, hw, ?_, by rw [pathStatus_fld, hvalid], by rw [pathStatus_fld, hres], by rw [pathStatus_fld, hrseq, hseq], regsBut_trans hnregs (regsBut_pathStatus _ _),
    taken_of_only (only_trans honly (only_mono (by simp) hnonly)) hacc⟩
  rw [pathStatus_flt]
  exact hnonly .flt (by decide)

theorem ackHold_taken {d q : BitVec 8} (ht : s.takes via .flt = true) (hvia : s.locked = true → via ≠ .mreg) (hd : domListed d.toNat = true) (ho : (s.fltRec d.toNat).isOpen = true)
    (hq : (s.fltRec d.toNat).seq = q) (hwait : (s.fltRec d.toNat).st = .wait) :
    ∃ t, exec (.fltAckHold via d q) s = .next t ∧ t.fltRec d.toNat = { s.fltRec d.toNat with st := .held, timerOn := false, timerEnd := none }
          ∧ (∀ e, e ≠ d.toNat → t.fltRec e = s.fltRec e) ∧ t.fld FLT_ACK_STATUS_VALID = 1 ∧ t.fld FLT_ACK_STATUS_RESULT = 0
          ∧ t.fld FLT_ACK_STATUS_RESULT_SEQ = (s.fld FLT_ACK_STATUS_RESULT_SEQ + 1) % 256 ∧ regsBut [FLT_ACK_STATUS.off] s t ∧ taken via [.flt] s t := by
  have hcalm := takes_calm ht
  have hack : s.fltAck d.toNat (BitVec.ofNat 8 q.toNat) 0 = (stOK, s.setRec d.toNat { s.fltRec d.toNat with st := .held, timerOn := false, timerEnd := none }) := by
    simp [State.fltAck, ho, hq, hwait]
  obtain ⟨u, hw, hflt, hvalid, hres, hseq, hregs, htaken⟩ := ack_taken (via := via) (l := [.flt]) hd d.isLt q.isLt (by decide : 0 < 2) ht hvia hack
    (calm_setRec hcalm (by simpa [ho] using cls_of_calm hcalm ho)) (only_mono (by simp) (only_flt _)) (by decide) rfl
  rw [Nat.zero_mul, Nat.zero_add] at hw
  refine ⟨u, congrArg Host.Outcome.next hw, ?_, fun e he => ?_, hvalid, hres, hseq, regsBut_trans (regsBut_of_regs rfl) hregs, htaken⟩
  · rw [State.fltRec, hflt]
    exact fltRec_setRec_same _
  · rw [State.fltRec, hflt]
    exact fltRec_setRec_ne he _

theorem fltSev_lt (k : FltClass) : fltSev k < 4 := by cases k <;> decide

theorem ackClose_taken {d q : BitVec 8} (ht : s.takes via .flt = true) (hvia : s.locked = true → via ≠ .mreg) (hd : domListed d.toNat = true) (ho : (s.fltRec d.toNat).isOpen = true)
    (hq : (s.fltRec d.toNat).seq = q) :
    ∃ t, exec (.fltAckClose via d q) s = .next t ∧ (t.fltRec d.toNat).isOpen = false ∧ (t.fltRec d.toNat).st = .closed
          ∧ (∀ e, e ≠ d.toNat → t.fltRec e = s.fltRec e) ∧ t.fld FLT_ACK_STATUS_VALID = 1 ∧ t.fld FLT_ACK_STATUS_RESULT = 0
          ∧ t.fld FLT_ACK_STATUS_RESULT_SEQ = (s.fld FLT_ACK_STATUS_RESULT_SEQ + 1) % 256 ∧ taken via [.flt, .recd, .sett] s t := by
  have hcalm := takes_calm ht
  have hcls := cls_of_calm hcalm ho
  obtain ⟨x, hx⟩ : ∃ x, s.setRec d.toNat { s.fltRec d.toNat with isOpen := false, st := .closed, timerOn := false, timerEnd := none } = x := ⟨_, rfl⟩
  have hxcalm : x.calm = true := hx ▸ calm_setRec hcalm (by simp)
  have hxonly : only [.flt] s x := hx ▸ only_flt _
  have hframe : Frame [.regs, .recd, .sett] recReg x (x.faultRec d.toNat) := record_frame 0x02 (fltSev_lt _) _ _ _
  have hack : s.fltAck d.toNat (BitVec.ofNat 8 q.toNat) 1 = (stOK, x.faultRec d.toNat) := by
    simp [State.fltAck, ho, hq, hcls, ← hx]
  obtain ⟨u, hw, hflt, hvalid, hres, hseq, -, htaken⟩ := ack_taken (via := via) (l := [.flt, .recd, .sett]) hd d.isLt q.isLt (by decide : 1 < 2) ht hvia hack
    (by rw [hframe.calm (by decide) (by decide), hxcalm]) (only_trans (only_mono (by simp) hxonly) (only_mono (by simp) hframe.parts)) (by decide)
    (by rw [hframe.fld (by unfold recReg; decide), fld_congr (hxonly .regs (by decide))])
  have hrec : ∀ e, u.fltRec e = x.fltRec e := fun e => by
    rw [State.fltRec, hflt, show (x.faultRec d.toNat).flt = x.flt from hframe.parts .flt (by decide), State.fltRec]
  rw [Nat.one_mul] at hw
  refine ⟨u, congrArg Host.Outcome.next hw, ?_, ?_, fun e he => ?_, hvalid, hres, hseq, htaken⟩
  · rw [hrec, ← hx, fltRec_setRec_same]
  · rw [hrec, ← hx, fltRec_setRec_same]
  · rw [hrec, ← hx, fltRec_setRec_ne he]

/-! ## Arming a checker (R417) -/

/-- The injection that a word of FLT_INJ asks for. -/
def injWord (v : Nat) : Option Inject :=
  if bitsOf v 23 16 = 0 then none else some { checker := bitsOf v 31 28, ue := bitAt v 27, unit := bitsOf v 5 0, remaining := bitsOf v 23 16 }

theorem fltInj_rule (hl : s.locked = false) (hunit : bitsOf v 5 0 < s.injUnits (bitsOf v 31 28)) (hen : s.on FLT_CFG_INJ_EN = true) (hnone : s.flt.inject = none) :
    s.fltInjDo v = (stOK, ({ s with flt := { s.flt with inject := injWord v } } : State).sets [(FLT_INJ_STATUS_ARMED, b2n (bitsOf v 23 16 != 0)), (FLT_INJ_STATUS_REMAINING, bitsOf v 23 16)]) := by
  unfold State.fltInjDo State.inject
  simp only [hl, hen, hnone, Nat.not_le.mpr hunit, if_false, Bool.not_true, Bool.or_self, Bool.false_eq_true]
  rfl

theorem fltInj_taken {w : BitVec 32} (ht : s.takes via .flt = true) (hlegal : s.legal FLT_INJ.off w.toNat = true) (hl : s.locked = false)
    (hunit : bitsOf w.toNat 5 0 < s.injUnits (bitsOf w.toNat 31 28)) (hen : s.on FLT_CFG_INJ_EN = true) (hnone : s.flt.inject = none) :
    ∃ t, exec (.fltInjWrite via w) s = .next t ∧ t.flt.inject = injWord w.toNat
        ∧ t.fld FLT_INJ_STATUS_REMAINING = bitsOf w.toNat 23 16 ∧ t.fld FLT_INJ_STATUS_ARMED = (if bitsOf w.toNat 23 16 = 0 then 0 else 1) ∧ t.fld FLT_INJ_STATUS_RESULT = 0
        ∧ t.flt.recs = s.flt.recs ∧ regsBut [FLT_INJ_STATUS.off] s t ∧ taken via [.flt] s t := by
  obtain ⟨hup, hlim, hopen, hcalm⟩ := takes_parts ht
  have hcount : bitsOf w.toNat 23 16 < 2 ^ 8 := Nat.mod_lt _ (by decide)
  obtain ⟨x, hx⟩ : ∃ x : State, ({ s with flt := { s.flt with inject := injWord w.toNat } } : State) = x := ⟨_, rfl⟩
  have hxflt : x.flt = { s.flt with inject := injWord w.toNat } := by rw [← hx]
  have hxonly : only [.flt] s x := hx ▸ only_flt _
  have hrule := fltInj_rule hl hunit hen hnone
  rw [hx] at hrule
  rw [sets_cons, sets_cons, sets_nil] at hrule
  obtain ⟨t, htd⟩ : ∃ t, ((x.set FLT_INJ_STATUS_ARMED (b2n (bitsOf w.toNat 23 16 != 0))).set FLT_INJ_STATUS_REMAINING (bitsOf w.toNat 23 16)).set FLT_INJ_STATUS_RESULT 0 = t := ⟨_, rfl⟩
  have hnote : ((x.set FLT_INJ_STATUS_ARMED (b2n (bitsOf w.toNat 23 16 != 0))).set FLT_INJ_STATUS_REMAINING (bitsOf w.toNat 23 16)).noteResult FLT_INJ.off stOK = t := htd
  have htonly : only [.regs] x t := htd ▸ only_trans (only_trans (only_set _ _) (only_set _ _)) (only_set _ _)
  have htregs : regsBut [FLT_INJ_STATUS.off] x t := htd ▸ regsBut_trans (regsBut_trans (regsBut_set (by decide)) (regsBut_set (by decide))) (regsBut_set (by decide))
  have hflt : t.flt = { s.flt with inject := injWord w.toNat } := (htonly .flt (by decide)).trans hxflt
  have hpwr : t.pwr = s.pwr := (htonly .pwr (by decide)).trans (hxonly .pwr (by decide))
  have htcalm : t.calm = true := by
    rw [← hcalm, State.calm, State.calm, State.graveRec, State.graveRec, hpwr, hflt]
  have hw := pathWrite_legal_answered (via := via) (b := .flt) (o := 0x40) rfl hlegal hup (hlim.elim .inl fun h => .inr (.inl h)) (.inr hopen) (mapHeld_of_ne (by decide))
    (fun d _ => atOnce_ok rfl hrule) (by rw [hnote, htcalm])
  rw [hnote] at hw
  obtain ⟨hregs, htaken⟩ := pathStatus_frame (via := via) (l := [.flt]) (regsBut_trans (t := x) (regsBut_of_regs (hxonly .regs (by decide))) htregs)
    (only_trans (only_mono (by simp) hxonly) (only_mono (by simp) htonly)) (by decide)
  refine ⟨_, congrArg Host.Outcome.next hw, ?_, ?_, ?_, ?_, ?_, hregs, htaken⟩
  · rw [pathStatus_flt, hflt]
  · rw [pathStatus_fld, ← htd, fld_set_disjoint _ (by decide) (by decide) (.inl (by decide))]
    exact fld_set_fits (by decide) (by decide) hcount
  · rw [pathStatus_fld, ← htd, fld_set_disjoint _ (by decide) (by decide) (.inl (by decide))]
    rw [fld_set_disjoint _ (by decide) (by decide) (.inl (by decide)), fld_set_same _ (by decide) (by decide)]
    by_cases h0 : bitsOf w.toNat 23 16 = 0
    · rw [h0]
      rfl
    · have hb : (bitsOf w.toNat 23 16 != 0) = true := by simpa using h0
      rw [hb, if_neg h0]
      rfl
  · rw [pathStatus_fld, ← htd]
    exact fld_set_fits (by decide) (by decide) (by decide)
  · rw [pathStatus_flt, hflt]

/-! ## The window of the Sett (R430) -/

theorem descOf_REC_SETT_ADDR : (descOf REC_SETT_ADDR.off).map (·.flds) = some [(21, 6, .rw)] := by decide +kernel

theorem recSettAddr_taken {w : BitVec 32} (hup : s.pathUp via = true) (hcalm : s.calm = true) (hlegal : s.legal REC_SETT_ADDR.off w.toNat = true) :
    ∃ t, exec (.recSettAddrWrite via w) s = .next t ∧ t.fld REC_SETT_ADDR_WINDOW = bitsOf w.toNat REC_SETT_ADDR_WINDOW.hi REC_SETT_ADDR_WINDOW.lo
        ∧ regsBut [REC_SETT_ADDR.off] s t ∧ taken via [] s t := by
  have hrule : ∀ d, descOf REC_SETT_ADDR.off = some d → s.plainWrite REC_SETT_ADDR.off w.toNat d = (stOK, s.set REC_SETT_ADDR_WINDOW (bitsOf w.toNat 21 6)) := fun d hd => by
    have hflds : d.flds = [(21, 6, .rw)] := by simpa [hd] using descOf_REC_SETT_ADDR
    rw [State.plainWrite, mergeWrite, hflds]
    rfl
  have hw := pathWrite_legal_answered (via := via) (b := .recorder) (o := 0x80) (t := s.set REC_SETT_ADDR_WINDOW (bitsOf w.toNat 21 6)) rfl hlegal hup (.inr (.inr rfl)) (.inl rfl) (mapHeld_of_ne (by decide))
    (fun d hd => atOnce_ok rfl (hrule d hd)) hcalm
  obtain ⟨hregs, htaken⟩ := pathStatus_frame (via := via) (l := []) (offs := [REC_SETT_ADDR.off]) (regsBut_set (s := s) (f := REC_SETT_ADDR_WINDOW) (v := bitsOf w.toNat 21 6) (by decide)) (only_set _ _) (by decide)
  refine ⟨_, congrArg Host.Outcome.next hw, ?_, hregs, htaken⟩
  show ((s.set REC_SETT_ADDR_WINDOW (bitsOf w.toNat 21 6)).pathStatus via stOK).fld REC_SETT_ADDR_WINDOW = _
  rw [pathStatus_fld]
  exact fld_set_fits (by decide) (by decide) (Nat.mod_lt _ (by decide))

/-! ## The thermal limits (R445) -/

theorem setLimits_frame {lim low thr : Nat} (h1 : lim < 2 ^ 32) (h2 : low < 2 ^ 32) (h3 : thr < 2 ^ 32) :
    only [.regs, .recd, .sett] s (s.setLimits lim low thr) ∧ (s.setLimits lim low thr).reg THM_LIMITS.off = lim ∧ (s.setLimits lim low thr).reg THM_LOW.off = low
      ∧ (s.setLimits lim low thr).reg THM_THROTTLE_CFG.off = thr := by
  obtain ⟨x, hx⟩ : ∃ x, ((s.set THM_LIMITS lim).set THM_LOW low).set THM_THROTTLE_CFG thr = x := ⟨_, rfl⟩
  have hxonly : only [.regs] s x := hx ▸ only_trans (only_trans (only_set _ _) (only_set _ _)) (only_set _ _)
  have hlim : x.reg THM_LIMITS.off = lim := by
    rw [← hx, reg_set_ne (f := THM_THROTTLE_CFG) _ (by decide), reg_set_ne (f := THM_LOW) _ (by decide)]
    exact reg_set_word rfl rfl h1
  have hlow : x.reg THM_LOW.off = low := by
    rw [← hx, reg_set_ne (f := THM_THROTTLE_CFG) _ (by decide)]
    exact reg_set_word rfl rfl h2
  have hthr : x.reg THM_THROTTLE_CFG.off = thr := by
    rw [← hx]
    exact reg_set_word rfl rfl h3
  have hevent : Frame [.regs, .recd, .sett] recReg x (x.event 0x25 1 0 lim thr) := event_frame _ (by decide) _ _ _
  simp only [State.setLimits, sets_cons, sets_nil, hx]
  split
  · exact ⟨only_mono (by simp) hxonly, hlim, hlow, hthr⟩
  · exact ⟨only_trans (only_mono (by simp) hxonly) hevent.parts, by rw [hevent.reg _ (by unfold recReg; decide), hlim], by rw [hevent.reg _ (by unfold recReg; decide), hlow],
      by rw [hevent.reg _ (by unfold recReg; decide), hthr]⟩

theorem thmReg_taken {k : BitVec 2} {w : BitVec 32} (hk : k.toNat < 3) (ht : s.takes via .thm = true) (hlegal : s.legal (THM_LIMITS.off + 4 * k.toNat) w.toNat = true) :
    ∃ t, exec (.thmRegWrite via k w) s = .next t ∧ t.reg (THM_LIMITS.off + 4 * k.toNat) = w.toNat
        ∧ (∀ j < 3, j ≠ k.toNat → t.reg (THM_LIMITS.off + 4 * j) = s.reg (THM_LIMITS.off + 4 * j)) ∧ taken via [.recd, .sett] s t := by
  have hlim : s.fld THM_LIMITS = s.reg THM_LIMITS.off := fld_word rfl rfl
  have hlow : s.fld THM_LOW = s.reg THM_LOW.off := fld_word rfl rfl
  have hthr : s.fld THM_THROTTLE_CFG = s.reg THM_THROTTLE_CFG.off := fld_word rfl rfl
  have hlt : ∀ o, s.reg o < 2 ^ 32 := fun o => reg_lt s o
  obtain ⟨a, b, c, hrule, habc, hk', hj⟩ : ∃ a b c, s.thmWrite (4 * k.toNat) w.toNat = (stOK, s.setLimits a b c) ∧ (a < 2 ^ 32 ∧ b < 2 ^ 32 ∧ c < 2 ^ 32)
      ∧ (∀ t : State, t.reg THM_LIMITS.off = a → t.reg THM_LOW.off = b → t.reg THM_THROTTLE_CFG.off = c → t.reg (THM_LIMITS.off + 4 * k.toNat) = w.toNat)
      ∧ (∀ t : State, t.reg THM_LIMITS.off = a → t.reg THM_LOW.off = b → t.reg THM_THROTTLE_CFG.off = c → ∀ j < 3, j ≠ k.toNat → t.reg (THM_LIMITS.off + 4 * j) = s.reg (THM_LIMITS.off + 4 * j)) := by
    have hwords : ∀ j < 3, j = 0 ∨ j = 1 ∨ j = 2 := by omega
    rw [State.thmWrite, hlim, hlow, hthr]
    rcases hwords k.toNat hk with h | h | h <;> rw [h]
    · exact ⟨_, _, _, rfl, ⟨w.isLt, hlt _, hlt _⟩, fun t h1 _ _ => h1, fun t h1 h2 h3 j hj hne => by
        rcases hwords j hj with rfl | rfl | rfl
        exacts [absurd rfl hne, h2, h3]⟩
    · exact ⟨_, _, _, rfl, ⟨hlt _, w.isLt, hlt _⟩, fun t _ h2 _ => h2, fun t h1 h2 h3 j hj hne => by
        rcases hwords j hj with rfl | rfl | rfl
        exacts [h1, absurd rfl hne, h3]⟩
    · exact ⟨_, _, _, rfl, ⟨hlt _, hlt _, w.isLt⟩, fun t _ _ h3 => h3, fun t h1 h2 h3 j hj hne => by
        rcases hwords j hj with rfl | rfl | rfl
        exacts [h1, h2, absurd rfl hne]⟩
  obtain ⟨honly, h1, h2, h3⟩ := setLimits_frame (s := s) habc.1 habc.2.1 habc.2.2
  have hblk : blkOf (THM_LIMITS.off + 4 * k.toNat) = some (.thm, 4 * k.toNat) := by
    simp only [THM_LIMITS, blkOf]
    grind
  have hw := pathWrite_legal (via := via) (t := s.setLimits a b c) hblk hlegal ht (by simp only [THM_LIMITS, FLT_ACK, FLT_INJ, GLB_MEM_CFG]; omega) (fun d _ => atOnce_ok rfl hrule)
    (calm_of (honly .pwr (by decide)) (honly .flt (by decide)))
  refine ⟨_, congrArg Host.Outcome.next hw, ?_, fun j hj3 hne => ?_, taken_of_only honly (by decide)⟩
  · rw [pathStatus_reg]
    exact hk' _ h1 h2 h3
  · rw [pathStatus_reg]
    exact hj _ h1 h2 h3 j hj3 hne

/-- Settles O8, register by register. -/
theorem serviceWrites : Obligations.ServiceWrites :=
  fun _ _ _ => ⟨fun _ _ => ceLogFree_chan, fun _ => ceLogFree_marl, badgerChanEn_taken, badgerCfg_taken,
    fun _ _ ht hvia hd ho hq => ⟨ackHold_taken ht hvia hd ho hq, ackClose_taken ht hvia hd ho hq⟩, fltInj_taken, recSettAddr_taken, fun _ => thmReg_taken⟩

end Sys2Proof.Proofs
end

section
/-! SUPPORT. Writes of a lane's PRBS control, and of a port's link settings, role, direction and credits (R131, R132, R150, R160). -/

namespace Sys2Proof.Proofs

set_option Elab.async false

open Sys2Proof.Machine Sys2Proof.Laws

variable {s t : State} {via : Path} {off o v l p : Nat}

/-! ## Where the registers lie -/

theorem blkOf_port {k : Nat} (hp : p < 32) (hk : k < 0x800) : blkOf (0x10000 + 0x800 * p + k) = some (.port, 0x800 * p + k) := by
  simp only [blkOf]
  grind

theorem blkOf_lane {k : Nat} (hl : l < 256) (hk : k < 0x400) : blkOf (0x20000 + 0x400 * l + k) = some (.lane, 0x400 * l + k) := by
  simp only [blkOf]
  grind

theorem port_index {k : Nat} (hk : k < 0x800) : (0x800 * p + k) % 0x800 = k ∧ (0x800 * p + k) / 0x800 = p := by omega

theorem port_noNote {k : Nat} : 0x10000 + 0x800 * p + k ≠ FLT_ACK.off ∧ 0x10000 + 0x800 * p + k ≠ FLT_INJ.off ∧ 0x10000 + 0x800 * p + k ≠ GLB_MEM_CFG.off := by
  simp only [FLT_ACK, FLT_INJ, GLB_MEM_CFG]
  omega

/-! ## The PRBS control of a lane (R131) -/

/-- The registers after a word of LANE_PRBS_CTL that was taken. -/
def prbsRegs (s : State) (l v : Nat) : State :=
  let t := s.sets [(LANE_PRBS_CTL_PATTERN l, bitsOf v 5 4), (LANE_PRBS_CTL_CHK_EN l, bitsOf v 1 1), (LANE_PRBS_CTL_GEN_EN l, bitsOf v 0 0),
      (LANE_PRBS_CTL_INJECT l, b2n (bitAt v 0 && (bitAt v 9 || s.on (LANE_PRBS_CTL_INJECT l))))]
  if bitAt v 1 then t else t.set (LANE_PRBS_CTL_CHK_LOCK l) 0

/-- The lane after it. -/
def prbsLane (s : State) (l v : Nat) : Lane :=
  let x := if bitAt v 1 && s.on (LANE_PRBS_CTL_CHK_EN l) then s.lane l else { s.lane l with chk := 0, chkRun := 0 }
  let x := if !s.on (LANE_PRBS_CTL_GEN_EN l) || s.fld (LANE_PRBS_CTL_PATTERN l) != bitsOf v 5 4 then { x with gen := BitVec.allOnes 31 } else x
  { x with squelch := !bitAt v 0 }

theorem prbsRegs_frame (s : State) (l v : Nat) : only [.regs] s (prbsRegs s l v) ∧ regsBut [(LANE_PRBS_CTL l).off] s (prbsRegs s l v) := by
  constructor
  · unfold prbsRegs
    dsimp only
    split
    · exact only_sets _
    · exact only_trans (only_sets _) (only_set _ _)
  · have hsets : regsBut [(LANE_PRBS_CTL l).off] s (s.sets [(LANE_PRBS_CTL_PATTERN l, bitsOf v 5 4), (LANE_PRBS_CTL_CHK_EN l, bitsOf v 1 1), (LANE_PRBS_CTL_GEN_EN l, bitsOf v 0 0),
        (LANE_PRBS_CTL_INJECT l, b2n (bitAt v 0 && (bitAt v 9 || s.on (LANE_PRBS_CTL_INJECT l))))]) :=
      regsBut_sets (by simp [LANE_PRBS_CTL_PATTERN, LANE_PRBS_CTL_CHK_EN, LANE_PRBS_CTL_GEN_EN, LANE_PRBS_CTL_INJECT, LANE_PRBS_CTL])
    unfold prbsRegs
    dsimp only
    split
    · exact hsets
    · exact regsBut_trans hsets (regsBut_set (by simp [LANE_PRBS_CTL_CHK_LOCK, LANE_PRBS_CTL]))

theorem prbsWrite_free (hfree : s.role (l / 8) = 0 ∨ s.fld (PORT_LINK_CFG_LINK_EN (l / 8)) = 0) (hgen : bitAt v 9 = true → s.on (LANE_PRBS_CTL_GEN_EN l) = true) :
    s.prbsWrite l v = (stOK, (prbsRegs s l v).setLane l (prbsLane s l v)) := by
  have hf : (s.role (l / 8) == 0 || !s.on (PORT_LINK_CFG_LINK_EN (l / 8))) = true := by
    rcases hfree with h | h <;> simp [h, State.on]
  have hg : (bitAt v 9 && !s.on (LANE_PRBS_CTL_GEN_EN l)) = false := by
    cases h9 : bitAt v 9 with
    | false => rfl
    | true => simp [hgen h9]
  have hlane : (prbsRegs s l v).lane l = s.lane l := by
    rw [State.lane, State.lane, (prbsRegs_frame s l v).1 .lanes (by decide)]
  unfold State.prbsWrite
  simp only [hf, hg, Bool.not_true, Bool.and_false, Bool.or_self, Bool.false_eq_true, if_false, if_true]
  rw [prbsLane, ← hlane]
  rfl

/-- Two fields of LANE_PRBS_CTL that do not overlap. -/
theorem prbs_set_apart {f g : Fld} {w : Nat} (hf : f.lo ≤ f.hi ∧ f.hi < 32) (h : f.hi < g.lo ∨ g.hi < f.lo) : (t.set f w).fld g = t.fld g := by
  by_cases hoff : g.off = f.off
  · exact fld_set_disjoint t hf.1 hf.2 h w
  · exact fld_set_ne t hoff w

/-- What the fields of the register read after the word. -/
theorem prbsRegs_reads (s : State) (l v : Nat) :
    (prbsRegs s l v).fld (LANE_PRBS_CTL_PATTERN l) = bitsOf v 5 4 ∧ (prbsRegs s l v).fld (LANE_PRBS_CTL_CHK_EN l) = bitsOf v 1 1 ∧ (prbsRegs s l v).fld (LANE_PRBS_CTL_GEN_EN l) = bitsOf v 0 0
      ∧ (prbsRegs s l v).fld (LANE_PRBS_CTL_INJECT l) = b2n (bitAt v 0 && (bitAt v 9 || s.on (LANE_PRBS_CTL_INJECT l)))
      ∧ (bitAt v 1 = false → (prbsRegs s l v).fld (LANE_PRBS_CTL_CHK_LOCK l) = 0) := by
  obtain ⟨i, hi⟩ : ∃ i, b2n (bitAt v 0 && (bitAt v 9 || s.on (LANE_PRBS_CTL_INJECT l))) = i := ⟨_, rfl⟩
  have hi2 : i < 2 := by
    rw [← hi]
    cases (bitAt v 0 && (bitAt v 9 || s.on (LANE_PRBS_CTL_INJECT l))) <;> decide
  have hpat : bitsOf v 5 4 < 2 ^ 2 := Nat.mod_lt _ (by decide)
  have hchk : bitsOf v 1 1 < 2 ^ 1 := Nat.mod_lt _ (by decide)
  have hgen : bitsOf v 0 0 < 2 ^ 1 := Nat.mod_lt _ (by decide)
  obtain ⟨x, hx⟩ : ∃ x, s.sets [(LANE_PRBS_CTL_PATTERN l, bitsOf v 5 4), (LANE_PRBS_CTL_CHK_EN l, bitsOf v 1 1), (LANE_PRBS_CTL_GEN_EN l, bitsOf v 0 0), (LANE_PRBS_CTL_INJECT l, i)] = x := ⟨_, rfl⟩
  have hreads : x.fld (LANE_PRBS_CTL_PATTERN l) = bitsOf v 5 4 ∧ x.fld (LANE_PRBS_CTL_CHK_EN l) = bitsOf v 1 1 ∧ x.fld (LANE_PRBS_CTL_GEN_EN l) = bitsOf v 0 0 ∧ x.fld (LANE_PRBS_CTL_INJECT l) = i := by
    rw [← hx, sets_cons, sets_cons, sets_cons, sets_cons, sets_nil]
    refine ⟨?_, ?_, ?_, fld_set_fits (by decide : 9 ≤ 9) (by decide : 9 < 32) hi2⟩
    · rw [prbs_set_apart (f := LANE_PRBS_CTL_INJECT l) (by decide : 9 ≤ 9 ∧ 9 < 32) (.inr (by decide : 5 < 9)),
        prbs_set_apart (f := LANE_PRBS_CTL_GEN_EN l) (g := LANE_PRBS_CTL_PATTERN l) (by decide : 0 ≤ 0 ∧ 0 < 32) (.inl (by decide : 0 < 4)),
        prbs_set_apart (f := LANE_PRBS_CTL_CHK_EN l) (g := LANE_PRBS_CTL_PATTERN l) (by decide : 1 ≤ 1 ∧ 1 < 32) (.inl (by decide : 1 < 4))]
      exact fld_set_fits (by decide : 4 ≤ 5) (by decide : 5 < 32) hpat
    · rw [prbs_set_apart (f := LANE_PRBS_CTL_INJECT l) (by decide : 9 ≤ 9 ∧ 9 < 32) (.inr (by decide : 1 < 9)),
        prbs_set_apart (f := LANE_PRBS_CTL_GEN_EN l) (g := LANE_PRBS_CTL_CHK_EN l) (by decide : 0 ≤ 0 ∧ 0 < 32) (.inl (by decide : 0 < 1))]
      exact fld_set_fits (by decide : 1 ≤ 1) (by decide : 1 < 32) hchk
    · rw [prbs_set_apart (f := LANE_PRBS_CTL_INJECT l) (by decide : 9 ≤ 9 ∧ 9 < 32) (.inr (by decide : 0 < 9))]
      exact fld_set_fits (by decide : 0 ≤ 0) (by decide : 0 < 32) hgen
  obtain ⟨h1, h2, h3, h4⟩ := hreads
  have hregs : prbsRegs s l v = if bitAt v 1 then x else x.set (LANE_PRBS_CTL_CHK_LOCK l) 0 := by
    rw [← hx, ← hi]
    rfl
  rw [hregs, hi]
  split
  next hon => exact ⟨h1, h2, h3, h4, fun h => by simp [hon] at h⟩
  next =>
    have hapart : ∀ g : Fld, 8 < g.lo ∨ g.hi < 8 → (x.set (LANE_PRBS_CTL_CHK_LOCK l) 0).fld g = x.fld g := fun g hg => prbs_set_apart (f := LANE_PRBS_CTL_CHK_LOCK l) (by decide : 8 ≤ 8 ∧ 8 < 32) hg
    refine ⟨(hapart _ (.inr ?_)).trans h1, (hapart _ (.inr ?_)).trans h2, (hapart _ (.inr ?_)).trans h3, (hapart _ (.inl ?_)).trans h4, fun _ => fld_set_fits (by decide : 8 ≤ 8) (by decide : 8 < 32) (by decide : 0 < 2 ^ 1)⟩
    · exact (by decide : 5 < 8)
    · exact (by decide : 1 < 8)
    · exact (by decide : 0 < 8)
    · exact (by decide : 8 < 9)

/-- A field holds one bit: it is 1 where it is on. -/
theorem b2n_eq_one {b : Bool} : b2n b = 1 ↔ b = true := by cases b <;> decide

theorem blkOf_prbs (hl : l < 256) : blkOf (LANE_PRBS_CTL l).off = some (.lane, 0x400 * l + 0x20) := by
  rw [← blkOf_lane hl (by decide)]
  congr 1
  simp only [LANE_PRBS_CTL]
  omega

theorem prbs_noNote : (LANE_PRBS_CTL l).off ≠ FLT_ACK.off ∧ (LANE_PRBS_CTL l).off ≠ FLT_INJ.off ∧ (LANE_PRBS_CTL l).off ≠ GLB_MEM_CFG.off := by
  simp only [LANE_PRBS_CTL, FLT_ACK, FLT_INJ, GLB_MEM_CFG]
  omega

theorem applyWrite_prbs (d : RegDesc) :
    s.applyWrite via .lane (LANE_PRBS_CTL l).off (0x400 * l + 0x20) v d = atOnce (if s.locked then s.injectWrite l v else s.prbsWrite l v) := by
  have h : (0x400 * l + 0x20) % 0x400 = 0x020 ∧ (0x400 * l + 0x20) / 0x400 = l := by omega
  simp only [State.applyWrite, h, if_true]

theorem lane_setLane_same (x : Lane) : (s.setLane l x).lane l = x := mgetD_mput_same _ _ _ _

theorem lane_setLane_ne {k : Nat} (h : k ≠ l) (x : Lane) : (s.setLane l x).lane k = s.lane k := mgetD_mput_ne h _ _ _

theorem lane_congr (h : t.lanes = s.lanes) (k : Nat) : t.lane k = s.lane k := by rw [State.lane, State.lane, h]

/-- A word of the PRBS control with GLB_LOCK clear, taken while the port is free. -/
theorem prbs_taken (hl : l < 256) (ht : s.takes via .lane = true) (hlegal : s.legal (LANE_PRBS_CTL l).off v = true) (hlock : s.locked = false)
    (hfree : s.role (l / 8) = 0 ∨ s.fld (PORT_LINK_CFG_LINK_EN (l / 8)) = 0) (hgen : bitAt v 9 = true → s.on (LANE_PRBS_CTL_GEN_EN l) = true) :
    ∃ t, s.pathWrite via (LANE_PRBS_CTL l).off v = t ∧ (∀ f : Fld, t.fld f = (prbsRegs s l v).fld f) ∧ t.lane l = prbsLane s l v ∧ (∀ k, k ≠ l → t.lane k = s.lane k)
      ∧ regsBut [(LANE_PRBS_CTL l).off] s t ∧ taken via [.lanes] s t := by
  obtain ⟨hp, hpr⟩ := prbsRegs_frame s l v
  have hlanes : ∀ k, (prbsRegs s l v).lane k = s.lane k := lane_congr (hp .lanes (by decide))
  obtain ⟨hw, hregs, htaken⟩ := takes_rule (via := via) (l := [.lanes]) (offs := [(LANE_PRBS_CTL l).off]) (t := (prbsRegs s l v).setLane l (prbsLane s l v)) (blkOf_prbs hl) hlegal ht
    prbs_noNote (fun d => atOnce_ok (applyWrite_prbs d) (by rw [hlock, if_neg (by decide), prbsWrite_free hfree hgen]))
    (only_trans (only_mono (by simp) hp) (only_mono (by simp) (only_setLane l _))) (regsBut_trans hpr (regsBut_of_regs rfl)) (by decide)
  have hst : ∀ k, (((prbsRegs s l v).setLane l (prbsLane s l v)).pathStatus via stOK).lane k = ((prbsRegs s l v).setLane l (prbsLane s l v)).lane k :=
    lane_congr (only_pathStatus via stOK .lanes (by decide))
  refine ⟨_, hw, fun f => (pathStatus_fld via _ _).trans (fld_congr rfl f), ?_, fun k hk => ?_, hregs, htaken⟩
  · rw [hst, lane_setLane_same]
  · rw [hst, lane_setLane_ne hk, hlanes]

theorem lanePrbsCtl_taken {l : BitVec 8} {w : BitVec 32} (ht : s.takes via .lane = true) (hlegal : s.legal (LANE_PRBS_CTL l.toNat).off w.toNat = true) (hlock : s.locked = false)
    (hfree : s.role (l.toNat / 8) = 0 ∨ s.fld (PORT_LINK_CFG_LINK_EN (l.toNat / 8)) = 0) (hgen : bitAt w.toNat 9 = true → s.on (LANE_PRBS_CTL_GEN_EN l.toNat) = true) :
    ∃ t, exec (.lanePrbsCtlWrite via l w) s = .next t ∧ t.fld (LANE_PRBS_CTL_PATTERN l.toNat) = bitsOf w.toNat 5 4
        ∧ t.fld (LANE_PRBS_CTL_CHK_EN l.toNat) = bitsOf w.toNat 1 1 ∧ t.fld (LANE_PRBS_CTL_GEN_EN l.toNat) = bitsOf w.toNat 0 0
        ∧ (bitAt w.toNat 1 = false → t.fld (LANE_PRBS_CTL_CHK_LOCK l.toNat) = 0)
        ∧ (t.fld (LANE_PRBS_CTL_INJECT l.toNat) = 1 ↔ bitAt w.toNat 0 = true ∧ (bitAt w.toNat 9 = true ∨ s.on (LANE_PRBS_CTL_INJECT l.toNat) = true))
        ∧ (t.lane l.toNat).squelch = !bitAt w.toNat 0
        ∧ (t.lane l.toNat).gen = (if s.on (LANE_PRBS_CTL_GEN_EN l.toNat) = true ∧ s.fld (LANE_PRBS_CTL_PATTERN l.toNat) = bitsOf w.toNat 5 4 then (s.lane l.toNat).gen else BitVec.allOnes 31)
        ∧ (t.lane l.toNat).chkRun = (if bitAt w.toNat 1 = true ∧ s.on (LANE_PRBS_CTL_CHK_EN l.toNat) = true then (s.lane l.toNat).chkRun else 0)
        ∧ { t.lane l.toNat with squelch := (s.lane l.toNat).squelch, gen := (s.lane l.toNat).gen, chk := (s.lane l.toNat).chk, chkRun := (s.lane l.toNat).chkRun } = s.lane l.toNat
        ∧ (∀ k, k ≠ l.toNat → t.lane k = s.lane k)
        ∧ regsBut [(LANE_PRBS_CTL l.toNat).off] s t ∧ taken via [.lanes] s t := by
  obtain ⟨t, hw, hfld, hlane, hothers, hregs, htaken⟩ := prbs_taken l.isLt ht hlegal hlock hfree hgen
  obtain ⟨hpat, hchk, hgn, hinj, hlk⟩ := prbsRegs_reads s l.toNat w.toNat
  refine ⟨t, congrArg Host.Outcome.next hw, by rw [hfld, hpat], by rw [hfld, hchk], by rw [hfld, hgn], fun h => by rw [hfld, hlk h], ?_, by rw [hlane]; rfl, ?_, ?_, ?_, hothers, hregs, htaken⟩
  · rw [hfld, hinj, b2n_eq_one]
    simp
  all_goals rw [hlane]; unfold prbsLane; dsimp only
  · by_cases hg : s.on (LANE_PRBS_CTL_GEN_EN l.toNat) = true ∧ s.fld (LANE_PRBS_CTL_PATTERN l.toNat) = bitsOf w.toNat 5 4
    · rw [if_pos hg, if_neg (by simp [hg])]
      split <;> rfl
    · rw [if_neg hg, if_pos (by simpa using Decidable.not_and_iff_or_not.1 hg)]
  · split <;> split <;> simp_all
  · split <;> split <;> rfl

/-- The word of PRBS_INJECT: the lane's settings as they stand, INJECT 1. -/
theorem injectWord_bits (w : Nat) :
    bitsOf (putBits w 9 8 2) 5 4 = bitsOf w 5 4 ∧ bitsOf (putBits w 9 8 2) 1 1 = bitsOf w 1 1 ∧ bitsOf (putBits w 9 8 2) 0 0 = bitsOf w 0 0
      ∧ bitAt (putBits w 9 8 2) 9 = true ∧ bitAt (putBits w 9 8 2) 0 = bitAt w 0 := by
  have h98 : 8 ≤ 9 := by decide
  refine ⟨bitsOf_putBits_ne h98 (.inr (by decide)) w 2, bitsOf_putBits_ne h98 (.inr (by decide)) w 2, bitsOf_putBits_ne h98 (.inr (by decide)) w 2, ?_, ?_⟩
  · rw [bitAt, testBit_putBits h98, if_pos (by decide)]
    decide
  · rw [bitAt, testBit_putBits h98, if_neg (by decide), bitAt]

theorem injectWord_mask {w : Nat} (h : w &&& 0x333 = w) : putBits w 9 8 2 &&& 0x333 = putBits w 9 8 2 := by
  have h98 : 8 ≤ 9 := by decide
  refine Nat.eq_of_testBit_eq fun i => ?_
  rw [Nat.testBit_and, testBit_putBits h98]
  split
  next hi =>
    obtain rfl | rfl : i = 8 ∨ i = 9 := by omega
    · decide
    · decide
  next => rw [← Nat.testBit_and, h]

theorem prbs_desc (l : BitVec 8) :
    (descOf (LANE_PRBS_CTL l.toNat).off).any (fun d => fieldMask d == 0x333 && !writesNothing (LANE_PRBS_CTL l.toNat).off d) = true ∧ (descOf (LANE_PRBS_CTL l.toNat).off).any allRwl = false := by
  have hall : ∀ l : Fin 256, (descOf (LANE_PRBS_CTL l.val).off).any (fun d => fieldMask d == 0x333 && !writesNothing (LANE_PRBS_CTL l.val).off d) = true
      ∧ (descOf (LANE_PRBS_CTL l.val).off).any allRwl = false := by decide +kernel
  exact hall ⟨l.toNat, l.isLt⟩

theorem injectWord_legal {l : BitVec 8} (hl : l.toNat < 8 * s.nPorts) (hword : v &&& 0x333 = v) : s.legal (LANE_PRBS_CTL l.toNat).off v = true := by
  obtain ⟨hdesc, hrwl⟩ := prbs_desc l
  have hl256 := l.isLt
  refine legal_unlockable (blkOf_prbs l.isLt) ?_ ?_ ?_ hrwl ?_
  · obtain ⟨d, hd, hp⟩ := (Option.any_eq_true _ _).1 hdesc
    simp only [Bool.and_eq_true, beq_iff_eq] at hp
    simp [openWord, hd, hp, hword]
  · have : (0x400 * l.toNat + 0x20) % 0x400 = 0x20 := by omega
    simp [State.rsvdValue, this]
  · simp only [State.unitGone, decide_eq_false_iff_not, Nat.not_le]
    omega
  · simp only [lockedOut, LANE_PRBS_CTL, GLB_START_CTL, FOX_SB_ADDR, FOX_SB_DATA, FOX_SB_CTL, QOS_COMMIT, MARL_FLUSH, CVU_TEST_CTL, CVU_TEST_DATA, CVU_TEST_DATA1, List.contains_eq_mem,
      decide_eq_false_iff_not, List.mem_cons, List.not_mem_nil, or_false, not_or]
    omega

/-- A field of one bit that is on holds 1. -/
theorem fld_one {f : Fld} (hf : f.hi = f.lo) (h : s.on f = true) : s.fld f = 1 := by
  have hlt := fld_lt s f
  have hne := (on_iff f).1 h
  rw [hf] at hlt
  have : f.lo + 1 - f.lo = 1 := by omega
  rw [this] at hlt
  omega

theorem prbsInject_taken {l : BitVec 8} (ht : s.takes via .lane = true) (hl : l.toNat < 8 * s.nPorts) (hreg : s.reg (LANE_PRBS_CTL l.toNat).off &&& 0x333 = s.reg (LANE_PRBS_CTL l.toNat).off)
    (hgen : s.on (LANE_PRBS_CTL_GEN_EN l.toNat) = true) (hfree : s.locked = true ∨ s.role (l.toNat / 8) = 0 ∨ s.fld (PORT_LINK_CFG_LINK_EN (l.toNat / 8)) = 0) :
    ∃ t, exec (.prbsInject via l) s = .next t ∧ t.fld (LANE_PRBS_CTL_PATTERN l.toNat) = s.fld (LANE_PRBS_CTL_PATTERN l.toNat)
        ∧ t.fld (LANE_PRBS_CTL_CHK_EN l.toNat) = s.fld (LANE_PRBS_CTL_CHK_EN l.toNat) ∧ t.fld (LANE_PRBS_CTL_GEN_EN l.toNat) = 1
        ∧ t.fld (LANE_PRBS_CTL_INJECT l.toNat) = 1 ∧ regsBut [(LANE_PRBS_CTL l.toNat).off] s t ∧ taken via [.lanes] s t := by
  obtain ⟨hpat, hchk, hgn, h9, h0⟩ := injectWord_bits (s.reg (LANE_PRBS_CTL l.toNat).off)
  have hlegal := injectWord_legal hl (injectWord_mask hreg)
  have hone : s.fld (LANE_PRBS_CTL_GEN_EN l.toNat) = 1 := fld_one rfl hgen
  cases hlock : s.locked with
  | false =>
    obtain ⟨t, hw, hfld, -, -, hregs, htaken⟩ := prbs_taken l.isLt ht hlegal hlock (hfree.resolve_left (by simp [hlock])) (fun _ => hgen)
    obtain ⟨gpat, gchk, ggn, ginj, -⟩ := prbsRegs_reads s l.toNat (putBits (s.reg (LANE_PRBS_CTL l.toNat).off) 9 8 2)
    have hbit : bitAt (s.reg (LANE_PRBS_CTL l.toNat).off) 0 = true := by
      have h : bitsOf (s.reg (LANE_PRBS_CTL l.toNat).off) 0 0 = 1 := hone
      simpa [bitsOf, bitAt, Nat.testBit_zero] using h
    refine ⟨t, congrArg Host.Outcome.next hw, ?_, ?_, ?_, ?_, hregs, htaken⟩
    · rw [hfld, gpat, hpat]
      rfl
    · rw [hfld, gchk, hchk]
      rfl
    · rw [hfld, ggn, hgn]
      exact hone
    · rw [hfld, ginj, h9, h0, hbit]
      rfl
  | true =>
    have hrule : s.injectWrite l.toNat (putBits (s.reg (LANE_PRBS_CTL l.toNat).off) 9 8 2) = (stOK, s.set (LANE_PRBS_CTL_INJECT l.toNat) 1) := by
      unfold State.injectWrite
      rw [h9, hgen]
      rfl
    obtain ⟨hw, hregs, htaken⟩ := takes_rule (via := via) (l := [.lanes]) (offs := [(LANE_PRBS_CTL l.toNat).off]) (t := s.set (LANE_PRBS_CTL_INJECT l.toNat) 1) (blkOf_prbs l.isLt) hlegal ht
      prbs_noNote (fun d => atOnce_ok (applyWrite_prbs d) (by rw [hlock, if_pos rfl, hrule])) (only_mono (by simp) (only_set _ _)) (regsBut_set (List.mem_singleton_self _)) (by decide)
    have hapart : ∀ g : Fld, g.hi < 9 → ((s.set (LANE_PRBS_CTL_INJECT l.toNat) 1).pathStatus via stOK).fld g = s.fld g := fun g hg =>
      (pathStatus_fld via _ _).trans (prbs_set_apart (f := LANE_PRBS_CTL_INJECT l.toNat) (by decide : 9 ≤ 9 ∧ 9 < 32) (.inr hg))
    refine ⟨_, congrArg Host.Outcome.next hw, hapart _ (by decide : 5 < 9), hapart _ (by decide : 1 < 9), (hapart _ (by decide : 0 < 9)).trans hone, ?_, hregs, htaken⟩
    rw [pathStatus_fld]
    exact fld_set_fits (by decide : 9 ≤ 9) (by decide : 9 < 32) (by decide : 1 < 2 ^ 1)

/-! ## The registers of a port (R132, R150, R160) -/

/-- A rule of a port's register that changes the links, the lanes and the switch only through the fabric. -/
theorem port_taken {k : Nat} {L : List Part} (hp : p < 32) (hk : k < 0x800) (ht : s.takes via .port = true) (hlegal : s.legal (0x10000 + 0x800 * p + k) v = true)
    (ha : ∀ d, s.applyWrite via .port (0x10000 + 0x800 * p + k) (0x800 * p + k) v d = (some stOK, t)) (honly : only (.regs :: L) s t) (hL : .acc ∉ L ∧ .pwr ∉ L ∧ .flt ∉ L) :
    s.pathWrite via (0x10000 + 0x800 * p + k) v = t.pathStatus via stOK ∧ taken via L s (t.pathStatus via stOK) := by
  have hw := pathWrite_legal (blkOf_port hp hk) hlegal ht port_noNote (fun d _ => ha d) (calm_of (honly .pwr (by simp [hL])) (honly .flt (by simp [hL])))
  exact ⟨hw, taken_of_only honly hL.1⟩

/-- The settings of a port lie outside what the fabric writes. -/
theorem portSetting_kept {k : Nat} (hp : p < 32) (hk : k ≤ 0x100 ∨ 0x200 ≤ k ∧ k < 0x240) : ¬ fabricReg (0x10000 + 0x800 * p + k) := by
  simp only [fabricReg, packetReg, RT_UNREACH, RT_CNT_VIOL_ROUTE, RT_HOPS_EXCEEDED, GLB_CNT_VIOL_MALFORMED, RT_WAIT_EXPIRED, RT_DROP, RT_BYP_STATUS, RT_BYP_OPEN, RT_BYP_CLOSES]
  omega

theorem portRole_mask (q : BitVec 5) : (descOf (PORT_ROLE q.toNat).off).map fieldMask = some 7 := by
  have hall : ∀ q : Fin 32, (descOf (PORT_ROLE q.val).off).map fieldMask = some 7 := by decide +kernel
  exact hall ⟨q.toNat, q.isLt⟩

theorem pathStatus_nPorts (st : BitVec 8) : (s.pathStatus via st).nPorts = s.nPorts := by cases via <;> rfl

theorem portLinkCfg_taken {q : BitVec 5} {w : BitVec 32} (ht : s.takes via .port = true) (hlegal : s.legal (PORT_LINK_CFG q.toNat).off w.toNat = true)
    (hdown : (∀ m < 8, s.lst q.toNat m = 0) ∨ bitsOf (s.reg (PORT_LINK_CFG q.toNat).off) 5 0 = bitsOf w.toNat 5 0) :
    ∃ t, exec (.portLinkCfgWrite via q w) s = .next t ∧ t.reg (PORT_LINK_CFG q.toNat).off = w.toNat ∧ taken via [.links, .lanes, .sw] s t := by
  have hq := q.isLt
  have hoff : (PORT_LINK_CFG q.toNat).off = 0x10000 + 0x800 * q.toNat + 0x100 := by simp only [PORT_LINK_CFG]; omega
  have hrule : s.linkCfgWrite q.toNat w.toNat = (stOK, ((s.setReg (PORT_LINK_CFG q.toNat).off w.toNat).checkPort q.toNat).closePairs) := by
    refine if_neg ?_
    rcases hdown with h | h
    · have hbusy : ((List.range (s.nLinks q.toNat)).any fun m => s.lst q.toNat m != 0) = false := by
        refine List.any_eq_false.mpr fun m hm => ?_
        simp [h m (Nat.lt_of_lt_of_le (List.mem_range.mp hm) (nLinks_le s _))]
      simp [hbusy]
    · simp [h]
  have hfab : Fabric (s.setReg (PORT_LINK_CFG q.toNat).off w.toNat) ((s.setReg (PORT_LINK_CFG q.toNat).off w.toNat).checkPort q.toNat).closePairs := (fabric_checkPort _).trans fabric_closePairs
  obtain ⟨hmod, hdiv⟩ := port_index (p := q.toNat) (k := 0x100) (by decide)
  rw [hoff] at hlegal hrule hfab
  obtain ⟨hw, htaken⟩ := port_taken (L := [.links, .lanes, .sw]) hq (by decide) ht hlegal (fun d => atOnce_ok (by simp only [State.applyWrite, hmod, hdiv]) hrule)
    (only_trans (only_mono (by simp) only_setReg) (only_mono (by simp) hfab.parts)) (by decide)
  refine ⟨_, congrArg Host.Outcome.next ((congrArg (s.pathWrite via · w.toNat) hoff).trans hw), ?_, htaken⟩
  rw [hoff, pathStatus_reg, hfab.reg _ (portSetting_kept hq (.inl (by decide))), reg_setReg_fits w.isLt]

theorem portCredInit_taken {q : BitVec 5} {vc : BitVec 3} {w : BitVec 32} (hvc : vc.toNat < 5) (ht : s.takes via .port = true) (hlegal : s.legal (PORT_CRED_INIT q.toNat vc.toNat).off w.toNat = true)
    (hbusy : s.portBusy q.toNat = false) (hpool : (s.setReg (PORT_CRED_INIT q.toNat vc.toNat).off w.toNat).poolOk = true) :
    ∃ t, exec (.portCredInitWrite via q vc w) s = .next t ∧ t.reg (PORT_CRED_INIT q.toNat vc.toNat).off = w.toNat
        ∧ regsBut [(PORT_CRED_INIT q.toNat vc.toNat).off] s t ∧ taken via [] s t := by
  have hq := q.isLt
  have hoff : (PORT_CRED_INIT q.toNat vc.toNat).off = 0x10000 + 0x800 * q.toNat + (0x210 + 4 * vc.toNat) := by simp only [PORT_CRED_INIT]; omega
  have hrule : s.credWrite q.toNat vc.toNat w.toNat = (stOK, s.setReg (PORT_CRED_INIT q.toNat vc.toNat).off w.toNat) := if_neg (by simp [hbusy, hpool])
  obtain ⟨hmod, hdiv⟩ := port_index (p := q.toNat) (k := 0x210 + 4 * vc.toNat) (by omega)
  have hix : (0x210 + 4 * vc.toNat - 0x210) / 4 = vc.toNat := by omega
  have happly : ∀ d, s.applyWrite via .port (0x10000 + 0x800 * q.toNat + (0x210 + 4 * vc.toNat)) (0x800 * q.toNat + (0x210 + 4 * vc.toNat)) w.toNat d = atOnce (s.credWrite q.toNat vc.toNat w.toNat) := by
    intro d
    simp only [State.applyWrite, hmod, hdiv]
    split
    · omega
    · omega
    · omega
    · omega
    · rw [hix]
  rw [hoff] at hlegal hrule hpool
  obtain ⟨hw, htaken⟩ := port_taken (L := []) hq (by omega) ht hlegal (fun d => atOnce_ok (happly d) hrule) only_setReg (by decide)
  refine ⟨_, congrArg Host.Outcome.next ((congrArg (s.pathWrite via · w.toNat) hoff).trans hw), ?_, ?_, htaken⟩
  · rw [hoff, pathStatus_reg, reg_setReg_fits w.isLt]
  · rw [hoff]
    exact regsBut_trans (regsBut_setReg (List.mem_singleton_self _)) (regsBut_pathStatus via stOK)

theorem portRole_taken {q : BitVec 5} {w : BitVec 32} (ht : s.takes via .port = true) (hlegal : s.legal (PORT_ROLE q.toNat).off w.toNat = true) (hbusy : s.portBusy q.toNat = false)
    (hroute : s.pairRouted (q.toNat / 2) = false) (hclk : s.portClocked q.toNat = true) (hpool : (s.setReg (PORT_ROLE q.toNat).off w.toNat).poolOk = true) :
    ∃ t, exec (.portRoleWrite via q w) s = .next t ∧ t.role q.toNat = w.toNat ∧ taken via [.links, .lanes, .sw] s t := by
  have hq := q.isLt
  have hoff : (PORT_ROLE q.toNat).off = 0x10000 + 0x800 * q.toNat + 0 := rfl
  obtain ⟨hmod, hdiv⟩ := port_index (p := q.toNat) (k := 0) (by decide)
  have happly : ∀ d, s.applyWrite via .port (0x10000 + 0x800 * q.toNat + 0) (0x800 * q.toNat + 0) w.toNat d = atOnce (s.roleWrite q.toNat w.toNat) := fun d => by
    simp only [State.applyWrite, hmod, hdiv]
  by_cases hsame : w.toNat = s.role q.toNat
  · have hrule : s.roleWrite q.toNat w.toNat = (stOK, s) := by simp [State.roleWrite, hpool, ← hsame]
    rw [hoff] at hlegal
    obtain ⟨hw, htaken⟩ := port_taken (L := [.links, .lanes, .sw]) hq (by decide) ht hlegal (fun d => atOnce_ok (happly d) hrule) (only_refl _ _) (by decide)
    refine ⟨_, congrArg Host.Outcome.next hw, ?_, htaken⟩
    rw [hsame, State.role, State.role, pathStatus_fld, pathStatus_nPorts]
  · have hrule : s.roleWrite q.toNat w.toNat = (stOK, (((s.setReg (PORT_ROLE q.toNat).off w.toNat).closePairs).checkPort q.toNat).readmit) := by
      simp [State.roleWrite, hpool, hsame, hbusy, hroute, hclk]
    have hfab : Fabric (s.setReg (PORT_ROLE q.toNat).off w.toNat) (((s.setReg (PORT_ROLE q.toNat).off w.toNat).closePairs).checkPort q.toNat).readmit :=
      (fabric_closePairs.trans (fabric_checkPort _)).trans (Fabric.of_sends sends_readmit)
    have honly : only [.regs, .links, .lanes, .sw] s (((s.setReg (PORT_ROLE q.toNat).off w.toNat).closePairs).checkPort q.toNat).readmit :=
      only_trans (only_mono (by simp) only_setReg) (only_mono (by simp) hfab.parts)
    have hlt : q.toNat < s.nPorts ∧ w.toNat < 8 := by
      have hmask : w.toNat &&& 7 = w.toNat := legal_mask hlegal (portRole_mask q)
      obtain ⟨d, -, -, -, -, -, hgone⟩ := legal_desc hlegal (blkOf_port (k := 0) hq (by decide))
      simp only [State.unitGone, hdiv, decide_eq_false_iff_not, Nat.not_le] at hgone
      exact ⟨hgone, by rw [← hmask]; exact Nat.lt_succ_of_le Nat.and_le_right⟩
    rw [hoff] at hlegal
    obtain ⟨hw, htaken⟩ := port_taken (L := [.links, .lanes, .sw]) hq (by decide) ht hlegal (fun d => atOnce_ok (happly d) hrule) honly (by decide)
    refine ⟨_, congrArg Host.Outcome.next hw, ?_, htaken⟩
    have hports : ((((s.setReg (PORT_ROLE q.toNat).off w.toNat).closePairs).checkPort q.toNat).readmit).nPorts = s.nPorts := by
      rw [State.nPorts, State.nPorts, State.variant, State.variant, honly .fuse (by decide)]
    have hreg : ((((s.setReg (PORT_ROLE q.toNat).off w.toNat).closePairs).checkPort q.toNat).readmit).reg (PORT_ROLE_ROLE q.toNat).off = w.toNat := by
      rw [hfab.reg (PORT_ROLE_ROLE q.toNat).off (portSetting_kept (k := 0) hq (.inl (by decide)))]
      exact reg_setReg_fits w.isLt
    rw [State.role, pathStatus_fld, pathStatus_nPorts, hports, if_pos hlt.1, State.fld, hreg]
    simp [bitsOf, PORT_ROLE_ROLE, Nat.mod_eq_of_lt hlt.2]

theorem portCfg_taken {q : BitVec 5} {w : BitVec 32} (ht : s.takes via .port = true) (hlegal : s.legal (PORT_CFG q.toNat).off w.toNat = true) (hbusy : s.portBusy q.toNat = false) :
    ∃ t, exec (.portCfgWrite via q w) s = .next t ∧ t.reg (PORT_CFG q.toNat).off = w.toNat ∧ taken via [.links, .sw] s t := by
  have hq := q.isLt
  have hoff : (PORT_CFG q.toNat).off = 0x10000 + 0x800 * q.toNat + 4 := by simp only [PORT_CFG]; omega
  obtain ⟨hmod, hdiv⟩ := port_index (p := q.toNat) (k := 4) (by decide)
  have hrule : ∃ t, s.portCfgWrite q.toNat w.toNat = (stOK, t) ∧ only [.regs, .links, .sw] s t ∧ t.reg (PORT_CFG q.toNat).off = w.toNat := by
    unfold State.portCfgWrite
    by_cases hsame : w.toNat = s.reg (PORT_CFG q.toNat).off
    · exact ⟨s, if_pos hsame, only_refl _ _, hsame.symm⟩
    · have hsent := sends_readmit (s := s.setReg (PORT_CFG q.toNat).off w.toNat)
      refine ⟨_, by rw [if_neg hsame, hbusy, if_neg (by decide)], only_trans (only_mono (by simp) only_setReg) (only_mono (by simp) hsent.parts), ?_⟩
      rw [(Fabric.of_sends hsent).reg _ (by rw [hoff]; exact portSetting_kept hq (.inl (by decide))), reg_setReg_fits w.isLt]
  obtain ⟨t, hrule, honly, hreg⟩ := hrule
  rw [hoff] at hlegal
  obtain ⟨hw, htaken⟩ := port_taken (L := [.links, .sw]) hq (by decide) ht hlegal (fun d => atOnce_ok (by simp only [State.applyWrite, hmod, hdiv]) hrule) honly (by decide)
  exact ⟨_, congrArg Host.Outcome.next ((congrArg (s.pathWrite via · w.toNat) hoff).trans hw), (pathStatus_reg via _ _).trans hreg, htaken⟩

/-- Settles O3, register by register. -/
theorem portWrites : Obligations.PortWrites :=
  fun _ _ _ => ⟨fun _ => lanePrbsCtl_taken, fun _ => prbsInject_taken, fun _ => portLinkCfg_taken, fun _ _ => portCredInit_taken, fun _ => portRole_taken, fun _ => portCfg_taken⟩

end Sys2Proof.Proofs
end

section
/-! SUPPORT. Writes of the Marl, the memory map, the channels and the rates (R226, R231, R237, R249, R266, R288). -/

namespace Sys2Proof.Proofs

set_option Elab.async false

open Sys2Proof.Machine Sys2Proof.Laws

variable {s t : State} {via : Path} {off o v c : Nat} {b : Blk}

/-! ## A legal write, whatever its answer -/

/-- What the register's rule answers to a legal word is the write's answer. -/
theorem regWrite_legal {r : Option (BitVec 8)} (hb : blkOf off = some (b, o)) (hlegal : s.legal off v = true) (hopen : s.blockOpen b = true) (hn : off ≠ FLT_ACK.off ∧ off ≠ FLT_INJ.off)
    (ha : ∀ d, s.applyWrite via b off o v d = (r, t)) : s.regWrite via none off v = (r, t) := by
  obtain ⟨d, hd, hm, hr, hw, hl, hu⟩ := legal_desc hlegal hb
  have hnote : ∀ x : State, ∀ st, x.noteResult off st = x := fun x st => by simp [State.noteResult, hn]
  unfold State.regWrite
  rw [hb, hd]
  cases r <;> simp [hm, hr, hw, hl, hu, hopen, ha d, hnote, State.regWindow]

/-- The answer of a write that runs on is owed. -/
theorem pathWrite_owed (ht : s.takes via b = true) (hheld : s.mapHeld off = false) (hreg : s.regWrite via none off v = (none, t)) (hc : t.calm = true) :
    s.pathWrite via off v = { t with acc := { t.acc with owed := t.acc.owed ++ [{ off := off, via := via, hdr := none }] } } := by
  obtain ⟨hup, hlim, -, -⟩ := takes_parts ht
  have hpath : (via != Path.mreg && s.pathLimited && off != REC_SETT_ADDR.off) = false := by rcases hlim with h | h <;> simp [h]
  unfold State.pathWrite
  simp only [hup, hheld, hpath, hreg, Bool.not_true, Bool.or_self, Bool.false_eq_true, if_false]
  exact settle_calm (by rw [← hc]; rfl)

/-- A fact that one element of a list brings about, and that no element undoes. -/
theorem each_reaches {α : Type} {P : State → Prop} {xs : List α} {f : State → α → State} {a : α} (ha : a ∈ xs) (hmake : ∀ x, P (f x a)) (hkeep : ∀ x e, P x → P (f x e)) : P (s.each xs f) := by
  induction xs generalizing s with
  | nil => simp at ha
  | cons e xs ih =>
    rcases List.mem_cons.mp ha with rfl | h
    · show P ((f s a).each xs f)
      exact each_keeps (hmake s) hkeep
    · exact ih h

/-! ## Flush and quiesce (R226, R231) -/

theorem marl_frame (x : MarlSt) (l : List Nat) : only [.regs, .marl] s { s with marl := x } ∧ regsBut l s { s with marl := x } :=
  ⟨only_mono (by simp) (only_marl x), regsBut_of_regs rfl⟩

@[simp] theorem pathStatus_marl (st : BitVec 8) : (s.pathStatus via st).marl = s.marl := by cases via <;> rfl

theorem applyWrite_flush (d : RegDesc) : s.applyWrite via .marl MARL_FLUSH.off 0x18 v d = atOnce (s.flushWrite v) := rfl
theorem applyWrite_marlCtl (d : RegDesc) : s.applyWrite via .marl MARL_CTL.off 0x4 v d = atOnce (s.quiesceWrite v) := rfl
theorem applyWrite_marlPart (d : RegDesc) : s.applyWrite via .marl MARL_PART.off 0x0 v d = atOnce (s.partWrite v) := rfl

theorem rsvdValue_flush : s.rsvdValue .marl MARL_FLUSH.off 0x18 v = false := rfl
theorem rsvdValue_marlCtl : s.rsvdValue .marl MARL_CTL.off 0x4 v = false := rfl
theorem unitGone_marl : s.unitGone .marl o = false := rfl

theorem flushWord (inv : Bool) : bitAt (b2n inv * 2 + 1) 0 = true ∧ bitAt (b2n inv * 2 + 1) 1 = inv ∧ openWord MARL_FLUSH.off (b2n inv * 2 + 1) = true := by
  cases inv
  · exact ⟨by decide, by decide, by decide +kernel⟩
  · exact ⟨by decide, by decide, by decide +kernel⟩

theorem marlFlush_taken {inv : Bool} (ht : s.takes via .marl = true) (hl : s.locked = false) (hbusy : s.on MARL_STATUS_FLUSH_BUSY = false) (hq : s.on MARL_CTL_QUIESCE = false) :
    ∃ t, exec (.marlFlushGo via inv) s = .next t ∧ t.fld MARL_STATUS_FLUSH_BUSY = 1 ∧ t.marl.flush = some inv ∧ t.marl.flushRing0 = false
        ∧ (∀ e ∈ s.marl.lines, e.2.st = .dirty → s.lineFenced e.1 = false → (e.1, { e.2 with flushMark := true }) ∈ t.marl.lines)
        ∧ (inv = true → ∀ e ∈ t.marl.lines, e.2.st ≠ .clean) ∧ regsBut [MARL_STATUS.off] s t ∧ taken via [.marl] s t := by
  obtain ⟨h0, h1, hword⟩ := flushWord inv
  have hrule : s.flushWrite (b2n inv * 2 + 1) = (stOK, s.startFlush inv false) := by
    unfold State.flushWrite
    rw [h0, h1, hl, hbusy, hq]
    rfl
  obtain ⟨m, hm⟩ : ∃ m : MarlSt, (s.startFlush inv false) = ({ s with marl := m } : State).set MARL_STATUS_FLUSH_BUSY 1 ∧ m.flush = some inv ∧ m.flushRing0 = false
      ∧ m.lines = (s.marl.lines.filter fun e => !(inv && e.2.st == .clean)).map fun (e : Nat × Line) => (e.1, if e.2.st == .dirty && !s.lineFenced e.1 then ({ e.2 with flushMark := true } : Line) else e.2) :=
    ⟨_, rfl, rfl, rfl, rfl⟩
  obtain ⟨hstart, hflush, hring, hlines⟩ := hm
  have hmarl : (s.startFlush inv false).marl = m := by rw [hstart]; rfl
  obtain ⟨hw, hregs, htaken⟩ := takes_rule (via := via) (l := [.marl]) (offs := [MARL_STATUS.off]) (t := s.startFlush inv false) (b := .marl) (o := 0x18) rfl
    (legal_of_openWord rfl hword rsvdValue_flush unitGone_marl hl) ht (by decide) (fun d => atOnce_ok (applyWrite_flush d) hrule)
    (by rw [hstart]; exact only_trans (marl_frame m []).1 (only_mono (by simp) (only_set _ _)))
    (by rw [hstart]; exact regsBut_trans (marl_frame m _).2 (regsBut_set (by decide))) (by decide)
  refine ⟨_, congrArg Host.Outcome.next hw, ?_, by rw [pathStatus_marl, hmarl, hflush], by rw [pathStatus_marl, hmarl, hring], fun e he hd hf => ?_, fun hi e he => ?_, hregs, htaken⟩
  · rw [pathStatus_fld, hstart]
    exact fld_set_fits (by decide) (by decide) (by decide)
  · rw [pathStatus_marl, hmarl, hlines]
    exact List.mem_map.mpr ⟨e, List.mem_filter.mpr ⟨he, by simp [hd]⟩, by simp [hd, hf]⟩
  · rw [pathStatus_marl, hmarl, hlines] at he
    obtain ⟨x, hx, rfl⟩ := List.mem_map.mp he
    obtain ⟨-, hclean⟩ := List.mem_filter.mp hx
    have hne : x.2.st ≠ .clean := by simpa [hi] using hclean
    dsimp only
    split
    · exact hne
    · exact hne

theorem quiesceSet_taken (ht : s.takes via .marl = true) (hl : s.locked = false) (hq : s.on MARL_CTL_QUIESCE = false) (hbusy : s.on MARL_STATUS_FLUSH_BUSY = false)
    (hdone : ∀ n, 1 ≤ n → n < 64 → s.unfinished n = false) :
    ∃ t, exec (.quiesceSet via) s = .next t ∧ t.fld MARL_CTL_QUIESCE = 1 ∧ regsBut [MARL_CTL.off] s t ∧ taken via [] s t := by
  have hnone : ((List.range 63).any fun i => s.unfinished (i + 1)) = false :=
    List.any_eq_false.mpr fun i hi => by
      have := List.mem_range.mp hi
      simp [hdone (i + 1) (by omega) (by omega)]
  have hrule : s.quiesceWrite 1 = (stOK, s.set MARL_CTL_QUIESCE 1) := by
    have h1 : bitAt 1 0 = true := by decide
    simp only [State.quiesceWrite, h1, hq, hbusy, hnone, Bool.or_self, Bool.false_eq_true, if_false, if_true]
  obtain ⟨hw, hregs, htaken⟩ := takes_rule (via := via) (l := []) (offs := [MARL_CTL.off]) (t := s.set MARL_CTL_QUIESCE 1) (b := .marl) (o := 0x4) rfl
    (legal_of_openWord rfl (by decide +kernel) rsvdValue_marlCtl unitGone_marl hl) ht (by decide) (fun d => atOnce_ok (applyWrite_marlCtl d) hrule) (only_set _ _) (regsBut_set (by decide)) (by decide)
  refine ⟨_, congrArg Host.Outcome.next hw, ?_, hregs, htaken⟩
  rw [pathStatus_fld]
  exact fld_set_fits (by decide) (by decide) (by decide)

theorem quiesceClear_taken (ht : s.takes via .marl = true) (hl : s.locked = false) (hpart : s.on MARL_STATUS_PART_BUSY = false) :
    ∃ t, exec (.quiesceClear via) s = .next t ∧ t.fld MARL_CTL_QUIESCE = 0 ∧ t.fld MARL_STATUS_QUIESCED = 0 ∧ regsBut [MARL_CTL.off, MARL_STATUS.off] s t ∧ taken via [] s t := by
  have hrule : s.quiesceWrite 0 = (stOK, (s.set MARL_CTL_QUIESCE 0).set MARL_STATUS_QUIESCED 0) := by
    have h0 : bitAt 0 0 = false := by decide
    simp only [State.quiesceWrite, h0, hpart, Bool.false_eq_true, if_false, sets_cons, sets_nil]
  obtain ⟨hw, hregs, htaken⟩ := takes_rule (via := via) (l := []) (offs := [MARL_CTL.off, MARL_STATUS.off]) (t := (s.set MARL_CTL_QUIESCE 0).set MARL_STATUS_QUIESCED 0) (b := .marl) (o := 0x4) rfl
    (legal_of_openWord rfl (by decide +kernel) rsvdValue_marlCtl unitGone_marl hl) ht (by decide) (fun d => atOnce_ok (applyWrite_marlCtl d) hrule) (only_trans (only_set _ _) (only_set _ _))
    (regsBut_trans (regsBut_set (by decide)) (regsBut_set (by decide))) (by decide)
  refine ⟨_, congrArg Host.Outcome.next hw, ?_, ?_, hregs, htaken⟩
  · rw [pathStatus_fld, fld_set_ne (f := MARL_STATUS_QUIESCED) _ (by decide)]
    exact fld_set_fits (by decide) (by decide) (by decide)
  · rw [pathStatus_fld]
    exact fld_set_fits (by decide) (by decide) (by decide)

theorem marlPart_taken {w : BitVec 32} (ht : s.takes via .marl = true) (hlegal : s.legal MARL_PART.off w.toNat = true) (hq : s.on MARL_STATUS_QUIESCED = true)
    (hpart : s.on MARL_STATUS_PART_BUSY = false) (hpool : (s.setReg MARL_PART.off w.toNat).poolOk = true) :
    ∃ t, exec (.marlPartWrite via w) s = .next t ∧ t.fld MARL_STATUS_PART_BUSY = 1 ∧ t.marl = { s.marl with newPart := some w } ∧ regsBut [MARL_STATUS.off] s t ∧ taken via [.marl] s t := by
  obtain ⟨x, hx⟩ : ∃ x : State, ({ s with marl := { s.marl with newPart := some w } } : State) = x := ⟨_, rfl⟩
  have hxonly : only [.regs, .marl] s x := hx ▸ (marl_frame _ []).1
  have hrule : s.partWrite w.toNat = (stOK, x.set MARL_STATUS_PART_BUSY 1) := by
    rw [← hx]
    simp only [State.partWrite, hq, hpart, hpool, Bool.not_true, Bool.or_self, Bool.false_eq_true, if_false, BitVec.ofNat_toNat, BitVec.setWidth_eq]
  have hmarl : x.marl = { s.marl with newPart := some w } := by rw [← hx]
  obtain ⟨hw, hregs, htaken⟩ := takes_rule (via := via) (l := [.marl]) (offs := [MARL_STATUS.off]) (t := x.set MARL_STATUS_PART_BUSY 1) (b := .marl) (o := 0x0) rfl hlegal ht (by decide)
    (fun d => atOnce_ok (applyWrite_marlPart d) hrule) (only_trans hxonly (only_mono (by simp) (only_set _ _))) (regsBut_trans (regsBut_of_regs (by rw [← hx])) (regsBut_set (by decide))) (by decide)
  refine ⟨_, congrArg Host.Outcome.next hw, ?_, ?_, hregs, htaken⟩
  · rw [pathStatus_fld]
    exact fld_set_fits (by decide) (by decide) (by decide)
  · rw [pathStatus_marl, ← hmarl]
    exact only_set _ _ .marl (by decide)

/-! ## The memory map (R237) -/

/-- A line that is not dirty is not written back. -/
theorem writeBackNow_clean {l : Nat} (h : ∀ e ∈ s.marl.lines, e.2.st ≠ .dirty) : s.writeBackNow l false = s := by
  unfold State.writeBackNow
  split
  · rfl
  next x hx =>
    have hmem : (l, x) ∈ s.marl.lines := mem_of_mget hx
    rw [if_pos (by simp [h _ hmem])]

theorem writeBacks_clean {ls : List Nat} (h : ∀ e ∈ s.marl.lines, e.2.st ≠ .dirty) : (s.each ls fun u l => u.writeBackNow l false) = s := by
  induction ls with
  | nil => rfl
  | cons l ls ih =>
    show ((s.writeBackNow l false).each ls fun u l => u.writeBackNow l false) = s
    rw [writeBackNow_clean h, ih]

/-- The registers that a new map moves: that every channel is retired no longer, the map and what follows it. -/
def mapReg (o : Nat) : Prop := o = GLB_MEM_CFG.off ∨ o = GLB_MEM_STATUS.off ∨ o = CVU_CKP_GRANULES.off ∨ o = CVU_CKP_STATUS.off ∨ ∃ c < 32, o = (CHAN_STATUS c).off

/-- The memory, emptied. -/
def emptied (s : State) : State :=
  { s.emptyCache with chan := { s.chan with dram := [], zeroed := [] }, sett := { s.sett with rebuild := [] }, prot := { s.prot with corrective := [], watched := [], ueOnce := [] } }

/-- The map in force, with no channel retired. -/
def mapped (s : State) (v : Nat) : State :=
  let t := ((emptied s).each (List.range 32) fun u c => u.set (CHAN_STATUS_RETIRED c) 0).setReg GLB_MEM_CFG.off v
  (t.allGroups (if t.parity then 1 else 0)).showMap

theorem memCfgWrite_clean (hl : s.locked = false) (hq : s.on MARL_STATUS_QUIESCED = true) (hp : s.on MARL_STATUS_PART_BUSY = false) (hr : s.rebuilding = false)
    (hclean : ∀ e ∈ s.marl.lines, e.2.st ≠ .dirty) : s.memCfgWrite v = (stOK, (mapped s v).loseMaps.saveMap) := by
  simp only [State.memCfgWrite, hl, hq, hp, hr, Bool.not_true, Bool.or_self, Bool.false_eq_true, if_false, writeBacks_clean hclean]
  rfl

theorem emptied_only (s : State) : only [.marl, .chan, .sett, .prot] s (emptied s) := fun p hp => by
  cases p
  case marl | chan | sett | prot => simp at hp
  all_goals rfl

theorem mapFrame_set {f : Fld} {x : Nat} (hf : mapReg f.off) : Frame [.regs] mapReg t (t.set f x) := .set (by simp) hf

/-- After the map is written only the registers that show it change. -/
theorem showMap_frame (n : Nat) : Frame [.regs] (fun o => o = GLB_MEM_STATUS.off ∨ o = CVU_CKP_GRANULES.off) t (t.allGroups n).showMap := by
  refine Frame.trans (.each fun x j _ => ?_) (.sets (by simp) (by simp [GLB_MEM_STATUS_USABLE_GIB, GLB_MEM_STATUS_DATA_CHANNELS, GLB_MEM_STATUS, CVU_CKP_GRANULES]))
  exact .set (by simp) (.inl rfl)

/-- No channel is retired. -/
def unretired (s : State) : State := s.each (List.range 32) fun u c => u.set (CHAN_STATUS_RETIRED c) 0

theorem unretired_frame : Frame [.regs] mapReg s (unretired s) :=
  .each fun _ c hc => mapFrame_set (.inr (.inr (.inr (.inr ⟨c, List.mem_range.mp hc, rfl⟩))))

theorem unretired_reads {c : Nat} (hc : c < 32) : (unretired s).fld (CHAN_STATUS_RETIRED c) = 0 := by
  refine each_reaches (P := fun t => t.fld (CHAN_STATUS_RETIRED c) = 0) (List.mem_range.mpr hc) (fun x => ?_) (fun x e h => ?_)
  · exact fld_set_fits (by decide : 19 ≤ 19) (by decide : 19 < 32) (by decide : 0 < 2 ^ 1)
  · by_cases hec : e = c
    · subst hec
      exact fld_set_fits (by decide : 19 ≤ 19) (by decide : 19 < 32) (by decide : 0 < 2 ^ 1)
    · rw [fld_set_ne _ (by simp only [CHAN_STATUS_RETIRED]; omega), h]

/-- What a new map leaves: the registers and the parts. -/
theorem mapped_frame (hv : v < 2 ^ 32) :
    only [.regs] (emptied s) (mapped s v) ∧ (∀ o, ¬ mapReg o → (mapped s v).reg o = s.reg o) ∧ (mapped s v).reg GLB_MEM_CFG.off = v
      ∧ ∀ c < 32, (mapped s v).fld (CHAN_STATUS_RETIRED c) = 0 := by
  obtain ⟨u, hu⟩ : ∃ u, unretired (emptied s) = u := ⟨_, rfl⟩
  obtain ⟨n, hm⟩ : ∃ n, mapped s v = ((u.setReg GLB_MEM_CFG.off v).allGroups n).showMap := ⟨_, by rw [← hu]; rfl⟩
  have hret : Frame [.regs] mapReg (emptied s) u := hu ▸ unretired_frame
  have hshow := showMap_frame (t := u.setReg GLB_MEM_CFG.off v) n
  rw [← hm] at hshow
  refine ⟨?_, fun o ho => ?_, ?_, fun c hc => ?_⟩
  · exact only_trans hret.parts (only_trans only_setReg hshow.parts)
  · rw [hshow.reg o fun h => ho (h.elim (fun h => .inr (.inl h)) fun h => .inr (.inr (.inl h))), reg_setReg_ne _ fun h => ho (.inl h), hret.reg o ho, reg_congr (emptied_only s .regs (by decide))]
  · rw [hshow.reg _ (by decide), reg_setReg_fits hv]
  · have hoff : (CHAN_STATUS_RETIRED c).off ≠ GLB_MEM_CFG.off ∧ (CHAN_STATUS_RETIRED c).off ≠ GLB_MEM_STATUS.off ∧ (CHAN_STATUS_RETIRED c).off ≠ CVU_CKP_GRANULES.off := by
      simp only [CHAN_STATUS_RETIRED, GLB_MEM_CFG, GLB_MEM_STATUS, CVU_CKP_GRANULES]
      omega
    rw [hshow.fld (by simp [hoff]), State.fld, reg_setReg_ne _ hoff.1, ← State.fld, ← hu, unretired_reads hc]

theorem applyWrite_memCfg (d : RegDesc) : s.applyWrite via .glb GLB_MEM_CFG.off 0x40 v d = atOnce (s.memCfgWrite v) := rfl

theorem memCfg_taken {w : BitVec 32} (ht : s.takes via .glb = true) (hlegal : s.legal GLB_MEM_CFG.off w.toNat = true) (hl : s.locked = false) (hq : s.on MARL_STATUS_QUIESCED = true)
    (hp : s.on MARL_STATUS_PART_BUSY = false) (hr : s.rebuilding = false) (hclean : ∀ e ∈ s.marl.lines, e.2.st ≠ .dirty) :
    ∃ t, exec (.glbMemCfgWrite via w) s = .next t ∧ t.reg GLB_MEM_CFG.off = w.toNat ∧ t.marl.lines = [] ∧ t.chan.dram = [] ∧ t.sett.rebuild = []
        ∧ t.sett.mapRec.isSome = true ∧ (∀ c < 32, t.fld (CHAN_STATUS_RETIRED c) = 0 ∧ t.reg (CHAN_REBUILD c).off = s.reg (CHAN_REBUILD c).off ∧ t.reg (CHAN_REBUILD_PTR c).off = s.reg (CHAN_REBUILD_PTR c).off)
        ∧ t.fox = { s.fox with ckpActive := { base := true }, ckpFrozen := {} } ∧ t.fld CVU_CKP_STATUS_ALL_DIRTY = 1 ∧ taken via [.marl, .chan, .sett, .prot, .fox] s t := by
  obtain ⟨honly, hregs, hcfg, hret⟩ := mapped_frame (s := s) w.isLt
  obtain ⟨m, hm⟩ : ∃ m, mapped s w.toNat = m := ⟨_, rfl⟩
  rw [hm] at honly hregs hcfg hret
  have hmonly : only [.regs, .marl, .chan, .sett, .prot, .fox] s m := only_trans (only_mono (by simp) (emptied_only s)) (only_mono (by simp) honly)
  obtain ⟨f, hf⟩ : ∃ f : State, ({ m with fox := { m.fox with ckpActive := { base := true }, ckpFrozen := {} } } : State) = f := ⟨_, rfl⟩
  have hfonly : only [.fox] m f := hf ▸ only_fox _
  have hffox : f.fox = { s.fox with ckpActive := { base := true }, ckpFrozen := {} } := by
    rw [← hf]
    show { m.fox with ckpActive := { base := true }, ckpFrozen := {} } = _
    rw [show m.fox = s.fox from (honly .fox (by decide)).trans (emptied_only s .fox (by decide))]
  have hlose : m.loseMaps = f.set CVU_CKP_STATUS_ALL_DIRTY 1 := by rw [← hf]; rfl
  obtain ⟨x, hx⟩ : ∃ x, (m.loseMaps).saveMap = x := ⟨_, rfl⟩
  have hxonly : only [.sett] (f.set CVU_CKP_STATUS_ALL_DIRTY 1) x := by
    rw [← hx, hlose]
    exact only_sett _
  have hxregs : ∀ o, x.reg o = (f.set CVU_CKP_STATUS_ALL_DIRTY 1).reg o := reg_congr (hxonly .regs (by decide))
  have hxreg : ∀ o, o ≠ CVU_CKP_STATUS.off → x.reg o = m.reg o := fun o ho => by
    rw [hxregs, reg_set_ne (f := CVU_CKP_STATUS_ALL_DIRTY) _ ho, reg_congr (hfonly .regs (by decide))]
  have hall : only [.regs, .marl, .chan, .sett, .prot, .fox] s x :=
    only_trans hmonly (only_trans (only_mono (by simp) hfonly) (only_trans (only_mono (by simp) (only_set _ _)) (only_mono (by simp) hxonly)))
  have hpart : ∀ p, p ∉ [Part.regs, .fox, .sett] → agree p (emptied s) x := by
    exact only_trans (only_mono (by simp) honly) (only_trans (only_mono (by simp) hfonly) (only_trans (only_mono (by simp) (only_set _ _)) (only_mono (by simp) hxonly)))
  have hsett : x.sett = { (emptied s).sett with mapRec := x.sett.mapRec } ∧ x.sett.mapRec.isSome = true := by
    have h : (f.set CVU_CKP_STATUS_ALL_DIRTY 1).sett = (emptied s).sett :=
      ((only_set _ _ .sett (by decide)).trans (hfonly .sett (by decide))).trans (honly .sett (by decide))
    rw [← hx, hlose, ← h]
    exact ⟨rfl, rfl⟩
  have hheld : s.mapHeld GLB_MEM_CFG.off = false := by
    have : (s.marl.lines.any fun e => e.2.st == .dirty && s.lineStuck e.1) = false := List.any_eq_false.mpr fun e he => by simp [hclean e he]
    simp [State.mapHeld, this]
  obtain ⟨hup, hlim, hopen, hcalm⟩ := takes_parts ht
  have hw := pathWrite_legal_answered (via := via) (b := .glb) (o := 0x40) (t := x) rfl hlegal hup (hlim.elim .inl fun h => .inr (.inl h)) (.inr hopen) hheld
    (fun d _ => atOnce_ok (applyWrite_memCfg d) (by rw [memCfgWrite_clean hl hq hp hr hclean, hm, hx]))
    (by rw [noteResult_of_ne (by decide) (by decide), calm_of (hall .pwr (by decide)) (hall .flt (by decide)), hcalm])
  rw [noteResult_of_ne (by decide) (by decide)] at hw
  have hst : ∀ p, p ∉ [Part.acc] → agree p x (x.pathStatus via stOK) := only_pathStatus via stOK
  refine ⟨_, congrArg Host.Outcome.next hw, ?_, ?_, ?_, ?_, ?_, fun c hc => ⟨?_, ?_, ?_⟩, ?_, ?_, taken_of_only hall (by decide)⟩
  · rw [pathStatus_reg, hxreg _ (by decide), hcfg]
  · rw [pathStatus_marl, show x.marl = (emptied s).marl from hpart .marl (by decide)]
    rfl
  · rw [show (x.pathStatus via stOK).chan = x.chan from hst .chan (by decide), show x.chan = (emptied s).chan from hpart .chan (by decide)]
    rfl
  · rw [show (x.pathStatus via stOK).sett = x.sett from hst .sett (by decide), hsett.1]
    rfl
  · rw [show (x.pathStatus via stOK).sett = x.sett from hst .sett (by decide), hsett.2]
  · rw [pathStatus_fld, State.fld, hxreg _ (by simp only [CHAN_STATUS_RETIRED, CVU_CKP_STATUS]; omega), ← State.fld, hret c hc]
  · rw [pathStatus_reg, hxreg _ (by simp only [CHAN_REBUILD, CVU_CKP_STATUS]; omega), hregs _ (by
      simp only [mapReg, CHAN_REBUILD, GLB_MEM_CFG, GLB_MEM_STATUS, CVU_CKP_GRANULES, CVU_CKP_STATUS, CHAN_STATUS]
      omega)]
  · rw [pathStatus_reg, hxreg _ (by simp only [CHAN_REBUILD_PTR, CVU_CKP_STATUS]; omega), hregs _ (by
      simp only [mapReg, CHAN_REBUILD_PTR, GLB_MEM_CFG, GLB_MEM_STATUS, CVU_CKP_GRANULES, CVU_CKP_STATUS, CHAN_STATUS]
      omega)]
  · rw [pathStatus_fox, show x.fox = (f.set CVU_CKP_STATUS_ALL_DIRTY 1).fox from hxonly .fox (by decide)]
    exact (only_set _ _ .fox (by decide)).trans hffox
  · rw [pathStatus_fld, fld_congr (hxonly .regs (by decide))]
    exact fld_set_fits (by decide) (by decide) (by decide)

/-! ## PASR (R249) -/

theorem blkOf_chan {k : Nat} (hc : c < 32) (hk : k < 0x1000) : blkOf (0x60000 + 0x1000 * c + k) = some (.chan, 0x1000 * c + k) := by
  simp only [blkOf]
  grind

theorem blkOf_pasr (hc : c < 32) : blkOf (CHAN_PASR c).off = some (.chan, 0x1000 * c + 0x10) := by
  rw [← blkOf_chan hc (by decide)]
  congr 1
  simp only [CHAN_PASR]
  omega

theorem pasr_noNote : (CHAN_PASR c).off ≠ FLT_ACK.off ∧ (CHAN_PASR c).off ≠ FLT_INJ.off ∧ (CHAN_PASR c).off ≠ GLB_MEM_CFG.off := by
  simp only [CHAN_PASR, FLT_ACK, FLT_INJ, GLB_MEM_CFG]
  omega

theorem applyWrite_pasr (d : RegDesc) : s.applyWrite via .chan (CHAN_PASR c).off (0x1000 * c + 0x10) v d = s.pasrWrite via c v := by
  have h : (0x1000 * c + 0x10) % 0x1000 = 0x010 ∧ (0x1000 * c + 0x10) / 0x1000 = c := by omega
  simp only [State.applyWrite, h]

theorem chanPasr_fusedOff {c : BitVec 5} {w : BitVec 32} (ht : s.takes via .chan = true) (hlegal : s.legal (CHAN_PASR c.toNat).off w.toNat = true) (hc : s.nChans ≤ c.toNat) :
    ∃ t, exec (.chanPasrWrite via c w) s = .next t ∧ t = (s.inc GLB_CNT_VIOL_RANGE).pathStatus via stRANGE := by
  obtain ⟨hup, hlim, hopen, hcalm⟩ := takes_parts ht
  have hreg := regWrite_legal (via := via) (r := some stRANGE) (t := s.inc GLB_CNT_VIOL_RANGE) (blkOf_pasr c.isLt) hlegal hopen ⟨pasr_noNote.1, pasr_noNote.2.1⟩
    (fun d => by rw [applyWrite_pasr, State.pasrWrite, if_pos hc])
  exact ⟨_, congrArg Host.Outcome.next (pathWrite_answered hup hlim (mapHeld_of_ne pasr_noNote.2.2) hreg hcalm), rfl⟩

theorem chn_setChn_same (x : Chan) : (s.setChn c x).chn c = x := mgetD_mput_same _ _ _ _

theorem chn_setChn_ne {k : Nat} (h : k ≠ c) (x : Chan) : (s.setChn c x).chn k = s.chn k := mgetD_mput_ne h _ _ _

theorem chn_congr (h : t.chan = s.chan) (k : Nat) : t.chn k = s.chn k := by rw [State.chn, State.chn, h]

/-- A channel changes with its group. -/
theorem mem_pasrSet : c ∈ s.pasrSet c := by
  unfold State.pasrSet
  split
  · exact List.mem_map.mpr ⟨c % 8, List.mem_range.mpr (Nat.mod_lt _ (by decide)), Nat.div_add_mod c 8⟩
  · exact List.mem_singleton_self c

theorem startPasr_only (f : Nat) (a : Asker) : only [.regs, .chan] s (s.startPasr c f a) :=
  only_each fun _ x => only_trans (only_mono (by simp) (only_setChn x _)) (only_mono (by simp) (only_set _ _))

/-- The channel waits for its new fraction, and its asker for the answer. -/
def PasrBegun (c f : Nat) (a : Asker) (t : State) : Prop := t.fld (CHAN_STATUS_STATE c) = 5 ∧ (t.chn c).pasrNew = some f ∧ (t.chn c).pasrAsker = some a

theorem startPasr_begun (f : Nat) (a : Asker) : PasrBegun c f a (s.startPasr c f a) := by
  have hmake : ∀ u : State, PasrBegun c f a ((u.setChn c { u.chn c with pasrNew := some f, pasrAsker := if c = c then some a else none }).set (CHAN_STATUS_STATE c) 5) := fun u => by
    have hchn : ((u.setChn c { u.chn c with pasrNew := some f, pasrAsker := if c = c then some a else none }).set (CHAN_STATUS_STATE c) 5).chn c = { u.chn c with pasrNew := some f, pasrAsker := some a } := by
      rw [chn_congr (only_set _ _ .chan (by decide)), chn_setChn_same, if_pos rfl]
    exact ⟨fld_set_fits (by decide : 0 ≤ 3) (by decide : 3 < 32) (by decide : 5 < 2 ^ 4), by rw [hchn], by rw [hchn]⟩
  refine each_reaches mem_pasrSet hmake fun u x h => ?_
  by_cases hx : x = c
  · subst hx
    exact hmake u
  · obtain ⟨hst, hnew, hask⟩ := h
    have hchn : ((u.setChn x { u.chn x with pasrNew := some f, pasrAsker := if x = c then some a else none }).set (CHAN_STATUS_STATE x) 5).chn c = u.chn c := by
      rw [chn_congr (only_set _ _ .chan (by decide)), chn_setChn_ne (Ne.symm hx)]
    refine ⟨?_, by rw [hchn, hnew], by rw [hchn, hask]⟩
    rw [fld_set_ne _ (by simp only [CHAN_STATUS_STATE]; omega)]
    exact hst

theorem chanPasr_begun {c : BitVec 5} {w : BitVec 32} (ht : s.takes via .chan = true) (hlegal : s.legal (CHAN_PASR c.toNat).off w.toNat = true) (hc : c.toNat < s.nChans)
    (href : s.pasrRefused c.toNat = false) :
    ∃ t, exec (.chanPasrWrite via c w) s = .next t ∧ t.fld (CHAN_STATUS_STATE c.toNat) = 5 ∧ (t.chn c.toNat).pasrNew = some (w.toNat % 8) ∧ (t.chn c.toNat).pasrAsker = some (.reg via)
        ∧ t.acc = { s.acc with owed := s.acc.owed ++ [{ off := (CHAN_PASR c.toNat).off, via := via, hdr := none }] } ∧ only [.regs, .chan, .acc] s t := by
  obtain ⟨hup, hlim, hopen, hcalm⟩ := takes_parts ht
  have honly := startPasr_only (s := s) (c := c.toNat) (w.toNat % 8) (.reg via)
  obtain ⟨hst, hnew, hask⟩ := startPasr_begun (s := s) (c := c.toNat) (w.toNat % 8) (.reg via)
  obtain ⟨t, htd⟩ : ∃ t, s.startPasr c.toNat (w.toNat % 8) (.reg via) = t := ⟨_, rfl⟩
  rw [htd] at honly hst hnew hask
  have hreg := regWrite_legal (via := via) (r := none) (t := t) (blkOf_pasr c.isLt) hlegal hopen ⟨pasr_noNote.1, pasr_noNote.2.1⟩
    (fun d => by rw [applyWrite_pasr, State.pasrWrite, if_neg (Nat.not_le.mpr hc), href, htd, if_neg Bool.false_ne_true])
  have hacc : t.acc = s.acc := honly .acc (by decide)
  refine ⟨_, congrArg Host.Outcome.next (pathWrite_owed ht (mapHeld_of_ne pasr_noNote.2.2) hreg ((calm_of (honly .pwr (by decide)) (honly .flt (by decide))).trans hcalm)), hst, hnew, hask, ?_, ?_⟩
  · rw [← hacc]
  · exact only_trans (only_mono (by simp) honly) (only_mono (by simp) (only_acc _))

/-! ## The mechanical profile (R266) -/

theorem vcpMech_taken {w : BitVec 32} (ht : s.takes via .vcp = true) (hlegal : s.legal VCP_MECH.off w.toNat = true) (hphase : s.phase = 3 ∨ s.phase = 0xA) :
    ∃ t, exec (.vcpMechWrite via w) s = .next t ∧ t.fld VCP_MECH_PROFILE = bitsOf w.toNat 1 0 ∧ t.fld VCP_MECH_FUSED = s.fld VCP_MECH_FUSED ∧ regsBut [VCP_MECH.off] s t ∧ taken via [] s t := by
  have hrule : s.mechWrite w.toNat = (stOK, s.set VCP_MECH_PROFILE (bitsOf w.toNat 1 0)) := if_pos hphase
  obtain ⟨hw, hregs, htaken⟩ := takes_rule (via := via) (l := []) (offs := [VCP_MECH.off]) (t := s.set VCP_MECH_PROFILE (bitsOf w.toNat 1 0)) (b := .vcp) (o := 0x0) rfl hlegal ht (by decide)
    (fun d => atOnce_ok rfl hrule) (only_set _ _) (regsBut_set (by decide)) (by decide)
  refine ⟨_, congrArg Host.Outcome.next hw, ?_, ?_, hregs, htaken⟩
  · rw [pathStatus_fld]
    exact fld_set_fits (by decide) (by decide) (Nat.mod_lt _ (by decide))
  · rw [pathStatus_fld]
    exact fld_set_disjoint s (by decide) (by decide) (.inl (by decide)) _

/-! ## The commit of staged rates (R288) -/

/-- The registers that a commit moves beside its own status: the active table, the division, and the counters of the recorder. -/
def rateReg (o : Nat) : Prop := recReg o ∨ 0x7008 ≤ o ∧ o < 0x8000

theorem lowerLargest_length (l : List Nat) : (lowerLargest l).length = l.length := by simp [lowerLargest]

theorem capSum_length (n : Nat) (l : List Nat) : (capSum n l).length = l.length := by
  induction n generalizing l with
  | zero => rfl
  | succ n ih =>
    unfold capSum
    split
    · rw [ih, lowerLargest_length]
    · rfl

theorem divideEntries_length (d sum : Nat) (f rate : Nat → Nat) : (divideEntries d sum f rate).length = 64 := by simp [divideEntries, capSum_length]

theorem enum_fst_lt {α : Type} {l : List α} {e : Nat × α} (h : e ∈ enum l) : e.1 < l.length := List.mem_range.mp (List.of_mem_zip h).1

theorem rate_set {f : Fld} {x : Nat} (hf : 0x7008 ≤ f.off ∧ f.off < 0x8000) : Frame [.regs, .recd, .sett] rateReg t (t.set f x) := .set (by simp) (.inr hf)

theorem rate_event (code unit w0 w1 : Nat) : Frame [.regs, .recd, .sett] rateReg t (t.event code 1 unit w0 w1) :=
  (event_frame code (by decide) unit w0 w1).mono (by simp) fun _ => .inl

theorem divide_frame : Frame [.regs, .recd, .sett] rateReg s s.divide := by
  have hres : Frame [.regs, .recd, .sett] rateReg s ((s.each (enum (divideEntries s.qos.d (s.fld QOS_COMMITTED) s.activeMap s.activeRate)) fun u e => u.setReg (QOS_RES e.1).off e.2)) := by
    refine .each fun _ e he => .setReg (by simp) (.inr ?_)
    have := divideEntries_length s.qos.d (s.fld QOS_COMMITTED) s.activeMap s.activeRate ▸ enum_fst_lt he
    simp only [QOS_RES]
    omega
  unfold State.divide
  refine .ite ?_ (.ite ?_ ?_)
  · exact ((hres.trans (rate_set (by decide))).trans ((rate_set (by decide)).trans (rate_set (by decide)))).trans (rate_event _ _ _ _)
  · exact ((hres.trans (rate_set (by decide))).trans (rate_set (by decide))).trans (rate_event _ _ _ _)
  · exact hres.trans (rate_set (by decide))

theorem activate_frame : Frame [.regs, .recd, .sett, .qos] rateReg s s.activate := by
  have hqos : ∀ (u : State) (x : QosSt), Frame [.regs, .recd, .sett, .qos] rateReg u { u with qos := x } := fun _ x => .of_only (only_qos x) (by simp) (by simp)
  have hset : ∀ (u : State) (f : Fld) (x : Nat), (0x7008 ≤ f.off ∧ f.off < 0x8000) → Frame [.regs, .recd, .sett, .qos] rateReg u (u.set f x) := fun _ _ _ hf => .set (by simp) (.inr hf)
  unfold State.activate
  refine Frame.trans (Frame.trans (Frame.trans (Frame.trans (Frame.trans (hqos s _) (.each fun u n hn => ?_)) (hqos _ _)) (hqos _ _)) (hset _ _ _ (by decide))) (divide_frame.mono (by simp) fun _ h => h)
  have := List.mem_range.mp hn
  exact Frame.trans (.setReg (by simp) (.inr (by simp only [QOS_LABEL_ACT]; omega))) (.setReg (by simp) (.inr (by simp only [QOS_GROUP_ACT]; omega)))

/-- What a commit shows, and the parts that it can change. -/
theorem commit_shows (hready : s.ready = true) (hgroups : ∀ g < 64, (groupClasses s.stagedMap g).eraseDups.length ≤ 1) :
    ∃ r t, s.commit = (r, t) ∧ r ≠ stSTATE ∧ only [.regs, .recd, .sett, .qos] s t
      ∧ t.fld QOS_COMMIT_STATUS_VALID = 1 ∧ t.fld QOS_COMMIT_STATUS_RESULT_SEQ = (s.fld QOS_COMMIT_STATUS_RESULT_SEQ + 1) % 256
      ∧ t.fld QOS_COMMIT_STATUS_RESULT = (if s.qos.d < 200 * committedSum s.stagedMap s.stagedRate then 0x0A else 0) := by
  have hone : ((List.range 64).any fun g => (groupClasses s.stagedMap g).eraseDups.length > 1) = false :=
    List.any_eq_false.mpr fun g hg => by simpa using hgroups g (List.mem_range.mp hg)
  -- the table is active, or the violation counted; then the result is shown
  obtain ⟨r, x, hx, hr, hframe⟩ : ∃ (r : BitVec 8) (x : State),
      s.commit = (r, x.sets [(QOS_COMMIT_STATUS_VALID, 1), (QOS_COMMIT_STATUS_RESULT_SEQ, x.fld QOS_COMMIT_STATUS_RESULT_SEQ + 1), (QOS_COMMIT_STATUS_RESULT, r.toNat)])
      ∧ r = (if s.qos.d < 200 * committedSum s.stagedMap s.stagedRate then stOVERCOMMIT else stOK) ∧ Frame [.regs, .recd, .sett, .qos] rateReg s x := by
    by_cases hover : s.qos.d < 200 * committedSum s.stagedMap s.stagedRate
    · refine ⟨stOVERCOMMIT, s.viol QOS_COMMIT.off .state, ?_, (if_pos hover).symm, .setReg (by simp) (.inr (by decide))⟩
      simp only [State.commit, hready, hone, gt_iff_lt, hover, Bool.not_true, Bool.false_eq_true, if_false, if_true]
    · refine ⟨stOK, s.activate, ?_, (if_neg hover).symm, activate_frame⟩
      simp only [State.commit, hready, hone, gt_iff_lt, hover, Bool.not_true, Bool.false_eq_true, if_false]
  have hres : r.toNat = if s.qos.d < 200 * committedSum s.stagedMap s.stagedRate then 0x0A else 0 := by
    rw [hr]
    by_cases hover : s.qos.d < 200 * committedSum s.stagedMap s.stagedRate
    · rw [if_pos hover, if_pos hover]
      decide
    · rw [if_neg hover, if_neg hover]
      decide
  have hseq : x.fld QOS_COMMIT_STATUS_RESULT_SEQ = s.fld QOS_COMMIT_STATUS_RESULT_SEQ := hframe.fld (by unfold rateReg recReg; decide)
  have hr256 : r.toNat < 2 ^ 8 := r.isLt
  have hne : r ≠ stSTATE := by
    rw [hr]
    by_cases hover : s.qos.d < 200 * committedSum s.stagedMap s.stagedRate
    · rw [if_pos hover]
      decide
    · rw [if_neg hover]
      decide
  refine ⟨r, _, hx, hne, only_trans hframe.parts (only_mono (by simp) (only_sets _)), ?_⟩
  rw [← hres, ← hseq, sets_cons, sets_cons, sets_cons, sets_nil]
  generalize x.fld QOS_COMMIT_STATUS_RESULT_SEQ = q
  generalize r.toNat = k at hr256
  refine ⟨?_, ?_, fld_set_fits (f := QOS_COMMIT_STATUS_RESULT) (by decide) (by decide) hr256⟩
  · rw [fld_set_disjoint (f := QOS_COMMIT_STATUS_RESULT) _ (by decide) (by decide) (.inl (by decide)), fld_set_disjoint (f := QOS_COMMIT_STATUS_RESULT_SEQ) _ (by decide) (by decide) (.inl (by decide))]
    exact fld_set_fits (by decide) (by decide) (by decide)
  · rw [fld_set_disjoint (f := QOS_COMMIT_STATUS_RESULT) _ (by decide) (by decide) (.inl (by decide))]
    exact fld_set_same (f := QOS_COMMIT_STATUS_RESULT_SEQ) _ (by decide) (by decide) _

theorem applyWrite_qosCommit (d : RegDesc) : s.applyWrite via .qos QOS_COMMIT.off 0x0 v d = atOnce (s.commitWrite v) := rfl

theorem rsvdValue_qosCommit : s.rsvdValue .qos QOS_COMMIT.off 0x0 v = false := rfl

theorem qosCommit_taken (ht : s.takes via .qos = true) (hl : s.locked = false) (hready : s.ready = true) (hgroups : ∀ g < 64, (groupClasses s.stagedMap g).eraseDups.length ≤ 1) :
    ∃ t, exec (.qosCommitGo via) s = .next t ∧ t.fld QOS_COMMIT_STATUS_VALID = 1 ∧ t.fld QOS_COMMIT_STATUS_RESULT_SEQ = (s.fld QOS_COMMIT_STATUS_RESULT_SEQ + 1) % 256
        ∧ t.fld QOS_COMMIT_STATUS_RESULT = (if s.qos.d < 200 * committedSum s.stagedMap s.stagedRate then 0x0A else 0) := by
  obtain ⟨r, t, hcommit, hne, honly, hvalid, hseq, hres⟩ := commit_shows hready hgroups
  have hrule : s.commitWrite 1 = (stOK, t) := by
    have h1 : bitAt 1 0 = true := by decide
    simp only [State.commitWrite, h1, hcommit, hne, Bool.not_true, Bool.false_eq_true, if_false]
  have hw := pathWrite_legal (via := via) (t := t) (b := .qos) (o := 0x0) rfl (legal_of_openWord rfl (by decide +kernel) rsvdValue_qosCommit rfl hl) ht (by decide)
    (fun d _ => atOnce_ok (applyWrite_qosCommit d) hrule) (calm_of (honly .pwr (by decide)) (honly .flt (by decide)))
  exact ⟨_, congrArg Host.Outcome.next hw, by rw [pathStatus_fld, hvalid], by rw [pathStatus_fld, hseq], by rw [pathStatus_fld, hres]⟩

/-- Settles O5, register by register. -/
theorem memoryWrites : Obligations.MemoryWrites :=
  fun _ _ _ => ⟨fun _ => marlFlush_taken, quiesceSet_taken, quiesceClear_taken, marlPart_taken, memCfg_taken, fun _ => chanPasr_fusedOff, fun _ => chanPasr_begun, vcpMech_taken, qosCommit_taken⟩

end Sys2Proof.Proofs
end

section
/-! SUPPORT. Packets that the stack serves (R191, R197, R302, R336): what taking a packet in leaves, SVC requests and doorbells. -/

namespace Sys2Proof.Proofs

set_option Elab.async false

open Sys2Proof.Machine Sys2Proof.Laws

variable {s t u : State} {p : Packet}

/-! ## Activity of a stack that is not in S1 (R83) -/

/-- Nothing of S1 is under way. -/
def Stirred (s : State) : Prop := s.sleep ≠ 1 ∧ s.pwr.s1Req = false

theorem activity_stirred (h : Stirred s) : s.activity = s := by
  obtain ⟨hs, hr⟩ := h
  unfold State.activity
  simp [hs, hr]

theorem stirred_activity (s : State) : Stirred s.activity := by
  have hwake : ∀ x : State, x.sleep ≠ 1 → (({ x with pwr := { x.pwr with s1Req := false } } : State).set GLB_PWR_STATUS_TARGET 0).sleep ≠ 1 := fun x hx => by
    rw [State.sleep, fld_set_disjoint _ (by decide) (by decide) (.inr (by decide))]
    exact hx
  have hzero : (s.set GLB_PWR_STATUS_STATE 0).sleep ≠ 1 := by
    rw [State.sleep, fld_set_fits (by decide) (by decide) (by decide)]
    decide
  unfold State.activity
  by_cases h1 : s.sleep = 1
  · rw [if_pos h1]
    dsimp only
    split
    next => exact ⟨hwake _ hzero, rfl⟩
    next h => exact ⟨hzero, by simpa using h⟩
  · rw [if_neg h1]
    dsimp only
    split
    next => exact ⟨hwake _ h1, rfl⟩
    next h => exact ⟨h1, by simpa using h⟩

theorem stirred_brought (s : State) (p : Packet) : Stirred (s.brought p) := stirred_activity _

/-- S1 is a matter of the power state and its register. -/
theorem stirred_of (hreg : t.reg GLB_PWR_STATUS.off = s.reg GLB_PWR_STATUS.off) (hpwr : t.pwr = s.pwr) (h : Stirred s) : Stirred t := by
  have hsleep : t.sleep = s.sleep := by
    rw [State.sleep, State.sleep, State.fld, State.fld]
    exact congrArg (bitsOf · _ _) hreg
  exact ⟨hsleep ▸ h.1, by rw [hpwr, h.2]⟩

/-! ## SVC and doorbells (R336, R302) -/

theorem mayEnter_parts (h : s.mayEnter p = true) :
    s.serves p = true ∧ (s.withLocal p).1.overtakes (s.withLocal p).2 (s.held p) = false ∧ (s.held p).bad = false := by
  simp only [State.mayEnter, State.isNext, Bool.and_eq_true, Bool.not_eq_true'] at h
  exact ⟨h.1, h.2.1, h.2.2⟩

theorem svc_queued (hin : s.mayEnter p = true) (hu : s.brought p = u) (hroom : (s.withLocal p).1.rspRoom 1 = true)
    (hpool : (s.withLocal p).1.svcUsed + p.payload.length ≤ (s.withLocal p).1.denBytes / 4) (hcheck : u.svcCheck p = none) :
    exec (.svc p) s = .next { u.incPair FOX_SVC_RX_LO 1 with fox := { u.fox with svcQueue := u.fox.svcQueue ++ [p], svcNums := u.fox.svcNums ++ [u.nextTxn] }, nextTxn := u.nextTxn + 1 } := by
  obtain ⟨hserves, hover, hbad⟩ := mayEnter_parts hin
  subst hu
  rw [State.held] at hover hbad
  rw [State.brought] at hcheck ⊢
  show execSvc p s = _
  simp [execSvc, hserves, hover, hbad, hroom, Nat.not_lt.mpr hpool, hcheck]

theorem dbell_taken (hin : s.mayEnter p = true) (hu : s.brought p = u) (hform : p.okForm = true) (hstate : u.stateCheck = none) (howner : p.hdr.src = u.ringEid (p.hdr.subop.toNat % 64))
    (hactive : u.ringSt (p.hdr.subop.toNat % 64) = 1) : exec (.dbell p) s = .next (u.newP (p.hdr.subop.toNat % 64) p.hdr.addr.toNat) := by
  obtain ⟨hserves, hover, hbad⟩ := mayEnter_parts hin
  subst hu
  rw [State.held] at hover hbad
  rw [State.brought] at hstate howner hactive ⊢
  show execDbell p s = _
  simp [execDbell, hserves, hover, hbad, hform, State.doorbell, hstate, ← howner, hactive]

/-- A value of P that the ring can take. -/
theorem newP_taken {n v : Nat} (hq : Stirred s) (hv : v < 2 ^ 32) (hk : idxSub v (s.ringK n) ≤ s.sqLen n) (hf : idxSub v (s.ringF n) ≤ s.sqLen n) :
    (s.newP n v).ringK n = v ∧ regsBut [(RING_SQ_PROD n).off] s (s.newP n v) ∧ only [.regs] s (s.newP n v) := by
  have hset : Stirred (s.set (RING_SQ_PROD n) v) := stirred_of (s := s) (reg_set_ne s (by simp only [RING_SQ_PROD, GLB_PWR_STATUS]; omega) v) (only_set _ _ .pwr (by decide)) hq
  rw [State.newP, if_pos ⟨hk, hf⟩, Nat.mod_eq_of_lt hv, activity_stirred hset]
  split
  next h => exact ⟨h.symm, regsBut_refl _ _, only_refl _ _⟩
  next => exact ⟨fld_set_fits (by decide : 0 ≤ 31) (by decide : 31 < 32) hv, regsBut_set (List.mem_singleton_self _), only_set _ _⟩

/-- Settles O29: both requests pass the checks of R197, and what remains is the queue and the ring's index. -/
theorem serviceRequests : Obligations.ServiceRequests := by
  intro p s u hin hu
  refine ⟨fun hroom hpool hcheck => ?_, fun hform hstate howner hactive haddr hk hf => ?_⟩
  · obtain ⟨w, hw⟩ : ∃ w : State, ({ u.incPair FOX_SVC_RX_LO 1 with fox := { u.fox with svcQueue := u.fox.svcQueue ++ [p], svcNums := u.fox.svcNums ++ [u.nextTxn] }, nextTxn := u.nextTxn + 1 } : State) = w :=
      ⟨_, rfl⟩
    have hregs : w.regs = (u.incPair FOX_SVC_RX_LO 1).regs := by rw [← hw]
    have honly : only [.fox, .nextTxn] (u.incPair FOX_SVC_RX_LO 1) w := by
      rw [← hw]
      intro q hq
      cases q
      case fox | nextTxn => simp at hq
      all_goals rfl
    refine ⟨w, hw ▸ svc_queued hin hu hroom hpool hcheck, by rw [← hw], by rw [← hw], ?_, ?_, ?_⟩
    · rw [pair_congr hregs, pair_incPair_same]
    · exact regsBut_trans (regsBut_incPair (by decide) (by decide)) (regsBut_of_regs hregs)
    · exact only_trans (only_mono (by simp) only_incPair) (only_mono (by simp) honly)
  · obtain ⟨hring, hregs, honly⟩ := newP_taken (hu ▸ stirred_brought s p) haddr hk hf
    exact ⟨_, dbell_taken hin hu hform hstate howner hactive, hring, hregs, honly⟩

end Sys2Proof.Proofs
end

section
/-! SUPPORT. Answers to the stack's own requests (R199, R207, R334): what becomes of an access of an engine that is answered. -/

namespace Sys2Proof.Proofs

set_option Elab.async false

open Sys2Proof.Machine Sys2Proof.Laws

variable {s t u : State} {p : Packet} {q : OutReq} {e acc : Nat} {g : Run} {a : Nat × Acc}

theorem eng_setEng_same (x : Engine) : (s.setEng e x).eng e = x := mgetD_mput_same _ _ _ _

theorem eng_setEng_ne {k : Nat} (h : k ≠ e) (x : Engine) : (s.setEng e x).eng k = s.eng k := mgetD_mput_ne h _ _ _

/-- An access of the engine that is open gets its answer. -/
def Answered (e acc : Nat) (g : Run) (status : BitVec 8) (s t : State) : Prop :=
  ∃ r x, (t.eng e).run = some r ∧ r.answers = g.answers ++ [(acc, x)] ∧ x.status = status ∧ r.opened = g.opened.filter (fun o => o.1 != acc)
    ∧ (∀ n, n ≠ e → t.eng n = s.eng n) ∧ t.fox.outs = s.fox.outs ∧ only [.fox] s t

theorem engAnswer_answered (hrun : (s.eng e).run = some g) (hopen : g.opened.find? (fun o => o.1 == acc) = some a) (x : AccAns) : Answered e acc g x.status s (s.engAnswer e acc x) := by
  simp only [State.engAnswer, hrun, hopen]
  refine ⟨_, _, congrArg Engine.run (eng_setEng_same _), rfl, ?_, rfl, fun n hn => eng_setEng_ne hn _, rfl, only_setEng _ _⟩
  rfl

/-- The end of an outstanding request of a stage: its TAG is free, and the engine has the answer. -/
theorem ownAnswered_stage (hunsent : s.fox.unsent = []) (howner : q.owner = .stage e acc) (hrun : (s.eng e).run = some g) (hopen : g.opened.find? (fun o => o.1 == acc) = some a)
    (status : BitVec 8) (data : List (BitVec 8)) (remote : Bool) :
    ∃ r x, ((s.ownAnswered q status data remote).eng e).run = some r ∧ r.answers = g.answers ++ [(acc, x)] ∧ x.status = status ∧ r.opened = g.opened.filter (fun o => o.1 != acc)
      ∧ (∀ n, n ≠ e → (s.ownAnswered q status data remote).eng n = s.eng n) ∧ (s.ownAnswered q status data remote).fox.outs = s.fox.outs.filter (fun o => o.tag != q.tag)
      ∧ only [.fox] s (s.ownAnswered q status data remote) := by
  obtain ⟨v, hv⟩ : ∃ v : State, ({ s with fox := { s.fox with outs := s.fox.outs.filter fun x => x.tag != q.tag } } : State) = v := ⟨_, rfl⟩
  have hfox : v.fox = { s.fox with outs := s.fox.outs.filter fun x => x.tag != q.tag } := by rw [← hv]
  have heng : ∀ n, v.eng n = s.eng n := fun n => by
    rw [State.eng, State.eng, hfox]
  have honly : only [.fox] s v := hv ▸ only_fox _
  have hsend : v.sendUnsent = v := by
    unfold State.sendUnsent
    rw [hfox]
    simp only [hunsent]
  obtain ⟨d, hd⟩ : ∃ d, s.ownAnswered q status data remote = v.engAnswer e acc { status := status, data := data, detail := d, remote := remote } := by
    unfold State.ownAnswered
    simp only [hv, hsend, howner]
    exact ⟨_, rfl⟩
  rw [hd]
  obtain ⟨r, x, hr, hans, hst, hop, hothers, houts, hparts⟩ := engAnswer_answered (s := v) (by rw [heng, hrun]) hopen { status := status, data := data, detail := d, remote := remote }
  exact ⟨r, x, hr, hans, hst, hop, fun n hn => (hothers n hn).trans (heng n), by rw [houts, hfox], only_trans honly hparts⟩

/-- A response that the stack takes in and that matches a request: it is judged, and the request ends. -/
theorem takeResponse_matched (hlive : s.live = true) (hdst : p.hdr.dst = s.eid) (hnext : s.isNext p = true) (hu : (s.withLocal p).1.takeIn (s.withLocal p).2 = u)
    (hfind : u.fox.outs.find? (fun o => o.matches p.hdr) = some q) :
    s.takeResponse p = if rspOpc q.pkt.hdr.opc == some p.hdr.opc && packetStatuses.contains p.hdr.status && rspLenOk q.pkt.hdr p.hdr.status p.hdr.len.toNat then
          u.ownAnswered q p.hdr.status p.payload (p.hdr.src != u.eid)
        else (u.inc GLB_CNT_VIOL_MALFORMED).ownAnswered q stMALFORMED [] (p.hdr.src != u.eid) := by
  simp only [State.isNext, Bool.and_eq_true, Bool.not_eq_true'] at hnext
  obtain ⟨hover, hbad⟩ := hnext
  rw [State.held] at hover hbad
  unfold State.takeResponse
  simp only [hlive, hdst, hover, hbad, hu, hfind, beq_self_eq_true, Bool.and_self, Bool.not_true, Bool.false_eq_true, if_false]

theorem takeResponse_unmatched (hlive : s.live = true) (hdst : p.hdr.dst = s.eid) (hnext : s.isNext p = true) (hu : (s.withLocal p).1.takeIn (s.withLocal p).2 = u)
    (hfind : u.fox.outs.find? (fun o => o.matches p.hdr) = none) : s.takeResponse p = u.inc GLB_RSP_UNEXPECTED := by
  simp only [State.isNext, Bool.and_eq_true, Bool.not_eq_true'] at hnext
  obtain ⟨hover, hbad⟩ := hnext
  rw [State.held] at hover hbad
  unfold State.takeResponse
  simp only [hlive, hdst, hover, hbad, hu, hfind, beq_self_eq_true, Bool.and_self, Bool.not_true, Bool.false_eq_true, if_false]

/-- The five response instructions take a response. -/
theorem exec_response {c : Instr} (h : c = .rdRsp p ∨ c = .wrAck p ∨ c = .atomRsp p ∨ c = .svcRsp p ∨ c = .mregRsp p) : exec c s = .next (s.takeResponse p) := by
  rcases h with rfl | rfl | rfl | rfl | rfl <;> rfl

theorem eng_congr (h : t.fox = s.fox) (n : Nat) : t.eng n = s.eng n := by rw [State.eng, State.eng, h]

/-- Settles O32: the response is matched, and what the engine gets is said once. -/
theorem ownAnswers : Obligations.OwnAnswers := by
  refine ⟨fun c p q e acc g a s u hc hlive hdst hnext hu hunsent hfind hopc hst hlen howner hrun hopen => ?_,
    fun tag q e acc g a s hlive hunsent hfind howner hrun hopen => ?_,
    fun c p q e acc g a s u hc hlive hdst hnext hu hunsent hfind hbad howner hrun hopen => ?_,
    fun c p s u hc hlive hdst hnext hu hfind => ?_⟩
  · have hresp : c = .rdRsp p ∨ c = .wrAck p ∨ c = .atomRsp p ∨ c = .svcRsp p ∨ c = .mregRsp p := by
      rcases hc with ⟨h, -⟩ | ⟨h, -⟩ | ⟨h, -⟩ | ⟨h, -⟩
      exacts [.inl h, .inr (.inl h), .inr (.inr (.inl h)), .inr (.inr (.inr (.inl h)))]
    obtain ⟨r, x, hr, hans, hstat, hop, hothers, houts, hparts⟩ := ownAnswered_stage hunsent howner hrun hopen p.hdr.status p.payload (p.hdr.src != u.eid)
    refine ⟨_, r, x, ?_, houts, hr, hans, hstat, hop, hothers, hparts⟩
    rw [exec_response hresp, takeResponse_matched hlive hdst hnext hu hfind]
    simp only [hopc, hst, hlen, beq_self_eq_true, Bool.and_self, if_true]
  · obtain ⟨r, x, hr, hans, hstat, hop, hothers, houts, hparts⟩ := ownAnswered_stage hunsent howner hrun hopen 0x0E [] false
    refine ⟨_, r, x, ?_, houts, hr, hans, hstat, hparts⟩
    show execRequestTimeout tag s = _
    simp only [execRequestTimeout, hfind, hlive, if_true]
  · have hcond : (rspOpc q.pkt.hdr.opc == some p.hdr.opc && packetStatuses.contains p.hdr.status && rspLenOk q.pkt.hdr p.hdr.status p.hdr.len.toNat) = false := by
      rcases hbad with h | h | h
      · rw [beq_eq_false_iff_ne.mpr h, Bool.false_and, Bool.false_and]
      · rw [h, Bool.and_false, Bool.false_and]
      · rw [h, Bool.and_false]
    have hinc : only [.regs] u (u.inc GLB_CNT_VIOL_MALFORMED) := only_inc
    have hfox : (u.inc GLB_CNT_VIOL_MALFORMED).fox = u.fox := hinc .fox (by decide)
    obtain ⟨r, x, hr, hans, hstat, hop, hothers, houts, hparts⟩ :=
      ownAnswered_stage (s := u.inc GLB_CNT_VIOL_MALFORMED) (by rw [hfox, hunsent]) howner (by rw [eng_congr hfox, hrun]) hopen stMALFORMED [] (p.hdr.src != u.eid)
    refine ⟨_, r, x, ?_, ?_, by rw [houts, hfox], hr, hans, hstat, ?_, only_trans (only_mono (by simp) hinc) (only_mono (by simp) hparts)⟩
    · rw [exec_response hc, takeResponse_matched hlive hdst hnext hu hfind, hcond, if_neg Bool.false_ne_true]
    · rw [fld_congr (hparts .regs (by decide)), fld_inc_same (by decide) (by decide)]
      rfl
    · exact regsBut_trans (regsBut_inc (by decide)) (regsBut_of_regs (hparts .regs (by decide)))
  · refine ⟨u.inc GLB_RSP_UNEXPECTED, ?_, fld_inc_same (by decide) (by decide), regsBut_inc (by decide), only_inc⟩
    rw [exec_response hc, takeResponse_unmatched hlive hdst hnext hu hfind]

end Sys2Proof.Proofs
end

section
/-! SUPPORT. Routing rests on the identity, the routes and the ports (R161): states that agree there route a packet of the stack's own alike. -/

namespace Sys2Proof.Proofs

set_option Elab.async false

open Sys2Proof.Machine Sys2Proof.Laws

variable {s t u : State}

/-- The two states have the same variant, and the same registers of those that routing reads: the identity, and the blocks RT and PORT. -/
structure RoutesAlike (s t : State) : Prop where
  fuse : t.fuse = s.fuse
  reg : ∀ o, o = 0x10 ∨ 0xC000 ≤ o ∧ o < 0x20000 → t.reg o = s.reg o

namespace RoutesAlike

variable (h : RoutesAlike s t) {p m : Nat}

include h

theorem fld {f : Fld} (hf : f.off = 0x10 ∨ 0xC000 ≤ f.off ∧ f.off < 0x20000) : t.fld f = s.fld f := by rw [State.fld, State.fld, h.reg _ hf]

theorem nPorts : t.nPorts = s.nPorts := by rw [State.nPorts, State.nPorts, State.variant, State.variant, h.fuse]

theorem did : t.did = s.did := h.fld (.inl rfl)

theorem eid : t.eid = s.eid := by rw [State.eid, State.eid, h.did]

theorem members {d : Nat} (hd : d < 3) : t.members d = s.members d := by
  rw [State.members, State.members, h.did, h.fld (by simp only [RT_MEMBERS_MASK]; omega)]

theorem nLinks (hp : p < 32) : t.nLinks p = s.nLinks p := by rw [State.nLinks, State.nLinks, h.fld (by simp only [PORT_LINK_CFG_SPLIT]; omega)]

theorem lst (hp : p < 32) (hm : m < 8) : t.lst p m = s.lst p m := h.fld (by simp only [PORT_LINK_STATUS_STATE]; omega)

theorem dir (hp : p < 32) : t.fld (PORT_CFG_DIR p) = s.fld (PORT_CFG_DIR p) := h.fld (by simp only [PORT_CFG_DIR]; omega)

omit h in
theorem nPorts_le : s.nPorts ≤ 32 := by
  unfold State.nPorts
  split <;> omega

theorem role (p : Nat) : t.role p = s.role p := by
  rw [State.role, State.role, h.nPorts]
  split
  next hp =>
    have := nPorts_le (s := s)
    exact h.fld (by simp only [PORT_ROLE_ROLE]; omega)
  next => rfl

theorem neighbour (hp : p < 32) (hm : m < 8) :
    t.fld (PORT_NEIGH_ID_KIND p m) = s.fld (PORT_NEIGH_ID_KIND p m) ∧ t.fld (PORT_NEIGH_ID_DID p m) = s.fld (PORT_NEIGH_ID_DID p m)
      ∧ t.fld (PORT_NEIGH_ID_ROLE p m) = s.fld (PORT_NEIGH_ID_ROLE p m) ∧ t.on (PORT_NEIGH_ID_VALID p m) = s.on (PORT_NEIGH_ID_VALID p m)
      ∧ t.on (PORT_NEIGH_ID_ECHO_OK p m) = s.on (PORT_NEIGH_ID_ECHO_OK p m) := by
  have hoff : 0xC000 ≤ 0x10140 + 0x800 * p + 4 * m ∧ 0x10140 + 0x800 * p + 4 * m < 0x20000 := by omega
  refine ⟨h.fld (.inr hoff), h.fld (.inr hoff), h.fld (.inr hoff), ?_, ?_⟩
  · rw [State.on, State.on, h.fld (.inr hoff)]
  · rw [State.on, State.on, h.fld (.inr hoff)]

theorem consistent (hp : p < 32) : t.consistent p = s.consistent p := by
  have hx : p ^^^ 1 < 32 := Nat.xor_lt_two_pow (n := 5) hp (by decide)
  rw [State.consistent, State.consistent, h.role, h.role, h.dir hp, h.dir hx]

theorem partnerFits (hp : p < 32) (hm : m < 8) : t.partnerFits p m = s.partnerFits p m := by
  obtain ⟨hkind, hdid, hrole, -, -⟩ := h.neighbour hp hm
  have hdim : dimOfRole (s.role p) < 3 ∨ isFabric (s.role p) = false := by
    simp only [dimOfRole, isFabric]
    by_cases h2 : 2 ≤ s.role p
    · exact .inl (by omega)
    · exact .inr (by simp; omega)
  simp only [State.partnerFits, h.role, hkind, hdid, hrole, h.did]
  rcases hdim with hd | hd
  · rw [h.members hd]
  · simp [hd]

theorem admits0 (hp : p < 32) (m : Nat) : t.admits0 p m = s.admits0 p m := by
  by_cases hm : m < 8
  · obtain ⟨-, -, -, hvalid, hecho⟩ := h.neighbour hp hm
    rw [State.admits0, State.admits0, h.nLinks hp, hvalid, hecho, h.partnerFits hp hm, h.role, h.consistent hp]
  · have hs : ¬ m < s.nLinks p := fun hlt => hm (Nat.lt_of_lt_of_le hlt (nLinks_le s p))
    have ht : ¬ m < t.nLinks p := fun hlt => hm (Nat.lt_of_lt_of_le hlt (nLinks_le t p))
    simp [State.admits0, hs, ht]

theorem firstAdmitted (hp : p < 32) : t.firstAdmitted p = s.firstAdmitted p := by
  rw [State.firstAdmitted, State.firstAdmitted, h.nLinks hp, funext (h.admits0 hp)]

omit h in
theorem admits0_lt (hm : s.admits0 p m = true) : m < 8 := by
  simp only [State.admits0, Bool.and_eq_true, decide_eq_true_eq] at hm
  exact Nat.lt_of_lt_of_le hm.1.1.1.1 (nLinks_le s p)

omit h in
theorem firstAdmitted_lt {k : Nat} (hk : s.firstAdmitted p = some k) : k < 8 := admits0_lt (List.find?_some hk)

theorem admitted (hp : p < 32) (m : Nat) : t.admitted p m = s.admitted p m := by
  rw [State.admitted, State.admitted, h.admits0 hp, h.firstAdmitted hp]
  cases hm : s.admits0 p m with
  | false => rfl
  | true =>
    obtain ⟨hkind, hdid, -, -, -⟩ := h.neighbour hp (admits0_lt hm)
    cases hk : s.firstAdmitted p with
    | none => rfl
    | some k =>
      obtain ⟨hkind', hdid', -, -, -⟩ := h.neighbour hp (firstAdmitted_lt hk)
      simp only [hkind, hdid, hkind', hdid']

omit h in
/-- A port that is not present has no role, and no link of it is admitted. -/
theorem absent (hp : s.nPorts ≤ p) : s.role p = 0 ∧ s.usable p = false := by
  have hrole : s.role p = 0 := if_neg (Nat.not_lt.mpr hp)
  refine ⟨hrole, ?_⟩
  have hfits : ∀ m, s.partnerFits p m = false := fun m => by simp [State.partnerFits, hrole, isFabric]
  have hgood : s.goodLinks p = [] := List.filter_eq_nil_iff.mpr fun m _ => by simp [State.admitted, State.admits0, hfits]
  simp [State.usable, hgood]

theorem usable (p : Nat) : t.usable p = s.usable p := by
  have hle := nPorts_le (s := s)
  by_cases hp : p < s.nPorts
  · have hgood : t.goodLinks p = s.goodLinks p := by
      rw [State.goodLinks, State.goodLinks, h.nLinks (by omega)]
      refine List.filter_congr fun m hm => ?_
      rw [h.admitted (by omega), h.lst (by omega) (Nat.lt_of_lt_of_le (List.mem_range.mp hm) (nLinks_le s p))]
    rw [State.usable, State.usable, hgood]
  · rw [(absent (s := s) (Nat.le_of_not_lt hp)).2, (absent (s := t) (h.nPorts ▸ Nat.le_of_not_lt hp)).2]

theorem partnerField (hp : p < 32) : t.partnerField p = s.partnerField p := by
  rw [State.partnerField, State.partnerField, h.firstAdmitted hp, h.role]
  cases hk : s.firstAdmitted p with
  | none => rfl
  | some k => simp only [Option.map_some, (h.neighbour hp (firstAdmitted_lt hk)).2.1]

omit h in
/-- A fabric role is a present port's. -/
theorem fabric_lt (hr : isFabric (s.role p) = true) : p < 32 := by
  have hle := nPorts_le (s := s)
  by_contra hp
  have := (absent (s := s) (p := p) (by omega)).1
  simp [this, isFabric] at hr

theorem skipMask (p : Nat) : t.skipMask p = s.skipMask p := by
  rw [State.skipMask, State.skipMask, h.role, h.did]
  cases hr : isFabric (s.role p) with
  | false => rfl
  | true => rw [h.partnerField (fabric_lt hr), h.dir (fabric_lt hr)]

theorem dateline (p : Nat) : t.dateline p = s.dateline p := by
  rw [State.dateline, State.dateline, h.role, h.did]
  cases hr : isFabric (s.role p) with
  | false => rfl
  | true =>
    have hp := fabric_lt hr
    rw [h.partnerField hp, h.dir hp, h.fld (f := PORT_CFG_DL_MODE p) (by simp only [PORT_CFG_DL_MODE]; omega)]

theorem routeForward (q : Packet) (x k : Nat) (reset : Bool) : t.routeForward q x k reset = s.routeForward q x k reset := by
  simp only [State.routeForward, h.usable, h.skipMask, h.dateline]

theorem routeEntry {d k : Nat} (hd : d < 3) (hk : k < 16) :
    t.on (rtValid d k) = s.on (rtValid d k) ∧ t.fld (rtDir d k) = s.fld (rtDir d k) ∧ t.fld (rtPairs d k) = s.fld (rtPairs d k) := by
  have hvalid : (rtValid d k).off = 0xC100 + 0x40 * d + 4 * k ∧ (rtDir d k).off = 0xC100 + 0x40 * d + 4 * k ∧ (rtPairs d k).off = 0xC100 + 0x40 * d + 4 * k := by
    obtain rfl | rfl | rfl : d = 0 ∨ d = 1 ∨ d = 2 := by omega
    · exact ⟨rfl, rfl, rfl⟩
    · exact ⟨rfl, rfl, rfl⟩
    · exact ⟨rfl, rfl, rfl⟩
  obtain ⟨hv, hdr, hpr⟩ := hvalid
  refine ⟨?_, h.fld (by omega), h.fld (by omega)⟩
  rw [State.on, State.on, h.fld (by omega)]

theorem dirPorts (pairs dir : Nat) : t.dirPorts pairs dir = s.dirPorts pairs dir := by
  rw [State.dirPorts, State.dirPorts]
  refine List.flatMap_congr fun k hk => ?_
  have hk16 := (mem_bitList.mp hk).1
  refine List.filter_congr fun p hp => ?_
  rw [h.dir (by simp at hp; omega)]

theorem routeEnter (q : Packet) {d k : Nat} (hd : d < 3) (hk : k < 16) : t.routeEnter q d k = s.routeEnter q d k := by
  obtain ⟨hv, hdr, hpr⟩ := h.routeEntry hd hk
  simp only [State.routeEnter, hv, hdr, hpr, h.members hd, h.dirPorts, h.usable, h.skipMask, h.routeForward]

theorem routeDims (q : Packet) (ds : List Nat) (hds : ∀ d ∈ ds, d < 3) : t.routeDims q none ds = s.routeDims q none ds := by
  induction ds with
  | nil => rfl
  | cons d ds ih =>
    have hd := hds d List.mem_cons_self
    have henter : t.routeEnter q d (didField (q.hdr.dst.toNat / 64) d) = s.routeEnter q d (didField (q.hdr.dst.toNat / 64) d) := h.routeEnter q hd (Nat.mod_lt _ (by decide))
    simp only [State.routeDims, h.did, ih fun e he => hds e (List.mem_cons_of_mem _ he), henter]

/-- The routing decision (R161) for a packet of the stack's own is the same in both states. -/
theorem route (q : Packet) : t.route q none = s.route q none := by
  simp only [State.route, h.routeDims q [0, 1, 2] (by decide), h.role, h.usable, h.fld (f := RT_CFG_HOP_LIMIT) (.inr (by decide))]

end RoutesAlike

/-- Sending from a state that routes alike and has the same switch, but for the count of cells placed, and clock. -/
theorem sends_of_routes {q : Packet} {n : Nat} (h : RoutesAlike s t) (hsw : t.sw = { s.sw with placed := n }) (hnow : t.now = s.now) (hs : sends t u q) : sends s u q := by
  intro port r en hr
  obtain ⟨held, hu⟩ := hs port r en (by rw [h.route, hr])
  rw [hsw, hnow] at hu
  exact ⟨held, hu⟩

/-- A response that its route sends joins the egress account of that route, whatever cells it holds. -/
theorem emitRsp_sends_held (s : State) (q : Packet) (cells : List Nat) : sends s (s.emitRsp q cells) q := by
  intro port r en hr
  obtain ⟨held, k, -, h⟩ := addOut_holds s { inPort := none, port := port, vc := r.hdr.vc, pkt := r, cells := r.flits, held := cells, at_ := s.now, waiting := none, enters := en }
  refine ⟨held, ?_⟩
  simp [State.emitRsp, State.place, hr, h]

theorem emitRsp_frame_held (s : State) (q : Packet) (cells : List Nat) : only [.sw, .regs] s (s.emitRsp q cells) ∧ regsBut [RT_DROP.off] s (s.emitRsp q cells) := by
  obtain ⟨w, hw⟩ := place_only s q cells
  unfold State.emitRsp
  split
  next x heq =>
    obtain rfl : { s with sw := w } = x := by rw [← hw, heq]
    exact ⟨only_mono (by simp) (only_sw w), fun o _ => rfl⟩
  next x e heq =>
    obtain rfl : { s with sw := w } = x := by rw [← hw, heq]
    exact ⟨only_trans (only_mono (by simp) (only_sw w)) (only_mono (by simp) (only_set RT_DROP _)), fun o ho => reg_set_ne _ (by simpa using ho) _⟩

end Sys2Proof.Proofs
end

section
/-! SUPPORT. A request that hits a good line is performed and answered at once (R186 to R190, R217): with no older request and nothing else that moves
the Marl, serving it is one block performed and one answer sent. -/

namespace Sys2Proof.Proofs

set_option Elab.async false

open Sys2Proof.Machine Sys2Proof.Laws

variable {s t u a b : State} {p : Packet} {τ : Txn} {x : Line} {l : Nat}

/-! ## One transaction -/

theorem txn_single (h : a.txns = [τ]) : a.txn τ.id = some τ := by simp [State.txn, h]

/-- Nothing of the transaction waits for old data: its blocks are performed in turn. -/
theorem serveTxn_ready (h : a.txns = [τ]) (hready : ∀ i ∈ τ.merges, a.mergeReady τ i = true) :
    a.serveTxn τ.id = (a.each τ.todo fun v i => v.serveBlock τ.id i).finishTxn τ.id := by
  have hnone : (τ.merges.filter fun i => !a.mergeReady τ i) = [] := List.filter_eq_nil_iff.mpr fun i hi => by simp [hready i hi]
  have hall : τ.merges.all (a.mergeReady τ) = true := List.all_eq_true.mpr hready
  have heach : (a.each [] fun v i => v.serveBlock τ.id i) = a := rfl
  unfold State.serveTxn
  simp only [txn_single h, hnone, heach, hall, if_true]

theorem serve_single (h : a.txns = [τ]) : a.serve = (a.serveTxn τ.id).earlyWb.cleanStep := by
  unfold State.serve
  rw [h]
  rfl

theorem mayPerform_single (h : a.txns = [τ]) (hsvc : a.svcBefore τ.id τ.pkt.hdr = false) (i : Nat) : a.mayPerform τ i = true := by
  simp [State.mayPerform, State.before, h, hsvc]

/-- The answer of a transaction whose last block was performed. -/
def answerOf (eid : BitVec 18) (τ : Txn) (data : Option (List (BitVec 8))) : Packet :=
  mkRsp eid τ.pkt.hdr stOK 0 (if τ.pkt.hdr.opc = opRD ∨ τ.pkt.hdr.opc = opATOM then data.getD [] else [])

/-- The state with no transaction left. -/
def cleared (b : State) : State := { b with txns := [] }

/-- The transaction with its block performed. -/
def blockGone (τ : Txn) (d : Option (List (BitVec 8))) : Txn :=
  { τ with todo := τ.todo.filter (· != 0), got := (match d with
      | some d => mput 0 d τ.got
      | none => τ.got) }

theorem finishTxn_done (h : b.txns = [τ]) (htodo : τ.todo = [0]) (hgot : τ.got = []) (hpoison : τ.poison = 0) (hunit : τ.unit = none) (hfenced : τ.fenced = false) (d : Option (List (BitVec 8))) :
    (b.blockDone τ.id 0 d false).finishTxn τ.id =
      if τ.pkt.hdr.expects then (cleared b).emitRsp (answerOf b.eid τ d) (τ.held.take (answerOf b.eid τ d).flits) else cleared b := by
  obtain ⟨σ, hσ⟩ : ∃ σ, blockGone τ d = σ := ⟨_, rfl⟩
  have htxns : (b.blockDone τ.id 0 d false).txns = [σ] := by
    rw [← hσ]
    show (b.txns.map fun t => if t.id = τ.id then _ else t) = _
    rw [h, List.map_cons, if_pos rfl]
    rfl
  have hid : σ.id = τ.id := hσ ▸ rfl
  have hdone : σ.todo = [] := by
    rw [← hσ]
    show τ.todo.filter (· != 0) = []
    rw [htodo]
    rfl
  have hparts : σ.unit = none ∧ σ.pkt = τ.pkt ∧ σ.held = τ.held := hσ ▸ ⟨hunit, rfl, rfl⟩
  obtain ⟨hu, hpkt, hheld⟩ := hparts
  have hans : State.txnAnswer σ = (stOK, 0, if τ.pkt.hdr.opc = opRD ∨ τ.pkt.hdr.opc = opATOM then d.getD [] else []) := by
    have hp : σ.poison = 0 ∧ σ.fenced = false ∧ σ.got.flatMap (·.2) = d.getD [] := by
      rw [← hσ]
      refine ⟨hpoison, hfenced, ?_⟩
      unfold blockGone
      rw [hgot]
      cases d with
      | none => rfl
      | some d => simp [mput]
    obtain ⟨hp0, hf, hg⟩ := hp
    simp only [State.txnAnswer, hf, hp0, hg, hpkt, Bool.false_eq_true, if_false, if_true]
    by_cases hrd : τ.pkt.hdr.opc = opRD
    · simp [hrd]
    · by_cases hat : τ.pkt.hdr.opc = opATOM
      · simp [hat, opRD, opATOM]
      · simp [hrd, hat]
  have hclear : ({ b.blockDone τ.id 0 d false with txns := (b.blockDone τ.id 0 d false).txns.filter fun u => u.id != τ.id } : State) = cleared b := by
    rw [htxns, ← hid]
    simp only [List.filter_cons, bne_self_eq_false, Bool.false_eq_true, if_false, List.filter_nil]
    rfl
  unfold State.finishTxn
  have hfound : (b.blockDone τ.id 0 d false).txn τ.id = some σ := by
    have h := txn_single htxns
    rwa [hid] at h
  simp only [hfound, hdone, List.isEmpty_nil, if_true, hclear, hans, hu, hpkt, hheld]
  rfl

/-! ## Nothing else moves the Marl -/

theorem earlyWb_none (h : ∀ e ∈ t.marl.lines, e.2.evictFirst = false) : t.earlyWb = t := by
  have hnil : (t.marl.lines.filter fun e => e.2.evictFirst && e.2.st == .dirty && !e.2.wbBusy) = [] := List.filter_eq_nil_iff.mpr fun e he => by simp [h e he]
  unfold State.earlyWb
  rw [hnil]
  rfl

theorem cleanStep_none (hoff : t.fld MARL_STATUS_CLEANING = 0) (hlow : t.dirtyLines * 100 ≤ t.fld MARL_WB_CFG_DIRTY_HI * t.cacheLines) : t.cleanStep = t := by
  have hon : t.on MARL_STATUS_CLEANING = false := by simp [State.on, hoff]
  unfold State.cleanStep
  simp [hon, Nat.not_lt.mpr hlow]

/-- One line put adds at most one dirty line. -/
theorem dirty_mput (ls : List (Nat × Line)) (k : Nat) (y : Line) :
    ((mput k y ls).filter fun e => e.2.st == .dirty).length ≤ (ls.filter fun e => e.2.st == .dirty).length + 1 := by
  have hone : ∀ e : Nat × Line, ∀ r : List (Nat × Line), ((e :: r).filter fun e => e.2.st == .dirty).length ≤ (r.filter fun e => e.2.st == .dirty).length + 1 := fun e r => by
    rw [List.filter_cons]
    split <;> simp
  have hmono : ∀ e : Nat × Line, ∀ r : List (Nat × Line), (r.filter fun e => e.2.st == .dirty).length ≤ ((e :: r).filter fun e => e.2.st == .dirty).length := fun e r => by
    rw [List.filter_cons]
    split <;> simp
  induction ls with
  | nil => exact hone _ _
  | cons e ls ih =>
    rw [mput]
    split
    · exact hone _ _
    · split
      · exact (hone _ _).trans (Nat.add_le_add_right (hmono e ls) 1)
      · rw [List.filter_cons, List.filter_cons]
        split
        · simpa using ih
        · exact ih

/-- The registers that serving a request on a hit may move: the counters of hits, and of bytes and rates. -/
def servedReg (o : Nat) : Prop := o = MARL_HITS_LO.off ∨ o = MARL_HITS_HI.off ∨ 0x7000 ≤ o ∧ o < 0x8000

theorem servedReg_marl {f : Fld} (h : 0x80000 ≤ f.off ∧ f.off < 0x80020) : ¬ servedReg f.off := by
  simp only [servedReg, MARL_HITS_LO, MARL_HITS_HI]
  omega

/-- The lines of the Marl after a hit: as they were, or with one line put that is not to be evicted first. -/
def LinesServed (u b : State) : Prop := b.marl.lines = u.marl.lines ∨ ∃ k y, y.evictFirst = false ∧ b.marl.lines = mput k y u.marl.lines

/-- A store that was calm stays so: nothing is written back early, and no cleaning begins. -/
theorem serve_rest (hcalm : u.storeCalm) (hlines : LinesServed u t) (hreg : ∀ f : Fld, 0x80000 ≤ f.off ∧ f.off < 0x80020 → t.fld f = u.fld f) : t.earlyWb.cleanStep = t := by
  obtain ⟨-, -, hev, hclean, hroom⟩ := hcalm
  have hcache : t.cacheLines = u.cacheLines := by
    rw [State.cacheLines, State.cacheLines, State.setsPer, State.setsPer, State.cacheBanks, State.cacheBanks, hreg MARL_STATUS_SLICES_CACHE (by decide), hreg MARL_PART_BUF_BANKS (by decide),
      hreg MARL_PART_DEN_BANKS (by decide)]
  have hnoev : ∀ e ∈ t.marl.lines, e.2.evictFirst = false := by
    rcases hlines with h | ⟨k, y, hy, h⟩
    · rwa [h]
    · intro e he
      rw [h] at he
      rcases mem_mput he with rfl | he
      · exact hy
      · exact hev e he
  have hdirty : t.dirtyLines ≤ u.dirtyLines + 1 := by
    rw [State.dirtyLines, State.dirtyLines]
    rcases hlines with h | ⟨k, y, -, h⟩
    · rw [h]
      exact Nat.le_succ _
    · rw [h]
      exact dirty_mput _ _ _
  rw [earlyWb_none hnoev, cleanStep_none (by rw [hreg _ (by decide), hclean])]
  rw [hreg _ (by decide), hcache]
  exact (Nat.mul_le_mul_right 100 hdirty).trans hroom

/-! ## Performing a block -/

theorem injCheck_none (h : s.flt.inject = none) (c n : Nat) : s.injCheck c n = (none, s) := by simp [State.injCheck, h]

/-- Reading a good line gives its data and moves nothing. -/
theorem readLine_good (hinj : s.flt.inject = none) (hx : s.line l = some x) (herr : x.err = 0) : s.readLine l = (some { data := x.data, poison := x.poison }, s) := by
  unfold State.readLine
  rw [hx]
  simp only [injCheck_none hinj]
  unfold State.decodeLine
  rw [if_pos herr]

/-- The line as a write leaves it. -/
def written (x : Line) (data : List (BitVec 8)) : Line := { x with st := .dirty, data := data, poison := false, gen := true, err := 0, evictFirst := false }

theorem markGranule_frame (k : Nat) : only [.fox] s (s.markGranule k) := by
  unfold State.markGranule
  exact only_ite (only_ite (only_refl _ _) (only_fox _)) (only_refl _ _)

theorem writeLine_put (k w : Nat) (data : List (BitVec 8)) :
    (s.writeLine k w (some x) data false).marl.lines = mput k (written x data) s.marl.lines ∧ only [.marl, .fox] s (s.writeLine k w (some x) data false) := by
  have hset : only [.marl] s ((s.setLine k (written x data)).touch k x.way) := only_trans (only_marl _) (only_marl _)
  have hmark := markGranule_frame (s := (s.setLine k (written x data)).touch k x.way) k
  have heq : s.writeLine k w (some x) data false = ((s.setLine k (written x data)).touch k x.way).markGranule k := rfl
  rw [heq]
  refine ⟨?_, only_trans (only_mono (by simp) hset) (only_mono (by simp) hmark)⟩
  rw [show (((s.setLine k (written x data)).touch k x.way).markGranule k).marl = ((s.setLine k (written x data)).touch k x.way).marl from hmark .marl (by decide)]
  rfl

/-! ## A request that is accepted and served (R197, R217) -/

/-- A request of one block, just accepted: nothing of it is done. -/
structure Fresh (n : Nat) (p : Packet) (τ : Txn) : Prop where
  id : τ.id = n
  pkt : τ.pkt = p
  todo : τ.todo = [0]
  got : τ.got = []
  poison : τ.poison = 0
  missed : τ.missed = []
  unit : τ.unit = none
  fenced : τ.fenced = false
  cls : τ.grp = bgGrp ∨ τ.cls < 4 ∧ τ.grp < 64

theorem classify_lt (n : Nat) : (s.classify n).1 < 4 ∧ (s.classify n).2 < 64 := by
  simp only [State.classify]
  omega

theorem accept_fresh (u : State) (p : Packet) (ls : List (Option Nat)) (n : Nat) (bg : Bool) (held : List Nat) (hnone : u.txns = []) :
    ∃ τ k, Fresh u.nextTxn p τ ∧ (u.placeCells ls).2.accept p 1 n none bg held = { u with sw := { u.sw with placed := k }, nextTxn := u.nextTxn + 1, txns := [τ] } := by
  obtain ⟨k, hk⟩ := placeCells_only u ls
  rw [hk]
  unfold State.accept
  cases bg with
  | true => exact ⟨_, k, ⟨rfl, rfl, rfl, rfl, rfl, rfl, rfl, rfl, .inl rfl⟩, by simp only [hnone, List.nil_append, if_true]; rfl⟩
  | false => exact ⟨_, k, ⟨rfl, rfl, rfl, rfl, rfl, rfl, rfl, rfl, .inr (classify_lt _)⟩, by simp only [hnone, List.nil_append, Bool.false_eq_true, if_false]; rfl⟩

/-- A request that passes its checks is accepted, and served. -/
theorem takeRequest_accepted (hin : s.mayEnter p = true) (hu : s.brought p = u) (hroom : (s.withLocal p).1.rspRoom p.rspCells = true) (hidle : (s.withLocal p).1.idleAccess p = false)
    (hcheck : u.memCheck p ((s.withLocal p).1.ownPkt (s.held p)) = none) :
    s.takeRequest p = ((u.placeCells (rspLines p)).2.accept p p.blocks p.rspCells none ((s.withLocal p).1.bgAccess (s.held p)) (u.placeCells (rspLines p)).1).serve := by
  obtain ⟨hserves, hover, hbad⟩ := mayEnter_parts hin
  subst hu
  rw [State.held] at hover hbad hcheck ⊢
  rw [State.brought] at hcheck ⊢
  unfold State.takeRequest
  simp only [hserves, hover, hbad, hroom, hidle, hcheck, State.when, Bool.not_true, Bool.not_false, Bool.false_eq_true, if_false, if_true]

/-- What a request leaves once its block was performed: the answer joins the switch, and the transaction is gone. -/
theorem served_single {L : List Part} {k : Nat} {d : Option (List (BitVec 8))} (hcalm : u.storeCalm) (hfresh : Fresh u.nextTxn p τ)
    (ha : a = { u with sw := { u.sw with placed := k }, nextTxn := u.nextTxn + 1, txns := [τ] }) (hready : ∀ i ∈ τ.merges, a.mergeReady τ i = true)
    (hb : a.serveBlock τ.id 0 = b.blockDone τ.id 0 d false) (honly : only L a b) (hL : .sw ∉ L ∧ .txns ∉ L ∧ .nextTxn ∉ L ∧ .fuse ∉ L ∧ .now ∉ L) (hreg : ∀ o, ¬ servedReg o → b.reg o = u.reg o)
    (hlines : LinesServed u b) :
    ∃ t, a.serve = t ∧ t.marl = b.marl ∧ t.nextTxn = u.nextTxn + 1 ∧ (∀ o, o ≠ RT_DROP.off → t.reg o = b.reg o)
      ∧ (if p.hdr.expects then sends u t (answerOf u.eid τ d) else { t.sw with placed := u.sw.placed } = u.sw) ∧ only (.sw :: .regs :: .nextTxn :: L) u t := by
  obtain ⟨hsw, htx, hnx, hfuse, hnow⟩ := hL
  have hatx : a.txns = [τ] := by rw [ha]
  have hua : only [.sw, .nextTxn, .txns] u a := by
    rw [ha]
    intro q hq
    cases q
    case sw | nextTxn | txns => simp at hq
    all_goals rfl
  have hbtx : b.txns = [τ] := (honly .txns htx).trans hatx
  have hbsw : b.sw = { u.sw with placed := k } := (honly .sw hsw).trans (by rw [ha])
  have hcleared : only [.txns] b (cleared b) := only_txns _
  have hroutes : RoutesAlike u (cleared b) :=
    ⟨(honly .fuse hfuse).trans (hua .fuse (by decide)), fun o ho => hreg o (by simp only [servedReg, MARL_HITS_LO, MARL_HITS_HI]; omega)⟩
  have heid : b.eid = u.eid := RoutesAlike.eid (s := u) (t := cleared b) hroutes
  obtain ⟨t, ht⟩ : ∃ t, (if τ.pkt.hdr.expects then (cleared b).emitRsp (answerOf b.eid τ d) (τ.held.take (answerOf b.eid τ d).flits) else cleared b) = t := ⟨_, rfl⟩
  have hframe : only [.sw, .regs] (cleared b) t ∧ regsBut [RT_DROP.off] (cleared b) t := by
    rw [← ht]
    split
    · exact emitRsp_frame_held _ _ _
    · exact ⟨only_refl _ _, regsBut_refl _ _⟩
  have hmarl : t.marl = b.marl := (hframe.1 .marl (by decide)).trans (hcleared .marl (by decide))
  have hregs : ∀ o, o ≠ RT_DROP.off → t.reg o = b.reg o := fun o ho => hframe.2 o (by simpa using ho)
  have hserve : a.serve = t := by
    have htxn : a.serveTxn τ.id = t := by
      rw [serveTxn_ready hatx hready, hfresh.todo]
      show (a.serveBlock τ.id 0).finishTxn τ.id = t
      rw [hb, finishTxn_done hbtx hfresh.todo hfresh.got hfresh.poison hfresh.unit hfresh.fenced, ht]
    rw [serve_single hatx, htxn]
    refine serve_rest hcalm (by rw [LinesServed, hmarl]; exact hlines) fun f hf => ?_
    have hdrop : f.off ≠ RT_DROP.off := by simp only [RT_DROP]; omega
    rw [State.fld, State.fld, hregs _ hdrop, hreg _ (servedReg_marl hf)]
  refine ⟨t, hserve, hmarl, ?_, hregs, ?_, ?_⟩
  · rw [show t.nextTxn = (cleared b).nextTxn from hframe.1 .nextTxn (by decide)]
    exact (honly .nextTxn hnx).trans (by rw [ha])
  · rw [← hfresh.pkt]
    rw [heid] at ht
    split
    next he =>
      rw [if_pos he] at ht
      exact sends_of_routes hroutes hbsw ((honly .now hnow).trans (hua .now (by decide))) (ht ▸ emitRsp_sends_held _ _ _)
    next he =>
      rw [if_neg he] at ht
      rw [← ht]
      show { b.sw with placed := u.sw.placed } = u.sw
      rw [hbsw]
  · intro q hq
    simp only [List.mem_cons, not_or] at hq
    obtain ⟨hqs, hqr, hqn, hqL⟩ := hq
    by_cases hqt : q = .txns
    · subst hqt
      show t.txns = u.txns
      rw [show t.txns = (cleared b).txns from hframe.1 .txns (by decide), hcalm.1]
      rfl
    · have h1 := hua q (by simp [hqs, hqn, hqt])
      have h2 := honly q hqL
      have h3 := hcleared q (by simpa using hqt)
      have h4 := hframe.1 q (by simp [hqs, hqr])
      exact agree_trans (agree_trans (agree_trans h1 h2) h3) h4

/-! ## The block that a request performs on a hit (Table 10.3) -/

theorem serveBlock_front (h : a.txns = [τ]) (htodo : τ.todo = [0]) (hsvc : a.svcBefore τ.id τ.pkt.hdr = false) :
    a.serveBlock τ.id 0 = if τ.pkt.hdr.opc = opRD then a.serveRd τ 0 else if τ.pkt.hdr.opc = opWR then a.serveWr τ 0 (slice τ.pkt.payload (64 * 0) 64)
      else if τ.pkt.hdr.opc = opWRP then a.serveWrp τ 0 else a.serveAtom τ := by
  unfold State.serveBlock
  simp only [txn_single h, htodo, mayPerform_single h hsvc, List.contains_cons, beq_self_eq_true, Bool.true_or, Bool.not_true, Bool.or_self, Bool.false_eq_true, if_false]

theorem countHit_first (hmissed : τ.missed = []) : a.countHit τ 0 = a.incPair MARL_HITS_LO 1 := by simp [State.countHit, hmissed]

theorem serveRd_hit (hl : τ.lineOf 0 = l) (hmissed : τ.missed = []) (hna : τ.pkt.hdr.noalloc = false) (hinj : a.flt.inject = none) (hx : a.line l = some x) (herr : x.err = 0) (hpoison : x.poison = false) :
    a.serveRd τ 0 = ((a.incPair MARL_HITS_LO 1).touch l x.way).blockDone τ.id 0 (some x.data) false := by
  simp only [State.serveRd, hl, readLine_good hinj hx herr, hna, hpoison, countHit_first hmissed, hx, Option.map_some, Option.getD_some, Bool.false_and, Bool.false_eq_true, if_false]

theorem serveWr_hit {data : List (BitVec 8)} (hl : τ.lineOf 0 = l) (hmissed : τ.missed = []) (hna : τ.pkt.hdr.noalloc = false) (hx : a.line l = some x) :
    a.serveWr τ 0 data = ((a.incPair MARL_HITS_LO 1).writeLine l x.way (some x) data false).blockDone τ.id 0 none false := by
  simp only [State.serveWr, hl, hna, hx, countHit_first hmissed, Bool.false_eq_true, if_false]

theorem serveWrp_hit (hl : τ.lineOf 0 = l) (hmissed : τ.missed = []) (hna : τ.pkt.hdr.noalloc = false) (hinj : a.flt.inject = none) (hx : a.line l = some x) (herr : x.err = 0)
    (hpoison : x.poison = false) (h0 : wrpMask τ.pkt 0 ≠ 0) (h1 : wrpMask τ.pkt 0 ≠ 2 ^ 64 - 1) :
    a.serveWrp τ 0 = ((a.incPair MARL_HITS_LO 1).writeLine l x.way (some x) (mergeBytes x.data (slice τ.pkt.payload 32 64) (wrpMask τ.pkt 0)) false).blockDone τ.id 0 none false := by
  have hx' : (a.incPair MARL_HITS_LO 1).line l = some x := hx
  simp only [State.serveWrp, if_neg h0, if_neg h1, hl, readLine_good hinj hx herr, hna, hpoison, countHit_first hmissed, State.when, hx', Bool.false_eq_true, if_false, Nat.mul_zero, Nat.add_zero]

/-- The bytes of an ATOM are counted, and charged to its group. -/
def atomCounted (τ : Txn) (n : Nat) (s : State) : State :=
  ((s.countBytes τ.cls τ.grp 0 n).countBytes τ.cls τ.grp 1 n).when (τ.cls == 0) fun u => u.chargeBedrock τ.grp

/-- The line after an ATOM: written, or only used. -/
def atomLine (x : Line) (l o n sub old operand v : Nat) (s : State) : State :=
  if atomWrites sub old operand then s.writeLine l x.way (some x) (splice x.data o (leBytes n v)) false else s.touch l x.way

theorem serveAtom_hit {v : Nat} (hl : τ.lineOf 0 = l) (hmissed : τ.missed = []) (hinj : a.flt.inject = none) (hx : a.line l = some x) (herr : x.err = 0) (hpoison : x.poison = false)
    (hv : atomNew (τ.pkt.hdr.subop.toNat % 16) (atomWidth τ.pkt.hdr.subop.toNat) (leAt x.data (τ.pkt.hdr.addr.toNat % 64) (atomWidth τ.pkt.hdr.subop.toNat / 8))
      (leAt τ.pkt.payload 0 (atomWidth τ.pkt.hdr.subop.toNat / 8)) (leAt τ.pkt.payload 8 (atomWidth τ.pkt.hdr.subop.toNat / 8)) = some v) :
    a.serveAtom τ = (atomCounted τ (atomWidth τ.pkt.hdr.subop.toNat / 8) (atomLine x l (τ.pkt.hdr.addr.toNat % 64) (atomWidth τ.pkt.hdr.subop.toNat / 8) (τ.pkt.hdr.subop.toNat % 16)
        (leAt x.data (τ.pkt.hdr.addr.toNat % 64) (atomWidth τ.pkt.hdr.subop.toNat / 8)) (leAt τ.pkt.payload 8 (atomWidth τ.pkt.hdr.subop.toNat / 8)) v (a.incPair MARL_HITS_LO 1))).blockDone τ.id 0
      (some (leBytes 8 (leAt x.data (τ.pkt.hdr.addr.toNat % 64) (atomWidth τ.pkt.hdr.subop.toNat / 8)))) false := by
  have hx' : (a.incPair MARL_HITS_LO 1).line l = some x := hx
  simp only [State.serveAtom, hl, readLine_good hinj hx herr, hpoison, countHit_first hmissed, hx', hv, Bool.false_eq_true, if_false]
  rfl

theorem served_incPair {f : Fld} {n : Nat} (h : servedReg f.off) (h' : servedReg (f.off + 4)) : Frame [.regs] servedReg s (s.incPair f n) :=
  Frame.trans (.setReg (by simp) h) (.setReg (by simp) h')

theorem countBytes_frame {cls grp d n : Nat} (hc : grp = bgGrp ∨ cls < 4 ∧ grp < 64) (hd : d < 2) : Frame [.regs] servedReg s (s.countBytes cls grp d n) := by
  unfold State.countBytes
  split
  next => exact served_incPair (.inr (.inr (by decide))) (.inr (.inr (by decide)))
  next hg =>
    obtain ⟨hc, hg⟩ := hc.resolve_left hg
    have hbytes : 0x7000 ≤ (QOS_BYTES_LO (2 * cls + d)).off ∧ (QOS_BYTES_LO (2 * cls + d)).off + 4 < 0x8000 := by simp only [QOS_BYTES_LO]; omega
    have hgroup : 0x7000 ≤ (QOS_GRP_BYTES_LO grp).off ∧ (QOS_GRP_BYTES_LO grp).off + 4 < 0x8000 := by simp only [QOS_GRP_BYTES_LO]; omega
    exact (served_incPair (.inr (.inr (by omega))) (.inr (.inr (by omega)))).trans (served_incPair (.inr (.inr (by omega))) (.inr (.inr (by omega))))

theorem chargeBedrock_frame {g : Nat} : Frame [.regs, .qos] servedReg s (s.chargeBedrock g) := by
  have hqos : ∀ (u : State) (y : QosSt), Frame [.regs, .qos] servedReg u { u with qos := y } := fun _ y => .of_only (only_qos y) (by simp) (by simp)
  unfold State.chargeBedrock
  refine .ite (Frame.trans ((hqos s _).trans (hqos _ _)) (.inc (by simp) (.inr (.inr (by decide))))) ((hqos s _).trans (hqos _ _))

theorem atomCounted_frame {n : Nat} (hc : τ.grp = bgGrp ∨ τ.cls < 4 ∧ τ.grp < 64) : Frame [.regs, .qos] servedReg s (atomCounted τ n s) := by
  unfold atomCounted
  refine Frame.trans (Frame.mono (by simp) (fun _ h => h) ((countBytes_frame hc (by decide)).trans (countBytes_frame hc (by decide)))) (.when chargeBedrock_frame)

theorem atomLine_frame {o n sub old operand v : Nat} : only [.marl, .fox] s (atomLine x l o n sub old operand v s)
    ∧ (atomLine x l o n sub old operand v s).marl.lines = if atomWrites sub old operand then mput l (written x (splice x.data o (leBytes n v))) s.marl.lines else s.marl.lines := by
  unfold atomLine
  split
  · exact ⟨(writeLine_put _ _ _).2, (writeLine_put _ _ _).1⟩
  · exact ⟨only_mono (by simp) (only_marl _), rfl⟩

/-! ## The statement -/

theorem brought_ingress (s : State) (p : Packet) :
    (s.localAt p = none → (s.brought p).sw.ingress = s.sw.ingress) ∧ ∀ k, s.localAt p = some k → (s.brought p).sw.ingress = ldrop s.sw.ingress k := by
  have hact : ∀ x : State, x.activity.sw = x.sw := fun x => by
    unfold State.activity
    dsimp only
    split <;> split <;> rfl
  have htake : ∀ (x : State) (k : Nat), k < x.sw.ingress.length → (x.takeIn k).sw.ingress = ldrop x.sw.ingress k := fun x k hk => by
    obtain ⟨y, b, h⟩ := takeIn_eq hk
    rw [h]
  refine ⟨fun hnone => ?_, fun k hk => ?_⟩
  · have hlocal : s.withLocal p = (s.addIn { port := ownPort, link := 8, vc := p.hdr.vc, pkt := p, cells := p.flits, at_ := s.now }, s.sw.ingress.length) := by
      unfold State.withLocal
      simp only [hnone]
    obtain ⟨i, hi⟩ : ∃ i, (s.addIn { port := ownPort, link := 8, vc := p.hdr.vc, pkt := p, cells := p.flits, at_ := s.now }).sw.ingress = s.sw.ingress ++ [i] := by
      obtain ⟨k, hk⟩ := placeCells_only s (s.cellLines p)
      unfold State.addIn
      simp only [List.isEmpty_nil, if_true, hk]
      exact ⟨_, rfl⟩
    rw [State.brought, hlocal, hact, htake _ _ (by rw [hi]; simp), hi]
    simp [ldrop]
  · have hlocal : s.withLocal p = (s, k) := by
      unfold State.withLocal
      simp only [hk]
    have hlt : k < s.sw.ingress.length := List.mem_range.mp (List.mem_of_find?_eq_some hk)
    rw [State.brought, hlocal, hact, htake _ _ hlt]

/-- A state in which a request of one block, just accepted, stands alone before a good line. -/
structure AtLine (u : State) (p : Packet) (l : Nat) (x : Line) (τ : Txn) (a : State) : Prop where
  fresh : Fresh u.nextTxn p τ
  eq : ∃ k, a = { u with sw := { u.sw with placed := k }, nextTxn := u.nextTxn + 1, txns := [τ] }
  line : a.line l = some x
  lineOf : τ.lineOf 0 = l
  svc : a.svcBefore τ.id τ.pkt.hdr = false
  inject : a.flt.inject = none
  ready : ∀ i ∈ τ.merges, a.mergeReady τ i = true

theorem AtLine.txns (h : AtLine u p l x τ a) : a.txns = [τ] := by
  obtain ⟨k, ha⟩ := h.eq
  rw [ha]

theorem AtLine.marl (h : AtLine u p l x τ a) : a.marl = u.marl := by
  obtain ⟨k, ha⟩ := h.eq
  rw [ha]

theorem AtLine.regs (h : AtLine u p l x τ a) : a.regs = u.regs := by
  obtain ⟨k, ha⟩ := h.eq
  rw [ha]

theorem accepted_atLine (hin : s.mayEnter p = true) (hu : s.brought p = u) (hroom : (s.withLocal p).1.rspRoom p.rspCells = true) (hidle : (s.withLocal p).1.idleAccess p = false)
    (hcheck : u.memCheck p ((s.withLocal p).1.ownPkt (s.held p)) = none) (hcalm : u.storeCalm) (hsvc : u.svcBefore u.nextTxn p.hdr = false)
    (hx : u.line (p.hdr.addr.toNat / 64) = some x) (herr : x.err = 0) (hblocks : p.blocks = 1) :
    ∃ τ a, AtLine u p (p.hdr.addr.toNat / 64) x τ a ∧ s.takeRequest p = a.serve := by
  have htake := takeRequest_accepted hin hu hroom hidle hcheck
  rw [hblocks] at htake
  obtain ⟨hnone, hinj, -, -, -⟩ := hcalm
  obtain ⟨τ, k, hfresh, ha⟩ := accept_fresh u p (rspLines p) p.rspCells ((s.withLocal p).1.bgAccess (s.held p)) (u.placeCells (rspLines p)).1 hnone
  obtain ⟨a, had⟩ : ∃ a : State, ({ u with sw := { u.sw with placed := k }, nextTxn := u.nextTxn + 1, txns := [τ] } : State) = a := ⟨_, rfl⟩
  have hlineOf : τ.lineOf 0 = p.hdr.addr.toNat / 64 := by rw [Txn.lineOf, hfresh.pkt, Nat.add_zero]
  have hline : a.line (p.hdr.addr.toNat / 64) = some x := had ▸ hx
  have hsvc' : a.svcBefore τ.id τ.pkt.hdr = false := by
    rw [hfresh.id, hfresh.pkt, ← had]
    exact hsvc
  refine ⟨τ, a, ⟨hfresh, ⟨k, had.symm⟩, hline, hlineOf, hsvc', had ▸ hinj, fun i hi => ?_⟩, by rw [htake, ha, had]⟩
  -- the old data of the one block of a WRP are at hand
  have hi0 : i = 0 := by
    have hmem : i ∈ τ.todo := by
      unfold Txn.merges at hi
      split at hi
      · exact (List.mem_filter.mp hi).1
      · simp at hi
    simpa [hfresh.todo] using hmem
  subst hi0
  have hclean : sramDecode (0 : BitVec 560).toNat = .clean := by decide +kernel
  have hnow : (lineNow x).isSome = true := by
    unfold lineNow
    rw [herr, hclean]
    rfl
  have hmay : a.mayPerform τ 0 = true := mayPerform_single (by rw [← had]) hsvc' 0
  simp [State.mergeReady, hmay, hlineOf, hline, hnow]

/-- What the block leaves is what the request leaves, with its answer sent. -/
theorem AtLine.served {L : List Part} {d : Option (List (BitVec 8))} (h : AtLine u p l x τ a) (hcalm : u.storeCalm) (hb : a.serveBlock τ.id 0 = b.blockDone τ.id 0 d false)
    (hframe : Frame L servedReg a b) (hL : .sw ∉ L ∧ .txns ∉ L ∧ .nextTxn ∉ L ∧ .fuse ∉ L ∧ .now ∉ L) (hlines : LinesServed a b) :
    ∃ t, a.serve = t ∧ t.marl = b.marl ∧ t.nextTxn = u.nextTxn + 1 ∧ (∀ o, o ≠ RT_DROP.off → t.reg o = b.reg o)
      ∧ (if p.hdr.expects then sends u t (answerOf u.eid τ d) else { t.sw with placed := u.sw.placed } = u.sw) ∧ only (.sw :: .regs :: .nextTxn :: L) u t := by
  obtain ⟨k, ha⟩ := h.eq
  refine served_single hcalm h.fresh ha h.ready hb hframe.parts hL (fun o ho => (hframe.reg o ho).trans (reg_congr h.regs o)) ?_
  rw [LinesServed, ← h.marl]
  exact hlines

theorem answerOf_eq (e : BitVec 18) (hpkt : τ.pkt = p) (d : Option (List (BitVec 8))) :
    answerOf e τ d = mkRsp e p.hdr stOK 0 (if p.hdr.opc = opRD ∨ p.hdr.opc = opATOM then d.getD [] else []) := by rw [answerOf, hpkt]

/-- Of the requests to memory only a posted write expects no answer. -/
theorem expects_of_opc (h : p.hdr.opc = opWR ∨ p.hdr.opc = opWRP ∨ p.hdr.opc = opATOM) : p.hdr.expects = !p.hdr.posted := by
  rcases h with h | h | h <;> simp [Hdr.expects, h, rspOpc, opRD, opWR, opWRP, opATOM]

theorem hit_frame (s : State) : Frame [.regs] servedReg s (s.incPair MARL_HITS_LO 1) := served_incPair (.inl rfl) (.inr (.inl rfl))

theorem hit_regs {y : State} (hb : b.regs = (a.incPair MARL_HITS_LO 1).regs) (ha : a.regs = u.regs) (hy : ∀ o, o ≠ RT_DROP.off → y.reg o = b.reg o) :
    y.pair MARL_HITS_LO = (u.pair MARL_HITS_LO + 1) % 2 ^ 64 ∧ regsBut [MARL_HITS_LO.off, MARL_HITS_HI.off, RT_DROP.off] u y := by
  have hpair : y.pair MARL_HITS_LO = b.pair MARL_HITS_LO := by
    rw [State.pair, State.pair, hy _ (by decide), hy _ (by decide)]
  refine ⟨by rw [hpair, pair_congr hb, pair_incPair_same, pair_congr ha], fun o ho => ?_⟩
  simp only [List.mem_cons, List.not_mem_nil, or_false, not_or] at ho
  rw [hy o ho.2.2, reg_congr hb, reg_incPair_ne ho.1 ho.2.1, reg_congr ha]

/-- A write of a line that is hit, answered unless it is posted. -/
theorem AtLine.wrote {data : List (BitVec 8)} (h : AtLine u p l x τ a) (hcalm : u.storeCalm) (hopc : p.hdr.opc = opWR ∨ p.hdr.opc = opWRP)
    (hb : a.serveBlock τ.id 0 = ((a.incPair MARL_HITS_LO 1).writeLine l x.way (some x) data false).blockDone τ.id 0 none false) :
    ∃ t, a.serve = t ∧ t.nextTxn = u.nextTxn + 1 ∧ t.marl.lines = mput l (written x data) u.marl.lines ∧ t.pair MARL_HITS_LO = (u.pair MARL_HITS_LO + 1) % 2 ^ 64
      ∧ (if p.hdr.posted then { t.sw with placed := u.sw.placed } = u.sw else sends u t (mkRsp u.eid p.hdr stOK 0 []))
      ∧ regsBut [MARL_HITS_LO.off, MARL_HITS_HI.off, RT_DROP.off] u t ∧ only [.marl, .regs, .sw, .nextTxn, .fox] u t := by
  obtain ⟨hlines, hparts⟩ := writeLine_put (s := a.incPair MARL_HITS_LO 1) (x := x) l x.way data
  obtain ⟨b, hbd⟩ : ∃ b, (a.incPair MARL_HITS_LO 1).writeLine l x.way (some x) data false = b := ⟨_, rfl⟩
  rw [hbd] at hb hlines hparts
  have hframe : Frame [.regs, .marl, .fox] servedReg a b := (Frame.mono (by simp) (fun _ h => h) (hit_frame a)).trans (.of_only hparts (by simp) (by simp))
  have hmarl : (a.incPair MARL_HITS_LO 1).marl = a.marl := rfl
  obtain ⟨t, hserve, hm, hnext, hregs, hans, honly⟩ := h.served hcalm hb hframe (by decide) (.inr ⟨l, written x data, rfl, by rw [hlines, hmarl]⟩)
  obtain ⟨hpair, hbut⟩ := hit_regs (hparts .regs (by decide)) h.regs hregs
  refine ⟨t, hserve, hnext, by rw [hm, hlines, hmarl, h.marl], hpair, ?_, hbut, only_mono (by simp) honly⟩
  have hne : ¬ (p.hdr.opc = opRD ∨ p.hdr.opc = opATOM) := by
    rcases hopc with h | h <;> rw [h] <;> decide
  rw [expects_of_opc (hopc.elim .inl fun h => .inr (.inl h)), answerOf_eq _ h.fresh.pkt, if_neg hne] at hans
  cases hp : p.hdr.posted <;> simpa [hp] using hans

theorem AtLine.read (h : AtLine u p l x τ a) (hcalm : u.storeCalm) (hopc : p.hdr.opc = opRD) (hna : p.hdr.noalloc = false) (herr : x.err = 0) (hpoison : x.poison = false) :
    ∃ t, a.serve = t ∧ t.nextTxn = u.nextTxn + 1 ∧ t.marl.lines = u.marl.lines ∧ t.pair MARL_HITS_LO = (u.pair MARL_HITS_LO + 1) % 2 ^ 64
      ∧ sends u t (mkRsp u.eid p.hdr stOK 0 x.data) ∧ regsBut [MARL_HITS_LO.off, MARL_HITS_HI.off, RT_DROP.off] u t ∧ only [.marl, .regs, .sw, .nextTxn] u t := by
  have hb : a.serveBlock τ.id 0 = ((a.incPair MARL_HITS_LO 1).touch l x.way).blockDone τ.id 0 (some x.data) false := by
    rw [serveBlock_front h.txns h.fresh.todo h.svc, h.fresh.pkt, if_pos hopc]
    exact serveRd_hit h.lineOf h.fresh.missed (by rw [h.fresh.pkt, hna]) h.inject h.line herr hpoison
  obtain ⟨t, hserve, hm, hnext, hregs, hans, honly⟩ := h.served (L := [.regs, .marl]) hcalm hb
    ((Frame.mono (by simp) (fun _ h => h) (hit_frame a)).trans (.of_only (only_marl _) (by simp) (by simp))) (by decide) (.inl rfl)
  obtain ⟨hpair, hbut⟩ := hit_regs (b := (a.incPair MARL_HITS_LO 1).touch l x.way) rfl h.regs hregs
  refine ⟨t, hserve, hnext, by rw [hm, ← h.marl]; rfl, hpair, ?_, hbut, only_mono (by simp) honly⟩
  have hexpects : p.hdr.expects = true := by simp [Hdr.expects, hopc, rspOpc, opRD, opWR, opWRP, opATOM]
  have hdata : (if p.hdr.opc = opRD ∨ p.hdr.opc = opATOM then (some x.data).getD [] else []) = x.data := if_pos (.inl hopc)
  rwa [answerOf_eq _ h.fresh.pkt, hdata, hexpects, if_pos rfl] at hans

theorem AtLine.atom {v : Nat} (h : AtLine u p l x τ a) (hcalm : u.storeCalm) (hopc : p.hdr.opc = opATOM) (herr : x.err = 0) (hpoison : x.poison = false)
    (hv : atomNew (p.hdr.subop.toNat % 16) (atomWidth p.hdr.subop.toNat) (leAt x.data (p.hdr.addr.toNat % 64) (atomWidth p.hdr.subop.toNat / 8))
      (leAt p.payload 0 (atomWidth p.hdr.subop.toNat / 8)) (leAt p.payload 8 (atomWidth p.hdr.subop.toNat / 8)) = some v) :
    ∃ t, a.serve = t ∧ t.nextTxn = u.nextTxn + 1
      ∧ t.marl.lines = (if atomWrites (p.hdr.subop.toNat % 16) (leAt x.data (p.hdr.addr.toNat % 64) (atomWidth p.hdr.subop.toNat / 8)) (leAt p.payload 8 (atomWidth p.hdr.subop.toNat / 8)) then
          mput l (written x (splice x.data (p.hdr.addr.toNat % 64) (leBytes (atomWidth p.hdr.subop.toNat / 8) v))) u.marl.lines
        else u.marl.lines)
      ∧ (if p.hdr.posted then { t.sw with placed := u.sw.placed } = u.sw
          else sends u t (mkRsp u.eid p.hdr stOK 0 (leBytes 8 (leAt x.data (p.hdr.addr.toNat % 64) (atomWidth p.hdr.subop.toNat / 8)))))
      ∧ only [.marl, .regs, .sw, .nextTxn, .fox, .qos] u t := by
  have hhit := serveAtom_hit h.lineOf h.fresh.missed h.inject h.line herr hpoison (by rw [h.fresh.pkt]; exact hv)
  rw [h.fresh.pkt] at hhit
  have hne : p.hdr.opc ≠ opRD ∧ p.hdr.opc ≠ opWR ∧ p.hdr.opc ≠ opWRP := by rw [hopc]; decide
  have hb : a.serveBlock τ.id 0 = a.serveAtom τ := by
    rw [serveBlock_front h.txns h.fresh.todo h.svc, h.fresh.pkt, if_neg hne.1, if_neg hne.2.1, if_neg hne.2.2]
  rw [hhit] at hb
  generalize atomWidth p.hdr.subop.toNat / 8 = n at hb ⊢
  generalize leAt x.data (p.hdr.addr.toNat % 64) n = old at hb ⊢
  generalize leAt p.payload 8 n = operand at hb ⊢
  generalize p.hdr.subop.toNat % 16 = sub at hb ⊢
  obtain ⟨hparts, hlines⟩ := atomLine_frame (s := a.incPair MARL_HITS_LO 1) (x := x) (l := l) (o := p.hdr.addr.toNat % 64) (n := n) (sub := sub) (old := old) (operand := operand) (v := v)
  obtain ⟨m, hm⟩ : ∃ m, atomLine x l (p.hdr.addr.toNat % 64) n sub old operand v (a.incPair MARL_HITS_LO 1) = m := ⟨_, rfl⟩
  rw [hm] at hb hparts hlines
  have hcount := atomCounted_frame (s := m) (τ := τ) (n := n) h.fresh.cls
  have hmarl : (a.incPair MARL_HITS_LO 1).marl = a.marl := rfl
  have hlines' : (atomCounted τ n m).marl.lines = if atomWrites sub old operand then mput l (written x (splice x.data (p.hdr.addr.toNat % 64) (leBytes n v))) a.marl.lines else a.marl.lines := by
    rw [show (atomCounted τ n m).marl = m.marl from hcount.agree (p := .marl) (by decide), hlines, hmarl]
  have hframe : Frame [.regs, .marl, .fox, .qos] servedReg a (atomCounted τ n m) :=
    (Frame.mono (by simp) (fun _ h => h) (hit_frame a)).trans (Frame.trans (.of_only hparts (by simp) (by simp)) (Frame.mono (by simp) (fun _ h => h) hcount))
  have hserved : LinesServed a (atomCounted τ n m) := by
    rw [LinesServed, hlines']
    split
    · exact .inr ⟨l, _, rfl, rfl⟩
    · exact .inl rfl
  obtain ⟨t, hserve, hmt, hnext, -, hans, honly⟩ := h.served hcalm hb hframe (by decide) hserved
  refine ⟨t, hserve, hnext, by rw [hmt, hlines', h.marl], ?_, only_mono (by simp) honly⟩
  have hdata : (if p.hdr.opc = opRD ∨ p.hdr.opc = opATOM then (some (leBytes 8 old)).getD [] else []) = leBytes 8 old := if_pos (.inr hopc)
  rw [expects_of_opc (.inr (.inr hopc)), answerOf_eq _ h.fresh.pkt, hdata] at hans
  cases hp : p.hdr.posted <;> simpa [hp] using hans

/-- Settles O28: the request is accepted alone before its line, and each operation says what it makes of the line and what it answers. -/
theorem localRequests : Obligations.LocalRequests := by
  intro p s u hin hu
  refine ⟨hu ▸ brought_ingress s p, fun x hroom hidle hcheck hcalm hsvc hx herr hpoison hna hblocks => ?_⟩
  obtain ⟨τ, a, hat, htake⟩ := accepted_atLine hin hu hroom hidle hcheck hcalm hsvc hx herr hblocks
  have hfront := serveBlock_front hat.txns hat.fresh.todo hat.svc
  rw [hat.fresh.pkt] at hfront
  refine ⟨fun hopc => ?_, fun hopc => ?_, fun hopc h0 h1 => ?_, fun hopc => ?_⟩
  · obtain ⟨t, hserve, hrest⟩ := hat.read hcalm hopc hna herr hpoison
    exact ⟨t, congrArg Host.Outcome.next (htake.trans hserve), hrest⟩
  · have hb := hfront.trans ((if_neg (by rw [hopc]; decide)).trans (if_pos hopc))
    rw [serveWr_hit hat.lineOf hat.fresh.missed (by rw [hat.fresh.pkt, hna]) hat.line] at hb
    obtain ⟨t, hserve, hrest⟩ := hat.wrote hcalm (.inl hopc) hb
    exact ⟨t, congrArg Host.Outcome.next (htake.trans hserve), hrest⟩
  · have hb := hfront.trans ((if_neg (by rw [hopc]; decide)).trans ((if_neg (by rw [hopc]; decide)).trans (if_pos hopc)))
    rw [serveWrp_hit hat.lineOf hat.fresh.missed (by rw [hat.fresh.pkt, hna]) hat.inject hat.line herr hpoison (by rw [hat.fresh.pkt]; exact h0) (by rw [hat.fresh.pkt]; exact h1), hat.fresh.pkt] at hb
    obtain ⟨t, hserve, hrest⟩ := hat.wrote hcalm (.inr hopc) hb
    exact ⟨t, congrArg Host.Outcome.next (htake.trans hserve), hrest⟩
  · intro w o old v hv
    obtain ⟨t, hserve, hrest⟩ := hat.atom hcalm hopc herr hpoison hv
    exact ⟨t, congrArg Host.Outcome.next (htake.trans hserve), hrest⟩

end Sys2Proof.Proofs
end

section
/-! SUPPORT. Register accesses (R206, R479): while the answer of one access is owed, the next one waits, on the sideband too. -/

namespace Sys2Proof.Proofs

set_option Elab.async false

open Sys2Proof.Machine

/-- Only VAON is good, and an access of the fabric's register target still owes its answer. -/
def owingInAon : State :=
  { State.reset with rails := { vaon := true }, acc := { State.reset.acc with owed := [{ off := 0, via := .mreg }] } }

theorem owingInAon_limited : owingInAon.pathLimited = true := by decide +kernel

theorem owingInAon_offset : earlyRead owingInAon.acc.i3c.offset.toNat = false := by decide +kernel

/-- The read waits for the owed answer: nothing is read. -/
theorem i3cRegRead_owingInAon : exec .i3cRegRead owingInAon = .next owingInAon := rfl

/-- Refutes O30: the clause of the sideband's read asks only for VAON, but a read that comes while an access owes its answer waits (R206, log
entry 64), and the sideband's last bytes are then not those of a limited read. -/
theorem not_registerAccesses : ¬ Obligations.RegisterAccesses := by
  unfold Obligations.RegisterAccesses
  intro h
  obtain ⟨-, -, -, hside⟩ := h
  obtain ⟨-, ⟨t, ht, -, -, hlast⟩, -⟩ := hside owingInAon rfl
  obtain rfl : owingInAon = t := Host.Outcome.next.inj (i3cRegRead_owingInAon.symm.trans ht)
  exact absurd (hlast owingInAon_limited owingInAon_offset) (by decide)

end Sys2Proof.Proofs
end

section
/-! SUPPORT. PERST_N and BYP_FORCE_N (R62, R72, R172): what a warm reset leaves behind, what P1 begins with, and the closing of every pair. -/

namespace Sys2Proof.Proofs

set_option Elab.async false

open Sys2Proof.Machine Sys2Proof.Laws

variable {s t u : State} {o : Nat}

/-! ## Before the reset: heartbeats stop, the Marl freezes, pairs close (Table 4.7) -/

/-- The status registers of the layers. -/
def layerReg (o : Nat) : Prop := ∃ n < 16, o = 0xA0040 + 4 * n

/-- What the end of heartbeats may change. -/
abbrev HeartbeatsEnd (s t : State) : Prop := Frame [.free, .chan, .start, .regs] layerReg s t

theorem putRaw_only (at_ block : Nat) (raw : List (Option (BitVec 8))) : only [.chan] s (s.putRaw at_ block raw) := only_chan _

/-- A burst that a write has begun is cut off: the block holds the old bytes, or the new ones stay. -/
def cutBurst (s : State) (at_ : Nat) (w : WrReq) (raw : List (Option (BitVec 8))) : State :=
  if Config.freeNat s.free % 2 = 0 then ({ s with free := s.free + 1 } : State).putRaw at_ w.block raw else { s with free := s.free + 1 }

theorem cutBurst_only (at_ : Nat) (w : WrReq) (raw : List (Option (BitVec 8))) : only [.free, .chan] s (cutBurst s at_ w raw) := by
  have hfree : only [.free, .chan] s { s with free := s.free + 1 } := only_mono (by simp) (only_free _)
  exact only_ite (only_trans hfree (only_mono (by simp) (putRaw_only at_ w.block raw))) hfree

theorem cutBursts_only (c : Nat) : only [.free, .chan] s (s.cutBursts c) := by
  have hchn : ∀ (x : State) (c : Nat) (k : Chan), only [.free, .chan] x (x.setChn c k) := fun x _ _ => only_mono (by simp) (only_setChn _ _)
  unfold State.cutBursts
  refine only_trans (only_trans (only_each ?_) (hchn _ _ _)) (only_each ?_)
  · exact fun x w => cutBurst_only c w w.old
  · intro x n
    refine only_trans (only_each ?_) (hchn _ _ _)
    exact fun y w => cutBurst_only c w w.oldPar

theorem channelSr_heartbeatsEnd {c : Nat} (hc : c < 32) : HeartbeatsEnd s (s.channelSr c) := by
  unfold State.channelSr
  refine .ite ?_ (.refl _ _ _)
  refine Frame.trans ?_ (.of_only (only_start _) (by simp) (by simp))
  refine Frame.trans ?_ (.set (by simp) ⟨c / 2, by omega, rfl⟩)
  exact (Frame.of_only (cutBursts_only c) (by simp) (by simp)).trans (.of_only (only_setChn _ _) (by simp) (by simp))

theorem stopHeartbeats_heartbeatsEnd : HeartbeatsEnd s s.stopHeartbeats :=
  .each fun _ _ hc => channelSr_heartbeatsEnd (List.mem_range.mp hc)

theorem freezeMarl_only : only [.start, .marl] s s.freezeMarl := by
  unfold State.freezeMarl
  refine only_ite (only_refl _ _) ?_
  intro q hq
  cases q
  case start | marl => simp at hq
  all_goals rfl

theorem otpCut_idle (h : s.fuse.run = none) : s.otpCut = s := by
  unfold State.otpCut
  rw [h]

theorem closeAll_only : only [.regs] s s.closeAll := only_trans (only_sets _) (only_set _ _)

theorem closeAll_regs : regsBut [RT_BYP_STATUS.off, RT_BYP_OPEN.off, RT_BYP_CLOSES.off] s s.closeAll :=
  regsBut_trans (regsBut_sets (by decide)) (regsBut_set (by decide))

theorem closeAll_closes : s.closeAll.fld RT_BYP_CLOSES = (s.fld RT_BYP_CLOSES + ((List.range 16).filter fun k => !s.pairClosed k).length) % 2 ^ 32 := by
  have hkeep : (s.sets [(RT_BYP_STATUS_CLOSED, 0xFFFF), (RT_BYP_STATUS_LISTEN_READY, 0), (RT_BYP_OPEN_OPEN, 0)]).fld RT_BYP_CLOSES = s.fld RT_BYP_CLOSES :=
    regsBut.fld (l := [RT_BYP_STATUS.off, RT_BYP_OPEN.off]) (regsBut_sets (by decide)) (by decide)
  rw [← hkeep]
  exact fld_set_same _ (by decide) (by decide) _

/-! ## What a warm reset leaves (Table 4.6) -/

theorem mget_filter_key {α : Type} (p : Nat → Bool) (k : Nat) (m : List (Nat × α)) :
    mget (m.filter fun e => p e.1) k = if p k = true then mget m k else none := by
  induction m with
  | nil => simp [mget]
  | cons e m ih =>
    obtain ⟨a, v⟩ := e
    rw [List.filter_cons]
    by_cases hp : p a = true
    · rw [if_pos hp, mget, ih]
      by_cases ha : a = k
      · rw [if_pos ha, ← ha, if_pos hp, mget, if_pos rfl]
      · rw [if_neg ha, mget, if_neg ha]
    · rw [if_neg hp, ih]
      by_cases ha : a = k
      · rw [← ha, if_neg hp, if_neg hp]
      · rw [mget, if_neg ha]

/-- A register that a reset keeps reads the same; any other has its reset value. -/
theorem reg_keptRegs (k : ResetKind) (o : Nat) :
    ({ s with regs := s.regs.filter fun e => keepReg k e.1 } : State).reg o = if keepReg k o = true then s.reg o else (resetValue o).toNat := by
  simp only [State.reg]
  rw [mget_filter_key]
  by_cases hk : keepReg k o = true
  · simp [hk]
  · simp [hk]

/-- Across PERST_N, fields that count since power-on outlive their registers. -/
theorem resetRegs_perst : Frame [.regs] (fun o => o = GLB_PWR_STATUS.off ∨ layerReg o) { s with regs := s.regs.filter fun e => keepReg .perst e.1 } (s.resetRegs .perst) := by
  rw [State.resetRegs, if_pos rfl]
  refine Frame.trans ?_ (Frame.each (xs := List.range 16) ?_)
  · exact .set (by simp) (.inl rfl)
  · exact fun x n hn => .set (by simp) (.inr ⟨n, List.mem_range.mp hn, rfl⟩)

theorem reg_resetRegs_perst (ho : o ≠ GLB_PWR_STATUS.off) (hl : ¬ layerReg o) :
    (s.resetRegs .perst).reg o = if keepReg .perst o = true then s.reg o else (resetValue o).toNat := by
  rw [resetRegs_perst.reg o (by simp [ho, hl]), reg_keptRegs]

theorem reg_afterReset (k : ResetKind) (o : Nat) : (s.afterReset k).reg o = (s.resetRegs k).reg o := rfl

/-- The state that PERST_N finds once the heartbeats, the Marl and the pairs have closed. -/
def closedDown (s : State) : State := (s.stopHeartbeats.freezeMarl.otpCut).closeAll

theorem closedDown_only (h : s.fuse.run = none) : only [.free, .chan, .start, .marl, .regs] s (closedDown s) := by
  have hbeats : only [.free, .chan, .start, .marl, .regs] s s.stopHeartbeats := only_mono (by simp) stopHeartbeats_heartbeatsEnd.parts
  have hfroze := only_trans hbeats (only_mono (by simp) freezeMarl_only)
  have hrun : s.stopHeartbeats.freezeMarl.fuse.run = none := by rw [show s.stopHeartbeats.freezeMarl.fuse = s.fuse from hfroze .fuse (by decide), h]
  unfold closedDown
  rw [otpCut_idle hrun]
  exact only_trans hfroze (only_mono (by simp) closeAll_only)

theorem closedDown_eq (h : s.fuse.run = none) : closedDown s = s.stopHeartbeats.freezeMarl.closeAll := by
  have hfroze : only [.free, .chan, .start, .marl, .regs] s s.stopHeartbeats.freezeMarl :=
    only_trans (only_mono (by simp) stopHeartbeats_heartbeatsEnd.parts) (only_mono (by simp) freezeMarl_only)
  have hrun : s.stopHeartbeats.freezeMarl.fuse.run = none := by rw [show s.stopHeartbeats.freezeMarl.fuse = s.fuse from hfroze .fuse (by decide), h]
  rw [closedDown, otpCut_idle hrun]

theorem frozen_reg (hl : ¬ layerReg o) : s.stopHeartbeats.freezeMarl.reg o = s.reg o :=
  (reg_congr (freezeMarl_only .regs (by decide)) o).trans (stopHeartbeats_heartbeatsEnd.reg o hl)

theorem closedDown_reg (h : s.fuse.run = none) (hl : ¬ layerReg o) (ho : o ∉ [RT_BYP_STATUS.off, RT_BYP_OPEN.off, RT_BYP_CLOSES.off]) :
    (closedDown s).reg o = s.reg o := by
  rw [closedDown_eq h, closeAll_regs o ho, frozen_reg hl]

theorem closedDown_closes (h : s.fuse.run = none) :
    (closedDown s).fld RT_BYP_CLOSES = (s.fld RT_BYP_CLOSES + ((List.range 16).filter fun k => !s.pairClosed k).length) % 2 ^ 32 := by
  have hfld : ∀ f : Fld, f.off < 0xA0000 → s.stopHeartbeats.freezeMarl.fld f = s.fld f := fun f hf => by
    rw [State.fld, State.fld, frozen_reg]
    rintro ⟨n, -, hn⟩
    omega
  rw [closedDown_eq h, closeAll_closes, hfld _ (by decide)]
  simp only [State.pairClosed, hfld RT_BYP_STATUS_CLOSED (by decide)]

/-- After the reset by PERST_N, RST_CAUSE says so. -/
def perstCause (s : State) : State :=
  ((closedDown s).afterReset .perst).setReg RST_CAUSE.off (satAdd 0xFFFF (s.fld RST_CAUSE_WARM_COUNT) 1 * 2 ^ 16 + s.phase * 2 ^ 8 + 2)

/-- A warm reset by PERST_N from any state but the holds that only VAON ends. -/
def perstReset (s : State) : State :=
  (perstCause s).sets [(GLB_DID_STRAP_DID, (perstCause s).pins.idStrap.toNat), (GLB_DID_DID, (perstCause s).pins.idStrap.toNat)]

theorem baseReset_perst (h : s.vaonHold = false) : s.baseReset .perst = perstReset s := by
  simp only [State.baseReset, h, perstReset, perstCause, closedDown, if_true, if_false, reduceCtorEq, Bool.false_eq_true]

theorem perstReset_only : only [.regs] ((closedDown s).afterReset .perst) (perstReset s) := only_trans only_setReg (only_sets _)

theorem perstReset_regs : regsBut [RST_CAUSE.off, GLB_DID.off] ((closedDown s).afterReset .perst) (perstReset s) :=
  regsBut_trans (regsBut_setReg (by decide)) (regsBut_sets (by simp [GLB_DID_STRAP_DID, GLB_DID_DID, GLB_DID]))

/-- A register that PERST_N neither keeps nor writes has its reset value. -/
theorem perstReset_reg_lost (hl : ¬ layerReg o) (ho : o ∉ [RST_CAUSE.off, GLB_DID.off, GLB_PWR_STATUS.off]) (hk : keepReg .perst o = false) :
    (perstReset s).reg o = (resetValue o).toNat := by
  simp only [List.mem_cons, List.not_mem_nil, not_or, or_false] at ho
  obtain ⟨hcause, hdid, hpwr⟩ := ho
  rw [perstReset_regs o (by simp [hcause, hdid]), reg_afterReset, reg_resetRegs_perst hpwr hl, hk, if_neg (by decide)]

/-- A register that PERST_N keeps reads the same, but for what the closing of the pairs writes. -/
theorem perstReset_reg_kept (hl : ¬ layerReg o) (ho : o ∉ [RST_CAUSE.off, GLB_DID.off, GLB_PWR_STATUS.off]) (hk : keepReg .perst o = true) :
    (perstReset s).reg o = (closedDown s).reg o := by
  simp only [List.mem_cons, List.not_mem_nil, not_or, or_false] at ho
  obtain ⟨hcause, hdid, hpwr⟩ := ho
  rw [perstReset_regs o (by simp [hcause, hdid]), reg_afterReset, reg_resetRegs_perst hpwr hl, hk, if_pos rfl]

/-- Is the register at this offset one that counts? -/
def counterAt (o : Nat) : Bool := (descOf o).any fun d => d.cls == .counter

theorem not_counterAt_layer : ∀ n : Fin 16, counterAt (0xA0040 + 4 * n.val) = false := by decide +kernel

theorem not_counterAt_written : ∀ o ∈ [RST_CAUSE.off, GLB_DID.off, GLB_PWR_STATUS.off, RT_BYP_STATUS.off, RT_BYP_OPEN.off], counterAt o = false := by decide +kernel

/-- Counters are kept across PERST_N (Table 4.6), but for the closings that it causes. -/
theorem perstReset_counter {d : RegDesc} (hrun : s.fuse.run = none) (hd : descOf o = some d) (hc : d.cls = .counter) (ho : o ≠ RT_BYP_CLOSES.off) :
    (perstReset s).reg o = s.reg o := by
  have hat : counterAt o = true := by simp [counterAt, hd, hc]
  have hl : ¬ layerReg o := by
    rintro ⟨n, hn, rfl⟩
    have := not_counterAt_layer ⟨n, hn⟩
    simp [this] at hat
  have hw : o ∉ [RST_CAUSE.off, GLB_DID.off, GLB_PWR_STATUS.off, RT_BYP_STATUS.off, RT_BYP_OPEN.off] := fun hm => by simp [not_counterAt_written o hm] at hat
  simp only [List.mem_cons, List.not_mem_nil, not_or, or_false] at hw
  obtain ⟨hcause, hdid, hpwr, hstatus, hopen⟩ := hw
  rw [perstReset_reg_kept hl (by simp [hcause, hdid, hpwr]) (by simp [keepReg, hd, hc]), closedDown_reg hrun hl (by simp [hstatus, hopen, ho])]

theorem perstReset_closes (hrun : s.fuse.run = none) :
    (perstReset s).fld RT_BYP_CLOSES = (s.fld RT_BYP_CLOSES + ((List.range 16).filter fun k => !s.pairClosed k).length) % 2 ^ 32 := by
  rw [← closedDown_closes hrun, State.fld, State.fld, perstReset_reg_kept (by rintro ⟨n, -, hn⟩; exact absurd hn (by simp only [RT_BYP_CLOSES]; omega)) (by decide) (by decide +kernel)]

theorem perstReset_phase : (perstReset s).phase = 0 := by
  rw [State.phase, State.fld, perstReset_reg_lost (by rintro ⟨n, -, hn⟩; exact absurd hn (by simp only [GLB_START_STATUS_PHASE]; omega)) (by decide) (by decide +kernel)]
  decide +kernel

theorem phase_lt (s : State) : s.phase < 16 := fld_lt s GLB_START_STATUS_PHASE

theorem perstReset_cause : (perstReset s).reg RST_CAUSE.off = satAdd 0xFFFF (s.fld RST_CAUSE_WARM_COUNT) 1 * 2 ^ 16 + s.phase * 2 ^ 8 + 2 := by
  have hkeep : (perstReset s).reg RST_CAUSE.off = (perstCause s).reg RST_CAUSE.off :=
    regsBut_sets (l := [GLB_DID.off]) (by simp [GLB_DID_STRAP_DID, GLB_DID_DID, GLB_DID]) _ (by decide)
  have hphase := phase_lt s
  have hwarm : satAdd 0xFFFF (s.fld RST_CAUSE_WARM_COUNT) 1 ≤ 0xFFFF := Nat.min_le_left _ _
  rw [hkeep]
  exact reg_setReg_lt (by omega)

theorem perstReset_cause_perst : (perstReset s).fld RST_CAUSE_PERST = 1 := by
  rw [State.fld, show RST_CAUSE_PERST.off = RST_CAUSE.off from rfl, perstReset_cause]
  simp only [bitsOf, RST_CAUSE_PERST]
  omega

theorem perstReset_cause_por : (perstReset s).fld RST_CAUSE_POR = 0 := by
  rw [State.fld, show RST_CAUSE_POR.off = RST_CAUSE.off from rfl, perstReset_cause]
  simp only [bitsOf, RST_CAUSE_POR]
  omega

theorem perstReset_warmCount : (perstReset s).fld RST_CAUSE_WARM_COUNT = min 0xFFFF (s.fld RST_CAUSE_WARM_COUNT + 1) := by
  have hphase := phase_lt s
  have hwarm : satAdd 0xFFFF (s.fld RST_CAUSE_WARM_COUNT) 1 ≤ 0xFFFF := Nat.min_le_left _ _
  rw [State.fld, show RST_CAUSE_WARM_COUNT.off = RST_CAUSE.off from rfl, perstReset_cause, ← satAdd]
  generalize satAdd 0xFFFF (s.fld RST_CAUSE_WARM_COUNT) 1 = w at hwarm ⊢
  simp only [bitsOf, RST_CAUSE_WARM_COUNT]
  omega

theorem perstReset_lastPhase : (perstReset s).fld RST_CAUSE_LAST_PHASE = s.phase := by
  have hphase := phase_lt s
  rw [State.fld, show RST_CAUSE_LAST_PHASE.off = RST_CAUSE.off from rfl, perstReset_cause]
  generalize satAdd 0xFFFF (s.fld RST_CAUSE_WARM_COUNT) 1 = w
  simp only [bitsOf, RST_CAUSE_LAST_PHASE]
  omega

theorem afterReset_pins (k : ResetKind) : (s.afterReset k).pins = s.pins := rfl

theorem perstCause_pins (hrun : s.fuse.run = none) : (perstCause s).pins = s.pins := by
  rw [perstCause, setReg_pins, afterReset_pins]
  exact closedDown_only hrun .pins (by decide)

theorem perstReset_did (hrun : s.fuse.run = none) :
    (perstReset s).fld GLB_DID_DID = s.pins.idStrap.toNat ∧ (perstReset s).fld GLB_DID_STRAP_DID = s.pins.idStrap.toNat := by
  have hfits : s.pins.idStrap.toNat < 2 ^ 12 := s.pins.idStrap.isLt
  rw [perstReset, perstCause_pins hrun]
  generalize s.pins.idStrap.toNat = v at hfits ⊢
  constructor
  · exact fld_set_fits (f := GLB_DID_DID) (by decide) (by decide) hfits
  · exact (fld_set_disjoint (f := GLB_DID_DID) (g := GLB_DID_STRAP_DID) _ (by decide) (by decide) (by decide) v).trans
      (fld_set_fits (f := GLB_DID_STRAP_DID) (by decide) (by decide) hfits)

/-! ## P1 begins (R62) -/

theorem loadCounters_only : only [.flt, .regs] s s.loadCounters := by
  unfold State.loadCounters
  refine only_then (by simp) (only_sets _) <| only_then (by simp) (only_flt _) <| only_then (by simp) only_setPair <| only_each fun x i => ?_
  exact only_mono (k := [.regs]) (by simp) (only_trans (only_set _ _) (only_set _ _))

theorem startRseq_only : only [.recd] s s.startRseq := only_recd _

theorem driftRows_solid (h : ∀ e ∈ s.fuse.rows, e.2.sl = e.2.sh) : s.driftRows = s := by
  have hnone : (s.fuse.rows.filter fun e => e.2.sl != e.2.sh) = [] := List.filter_eq_nil_iff.mpr fun e he => by simp [h e he]
  rw [State.driftRows, hnone]
  rfl

theorem driftRows_only : only [.free, .fuse] s s.driftRows := only_each fun x e q hq => by
  cases q
  case free | fuse => simp at hq
  all_goals rfl

theorem senseFuses_rows : s.senseFuses.fuse.rows = s.driftRows.fuse.rows := by
  have h : ∀ (x : State) (fs gs : List (Fld × Nat)), ((x.sets fs).sets gs).fuse = x.fuse := fun x fs gs => (only_trans (only_sets fs) (only_sets gs)) .fuse (by decide)
  rw [State.senseFuses, h]

theorem senseFuses_only : only [.free, .fuse, .regs] s s.senseFuses := by
  unfold State.senseFuses
  exact only_trans (only_mono (by simp) driftRows_only) (only_trans (only_mono (k := [.fuse]) (by simp) (only_fuse _)) (only_mono (by simp) (only_trans (only_sets _) (only_sets _))))

theorem variantRegs_only : only [.chan, .regs] s s.variantRegs := by
  unfold State.variantRegs
  have hset : ∀ (x : State) (f : Fld) (v : Nat), only [.chan, .regs] x (x.set f v) := fun x f v => only_mono (by simp) (only_set f v)
  refine only_then (by simp) (only_sets _) ?_
  refine only_trans ?_ (only_each ?_)
  · refine only_trans ?_ (only_each fun x e => hset x _ _)
    refine only_trans (only_each (xs := List.range 4) (f := fun x g => x.setReg (gateOff 0 g) (x.reg (gateOff 0 g) &&& x.gateDomains g)) fun x g => only_mono (by simp) only_setReg) ?_
    exact only_ite (only_trans (only_each fun x p => hset x _ _) (only_each fun x n => hset x _ _)) (only_refl _ _)
  · exact fun x c => only_trans (only_mono (by simp) (only_setChn _ _)) (only_mono (by simp) (only_sets _))

/-- The time and the boot straps that P1 notes. -/
def p1Noted (s : State) : State := { s with start := { s.start with p1At := s.now, boot := s.pins.bootMode } }

theorem enterP1_eq (s : State) : s.enterP1 =
    ((p1Noted s).loadCounters.startRseq.senseFuses.variantRegs).sets [(GLB_START_STATUS_PHASE, 1), (GLB_START_STATUS_START_MS, 0)] := rfl

theorem enterP1_only : only [.start, .flt, .recd, .free, .fuse, .chan, .regs] s s.enterP1 := by
  rw [enterP1_eq]
  have h1 : only [.start, .flt, .recd, .free, .fuse, .chan, .regs] s (p1Noted s) := only_mono (by simp) (only_start _)
  have h2 := only_trans h1 (only_mono (by simp) loadCounters_only)
  have h3 := only_trans h2 (only_mono (by simp) startRseq_only)
  have h4 := only_trans h3 (only_mono (by simp) senseFuses_only)
  have h5 := only_trans h4 (only_mono (by simp) variantRegs_only)
  exact only_trans h5 (only_mono (by simp) (only_sets _))

theorem enterP1_start : s.enterP1.start = { s.start with p1At := s.now, boot := s.pins.bootMode } := by
  rw [enterP1_eq]
  exact (only_sets _ .start (by decide)).trans <| (variantRegs_only .start (by decide)).trans <| (senseFuses_only .start (by decide)).trans <|
    (startRseq_only .start (by decide)).trans (loadCounters_only .start (by decide))

theorem enterP1_rows (h : ∀ e ∈ s.fuse.rows, e.2.sl = e.2.sh) : s.enterP1.fuse.rows = s.fuse.rows := by
  have hfuse : (p1Noted s).loadCounters.startRseq.fuse = s.fuse := (startRseq_only .fuse (by decide)).trans (loadCounters_only .fuse (by decide))
  have hvariant : s.enterP1.fuse = (p1Noted s).loadCounters.startRseq.senseFuses.fuse := by
    rw [enterP1_eq]
    exact (only_sets _ .fuse (by decide)).trans (variantRegs_only .fuse (by decide))
  rw [hvariant, senseFuses_rows, driftRows_solid (by rw [hfuse]; exact h), hfuse]

theorem enterP1_phase : s.enterP1.phase = 1 := by
  rw [enterP1_eq]
  exact (fld_set_disjoint (f := GLB_START_STATUS_START_MS) (g := GLB_START_STATUS_PHASE) _ (by decide) (by decide) (by decide) 0).trans
    (fld_set_fits (f := GLB_START_STATUS_PHASE) (by decide) (by decide) (by decide))

theorem enterP1_startMs : s.enterP1.fld GLB_START_STATUS_START_MS = 0 := by
  rw [enterP1_eq]
  exact fld_set_fits (f := GLB_START_STATUS_START_MS) (by decide) (by decide) (by decide)

/-! ## Closing every pair (R172) -/

theorem pairClosed_links (h : Links s t) (n : Nat) : t.pairClosed n = s.pairClosed n := by
  have hreg : ¬ linkReg RT_BYP_STATUS_CLOSED.off := by
    simp [linkReg, packetReg, RT_BYP_STATUS_CLOSED, RT_UNREACH, RT_CNT_VIOL_ROUTE, RT_HOPS_EXCEEDED, GLB_CNT_VIOL_MALFORMED, RT_WAIT_EXPIRED, RT_DROP]
  rw [State.pairClosed, State.pairClosed, Frame.fld h hreg]

theorem putBit_fits {w i : Nat} (hw : w < 2 ^ 16) (hi : i < 16) (b : Bool) : putBit w i b < 2 ^ 16 := by
  refine Nat.lt_pow_two_of_testBit _ fun j hj => ?_
  rw [testBit_putBit, if_neg (by omega)]
  exact Nat.testBit_lt_two_pow (Nat.lt_of_lt_of_le hw (Nat.pow_le_pow_right (by decide) hj))

/-- A pair that closes is closed, and no other opens. -/
theorem pairClosed_closePair {n m : Nat} (hn : n < 16) : (s.closePair n).pairClosed m = (decide (m = n) || s.pairClosed m) := by
  unfold State.closePair
  by_cases hc : s.pairClosed n = true
  · rw [if_pos hc]
    by_cases hm : m = n <;> simp [hm, hc]
  · rw [if_neg hc, pairClosed_links (links_checkPort _), pairClosed_links (links_checkPort _), State.pairClosed]
    have hfits : putBit (s.fld RT_BYP_STATUS_CLOSED) n true < 2 ^ 16 := putBit_fits (fld_lt s RT_BYP_STATUS_CLOSED) hn true
    have hfld : ((s.sets [(RT_BYP_STATUS_CLOSED, putBit (s.fld RT_BYP_STATUS_CLOSED) n true), (RT_BYP_OPEN_OPEN, putBit (s.fld RT_BYP_OPEN_OPEN) n false),
        (RT_BYP_STATUS_LISTEN_READY, putBit (s.fld RT_BYP_STATUS_LISTEN_READY) n false)]).inc RT_BYP_CLOSES).fld RT_BYP_STATUS_CLOSED = putBit (s.fld RT_BYP_STATUS_CLOSED) n true := by
      rw [fld_inc_ne (by decide)]
      exact (fld_set_disjoint (f := RT_BYP_STATUS_LISTEN_READY) (g := RT_BYP_STATUS_CLOSED) _ (by decide) (by decide) (by decide) _).trans <|
        (fld_set_ne _ (f := RT_BYP_OPEN_OPEN) (g := RT_BYP_STATUS_CLOSED) (by decide) _).trans (fld_set_fits (f := RT_BYP_STATUS_CLOSED) (by decide) (by decide) hfits)
    rw [hfld, bitAt, testBit_putBit, State.pairClosed, bitAt]
    by_cases hm : m = n <;> simp [hm]

/-- A property that the step for one element brings about, and that no step of the list undoes, holds after all of them. -/
theorem each_in_reaches {α : Type} {P : State → Prop} {xs : List α} {f : State → α → State} {a : α} (ha : a ∈ xs) (hmake : ∀ x, P (f x a))
    (hkeep : ∀ x, ∀ e ∈ xs, P x → P (f x e)) : P (s.each xs f) := by
  induction xs generalizing s with
  | nil => simp at ha
  | cons e xs ih =>
    have hrest : ∀ x, ∀ e ∈ xs, P x → P (f x e) := fun x e he => hkeep x e (List.mem_cons_of_mem _ he)
    rcases List.mem_cons.mp ha with rfl | h
    · have hstays : ∀ (ys : List α) (y : State), (∀ x, ∀ e ∈ ys, P x → P (f x e)) → P y → P (y.each ys f) := by
        intro ys
        induction ys with
        | nil => exact fun y _ hy => hy
        | cons b ys ihs => exact fun y hys hy => ihs (f y b) (fun x e he => hys x e (List.mem_cons_of_mem _ he)) (hys y b List.mem_cons_self hy)
      exact hstays xs _ hrest (hmake s)
    · exact ih h hrest

/-- While BYP_FORCE_N is low every pair must close. -/
theorem closePairs_forced {n : Nat} (hn : n < 16) (hforce : s.pins.bypForceN = false) : s.closePairs.pairClosed n = true := by
  have hpins : ∀ (x : State) (m : Nat), (if x.mustClose m then x.closePair m else x).pins = x.pins := fun x m =>
    Frame.agree (Frame.ite (fabric_closePair m) (.refl _ _ _)) (p := .pins) (by decide)
  have hmust : ∀ (x : State) (m : Nat), x.pins.bypForceN = false → x.mustClose m = true := fun x m hx => by simp [State.mustClose, hx]
  have hclosed : s.closePairs.pins.bypForceN = false → s.closePairs.pairClosed n = true := by
    unfold State.closePairs
    refine each_in_reaches (P := fun x => x.pins.bypForceN = false → x.pairClosed n = true) (a := n) (List.mem_range.mpr hn) ?_ ?_
    · intro x hx
      rw [hpins] at hx
      rw [if_pos (hmust x n hx), pairClosed_closePair hn]
      simp
    · intro x m hm hkeep hx
      rw [hpins] at hx
      rw [if_pos (hmust x m hx), pairClosed_closePair (List.mem_range.mp hm), hkeep hx, Bool.or_true]
  exact hclosed ((congrArg Pins.bypForceN (Frame.agree fabric_closePairs (p := .pins) (by decide))).trans hforce)

/-! ## The pins -/

theorem execPerstNLow_held (h : s.rails.vaon = false ∨ s.pins.perstN = false ∨ s.vaonHold = true) :
    exec .perstNLow s = .next { s with pins := { s.pins with perstN := false } } := by
  show execPerstNLow s = _
  rw [execPerstNLow, if_pos]
  rcases h with h | h | h <;> simp [h]

theorem execPerstNLow_reset (hv : s.rails.vaon = true) (hp : s.pins.perstN = true) (hh : s.vaonHold = false) :
    exec .perstNLow s = .next (perstReset { s with pins := { s.pins with perstN := false } }) := by
  show execPerstNLow s = _
  rw [execPerstNLow, if_neg (by simp [hv, hp, hh]), baseReset_perst (by exact hh)]

theorem execPerstNHigh_waits (h : s.phase ≠ 0 ∨ s.powerGood = false ∨ s.vaonHold = true) :
    exec .perstNHigh s = .next { s with pins := { s.pins with perstN := true } } := by
  show Host.Outcome.next (State.tryStart _) = _
  rw [State.tryStart, if_neg]
  show ¬ (s.phase == 0 && s.powerGood && true && !s.vaonHold) = true
  rcases h with h | h | h <;> simp [h]

theorem execPerstNHigh_starts (hp : s.phase = 0) (hg : s.powerGood = true) (hh : s.vaonHold = false) :
    exec .perstNHigh s = .next ({ s with pins := { s.pins with perstN := true } } : State).enterP1 := by
  show Host.Outcome.next (State.tryStart _) = _
  rw [State.tryStart, if_pos]
  show (s.phase == 0 && s.powerGood && true && !s.vaonHold) = true
  simp [hp, hg, hh]

theorem afterReset_perst_fuse : (s.afterReset .perst).fuse = { s.fuse with run := none } := rfl

theorem afterReset_perst_recd : (s.afterReset .perst).recd = { rseq := s.recd.rseq, opSec := s.recd.opSec, pwr := s.recd.pwr } := rfl

theorem afterReset_rails (k : ResetKind) : (s.afterReset k).rails = s.rails := rfl
theorem afterReset_sett (k : ResetKind) : (s.afterReset k).sett = s.sett := rfl
theorem afterReset_pending (k : ResetKind) : (s.afterReset k).pending = s.pending := rfl
theorem afterReset_sw (k : ResetKind) : (s.afterReset k).sw = {} := rfl
theorem afterReset_txns (k : ResetKind) : (s.afterReset k).txns = [] := rfl
theorem afterReset_rings (k : ResetKind) : (s.afterReset k).rings = [] := rfl
theorem afterReset_fox (k : ResetKind) : (s.afterReset k).fox = {} := rfl
theorem afterReset_links (k : ResetKind) : (s.afterReset k).links = [] := rfl

/-- The parts that PERST_N keeps. -/
theorem perstReset_keeps (hrun : s.fuse.run = none) :
    (perstReset s).pins = s.pins ∧ (perstReset s).rails = s.rails ∧ (perstReset s).fuse = s.fuse ∧ (perstReset s).sett = s.sett
      ∧ (perstReset s).recd = { rseq := s.recd.rseq, opSec := s.recd.opSec, pwr := s.recd.pwr } ∧ (perstReset s).pending = s.pending := by
  have hclosed := closedDown_only hrun
  have hstays : only [.regs] ((closedDown s).afterReset .perst) (perstReset s) := perstReset_only
  generalize perstReset s = t at hstays ⊢
  generalize closedDown s = c at hstays hclosed
  have hpins := afterReset_pins (s := c) .perst
  have hrails := afterReset_rails (s := c) .perst
  have hsett := afterReset_sett (s := c) .perst
  have hpending := afterReset_pending (s := c) .perst
  have hfuse := afterReset_perst_fuse (s := c)
  have hrecd := afterReset_perst_recd (s := c)
  generalize c.afterReset .perst = z at hstays hpins hrails hsett hpending hfuse hrecd
  have hcfuse : c.fuse = s.fuse := hclosed .fuse (by decide)
  have hcrecd : c.recd = s.recd := hclosed .recd (by decide)
  have hcut : ({ s.fuse with run := none } : FuseSt) = s.fuse := by rw [← hrun]
  refine ⟨(hstays .pins (by decide)).trans (hpins.trans (hclosed .pins (by decide))), (hstays .rails (by decide)).trans (hrails.trans (hclosed .rails (by decide))),
    (hstays .fuse (by decide)).trans ?_, (hstays .sett (by decide)).trans (hsett.trans (hclosed .sett (by decide))), (hstays .recd (by decide)).trans ?_,
    (hstays .pending (by decide)).trans (hpending.trans (hclosed .pending (by decide)))⟩
  · rw [hfuse, hcfuse, hcut]
  · rw [hrecd, hcrecd]

/-- The parts that PERST_N empties. -/
theorem perstReset_empties : (perstReset s).sw = {} ∧ (perstReset s).txns = [] ∧ (perstReset s).rings = [] ∧ (perstReset s).fox = {} ∧ (perstReset s).links = [] := by
  have hstays : only [.regs] ((closedDown s).afterReset .perst) (perstReset s) := perstReset_only
  generalize perstReset s = t at hstays ⊢
  generalize closedDown s = c at hstays
  have hsw := afterReset_sw (s := c) .perst
  have htxns := afterReset_txns (s := c) .perst
  have hrings := afterReset_rings (s := c) .perst
  have hfox := afterReset_fox (s := c) .perst
  have hlinks := afterReset_links (s := c) .perst
  generalize c.afterReset .perst = z at hstays hsw htxns hrings hfox hlinks
  exact ⟨(hstays .sw (by decide)).trans hsw, (hstays .txns (by decide)).trans htxns, (hstays .rings (by decide)).trans hrings, (hstays .fox (by decide)).trans hfox,
    (hstays .links (by decide)).trans hlinks⟩

/-- Settles O10, from what each step of the warm reset, of P1 and of the closing of a pair leaves alone. -/
theorem pinCommands : Obligations.PinCommands := by
  unfold Obligations.PinCommands
  refine ⟨fun s h => execPerstNLow_held h, fun s hv hp hh hrun => ⟨_, execPerstNLow_reset hv hp hh, ?_⟩, fun s h => execPerstNHigh_waits h,
    fun s hp hg hh => ⟨_, execPerstNHigh_starts hp hg hh, ?_⟩, fun s => ⟨_, rfl, ?_, ?_, ?_⟩⟩
  · obtain ⟨x, hx⟩ : ∃ x : State, ({ s with pins := { s.pins with perstN := false } } : State) = x := ⟨_, rfl⟩
    rw [hx]
    have hlow : x.fuse.run = none := by subst hx; exact hrun
    have hregs : x.regs = s.regs := by subst hx; rfl
    have hfld : ∀ f : Fld, x.fld f = s.fld f := fld_congr hregs
    have hcloses := perstReset_closes hlow
    simp only [State.pairClosed, hfld] at hcloses
    obtain ⟨hpins, hrails, hfuse, hsett, hrecd, hpending⟩ := perstReset_keeps hlow
    obtain ⟨hsw, htxns, hrings, hfox, hlinks⟩ := perstReset_empties (s := x)
    obtain ⟨hdid, hstrap⟩ := perstReset_did hlow
    refine ⟨hpins.trans (by subst hx; rfl), perstReset_phase, perstReset_cause_perst, perstReset_cause_por, perstReset_warmCount.trans (by rw [hfld]),
      perstReset_lastPhase.trans (hfld _), hdid.trans (by subst hx; rfl), hstrap.trans (by subst hx; rfl),
      fun o d hd hc ho => (perstReset_counter hlow hd hc ho).trans (reg_congr hregs o), hcloses, hrails.trans (by subst hx; rfl), hfuse.trans (by subst hx; rfl),
      hsett.trans (by subst hx; rfl), by rw [hrecd, ← hx], by rw [hrecd, ← hx], by rw [hrecd, ← hx], hsw, htxns, hrings, hfox, hlinks,
      hpending.trans (by subst hx; rfl)⟩
  · exact ⟨enterP1_only .pins (by decide), enterP1_phase, enterP1_startMs, congrArg StartSt.p1At enterP1_start, congrArg StartSt.boot enterP1_start,
      fun hrows => enterP1_rows hrows, enterP1_only .rails (by decide)⟩
  · exact Frame.agree fabric_closePairs (p := .pins) (by decide)
  · exact fun n hn => closePairs_forced hn rfl
  · exact only_trans (only_mono (by simp) (only_pins _)) (only_mono (by simp) fabric_closePairs.parts)

end Sys2Proof.Proofs
end

section
/-! SUPPORT. The fault collector (R400, R403, R412): which registers and which parts of the state a fault may change, that no fault below class G
makes anything due at once while the stack is awake, and the traps of engines (R352, R353). -/

namespace Sys2Proof.Proofs

set_option Elab.async false

open Sys2Proof.Machine Sys2Proof.Laws

variable {s t : State} {d code detail unit sev : Nat} {cls : FltClass} {inj : Bool} {f : FltCause}

/-! ## What a fault may change -/

/-- The registers that a fault may write: those of the recorder and of the packets sent, and the collector's counters. -/
def faultReg (o : Nat) : Prop :=
  recReg o ∨ packetReg o ∨ o = FLT_RAISED_LO.off ∨ o = FLT_RAISED_LO.off + 4 ∨ o = FLT_MERGED.off ∨ o = FLT_ALARMS_SENT.off ∨ o = FLT_ALARMS_FOLDED.off

/-- What a fault may change while the stack is awake. -/
abbrev Faulted (s t : State) : Prop := Frame [.regs, .recd, .sett, .sw, .flt] faultReg s t

/-- Faults write no register from 0x10000 on. -/
theorem faultReg_lt {o : Nat} (h : faultReg o) : o < 0x10000 := by
  rcases h with (h | ⟨-, h⟩) | h | h | h | h | h | h
  · rw [h]; decide
  · omega
  · rcases h with h | h | h | h | h | h <;> rw [h] <;> decide
  all_goals rw [h]; decide

theorem faulted_fault (h : only [.flt] s t) : Faulted s t := .of_only h (by simp) (by simp)

theorem sendAlarms_faulted (d folded : Nat) : Faulted s (s.sendAlarms d folded) := by
  have hsent : Faulted s (s.each s.alarmDsts fun t e =>
      (({ t with flt := { t.flt with alarmSeq := t.flt.alarmSeq + 1 } }).inc FLT_ALARMS_SENT).emit (t.alarmPacket d folded (t.flt.alarmSeq + 1).toNat e)) := by
    refine .each fun x e _ => ?_
    have hseq : Faulted x { x with flt := { x.flt with alarmSeq := x.flt.alarmSeq + 1 } } := faulted_fault (only_flt _)
    exact (hseq.trans (.inc (by simp) (.inr (.inr (.inr (.inr (.inr (.inl rfl)))))))).trans ((sends_emit _).mono (by simp) fun _ h => .inr (.inl h))
  simp only [State.sendAlarms]
  split
  · exact hsent
  · exact hsent.trans (faulted_fault (only_flt _))

theorem alarm_faulted (d : Nat) : Faulted s (s.alarm d) := by
  unfold State.alarm
  split
  · exact sendAlarms_faulted d 1
  · exact Frame.trans (.inc (by simp) (.inr (.inr (.inr (.inr (.inr (.inr rfl))))))) (faulted_fault (only_flt _))

theorem recChanged_faulted (d : Nat) : Faulted s (s.recChanged d) :=
  ((record_frame 0x02 (fltSev_lt _) _ _ _).mono (by simp) fun _ h => .inl h).trans (alarm_faulted d)

theorem fltMerge_faulted : Faulted s (s.fltMerge d code cls detail inj) := by
  have hrec : ∀ r, Faulted s (s.setRec d r) := fun r => faulted_fault (only_flt _)
  have hraised : ∀ x : State, Faulted x (x.incPair FLT_RAISED_LO 1) := fun x =>
    Frame.trans (.setReg (by simp) (.inr (.inr (.inl rfl)))) (.setReg (by simp) (.inr (.inr (.inr (.inl rfl)))))
  simp only [State.fltMerge]
  split
  · exact ((hrec _).trans (hraised _)).trans (.inc (by simp) (.inr (.inr (.inr (.inr (.inl rfl))))))
  · exact (hrec _).trans (hraised _)

/-- Code, class and domain of a fault on this stack. -/
def faultOf (s : State) (f : FltCause) (unit : Nat) : Nat × FltClass × Nat := causeOf (if s.variant = 0x96 then .d else .a) f unit

/-- The record of a fault, and what its change asks for. -/
def faultTaken (s : State) (f : FltCause) (unit detail : Nat) (inj : Bool) : State :=
  (s.fltMerge (faultOf s f unit).2.2 (faultOf s f unit).1 (faultOf s f unit).2.1 detail inj).recChanged (faultOf s f unit).2.2

/-- A fault is taken by its domain's record, in sleep with a wake, unless the domain is off or the collector does not run. -/
theorem raiseRec_cases : s.raiseRec f unit detail inj = s ∨ s.raiseRec f unit detail inj = faultTaken s f unit detail inj
    ∨ ((2 ≤ s.sleep ∨ s.pwr.entry ≠ none)
      ∧ s.raiseRec f unit detail inj = { faultTaken s f unit detail inj with pwr := { (faultTaken s f unit detail inj).pwr with wakeDue := true } }) := by
  have heq : s.raiseRec f unit detail inj = if (s.domOff (faultOf s f unit).2.2 || !s.collects) = true then s
      else if ((decide (2 ≤ s.sleep) || s.pwr.entry.isSome) && ((faultOf s f unit).2.1 == .c || (faultOf s f unit).2.1 == .d)) = true then
        { faultTaken s f unit detail inj with pwr := { (faultTaken s f unit detail inj).pwr with wakeDue := true } }
      else faultTaken s f unit detail inj := rfl
  rw [heq]
  split
  · exact .inl rfl
  · split
    case isTrue h =>
      refine .inr (.inr ⟨?_, rfl⟩)
      rw [Bool.and_eq_true, Bool.or_eq_true, decide_eq_true_eq, Option.isSome_iff_ne_none] at h
      exact h.1
    case isFalse => exact .inr (.inl rfl)

theorem faultTaken_faulted : Faulted s (faultTaken s f unit detail inj) := fltMerge_faulted.trans (recChanged_faulted _)

/-- A fault may also ask for a wake. -/
theorem raiseRec_frame : Frame [.regs, .recd, .sett, .sw, .flt, .pwr] faultReg s (s.raiseRec f unit detail inj) := by
  have htaken : Frame [.regs, .recd, .sett, .sw, .flt, .pwr] faultReg s (faultTaken s f unit detail inj) := faultTaken_faulted.mono (by simp) fun _ h => h
  rcases raiseRec_cases (s := s) (f := f) (unit := unit) (detail := detail) (inj := inj) with h | h | ⟨-, h⟩ <;> rw [h]
  · exact .refl _ _ _
  · exact htaken
  · exact htaken.trans (.of_only (only_pwr _) (by simp) (by simp))

/-- Is the stack in S0 or S1 with no entry to sleep under way? -/
def notSleeping (s : State) : Prop := s.sleep ≤ 1 ∧ s.pwr.entry = none

theorem raiseRec_awake (hs : notSleeping s) : s.raiseRec f unit detail inj = s ∨ s.raiseRec f unit detail inj = faultTaken s f unit detail inj := by
  obtain ⟨hsleep, hentry⟩ := hs
  rcases raiseRec_cases (s := s) (f := f) (unit := unit) (detail := detail) (inj := inj) with h | h | ⟨h | h, -⟩
  · exact .inl h
  · exact .inr h
  · omega
  · exact absurd hentry h

theorem raiseRec_faulted (hs : notSleeping s) : Faulted s (s.raiseRec f unit detail inj) := by
  rcases raiseRec_awake hs (f := f) (unit := unit) (detail := detail) (inj := inj) with h | h <;> rw [h]
  · exact .refl _ _ _
  · exact faultTaken_faulted

theorem Faulted.notSleeping (h : Faulted s t) (hs : notSleeping s) : notSleeping t := by
  have hsleep : t.sleep = s.sleep := Frame.fld h (f := GLB_PWR_STATUS_STATE) (by
    simp [faultReg, recReg, packetReg, GLB_PWR_STATUS_STATE, REC_FOLDS, RT_UNREACH, RT_CNT_VIOL_ROUTE, RT_HOPS_EXCEEDED, GLB_CNT_VIOL_MALFORMED, RT_WAIT_EXPIRED, RT_DROP,
      FLT_RAISED_LO, FLT_MERGED, FLT_ALARMS_SENT, FLT_ALARMS_FOLDED])
  have hpwr : t.pwr = s.pwr := Frame.agree h (p := .pwr) (by decide)
  rw [Proofs.notSleeping, hsleep, hpwr]
  exact hs

/-! ## Nothing of class G -/

theorem calm_iff : s.calm = true ↔ s.pwr.wakeDue = false ∧ s.pwr.entry = none ∧ s.graveRec = false := by
  cases h : s.pwr.entry <;> simp [State.calm, h, and_comm]

theorem graveRec_congr (h : t.flt.recs = s.flt.recs) : t.graveRec = s.graveRec := by rw [State.graveRec, State.graveRec, h]

theorem emit_flt (p : Packet) : (s.emit p).flt = s.flt := Frame.agree (sends_emit p) (p := .flt) (by decide)

theorem sendAlarms_recs (d folded : Nat) : (s.sendAlarms d folded).flt.recs = s.flt.recs := by
  have hsent : (s.each s.alarmDsts fun t e =>
      (({ t with flt := { t.flt with alarmSeq := t.flt.alarmSeq + 1 } }).inc FLT_ALARMS_SENT).emit (t.alarmPacket d folded (t.flt.alarmSeq + 1).toNat e)).flt.recs = s.flt.recs :=
    each_keeps (P := fun x => x.flt.recs = s.flt.recs) rfl fun x e h => by rw [emit_flt]; exact h
  simp only [State.sendAlarms]
  split
  · exact hsent
  · exact hsent

theorem alarm_recs (d : Nat) : (s.alarm d).flt.recs = s.flt.recs := by
  unfold State.alarm
  split
  · exact sendAlarms_recs d 1
  · rfl

theorem recChanged_recs (d : Nat) : (s.recChanged d).flt.recs = s.flt.recs := by
  have hrec : (s.faultRec d).flt = s.flt := Frame.agree (record_frame 0x02 (fltSev_lt _) _ _ _) (p := .flt) (by decide)
  rw [State.recChanged, alarm_recs, hrec]

theorem startTimer_kept (r : FltRec) : (s.startTimer r).isOpen = r.isOpen ∧ (s.startTimer r).cls = r.cls := by
  unfold State.startTimer
  split <;> exact ⟨rfl, rfl⟩

/-- A merge below class G opens no record of class G. -/
theorem fltMerge_calm (hcalm : s.calm = true) (hcls : cls ≠ .g) : (s.fltMerge d code cls detail inj).calm = true := by
  have hraised : ∀ x : State, (x.incPair FLT_RAISED_LO 1).calm = x.calm := fun x => calm_of rfl rfl
  have hinc : ∀ x : State, (x.inc FLT_MERGED).calm = x.calm := fun x => calm_of rfl rfl
  have hnot : (cls == FltClass.g) = false := by simpa using hcls
  simp only [State.fltMerge]
  split
  case isTrue ho =>
    have hold : ((s.fltRec d).cls == FltClass.g) = false := by simpa using cls_of_calm hcalm ho
    rw [hinc, hraised]
    refine calm_setRec hcalm ?_
    split
    · rw [(startTimer_kept _).1, (startTimer_kept _).2]
      simp [hnot]
    · simp [hold]
  case isFalse =>
    rw [hraised]
    refine calm_setRec hcalm ?_
    rw [(startTimer_kept _).1, (startTimer_kept _).2]
    simp [hnot]

/-- A fault below class G, while the stack is awake, makes nothing due at once. -/
theorem raiseRec_calm (hcalm : s.calm = true) (hsleep : s.sleep ≤ 1) (hcls : (faultOf s f unit).2.1 ≠ .g) : (s.raiseRec f unit detail inj).calm = true := by
  obtain ⟨-, hentry, -⟩ := calm_iff.mp hcalm
  rcases raiseRec_awake ⟨hsleep, hentry⟩ (f := f) (unit := unit) (detail := detail) (inj := inj) with h | h <;> rw [h]
  · exact hcalm
  · have hmerged : (s.fltMerge (faultOf s f unit).2.2 (faultOf s f unit).1 (faultOf s f unit).2.1 detail inj).calm = true := fltMerge_calm hcalm hcls
    unfold faultTaken
    generalize s.fltMerge _ _ _ _ _ = u at hmerged ⊢
    obtain ⟨hwake, hentry', hgrave⟩ := calm_iff.mp hmerged
    have hpwr : ∀ d, (u.recChanged d).pwr = u.pwr := fun d => Frame.agree (recChanged_faulted d) (p := .pwr) (by decide)
    exact calm_iff.mpr ⟨by rw [hpwr]; exact hwake, by rw [hpwr]; exact hentry', (graveRec_congr (recChanged_recs _)).trans hgrave⟩

/-! ## Traps of engines (R352, R353) -/

/-- What a trap shows of an engine, with what its end neither hides nor touches: its count and cause, the DRAM, and that nothing is due at once. -/
def TrapShown (e n code : Nat) (c : ChanSt) (s : State) : Prop :=
  s.fld (FOX_TRAPS e) = n ∧ s.fld (FOX_STATUS_TRAP_CAUSE e) = code ∧ s.chan = c ∧ s.calm = true ∧ s.sleep ≤ 1

section
variable {e n k : Nat} {c : ChanSt}

theorem TrapShown.fox (h : TrapShown e n code c s) (x : FoxSt) : TrapShown e n code c { s with fox := x } := h

theorem putEng_eq (g : Engine) : s.putEng k g = (s.setEng k g).set (FOX_STATUS_STATE k) (engStCode g.st) := rfl

/-- The cause of a trap stands beside the state of an engine, of the same one or another. -/
theorem putEng_cause (g : Engine) : (s.putEng k g).fld (FOX_STATUS_TRAP_CAUSE e) = s.fld (FOX_STATUS_TRAP_CAUSE e) := by
  rw [putEng_eq, fld_set_disjoint (f := FOX_STATUS_STATE k) (g := FOX_STATUS_TRAP_CAUSE e) _ (by simp [FOX_STATUS_STATE]) (by simp [FOX_STATUS_STATE])
    (by simp [FOX_STATUS_STATE, FOX_STATUS_TRAP_CAUSE])]
  exact fld_congr rfl _

theorem putEng_state (g : Engine) : (s.putEng e g).fld (FOX_STATUS_STATE e) = engStCode g.st := by
  have hcode : engStCode g.st < 2 ^ 3 := by cases g.st <;> decide
  rw [putEng_eq]
  exact fld_set_fits (f := FOX_STATUS_STATE e) (by simp [FOX_STATUS_STATE]) (by simp [FOX_STATUS_STATE]) hcode

theorem putEng_fld_ne (g : Engine) {f : Fld} (hf : f.off ≠ (FOX_STATUS_STATE k).off) : (s.putEng k g).fld f = s.fld f := by
  rw [putEng_eq, fld_set_ne _ hf]
  exact fld_congr rfl f

theorem putEng_only (g : Engine) : only [.fox, .regs] s (s.putEng k g) := by
  rw [putEng_eq]
  exact only_trans (only_mono (by simp) (only_setEng _ _)) (only_mono (by simp) (only_set _ _))

theorem putEng_regs (g : Engine) : regsBut [(FOX_STATUS k).off] s (s.putEng k g) := by
  rw [putEng_eq]
  exact regsBut_trans (regsBut_of_regs rfl) (regsBut_set (by simp [FOX_STATUS_STATE, FOX_STATUS]))

theorem putEng_calm (g : Engine) : (s.putEng k g).calm = s.calm := by
  rw [putEng_eq]
  exact calm_of (set_pwr _ _ _) (set_flt _ _ _)

theorem putEng_chan (g : Engine) : (s.putEng k g).chan = s.chan := by rw [putEng_eq, set_chan]; rfl

theorem eng_putEng_same (g : Engine) : (s.putEng e g).eng e = g := by rw [putEng_eq, eng_congr (set_fox _ _ _), eng_setEng_same]

theorem eng_putEng_ne (h : k ≠ e) (g : Engine) : (s.putEng e g).eng k = s.eng k := by rw [putEng_eq, eng_congr (set_fox _ _ _), eng_setEng_ne h]

theorem TrapShown.putEng (h : TrapShown e n code c s) (g : Engine) : TrapShown e n code c (s.putEng k g) := by
  obtain ⟨htraps, hcause, hchan, hcalm, hsleep⟩ := h
  refine ⟨(putEng_fld_ne g ?_).trans htraps, (putEng_cause g).trans hcause, (putEng_chan g).trans hchan, (putEng_calm g).trans hcalm,
    Eq.trans_le (putEng_fld_ne g (f := GLB_PWR_STATUS_STATE) ?_) hsleep⟩
  · simp only [FOX_TRAPS, FOX_STATUS_STATE]
    omega
  · simp only [GLB_PWR_STATUS_STATE, FOX_STATUS_STATE]
    omega

theorem TrapShown.offEng (h : TrapShown e n code c s) : TrapShown e n code c (s.offEng k) := by
  simp only [State.offEng]
  split
  · exact h.putEng _
  · exact h.fox _

theorem TrapShown.raiseRec (h : TrapShown e n code c s) (hcls : ∀ x, (causeOf x f unit).2.1 ≠ .g) : TrapShown e n code c (s.raiseRec f unit detail inj) := by
  obtain ⟨htraps, hcause, hchan, hcalm, hsleep⟩ := h
  have hawake : notSleeping s := ⟨hsleep, (calm_iff.mp hcalm).2.1⟩
  have hfault : Faulted s (s.raiseRec f unit detail inj) := raiseRec_faulted hawake
  have hhigh : ∀ g : Fld, 0x10000 ≤ g.off → (s.raiseRec f unit detail inj).fld g = s.fld g := fun g hg => Frame.fld hfault fun hr => by
    have := faultReg_lt hr
    omega
  refine ⟨(hhigh _ ?_).trans htraps, (hhigh _ ?_).trans hcause, (Frame.agree hfault (p := .chan) (by decide)).trans hchan, raiseRec_calm hcalm hsleep (hcls _),
    (hfault.notSleeping hawake).1⟩
  · simp only [FOX_TRAPS]
    omega
  · simp only [FOX_STATUS_TRAP_CAUSE]
    omega

theorem TrapShown.disableAll (h : TrapShown e n code c s) : TrapShown e n code c s.disableAll :=
  TrapShown.raiseRec (TrapShown.fox (each_keeps h fun _ _ hx => hx.offEng) _) fun _ => by simp [causeOf]

theorem TrapShown.checkRetained (h : TrapShown e n code c s) : TrapShown e n code c s.checkRetained.2 := by
  simp only [State.checkRetained]
  split
  · exact h
  · split
    · split
      · exact h.fox _
      · exact h
    · exact h

theorem TrapShown.reloadEng (h : TrapShown e n code c s) : TrapShown e n code c (s.reloadEng k true) := by
  have hcheck := h.checkRetained
  unfold State.reloadEng
  split
  next heq =>
    rw [heq] at hcheck
    exact hcheck.disableAll
  next heq =>
    rw [heq] at hcheck
    rw [if_pos rfl]
    exact hcheck.putEng _

/-- The time of a fetch or watchdog trap, which the next one is judged by (R353). -/
def trapTimed (s : State) (e cause at_ : Nat) : State := if cause = 1 ∨ cause = 4 then s.setEng e { s.eng e with trapAt := some at_ } else s

theorem TrapShown.trapTimed (h : TrapShown e n code c s) {cause at_ : Nat} : TrapShown e n code c (trapTimed s k cause at_) := by
  unfold Proofs.trapTimed
  split
  · exact h.fox _
  · exact h

/-- Is this the second fetch or watchdog trap within a second (R353)? -/
def trapsAgain (s : State) (e cause : Nat) : Bool :=
  (cause == 1 || cause == 4) && (match (s.eng e).trapAt with
    | some t => decide (s.now < t + 1000000)
    | none => false)

/-- The end of a trap of an engine without work: disabled at the second one within a second, else reloaded. -/
theorem endTrap_idle (hrun : (s.eng e).run = none) (cause : Nat) (equal : Bool) :
    s.endTrap e cause equal = if trapsAgain s e cause = true then
        (trapTimed (s.putEng e { s.eng e with st := .disabled, run := none, trapping := none, den := [] }) e cause s.now).raiseRec .foxDisabled e cause (s.eng e).trapInj
      else trapTimed ((if cause = 1 ∨ cause = 4 then s.raiseRec .foxTrap e cause (s.eng e).trapInj else s).reloadEng e equal) e cause s.now := by
  simp only [State.endTrap, hrun]
  rfl

theorem TrapShown.endTrap (h : TrapShown e n code c s) (hrun : (s.eng k).run = none) (cause : Nat) : TrapShown e n code c (s.endTrap k cause true) := by
  rw [endTrap_idle hrun]
  split
  · exact ((h.putEng _).trapTimed).raiseRec fun _ => by simp [causeOf]
  · refine (TrapShown.reloadEng ?_).trapTimed
    split
    · exact h.raiseRec fun _ => by simp [causeOf]
    · exact h

/-- A trap is counted, and shows its cause. -/
def trapNoted (s : State) (e cause : Nat) : State := ((s.setEng e { s.eng e with trapInj := false }).inc (FOX_TRAPS e)).set (FOX_STATUS_TRAP_CAUSE e) cause

theorem trapNoted_traps (cause : Nat) : (trapNoted s e cause).fld (FOX_TRAPS e) = (s.fld (FOX_TRAPS e) + 1) % 2 ^ 32 := by
  rw [trapNoted, fld_set_ne _ (by simp only [FOX_TRAPS, FOX_STATUS_TRAP_CAUSE]; omega), fld_inc_same (f := FOX_TRAPS e) (by simp [FOX_TRAPS]) (by simp [FOX_TRAPS]),
    fld_congr (s := s) rfl]
  rfl

theorem trapNoted_cause {cause : Nat} (hc : cause < 16) : (trapNoted s e cause).fld (FOX_STATUS_TRAP_CAUSE e) = cause := by
  rw [trapNoted]
  exact fld_set_fits (f := FOX_STATUS_TRAP_CAUSE e) (by simp [FOX_STATUS_TRAP_CAUSE]) (by simp [FOX_STATUS_TRAP_CAUSE]) (by simpa [FOX_STATUS_TRAP_CAUSE] using hc)

theorem trapNoted_regs (cause : Nat) : regsBut [(FOX_TRAPS e).off, (FOX_STATUS e).off] s (trapNoted s e cause) :=
  regsBut_trans (regsBut_of_regs rfl) (regsBut_trans (regsBut_inc (by simp)) (regsBut_set (by simp [FOX_STATUS_TRAP_CAUSE, FOX_STATUS])))

theorem trapNoted_only (cause : Nat) : only [.fox, .regs] s (trapNoted s e cause) :=
  only_trans (only_mono (by simp) (only_setEng _ _)) (only_mono (by simp) (only_trans only_inc (only_set _ _)))

theorem trapNoted_eng (cause : Nat) : (trapNoted s e cause).eng e = { s.eng e with trapInj := false } := by
  rw [trapNoted, eng_congr ((set_fox _ _ _).trans (inc_fox _ _)), eng_setEng_same]

theorem trapNoted_eng_ne (h : k ≠ e) (cause : Nat) : (trapNoted s e cause).eng k = s.eng k := by
  rw [trapNoted, eng_congr ((set_fox _ _ _).trans (inc_fox _ _)), eng_setEng_ne h]

/-- Can an engine trap: present, powered, enabled, and not trapped already? -/
def canTrap (s : State) (e : Nat) : Prop := e < s.nEngines ∧ (s.eng e).st ≠ .off ∧ (s.eng e).st ≠ .disabled ∧ (s.eng e).trapping = none

theorem canTrap.guard (h : canTrap s e) : (decide (s.nEngines ≤ e) || (s.eng e).st == .off || (s.eng e).st == .disabled || (s.eng e).trapping.isSome) = false := by
  obtain ⟨hlt, hoff, hdis, htrap⟩ := h
  simp [hoff, hdis, htrap, hlt]

theorem trapEng_idle (h : canTrap s e) (hrun : (s.eng e).run = none) (cause : Nat) : s.trapEng e cause = (trapNoted s e cause).endTrap e cause true := by
  simp only [State.trapEng, h.guard, Bool.false_eq_true, if_false, trapNoted, hrun]

theorem trapShown_noted {cause : Nat} (hc : cause < 16) (hcalm : s.calm = true) (hsleep : s.sleep ≤ 1) :
    TrapShown e ((s.fld (FOX_TRAPS e) + 1) % 2 ^ 32) cause s.chan (trapNoted s e cause) := by
  have honly : only [.fox, .regs] s (trapNoted s e cause) := trapNoted_only cause
  have hsame : (trapNoted s e cause).sleep = s.sleep := regsBut.fld (trapNoted_regs (e := e) cause) (f := GLB_PWR_STATUS_STATE) (by
    simp only [GLB_PWR_STATUS_STATE, FOX_TRAPS, FOX_STATUS, List.mem_cons, List.not_mem_nil, or_false]
    omega)
  exact ⟨trapNoted_traps cause, trapNoted_cause hc, honly .chan (by decide), (calm_of (honly .pwr (by decide)) (honly .flt (by decide))).trans hcalm, hsame.trans_le hsleep⟩

/-- An engine that works stops: it has nothing more to issue, and shows RELOAD. -/
def trapStopped (s : State) (e cause : Nat) (r : Run) : State :=
  (trapNoted s e cause).putEng e { s.eng e with trapInj := false, st := .reload, trapping := some cause, run := some { r with queue := [] } }

/-- The job of an engine that traps fails, unless another engine's failure stands against it. -/
def trapFails (s t : State) (e : Nat) (r : Run) : State :=
  match s.job r.job with
  | some j => if j.engines.head? = some e || j.fail.isNone then
      t.setJob { j with fail := some (0x0D, 0x0D, false), trapProg := some (j.trapProg.getD (s.progressNow j r)) } else t
  | none => t

theorem trapFails_only (s t : State) (e : Nat) (r : Run) : only [.fox] t (trapFails s t e r) := by
  unfold trapFails
  split
  · exact only_ite (only_fox _) (only_refl _ _)
  · exact only_refl _ _

theorem trapFails_engines (s t : State) (e : Nat) (r : Run) : (trapFails s t e r).fox.engines = t.fox.engines := by
  unfold trapFails
  split
  · split <;> rfl
  · rfl

theorem trapEng_working (h : canTrap s e) {r : Run} (hrun : (s.eng e).run = some r) (cause : Nat) :
    s.trapEng e cause = if (trapFails s (trapStopped s e cause r) e r).trapWaits e = true then trapFails s (trapStopped s e cause r) e r
      else (trapFails s (trapStopped s e cause r) e r).endTrap e cause true := by
  simp only [State.trapEng, h.guard, Bool.false_eq_true, if_false, trapFails, trapStopped, trapNoted, hrun] <;> rfl

theorem eng_of_engines (h : t.fox.engines = s.fox.engines) (k : Nat) : t.eng k = s.eng k := by rw [State.eng, State.eng, h]

theorem mem_mput_same {α : Type} (k : Nat) (v : α) (m : List (Nat × α)) : (k, v) ∈ mput k v m := mem_of_mget (mget_mput_same _ _ _)

/-- With an access of its own outstanding the engine waits for it. -/
theorem trapWaits_open {r : Run} (hopen : r.opened ≠ []) (cause : Nat) : (trapFails s (trapStopped s e cause r) e r).trapWaits e = true := by
  have heng : (trapFails s (trapStopped s e cause r) e r).eng e
      = { s.eng e with trapInj := false, st := .reload, trapping := some cause, run := some { r with queue := [] } } := by
    rw [eng_of_engines (trapFails_engines _ _ _ _)]
    exact eng_putEng_same _
  have hmem : (e, ({ s.eng e with trapInj := false, st := .reload, trapping := some cause, run := some { r with queue := [] } } : Engine))
      ∈ (trapFails s (trapStopped s e cause r) e r).fox.engines := by
    rw [trapFails_engines]
    exact mem_mput_same _ _ _
  simp only [State.trapWaits, heng]
  refine List.any_eq_true.mpr ⟨_, hmem, ?_⟩
  simp [hopen]

theorem trapStopped_regs (cause : Nat) (r : Run) : regsBut [(FOX_TRAPS e).off, (FOX_STATUS e).off] s (trapStopped s e cause r) :=
  regsBut_trans (trapNoted_regs cause) (regsBut_mono (by simp) (putEng_regs _))

theorem trapStopped_only (cause : Nat) (r : Run) : only [.fox, .regs] s (trapStopped s e cause r) :=
  only_trans (trapNoted_only cause) (putEng_only _)

theorem engWork_runs {e : BitVec 5} {f : State → State} (hawake : s.awake = true) (hon : s.foxOn e.toNat = true) : s.engWork e f = .next (f s).settle := by
  rw [State.engWork, if_pos (by rw [hawake, hon]; rfl)]

theorem exec_trap {e : BitVec 5} {i : Instr} {cause : TrapCause} (hawake : s.awake = true) (hon : s.foxOn e.toNat = true)
    (h : (i = .engineTrap e cause ∧ code = trapCode cause) ∨ (i = .watchdogExpiry e ∧ code = 4 ∧ (s.eng e.toNat).run ≠ none)) :
    exec i s = .next (s.trapEng e.toNat code).settle := by
  rcases h with ⟨rfl, rfl⟩ | ⟨rfl, rfl, hrun⟩
  · show execEngineTrap e cause s = _
    rw [execEngineTrap, engWork_runs hawake hon]
  · show execWatchdogExpiry e s = _
    rw [execWatchdogExpiry, if_pos (Option.isSome_iff_ne_none.mpr hrun), engWork_runs hawake hon]

end

/-- Settles O39: an engine at rest ends its trap at once and shows it; one with an access outstanding waits in RELOAD. -/
theorem engineTraps : Obligations.EngineTraps := by
  intro e cause i code s hawake hcalm hon hlt hoff hdis htrap hi
  have hcan : canTrap s e.toNat := ⟨hlt, hoff, hdis, htrap⟩
  have hcode : code < 16 := by
    rcases hi with ⟨-, rfl⟩ | ⟨-, rfl, -⟩
    · cases cause <;> decide
    · decide
  have hsleep : s.sleep ≤ 1 := by
    simp only [State.awake, Bool.and_eq_true, decide_eq_true_eq] at hawake
    exact hawake.2
  refine ⟨fun hrun => ⟨_, exec_trap hawake hon hi, ?_⟩, fun r hrun hopen => ⟨_, exec_trap hawake hon hi, ?_⟩⟩
  · obtain ⟨htraps, hcause, hchan, hcalm', -⟩ := (trapShown_noted (e := e.toNat) hcode hcalm hsleep).endTrap
      (by rw [trapNoted_eng]; exact hrun) code
    rw [trapEng_idle hcan hrun, settle_calm hcalm']
    exact ⟨htraps, hcause, congrArg ChanSt.dram hchan⟩
  · rw [trapEng_working hcan hrun, if_pos (trapWaits_open hopen code)]
    have honly : only [.fox, .regs] s (trapFails s (trapStopped s e.toNat code r) e.toNat r) := only_trans (trapStopped_only code r) (only_mono (by simp) (trapFails_only _ _ _ _))
    have hregs : (trapFails s (trapStopped s e.toNat code r) e.toNat r).regs = (trapStopped s e.toNat code r).regs := trapFails_only _ _ _ _ .regs (by decide)
    have hfld : ∀ f, (trapFails s (trapStopped s e.toNat code r) e.toNat r).fld f = (trapStopped s e.toNat code r).fld f := fld_congr hregs
    rw [settle_calm ((calm_of (honly .pwr (by decide)) (honly .flt (by decide))).trans hcalm)]
    refine ⟨?_, fun f hf => ?_, ?_, ?_, ?_, fun o ho => ?_, honly⟩
    · rw [eng_of_engines (trapFails_engines _ _ _ _)]
      exact eng_putEng_same _
    · rw [eng_of_engines (trapFails_engines _ _ _ _)]
      exact (eng_putEng_ne hf _).trans (trapNoted_eng_ne hf code)
    · rw [hfld]
      exact (putEng_fld_ne _ (by simp only [FOX_TRAPS, FOX_STATUS_STATE]; omega)).trans (trapNoted_traps code)
    · rw [hfld]
      exact (putEng_cause _).trans (trapNoted_cause hcode)
    · rw [hfld]
      exact putEng_state _
    · rw [reg_congr hregs]
      exact trapStopped_regs code r o ho

end Sys2Proof.Proofs
end

section
/-! SUPPORT. What follows a command at once (R80, R82, R405, R410): the parts of the state that the entry to the grave safe state, a wake, and the
answer of a sleep entry may change. -/

namespace Sys2Proof.Proofs

set_option Elab.async false

open Sys2Proof.Machine Sys2Proof.Laws

variable {s t : State}

/-! ## The grave safe state (R410) -/

/-- What the entry to the grave safe state may change. -/
def graveParts : List Part := [.free, .regs, .start, .pwr, .links, .lanes, .sw, .txns, .marl, .chan]

theorem squelchAll_only : only [.lanes, .regs] s s.squelchAll := only_trans (only_mono (by simp) (only_lanes _)) (only_mono (by simp) closeAll_only)

theorem dropTraffic_only : only [.links, .sw, .txns] s s.dropTraffic := fun q hq => by
  cases q
  case links | sw | txns => simp at hq
  all_goals rfl

theorem force_only (cause : Option Fld) : only [.free, .regs, .start, .links, .lanes, .sw, .txns, .marl, .chan] s (s.force cause) := by
  unfold State.force
  have hbeats : only [.free, .regs, .start, .links, .lanes, .sw, .txns, .marl, .chan] s s.stopHeartbeats := only_mono (by simp) stopHeartbeats_heartbeatsEnd.parts
  have hfroze := only_trans hbeats (only_mono (by simp) freezeMarl_only)
  have hsquelch := only_trans hfroze (only_mono (by simp) squelchAll_only)
  have hdrop := only_trans hsquelch (only_mono (by simp) dropTraffic_only)
  exact only_trans (only_trans hdrop (only_mono (by simp) (only_start _))) (only_mono (by simp) (only_sets _))

/-- The grave safe state is in force, and no sleep entry or wake goes on. -/
def graveHeld (s : State) : State :=
  { s with start := { s.start with grave := true }, pwr := { s.pwr with entry := none, wakeDue := false, waking := false } }

theorem graveHeld_only : only [.start, .pwr] s (graveHeld s) := fun q hq => by
  cases q
  case start | pwr => simp at hq
  all_goals rfl

theorem enterGrave_eq (s : State) : s.enterGrave = if s.start.grave then s else graveHeld (s.force none) := rfl

theorem enterGrave_only : only graveParts s s.enterGrave := by
  rw [enterGrave_eq]
  exact only_ite (only_refl _ _) (only_trans (only_mono (by simp [graveParts]) (force_only none)) (only_mono (by simp [graveParts]) graveHeld_only))

/-! ## Answers of a sleep entry, and wakes (R80, R82) -/

theorem mgmtDone_only (job : Nat) (st : BitVec 8) (res : List (BitVec 8)) (detail : Nat) : only ringParts s (s.mgmtDone job st res detail) :=
  only_trans (only_mono (by simp [ringParts]) (only_fox _)) (finishDesc_only _ _ _ _ _)

theorem mgmtRefuse_only (job : Nat) (st : BitVec 8) (blk : Nat) : only ringParts s (s.mgmtRefuse job st blk) := by
  simp only [State.mgmtRefuse]
  refine only_trans (only_mono (k := [.regs]) (by simp [ringParts]) ?_) (mgmtDone_only _ _ _ _)
  exact only_ite only_inc only_viol

theorem payOwed_only (off : Nat) (st : BitVec 8) : only [.acc, .sw, .regs] s (s.payOwed off st) := by
  refine only_trans (only_mono (by simp) (only_acc _)) (only_each fun x o => ?_)
  have hstatus : only [.acc, .sw, .regs] x (x.pathStatus o.via st) := only_mono (by simp) (only_pathStatus _ _)
  split
  · exact only_trans hstatus (only_mono (by simp) (sends_emitRsp _ _).parts)
  · exact hstatus

/-- What answering the asker of a sleep entry may change. -/
def answerParts : List Part := [.acc, .sw, .regs, .rings, .fox]

theorem sleepAnswer_only (a : Asker) (st : BitVec 8) : only answerParts s (s.sleepAnswer a st) := by
  cases a with
  | ring0 =>
    refine only_each fun x m => only_ite ?_ ?_
    · exact only_mono (by simp [ringParts, answerParts]) (mgmtRefuse_only _ _ _)
    · exact only_mono (by simp [ringParts, answerParts]) (mgmtDone_only _ _ _ _)
  | reg _ =>
    refine only_ite (only_trans (t := s.viol 0 .state) (only_mono (k := [.regs]) (by simp [answerParts]) only_viol) ?_) ?_
    · exact only_mono (by simp [answerParts]) (payOwed_only _ _)
    · exact only_mono (by simp [answerParts]) (payOwed_only _ _)

theorem abandonEntry_only (e : SleepEntry) : only (.pwr :: answerParts) s (s.abandonEntry e) :=
  only_trans (only_trans (only_mono (by simp) (only_pwr _)) (only_mono (by simp [answerParts]) (only_sets _))) (only_mono (by simp) (sleepAnswer_only _ _))

theorem sleepStep2_only : only (.pwr :: answerParts) s s.sleepStep2 := by
  unfold State.sleepStep2
  split
  · exact only_refl _ _
  · refine only_ite (only_refl _ _) ?_
    exact only_trans (only_mono (by simp) (only_pwr _)) (only_mono (by simp) (sleepAnswer_only _ _))

theorem startTimers_only : only [.flt] s s.startTimers := only_ite (only_flt _) (only_refl _ _)

theorem awoken_only : only [.pwr, .regs, .flt] s s.awoken := by
  unfold State.awoken
  refine only_trans (only_trans (only_trans (only_mono (by simp) (only_pwr _)) (only_mono (by simp) (only_sets _))) (only_mono (by simp) (only_set _ _)))
    (only_mono (by simp) startTimers_only)

theorem channelUp_only (c : Nat) : only [.regs] s (s.channelUp c) := only_ite (only_refl _ _) (only_set _ _)

theorem wakeS2_only : only [.pwr, .regs, .flt] s s.wakeS2 :=
  only_trans (only_mono (k := [.regs]) (by simp) (only_each fun _ c => channelUp_only c)) awoken_only

theorem clockStart_only : only [.clk, .regs] s s.clockStart := only_trans (only_mono (by simp) (only_clk _)) (only_mono (by simp) (only_sets _))

/-- What a wake may change. -/
def wakeParts : List Part := [.pwr, .regs, .flt, .clk, .acc, .sw, .rings, .fox]

theorem wake_only (cause : Nat) : only wakeParts s (s.wake cause) := by
  have hset : ∀ (x : State) (f : Fld) (v : Nat), only wakeParts x (x.set f v) := fun x f v => only_mono (by simp [wakeParts]) (only_set f v)
  unfold State.wake
  split
  case h_1 e _ =>
    refine only_ite (only_refl _ _) (only_ite (only_ite (only_refl _ _) ?_) ?_)
    · exact only_mono (by simp [wakeParts]) (only_pwr _)
    · exact only_mono (by simp [wakeParts, answerParts]) (abandonEntry_only e)
  case h_2 =>
    refine only_ite (hset _ _ _) (only_ite (only_trans (hset _ _ _) (hset _ _ _)) (only_ite (only_refl _ _) (only_ite ?_ ?_)))
    · exact only_trans (hset _ _ _) (only_mono (by simp [wakeParts]) wakeS2_only)
    · refine only_trans (only_trans (hset s GLB_PWR_STATUS_WAKE_CAUSE cause) (only_mono (by simp [wakeParts]) clockStart_only)) ?_
      intro q hq
      cases q
      case pwr | clk => simp [wakeParts] at hq
      all_goals rfl

/-! ## All that follows at once -/

/-- What may follow a command at once. -/
def settleParts : List Part := [.free, .regs, .acc, .start, .clk, .pwr, .flt, .links, .lanes, .sw, .txns, .marl, .chan, .rings, .fox]

theorem settle_only : only settleParts s s.settle := by
  unfold State.settle
  have hwake : only settleParts s (if s.pwr.wakeDue then ({ s with pwr := { s.pwr with wakeDue := false } } : State).wake 4 else s) :=
    only_ite (only_trans (only_mono (by simp [settleParts]) (only_pwr _)) (only_mono (by simp [settleParts, wakeParts]) (wake_only 4))) (only_refl _ _)
  have hstep := only_trans hwake (only_mono (by simp [settleParts, answerParts]) sleepStep2_only)
  exact only_trans hstep (only_ite (only_mono (by simp [settleParts, graveParts]) enterGrave_only) (only_refl _ _))

/-- Where no wake is due and no entry to sleep is under way, only the grave safe state can follow. -/
theorem settle_grave (hw : s.pwr.wakeDue = false) (he : s.pwr.entry = none) : s.settle = s ∨ s.settle = s.enterGrave := by
  have hstep : s.sleepStep2 = s := by simp [State.sleepStep2, he]
  simp only [State.settle, hw, Bool.false_eq_true, if_false, hstep]
  split
  · exact .inr rfl
  · exact .inl rfl

theorem settle_only_grave (hw : s.pwr.wakeDue = false) (he : s.pwr.entry = none) : only graveParts s s.settle := by
  rcases settle_grave hw he with h | h <;> rw [h]
  · exact only_refl _ _
  · exact enterGrave_only

theorem settle_keepsGrave (hg : s.start.grave = true) : s.settle.start.grave = true := by
  have hwake : FaultsKept s (if s.pwr.wakeDue then ({ s with pwr := { s.pwr with wakeDue := false } } : State).wake 4 else s) := by
    split
    · exact FaultsKept.after (faultsKept_wake 4) (.of_eq rfl rfl)
    · exact .refl s
  have hstep := hwake.trans faultsKept_sleepStep2
  unfold State.settle
  rw [if_neg (by simp [hstep.grave, hg])]
  exact hstep.grave.trans hg

end Sys2Proof.Proofs
end

section
/-! SUPPORT. Temperatures (R438, R439, R442, R444, R446): a sample touches one sensor at a time, and what its judgement brings about leaves the
readings alone; the ramp of the throttle touches one die at a time. -/

namespace Sys2Proof.Proofs

set_option Elab.async false

open Sys2Proof.Machine Sys2Proof.Laws

variable {s t u : State} {n d : Nat}

/-! ## Going through a list of units -/

/-- Over a list without repetition, a part of the state that only the step for `n` touches has, after all of them, what that step gives it. -/
theorem each_at {α β : Type} {φ : State → β} {I : State → Prop} {R : β → β → Prop} {l : List α} {f : State → α → State} {a : α} (hl : l.Nodup) (ha : a ∈ l) (hI : I s)
    (hkeep : ∀ x b, I x → I (f x b)) (hother : ∀ x b, I x → b ≠ a → φ (f x b) = φ x) (hat : ∀ x, I x → R (φ x) (φ (f x a))) : R (φ s) (φ (s.each l f)) := by
  have hrest : ∀ (k : List α) (x : State), a ∉ k → I x → φ (x.each k f) = φ x := fun k => by
    induction k with
    | nil => exact fun _ _ _ => rfl
    | cons b k ih =>
      intro x hk hx
      rw [List.mem_cons, not_or] at hk
      exact (ih (f x b) hk.2 (hkeep x b hx)).trans (hother x b hx fun h => hk.1 h.symm)
  induction l generalizing s with
  | nil => simp at ha
  | cons b l ih =>
    rw [List.nodup_cons] at hl
    show R (φ s) (φ ((f s b).each l f))
    by_cases hb : b = a
    · subst hb
      rw [hrest l _ hl.1 (hkeep s b hI)]
      exact hat s hI
    · have hmem : a ∈ l := (List.mem_cons.mp ha).resolve_left fun h => hb h.symm
      rw [← hother s b hI hb]
      exact ih hl.2 hmem (hkeep s b hI)

/-- A part of the state that no step of a list touches stays. -/
theorem each_apart {α β : Type} {φ : State → β} {l : List α} {f : State → α → State} (h : ∀ x, ∀ b ∈ l, φ (f x b) = φ x) : φ (s.each l f) = φ s := by
  induction l generalizing s with
  | nil => rfl
  | cons b l ih => exact (ih fun x c hc => h x c (List.mem_cons_of_mem _ hc)).trans (h s b List.mem_cons_self)

theorem sensor_setSensor_same (x : Sensor) : (s.setSensor n x).sensor n = x := mgetD_mput_same _ _ _ _

theorem sensor_setSensor_ne {m : Nat} (h : n ≠ m) (x : Sensor) : (s.setSensor m x).sensor n = s.sensor n := mgetD_mput_ne h _ _ _

theorem die_setDie_same (x : Die) : (s.setDie d x).die d = x := mgetD_mput_same _ _ _ _

theorem die_setDie_ne {m : Nat} (h : d ≠ m) (x : Die) : (s.setDie m x).die d = s.die d := mgetD_mput_ne h _ _ _

/-! ## What a sample's judgement leaves alone -/

/-- What the judgement of a sample may change. -/
def sampleParts : List Part := [.regs, .recd, .sett, .sw, .flt, .pwr, .thm, .vcp, .fuse, .free]

/-- The readings stand, and a stack that does not sleep goes on so. -/
structure Sampled (s t : State) : Prop where
  sensors : t.thm.sensors = s.thm.sensors
  sampling : t.thm.sampling = s.thm.sampling
  parts : only sampleParts s t
  awake : notSleeping s → t.pwr = s.pwr ∧ notSleeping t

theorem Sampled.refl (s : State) : Sampled s s := ⟨rfl, rfl, only_refl _ _, fun h => ⟨rfl, h⟩⟩

theorem Sampled.trans (h : Sampled s t) (h' : Sampled t u) : Sampled s u :=
  ⟨h'.sensors.trans h.sensors, h'.sampling.trans h.sampling, only_trans h.parts h'.parts, fun hs =>
    ⟨(h'.awake (h.awake hs).2).1.trans (h.awake hs).1, (h'.awake (h.awake hs).2).2⟩⟩

theorem Sampled.each {α : Type} {l : List α} {f : State → α → State} (h : ∀ x a, Sampled x (f x a)) : Sampled s (s.each l f) :=
  each_keeps (P := fun x => Sampled s x) (.refl s) fun x a hx => hx.trans (h x a)

theorem Sampled.ite {c : Prop} [Decidable c] (ht : Sampled s t) (hu : Sampled s u) : Sampled s (if c then t else u) := by
  split
  · exact ht
  · exact hu

/-- Whatever leaves the thermal part, the power part and the power status alone. -/
theorem Sampled.of_frame {l : List Part} {r : Nat → Prop} (h : Frame l r s t) (hl : l ⊆ sampleParts) (hthm : Part.thm ∉ l) (hpwr : Part.pwr ∉ l) (hr : ¬ r GLB_PWR_STATUS.off) :
    Sampled s t := by
  have hthm' : t.thm = s.thm := h.parts .thm hthm
  have hpwr' : t.pwr = s.pwr := h.parts .pwr hpwr
  have hsleep : t.sleep = s.sleep := Frame.fld h (f := GLB_PWR_STATUS_STATE) hr
  exact ⟨by rw [hthm'], by rw [hthm'], only_mono hl h.parts, fun hs => ⟨hpwr', by rw [notSleeping, hsleep, hpwr']; exact hs⟩⟩

theorem sampled_set {f : Fld} {v : Nat} (hf : f.off ≠ GLB_PWR_STATUS.off) : Sampled s (s.set f v) :=
  .of_frame (Frame.set (l := [.regs]) (r := (· = f.off)) (by simp) rfl) (by simp [sampleParts]) (by simp) (by simp) hf.symm

theorem sampled_parts {l : List Part} (h : only l s t) (hl : l ⊆ sampleParts) (hthm : Part.thm ∉ l) (hpwr : Part.pwr ∉ l) (hregs : Part.regs ∉ l) : Sampled s t :=
  .of_frame (r := fun _ => False) (Frame.of_only h (List.Subset.refl _) hregs) hl hthm hpwr id

theorem faultReg_not_pwr : ¬ faultReg GLB_PWR_STATUS.off := by
  simp [faultReg, recReg, packetReg, GLB_PWR_STATUS, REC_FOLDS, RT_UNREACH, RT_CNT_VIOL_ROUTE, RT_HOPS_EXCEEDED, GLB_CNT_VIOL_MALFORMED, RT_WAIT_EXPIRED, RT_DROP,
    FLT_RAISED_LO, FLT_MERGED, FLT_ALARMS_SENT, FLT_ALARMS_FOLDED]

theorem sampled_event (code : Nat) {sev : Nat} (hsev : sev < 4) (unit w0 w1 : Nat) : Sampled s (s.event code sev unit w0 w1) :=
  .of_frame (event_frame code hsev unit w0 w1) (by simp [sampleParts]) (by simp) (by simp) fun h => faultReg_not_pwr (.inl h)

theorem sampled_raiseRec {f : FltCause} {unit detail : Nat} {inj : Bool} : Sampled s (s.raiseRec f unit detail inj) := by
  have hframe := raiseRec_frame (s := s) (f := f) (unit := unit) (detail := detail) (inj := inj)
  have hthm : (s.raiseRec f unit detail inj).thm = s.thm := hframe.parts .thm (by decide)
  refine ⟨by rw [hthm], by rw [hthm], only_mono (by simp [sampleParts]) hframe.parts, fun hs => ?_⟩
  have hawake := raiseRec_faulted hs (f := f) (unit := unit) (detail := detail) (inj := inj)
  exact ⟨hawake.parts .pwr (by decide), hawake.notSleeping hs⟩

theorem sampled_recalDue (c : Nat) : Sampled s (s.recalDue c) :=
  .ite (sampled_parts (only_setCol _ _) (by simp [sampleParts]) (by simp) (by simp) (by simp)) (.refl s)

theorem sampled_setDie (x : Die) : Sampled s (s.setDie d x) :=
  ⟨rfl, rfl, only_mono (by simp [sampleParts]) (only_thm _), fun h => ⟨rfl, h⟩⟩

theorem sampled_setFraction (f : Nat) : Sampled s (s.setFraction d f) := by
  simp only [State.setFraction]
  exact .ite ((sampled_setDie _).trans (sampled_event _ (by decide) _ _ _)) (.ite ((sampled_setDie _).trans (sampled_event _ (by decide) _ _ _)) (sampled_setDie _))

theorem sampled_throttleDown : Sampled s s.throttleDown := .each fun _ _ => .ite (sampled_setFraction _) (.refl _)

theorem sampled_recalMoved (c : Nat) : Sampled s (s.recalMoved c) := .ite (sampled_recalDue c) (.refl s)

theorem sampled_critDie (k : Nat) : Sampled s (s.critDie k) := by
  simp only [State.critDie]
  exact .ite (.ite (.refl s) ((sampled_setDie _).trans (sampled_set (by decide)))) (.ite (sampled_setDie _) (.refl s))

theorem sampled_rearm {armed : Bool} {crossed clear : Int → Bool} {fire : State → Nat → State} (h : ∀ x m, Sampled x (fire x m)) : Sampled s (s.rearm armed crossed clear fire).2 := by
  simp only [State.rearm]
  split
  · split
    · exact h _ _
    · exact .refl s
  · exact .refl s

theorem sampled_lowStop (m : Nat) : Sampled s ((s.raiseRec .lowStop 0 m).each (List.range s.nChans) State.recalDue) :=
  sampled_raiseRec.trans (.each fun _ c => sampled_recalDue c)

/-- Which thresholds are armed. -/
theorem sampled_armed (c w a : Bool) : Sampled s { s with thm := { s.thm with critArmed := c, warnArmed := w, stopArmed := a } } :=
  ⟨rfl, rfl, only_mono (by simp [sampleParts]) (only_thm _), fun h => ⟨rfl, h⟩⟩

theorem Sampled.snd {p : Bool × State} {b : Bool} (h : p = (b, t)) (hs : Sampled s p.2) : Sampled s t := by
  rw [h] at hs
  exact hs

theorem sampled_thresholds : Sampled s s.thresholds := by
  unfold State.thresholds
  extract_lets crit warn stop s1 allLow
  have h1 : Sampled s s1 := .each fun _ k => sampled_critDie k
  split
  next ca s2 h2 =>
  have hs2 : Sampled s1 s2 := .snd h2 (sampled_rearm fun _ _ => sampled_raiseRec)
  split
  next wa s3 h3 =>
  have hs3 : Sampled s2 s3 := .snd h3 (sampled_rearm fun _ _ => sampled_raiseRec)
  extract_lets serv
  split
  next sa s4 h4 =>
  have hs4 : Sampled s3 s4 := by
    refine .snd h4 ?_
    split
    · exact sampled_rearm fun _ m => sampled_lowStop m
    · exact .refl s3
  exact (((h1.trans hs2).trans hs3).trans hs4).trans (sampled_armed _ _ _)

theorem sampled_sensorBroke (last : Int) : Sampled s (s.sensorBroke n last) :=
  ((sampled_set (by decide)).trans (sampled_event _ (by decide) _ _ _)).trans sampled_raiseRec

theorem sampled_fuse (x : FuseSt) : Sampled s { s with fuse := x } := sampled_parts (only_fuse x) (by simp [sampleParts]) (by simp) (by simp) (by simp)

theorem sampled_free (x : Nat) : Sampled s { s with free := x } := sampled_parts (only_free x) (by simp [sampleParts]) (by simp) (by simp) (by simp)

theorem sampled_toppedUp (row bit result : Nat) : Sampled s (s.toppedUp row bit result) :=
  (sampled_parts (only_sett _) (by simp [sampleParts]) (by simp) (by simp) (by simp)).trans (sampled_event _ (by decide) _ _ _)

theorem sampled_blowPart (phys : Nat) (m : BitVec 128) : Sampled s (s.blowPart phys m) := (sampled_free _).trans (sampled_fuse _)

theorem sampled_otpCut : Sampled s s.otpCut := by
  unfold State.otpCut
  split
  · exact .refl s
  next r _ =>
    have htop : ∀ x : State, Sampled x (if r.op = 5 ∧ r.early = none then x.toppedUp r.row r.bit 6 else x) := fun x => .ite (sampled_toppedUp _ _ _) (.refl x)
    extract_lets f t t'
    have hcut : Sampled s t' := (sampled_fuse _).trans (htop t)
    split
    · exact hcut.trans (sampled_blowPart _ _)
    · exact hcut

theorem sampled_otpEnd (op result : Nat) : Sampled s (s.otpEnd op result) :=
  (sampled_fuse _).trans (.of_frame (Frame.sets (l := [.regs]) (r := (· = OTP_STATUS.off)) (by simp) (by simp [OTP_STATUS_BUSY, OTP_STATUS_LAST_OP, OTP_STATUS_RESULT, OTP_STATUS]))
    (by simp [sampleParts]) (by simp) (by simp) (by decide))

theorem sampled_closeWindow : Sampled s (s.closeWindow true) := by
  unfold State.closeWindow
  refine .ite (.refl s) ?_
  have hshut : Sampled s (s.set OTP_STATUS_WINDOW 0) := sampled_set (by decide)
  extract_lets t
  split
  · exact .ite (hshut.trans (sampled_otpCut.trans (sampled_otpEnd _ _))) hshut
  · exact hshut

/-! ## A sample (R438, R439) -/

/-- The samples are taken by the sensors, and each sensor is judged. -/
def samplesTaken (s : State) (x : List (Option Int)) (l : List Nat) : State :=
  ({ s with thm := { s.thm with sampling := true } } : State).each l fun u n =>
    u.setSensor n (takeSample (u.sensor n) ((x.getD n none).map (· + (if s.regionOk 2 then 0 else 16))))

def samplesJudged (s : State) (x : List (Option Int)) (l : List Nat) : State :=
  (samplesTaken s x l).each l fun u n => u.judgeSensor n ((samplesTaken s x l).disagrees n)

/-- The sensors' readings in use after a sample. -/
def samplesUsed (s : State) (x : List (Option Int)) (l : List Nat) : State := (samplesJudged s x l).each l State.settleSensor

/-- The sensors that are sampled: in S2 and S3 those of the base and the Marl (R84). -/
def sampledSensors (s : State) : List Nat := List.range (if 2 ≤ s.sleep then 20 else s.nSensors)

/-- A sample ends with TRIP, or with what follows at once. -/
def sampleEnded (s : State) : State :=
  match s.tripped with
  | some n => (s.trip n).settle
  | none => s.settle

/-- What the readings bring about leaves them alone. -/
theorem execSensorSample_runs {x : List (Option Int)} (hlive : s.live = true) (hphase : s.phase ≠ 0xB) :
    ∃ u, Sampled (samplesUsed s x (sampledSensors s)) u ∧ exec (.sensorSample x) s = .next (sampleEnded u) := by
  show ∃ u, _ ∧ execSensorSample x s = _
  unfold execSensorSample
  rw [if_neg (by simp [hlive, hphase])]
  extract_lets all src s0 add s1 s2 broke s3 s4 s5 s6
  have h4 : Sampled s3 s4 := .each fun _ _ => sampled_sensorBroke _
  have h5 : Sampled s3 s5 := ((h4.trans sampled_thresholds).trans sampled_throttleDown).trans (.each fun _ c => sampled_recalMoved c)
  have h6 : Sampled s3 s6 := .ite h5 (h5.trans sampled_closeWindow)
  have h3 : s3 = samplesUsed s x (sampledSensors s) := rfl
  rw [← h3]
  clear_value s6
  exact ⟨s6, h6, rfl⟩

/-- Taking and judging a sample changes the sensors alone. -/
theorem setSensor_only (x : Sensor) : only [.thm] s (s.setSensor n x) := only_thm _

theorem settleSensor_only : only [.thm] s (s.settleSensor n) := by
  simp only [State.settleSensor]
  exact only_ite (setSensor_only _) (setSensor_only _)

theorem judgeSensor_only (b : Bool) : only [.thm] s (s.judgeSensor n b) := by
  simp only [State.judgeSensor]
  exact only_ite (only_refl _ _) (setSensor_only _)

theorem samplesUsed_only (x : List (Option Int)) (l : List Nat) : only [.thm] s (samplesUsed s x l) := by
  have htaken : only [.thm] s (samplesTaken s x l) := only_trans (only_thm _) (only_each fun _ _ => setSensor_only _)
  exact only_trans (only_trans htaken (only_each fun _ _ => judgeSensor_only _)) (only_each fun _ _ => settleSensor_only)

theorem judgeSensor_sampling (b : Bool) : (s.judgeSensor n b).thm.sampling = s.thm.sampling := by
  simp only [State.judgeSensor]
  split <;> rfl

theorem settleSensor_sampling : (s.settleSensor n).thm.sampling = s.thm.sampling := by
  simp only [State.settleSensor]
  split <;> rfl

theorem samplesUsed_sampling (x : List (Option Int)) (l : List Nat) : (samplesUsed s x l).thm.sampling = true := by
  have htaken : (samplesTaken s x l).thm.sampling = true := each_apart (φ := fun y => y.thm.sampling) fun _ _ _ => rfl
  have hjudged : (samplesJudged s x l).thm.sampling = true := (each_apart (φ := fun y => y.thm.sampling) fun _ _ _ => judgeSensor_sampling _).trans htaken
  exact (each_apart (φ := fun y => y.thm.sampling) fun _ _ _ => settleSensor_sampling).trans hjudged

theorem judgeSensor_ne {m : Nat} (h : n ≠ m) (b : Bool) : (s.judgeSensor m b).sensor n = s.sensor n := by
  simp only [State.judgeSensor]
  split
  · rfl
  · exact sensor_setSensor_ne h _

theorem settleSensor_ne {m : Nat} (h : n ≠ m) : (s.settleSensor m).sensor n = s.sensor n := by
  simp only [State.settleSensor]
  split
  · exact sensor_setSensor_ne h _
  · exact sensor_setSensor_ne h _

/-- A sensor that is not sampled keeps all it had. -/
theorem samplesUsed_apart {x : List (Option Int)} {l : List Nat} (hn : n ∉ l) : (samplesUsed s x l).sensor n = s.sensor n := by
  have hne : ∀ m ∈ l, n ≠ m := fun m hm h => hn (h ▸ hm)
  have htaken : (samplesTaken s x l).sensor n = s.sensor n :=
    (each_apart (φ := fun y => y.sensor n) fun _ m hm => sensor_setSensor_ne (hne m hm) _)
  have hjudged : (samplesJudged s x l).sensor n = s.sensor n := (each_apart (φ := fun y => y.sensor n) fun _ m hm => judgeSensor_ne (hne m hm) _).trans htaken
  exact (each_apart (φ := fun y => y.sensor n) fun _ m hm => settleSensor_ne (hne m hm)).trans hjudged

theorem samplesTaken_at {x : List (Option Int)} {l : List Nat} (hl : l.Nodup) (hn : n ∈ l) (hok : s.regionOk 2 = true) :
    (samplesTaken s x l).sensor n = takeSample (s.sensor n) (x.getD n none) := by
  have hadd : ∀ v : Option Int, v.map (· + (if s.regionOk 2 then 0 else 16)) = v := fun v => by
    rw [hok]
    cases v <;> simp
  refine each_at (φ := fun y => y.sensor n) (I := fun _ => True) (R := fun a b => b = takeSample a (x.getD n none)) hl hn trivial (fun _ _ _ => trivial) ?_ ?_
  · exact fun y m _ hm => sensor_setSensor_ne (fun h => hm h.symm) _
  · intro y _
    rw [sensor_setSensor_same, hadd]

/-- A good sensor stays good while it has its results, or misses few, and stood apart less than nine times. -/
theorem samplesUsed_good {x : List (Option Int)} {l : List Nat} (hl : l.Nodup) (hn : n ∈ l) (hb : ((samplesTaken s x l).sensor n).broken = false)
    (hhas : ((samplesTaken s x l).sensor n).has = true) (hres : ((samplesTaken s x l).sensor n).noRes < 4) (hdis : ((samplesTaken s x l).sensor n).disagree < 9) :
    ((samplesUsed s x l).sensor n).reading = ((samplesTaken s x l).sensor n).reading ∧ ((samplesUsed s x l).sensor n).has = true
      ∧ ((samplesUsed s x l).sensor n).noRes = ((samplesTaken s x l).sensor n).noRes ∧ ((samplesUsed s x l).sensor n).broken = false := by
  have hjudged : ((samplesJudged s x l).sensor n).reading = ((samplesTaken s x l).sensor n).reading ∧ ((samplesJudged s x l).sensor n).has = true
      ∧ ((samplesJudged s x l).sensor n).noRes = ((samplesTaken s x l).sensor n).noRes ∧ ((samplesJudged s x l).sensor n).broken = false := by
    refine each_at (s := samplesTaken s x l) (φ := fun y => y.sensor n) (I := fun _ => True)
      (R := fun a b => a.broken = false → a.has = true → a.noRes < 4 → a.disagree < 9 → b.reading = a.reading ∧ b.has = true ∧ b.noRes = a.noRes ∧ b.broken = false)
      hl hn trivial (fun _ _ _ => trivial) ?_ ?_ hb hhas hres hdis
    · exact fun y m _ hm => judgeSensor_ne (fun h => hm h.symm) _
    · intro y _ hb hhas hres hdis
      simp only [State.judgeSensor, hb, Bool.false_eq_true, if_false, sensor_setSensor_same]
      refine ⟨trivial, hhas, trivial, ?_⟩
      rw [Bool.or_eq_false_iff, decide_eq_false_iff_not, decide_eq_false_iff_not]
      constructor
      · omega
      · split <;> omega
  obtain ⟨hr, hh, hm, hbr⟩ := hjudged
  rw [← hr, ← hm]
  refine each_at (s := samplesJudged s x l) (φ := fun y => y.sensor n) (I := fun _ => True)
    (R := fun a b => a.broken = false → a.has = true → b.reading = a.reading ∧ b.has = true ∧ b.noRes = a.noRes ∧ b.broken = false)
    hl hn trivial (fun _ _ _ => trivial) ?_ ?_ hbr hh
  · exact fun y m _ hm => settleSensor_ne fun h => hm h.symm
  · intro y _ hb hhas
    simp [State.settleSensor, hb, hhas, sensor_setSensor_same]

/-! ## TRIP, and the end of a sample (R444) -/

/-- The pin is driven low, and TRIP stands. -/
def tripShown (s : State) : State := { s with pins := { s.pins with thermtripLow := true }, thm := { s.thm with tripped := true } }

theorem trip_eq (s : State) (n : Nat) : s.trip n = ((tripShown s).raiseRec .trip 0 n).enterGrave := rfl

theorem trip_grave : (s.trip n).start.grave = true := enterGrave_grave

theorem trip_thm : (s.trip n).thm = { s.thm with tripped := true } := by
  rw [trip_eq]
  exact (enterGrave_only .thm (by decide)).trans (raiseRec_frame.parts .thm (by decide))

theorem trip_pins : (s.trip n).pins = { s.pins with thermtripLow := true } := by
  rw [trip_eq]
  exact (enterGrave_only .pins (by decide)).trans (raiseRec_frame.parts .pins (by decide))

/-- TRIP touches neither rings, engines nor rails, and no wake or entry to sleep goes on from it. -/
theorem trip_only : only [.free, .regs, .start, .pwr, .links, .lanes, .sw, .txns, .marl, .chan, .pins, .thm, .recd, .sett, .flt] s (s.trip n) := by
  rw [trip_eq]
  have hshown : only [.free, .regs, .start, .pwr, .links, .lanes, .sw, .txns, .marl, .chan, .pins, .thm, .recd, .sett, .flt] s (tripShown s) := by
    intro q hq
    cases q
    case pins | thm => simp at hq
    all_goals rfl
  exact only_trans (only_trans hshown (only_mono (by simp) raiseRec_frame.parts)) (only_mono (by simp [graveParts]) enterGrave_only)

/-- Nothing waits to wake the stack, and no entry to sleep is under way. -/
def noneDue (s : State) : Prop := s.pwr.wakeDue = false ∧ s.pwr.entry = none

theorem enterGrave_noneDue (h : noneDue s) : noneDue s.enterGrave := by
  have hpwr : (s.force none).pwr = s.pwr := force_only none .pwr (by decide)
  rw [enterGrave_eq]
  split
  · exact h
  · exact ⟨rfl, rfl⟩

theorem trip_noneDue (h : noneDue s) (hs : s.sleep ≤ 1) : noneDue (s.trip n) := by
  have hpwr : ((tripShown s).raiseRec .trip 0 n).pwr = s.pwr := (raiseRec_faulted (s := tripShown s) ⟨hs, h.2⟩).parts .pwr (by decide)
  rw [trip_eq]
  exact enterGrave_noneDue (by rw [noneDue, hpwr]; exact h)

/-- A sample's end leaves the readings in use. -/
theorem sampleEnded_thm : (sampleEnded s).thm.sensors = s.thm.sensors ∧ (sampleEnded s).thm.sampling = s.thm.sampling := by
  unfold sampleEnded
  split
  · rw [show (s.trip _).settle.thm = (s.trip _).thm from settle_only .thm (by decide), trip_thm]
    exact ⟨rfl, rfl⟩
  · rw [show s.settle.thm = s.thm from settle_only .thm (by decide)]
    exact ⟨rfl, rfl⟩

theorem sampleEnded_keeps (h : noneDue s) (hs : s.sleep ≤ 1) : keeps [.rings, .fox, .rails] s (sampleEnded s) := by
  have hgrave : ∀ {x : State}, noneDue x → ∀ p ∈ [Part.rings, .fox, .rails], agree p x x.settle := fun hx p hp => settle_only_grave hx.1 hx.2 p (by
    simp only [List.mem_cons, List.not_mem_nil, or_false] at hp
    rcases hp with rfl | rfl | rfl <;> decide)
  unfold sampleEnded
  split
  · refine fun p hp => agree_trans (trip_only p ?_) (hgrave (trip_noneDue h hs) p hp)
    simp only [List.mem_cons, List.not_mem_nil, or_false] at hp
    rcases hp with rfl | rfl | rfl <;> decide
  · exact hgrave h

theorem sensor_congr (h : t.thm.sensors = s.thm.sensors) (n : Nat) : t.sensor n = s.sensor n := by rw [State.sensor, State.sensor, h]

/-- A sample of an awake stack that nothing else is due in: the readings in use, and what stays. -/
theorem sensorSample_awake {x : List (Option Int)} (hlive : s.live = true) (hcalm : s.calm = true) (hphase : s.phase ≠ 0xB) (hsleep : s.sleep ≤ 1) :
    ∃ t, exec (.sensorSample x) s = .next t ∧ (∀ n, t.sensor n = (samplesUsed s x (List.range s.nSensors)).sensor n) ∧ t.thm.sampling = true
      ∧ keeps [.rings, .fox, .rails] s t := by
  obtain ⟨u, hu, hrun⟩ := execSensorSample_runs (x := x) hlive hphase
  have hall : sampledSensors s = List.range s.nSensors := by rw [sampledSensors, if_neg (by omega)]
  rw [hall] at hu
  obtain ⟨hwake, hentry, -⟩ := calm_iff.mp hcalm
  have hused := samplesUsed_only (s := s) x (List.range s.nSensors)
  have hpwr : (samplesUsed s x (List.range s.nSensors)).pwr = s.pwr := hused .pwr (by decide)
  have hslept : (samplesUsed s x (List.range s.nSensors)).sleep = s.sleep := fld_congr (hused .regs (by decide)) _
  obtain ⟨hpwr', hawake⟩ := hu.awake ⟨by omega, by rw [hpwr]; exact hentry⟩
  have hnone : noneDue u := ⟨by rw [hpwr', hpwr]; exact hwake, by rw [hpwr', hpwr]; exact hentry⟩
  refine ⟨_, hrun, fun n => ?_, ?_, ?_⟩
  · rw [sensor_congr sampleEnded_thm.1, sensor_congr hu.sensors]
  · rw [sampleEnded_thm.2, hu.sampling, samplesUsed_sampling]
  · intro p hp
    have hkept := sampleEnded_keeps hnone hawake.1 p hp
    refine agree_trans (agree_trans (hused p ?_) (hu.parts p ?_)) hkept
    all_goals
      simp only [List.mem_cons, List.not_mem_nil, or_false] at hp
      rcases hp with rfl | rfl | rfl <;> decide

/-! ## The ramp of the throttle (R442, R446) -/

/-- The registers that the ramp may write: its milliseconds, and the recorder's. -/
def rampReg (o : Nat) : Prop := recReg o ∨ o = THM_THROTTLE_MS_LO.off ∨ o = THM_THROTTLE_MS_LO.off + 4

/-- What the ramp leaves of all that a throttle target is taken from. -/
structure Ramped (s t : State) : Prop where
  frame : Frame [.thm, .recd, .sett, .regs] rampReg s t
  sensors : t.thm.sensors = s.thm.sensors
  sampling : t.thm.sampling = s.thm.sampling
  held : ∀ d, (t.die d).critHold = (s.die d).critHold

theorem Ramped.trans (h : Ramped s t) (h' : Ramped t u) : Ramped s u :=
  ⟨h.frame.trans h'.frame, h'.sensors.trans h.sensors, h'.sampling.trans h.sampling, fun d => (h'.held d).trans (h.held d)⟩

theorem Ramped.fld (h : Ramped s t) {f : Fld} (hf : f.off < 0x4020) : t.fld f = s.fld f := h.frame.fld fun hr => by
  rcases hr with (hr | ⟨hr, -⟩) | hr | hr
  · rw [hr] at hf; exact absurd hf (by decide)
  · omega
  · rw [hr] at hf; exact absurd hf (by decide)
  · rw [hr] at hf; exact absurd hf (by decide)

theorem Ramped.nChans (h : Ramped s t) : t.nChans = s.nChans := by
  rw [State.nChans, State.nChans, State.variant, State.variant, show t.fuse = s.fuse from h.frame.parts .fuse (by decide)]

theorem Ramped.temp (h : Ramped s t) (n : Nat) : t.temp n = s.temp n := by
  simp only [State.temp, h.sensors, h.sampling, h.nChans]

/-- The throttle target of a die stays while fractions alone move. -/
theorem Ramped.target (h : Ramped s t) (d : Nat) : t.throttleTarget d = s.throttleTarget d := by
  have hhot : t.dieHot d = s.dieHot d := by simp only [State.dieHot, State.hottest, h.temp]
  have hstart : t.startOf d = s.startOf d := by
    simp only [State.startOf, h.fld (f := THM_LIMITS_START_BASE) (by decide), h.fld (f := THM_LIMITS_START_DRAM) (by decide)]
  simp only [State.throttleTarget, h.held, hhot, hstart, h.fld (f := THM_THROTTLE_CFG_FLOOR) (by decide), h.fld (f := THM_THROTTLE_CFG_GAIN) (by decide)]

theorem event_thm (code : Nat) {sev : Nat} (hsev : sev < 4) (unit w0 w1 : Nat) : (s.event code sev unit w0 w1).thm = s.thm :=
  (event_frame code hsev unit w0 w1).parts .thm (by decide)

theorem setFraction_die (f : Nat) : (s.setFraction d f).thm = (s.setDie d { s.die d with fraction := f, throttled := decide (f < 100) }).thm := by
  simp only [State.setFraction]
  split
  · exact event_thm _ (by decide) _ _ _
  · split
    · exact event_thm _ (by decide) _ _ _
    · rfl

theorem die_congr (h : t.thm = s.thm) (d : Nat) : t.die d = s.die d := by rw [State.die, State.die, h]

theorem setFraction_same (f : Nat) : ((s.setFraction d f).die d).fraction = f := by
  rw [die_congr (setFraction_die f), die_setDie_same]

theorem setFraction_ne {m : Nat} (h : d ≠ m) (f : Nat) : (s.setFraction m f).die d = s.die d := by
  rw [die_congr (setFraction_die f), die_setDie_ne h]

theorem setFraction_frame (f : Nat) : Frame [.thm, .recd, .sett, .regs] recReg s (s.setFraction d f) := by
  have hset : ∀ x, Frame [.thm, .recd, .sett, .regs] recReg s (s.setDie d x) := fun x => .of_only (only_thm _) (by simp) (by simp)
  have hevent : ∀ (x : State) (code : Nat) {sev : Nat} (_ : sev < 4) (unit w0 w1 : Nat), Frame [.thm, .recd, .sett, .regs] recReg x (x.event code sev unit w0 w1) :=
    fun x code _ hsev unit w0 w1 => (event_frame code hsev unit w0 w1).mono (by simp) fun _ h => h
  simp only [State.setFraction]
  exact .ite ((hset _).trans (hevent _ _ (by decide) _ _ _)) (.ite ((hset _).trans (hevent _ _ (by decide) _ _ _)) (hset _))

theorem setFraction_ramped (f : Nat) : Ramped s (s.setFraction d f) := by
  refine ⟨(setFraction_frame f).mono (by simp) fun _ h => .inl h, by rw [setFraction_die]; rfl, by rw [setFraction_die]; rfl, fun k => ?_⟩
  rw [die_congr (setFraction_die f)]
  by_cases hk : k = d
  · rw [hk, die_setDie_same]
  · rw [die_setDie_ne hk]

/-- One die's step of the ramp. -/
def rampStep (s : State) (d : Nat) : State := if (s.die d).fraction < s.throttleTarget d then s.setFraction d ((s.die d).fraction + 1) else s

theorem Ramped.refl (s : State) : Ramped s s := ⟨.refl _ _ _, rfl, rfl, fun _ => rfl⟩

theorem rampStep_ramped : Ramped s (rampStep s d) := by
  unfold rampStep
  split
  · exact setFraction_ramped _
  · exact .refl s

theorem rampStep_ne {m : Nat} (h : d ≠ m) : (rampStep s m).die d = s.die d := by
  unfold rampStep
  split
  · exact setFraction_ne h _
  · rfl

/-- The ramp over all dies. -/
theorem ramp_fraction (hd : d < s.nDies) : ((s.each (List.range s.nDies) rampStep).die d).fraction
    = if (s.die d).fraction < s.throttleTarget d then (s.die d).fraction + 1 else (s.die d).fraction := by
  refine each_at (φ := fun x => x.die d) (I := fun x => Ramped s x) (R := fun a b => b.fraction = if a.fraction < s.throttleTarget d then a.fraction + 1 else a.fraction)
    List.nodup_range (List.mem_range.mpr hd) (.refl s) (fun x b hx => hx.trans rampStep_ramped) ?_ ?_
  · exact fun x b _ hb => rampStep_ne fun h => hb h.symm
  · intro x hx
    rw [← hx.target d, rampStep]
    split
    · exact setFraction_same _
    · rfl

theorem rampStep_frame : Frame [.thm, .recd, .sett, .regs] recReg s (rampStep s d) := .ite (setFraction_frame _) (.refl _ _ _)

/-- The steps of the ramp write no register but the recorder's. -/
theorem ramp_pair (l : List Nat) : (s.each l rampStep).pair THM_THROTTLE_MS_LO = s.pair THM_THROTTLE_MS_LO := by
  have hframe : Frame [.thm, .recd, .sett, .regs] recReg s (s.each l rampStep) := .each fun _ _ _ => rampStep_frame
  have hlow : ∀ o, o < 0x6000 → (s.each l rampStep).reg o = s.reg o := fun o ho => hframe.reg o fun h => by
    rcases h with h | ⟨h, -⟩
    · rw [h] at ho; exact absurd ho (by decide)
    · omega
  rw [State.pair, State.pair, hlow _ (by decide), hlow _ (by decide)]

/-- The milliseconds in which some die is throttled are counted. -/
def rampCounted (s : State) : State := if (List.range s.nDies).any (fun d => decide ((s.die d).fraction < 100)) = true then s.incPair THM_THROTTLE_MS_LO 1 else s

theorem execThrottleRamp_eq (hlive : s.live = true) : exec .throttleRamp s = .next ((rampCounted s).each (List.range (rampCounted s).nDies) rampStep) := by
  show execThrottleRamp s = _
  simp only [execThrottleRamp, hlive, if_true]
  rfl

theorem rampCounted_ramped : Ramped s (rampCounted s) := by
  unfold rampCounted
  split
  · exact ⟨Frame.trans (.setReg (by simp) (.inr (.inl rfl))) (.setReg (by simp) (.inr (.inr rfl))), rfl, rfl, fun _ => rfl⟩
  · exact .refl s

theorem rampCounted_thm : (rampCounted s).thm = s.thm := by
  unfold rampCounted
  split <;> rfl

theorem anyThrottled_iff : (List.range s.nDies).any (fun d => decide ((s.die d).fraction < 100)) = true ↔ ∃ d < s.nDies, (s.die d).fraction < 100 := by
  simp [List.any_eq_true]

/-- Settles O45: a sample is followed sensor by sensor, the ramp die by die, and what a fault brings about leaves both alone. -/
theorem thermalCommands : Obligations.ThermalCommands := by
  refine ⟨fun x n s hlive hcalm hphase hsleep hok hn hb hdis => ?_, fun x n s hlive hsleep hn => ?_, fun s hlive => ?_, fun n s hv hn => ?_⟩
  · obtain ⟨t, ht, hsensor, hsampling, hkeeps⟩ := sensorSample_awake (x := x) hlive hcalm hphase hsleep
    have hmem : n ∈ List.range s.nSensors := List.mem_range.mpr hn
    have htaken := samplesTaken_at (x := x) List.nodup_range hmem hok
    refine ⟨fun v hv hlow hhigh => ⟨t, ht, ?_⟩, fun hnone hhas hres => ⟨t, ht, ?_⟩⟩
    · have hres : resultOk (some v) = some v := by simp [resultOk, Option.filter, hlow, hhigh]
      have hx : (samplesTaken s x (List.range s.nSensors)).sensor n = { s.sensor n with reading := v, has := true, noRes := 0 } := by
        rw [htaken, hv]
        simp [takeSample, hb, hres]
      obtain ⟨hr, hh, hm, hbr⟩ := samplesUsed_good (x := x) List.nodup_range hmem (by rw [hx]; exact hb) (by rw [hx]) (by rw [hx]; exact Nat.zero_lt_succ 3) (by rw [hx]; exact hdis)
      rw [hsensor]
      exact ⟨hr.trans (by rw [hx]), hh, hm.trans (by rw [hx]), hbr, hsampling, hkeeps⟩
    · have hx : (samplesTaken s x (List.range s.nSensors)).sensor n = { s.sensor n with noRes := (s.sensor n).noRes + 1 } := by
        rw [htaken, hnone]
        simp [takeSample, hb, resultOk]
      obtain ⟨hr, -, hm, hbr⟩ := samplesUsed_good (x := x) List.nodup_range hmem (by rw [hx]; exact hb) (by rw [hx]; exact hhas) (by rw [hx]; show _ + 1 < 4; omega) (by rw [hx]; exact hdis)
      rw [hsensor]
      exact ⟨hr.trans (by rw [hx]), hm.trans (by rw [hx]), hbr, hkeeps⟩
  · by_cases hphase : s.phase = 0xB
    · exact ⟨s, by show execSensorSample x s = _; rw [execSensorSample, if_pos (by simp [hphase])], rfl⟩
    · obtain ⟨u, hu, hrun⟩ := execSensorSample_runs (x := x) hlive hphase
      refine ⟨_, hrun, ?_⟩
      rw [sensor_congr sampleEnded_thm.1, sensor_congr hu.sensors, samplesUsed_apart]
      rw [sampledSensors, if_pos hsleep, List.mem_range]
      omega
  · have hcount := rampCounted_ramped (s := s)
    have hramp : Ramped s ((rampCounted s).each (List.range (rampCounted s).nDies) rampStep) :=
      each_keeps (P := fun x => Ramped s x) hcount fun _ _ hx => hx.trans rampStep_ramped
    have hdies : (rampCounted s).nDies = s.nDies := by rw [State.nDies, State.nDies, hcount.nChans]
    refine ⟨_, execThrottleRamp_eq hlive, fun d hd => ?_, ?_, hramp.sensors, hramp.frame.parts⟩
    · rw [ramp_fraction (by rw [hdies]; exact hd), hcount.target, die_congr rampCounted_thm]
    · rw [ramp_pair, rampCounted]
      by_cases hany : ∃ d < s.nDies, (s.die d).fraction < 100
      · rw [if_pos (anyThrottled_iff.mpr hany), if_pos hany, pair_incPair_same]
      · rw [if_neg fun h => hany (anyThrottled_iff.mp h), if_neg hany]
  · refine ⟨_, by show execThermalTrip n s = _; rw [execThermalTrip, if_pos (by simp [hv, hn])], ?_, ?_, settle_keepsGrave trip_grave⟩
    · rw [show (s.trip n.toNat).settle.pins = (s.trip n.toNat).pins from settle_only .pins (by decide), trip_pins]
    · rw [show (s.trip n.toNat).settle.thm = (s.trip n.toNat).thm from settle_only .thm (by decide), trip_thm]

end Sys2Proof.Proofs
end

section
/-! SUPPORT. The recorder and telemetry (R419, R423, R426, R427, R431, R432): what a write of the log, a thaw, a flush and a sample of telemetry
leave behind. -/

namespace Sys2Proof.Proofs

set_option Elab.async false

open Sys2Proof.Machine Sys2Proof.Laws

variable {s t u : State} {r : EvRec} {i : Nat}

/-! ## The log (R426) -/

theorem page_setPage_same (p : LogPage) : (s.setPage i p).page i = p := mgetD_mput_same _ _ _ _

theorem page_setPage_ne {k : Nat} (h : k ≠ i) (p : LogPage) : (s.setPage i p).page k = s.page k := mgetD_mput_ne h _ _ _

theorem setPage_only (p : LogPage) : only [.sett] s (s.setPage i p) := only_sett _

/-- A record goes to the open page of its severity that has room. -/
theorem logAppend_room (hopen : s.openFor r.sev = some i) (hroom : pageUsed (s.page i) + recLen r ≤ 4096) :
    s.logAppend r = s.setPage i { s.page i with recs := (s.page i).recs ++ [{ r with at_ := s.now, updDue := false }] } := by
  have hfind : (List.range 256).find? (fun k => (s.page k).st == .opened && (s.page k).sev == r.sev) = some i := hopen
  simp only [State.logAppend, hfind]
  exact if_pos hroom

/-- The queue without its first item. -/
def unstaged (s : State) (rest : List StageItem) : State := { s with recd := { s.recd with staging := rest } }

theorem execLogWrite_item {it : StageItem} {rest : List StageItem} (hdead : s.dead = false) (hmgt : s.mgtOn = true) (hfrozen : s.isFrozen = false) (hq : s.recd.staging = it :: rest) :
    exec (.logWrite 0) s = .next (((unstaged s rest).logItem it).checkFreeze.settle) := by
  show execLogWrite 0 s = _
  rw [execLogWrite, if_neg (by simp [hdead, hmgt, hfrozen]), hq]
  rfl

theorem checkFreeze_off (h : s.recd.freeze = .off) : s.checkFreeze = s := by simp [State.checkFreeze, h]

theorem isFrozen_off (h : s.recd.freeze = .off) : s.isFrozen = false := by simp [State.isFrozen, h]

/-- One item of the staging queue is written (R426). -/
theorem logWrite_room {rest : List StageItem} (hdead : s.dead = false) (hmgt : s.mgtOn = true) (hcalm : s.calm = true) (hoff : s.recd.freeze = .off)
    (hq : s.recd.staging = .new r :: rest) (hopen : s.openFor r.sev = some i) (hroom : pageUsed (s.page i) + recLen r ≤ 4096) :
    exec (.logWrite 0) s = .next ((unstaged s rest).setPage i { s.page i with recs := (s.page i).recs ++ [{ r with at_ := s.now, updDue := false }] }) := by
  rw [execLogWrite_item hdead hmgt (isFrozen_off hoff) hq, State.logItem, logAppend_room (s := unstaged s rest) hopen hroom, checkFreeze_off (by exact hoff)]
  exact congrArg Host.Outcome.next (settle_calm ((calm_of rfl rfl).trans hcalm))

/-- With nothing staged a draining freeze takes effect (R427). -/
theorem logWrite_drained (hdead : s.dead = false) (hmgt : s.mgtOn = true) (hdrain : s.recd.freeze = .draining) (hq : s.recd.staging = []) (hwait : s.recd.waiter = false) :
    exec (.logWrite 0) s = .next { s with recd := { s.recd with freeze := .frozen s.now, waiter := false } } := by
  have hfrozen : s.isFrozen = false := by simp [State.isFrozen, hdrain]
  have hfreeze : s.checkFreeze = s.freezeNow := by simp [State.checkFreeze, hdrain, hq]
  have hnow : s.freezeNow = { s with recd := { s.recd with freeze := .frozen s.now, waiter := false } } := by simp [State.freezeNow, hwait]
  show execLogWrite 0 s = _
  rw [execLogWrite, if_neg (by simp [hdead, hmgt, hfrozen]), hq]
  exact congrArg Host.Outcome.next (hfreeze.trans hnow)

/-! ## Thaw (R427) -/

/-- No freeze is in effect, and nothing is held back by one. -/
def Thawed (s : State) : Prop := s.recd.freeze = .off ∧ s.recd.holding = []

theorem enqueue_recd (cap n : Nat) (q : List StageItem) (r : EvRec) : (s.enqueue cap n q r).1.recd = s.recd := enqueue_only cap n q r .recd (by decide)

theorem thawed_stage {q : List StageItem} {x : BitVec 32} (h : Thawed s) : Thawed { s with recd := { s.recd with staging := q, rseq := x } } := h

/-- A record that comes into being without a freeze is staged, or folds into one that was. -/
theorem Thawed.record (h : Thawed s) (typ : BitVec 8) (sev code unit : Nat) (tail : List (BitVec 8)) : Thawed (s.record typ sev code unit tail) := by
  obtain ⟨hoff, hheld⟩ := h
  simp only [State.record]
  split
  next at_ heq =>
    rw [hoff] at heq
    cases heq
  · split
    · exact ⟨hoff, hheld⟩
    · split
      · split
        · exact ⟨hoff, hheld⟩
        · split
          · exact ⟨hoff, hheld⟩
          · exact ⟨hoff, hheld⟩
      · refine thawed_stage ?_
        rw [Thawed, enqueue_recd]
        exact ⟨hoff, hheld⟩

theorem record_only (typ : BitVec 8) (sev code unit : Nat) (tail : List (BitVec 8)) : only [.recd, .sett, .regs] s (s.record typ sev code unit tail) := by
  have hinc : only [.recd, .sett, .regs] s (s.inc REC_FOLDS) := only_mono (by simp) (only_set _ _)
  have hrecd : ∀ (x : State) (y : RecorderSt), only [.recd, .sett, .regs] x { x with recd := y } := fun x y => only_mono (by simp) (only_recd y)
  have henq : ∀ cap n q r, only [.recd, .sett, .regs] s (s.enqueue cap n q r).1 := fun cap n q r => only_mono (by simp) (enqueue_only cap n q r)
  simp only [State.record]
  split
  · split
    · exact only_trans hinc (hrecd _ _)
    · exact only_trans (henq _ _ _ _) (hrecd _ _)
  · split
    · exact only_trans hinc (hrecd _ _)
    · split
      · split
        · exact only_trans hinc (hrecd _ _)
        · split
          · exact hinc
          · exact only_trans (only_trans hinc (only_mono (by simp) (only_sett _))) (hrecd _ _)
      · exact only_trans (henq _ _ _ _) (hrecd _ _)

/-- A record that a freeze held back joins the staging queue. -/
def released (s : State) (it : StageItem) : State :=
  match it with
  | .new r => { (s.enqueue 16384 512 s.recd.staging r).1 with
      recd := { (s.enqueue 16384 512 s.recd.staging r).1.recd with staging := (s.enqueue 16384 512 s.recd.staging r).2 } }
  | .upd _ => s

theorem released_only (it : StageItem) : only [.recd, .sett, .regs] s (released s it) := by
  cases it with
  | new r => exact only_trans (only_mono (by simp) (enqueue_only _ _ _ _)) (only_mono (by simp) (only_recd _))
  | upd r => exact only_refl _ _

theorem Thawed.released (h : Thawed s) (it : StageItem) : Thawed (released s it) := by
  cases it with
  | new r =>
    show (s.enqueue 16384 512 s.recd.staging r).1.recd.freeze = .off ∧ (s.enqueue 16384 512 s.recd.staging r).1.recd.holding = []
    rw [enqueue_recd]
    exact h
  | upd r => exact h

theorem thawNow_eq (s : State) :
    s.thawNow = (({ s with recd := { s.recd with freeze := .off, holding := [] } } : State).each s.recd.holding released).recorderRec 1 := by
  unfold State.thawNow released
  rfl

theorem thawNow_thawed : Thawed s.thawNow ∧ only [.recd, .sett, .regs] s s.thawNow := by
  have hstart : only [.recd, .sett, .regs] s { s with recd := { s.recd with freeze := .off, holding := [] } } := only_mono (by simp) (only_recd _)
  rw [thawNow_eq]
  refine ⟨Thawed.record (each_keeps (P := Thawed) ⟨rfl, rfl⟩ fun x it hx => hx.released it) _ _ _ _ _, only_trans (only_trans hstart ?_) (record_only _ _ _ _ _)⟩
  exact only_each fun x it => released_only it

/-! ## Flush (R423) -/

/-- What writing the log may change: the Sett, where no unit is retired, and the counters of records lost and overwritten. -/
structure LogKept (s t : State) : Prop where
  parts : only [.sett, .regs] s t
  retired : t.sett.retired = s.sett.retired

theorem LogKept.refl (s : State) : LogKept s s := ⟨only_refl _ _, rfl⟩

theorem LogKept.trans (h : LogKept s t) (h' : LogKept t u) : LogKept s u := ⟨only_trans h.parts h'.parts, h'.retired.trans h.retired⟩

theorem LogKept.each {α : Type} {l : List α} {f : State → α → State} (h : ∀ x a, LogKept x (f x a)) : LogKept s (s.each l f) :=
  each_keeps (P := fun x => LogKept s x) (.refl s) fun x a hx => hx.trans (h x a)

theorem logKept_inc (f : Fld) : LogKept s (s.inc f) := ⟨only_mono (by simp) only_inc, rfl⟩

theorem logKept_setPage (k : Nat) (p : LogPage) : LogKept s (s.setPage k p) := ⟨only_mono (by simp) (setPage_only _), rfl⟩

theorem logKept_sett {x : SettSt} (h : x.retired = s.sett.retired) : LogKept s { s with sett := x } := ⟨only_mono (by simp) (only_sett _), h⟩

/-- A page is opened for a severity, under the next number. -/
def pageOpened (s : State) (k sev : Nat) : State :=
  ({ s with sett := { s.sett with pageSeq := s.sett.pageSeq + 1 } } : State).setPage k { seq := s.sett.pageSeq, sev := sev, st := .opened, recs := [] }

/-- The records of a page that is reclaimed are counted as overwritten. -/
def pageDropped (s : State) (k : Nat) : State := s.each (s.page k).recs fun t r => t.inc (REC_OVERWRITTEN r.sev)

theorem pageOpened_kept (k sev : Nat) : LogKept s (pageOpened s k sev) :=
  have hseq : LogKept s { s with sett := { s.sett with pageSeq := s.sett.pageSeq + 1 } } := logKept_sett rfl
  hseq.trans (logKept_setPage _ _)

theorem pageDropped_kept (k : Nat) : LogKept s (pageDropped s k) := .each fun _ _ => logKept_inc _

theorem openPage_cases {sev : Nat} {x : State × Nat} (h : s.openPage sev = some x) : ∃ k, x = (pageOpened s k sev, k) ∨ x = (pageOpened (pageDropped s k) k sev, k) := by
  unfold State.openPage at h
  extract_lets make at h
  split at h
  next k _ => exact ⟨k, .inl (Option.some.inj h).symm⟩
  · split at h
    next k _ => exact ⟨k, .inr (Option.some.inj h).symm⟩
    · cases h

theorem openPage_kept {sev : Nat} {x : State × Nat} (h : s.openPage sev = some x) : LogKept s x.1 := by
  obtain ⟨k, rfl | rfl⟩ := openPage_cases h
  · exact pageOpened_kept k sev
  · exact (pageDropped_kept k).trans (pageOpened_kept k sev)

theorem logAppend_kept (r : EvRec) : LogKept s (s.logAppend r) := by
  unfold State.logAppend
  extract_lets r' put
  have hput : ∀ x k, LogKept x (put x k) := fun _ _ => logKept_setPage _ _
  clear_value put
  split
  · split
    · exact hput _ _
    · extract_lets src full
      have hfull : LogKept s full := logKept_setPage _ _
      split
      · next heq => exact hfull.trans ((openPage_kept heq).trans (hput _ _))
      · exact hfull.trans (logKept_inc _)
  · split
    · next heq => exact (openPage_kept heq).trans (hput _ _)
    · exact logKept_inc _

theorem logItem_kept (it : StageItem) : LogKept s (s.logItem it) := by
  cases it with
  | new r => exact logAppend_kept r
  | upd r => exact logKept_sett rfl

theorem drainStaging_kept : LogKept (unstaged s []) s.drainStaging := .each fun _ it => logItem_kept it

theorem drainStaging_recd : s.drainStaging.recd = { s.recd with staging := [] } := drainStaging_kept.parts .recd (by decide)

/-- The bytes of a slot name its FLUSH_SEQ modulo 2^32. -/
theorem leBytes_mod (v : Nat) : leBytes 4 (v % 2 ^ 32) = leBytes 4 v := by
  simp only [leBytes]
  refine List.cons_eq_cons.mpr ⟨?_, List.cons_eq_cons.mpr ⟨?_, List.cons_eq_cons.mpr ⟨?_, List.cons_eq_cons.mpr ⟨?_, rfl⟩⟩⟩⟩
  all_goals
    apply BitVec.eq_of_toNat_eq
    simp only [BitVec.toNat_ofNat]
    omega

/-- The bytes of a slot are those of the registers, the recorder's clock and the folds. -/
theorem slotBytes_congr (hregs : t.regs = s.regs) (hrecd : t.recd = s.recd) (hflt : t.flt = s.flt) (q : Nat) : t.slotBytes (q % 2 ^ 32) = s.slotBytes q := by
  simp only [State.slotBytes, fld_congr hregs, pair_congr hregs, hrecd, hflt, leBytes_mod]

/-- The counters stand in the slot of the present FLUSH_SEQ (Table 19.10). -/
theorem saveCounters_slot : mget s.saveCounters.sett.slots (s.saveCounters.sett.flushSeq.toNat % 256) = some (s.saveCounters.slotBytes s.saveCounters.sett.flushSeq.toNat) := by
  unfold State.saveCounters
  generalize s.nextFlush 256 ((s.sett.flushSeq + 1).toNat) = q
  have hq : (BitVec.ofNat 32 q).toNat = q % 2 ^ 32 := BitVec.toNat_ofNat _ _
  have hplace : q % 2 ^ 32 % 256 = q % 256 := Nat.mod_mod_of_dvd q (by decide)
  simp only [hq, hplace]
  rw [mget_mput_same]
  exact congrArg some (slotBytes_congr rfl rfl rfl q).symm

theorem saveCounters_kept : LogKept s s.saveCounters := logKept_sett rfl

/-- A flush of a log that is not frozen. -/
theorem execSettFlush_off (hdead : s.dead = false) (hmgt : s.mgtOn = true) (hoff : s.recd.freeze = .off) : exec (.settFlush 0) s = .next (s.drainStaging.saveCounters.checkFreeze.settle) := by
  have hflush : s.flushSett = s.drainStaging.saveCounters := by simp [State.flushSett, hoff]
  show execSettFlush 0 s = _
  simp only [execSettFlush, hdead, hmgt, hflush]
  rfl

/-! ## Telemetry (R431, R432) -/

theorem emit_sends (q : Packet) : sends s (s.emit q) q := by
  intro port r en hr
  obtain ⟨held, k, h⟩ := addOut_eq s { inPort := none, port := port, vc := r.hdr.vc, pkt := r, cells := r.flits, held := [], at_ := s.now, waiting := none, enters := en }
  refine ⟨held, ?_⟩
  simp [State.emit, State.place, hr, h]

/-- The TELEM of a sample. -/
def telem (s : State) (d : BitVec 18) : Packet :=
  { hdr := mkHdr opTELEM 0x01 0 0 (BitVec.ofNat 16 ((s.inc TEL_SEQ).fld TEL_SEQ)) 192 d s.eid 0 0, payload := (s.inc TEL_SEQ).telemBytes }

/-- With one destination, to which no TELEM waits, a sample sends one. -/
theorem execTelemetrySample_one {d : BitVec 18} (hawake : s.awake = true) (hready : s.phase = 8) (hon : s.fld TEL_CFG_INTERVAL_MS ≠ 0) (hroom : queueBytes s.recd.staging ≤ 8192)
    (hdst : s.telDsts = [d]) (hnone : ∀ o ∈ s.sw.egress, isTelemTo d o = false) : exec .telemetrySample s = .next ((s.inc TEL_SEQ).emit (telem s d)) := by
  have hheld : decide (8192 < queueBytes s.recd.staging) = false := by simpa using hroom
  have hany : (s.inc TEL_SEQ).sw.egress.any (isTelemTo d) = false := by
    rw [inc_sw, List.any_eq_false]
    exact fun o ho => by simp [hnone o ho]
  have hkept : (s.sw.egress.filter fun o => !isTelemTo d o) = s.sw.egress := List.filter_eq_self.mpr fun o ho => by simp [hnone o ho]
  have hsame : ({ (s.inc TEL_SEQ) with sw := { (s.inc TEL_SEQ).sw with egress := (s.inc TEL_SEQ).sw.egress.filter fun o => !isTelemTo d o } } : State) = s.inc TEL_SEQ := by
    rw [inc_sw, hkept]
    rfl
  have hdrop : (s.inc TEL_SEQ).each [d] (fun t d => if (decide (8192 < queueBytes s.recd.staging) || t.sw.egress.any (isTelemTo d)) = true then t.telemDrop else t) = s.inc TEL_SEQ := by
    show (if _ then _ else _) = _
    rw [hheld, hany]
    rfl
  show execTelemetrySample s = _
  unfold execTelemetrySample
  rw [if_neg (by simp [hawake, hready, hon])]
  extract_lets s1 held s2 pay
  have h2 : s2 = s.inc TEL_SEQ := by
    rw [← hdrop, ← hdst]
  have hpay : pay = (s.inc TEL_SEQ).telemBytes := congrArg State.telemBytes h2
  rw [if_neg (by simpa [held] using hroom), hdst, hpay, h2]
  show Host.Outcome.next (State.emit ({ (s.inc TEL_SEQ) with sw := { (s.inc TEL_SEQ).sw with egress := (s.inc TEL_SEQ).sw.egress.filter fun o => !isTelemTo d o } } : State) (telem s d)) = _
  rw [hsame]

theorem inc_telSeq : (s.inc TEL_SEQ).fld TEL_SEQ = (s.fld TEL_SEQ + 1) % 2 ^ 32 := fld_inc_same (by decide) (by decide)

/-- The sequence number of a TELEM is the low half of TEL_SEQ. -/
theorem telem_eq (d : BitVec 18) : telem s d
    = { hdr := mkHdr opTELEM 0x01 0 0 (BitVec.ofNat 16 (s.fld TEL_SEQ + 1)) 192 d s.eid 0 0, payload := (s.inc TEL_SEQ).telemBytes } := by
  have hseq : BitVec.ofNat 16 ((s.inc TEL_SEQ).fld TEL_SEQ) = BitVec.ofNat 16 (s.fld TEL_SEQ + 1) := by
    apply BitVec.eq_of_toNat_eq
    rw [inc_telSeq, BitVec.toNat_ofNat, BitVec.toNat_ofNat]
    omega
  rw [telem, hseq]

theorem routesAlike_telSeq : RoutesAlike s (s.inc TEL_SEQ) := ⟨rfl, fun o ho => reg_setReg_ne s (by simp only [TEL_SEQ]; omega) _⟩

theorem packetReg_not_tel {o : Nat} (ho : 0x20000 ≤ o) : ¬ packetReg o := by
  intro h
  rcases h with h | h | h | h | h | h <;> rw [h] at ho <;> exact absurd ho (by decide)

/-- Settles O44: each operation of the recorder is followed to the record that it writes, the queue that it empties or the slot that it fills. -/
theorem recorderAndTelemetry : Obligations.RecorderAndTelemetry := by
  refine ⟨fun r rest i s hdead hmgt hcalm hoff hq hopen hroom => ⟨_, logWrite_room hdead hmgt hcalm hoff hq hopen hroom, rfl, ?_, ?_, ?_⟩,
    fun s hdead hmgt hdrain hq hwait => logWrite_drained hdead hmgt hdrain hq hwait, fun s hfrozen => ?_, fun s hdead hmgt hcalm hoff => ?_, fun s hv => ?_,
    fun d s hawake hready hon hroom hdst hnone => ⟨_, execTelemetrySample_one hawake hready hon hroom hdst hnone, ?_, ?_, ?_, ?_⟩⟩
  · rw [page_setPage_same]
  · exact fun k hk => page_setPage_ne hk _
  · exact only_trans (only_mono (by simp) (only_recd _)) (only_mono (by simp) (setPage_only _))
  · obtain ⟨⟨hoff, hheld⟩, honly⟩ := thawNow_thawed (s := s)
    exact ⟨_, by show execFreezeAutoThaw s = _; rw [execFreezeAutoThaw, if_pos hfrozen], hoff, hheld, honly⟩
  · have hdrain := drainStaging_kept (s := s)
    have hkept : LogKept (unstaged s []) s.drainStaging.saveCounters := hdrain.trans saveCounters_kept
    have hstart : only [.recd, .sett, .regs] s (unstaged s []) := only_mono (by simp) (only_recd _)
    have honly : only [.recd, .sett, .regs] s s.drainStaging.saveCounters := only_trans hstart (only_mono (by simp) hkept.parts)
    have hrecd : s.drainStaging.saveCounters.recd = { s.recd with staging := [] } := hkept.parts .recd (by decide)
    refine ⟨s.drainStaging.saveCounters, ?_, hrecd, saveCounters_slot, hkept.retired, honly⟩
    rw [execSettFlush_off hdead hmgt hoff, checkFreeze_off (by rw [hrecd]; exact hoff), settle_calm ((calm_of (honly .pwr (by decide)) (honly .flt (by decide))).trans hcalm)]
  · show execOpSecondsTick s = _
    rw [execOpSecondsTick, if_pos hv]
  · rw [Frame.fld (sends_emit _) (packetReg_not_tel (by decide)), inc_telSeq]
  · rw [Frame.fld (sends_emit _) (packetReg_not_tel (by decide)), fld_inc_ne (by decide)]
  · exact only_trans (only_mono (by simp) only_inc) (sends_emit _).parts
  · rw [← telem_eq]
    exact sends_of_routes (n := s.sw.placed) routesAlike_telSeq rfl rfl (emit_sends _)

end Sys2Proof.Proofs
end

section
/-! SUPPORT. Start-up (R62, R64, R67, R68): the phases, the clock start, cold hold and GO. -/

namespace Sys2Proof.Proofs

set_option Elab.async false

open Sys2Proof.Machine Sys2Proof.Laws

variable {s t : State} {p : Nat} {r : PhaseRes} {via : Path}

/-! ## PHASE (Table 4.4) -/

/-- How far the start has come, as a phase of it begins. -/
def progressed (s : State) (p : Nat) : State := if 3 ≤ p ∧ p ≤ 8 then { s with start := { s.start with prog := max s.start.prog p } } else s

theorem setPhase_eq (s : State) (p : Nat) :
    s.setPhase p = (progressed s p).sets [(GLB_START_STATUS_PHASE, p), (GLB_START_STATUS_START_MS, min 0xFFFF ((s.now - s.start.p1At) / 1000))] := rfl

theorem progressed_only : only [.start] s (progressed s p) := only_ite (only_start _) (only_refl _ _)

theorem progressed_outside (h : ¬ (3 ≤ p ∧ p ≤ 8)) : progressed s p = s := if_neg h

theorem progressed_start : (progressed s p).start = { s.start with prog := (progressed s p).start.prog } := by
  unfold progressed
  split <;> rfl

theorem setPhase_start : (s.setPhase p).start = { s.start with prog := (progressed s p).start.prog } := by
  rw [setPhase_eq, sets_start]
  exact progressed_start

theorem setPhase_phase (hp : p < 16) : (s.setPhase p).phase = p := by
  rw [setPhase_eq]
  exact (fld_set_disjoint (f := GLB_START_STATUS_START_MS) (g := GLB_START_STATUS_PHASE) _ (by decide) (by decide) (by decide) _).trans
    (fld_set_fits (f := GLB_START_STATUS_PHASE) (by decide) (by decide) hp)

theorem setPhase_only : only [.start, .regs] s (s.setPhase p) := by
  rw [setPhase_eq]
  exact only_trans (only_mono (by simp) progressed_only) (only_mono (by simp) (only_sets _))

theorem setPhase_regs : regsBut [GLB_START_STATUS.off] s (s.setPhase p) := by
  rw [setPhase_eq]
  refine regsBut_trans (regsBut_of_regs (progressed_only .regs (by decide))) (regsBut_sets ?_)
  simp [GLB_START_STATUS_PHASE, GLB_START_STATUS_START_MS, GLB_START_STATUS]

/-- Outside P3 to P8 the phase register alone changes. -/
theorem setPhase_regsOnly (h : ¬ (3 ≤ p ∧ p ≤ 8)) : only [.regs] s (s.setPhase p) := by
  rw [setPhase_eq, progressed_outside h]
  exact only_sets _

/-! ## P1 and P2 (R62, R67) -/

/-- The fast RC starts at its trim, and nothing is qualified (Table 3.3). -/
def clocksUnqualified (s : State) : State :=
  { s with clk := { s.clk with frcTrim := s.fuse.frcTrim, slowTrim := s.fuse.slowTrim, frcTries := 0, frcRunning := true, wins := [0, 0, 0, 0], xtalOffA := false, xtalOffB := false, holdover := none, switchTo := none, p2Step := 1, foxRelock := false } }

theorem clockStart_eq (s : State) : s.clockStart = (clocksUnqualified s).sets [(CLK_SRC_STATUS, 0), (CLK_PLL_STATUS, 0)] := rfl

theorem clockStart_clk : s.clockStart.clk = (clocksUnqualified s).clk := by rw [clockStart_eq, sets_clk]

theorem clockStart_regs : regsBut [CLK_SRC_STATUS.off, CLK_PLL_STATUS.off] s s.clockStart := by
  rw [clockStart_eq]
  exact regsBut_trans (regsBut_of_regs rfl) (regsBut_sets (by decide))

theorem clockStart_src : s.clockStart.reg CLK_SRC_STATUS.off = 0 := by
  rw [clockStart_eq]
  exact (regsBut_set (l := [CLK_PLL_STATUS.off]) (by decide) CLK_SRC_STATUS.off (by decide)).trans (reg_set_word (f := CLK_SRC_STATUS) rfl rfl (by decide))

theorem clockStart_pll : s.clockStart.reg CLK_PLL_STATUS.off = 0 := by
  rw [clockStart_eq]
  exact reg_set_word (f := CLK_PLL_STATUS) rfl rfl (by decide)

theorem execStartPhaseEnd_p1 (hdead : s.dead = false) (hp : s.phase = 1) : exec (.startPhaseEnd r) s = .next (s.clockStart.setPhase 2) := by
  show execStartPhaseEnd r s = _
  rw [execStartPhaseEnd, if_neg (by simp [hdead]), if_pos hp]

theorem execStartPhaseEnd_p2 (hdead : s.dead = false) (hp : s.phase = 2) : exec (.startPhaseEnd r) s = .next s.endP2 := by
  show execStartPhaseEnd r s = _
  rw [execStartPhaseEnd, if_neg (by simp [hdead]), if_neg (by omega), if_pos hp]

theorem execStartPhaseEnd_later (hdead : s.dead = false) (hp : 2 < s.phase) : exec (.startPhaseEnd r) s = .next (s.phaseEnd r) := by
  show execStartPhaseEnd r s = _
  rw [execStartPhaseEnd, if_neg (by simp [hdead]), if_neg (by omega), if_neg (by omega)]

theorem execPhaseTimerExpiry_runs (hdead : s.dead = false) : exec (.phaseTimerExpiry r) s = .next (s.phaseEnd r) := by
  show execPhaseTimerExpiry r s = _
  rw [execPhaseTimerExpiry, if_neg (by simp [hdead])]

/-- What records of the start may change. -/
abbrev Recorded (s t : State) : Prop := Frame [.regs, .recd, .sett] recReg s t

theorem startRec_recorded : Recorded s s.startRec := record_frame _ (by decide) _ _ _

theorem fuseEvents_recorded : Recorded s s.fuseEvents :=
  (Frame.each fun _ _ _ => event_frame _ (by decide) _ _ _).trans (Frame.each fun _ _ _ => event_frame _ (by decide) _ _ _)

theorem recReg_ge {o : Nat} (h : recReg o) : 0x6020 ≤ o := by
  rcases h with h | ⟨h, -⟩
  · rw [h]; decide
  · exact h

/-- BOOT_MODE holds the start in DIAG_HALT (R67). -/
def diagHeld (s : State) : State := { s with start := { s.start with diagHold := true } }

theorem endP2_diag (hstep : 7 ≤ s.clk.p2Step) (hboot : s.start.boot = 3) : s.endP2 = (((diagHeld s).setPhase 0xB).startRec).fuseEvents := by
  rw [State.endP2, if_neg (by omega), if_pos hboot]
  rfl

/-! ## P5 to P7 (R62, R64) -/

theorem phaseEnd_p5 (hp : s.phase = 5) : (s.phaseEnd r).phase = 6 ∨ (s.phaseEnd r).start.grave = true := by
  simp only [State.phaseEnd, hp]
  split
  · next h => exact .inr h
  · exact .inl (setPhase_phase (by decide))

theorem phaseEnd_p7_waits (hp : s.phase = 7) (hboot : s.start.boot = 2) (hgo : s.fld FOX_SB_CTL_GO = 0) : s.phaseEnd r = s := by
  simp [State.phaseEnd, hp, hboot, State.on, hgo]

/-! ## P4 begins, from cold hold, from P3's end or by GO (R67, R68) -/

/-- The start goes on past the hold for cold. -/
def coldPast (s : State) : State := { s with start := { s.start with coldNext := 0 } }

theorem enterP4_kept (h : s.start.dramLost = false) : s.enterP4 = coldPast (s.setPhase 4) := by
  have hlost : (s.setPhase 4).start.dramLost = false := by rw [setPhase_start]; exact h
  rw [State.enterP4]
  exact if_neg (by simp [hlost])

theorem coldPast_only : only [.start] s (coldPast s) := only_start _

theorem coldPast_phase : (coldPast s).phase = s.phase := fld_congr rfl _

theorem enterP4_only (h : s.start.dramLost = false) : only [.start, .regs] s s.enterP4 := by
  rw [enterP4_kept h]
  exact only_trans setPhase_only (only_mono (by simp) coldPast_only)

theorem enterP4_regs (h : s.start.dramLost = false) : regsBut [GLB_START_STATUS.off] s s.enterP4 := by
  rw [enterP4_kept h]
  exact regsBut_trans setPhase_regs (regsBut_of_regs rfl)

theorem enterP4_phase (h : s.start.dramLost = false) : s.enterP4.phase = 4 := by
  rw [enterP4_kept h, coldPast_phase, setPhase_phase (by decide)]

theorem enterP4_coldNext (h : s.start.dramLost = false) : s.enterP4.start.coldNext = 0 := by
  rw [enterP4_kept h]
  rfl

theorem afterP3_setup (h : s.start.boot = 1) : s.afterP3 = s.setPhase 0xA := if_pos h

theorem afterP3_on (h : s.start.boot ≠ 1) : s.afterP3 = s.enterP4 := if_neg h

/-- The hold for cold ends as every working sensor has come 3 °C above LOW_STOP. -/
theorem execColdHoldExit_warm (hdead : s.dead = false) (hp : s.phase = 9) (hwarm : ∀ n < s.nSensors, s.works n = true → 4 * signedByte (s.fld THM_LOW_LOW_STOP) + 12 ≤ (s.sensor n).reading) :
    exec .coldHoldExit s = .next (if s.start.coldNext = 3 then (coldPast s).afterP3 else s.enterP4) := by
  have hnone : ((List.range s.nSensors).any fun n => s.works n && decide ((s.sensor n).reading < 4 * signedByte (s.fld THM_LOW_LOW_STOP) + 12)) = false := by
    rw [List.any_eq_false]
    intro n hn hcold
    rw [Bool.and_eq_true, decide_eq_true_eq] at hcold
    have := hwarm n (List.mem_range.mp hn) hcold.1
    omega
  show execColdHoldExit s = _
  unfold execColdHoldExit
  extract_lets low
  rw [if_neg (by rw [hdead, hp, hnone]; decide)]
  by_cases hnext : s.start.coldNext = 3
  · rw [if_pos hnext, if_pos hnext]
    rfl
  · rw [if_neg hnext, if_neg hnext]

theorem goWrite_on (hdead : s.dead = false) (hp : s.phase = 0xA) : s.goWrite 1 = (stOK, (s.set GLB_START_CTL_GO 1).enterP4) := by
  rw [State.goWrite, if_neg (by decide), if_pos ⟨hp, by simp [hdead]⟩]

theorem applyWrite_START_CTL (d : RegDesc) : s.applyWrite via .glb GLB_START_CTL.off 0x24 1 d = atOnce (s.goWrite 1) := rfl

/-- GO is taken in SETUP_HOLD. -/
theorem startGo_taken (ht : s.takes via .glb = true) (hdead : s.dead = false) (hl : s.locked = false) (hp : s.phase = 0xA) (hlost : s.start.dramLost = false) :
    ∃ t, exec (.startGo via) s = .next t ∧ t.phase = 4 ∧ t.fld GLB_START_CTL_GO = 1 ∧ regsBut [GLB_START_CTL.off, GLB_START_STATUS.off] s t ∧ taken via [.start] s t := by
  have hlegal : s.legal GLB_START_CTL.off 1 = true := legal_of_openWord (b := .glb) (o := 0x24) rfl (by decide +kernel) rfl rfl hl
  have hlost' : (s.set GLB_START_CTL_GO 1).start.dramLost = false := hlost
  have hset : only [.start, .regs] s (s.set GLB_START_CTL_GO 1) := only_mono (by simp) (only_set _ _)
  obtain ⟨hw, hregs, htaken⟩ := takes_rule (via := via) (l := [.start]) (offs := [GLB_START_CTL.off, GLB_START_STATUS.off]) (b := .glb) (o := 0x24) rfl hlegal ht (by decide)
    (fun d => atOnce_ok (applyWrite_START_CTL d) (goWrite_on hdead hp)) (only_mono (by simp) (only_trans hset (enterP4_only hlost')))
    (regsBut_trans (regsBut_set (by decide)) (regsBut_mono (by simp) (enterP4_regs hlost'))) (by decide)
  refine ⟨_, congrArg Host.Outcome.next hw, ?_, ?_, hregs, htaken⟩
  · rw [State.phase, pathStatus_fld]
    exact enterP4_phase hlost'
  · rw [pathStatus_fld, regsBut.fld (enterP4_regs hlost') (by decide)]
    exact fld_set_fits (f := GLB_START_CTL_GO) (by decide) (by decide) (by decide)

/-- Settles O11: each phase end is followed to the phase that it gives way to. -/
theorem startupCommands : Obligations.StartupCommands := by
  refine ⟨fun r s hdead hp => ⟨_, execStartPhaseEnd_p1 hdead hp, setPhase_phase (by decide), ?_⟩, fun r s hdead hp => ⟨fun hstep => ?_, fun hstep hboot => ?_⟩,
    fun r s hdead hp => ⟨⟨_, execStartPhaseEnd_later hdead (by omega), phaseEnd_p5 hp⟩, _, execPhaseTimerExpiry_runs hdead, phaseEnd_p5 hp⟩,
    fun r s hdead hp hboot hgo => ⟨?_, ?_⟩, fun s hdead hp hlost hwarm => ⟨_, execColdHoldExit_warm hdead hp hwarm, ?_⟩, fun via s ht hdead hl hp hlost => startGo_taken ht hdead hl hp hlost⟩
  · have hphase : only [.regs] s.clockStart (s.clockStart.setPhase 2) := setPhase_regsOnly (by decide)
    have hclk : (s.clockStart.setPhase 2).clk = (clocksUnqualified s).clk := (hphase .clk (by decide)).trans clockStart_clk
    have hreg : ∀ o, o ∉ [GLB_START_STATUS.off] → (s.clockStart.setPhase 2).reg o = s.clockStart.reg o := setPhase_regs
    rw [hclk, hreg _ (by decide), hreg _ (by decide)]
    exact ⟨rfl, rfl, rfl, rfl, clockStart_src, clockStart_pll, regsBut_trans (regsBut_mono (by simp) clockStart_regs) (regsBut_mono (by simp) setPhase_regs),
      only_trans clockStart_only (only_mono (by simp) hphase)⟩
  · rw [execStartPhaseEnd_p2 hdead hp, State.endP2, if_pos hstep]
  · rw [execStartPhaseEnd_p2 hdead hp, endP2_diag hstep hboot]
    have hrec : Recorded ((diagHeld s).setPhase 0xB) (((diagHeld s).setPhase 0xB).startRec).fuseEvents := startRec_recorded.trans fuseEvents_recorded
    have hphase : only [.regs] (diagHeld s) ((diagHeld s).setPhase 0xB) := setPhase_regsOnly (by decide)
    refine ⟨_, rfl, (hrec.fld fun h => ?_).trans (setPhase_phase (by decide)), (hrec.parts .start (by decide)).trans (hphase .start (by decide)), ?_⟩
    · exact absurd (recReg_ge h) (by decide)
    · exact only_trans (only_mono (k := [.start]) (by simp) (only_start _)) (only_trans (only_mono (by simp) hphase) (only_mono (by simp) hrec.parts))
  · rw [execStartPhaseEnd_later hdead (by omega), phaseEnd_p7_waits hp hboot hgo]
  · rw [execPhaseTimerExpiry_runs hdead, phaseEnd_p7_waits hp hboot hgo]
  · have hpast : only [.start, .regs] s (coldPast s) := only_mono (by simp) coldPast_only
    by_cases hnext : s.start.coldNext = 3
    · rw [if_pos hnext]
      by_cases hboot : s.start.boot = 1
      · have hstart : ((coldPast s).setPhase 0xA).start = (coldPast s).start := setPhase_regsOnly (by decide) .start (by decide)
        rw [if_pos ⟨hnext, hboot⟩, afterP3_setup (s := coldPast s) hboot]
        exact ⟨setPhase_phase (by decide), by rw [hstart]; rfl, regsBut_trans (regsBut_of_regs rfl) setPhase_regs, only_trans hpast setPhase_only⟩
      · rw [if_neg fun h => hboot h.2, afterP3_on (s := coldPast s) hboot]
        exact ⟨enterP4_phase hlost, enterP4_coldNext hlost, regsBut_trans (regsBut_of_regs rfl) (enterP4_regs hlost), only_trans hpast (enterP4_only hlost)⟩
    · rw [if_neg hnext, if_neg fun h => hnext h.1]
      exact ⟨enterP4_phase hlost, enterP4_coldNext hlost, enterP4_regs hlost, enterP4_only hlost⟩

end Sys2Proof.Proofs
end

section
/-! SUPPORT. The rails (R27, R32, R71, R102): what a power-on reset leaves behind, a rail that becomes good, and the loss of a rail. -/

namespace Sys2Proof.Proofs

set_option Elab.async false

open Sys2Proof.Machine Sys2Proof.Laws

variable {s t : State} {r : RailId} {o : Nat}

/-! ## The power-on reset (Table 4.6) -/

/-- What a power-on reset keeps and what it empties. -/
structure PowerReset (s t : State) : Prop where
  rails : t.rails = s.rails
  pins : t.pins = s.pins
  regs : ∀ o, t.reg o = (resetValue o).toNat
  rows : t.fuse.rows = s.fuse.rows
  run : t.fuse.run = none
  sett : t.sett = s.sett
  pending : t.pending = s.pending
  grave : t.start.grave = false
  slowHold : t.start.slowHold = false
  diagHold : t.start.diagHold = false
  flt : t.flt = {}
  sw : t.sw = {}
  txns : t.txns = []
  rings : t.rings = []
  fox : t.fox = {}
  links : t.links = []
  lanes : t.lanes = []

theorem baseReset_por : s.baseReset .por = (closedDown s).afterReset .por := rfl

theorem reg_afterReset_por : (s.afterReset .por).reg o = (resetValue o).toNat := by
  rw [reg_afterReset]
  exact (reg_keptRegs .por o).trans (if_neg (by simp [keepReg]))

theorem afterReset_por_fuse : (s.afterReset .por).fuse = { rows := s.fuse.rows } := rfl
theorem afterReset_por_grave : (s.afterReset .por).start.grave = false := rfl
theorem afterReset_por_slowHold : (s.afterReset .por).start.slowHold = false := rfl
theorem afterReset_por_diagHold : (s.afterReset .por).start.diagHold = false := rfl
theorem afterReset_por_flt : (s.afterReset .por).flt = {} := rfl
theorem afterReset_lanes (k : ResetKind) : (s.afterReset k).lanes = [] := rfl

theorem powerReset (hrun : s.fuse.run = none) : PowerReset s (s.baseReset .por) := by
  have hclosed := closedDown_only hrun
  rw [baseReset_por]
  generalize closedDown s = c at hclosed
  exact ⟨(afterReset_rails .por).trans (hclosed .rails (by decide)), (afterReset_pins .por).trans (hclosed .pins (by decide)), fun o => reg_afterReset_por,
    by rw [afterReset_por_fuse, show c.fuse = s.fuse from hclosed .fuse (by decide)], congrArg FuseSt.run afterReset_por_fuse,
    (afterReset_sett .por).trans (hclosed .sett (by decide)), (afterReset_pending .por).trans (hclosed .pending (by decide)),
    afterReset_por_grave, afterReset_por_slowHold, afterReset_por_diagHold, afterReset_por_flt, afterReset_sw .por, afterReset_txns .por, afterReset_rings .por,
    afterReset_fox .por, afterReset_links .por, afterReset_lanes .por⟩

/-! ## VAON is lost and becomes good -/

/-- The marks of a lost VAON on a state that the power-on reset has left. -/
def vaonMarked (t : State) (lost : Bool) : State :=
  { t with rails := { t.rails with vaon := false }, pins := { t.pins with thermtripLow := false }, start := { t.start with railLost := lost } }

theorem vaonLost_eq : s.vaonLost = vaonMarked (s.baseReset .por) (s.start.railLost || s.phase != 0) := rfl

theorem vaonMarked_only (lost : Bool) : only [.rails, .pins, .start] t (vaonMarked t lost) := fun q hq => by
  cases q
  case rails | pins | start => simp at hq
  all_goals rfl

/-- The state that the power-on reset finds: VAON that was still good has been lost first. -/
def unpowered (s : State) : State := if s.rails.vaon then s.vaonLost else s

theorem unpowered_kept (hrun : s.fuse.run = none) : (unpowered s).fuse.run = none ∧ (unpowered s).fuse.rows = s.fuse.rows ∧ (unpowered s).sett = s.sett ∧ (unpowered s).pending = s.pending
    ∧ ({ (unpowered s).rails with vaon := true } : Rails) = { s.rails with vaon := true } ∧ (unpowered s).pins.perstN = s.pins.perstN ∧ (unpowered s).pins.bypForceN = s.pins.bypForceN := by
  unfold unpowered
  split
  · have hreset := powerReset hrun
    rw [vaonLost_eq]
    generalize s.baseReset .por = t at hreset
    have hmarked := vaonMarked_only (t := t) (s.start.railLost || s.phase != 0)
    have hfuse : (vaonMarked t (s.start.railLost || s.phase != 0)).fuse = t.fuse := hmarked .fuse (by decide)
    refine ⟨by rw [hfuse, hreset.run], by rw [hfuse, hreset.rows], (hmarked .sett (by decide)).trans hreset.sett, (hmarked .pending (by decide)).trans hreset.pending, ?_, ?_, ?_⟩
    · simp [vaonMarked, hreset.rails]
    · simp [vaonMarked, hreset.pins]
    · simp [vaonMarked, hreset.pins]
  · exact ⟨hrun, rfl, rfl, rfl, rfl, rfl, rfl⟩

/-- VAON is good and the straps are sampled. -/
def strapped (t : State) (straps : BitVec 12) (boot : BitVec 2) (tmode : Bool) : State :=
  { t with rails := { t.rails with vaon := true }, pins := { t.pins with idStrap := straps, bootMode := boot, tmode := tmode, thermtripLow := false } }

/-- GLB_DID shows the straps, and power-good is timed. -/
def powered (t : State) (straps : BitVec 12) : State :=
  let u := t.sets [(GLB_DID_STRAP_DID, straps.toNat), (GLB_DID_DID, straps.toNat)]
  { u with start := { u.start with pgAt := u.now, pgSeen := u.powerGood } }

theorem powerOn_eq (straps : BitVec 12) (boot : BitVec 2) (tmode : Bool) :
    s.powerOn straps boot tmode = (powered (strapped ((unpowered s).baseReset .por) straps boot tmode) straps).tryStart := by
  simp only [State.powerOn, powered, strapped, unpowered]

theorem strapped_only (straps : BitVec 12) (boot : BitVec 2) (tmode : Bool) : only [.rails, .pins] t (strapped t straps boot tmode) := fun q hq => by
  cases q
  case rails | pins => simp at hq
  all_goals rfl

theorem powered_only (straps : BitVec 12) : only [.start, .regs] t (powered t straps) :=
  only_trans (only_mono (by simp) (only_sets _)) (only_mono (by simp) (only_start _))

theorem powered_regs (straps : BitVec 12) : (powered t straps).regs = (t.sets [(GLB_DID_STRAP_DID, straps.toNat), (GLB_DID_DID, straps.toNat)]).regs := by
  simp only [powered]

theorem powered_holds (straps : BitVec 12) : (powered t straps).start.grave = t.start.grave ∧ (powered t straps).start.slowHold = t.start.slowHold ∧ (powered t straps).start.diagHold = t.start.diagHold := by
  simp only [powered, sets_start, and_self]

theorem powered_did (straps : BitVec 12) : (powered t straps).fld GLB_DID_DID = straps.toNat ∧ (powered t straps).fld GLB_DID_STRAP_DID = straps.toNat := by
  have hfits : straps.toNat < 2 ^ 12 := straps.isLt
  rw [fld_congr (powered_regs straps), fld_congr (powered_regs straps)]
  generalize straps.toNat = v at hfits
  constructor
  · exact fld_set_fits (f := GLB_DID_DID) (by decide) (by decide) hfits
  · exact (fld_set_disjoint (f := GLB_DID_DID) (g := GLB_DID_STRAP_DID) _ (by decide) (by decide) (by decide) v).trans
      (fld_set_fits (f := GLB_DID_STRAP_DID) (by decide) (by decide) hfits)

/-- While PERST_N is low the stack waits in P0. -/
theorem tryStart_held (h : s.pins.perstN = false) : s.tryStart = s := if_neg (by simp [h])

theorem powered_perstN (straps : BitVec 12) (boot : BitVec 2) (tmode : Bool) : (powered (strapped t straps boot tmode) straps).pins.perstN = t.pins.perstN := by
  have hpins : (powered (strapped t straps boot tmode) straps).pins = (strapped t straps boot tmode).pins := powered_only straps .pins (by decide)
  rw [hpins, strapped]

theorem powerOn_held (straps : BitVec 12) (boot : BitVec 2) (tmode : Bool) (hp : s.pins.perstN = false) (hrun : s.fuse.run = none) :
    s.powerOn straps boot tmode = powered (strapped ((unpowered s).baseReset .por) straps boot tmode) straps := by
  obtain ⟨hrun', -, -, -, -, hperst, -⟩ := unpowered_kept hrun
  have hreset := powerReset hrun'
  rw [powerOn_eq]
  exact tryStart_held ((powered_perstN straps boot tmode).trans ((congrArg Pins.perstN hreset.pins).trans (hperst.trans hp)))

/-! ## A rail becomes good (R27) -/

/-- The other rails are as before. -/
structure OneRail (r : RailId) (level : Bool) (s t : State) : Prop where
  level : railOf r t.rails = level
  others : ∀ q, q ≠ r → railOf q t.rails = railOf q s.rails

theorem OneRail.vaon {b : Bool} (h : OneRail r b s t) (hr : r ≠ .vaon) : t.rails.vaon = s.rails.vaon := h.others .vaon hr.symm

/-- The levels with one rail good. -/
def withRail (r : RailId) (x : Rails) : Rails :=
  match r with
  | .vaon => x
  | .vcore => { x with vcore := true }
  | .vstore => { x with vstore := true }
  | .vdram => { x with vdram := true }
  | .vpp => { x with vpp := true }
  | .vser => { x with vser := true }
  | .vserh => { x with vserh := true }
  | .vfuse => { x with vfuse := true }

theorem railOf_withRail (hr : r ≠ .vaon) (x : Rails) : railOf r (withRail r x) = true := by
  cases r
  case vaon => exact absurd rfl hr
  all_goals rfl

theorem railOf_withRail_ne {q : RailId} (h : q ≠ r) (x : Rails) : railOf q (withRail r x) = railOf q x := by
  cases r <;> cases q <;> simp_all [railOf, withRail]

/-- A rail that becomes good where nothing runs: a layer that powers up with it has lost its contents. -/
def railGone (r : RailId) (s : State) : State :=
  match r with
  | .vstore => if s.rails.vstore then s else { s with start := { s.start with frozen := false }, marl := { s.marl with lines := [], image := [] } }
  | .vdram => if s.rails.vdram then s else { s with start := { s.start with retained := 0 }, chan := { s.chan with dram := [], zeroed := [] } }
  | .vpp => if s.rails.vpp then s else { s with start := { s.start with retained := 0 }, chan := { s.chan with dram := [], zeroed := [] } }
  | _ => s

theorem railGone_only : only [.start, .marl, .chan] s (railGone r s) := by
  cases r
  case vstore =>
    refine only_ite (only_refl _ _) fun q hq => ?_
    cases q
    case start | marl => simp at hq
    all_goals rfl
  case vdram | vpp =>
    refine only_ite (only_refl _ _) fun q hq => ?_
    cases q
    case start | chan => simp at hq
    all_goals rfl
  all_goals exact only_refl _ _

theorem railGone_hold : (railGone r s).vaonHold = s.vaonHold := by
  cases r
  case vstore | vdram | vpp =>
    show State.vaonHold (ite _ _ _) = _
    split <;> rfl
  all_goals rfl

/-- Power-good that has just come is timed. -/
def goodNoted (was : Bool) (t : State) : State := if t.powerGood && !was then { t with start := { t.start with pgAt := t.now, pgSeen := true } } else t

theorem goodNoted_only (was : Bool) : only [.start] t (goodNoted was t) := only_ite (only_start _) (only_refl _ _)

theorem goodNoted_hold (was : Bool) : (goodNoted was t).vaonHold = t.vaonHold := by
  unfold goodNoted
  split <;> rfl

/-- Where nothing runs, a rail that becomes good is marked, and the start may follow. -/
theorem execRailGood_up (hr : r ≠ .vaon) (hlive : ∀ x : Rails, ({ s with rails := x } : State).live = false) :
    exec (.railGood r) s = .next (goodNoted s.powerGood { railGone r s with rails := withRail r s.rails }).tryStart := by
  show execRailGood r s = _
  cases r
  case vaon => exact absurd rfl hr
  case vser | vserh =>
    simp only [execRailGood, hlive, if_false, Bool.false_eq_true, reduceCtorEq]
    rfl
  case vstore | vdram | vpp =>
    simp only [execRailGood, if_false, reduceCtorEq, railGone]
    split <;> rfl
  all_goals rfl

/-! ## What the closing before a reset keeps of the start -/

theorem marked_start {c l : Nat} {k : Chan} : ((s.setChn c k).set (VCP_LAYER_STATUS_HB_LOST l) 1).start = s.start := by
  rw [set_start]
  exact only_setChn _ _ .start (by decide)

/-- A layer whose heartbeat ends keeps its contents in self-refresh (R73). -/
def retainLayer (t : State) (c : Nat) : State := { t with start := { t.start with retained := BitVec.ofNat 16 (putBit t.start.retained.toNat (c / 2) true) } }

theorem retainLayer_start (t : State) (c : Nat) : (retainLayer t c).start = { t.start with retained := (retainLayer t c).start.retained } := rfl

theorem channelSr_eq (c : Nat) : s.channelSr c =
    if (s.chn c).heartbeat then
      retainLayer (((s.cutBursts c).setChn c { (s.cutBursts c).chn c with heartbeat := false, srHeld := true }).set (VCP_LAYER_STATUS_HB_LOST (c / 2)) 1) c
    else s := rfl

theorem channelSr_start (c : Nat) : (s.channelSr c).start = { s.start with retained := (s.channelSr c).start.retained } := by
  rw [channelSr_eq]
  split
  · rw [retainLayer_start, marked_start, cutBursts_only c .start (by decide)]
  · rfl

/-- The start is as before but for the layers marked as retained. -/
def startRetained (s t : State) : Prop := t.start = { s.start with retained := t.start.retained }

theorem stopHeartbeats_start : startRetained s s.stopHeartbeats := by
  unfold State.stopHeartbeats
  refine each_keeps (P := startRetained s) rfl fun x c hx => ?_
  rw [startRetained, channelSr_start, hx]

theorem freezeMarl_start : s.freezeMarl.start = { s.start with frozen := s.freezeMarl.start.frozen } := by
  unfold State.freezeMarl
  split <;> rfl

theorem closedDown_railLost (hrun : s.fuse.run = none) : (closedDown s).start.railLost = s.start.railLost := by
  rw [closedDown_eq hrun, show s.stopHeartbeats.freezeMarl.closeAll.start = s.stopHeartbeats.freezeMarl.start from closeAll_only .start (by decide), freezeMarl_start, stopHeartbeats_start]

/-! ## VCORE is lost past P0 (R32): a warm reset -/

/-- After the loss of VCORE, RST_CAUSE says so. -/
def coreCause (s : State) : State :=
  ((closedDown s).afterReset .vcore).setReg RST_CAUSE.off (satAdd 0xFFFF (s.fld RST_CAUSE_WARM_COUNT) 1 * 2 ^ 16 + s.phase * 2 ^ 8 + 4)

/-- A warm reset by the loss of VCORE. -/
def coreReset (s : State) : State :=
  (coreCause s).sets [(GLB_DID_STRAP_DID, (coreCause s).pins.idStrap.toNat), (GLB_DID_DID, (coreCause s).pins.idStrap.toNat)]

theorem baseReset_vcore (h : s.vaonHold = false) : s.baseReset .vcore = coreReset s := by
  simp only [State.baseReset, h, coreReset, coreCause, closedDown, if_false, reduceCtorEq, Bool.false_eq_true]

theorem coreReset_only : only [.regs] ((closedDown s).afterReset .vcore) (coreReset s) := only_trans only_setReg (only_sets _)

theorem coreReset_cause : (coreReset s).reg RST_CAUSE.off = satAdd 0xFFFF (s.fld RST_CAUSE_WARM_COUNT) 1 * 2 ^ 16 + s.phase * 2 ^ 8 + 4 := by
  have hkeep : (coreReset s).reg RST_CAUSE.off = (coreCause s).reg RST_CAUSE.off :=
    regsBut_sets (l := [GLB_DID.off]) (by simp [GLB_DID_STRAP_DID, GLB_DID_DID, GLB_DID]) _ (by decide)
  have hphase := phase_lt s
  have hwarm : satAdd 0xFFFF (s.fld RST_CAUSE_WARM_COUNT) 1 ≤ 0xFFFF := Nat.min_le_left _ _
  rw [hkeep]
  exact reg_setReg_lt (by omega)

theorem coreReset_phase : (coreReset s).phase = 0 := by
  have hregs : regsBut [RST_CAUSE.off, GLB_DID.off] ((closedDown s).afterReset .vcore) (coreReset s) :=
    regsBut_trans (regsBut_setReg (by decide)) (regsBut_sets (by simp [GLB_DID_STRAP_DID, GLB_DID_DID, GLB_DID]))
  have hlost : (coreReset s).reg GLB_START_STATUS_PHASE.off = (resetValue GLB_START_STATUS_PHASE.off).toNat := by
    rw [hregs _ (by decide), reg_afterReset]
    exact (reg_keptRegs .vcore _).trans (if_neg (by decide +kernel))
  rw [State.phase, State.fld, hlost]
  decide +kernel

theorem coreReset_causes : (coreReset s).fld RST_CAUSE_VCORE_LOST = 1 ∧ (coreReset s).fld RST_CAUSE_POR = 0
    ∧ (coreReset s).fld RST_CAUSE_WARM_COUNT = min 0xFFFF (s.fld RST_CAUSE_WARM_COUNT + 1) ∧ (coreReset s).fld RST_CAUSE_LAST_PHASE = s.phase := by
  have hphase := phase_lt s
  have hwarm : satAdd 0xFFFF (s.fld RST_CAUSE_WARM_COUNT) 1 ≤ 0xFFFF := Nat.min_le_left _ _
  have hword : ∀ f : Fld, f.off = RST_CAUSE.off → (coreReset s).fld f = bitsOf (satAdd 0xFFFF (s.fld RST_CAUSE_WARM_COUNT) 1 * 2 ^ 16 + s.phase * 2 ^ 8 + 4) f.hi f.lo := fun f hf => by
    rw [State.fld, hf, coreReset_cause]
  rw [hword RST_CAUSE_VCORE_LOST rfl, hword RST_CAUSE_POR rfl, hword RST_CAUSE_WARM_COUNT rfl, hword RST_CAUSE_LAST_PHASE rfl, ← satAdd]
  generalize satAdd 0xFFFF (s.fld RST_CAUSE_WARM_COUNT) 1 = w at hwarm ⊢
  simp only [bitsOf, RST_CAUSE_VCORE_LOST, RST_CAUSE_POR, RST_CAUSE_WARM_COUNT, RST_CAUSE_LAST_PHASE]
  omega

theorem afterReset_vcore_fuse : (s.afterReset .vcore).fuse = { s.fuse with run := none } := rfl
theorem afterReset_vcore_railLost : (s.afterReset .vcore).start.railLost = s.start.railLost := rfl

theorem coreReset_keeps (hrun : s.fuse.run = none) :
    (coreReset s).rails = s.rails ∧ (coreReset s).start.railLost = s.start.railLost ∧ (coreReset s).fuse = s.fuse ∧ (coreReset s).sett = s.sett ∧ (coreReset s).pins = s.pins
      ∧ (coreReset s).sw = {} ∧ (coreReset s).txns = [] ∧ (coreReset s).pending = s.pending := by
  have hclosed := closedDown_only hrun
  have hlost := closedDown_railLost hrun
  have hstays : only [.regs] ((closedDown s).afterReset .vcore) (coreReset s) := coreReset_only
  generalize coreReset s = t at hstays ⊢
  generalize closedDown s = c at hstays hclosed hlost
  have hrails := afterReset_rails (s := c) .vcore
  have hrail := afterReset_vcore_railLost (s := c)
  have hfuse := afterReset_vcore_fuse (s := c)
  have hsett := afterReset_sett (s := c) .vcore
  have hpins := afterReset_pins (s := c) .vcore
  have hsw := afterReset_sw (s := c) .vcore
  have htxns := afterReset_txns (s := c) .vcore
  have hpending := afterReset_pending (s := c) .vcore
  generalize c.afterReset .vcore = z at hstays hrails hrail hfuse hsett hpins hsw htxns hpending
  have hcfuse : c.fuse = s.fuse := hclosed .fuse (by decide)
  have hcut : ({ s.fuse with run := none } : FuseSt) = s.fuse := by rw [← hrun]
  refine ⟨(hstays .rails (by decide)).trans (hrails.trans (hclosed .rails (by decide))), (congrArg StartSt.railLost (hstays .start (by decide))).trans (hrail.trans hlost), ?_,
    (hstays .sett (by decide)).trans (hsett.trans (hclosed .sett (by decide))), (hstays .pins (by decide)).trans (hpins.trans (hclosed .pins (by decide))),
    (hstays .sw (by decide)).trans hsw, (hstays .txns (by decide)).trans htxns, (hstays .pending (by decide)).trans (hpending.trans (hclosed .pending (by decide)))⟩
  exact (hstays .fuse (by decide)).trans (by rw [hfuse, hcfuse, hcut])

/-- The marks of a loss of VCORE past P0. -/
def coreLost (s : State) : State :=
  { s with rails := { s.rails with vcore := false }, start := { s.start with railLost := !s.vaonHold || s.start.railLost, lostAt := some s.now } }

theorem execRailLost_vcore (hv : s.rails.vaon = true) (hc : s.rails.vcore = true) (hp : s.phase ≠ 0) (hh : s.vaonHold = false) :
    exec (.railLost .vcore) s = .next (coreReset (coreLost s)) := by
  show execRailLost .vcore s = _
  have hcounts : s.railCounts = true := by simp [State.railCounts, hv, hp]
  have hheld : (coreLost s).vaonHold = false := hh
  rw [← baseReset_vcore hheld]
  simp only [execRailLost, hcounts, hc, Bool.and_self, if_true]
  rfl

/-! ## VSTORE is lost past P0 (R32, R410) -/

theorem freezeMarl_unpowered (h : s.rails.vstore = false) : s.freezeMarl = s := if_pos (by simp [h])

theorem force_unpowered (h : s.rails.vstore = false) (cause : Option Fld) : (s.force cause).marl = s.marl ∧ (s.force cause).start.frozen = s.start.frozen := by
  have hrails : s.stopHeartbeats.rails.vstore = false := (congrArg Rails.vstore (stopHeartbeats_heartbeatsEnd.parts .rails (by decide))).trans h
  have hmarl : s.stopHeartbeats.marl = s.marl := stopHeartbeats_heartbeatsEnd.parts .marl (by decide)
  have hfrozen : s.stopHeartbeats.start.frozen = s.start.frozen := by rw [stopHeartbeats_start]
  have hdrop : only [.lanes, .regs, .links, .sw, .txns] s.stopHeartbeats s.stopHeartbeats.squelchAll.dropTraffic :=
    only_trans (only_mono (by simp) squelchAll_only) (only_mono (by simp) dropTraffic_only)
  unfold State.force
  rw [freezeMarl_unpowered hrails]
  generalize s.stopHeartbeats = a at hmarl hfrozen hdrop
  generalize a.squelchAll.dropTraffic = b at hdrop
  have hbm : b.marl = a.marl := hdrop .marl (by decide)
  have hbs : b.start = a.start := hdrop .start (by decide)
  simp only [sets_marl, sets_start, hbm, hbs, hmarl, hfrozen, and_self]

theorem enterGrave_unpowered (h : s.rails.vstore = false) : s.enterGrave.start.grave = true ∧ s.enterGrave.start.frozen = s.start.frozen ∧ s.enterGrave.marl = s.marl := by
  rw [enterGrave_eq]
  by_cases hg : s.start.grave = true
  · rw [if_pos hg]
    exact ⟨hg, rfl, rfl⟩
  · obtain ⟨hmarl, hfrozen⟩ := force_unpowered h none
    rw [if_neg hg]
    generalize s.force none = u at hmarl hfrozen
    exact ⟨rfl, hfrozen, hmarl⟩

/-- In the grave safe state only wakes and the answer of a sleep entry can follow a command. -/
theorem settle_only_held (hg : s.start.grave = true) : only wakeParts s s.settle := by
  unfold State.settle
  have hwake : only wakeParts s (if s.pwr.wakeDue then ({ s with pwr := { s.pwr with wakeDue := false } } : State).wake 4 else s) :=
    only_ite (only_trans (only_mono (by simp [wakeParts]) (only_pwr _)) (wake_only 4)) (only_refl _ _)
  have hstep := only_trans hwake (only_mono (by simp [wakeParts, answerParts]) sleepStep2_only)
  rw [if_neg (by rw [show State.start (State.sleepStep2 _) = s.start from hstep .start (by decide)]; simp [hg])]
  exact hstep

/-- The Marl's contents are gone with VSTORE. -/
def storeLost (s : State) : State :=
  { s with rails := { s.rails with vstore := false }, marl := { s.marl with lines := [], image := [] }, start := { s.start with frozen := false } }

theorem keepCodes_only (die : Nat → Bool) : only [.vcp] s (s.keepCodes die) := only_vcp _

theorem keepCodes_rails (die : Nat → Bool) : (s.keepCodes die).rails = s.rails := rfl

theorem execRailLost_vstore (hv : s.rails.vaon = true) (hs : s.rails.vstore = true) (hp : s.phase ≠ 0) :
    exec (.railLost .vstore) s = .next (((storeLost (s.keepCodes (· != 1))).raiseRec .railVstore 0 0).enterGrave).settle := by
  show execRailLost .vstore s = _
  have hcounts : s.railCounts = true := by simp [State.railCounts, hv, hp]
  simp only [execRailLost, hcounts, keepCodes_rails, hs, Bool.and_self, if_true]
  rfl

theorem storeLost_grave (h : s.rails.vstore = false) : ((s.raiseRec .railVstore 0 0).enterGrave.settle).rails = s.rails ∧ ((s.raiseRec .railVstore 0 0).enterGrave.settle).start.grave = true
    ∧ ((s.raiseRec .railVstore 0 0).enterGrave.settle).start.frozen = s.start.frozen ∧ ((s.raiseRec .railVstore 0 0).enterGrave.settle).marl = s.marl := by
  have hraise := (raiseRec_frame (s := s) (f := .railVstore) (unit := 0) (detail := 0) (inj := false)).parts
  generalize s.raiseRec .railVstore 0 0 = a at hraise
  have hrails : a.rails = s.rails := hraise .rails (by decide)
  have hstart : a.start = s.start := hraise .start (by decide)
  have hmarl : a.marl = s.marl := hraise .marl (by decide)
  obtain ⟨hg, hfrozen, hlines⟩ := enterGrave_unpowered (s := a) (by rw [hrails]; exact h)
  have hgrave : a.enterGrave.rails = a.rails := enterGrave_only .rails (by decide)
  generalize a.enterGrave = b at hg hfrozen hlines hgrave
  have hheld := settle_only_held hg
  have hstart' : b.settle.start = b.start := hheld .start (by decide)
  exact ⟨(hheld .rails (by decide)).trans (hgrave.trans hrails), by rw [hstart', hg], by rw [hstart', hfrozen, hstart], (hheld .marl (by decide)).trans (hlines.trans hmarl)⟩

/-! ## VFUSE is lost (R102) -/

/-- What the cut of a running OTP command may change. -/
def cutParts : List Part := [.regs, .fuse, .free, .sett, .recd]

theorem toppedUp_frame (row bit result : Nat) : Frame cutParts recReg s (s.toppedUp row bit result) :=
  (Frame.of_only (only_sett _) (by simp [cutParts]) (by simp)).trans ((event_frame _ (by decide) _ _ _).mono (by simp [cutParts]) fun _ h => h)

theorem blowPart_only (phys : Nat) (m : BitVec 128) : only [.free, .fuse] s (s.blowPart phys m) :=
  only_trans (only_mono (by simp) (only_free _)) (only_mono (k := [.fuse]) (by simp) (only_fuse _))

/-- A top-up that is cut off has its entry in the Sett. -/
def cutNoted (r : OtpRun) (s : State) : State := if r.op = 5 ∧ r.early = none then s.toppedUp r.row r.bit 6 else s

theorem cutNoted_frame (r : OtpRun) : Frame cutParts recReg s (cutNoted r s) := .ite (toppedUp_frame _ _ _) (.refl _ _ _)

theorem otpCut_cases {r : OtpRun} (hrun : s.fuse.run = some r) :
    s.otpCut = cutNoted r { s with fuse := { s.fuse with run := none } } ∨ ∃ p m, s.otpCut = (cutNoted r { s with fuse := { s.fuse with run := none } }).blowPart p m := by
  unfold State.otpCut
  rw [hrun]
  dsimp only
  split
  next p m _ _ => exact .inr ⟨p, m, rfl⟩
  next => exact .inl rfl

theorem otpCut_frame {r : OtpRun} (hrun : s.fuse.run = some r) : Frame cutParts recReg s s.otpCut := by
  have hnoted : Frame cutParts recReg s (cutNoted r { s with fuse := { s.fuse with run := none } }) :=
    (Frame.of_only (only_fuse _) (by simp [cutParts]) (by simp)).trans (cutNoted_frame r)
  rcases otpCut_cases hrun with h | ⟨p, m, h⟩
  · rw [h]; exact hnoted
  · rw [h]; exact hnoted.trans (.of_only (blowPart_only p m) (by simp [cutParts]) (by simp))

theorem otpCut_regs {r : OtpRun} (hrun : s.fuse.run = some r) (hop : r.op ≠ 5) : s.otpCut.regs = s.regs := by
  have hnoted : cutNoted r { s with fuse := { s.fuse with run := none } } = { s with fuse := { s.fuse with run := none } } := if_neg fun h => hop h.1
  rcases otpCut_cases hrun with h | ⟨p, m, h⟩
  · rw [h, hnoted]
  · rw [h, hnoted]; exact blowPart_only p m .regs (by decide)

theorem closeWindow_shut (h : s.fld OTP_STATUS_WINDOW = 0) : s.closeWindow true = s := if_pos (by simp [State.on, h])

theorem closeWindow_idle (h : s.fld OTP_STATUS_WINDOW ≠ 0) (hrun : s.fuse.run = none) : s.closeWindow true = s.set OTP_STATUS_WINDOW 0 := by
  rw [State.closeWindow, if_neg (by simp [State.on, h])]
  simp only [set_fuse, hrun]

theorem closeWindow_aborts {r : OtpRun} (h : s.fld OTP_STATUS_WINDOW ≠ 0) (hrun : s.fuse.run = some r) :
    s.closeWindow true = (s.set OTP_STATUS_WINDOW 0).otpCut.otpEnd r.op 6 := by
  rw [State.closeWindow, if_neg (by simp [State.on, h])]
  simp only [set_fuse, hrun, if_true]

theorem otpEnd_lastOp (op result : Nat) : (s.otpEnd op result).fld OTP_STATUS_LAST_OP = op % 16 := by
  simp only [State.otpEnd, sets_cons, sets_nil]
  rw [fld_set_disjoint _ (by decide) (by decide) (.inl (by decide))]
  exact fld_set_same _ (by decide) (by decide) _

theorem otpEnd_busy_result (op result : Nat) : (s.otpEnd op result).fld OTP_STATUS_BUSY = 0 ∧ (s.otpEnd op result).fld OTP_STATUS_RESULT = result % 256 := by
  simp only [State.otpEnd, sets_cons, sets_nil]
  refine ⟨?_, fld_set_same _ (by decide) (by decide) _⟩
  rw [fld_set_disjoint _ (by decide) (by decide) (.inl (by decide)), fld_set_disjoint _ (by decide) (by decide) (.inl (by decide))]
  exact fld_set_fits (by decide) (by decide) (by decide)

/-- The window closes, and a running command is aborted. -/
theorem closeWindow_abort : (s.closeWindow true).fld OTP_STATUS_WINDOW = 0
    ∧ (s.fld OTP_STATUS_WINDOW = 1 → ∀ r, s.fuse.run = some r → (s.closeWindow true).fuse.run = none ∧ (s.closeWindow true).fld OTP_STATUS_RESULT = 6
      ∧ (s.closeWindow true).fld OTP_STATUS_LAST_OP = r.op % 16 ∧ (s.closeWindow true).fld OTP_STATUS_BUSY = 0)
    ∧ ((∀ r, s.fuse.run = some r → r.op ≠ 5) → regsBut [OTP_STATUS.off] s (s.closeWindow true)) ∧ only [.regs, .fuse, .free, .sett, .recd] s (s.closeWindow true)
    ∧ Frame cutParts (fun o => o = OTP_STATUS.off ∨ recReg o) s (s.closeWindow true) := by
  by_cases hw : s.fld OTP_STATUS_WINDOW = 0
  · rw [closeWindow_shut hw]
    exact ⟨hw, fun h => absurd (hw.symm.trans h) (by decide), fun _ => regsBut_of_regs rfl, only_refl _ _, .refl _ _ _⟩
  · have hshut : (s.set OTP_STATUS_WINDOW 0).fld OTP_STATUS_WINDOW = 0 := fld_set_fits (f := OTP_STATUS_WINDOW) (by decide) (by decide) (by decide)
    have hset : regsBut [OTP_STATUS.off] s (s.set OTP_STATUS_WINDOW 0) := regsBut_set (by decide)
    have hframe : Frame cutParts (fun o => o = OTP_STATUS.off ∨ recReg o) s (s.set OTP_STATUS_WINDOW 0) := .set (by simp [cutParts]) (.inl rfl)
    cases hrun : s.fuse.run with
    | none =>
      rw [closeWindow_idle hw hrun]
      exact ⟨hshut, fun _ r hr => absurd hr (by simp), fun _ => hset, only_mono (by simp) (only_set _ _), hframe⟩
    | some r =>
      rw [closeWindow_aborts hw hrun]
      have hrun' : (s.set OTP_STATUS_WINDOW 0).fuse.run = some r := by rw [set_fuse, hrun]
      have hcut := otpCut_frame hrun'
      obtain ⟨hend, honly⟩ := otpEnd_frame (s.set OTP_STATUS_WINDOW 0).otpCut r.op 6
      obtain ⟨hbusy, hresult⟩ := otpEnd_busy_result (s := (s.set OTP_STATUS_WINDOW 0).otpCut) r.op 6
      have hall : Frame cutParts (fun o => o = OTP_STATUS.off ∨ recReg o) s ((s.set OTP_STATUS_WINDOW 0).otpCut.otpEnd r.op 6) :=
        (hframe.trans (hcut.mono (by simp [cutParts]) fun _ h => .inr h)).trans ⟨only_mono (by simp [cutParts]) honly, fun o ho => hend o fun hm => ho (.inl (List.mem_singleton.mp hm))⟩
      refine ⟨?_, fun _ q hq => ⟨by rw [otpEnd_fuse], hresult, ?_, hbusy⟩, fun hop => ?_, hall.parts, hall⟩
      · rw [otpEnd_window, hcut.fld (by simp [recReg, OTP_STATUS_WINDOW, REC_FOLDS]), hshut]
      · rw [otpEnd_lastOp, Option.some.inj hq]
      · exact regsBut_trans hset (regsBut_trans (regsBut_of_regs (otpCut_regs hrun' (hop r rfl))) hend)

/-! ## A rail is lost in P0 (R32) -/

/-- The DRAM contents are gone with their rail, whatever the level of the other one. -/
def dramGone (s : State) : State :=
  { s.keepCodes (· < 2) with chan := { s.chan with dram := [], zeroed := [] } }

theorem dramGone_only : only [.vcp, .chan] s (dramGone s) := fun q hq => by
  cases q
  case vcp | chan => simp at hq
  all_goals rfl

/-- What the loss of a rail in P0 may change. -/
def lostParts : List Part := [.rails, .start, .marl, .chan, .vcp, .fuse, .regs, .free, .sett, .recd]

/-- The level of a rail alone changes. -/
theorem oneRail_of_rails (h : railOf r t.rails = false) (hothers : ∀ q, q ≠ r → railOf q t.rails = railOf q s.rails) : OneRail r false s t := ⟨h, hothers⟩

theorem execRailLost_vdram (hrun : s.railCounts = false) :
    exec (.railLost .vdram) s = .next (if s.rails.vdram then dramGone { s with rails := { s.rails with vdram := false } } else s) := by
  show execRailLost .vdram s = _
  simp only [execRailLost, hrun, if_false, Bool.false_eq_true]
  rfl

theorem execRailLost_vpp (hrun : s.railCounts = false) :
    exec (.railLost .vpp) s = .next (if s.rails.vpp then dramGone { s with rails := { s.rails with vpp := false } } else s) := by
  show execRailLost .vpp s = _
  simp only [execRailLost, hrun, if_false, Bool.false_eq_true]
  rfl

/-- Where its loss does not count, a rail is only marked, and what its supply holds is gone. -/
theorem execRailLost_marks (hr : r ≠ .vaon) (hrun : s.railCounts = false) :
    ∃ t, exec (.railLost r) s = .next t ∧ OneRail r false s t ∧ t.phase = s.phase ∧ only lostParts s t := by
  have hrails : ∀ x : Rails, only lostParts s { s with rails := x } := fun x => only_mono (by simp [lostParts]) (only_rails x)
  have hexec : exec (.railLost r) s = execRailLost r s := rfl
  cases r
  case vaon => exact absurd rfl hr
  case vcore =>
    refine ⟨{ s with rails := { s.rails with vcore := false } }, ?_, ⟨rfl, fun q hq => ?_⟩, rfl, hrails _⟩
    · rw [hexec]; simp [execRailLost, hrun]
    · cases q <;> simp_all [railOf]
  case vser =>
    refine ⟨{ s with rails := { s.rails with vser := false } }, ?_, ⟨rfl, fun q hq => ?_⟩, rfl, hrails _⟩
    · rw [hexec]; simp [execRailLost, hrun]
    · cases q <;> simp_all [railOf]
  case vserh =>
    refine ⟨{ s with rails := { s.rails with vserh := false } }, ?_, ⟨rfl, fun q hq => ?_⟩, rfl, hrails _⟩
    · rw [hexec]; simp [execRailLost, hrun]
    · cases q <;> simp_all [railOf]
  case vstore =>
    refine ⟨storeLost (s.keepCodes (· != 1)), ?_, ⟨rfl, fun q hq => ?_⟩, rfl, only_trans (only_mono (by simp [lostParts]) (keepCodes_only (· != 1))) ?_⟩
    · rw [hexec]; simp only [execRailLost, hrun, Bool.and_false, if_false, Bool.false_eq_true]; rfl
    · cases q <;> simp_all [railOf, storeLost, State.keepCodes]
    · intro p hp
      cases p
      case rails | marl | start => simp [lostParts] at hp
      all_goals rfl
  case vdram =>
    refine ⟨_, execRailLost_vdram hrun, ?_⟩
    split
    · refine ⟨⟨rfl, fun q hq => ?_⟩, rfl, only_trans (hrails _) (only_mono (by simp [lostParts]) dramGone_only)⟩
      cases q <;> simp_all [railOf, dramGone, State.keepCodes]
    · next hoff => exact ⟨⟨Bool.eq_false_of_not_eq_true hoff, fun _ _ => rfl⟩, rfl, only_refl _ _⟩
  case vpp =>
    refine ⟨_, execRailLost_vpp hrun, ?_⟩
    split
    · refine ⟨⟨rfl, fun q hq => ?_⟩, rfl, only_trans (hrails _) (only_mono (by simp [lostParts]) dramGone_only)⟩
      cases q <;> simp_all [railOf, dramGone, State.keepCodes]
    · next hoff => exact ⟨⟨Bool.eq_false_of_not_eq_true hoff, fun _ _ => rfl⟩, rfl, only_refl _ _⟩
  case vfuse =>
    obtain ⟨-, -, -, honly, hframe⟩ := closeWindow_abort (s := { s with rails := { s.rails with vfuse := false } })
    refine ⟨_, hexec, ⟨?_, fun q hq => ?_⟩, ?_, ?_⟩
    · exact congrArg Rails.vfuse (honly .rails (by decide))
    · refine (congrArg (railOf q) (honly .rails (by decide))).trans ?_
      cases q <;> simp_all [railOf]
    · exact (Frame.fld (f := GLB_START_STATUS_PHASE) hframe (by simp [recReg, GLB_START_STATUS_PHASE, OTP_STATUS, REC_FOLDS])).trans (fld_congr rfl _)
    · exact only_trans (hrails _) (only_mono (by simp [lostParts]) honly)

/-! ## The start by the last rail (R62) -/

theorem tryStart_runs (hp : s.phase = 0) (hg : s.powerGood = true) (hn : s.pins.perstN = true) (hh : s.vaonHold = false) : s.tryStart = s.enterP1 :=
  if_pos (by simp [hp, hg, hn, hh])

/-- With every rail but VFUSE good, power is good. -/
theorem powerGood_of_rails (hv : s.rails.vaon = true) (hall : ∀ q, q ≠ .vfuse → railOf q s.rails = true) : s.powerGood = true := by
  have h := fun q hq => hall q hq
  have hcore : s.rails.vcore = true := h .vcore (by decide)
  have hstore : s.rails.vstore = true := h .vstore (by decide)
  have hdram : s.rails.vdram = true := h .vdram (by decide)
  have hpp : s.rails.vpp = true := h .vpp (by decide)
  have hser : s.rails.vser = true := h .vser (by decide)
  have hserh : s.rails.vserh = true := h .vserh (by decide)
  simp [State.powerGood, State.railsGood, hv, hcore, hstore, hdram, hpp, hser, hserh]

/-- A state whose rail has become good. -/
def railedUp (r : RailId) (s : State) : State := goodNoted s.powerGood { railGone r s with rails := withRail r s.rails }

theorem railedUp_only : only [.rails, .start, .marl, .chan] s (railedUp r s) :=
  only_trans (only_mono (by simp) railGone_only) (only_trans (only_mono (by simp) (only_rails _)) (only_mono (by simp) (goodNoted_only _)))

theorem railedUp_rails : (railedUp r s).rails = withRail r s.rails := goodNoted_only _ .rails (by decide)

theorem railedUp_hold : (railedUp r s).vaonHold = s.vaonHold := by
  rw [railedUp, goodNoted_hold]
  exact railGone_hold

theorem live_reset (hp : s.pins.perstN = false) (hd : s.start.diagHold = false) : s.live = false := by simp [State.live, State.dead, hp, hd]

theorem live_p0 (hp : s.phase = 0) : s.live = false := by simp [State.live, hp]

/-- Settles O9, from what a power-on reset, a warm reset and the loss of a rail keep and empty. -/
theorem railCommands : Obligations.RailCommands := by
  unfold Obligations.RailCommands
  refine ⟨fun straps boot tmode s hp hrun => ⟨_, congrArg Host.Outcome.next (powerOn_held straps boot tmode hp hrun), ?_⟩, fun s => ⟨fun hv => ?_, fun hv => ?_⟩,
    fun r s hp hd hr => ?_, fun r s hp hn hv hh hr hr' hall => ?_, fun r s hp hr hlost => ?_, fun s hv hrun => ⟨s.vaonLost, ?_, ?_⟩,
    fun s hv hc hp hh hrun => ⟨_, execRailLost_vcore hv hc hp hh, ?_⟩, fun s hv hs hp => ⟨_, execRailLost_vstore hv hs hp, ?_⟩, fun s => ⟨_, rfl, ?_⟩⟩
  · obtain ⟨hrun', hrows, hsett, hpending, hrails, hperst, hbyp⟩ := unpowered_kept hrun
    have hreset := powerReset hrun'
    generalize (unpowered s).baseReset .por = t at hreset
    have hstrap := strapped_only (t := t) straps boot tmode
    have hpower := powered_only (t := strapped t straps boot tmode) straps
    obtain ⟨hdid, hsdid⟩ := powered_did (t := strapped t straps boot tmode) straps
    obtain ⟨hgrave, hslow, hdiag⟩ := powered_holds (t := strapped t straps boot tmode) straps
    have hstart : (strapped t straps boot tmode).start = t.start := rfl
    have hother : only [.rails, .pins, .start, .regs] t (powered (strapped t straps boot tmode) straps) := only_trans (only_mono (by simp) hstrap) (only_mono (by simp) hpower)
    have hregs : regsBut [GLB_DID.off] t (powered (strapped t straps boot tmode) straps) :=
      regsBut_trans (t := strapped t straps boot tmode) (regsBut_of_regs rfl) (regsBut_trans (regsBut_sets (by simp [GLB_DID_STRAP_DID, GLB_DID_DID, GLB_DID])) (regsBut_of_regs (powered_regs straps)))
    have hr : (powered (strapped t straps boot tmode) straps).rails = (strapped t straps boot tmode).rails := hpower .rails (by decide)
    have hpins : (powered (strapped t straps boot tmode) straps).pins = (strapped t straps boot tmode).pins := hpower .pins (by decide)
    generalize powered (strapped t straps boot tmode) straps = u at hpower hdid hsdid hgrave hslow hdiag hother hregs hr hpins ⊢
    refine ⟨hr.trans ?_, hpins.trans ?_, fun o ho => (hregs o (by simp [ho])).trans (hreset.regs o), hdid, hsdid, ?_, (hother .sett (by decide)).trans (hreset.sett.trans hsett),
      hgrave.trans (hstart ▸ hreset.grave), hslow.trans (hstart ▸ hreset.slowHold), hdiag.trans (hstart ▸ hreset.diagHold), (hother .flt (by decide)).trans hreset.flt,
      (hother .sw (by decide)).trans hreset.sw, (hother .txns (by decide)).trans hreset.txns, (hother .rings (by decide)).trans hreset.rings, (hother .fox (by decide)).trans hreset.fox,
      (hother .links (by decide)).trans hreset.links, (hother .lanes (by decide)).trans hreset.lanes, (hother .pending (by decide)).trans (hreset.pending.trans hpending)⟩
    · simp only [strapped, hreset.rails, hrails]
    · simp only [strapped, hreset.pins, hperst, hbyp, hp]
    · exact (congrArg FuseSt.rows (show u.fuse = t.fuse from hother .fuse (by decide))).trans (hreset.rows.trans hrows)
  · show execRailGood .vaon s = _
    simp [execRailGood, hv]
  · show execRailGood .vaon s = execVaonGood _ _ _ s
    simp [execRailGood, execVaonGood, hv]
  · refine ⟨_, execRailGood_up hr fun x => live_reset hp hd, ?_⟩
    have honly : only [.rails, .start, .marl, .chan] s (railedUp r s) := railedUp_only
    have hheld : (railedUp r s).tryStart = railedUp r s := tryStart_held ((congrArg Pins.perstN (honly .pins (by decide))).trans hp)
    show railOf r ((railedUp r s).tryStart).rails = true ∧ _
    rw [← railedUp, hheld, railedUp_rails]
    exact ⟨railOf_withRail hr _, fun q hq => railOf_withRail_ne hq _, railOf_withRail_ne (q := .vaon) hr.symm _, honly⟩
  · refine ⟨_, execRailGood_up hr fun x => live_p0 hp, ?_⟩
    have honly : only [.rails, .start, .marl, .chan] s (railedUp r s) := railedUp_only
    have hup : (railedUp r s).rails = withRail r s.rails := railedUp_rails
    have hgood : (railedUp r s).powerGood = true := by
      refine powerGood_of_rails ?_ fun q hq => ?_
      · rw [hup]; exact (railOf_withRail_ne (q := .vaon) hr.symm _).trans hv
      · rw [hup]
        by_cases hqr : q = r
        · rw [hqr, railOf_withRail hr]
        · rw [railOf_withRail_ne hqr, hall q hqr hq]
    have hruns : (railedUp r s).tryStart = (railedUp r s).enterP1 :=
      tryStart_runs ((fld_congr (honly .regs (by decide)) _).trans hp) hgood ((congrArg Pins.perstN (honly .pins (by decide))).trans hn) (railedUp_hold.trans hh)
    rw [← railedUp, hruns]
    have hpins : (railedUp r s).pins = s.pins := honly .pins (by decide)
    have hfuse : (railedUp r s).fuse = s.fuse := honly .fuse (by decide)
    refine ⟨?_, enterP1_phase, (congrArg StartSt.p1At enterP1_start).trans (honly .now (by decide)), (congrArg StartSt.boot enterP1_start).trans (congrArg Pins.bootMode hpins),
      (enterP1_only .pins (by decide)).trans hpins, fun hrows => (enterP1_rows (by rw [hfuse]; exact hrows)).trans (congrArg FuseSt.rows hfuse)⟩
    rw [show (railedUp r s).enterP1.rails = (railedUp r s).rails from enterP1_only .rails (by decide), hup, railOf_withRail hr]
  · have hrun : s.railCounts = false := by simp [State.railCounts, hp, hlost]
    obtain ⟨t, hexec, hone, hphase, honly⟩ := execRailLost_marks hr hrun
    exact ⟨t, hexec, hone.level, hone.others, hone.vaon hr, hphase.trans hp, honly⟩
  · show execRailLost .vaon s = _
    simp [execRailLost, hv]
  · have hreset := powerReset hrun
    rw [vaonLost_eq]
    generalize s.baseReset .por = t at hreset
    have hmarked := vaonMarked_only (t := t) (s.start.railLost || s.phase != 0)
    refine ⟨?_, fun o => (reg_congr (hmarked .regs (by decide)) o).trans (hreset.regs o), rfl, hreset.grave, hreset.rows, hreset.sett, hreset.sw, hreset.txns, hreset.pending⟩
    simp [vaonMarked, hreset.rails]
  · obtain ⟨hrails, hrail, hfuse, hsett, hpins, hsw, htxns, hpending⟩ := coreReset_keeps (s := coreLost s) hrun
    obtain ⟨hvcore, hpor, hwarm, hlast⟩ := coreReset_causes (s := coreLost s)
    exact ⟨hrails, coreReset_phase, hvcore, hpor, hwarm, hlast, hrail.trans (by simp [coreLost, hh]), hfuse, hsett, hpins, hsw, htxns, hpending⟩
  · obtain ⟨hrails, hgrave, hfrozen, hmarl⟩ := storeLost_grave (s := storeLost (s.keepCodes (· != 1))) rfl
    exact ⟨hrails, hgrave, hfrozen, by rw [hmarl]; rfl, by rw [hmarl]; rfl⟩
  · obtain ⟨hshut, habort, hregs, honly, -⟩ := closeWindow_abort (s := { s with rails := { s.rails with vfuse := false } })
    exact ⟨honly .rails (by decide), hshut, habort, hregs, only_trans (only_mono (by simp) (only_rails _)) (only_mono (by simp) honly)⟩

end Sys2Proof.Proofs
end

section
/-! SUPPORT. The link layer receives (R137, R143, R145): what a flit, a NAK and a retrain leave of the receiver's state and of its counters. -/

namespace Sys2Proof.Proofs

set_option Elab.async false

open Sys2Proof.Machine Sys2Proof.Laws

variable {s t u : State} {p m n : Nat} {k k' : List Part}

/-! ## The receiver's state of every link -/

/-- The receiver of a link stands where it did. -/
def Received (x y : Link) : Prop :=
  y.rxExp = x.rxExp ∧ y.retryWait = x.retryWait ∧ y.acceptedAny = x.acceptedAny ∧ y.nakId = x.nakId ∧ y.nakOwed = x.nakOwed

theorem Received.refl (x : Link) : Received x x := ⟨rfl, rfl, rfl, rfl, rfl⟩

theorem Received.trans {x y z : Link} (h : Received x y) (h' : Received y z) : Received x z := by
  obtain ⟨h1, h2, h3, h4, h5⟩ := h
  obtain ⟨i1, i2, i3, i4, i5⟩ := h'
  exact ⟨i1.trans h1, i2.trans h2, i3.trans h3, i4.trans h4, i5.trans h5⟩

/-- Any register but the counters of a port's link layer. -/
def asideReg (o : Nat) : Prop := o < 0x10000 ∨ 0x20000 ≤ o ∨ o % 0x800 < 0x240

/-- A change that leaves every receiver and the counters of the link layers as they are. -/
structure Aside (k : List Part) (s t : State) : Prop where
  frame : Frame k asideReg s t
  kept : ∀ i, Received (mgetD s.links i {}) (mgetD t.links i {})

theorem Aside.refl (k : List Part) (s : State) : Aside k s s := ⟨.refl _ _ _, fun _ => .refl _⟩

theorem Aside.trans (h : Aside k s t) (h' : Aside k t u) : Aside k s u := ⟨h.frame.trans h'.frame, fun i => (h.kept i).trans (h'.kept i)⟩

theorem Aside.mono (hk : k ⊆ k') (h : Aside k s t) : Aside k' s t := ⟨h.frame.mono hk fun _ ho => ho, h.kept⟩

theorem Aside.of_links (hframe : Frame k asideReg s t) (h : t.links = s.links) : Aside k s t := ⟨hframe, fun i => by rw [h]; exact .refl _⟩

theorem Aside.set {f : Fld} {v : Nat} (hk : Part.regs ∈ k) (h : asideReg f.off) : Aside k s (s.set f v) := .of_links (.set hk h) rfl

theorem Aside.inc {f : Fld} (hk : Part.regs ∈ k) (h : asideReg f.off) : Aside k s (s.inc f) := .set hk h

theorem Aside.setLane (hk : Part.lanes ∈ k) (x : Lane) : Aside k s (s.setLane n x) :=
  .of_links (.of_only (only_setLane n x) (by simpa using hk) (by simp)) rfl

theorem Aside.sw (hk : Part.sw ∈ k) (x : SwitchSt) : Aside k s { s with sw := x } := .of_links (.of_only (only_sw x) (by simpa using hk) (by simp)) rfl

theorem Aside.setLink {x : Link} (hk : Part.links ∈ k) (h : Received (s.link p m) x) : Aside k s (s.setLink p m x) := by
  refine ⟨.of_only (only_setLink p m x) (by simpa using hk) (by simp), fun i => ?_⟩
  show Received _ (mgetD (mput (p * 8 + m) x s.links) i {})
  by_cases hi : i = p * 8 + m
  · rw [hi, mgetD_mput_same]; exact h
  · rw [mgetD_mput_ne hi]; exact .refl _

theorem Aside.ite {c : Prop} [Decidable c] (ht : Aside k s t) (hu : Aside k s u) : Aside k s (if c then t else u) := by
  split
  · exact ht
  · exact hu

theorem Aside.when {b : Bool} {f : State → State} (h : Aside k s (f s)) : Aside k s (s.when b f) := by
  cases b
  · exact .refl _ _
  · exact h

theorem Aside.each {α : Type} {xs : List α} {f : State → α → State} (h : ∀ x a, Aside k x (f x a)) : Aside k s (s.each xs f) :=
  each_keeps (P := Aside k s) (.refl _ _) fun x a hx => hx.trans (h x a)

theorem Aside.of_sends (hk : [Part.sw, Part.regs] ⊆ k) (h : Sends s t) : Aside k s t := by
  refine .of_links (h.mono hk fun o ho => .inl ?_) (h.parts .links (by decide))
  rcases ho with rfl | rfl | rfl | rfl | rfl | rfl <;> decide

theorem Aside.link (h : Aside k s t) (p m : Nat) : Received (s.link p m) (t.link p m) := h.kept (p * 8 + m)

/-- A counter of a port's link layer. -/
theorem not_asideReg {o : Nat} (hp : p < 32) (h : 0x240 ≤ o) (h' : o < 0x800) : ¬ asideReg (0x10000 + 0x800 * p + o) := by
  unfold asideReg
  omega

/-- A field of a counter of a port's link layer is kept aside. -/
theorem Aside.counter {f : Fld} {o : Nat} (h : Aside k s t) (hp : p < 32) (hf : f.off = 0x10000 + 0x800 * p + o) (ho : 0x240 ≤ o) (ho' : o < 0x800) : t.fld f = s.fld f :=
  h.frame.fld (by rw [hf]; exact not_asideReg hp ho ho')

theorem aside_pair (hp : p < 32) (h : Aside k s t) : t.pair (PORT_FLITS_RX_LO p) = s.pair (PORT_FLITS_RX_LO p) := by
  have hlo : (PORT_FLITS_RX_LO p).off = 0x10000 + 0x800 * p + 0x248 := by simp only [PORT_FLITS_RX_LO]; omega
  have hhi : (PORT_FLITS_RX_LO p).off + 4 = 0x10000 + 0x800 * p + 0x24C := by omega
  rw [State.pair, State.pair, hhi, hlo, h.frame.reg _ (not_asideReg hp (by decide) (by decide)), h.frame.reg _ (not_asideReg hp (by decide) (by decide))]

/-! ## Lanes, retrains and lane failures (R125) -/

theorem aside_lane {o : Nat} (h : 0x20000 ≤ o) : asideReg o := .inr (.inl h)

theorem aside_sendBlocks (hk : Part.lanes ∈ k) : Aside k s (s.sendBlocks p m) := .each fun _ _ => .setLane hk _

/-- A retrain keeps the receiver's state (R144). -/
theorem aside_retrain (hm : m < 8) : Aside [.links, .lanes, .regs] s (s.retrain p m) := by
  unfold State.retrain
  refine .ite ?_ (.refl _ _)
  refine Aside.trans ?_ (aside_sendBlocks (by simp))
  refine Aside.trans ?_ (.set (by simp) (.inr (.inr ?_)))
  · refine Aside.trans ?_ (.inc (by simp) (.inr (.inr ?_)))
    · refine Aside.trans (Aside.each fun x l => ?_) (.setLink (by simp) ⟨rfl, rfl, rfl, rfl, rfl⟩)
      exact (Aside.set (by simp) (aside_lane (by simp only [LANE_EYE_STALE]; omega))).trans (.setLane (by simp) _)
    · simp only [PORT_RETRAINS]; omega
  · simp only [PORT_LINK_STATUS_STATE]; omega

theorem aside_dropLane (l : Nat) : Aside [.links, .lanes, .regs] s (s.dropLane p m l) := by
  unfold State.dropLane
  extract_lets x lg t
  have ht : Aside [.links, .lanes, .regs] s t := .setLink (by simp) ⟨rfl, rfl, rfl, rfl, rfl⟩
  exact ht.trans ((Aside.set (by simp) (aside_lane (by simp only [LANE_STATUS_MARKER_LOCK]; omega))).trans (.setLane (by simp) _))

theorem linkIx_lt (l w : Nat) : l % 8 / w < 8 := lt_of_le_of_lt (Nat.div_le_self _ _) (Nat.mod_lt _ (by decide))

theorem aside_laneFail (l : Nat) : Aside [.links, .lanes, .regs] s (s.laneFail l) :=
  .ite ((aside_dropLane l).trans (aside_retrain (linkIx_lt _ _))) (.refl _ _)

/-- The lanes on which too many bytes in a row were corrected fail. -/
def fecFails (s : State) (p m : Nat) : State := s.each (s.activeLanes p m) fun v x => if 64 < (v.lane x).fecRun then v.laneFail x else v

theorem aside_fecFails : Aside [.links, .lanes, .regs] s (fecFails s p m) := .each fun _ x => .ite (aside_laneFail x) (.refl _ _)

/-! ## Reading a flit (R112, R113) -/

/-- Steps over a list that touch lanes alone. -/
theorem foldl_lanes {α β : Type} {f : State × β → α → State × β} (hf : ∀ a x, only [.lanes] a.1 (f a x).1) (xs : List α) (a : State × β) :
    only [.lanes] a.1 (xs.foldl f a).1 := by
  induction xs generalizing a with
  | nil => exact only_refl _ _
  | cons x xs ih => exact only_trans (hf a x) (ih (f a x))

theorem readFlit_frame (wire : List (BitVec 8)) : Frame [.lanes, .regs] (0x20000 ≤ ·) s (s.readFlit p m wire).1 := by
  unfold State.readFlit
  extract_lets ls w step r
  have hread : Frame [.lanes, .regs] (0x20000 ≤ ·) s r.1 := by
    refine .of_only (k := [.lanes]) (foldl_lanes (fun a x => ?_) _ (s, [])) (by simp) (by simp)
    show only [.lanes] a.1 (step a x).1
    unfold step
    dsimp only
    split
    · exact only_refl _ _
    · exact only_setLane _ _
  split
  · exact hread
  · split
    · exact hread
    · refine hread.trans (.each fun x e _ => ?_)
      split
      · exact .refl _ _ _
      · refine Frame.trans (.inc (by simp) ?_) (.of_only (only_setLane _ _) (by simp) (by simp))
        simp only [LANE_FEC_CORR]
        omega

/-! ## NAKs (R143) -/

/-- The receiver waits for a retry. -/
def nakRaised (s : State) (p m : Nat) : State :=
  (s.inc (PORT_NAK_TX p)).setLink p m { s.link p m with retryWait := true, nakId := (s.link p m).nakId + 1, nakRun := (s.link p m).nakRun + 1, nakOwed := true }

theorem raiseNak_eq : s.raiseNak p m =
    if (s.link p m).nakRun + 1 > bitsOf (s.link p m).llCfg.toNat 27 24 then ((nakRaised s p m).inc (PORT_LL_RETRAIN_REQ p)).retrain p m else nakRaised s p m := rfl

theorem link_setLink_same (x : Link) : (s.setLink p m x).link p m = x := mgetD_mput_same _ _ _ _

theorem link_congr (h : t.links = s.links) (p m : Nat) : t.link p m = s.link p m := by rw [State.link, State.link, h]

/-- What raising a NAK does to the receiver of its link, and to the counters of the port. -/
structure NakRaised (p m : Nat) (s t : State) : Prop where
  rxExp : (t.link p m).rxExp = (s.link p m).rxExp
  retryWait : (t.link p m).retryWait = true
  nakId : (t.link p m).nakId = (s.link p m).nakId + 1
  nakOwed : (t.link p m).nakOwed = true
  counted : t.fld (PORT_NAK_TX p) = (s.fld (PORT_NAK_TX p) + 1) % 2 ^ 32
  regs : ∀ o, o ≠ (PORT_NAK_TX p).off → o ≠ (PORT_LL_RETRAIN_REQ p).off → ¬ asideReg o → t.reg o = s.reg o
  parts : only [.links, .lanes, .regs] s t

theorem NakRaised.aside (h : NakRaised p m s t) (hp : p < 32) (h' : Aside [.links, .lanes, .regs] t u) : NakRaised p m s u := by
  obtain ⟨hexp, hwait, -, hid, howed⟩ := h'.link p m
  refine ⟨hexp.trans h.rxExp, hwait.trans h.retryWait, hid.trans h.nakId, howed.trans h.nakOwed, (h'.frame.fld ?_).trans h.counted,
    fun o ho ho' ha => (h'.frame.reg o ha).trans (h.regs o ho ho' ha), only_trans h.parts h'.frame.parts⟩
  have := not_asideReg (o := 0x254) hp (by decide) (by decide)
  simp only [PORT_NAK_TX]
  convert this using 2
  omega

/-- The other counters of the port's link layer are as before. -/
theorem NakRaised.counter {f : Fld} {o : Nat} (h : NakRaised p m s t) (hp : p < 32) (hf : f.off = 0x10000 + 0x800 * p + o)
    (ho : 0x240 ≤ o ∧ o < 0x800 ∧ o ≠ 0x254 ∧ o ≠ 0x268) : t.fld f = s.fld f := by
  obtain ⟨hlow, hhigh, hnak, hreq⟩ := ho
  rw [State.fld, State.fld, hf, h.regs _ (by simp only [PORT_NAK_TX]; omega) (by simp only [PORT_LL_RETRAIN_REQ]; omega) (not_asideReg hp hlow hhigh)]

theorem fld_inc_word {f : Fld} (h : f.lo = 0) (h' : f.hi = 31) : (s.inc f).fld f = (s.fld f + 1) % 2 ^ 32 := by
  have := fld_set_same (s := s) (f := f) (by omega) (by omega) (s.fld f + 1)
  rw [h, h'] at this
  exact this

theorem nakRaised_regs : (nakRaised s p m).regs = (s.inc (PORT_NAK_TX p)).regs := setLink_regs _ _ _ _

theorem nakRaised_raised : NakRaised p m s (nakRaised s p m) := by
  have hlink : (nakRaised s p m).link p m = _ := link_setLink_same _
  refine ⟨by rw [hlink], by rw [hlink], by rw [hlink], by rw [hlink], (fld_congr nakRaised_regs _).trans (fld_inc_word rfl rfl),
    fun o ho _ _ => (reg_congr nakRaised_regs o).trans (reg_inc_ne ho), ?_⟩
  exact only_trans (only_mono (by simp) only_inc) (only_mono (by simp) (only_setLink _ _ _))

theorem raiseNak_raised (hp : p < 32) (hm : m < 8) : NakRaised p m s (s.raiseNak p m) := by
  rw [raiseNak_eq]
  split
  · refine NakRaised.aside (t := (nakRaised s p m).inc (PORT_LL_RETRAIN_REQ p)) ?_ hp (aside_retrain hm)
    have hraised : NakRaised p m s (nakRaised s p m) := nakRaised_raised
    have hlink : ((nakRaised s p m).inc (PORT_LL_RETRAIN_REQ p)).link p m = (nakRaised s p m).link p m := link_congr (only_inc .links (by decide)) p m
    refine ⟨by rw [hlink, hraised.rxExp], by rw [hlink, hraised.retryWait], by rw [hlink, hraised.nakId], by rw [hlink, hraised.nakOwed],
      (fld_inc_ne (by simp [PORT_NAK_TX, PORT_LL_RETRAIN_REQ])).trans hraised.counted, fun o ho ho' ha => (reg_inc_ne ho').trans (hraised.regs o ho ho' ha),
      only_trans hraised.parts (only_mono (by simp) only_inc)⟩
  · exact nakRaised_raised

/-! ## A packet arrives (R148, R216) -/

/-- What the arrival of a packet may change. -/
def arriveParts : List Part := [.links, .lanes, .sw, .pwr, .regs]

theorem aside_freeIn (i : InPkt) : Aside arriveParts s (s.freeIn i) :=
  .ite (.setLink (by simp [arriveParts]) ⟨rfl, rfl, rfl, rfl, rfl⟩) (.refl _ _)

theorem aside_takeIn (n : Nat) : Aside arriveParts s (s.takeIn n) := by
  unfold State.takeIn
  split
  · exact .refl _ _
  · exact (Aside.trans (.sw (by simp [arriveParts]) _) (aside_freeIn _)).trans (.when (.sw (by simp [arriveParts]) _))

theorem aside_addOut (x : OutPkt) : Aside arriveParts s (s.addOut x) := .of_sends (by simp [arriveParts]) (sends_addOut x)

theorem aside_failPacket (x : Packet) (st : BitVec 8) {c : Fld} (hc : packetReg c.off) : Aside arriveParts s (s.failPacket x st c) :=
  .of_sends (by simp [arriveParts]) (sends_failPacket x st hc)

theorem aside_backPressure (vc : Nat) : Aside arriveParts s (s.backPressure p vc) :=
  .ite (.refl _ _) ((Aside.inc (by simp [arriveParts]) (aside_lane (by decide))).trans (.sw (by simp [arriveParts]) _))

theorem aside_transit : Aside arriveParts s (s.incPair RT_TRANSIT_LO 1) := by
  refine .of_links ?_ rfl
  exact (Frame.setReg (by simp [arriveParts]) (.inl (by decide))).trans (.setReg (by simp [arriveParts]) (.inl (by decide)))

theorem aside_go (i : InPkt) (q : OutPkt) (n : Nat) :
    Aside arriveParts s (if i.port = ownPort then (s.takeIn n).addOut q else ((s.takeIn n).addOut q).incPair RT_TRANSIT_LO 1) :=
  .ite ((aside_takeIn n).trans (aside_addOut q)) (((aside_takeIn n).trans (aside_addOut q)).trans aside_transit)

theorem aside_tryMove (n : Nat) : Aside arriveParts s (s.tryMove n) := by
  unfold State.tryMove
  split
  · exact .refl _ _
  next i _ =>
    extract_lets stay go
    have hstay : Aside arriveParts s stay := .ite (aside_backPressure _) (.refl _ _)
    have hgo : ∀ port q w en, Aside arriveParts s (go port q w en) := fun port q w en => .ite hstay (aside_go i _ n)
    have hr := route_counted (s := s) i.pkt i.arrival
    split
    · exact (aside_takeIn n).trans (.inc (by simp [arriveParts]) (aside_lane (by decide)))
    · split
      · exact .ite (.refl _ _) ((aside_takeIn n).trans (.inc (by simp [arriveParts]) (.inl (by decide))))
      next st c hroute =>
        rw [hroute] at hr
        exact (aside_takeIn n).trans (aside_failPacket _ _ hr)
      · exact hgo _ _ _ _
      · exact .ite ((aside_takeIn n).trans (aside_failPacket _ _ packetReg_waitExpired)) (hgo _ _ _ _)

theorem aside_activity : Aside arriveParts s s.activity := by
  unfold State.activity
  have hset : ∀ (x : State) (v : Nat), Aside arriveParts x (x.set GLB_PWR_STATUS_STATE v) := fun x v => .set (by simp [arriveParts]) (.inl (by decide))
  have hpwr : ∀ (x : State) (y : PwrSt), Aside arriveParts x { x with pwr := y } := fun x y => .of_links (.of_only (only_pwr y) (by simp [arriveParts]) (by simp)) rfl
  refine Aside.trans (t := if s.sleep = 1 then s.set GLB_PWR_STATUS_STATE 0 else s) (.ite (hset _ _) (.refl _ _)) ?_
  exact .ite ((hpwr _ _).trans (.set (by simp [arriveParts]) (.inl (by decide)))) (.refl _ _)

/-- The room that a packet took is returned as credit. -/
theorem aside_return (vc v : Nat) : Aside arriveParts s (s.setLink p m { s.link p m with ownRet := (s.link p m).ownRet.set vc v }) :=
  .setLink (by simp [arriveParts]) ⟨rfl, rfl, rfl, rfl, rfl⟩

theorem aside_arrive (x : Packet) : Aside arriveParts s (s.arrive p m x) := by
  unfold State.arrive
  extract_lets vc n l ret host bare h q u0 rsp hdr v0 v1 v2
  have hret : ∀ {y : State}, Aside arriveParts s y → Aside arriveParts s (ret y) := fun hy => hy.trans (aside_return _ _)
  have hlow : ∀ f : Fld, f.off < 0x10000 → Aside arriveParts s (s.inc f) := fun f hf => .inc (by simp [arriveParts]) (.inl hf)
  refine .ite (.inc (by simp [arriveParts]) (.inr (.inr ?_))) (.ite (hret (hlow RT_NOT_ADMITTED (by decide))) (.ite (hret (hlow GLB_CNT_VIOL_MALFORMED (by decide))) (.ite ?_ ?_)))
  · simp only [PORT_CNT_VIOL_CREDIT]
    omega
  · have hu : Aside arriveParts s u0 := hret (hlow RT_CNT_VIOL_ACCESS (by decide))
    exact .ite (hu.trans (aside_addOut _)) hu
  · have hv0 : Aside arriveParts s v0 := .setLink (by simp [arriveParts]) ⟨rfl, rfl, rfl, rfl, rfl⟩
    have hv1 : Aside arriveParts s v1 := hv0.trans (.of_sends (by simp [arriveParts]) (sends_addIn _))
    have hv2 : Aside arriveParts s v2 := .ite hv1 (hv1.trans aside_activity)
    exact hv2.trans (aside_tryMove _)

/-! ## A flit is received (R137, R143) -/

/-- What the receiver does with a flit that it has read. -/
def flitTaken (s : State) (p m : Nat) (f : List (BitVec 8)) : State :=
  if s.crcMatch p m 0x0 (s.link p m).rxExp.toNat f then s.acceptFlit p m (f.take 64)
  else if s.crcMatch p m 0xC 0 f then s.onLcf p m (f.take 64)
  else if (s.link p m).retryWait then s.inc (PORT_RETRY_DISCARD p)
  else (s.inc (PORT_CRC_BAD p)).raiseNak p m

theorem execFlitReceived_reads {port : BitVec 5} {link : BitVec 3} {wire f : List (BitVec 8)} (hinj : s.flt.inject = none)
    (hin : s.lst port.toNat link.toNat = 4 ∨ s.lst port.toNat link.toNat = 5) (hidle : (s.link port.toNat link.toNat).rxIdle = false)
    (hread : s.readFlit port.toNat link.toNat wire = (u, f)) :
    exec (.flitReceived port link wire) s = .next (fecFails (flitTaken u port.toNat link.toNat f) port.toNat link.toNat) := by
  have hu : u.flt.inject = none := by
    have hframe := readFlit_frame (s := s) (p := port.toNat) (m := link.toNat) wire
    rw [hread] at hframe
    rw [show u.flt = s.flt from hframe.parts .flt (by decide), hinj]
  show execFlitReceived port link wire s = _
  unfold execFlitReceived
  extract_lets p m
  rw [if_neg (by simp only [p, m, hidle]; simp [hin])]
  simp only [p, m, hread, injCheck_none hu]
  rfl

/-- The receiver after a flit in sequence, with what the flit's packet brings aside. -/
theorem acceptFlit_accepts (hp : p < 32) (content : List (BitVec 8)) :
    ((s.acceptFlit p m content).link p m).rxExp = (s.link p m).rxExp + 1 ∧ ((s.acceptFlit p m content).link p m).retryWait = false
      ∧ ((s.acceptFlit p m content).link p m).acceptedAny = true
      ∧ (s.acceptFlit p m content).pair (PORT_FLITS_RX_LO p) = (s.pair (PORT_FLITS_RX_LO p) + 1) % 2 ^ 64 := by
  unfold State.acceptFlit
  extract_lets l buf whole t
  have hlink : t.link p m = _ := link_setLink_same _
  have hpair : t.pair (PORT_FLITS_RX_LO p) = (s.pair (PORT_FLITS_RX_LO p) + 1) % 2 ^ 64 := (pair_congr (setLink_regs _ _ _ _) _).trans pair_incPair_same
  have haside : Aside arriveParts t (if whole then t.arrive p m (packetOf buf) else t) := .ite (aside_arrive _) (.refl _ _)
  obtain ⟨hexp, hwait, hany, -, -⟩ := haside.link p m
  rw [hexp, hwait, hany, hlink, ← hpair]
  exact ⟨rfl, rfl, rfl, aside_pair hp haside⟩

/-- A flit that carries neither a packet nor an LCF in sequence: it is discarded while a retry is awaited, and asks for one otherwise. -/
structure FlitBad (p m : Nat) (s t : State) : Prop where
  rxExp : (t.link p m).rxExp = (s.link p m).rxExp
  retryWait : (t.link p m).retryWait = true
  nakId : (t.link p m).nakId = if (s.link p m).retryWait then (s.link p m).nakId else (s.link p m).nakId + 1
  discards : t.fld (PORT_RETRY_DISCARD p) = (s.fld (PORT_RETRY_DISCARD p) + b2n (s.link p m).retryWait) % 2 ^ 32
  crcBad : t.fld (PORT_CRC_BAD p) = (s.fld (PORT_CRC_BAD p) + b2n (!(s.link p m).retryWait)) % 2 ^ 32
  parts : only [.links, .lanes, .regs] s t

theorem fld_word_lt {f : Fld} (h : f.lo = 0) (h' : f.hi = 31) : s.fld f < 2 ^ 32 := by
  have := fld_lt s f
  rw [h, h'] at this
  exact this

theorem flitTaken_bad (hp : p < 32) (hm : m < 8) {f : List (BitVec 8)} (hcrc : s.crcMatch p m 0x0 (s.link p m).rxExp.toNat f = false) (hlcf : s.crcMatch p m 0xC 0 f = false) :
    FlitBad p m s (flitTaken s p m f) := by
  rw [flitTaken, if_neg (by simp [hcrc]), if_neg (by simp [hlcf])]
  have hdiscard : s.fld (PORT_RETRY_DISCARD p) < 2 ^ 32 := fld_word_lt rfl rfl
  have hbad : s.fld (PORT_CRC_BAD p) < 2 ^ 32 := fld_word_lt rfl rfl
  by_cases hw : (s.link p m).retryWait = true
  · rw [if_pos hw]
    have hlink : (s.inc (PORT_RETRY_DISCARD p)).link p m = s.link p m := link_congr (only_inc .links (by decide)) p m
    refine ⟨by rw [hlink], by rw [hlink, hw], by rw [hlink, if_pos hw], ?_, ?_, only_mono (by simp) only_inc⟩
    · rw [fld_inc_word rfl rfl, hw]; rfl
    · rw [fld_inc_ne (by simp [PORT_CRC_BAD, PORT_RETRY_DISCARD]), hw]
      exact (Nat.mod_eq_of_lt hbad).symm
  · rw [if_neg hw]
    have hfalse : (s.link p m).retryWait = false := Bool.eq_false_of_not_eq_true hw
    have hraised := raiseNak_raised (s := s.inc (PORT_CRC_BAD p)) hp hm
    have hlink : (s.inc (PORT_CRC_BAD p)).link p m = s.link p m := link_congr (only_inc .links (by decide)) p m
    have hd : ((s.inc (PORT_CRC_BAD p)).raiseNak p m).fld (PORT_RETRY_DISCARD p) = (s.inc (PORT_CRC_BAD p)).fld (PORT_RETRY_DISCARD p) :=
      hraised.counter (o := 0x270) hp (by simp only [PORT_RETRY_DISCARD]; omega) (by decide)
    have hc : ((s.inc (PORT_CRC_BAD p)).raiseNak p m).fld (PORT_CRC_BAD p) = (s.inc (PORT_CRC_BAD p)).fld (PORT_CRC_BAD p) :=
      hraised.counter (o := 0x250) hp (by simp only [PORT_CRC_BAD]; omega) (by decide)
    refine ⟨by rw [hraised.rxExp, hlink], hraised.retryWait, by rw [hraised.nakId, hlink, if_neg hw], ?_, ?_, only_trans (only_mono (by simp) only_inc) hraised.parts⟩
    · rw [hd, fld_inc_ne (by simp [PORT_CRC_BAD, PORT_RETRY_DISCARD]), hfalse]
      exact (Nat.mod_eq_of_lt hdiscard).symm
    · rw [hc, fld_inc_word rfl rfl, hfalse]; rfl

theorem FlitBad.aside (h : FlitBad p m s t) (hp : p < 32) (h' : Aside [.links, .lanes, .regs] t u) : FlitBad p m s u := by
  obtain ⟨hexp, hwait, -, hid, -⟩ := h'.link p m
  refine ⟨hexp.trans h.rxExp, hwait.trans h.retryWait, hid.trans h.nakId, ?_, ?_, only_trans h.parts h'.frame.parts⟩
  · exact (h'.counter (o := 0x270) hp (by simp only [PORT_RETRY_DISCARD]; omega) (by decide) (by decide)).trans h.discards
  · exact (h'.counter (o := 0x250) hp (by simp only [PORT_CRC_BAD]; omega) (by decide) (by decide)).trans h.crcBad

/-! ## A retrain is asked for (R145) -/

theorem retrain_state (hin : s.lst p m = 4 ∨ s.lst p m = 5) : (s.retrain p m).lst p m = 7 := by
  unfold State.retrain
  rw [if_pos hin]
  extract_lets a l b
  have hblocks : (b.sendBlocks p m).regs = b.regs := (aside_sendBlocks (s := b) (p := p) (m := m) (k := [.lanes]) (by simp)).frame.parts .regs (by decide)
  exact (fld_congr hblocks _).trans (fld_set_fits (f := PORT_LINK_STATUS_STATE p m) (by simp [PORT_LINK_STATUS_STATE]) (by simp [PORT_LINK_STATUS_STATE]) (by simp [PORT_LINK_STATUS_STATE]))

theorem retrain_counted (hp : p < 32) (hin : s.lst p m = 4 ∨ s.lst p m = 5) : (s.retrain p m).fld (PORT_RETRAINS p) = (s.fld (PORT_RETRAINS p) + 1) % 2 ^ 32 := by
  unfold State.retrain
  rw [if_pos hin]
  extract_lets a l b
  have hblocks : (b.sendBlocks p m).regs = b.regs := (aside_sendBlocks (s := b) (p := p) (m := m) (k := [.lanes]) (by simp)).frame.parts .regs (by decide)
  have ha : Frame [.lanes, .regs] (0x20000 ≤ ·) s a := .each fun x n _ =>
    (Frame.set (by simp) (by simp only [LANE_EYE_STALE]; omega)).trans (.of_only (only_setLane _ _) (by simp) (by simp))
  rw [← ha.fld (f := PORT_RETRAINS p) (by simp only [PORT_RETRAINS]; omega)]
  refine (fld_congr hblocks _).trans ((fld_set_ne _ ?_ _).trans ((fld_inc_word rfl rfl).trans ?_))
  · simp only [PORT_RETRAINS, PORT_LINK_STATUS_STATE]
    omega
  · rw [fld_congr (setLink_regs _ _ _ _)]

/-- Settles O24, from what a flit, a NAK and a retrain leave of the receiver and of its port's counters. -/
theorem linkReception : Obligations.LinkReception := by
  intro port link s
  have hp : port.toNat < 32 := port.isLt
  have hm : link.toNat < 8 := link.isLt
  refine ⟨fun wire f u hinj hin hidle hread => ?_, fun hin hw => ⟨_, if_pos (by simp [hin, hw]), ?_⟩, fun hin hidle => ⟨_, if_pos (by simp [hin, hidle]), ?_⟩⟩
  · have hframe := readFlit_frame (s := s) (p := port.toNat) (m := link.toNat) wire
    rw [hread] at hframe
    have hlink : u.link port.toNat link.toNat = s.link port.toNat link.toNat := link_congr (hframe.parts .links (by decide)) _ _
    have hread' : Aside [.lanes, .regs] s u := .of_links (hframe.mono (by simp) fun _ ho => .inr (.inl ho)) (hframe.parts .links (by decide))
    refine ⟨fun hcrc => ⟨_, execFlitReceived_reads hinj hin hidle hread, ?_⟩, fun hcrc hlcf => ⟨_, execFlitReceived_reads hinj hin hidle hread, ?_⟩⟩
    · rw [flitTaken, hlink, if_pos hcrc]
      obtain ⟨hexp, hwait, hany, hpair⟩ := acceptFlit_accepts (s := u) (m := link.toNat) hp (f.take 64)
      have hfails := aside_fecFails (s := u.acceptFlit port.toNat link.toNat (f.take 64)) (p := port.toNat) (m := link.toNat)
      obtain ⟨hexp', hwait', hany', -, -⟩ := hfails.link port.toNat link.toNat
      exact ⟨by rw [hexp', hexp, hlink], hwait'.trans hwait, hany'.trans hany, (aside_pair hp hfails).trans (by rw [hpair, aside_pair hp hread'])⟩
    · obtain ⟨hexp, hwait, hnak, hdiscard, hbad, honly⟩ := (flitTaken_bad hp hm (by rw [hlink]; exact hcrc) hlcf).aside hp (aside_fecFails (p := port.toNat) (m := link.toNat))
      rw [hlink] at hexp hnak hdiscard hbad
      refine ⟨hexp, hwait, hnak, ?_, ?_, only_trans (only_mono (by simp) hframe.parts) honly⟩
      · rw [hdiscard, hread'.counter (o := 0x270) hp (by simp only [PORT_RETRY_DISCARD]; omega) (by decide) (by decide)]
      · rw [hbad, hread'.counter (o := 0x250) hp (by simp only [PORT_CRC_BAD]; omega) (by decide) (by decide)]
  · have hraised := raiseNak_raised (s := s) hp hm
    exact ⟨hraised.nakId, hraised.nakOwed, hraised.counted, hraised.parts⟩
  · have hreg : ∀ f : Fld, f.off ≠ (PORT_LL_RETRAIN_REQ port.toNat).off → (s.inc (PORT_LL_RETRAIN_REQ port.toNat)).fld f = s.fld f := fun f hf => fld_inc_ne hf
    have hin' : (s.inc (PORT_LL_RETRAIN_REQ port.toNat)).lst port.toNat link.toNat = 4 ∨ (s.inc (PORT_LL_RETRAIN_REQ port.toNat)).lst port.toNat link.toNat = 5 := by
      rw [State.lst, hreg _ (by simp only [PORT_LINK_STATUS_STATE, PORT_LL_RETRAIN_REQ]; omega)]
      exact hin
    have hretrain := aside_retrain (s := s.inc (PORT_LL_RETRAIN_REQ port.toNat)) (p := port.toNat) hm
    refine ⟨retrain_state hin', ?_, ?_, only_trans (only_mono (by simp) only_inc) hretrain.frame.parts⟩
    · rw [hretrain.counter (o := 0x268) hp (by simp only [PORT_LL_RETRAIN_REQ]; omega) (by decide) (by decide), fld_inc_word rfl rfl]
    · rw [retrain_counted hp hin', hreg _ (by simp only [PORT_RETRAINS, PORT_LL_RETRAIN_REQ]; omega)]

end Sys2Proof.Proofs
end

section
/-! SUPPORT. The link layer sends (R137, R139, R143, R144, R147): what a flit slot carries, and what it leaves of the sender's state. -/

namespace Sys2Proof.Proofs

set_option Elab.async false

open Sys2Proof.Machine Sys2Proof.Laws

variable {s t u : State} {p m n : Nat} {port : BitVec 5} {link : BitVec 3}

/-! ## A flit on the wire (R111, R112) -/

theorem putFlit_puts (f : List (BitVec 8)) : only [.links, .lanes] s (s.putFlit p m f) ∧ ∃ w, (s.putFlit p m f).link p m = { s.link p m with lastWire := w } := by
  unfold State.putFlit
  extract_lets ls w step r t
  have hread : only [.lanes] s r.1 := by
    refine foldl_lanes (fun a x => ?_) _ (s, [])
    show only [.lanes] a.1 (step a x).1
    unfold step
    dsimp only
    split
    · exact only_refl _ _
    · exact only_setLane _ _
  have ht : only [.lanes] s t := only_trans hread (only_each fun x i => only_setLane _ _)
  have hwire : ∀ x : Link, x = s.link p m → ({ x with lastWire := r.2 } : Link) = { s.link p m with lastWire := r.2 } := by rintro x rfl; rfl
  exact ⟨only_trans (only_mono (by simp) ht) (only_mono (by simp) (only_setLink _ _ _)), r.2, (link_setLink_same _).trans (hwire _ (link_congr (ht .links (by decide)) _ _))⟩

/-- What the sender of a link is after an LCF. -/
structure LcfSent (p m : Nat) (s t : State) : Prop where
  link : ∃ w, t.link p m = { s.link p m with toldRet := (s.link p m).ownRet, ackOwed := 0, nakOwed := false, lastWire := w }
  parts : only [.links, .lanes] s t

theorem sendLcf_sent : LcfSent p m s (s.sendLcf p m) := by
  unfold State.sendLcf
  extract_lets l t
  obtain ⟨honly, w, hlink⟩ := putFlit_puts (s := t) (p := p) (m := m) (flitBytes (crcPrefix 0 0xC l.txDid.toNat m p) (lcfContent l) (s.fld (PORT_LINK_CFG_RATE p) == 2))
  exact ⟨⟨w, hlink.trans (by rw [show t.link p m = _ from link_setLink_same _])⟩, only_trans (only_mono (by simp) (only_setLink _ _ _)) honly⟩

/-- What a packet flit on the wire does to its link and the port's count of flits sent. -/
structure FlitSent (p m : Nat) (s t : State) : Prop where
  link : ∃ w, t.link p m = { s.link p m with lastWire := w }
  counted : t.pair (PORT_FLITS_TX_LO p) = (s.pair (PORT_FLITS_TX_LO p) + 1) % 2 ^ 64
  parts : only [.links, .lanes, .regs] s t

theorem sendPacketFlit_sent (seq : BitVec 12) (content : List (BitVec 8)) : FlitSent p m s (s.sendPacketFlit p m seq content) := by
  unfold State.sendPacketFlit
  extract_lets l
  obtain ⟨honly, w, hlink⟩ := putFlit_puts (s := s.incPair (PORT_FLITS_TX_LO p) 1) (p := p) (m := m)
    (flitBytes (crcPrefix seq.toNat 0x0 l.txDid.toNat m p) content (s.fld (PORT_LINK_CFG_RATE p) == 2))
  refine ⟨⟨w, hlink.trans (by rw [link_congr (only_incPair .links (by decide))])⟩, (pair_congr (honly .regs (by decide)) _).trans pair_incPair_same, ?_⟩
  exact only_trans (only_mono (by simp) only_incPair) (only_mono (by simp) honly)

/-- The link whose packet in hand gives its next flit. -/
def nextGiven (x : Link) (c : List (BitVec 8)) (rest : List (List (BitVec 8))) : Link :=
  { x with sending := rest, txNext := x.txNext + 1, kept := x.kept ++ [{ seq := x.txNext, content := c }] }

theorem sendNext_eq {c : List (BitVec 8)} {rest : List (List (BitVec 8))} (h : (s.link p m).sending = c :: rest) :
    s.sendNext p m = (s.setLink p m (nextGiven (s.link p m) c rest)).sendPacketFlit p m (s.link p m).txNext c := by
  unfold State.sendNext
  simp only [h]
  rfl

/-- The next flit of the packet in hand goes out and into the retry buffer (R141). -/
theorem sendNext_sends {c : List (BitVec 8)} {rest : List (List (BitVec 8))} (h : (s.link p m).sending = c :: rest) :
    ((s.sendNext p m).link p m).sending = rest ∧ ((s.sendNext p m).link p m).txNext = (s.link p m).txNext + 1
      ∧ ((s.sendNext p m).link p m).kept = (s.link p m).kept ++ [{ seq := (s.link p m).txNext, content := c }]
      ∧ (s.sendNext p m).pair (PORT_FLITS_TX_LO p) = (s.pair (PORT_FLITS_TX_LO p) + 1) % 2 ^ 64 ∧ only [.links, .lanes, .regs] s (s.sendNext p m) := by
  have honly : only [.links] s (s.setLink p m (nextGiven (s.link p m) c rest)) := only_setLink _ _ _
  have hlink : (s.setLink p m (nextGiven (s.link p m) c rest)).link p m = nextGiven (s.link p m) c rest := link_setLink_same _
  rw [sendNext_eq h]
  generalize s.setLink p m (nextGiven (s.link p m) c rest) = t at honly hlink
  obtain ⟨⟨w, hw⟩, hcount, hparts⟩ := sendPacketFlit_sent (s := t) (p := p) (m := m) (s.link p m).txNext c
  rw [hw, hlink]
  exact ⟨rfl, rfl, rfl, hcount.trans (by rw [pair_congr (honly .regs (by decide))]), only_trans (only_mono (by simp) honly) hparts⟩

/-! ## A packet starts (R147, R170) -/

theorem contents_cons (x : Packet) : ∃ c rest, x.contents = c :: rest := by
  have hlen : 0 < x.contents.length := by
    rw [Packet.contents, List.length_map, List.length_range, Packet.flits, flitsOfLen]
    split <;> omega
  exact List.exists_cons_of_length_pos hlen

/-- The packet as it leaves: across the fabric its HOPS and AGE rise (R169). -/
def leaving (s : State) (p : Nat) (o : OutPkt) : Packet :=
  { o.pkt with hdr := if isFabric (s.role p) then { o.pkt.hdr with hops := o.pkt.hdr.hops + 1, age := BitVec.ofNat 8 (s.ageOf o) } else o.pkt.hdr }

/-- The sender of a link as a packet starts: its credits are spent. -/
def startedLink (s : State) (p m : Nat) (o : OutPkt) : Link :=
  { s.link p m with sending := (leaving s p o).contents, spent := (s.link p m).spent.set o.vc (((s.link p m).spent.getD o.vc 0 + (leaving s p o).flits) % 65536), sinceVc4 := if o.vc = 4 then 0 else (s.link p m).sinceVc4 + 1, respRun := if o.vc = 2 ∨ o.vc = 3 then (s.link p m).respRun + 1 else if o.vc = 4 then (s.link p m).respRun else 0, rrIn := ((o.inPort.getD ownPort) + 1) % 33 }

/-- The packet at a place of the egress accounts has left its account. -/
def egressLess (s : State) (n : Nat) : State := { s with sw := { s.sw with egress := ldrop s.sw.egress n } }

theorem startPacket_eq (o : OutPkt) : s.startPacket p m n o = ((egressLess s n).setLink p m (startedLink s p m o)).sendNext p m := rfl

theorem startedLink_sending (o : OutPkt) : (startedLink s p m o).sending = (leaving s p o).contents := rfl

theorem startedLink_txNext (o : OutPkt) : (startedLink s p m o).txNext = (s.link p m).txNext := rfl

theorem startPacket_starts (o : OutPkt) :
    (s.startPacket p m n o).sw = { s.sw with egress := ldrop s.sw.egress n } ∧ ((s.startPacket p m n o).link p m).txNext = (s.link p m).txNext + 1
      ∧ only [.links, .lanes, .regs, .sw] s (s.startPacket p m n o) := by
  have htx1 := startedLink_txNext (s := s) (p := p) (m := m) o
  obtain ⟨c, rest, hsend⟩ := contents_cons (leaving s p o)
  rw [← startedLink_sending (m := m)] at hsend
  rw [startPacket_eq]
  generalize startedLink s p m o = x at htx1 hsend
  have hone : only [.links, .sw] s ((egressLess s n).setLink p m x) := only_trans (only_mono (by simp) (only_sw _)) (only_mono (by simp) (only_setLink _ _ _))
  have hsw : ((egressLess s n).setLink p m x).sw = { s.sw with egress := ldrop s.sw.egress n } := setLink_sw _ _ _ _
  have hlink : ((egressLess s n).setLink p m x).link p m = x := link_setLink_same _
  generalize (egressLess s n).setLink p m x = t at hone hsw hlink
  obtain ⟨-, htx, -, -, honly⟩ := sendNext_sends (s := t) (p := p) (m := m) (c := c) (rest := rest) (by rw [hlink, hsend])
  exact ⟨(honly .sw (by decide)).trans hsw, by rw [htx, hlink, htx1], only_trans (only_mono (by simp) hone) (only_mono (by simp) honly)⟩

theorem launch_starts (o : OutPkt) :
    (s.launch p m n o).sw = { s.sw with egress := ldrop s.sw.egress n } ∧ ((s.launch p m n o).link p m).txNext = (s.link p m).txNext + 1
      ∧ only [.links, .lanes, .regs, .sw] s (s.launch p m n o) := by
  obtain ⟨hsw, htx, honly⟩ := startPacket_starts (s := s) (p := p) (m := m) (n := n) o
  unfold State.launch
  extract_lets t
  split
  · have hinc : only [.regs] t (t.incPair TEL_SENT_LO 1) := only_incPair
    exact ⟨(hinc .sw (by decide)).trans hsw, by rw [link_congr (hinc .links (by decide))]; exact htx, only_trans honly (only_mono (by simp) hinc)⟩
  · exact ⟨hsw, htx, honly⟩

/-- A packet with an uncorrectable cell leaves the switch and is counted (Table 17.2). -/
theorem dropOut_drops : (s.dropOut n).sw = { s.sw with egress := ldrop s.sw.egress n } ∧ (s.dropOut n).fld MARL_UE_DROP = (s.fld MARL_UE_DROP + 1) % 2 ^ 32
    ∧ only [.sw, .regs] s (s.dropOut n) := by
  refine ⟨only_inc .sw (by decide), fld_inc_word rfl rfl, only_trans (only_mono (by simp) (only_sw _)) (only_mono (by simp) only_inc)⟩

/-- The link whose replay has given a flit. -/
def replayGiven (x : Link) (rest : List KeptFlit) : Link := { x with replay := rest }

theorem replayFlit_eq (hinj : s.flt.inject = none) (k : KeptFlit) (rest : List KeptFlit) :
    s.replayFlit p m k rest = ((s.setLink p m (replayGiven (s.link p m) rest)).inc (PORT_REPLAYED_FLITS p)).sendPacketFlit p m k.seq k.content := by
  unfold State.replayFlit
  rw [injCheck_none hinj]
  rfl

/-- A replayed flit leaves the replay, not the retry buffer (R143). -/
theorem replayFlit_replays (hinj : s.flt.inject = none) (k : KeptFlit) (rest : List KeptFlit) :
    ((s.replayFlit p m k rest).link p m).replay = rest ∧ ((s.replayFlit p m k rest).link p m).kept = (s.link p m).kept
      ∧ (s.replayFlit p m k rest).pair (PORT_FLITS_TX_LO p) = (s.pair (PORT_FLITS_TX_LO p) + 1) % 2 ^ 64 ∧ only [.links, .lanes, .regs] s (s.replayFlit p m k rest) := by
  have honly : only [.links] s (s.setLink p m (replayGiven (s.link p m) rest)) := only_setLink _ _ _
  have hlink : (s.setLink p m (replayGiven (s.link p m) rest)).link p m = replayGiven (s.link p m) rest := link_setLink_same _
  rw [replayFlit_eq hinj]
  generalize s.setLink p m (replayGiven (s.link p m) rest) = t at honly hlink
  have hinc : only [.regs] t (t.inc (PORT_REPLAYED_FLITS p)) := only_inc
  have hpair : (t.inc (PORT_REPLAYED_FLITS p)).pair (PORT_FLITS_TX_LO p) = s.pair (PORT_FLITS_TX_LO p) := by
    rw [State.pair, reg_inc_ne (by simp [PORT_FLITS_TX_LO, PORT_REPLAYED_FLITS]), reg_inc_ne (by simp only [PORT_FLITS_TX_LO, PORT_REPLAYED_FLITS]; omega)]
    exact pair_congr (honly .regs (by decide)) _
  obtain ⟨⟨w, hw⟩, hcount, hparts⟩ := sendPacketFlit_sent (s := t.inc (PORT_REPLAYED_FLITS p)) (p := p) (m := m) k.seq k.content
  rw [hw, link_congr (hinc .links (by decide)), hlink]
  exact ⟨rfl, rfl, hcount.trans (by rw [hpair]), only_trans (only_mono (by simp) honly) (only_trans (only_mono (by simp) hinc) hparts)⟩

/-! ## A flit slot (R139, R142, R170) -/

theorem LcfSent.told (h : LcfSent p m s t) : (t.link p m).ackOwed = 0 ∧ (t.link p m).nakOwed = false ∧ (t.link p m).toldRet = (s.link p m).ownRet
    ∧ (t.link p m).kept = (s.link p m).kept ∧ (t.link p m).txNext = (s.link p m).txNext := by
  obtain ⟨w, hw⟩ := h.link
  rw [hw]
  exact ⟨rfl, rfl, rfl, rfl, rfl⟩

/-- After an LCF nothing stands unreported. -/
theorem LcfSent.reported (h : LcfSent p m s t) : (t.link p m).unreported = false := by
  obtain ⟨w, hw⟩ := h.link
  rw [hw]
  simp [Link.unreported]

/-- Nothing goes ahead of packet flits. -/
structure SlotFree (s : State) (p m : Nat) : Prop where
  inL0 : s.lst p m = 4
  alive : s.dead = false
  on : s.fabOn = true
  resume : (s.link p m).resume = false
  lcf : (s.link p m).lcfAhead = false

theorem packetSend_lcf (hin : s.lst port.toNat link.toNat = 4) (hdead : s.dead = false) (hon : s.fabOn = true)
    (h : (s.link port.toNat link.toNat).resume = true ∨ (s.link port.toNat link.toNat).lcfAhead = true) :
    exec (.packetSend port link) s = .next (s.sendLcf port.toNat link.toNat) := by
  show execPacketSend port link s = _
  unfold execPacketSend
  extract_lets p m l
  rw [if_neg (by simp only [p, m, hdead, hon]; simp [hin]), if_pos (by simp only [l, p, m]; simpa using h)]

/-- What a slot carries where nothing goes ahead: a replayed flit, the packet in hand, a new packet, or an idle LCF. -/
def slotTaken (s : State) (p m : Nat) : Out :=
  match (s.link p m).replay with
  | k :: rest => .next (s.replayFlit p m k rest)
  | [] =>
    if s.retryCap p ≤ (s.link p m).kept.length then .next (s.sendLcf p m)
    else if !(s.link p m).sending.isEmpty then .next (s.sendNext p m)
    else match s.chooseOut p m with
      | some (k, o) => .next (if o.bad then (s.dropOut k).sendLcf p m else s.launch p m k o)
      | none => .next (s.sendLcf p m)

theorem packetSend_free (h : SlotFree s port.toNat link.toNat) : exec (.packetSend port link) s = slotTaken s port.toNat link.toNat := by
  obtain ⟨hin, hdead, hon, hresume, hlcf⟩ := h
  show execPacketSend port link s = _
  unfold execPacketSend
  extract_lets p m l
  rw [if_neg (by simp only [p, m, hdead, hon]; simp [hin]), if_neg (by simp only [l, p, m, hresume, hlcf]; simp)]
  rfl

theorem slotTaken_replay {k : KeptFlit} {rest : List KeptFlit} (h : (s.link p m).replay = k :: rest) : slotTaken s p m = .next (s.replayFlit p m k rest) := by
  simp only [slotTaken, h]

theorem slotTaken_full (h : (s.link p m).replay = []) (hfull : s.retryCap p ≤ (s.link p m).kept.length) : slotTaken s p m = .next (s.sendLcf p m) := by
  simp only [slotTaken, h]
  exact if_pos hfull

theorem slotTaken_next (h : (s.link p m).replay = []) (hroom : (s.link p m).kept.length < s.retryCap p) (hsend : (s.link p m).sending ≠ []) :
    slotTaken s p m = .next (s.sendNext p m) := by
  simp only [slotTaken, h]
  rw [if_neg (by omega), if_pos (by simp [hsend])]

theorem slotTaken_new {k : Nat} {o : OutPkt} (h : (s.link p m).replay = []) (hroom : (s.link p m).kept.length < s.retryCap p) (hsend : (s.link p m).sending = [])
    (hout : s.chooseOut p m = some (k, o)) : slotTaken s p m = .next (if o.bad then (s.dropOut k).sendLcf p m else s.launch p m k o) := by
  simp only [slotTaken, h, hout]
  rw [if_neg (by omega), if_neg (by simp [hsend])]

theorem slotTaken_idle (h : (s.link p m).replay = []) (hroom : (s.link p m).kept.length < s.retryCap p) (hsend : (s.link p m).sending = [])
    (hout : s.chooseOut p m = none) : slotTaken s p m = .next (s.sendLcf p m) := by
  simp only [slotTaken, h, hout]
  rw [if_neg (by omega), if_neg (by simp [hsend])]

/-- The retry buffer is replayed from its start (R143). -/
def replayed (s : State) (p m : Nat) : State := s.setLink p m { s.link p m with replay := (s.link p m).kept }

/-- Settles O25, from what each content of a flit slot does to its link. -/
theorem linkTransmission : Obligations.LinkTransmission := by
  intro port link s
  refine ⟨fun hin hkept hresume => ⟨(replayed s port.toNat link.toNat).inc (PORT_REPLAY_TO port.toNat), if_pos (by simp [hin, hkept, hresume]), ?_⟩,
    fun hin hdue => ⟨_, if_pos (by simp [hin, hdue]), sendLcf_sent.reported, sendLcf_sent.told.2.2.1, sendLcf_sent.parts⟩, fun hin hdead hon hinj => ⟨fun h => ⟨_, packetSend_lcf hin hdead hon h, ?_⟩, fun hresume hlcf => ?_⟩⟩
  · have honly : only [.links] s (replayed s port.toNat link.toNat) := only_setLink _ _ _
    have hlink : (replayed s port.toNat link.toNat).link port.toNat link.toNat = { s.link port.toNat link.toNat with replay := (s.link port.toNat link.toNat).kept } := link_setLink_same _
    generalize replayed s port.toNat link.toNat = t at honly hlink
    refine ⟨(link_congr (only_inc .links (by decide)) _ _).trans hlink, ?_, regsBut_trans (regsBut_of_regs (honly .regs (by decide))) (regsBut_inc (by simp)), only_trans (only_mono (by simp) honly) (only_mono (by simp) only_inc)⟩
    rw [fld_inc_word rfl rfl, fld_congr (honly .regs (by decide))]
  · obtain ⟨hack, hnak, htold, hkept, -⟩ := (sendLcf_sent (s := s) (p := port.toNat) (m := link.toNat)).told
    exact ⟨hack, hnak, htold, hkept, sendLcf_sent.parts⟩
  · have hslot : exec (.packetSend port link) s = slotTaken s port.toNat link.toNat := packetSend_free ⟨hin, hdead, hon, hresume, hlcf⟩
    have hidle : ∃ t, Host.Outcome.next (s.sendLcf port.toNat link.toNat) = (Host.Outcome.next t : Out) ∧ (t.link port.toNat link.toNat).toldRet = (s.link port.toNat link.toNat).ownRet
        ∧ (t.link port.toNat link.toNat).txNext = (s.link port.toNat link.toNat).txNext ∧ (t.link port.toNat link.toNat).kept = (s.link port.toNat link.toNat).kept ∧ only [.links, .lanes] s t := by
      obtain ⟨-, -, htold, hkept, htx⟩ := (sendLcf_sent (s := s) (p := port.toNat) (m := link.toNat)).told
      exact ⟨_, rfl, htold, htx, hkept, sendLcf_sent.parts⟩
    rw [hslot]
    refine ⟨fun k rest h => ⟨_, slotTaken_replay h, replayFlit_replays hinj k rest⟩, fun c rest h hroom hsend => ⟨_, slotTaken_next h hroom (by simp [hsend]), sendNext_sends hsend⟩,
      fun k o h hroom hsend hout => ⟨fun hgood => ⟨_, slotTaken_new h hroom hsend hout, ?_⟩, fun hbad => ⟨_, slotTaken_new h hroom hsend hout, ?_⟩⟩, fun h hno => ?_⟩
    · rw [if_neg (by simp [hgood])]
      exact launch_starts o
    · rw [if_pos hbad]
      obtain ⟨hsw, hcount, honly⟩ := dropOut_drops (s := s) (n := k)
      have hlink : (s.dropOut k).link port.toNat link.toNat = s.link port.toNat link.toNat := link_congr (honly .links (by decide)) _ _
      generalize s.dropOut k = t at hsw hcount honly hlink
      have hsent := sendLcf_sent (s := t) (p := port.toNat) (m := link.toNat)
      obtain ⟨-, -, -, -, htx⟩ := hsent.told
      exact ⟨(hsent.parts .sw (by decide)).trans hsw, htx.trans (by rw [hlink]), (fld_congr (hsent.parts .regs (by decide)) _).trans hcount,
        only_trans (only_mono (by simp) honly) (only_mono (by simp) hsent.parts)⟩
    · rcases Nat.lt_or_ge (s.link port.toNat link.toNat).kept.length (s.retryCap port.toNat) with hroom | hfull
      · obtain ⟨hsend, hout⟩ := hno.resolve_left (by omega)
        rw [slotTaken_idle h hroom hsend hout]
        exact hidle
      · rw [slotTaken_full h hfull]
        exact hidle

end Sys2Proof.Proofs
end

section
/-! SUPPORT. L1 (R128): the markers of an entry to L1 go out on every lane that ACTIVE_MASK names, the link's own or not. -/

namespace Sys2Proof.Proofs

set_option Elab.async false

open Sys2Proof.Machine

/-- Port 0 is split into eight links of one lane, and ACTIVE_MASK of its link 0, which is in L0 with nothing to send, names logical lane 1. -/
def maskBeyond : State :=
  { State.reset with regs := (State.reset.sets [(PORT_LINK_CFG_SPLIT 0, 3), (PORT_LINK_CFG_L1_IDLE 0, 1), (PORT_LINK_STATUS_STATE 0 0, 4), (PORT_LINK_STATUS_ACTIVE_MASK 0 0, 2)]).regs }

theorem maskBeyond_inL0 : maskBeyond.lst 0 0 = 4 := by decide +kernel

theorem maskBeyond_l1Idle : 0 < maskBeyond.fld (PORT_LINK_CFG_L1_IDLE 0) := by decide +kernel

theorem maskBeyond_lanes : maskBeyond.linkLanes 0 0 = [0] := by decide +kernel

theorem maskBeyond_quiet : maskBeyond.hasFlit 0 0 = false := by decide +kernel

theorem l1Entry_maskBeyond : exec (.l1Entry 0 0) maskBeyond = .next (maskBeyond.linkIdle 0 0) :=
  (show exec (.l1Entry 0 0) maskBeyond = execL1Entry 0 0 maskBeyond from rfl).trans (by unfold execL1Entry; exact if_pos (by decide +kernel))

/-- Lane 1 is none of the link's lanes, yet it sends the markers. -/
theorem linkIdle_maskBeyond : ((maskBeyond.linkIdle 0 0).lane 1).sent.isEmpty = false := by decide +kernel

/-- Refutes O23: the entry to L1 sends its markers on the lanes that ACTIVE_MASK names, and where ACTIVE_MASK names a lane beyond the link's width
the lane of another link sends them, which the clause says is left alone. -/
theorem not_linkService : ¬ Obligations.LinkService := by
  unfold Obligations.LinkService
  intro h
  obtain ⟨-, -, -, hentry, -⟩ := h 0 0 maskBeyond
  obtain ⟨t, ht, -, -, hothers, -⟩ := hentry maskBeyond_inL0 (.inl maskBeyond_l1Idle) maskBeyond_quiet rfl
  obtain rfl : maskBeyond.linkIdle 0 0 = t := Host.Outcome.next.inj (l1Entry_maskBeyond.symm.trans ht)
  have hsame : (maskBeyond.linkIdle 0 0).lane 1 = maskBeyond.lane 1 := hothers 1 fun hm => absurd (maskBeyond_lanes ▸ hm) (by decide)
  have hsent := linkIdle_maskBeyond
  rw [hsame] at hsent
  exact absurd hsent (by decide +kernel)

end Sys2Proof.Proofs
end

section
/-! SUPPORT. Link training (R117, R118, R121, R129, Table 6.5): what step 1, a marker and the loss of a lane leave of the lanes and of the words of
the link. -/

namespace Sys2Proof.Proofs

set_option Elab.async false

open Sys2Proof.Machine Sys2Proof.Laws

variable {s t u : State} {p m l v : Nat}

/-! ## Fields beside the ones that are set -/

/-- Two fields with no bit in common. -/
def Apart (g f : Fld) : Prop := g.off ≠ f.off ∨ f.hi < g.lo ∨ g.hi < f.lo

/-- A field of a register: its bits in order and below 32. -/
def Proper (f : Fld) : Prop := f.lo ≤ f.hi ∧ f.hi < 32

theorem fld_set_apart {f g : Fld} (hf : Proper f) (h : Apart g f) : (s.set f v).fld g = s.fld g := by
  by_cases ho : g.off = f.off
  · obtain ⟨hle, hlt⟩ := hf
    have hd := h.resolve_left (absurd ho)
    exact (fld_set_disjoint (f := f) (g := g) _ hle hlt hd _)
  · exact fld_set_ne s ho v

theorem fld_sets_apart {g : Fld} {fs : List (Fld × Nat)} (h : ∀ x ∈ fs, Proper x.1 ∧ Apart g x.1) : (s.sets fs).fld g = s.fld g := by
  induction fs generalizing s with
  | nil => rfl
  | cons x fs ih =>
    obtain ⟨hp, ha⟩ := h x List.mem_cons_self
    exact (ih (s := s.set x.1 x.2) fun y hy => h y (List.mem_cons_of_mem _ hy)).trans (fld_set_apart hp ha)

/-- The last value that a list of settings gives a field. -/
theorem fld_sets_reads {g : Fld} (pre : List (Fld × Nat)) {post : List (Fld × Nat)} (hg : Proper g) (hv : v < 2 ^ (g.hi + 1 - g.lo))
    (h : ∀ x ∈ post, Proper x.1 ∧ Apart g x.1) : (s.sets (pre ++ (g, v) :: post)).fld g = v := by
  induction pre generalizing s with
  | nil => exact (fld_sets_apart h).trans (fld_set_fits hg.1 hg.2 hv)
  | cons x pre ih => exact ih (s := s.set x.1 x.2)

/-! ## What a block of markers leaves -/

/-- Two lanes that differ in what they have sent alone. -/
def SentOnly (x y : Lane) : Prop := y = { x with sent := y.sent, filler := y.filler }

theorem sendBlock_lane (n k : Nat) : SentOnly (s.lane k) ((s.sendBlock p m n).lane k) := by
  unfold State.sendBlock
  by_cases hk : k = n
  · subst hk; dsimp only; rw [lane_setLane_same]; exact rfl
  · dsimp only; rw [lane_setLane_ne hk]; exact rfl

theorem SentOnly.trans {x y z : Lane} (h : SentOnly x y) (h' : SentOnly y z) : SentOnly x z := by
  rw [SentOnly] at h h' ⊢
  rw [h', h]

theorem SentOnly.squelch {x y : Lane} (h : SentOnly x y) : y.squelch = x.squelch := by rw [SentOnly] at h; rw [h]

theorem SentOnly.txEq {x y : Lane} (h : SentOnly x y) : y.txEq = x.txEq := by rw [SentOnly] at h; rw [h]

theorem SentOnly.goodRun {x y : Lane} (h : SentOnly x y) : y.goodRun = x.goodRun := by rw [SentOnly] at h; rw [h]

theorem sendBlocks_lane (k : Nat) : SentOnly (s.lane k) ((s.sendBlocks p m).lane k) :=
  each_keeps (P := fun x => SentOnly (s.lane k) (x.lane k)) rfl fun _ n hx => hx.trans (sendBlock_lane n k)

theorem only_sendBlock : only [.lanes] s (s.sendBlock p m l) := only_setLane _ _

theorem sendBlock_regs : (s.sendBlock p m l).regs = s.regs := rfl

theorem only_sendBlocks : only [.lanes] s (s.sendBlocks p m) := (aside_sendBlocks (k := [.lanes]) (by simp)).frame.parts

theorem sendBlocks_regs : (s.sendBlocks p m).regs = s.regs := only_sendBlocks .regs (by decide)

theorem sendBlocks_apart {k : Nat} (h : k ∉ s.linkLanes p m) : (s.sendBlocks p m).lane k = s.lane k :=
  each_apart (φ := fun x => x.lane k) fun _ _ hn => lane_setLane_ne (ne_of_mem_of_not_mem hn h).symm _

/-! ## Step 1 of Table 6.5 -/

/-- The words of the lanes. -/
def laneReg (o : Nat) : Prop := 0x20000 ≤ o

/-- What the lanes of a link may change. -/
abbrev Lanes (s t : State) : Prop := Frame [.lanes, .regs] laneReg s t

theorem lanes_setLane (n : Nat) (x : Lane) : Lanes s (s.setLane n x) := .of_only (only_setLane n x) (by simp) (by simp)

theorem lanes_laneRestart (n : Nat) : Lanes s (s.laneRestart n) := by
  refine (lanes_setLane _ _).trans (.sets (by simp) ?_)
  simp only [List.mem_cons, List.not_mem_nil, or_false]
  rintro x (rfl | rfl | rfl | rfl | rfl | rfl) <;>
    simp only [laneReg, LANE_STATUS_CDR_LOCK, LANE_STATUS_MARKER_LOCK, LANE_STATUS_INVERTED, LANE_STATUS_IN_USE, LANE_STATUS_LOGICAL, LANE_EYE_STALE] <;> omega

/-- A lane's transmitter starts with its saved settings. -/
def laneStart (s : State) (n : Nat) : State :=
  (s.laneRestart n).setLane n { (s.laneRestart n).lane n with squelch := false, txEq := BitVec.ofNat 32 (s.reg (LANE_TX_EQ n).off) }

/-- The transmitters of a link start. -/
def lanesStarted (s : State) (p m : Nat) : State := s.each (s.linkLanes p m) laneStart

/-- A link's words and its training at step 1. -/
def atStepOne (s : State) (p m : Nat) : State :=
  (s.setLink p m (s.link p m).fresh).sets [(PORT_LINK_STATUS_STATE p m, 1), (PORT_LINK_STATUS_WIDTH p m, 0), (PORT_LINK_STATUS_ACTIVE_MASK p m, 0), (PORT_LINK_STATUS_REVERSED p m, 0)]

theorem startLink_eq (s : State) (p m : Nat) : s.startLink p m = (atStepOne (lanesStarted s p m) p m).sendBlocks p m := rfl

theorem lanes_laneStart (n : Nat) : Lanes s (laneStart s n) := (lanes_laneRestart n).trans (lanes_setLane _ _)

theorem lanes_lanesStarted : Lanes s (lanesStarted s p m) := .each fun _ n _ => lanes_laneStart n

theorem laneStart_lane (n : Nat) : ((laneStart s n).lane n).squelch = false ∧ ((laneStart s n).lane n).txEq = BitVec.ofNat 32 (s.reg (LANE_TX_EQ n).off) := by
  rw [laneStart, lane_setLane_same]
  exact ⟨rfl, rfl⟩

theorem laneStart_apart {n k : Nat} (h : k ≠ n) : (laneStart s n).lane k = s.lane k := by
  rw [laneStart, lane_setLane_ne h, State.laneRestart]
  exact (lane_congr ((only_sets _) .lanes (by decide)) k).trans (lane_setLane_ne h _)

/-- The saved settings of a transmitter stand through a restart. -/
theorem laneStart_txEq (n k : Nat) : (laneStart s n).reg (LANE_TX_EQ k).off = s.reg (LANE_TX_EQ k).off := by
  have h : ∀ x ∈ [(LANE_STATUS_CDR_LOCK n, 0), (LANE_STATUS_MARKER_LOCK n, 0), (LANE_STATUS_INVERTED n, 0), (LANE_STATUS_IN_USE n, 0), (LANE_STATUS_LOGICAL n, 0), (LANE_EYE_STALE n, 1)],
      (fun o => o % 0x400 ≠ 0) x.1.off := by
    simp only [List.mem_cons, List.not_mem_nil, or_false]
    rintro x (rfl | rfl | rfl | rfl | rfl | rfl) <;>
      simp only [LANE_STATUS_CDR_LOCK, LANE_STATUS_MARKER_LOCK, LANE_STATUS_INVERTED, LANE_STATUS_IN_USE, LANE_STATUS_LOGICAL, LANE_EYE_STALE] <;> omega
  have hf : Frame [.lanes, .regs] (fun o => o % 0x400 ≠ 0) s (laneStart s n) :=
    ((Frame.of_only (only_setLane _ _) (by simp) (by simp)).trans (.sets (by simp) h)).trans (.of_only (only_setLane _ _) (by simp) (by simp))
  exact hf.reg _ (by simp only [LANE_TX_EQ]; omega)

theorem linkLanes_nodup : (s.linkLanes p m).Nodup :=
  List.nodup_range.map fun a b h => by simp only [State.laneIx] at h; omega

/-- Every transmitter of the link is on, with its saved settings. -/
theorem lanesStarted_lane {n : Nat} (hn : n ∈ s.linkLanes p m) :
    ((lanesStarted s p m).lane n).squelch = false ∧ ((lanesStarted s p m).lane n).txEq = BitVec.ofNat 32 (s.reg (LANE_TX_EQ n).off) := by
  exact each_at (φ := fun x : State => x.lane n) (I := fun x => x.reg (LANE_TX_EQ n).off = s.reg (LANE_TX_EQ n).off)
    (R := fun _ y => y.squelch = false ∧ y.txEq = BitVec.ofNat 32 (s.reg (LANE_TX_EQ n).off)) linkLanes_nodup hn rfl
    (fun x b hx => (laneStart_txEq b n).trans hx) (fun x b _ hb => laneStart_apart hb.symm) fun x hx => hx ▸ laneStart_lane n

theorem lanesStarted_apart {k : Nat} (h : k ∉ s.linkLanes p m) : (lanesStarted s p m).lane k = s.lane k :=
  each_apart (φ := fun x => x.lane k) fun _ _ hn => laneStart_apart (ne_of_mem_of_not_mem hn h).symm

theorem only_atStepOne : only [.links, .regs] s (atStepOne s p m) :=
  only_trans (only_mono (by simp) (only_setLink p m _)) (only_mono (by simp) (only_sets _))

theorem atStepOne_fields :
    (atStepOne s p m).lst p m = 1 ∧ (atStepOne s p m).fld (PORT_LINK_STATUS_WIDTH p m) = 0 ∧ (atStepOne s p m).fld (PORT_LINK_STATUS_ACTIVE_MASK p m) = 0
      ∧ (atStepOne s p m).fld (PORT_LINK_STATUS_REVERSED p m) = 0 := by
  refine ⟨fld_sets_reads [] ?_ ?_ ?_, fld_sets_reads [_] ?_ ?_ ?_, fld_sets_reads [_, _] ?_ ?_ ?_, fld_sets_reads [_, _, _] ?_ ?_ ?_⟩ <;>
    simp [Proper, Apart, PORT_LINK_STATUS_STATE, PORT_LINK_STATUS_WIDTH, PORT_LINK_STATUS_ACTIVE_MASK, PORT_LINK_STATUS_REVERSED]

theorem atStepOne_link : (atStepOne s p m).link p m = (s.link p m).fresh :=
  (link_congr (only_sets _ .links (by decide)) p m).trans (link_setLink_same _)

/-- A link that starts is at step 1, with nothing gathered and no width yet, its transmitters on with their saved settings. -/
structure Starts (p m : Nat) (s t : State) : Prop where
  state : t.lst p m = 1
  width : t.fld (PORT_LINK_STATUS_WIDTH p m) = 0
  mask : t.fld (PORT_LINK_STATUS_ACTIVE_MASK p m) = 0
  reversed : t.fld (PORT_LINK_STATUS_REVERSED p m) = 0
  link : t.link p m = (s.link p m).fresh
  lanes : ∀ n ∈ s.linkLanes p m, (t.lane n).squelch = false ∧ (t.lane n).txEq = BitVec.ofNat 32 (s.reg (LANE_TX_EQ n).off)
  others : ∀ n, n ∉ s.linkLanes p m → t.lane n = s.lane n
  parts : only [.links, .lanes, .regs] s t

theorem linkLanes_congr (h : t.fld (PORT_LINK_CFG_SPLIT p) = s.fld (PORT_LINK_CFG_SPLIT p)) : t.linkLanes p m = s.linkLanes p m := by
  have hw : t.linkW p = s.linkW p := by rw [State.linkW, State.linkW, State.nLinks, State.nLinks, h]
  have hix : t.laneIx p m = s.laneIx p m := by funext i; rw [State.laneIx, State.laneIx, hw]
  rw [State.linkLanes, State.linkLanes, hw, hix]

theorem startLink_starts (hp : p < 32) : Starts p m s (s.startLink p m) := by
  have hl := lanes_lanesStarted (s := s) (p := p) (m := m)
  have hlane : ∀ n, (atStepOne (lanesStarted s p m) p m).lane n = (lanesStarted s p m).lane n := lane_congr (only_atStepOne .lanes (by decide))
  obtain ⟨hstate, hwidth, hmask, hrev⟩ := atStepOne_fields (s := lanesStarted s p m) (p := p) (m := m)
  have hsplit : (atStepOne (lanesStarted s p m) p m).linkLanes p m = s.linkLanes p m := by
    refine linkLanes_congr ((fld_sets_apart ?_).trans ((fld_congr (setLink_regs _ _ _ _) _).trans (hl.fld ?_)))
    · simp only [List.mem_cons, List.not_mem_nil, or_false]
      rintro x (rfl | rfl | rfl | rfl) <;> simp only [Proper, Apart, PORT_LINK_CFG_SPLIT, PORT_LINK_STATUS_STATE, PORT_LINK_STATUS_WIDTH, PORT_LINK_STATUS_ACTIVE_MASK, PORT_LINK_STATUS_REVERSED] <;> omega
    · simp only [laneReg, PORT_LINK_CFG_SPLIT]; omega
  rw [startLink_eq]
  refine ⟨(fld_congr sendBlocks_regs _).trans hstate, (fld_congr sendBlocks_regs _).trans hwidth, (fld_congr sendBlocks_regs _).trans hmask, (fld_congr sendBlocks_regs _).trans hrev, ?_, ?_, ?_, ?_⟩
  · rw [link_congr (only_sendBlocks .links (by decide)), atStepOne_link, link_congr (hl.parts .links (by decide))]
  · intro n hn
    rw [(sendBlocks_lane n).squelch, (sendBlocks_lane n).txEq, hlane]
    exact lanesStarted_lane hn
  · intro n hn
    rw [sendBlocks_apart (by rwa [hsplit]), hlane]
    exact lanesStarted_apart hn
  · exact only_trans (only_mono (by simp) hl.parts) (only_trans (only_mono (by simp) only_atStepOne) (only_mono (by simp) only_sendBlocks))

/-! ## A time-out (R121) -/

/-- The link's lanes look for markers anew. -/
def lanesSeek (s : State) (p m : Nat) : State := s.each (s.linkLanes p m) State.laneRestart

/-- The words of a link that a time-out sends back to step 1. -/
def seeksAnew (s : State) (p m reason : Nat) : State :=
  (s.setLink p m (s.link p m).fresh).sets [(PORT_LINK_STATUS_STATE p m, 1), (PORT_LINK_STATUS_REASON p m, reason), (PORT_LINK_STATUS_WIDTH p m, 0), (PORT_LINK_STATUS_ACTIVE_MASK p m, 0), (PORT_LINK_STATUS_REVERSED p m, 0)]

theorem lanes_lanesSeek : Lanes s (lanesSeek s p m) := .each fun _ n _ => lanes_laneRestart n

theorem seeksAnew_fields (reason : Nat) :
    (seeksAnew s p m reason).lst p m = 1 ∧ (seeksAnew s p m reason).fld (PORT_LINK_STATUS_WIDTH p m) = 0 ∧ (seeksAnew s p m reason).fld (PORT_LINK_STATUS_ACTIVE_MASK p m) = 0
      ∧ (seeksAnew s p m reason).fld (PORT_TRAIN_ATTEMPTS p) = s.fld (PORT_TRAIN_ATTEMPTS p) := by
  refine ⟨fld_sets_reads [] ?_ ?_ ?_, fld_sets_reads [_, _] ?_ ?_ ?_, fld_sets_reads [_, _, _] ?_ ?_ ?_, (fld_sets_apart ?_).trans (fld_congr (setLink_regs _ _ _ _) _)⟩ <;>
    simp [Proper, Apart, PORT_LINK_STATUS_STATE, PORT_LINK_STATUS_REASON, PORT_LINK_STATUS_WIDTH, PORT_LINK_STATUS_ACTIVE_MASK, PORT_LINK_STATUS_REVERSED, PORT_TRAIN_ATTEMPTS]
  all_goals omega

theorem only_seeksAnew (reason : Nat) : only [.links, .regs] s (seeksAnew s p m reason) :=
  only_trans (only_mono (by simp) (only_setLink p m _)) (only_mono (by simp) (only_sets _))

theorem trainTimeout_seeks {port : BitVec 5} {link : BitVec 3} (h : 1 ≤ s.lst port.toNat link.toNat) (h' : s.lst port.toNat link.toNat ≤ 3) :
    ∃ reason, exec (.trainTimeout port link) s
      = .next (((seeksAnew (lanesSeek s port.toNat link.toNat) port.toNat link.toNat reason).inc (PORT_TRAIN_ATTEMPTS port.toNat)).sendBlocks port.toNat link.toNat) :=
  ⟨_, if_pos (by simp [h, h'])⟩

theorem trainTimeout_restarts {port : BitVec 5} {link : BitVec 3} (h : 1 ≤ s.lst port.toNat link.toNat) (h' : s.lst port.toNat link.toNat ≤ 3) :
    ∃ t, exec (.trainTimeout port link) s = .next t ∧ t.lst port.toNat link.toNat = 1 ∧ t.fld (PORT_LINK_STATUS_WIDTH port.toNat link.toNat) = 0
        ∧ t.fld (PORT_LINK_STATUS_ACTIVE_MASK port.toNat link.toNat) = 0 ∧ t.fld (PORT_TRAIN_ATTEMPTS port.toNat) = (s.fld (PORT_TRAIN_ATTEMPTS port.toNat) + 1) % 2 ^ 32
        ∧ t.link port.toNat link.toNat = (s.link port.toNat link.toNat).fresh ∧ only [.links, .lanes, .regs] s t := by
  have hp : port.toNat < 32 := port.isLt
  obtain ⟨reason, hexec⟩ := trainTimeout_seeks h h'
  have hl := lanes_lanesSeek (s := s) (p := port.toNat) (m := link.toNat)
  have hkept : ∀ f : Fld, f.off ≠ (PORT_TRAIN_ATTEMPTS port.toNat).off → ∀ x : State, ((x.inc (PORT_TRAIN_ATTEMPTS port.toNat)).sendBlocks port.toNat link.toNat).fld f = x.fld f :=
    fun f hf x => (fld_congr sendBlocks_regs _).trans (fld_inc_ne hf)
  obtain ⟨hstate, hwidth, hmask, hcount⟩ := seeksAnew_fields (s := lanesSeek s port.toNat link.toNat) (p := port.toNat) (m := link.toNat) reason
  refine ⟨_, hexec, (hkept _ ?_ _).trans hstate, (hkept _ ?_ _).trans hwidth, (hkept _ ?_ _).trans hmask, ?_, ?_, ?_⟩
  · simp only [PORT_LINK_STATUS_STATE, PORT_TRAIN_ATTEMPTS]; omega
  · simp only [PORT_LINK_STATUS_WIDTH, PORT_TRAIN_ATTEMPTS]; omega
  · simp only [PORT_LINK_STATUS_ACTIVE_MASK, PORT_TRAIN_ATTEMPTS]; omega
  · rw [fld_congr sendBlocks_regs, fld_inc_word rfl rfl, hcount, hl.fld (by simp only [laneReg, PORT_TRAIN_ATTEMPTS]; omega)]
  · rw [link_congr (only_sendBlocks .links (by decide)), link_congr (only_inc .links (by decide)), seeksAnew, link_congr (only_sets _ .links (by decide)), link_setLink_same,
      link_congr (hl.parts .links (by decide))]
  · exact only_trans (only_mono (by simp) hl.parts) (only_trans (only_mono (by simp) (only_seeksAnew reason)) (only_trans (only_mono (by simp) only_inc) (only_mono (by simp) only_sendBlocks)))

end Sys2Proof.Proofs
end

section
/-! SUPPORT. Training markers (R117, R121, R129, Table 6.5): a marker counts towards lock, in lock it records the partner, and a lane that misses its
markers loses lock. -/

namespace Sys2Proof.Proofs

set_option Elab.async false

open Sys2Proof.Machine Sys2Proof.Laws

variable {s t u : State} {p m l v : Nat} {b raw : List (BitVec 8)} {inv : Bool}

/-! ## The stream of a lane that listens (Table 6.5 steps 3 and 5) -/

/-- The words in which a lane shows its receiver and its equaliser. -/
def rxReg (l : Nat) (o : Nat) : Prop := o ∈ [(LANE_STATUS l).off, (LANE_RX_EQ l).off, (LANE_DFE l 0).off, (LANE_DFE l 1).off]

/-- What a lane that listens changes. -/
abbrev Listens (l : Nat) (s t : State) : Prop := Frame [.lanes, .regs] (rxReg l) s t

theorem listens_setLane (n : Nat) (x : Lane) : Listens l s (s.setLane n x) := .of_only (only_setLane n x) (by simp) (by simp)

theorem listens_status {f : Fld} (h : f.off = (LANE_STATUS l).off) : Listens l s (s.set f v) := .set (by simp) (by simp [rxReg, h])

theorem listens_trainEq (e : EqSet) : Listens l s (s.trainEq l e) := by
  have hsets : ∀ x ∈ [(LANE_RX_EQ_CTLE l, e.ctle.toNat), (LANE_RX_EQ_VGA l, e.vga.toNat)], rxReg l x.1.off := by
    simp [rxReg, LANE_RX_EQ_CTLE, LANE_RX_EQ_VGA, LANE_RX_EQ]
  exact (((listens_setLane _ _).trans (.sets (by simp) hsets)).trans (.setReg (by simp) (by simp [rxReg]))).trans (.setReg (by simp) (by simp [rxReg]))

/-- A lane has a signal and its clock; while its link looks for markers its equaliser adapts on the stream. -/
def heard (s : State) (p m l : Nat) (e : EqSet) : State :=
  let t := s.sets [(LANE_STATUS_SIG_DET l, 1), (LANE_STATUS_CDR_LOCK l, 1)]
  if t.lst p m ≤ 2 then t.trainEq l e else t

theorem listens_heard (e : EqSet) : Listens l s (heard s p m l e) := by
  have h : Listens l s (s.sets [(LANE_STATUS_SIG_DET l, 1), (LANE_STATUS_CDR_LOCK l, 1)]) :=
    .sets (by simp) (by simp [rxReg, LANE_STATUS_SIG_DET, LANE_STATUS_CDR_LOCK, LANE_STATUS])
  exact .ite (h.trans (listens_trainEq e)) h

/-- The equaliser's words are none of a lane's status. -/
theorem trainEq_status {g : Fld} (e : EqSet) (h : g.off = (LANE_STATUS l).off) : (s.trainEq l e).fld g = s.fld g := by
  have hoff : g.off ≠ (LANE_DFE l 0).off ∧ g.off ≠ (LANE_DFE l 1).off ∧ g.off ≠ (LANE_RX_EQ_CTLE l).off ∧ g.off ≠ (LANE_RX_EQ_VGA l).off := by
    rw [h]; simp only [LANE_STATUS, LANE_DFE, LANE_RX_EQ_CTLE, LANE_RX_EQ_VGA]; omega
  obtain ⟨h0, h1, hc, hv⟩ := hoff
  exact (fld_setReg_ne _ h1 _).trans ((fld_setReg_ne _ h0 _).trans ((fld_set_ne _ hv _).trans ((fld_set_ne _ hc _).trans (fld_congr rfl _))))

theorem heard_status {g : Fld} (e : EqSet) (h : g.off = (LANE_STATUS l).off) : (heard s p m l e).fld g = (s.sets [(LANE_STATUS_SIG_DET l, 1), (LANE_STATUS_CDR_LOCK l, 1)]).fld g := by
  unfold heard
  dsimp only
  split
  · exact trainEq_status e h
  · rfl

theorem heard_signal (e : EqSet) : (heard s p m l e).fld (LANE_STATUS_SIG_DET l) = 1 := by
  rw [heard_status (g := LANE_STATUS_SIG_DET l) e rfl]
  exact fld_sets_reads [] (by simp [Proper, LANE_STATUS_SIG_DET]) (by simp [LANE_STATUS_SIG_DET]) (by simp [Proper, Apart, LANE_STATUS_SIG_DET, LANE_STATUS_CDR_LOCK])

/-- Of its status only SIG_DET and CDR_LOCK are touched by a signal. -/
theorem heard_keeps {g : Fld} (e : EqSet) (h : g.off = (LANE_STATUS l).off) (hhi : g.hi < 6) : (heard s p m l e).fld g = s.fld g := by
  rw [heard_status e h]
  exact fld_sets_apart (by simp [Proper, Apart, LANE_STATUS_SIG_DET, LANE_STATUS_CDR_LOCK]; omega)

theorem trainEq_goodRun (e : EqSet) (k : Nat) : ((s.trainEq l e).lane k).goodRun = (s.lane k).goodRun := by
  have hlanes : ∃ y, (s.trainEq l e).lanes = (s.setLane l { s.lane l with slicer := y }).lanes :=
    ⟨_, (only_setReg .lanes (by decide)).trans ((only_setReg .lanes (by decide)).trans (only_sets _ .lanes (by decide)))⟩
  obtain ⟨y, hy⟩ := hlanes
  rw [lane_congr hy]
  by_cases hk : k = l
  · rw [hk, lane_setLane_same]
  · rw [lane_setLane_ne hk]

theorem heard_goodRun (e : EqSet) (k : Nat) : ((heard s p m l e).lane k).goodRun = (s.lane k).goodRun := by
  have hsets : ∀ x : Nat, (s.sets [(LANE_STATUS_SIG_DET l, 1), (LANE_STATUS_CDR_LOCK l, 1)]).lane x = s.lane x := lane_congr (only_sets _ .lanes (by decide))
  unfold heard
  dsimp only
  split
  · rw [trainEq_goodRun, hsets]
  · rw [hsets]

/-! ## A marker as the lane takes it (R117) -/

theorem readTm_congr (h : t.fld (PORT_LINK_CFG_RATE (l / 8)) = s.fld (PORT_LINK_CFG_RATE (l / 8))) (h' : t.fld (LANE_STATUS_INVERTED l) = s.fld (LANE_STATUS_INVERTED l))
    (h'' : (t.lane l).goodRun = (s.lane l).goodRun) : t.readTm l raw = s.readTm l raw := by
  rw [State.readTm, State.readTm, State.on, State.on, h, h', h'']

/-- A block of markers goes out meanwhile while the link trains or retrains. -/
def blockSent (u : State) (p m l : Nat) : State := if (1 ≤ u.lst p m && decide (u.lst p m ≤ 3)) || u.lst p m == 7 then u.sendBlock p m l else u

theorem blockSent_regs : (blockSent u p m l).regs = u.regs := by
  unfold blockSent
  split <;> rfl

theorem blockSent_goodRun (k : Nat) : ((blockSent u p m l).lane k).goodRun = (u.lane k).goodRun := by
  unfold blockSent
  split
  · exact (sendBlock_lane l k).goodRun
  · rfl

theorem only_blockSent : only [.lanes] u (blockSent u p m l) := by
  unfold blockSent
  split
  · exact only_sendBlock
  · exact only_refl _ _

theorem tmReceived_takes {lane : BitVec 8} {eq : EqSet} (hlive : s.live = true) (hs : s.sleep < 2) (hn : lane.toNat / 8 < s.nPorts) (hp : p = lane.toNat / 8)
    (hm : m = lane.toNat % 8 / s.linkW p) (h : 1 ≤ s.lst p m) (h' : s.lst p m ≤ 3) :
    exec (.tmReceived lane { raw := raw, eq := eq }) s = .next (blockSent ((heard s p m lane.toNat eq).takeMarker p m lane.toNat raw) p m lane.toNat) := by
  subst hp hm
  have hdown : s.lst (lane.toNat / 8) (lane.toNat % 8 / s.linkW (lane.toNat / 8)) ≠ 0 := by omega
  have hl2 : decide (s.lst (lane.toNat / 8) (lane.toNat % 8 / s.linkW (lane.toNat / 8)) = 6) = false := decide_eq_false (by omega)
  show execTmReceived lane _ s = _
  unfold execTmReceived
  dsimp only
  rw [if_neg (by simp [hlive, hdown, hs, hn])]
  simp only [hl2, Bool.false_and, Bool.false_eq_true, if_false]
  rfl

/-- A marker that does not read breaks the run of a lane out of lock. -/
theorem takeMarker_unread (h : s.readTm l raw = none) (hlock : s.fld (LANE_STATUS_MARKER_LOCK l) = 0) :
    ∃ miss, s.takeMarker p m l raw = s.setLane l { s.lane l with missRun := miss, goodRun := 0, stable := 0, lockRun := 0 } := by
  have hoff : s.on (LANE_STATUS_MARKER_LOCK l) = false := by simp [State.on, hlock]
  exact ⟨min 2 ((s.lane l).missRun + 1), by simp [State.takeMarker, h, hoff]⟩

/-- A lane counts a marker that reads. -/
def counted (s : State) (l run : Nat) (inv : Bool) : State := (s.setLane l { s.lane l with goodRun := run, missRun := 0 }).set (LANE_STATUS_INVERTED l) (b2n inv)

theorem takeMarker_counts (h : s.readTm l raw = some (b, inv)) (hlock : s.fld (LANE_STATUS_MARKER_LOCK l) = 0) (hin : inService (s.lst p m) = false)
    (hrun : (s.lane l).goodRun < 3) : s.takeMarker p m l raw = counted s l ((s.lane l).goodRun + 1) inv := by
  have hoff : s.on (LANE_STATUS_MARKER_LOCK l) = false := by simp [State.on, hlock]
  have hmin : min 4 ((s.lane l).goodRun + 1) = (s.lane l).goodRun + 1 := by omega
  simp [State.takeMarker, h, hoff, hin, hmin, show (s.lane l).goodRun + 1 < 4 by omega, counted]

/-- A lane in lock shows it, with the logical lane that its marker names. -/
def locked (s : State) (p m l : Nat) (b : List (BitVec 8)) : State :=
  (s.sets [(LANE_STATUS_MARKER_LOCK l, 1), (LANE_STATUS_LOGICAL l, byteAt b 5 % 8)]).maskBit p m (byteAt b 5 % 8) true

theorem maskBit_regs (lg : Nat) (on : Bool) : (s.maskBit p m lg on).regs = s.regs := by
  unfold State.maskBit
  dsimp only
  split
  · rfl
  · exact each_keeps (P := fun x => x.regs = s.regs) rfl fun _ _ hx => hx

theorem takeMarker_locks (h : s.readTm l raw = some (b, inv)) (hin : inService (s.lst p m) = false) (hrun : 3 ≤ (s.lane l).goodRun)
    (hpin : inService ((locked (counted s l 4 inv) p m l b).lst p m) = false) :
    s.takeMarker p m l raw = ((locked (counted s l 4 inv) p m l b).recordPartner p m b).trainMarker p m l b := by
  have hmin : min 4 ((s.lane l).goodRun + 1) = 4 := by omega
  unfold State.takeMarker
  simp only [h, hmin, hin, Bool.false_and, Bool.false_eq_true, if_false]
  exact (if_neg (by simp)).trans ((if_pos (congrArg Bool.not hpin)).trans rfl)

/-! ## What the rest of training leaves (Table 6.5 steps 4 to 7) -/

/-- A field that neither the status of link `m` of port `p`, nor the use of the lanes, nor a count of packets shows. -/
def restsInTraining (p m : Nat) (g : Fld) : Prop :=
  g.off ≠ (PORT_LINK_STATUS p m).off ∧ (∀ x, Apart g (LANE_STATUS_IN_USE x)) ∧ (∀ x, g.off ≠ (BST_LANE_RESULT_VALID x).off) ∧ ¬ packetReg g.off

variable {g : Fld}

theorem unstable_regs : (s.unstable p m).regs = s.regs := each_keeps (P := fun x => x.regs = s.regs) rfl fun _ _ hx => hx

theorem sendAm_regs : (s.sendAm p m).regs = s.regs := each_keeps (P := fun x => x.regs = s.regs) rfl fun _ _ hx => hx

theorem enterL0_rests (hg : restsInTraining p m g) : (s.enterL0 p m).fld g = s.fld g := by
  obtain ⟨hstatus, huse, hres, hpk⟩ := hg
  have hset : ∀ (x : State) (f : Fld) (v : Nat), f.off = (PORT_LINK_STATUS p m).off → (x.set f v).fld g = x.fld g := fun x f v hf => fld_set_ne x (hf ▸ hstatus) v
  unfold State.enterL0
  extract_lets t1 t2 l ll t3 act t4 t5 t6
  rw [sends_reroute.fld hpk, fld_congr sendAm_regs]
  have h4 : t4.fld g = t3.fld g := each_apart (φ := fun x => x.fld g) fun _ n _ => fld_set_apart (by simp [Proper, LANE_STATUS_IN_USE]) (huse n)
  have h5 : t5.fld g = t4.fld g := each_apart (φ := fun x => x.fld g) fun _ _ _ => fld_congr rfl g
  have h6 : t6.fld g = t5.fld g := each_apart (φ := fun x => x.fld g) fun _ n _ => fld_set_ne _ (hres n) _
  rw [h6, h5, h4, show t3.fld g = t2.fld g from fld_congr (setLink_regs _ _ _ _) g, show t2.fld g = t1.fld g from hset t1 (PORT_LINK_STATUS_REASON p m) 0 rfl]
  exact hset s (PORT_LINK_STATUS_STATE p m) 4 rfl

theorem trainMarker_rests (hg : restsInTraining p m g) : (s.trainMarker p m l b).fld g = s.fld g := by
  have hset : ∀ (x : State) (f : Fld) (v : Nat), f.off = (PORT_LINK_STATUS p m).off → (x.set f v).fld g = x.fld g := fun x f v hf => fld_set_ne x (hf ▸ hg.1) v
  unfold State.trainMarker
  extract_lets typ s1 peer k s2 x run s3 lk s4 s5
  have h1 : s1.fld g = s.fld g := by
    unfold s1
    split
    · exact (hset _ (PORT_LINK_STATUS_REASON p m) 0 rfl).trans (hset _ (PORT_LINK_STATUS_STATE p m) 2 rfl)
    · rfl
  clear_value s1
  have h2 : s2.fld g = s1.fld g := by
    unfold s2
    split
    · rfl
    · exact (fld_congr unstable_regs g).trans (fld_congr (setLink_regs _ _ _ _) g)
  clear_value s2
  have h3 : s3.fld g = s.fld g := (fld_congr (setLane_regs _ _ _) g).trans (h2.trans h1)
  clear_value s3
  split
  · exact (hset _ (PORT_LINK_STATUS_STATE p m) 2 rfl).trans ((fld_congr unstable_regs g).trans ((fld_congr (setLink_regs _ _ _ _) g).trans h3))
  · have h4 : s4.fld g = s.fld g := by
      unfold s4
      split
      · exact (fld_congr (setLink_regs _ _ _ _) g).trans h3
      · exact h3
    clear_value s4
    have h5 : s5.fld g = s.fld g := by
      unfold s5
      split
      · split
        · exact (hset s4 (PORT_LINK_STATUS_REASON p m) _ rfl).trans h4
        · exact (hset _ (PORT_LINK_STATUS_STATE p m) _ rfl).trans <| (hset _ (PORT_LINK_STATUS_REASON p m) _ rfl).trans <| (hset _ (PORT_LINK_STATUS_REVERSED p m) _ rfl).trans <|
            (hset _ (PORT_LINK_STATUS_ACTIVE_MASK p m) _ rfl).trans <| (hset _ (PORT_LINK_STATUS_WIDTH p m) _ rfl).trans h4
      · exact h4
    clear_value s5
    split
    · exact (enterL0_rests hg).trans h5
    · exact h5

/-- The partner that a marker names is recorded (Table 6.8). -/
theorem recordPartner_fields :
    (s.recordPartner p m b).fld (PORT_NEIGH_ID_VALID p m) = 1 ∧ (s.recordPartner p m b).fld (PORT_NEIGH_ID_DID p m) = leAt b 8 2 % 4096
      ∧ (s.recordPartner p m b).fld (PORT_NEIGH_ID_PORT p m) = byteAt b 7 % 32 := by
  refine ⟨fld_sets_reads [] ?_ ?_ ?_, fld_sets_reads [_, _, _, _, _, _] ?_ ?_ ?_, fld_sets_reads [_, _, _, _, _] ?_ ?_ ?_⟩
  all_goals simp [Proper, Apart, PORT_NEIGH_ID_VALID, PORT_NEIGH_ID_KIND, PORT_NEIGH_ID_ROLE, PORT_NEIGH_ID_LINK, PORT_NEIGH_ID_ECHO_OK, PORT_NEIGH_ID_PORT, PORT_NEIGH_ID_DID]
  all_goals exact Nat.mod_lt _ (by decide)

theorem recordPartner_apart (h : g.off ≠ (PORT_NEIGH_ID p m).off) : (s.recordPartner p m b).fld g = s.fld g := by
  refine (fld_sets_apart ?_).trans (fld_congr (setLink_regs _ _ _ _) g)
  simp only [List.mem_cons, List.not_mem_nil, or_false]
  rintro x (rfl | rfl | rfl | rfl | rfl | rfl | rfl) <;> exact ⟨by simp [Proper, PORT_NEIGH_ID_VALID, PORT_NEIGH_ID_KIND, PORT_NEIGH_ID_ROLE, PORT_NEIGH_ID_LINK, PORT_NEIGH_ID_ECHO_OK, PORT_NEIGH_ID_PORT, PORT_NEIGH_ID_DID], .inl h⟩

/-! ## A lane that loses lock (R117, R125) -/

/-- A lane that drops out of RXMASK has lost its lock. -/
structure Drops (p m l : Nat) (s t : State) : Prop where
  lock : t.fld (LANE_STATUS_MARKER_LOCK l) = 0
  mask : (t.link p m).rxMask = BitVec.ofNat 8 (putBit (s.link p m).rxMask.toNat (s.fld (LANE_STATUS_LOGICAL l)) false)
  state : t.lst p m = s.lst p m
  parts : only [.links, .lanes, .regs] s t

theorem dropLane_drops (_ : p < 32) (_ : m < 8) : Drops p m l s (s.dropLane p m l) := by
  unfold State.dropLane
  extract_lets k lg y
  have hregs : y.regs = s.regs := setLink_regs _ _ _ _
  have hlink : (y.link p m).rxMask = BitVec.ofNat 8 (putBit k.rxMask.toNat lg false) := congrArg Link.rxMask (link_setLink_same _)
  have hparts : only [.links, .lanes, .regs] s y := only_mono (by simp) (only_setLink p m _)
  clear_value y
  refine ⟨?_, ?_, ?_, ?_⟩
  · exact (fld_congr (setLane_regs _ _ _) _).trans (fld_set_fits (f := LANE_STATUS_MARKER_LOCK l) (by simp [LANE_STATUS_MARKER_LOCK]) (by simp [LANE_STATUS_MARKER_LOCK]) (by simp [LANE_STATUS_MARKER_LOCK]))
  · rw [link_congr (only_setLane _ _ .links (by decide)), link_congr (only_set _ _ .links (by decide)), hlink]
  · refine (fld_congr (setLane_regs _ _ _) _).trans ((fld_set_ne _ ?_ _).trans (fld_congr hregs _))
    simp only [LANE_STATUS_MARKER_LOCK, PORT_LINK_STATUS_STATE]
    omega
  · exact only_trans hparts (only_trans (only_mono (by simp) (only_set _ _)) (only_mono (by simp) (only_setLane l _)))

/-- A retrain keeps which lanes have lock, and RXMASK. -/
theorem retrain_drops (_ : p < 32) (hm : m < 8) (hin : s.lst p m = 4) :
    (s.retrain p m).fld (LANE_STATUS_MARKER_LOCK l) = s.fld (LANE_STATUS_MARKER_LOCK l) ∧ ((s.retrain p m).link p m).rxMask = (s.link p m).rxMask := by
  unfold State.retrain
  rw [if_pos (.inl hin)]
  extract_lets a k b
  have ha : a.fld (LANE_STATUS_MARKER_LOCK l) = s.fld (LANE_STATUS_MARKER_LOCK l) :=
    each_apart (φ := fun x => x.fld (LANE_STATUS_MARKER_LOCK l)) fun _ n _ => (fld_congr (setLane_regs _ _ _) _).trans
      (fld_set_ne _ (by simp only [LANE_STATUS_MARKER_LOCK, LANE_EYE_STALE]; omega) _)
  have hl : a.links = s.links := each_apart (φ := fun x => x.links) fun _ _ _ => (only_setLane _ _ .links (by decide)).trans (only_set _ _ .links (by decide))
  clear_value a
  refine ⟨(fld_congr sendBlocks_regs _).trans ?_, ?_⟩
  · refine (fld_set_ne _ ?_ _).trans ((fld_inc_ne ?_).trans ((fld_congr (setLink_regs _ _ _ _) _).trans ha))
    · simp only [LANE_STATUS_MARKER_LOCK, PORT_LINK_STATUS_STATE]; omega
    · simp only [LANE_STATUS_MARKER_LOCK, PORT_RETRAINS]; omega
  · rw [link_congr (only_sendBlocks .links (by decide))]
    unfold b
    rw [link_congr (only_set _ _ .links (by decide)), link_congr (only_inc .links (by decide)), link_setLink_same]
    show (a.link p m).rxMask = (s.link p m).rxMask
    rw [link_congr hl]

theorem markerLockLoss_drops {lane : BitVec 8} (hlive : s.live = true) (hn : lane.toNat / 8 < s.nPorts) (hp : p = lane.toNat / 8) (hm : m = lane.toNat % 8 / s.linkW p)
    (hlock : s.fld (LANE_STATUS_MARKER_LOCK lane.toNat) = 1) (huse : s.lst p m = 4 → s.fld (LANE_STATUS_IN_USE lane.toNat) = 1) :
    ∃ t, exec (.markerLockLoss lane) s = .next t ∧ t.fld (LANE_STATUS_MARKER_LOCK lane.toNat) = 0 ∧ t.lst p m = (if s.lst p m = 4 then 7 else s.lst p m)
      ∧ (t.link p m).rxMask = BitVec.ofNat 8 (putBit (s.link p m).rxMask.toNat (s.fld (LANE_STATUS_LOGICAL lane.toNat)) false) ∧ only [.links, .lanes, .regs] s t := by
  have hp32 : p < 32 := by have := lane.isLt; omega
  have hm8 : m < 8 := hm ▸ linkIx_lt _ _
  obtain ⟨hl, hmask, hstate, hparts⟩ := dropLane_drops (s := s) (l := lane.toNat) hp32 hm8
  have hgo : (!s.live || !s.on (LANE_STATUS_MARKER_LOCK lane.toNat) || decide (s.nPorts ≤ lane.toNat / 8)) = false := by simp [hlive, State.on, hlock, hn]
  have hexec : exec (.markerLockLoss lane) s = .next (if s.lst p m = 4 then (s.dropLane p m lane.toNat).retrain p m else (s.dropLane p m lane.toNat).unstable p m) := by
    show execMarkerLockLoss lane s = _
    unfold execMarkerLockLoss State.laneFail
    dsimp only
    rw [hgo, if_neg Bool.false_ne_true, ← hp, ← hm]
    by_cases h4 : s.lst p m = 4
    · simp [h4, State.on, huse h4]
    · simp [h4]
  refine ⟨_, hexec, ?_⟩
  by_cases h4 : s.lst p m = 4
  · rw [if_pos h4, if_pos h4]
    obtain ⟨hkept, hkept'⟩ := retrain_drops (l := lane.toNat) hp32 hm8 (hstate.trans h4)
    exact ⟨hkept.trans hl, retrain_state (.inl (hstate.trans h4)), hkept'.trans hmask, only_trans hparts (aside_retrain hm8).frame.parts⟩
  · rw [if_neg h4, if_neg h4]
    have hlanes : only [.lanes] (s.dropLane p m lane.toNat) ((s.dropLane p m lane.toNat).unstable p m) :=
      each_keeps (P := only [.lanes] (s.dropLane p m lane.toNat)) (only_refl _ _) fun _ _ hx => only_trans hx (only_setLane _ _)
    exact ⟨(fld_congr unstable_regs _).trans hl, (fld_congr unstable_regs _).trans hstate, by rw [link_congr (hlanes .links (by decide)), hmask], only_trans hparts (only_mono (by simp) hlanes)⟩

/-! ## Training as a whole -/

/-- What a signal and a block that goes out leave as they are. -/
theorem heard_lst (_ : p < 32) (_ : m < 8) (e : EqSet) : (heard s p m l e).lst p m = s.lst p m :=
  (listens_heard e).fld (by simp only [rxReg, LANE_STATUS, LANE_RX_EQ, LANE_DFE, PORT_LINK_STATUS_STATE, List.mem_cons, List.not_mem_nil, or_false]; omega)

theorem heard_readTm (_ : l / 8 < 32) (e : EqSet) : (heard s p m l e).readTm l raw = s.readTm l raw :=
  readTm_congr ((listens_heard e).fld (by simp only [rxReg, LANE_STATUS, LANE_RX_EQ, LANE_DFE, PORT_LINK_CFG_RATE, List.mem_cons, List.not_mem_nil, or_false]; omega))
    (heard_keeps (g := LANE_STATUS_INVERTED l) e rfl (by simp [LANE_STATUS_INVERTED])) (heard_goodRun e l)

theorem heard_lock (e : EqSet) : (heard s p m l e).fld (LANE_STATUS_MARKER_LOCK l) = s.fld (LANE_STATUS_MARKER_LOCK l) :=
  heard_keeps (g := LANE_STATUS_MARKER_LOCK l) e rfl (by simp [LANE_STATUS_MARKER_LOCK])

theorem blockSent_fld (f : Fld) : (blockSent u p m l).fld f = u.fld f := fld_congr blockSent_regs f

theorem training_outOfService (h' : s.lst p m ≤ 3) : inService (s.lst p m) = false := by
  simp only [inService, Bool.or_eq_false_iff, beq_eq_false_iff_ne]
  omega

theorem listens_regsBut (h : Listens l s t) : regsBut [(LANE_STATUS l).off, (LANE_RX_EQ l).off, (LANE_DFE l 0).off, (LANE_DFE l 1).off] s t := h.regsBut fun _ ho => ho

theorem listens_blockSent : Listens l u (blockSent u p m l) := .of_only only_blockSent (by simp) (by simp)

section
variable {lane : BitVec 8} {eq : EqSet} (hlive : s.live = true) (hs : s.sleep < 2) (hn : lane.toNat / 8 < s.nPorts) (hp : p = lane.toNat / 8) (hm : m = lane.toNat % 8 / s.linkW p)
  (h : 1 ≤ s.lst p m) (h' : s.lst p m ≤ 3)
include hlive hs hn hp hm h h'

theorem tmReceived_unread (hread : s.readTm lane.toNat raw = none) (hlock : s.fld (LANE_STATUS_MARKER_LOCK lane.toNat) = 0) :
    ∃ t, exec (.tmReceived lane { raw := raw, eq := eq }) s = .next t ∧ (t.lane lane.toNat).goodRun = 0 ∧ t.fld (LANE_STATUS_MARKER_LOCK lane.toNat) = 0
      ∧ t.fld (LANE_STATUS_SIG_DET lane.toNat) = 1
      ∧ regsBut [(LANE_STATUS lane.toNat).off, (LANE_RX_EQ lane.toNat).off, (LANE_DFE lane.toNat 0).off, (LANE_DFE lane.toNat 1).off] s t ∧ only [.lanes, .regs] s t := by
  have hl8 : lane.toNat / 8 < 32 := by have := lane.isLt; omega
  have hlock' := (heard_lock (p := p) (m := m) eq).trans hlock
  obtain ⟨miss, htake⟩ := takeMarker_unread (p := p) (m := m) ((heard_readTm hl8 eq).trans hread) hlock'
  have hframe := ((listens_heard (p := p) (m := m) (s := s) eq).trans (listens_setLane (l := lane.toNat) lane.toNat
    { (heard s p m lane.toNat eq).lane lane.toNat with missRun := miss, goodRun := 0, stable := 0, lockRun := 0 })).trans (listens_blockSent (p := p) (m := m))
  refine ⟨_, tmReceived_takes hlive hs hn hp hm h h', ?_⟩
  rw [htake]
  refine ⟨?_, ?_, ?_, listens_regsBut hframe, hframe.parts⟩
  · rw [blockSent_goodRun, lane_setLane_same]
  · exact (blockSent_fld _).trans ((fld_congr (setLane_regs _ _ _) _).trans hlock')
  · exact (blockSent_fld _).trans ((fld_congr (setLane_regs _ _ _) _).trans (heard_signal eq))

theorem tmReceived_counts (hread : s.readTm lane.toNat raw = some (b, inv)) (hlock : s.fld (LANE_STATUS_MARKER_LOCK lane.toNat) = 0) (hrun : (s.lane lane.toNat).goodRun < 3) :
    ∃ t, exec (.tmReceived lane { raw := raw, eq := eq }) s = .next t ∧ (t.lane lane.toNat).goodRun = (s.lane lane.toNat).goodRun + 1
      ∧ t.fld (LANE_STATUS_MARKER_LOCK lane.toNat) = 0 ∧ t.fld (LANE_STATUS_INVERTED lane.toNat) = b2n inv
      ∧ regsBut [(LANE_STATUS lane.toNat).off, (LANE_RX_EQ lane.toNat).off, (LANE_DFE lane.toNat 0).off, (LANE_DFE lane.toNat 1).off] s t ∧ only [.lanes, .regs] s t := by
  have hl8 : lane.toNat / 8 < 32 := by have := lane.isLt; omega
  have hlock' := (heard_lock (p := p) (m := m) eq).trans hlock
  have hgood := heard_goodRun (s := s) (p := p) (m := m) (l := lane.toNat) eq lane.toNat
  have htake := takeMarker_counts (p := p) (m := m) ((heard_readTm hl8 eq).trans hread) hlock' (by rw [heard_lst (hp ▸ hl8) (hm ▸ linkIx_lt _ _)]; exact training_outOfService h') (hgood.symm ▸ hrun)
  have hframe := ((listens_heard (p := p) (m := m) (s := s) eq).trans ((listens_setLane (l := lane.toNat) lane.toNat
    { (heard s p m lane.toNat eq).lane lane.toNat with goodRun := ((heard s p m lane.toNat eq).lane lane.toNat).goodRun + 1, missRun := 0 }).trans
      (listens_status (f := LANE_STATUS_INVERTED lane.toNat) (v := b2n inv) rfl))).trans (listens_blockSent (p := p) (m := m))
  refine ⟨_, tmReceived_takes hlive hs hn hp hm h h', ?_⟩
  rw [htake, counted]
  refine ⟨?_, ?_, ?_, listens_regsBut hframe, hframe.parts⟩
  · rw [blockSent_goodRun, lane_congr (only_set _ _ .lanes (by decide)), lane_setLane_same, hgood]
  · refine (blockSent_fld _).trans ((fld_set_apart (f := LANE_STATUS_INVERTED lane.toNat) ?_ ?_).trans ((fld_congr (setLane_regs _ _ _) _).trans hlock'))
    · simp [Proper, LANE_STATUS_INVERTED]
    · simp [Apart, LANE_STATUS_INVERTED, LANE_STATUS_MARKER_LOCK]
  · exact (blockSent_fld _).trans (fld_set_fits (f := LANE_STATUS_INVERTED lane.toNat) (by simp [LANE_STATUS_INVERTED]) (by simp [LANE_STATUS_INVERTED]) (by cases inv <;> simp [LANE_STATUS_INVERTED, b2n]))

theorem tmReceived_locks (hread : s.readTm lane.toNat raw = some (b, inv)) (hrun : 3 ≤ (s.lane lane.toNat).goodRun) :
    ∃ x, exec (.tmReceived lane { raw := raw, eq := eq }) s = .next (blockSent (((locked x p m lane.toNat b).recordPartner p m b).trainMarker p m lane.toNat b) p m lane.toNat) := by
  have hl8 : lane.toNat / 8 < 32 := by have := lane.isLt; omega
  have hp32 : p < 32 := hp ▸ hl8
  have hm8 : m < 8 := hm ▸ linkIx_lt _ _
  have hgood := heard_goodRun (s := s) (p := p) (m := m) (l := lane.toNat) eq lane.toNat
  have hlst := heard_lst (s := s) (l := lane.toNat) hp32 hm8 eq
  have hread' := (heard_readTm (s := s) (p := p) (m := m) (raw := raw) hl8 eq).trans hread
  have hstate : ∀ y : State, (locked (counted y lane.toNat 4 inv) p m lane.toNat b).lst p m = y.lst p m := fun y => by
    refine (fld_congr (maskBit_regs _ _) _).trans ((fld_sets_apart ?_).trans ((fld_set_ne _ ?_ _).trans (fld_congr (setLane_regs _ _ _) _)))
    · simp only [List.mem_cons, List.not_mem_nil, or_false]
      rintro y (rfl | rfl) <;> simp only [Proper, Apart, LANE_STATUS_MARKER_LOCK, LANE_STATUS_LOGICAL, PORT_LINK_STATUS_STATE] <;> omega
    · simp only [LANE_STATUS_INVERTED, PORT_LINK_STATUS_STATE]; omega
  have hout : ∀ y : State, y.lst p m = s.lst p m → inService (y.lst p m) = false := fun y hy => by rw [hy]; exact training_outOfService h'
  refine ⟨counted (heard s p m lane.toNat eq) lane.toNat 4 inv, (tmReceived_takes hlive hs hn hp hm h h').trans ?_⟩
  rw [takeMarker_locks hread' (hout _ hlst) (hgood.symm ▸ hrun) (hout _ ((hstate _).trans hlst))]

omit hlive hs hn h h' in
/-- What shows after a marker in lock. -/
theorem locked_shows (x : State) :
    ∀ t, blockSent (((locked x p m lane.toNat b).recordPartner p m b).trainMarker p m lane.toNat b) p m lane.toNat = t →
      t.fld (LANE_STATUS_MARKER_LOCK lane.toNat) = 1 ∧ t.fld (LANE_STATUS_LOGICAL lane.toNat) = byteAt b 5 % 8
      ∧ t.fld (PORT_NEIGH_ID_VALID p m) = 1 ∧ t.fld (PORT_NEIGH_ID_DID p m) = leAt b 8 2 % 4096 ∧ t.fld (PORT_NEIGH_ID_PORT p m) = byteAt b 7 % 32 := by
  have hp32 : p < 32 := by have := lane.isLt; omega
  have hm8 : m < 8 := hm ▸ linkIx_lt _ _
  obtain ⟨hlock, hlogical⟩ : (locked x p m lane.toNat b).fld (LANE_STATUS_MARKER_LOCK lane.toNat) = 1 ∧ (locked x p m lane.toNat b).fld (LANE_STATUS_LOGICAL lane.toNat) = byteAt b 5 % 8 := by
    refine ⟨(fld_congr (maskBit_regs _ _) _).trans (fld_sets_reads [] ?_ ?_ ?_), (fld_congr (maskBit_regs _ _) _).trans (fld_sets_reads [_] ?_ ?_ ?_)⟩
    all_goals simp [Proper, Apart, LANE_STATUS_MARKER_LOCK, LANE_STATUS_LOGICAL]
    exact Nat.mod_lt _ (by decide)
  generalize locked x p m lane.toNat b = y at *
  rintro t rfl
  have hrests : ∀ g : Fld, restsInTraining p m g → (blockSent ((y.recordPartner p m b).trainMarker p m lane.toNat b) p m lane.toNat).fld g = (y.recordPartner p m b).fld g :=
    fun g hg => (blockSent_fld g).trans (trainMarker_rests hg)
  have hlane : ∀ g : Fld, g.off = (LANE_STATUS lane.toNat).off → Apart g (LANE_STATUS_IN_USE lane.toNat) → restsInTraining p m g := by
    intro g hoff hbits
    refine ⟨?_, fun n => ?_, fun n => ?_, ?_⟩
    · rw [hoff]; simp only [LANE_STATUS, PORT_LINK_STATUS]; omega
    · by_cases hnl : n = lane.toNat
      · exact hnl ▸ hbits
      · exact .inl (by rw [hoff]; simp only [LANE_STATUS, LANE_STATUS_IN_USE]; omega)
    · rw [hoff]; simp only [LANE_STATUS, BST_LANE_RESULT_VALID]; have := lane.isLt; omega
    · rw [hoff]; simp only [packetReg, LANE_STATUS, RT_UNREACH, RT_CNT_VIOL_ROUTE, RT_HOPS_EXCEEDED, GLB_CNT_VIOL_MALFORMED, RT_WAIT_EXPIRED, RT_DROP]; omega
  have hneigh : ∀ g : Fld, g.off = (PORT_NEIGH_ID p m).off → restsInTraining p m g := by
    intro g hoff
    refine ⟨?_, fun n => .inl ?_, fun n => ?_, ?_⟩
    · rw [hoff]; simp only [PORT_NEIGH_ID, PORT_LINK_STATUS]; omega
    · rw [hoff]; simp only [PORT_NEIGH_ID, LANE_STATUS_IN_USE]; omega
    · rw [hoff]; simp only [PORT_NEIGH_ID, BST_LANE_RESULT_VALID]; omega
    · rw [hoff]; simp only [packetReg, PORT_NEIGH_ID, RT_UNREACH, RT_CNT_VIOL_ROUTE, RT_HOPS_EXCEEDED, GLB_CNT_VIOL_MALFORMED, RT_WAIT_EXPIRED, RT_DROP]; omega
  have hapart : ∀ g : Fld, g.off = (LANE_STATUS lane.toNat).off → g.off ≠ (PORT_NEIGH_ID p m).off := fun g hoff => by
    rw [hoff]; simp only [PORT_NEIGH_ID, LANE_STATUS]; omega
  obtain ⟨hvalid, hdid, hport⟩ := recordPartner_fields (s := y) (p := p) (m := m) (b := b)
  refine ⟨(hrests _ (hlane (LANE_STATUS_MARKER_LOCK lane.toNat) rfl ?_)).trans ((recordPartner_apart (hapart (LANE_STATUS_MARKER_LOCK lane.toNat) rfl)).trans hlock),
    (hrests _ (hlane (LANE_STATUS_LOGICAL lane.toNat) rfl ?_)).trans ((recordPartner_apart (hapart (LANE_STATUS_LOGICAL lane.toNat) rfl)).trans hlogical),
    (hrests _ (hneigh (PORT_NEIGH_ID_VALID p m) rfl)).trans hvalid, (hrests _ (hneigh (PORT_NEIGH_ID_DID p m) rfl)).trans hdid,
    (hrests _ (hneigh (PORT_NEIGH_ID_PORT p m) rfl)).trans hport⟩
  all_goals simp [Apart, LANE_STATUS_MARKER_LOCK, LANE_STATUS_LOGICAL, LANE_STATUS_IN_USE]

theorem tmReceived_records (hread : s.readTm lane.toNat raw = some (b, inv)) (hrun : 3 ≤ (s.lane lane.toNat).goodRun) :
    ∃ t, exec (.tmReceived lane { raw := raw, eq := eq }) s = .next t ∧ t.fld (LANE_STATUS_MARKER_LOCK lane.toNat) = 1
      ∧ t.fld (LANE_STATUS_LOGICAL lane.toNat) = byteAt b 5 % 8
      ∧ t.fld (PORT_NEIGH_ID_VALID p m) = 1 ∧ t.fld (PORT_NEIGH_ID_DID p m) = leAt b 8 2 % 4096 ∧ t.fld (PORT_NEIGH_ID_PORT p m) = byteAt b 7 % 32 := by
  obtain ⟨x, hexec⟩ := tmReceived_locks hlive hs hn hp hm h h' hread hrun
  exact ⟨_, hexec, locked_shows hp hm x _ rfl⟩

end

/-- Settles O22, from what step 1 leaves, from what a marker does in training, and from the loss of a lane. -/
theorem linkTraining : Obligations.LinkTraining := by
  intro port link s
  have hp : port.toNat < 32 := port.isLt
  refine ⟨fun hlive hn hok h0 => ⟨_, if_pos (by simp [hlive, hn, hok, h0]), ?_⟩, trainTimeout_restarts, fun h6 hs hok => ⟨_, if_pos (by simp [h6, hs, hok]), ?_⟩,
    fun lane raw b eq inv hlive hs hn hpl hm => ⟨tmReceived_unread hlive hs hn hpl hm, tmReceived_counts hlive hs hn hpl hm, tmReceived_records hlive hs hn hpl hm,
      markerLockLoss_drops hlive hn hpl hm⟩⟩
  · obtain ⟨hstate, hwidth, hmask, hrev, hlink, hlanes, hothers, hparts⟩ := startLink_starts (s := s) (m := link.toNat) hp
    have hset : ∀ f : Fld, f.off = (PORT_LINK_STATUS port.toNat link.toNat).off → f.hi < 12 ∨ 15 < f.lo →
        ((s.startLink port.toNat link.toNat).set (PORT_LINK_STATUS_REASON port.toNat link.toNat) 0).fld f = (s.startLink port.toNat link.toNat).fld f := fun f _ hb =>
      fld_set_apart (f := PORT_LINK_STATUS_REASON port.toNat link.toNat) (by simp [Proper, PORT_LINK_STATUS_REASON]) (.inr hb.symm)
    refine ⟨(hset (PORT_LINK_STATUS_STATE port.toNat link.toNat) rfl (by simp [PORT_LINK_STATUS_STATE])).trans hstate, fld_set_fits (f := PORT_LINK_STATUS_REASON port.toNat link.toNat) (by simp [PORT_LINK_STATUS_REASON]) (by simp [PORT_LINK_STATUS_REASON]) (by simp [PORT_LINK_STATUS_REASON]),
      (hset (PORT_LINK_STATUS_WIDTH port.toNat link.toNat) rfl (by simp [PORT_LINK_STATUS_WIDTH])).trans hwidth, (hset (PORT_LINK_STATUS_ACTIVE_MASK port.toNat link.toNat) rfl (by simp [PORT_LINK_STATUS_ACTIVE_MASK])).trans hmask,
      (hset (PORT_LINK_STATUS_REVERSED port.toNat link.toNat) rfl (by simp [PORT_LINK_STATUS_REVERSED])).trans hrev, ?_, fun n hl => ?_, fun n hl => ?_, only_trans hparts (only_mono (by simp) (only_set _ _))⟩
    · rw [link_congr (only_set _ _ .links (by decide)), hlink]
    · rw [lane_congr (only_set _ _ .lanes (by decide))]
      exact hlanes n hl
    · rw [lane_congr (only_set _ _ .lanes (by decide))]
      exact hothers n hl
  · have hstarts := startLink_starts (s := s.setLink port.toNat link.toNat { s.link port.toNat link.toNat with resume := true }) (m := link.toNat) hp
    refine ⟨hstarts.state, ?_, only_trans (only_mono (by simp) (only_setLink _ _ _)) hstarts.parts⟩
    rw [State.leaveL2, hstarts.link, link_setLink_same]
    rfl

end Sys2Proof.Proofs
end

section
/-! SUPPORT. Power states (R80 to R85): what a write of GLB_PWR_CTL asks for, the entry to S2 and S3, S1, and the wakes. -/

namespace Sys2Proof.Proofs

set_option Elab.async false

open Sys2Proof.Machine Sys2Proof.Laws

variable {s t : State} {via : Path} {q v : Nat}

/-! ## The word of GLB_PWR_CTL -/

theorem idle_lt (s : State) : s.fld GLB_PWR_CTL_IDLE_US < 2 ^ 16 := fld_lt s GLB_PWR_CTL_IDLE_US

/-- IDLE_US as it stands, with a request in the low half. -/
def pwrWord (s : State) (q : Nat) : Nat := s.fld GLB_PWR_CTL_IDLE_US * 2 ^ 16 + q

theorem pwrWord_idle (_ : q < 2 ^ 16) : bitsOf (pwrWord s q) 31 16 = s.fld GLB_PWR_CTL_IDLE_US := by
  have := idle_lt s
  unfold bitsOf pwrWord
  omega

theorem pwrWord_request (_ : q < 2 ^ 16) : bitsOf (pwrWord s q) 1 0 = q % 4 := by
  unfold bitsOf pwrWord
  omega

theorem pwrWord_wake (hq : q < 2 ^ 16) : bitAt (pwrWord s q) 8 = bitAt q 8 := by
  rw [bitAt, pwrWord, Nat.mul_comm, Nat.testBit_two_pow_mul_add _ hq, if_pos (by decide), bitAt]

theorem descOf_GLB_PWR_CTL : (descOf GLB_PWR_CTL.off).any (fun d => fieldMask d == 0xFFFF0103 && !writesNothing GLB_PWR_CTL.off d && !allRwl d) = true := by decide +kernel

/-- A request with no reserved bit is a legal word, after GLB_LOCK too. -/
theorem pwrWord_legal (hq : q &&& 0x103 = q) : s.legal GLB_PWR_CTL.off (pwrWord s q) = true := by
  have hq16 : q < 2 ^ 16 := lt_of_le_of_lt (hq ▸ Nat.and_le_right) (by decide : 0x103 < 2 ^ 16)
  have hmask : pwrWord s q &&& 0xFFFF0103 = pwrWord s q := by
    rw [pwrWord, Nat.mul_comm, show 0xFFFF0103 = 2 ^ 16 * (2 ^ 16 - 1) + 0x103 by decide, mul_add_and hq16 (by decide), Nat.and_two_pow_sub_one_of_lt_two_pow (idle_lt s), hq]
  obtain ⟨d, hd, hp⟩ := (Option.any_eq_true _ _).1 descOf_GLB_PWR_CTL
  simp only [Bool.and_eq_true, beq_iff_eq, Bool.not_eq_true'] at hp
  obtain ⟨⟨hm, hw⟩, hl⟩ := hp
  have hblk : blkOf GLB_PWR_CTL.off = some (.glb, 0x34) := rfl
  have hlocked : lockedOut GLB_PWR_CTL.off = false := by decide
  simp [State.legal, hblk, hd, hm, hmask, hw, hl, hlocked, State.rsvdValue, State.unitGone]

/-! ## Registers that a write leaves as they read -/

/-- A field that takes the value it holds. -/
theorem reg_set_own {f : Fld} (o : Nat) : (s.set f (s.fld f)).reg o = s.reg o := by
  by_cases ho : o = f.off
  · have hlt := reg_lt s f.off
    have hput : putBits (s.reg f.off) f.hi f.lo (s.fld f) = s.reg f.off := by
      rw [putBits, Nat.mod_eq_of_lt (fld_lt s f)]
      refine Nat.sub_add_cancel ?_
      unfold bitsOf
      exact (Nat.mul_le_mul_right _ (Nat.mod_le _ _)).trans (Nat.div_mul_le_self _ _)
    rw [ho, State.set, hput, reg_setReg_same, Nat.mod_eq_of_lt hlt]
  · exact reg_setReg_ne s ho _

/-- IDLE_US is stored as it stands. -/
def idleKept (s : State) : State := s.set GLB_PWR_CTL_IDLE_US (s.fld GLB_PWR_CTL_IDLE_US)

theorem reg_idleKept (o : Nat) : (idleKept s).reg o = s.reg o := reg_set_own o

theorem fld_idleKept (f : Fld) : (idleKept s).fld f = s.fld f := by rw [State.fld, State.fld, reg_idleKept]

theorem only_idleKept : only [.regs] s (idleKept s) := only_set _ _

theorem sleepRefused_idleKept : (idleKept s).sleepRefused = s.sleepRefused := by
  have hp := only_idleKept (s := s)
  have hrings : (idleKept s).rings = s.rings := hp .rings (by decide)
  have hunits : (idleKept s).unitResets = s.unitResets := hp .unitResets (by decide)
  have hchan : (idleKept s).chan = s.chan := hp .chan (by decide)
  have hfuse : (idleKept s).fuse = s.fuse := hp .fuse (by decide)
  simp only [State.sleepRefused, State.unfinished, State.pasrEven, State.parity, State.memCfg, State.nChans, State.variant, State.ringSt, State.ringK, State.ringF, State.ring, State.chn,
    fld_idleKept, reg_idleKept, hrings, hunits, hchan, hfuse]
  rfl

theorem dead_congr (hr : t.rails = s.rails) (hp : t.pins = s.pins) (hs : t.start = s.start) : t.dead = s.dead := by rw [State.dead, State.dead, hr, hp, hs]

theorem dead_idleKept : (idleKept s).dead = s.dead := dead_congr (only_idleKept .rails (by decide)) (only_idleKept .pins (by decide)) (only_idleKept .start (by decide))

/-! ## A state is asked for (R81 to R83) -/

theorem pwrCtlWrite_asks (hq : q = 1 ∨ q = 2 ∨ q = 3) (hlock : s.locked = false) (hready : s.ready = true) (hdead : s.dead = false) (hentry : s.pwr.entry = none) (hsleep : s.sleep < 2)
    (href : s.sleepRefused = false) :
    s.pwrCtlWrite via (pwrWord s q) = if q = 1 then (some stOK, (idleKept s).askS1) else (none, (idleKept s).startSleep q (.reg via) 0) := by
  have hq16 : q < 2 ^ 16 := by omega
  have hwake : bitAt (pwrWord s q) 8 = false := by
    rw [pwrWord_wake hq16]
    rcases hq with rfl | rfl | rfl <;> decide
  have hlock' : (idleKept s).locked = false := by rw [State.locked, fld_idleKept]; exact hlock
  have hready' : (idleKept s).ready = true := by rw [State.ready, State.phase, fld_idleKept]; exact hready
  have hsleep' : (idleKept s).sleep < 2 := by rw [State.sleep, fld_idleKept]; exact hsleep
  have hentry' : (idleKept s).pwr.entry = none := by rw [only_idleKept (s := s) .pwr (by decide)]; exact hentry
  have hq4 : q % 4 = q := by omega
  unfold State.pwrCtlWrite
  dsimp only
  rw [hwake, Bool.false_and, if_neg Bool.false_ne_true, hlock, if_neg Bool.false_ne_true, pwrWord_idle hq16, pwrWord_request hq16, hq4, ← idleKept,
    if_neg (by omega), if_neg (by simp [hlock', hready', dead_idleKept, hdead, hentry', hsleep', sleepRefused_idleKept, href])]

theorem applyWrite_pwr (d : RegDesc) : s.applyWrite via .glb GLB_PWR_CTL.off 0x34 v d = s.pwrCtlWrite via v := rfl

theorem pwr_noNote : GLB_PWR_CTL.off ≠ FLT_ACK.off ∧ GLB_PWR_CTL.off ≠ FLT_INJ.off ∧ GLB_PWR_CTL.off ≠ GLB_MEM_CFG.off := by decide

theorem reqStateS1_asks (ht : s.takes via .glb = true) (hlock : s.locked = false) (hready : s.ready = true) (hdead : s.dead = false) (hsleep : s.sleep < 2) (href : s.sleepRefused = false) :
    ∃ t, exec (.reqStateS1 via) s = .next t ∧ t.pwr = { s.pwr with s1Req := true } ∧ t.fld GLB_PWR_STATUS_TARGET = 1 ∧ t.sleep = s.sleep
      ∧ regsBut [GLB_PWR_STATUS.off] s t ∧ taken via [.pwr] s t := by
  obtain ⟨-, -, -, hcalm⟩ := takes_parts ht
  obtain ⟨hdue, hentry, hgrave⟩ := calm_iff.mp hcalm
  have hrule := pwrCtlWrite_asks (via := via) (.inl rfl) hlock hready hdead hentry hsleep href
  rw [if_pos rfl] at hrule
  have hpwr : ((idleKept s).askS1).pwr = { s.pwr with s1Req := true } := by
    rw [State.askS1, only_set _ _ .pwr (by decide)]
    show { (idleKept s).pwr with s1Req := true } = _
    rw [only_idleKept (s := s) .pwr (by decide)]
  have hparts : only [.regs, .pwr] s (idleKept s).askS1 :=
    only_trans (only_mono (by simp) only_idleKept) (only_trans (only_mono (by simp) (only_pwr _)) (only_mono (by simp) (only_set _ _)))
  have hregs : regsBut [GLB_PWR_STATUS.off] s (idleKept s).askS1 := fun o ho =>
    (regsBut_set (f := GLB_PWR_STATUS_TARGET) (l := [GLB_PWR_STATUS.off]) (by decide) o ho).trans ((reg_congr rfl o).trans (reg_idleKept o))
  have hcalm' : ((idleKept s).askS1).calm = s.calm := by
    rw [hcalm, calm_iff, hpwr, graveRec_congr (by rw [hparts .flt (by decide)])]
    exact ⟨hdue, hentry, hgrave⟩
  have hw := pathWrite_legal (via := via) (b := .glb) (o := 0x34) rfl (pwrWord_legal (s := s) (q := 1) (by decide)) ht pwr_noNote (fun d _ => (applyWrite_pwr d).trans hrule) hcalm'
  obtain ⟨hregs', htaken⟩ := pathStatus_frame (via := via) hregs (l := [.pwr]) hparts (by decide)
  refine ⟨_, congrArg Host.Outcome.next hw, (pathStatus_pwr _ _).trans hpwr, ?_, ?_, hregs', htaken⟩
  · rw [pathStatus_fld]
    exact fld_set_fits (f := GLB_PWR_STATUS_TARGET) (by decide) (by decide) (by decide)
  · rw [State.sleep, pathStatus_fld]
    exact (fld_set_apart (f := GLB_PWR_STATUS_TARGET) ⟨by decide, by decide⟩ (.inr (by decide))).trans ((fld_congr rfl _).trans (fld_idleKept _))

/-! ## An entry begins (R82) -/

/-- The entry to sleep that a write asks for. -/
def entryOf (via : Path) (target : Nat) (answered : Bool) : SleepEntry := { target := target, asker := .reg via, wakeHeld := none, answered := answered }

/-- The entry to sleep has begun, and its asker is owed the answer. -/
def entering (s : State) (via : Path) (target : Nat) : State :=
  { (idleKept s).startSleep target (.reg via) 0 with
    acc := { ((idleKept s).startSleep target (.reg via) 0).acc with owed := ((idleKept s).startSleep target (.reg via) 0).acc.owed ++ [{ off := GLB_PWR_CTL.off, via := via, hdr := none }] } }

theorem startSleep_pwr (target : Nat) (a : Asker) :
    (s.startSleep target a 0).pwr = { s.pwr with entry := some { target := target, asker := a, answered := false, wakeHeld := none }, wakeTimer := 0, s1Req := false } := by
  rw [State.startSleep, only_sets _ .pwr (by decide)]

theorem startSleep_only (target : Nat) (a : Asker) (timer : Nat) : only [.regs, .pwr] s (s.startSleep target a timer) :=
  only_trans (only_mono (by simp) (only_pwr _)) (only_mono (by simp) (only_sets _))

theorem startSleep_fields (target timer : Nat) (a : Asker) (h : target < 4) : (s.startSleep target a timer).sleep = 0 ∧ (s.startSleep target a timer).fld GLB_PWR_STATUS_TARGET = target := by
  refine ⟨fld_sets_reads [_] ?_ ?_ ?_, fld_sets_reads [] ?_ ?_ ?_⟩
  all_goals simp [Proper, Apart, GLB_PWR_STATUS_STATE, GLB_PWR_STATUS_TARGET]
  exact h

/-- No request is under way that an entry to sleep waits for (R82 step 2). -/
def noneLeft (s : State) : Bool := s.txns.isEmpty && !s.outsLeft && s.fox.jobs.isEmpty && s.fox.svcQueue.isEmpty

theorem entering_only (target : Nat) : only [.regs, .pwr, .acc] s (entering s via target) :=
  only_trans (only_mono (by simp) only_idleKept) (only_trans (only_mono (by simp) (startSleep_only _ _ _)) (only_mono (by simp) (only_acc _)))

theorem entering_pwr (target : Nat) : (entering s via target).pwr = { s.pwr with entry := some (entryOf via target false), wakeTimer := 0, s1Req := false } := by
  show ((idleKept s).startSleep target (.reg via) 0).pwr = _
  rw [startSleep_pwr, only_idleKept (s := s) .pwr (by decide)]
  rfl

theorem entering_owed (target : Nat) (howed : s.acc.owed = []) : (entering s via target).acc.owed = [{ off := GLB_PWR_CTL.off, via := via, hdr := none }] := by
  show ((idleKept s).startSleep target (.reg via) 0).acc.owed ++ _ = _
  rw [startSleep_only target (.reg via) 0 .acc (by decide), only_idleKept (s := s) .acc (by decide), howed]
  rfl

theorem noneLeft_congr (htxns : t.txns = s.txns) (hrings : t.rings = s.rings) (hfox : t.fox = s.fox) : noneLeft t = noneLeft s := by
  rw [noneLeft, noneLeft, State.outsLeft, State.outsLeft, State.ring, State.ring, htxns, hrings, hfox]

/-- The asker's answer shows on its path at once where nothing is left to wait for. -/
theorem payOwed_one {off : Nat} (howed : t.acc.owed = [{ off := off, via := via, hdr := none }]) (st : BitVec 8) : ∃ x, t.payOwed off st = ({ t with acc := x } : State).pathStatus via st := by
  refine ⟨{ t.acc with owed := [] }, ?_⟩
  simp only [State.payOwed, howed, List.filter_cons, List.filter_nil, beq_self_eq_true, if_true, bne_self_eq_false, Bool.false_eq_true, if_false]
  rfl

theorem entering_settled (target : Nat) (howed : s.acc.owed = []) (hdue : s.pwr.wakeDue = false) (hgrave : s.graveRec = false) :
    ∃ x, (entering s via target).settle = { entering s via target with acc := x, pwr := { s.pwr with entry := some (entryOf via target (noneLeft s)), wakeTimer := 0, s1Req := false } } := by
  have hp := entering_only (s := s) (via := via) target
  have hpwr := entering_pwr (s := s) (via := via) target
  have howed' := entering_owed (s := s) (via := via) target howed
  have hleft : noneLeft (entering s via target) = noneLeft s := noneLeft_congr (hp .txns (by decide)) (hp .rings (by decide)) (hp .fox (by decide))
  have hrec : (entering s via target).flt = s.flt := hp .flt (by decide)
  generalize entering s via target = t at *
  have hstep : ∃ x, t.sleepStep2 = { t with acc := x, pwr := { s.pwr with entry := some (entryOf via target (noneLeft s)), wakeTimer := 0, s1Req := false } } := by
    unfold State.sleepStep2
    simp only [hpwr, entryOf, Bool.false_or]
    have hguard : (!t.txns.isEmpty || t.outsLeft || !t.fox.jobs.isEmpty || !t.fox.svcQueue.isEmpty) = !noneLeft s := by
      rw [← hleft, noneLeft]
      cases t.txns.isEmpty <;> cases t.outsLeft <;> cases t.fox.jobs.isEmpty <;> cases t.fox.svcQueue.isEmpty <;> rfl
    rw [hguard]
    cases hn : noneLeft s
    · exact ⟨t.acc, (if_pos rfl).trans (congrArg (fun y => ({ t with pwr := y } : State)) hpwr)⟩
    · obtain ⟨x, hx⟩ := payOwed_one (t := { t with pwr := { s.pwr with entry := some { target := target, asker := .reg via, wakeHeld := none, answered := true }, wakeTimer := 0, s1Req := false } })
        (off := GLB_PWR_CTL.off) howed' stOK
      refine ⟨(({ t with acc := x } : State).pathStatus via stOK).acc, ?_⟩
      rw [if_neg (by simp)]
      show State.payOwed { t with pwr := _ } GLB_PWR_CTL.off stOK = _
      rw [hx, pathStatus_eq]
      cases via <;> rfl
  obtain ⟨x, hx⟩ := hstep
  refine ⟨x, ?_⟩
  have hnoGrave : ({ t with acc := x, pwr := { s.pwr with entry := some (entryOf via target (noneLeft s)), wakeTimer := 0, s1Req := false } } : State).graveRec = false :=
    (graveRec_congr (by rw [← hrec])).trans hgrave
  have hdue' : t.pwr.wakeDue = false := by rw [hpwr]; exact hdue
  unfold State.settle
  simp only [hdue', Bool.false_eq_true, if_false, hx, hnoGrave, Bool.false_and]

theorem pathUp_owed (h : s.pathUp via = true) : s.acc.owed = [] := by
  simp only [State.pathUp, Bool.and_eq_true, List.isEmpty_iff] at h
  exact h.1

theorem reqStateSleep_enters {deep : Bool} (ht : s.takes via .glb = true) (hlock : s.locked = false) (hready : s.ready = true) (hdead : s.dead = false) (hsleep : s.sleep < 2)
    (href : s.sleepRefused = false) :
    ∃ t, exec (.reqStateSleep via deep) s = .next t ∧ t.sleep = 0 ∧ t.fld GLB_PWR_STATUS_TARGET = (if deep then 3 else 2)
      ∧ t.pwr = { s.pwr with wakeTimer := 0, s1Req := false, entry := some { target := if deep then 3 else 2, asker := .reg via, wakeHeld := none, answered := s.txns.isEmpty && !s.outsLeft && s.fox.jobs.isEmpty && s.fox.svcQueue.isEmpty } } := by
  obtain ⟨hup, hlim, hopen, hcalm⟩ := takes_parts ht
  obtain ⟨hdue, hentry, hgrave⟩ := calm_iff.mp hcalm
  have htarget : (if deep then 3 else 2) = 2 + b2n deep := by cases deep <;> rfl
  have hlt : 2 + b2n deep < 4 := by cases deep <;> decide
  have hrule := pwrCtlWrite_asks (via := via) (q := 2 + b2n deep) (by cases deep <;> decide) hlock hready hdead hentry hsleep href
  rw [if_neg (by omega)] at hrule
  have hreg := regWrite_legal (via := via) (r := none) (b := .glb) (o := 0x34) rfl (pwrWord_legal (s := s) (q := 2 + b2n deep) (by cases deep <;> decide)) hopen ⟨pwr_noNote.1, pwr_noNote.2.1⟩
    (fun d => (applyWrite_pwr d).trans hrule)
  have hlimited : (via != Path.mreg && s.pathLimited && GLB_PWR_CTL.off != REC_SETT_ADDR.off) = false := by rcases hlim with h | h <;> simp [h]
  have hexec : exec (.reqStateSleep via deep) s = .next (entering s via (2 + b2n deep)).settle := by
    show Host.Outcome.next (s.pathWrite via GLB_PWR_CTL.off _) = _
    rw [Nat.add_assoc, ← pwrWord, State.pathWrite, if_neg (by simp [hup, mapHeld_of_ne pwr_noNote.2.2]), if_neg (by simp [hlimited]), hreg]
    rfl
  obtain ⟨x, hx⟩ := entering_settled (s := s) (via := via) (2 + b2n deep) (pathUp_owed hup) hdue hgrave
  obtain ⟨hs0, htar⟩ := startSleep_fields (s := idleKept s) (2 + b2n deep) 0 (.reg via) hlt
  refine ⟨_, hexec, ?_⟩
  rw [hx, htarget]
  exact ⟨hs0, htar, rfl⟩

/-! ## The entry ends (R82 steps 3 to 7) -/

variable {e : SleepEntry}

theorem settle_answered (hentry : s.pwr.entry = some e) (hans : e.answered = true) (hdue : s.pwr.wakeDue = false) (hgrave : s.graveRec = false) : s.settle = s := by
  have hstep : s.sleepStep2 = s := by simp [State.sleepStep2, hentry, hans]
  simp [State.settle, hdue, hstep, hgrave]

/-- The tests stop, and for S3 the Marl is marlRested and the Sett flushed. -/
def marlRested (s : State) (target : Nat) : State := if target = 3 then s.abandonTests.emptyMarl.flushSett else s.abandonTests

/-- The channels are in self-refresh, and the sleep state shows. -/
def statesTaken (t : State) (target : Nat) : State := ({ t.channelsDown with pwr := { t.pwr with entry := none } } : State).set GLB_PWR_STATUS_STATE target

/-- The pairs that must close are closed, and every link goes to sleep. -/
def linksAsleep (t : State) (target : Nat) : State :=
  (t.each ((List.range 16).filter t.mustClose) State.closePair).each (List.range (t.each ((List.range 16).filter t.mustClose) State.closePair).nPorts)
    fun u p => u.each (List.range (u.nLinks p)) (State.linkSleep · target p)

/-- In S3 the fast RC is off. -/
def rcOff (t : State) (target : Nat) : State := if target = 3 then ({ t with clk := { t.clk with frcRunning := false } } : State).set CLK_SRC_STATUS_FRC_OK 0 else t

theorem fallAsleep_eq (s : State) (e : SleepEntry) : s.fallAsleep e = (rcOff (linksAsleep (statesTaken (marlRested s e.target) e.target) e.target) e.target).set GLB_PWR_STATUS_TARGET 0 := by
  unfold State.fallAsleep rcOff linksAsleep statesTaken marlRested
  rfl

theorem flushSett_only : only [.recd, .sett, .regs] s s.flushSett := by
  unfold State.flushSett
  split
  · exact only_mono (by simp) saveCounters_kept.parts
  · exact only_trans (only_trans (only_mono (by simp) (only_recd _)) (only_mono (by simp) drainStaging_kept.parts)) (only_mono (by simp) saveCounters_kept.parts)

theorem setCol_lines (c : Nat) (x : Column) : (s.setCol c x).marl = s.marl := rfl

theorem abandonTests_lines : s.abandonTests.marl.lines = s.marl.lines :=
  each_keeps (P := fun x => x.marl.lines = s.marl.lines) rfl fun _ _ hx => hx

theorem marlRested_lines (target : Nat) : (marlRested s target).marl.lines = if target = 3 then [] else s.marl.lines := by
  unfold marlRested
  split
  · rw [flushSett_only .marl (by decide)]
    rfl
  · exact abandonTests_lines

theorem channelsDown_only : only [.chan, .regs] s s.channelsDown :=
  only_each fun x c => only_ite (only_refl _ _) (only_trans (only_mono (by simp) (only_setChn c _)) (only_mono (by simp) (only_set _ _)))

theorem statesTaken_entry (target : Nat) : (statesTaken t target).pwr.entry = none := by
  rw [statesTaken, only_set _ _ .pwr (by decide)]

theorem statesTaken_marl (target : Nat) : (statesTaken t target).marl = t.marl := by
  rw [statesTaken, only_set _ _ .marl (by decide)]
  exact channelsDown_only .marl (by decide)

theorem statesTaken_sleep {target : Nat} (h : target < 4) : (statesTaken t target).sleep = target := fld_set_fits (f := GLB_PWR_STATUS_STATE) (by decide) (by decide) h

theorem links_linkSleep {target p m : Nat} (hm : m < 8) : Links s (s.linkSleep target p m) := by
  unfold State.linkSleep
  refine .ite ?_ (.ite (.refl _ _ _) (links_linkDown hm 7))
  refine Frame.trans ?_ (Links.of_sends (sends_strand p))
  refine Frame.trans (Frame.trans (t := s.sendMarkers p m 6 2) (.each fun x lg _ => links_setLane _ _) (.each fun x l _ => ?_)) (links_set (linkReg_linkStatus hm))
  refine (links_setLane l _).trans (.sets (by simp) ?_)
  simp only [List.mem_cons, List.not_mem_nil, or_false]
  rintro y (rfl | rfl | rfl | rfl) <;> exact linkReg_lane (by simp only [LANE_STATUS_SIG_DET, LANE_STATUS_CDR_LOCK, LANE_STATUS_MARKER_LOCK, LANE_EYE_STALE]; omega)

theorem fabric_linksAsleep (target : Nat) : Fabric s (linksAsleep s target) :=
  Frame.trans (.each fun _ n _ => fabric_closePair n) (.each fun x p _ => .each fun _ _ hm => Fabric.of_links (links_linkSleep (Nat.lt_of_lt_of_le (List.mem_range.mp hm) (nLinks_le x p))))

theorem rcOff_only (target : Nat) : only [.clk, .regs] s (rcOff s target) :=
  only_ite (only_trans (only_mono (by simp) (only_clk _)) (only_mono (by simp) (only_set _ _))) (only_refl _ _)

theorem rcOff_sleep (target : Nat) : (rcOff s target).sleep = s.sleep := by
  unfold rcOff
  split
  · exact (fld_set_ne _ (f := CLK_SRC_STATUS_FRC_OK) (g := GLB_PWR_STATUS_STATE) (by decide) _).trans (fld_congr rfl _)
  · rfl

theorem not_fabricReg_pwr : ¬ fabricReg GLB_PWR_STATUS.off := by
  unfold fabricReg packetReg
  decide

/-- What the end of an entry leaves. -/
theorem fallAsleep_leaves (h : e.target = 2 ∨ e.target = 3) :
    (s.fallAsleep e).pwr.entry = none ∧ (s.fallAsleep e).sleep = e.target ∧ (s.fallAsleep e).fld GLB_PWR_STATUS_TARGET = 0
      ∧ (s.fallAsleep e).marl.lines = (if e.target = 3 then [] else s.marl.lines) := by
  have hfab := fabric_linksAsleep (s := statesTaken (marlRested s e.target) e.target) e.target
  have hrc := rcOff_only (s := linksAsleep (statesTaken (marlRested s e.target) e.target) e.target) e.target
  rw [fallAsleep_eq]
  refine ⟨?_, ?_, fld_set_fits (f := GLB_PWR_STATUS_TARGET) (by decide) (by decide) (by decide), ?_⟩
  · rw [only_set _ _ .pwr (by decide), hrc .pwr (by decide), hfab.parts .pwr (by decide), statesTaken_entry]
  · refine (fld_set_apart (f := GLB_PWR_STATUS_TARGET) ⟨by decide, by decide⟩ (.inr (by decide))).trans ((rcOff_sleep _).trans ((hfab.fld (f := GLB_PWR_STATUS_STATE) not_fabricReg_pwr).trans ?_))
    exact statesTaken_sleep (by omega)
  · rw [only_set _ _ .marl (by decide), hrc .marl (by decide), hfab.parts .marl (by decide), statesTaken_marl, marlRested_lines]

theorem sleepEntryDone_falls (hentry : s.pwr.entry = some e) (hans : e.answered = true) (hheld : e.wakeHeld = none) (hdue : s.pwr.wakeDue = false) (hgrave : s.graveRec = false)
    (hdead : s.dead = false) (houts : s.outsLeft = false) (hcpls : (s.ring 0).cpls = [] ∨ (s.ring 0).cplKept = true) (hin : s.sw.ingress = []) (hout : s.sw.egress = [])
    (hstuck : e.target = 3 → ∀ x ∈ s.marl.lines, x.2.st = .dirty → s.lineStuck x.1 = false) : exec .sleepEntryDone s = .next (s.fallAsleep e) := by
  have hnone : (e.target == 3 && s.marl.lines.any fun x => x.2.st == .dirty && s.lineStuck x.1) = false := by
    rw [Bool.and_eq_false_iff]
    by_cases h3 : e.target = 3
    · right
      rw [List.any_eq_false]
      intro x hx hd
      rw [Bool.and_eq_true, beq_iff_eq] at hd
      exact absurd hd.2 (by rw [hstuck h3 x hx hd.1]; decide)
    · exact .inl (by simp [h3])
  have hring : (!((s.ring 0).cpls.isEmpty || (s.ring 0).cplKept)) = false := by rcases hcpls with h | h <;> simp [h]
  show execSleepEntryDone s = _
  unfold execSleepEntryDone
  rw [settle_answered hentry hans hdue hgrave]
  simp only [hentry]
  rw [hnone, if_neg (by simp [hans, houts, hring, hin, hout, hdead]), hheld]

/-- Settles O20: an accepted request is followed to the entry that it begins, and the end of an entry step by step. -/
theorem entryToSleep : Obligations.EntryToSleep := by
  refine ⟨fun via deep s ht hlock hready hdead hsleep href => reqStateSleep_enters ht hlock hready hdead hsleep href,
    fun e s hentry hans hheld htarget hdue hgrave hdead houts hcpls hin hout hstuck => ?_⟩
  exact ⟨_, sleepEntryDone_falls hentry hans hheld hdue hgrave hdead houts hcpls hin hout hstuck, fallAsleep_leaves htarget⟩

end Sys2Proof.Proofs
end

section
/-! SUPPORT. S1 and the wakes (R80, R81, R83, R85): what a wake shows, what the grave safe state may write, and the return from S3. -/

namespace Sys2Proof.Proofs

set_option Elab.async false

open Sys2Proof.Machine Sys2Proof.Laws

variable {s t u : State} {via : Path} {q v cause : Nat}

/-! ## S1 (R80, R83) -/

theorem abandonTests_only : only [.vcp, .acc, .marl] s s.abandonTests := by
  have hcols : only [.vcp] s (s.each ((List.range 32).filter fun c => (s.col c).test.isSome) fun t c => t.setCol c { t.col c with testDrop := true }) := only_each fun _ _ => only_vcp _
  exact only_trans (only_mono (by simp) hcols) fun q hq => by
    cases q
    case acc | marl => simp at hq
    all_goals rfl

theorem linkIdle_only (p m : Nat) : only [.lanes, .regs] s (s.linkIdle p m) := by
  refine only_trans (only_trans (only_mono (k := [.lanes]) (by simp) (only_each fun x l => only_setLane _ _)) (only_each fun x l => ?_)) (only_mono (by simp) (only_set _ _))
  exact only_trans (only_mono (by simp) (only_setLane l _)) (only_mono (by simp) (only_set _ _))

theorem toL1_only (p m : Nat) : only [.lanes, .regs] s (s.toL1 p m) := only_ite (linkIdle_only p m) (only_refl _ _)

theorem s1IdleExpiry_enters (hready : s.ready = true) (hdead : s.dead = false) (hsleep : s.sleep = 0) (hentry : s.pwr.entry = none) (hasked : s.pwr.s1Req = true ∨ s.fld GLB_PWR_CTL_IDLE_US ≠ 0)
    (hquiet : s.quiet = true) :
    ∃ t, exec .s1IdleExpiry s = .next t ∧ t.sleep = 1 ∧ t.fld GLB_PWR_STATUS_TARGET = 0 ∧ t.pwr = { s.pwr with s1Req := false } ∧ only [.pwr, .vcp, .acc, .marl, .lanes, .regs] s t := by
  have hgo : (s.ready && !s.dead && s.sleep == 0 && s.pwr.entry.isNone && (s.pwr.s1Req || s.fld GLB_PWR_CTL_IDLE_US != 0) && s.quiet) = true := by
    rcases hasked with h | h <;> simp [hready, hdead, hsleep, hentry, hquiet, h]
  refine ⟨_, if_pos hgo, fld_sets_reads [] ?_ ?_ ?_, fld_sets_reads [_] ?_ ?_ ?_, ?_⟩
  any_goals simp [Proper, Apart, GLB_PWR_STATUS_STATE, GLB_PWR_STATUS_TARGET]
  have hlinks : ∀ x : State, only [.lanes, .regs] x (x.each (List.range x.nPorts) fun t p => t.each (List.range (t.nLinks p)) (State.toL1 · p)) := fun x =>
    only_each fun y p => only_each fun z m => toL1_only p m
  have hrest := only_trans (only_mono (l := [.vcp, .acc, .marl, .lanes, .regs]) (by simp) (abandonTests_only (s := { s with pwr := { s.pwr with s1Req := false } })))
    (only_trans (only_mono (by simp) (hlinks _)) (only_mono (by simp) (only_sets [(GLB_PWR_STATUS_STATE, 1), (GLB_PWR_STATUS_TARGET, 0)])))
  exact ⟨hrest .pwr (by decide), only_trans (only_mono (by simp) (only_pwr _)) (only_mono (by simp) hrest)⟩

/-! ## What a wake from S2 shows (R80) -/

theorem startTimers_graveRec : s.startTimers.graveRec = s.graveRec := by
  unfold State.startTimers
  split
  · simp only [State.graveRec, List.any_map]
    congr 1
    funext e
    simp only [Function.comp_apply]
    split <;> rfl
  · rfl

/-- The stack is in S0 again, with the cause and the count of its wakes. -/
structure Woken (cause : Nat) (s t : State) : Prop where
  sleep : t.sleep = 0
  wake : t.fld GLB_PWR_CTL_WAKE = 0
  cause : t.fld GLB_PWR_STATUS_WAKE_CAUSE = cause
  count : t.fld GLB_PWR_STATUS_WAKE_COUNT = min 0xFFFF (s.fld GLB_PWR_STATUS_WAKE_COUNT + 1)
  pwr : t.pwr = { s.pwr with waking := false, wakeTimer := 0 }
  grave : t.graveRec = s.graveRec
  parts : only [.pwr, .regs, .flt] s t

/-- The registers of the channels' status. -/
theorem channelsUp_frame : Frame [.regs] (fun o => 0x60000 ≤ o) s s.channelsUp :=
  .each fun _ c _ => .ite (.refl _ _ _) (.set (by simp) (by simp only [CHAN_STATUS_STATE]; omega))

/-- The power state and its words of a stack back in S0. -/
def backInS0 (s : State) : State := ({ s with pwr := { s.pwr with waking := false, wakeTimer := 0 } } : State).sets [(GLB_PWR_STATUS_STATE, 0), (GLB_PWR_CTL_WAKE, 0)]

theorem awoken_eq (s : State) : s.awoken = ((backInS0 s).incSat GLB_PWR_STATUS_WAKE_COUNT).startTimers := rfl

theorem awoken_fld (f : Fld) : s.awoken.fld f = ((backInS0 s).incSat GLB_PWR_STATUS_WAKE_COUNT).fld f := by
  rw [awoken_eq]
  exact fld_congr (startTimers_only .regs (by decide)) f

theorem fld_incSat_same {f : Fld} (hf : Proper f) : (s.incSat f).fld f = min (2 ^ (f.hi + 1 - f.lo) - 1) (s.fld f + 1) :=
  fld_set_fits hf.1 hf.2 (lt_of_le_of_lt (Nat.min_le_left _ _) (Nat.sub_lt (Nat.two_pow_pos _) Nat.one_pos))

theorem backInS0_fields : (backInS0 s).sleep = 0 ∧ (backInS0 s).fld GLB_PWR_CTL_WAKE = 0 ∧ (backInS0 s).fld GLB_PWR_STATUS_WAKE_COUNT = s.fld GLB_PWR_STATUS_WAKE_COUNT
    ∧ (backInS0 s).fld GLB_PWR_STATUS_WAKE_CAUSE = s.fld GLB_PWR_STATUS_WAKE_CAUSE := by
  refine ⟨fld_sets_reads [] ?_ ?_ ?_, fld_sets_reads [_] ?_ ?_ ?_, (fld_sets_apart ?_).trans (fld_congr rfl _), (fld_sets_apart ?_).trans (fld_congr rfl _)⟩
  all_goals simp [Proper, Apart, GLB_PWR_STATUS_STATE, GLB_PWR_CTL_WAKE, GLB_PWR_STATUS_WAKE_COUNT, GLB_PWR_STATUS_WAKE_CAUSE]

theorem awoken_fields : s.awoken.sleep = 0 ∧ s.awoken.fld GLB_PWR_CTL_WAKE = 0 ∧ s.awoken.fld GLB_PWR_STATUS_WAKE_COUNT = min 0xFFFF (s.fld GLB_PWR_STATUS_WAKE_COUNT + 1)
    ∧ s.awoken.fld GLB_PWR_STATUS_WAKE_CAUSE = s.fld GLB_PWR_STATUS_WAKE_CAUSE := by
  obtain ⟨hsleep, hwake, hcount, hcause⟩ := backInS0_fields (s := s)
  have hkeep : ∀ f : Fld, Apart f GLB_PWR_STATUS_WAKE_COUNT → s.awoken.fld f = (backInS0 s).fld f := fun f hf => (awoken_fld f).trans (fld_set_apart ⟨by decide, by decide⟩ hf)
  refine ⟨(hkeep GLB_PWR_STATUS_STATE (.inr (by decide))).trans hsleep, (hkeep _ (.inl (by decide))).trans hwake, ?_, (hkeep _ (.inr (by decide))).trans hcause⟩
  rw [awoken_fld, fld_incSat_same ⟨by decide, by decide⟩, hcount]
  rfl

theorem awoken_pwr : s.awoken.pwr = { s.pwr with waking := false, wakeTimer := 0 } := by
  rw [awoken_eq, startTimers_only .pwr (by decide), show ((backInS0 s).incSat GLB_PWR_STATUS_WAKE_COUNT).pwr = (backInS0 s).pwr from only_set _ _ .pwr (by decide), backInS0,
    only_sets _ .pwr (by decide)]

theorem awoken_graveRec : s.awoken.graveRec = s.graveRec := by
  rw [awoken_eq, startTimers_graveRec]
  refine graveRec_congr ?_
  rw [show ((backInS0 s).incSat GLB_PWR_STATUS_WAKE_COUNT).flt = (backInS0 s).flt from only_set _ _ .flt (by decide), backInS0, only_sets _ .flt (by decide)]

theorem wake_inS0 (hentry : s.pwr.entry = none) (hsleep : s.sleep = 0) : s.wake cause = s.set GLB_PWR_CTL_WAKE 0 := by
  unfold State.wake
  simp only [hentry]
  rw [if_pos hsleep]

theorem wake_inS1 (hentry : s.pwr.entry = none) (hsleep : s.sleep = 1) : s.wake cause = (s.set GLB_PWR_STATUS_STATE 0).set GLB_PWR_CTL_WAKE 0 := by
  unfold State.wake
  simp only [hentry]
  rw [if_neg (by omega), if_pos hsleep]

theorem wake_fromS2 (hentry : s.pwr.entry = none) (hsleep : s.sleep = 2) (hwaking : s.pwr.waking = false) (hc : cause < 16) : Woken cause s (s.wake cause) := by
  have hwake : s.wake cause = (s.set GLB_PWR_STATUS_WAKE_CAUSE cause).wakeS2 := by simp [State.wake, hentry, hsleep, hwaking]
  rw [hwake, State.wakeS2]
  have hup := channelsUp_frame (s := s.set GLB_PWR_STATUS_WAKE_CAUSE cause)
  have hset := only_set (s := s) GLB_PWR_STATUS_WAKE_CAUSE cause
  have hcount : (s.set GLB_PWR_STATUS_WAKE_CAUSE cause).channelsUp.fld GLB_PWR_STATUS_WAKE_COUNT = s.fld GLB_PWR_STATUS_WAKE_COUNT :=
    (hup.fld (by decide)).trans (fld_set_apart (f := GLB_PWR_STATUS_WAKE_CAUSE) ⟨by decide, by decide⟩ (.inr (by decide)))
  have hcause : (s.set GLB_PWR_STATUS_WAKE_CAUSE cause).channelsUp.fld GLB_PWR_STATUS_WAKE_CAUSE = cause :=
    (hup.fld (by decide)).trans (fld_set_fits (f := GLB_PWR_STATUS_WAKE_CAUSE) (by decide) (by decide) hc)
  have hpwr : (s.set GLB_PWR_STATUS_WAKE_CAUSE cause).channelsUp.pwr = s.pwr := (hup.parts .pwr (by decide)).trans (hset .pwr (by decide))
  have hflt : (s.set GLB_PWR_STATUS_WAKE_CAUSE cause).channelsUp.flt = s.flt := (hup.parts .flt (by decide)).trans (hset .flt (by decide))
  have hparts : only [.pwr, .regs, .flt] s (s.set GLB_PWR_STATUS_WAKE_CAUSE cause).channelsUp := only_trans (only_mono (by simp) hset) (only_mono (by simp) hup.parts)
  generalize (s.set GLB_PWR_STATUS_WAKE_CAUSE cause).channelsUp = x at *
  obtain ⟨h0, hw, hn, hk⟩ := awoken_fields (s := x)
  exact ⟨h0, hw, hk.trans hcause, by rw [hn, hcount], by rw [awoken_pwr, hpwr], awoken_graveRec.trans (graveRec_congr (by rw [hflt])), only_trans hparts awoken_only⟩

/-! ## A wake from S3 (R85) -/

/-- The clocks of a stack in S3 start, and it goes on waking. -/
def wakingS3 (t : State) : State := { t.clockStart with pwr := { t.pwr with waking := true }, clk := { t.clockStart.clk with wakeWait := true } }

theorem wakingS3_only : only [.clk, .pwr, .regs] t (wakingS3 t) := by
  refine only_trans (only_mono (by simp) clockStart_only) fun q hq => ?_
  cases q
  case clk | pwr => simp at hq
  all_goals rfl

theorem wake_fromS3 (hentry : s.pwr.entry = none) (hsleep : s.sleep = 3) (hwaking : s.pwr.waking = false) : s.wake cause = wakingS3 (s.set GLB_PWR_STATUS_WAKE_CAUSE cause) := by
  simp [State.wake, hentry, hsleep, hwaking, wakingS3]

theorem wakingS3_reg (o : Nat) : (wakingS3 t).reg o = t.clockStart.reg o := rfl

theorem wake_fromS3_shows (hentry : s.pwr.entry = none) (hsleep : s.sleep = 3) (hwaking : s.pwr.waking = false) (hc : cause < 16) :
    (s.wake cause).sleep = 3 ∧ (s.wake cause).fld GLB_PWR_STATUS_WAKE_CAUSE = cause ∧ (s.wake cause).pwr = { s.pwr with waking := true } ∧ (s.wake cause).clk.wakeWait = true
      ∧ (s.wake cause).clk.frcRunning = true ∧ (s.wake cause).clk.p2Step = 1 ∧ (s.wake cause).reg CLK_SRC_STATUS.off = 0 ∧ (s.wake cause).reg CLK_PLL_STATUS.off = 0
      ∧ regsBut [GLB_PWR_STATUS.off, CLK_SRC_STATUS.off, CLK_PLL_STATUS.off] s (s.wake cause) ∧ only [.clk, .pwr, .regs] s (s.wake cause) := by
  rw [wake_fromS3 hentry hsleep hwaking]
  have hregs := clockStart_regs (s := s.set GLB_PWR_STATUS_WAKE_CAUSE cause)
  have hfld : ∀ f : Fld, f.off = GLB_PWR_STATUS.off → (wakingS3 (s.set GLB_PWR_STATUS_WAKE_CAUSE cause)).fld f = (s.set GLB_PWR_STATUS_WAKE_CAUSE cause).fld f := fun f hf => by
    rw [State.fld, State.fld, wakingS3_reg, hregs _ (by rw [hf]; decide)]
  have hclk := clockStart_clk (s := s.set GLB_PWR_STATUS_WAKE_CAUSE cause)
  refine ⟨?_, ?_, ?_, rfl, ?_, ?_, clockStart_src, clockStart_pll, fun o ho => ?_, only_trans (only_mono (by simp) (only_set _ _)) wakingS3_only⟩
  · exact (hfld GLB_PWR_STATUS_STATE rfl).trans ((fld_set_apart (f := GLB_PWR_STATUS_WAKE_CAUSE) ⟨by decide, by decide⟩ (.inr (by decide))).trans hsleep)
  · exact (hfld GLB_PWR_STATUS_WAKE_CAUSE rfl).trans (fld_set_fits (f := GLB_PWR_STATUS_WAKE_CAUSE) (by decide) (by decide) hc)
  · show { (s.set GLB_PWR_STATUS_WAKE_CAUSE cause).pwr with waking := true } = _
    rw [only_set _ _ .pwr (by decide)]
  · show (s.set GLB_PWR_STATUS_WAKE_CAUSE cause).clockStart.clk.frcRunning = true
    rw [hclk]; rfl
  · show (s.set GLB_PWR_STATUS_WAKE_CAUSE cause).clockStart.clk.p2Step = 1
    rw [hclk]; rfl
  · simp only [List.mem_cons, List.not_mem_nil, or_false, not_or] at ho
    obtain ⟨hps, hsrc, hpll⟩ := ho
    rw [wakingS3_reg, hregs o (by simp [hsrc, hpll])]
    exact reg_setReg_ne s hps _

/-! ## WAKE (R80) -/

/-- IDLE_US of a write is stored while GLB_LOCK lets it. -/
def idleStored (t : State) (v : Nat) : State := if t.locked then t else t.set GLB_PWR_CTL_IDLE_US v

theorem pwrCtlWrite_wakes (hdead : s.dead = false) :
    s.pwrCtlWrite via (pwrWord s (2 ^ 8)) = (some stOK, idleStored ((s.set GLB_PWR_CTL_WAKE 1).wake 2) (s.fld GLB_PWR_CTL_IDLE_US)) := by
  unfold State.pwrCtlWrite
  dsimp only
  rw [pwrWord_wake (by decide), pwrWord_idle (by decide), pwrWord_request (by decide), hdead, if_pos (by decide : (bitAt (2 ^ 8) 8 && !false) = true), if_pos (by decide : 2 ^ 8 % 4 = 0)]
  rfl

theorem idleStored_only : only [.regs] t (idleStored t v) := only_ite (only_refl _ _) (only_set _ _)

/-- IDLE_US that is stored as it stands leaves every register as it reads. -/
theorem reg_idleStored (h : t.fld GLB_PWR_CTL_IDLE_US = v) (o : Nat) : (idleStored t v).reg o = t.reg o := by
  unfold idleStored
  split
  · rfl
  · rw [← h]
    exact reg_set_own o

theorem fld_idleStored (h : t.fld GLB_PWR_CTL_IDLE_US = v) (f : Fld) : (idleStored t v).fld f = t.fld f := by rw [State.fld, State.fld, reg_idleStored h]

/-- A WAKE that is written, and acts. -/
def wakeWritten (s : State) : State := (s.set GLB_PWR_CTL_WAKE 1).wake 2

theorem pwrWake_taken (ht : s.takes via .glb = true) (hdead : s.dead = false) (hcalm : (wakeWritten s).calm = s.calm) :
    exec (.pwrWake via) s = .next ((idleStored (wakeWritten s) (s.fld GLB_PWR_CTL_IDLE_US)).pathStatus via stOK) := by
  have hcalm' : (idleStored (wakeWritten s) (s.fld GLB_PWR_CTL_IDLE_US)).calm = s.calm := (calm_of (idleStored_only .pwr (by decide)) (idleStored_only .flt (by decide))).trans hcalm
  exact congrArg Host.Outcome.next (pathWrite_legal (via := via) (b := .glb) (o := 0x34) rfl (pwrWord_legal (s := s) (q := 2 ^ 8) (by decide)) ht pwr_noNote
    (fun d _ => (applyWrite_pwr d).trans (pwrCtlWrite_wakes hdead)) hcalm')

theorem wakeSet_fld {f : Fld} (h : Apart f GLB_PWR_CTL_WAKE) : (s.set GLB_PWR_CTL_WAKE v).fld f = s.fld f := fld_set_apart ⟨by decide, by decide⟩ h

/-- What a WAKE in S0 or S1 leaves. -/
structure WokenAtOnce (s t : State) : Prop where
  sleep : t.sleep = 0
  wake : t.fld GLB_PWR_CTL_WAKE = 0
  idle : t.fld GLB_PWR_CTL_IDLE_US = s.fld GLB_PWR_CTL_IDLE_US
  count : t.fld GLB_PWR_STATUS_WAKE_COUNT = s.fld GLB_PWR_STATUS_WAKE_COUNT
  regs : regsBut [GLB_PWR_CTL.off, GLB_PWR_STATUS.off] s t
  parts : only [.regs] s t

theorem wakeWritten_atOnce (hentry : s.pwr.entry = none) (hsleep : s.sleep ≤ 1) : WokenAtOnce s (wakeWritten s) := by
  have hentry' : (s.set GLB_PWR_CTL_WAKE 1).pwr.entry = none := by rw [only_set _ _ .pwr (by decide)]; exact hentry
  have hsleep' : (s.set GLB_PWR_CTL_WAKE 1).sleep = s.sleep := wakeSet_fld (f := GLB_PWR_STATUS_STATE) (.inl (by decide))
  have hset : regsBut [GLB_PWR_CTL.off, GLB_PWR_STATUS.off] s (s.set GLB_PWR_CTL_WAKE 1) := regsBut_set (by decide)
  have hlast : ∀ x : State, (x.set GLB_PWR_CTL_WAKE 0).fld GLB_PWR_CTL_WAKE = 0 := fun x => fld_set_fits (f := GLB_PWR_CTL_WAKE) (by decide) (by decide) (by decide)
  by_cases h0 : s.sleep = 0
  · have hw : wakeWritten s = (s.set GLB_PWR_CTL_WAKE 1).set GLB_PWR_CTL_WAKE 0 := wake_inS0 hentry' (hsleep'.trans h0)
    have hfld : ∀ f : Fld, Apart f GLB_PWR_CTL_WAKE → (wakeWritten s).fld f = s.fld f := fun f hf => by rw [hw]; exact (wakeSet_fld hf).trans (wakeSet_fld hf)
    refine ⟨(hfld GLB_PWR_STATUS_STATE (.inl (by decide))).trans h0, by rw [hw]; exact hlast _, hfld _ (.inr (by decide)), hfld _ (.inl (by decide)), ?_, ?_⟩ <;> rw [hw]
    · exact regsBut_trans hset (regsBut_set (by decide))
    · exact only_trans (only_set _ _) (only_set _ _)
  · have h1 : s.sleep = 1 := by omega
    have hw : wakeWritten s = ((s.set GLB_PWR_CTL_WAKE 1).set GLB_PWR_STATUS_STATE 0).set GLB_PWR_CTL_WAKE 0 := wake_inS1 hentry' (hsleep'.trans h1)
    have hfld : ∀ f : Fld, Apart f GLB_PWR_CTL_WAKE → Apart f GLB_PWR_STATUS_STATE → (wakeWritten s).fld f = s.fld f := fun f hf hf' => by
      rw [hw]
      exact (wakeSet_fld hf).trans ((fld_set_apart ⟨by decide, by decide⟩ hf').trans (wakeSet_fld hf))
    refine ⟨?_, by rw [hw]; exact hlast _, hfld _ (.inr (by decide)) (.inl (by decide)), hfld _ (.inl (by decide)) (.inr (by decide)), ?_, ?_⟩ <;> rw [hw]
    · exact (wakeSet_fld (f := GLB_PWR_STATUS_STATE) (.inl (by decide))).trans (fld_set_fits (f := GLB_PWR_STATUS_STATE) (by decide) (by decide) (by decide))
    · exact regsBut_trans hset (regsBut_trans (regsBut_set (by decide)) (regsBut_set (by decide)))
    · exact only_trans (only_set _ _) (only_trans (only_set _ _) (only_set _ _))

theorem pwrWake_atOnce (ht : s.takes via .glb = true) (hdead : s.dead = false) (hsleep : s.sleep ≤ 1) :
    ∃ t, exec (.pwrWake via) s = .next t ∧ t.sleep = 0 ∧ t.fld GLB_PWR_CTL_WAKE = 0 ∧ t.fld GLB_PWR_CTL_IDLE_US = s.fld GLB_PWR_CTL_IDLE_US
        ∧ t.fld GLB_PWR_STATUS_WAKE_COUNT = s.fld GLB_PWR_STATUS_WAKE_COUNT ∧ regsBut [GLB_PWR_CTL.off, GLB_PWR_STATUS.off] s t ∧ taken via [] s t := by
  obtain ⟨-, -, -, hcalm⟩ := takes_parts ht
  obtain ⟨h0, hw, hidle, hcount, hregs, hparts⟩ := wakeWritten_atOnce (calm_iff.mp hcalm).2.1 hsleep
  have hexec := pwrWake_taken ht hdead (calm_of (hparts .pwr (by decide)) (hparts .flt (by decide)))
  have hfld : ∀ f : Fld, ((idleStored (wakeWritten s) (s.fld GLB_PWR_CTL_IDLE_US)).pathStatus via stOK).fld f = (wakeWritten s).fld f := fun f => (pathStatus_fld _ _ _).trans (fld_idleStored hidle f)
  have hstored : regsBut [GLB_PWR_CTL.off, GLB_PWR_STATUS.off] s (idleStored (wakeWritten s) (s.fld GLB_PWR_CTL_IDLE_US)) := fun o ho => (reg_idleStored hidle o).trans (hregs o ho)
  obtain ⟨hregs', htaken⟩ := pathStatus_frame (via := via) hstored (l := []) (only_trans hparts idleStored_only) (by decide)
  exact ⟨_, hexec, (hfld GLB_PWR_STATUS_STATE).trans h0, (hfld _).trans hw, (hfld _).trans hidle, (hfld _).trans hcount, hregs', htaken⟩

theorem wakeWritten_fromS2 (hentry : s.pwr.entry = none) (hsleep : s.sleep = 2) (hwaking : s.pwr.waking = false) : Woken 2 (s.set GLB_PWR_CTL_WAKE 1) (wakeWritten s) := by
  have hpwr : (s.set GLB_PWR_CTL_WAKE 1).pwr = s.pwr := only_set _ _ .pwr (by decide)
  exact wake_fromS2 (by rw [hpwr]; exact hentry) ((wakeSet_fld (f := GLB_PWR_STATUS_STATE) (.inl (by decide))).trans hsleep) (by rw [hpwr]; exact hwaking) (by decide)

theorem idle_fromS2 (hentry : s.pwr.entry = none) (hsleep : s.sleep = 2) (hwaking : s.pwr.waking = false) : (wakeWritten s).fld GLB_PWR_CTL_IDLE_US = s.fld GLB_PWR_CTL_IDLE_US := by
  have hpwr : (s.set GLB_PWR_CTL_WAKE 1).pwr = s.pwr := only_set _ _ .pwr (by decide)
  have hsleep' : (s.set GLB_PWR_CTL_WAKE 1).sleep = 2 := (wakeSet_fld (f := GLB_PWR_STATUS_STATE) (.inl (by decide))).trans hsleep
  have hw : wakeWritten s = ((s.set GLB_PWR_CTL_WAKE 1).set GLB_PWR_STATUS_WAKE_CAUSE 2).channelsUp.awoken := by
    simp [wakeWritten, State.wake, hentry, hsleep', hwaking, State.wakeS2]
  rw [hw, awoken_fld]
  refine (fld_set_ne _ (f := GLB_PWR_STATUS_WAKE_COUNT) (g := GLB_PWR_CTL_IDLE_US) (by decide) _).trans ((fld_sets_apart ?_).trans ((fld_congr rfl _).trans ((channelsUp_frame.fld (by decide)).trans
    ((fld_set_ne _ (f := GLB_PWR_STATUS_WAKE_CAUSE) (g := GLB_PWR_CTL_IDLE_US) (by decide) _).trans (wakeSet_fld (.inr (by decide)))))))
  simp [Proper, Apart, GLB_PWR_STATUS_STATE, GLB_PWR_CTL_WAKE, GLB_PWR_CTL_IDLE_US]

theorem pwrWake_fromS2 (ht : s.takes via .glb = true) (hdead : s.dead = false) (hsleep : s.sleep = 2) (hwaking : s.pwr.waking = false) :
    ∃ t, exec (.pwrWake via) s = .next t ∧ t.sleep = 0 ∧ t.fld GLB_PWR_CTL_WAKE = 0 ∧ t.fld GLB_PWR_STATUS_WAKE_CAUSE = 2
        ∧ t.fld GLB_PWR_STATUS_WAKE_COUNT = min 0xFFFF (s.fld GLB_PWR_STATUS_WAKE_COUNT + 1) ∧ t.pwr.wakeTimer = 0 := by
  obtain ⟨-, -, -, hcalm⟩ := takes_parts ht
  obtain ⟨hdue, hentry, hgrave⟩ := calm_iff.mp hcalm
  obtain ⟨h0, hw, hcause, hcount, hpwr, hrec, hparts⟩ := wakeWritten_fromS2 hentry hsleep hwaking
  have hidle := idle_fromS2 hentry hsleep hwaking
  have hset : (s.set GLB_PWR_CTL_WAKE 1).pwr = s.pwr := only_set _ _ .pwr (by decide)
  have hset' : (s.set GLB_PWR_CTL_WAKE 1).flt = s.flt := only_set _ _ .flt (by decide)
  have hcalm' : (wakeWritten s).calm = s.calm := by
    rw [hcalm, calm_iff, hpwr, hrec, hset, graveRec_congr (by rw [hset'])]
    exact ⟨hdue, hentry, hgrave⟩
  have hfld : ∀ f : Fld, ((idleStored (wakeWritten s) (s.fld GLB_PWR_CTL_IDLE_US)).pathStatus via stOK).fld f = (wakeWritten s).fld f := fun f => (pathStatus_fld _ _ _).trans (fld_idleStored hidle f)
  refine ⟨_, pwrWake_taken ht hdead hcalm', (hfld GLB_PWR_STATUS_STATE).trans h0, (hfld _).trans hw, (hfld _).trans hcause, ?_, ?_⟩
  · rw [hfld, hcount, wakeSet_fld (.inl (by decide))]
  · rw [pathStatus_pwr, idleStored_only .pwr (by decide), hpwr]

/-! ## What the grave safe state may write (R410) -/

/-- The registers that the entry to the grave safe state may write. -/
def graveReg (o : Nat) : Prop := layerReg o ∨ o ∈ [RT_BYP_STATUS.off, RT_BYP_OPEN.off, RT_BYP_CLOSES.off, CLK_MON_STATUS.off]

theorem reg_of_parts {l : List Part} (h : only l s t) (hr : Part.regs ∉ l) (o : Nat) : t.reg o = s.reg o := reg_congr (h .regs hr) o

/-- The stack is forced: nothing is sent any more, and the Marl is frozen. -/
def forcedOff (s : State) : State := s.stopHeartbeats.freezeMarl.squelchAll.dropTraffic

/-- Forcing is in force. -/
def forcingHeld (s : State) : State := { s with start := { s.start with forcing := true } }

theorem force_none_eq (s : State) : s.force none = (forcingHeld (forcedOff s)).sets [(CLK_MON_STATUS_FORCED_SAFE, 1)] := rfl

theorem forcedOff_reg {o : Nat} (hlayer : ¬ layerReg o) (hlist : o ∉ [RT_BYP_STATUS.off, RT_BYP_OPEN.off, RT_BYP_CLOSES.off]) : (forcedOff s).reg o = s.reg o := by
  have hsquelch : ∀ x : State, x.squelchAll.reg o = x.reg o := fun x => (closeAll_regs o hlist).trans (reg_congr rfl o)
  rw [forcedOff, reg_of_parts dropTraffic_only (by simp) o, hsquelch, reg_of_parts freezeMarl_only (by simp) o, stopHeartbeats_heartbeatsEnd.reg o hlayer]

theorem forcingHeld_only : only [.start] s (forcingHeld s) := only_start _

theorem enterGrave_reg {o : Nat} (ho : ¬ graveReg o) : s.enterGrave.reg o = s.reg o := by
  simp only [graveReg, not_or, List.mem_cons, List.not_mem_nil, or_false] at ho
  obtain ⟨hlayer, hst, hop, hcl, hmon⟩ := ho
  have hset : ∀ x : State, (x.sets [(CLK_MON_STATUS_FORCED_SAFE, 1)]).reg o = x.reg o := fun x => by
    rw [sets_cons, sets_nil]
    exact reg_setReg_ne x hmon _
  rw [enterGrave_eq]
  split
  · rfl
  · rw [reg_of_parts graveHeld_only (by simp) o, force_none_eq, hset, reg_of_parts forcingHeld_only (by simp) o, forcedOff_reg hlayer (by simp [hst, hop, hcl])]

theorem freezeMarl_lines : s.freezeMarl.marl.lines.map (·.1) = s.marl.lines.map (·.1) := by
  unfold State.freezeMarl
  split
  · rfl
  · simp

theorem enterGrave_noLines (h : s.marl.lines = []) : s.enterGrave.marl.lines = [] := by
  rw [enterGrave_eq]
  split
  · exact h
  · have hforce : (s.force none).marl = s.stopHeartbeats.freezeMarl.marl := by
      rw [force_none_eq, only_sets _ .marl (by decide), forcingHeld_only .marl (by decide), forcedOff, dropTraffic_only .marl (by decide), squelchAll_only .marl (by decide)]
    have hlines := freezeMarl_lines (s := s.stopHeartbeats)
    rw [stopHeartbeats_heartbeatsEnd.parts .marl (by decide), h, List.map_nil, List.map_eq_nil_iff] at hlines
    rw [graveHeld_only .marl (by decide), hforce, hlines]

theorem enterGrave_waking (h : s.pwr.waking = false) : s.enterGrave.pwr.waking = false := by
  rw [enterGrave_eq]
  split
  · exact h
  · rfl

/-! ## The return from S3 (R85) -/

/-- A stack in S0 with nothing in its Marl and its maps lost. -/
structure BackFromS3 (t : State) : Prop where
  sleep : t.sleep = 0
  waking : t.pwr.waking = false
  lines : t.marl.lines = []
  dirty : t.fld CVU_CKP_STATUS_ALL_DIRTY = 1

theorem BackFromS3.of_fld (h : BackFromS3 s) (hs : t.fld GLB_PWR_STATUS_STATE = s.fld GLB_PWR_STATUS_STATE) (hd : t.fld CVU_CKP_STATUS_ALL_DIRTY = s.fld CVU_CKP_STATUS_ALL_DIRTY)
    (hp : t.pwr.waking = s.pwr.waking) (hm : t.marl = s.marl) : BackFromS3 t := ⟨hs.trans h.sleep, hp.trans h.waking, by rw [hm]; exact h.lines, hd.trans h.dirty⟩

theorem not_graveReg_fld (f : Fld) (h : f.off = GLB_PWR_STATUS.off ∨ f.off = CVU_CKP_STATUS.off) : s.enterGrave.fld f = s.fld f := by
  have hno : ¬ graveReg f.off := by
    unfold graveReg layerReg
    rintro (⟨n, hn, he⟩ | hmem)
    · rcases h with h | h <;> rw [h] at he <;> simp only [GLB_PWR_STATUS, CVU_CKP_STATUS] at he <;> omega
    · rcases h with h | h <;> rw [h] at hmem <;> exact absurd hmem (by decide)
  rw [State.fld, State.fld, enterGrave_reg hno]

theorem BackFromS3.enterGrave (h : BackFromS3 s) : BackFromS3 s.enterGrave :=
  ⟨(not_graveReg_fld GLB_PWR_STATUS_STATE (.inl rfl)).trans h.sleep, enterGrave_waking h.waking, enterGrave_noLines h.lines, (not_graveReg_fld CVU_CKP_STATUS_ALL_DIRTY (.inr rfl)).trans h.dirty⟩

/-- A due wake is taken note of. -/
def wakeNoted (s : State) : State := { s with pwr := { s.pwr with wakeDue := false } }

/-- A due wake acts. -/
def dueTaken (s : State) : State := if s.pwr.wakeDue then (wakeNoted s).wake 4 else s

/-- What follows a command: the due wake, the answer of a sleep entry, and the grave safe state. -/
theorem settle_eq (s : State) :
    s.settle = if (dueTaken s).sleepStep2.graveRec && !(dueTaken s).sleepStep2.start.grave then (dueTaken s).sleepStep2.enterGrave else (dueTaken s).sleepStep2 := rfl

theorem wakeNoted_only : only [.pwr] s (wakeNoted s) := only_pwr _

/-- In S0, with no entry to sleep under way, a due wake clears WAKE. -/
theorem dueTaken_inS0 (hsleep : s.sleep = 0) (hentry : s.pwr.entry = none) : dueTaken s = s ∨ dueTaken s = (wakeNoted s).set GLB_PWR_CTL_WAKE 0 := by
  unfold dueTaken
  split
  · exact .inr (wake_inS0 hentry ((fld_congr (wakeNoted_only .regs (by decide)) _).trans hsleep))
  · exact .inl rfl

theorem sleepStep2_none (h : s.pwr.entry = none) : s.sleepStep2 = s := by simp [State.sleepStep2, h]

theorem settle_ofNone (h : (dueTaken s).pwr.entry = none) : s.settle = dueTaken s ∨ s.settle = (dueTaken s).enterGrave := by
  rw [settle_eq, sleepStep2_none h]
  split
  · exact .inr rfl
  · exact .inl rfl

/-- In S0, with no entry to sleep under way, what follows leaves the sleep state alone. -/
theorem BackFromS3.settle (h : BackFromS3 s) (hentry : s.pwr.entry = none) : BackFromS3 s.settle := by
  obtain ⟨hback, hnone⟩ : BackFromS3 (dueTaken s) ∧ (dueTaken s).pwr.entry = none := by
    rcases dueTaken_inS0 h.sleep hentry with hx | hx <;> rw [hx]
    · exact ⟨h, hentry⟩
    · have hfld : ∀ f : Fld, f.off ≠ GLB_PWR_CTL_WAKE.off → ((wakeNoted s).set GLB_PWR_CTL_WAKE 0).fld f = s.fld f := fun f hf =>
        (wakeSet_fld (.inl hf)).trans (fld_congr (wakeNoted_only .regs (by decide)) f)
      refine ⟨h.of_fld (hfld GLB_PWR_STATUS_STATE (by decide)) (hfld CVU_CKP_STATUS_ALL_DIRTY (by decide)) ?_ ?_, ?_⟩
      · rw [only_set _ _ .pwr (by decide)]; rfl
      · rw [only_set _ _ .marl (by decide)]; rfl
      · rw [only_set _ _ .pwr (by decide)]; exact hentry
  rcases settle_ofNone hnone with hx | hx <;> rw [hx]
  · exact hback
  · exact hback.enterGrave

/-- A stack in S0 with no entry under way and nothing in its Marl. -/
structure InS0 (t : State) : Prop where
  sleep : t.sleep = 0
  entry : t.pwr.entry = none
  waking : t.pwr.waking = false

theorem InS0.notSleeping (h : InS0 t) : notSleeping t := ⟨by rw [h.sleep]; decide, h.entry⟩

theorem InS0.of_frame {k : List Part} {r : Nat → Prop} (h : InS0 s) (hf : Frame k r s t) (hk : Part.pwr ∉ k) (hr : ¬ r GLB_PWR_STATUS.off) : InS0 t :=
  ⟨(hf.fld (f := GLB_PWR_STATUS_STATE) hr).trans h.sleep, by rw [hf.parts .pwr hk]; exact h.entry, by rw [hf.parts .pwr hk]; exact h.waking⟩

theorem InS0.of_only {k : List Part} (h : InS0 s) (hp : only k s t) (hk : Part.pwr ∉ k) (hr : Part.regs ∉ k) : InS0 t :=
  h.of_frame (Frame.of_only (r := fun _ => False) hp (fun _ hx => hx) hr) hk id

theorem InS0.raiseRec {f : FltCause} {unit detail : Nat} {inj : Bool} (h : InS0 s) : InS0 (s.raiseRec f unit detail inj) :=
  h.of_frame (raiseRec_faulted h.notSleeping) (by decide) fun hr => absurd hr (by unfold faultReg recReg packetReg; decide)

theorem InS0.putEng {k : Nat} (g : Engine) (h : InS0 s) : InS0 (s.putEng k g) :=
  h.of_frame ⟨putEng_only g, fun o ho => putEng_regs g o (by simpa using ho)⟩ (by decide) (r := fun o => o = (FOX_STATUS k).off) (by simp only [FOX_STATUS, GLB_PWR_STATUS]; omega)

theorem InS0.offEng {k : Nat} (h : InS0 s) : InS0 (s.offEng k) := by
  unfold State.offEng
  dsimp only
  split
  · exact h.putEng _
  · exact h.of_only (only_fox _) (by decide) (by decide)

theorem InS0.disableAll (h : InS0 s) : InS0 s.disableAll := by
  have heach : InS0 (s.each (List.range s.nEngines) State.offEng) := each_keeps h fun _ _ hx => hx.offEng
  unfold State.disableAll
  refine InS0.raiseRec ?_
  exact (heach.of_only (only_fox { (s.each (List.range s.nEngines) State.offEng).fox with allDisabled := true }) (by decide) (by decide) :)

theorem checkRetained_only : only [.fox] s s.checkRetained.2 := by
  unfold State.checkRetained
  split
  · exact only_refl _ _
  · dsimp only
    split
    · split
      · exact only_fox _
      · exact only_refl _ _
    · exact only_refl _ _

theorem InS0.reloadEng {k : Nat} (h : InS0 s) : InS0 (s.reloadEng k true) := by
  have hc : InS0 s.checkRetained.2 := h.of_only checkRetained_only (by decide) (by decide)
  unfold State.reloadEng
  split
  next t heq => rw [heq] at hc; exact hc.disableAll
  next t heq =>
    rw [heq] at hc
    exact hc.putEng _

/-- What leaves the Marl's lines as they are. -/
theorem raiseRec_marl {f : FltCause} {unit detail : Nat} {inj : Bool} : (s.raiseRec f unit detail inj).marl = s.marl := raiseRec_frame.parts .marl (by decide)

theorem putEng_marl {k : Nat} (g : Engine) : (s.putEng k g).marl = s.marl := putEng_only g .marl (by decide)

theorem offEng_marl {k : Nat} : (s.offEng k).marl = s.marl := by
  unfold State.offEng
  dsimp only
  split
  · exact putEng_marl _
  · rfl

theorem reloadEng_marl {k : Nat} : (s.reloadEng k true).marl = s.marl := by
  have hc : s.checkRetained.2.marl = s.marl := checkRetained_only .marl (by decide)
  unfold State.reloadEng
  split
  next t heq =>
    rw [heq] at hc
    refine raiseRec_marl.trans (Eq.trans ?_ hc)
    exact each_keeps (P := fun x => x.marl = t.marl) rfl fun _ _ hx => offEng_marl.trans hx
  next t heq =>
    rw [heq] at hc
    exact (putEng_marl _).trans hc

/-- The ports start blind, and every column is due its recalibration. -/
def portsBlind (s : State) : State :=
  ((s.each (List.range s.nPorts) State.checkPort).each (List.range (s.each (List.range s.nPorts) State.checkPort).nChans) State.recalDue)

/-- Every engine that is present is loaded again. -/
def enginesLoaded (s : State) : State :=
  s.each (List.range s.nEngines) fun u e => if (u.eng e).st == .off || (u.eng e).st == .disabled then u else u.reloadEng e true

theorem execS3Wake_goesOn (hw : s.pwr.waking = true) (hstep : 7 ≤ s.clk.p2Step) (hdead : s.dead = false) :
    exec .s3Wake s = .next ((enginesLoaded (portsBlind ({ s with clk := { s.clk with wakeWait := false } } : State).awoken).emptyCache).loseMaps.settle) := by
  show execS3Wake s = _
  unfold execS3Wake
  rw [if_neg (by simp [hw, hstep, hdead])]
  rfl

theorem InS0.portsBlind (h : InS0 s) : InS0 (portsBlind s) := by
  have hports : Links s (s.each (List.range s.nPorts) State.checkPort) := .each fun _ p _ => links_checkPort p
  have hcols : ∀ x : State, only [.vcp] x (x.each (List.range x.nChans) State.recalDue) := fun x => only_each fun y c => only_ite (only_vcp _) (only_refl _ _)
  exact (h.of_frame hports (by decide) fun hr => not_fabricReg_pwr (fabricReg_of_linkReg hr)).of_only (hcols _) (by decide) (by decide)

theorem InS0.enginesLoaded (h : InS0 s) : InS0 (enginesLoaded s) := each_keeps h fun x e hx => by
  split
  · exact hx
  · exact hx.reloadEng

theorem enginesLoaded_marl : (enginesLoaded s).marl = s.marl := each_keeps (P := fun x => x.marl = s.marl) rfl fun x e hx => by
  split
  · exact hx
  · exact reloadEng_marl.trans hx

theorem loseMaps_back (h : InS0 s) (hlines : s.marl.lines = []) : BackFromS3 s.loseMaps ∧ s.loseMaps.pwr.entry = none := by
  have hpwr : s.loseMaps.pwr = s.pwr := only_set _ _ .pwr (by decide)
  refine ⟨⟨?_, by rw [hpwr]; exact h.waking, ?_, fld_set_fits (f := CVU_CKP_STATUS_ALL_DIRTY) (by decide) (by decide) (by decide)⟩, by rw [hpwr]; exact h.entry⟩
  · exact (fld_set_ne _ (f := CVU_CKP_STATUS_ALL_DIRTY) (g := GLB_PWR_STATUS_STATE) (by decide) _).trans ((fld_congr rfl _).trans h.sleep)
  · rw [State.loseMaps, only_set _ _ .marl (by decide)]
    exact hlines

theorem s3Wake_back (hw : s.pwr.waking = true) (hentry : s.pwr.entry = none) (hstep : 7 ≤ s.clk.p2Step) (hdead : s.dead = false) :
    ∃ t, exec .s3Wake s = .next t ∧ BackFromS3 t := by
  refine ⟨_, execS3Wake_goesOn hw hstep hdead, ?_⟩
  obtain ⟨h0, -, -, -⟩ := awoken_fields (s := ({ s with clk := { s.clk with wakeWait := false } } : State))
  have hpwr := awoken_pwr (s := ({ s with clk := { s.clk with wakeWait := false } } : State))
  generalize ({ s with clk := { s.clk with wakeWait := false } } : State).awoken = x at *
  have hx : InS0 x := ⟨h0, by rw [hpwr]; exact hentry, by rw [hpwr]⟩
  have hcache : InS0 (portsBlind x).emptyCache := hx.portsBlind.of_only (only_marl _) (by decide) (by decide)
  obtain ⟨hback, hnone⟩ := loseMaps_back hcache.enginesLoaded (by rw [enginesLoaded_marl]; rfl)
  exact hback.settle hnone

/-! ## The wake timer and a partner (R80, R81) -/

theorem execWake (hdead : s.dead = false) (h2 : 2 ≤ s.sleep) {c : Instr}
    (hc : (c = .wakeTimerExpiry ∧ cause = 3 ∧ s.pwr.wakeTimer ≠ 0) ∨ (∃ p : BitVec 5, c = .wakeSignal p ∧ cause = 1 ∧ p.toNat < s.nPorts ∧ s.pairClosed (p.toNat / 2) = false)) :
    exec c s = .next (s.wake cause) ∧ cause < 16 := by
  rcases hc with ⟨rfl, rfl, htimer⟩ | ⟨p, rfl, rfl, hp, hpair⟩
  · exact ⟨if_pos ⟨h2, htimer, by simp [hdead]⟩, by decide⟩
  · exact ⟨if_pos ⟨h2, hp, by simp [hpair], by simp [hdead]⟩, by decide⟩

/-- Settles O19: S1 and the wakes are followed to the words that they show, the return from S3 step by step. -/
theorem sleepAndWake : Obligations.SleepAndWake := by
  refine ⟨fun via s ht hlock hready hdead hsleep href => reqStateS1_asks ht hlock hready hdead hsleep href,
    fun s hready hdead hsleep hentry hasked hquiet => s1IdleExpiry_enters hready hdead hsleep hentry hasked hquiet,
    fun via s ht hdead => ⟨pwrWake_atOnce ht hdead, pwrWake_fromS2 ht hdead⟩, fun c cause s hdead hentry hwaking hc => ⟨fun hsleep => ?_, fun hsleep => ?_⟩,
    fun s hw hentry hstep hdead => ?_⟩
  · obtain ⟨hexec, hlt⟩ := execWake hdead (by omega) hc
    obtain ⟨h0, -, hcause, hcount, hpwr, -, hparts⟩ := wake_fromS2 hentry hsleep hwaking hlt
    exact ⟨_, hexec, h0, hcause, hcount, by rw [hpwr], only_mono (by simp) hparts⟩
  · obtain ⟨hexec, hlt⟩ := execWake hdead (by omega) hc
    exact ⟨_, hexec, wake_fromS3_shows hentry hsleep hwaking hlt⟩
  · obtain ⟨t, hexec, h0, hwaking, hlines, hdirty⟩ := s3Wake_back hw hentry hstep hdead
    exact ⟨t, hexec, h0, hwaking, hlines, hdirty⟩

end Sys2Proof.Proofs
end

section
/-! SUPPORT. Heartbeats and silent layers (R73, R258 to R261): what the freeze of layer 1, the loss of a layer's heartbeat and a relock leave. -/

namespace Sys2Proof.Proofs

set_option Elab.async false

open Sys2Proof.Machine Sys2Proof.Laws

variable {s t u : State} {c d l n : Nat}

/-! ## Layer 1 freezes (R73) -/

/-- The image of a layer 1 that freezes: the map and the division in force. -/
def mapImage (s : State) : FrozenImg :=
  { memCfg := BitVec.ofNat 32 s.memCfg, part := BitVec.ofNat 32 (s.reg MARL_PART.off), groupState := BitVec.ofNat 8 (s.fld GLB_MEM_STATUS_GROUP_STATE) }

theorem freezeMarl_freezes (himage : s.marl.image = []) (hstore : s.rails.vstore = true) (hsleep : s.sleep ≠ 3) (hphase : 3 ≤ s.phase) (hb : s.phase ≠ 0xB) :
    s.freezeMarl = { s with
      start := { s.start with frozen := true }
      marl := { s.marl with
        image := List.replicate 3 { img := mapImage s, crc := (mapImage s).crc }, fills := [], evicting := [],
        lines := s.marl.lines.map (fun e => (e.1, { e.2 with wbBusy := false, flushMark := false })), flush := none, flushRing0 := false, newPart := none } } :=
  if_neg (by simp [himage, hstore, hsleep, hphase, hb])

theorem marlHbLoss_freezes (himage : s.marl.image = []) (hstore : s.rails.vstore = true) (hsleep : s.sleep ≠ 3) (hphase : 3 ≤ s.phase) (hb : s.phase ≠ 0xB) :
    ∃ t, exec .marlHbLoss s = .next t ∧ t.start = { s.start with frozen := true }
      ∧ (∃ g : FrozenImg, g = { memCfg := BitVec.ofNat 32 s.memCfg, part := BitVec.ofNat 32 (s.reg MARL_PART.off), groupState := BitVec.ofNat 8 (s.fld GLB_MEM_STATUS_GROUP_STATE) }
        ∧ t.marl.image = List.replicate 3 { img := g, crc := g.crc })
      ∧ t.marl.fills = [] ∧ t.marl.evicting = []
      ∧ (∀ l, t.line l = (s.line l).map fun x => { x with wbBusy := false, flushMark := false }) ∧ t.marl.flush = none ∧ t.marl.newPart = none ∧ only [.start, .marl] s t := by
  have honly : only [.start, .marl] s s.freezeMarl := freezeMarl_only
  have heq := freezeMarl_freezes himage hstore hsleep hphase hb
  refine ⟨s.freezeMarl, rfl, ?_, ⟨mapImage s, rfl, ?_⟩, ?_, ?_, fun l => ?_, ?_, ?_, honly⟩ <;> rw [heq]
  exact mget_map_values (fun x : Line => ({ x with wbBusy := false, flushMark := false } : Line)) s.marl.lines l

/-! ## A layer loses a heartbeat (R258) -/

/-- Bursts that are cut off move no channel's queues. -/
theorem cutBurst_chn (at_ : Nat) (w : WrReq) (raw : List (Option (BitVec 8))) (d : Nat) : (cutBurst s at_ w raw).chn d = s.chn d := by
  unfold cutBurst
  split <;> rfl

theorem cutEach_chn (at_ : Nat) (f : WrReq → List (Option (BitVec 8))) (ws : List WrReq) (d : Nat) : (s.each ws fun t w => cutBurst t at_ w (f w)).chn d = s.chn d :=
  each_apart (φ := fun x => x.chn d) fun _ w _ => cutBurst_chn at_ w (f w) d

/-- The issued writes of a channel, the newest first. -/
def openWrites (k : Chan) : List WrReq := (k.writes.filter (·.issued)).reverse

/-- A channel whose own bursts are cut off. -/
def ownCut (s : State) (c : Nat) : State := s.each (openWrites (s.chn c)) fun t w => cutBurst t c w w.old

/-- A channel with its requests to be made again. -/
def madeAgain (k : Chan) : Chan := { k.reissue fun _ => true with reads := k.reads.map fun r => { r with issued := false }, openRows := [], rowIdle := [] }

/-- Does a write hold its parity block in channel `c`? -/
def parityIn (c : Nat) (w : WrReq) : Bool := !w.oldPar.isEmpty && holderOf (c / 8) w.block == c

/-- The bursts of a neighbour into the parity blocks of channel `c` are cut off. -/
def neighbourCut (c : Nat) (t : State) (x : Nat) : State :=
  (t.each ((openWrites (t.chn x)).filter (parityIn c)) fun u w => cutBurst u c w w.oldPar).setChn x
    (((t.each ((openWrites (t.chn x)).filter (parityIn c)) fun u w => cutBurst u c w w.oldPar).chn x).reissue (parityIn c))

/-- The other channels of a channel's group. -/
def neighbours (c : Nat) : List Nat := ((List.range 8).map fun i => 8 * (c / 8) + i).filter (· != c)

theorem cutBursts_eq (s : State) (c : Nat) : s.cutBursts c = ((ownCut s c).setChn c (madeAgain ((ownCut s c).chn c))).each (neighbours c) (neighbourCut c) := rfl

theorem neighbourCut_apart {x : Nat} (h : d ≠ x) : (neighbourCut c t x).chn d = t.chn d := by
  rw [neighbourCut, chn_setChn_ne h, cutEach_chn]

theorem mem_neighbours (h : d ∈ neighbours c) : d ≠ c ∧ d / 8 = c / 8 := by
  simp only [neighbours, List.mem_filter, List.mem_map, List.mem_range, bne_iff_ne] at h
  obtain ⟨⟨i, hi, rfl⟩, hne⟩ := h
  exact ⟨hne, by omega⟩

theorem cutBursts_own : (s.cutBursts c).chn c = madeAgain (s.chn c) := by
  rw [cutBursts_eq]
  refine (each_apart (φ := fun x => x.chn c) fun x n hn => neighbourCut_apart (mem_neighbours hn).1.symm).trans ?_
  rw [chn_setChn_same, ownCut, cutEach_chn]

theorem cutBursts_apart (h : d / 8 ≠ c / 8) : (s.cutBursts c).chn d = s.chn d := by
  have hne : d ≠ c := fun e => h (by rw [e])
  rw [cutBursts_eq]
  refine (each_apart (φ := fun x => x.chn d) fun x n hn => neighbourCut_apart fun e => h (by rw [e]; exact (mem_neighbours hn).2)).trans ?_
  rw [chn_setChn_ne hne, ownCut, cutEach_chn]

theorem openWrites_none {k : Chan} (h : ∀ w ∈ k.writes, w.issued = false) : openWrites k = [] := by
  rw [openWrites, List.filter_eq_nil_iff.mpr fun w hw => by simp [h w hw], List.reverse_nil]

theorem reissue_unissued {k : Chan} {hit : WrReq → Bool} (h : ∀ w ∈ k.writes, w.issued = false) : ∀ w ∈ (k.reissue hit).writes, w.issued = false := by
  intro w hw
  obtain ⟨v, hv, rfl⟩ := List.mem_map.mp hw
  simp [h v hv]

/-- No burst of the group is under way: the arrays stay. -/
theorem cutBursts_dram (h : ∀ d, d / 8 = c / 8 → ∀ w ∈ (s.chn d).writes, w.issued = false) : (s.cutBursts c).chan.dram = s.chan.dram := by
  have hown : ownCut s c = s := by rw [ownCut, openWrites_none (h c rfl)]; rfl
  rw [cutBursts_eq, hown]
  have hkeep : ∀ (ys : List Nat) (t : State), (∀ x ∈ ys, x / 8 = c / 8) → (∀ d, d / 8 = c / 8 → ∀ w ∈ (t.chn d).writes, w.issued = false) →
      (t.each ys (neighbourCut c)).chan.dram = t.chan.dram := by
    intro ys
    induction ys with
    | nil => exact fun _ _ _ => rfl
    | cons x ys ih =>
      intro t hys ht
      have hx : neighbourCut c t x = t.setChn x ((t.chn x).reissue (parityIn c)) := by
        rw [neighbourCut, openWrites_none (ht x (hys x List.mem_cons_self))]
        rfl
      refine (ih (neighbourCut c t x) (fun y hy => hys y (List.mem_cons_of_mem _ hy)) fun d hd => ?_).trans (by rw [hx]; rfl)
      by_cases hdx : d = x
      · rw [hx, hdx, chn_setChn_same]
        exact reissue_unissued (ht x (hys x List.mem_cons_self))
      · rw [neighbourCut_apart hdx]
        exact ht d hd
  refine (hkeep _ _ (fun x hx => (mem_neighbours hx).2) fun d hd => ?_).trans rfl
  by_cases hdc : d = c
  · rw [hdc, chn_setChn_same]
    exact reissue_unissued (h c rfl)
  · rw [chn_setChn_ne hdc]
    exact h d hd

/-- A channel whose bursts are cut off enters self-refresh. -/
def selfRefreshed (s : State) (c : Nat) : State := (s.cutBursts c).setChn c { (s.cutBursts c).chn c with srHeld := true }

/-- A layer shows that its contents are retained. -/
def retainedShown (s : State) (n : Nat) : State := { s with start := { s.start with retained := BitVec.ofNat 16 (putBit s.start.retained.toNat n true) } }

/-- A layer that misses its heartbeat. -/
def hbMissed (s : State) (c : Nat) : State :=
  ((retainedShown (selfRefreshed s c) (layerOf c - 2)).set (VCP_LAYER_STATUS_HB_LOST (layerOf c - 2)) 1).incSat (VCP_LAYER_STATUS_HB_LOSS_COUNT (layerOf c - 2))

theorem layerHbLoss_missed (c : BitVec 5) (hc : c.toNat < s.nChans) (hvdram : s.rails.vdram = true) (hvpp : s.rails.vpp = true) (hheld : (s.chn c.toNat).srHeld = false) :
    exec (.layerHbLoss c) s = .next (hbMissed s c.toNat) := if_pos (by simp [hc, hvdram, hvpp, hheld])

theorem hbMissed_chan (s : State) (c : Nat) : (hbMissed s c).chan = (selfRefreshed s c).chan := rfl

theorem hbMissed_chn_own : (hbMissed s c).chn c = { madeAgain (s.chn c) with srHeld := true } := by
  rw [chn_congr (hbMissed_chan s c), selfRefreshed, chn_setChn_same, cutBursts_own]

theorem hbMissed_chn_apart (h : d / 8 ≠ c / 8) : (hbMissed s c).chn d = s.chn d := by
  rw [chn_congr (hbMissed_chan s c), selfRefreshed, chn_setChn_ne (fun e => h (by rw [e])), cutBursts_apart h]

theorem retainedShown_bit (hn : n < 16) : (retainedShown s n).start.retained.getLsbD n = true := by
  have hfits : putBit s.start.retained.toNat n true < 2 ^ 16 := putBit_fits s.start.retained.isLt hn true
  rw [retainedShown, BitVec.getLsbD_ofNat, testBit_putBit, if_pos rfl]
  simp [hn]

theorem selfRefreshed_only (s : State) (c : Nat) : only [.free, .chan] s (selfRefreshed s c) := only_trans (cutBursts_only c) (only_mono (by simp) (only_setChn _ _))

theorem hbMissed_only (s : State) (c : Nat) : only [.chan, .start, .regs, .free] s (hbMissed s c) :=
  only_trans (only_mono (by simp) (selfRefreshed_only s c)) <| only_trans (only_mono (by simp) (only_start _)) <|
    only_trans (only_mono (by simp) (only_set _ _)) (only_mono (by simp) (only_set _ _))

theorem selfRefreshed_reg (s : State) (c o : Nat) : (selfRefreshed s c).reg o = s.reg o := reg_congr (selfRefreshed_only s c .regs (by decide)) o

theorem hbMissed_regsBut (s : State) (c : Nat) : regsBut [(VCP_LAYER_STATUS (layerOf c - 2)).off] s (hbMissed s c) :=
  regsBut_trans (regsBut_of_regs (selfRefreshed_only s c .regs (by decide))) <|
    regsBut_trans (regsBut_set (f := VCP_LAYER_STATUS_HB_LOST _) (by simp [VCP_LAYER_STATUS_HB_LOST, VCP_LAYER_STATUS]))
      (regsBut_incSat (f := VCP_LAYER_STATUS_HB_LOSS_COUNT _) (by simp [VCP_LAYER_STATUS_HB_LOSS_COUNT, VCP_LAYER_STATUS]))

theorem hbMissed_lost (s : State) (c : Nat) : (hbMissed s c).fld (VCP_LAYER_STATUS_HB_LOST (layerOf c - 2)) = 1 :=
  (fld_set_disjoint (f := VCP_LAYER_STATUS_HB_LOSS_COUNT _) (g := VCP_LAYER_STATUS_HB_LOST _) _ (by simp [VCP_LAYER_STATUS_HB_LOSS_COUNT]) (by simp [VCP_LAYER_STATUS_HB_LOSS_COUNT])
    (.inl (by simp [VCP_LAYER_STATUS_HB_LOSS_COUNT, VCP_LAYER_STATUS_HB_LOST])) _).trans
    (fld_set_fits (f := VCP_LAYER_STATUS_HB_LOST _) (by simp [VCP_LAYER_STATUS_HB_LOST]) (by simp [VCP_LAYER_STATUS_HB_LOST]) (by simp [VCP_LAYER_STATUS_HB_LOST]))

theorem hbMissed_count (s : State) (c : Nat) :
    (hbMissed s c).fld (VCP_LAYER_STATUS_HB_LOSS_COUNT (layerOf c - 2)) = min 255 (s.fld (VCP_LAYER_STATUS_HB_LOSS_COUNT (layerOf c - 2)) + 1) := by
  have hkept : ((retainedShown (selfRefreshed s c) (layerOf c - 2)).set (VCP_LAYER_STATUS_HB_LOST (layerOf c - 2)) 1).fld (VCP_LAYER_STATUS_HB_LOSS_COUNT (layerOf c - 2))
      = s.fld (VCP_LAYER_STATUS_HB_LOSS_COUNT (layerOf c - 2)) :=
    (fld_set_disjoint (f := VCP_LAYER_STATUS_HB_LOST _) (g := VCP_LAYER_STATUS_HB_LOSS_COUNT _) _ (by simp [VCP_LAYER_STATUS_HB_LOST]) (by simp [VCP_LAYER_STATUS_HB_LOST])
      (.inr (by simp [VCP_LAYER_STATUS_HB_LOSS_COUNT, VCP_LAYER_STATUS_HB_LOST])) _).trans (congrArg (bitsOf · _ _) (selfRefreshed_reg s c _))
  rw [hbMissed, fld_incSat_same ⟨by simp [VCP_LAYER_STATUS_HB_LOSS_COUNT], by simp [VCP_LAYER_STATUS_HB_LOSS_COUNT]⟩, hkept]
  rfl

theorem layerIndex_lt (h : c < s.nChans) : layerOf c - 2 < 16 := by
  have hn := nChans_cases s
  simp only [layerOf]
  omega

/-! ## A layer leaves self-refresh (R259) -/

theorem clearHbLost_only : only [.regs] s (s.clearHbLost l) := by
  unfold State.clearHbLost
  exact only_ite (only_set _ _) (only_refl _ _)

theorem clearHbLost_regsBut : regsBut [(VCP_LAYER_STATUS (l - 2)).off] s (s.clearHbLost l) := by
  unfold State.clearHbLost
  exact regsBut_ite (regsBut_set (f := VCP_LAYER_STATUS_HB_LOST _) (by simp [VCP_LAYER_STATUS_HB_LOST, VCP_LAYER_STATUS])) (regsBut_refl _ _)

theorem exitSr_left (c : BitVec 5) (hc : c.toNat < s.nChans) (hlive : s.live = true) (hheld : (s.chn c.toNat).srHeld = true) (hbeat : (s.chn c.toNat).heartbeat = true) :
    exec (.exitSr c) s = .next ((s.setChn c.toNat { s.chn c.toNat with srHeld := false }).clearHbLost (layerOf c.toNat)) := if_pos (by simp [hc, hlive, hheld, hbeat])

/-! ## A layer falls silent (R260) -/

theorem setLyrLock_only (b : Bool) : only [.regs] s (s.setLyrLock l b) := only_sets _

theorem setLyrLock_regsBut (b : Bool) : regsBut [CLK_PLL_STATUS.off, (VCP_LAYER_STATUS (l - 2)).off] s (s.setLyrLock l b) :=
  regsBut_sets (by simp [CLK_PLL_STATUS_LYR_LOCK, CLK_PLL_STATUS, VCP_LAYER_STATUS_PLL_LOCK, VCP_LAYER_STATUS])

theorem setLyrLock_bit (b : Bool) (hl : l - 2 < 16) : bitAt ((s.setLyrLock l b).fld CLK_PLL_STATUS_LYR_LOCK) (l - 2) = b := by
  have hread : (s.setLyrLock l b).fld CLK_PLL_STATUS_LYR_LOCK = putBit (s.fld CLK_PLL_STATUS_LYR_LOCK) (l - 2) b := by
    refine fld_sets_reads (g := CLK_PLL_STATUS_LYR_LOCK) [] ⟨by decide, by decide⟩ (putBit_fits (fld_lt s CLK_PLL_STATUS_LYR_LOCK) hl b) fun x hx => ?_
    obtain rfl := List.mem_singleton.mp hx
    exact ⟨⟨by simp [VCP_LAYER_STATUS_PLL_LOCK], by simp [VCP_LAYER_STATUS_PLL_LOCK]⟩, .inl (by simp [VCP_LAYER_STATUS_PLL_LOCK, CLK_PLL_STATUS_LYR_LOCK]; omega)⟩
  rw [hread, bitAt, testBit_putBit, if_pos rfl]

theorem setLyrLock_chanOut (b : Bool) (c : Nat) (hl : l - 2 < 16) : (s.setLyrLock l b).chanOut c = s.chanOut c := by
  have hreg : (s.setLyrLock l b).reg (CHAN_STATUS_FENCED c).off = s.reg (CHAN_STATUS_FENCED c).off := setLyrLock_regsBut b _ (by
    simp [CHAN_STATUS_FENCED, CLK_PLL_STATUS, VCP_LAYER_STATUS]; omega)
  rw [State.chanOut, State.chanOut, State.on, State.on, State.on, State.on, State.fld, State.fld, State.fld, State.fld, hreg,
    show (CHAN_STATUS_LOST c).off = (CHAN_STATUS_FENCED c).off from rfl, hreg]

/-- A layer with its heartbeats stopped and its recovery begun. -/
def heartbeatsStopped (s : State) (l : Nat) : State :=
  (s.each (layerChans l) fun t c => t.setChn c { t.chn c with heartbeat := false }).set (VCP_LAYER_STATUS_HB_LOST (l - 2)) 1

def recovering (s : State) (l : Nat) : State := { s with vcp := { s.vcp with silent := mput l 0 s.vcp.silent } }

theorem recovering_only (s : State) (l : Nat) : only [.vcp] s (recovering s l) := only_vcp _

/-- The lock of a layer's PLL is lost with the layer, or stands. -/
def lockShown (s : State) (l : Nat) (pll : Bool) : State := if pll && s.layerOn l then s.setLyrLock l false else s

theorem silence_eq (s : State) (l : Nat) (pll : Bool) : s.silence l pll =
    if !(lockShown s l pll).layerOn l || (mget (lockShown s l pll).vcp.silent l).isSome || (layerChans l).all (lockShown s l pll).chanOut then lockShown s l pll
    else (recovering (heartbeatsStopped (lockShown s l pll) l) l).raise .layerSilent l 0 := rfl

theorem lockShown_only (s : State) (l : Nat) (pll : Bool) : only [.regs] s (lockShown s l pll) := only_ite (setLyrLock_only false) (only_refl _ _)

theorem lockShown_chanOut (pll : Bool) (c : Nat) (hl : l - 2 < 16) : (lockShown s l pll).chanOut c = s.chanOut c := by
  unfold lockShown
  split
  · exact setLyrLock_chanOut false c hl
  · rfl

theorem layerOn_congr (h : t.fuse = s.fuse) (l : Nat) : t.layerOn l = s.layerOn l := by
  rw [State.layerOn, State.layerOn, State.topLayer, State.topLayer, State.nChans, State.nChans, State.variant, State.variant, h]

theorem layerOn_lt (h : s.layerOn l = true) : l - 2 < 16 := by
  have hn := nChans_cases s
  simp only [State.layerOn, State.topLayer, Bool.and_eq_true, decide_eq_true_eq] at h
  obtain ⟨hlow, htop⟩ := h
  have htop' := of_decide_eq_true htop
  omega

/-- The two channels of a layer are two. -/
theorem layerChans_nodup (l : Nat) : (layerChans l).Nodup := by simp [layerChans]

theorem heartbeatsStopped_chn (h : c ∈ layerChans l) : (heartbeatsStopped s l).chn c = { s.chn c with heartbeat := false } := by
  rw [heartbeatsStopped, set_chn_of]
  exact each_at (φ := fun x => x.chn c) (I := fun _ => True) (R := fun x y => y = { x with heartbeat := false }) (layerChans_nodup l) h trivial (fun _ _ _ => trivial)
    (fun x b _ hb => chn_setChn_ne hb.symm _) (fun x _ => chn_setChn_same _)

theorem heartbeatsStopped_only (s : State) (l : Nat) : only [.chan, .regs] s (heartbeatsStopped s l) :=
  only_trans (only_each fun x a => only_mono (by simp) (only_setChn _ _)) (only_mono (by simp) (only_set _ _))

theorem heartbeatsStopped_lost (s : State) (l : Nat) : (heartbeatsStopped s l).fld (VCP_LAYER_STATUS_HB_LOST (l - 2)) = 1 :=
  fld_set_fits (f := VCP_LAYER_STATUS_HB_LOST _) (by simp [VCP_LAYER_STATUS_HB_LOST]) (by simp [VCP_LAYER_STATUS_HB_LOST]) (by simp [VCP_LAYER_STATUS_HB_LOST])

theorem heartbeatsStopped_regsBut (s : State) (l : Nat) : regsBut [(VCP_LAYER_STATUS (l - 2)).off] s (heartbeatsStopped s l) :=
  regsBut_trans (regsBut_of_regs ((only_each fun x a => only_setChn _ _) .regs (by decide)))
    (regsBut_set (f := VCP_LAYER_STATUS_HB_LOST _) (by simp [VCP_LAYER_STATUS_HB_LOST, VCP_LAYER_STATUS]))

/-- A fault leaves the registers from 0x10000 on. -/
theorem Faulted.fld_high {f : Fld} (h : Faulted s t) (hf : 0x10000 ≤ f.off) : t.fld f = s.fld f := Frame.fld h fun ho => absurd (faultReg_lt ho) (by omega)

theorem not_faultReg_pll : ¬ faultReg CLK_PLL_STATUS_LYR_LOCK.off := by unfold faultReg recReg packetReg; decide

/-- A silent layer, while nothing else is due, has its fault raised and no more. -/
theorem layerSilent_shows (l : BitVec 5) (pll : Bool) (hlive : s.live = true) (hphase : 5 ≤ s.phase) (hsleep : s.sleep ≤ 1) (hcalm : s.calm = true) (hl : 2 ≤ l.toNat) (htop : l.toNat ≤ s.topLayer)
    (hsilent : mget s.vcp.silent l.toNat = none) (hin : ∃ c, c ∈ layerChans l.toNat ∧ s.chanOut c = false) :
    ∃ t, exec (.layerSilent l pll) s = .next t ∧ mget t.vcp.silent l.toNat = some 0 ∧ (∀ c ∈ layerChans l.toNat, t.chn c = { s.chn c with heartbeat := false })
      ∧ t.fld (VCP_LAYER_STATUS_HB_LOST (l.toNat - 2)) = 1
      ∧ (pll = true → bitAt (t.fld CLK_PLL_STATUS_LYR_LOCK) (l.toNat - 2) = false) ∧ t.fuse = s.fuse ∧ t.fox = s.fox ∧ t.rings = s.rings ∧ t.marl = s.marl := by
  have hon : s.layerOn l.toNat = true := by simp [State.layerOn, hl, htop]
  have hlt := layerOn_lt hon
  have hexec : exec (.layerSilent l pll) s = .next (s.silence l.toNat pll) := if_pos (by simp [hlive, hphase])
  generalize l.toNat = n at *
  have honly := lockShown_only s n pll
  have hout : (layerChans n).all (lockShown s n pll).chanOut = false := by
    obtain ⟨c, hc, hcin⟩ := hin
    exact List.all_eq_false.mpr ⟨c, hc, by rw [lockShown_chanOut pll c hlt, hcin]; simp⟩
  rw [silence_eq, if_neg (by rw [layerOn_congr (honly .fuse (by decide)), hon, honly .vcp (by decide), hsilent, hout]; simp)] at hexec
  have hlock : pll = true → bitAt ((lockShown s n pll).fld CLK_PLL_STATUS_LYR_LOCK) (n - 2) = false := fun hp => by
    rw [lockShown, if_pos (by simp [hp, hon])]
    exact setLyrLock_bit false hlt
  have hsleepL : (lockShown s n pll).fld GLB_PWR_STATUS_STATE = s.fld GLB_PWR_STATUS_STATE := by
    unfold lockShown
    split
    · exact regsBut.fld (setLyrLock_regsBut false) (by simp [GLB_PWR_STATUS_STATE, CLK_PLL_STATUS, VCP_LAYER_STATUS]; omega)
    · rfl
  generalize lockShown s n pll = x at *
  have hstopped := heartbeatsStopped_only x n
  have hbegun := recovering_only (heartbeatsStopped x n) n
  have hfaulty : only [.chan, .regs, .vcp] x (recovering (heartbeatsStopped x n) n) := only_trans (only_mono (by simp) hstopped) (only_mono (by simp) hbegun)
  have hfld : ∀ f, (recovering (heartbeatsStopped x n) n).fld f = (heartbeatsStopped x n).fld f := fld_congr (hbegun .regs (by decide))
  have hchn := chn_congr (hbegun .chan (by decide))
  have hsil : mget (recovering (heartbeatsStopped x n) n).vcp.silent n = some 0 := mget_mput_same _ _ _
  have hall : only [.chan, .regs, .vcp] s (recovering (heartbeatsStopped x n) n) := only_trans (only_mono (by simp) honly) hfaulty
  have hcalmR : (recovering (heartbeatsStopped x n) n).calm = true := (calm_of (hall .pwr (by decide)) (hall .flt (by decide))).trans hcalm
  have hsleepR : (recovering (heartbeatsStopped x n) n).sleep ≤ 1 := by
    rw [State.sleep, hfld, regsBut.fld (heartbeatsStopped_regsBut x n) (by simp [GLB_PWR_STATUS_STATE, VCP_LAYER_STATUS]; omega), hsleepL]
    exact hsleep
  have hlockR : (recovering (heartbeatsStopped x n) n).fld CLK_PLL_STATUS_LYR_LOCK = x.fld CLK_PLL_STATUS_LYR_LOCK := by
    rw [hfld, regsBut.fld (heartbeatsStopped_regsBut x n) (by simp [CLK_PLL_STATUS_LYR_LOCK, VCP_LAYER_STATUS]; omega)]
  have hlost := (hfld (VCP_LAYER_STATUS_HB_LOST (n - 2))).trans (heartbeatsStopped_lost x n)
  have hbeats : ∀ c ∈ layerChans n, (recovering (heartbeatsStopped x n) n).chn c = { s.chn c with heartbeat := false } := fun c hc => by
    rw [hchn, heartbeatsStopped_chn hc, chn_congr (honly .chan (by decide))]
  generalize recovering (heartbeatsStopped x n) n = y at *
  have hf : Faulted y (y.raiseRec .layerSilent n 0) := raiseRec_faulted ⟨hsleepR, (calm_iff.mp hcalmR).2.1⟩
  have hsettle : y.raise .layerSilent n 0 = y.raiseRec .layerSilent n 0 := settle_calm (raiseRec_calm hcalmR hsleepR (by simp [faultOf, causeOf]))
  rw [hsettle] at hexec
  refine ⟨_, hexec, ?_, fun c hc => ?_, ?_, fun hp => ?_, ?_, ?_, ?_, ?_⟩
  · rw [hf.parts .vcp (by decide), hsil]
  · rw [chn_congr (hf.parts .chan (by decide)), hbeats c hc]
  · rw [hf.fld_high (by simp [VCP_LAYER_STATUS_HB_LOST]; omega), hlost]
  · rw [Frame.fld hf not_faultReg_pll, hlockR, hlock hp]
  · exact (hf.parts .fuse (by decide)).trans (hall .fuse (by decide))
  · exact (hf.parts .fox (by decide)).trans (hall .fox (by decide))
  · exact (hf.parts .rings (by decide)).trans (hall .rings (by decide))
  · exact (hf.parts .marl (by decide)).trans (hall .marl (by decide))

/-! ## A relock (R260 steps 2 and 3) -/

/-- A column about to be measured anew: no residual stands. -/
def measuredAnew (s : State) (c : Nat) : State :=
  s.setCol c { s.col c with calTemp := s.layerTemps (layerOf c), residSeen := [], codes := (s.col c).codes.map fun (e : Nat × CoilCode) => (e.1, ({ e.2 with resid := 0 } : CoilCode)) }

theorem recalibrate_nil (s : State) (c : Nat) : s.recalibrate c [] = (measuredAnew s c).judgeResid c := rfl

theorem col_setCol_same (x : Column) : (s.setCol c x).col c = x := mgetD_mput_same _ _ _ _

theorem col_setCol_ne (h : d ≠ c) (x : Column) : (s.setCol c x).col d = s.col d := mgetD_mput_ne h _ _ _

theorem col_congr (h : t.vcp = s.vcp) (c : Nat) : t.col c = s.col c := by rw [State.col, State.col, h]

theorem syncResid_only : only [.regs] s (s.syncResid c) := only_sets _

theorem syncResid_regsBut : regsBut [(VCP_COL_RESID c).off] s (s.syncResid c) :=
  regsBut_sets (by simp [VCP_COL_RESID_RESID_WORST, VCP_COL_RESID_WORST_HOP, VCP_COL_RESID_WORST_POS, VCP_COL_RESID])

/-- Where every residual is 0, the worst is. -/
theorem worst_of_zero {p : Nat → Bool} {codes : List (Nat × CoilCode)} (h : ∀ e ∈ codes, e.2.resid = 0) :
    codes.foldl (fun (b : Nat × Nat) e => if p e.1 && decide (b.1 < e.2.resid.toNat) then (e.2.resid.toNat, e.1) else b) (0, 0) = (0, 0) := by
  induction codes with
  | nil => rfl
  | cons e codes ih =>
    rw [List.foldl_cons, if_neg (by simp [h e List.mem_cons_self])]
    exact ih fun x hx => h x (List.mem_cons_of_mem _ hx)

theorem syncResid_zero (h : ∀ e ∈ (s.col c).codes, e.2.resid = 0) : (s.syncResid c).fld (VCP_COL_RESID_RESID_WORST c) = 0 := by
  have hworst := worst_of_zero (p := fun k => s.coilInUse c (k % 512)) h
  simp only [State.syncResid, hworst]
  refine fld_sets_reads (g := VCP_COL_RESID_RESID_WORST c) [] ⟨by simp [VCP_COL_RESID_RESID_WORST], by simp [VCP_COL_RESID_RESID_WORST]⟩ (by simp [VCP_COL_RESID_RESID_WORST]) fun x hx => ?_
  simp only [List.mem_cons, List.not_mem_nil, or_false] at hx
  rcases hx with rfl | rfl
  · exact ⟨⟨by simp [VCP_COL_RESID_WORST_HOP], by simp [VCP_COL_RESID_WORST_HOP]⟩, .inr (.inl (by simp [VCP_COL_RESID_WORST_HOP, VCP_COL_RESID_RESID_WORST]))⟩
  · exact ⟨⟨by simp [VCP_COL_RESID_WORST_POS], by simp [VCP_COL_RESID_WORST_POS]⟩, .inr (.inl (by simp [VCP_COL_RESID_WORST_POS, VCP_COL_RESID_RESID_WORST]))⟩

/-- A calibration that finds nothing wrong leaves no residual, and records nothing. -/
theorem recalibrate_clean (s : State) (c : Nat) : s.recalibrate c [] = (measuredAnew s c).syncResid c := by
  have hzero : ∀ e ∈ ((measuredAnew s c).col c).codes, e.2.resid = 0 := by
    rw [measuredAnew, col_setCol_same]
    intro e he
    obtain ⟨x, -, rfl⟩ := List.mem_map.mp he
    rfl
  rw [recalibrate_nil, State.judgeResid]
  exact if_neg (by rw [syncResid_zero hzero]; simp)

theorem recalibrate_clean_only : only [.vcp, .regs] s (s.recalibrate c []) := by
  rw [recalibrate_clean]
  exact only_trans (only_mono (by simp) (only_setCol _ _)) (only_mono (by simp) syncResid_only)

theorem recalibrate_clean_col : ((s.recalibrate c []).col c).calTemp = s.layerTemps (layerOf c) := by
  rw [recalibrate_clean, col_congr (syncResid_only .vcp (by decide)), measuredAnew, col_setCol_same]

theorem recalibrate_clean_apart (h : d ≠ c) : (s.recalibrate c []).col d = s.col d := by
  rw [recalibrate_clean, col_congr (syncResid_only .vcp (by decide)), measuredAnew, col_setCol_ne h]

theorem recalibrate_clean_regsBut : regsBut [(VCP_COL_RESID c).off] s (s.recalibrate c []) := by
  rw [recalibrate_clean]
  exact regsBut_trans (regsBut_of_regs (only_setCol _ _ .regs (by decide))) syncResid_regsBut

/-- A channel of a layer that has locked again: its heartbeat is back and its column calibrated, unless it is fenced. -/
def relit (s : State) (c : Nat) : State := if s.on (CHAN_STATUS_FENCED c) then s else (s.setChn c { s.chn c with heartbeat := true }).recalibrate c []

/-- The recovery of a layer has ended. -/
def recovered (s : State) (l : Nat) : State := { s with vcp := { s.vcp with silent := merase l s.vcp.silent } }

theorem relock_eq (l : BitVec 5) (h : mget s.vcp.silent l.toNat = some n) :
    exec (.layerRelockAttempt l (some [])) s = .next ((((((recovered s l.toNat).each (layerChans l.toNat) relit).setLyrLock l.toNat true).inc VCP_LYR_RELOCKS).clearHbLost l.toNat).settle) := by
  show execLayerRelockAttempt l (some []) s = _
  simp only [execLayerRelockAttempt, h]
  rfl

theorem relock_again (l : BitVec 5) (h : mget s.vcp.silent l.toNat = some n) (hn : n + 1 < 3) :
    exec (.layerRelockAttempt l none) s = .next { s with vcp := { s.vcp with silent := mput l.toNat (n + 1) s.vcp.silent } } := by
  show execLayerRelockAttempt l none s = _
  simp only [execLayerRelockAttempt, h]
  exact if_pos hn

theorem relit_only : only [.vcp, .chan, .regs] s (relit s c) := by
  unfold relit
  exact only_ite (only_refl _ _) (only_trans (only_mono (by simp) (only_setChn _ _)) (only_mono (by simp) recalibrate_clean_only))

theorem relit_regsBut : regsBut [(VCP_COL_RESID c).off] s (relit s c) := by
  unfold relit
  exact regsBut_ite (regsBut_refl _ _) (regsBut_trans (regsBut_of_regs (only_setChn _ _ .regs (by decide))) recalibrate_clean_regsBut)

theorem relit_own (h : s.on (CHAN_STATUS_FENCED c) = false) : ((relit s c).chn c).heartbeat = true ∧ ((relit s c).col c).calTemp = s.layerTemps (layerOf c) := by
  rw [relit, if_neg (by simp [h])]
  constructor
  · rw [chn_congr (recalibrate_clean_only .chan (by decide)), chn_setChn_same]
  · exact recalibrate_clean_col

theorem relit_apart (h : d ≠ c) : (relit s c).chn d = s.chn d ∧ (relit s c).col d = s.col d := by
  unfold relit
  split
  · exact ⟨rfl, rfl⟩
  · exact ⟨(chn_congr (recalibrate_clean_only .chan (by decide)) d).trans (chn_setChn_ne h _), recalibrate_clean_apart h⟩

theorem relit_silent : (relit s c).vcp.silent = s.vcp.silent := by
  unfold relit
  split
  · rfl
  · rw [recalibrate_clean, syncResid_only .vcp (by decide)]
    rfl

theorem layerTemps_congr (h : t.thm = s.thm) (h' : t.fuse = s.fuse) (l : Nat) : t.layerTemps l = s.layerTemps l := by
  have htemp : t.temp = s.temp := funext fun n => by
    rw [State.temp, State.temp, State.nChans, State.nChans, State.variant, State.variant, h, h']
  rw [State.layerTemps, State.layerTemps, htemp]

theorem relit_on (hc : c < 32) (d : Nat) : (relit s c).on (CHAN_STATUS_FENCED d) = s.on (CHAN_STATUS_FENCED d) := by
  rw [State.on, State.on, regsBut.fld relit_regsBut (by simp [CHAN_STATUS_FENCED, VCP_COL_RESID]; omega)]

/-- Both channels of a layer that locks again. -/
theorem layerChans_relit (hl : 2 ≤ l) (hl' : l ≤ 17) (hc : c ∈ layerChans l) (h : s.on (CHAN_STATUS_FENCED c) = false) :
    ((s.each (layerChans l) relit).chn c).heartbeat = true ∧ ((s.each (layerChans l) relit).col c).calTemp = s.layerTemps l := by
  have heach : s.each (layerChans l) relit = relit (relit s (2 * (l - 2))) (2 * (l - 2) + 1) := rfl
  simp only [layerChans, List.mem_cons, List.not_mem_nil, or_false] at hc
  rw [heach]
  rcases hc with rfl | rfl
  · obtain ⟨hchn, hcol⟩ := relit_apart (s := relit s (2 * (l - 2))) (c := 2 * (l - 2) + 1) (d := 2 * (l - 2)) (by omega)
    have hown := relit_own h
    rw [show layerOf (2 * (l - 2)) = l by simp only [layerOf]; omega] at hown
    rw [hchn, hcol]
    exact hown
  · have hown := relit_own (s := relit s (2 * (l - 2))) ((relit_on (by omega) _).trans h)
    rwa [layerTemps_congr (relit_only .thm (by decide)) (relit_only .fuse (by decide)), show layerOf (2 * (l - 2) + 1) = l by simp only [layerOf]; omega] at hown

theorem layerChans_lt (hl : l ≤ 17) (hc : c ∈ layerChans l) : c < 32 := by
  simp only [layerChans, List.mem_cons, List.not_mem_nil, or_false] at hc
  omega

theorem layerRelock_ends (l : BitVec 5) (hsilent : mget s.vcp.silent l.toNat = some n) (hl : 2 ≤ l.toNat) (hl' : l.toNat ≤ 17) (hcalm : s.calm = true) :
    ∃ t, exec (.layerRelockAttempt l (some [])) s = .next t ∧ mget t.vcp.silent l.toNat = none
      ∧ (∀ c ∈ layerChans l.toNat, s.on (CHAN_STATUS_FENCED c) = false → (t.chn c).heartbeat = true ∧ (t.col c).calTemp = s.layerTemps l.toNat)
      ∧ bitAt (t.fld CLK_PLL_STATUS_LYR_LOCK) (l.toNat - 2) = true ∧ t.reg VCP_LYR_RELOCKS.off = (s.reg VCP_LYR_RELOCKS.off + 1) % 2 ^ 32 ∧ only [.vcp, .chan, .regs] s t := by
  have hexec := relock_eq l hsilent
  generalize l.toNat = k at *
  have hrec : only [.vcp] s (recovered s k) := only_vcp _
  have hgone : mget (recovered s k).vcp.silent k = none := mget_merase_same _ _
  have heach : ∀ y : State, only [.vcp, .chan, .regs] y (y.each (layerChans k) relit) := fun y => only_each fun x c => relit_only
  have hregs : regsBut ((layerChans k).map fun c => (VCP_COL_RESID c).off) (recovered s k) ((recovered s k).each (layerChans k) relit) :=
    regsBut_each fun x c hc => regsBut_mono (List.cons_subset.mpr ⟨List.mem_map.mpr ⟨c, hc, rfl⟩, List.nil_subset _⟩) relit_regsBut
  have hrelocks : VCP_LYR_RELOCKS.off ∉ (layerChans k).map fun c => (VCP_COL_RESID c).off := by
    rw [List.mem_map]
    rintro ⟨c, -, hc⟩
    simp only [VCP_LYR_RELOCKS, VCP_COL_RESID] at hc
    omega
  have hchans : ∀ c ∈ layerChans k, s.on (CHAN_STATUS_FENCED c) = false →
      (((recovered s k).each (layerChans k) relit).chn c).heartbeat = true ∧ (((recovered s k).each (layerChans k) relit).col c).calTemp = s.layerTemps k := fun c hc hf => by
    have h := layerChans_relit (s := recovered s k) hl hl' hc hf
    rwa [layerTemps_congr (hrec .thm (by decide)) (hrec .fuse (by decide))] at h
  have hsilentE : ((recovered s k).each (layerChans k) relit).vcp.silent = (recovered s k).vcp.silent := each_apart (φ := fun x => x.vcp.silent) fun x c _ => relit_silent
  have hall : only [.vcp, .chan, .regs] s ((recovered s k).each (layerChans k) relit) := only_trans (only_mono (by simp) hrec) (heach _)
  have hregR : ∀ o, (recovered s k).reg o = s.reg o := reg_of_parts hrec (by decide)
  generalize (recovered s k).each (layerChans k) relit = y at *
  have hlock : only [.regs] y ((y.setLyrLock k true).inc VCP_LYR_RELOCKS) := only_trans (setLyrLock_only true) only_inc
  have hended : only [.regs] y (((y.setLyrLock k true).inc VCP_LYR_RELOCKS).clearHbLost k) := only_trans hlock clearHbLost_only
  have hz : only [.vcp, .chan, .regs] s (((y.setLyrLock k true).inc VCP_LYR_RELOCKS).clearHbLost k) := only_trans hall (only_mono (by simp) hended)
  rw [settle_calm ((calm_of (hz .pwr (by decide)) (hz .flt (by decide))).trans hcalm)] at hexec
  refine ⟨_, hexec, ?_, fun c hc hf => ?_, ?_, ?_, hz⟩
  · rw [hended .vcp (by decide), hsilentE, hgone]
  · rw [chn_congr (hended .chan (by decide)), col_congr (hended .vcp (by decide))]
    exact hchans c hc hf
  · rw [regsBut.fld clearHbLost_regsBut (by simp [CLK_PLL_STATUS_LYR_LOCK, VCP_LAYER_STATUS]; omega), fld_inc_ne (by decide)]
    exact setLyrLock_bit true (by omega)
  · have hfld : (y.setLyrLock k true).fld VCP_LYR_RELOCKS = s.reg VCP_LYR_RELOCKS.off := by
      rw [fld_word rfl rfl, setLyrLock_regsBut true _ (by simp [VCP_LYR_RELOCKS, CLK_PLL_STATUS, VCP_LAYER_STATUS]; omega), hregs _ hrelocks, hregR]
    rw [clearHbLost_regsBut _ (by simp [VCP_LYR_RELOCKS, VCP_LAYER_STATUS]; omega), ← fld_word (f := VCP_LYR_RELOCKS) rfl rfl, fld_inc_word rfl rfl, hfld]

/-! ## A layer that is not discovered (R261) -/

/-- A channel fenced before a map is loaded. -/
def fencedEarly (s : State) (c cause : Nat) : State :=
  (s.sets [(CHAN_STATUS_FENCED c, 1), (CHAN_STATUS_FENCE_CAUSE c, cause), (CHAN_STATUS_STATE c, 4), (VCP_COL_STATUS_MODE c, 3)]).setChn c { s.chn c with heartbeat := false }

theorem fenceChannel_early (hf : s.on (CHAN_STATUS_FENCED c) = false) (hc : c < s.nChans) (hp : s.phase < 5) (cause : Nat) :
    s.fenceChannel c cause = (fencedEarly s c cause).raiseRec .fence c cause := by
  unfold State.fenceChannel
  rw [if_neg (by simp [hf, hc]), if_pos (by simp [hp])]
  rfl

/-- What a fence before P5 shows of channel `c`. -/
structure FencedFor (cause c : Nat) (s : State) : Prop where
  fenced : s.fld (CHAN_STATUS_FENCED c) = 1
  shown : s.fld (CHAN_STATUS_FENCE_CAUSE c) = cause
  state : s.fld (CHAN_STATUS_STATE c) = 4
  mode : s.fld (VCP_COL_STATUS_MODE c) = 3
  beat : (s.chn c).heartbeat = false

/-- The registers that a fence before P5 writes. -/
def fenceRegs (c : Nat) : List Nat := [(CHAN_STATUS c).off, (VCP_COL_STATUS c).off]

theorem fencedEarly_regsBut (s : State) (c cause : Nat) : regsBut (fenceRegs c) s (fencedEarly s c cause) :=
  regsBut_trans (regsBut_sets (by simp [fenceRegs, CHAN_STATUS_FENCED, CHAN_STATUS_FENCE_CAUSE, CHAN_STATUS_STATE, VCP_COL_STATUS_MODE, CHAN_STATUS, VCP_COL_STATUS]))
    (regsBut_of_regs (only_setChn _ _ .regs (by decide)))

theorem fencedEarly_only (s : State) (c cause : Nat) : only [.regs, .chan] s (fencedEarly s c cause) :=
  only_trans (only_mono (by simp) (only_sets _)) (only_mono (by simp) (only_setChn _ _))

theorem fencedEarly_shows (hc : c < 32) {cause : Nat} (hcause : cause < 16) : FencedFor cause c (fencedEarly s c cause) := by
  have hp : ∀ f ∈ [CHAN_STATUS_FENCED c, CHAN_STATUS_FENCE_CAUSE c, CHAN_STATUS_STATE c, VCP_COL_STATUS_MODE c], Proper f := by
    simp [Proper, CHAN_STATUS_FENCED, CHAN_STATUS_FENCE_CAUSE, CHAN_STATUS_STATE, VCP_COL_STATUS_MODE]
  have hfld : ∀ f, (fencedEarly s c cause).fld f =
      (s.sets [(CHAN_STATUS_FENCED c, 1), (CHAN_STATUS_FENCE_CAUSE c, cause), (CHAN_STATUS_STATE c, 4), (VCP_COL_STATUS_MODE c, 3)]).fld f := fun f =>
    fld_congr (only_setChn _ _ .regs (by decide)) f
  constructor
  · rw [hfld]
    refine fld_sets_reads (g := CHAN_STATUS_FENCED c) [] (hp _ (by simp)) (by simp [CHAN_STATUS_FENCED]) fun x hx => ⟨?_, ?_⟩
    · exact hp _ (by simp only [List.mem_cons, List.not_mem_nil, or_false] at hx ⊢; rcases hx with rfl | rfl | rfl <;> simp)
    · simp only [List.mem_cons, List.not_mem_nil, or_false] at hx
      rcases hx with rfl | rfl | rfl <;> simp [Apart, CHAN_STATUS_FENCED, CHAN_STATUS_FENCE_CAUSE, CHAN_STATUS_STATE, VCP_COL_STATUS_MODE]
  · rw [hfld]
    refine fld_sets_reads (g := CHAN_STATUS_FENCE_CAUSE c) [_] (hp _ (by simp)) (by simpa [CHAN_STATUS_FENCE_CAUSE] using hcause) fun x hx => ⟨?_, ?_⟩
    · exact hp _ (by simp only [List.mem_cons, List.not_mem_nil, or_false] at hx ⊢; rcases hx with rfl | rfl <;> simp)
    · simp only [List.mem_cons, List.not_mem_nil, or_false] at hx
      rcases hx with rfl | rfl <;> simp [Apart, CHAN_STATUS_FENCE_CAUSE, CHAN_STATUS_STATE, VCP_COL_STATUS_MODE]
      omega
  · rw [hfld]
    refine fld_sets_reads (g := CHAN_STATUS_STATE c) [_, _] (hp _ (by simp)) (by simp [CHAN_STATUS_STATE]) fun x hx => ⟨?_, ?_⟩
    · exact hp _ (by simp only [List.mem_cons, List.not_mem_nil, or_false] at hx ⊢; rcases hx with rfl; simp)
    · obtain rfl := List.mem_singleton.mp hx
      simp [Apart, CHAN_STATUS_STATE, VCP_COL_STATUS_MODE]
  · rw [hfld]
    exact fld_sets_reads (g := VCP_COL_STATUS_MODE c) [_, _, _] (hp _ (by simp)) (by simp [VCP_COL_STATUS_MODE]) (by simp)
  · rw [fencedEarly, chn_setChn_same]

/-- A stack in P4 that is awake and has nothing due. -/
structure Discovering (s : State) : Prop where
  phase : s.phase = 4
  awake : s.sleep ≤ 1
  calm : s.calm = true

theorem fencedEarly_discovering (h : Discovering s) (hc : c < 32) (cause : Nat) : Discovering (fencedEarly s c cause) := by
  obtain ⟨hphase, hawake, hcalm⟩ := h
  have hreg : ∀ f : Fld, f.off < 0x1000 → (fencedEarly s c cause).fld f = s.fld f := fun f hf =>
    regsBut.fld (fencedEarly_regsBut s c cause) (by simp only [fenceRegs, CHAN_STATUS, VCP_COL_STATUS, List.mem_cons, List.not_mem_nil, or_false]; omega)
  have honly := fencedEarly_only s c cause
  exact ⟨(hreg GLB_START_STATUS_PHASE (by decide)).trans hphase, le_of_eq_of_le (hreg GLB_PWR_STATUS_STATE (by decide)) hawake,
    (calm_of (honly .pwr (by decide)) (honly .flt (by decide))).trans hcalm⟩

theorem raiseFence_discovering (h : Discovering s) (cause : Nat) : Discovering (s.raiseRec .fence c cause) := by
  obtain ⟨hphase, hawake, hcalm⟩ := h
  have hf : Faulted s (s.raiseRec .fence c cause) := raiseRec_faulted ⟨hawake, (calm_iff.mp hcalm).2.1⟩
  have hnot : ¬ faultReg GLB_START_STATUS_PHASE.off := by unfold faultReg recReg packetReg; decide
  exact ⟨(Frame.fld hf (f := GLB_START_STATUS_PHASE) hnot).trans hphase, (hf.notSleeping ⟨hawake, (calm_iff.mp hcalm).2.1⟩).1, raiseRec_calm hcalm hawake (by simp [faultOf, causeOf])⟩

/-- What a fence before P5 makes of a channel and of the rest. -/
theorem fenceChannel_discovering (h : Discovering s) (hc : c < s.nChans) {cause : Nat} (hcause : cause < 16) :
    Discovering (s.fenceChannel c cause) ∧ (s.fenceChannel c cause).fuse = s.fuse ∧ (s.fenceChannel c cause).fld (CHAN_STATUS_FENCED c) = 1
      ∧ (s.fld (CHAN_STATUS_FENCED c) = 0 → FencedFor cause c (s.fenceChannel c cause))
      ∧ (∀ f : Fld, 0x10000 ≤ f.off → f.off ∉ fenceRegs c → (s.fenceChannel c cause).fld f = s.fld f) ∧ (∀ d, d ≠ c → (s.fenceChannel c cause).chn d = s.chn d) := by
  by_cases hf : s.on (CHAN_STATUS_FENCED c) = true
  · have hone : s.fld (CHAN_STATUS_FENCED c) = 1 := by
      have hlt := fld_lt s (CHAN_STATUS_FENCED c)
      have hne := (on_iff _).mp hf
      simp only [CHAN_STATUS_FENCED] at hlt hne ⊢
      omega
    have hsame : s.fenceChannel c cause = s := if_pos (by simp [hf])
    rw [hsame]
    exact ⟨h, rfl, hone, fun h0 => by omega, fun _ _ _ => rfl, fun _ _ => rfl⟩
  · have hlt : c < 32 := by have := nChans_cases s; omega
    rw [fenceChannel_early (Bool.not_eq_true _ ▸ hf) hc (by rw [h.phase]; decide)]
    have he := fencedEarly_discovering h hlt cause
    have hfault : Faulted (fencedEarly s c cause) ((fencedEarly s c cause).raiseRec .fence c cause) := raiseRec_faulted ⟨he.awake, (calm_iff.mp he.calm).2.1⟩
    have honly := fencedEarly_only s c cause
    have hshown : FencedFor cause c ((fencedEarly s c cause).raiseRec .fence c cause) := by
      obtain ⟨h1, h2, h3, h4, h5⟩ := fencedEarly_shows (s := s) hlt hcause
      refine ⟨(hfault.fld_high ?_).trans h1, (hfault.fld_high ?_).trans h2, (hfault.fld_high ?_).trans h3, (hfault.fld_high ?_).trans h4, ?_⟩
      · simp only [CHAN_STATUS_FENCED]; omega
      · simp only [CHAN_STATUS_FENCE_CAUSE]; omega
      · simp only [CHAN_STATUS_STATE]; omega
      · simp only [VCP_COL_STATUS_MODE]; omega
      · rw [chn_congr (hfault.parts .chan (by decide)), h5]
    refine ⟨raiseFence_discovering he cause, (hfault.parts .fuse (by decide)).trans (honly .fuse (by decide)), hshown.fenced, fun _ => hshown, fun f hhigh hout => ?_, fun d hd => ?_⟩
    · rw [hfault.fld_high hhigh, regsBut.fld (fencedEarly_regsBut s c cause) hout]
    · rw [chn_congr (hfault.parts .chan (by decide)), fencedEarly, chn_setChn_ne hd]
      exact chn_congr ((only_sets _) .chan (by decide)) d

theorem nChans_congr (h : t.fuse = s.fuse) : t.nChans = s.nChans := by rw [State.nChans, State.nChans, State.variant, State.variant, h]

theorem fenceRegs_apart {f : Fld} (hf : f.off ∈ fenceRegs c) (hne : d ≠ c) (hc : c < 32) (hd : d < 32) : f.off ∉ fenceRegs d := by
  simp only [fenceRegs, CHAN_STATUS, VCP_COL_STATUS, List.mem_cons, List.not_mem_nil, or_false] at hf ⊢
  omega

/-- A later fence leaves what a channel shows. -/
theorem FencedFor.kept {cause : Nat} (h : FencedFor cause c s) (hkeep : ∀ f : Fld, 0x10000 ≤ f.off → f.off ∉ fenceRegs d → t.fld f = s.fld f) (hchn : t.chn c = s.chn c)
    (hne : d ≠ c) (hc : c < 32) (hd : d < 32) : FencedFor cause c t := by
  obtain ⟨h1, h2, h3, h4, h5⟩ := h
  have hfld : ∀ f : Fld, f.off ∈ fenceRegs c → t.fld f = s.fld f := fun f hf => hkeep f (by
    simp only [fenceRegs, CHAN_STATUS, VCP_COL_STATUS, List.mem_cons, List.not_mem_nil, or_false] at hf; omega) (fenceRegs_apart hf hne hc hd)
  exact ⟨(hfld (CHAN_STATUS_FENCED c) (.head _)).trans h1, (hfld (CHAN_STATUS_FENCE_CAUSE c) (.head _)).trans h2, (hfld (CHAN_STATUS_STATE c) (.head _)).trans h3,
    (hfld (VCP_COL_STATUS_MODE c) (.tail _ (.head _))).trans h4, by rw [hchn, h5]⟩

/-- Both channels of a layer that is not discovered. -/
theorem layerChans_undiscovered (h : Discovering s) {cause : Nat} (hcause : cause < 16) (htop : s.layerOn l = true) (hc : c ∈ layerChans l) :
    Discovering (s.each (layerChans l) fun t c => t.fenceChannel c cause)
      ∧ (s.each (layerChans l) fun t c => t.fenceChannel c cause).fld (CHAN_STATUS_FENCED c) = 1
      ∧ (s.fld (CHAN_STATUS_FENCED c) = 0 → FencedFor cause c (s.each (layerChans l) fun t c => t.fenceChannel c cause)) := by
  have heach : (s.each (layerChans l) fun t c => t.fenceChannel c cause) = (s.fenceChannel (2 * (l - 2)) cause).fenceChannel (2 * (l - 2) + 1) cause := rfl
  have hn := nChans_cases s
  simp only [State.layerOn, Bool.and_eq_true] at htop
  obtain ⟨hlow, hhigh⟩ := htop
  have hlow' := of_decide_eq_true hlow
  have hhigh' : l ≤ 1 + s.nChans / 2 := of_decide_eq_true hhigh
  obtain ⟨hd, hfuse, hone, hshown, hkeep, hchn⟩ := fenceChannel_discovering h (c := 2 * (l - 2)) (by omega) hcause
  obtain ⟨hd', -, hone', hshown', hkeep', hchn'⟩ := fenceChannel_discovering hd (c := 2 * (l - 2) + 1) (by rw [nChans_congr hfuse]; omega) hcause
  simp only [layerChans, List.mem_cons, List.not_mem_nil, or_false] at hc
  rw [heach]
  rcases hc with rfl | rfl
  · refine ⟨hd', ?_, fun h0 => (hshown h0).kept hkeep' (hchn' _ (by omega)) (by omega) (by omega) (by omega)⟩
    rw [hkeep' (CHAN_STATUS_FENCED (2 * (l - 2))) (by simp only [CHAN_STATUS_FENCED]; omega) (fenceRegs_apart (c := 2 * (l - 2)) (.head _) (by omega) (by omega) (by omega)), hone]
  · refine ⟨hd', hone', fun h0 => hshown' ?_⟩
    rw [hkeep (CHAN_STATUS_FENCED (2 * (l - 2) + 1)) (by simp only [CHAN_STATUS_FENCED]; omega) (fenceRegs_apart (c := 2 * (l - 2) + 1) (.head _) (by omega) (by omega) (by omega)), h0]

/-- Settles O15: the freeze of layer 1, a layer's heartbeat lost and regained, a silent layer and its relock, and a layer that is not discovered. -/
theorem heartbeatCommands : Obligations.HeartbeatCommands := by
  refine ⟨fun s himage hstore hsleep hphase hb => marlHbLoss_freezes himage hstore hsleep hphase hb, fun c s hc hvdram hvpp hheld => ?_, fun c s hc hlive hheld hbeat => ?_,
    fun l pll s hlive hphase hsleep hcalm hl htop hsilent hin => layerSilent_shows l pll hlive hphase hsleep hcalm hl htop hsilent hin,
    fun l n s hsilent => ⟨fun hn => relock_again l hsilent hn, fun hl hl' hcalm => layerRelock_ends l hsilent hl hl' hcalm⟩,
    fun l s hphase hsleep hcalm hl htop hdisc => ?_⟩
  · have hown := hbMissed_chn_own (s := s) (c := c.toNat)
    refine ⟨_, layerHbLoss_missed c hc hvdram hvpp hheld, ?_, ?_, ?_, ?_, ?_, ?_, fun d hd => hbMissed_chn_apart hd, fun h => ?_, ?_, hbMissed_lost s _, hbMissed_count s _,
      hbMissed_regsBut s _, hbMissed_only s _⟩
    · rw [hown]
    · rw [hown]; rfl
    · rw [hown]; rfl
    · rw [hown]
      intro r hr
      obtain ⟨x, -, rfl⟩ := List.mem_map.mp hr
      rfl
    · rw [hown]
      exact List.length_map _
    · rw [hown]
      exact List.length_map _
    · rw [hbMissed_chan]
      exact cutBursts_dram h
    · rw [hbMissed, incSat_start, set_start]
      exact retainedShown_bit (layerIndex_lt hc)
  · refine ⟨_, exitSr_left c hc hlive hheld hbeat, ?_, fun d hd => ?_, regsBut_trans (regsBut_of_regs (only_setChn _ _ .regs (by decide))) clearHbLost_regsBut,
      only_trans (only_mono (by simp) (only_setChn _ _)) (only_mono (by simp) clearHbLost_only)⟩
    · rw [chn_congr (clearHbLost_only .chan (by decide)), chn_setChn_same]
    · rw [chn_congr (clearHbLost_only .chan (by decide)), chn_setChn_ne hd]
  · have hon : s.layerOn l.toNat = true := by simp [State.layerOn, hl, htop]
    have hexec : exec (.layerDiscoveryTimeout l) s = .next ((s.each (layerChans l.toNat) fun t c => t.fenceChannel c 4).settle) := if_pos ⟨hphase, hon, by simp [State.on, hdisc]⟩
    have hboth := fun c (hc : c ∈ layerChans l.toNat) => layerChans_undiscovered ⟨hphase, hsleep, hcalm⟩ (cause := 4) (by decide) hon hc
    rw [settle_calm (hboth (2 * (l.toNat - 2)) (.head _)).1.calm] at hexec
    refine ⟨_, hexec, fun c hc => ?_⟩
    obtain ⟨-, hone, hshown⟩ := hboth c hc
    exact ⟨hone, fun h0 => ⟨(hshown h0).shown, (hshown h0).state, (hshown h0).mode, (hshown h0).beat⟩⟩

end Sys2Proof.Proofs
end

section
/-! SUPPORT. Operations of ring 0: what their start, their end and their refusal leave (R305, R313, R488). -/

namespace Sys2Proof.Proofs

set_option Elab.async false

open Sys2Proof.Machine Sys2Proof.Laws

variable {s t u : State} {d : Desc} {op job : Nat} {st : BitVec 8} {res : List (BitVec 8)}

/-! ## An operation starts -/

theorem activity_only : only [.regs, .pwr] s s.activity := by
  have hset : ∀ (x : State) (f : Fld) (v : Nat), only [.regs, .pwr] x (x.set f v) := fun x f v => only_mono (by simp) (only_set f v)
  have hpwr : ∀ (x : State) (p : PwrSt), only [.regs, .pwr] x { x with pwr := p } := fun x p => only_mono (by simp) (only_pwr p)
  unfold State.activity
  dsimp only
  split <;> split
  · exact only_trans (hset s GLB_PWR_STATUS_STATE 0) (only_trans (hpwr _ _) (hset _ _ _))
  · exact hset _ _ _
  · exact only_trans (hpwr s _) (hset _ _ _)
  · exact only_refl _ _

/-- The operation that a descriptor asks for. -/
def mgmtFor (op : Nat) (d : Desc) : Mgmt := { job := d.job, op := BitVec.ofNat 8 op, payload := d.payload }

/-- The descriptor of a job is running. -/
def markedRunning (s : State) (d : Desc) : Ring := { s.ring 0 with descs := (s.ring 0).descs.map fun (x : Desc) => if x.job = d.job then { x with st := .running } else x }

/-- The operation has joined those under way. -/
def joined (s : State) (op : Nat) (d : Desc) : State := { s with fox := { s.fox with mgmt := s.fox.mgmt ++ [mgmtFor op d] } }

/-- Ring 0 with its next operation under way. -/
def underWay (s : State) (op : Nat) (d : Desc) : State := (joined s op d).putRing 0 (markedRunning s d)

/-- The operation has begun: but for a change of the power state, that is activity (R80). -/
def begun (s : State) (op : Nat) (d : Desc) : State := if op = 0x44 then underWay s op d else (underWay s op d).activity

theorem joined_only : only [.fox] s (joined s op d) := only_fox _

theorem underWay_only : only [.fox, .rings, .regs] s (underWay s op d) := only_trans (only_mono (by simp) joined_only) (only_mono (by simp) (only_putRing _ _))

theorem begun_only : only [.fox, .rings, .pwr, .regs] s (begun s op d) := by
  unfold begun
  split
  · exact only_mono (by simp) underWay_only
  · exact only_trans (only_mono (by simp) underWay_only) (only_mono (by simp) activity_only)

theorem underWay_reg {o : Nat} (h : o ≠ (RING_STATUS 0).off) : (underWay s op d).reg o = s.reg o :=
  (reg_set_ne (f := RING_STATUS_INFLIGHT 0) _ h _).trans (reg_congr (joined_only (op := op) (d := d) .regs (by decide)) o)

theorem begun_reg {o : Nat} (h : o ≠ (RING_STATUS 0).off) (h' : o ≠ GLB_PWR_STATUS.off) : (begun s op d).reg o = s.reg o := by
  unfold begun
  split
  · exact underWay_reg h
  · exact (reg_activity h').trans (underWay_reg h)

theorem begun_fld {f : Fld} (h : f.off ≠ (RING_STATUS 0).off) (h' : f.off ≠ GLB_PWR_STATUS.off) : (begun s op d).fld f = s.fld f := by
  rw [State.fld, State.fld, begun_reg h h']

theorem begun_fox : (begun s op d).fox = { s.fox with mgmt := s.fox.mgmt ++ [mgmtFor op d] } := by
  have h : (underWay s op d).fox = { s.fox with mgmt := s.fox.mgmt ++ [mgmtFor op d] } := only_putRing _ _ .fox (by decide)
  unfold begun
  split
  · exact h
  · exact (activity_only .fox (by decide)).trans h

theorem begun_ring (n : Nat) : (begun s op d).ring n = if n = 0 then markedRunning s d else s.ring n := by
  have h : (underWay s op d).ring n = if n = 0 then markedRunning s d else s.ring n := by
    split
    next h0 => rw [h0, underWay, putRing_ring_same]
    next h0 => rw [underWay, putRing_ring_ne h0]; rfl
  unfold begun
  split
  · exact h
  · exact (activity_ring n).trans h

theorem begun_cpls : ((begun s op d).ring 0).cpls = (s.ring 0).cpls := by rw [begun_ring]; rfl

theorem startMgmt_some (h : s.nextMgmt = some d) (hop : descOp d.hdr 0 = op) (f : State → Mgmt → State) :
    s.startMgmt op f = if s.on GLB_START_STATUS_FW_DEGRADED && !([0x50, 0x54].contains op) then (begun s op d).mgmtRefuse d.job stSTATE (mgmtBlock op d.payload)
      else f (begun s op d) (mgmtFor op d) := by
  unfold State.startMgmt
  rw [h]
  dsimp only
  rw [if_neg (by simp [hop])]
  rfl

theorem startMgmt_eq (h : s.nextMgmt = some d) (hop : descOp d.hdr 0 = op) (hfw : s.fld GLB_START_STATUS_FW_DEGRADED = 0 ∨ op = 0x50 ∨ op = 0x54) (f : State → Mgmt → State) :
    s.startMgmt op f = f (begun s op d) (mgmtFor op d) := by
  rw [startMgmt_some h hop, if_neg (by rcases hfw with h0 | h0 | h0 <;> simp [State.on, h0])]

theorem starts0_eq (h : s.starts0 op d) (f : State → Mgmt → State) : s.startMgmt op f = f (begun s op d) (mgmtFor op d) := by
  obtain ⟨hnext, hop, hfw⟩ := h
  exact startMgmt_eq hnext hop (.inl hfw) f

/-! ## An operation ends -/

/-- Ring 0 holds the descriptor of a job, not yet done. -/
def Holds (job : Nat) (s : State) : Prop := ∃ y ∈ (s.ring 0).descs, y.job = job ∧ y.st ≠ .done

theorem Holds.of_rings (h : Holds job s) (hr : t.rings = s.rings) : Holds job t := by rwa [Holds, State.ring, hr, ← State.ring]

theorem nextMgmt_mem (h : s.nextMgmt = some d) : d ∈ (s.ring 0).descs := by
  unfold State.nextMgmt at h
  dsimp only at h
  split at h
  · cases h
  next x hx =>
    split at h
    · rw [← Option.some.inj h]
      exact List.mem_of_find?_eq_some hx
    · cases h

theorem begun_holds (h : s.nextMgmt = some d) : Holds d.job (begun s op d) := by
  rw [Holds, begun_ring, if_pos rfl]
  exact ⟨{ d with st := .running }, List.mem_map.mpr ⟨d, nextMgmt_mem h, if_pos rfl⟩, rfl, by simp⟩

/-- The entry that ends a job. -/
theorem finishDesc_ended {stage detail : Nat} (h : Holds job s) :
    ∃ e : CplEntry, ((s.finishDesc 0 job st stage detail res).ring 0).cpls = (s.ring 0).cpls ++ [e] ∧ e.job = job ∧ e.status = st ∧ e.result = slice res 0 16 := by
  obtain ⟨y, hy, hjob, hst⟩ := h
  unfold State.finishDesc
  dsimp only
  split
  next hnone => exact absurd (List.find?_eq_none.mp hnone y hy) (by simp [hjob, hst])
  next x hx =>
    rw [putRing_ring_same]
    exact ⟨_, rfl, rfl, rfl, rfl⟩

theorem mgmtDone_ended {detail : Nat} (h : Holds job u) (hc : (u.ring 0).cpls = (s.ring 0).cpls) : ended0 s (u.mgmtDone job st res detail) job st res := by
  obtain ⟨e, hcpls, he⟩ := finishDesc_ended (s := { u with fox := { u.fox with mgmt := u.fox.mgmt.filter fun m => m.job != job } }) (st := st) (stage := 0) (detail := detail) (res := res) h
  exact ⟨e, hcpls.trans (congrArg (· ++ [e]) hc), he⟩

theorem mgmtDone_only' {l : List Part} (h : only l s u) (hl : ringParts ⊆ l) : only l s (u.mgmtDone job st res) := only_trans h (only_mono hl (mgmtDone_only _ _ _ _))

theorem mgmtRefuse_ended {blk : Nat} (h : Holds job u) (hc : (u.ring 0).cpls = (s.ring 0).cpls) : ended0 s (u.mgmtRefuse job st blk) job st [] := by
  have hcount : ∀ x : State, x.rings = u.rings → ended0 s (x.mgmtDone job st []) job st [] := fun x hx =>
    mgmtDone_ended (h.of_rings hx) (by rw [State.ring, hx, ← State.ring, hc])
  unfold State.mgmtRefuse
  dsimp only
  split
  · exact hcount _ (only_inc .rings (by decide))
  · exact hcount _ (only_viol .rings (by decide))

/-- An operation that ends at once, from what its rule makes of the state in which it has begun. -/
theorem begun_ended (h : s.nextMgmt = some d) (hr : u.rings = (begun s op d).rings) : ended0 s (u.mgmtDone d.job st res) d.job st res :=
  mgmtDone_ended ((begun_holds h).of_rings hr) (by rw [State.ring, hr, ← State.ring, begun_cpls])

/-- An operation that runs on. -/
theorem begun_runs (hr : u.rings = (begun s op d).rings) (hf : u.fox.mgmt = (begun s op d).fox.mgmt) : runs0 s u op d :=
  ⟨by rw [hf, begun_fox]; rfl, by rw [State.ring, hr, ← State.ring, begun_cpls]⟩

end Sys2Proof.Proofs
end

section
/-! SUPPORT. The freeze of the log and the firmware slots (R322, R323, R427): what the recorder keeps of the Sett, and what the bytes of a slot read. -/

namespace Sys2Proof.Proofs

set_option Elab.async false

open Sys2Proof.Machine Sys2Proof.Laws

variable {s t u : State} {d : Desc} {via : Path}

/-! ## Freeze and thaw through REC_CTL -/

theorem recCtl_legal {v : Nat} (hv : v = 1 ∨ v = 2) (hl : s.locked = false) : s.legal REC_CTL.off v = true := by
  rcases hv with rfl | rfl
  · exact legal_of_openWord (b := .recorder) (o := 0x000) rfl (by decide +kernel) rfl rfl hl
  · exact legal_of_openWord (b := .recorder) (o := 0x000) rfl (by decide +kernel) rfl rfl hl

theorem applyWrite_recCtl {v : Nat} (dsc : RegDesc) : s.applyWrite via .recorder REC_CTL.off 0x000 v dsc = atOnce (s.recCtlWrite via v) := rfl

/-- A write of REC_CTL that the recorder takes. -/
theorem recCtl_taken {v : Nat} (hv : v = 1 ∨ v = 2) (ht : s.takes via .recorder = true) (hl : s.locked = false) (hrule : s.recCtlWrite via v = (stOK, t)) (honly : only [.recd, .sett, .regs] s t) :
    s.pathWrite via REC_CTL.off v = t.pathStatus via stOK :=
  pathWrite_legal (b := .recorder) (o := 0x000) rfl (recCtl_legal hv hl) ht (by decide) (fun dsc _ => atOnce_ok (applyWrite_recCtl dsc) hrule)
    (calm_of (honly .pwr (by decide)) (honly .flt (by decide)))

/-- A freeze that drains what is staged first. -/
def draining (s : State) (waiter : Bool) : State := { s with recd := { s.recd with freeze := .draining, waiter := waiter } }

theorem startFreeze_drains {w : Bool} (hoff : s.recd.freeze = .off) (hq : s.recd.staging ≠ []) : s.startFreeze w = some (draining s w) := by
  have hq' : s.recd.staging.isEmpty = false := by simpa [List.isEmpty_iff] using hq
  simp [State.startFreeze, hoff, State.checkFreeze, hq', draining]

theorem startFreeze_now {w : Bool} (hoff : s.recd.freeze = .off) (hq : s.recd.staging = []) : s.startFreeze w = some (draining s w).freezeNow := by
  simp [State.startFreeze, hoff, State.checkFreeze, hq, draining]

/-- A freeze in effect at this microsecond. -/
def frozenNow (s : State) : State := { s with recd := { s.recd with freeze := .frozen s.now, waiter := false } }

theorem freezeNow_alone : (draining s false).freezeNow = frozenNow s := rfl

theorem recCtl_freezes (hl : s.locked = false) (h : s.startFreeze false = some t) : s.recCtlWrite via 1 = (stOK, t) := by
  simp [State.recCtlWrite, hl, h]

theorem recCtl_thaws (hl : s.locked = false) (h : s.isFrozen = true) : s.recCtlWrite via 2 = (stOK, s.thawNow) := by
  simp [State.recCtlWrite, hl, h]

/-! ## REC_FREEZE on ring 0 -/

theorem begun_recd {op : Nat} : (begun s op d).recd = s.recd := begun_only .recd (by decide)

theorem recFreeze_starts (h : s.starts0 0x51 d) (hp : 8 ≤ d.payload.length) (hz : zeroAt d.payload 1 7 = true) (hon : byteAt d.payload 0 = 1) :
    exec (.recFreezeOn none) s = .next (match (begun s 0x51 d).startFreeze true with
      | some t => t
      | none => (begun s 0x51 d).mgmtRefuse d.job stSTATE (mgmtBlock 0x51 d.payload)) := by
  have hrow : s.freezeRow true = s.startMgmt 0x51 fun t m => t.recFreezeOp m := by
    unfold State.freezeRow
    rw [h.1]
    simp [hon]
  show Host.Outcome.next (s.freezeRow true) = _
  rw [hrow, starts0_eq h]
  simp only [State.recFreezeOp, mgmtFor, hz, hon]
  simp [show ¬ d.payload.length < 8 by omega] <;> rfl

theorem recThaw_starts (h : s.starts0 0x51 d) (hp : 8 ≤ d.payload.length) (hz : zeroAt d.payload 1 7 = true) (hoff : byteAt d.payload 0 = 0) (hfrozen : s.isFrozen = true) :
    exec (.recThaw none) s = .next ((begun s 0x51 d).thawNow.mgmtDone d.job stOK (leBytes 4 (begun s 0x51 d).thawNow.recNewest)) := by
  have hrow : s.freezeRow false = s.startMgmt 0x51 fun t m => t.recFreezeOp m := by
    unfold State.freezeRow
    rw [h.1]
    simp [hoff]
  have hfrozen' : (begun s 0x51 d).isFrozen = true := by
    rw [← hfrozen, State.isFrozen, State.isFrozen, begun_recd]
  show Host.Outcome.next (s.freezeRow false) = _
  rw [hrow, starts0_eq h]
  simp [State.recFreezeOp, mgmtFor, hz, hoff, hfrozen', show ¬ d.payload.length < 8 by omega]

/-- The newest record is told from the log and the number that comes next. -/
theorem recNewest_congr (h : t.sett = s.sett) (h' : t.recd.rseq = s.recd.rseq) : t.recNewest = s.recNewest := by
  have htop : t.rseqTop = s.rseqTop := by rw [State.rseqTop, State.rseqTop, h']
  have hrecs : t.logRecs = s.logRecs := by rw [State.logRecs, State.logRecs, h]
  rw [State.recNewest, State.recNewest, hrecs, htop]

/-- With nothing staged, the one freeze that ring 0 asks for takes effect and answers. -/
theorem freezeNow_answers (hwait : s.mgmtOf 0x51 = []) (hon : byteAt d.payload 0 = 1) :
    (draining (begun s 0x51 d) true).freezeNow = (frozenNow (begun s 0x51 d)).mgmtDone d.job stOK (leBytes 4 s.recNewest) := by
  have hmine : (frozenNow (begun s 0x51 d)).mgmtOf 0x51 = [mgmtFor 0x51 d] := by
    show (begun s 0x51 d).fox.mgmt.filter _ = _
    rw [begun_fox, List.filter_append, show s.fox.mgmt.filter _ = s.mgmtOf 0x51 from rfl, hwait]
    rfl
  have hnew : (frozenNow (begun s 0x51 d)).recNewest = s.recNewest := recNewest_congr (begun_only .sett (by decide)) (congrArg (·.rseq) (begun_recd (s := s) (op := 0x51)))
  have heq : (draining (begun s 0x51 d) true).freezeNow = (frozenNow (begun s 0x51 d)).each ((frozenNow (begun s 0x51 d)).mgmtOf 0x51)
      fun t m => if byteAt m.payload 0 = 1 then t.mgmtDone m.job stOK (leBytes 4 t.recNewest) else t := rfl
  rw [heq, hmine, ← hnew]
  exact if_pos hon

/-! ## Slots of the Sett -/

/-- One byte of a firmware slot. -/
def slotByte (addr : Nat) (m : List (Nat × BitVec 8)) (e : Nat × BitVec 8) : List (Nat × BitVec 8) := if e.2 = 0 then merase (addr + e.1) m else mput (addr + e.1) e.2 m

theorem slotWrite_sett (s : State) (addr : Nat) (b : List (BitVec 8)) : (s.slotWrite addr b).sett = { s.sett with fw := (enum b).foldl (slotByte addr) s.sett.fw } := rfl

theorem slotByte_same (addr : Nat) (m : List (Nat × BitVec 8)) (e : Nat × BitVec 8) : mgetD (slotByte addr m e) (addr + e.1) 0 = e.2 := by
  unfold slotByte
  split
  next h => simp [mgetD, h]
  · simp

theorem slotByte_ne {k : Nat} (addr : Nat) (m : List (Nat × BitVec 8)) (e : Nat × BitVec 8) (h : k ≠ addr + e.1) : mgetD (slotByte addr m e) k 0 = mgetD m k 0 := by
  unfold slotByte
  split
  · rw [mgetD, mgetD, mget_merase_ne h]
  · exact mgetD_mput_ne h _ _ _

theorem slotBytes_outside {k addr : Nat} (bs : List (Nat × BitVec 8)) (m : List (Nat × BitVec 8)) (h : ∀ e ∈ bs, k ≠ addr + e.1) : mgetD (bs.foldl (slotByte addr) m) k 0 = mgetD m k 0 := by
  induction bs generalizing m with
  | nil => rfl
  | cons e bs ih =>
    rw [List.foldl_cons, ih _ fun x hx => h x (List.mem_cons_of_mem _ hx)]
    exact slotByte_ne addr m e (h e List.mem_cons_self)

theorem slotBytes_inside {addr : Nat} {e : Nat × BitVec 8} (bs : List (Nat × BitVec 8)) (m : List (Nat × BitVec 8)) (hnd : (bs.map Prod.fst).Nodup) (he : e ∈ bs) :
    mgetD (bs.foldl (slotByte addr) m) (addr + e.1) 0 = e.2 := by
  induction bs generalizing m with
  | nil => simp at he
  | cons b bs ih =>
    rw [List.map_cons, List.nodup_cons] at hnd
    obtain ⟨hout, hnd⟩ := hnd
    rw [List.foldl_cons]
    rcases List.mem_cons.mp he with rfl | he
    · rw [slotBytes_outside bs _ fun x hx hk => hout (List.mem_map.mpr ⟨x, hx, by omega⟩)]
      exact slotByte_same addr m e
    · exact ih _ hnd he

theorem enum_nodup {α : Type} (l : List α) : ((enum l).map Prod.fst).Nodup := by
  rw [enum, List.map_fst_zip (by simp)]
  exact List.nodup_range

theorem mem_enum {b : List (BitVec 8)} {i : Nat} (h : i < b.length) : (i, b.getD i 0) ∈ enum b := by
  refine List.mem_iff_getElem.mpr ⟨i, by simpa [enum] using h, ?_⟩
  simp [enum, h]

theorem slotWrite_byte {addr i : Nat} {b : List (BitVec 8)} (h : i < b.length) : mgetD (s.slotWrite addr b).sett.fw (addr + i) 0 = b.getD i 0 :=
  slotBytes_inside (e := (i, b.getD i 0)) _ _ (enum_nodup b) (mem_enum h)

theorem slotWrite_outside {addr k : Nat} {b : List (BitVec 8)} (h : k < addr ∨ addr + b.length ≤ k) : mgetD (s.slotWrite addr b).sett.fw k 0 = mgetD s.sett.fw k 0 :=
  slotBytes_outside _ _ fun e he => by have := enum_fst_lt he; omega

theorem markSlot_sett {slot : Nat} (m : SlotSt) (h : slot ≤ 1) :
    (s.markSlot slot m).sett = { s.sett with slotA := if slot = 0 then m else s.sett.slotA, slotB := if slot = 1 then m else s.sett.slotB } := by
  obtain rfl | rfl : slot = 0 ∨ slot = 1 := by omega
  · rfl
  · rfl

theorem markSlot_only {slot : Nat} (m : SlotSt) : only [.sett] s (s.markSlot slot m) := only_sett _

theorem fwSlotWrite_eq (h : s.nextMgmt = some d) (hop : descOp d.hdr 0 = 0x54) {slot at_ : Nat} (hlen : 16 ≤ d.payload.length) (hslot : byteAt d.payload 0 = slot) (hle : slot ≤ 1)
    (hz : leAt d.payload 1 3 = 0) (hat : leAt d.payload 4 4 = at_) (h8 : at_ % 8 = 0) (hroom : at_ + (d.payload.length - 8) ≤ 1048576) :
    exec .fwSlotWrite s = .next (if s.fld GLB_START_STATUS_FW_SLOT = slot + 1 then (begun s 0x54 d).mgmtRefuse d.job stSTATE 0x90000
      else (((begun s 0x54 d).slotWrite (slot * 1048576 + at_) (d.payload.drop 8)).markSlot slot .written).mgmtDone d.job stOK []) := by
  have hfw : (begun s 0x54 d).fld GLB_START_STATUS_FW_SLOT = s.fld GLB_START_STATUS_FW_SLOT := begun_fld (by decide) (by decide)
  show execFwSlotWrite s = _
  unfold execFwSlotWrite
  rw [startMgmt_eq h hop (.inr (.inr rfl))]
  simp only [mgmtFor, hslot, hz, hat, h8, List.length_drop, hfw]
  rw [if_neg (by omega)]

/-! ## What the recorder keeps of the Sett -/

/-- A record that comes into being touches the pages of the log alone in the Sett. -/
theorem record_sett (typ : BitVec 8) (sev code unit : Nat) (tail : List (BitVec 8)) : (s.record typ sev code unit tail).sett = { s.sett with pages := (s.record typ sev code unit tail).sett.pages } := by
  have henq : ∀ cap n q r, (s.enqueue cap n q r).1.sett = s.sett := fun cap n q r => enqueue_only cap n q r .sett (by decide)
  simp only [State.record]
  split
  · split
    · rfl
    · dsimp only
      rw [henq]
  · split
    · rfl
    · split
      · split
        · rfl
        · split <;> rfl
      · dsimp only
        rw [henq]

/-! ## Activation (R323) -/

theorem checkImage_congr (h : t.fuse = s.fuse) (hregion : t.fld OTP_REGION_STATUS = s.fld OTP_REGION_STATUS) (hfloor : t.fld FOX_FW_FLOOR = s.fld FOX_FW_FLOOR) (img : List (BitVec 8)) :
    t.checkImage img = s.checkImage img := by
  have hok : t.regionOk 6 = s.regionOk 6 := by rw [State.regionOk, State.regionOk, hregion, h]
  have hrow : t.fuseRow = s.fuseRow := funext fun r => by rw [State.fuseRow, State.fuseRow, h]
  rw [State.checkImage, State.checkImage, hok, hrow, hfloor, State.variant, State.variant, h]

theorem begun_image {slot : Nat} : (begun s 0x55 d).checkImage ((begun s 0x55 d).slotImage slot) = s.checkImage (s.slotImage slot) := by
  rw [checkImage_congr (begun_only .fuse (by decide)) (begun_fld (by decide) (by decide)) (begun_fld (by decide) (by decide)), State.slotImage, State.slotImage, begun_only .sett (by decide)]

/-- The event that notes an activation. -/
def activationNoted (t : State) (slot result svn : Nat) : State := t.event 0x0F 1 slot result svn

/-- The slot chosen for the next start. -/
def slotChosen (t : State) (slot : Nat) : State := { t.markSlot slot .verified with sett := { (t.markSlot slot .verified).sett with active := slot + 1 } }

theorem fwActivate_eq (h : s.starts0 0x55 d) {slot : Nat} (hlen : 8 ≤ d.payload.length) (hslot : byteAt d.payload 0 = slot) (hle : slot ≤ 1) (hz : leAt d.payload 1 7 = 0) :
    ∃ svn, exec .fwActivate s = .next (match s.checkImage (s.slotImage slot) with
      | .ok v digest _ => (activationNoted (slotChosen (begun s 0x55 d) slot) slot 0 svn).mgmtDone d.job stOK (leBytes 8 v ++ digest.take 8)
      | .malformed => (activationNoted ((begun s 0x55 d).markSlot slot .failed) slot 6 svn).mgmtDone d.job stMALFORMED []
      | .access => (activationNoted ((begun s 0x55 d).markSlot slot .failed) slot 2 svn).mgmtDone d.job stACCESS []) := by
  refine ⟨leAt ((begun s 0x55 d).slotImage slot) 8 2, ?_⟩
  show execFwActivate s = _
  unfold execFwActivate
  rw [starts0_eq h]
  simp only [mgmtFor, hslot, hz]
  rw [if_neg (by omega), begun_image]
  cases s.checkImage (s.slotImage slot) <;> rfl

theorem activationNoted_only (t : State) (slot result svn : Nat) : only [.recd, .sett, .regs] t (activationNoted t slot result svn) := record_only _ _ _ _ _

/-- An activation ends with its event noted: the marks stand, and the answer joins the queue. -/
theorem activation_ends (h : s.nextMgmt = some d) {slot result svn : Nat} {st : BitVec 8} {res : List (BitVec 8)} (hu : only [.sett] (begun s 0x55 d) u) :
    only [.fox, .rings, .pwr, .recd, .sett, .regs] s ((activationNoted u slot result svn).mgmtDone d.job st res) ∧ ended0 s ((activationNoted u slot result svn).mgmtDone d.job st res) d.job st res
      ∧ ∃ pages, ((activationNoted u slot result svn).mgmtDone d.job st res).sett = { u.sett with pages := pages } := by
  have hnoted := activationNoted_only u slot result svn
  refine ⟨mgmtDone_only' (only_trans (only_mono (by simp) begun_only) (only_trans (only_mono (by simp) hu) (only_mono (by simp) hnoted))) (by simp [ringParts]),
    begun_ended h ((hnoted .rings (by decide)).trans (hu .rings (by decide))), (activationNoted u slot result svn).sett.pages, ?_⟩
  exact (mgmtDone_only _ _ _ _ .sett (by decide)).trans (record_sett _ _ _ _ _)

/-! ## The statement -/

/-- Settles O36: freeze and thaw through REC_CTL and ring 0, the bytes of a firmware slot, and its activation. -/
theorem logAndFirmware : Obligations.LogAndFirmware := by
  refine ⟨fun p s ht hl => ⟨fun hoff => ?_, fun hfrozen => ?_⟩, fun s d hstart hlen hz => ⟨fun hon hoff hq => ?_, fun hon hoff hq hwait => ?_, fun h0 hfrozen => ?_⟩,
    fun s d slot at_ hnext hop hlen hslot hle hz hat h8 hroom => ?_, fun s d slot hstart hlen hslot hle hz => ?_⟩
  · by_cases hq : s.recd.staging = []
    · have hrule := recCtl_freezes (via := p) hl (startFreeze_now hoff hq)
      have honly : only [.recd] s (frozenNow s) := only_recd _
      rw [freezeNow_alone] at hrule
      have hw := recCtl_taken (.inl rfl) ht hl hrule (only_mono (by simp) honly)
      have hrecd : ((frozenNow s).pathStatus p stOK).recd = { s.recd with freeze := .frozen s.now, waiter := false } := only_pathStatus _ _ .recd (by decide)
      exact ⟨_, congrArg Host.Outcome.next hw, by rw [hrecd], fun h => absurd hq h, fun _ => hrecd, taken_of_only (only_mono (by simp) honly) (by decide)⟩
    · have hrule := recCtl_freezes (via := p) hl (startFreeze_drains hoff hq)
      have honly : only [.recd] s (draining s false) := only_recd _
      have hw := recCtl_taken (.inl rfl) ht hl hrule (only_mono (by simp) honly)
      have hrecd : ((draining s false).pathStatus p stOK).recd = { s.recd with freeze := .draining, waiter := false } := only_pathStatus _ _ .recd (by decide)
      exact ⟨_, congrArg Host.Outcome.next hw, by rw [hrecd], fun _ => hrecd, fun h => absurd h hq, taken_of_only (only_mono (by simp) honly) (by decide)⟩
  · obtain ⟨⟨hfree, hheld⟩, honly⟩ := thawNow_thawed (s := s)
    have hw := recCtl_taken (.inr rfl) ht hl (recCtl_thaws (via := p) hl hfrozen) honly
    have hrecd : (s.thawNow.pathStatus p stOK).recd = s.thawNow.recd := only_pathStatus _ _ .recd (by decide)
    exact ⟨_, congrArg Host.Outcome.next hw, by rw [hrecd, hfree], by rw [hrecd, hheld], taken_of_only (only_mono (by simp) honly) (by decide)⟩
  · have hrec := begun_recd (s := s) (d := d) (op := 0x51)
    have hexec := recFreeze_starts hstart hlen hz hon
    rw [startFreeze_drains (by rw [hrec, hoff]) (by rw [hrec]; exact hq)] at hexec
    refine ⟨_, hexec, begun_runs rfl rfl, ?_, only_trans (only_mono (by simp) begun_only) (only_mono (by simp) (only_recd _))⟩
    show ({ (begun s 0x51 d).recd with freeze := .draining, waiter := true } : RecorderSt) = _
    rw [hrec]
  · have hrec := begun_recd (s := s) (d := d) (op := 0x51)
    have hexec := recFreeze_starts hstart hlen hz hon
    rw [startFreeze_now (by rw [hrec, hoff]) (by rw [hrec, hq])] at hexec
    simp only [freezeNow_answers hwait hon] at hexec
    have honly : only [.recd] (begun s 0x51 d) (frozenNow (begun s 0x51 d)) := only_recd _
    refine ⟨_, hexec, begun_ended hstart.1 rfl, ?_, mgmtDone_only' (only_trans (only_mono (by simp) begun_only) (only_mono (by simp) honly)) (by simp [ringParts])⟩
    rw [mgmtDone_only _ _ _ _ .recd (by decide)]
    show ({ (begun s 0x51 d).recd with freeze := .frozen (begun s 0x51 d).now, waiter := false } : RecorderSt) = _
    rw [hrec, begun_only .now (by decide)]
  · have hfrozen' := hfrozen
    obtain ⟨⟨hfree, hheld⟩, honly⟩ := thawNow_thawed (s := begun s 0x51 d)
    have hdone := mgmtDone_only (s := (begun s 0x51 d).thawNow) d.job stOK (leBytes 4 (begun s 0x51 d).thawNow.recNewest) 0
    have hnew : ((begun s 0x51 d).thawNow.mgmtDone d.job stOK (leBytes 4 (begun s 0x51 d).thawNow.recNewest)).recNewest = (begun s 0x51 d).thawNow.recNewest :=
      recNewest_congr (hdone .sett (by decide)) (congrArg (·.rseq) (hdone .recd (by decide)))
    refine ⟨_, recThaw_starts hstart hlen hz h0 hfrozen, ?_, ?_, ?_, mgmtDone_only' (only_trans (only_mono (by simp) begun_only) (only_mono (by simp) honly)) (by simp [ringParts])⟩
    · rw [hnew]
      exact begun_ended hstart.1 (honly .rings (by decide))
    · rw [hdone .recd (by decide), hfree]
    · rw [hdone .recd (by decide), hheld]
  · have hexec := fwSlotWrite_eq hnext hop hlen hslot hle hz hat h8 hroom
    refine ⟨fun hrun => ?_, fun hrun => ?_⟩
    · rw [if_neg hrun] at hexec
      have hwrite := slotWrite_sett (begun s 0x54 d) (slot * 1048576 + at_) (d.payload.drop 8)
      have hsett : ((((begun s 0x54 d).slotWrite (slot * 1048576 + at_) (d.payload.drop 8)).markSlot slot .written).mgmtDone d.job stOK []).sett =
          { s.sett with fw := ((begun s 0x54 d).slotWrite (slot * 1048576 + at_) (d.payload.drop 8)).sett.fw, slotA := if slot = 0 then .written else s.sett.slotA,
                        slotB := if slot = 1 then .written else s.sett.slotB } := by
        rw [mgmtDone_only _ _ _ _ .sett (by decide), markSlot_sett _ hle, hwrite, begun_only .sett (by decide)]
      have hbytes : (d.payload.drop 8).length = d.payload.length - 8 := List.length_drop
      have honly : only [.sett] (begun s 0x54 d) (((begun s 0x54 d).slotWrite (slot * 1048576 + at_) (d.payload.drop 8)).markSlot slot .written) :=
        only_trans (only_sett _) (markSlot_only _)
      refine ⟨_, hexec, begun_ended hnext rfl, fun i hi => ?_, fun a ha => ?_, ?_, mgmtDone_only' (only_trans (only_mono (by simp) begun_only) (only_mono (by simp) honly)) (by simp [ringParts])⟩
      · rw [hsett]
        exact (slotWrite_byte (by omega)).trans (by simp [List.getD_eq_getElem?_getD])
      · rw [hsett]
        exact (slotWrite_outside (by omega)).trans (by rw [begun_only .sett (by decide)])
      · rw [hsett]
    · rw [if_pos hrun] at hexec
      exact ⟨_, hexec, mgmtRefuse_ended (begun_holds hnext) begun_cpls, only_trans (only_mono (by simp) begun_only) (only_mono (by simp [ringParts]) (mgmtRefuse_only _ _ _))⟩
  · obtain ⟨svn, hexec⟩ := fwActivate_eq hstart hlen hslot hle hz
    have hsett := begun_only (s := s) (d := d) (op := 0x55) .sett (by decide)
    refine ⟨_, hexec, ?_⟩
    cases s.checkImage (s.slotImage slot) with
    | ok v digest x =>
      obtain ⟨honly, hended, pages, hpages⟩ := activation_ends (slot := slot) (result := 0) (svn := svn) (st := stOK) (res := leBytes 8 v ++ digest.take 8) hstart.1
        (show only [.sett] (begun s 0x55 d) (slotChosen (begun s 0x55 d) slot) from only_trans (markSlot_only _) (only_sett _))
      refine ⟨honly, hended, ?_, ?_⟩
      · exact (congrArg (·.active) hpages).trans rfl
      · rw [hpages]
        show (if slot = 0 then ((begun s 0x55 d).markSlot slot .verified).sett.slotA else ((begun s 0x55 d).markSlot slot .verified).sett.slotB) = _
        rw [markSlot_sett _ hle]
        obtain rfl | rfl : slot = 0 ∨ slot = 1 := by omega
        · rfl
        · rfl
    | malformed =>
      obtain ⟨honly, hended, pages, hpages⟩ := activation_ends (slot := slot) (result := 6) (svn := svn) (st := stMALFORMED) (res := []) hstart.1 (markSlot_only (slot := slot) .failed)
      rw [markSlot_sett _ hle, hsett] at hpages
      refine ⟨honly, hended, congrArg (·.active) hpages, ?_⟩
      rw [hpages]
      obtain rfl | rfl : slot = 0 ∨ slot = 1 := by omega
      · rfl
      · rfl
    | access =>
      obtain ⟨honly, hended, pages, hpages⟩ := activation_ends (slot := slot) (result := 2) (svn := svn) (st := stACCESS) (res := []) hstart.1 (markSlot_only (slot := slot) .failed)
      rw [markSlot_sett _ hle, hsett] at hpages
      refine ⟨honly, hended, congrArg (·.active) hpages, ?_⟩
      rw [hpages]
      obtain rfl | rfl : slot = 0 ∨ slot = 1 := by omega
      · rfl
      · rfl

end Sys2Proof.Proofs
end

section
/-! SUPPORT. Ring-0 operations that end at once (R290, R298, R312, R313, R417, R433, R445): each one's own rule on the state in which it has begun. -/

namespace Sys2Proof.Proofs

set_option Elab.async false

open Sys2Proof.Machine Sys2Proof.Laws

variable {s t u : State} {d : Desc} {job n : Nat} {st : BitVec 8} {res : List (BitVec 8)}

/-! ## What the end of an operation leaves -/

theorem mgmtDone_reg {o : Nat} (h : o ≠ (RING_STATUS 0).off) : (s.mgmtDone job st res).reg o = s.reg o := by
  have hfox : ∀ x : FoxSt, ({ s with fox := x } : State).reg o = s.reg o := fun _ => rfl
  unfold State.mgmtDone State.finishDesc
  dsimp only
  split
  · exact hfox _
  · exact (reg_set_ne (f := RING_STATUS_INFLIGHT 0) _ h _).trans rfl

theorem mgmtDone_fld {f : Fld} (h : f.off ≠ (RING_STATUS 0).off) : (s.mgmtDone job st res).fld f = s.fld f := by rw [State.fld, State.fld, mgmtDone_reg h]

theorem mgmtDone_ring_ne (h : n ≠ 0) : (s.mgmtDone job st res).ring n = s.ring n := by
  unfold State.mgmtDone State.finishDesc
  dsimp only
  split
  · rfl
  · exact (putRing_ring_ne h _).trans rfl

theorem leNum_lt (l : List (BitVec 8)) : leNum l < 256 ^ l.length := by
  induction l with
  | nil => simp [leNum]
  | cons b l ih =>
    have hb : b.toNat < 256 := b.isLt
    rw [leNum, List.length_cons, pow_succ]
    omega

theorem leAt_lt (p : List (BitVec 8)) (i n : Nat) : leAt p i n < 256 ^ n := by
  have h := leNum_lt (slice p i n)
  rwa [slice_length] at h

theorem leAt4_lt (p : List (BitVec 8)) (i : Nat) : leAt p i 4 < 2 ^ 32 := leAt_lt p i 4

/-! ## NOP -/

theorem nop_ends (h : s.starts0 0x40 d) : ∃ t, exec .nop s = .next t ∧ ended0 s t d.job stOK (slice d.payload 0 8) ∧ only [.fox, .rings, .pwr, .regs] s t := by
  have hexec : exec .nop s = .next ((begun s 0x40 d).mgmtDone d.job stOK (slice d.payload 0 8)) := congrArg Host.Outcome.next (starts0_eq h _)
  exact ⟨_, hexec, begun_ended h.1 rfl, mgmtDone_only' begun_only (by simp [ringParts])⟩

/-! ## RING_SETUP (R314) and RING_RESUME (R312) -/

theorem namesRing_bounds {p : List (BitVec 8)} (h : namesRing p = true) : 1 ≤ byteAt p 0 ∧ byteAt p 0 ≤ 63 := by
  simp only [namesRing, Bool.and_eq_true, decide_eq_true_eq] at h
  exact ⟨h.1.1.2, h.1.2⟩

theorem begun_ringSt {op : Nat} (hn : n ≠ 0) (hn' : n ≤ 63) : (begun s op d).ringSt n = s.ringSt n :=
  begun_fld (by simp only [RING_STATUS_STATE, RING_STATUS]; omega) (by simp only [RING_STATUS_STATE, GLB_PWR_STATUS]; omega)

/-- The nine set-up registers of a ring take the words of a payload. -/
def setupWritten (s : State) (n : Nat) (p : List (BitVec 8)) : State := s.each (List.range 9) fun u i => u.setReg ((RING_SQ_LO n).off + 4 * i) (leAt p (8 + 4 * i) 4)

theorem setupWritten_only (p : List (BitVec 8)) : only [.regs] s (setupWritten s n p) := only_each fun _ _ => only_setReg

/-- A register written once in a list of writes to distinct registers reads its word. -/
theorem setRegs_reads {α : Type} {xs : List α} {off : α → Nat} {v : α → Nat} {a : α} (ha : a ∈ xs) (hnd : xs.Nodup) (hinj : ∀ b ∈ xs, off b = off a → b = a) :
    (s.each xs fun u x => u.setReg (off x) (v x)).reg (off a) = v a % 2 ^ 32 := by
  have hrest : ∀ (ys : List α) (x : State), (∀ b ∈ ys, off a ≠ off b) → (x.each ys fun u x => u.setReg (off x) (v x)).reg (off a) = x.reg (off a) := fun ys x hys =>
    each_apart (φ := fun x => x.reg (off a)) fun x b hb => reg_setReg_ne x (hys b hb) _
  induction xs generalizing s with
  | nil => simp at ha
  | cons b xs ih =>
    rw [List.nodup_cons] at hnd
    obtain ⟨hout, hnd⟩ := hnd
    show ((s.setReg (off b) (v b)).each xs fun u x => u.setReg (off x) (v x)).reg (off a) = _
    rcases List.mem_cons.mp ha with rfl | ha
    · rw [hrest xs _ fun c hc he => hout (hinj c (List.mem_cons_of_mem _ hc) he.symm ▸ hc), reg_setReg_same]
    · exact ih ha hnd fun c hc => hinj c (List.mem_cons_of_mem _ hc)

theorem setupWritten_reg {i : Nat} (p : List (BitVec 8)) (hi : i < 9) : (setupWritten s n p).reg ((RING_SQ_LO n).off + 4 * i) = leAt p (8 + 4 * i) 4 := by
  have h := setRegs_reads (s := s) (off := fun i => (RING_SQ_LO n).off + 4 * i) (v := fun i => leAt p (8 + 4 * i) 4) (List.mem_range.mpr hi) List.nodup_range fun b _ hb => by
    omega
  rw [Nat.mod_eq_of_lt (leAt4_lt p _)] at h
  exact h

/-- ENABLE leaves the set-up of its ring. -/
theorem enableRing_setup {i : Nat} (hi : i < 9) : (s.enableRing n).reg ((RING_SQ_LO n).off + 4 * i) = s.reg ((RING_SQ_LO n).off + 4 * i) := by
  have hne : ∀ o, 0x24 ≤ o → o < 0x40 → (RING_SQ_LO n).off + 4 * i ≠ 0x9000 + 0x40 * n + o := fun o h h' => by simp only [RING_SQ_LO]; omega
  rw [State.enableRing, State.putRing, reg_set_ne (f := RING_STATUS_INFLIGHT n) _ (by simp only [RING_SQ_LO, RING_STATUS_INFLIGHT]; omega), reg_congr (only_setRing _ _ .regs (by decide)),
    sets_cons, sets_cons, sets_cons, sets_cons, sets_nil, reg_set_ne (f := RING_CQ_TAIL n) _ (by simp only [RING_SQ_LO, RING_CQ_TAIL]; omega),
    reg_set_ne (f := RING_SQ_PROD n) _ (by simp only [RING_SQ_LO, RING_SQ_PROD]; omega), reg_set_ne (f := RING_SQ_IDX n) _ (by simp only [RING_SQ_LO, RING_SQ_IDX]; omega),
    reg_set_ne (f := RING_STATUS_STATE n) _ (by simp only [RING_SQ_LO, RING_STATUS_STATE]; omega)]

theorem ringSetup_eq (h : s.starts0 0x41 d) (hname : namesRing d.payload = true) (hlen : 48 ≤ d.payload.length) (hz : leAt d.payload 44 4 = 0) (hn : n = byteAt d.payload 0)
    (hok : setupOk (leAt d.payload 8 4) (leAt d.payload 16 4) (leAt d.payload 24 4) (leAt d.payload 32 4) (leAt d.payload 36 4) (leAt d.payload 40 4) = true) (hst : s.ringSt n = 0) :
    exec .ringSetup s = .next (((setupWritten (begun s 0x41 d) n d.payload).enableRing n).mgmtDone d.job stOK []) := by
  subst hn
  obtain ⟨h1, h63⟩ := namesRing_bounds hname
  show execRingSetup s = _
  unfold execRingSetup
  rw [starts0_eq h]
  simp only [mgmtFor, hname, hz, begun_ringSt (show byteAt d.payload 0 ≠ 0 by omega) h63, hst]
  rw [if_neg (by simp only [hok]; simp; exact decide_eq_false (Nat.not_lt.mpr hlen)), if_neg (by simp)]
  rfl

theorem ringSetup_ends (h : s.starts0 0x41 d) (hname : namesRing d.payload = true) (hlen : 48 ≤ d.payload.length) (hz : leAt d.payload 44 4 = 0) (hn : n = byteAt d.payload 0)
    (hok : setupOk (leAt d.payload 8 4) (leAt d.payload 16 4) (leAt d.payload 24 4) (leAt d.payload 32 4) (leAt d.payload 36 4) (leAt d.payload 40 4) = true) (hst : s.ringSt n = 0) :
    ∃ t, exec .ringSetup s = .next t ∧ ended0 s t d.job stOK [] ∧ (∀ i, i < 9 → t.reg ((RING_SQ_LO n).off + 4 * i) = leAt d.payload (8 + 4 * i) 4)
      ∧ t.ringSt n = 1 ∧ t.ringF n = 0 ∧ t.ringK n = 0 ∧ t.ringT n = 0 ∧ t.ring n = {} ∧ (∀ k, k ≠ 0 → k ≠ n → t.ring k = s.ring k) ∧ only [.fox, .rings, .pwr, .regs] s t := by
  have hexec := ringSetup_eq h hname hlen hz hn hok hst
  obtain ⟨h1, h63⟩ := namesRing_bounds hname
  rw [← hn] at h1 h63
  have hw := setupWritten_only (s := begun s 0x41 d) (n := n) d.payload
  have hwr := fun i hi => setupWritten_reg (s := begun s 0x41 d) (n := n) (i := i) d.payload hi
  have hring : ∀ k, (setupWritten (begun s 0x41 d) n d.payload).ring k = (begun s 0x41 d).ring k := fun k => by rw [State.ring, hw .rings (by decide), ← State.ring]
  have hall : only [.fox, .rings, .pwr, .regs] s (setupWritten (begun s 0x41 d) n d.payload) := only_trans begun_only (only_mono (by simp) hw)
  have hholds : Holds d.job (setupWritten (begun s 0x41 d) n d.payload) := (begun_holds h.1).of_rings (hw .rings (by decide))
  generalize setupWritten (begun s 0x41 d) n d.payload = x at *
  have hring0 : (x.enableRing n).ring 0 = x.ring 0 := enableRing_ring_ne (by omega)
  obtain ⟨hprod, htail⟩ := enableRing_indices (s := x) (n := n)
  have hne : ∀ o, 0x24 ≤ o → o < 0x40 → 0x9000 + o + 0x40 * n ≠ (RING_STATUS 0).off := fun o h h' => by simp only [RING_STATUS]; omega
  refine ⟨_, hexec, ?_, fun i hi => ?_, ?_, ?_, ?_, ?_, ?_, fun k hk hkn => ?_, mgmtDone_only' (only_trans hall (only_mono (by simp) enableRing_only)) (by simp [ringParts])⟩
  · refine mgmtDone_ended ?_ ?_
    · rwa [Holds, hring0, ← Holds]
    · rw [hring0, hring, begun_cpls]
  · rw [mgmtDone_reg (by simp only [RING_SQ_LO, RING_STATUS]; omega), enableRing_setup hi, hwr i hi]
  · exact (mgmtDone_fld (f := RING_STATUS_STATE n) (by simp only [RING_STATUS_STATE, RING_STATUS]; omega)).trans enableRing_ringSt
  · exact (mgmtDone_fld (f := RING_SQ_IDX n) (by simp only [RING_SQ_IDX, RING_STATUS]; omega)).trans enableRing_fetchIndex
  · exact (mgmtDone_fld (f := RING_SQ_PROD n) (by simp only [RING_SQ_PROD, RING_STATUS]; omega)).trans hprod
  · exact (mgmtDone_fld (f := RING_CQ_TAIL n) (by simp only [RING_CQ_TAIL, RING_STATUS]; omega)).trans htail
  · rw [mgmtDone_ring_ne (by omega), enableRing_ring]
  · rw [mgmtDone_ring_ne hk, enableRing_ring_ne hkn, hring, begun_ring, if_neg hk]

theorem ringResume_eq (h : s.starts0 0x43 d) (hname : namesRing d.payload = true) (hn : n = byteAt d.payload 0) (hst : s.ringSt n = 2) :
    exec .ringResume s = .next (((begun s 0x43 d).resumeRing n).mgmtDone d.job stOK []) := by
  subst hn
  obtain ⟨h1, h63⟩ := namesRing_bounds hname
  show execRingResume s = _
  unfold execRingResume
  rw [starts0_eq h]
  simp only [mgmtFor, hname, begun_ringSt (show byteAt d.payload 0 ≠ 0 by omega) h63, hst]
  rw [if_neg (by simp), if_neg (by simp)]

theorem resumeRing_only : only [.sw, .regs, .fox, .rings, .pwr] s (s.resumeRing n) := by
  rw [resumeRing_eq]
  exact only_trans (only_mono (by simp) resumeRead_only) (only_mono (by simp) activity_only)

theorem readRcb_ring_ne {k use : Nat} (h : k ≠ n) : (s.readRcb n use).ring k = s.ring k := by
  unfold State.readRcb
  dsimp only
  split
  · rfl
  · rw [sendOwn_ring, setRing_ring_ne h]

theorem resumeRing_ring_ne {k : Nat} (h : k ≠ n) : (s.resumeRing n).ring k = s.ring k := by
  rw [resumeRing_eq, activity_ring, resumeRead, readRcb_ring_ne h, setRing_ring_ne h, forsake_ring, sets_ring]

theorem ringResume_ends (h : s.starts0 0x43 d) (hname : namesRing d.payload = true) (hn : n = byteAt d.payload 0) (hst : s.ringSt n = 2) :
    ∃ t, exec .ringResume s = .next t ∧ ended0 s t d.job stOK [] ∧ t.ringSt n = 1 ∧ t.fld (RING_STATUS_HALT_CAUSE n) = 0 ∧ t.fld (RING_STATUS_HALT_STATUS n) = 0
      ∧ t.ring n = { s.ring n with cplHeld := false, rcbRead := some 2 } ∧ (∀ k, k ≠ 0 → k ≠ n → t.ring k = s.ring k) ∧ only [.fox, .rings, .pwr, .sw, .regs] s t := by
  have hexec := ringResume_eq h hname hn hst
  obtain ⟨h1, h63⟩ := namesRing_bounds hname
  rw [← hn] at h1 h63
  have hring0 : ((begun s 0x43 d).resumeRing n).ring 0 = (begun s 0x43 d).ring 0 := resumeRing_ring_ne (by omega)
  have hall := only_trans (only_mono (l := [.fox, .rings, .pwr, .sw, .regs]) (by simp) (begun_only (s := s) (op := 0x43) (d := d))) (only_mono (by simp) (resumeRing_only (n := n)))
  refine ⟨_, hexec, mgmtDone_ended ?_ ?_, ?_, ?_, ?_, ?_, fun k hk hkn => ?_, mgmtDone_only' hall (by simp [ringParts])⟩
  · rw [Holds, hring0, ← Holds]
    exact begun_holds h.1
  · rw [hring0, begun_cpls]
  · exact (mgmtDone_fld (f := RING_STATUS_STATE n) (by simp only [RING_STATUS_STATE, RING_STATUS]; omega)).trans (resumeRing_ringSt (by omega))
  · exact (mgmtDone_fld (f := RING_STATUS_HALT_CAUSE n) (by simp only [RING_STATUS_HALT_CAUSE, RING_STATUS]; omega)).trans (resumeRing_haltCause (by omega))
  · exact (mgmtDone_fld (f := RING_STATUS_HALT_STATUS n) (by simp only [RING_STATUS_HALT_STATUS, RING_STATUS]; omega)).trans (resumeRing_haltStatus (by omega))
  · rw [mgmtDone_ring_ne (by omega), resumeRing_ring, begun_ring, if_neg (by omega)]
  · rw [mgmtDone_ring_ne hk, resumeRing_ring_ne hkn, begun_ring, if_neg hk]

/-! ## SET_PSTATE (R80 to R83) -/

theorem underWay_fld {op : Nat} {f : Fld} (h : f.off ≠ (RING_STATUS 0).off) : (underWay s op d).fld f = s.fld f := by rw [State.fld, State.fld, underWay_reg h]

theorem begun44 : begun s 0x44 d = underWay s 0x44 d := if_pos rfl

theorem begun44_pwr : (begun s 0x44 d).pwr = s.pwr := by rw [begun44, underWay_only .pwr (by decide)]

theorem begun44_fld {f : Fld} (h : f.off ≠ (RING_STATUS 0).off) : (begun s 0x44 d).fld f = s.fld f := by rw [begun44, underWay_fld h]

/-- What refuses a sleep is nothing of ring 0. -/
theorem begun44_refused : (begun s 0x44 d).sleepRefused = s.sleepRefused := by
  have hp := begun_only (s := s) (op := 0x44) (d := d)
  have hring : ∀ i, (begun s 0x44 d).ring (i + 1) = s.ring (i + 1) := fun i => by rw [begun_ring, if_neg (by omega)]
  have hfld : ∀ f : Fld, f.off ≠ (RING_STATUS 0).off → (begun s 0x44 d).fld f = s.fld f := fun _ => begun44_fld
  have hmem : (begun s 0x44 d).memCfg = s.memCfg := by
    rw [State.memCfg, State.memCfg, begun44, underWay_reg (by decide)]
  have hunits : (begun s 0x44 d).unitResets = s.unitResets := hp .unitResets (by decide)
  have hchan := chn_congr (hp .chan (by decide))
  have hn : (begun s 0x44 d).nChans = s.nChans := nChans_congr (hp .fuse (by decide))
  have hfin : ∀ i, (begun s 0x44 d).unfinished (i + 1) = s.unfinished (i + 1) := fun i => by
    rw [State.unfinished, State.unfinished, hring, State.ringSt, State.ringSt, State.ringK, State.ringK, State.ringF, State.ringF]
    rw [hfld _ (by simp only [RING_STATUS_STATE, RING_STATUS]; omega), hfld _ (by simp only [RING_SQ_PROD, RING_STATUS]; omega), hfld _ (by simp only [RING_SQ_IDX, RING_STATUS]; omega)]
  have hfrac : ∀ c, (begun s 0x44 d).fld (CHAN_PASR_FRACTION c) = s.fld (CHAN_PASR_FRACTION c) := fun c => hfld _ (by simp only [CHAN_PASR_FRACTION, RING_STATUS]; omega)
  simp only [State.sleepRefused, State.pasrEven, State.parity, hmem, hfin, hunits, hchan, hn, hfrac]

/-- What SET_PSTATE asks for. -/
theorem setPstate_eq {target : Nat} (h : s.starts0 0x44 d) (hlen : 8 ≤ d.payload.length) (hz : leAt d.payload 1 3 = 0) (htarget : byteAt d.payload 0 = target) (ht : 1 ≤ target ∧ target ≤ 3)
    (hmgmt : s.fox.mgmt = []) (href : s.sleepRefused = false) (hentry : s.pwr.entry = none) :
    exec .setPstate s = .next (if target = 1 then ((begun s 0x44 d).mgmtDone d.job stOK []).askS1 else (begun s 0x44 d).startSleep target .ring0 (leAt d.payload 4 4)).settle := by
  have hothers : ((begun s 0x44 d).fox.mgmt.any fun x => x.job != d.job) = false := by
    rw [begun_fox, hmgmt]
    simp [mgmtFor]
  show execSetPstate s = _
  unfold execSetPstate
  rw [starts0_eq h]
  simp only [mgmtFor, htarget, hz, hothers, begun44_refused, href, begun44_pwr, hentry]
  rw [if_neg (by omega), if_neg (by simp)]

theorem askS1_only : only [.pwr, .regs] s s.askS1 := only_trans (only_mono (by simp) (only_pwr _)) (only_mono (by simp) (only_set _ _))

theorem setPstate_s1 (h : s.starts0 0x44 d) (hlen : 8 ≤ d.payload.length) (hz : leAt d.payload 1 3 = 0) (htarget : byteAt d.payload 0 = 1) (hmgmt : s.fox.mgmt = []) (href : s.sleepRefused = false)
    (hcalm : s.calm = true) :
    ∃ t, exec .setPstate s = .next t ∧ ended0 s t d.job stOK [] ∧ t.pwr = { s.pwr with s1Req := true } ∧ t.fld GLB_PWR_STATUS_TARGET = 1 ∧ t.sleep = s.sleep ∧ only [.fox, .rings, .pwr, .regs] s t := by
  obtain ⟨hdue, hentry, hgrave⟩ := calm_iff.mp hcalm
  have hexec := setPstate_eq h hlen hz htarget (by omega) hmgmt href hentry
  rw [if_pos rfl] at hexec
  have hended : ended0 s ((begun s 0x44 d).mgmtDone d.job stOK []) d.job stOK [] := begun_ended h.1 rfl
  have hpwr : ((begun s 0x44 d).mgmtDone d.job stOK []).pwr = s.pwr := (mgmtDone_only _ _ _ _ .pwr (by decide)).trans begun44_pwr
  have hall : only [.fox, .rings, .pwr, .regs] s ((begun s 0x44 d).mgmtDone d.job stOK []) := mgmtDone_only' begun_only (by simp [ringParts])
  have hsleep : ((begun s 0x44 d).mgmtDone d.job stOK []).sleep = s.sleep := (mgmtDone_fld (by decide)).trans (begun44_fld (by decide))
  generalize (begun s 0x44 d).mgmtDone d.job stOK [] = x at *
  have hask := askS1_only (s := x)
  have hpwr' : x.askS1.pwr = { s.pwr with s1Req := true } := by
    rw [← hpwr, State.askS1, only_set _ _ .pwr (by decide)]
  have hcalm' : x.askS1.calm = true :=
    calm_iff.mpr ⟨by rw [hpwr']; exact hdue, by rw [hpwr']; exact hentry, (graveRec_congr (by rw [hask .flt (by decide), hall .flt (by decide)])).trans hgrave⟩
  rw [settle_calm hcalm'] at hexec
  refine ⟨_, hexec, ?_, hpwr', fld_set_fits (f := GLB_PWR_STATUS_TARGET) (by decide) (by decide) (by decide), ?_, only_trans hall (only_mono (by simp) hask)⟩
  · rwa [ended0, State.ring, hask .rings (by decide), ← State.ring]
  · rw [← hsleep]
    exact fld_set_disjoint (f := GLB_PWR_STATUS_TARGET) (g := GLB_PWR_STATUS_STATE) _ (by decide) (by decide) (by decide) _

/-- The entry to sleep that ring 0 asks for. -/
def ringEntry (target : Nat) (answered : Bool) : SleepEntry := { target := target, asker := .ring0, answered := answered, wakeHeld := none }

/-- The entry of ring 0 has begun. -/
def sleepAsked (s : State) (d : Desc) (target : Nat) : State := (begun s 0x44 d).startSleep target .ring0 (leAt d.payload 4 4)

theorem sleepAsked_only {target : Nat} : only [.fox, .rings, .pwr, .regs] s (sleepAsked s d target) := only_trans begun_only (only_mono (by simp) (startSleep_only _ _ _))

theorem sleepAsked_pwr {target : Nat} : (sleepAsked s d target).pwr = { s.pwr with entry := some (ringEntry target false), wakeTimer := leAt d.payload 4 4, s1Req := false } := by
  rw [sleepAsked, State.startSleep, only_sets _ .pwr (by decide)]
  show ({ (begun s 0x44 d).pwr with entry := _, wakeTimer := _, s1Req := _ } : PwrSt) = _
  rw [begun44_pwr]
  rfl

theorem sleepAsked_left {target : Nat} : noneLeft (sleepAsked s d target) = noneLeft s := by
  have hstart := startSleep_only (s := begun s 0x44 d) target .ring0 (leAt d.payload 4 4)
  have hkept : ((begun s 0x44 d).ring 0).cplKept = (s.ring 0).cplKept := by rw [begun_ring]; rfl
  have hbegun : noneLeft (begun s 0x44 d) = noneLeft s := by
    rw [noneLeft, noneLeft, State.outsLeft, State.outsLeft, hkept, begun_fox, begun_only .txns (by decide)]
  rw [← hbegun]
  exact noneLeft_congr (hstart .txns (by decide)) (hstart .rings (by decide)) (hstart .fox (by decide))

/-- The asker's operation is the one SET_PSTATE under way. -/
theorem sleepAsked_mgmt {target : Nat} (hmgmt : s.fox.mgmt = []) : (sleepAsked s d target).mgmtOf 0x44 = [mgmtFor 0x44 d] := by
  rw [State.mgmtOf, sleepAsked, startSleep_only _ _ _ .fox (by decide), begun_fox, hmgmt]
  rfl

/-- The asker is answered at once where nothing is left to wait for. -/
def entryAnswered (t : State) (target : Nat) : State := { t with pwr := { t.pwr with entry := some (ringEntry target true) } }

/-- The entry, with its asker answered if nothing is left. -/
def ringAnswered (s : State) (d : Desc) (target : Nat) : State :=
  if noneLeft s then (entryAnswered (sleepAsked s d target) target).mgmtDone d.job stOK [] else sleepAsked s d target

theorem ringAnswered_left {target : Nat} (h : noneLeft s = false) : ringAnswered s d target = sleepAsked s d target := if_neg (by simp [h])

theorem ringAnswered_none {target : Nat} (h : noneLeft s = true) : ringAnswered s d target = (entryAnswered (sleepAsked s d target) target).mgmtDone d.job stOK [] := if_pos h

theorem entryAnswered_only {target : Nat} : only [.pwr] t (entryAnswered t target) := only_pwr _

theorem sleepAsked_settled {target : Nat} (hmgmt : s.fox.mgmt = []) (hdue : s.pwr.wakeDue = false) (hgrave : s.graveRec = false) : (sleepAsked s d target).settle = ringAnswered s d target := by
  have hpwr := sleepAsked_pwr (s := s) (d := d) (target := target)
  have hleft := sleepAsked_left (s := s) (d := d) (target := target)
  have hmine := sleepAsked_mgmt (s := s) (d := d) (target := target) hmgmt
  have hflt := sleepAsked_only (s := s) (d := d) (target := target) .flt (by decide)
  unfold ringAnswered
  generalize sleepAsked s d target = t at *
  have hguard : (!t.txns.isEmpty || t.outsLeft || !t.fox.jobs.isEmpty || !t.fox.svcQueue.isEmpty) = !noneLeft s := by
    rw [← hleft, noneLeft]
    cases t.txns.isEmpty <;> cases t.outsLeft <;> cases t.fox.jobs.isEmpty <;> cases t.fox.svcQueue.isEmpty <;> rfl
  have hstep : t.sleepStep2 = if noneLeft s then (entryAnswered t target).mgmtDone d.job stOK [] else t := by
    unfold State.sleepStep2
    rw [show t.pwr.entry = some (ringEntry target false) by rw [hpwr]]
    simp only [ringEntry, Bool.false_or, hguard]
    cases hn : noneLeft s
    · exact if_pos rfl
    · rw [if_neg (by simp)]
      show (entryAnswered t target).sleepAnswer .ring0 stOK = _
      have hmine' : (entryAnswered t target).mgmtOf 0x44 = [mgmtFor 0x44 d] := hmine
      simp only [State.sleepAnswer, hmine']
      show (if stOK = stSTATE then (entryAnswered t target).mgmtRefuse d.job stOK 0 else (entryAnswered t target).mgmtDone d.job stOK []) = _
      exact if_neg (by decide)
  have hnoGrave : t.sleepStep2.graveRec = false := by
    refine (graveRec_congr ?_).trans hgrave
    rw [hstep]
    split
    · rw [mgmtDone_only _ _ _ _ .flt (by decide)]
      exact congrArg (·.recs) hflt
    · rw [hflt]
  have hdue' : t.pwr.wakeDue = false := by rw [hpwr]; exact hdue
  unfold State.settle
  simp only [hdue', Bool.false_eq_true, if_false, hnoGrave, Bool.false_and]
  exact hstep

theorem setPstate_deep {target : Nat} (h : s.starts0 0x44 d) (hlen : 8 ≤ d.payload.length) (hz : leAt d.payload 1 3 = 0) (htarget : byteAt d.payload 0 = target) (ht : target = 2 ∨ target = 3)
    (hmgmt : s.fox.mgmt = []) (href : s.sleepRefused = false) (hcalm : s.calm = true) :
    ∃ t e, exec .setPstate s = .next t ∧ t.pwr = { s.pwr with entry := some e, wakeTimer := leAt d.payload 4 4, s1Req := false } ∧ e.target = target ∧ e.asker = .ring0
        ∧ (e.answered = true ↔ s.txns = [] ∧ s.outsLeft = false ∧ s.fox.jobs = [] ∧ s.fox.svcQueue = []) ∧ (if e.answered then ended0 s t d.job stOK [] else runs0 s t 0x44 d)
        ∧ t.fld GLB_PWR_STATUS_TARGET = target ∧ t.sleep = 0 ∧ only [.fox, .rings, .pwr, .regs] s t := by
  obtain ⟨hdue, hentry, hgrave⟩ := calm_iff.mp hcalm
  have hexec := setPstate_eq h hlen hz htarget (by omega) hmgmt href hentry
  rw [if_neg (by omega)] at hexec
  have hsettled := sleepAsked_settled (s := s) (d := d) (target := target) hmgmt hdue hgrave
  have hpwr := sleepAsked_pwr (s := s) (d := d) (target := target)
  obtain ⟨hstate, htar⟩ := startSleep_fields (s := begun s 0x44 d) target (leAt d.payload 4 4) .ring0 (by omega)
  have hleft : noneLeft s = true ↔ s.txns = [] ∧ s.outsLeft = false ∧ s.fox.jobs = [] ∧ s.fox.svcQueue = [] := by
    simp [noneLeft, List.isEmpty_iff, and_assoc]
  refine ⟨ringAnswered s d target, ringEntry target (noneLeft s), hexec.trans (congrArg Host.Outcome.next hsettled), ?_, rfl, rfl, hleft, ?_⟩
  · cases hn : noneLeft s
    · rw [ringAnswered_left hn, hpwr]
    · rw [ringAnswered_none hn, mgmtDone_only _ _ _ _ .pwr (by decide), entryAnswered, hpwr]
  · have hrings : (sleepAsked s d target).rings = (begun s 0x44 d).rings := startSleep_only _ _ _ .rings (by decide)
    have hfox : (sleepAsked s d target).fox = (begun s 0x44 d).fox := startSleep_only _ _ _ .fox (by decide)
    have honly := sleepAsked_only (s := s) (d := d) (target := target)
    cases hn : noneLeft s
    · rw [ringAnswered_left hn]
      exact ⟨begun_runs hrings (congrArg (·.mgmt) hfox), htar, hstate, honly⟩
    · have hans := entryAnswered_only (t := sleepAsked s d target) (target := target)
      have hregs := fld_congr (hans .regs (by decide))
      rw [ringAnswered_none hn]
      refine ⟨begun_ended h.1 ((hans .rings (by decide)).trans hrings), ?_, ?_, mgmtDone_only' (only_trans honly (only_mono (by simp) hans)) (by simp [ringParts])⟩
      · rw [mgmtDone_fld (by decide), hregs]
        exact htar
      · rw [State.sleep, mgmtDone_fld (by decide), hregs]
        exact hstate

end Sys2Proof.Proofs
end

section
/-! SUPPORT. Ring-0 operations that set other blocks (R290, R391, R417, R433, R445). -/

namespace Sys2Proof.Proofs

set_option Elab.async false

open Sys2Proof.Machine Sys2Proof.Laws

variable {s t u : State} {d : Desc} {n : Nat}

/-! ## FLT_INJECT (R417) -/

/-- What an injection arms, or disarms for a count of 0. -/
def armed (ch unit n : Nat) (ue : Bool) : Option Inject := if n = 0 then none else some { checker := ch, ue := ue, unit := unit, remaining := n }

/-- The injection armed, and shown. -/
def injectArmed (s : State) (ch unit n : Nat) (ue : Bool) : State :=
  ({ s with flt := { s.flt with inject := armed ch unit n ue } }).sets [(FLT_INJ_STATUS_ARMED, b2n (n != 0)), (FLT_INJ_STATUS_REMAINING, n)]

theorem inject_arms {ch unit : Nat} {ue : Bool} (hunit : unit < s.injUnits ch) (hen : s.on FLT_CFG_INJ_EN = true) (hfree : ∀ i, s.flt.inject = some i → i.checker = ch ∨ n = 0) :
    s.inject ch unit n ue = (stOK, injectArmed s ch unit n ue) := by
  unfold State.inject
  dsimp only
  rw [if_neg (Nat.not_le.mpr hunit)]
  cases hi : s.flt.inject with
  | none => exact if_neg (by simp [hen])
  | some i => exact if_neg (by rcases hfree i hi with h | h <;> simp [hen, h])

theorem injectArmed_only {ch unit : Nat} {ue : Bool} : only [.flt, .regs] s (injectArmed s ch unit n ue) := only_trans (only_mono (by simp) (only_flt _)) (only_mono (by simp) (only_sets _))

theorem injectArmed_fields {ch unit : Nat} {ue : Bool} (hn : n < 256) :
    (injectArmed s ch unit n ue).fld FLT_INJ_STATUS_ARMED = (if n = 0 then 0 else 1) ∧ (injectArmed s ch unit n ue).fld FLT_INJ_STATUS_REMAINING = n := by
  have hb : b2n (n != 0) = if n = 0 then 0 else 1 := by by_cases h : n = 0 <;> simp [h, b2n]
  rw [← hb]
  refine ⟨fld_sets_reads [] ⟨by decide, by decide⟩ ?_ ?_, fld_sets_reads [_] ⟨by decide, by decide⟩ hn (by simp)⟩
  · rw [hb]
    split <;> decide
  · intro x hx
    obtain rfl := List.mem_singleton.mp hx
    exact ⟨show Proper FLT_INJ_STATUS_REMAINING from ⟨by decide, by decide⟩, .inr (.inl (show 23 < 31 by decide))⟩

theorem injUnits_congr (h : t.fuse = s.fuse) (ch : Nat) : t.injUnits ch = s.injUnits ch := by
  simp only [State.injUnits, State.nChans, State.nSlices, State.nEngines, State.nPorts, State.variant, h]
  rfl

theorem fltInject_ends {ch unit : Nat} {ue : Bool} (h : s.starts0 0x47 d) (hlen : 8 ≤ d.payload.length) (hz : zeroAt d.payload 4 4 = true) (hch : byteAt d.payload 0 = ch) (hu : byteAt d.payload 1 = unit)
    (hue : byteAt d.payload 2 = b2n ue) (hn : byteAt d.payload 3 = n) (hok : injOk ch unit ue = true) (hunit : unit < s.injUnits ch) (hen : s.on FLT_CFG_INJ_EN = true)
    (hfree : ∀ i, s.flt.inject = some i → i.checker = ch ∨ n = 0) :
    ∃ t, exec .fltInject s = .next t ∧ ended0 s t d.job stOK [] ∧ t.flt = { s.flt with inject := if n = 0 then none else some { checker := ch, ue := ue, unit := unit, remaining := n } }
      ∧ t.fld FLT_INJ_STATUS_ARMED = (if n = 0 then 0 else 1) ∧ t.fld FLT_INJ_STATUS_REMAINING = n ∧ only [.fox, .rings, .pwr, .flt, .regs] s t := by
  have hb := begun_only (s := s) (op := 0x47) (d := d)
  have hflt : (begun s 0x47 d).flt = s.flt := hb .flt (by decide)
  have hue1 : (byteAt d.payload 2 == 1) = ue := by rw [hue]; cases ue <;> rfl
  have hue2 : ¬ 1 < byteAt d.payload 2 := by rw [hue]; cases ue <;> decide
  have harm : (begun s 0x47 d).inject ch unit n ue = (stOK, injectArmed (begun s 0x47 d) ch unit n ue) :=
    inject_arms (by rw [injUnits_congr (hb .fuse (by decide))]; exact hunit) (by rw [State.on, begun_fld (by decide) (by decide)]; exact hen) (by rw [hflt]; exact hfree)
  have hexec : exec .fltInject s = .next ((injectArmed (begun s 0x47 d) ch unit n ue).mgmtDone d.job stOK []) := by
    show execFltInject s = _
    unfold execFltInject
    rw [starts0_eq h]
    simp only [mgmtFor, hch, hu, hue1, hn, hz, hok, harm]
    rw [if_neg (by simp only [hue2]; simp; exact decide_eq_false (Nat.not_lt.mpr hlen)), if_pos trivial]
  have hn256 : n < 256 := hn ▸ BitVec.isLt _
  have honly := injectArmed_only (s := begun s 0x47 d) (n := n) (ch := ch) (unit := unit) (ue := ue)
  obtain ⟨harmed, hleft⟩ := injectArmed_fields (s := begun s 0x47 d) (ch := ch) (unit := unit) (ue := ue) hn256
  refine ⟨_, hexec, begun_ended h.1 (honly .rings (by decide)), ?_, ?_, ?_, mgmtDone_only' (only_trans (only_mono (by simp) hb) (only_mono (by simp) honly)) (by simp [ringParts])⟩
  · rw [mgmtDone_only _ _ _ _ .flt (by decide), injectArmed, only_sets _ .flt (by decide)]
    show ({ (begun s 0x47 d).flt with inject := _ } : FltSt) = _
    rw [hflt]
    rfl
  · rw [mgmtDone_fld (by decide), harmed]
  · rw [mgmtDone_fld (by decide), hleft]

/-! ## THM_SET, BADGER_SET and TEL_SET (R445, R391, R433) -/

theorem thmSet_ends (h : s.starts0 0x4C d) (hlen : 16 ≤ d.payload.length) (hz : zeroAt d.payload 12 4 = true)
    (hok : limitsOk (leAt d.payload 0 4) (leAt d.payload 4 4) (leAt d.payload 8 4) = true) :
    ∃ t, exec .thmSet s = .next t ∧ ended0 s t d.job stOK [] ∧ t.fld THM_LIMITS = leAt d.payload 0 4 ∧ t.fld THM_LOW = leAt d.payload 4 4 ∧ t.fld THM_THROTTLE_CFG = leAt d.payload 8 4
      ∧ only [.fox, .rings, .pwr, .recd, .sett, .regs] s t := by
  have hexec : exec .thmSet s = .next (((begun s 0x4C d).setLimits (leAt d.payload 0 4) (leAt d.payload 4 4) (leAt d.payload 8 4)).mgmtDone d.job stOK []) := by
    show execThmSet s = _
    unfold execThmSet
    rw [starts0_eq h]
    simp only [mgmtFor, hz, hok]
    rw [if_neg (by simp; exact decide_eq_false (Nat.not_lt.mpr hlen))]
  obtain ⟨honly, hlim, hlow, hthr⟩ := setLimits_frame (s := begun s 0x4C d) (leAt4_lt d.payload 0) (leAt4_lt d.payload 4) (leAt4_lt d.payload 8)
  refine ⟨_, hexec, begun_ended h.1 (honly .rings (by decide)), ?_, ?_, ?_, mgmtDone_only' (only_trans (only_mono (by simp) begun_only) (only_mono (by simp) honly)) (by simp [ringParts])⟩
  · rw [mgmtDone_fld (by decide), fld_word rfl rfl, hlim]
  · rw [mgmtDone_fld (by decide), fld_word rfl rfl, hlow]
  · rw [mgmtDone_fld (by decide), fld_word rfl rfl, hthr]

theorem patrolOk_congr (hfuse : t.fuse = s.fuse) (hmem : t.memCfg = s.memCfg) (hgrp : t.fld GLB_MEM_STATUS_GROUP_STATE = s.fld GLB_MEM_STATUS_GROUP_STATE)
    (hfld : ∀ c, t.fld (CHAN_STATUS_FENCED c) = s.fld (CHAN_STATUS_FENCED c) ∧ t.fld (CHAN_STATUS_RETIRED c) = s.fld (CHAN_STATUS_RETIRED c)) (mask : Nat) : t.patrolOk mask = s.patrolOk mask := by
  have hstop : t.patrolStops = s.patrolStops := funext fun c => by
    rw [State.patrolStops, State.patrolStops, State.on, State.on, State.on, State.on, (hfld c).1, (hfld c).2, State.parity, State.parity, hmem, State.groupSt, State.groupSt, hgrp]
  rw [State.patrolOk, State.patrolOk, nChans_congr hfuse, hstop]

theorem begun_patrolOk {op : Nat} (mask : Nat) : (begun s op d).patrolOk mask = s.patrolOk mask :=
  patrolOk_congr (begun_only .fuse (by decide)) (begun_reg (by decide) (by decide)) (begun_fld (by decide) (by decide))
    (fun c => ⟨begun_fld (by simp only [CHAN_STATUS_FENCED, RING_STATUS]; omega) (by simp only [CHAN_STATUS_FENCED, GLB_PWR_STATUS]; omega),
      begun_fld (by simp only [CHAN_STATUS_RETIRED, RING_STATUS]; omega) (by simp only [CHAN_STATUS_RETIRED, GLB_PWR_STATUS]; omega)⟩) mask

theorem badgerSet_ends (h : s.starts0 0x4D d) (hlen : 8 ≤ d.payload.length) (hcfg : badgerCfgOk (leAt d.payload 0 4) = true) (hok : s.patrolOk (leAt d.payload 4 4) = true) :
    ∃ t, exec .badgerSet s = .next t ∧ ended0 s t d.job stOK [] ∧ t.reg BST_BADGER_CFG.off = leAt d.payload 0 4 ∧ t.fld BST_BADGER_CHAN_EN = leAt d.payload 4 4 ∧ only [.fox, .rings, .pwr, .prot, .regs] s t := by
  have hexec : exec .badgerSet s = .next ((((begun s 0x4D d).setReg BST_BADGER_CFG.off (leAt d.payload 0 4)).setPatrol (leAt d.payload 4 4)).mgmtDone d.job stOK []) := by
    show execBadgerSet s = _
    unfold execBadgerSet
    rw [starts0_eq h]
    simp only [mgmtFor, hcfg, begun_patrolOk, hok]
    rw [if_neg (by simp; exact hlen), if_neg (by simp)]
  obtain ⟨honly, hbut, hreg⟩ := setPatrol_frame (s := (begun s 0x4D d).setReg BST_BADGER_CFG.off (leAt d.payload 0 4)) (leAt d.payload 4 4)
  have hall := only_trans (only_mono (l := [.prot, .regs]) (by simp) (only_setReg (s := begun s 0x4D d) (off := BST_BADGER_CFG.off) (v := leAt d.payload 0 4))) (only_mono (by simp) honly)
  refine ⟨_, hexec, begun_ended h.1 (hall .rings (by decide)), ?_, ?_, mgmtDone_only' (only_trans (only_mono (by simp) begun_only) (only_mono (by simp) hall)) (by simp [ringParts])⟩
  · rw [mgmtDone_reg (by decide), hbut _ (by decide), reg_setReg_same, Nat.mod_eq_of_lt (leAt4_lt _ _)]
  · rw [mgmtDone_fld (by decide), fld_word rfl rfl, hreg (leAt4_lt _ _)]

theorem telSet_ends (h : s.starts0 0x52 d) (hlen : 16 ≤ d.payload.length) (hz : zeroAt d.payload 12 4 = true) (hint : leAt d.payload 0 4 ≤ 1000) (h0 : dstOk (leAt d.payload 4 4) = true)
    (h1 : dstOk (leAt d.payload 8 4) = true) :
    ∃ t, exec .telSet s = .next t ∧ ended0 s t d.job stOK [] ∧ t.fld TEL_CFG = leAt d.payload 0 4 ∧ t.fld (TEL_DST 0) = leAt d.payload 4 4 ∧ t.fld (TEL_DST 1) = leAt d.payload 8 4
      ∧ only [.fox, .rings, .pwr, .regs] s t := by
  have hexec : exec .telSet s = .next (((begun s 0x52 d).sets [(TEL_CFG, leAt d.payload 0 4), (TEL_DST 0, leAt d.payload 4 4), (TEL_DST 1, leAt d.payload 8 4)]).mgmtDone d.job stOK []) := by
    show execTelSet s = _
    unfold execTelSet
    rw [starts0_eq h]
    simp only [mgmtFor, hz, h0, h1]
    rw [if_neg (by simp; exact ⟨decide_eq_false (Nat.not_lt.mpr hlen), decide_eq_false (Nat.not_lt.mpr hint)⟩)]
  have honly := only_sets (s := begun s 0x52 d) [(TEL_CFG, leAt d.payload 0 4), (TEL_DST 0, leAt d.payload 4 4), (TEL_DST 1, leAt d.payload 8 4)]
  refine ⟨_, hexec, begun_ended h.1 (honly .rings (by decide)), ?_, ?_, ?_, mgmtDone_only' (only_trans begun_only (only_mono (by simp) honly)) (by simp [ringParts])⟩
  · rw [mgmtDone_fld (by decide)]
    exact fld_sets_reads (g := TEL_CFG) [] ⟨by decide, by decide⟩ (leAt4_lt _ _) (by simp [Proper, Apart, TEL_CFG, TEL_DST])
  · rw [mgmtDone_fld (by decide)]
    exact fld_sets_reads (g := TEL_DST 0) [_] ⟨by decide, by decide⟩ (leAt4_lt _ _) (by simp [Proper, Apart, TEL_DST])
  · rw [mgmtDone_fld (by decide)]
    exact fld_sets_reads (g := TEL_DST 1) [_, _] ⟨by decide, by decide⟩ (leAt4_lt _ _) (by simp)

/-! ## QOS_SET (R290) -/

/-- The registers that an active table and its division are shown in, with the recorder's own. -/
def divisionReg (o : Nat) : Prop := recReg o ∨ o = QOS_STATUS.off ∨ o = QOS_SCALE_EVENTS.off ∨ 0x7600 ≤ o ∧ o < 0x7700

/-- The registers that a commit moves beside its own status, with the counts of the refusals. -/
def activeReg (o : Nat) : Prop := divisionReg o ∨ o = QOS_COMMITTED.off ∨ o = QOS_CNT_VIOL_STATE.off ∨ o = QOS_CNT_VIOL_RSVD.off ∨ 0x7200 ≤ o ∧ o < 0x7300 ∨ 0x7500 ≤ o ∧ o < 0x7600

theorem divide_shows : Frame [.regs, .recd, .sett] divisionReg s s.divide := by
  have hres : Frame [.regs, .recd, .sett] divisionReg s ((s.each (enum (divideEntries s.qos.d (s.fld QOS_COMMITTED) s.activeMap s.activeRate)) fun u e => u.setReg (QOS_RES e.1).off e.2)) := by
    refine .each fun _ e he => .setReg (by simp) (.inr (.inr (.inr ?_)))
    have := divideEntries_length s.qos.d (s.fld QOS_COMMITTED) s.activeMap s.activeRate ▸ enum_fst_lt he
    simp only [QOS_RES]
    omega
  have hstatus : ∀ (x : State) (f : Fld) (v : Nat), f.off = QOS_STATUS.off → Frame [.regs, .recd, .sett] divisionReg x (x.set f v) := fun x f v hf => .set (by simp) (.inr (.inl hf))
  have hscaled : ∀ x : State, Frame [.regs, .recd, .sett] divisionReg x (x.inc QOS_SCALE_EVENTS) := fun x => .inc (by simp) (.inr (.inr (.inl rfl)))
  have hevent : ∀ (x : State) (code unit w0 w1 : Nat), Frame [.regs, .recd, .sett] divisionReg x (x.event code 1 unit w0 w1) := fun x code unit w0 w1 =>
    (event_frame code (by decide) unit w0 w1).mono (by simp) fun _ => .inl
  unfold State.divide
  refine .ite ?_ (.ite ?_ ?_)
  · exact ((hres.trans (hstatus _ QOS_STATUS_FACTOR _ rfl)).trans ((hstatus _ QOS_STATUS_SCALED _ rfl).trans (hscaled _))).trans (hevent _ _ _ _ _)
  · exact ((hres.trans (hstatus _ QOS_STATUS_FACTOR _ rfl)).trans (hstatus _ QOS_STATUS_SCALED _ rfl)).trans (hevent _ _ _ _ _)
  · exact hres.trans (hstatus _ QOS_STATUS_FACTOR _ rfl)

/-- The staged table, written over the active one. -/
def tableCopied (s : State) : State := s.fillBuckets.each (List.range 64) fun u n => (u.setReg (QOS_LABEL_ACT n).off (s.fillBuckets.stagedMap n)).setReg (QOS_GROUP_ACT n).off (s.fillBuckets.stagedRate n)

/-- The committed table, before its division. -/
def tableActive (s : State) (x : QosSt) : State :=
  { tableCopied s with qos := x }

theorem activate_eq (s : State) : ∃ x v, s.activate = ((tableActive s x).set QOS_COMMITTED v).divide := by
  unfold State.activate tableActive tableCopied
  exact ⟨_, _, rfl⟩

theorem tableCopied_shows : Frame [.regs, .qos] (fun o => 0x7200 ≤ o ∧ o < 0x7300 ∨ 0x7500 ≤ o ∧ o < 0x7600) s (tableCopied s) := by
  have hfill : Frame [.regs, .qos] (fun o => 0x7200 ≤ o ∧ o < 0x7300 ∨ 0x7500 ≤ o ∧ o < 0x7600) s s.fillBuckets := .of_only (only_qos _) (by simp) (by simp)
  refine hfill.trans (.each fun u n hn => Frame.trans (.setReg (by simp) (.inl ?_)) (.setReg (by simp) (.inr ?_)))
  all_goals
    have := List.mem_range.mp hn
    simp only [QOS_LABEL_ACT, QOS_GROUP_ACT]
    omega

theorem tableCopied_label {l : Nat} (hl : l < 64) : (tableCopied s).reg (QOS_LABEL_ACT l).off = s.reg (QOS_LABEL_MAP l).off := by
  have hstaged : s.fillBuckets.stagedMap l = s.reg (QOS_LABEL_MAP l).off := fld_word (f := QOS_LABEL_MAP l) rfl rfl
  rw [← hstaged]
  have hlt : s.fillBuckets.stagedMap l < 2 ^ 32 := by rw [hstaged]; exact reg_lt s _
  refine each_in_reaches (P := fun x => x.reg (QOS_LABEL_ACT l).off = s.fillBuckets.stagedMap l) (a := l) (List.mem_range.mpr hl) (fun x => ?_) fun x n hn hx => ?_
  · rw [reg_setReg_ne _ (by simp only [QOS_LABEL_ACT, QOS_GROUP_ACT]; omega), reg_setReg_same, Nat.mod_eq_of_lt hlt]
  · have hn' := List.mem_range.mp hn
    rw [reg_setReg_ne _ (by simp only [QOS_LABEL_ACT, QOS_GROUP_ACT]; omega)]
    by_cases h : n = l
    · rw [h, reg_setReg_same, Nat.mod_eq_of_lt hlt]
    · rw [reg_setReg_ne _ (by simp only [QOS_LABEL_ACT]; omega), hx]

theorem activate_shows : Frame [.regs, .recd, .sett, .qos] activeReg s s.activate ∧ ∀ l < 64, s.activate.reg (QOS_LABEL_ACT l).off = s.activate.reg (QOS_LABEL_MAP l).off := by
  obtain ⟨x, v, heq⟩ := activate_eq s
  rw [heq]
  have hcopy := tableCopied_shows (s := s)
  have hqos : only [.qos] (tableCopied s) (tableActive s x) := only_qos x
  have hdiv := divide_shows (s := (tableActive s x).set QOS_COMMITTED v)
  have hreg : ∀ o, ¬ divisionReg o → o ≠ QOS_COMMITTED.off → (((tableActive s x).set QOS_COMMITTED v).divide).reg o = (tableCopied s).reg o := fun o ho hne => by
    rw [hdiv.reg o ho, reg_set_ne _ hne, reg_congr (hqos .regs (by decide))]
  have hnot : ∀ o, 0x7000 ≤ o → o < 0x7600 → o ≠ QOS_STATUS.off → o ≠ QOS_SCALE_EVENTS.off → ¬ divisionReg o := fun o h1 h2 h3 h4 h => by
    rcases h with h | h | h | h
    · rcases h with h | h
      · rw [h] at h1; exact absurd h1 (by decide)
      · omega
    · exact h3 h
    · exact h4 h
    · omega
  constructor
  · refine Frame.trans (hcopy.mono (by simp) fun o ho => .inr (.inr (.inr (.inr ho)))) (Frame.trans (.of_only hqos (by simp) (by simp)) (Frame.trans (.set (f := QOS_COMMITTED) (v := v) (by simp) (.inr (.inl rfl))) ?_))
    exact hdiv.mono (by simp) fun o => .inl
  · intro l hl
    have hact : (QOS_LABEL_ACT l).off = 0x7200 + 4 * l := rfl
    have hmap : (QOS_LABEL_MAP l).off = 0x7100 + 4 * l := rfl
    have hst : QOS_STATUS.off = 0x7008 := rfl
    have hsc : QOS_SCALE_EVENTS.off = 0x7018 := rfl
    have hco : QOS_COMMITTED.off = 0x7014 := rfl
    rw [hreg _ (hnot _ (by omega) (by omega) (by omega) (by omega)) (by omega), hreg _ (hnot _ (by omega) (by omega) (by omega) (by omega)) (by omega), tableCopied_label hl,
      hcopy.reg _ (by omega)]

/-- A commit shows its result in QOS_COMMIT_STATUS. -/
def resultShown (x : State) (r : BitVec 8) : State :=
  x.sets [(QOS_COMMIT_STATUS_VALID, 1), (QOS_COMMIT_STATUS_RESULT_SEQ, x.fld QOS_COMMIT_STATUS_RESULT_SEQ + 1), (QOS_COMMIT_STATUS_RESULT, r.toNat)]

/-- What a commit of a stack in service comes to. -/
theorem commit_cases (hready : s.ready = true) : ∃ r x, s.commit = (r, resultShown x r) ∧ (r = stOK ∨ r = stMALFORMED ∨ r = stOVERCOMMIT) ∧ Frame [.regs, .recd, .sett, .qos] activeReg s x
    ∧ (r = stOK → ∀ l < 64, x.reg (QOS_LABEL_ACT l).off = x.reg (QOS_LABEL_MAP l).off) ∧ (r ≠ stOK → x.qos = s.qos) := by
  unfold State.commit
  dsimp only
  rw [if_neg (by simp [hready])]
  split
  · exact ⟨stMALFORMED, s.viol QOS_COMMIT.off .rsvd, rfl, .inr (.inl rfl), .setReg (by simp) (.inr (.inr (.inr (.inl (by decide))))), fun h => absurd h (by decide), fun _ => rfl⟩
  · split
    · exact ⟨stOVERCOMMIT, s.viol QOS_COMMIT.off .state, rfl, .inr (.inr rfl), .setReg (by simp) (.inr (.inr (.inl (by decide)))), fun h => absurd h (by decide), fun _ => rfl⟩
    · obtain ⟨hframe, hlabels⟩ := activate_shows (s := s)
      exact ⟨stOK, s.activate, rfl, .inl rfl, hframe, fun _ => hlabels, fun h => absurd rfl h⟩

theorem resultShown_only (x : State) (r : BitVec 8) : only [.regs] x (resultShown x r) := only_sets _

theorem resultShown_reg {x : State} {r : BitVec 8} {o : Nat} (h : o ≠ QOS_COMMIT_STATUS.off) : (resultShown x r).reg o = x.reg o :=
  (regsBut_sets (l := [QOS_COMMIT_STATUS.off]) (by simp [QOS_COMMIT_STATUS_VALID, QOS_COMMIT_STATUS_RESULT_SEQ, QOS_COMMIT_STATUS_RESULT, QOS_COMMIT_STATUS])) o (by simpa using h)

theorem resultShown_fields (x : State) (r : BitVec 8) : (resultShown x r).fld QOS_COMMIT_STATUS_VALID = 1 ∧ (resultShown x r).fld QOS_COMMIT_STATUS_RESULT = r.toNat
    ∧ (resultShown x r).fld QOS_COMMIT_STATUS_RESULT_SEQ = (x.fld QOS_COMMIT_STATUS_RESULT_SEQ + 1) % 256 := by
  refine ⟨fld_sets_reads [] ⟨by decide, by decide⟩ (by decide) ?_, fld_sets_reads [_, _] ⟨by decide, by decide⟩ r.isLt (by simp), ?_⟩
  · simp [Proper, Apart, QOS_COMMIT_STATUS_VALID, QOS_COMMIT_STATUS_RESULT_SEQ, QOS_COMMIT_STATUS_RESULT]
  · rw [resultShown, sets_cons, sets_cons, sets_cons, sets_nil, fld_set_disjoint (f := QOS_COMMIT_STATUS_RESULT) _ (by decide) (by decide) (.inl (by decide))]
    exact fld_set_same (f := QOS_COMMIT_STATUS_RESULT_SEQ) _ (by decide) (by decide) _

/-- The staging registers take the entries of a payload. -/
def entriesStaged (s : State) (p : List (BitVec 8)) : State := s.each (qosEntries p) fun w e => w.setReg (QOS_COMMIT.off + e.1) e.2

/-- The last of the writes to a register is what it reads. -/
theorem setRegs_last {off v : Nat → Nat} {k : Nat} (hk : k < n) (hlast : ∀ j < n, k < j → off j ≠ off k) :
    (s.each (List.range n) fun u i => u.setReg (off i) (v i)).reg (off k) = v k % 2 ^ 32 := by
  induction n with
  | zero => omega
  | succ n ih =>
    have hsucc : s.each (List.range (n + 1)) (fun u i => u.setReg (off i) (v i)) = (s.each (List.range n) fun u i => u.setReg (off i) (v i)).setReg (off n) (v n) := by
      rw [List.range_succ, State.each, List.foldl_append]
      rfl
    rw [hsucc]
    by_cases h : k = n
    · rw [h, reg_setReg_same]
    · rw [reg_setReg_ne _ (hlast n (by omega) (by omega)).symm]
      exact ih (by omega) fun j hj hkj => hlast j (by omega) hkj

theorem entriesStaged_range (p : List (BitVec 8)) : entriesStaged s p = s.each (List.range (leAt p 0 2)) fun u k => u.setReg (QOS_COMMIT.off + leAt p (8 + 8 * k) 4) (leAt p (12 + 8 * k) 4) := by
  rw [entriesStaged, qosEntries, State.each, List.foldl_map]
  rfl

theorem entriesStaged_only (p : List (BitVec 8)) : only [.regs] s (entriesStaged s p) := only_each fun _ _ => only_setReg

/-- The staging registers. -/
def stagingOff (o : Nat) : Prop := o = 0x10 ∨ 0x100 ≤ o ∧ o < 0x200 ∨ 0x400 ≤ o ∧ o < 0x500

theorem qosEntry_off {o v : Nat} (h : qosEntryOk o v = true) : stagingOff o := by
  unfold qosEntryOk at h
  split at h
  next h10 => exact .inl h10
  · split at h
    next hmap => exact .inr (.inl hmap)
    · simp only [Bool.and_eq_true, decide_eq_true_eq] at h
      exact .inr (.inr ⟨h.1.1.1, h.1.1.2⟩)

theorem staging_not_active {o : Nat} (h : stagingOff o) : ¬ activeReg (QOS_COMMIT.off + o) ∧ QOS_COMMIT.off + o ≠ QOS_COMMIT_STATUS.off ∧ QOS_COMMIT.off + o ≠ (RING_STATUS 0).off := by
  have h0 : QOS_COMMIT.off = 0x7000 := rfl
  have h1 : QOS_STATUS.off = 0x7008 := rfl
  have h2 : QOS_SCALE_EVENTS.off = 0x7018 := rfl
  have h3 : QOS_COMMITTED.off = 0x7014 := rfl
  have h4 : QOS_CNT_VIOL_STATE.off = 0x70F0 := rfl
  have h5 : QOS_CNT_VIOL_RSVD.off = 0x70F8 := rfl
  have h6 : QOS_COMMIT_STATUS.off = 0x7004 := rfl
  have h7 : (RING_STATUS 0).off = 0x9028 := rfl
  have h8 : REC_FOLDS.off < 0x7000 := by decide
  unfold stagingOff at h
  unfold activeReg divisionReg recReg
  omega

theorem qosSetOk_of {p : List (BitVec 8)} (hn : n = leAt p 0 2) (h1 : 1 ≤ n) (h511 : n ≤ 511) (hlen : 8 + 8 * n ≤ p.length) (hz : leAt p 2 6 = 0)
    (hok : ∀ k < n, qosEntryOk (leAt p (8 + 8 * k) 4) (leAt p (12 + 8 * k) 4) = true) : qosSetOk p = true := by
  subst hn
  have hall : (qosEntries p).all (fun e => qosEntryOk e.1 e.2) = true := List.all_eq_true.mpr fun e he => by
    obtain ⟨k, hk, rfl⟩ := List.mem_map.mp he
    exact hok k (List.mem_range.mp hk)
  simp [qosSetOk, h1, h511, hlen, hz, hall]

theorem ofNat8_mod (k : Nat) : BitVec.ofNat 8 (k % 256) = BitVec.ofNat 8 k := BitVec.eq_of_toNat_eq (by simp)

theorem entriesStaged_reg {p : List (BitVec 8)} {o : Nat} (hn : n = leAt p 0 2) (hok : ∀ k < n, qosEntryOk (leAt p (8 + 8 * k) 4) (leAt p (12 + 8 * k) 4) = true)
    (ho : o < 0x7010 ∨ 0x7500 ≤ o) : (entriesStaged s p).reg o = s.reg o := by
  rw [entriesStaged_range]
  refine each_apart (φ := fun x => x.reg o) fun x k hk => reg_setReg_ne x ?_ _
  have hoff := qosEntry_off (hok k (hn ▸ List.mem_range.mp hk))
  have h0 : QOS_COMMIT.off = 0x7000 := rfl
  unfold stagingOff at hoff
  omega

theorem qosSet_ends (h : s.starts0 0x4B d) (hn : n = leAt d.payload 0 2) (h1 : 1 ≤ n) (h511 : n ≤ 511) (hlen : 8 + 8 * n ≤ d.payload.length) (hz : leAt d.payload 2 6 = 0)
    (hok : ∀ k < n, qosEntryOk (leAt d.payload (8 + 8 * k) 4) (leAt d.payload (12 + 8 * k) 4) = true) :
    ∃ t r, exec .qosSet s = .next t ∧ (r = stOK ∨ r = stMALFORMED ∨ r = stOVERCOMMIT)
      ∧ ended0 s t d.job r [r, BitVec.ofNat 8 (s.fld QOS_COMMIT_STATUS_RESULT_SEQ + 1)] ∧ t.fld QOS_COMMIT_STATUS_VALID = 1 ∧ t.fld QOS_COMMIT_STATUS_RESULT = r.toNat
      ∧ t.fld QOS_COMMIT_STATUS_RESULT_SEQ = (s.fld QOS_COMMIT_STATUS_RESULT_SEQ + 1) % 256
      ∧ (∀ k < n, (∀ j < n, k < j → leAt d.payload (8 + 8 * j) 4 ≠ leAt d.payload (8 + 8 * k) 4) → t.reg (QOS_COMMIT.off + leAt d.payload (8 + 8 * k) 4) = leAt d.payload (12 + 8 * k) 4)
      ∧ (r = stOK → ∀ l < 64, t.reg (QOS_LABEL_ACT l).off = t.reg (QOS_LABEL_MAP l).off) ∧ (r ≠ stOK → t.qos = s.qos) ∧ only [.fox, .rings, .pwr, .qos, .recd, .sett, .regs] s t := by
  have hb := begun_only (s := s) (op := 0x4B) (d := d)
  have hstaged := entriesStaged_only (s := begun s 0x4B d) d.payload
  have hphase : (entriesStaged (begun s 0x4B d) d.payload).ready = s.ready := by
    rw [State.ready, State.ready, State.phase, State.phase, State.fld, State.fld, entriesStaged_reg hn hok (.inl (by decide)), begun_reg (by decide) (by decide)]
  have hready : s.ready = true := by
    have hnext := h.1
    unfold State.nextMgmt at hnext
    dsimp only at hnext
    split at hnext
    · cases hnext
    · split at hnext
      next hw =>
        have hworks := hw.2.1
        simp only [State.working, Bool.and_eq_true] at hworks
        exact hworks.1.1.1.1
      · cases hnext
  obtain ⟨r, x, hcommit, hr, hframe, hlabels, hqos⟩ := commit_cases (hphase.trans hready)
  have hseq : x.fld QOS_COMMIT_STATUS_RESULT_SEQ = s.fld QOS_COMMIT_STATUS_RESULT_SEQ := by
    rw [hframe.fld (by unfold activeReg divisionReg recReg; decide), State.fld, State.fld, entriesStaged_reg hn hok (.inl (by decide)), begun_reg (by decide) (by decide)]
  obtain ⟨hvalid, hresult, hnext⟩ := resultShown_fields x r
  have hshown := resultShown_only x r
  have hexec : exec .qosSet s = .next ((resultShown x r).mgmtDone d.job r [r, BitVec.ofNat 8 ((resultShown x r).fld QOS_COMMIT_STATUS_RESULT_SEQ)]) := by
    show execQosSet s = _
    unfold execQosSet
    rw [starts0_eq h]
    simp only [State.qosSetOp, mgmtFor, qosSetOk_of hn h1 h511 hlen hz hok]
    rw [if_neg (by simp)]
    show Host.Outcome.next (((entriesStaged (begun s 0x4B d) d.payload).commit).2.mgmtDone d.job ((entriesStaged (begun s 0x4B d) d.payload).commit).1
      [((entriesStaged (begun s 0x4B d) d.payload).commit).1, BitVec.ofNat 8 (((entriesStaged (begun s 0x4B d) d.payload).commit).2.fld QOS_COMMIT_STATUS_RESULT_SEQ)]) = _
    rw [hcommit]
  rw [hnext, hseq, ofNat8_mod] at hexec
  have hrings : (resultShown x r).rings = (begun s 0x4B d).rings := (hshown .rings (by decide)).trans ((hframe.parts .rings (by decide)).trans (hstaged .rings (by decide)))
  have hall : only [.fox, .rings, .pwr, .qos, .recd, .sett, .regs] s (resultShown x r) :=
    only_trans (only_mono (by simp) hb) <| only_trans (only_mono (by simp) hstaged) <| only_trans (only_mono (by simp) hframe.parts) (only_mono (by simp) hshown)
  refine ⟨_, r, hexec, hr, begun_ended h.1 hrings, ?_, ?_, ?_, fun k hk hlast => ?_, fun hrok l hl => ?_, fun hne => ?_, mgmtDone_only' hall (by simp [ringParts])⟩
  · rw [mgmtDone_fld (by decide), hvalid]
  · rw [mgmtDone_fld (by decide), hresult]
  · rw [mgmtDone_fld (by decide), hnext, hseq]
  · obtain ⟨hnot, hst, hring⟩ := staging_not_active (qosEntry_off (hok k hk))
    have hread := setRegs_last (s := begun s 0x4B d) (off := fun k => QOS_COMMIT.off + leAt d.payload (8 + 8 * k) 4) (v := fun k => leAt d.payload (12 + 8 * k) 4) hk
      fun j hj hkj he => hlast j hj hkj (Nat.add_left_cancel he)
    rw [mgmtDone_reg hring, resultShown_reg hst, hframe.reg _ hnot, entriesStaged_range, ← hn]
    exact hread.trans (Nat.mod_eq_of_lt (leAt4_lt _ _))
  · have hact : (QOS_LABEL_ACT l).off = 0x7200 + 4 * l := rfl
    have hmap : (QOS_LABEL_MAP l).off = 0x7100 + 4 * l := rfl
    have hst : QOS_COMMIT_STATUS.off = 0x7004 := rfl
    have hring : (RING_STATUS 0).off = 0x9028 := rfl
    rw [mgmtDone_reg (by omega), mgmtDone_reg (by omega), resultShown_reg (by omega), resultShown_reg (by omega)]
    exact hlabels hrok l hl
  · rw [mgmtDone_only _ _ _ _ .qos (by decide), hshown .qos (by decide), hqos hne, hstaged .qos (by decide), hb .qos (by decide)]

/-! ## The statement -/

/-- Settles O35: each operation's rule is served, and its end joins the completions with what it set. -/
theorem ringZeroAtOnce : Obligations.RingZeroAtOnce :=
  ⟨fun _ _ h => nop_ends h,
    fun _ _ _ h hname hlen hz hn hok hst => ringSetup_ends h hname hlen hz hn hok hst,
    fun _ _ _ h hname hn hst _ => ringResume_ends h hname hn hst,
    fun _ _ _ h hlen hz htarget hmgmt href hcalm =>
      ⟨fun h1 => setPstate_s1 h hlen hz (htarget.trans h1) hmgmt href hcalm, fun h23 => setPstate_deep h hlen hz htarget h23 hmgmt href hcalm⟩,
    fun _ _ _ _ _ _ h hlen hz hch hu hue hn hok hunit hen hfree => fltInject_ends h hlen hz hch hu hue hn hok hunit hen hfree,
    fun _ _ _ h hn h1 h511 hlen hz hok => qosSet_ends h hn h1 h511 hlen hz hok,
    fun _ _ h hlen hz hok => thmSet_ends h hlen hz hok,
    fun _ _ h hlen hcfg hok => badgerSet_ends h hlen hcfg hok,
    fun _ _ h hlen hz hint h0 h1 => telSet_ends h hlen hz hint h0 h1⟩

end Sys2Proof.Proofs
end

section
/-! SUPPORT. Ring-0 operations that run on (R226, R242, R249, R299, R452): each one's own rule on the state in which it has begun. -/

namespace Sys2Proof.Proofs

set_option Elab.async false

open Sys2Proof.Machine Sys2Proof.Laws

variable {s t u : State} {d : Desc} {op job n : Nat} {st : BitVec 8} {res : List (BitVec 8)}

/-! ## What a beginning operation leaves to its rule -/

theorem working_parts (h : s.nextMgmt = some d) : s.sleep ≤ 1 ∧ s.pwr.entry = none ∧ s.start.grave = false := by
  unfold State.nextMgmt at h
  dsimp only at h
  split at h
  · cases h
  · split at h
    next hc =>
      have hw := hc.2.1
      simp only [State.working, Bool.and_eq_true, decide_eq_true_eq, Option.isNone_iff_eq_none, Bool.not_eq_true'] at hw
      exact ⟨hw.1.1.1.2, hw.1.1.2, hw.1.2⟩
    · cases h

theorem activity_entry : s.activity.pwr.entry = s.pwr.entry ∧ s.activity.pwr.wakeDue = s.pwr.wakeDue := by
  unfold State.activity
  dsimp only
  split <;> split <;> exact ⟨rfl, rfl⟩

theorem underWay_pwr : (underWay s op d).pwr = s.pwr := underWay_only .pwr (by decide)

theorem begun_entry : (begun s op d).pwr.entry = s.pwr.entry ∧ (begun s op d).pwr.wakeDue = s.pwr.wakeDue := by
  have h : (underWay s op d).pwr = s.pwr := underWay_pwr
  unfold begun
  split
  · exact ⟨by rw [h], by rw [h]⟩
  · exact ⟨activity_entry.1.trans (by rw [h]), activity_entry.2.trans (by rw [h])⟩

/-- Activity never takes the stack into a deeper state. -/
theorem activity_sleep (h : s.sleep ≤ 1) : s.activity.sleep ≤ 1 := by
  have htarget : ∀ (x : State) (v : Nat), (x.set GLB_PWR_STATUS_TARGET v).sleep = x.sleep := fun x v =>
    fld_set_disjoint x (by decide) (by decide) (.inr (by decide)) v
  have hlow : (if s.sleep = 1 then s.set GLB_PWR_STATUS_STATE 0 else s).sleep ≤ 1 := by
    split
    · rw [show (s.set GLB_PWR_STATUS_STATE 0).sleep = 0 from fld_set_fits (by decide) (by decide) (by decide)]
      exact Nat.zero_le 1
    · exact h
  unfold State.activity
  extract_lets x
  have hx : x.sleep ≤ 1 := hlow
  clear_value x
  split
  · rw [htarget]
    exact hx
  · exact hx

theorem begun_sleep (h : s.sleep ≤ 1) : (begun s op d).sleep ≤ 1 := by
  have hu : (underWay s op d).sleep ≤ 1 := by rwa [State.sleep, State.fld, underWay_reg (by decide)]
  unfold begun
  split
  · exact hu
  · exact activity_sleep hu

/-- A beginning operation leaves the registers of the channels. -/
theorem begun_chanFld {f : Fld} (h : 0x60000 ≤ f.off) : (begun s op d).fld f = s.fld f :=
  begun_fld (by simp only [RING_STATUS]; omega) (by simp only [GLB_PWR_STATUS]; omega)

theorem begun_chanOut (c : Nat) : (begun s op d).chanOut c = s.chanOut c := by
  rw [State.chanOut, State.chanOut, State.on, State.on, State.on, State.on, begun_chanFld (by simp only [CHAN_STATUS_FENCED]; omega),
    begun_chanFld (by simp only [CHAN_STATUS_LOST]; omega)]

theorem begun_nChans : (begun s op d).nChans = s.nChans := nChans_congr (begun_only .fuse (by decide))

theorem begun_memCfg : (begun s op d).memCfg = s.memCfg := begun_reg (by decide) (by decide)

theorem begun_parity : (begun s op d).parity = s.parity := by rw [State.parity, State.parity, begun_memCfg]

theorem begun_placeOf (l : Nat) : (begun s op d).placeOf l = s.placeOf l := by
  have hhome : (begun s op d).homeOf l = s.homeOf l := by rw [State.homeOf, State.homeOf, begun_nChans, begun_memCfg, begun_parity]
  have hmoved : ∀ c b, (begun s op d).movedBlock c b = s.movedBlock c b := fun c b => by
    rw [State.movedBlock, State.movedBlock, State.on, State.on, State.on, State.on, begun_chanFld (f := CHAN_STATUS_RETIRED c) (by simp only [CHAN_STATUS_RETIRED]; omega),
      begun_chanFld (f := CHAN_STATUS_FENCED c) (by simp only [CHAN_STATUS_FENCED]; omega), begun_chanFld (f := CHAN_REBUILD_PTR_PTR c) (by simp only [CHAN_REBUILD_PTR_PTR]; omega),
      begun_only .sett (by decide)]
  simp only [State.placeOf, hhome, begun_parity, hmoved]

theorem begun_lineFenced (l : Nat) : (begun s op d).lineFenced l = s.lineFenced l := by rw [State.lineFenced, State.lineFenced, begun_placeOf, begun_chanOut]

/-! ## RING_RESET (R299, R314) -/

theorem finishDesc_fine (m : Nat) (stage detail : Nat) : only [.regs, .rings] s (s.finishDesc m job st stage detail res) := by
  unfold State.finishDesc
  dsimp only
  split
  · exact only_refl _ _
  · exact only_putRing _ _

theorem finishDesc_ring_ne {m k : Nat} (h : k ≠ m) (stage detail : Nat) : (s.finishDesc m job st stage detail res).ring k = s.ring k := by
  unfold State.finishDesc
  dsimp only
  split
  · rfl
  · exact putRing_ring_ne h _

theorem finishDesc_ringSt (m k stage detail : Nat) : (s.finishDesc m job st stage detail res).ringSt k = s.ringSt k := by
  unfold State.finishDesc
  dsimp only
  split
  · rfl
  · exact putRing_ringSt _ _

/-- Every descriptor of the ring that has not begun is one of these jobs. -/
def ReadyAmong (n : Nat) (l : List Nat) (s : State) : Prop := ∀ x ∈ (s.ring n).descs, x.st = .ready → x.job ∈ l

/-- The end of a job leaves none of its descriptors to begin. -/
theorem finishDesc_readyAmong {l : List Nat} (h : ReadyAmong n (job :: l) s) (stage detail : Nat) : ReadyAmong n l (s.finishDesc n job st stage detail res) := by
  unfold State.finishDesc
  dsimp only
  split
  next hnone =>
    intro x hx hst
    rcases List.mem_cons.mp (h x hx hst) with hj | hj
    · exact absurd (List.find?_eq_none.mp hnone x hx) (by simp [hj, hst])
    · exact hj
  next =>
    intro x hx hst
    rw [putRing_ring_same] at hx
    obtain ⟨y, hy, rfl⟩ := List.mem_map.mp hx
    split at hst
    · cases hst
    next hj =>
      rw [if_neg hj]
      exact (List.mem_cons.mp (h y hy hst)).resolve_left hj

theorem finishJobs_readyAmong {l : List Nat} (h : ReadyAmong n l s) : ReadyAmong n [] (s.each l fun x j => x.finishDesc n j st 0 0 []) := by
  induction l generalizing s with
  | nil => exact h
  | cons j l ih => exact ih (finishDesc_readyAmong h 0 0)

theorem endReset_ring (m k : Nat) : (s.endReset m).ring k = s.ring k := by
  unfold State.endReset
  dsimp only
  split
  · exact set_ring_of _ _ _ _
  · rfl

theorem endReset_fine (m : Nat) : only [.regs] s (s.endReset m) := by
  unfold State.endReset
  dsimp only
  split
  · exact only_set _ _
  · exact only_refl _ _

/-- Some work of the ring in reset is left. -/
def Lingers (n : Nat) (s : State) : Prop := s.ringSt n = 3 ∧ ((s.ring n).descs ≠ [] ∨ (s.ring n).cpls ≠ [])

theorem Lingers.finishDesc (h : Lingers n s) (stage detail : Nat) : Lingers n (s.finishDesc n job st stage detail res) := by
  refine ⟨(finishDesc_ringSt _ _ _ _).trans h.1, ?_⟩
  unfold State.finishDesc
  dsimp only
  split
  · exact h.2
  · exact .inr (by rw [putRing_ring_same]; simp)

theorem Lingers.endReset (h : Lingers n s) : (s.endReset n).ringSt n = 3 := by
  have hleft : ((s.ring n).descs.isEmpty && (s.ring n).cpls.isEmpty) = false := by
    rcases h.2 with h | h <;> simp [h]
  unfold State.endReset
  dsimp only
  rw [if_neg (by rw [Bool.and_assoc, hleft, Bool.and_false]; exact Bool.false_ne_true)]
  exact h.1

theorem resetBegun_ring_ne {k : Nat} (h : k ≠ n) : (resetBegun s n).ring k = s.ring k := by
  rw [resetBegun, State.orphan, forsake_ring, putRing_ring_ne h, set_ring_of]

theorem resetBegun_ring : (resetBegun s n).ring n = { s.ring n with fetching := 0, fetched := [], slots := [], rcbRead := none, cplHeld := false, cplKept := false } := by
  rw [resetBegun, State.orphan, forsake_ring, putRing_ring_same]

theorem resetBegun_ringSt : (resetBegun s n).ringSt n = 3 := by rw [resetBegun, State.orphan, forsake_ringSt, putRing_ringSt, ringSt_set_same]

theorem resetBegun_fox : (resetBegun s n).fox = { s.fox with
    outs := s.fox.outs.map fun o => if Owner.readOf n o.owner then { o with owner := .gone } else o, unsent := s.fox.unsent.filter fun o => !Owner.readOf n o.owner } := by
  have h : ∀ x : State, x.fox = s.fox → (x.orphan n).fox = { s.fox with
      outs := s.fox.outs.map fun o => if Owner.readOf n o.owner then { o with owner := .gone } else o, unsent := s.fox.unsent.filter fun o => !Owner.readOf n o.owner } :=
    fun x hx => by rw [State.orphan, State.forsake, hx]
  exact h _ (only_trans (only_mono (by simp) (only_set _ _)) (only_putRing n _) .fox (l := [.regs, .rings]) (by decide))

/-- The reset of a ring other than ring 0. -/
theorem resetRing_of_ne (hn : n ≠ 0) : s.resetRing n = ((resetBegun s n).each (readyJobs (resetBegun s n) n) fun x j => x.finishDesc n j 0x0C 0 0 []).endReset n := by
  have hkept : keptDropped n (s.ring n) (resetBegun s n) = resetBegun s n := if_neg hn
  rw [resetRing_eq, hkept]

theorem readyJobs_among : ReadyAmong n (readyJobs s n) s := fun x hx hst => List.mem_map.mpr ⟨x, List.mem_filter.mpr ⟨hx, by simp [hst]⟩, rfl⟩

theorem resetRing_noneReady (hn : n ≠ 0) : ∀ x ∈ ((s.resetRing n).ring n).descs, x.st ≠ .ready := by
  intro x hx hst
  rw [resetRing_of_ne hn, endReset_ring] at hx
  exact absurd (finishJobs_readyAmong readyJobs_among x hx hst) List.not_mem_nil

theorem resetRing_lingers (hn : n ≠ 0) (h : ¬ ((s.ring n).descs = [] ∧ (s.ring n).cpls = [])) : (s.resetRing n).ringSt n = 3 := by
  rw [resetRing_of_ne hn]
  refine Lingers.endReset (each_keeps (P := Lingers n) ⟨resetBegun_ringSt, ?_⟩ fun x j hx => hx.finishDesc 0 0)
  rw [resetBegun_ring]
  exact not_and_or.mp h

theorem resetRing_fox (hn : n ≠ 0) : (s.resetRing n).fox = (resetBegun s n).fox := by
  have h : only [.regs, .rings] (resetBegun s n) (s.resetRing n) := by
    rw [resetRing_of_ne hn]
    exact only_trans (only_each fun x j => finishDesc_fine _ _ _) (only_mono (by simp) (endReset_fine n))
  exact h .fox (by decide)

theorem resetRing_ring_ne (hn : n ≠ 0) {k : Nat} (h : k ≠ n) : (s.resetRing n).ring k = s.ring k := by
  rw [resetRing_of_ne hn, endReset_ring]
  exact (each_keeps (P := fun x => x.ring k = (resetBegun s n).ring k) rfl fun x j hx => (finishDesc_ring_ne h 0 0).trans hx).trans (resetBegun_ring_ne h)

theorem resetRing_orphans (hn : n ≠ 0) : ∀ o ∈ (s.resetRing n).fox.outs, o.owner ≠ .rcb n ∧ ∀ i, o.owner ≠ .fetch n i := by
  rw [resetRing_fox hn, resetBegun_fox]
  intro o ho
  obtain ⟨x, hx, rfl⟩ := List.mem_map.mp ho
  split
  · exact ⟨by simp, by simp⟩
  next hown => exact ⟨fun h => hown (by simp [h, Owner.readOf, Owner.rcbOf]), fun i h => hown (by simp [h, Owner.readOf])⟩

/-- The ring's fetches and reads are forgotten, and no write of its entries is held back. -/
def Cleared (n : Nat) (s : State) : Prop := (s.ring n).slots = [] ∧ (s.ring n).fetching = 0 ∧ (s.ring n).rcbRead = none ∧ (s.ring n).cplHeld = false

theorem Cleared.finishDesc (h : Cleared n s) (stage detail : Nat) : Cleared n (s.finishDesc n job st stage detail res) := by
  unfold State.finishDesc
  dsimp only
  split
  · exact h
  · unfold Cleared
    rwa [putRing_ring_same]

theorem resetRing_cleared (hn : n ≠ 0) : Cleared n (s.resetRing n) := by
  have hbegun : Cleared n (resetBegun s n) := by
    unfold Cleared
    rw [resetBegun_ring]
    exact ⟨rfl, rfl, rfl, rfl⟩
  unfold Cleared
  rw [resetRing_of_ne hn, endReset_ring]
  exact each_keeps (P := Cleared n) hbegun fun x j hx => hx.finishDesc 0 0

theorem mgmtOf_append (l : List Mgmt) (m : Mgmt) (hl : s.fox.mgmt = l ++ [m]) (hnone : (l.filter fun x => x.op.toNat == op) = []) (hop : m.op.toNat = op) : s.mgmtOf op = [m] := by
  rw [State.mgmtOf, hl, List.filter_append, hnone, List.nil_append, List.filter_cons_of_pos (by simp [hop]), List.filter_nil]

/-- The resets that wait, after one that has just been taken: its own alone. -/
theorem ringReset_ends (h : s.starts0 0x42 d) (hname : namesRing d.payload = true) (hn : n = byteAt d.payload 0) (hst : s.ringSt n = 1 ∨ s.ringSt n = 2) (hone : s.mgmtOf 0x42 = []) :
    exec .ringReset s = .next (if ((begun s 0x42 d).resetRing n).ringSt n = 0 then ((begun s 0x42 d).resetRing n).mgmtDone d.job stOK [] else (begun s 0x42 d).resetRing n) := by
  subst hn
  obtain ⟨h1, h63⟩ := namesRing_bounds hname
  have hst' : ¬ ((begun s 0x42 d).ringSt (byteAt d.payload 0) = 0 ∨ (begun s 0x42 d).ringSt (byteAt d.payload 0) = 3) := by
    rw [begun_ringSt (by omega) h63]
    omega
  have hown : ((begun s 0x42 d).resetRing (byteAt d.payload 0)).mgmtOf 0x42 = [mgmtFor 0x42 d] :=
    mgmtOf_append s.fox.mgmt _ (by rw [resetRing_fox (by omega), resetBegun_fox, begun_fox]) hone rfl
  show execRingReset s = _
  unfold execRingReset
  rw [starts0_eq h]
  show Host.Outcome.next (if (!namesRing d.payload) = true then _ else if (begun s 0x42 d).ringSt (byteAt d.payload 0) = 0 ∨ (begun s 0x42 d).ringSt (byteAt d.payload 0) = 3 then _
    else ((begun s 0x42 d).resetRing (byteAt d.payload 0)).finishRingResets) = _
  rw [if_neg (by simp [hname]), if_neg hst']
  unfold State.finishRingResets
  rw [hown]
  rfl

theorem mgmtDone_outs : (s.mgmtDone job st res).fox.outs = s.fox.outs := by
  have h : ∀ x : State, x.fox.outs = s.fox.outs → (x.finishDesc 0 job st 0 0 res).fox.outs = s.fox.outs := fun x hx => by rw [finishDesc_fine 0 0 0 .fox (by decide), hx]
  exact h _ rfl

theorem ringReset_runs (h : s.starts0 0x42 d) (hname : namesRing d.payload = true) (hn : n = byteAt d.payload 0) (hst : s.ringSt n = 1 ∨ s.ringSt n = 2) (hone : s.mgmtOf 0x42 = []) :
    ∃ t, exec .ringReset s = .next t
      ∧ (if (s.ring n).descs = [] ∧ (s.ring n).cpls = [] then t.ringSt n = 0 ∧ ended0 s t d.job stOK [] else t.ringSt n = 3 ∧ runs0 s t 0x42 d)
      ∧ (t.ring n).slots = [] ∧ (t.ring n).fetching = 0 ∧ (t.ring n).rcbRead = none ∧ (t.ring n).cplHeld = false ∧ (∀ x ∈ (t.ring n).descs, x.st ≠ .ready)
      ∧ (∀ o ∈ t.fox.outs, o.owner ≠ .rcb n ∧ ∀ i, o.owner ≠ .fetch n i) ∧ (∀ k, k ≠ 0 → k ≠ n → t.ring k = s.ring k) ∧ only [.fox, .rings, .pwr, .regs] s t := by
  have hexec := ringReset_ends h hname hn hst hone
  obtain ⟨h1, h63⟩ := namesRing_bounds hname
  rw [← hn] at h1 h63
  have hn0 : n ≠ 0 := by omega
  have hring : (begun s 0x42 d).ring n = s.ring n := by rw [begun_ring, if_neg hn0]
  have hready := resetRing_noneReady (s := begun s 0x42 d) hn0
  have hout := resetRing_orphans (s := begun s 0x42 d) hn0
  obtain ⟨hslots, hfetch, hrcb, hheld⟩ := resetRing_cleared (s := begun s 0x42 d) hn0
  have hne : ∀ k, k ≠ 0 → k ≠ n → ((begun s 0x42 d).resetRing n).ring k = s.ring k := fun k hk hkn => by rw [resetRing_ring_ne hn0 hkn, begun_ring, if_neg hk]
  have hzero : ((begun s 0x42 d).resetRing n).ring 0 = (begun s 0x42 d).ring 0 := resetRing_ring_ne hn0 (Ne.symm hn0)
  have honly : only [.fox, .rings, .pwr, .regs] s ((begun s 0x42 d).resetRing n) := only_trans begun_only (only_mono (by simp [ringParts]) resetRing_only)
  have hmgmt : ((begun s 0x42 d).resetRing n).fox.mgmt = s.fox.mgmt ++ [mgmtFor 0x42 d] := by rw [resetRing_fox hn0, resetBegun_fox, begun_fox]
  by_cases hempty : (s.ring n).descs = [] ∧ (s.ring n).cpls = []
  · have hoff : ((begun s 0x42 d).resetRing n).ringSt n = 0 := resetRing_ringSt (by rw [hring]; exact hempty.1) (by rw [hring]; exact hempty.2)
    rw [if_pos hoff] at hexec
    simp only [if_pos hempty]
    generalize (begun s 0x42 d).resetRing n = x at *
    have hhere : (x.mgmtDone d.job stOK []).ring n = x.ring n := mgmtDone_ring_ne hn0
    refine ⟨_, hexec, ⟨?_, ?_⟩, by rw [hhere, hslots], by rw [hhere, hfetch], by rw [hhere, hrcb], by rw [hhere, hheld], by rw [hhere]; exact hready, by rw [mgmtDone_outs]; exact hout,
      fun k hk hkn => by rw [mgmtDone_ring_ne hk, hne k hk hkn], mgmtDone_only' honly (by simp [ringParts])⟩
    · exact (mgmtDone_fld (f := RING_STATUS_STATE n) (by simp only [RING_STATUS_STATE, RING_STATUS]; omega)).trans hoff
    · refine mgmtDone_ended ?_ ?_
      · rw [Holds, hzero]
        exact begun_holds h.1
      · rw [hzero, begun_cpls]
  · have hstays : ((begun s 0x42 d).resetRing n).ringSt n = 3 := resetRing_lingers hn0 (by rw [hring]; exact hempty)
    rw [if_neg (by rw [hstays]; decide)] at hexec
    simp only [if_neg hempty]
    exact ⟨_, hexec, ⟨hstays, hmgmt, by rw [hzero, begun_cpls]⟩, hslots, hfetch, hrcb, hheld, hready, hout, hne, honly⟩

/-! ## MARL_WB (R226) -/

theorem startFlush_only (inv ring0 : Bool) : only [.marl, .regs] s (s.startFlush inv ring0) := only_trans (only_mono (by simp) (only_marl _)) (only_mono (by simp) (only_set _ _))

/-- The mark that a flush sets on a line. -/
def flushMarked (s : State) (e : Nat × Line) : Nat × Line := (e.1, if e.2.st == .dirty && !s.lineFenced e.1 then { e.2 with flushMark := true } else e.2)

theorem startFlush_marl (inv ring0 : Bool) : (s.startFlush inv ring0).marl =
    { s.marl with lines := (s.marl.lines.filter fun e => !(inv && e.2.st == .clean)).map (flushMarked s), flush := some inv, flushRing0 := ring0 } :=
  only_set (s := { s with marl := { s.marl with lines := (s.marl.lines.filter fun e => !(inv && e.2.st == .clean)).map (flushMarked s), flush := some inv, flushRing0 := ring0 } })
    MARL_STATUS_FLUSH_BUSY 1 .marl (by decide)

theorem flushMarked_data (e : Nat × Line) : ((flushMarked s e).1, (flushMarked s e).2.data) = (e.1, e.2.data) := by
  unfold flushMarked
  dsimp only
  split <;> rfl

/-- A line that is dirty after the marks, in no fenced channel, carries one. -/
theorem flushMarked_mark {e : Nat × Line} (hst : (flushMarked s e).2.st = .dirty) (hf : s.lineFenced e.1 = false) : (flushMarked s e).2.flushMark = true := by
  unfold flushMarked at hst ⊢
  dsimp only at hst ⊢
  by_cases hd : e.2.st = .dirty
  · rw [if_pos (by simp [hd, hf])]
  · rw [if_neg (by simp [hd])] at hst
    exact absurd hst hd

theorem marlWb_runs {inv : Bool} (h : s.starts0 0x48 d) (hlen : 8 ≤ d.payload.length) (hinv : byteAt d.payload 0 = b2n inv) (hz : leAt d.payload 1 7 = 0) (hbusy : s.fld MARL_STATUS_FLUSH_BUSY = 0)
    (hq : s.fld MARL_CTL_QUIESCE = 0) :
    ∃ t, exec .marlWb s = .next t ∧ runs0 s t 0x48 d ∧ t.marl.flush = some inv ∧ t.marl.flushRing0 = true ∧ t.fld MARL_STATUS_FLUSH_BUSY = 1
      ∧ t.marl.lines.map (fun e => (e.1, e.2.data)) = (s.marl.lines.filter fun e => !(inv && e.2.st == .clean)).map (fun e => (e.1, e.2.data))
      ∧ (∀ e ∈ t.marl.lines, e.2.st = .dirty → s.lineFenced e.1 = false → e.2.flushMark = true) ∧ only [.fox, .rings, .pwr, .marl, .regs] s t := by
  obtain ⟨_, hentry, _⟩ := working_parts h.1
  have hbusy' : (begun s 0x48 d).on MARL_STATUS_FLUSH_BUSY = false := by rw [State.on, begun_fld (by decide) (by decide), hbusy]; rfl
  have hq' : (begun s 0x48 d).on MARL_CTL_QUIESCE = false := by rw [State.on, begun_fld (by decide) (by decide), hq]; rfl
  have hmode : (byteAt d.payload 0 == 1) = inv := by rw [hinv]; cases inv <;> rfl
  have hlow : byteAt d.payload 0 ≤ 1 := by rw [hinv]; cases inv <;> decide
  have hexec : exec .marlWb s = .next ((begun s 0x48 d).startFlush inv true) := by
    show execMarlWb s = _
    unfold execMarlWb
    rw [starts0_eq h]
    simp only [mgmtFor, hz, hbusy', hq', begun_entry.1, hentry, hmode]
    rw [if_neg (by simp; omega), if_neg (by simp)]
  have honly := startFlush_only (s := begun s 0x48 d) inv true
  have hmarl := startFlush_marl (s := begun s 0x48 d) inv true
  rw [show (begun s 0x48 d).marl = s.marl from begun_only .marl (by decide)] at hmarl
  refine ⟨_, hexec, begun_runs (honly .rings (by decide)) (by rw [honly .fox (by decide)]), by rw [hmarl], by rw [hmarl], fld_set_fits (by decide) (by decide) (by decide), ?_, ?_,
    only_trans (only_mono (by simp) begun_only) (only_mono (by simp) honly)⟩
  · rw [hmarl, List.map_map]
    exact List.map_congr_left fun e _ => flushMarked_data e
  · rw [hmarl]
    intro e he hst hf
    obtain ⟨x, _, rfl⟩ := List.mem_map.mp he
    exact flushMarked_mark hst (by rw [begun_lineFenced]; exact hf)

/-! ## SET_PASR (R249) -/

theorem begun_pasrSet (c : Nat) : (begun s op d).pasrSet c = s.pasrSet c := by rw [State.pasrSet, State.pasrSet, begun_parity]

theorem begun_pasrRefused (h : s.nextMgmt = some d) (c : Nat) : (begun s op d).pasrRefused c = s.pasrRefused c := by
  obtain ⟨hsleep, hentry, _⟩ := working_parts h
  have hany : ∀ x, (begun s op d).fld (CHAN_STATUS_STATE x) = s.fld (CHAN_STATUS_STATE x) := fun x => begun_chanFld (by simp only [CHAN_STATUS_STATE]; omega)
  have hre : (begun s op d).rebuilding = s.rebuilding := by
    have hst : ∀ x, (begun s op d).fld (CHAN_REBUILD_STATE x) = s.fld (CHAN_REBUILD_STATE x) := fun x => begun_chanFld (by simp only [CHAN_REBUILD_STATE]; omega)
    simp only [State.rebuilding, hst]
  have hchn : ∀ x, (begun s op d).chn x = s.chn x := chn_congr (begun_only .chan (by decide))
  have hdeep : decide (2 ≤ (begun s op d).sleep) = decide (2 ≤ s.sleep) := by rw [decide_eq_false (by have := begun_sleep (op := op) (d := d) hsleep; omega), decide_eq_false (by omega)]
  simp only [State.pasrRefused, begun_pasrSet, begun_chanOut, hany, hchn, hre, begun_entry.1, hdeep]

/-- The step of a channel that changes with its group. -/
def pasrStep (c f : Nat) (a : Asker) (t : State) (x : Nat) : State :=
  (t.setChn x { t.chn x with pasrNew := some f, pasrAsker := if x = c then some a else none }).set (CHAN_STATUS_STATE x) 5

theorem pasrStep_ne {c f x k : Nat} {a : Asker} (h : k ≠ x) : (pasrStep c f a t x).chn k = t.chn k := by
  rw [pasrStep, chn_congr (only_set _ _ .chan (by decide)), chn_setChn_ne h]

/-- The channel waits for its new fraction. -/
def PasrWaits (k f : Nat) (t : State) : Prop := (t.chn k).pasrNew = some f ∧ t.fld (CHAN_STATUS_STATE k) = 5

theorem pasrStep_waits {c f : Nat} {a : Asker} (k : Nat) : PasrWaits k f (pasrStep c f a t k) := by
  refine ⟨?_, fld_set_fits (by decide : 0 ≤ 3) (by decide : 3 < 32) (by decide : 5 < 2 ^ 4)⟩
  rw [pasrStep, chn_congr (only_set _ _ .chan (by decide)), chn_setChn_same]

theorem startPasr_waits {c f : Nat} {a : Asker} : ∀ x ∈ s.pasrSet c, PasrWaits x f (s.startPasr c f a) := by
  intro x hx
  refine each_reaches (P := PasrWaits x f) (f := pasrStep c f a) hx (fun u => pasrStep_waits x) fun u k h => ?_
  by_cases hk : x = k
  · subst hk
    exact pasrStep_waits x
  · refine ⟨by rw [pasrStep_ne hk, h.1], ?_⟩
    rw [pasrStep, fld_set_ne _ (by simp only [CHAN_STATUS_STATE]; omega)]
    exact h.2

theorem startPasr_chn_ne {c f x : Nat} {a : Asker} (hx : x ∉ s.pasrSet c) : (s.startPasr c f a).chn x = s.chn x :=
  each_apart (φ := fun t => t.chn x) (f := pasrStep c f a) fun _ _ hk => pasrStep_ne fun h => hx (h ▸ hk)

theorem startPasr_dram {c f : Nat} {a : Asker} : (s.startPasr c f a).chan.dram = s.chan.dram := by
  refine each_apart (φ := fun t => t.chan.dram) (f := pasrStep c f a) fun _ _ _ => ?_
  rw [pasrStep, only_set _ _ .chan (by decide)]
  rfl

theorem setPasr_runs {c f : Nat} (h : s.starts0 0x49 d) (hlen : 8 ≤ d.payload.length) (hc : byteAt d.payload 0 = c) (hf : byteAt d.payload 1 = f) (hf4 : f ≤ 4) (hz : leAt d.payload 2 6 = 0)
    (hlt : c < s.nChans) (href : s.pasrRefused c = false) :
    ∃ t, exec .setPasr s = .next t ∧ runs0 s t 0x49 d ∧ (∀ x ∈ s.pasrSet c, (t.chn x).pasrNew = some f ∧ t.fld (CHAN_STATUS_STATE x) = 5) ∧ (t.chn c).pasrAsker = some .ring0
      ∧ (∀ x, x ∉ s.pasrSet c → t.chn x = s.chn x) ∧ t.chan.dram = s.chan.dram ∧ only [.fox, .rings, .pwr, .chan, .regs] s t := by
  have h32 : s.nChans ≤ 32 := by
    unfold State.nChans
    split
    · exact le_refl _
    · split <;> decide
  have hexec : exec .setPasr s = .next ((begun s 0x49 d).startPasr c f .ring0) := by
    show execSetPasr s = _
    unfold execSetPasr
    rw [starts0_eq h]
    simp only [mgmtFor, hc, hf, hz, begun_nChans, begun_pasrRefused h.1, href]
    rw [if_neg (by omega), if_neg (Nat.not_le.mpr hlt), if_neg (by simp)]
  have honly := startPasr_only (s := begun s 0x49 d) (c := c) f .ring0
  have hchan : (begun s 0x49 d).chan = s.chan := begun_only .chan (by decide)
  refine ⟨_, hexec, begun_runs (honly .rings (by decide)) (by rw [honly .fox (by decide)]), fun x hx => startPasr_waits x (by rwa [begun_pasrSet]), (startPasr_begun f .ring0).2.2, fun x hx => ?_, ?_,
    only_trans (only_mono (by simp) begun_only) (only_mono (by simp) honly)⟩
  · rw [startPasr_chn_ne (by rwa [begun_pasrSet]), chn_congr hchan]
  · rw [startPasr_dram, hchan]

/-! ## CHAN_REBUILD (R242) -/

theorem chanRebuild_ends {c n : Nat} (h : s.starts0 0x4A d) (hlen : 8 ≤ d.payload.length) (hc : byteAt d.payload 0 = c) (hc32 : c < 32) (hn : byteAt d.payload 1 = n) (h1 : 1 ≤ n) (h16 : n ≤ 16)
    (hz : leAt d.payload 2 6 = 0) (hre : s.fld (CHAN_REBUILD_STATE c) ≠ 0) (hone : s.mgmtOf 0x4A = []) :
    ∃ t, exec .chanRebuild s = .next t ∧ only [.fox, .rings, .pwr, .regs] s t
      ∧ (if s.fld (CHAN_REBUILD_STATE c) = 1 ∧ s.fld (CHAN_REBUILD_SIXTEENTHS c) < n then runs0 s t 0x4A d
        else ended0 s t d.job stOK ([BitVec.ofNat 8 (s.fld (CHAN_REBUILD_SIXTEENTHS c)), BitVec.ofNat 8 (s.fld (CHAN_REBUILD_STATE c)), 0, 0] ++ leBytes 4 (s.fld (CHAN_REBUILD_LOST_BLOCKS c)))) := by
  have hst : (begun s 0x4A d).fld (CHAN_REBUILD_STATE c) = s.fld (CHAN_REBUILD_STATE c) := begun_chanFld (by simp only [CHAN_REBUILD_STATE]; omega)
  have hsix : (begun s 0x4A d).fld (CHAN_REBUILD_SIXTEENTHS c) = s.fld (CHAN_REBUILD_SIXTEENTHS c) := begun_chanFld (by simp only [CHAN_REBUILD_SIXTEENTHS]; omega)
  have hlost : (begun s 0x4A d).fld (CHAN_REBUILD_LOST_BLOCKS c) = s.fld (CHAN_REBUILD_LOST_BLOCKS c) := begun_chanFld (by simp only [CHAN_REBUILD_LOST_BLOCKS]; omega)
  have hown : (begun s 0x4A d).mgmtOf 0x4A = [mgmtFor 0x4A d] := mgmtOf_append s.fox.mgmt _ (by rw [begun_fox]) hone rfl
  have hexec : exec .chanRebuild s = .next ((begun s 0x4A d).finishRebuildWaits c) := by
    show execChanRebuild s = _
    unfold execChanRebuild
    rw [starts0_eq h]
    simp only [mgmtFor, hc, hn, hz, hst]
    rw [if_neg (by omega), if_neg hre]
  have hwaits : (begun s 0x4A d).finishRebuildWaits c = if s.fld (CHAN_REBUILD_STATE c) ≠ 1 ∨ n ≤ s.fld (CHAN_REBUILD_SIXTEENTHS c) then
      (begun s 0x4A d).mgmtDone d.job stOK ([BitVec.ofNat 8 (s.fld (CHAN_REBUILD_SIXTEENTHS c)), BitVec.ofNat 8 (s.fld (CHAN_REBUILD_STATE c)), 0, 0] ++ leBytes 4 (s.fld (CHAN_REBUILD_LOST_BLOCKS c)))
      else begun s 0x4A d := by
    rw [← hst, ← hsix, ← hlost, ← hn]
    unfold State.finishRebuildWaits
    rw [hown]
    show (if byteAt d.payload 0 ≠ c then _ else _) = _
    rw [if_neg (not_not.mpr hc)]
    rfl
  rw [hwaits] at hexec
  by_cases hwait : s.fld (CHAN_REBUILD_STATE c) = 1 ∧ s.fld (CHAN_REBUILD_SIXTEENTHS c) < n
  · rw [if_neg (by omega)] at hexec
    simp only [if_pos hwait]
    exact ⟨_, hexec, begun_only, begun_runs rfl rfl⟩
  · rw [if_pos (by omega)] at hexec
    simp only [if_neg hwait]
    exact ⟨_, hexec, mgmtDone_only' begun_only (by simp [ringParts]), begun_ended h.1 rfl⟩

/-! ## BST_RUN (R452) -/

/-- A unit of the scope exists, its tests are enabled, and it is not held. -/
def runnable (s : State) (scope ix : Nat) : Prop :=
  (scope = 0 ∧ ix < s.nChans ∧ s.on BST_CFG_COIL_EN = true ∧ s.colHeld ix = false) ∨ (scope = 1 ∧ ix = 0 ∧ s.on BST_CFG_PAD_EN = true)
    ∨ (scope = 2 ∧ ix < s.nPorts ∧ s.on BST_CFG_LANE_EN = true ∧ ∃ k < s.nLinks ix, s.lst ix k = 4)

theorem begun_on {f : Fld} (h : f.off ≠ (RING_STATUS 0).off) (h' : f.off ≠ GLB_PWR_STATUS.off) : (begun s op d).on f = s.on f := by rw [State.on, State.on, begun_fld h h']

theorem begun_colHeld (c : Nat) : (begun s op d).colHeld c = s.colHeld c := by
  have hcol : (begun s op d).col c = s.col c := col_congr (begun_only .vcp (by decide)) c
  rw [State.colHeld, State.colHeld, State.colOn, State.colOn, hcol, begun_nChans, begun_fld (f := VCP_COL_STATUS_MODE c) (by simp only [VCP_COL_STATUS_MODE, RING_STATUS]; omega)
    (by simp only [VCP_COL_STATUS_MODE, GLB_PWR_STATUS]; omega), begun_on (f := VCP_COL_STATUS_WR_HOLD c) (by simp only [VCP_COL_STATUS_WR_HOLD, RING_STATUS]; omega)
    (by simp only [VCP_COL_STATUS_WR_HOLD, GLB_PWR_STATUS]; omega)]

theorem begun_nPorts : (begun s op d).nPorts = s.nPorts := by rw [State.nPorts, State.nPorts, State.variant, State.variant, begun_only .fuse (by decide)]

theorem begun_nLinks (p : Nat) : (begun s op d).nLinks p = s.nLinks p := by
  rw [State.nLinks, State.nLinks, begun_fld (by simp only [PORT_LINK_CFG_SPLIT, RING_STATUS]; omega) (by simp only [PORT_LINK_CFG_SPLIT, GLB_PWR_STATUS]; omega)]

theorem begun_lst (p m : Nat) : (begun s op d).lst p m = s.lst p m :=
  begun_fld (by simp only [PORT_LINK_STATUS_STATE, RING_STATUS]; omega) (by simp only [PORT_LINK_STATUS_STATE, GLB_PWR_STATUS]; omega)

theorem nPorts_le : s.nPorts ≤ 32 := by
  unfold State.nPorts
  split <;> decide

theorem nChans_le : s.nChans ≤ 32 := by
  unfold State.nChans
  split
  · exact le_refl _
  · split <;> decide

theorem bstRun_runs {scope ix : Nat} (h : s.starts0 0x4E d) (hlen : 8 ≤ d.payload.length) (hscope : byteAt d.payload 0 = scope) (hix : byteAt d.payload 1 = ix) (hz : leAt d.payload 2 6 = 0)
    (hfree : s.acc.bstRun = none) (hrun : runnable s scope ix) :
    ∃ t, exec .bstRun s = .next t ∧ runs0 s t 0x4E d ∧ t.acc = { s.acc with bstRun := some { job := d.job, scope := scope, index := ix } } ∧ t.fld BST_STATUS_RUN_BUSY = 1
      ∧ only [.fox, .rings, .pwr, .acc, .regs] s t := by
  have hacc : (begun s 0x4E d).acc = s.acc := begun_only .acc (by decide)
  have hcoil : (begun s 0x4E d).on BST_CFG_COIL_EN = s.on BST_CFG_COIL_EN := begun_on (by decide) (by decide)
  have hpad : (begun s 0x4E d).on BST_CFG_PAD_EN = s.on BST_CFG_PAD_EN := begun_on (by decide) (by decide)
  have hlane : (begun s 0x4E d).on BST_CFG_LANE_EN = s.on BST_CFG_LANE_EN := begun_on (by decide) (by decide)
  have hexec : exec .bstRun s = .next ((({ begun s 0x4E d with acc := { (begun s 0x4E d).acc with bstRun := some { job := d.job, scope := scope, index := ix } } } : State)).set BST_STATUS_RUN_BUSY 1) := by
    have hC : s.nChans ≤ 32 := nChans_le
    have hP : s.nPorts ≤ 32 := nPorts_le
    show execBstRun s = _
    unfold execBstRun
    rw [starts0_eq h]
    simp only [mgmtFor, hscope, hix, hz, begun_nChans, begun_nPorts, begun_colHeld, begun_nLinks, begun_lst, hcoil, hpad, hlane, hacc, hfree]
    rcases hrun with ⟨h0, hlt, hon, hheld⟩ | ⟨h1, hx0, hon⟩ | ⟨h2, hlt, hon, k, hk, hup⟩
    · subst h0
      rw [if_neg (by omega), if_neg (by simp; omega), if_neg (by simp [hon, hheld])]
    · subst h1
      rw [if_neg (by omega), if_neg (by simp), if_neg (by simp [hon])]
    · subst h2
      rw [if_neg (by omega), if_neg (by simp; omega), if_neg (by simp [hon]; exact ⟨k, hk, hup⟩)]
  have honly : ∀ (x : State) (a : AccSt), only [.acc, .regs] x (({ x with acc := a } : State).set BST_STATUS_RUN_BUSY 1) := fun x a =>
    only_trans (only_mono (by simp) (only_acc a)) (only_mono (by simp) (only_set _ _))
  have hshown : ∀ (x : State) (a : AccSt), (({ x with acc := a } : State).set BST_STATUS_RUN_BUSY 1).acc = a := fun x a => only_set BST_STATUS_RUN_BUSY 1 .acc (by decide)
  refine ⟨_, hexec, begun_runs (honly _ _ .rings (by decide)) (by rw [honly _ _ .fox (by decide)]), by rw [hshown, hacc], fld_set_fits (by decide) (by decide) (by decide),
    only_trans (only_mono (by simp) begun_only) (only_mono (by simp) (honly _ _))⟩

end Sys2Proof.Proofs
end

section
/-! SUPPORT. REC_READ (R429): the records it reads are those of the state before, and its first WR carries what fits up to a page of the destination. -/

namespace Sys2Proof.Proofs

set_option Elab.async false

open Sys2Proof.Machine Sys2Proof.Laws

variable {s t u : State} {d : Desc} {op job n : Nat}

/-! ## What a REC_READ reads stands in the Sett -/

theorem recOldest_congr (h : t.sett = s.sett) (h' : t.recd.rseq = s.recd.rseq) : t.recOldest = s.recOldest := by
  have htop : t.rseqTop = s.rseqTop := by rw [State.rseqTop, State.rseqTop, h']
  have hrecs : t.logRecs = s.logRecs := by rw [State.logRecs, State.logRecs, h]
  rw [State.recOldest, State.recOldest, hrecs, htop]

theorem settByte_congr (h : t.sett = s.sett) (a : Nat) : t.settByte a = s.settByte a := by
  have hcfg : t.cfgContents = s.cfgContents := by rw [State.cfgContents, State.cfgContents, h]
  simp only [State.settByte, State.page, h, hcfg]

theorem areaData_congr (h : t.sett = s.sett) (area from_ cap : Nat) : t.areaData area from_ cap = s.areaData area from_ cap := by
  have hrecs : t.recsFrom = s.recsFrom := funext fun f => by rw [State.recsFrom, State.recsFrom, State.logRecs, State.logRecs, h]
  simp only [State.areaData, hrecs, settByte_congr h]

/-! ## The operation's own entry -/

/-- A REC_READ with the bytes it has read. -/
def readOf (d : Desc) (data : List (BitVec 8)) (nx : Nat) : Mgmt := { mgmtFor 0x50 d with data := data, next := BitVec.ofNat 64 nx }

theorem putMgmt_own {m m' : Mgmt} {l : List Mgmt} (hl : s.fox.mgmt = l ++ [m]) (hjob : m.job = m'.job) (hnew : ∀ x ∈ l, x.job ≠ m'.job) : (s.putMgmt m').fox.mgmt = l ++ [m'] := by
  show s.fox.mgmt.map (fun x => if x.job = m'.job then m' else x) = _
  have hold : l.map (fun x => if x.job = m'.job then m' else x) = l := (List.map_congr_left fun x hx => if_neg (hnew x hx)).trans (List.map_id l)
  rw [hl, List.map_append, hold, List.map_singleton, if_pos hjob]

theorem putMgmt_only (m : Mgmt) : only [.fox] s (s.putMgmt m) := only_fox _

/-- A request of the stack's own that finds a free TAG goes out. -/
theorem sendOwn_sent (hroom : s.fox.outs.length < 65536) (p : Packet) (o : Owner) (space : Nat) :
    (s.sendOwn p o space).fox.outs = s.fox.outs ++ [{ tag := s.freeTag, pkt := { p with hdr := { p.hdr with tag := s.freeTag } }, owner := o, space := space }]
      ∧ (s.sendOwn p o space).fox.mgmt = s.fox.mgmt := by
  unfold State.sendOwn
  rw [if_neg (Nat.not_le.mpr hroom)]
  exact ⟨by rw [emit_fox], by rw [emit_fox]⟩

/-! ## The operation -/

/-- The operands of a REC_READ are legal (R429). -/
def readLegal (p : List (BitVec 8)) : Prop :=
  32 ≤ p.length ∧ leAt p 0 8 % 64 = 0 ∧ leAt p 8 3 < 2 ^ 18 ∧ (leAt p 8 3 % 64 < 32 ∨ leAt p 8 3 % 64 = 63) ∧ byteAt p 11 ≤ 2 ∧ zeroAt p 12 4 = true ∧ zeroAt p 28 4 = true
    ∧ leAt p 24 4 % 64 = 0 ∧ 0 < leAt p 24 4 ∧ leAt p 24 4 ≤ 1048576

theorem recRead_eq {data : List (BitVec 8)} {nx : Nat} (h : s.nextMgmt = some d) (hop : descOp d.hdr 0 = 0x50) (hl : readLegal d.payload)
    (hdata : s.areaData (byteAt d.payload 11) (leAt d.payload 16 8) (leAt d.payload 24 4) = (data, nx)) :
    exec .recRead s = .next (((begun s 0x50 d).putMgmt (readOf d data nx)).recReadSend (readOf d data nx)) := by
  obtain ⟨hlen, halign, heid, hsub, harea, hz, hz', hcap, hpos, hmax⟩ := hl
  have hread : (begun s 0x50 d).areaData (byteAt d.payload 11) (leAt d.payload 16 8) (leAt d.payload 24 4) = (data, nx) := (areaData_congr (begun_only .sett (by decide)) _ _ _).trans hdata
  show execRecRead s = _
  unfold execRecRead
  rw [startMgmt_eq h hop (.inr (.inl rfl))]
  simp only [mgmtFor, hread, halign, hz, hz', hcap]
  rw [if_neg (by
    simp
    exact ⟨⟨⟨⟨⟨decide_eq_false (by omega), decide_eq_false (by omega)⟩, fun h63 => decide_eq_false (by omega)⟩, decide_eq_false (by omega)⟩, by omega⟩, decide_eq_false (by omega)⟩)]
  rfl

/-- The first WR of a REC_READ. -/
def firstWr (s : State) (d : Desc) (data : List (BitVec 8)) (nx : Nat) : Packet :=
  { hdr := mkHdr opWR 0 0 0 0 (recChunk (readOf d data nx)) (BitVec.ofNat 18 (leAt d.payload 8 3)) s.eid 0 (BitVec.ofNat 64 (leAt d.payload 0 8)), payload := slice data 0 (recChunk (readOf d data nx)) }

theorem recReadSend_some {data : List (BitVec 8)} {nx : Nat} (hd : data ≠ []) :
    s.recReadSend (readOf d data nx) = s.sendOwn (firstWr s d data nx) (.recRead d.job) 0 := by
  unfold State.recReadSend
  rw [if_neg (by simpa [readOf, List.isEmpty_iff] using hd)]
  rfl

theorem recReadSend_none {nx : Nat} : s.recReadSend (readOf d [] nx) = s.mgmtDone d.job stOK (leBytes 4 0 ++ leBytes 4 (nx % 2 ^ 64) ++ leBytes 4 s.recOldest ++ leBytes 4 s.recNewest) := by
  have hnx : (BitVec.ofNat 64 nx).toNat = nx % 2 ^ 64 := BitVec.toNat_ofNat _ _
  rw [← hnx]
  rfl

theorem recRead_runs {eid cap : Nat} {data : List (BitVec 8)} {nx : Nat} (h : s.nextMgmt = some d) (hop : descOp d.hdr 0 = 0x50) (hlen : 32 ≤ d.payload.length) (halign : leAt d.payload 0 8 % 64 = 0)
    (heid : leAt d.payload 8 3 = eid) (hlt : eid < 2 ^ 18) (hsub : eid % 64 < 32 ∨ eid % 64 = 63) (harea : byteAt d.payload 11 ≤ 2) (hz : zeroAt d.payload 12 4 = true) (hz' : zeroAt d.payload 28 4 = true)
    (hcap : leAt d.payload 24 4 = cap) (hcap64 : cap % 64 = 0) (hpos : 0 < cap) (hmax : cap ≤ 1048576) (hdata : s.areaData (byteAt d.payload 11) (leAt d.payload 16 8) cap = (data, nx))
    (hnew : ∀ m ∈ s.fox.mgmt, m.job ≠ d.job) (hroom : s.fox.outs.length < 65536) :
    ∃ t, exec .recRead s = .next t ∧ only [.fox, .rings, .pwr, .sw, .regs] s t
      ∧ (data = [] → ended0 s t d.job stOK (leBytes 4 0 ++ leBytes 4 (nx % 2 ^ 64) ++ leBytes 4 s.recOldest ++ leBytes 4 s.recNewest))
      ∧ (data ≠ [] → (t.ring 0).cpls = (s.ring 0).cpls ∧ t.fox.mgmt = s.fox.mgmt ++ [{ job := d.job, op := 0x50, payload := d.payload, data := data, next := BitVec.ofNat 64 nx }]
          ∧ ∃ q n, t.fox.outs = s.fox.outs ++ [q] ∧ q.owner = .recRead d.job ∧ q.pkt.hdr.opc = opWR ∧ q.pkt.hdr.dst.toNat = eid ∧ q.pkt.hdr.addr = BitVec.ofNat 64 (leAt d.payload 0 8)
            ∧ n = min (4096 - leAt d.payload 0 8 % 4096) ((data.length + 63) / 64 * 64) ∧ q.pkt.hdr.len.toNat = n ∧ q.pkt.payload = slice data 0 n) := by
  subst heid hcap
  have hexec := recRead_eq h hop ⟨hlen, halign, hlt, hsub, harea, hz, hz', hcap64, hpos, hmax⟩ hdata
  have honly : only [.fox, .rings, .pwr, .sw, .regs] s ((begun s 0x50 d).putMgmt (readOf d data nx)) := only_trans (only_mono (by simp) begun_only) (only_mono (by simp) (putMgmt_only _))
  have hput := putMgmt_only (s := begun s 0x50 d) (readOf d data nx)
  have hmgmt : ((begun s 0x50 d).putMgmt (readOf d data nx)).fox.mgmt = s.fox.mgmt ++ [readOf d data nx] := putMgmt_own (m := mgmtFor 0x50 d) (by rw [begun_fox]) rfl hnew
  have houts : ((begun s 0x50 d).putMgmt (readOf d data nx)).fox.outs = s.fox.outs := by
    show (begun s 0x50 d).fox.outs = _
    rw [begun_fox]
  have hrings := hput .rings (by decide)
  generalize (begun s 0x50 d).putMgmt (readOf d data nx) = x at *
  by_cases hd : data = []
  · subst hd
    rw [recReadSend_none] at hexec
    refine ⟨_, hexec, mgmtDone_only' honly (by simp [ringParts]), fun _ => ?_, fun hne => absurd rfl hne⟩
    have hsett : x.sett = s.sett := honly .sett (by decide)
    have hrecd : x.recd.rseq = s.recd.rseq := by rw [honly .recd (by decide)]
    rw [recOldest_congr hsett hrecd, recNewest_congr hsett hrecd]
    exact begun_ended h hrings
  · rw [recReadSend_some hd] at hexec
    obtain ⟨hsent, hkept⟩ := sendOwn_sent (s := x) (by rw [houts]; exact hroom) (firstWr x d data nx) (.recRead d.job) 0
    have hcpls : ((x.sendOwn (firstWr x d data nx) (.recRead d.job) 0).ring 0).cpls = (s.ring 0).cpls := by rw [sendOwn_ring, State.ring, hrings, ← State.ring, begun_cpls]
    refine ⟨_, hexec, only_trans honly (only_mono (by simp) (outside_sendOwn _ _ _).1), fun hnil => absurd hnil hd, fun _ => ⟨hcpls, by rw [hkept, hmgmt]; rfl, ?_⟩⟩
    have hchunk : recChunk (readOf d data nx) ≤ 4096 := Nat.le_trans (Nat.min_le_left _ _) (Nat.sub_le _ _)
    refine ⟨_, recChunk (readOf d data nx), by rw [hsent, houts], rfl, rfl, ?_, rfl, rfl, ?_, rfl⟩
    · exact (BitVec.toNat_ofNat _ _).trans (Nat.mod_eq_of_lt hlt)
    · exact (BitVec.toNat_ofNat _ _).trans (Nat.mod_eq_of_lt (Nat.lt_of_le_of_lt hchunk (by decide)))

end Sys2Proof.Proofs
end

section
/-! SUPPORT. The work of an engine ends (R306, R337, R350), traps with the block reset of its engine (R79, R352), and block resets begin (R78). -/

namespace Sys2Proof.Proofs

set_option Elab.async false

open Sys2Proof.Machine Sys2Proof.Laws

variable {s t u : State} {d : Desc} {op job n e k : Nat} {st : BitVec 8} {res : List (BitVec 8)}

/-! ## A job ends -/

/-- The registers that the end of a job may write: the counters of packets, the power state, and those of the rings and the engines. -/
def workReg (o : Nat) : Prop := packetReg o ∨ o = GLB_PWR_STATUS.off ∨ 0x9000 ≤ o

/-- What the end of a job may change: no operation of ring 0, and neither a sleep entry nor a wake that is due. -/
structure WorkEnds (s t : State) : Prop where
  frame : Frame [.fox, .rings, .regs, .sw, .pwr] workReg s t
  mgmt : t.fox.mgmt = s.fox.mgmt
  entry : t.pwr.entry = s.pwr.entry
  due : t.pwr.wakeDue = s.pwr.wakeDue
  sleep : s.sleep ≤ 1 → t.sleep ≤ 1

theorem WorkEnds.refl (s : State) : WorkEnds s s := ⟨.refl _ _ _, rfl, rfl, rfl, id⟩

theorem WorkEnds.trans (h : WorkEnds s t) (h' : WorkEnds t u) : WorkEnds s u :=
  ⟨h.frame.trans h'.frame, h'.mgmt.trans h.mgmt, h'.entry.trans h.entry, h'.due.trans h.due, fun hs => h'.sleep (h.sleep hs)⟩

theorem WorkEnds.ite {c : Prop} [Decidable c] (ht : WorkEnds s t) (hu : WorkEnds s u) : WorkEnds s (if c then t else u) := by
  split
  · exact ht
  · exact hu

theorem WorkEnds.when {b : Bool} {f : State → State} (h : WorkEnds s (f s)) : WorkEnds s (s.when b f) := by
  cases b
  · exact .refl s
  · exact h

theorem WorkEnds.each {α : Type} {xs : List α} {f : State → α → State} (h : ∀ x a, WorkEnds x (f x a)) : WorkEnds s (s.each xs f) :=
  each_keeps (P := WorkEnds s) (.refl s) fun x a hx => hx.trans (h x a)

theorem workEnds_fox {x : FoxSt} (h : x.mgmt = s.fox.mgmt) : WorkEnds s { s with fox := x } :=
  ⟨.of_only (only_fox x) (by simp) (by simp), h, rfl, rfl, id⟩

/-- A change of rings, switch and registers of the rings and engines. -/
theorem WorkEnds.of_frame {r : Nat → Prop} (h : Frame [.rings, .sw, .regs] r s t) (hr : ∀ o, r o → packetReg o ∨ 0x9000 ≤ o) : WorkEnds s t := by
  have hpwr : t.pwr = s.pwr := h.agree (p := .pwr) (by decide)
  have hsleep : t.sleep = s.sleep := h.fld (f := GLB_PWR_STATUS_STATE) fun ho => by
    have := hr _ ho
    revert this
    unfold packetReg
    decide
  exact ⟨h.mono (by simp) fun o ho => (hr o ho).elim .inl fun ho => .inr (.inr ho), congrArg FoxSt.mgmt (h.agree (p := .fox) (by decide)), by rw [hpwr], by rw [hpwr], fun hs => hsleep.trans_le hs⟩

theorem workEnds_set {f : Fld} {v : Nat} (h : 0x9000 ≤ f.off) : WorkEnds s (s.set f v) := .of_frame (r := fun o => 0x9000 ≤ o) (.set (by simp) h) fun _ => .inr

theorem workEnds_inc {f : Fld} (h : 0x9000 ≤ f.off) : WorkEnds s (s.inc f) := workEnds_set h

theorem workEnds_setReg {o v : Nat} (h : 0x9000 ≤ o) : WorkEnds s (s.setReg o v) := .of_frame (r := fun o => 0x9000 ≤ o) (.setReg (by simp) h) fun _ => .inr

theorem workEnds_incPair {f : Fld} (h : 0x9000 ≤ f.off) : WorkEnds s (s.incPair f 1) := (workEnds_setReg h).trans (workEnds_setReg (by omega))

theorem workEnds_setRing (r : Ring) : WorkEnds s (s.setRing n r) := .of_frame (r := fun _ => False) (.of_only (only_setRing n r) (by simp) (by simp)) fun _ h => h.elim

theorem workEnds_sets {fs : List (Fld × Nat)} (h : ∀ p ∈ fs, 0x9000 ≤ p.1.off) : WorkEnds s (s.sets fs) := .of_frame (r := fun o => 0x9000 ≤ o) (.sets (by simp) h) fun _ => .inr

theorem workEnds_finishDesc (stage detail : Nat) : WorkEnds s (s.finishDesc n job st stage detail res) := by
  unfold State.finishDesc
  dsimp only
  split
  · exact .refl s
  · exact (workEnds_setRing _).trans (workEnds_set (by simp only [RING_STATUS_INFLIGHT]; omega))

theorem workEnds_haltRing (cause : Nat) : WorkEnds s (s.haltRing n cause st) := by
  have hshow : ∀ l, WorkEnds s (s.showRing0 l) := fun l =>
    (workEnds_setRing _).trans (workEnds_sets (by simp [RING_STATUS_HALT_CAUSE, RING_STATUS_HALT_STATUS]))
  unfold State.haltRing
  refine .ite (.refl s) (.ite (.ite (.refl s) (hshow _)) (workEnds_sets ?_))
  simp [RING_STATUS_STATE, RING_STATUS_HALT_CAUSE, RING_STATUS_HALT_STATUS]
  omega

theorem workEnds_emitRsp (p : Packet) (held : List Nat) : WorkEnds s (s.emitRsp p held) := .of_frame ((sends_emitRsp p held).mono (by simp) fun _ h => h) fun _ => .inl

theorem workEnds_setEng (g : Engine) : WorkEnds s (s.setEng e g) := workEnds_fox rfl

theorem workEnds_setJob (j : Job) : WorkEnds s (s.setJob j) := workEnds_fox rfl

theorem workEnds_releaseCvu (c : Nat) : WorkEnds s (s.releaseCvu c) := workEnds_fox rfl

theorem workEnds_putEng (g : Engine) : WorkEnds s (s.putEng e g) := (workEnds_setEng g).trans (workEnds_set (by simp only [FOX_STATUS_STATE]; omega))

theorem workEnds_restEng : WorkEnds s (s.restEng e) := workEnds_putEng _

theorem workEnds_activity : WorkEnds s s.activity := by
  refine ⟨⟨only_mono (by simp) activity_only, fun o ho => reg_activity fun h => ho (.inr (.inl h))⟩, congrArg FoxSt.mgmt (activity_only .fox (by decide)), activity_entry.1, activity_entry.2, activity_sleep⟩

/-- A job leaves the list, and frees its check-value unit. -/
def jobLeft (s : State) (j : Job) : State :=
  match j.cvu with
  | some u => ({ s with fox := { s.fox with jobs := s.fox.jobs.filter fun x => x.id != j.id } } : State).releaseCvu u
  | none => { s with fox := { s.fox with jobs := s.fox.jobs.filter fun x => x.id != j.id } }

/-- The completion of a ring's job (R306, R350). -/
def jobCompleted (s : State) (n e : Nat) (j : Job) (st : BitVec 8) (stage detail : Nat) (res : List (BitVec 8)) : State :=
  (s.finishDesc n j.id st stage detail res).incPair (FOX_DESC_LO e) 1

/-- The answer of an SVC's job (R337). -/
def svcAnswered (s : State) (e : Nat) (p : Packet) (st : BitVec 8) (detail : Nat) (res : List (BitVec 8)) : State :=
  ((s.inc (FOX_SVC_DONE e)).when (st == stMALFORMED) fun t => t.inc GLB_CNT_VIOL_MALFORMED).emitRsp
    (mkRsp s.eid p.hdr (if st == 0x0D then stSTATE else st) 0 (slice res 0 16 ++ leBytes 4 (if st == 0x0D then detail / 256 * 256 + 0x0D else detail) ++ zeros 12))

/-- What asked for a job gets its answer. -/
def jobAnswered (s : State) (e : Nat) (j : Job) (st : BitVec 8) (stage detail : Nat) (res : List (BitVec 8)) : State :=
  match j.ring with
  | some n =>
    let t := if st = stMALFORMED ∧ (j.fail.map fun (f : BitVec 8 × BitVec 8 × Bool) => f.2.2) ≠ some true then (jobCompleted s n e j st stage detail res).inc (RING_CNT_VIOL_DESC n)
      else jobCompleted s n e j st stage detail res
    if st = stPOISON then t.haltRing n 1 stPOISON else t
  | none => match j.svc with
    | some p => svcAnswered s e p st detail res
    | none => s

theorem endJob_eq (j : Job) (stage detail : Nat) : s.endJob e j st stage detail res = ((jobAnswered (jobLeft s j) e j st stage detail res).restEng e).activity := by
  unfold State.endJob jobAnswered jobLeft
  cases j.cvu <;> cases j.ring <;> cases j.svc <;> rfl

theorem workEnds_jobLeft (j : Job) : WorkEnds s (jobLeft s j) := by
  unfold jobLeft
  split
  · exact WorkEnds.trans (t := { s with fox := { s.fox with jobs := s.fox.jobs.filter fun x => x.id != j.id } }) (workEnds_fox rfl) (workEnds_releaseCvu _)
  · exact workEnds_fox rfl

theorem workEnds_jobCompleted (j : Job) (stage detail : Nat) : WorkEnds s (jobCompleted s n e j st stage detail res) :=
  (workEnds_finishDesc _ _).trans (workEnds_incPair (by simp only [FOX_DESC_LO]; omega))

theorem workEnds_svcAnswered (p : Packet) (detail : Nat) : WorkEnds s (svcAnswered s e p st detail res) := by
  refine WorkEnds.trans (WorkEnds.trans (workEnds_inc (by simp only [FOX_SVC_DONE]; omega)) (.when ?_)) (workEnds_emitRsp _ _)
  exact .of_frame (r := packetReg) (.inc (by simp) (.inr (.inr (.inr (.inl rfl))))) fun _ => .inl

theorem workEnds_jobAnswered (j : Job) (stage detail : Nat) : WorkEnds s (jobAnswered s e j st stage detail res) := by
  have hhalt : ∀ (y : State) (n : Nat), WorkEnds s y → WorkEnds s (if st = stPOISON then y.haltRing n 1 stPOISON else y) := fun y n hy => .ite (hy.trans (workEnds_haltRing 1)) hy
  unfold jobAnswered
  split
  next n _ =>
    have hdone : WorkEnds s (jobCompleted s n e j st stage detail res) := workEnds_jobCompleted j stage detail
    generalize jobCompleted s n e j st stage detail res = x at *
    exact hhalt _ n (.ite (hdone.trans (workEnds_inc (by simp only [RING_CNT_VIOL_DESC]; omega))) hdone)
  · split
    · exact workEnds_svcAnswered _ _
    · exact .refl s

theorem workEnds_endJob (j : Job) (stage detail : Nat) : WorkEnds s (s.endJob e j st stage detail res) := by
  rw [endJob_eq]
  exact (((workEnds_jobLeft j).trans (workEnds_jobAnswered j stage detail)).trans workEnds_restEng).trans workEnds_activity

theorem workEnds_freeHelper : WorkEnds s (s.freeHelper e) := by
  unfold State.freeHelper
  exact .ite (workEnds_setEng _) workEnds_restEng

/-- What the nothing due of a state becomes as work ends. -/
theorem WorkEnds.calm (h : WorkEnds s t) (hcalm : s.calm = true) : t.calm = true := by
  obtain ⟨hdue, hentry, hgrave⟩ := calm_iff.mp hcalm
  exact calm_iff.mpr ⟨h.due.trans hdue, h.entry.trans hentry, (graveRec_congr (congrArg FltSt.recs (h.frame.agree (p := .flt) (by decide)))).trans hgrave⟩

/-! ## The trap of a block reset (R79) -/

/-- What a trap that has ended leaves of the engine's work. -/
def workOver (s : State) (e : Nat) : State :=
  match (s.eng e).run with
  | none => s
  | some r => match s.job r.job with
    | none => s
    | some j => if j.engines.head? = some e then (s.each ((s.enginesOf j.id).filter (· != e)) State.freeHelper).endJob e j 0x0D j.stage j.detail (leBytes 8 (j.trapProg.getD 0) ++ zeros 8)
      else s.setJob { j with confirmed := j.confirmed ++ [s.partSpan j r] }

theorem workEnds_workOver : WorkEnds s (workOver s e) := by
  unfold workOver
  split
  · exact .refl s
  · split
    · exact .refl s
    · exact .ite ((WorkEnds.each fun _ _ => workEnds_freeHelper).trans (workEnds_endJob _ _ _)) (workEnds_setJob _)

/-- A trap of a block reset is neither a fetch nor a watchdog trap: no fault, and the engine reloads. -/
theorem endTrap_reset : s.endTrap e 3 true = (workOver s e).reloadEng e true := by
  unfold State.endTrap
  extract_lets g s1 again mark s2
  have hagain : again = false := rfl
  rw [if_neg (by rw [hagain]; exact Bool.false_ne_true)] <;> rfl

/-- The registers that the restart of an engine may write. -/
def restartReg (o : Nat) : Prop := workReg o ∨ faultReg o

/-- What the restart of an engine may change: no operation of ring 0. -/
structure Restarted (s t : State) : Prop where
  frame : Frame [.fox, .rings, .regs, .sw, .pwr, .recd, .sett, .flt] restartReg s t
  mgmt : t.fox.mgmt = s.fox.mgmt

theorem Restarted.trans (h : Restarted s t) (h' : Restarted t u) : Restarted s u := ⟨h.frame.trans h'.frame, h'.mgmt.trans h.mgmt⟩

theorem WorkEnds.restarted (h : WorkEnds s t) : Restarted s t := ⟨h.frame.mono (by simp) fun _ => .inl, h.mgmt⟩

theorem checkRetained_workEnds : WorkEnds s s.checkRetained.2 := by
  simp only [State.checkRetained]
  split
  · exact .refl s
  · split
    · split
      · exact workEnds_fox rfl
      · exact .refl s
    · exact .refl s

theorem offEng_workEnds : WorkEnds s (s.offEng e) := by
  unfold State.offEng
  exact .ite (workEnds_putEng _) (workEnds_setEng _)

theorem disableAll_restarted : Restarted s s.disableAll := by
  have hoff : WorkEnds s { (s.each (List.range s.nEngines) State.offEng) with fox := { (s.each (List.range s.nEngines) State.offEng).fox with allDisabled := true } } :=
    (WorkEnds.each fun _ _ => offEng_workEnds).trans (workEnds_fox rfl)
  have hraise : ∀ x : State, Restarted x (x.raiseRec .fwCopy 0 0) := fun x =>
    ⟨raiseRec_frame.mono (by simp) fun _ => .inr, congrArg FoxSt.mgmt (raiseRec_frame.agree (p := .fox) (by decide))⟩
  exact hoff.restarted.trans (hraise _)

theorem reloadEng_restarted : Restarted s (s.reloadEng e true) := by
  have hcheck := checkRetained_workEnds (s := s)
  unfold State.reloadEng
  split
  next heq =>
    rw [heq] at hcheck
    exact hcheck.restarted.trans disableAll_restarted
  next heq =>
    rw [heq] at hcheck
    rw [if_pos rfl]
    exact (hcheck.trans (workEnds_putEng _)).restarted

theorem trapFails_workEnds (t : State) {r : Run} : WorkEnds t (trapFails s t e r) := by
  unfold trapFails
  split
  · exact .ite (workEnds_setJob _) (.refl t)
  · exact .refl t

theorem trapStopped_workEnds {cause : Nat} {r : Run} : WorkEnds s (trapStopped s e cause r) :=
  (((workEnds_setEng _).trans (workEnds_inc (by simp only [FOX_TRAPS]; omega))).trans (workEnds_set (by simp only [FOX_STATUS_TRAP_CAUSE]; omega))).trans (workEnds_putEng _)

/-- The trap of a block reset: the work it ends, and the reload that follows where nothing is outstanding. -/
theorem trapEng_reset {r : Run} (hrun : (s.eng e).run = some r) : ∃ x, WorkEnds s x ∧ (s.trapEng e 3 = x ∨ s.trapEng e 3 = x.reloadEng e true) := by
  by_cases hcan : canTrap s e
  · rw [trapEng_working hcan hrun]
    have hfails : WorkEnds s (trapFails s (trapStopped s e 3 r) e r) := trapStopped_workEnds.trans (trapFails_workEnds _)
    split
    · exact ⟨_, hfails, .inl rfl⟩
    · rw [endTrap_reset]
      exact ⟨_, hfails.trans workEnds_workOver, .inr rfl⟩
  · refine ⟨s, .refl s, .inl ?_⟩
    have hguard : (decide (s.nEngines ≤ e) || (s.eng e).st == .off || (s.eng e).st == .disabled || (s.eng e).trapping.isSome) = true := by
      refine Bool.eq_true_of_not_eq_false fun h => ?_
      simp only [Bool.or_eq_false_iff, decide_eq_false_iff_not, beq_eq_false_iff_ne, Option.isSome_eq_false_iff, Option.isNone_iff_eq_none] at h
      exact hcan ⟨Nat.lt_of_not_le h.1.1.1, h.1.1.2, h.1.2, h.2⟩
    unfold State.trapEng
    dsimp only
    rw [if_pos hguard]

/-- The clear of an engine: what work there was has ended, and it reloads at once or later (R79). -/
theorem clearEngine_cases : ∃ x, WorkEnds s x ∧ (s.clearEngine e = x ∨ s.clearEngine e = x.reloadEng e true) := by
  unfold State.clearEngine
  dsimp only
  split
  next hrun =>
    obtain ⟨r, hr⟩ := Option.isSome_iff_exists.mp hrun
    exact trapEng_reset hr
  · split
    · exact ⟨_, .refl _, .inl rfl⟩
    · exact ⟨_, workEnds_putEng _, .inl rfl⟩

theorem clearEngine_restarted : Restarted s (s.clearEngine e) := by
  obtain ⟨x, hx, h | h⟩ := clearEngine_cases (s := s) (e := e) <;> rw [h]
  · exact hx.restarted
  · exact hx.restarted.trans reloadEng_restarted

theorem clearEngine_calm (hcalm : s.calm = true) (hsleep : s.sleep ≤ 1) : (s.clearEngine e).calm = true := by
  obtain ⟨x, hx, h | h⟩ := clearEngine_cases (s := s) (e := e) <;> rw [h]
  · exact hx.calm hcalm
  · have hshown : TrapShown 0 (x.fld (FOX_TRAPS 0)) (x.fld (FOX_STATUS_TRAP_CAUSE 0)) x.chan x := ⟨rfl, rfl, rfl, hx.calm hcalm, hx.sleep hsleep⟩
    exact (hshown.reloadEng (k := e)).2.2.2.1

/-! ## The clear of a port (R79) -/

theorem links_portClear (p : Nat) : Links s (s.portClear p) := by
  unfold State.portClear
  refine Frame.trans (Frame.trans (.each fun x m hm => ?_) (.of_only (only_sw _) (by simp) (by simp))) (.each fun x i _ => ?_)
  · have hm8 : m < 8 := Nat.lt_of_lt_of_le (List.mem_range.mp hm) (nLinks_le s p)
    exact .ite (.refl _ _ _) (links_linkDown hm8 7)
  · refine Frame.trans (Frame.trans (Frame.trans (links_setLane _ _) (.setReg (by simp) (linkReg_lane ?_))) (.setReg (by simp) (linkReg_lane ?_))) (.setReg (by simp) (linkReg_lane ?_))
    · simp only [LANE_RX_EQ]; omega
    · simp only [LANE_DFE]; omega
    · simp only [LANE_DFE]; omega

/-! ## Block resets begin (R78) -/

/-- A block reset has been noted, and shows as under way. -/
def resetNoted (s : State) (k ix : Nat) (a : Asker) : State :=
  ({ s with unitResets := s.unitResets ++ [{ kind := k, index := ix, asker := a }] } : State).setReg RST_UNIT_STATUS.off (2 ^ 31 + k * 2 ^ 20 + ix * 2 ^ 8)

theorem startReset_eq (k ix : Nat) (a : Asker) :
    s.startReset k ix a = if k = 1 then (resetNoted s k ix a).portClear ix else if k = 2 then (resetNoted s k ix a).set (CHAN_STATUS_STATE ix) 6 else (resetNoted s k ix a).clearEngine ix := rfl

/-- What RST_UNIT_STATUS shows while a block reset runs (Table 4.11). -/
def resetWord (k ix : Nat) : Nat := 2 ^ 31 + k * 2 ^ 20 + ix * 2 ^ 8

theorem resetWord_lt {ix : Nat} (hk : k ≤ 3) (hix : ix < 32) : resetWord k ix < 2 ^ 32 := by
  unfold resetWord
  omega

theorem resetNoted_reg {ix : Nat} {a : Asker} (hk : k ≤ 3) (hix : ix < 32) : (resetNoted s k ix a).reg RST_UNIT_STATUS.off = resetWord k ix :=
  (reg_setReg_same _ _ _).trans (Nat.mod_eq_of_lt (resetWord_lt hk hix))

theorem resetNoted_resets {ix : Nat} {a : Asker} : (resetNoted s k ix a).unitResets = s.unitResets ++ [{ kind := k, index := ix, asker := a }] := rfl

theorem resetNoted_only {ix : Nat} {a : Asker} : only [.unitResets, .regs] s (resetNoted s k ix a) := by
  have h : ∀ l : List UnitReset, only [.unitResets] s { s with unitResets := l } := fun l q hq => by
    cases q
    case unitResets => simp at hq
    all_goals rfl
  exact only_trans (only_mono (by simp) (h _)) (only_mono (by simp) only_setReg)

/-- The reset of a unit that begins is listed, and shows; ring 0's operations stay. -/
structure ResetBegins (k ix : Nat) (a : Asker) (s t : State) : Prop where
  resets : t.unitResets = s.unitResets ++ [{ kind := k, index := ix, asker := a }]
  shown : t.reg RST_UNIT_STATUS.off = resetWord k ix
  mgmt : t.fox.mgmt = s.fox.mgmt

theorem restartReg_status : ¬ restartReg RST_UNIT_STATUS.off := by
  unfold restartReg workReg faultReg recReg packetReg
  decide

theorem linkReg_status : ¬ linkReg RST_UNIT_STATUS.off := by
  unfold linkReg packetReg
  decide

theorem startReset_begins {ix : Nat} {a : Asker} (hk : k ≤ 3) (hix : ix < 32) : ResetBegins k ix a s (s.startReset k ix a) := by
  have hreg : (resetNoted s k ix a).reg RST_UNIT_STATUS.off = resetWord k ix := resetNoted_reg hk hix
  have hlist := resetNoted_resets (s := s) (k := k) (ix := ix) (a := a)
  have hfox : (resetNoted s k ix a).fox = s.fox := resetNoted_only .fox (by decide)
  rw [startReset_eq]
  generalize resetNoted s k ix a = x at *
  have hport : Links x (x.portClear ix) := links_portClear ix
  have heng : Restarted x (x.clearEngine ix) := clearEngine_restarted
  split
  · exact ⟨(hport.agree (p := .unitResets) (by decide)).trans hlist, (hport.reg _ linkReg_status).trans hreg, by rw [hport.agree (p := .fox) (by decide), hfox]⟩
  · split
    · refine ⟨(only_set _ _ .unitResets (by decide)).trans hlist, (reg_set_ne _ (by simp only [RST_UNIT_STATUS, CHAN_STATUS_STATE]; omega) _).trans hreg, by rw [only_set _ _ .fox (by decide), hfox]⟩
    · exact ⟨(heng.frame.agree (p := .unitResets) (by decide)).trans hlist, (heng.frame.reg _ restartReg_status).trans hreg, by rw [heng.mgmt, hfox]⟩

theorem startReset_calm {ix : Nat} {a : Asker} (hcalm : s.calm = true) (hsleep : s.sleep ≤ 1) : (s.startReset k ix a).calm = true := by
  have hnoted := resetNoted_only (s := s) (k := k) (ix := ix) (a := a)
  have hcalm' : (resetNoted s k ix a).calm = true := (calm_of (hnoted .pwr (by decide)) (hnoted .flt (by decide))).trans hcalm
  have hsleep' : (resetNoted s k ix a).sleep ≤ 1 := by
    have h : (resetNoted s k ix a).reg GLB_PWR_STATUS.off = s.reg GLB_PWR_STATUS.off := reg_setReg_ne _ (by decide) _
    rwa [State.sleep, State.fld, show GLB_PWR_STATUS_STATE.off = GLB_PWR_STATUS.off from rfl, h]
  rw [startReset_eq]
  generalize resetNoted s k ix a = x at *
  split
  · exact ((links_portClear ix).calm (by decide) (by decide)).trans hcalm'
  · split
    · exact (calm_of (only_set _ _ .pwr (by decide)) (only_set _ _ .flt (by decide))).trans hcalm'
    · exact clearEngine_calm hcalm' hsleep'

/-- What the status of a begun reset shows. -/
theorem ResetBegins.fields {ix : Nat} {a : Asker} (h : ResetBegins k ix a s t) (hk : k ≤ 3) (hix : ix < 32) :
    t.fld RST_UNIT_STATUS_BUSY = 1 ∧ t.fld RST_UNIT_STATUS_KIND = k ∧ t.fld RST_UNIT_STATUS_INDEX = ix := by
  have hshown : ∀ f : Fld, f.off = RST_UNIT_STATUS.off → t.fld f = bitsOf (resetWord k ix) f.hi f.lo := fun f hf => by rw [State.fld, hf, h.shown]
  refine ⟨(hshown RST_UNIT_STATUS_BUSY rfl).trans ?_, (hshown RST_UNIT_STATUS_KIND rfl).trans ?_, (hshown RST_UNIT_STATUS_INDEX rfl).trans ?_⟩
  all_goals
    simp only [bitsOf, resetWord, RST_UNIT_STATUS_BUSY, RST_UNIT_STATUS_KIND, RST_UNIT_STATUS_INDEX]
    omega

end Sys2Proof.Proofs
end

section
/-! SUPPORT. UNIT_RESET (R78, R79, 0x45), and the operations of ring 0 that run on. -/

namespace Sys2Proof.Proofs

set_option Elab.async false

open Sys2Proof.Machine Sys2Proof.Laws

variable {s t u : State} {d : Desc} {k ix : Nat}

/-- The word of a UNIT_RESET, taken apart. -/
theorem resetOperand {w : Nat} (hw : w = k * 2 ^ 28 + ix) (hk : k ≤ 3) (hix : ix < 32) : bitsOf w 31 28 = k ∧ bitsOf w 27 5 = 0 ∧ bitsOf w 4 0 = ix := by
  subst hw
  unfold bitsOf
  omega

theorem begun_unitOff {op : Nat} : (begun s op d).unitOff k ix = s.unitOff k ix := by
  have heng : (begun s op d).nEngines = s.nEngines := by rw [State.nEngines, State.nEngines, State.variant, State.variant, begun_only .fuse (by decide)]
  rw [State.unitOff, State.unitOff, begun_nPorts, begun_nChans, heng]

theorem begun_inReset {op : Nat} : (begun s op d).inReset k ix = s.inReset k ix := by rw [State.inReset, State.inReset, begun_only .unitResets (by decide)]

/-- A command for a unit that is present, not in reset and not fenced starts its reset. -/
theorem resetCmd_starts {a : Asker} (hoff : s.unitOff k ix = false) (hin : s.inReset k ix = false) (hf : k = 2 → s.fld (CHAN_STATUS_FENCED ix) = 0) :
    s.resetCmd k ix a false = (stOK, s.startReset k ix a) := by
  have hfenced : (s.inReset k ix || (k == 2 && s.on (CHAN_STATUS_FENCED ix))) = false := by
    rw [hin, Bool.false_or]
    by_cases h2 : k = 2
    · simp [h2, State.on, hf h2]
    · simp [h2]
  simp only [State.resetCmd, hoff, hfenced, Bool.false_eq_true, if_false]

theorem begun_calm {op : Nat} (hcalm : s.calm = true) : (begun s op d).calm = true := by
  obtain ⟨hdue, hentry, hgrave⟩ := calm_iff.mp hcalm
  exact calm_iff.mpr ⟨begun_entry.2.trans hdue, begun_entry.1.trans hentry, (graveRec_congr (congrArg FltSt.recs (begun_only .flt (by decide)))).trans hgrave⟩

theorem unitReset_eq (h : s.starts0 0x45 d) (hlen : 8 ≤ d.payload.length) (hw : leAt d.payload 0 4 = k * 2 ^ 28 + ix) (hz : leAt d.payload 4 4 = 0) (h1 : 1 ≤ k) (h3 : k ≤ 3) (hix : ix < 32)
    (hoff : s.unitOff k ix = false) (hin : s.inReset k ix = false) (hf : k = 2 → s.fld (CHAN_STATUS_FENCED ix) = 0) (hcalm : s.calm = true) :
    exec .unitReset s = .next ((begun s 0x45 d).startReset k ix .ring0) := by
  obtain ⟨hkind, hmid, hindex⟩ := resetOperand hw h3 hix
  have hcmd : (begun s 0x45 d).resetCmd k ix .ring0 false = (stOK, (begun s 0x45 d).startReset k ix .ring0) :=
    resetCmd_starts (begun_unitOff.trans hoff) (begun_inReset.trans hin) fun h2 => (begun_chanFld (by simp only [CHAN_STATUS_FENCED]; omega)).trans (hf h2)
  have hstarted : s.startMgmt 0x45 (fun t m =>
      let w := leAt m.payload 0 4
      let kind := bitsOf w 31 28
      if m.payload.length < 8 ∨ kind < 1 ∨ 3 < kind ∨ bitsOf w 27 5 ≠ 0 ∨ leAt m.payload 4 4 ≠ 0 then t.mgmtRefuse m.job stMALFORMED 0
      else match t.resetCmd kind (bitsOf w 4 0) .ring0 false with
        | (r, u) => if r = stOK then u else u.mgmtDone m.job r []) = (begun s 0x45 d).startReset k ix .ring0 := by
    rw [starts0_eq h]
    simp only [mgmtFor, hkind, hmid, hindex, hz, hcmd]
    rw [if_neg (by omega), if_pos trivial]
  have hcalm' : ((begun s 0x45 d).startReset k ix .ring0).calm = true := startReset_calm (begun_calm hcalm) (begun_sleep (working_parts h.1).1)
  show execUnitReset s = _
  unfold execUnitReset
  refine congrArg Host.Outcome.next (Eq.trans (congrArg State.settle ?_) (settle_calm hcalm'))
  exact hstarted

theorem unitReset_runs (h : s.starts0 0x45 d) (hlen : 8 ≤ d.payload.length) (hw : leAt d.payload 0 4 = k * 2 ^ 28 + ix) (hz : leAt d.payload 4 4 = 0) (h1 : 1 ≤ k) (h3 : k ≤ 3) (hix : ix < 32)
    (hoff : s.unitOff k ix = false) (hin : s.inReset k ix = false) (hf : k = 2 → s.fld (CHAN_STATUS_FENCED ix) = 0) (hcalm : s.calm = true) :
    ∃ t, exec .unitReset s = .next t ∧ t.unitResets = s.unitResets ++ [{ kind := k, index := ix, asker := .ring0 }] ∧ t.fld RST_UNIT_STATUS_BUSY = 1
      ∧ t.fld RST_UNIT_STATUS_KIND = k ∧ t.fld RST_UNIT_STATUS_INDEX = ix ∧ t.fox.mgmt = s.fox.mgmt ++ [{ job := d.job, op := 0x45, payload := d.payload }]
      ∧ (k = 2 → runs0 s t 0x45 d ∧ t.fld (CHAN_STATUS_STATE ix) = 6 ∧ only [.fox, .rings, .pwr, .unitResets, .regs] s t) := by
  have hexec := unitReset_eq h hlen hw hz h1 h3 hix hoff hin hf hcalm
  have hbegins := startReset_begins (s := begun s 0x45 d) (k := k) (a := .ring0) h3 hix
  obtain ⟨hbusy, hkind, hindex⟩ := hbegins.fields h3 hix
  refine ⟨_, hexec, hbegins.resets.trans (by rw [begun_only .unitResets (by decide)]), hbusy, hkind, hindex, by rw [hbegins.mgmt, begun_fox]; rfl, fun h2 => ?_⟩
  subst h2
  have hnoted := resetNoted_only (s := begun s 0x45 d) (k := 2) (ix := ix) (a := .ring0)
  rw [startReset_eq, if_neg (by decide), if_pos rfl]
  have hset : ∀ x : State, only [.regs] x (x.set (CHAN_STATUS_STATE ix) 6) := fun x => only_set _ _
  have hall := only_trans hnoted (only_mono (by simp) (hset _))
  refine ⟨begun_runs (hall .rings (by decide)) (by rw [hall .fox (by decide)]), fld_set_fits (by decide : 0 ≤ 3) (by decide : 3 < 32) (by decide : 6 < 2 ^ 4),
    only_trans (only_mono (by simp) begun_only) (only_mono (by simp) hall)⟩

/-- Settles O37, operation by operation. -/
theorem ringZeroRunsOn : Obligations.RingZeroRunsOn :=
  ⟨fun _ _ _ => ringReset_runs, fun _ _ _ _ => unitReset_runs, fun _ _ _ => marlWb_runs, fun _ _ _ _ => setPasr_runs, fun _ _ _ _ => chanRebuild_ends, fun _ _ _ _ => bstRun_runs,
    fun _ _ _ _ _ _ => recRead_runs⟩

end Sys2Proof.Proofs
end

section
/-! SUPPORT. Serving the accepted requests (R194, R201, R222 to R225): which parts of the state it may change, and that an engine's access that it ends is
answered. -/

namespace Sys2Proof.Proofs

set_option Elab.async false

open Sys2Proof.Machine Sys2Proof.Laws

variable {s t u : State} {l id i c e : Nat}

/-! ## What performing requests may change -/

def performParts : List Part := [.free, .regs, .recd, .sett, .flt, .sw, .pwr, .txns, .marl, .chan, .qos, .prot, .fox]

/-- The registers that performing requests may write: the counters of packets, and those of the collector and of the blocks behind it. -/
def performReg (o : Nat) : Prop := packetReg o ∨ 0x5000 ≤ o

/-- Accesses of an engine that were open stay so or have an answer; nothing else of the engine changes. -/
def EngAnswered (g g' : Engine) : Prop :=
  ∃ w, g' = { g with run := w } ∧ (g.run = none → w = none)
    ∧ ∀ r, g.run = some r → ∃ op an, w = some { r with opened := op, answers := r.answers ++ an } ∧ ∀ x ∈ r.opened, x ∈ op ∨ ∃ a, (x.1, a) ∈ an

theorem EngAnswered.refl (g : Engine) : EngAnswered g g := ⟨g.run, rfl, id, fun r hr => ⟨r.opened, [], by rw [hr, List.append_nil], fun x hx => .inl hx⟩⟩

theorem EngAnswered.trans {g g' g'' : Engine} (h : EngAnswered g g') (h' : EngAnswered g' g'') : EngAnswered g g'' := by
  obtain ⟨w, rfl, hnone, hsome⟩ := h
  obtain ⟨w', rfl, hnone', hsome'⟩ := h'
  refine ⟨w', rfl, fun hr => hnone' (hnone hr), fun r hr => ?_⟩
  obtain ⟨op, an, hw, hin⟩ := hsome r hr
  obtain ⟨op', an', hw', hin'⟩ := hsome' _ hw
  refine ⟨op', an ++ an', by rw [hw', List.append_assoc], fun x hx => ?_⟩
  rcases hin x hx with hx | ⟨a, ha⟩
  · exact (hin' x hx).imp id fun ⟨a, ha⟩ => ⟨a, List.mem_append_right _ ha⟩
  · exact .inr ⟨a, List.mem_append_left _ ha⟩

/-- What performing requests leaves: the listed parts and registers aside, the engines with their answers, the jobs and the operations of ring 0, and the
power state while the stack does not sleep. -/
structure Performed (s t : State) : Prop where
  frame : Frame performParts performReg s t
  awake : notSleeping s → t.pwr = s.pwr
  engines : ∀ e, EngAnswered (s.eng e) (t.eng e)
  fox : ∃ es m, t.fox = { s.fox with engines := es, ckpActive := m }

theorem performed_sleep (h : Frame performParts performReg s t) : t.sleep = s.sleep := h.fld (f := GLB_PWR_STATUS_STATE) (by unfold performReg packetReg; decide)

theorem Performed.refl (s : State) : Performed s s := ⟨.refl _ _ _, fun _ => rfl, fun _ => .refl _, s.fox.engines, s.fox.ckpActive, rfl⟩

theorem Performed.notSleeping (h : Performed s t) (hs : notSleeping s) : notSleeping t := ⟨(performed_sleep h.frame).trans_le hs.1, by rw [h.awake hs]; exact hs.2⟩

theorem Performed.trans (h : Performed s t) (h' : Performed t u) : Performed s u := by
  obtain ⟨es, m, hfox⟩ := h.fox
  obtain ⟨es', m', hfox'⟩ := h'.fox
  exact ⟨h.frame.trans h'.frame, fun hs => (h'.awake (h.notSleeping hs)).trans (h.awake hs), fun e => (h.engines e).trans (h'.engines e), es', m', by rw [hfox', hfox]⟩

theorem Performed.ite {p : Prop} [Decidable p] (ht : Performed s t) (hu : Performed s u) : Performed s (if p then t else u) := by
  split
  · exact ht
  · exact hu

theorem Performed.when {b : Bool} {f : State → State} (h : Performed s (f s)) : Performed s (s.when b f) := by
  cases b
  · exact .refl s
  · exact h

theorem Performed.each {α : Type} {xs : List α} {f : State → α → State} (h : ∀ x a, Performed x (f x a)) : Performed s (s.each xs f) :=
  each_keeps (P := Performed s) (.refl s) fun x a hx => hx.trans (h x a)

/-- A change that leaves engines and power alone. -/
theorem Performed.of_frame {k : List Part} {r : Nat → Prop} (h : Frame k r s t) (hk : k ⊆ [.free, .regs, .recd, .sett, .flt, .sw, .txns, .marl, .chan, .qos, .prot]) (hr : ∀ o, r o → performReg o) :
    Performed s t := by
  have hfox : t.fox = s.fox := h.agree (p := .fox) fun hm => by simpa using hk hm
  have hpwr : t.pwr = s.pwr := h.agree (p := .pwr) fun hm => by simpa using hk hm
  refine ⟨h.mono (fun p hp => ?_) hr, fun _ => hpwr, fun e => by rw [eng_congr hfox]; exact .refl _, s.fox.engines, s.fox.ckpActive, hfox⟩
  have := hk hp
  revert this
  cases p <;> simp [performParts]

theorem Performed.of_only {k : List Part} (h : only k s t) (hk : k ⊆ [.free, .recd, .sett, .flt, .sw, .txns, .marl, .chan, .qos, .prot]) : Performed s t :=
  .of_frame (r := fun _ => False) (k := k) (.of_only h (List.Subset.refl k) fun hm => by simpa using hk hm) (fun p hp => by have := hk hp; revert this; cases p <;> simp) fun _ h => h.elim

theorem performed_set {f : Fld} {v : Nat} (h : 0x5000 ≤ f.off) : Performed s (s.set f v) :=
  .of_frame (k := [.regs]) (r := performReg) (.set (by simp) (.inr h)) (by simp) fun _ h => h

theorem performed_inc {f : Fld} (h : 0x5000 ≤ f.off) : Performed s (s.inc f) := performed_set h

theorem performed_incBy {f : Fld} {n : Nat} (h : 0x5000 ≤ f.off) : Performed s (s.incBy f n) := performed_set h

theorem performed_setReg {o v : Nat} (h : 0x5000 ≤ o) : Performed s (s.setReg o v) :=
  .of_frame (k := [.regs]) (r := performReg) (.setReg (by simp) (.inr h)) (by simp) fun _ h => h

theorem performed_incPair {f : Fld} {n : Nat} (h : 0x5000 ≤ f.off) : Performed s (s.incPair f n) := (performed_setReg h).trans (performed_setReg (by omega))

theorem performed_sets {fs : List (Fld × Nat)} (h : ∀ p ∈ fs, 0x5000 ≤ p.1.off) : Performed s (s.sets fs) :=
  .of_frame (k := [.regs]) (r := fun o => 0x5000 ≤ o) (.sets (by simp) h) (by simp) fun _ => .inr

theorem performed_marl (x : MarlSt) : Performed s { s with marl := x } := .of_only (only_marl x) (by simp)

theorem performed_txns (x : List Txn) : Performed s { s with txns := x } := .of_only (only_txns x) (by simp)

theorem performed_setChn (x : Chan) : Performed s (s.setChn c x) := .of_only (only_setChn c x) (by simp)

theorem performed_qos (x : QosSt) : Performed s { s with qos := x } := .of_only (only_qos x) (by simp)

theorem performed_prot (x : ProtSt) : Performed s { s with prot := x } := .of_only (only_prot x) (by simp)

theorem performed_flt (x : FltSt) : Performed s { s with flt := x } := .of_only (only_flt x) (by simp)

theorem performed_free (x : Nat) : Performed s { s with free := x } := .of_only (only_free x) (by simp)

theorem performed_emitRsp (p : Packet) (held : List Nat) : Performed s (s.emitRsp p held) := .of_frame (sends_emitRsp p held) (by simp) fun _ => .inl

theorem performReg_fault {o : Nat} (h : faultReg o) : performReg o := by
  rcases h with h | h | h | h | h | h | h
  · refine .inr ?_
    rcases h with h | h
    · rw [h]; decide
    · omega
  · exact .inl h
  all_goals exact .inr (by rw [h]; decide)

theorem performed_raiseRec {f : FltCause} {unit detail : Nat} {inj : Bool} : Performed s (s.raiseRec f unit detail inj) := by
  have hframe := raiseRec_frame (s := s) (f := f) (unit := unit) (detail := detail) (inj := inj)
  have hfox : (s.raiseRec f unit detail inj).fox = s.fox := hframe.agree (p := .fox) (by decide)
  refine ⟨hframe.mono (by simp [performParts]) fun _ => performReg_fault, fun hs => (raiseRec_faulted hs).agree (p := .pwr) (by decide), fun e => by rw [eng_congr hfox]; exact .refl _,
    s.fox.engines, s.fox.ckpActive, hfox⟩

/-! ## The steps of a request -/

theorem performed_draw (n : Nat) : Performed s (s.draw n).2 := performed_free _

/-- A log of corrections whose registers stand behind the collector's. -/
def LogHigh (g : LogRegs) : Prop := 0x5000 ≤ g.lost.off ∧ ∀ i, 0x5000 ≤ (g.valid i).off ∧ 0x5000 ≤ (g.count i).off ∧ 0x5000 ≤ (g.loc i).off

theorem marlLog_high : LogHigh marlLog := ⟨by decide, fun i => by simp only [marlLog, MARL_CE_LOG_VALID, MARL_CE_LOG_COUNT, MARL_CE_LOG_LOCATION]; omega⟩

theorem chanLog_high (c : Nat) : LogHigh (chanLog c) :=
  ⟨by simp only [chanLog, CHAN_CE_LOG_LOST]; omega, fun i => by simp only [chanLog, CHAN_CE_LOG_VALID, CHAN_CE_LOG_COUNT, CHAN_CE_LOG_LOCATION]; omega⟩

theorem performed_logError {g : LogRegs} (h : LogHigh g) (loc : Nat) (ue : Bool) : Performed s (s.logError g loc ue) := by
  obtain ⟨hlost, hent⟩ := h
  have hput : ∀ i n, Performed s (s.sets [(g.valid i, 1), (g.count i, n), (g.loc i, loc)]) := fun i n => performed_sets (by
    obtain ⟨h1, h2, h3⟩ := hent i
    simp [h1, h2, h3])
  unfold State.logError
  extract_lets put
  split
  · exact performed_set (hent _).2.1
  · split
    · exact hput _ _
    · split
      · exact hput _ _
      · exact performed_inc hlost

theorem performed_injCheck (checker unit : Nat) : Performed s (s.injCheck checker unit).2 := by
  have harm : ∀ (x : State) (n a : Nat), Performed x (((x.inc FLT_INJECTED).set FLT_INJ_STATUS_REMAINING n).set FLT_INJ_STATUS_ARMED a) := fun x n a =>
    ((performed_inc (by decide)).trans (performed_set (by decide))).trans (performed_set (by decide))
  unfold State.injCheck
  split
  · split
    · exact Performed.trans (performed_flt _) (harm _ _ _)
    · exact .refl s
  · exact .refl s

theorem performed_marlUe (loc : Nat) (inj : Bool) : Performed s (s.marlUe loc inj) :=
  ((performed_inc (by decide)).trans (performed_logError marlLog_high _ _)).trans performed_raiseRec

theorem performed_noteMarlFix (loc b : Nat) : Performed s (s.noteMarlFix loc b) := by
  unfold State.noteMarlFix
  dsimp only
  exact .ite (performed_prot _) (performed_prot _)

theorem performed_decodeLine (x : Line) : Performed s (s.decodeLine l x).2 := by
  unfold State.decodeLine
  dsimp only
  split
  · exact .refl s
  · split
    · refine Performed.trans (Performed.trans (Performed.trans (performed_inc (by decide)) (performed_logError marlLog_high _ _)) (.ite (.refl _) (performed_noteMarlFix _ _))) (performed_marl _)
    · exact .refl s
    · split
      · exact (performed_marlUe _ _).trans (performed_marl _)
      · exact (performed_marlUe _ _).trans (performed_marl _)

theorem performed_readLine : Performed s (s.readLine l).2 := by
  unfold State.readLine
  split
  · exact .refl s
  next x _ =>
    have hinj := performed_injCheck (s := s) 1 (s.sliceOf l)
    dsimp only
    split
    next t heq => rw [heq] at hinj; exact hinj.trans (performed_marlUe _ _)
    next t heq => rw [heq] at hinj; exact (hinj.trans (performed_inc (by decide))).trans (performed_logError marlLog_high _ _)
    next t heq => rw [heq] at hinj; exact hinj.trans (performed_decodeLine x)

theorem performed_queueWb (cls grp : Nat) : Performed s (s.queueWb l cls grp) := by
  unfold State.queueWb
  split
  · exact .refl s
  next x _ =>
    generalize s.placeOf l = q
    obtain ⟨c, b⟩ := q
    dsimp only
    split
    · exact .refl s
    · have hdec := performed_decodeLine (s := s) (l := l) x
      split
      next t heq => rw [heq] at hdec; exact hdec
      next r t heq => rw [heq] at hdec; exact (hdec.trans (performed_marl _)).trans (performed_setChn _)

theorem performed_takeWay (cls grp : Nat) : Performed s (s.takeWay l cls grp).2 := by
  unfold State.takeWay
  extract_lets set busy ok
  split
  · exact .refl s
  · split
    · exact .refl s
    · split
      · exact .refl s
      · split
        · exact performed_marl _
        · exact Performed.trans (performed_queueWb _ _) (performed_marl _)

theorem performed_markGranule : Performed s (s.markGranule l) := by
  have hset : ∀ m : GranMap, Performed s { s with fox := { s.fox with ckpActive := m } } := fun m =>
    ⟨.of_only (only_fox _) (by simp [performParts]) (by simp), fun _ => rfl, fun _ => .refl _, s.fox.engines, m, rfl⟩
  unfold State.markGranule
  split
  · extract_lets g m dirty
    split
    · exact .refl s
    · exact hset _
  · exact .refl s

theorem performed_writeLine (way : Nat) (old : Option Line) (data : List (BitVec 8)) (noalloc : Bool) : Performed s (s.writeLine l way old data noalloc) := by
  unfold State.writeLine
  extract_lets x t
  have ht : Performed s t := ((performed_marl _).trans (performed_marl _)).trans performed_markGranule
  clear_value t
  exact .ite (ht.trans (performed_queueWb _ _)) ht

theorem performed_modTxn (f : Txn → Txn) : Performed s (s.modTxn id f) := performed_txns _

theorem performed_blockDone (data : Option (List (BitVec 8))) (poison : Bool) : Performed s (s.blockDone id i data poison) := performed_modTxn _

theorem performed_txnFenced : Performed s (s.txnFenced id c) := (performed_modTxn _).trans (performed_inc (by simp only [CHAN_FENCED_REQ]; omega))

theorem performed_noteMiss (τ : Txn) : Performed s (s.noteMiss τ i) := .ite (.refl s) ((performed_incPair (by decide)).trans (performed_modTxn _))

theorem performed_askRead (b : Nat) (use : RdUse) (cls grp : Nat) (forAtom : Bool) : Performed s (s.askRead c b use cls grp forAtom) := by
  unfold State.askRead
  dsimp only
  split
  · exact performed_setChn _
  · exact performed_setChn _

theorem performed_raiseMiss (τ : Txn) : Performed s (s.raiseMiss τ i) := by
  unfold State.raiseMiss
  generalize s.placeOf (τ.lineOf i) = q
  obtain ⟨c, b⟩ := q
  generalize τ.lineOf i = ln
  have h1 : Performed s (s.noteMiss τ i) := performed_noteMiss τ
  generalize s.noteMiss τ i = s1 at h1
  dsimp only
  split
  · exact performed_txnFenced
  · split
    · exact h1
    · have hway := performed_takeWay (s := s1) (l := ln) τ.cls τ.grp
      split
      next w s2 heq =>
        rw [heq] at hway
        exact ((h1.trans hway).trans (performed_marl _)).trans (performed_askRead _ _ _ _ _)
      next s2 heq => rw [heq] at hway; exact h1.trans hway

theorem performed_countHit (τ : Txn) : Performed s (s.countHit τ i) := .ite (.refl s) (performed_incPair (by decide))

theorem performed_touch (way : Nat) : Performed s (s.touch l way) := performed_marl _

theorem performed_serveRd (τ : Txn) : Performed s (s.serveRd τ i) := by
  have hread := performed_readLine (s := s) (l := τ.lineOf i)
  unfold State.serveRd
  extract_lets ln na
  split
  next r s1 heq =>
    rw [heq] at hread
    extract_lets x s2 s3 s4
    have h2 : Performed s s2 := hread.trans (performed_countHit τ)
    clear_value s2
    have h3 : Performed s s3 := .ite h2 (h2.trans (performed_touch _))
    clear_value s3
    have h4 : Performed s s4 := by
      show Performed s (if (na && !τ.missed.contains i) = true then _ else s3)
      refine .ite ?_ h3
      exact (h3.trans (performed_incPair (by decide))).trans (.when (performed_askRead _ _ _ _ _))
    clear_value s4
    split
    · exact (h4.trans (performed_draw 64)).trans (performed_blockDone _ _)
    · exact h4.trans (performed_blockDone _ _)
  next s1 heq =>
    rw [heq] at hread
    split
    · split
      · exact hread
      · split
        split
        · exact hread.trans performed_txnFenced
        · exact ((hread.trans (performed_incPair (by decide))).trans (performed_noteMiss τ)).trans (performed_askRead _ _ _ _ _)
    · exact hread.trans (performed_raiseMiss τ)

theorem performed_serveWr (τ : Txn) (data : List (BitVec 8)) : Performed s (s.serveWr τ i data) := by
  have hway := performed_takeWay (s := s) (l := τ.lineOf i) τ.cls τ.grp
  unfold State.serveWr
  extract_lets ln na s0
  have h0 : Performed s s0 := .ite (performed_incPair (by decide)) (.refl s)
  clear_value s0
  split
  · exact ((h0.trans (performed_countHit τ)).trans (performed_writeLine _ _ _ _)).trans (performed_blockDone _ _)
  · split
    next w s1 heq =>
      rw [heq] at hway
      exact (((hway.trans (performed_incPair (by decide))).trans (.when (performed_incPair (by decide)))).trans (performed_writeLine _ _ _ _)).trans (performed_blockDone _ _)
    next s1 heq => rw [heq] at hway; exact hway

theorem performed_serveWrp (τ : Txn) : Performed s (s.serveWrp τ i) := by
  have hread := performed_readLine (s := s) (l := τ.lineOf i)
  unfold State.serveWrp
  extract_lets mask data ln na
  split
  · exact performed_serveWr τ _
  · split
    · exact performed_markGranule.trans (performed_blockDone _ _)
    · split
      next r s1 heq =>
        rw [heq] at hread
        extract_lets s2
        have h2 : Performed s s2 := (hread.trans (performed_countHit τ)).trans (.when (performed_incPair (by decide)))
        clear_value s2
        split
        · exact h2.trans (performed_blockDone _ _)
        · split
          · exact (h2.trans (performed_writeLine _ _ _ _)).trans (performed_blockDone _ _)
          · exact h2
      next s1 heq => rw [heq] at hread; exact hread.trans (performed_raiseMiss τ)

theorem performed_countBytes (cls grp d n : Nat) : Performed s (s.countBytes cls grp d n) :=
  .ite (performed_incPair (by decide)) ((performed_incPair (by simp only [QOS_BYTES_LO]; omega)).trans (performed_incPair (by simp only [QOS_GRP_BYTES_LO]; omega)))

theorem performed_chargeBedrock (g : Nat) : Performed s (s.chargeBedrock g) := by
  have h : Performed s s.fillBuckets := performed_qos _
  unfold State.chargeBedrock
  extract_lets t have_ q u
  have hu : Performed s u := h.trans (performed_qos _)
  clear_value u
  exact .ite (hu.trans (performed_inc (by decide))) hu

theorem performed_serveAtom (τ : Txn) : Performed s (s.serveAtom τ) := by
  have hread := performed_readLine (s := s) (l := τ.lineOf 0)
  unfold State.serveAtom
  extract_lets ln sub w o a b
  split
  next r s1 heq =>
    rw [heq] at hread
    extract_lets s2 old s3 s4
    have h2 : Performed s s2 := hread.trans (performed_countHit τ)
    clear_value s2
    split
    · exact h2.trans (performed_blockDone _ _)
    · have h3 : Performed s s3 := by
        unfold s3
        split
        · exact .ite (h2.trans (performed_writeLine _ _ _ _)) (h2.trans (performed_touch _))
        · exact h2
      clear_value s3
      have h4 : Performed s s4 := ((h3.trans (performed_countBytes _ _ _ _)).trans (performed_countBytes _ _ _ _)).trans (.when (performed_chargeBedrock _))
      clear_value s4
      exact h4.trans (performed_blockDone _ _)
  next s1 heq => rw [heq] at hread; exact hread.trans (performed_raiseMiss τ)

theorem performed_serveBlock : Performed s (s.serveBlock id i) := by
  unfold State.serveBlock
  split
  · exact .refl s
  next τ _ => exact .ite (.refl s) (.ite (performed_serveRd τ) (.ite (performed_serveWr τ _) (.ite (performed_serveWrp τ) (performed_serveAtom τ))))

/-! ## Answers -/

theorem eng_setEng (k : Nat) (g : Engine) : (s.setEng k g).eng e = if e = k then g else s.eng e := by
  split
  next h => rw [h, eng_setEng_same]
  next h => rw [eng_setEng_ne h]

theorem performed_engAnswer (acc : Nat) (a : AccAns) : Performed s (s.engAnswer e acc a) := by
  unfold State.engAnswer
  extract_lets g
  split
  · exact .refl s
  next r hr =>
    split
    · exact .refl s
    next o ho =>
      extract_lets cut
      clear_value cut
      refine ⟨.of_only (only_setEng _ _) (by simp [performParts]) (by simp), fun _ => rfl, fun k => ?_, _, s.fox.ckpActive, rfl⟩
      rw [eng_setEng]
      split
      next hk =>
        subst hk
        refine ⟨_, rfl, fun h => absurd hr (by rw [h]; simp), fun q hq => ?_⟩
        rw [show g.run = some q from hq] at hr
        cases hr
        refine ⟨_, [(acc, { a with data := cut })], rfl, fun x hx => ?_⟩
        by_cases hxa : x.1 = acc
        · exact .inr ⟨_, by rw [hxa]; exact List.mem_singleton_self _⟩
        · exact .inl (List.mem_filter.mpr ⟨hx, by simpa using hxa⟩)
      next => exact .refl _

theorem performed_finishTxn : Performed s (s.finishTxn id) := by
  unfold State.finishTxn
  split
  · exact .refl s
  next τ _ =>
    refine .ite ?_ (.refl s)
    extract_lets s1
    have h1 : Performed s s1 := performed_txns _
    clear_value s1
    split
    split
    · exact h1.trans (performed_engAnswer _ _)
    · exact .ite (h1.trans (performed_emitRsp _ _)) h1

theorem performed_serveTxn : Performed s (s.serveTxn id) := by
  unfold State.serveTxn
  split
  · exact .refl s
  next τ _ =>
    extract_lets s1
    have h1 : Performed s s1 := .each fun _ _ => performed_serveBlock
    clear_value s1
    split
    · exact h1
    · exact .ite (h1.trans ((Performed.each fun _ _ => performed_serveBlock).trans performed_finishTxn)) (h1.trans performed_finishTxn)

theorem performed_cleanStep : Performed s s.cleanStep := by
  unfold State.cleanStep
  extract_lets n t
  have ht : Performed s t := .ite (.ite (performed_set (by decide)) (.refl s)) (.ite (performed_set (by decide)) (.refl s))
  clear_value t
  refine .ite ?_ ht
  split
  · exact ht.trans (performed_queueWb _ _)
  · exact ht

theorem performed_earlyWb : Performed s s.earlyWb := .each fun _ _ => performed_queueWb _ _

theorem performed_serve : Performed s s.serve := ((Performed.each fun _ _ => performed_serveTxn).trans performed_earlyWb).trans performed_cleanStep

end Sys2Proof.Proofs
end

section
/-! SUPPORT. COPY onto itself (R340): the bytes that are written are free ones, whatever the reads brought, so the round also writes where
the reads brought nothing. -/

namespace Sys2Proof.Proofs

set_option Elab.async false

open Sys2Proof.Machine

/-- A stack in service, with nothing but these engines and jobs. -/
def servingFox (engines : List (Nat × Engine)) (jobs : List Job) : State :=
  { State.reset with
    rails := { vaon := true, vcore := true, vstore := true, vdram := true, vpp := true, vser := true, vserh := true }
    pins := { perstN := true }
    regs := (State.reset.sets [(GLB_START_STATUS_PHASE, 8)]).regs
    fox := { State.reset.fox with engines := engines, jobs := jobs } }

/-- A COPY of one byte of the den onto itself. -/
def selfCopyOperand : List (BitVec 8) := zeros 19 ++ [3] ++ zeros 15 ++ [3] ++ zeros 4 ++ [1]

def selfCopyJob : Job := { id := 5, ring := none, label := 0, ops := [(2, 0)], payload := selfCopyOperand }

/-- The round that writes, with no bytes brought by the reads. -/
def selfCopyRun : Run := { job := 5, lo := 0, hi := 1, pos := 0, round := 1 }

def selfCopy : State := servingFox [(0, { st := .run, run := some selfCopyRun })] [selfCopyJob]

theorem selfCopy_ready : selfCopy.stageReady 0 2 selfCopyJob selfCopyRun := by
  unfold State.stageReady
  decide +kernel

/-- The state after the round. -/
def selfCopied : State := (selfCopy.fetchInstr 0 fun t => t.copyRound 0).settle

theorem exec_copy_selfCopy : exec (.copy 0) selfCopy = .next selfCopied :=
  (show exec (.copy 0) selfCopy = execCopy 0 selfCopy from rfl).trans (by unfold execCopy State.stageWork State.engWork; exact if_pos (by decide +kernel))

/-- One access is numbered in the round. -/
theorem selfCopied_nextAcc : ((selfCopied.eng 0).run.map Run.nextAcc) = some 1 := by decide +kernel

/-- The reads brought nothing, so the plan of the statement is empty. -/
theorem selfCopy_noWrites :
    copyWrites selfCopyOperand { selfCopyRun with bytes := (selfCopyRun.allData 0 (copyReads selfCopyOperand selfCopyRun).length).take (copyLen selfCopyOperand selfCopyRun) } = [] := by
  decide +kernel

/-- Refutes O40: a COPY whose destination overlaps its source writes free bytes (R340), of which the model draws as many as the piece is long; the clause
about its writing round takes the bytes that the reads brought. -/
theorem not_stageRounds : ¬ Obligations.StageRounds := by
  unfold Obligations.StageRounds
  intro h
  obtain ⟨-, -, hcopy, -⟩ := h 0 selfCopy selfCopyJob selfCopyRun
  obtain ⟨t, ht, ⟨q, hq, -, -, -, -, -, -, hnext, -⟩, -⟩ := hcopy selfCopy_ready rfl
  obtain rfl : selfCopied = t := Host.Outcome.next.inj (exec_copy_selfCopy.symm.trans ht)
  have hnone : q.nextAcc = 0 := (hnext.trans (Nat.zero_add _)).trans (congrArg List.length selfCopy_noWrites)
  have hone := selfCopied_nextAcc
  rw [show (selfCopied.eng 0).run = some q from hq, Option.map_some, hnone] at hone
  exact absurd hone (by decide)

end Sys2Proof.Proofs
end

section
/-! SUPPORT. DIRTYSCAN (R363): the write of the frozen map performs the older requests too, whose bytes are counted in the registers of their
class and group. -/

namespace Sys2Proof.Proofs

set_option Elab.async false

open Sys2Proof.Machine

/-- A FREEZE under epoch 1, its map written to address 0 of this stack. -/
def freezeOperand : List (BitVec 8) := zeros 12 ++ [1] ++ zeros 27

def freezeJob : Job := { id := 5, ring := none, label := 0, ops := [(11, 0)], payload := freezeOperand }

def freezeRun : Run := { job := 5, lo := 0, hi := 1, pos := 0 }

/-- An accepted atomic operation whose group is the one whose byte counter would lie at CVU_CKP_EPOCH. -/
def strayAtomic : Txn :=
  { id := 0, pkt := { hdr := mkHdr opATOM 0x30 0 0 0 16 0 0 0 0, payload := zeros 16 }, todo := [0], unit := some (1, 0), grp := 0x171C1 }

/-- Tracking is on over eight granules, and the Marl holds the line of both writes. -/
def freezing : State :=
  let s := servingFox [(0, { st := .run, run := some freezeRun })] [freezeJob]
  { s with regs := (s.sets [(CVU_CKP_CTL_TRACK, 1), (CVU_CKP_GRANULES, 8)]).regs, txns := [strayAtomic], nextTxn := 1
           marl := { s.marl with lines := [(0, { st := .clean, data := zeros 64, way := 0 })] } }

theorem freezing_ready : freezing.stageReady 0 11 freezeJob freezeRun := by
  unfold State.stageReady
  decide +kernel

/-- The operand asks for a FREEZE under the epoch that is next. -/
theorem freezing_accepted :
    byteAt freezeJob.operand 8 = 0 ∧ freezing.fld CVU_CKP_CTL_TRACK = 1 ∧ freezing.ckpBusy freezeJob.id = false
      ∧ leAt freezeJob.operand 12 4 = (freezing.fld CVU_CKP_EPOCH + 1) % 2 ^ 32 := by
  decide +kernel

/-- The state after the round. -/
def frozenMap : State := (freezing.fetchInstr 0 fun t => t.dirtyscanRound 0 0).settle

theorem exec_dirtyscanFreeze_freezing : exec (.dirtyscanFreeze 0) freezing = .next frozenMap :=
  (show exec (.dirtyscanFreeze 0) freezing = execDirtyscanFreeze 0 freezing from rfl).trans
    (by unfold execDirtyscanFreeze State.stageWork State.engWork; exact if_pos (by decide +kernel))

/-- The 16 bytes of the atomic operation are counted on top of the epoch. -/
theorem frozenMap_epoch : frozenMap.fld CVU_CKP_EPOCH = 17 := by decide +kernel

theorem freezeOperand_epoch : leAt freezeJob.operand 12 4 = 1 := by decide +kernel

/-- Refutes O41: a FREEZE that writes its map to this stack's memory performs the requests accepted before it, and where one of them has a group beyond
those of R280 its byte counter lies at CVU_CKP_EPOCH, which then reads no longer the epoch of the operand. -/
theorem not_checkpointStages : ¬ Obligations.CheckpointStages := by
  unfold Obligations.CheckpointStages
  intro h
  obtain ⟨-, -, -, -, -, -, -, -, hfreeze, -⟩ := h 0 freezing freezeJob freezeRun
  obtain ⟨hmode, htrack, hidle, hepoch⟩ := freezing_accepted
  obtain ⟨t, -, ht, -, hread, -⟩ := hfreeze freezing_ready hmode rfl htrack hidle hepoch
  obtain rfl : frozenMap = t := Host.Outcome.next.inj (exec_dirtyscanFreeze_freezing.symm.trans ht)
  rw [frozenMap_epoch, freezeOperand_epoch] at hread
  exact absurd hread (by decide)

end Sys2Proof.Proofs
end

section
/-! SUPPORT. The clearing (R458): its flush counts a lost record under the severity that the record has. -/

namespace Sys2Proof.Proofs

set_option Elab.async false

open Sys2Proof.Machine

/-- The state that a command leaves, or the one it found where it leaves none. -/
def afterOf (s : State) : Out → State
  | .next t => t
  | _ => s

/-- A record of a severity beyond the four, whose counter of lost records would lie at CHAN_STATUS of channel 0. -/
def strayRecord : EvRec := { typ := 3, sev := 0x167F9, opSec := 0, pwr := 0, rseq := 1, code := 0, unit := 0, tail := [], at_ := 0 }

/-- The clearing is under way, no page of the log can take the staged record, and channel 0 is in service. -/
def clearingStray : State :=
  { State.reset with
    rails := { vaon := true, vcore := true }
    regs := (State.reset.sets [(BST_DBG_STATUS_CLEARING, 1), (CHAN_STATUS 0, 0xFFFF)]).regs
    recd := { State.reset.recd with staging := [.new strayRecord] }
    sett := { State.reset.sett with pages := (List.range 256).map fun i => (i, { st := .opened }) } }

theorem clearingStray_clearing : clearingStray.clearing = true := by decide +kernel

theorem clearingStray_inService : 0 < clearingStray.nChans ∧ clearingStray.on (CHAN_STATUS_FENCED 0) = false := by decide +kernel

/-- The count of the lost record has fenced channel 0, so the clearing passes it over. -/
theorem clearingStray_skipsChannel : mget (afterOf clearingStray (exec .clearingDone clearingStray)).chan.zeroed 0 = none := by decide +kernel

/-- Refutes O47: the flush of the clearing counts a record that the log cannot take in REC_LOST of its severity, and one of a severity beyond the four
counts in another register, here CHAN_STATUS, which then shows the channel fenced: it is not filled with zeros, though it was not fenced before. -/
theorem not_testAccess : ¬ Obligations.TestAccess := by
  unfold Obligations.TestAccess
  intro h
  obtain ⟨-, -, -, hclear⟩ := h
  obtain ⟨hpresent, hunfenced⟩ := clearingStray_inService
  obtain ⟨t, ht, -, -, -, -, -, -, -, -, -, -, -, -, -, -, hzeroed, -⟩ := hclear clearingStray clearingStray_clearing rfl rfl
  have hskipped := clearingStray_skipsChannel
  rw [ht] at hskipped
  exact Option.some_ne_none _ ((hzeroed 0 hpresent hunfenced).symm.trans hskipped)

end Sys2Proof.Proofs
end

section
/-! SUPPORT. A test on demand (R452): a coil that fails may fence its channel, which ends a PASR change under way. -/

namespace Sys2Proof.Proofs

set_option Elab.async false

open Sys2Proof.Machine

/-- The last unit of a run: the last spare of column 0. -/
def lastSpareRun : BstRun := { job := 1, scope := 0, index := 0, pos := 303 }

/-- Column 0 is narrow, and its last spare carries position 256. A PASR change of channel 0 is under way, asked for by a ring-0 operation that has the
descriptor of the run. -/
def testedInPasr : State :=
  let s := servingFox [] []
  { s with
    regs := (s.sets [(VCP_COL_STATUS_MODE 0, 2), (VCP_SPARE_USE 0 15, 1), (VCP_SPARE_POSITION 0 15, 256)]).regs
    acc := { s.acc with bstRun := some lastSpareRun }
    chan := { s.chan with chans := [(0, { pasrNew := some 1, pasrAsker := some .ring0 })] }
    fox := { s.fox with mgmt := [{ job := 1, op := 0x49, payload := [0] }] }
    rings := [(0, { descs := [{ job := 1, hdr := [], payload := [], sqHead := 0 }] })] }

/-- A measurement with no residual. -/
def noResidual : CoilMeas := { up := false, dir := false, hop := 0, pos := 0, resid := 0 }

theorem testedInPasr_runs :
    testedInPasr.ready = true ∧ testedInPasr.dead = false ∧ testedInPasr.sleep = 0 ∧ testedInPasr.calm = true ∧ testedInPasr.mgmtOf 0x4A = [] := by
  decide +kernel

theorem testedInPasr_descriptor : ∃ d ∈ (testedInPasr.ring 0).descs, d.job = lastSpareRun.job ∧ d.st ≠ .done := by decide +kernel

/-- The descriptor has its completion from the PASR change that the fence ended. -/
theorem testedInPasr_completions :
    ((afterOf testedInPasr (exec (.bstRunStep noResidual true 0 0) testedInPasr)).ring 0).cpls.all (fun e => e.status == stSTATE) = true := by decide +kernel

/-- Refutes O46: the last unit of a run fails and fences its channel, which ends a PASR change with STATE. Where the operation that asked for the change has
the job number of the run, the descriptor is done by then, and the run adds no completion with OK. -/
theorem not_selfTest : ¬ Obligations.SelfTest := by
  unfold Obligations.SelfTest
  intro h
  obtain ⟨-, -, -, -, hrun⟩ := h
  obtain ⟨hready, halive, hs0, hcalm, hnoRebuild⟩ := testedInPasr_runs
  obtain ⟨-, hlast⟩ := hrun noResidual true 0 0 lastSpareRun testedInPasr rfl hready halive hs0 hcalm hnoRebuild
  obtain ⟨t, e, ht, -, -, hmem, -, hok⟩ := hlast (by decide) testedInPasr_descriptor
  have hstate := testedInPasr_completions
  rw [ht] at hstate
  exact absurd (hok ▸ List.all_eq_true.mp hstate e hmem) (by decide)

end Sys2Proof.Proofs
end

section
/-! SUPPORT. Work that starts on an engine (R305, R325 to R328, R331): the stage that begins, the part that an engine takes, and the descriptor that starts. -/

namespace Sys2Proof.Proofs

set_option Elab.async false

open Sys2Proof.Machine Sys2Proof.Laws

variable {s t u : State} {e n : Nat} {j : Job} {r : Run} {d : Desc}

/-! ## A stage begins -/

/-- A stage has begun on an engine: the engine has a run of the job, and the job stands in its place with nothing confirmed and no failure. -/
structure StageBegun (s : State) (e : Nat) (j : Job) (t : State) : Prop where
  fine : only [.fox] s t
  fox : t.fox = { s.fox with engines := t.fox.engines, jobs := t.fox.jobs }
  run : ∃ r, t.eng e = { s.eng e with run := some r } ∧ r.job = j.id ∧ r.round = 0
  others : ∀ f, f ≠ e → t.eng f = s.eng f
  jobs : ∃ x : Job, t.fox.jobs = s.fox.jobs.map (fun y => if y.id = j.id then x else y) ∧ x.id = j.id ∧ x.ring = j.ring ∧ x.svc = j.svc ∧ x.payload = j.payload ∧ x.stage = j.stage
    ∧ x.fail = none

/-- The job as its stage begins. -/
def stageFresh (e : Nat) (j : Job) (chunk : Nat) : Job :=
  { j with nextChunk := chunk, confirmed := [], engines := [e], parts := [], part := 0, stopDiff := false, fail := none, cvu := none, trapProg := none }

/-- The engine's job entry and its run are put back. -/
def withRun (s : State) (e : Nat) (j : Job) (r : Run) : State := (s.setJob j).setEng e { s.eng e with run := some r }

theorem withRun_eng (j : Job) (r : Run) : (withRun s e j r).eng e = { s.eng e with run := some r } := eng_setEng_same _

theorem withRun_eng_ne {f : Nat} (h : f ≠ e) (j : Job) (r : Run) : (withRun s e j r).eng f = s.eng f := (eng_setEng_ne h _).trans (by rfl)

theorem withRun_jobs (j : Job) (r : Run) : (withRun s e j r).fox.jobs = s.fox.jobs.map (fun y => if y.id = j.id then j else y) := rfl

theorem withRun_only (j : Job) (r : Run) : only [.fox] s (withRun s e j r) := only_fox _

theorem withRun_fox (j : Job) (r : Run) : (withRun s e j r).fox = { s.fox with engines := (withRun s e j r).fox.engines, jobs := (withRun s e j r).fox.jobs } := rfl

/-- A job entry that is put in twice is the later one. -/
theorem replaced_twice {l : List Job} {x y : Job} (h : x.id = y.id) :
    (l.map fun z => if z.id = x.id then x else z).map (fun z => if z.id = y.id then y else z) = l.map fun z => if z.id = y.id then y else z := by
  rw [List.map_map]
  refine List.map_congr_left fun z _ => ?_
  by_cases hz : z.id = y.id
  · simp [hz, h]
  · simp [hz, h]

theorem stageBegun_withRun (h : r.job = j.id) (h' : r.round = 0) (chunk : Nat) : StageBegun s e j (withRun s e (stageFresh e j chunk) r) :=
  ⟨withRun_only _ _, withRun_fox _ _, ⟨r, withRun_eng _ _, h, h'⟩, fun _ hf => withRun_eng_ne hf _ _, stageFresh e j chunk, rfl, rfl, rfl, rfl, rfl, rfl, rfl⟩

/-- What is put back on top of a stage that has begun, for the same job and the same engine. -/
theorem StageBegun.again {x : Job} (h : StageBegun s e j t) (hr : r.job = j.id) (hround : r.round = 0)
    (hx : x.id = j.id ∧ x.ring = j.ring ∧ x.svc = j.svc ∧ x.payload = j.payload ∧ x.stage = j.stage ∧ x.fail = none) : StageBegun s e j (withRun t e x r) := by
  obtain ⟨hfine, hfox, ⟨r0, hrun, -, -⟩, hothers, y, hjobs, hy, -⟩ := h
  obtain ⟨hxid, hrest⟩ := hx
  refine ⟨only_trans hfine (withRun_only _ _), ?_, ⟨r, ?_, hr, hround⟩, fun f hf => (withRun_eng_ne hf _ _).trans (hothers f hf), x, ?_, hxid, hrest⟩
  · rw [withRun_fox, hfox]
  · rw [withRun_eng, hrun]
  · rw [withRun_jobs, hjobs, hxid]
    have htwice := replaced_twice (l := s.fox.jobs) (x := y) (y := x) (hy.trans hxid.symm)
    rw [hy, hxid] at htwice
    exact htwice

theorem takePart_left (h : ¬ spreadTotal j.op j.operand ≤ j.nextChunk) :
    s.takePart e j r = withRun s e { j with nextChunk := (nextPart j.op j.operand j.nextChunk).2 }
      { r with lo := (nextPart j.op j.operand j.nextChunk).1, hi := (nextPart j.op j.operand j.nextChunk).2, pos := (nextPart j.op j.operand j.nextChunk).1, round := 0, answers := [], words := [], bytes := [] } := by
  unfold State.takePart
  exact if_neg h

theorem takePart_over (h : spreadTotal j.op j.operand ≤ j.nextChunk) (hown : j.engines.head? = some e) :
    s.takePart e j r = withRun s e { j with confirmed := j.confirmed ++ [(r.pos, r.pos)] } { r with lo := r.pos, finished := true, answers := [], queue := [] } := by
  unfold State.takePart State.endPart
  rw [if_pos h, if_pos hown]
  rfl

theorem beginStage_begun : StageBegun s e j (s.beginStage e j) := by
  obtain ⟨whole, hwhole⟩ : ∃ b, (j.op == 2 && headCvu j.operand) = b := ⟨_, rfl⟩
  obtain ⟨x, hx⟩ : ∃ x, stageFresh e j (if whole then leAt j.operand 40 8 else 0) = x := ⟨_, rfl⟩
  obtain ⟨r, hr⟩ : ∃ r : Run, { job := j.id, lo := 0, hi := stageUnits j.op j.operand, pos := 0 } = r := ⟨_, rfl⟩
  have hs1 : StageBegun s e j (withRun s e x r) := hx ▸ stageBegun_withRun (by rw [← hr]) (by rw [← hr]) _
  have heq : s.beginStage e j = if (j.op == 1 || j.op == 2 || j.op == 5) && !whole then (withRun s e x r).takePart e x r else withRun s e x r := by
    subst hwhole hx hr
    rfl
  have hfresh : x.id = j.id ∧ x.ring = j.ring ∧ x.svc = j.svc ∧ x.payload = j.payload ∧ x.stage = j.stage ∧ x.fail = none := by
    subst hx
    exact ⟨rfl, rfl, rfl, rfl, rfl, rfl⟩
  have hjob : r.job = j.id := by rw [← hr]
  rw [heq]
  split
  · by_cases hover : spreadTotal x.op x.operand ≤ x.nextChunk
    · rw [takePart_over hover (by rw [← hx]; rfl)]
      exact hs1.again hjob (by rw [← hr]) hfresh
    · rw [takePart_left hover]
      exact hs1.again hjob rfl hfresh
  · exact hs1

/-! ## A job is handed to an engine -/

/-- A job has started on an engine, in the engine state given. -/
structure Started (s : State) (e : Nat) (st : EngSt) (j : Job) (t : State) : Prop where
  parts : only [.fox, .regs] s t
  calm : t.calm = s.calm
  run : ∃ r, (t.eng e).run = some r ∧ r.job = j.id
  st : (t.eng e).st = st
  den : (t.eng e).den = []
  others : ∀ f, f ≠ e → t.eng f = s.eng f
  fox : t.fox = { s.fox with engines := t.fox.engines, jobs := t.fox.jobs }
  job : ∃ x ∈ t.fox.jobs, x.id = j.id ∧ x.ring = j.ring ∧ x.svc = j.svc ∧ x.payload = j.payload ∧ x.stage = j.stage

/-- A job that joins the others. -/
def withJob (s : State) (j : Job) : State := { s with fox := { s.fox with jobs := s.fox.jobs ++ [j] } }

theorem withJob_only (j : Job) : only [.fox] s (withJob s j) := only_fox _

/-- The engine of a state that starts a job. -/
def seated (s : State) (e : Nat) (st : EngSt) (j : Job) : State := (withJob s j).putEng e { (withJob s j).eng e with st := st, den := [] }

theorem seated_only (st : EngSt) (j : Job) : only [.fox, .regs] s (seated s e st j) := only_trans (only_mono (by simp) (withJob_only j)) (putEng_only _)

theorem seated_fox (st : EngSt) (j : Job) : (seated s e st j).fox = { s.fox with engines := (seated s e st j).fox.engines, jobs := s.fox.jobs ++ [j] } := by
  rw [seated, putEng_eq, set_fox]
  rfl

/-- A stage that begins for the job on an engine that has just been seated, whatever registers were set in between. -/
theorem StageBegun.started {st : EngSt} (h : StageBegun u e j t) (hregs : only [.regs] (seated s e st j) u) : Started s e st j t := by
  obtain ⟨hfine, hfox, ⟨r, hrun, hr, -⟩, hothers, x, hjobs, hid, hring, hsvc, hpay, hstage, -⟩ := h
  have hufox : u.fox = (seated s e st j).fox := hregs .fox (by decide)
  have hseat := seated_fox (s := s) (e := e) st j
  have heng : u.eng e = { (withJob s j).eng e with st := st, den := [] } := (eng_congr hufox e).trans (eng_putEng_same _)
  have honly : only [.fox, .regs] s t := only_trans (seated_only st j) (only_trans (only_mono (by simp) hregs) (only_mono (by simp) hfine))
  refine ⟨honly, calm_of (honly .pwr (by decide)) (honly .flt (by decide)), ⟨r, by rw [hrun], hr⟩, by rw [hrun, heng], by rw [hrun, heng], fun f hf => ?_, ?_,
    x, ?_, hid, hring, hsvc, hpay, hstage⟩
  · rw [hothers f hf, eng_congr hufox, seated, eng_putEng_ne hf]
    rfl
  · rw [hfox, hufox, hseat]
  · have hmem : j ∈ u.fox.jobs := by
      rw [hufox, hseat]
      exact List.mem_append_right _ (List.mem_singleton_self j)
    rw [hjobs]
    exact List.mem_map.mpr ⟨j, hmem, if_pos rfl⟩

/-! ## A descriptor starts -/

/-- The descriptor of a ring is running, and the ring is the one served last. -/
def dispatched (s : State) (n : Nat) (d : Desc) : State :=
  let r := s.ring n
  let s1 := (s.putRing n { r with descs := r.descs.map fun (x : Desc) => if x.job = d.job then { x with st := .running } else x }).activity
  { s1 with fox := { s1.fox with lastRing := n } }

theorem dispatched_only : only [.fox, .rings, .pwr, .regs] s (dispatched s n d) :=
  only_trans (only_mono (by simp) (only_putRing n _)) (only_trans (only_mono (by simp) activity_only) (only_mono (by simp) (only_fox _)))

theorem dispatched_fox : (dispatched s n d).fox = { s.fox with lastRing := n } := by
  have h := only_trans (only_mono (l := [.rings, .pwr, .regs]) (by simp) (only_putRing (s := s) n { s.ring n with descs := (s.ring n).descs.map fun (x : Desc) => if x.job = d.job then { x with st := .running } else x }))
    (only_mono (by simp) activity_only) .fox (by decide)
  show ({ (State.activity _).fox with lastRing := n } : FoxSt) = _
  rw [h]

theorem dispatched_calm : (dispatched s n d).calm = s.calm := by
  show State.calm (State.activity _) = _
  rw [activity_calm]
  exact calm_of (only_putRing n _ .pwr (by decide)) (only_putRing n _ .flt (by decide))

theorem dispatched_ring_ne {k : Nat} (h : k ≠ n) : (dispatched s n d).ring k = s.ring k := by
  show State.ring (State.activity _) k = _
  rw [activity_ring, putRing_ring_ne h]

theorem dispatched_cpls : ((dispatched s n d).ring n).cpls = (s.ring n).cpls := by
  show (State.ring (State.activity _) n).cpls = _
  rw [activity_ring, putRing_ring_same]

/-- Every operand of the descriptor is well formed (R328). -/
def operandsOk (s : State) (d : Desc) : Prop :=
  ∀ i < descStages d.hdr, operandOk false (descOp d.hdr i) i (s.fld CVU_CKP_GRANULES) (descOperand d.hdr d.payload i) d.payload.length = true

/-- The job of a descriptor of ring `n`. -/
def jobOf (n : Nat) (d : Desc) : Job :=
  { id := d.job, ring := some n, label := descLabel d.hdr, ops := (List.range (descStages d.hdr)).map fun i => (BitVec.ofNat 8 (descOp d.hdr i), descOff d.hdr i), payload := d.payload }

theorem startDesc_ok (hops : operandsOk s d) : s.startDesc e n d = ((seated (dispatched s n d) e .run (jobOf n d)).set (FOX_STATUS_RING e) n).beginStage e (jobOf n d) := by
  have hnone : (List.range (descStages d.hdr)).find? (fun i => !operandOk false (descOp d.hdr i) i (s.fld CVU_CKP_GRANULES) (descOperand d.hdr d.payload i) d.payload.length) = none :=
    List.find?_eq_none.mpr fun i hi => by rw [hops i (List.mem_range.mp hi)]; simp
  unfold State.startDesc
  simp only [hnone]
  rfl

theorem startDesc_started (hn : n < 64) (hops : operandsOk s d) :
    Started (dispatched s n d) e .run (jobOf n d) (s.startDesc e n d) ∧ (s.startDesc e n d).fld (FOX_STATUS_RING e) = n := by
  rw [startDesc_ok hops]
  have hbegun := beginStage_begun (s := (seated (dispatched s n d) e .run (jobOf n d)).set (FOX_STATUS_RING e) n) (e := e) (j := jobOf n d)
  refine ⟨hbegun.started (only_set _ _), ?_⟩
  rw [fld_congr (hbegun.fine .regs (by decide))]
  exact fld_set_fits (by simp [FOX_STATUS_RING]) (by simp [FOX_STATUS_RING]) (by simpa [FOX_STATUS_RING] using hn)

/-- What a descriptor that starts leaves in the state. -/
theorem startDesc_shows (hn : n < 64) (hcalm : s.calm = true) (hops : operandsOk s d) (ht : s.startDesc e n d = t) :
    t.calm = true ∧ (∃ r, (t.eng e).run = some r ∧ r.job = d.job) ∧ (t.eng e).st = .run ∧ (t.eng e).den = [] ∧ t.fld (FOX_STATUS_RING e) = n ∧ t.fox.lastRing = n
      ∧ (∃ x ∈ t.fox.jobs, x.id = d.job ∧ x.ring = some n ∧ x.payload = d.payload ∧ x.stage = 0) ∧ (t.ring n).cpls = (s.ring n).cpls ∧ (∀ k, k ≠ n → t.ring k = s.ring k)
      ∧ (∀ f, f ≠ e → t.eng f = s.eng f) ∧ only [.fox, .rings, .pwr, .regs] s t := by
  obtain ⟨⟨hparts, hkept, hrun, hst, hden, hothers, hfox, x, hx, hid, hring, -, hpay, hstage⟩, hshown⟩ := startDesc_started (s := s) (e := e) hn hops
  rw [ht] at hparts hkept hrun hst hden hothers hfox hx hshown
  have hrings : t.rings = (dispatched s n d).rings := hparts .rings (by decide)
  have hkeep : ∀ k, t.ring k = (dispatched s n d).ring k := fun k => by rw [State.ring, State.ring, hrings]
  refine ⟨by rw [hkept, dispatched_calm, hcalm], hrun, hst, hden, hshown, by rw [hfox, dispatched_fox], ⟨x, hx, hid, hring, hpay, hstage⟩, by rw [hkeep, dispatched_cpls],
    fun k hk => by rw [hkeep, dispatched_ring_ne hk], fun f hf => ?_, only_trans dispatched_only (only_mono (by simp) hparts)⟩
  rw [hothers f hf, State.eng, State.eng, dispatched_fox]

/-! ## The choice of a ring -/

/-- A fold that keeps what it has or takes the next entry ends with one of them. -/
theorem foldl_pick_mem {α : Type} {f : Option α → α → Option α} (hf : ∀ b x, f b x = b ∨ f b x = some x) {l : List α} {b : Option α} {x : α} (h : l.foldl f b = some x) : b = some x ∨ x ∈ l := by
  induction l generalizing b with
  | nil => exact .inl h
  | cons a l ih =>
    rcases ih h with hb | hm
    · rcases hf b a with hkeep | htake
      · exact .inl (hkeep ▸ hb)
      · rw [htake] at hb
        exact .inr (by rw [Option.some.inj hb]; exact List.mem_cons_self)
    · exact .inr (List.mem_cons_of_mem _ hm)

theorem pickRing_lt (h : s.pickRing e = some (n, d)) : n < 64 := by
  unfold State.pickRing at h
  rcases foldl_pick_mem (fun b x => by
    cases b with
    | none => exact .inr rfl
    | some y => dsimp only; split <;> simp) h with hb | hm
  · simp at hb
  · obtain ⟨k, hk, hkx⟩ := List.mem_filterMap.mp hm
    obtain ⟨i, -, rfl⟩ := List.mem_map.mp hk
    split at hkx
    · obtain ⟨x, -, hx⟩ := Option.map_eq_some_iff.mp hkx
      have := congrArg Prod.fst hx
      simp only at this
      omega
    · simp at hkx

theorem dispatch_picked (h : s.pickRing e = some (n, d)) (hlow : ∀ f < e, s.eligible f n = false) : s.dispatch e = s.startDesc e n d := by
  unfold State.dispatch
  rw [h]
  refine if_neg ?_
  simpa using hlow

end Sys2Proof.Proofs
end

section
/-! SUPPORT. Ring events (R302, R304, R305, R307, R310, R311). -/

namespace Sys2Proof.Proofs

set_option Elab.async false

open Sys2Proof.Machine Sys2Proof.Laws

variable {s t u : State} {n use : Nat} {d : Desc}

/-! ## The read of the ring's control block -/

theorem readRcb_none (h : (s.ring n).rcbRead = none) :
    s.readRcb n use = (s.setRing n { s.ring n with rcbRead := some use }).sendOwn (s.rdPkt (s.ringEid n) (s.rcbAddr n) 1 (s.ringLabel n) false) (.rcb n) 0 := by
  unfold State.readRcb
  exact if_neg (by rw [h]; simp)

/-- The read of the control block goes out, and the ring notes its use. -/
theorem readRcb_sent (h : (s.ring n).rcbRead = none) (hroom : s.fox.outs.length < 65536) :
    ∃ q, (s.readRcb n use).ring n = { s.ring n with rcbRead := some use } ∧ (s.readRcb n use).fox.outs = s.fox.outs ++ [q] ∧ q.owner = .rcb n ∧ q.pkt.hdr.opc = opRD
      ∧ q.pkt.hdr.dst = s.ringEid n ∧ q.pkt.hdr.src = s.eid ∧ q.pkt.hdr.addr = BitVec.ofNat 64 (s.rcbAddr n) ∧ q.pkt.hdr.tag = q.tag ∧ (∀ k, k ≠ n → (s.readRcb n use).ring k = s.ring k)
      ∧ only [.rings, .fox, .sw, .regs] s (s.readRcb n use) := by
  obtain ⟨hsent, -⟩ := sendOwn_sent (s := s.setRing n { s.ring n with rcbRead := some use }) hroom (s.rdPkt (s.ringEid n) (s.rcbAddr n) 1 (s.ringLabel n) false) (.rcb n) 0
  rw [← readRcb_none h] at hsent
  exact ⟨_, readRcb_ring h, hsent, rfl, rfl, rfl, rfl, rfl, rfl, fun _ => readRcb_ring_ne, only_mono (by simp) (outside_readRcb use).1⟩

/-- A command that asks for the read of ring `n`'s control block, for a use. -/
def ReadsRcb (s : State) (n : BitVec 6) (c : Instr) (use : Nat) : Prop :=
  (c = .ringPoll n ∧ use = 0 ∧ s.fld (RING_CFG_DB_MODE n.toNat) = 1) ∨ (c = .rcbHReread n ∧ use = 1 ∧ s.cplSpace n.toNat = 0 ∧ s.ringF n.toNat ≠ s.ringK n.toNat)
    ∨ (c = .ring0FetchRetry ∧ use = 2 ∧ n = 0 ∧ s.retries0 4 = true ∧ s.retries0 2 = false)

theorem readsRcb_exec {n : BitVec 6} {c : Instr} (hwork : s.working = true) (hst : s.ringSt n.toNat = 1) (h : ReadsRcb s n c use) : exec c s = .next (s.readRcb n.toNat use) := by
  rcases h with ⟨rfl, rfl, hmode⟩ | ⟨rfl, rfl, hspace, hwait⟩ | ⟨rfl, rfl, rfl, hrcb, hfetch⟩
  · show execRingPoll n s = _
    unfold execRingPoll
    exact if_pos (by simp [hwork, hst, State.on, hmode])
  · show execRcbHReread n s = _
    unfold execRcbHReread
    exact if_pos (by simp [hwork, hst, hspace, hwait])
  · show execRing0FetchRetry s = _
    have hst0 : s.ringSt 0 = 1 := hst
    unfold execRing0FetchRetry
    rw [if_neg (by simp [hwork, hst0]), hrcb, hfetch]
    rfl

/-! ## A fetch -/

/-- Slots that a ring with none at hand fetches. -/
def fetchable (s : State) (n : Nat) : Nat := min 64 (idxSub (s.ringK n) (s.ringF n))

theorem idxSub_pos {a b : Nat} (ha : a < 2 ^ 32) (hb : b < 2 ^ 32) (h : b ≠ a) : 0 < idxSub a b := by
  unfold idxSub
  omega

theorem fetchable_pos (h : s.ringF n ≠ s.ringK n) : 0 < fetchable s n := by
  have := idxSub_pos (fld_lt s (RING_SQ_PROD n)) (fld_lt s (RING_SQ_IDX n)) h
  exact Nat.lt_min.mpr ⟨by decide, this⟩

theorem assemble_empty (h : (s.ring n).slots = []) (f : Nat) : s.assemble n f = s := by
  cases f with
  | zero => rfl
  | succ f =>
    unfold State.assemble
    exact if_pos (by simp [h])

/-- The ring may fetch, and has no slot at hand. -/
structure MayFetch (s : State) (n : Nat) : Prop where
  active : s.ringSt n = 1
  slots : (s.ring n).slots = []
  idle : (s.ring n).fetching = 0
  live : (s.ring n).live < 32
  space : s.cplSpace n ≠ 0
  waits : s.ringF n ≠ s.ringK n
  pool : s.descCells + fetchable s n ≤ s.descPool

theorem fetchRing_empty (h : MayFetch s n) : s.fetchRing n = (s.issueFetch n (s.ringF n) (fetchable s n) (s.ringLabel n)).activity := by
  obtain ⟨hst, hslots, hidle, hlive, hspace, hwaits, hpool⟩ := h
  have hpos := fetchable_pos hwaits
  have hfull : ¬ (s.ringSt n ≠ 1 || (s.ring n).fetching ≠ 0 || decide (32 ≤ (s.ring n).live) || s.cplSpace n == 0) = true := by simp [hst, hidle, hspace, hlive]
  have hcnt : ¬ (fetchable s n = 0 || decide (s.descPool < s.descCells + fetchable s n)) = true := by
    rw [decide_eq_false (Nat.ne_of_gt hpos), decide_eq_false (Nat.not_lt.mpr hpool)]
    exact Bool.false_ne_true
  unfold State.fetchRing
  rw [assemble_empty hslots]
  dsimp only
  rw [if_neg hfull]
  have hshort : (s.ring n).slots.length < 64 := by rw [hslots]; decide
  rw [if_pos hshort, hslots, List.length_nil, Nat.zero_div, Nat.add_zero, Nat.sub_zero]
  dsimp only
  change (if (decide (fetchable s n = 0) || decide (s.descPool < s.descCells + fetchable s n)) = true then s else (s.issueFetch n (s.ringF n) (fetchable s n) (s.ringLabel n)).activity) = _
  exact if_neg hcnt

/-- Requests of the stack's own, each finding a free TAG. -/
theorem sends_outs {α : Type} {l : List α} {f : State → α → Packet} {g : State → α → Owner} (hroom : s.fox.outs.length + l.length ≤ 65536) :
    (s.each l fun t p => t.sendOwn (f t p) (g t p) 0).fox.outs.length = s.fox.outs.length + l.length := by
  induction l generalizing s with
  | nil => rfl
  | cons a l ih =>
    rw [List.length_cons] at hroom
    obtain ⟨hsent, -⟩ := sendOwn_sent (s := s) (by omega) (f s a) (g s a) 0
    have hlen : (s.sendOwn (f s a) (g s a) 0).fox.outs.length = s.fox.outs.length + 1 := by rw [hsent, List.length_append]; rfl
    have hrest := ih (s := s.sendOwn (f s a) (g s a) 0) (by omega)
    rw [List.length_cons]
    exact hrest.trans (by omega)

theorem sends_ring {α : Type} {l : List α} {f : State → α → Packet} {g : State → α → Owner} (m : Nat) : (s.each l fun t p => t.sendOwn (f t p) (g t p) 0).ring m = s.ring m := by
  induction l generalizing s with
  | nil => rfl
  | cons a l ih => exact (ih (s := s.sendOwn (f s a) (g s a) 0)).trans (sendOwn_ring _ _ _ _)

theorem fetchRing_fetches (h : MayFetch s n) (hroom : s.fox.outs.length + (s.slotPieces n (fetchable s n) (s.ringF n) (fetchable s n)).length ≤ 65536) (ht : s.fetchRing n = t) :
    (t.ring n).fetching = fetchable s n ∧ (t.ring n).fetched = [] ∧ t.fox.outs.length = s.fox.outs.length + (s.slotPieces n (t.ring n).fetching (s.ringF n) (t.ring n).fetching).length
      ∧ (∀ k, k ≠ n → t.ring k = s.ring k) ∧ only [.rings, .fox, .sw, .pwr, .regs] s t := by
  rw [fetchRing_empty h] at ht
  subst ht
  obtain ⟨x, hx⟩ : ∃ x, s.setRing n { s.ring n with fetching := fetchable s n, fetched := [] } = x := ⟨_, rfl⟩
  have hissue : s.issueFetch n (s.ringF n) (fetchable s n) (s.ringLabel n) = x.each (s.slotPieces n (fetchable s n) (s.ringF n) (fetchable s n)) fun t p =>
      t.sendOwn (t.rdPkt (t.ringEid n) p.2.1 p.2.2 (s.ringLabel n) false) (.fetch n (p.1 - s.ringF n)) 0 := by
    rw [← hx]
    rfl
  have hring : ∀ k, (s.issueFetch n (s.ringF n) (fetchable s n) (s.ringLabel n)).activity.ring k = x.ring k := fun k => by rw [activity_ring, hissue, sends_ring]
  have hown : x.ring n = { s.ring n with fetching := fetchable s n, fetched := [] } := by rw [← hx, setRing_ring_same]
  have houts : x.fox.outs = s.fox.outs := by rw [← hx]; rfl
  have hsent := sends_outs (s := x) (l := s.slotPieces n (fetchable s n) (s.ringF n) (fetchable s n))
    (f := fun t p => t.rdPkt (t.ringEid n) p.2.1 p.2.2 (s.ringLabel n) false) (g := fun _ p => .fetch n (p.1 - s.ringF n)) (by rw [houts]; exact hroom)
  have hactive : (s.issueFetch n (s.ringF n) (fetchable s n) (s.ringLabel n)).activity.fox = (s.issueFetch n (s.ringF n) (fetchable s n) (s.ringLabel n)).fox := activity_only .fox (by decide)
  refine ⟨by rw [hring, hown], by rw [hring, hown], ?_, fun k hk => by rw [hring, ← hx, setRing_ring_ne hk], ?_⟩
  · rw [hactive, hring, hown, hissue, hsent, houts]
  · have hopen : only [.rings, .fox, .sw, .pwr, .regs] s x := hx ▸ only_mono (by simp) (only_setRing n _)
    have hsends : only [.rings, .fox, .sw, .pwr, .regs] x (s.issueFetch n (s.ringF n) (fetchable s n) (s.ringLabel n)) := by
      rw [hissue]
      exact only_each fun y p => only_mono (by simp) (outside_sendOwn _ _ _).1
    exact only_trans hopen (only_trans hsends (only_mono (by simp) activity_only))

/-- A command that fetches for ring `n`. -/
def Fetches (s : State) (n : BitVec 6) (c : Instr) : Prop :=
  (c = .descFetch n ∧ ¬(n = 0 ∧ s.retries0 2 = true)) ∨ (c = .ring0FetchRetry ∧ n = 0 ∧ s.retries0 2 = true ∧ s.retries0 4 = false)

theorem fetches_exec {n : BitVec 6} {c : Instr} (hwork : s.working = true) (hst : s.ringSt n.toNat = 1) (h : Fetches s n c) : exec c s = .next (s.fetchRing n.toNat) := by
  rcases h with ⟨rfl, hfree⟩ | ⟨rfl, rfl, hfetch, hrcb⟩
  · show execDescFetch n s = _
    unfold execDescFetch
    refine if_pos ?_
    have hz : (n.toNat == 0 && s.retries0 2) = false := by
      rw [Bool.and_eq_false_iff]
      by_cases hn : n = 0
      · exact .inr (Bool.eq_false_iff.mpr fun h2 => hfree ⟨hn, h2⟩)
      · exact .inl (beq_eq_false_iff_ne.mpr fun h0 => hn (BitVec.eq_of_toNat_eq h0))
    rw [hwork, hz]
    rfl
  · show execRing0FetchRetry s = _
    have hst0 : s.ringSt 0 = 1 := hst
    unfold execRing0FetchRetry
    rw [if_neg (by simp [hwork, hst0]), hrcb, hfetch]
    rfl

/-! ## A completion is written -/

/-- Entries that the first completion write takes (R307). -/
def cplTaken (s : State) (n : Nat) (rest : List CplEntry) : Nat := if s.ringT n % s.cqLen n % 2 = 1 ∨ rest = [] then 1 else 2

theorem sendCpl_sends {e : CplEntry} {rest : List CplEntry} (hc : (s.ring n).cpls = e :: rest) (hb : (s.ring n).cplBusy = 0) (hspace : s.canSend 64 = true) :
    ∃ addr mask block label, s.sendCpl n = (s.setRing n { s.ring n with cplBusy := cplTaken s n rest }).sendOwn (s.wrpPkt (s.cqEid n) addr mask block label 4) (.cpl n) 64 := by
  unfold State.sendCpl cplTaken
  simp only [hc, hb, hspace]
  by_cases hodd : s.ringT n % s.cqLen n % 2 = 1
  · simp only [hodd]
    exact ⟨_, _, _, _, rfl⟩
  · simp only [hodd]
    cases rest with
    | nil => exact ⟨_, _, _, _, rfl⟩
    | cons x xs => exact ⟨_, _, _, _, rfl⟩

theorem sendCpl_sent {e : CplEntry} {rest : List CplEntry} (hc : (s.ring n).cpls = e :: rest) (hb : (s.ring n).cplBusy = 0) (hspace : s.canSend 64 = true) (hroom : s.fox.outs.length < 65536) :
    ∃ q, (s.sendCpl n).fox.outs = s.fox.outs ++ [q] ∧ q.owner = .cpl n ∧ q.pkt.hdr.opc = opWRP ∧ q.pkt.hdr.dst = s.cqEid n
      ∧ (s.sendCpl n).ring n = { s.ring n with cplBusy := cplTaken s n rest } ∧ (∀ k, k ≠ n → (s.sendCpl n).ring k = s.ring k) ∧ only [.rings, .fox, .sw, .regs] s (s.sendCpl n) := by
  obtain ⟨addr, mask, block, label, heq⟩ := sendCpl_sends hc hb hspace
  obtain ⟨hsent, -⟩ := sendOwn_sent (s := s.setRing n { s.ring n with cplBusy := cplTaken s n rest }) hroom (s.wrpPkt (s.cqEid n) addr mask block label 4) (.cpl n) 64
  rw [heq]
  refine ⟨_, hsent, rfl, rfl, rfl, by rw [sendOwn_ring, setRing_ring_same], fun k hk => by rw [sendOwn_ring, setRing_ring_ne hk], ?_⟩
  exact only_trans (only_mono (by simp) (only_setRing n _)) (only_mono (by simp) (outside_sendOwn _ _ _).1)

/-- A ring of which no entry is held back. -/
def unheld (s : State) (n : Nat) : State := s.setRing n { s.ring n with cplHeld := false }

theorem unheld_free (h : (s.ring n).cplHeld = false) : ({ s.ring n with cplHeld := false } : Ring) = s.ring n := by
  rw [← h]

/-- A command that writes the first waiting entry of ring `n`. -/
def WritesCpl (s : State) (n : BitVec 6) (c : Instr) : Prop :=
  (c = .completionWrite n ∧ s.ringSt n.toNat ≠ 0 ∧ (s.ring n.toNat).cplHeld = false) ∨ (c = .ring0CompletionRetry ∧ n = 0 ∧ (s.ring 0).cplHeld = true)

theorem writesCpl_shows {n : BitVec 6} {c : Instr} {e : CplEntry} {rest : List CplEntry} (hawake : s.awake = true) (h : WritesCpl s n c) (hc : (s.ring n.toNat).cpls = e :: rest)
    (hb : (s.ring n.toNat).cplBusy = 0) (hspace : s.canSend 64 = true) (hroom : s.fox.outs.length < 65536) :
    ∃ t q, exec c s = .next t ∧ t.fox.outs = s.fox.outs ++ [q] ∧ q.owner = .cpl n.toNat ∧ q.pkt.hdr.opc = opWRP ∧ q.pkt.hdr.dst = s.cqEid n.toNat
      ∧ t.ring n.toNat = { s.ring n.toNat with cplHeld := false, cplBusy := if s.ringT n.toNat % s.cqLen n.toNat % 2 = 1 ∨ rest = [] then 1 else 2 }
      ∧ (∀ k, k ≠ n.toNat → t.ring k = s.ring k) ∧ only [.rings, .fox, .sw, .regs] s t := by
  rcases h with ⟨rfl, hst, hheld⟩ | ⟨rfl, rfl, hheld⟩
  · obtain ⟨q, houts, hown, hopc, hdst, hring, hothers, honly⟩ := sendCpl_sent hc hb hspace hroom
    refine ⟨_, q, ?_, houts, hown, hopc, hdst, by rw [hring, ← hheld]; rfl, hothers, honly⟩
    show execCompletionWrite n s = _
    unfold execCompletionWrite
    exact if_pos (by simp [hawake, hst, hheld])
  · have hown0 : (unheld s 0).ring 0 = { s.ring 0 with cplHeld := false } := setRing_ring_same _ _
    obtain ⟨q, houts, hown, hopc, hdst, hring, hothers, honly⟩ := sendCpl_sent (s := unheld s 0) (n := 0) (e := e) (rest := rest) (by rw [hown0]; exact hc) (by rw [hown0]; exact hb) hspace hroom
    refine ⟨_, q, ?_, houts, hown, hopc, hdst, by rw [show (0 : BitVec 6).toNat = 0 from rfl, hring, hown0]; rfl, fun k hk => (hothers k hk).trans (setRing_ring_ne hk _), only_trans (only_mono (by simp) (only_setRing 0 _)) honly⟩
    show execRing0CompletionRetry s = _
    unfold execRing0CompletionRetry
    exact if_pos (by simp [hawake, hheld])

/-! ## A descriptor starts -/

theorem readyDesc_mem (h : s.readyDesc n = some d) : d ∈ (s.ring n).descs ∧ d.st = .ready := by
  unfold State.readyDesc at h
  dsimp only at h
  split at h
  · simp at h
  · rcases foldl_pick_mem (fun b x => by
      cases b with
      | none => exact .inr rfl
      | some y => dsimp only; split <;> simp) h with hb | hm
    · simp at hb
    · obtain ⟨hmem, hmay⟩ := List.mem_filter.mp hm
      simp only [Ring.mayStart, Bool.and_eq_true, beq_iff_eq] at hmay
      exact ⟨hmem, hmay.1⟩

theorem descStart_eq {n : BitVec 6} (h : n ≠ 0) : exec (.descStart n) s = .next (s.startNext n.toNat).settle := by
  show execDescStart n s = _
  unfold execDescStart
  exact if_neg h

theorem startNext_degraded (h : s.readyDesc n = some d) (hfw : s.fld GLB_START_STATUS_FW_DEGRADED = 1) : s.startNext n = s.finishDesc n d.job stSTATE 0 0 [] := by
  unfold State.startNext
  simp only [h]
  exact if_pos (by simp [State.on, hfw])

/-- A descriptor of ring `n` that is not done is completed by its job number. -/
theorem finishDesc_completes (h : d ∈ (s.ring n).descs) (hst : d.st ≠ .done) (st : BitVec 8) (stage detail : Nat) (res : List (BitVec 8)) :
    ∃ x : CplEntry, ((s.finishDesc n d.job st stage detail res).ring n).cpls = (s.ring n).cpls ++ [x] ∧ x.job = d.job ∧ x.status = st ∧ x.stage = stage ∧ x.result = slice res 0 16 := by
  obtain ⟨y, hy⟩ : ∃ y, (s.ring n).descs.find? (fun x => x.job == d.job && x.st != .done) = some y :=
    Option.isSome_iff_exists.mp (List.find?_isSome.mpr ⟨d, h, by simpa using hst⟩)
  unfold State.finishDesc
  simp only [hy]
  exact ⟨_, by rw [putRing_ring_same], rfl, rfl, rfl, rfl⟩

theorem startNext_engine {e : Nat} (h : s.readyDesc n = some d) (hfw : s.fld GLB_START_STATUS_FW_DEGRADED = 0) (hon : s.fox.allDisabled = false)
    (hfirst : (List.range s.nEngines).find? (fun e => s.eligible e n) = some e) (hpick : (s.pickRing e).map (·.1) = some n) : s.startNext n = s.startDesc e n d := by
  unfold State.startNext
  simp only [h, hfirst]
  rw [if_neg (by simp [State.on, hfw, hon])]
  exact if_pos hpick

/-- Settles O34: the reads and writes of a ring are requests of the stack's own, which go out where a TAG is free; a descriptor that starts is handed to an
engine as in a dispatch (`startDesc_shows`), and on ring 0 it is the operation of its opcode. -/
theorem ringEvents : Obligations.RingEvents := by
  unfold Obligations.RingEvents
  refine ⟨fun n s c use hwork hst hc hidle hroom => ?_, fun n s c hwork hc hst hslots hidle hlive hspace hroom hwaits hpool => ?_,
    fun n s c e rest hawake hc hcpls hbusy hspace hroom => writesCpl_shows hawake hc hcpls hbusy hspace hroom, fun n d s hn hcalm hready => ⟨fun hfw => ?_, fun e hfw hon hfirst hpick hops => ?_⟩,
    fun d s c hnext hc => ?_⟩
  · obtain ⟨q, h⟩ := readRcb_sent (use := use) hidle hroom
    exact ⟨_, q, readsRcb_exec hwork hst hc, h⟩
  · exact ⟨_, fetches_exec hwork hst hc, fetchRing_fetches ⟨hst, hslots, hidle, hlive, hspace, hwaits, hpool⟩ hroom rfl⟩
  · obtain ⟨hmem, hst⟩ := readyDesc_mem hready
    obtain ⟨x, hcpls, hjob, hstatus, -⟩ := finishDesc_completes hmem (by rw [hst]; decide) stSTATE 0 0 []
    have honly := finishDesc_fine (s := s) (job := d.job) (st := stSTATE) (res := []) n.toNat 0 0
    have hkept : (s.finishDesc n.toNat d.job stSTATE 0 0 []).calm = true := (calm_of (honly .pwr (by decide)) (honly .flt (by decide))).trans hcalm
    exact ⟨_, x, by rw [descStart_eq hn, startNext_degraded hready hfw, settle_calm hkept], hcpls, hjob, hstatus, only_mono (by simp) honly⟩
  · obtain ⟨hkept, ⟨r, hrun, hr⟩, hst, -, hshown, hlast, ⟨x, hx, hid, -, hpay, hstage⟩, -, -, -, honly⟩ := startDesc_shows (s := s) (e := e) (d := d) n.isLt hcalm hops rfl
    exact ⟨_, r, by rw [descStart_eq hn, startNext_engine hready hfw hon hfirst hpick, settle_calm hkept], hrun, hr, hst, hshown, hlast, ⟨x, hx, hid, hpay, hstage⟩, by rw [honly .chan (by decide)]⟩
  · have hop : exec (.descStart 0) s = s.startOp (descOp d.hdr 0) := by
      show execDescStart 0 s = _
      unfold execDescStart
      rw [if_pos rfl, hnext]
    rw [hop]
    rcases hc with ⟨rfl, h⟩ | ⟨rfl, h⟩ | ⟨rfl, h⟩ | ⟨rfl, h⟩ | ⟨rfl, h⟩ <;> rw [h] <;> rfl

end Sys2Proof.Proofs
end

section
/-! SUPPORT. Engines (R299, R306, R325 to R327, R331, R350): SVCs and chunks that start, and stages that end. -/

namespace Sys2Proof.Proofs

set_option Elab.async false

open Sys2Proof.Machine Sys2Proof.Laws

variable {s t u : State} {e n : Nat} {j : Job} {r : Run} {p : Packet} {st : BitVec 8} {res : List (BitVec 8)}

/-- A command of an engine that is on, and leaves nothing due. -/
theorem engWork_calm {e : BitVec 5} {f : State → State} (hawake : s.awake = true) (hon : s.foxOn e.toNat = true) (hcalm : (f s).calm = true) : s.engWork e f = .next (f s) := by
  rw [engWork_runs hawake hon, settle_calm hcalm]

/-! ## An SVC starts (R326) -/

/-- The job of an accepted SVC. -/
def svcJob (s : State) (p : Packet) : Job :=
  { id := s.fox.nextJob, ring := none, svc := some p, num := s.fox.svcNums.headD 0, label := p.hdr.label, ops := [(p.hdr.subop, 0)], payload := p.payload }

/-- The SVC has left the queue and has a job number. -/
def svcTaken (s : State) (rest : List Packet) : State :=
  { s with fox := { s.fox with svcQueue := rest, svcNums := s.fox.svcNums.drop 1, nextJob := s.fox.nextJob + 1 } }

theorem activity_withJob (j : Job) : (withJob s j).activity = withJob s.activity j := by
  have hfox : s.activity.fox = s.fox := activity_only .fox (by decide)
  have hjob : ∀ x : FoxSt, ({ s with fox := x } : State).activity = { s.activity with fox := x } := fun x => by
    unfold State.activity
    dsimp only
    have hsleep : ({ s with fox := x } : State).sleep = s.sleep := rfl
    rw [hsleep]
    by_cases h1 : s.sleep = 1
    · simp only [if_pos h1]
      show (if s.pwr.s1Req then _ else _) = { (if s.pwr.s1Req then _ else _ : State) with fox := x }
      split <;> rfl
    · simp only [if_neg h1]
      show (if s.pwr.s1Req then _ else _) = { (if s.pwr.s1Req then _ else _ : State) with fox := x }
      split <;> rfl
  rw [withJob, withJob, hjob, hfox]

/-- May engine `e` start the SVC at the head of the queue (R326)? -/
def SvcGoesTo (s : State) (e : Nat) : Prop :=
  s.svcReserved e = true ∨ ((∀ f < s.nEngines, s.engIdle f = true → s.svcReserved f = false) ∧ s.pickRing e = none)

theorem startSvc_eq {rest : List Packet} (hq : s.fox.svcQueue = p :: rest) (hgrave : s.start.grave = false) (hforcing : s.start.forcing = false) (hmay : s.svcMay (s.fox.svcNums.headD 0) p = true)
    (hidle : s.engIdle e = true) (hgoes : SvcGoesTo s e) : s.startSvc e = (seated (svcTaken s rest).activity e .svc (svcJob s p)).beginStage e (svcJob s p) := by
  have hturn : (s.svcReserved e || (!((List.range s.nEngines).any fun f => s.engIdle f && s.svcReserved f) && (s.pickRing e).isNone)) = true := by
    rcases hgoes with h | ⟨hnone, hpick⟩
    · rw [h]
      rfl
    · have hany : ((List.range s.nEngines).any fun f => s.engIdle f && s.svcReserved f) = false :=
        List.any_eq_false.mpr fun f hf => by
          rw [Bool.and_eq_true]
          rintro ⟨hi, hr⟩
          rw [hnone f (List.mem_range.mp hf) hi] at hr
          exact Bool.false_ne_true hr
      rw [hany, hpick]
      cases s.svcReserved e <;> rfl
  unfold State.startSvc
  simp only [hq, hidle, hgrave, hforcing, hturn, hmay]
  rw [if_neg (by simp), seated, ← activity_withJob]
  rfl

theorem svcTaken_only (rest : List Packet) : only [.fox, .pwr, .regs] s (svcTaken s rest).activity :=
  only_trans (only_mono (by simp) (only_fox _)) (only_mono (by simp) activity_only)

theorem svcTaken_fox (rest : List Packet) : (svcTaken s rest).activity.fox = { s.fox with svcQueue := rest, svcNums := s.fox.svcNums.drop 1, nextJob := s.fox.nextJob + 1 } :=
  activity_only .fox (by decide)

theorem svcStart_shows {e : BitVec 5} {rest : List Packet} (hawake : s.awake = true) (hcalm : s.calm = true) (hon : s.foxOn e.toNat = true) (hgrave : s.start.grave = false) (hforcing : s.start.forcing = false)
    (hq : s.fox.svcQueue = p :: rest) (hmay : s.svcMay (s.fox.svcNums.headD 0) p = true) (hidle : s.engIdle e.toNat = true) (hgoes : SvcGoesTo s e.toNat) :
    ∃ t r, exec (.svcStart e) s = .next t ∧ t.fox.svcQueue = rest ∧ t.fox.svcNums = s.fox.svcNums.drop 1 ∧ (t.eng e.toNat).st = .svc ∧ (t.eng e.toNat).run = some r ∧ r.job = s.fox.nextJob ∧ (t.eng e.toNat).den = []
      ∧ t.fox.nextJob = s.fox.nextJob + 1 ∧ (∃ j ∈ t.fox.jobs, j.id = s.fox.nextJob ∧ j.svc = some p ∧ j.ring = none ∧ j.payload = p.payload) ∧ (∀ f, f ≠ e.toNat → t.eng f = s.eng f)
      ∧ only [.fox, .pwr, .regs] s t := by
  have hstarted : Started (svcTaken s rest).activity e.toNat .svc (svcJob s p) (s.startSvc e.toNat) := by
    rw [startSvc_eq hq hgrave hforcing hmay hidle hgoes]
    exact beginStage_begun.started (only_refl _ _)
  obtain ⟨hparts, hkept, ⟨r, hrun, hr⟩, hst, hden, hothers, hfox, x, hx, hid, hring, hsvc, hpay, -⟩ := hstarted
  have hcalm' : (s.startSvc e.toNat).calm = true := by
    rw [hkept, activity_calm]
    exact hcalm
  rw [svcTaken_fox rest] at hfox
  refine ⟨_, r, show execSvcStart e s = _ from engWork_calm hawake hon hcalm', by rw [hfox], by rw [hfox], hst, hrun, hr, hden, by rw [hfox], ⟨x, hx, hid, hsvc, hring, hpay⟩, fun f hf => ?_,
    only_trans (svcTaken_only rest) (only_mono (by simp) hparts)⟩
  rw [hothers f hf, State.eng, State.eng, svcTaken_fox]

/-! ## A helper takes a chunk (R331) -/

/-- A spread stage has a chunk left, and room for a helper that its ring may have. -/
structure ChunkOpen (s : State) (e n : Nat) (j : Job) : Prop where
  only_job : s.fox.jobs = [j]
  ring : j.ring = some n
  op : j.op = 1 ∨ j.op = 2 ∨ j.op = 5
  spread : 0 < headSpread j.operand
  fine : j.fail = none
  left : j.nextChunk < spreadTotal j.op j.operand
  room : (s.enginesOf j.id).length < 2 ^ headSpread j.operand
  mapped : bitAt (s.fld (FOX_RING_MAP_EARTHS n)) (e / 8) = true

/-- The job with one engine more. -/
def helped (e : Nat) (j : Job) : Job := { j with engines := if j.engines.contains e then j.engines else j.engines ++ [e] }

/-- The engine is a helper, and shows the ring that it works for. -/
def helperSeated (s : State) (e n : Nat) : State := (s.putEng e { s.eng e with st := .help, den := [] }).set (FOX_STATUS_RING e) n

theorem helperSeated_fox : (helperSeated s e n).fox.jobs = s.fox.jobs := by
  rw [helperSeated, set_fox, putEng_eq, set_fox]
  rfl

theorem nextPart_from (op : Nat) (o : List (BitVec 8)) (a : Nat) : (nextPart op o a).1 = a := by
  unfold nextPart
  split
  · rfl
  · split <;> rfl

theorem help_eq (h : ChunkOpen s e n j) (hidle : s.engIdle e = true) (hres : s.svcReserved e = false) (hpick : s.pickRing e = none) (hwork : s.working = true) :
    s.help e = (helperSeated s e n).takePart e (helped e j) { job := j.id, lo := 0, hi := 0, pos := 0 } := by
  obtain ⟨hjobs, hring, hop, hspread, hfine, hleft, hroom, hmap⟩ := h
  have hopen : (j.op == 1 || j.op == 2 || j.op == 5) = true := by rcases hop with h | h | h <;> rw [h] <;> rfl
  unfold State.help
  rw [if_neg (by simp [hidle, hres, hpick, hwork])]
  have hfind : ∀ f : Job → Bool, f j = true → s.fox.jobs.find? f = some j := fun f hf => by
    rw [hjobs]
    exact List.find?_cons_of_pos hf
  dsimp only
  rw [hfind _ (by simp [hopen, hring, hfine, hmap, hspread, hleft, hroom])]
  dsimp only
  rw [show j.ring.getD 0 = n by rw [hring]; rfl]
  rfl

theorem helperChunk_shows {e : BitVec 5} (hawake : s.awake = true) (hcalm : s.calm = true) (hon : s.foxOn e.toNat = true) (hwork : s.working = true) (hidle : s.engIdle e.toNat = true)
    (hres : s.svcReserved e.toNat = false) (hpick : s.pickRing e.toNat = none) (h : ChunkOpen s e.toNat n j) :
    ∃ t r j1, exec (.helperChunk e) s = .next t ∧ (t.eng e.toNat).st = .help ∧ (t.eng e.toNat).run = some r ∧ r.job = j.id ∧ r.lo = j.nextChunk ∧ r.hi = (nextPart j.op j.operand j.nextChunk).2
      ∧ r.pos = r.lo ∧ r.round = 0 ∧ t.fox.jobs = [j1] ∧ j1.id = j.id ∧ j1.nextChunk = r.hi ∧ e.toNat ∈ j1.engines ∧ j1.confirmed = j.confirmed ∧ (∀ f, f ≠ e.toNat → t.eng f = s.eng f)
      ∧ only [.fox, .regs] s t := by
  have htake : s.help e.toNat = _ := (help_eq h hidle hres hpick hwork).trans (takePart_left (j := helped e.toNat j) (Nat.not_le.mpr h.left))
  obtain ⟨x, hx⟩ : ∃ x : Job, { helped e.toNat j with nextChunk := (nextPart (helped e.toNat j).op (helped e.toNat j).operand (helped e.toNat j).nextChunk).2 } = x := ⟨_, rfl⟩
  obtain ⟨q, hq⟩ : ∃ q : Run, { ({ job := j.id, lo := 0, hi := 0, pos := 0 } : Run) with
      lo := (nextPart (helped e.toNat j).op (helped e.toNat j).operand (helped e.toNat j).nextChunk).1, hi := (nextPart (helped e.toNat j).op (helped e.toNat j).operand (helped e.toNat j).nextChunk).2,
      pos := (nextPart (helped e.toNat j).op (helped e.toNat j).operand (helped e.toNat j).nextChunk).1, round := 0, answers := [], words := [], bytes := [] } = q := ⟨_, rfl⟩
  rw [hx, hq] at htake
  have honly : only [.fox, .regs] s (helperSeated s e.toNat n) := only_trans (putEng_only _) (only_mono (by simp) (only_set _ _))
  have hparts : only [.fox, .regs] s (s.help e.toNat) := htake ▸ only_trans honly (only_mono (by simp) (withRun_only _ _))
  have hkept : (s.help e.toNat).calm = true := (calm_of (hparts .pwr (by decide)) (hparts .flt (by decide))).trans hcalm
  have heng : (helperSeated s e.toNat n).eng e.toNat = { s.eng e.toNat with st := .help, den := [] } := (eng_congr (set_fox _ _ _) _).trans (eng_putEng_same _)
  have hjobs : (s.help e.toNat).fox.jobs = [x] := by
    rw [htake, withRun_jobs, helperSeated_fox, h.only_job]
    exact congrArg (· :: []) (if_pos (by rw [← hx]; rfl))
  refine ⟨_, q, x, show execHelperChunk e s = _ from engWork_calm hawake hon hkept, ?_, ?_, by rw [← hq], by rw [← hq]; exact nextPart_from _ _ _, by rw [← hq]; rfl, by rw [← hq], by rw [← hq], hjobs, by rw [← hx]; rfl,
    by rw [← hx, ← hq], ?_, by rw [← hx]; rfl, fun f hf => ?_, hparts⟩
  · rw [htake, withRun_eng, heng]
  · rw [htake, withRun_eng]
  · rw [← hx]
    show e.toNat ∈ (helped e.toNat j).engines
    by_cases hc : e.toNat ∈ j.engines <;> simp [helped, hc]
  · rw [htake, withRun_eng_ne hf, helperSeated, eng_congr (set_fox _ _ _), eng_putEng_ne hf]

/-! ## The RESULT of a stage that ends (R349, R352) -/

/-- The job with its RESULT settled. -/
def settledJob (j : Job) (prog : Nat) (value : BitVec 64) (stop : Bool) : Job := { j with prog := prog, value := value, stopDiff := stop }

theorem stageResult_settles : only [.free] s (s.stageResult j r).1 ∧ ∃ a b c, (s.stageResult j r).2 = settledJob j a b c := by
  have hkept : only [.free] s s := only_refl _ _
  have hdrawn : only [.free] s (s.draw 16).2 := only_free _
  unfold State.stageResult
  extract_lets o prog w fin open_
  have hfin : ∀ a b, only [.free] s (fin a b).1 ∧ ∃ x y z, (fin a b).2 = settledJob j x y z := fun a b => ⟨hkept, a, b, j.stopDiff, rfl⟩
  have hopen : ∀ a b, only [.free] s (open_ a b).1 ∧ ∃ x y z, (open_ a b).2 = settledJob j x y z := fun a b => ⟨hdrawn, _, _, j.stopDiff, rfl⟩
  clear_value fin open_
  split
  · exact hfin _ _
  · split
    · exact hopen _ _
    · exact hfin _ _
  · exact ⟨hkept, _, _, _, rfl⟩
  · exact ⟨hkept, _, _, _, rfl⟩
  · split
    · exact hfin _ _
    · split
      · exact hopen _ _
      · split <;> exact hopen _ _
    · exact hfin _ _
  · exact hfin _ _
  · split
    · exact hfin _ _
    · exact hfin _ _
  · exact hfin _ _

theorem settleStage_settles : only [.free] s (s.settleStage j r).1 ∧ ∃ a b c, (s.settleStage j r).2 = settledJob j a b c := by
  unfold State.settleStage
  split
  · exact ⟨only_refl _ _, _, _, j.stopDiff, rfl⟩
  · exact stageResult_settles

/-! ## A ring's job ends (R306, R350) -/

theorem finishDesc_regs (job stage detail : Nat) : regsBut [(RING_STATUS n).off] s (s.finishDesc n job st stage detail res) := by
  unfold State.finishDesc
  dsimp only
  split
  · exact fun _ _ => rfl
  · exact regsBut_set (by simp [RING_STATUS_INFLIGHT, RING_STATUS])

theorem haltRing_regs (cause : Nat) : regsBut [(RING_STATUS n).off] s (s.haltRing n cause st) := by
  unfold State.haltRing
  split
  · exact fun _ _ => rfl
  · split
    next h0 =>
      subst h0
      split
      · exact fun _ _ => rfl
      · exact regsBut_trans (t := s.setRing 0 _) (fun _ _ => rfl) (regsBut_sets (by simp [RING_STATUS_HALT_CAUSE, RING_STATUS_HALT_STATUS, RING_STATUS]))
    · exact regsBut_sets (by simp [RING_STATUS_STATE, RING_STATUS_HALT_CAUSE, RING_STATUS_HALT_STATUS, RING_STATUS])

theorem haltRing_cpls (cause k : Nat) : ((s.haltRing n cause st).ring k).cpls = (s.ring k).cpls := by
  have hshow : ∀ l, ((s.showRing0 l).ring k).cpls = (s.ring k).cpls := fun l => by
    unfold State.showRing0
    dsimp only
    rw [sets_ring]
    by_cases hk : k = 0
    · rw [hk, setRing_ring_same]
    · rw [setRing_ring_ne hk]
  unfold State.haltRing
  split
  · rfl
  · split
    · split
      · rfl
      · exact hshow _
    · rw [sets_ring]

theorem haltRing_only (cause : Nat) : only [.rings, .regs] s (s.haltRing n cause st) := by
  unfold State.haltRing State.showRing0
  split
  · exact only_refl _ _
  · split
    · split
      · exact only_refl _ _
      · exact only_trans (only_mono (by simp) (only_setRing 0 _)) (only_mono (by simp) (only_sets _))
    · exact only_mono (by simp) (only_sets _)

/-- The registers of ring `n`'s block that the end of a job writes. -/
def jobEndRegs (n e : Nat) : List Nat := [(RING_STATUS n).off, (RING_CNT_VIOL_DESC n).off, (FOX_DESC_LO e).off, (FOX_DESC_HI e).off]

/-- A ring's job has its completion in the queue, and the engine has counted a descriptor. -/
structure RingJobEnded (s : State) (n e : Nat) (j : Job) (st : BitVec 8) (stage : Nat) (res : List (BitVec 8)) (t : State) : Prop where
  cpl : ∃ x, (t.ring n).cpls = (s.ring n).cpls ++ [x] ∧ x.job = j.id ∧ x.status = st ∧ x.stage = stage ∧ x.result = slice res 0 16
  count : t.pair (FOX_DESC_LO e) = (s.pair (FOX_DESC_LO e) + 1) % 2 ^ 64
  parts : only [.rings, .regs] s t

theorem RingJobEnded.step {stage : Nat} (h : RingJobEnded s n e j st stage res t) (hcpls : (u.ring n).cpls = (t.ring n).cpls)
    (hregs : regsBut [(RING_STATUS n).off, (RING_CNT_VIOL_DESC n).off] t u) (honly : only [.rings, .regs] t u) : RingJobEnded s n e j st stage res u := by
  obtain ⟨hcpl, hcount, hparts⟩ := h
  refine ⟨hcpls ▸ hcpl, ?_, only_trans hparts honly⟩
  rw [regsBut.pair hregs (by simp [FOX_DESC_LO, RING_STATUS, RING_CNT_VIOL_DESC]; omega) (by simp [FOX_DESC_LO, RING_STATUS, RING_CNT_VIOL_DESC]; omega), hcount]

theorem jobCompleted_ended (h : ∃ d ∈ (s.ring n).descs, d.job = j.id ∧ d.st ≠ .done) (stage detail : Nat) : RingJobEnded s n e j st stage res (jobCompleted s n e j st stage detail res) := by
  obtain ⟨d, hd, hjob, hst⟩ := h
  obtain ⟨x, hcpls, hx⟩ := finishDesc_completes hd hst st stage detail res
  rw [hjob] at hcpls hx
  refine ⟨⟨x, hcpls, hx⟩, ?_, only_trans (only_mono (by simp) (finishDesc_fine n stage detail)) (only_mono (by simp) only_incPair)⟩
  rw [jobCompleted, pair_incPair_same, regsBut.pair (finishDesc_regs (s := s) j.id stage detail) (by simp [FOX_DESC_LO, RING_STATUS]; omega) (by simp [FOX_DESC_LO, RING_STATUS]; omega)]

theorem jobAnswered_ended (hring : j.ring = some n) (h : ∃ d ∈ (s.ring n).descs, d.job = j.id ∧ d.st ≠ .done) (stage detail : Nat) :
    RingJobEnded s n e j st stage res (jobAnswered s e j st stage detail res) := by
  have hdone := jobCompleted_ended (e := e) (st := st) (res := res) h stage detail
  unfold jobAnswered
  rw [hring]
  dsimp only
  generalize jobCompleted s n e j st stage detail res = x at *
  have hcounted : RingJobEnded s n e j st stage res (if st = stMALFORMED ∧ (j.fail.map fun (f : BitVec 8 × BitVec 8 × Bool) => f.2.2) ≠ some true then x.inc (RING_CNT_VIOL_DESC n) else x) := by
    split
    · exact hdone.step rfl (regsBut_set (by simp)) (only_mono (by simp) (only_set _ _))
    · exact hdone
  generalize (if st = stMALFORMED ∧ (j.fail.map fun (f : BitVec 8 × BitVec 8 × Bool) => f.2.2) ≠ some true then x.inc (RING_CNT_VIOL_DESC n) else x) = y at *
  split
  · have hregs : regsBut [(RING_STATUS n).off, (RING_CNT_VIOL_DESC n).off] y (y.haltRing n 1 stPOISON) := regsBut_mono (by simp) (haltRing_regs 1)
    exact hcounted.step (haltRing_cpls 1 n) hregs (haltRing_only 1)
  · exact hcounted

end Sys2Proof.Proofs
end

section
/-! SUPPORT. The end of a stage (R327, R299): its job ends, or its next stage begins. -/

namespace Sys2Proof.Proofs

set_option Elab.async false

open Sys2Proof.Machine Sys2Proof.Laws

variable {s t u : State} {e n : Nat} {j : Job} {r : Run} {st : BitVec 8} {res : List (BitVec 8)}

/-! ## A ring's job ends, and its engine is free -/

theorem jobLeft_only (j : Job) : only [.fox] s (jobLeft s j) := by
  unfold jobLeft
  split <;> exact only_fox _

theorem jobLeft_jobs (j : Job) : (jobLeft s j).fox.jobs = s.fox.jobs.filter fun x => x.id != j.id := by
  unfold jobLeft
  split <;> rfl

theorem putEng_jobs (g : Engine) : (s.putEng e g).fox.jobs = s.fox.jobs := by
  rw [putEng_eq, set_fox]
  rfl

theorem activity_pair {f : Fld} (h : 0x9000 ≤ f.off) : s.activity.pair f = s.pair f := by
  have hoff : GLB_PWR_STATUS_STATE.off < 0x9000 := by decide
  rw [State.pair, State.pair, reg_activity (by omega), reg_activity (by omega)]

/-- What the end of a ring's job leaves in the state. -/
theorem endJob_shows (hring : j.ring = some n) (h : ∃ d ∈ (s.ring n).descs, d.job = j.id ∧ d.st ≠ .done) (stage detail : Nat) (ht : s.endJob e j st stage detail res = t) :
    (∃ x, (t.ring n).cpls = (s.ring n).cpls ++ [x] ∧ x.job = j.id ∧ x.status = st ∧ x.stage = stage ∧ x.result = slice res 0 16)
      ∧ t.pair (FOX_DESC_LO e) = (s.pair (FOX_DESC_LO e) + 1) % 2 ^ 64 ∧ (t.eng e).run = none ∧ (∀ k ∈ t.fox.jobs, k.id ≠ j.id) ∧ only [.fox, .rings, .pwr, .regs] s t := by
  have hleft := jobLeft_only (s := s) j
  have hlrings : ∀ k, (jobLeft s j).ring k = s.ring k := fun k => by rw [State.ring, State.ring, hleft .rings (by decide)]
  obtain ⟨hcpl, hcount, hparts⟩ := jobAnswered_ended (s := jobLeft s j) (e := e) (st := st) (res := res) hring (by rw [hlrings]; exact h) stage detail
  rw [endJob_eq] at ht
  generalize jobAnswered (jobLeft s j) e j st stage detail res = y at *
  subst ht
  have hfox : y.fox = (jobLeft s j).fox := hparts .fox (by decide)
  have hrings : ∀ k, (y.restEng e).activity.ring k = y.ring k := fun k => by rw [activity_ring, State.restEng, State.ring, putEng_only _ .rings (by decide), ← State.ring]
  have hact : (y.restEng e).activity.fox = (y.restEng e).fox := activity_only .fox (by decide)
  have hidle : (y.restEng e).activity.eng e = { y.eng e with run := none, disableDue := false, st := if (y.eng e).st == .disabled || (y.eng e).disableDue then .disabled else .idle } :=
    (eng_congr hact e).trans (eng_putEng_same _)
  refine ⟨?_, ?_, by rw [hidle], ?_, only_trans (only_mono (by simp) hleft) (only_trans (only_mono (by simp) hparts) (only_trans (only_mono (by simp) (putEng_only _)) (only_mono (by simp) activity_only)))⟩
  · rw [hrings, ← hlrings]
    exact hcpl
  · have hlregs : (jobLeft s j).pair (FOX_DESC_LO e) = s.pair (FOX_DESC_LO e) := pair_congr (hleft .regs (by decide)) _
    rw [activity_pair (by simp only [FOX_DESC_LO]; omega), State.restEng, regsBut.pair (putEng_regs _) (by simp [FOX_DESC_LO, FOX_STATUS]) (by simp [FOX_DESC_LO, FOX_STATUS]; omega), hcount, hlregs]
  · intro k hk
    rw [hact, State.restEng, putEng_jobs, hfox, jobLeft_jobs] at hk
    simpa using (List.mem_filter.mp hk).2

/-! ## Every part of a stage is done -/

/-- A stage that ends frees the check-value unit of its job. -/
def cvuFreed (s : State) (j : Job) : State := match j.cvu with
  | some u => s.releaseCvu u
  | none => s

theorem cvuFreed_only : only [.fox] s (cvuFreed s j) := by
  unfold cvuFreed
  split
  · exact only_fox _
  · exact only_refl _ _

theorem cvuFreed_jobs : (cvuFreed s j).fox.jobs = s.fox.jobs := by
  unfold cvuFreed
  split <;> rfl

/-- The job fails, or its last stage has ended. -/
def JobOver (j : Job) (status : BitVec 8) : Prop := (j.fail = none ∧ status = stOK ∧ j.ops.length ≤ j.stage + 1) ∨ (∃ st remote, j.fail = some (status, st, remote))

theorem advance_over (h : JobOver j st) : s.advance e j = (cvuFreed s j).endJob e { j with cvu := none } st j.stage j.detail j.result := by
  unfold State.advance cvuFreed
  rcases h with ⟨hfail, rfl, hlast⟩ | ⟨a, b, hfail⟩
  · simp only [hfail, hlast, decide_true, Bool.or_true, if_true] <;> cases j.cvu <;> rfl
  · simp only [hfail] <;> cases j.cvu <;> rfl

theorem advance_next (hfail : j.fail = none) (hstop : j.stopDiff = false) (hmore : j.stage + 1 < j.ops.length) (hring : j.ring = some n) (hst : (cvuFreed s j).ringSt n ≠ 3) :
    s.advance e j = (cvuFreed s j).beginStage e { j with cvu := none, stage := j.stage + 1 } := by
  have hregs : s.ringSt n ≠ 3 := by
    rwa [State.ringSt, fld_congr (cvuFreed_only .regs (by decide))] at hst
  unfold State.advance cvuFreed
  simp only [hfail, hstop, hring, Bool.false_and, Bool.false_or, decide_eq_false (Nat.not_le.mpr hmore), Bool.false_eq_true, if_false, if_neg hregs] <;> cases j.cvu <;> rfl

/-- Every part of the stage that engine `e` runs is done. -/
structure StageOver (s : State) (e : Nat) (r : Run) (j : Job) : Prop where
  run : (s.eng e).run = some r
  calm : (s.eng e).trapping = none
  finished : r.finished = true
  job : s.job r.job = some j
  own : j.engines.head? = some e
  alone : (s.enginesOf j.id).length ≤ 1

theorem stageAdvance_over (h : StageOver s e r j) : s.stageAdvance e = ((s.settleStage j r).1.setJob (s.settleStage j r).2).advance e (s.settleStage j r).2 := by
  obtain ⟨hrun, htrap, hfin, hjob, hown, halone⟩ := h
  unfold State.stageAdvance
  simp only [htrap, hrun, hjob, hfin, hown, halone, beq_self_eq_true, decide_true, Bool.and_self, if_true]

theorem exec_stageAdvance {e : BitVec 5} (hawake : s.awake = true) (hon : s.foxOn e.toNat = true) (hcalm : (s.stageAdvance e.toNat).calm = true) :
    exec (.stageAdvance e) s = .next (s.stageAdvance e.toNat) :=
  show execStageAdvance e s = _ from engWork_calm hawake hon hcalm

theorem job_id {id : Nat} (h : s.job id = some j) : j.id = id := by simpa using List.find?_some h

theorem job_mem {id : Nat} (h : s.job id = some j) : j ∈ s.fox.jobs := List.mem_of_find?_eq_some h

theorem slice_result (j : Job) : slice j.result 0 16 = j.result := by
  have hlen : j.result.length = 16 := by simp [Job.result, leBytes]
  simp [slice, hlen]

/-- The stage that ends is its job's last, or has failed: the descriptor completes. -/
theorem stageAdvance_completes {e : BitVec 5} (hawake : s.awake = true) (hcalm : s.calm = true) (hon : s.foxOn e.toNat = true) (h : StageOver s e.toNat r j) (hring : j.ring = some n) (hover : JobOver j st)
    (hdesc : ∃ d ∈ (s.ring n).descs, d.job = j.id ∧ d.st ≠ .done) :
    ∃ t x, exec (.stageAdvance e) s = .next t ∧ (t.ring n).cpls = (s.ring n).cpls ++ [x] ∧ x.job = j.id ∧ x.status = st ∧ x.stage = j.stage ∧ x.result = (s.settleStage j r).2.result
      ∧ t.pair (FOX_DESC_LO e.toNat) = (s.pair (FOX_DESC_LO e.toNat) + 1) % 2 ^ 64 ∧ (t.eng e.toNat).run = none ∧ (∀ k ∈ t.fox.jobs, k.id ≠ j.id) ∧ only [.fox, .rings, .pwr, .free, .regs] s t := by
  obtain ⟨hfree, a, b, c, hset⟩ := settleStage_settles (s := s) (j := j) (r := r)
  have hadv := stageAdvance_over h
  rw [hset] at hadv ⊢
  generalize (s.settleStage j r).1 = y at *
  have hparts : only [.fox, .free] s (cvuFreed (y.setJob (settledJob j a b c)) (settledJob j a b c)) :=
    only_trans (only_mono (by simp) hfree) (only_trans (only_mono (by simp) (only_fox _)) (only_mono (by simp) cvuFreed_only))
  rw [advance_over (j := settledJob j a b c) (st := st) hover] at hadv
  generalize cvuFreed (y.setJob (settledJob j a b c)) (settledJob j a b c) = z at *
  have hz : ∀ k, z.ring k = s.ring k := fun k => by rw [State.ring, State.ring, hparts .rings (by decide)]
  obtain ⟨⟨x, hcpls, hxjob, hxst, hxstage, hxres⟩, hcount, hidle, hgone, honly⟩ := endJob_shows (s := z) (e := e.toNat) (st := st) (res := (settledJob j a b c).result) (j := { settledJob j a b c with cvu := none }) hring
    (by rw [hz]; exact hdesc) (settledJob j a b c).stage (settledJob j a b c).detail hadv.symm
  have hkept : (s.stageAdvance e.toNat).calm = true := by
    rw [hadv]
    exact (workEnds_endJob _ _ _).calm ((calm_of (hparts .pwr (by decide)) (hparts .flt (by decide))).trans hcalm)
  refine ⟨_, x, exec_stageAdvance hawake hon hkept, by rw [hcpls, hz], hxjob, hxst, hxstage, hxres.trans (slice_result _), ?_, hidle, hgone, only_trans (only_mono (by simp) hparts) (only_mono (by simp) honly)⟩
  rw [hcount, pair_congr (hparts .regs (by decide))]

/-- Where a list holds a job of a number, the entry put back under the number is found by it. -/
theorem find_replaced {l : List Job} {x : Job} (h : ∃ y ∈ l, y.id = x.id) : (l.map fun y => if y.id = x.id then x else y).find? (fun y => y.id == x.id) = some x := by
  induction l with
  | nil => simp at h
  | cons a l ih =>
    rw [List.map_cons]
    by_cases ha : a.id = x.id
    · rw [if_pos ha]
      exact List.find?_cons_of_pos (by simp)
    · rw [if_neg ha, List.find?_cons_of_neg (by simpa using ha)]
      obtain ⟨y, hy, hid⟩ := h
      exact ih ⟨y, (List.mem_cons.mp hy).resolve_left (fun heq => ha (heq ▸ hid)), hid⟩

/-- The stage that ends has a next one. -/
theorem stageAdvance_goesOn {e : BitVec 5} (hawake : s.awake = true) (hcalm : s.calm = true) (hon : s.foxOn e.toNat = true) (h : StageOver s e.toNat r j) (hring : j.ring = some n) (hfail : j.fail = none)
    (hstop : (s.settleStage j r).2.stopDiff = false) (hmore : j.stage + 1 < j.ops.length) (hst : s.ringSt n ≠ 3) :
    ∃ t r1 j1, exec (.stageAdvance e) s = .next t ∧ (t.eng e.toNat).run = some r1 ∧ r1.job = j.id ∧ r1.round = 0 ∧ t.job j.id = some j1 ∧ j1.stage = j.stage + 1 ∧ j1.fail = none
      ∧ t.rings = s.rings ∧ only [.fox, .free, .regs] s t := by
  obtain ⟨hfree, a, b, c, hset⟩ := settleStage_settles (s := s) (j := j) (r := r)
  have hadv := stageAdvance_over h
  rw [hset] at hadv hstop
  generalize (s.settleStage j r).1 = y at *
  have hparts : only [.fox, .free] s (cvuFreed (y.setJob (settledJob j a b c)) (settledJob j a b c)) :=
    only_trans (only_mono (by simp) hfree) (only_trans (only_mono (by simp) (only_fox _)) (only_mono (by simp) cvuFreed_only))
  have hjobs : (cvuFreed (y.setJob (settledJob j a b c)) (settledJob j a b c)).fox.jobs = s.fox.jobs.map fun x => if x.id = j.id then settledJob j a b c else x := by
    rw [cvuFreed_jobs]
    show y.fox.jobs.map _ = _
    rw [hfree .fox (by decide)]
    rfl
  rw [advance_next (j := settledJob j a b c) hfail hstop hmore hring (by rw [State.ringSt, fld_congr (hparts .regs (by decide))]; exact hst)] at hadv
  generalize cvuFreed (y.setJob (settledJob j a b c)) (settledJob j a b c) = z at *
  obtain ⟨x, hx⟩ : ∃ x : Job, { settledJob j a b c with cvu := none, stage := (settledJob j a b c).stage + 1 } = x := ⟨_, rfl⟩
  have hxid : x.id = j.id := by rw [← hx]; rfl
  have hxstage : x.stage = j.stage + 1 := by rw [← hx]; rfl
  rw [hx] at hadv
  obtain ⟨hfine, hfox, ⟨q, hrun, hq, hround⟩, -, w, hw, hwid, -, -, -, hwstage, hwfail⟩ := beginStage_begun (s := z) (e := e.toNat) (j := x)
  rw [← hadv] at hfine hfox hrun hw
  have honly : only [.fox, .free, .regs] s (s.stageAdvance e.toNat) := only_trans (only_mono (by simp) hparts) (only_mono (by simp) hfine)
  have hkept : (s.stageAdvance e.toNat).calm = true := (calm_of (honly .pwr (by decide)) (honly .flt (by decide))).trans hcalm
  refine ⟨_, q, w, exec_stageAdvance hawake hon hkept, by rw [hrun], hq.trans hxid, hround, ?_, hwstage.trans hxstage, hwfail, honly .rings (by decide), honly⟩
  show (s.stageAdvance e.toNat).fox.jobs.find? _ = _
  have hmem : ∃ v ∈ z.fox.jobs, v.id = w.id := by
    rw [hjobs]
    exact ⟨settledJob j a b c, List.mem_map.mpr ⟨j, job_mem h.job, if_pos rfl⟩, (hwid.trans hxid).symm⟩
  have hfound := find_replaced hmem
  rw [hwid] at hfound
  rw [hw, ← hxid]
  exact hfound

/-- Settles O38: work that starts is a job handed to an engine (`startDesc_shows`, `svcStart_shows`, `helperChunk_shows`); a stage that ends settles its RESULT and
then completes its descriptor or begins the next one. -/
theorem engineWork : Obligations.EngineWork := by
  unfold Obligations.EngineWork
  refine ⟨fun e n d s hawake hcalm hon hpick hlow hops => ?_, fun e p rest s hawake hcalm hon hgrave hforcing hq hmay hidle hgoes => svcStart_shows hawake hcalm hon hgrave hforcing hq hmay hidle hgoes,
    fun e n j s hawake hcalm hon hwork hidle hres hpick hjobs hring hop hspread hfine hleft hroom hmap =>
      helperChunk_shows hawake hcalm hon hwork hidle hres hpick ⟨hjobs, hring, hop, hspread, hfine, hleft, hroom, hmap⟩,
    fun e n r j s hawake hcalm hon hrun htrap hfin hjob hown halone hring _ => ⟨fun status hover hdesc => ?_, fun hfail hstop hmore hst => ?_⟩⟩
  · obtain ⟨hkept, ⟨r, hrun, hr⟩, hst, hden, hshown, hlast, hjob, hcpls, hrings, hothers, honly⟩ := startDesc_shows (s := s) (e := e.toNat) (pickRing_lt hpick) hcalm hops rfl
    refine ⟨_, r, ?_, hrun, hr, hst, hden, hshown, hlast, hjob, hcpls, hrings, hothers, honly⟩
    show execEngineDispatch e s = _
    rw [execEngineDispatch, engWork_calm hawake hon (by rw [dispatch_picked hpick hlow]; exact hkept), dispatch_picked hpick hlow]
  · exact stageAdvance_completes hawake hcalm hon ⟨hrun, htrap, hfin, hjob, hown, halone⟩ hring hover hdesc
  · exact stageAdvance_goesOn hawake hcalm hon ⟨hrun, htrap, hfin, hjob, hown, halone⟩ hring hfail hstop hmore hst

end Sys2Proof.Proofs
end

section
/-! SUPPORT. A cycle of a channel's controller (R243, R247, R253, R257): the word that goes out, a neighbour refresh, an activation. -/

namespace Sys2Proof.Proofs

set_option Elab.async false

open Sys2Proof.Machine Sys2Proof.Laws

variable {s t u : State} {c pc draw : Nat} {k x : Chan} {q : ColReq}

theorem reg_inc_word {f : Fld} (h : f.lo = 0) (h' : f.hi = 31) : (s.inc f).reg f.off = (s.reg f.off + 1) % 2 ^ 32 := by
  rw [← fld_word h' h, fld_inc_word h h', fld_word h' h]

/-! ## The word of a cycle -/

/-- The state after a word has gone out to a channel's layer (R257). -/
def wordSent (s : State) (c : Nat) : State := s.setChn c { s.chn c with seq := (s.chn c).seq + 1 }

theorem chanRuns_up (h : s.chanRuns c = true) : s.chanUp c = true := by
  rw [State.chanRuns, Bool.and_eq_true, Bool.and_eq_true] at h
  exact h.1.1

theorem sendWord_plain (hrun : s.chanRuns c = true) : s.sendWord c {} = wordSent s c := by
  have hup := chanRuns_up hrun
  rw [State.chanUp] at hup
  simp only [Bool.and_eq_true] at hup
  obtain ⟨⟨⟨⟨_, hbeat⟩, _⟩, hon⟩, _⟩ := hup
  rw [State.sendWord]
  dsimp only
  rw [if_neg (by simp [hbeat, hon])]
  rfl

theorem wordSent_chn : (wordSent s c).chn c = { s.chn c with seq := (s.chn c).seq + 1 } := chn_setChn_same _

theorem wordSent_chanRuns (hrun : s.chanRuns c = true) : (wordSent s c).chanRuns c = true := by
  rw [← hrun, State.chanRuns, State.chanUp, wordSent_chn]
  rfl

theorem wordSent_writes (d : Nat) : ((wordSent s c).chn d).writes = (s.chn d).writes := by
  by_cases hd : d = c
  · subst hd
    rw [wordSent_chn]
  · exact congrArg Chan.writes (chn_setChn_ne hd _)

theorem wordSent_writeHeld (block : Nat) : (wordSent s c).writeHeld c block = s.writeHeld c block := by
  have hbusy : (wordSent s c).stripeBusy c block = s.stripeBusy c block := by simp only [State.stripeBusy, wordSent_writes]
  rw [State.writeHeld, State.writeHeld, hbusy]
  rfl

theorem wordSent_chooseReq : (wordSent s c).chooseReq c k pc = s.chooseReq c k pc := by
  simp only [State.chooseReq, wordSent_writeHeld]
  rfl

/-! ## The cycle of a pseudo-channel -/

/-- Cycles and commands of the running window of 100 cycles (R443). -/
def windowOf (s : State) (c pc : Nat) : Nat × Nat :=
  let w := mgetD (s.chn c).window pc (0, 0)
  if w.1 ≥ 100 then (0, 0) else w

/-- The channel as a cycle of a pseudo-channel finds it, before any command: refreshes over, the drain and the window of R443 moved on, rows
without use closed. -/
def cycleStart (s : State) (c pc : Nat) : Chan :=
  let k0 := { s.chn c with refBusy := (s.chn c).refBusy.filter fun e => e.1 != pc }
  s.closeRows c { k0 with draining := s.drainState c k0, window := mput pc ((windowOf s c pc).1 + 1, (windowOf s c pc).2) k0.window } pc

theorem windowOf_fresh (hwin : mget (s.chn c).window pc = none) : windowOf s c pc = (0, 0) := by
  rw [windowOf, mgetD, hwin]
  rfl

theorem cycleStart_fresh (hwin : mget (s.chn c).window pc = none) :
    cycleStart s c pc = s.closeRows c { s.chn c with
      refBusy := (s.chn c).refBusy.filter fun e => e.1 != pc, draining := s.drainState c (s.chn c), window := mput pc (1, 0) (s.chn c).window } pc := by
  rw [cycleStart, windowOf_fresh hwin]
  rfl

theorem issueCommand_eq (hrun : s.chanRuns c = true) :
    s.issueCommand c pc draw =
      match (cycleStart s c pc).nrefDue.find? fun e => e.1 / 16 == pc with
      | some e => (s.setChn c { cycleStart s c pc with nrefDue := (cycleStart s c pc).nrefDue.filter (· != e) }).inc (CHAN_NREF c)
      | none => if s.throttle c ≤ (windowOf s c pc).2 then s.setChn c (cycleStart s c pc) else
        match s.chooseReq c (cycleStart s c pc) pc with
        | none => s.setChn c (cycleStart s c pc)
        | some q =>
          let k1 := { cycleStart s c pc with window := mput pc ((windowOf s c pc).1 + 1, (windowOf s c pc).2 + 1) (cycleStart s c pc).window }
          let s1 := if s.fld (CHAN_STATUS_STATE c) = 3 then s.set (CHAN_STATUS_STATE c) 2 else s
          if rowHit k1 q then (s1.setChn c k1).issueColumn c q
          else match mget k1.openRows (bankIx q.block) with
            | some _ => s1.setChn c { k1 with window := (cycleStart s c pc).window, openRows := merase (bankIx q.block) k1.openRows }
            | none => (s1.setChn c k1).activateRow c q.block draw := by
  rw [State.issueCommand, if_neg (by simp [hrun])]
  rfl

/-- A neighbour refresh that is due goes before everything else (R247). -/
theorem issueCommand_nref {e : Nat × Nat} (hrun : s.chanRuns c = true) (hdue : (s.chn c).nrefDue.find? (fun e => e.1 / 16 == pc) = some e) :
    s.issueCommand c pc draw = (s.setChn c { cycleStart s c pc with nrefDue := (s.chn c).nrefDue.filter (· != e) }).inc (CHAN_NREF c) := by
  rw [issueCommand_eq hrun, show (cycleStart s c pc).nrefDue = (s.chn c).nrefDue from rfl, hdue]

/-- Without one, an activate opens the row of the request that is chosen (R243). -/
theorem issueCommand_activates (hrun : s.chanRuns c = true) (hdue : (s.chn c).nrefDue.find? (fun e => e.1 / 16 == pc) = none)
    (hwin : mget (s.chn c).window pc = none) (hfast : 0 < s.throttle c) (hst : s.fld (CHAN_STATUS_STATE c) = 2)
    (hq : s.chooseReq c (cycleStart s c pc) pc = some q) (hclosed : mget (cycleStart s c pc).openRows (bankIx q.block) = none) :
    s.issueCommand c pc draw = (s.setChn c { cycleStart s c pc with window := mput pc (1, 1) (cycleStart s c pc).window }).activateRow c q.block draw := by
  have hmiss (w : List (Nat × Nat × Nat)) : rowHit { cycleStart s c pc with window := w } q = false := by
    rw [rowHit, hclosed]
    rfl
  rw [issueCommand_eq hrun, show (cycleStart s c pc).nrefDue = (s.chn c).nrefDue from rfl, hdue, windowOf_fresh hwin]
  dsimp only
  rw [if_neg (by omega), hq]
  dsimp only
  rw [hmiss, if_neg (by decide), hclosed, if_neg (by omega)]

/-! ## An activate -/

theorem activateRow_shows {block : Nat} (hx : s.chn c = x) (ht : s.activateRow c block draw = t) :
    t.chn c = { x with
        openRows := mput (bankIx block) (rowOf block) x.openRows, rowIdle := mput (bankIx block) 0 x.rowIdle,
        nrefDue := x.nrefDue.filter (fun e => e.1 != bankIx block) ++ (if draw % 2 ^ s.fld (CHAN_REF_CFG_NR_K c) = 0 then [(bankIx block, rowOf block)] else []) }
      ∧ t.pair (CHAN_ACT_LO c) = (s.pair (CHAN_ACT_LO c) + 1) % 2 ^ 64 ∧ (∀ d, d ≠ c → t.chn d = s.chn d) ∧ only [.chan, .regs] s t := by
  subst hx ht
  have hchan : ∀ f n (y : State), ((y.incBy (CHAN_NREF c) f).incPair (CHAN_ACT_LO c) n).chan = y.chan := fun _ _ _ => rfl
  refine ⟨?_, ?_, fun d hd => ?_, ?_⟩
  · rw [State.activateRow, chn_congr (hchan ..), chn_setChn_same]
    by_cases hd : draw % 2 ^ s.fld (CHAN_REF_CFG_NR_K c) = 0
    · simp only [hd, beq_self_eq_true, if_true]
    · simp only [hd, if_false, List.append_nil, beq_iff_eq]
  · rw [State.activateRow, pair_incPair_same, State.pair, State.pair, State.incBy,
      reg_set_ne _ (by simp only [CHAN_ACT_LO, CHAN_NREF]; omega), reg_set_ne _ (by simp only [CHAN_ACT_LO, CHAN_NREF]; omega)]
    rfl
  · rw [State.activateRow, chn_congr (hchan ..), chn_setChn_ne hd]
  · exact only_trans (only_mono (by simp) (only_setChn _ _)) (only_mono (by simp) (only_trans (only_set _ _) only_incPair))

/-! ## The command of a cycle, as the model's command carries it out -/

theorem dramCommandIssue_runs {c : BitVec 5} {pc : BitVec 1} {draw : BitVec 14} (hawake : s.awake = true) (hc : c.toNat < s.nChans)
    (hrun : s.chanRuns c.toNat = true) (ht : (wordSent s c.toNat).issueCommand c.toNat pc.toNat draw.toNat = t) (hcalm : t.calm = true) :
    exec (.dramCommandIssue c pc { draw := draw }) s = .next t := by
  show execDramCommandIssue c pc { draw := draw } s = _
  rw [execDramCommandIssue, if_pos (by simp [hawake, hc]), show ({ draw := draw } : IssueRes).word = {} from rfl, sendWord_plain hrun, ht, settle_calm hcalm]

theorem wordSent_cycleStart : cycleStart (wordSent s c) c pc = { cycleStart s c pc with seq := (s.chn c).seq + 1 } := by
  rw [cycleStart, windowOf, wordSent_chn]
  rfl

/-- A cycle that issues a neighbour refresh (R247, R257). -/
theorem cycle_nref {c : BitVec 5} {pc : BitVec 1} {draw : BitVec 14} {e : Nat × Nat} (hc : c.toNat < s.nChans) (hcalm : s.calm = true) (hawake : s.awake = true)
    (hrun : s.chanRuns c.toNat = true) (hdue : (s.chn c.toNat).nrefDue.find? (fun e => e.1 / 16 == pc.toNat) = some e) :
    ∃ t, exec (.dramCommandIssue c pc { draw := draw }) s = .next t ∧ (t.chn c.toNat).nrefDue = (s.chn c.toNat).nrefDue.filter (· != e)
      ∧ (t.chn c.toNat).seq = (s.chn c.toNat).seq + 1 ∧ (∀ e ∈ (t.chn c.toNat).openRows, e ∈ (s.chn c.toNat).openRows) ∧ (t.chn c.toNat).reads = (s.chn c.toNat).reads ∧ (t.chn c.toNat).writes = (s.chn c.toNat).writes
      ∧ t.reg (CHAN_NREF c.toNat).off = (s.reg (CHAN_NREF c.toNat).off + 1) % 2 ^ 32 ∧ (∀ d, d ≠ c.toNat → t.chn d = s.chn d) ∧ regsBut [(CHAN_NREF c.toNat).off] s t ∧ only [.chan, .regs] s t := by
  have hdue' : ((wordSent s c.toNat).chn c.toNat).nrefDue.find? (fun e => e.1 / 16 == pc.toNat) = some e := by rw [wordSent_chn]; exact hdue
  obtain ⟨t, ht⟩ : ∃ t, (wordSent s c.toNat).issueCommand c.toNat pc.toNat draw.toNat = t := ⟨_, rfl⟩
  have heq := ht.symm.trans (issueCommand_nref (wordSent_chanRuns hrun) hdue')
  rw [wordSent_cycleStart, wordSent_chn] at heq
  have hcalm' : t.calm = true := by rw [heq, ← hcalm]; exact calm_of rfl rfl
  have hchn : t.chn c.toNat = { cycleStart s c.toNat pc.toNat with seq := (s.chn c.toNat).seq + 1, nrefDue := (s.chn c.toNat).nrefDue.filter (· != e) } := by
    rw [heq, chn_congr (s := (wordSent s c.toNat).setChn c.toNat _) (only_inc .chan (by decide)), chn_setChn_same]
  refine ⟨t, dramCommandIssue_runs hawake hc hrun ht hcalm', ?_, ?_, ?_, ?_, ?_, ?_, ?_, ?_, ?_⟩
  · rw [hchn]
  · rw [hchn]
  · rw [hchn]
    exact fun x hx => List.mem_of_mem_filter hx
  · rw [hchn]
    rfl
  · rw [hchn]
    rfl
  · rw [heq, reg_inc_word rfl rfl]
    rfl
  · intro d hd
    rw [heq, chn_congr (s := (wordSent s c.toNat).setChn c.toNat _) (only_inc .chan (by decide)), chn_setChn_ne hd]
    exact chn_setChn_ne hd _
  · rw [heq]
    exact regsBut_trans (t := (wordSent s c.toNat).setChn c.toNat _) (fun _ _ => rfl) (regsBut_inc (by simp))
  · rw [heq]
    exact only_trans (only_trans (only_mono (by simp) (only_setChn _ _)) (only_mono (by simp) (only_setChn _ _))) (only_mono (by simp) only_inc)

/-- A cycle that opens the row of the chosen request (R243, R247, R253). -/
theorem cycle_activates {c : BitVec 5} {pc : BitVec 1} {draw : BitVec 14} (hc : c.toNat < s.nChans) (hcalm : s.calm = true) (hawake : s.awake = true)
    (hrun : s.chanRuns c.toNat = true) (hdue : (s.chn c.toNat).nrefDue.find? (fun e => e.1 / 16 == pc.toNat) = none)
    (hwin : mget (s.chn c.toNat).window pc.toNat = none) (hfast : 0 < s.throttle c.toNat) (hst : s.fld (CHAN_STATUS_STATE c.toNat) = 2)
    (hk : s.closeRows c.toNat { s.chn c.toNat with
          seq := (s.chn c.toNat).seq + 1, refBusy := (s.chn c.toNat).refBusy.filter (fun e => e.1 != pc.toNat),
          draining := s.drainState c.toNat (s.chn c.toNat), window := mput pc.toNat (1, 0) (s.chn c.toNat).window } pc.toNat = k)
    (hq : s.chooseReq c.toNat k pc.toNat = some q) (hclosed : mget k.openRows (bankIx q.block) = none) :
    ∃ t, exec (.dramCommandIssue c pc { draw := draw }) s = .next t ∧ (t.chn c.toNat).seq = (s.chn c.toNat).seq + 1 ∧ mget (t.chn c.toNat).openRows (bankIx q.block) = some (rowOf q.block)
      ∧ mget (t.chn c.toNat).window pc.toNat = some (1, 1) ∧ t.pair (CHAN_ACT_LO c.toNat) = (s.pair (CHAN_ACT_LO c.toNat) + 1) % 2 ^ 64
      ∧ (t.chn c.toNat).nrefDue = (s.chn c.toNat).nrefDue.filter (fun e => e.1 != bankIx q.block) ++ (if draw.toNat % 2 ^ s.fld (CHAN_REF_CFG_NR_K c.toNat) = 0 then [(bankIx q.block, rowOf q.block)] else [])
      ∧ (∀ d, d ≠ c.toNat → t.chn d = s.chn d) ∧ only [.chan, .regs] s t := by
  have hk' : cycleStart (wordSent s c.toNat) c.toNat pc.toNat = k := by
    rw [wordSent_cycleStart, cycleStart_fresh hwin, ← hk]
    rfl
  have hact := issueCommand_activates (s := wordSent s c.toNat) (draw := draw.toNat) (q := q) (wordSent_chanRuns hrun)
    (by rw [wordSent_chn]; exact hdue) (by rw [wordSent_chn]; exact hwin) hfast hst (by rw [hk', wordSent_chooseReq]; exact hq) (by rw [hk']; exact hclosed)
  rw [hk'] at hact
  obtain ⟨t, ht⟩ : ∃ t, (wordSent s c.toNat).issueCommand c.toNat pc.toNat draw.toNat = t := ⟨_, rfl⟩
  obtain ⟨hchn, hpair, hne, hparts⟩ := activateRow_shows (chn_setChn_same _) (hact.symm.trans ht)
  have hall : only [.chan, .regs] s t :=
    only_trans (only_trans (only_mono (by simp) (only_setChn _ _)) (only_mono (by simp) (only_setChn _ _))) hparts
  have hdue' : k.nrefDue = (s.chn c.toNat).nrefDue := by rw [← hk]; rfl
  refine ⟨t, dramCommandIssue_runs hawake hc hrun ht ?_, ?_, ?_, ?_, ?_, ?_, fun d hd => ?_, hall⟩
  · rw [← hcalm]
    exact calm_of (hall .pwr (by decide)) (hall .flt (by decide))
  · rw [hchn, ← hk]
    rfl
  · rw [hchn, mget_mput_same]
  · rw [hchn, mget_mput_same]
  · exact hpair
  · rw [hchn]
    dsimp only
    rw [hdue']
    rfl
  · rw [hne d hd, chn_setChn_ne hd]
    exact chn_setChn_ne hd _

/-! ## A read arrives, an entry is freed -/

theorem blockPerformed_only (cls grp d : Nat) : only [.regs, .qos] s (s.blockPerformed cls grp d) := by
  have hcount : only [.regs, .qos] s (s.countBytes cls grp d 64) := by
    unfold State.countBytes
    split
    · exact only_mono (by simp) only_incPair
    · exact only_mono (by simp) (only_trans only_incPair only_incPair)
  rw [State.blockPerformed, State.when]
  split
  · exact only_trans hcount chargeBedrock_frame.parts
  · exact hcount

/-- A read whose data decodes (R377). -/
theorem read_arrives {c : BitVec 5} {err : List (BitVec 8)} {i : Nat} {r : RdReq} {d : List (BitVec 8)} {p : Bool} (hawake : s.awake = true) (hrun : s.chanRuns c.toNat = true)
    (hfirst : (enum (s.chn c.toNat).reads).find? (fun e => e.2.issued) = some (i, r)) (hread : s.readBlock c.toNat r.block err = (.data d p, u)) (hcalm : u.calm = true) :
    ∃ t, exec (.dramReadData c err) s = .next t ∧ (t.chn c.toNat).arrived = (u.chn c.toNat).arrived ++ [(r, p, d)] ∧ (t.chn c.toNat).reads = ldrop (u.chn c.toNat).reads i
      ∧ only [.chan, .regs, .qos] u t := by
  obtain ⟨v, hv⟩ : ∃ v, u.setChn c.toNat { u.chn c.toNat with reads := ldrop (u.chn c.toNat).reads i, arrived := (u.chn c.toNat).arrived ++ [(r, p, d)] } = v := ⟨_, rfl⟩
  have heq : s.readArrives c.toNat err = v.when (!r.forAtom) fun u => u.blockPerformed r.cls r.grp 0 := by
    rw [State.readArrives, hfirst]
    dsimp only
    rw [hread, ← hv]
  have hlast : only [.regs, .qos] v (v.when (!r.forAtom) fun u => u.blockPerformed r.cls r.grp 0) := by
    rw [State.when]
    split
    · exact blockPerformed_only _ _ _
    · exact only_refl _ _
  obtain ⟨t, ht⟩ : ∃ t, (v.when (!r.forAtom) fun u => u.blockPerformed r.cls r.grp 0) = t := ⟨_, rfl⟩
  rw [ht] at heq hlast
  have hall : only [.chan, .regs, .qos] u t := only_trans (by rw [← hv]; exact only_mono (by simp) (only_setChn _ _)) (only_mono (by simp) hlast)
  have hchn : t.chn c.toNat = { u.chn c.toNat with reads := ldrop (u.chn c.toNat).reads i, arrived := (u.chn c.toNat).arrived ++ [(r, p, d)] } := by
    rw [chn_congr (hlast .chan (by decide)), ← hv, chn_setChn_same]
  refine ⟨t, ?_, by rw [hchn], by rw [hchn], hall⟩
  show execDramReadData c err s = _
  rw [execDramReadData, if_pos (by rw [hawake, hrun]; rfl), heq, settle_calm (by rw [← hcalm]; exact calm_of (hall .pwr (by decide)) (hall .flt (by decide)))]

/-- A freed entry goes to the one request that waits (R284). -/
theorem entryFreed_grants {c : BitVec 5} {w : WaitReq} {own : Bool} (hone : (s.chn c.toNat).waits = [w]) (hfits : s.entryFor (s.chn c.toNat) w.block w.cls w.grp = some own) :
    ∃ t, exec (.missEntryFreed c) s = .next t ∧ (t.chn c.toNat).waits = []
      ∧ (t.chn c.toNat).reads = (s.chn c.toNat).reads ++ [{ block := w.block, use := w.use, cls := w.cls, grp := w.grp, reserved := own, forAtom := w.forAtom, at_ := w.at_ }]
      ∧ (∀ d, d ≠ c.toNat → t.chn d = s.chn d) ∧ only [.chan] s t := by
  obtain ⟨k, hk⟩ : ∃ k : Chan, { s.chn c.toNat with waits := [], reads := (s.chn c.toNat).reads ++ [{ block := w.block, use := w.use, cls := w.cls, grp := w.grp, reserved := own, forAtom := w.forAtom, at_ := w.at_ }] } = k := ⟨_, rfl⟩
  have heq : s.grantEntry c.toNat = s.setChn c.toNat k := by
    have hws : (enum (s.chn c.toNat).waits).filterMap (fun e => (s.entryFor (s.chn c.toNat) e.2.block e.2.cls e.2.grp).map fun r => (e.1, e.2, r)) = [(0, w, own)] := by
      rw [hone]
      simp only [enum, List.length_singleton, List.range_one, List.zip_cons_cons, List.zip_nil_right, List.filterMap_cons, hfits, Option.map_some, List.filterMap_nil]
    rw [State.grantEntry]
    rw [hws, hone, ← hk]
    cases own <;> rfl
  refine ⟨s.setChn c.toNat k, ?_, ?_, ?_, fun d hd => chn_setChn_ne hd _, only_setChn _ _⟩
  · show Host.Outcome.next _ = _
    rw [heq]
  · rw [chn_setChn_same, ← hk]
  · rw [chn_setChn_same, ← hk]

end Sys2Proof.Proofs
end

section
/-! SUPPORT. Refreshes, power-down and the refresh rate of a channel (R244, R246, R248). -/

namespace Sys2Proof.Proofs

set_option Elab.async false

open Sys2Proof.Machine Sys2Proof.Laws

variable {s t u : State} {c pc : Nat} {taps : List Bool}

/-! ## A refresh -/

theorem rateEvent_frame (l rate : Nat) : Frame [.regs, .recd, .sett] recReg s (s.rateEvent l rate) := by
  unfold State.rateEvent
  split <;> exact event_frame _ (by decide) _ _ _

theorem chanStatus_apart {c : Nat} : ¬ recReg (CHAN_STATUS c).off := by
  intro h
  have hoff : REC_FOLDS.off < 0x60000 := by decide
  rcases h with h | ⟨_, h⟩ <;> simp only [CHAN_STATUS] at h <;> omega

/-- Power-down ends for a refresh (R248): the state the refresh starts from. -/
def outOfPowerDown (s : State) (c : Nat) : State := if s.fld (CHAN_STATUS_STATE c) = 3 then s.set (CHAN_STATUS_STATE c) 2 else s

theorem outOfPowerDown_only : only [.regs] s (outOfPowerDown s c) := by
  unfold outOfPowerDown
  split
  · exact only_set _ _
  · exact only_refl _ _

theorem outOfPowerDown_reg : regsBut [(CHAN_STATUS c).off] s (outOfPowerDown s c) := by
  unfold outOfPowerDown
  split
  · exact regsBut_set (by simp [CHAN_STATUS, CHAN_STATUS_STATE])
  · exact regsBut_refl _ _

theorem outOfPowerDown_fld {f : Fld} (hf : 3 < f.lo) : (outOfPowerDown s c).fld f = s.fld f := by
  unfold outOfPowerDown
  split
  · exact fld_set_apart (f := CHAN_STATUS_STATE c) ⟨Nat.zero_le 3, (by decide : 3 < 32)⟩ (.inr (.inl hf))
  · rfl

theorem outOfPowerDown_state : (outOfPowerDown s c).fld (CHAN_STATUS_STATE c) = if s.fld (CHAN_STATUS_STATE c) = 3 then 2 else s.fld (CHAN_STATUS_STATE c) := by
  unfold outOfPowerDown
  split
  · exact fld_set_same s (f := CHAN_STATUS_STATE c) (Nat.zero_le 3) (by decide : 3 < 32) _
  · rfl

theorem domainOn_congr {g i : Nat} (hg : g ≤ 3) (h : ∀ o, o < 0x9000 → t.reg o = s.reg o) : t.domainOn g i = s.domainOn g i := by
  have hsleep : t.sleep = s.sleep := by rw [State.sleep, State.sleep, State.fld, State.fld, h _ (by decide)]
  have hgate : ∀ o, o ≤ CLK_GATE_DEEP_CHN.off → t.reg (o + 4 * g) = s.reg (o + 4 * g) := fun o ho => h _ (by simp only [CLK_GATE_DEEP_CHN] at ho; omega)
  simp only [State.domainOn, hsleep, hgate _ (by decide : CLK_GATE_DEEP_CHN.off ≤ _), hgate _ (by decide : CLK_GATE_SLEEP_CHN.off ≤ _),
    hgate _ (by decide : CLK_GATE_RUN_CHN.off ≤ _)]

theorem outOfPowerDown_up (hup : s.chanUp c = true) : (outOfPowerDown s c).chanUp c = true := by
  have hst := outOfPowerDown_state (s := s) (c := c)
  have hout : (outOfPowerDown s c).chanOut c = s.chanOut c := by
    rw [State.chanOut, State.chanOut, State.on, State.on, State.on, State.on, outOfPowerDown_fld (f := CHAN_STATUS_FENCED c) (by decide : 3 < 16),
      outOfPowerDown_fld (f := CHAN_STATUS_LOST c) (by decide : 3 < 18)]
  have hchn : (outOfPowerDown s c).chn c = s.chn c := chn_congr (outOfPowerDown_only .chan (by decide)) c
  have hlow : ∀ o, o < 0x9000 → (outOfPowerDown s c).reg o = s.reg o := fun o ho => outOfPowerDown_reg o (by simp only [CHAN_STATUS, List.mem_singleton]; omega)
  have hon : (outOfPowerDown s c).chnOn c = s.chnOn c := by
    rw [State.chnOn, State.chnOn, domainOn_congr (by decide) hlow, domainOn_congr (by decide) hlow]
  rw [State.chanUp] at hup ⊢
  rw [hout, hchn, hon, hst]
  split
  · next h3 => 
    rw [h3] at hup
    simpa using hup
  · exact hup

/-- What a refresh of a pseudo-channel does (R246). -/
structure Refreshed (s : State) (c pc : Nat) (t : State) : Prop where
  closed : (t.chn c).openRows = (s.chn c).openRows.filter fun e => e.1 / 16 != pc
  counted : t.reg (CHAN_REF c).off = (s.reg (CHAN_REF c).off + 1) % 2 ^ 32
  faster : s.fld (CHAN_STATUS_REF_RATE c) ≤ t.fld (CHAN_STATUS_REF_RATE c)
  state : t.fld (CHAN_STATUS_STATE c) = s.fld (CHAN_STATUS_STATE c)
  reads : (t.chn c).reads = (s.chn c).reads
  writes : (t.chn c).writes = (s.chn c).writes
  parts : only [.chan, .regs, .free] s t

theorem refTarget_le : s.refTarget c ≤ 2 := by
  unfold State.refTarget
  dsimp only
  split
  · omega
  · split <;> omega

theorem refRate_set (v : Nat) (hv : v ≤ 2) :
    (s.set (CHAN_STATUS_REF_RATE c) (max (s.fld (CHAN_STATUS_REF_RATE c)) v)).fld (CHAN_STATUS_REF_RATE c) = max (s.fld (CHAN_STATUS_REF_RATE c)) v := by
  have hlt : s.fld (CHAN_STATUS_REF_RATE c) < 4 := fld_lt s (CHAN_STATUS_REF_RATE c)
  exact fld_set_fits (f := CHAN_STATUS_REF_RATE c) (by decide : 22 ≤ 23) (by decide : 23 < 32) (show _ < 2 ^ 2 by omega)

/-- The margins that a refresh leaves after a move of the timing offsets (R244). -/
def marginsDrawn (s : State) (c : Nat) (taps : List Bool) : State :=
  if taps.isEmpty then s else ({ s with free := s.free + 2 } : State).sets [(CHAN_TRAIN_RD_MARGIN c, Config.freeNat s.free), (CHAN_TRAIN_WR_MARGIN c, Config.freeNat (s.free + 1))]

theorem marginsDrawn_only : only [.regs, .free] s (marginsDrawn s c taps) := by
  unfold marginsDrawn
  split
  · exact only_refl _ _
  · exact only_trans (t := { s with free := s.free + 2 }) (only_mono (by simp) (only_free _)) (only_mono (k := [.regs]) (by simp) (only_sets _))

theorem marginsDrawn_reg : regsBut [(CHAN_TRAIN_RD_MARGIN c).off] s (marginsDrawn s c taps) := by
  unfold marginsDrawn
  split
  · exact regsBut_refl _ _
  · exact regsBut_trans (regsBut_of_regs rfl) (regsBut_sets (by simp [CHAN_TRAIN_RD_MARGIN, CHAN_TRAIN_WR_MARGIN]))

/-- The channel after a refresh: the rows of the pseudo-channel closed, its timing offsets moved (R244, R246). -/
def refreshedChan (s : State) (c pc : Nat) (taps : List Bool) : Chan :=
  let k := s.chn c
  let tap := fun (i : Nat) (v : Int) =>
    if i / 2 = pc ∧ i < 4 then (match taps[i % 2]? with
      | some up => if up then v + 1 else v - 1
      | none => v) else v
  { k with
    openRows := k.openRows.filter fun e => e.1 / 16 != pc, rowIdle := k.rowIdle.filter fun e => e.1 / 16 != pc, refBusy := mput pc s.now k.refBusy,
    offsets := (enum k.offsets).map fun e => tap e.1 e.2 }

theorem refresh_eq (hup : s.chanUp c = true) :
    s.refresh c pc taps = (marginsDrawn ((s.setChn c (refreshedChan s c pc taps)).inc (CHAN_REF c)) c taps).set (CHAN_STATUS_REF_RATE c)
      (max ((marginsDrawn ((s.setChn c (refreshedChan s c pc taps)).inc (CHAN_REF c)) c taps).fld (CHAN_STATUS_REF_RATE c))
        ((marginsDrawn ((s.setChn c (refreshedChan s c pc taps)).inc (CHAN_REF c)) c taps).refTarget c)) := by
  rw [State.refresh, if_neg (by simp [hup])]
  rfl

theorem refresh_refreshes (hup : s.chanUp c = true) (ht : s.refresh c pc taps = t) : Refreshed s c pc t := by
  obtain ⟨k, hk⟩ : ∃ k, refreshedChan s c pc taps = k := ⟨_, rfl⟩
  have hopen : k.openRows = (s.chn c).openRows.filter fun e => e.1 / 16 != pc := by rw [← hk]; rfl
  have hreads : k.reads = (s.chn c).reads := by rw [← hk]; rfl
  have hwrites : k.writes = (s.chn c).writes := by rw [← hk]; rfl
  have heq := refresh_eq (taps := taps) (pc := pc) hup
  rw [hk] at heq
  rw [ht] at heq
  obtain ⟨u, hu⟩ : ∃ u, (s.setChn c k).inc (CHAN_REF c) = u := ⟨_, rfl⟩
  obtain ⟨v, hv⟩ : ∃ v, marginsDrawn u c taps = v := ⟨_, rfl⟩
  have hureg : regsBut [(CHAN_REF c).off] s u := by rw [← hu]; exact regsBut_trans (t := s.setChn c k) (fun _ _ => rfl) (regsBut_inc (by simp))
  have hvreg : regsBut [(CHAN_TRAIN_RD_MARGIN c).off] u v := by rw [← hv]; exact marginsDrawn_reg
  have hstat {f : Fld} (hf : f.off = (CHAN_STATUS c).off) : v.fld f = s.fld f := by
    rw [regsBut.fld hvreg (by rw [hf]; simp [CHAN_STATUS, CHAN_TRAIN_RD_MARGIN]), regsBut.fld hureg (by rw [hf]; simp [CHAN_STATUS, CHAN_REF])]
  rw [hu, hv] at heq
  have huparts : only [.chan, .regs] s u := by rw [← hu]; exact only_trans (only_mono (by simp) (only_setChn _ _)) (only_mono (by simp) only_inc)
  have hvparts : only [.regs, .free] u v := by rw [← hv]; exact marginsDrawn_only
  have htparts : only [.regs, .free] u t := by rw [heq]; exact only_trans hvparts (only_mono (by simp) (only_set _ _))
  have hchn : t.chn c = k := by
    rw [chn_congr (htparts .chan (by decide)), ← hu, chn_congr (s := s.setChn c k) (only_inc .chan (by decide)), chn_setChn_same]
  exact {
    closed := by rw [hchn, hopen]
    counted := by
      rw [heq, reg_set_ne _ (by simp only [CHAN_REF, CHAN_STATUS_REF_RATE]; omega), hvreg _ (by simp [CHAN_REF, CHAN_TRAIN_RD_MARGIN]), ← hu, reg_inc_word rfl rfl]
      rfl
    faster := by
      rw [heq, refRate_set _ refTarget_le, hstat (f := CHAN_STATUS_REF_RATE c) rfl]
      omega
    state := by
      rw [heq, fld_set_apart (f := CHAN_STATUS_REF_RATE c) ⟨(by decide : 22 ≤ 23), (by decide : 23 < 32)⟩ (.inr (.inr (by decide : 3 < 22))), hstat (f := CHAN_STATUS_STATE c) rfl]
    reads := by rw [hchn, hreads]
    writes := by rw [hchn, hwrites]
    parts := only_trans (only_mono (by simp) huparts) (only_mono (by simp) htparts) }

end Sys2Proof.Proofs
end

section
/-! The channel controller (R243, R246 to R248, R257, R284, R377): the obligation on its commands. -/

namespace Sys2Proof.Proofs

set_option Elab.async false

open Sys2Proof.Machine Sys2Proof.Laws

variable {s t u : State} {c : Nat} {l : Nat}

theorem chanReg_apart {o : Nat} (h : 0x60000 ≤ o) : ¬ recReg o := by
  have hoff : REC_FOLDS.off < 0x60000 := by decide
  intro hr
  rcases hr with hr | ⟨_, hr⟩ <;> omega

/-! ## Refreshes -/

theorem refreshDue_runs {c : BitVec 5} {pc : BitVec 1} {taps : List Bool} (hc : c.toNat < s.nChans) (hawake : s.awake = true) (hup : s.chanUp c.toNat = true)
    (ht : (outOfPowerDown s c.toNat).refresh c.toNat pc.toNat taps = t) :
    ∃ u, exec (.refreshDue c pc taps) s = .next u ∧ Frame [.regs, .recd, .sett] recReg t u := by
  show ∃ u, execRefreshDue c pc taps s = .next u ∧ _
  rw [execRefreshDue]
  dsimp only
  rw [if_neg (by simp [hawake, hup, hc]), show (if s.fld (CHAN_STATUS_STATE c.toNat) = 3 then s.set (CHAN_STATUS_STATE c.toNat) 2 else s) = outOfPowerDown s c.toNat from rfl, ht]
  exact ⟨_, rfl, .ite (rateEvent_frame _ _) (.refl _ _ _)⟩

/-- A refresh that is due (R246, R248). -/
theorem refreshDue_refreshes {c : BitVec 5} {pc : BitVec 1} {taps : List Bool} (hc : c.toNat < s.nChans) (hawake : s.awake = true) (hup : s.chanUp c.toNat = true) :
    ∃ t, exec (.refreshDue c pc taps) s = .next t ∧ (t.chn c.toNat).openRows = (s.chn c.toNat).openRows.filter (fun e => e.1 / 16 != pc.toNat)
      ∧ t.reg (CHAN_REF c.toNat).off = (s.reg (CHAN_REF c.toNat).off + 1) % 2 ^ 32 ∧ s.fld (CHAN_STATUS_REF_RATE c.toNat) ≤ t.fld (CHAN_STATUS_REF_RATE c.toNat)
      ∧ t.fld (CHAN_STATUS_STATE c.toNat) = (if s.fld (CHAN_STATUS_STATE c.toNat) = 3 then 2 else s.fld (CHAN_STATUS_STATE c.toNat))
      ∧ (t.chn c.toNat).reads = (s.chn c.toNat).reads ∧ (t.chn c.toNat).writes = (s.chn c.toNat).writes ∧ only [.chan, .regs, .free, .recd, .sett] s t := by
  obtain ⟨v, hv⟩ : ∃ v, (outOfPowerDown s c.toNat).refresh c.toNat pc.toNat taps = v := ⟨_, rfl⟩
  obtain ⟨t, hrun, hframe⟩ := refreshDue_runs hc hawake hup hv
  obtain ⟨hclosed, hcounted, hfaster, hstate, hreads, hwrites, hparts⟩ := refresh_refreshes (outOfPowerDown_up hup) hv
  have hchn : t.chn c.toNat = v.chn c.toNat := chn_congr (hframe.parts .chan (by decide)) _
  have hchn0 : (outOfPowerDown s c.toNat).chn c.toNat = s.chn c.toNat := chn_congr (outOfPowerDown_only .chan (by decide)) _
  have hfld {f : Fld} (hf : f.off = (CHAN_STATUS c.toNat).off) : t.fld f = v.fld f := hframe.fld (by rw [hf]; exact chanStatus_apart)
  refine ⟨t, hrun, ?_, ?_, ?_, ?_, ?_, ?_, ?_⟩
  · rw [hchn, hclosed, hchn0]
  · rw [hframe.reg _ (chanReg_apart (by simp only [CHAN_REF]; omega)), hcounted, outOfPowerDown_reg _ (by simp [CHAN_REF, CHAN_STATUS])]
  · rw [hfld (f := CHAN_STATUS_REF_RATE c.toNat) rfl, ← outOfPowerDown_fld (f := CHAN_STATUS_REF_RATE c.toNat) (by decide : 3 < 22)]
    exact hfaster
  · rw [hfld (f := CHAN_STATUS_STATE c.toNat) rfl, hstate, outOfPowerDown_state]
  · rw [hchn, hreads, hchn0]
  · rw [hchn, hwrites, hchn0]
  · exact only_trans (only_mono (by simp) outOfPowerDown_only) (only_trans (only_mono (by simp) hparts) (only_mono (by simp) hframe.parts))

/-! ## Power-down -/

/-- A channel with nothing queued powers down (R248). -/
theorem powerDown_enters {c : BitVec 5} (hc : c.toNat < s.nChans) (hawake : s.awake = true) (hst : s.fld (CHAN_STATUS_STATE c.toNat) = 2)
    (hreads : (s.chn c.toNat).reads = []) (hwrites : (s.chn c.toNat).writes = []) (hwaits : (s.chn c.toNat).waits = [])
    (hidle : s.sleep = 1 ∨ s.fld (CHAN_REF_CFG_PD_IDLE c.toNat) ≠ 0) :
    ∃ t, exec (.powerDownEntry c) s = .next t ∧ t.fld (CHAN_STATUS_STATE c.toNat) = 3 ∧ t.fld (CHAN_STATUS_FENCED c.toNat) = s.fld (CHAN_STATUS_FENCED c.toNat)
      ∧ regsBut [(CHAN_STATUS c.toNat).off] s t ∧ only [.regs] s t := by
  refine ⟨s.set (CHAN_STATUS_STATE c.toNat) 3, ?_, ?_, ?_, regsBut_set (by simp [CHAN_STATUS, CHAN_STATUS_STATE]), only_set _ _⟩
  · show execPowerDownEntry c s = _
    rw [execPowerDownEntry]
    rw [if_pos (by simpa [hawake, hc, hst, hreads, hwrites, hwaits] using hidle)]
  · exact fld_set_same s (f := CHAN_STATUS_STATE c.toNat) (Nat.zero_le 3) (by decide : 3 < 32) _
  · exact fld_set_apart (f := CHAN_STATUS_STATE c.toNat) ⟨Nat.zero_le 3, (by decide : 3 < 32)⟩ (.inr (.inl (by decide : 3 < 16)))

/-! ## The rate falls -/

/-- The rate that a layer's readings allow (R246). -/
def rateAllowed (ts : List Int) : Nat := if ∀ x ∈ ts, x ≤ 332 then 0 else if ∀ x ∈ ts, x ≤ 372 then 1 else 2

/-- A channel's rate falls to what is allowed. -/
def rateLowered (allow : Nat) (u : State) (c : Nat) : State := u.set (CHAN_STATUS_REF_RATE c) (min (u.fld (CHAN_STATUS_REF_RATE c)) allow)

theorem rateLowered_same (allow : Nat) : (rateLowered allow s c).fld (CHAN_STATUS_REF_RATE c) = min (s.fld (CHAN_STATUS_REF_RATE c)) allow := by
  have hlt : s.fld (CHAN_STATUS_REF_RATE c) < 4 := fld_lt s (CHAN_STATUS_REF_RATE c)
  exact fld_set_fits (f := CHAN_STATUS_REF_RATE c) (by decide : 22 ≤ 23) (by decide : 23 < 32) (show _ < 2 ^ 2 by omega)

theorem rateLowered_ne (allow : Nat) {d : Nat} (h : d ≠ c) : (rateLowered allow s c).fld (CHAN_STATUS_REF_RATE d) = s.fld (CHAN_STATUS_REF_RATE d) :=
  fld_set_ne s (by simp only [CHAN_STATUS_REF_RATE]; omega) _

theorem layer_lowered (allow : Nat) : ∀ d ∈ layerChans l, (s.each (layerChans l) (rateLowered allow)).fld (CHAN_STATUS_REF_RATE d) = min (s.fld (CHAN_STATUS_REF_RATE d)) allow := by
  intro d hd
  show (rateLowered allow (rateLowered allow s (2 * (l - 2))) (2 * (l - 2) + 1)).fld (CHAN_STATUS_REF_RATE d) = _
  simp only [layerChans, List.mem_cons, List.not_mem_nil, or_false] at hd
  rcases hd with rfl | rfl
  · rw [rateLowered_ne _ (by omega), rateLowered_same]
  · rw [rateLowered_same, rateLowered_ne _ (by omega)]

/-- The rate of a layer falls to what its readings allow (R246). -/
theorem refRate_falls {l : BitVec 5} (hlow : 2 ≤ l.toNat) (htop : l.toNat ≤ s.topLayer) (hlive : s.live = true) :
    ∃ t, exec (.refRateLower l) s = .next t ∧ ∀ d ∈ layerChans l.toNat, t.fld (CHAN_STATUS_REF_RATE d) = min (s.fld (CHAN_STATUS_REF_RATE d)) (rateAllowed (s.layerTemps l.toNat)) := by
  have hallow : (if (s.layerTemps l.toNat).all fun t => decide (t ≤ 332) then 0 else if (s.layerTemps l.toNat).all fun t => decide (t ≤ 372) then 1 else 2)
      = rateAllowed (s.layerTemps l.toNat) := by
    simp only [rateAllowed, List.all_eq_true, decide_eq_true_eq]
  have hrun : ∃ t, exec (.refRateLower l) s = .next t ∧ Frame [.regs, .recd, .sett] recReg (s.each (layerChans l.toNat) (rateLowered (rateAllowed (s.layerTemps l.toNat)))) t := by
    show ∃ t, execRefRateLower l s = .next t ∧ _
    rw [execRefRateLower]
    dsimp only
    rw [if_neg (by simp [hlive, State.layerOn, hlow, htop]), hallow]
    exact ⟨_, rfl, .ite (rateEvent_frame _ _) (.refl _ _ _)⟩
  obtain ⟨t, ht, hframe⟩ := hrun
  exact ⟨t, ht, fun d hd => (hframe.fld (f := CHAN_STATUS_REF_RATE d) (chanStatus_apart (c := d))).trans (layer_lowered _ d hd)⟩

/-- Settles O16: a cycle sends its word and issues the refresh or the activate that the queues call for; the other commands are carried out on
the one channel or layer they name. -/
theorem controllerCommands : Obligations.ControllerCommands := by
  unfold Obligations.ControllerCommands
  intro c s hc hcalm
  refine ⟨fun pc draw hawake hrun => ⟨fun e hdue => ?_, fun k q hdue hwin hfast hst hk hq hclosed => ?_⟩, fun err i r d p u hawake hrun hfirst hread hu => ?_,
    fun w own hone hfits => ?_, fun pc taps hawake hup => ?_, fun hawake hst hreads hwrites hwaits hidle => ?_, fun l hlow htop hlive => ?_⟩
  · exact cycle_nref hc hcalm hawake hrun hdue
  · exact cycle_activates hc hcalm hawake hrun hdue hwin hfast hst hk hq hclosed
  · exact read_arrives hawake hrun hfirst hread hu
  · exact entryFreed_grants hone hfits
  · exact refreshDue_refreshes hc hawake hup
  · exact powerDown_enters hc hawake hst hreads hwrites hwaits hidle
  · exact refRate_falls hlow htop hlive

end Sys2Proof.Proofs
end

section
/-! SUPPORT. The registers of the clock unit (R46 to R51): what leaves them alone, what a change of MGT's source writes, and what follows a
clock failure that forces. -/

namespace Sys2Proof.Proofs

set_option Elab.async false

open Sys2Proof.Machine Sys2Proof.Laws

variable {s t u : State} {o v : Nat} {g : Fld}

/-! ## What leaves the registers of the clock unit alone -/

/-- The registers from the clock unit up to the status of block resets: the clock unit shows sources, PLLs, its monitor and its counters there. -/
def clkReg (o : Nat) : Prop := 0x1000 ≤ o ∧ o < 0x2018

/-- The registers of the clock unit are as before. -/
def clkSame (s t : State) : Prop := ∀ o, clkReg o → t.reg o = s.reg o

theorem clkSame_refl (s : State) : clkSame s s := fun _ _ => rfl

theorem clkSame.trans (h : clkSame s t) (h' : clkSame t u) : clkSame s u := fun o ho => (h' o ho).trans (h o ho)

theorem clkSame_ite {p : Prop} [Decidable p] (ht : clkSame s t) (hu : clkSame s u) : clkSame s (if p then t else u) := by
  split
  · exact ht
  · exact hu

theorem clkSame_of_regs (h : t.regs = s.regs) : clkSame s t := fun o _ => reg_congr h o

theorem clkSame_of_only {l : List Part} (h : only l s t) (hl : Part.regs ∉ l) : clkSame s t := clkSame_of_regs (h .regs hl)

theorem clkSame_of_frame {l : List Part} {r : Nat → Prop} (h : Frame l r s t) (hr : ∀ o, clkReg o → ¬ r o) : clkSame s t := fun o ho => h.reg o (hr o ho)

theorem clkSame_set {f : Fld} (h : ¬ clkReg f.off) : clkSame s (s.set f v) := fun _ ho => reg_set_ne s (fun he => h (he ▸ ho)) _

theorem clkSame_sets {fs : List (Fld × Nat)} (h : ∀ x ∈ fs, ¬ clkReg x.1.off) : clkSame s (s.sets fs) :=
  clkSame_of_frame (l := [.regs]) (r := fun o => ¬ clkReg o) (.sets (by simp) h) fun _ ho hn => hn ho

theorem clkSame_each {α : Type} {xs : List α} {f : State → α → State} (h : ∀ x a, clkSame x (f x a)) : clkSame s (s.each xs f) :=
  each_keeps (P := clkSame s) (clkSame_refl s) fun x _ hx => hx.trans (h x _)

theorem clkSame.fld (h : clkSame s t) (hg : clkReg g.off) : t.fld g = s.fld g := by rw [State.fld, State.fld, h _ hg]

theorem clkSame_raiseRec {f : FltCause} {unit detail : Nat} {inj : Bool} : clkSame s (s.raiseRec f unit detail inj) :=
  clkSame_of_frame raiseRec_frame fun _ ho hr => by
    have h1 : ∀ x, clkReg x → ¬ faultReg x := by
      intro x ⟨hlow, hhigh⟩
      simp only [faultReg, recReg, packetReg, REC_FOLDS, RT_UNREACH, RT_CNT_VIOL_ROUTE, RT_HOPS_EXCEEDED, GLB_CNT_VIOL_MALFORMED, RT_WAIT_EXPIRED, RT_DROP, FLT_RAISED_LO,
        FLT_MERGED, FLT_ALARMS_SENT, FLT_ALARMS_FOLDED]
      omega
    exact h1 _ ho hr

theorem not_clkReg_packet (ho : clkReg o) : ¬ packetReg o := by
  obtain ⟨hlow, hhigh⟩ := ho
  simp only [packetReg, RT_UNREACH, RT_CNT_VIOL_ROUTE, RT_HOPS_EXCEEDED, GLB_CNT_VIOL_MALFORMED, RT_WAIT_EXPIRED, RT_DROP]
  omega

/-! ## Answers and wakes -/

theorem clkSame_mgmtDone (job : Nat) (st : BitVec 8) (res : List (BitVec 8)) : clkSame s (s.mgmtDone job st res) := fun o ho => by
  obtain ⟨hlow, hhigh⟩ := ho
  exact mgmtDone_reg (by simp only [RING_STATUS]; omega)

theorem not_clkReg_viol : ¬ clkReg (violReg 0 .state) := by unfold clkReg; decide

theorem clkSame_sleepAnswer (a : Asker) (st : BitVec 8) : clkSame s (s.sleepAnswer a st) := by
  have hviol : ∀ x : State, clkSame x (x.viol 0 .state) := fun x o ho => reg_viol_ne (fun he => not_clkReg_viol (he ▸ ho))
  have hpay : ∀ (x : State) (off : Nat) (st : BitVec 8), clkSame x (x.payOwed off st) := fun x off st => by
    refine clkSame.trans (clkSame_of_regs rfl) (clkSame_each fun y e => ?_)
    have hstatus : clkSame y (y.pathStatus e.via st) := clkSame_of_regs (by simp)
    split
    · exact hstatus.trans (clkSame_of_frame (sends_emitRsp _ _) fun _ => not_clkReg_packet)
    · exact hstatus
  cases a with
  | ring0 =>
    refine clkSame_each fun x m => clkSame_ite ?_ (clkSame_mgmtDone _ _ _)
    rw [State.mgmtRefuse]
    refine clkSame.trans (clkSame_ite (clkSame_set ?_) (hviol x)) (clkSame_mgmtDone _ _ _)
    unfold clkReg
    decide
  | reg _ => exact clkSame_ite ((hviol s).trans (hpay _ _ _)) (hpay _ _ _)

theorem clkSame_sleepStep2 : clkSame s s.sleepStep2 := by
  unfold State.sleepStep2
  split
  · exact clkSame_refl _
  · exact clkSame_ite (clkSame_refl _) (clkSame.trans (clkSame_of_regs rfl) (clkSame_sleepAnswer _ _))

theorem clkSame_abandonEntry (e : SleepEntry) : clkSame s (s.abandonEntry e) := by
  have hsets : ∀ x : State, clkSame x (x.sets [(GLB_PWR_STATUS_TARGET, 0), (GLB_PWR_CTL_WAKE, 0)]) := fun x =>
    clkSame_sets (by simp [clkReg, GLB_PWR_STATUS_TARGET, GLB_PWR_CTL_WAKE])
  exact clkSame.trans (clkSame.trans (t := { s with pwr := { s.pwr with entry := none } }) (clkSame_of_regs rfl) (hsets _)) (clkSame_sleepAnswer _ _)

theorem clkSame_wakeS2 : clkSame s s.wakeS2 := by
  have hup : clkSame s s.channelsUp := clkSame_each fun x c => clkSame_ite (clkSame_refl _) (clkSame_set (by simp only [clkReg, CHAN_STATUS_STATE]; omega))
  have hback : ∀ x : State, clkSame x x.awoken := fun x => by
    rw [State.awoken]
    have hsets : clkSame x (({ x with pwr := { x.pwr with waking := false, wakeTimer := 0 } } : State).sets [(GLB_PWR_STATUS_STATE, 0), (GLB_PWR_CTL_WAKE, 0)]) :=
      clkSame.trans (clkSame_of_regs rfl) (clkSame_sets (by simp [clkReg, GLB_PWR_STATUS_STATE, GLB_PWR_CTL_WAKE]))
    exact (hsets.trans (clkSame_set (by simp [clkReg, GLB_PWR_STATUS_WAKE_COUNT]))).trans (clkSame_of_only startTimers_only (by simp))
  exact hup.trans (hback _)

/-- A wake leaves the clock unit alone, or starts its clocks anew. -/
theorem wake_clocks (cause : Nat) : clkSame s (s.wake cause) ∨ regsBut [CLK_SRC_STATUS.off, CLK_PLL_STATUS.off, GLB_PWR_STATUS.off] s (s.wake cause)
    ∧ (s.wake cause).reg CLK_SRC_STATUS.off = 0 ∧ (s.wake cause).reg CLK_PLL_STATUS.off = 0 := by
  have hctl : ∀ x : State, clkSame x (x.set GLB_PWR_CTL_WAKE 0) := fun x => clkSame_set (by simp [clkReg, GLB_PWR_CTL_WAKE])
  unfold State.wake
  split
  next e _ =>
    refine .inl (clkSame_ite (clkSame_refl _) (clkSame_ite (clkSame_ite (clkSame_refl _) (clkSame_of_regs rfl)) (clkSame_abandonEntry e)))
  next =>
    split
    · exact .inl (hctl s)
    · split
      · exact .inl ((clkSame_set (by simp [clkReg, GLB_PWR_STATUS_STATE])).trans (hctl _))
      · split
        · exact .inl (clkSame_refl s)
        · have hset : clkSame s (s.set GLB_PWR_STATUS_WAKE_CAUSE cause) := clkSame_set (by simp [clkReg, GLB_PWR_STATUS_WAKE_CAUSE])
          dsimp only
          split
          · exact .inl (hset.trans clkSame_wakeS2)
          · refine .inr ⟨?_, clockStart_src, clockStart_pll⟩
            have hregs : regsBut [CLK_SRC_STATUS.off, CLK_PLL_STATUS.off, GLB_PWR_STATUS.off] s (s.set GLB_PWR_STATUS_WAKE_CAUSE cause) := regsBut_set (by decide)
            exact regsBut_trans (regsBut_trans hregs (regsBut_mono (by simp) clockStart_regs)) (regsBut_of_regs rfl)

end Sys2Proof.Proofs
end

section
/-! SUPPORT. What follows a clock failure that forces (R46, R48, R50): the monitor's flags stand, what is unqualified stays so, and forcing holds. -/

namespace Sys2Proof.Proofs

set_option Elab.async false

open Sys2Proof.Machine Sys2Proof.Laws

variable {s t u : State} {f g : Fld} {n : Nat}

/-! ## What stands after a clock failure -/

/-- What no consequence of a clock failure takes back: the flags of the monitor, sources and PLLs that are not qualified, and forcing. -/
structure ClocksShown (s t : State) : Prop where
  flag : ∀ f : Fld, f.off = CLK_MON_STATUS.off → f.lo = f.hi → f.hi < 32 → s.fld f = 1 → t.fld f = 1
  low : ∀ f : Fld, f.off = CLK_SRC_STATUS.off ∨ f.off = CLK_PLL_STATUS.off → s.fld f = 0 → t.fld f = 0
  forcing : s.start.forcing = true → t.start.forcing = true
  hold : t.start.slowHold = s.start.slowHold
  grave : s.start.grave = true → t.start.grave = true

theorem ClocksShown.trans (h : ClocksShown s t) (h' : ClocksShown t u) : ClocksShown s u where
  flag f hf hlo hhi hs := h'.flag f hf hlo hhi (h.flag f hf hlo hhi hs)
  low f hf hs := h'.low f hf (h.low f hf hs)
  forcing hs := h'.forcing (h.forcing hs)
  hold := h'.hold.trans h.hold
  grave hs := h'.grave (h.grave hs)

theorem ClocksShown.of_same (h : clkSame s t) (hstart : t.start = s.start) : ClocksShown s t where
  flag f hf _ _ hs := by rw [h.fld (by rw [hf]; unfold clkReg; decide)]; exact hs
  low f hf hs := by rw [h.fld (by rcases hf with hf | hf <;> rw [hf] <;> unfold clkReg <;> decide)]; exact hs
  forcing hs := by rw [hstart]; exact hs
  hold := by rw [hstart]
  grave hs := by rw [hstart]; exact hs

theorem ClocksShown.refl (s : State) : ClocksShown s s := .of_same (clkSame_refl s) rfl

theorem ClocksShown.ite {p : Prop} [Decidable p] (ht : ClocksShown s t) (hu : ClocksShown s u) : ClocksShown s (if p then t else u) := by
  split
  · exact ht
  · exact hu

/-! ## A flag of the monitor -/

theorem fld_flag_same (hlo : f.lo = f.hi) (hhi : f.hi < 32) : (s.set f 1).fld f = 1 := by
  rw [fld_set_same s (by omega) hhi, hlo, Nat.add_sub_cancel_left]
  rfl

/-- A flag that stands is not cleared by another one. -/
theorem fld_flag_stands (hf : f.lo = f.hi) (hf' : f.hi < 32) (hg : g.lo = g.hi) (hs : s.fld g = 1) : (s.set f 1).fld g = 1 := by
  by_cases happ : Apart g f
  · rw [fld_set_apart ⟨by omega, hf'⟩ happ, hs]
  · have heq : g = f := by
      simp only [Apart, not_or, not_not, Nat.not_lt] at happ
      obtain ⟨hoff, h1, h2⟩ := happ
      cases f
      cases g
      simp only [Fld.mk.injEq] at *
      omega
    rw [heq, fld_flag_same hf hf']

theorem clocksShown_flag (hoff : f.off = CLK_MON_STATUS.off) (hlo : f.lo = f.hi) (hhi : f.hi < 32) : ClocksShown s (s.set f 1) where
  flag _ _ hg _ hs := fld_flag_stands hlo hhi hg hs
  low g hg hs := by
    rw [fld_set_ne s (by rw [hoff]; rcases hg with hg | hg <;> rw [hg] <;> decide)]
    exact hs
  forcing := id
  hold := rfl
  grave := id

/-! ## Forcing and the grave safe state -/

theorem clkReg_layer {o : Nat} (ho : clkReg o) : ¬ layerReg o := by
  rintro ⟨n, hn, rfl⟩
  obtain ⟨-, hhigh⟩ := ho
  omega

theorem clkReg_pairs {o : Nat} (ho : clkReg o) : o ∉ [RT_BYP_STATUS.off, RT_BYP_OPEN.off, RT_BYP_CLOSES.off] := by
  obtain ⟨hlow, hhigh⟩ := ho
  simp only [RT_BYP_STATUS, RT_BYP_OPEN, RT_BYP_CLOSES, List.mem_cons, List.not_mem_nil, or_false]
  omega

theorem forcedOff_clocks : clkSame s (forcedOff s) := fun _ ho => forcedOff_reg (clkReg_layer ho) (clkReg_pairs ho)

theorem forcedOff_start : (forcedOff s).start.forcing = s.start.forcing ∧ (forcedOff s).start.slowHold = s.start.slowHold ∧ (forcedOff s).start.grave = s.start.grave := by
  have hstart : (forcedOff s).start = s.stopHeartbeats.freezeMarl.start := by
    rw [forcedOff, dropTraffic_only .start (by decide), squelchAll_only .start (by decide)]
  rw [hstart, freezeMarl_start, stopHeartbeats_start]
  exact ⟨rfl, rfl, rfl⟩

theorem forcingHeld_forcing : (forcingHeld s).start.forcing = true := rfl

/-- The stack is forced, before its flags are set (R48). -/
theorem clocksShown_forcingHeld : ClocksShown s (forcingHeld (forcedOff s)) := by
  have hregs : clkSame s (forcedOff s) := forcedOff_clocks
  obtain ⟨hforcing, hhold, hgrave⟩ := forcedOff_start (s := s)
  generalize forcedOff s = u at hregs hforcing hhold hgrave
  have hsame : clkSame s (forcingHeld u) := hregs.trans (clkSame_of_regs rfl)
  exact {
    flag := fun f hf _ _ hs => by rw [hsame.fld (by rw [hf]; unfold clkReg; decide)]; exact hs
    low := fun f hf hs => by rw [hsame.fld (by rcases hf with hf | hf <;> rw [hf] <;> unfold clkReg <;> decide)]; exact hs
    forcing := fun _ => rfl
    hold := hhold
    grave := fun hs => hgrave.trans hs }

theorem force_some_eq (cause : Fld) : s.force (some cause) = ((forcingHeld (forcedOff s)).set CLK_MON_STATUS_FORCED_SAFE 1).set cause 1 := rfl

theorem force_none_eq' : s.force none = (forcingHeld (forcedOff s)).set CLK_MON_STATUS_FORCED_SAFE 1 := rfl

/-- What forcing with a cause shows (R48). -/
theorem force_shows (hoff : f.off = CLK_MON_STATUS.off) (hlo : f.lo = f.hi) (hhi : f.hi < 32) :
    ClocksShown s (s.force (some f)) ∧ (s.force (some f)).fld f = 1 ∧ (s.force (some f)).fld CLK_MON_STATUS_FORCED_SAFE = 1 ∧ (s.force (some f)).start.forcing = true := by
  rw [force_some_eq]
  have hheld : ClocksShown s (forcingHeld (forcedOff s)) := clocksShown_forcingHeld
  have hforcing : (forcingHeld (forcedOff s)).start.forcing = true := forcingHeld_forcing
  generalize forcingHeld (forcedOff s) = u at hheld hforcing
  have hsafe : (u.set CLK_MON_STATUS_FORCED_SAFE 1).fld CLK_MON_STATUS_FORCED_SAFE = 1 := fld_flag_same (f := CLK_MON_STATUS_FORCED_SAFE) rfl (by decide)
  have hshown : ClocksShown u (u.set CLK_MON_STATUS_FORCED_SAFE 1) := clocksShown_flag rfl rfl (by decide)
  have hstart : ((u.set CLK_MON_STATUS_FORCED_SAFE 1).set f 1).start = u.start := by rw [set_start, set_start]
  generalize u.set CLK_MON_STATUS_FORCED_SAFE 1 = v at hsafe hshown hstart
  exact ⟨hheld.trans (hshown.trans (clocksShown_flag hoff hlo hhi)), fld_flag_same hlo hhi, fld_flag_stands hlo hhi rfl hsafe, by rw [hstart]; exact hforcing⟩

theorem force_none_shows : ClocksShown s (s.force none) ∧ (s.force none).fld CLK_MON_STATUS_FORCED_SAFE = 1 ∧ (s.force none).start.forcing = true := by
  rw [force_none_eq']
  have hheld : ClocksShown s (forcingHeld (forcedOff s)) := clocksShown_forcingHeld
  have hforcing : (forcingHeld (forcedOff s)).start.forcing = true := forcingHeld_forcing
  generalize forcingHeld (forcedOff s) = u at hheld hforcing
  exact ⟨hheld.trans (clocksShown_flag rfl rfl (by decide)), fld_flag_same rfl (by decide), hforcing⟩

theorem graveHeld_shows : ClocksShown s (graveHeld s) := ⟨fun _ _ _ _ h => h, fun _ _ h => h, id, rfl, fun _ => rfl⟩

theorem enterGrave_shows : ClocksShown s s.enterGrave := by
  rw [enterGrave_eq]
  exact .ite (.refl s) (force_none_shows.1.trans graveHeld_shows)

/-! ## What follows at once -/

theorem wake_shows (cause : Nat) : ClocksShown s (s.wake cause) := by
  have hstart : (s.wake cause).start = s.start := wake_only cause .start (by decide)
  rcases wake_clocks (s := s) cause with h | ⟨hregs, hsrc, hpll⟩
  · exact .of_same h hstart
  · exact {
      flag := fun f hf _ _ hs => by rw [regsBut.fld hregs (by rw [hf]; decide)]; exact hs
      low := fun f hf _ => by
        have hword : (s.wake cause).reg f.off = 0 := by rcases hf with hf | hf <;> rw [hf] <;> assumption
        rw [State.fld, hword, bitsOf, Nat.zero_div, Nat.zero_mod]
      forcing := fun hs => by rw [hstart]; exact hs
      hold := by rw [hstart]
      grave := fun hs => by rw [hstart]; exact hs }

theorem settle_shows : ClocksShown s s.settle := by
  have hdue : ClocksShown s (dueTaken s) := by
    unfold dueTaken
    exact .ite (ClocksShown.trans (t := wakeNoted s) (.of_same (clkSame_of_regs rfl) rfl) (wake_shows 4)) (.refl s)
  have hstep := hdue.trans (.of_same clkSame_sleepStep2 (sleepStep2_only .start (by decide)))
  rw [settle_eq]
  exact .ite (hstep.trans enterGrave_shows) hstep

theorem raiseRec_shows {c : FltCause} {unit detail : Nat} {inj : Bool} : ClocksShown s (s.raiseRec c unit detail inj) :=
  .of_same clkSame_raiseRec (raiseRec_frame.parts .start (by decide))

/-! ## The source of MGT (R46, R50, R51) -/

/-- A change of MGT's source: MGT_SRC, the switch that runs, and the step of clock start. -/
structure MgtMoved (s t : State) : Prop where
  regs : regsBut [CLK_SRC_STATUS.off] s t
  src : ∀ f : Fld, Apart f CLK_SRC_STATUS_MGT_SRC → t.fld f = s.fld f
  clk : ∃ a b, t.clk = { s.clk with switchTo := a, p2Step := b }
  parts : only [.clk, .regs] s t

theorem MgtMoved.refl (s : State) : MgtMoved s s := ⟨regsBut_refl _ _, fun _ _ => rfl, ⟨s.clk.switchTo, s.clk.p2Step, rfl⟩, only_refl _ _⟩

theorem MgtMoved.trans (h : MgtMoved s t) (h' : MgtMoved t u) : MgtMoved s u := by
  obtain ⟨a, b, hclk⟩ := h.clk
  obtain ⟨a', b', hclk'⟩ := h'.clk
  exact ⟨regsBut_trans h.regs h'.regs, fun f hf => (h'.src f hf).trans (h.src f hf), ⟨a', b', by rw [hclk', hclk]⟩, only_trans h.parts h'.parts⟩

theorem MgtMoved.ite {p : Prop} [Decidable p] (ht : MgtMoved s t) (hu : MgtMoved s u) : MgtMoved s (if p then t else u) := by
  split
  · exact ht
  · exact hu

theorem mgtMoved_clk (a : Option Nat) (b : Nat) : MgtMoved s { s with clk := { s.clk with switchTo := a, p2Step := b } } :=
  ⟨fun _ _ => rfl, fun _ _ => rfl, ⟨a, b, rfl⟩, only_mono (by simp) (only_clk _)⟩

theorem mgtMoved_src (v : Nat) : MgtMoved s (s.set CLK_SRC_STATUS_MGT_SRC v) :=
  ⟨regsBut_set (by decide), fun _ hf => fld_set_apart ⟨by decide, by decide⟩ hf, ⟨s.clk.switchTo, s.clk.p2Step, rfl⟩, only_mono (by simp) (only_set _ _)⟩

theorem mgtMoved_step : MgtMoved s (s.setStep n) := mgtMoved_clk s.clk.switchTo _

theorem mgtMoved_mgtFrom : MgtMoved s (s.mgtFrom n) := by
  have hset : MgtMoved s (({ s with clk := { s.clk with switchTo := none } } : State).set CLK_SRC_STATUS_MGT_SRC n) := (mgtMoved_clk none s.clk.p2Step).trans (mgtMoved_src n)
  exact .ite (hset.trans mgtMoved_step) hset

theorem mgtMoved_switchMgt : MgtMoved s (s.switchMgt n) := .ite mgtMoved_mgtFrom (mgtMoved_clk (some n) s.clk.p2Step)

theorem mgtMoved_fallBack : MgtMoved s s.fallBack :=
  .ite mgtMoved_switchMgt (.ite mgtMoved_switchMgt ((mgtMoved_clk none s.clk.p2Step).trans (mgtMoved_src 0)))

theorem mgtMoved_cancelSwitch : MgtMoved s s.cancelSwitch := .ite ((mgtMoved_src 0).trans mgtMoved_fallBack) (.refl s)

theorem MgtMoved.phase (h : MgtMoved s t) : t.phase = s.phase := h.src _ (.inl (by decide))

theorem MgtMoved.calm (h : MgtMoved s t) : t.calm = s.calm := calm_of (h.parts .pwr (by decide)) (h.parts .flt (by decide))

/-- A flag or a field apart from MGT_SRC is left alone, and so is forcing. -/
theorem MgtMoved.start (h : MgtMoved s t) : t.start = s.start := h.parts .start (by decide)

/-! ## A clock failure that forces -/

theorem retryFrc_regs : s.retryFrc.regs = s.regs ∧ s.retryFrc.start = s.start := by
  unfold State.retryFrc
  split <;> exact ⟨rfl, rfl⟩

/-- What a clock failure that forces shows: its flag, forcing, past P2 the grave safe state, and nothing qualified anew but MGT's source. -/
structure ClockFails (s : State) (f : Fld) (t : State) : Prop where
  flag : t.fld f = 1
  forced : t.fld CLK_MON_STATUS_FORCED_SAFE = 1
  forcing : t.start.forcing = true
  grave : 3 ≤ s.phase → t.start.grave = true
  low : ∀ g : Fld, Apart g CLK_SRC_STATUS_MGT_SRC → g.off = CLK_SRC_STATUS.off ∨ g.off = CLK_PLL_STATUS.off → s.fld g = 0 → t.fld g = 0

theorem clockLost_fails (hoff : f.off = CLK_MON_STATUS.off) (hlo : f.lo = f.hi) (hhi : f.hi < 32) : ClockFails s f (s.clockLost f) := by
  obtain ⟨hshow, hflag, hsafe, hforcing⟩ := force_shows (s := s) hoff hlo hhi
  obtain ⟨u, hu⟩ : ∃ u, s.force (some f) = u := ⟨_, rfl⟩
  rw [hu] at hshow hflag hsafe hforcing
  obtain ⟨v, hv⟩ : ∃ v, u.fallBack.retryFrc = v := ⟨_, rfl⟩
  have hback : MgtMoved u u.fallBack := mgtMoved_fallBack
  have hregs : ∀ g, Apart g CLK_SRC_STATUS_MGT_SRC → v.fld g = u.fld g := fun g hg => by rw [← hv, fld_congr retryFrc_regs.1, hback.src g hg]
  have hstart : v.start = u.start := by rw [← hv, retryFrc_regs.2, hback.start]
  have hv1 : v.fld f = 1 := (hregs f (.inl (by rw [hoff]; decide))).trans hflag
  have hv2 : v.fld CLK_MON_STATUS_FORCED_SAFE = 1 := (hregs _ (.inl (by decide))).trans hsafe
  have hv3 : v.start.forcing = true := by rw [hstart]; exact hforcing
  have hlow : ∀ g : Fld, Apart g CLK_SRC_STATUS_MGT_SRC → g.off = CLK_SRC_STATUS.off ∨ g.off = CLK_PLL_STATUS.off → s.fld g = 0 → v.fld g = 0 := fun g hg hoffs hs =>
    (hregs g hg).trans (hshow.low g hoffs hs)
  rw [State.clockLost, hu, hv]
  dsimp only
  split
  · exact ⟨hv1, hv2, hv3, fun _ => by omega, hlow⟩
  · have hall : ClocksShown v ((v.raiseRec .clockLost 0 (v.reg CLK_MON_STATUS.off)).enterGrave).settle := (raiseRec_shows.trans enterGrave_shows).trans settle_shows
    exact ⟨hall.flag f hoff hlo hhi hv1, hall.flag _ rfl rfl (by decide) hv2, hall.forcing hv3, fun _ => settle_keepsGrave enterGrave_grave,
      fun g hg hoffs hs => hall.low g hoffs (hlow g hg hoffs hs)⟩

end Sys2Proof.Proofs
end

section
/-! SUPPORT. The fast RC and its attempts (R43, R46). -/

namespace Sys2Proof.Proofs

set_option Elab.async false

open Sys2Proof.Machine Sys2Proof.Laws

variable {s t u : State} {n : Nat} {count : Option Nat}

/-! ## An attempt that passes (R43) -/

/-- The fast RC has passed: its flags, before MGT takes it. -/
def frcPassed (s : State) : State :=
  ({ s with clk := { s.clk with frcRunning := false } } : State).sets [(CLK_SRC_STATUS_FRC_OK, 1), (CLK_SRC_STATUS_FRC_FAILED, 0), (CLK_SRC_STATUS_FRC_TRIM_STEPS, s.clk.frcTries)]

theorem frcPassed_fields : (frcPassed s).fld CLK_SRC_STATUS_FRC_OK = 1 ∧ (frcPassed s).fld CLK_SRC_STATUS_FRC_FAILED = 0
    ∧ (frcPassed s).fld CLK_SRC_STATUS_FRC_TRIM_STEPS = s.clk.frcTries % 16 ∧ (frcPassed s).fld CLK_SRC_STATUS_MGT_SRC = s.fld CLK_SRC_STATUS_MGT_SRC := by
  refine ⟨?_, ?_, ?_, ?_⟩
  · exact fld_sets_reads [] ⟨by decide, by decide⟩ (by decide) (by simp [Proper, Apart, CLK_SRC_STATUS_FRC_OK, CLK_SRC_STATUS_FRC_FAILED, CLK_SRC_STATUS_FRC_TRIM_STEPS])
  · exact fld_sets_reads [(CLK_SRC_STATUS_FRC_OK, 1)] ⟨by decide, by decide⟩ (by decide) (by simp [Proper, Apart, CLK_SRC_STATUS_FRC_FAILED, CLK_SRC_STATUS_FRC_TRIM_STEPS])
  · exact fld_set_same _ (f := CLK_SRC_STATUS_FRC_TRIM_STEPS) (by decide) (by decide) _
  · exact fld_sets_apart (by simp [Proper, Apart, CLK_SRC_STATUS_FRC_OK, CLK_SRC_STATUS_FRC_FAILED, CLK_SRC_STATUS_FRC_TRIM_STEPS, CLK_SRC_STATUS_MGT_SRC])

theorem frcPassed_regs : regsBut [CLK_SRC_STATUS.off] s (frcPassed s) :=
  regsBut_trans (t := { s with clk := { s.clk with frcRunning := false } }) (fun _ _ => rfl)
    (regsBut_sets (by simp [CLK_SRC_STATUS_FRC_OK, CLK_SRC_STATUS_FRC_FAILED, CLK_SRC_STATUS_FRC_TRIM_STEPS, CLK_SRC_STATUS]))

theorem frcPassed_only : only [.clk, .regs] s (frcPassed s) :=
  only_trans (t := { s with clk := { s.clk with frcRunning := false } }) (only_mono (by simp) (only_clk _)) (only_mono (k := [.regs]) (by simp) (only_sets _))

theorem frcPassed_clk : (frcPassed s).clk = { s.clk with frcRunning := false } := by rw [frcPassed, sets_clk]

theorem setStep_regs : (s.setStep n).regs = s.regs := rfl

theorem setStep_clk : (s.setStep n).clk = { s.clk with p2Step := max s.clk.p2Step n } := rfl

theorem setStep_start : (s.setStep n).start = s.start := rfl

theorem setStep_fld (f : Fld) : (s.setStep n).fld f = s.fld f := fld_congr setStep_regs f

/-- From no clock at all MGT takes the fast RC at once. -/
theorem switchMgt_fromNone (h : s.fld CLK_SRC_STATUS_MGT_SRC = 0) : (s.switchMgt 1).fld CLK_SRC_STATUS_MGT_SRC = 1 ∧ (s.switchMgt 1).clk.p2Step = s.clk.p2Step := by
  rw [State.switchMgt, if_pos (.inr h), State.mgtFrom]
  dsimp only
  rw [if_neg (by decide), set_clk]
  exact ⟨fld_set_same _ (f := CLK_SRC_STATUS_MGT_SRC) (by decide) (by decide) 1, rfl⟩

theorem frc_passes (hrun : s.clk.frcRunning = true) (hvaon : s.rails.vaon = true) (hlow : 367188 ≤ n) (hhigh : n ≤ 414063) :
    ∃ t, exec (.frcAttemptEnd (some n)) s = .next t ∧ t.fld CLK_SRC_STATUS_FRC_OK = 1 ∧ t.fld CLK_SRC_STATUS_FRC_FAILED = 0 ∧ t.fld CLK_SRC_STATUS_FRC_TRIM_STEPS = s.clk.frcTries % 16
      ∧ t.fld CLK_SRC_STATUS_MGT_SRC = (if s.fld CLK_SRC_STATUS_MGT_SRC = 0 then 1 else s.fld CLK_SRC_STATUS_MGT_SRC) ∧ t.clk.frcRunning = false ∧ t.clk.p2Step = max s.clk.p2Step 3
      ∧ t.clk.frcTrim = s.clk.frcTrim ∧ regsBut [CLK_SRC_STATUS.off] s t ∧ only [.clk, .regs] s t := by
  obtain ⟨hok, hfailed, hsteps, hmgt⟩ := frcPassed_fields (s := s)
  have hexec : exec (.frcAttemptEnd (some n)) s = .next ((if (frcPassed s).fld CLK_SRC_STATUS_MGT_SRC = 0 then (frcPassed s).switchMgt 1 else frcPassed s).setStep 3) := by
    show execFrcAttemptEnd (some n) s = _
    rw [execFrcAttemptEnd, if_neg (by simp [hrun, hvaon])]
    dsimp only
    rw [if_pos (by simp [hlow, hhigh])]
    rfl
  have hregs := frcPassed_regs (s := s)
  have hparts := frcPassed_only (s := s)
  have hclk := frcPassed_clk (s := s)
  generalize frcPassed s = u at hok hfailed hsteps hmgt hexec hregs hparts hclk
  by_cases h0 : s.fld CLK_SRC_STATUS_MGT_SRC = 0
  · obtain ⟨hsrc, hstep⟩ := switchMgt_fromNone (hmgt.trans h0)
    have hmoved : MgtMoved u ((u.switchMgt 1).setStep 3) := mgtMoved_switchMgt.trans mgtMoved_step
    rw [if_pos (hmgt.trans h0)] at hexec
    refine ⟨_, hexec, ?_, ?_, ?_, ?_, ?_, ?_, ?_, regsBut_trans hregs hmoved.regs, only_trans hparts hmoved.parts⟩
    · rw [hmoved.src _ (.inr (.inl (by decide))), hok]
    · rw [hmoved.src _ (.inr (.inl (by decide))), hfailed]
    · rw [hmoved.src _ (.inr (.inl (by decide))), hsteps]
    · rw [if_pos h0]
      exact (setStep_fld _).trans hsrc
    · obtain ⟨a, b, hk⟩ := hmoved.clk
      rw [hk, hclk]
    · rw [setStep_clk, hstep, hclk]
    · obtain ⟨a, b, hk⟩ := hmoved.clk
      rw [hk, hclk]
  · rw [if_neg (by rw [hmgt]; exact h0)] at hexec
    refine ⟨_, hexec, (setStep_fld _).trans hok, (setStep_fld _).trans hfailed, (setStep_fld _).trans hsteps, ?_, ?_, ?_, ?_, regsBut_trans hregs (regsBut_of_regs setStep_regs),
      only_trans hparts mgtMoved_step.parts⟩
    · rw [if_neg h0]
      exact (setStep_fld _).trans hmgt
    · rw [setStep_clk, hclk]
    · rw [setStep_clk, hclk]
    · rw [setStep_clk, hclk]

/-! ## An attempt that fails -/

/-- A count that no attempt passes with. -/
def outside (count : Option Nat) : Prop := ∀ n, count = some n → n < 367188 ∨ 414063 < n

/-- The mark of a failed attempt. -/
def frcFailMarked (s : State) : State := ({ s with start := { s.start with frcFailSeen := true } } : State).set CLK_MON_STATUS_FRC_FAIL 1

theorem frcAttempt_fails (hrun : s.clk.frcRunning = true) (hvaon : s.rails.vaon = true) (hout : outside count) :
    exec (.frcAttemptEnd count) s = .next (if s.clk.frcTries + 1 < 9 then { frcFailMarked s with clk := { (frcFailMarked s).clk with frcTries := s.clk.frcTries + 1, frcTrim := moveTrim s.clk.frcTrim count } }
      else ((if s.phase = 2 then
        (({ frcFailMarked s with clk := { (frcFailMarked s).clk with frcRunning := false } } : State).sets [(CLK_SRC_STATUS_FRC_FAILED, 1), (CLK_SRC_STATUS_FRC_TRIM_STEPS, 8)]).force none
        else ({ frcFailMarked s with clk := { (frcFailMarked s).clk with frcRunning := false } } : State).sets [(CLK_SRC_STATUS_FRC_FAILED, 1), (CLK_SRC_STATUS_FRC_TRIM_STEPS, 8)]).setStep 3)) := by
  show execFrcAttemptEnd count s = _
  unfold execFrcAttemptEnd
  rw [if_neg (by simp [hrun, hvaon])]
  dsimp only
  rw [if_neg]
  · split <;> rfl
  · cases count with
    | none => exact Bool.false_ne_true
    | some c => rcases hout c rfl with h | h <;> simp <;> omega

theorem moveTrim_toNat (trim : BitVec 7) (hout : outside count) :
    (moveTrim trim count).toNat = if ∃ n, count = some n ∧ 414063 < n then trim.toNat - 1 else min 0x7F (trim.toNat + 1) := by
  have hup : (if trim = 0x7F then 0x7F else trim + 1 : BitVec 7).toNat = min 0x7F (trim.toNat + 1) := by
    split
    · next h => rw [h]; rfl
    · next h =>
      have hne : trim.toNat ≠ 127 := fun he => h (BitVec.eq_of_toNat_eq he)
      have hlt := trim.isLt
      change (trim.toNat + 1) % 128 = _
      omega
  have hdown : (if trim = 0 then 0 else trim - 1 : BitVec 7).toNat = trim.toNat - 1 := by
    split
    · next h => rw [h]; rfl
    · next h =>
      have hne : trim.toNat ≠ 0 := fun he => h (BitVec.eq_of_toNat_eq he)
      have hlt := trim.isLt
      change (128 - 1 + trim.toNat) % 128 = _
      omega
  cases count with
  | none => rw [if_neg (by simp)]; exact hup
  | some c =>
    by_cases hc : 414063 < c
    · rw [if_pos ⟨c, rfl, hc⟩, ← hdown, moveTrim, if_pos hc]
    · rw [if_neg (by simpa using hc), ← hup, moveTrim, if_neg hc]

theorem frcFailMarked_flag : (frcFailMarked s).fld CLK_MON_STATUS_FRC_FAIL = 1 := fld_flag_same (f := CLK_MON_STATUS_FRC_FAIL) rfl (by decide)

theorem frcFailMarked_regs : regsBut [CLK_MON_STATUS.off] s (frcFailMarked s) :=
  regsBut_trans (t := { s with start := { s.start with frcFailSeen := true } }) (fun _ _ => rfl) (regsBut_set (by decide))

theorem frcFailMarked_only : only [.start, .regs] s (frcFailMarked s) :=
  only_trans (t := { s with start := { s.start with frcFailSeen := true } }) (only_mono (by simp) (only_start _)) (only_mono (k := [.regs]) (by simp) (only_set _ _))

theorem frcFailMarked_start : (frcFailMarked s).start = { s.start with frcFailSeen := true } := by rw [frcFailMarked, set_start]

theorem frcFailMarked_clk : (frcFailMarked s).clk = s.clk := by rw [frcFailMarked, set_clk]

/-- An attempt before the ninth fails: the trim moves by one step. -/
theorem frc_tries_again (hrun : s.clk.frcRunning = true) (hvaon : s.rails.vaon = true) (hout : outside count) (hfew : s.clk.frcTries < 8) :
    ∃ t, exec (.frcAttemptEnd count) s = .next t ∧ t.clk.frcTries = s.clk.frcTries + 1 ∧ t.clk.frcRunning = true ∧ t.fld CLK_MON_STATUS_FRC_FAIL = 1 ∧ t.start = { s.start with frcFailSeen := true }
      ∧ t.clk.frcTrim.toNat = (if ∃ n, count = some n ∧ 414063 < n then s.clk.frcTrim.toNat - 1 else min 0x7F (s.clk.frcTrim.toNat + 1))
      ∧ regsBut [CLK_MON_STATUS.off] s t ∧ only [.clk, .start, .regs] s t := by
  have hexec := frcAttempt_fails hrun hvaon hout
  rw [if_pos (by omega)] at hexec
  have hclk := frcFailMarked_clk (s := s)
  have hstart := frcFailMarked_start (s := s)
  have hflag := frcFailMarked_flag (s := s)
  have hregs := frcFailMarked_regs (s := s)
  have hparts := frcFailMarked_only (s := s)
  generalize frcFailMarked s = u at hexec hclk hstart hflag hregs hparts
  refine ⟨_, hexec, rfl, ?_, hflag, hstart, moveTrim_toNat _ hout, hregs, only_trans (only_mono (by simp) hparts) (only_mono (by simp) (only_clk _))⟩
  show u.clk.frcRunning = true
  rw [hclk, hrun]

/-- The ninth attempt has failed: the qualification has ended. -/
def frcGivenUp (s : State) : State :=
  ({ frcFailMarked s with clk := { (frcFailMarked s).clk with frcRunning := false } } : State).sets [(CLK_SRC_STATUS_FRC_FAILED, 1), (CLK_SRC_STATUS_FRC_TRIM_STEPS, 8)]

theorem frcGivenUp_fields : (frcGivenUp s).fld CLK_SRC_STATUS_FRC_FAILED = 1 ∧ (frcGivenUp s).fld CLK_SRC_STATUS_FRC_TRIM_STEPS = 8 ∧ (frcGivenUp s).fld CLK_MON_STATUS_FRC_FAIL = 1 := by
  refine ⟨?_, ?_, ?_⟩
  · exact fld_sets_reads [] ⟨by decide, by decide⟩ (by decide) (by simp [Proper, Apart, CLK_SRC_STATUS_FRC_FAILED, CLK_SRC_STATUS_FRC_TRIM_STEPS])
  · exact fld_set_same _ (f := CLK_SRC_STATUS_FRC_TRIM_STEPS) (by decide) (by decide) 8
  · rw [frcGivenUp, fld_sets_apart (by simp [Proper, Apart, CLK_SRC_STATUS_FRC_FAILED, CLK_SRC_STATUS_FRC_TRIM_STEPS, CLK_MON_STATUS_FRC_FAIL])]
    exact frcFailMarked_flag

theorem frcGivenUp_clk : (frcGivenUp s).clk = { s.clk with frcRunning := false } := by rw [frcGivenUp, sets_clk, frcFailMarked_clk]

theorem frcGivenUp_regs : regsBut [CLK_MON_STATUS.off, CLK_SRC_STATUS.off] s (frcGivenUp s) := by
  have hmark : regsBut [CLK_MON_STATUS.off, CLK_SRC_STATUS.off] s (frcFailMarked s) := regsBut_mono (by simp) frcFailMarked_regs
  unfold frcGivenUp
  generalize frcFailMarked s = u at hmark
  exact regsBut_trans hmark (regsBut_trans (t := { u with clk := { u.clk with frcRunning := false } }) (fun _ _ => rfl)
    (regsBut_sets (by simp [CLK_SRC_STATUS_FRC_FAILED, CLK_SRC_STATUS_FRC_TRIM_STEPS, CLK_SRC_STATUS])))

theorem frcGivenUp_only : only [.clk, .start, .regs] s (frcGivenUp s) := by
  have hmark : only [.clk, .start, .regs] s (frcFailMarked s) := only_mono (by simp) frcFailMarked_only
  unfold frcGivenUp
  generalize frcFailMarked s = u at hmark
  exact only_trans hmark (only_trans (t := { u with clk := { u.clk with frcRunning := false } }) (only_mono (by simp) (only_clk _)) (only_mono (k := [.regs]) (by simp) (only_sets _)))

/-- The ninth failure past P2 (R43). -/
theorem frc_gives_up (hrun : s.clk.frcRunning = true) (hvaon : s.rails.vaon = true) (hout : outside count) (hmany : 8 ≤ s.clk.frcTries) (hphase : s.phase ≠ 2) :
    ∃ t, exec (.frcAttemptEnd count) s = .next t ∧ t.clk.frcRunning = false ∧ t.fld CLK_SRC_STATUS_FRC_FAILED = 1 ∧ t.fld CLK_SRC_STATUS_FRC_TRIM_STEPS = 8 ∧ t.fld CLK_MON_STATUS_FRC_FAIL = 1
      ∧ t.clk.p2Step = max s.clk.p2Step 3 ∧ regsBut [CLK_MON_STATUS.off, CLK_SRC_STATUS.off] s t ∧ only [.clk, .start, .regs] s t := by
  have hexec : exec (.frcAttemptEnd count) s = .next ((frcGivenUp s).setStep 3) := by
    rw [frcAttempt_fails hrun hvaon hout, if_neg (by omega), if_neg hphase, frcGivenUp]
  obtain ⟨hfailed, hsteps, hflag⟩ := frcGivenUp_fields (s := s)
  have hclk := frcGivenUp_clk (s := s)
  have hregs := frcGivenUp_regs (s := s)
  have hparts := frcGivenUp_only (s := s)
  generalize frcGivenUp s = u at hexec hfailed hsteps hflag hclk hregs hparts
  refine ⟨_, hexec, ?_, (setStep_fld _).trans hfailed, (setStep_fld _).trans hsteps, (setStep_fld _).trans hflag, ?_, regsBut_trans hregs (regsBut_of_regs setStep_regs),
    only_trans hparts (only_mono (by simp) mgtMoved_step.parts)⟩
  · rw [setStep_clk, hclk]
  · rw [setStep_clk, hclk]

theorem force_none_fld {g : Fld} (hg : clkReg g.off) (hne : g.off ≠ CLK_MON_STATUS.off) : (s.force none).fld g = s.fld g := by
  have hkept : clkSame s (forcingHeld (forcedOff s)) := forcedOff_clocks.trans (clkSame_of_only forcingHeld_only (by simp))
  rw [force_none_eq']
  generalize forcingHeld (forcedOff s) = u at hkept
  exact (fld_set_ne u (f := CLK_MON_STATUS_FORCED_SAFE) hne 1).trans (hkept.fld hg)

theorem frcAttempt_forces (hrun : s.clk.frcRunning = true) (hvaon : s.rails.vaon = true) (hout : outside count) (hmany : 8 ≤ s.clk.frcTries) (hphase : s.phase = 2) :
    exec (.frcAttemptEnd count) s = .next (((frcGivenUp s).force none).setStep 3) := by
  rw [frcAttempt_fails hrun hvaon hout, if_neg (by omega), if_pos hphase, frcGivenUp]

theorem frcForced_failed : ((frcGivenUp s).force none).fld CLK_SRC_STATUS_FRC_FAILED = 1 :=
  (force_none_fld (by unfold clkReg; decide) (by decide)).trans frcGivenUp_fields.1

/-- The ninth failure in P2 forces (R43, R49). -/
theorem frc_gives_up_inP2 (hrun : s.clk.frcRunning = true) (hvaon : s.rails.vaon = true) (hout : outside count) (hmany : 8 ≤ s.clk.frcTries) (hphase : s.phase = 2) :
    ∃ t, exec (.frcAttemptEnd count) s = .next t ∧ t.start.forcing = true ∧ t.fld CLK_SRC_STATUS_FRC_FAILED = 1 ∧ t.fld CLK_MON_STATUS_FORCED_SAFE = 1 := by
  have hexec := frcAttempt_forces hrun hvaon hout hmany hphase
  have hsrc := frcForced_failed (s := s)
  obtain ⟨-, hsafe, hforcing⟩ := force_none_shows (s := frcGivenUp s)
  exact ⟨_, hexec, (congrArg StartSt.forcing setStep_start).trans hforcing, (setStep_fld _).trans hsrc, (setStep_fld _).trans hsafe⟩

end Sys2Proof.Proofs
end

section
/-! The fast RC and the references (R40, R41, R43, R45 to R47, R50): the obligation on their commands. -/

namespace Sys2Proof.Proofs

set_option Elab.async false

open Sys2Proof.Machine Sys2Proof.Laws

variable {s t u : State} {f : FltCause} {unit detail : Nat} {b : Bool}

/-! ## A fault of class A changes nothing but its record -/

/-- A fault of class A asks for no wake, in sleep either. -/
theorem raise_advisory (hcls : (faultOf s f unit).2.1 = .a) (hcalm : s.calm = true) : Faulted s (s.raise f unit detail) := by
  obtain ⟨hdue, hentry, hgrave⟩ := calm_iff.mp hcalm
  have hcases : s.raiseRec f unit detail = s ∨ s.raiseRec f unit detail = faultTaken s f unit detail false := by
    have heq : s.raiseRec f unit detail false = if (s.domOff (faultOf s f unit).2.2 || !s.collects) = true then s
        else if ((decide (2 ≤ s.sleep) || s.pwr.entry.isSome) && ((faultOf s f unit).2.1 == .c || (faultOf s f unit).2.1 == .d)) = true then
          { faultTaken s f unit detail false with pwr := { (faultTaken s f unit detail false).pwr with wakeDue := true } }
        else faultTaken s f unit detail false := rfl
    rw [heq, hcls, show ((FltClass.a == .c) || (FltClass.a == .d)) = false from rfl, Bool.and_false]
    split
    · exact .inl rfl
    · exact .inr (if_neg Bool.false_ne_true)
  rw [State.raise]
  rcases hcases with h | h <;> rw [h]
  · rw [settle_calm hcalm]
    exact .refl _ _ _
  · have hmerged : (s.fltMerge (faultOf s f unit).2.2 (faultOf s f unit).1 (faultOf s f unit).2.1 detail false).calm = true :=
      fltMerge_calm hcalm (by rw [hcls]; decide)
    have hcalm' : (faultTaken s f unit detail false).calm = true := by
      unfold faultTaken
      generalize s.fltMerge _ _ _ _ _ = u at hmerged ⊢
      obtain ⟨hwake, hentry', hgrave'⟩ := calm_iff.mp hmerged
      have hpwr : ∀ d, (u.recChanged d).pwr = u.pwr := fun d => Frame.agree (recChanged_faulted d) (p := .pwr) (by decide)
      exact calm_iff.mpr ⟨by rw [hpwr]; exact hwake, by rw [hpwr]; exact hentry', (graveRec_congr (recChanged_recs _)).trans hgrave'⟩
    rw [settle_calm hcalm']
    exact faultTaken_faulted

theorem Faulted.clocks (h : Faulted s t) : clkSame s t := fun o ho => by
  refine Frame.reg h o fun hr => ?_
  obtain ⟨hlow, hhigh⟩ := ho
  simp only [faultReg, recReg, packetReg, REC_FOLDS, RT_UNREACH, RT_CNT_VIOL_ROUTE, RT_HOPS_EXCEEDED, GLB_CNT_VIOL_MALFORMED, RT_WAIT_EXPIRED, RT_DROP, FLT_RAISED_LO,
    FLT_MERGED, FLT_ALARMS_SENT, FLT_ALARMS_FOLDED] at hr
  omega

theorem Faulted.clk (h : Faulted s t) : t.clk = s.clk := Frame.agree h (p := .clk) (by decide)

/-! ## The check of the fast RC in service (R46) -/

/-- The check has failed: the flags, before the switch of MGT is judged. -/
def frcLost (s : State) : State :=
  ({ s with clk := { s.clk with frcTries := 0, frcRunning := true } } : State).sets [(CLK_SRC_STATUS_FRC_OK, 0), (CLK_MON_STATUS_FRC_FAIL, 1)]

theorem frcLost_fields : (frcLost s).fld CLK_SRC_STATUS_FRC_OK = 0 ∧ (frcLost s).fld CLK_MON_STATUS_FRC_FAIL = 1 := by
  refine ⟨?_, fld_flag_same (f := CLK_MON_STATUS_FRC_FAIL) rfl (by decide)⟩
  exact fld_sets_reads [] ⟨by decide, by decide⟩ (by decide) (by simp [Proper, Apart, CLK_SRC_STATUS_FRC_OK, CLK_MON_STATUS_FRC_FAIL])

theorem frcLost_clk : (frcLost s).clk = { s.clk with frcTries := 0, frcRunning := true } := by rw [frcLost, sets_clk]

theorem frcLost_calm : (frcLost s).calm = s.calm := calm_of (by rw [frcLost, sets_pwr]) (by rw [frcLost, sets_flt])

theorem frcServiceCheck_passes : exec (.frcServiceCheck true) s = .next s := by
  show execFrcServiceCheck true s = _
  rw [execFrcServiceCheck, if_pos (by simp)]

theorem frcServiceCheck_fails (hmgt : s.fld CLK_PLL_STATUS_MGT_LOCK = 1) (hok : s.fld CLK_SRC_STATUS_FRC_OK = 1) (hphase : 3 ≤ s.phase) (hcalm : s.calm = true) :
    ∃ t, exec (.frcServiceCheck false) s = .next t ∧ t.fld CLK_SRC_STATUS_FRC_OK = 0 ∧ t.fld CLK_MON_STATUS_FRC_FAIL = 1 ∧ t.clk.frcRunning = true ∧ t.clk.frcTries = 0 := by
  have hexec : exec (.frcServiceCheck false) s = .next ((frcLost s).cancelSwitch.raise .frcFail 0 (s.fld CLK_SRC_STATUS_FRC_TRIM_STEPS)) := by
    show execFrcServiceCheck false s = _
    rw [execFrcServiceCheck, if_neg (by simp [State.on, hmgt, hok, hphase])]
    rfl
  obtain ⟨hlost, hflag⟩ := frcLost_fields (s := s)
  have hmoved : MgtMoved (frcLost s) (frcLost s).cancelSwitch := mgtMoved_cancelSwitch
  have hclk := frcLost_clk (s := s)
  have hcalm' : (frcLost s).cancelSwitch.calm = true := by rw [hmoved.calm, frcLost_calm, hcalm]
  obtain ⟨a, b, hk⟩ := hmoved.clk
  have hrec := raise_advisory (f := .frcFail) (unit := 0) (detail := s.fld CLK_SRC_STATUS_FRC_TRIM_STEPS) rfl hcalm'
  refine ⟨_, hexec, ?_, ?_, ?_, ?_⟩
  · rw [hrec.clocks.fld (by unfold clkReg; decide), hmoved.src _ (.inr (.inl (by decide))), hlost]
  · rw [hrec.clocks.fld (by unfold clkReg; decide), hmoved.src _ (.inl (by decide)), hflag]
  · rw [hrec.clk, hk, hclk]
  · rw [hrec.clk, hk, hclk]

/-! ## A window of an input (R40, R41) -/

/-- The index of an input's driven form among the counts of good windows. -/
def winIx (b : Bool) : Nat := if b then 2 else 0

theorem refWindow_off {driven xtal : Nat} (h : s.on (refEn b) = false) : s.refWindow b driven xtal = s := by
  rw [State.refWindow, if_pos (by simp [h])]

theorem xtalDone_clk (b : Bool) : ∃ k, s.xtalDone b = { s with clk := k } ∧ k.p2Step = s.clk.p2Step ∧ k.holdover = s.clk.holdover := by
  cases b
  · simp only [State.xtalDone, Bool.false_eq_true, if_false]
    split
    · exact ⟨_, rfl, rfl, rfl⟩
    · exact ⟨s.clk, rfl, rfl, rfl⟩
  · simp only [State.xtalDone, if_true]
    split
    · exact ⟨_, rfl, rfl, rfl⟩
    · exact ⟨s.clk, rfl, rfl, rfl⟩

/-- The fourth good window of a driven form qualifies its input. -/
theorem refWindow_qualifies {driven xtal m : Nat} (hen : s.on (refEn b) = true) (hok : s.fld (refOk b) = 0) (hmode : s.fld (refMode b) = 0)
    (hwins : s.clk.wins.getD (winIx b) 0 = 3) (hm : s.drivenMode driven = m) (hne : m ≠ 0) :
    ∃ k, s.refWindow b driven xtal = ({ s with clk := k } : State).sets [(refOk b, 1), (refMode b, m)] ∧ k.p2Step = s.clk.p2Step ∧ k.holdover = s.clk.holdover := by
  have hoff : s.on (refOk b) = false := by rw [State.on, hok]; rfl
  obtain ⟨w, hw⟩ : ∃ w : List Nat, s.refWindow b driven xtal = (({ s with clk := { s.clk with wins := w } } : State).qualify b m).xtalDone b := by
    unfold State.refWindow
    dsimp only
    rw [if_neg (by simp [hen]), hoff, Bool.false_and, if_neg Bool.false_ne_true, hm, if_neg hne, hmode, show (if b = true then 2 else 0) = winIx b from rfl, hwins, if_pos (by decide)]
    exact ⟨_, rfl⟩
  obtain ⟨k, hk, hstep, hhold⟩ := xtalDone_clk (s := ({ s with clk := { s.clk with wins := w } } : State).qualify b m) b
  refine ⟨k, ?_, hstep, hhold⟩
  rw [hw, hk]
  rfl

theorem drivenMode_lt (e : Nat) : s.drivenMode e < 4 := by
  unfold State.drivenMode
  split
  · decide
  · split <;> decide

/-! ## The reference in use after a window -/

/-- The state after both windows, in which one input is qualified and no reference was in use. -/
structure FirstQualified (s : State) (b : Bool) (m : Nat) (w : State) : Prop where
  ok : w.fld (refOk b) = 1
  other : w.fld (refOk !b) = 0
  mode : w.fld (refMode b) = m
  none : w.fld CLK_SRC_STATUS_ACTIVE_REF = 0
  step : w.clk.p2Step = s.clk.p2Step
  start : w.start = s.start
  regs : regsBut [CLK_SRC_STATUS.off] s w
  parts : only [.clk, .regs] s w

theorem refOk_off (b : Bool) : (refOk b).off = CLK_SRC_STATUS.off := by cases b <;> rfl

theorem refMode_off (b : Bool) : (refMode b).off = CLK_SRC_STATUS.off := by cases b <;> rfl

theorem qualified_shows {k : ClkSt} {m : Nat} (hm : m < 4) (hother : s.fld (refOk !b) = 0) (hnone : s.fld CLK_SRC_STATUS_ACTIVE_REF = 0) (hstep : k.p2Step = s.clk.p2Step) :
    FirstQualified s b m (({ s with clk := k } : State).sets [(refOk b, 1), (refMode b, m)]) := by
  have hok : Proper (refOk b) := by unfold Proper; cases b <;> decide
  have hmode : Proper (refMode b) := by unfold Proper; cases b <;> decide
  have h1 : Apart (refOk b) (refMode b) := by unfold Apart; cases b <;> decide
  have h2 : Apart (refOk !b) (refOk b) ∧ Apart (refOk !b) (refMode b) := by unfold Apart; cases b <;> decide
  have h3 : Apart CLK_SRC_STATUS_ACTIVE_REF (refOk b) ∧ Apart CLK_SRC_STATUS_ACTIVE_REF (refMode b) := by unfold Apart; cases b <;> decide
  have hwidth : 2 ^ ((refMode b).hi + 1 - (refMode b).lo) = 4 := by cases b <;> rfl
  refine ⟨?_, ?_, ?_, ?_, ?_, ?_, ?_, ?_⟩
  · refine fld_sets_reads [] hok (by cases b <;> decide) fun x hx => ?_
    obtain rfl := List.mem_singleton.mp hx
    exact ⟨hmode, h1⟩
  · refine (fld_sets_apart fun x hx => ?_).trans hother
    simp only [List.mem_cons, List.not_mem_nil, or_false] at hx
    rcases hx with rfl | rfl
    · exact ⟨hok, h2.1⟩
    · exact ⟨hmode, h2.2⟩
  · exact fld_set_fits hmode.1 hmode.2 (by rw [hwidth]; exact hm)
  · refine (fld_sets_apart fun x hx => ?_).trans hnone
    simp only [List.mem_cons, List.not_mem_nil, or_false] at hx
    rcases hx with rfl | rfl
    · exact ⟨hok, h3.1⟩
    · exact ⟨hmode, h3.2⟩
  · rw [sets_clk]
    exact hstep
  · rw [sets_start]
  · exact regsBut_trans (t := { s with clk := k }) (fun _ _ => rfl) (regsBut_sets (by simp [refOk_off, refMode_off]))
  · exact only_trans (t := { s with clk := k }) (only_mono (by simp) (only_clk _)) (only_mono (k := [.regs]) (by simp) (only_sets _))

theorem FirstQualified.picked {m : Nat} {w : State} (h : FirstQualified s b m w) : w.pickRef = w.setActive b := by
  have hon : w.on (refOk b) = true := by rw [State.on, h.ok]; rfl
  have hoff : w.on (refOk !b) = false := by rw [State.on, h.other]; rfl
  rw [State.pickRef, if_pos h.none]
  cases b
  · exact if_pos hon
  · rw [if_neg (by rw [show CLK_SRC_STATUS_REFA_OK = refOk !true from rfl, hoff]; decide)]
    exact if_pos hon

theorem setActive_shows (b : Bool) : (s.setActive b).fld CLK_SRC_STATUS_ACTIVE_REF = refCode b ∧ (s.setActive b).clk = { s.clk with holdover := none }
    ∧ (∀ g, Apart g CLK_SRC_STATUS_ACTIVE_REF → (s.setActive b).fld g = s.fld g) ∧ regsBut [CLK_SRC_STATUS.off] s (s.setActive b) ∧ only [.clk, .regs] s (s.setActive b) := by
  refine ⟨?_, ?_, fun g hg => ?_, ?_, ?_⟩
  · exact fld_set_fits (f := CLK_SRC_STATUS_ACTIVE_REF) (by decide) (by decide) (by cases b <;> decide)
  · rw [State.setActive, set_clk]
  · exact fld_set_apart (s := { s with clk := { s.clk with holdover := none } }) ⟨by decide, by decide⟩ hg
  · exact regsBut_trans (t := { s with clk := { s.clk with holdover := none } }) (fun _ _ => rfl) (regsBut_set (by decide))
  · exact only_trans (t := { s with clk := { s.clk with holdover := none } }) (only_mono (by simp) (only_clk _)) (only_mono (k := [.regs]) (by simp) (only_set _ _))

/-- Step 4 of Table 3.3 ends forcing in P2 (R49). -/
def stepFour (t : State) : State :=
  if (t.setStep 4).phase = 2 ∧ (t.setStep 4).start.forcing then { t.setStep 4 with start := { (t.setStep 4).start with forcing := false } } else t.setStep 4

theorem stepFour_shows : (stepFour t).regs = t.regs ∧ (stepFour t).clk = { t.clk with p2Step := max t.clk.p2Step 4 } ∧ (t.phase = 2 → (stepFour t).start.forcing = false)
    ∧ only [.clk, .start] t (stepFour t) := by
  have hstep : only [.clk, .start] t (t.setStep 4) := only_mono (by simp) (only_clk _)
  unfold stepFour
  split
  · exact ⟨rfl, rfl, fun _ => rfl, only_trans hstep (only_mono (by simp) (only_start _))⟩
  · next h => exact ⟨rfl, rfl, fun hp => by simpa using fun hf => h ⟨hp, hf⟩, hstep⟩

theorem refWindow_first {ad ax bd bx m : Nat} (hvaon : s.rails.vaon = true) (hstep : 3 ≤ s.clk.p2Step) (hslow : s.start.slowHold = false) (hen : s.on (refEn b) = true)
    (hdis : s.on (refEn !b) = false) (hok : s.fld (refOk b) = 0) (hother : s.fld (refOk !b) = 0) (hmode : s.fld (refMode b) = 0)
    (hwins : s.clk.wins.getD (if b then 2 else 0) 0 = 3) (hm : s.drivenMode (if b then bd else ad) = m) (hne : m ≠ 0) (hnone : s.fld CLK_SRC_STATUS_ACTIVE_REF = 0)
    (hawake : s.sleep ≠ 3 ∨ s.clk.wakeWait = true) :
    ∃ t, exec (.refWindowEnd ad ax bd bx) s = .next t ∧ t.fld (refOk b) = 1 ∧ t.fld (refMode b) = m ∧ t.fld CLK_SRC_STATUS_ACTIVE_REF = (if b then 2 else 1)
      ∧ t.clk.p2Step = max s.clk.p2Step 4 ∧ t.clk.holdover = none ∧ (s.phase = 2 → t.start.forcing = false)
      ∧ regsBut [CLK_SRC_STATUS.off] s t ∧ only [.clk, .start, .regs] s t := by
  have hlt : m < 4 := hm ▸ drivenMode_lt _
  obtain ⟨w, hw, hfirst⟩ : ∃ w, (s.refWindow false ad ax).refWindow true bd bx = w ∧ FirstQualified s b m w := by
    cases b with
    | false =>
      obtain ⟨k, hk, hp2, -⟩ := refWindow_qualifies (xtal := ax) hen hok hmode hwins hm hne
      have hq := qualified_shows (b := false) (k := k) hlt hother hnone hp2
      rw [← hk] at hq
      change FirstQualified s false m (s.refWindow false ad ax) at hq
      have hend : (s.refWindow false ad ax).on (refEn true) = false := by
        rw [State.on, regsBut.fld hq.regs (by decide), ← State.on]
        exact hdis
      exact ⟨_, refWindow_off hend, hq⟩
    | true =>
      obtain ⟨k, hk, hp2, -⟩ := refWindow_qualifies (xtal := bx) hen hok hmode hwins hm hne
      have hq := qualified_shows (b := true) (k := k) hlt hother hnone hp2
      rw [← hk] at hq
      change FirstQualified s true m (s.refWindow true bd bx) at hq
      exact ⟨_, by rw [refWindow_off (b := false) hdis], hq⟩
  obtain ⟨hact, hclk, hsrc, hregs, hparts⟩ := setActive_shows (s := w) b
  have hcode : refCode b = if b then 2 else 1 := rfl
  have hexec : exec (.refWindowEnd ad ax bd bx) s = .next (stepFour (w.setActive b)) := by
    show execRefWindowEnd ad ax bd bx s = _
    rw [execRefWindowEnd, if_neg (by
      rcases hawake with h | h <;> simp [hvaon, hslow, h] <;> omega), hw, hfirst.picked]
    dsimp only
    rw [if_neg (by rw [hact, hclk]; cases b <;> simp [refCode])]
    rfl
  obtain ⟨hregs4, hclk4, hforce4, hparts4⟩ := stepFour_shows (t := w.setActive b)
  have hfld : ∀ g, (stepFour (w.setActive b)).fld g = (w.setActive b).fld g := fun g => fld_congr hregs4 g
  refine ⟨_, hexec, ?_, ?_, ?_, ?_, ?_, fun hp => hforce4 ?_, ?_, ?_⟩
  · rw [hfld, hsrc _ (by unfold Apart; cases b <;> decide), hfirst.ok]
  · rw [hfld, hsrc _ (by unfold Apart; cases b <;> decide), hfirst.mode]
  · rw [hfld, hact, hcode]
  · rw [hclk4, hclk]
    exact congrArg (max · 4) hfirst.step
  · rw [hclk4, hclk]
  · rw [← hp]
    exact (hsrc _ (.inl (by decide))).trans (regsBut.fld hfirst.regs (by decide))
  · exact regsBut_trans (regsBut_trans hfirst.regs hregs) (regsBut_of_regs hregs4)
  · exact only_trans (only_trans (only_mono (by simp) hfirst.parts) (only_mono (by simp) hparts)) (only_mono (by simp) hparts4)

end Sys2Proof.Proofs
end

section
/-! The fast RC and the references (R43, R45 to R47, R50): a reference that fails, the end of holdover, and the obligation on their commands. -/

namespace Sys2Proof.Proofs

set_option Elab.async false

open Sys2Proof.Machine Sys2Proof.Laws

variable {s t u : State} {b : Bool}

/-! ## A reference fails (R46, R47) -/

/-- The flag of the monitor for a lost reference. -/
def refLost (b : Bool) : Fld := if b then CLK_MON_STATUS_REFB_LOST else CLK_MON_STATUS_REFA_LOST

/-- The failed reference is no longer qualified, and a switch under way is cancelled. -/
def refDropped (s : State) (b : Bool) : State :=
  (({ s with clk := { s.clk with wins := (s.clk.wins.set (winIx b) 0).set (winIx b + 1) 0 } } : State).sets [(refOk b, 0), (refMode b, 0), (refLost b, 1)]).cancelSwitch

/-- What the loss of a reference shows before the one in use is judged. -/
structure RefDropped (s : State) (b : Bool) (u : State) : Prop where
  ok : u.fld (refOk b) = 0
  mode : u.fld (refMode b) = 0
  lost : u.fld (refLost b) = 1
  other : u.fld (refOk !b) = s.fld (refOk !b)
  active : u.fld CLK_SRC_STATUS_ACTIVE_REF = s.fld CLK_SRC_STATUS_ACTIVE_REF
  switches : u.fld CLK_REF_SWITCHES = s.fld CLK_REF_SWITCHES
  holdover : u.clk.holdover = s.clk.holdover
  calm : u.calm = s.calm

theorem refLost_proper (b : Bool) : Proper (refLost b) := by unfold Proper; cases b <;> decide

theorem refDropped_shows : RefDropped s b (refDropped s b) := by
  have hok : Proper (refOk b) := by unfold Proper; cases b <;> decide
  have hmode : Proper (refMode b) := by unfold Proper; cases b <;> decide
  have hlost : Proper (refLost b) := refLost_proper b
  unfold refDropped
  obtain ⟨x, hx⟩ : ∃ x : State, { s with clk := { s.clk with wins := (s.clk.wins.set (winIx b) 0).set (winIx b + 1) 0 } } = x := ⟨_, rfl⟩
  obtain ⟨y, hy⟩ : ∃ y, x.sets [(refOk b, 0), (refMode b, 0), (refLost b, 1)] = y := ⟨_, rfl⟩
  have hfld : ∀ g, x.fld g = s.fld g := fun g => by rw [← hx]; rfl
  have hapart : ∀ g, Apart g (refOk b) → Apart g (refMode b) → Apart g (refLost b) → y.fld g = s.fld g := fun g h1 h2 h3 => by
    rw [← hy, fld_sets_apart, hfld]
    intro z hz
    simp only [List.mem_cons, List.not_mem_nil, or_false] at hz
    rcases hz with rfl | rfl | rfl
    · exact ⟨hok, h1⟩
    · exact ⟨hmode, h2⟩
    · exact ⟨hlost, h3⟩
  have hmoved : MgtMoved y y.cancelSwitch := mgtMoved_cancelSwitch
  have hyclk : y.clk.holdover = s.clk.holdover := by rw [← hy, sets_clk, ← hx]
  have hycalm : y.calm = s.calm := calm_of (by rw [← hy, sets_pwr, ← hx]) (by rw [← hy, sets_flt, ← hx])
  rw [hx, hy]
  refine ⟨?_, ?_, ?_, ?_, ?_, ?_, ?_, ?_⟩
  · rw [hmoved.src _ (by unfold Apart; cases b <;> decide), ← hy]
    refine fld_sets_reads [] hok (Nat.two_pow_pos _) fun z hz => ?_
    simp only [List.mem_cons, List.not_mem_nil, or_false] at hz
    rcases hz with rfl | rfl
    · exact ⟨hmode, show Apart (refOk b) (refMode b) by unfold Apart; cases b <;> decide⟩
    · exact ⟨hlost, show Apart (refOk b) (refLost b) by unfold Apart; cases b <;> decide⟩
  · rw [hmoved.src _ (by unfold Apart; cases b <;> decide), ← hy]
    refine fld_sets_reads [(refOk b, 0)] hmode (Nat.two_pow_pos _) fun z hz => ?_
    obtain rfl := List.mem_singleton.mp hz
    exact ⟨hlost, show Apart (refMode b) (refLost b) by unfold Apart; cases b <;> decide⟩
  · rw [hmoved.src _ (by unfold Apart; cases b <;> decide), ← hy]
    exact fld_flag_same (s := (x.set (refOk b) 0).set (refMode b) 0) (by cases b <;> rfl) hlost.2
  · rw [hmoved.src _ (by unfold Apart; cases b <;> decide)]
    exact hapart _ (by unfold Apart; cases b <;> decide) (by unfold Apart; cases b <;> decide) (by unfold Apart; cases b <;> decide)
  · rw [hmoved.src _ (by unfold Apart; decide)]
    exact hapart _ (by unfold Apart; cases b <;> decide) (by unfold Apart; cases b <;> decide) (by unfold Apart; cases b <;> decide)
  · rw [hmoved.src _ (by unfold Apart; decide)]
    exact hapart _ (by unfold Apart; cases b <;> decide) (by unfold Apart; cases b <;> decide) (by unfold Apart; cases b <;> decide)
  · obtain ⟨a, c, hk⟩ := hmoved.clk
    rw [hk]
    exact hyclk
  · rw [hmoved.calm, hycalm]

theorem refFail_eq (s : State) (b : Bool) :
    s.refFail b = if !(s.fld CLK_SRC_STATUS_ACTIVE_REF == refCode b) then (refDropped s b).raise .refLost 0 (refCode b)
      else if (refDropped s b).on (refOk !b) then (((refDropped s b).setActive !b).inc CLK_REF_SWITCHES).raise .refLost 0 (refCode b)
      else { refDropped s b with clk := { (refDropped s b).clk with holdover := some (refCode b) } } := rfl

/-- What the loss of a reference shows in the end. -/
structure RefFails (s : State) (b : Bool) (t : State) : Prop where
  ok : t.fld (refOk b) = 0
  mode : t.fld (refMode b) = 0
  lost : t.fld (refLost b) = 1
  standby : s.fld CLK_SRC_STATUS_ACTIVE_REF = refCode b → s.fld (refOk !b) = 1 →
    t.fld CLK_SRC_STATUS_ACTIVE_REF = refCode !b ∧ t.fld CLK_REF_SWITCHES = (s.fld CLK_REF_SWITCHES + 1) % 2 ^ 32
  held : s.fld CLK_SRC_STATUS_ACTIVE_REF = refCode b → s.fld (refOk !b) = 0 → t.clk.holdover = some (refCode b) ∧ t.fld CLK_SRC_STATUS_ACTIVE_REF = refCode b
  unused : s.fld CLK_SRC_STATUS_ACTIVE_REF ≠ refCode b → t.fld CLK_SRC_STATUS_ACTIVE_REF = s.fld CLK_SRC_STATUS_ACTIVE_REF ∧ t.clk.holdover = s.clk.holdover

theorem clkReg_ref (b : Bool) : clkReg (refOk b).off ∧ clkReg (refMode b).off ∧ clkReg (refLost b).off := by unfold clkReg; cases b <;> decide

theorem refFail_fails (hcalm : s.calm = true) : RefFails s b (s.refFail b) := by
  obtain ⟨hok, hmode, hlost, hother, hactive, hswitches, hhold, hcalm'⟩ := refDropped_shows (s := s) (b := b)
  have heq := refFail_eq s b
  obtain ⟨hrok, hrmode, hrlost⟩ := clkReg_ref b
  have hract : clkReg CLK_SRC_STATUS_ACTIVE_REF.off := by unfold clkReg; decide
  have hrsw : clkReg CLK_REF_SWITCHES.off := by unfold clkReg; decide
  generalize refDropped s b = u at hok hmode hlost hother hactive hswitches hhold hcalm' heq
  rw [hcalm] at hcalm'
  by_cases hact : s.fld CLK_SRC_STATUS_ACTIVE_REF = refCode b
  · rw [if_neg (by simp [hact])] at heq
    by_cases hstand : s.fld (refOk !b) = 0
    · rw [if_neg (by rw [State.on, hother, hstand]; decide)] at heq
      rw [heq]
      exact ⟨hok, hmode, hlost, fun _ h1 => by omega, fun _ _ => ⟨rfl, hactive.trans hact⟩, fun hne => absurd hact hne⟩
    · rw [if_pos (by rw [State.on, hother]; simpa using hstand)] at heq
      obtain ⟨hcode, -, hsrc, -, hparts⟩ := setActive_shows (s := u) (!b)
      obtain ⟨v, hv⟩ : ∃ v, u.setActive (!b) = v := ⟨_, rfl⟩
      rw [hv] at hcode hsrc hparts heq
      have hinc : ∀ g : Fld, g.off ≠ CLK_REF_SWITCHES.off → (v.inc CLK_REF_SWITCHES).fld g = v.fld g := fun g hg => fld_inc_ne hg
      have hcalm2 : (v.inc CLK_REF_SWITCHES).calm = true := by
        rw [← hcalm']
        exact calm_of (hparts .pwr (by decide)) (hparts .flt (by decide))
      have hrec := (raise_advisory (f := .refLost) (unit := 0) (detail := refCode b) rfl hcalm2).clocks
      rw [heq]
      refine ⟨?_, ?_, ?_, fun _ _ => ⟨?_, ?_⟩, fun _ h0 => absurd h0 hstand, fun hne => absurd hact hne⟩
      · rw [hrec.fld hrok, hinc _ (by cases b <;> decide), hsrc _ (by unfold Apart; cases b <;> decide), hok]
      · rw [hrec.fld hrmode, hinc _ (by cases b <;> decide), hsrc _ (by unfold Apart; cases b <;> decide), hmode]
      · rw [hrec.fld hrlost, hinc _ (by cases b <;> decide), hsrc _ (by unfold Apart; cases b <;> decide), hlost]
      · rw [hrec.fld hract, hinc _ (by decide), hcode]
      · rw [hrec.fld hrsw, fld_inc_word rfl rfl, hsrc _ (by unfold Apart; decide), hswitches]
  · rw [if_pos (by simp [hact])] at heq
    have hrec := raise_advisory (f := .refLost) (unit := 0) (detail := refCode b) rfl hcalm'
    rw [heq]
    refine ⟨?_, ?_, ?_, fun h => absurd h hact, fun h => absurd h hact, fun _ => ⟨?_, ?_⟩⟩
    · rw [hrec.clocks.fld hrok, hok]
    · rw [hrec.clocks.fld hrmode, hmode]
    · rw [hrec.clocks.fld hrlost, hlost]
    · rw [hrec.clocks.fld hract, hactive]
    · rw [hrec.clk, hhold]

/-! ## Holdover and a wake without a reference -/

theorem holdover_expires (hheld : s.clk.holdover.isSome = true) :
    ∃ t, exec .holdoverExpiry s = .next t ∧ t.fld CLK_SRC_STATUS_ACTIVE_REF = 0 ∧ t.fld CLK_MON_STATUS_ALL_REF_LOST = 1 ∧ t.start.forcing = true ∧ (3 ≤ s.phase → t.start.grave = true) := by
  obtain ⟨u, hu⟩ : ∃ u, ({ s with clk := { s.clk with holdover := none } } : State).set CLK_SRC_STATUS_ACTIVE_REF 0 = u := ⟨_, rfl⟩
  have hexec : exec .holdoverExpiry s = .next (u.clockLost CLK_MON_STATUS_ALL_REF_LOST) := by
    show execHoldoverExpiry s = _
    obtain ⟨r, hr⟩ := Option.isSome_iff_exists.mp hheld
    rw [execHoldoverExpiry, hr, ← hu]
  have hact : u.fld CLK_SRC_STATUS_ACTIVE_REF = 0 := by
    rw [← hu]
    exact fld_set_same _ (f := CLK_SRC_STATUS_ACTIVE_REF) (by decide) (by decide) 0
  have hphase : u.phase = s.phase := by
    rw [← hu]
    exact fld_set_ne ({ s with clk := { s.clk with holdover := none } } : State) (by decide) 0
  have hfails := clockLost_fails (s := u) (f := CLK_MON_STATUS_ALL_REF_LOST) rfl rfl (by decide)
  exact ⟨_, hexec, hfails.low _ (.inr (.inr (by decide))) (.inl rfl) hact, hfails.flag, hfails.forcing, fun h => hfails.grave (by rw [hphase]; exact h)⟩

theorem wakeRef_times_out (hwait : s.clk.wakeWait = true) (hact : s.fld CLK_SRC_STATUS_ACTIVE_REF = 0) (hphase : s.phase = 8) :
    ∃ t, exec .wakeRefTimeout s = .next t ∧ t.fld CLK_MON_STATUS_ALL_REF_LOST = 1 ∧ t.start.grave = true := by
  obtain ⟨u, hu⟩ : ∃ u, s.set CLK_MON_STATUS_ALL_REF_LOST 1 = u := ⟨_, rfl⟩
  have hexec : exec .wakeRefTimeout s = .next (u.raise .clockLost 0 (u.reg CLK_MON_STATUS.off)) := by
    show execWakeRefTimeout s = _
    rw [execWakeRefTimeout, if_pos (by simp [hwait, hact]), hu]
    rfl
  have hflag : u.fld CLK_MON_STATUS_ALL_REF_LOST = 1 := by
    rw [← hu]
    exact fld_flag_same (f := CLK_MON_STATUS_ALL_REF_LOST) rfl (by decide)
  have hphase' : u.phase = 8 := by
    rw [← hu, ← hphase]
    exact fld_set_ne s (by decide) 1
  have hshow : ClocksShown u (u.raise .clockLost 0 (u.reg CLK_MON_STATUS.off)) := raiseRec_shows.trans settle_shows
  refine ⟨_, hexec, hshow.flag _ rfl rfl (by decide) hflag, ?_⟩
  by_cases hg : u.start.grave = true
  · exact hshow.grave hg
  · obtain ⟨v, -, hv⟩ := raise_grave (s := u) (f := .clockLost) (unit := 0) (detail := u.reg CLK_MON_STATUS.off) (inj := false) (d := 0) (code := 0x04) rfl rfl
      (by rw [State.collects, hphase']; decide) (by simpa using hg)
    rw [hv]
    exact enterGrave_grave

/-- Settles O12: each command of the fast RC and of the references is one of the lemmas on attempts, windows and failures above. -/
theorem referenceCommands : Obligations.ReferenceCommands := by
  unfold Obligations.ReferenceCommands
  refine ⟨fun n s hrun hvaon hlow hhigh => frc_passes hrun hvaon hlow hhigh, fun count s hrun hvaon hout => ⟨?_, ?_, ?_⟩, fun s hmgt hok hphase hcalm => ⟨?_, ?_⟩, ?_, ?_,
    fun s hheld => holdover_expires hheld, fun s hwait hact hphase _ => wakeRef_times_out hwait hact hphase⟩
  · exact fun hfew => frc_tries_again hrun hvaon hout hfew
  · exact fun hmany hphase => frc_gives_up hrun hvaon hout hmany hphase
  · exact fun hmany hphase => frc_gives_up_inP2 hrun hvaon hout hmany hphase
  · exact frcServiceCheck_passes
  · exact frcServiceCheck_fails hmgt hok hphase hcalm
  · intro b ad ax bd bx m s hvaon hstep hslow hen hdis hok hother hmode _ hwins hm hne hnone hawake
    exact refWindow_first hvaon hstep hslow hen hdis hok hother hmode hwins hm hne hnone hawake
  · intro b s hvaon hok hcalm
    have hexec : exec (.refMissingEdges b) s = .next (s.refFail b) := by
      show execRefMissingEdges b s = _
      rw [execRefMissingEdges, if_pos (by simp [State.on, hok, hvaon])]
    obtain ⟨hok', hmode, hlost, hstandby, hheld, hunused⟩ := refFail_fails (b := b) hcalm
    exact ⟨_, hexec, hok', hmode, hlost, hstandby, hheld, hunused⟩

end Sys2Proof.Proofs
end

section
/-! SUPPORT. The PLLs (R42, R45, R46): locks, and the losses of PLL_FOX and of an LPLL. -/

namespace Sys2Proof.Proofs

set_option Elab.async false

open Sys2Proof.Machine Sys2Proof.Laws

variable {s t u : State} {e n p cause : Nat}

/-! ## A lock (R42) -/

theorem pllLocked_runs {q : PllId} (hvaon : s.rails.vaon = true) (hslow : s.start.slowHold = false) (hact : s.fld CLK_SRC_STATUS_ACTIVE_REF ≠ 0) :
    (!s.rails.vaon || s.start.slowHold || s.fld CLK_SRC_STATUS_ACTIVE_REF == 0) = false ∧ exec (.pllLocked q) s = execPllLocked q s :=
  ⟨by simp [hvaon, hslow, hact], rfl⟩


/-- MGT runs from a source (R51). -/
theorem mgtFrom_shows (hn : n < 4) : (s.mgtFrom n).fld CLK_SRC_STATUS_MGT_SRC = n
    ∧ (s.mgtFrom n).clk = { s.clk with switchTo := none, p2Step := if n = 2 then max s.clk.p2Step 5 else s.clk.p2Step } := by
  obtain ⟨u, hu⟩ : ∃ u, ({ s with clk := { s.clk with switchTo := none } } : State).set CLK_SRC_STATUS_MGT_SRC n = u := ⟨_, rfl⟩
  have hsrc : u.fld CLK_SRC_STATUS_MGT_SRC = n := by
    rw [← hu]
    exact fld_set_fits (f := CLK_SRC_STATUS_MGT_SRC) (by decide) (by decide) hn
  have hclk : u.clk = { s.clk with switchTo := none } := by rw [← hu, set_clk]
  rw [State.mgtFrom, hu]
  split
  · exact ⟨(setStep_fld _).trans hsrc, by rw [State.setStep, hclk]⟩
  · exact ⟨hsrc, hclk⟩

/-- PLL_MGT has locked; MGT is to run from it. -/
theorem mgt_locks (hvaon : s.rails.vaon = true) (hslow : s.start.slowHold = false) (hact : s.fld CLK_SRC_STATUS_ACTIVE_REF ≠ 0) :
    ∃ t, exec (.pllLocked .mgt) s = .next t ∧ t.fld CLK_PLL_STATUS_MGT_LOCK = 1
      ∧ (s.fld CLK_SRC_STATUS_MGT_SRC = 0 ∨ s.fld CLK_SRC_STATUS_MGT_SRC = 2 →
        t.fld CLK_SRC_STATUS_MGT_SRC = 2 ∧ t.clk = { s.clk with switchTo := none, p2Step := max s.clk.p2Step 5 })
      ∧ (s.fld CLK_SRC_STATUS_MGT_SRC = 1 → t.fld CLK_SRC_STATUS_MGT_SRC = 1 ∧ t.clk = { s.clk with switchTo := some 2 })
      ∧ regsBut [CLK_PLL_STATUS.off, CLK_SRC_STATUS.off] s t ∧ only [.clk, .regs] s t := by
  obtain ⟨hguard, hexec⟩ := pllLocked_runs (q := .mgt) hvaon hslow hact
  rw [execPllLocked, if_neg (by rw [hguard]; decide)] at hexec
  have hlock : (s.set CLK_PLL_STATUS_MGT_LOCK 1).fld CLK_PLL_STATUS_MGT_LOCK = 1 := fld_flag_same (f := CLK_PLL_STATUS_MGT_LOCK) rfl (by decide)
  have hsrc : (s.set CLK_PLL_STATUS_MGT_LOCK 1).fld CLK_SRC_STATUS_MGT_SRC = s.fld CLK_SRC_STATUS_MGT_SRC := fld_set_ne s (by decide) 1
  have hclk : (s.set CLK_PLL_STATUS_MGT_LOCK 1).clk = s.clk := set_clk _ _ _
  have hregs : regsBut [CLK_PLL_STATUS.off, CLK_SRC_STATUS.off] s (s.set CLK_PLL_STATUS_MGT_LOCK 1) := regsBut_set (by decide)
  have hparts : only [.clk, .regs] s (s.set CLK_PLL_STATUS_MGT_LOCK 1) := only_mono (by simp) (only_set _ _)
  generalize s.set CLK_PLL_STATUS_MGT_LOCK 1 = u at hexec hlock hsrc hclk hregs hparts
  have hmoved : MgtMoved u (u.switchMgt 2) := mgtMoved_switchMgt
  refine ⟨_, hexec, (hmoved.src _ (.inl (by decide))).trans hlock, fun h => ?_, fun h => ?_, regsBut_trans hregs (regsBut_mono (by simp) hmoved.regs), only_trans hparts hmoved.parts⟩
  · rw [State.switchMgt, if_pos (by rw [hsrc]; exact h.symm)]
    obtain ⟨hfrom, hck⟩ := mgtFrom_shows (s := u) (n := 2) (by decide)
    exact ⟨hfrom, by rw [hck, hclk]; rfl⟩
  · have hwait : u.switchMgt 2 = { u with clk := { u.clk with switchTo := some 2 } } := if_neg (by rw [hsrc, h]; decide)
    rw [hwait]
    exact ⟨(fld_congr (only_clk _ .regs (by decide)) _).trans (hsrc.trans h), by rw [hclk]⟩

/-- Another PLL of step 5 locks once that step is reached. -/
theorem lockPll_shows {f : Fld} (hoff : f.off = CLK_PLL_STATUS.off) (hlo : f.lo = f.hi) (hhi : f.hi < 32) (hstep : 5 ≤ s.clk.p2Step) :
    (s.lockPll f).fld f = 1 ∧ regsBut [CLK_PLL_STATUS.off] s (s.lockPll f) ∧ only [.regs] s (s.lockPll f) := by
  rw [State.lockPll, if_neg (by omega)]
  exact ⟨fld_flag_same hlo hhi, regsBut_set (by simp [hoff]), only_set _ _⟩

theorem core_locks {q : PllId × Fld} (hvaon : s.rails.vaon = true) (hslow : s.start.slowHold = false) (hact : s.fld CLK_SRC_STATUS_ACTIVE_REF ≠ 0)
    (hq : q ∈ [(.fab, CLK_PLL_STATUS_FAB_LOCK), (.chn, CLK_PLL_STATUS_CHN_LOCK), (.sto, CLK_PLL_STATUS_STO_LOCK)]) :
    exec (.pllLocked q.1) s = .next (s.lockPll q.2) ∧ q.2.off = CLK_PLL_STATUS.off ∧ q.2.lo = q.2.hi ∧ q.2.hi < 32 := by
  obtain ⟨hguard, -⟩ := pllLocked_runs (q := q.1) hvaon hslow hact
  simp only [List.mem_cons, List.not_mem_nil, or_false] at hq
  rcases hq with rfl | rfl | rfl
  · exact ⟨if_neg (by rw [hguard]; decide), rfl, rfl, by decide⟩
  · exact ⟨if_neg (by rw [hguard]; decide), rfl, rfl, by decide⟩
  · exact ⟨if_neg (by rw [hguard]; decide), rfl, rfl, by decide⟩

theorem fox_locks (hvaon : s.rails.vaon = true) (hslow : s.start.slowHold = false) (hact : s.fld CLK_SRC_STATUS_ACTIVE_REF ≠ 0) (hrelock : s.clk.foxRelock = false) :
    exec (.pllLocked .fox) s = .next (s.lockPll CLK_PLL_STATUS_FOX_LOCK) := by
  obtain ⟨hguard, hexec⟩ := pllLocked_runs (q := .fox) hvaon hslow hact
  rw [execPllLocked, if_neg (by rw [hguard]; decide)] at hexec
  rw [hexec, hrelock, if_neg (by decide)]

/-! ## The lock bit of an LPLL -/

theorem putBit_byte {w i : Nat} (hw : w < 2 ^ 8) (hi : i < 8) (b : Bool) : putBit w i b < 2 ^ 8 := by
  refine Nat.lt_pow_two_of_testBit _ fun j hj => ?_
  rw [testBit_putBit, if_neg (by omega)]
  exact Nat.testBit_lt_two_pow (Nat.lt_of_lt_of_le hw (Nat.pow_le_pow_right (by decide) hj))

theorem lpllBit_set (j : BitVec 3) (b : Bool) :
    bitAt ((s.set CLK_PLL_STATUS_LPLL_LOCK (putBit (s.fld CLK_PLL_STATUS_LPLL_LOCK) j.toNat b)).fld CLK_PLL_STATUS_LPLL_LOCK) j.toNat = b := by
  have hread : (s.set CLK_PLL_STATUS_LPLL_LOCK (putBit (s.fld CLK_PLL_STATUS_LPLL_LOCK) j.toNat b)).fld CLK_PLL_STATUS_LPLL_LOCK = putBit (s.fld CLK_PLL_STATUS_LPLL_LOCK) j.toNat b :=
    fld_set_fits (f := CLK_PLL_STATUS_LPLL_LOCK) (by decide) (by decide) (putBit_byte (fld_lt s CLK_PLL_STATUS_LPLL_LOCK) j.isLt b)
  rw [hread, bitAt, testBit_putBit, if_pos rfl]

theorem not_clkReg_link {o : Nat} (ho : clkReg o) : ¬ linkReg o := by
  obtain ⟨hlow, hhigh⟩ := ho
  rintro (h | ⟨h, -⟩ | h)
  · exact not_clkReg_packet ⟨hlow, hhigh⟩ h
  · omega
  · omega

theorem not_clkReg_fabric {o : Nat} (ho : clkReg o) : ¬ fabricReg o := by
  obtain ⟨hlow, hhigh⟩ := ho
  rintro (h | h | h | h | ⟨h, -⟩ | h)
  · exact not_clkReg_packet ⟨hlow, hhigh⟩ h
  · rw [h] at hhigh; simp only [RT_BYP_STATUS] at hhigh; omega
  · rw [h] at hhigh; simp only [RT_BYP_OPEN] at hhigh; omega
  · rw [h] at hhigh; simp only [RT_BYP_CLOSES] at hhigh; omega
  · omega
  · omega

theorem clkReg_lpll : clkReg CLK_PLL_STATUS_LPLL_LOCK.off := by unfold clkReg; decide

theorem lpll_locks {j : BitVec 3} (hvaon : s.rails.vaon = true) (hslow : s.start.slowHold = false) (hact : s.fld CLK_SRC_STATUS_ACTIVE_REF ≠ 0)
    (hj : j.toNat < s.nPorts / 4) (hstep : 5 ≤ s.clk.p2Step) :
    ∃ t, exec (.pllLocked (.lpll j)) s = .next t ∧ bitAt (t.fld CLK_PLL_STATUS_LPLL_LOCK) j.toNat = true ∧ only [.regs, .links, .lanes, .sw] s t := by
  obtain ⟨hguard, hexec⟩ := pllLocked_runs (q := .lpll j) hvaon hslow hact
  rw [execPllLocked, if_neg (by rw [hguard]; decide)] at hexec
  dsimp only at hexec
  rw [if_neg (by simp [hj, hstep])] at hexec
  have hbit := lpllBit_set (s := s) j true
  have hset : only [.regs, .links, .lanes, .sw] s (s.set CLK_PLL_STATUS_LPLL_LOCK (putBit (s.fld CLK_PLL_STATUS_LPLL_LOCK) j.toNat true)) := only_mono (by simp) (only_set _ _)
  generalize s.set CLK_PLL_STATUS_LPLL_LOCK (putBit (s.fld CLK_PLL_STATUS_LPLL_LOCK) j.toNat true) = u at hexec hbit hset
  have hports : Links u (u.each (List.range 4) fun u i => u.checkPort (4 * j.toNat + i)) := .each fun _ _ _ => links_checkPort _
  refine ⟨_, hexec, ?_, only_trans hset (only_mono (by simp) hports.parts)⟩
  rw [hports.fld (not_clkReg_link clkReg_lpll)]
  exact hbit

/-! ## The lock of a layer's PLL -/

theorem setLyrLock_shows (b : Bool) : (s.setLyrLock n b).fld (VCP_LAYER_STATUS_PLL_LOCK (n - 2)) = b2n b := by
  refine fld_set_fits (f := VCP_LAYER_STATUS_PLL_LOCK (n - 2)) ?_ ?_ ?_
  · simp [VCP_LAYER_STATUS_PLL_LOCK]
  · simp [VCP_LAYER_STATUS_PLL_LOCK]
  · cases b <;> simp [VCP_LAYER_STATUS_PLL_LOCK, b2n]

theorem layer_locks {l : BitVec 5} (hvaon : s.rails.vaon = true) (hslow : s.start.slowHold = false) (hact : s.fld CLK_SRC_STATUS_ACTIVE_REF ≠ 0)
    (hlow : 2 ≤ l.toNat) (htop : l.toNat ≤ s.topLayer) (hphase : 4 ≤ s.phase) :
    ∃ t, exec (.pllLocked (.layer l)) s = .next t ∧ bitAt (t.fld CLK_PLL_STATUS_LYR_LOCK) (l.toNat - 2) = true ∧ t.fld (VCP_LAYER_STATUS_PLL_LOCK (l.toNat - 2)) = 1
      ∧ regsBut [CLK_PLL_STATUS.off, (VCP_LAYER_STATUS (l.toNat - 2)).off] s t ∧ only [.regs] s t := by
  obtain ⟨hguard, hexec⟩ := pllLocked_runs (q := .layer l) hvaon hslow hact
  rw [execPllLocked, if_neg (by rw [hguard]; decide)] at hexec
  rw [if_pos (by simp [State.layerOn, hlow, htop, hphase])] at hexec
  have htop' : s.topLayer ≤ 17 := by
    unfold State.topLayer State.nChans
    split
    · decide
    · split <;> decide
  exact ⟨_, hexec, setLyrLock_bit true (by omega), setLyrLock_shows true, setLyrLock_regsBut true, setLyrLock_only true⟩

/-! ## PLL_FOX is lost (R46) -/

theorem endTrap_quiet (h1 : cause ≠ 1) (h4 : cause ≠ 4) : s.endTrap e cause true = (workOver s e).reloadEng e true := by
  unfold State.endTrap
  extract_lets g s1 again mark g1 s2
  have hagain : again = false := by simp only [again, beq_eq_false_iff_ne.mpr h1, beq_eq_false_iff_ne.mpr h4, Bool.or_self, Bool.false_and]
  have hs2 : s2 = s1 := if_neg (by rintro (h | h) <;> contradiction)
  have hmark : ∀ x, mark x = x := fun x => if_neg (by rintro (h | h) <;> contradiction)
  rw [if_neg (by rw [hagain]; exact Bool.false_ne_true), hmark, hs2] <;> rfl

theorem trapNoted_workEnds : WorkEnds s (trapNoted s e cause) :=
  ((workEnds_setEng _).trans (workEnds_inc (by simp only [FOX_TRAPS]; omega))).trans (workEnds_set (by simp only [FOX_STATUS_TRAP_CAUSE]; omega))

/-- A trap that is neither a fetch nor a watchdog trap: the work it ends, and the reload that follows where nothing is outstanding. -/
theorem trapEng_quiet (h1 : cause ≠ 1) (h4 : cause ≠ 4) : ∃ x, WorkEnds s x ∧ (s.trapEng e cause = x ∨ s.trapEng e cause = x.reloadEng e true) := by
  by_cases hcan : canTrap s e
  · cases hrun : (s.eng e).run with
    | none =>
      rw [trapEng_idle hcan hrun, endTrap_quiet h1 h4]
      exact ⟨_, trapNoted_workEnds.trans workEnds_workOver, .inr rfl⟩
    | some r =>
      rw [trapEng_working hcan hrun]
      have hfails : WorkEnds s (trapFails s (trapStopped s e cause r) e r) := trapStopped_workEnds.trans (trapFails_workEnds _)
      split
      · exact ⟨_, hfails, .inl rfl⟩
      · rw [endTrap_quiet h1 h4]
        exact ⟨_, hfails.trans workEnds_workOver, .inr rfl⟩
  · refine ⟨s, .refl s, .inl ?_⟩
    have hguard : (decide (s.nEngines ≤ e) || (s.eng e).st == .off || (s.eng e).st == .disabled || (s.eng e).trapping.isSome) = true := by
      refine Bool.eq_true_of_not_eq_false fun h => ?_
      simp only [Bool.or_eq_false_iff, decide_eq_false_iff_not, beq_eq_false_iff_ne, Option.isSome_eq_false_iff, Option.isNone_iff_eq_none] at h
      exact hcan ⟨Nat.lt_of_not_le h.1.1.1, h.1.1.2, h.1.2, h.2⟩
    unfold State.trapEng
    dsimp only
    rw [if_pos hguard]

/-- What leaves the clocks alone, and nothing due at once in a stack that is awake. -/
structure ClocksAside (s t : State) : Prop where
  regs : clkSame s t
  clk : t.clk = s.clk
  calm : s.calm = true → s.sleep ≤ 1 → t.calm = true ∧ t.sleep ≤ 1

theorem ClocksAside.refl (s : State) : ClocksAside s s := ⟨clkSame_refl s, rfl, fun h h' => ⟨h, h'⟩⟩

theorem ClocksAside.trans (h : ClocksAside s t) (h' : ClocksAside t u) : ClocksAside s u :=
  ⟨h.regs.trans h'.regs, h'.clk.trans h.clk, fun hc hs => h'.calm (h.calm hc hs).1 (h.calm hc hs).2⟩

theorem ClocksAside.each {α : Type} {xs : List α} {f : State → α → State} (h : ∀ x a, ClocksAside x (f x a)) : ClocksAside s (s.each xs f) :=
  each_keeps (P := ClocksAside s) (.refl s) fun x _ hx => hx.trans (h x _)

theorem not_clkReg_work {o : Nat} (ho : clkReg o) : ¬ workReg o := by
  obtain ⟨hlow, hhigh⟩ := ho
  rintro (h | h | h)
  · exact not_clkReg_packet ⟨hlow, hhigh⟩ h
  · rw [h] at hlow; simp only [GLB_PWR_STATUS] at hlow; omega
  · omega

theorem not_clkReg_restart {o : Nat} (ho : clkReg o) : ¬ restartReg o := by
  rintro (h | h)
  · exact not_clkReg_work ho h
  · obtain ⟨hlow, hhigh⟩ := ho
    simp only [faultReg, recReg, packetReg, REC_FOLDS, RT_UNREACH, RT_CNT_VIOL_ROUTE, RT_HOPS_EXCEEDED, GLB_CNT_VIOL_MALFORMED, RT_WAIT_EXPIRED, RT_DROP, FLT_RAISED_LO,
      FLT_MERGED, FLT_ALARMS_SENT, FLT_ALARMS_FOLDED] at h
    omega

theorem WorkEnds.clocksAside (h : WorkEnds s t) : ClocksAside s t :=
  ⟨clkSame_of_frame h.frame fun _ => not_clkReg_work, h.frame.agree (p := .clk) (by decide), fun hc hs => ⟨h.calm hc, h.sleep hs⟩⟩

theorem reloadEng_clocksAside : ClocksAside s (s.reloadEng e true) where
  regs := clkSame_of_frame reloadEng_restarted.frame fun _ => not_clkReg_restart
  clk := reloadEng_restarted.frame.agree (p := .clk) (by decide)
  calm hc hs := by
    have hshown : TrapShown 0 (s.fld (FOX_TRAPS 0)) (s.fld (FOX_STATUS_TRAP_CAUSE 0)) s.chan s := ⟨rfl, rfl, rfl, hc, hs⟩
    obtain ⟨-, -, -, hcalm, hsleep⟩ := hshown.reloadEng (k := e)
    exact ⟨hcalm, hsleep⟩

theorem trapEng_clocksAside (h1 : cause ≠ 1) (h4 : cause ≠ 4) : ClocksAside s (s.trapEng e cause) := by
  obtain ⟨x, hx, h | h⟩ := trapEng_quiet (s := s) (e := e) h1 h4 <;> rw [h]
  · exact hx.clocksAside
  · exact hx.clocksAside.trans reloadEng_clocksAside

/-- A fault below class G, in a stack that is awake. -/
theorem raiseRec_clocksAside {f : FltCause} {unit detail : Nat} (hcls : ∀ x : State, (faultOf x f unit).2.1 ≠ .g) : ClocksAside s (s.raiseRec f unit detail) where
  regs := clkSame_raiseRec
  clk := raiseRec_frame.agree (p := .clk) (by decide)
  calm hc hs := by
    refine ⟨raiseRec_calm hc hs (hcls s), ?_⟩
    have hreg : (s.raiseRec f unit detail).sleep = s.sleep := raiseRec_frame.fld (f := GLB_PWR_STATUS_STATE) (by unfold faultReg recReg packetReg; decide)
    rw [hreg]
    exact hs

end Sys2Proof.Proofs
end

section
/-! The PLLs, the slow RC and the switch of MGT (R42, R44 to R46, R48, R51): the obligation on their commands. -/

namespace Sys2Proof.Proofs

set_option Elab.async false

open Sys2Proof.Machine Sys2Proof.Laws

variable {s t u : State} {n : Nat}

/-! ## A core PLL is lost (R46, R48) -/

theorem corePll_lost {f : Fld} (hoff : f.off = CLK_PLL_STATUS.off) (hlo : f.lo = f.hi) (hhi : f.hi < 32) :
    ClockFails s CLK_MON_STATUS_CORE_UNLOCK ((s.set f 0).cancelSwitch.clockLost CLK_MON_STATUS_CORE_UNLOCK) ∧ ((s.set f 0).cancelSwitch.clockLost CLK_MON_STATUS_CORE_UNLOCK).fld f = 0 := by
  have hapart : Apart f CLK_SRC_STATUS_MGT_SRC := .inl (by rw [hoff]; decide)
  have hzero : (s.set f 0).fld f = 0 := (fld_set_same s (by omega) hhi 0).trans (Nat.zero_mod _)
  have hphase : (s.set f 0).phase = s.phase := fld_set_ne s (by rw [hoff]; decide) 0
  have hmoved : MgtMoved (s.set f 0) (s.set f 0).cancelSwitch := mgtMoved_cancelSwitch
  have hlow : ∀ g : Fld, Apart g CLK_SRC_STATUS_MGT_SRC → g.off = CLK_SRC_STATUS.off ∨ g.off = CLK_PLL_STATUS.off → s.fld g = 0 → (s.set f 0).fld g = 0 := fun g _ hg hs => by
    by_cases ha : Apart g f
    · exact (fld_set_apart ⟨by omega, hhi⟩ ha).trans hs
    · have heq : f.off = g.off ∧ g.lo ≤ f.hi ∧ f.lo ≤ g.hi := by
        simp only [Apart, not_or, not_not, Nat.not_lt] at ha
        exact ⟨ha.1.symm, ha.2.1, ha.2.2⟩
      rw [State.fld, ← heq.1, State.set, reg_setReg_same]
      have hword : bitsOf (s.reg f.off) g.hi g.lo = 0 := by rw [heq.1]; exact hs
      refine Nat.eq_of_testBit_eq fun i => ?_
      have hbit := congrArg (fun x => Nat.testBit x i) hword
      simp only [bitsOf, Nat.zero_testBit] at hbit ⊢
      rw [Nat.testBit_mod_two_pow, Nat.testBit_div_two_pow] at hbit ⊢
      rw [Nat.testBit_mod_two_pow, testBit_putBits (by omega)]
      by_cases hin : f.lo ≤ i + g.lo ∧ i + g.lo ≤ f.hi
      · rw [if_pos hin, Nat.zero_testBit, Bool.and_false, Bool.and_false]
      · rw [if_neg hin]
        simp only [Bool.and_eq_false_iff] at hbit ⊢
        rcases hbit with h | h
        · exact .inl h
        · exact .inr (.inr h)
  generalize s.set f 0 = u at hzero hphase hmoved hlow
  have hfails := clockLost_fails (s := u.cancelSwitch) (f := CLK_MON_STATUS_CORE_UNLOCK) rfl rfl (by decide)
  refine ⟨⟨hfails.flag, hfails.forced, hfails.forcing, fun h => hfails.grave (by rw [hmoved.phase, hphase]; exact h), fun g hg hoffs hs => ?_⟩, ?_⟩
  · exact hfails.low g hg hoffs ((hmoved.src g hg).trans (hlow g hg hoffs hs))
  · exact hfails.low f hapart (.inr hoff) ((hmoved.src f hapart).trans hzero)

theorem core_lost {q : PllId × Fld} (hq : q ∈ [(.mgt, CLK_PLL_STATUS_MGT_LOCK), (.fab, CLK_PLL_STATUS_FAB_LOCK), (.chn, CLK_PLL_STATUS_CHN_LOCK), (.sto, CLK_PLL_STATUS_STO_LOCK)])
    (hon : s.fld q.2 = 1) :
    ∃ t, exec (.pllLockLost q.1) s = .next t ∧ t.fld q.2 = 0 ∧ t.fld CLK_MON_STATUS_CORE_UNLOCK = 1 ∧ t.fld CLK_MON_STATUS_FORCED_SAFE = 1 ∧ t.start.forcing = true ∧ (3 ≤ s.phase → t.start.grave = true) := by
  have hlock : s.on q.2 = true := by rw [State.on, hon]; rfl
  have hrun : exec (.pllLockLost q.1) s = .next ((s.set q.2 0).cancelSwitch.clockLost CLK_MON_STATUS_CORE_UNLOCK) ∧ q.2.off = CLK_PLL_STATUS.off ∧ q.2.lo = q.2.hi ∧ q.2.hi < 32 := by
    simp only [List.mem_cons, List.not_mem_nil, or_false] at hq
    rcases hq with rfl | rfl | rfl | rfl
    · exact ⟨congrArg Host.Outcome.next (if_pos hlock), rfl, rfl, by decide⟩
    · exact ⟨congrArg Host.Outcome.next (if_pos hlock), rfl, rfl, by decide⟩
    · exact ⟨congrArg Host.Outcome.next (if_pos hlock), rfl, rfl, by decide⟩
    · exact ⟨congrArg Host.Outcome.next (if_pos hlock), rfl, rfl, by decide⟩
  obtain ⟨hexec, hoff, hlo, hhi⟩ := hrun
  obtain ⟨hfails, hzero⟩ := corePll_lost (s := s) hoff hlo hhi
  exact ⟨_, hexec, hzero, hfails.flag, hfails.forced, hfails.forcing, hfails.grave⟩

/-! ## PLL_FOX is lost, and relocks (R46) -/

/-- PLL_FOX has lost its lock: its marks, and a switch under way cancelled. -/
def foxLost (s : State) : State :=
  (({ s with clk := { s.clk with foxRelock := true } } : State).sets [(CLK_PLL_STATUS_FOX_LOCK, 0), (CLK_MON_STATUS_FOX_UNLOCK, 1)]).cancelSwitch

theorem foxLost_shows : (foxLost s).fld CLK_PLL_STATUS_FOX_LOCK = 0 ∧ (foxLost s).fld CLK_MON_STATUS_FOX_UNLOCK = 1 ∧ (foxLost s).clk.foxRelock = true
    ∧ (foxLost s).calm = s.calm ∧ (foxLost s).sleep = s.sleep := by
  obtain ⟨u, hu⟩ : ∃ u, ({ s with clk := { s.clk with foxRelock := true } } : State).sets [(CLK_PLL_STATUS_FOX_LOCK, 0), (CLK_MON_STATUS_FOX_UNLOCK, 1)] = u := ⟨_, rfl⟩
  have hlock : u.fld CLK_PLL_STATUS_FOX_LOCK = 0 := by
    rw [← hu]
    exact fld_sets_reads [] ⟨by decide, by decide⟩ (by decide) (by simp [Proper, Apart, CLK_PLL_STATUS_FOX_LOCK, CLK_MON_STATUS_FOX_UNLOCK])
  have hflag : u.fld CLK_MON_STATUS_FOX_UNLOCK = 1 := by
    rw [← hu]
    exact fld_flag_same (f := CLK_MON_STATUS_FOX_UNLOCK) rfl (by decide)
  have hclk : u.clk = { s.clk with foxRelock := true } := by rw [← hu, sets_clk]
  have hcalm : u.calm = s.calm := calm_of (by rw [← hu, sets_pwr]) (by rw [← hu, sets_flt])
  have hsleep : u.sleep = s.sleep := by
    rw [← hu]
    exact fld_sets_apart (s := { s with clk := { s.clk with foxRelock := true } }) (by
      simp [Proper, Apart, CLK_PLL_STATUS_FOX_LOCK, CLK_MON_STATUS_FOX_UNLOCK, GLB_PWR_STATUS_STATE])
  have hmoved : MgtMoved u u.cancelSwitch := mgtMoved_cancelSwitch
  obtain ⟨a, b, hk⟩ := hmoved.clk
  rw [foxLost, hu]
  exact ⟨(hmoved.src _ (.inl (by decide))).trans hlock, (hmoved.src _ (.inl (by decide))).trans hflag, by rw [hk, hclk], hmoved.calm.trans hcalm,
    (hmoved.src _ (.inl (by decide))).trans hsleep⟩

theorem fox_lost (hlock : s.fld CLK_PLL_STATUS_FOX_LOCK = 1) (hcalm : s.calm = true) (hsleep : s.sleep ≤ 1) :
    ∃ t, exec (.pllLockLost .fox) s = .next t ∧ t.fld CLK_PLL_STATUS_FOX_LOCK = 0 ∧ t.fld CLK_MON_STATUS_FOX_UNLOCK = 1 ∧ t.clk.foxRelock = true := by
  have hexec : exec (.pllLockLost .fox) s = .next (((foxLost s).each (List.range (foxLost s).nEngines) fun u e => u.trapEng e 2).raise .foxPll 0 0) := by
    show execPllLockLost .fox s = _
    rw [execPllLockLost]
    dsimp only
    rw [if_neg (by simp [State.on, hlock])]
    rfl
  obtain ⟨hzero, hflag, hrelock, hcalm', hsleep'⟩ := foxLost_shows (s := s)
  generalize foxLost s = u at hexec hzero hflag hrelock hcalm' hsleep'
  have htraps : ClocksAside u (u.each (List.range u.nEngines) fun u e => u.trapEng e 2) := .each fun _ _ => trapEng_clocksAside (by decide) (by decide)
  generalize (u.each (List.range u.nEngines) fun u e => u.trapEng e 2) = v at hexec htraps
  have hraise : ClocksAside v (v.raiseRec .foxPll 0 0) := raiseRec_clocksAside fun x => by show FltClass.c ≠ .g; decide
  have hall := htraps.trans hraise
  rw [State.raise, settle_calm (hall.calm (hcalm'.trans hcalm) (by rw [hsleep']; exact hsleep)).1] at hexec
  exact ⟨_, hexec, (hall.regs.fld (by unfold clkReg; decide)).trans hzero, (hall.regs.fld (by unfold clkReg; decide)).trans hflag, by rw [hall.clk]; exact hrelock⟩

theorem clkSame_putEng (e : Nat) (g : Engine) : clkSame s (s.putEng e g) := (workEnds_putEng g).clocksAside.regs

theorem fox_relocks (hrelock : s.clk.foxRelock = true) (hdead : s.dead = false) :
    exec (.foxPllRelockTry false) s = .next s
      ∧ ∃ t, exec (.foxPllRelockTry true) s = .next t ∧ t.fld CLK_PLL_STATUS_FOX_LOCK = 1 ∧ t.clk = { s.clk with foxRelock := false } ∧ only [.clk, .regs, .fox] s t := by
  refine ⟨rfl, s.foxRelocked, if_pos (by simp [hrelock, hdead]), ?_⟩
  obtain ⟨u, hu⟩ : ∃ u, ({ s with clk := { s.clk with foxRelock := false } } : State).set CLK_PLL_STATUS_FOX_LOCK 1 = u := ⟨_, rfl⟩
  have hlock : u.fld CLK_PLL_STATUS_FOX_LOCK = 1 := by
    rw [← hu]
    exact fld_flag_same (f := CLK_PLL_STATUS_FOX_LOCK) rfl (by decide)
  have hclk : u.clk = { s.clk with foxRelock := false } := by rw [← hu, set_clk]
  have hparts : only [.clk, .regs, .fox] s u := by
    rw [← hu]
    exact only_trans (t := { s with clk := { s.clk with foxRelock := false } }) (only_mono (by simp) (only_clk _)) (only_mono (k := [.regs]) (by simp) (only_set _ _))
  unfold State.foxRelocked
  dsimp only
  rw [hu]
  have heach : only [.regs, .fox] u (u.each (List.range u.nEngines) fun u e =>
      if (!u.inReset 3 e && ((u.eng e).heldPll || ((u.eng e).st == .reload && (u.eng e).trapping.isNone))) = true then u.putEng e { u.eng e with heldPll := false, st := .idle } else u)
      ∧ clkSame u (u.each (List.range u.nEngines) fun u e =>
        if (!u.inReset 3 e && ((u.eng e).heldPll || ((u.eng e).st == .reload && (u.eng e).trapping.isNone))) = true then u.putEng e { u.eng e with heldPll := false, st := .idle } else u) :=
    ⟨only_each fun x e => only_ite (only_mono (by simp) (putEng_only _)) (only_refl _ _), clkSame_each fun x e => clkSame_ite (clkSame_putEng e _) (clkSame_refl _)⟩
  obtain ⟨honly, hregs⟩ := heach
  exact ⟨(hregs.fld (by unfold clkReg; decide)).trans hlock, (honly .clk (by decide)).trans hclk, only_trans hparts (only_mono (by simp) honly)⟩

/-! ## An LPLL is lost -/

/-- An LPLL has lost its lock: its marks, and a switch under way cancelled. -/
def lpllLost (s : State) (j : BitVec 3) : State :=
  (s.sets [(CLK_PLL_STATUS_LPLL_LOCK, putBit (s.fld CLK_PLL_STATUS_LPLL_LOCK) j.toNat false), (CLK_MON_STATUS_LPLL_UNLOCK, 1)]).cancelSwitch

theorem lpllLost_shows (j : BitVec 3) : bitAt ((lpllLost s j).fld CLK_PLL_STATUS_LPLL_LOCK) j.toNat = false ∧ (lpllLost s j).fld CLK_MON_STATUS_LPLL_UNLOCK = 1
    ∧ (lpllLost s j).calm = s.calm ∧ (lpllLost s j).sleep = s.sleep := by
  have hbit := lpllBit_set (s := s) j false
  have hcalm : (s.set CLK_PLL_STATUS_LPLL_LOCK (putBit (s.fld CLK_PLL_STATUS_LPLL_LOCK) j.toNat false)).calm = s.calm := calm_of (by simp) (by simp)
  have hsleep : (s.set CLK_PLL_STATUS_LPLL_LOCK (putBit (s.fld CLK_PLL_STATUS_LPLL_LOCK) j.toNat false)).sleep = s.sleep := fld_set_ne s (by decide) _
  rw [lpllLost, sets_cons, sets_cons, sets_nil]
  generalize s.set CLK_PLL_STATUS_LPLL_LOCK (putBit (s.fld CLK_PLL_STATUS_LPLL_LOCK) j.toNat false) = u at hbit hcalm hsleep
  have hflag : (u.set CLK_MON_STATUS_LPLL_UNLOCK 1).fld CLK_MON_STATUS_LPLL_UNLOCK = 1 := fld_flag_same (f := CLK_MON_STATUS_LPLL_UNLOCK) rfl (by decide)
  have hbit' : (u.set CLK_MON_STATUS_LPLL_UNLOCK 1).fld CLK_PLL_STATUS_LPLL_LOCK = u.fld CLK_PLL_STATUS_LPLL_LOCK := fld_set_ne u (by decide) 1
  have hsleep' : (u.set CLK_MON_STATUS_LPLL_UNLOCK 1).sleep = u.sleep := fld_set_ne u (by decide) 1
  have hcalm' : (u.set CLK_MON_STATUS_LPLL_UNLOCK 1).calm = u.calm := calm_of (by simp) (by simp)
  generalize u.set CLK_MON_STATUS_LPLL_UNLOCK 1 = v at hflag hbit' hsleep' hcalm'
  have hmoved : MgtMoved v v.cancelSwitch := mgtMoved_cancelSwitch
  refine ⟨?_, (hmoved.src _ (.inl (by decide))).trans hflag, (hmoved.calm.trans hcalm').trans hcalm, ((hmoved.src _ (.inl (by decide))).trans hsleep').trans hsleep⟩
  rw [hmoved.src _ (.inl (by decide)), hbit']
  exact hbit

theorem closePairs_clocksAside : ClocksAside s s.closePairs where
  regs := clkSame_of_frame fabric_closePairs fun _ => not_clkReg_fabric
  clk := fabric_closePairs.agree (p := .clk) (by decide)
  calm hc hs := by
    refine ⟨(fabric_closePairs.calm (by decide) (by decide)).trans hc, ?_⟩
    have hreg : s.closePairs.sleep = s.sleep := fabric_closePairs.fld (f := GLB_PWR_STATUS_STATE) (by unfold fabricReg packetReg; decide)
    rw [hreg]
    exact hs

theorem lpll_lost {j : BitVec 3} (hlock : bitAt (s.fld CLK_PLL_STATUS_LPLL_LOCK) j.toNat = true) (hcalm : s.calm = true) (hsleep : s.sleep ≤ 1) :
    ∃ t, exec (.pllLockLost (.lpll j)) s = .next t ∧ bitAt (t.fld CLK_PLL_STATUS_LPLL_LOCK) j.toNat = false ∧ t.fld CLK_MON_STATUS_LPLL_UNLOCK = 1 := by
  have hexec : exec (.pllLockLost (.lpll j)) s = .next (((lpllLost s j).closePairs).each (List.range 4) fun u i => u.raiseRec .lpll (4 * j.toNat + i) j.toNat).settle := by
    show execPllLockLost (.lpll j) s = _
    rw [execPllLockLost]
    dsimp only
    rw [if_neg (by simp [hlock])]
    rfl
  obtain ⟨hbit, hflag, hcalm', hsleep'⟩ := lpllLost_shows (s := s) j
  generalize lpllLost s j = u at hexec hbit hflag hcalm' hsleep'
  have hraise : ClocksAside u.closePairs (u.closePairs.each (List.range 4) fun u i => u.raiseRec .lpll (4 * j.toNat + i) j.toNat) :=
    .each fun _ _ => raiseRec_clocksAside fun x => by show FltClass.d ≠ .g; decide
  have hall := closePairs_clocksAside.trans hraise
  rw [settle_calm (hall.calm (hcalm'.trans hcalm) (by rw [hsleep']; exact hsleep)).1] at hexec
  exact ⟨_, hexec, by rw [hall.regs.fld clkReg_lpll]; exact hbit, (hall.regs.fld (by unfold clkReg; decide)).trans hflag⟩

/-! ## The slow RC (R44) -/

theorem slowRc_runs (hmgt : s.fld CLK_PLL_STATUS_MGT_LOCK = 1) (hstep : 5 ≤ s.clk.p2Step) (hgrave : s.start.grave = false) (hslow : s.start.slowHold = false) :
    (!s.on CLK_PLL_STATUS_MGT_LOCK || decide (s.clk.p2Step < 5) || s.start.grave || s.start.slowHold) = false := by
  simp [State.on, hmgt, hstep, hgrave, hslow]

theorem slowRc_passes (hmgt : s.fld CLK_PLL_STATUS_MGT_LOCK = 1) (hstep : 5 ≤ s.clk.p2Step) (hgrave : s.start.grave = false) (hslow : s.start.slowHold = false) (hlow : 46875 ≤ n) (hhigh : n ≤ 50781) :
    ∃ t, exec (.slowRcCheck n) s = .next t ∧ t.fld CLK_SRC_STATUS_SLOW_OK = 1 ∧ (s.pllsLocked = true → t.clk.p2Step = max s.clk.p2Step 7)
      ∧ regsBut [CLK_SRC_STATUS.off] s t ∧ only [.clk, .regs] s t := by
  have hexec : exec (.slowRcCheck n) s = .next (if s.pllsLocked then (s.set CLK_SRC_STATUS_SLOW_OK 1).setStep 7 else s.set CLK_SRC_STATUS_SLOW_OK 1) := by
    show execSlowRcCheck n s = _
    rw [execSlowRcCheck]
    dsimp only
    rw [if_neg (by rw [slowRc_runs hmgt hstep hgrave hslow]; decide), if_pos (by simp [hlow, hhigh])]
  have hok : (s.set CLK_SRC_STATUS_SLOW_OK 1).fld CLK_SRC_STATUS_SLOW_OK = 1 := fld_flag_same (f := CLK_SRC_STATUS_SLOW_OK) rfl (by decide)
  have hclk : (s.set CLK_SRC_STATUS_SLOW_OK 1).clk = s.clk := set_clk _ _ _
  have hregs : regsBut [CLK_SRC_STATUS.off] s (s.set CLK_SRC_STATUS_SLOW_OK 1) := regsBut_set (by decide)
  have hparts : only [.clk, .regs] s (s.set CLK_SRC_STATUS_SLOW_OK 1) := only_mono (by simp) (only_set _ _)
  generalize s.set CLK_SRC_STATUS_SLOW_OK 1 = u at hexec hok hclk hregs hparts
  by_cases hall : s.pllsLocked = true
  · rw [if_pos hall] at hexec
    have hmoved : MgtMoved u (u.setStep 7) := mgtMoved_step
    refine ⟨_, hexec, (setStep_fld _).trans hok, fun _ => ?_, regsBut_trans hregs hmoved.regs, only_trans hparts hmoved.parts⟩
    show max u.clk.p2Step 7 = _
    rw [hclk]
  · rw [if_neg hall] at hexec
    exact ⟨u, hexec, hok, fun h => absurd h hall, hregs, hparts⟩

theorem slowRc_fails (hmgt : s.fld CLK_PLL_STATUS_MGT_LOCK = 1) (hstep : 5 ≤ s.clk.p2Step) (hgrave : s.start.grave = false) (hslow : s.start.slowHold = false) (hout : n < 46875 ∨ 50781 < n) :
    ∃ t, exec (.slowRcCheck n) s = .next t ∧ t.fld CLK_SRC_STATUS_SLOW_OK = 0 ∧ t.fld CLK_MON_STATUS_SLOW_FAIL = 1 ∧ t.start.forcing = true
      ∧ (s.phase ≤ 2 → t.start.slowHold = true) ∧ (3 ≤ s.phase → t.start.grave = true) := by
  have hzero : (s.set CLK_SRC_STATUS_SLOW_OK 0).cancelSwitch.fld CLK_SRC_STATUS_SLOW_OK = 0 := by
    rw [mgtMoved_cancelSwitch.src _ (.inr (.inl (by decide)))]
    exact fld_set_same s (f := CLK_SRC_STATUS_SLOW_OK) (by decide) (by decide) 0
  obtain ⟨u, hu⟩ : ∃ u, (s.set CLK_SRC_STATUS_SLOW_OK 0).cancelSwitch = u := ⟨_, rfl⟩
  rw [hu] at hzero
  obtain ⟨hshow, hflag, -, hforcing⟩ := force_shows (s := u) (f := CLK_MON_STATUS_SLOW_FAIL) rfl rfl (by decide)
  obtain ⟨v, hv⟩ : ∃ v, u.force (some CLK_MON_STATUS_SLOW_FAIL) = v := ⟨_, rfl⟩
  rw [hv] at hshow hflag hforcing
  have hexec : exec (.slowRcCheck n) s = (if s.phase ≤ 2 then .next { v with start := { v.start with slowHold := true } } else .next (((v.raiseRec .slowFail 0 0).enterGrave).settle)) := by
    show execSlowRcCheck n s = _
    rw [execSlowRcCheck]
    dsimp only
    rw [if_neg (by rw [slowRc_runs hmgt hstep hgrave hslow]; decide), if_neg (by simp; omega), hu, hv]
  have hoff := hshow.low CLK_SRC_STATUS_SLOW_OK (.inl rfl) hzero
  by_cases hp : s.phase ≤ 2
  · rw [if_pos hp] at hexec
    exact ⟨_, hexec, hoff, hflag, hforcing, fun _ => rfl, fun h => by omega⟩
  · rw [if_neg hp] at hexec
    have hall : ClocksShown v ((v.raiseRec .slowFail 0 0).enterGrave).settle := (raiseRec_shows.trans enterGrave_shows).trans settle_shows
    exact ⟨_, hexec, hall.low _ (.inl rfl) hoff, hall.flag _ rfl rfl (by decide) hflag, hall.forcing hforcing, fun h => absurd h hp, fun _ => settle_keepsGrave enterGrave_grave⟩

/-! ## The switch of MGT (R51) -/

theorem switch_releases (hto : s.clk.switchTo = some n) (hn : n < 4) :
    ∃ t, exec .clkSwitchRelease s = .next t ∧ t.fld CLK_SRC_STATUS_MGT_SRC = n
      ∧ t.clk = { s.clk with switchTo := none, p2Step := if n = 2 then max s.clk.p2Step 5 else s.clk.p2Step } ∧ regsBut [CLK_SRC_STATUS.off] s t ∧ only [.clk, .regs] s t := by
  have hexec : exec .clkSwitchRelease s = .next (s.mgtFrom n) := by
    show execClkSwitchRelease s = _
    rw [execClkSwitchRelease, hto]
  obtain ⟨hsrc, hclk⟩ := mgtFrom_shows (s := s) hn
  exact ⟨_, hexec, hsrc, hclk, mgtMoved_mgtFrom.regs, mgtMoved_mgtFrom.parts⟩

theorem switch_times_out (hto : s.clk.switchTo = some n) (hn : n < 4) :
    ∃ t, exec .clkSwitchTimeout s = .next t ∧ t.fld CLK_SRC_STATUS_MGT_SRC = n
      ∧ t.clk = { s.clk with switchTo := none, p2Step := if n = 2 then max s.clk.p2Step 5 else s.clk.p2Step }
      ∧ t.reg CLK_SWITCH_FORCED.off = (s.reg CLK_SWITCH_FORCED.off + 1) % 2 ^ 32 ∧ only [.clk, .regs, .recd, .sett] s t := by
  obtain ⟨hsrc, hclk⟩ := mgtFrom_shows (s := s) hn
  have hmoved : MgtMoved s (s.mgtFrom n) := mgtMoved_mgtFrom
  have hexec : exec .clkSwitchTimeout s = .next (((s.mgtFrom n).inc CLK_SWITCH_FORCED).event 0x01 1 0 (((s.mgtFrom n).inc CLK_SWITCH_FORCED).fld CLK_SWITCH_FORCED) 0) := by
    show execClkSwitchTimeout s = _
    rw [execClkSwitchTimeout, hto]
  generalize s.mgtFrom n = u at hsrc hclk hmoved hexec
  have hcount : (u.inc CLK_SWITCH_FORCED).reg CLK_SWITCH_FORCED.off = (u.reg CLK_SWITCH_FORCED.off + 1) % 2 ^ 32 := reg_inc_word rfl rfl
  have hsrc' : (u.inc CLK_SWITCH_FORCED).fld CLK_SRC_STATUS_MGT_SRC = u.fld CLK_SRC_STATUS_MGT_SRC := fld_inc_ne (by decide)
  have hparts : only [.regs] u (u.inc CLK_SWITCH_FORCED) := only_inc
  generalize u.inc CLK_SWITCH_FORCED = v at hexec hcount hsrc' hparts
  have hevent : Frame [.regs, .recd, .sett] recReg v (v.event 0x01 1 0 (v.fld CLK_SWITCH_FORCED) 0) := event_frame _ (by decide) _ _ _
  refine ⟨_, hexec, ?_, ?_, ?_, ?_⟩
  · rw [hevent.fld (by unfold recReg; decide), hsrc', hsrc]
  · rw [hevent.agree (p := .clk) (by decide), hparts .clk (by decide), hclk]
  · rw [hevent.reg _ (by unfold recReg; decide), hcount, hmoved.regs _ (by decide)]
  · exact only_trans (only_trans (only_mono (by simp) hmoved.parts) (only_mono (by simp) hparts)) (only_mono (by simp) hevent.parts)

/-- Settles O13: each command of the PLLs, the slow RC and the switch is one of the lemmas on locks, losses and switches above. -/
theorem pllCommands : Obligations.PllCommands := by
  unfold Obligations.PllCommands
  refine ⟨fun s hvaon hslow hact => ⟨mgt_locks hvaon hslow hact, fun q hq => ⟨fun hearly => ?_, fun hstep => ?_⟩, fun hrelock hstep => ?_, fun j hj hstep => lpll_locks hvaon hslow hact hj hstep,
      fun l hlow htop hphase => layer_locks hvaon hslow hact hlow htop hphase⟩,
    fun q s hq hon => core_lost hq hon, fun s hlock hcalm hsleep => fox_lost hlock hcalm hsleep, fun j s hlock hcalm hsleep => lpll_lost hlock hcalm hsleep,
    fun s hrelock hdead => fox_relocks hrelock hdead,
    fun n s hmgt hstep hgrave hslow => ⟨fun hlow hhigh => slowRc_passes hmgt hstep hgrave hslow hlow hhigh, fun hout => slowRc_fails hmgt hstep hgrave hslow hout⟩,
    fun n s hto hn => ⟨switch_releases hto hn, switch_times_out hto hn⟩⟩
  · obtain ⟨hexec, -⟩ := core_locks hvaon hslow hact hq
    rw [hexec, State.lockPll, if_pos hearly]
  · obtain ⟨hexec, hoff, hlo, hhi⟩ := core_locks hvaon hslow hact hq
    exact ⟨_, hexec, lockPll_shows hoff hlo hhi hstep⟩
  · exact ⟨_, fox_locks hvaon hslow hact hrelock, lockPll_shows rfl rfl (by decide) hstep⟩

end Sys2Proof.Proofs
end

section
/-! SUPPORT. Block resets (R78, R79): what follows a write, and the parts that the write-backs of a channel leave alone. -/

namespace Sys2Proof.Proofs

set_option Elab.async false

open Sys2Proof.Machine Sys2Proof.Laws

variable {s t u : State} {k ix c b l : Nat} {via : Path} {a : Asker}

/-! ## What follows a command leaves block resets alone -/

theorem status_not_grave : ¬ graveReg RST_UNIT_STATUS.off := by
  rintro (⟨n, hn, he⟩ | hmem)
  · simp only [RST_UNIT_STATUS] at he
    omega
  · exact absurd hmem (by decide)

theorem status_clkReg : clkReg RST_UNIT_STATUS.off := ⟨by decide, by decide⟩

theorem wake_status (cause : Nat) : (s.wake cause).reg RST_UNIT_STATUS.off = s.reg RST_UNIT_STATUS.off :=
  (wake_clocks cause).elim (fun h => h _ status_clkReg) fun h => h.1 _ (by decide)

theorem settle_status : s.settle.reg RST_UNIT_STATUS.off = s.reg RST_UNIT_STATUS.off := by
  have hdue : (dueTaken s).reg RST_UNIT_STATUS.off = s.reg RST_UNIT_STATUS.off := by
    unfold dueTaken
    split
    · exact wake_status 4
    · rfl
  have hanswer : (dueTaken s).sleepStep2.reg RST_UNIT_STATUS.off = s.reg RST_UNIT_STATUS.off := (clkSame_sleepStep2 _ status_clkReg).trans hdue
  rw [settle_eq]
  split
  · exact (enterGrave_reg status_not_grave).trans hanswer
  · exact hanswer

theorem settle_resets : s.settle.unitResets = s.unitResets := settle_only .unitResets (by decide)

/-! ## A write that asks for a block reset -/

/-- A legal write that the register's rule answers OK to, and what follows it. -/
theorem pathWrite_settles {b : Blk} {off v o : Nat} (hb : blkOf off = some (b, o)) (hlegal : s.legal off v = true) (ht : s.takes via b = true)
    (hn : off ≠ FLT_ACK.off ∧ off ≠ FLT_INJ.off ∧ off ≠ GLB_MEM_CFG.off) (ha : ∀ d, descOf off = some d → s.applyWrite via b off o v d = (some stOK, t)) :
    s.pathWrite via off v = (t.pathStatus via stOK).settle := by
  obtain ⟨d, hd, hm, hr, hw, hl, hu⟩ := legal_desc hlegal hb
  obtain ⟨hup, hlim, hopen, -⟩ := takes_parts ht
  have hreg : s.regWrite via none off v = (some stOK, t) := by
    unfold State.regWrite
    rw [hb, hd]
    simp [hm, hr, hw, hl, hu, hopen, ha d hd, State.regWindow, State.noteResult, hn]
  have hlim' : (via != Path.mreg && s.pathLimited && off != REC_SETT_ADDR.off) = false := by
    rcases hlim with rfl | h
    · rfl
    · simp [h]
  unfold State.pathWrite
  simp [hup, mapHeld_of_ne hn.2.2, hlim', hreg]

/-- The row of RST_UNIT_CMD in the register map: KIND in bits 31 to 28, INDEX in bits 4 to 0. -/
theorem descOf_RST_UNIT_CMD : (descOf RST_UNIT_CMD.off).any (fun d => fieldMask d == 0xF000001F && !writesNothing RST_UNIT_CMD.off d) = true := by decide +kernel

theorem resetOrder_fits (h3 : k ≤ 3) (hix : ix < 32) : (k * 2 ^ 28 + ix) &&& 0xF000001F = k * 2 ^ 28 + ix := by
  have hand := mul_add_and (i := 28) (a := k) (c := 2 ^ 4 - 1) (show ix < 2 ^ 28 by omega) (show 2 ^ 5 - 1 < 2 ^ 28 by norm_num)
  rw [Nat.and_two_pow_sub_one_of_lt_two_pow (show k < 2 ^ 4 by omega), Nat.and_two_pow_sub_one_of_lt_two_pow (show ix < 2 ^ 5 by omega)] at hand
  rw [Nat.mul_comm k]
  exact hand

/-- A word of RST_UNIT_CMD with no reserved bit and a KIND of Table 4.11. -/
theorem resetWord_legal {v : Nat} (hmask : v &&& 0xF000001F = v) (hkind : within 1 3 (bitsOf v 31 28) = true) (hl : s.locked = false) : s.legal RST_UNIT_CMD.off v = true := by
  have hopen : openWord RST_UNIT_CMD.off v = true := by
    obtain ⟨d, hd, hp⟩ := (Option.any_eq_true _ _).1 descOf_RST_UNIT_CMD
    rw [Bool.and_eq_true, beq_iff_eq] at hp
    simp only [openWord, hd, Option.any_some, hp, hmask, beq_self_eq_true, Bool.and_self]
  refine legal_of_openWord (b := .rst) (o := 0x010) rfl hopen ?_ rfl hl
  simp [State.rsvdValue, hkind]

theorem resetOrder_legal (h1 : 1 ≤ k) (h3 : k ≤ 3) (hix : ix < 32) (hl : s.locked = false) : s.legal RST_UNIT_CMD.off (k * 2 ^ 28 + ix) = true := by
  have hkind : bitsOf (k * 2 ^ 28 + ix) 31 28 = k := (resetOperand rfl h3 hix).1
  exact resetWord_legal (resetOrder_fits h3 hix) (by rw [hkind, within, decide_eq_true h1, decide_eq_true h3]; rfl) hl

theorem applyWrite_rst {o v : Nat} (d : RegDesc) : s.applyWrite via .rst RST_UNIT_CMD.off o v d = atOnce (s.rstWrite via v) := rfl

/-- A write of RST_UNIT_CMD for a unit that is present, not in reset and not fenced starts its reset. -/
theorem resetOrder_settles (h1 : 1 ≤ k) (h3 : k ≤ 3) (hix : ix < 32) (ht : s.takes via .rst = true) (hl : s.locked = false) (hoff : s.unitOff k ix = false)
    (hin : s.inReset k ix = false) (hf : k = 2 → s.fld (CHAN_STATUS_FENCED ix) = 0) :
    s.pathWrite via RST_UNIT_CMD.off (k * 2 ^ 28 + ix) = ((s.startReset k ix (.reg via)).pathStatus via stOK).settle := by
  have hrule : s.rstWrite via (k * 2 ^ 28 + ix) = (stOK, s.startReset k ix (.reg via)) := by
    obtain ⟨hkind, -, hindex⟩ := resetOperand (w := k * 2 ^ 28 + ix) rfl h3 hix
    simp only [State.rstWrite, hkind, hindex, hl, resetCmd_starts hoff hin hf, Bool.false_eq_true, if_false]
  exact pathWrite_settles (b := .rst) (o := 0x010) rfl (resetOrder_legal h1 h3 hix hl) ht (by decide) fun d _ => atOnce_ok (applyWrite_rst d) hrule

/-- What the status of a begun reset shows still stands after what follows the write. -/
theorem ResetBegins.settled (h : ResetBegins k ix a s t) (hk : k ≤ 3) (hix : ix < 32) : (t.pathStatus via stOK).settle.unitResets = s.unitResets ++ [{ kind := k, index := ix, asker := a }]
    ∧ (t.pathStatus via stOK).settle.fld RST_UNIT_STATUS_BUSY = 1 ∧ (t.pathStatus via stOK).settle.fld RST_UNIT_STATUS_KIND = k
    ∧ (t.pathStatus via stOK).settle.fld RST_UNIT_STATUS_INDEX = ix := by
  have hresets : (t.pathStatus via stOK).settle.unitResets = t.unitResets := settle_resets.trans (only_pathStatus via stOK .unitResets (by decide))
  have hreg : (t.pathStatus via stOK).settle.reg RST_UNIT_STATUS.off = t.reg RST_UNIT_STATUS.off := settle_status.trans (pathStatus_reg _ _ _)
  have hfld : ∀ f : Fld, f.off = RST_UNIT_STATUS.off → (t.pathStatus via stOK).settle.fld f = t.fld f := fun f hf => by rw [State.fld, State.fld, hf, hreg]
  obtain ⟨hbusy, hkind, hindex⟩ := h.fields hk hix
  exact ⟨hresets.trans h.resets, (hfld RST_UNIT_STATUS_BUSY rfl).trans hbusy, (hfld RST_UNIT_STATUS_KIND rfl).trans hkind, (hfld RST_UNIT_STATUS_INDEX rfl).trans hindex⟩

/-! ## A channel shows that its reset has begun -/

theorem startReset_chan : s.startReset 2 ix a = (resetNoted s 2 ix a).set (CHAN_STATUS_STATE ix) 6 := rfl

theorem chanReset_shows (hcalm : s.calm = true) :
    ((s.startReset 2 ix a).pathStatus via stOK).settle = (s.startReset 2 ix a).pathStatus via stOK ∧ (s.startReset 2 ix a).fld (CHAN_STATUS_STATE ix) = 6
      ∧ regsBut [RST_UNIT_STATUS.off, (CHAN_STATUS ix).off] s ((s.startReset 2 ix a).pathStatus via stOK) ∧ taken via [.unitResets] s ((s.startReset 2 ix a).pathStatus via stOK) := by
  have honly : only [.regs, .unitResets] s (s.startReset 2 ix a) := by
    rw [startReset_chan]
    exact only_trans (only_mono (by simp) resetNoted_only) (only_mono (by simp) (only_set _ _))
  have hcalm' : ((s.startReset 2 ix a).pathStatus via stOK).calm = true := by
    rw [pathStatus_calm, ← hcalm]
    exact calm_of (honly .pwr (by decide)) (honly .flt (by decide))
  have hregs : regsBut [RST_UNIT_STATUS.off, (CHAN_STATUS ix).off] s (s.startReset 2 ix a) := by
    have hnoted : regsBut [RST_UNIT_STATUS.off, (CHAN_STATUS ix).off] s (resetNoted s 2 ix a) := fun o ho => reg_setReg_ne _ (fun he => ho (by simp [he])) _
    rw [startReset_chan]
    exact regsBut_trans hnoted (regsBut_set (by simp [CHAN_STATUS_STATE, CHAN_STATUS]))
  refine ⟨settle_calm hcalm', ?_, pathStatus_frame hregs honly (by decide)⟩
  rw [startReset_chan]
  exact fld_set_fits (f := CHAN_STATUS_STATE ix) (by simp [CHAN_STATUS_STATE]) (by simp [CHAN_STATUS_STATE]) (show 6 < 2 ^ 4 by omega)

/-! ## Writing a line back (R224, R240) -/

theorem only_draw (n : Nat) : only [.free] s (s.draw n).2 := only_free _

theorem activateRow_only (n : Nat) : only [.chan, .regs] s (s.activateRow c b n) := by
  unfold State.activateRow
  dsimp only
  exact only_trans (only_trans (only_mono (by simp) (only_setChn _ _)) (only_mono (by simp) (only_set _ _))) (only_mono (by simp) only_incPair)

/-- The parts that accesses to the blocks of the DRAM may change. -/
def blockParts : List Part := [.free, .chan, .regs, .prot]

theorem useRow_only : only blockParts s (s.useRow c b) := by
  unfold State.useRow
  exact only_ite (only_refl _ _) (only_trans (only_mono (by decide) (only_free _)) (only_mono (by decide) (activateRow_only _)))

theorem dramRead_only : only blockParts s (s.dramRead c b).2 := by
  unfold State.dramRead
  dsimp only
  split
  · exact only_refl _ _
  · split
    · exact only_refl _ _
    · exact only_mono (by decide) (only_draw 72)

theorem blockWrite_only (d : List (BitVec 8)) (p : Bool) : only blockParts s (s.blockWrite c b d p) := by
  unfold State.blockWrite
  have hpair : ∀ x : State, only blockParts x (x.incPair (CHAN_WR_LO c) 1) := fun x => only_mono (by decide) only_incPair
  have hdram : ∀ (x : State) (e : List (BitVec 8)), only blockParts x (x.dramWrite c b e) := fun x e => only_mono (by decide) (only_chan _)
  have hwritten := only_trans (only_trans (useRow_only (s := s) (c := c) (b := b)) (hdram _ (dramEncode (foldOf (s.lineHere c b) c b) d p))) (hpair _)
  dsimp only
  exact only_ite (only_trans hwritten (only_mono (by decide) only_inc)) hwritten

theorem blockFetch_only : only blockParts s (s.blockFetch c b).2 := by
  unfold State.blockFetch
  exact only_trans (only_trans useRow_only dramRead_only) (only_mono (by decide) only_incPair)

theorem stripeXor_only : only blockParts s (s.stripeXor c b).2 := by
  unfold State.stripeXor
  dsimp only
  generalize (zeros 64) = z
  have hfold : ∀ (xs : List Nat) (o : Option (List (BitVec 8))) (x : State), only blockParts s x →
      only blockParts s (xs.foldl (fun (p : Option (List (BitVec 8)) × State) i =>
        if p.2.chanOut i then (none, p.2)
        else
          let ((r, d), t) := p.2.blockFetch i b
          (match p.1 with
            | some acc => if r.good then some (xorBytes acc d) else none
            | none => none, t)) (o, x)).2 := by
    intro xs
    induction xs with
    | nil => exact fun o x hx => hx
    | cons i xs ih =>
      intro o x hx
      rw [List.foldl_cons]
      split
      · exact ih _ _ hx
      · exact ih _ _ (only_trans hx blockFetch_only)
  exact hfold _ _ _ (only_refl _ _)

theorem storeBlock_only (d : List (BitVec 8)) (p fresh : Bool) : only blockParts s (s.storeBlock c b d p fresh) := by
  have hdrop : only blockParts s (s.dropCorrective c b) := only_mono (by decide) (only_prot _)
  unfold State.storeBlock
  dsimp only
  split
  · have hboth := only_trans (only_trans (only_trans hdrop (blockFetch_only (c := c) (b := b))) (blockFetch_only (c := holderOf (c / 8) b) (b := b))) (blockWrite_only (c := c) (b := b) d p)
    split
    · exact only_trans hboth (blockWrite_only _ _)
    · have hxor := only_trans hboth (stripeXor_only (c := holderOf (c / 8) b) (b := b))
      split
      next heq => rw [heq] at hxor; exact only_trans hxor (blockWrite_only _ _)
      next heq => rw [heq] at hxor; exact only_trans (only_trans hxor (only_mono (by decide) (only_draw 64))) (blockWrite_only _ _)
  · exact only_trans hdrop (blockWrite_only _ _)

theorem lineWritten_only : only performParts s (s.lineWritten l) := by
  have hpair : only performParts s (s.incPair MARL_WRITEBACKS_LO 1) := only_mono (by decide) only_incPair
  have hmarl : ∀ (x : State) (m : MarlSt), only performParts x { x with marl := m } := fun x m => only_mono (by decide) (only_marl m)
  unfold State.lineWritten
  split
  · exact only_refl _ _
  · exact only_ite (only_trans hpair (hmarl _ _)) (only_ite (only_trans hpair (hmarl _ _)) (only_trans hpair (hmarl _ _)))

theorem writeBackNow_only (fresh : Bool) : only performParts s (s.writeBackNow l fresh) := by
  unfold State.writeBackNow
  split
  · exact only_refl _ _
  next x _ =>
    refine only_ite (only_refl _ _) ?_
    obtain ⟨v, hv⟩ : ∃ v, s.setChn (s.placeOf l).1 { s.chn (s.placeOf l).1 with writes := (s.chn (s.placeOf l).1).writes.filter fun w => w.line != some l } = v := ⟨_, rfl⟩
    have hchn : only performParts s v := hv ▸ only_mono (by decide) (only_setChn _ _)
    have hline : only performParts s (v.decodeLine l x).2 := only_trans hchn (performed_decodeLine x).frame.parts
    dsimp only
    rw [hv]
    split
    next heq => rw [heq] at hline; exact hline
    next r y heq =>
      rw [heq] at hline
      refine only_trans (only_trans (only_trans (only_trans hline (only_mono (by decide) (storeBlock_only (c := (s.placeOf l).1) (b := (s.placeOf l).2) r.data r.poison fresh))) (only_mono (by decide) (blockPerformed_only 3 bgGrp 1))) ?_) lineWritten_only
      exact only_mono (by decide) (only_marl _)

theorem clearQueues_only : only [.marl, .chan] s (s.clearQueues c) := by
  have hmarl : ∀ (x : State) (m : MarlSt), only [.marl, .chan] x { x with marl := m } := fun x m => only_mono (by simp) (only_marl m)
  unfold State.clearQueues
  dsimp only
  refine only_trans (only_trans (only_each fun x n => ?_) (only_each fun x n => hmarl _ _)) (only_mono (by simp) (only_setChn _ _))
  split
  · exact hmarl _ _
  · exact only_refl _ _

end Sys2Proof.Proofs
end

section
/-! Block resets (R78, R79): how one begins, and what its end shows. -/

namespace Sys2Proof.Proofs

set_option Elab.async false

open Sys2Proof.Machine Sys2Proof.Laws

variable {s t u : State} {k ix i c : Nat} {l : List UnitReset}

/-! ## The end of a block reset -/

/-- The resets under way are those listed; RST_UNIT_STATUS shows whether any is, and that the last one ended well. -/
structure ResetEnded (l : List UnitReset) (t : State) : Prop where
  resets : t.unitResets = l
  busy : t.fld RST_UNIT_STATUS_BUSY = b2n (!l.isEmpty)
  result : t.fld RST_UNIT_STATUS_RESULT = 0

theorem ResetEnded.of_same (h : ResetEnded l t) (hl : u.unitResets = t.unitResets) (hr : u.reg RST_UNIT_STATUS.off = t.reg RST_UNIT_STATUS.off) : ResetEnded l u := by
  have hfld : ∀ f : Fld, f.off = RST_UNIT_STATUS.off → u.fld f = t.fld f := fun f hf => by rw [State.fld, State.fld, hf, hr]
  exact ⟨hl.trans h.resets, (hfld RST_UNIT_STATUS_BUSY rfl).trans h.busy, (hfld RST_UNIT_STATUS_RESULT rfl).trans h.result⟩

theorem ResetEnded.of_frame {q : List Part} {r : Nat → Prop} (h : ResetEnded l t) (hf : Frame q r t u) (hq : Part.unitResets ∉ q) (hr : ¬ r RST_UNIT_STATUS.off) : ResetEnded l u :=
  h.of_same (hf.parts .unitResets hq) (hf.reg _ hr)

theorem mgmtDone_status (job : Nat) (st : BitVec 8) (res : List (BitVec 8)) : (s.mgmtDone job st res).reg RST_UNIT_STATUS.off = s.reg RST_UNIT_STATUS.off :=
  mgmtDone_reg (by decide)

/-- The resets that are left when that of one unit has ended. -/
def resetsLeft (s : State) (k ix : Nat) : List UnitReset := s.unitResets.filter fun v => !(v.kind == k && v.index == ix)

theorem unitResetEnd_ended : ResetEnded (resetsLeft s k ix) (s.unitResetEnd k ix stOK) := by
  unfold State.unitResetEnd
  dsimp only
  obtain ⟨t, ht⟩ : ∃ t : State, ({ s with unitResets := resetsLeft s k ix } : State).sets [(RST_UNIT_STATUS_BUSY, b2n (!(resetsLeft s k ix).isEmpty)), (RST_UNIT_STATUS_RESULT, stOK.toNat)] = t := ⟨_, rfl⟩
  have hbit : b2n (!(resetsLeft s k ix).isEmpty) < 2 ^ 1 := by cases (resetsLeft s k ix).isEmpty <;> decide
  have hshown : ResetEnded (resetsLeft s k ix) t := by
    subst ht
    refine ⟨only_sets _ .unitResets (by decide), ?_, ?_⟩
    · rw [sets_cons, sets_cons, sets_nil, fld_set_disjoint (f := RST_UNIT_STATUS_RESULT) (g := RST_UNIT_STATUS_BUSY) _ (by decide) (by decide) (.inl (by decide))]
      exact fld_set_fits (f := RST_UNIT_STATUS_BUSY) (by decide) (by decide) hbit
    · rw [sets_cons, sets_cons, sets_nil]
      exact fld_set_fits (f := RST_UNIT_STATUS_RESULT) (by decide) (by decide) (show 0 < 2 ^ 8 by decide)
  show ResetEnded _ ((({ s with unitResets := resetsLeft s k ix } : State).sets [(RST_UNIT_STATUS_BUSY, b2n (!(resetsLeft s k ix).isEmpty)), (RST_UNIT_STATUS_RESULT, stOK.toNat)]).each _ _)
  rw [ht]
  refine each_keeps (P := ResetEnded (resetsLeft s k ix)) hshown fun x m hx => ?_
  split
  · exact hx.of_same (mgmtDone_only _ _ _ _ .unitResets (by decide)) (mgmtDone_status _ _ _)
  · exact hx

/-! ## What the clearing of each kind of unit leaves of it -/

/-- The registers and the controller of a channel at the end of its reset (Table 4.8). -/
def chanRestarted (t : State) (i : Nat) : State :=
  ((t.setChn i { t.chn i with offsets := [0, 0, 0, 0, 0], window := [], heartbeat := true, srHeld := false, seq := 0 }).clearHbLost (layerOf i)).sets
    [(CHAN_TRAIN_RD_MARGIN i, Config.freeNat t.free), (CHAN_TRAIN_WR_MARGIN i, Config.freeNat (t.free + 1)), (CHAN_TRAIN_CA_MARGIN i, Config.freeNat (t.free + 2)), (CHAN_STATUS_STATE i, 2)]

/-- A channel at the end of its reset, with its three margins drawn. -/
def chanTrained (t : State) (i : Nat) : State := { chanRestarted t i with free := (chanRestarted t i).free + 3 }

/-- A channel's lines are written back, its layer enters self-refresh, and its queues are emptied. -/
def chanEmptied (s : State) (i : Nat) : State :=
  (((s.each ((s.linesOf i).map (·.1)) fun t l => t.writeBackNow l false).channelSr i).clearQueues i).incSat (VCP_LAYER_STATUS_HB_LOSS_COUNT (i / 2))

theorem channelSr_resets : (s.channelSr i).unitResets = s.unitResets := by
  have hcut : (s.cutBursts i).unitResets = s.unitResets := cutBursts_only i .unitResets (by decide)
  rw [channelSr_eq]
  generalize s.cutBursts i = u at *
  split
  · have hstopped : ∀ x : State, (retainLayer x i).unitResets = x.unitResets := fun _ => rfl
    rw [hstopped, only_set _ _ .unitResets (by decide), only_setChn _ _ .unitResets (by decide)]
    exact hcut
  · rfl

theorem chanEmptied_resets : (chanEmptied s i).unitResets = s.unitResets := by
  have hback : (s.each ((s.linesOf i).map (·.1)) fun t l => t.writeBackNow l false).unitResets = s.unitResets :=
    only_each (l := performParts) (fun _ _ => writeBackNow_only false) .unitResets (by decide)
  unfold chanEmptied
  generalize (s.each ((s.linesOf i).map (·.1)) fun t l => t.writeBackNow l false) = x at *
  have hqueues : ((x.channelSr i).clearQueues i).unitResets = s.unitResets := (clearQueues_only .unitResets (by decide)).trans (channelSr_resets.trans hback)
  generalize (x.channelSr i).clearQueues i = y at *
  exact hqueues

theorem chanRestarted_resets : (chanRestarted t i).unitResets = t.unitResets := by
  obtain ⟨x, hx⟩ : ∃ x, t.setChn i { t.chn i with offsets := [0, 0, 0, 0, 0], window := [], heartbeat := true, srHeld := false, seq := 0 } = x := ⟨_, rfl⟩
  have hchn : x.unitResets = t.unitResets := by rw [← hx]; rfl
  unfold chanRestarted
  rw [hx]
  have hlost : (x.clearHbLost (layerOf i)).unitResets = x.unitResets := clearHbLost_only .unitResets (by decide)
  generalize x.clearHbLost (layerOf i) = y at *
  exact (only_sets _ .unitResets (by decide)).trans (hlost.trans hchn)

theorem chanTrained_resets : (chanTrained t i).unitResets = t.unitResets := (only_free _ .unitResets (by decide)).trans chanRestarted_resets

theorem endUnitReset_ended {v : UnitReset} (h1 : 1 ≤ v.kind) (h3 : v.kind ≤ 3) : ResetEnded (resetsLeft s v.kind v.index) (s.endUnitReset v) := by
  unfold State.endUnitReset
  dsimp only
  split
  next hk => rw [hk]; exact unitResetEnd_ended.of_frame (links_checkPort _) (by decide) linkReg_status
  next hk1 =>
    split
    next hk =>
      rw [hk]
      have hleft : resetsLeft (chanTrained (chanEmptied s v.index) v.index) 2 v.index = resetsLeft s 2 v.index := by rw [resetsLeft, resetsLeft, chanTrained_resets, chanEmptied_resets]
      rw [← hleft]
      exact unitResetEnd_ended
    next hk2 =>
      have hk : v.kind = 3 := by omega
      rw [hk]
      split
      · exact unitResetEnd_ended
      · exact unitResetEnd_ended.of_frame reloadEng_restarted.frame (by decide) restartReg_status

theorem ResetEnded.settled (h : ResetEnded l t) : ResetEnded l t.serve.settle :=
  (h.of_frame performed_serve.frame (by decide) (by unfold performReg packetReg; decide)).of_same settle_resets settle_status

theorem blockResetDone_ends {v : UnitReset} (hdead : s.dead = false) (hfind : s.unitResets.find? s.resetReady = some v) (h1 : 1 ≤ v.kind) (h3 : v.kind ≤ 3) :
    ∃ t, exec .blockResetDone s = .next t ∧ t.unitResets = resetsLeft s v.kind v.index ∧ (t.fld RST_UNIT_STATUS_BUSY = 0 ↔ t.unitResets = []) ∧ t.fld RST_UNIT_STATUS_RESULT = 0 := by
  have hended : ResetEnded (resetsLeft s v.kind v.index) (s.endUnitReset v).serve.settle := (endUnitReset_ended h1 h3).settled
  refine ⟨_, ?_, hended.resets, ?_, hended.result⟩
  · show execBlockResetDone s = _
    simp [execBlockResetDone, hdead, hfind]
  · rw [hended.busy, hended.resets]
    cases resetsLeft s v.kind v.index <;> simp [b2n]

/-! ## A block reset begins -/

theorem blockReset_begins {via : Path} (h1 : 1 ≤ k) (h3 : k ≤ 3) (hix : ix < 32) (ht : s.takes via .rst = true) (hl : s.locked = false) (hoff : s.unitOff k ix = false)
    (hin : s.inReset k ix = false) (hf : k = 2 → s.fld (CHAN_STATUS_FENCED ix) = 0) :
    ∃ t, s.pathWrite via RST_UNIT_CMD.off (k * 2 ^ 28 + ix) = t ∧ t.unitResets = s.unitResets ++ [{ kind := k, index := ix, asker := .reg via }] ∧ t.fld RST_UNIT_STATUS_BUSY = 1
      ∧ t.fld RST_UNIT_STATUS_KIND = k ∧ t.fld RST_UNIT_STATUS_INDEX = ix
      ∧ (k = 2 → t.fld (CHAN_STATUS_STATE ix) = 6 ∧ regsBut [RST_UNIT_STATUS.off, (CHAN_STATUS ix).off] s t ∧ taken via [.unitResets] s t) := by
  obtain ⟨hresets, hbusy, hkind, hindex⟩ := (startReset_begins (s := s) (a := .reg via) h3 hix).settled (via := via) h3 hix
  refine ⟨_, resetOrder_settles h1 h3 hix ht hl hoff hin hf, hresets, hbusy, hkind, hindex, ?_⟩
  rintro rfl
  obtain ⟨hsettle, hstate, hregs, htaken⟩ := chanReset_shows (s := s) (ix := ix) (a := .reg via) (via := via) (takes_calm ht)
  rw [hsettle]
  exact ⟨(pathStatus_fld _ _ _).trans hstate, hregs, htaken⟩

/-- Settles O18: a taken write starts the reset and shows it (`blockReset_begins`), and the end of a reset of each kind leaves the others listed
(`endUnitReset_ended`), which neither the requests that it lets through nor what follows the command changes. -/
theorem unitResets : Obligations.UnitResets := by
  unfold Obligations.UnitResets
  refine ⟨fun via ix s c k hc ht hl hoff hin => ?_, fun v s hdead hfind h1 h3 => blockResetDone_ends hdead hfind h1 h3⟩
  obtain ⟨h1, h3, hf, hexec⟩ : 1 ≤ k ∧ k ≤ 3 ∧ (k = 2 → s.fld (CHAN_STATUS_FENCED ix.toNat) = 0) ∧ exec c s = .next (s.pathWrite via RST_UNIT_CMD.off (k * 2 ^ 28 + ix.toNat)) := by
    rcases hc with ⟨rfl, rfl⟩ | ⟨rfl, rfl, hf⟩ | ⟨rfl, rfl⟩
    · exact ⟨by decide, by decide, fun h => absurd h (by decide), by rw [Nat.one_mul]; rfl⟩
    · exact ⟨by decide, by decide, fun _ => hf, rfl⟩
    · exact ⟨by decide, by decide, fun h => absurd h (by decide), rfl⟩
  obtain ⟨t, hwrite, hrest⟩ := blockReset_begins (via := via) h1 h3 ix.isLt ht hl hoff hin hf
  exact ⟨t, by rw [hexec, hwrite], hrest⟩

end Sys2Proof.Proofs
end

section
/-! SUPPORT. The fault collector (R400 to R405): what a fault leaves in its record, and what the report of a record and all that follows a command
leave of the collector. -/

namespace Sys2Proof.Proofs

set_option Elab.async false

open Sys2Proof.Machine Sys2Proof.Laws

variable {s t u : State} {d e code detail unit : Nat} {cls : FltClass} {inj : Bool} {f : FltCause}

/-! ## The record of a fault (R403) -/

/-- Starting a timer concerns the timer alone. -/
theorem startTimer_eq (r : FltRec) : ∃ b x, s.startTimer r = { r with timerOn := b, timerEnd := x } := by
  unfold State.startTimer
  split <;> exact ⟨_, _, rfl⟩

/-- What a fault makes of its domain's record `r0`, the timer aside: it opens it, or merges into it with the higher class. -/
structure TakesFault (r0 r : FltRec) (code : Nat) (cls : FltClass) (detail : Nat) : Prop where
  isOpen : r.isOpen = true
  lastCause : r.lastCause = BitVec.ofNat 8 code
  detail : r.detail = BitVec.ofNat 32 detail
  seq : r.seq = r0.seq + 1
  opened : r0.isOpen = false → r.cls = cls ∧ r.firstCause = BitVec.ofNat 8 code ∧ r.merges = 0 ∧ r.st = recStOf cls
  merged : r0.isOpen = true → r.cls = (if clsCode r0.cls < clsCode cls then cls else r0.cls) ∧ r.firstCause = r0.firstCause ∧ r.merges = min 255 (r0.merges + 1)

theorem TakesFault.of_timer {r0 r : FltRec} {b : Bool} {x : Option Nat} (h : TakesFault r0 r code cls detail) : TakesFault r0 { r with timerOn := b, timerEnd := x } code cls detail :=
  ⟨h.isOpen, h.lastCause, h.detail, h.seq, h.opened, h.merged⟩

theorem fltMerge_takes : TakesFault (s.fltRec d) ((s.fltMerge d code cls detail inj).fltRec d) code cls detail := by
  unfold State.fltMerge
  dsimp only
  split
  next ho =>
    rw [fltRec_inc, fltRec_incPair, fltRec_setRec_same]
    split
    next hup =>
      obtain ⟨b, x, h⟩ := startTimer_eq (s := s) { s.fltRec d with merges := satAdd 255 (s.fltRec d).merges 1, seq := (s.fltRec d).seq + 1, lastCause := BitVec.ofNat 8 code, detail := BitVec.ofNat 32 detail, inj := (s.fltRec d).inj || inj, cls := cls, st := recStOf cls }
      rw [h]
      refine ⟨ho, rfl, rfl, rfl, fun hn => absurd ho (by simp [hn]), fun _ => ⟨?_, rfl, rfl⟩⟩
      rw [if_pos (of_decide_eq_true hup)]
    next hup =>
      refine ⟨ho, rfl, rfl, rfl, fun hn => absurd ho (by simp [hn]), fun _ => ⟨?_, rfl, rfl⟩⟩
      rw [if_neg (fun h => hup (decide_eq_true h))]
  next ho =>
    rw [fltRec_incPair, fltRec_setRec_same]
    obtain ⟨b, x, h⟩ := startTimer_eq (s := s) { isOpen := true, inj := inj, cls := cls, st := recStOf cls, seq := (s.fltRec d).seq + 1, firstCause := BitVec.ofNat 8 code, lastCause := BitVec.ofNat 8 code, detail := BitVec.ofNat 32 detail, tOpen := BitVec.ofNat 32 s.msUp }
    rw [h]
    exact ⟨rfl, rfl, rfl, rfl, fun _ => ⟨rfl, rfl, rfl, rfl⟩, fun ho' => absurd ho' ho⟩

theorem fltMerge_others (h : e ≠ d) : (s.fltMerge d code cls detail inj).fltRec e = s.fltRec e := by
  unfold State.fltMerge
  dsimp only
  split <;> exact fltRec_setRec_ne h _

theorem fltMerge_raised : (s.fltMerge d code cls detail inj).pair FLT_RAISED_LO = (s.pair FLT_RAISED_LO + 1) % 2 ^ 64 := by
  have hinc : ∀ x : State, (x.inc FLT_MERGED).pair FLT_RAISED_LO = x.pair FLT_RAISED_LO := fun x => by
    have h : ∀ o, o ≠ FLT_MERGED.off → (x.inc FLT_MERGED).reg o = x.reg o := fun o ho => reg_setReg_ne x ho _
    rw [State.pair, State.pair, h _ (by decide), h _ (by decide)]
  have hset : ∀ r, (s.setRec d r).pair FLT_RAISED_LO = s.pair FLT_RAISED_LO := fun _ => rfl
  unfold State.fltMerge
  dsimp only
  split
  · rw [hinc, pair_incPair_same, hset]
  · rw [pair_incPair_same, hset]

/-! ## The report of a record (R412, R423) -/

theorem recChanged_fltRec : (s.recChanged d).fltRec e = s.fltRec e := by rw [State.fltRec, State.fltRec, recChanged_recs]

/-- The registers that the report of a record may write: those of the recorder and of packets, and the counters of alarms. -/
def reportReg (o : Nat) : Prop := recReg o ∨ packetReg o ∨ o = FLT_ALARMS_SENT.off ∨ o = FLT_ALARMS_FOLDED.off

theorem sendAlarms_frame (d folded : Nat) : Frame [.regs, .recd, .sett, .sw, .flt] reportReg s (s.sendAlarms d folded) := by
  have hflt : ∀ (x : State) (y : FltSt), Frame [.regs, .recd, .sett, .sw, .flt] reportReg x { x with flt := y } := fun x y => .of_only (only_flt y) (by simp) (by simp)
  have hsent : Frame [.regs, .recd, .sett, .sw, .flt] reportReg s (s.each s.alarmDsts fun t e =>
      (({ t with flt := { t.flt with alarmSeq := t.flt.alarmSeq + 1 } }).inc FLT_ALARMS_SENT).emit (t.alarmPacket d folded (t.flt.alarmSeq + 1).toNat e)) := by
    refine .each fun x e _ => ?_
    exact ((hflt x _).trans (.inc (by simp) (.inr (.inr (.inl rfl))))).trans ((sends_emit _).mono (by simp) fun _ h => .inr (.inl h))
  simp only [State.sendAlarms]
  split
  · exact hsent
  · exact hsent.trans (hflt _ _)

theorem recChanged_frame : Frame [.regs, .recd, .sett, .sw, .flt] reportReg s (s.recChanged d) := by
  have hrec : Frame [.regs, .recd, .sett, .sw, .flt] reportReg s (s.faultRec d) := (record_frame 0x02 (fltSev_lt _) _ _ _).mono (by simp) fun _ h => .inl h
  refine hrec.trans ?_
  unfold State.recChanged State.alarm
  split
  · exact sendAlarms_frame d 1
  · exact Frame.trans (.inc (by simp) (.inr (.inr (.inr rfl)))) (.of_only (only_flt _) (by simp) (by simp))

theorem not_reportReg (o : Nat) (h : o = FLT_RAISED_LO.off ∨ o = FLT_RAISED_LO.off + 4 ∨ o = FLT_ESCALATED.off) : ¬ reportReg o := by
  unfold reportReg recReg packetReg
  rcases h with rfl | rfl | rfl <;> decide

/-! ## What the collector knows beside its records -/

/-- Whether the management core is down, and when a lockstep mismatch and an error of the switch came last. -/
def momentsOf (x : FltSt) : Bool × Option Nat × Option Nat := (x.mgcDown, x.lockstepAt, x.fabStateAt)

/-- These are as before. -/
def MomentsKept (s t : State) : Prop := momentsOf t.flt = momentsOf s.flt

theorem MomentsKept.trans (h : MomentsKept s t) (h' : MomentsKept t u) : MomentsKept s u := Eq.trans h' h

theorem MomentsKept.of_only {l : List Part} (h : only l s t) (hl : Part.flt ∉ l) : MomentsKept s t := congrArg momentsOf (h .flt hl)

theorem MomentsKept.ite {p : Prop} [Decidable p] (ht : MomentsKept s t) (hu : MomentsKept s u) : MomentsKept s (if p then t else u) := by
  split
  · exact ht
  · exact hu

theorem MomentsKept.parts (h : MomentsKept s t) : t.flt.mgcDown = s.flt.mgcDown ∧ t.flt.lockstepAt = s.flt.lockstepAt ∧ t.flt.fabStateAt = s.flt.fabStateAt := by
  unfold MomentsKept momentsOf at h
  simpa using h

theorem momentsKept_startTimers : MomentsKept s s.startTimers := by
  unfold State.startTimers
  exact .ite rfl rfl

theorem momentsKept_recChanged : MomentsKept s (s.recChanged d) := by
  have hrec : MomentsKept s (s.faultRec d) := .of_only (record_frame 0x02 (fltSev_lt _) _ _ _).parts (by decide)
  refine hrec.trans ?_
  unfold State.recChanged State.alarm
  split
  · have hsent : MomentsKept (s.faultRec d) ((s.faultRec d).each (s.faultRec d).alarmDsts fun t e =>
        (({ t with flt := { t.flt with alarmSeq := t.flt.alarmSeq + 1 } }).inc FLT_ALARMS_SENT).emit (t.alarmPacket d 1 (t.flt.alarmSeq + 1).toNat e)) :=
      each_keeps (P := MomentsKept (s.faultRec d)) rfl fun x e hx => Eq.trans (congrArg momentsOf (emit_flt _)) hx
    simp only [State.sendAlarms]
    split
    · exact hsent
    · exact hsent
  · rfl

theorem momentsKept_fltMerge : MomentsKept s (s.fltMerge d code cls detail inj) := by
  unfold State.fltMerge
  dsimp only
  exact .ite rfl rfl

theorem momentsKept_raiseRec : MomentsKept s (s.raiseRec f unit detail inj) := by
  have htaken : MomentsKept s (faultTaken s f unit detail inj) := momentsKept_fltMerge.trans momentsKept_recChanged
  rcases raiseRec_cases (s := s) (f := f) (unit := unit) (detail := detail) (inj := inj) with h | h | ⟨-, h⟩ <;> rw [h]
  · rfl
  · exact htaken
  · exact htaken

theorem momentsKept_wake (cause : Nat) : MomentsKept s (s.wake cause) := by
  have hset : ∀ (x : State) (f : Fld) (v : Nat), MomentsKept x (x.set f v) := fun x f v => .of_only (only_set f v) (by decide)
  have hawoken : ∀ x : State, MomentsKept x x.awoken := fun x =>
    have hback : MomentsKept x ((({ x with pwr := { x.pwr with waking := false, wakeTimer := 0 } } : State).sets [(GLB_PWR_STATUS_STATE, 0), (GLB_PWR_CTL_WAKE, 0)]).incSat GLB_PWR_STATUS_WAKE_COUNT) :=
      MomentsKept.trans (t := ({ x with pwr := { x.pwr with waking := false, wakeTimer := 0 } } : State).sets [(GLB_PWR_STATUS_STATE, 0), (GLB_PWR_CTL_WAKE, 0)])
        (.of_only (only_trans (only_mono (k := [.pwr]) (by simp) (only_pwr _)) (only_mono (k := [.regs]) (l := [.pwr, .regs]) (by simp) (only_sets _))) (by decide)) (hset _ _ _)
    hback.trans momentsKept_startTimers
  unfold State.wake
  split
  next e _ => exact .ite rfl (.ite (.ite rfl rfl) (.of_only (abandonEntry_only e) (by decide)))
  next =>
    refine .ite (hset _ _ _) (.ite ((hset _ _ _).trans (hset _ _ _)) (.ite rfl (.ite ?_ ?_)))
    · exact ((hset _ _ _).trans (.of_only (only_each fun _ c => channelUp_only c) (by decide))).trans (hawoken _)
    · exact (hset s GLB_PWR_STATUS_WAKE_CAUSE cause).trans (u := { (s.set GLB_PWR_STATUS_WAKE_CAUSE cause).clockStart with pwr := _, clk := _ })
        (MomentsKept.of_only (t := (s.set GLB_PWR_STATUS_WAKE_CAUSE cause).clockStart) clockStart_only (by decide))

theorem momentsKept_settle : MomentsKept s s.settle := by
  have hdue : MomentsKept s (dueTaken s) := .ite (momentsKept_wake 4) rfl
  have hanswer : MomentsKept s (dueTaken s).sleepStep2 := hdue.trans (.of_only sleepStep2_only (by decide))
  rw [settle_eq]
  exact .ite (hanswer.trans (.of_only enterGrave_only (by decide))) hanswer

/-! ## What follows a command leaves the records, and the counters of the collector -/

/-- The records stand, but for the moments at which their timers end. -/
theorem settle_fltRec : ∃ x, s.settle.fltRec d = { s.fltRec d with timerEnd := x } := by
  have hdue : FaultsKept s (dueTaken s) := by
    unfold dueTaken
    split
    · exact (faultsKept_wake 4).after (.of_eq rfl rfl)
    · exact .refl s
  obtain ⟨x, hx⟩ := (hdue.trans faultsKept_sleepStep2).recs d
  refine ⟨x, ?_⟩
  rw [settle_eq]
  split
  · rw [enterGrave_fltRec, hx]
  · exact hx

/-- Where nothing is due but the grave safe state, the records stand as they are. -/
theorem settle_fltRec_same (hw : s.pwr.wakeDue = false) (he : s.pwr.entry = none) : s.settle.fltRec d = s.fltRec d := by
  rcases settle_grave hw he with h | h <;> rw [h]
  exact enterGrave_fltRec d

/-- The registers that a wake from S0 to S3 may write. -/
def wakeReg (o : Nat) : Prop := o ∈ [GLB_PWR_CTL.off, GLB_PWR_STATUS.off, CLK_SRC_STATUS.off, CLK_PLL_STATUS.off] ∨ 0x60000 ≤ o

theorem wakeReg_of_mem {o : Nat} (h : o ∈ [GLB_PWR_CTL.off, GLB_PWR_STATUS.off, CLK_SRC_STATUS.off, CLK_PLL_STATUS.off]) : wakeReg o := .inl h

/-- The parts that a wake with no entry to sleep under way may change. -/
def backParts : List Part := [.pwr, .regs, .flt, .clk]

theorem awoken_frame : Frame backParts wakeReg s s.awoken := by
  unfold State.awoken
  refine Frame.trans (Frame.trans (Frame.trans (t := { s with pwr := { s.pwr with waking := false, wakeTimer := 0 } }) (.of_only (only_pwr _) (by decide) (by decide)) (.sets (by decide) ?_))
    (.set (by decide) (wakeReg_of_mem (by decide)))) (.of_only startTimers_only (by decide) (by decide))
  simp only [List.mem_cons, List.not_mem_nil, or_false]
  rintro _ (rfl | rfl)
  · exact wakeReg_of_mem (by decide)
  · exact wakeReg_of_mem (by decide)

theorem clockStart_frame : Frame backParts wakeReg s s.clockStart :=
  ⟨only_mono (by decide) clockStart_only, fun o ho => clockStart_regs o fun h => ho (wakeReg_of_mem (by simp only [List.mem_cons, List.not_mem_nil, or_false] at h ⊢; tauto))⟩

theorem wake_frame {cause : Nat} (hentry : s.pwr.entry = none) : Frame backParts wakeReg s (s.wake cause) := by
  have hset : ∀ (x : State) {f : Fld} {v : Nat}, f.off ∈ [GLB_PWR_CTL.off, GLB_PWR_STATUS.off, CLK_SRC_STATUS.off, CLK_PLL_STATUS.off] → Frame backParts wakeReg x (x.set f v) :=
    fun x f v h => .set (by decide) (wakeReg_of_mem h)
  unfold State.wake
  rw [hentry]
  dsimp only
  refine .ite (hset _ (by decide)) (.ite ((hset _ (by decide)).trans (hset _ (by decide))) (.ite (.refl _ _ _) (.ite ?_ ?_)))
  · exact ((hset s (f := GLB_PWR_STATUS_WAKE_CAUSE) (v := cause) (by decide)).trans (channelsUp_frame.mono (by decide) fun _ h => .inr h)).trans awoken_frame
  · refine ((hset s (f := GLB_PWR_STATUS_WAKE_CAUSE) (v := cause) (by decide)).trans clockStart_frame).trans (.of_only (k := [.pwr, .clk]) (fun q hq => ?_) (by decide) (by decide))
    cases q
    case pwr | clk => simp at hq
    all_goals rfl

theorem settle_reg {o : Nat} (hentry : s.pwr.entry = none) (hnone : (dueTaken s).pwr.entry = none) (hw : ¬ wakeReg o) (hg : ¬ graveReg o) : s.settle.reg o = s.reg o := by
  have hdue : (dueTaken s).reg o = s.reg o := by
    unfold dueTaken
    split
    · exact (wake_frame (s := wakeNoted s) hentry).reg o hw
    · rfl
  rcases settle_ofNone hnone with h | h <;> rw [h]
  · exact hdue
  · exact (enterGrave_reg hg).trans hdue

end Sys2Proof.Proofs
end

section
/-! SUPPORT. The fault collector (R400, R401, R404): faults, lockstep mismatches and timers. -/

namespace Sys2Proof.Proofs

set_option Elab.async false

open Sys2Proof.Machine Sys2Proof.Laws

variable {s t u : State} {d e n code detail unit : Nat} {cls : FltClass} {inj : Bool} {f : FltCause}

/-! ## A record changes, and what follows (R403, R405, R410) -/

theorem recChanged_pwr : (s.recChanged d).pwr = s.pwr := recChanged_frame.parts .pwr (by decide)

theorem recChanged_start : (s.recChanged d).start = s.start := recChanged_frame.parts .start (by decide)

theorem recChanged_calm : (s.recChanged d).calm = s.calm := by
  rw [State.calm, State.calm, graveRec_congr (recChanged_recs d), recChanged_pwr]

/-- A record that has reached class G leads to the grave safe state, in force before or not. -/
theorem settle_graveForced (ho : (s.fltRec d).isOpen = true) (hc : (s.fltRec d).cls = .g) : s.settle.start.grave = true := by
  by_cases hg : s.start.grave = true
  · exact settle_keepsGrave hg
  · obtain ⟨u, -, hu⟩ := settle_enterGrave (by simpa using hg) ho hc
    rw [hu]
    exact enterGrave_grave

/-- A fault that the collector takes: its record, what else the collector knows, and the grave safe state for class G. -/
structure FaultShown (s : State) (code : Nat) (cls : FltClass) (d detail : Nat) (t : State) : Prop where
  takes : TakesFault (s.fltRec d) (t.fltRec d) code cls detail
  moments : MomentsKept s t
  grave : cls = .g → (t.fltRec d).cls = .g ∧ t.start.grave = true

theorem faultShown_settle (h : TakesFault (s.fltRec d) (u.fltRec d) code cls detail) (hm : MomentsKept s u) (hg : cls = .g → (u.fltRec d).cls = .g) : FaultShown s code cls d detail u.settle := by
  obtain ⟨x, hx⟩ := settle_fltRec (s := u) (d := d)
  refine ⟨?_, hm.trans momentsKept_settle, fun hcls => ⟨?_, settle_graveForced h.isOpen (hg hcls)⟩⟩
  · rw [hx]
    exact h.of_timer (b := (u.fltRec d).timerOn)
  · rw [hx]
    exact hg hcls

theorem merged_shown : TakesFault (s.fltRec d) (((s.fltMerge d code cls detail inj).recChanged d).fltRec d) code cls detail
    ∧ MomentsKept s ((s.fltMerge d code cls detail inj).recChanged d) ∧ (cls = .g → (((s.fltMerge d code cls detail inj).recChanged d).fltRec d).cls = .g) := by
  rw [recChanged_fltRec]
  refine ⟨fltMerge_takes, momentsKept_fltMerge.trans momentsKept_recChanged, ?_⟩
  rintro rfl
  exact fltMerge_grave.2

/-- One more merge at a class of its own (R401, R402). -/
theorem escalate_shown {x : FltClass} (hf : causeOf .a f 0 = (code, x, d)) (hcol : s.collects = true) : FaultShown s code cls d detail (s.escalate f cls detail inj) := by
  have heq : s.escalate f cls detail inj = ((s.fltMerge d code cls detail inj).recChanged d).settle := by
    simp only [State.escalate, hf, hcol, if_true]
  obtain ⟨htakes, hmoments, hgrave⟩ := merged_shown (s := s) (d := d) (code := code) (cls := cls) (detail := detail) (inj := inj)
  rw [heq]
  exact faultShown_settle htakes hmoments hgrave

/-- A fault that the collector takes changes its record, with a wake asked for in sleep. -/
theorem raiseRec_taken (hf : faultOf s f unit = (code, cls, d)) (hoff : s.domOff d = false) (hcol : s.collects = true) :
    ∃ p, s.raiseRec f unit detail inj = { (s.fltMerge d code cls detail inj).recChanged d with pwr := p } ∧ p.entry = s.pwr.entry
      ∧ (s.sleep ≤ 1 → s.pwr.entry = none → p = s.pwr) := by
  have hpwr : ((s.fltMerge d code cls detail inj).recChanged d).pwr = s.pwr := recChanged_pwr.trans (fltMerge_faulted.parts .pwr (by decide))
  have heq : s.raiseRec f unit detail inj = if ((decide (2 ≤ s.sleep) || s.pwr.entry.isSome) && (cls == .c || cls == .d)) = true then
        { (s.fltMerge d code cls detail inj).recChanged d with pwr := { ((s.fltMerge d code cls detail inj).recChanged d).pwr with wakeDue := true } }
      else (s.fltMerge d code cls detail inj).recChanged d := by
    unfold State.raiseRec
    rw [show causeOf (if s.variant = 0x96 then .d else .a) f unit = (code, cls, d) from hf]
    simp only [hoff, hcol, Bool.not_true, Bool.or_self, Bool.false_eq_true, if_false]
  rw [heq]
  split
  next hasleep =>
    refine ⟨_, rfl, by rw [hpwr], fun hsleep hentry => ?_⟩
    have hawake : decide (2 ≤ s.sleep) = false := decide_eq_false (by omega)
    rw [hawake, hentry] at hasleep
    simp at hasleep
  next => exact ⟨s.pwr, by rw [← hpwr], rfl, fun _ _ => rfl⟩

theorem raise_shown (hf : faultOf s f unit = (code, cls, d)) (hoff : s.domOff d = false) (hcol : s.collects = true) : FaultShown s code cls d detail (s.raise f unit detail inj) := by
  obtain ⟨p, hp, -, -⟩ := raiseRec_taken (detail := detail) (inj := inj) hf hoff hcol
  obtain ⟨htakes, hmoments, hgrave⟩ := merged_shown (s := s) (d := d) (code := code) (cls := cls) (detail := detail) (inj := inj)
  rw [State.raise, hp]
  exact faultShown_settle (u := { (s.fltMerge d code cls detail inj).recChanged d with pwr := p }) htakes hmoments hgrave

theorem wake_entry {cause : Nat} (h : s.pwr.entry = none) : (s.wake cause).pwr.entry = none := by
  have hset : ∀ (x : State) (f : Fld) (v : Nat), (x.set f v).pwr = x.pwr := fun _ _ _ => rfl
  have hawoken : ∀ x : State, x.awoken.pwr = { x.pwr with waking := false, wakeTimer := 0 } := fun x => by
    rw [State.awoken, startTimers_only .pwr (by decide), State.incSat, hset, only_sets _ .pwr (by decide)]
  have hup : ∀ x : State, x.channelsUp.pwr = x.pwr := fun x => channelsUp_frame.parts .pwr (by decide)
  unfold State.wake
  rw [h]
  dsimp only
  split
  · exact h
  · split
    · exact h
    · split
      · exact h
      · split
        · rw [State.wakeS2, hawoken, hup, hset]
          exact h
        · exact h

theorem settle_raised (hentry : s.pwr.entry = none) : s.settle.pair FLT_RAISED_LO = s.pair FLT_RAISED_LO := by
  have hnone : (dueTaken s).pwr.entry = none := by
    unfold dueTaken
    split
    · exact wake_entry (s := wakeNoted s) hentry
    · exact hentry
  have hlow : ∀ o, o = FLT_RAISED_LO.off ∨ o = FLT_RAISED_LO.off + 4 → s.settle.reg o = s.reg o := fun o ho => by
    refine settle_reg hentry hnone ?_ ?_
    · rcases ho with rfl | rfl <;> unfold wakeReg <;> decide
    · rintro (⟨n, -, he⟩ | hmem)
      · rcases ho with rfl | rfl <;> simp only [FLT_RAISED_LO] at he <;> omega
      · rcases ho with rfl | rfl <;> exact absurd hmem (by decide)
  rw [State.pair, State.pair, hlow _ (.inl rfl), hlow _ (.inr rfl)]

theorem reported_raised : (s.recChanged d).pair FLT_RAISED_LO = s.pair FLT_RAISED_LO := by
  rw [State.pair, State.pair, recChanged_frame.reg _ (not_reportReg _ (.inl rfl)), recChanged_frame.reg _ (not_reportReg _ (.inr (.inl rfl)))]

/-- FAULT_RAISE where the grave safe state is not in force. -/
theorem faultRaise_runs {unit : BitVec 8} {detail : BitVec 32} (hf : faultOf s f unit.toNat = (code, cls, d)) (hdom : domListed d = true) (hg : s.start.grave = false) :
    exec (.faultRaise f unit detail) s = .next (s.raise f unit.toNat detail.toNat) := by
  have hlisted : domListed (causeOf .a f unit.toNat).2.2 = true := by
    rw [causeOf_domain .a, show causeOf (if s.variant = 0x96 then .d else .a) f unit.toNat = (code, cls, d) from hf]
    exact hdom
  simp [exec, execFaultRaise, hlisted, hg]

theorem faultRaise_records {unit : BitVec 8} {detail : BitVec 32} (hg : s.start.grave = false) (hcalm : s.calm = true) (hf : faultOf s f unit.toNat = (code, cls, d)) (hdom : domListed d = true)
    (hoff : s.domOff d = false) (hcol : s.collects = true) :
    ∃ t, exec (.faultRaise f unit detail) s = .next t ∧ FaultShown s code cls d detail.toNat t ∧ t.pair FLT_RAISED_LO = (s.pair FLT_RAISED_LO + 1) % 2 ^ 64
      ∧ (s.sleep ≤ 1 → ∀ k, k ≠ d → t.fltRec k = s.fltRec k) := by
  obtain ⟨hdue, hentry, -⟩ := calm_iff.mp hcalm
  obtain ⟨p, hp, hpentry, hawake⟩ := raiseRec_taken (detail := detail.toNat) (inj := false) hf hoff hcol
  have hraise : s.raise f unit.toNat detail.toNat = ({ (s.fltMerge d code cls detail.toNat false).recChanged d with pwr := p } : State).settle := by rw [State.raise, hp]
  refine ⟨_, faultRaise_runs hf hdom hg, raise_shown hf hoff hcol, ?_, fun hsleep k hk => ?_⟩
  · rw [hraise, settle_raised (hpentry.trans hentry)]
    exact reported_raised.trans fltMerge_raised
  · rw [hraise, settle_fltRec_same (by rw [hawake hsleep hentry]; exact hdue) (hpentry.trans hentry)]
    exact recChanged_fltRec.trans (fltMerge_others hk)

/-! ## Timers (R404) -/

theorem timerDue_parts (h : s.timerDue d cls = true) : (s.fltRec d).isOpen = true ∧ (s.fltRec d).cls = cls ∧ s.start.grave = false := by
  unfold State.timerDue at h
  simp only [Bool.and_eq_true, beq_iff_eq, Bool.not_eq_true'] at h
  obtain ⟨⟨⟨⟨⟨hopen, hcls⟩, -⟩, -⟩, -⟩, hgrave⟩ := h
  exact ⟨hopen, hcls, hgrave⟩

/-- What the containment or the degrade of a domain leaves alone: the records, what is due, and the count of escalations. -/
abbrev Contained (s t : State) : Prop := Frame [.links, .lanes, .sw, .regs, .fox] (fun o => o ≠ FLT_ESCALATED.off) s t

theorem contained_portReset (p : Nat) : Contained s (s.portReset p) := by
  unfold State.portReset
  refine .ite (.refl _ _ _) (((links_portClear p).trans (links_checkPort p)).mono (by decide) fun o ho he => ?_)
  rw [he] at ho
  exact absurd ho (by unfold linkReg packetReg; decide)

theorem contained_putEng (k : Nat) (g : Engine) : Contained s (s.putEng k g) :=
  ⟨only_mono (by decide) (putEng_only g), fun o ho => putEng_regs g o (by
    rw [not_ne_iff.mp ho]
    simp only [FLT_ESCALATED, FOX_STATUS, List.mem_singleton]
    omega)⟩

theorem contained_contain (d detail : Nat) : Contained s (s.contain d detail) := by
  unfold State.contain
  refine .ite (contained_portReset _) (.ite (.ite (.each fun x k _ => ?_) (.refl _ _ _)) (.refl _ _ _))
  exact .ite (.refl _ _ _) (contained_putEng _ _)

theorem contained_degrade (d : Nat) : Contained s (s.degrade d) := by
  unfold State.degrade State.offEng
  dsimp only
  exact .ite (.ite (contained_putEng _ _) (.of_only (only_fox _) (by decide) (by decide))) (.refl _ _ _)

theorem Contained.fltRec (h : Contained s t) : t.fltRec d = s.fltRec d := by rw [State.fltRec, State.fltRec, h.parts .flt (by decide)]

theorem Contained.calm (h : Contained s t) : t.calm = s.calm := calm_of (h.parts .pwr (by decide)) (h.parts .flt (by decide))

/-- A record is escalated: counted, and reported. -/
def escalated (s : State) (n : Nat) (r : FltRec) : State := ((s.setRec n r).inc FLT_ESCALATED).recChanged n

theorem escalated_fltRec {r : FltRec} : (escalated s n r).fltRec n = r := recChanged_fltRec.trans ((fltRec_inc _).trans (fltRec_setRec_same r))

theorem escalated_count {r : FltRec} : (escalated s n r).fld FLT_ESCALATED = (s.fld FLT_ESCALATED + 1) % 2 ^ 32 := by
  have hcount : ((s.setRec n r).inc FLT_ESCALATED).fld FLT_ESCALATED = ((s.setRec n r).fld FLT_ESCALATED + 1) % 2 ^ 32 := fld_inc_same (by decide) (by decide)
  exact (recChanged_frame.fld (f := FLT_ESCALATED) (not_reportReg _ (.inr (.inr rfl)))).trans hcount

theorem escalated_pwr {r : FltRec} : (escalated s n r).pwr = s.pwr := recChanged_pwr

theorem escalated_calm {r : FltRec} (hcalm : s.calm = true) (hr : (r.isOpen && r.cls == .g) = false) : (escalated s n r).calm = true := by
  have hset : ((s.setRec n r).inc FLT_ESCALATED).calm = (s.setRec n r).calm := calm_of rfl rfl
  rw [escalated, recChanged_calm, hset]
  exact calm_setRec hcalm hr

theorem Contained.escalations (h : Contained s t) : t.fld FLT_ESCALATED = s.fld FLT_ESCALATED := h.fld (f := FLT_ESCALATED) fun hn => hn rfl

theorem cTimer_expires {d : BitVec 8} (hcalm : s.calm = true) (hdue : s.timerDue d.toNat .c = true) :
    ∃ t, exec (.cTimerExpiry d) s = .next t ∧ (t.fltRec d.toNat).auto = true ∧ (t.fltRec d.toNat).contained = true ∧ (t.fltRec d.toNat).cls = .d
      ∧ (t.fltRec d.toNat).seq = (s.fltRec d.toNat).seq + 1 ∧ (t.fltRec d.toNat).st = (s.fltRec d.toNat).st ∧ t.fld FLT_ESCALATED = (s.fld FLT_ESCALATED + 1) % 2 ^ 32 := by
  obtain ⟨w, hw⟩ : ∃ w, (if (s.fltRec d.toNat).contained then s else s.contain d.toNat (s.fltRec d.toNat).detail.toNat) = w := ⟨_, rfl⟩
  have hcontained : Contained s w := hw ▸ .ite (.refl _ _ _) (contained_contain _ _)
  obtain ⟨b, x, hr⟩ := startTimer_eq (s := w) { s.fltRec d.toNat with auto := true, contained := true, cls := .d, seq := (s.fltRec d.toNat).seq + 1 }
  obtain ⟨r, hr'⟩ : ∃ r, w.startTimer { s.fltRec d.toNat with auto := true, contained := true, cls := .d, seq := (s.fltRec d.toNat).seq + 1 } = r := ⟨_, rfl⟩
  have hcalm' : (escalated w d.toNat r).calm = true := escalated_calm (hcontained.calm.trans hcalm) (by rw [← hr', hr]; simp)
  have hexec : exec (.cTimerExpiry d) s = .next (escalated w d.toNat r) := by
    show execCTimerExpiry d s = _
    unfold execCTimerExpiry
    simp only [hdue, if_true, hw, hr']
    exact congrArg Host.Outcome.next (settle_calm hcalm')
  refine ⟨_, hexec, ?_, ?_, ?_, ?_, ?_, by rw [escalated_count, hcontained.escalations]⟩
  all_goals rw [escalated_fltRec, ← hr', hr]

theorem dTimer_expires {d : BitVec 8} (hcalm : s.calm = true) (hdue : s.timerDue d.toNat .d = true) :
    ∃ t, exec (.dTimerExpiry d) s = .next t ∧ (t.fltRec d.toNat).auto = true ∧ (t.fltRec d.toNat).timerOn = false ∧ (t.fltRec d.toNat).seq = (s.fltRec d.toNat).seq + 1
      ∧ (if essential d.toNat then (t.fltRec d.toNat).cls = .g ∧ (t.fltRec d.toNat).st = .grave ∧ t.start.grave = true else (t.fltRec d.toNat).cls = .d ∧ (t.fltRec d.toNat).st = .degraded)
      ∧ t.fld FLT_ESCALATED = (s.fld FLT_ESCALATED + 1) % 2 ^ 32 := by
  obtain ⟨hopen, hcls, hgrave⟩ := timerDue_parts hdue
  obtain ⟨hwake, hentry, -⟩ := calm_iff.mp hcalm
  have hexec : exec (.dTimerExpiry d) s = .next ((((if essential d.toNat then s.setRec d.toNat { s.fltRec d.toNat with auto := true, seq := (s.fltRec d.toNat).seq + 1, timerOn := false, timerEnd := none, cls := .g, st := .grave }
      else (s.degrade d.toNat).setRec d.toNat { s.fltRec d.toNat with auto := true, seq := (s.fltRec d.toNat).seq + 1, timerOn := false, timerEnd := none, st := .degraded }).inc FLT_ESCALATED).recChanged d.toNat).settle) := by
    show execDTimerExpiry d s = _
    unfold execDTimerExpiry
    rw [if_pos hdue]
  refine ⟨_, hexec, ?_⟩
  split
  next hess =>
    obtain ⟨r, hr⟩ : ∃ r, ({ s.fltRec d.toNat with auto := true, seq := (s.fltRec d.toNat).seq + 1, timerOn := false, timerEnd := none, cls := .g, st := .grave } : FltRec) = r := ⟨_, rfl⟩
    have hrec : (escalated s d.toNat r).settle.fltRec d.toNat = r := (settle_fltRec_same (by rw [escalated_pwr]; exact hwake) (by rw [escalated_pwr]; exact hentry)).trans escalated_fltRec
    have hforced : (escalated s d.toNat r).settle.start.grave = true :=
      settle_graveForced (d := d.toNat) (by rw [escalated_fltRec, ← hr]; exact hopen) (by rw [escalated_fltRec, ← hr])
    have hcount : (escalated s d.toNat r).settle.fld FLT_ESCALATED = (s.fld FLT_ESCALATED + 1) % 2 ^ 32 := by
      rw [← escalated_count (n := d.toNat) (r := r)]
      have hnot : ¬ graveReg FLT_ESCALATED.off := by
        rintro (⟨n, -, he⟩ | hmem)
        · simp only [FLT_ESCALATED] at he
          omega
        · exact absurd hmem (by decide)
      rcases settle_grave (s := escalated s d.toNat r) (by rw [escalated_pwr]; exact hwake) (by rw [escalated_pwr]; exact hentry) with h | h <;> rw [h]
      rw [State.fld, State.fld, enterGrave_reg hnot]
    rw [hr, show ((s.setRec d.toNat r).inc FLT_ESCALATED).recChanged d.toNat = escalated s d.toNat r from rfl, hrec, ← hr]
    exact ⟨rfl, rfl, rfl, ⟨rfl, rfl, hr ▸ hforced⟩, hr ▸ hcount⟩
  next hess =>
    obtain ⟨w, hw⟩ : ∃ w, s.degrade d.toNat = w := ⟨_, rfl⟩
    have hcontained : Contained s w := hw ▸ contained_degrade _
    obtain ⟨r, hr⟩ : ∃ r, ({ s.fltRec d.toNat with auto := true, seq := (s.fltRec d.toNat).seq + 1, timerOn := false, timerEnd := none, st := .degraded } : FltRec) = r := ⟨_, rfl⟩
    have hcalm' : (escalated w d.toNat r).calm = true := escalated_calm (hcontained.calm.trans hcalm) (by rw [← hr]; simp [hcls])
    rw [hw, hr, show ((w.setRec d.toNat r).inc FLT_ESCALATED).recChanged d.toNat = escalated w d.toNat r from rfl, settle_calm hcalm', escalated_fltRec, escalated_count, hcontained.escalations, ← hr]
    exact ⟨rfl, rfl, rfl, ⟨hcls, rfl⟩, rfl⟩

/-! ## Lockstep (R401) -/

/-- A lockstep mismatch is noted: both cores halt. -/
def coresHalted (s : State) : State := { s with flt := { s.flt with lockstepAt := some s.now, mgcDown := true } }

theorem mgcDomain_on : s.domOff 3 = false := by simp [State.domOff]

theorem lockstep_halts {pc : BitVec 32} (hdead : s.dead = false) (hdown : s.flt.mgcDown = false) (hinj : s.flt.inject = none) (hcol : s.collects = true) :
    ∃ t, exec (.lockstepMismatch pc) s = .next t ∧ t.flt.mgcDown = true ∧ t.flt.lockstepAt = some s.now ∧ (t.fltRec 3).isOpen = true ∧ (t.fltRec 3).lastCause = 0x40 ∧ (t.fltRec 3).detail = pc
      ∧ (s.within1s s.flt.lockstepAt = true → (t.fltRec 3).cls = .g ∧ t.start.grave = true) := by
  have hexec : exec (.lockstepMismatch pc) s = .next (if s.within1s s.flt.lockstepAt then (coresHalted s).escalate .lockstep .g pc.toNat false else (coresHalted s).raise .lockstep 0 pc.toNat false) := by
    show execLockstepMismatch pc s = _
    unfold execLockstepMismatch
    rw [injCheck_none hinj]
    simp only [hdead, hdown, Bool.or_self, Bool.false_eq_true, if_false, Option.isSome_none]
    rfl
  have hpc : BitVec.ofNat 32 pc.toNat = pc := BitVec.ofNat_toNat ..  |>.trans (BitVec.setWidth_eq pc)
  refine ⟨_, hexec, ?_⟩
  split
  · have h : FaultShown (coresHalted s) 0x40 .g 3 pc.toNat ((coresHalted s).escalate .lockstep .g pc.toNat false) := escalate_shown (x := .c) rfl hcol
    obtain ⟨hmgc, hlock, -⟩ := h.moments.parts
    exact ⟨hmgc, hlock, h.takes.isOpen, h.takes.lastCause, h.takes.detail.trans hpc, fun _ => h.grave rfl⟩
  next hnot =>
    have h : FaultShown (coresHalted s) 0x40 .c 3 pc.toNat ((coresHalted s).raise .lockstep 0 pc.toNat false) := raise_shown rfl mgcDomain_on hcol
    obtain ⟨hmgc, hlock, -⟩ := h.moments.parts
    exact ⟨hmgc, hlock, h.takes.isOpen, h.takes.lastCause, h.takes.detail.trans hpc, fun hagain => absurd hagain hnot⟩

theorem reload_fails (hdown : s.flt.mgcDown = true) (hcol : s.collects = true) :
    ∃ t, exec (.mgcReloadDone false) s = .next t ∧ t.flt.mgcDown = true ∧ (t.fltRec 3).cls = .g ∧ t.start.grave = true := by
  have hexec : exec (.mgcReloadDone false) s = .next (s.escalate .lockstep .g (s.fltRec 3).detail.toNat false) := by
    show execMgcReloadDone false s = _
    simp [execMgcReloadDone, hdown]
  have h : FaultShown s 0x40 .g 3 (s.fltRec 3).detail.toNat (s.escalate .lockstep .g (s.fltRec 3).detail.toNat false) := escalate_shown (x := .c) rfl hcol
  exact ⟨_, hexec, h.moments.parts.1.trans hdown, h.grave rfl⟩

end Sys2Proof.Proofs
end

section
/-! SUPPORT. The fault collector (R402, R410, R412): what the switch holds of a port that is reset, and the alarms of a domain. -/

namespace Sys2Proof.Proofs

set_option Elab.async false

open Sys2Proof.Machine Sys2Proof.Laws

variable {s t u : State} {p m d n folded : Nat} {q : Packet}

/-! ## Packets of the stack's own come from no port -/

theorem addIn_ingress (x : InPkt) : ∃ h, (s.addIn x).sw.ingress = s.sw.ingress ++ [{ x with held := h }] := by
  unfold State.addIn
  cases x.held.isEmpty with
  | false => exact ⟨x.held, rfl⟩
  | true =>
    obtain ⟨k, hk⟩ := placeCells_only s (s.cellLines x.pkt)
    exact ⟨(s.placeCells (s.cellLines x.pkt)).1, by simp [hk]⟩

theorem addOut_ingress (x : OutPkt) : (s.addOut x).sw.ingress = s.sw.ingress := by
  obtain ⟨held, n, h⟩ := addOut_eq s x
  rw [h]

/-- What stands in an ingress account stood there, or is the stack's own. -/
def OwnJoins (s t : State) : Prop := ∀ i ∈ t.sw.ingress, i ∈ s.sw.ingress ∨ i.port = ownPort

theorem OwnJoins.of_eq (h : t.sw.ingress = s.sw.ingress) : OwnJoins s t := fun _ hi => .inl (h ▸ hi)

theorem OwnJoins.trans (h : OwnJoins s t) (h' : OwnJoins t u) : OwnJoins s u := fun i hi => (h' i hi).elim (h i) .inr

theorem ownJoins_place (held : List Nat) : OwnJoins s (s.place q held).1 := by
  unfold State.place
  split
  · exact .of_eq (addOut_ingress _)
  · split
    · exact .of_eq rfl
    · exact .of_eq (addOut_ingress _)
  · obtain ⟨h, hin⟩ := addIn_ingress (s := s) { port := ownPort, link := 8, vc := q.hdr.vc, pkt := q, cells := q.flits, held := held, at_ := s.now }
    intro i hi
    rw [hin, List.mem_append, List.mem_singleton] at hi
    exact hi.imp id fun he => by rw [he]
  · exact .of_eq rfl

theorem ownJoins_emitRsp (held : List Nat) : OwnJoins s (s.emitRsp q held) := by
  have h := ownJoins_place (s := s) (q := q) held
  unfold State.emitRsp
  split
  next heq => rw [heq] at h; exact h
  next heq => rw [heq] at h; exact h.trans (.of_eq rfl)

theorem ownJoins_emit : OwnJoins s (s.emit q) := by
  have h := ownJoins_place (s := s) (q := q) []
  unfold State.emit
  split
  next heq => rw [heq] at h; exact h
  next heq =>
    rw [heq] at h
    refine h.trans ?_
    unfold State.failPacket
    split
    · exact OwnJoins.trans (.of_eq rfl) (ownJoins_emitRsp _)
    · unfold State.when
      split <;> exact .of_eq rfl

/-! ## The alarms of a domain (R412, R413) -/

/-- One ALARM of a domain goes to a destination. -/
def alarmTo (d folded : Nat) (t : State) (e : BitVec 18) : State :=
  (({ t with flt := { t.flt with alarmSeq := t.flt.alarmSeq + 1 } } : State).inc FLT_ALARMS_SENT).emit (t.alarmPacket d folded (t.flt.alarmSeq + 1).toNat e)

theorem sendAlarms_eq : s.sendAlarms d folded = if s.alarmDsts.isEmpty then s.each s.alarmDsts (alarmTo d folded)
    else { s.each s.alarmDsts (alarmTo d folded) with flt := { (s.each s.alarmDsts (alarmTo d folded)).flt with wins := mput d {} (s.each s.alarmDsts (alarmTo d folded)).flt.wins } } := rfl

/-- What `n` alarms leave: their numbers are given, their count rises, and the switch holds them. -/
structure AlarmsSent (n : Nat) (s t : State) : Prop where
  flt : t.flt = { s.flt with alarmSeq := s.flt.alarmSeq + BitVec.ofNat 32 n }
  count : t.fld FLT_ALARMS_SENT = (s.fld FLT_ALARMS_SENT + n) % 2 ^ 32
  parts : only [.flt, .sw, .regs] s t
  joins : OwnJoins s t

theorem alarmsSent_zero : AlarmsSent 0 s s where
  flt := by simp
  count := (Nat.mod_eq_of_lt (fld_lt s FLT_ALARMS_SENT)).symm
  parts := only_refl _ _
  joins := .of_eq rfl

theorem alarmsSent_one (e : BitVec 18) : AlarmsSent 1 s (alarmTo d folded s e) where
  flt := emit_flt _
  count := by
    obtain ⟨x, hx⟩ : ∃ x : State, ({ s with flt := { s.flt with alarmSeq := s.flt.alarmSeq + 1 } } : State) = x := ⟨_, rfl⟩
    have hsame : x.fld FLT_ALARMS_SENT = s.fld FLT_ALARMS_SENT := by rw [← hx]; rfl
    unfold alarmTo
    rw [hx, ← hsame]
    exact ((sends_emit _).fld (f := FLT_ALARMS_SENT) (by unfold packetReg; decide)).trans (fld_inc_same (by decide) (by decide))
  parts := only_trans (only_trans (only_mono (k := [.flt]) (by simp) (only_flt _)) (only_mono (by simp) only_inc)) (only_mono (by simp) (sends_emit _).parts)
  joins := OwnJoins.trans (.of_eq rfl) ownJoins_emit

theorem AlarmsSent.trans {k : Nat} (h : AlarmsSent n s t) (h' : AlarmsSent k t u) : AlarmsSent (n + k) s u where
  flt := by
    rw [h'.flt, h.flt, BitVec.ofNat_add, BitVec.add_assoc]
  count := by
    rw [h'.count, h.count]
    omega
  parts := only_trans h.parts h'.parts
  joins := h.joins.trans h'.joins

theorem alarmsSent_each (l : List (BitVec 18)) : AlarmsSent l.length s (s.each l (alarmTo d folded)) := by
  induction l generalizing s with
  | nil => exact alarmsSent_zero
  | cons e l ih =>
    rw [List.length_cons, Nat.add_comm]
    exact (alarmsSent_one e).trans ih

theorem ownJoins_sendAlarms : OwnJoins s (s.sendAlarms d folded) := by
  have h := (alarmsSent_each (s := s) (d := d) (folded := folded) s.alarmDsts).joins
  rw [sendAlarms_eq]
  split <;> exact h

theorem ownJoins_recChanged : OwnJoins s (s.recChanged d) := by
  have hrec : OwnJoins s (s.faultRec d) := .of_eq (congrArg SwitchSt.ingress ((record_frame 0x02 (fltSev_lt _) _ _ _).parts .sw (by decide)))
  refine hrec.trans ?_
  unfold State.recChanged State.alarm
  split
  · exact ownJoins_sendAlarms
  · exact .of_eq rfl

/-! ## A port that is reset holds nothing in the switch (R79, R402) -/

/-- No packet of a port stands in the switch. -/
def Swept (p : Nat) (s : State) : Prop := (∀ i ∈ s.sw.ingress, i.port ≠ p) ∧ ∀ o ∈ s.sw.egress, o.port ≠ p

theorem Swept.of_sw (h : Swept p s) (hsw : t.sw = s.sw) : Swept p t := by rwa [Swept, hsw, ← Swept]

theorem Swept.strand (h : Swept p s) : Swept p (s.strand p) := by
  have hnone : s.sw.egress.filter (fun o => o.port == p && o.waiting.isNone) = [] := List.filter_eq_nil_iff.mpr fun o ho => by simp [h.2 o ho]
  unfold State.strand
  dsimp only
  split
  · exact h
  · split
    · rw [hnone]
      exact ⟨h.1, fun o ho => h.2 o (List.mem_of_mem_filter ho)⟩
    · refine ⟨h.1, fun o ho => ?_⟩
      obtain ⟨x, hx, rfl⟩ := List.mem_map.mp ho
      split
      · exact h.2 x hx
      · exact h.2 x hx

theorem startLink_sw (p m : Nat) : (s.startLink p m).sw = s.sw := by
  have hlanes : (lanesStarted s p m).sw = s.sw := lanes_lanesStarted.parts .sw (by decide)
  rw [startLink_eq, only_sendBlocks .sw (by decide), only_atStepOne .sw (by decide), hlanes]

theorem Swept.linkLayerDown (h : Swept p s) : Swept p (s.linkLayerDown p m) := by
  refine ⟨fun i hi => ?_, h.2⟩
  obtain ⟨x, hx, rfl⟩ := List.mem_map.mp hi
  split
  · exact h.1 x hx
  · exact h.1 x hx

theorem Swept.when {b : Bool} {f : State → State} (h : Swept p s) (hf : Swept p (f s)) : Swept p (s.when b f) := by
  cases b
  · exact h
  · exact hf

theorem Swept.linkLeft {reason : Nat} (h : Swept p s) : Swept p (linkLeft s p m reason) := by
  have hlayer : Swept p (s.when (inService (s.lst p m) || s.lst p m == 6 || (s.link p m).resume) fun x => x.linkLayerDown p m) := h.when h.linkLayerDown
  have hcount := hlayer.when (b := inService (s.lst p m) && (reason != 7 || !s.linkEn p)) (f := fun x => x.inc (PORT_LINK_DOWNS p)) (hlayer.of_sw (only_inc .sw (by decide)))
  unfold Proofs.linkLeft
  generalize State.when _ _ _ = x at hcount ⊢
  exact hcount.of_sw (only_set _ _ .sw (by decide))

theorem linkAnew_sw (reason : Nat) : (linkAnew s p m reason).sw = s.sw := by
  unfold linkAnew
  split
  · have hstart := startLink_sw (s := s) p m
    generalize s.startLink p m = x at *
    exact (only_set _ _ .sw (by decide)).trans hstart
  · have hlanes : Lanes s (lanesStopped s p m) := .each fun _ n _ => (lanes_laneRestart n).trans (lanes_setLane _ _)
    have hstopped : (lanesStopped s p m).sw = s.sw := hlanes.parts .sw (by decide)
    generalize lanesStopped s p m = x at *
    exact (only_sets _ .sw (by decide)).trans ((only_setLink _ _ _ .sw (by decide)).trans hstopped)

theorem Swept.linkDown {reason : Nat} (h : Swept p s) : Swept p (s.linkDown p m reason) := by
  rw [linkDown_eq]
  exact (h.linkLeft.of_sw (linkAnew_sw reason)).strand

theorem Swept.checkPort (h : Swept p s) : Swept p (s.checkPort p) := by
  unfold State.checkPort
  refine each_keeps (P := Swept p) h fun x m hx => ?_
  split
  · split
    · exact hx.of_sw ((only_set _ _ .sw (by decide)).trans (startLink_sw p m))
    · exact hx
  · split
    · exact hx.of_sw rfl
    · exact hx.linkDown

theorem swept_portClear : Swept p (s.portClear p) := by
  unfold State.portClear
  dsimp only
  refine each_keeps (P := Swept p) ⟨fun i hi => ?_, fun o ho => ?_⟩ fun x l hx => hx.of_sw rfl
  · simpa using (List.mem_filter.mp hi).2
  · simpa using (List.mem_filter.mp ho).2

theorem swept_portReset (hp : p < s.nPorts) : Swept p (s.portReset p) := by
  unfold State.portReset
  rw [if_neg (by omega)]
  exact swept_portClear.checkPort

end Sys2Proof.Proofs
end

section
/-! The fault collector (R400 to R405, R410, R412): the grave flush, the reload of the management core, errors of the switch, and alarm windows. -/

namespace Sys2Proof.Proofs

set_option Elab.async false

open Sys2Proof.Machine Sys2Proof.Laws

variable {s t u : State} {d p : Nat}

/-! ## The grave flush (R410, R428) -/

/-- The queues of the recorder are given up, and no freeze goes on. -/
def queuesLeft (s : State) : State := { s with recd := { s.recd with holding := [], staging := [], freeze := .off, waiter := false } }

/-- What the flush leaves of the queued records and the counters. -/
def graveSaved (s : State) : State :=
  if s.flt.mgcDown then (queuesLeft s).each (s.recd.holding ++ s.recd.staging) fun t it => t.lost (itemSev it) else ((queuesLeft s).each (s.recd.holding ++ s.recd.staging) State.logItem).saveCounters

/-- The grave safe state is complete. -/
def graveComplete (s : State) : State := ({ s with start := { s.start with graveDone := true } } : State).set GLB_START_STATUS_PHASE 0xC

theorem graveFlush_eq : exec .graveFlushDone s = if s.start.grave && !s.start.graveDone && s.fld CLK_SRC_STATUS_MGT_SRC != 0 then .next (graveComplete (graveSaved s)) else .next s := rfl

theorem graveSaved_only : only [.sett, .regs] (queuesLeft s) (graveSaved s) := by
  unfold graveSaved
  split
  · exact only_each fun x it => only_mono (by simp) (only_inc (f := REC_LOST (itemSev it)))
  · have hlog : LogKept (queuesLeft s) ((queuesLeft s).each (s.recd.holding ++ s.recd.staging) State.logItem) := .each fun _ it => logItem_kept it
    exact only_mono (by simp) (hlog.trans saveCounters_kept).parts

theorem graveComplete_phase : (graveComplete s).phase = 0xC := fld_set_fits (f := GLB_START_STATUS_PHASE) (by decide) (by decide) (show 0xC < 2 ^ 4 by omega)

theorem graveComplete_only : only [.start, .regs] s (graveComplete s) :=
  only_trans (only_mono (k := [.start]) (by simp) (only_start _)) (only_mono (k := [.regs]) (by simp) (only_set _ _))

theorem graveComplete_start : (graveComplete s).start = { s.start with graveDone := true } := rfl

theorem graveFlush_completes (hgrave : s.start.grave = true) (hdone : s.start.graveDone = false) (hmgt : s.fld CLK_SRC_STATUS_MGT_SRC ≠ 0) :
    ∃ t, exec .graveFlushDone s = .next t ∧ t.phase = 0xC ∧ t.start = { s.start with graveDone := true } ∧ t.recd = { s.recd with holding := [], staging := [], freeze := .off, waiter := false }
      ∧ (s.flt.mgcDown = false → mget t.sett.slots (t.sett.flushSeq.toNat % 256) ≠ none) ∧ (s.flt.mgcDown = true → t.sett = s.sett) ∧ only [.start, .recd, .sett, .regs] s t := by
  have hsaved := graveSaved_only (s := s)
  have hsett : (graveComplete (graveSaved s)).sett = (graveSaved s).sett := graveComplete_only .sett (by decide)
  refine ⟨_, graveFlush_eq.trans (if_pos (by simp [hgrave, hdone, hmgt])), graveComplete_phase, ?_, ?_, fun hup => ?_, fun hdown => ?_, ?_⟩
  · rw [graveComplete_start, hsaved .start (by decide)]
    rfl
  · rw [graveComplete_only .recd (by decide), hsaved .recd (by decide)]
    rfl
  · rw [hsett, graveSaved, if_neg (by simp [hup]), saveCounters_slot]
    exact Option.some_ne_none _
  · have hlost : only [.regs] (queuesLeft s) ((queuesLeft s).each (s.recd.holding ++ s.recd.staging) fun t it => t.lost (itemSev it)) :=
      only_each fun x it => only_inc (f := REC_LOST (itemSev it))
    rw [hsett, graveSaved, if_pos hdown, hlost .sett (by decide)]
    rfl
  · have hleft : only [.start, .recd, .sett, .regs] s (queuesLeft s) := only_mono (k := [.recd]) (by simp) (only_recd _)
    exact only_trans (only_trans hleft (only_mono (by simp) hsaved)) (only_mono (by simp) graveComplete_only)

/-! ## The reload of the management core (R401) -/

theorem mgmtDone_foxLeft (job : Nat) (st : BitVec 8) (res : List (BitVec 8)) : (s.mgmtDone job st res).fox = { s.fox with mgmt := s.fox.mgmt.filter fun m => m.job != job } :=
  finishDesc_fine _ _ _ .fox (by decide)

/-- Every operation of ring 0 in progress completes. -/
theorem allDone_fox (l : List Mgmt) (st : BitVec 8) (res : List (BitVec 8)) :
    (s.each l fun t m => t.mgmtDone m.job st res).fox = { s.fox with mgmt := s.fox.mgmt.filter fun m => l.all fun x => m.job != x.job } := by
  induction l generalizing s with
  | nil => simp [State.each]
  | cons x l ih =>
    refine (ih (s := s.mgmtDone x.job st res)).trans ?_
    rw [mgmtDone_foxLeft, List.filter_filter]
    simp only [List.all_cons, Bool.and_comm]

theorem filter_apartFromAll (l : List Mgmt) : (l.filter fun m => l.all fun x => m.job != x.job) = [] := by
  refine List.filter_eq_nil_iff.mpr fun m hm hall => ?_
  simpa using List.all_eq_true.mp hall m hm

/-- The cores run again. -/
def coresRun (s : State) : State := { s with flt := { s.flt with mgcDown := false } }

theorem reload_completes (hdown : s.flt.mgcDown = true) (hslot : s.fld GLB_START_STATUS_FW_SLOT ≠ 3) :
    ∃ t, exec (.mgcReloadDone true) s = .next t ∧ t.flt = { s.flt with mgcDown := false } ∧ t.fox = { s.fox with mgmt := [] } ∧ only [.flt, .fox, .rings, .regs] s t
      ∧ ∀ m, s.fox.mgmt = [m] → (∃ d ∈ (s.ring 0).descs, d.job = m.job ∧ d.st ≠ .done) → ended0 s t m.job 0x0D [] := by
  have hexec : exec (.mgcReloadDone true) s = .next ((coresRun s).each s.fox.mgmt fun t m => t.mgmtDone m.job 0x0D []) := by
    show execMgcReloadDone true s = _
    simp only [execMgcReloadDone, hdown, Bool.not_true, Bool.false_eq_true, if_false]
    rw [if_pos (by simp [hslot])]
    rfl
  have hends : only ringParts (coresRun s) ((coresRun s).each s.fox.mgmt fun t m => t.mgmtDone m.job 0x0D []) := only_each fun _ m => mgmtDone_only _ _ _ _
  refine ⟨_, hexec, hends .flt (by decide), ?_, ?_, fun m hm hheld => ?_⟩
  · rw [allDone_fox]
    show { s.fox with mgmt := s.fox.mgmt.filter fun m => s.fox.mgmt.all fun x => m.job != x.job } = _
    rw [filter_apartFromAll]
  · exact only_trans (only_mono (k := [.flt]) (by simp) (only_flt _)) (only_mono (by simp [ringParts]) hends)
  · rw [hm]
    exact mgmtDone_ended (u := coresRun s) hheld rfl

/-! ## Errors of the switch (R402) -/

/-- An error of the switch is noted, and its port reset. -/
def portFailed (s : State) (p : Nat) : State := ({ s with flt := { s.flt with fabStateAt := some s.now } } : State).portReset p

/-- The fault of an error of the switch: of class D where one came within the last second. -/
def fabReported (s : State) (p : Nat) (again : Bool) (detail : Nat) : State := ((portFailed s p).fltMerge 2 0x41 (if again then .d else .c) detail false).recChanged 2

/-- The port has had the containment of its domain. -/
def contained (s : State) : State := s.setRec 2 { s.fltRec 2 with contained := true }

theorem portFailed_keeps : Contained ({ s with flt := { s.flt with fabStateAt := some s.now } } : State) (portFailed s p) := contained_portReset p

theorem portFailed_reg {o : Nat} (ho : ¬ linkReg o) : (portFailed s p).reg o = s.reg o := by
  have h : Links ({ s with flt := { s.flt with fabStateAt := some s.now } } : State) (portFailed s p) := by
    unfold portFailed State.portReset
    exact .ite (.refl _ _ _) ((links_portClear p).trans (links_checkPort p))
  exact h.reg o ho

theorem fabDomain_on : s.domOff 2 = false := by simp [State.domOff]

theorem raise_settled {f : FltCause} {unit code d detail : Nat} {cls : FltClass} {inj : Bool} (hf : faultOf s f unit = (code, cls, d)) (hoff : s.domOff d = false) (hcol : s.collects = true)
    (hsleep : s.sleep ≤ 1) (hentry : s.pwr.entry = none) (hcalm : ((s.fltMerge d code cls detail inj).recChanged d).calm = true) :
    s.raise f unit detail inj = (s.fltMerge d code cls detail inj).recChanged d := by
  obtain ⟨w, hw, -, hsame⟩ := raiseRec_taken (detail := detail) (inj := inj) hf hoff hcol
  have hkept : ((s.fltMerge d code cls detail inj).recChanged d).pwr = s.pwr := recChanged_pwr.trans (fltMerge_faulted.parts .pwr (by decide))
  rw [State.raise, hw, hsame hsleep hentry, ← hkept]
  exact settle_calm hcalm

theorem fabReported_calm {again : Bool} {detail : Nat} (h : (portFailed s p).calm = true) : (fabReported s p again detail).calm = true := by
  rw [fabReported, recChanged_calm]
  exact fltMerge_calm h (by cases again <;> decide)

theorem portFailed_fld {f : Fld} (hf : ¬ linkReg f.off) : (portFailed s p).fld f = s.fld f := by rw [State.fld, State.fld, portFailed_reg hf]

theorem fab_raise {detail : Nat} (hcalm : (portFailed s p).calm = true) (hcol : (portFailed s p).collects = true) (hsleep : (portFailed s p).sleep ≤ 1)
    (hentry : (portFailed s p).pwr.entry = none) : (portFailed s p).raise .fabState 0 detail false = fabReported s p false detail := by
  have hreported := fabReported_calm (again := false) (detail := detail) hcalm
  unfold fabReported at hreported ⊢
  generalize portFailed s p = q at *
  exact raise_settled rfl fabDomain_on hcol hsleep hentry hreported

theorem fab_escalate {detail : Nat} (hcalm : (portFailed s p).calm = true) (hcol : (portFailed s p).collects = true) :
    (portFailed s p).escalate .fabState .d detail false = fabReported s p true detail := by
  have hreported := fabReported_calm (again := true) (detail := detail) hcalm
  unfold fabReported at hreported ⊢
  generalize portFailed s p = q at *
  have heq : q.escalate .fabState .d detail false = ((q.fltMerge 2 0x41 .d detail false).recChanged 2).settle := if_pos hcol
  rw [heq]
  exact settle_calm hreported

theorem fabState_runs {p : BitVec 5} {x : BitVec 8} (hawake : s.awake = true) (hcalm : s.calm = true) (hp : p.toNat < s.nPorts) (hinj : s.flt.inject = none) (hcol : s.collects = true) :
    exec (.fabStateError p x) s = .next (if ((fabReported s p.toNat (s.within1s s.flt.fabStateAt) (p.toNat + 256 * x.toNat)).fltRec 2).isOpen
      then contained (fabReported s p.toNat (s.within1s s.flt.fabStateAt) (p.toNat + 256 * x.toNat)) else fabReported s p.toNat (s.within1s s.flt.fabStateAt) (p.toNat + 256 * x.toNat)) := by
  obtain ⟨hdue, hentry, -⟩ := calm_iff.mp hcalm
  have hpwr : (portFailed s p.toNat).pwr = s.pwr := portFailed_keeps.parts .pwr (by decide)
  have hcalm0 : ({ s with flt := { s.flt with fabStateAt := some s.now } } : State).calm = true := hcalm
  have hcalm1 : (portFailed s p.toNat).calm = true := portFailed_keeps.calm.trans hcalm0
  have hcol1 : (portFailed s p.toNat).collects = true := by
    have hphase : (portFailed s p.toNat).phase = s.phase := by
      rw [State.phase, State.phase, portFailed_fld (by unfold linkReg packetReg; decide)]
    rwa [State.collects, hphase, ← State.collects]
  have hsleep1 : (portFailed s p.toNat).sleep ≤ 1 := by
    have hsleep : (portFailed s p.toNat).sleep = s.sleep := by
      rw [State.sleep, State.sleep, portFailed_fld (by unfold linkReg packetReg; decide)]
    rw [hsleep]
    unfold State.awake at hawake
    exact of_decide_eq_true (Bool.and_eq_true_iff.mp hawake).2
  have hraise := fab_raise (detail := p.toNat + 256 * x.toNat) hcalm1 hcol1 hsleep1 ((congrArg PwrSt.entry hpwr).trans hentry)
  have hescalate := fab_escalate (detail := p.toNat + 256 * x.toNat) hcalm1 hcol1
  show execFabStateError p x s = _
  unfold execFabStateError
  dsimp only
  rw [injCheck_none hinj]
  dsimp only
  rw [if_neg (by simp [hawake, hp]), show ({ s with flt := { s.flt with fabStateAt := some s.now } } : State).portReset p.toNat = portFailed s p.toNat from rfl, Option.isSome_none, hraise, hescalate]
  cases s.within1s s.flt.fabStateAt <;> rfl

/-- A fault of class D leaves no record at class A or C. -/
theorem TakesFault.aboveC {r0 r : FltRec} {code detail : Nat} (h : TakesFault r0 r code .d detail) : r.cls ≠ .a ∧ r.cls ≠ .c := by
  cases ho : r0.isOpen with
  | false =>
    rw [(h.opened ho).1]
    decide
  | true =>
    rw [(h.merged ho).1]
    cases r0.cls <;> decide

theorem fabState_shown {p : BitVec 5} {x : BitVec 8} (hawake : s.awake = true) (hcalm : s.calm = true) (hp : p.toNat < s.nPorts) (hinj : s.flt.inject = none) (hcol : s.collects = true) :
    ∃ t, exec (.fabStateError p x) s = .next t ∧ t.flt.fabStateAt = some s.now ∧ (t.fltRec 2).isOpen = true ∧ (t.fltRec 2).lastCause = 0x41 ∧ (t.fltRec 2).detail = BitVec.ofNat 32 (p.toNat + 256 * x.toNat)
      ∧ (∀ i ∈ t.sw.ingress, i.port ≠ p.toNat) ∧ (s.within1s s.flt.fabStateAt = true → (t.fltRec 2).cls ≠ .a ∧ (t.fltRec 2).cls ≠ .c) := by
  obtain ⟨cls, hcls⟩ : ∃ cls : FltClass, (if s.within1s s.flt.fabStateAt then .d else .c) = cls := ⟨_, rfl⟩
  obtain ⟨y, hy⟩ : ∃ y, fabReported s p.toNat (s.within1s s.flt.fabStateAt) (p.toNat + 256 * x.toNat) = y := ⟨_, rfl⟩
  obtain ⟨htakes, hmoments, -⟩ := merged_shown (s := portFailed s p.toNat) (d := 2) (code := 0x41) (cls := cls) (detail := p.toNat + 256 * x.toNat) (inj := false)
  have hy' : ((portFailed s p.toNat).fltMerge 2 0x41 cls (p.toNat + 256 * x.toNat) false).recChanged 2 = y := by rw [← hy, ← hcls]; rfl
  rw [hy'] at htakes hmoments
  have hexec := fabState_runs (x := x) hawake hcalm hp hinj hcol
  rw [hy, if_pos htakes.isOpen] at hexec
  have hrec : (contained y).fltRec 2 = { y.fltRec 2 with contained := true } := fltRec_setRec_same _
  refine ⟨_, hexec, ?_, ?_, ?_, ?_, fun i hi => ?_, fun hagain => ?_⟩
  · have hat : (portFailed s p.toNat).flt.fabStateAt = some s.now := by rw [portFailed_keeps.parts .flt (by decide)]
    exact hmoments.parts.2.2.trans hat
  · rw [hrec]; exact htakes.isOpen
  · rw [hrec]; exact htakes.lastCause
  · rw [hrec]; exact htakes.detail
  · have hswept : Swept p.toNat (portFailed s p.toNat) := swept_portReset (s := { s with flt := { s.flt with fabStateAt := some s.now } }) hp
    have hmerge : ((portFailed s p.toNat).fltMerge 2 0x41 cls (p.toNat + 256 * x.toNat) false).sw = (portFailed s p.toNat).sw := by
      unfold State.fltMerge
      dsimp only
      split <;> rfl
    have hjoins : OwnJoins (portFailed s p.toNat) y := by
      rw [← hy']
      exact OwnJoins.trans (.of_eq (congrArg SwitchSt.ingress hmerge)) ownJoins_recChanged
    rcases hjoins i hi with h | h
    · exact hswept.1 i h
    · have := p.isLt
      rw [h, ownPort]
      omega
  · rw [hrec]
    rw [← hcls, if_pos hagain] at htakes
    exact htakes.aboveC

/-! ## The end of an alarm window (R412) -/

/-- The window of a domain is over. -/
def windowEnded (s : State) (d : Nat) : State := { s with flt := { s.flt with wins := merase d s.flt.wins } }

theorem alarmWindow_sends {d : BitVec 8} {w : AlarmWin} (hwin : mget s.flt.wins d.toNat = some w) (hpending : w.pending = true) (hgrave : s.start.grave = false) (hdsts : s.alarmDsts ≠ []) :
    ∃ t, exec (.alarmWindowEnd d) s = .next t ∧ mget t.flt.wins d.toNat = some {} ∧ t.flt.alarmSeq = s.flt.alarmSeq + BitVec.ofNat 32 s.alarmDsts.length
      ∧ t.fld FLT_ALARMS_SENT = (s.fld FLT_ALARMS_SENT + s.alarmDsts.length) % 2 ^ 32 ∧ only [.flt, .sw, .regs] s t := by
  have hexec : exec (.alarmWindowEnd d) s = .next ((windowEnded s d.toNat).sendAlarms d.toNat w.folded) := by
    show execAlarmWindowEnd d s = _
    unfold execAlarmWindowEnd
    rw [hwin]
    simp only [hpending, hgrave, Bool.not_false, Bool.and_self, if_true]
    rfl
  have hsent := alarmsSent_each (s := windowEnded s d.toNat) (d := d.toNat) (folded := w.folded) s.alarmDsts
  have hseq := congrArg FltSt.alarmSeq hsent.flt
  have hcount := hsent.count
  have hparts := hsent.parts
  have heq : (windowEnded s d.toNat).sendAlarms d.toNat w.folded =
      { (windowEnded s d.toNat).each s.alarmDsts (alarmTo d.toNat w.folded) with flt := { ((windowEnded s d.toNat).each s.alarmDsts (alarmTo d.toNat w.folded)).flt with wins := mput d.toNat {} ((windowEnded s d.toNat).each s.alarmDsts (alarmTo d.toNat w.folded)).flt.wins } } := by
    rw [sendAlarms_eq]
    exact if_neg fun h => hdsts (List.isEmpty_iff.mp h)
  refine ⟨_, hexec, ?_⟩
  rw [heq]
  generalize (windowEnded s d.toNat).each s.alarmDsts (alarmTo d.toNat w.folded) = y at *
  refine ⟨mget_mput_same _ _ _, hseq, hcount, ?_⟩
  exact only_trans (only_trans (only_mono (k := [.flt]) (by simp) (only_flt _)) hparts) (only_mono (k := [.flt]) (by simp) (only_flt _))

theorem alarmWindow_ends {d : BitVec 8} {w : AlarmWin} (hwin : mget s.flt.wins d.toNat = some w) (hpending : w.pending = false) : exec (.alarmWindowEnd d) s = .next (windowEnded s d.toNat) := by
  show execAlarmWindowEnd d s = _
  unfold execAlarmWindowEnd
  rw [hwin]
  simp only [hpending, Bool.false_and, Bool.false_eq_true, if_false]
  rfl

/-- Settles O43: a fault opens its record or merges into it (`faultRaise_records`), timers escalate it (`cTimer_expires`, `dTimer_expires`), and what each
of the collector's own events leaves is stated event by event. -/
theorem faultCollector : Obligations.FaultCollector := by
  unfold Obligations.FaultCollector
  refine ⟨?_, fun d s hcalm => ⟨cTimer_expires hcalm, dTimer_expires hcalm⟩, fun s hsrc => ?_, fun s hgrave hdone hmgt => graveFlush_completes hgrave hdone hmgt,
    fun pc s hdead _ hdown hinj hcol => lockstep_halts hdead hdown hinj hcol, fun s hdown => ⟨reload_completes hdown, reload_fails hdown⟩,
    fun p x s hawake hcalm hp hinj hcol => fabState_shown hawake hcalm hp hinj hcol, fun d w s hwin => ⟨alarmWindow_ends hwin, alarmWindow_sends hwin⟩⟩
  · intro f unit detail code d cls s hgrave hcalm hf hdom hoff hcol
    obtain ⟨t, hexec, hshown, hraised, hothers⟩ := faultRaise_records (detail := detail) hgrave hcalm hf hdom hoff hcol
    obtain ⟨hopen, hcause, hdetail, hseq, hnew, hold⟩ := hshown.takes
    exact ⟨t, hexec, hopen, hcause, hdetail.trans (BitVec.ofNat_toNat .. |>.trans (BitVec.setWidth_eq detail)), hseq, hraised, fun hg => (hshown.grave hg).2, hnew, hold, hothers⟩
  · exact graveFlush_eq.trans (if_neg (by simp [hsrc]))

end Sys2Proof.Proofs
end

section
/-! SUPPORT. Coupling columns (R262 to R264, R269): what the fencing of a channel and the failure of a coil leave of a column. -/

namespace Sys2Proof.Proofs

set_option Elab.async false

open Sys2Proof.Machine Sys2Proof.Laws

variable {s t u : State} {c d n l : Nat}

/-! ## Fencing leaves the columns alone (R252) -/

/-- The parts that fencing a channel may change. -/
def fenceParts : List Part := [.free, .regs, .acc, .start, .pwr, .unitResets, .recd, .sett, .flt, .sw, .txns, .marl, .chan, .qos, .rings, .fox, .prot]

theorem fenceOnly_set (f : Fld) (v : Nat) : only fenceParts s (s.set f v) := only_mono (by decide) (only_set f v)

theorem fenceOnly_event (code sev unit w0 w1 : Nat) : only fenceParts s (s.event code sev unit w0 w1) := only_mono (by decide) (record_only _ _ _ _ _)

theorem fenceOnly_performed (h : Performed s t) : only fenceParts s t := only_mono (by decide) h.frame.parts

theorem fenceOnly_mgmtDone (job : Nat) (st : BitVec 8) (res : List (BitVec 8)) : only fenceParts s (s.mgmtDone job st res) := only_mono (by decide) (mgmtDone_only _ _ _ _)

theorem fenceOnly_dropLine : only fenceParts s (s.dropLine l) := only_mono (by decide) (only_marl _)

theorem channelSr_only : only [.free, .chan, .regs, .start] s (s.channelSr c) := by
  unfold State.channelSr
  refine only_ite ?_ (only_refl _ _)
  refine only_trans (only_mono (by simp) (cutBursts_only c)) ?_
  generalize s.cutBursts c = x
  exact only_trans (only_trans (only_mono (k := [.chan]) (by simp) (only_setChn _ _)) (only_mono (k := [.regs]) (by simp) (only_set _ _))) (only_mono (k := [.start]) (by simp) (only_start _))

theorem stopPatrol_only (xs : List Nat) : only fenceParts s (s.stopPatrol xs) := only_mono (by decide) (only_prot _)

theorem fenceTxns_only : only fenceParts s (s.fenceTxns c) := only_each fun _ _ => fenceOnly_performed (performed_txnFenced.trans performed_finishTxn)

theorem applyPasr_only : only fenceParts s (s.applyPasr c false) := by
  unfold State.applyPasr
  dsimp only
  split
  · exact only_refl _ _
  next f _ =>
    simp only [Bool.false_eq_true, if_false]
    obtain ⟨y, hy⟩ : ∃ y, s.each ((s.linesOf c).filter fun e => decide (pasrKeep f < pasrKeep (s.fld (CHAN_PASR_FRACTION c))) && decide (pasrKeep f ≤ (s.placeOf e.1).2)) (fun t e => t.dropLine e.1) = y := ⟨_, rfl⟩
    have hdrop : only fenceParts s y := hy ▸ only_each fun _ _ => fenceOnly_dropLine
    obtain ⟨z, hz⟩ : ∃ z, (if decide (pasrKeep f < pasrKeep (s.fld (CHAN_PASR_FRACTION c))) = true then y.dramForget c (pasrKeep f) else y) = z := ⟨_, rfl⟩
    have hforget : only fenceParts s z := hz ▸ only_trans hdrop (only_ite (only_mono (by decide) (only_chan _)) (only_refl _ _))
    rw [hy, hz]
    exact only_trans (only_trans hforget (only_mono (k := [.chan]) (by decide) (only_setChn _ _))) (fenceOnly_set _ _)

theorem pasrAnswer_only (a : Option Asker) (st : BitVec 8) : only fenceParts s (s.pasrAnswer c a st) := by
  unfold State.pasrAnswer
  split
  · exact only_each fun _ m => only_ite (fenceOnly_mgmtDone _ _ _) (only_refl _ _)
  · exact only_mono (by decide) (payOwed_only _ _)
  · exact only_refl _ _

theorem unitResetEnd_only (kind : Nat) (r : BitVec 8) : only fenceParts s (s.unitResetEnd kind c r) := by
  unfold State.unitResetEnd
  dsimp only
  refine only_trans (only_trans (only_mono (k := [.unitResets]) (by decide) (only_unitResets _)) (only_mono (k := [.regs]) (by decide) (only_sets _))) (only_each fun _ m => ?_)
  exact only_ite (fenceOnly_mgmtDone _ _ _) (only_refl _ _)

theorem changeGroup_only (j v : Nat) : only fenceParts s (s.changeGroup j v) := only_trans (fenceOnly_set _ _) (only_mono (k := [.sett]) (by decide) (only_sett _))

theorem loseDirty_only : only fenceParts s (s.loseDirty c) := by
  unfold State.loseDirty
  dsimp only
  split
  · exact only_refl _ _
  · exact only_trans (only_each fun _ _ => fenceOnly_dropLine) (fenceOnly_event _ _ _ _ _)

theorem loseChannel_only : only fenceParts s (s.loseChannel c) := only_trans (fenceOnly_set _ _) loseDirty_only

theorem finishRebuildWaits_only : only fenceParts s (s.finishRebuildWaits c) := by
  unfold State.finishRebuildWaits
  refine only_each fun x m => only_ite (only_refl _ _) ?_
  exact only_ite (fenceOnly_mgmtDone _ _ _) (only_refl _ _)

theorem stopRebuild_only : only fenceParts s (s.stopRebuild c) := by
  unfold State.stopRebuild
  obtain ⟨y, hy⟩ : ∃ y, s.set (CHAN_REBUILD_STATE c) 3 = y := ⟨_, rfl⟩
  have hset : only fenceParts s y := hy ▸ fenceOnly_set _ _
  dsimp only
  rw [hy]
  exact only_trans (only_trans (only_trans hset (fenceOnly_event _ _ _ _ _)) loseChannel_only) finishRebuildWaits_only

theorem fenceOnly_raiseRec {f : FltCause} {unit detail : Nat} {inj : Bool} : only fenceParts s (s.raiseRec f unit detail inj) := only_mono (by decide) raiseRec_frame.parts

/-- The registers that a fenced channel shows. -/
def fenceShown (s : State) (c cause : Nat) : State := s.sets [(CHAN_STATUS_FENCED c, 1), (CHAN_STATUS_FENCE_CAUSE c, cause), (CHAN_STATUS_STATE c, 4), (VCP_COL_STATUS_MODE c, 3)]

/-- A PASR change under way ends with its channel fenced (R250). -/
def pasrEnded (s : State) (c : Nat) : State :=
  match (s.pasrSet c).findSome? fun x => (s.chn x).pasrAsker.map fun a => (x, a) with
  | some (x, a) => (s.each (s.pasrSet c) fun t x => if x = c then t.applyPasr x false else (t.applyPasr x false).set (CHAN_STATUS_STATE x) 2).pasrAnswer x (some a) stSTATE
  | none => s.each (s.pasrSet c) fun t x => if x = c then t.applyPasr x false else (t.applyPasr x false).set (CHAN_STATUS_STATE x) 2

theorem pasrEnded_only : only fenceParts s (pasrEnded s c) := by
  have heach : only fenceParts s (s.each (s.pasrSet c) fun t x => if x = c then t.applyPasr x false else (t.applyPasr x false).set (CHAN_STATUS_STATE x) 2) :=
    only_each fun _ _ => only_ite applyPasr_only (only_trans applyPasr_only (fenceOnly_set _ _))
  unfold pasrEnded
  split
  · exact only_trans heach (pasrAnswer_only _ _)
  · exact heach

/-- What becomes of the group and the contents of a channel that is fenced (R241, R242). -/
def contentsFenced (s : State) (c : Nat) : State :=
  if !s.parity then s.loseChannel c
  else match s.groupSt (c / 8) with
    | 1 => { (s.changeGroup (c / 8) 2).stopPatrol ((List.range 8).map (8 * (c / 8) + ·)) with sett := { ((s.changeGroup (c / 8) 2).stopPatrol ((List.range 8).map (8 * (c / 8) + ·))).sett with rebuild := mput c 0 ((s.changeGroup (c / 8) 2).stopPatrol ((List.range 8).map (8 * (c / 8) + ·))).sett.rebuild } }
    | 2 => ((s.changeGroup (c / 8) 3).each (((List.range 8).map fun i => 8 * (c / 8) + i).filter fun f => f != c && s.on (CHAN_STATUS_FENCED f) && !s.on (CHAN_STATUS_RETIRED f) && !s.on (CHAN_STATUS_LOST f)) State.stopRebuild).loseChannel c
    | _ => if s.on (CHAN_STATUS_RETIRED c) then s else s.loseChannel c

theorem contentsFenced_only : only fenceParts s (contentsFenced s c) := by
  unfold contentsFenced
  split
  · exact loseChannel_only
  · split
    · have hstop : only fenceParts s ((s.changeGroup (c / 8) 2).stopPatrol ((List.range 8).map (8 * (c / 8) + ·))) := only_trans (changeGroup_only _ _) (stopPatrol_only _)
      generalize (s.changeGroup (c / 8) 2).stopPatrol ((List.range 8).map (8 * (c / 8) + ·)) = y at *
      exact only_trans hstop (only_mono (k := [.sett]) (by decide) (only_sett _))
    · exact only_trans (only_trans (changeGroup_only _ _) (only_each fun _ _ => stopRebuild_only)) loseChannel_only
    · exact only_ite (only_refl _ _) loseChannel_only

/-- The channel's heartbeat, patrol and queues are given up. -/
def channelFenced (s : State) (c cause : Nat) : State := ((((fenceShown s c cause).channelSr c).stopPatrol [c]).clearQueues c).fenceTxns c

/-- The channel's clean lines are dropped. -/
def cleanDropped (s : State) (c : Nat) : State := s.each ((s.linesOf c).filter fun e => e.2.st == .clean) fun t e => t.dropLine e.1

theorem fenceChannel_eq (s : State) (c cause : Nat) : s.fenceChannel c cause =
    if s.on (CHAN_STATUS_FENCED c) || decide (s.nChans ≤ c) then s
    else if s.phase < 5 || 8 < s.phase then ((fenceShown s c cause).setChn c { s.chn c with heartbeat := false }).raiseRec .fence c cause
    else (contentsFenced (cleanDropped (if s.fld (CHAN_STATUS_STATE c) == 6 then (if (s.chn c).pasrNew.isSome then pasrEnded (channelFenced s c cause) c else channelFenced s c cause).unitResetEnd 2 c stSTATE
      else (if (s.chn c).pasrNew.isSome then pasrEnded (channelFenced s c cause) c else channelFenced s c cause)) c) c).raiseRec .fence c cause := rfl

theorem fenceShown_only (cause : Nat) : only fenceParts s (fenceShown s c cause) := only_mono (k := [.regs]) (by decide) (only_sets _)

theorem channelFenced_only (cause : Nat) : only fenceParts s (channelFenced s c cause) :=
  only_trans (only_trans (only_trans (only_trans (fenceShown_only cause) (only_mono (by decide) channelSr_only)) (stopPatrol_only _)) (only_mono (by decide) clearQueues_only)) fenceTxns_only

theorem fenceChannel_only (cause : Nat) : only fenceParts s (s.fenceChannel c cause) := by
  rw [fenceChannel_eq]
  refine only_ite (only_refl _ _) (only_ite ?_ ?_)
  · exact only_trans (only_trans (fenceShown_only cause) (only_mono (k := [.chan]) (by decide) (only_setChn _ _))) fenceOnly_raiseRec
  · have hpasr : only fenceParts s (if (s.chn c).pasrNew.isSome then pasrEnded (channelFenced s c cause) c else channelFenced s c cause) :=
      only_ite (only_trans (channelFenced_only cause) pasrEnded_only) (channelFenced_only cause)
    generalize (if (s.chn c).pasrNew.isSome then pasrEnded (channelFenced s c cause) c else channelFenced s c cause) = y at *
    have hreset : only fenceParts s (if s.fld (CHAN_STATUS_STATE c) == 6 then y.unitResetEnd 2 c stSTATE else y) := only_ite (only_trans hpasr (unitResetEnd_only _ _)) hpasr
    exact only_trans (only_trans (only_trans hreset (only_each fun _ _ => fenceOnly_dropLine)) contentsFenced_only) fenceOnly_raiseRec

end Sys2Proof.Proofs
end

section
/-! Boundaries and forced recalibration of a column (R262 to R264). -/

namespace Sys2Proof.Proofs

set_option Elab.async false

open Sys2Proof.Machine Sys2Proof.Laws

variable {s t u : State} {c d n key : Nat} {k : Column}

/-! ## Columns -/

theorem col_of_only {l : List Part} (h : only l s t) (hl : Part.vcp ∉ l) (d : Nat) : t.col d = s.col d := col_congr (h .vcp hl) d

/-- The code of one receiver is replaced, those of the others stand. -/
theorem code_replaced {k' : Column} {x : CoilCode} (h : k'.codes = mput key x k.codes) : k'.code c key = x := by
  unfold Column.code
  rw [h, mget_mput_same]

theorem code_apart {k' : Column} {x : CoilCode} {j : Nat} (h : k'.codes = mput key x k.codes) (hcal : k'.cal = k.cal) (hj : j ≠ key) : k'.code c j = k.code c j := by
  unfold Column.code
  rw [h, hcal, mget_mput_ne hj]

/-! ## The residual of a column is judged (R263) -/

theorem judgeResid_shows : (∃ b, (s.judgeResid c).col c = { s.col c with warned := b }) ∧ (∀ d, d ≠ c → (s.judgeResid c).col d = s.col d) ∧ only [.vcp, .regs, .recd, .sett] s (s.judgeResid c) := by
  have hsync : only [.regs] s (s.syncResid c) := only_sets _
  have hcol : ∀ d, (s.syncResid c).col d = s.col d := col_of_only hsync (by decide)
  unfold State.judgeResid
  generalize s.syncResid c = y at *
  dsimp only
  split
  · have hevent : only [.recd, .sett, .regs] (y.setCol c { y.col c with warned := true }) ((y.setCol c { y.col c with warned := true }).event 0x0C 1 c (y.reg (VCP_COL_RESID c).off) 0) := record_only _ _ _ _ _
    refine ⟨⟨true, ?_⟩, fun d hd => ?_, ?_⟩
    · rw [col_of_only hevent (by decide), col_setCol_same, hcol]
    · rw [col_of_only hevent (by decide), col_setCol_ne hd, hcol]
    · exact only_trans (only_trans (only_mono (by simp) hsync) (only_mono (k := [.vcp]) (by simp) (only_setCol _ _))) (only_mono (by simp) hevent)
  · exact ⟨⟨(s.col c).warned, hcol c⟩, fun d _ => hcol d, only_mono (by simp) hsync⟩

/-- No receiver has been above RESID_FAIL for a full rotation. -/
def NoneStayed (k : Column) : Prop := (k.residSeen.filter fun e => decide (e.2.1 + 1 < k.laps) || (decide (e.2.1 < k.laps) && decide (e.2.2 ≤ k.rotAt))) = []

theorem judgeRotation_idle (h : NoneStayed (s.col c)) : s.judgeRotation c = s.setCol c (s.col c) := by
  unfold State.judgeRotation
  dsimp only
  rw [show ((s.col c).residSeen.filter fun e => decide (e.2.1 + 1 < (s.col c).laps) || (decide (e.2.1 < (s.col c).laps) && decide (e.2.2 ≤ (s.col c).rotAt))) = [] from h]
  have hall : ((s.col c).residSeen.filter fun e => !([] : List (Nat × Nat × Nat)).contains e) = (s.col c).residSeen := List.filter_eq_self.mpr fun e _ => by simp
  rw [hall]
  rfl

/-- What is judged at a boundary, with no coil that fails. -/
theorem judged_shows (h : NoneStayed (s.col c)) : (∃ b, ((s.judgeResid c).judgeRotation c).col c = { s.col c with warned := b })
    ∧ (∀ d, d ≠ c → ((s.judgeResid c).judgeRotation c).col d = s.col d) ∧ only [.vcp, .regs, .recd, .sett] s ((s.judgeResid c).judgeRotation c) := by
  obtain ⟨⟨b, hb⟩, hothers, honly⟩ := judgeResid_shows (s := s) (c := c)
  have hnone : NoneStayed ((s.judgeResid c).col c) := by rwa [hb]
  rw [judgeRotation_idle hnone]
  refine ⟨⟨b, ?_⟩, fun d hd => ?_, ?_⟩
  · rw [col_setCol_same, hb]
  · rw [col_setCol_ne hd, hothers d hd]
  · exact only_trans honly (only_mono (k := [.vcp]) (by simp) (only_setCol _ _))

theorem noneStayed_nil (h : k.residSeen = []) : NoneStayed k := by rw [NoneStayed, h]; rfl

/-! ## A step of the rotation or of a forced recalibration (R262, R264) -/

theorem stepSetting_shows (up : Bool) {w : Bool} (hn : s.settingFrom c (if (s.col c).recal then (s.col c).recAt else (s.col c).rotAt) = (n, w)) :
    (s.stepSetting c up).col c = (if (s.col c).recal then
        { s.col c with codes := mput (settingAt n).1 (tapCode ((s.col c).code c (settingAt n).1) (settingAt n).2 up (Config.freeByte s.free 0)) (s.col c).codes, recAt := n + 1 }
      else { s.col c with codes := mput (settingAt n).1 (tapCode ((s.col c).code c (settingAt n).1) (settingAt n).2 up (Config.freeByte s.free 0)) (s.col c).codes, rotAt := n + 1, rotPos := (s.col c).rotPos + 1, laps := (s.col c).laps + b2n w })
    ∧ (∀ d, d ≠ c → (s.stepSetting c up).col d = s.col d) ∧ only [.vcp, .free] s (s.stepSetting c up) ∧ (s.stepSetting c up).free = s.free + 1 := by
  unfold State.stepSetting
  dsimp only
  rw [hn]
  refine ⟨col_setCol_same _, fun d hd => col_setCol_ne hd _, ?_, rfl⟩
  exact only_trans (only_mono (k := [.free]) (by simp) (only_free _)) (only_mono (k := [.vcp]) (by simp) (only_setCol _ _))

/-! ## Boundaries (R262) -/

theorem colOn_mode (h : s.colOn c = true) : ¬ (s.fld (VCP_COL_STATUS_MODE c) = 0 ∨ s.fld (VCP_COL_STATUS_MODE c) = 3) := by
  unfold State.colOn at h
  simp only [Bool.and_eq_true, Bool.or_eq_true, beq_iff_eq] at h
  omega

/-- A boundary with no test to end and no switch waiting. -/
theorem boundary_eq {m : Tap} (hmode : ¬ (s.fld (VCP_COL_STATUS_MODE c) = 0 ∨ s.fld (VCP_COL_STATUS_MODE c) = 3)) (hdrop : (s.col c).testDrop = false)
    (ht : (m.resids.foldl (fun t x => t.measure c x) s).cmdOffset c m.cmd = t) (hfailed : (t.col c).failed = []) :
    s.boundary c m = ((if (t.col c).recal || !t.on VCP_CAL_CFG_FREEZE then t.stepSetting c m.up else t).judgeResid c).judgeRotation c := by
  have hnoTest : (if (s.col c).testDrop then s.releaseShadow c else s) = s := if_neg (by simp [hdrop])
  unfold State.boundary
  rw [hnoTest]
  dsimp only
  rw [if_neg hmode, ht, hfailed]

theorem couplingBoundary_runs {c : BitVec 5} {m : Tap} (hlive : s.live = true) (hcol : s.colOn c.toNat = true) (hcalm : s.calm = true) {l : List Part} (honly : only l s (s.boundary c.toNat m))
    (hpwr : Part.pwr ∉ l) (hflt : Part.flt ∉ l) : exec (.couplingBoundary c m) s = .next (s.boundary c.toNat m) := by
  show execCouplingBoundary c m s = _
  unfold execCouplingBoundary
  rw [if_pos (by simp [hlive, hcol]), settle_calm ((calm_of (honly .pwr hpwr) (honly .flt hflt)).trans hcalm)]

theorem boundary_rotates {c : BitVec 5} {m : Tap} (hlive : s.live = true) (hcalm : s.calm = true) (hcol : s.colOn c.toNat = true) (hdrop : (s.col c.toNat).testDrop = false)
    (hfailed : (s.col c.toNat).failed = []) (hseen : (s.col c.toNat).residSeen = []) (hresids : m.resids = []) (hcmd : m.cmd = none) (hrecal : (s.col c.toNat).recal = false)
    (hfreeze : s.fld VCP_CAL_CFG_FREEZE = 0) :
    ∃ t n w, exec (.couplingBoundary c m) s = .next t ∧ s.settingFrom c.toNat (s.col c.toNat).rotAt = (n, w)
      ∧ t.col c.toNat = { s.col c.toNat with
          codes := mput (settingAt n).1 (tapCode ((s.col c.toNat).code c.toNat (settingAt n).1) (settingAt n).2 m.up (Config.freeByte s.free 0)) (s.col c.toNat).codes,
          rotAt := n + 1, rotPos := (s.col c.toNat).rotPos + 1, laps := (s.col c.toNat).laps + b2n w, warned := (t.col c.toNat).warned }
      ∧ (∀ d, d ≠ c.toNat → t.col d = s.col d) ∧ only [.vcp, .regs, .free, .recd, .sett] s t := by
  obtain ⟨⟨n, w⟩, hn⟩ : ∃ x, s.settingFrom c.toNat (s.col c.toNat).rotAt = x := ⟨_, rfl⟩
  obtain ⟨hstep, hothers, honly, -⟩ := stepSetting_shows (s := s) (c := c.toNat) (n := n) (w := w) m.up (by rw [hrecal]; exact hn)
  have hon : s.on VCP_CAL_CFG_FREEZE = false := by simp [State.on, hfreeze]
  have heq := boundary_eq (m := m) (t := s) (colOn_mode hcol) hdrop (by rw [hresids, hcmd]; rfl) hfailed
  rw [hrecal, hon, Bool.not_false, Bool.or_true, if_pos rfl] at heq
  rw [hrecal, if_neg Bool.false_ne_true] at hstep
  generalize s.stepSetting c.toNat m.up = y at *
  obtain ⟨⟨b, hb⟩, hjudged, hparts⟩ := judged_shows (s := y) (c := c.toNat) (noneStayed_nil (by rw [hstep]; exact hseen))
  have hall : only [.vcp, .regs, .free, .recd, .sett] s (s.boundary c.toNat m) := by
    rw [heq]
    exact only_trans (only_mono (by simp) honly) (only_mono (by simp) hparts)
  refine ⟨_, n, w, couplingBoundary_runs hlive hcol hcalm hall (by decide) (by decide), hn, ?_, fun d hd => ?_, hall⟩
  · rw [heq, hb, hstep]
  · rw [heq, hjudged d hd, hothers d hd]

theorem boundary_recalibrates {c : BitVec 5} {m : Tap} (hlive : s.live = true) (hcalm : s.calm = true) (hcol : s.colOn c.toNat = true) (hdrop : (s.col c.toNat).testDrop = false)
    (hfailed : (s.col c.toNat).failed = []) (hseen : (s.col c.toNat).residSeen = []) (hresids : m.resids = []) (hcmd : m.cmd = none) (hrecal : (s.col c.toNat).recal = true) :
    ∃ t, exec (.couplingBoundary c m) s = .next t ∧ (t.col c.toNat).recAt = (s.settingFrom c.toNat (s.col c.toNat).recAt).1 + 1 ∧ (t.col c.toNat).recal = true
      ∧ (t.col c.toNat).rotAt = (s.col c.toNat).rotAt ∧ (t.col c.toNat).rotPos = (s.col c.toNat).rotPos
      ∧ (∀ d, d ≠ c.toNat → t.col d = s.col d) ∧ only [.vcp, .regs, .free, .recd, .sett] s t := by
  obtain ⟨⟨n, w⟩, hn⟩ : ∃ x, s.settingFrom c.toNat (s.col c.toNat).recAt = x := ⟨_, rfl⟩
  obtain ⟨hstep, hothers, honly, -⟩ := stepSetting_shows (s := s) (c := c.toNat) (n := n) (w := w) m.up (by rw [hrecal]; exact hn)
  have heq := boundary_eq (m := m) (t := s) (colOn_mode hcol) hdrop (by rw [hresids, hcmd]; rfl) hfailed
  rw [hrecal, Bool.true_or, if_pos rfl] at heq
  rw [hrecal, if_pos rfl] at hstep
  generalize s.stepSetting c.toNat m.up = y at *
  obtain ⟨⟨b, hb⟩, hjudged, hparts⟩ := judged_shows (s := y) (c := c.toNat) (noneStayed_nil (by rw [hstep]; exact hseen))
  have hall : only [.vcp, .regs, .free, .recd, .sett] s (s.boundary c.toNat m) := by
    rw [heq]
    exact only_trans (only_mono (by simp) honly) (only_mono (by simp) hparts)
  refine ⟨_, couplingBoundary_runs hlive hcol hcalm hall (by decide) (by decide), ?_, ?_, ?_, ?_, fun d hd => by rw [heq, hjudged d hd, hothers d hd], hall⟩
  · rw [heq, hb, hstep, hn]
  all_goals rw [heq, hb, hstep]
  exact hrecal

/-! ## Residuals are measured with the rotation at rest (R263) -/

/-- A column with the residual of one receiver measured. -/
def measuredCol (k : Column) (c key fail : Nat) (r : BitVec 8) : Column :=
  { k with
    codes := mput key { k.code c key with resid := r } k.codes
    residSeen := if r.toNat ≤ fail then merase key k.residSeen else if (mget k.residSeen key).isSome then k.residSeen else mput key (k.laps, k.rotAt) k.residSeen }

theorem measure_eq (x : CoilRes) : s.measure c x = if !keyOk (layerOf c) (coilKey x.dir x.hop.toNat x.pos.toNat) then s
    else s.setCol c (measuredCol (s.col c) c (coilKey x.dir x.hop.toNat x.pos.toNat) (s.fld VCP_CAL_CFG_RESID_FAIL) x.resid) := rfl

theorem measuredCol_code {fail : Nat} {r : BitVec 8} : (measuredCol k c key fail r).code c key = { k.code c key with resid := r } := code_replaced (k := k) rfl

theorem measuredCol_code_ne {fail j : Nat} {r : BitVec 8} (hj : j ≠ key) : (measuredCol k c key fail r).code c j = k.code c j :=
  code_apart (k := k) (k' := measuredCol k c key fail r) (x := { k.code c key with resid := r }) rfl rfl hj

theorem measuredCol_seen {fail : Nat} {r : BitVec 8} (h : k.residSeen = []) : (measuredCol k c key fail r).residSeen = if r.toNat ≤ fail then [] else [(key, k.laps, k.rotAt)] := by
  unfold measuredCol
  dsimp only
  rw [h]
  rfl

/-- What the measuring of a residual leaves, with none above RESID_FAIL before. -/
structure Measured (c key : Nat) (r : BitVec 8) (s t : State) : Prop where
  parts : only [.vcp] s t
  others : ∀ d, d ≠ c → t.col d = s.col d
  codes : ∀ j, { (t.col c).code c j with resid := 0 } = { (s.col c).code c j with resid := 0 }
  rest : { t.col c with codes := (s.col c).codes, residSeen := [] } = s.col c
  resid : keyOk (layerOf c) key = true → ((t.col c).code c key).resid = r
  seen : keyOk (layerOf c) key = true → (t.col c).residSeen = if r.toNat ≤ s.fld VCP_CAL_CFG_RESID_FAIL then [] else [(key, (s.col c).laps, (s.col c).rotAt)]
  none : keyOk (layerOf c) key = false → (t.col c).residSeen = []

theorem measure_measured (x : CoilRes) (hseen : (s.col c).residSeen = []) : Measured c (coilKey x.dir x.hop.toNat x.pos.toNat) x.resid s (s.measure c x) := by
  have hrest : { s.col c with codes := (s.col c).codes, residSeen := [] } = s.col c := by rw [← hseen]
  rw [measure_eq]
  generalize coilKey x.dir x.hop.toNat x.pos.toNat = key
  cases hkey : keyOk (layerOf c) key with
  | false => exact ⟨only_refl _ _, fun _ _ => rfl, fun _ => rfl, hrest, fun h => by simp [hkey] at h, fun h => by simp [hkey] at h, fun _ => hseen⟩
  | true =>
    refine ⟨only_setCol _ _, fun d hd => col_setCol_ne hd _, fun j => ?_, ?_, fun _ => ?_, fun _ => ?_, fun h => by simp [hkey] at h⟩
    all_goals rw [Bool.not_true, if_neg Bool.false_ne_true, col_setCol_same]
    · by_cases hj : j = key
      · rw [hj, measuredCol_code]
      · rw [measuredCol_code_ne hj]
    · exact hrest
    · rw [measuredCol_code]
    · exact measuredCol_seen hseen

end Sys2Proof.Proofs
end

section
/-! Boundaries and forced recalibration of a column (R262 to R264): the obligation on their commands. -/

namespace Sys2Proof.Proofs

set_option Elab.async false

open Sys2Proof.Machine Sys2Proof.Laws

variable {s t u : State} {n p : Nat} {temps : List Int}

/-! ## A boundary with the rotation at rest (R263) -/

/-- A residual that has just risen has not stayed for a rotation. -/
theorem noneStayed_one {k : Column} {key : Nat} (h : k.residSeen = [(key, k.laps, k.rotAt)]) : NoneStayed k := by
  rw [NoneStayed, h]
  simp

theorem Measured.laps {c key : Nat} {r : BitVec 8} (h : Measured c key r s t) : (t.col c).laps = (s.col c).laps := by
  have hlaps := congrArg Column.laps h.rest
  exact hlaps

theorem Measured.rotAt {c key : Nat} {r : BitVec 8} (h : Measured c key r s t) : (t.col c).rotAt = (s.col c).rotAt := by
  have hrot := congrArg Column.rotAt h.rest
  exact hrot

theorem Measured.rotPos {c key : Nat} {r : BitVec 8} (h : Measured c key r s t) : (t.col c).rotPos = (s.col c).rotPos := by
  have hrot := congrArg Column.rotPos h.rest
  exact hrot

theorem Measured.noneStayed {c key : Nat} {r : BitVec 8} (h : Measured c key r s t) : NoneStayed (t.col c) := by
  cases hkey : keyOk (layerOf c) key with
  | false => exact noneStayed_nil (h.none hkey)
  | true =>
    have hseen := h.seen hkey
    split at hseen
    · exact noneStayed_nil hseen
    · exact noneStayed_one (by rw [hseen, h.laps, h.rotAt])

theorem boundary_measures {c : BitVec 5} {m : Tap} (hlive : s.live = true) (hcalm : s.calm = true) (hcol : s.colOn c.toNat = true) (hdrop : (s.col c.toNat).testDrop = false)
    (hfailed : (s.col c.toNat).failed = []) (hseen : (s.col c.toNat).residSeen = []) (hrecal : (s.col c.toNat).recal = false) (hfreeze : s.fld VCP_CAL_CFG_FREEZE = 1) (hcmd : m.cmd = none)
    (x : CoilRes) (hresids : m.resids = [x]) :
    ∃ t, exec (.couplingBoundary c m) s = .next t ∧ (t.col c.toNat).rotAt = (s.col c.toNat).rotAt ∧ (t.col c.toNat).rotPos = (s.col c.toNat).rotPos
      ∧ (∀ key, { (t.col c.toNat).code c.toNat key with resid := 0 } = { (s.col c.toNat).code c.toNat key with resid := 0 })
      ∧ (keyOk (layerOf c.toNat) (coilKey x.dir x.hop.toNat x.pos.toNat) = true →
        ((t.col c.toNat).code c.toNat (coilKey x.dir x.hop.toNat x.pos.toNat)).resid = x.resid
        ∧ (x.resid.toNat ≤ s.fld VCP_CAL_CFG_RESID_FAIL → (t.col c.toNat).residSeen = [])
        ∧ (s.fld VCP_CAL_CFG_RESID_FAIL < x.resid.toNat →
          (t.col c.toNat).residSeen = [(coilKey x.dir x.hop.toNat x.pos.toNat, (s.col c.toNat).laps, (s.col c.toNat).rotAt)]))
      ∧ (∀ d, d ≠ c.toNat → t.col d = s.col d) ∧ only [.vcp, .regs, .recd, .sett] s t := by
  have hmeasured := measure_measured (s := s) (c := c.toNat) x hseen
  have heq := boundary_eq (s := s) (m := m) (t := s.measure c.toNat x) (colOn_mode hcol) hdrop (by rw [hresids, hcmd]; rfl) ((congrArg Column.failed hmeasured.rest).trans hfailed)
  have hon : (s.measure c.toNat x).on VCP_CAL_CFG_FREEZE = true := by
    rw [State.on, fld_congr (hmeasured.parts .regs (by decide)), hfreeze]
    rfl
  rw [hon, (congrArg Column.recal hmeasured.rest).trans hrecal, Bool.not_true, Bool.or_self, if_neg Bool.false_ne_true] at heq
  generalize s.measure c.toNat x = y at *
  obtain ⟨⟨b, hb⟩, hjudged, hparts⟩ := judged_shows (s := y) (c := c.toNat) hmeasured.noneStayed
  have hall : only [.vcp, .regs, .recd, .sett] s (s.boundary c.toNat m) := by
    rw [heq]
    exact only_trans (only_mono (by simp) hmeasured.parts) hparts
  refine ⟨_, couplingBoundary_runs hlive hcol hcalm hall (by decide) (by decide), ?_⟩
  rw [heq, hb]
  refine ⟨hmeasured.rotAt, hmeasured.rotPos, hmeasured.codes, fun hkey => ⟨hmeasured.resid hkey, fun hle => ?_, fun hlt => ?_⟩,
    fun d hd => (hjudged d hd).trans (hmeasured.others d hd), heq ▸ hall⟩
  · exact (hmeasured.seen hkey).trans (if_pos hle)
  · exact (hmeasured.seen hkey).trans (if_neg (by omega))

/-! ## A forced boundary (R262, R244) -/

theorem cmdOffset_keeps (cmd : Option Bool) : only [.free, .chan, .regs] s (s.cmdOffset n cmd) ∧ s.free ≤ (s.cmdOffset n cmd).free
    ∧ (s.cmdOffset n cmd).fld VCP_CAL_CFG_FREEZE = s.fld VCP_CAL_CFG_FREEZE := by
  unfold State.cmdOffset
  dsimp only
  split
  · exact ⟨only_refl _ _, le_refl _, rfl⟩
  next up =>
    split
    · exact ⟨only_refl _ _, le_refl _, rfl⟩
    · obtain ⟨y, hy⟩ : ∃ y, ({ s with free := s.free + 1 } : State).setChn n { s.chn n with offsets := (s.chn n).offsets.set 4 (if up then (s.chn n).offsets.getD 4 0 + 1 else (s.chn n).offsets.getD 4 0 - 1) } = y := ⟨_, rfl⟩
      have honly : only [.free, .chan] s y := hy ▸ only_trans (only_mono (k := [.free]) (by simp) (only_free _)) (only_mono (k := [.chan]) (by simp) (only_setChn _ _))
      have hfree : y.free = s.free + 1 := by rw [← hy]; rfl
      rw [hy]
      refine ⟨only_trans (only_mono (by simp) honly) (only_mono (k := [.regs]) (by simp) (only_set _ _)), ?_, ?_⟩
      · rw [only_set _ _ .free (by decide), hfree]
        omega
      · exact (fld_set_ne y (f := CHAN_TRAIN_CA_MARGIN n) (g := VCP_CAL_CFG_FREEZE) (by simp only [CHAN_TRAIN_CA_MARGIN, VCP_CAL_CFG_FREEZE]; omega) _).trans (fld_congr (honly .regs (by decide)) _)

/-- The findings of a forced boundary come from free values. -/
def forcedTap (s : State) : Tap :=
  { up := Config.freeNat (s.free + 0) % 2 == 1, cmd := if Config.freeNat (s.free + 1) % 3 = 0 then none else some (Config.freeNat (s.free + 1) % 3 == 1) }

theorem boundaryForced_moves {c : BitVec 5} (hlive : s.live = true) (hcalm : s.calm = true) (hcol : s.colOn c.toNat = true) (hdrop : (s.col c.toNat).testDrop = false)
    (hfailed : (s.col c.toNat).failed = []) (hseen : (s.col c.toNat).residSeen = []) (hrecal : (s.col c.toNat).recal = false) (hfreeze : s.fld VCP_CAL_CFG_FREEZE = 0) :
    ∃ t, exec (.couplingBoundaryForced c) s = .next t ∧ (t.col c.toNat).rotPos = (s.col c.toNat).rotPos + 1 ∧ s.free + 3 ≤ t.free
      ∧ (∀ d, d ≠ c.toNat → t.col d = s.col d) ∧ only [.vcp, .chan, .regs, .free, .recd, .sett] s t := by
  obtain ⟨w, hw⟩ : ∃ w, ({ s with free := s.free + 2 } : State) = w := ⟨_, rfl⟩
  have hdrawn : only [.free] s w := hw ▸ only_free _
  have hfree : w.free = s.free + 2 := by rw [← hw]
  have hwcol : ∀ d, w.col d = s.col d := col_of_only hdrawn (by decide)
  obtain ⟨hoffset, hmore, hstill⟩ := cmdOffset_keeps (s := w) (n := c.toNat) (forcedTap s).cmd
  have hycol : ∀ d, (w.cmdOffset c.toNat (forcedTap s).cmd).col d = s.col d := fun d => (col_of_only hoffset (by decide) d).trans (hwcol d)
  have hmode : ¬ (w.fld (VCP_COL_STATUS_MODE c.toNat) = 0 ∨ w.fld (VCP_COL_STATUS_MODE c.toNat) = 3) := by
    rw [fld_congr (hdrawn .regs (by decide))]
    exact colOn_mode hcol
  have heq := boundary_eq (s := w) (m := forcedTap s) hmode (by rw [hwcol]; exact hdrop) rfl (by rw [show (forcedTap s).resids = [] from rfl, List.foldl_nil, hycol]; exact hfailed)
  rw [show (forcedTap s).resids = [] from rfl, List.foldl_nil] at heq
  have hon : (w.cmdOffset c.toNat (forcedTap s).cmd).on VCP_CAL_CFG_FREEZE = false := by
    rw [State.on, hstill, fld_congr (hdrawn .regs (by decide)), hfreeze]
    rfl
  rw [hycol, hrecal, hon, Bool.not_false, Bool.or_true, if_pos rfl] at heq
  generalize w.cmdOffset c.toNat (forcedTap s).cmd = y at *
  obtain ⟨⟨n, b⟩, hn⟩ : ∃ x, y.settingFrom c.toNat (y.col c.toNat).rotAt = x := ⟨_, rfl⟩
  obtain ⟨hstep, hothers, honly, hnext⟩ := stepSetting_shows (s := y) (c := c.toNat) (n := n) (w := b) (forcedTap s).up (by rw [hycol, hrecal, ← hycol]; exact hn)
  rw [hycol, hrecal, if_neg Bool.false_ne_true] at hstep
  generalize y.stepSetting c.toNat (forcedTap s).up = z at *
  obtain ⟨⟨b', hb⟩, hjudged, hparts⟩ := judged_shows (s := z) (c := c.toNat) (noneStayed_nil (by rw [hstep]; exact hseen))
  have hall : only [.vcp, .chan, .regs, .free, .recd, .sett] s (w.boundary c.toNat (forcedTap s)) := by
    rw [heq]
    exact only_trans (only_trans (only_trans (only_mono (by simp) hdrawn) (only_mono (by simp) hoffset)) (only_mono (by simp) honly)) (only_mono (by simp) hparts)
  have hexec : exec (.couplingBoundaryForced c) s = .next (w.boundary c.toNat (forcedTap s)) := by
    show execCouplingBoundaryForced c s = _
    unfold execCouplingBoundaryForced
    rw [if_pos (by simp [hlive, hcol]), ← settle_calm ((calm_of (hall .pwr (by decide)) (hall .flt (by decide))).trans hcalm), ← hw]
    rfl
  refine ⟨_, hexec, ?_, ?_, fun d hd => ?_, hall⟩
  · rw [heq, hb, hstep]
  · rw [heq, hparts .free (by decide), hnext]
    omega
  · rw [heq, hjudged d hd, hothers d hd, hycol]

/-! ## Forced recalibration (R264) -/

theorem forcedRecal_starts {c : BitVec 5} (hawake : s.awake = true) (hcol : s.colOn c.toNat = true) (hdue : (s.col c.toNat).recalDue = true) (hrecal : (s.col c.toNat).recal = false)
    (hfour : s.recalsRunning < 4) :
    ∃ t, exec (.forcedRecal c) s = .next t ∧ t.col c.toNat = { s.col c.toNat with recal := true, recalDue := false, recAt := 0 } ∧ (∀ d, d ≠ c.toNat → t.col d = s.col d)
      ∧ t.reg VCP_RECAL_FORCED.off = (s.reg VCP_RECAL_FORCED.off + 1) % 2 ^ 32 ∧ regsBut [VCP_RECAL_FORCED.off] s t ∧ only [.vcp, .regs] s t := by
  obtain ⟨y, hy⟩ : ∃ y, s.setCol c.toNat { s.col c.toNat with recal := true, recalDue := false, recAt := 0 } = y := ⟨_, rfl⟩
  have hcolY : y.col c.toNat = { s.col c.toNat with recal := true, recalDue := false, recAt := 0 } := hy ▸ col_setCol_same _
  have hothers : ∀ d, d ≠ c.toNat → y.col d = s.col d := fun d hd => hy ▸ col_setCol_ne hd _
  have honly : only [.vcp] s y := hy ▸ only_setCol _ _
  have hinc : only [.regs] y (y.inc VCP_RECAL_FORCED) := only_inc
  refine ⟨y.inc VCP_RECAL_FORCED, ?_, (col_of_only hinc (by decide) _).trans hcolY, fun d hd => (col_of_only hinc (by decide) d).trans (hothers d hd), ?_, ?_,
    only_trans (only_mono (by simp) honly) (only_mono (by simp) hinc)⟩
  · show execForcedRecal c s = _
    unfold execForcedRecal
    dsimp only
    rw [if_pos (by simp [hawake, hcol, hdue, hrecal, hfour]), hy]
  · rw [reg_inc_word rfl rfl, reg_congr (honly .regs (by decide))]
  · exact regsBut_trans (regsBut_of_regs (honly .regs (by decide))) (regsBut_set (by decide))

/-- A column whose forced recalibration has ended, with the temperatures of that moment. -/
def Recalibrated (n : Nat) (temps : List Int) (t : State) : Prop := (t.col n).recal = false ∧ (t.col n).calTemp = temps

theorem Recalibrated.of_vcp (h : Recalibrated n temps t) (hv : u.vcp = t.vcp) : Recalibrated n temps u := by
  rwa [Recalibrated, col_congr hv, ← Recalibrated]

theorem Recalibrated.of_only {l : List Part} (h : Recalibrated n temps t) (ho : only l t u) (hl : Part.vcp ∉ l) : Recalibrated n temps u := h.of_vcp (ho .vcp hl)

theorem Recalibrated.setCol {k : Column} (hk : k.recal = false ∧ k.calTemp = temps) : Recalibrated n temps (t.setCol n k) := by
  rwa [Recalibrated, col_setCol_same]

theorem Recalibrated.takeCal (h : Recalibrated n temps t) (m : CoilCal) : Recalibrated n temps (t.takeCal n m) := by
  unfold State.takeCal
  dsimp only
  split
  · exact h
  · exact .setCol h

theorem Recalibrated.judgeResid (h : Recalibrated n temps t) : Recalibrated n temps (t.judgeResid n) := by
  obtain ⟨⟨b, hb⟩, -⟩ := judgeResid_shows (s := t) (c := n)
  rw [Recalibrated, hb]
  exact h

theorem Recalibrated.coilFail (h : Recalibrated n temps t) : Recalibrated n temps (t.coilFail n p) := by
  obtain ⟨y, hy⟩ : ∃ y, (t.inc VCP_COIL_FAILS).set (VCP_COL_STATUS_LAST_FAIL n) (p + 1) = y := ⟨_, rfl⟩
  have honly : only [.regs] t y := hy ▸ only_trans only_inc (only_set _ _)
  have hnoted : Recalibrated n temps y := h.of_only honly (by decide)
  have hfence : Recalibrated n temps (y.fenceChannel n 1) := hnoted.of_only (fenceChannel_only 1) (by decide)
  unfold State.coilFail
  dsimp only
  rw [hy]
  split
  · split
    · exact hfence
    · have hwaits : ∀ l, Recalibrated n temps (y.setCol n { y.col n with failed := l }) := fun l => .setCol hnoted
      generalize (if (y.col n).failed.contains p then (y.col n).failed else ((y.col n).failed ++ [p]).mergeSort) = l
      specialize hwaits l
      generalize y.setCol n { y.col n with failed := l } = z at *
      split
      · exact hwaits.of_only (only_set _ _) (by decide)
      · exact hwaits
  · split
    · exact .setCol hnoted
    · exact hfence
  · exact hnoted

theorem Recalibrated.failCoil (h : Recalibrated n temps t) : Recalibrated n temps (t.failCoil n p) := by
  have hspare : Recalibrated n temps ((t.set (VCP_SPARE_FAILED n (p - 288)) 1).syncCol n) := by
    have hset : Recalibrated n temps (t.set (VCP_SPARE_FAILED n (p - 288)) 1) := h.of_only (only_set _ _) (by decide)
    generalize t.set (VCP_SPARE_FAILED n (p - 288)) 1 = y at *
    exact hset.of_only (only_sets _) (by decide)
  unfold State.failCoil
  split
  · split
    · exact h.coilFail
    · exact h
  · split
    · split
      · exact h
      · exact h.coilFail
    · split
      · exact hspare
      · exact h

theorem recalibrate_recalibrated (hrecal : (s.col n).recal = false) (found : List CoilCal) : Recalibrated n (s.layerTemps (layerOf n)) (s.recalibrate n found) := by
  unfold State.recalibrate
  dsimp only
  refine each_keeps (Recalibrated.judgeResid (each_keeps (Recalibrated.setCol ⟨hrecal, rfl⟩) fun x m hx => hx.takeCal m)) fun x p hx => hx.failCoil

theorem forcedRecal_ends {c : BitVec 5} (hrecal : (s.col c.toNat).recal = true) (found : List CoilCal) :
    ∃ t, exec (.forcedRecalDone c found) s = .next t ∧ (t.col c.toNat).recal = false ∧ (t.col c.toNat).calTemp = s.layerTemps (layerOf c.toNat) := by
  obtain ⟨y, hy⟩ : ∃ y, s.setCol c.toNat { s.col c.toNat with recal := false } = y := ⟨_, rfl⟩
  have hcolY : (y.col c.toNat).recal = false := by rw [← hy, col_setCol_same]
  have htemps : y.layerTemps (layerOf c.toNat) = s.layerTemps (layerOf c.toNat) := by rw [← hy]; rfl
  have hexec : exec (.forcedRecalDone c found) s = .next (((y.recalibrate c.toNat found).when (decide (s.sleep < 2)) (State.channelUp · c.toNat)).settle) := by
    show execForcedRecalDone c found s = _
    unfold execForcedRecalDone
    dsimp only
    rw [if_pos hrecal, hy]
  have hdone := recalibrate_recalibrated hcolY found
  rw [htemps] at hdone
  refine ⟨_, hexec, ?_⟩
  have hup : Recalibrated c.toNat (s.layerTemps (layerOf c.toNat)) ((y.recalibrate c.toNat found).when (decide (s.sleep < 2)) (State.channelUp · c.toNat)) :=
    hdone.of_only (only_when fun x => channelUp_only c.toNat) (by decide)
  exact hup.of_only settle_only (by decide)

/-- Settles O14: with nothing to switch, a boundary is one step of the rotation or of a forced recalibration (`stepSetting_shows`), or none, and what it
judges fails no coil (`judged_shows`); the end of a forced recalibration keeps the temperatures it noted whichever coils fail. -/
theorem couplingCommands : Obligations.CouplingCommands := by
  unfold Obligations.CouplingCommands
  refine fun c m s => ⟨fun hlive hcalm hcol hdrop hfailed hseen => ⟨fun hresids hcmd => ⟨fun hrecal hfreeze => ?_, fun hrecal => ?_⟩, fun hrecal hfreeze hcmd x hresids => ?_, fun hrecal hfreeze => ?_⟩,
    forcedRecal_starts, forcedRecal_ends⟩
  · exact boundary_rotates hlive hcalm hcol hdrop hfailed hseen hresids hcmd hrecal hfreeze
  · exact boundary_recalibrates hlive hcalm hcol hdrop hfailed hseen hresids hcmd hrecal
  · exact boundary_measures hlive hcalm hcol hdrop hfailed hseen hrecal hfreeze hcmd x hresids
  · exact boundaryForced_moves hlive hcalm hcol hdrop hfailed hseen hrecal hfreeze

end Sys2Proof.Proofs
end
